-- ==== Sys2Proof/Word.lean ====
section
/-! DEFINITION. The word types of the module: bytes and 32-bit register words (R9), and the plain
arithmetic on them. Every quantity the manual counts (cycles, rows, indices, register fields of a stated
width) is a `Nat` kept below its stated bound by the operation that writes it. -/

namespace Sys2Proof

/-- One byte of host memory. -/
abbrev Byte := BitVec 8

/-- One 32-bit register word (R9). -/
abbrev W32 := BitVec 32

/-- A time, or a count of cycles, in fabric cycles of 2.5 ns (R7). -/
abbrev Fc := Nat

/-- A module time or a length of time in nanoseconds (R8). -/
abbrev Ns := Nat

/-- An FP32 bit pattern, below 2^32. -/
abbrev F32 := Nat

end Sys2Proof
end

