-- ==== Sys2Proof/Payload.lean ====
section
/-! DEFINITION. The data that commands carry: a descriptor as the module reads it from host memory, and the
measured or received things that arrive from outside the block. Plain structures of numbers. -/

namespace Sys2Proof

/-- The block types that own a register window (R47), and beside them the gauge region (R43), a page of the doorbell
window (R42; the instance is the page), and the MSI-X window (R42). A SPE port is instance 4 or 5 of `eth`, which has the
same window (R364). -/
inductive Blk where
  | arb | rng | cqr | til | tke | sps | fnl | sfe | dbk | sbk | pps | xlk | nav | cam | isp
  | vxa | can | eth | hlk | fle | pnl | sto | jrn | upd | ksm | hlm | aoc | mem | gauge | doorbell | msix
  deriving DecidableEq, Repr

/-- The queues that the module writes without descriptors (R55). -/
inductive WriteQueue where
  | can (controller : Fin 8) (queue : Fin 2)
  | eth (port : Fin 6)
  | fleet
  | telemetry
  | rowSummary
  deriving DecidableEq, Repr

/-- A 64-byte descriptor (R67): the header fields and the twelve 32-bit words of the class body at 0x10–0x3F. -/
structure Desc where
  cls : Nat
  op : Nat
  phase : Bool
  fence : Bool
  noIrq : Bool
  /-- Reserved header bits, byte 0x02 [7:3]. -/
  reserved : Nat
  version : Nat
  classWord : Nat
  notBefore : Nat
  /-- Words at byte offsets 0x10, 0x14, … 0x3C. -/
  body : List Nat
  deriving DecidableEq, Repr

/-- Names an outstanding descriptor: ring and slot, and `pass` 0, or more where another descriptor of the same slot was
outstanding when it was submitted (R63). -/
structure Ref where
  ring : Nat
  slot : Nat
  pass : Nat
  deriving DecidableEq, Repr

/-- The write of a doorbell: the path it comes by (R74), `host` for the external host's, and its size in bytes (R9, R61). -/
structure DbWrite where
  host : Bool
  size : Nat
  deriving DecidableEq, Repr

/-- A commit point: its time, and the currents of the drive channels measured at it in mA. -/
structure CommitIn where
  t : Fc
  amps : List Nat
  deriving DecidableEq, Repr

/-- A drive channel and the filtered samples of its current in mA at the latest 0.5 µs steps (R168). -/
structure DrvTrace where
  ch : Fin 96
  trace : List Nat
  deriving DecidableEq, Repr

/-- What the diagnostics of a drive channel see (R195): the code, the low-side pin voltage in mV, the low-side current in
mA or the junction temperature in °C, and the fc since which it has held; `desat` says that the switch is out of
saturation. -/
structure DrvFaultSeen where
  code : Fin 8
  value : Nat
  since : Fc
  desat : Bool
  deriving DecidableEq, Repr

/-- The samples of a switch channel's current in a millisecond in mA, one every 10 µs, and those of the odd member of a
pair (R213). -/
structure MsSamples where
  own : List Nat
  other : List Nat
  deriving DecidableEq, Repr

/-- The arrival of a cross-link frame: its time, and the PAIR_ID of its link header (R229). -/
structure XHead where
  t : Fc
  pair : Nat
  deriving DecidableEq, Repr

/-- A cross-link frame as received, from the link header to the CRC, and its time (R229). -/
structure RawFrame where
  t : Fc
  words : List Nat
  deriving DecidableEq, Repr

/-- A search request (R264), and whether ephemeris or almanac of its satellite are known (R263). -/
structure SearchReq where
  ref : Ref
  known : Bool
  deriving DecidableEq, Repr

/-- What is known of a satellite: its elevation in degrees, the signals it transmits, whether its ephemeris or almanac are
known, and where its signal lies (R262, R263): the Doppler in Hz, its distance from the predicted one with the TCXO's
uncertainty in Hz, and the distance of the code phase from the predicted one with the range uncertainty, both in ns. -/
structure SatAid where
  elev : Nat
  sends : List Nat
  known : Bool
  doppler : Int
  offHz : Nat
  tcxoHz : Nat
  codeNs : Nat
  rangeNs : Nat
  deriving DecidableEq, Repr

/-- What an Announce tells of a grandmaster, in the order in which the best master clock algorithm compares it (IEEE
802.1AS-2020): the lower value is better. -/
structure GmVector where
  priority1 : Nat
  clockClass : Nat
  accuracy : Nat
  variance : Nat
  priority2 : Nat
  identity : Nat
  steps : Nat
  deriving DecidableEq, Repr

/-- A gPTP message or its absence (R360): an Announce, the lapse of a port's Announce, a Sync with the fc of its
start-of-frame delimiter, its Follow_Up with the precise origin time, and a peer delay exchange with its four times. -/
inductive GptpMsg where
  | announce (v : GmVector)
  | quiet
  | sync (sof : Nat)
  | followUp (origin : Nat)
  | peerDelay (t1 t2 t3 t4 : Nat)
  deriving DecidableEq, Repr

/-- Why the host link goes down, and what the status registers of Advanced Error Reporting hold then (R362, R365). -/
structure LinkDown where
  d3 : Bool
  uncorr : Nat
  corr : Nat
  deriving DecidableEq, Repr

/-- A frame start packet: its virtual channel, its header (0 good, 1 corrected, 2 a larger error) and its frame number
(R323). -/
structure CamStart where
  vc : Fin 16
  hdr : Fin 3
  csi : Nat
  deriving DecidableEq, Repr

/-- A frame end packet: its port, its virtual channel and its header (R323). -/
structure CamEnd where
  port : Fin 4
  vc : Fin 16
  hdr : Fin 3
  deriving DecidableEq, Repr

/-- A sample of a general input (R153): its fc, the converter code and the value in 10⁻⁶ of the mode's unit. -/
structure GinSample where
  input : Nat
  at_ : Nat
  raw : Nat
  micro : Nat
  deriving DecidableEq, Repr

/-- A conversion of a load cell (R154): its fc and the bridge output in 10⁻⁶ mV/V. -/
structure LclSample where
  cell : Nat
  at_ : Nat
  nv : Int
  deriving DecidableEq, Repr

/-- What the analogue front end hands over at a tick edge: the samples of general inputs and load cells since the latest
one. -/
structure SfeSamples where
  gin : List GinSample
  lcl : List LclSample
  deriving DecidableEq, Repr

/-- What a filter step of NAV has from its receiver and inertial sensor (R266–R268). -/
structure NavMeas where
  lat : Int
  lon : Int
  height : Int
  /-- Ground speed, positive forward. -/
  speed : F32
  velN : F32
  velE : F32
  velU : F32
  /-- Attitude in the frame of the inertial sensor. -/
  roll : F32
  pitch : F32
  slopeOk : Bool
  /-- Resolved length in mm and heading of the baseline from ANT-A to ANT-B, if it was resolved. -/
  baseline : Option (Nat × F32)
  /-- Course over ground, the heading as the gyro propagates it, and their accuracy in 0.01°. -/
  course : F32
  gyro : F32
  hdgAcc : Nat
  /-- Fix types 1–4 that the observations support, one bit each. -/
  fixMask : Nat
  /-- SBAS satellites whose corrections fix type 2 would use, and those that have sent message type 0 since the latest
  step. -/
  sbas : List Nat
  sbasZero : List Nat
  /-- Elevations in degrees of satellites: the lowest SIG_INDEX of the system, the satellite, the elevation. -/
  sky : List (Nat × Nat × Nat)
  /-- TCXO temperature in °C. -/
  tcxo : Int
  hAcc : Nat
  sats : Nat
  deriving DecidableEq, Repr

/-- The navigation record (R269), its reals as FP32 patterns. -/
structure NavRec where
  solTime : Nat
  lat : Int
  lon : Int
  height : Int
  speed : F32
  velN : F32
  velE : F32
  velU : F32
  heading : F32
  roll : F32
  pitch : F32
  hAcc : Nat
  hdgAcc : Nat
  fix : Nat
  posValid : Bool
  speedValid : Bool
  headingValid : Bool
  slopeValid : Bool
  hdgCourse : Bool
  sats : Nat
  corrAge : Nat
  timeState : Nat
  deriving DecidableEq, Repr

/-- The record before the first filter step. -/
def NavRec.zero : NavRec :=
  { solTime := 0, lat := 0, lon := 0, height := 0, speed := 0, velN := 0, velE := 0, velU := 0, heading := 0,
    roll := 0, pitch := 0, hAcc := 0, hdgAcc := 0, fix := 0, posValid := false, speedValid := false,
    headingValid := false, slopeValid := false, hdgCourse := false, sats := 0, corrAge := 0, timeState := 0 }

/-- A row extract for the map engine (R284). `dig` has one bit per general input. -/
structure Extract where
  row : Nat
  edge : Nat
  q00 : F32
  q00Bad : Bool
  q08 : F32
  q08Bad : Bool
  lat : Int
  lon : Int
  heading : F32
  roll : F32
  pitch : F32
  posValid : Bool
  headingValid : Bool
  slopeValid : Bool
  dig : Nat
  deriving DecidableEq, Repr

/-- A stamp of the hybrid clock (R375). -/
structure Stamp where
  t : Nat
  c : Nat
  a : Nat
  deriving DecidableEq, Repr

/-- A DELTA message (R380): cell entries are pairs of index and the cell's bytes as a number. -/
structure Delta where
  author : Nat
  market : Nat
  tile : Nat
  t : Nat
  c : Nat
  origin : Nat
  cellCm : Nat
  cells : List (Nat × Nat)
  /-- The 96 bytes of the signature. -/
  sig : List Nat
  deriving DecidableEq, Repr

/-- A STATUS message (R386), with its bytes. -/
structure StatusMsg where
  author : Nat
  market : Nat
  time : Nat
  timeState : Nat
  payload : List Nat
  raw : List Nat
  deriving DecidableEq, Repr

/-- What the module reads from a member certificate and its chain (R368, R369): the bytes of the URIs in its
subjectAltName, whether it chains to the market root with at most one intermediate, the validity common to the whole chain,
the digitalSignature usage, and the certificate in DER. -/
structure Cert where
  uris : List (List Nat)
  serial : Nat
  notBefore : Nat
  notAfter : Nat
  chains : Bool
  usage : Bool
  der : List Nat
  deriving DecidableEq, Repr

/-- Fleet messages (R373). -/
inductive FleMsg where
  | delta (d : Delta)
  | announce (c : Cert)
  | status (m : StatusMsg)
  | summary (figures : List Stamp)
  | certReq (pitch : Nat)
  | bye
  | keepalive
  deriving DecidableEq, Repr

/-- A stitch record (R87). -/
structure Stitch where
  typ : Nat
  every : Nat
  offset : Nat
  n : Nat
  opA : Nat
  opB : Nat
  deriving DecidableEq, Repr

/-- A pattern as admitted (R86–R89). -/
structure Pattern where
  patId : Nat
  periodMin : Nat
  periodMax : Nat
  /-- The constant area, as bytes. -/
  consts : List Nat
  stitches : List Stitch
  cost : Nat
  deriving DecidableEq, Repr

/-- A drive-channel command (R134, R174, R175), its fields as they stand in the descriptor. -/
inductive DrvCmd where
  /-- Start delay in 0.5 µs, ON_TIME in µs (0xFFFF_FFFF: until OFF), hold level in mA (0: I_HOLD). -/
  | profile (delay onTime holdMa : Nat)
  /-- Current in mA; dither frequency in Hz and amplitude in mA, or none for the channel's configured dither. -/
  | prop (ma : Nat) (dither : Option (Nat × Nat))
  | off
  /-- CLEAR of the channel or of its bank. -/
  | clear (bank : Bool)
  /-- Shots per second (SHOT_RATE). -/
  | rate (r : F32)
  deriving DecidableEq, Repr

/-- A switch-channel command: duty in permille of full, or REARM (R208, R219). -/
inductive SwCmd where
  | set (duty : Nat)
  | rearm
  deriving DecidableEq, Repr

/-- A CAN frame as staged or received (R349, R351). -/
structure CanFrame where
  ide : Bool
  rtr : Bool
  fdf : Bool
  brs : Bool
  esi : Bool
  canId : Nat
  dlc : Nat
  data : List Nat
  deriving DecidableEq, Repr

/-- A value of a quality measure with its stamp (R114). -/
structure QVal where
  value : F32
  invalid : Bool
  stamp : Nat
  deriving DecidableEq, Repr

/-- State of one function loop (R133). -/
structure LoopSt where
  sr : F32
  ig : F32
  df : F32
  fbLast : F32
  /-- Last output committed; none since arming (R135). -/
  out : Option F32
  /-- The loop has run since arming. -/
  started : Bool
  sat : Bool
  deriving DecidableEq, Repr

/-- Filter state of an estimator (R157): y, and whether a valid evaluation has been made since arming. -/
structure EstSt where
  y : F32
  valid : Bool
  deriving DecidableEq, Repr

/-- Warm state kept from the last committed solve (R123). -/
structure Warm where
  epoch : Nat
  region : Nat
  x : List F32
  z : List F32
  y : List F32
  deriving DecidableEq, Repr

/-- A command for an output channel, as a COMMIT carries it (R227). -/
inductive OutCmd where
  | drv (ch : Nat) (c : DrvCmd)
  | sw (ch : Nat) (c : SwCmd)
  deriving DecidableEq, Repr

/-- A command of a COMMIT frame: whether the primary's pattern staged it, or software sent it (R173, R227). -/
structure SentCmd where
  staged : Bool
  cmd : OutCmd
  deriving DecidableEq, Repr

/-- The HEARTBEAT payload (R240). -/
structure Heartbeat where
  row : Nat
  bid : Nat
  overrun : Bool
  stopped : Bool
  disarmed : Bool
  handover : Bool
  fallback : Bool
  role : Nat
  mirrorCount : Nat
  digest : Nat
  epoch : Nat
  edge : Nat
  deriving DecidableEq, Repr

/-- What a RESYNC frame delivers (R251). -/
inductive ResyncItem where
  | pattern (fallback : Bool) (p : Pattern)
  | liveTable (image : List Nat) (epoch : Nat)
  | pendingTable (image : List Nat)
  | rowCounter (row : Nat)
  | solver (p : List F32) (pFromFallback : Bool) (warm : Option Warm) (bands : Option (Nat × Nat))
  | loop (slot : Nat) (st : LoopSt)
  | estimator (measure : Nat) (st : EstSt)
  | envelope (slot : Nat) (limits : Option (F32 × F32))
  | calibration (measure : Nat) (a b : F32)
  | post (measure : Nat) (v : QVal)
  | classBank (bank : Nat)
  /-- A partner that enters RESYNC asks for the primary's state. -/
  | pull
  /-- The partner confirms a forwarded pattern or table set. -/
  | confirm
  /-- The forwarded pattern or table set has become pending: the frame's row is that at whose edge it takes effect. -/
  | dated
  deriving DecidableEq, Repr

/-- What the module's stop before a power state measures: module times of NAV's oldest ephemeris and of its almanac,
the receiver's frequency uncertainty in ppb and the TCXO temperature in °C (R272, R274). -/
structure EntryMeas where
  ephemeris : Nat
  almanac : Nat
  eps : Nat
  tcxo : Int
  deriving DecidableEq, Repr

/-- What an ageing monitor measured (R455): the value of a KIND 2 to 8 monitor, and the valid measurements it rests on. -/
structure AgeMeas where
  kind : Nat
  inst : Nat
  item : Nat
  value : F32
  count : Nat
  deriving DecidableEq, Repr

/-- What a cast-on finds (R414): the boot seal's check and the full verification of a bank pass, the sense of a fault in
the copy of a pending image, and the inputs whose converter fails the self-test, as 256 × class + input (R161). -/
structure CastIn where
  sealOk : Bool
  verifyOk : Bool
  copyFault : Option (Bool × Nat × Nat)
  badInputs : List Nat
  deriving DecidableEq, Repr

end Sys2Proof
end

