-- ==== Sys2Proof/Syntax.lean ====
section
/-! DEFINITION. The commands of the block: one constructor for each row of spec/opcode_table.json. The first operand
`t` is the time of the command in fc since the model's start (for the arbiters, a cycle of the instance's own
domain); what the module measures or receives from outside arrives as further operands. -/

namespace Sys2Proof

/-- The commands, in the order of the opcode table. -/
inductive Instr where
  -- Arbiters
  /-- ARB_REQUEST (R28): A normal requester raises its request at an arbiter instance; it is granted if highest-ranked and the resource is free, otherwise it receives a ticket. `reqs` are the requesters that raise their requests in this cycle. -/
  | arbRequest (t : Nat) (inst : Fin 22) (reqs : List Nat)
  /-- ARB_RELEASE (R29): The holder releases its grant and the next highest-ranked requester is granted in the following cycle. -/
  | arbRelease (t : Nat) (inst : Fin 22)
  /-- TENURE_EXPIRY (R29): A normal grant reaches its maximum tenure L and ends. -/
  | tenureExpiry (t : Nat) (inst : Fin 22)
  /-- ARB_WITHDRAW (R30): A requester withdraws its request, costing one dead cycle if in the first cycle of its grant, or nothing and voiding its ticket if not yet granted. -/
  | arbWithdraw (t : Nat) (inst : Fin 22) (req : Nat)
  /-- EMERGENCY_REQUEST (R32): The emergency requester pre-empts the holder or is granted ahead of all normal requesters. -/
  | emergencyRequest (t : Nat) (inst : Fin 22)
  /-- EMERGENCY_GRANT_END (R33): An emergency grant ends within E cycles and the pre-empted holder resumes its remaining tenure. -/
  | emergencyGrantEnd (t : Nat) (inst : Fin 22)
  /-- CLEAR_COUNTS (R40): A write of 1 to ARB_CLEAR.CLEAR_COUNTS zeroes the pre-emption and dead-cycle counters. -/
  | clearCounts (t : Nat) (inst : Fin 22)
  -- Register accesses
  /-- REGISTER_WRITE (R12): A write to a register field with no row of its own sets it according to its access code, or is ignored if it is RWA and the block is armed. `off` is the offset in the window of instance `inst`, `size` the access's bytes. -/
  | registerWrite (t : Fc) (b : Blk) (inst off : Nat) (v : Fin 4294967296) (size : Nat)
  /-- RW1C_WRITE (R13): A write clears the RW1C bits written with 1, unless the module sets the same bit in the same cycle. -/
  | rw1cWrite (t : Fc) (b : Blk) (inst off : Nat) (v : Fin 4294967296) (size : Nat)
  /-- ROL_READ (R12): A read of an ROL field returns the latched value and releases the latch. -/
  | rolRead (t : Fc) (b : Blk) (inst off size : Nat)
  /-- LO_HALF_READ (R106): A read of the low half of a 64-bit register pair latches the high half for the next read. A read of the low half, or of the high half that a read of the low half has latched. -/
  | loHalfRead (t : Fc) (b : Blk) (inst off size : Nat)
  -- Rings, doorbells and the till
  /-- RING_ENABLE (R59): A write of 1 to RING_CTRL.ENABLE enables a submission ring and resets its pointers and error, or is refused with ENABLE_REFUSED. -/
  | ringEnable (t : Fc) (ring : Fin 256)
  /-- RING_DISABLE (R59): A write of 0 to an enabled ring's ENABLE stops fetching and applies the abort rule to every outstanding descriptor. -/
  | ringDisable (t : Fc) (ring : Fin 256)
  /-- CQ_ENABLE (R60): A change of CQ_CTRL.ENABLE from 0 to 1 resets the write slot, head and free count of a completion ring. -/
  | cqEnable (t : Fc) (cq : Fin 64)
  /-- CQ_DISABLE (R60): A write of 0 to CQ_CTRL.ENABLE disables the completion ring unless an enabled submission ring is bound to it. -/
  | cqDisable (t : Fc) (cq : Fin 64)
  /-- QUEUE_ENABLE (R55): Enabling a queue that the module writes without descriptors resets its write slot and head to slot 0 with phase 1. -/
  | queueEnable (t : Fc) (q : WriteQueue) (on : Bool)
  /-- QUEUE_HEAD_WRITE (R352): Software writes the head index of a descriptor-free queue, returning entries to the module. -/
  | queueHeadWrite (t : Fc) (q : WriteQueue) (idx : Fin 65536) (ph : Fin 2)
  /-- TAIL_DB (R63): A tail doorbell write submits descriptors if it passes the range and overrun tests, or is discarded and may set ERROR. `w` is the path the write comes by (R74) and its size (R9), as in the other doorbell rows. -/
  | tailDb (t : Fc) (ring : Fin 256) (idx : Fin 65536) (ph : Fin 2) (w : DbWrite)
  /-- ABORT_DB (R71): An abort doorbell is registered at the till and acts on an outstanding descriptor according to its sequencing. -/
  | abortDb (t : Fc) (ring : Fin 256) (idx : Fin 65536) (w : DbWrite)
  /-- HEAD_DB (R66): A head doorbell write returns completion slots to the module, or is discarded if it would release unwritten slots. -/
  | headDb (t : Fc) (cq : Fin 64) (idx : Fin 65536) (ph : Fin 2) (w : DbWrite)
  /-- DESCRIPTOR_FETCH (R64): The module fetches the next descriptor of a ring once its completion ring has a free slot and any fence is satisfied, reserving that slot. `d` is what the module reads from host memory; `fault` says that the read failed. -/
  | descriptorFetch (t : Fc) (ring : Fin 256) (d : Desc) (fault : Bool)
  /-- TILL_ACCEPT (R68): The till accepts a record and assigns till sequence numbers to it and its completions. -/
  | tillAccept (t : Fc)
  /-- TILL_OUTPUT_WRITE (R37): An accepted record is written to the till output queue 8 fc after acceptance. -/
  | tillOutputWrite (t : Fc)
  /-- COMPLETION_WRITE (R65): A completion entry leaves the till output queue as one aligned 16-byte write to host memory, freeing its place. -/
  | completionWrite (t : Fc)
  /-- CQ_DELAY_EXPIRY (R65): The moderation DELAY expires after the first unsignalled entry and the ring's interrupt is raised. -/
  | cqDelayExpiry (t : Fc) (cq : Fin 64)
  /-- HOST_LINK_DOWN (R75): The host link goes down, disabling every ring with HOST 1 and abandoning its outstanding descriptors without completions. `x` says whether the cause is a move to D3hot, and what the AER status registers hold. -/
  | hostLinkDown (t : Fc) (x : LinkDown)
  -- Tick, row, stitches, patterns and tables
  /-- TICK_EDGE (R80): At a tick edge the row counter increments and a new row begins by latching the snapshot of SFE, NAV, table epoch and pattern. `x` holds the front end's conversions since the latest edge; `saved` says that the journal took a new epoch. -/
  | tickEdge (t : Fc) (x : SfeSamples) (saved : Bool)
  /-- GATHER_GROUP (R143): The stitch copies latched SFE group records into the workspace. The time is that of the stitch's end. -/
  | gatherGroup (t : Fc)
  /-- ESTIMATE (R157): The stitch evaluates and filters the quality estimators of a range of measures. -/
  | estimate (t : Fc)
  /-- REGION_SELECT (R122): The stitch chooses the live operating region from mass flow and moisture with hysteresis. -/
  | regionSelect (t : Fc)
  /-- SOLVE (R123): The stitch runs the fixed-iteration ADMM solve and selects its outcome and setpoints. -/
  | solve (t : Fc)
  /-- LOOP (R133): The stitch runs the control law of a range of function loops and stages their outputs. -/
  | loop (t : Fc)
  /-- STAGE_DRIVE (R173): The stitch stages loop outputs for pattern-owned drive channels. -/
  | stageDrive (t : Fc)
  /-- STAGE_SWITCH (R207): The stitch stages loop duties for pattern-owned switch channels. -/
  | stageSwitch (t : Fc)
  /-- COMPUTE (R84): The stitch executes a count of compute instructions on the workspace. -/
  | compute (t : Fc)
  /-- CAN_STAGE (R349): The stitch encodes CAN frame templates from staging words for handover at commit. -/
  | canStage (t : Fc)
  /-- MIRROR (R230): The stitch sends blocks of mirrored state to the partner in MIRROR frames. -/
  | mirror (t : Fc)
  /-- LOCKSTEP_MISMATCH (R96): Sequencer outputs disagree: a dissenter is masked, or a two-against-two split ends the row as a LOCKSTEP overrun. `outputs` are those of sequencers 0 to 3 in this fc. -/
  | lockstepMismatch (t : Fc) (outputs : List Nat)
  /-- COMMIT_POINT (R80): At the commit point the staged commands and due host descriptors are passed to the plane supervisors with the current bid. `c` holds its time and the currents measured at it in mA, of the drive channels. -/
  | commitPoint (c : CommitIn)
  /-- TILL_FLUSH (R83): At the end of commit the row records are flushed to the till, the row summary is written and the snapshot is exposed. `amps` holds the currents of the switch channels in mA, as measured at the commit point. -/
  | tillFlush (t : Fc) (amps : List Nat)
  /-- PATTERN_LOAD (R92): A pattern load descriptor copies a pattern into its slot or staging area. `image` holds the 32-bit words at the source address. -/
  | patternLoad (t : Fc) (r : Ref) (image : List Nat)
  /-- PATTERN_ADMISSION (R88): When the copy of a pattern ends, its checks and admission budget are applied and it is admitted, made pending or rejected. `ecc` says that the copy met an uncorrectable error. -/
  | patternAdmission (t : Fc) (ecc : Bool)
  /-- TABLE_SET (R103): A table set descriptor copies a set into the lowest free table buffer, marked LOADING. -/
  | tableSet (t : Fc) (r : Ref) (image : List Nat)
  /-- TABLE_SET_CHECK (R130): When the copy of a table set ends, its checks make the buffer PENDING, superseding any earlier pending set, or free it with a rejection. -/
  | tableSetCheck (t : Fc) (ecc : Bool)
  /-- PROMOTE (R90): The descriptor returns execution from the fallback to the main pattern at the next tick edge. -/
  | promote (t : Fc) (r : Ref)
  /-- TKE_ARM (R93): A write of ARM 1 arms the TKE if all conditions hold, otherwise records ARM_ERR. `saved` says that the journal took the new epoch. -/
  | tkeArm (t : Fc) (saved : Bool)
  /-- TKE_DISARM (R93): A write of ARM 0 stops commits from the next commit point. -/
  | tkeDisarm (t : Fc)
  /-- RREC_HEAD_WRITE (R105): Software returns row-summary slots by writing TKE_RREC_HEAD. -/
  | rrecHeadWrite (t : Fc) (idx : Fin 65536) (ph : Fin 2)
  -- General service: quality, envelope, calibration
  /-- QUAL_POST (R117): Software posts a host-sourced quality value with its stamp into the measure's input slot. `r` names the descriptor, by ring and slot. -/
  | qualPost (t : Fc) (r : Ref)
  /-- ENVELOPE_SET (R119): Software sets or releases a slot's operator envelope, effective at the next tick edge. -/
  | envelopeSet (t : Fc) (r : Ref)
  /-- CAL_SET (R159): Software sets the A and B coefficients of an estimator, effective at the next tick edge. -/
  | calSet (t : Fc) (r : Ref)
  /-- CLS_SELECT (R150): Software selects the live classifier rule bank, pending until the next tick edge. -/
  | clsSelect (t : Fc) (r : Ref)
  -- Crop-flow and loss sensing
  /-- IMPACT_PULSE_OPEN (R146): An impact channel opens a pulse at the first sample above TRIG. `quiet` are the conversions since the latest pulse of the channel, and `x` is the one after them, which opens a pulse. -/
  | impactPulseOpen (t : Fc) (ch : Fin 48) (quiet : List Int) (x : Int)
  /-- IMPACT_PULSE_CLOSE (R149): After HOLD_OFF samples at or below TRIG the pulse closes and is classified or counted as a pile-up. `x` is the opening conversion, and `samples` are those after it. -/
  | impactPulseClose (t : Fc) (ch : Fin 48) (x : Int) (samples : List Int)
  /-- IMPACT_STUCK (R147): A pulse still open 4,096 samples after opening sets STUCK and invalidates the channel for the sampled tick. -/
  | impactStuck (t : Fc) (ch : Fin 48) (samples : List Int)
  /-- FRQ_EDGE (R151): A frequency input records a qualified rising edge after holding its level for MIN_PULSE. The input has held its new level for `held` fc. -/
  | frqEdge (t : Fc) (n : Fin 32) (held : Nat)
  /-- QUAD_EDGE (R152): A quadrature pair counts an edge of either phase up or down, or flags an illegal step. `a` and `b` are the new levels of the phases. -/
  | quadEdge (t : Fc) (pair : Fin 16) (a b : Bool)
  /-- QUAD_ZERO (R152): A write to SFE_QUAD_ZERO zeroes a pair's position at the next tick edge. -/
  | quadZero (t : Fc) (mask : Fin 65536)
  /-- DIG_DEBOUNCE_EXPIRY (R153): A DIG general input changes level after holding the new level for DEBOUNCE_MS. `uv` and then `uvs` are the voltages in µV sampled since the latest report, one each 125 µs. -/
  | digDebounceExpiry (t : Fc) (n : Fin 64) (uv : Nat) (uvs : List Nat)
  /-- EXC_FAULT (R154): A load cell's excitation leaves its limits and sets EXC_FAULT and VALID 0. `ma` and `mv` are the excitation current and voltage measured. -/
  | excFault (t : Fc) (cell : Fin 4) (ma mv : Nat)
  /-- SSUP_FAULT_OFF (R155): A sensor supply over current or under voltage for 1 ms turns off, latching at the third turn-off within 10 s. -/
  | ssupFaultOff (t : Fc) (n : Fin 8) (ma mv : Nat) (since : Fc)
  /-- SSUP_RESTART (R155): A faulted sensor supply restarts 100 ms after its turn-off. -/
  | ssupRestart (t : Fc) (n : Fin 8)
  /-- SSUP_ENABLE (R155): Writing a supply's EN turns it on or off, and 0 then 1 releases a latched supply. -/
  | ssupEnable (t : Fc) (n : Fin 8) (en : Bool)
  /-- CONVERTER_SWAP (R161): Every PERIOD_S the SFE swaps a converter of each group out for checking against a reference and may retire it. `group` is the bit of SFE_CAL_STAT.RETIRED; `gain` is in 0.01 %, `offset` in codes. -/
  | converterSwap (t : Fc) (group : Fin 14) (gain offset : Nat)
  /-- ZT_SETTLE_EXPIRY (R162): The zero-tracking condition has held for SETTLE_MS and an averaging window begins. -/
  | ztSettleExpiry (t : Fc)
  /-- ZT_WINDOW_END (R162): A zero-tracking window ends and its mean is accepted as B or rejected. `start` names the window by the fc at which it began. -/
  | ztWindowEnd (t : Fc) (start : Fc)
  -- Drive banks
  /-- DRV_PROFILE (R183): A drive PROFILE command starts a boost profile or extends a running one. It acts on the next command that the plane supervisor has passed for the channel. -/
  | drvProfile (t : Fc) (ch : Fin 96)
  /-- DRV_PROP (R192): A drive PROP command sets a proportional channel's current and dither. -/
  | drvProp (t : Fc) (ch : Fin 96)
  /-- DRV_OFF (R182): A drive OFF command puts the channel into DECAY at the commit point. -/
  | drvOff (t : Fc) (ch : Fin 96)
  /-- DRV_CLEAR (R196): A drive CLEAR command releases a latched channel or bank if the fault is gone. `present` says that the fault is still found in the off state. -/
  | drvClear (t : Fc) (ch : Fin 96) (present : Bool)
  /-- BOOST_REQUEST (R184): At a profile's requested start its boost is granted the HSV or enters WAIT. `vbst` is the measured boost voltage in 0.1 V. -/
  | boostRequest (t : Fc) (ch : Fin 96) (vbst : Fin 1024)
  /-- BOOST_GAP_EXPIRY (R184): BOOST_GAP after a boost the HSV becomes available and the earliest waiting request is granted. -/
  | boostGapExpiry (t : Fc) (bank : Fin 12) (vbst : Fin 1024)
  /-- BOOST_WAIT_EXPIRY (R185): A waiting boost request whose shift reaches BOOST_WAIT is dropped with its whole profile. -/
  | boostWaitExpiry (t : Fc) (ch : Fin 96) (vbst : Fin 1024)
  /-- BOOST_CURRENT_REACHED (R180): A boosting channel's current reaches I_BOOST, ending BOOST and starting PEAK. `c` is the channel with the filtered samples of its current in mA at the latest 0.5 µs steps, the last at this one. -/
  | boostCurrentReached (t : Fc) (c : DrvTrace)
  /-- T_BOOST_EXPIRY (R180): T_BOOST passes and the boost ends. -/
  | tBoostExpiry (t : Fc) (c : DrvTrace)
  /-- T_PEAK_EXPIRY (R180): T_PEAK after the start of PEAK the channel enters HOLD. -/
  | tPeakExpiry (t : Fc) (c : DrvTrace)
  /-- PROFILE_END_TIME (R182): A profile reaches its end time and enters DECAY, truncated if still before the end of PEAK. -/
  | profileEndTime (t : Fc) (c : DrvTrace)
  /-- DECAY_END (R180): A decaying channel's current falls below 50 mA and it enters OFF. `slope` is the slope of the decay in 10 µA/µs as the bank measures it (R191). -/
  | decayEnd (t : Fc) (c : DrvTrace) (slope : Fin 65536)
  /-- MOVEMENT_DETECTED (R190): A current dip is confirmed and the movement time is recorded, or the search ends with NO_MOVE. -/
  | movementDetected (t : Fc) (ch : Fin 96) (trace : List Nat)
  /-- HOLD_FLOOR_HIT (R187): A forced channel's current falls below its HOLD_FLOOR during a sibling boost. -/
  | holdFloorHit (t : Fc) (ch : Fin 96) (trace : List Nat)
  /-- SHOT_DUE (R189): A rate-driven channel reaches the requested start of its next shot. -/
  | shotDue (t : Fc) (ch : Fin 96)
  /-- OFF_DIAG_SAMPLE (R194): Every 1 ms the off-state diagnostics sample a channel's low-side voltage and set a fault after three agreeing samples. `vl` and `vh` are the low-side pin and high-side node voltages in mV. -/
  | offDiagSample (t : Fc) (ch : Fin 96) (vl vh : Nat)
  /-- DRV_CH_FAULT (R196): An on-state short or over-temperature switches the channel off and latches it. -/
  | drvChFault (t : Fc) (ch : Fin 96) (f : DrvFaultSeen)
  /-- DRV_ON_OPEN_LOAD (R195): An on-state open load is recognised and reported while the channel keeps operating. -/
  | drvOnOpenLoad (t : Fc) (ch : Fin 96) (trace : List Nat)
  /-- DBK_BANK_FAULT (R197): A bank fault condition latches the bank and switches every channel off. `value` is the measured current in mA or voltage in mV, out of bounds since `since`. -/
  | dbkBankFault (t : Fc) (bank : Fin 12) (code : Fin 4) (value : Nat) (since : Fc)
  /-- BANK_CHECK (R188): A write of CHECK runs the bank admission check of boosted against proportional channels. -/
  | bankCheck (t : Fc) (bank : Fin 12)
  /-- DERATE_APPLY (R170): A pending lower drive limit becomes DBK_DERATE once every channel of the bank is OFF. -/
  | derateApply (t : Fc) (bank : Fin 12)
  -- Switch banks and feeds
  /-- SW_SET (R208): A switch SET command sets a channel's duty. It acts on the next command that the plane supervisor has passed for the channel. -/
  | swSet (t : Fc) (ch : Fin 96)
  /-- SW_REARM (R219): A switch REARM command releases TRIPPED and LOCKED and resets the retry budget. -/
  | swRearm (t : Fc) (ch : Fin 96)
  /-- WIRE_MODEL_UPDATE (R213): Every 1 ms the wire model updates θ and trips the channel with cause FUSE at 1.0. -/
  | wireModelUpdate (t : Fc) (ch : Fin 96) (m : MsSamples)
  /-- INRUSH_EXPIRY (R214): A channel held in current limit for 10 ms trips with cause INRUSH. -/
  | inrushExpiry (t : Fc) (ch : Fin 96)
  /-- THERM_LATCH_SET (R216): A switch junction reaching 170 °C turns the channel off and sets THERM_LATCH. `tj` is the junction temperature in °C. -/
  | thermLatchSet (t : Fc) (ch : Fin 96) (tj : Int)
  /-- THERM_LATCH_CLEAR (R219): THERM_LATCH clears below 140 °C and a restart becomes due. -/
  | thermLatchClear (t : Fc) (ch : Fin 96) (tj : Int)
  /-- FEED_UV (R217): A feed below UV_V for 50 µs turns every switch channel of the plane off with UV_OFF. The feed has been below UV_V since `since`. -/
  | feedUv (t : Fc) (plane : Fin 2) (mv : Nat) (since : Fc)
  /-- UV_RESTART_DELAY_EXPIRY (R217): The feed has stayed above UV_V plus hysteresis for RESTART_DELAY and UV_OFF clears. -/
  | uvRestartDelayExpiry (t : Fc) (plane : Fin 2) (mv : Nat) (since : Fc)
  /-- UV_RESTART_STEP (R217): One channel with non-zero duty restarts every 500 µs in ascending order after UV_OFF clears. -/
  | uvRestartStep (t : Fc) (plane : Fin 2)
  /-- RETRY_RESTART (R218): A tripped channel under POLICY 1 restarts once θ falls to 0.5, or is LOCKED if the budget is spent. -/
  | retryRestart (t : Fc) (ch : Fin 96)
  /-- RETRY_WINDOW_END (R218): The retry window ends, RETRIES_USED is set to 0 and the window closes. -/
  | retryWindowEnd (t : Fc) (ch : Fin 96)
  /-- OPEN_LOAD_DETECT (R221): A switch channel's current stays below OL_MA for OL_DEBOUNCE_MS and OPEN_LOAD is set. -/
  | openLoadDetect (t : Fc) (ch : Fin 96) (ma : Nat) (since : Fc)
  /-- PLANE_SHED (R222): Feed current above LIMIT_A for 5 ms sheds the lowest non-zero rank still on. -/
  | planeShed (t : Fc) (plane : Fin 2) (amps : Nat) (since : Fc)
  /-- SHED_RESTORE (R222): Feed current below 90 % of LIMIT_A for 1 s restores the most recently shed rank. -/
  | shedRestore (t : Fc) (plane : Fin 2) (amps : Nat) (since : Fc)
  -- Pairing and the cross-link
  /-- HEARTBEAT_RX (R241): A valid heartbeat from the partner is received and clears MISSED. `x` holds the time and the PAIR_ID of the frame's link header, as in every row of a received frame. -/
  | heartbeatRx (x : XHead) (h : Heartbeat)
  /-- MIRROR_RX (R250): A MIRROR frame carrying mirrored state is received for a shadow row. `entries` are the block's eight 64-bit entries of the snapshot from byte offset `off` on. -/
  | mirrorRx (x : XHead) (row off : Nat) (entries : List Nat)
  /-- COMMIT_RX (R233): A COMMIT or KEEP reaches a plane supervisor and is accepted or fenced by bid. -/
  | commitRx (x : XHead) (plane : Fin 2) (keep : Bool) (bid row periodUs : Nat) (cmds : List SentCmd)
  /-- TAKEOVER_RX (R233): A TAKEOVER frame reaches a plane supervisor and raises HIGHEST with its new bid. -/
  | takeoverRx (x : XHead) (plane : Fin 2) (bid : Nat)
  /-- FENCE_ACK_RX (R243): A FENCE_ACK tells the primary it was fenced, so it stops committing and enters RESYNC. -/
  | fenceAckRx (x : XHead) (bid : Nat)
  /-- HEALTH_RX (R253): The partner's HEALTH report is stored in XLK_PEER_HEALTH and the telemetry ring. -/
  | healthRx (x : XHead) (words : List Nat)
  /-- RESYNC_RX (R251): A RESYNC frame delivers patterns, tables, state or forwarded service requests to the partner. `row` is 0 for a pulled item, else the row at whose edge a forwarded item takes effect. -/
  | resyncRx (x : XHead) (row : Nat) (item : ResyncItem)
  /-- SERVICE_RX (R230): A SERVICE frame carrying service-tool traffic is received. -/
  | serviceRx (x : XHead) (words : List Nat)
  /-- XLK_BAD_FRAME (R229): A cross-link frame with a failed CRC or wrong PAIR_ID is discarded and counted. `f` is the frame as received, from the link header to the CRC, and its time. -/
  | xlkBadFrame (f : RawFrame)
  /-- XLK_LINK_UP (R239): The cross-link lanes train and the cable delay is measured. -/
  | xlkLinkUp (t : Fc) (delayNs : Nat)
  /-- HEALTH_TX (R253): Each second of module time a paired module sends its HEALTH frame. `meas` holds TEMP, LOGIC, FEED_A and FEED_B in the payload's units. -/
  | healthTx (t : Fc) (meas : List Nat)
  /-- STARTING_LISTEN_EXPIRY (R237): After HB_MISS + 2 rows in STARTING the module resolves its role from what it heard. `saved` says that the journal took the new epoch. -/
  | startingListenExpiry (t : Fc) (saved : Bool)
  /-- SHADOW_ROW (R250): Once the primary's heartbeat and mirror have arrived, a standby runs the row in shadow and compares digests. -/
  | shadowRow (t : Fc)
  /-- FORWARD_CONFIRM_TIMEOUT (R251): A forwarded pattern or table set is not confirmed within 100 ms and becomes pending on the primary alone. -/
  | forwardConfirmTimeout (t : Fc)
  /-- PAIR_HANDOVER (R252): Software on the primary offers the primary role to a READY_STANDBY partner. -/
  | pairHandover (t : Fc) (r : Ref)
  /-- HANDOVER_TIMEOUT (R252): No takeover follows within HB_MISS + 1 rows and the primary withdraws HANDOVER. -/
  | handoverTimeout (t : Fc)
  -- Plane supervisors
  /-- PPS_ARM (R244): A write of ARM 1 in PPS_CTRL arms the plane if all conditions hold. -/
  | ppsArm (t : Fc) (plane : Fin 2)
  /-- PPS_DISARM (R246): A write of ARM 0 turns every channel of the plane off at once. -/
  | ppsDisarm (t : Fc) (plane : Fin 2)
  /-- SAFE_NOW (R246): A write of SAFE_NOW applies every channel's safe state at once. -/
  | safeNow (t : Fc) (plane : Fin 2)
  /-- CLEAR_BID (R234): A write of CLEAR_BID sets HIGHEST to 0 while disarmed in SERVICE or MANUFACTURE. -/
  | clearBid (t : Fc) (plane : Fin 2)
  /-- HOLDING_TIMEOUT (R247): 1.5 × P without contact sets HOLDING. -/
  | holdingTimeout (t : Fc) (plane : Fin 2)
  /-- HOLD_WINDOW_EXPIRY (R247): A channel's effective hold window plus 0.5 × P passes without contact and it takes its safe state. `n` is the local index of a drive or switch channel. -/
  | holdWindowExpiry (t : Fc) (plane : Fin 2) (drive : Bool) (n : Fin 48)
  -- Navigation and time
  /-- NAV_SEARCH (R264): Software requests one acquisition search for a signal and satellite. `q` is the request, and whether ephemeris or almanac of the satellite are known. -/
  | navSearch (t : Fc) (q : SearchReq)
  /-- ACQ_SEARCH_DONE (R263): An acquisition search ends and a found signal is handed to a tracking channel. `req` names a running NAV_SEARCH; without one the search is that of `antB`, `sig` and `sat`; `aid` is what is known of the satellite. -/
  | acqSearchDone (t : Fc) (req : Option Ref) (antB : Bool) (sig sat : Nat) (aid : SatAid) (found : Bool) (cn0 : Nat)
  /-- RTCM_IN (R265): Software passes a buffer of RTCM frames to NAV for parsing. `data` are the buffer's bytes; `slots` are GLONASS slots with their frequency channel k + 7, as navigation messages have given them. -/
  | rtcmIn (t : Fc) (r : Ref) (data : List Nat) (slots : List (Nat × Nat))
  /-- CHANNEL_LOCK_LOSS (R262): A tracking channel without lock for 10 s is released and reassigned. `next` is the signal and satellite that takes the channel over, and what is known of it. -/
  | channelLockLoss (t : Fc) (antB : Bool) (sig sat : Nat) (next : Option (Nat × Nat × SatAid))
  /-- NAV_FILTER_STEP (R269): Every whole millisecond of module time NAV propagates its filter and updates the navigation record. -/
  | navFilterStep (t : Fc) (m : NavMeas)
  /-- TIME_SOLUTION (R272): NAV makes a time solution from one antenna, setting module time if first from NONE or feeding the return confirmation. `a` and `b` give, for an antenna that yields a solution, module time less its GNSS time as received, in 0.25 ns. -/
  | timeSolution (t : Fc) (a b : Option Int) (unc : Nat) (far : Bool)
  /-- LEAP_DECODE (R272): NAV decodes the leap-second count from the navigation message and sets LEAP_VALID. -/
  | leapDecode (t : Fc) (leap : Fin 256)
  /-- HOLDOVER_ENTRY (R274): No time solution for 1 s puts TIME_STATE into HOLDOVER. -/
  | holdoverEntry (t : Fc) (eps : Nat) (tcxo : Int)
  /-- PULSE_BOUNDARY (R277): At a multiple of TP_PERIOD the time pulse is emitted or suppressed and any return-of-signal decision is applied. -/
  | pulseBoundary (t : Fc) (tcxo : Int)
  /-- SLEW_COMPLETE (R275): The slewed residual δ reaches 0 and TIME_STATE returns to GNSS. -/
  | slewComplete (t : Fc)
  /-- DR_TIMEOUT (R268): A GNSS outage reaches DR_MAX_S and position and speed become invalid. -/
  | drTimeout (t : Fc)
  /-- CORR_AGE_EXPIRY (R266): CORR_AGE exceeds CORR_MAX_AGE_S and the fix falls from RTK. -/
  | corrAgeExpiry (t : Fc)
  /-- ANT_OPEN (R260): Antenna current below 2 mA for 1 s sets OPEN. -/
  | antOpen (t : Fc) (antB isOpen : Bool)
  /-- ANT_SHORT (R260): Antenna current at its limit for 10 ms sets SHORT and turns the supply off. -/
  | antShort (t : Fc) (antB : Bool)
  /-- ANT_SUPPLY_RETRY (R260): A shorted antenna supply is retried every 1 s. -/
  | antSupplyRetry (t : Fc) (antB gone : Bool)
  /-- NAV_SAVE (R271): Every 10 min with a fix NAV saves its data to the always-on SRAM. -/
  | navSave (t : Fc) (ephemeris almanac : Nat)
  -- Map and store
  /-- MAP_EXTRACT (R287): The map engine takes an extract from the sample queue, updates the history and maps the grain into cells or counts it unmapped. -/
  | mapExtract (t : Fc)
  /-- TILE_LOAD_DONE (R297): A tile load from the MAP partition ends and waiting extracts proceed. `key` and `asc` are the SCSI sense key and additional sense code of a media error. -/
  | tileLoadDone (t : Fc) (slot : Fin 4096) (ok : Bool) (key asc : Nat)
  /-- TILE_FLUSH_DUE (R298): FLUSH_S after a tile first became dirty, its flush begins. -/
  | tileFlushDue (t : Fc) (slot : Fin 4096)
  /-- TILE_FLUSH_DONE (R298): A tile's write to the MAP partition completes and MAP_INDEX is updated, or a media error leaves it dirty. -/
  | tileFlushDone (t : Fc) (slot : Fin 4096) (ok : Bool) (key asc : Nat)
  /-- TILE_LOAD (R299): The descriptor brings a tile into the cache. -/
  | tileLoad (t : Fc) (r : Ref)
  /-- TILE_WRITE (R299): The descriptor replaces a tile in the cache as a local change. `img` are the tile's 32-bit words as read from host memory. -/
  | tileWrite (t : Fc) (r : Ref) (img : List Nat)
  /-- TILE_FLUSH (R299): The descriptor flushes every tile dirty at acceptance. -/
  | tileFlush (t : Fc) (r : Ref)
  /-- STORE_READ (R299): The descriptor reads blocks of a partition to host memory. -/
  | storeRead (t : Fc) (r : Ref)
  /-- STORE_WRITE (R304): The descriptor writes blocks to a partition within the daily write budget. `data` are the bytes read from host memory. -/
  | storeWrite (t : Fc) (r : Ref) (data : List Nat)
  /-- STORE_LIFE_POLL (R305): Hourly the store reads the device's life-time estimates into STO_LIFE. -/
  | storeLifePoll (t : Fc) (a b eol : Nat)
  /-- TILE_REFRESH (R305): The store rewrites a MAP tile whose last flush is over 12 months old. -/
  | tileRefresh (t : Fc) (id : Nat)
  -- Journal
  /-- WRITE_INLINE (R308): A journal descriptor writes up to eight inline words to the SOFTWARE section. -/
  | writeInline (t : Fc) (r : Ref)
  /-- JRN_WRITE (R308): A journal descriptor writes a host buffer to the SOFTWARE section atomically per page. -/
  | jrnWrite (t : Fc) (r : Ref) (data : List Nat)
  /-- JRN_READ (R308): A journal descriptor reads a range of the journal to host memory. -/
  | jrnRead (t : Fc) (r : Ref)
  /-- JOVF_COPY (R309): The journal copies a batch of 128 event records to JOVF before they are overwritten. -/
  | jovfCopy (t : Fc)
  -- Cameras and vision
  /-- CAM_ENABLE (R316): A write of EN 1 enables a camera port if its configuration is valid. -/
  | camEnable (t : Fc) (port : Fin 4)
  /-- CAM_DISABLE (R324): A write of EN 0 closes the frame undelivered and aborts the port's outstanding jobs. -/
  | camDisable (t : Fc) (port : Fin 4)
  /-- CAM_FS (R320): A frame start packet is stamped, numbered and takes a raw slot or binds a CAPTURE. -/
  | camFs (t : Fc) (port : Fin 4) (p : CamStart)
  /-- CAM_LINE (R323): A long packet is received as one line of the frame. `hdr` is 0 for a good packet header, 1 for a corrected one, 2 for a larger error; `px` are the pixels. -/
  | camLine (t : Fc) (port : Fin 4) (vc : Fin 16) (dt : Fin 64) (hdr : Fin 3) (crcOk : Bool) (px : List Nat)
  /-- CAM_FE (R323): A frame end packet closes the frame and makes its slot READY. -/
  | camFe (t : Fc) (p : CamEnd)
  /-- CAM_LINK_LOST (R323): Loss of the A-PHY link closes the frame with LINK_LOST. -/
  | camLinkLost (t : Fc) (port : Fin 4)
  /-- CAM_BUFFER_FULL (R321): A port's receive buffer fills and the rest of the frame is dropped with OVERFLOW. -/
  | camBufferFull (t : Fc) (port : Fin 4)
  /-- CAM_POWER_FAULT (R315): The camera supply reaches its current limit and PWR_FAULT is set. `on` is false where the supply leaves its limit. -/
  | camPowerFault (t : Fc) (port : Fin 4) (on : Bool)
  /-- FSYNC_TRIGGER (R318): At each FSYNC instant the port sends a frame-sync trigger over the uplink. -/
  | fsyncTrigger (t : Fc) (port : Fin 4)
  /-- ISP_FRAME_START (R322): The ISP starts a READY memory frame, binding a CAPTURE and making pending parameters live. -/
  | ispFrameStart (t : Fc)
  /-- ISP_FRAME_DONE (R326): The ISP finishes a frame, writes its output and statistics, frees the slot and completes the CAPTURE. `out` are the processed rows as plane, row and bytes, `zones` and `hist` the bytes of ZONES and HIST (R331), `ir` the rows of the IR plane as row and bytes. -/
  | ispFrameDone (t : Fc) (port : Fin 4) (ecc : Bool) (out : List (Nat × Nat × List Nat)) (zones hist : List Nat) (ir : List (Nat × List Nat))
  /-- CAPTURE (R326): A camera job requests processing of a frame into an output format. -/
  | capture (t : Fc) (r : Ref)
  /-- SENSOR_WRITE (R327): A camera job schedules an I2C register burst to reach a chosen frame. -/
  | sensorWrite (t : Fc) (r : Ref)
  /-- SENSOR_BURST_DONE (R327): A scheduled I2C burst has been sent in vertical blanking, or stopped at an unacknowledged entry. `acked` is the number of entries the camera acknowledged. -/
  | sensorBurstDone (t : Fc) (port : Fin 4) (acked : Nat)
  /-- ISP_PARAMS (R328): A camera job copies an ISP parameter block as a pending set for a frame. `img` are the words of the parameter block as read from memory. -/
  | ispParams (t : Fc) (r : Ref) (img : List Nat)
  /-- VXA_RUN (R334): An accelerator job requests a network run on an input tensor. `header` and `body` are the words of the network image as read from memory, the header's first. -/
  | vxaRun (t : Fc) (r : Ref) (header body : List Nat)
  /-- VXA_JOB_DONE (R334): A VXA job ends and the next URGENT or earliest job is started. `out` are the bytes of the output tensor. -/
  | vxaJobDone (t : Fc) (ecc : Bool) (out : List Nat)
  -- CAN
  /-- CAN_ENABLE (R342): A write of EN 1 enables a CAN controller if its bit timing is valid. -/
  | canEnable (t : Fc) (ctl : Fin 8)
  /-- SEND (R346): A CAN transmit descriptor requests a frame to be sent. -/
  | send (t : Fc) (r : Ref)
  /-- CAN_TXB_FETCH (R344): The controller fetches a descriptor of its ring into a free transmit buffer. `data` are the bytes at DATA_ADDR of an INDIRECT frame. -/
  | canTxbFetch (t : Fc) (ctl : Fin 8) (data : List Nat)
  /-- CAN_TX_SELECT (R344): When the bus becomes idle the controller selects one frame and begins an attempt. -/
  | canTxSelect (t : Fc) (ctl : Fin 8)
  /-- CAN_TX_SUCCESS (R347): An attempt completes on the bus and the frame's buffer or queue entry is freed. -/
  | canTxSuccess (t : Fc) (ctl : Fin 8)
  /-- CAN_ARB_LOSS (R345): An attempt loses arbitration and counts one retry, giving up the frame at the limit. -/
  | canArbLoss (t : Fc) (ctl : Fin 8)
  /-- CAN_TX_ERROR (R345): An attempt ends in an error frame and counts one retry, giving up the frame at the limit. `exempt` says that the error falls under the standard's exceptions and leaves TEC as it is. -/
  | canTxError (t : Fc) (ctl : Fin 8) (exempt : Bool)
  /-- CAN_RX (R351): A received frame is stamped, filtered and written to a receive queue or discarded. `sof` is the fc of the start-of-frame edge. -/
  | canRx (t : Fc) (ctl : Fin 8) (sof : Fc) (f : CanFrame)
  /-- CAN_BUS_OFF (R354): The controller enters bus-off, failing its held frames and emptying the staged queue. -/
  | canBusOff (t : Fc) (ctl : Fin 8)
  /-- RECOVER (R354): A write of RECOVER starts bus-off recovery. -/
  | recover (t : Fc) (ctl : Fin 8)
  /-- CAN_RECOVERED (R354): After 128 occurrences of 11 recessive bits the controller returns to error-active. -/
  | canRecovered (t : Fc) (ctl : Fin 8)
  -- Ethernet
  /-- ETH_TX (R358): A general service descriptor sends an Ethernet frame on a port. `data` is the frame as read from host memory. -/
  | ethTx (t : Fc) (r : Ref) (data : List Nat)
  /-- ETH_TX_DONE (R358): A queued Ethernet frame leaves the port and its timestamp is written. `sof` is the fc of the frame's start-of-frame delimiter. -/
  | ethTxDone (t : Fc) (port : Fin 6) (sof : Fc)
  /-- ETH_RX (R359): A frame accepted by a port is written to its receive queue. `frame` is the frame without its FCS. -/
  | ethRx (t : Fc) (port : Fin 6) (sof : Fc) (fcsOk : Bool) (frame : List Nat)
  /-- GPTP_MESSAGE (R360): A gPTP message is processed by the time engine, including best master selection. `m` is the message, `corr` the correction of a Follow_Up in ns. -/
  | gptpMessage (t : Fc) (port : Fin 4) (m : GptpMsg) (corr : Int)
  /-- ETH_LINK_DOWN (R357): An Ethernet port's link goes down. -/
  | ethLinkDown (t : Fc) (port : Fin 6)
  /-- TC10_SLEEP (R361): A write of SLEEP sends a TC10 sleep request and sleeps the link on acknowledgement. -/
  | tc10Sleep (t : Fc) (port : Fin 4)
  /-- TC10_WAKE (R361): A write of WAKE sends a TC10 wake-up. -/
  | tc10Wake (t : Fc) (port : Fin 4)
  /-- TC10_WAKE_RX (R361): A received TC10 wake-up brings the link up or acts as a wake source. -/
  | tc10WakeRx (t : Fc) (port : Fin 4)
  -- Fleet market
  /-- FLE_ENABLE (R370): A write of EN 1 starts the fleet engine if its preconditions hold. -/
  | fleEnable (t : Fc)
  /-- FLE_DISABLE (R370): A write of EN 0 closes every session with BYE and stops fleet traffic. -/
  | fleDisable (t : Fc)
  /-- PEER_SET (R387): A fleet descriptor fills or clears a session slot. -/
  | peerSet (t : Fc) (r : Ref)
  /-- PEER_SET_TIMEOUT (R387): No handshake completes within 10 s of a PEER_SET, which completes PARTNER_ABSENT. -/
  | peerSetTimeout (t : Fc) (slot : Fin 32)
  /-- SESSION_HANDSHAKE (R372): A DTLS handshake on a session slot completes or fails on the peer's certificate. `cert` is none where the handshake does not come to the peer's certificate. -/
  | sessionHandshake (t : Fc) (slot : Fin 32) (cert : Option Cert)
  /-- SESSION_RETRY (R372): RETRY_S after a failure or closure the engine reopens a filled slot. -/
  | sessionRetry (t : Fc) (slot : Fin 32)
  /-- KEEPALIVE_DUE (R372): After 5 s without sending the engine sends KEEPALIVE. -/
  | keepaliveDue (t : Fc) (slot : Fin 32)
  /-- PEER_TIMEOUT (R372): Nothing received for PEER_TIMEOUT_S closes the session and marks the slot ABSENT. -/
  | peerTimeout (t : Fc) (slot : Fin 32)
  /-- CERT_EXPIRY (R372): A certificate of a session's chain expires and the session ends. -/
  | certExpiry (t : Fc) (slot : Fin 32)
  /-- DELTA_RX (R381): A received DELTA is checked, merged cell by cell under the stamp rule, and forwarded if applied. `raw` is the message; `rec` says that its record is authentic in the session, `sig` that the signature verifies. -/
  | deltaRx (t : Fc) (slot : Fin 32) (raw : List Nat) (rec sig : Bool)
  /-- ANNOUNCE_RX (R385): A received ANNOUNCE delivers a member certificate that may make a member known or return an evicted one. -/
  | announceRx (t : Fc) (slot : Fin 32) (c : Cert)
  /-- STATUS_RX (R386): A received STATUS is checked and, if newer, written to FLE_RXQ and forwarded. -/
  | statusRx (t : Fc) (slot : Fin 32) (raw : List Nat) (rec sig : Bool)
  /-- SUMMARY_RX (R382): A peer's SUMMARY triggers sending of stored and regenerated deltas it lacks. -/
  | summaryRx (t : Fc) (slot : Fin 32) (figs : List Stamp)
  /-- CERT_REQ_RX (R373): A peer requests the certificate of a pitch. `raw` is the message. -/
  | certReqRx (t : Fc) (slot : Fin 32) (raw : List Nat)
  /-- BYE_RX (R373): A peer closes the session with BYE. -/
  | byeRx (t : Fc) (slot : Fin 32)
  /-- KEEPALIVE_RX (R372): A KEEPALIVE refreshes the session's receive timer. -/
  | keepaliveRx (t : Fc) (slot : Fin 32)
  /-- PUB_DUE (R379): A tile becomes due for publication and its PUB cells are put into stamped deltas when a budget token is available. `slot` is the tile's slot of the tile cache. -/
  | pubDue (t : Fc) (slot : Fin 4096)
  /-- STRIKE_DECAY (R384): Every STRIKE_DECAY_S each pitch's strike count falls by one. -/
  | strikeDecay (t : Fc)
  /-- EVICT_HOLD_EXPIRY (R385): EVICT_HOLD_S after an eviction the slot may be reopened. -/
  | evictHoldExpiry (t : Fc) (slot : Fin 32)
  /-- BEHIND_CATCH_UP (R382): A session marked BEHIND becomes idle and the start-of-session exchange is repeated. -/
  | behindCatchUp (t : Fc) (slot : Fin 32)
  /-- STATUS_PUBLISH (R387): A fleet descriptor queues a STATUS to every open session. `data` is the payload as read from host memory. -/
  | statusPublish (t : Fc) (r : Ref) (data : List Nat)
  /-- MEMBER_EVICT (R385): A fleet descriptor evicts a pitch at once or restores it. -/
  | memberEvict (t : Fc) (r : Ref)
  /-- PUBLISH_NOW (R387): A fleet descriptor publishes every cell with PUB set at acceptance. -/
  | publishNow (t : Fc) (r : Ref)
  -- Sentinel panels
  /-- PNL_ENABLE (R395): A write of EN 1 zeroes the line store, sends the wipe command and resets every shadow. -/
  | pnlEnable (t : Fc) (port : Fin 2)
  /-- PNL_DISABLE (R404): A write of EN 0 discards the pending set and aborts outstanding panel descriptors. -/
  | pnlDisable (t : Fc) (port : Fin 2)
  /-- UPDATE (R398): A panel descriptor copies lines into the line store, optionally forcing them pending. `src` are the bytes from the source address on. -/
  | update (t : Fc) (r : Ref) (src : List Nat)
  /-- PNL_CLEAR (R397): A panel descriptor empties the pending set, zeroes the store and sends the wipe at the next line boundary. -/
  | pnlClear (t : Fc) (r : Ref)
  /-- LINE_WRITE_START (R396): The port copies the next pending line into its buffer and starts its write, latching band and VLCD. -/
  | lineWriteStart (t : Fc) (port : Fin 2)
  /-- LINE_WRITE_DONE (R396): A line write ends and the shadow takes the buffer's checksum. -/
  | lineWriteDone (t : Fc) (port : Fin 2)
  /-- PNL_TEMP_SAMPLE (R400): Every 100 ms the port measures panel temperature and computes the VLCD target. Temperatures in °C; `tsns` is none where TSNS reads open or shorted. -/
  | pnlTempSample (t : Fc) (port : Fin 2) (tsns : Option Int) (housing : Int)
  /-- VCOM_TOGGLE (R402): PINV changes level on its module-time grid, delayed past any line write. -/
  | vcomToggle (t : Fc) (port : Fin 2)
  /-- CRACK_MEASURE (R403): Once per second the crack loop resistance is measured and two high readings set PANEL_CRACK. -/
  | crackMeasure (t : Fc) (port : Fin 2) (ohm : Nat)
  /-- PANEL_CRACK_CLEAR (R403): A write of 1 to PANEL_CRACK clears it only after two good readings. -/
  | panelCrackClear (t : Fc) (port : Fin 2)
  /-- PANEL_SUPPLY_FAULT (R406): VDD at its current limit for 10 ms sets PWR_EN and EN to 0. -/
  | panelSupplyFault (t : Fc) (port : Fin 2)
  -- Power states, cast-on and bind-off
  /-- LOGIC_QUALIFIED (R407): LOGIC above 8.0 V for 20 ms lets cast-on begin. `mv100` is LOGIC in 0.1 V. -/
  | logicQualified (t : Fc) (mv100 : Fin 1024)
  /-- CAST_ON (R414): The start-up sequence runs its stages from supply qualification to host boot. `x` is what the verification, the copy and the self-test find. -/
  | castOn (t : Fc) (x : CastIn)
  /-- HOST_READY (R414): Software writes HOST_READY to end cast-on. -/
  | hostReady (t : Fc)
  /-- POWER_FAIL (R407): LOGIC below 7.0 V for 1 ms holds the computing side in reset. `mv100` is LOGIC in 0.1 V; of the journal write in progress `pages` pages have been started. -/
  | powerFail (t : Fc) (mv100 : Fin 1024) (pages : Nat)
  /-- AON_LOSS (R407): LOGIC below 3.0 V or power-fail over 2 s loses the AON domain. `mv100` is LOGIC in 0.1 V. -/
  | aonLoss (t : Fc) (mv100 : Fin 1024)
  /-- IGN_HIGH (R422): IGN rises, waking the module or cancelling a pending bind-off. `mv100` is IGN in 0.1 V. -/
  | ignHigh (t : Fc) (mv100 : Fin 1024)
  /-- PWR_IGN_OFF (R416): IGN low for IGN_DEBOUNCE_MS raises PWR_IGN_OFF and starts BIND_DELAY_S. `mv100` is IGN in 0.1 V. -/
  | pwrIgnOff (t : Fc) (mv100 : Fin 1024)
  /-- BIND_START (R416): BIND_DELAY_S expires and the bind-off steps run. `x` is what NAV saves and measures. -/
  | bindStart (t : Fc) (x : EntryMeas)
  /-- BIND_NOW (R416): A write of BIND_NOW starts bind-off at once. -/
  | bindNow (t : Fc) (x : EntryMeas)
  /-- BIND_TILE_TIMEOUT (R416): The tile flush step reaches BIND_TILE_MAX_S and BIND_TIMEOUT is set. -/
  | bindTileTimeout (t : Fc) (x : EntryMeas)
  /-- GO (R411): A write of GO enters the deepest state the tolerance allows, or is refused with SLEEP_ERR. -/
  | go (t : Fc) (x : EntryMeas)
  /-- ENTRY_DRAIN_END (R413): The 100 ms wait for fetched descriptors ends and the rest are aborted before sleep. -/
  | entryDrainEnd (t : Fc) (x : EntryMeas)
  /-- SUSPEND_READY (R413): Software writes SUSPEND_READY and PARK is entered. -/
  | suspendReady (t : Fc) (x : EntryMeas)
  /-- SUSPEND_TIMEOUT (R413): SUSPEND_MS expires without SUSPEND_READY and PARK is entered with a warm-reset wake. -/
  | suspendTimeout (t : Fc) (x : EntryMeas)
  /-- TRIM_ENTER (R411): All eight cores wait for an interrupt and TRIM is entered. -/
  | trimEnter (t : Fc)
  /-- TRIM_EXIT (R411): An interrupt to any core leaves TRIM. -/
  | trimExit (t : Fc)
  /-- WAKE_EVENT (R412): An enabled wake source wakes the module from PARK, DEEP or OFF. `sources` by bit, as AOC_WAKE_EN numbers them. -/
  | wakeEvent (t : Fc) (sources : Fin 64)
  /-- DEEP_DESCENT (R418): DEEP_AFTER_MIN in PARK without a wake moves the module to DEEP. -/
  | deepDescent (t : Fc)
  /-- AOC_RESET (R421): A confirmed write to AOC_RESET disables rings, writes completions and resets the chosen kind. -/
  | aocReset (t : Fc) (kind : Fin 4) (wipe : Bool) (confirm : Fin 256)
  /-- WATCHDOG_KICK (R423): A write of KICK restarts the watchdog period. -/
  | watchdogKick (t : Fc)
  /-- WATCHDOG_EXPIRY (R420): The watchdog period expires and a warm or full reset follows. -/
  | watchdogExpiry (t : Fc)
  -- Keys, life cycle and update
  /-- CRED_SET (R426): Software installs a certificate, root, integrator key or MAC addresses in the KSM. `ok` says that the object passes its check; `cert` is a member certificate's content, `market` that of a market root, `bytes` those of a key or of the MAC addresses. -/
  | credSet (t : Fc) (r : Ref) (ok : Bool) (cert : Option Cert) (market : Nat) (bytes : List Nat)
  /-- PUBKEY_GET (R426): The KSM writes the public device key to host memory. -/
  | pubkeyGet (t : Fc) (r : Ref)
  /-- LC_CHANGE (R429): A signed token requests a life-cycle transition, which wipes and resets. `token` are its 128 bytes, `sigOk` the verdict on its signature; `cut` says that power is lost during the wipes. -/
  | lcChange (t : Fc) (r : Ref) (token : List Nat) (sigOk cut : Bool)
  /-- UPD_OPEN (R434): An update descriptor checks an image header and opens a staging slot. `header` are the 1,024 words of the image header. -/
  | updOpen (t : Fc) (r : Ref) (header : List Nat)
  /-- UPD_BLOCK (R434): An update descriptor checks a block's tag and stores it in the slot. `fault` is the sense key and code of a store fault. -/
  | updBlock (t : Fc) (r : Ref) (tagOk : Bool) (fault : Option (Nat × Nat))
  /-- UPD_CLOSE (R434): An update descriptor verifies the whole staged image and closes the slot. -/
  | updClose (t : Fc) (r : Ref)
  /-- ACTIVATE (R436): An update descriptor binds a closed slot for activation now or at the next start. -/
  | activate (t : Fc) (r : Ref)
  /-- ACTIVATE_COPY_DONE (R436): The background copy of an image completes, a seal is made and the activation reset is requested. -/
  | activateCopyDone (t : Fc) (fault : Option (Bool × Nat × Nat))
  /-- ACTIVATION_RESET (R437): The activation warm reset runs cast-on from STAGE 3 into the new bank. -/
  | activationReset (t : Fc)
  /-- CONFIRM (R439): An update descriptor ends the trial and advances the signer's fuse counter. -/
  | confirm (t : Fc) (r : Ref)
  /-- PPS_APPLY (R440): An update descriptor loads plane supervisor firmware into one supervisor. `version` is that of the PPS component of the active bank. -/
  | ppsApply (t : Fc) (r : Ref) (version : Nat)
  /-- PPS_APPLY_DONE (R440): The supervisor runs again on new firmware and the descriptor completes. -/
  | ppsApplyDone (t : Fc) (plane : Fin 2)
  /-- UPD_CANCEL (R434): An update descriptor crypto-erases a staging slot. -/
  | updCancel (t : Fc) (r : Ref)
  -- Health, darning and ageing
  /-- CE_WRITEBACK (R446): The HLM writes back a corrected word unless it was written meanwhile. `tm` names tick memory, else DRAM; `word` is the word's number in it. -/
  | ceWriteback (t : Fc) (tm : Bool) (word : Nat)
  /-- ECC_UNCORRECTABLE (R447): A read finds a UE or ADDR error, acted on by reader and latched in HLM_ECC_LAST. `reader` as R460 codes it; `r` is the descriptor concerned. -/
  | eccUncorrectable (t : Fc) (tm isAddr : Bool) (syndrome : Fin 128) (reader : Fin 5) (addr : Nat) (r : Option Ref)
  /-- DARN_READ (R448): A paced darning read checks a word and repairs or reports it. `cls` is the class of the pass's next word: 0 CLEAN, 1 CE, 2 UE, 3 ADDR. -/
  | darnRead (t : Fc) (tm : Bool) (cls : Fin 4) (syndrome : Fin 128)
  /-- SPARE_ROW_SWITCH (R449): After copying a weak tick-memory row to a spare, the bank switches its address in one fc. -/
  | spareRowSwitch (t : Fc) (row : Fin 16384)
  /-- TLM_SAMPLE (R453): Every SAMPLE_S the HLM writes a SAMPLE entry to the telemetry ring. Temperatures in °C: base plate, hottest plane, hottest die. -/
  | tlmSample (t : Fc) (base plane die : Int)
  /-- AGEING_MEASURE (R455): An ageing monitor closes a measurement record and may raise HLM_AGEING_LIMIT. -/
  | ageingMeasure (t : Fc) (m : AgeMeas)
  /-- RO_MEASURE (R457): A ring-oscillator slack measurement adjusts FLOOR_MV under adaptive voltage scaling. `slacks` in ps by ring oscillator; `offset` is the DVFS offset in mV. -/
  | roMeasure (t : Fc) (slacks : List Int) (offset : Nat)
  /-- BANK_REPLAN (R458): Every REPLAN_H hours and at cast-on the HLM re-plans each drive bank's limits. -/
  | bankReplan (t : Fc) (bank : Fin 12)
  /-- MARGIN_RESET (R461): A descriptor in SERVICE restores a drive bank's limits to the design ratings. -/
  | marginReset (t : Fc) (r : Ref)
  /-- BASE_TEMP_SAMPLE (R473): Every 10 s the HLM measures the base plate and raises HLM_BASE_HOT or HLM_BASE_NORMAL. `temp` in °C. -/
  | baseTempSample (t : Fc) (temp : Int)
  -- Links, supplies and other events
  /-- HOST_LINK_UP (R362): The PCIe host link trains and LINK_UP in HLK_STATUS becomes 1, after which HOST-1 rings may be enabled again. `width` is in lanes, `speed` is the code of HLK_STATUS. -/
  | hostLinkUp (t : Fc) (width : Fin 8) (speed : Fin 8)
  /-- XLK_LINK_DOWN (R255): The cross-link lanes lose training and XLK_ROLE.LINK_UP falls to 0. -/
  | xlkLinkDown (t : Fc)
  /-- CAM_LINK_UP (R337): A camera port's A-PHY link comes up and LINK_UP and GEAR are set. -/
  | camLinkUp (t : Fc) (port : Fin 4) (gear : Fin 4)
  /-- ETH_LINK_UP (R357): An Ethernet port's link comes up and ETH_STATUS.LINK_UP becomes 1, so ETH_TX is accepted again. -/
  | ethLinkUp (t : Fc) (port : Fin 6)
  /-- PLANE_SUPERVISOR_POWER_LOSS (R234): Both the feed and LOGIC fall away from a plane supervisor, which loses power and resets HIGHEST to 0. -/
  | planeSupervisorPowerLoss (t : Fc) (plane : Fin 2)
  /-- PLANE_SUPERVISOR_POWER_UP (R247): A plane supervisor regains power from its feed or LOGIC, powers up with its plane disarmed and no tick period. -/
  | planeSupervisorPowerUp (t : Fc) (plane : Fin 2)
  /-- DRAM_TEMP_ABOVE_85C (R27): The DRAM reports a temperature crossing +85 °C and the refresh spacing W in ARB_EMERG changes between 3,120 and 1,560. -/
  | dramTempAbove85c (t : Fc) (above : Bool)
  /-- STORE_ACCESS_DONE (R300): A UFS read or write for a STORE_READ or STORE_WRITE ends and the descriptor completes DONE or MEDIA_ERROR. The oldest access; `data` are the bytes a read returned. -/
  | storeAccessDone (t : Fc) (ok : Bool) (key asc : Nat) (data : List Nat)
  /-- JRN_ACCESS_DONE (R308): A journal write becomes durable, or a journal read ends, and the descriptor completes. -/
  | jrnAccessDone (t : Fc) (ok : Bool)
  /-- UPD_CLOSE_DONE (R434): The decryption and signature verification of a CLOSE ends and the slot becomes CLOSED or the descriptor is rejected. -/
  | updCloseDone (t : Fc) (slot : Fin 2) (sigOk keyKnown : Bool) (fault : Option (Nat × Nat))
  /-- WRITE_BUDGET_DAY_END (R304): 86,400 s of module time after the first write of the day pass and the daily STORE_WRITE budget and USED_MIB restart. -/
  | writeBudgetDayEnd (t : Fc)
  /-- OPEN_LOAD_CLEAR (R221): A switch channel's current exceeds OL_MA at the next sample and OPEN_LOAD clears. -/
  | openLoadClear (t : Fc) (ch : Fin 96) (ma : Nat)
  /-- IN_LIMIT (R214): A switch channel's current reaches the current limit, IN_LIMIT is set and the 10 ms inrush interval starts. -/
  | inLimit (t : Fc) (ch : Fin 96)
  /-- CAN_RX_ERROR (R354): The controller detects an error in a frame it receives and its receive error counter and error state change under ISO 11898-1. `heavy` says that the error counts 8 and not 1. -/
  | canRxError (t : Fc) (ctl : Fin 8) (heavy : Bool)
  /-- TC10_SLEEP_ACK (R361): The link partner acknowledges a TC10 sleep request and the link goes to sleep with ASLEEP set. -/
  | tc10SleepAck (t : Fc) (port : Fin 4)
  /-- LOGIC_THROTTLE (R407): LOGIC crosses 12.0 V and the APX clock limit with THROTTLED is applied or lifted. `mv100` is LOGIC in 0.1 V. -/
  | logicThrottle (t : Fc) (mv100 : Fin 1024)
  deriving DecidableEq, Repr

end Sys2Proof
end

