-- ==== Sys2Proof/Decode.lean ====
section
/-! DEFINITION. Words of the opcode table. The commands of this block have no encoding of their own: they are register
accesses, bus frames, pins and times, and no row of spec/opcode_table.json gives a bit. -/

namespace Sys2Proof

/-- The command that a word spells by the table's bits: no row gives any, so no word spells one. -/
def decodeTableWord (_nbits _w : Nat) : Option Instr := none

end Sys2Proof
end

