-- ==== Sys2Proof/Machine/Events.lean ====
section
/-! DEFINITION. The event codes of the module (the event tables of R107 and of each later chapter) and the status
codes of completions (R70), under the manual's names. -/

namespace Sys2Proof.Machine

/-! Status codes (R70). -/

/-- DONE. -/
def stDone : Nat := 0x00
/-- DONE_ABORT_LATE. -/
def stDoneAbortLate : Nat := 0x01
/-- ABORTED. -/
def stAborted : Nat := 0x02
/-- REJECT_FORMAT. -/
def stRejectFormat : Nat := 0x10
/-- REJECT_STATE. -/
def stRejectState : Nat := 0x11
/-- REJECT_BUDGET. -/
def stRejectBudget : Nat := 0x12
/-- REJECT_AUTH. -/
def stRejectAuth : Nat := 0x13
/-- OVERLAP_DROPPED. -/
def stOverlapDropped : Nat := 0x20
/-- FENCED. -/
def stFenced : Nat := 0x21
/-- HOLD_FLOOR. -/
def stHoldFloor : Nat := 0x22
/-- ECC_FATAL. -/
def stEccFatal : Nat := 0x30
/-- MEDIA_ERROR. -/
def stMediaError : Nat := 0x31
/-- PARTNER_ABSENT. -/
def stPartnerAbsent : Nat := 0x40
/-- PARTNER_REFUSED. -/
def stPartnerRefused : Nat := 0x41
/-- INTERNAL. -/
def stInternal : Nat := 0x7F

/-! Event codes. -/

/-- TKE_DEMOTED (R107). -/
def evTkeDemoted : Nat := 0x0310
/-- TKE_STOPPED (R107). -/
def evTkeStopped : Nat := 0x0311
/-- TKE_LOCKSTEP_MASK (R107). -/
def evTkeLockstepMask : Nat := 0x0312
/-- TKE_LOCKSTEP_SPLIT (R107). -/
def evTkeLockstepSplit : Nat := 0x0313
/-- TKE_ALIGN_STEP (R107). -/
def evTkeAlignStep : Nat := 0x0314
/-- SPS_FALLBACK (R139). -/
def evSpsFallback : Nat := 0x0410
/-- SPS_ENV_CONFLICT (R139). -/
def evSpsEnvConflict : Nat := 0x0411
/-- FNL_FB_FAULT (R139). -/
def evFnlFbFault : Nat := 0x0420
/-- SFE_SUPPLY_LATCHED (R166). -/
def evSfeSupplyLatched : Nat := 0x0510
/-- SFE_CONVERTER_RETIRED (R166). -/
def evSfeConverterRetired : Nat := 0x0511
/-- SFE_INPUT_LOST (R166). -/
def evSfeInputLost : Nat := 0x0512
/-- SFE_ZERO_REJECT (R166). -/
def evSfeZeroReject : Nat := 0x0513
/-- SFE_IMPACT_STUCK (R166). -/
def evSfeImpactStuck : Nat := 0x0514
/-- DBK_CH_LATCHED (R202). -/
def evDbkChLatched : Nat := 0x0610
/-- DBK_BANK_LATCHED (R202). -/
def evDbkBankLatched : Nat := 0x0611
/-- DBK_HOLD_FLOOR (R202). -/
def evDbkHoldFloor : Nat := 0x0612
/-- DBK_ADMIT_FAIL (R202). -/
def evDbkAdmitFail : Nat := 0x0613
/-- DBK_OPEN_LOAD (R202). -/
def evDbkOpenLoad : Nat := 0x0614
/-- SBK_TRIP (R225). -/
def evSbkTrip : Nat := 0x0710
/-- SBK_THERM_LATCH (R225). -/
def evSbkThermLatch : Nat := 0x0711
/-- SBK_LOCKED (R225). -/
def evSbkLocked : Nat := 0x0712
/-- SBK_UV (R225). -/
def evSbkUv : Nat := 0x0713
/-- SBK_SHED (R225). -/
def evSbkShed : Nat := 0x0714
/-- SBK_PLANE_OVER (R225). -/
def evSbkPlaneOver : Nat := 0x0715
/-- SBK_OPEN_LOAD (R225). -/
def evSbkOpenLoad : Nat := 0x0716
/-- PAIR_TAKEOVER (R257). -/
def evPairTakeover : Nat := 0x0810
/-- PAIR_PARTNER_LOST (R257). -/
def evPairPartnerLost : Nat := 0x0811
/-- PAIR_FENCED_OUT (R257). -/
def evPairFencedOut : Nat := 0x0812
/-- PAIR_READY (R257). -/
def evPairReady : Nat := 0x0813
/-- PAIR_MISMATCH (R257). -/
def evPairMismatch : Nat := 0x0814
/-- PPS_HOLD_EXPIRED (R257). -/
def evPpsHoldExpired : Nat := 0x0815
/-- PPS_HOLD_RESUMED (R257). -/
def evPpsHoldResumed : Nat := 0x0816
/-- PAIR_EPOCH_UNSAVED (R257). -/
def evPairEpochUnsaved : Nat := 0x0817
/-- NAV_TIME_VALID (R282). -/
def evNavTimeValid : Nat := 0x0910
/-- NAV_HOLDOVER (R282). -/
def evNavHoldover : Nat := 0x0911
/-- NAV_TIME_STEP (R282). -/
def evNavTimeStep : Nat := 0x0912
/-- NAV_PULSE_SUPPRESSED (R282). -/
def evNavPulseSuppressed : Nat := 0x0913
/-- NAV_RTK_LOST (R282). -/
def evNavRtkLost : Nat := 0x0914
/-- NAV_ANT_FAULT (R282). -/
def evNavAntFault : Nat := 0x0915
/-- MAP_SAMPLE_DROP (R313). -/
def evMapSampleDrop : Nat := 0x0A10
/-- MAP_FLUSH_FAIL (R313). -/
def evMapFlushFail : Nat := 0x0A11
/-- STO_PRE_EOL (R313). -/
def evStoPreEol : Nat := 0x0A12
/-- STO_MEDIA_ERROR (R313). -/
def evStoMediaError : Nat := 0x0A13
/-- JRN_OVF_LOST (R313). -/
def evJrnOvfLost : Nat := 0x0A14
/-- JRN_BUDGET_REFUSED (R313). -/
def evJrnBudgetRefused : Nat := 0x0A15
/-- CAM_LINK_DOWN (R339). -/
def evCamLinkDown : Nat := 0x0B10
/-- CAM_OVERFLOW (R339). -/
def evCamOverflow : Nat := 0x0B11
/-- CAM_POWER_FAULT (R339). -/
def evCamPowerFault : Nat := 0x0B12
/-- VXA_ECC_FATAL (R339). -/
def evVxaEccFatal : Nat := 0x0B13
/-- CAN_BUS_OFF (R366). -/
def evCanBusOff : Nat := 0x0C10
/-- CAN_RXQ_FULL (R366). -/
def evCanRxqFull : Nat := 0x0C11
/-- ETH_LINK_DOWN (R366). -/
def evEthLinkDown : Nat := 0x0C12
/-- ETH_WAKE (R366). -/
def evEthWake : Nat := 0x0C13
/-- ETH_GM_CHANGE (R366). -/
def evEthGmChange : Nat := 0x0C14
/-- HLK_LINK_DOWN (R366). -/
def evHlkLinkDown : Nat := 0x0C15
/-- FLE_PEER_ABSENT (R391). -/
def evFlePeerAbsent : Nat := 0x0D10
/-- FLE_AUTH_FAIL (R391). -/
def evFleAuthFail : Nat := 0x0D11
/-- FLE_EVICT (R391). -/
def evFleEvict : Nat := 0x0D12
/-- FLE_REJOIN (R391). -/
def evFleRejoin : Nat := 0x0D13
/-- FLE_BEHIND (R391). -/
def evFleBehind : Nat := 0x0D14
/-- PANEL_CRACK_EVENT (R406). -/
def evPanelCrackEvent : Nat := 0x0E10
/-- PANEL_TSNS_FAULT (R406). -/
def evPanelTsnsFault : Nat := 0x0E11
/-- PANEL_SUPPLY_FAULT (R406). -/
def evPanelSupplyFault : Nat := 0x0E12
/-- PWR_IGN_OFF (R424). -/
def evPwrIgnOff : Nat := 0x0F10
/-- PWR_IGN_ON (R424). -/
def evPwrIgnOn : Nat := 0x0F11
/-- PWR_BIND_TIMEOUT (R424). -/
def evPwrBindTimeout : Nat := 0x0F12
/-- PWR_SUSPEND_TIMEOUT (R424). -/
def evPwrSuspendTimeout : Nat := 0x0F13
/-- PWR_LOGIC_FAIL (R424). -/
def evPwrLogicFail : Nat := 0x0F14
/-- PWR_WAKE (R424). -/
def evPwrWake : Nat := 0x0F15
/-- UPD_ACTIVATED (R444). -/
def evUpdActivated : Nat := 0x1010
/-- UPD_REVERTED (R444). -/
def evUpdReverted : Nat := 0x1011
/-- UPD_CONFIRMED (R444). -/
def evUpdConfirmed : Nat := 0x1012
/-- UPD_CANCELLED (R444). -/
def evUpdCancelled : Nat := 0x1013
/-- UPD_LC_DONE (R444). -/
def evUpdLcDone : Nat := 0x1014
/-- UPD_PPS_APPLIED (R444). -/
def evUpdPpsApplied : Nat := 0x1015
/-- ECC_UNCORRECTABLE (R462). -/
def evEccUncorrectable : Nat := 0x1110
/-- ECC_ADDRESS (R462). -/
def evEccAddress : Nat := 0x1111
/-- TM_ROW_REPAIRED (R462). -/
def evTmRowRepaired : Nat := 0x1112
/-- DRAM_PAGE_RETIRED (R462). -/
def evDramPageRetired : Nat := 0x1113
/-- HLM_MARGIN_CHANGED (R462). -/
def evHlmMarginChanged : Nat := 0x1114
/-- HLM_MARGIN_EXHAUSTED (R462). -/
def evHlmMarginExhausted : Nat := 0x1115
/-- HLM_AGEING_LIMIT (R462). -/
def evHlmAgeingLimit : Nat := 0x1116
/-- EVENTS_SUPPRESSED (R462). -/
def evEventsSuppressed : Nat := 0x1117
/-- HLM_LIFE_REACHED (R462). -/
def evHlmLifeReached : Nat := 0x1118
/-- HLM_BASE_HOT (R489). -/
def evHlmBaseHot : Nat := 0x1210
/-- HLM_BASE_NORMAL (R489). -/
def evHlmBaseNormal : Nat := 0x1211

end Sys2Proof.Machine
end

