-- ==== Sys2Proof/Machine/Bits.lean ====
section
/-! DEFINITION. Bit fields, two's complement, saturation and the limiting rules ("taken as") of the register
tables, on numbers, and the words
of a descriptor. -/

namespace Sys2Proof

/-- The 32-bit word of a descriptor at byte offset `off` (0x10–0x3C, a multiple of 4). -/
def Desc.word (d : Desc) (off : Nat) : Nat := d.body.getD ((off - 0x10) / 4) 0

/-- The 64-bit value of a descriptor at byte offset `off`. -/
def Desc.quad (d : Desc) (off : Nat) : Nat := d.word off + 2 ^ 32 * d.word (off + 4)

end Sys2Proof

namespace Sys2Proof.Machine

/-- Bits `[lsb + w - 1 : lsb]` of a number. -/
def bitField (v lsb w : Nat) : Nat := v / 2 ^ lsb % 2 ^ w

/-- Bit `n` of a number. -/
def bitOf (v n : Nat) : Bool := v / 2 ^ n % 2 == 1

/-- A number with bit `n` set to `b`. -/
def setBit (v n : Nat) (b : Bool) : Nat :=
  (v - (if bitOf v n then 2 ^ n else 0)) + (if b then 2 ^ n else 0)

/-- The bits of `v` that are clear in `m` (a write of `m` to an RW1C field, R12). -/
def clearBits (v m w : Nat) : Nat :=
  (List.range w).foldl (fun a n => a + if bitOf v n && !bitOf m n then 2 ^ n else 0) 0

/-- A truth value as a bit. -/
def b2n (b : Bool) : Nat := if b then 1 else 0

/-- The two's complement reading of a `w`-bit pattern. -/
def toSigned (w v : Nat) : Int :=
  let u := v % 2 ^ w
  if u < 2 ^ (w - 1) then (u : Int) else (u : Int) - (2 ^ w : Nat)

/-- The `w`-bit two's complement pattern of an integer, wrapped. -/
def ofSigned (w : Nat) (i : Int) : Nat := (i % ((2 ^ w : Nat) : Int)).toNat

/-- The `w`-bit two's complement pattern of an integer, saturated. -/
def ofSignedSat (w : Nat) (i : Int) : Nat :=
  let lo : Int := -((2 ^ (w - 1) : Nat) : Int)
  let hi : Int := ((2 ^ (w - 1) : Nat) : Int) - 1
  ofSigned w (if i < lo then lo else if hi < i then hi else i)

/-- A count held to the largest value of `w` bits. -/
def satTo (w v : Nat) : Nat := min v (2 ^ w - 1)

/-- A value limited to `[lo, hi]`. -/
def clampNat (lo hi v : Nat) : Nat := max lo (min hi v)

/-- An integer limited to `[lo, hi]`. -/
def clampInt (lo hi v : Int) : Int := max lo (min hi v)

/-- Rounds a division up. -/
def ceilDiv (a b : Nat) : Nat := (a + b - 1) / b

/-- Little-endian bytes of a number. -/
def leBytes : Nat → Nat → List Byte
  | 0, _ => []
  | n + 1, v => BitVec.ofNat 8 v :: leBytes n (v / 256)

/-- The number held by little-endian bytes. -/
def leNat : List Byte → Nat
  | [] => 0
  | b :: t => b.toNat + 256 * leNat t

/-- Joins a high and a low 32-bit word. -/
def join64 (lo hi : Nat) : Nat := lo % 2 ^ 32 + 2 ^ 32 * (hi % 2 ^ 32)

/-- One step of the CRC-32 of IEEE 802.3 over a byte. -/
def crc32Byte (c : Nat) (b : Nat) : Nat :=
  (List.range 8).foldl (fun v _ => if v % 2 = 1 then Nat.xor (v / 2) 0xEDB88320 else v / 2) (Nat.xor c b)

/-- CRC-32 with the IEEE 802.3 polynomial. -/
def crc32 (bs : List Nat) : Nat := Nat.xor (bs.foldl crc32Byte 0xFFFFFFFF) 0xFFFFFFFF

/-- Removes the first occurrence of an item. -/
def dropItem {α : Type} [BEq α] (x : α) (l : List α) : List α := l.erase x

end Sys2Proof.Machine
end

