-- ==== Sys2Proof/Machine/Fp32.lean ====
section
/-! DEFINITION. IEEE 754 binary32 arithmetic as R111 states it: every operation rounds to nearest even, no
wider intermediate is used, and subnormal inputs and results are flushed to zero. A value is its bit pattern. -/

namespace Sys2Proof.Machine

/-- The pattern of +0. -/
def f0 : F32 := 0
/-- The pattern of 1. -/
def f1 : F32 := 0x3F800000
/-- The pattern of a quiet NaN. -/
def fNaN : F32 := 0x7FC00000

def fSign (a : F32) : Bool := bitOf a 31
def fExp (a : F32) : Nat := bitField a 23 8
def fFrac (a : F32) : Nat := a % 2 ^ 23

/-- Neither an infinity nor a NaN. -/
def fFinite (a : F32) : Bool := fExp a != 255
def fIsNaN (a : F32) : Bool := fExp a == 255 && fFrac a != 0
def fIsInf (a : F32) : Bool := fExp a == 255 && fFrac a == 0
/-- Zero, or a subnormal, which is flushed to zero. -/
def fIsZero (a : F32) : Bool := fExp a == 0

def fNeg (a : F32) : F32 := if fSign a then a - 2 ^ 31 else a + 2 ^ 31
def fAbs (a : F32) : F32 := a % 2 ^ 31
def fInf (neg : Bool) : F32 := (if neg then 2 ^ 31 else 0) + 0x7F800000
def fZero (neg : Bool) : F32 := if neg then 2 ^ 31 else 0

/-- Significand of a normal number, with its hidden bit: the value is `fMant a * 2^(fExp a - 150)`. -/
def fMant (a : F32) : Nat := if fExp a = 0 then 0 else 2 ^ 23 + fFrac a

/-- Rounds `num / den * 2^e` to the nearest binary32, ties to even; a result that is subnormal after it becomes zero. -/
def fRound (neg : Bool) (num den : Nat) (e : Int) : F32 :=
  if num = 0 ∨ den = 0 then fZero neg
  else
    -- scale so that the quotient q has 25 or 26 bits, the bits below kept as sticky
    let sh : Int := 25 - ((Nat.log2 num : Int) - (Nat.log2 den : Int))
    let n' := if 0 ≤ sh then num * 2 ^ sh.toNat else num
    let d' := if 0 ≤ sh then den else den * 2 ^ (-sh).toNat
    let q := n' / d'
    let sticky := if n' % d' = 0 then 0 else 1
    -- q has 25 or 26 bits: 24 kept, the rest rounded
    let lg := Nat.log2 q
    let drop := lg - 23
    let m := q / 2 ^ drop
    let rest := q % 2 ^ drop
    let half := 2 ^ (drop - 1)
    let up := rest > half ∨ (rest = half ∧ (sticky = 1 ∨ m % 2 = 1))
    let m1 := if up then m + 1 else m
    let carry := m1 = 2 ^ 24
    let m2 := if carry then 2 ^ 23 else m1
    let ex : Int := e - sh + (drop : Int) + 150 + (if carry then 1 else 0)
    if ex ≥ 255 then fInf neg
    else if ex ≤ 0 then
      -- from 2^-126 - 2^-150 on, the nearest binary32 is the least normal number
      if ex = 0 ∧ m = 2 ^ 24 - 1 ∧ ¬carry then (if neg then 2 ^ 31 else 0) + 2 ^ 23 else fZero neg
    else (if neg then 2 ^ 31 else 0) + ex.toNat * 2 ^ 23 + (m2 - 2 ^ 23)

/-- Sum of two numbers. -/
def fAdd (a b : F32) : F32 :=
  if fIsNaN a || fIsNaN b then fNaN
  else if fIsInf a then (if fIsInf b && fSign a != fSign b then fNaN else a)
  else if fIsInf b then b
  else if fIsZero a && fIsZero b then fZero (fSign a && fSign b)
  else
    let lo := min (fExp a) (fExp b)
    let va : Int := (fMant a * 2 ^ (fExp a - lo) : Nat)
    let vb : Int := (fMant b * 2 ^ (fExp b - lo) : Nat)
    let lo' := if fIsZero a then fExp b else if fIsZero b then fExp a else lo
    let va' : Int := if fIsZero a then 0 else if fIsZero b then (fMant a : Int) else va
    let vb' : Int := if fIsZero b then 0 else if fIsZero a then (fMant b : Int) else vb
    let s := (if fSign a then -va' else va') + (if fSign b then -vb' else vb')
    if s = 0 then fZero false else fRound (decide (s < 0)) s.natAbs 1 ((lo' : Int) - 150)

def fSub (a b : F32) : F32 := fAdd a (fNeg b)

/-- Product of two numbers. -/
def fMul (a b : F32) : F32 :=
  let neg := fSign a != fSign b
  if fIsNaN a || fIsNaN b then fNaN
  else if fIsInf a || fIsInf b then (if fIsZero a || fIsZero b then fNaN else fInf neg)
  else if fIsZero a || fIsZero b then fZero neg
  else fRound neg (fMant a * fMant b) 1 ((fExp a : Int) + (fExp b : Int) - 300)

/-- Quotient of two numbers. -/
def fDiv (a b : F32) : F32 :=
  let neg := fSign a != fSign b
  if fIsNaN a || fIsNaN b then fNaN
  else if fIsInf a then (if fIsInf b then fNaN else fInf neg)
  else if fIsInf b then fZero neg
  else if fIsZero b then (if fIsZero a then fNaN else fInf neg)
  else if fIsZero a then fZero neg
  else fRound neg (fMant a) (fMant b) ((fExp a : Int) - (fExp b : Int))

/-- Square root, rounded to nearest even. -/
def fSqrt (a : F32) : F32 :=
  if fIsNaN a then fNaN
  else if fIsZero a then fZero (fSign a)
  else if fSign a then fNaN
  else if fIsInf a then a
  else
    let e : Int := (fExp a : Int) - 150
    let odd := e % 2 != 0
    let m := if odd then 2 * fMant a else fMant a
    let e' : Int := if odd then e - 1 else e
    -- 2^40 extra bits make room for the sticky bit
    let big := m * 2 ^ 40
    let r := Nat.sqrt big
    let r' := if r * r = big then 2 * r else 2 * r + 1
    fRound false r' 2 (e' / 2 - 20)

/-- The order of two numbers; false where one is a NaN. -/
def fLt (a b : F32) : Bool :=
  if fIsNaN a || fIsNaN b then false
  else
    let ka : Int := if fIsZero a then 0 else if fSign a then -((fAbs a : Nat) : Int) else ((fAbs a : Nat) : Int)
    let kb : Int := if fIsZero b then 0 else if fSign b then -((fAbs b : Nat) : Int) else ((fAbs b : Nat) : Int)
    decide (ka < kb)

def fEq (a b : F32) : Bool := !fIsNaN a && !fIsNaN b && !fLt a b && !fLt b a
def fLe (a b : F32) : Bool := fLt a b || fEq a b
/-- A subnormal flushed to zero. -/
def fFlush (a : F32) : F32 := if fIsZero a then fZero (fSign a) else a
def fMax (a b : F32) : F32 := fFlush (if fLt a b then b else a)
def fMin (a b : F32) : F32 := fFlush (if fLt b a then b else a)
def fClamp (v lo hi : F32) : F32 := fMax lo (fMin v hi)

/-- An integer count converted to binary32 (R111). -/
def fOfNat (n : Nat) : F32 := fRound false n 1 0
def fOfInt (i : Int) : F32 := fRound (decide (i < 0)) i.natAbs 1 0
/-- A ratio of counts, rounded once. -/
def fOfRatio (n d : Nat) : F32 := fRound false n d 0

/-- A finite number as a ratio: numerator (signed) and denominator. -/
def fToRatio (a : F32) : Int × Nat :=
  let m : Int := if fSign a then -((fMant a : Nat) : Int) else ((fMant a : Nat) : Int)
  if fExp a ≥ 150 then (m * ((2 ^ (fExp a - 150) : Nat) : Int), 1) else (m, 2 ^ (150 - fExp a))

/-- Nearest integer, ties to even. -/
def roundRatio (n : Int) (d : Nat) : Int :=
  let q := n / (d : Int)
  let r := n % (d : Int)
  if 2 * r < d then q else if 2 * r > d then q + 1 else if q % 2 = 0 then q else q + 1

/-- Nearest integer, halves away from zero: `round` where the manual names no tie rule. -/
def roundHalfAway (n : Int) (d : Nat) : Int :=
  let q := (n.natAbs * 2 + d) / (2 * d)
  if n < 0 then -(q : Int) else (q : Int)

/-- `round(k × a)` for an integer factor; 0 for a value that is not finite. -/
def fScaleRound (k : Int) (a : F32) : Int :=
  if fFinite a then let r := fToRatio a; roundHalfAway (r.1 * k) r.2 else 0

/-- Sum of a list of numbers, from the first to the last. -/
def fSum : List F32 → F32
  | [] => f0
  | x :: t => t.foldl fAdd x

/-- Inner product, products added in index order. -/
def fDot (a b : List F32) : F32 := fSum (List.zipWith fMul a b)

end Sys2Proof.Machine
end

