-- ==== Sys2Proof/Config.lean ====
section
/-! DEFINITION. What one part fixes and the spec leaves to it, and the free values: constants with no body,
so that nothing can be proved of the value one of them takes. -/

namespace Sys2Proof

/-- Serial number of the part (R44); not stated by the spec (DESIGN CHOICE, log entry 113, as are the other constants of a part; safe). -/
opaque Config.serialNumber : Nat

/-- `true` for ordering code QF-9600-A (air-cooled), `false` for QF-9600-L (R1). -/
opaque Config.airCooled : Bool

/-- Continuous current per feed in A: LIMIT_A's reset and largest value (R466). -/
def Config.feedRating : Nat := if Config.airCooled then 110 else 160

/-- Switch channel continuous current in mA, the limit used for I_EFF (R213, R466). -/
def Config.switchRatingMa : Nat := if Config.airCooled then 12000 else 15000

/-- Base-plate temperature limit in °C (R473, R466). -/
def Config.baseLimitC : Int := if Config.airCooled then 100 else 90

/-- VARIANT of the gauge table header (R44). -/
def Config.variant : Nat := if Config.airCooled then 0x41 else 0x4C

/-- Hardware revision of the part, major and minor (R44); not stated by the spec. -/
opaque Config.hwMajor : Nat
opaque Config.hwMinor : Nat

/-- Control-window offset of the first capability record of gauge record `n` (R46), as far as R50 allows it; stated by
the spec for one record only. -/
opaque Config.capOffset : Nat → Nat

/-- Byte `k` of the public device key that the KSM generated (R426). -/
opaque Config.devicePublicKey : Nat → Nat

/-- Slack of ring oscillator `n` at manufacture (R457, HLM_RO_n.BASE_PS); a value of the part. -/
opaque Config.roBase : Nat → Nat

/-- Baseline of an ageing monitor's item (KIND, INSTANCE, ITEM), an FP32 value recorded at the manufacturing test (R455,
R459); a value of the part. -/
opaque Config.ageBaseline : Nat → Nat → Nat → Nat

/-- Free value number `n`: what the spec leaves undefined or does not state. The step applies it to the
state's counter of free values and advances the counter (DESIGN CHOICE, log entry 4; safe). -/
opaque Config.freeValue : Nat → Nat

/-- Workspace words by byte offset after COMPUTE number `n`: the spec gives no compute instruction set (R84;
DESIGN CHOICE, log entry 4; safe). -/
opaque Config.freeWorkspace : Nat → List (Nat × Nat)

/-- CRC-64 of a row's pattern-staged commands and setpoints, listed in stitch order (R240): the spec does not give
their byte encoding (DESIGN CHOICE, log entry 49; safe). -/
opaque Config.rowDigest : List Nat → Nat

/-- What the cable delay in ns adds to the primary's EDGE (R239): the spec does not give the correction's form
(DESIGN CHOICE, log entry 48; safe). -/
opaque Config.edgeCorrection : Nat → Int

/-- A frequency as a ratio, in Hz, where module time did not advance between the two edges it is taken from: the spec
states none (R101, R151; DESIGN CHOICE, log entry 129; safe). The argument is the time between them in 0.25 ns. -/
opaque Config.backwardFrequency : Int → Nat × Nat

/-- Time in fc for which the low side of a PROP channel stays closed in PWM period number `n` to bring its mean current to a
target in mA: the spec gives the mean and no law (R192; DESIGN CHOICE, log entry 135; safe). -/
opaque Config.propOnTime : Nat → Nat → Nat

/-- Roll and pitch in the machine's frame (second part of the result) of an attitude in the frame of the inertial sensor that
is mounted at the given angles, not all zero, in 0.01° (R268): the spec names the angles and no order of the rotations
(DESIGN CHOICE, log entry 143; safe). -/
opaque Config.machineAttitude : Int → Int → Int → Nat × Nat → Nat × Nat

/-- First 4 KiB block of the MAP partition that flush number `n` writes to (R298): the spec calls it a fresh location and no
more (DESIGN CHOICE, log entry 150; safe). -/
opaque Config.tileBlock : Nat → Nat

/-- Byte `off` of a journal section (0 HEADER from its fifth byte on, 1 PAIR, 2 COUNTERS, 5 MAP_INDEX, and of AGEING 6
the baselines and 7 the running totals) with the content
named (R306): the spec lists what it holds and not where (DESIGN CHOICE, log entry 151; safe). -/
opaque Config.jrnSection : Nat → List Nat → Nat → Nat

/-- clockAccuracy and offsetScaledLogVariance that the module announces in a TIME_STATE, and identity of its clock: R360
gives class and priorities only (DESIGN CHOICE, log entry 182; safe). -/
opaque Config.gmAccuracy : Nat → Nat
opaque Config.gmVariance : Nat → Nat
opaque Config.gmIdentity : List Nat → Nat

/-- Words that carry an item of a RESYNC frame and the row at whose edge it takes effect: the spec gives their content and
no encoding (R230, R251; DESIGN CHOICE, log entry 138; safe). -/
opaque Config.resyncWords : Nat → ResyncItem → List Nat

/-- Byte `k` of the module's ECDSA signature of a fleet message (R380): it depends on the private key, which never leaves
the KSM (DESIGN CHOICE, log entry 184; safe). -/
opaque Config.signature : List Nat → Nat → Nat

/-- Body of a SUMMARY that lists the figures given (R382): the spec gives its content and no layout (DESIGN CHOICE, log
entry 184; safe). -/
opaque Config.summaryBody : List Stamp → List Nat

/-- Byte `off` of the entry that holds a delta in the delta store (R382): the spec gives its size and no layout (DESIGN
CHOICE, log entry 185; safe). -/
opaque Config.storeEntry : Delta → Nat → Nat

/-- Time in fc until VLCD lies within 20 mV of a new value, both in 10 mV: the spec bounds it by its 50 µs and gives no figure
(R401; DESIGN CHOICE, log entry 189; safe). -/
opaque Config.vlcdSettle : Nat → Nat → Nat

end Sys2Proof
end

