-- ==== Sys2Proof/Machine/Regs.lean ====
section
/-! DEFINITION. The register map: one descriptor per register field of the spec's register tables, under the
manual's own name (register, then field). A descriptor says where the field lies (block, offset, stride and
count of an indexed register, lowest bit, width), its access code (R12), the value it takes at reset (R11) and
the rule by which a written value is "taken as" another. `ownRow` marks the fields whose write is a command
of its own, which a plain register write leaves alone. Reserved bits have no descriptor: they read as zero and
writes to them are ignored (R10). -/

namespace Sys2Proof.Machine

/-- The number of a block type, the leading part of its fields' identifiers. -/
def blkCode : Blk → Nat
  | .arb => 0
  | .rng => 1
  | .cqr => 2
  | .til => 3
  | .tke => 4
  | .sps => 5
  | .fnl => 6
  | .sfe => 7
  | .dbk => 8
  | .sbk => 9
  | .pps => 10
  | .xlk => 11
  | .nav => 12
  | .cam => 13
  | .isp => 14
  | .vxa => 15
  | .can => 16
  | .eth => 17
  | .hlk => 18
  | .fle => 19
  | .pnl => 20
  | .sto => 21
  | .jrn => 22
  | .upd => 23
  | .ksm => 24
  | .hlm => 25
  | .aoc => 26
  | .mem => 27
  | .gauge => 28
  | .doorbell => 29
  | .msix => 30

/-- The access codes of R12. -/
inductive Acc where
  | ro | rw | rw1c | wo | rwa | rol
  deriving DecidableEq, Repr

/-- How a written value is taken: as it is, limited to a range, or replaced when outside one. -/
inductive Lim where
  | free
  | clamp (lo hi : Nat)
  | outside (lo hi dflt : Nat)
  deriving DecidableEq, Repr

/-- One register field. -/
structure Fld where
  id : Nat
  name : String
  blk : Blk
  off : Nat
  stride : Nat
  count : Nat
  lsb : Nat
  width : Nat
  acc : Acc
  ownRow : Bool
  reset : Nat
  /-- Reset values by index (by instance where the register is not indexed), where they differ. -/
  resets : List Nat
  lim : Lim
  deriving DecidableEq, Repr

/-- The value a stored field is taken as. -/
def Lim.apply (l : Lim) (v : Nat) : Nat :=
  match l with
  | .free => v
  | .clamp lo hi => clampNat lo hi v
  | .outside lo hi d => if lo ≤ v ∧ v ≤ hi then v else d

namespace R

/-! Register table of R40. -/

/-- ARB_INFO_REQ_COUNT (R40). -/
def ARB_INFO_REQ_COUNT : Fld :=
  ⟨0, "ARB_INFO_REQ_COUNT", .arb, 0x000, 0, 1, 0, 8, .ro, false, 0, [49, 10, 10, 10, 10, 7, 7, 7, 7, 7, 7, 7, 7, 7, 7, 7, 7, 7, 7, 7, 7, 5], .free⟩

/-- ARB_INFO_DOMAIN (R40). -/
def ARB_INFO_DOMAIN : Fld :=
  ⟨1, "ARB_INFO_DOMAIN", .arb, 0x000, 0, 1, 8, 4, .ro, false, 0, [2, 4, 4, 4, 4, 2, 2, 2, 2, 2, 2, 2, 2, 2, 2, 2, 2, 2, 2, 2, 2, 13], .free⟩

/-- ARB_INFO_KIND (R40). -/
def ARB_INFO_KIND : Fld :=
  ⟨2, "ARB_INFO_KIND", .arb, 0x000, 0, 1, 12, 4, .ro, false, 0, [0, 1, 1, 1, 1, 2, 2, 2, 2, 2, 2, 2, 2, 2, 2, 2, 2, 2, 2, 2, 2, 3], .free⟩

/-- ARB_INFO_INDEX (R40). -/
def ARB_INFO_INDEX : Fld :=
  ⟨3, "ARB_INFO_INDEX", .arb, 0x000, 0, 1, 16, 8, .ro, false, 0, [0, 0, 1, 2, 3, 0, 1, 2, 3, 4, 5, 6, 7, 8, 9, 10, 11, 12, 13, 14, 15, 0], .free⟩

/-- ARB_LIMITS_TENURE_MAX (R40). -/
def ARB_LIMITS_TENURE_MAX : Fld :=
  ⟨4, "ARB_LIMITS_TENURE_MAX", .arb, 0x004, 0, 1, 0, 16, .ro, false, 0, [1, 8, 8, 8, 8, 4, 4, 4, 4, 4, 4, 4, 4, 4, 4, 4, 4, 4, 4, 4, 4, 68], .free⟩

/-- ARB_LIMITS_EMERG_MAX (R40). -/
def ARB_LIMITS_EMERG_MAX : Fld :=
  ⟨5, "ARB_LIMITS_EMERG_MAX", .arb, 0x004, 0, 1, 16, 16, .ro, false, 0, [2, 224, 224, 224, 224, 4, 4, 4, 4, 4, 4, 4, 4, 4, 4, 4, 4, 4, 4, 4, 4, 8], .free⟩

/-- ARB_EMERG_EMERG_SPACING (R40). -/
def ARB_EMERG_EMERG_SPACING : Fld :=
  ⟨6, "ARB_EMERG_EMERG_SPACING", .arb, 0x008, 0, 1, 0, 24, .ro, false, 0, [100000, 3120, 3120, 3120, 3120, 64, 64, 64, 64, 64, 64, 64, 64, 64, 64, 64, 64, 64, 64, 64, 64, 78125], .free⟩

/-- ARB_EMERG_EMERG_ENABLED (R40). -/
def ARB_EMERG_EMERG_ENABLED : Fld :=
  ⟨7, "ARB_EMERG_EMERG_ENABLED", .arb, 0x008, 0, 1, 24, 1, .ro, false, 0, [1, 1, 1, 1, 1, 1, 1, 1, 1, 1, 1, 1, 1, 1, 1, 1, 1, 1, 1, 1, 1, 1], .free⟩

/-- ARB_STAT_HOLDER (R40). -/
def ARB_STAT_HOLDER : Fld :=
  ⟨8, "ARB_STAT_HOLDER", .arb, 0x00C, 0, 1, 0, 8, .ro, false, 0, [], .free⟩

/-- ARB_STAT_BUSY (R40). -/
def ARB_STAT_BUSY : Fld :=
  ⟨9, "ARB_STAT_BUSY", .arb, 0x00C, 0, 1, 8, 1, .ro, false, 0, [], .free⟩

/-- ARB_STAT_EMERG_ACTIVE (R40). -/
def ARB_STAT_EMERG_ACTIVE : Fld :=
  ⟨10, "ARB_STAT_EMERG_ACTIVE", .arb, 0x00C, 0, 1, 9, 1, .ro, false, 0, [], .free⟩

/-- ARB_STAT_TOP_RANK (R40). -/
def ARB_STAT_TOP_RANK : Fld :=
  ⟨11, "ARB_STAT_TOP_RANK", .arb, 0x00C, 0, 1, 16, 8, .ro, false, 0, [], .free⟩

/-- ARB_PREEMPT_COUNT_COUNT (R40). -/
def ARB_PREEMPT_COUNT_COUNT : Fld :=
  ⟨12, "ARB_PREEMPT_COUNT_COUNT", .arb, 0x010, 0, 1, 0, 32, .ro, false, 0, [], .free⟩

/-- ARB_DEAD_COUNT_COUNT (R40). -/
def ARB_DEAD_COUNT_COUNT : Fld :=
  ⟨13, "ARB_DEAD_COUNT_COUNT", .arb, 0x014, 0, 1, 0, 32, .ro, false, 0, [], .free⟩

/-- ARB_TICKET_PEAK_TICKET (R40). -/
def ARB_TICKET_PEAK_TICKET : Fld :=
  ⟨14, "ARB_TICKET_PEAK_TICKET", .arb, 0x018, 0, 1, 0, 16, .rol, false, 0, [], .free⟩

/-- ARB_TICKET_PEAK_REQUESTER (R40). -/
def ARB_TICKET_PEAK_REQUESTER : Fld :=
  ⟨15, "ARB_TICKET_PEAK_REQUESTER", .arb, 0x018, 0, 1, 16, 8, .rol, false, 0, [], .free⟩

/-- ARB_CLEAR_CLEAR_COUNTS (R40). -/
def ARB_CLEAR_CLEAR_COUNTS : Fld :=
  ⟨16, "ARB_CLEAR_CLEAR_COUNTS", .arb, 0x01C, 0, 1, 0, 1, .wo, true, 0, [], .free⟩

/-! Register table of R57. -/

/-- RING_BASE_LO_ADDR_LO (R57). -/
def RING_BASE_LO_ADDR_LO : Fld :=
  ⟨128, "RING_BASE_LO_ADDR_LO", .rng, 0x000, 32, 256, 12, 20, .rwa, false, 0, [], .free⟩

/-- RING_BASE_HI_ADDR_HI (R57). -/
def RING_BASE_HI_ADDR_HI : Fld :=
  ⟨129, "RING_BASE_HI_ADDR_HI", .rng, 0x004, 32, 256, 0, 32, .rwa, false, 0, [], .free⟩

/-- RING_CFG_SIZE_LOG2 (R57). -/
def RING_CFG_SIZE_LOG2 : Fld :=
  ⟨130, "RING_CFG_SIZE_LOG2", .rng, 0x008, 32, 256, 0, 5, .rwa, false, 4, [], .outside 4 16 4⟩

/-- RING_CFG_CLASS (R57). -/
def RING_CFG_CLASS : Fld :=
  ⟨131, "RING_CFG_CLASS", .rng, 0x008, 32, 256, 8, 4, .rwa, false, 0, [], .free⟩

/-- RING_CFG_CQ (R57). -/
def RING_CFG_CQ : Fld :=
  ⟨132, "RING_CFG_CQ", .rng, 0x008, 32, 256, 16, 6, .rwa, false, 0, [], .free⟩

/-- RING_CFG_HOST (R57). -/
def RING_CFG_HOST : Fld :=
  ⟨133, "RING_CFG_HOST", .rng, 0x008, 32, 256, 24, 1, .rwa, false, 0, [], .free⟩

/-- RING_CTRL_ENABLE (R57). -/
def RING_CTRL_ENABLE : Fld :=
  ⟨134, "RING_CTRL_ENABLE", .rng, 0x00C, 32, 256, 0, 1, .rw, true, 0, [], .free⟩

/-- RING_CTRL_IDLE (R57). -/
def RING_CTRL_IDLE : Fld :=
  ⟨135, "RING_CTRL_IDLE", .rng, 0x00C, 32, 256, 1, 1, .ro, false, 1, [], .free⟩

/-- RING_CTRL_ERROR (R57). -/
def RING_CTRL_ERROR : Fld :=
  ⟨136, "RING_CTRL_ERROR", .rng, 0x00C, 32, 256, 2, 1, .ro, false, 0, [], .free⟩

/-- RING_CTRL_ERR_CODE (R57). -/
def RING_CTRL_ERR_CODE : Fld :=
  ⟨137, "RING_CTRL_ERR_CODE", .rng, 0x00C, 32, 256, 4, 4, .ro, false, 0, [], .free⟩

/-- RING_HEAD_INDEX (R57). -/
def RING_HEAD_INDEX : Fld :=
  ⟨138, "RING_HEAD_INDEX", .rng, 0x010, 32, 256, 0, 16, .ro, false, 0, [], .free⟩

/-- RING_TAIL_INDEX (R57). -/
def RING_TAIL_INDEX : Fld :=
  ⟨139, "RING_TAIL_INDEX", .rng, 0x014, 32, 256, 0, 16, .ro, false, 0, [], .free⟩

/-- RING_HEAD_PHASE (R57). -/
def RING_HEAD_PHASE : Fld :=
  ⟨140, "RING_HEAD_PHASE", .rng, 0x010, 32, 256, 16, 1, .ro, false, 1, [], .free⟩

/-- RING_TAIL_PHASE (R57). -/
def RING_TAIL_PHASE : Fld :=
  ⟨141, "RING_TAIL_PHASE", .rng, 0x014, 32, 256, 16, 1, .ro, false, 1, [], .free⟩

/-- RING_COUNT_OUTSTANDING (R57). -/
def RING_COUNT_OUTSTANDING : Fld :=
  ⟨142, "RING_COUNT_OUTSTANDING", .rng, 0x018, 32, 256, 0, 17, .ro, false, 0, [], .free⟩

/-- RING_NOOP_ABORT_NOOP (R57). -/
def RING_NOOP_ABORT_NOOP : Fld :=
  ⟨143, "RING_NOOP_ABORT_NOOP", .rng, 0x01C, 32, 256, 0, 16, .ro, false, 0, [], .free⟩

/-- RING_NOOP_DB_DISCARD (R57). -/
def RING_NOOP_DB_DISCARD : Fld :=
  ⟨144, "RING_NOOP_DB_DISCARD", .rng, 0x01C, 32, 256, 16, 16, .ro, false, 0, [], .free⟩

/-! Register table of R60. -/

/-- CQ_CFG_SIZE_LOG2 (R60). -/
def CQ_CFG_SIZE_LOG2 : Fld :=
  ⟨256, "CQ_CFG_SIZE_LOG2", .cqr, 0x008, 32, 64, 0, 5, .rwa, false, 4, [], .outside 4 16 4⟩

/-- CQ_CFG_HOST (R60). -/
def CQ_CFG_HOST : Fld :=
  ⟨257, "CQ_CFG_HOST", .cqr, 0x008, 32, 64, 8, 1, .rwa, false, 0, [], .free⟩

/-- CQ_CFG_IRQ_EN (R60). -/
def CQ_CFG_IRQ_EN : Fld :=
  ⟨258, "CQ_CFG_IRQ_EN", .cqr, 0x008, 32, 64, 9, 1, .rw, false, 0, [], .free⟩

/-- CQ_CFG_VECTOR (R60). -/
def CQ_CFG_VECTOR : Fld :=
  ⟨259, "CQ_CFG_VECTOR", .cqr, 0x008, 32, 64, 16, 11, .rwa, false, 0, [], .free⟩

/-- CQ_CTRL_ENABLE (R60). -/
def CQ_CTRL_ENABLE : Fld :=
  ⟨260, "CQ_CTRL_ENABLE", .cqr, 0x00C, 32, 64, 0, 1, .rw, true, 0, [], .free⟩

/-- CQ_WRITE_INDEX (R60). -/
def CQ_WRITE_INDEX : Fld :=
  ⟨261, "CQ_WRITE_INDEX", .cqr, 0x010, 32, 64, 0, 16, .ro, false, 0, [], .free⟩

/-- CQ_HEAD_INDEX (R60). -/
def CQ_HEAD_INDEX : Fld :=
  ⟨262, "CQ_HEAD_INDEX", .cqr, 0x014, 32, 64, 0, 16, .ro, false, 0, [], .free⟩

/-- CQ_WRITE_PHASE (R60). -/
def CQ_WRITE_PHASE : Fld :=
  ⟨263, "CQ_WRITE_PHASE", .cqr, 0x010, 32, 64, 16, 1, .ro, false, 1, [], .free⟩

/-- CQ_HEAD_PHASE (R60). -/
def CQ_HEAD_PHASE : Fld :=
  ⟨264, "CQ_HEAD_PHASE", .cqr, 0x014, 32, 64, 16, 1, .ro, false, 1, [], .free⟩

/-- CQ_MOD_COUNT (R60). -/
def CQ_MOD_COUNT : Fld :=
  ⟨265, "CQ_MOD_COUNT", .cqr, 0x018, 32, 64, 0, 8, .rw, false, 1, [], .clamp 1 255⟩

/-- CQ_MOD_DELAY (R60). -/
def CQ_MOD_DELAY : Fld :=
  ⟨266, "CQ_MOD_DELAY", .cqr, 0x018, 32, 64, 16, 16, .rw, false, 0, [], .free⟩

/-- CQ_FREE_FREE (R60). -/
def CQ_FREE_FREE : Fld :=
  ⟨267, "CQ_FREE_FREE", .cqr, 0x01C, 32, 64, 0, 17, .ro, false, 16, [], .free⟩

/-- CQ_BASE_LO_ADDR_LO (R60). -/
def CQ_BASE_LO_ADDR_LO : Fld :=
  ⟨268, "CQ_BASE_LO_ADDR_LO", .cqr, 0x000, 32, 64, 12, 20, .rwa, false, 0, [], .free⟩

/-- CQ_BASE_HI_ADDR_HI (R60). -/
def CQ_BASE_HI_ADDR_HI : Fld :=
  ⟨269, "CQ_BASE_HI_ADDR_HI", .cqr, 0x004, 32, 64, 0, 32, .rwa, false, 0, [], .free⟩

/-! Register table of R76. -/

/-- TIL_SEQ_NEXT_SEQ (R76). -/
def TIL_SEQ_NEXT_SEQ : Fld :=
  ⟨384, "TIL_SEQ_NEXT_SEQ", .til, 0x000, 0, 1, 0, 32, .ro, false, 0, [], .free⟩

/-- TIL_QUEUE_FREE (R76). -/
def TIL_QUEUE_FREE : Fld :=
  ⟨385, "TIL_QUEUE_FREE", .til, 0x004, 0, 1, 0, 13, .ro, false, 4096, [], .free⟩

/-- TIL_QUEUE_SERVICE_MASKED (R76). -/
def TIL_QUEUE_SERVICE_MASKED : Fld :=
  ⟨386, "TIL_QUEUE_SERVICE_MASKED", .til, 0x004, 0, 1, 16, 1, .ro, false, 0, [], .free⟩

/-- TIL_ABORTS_LATE (R76). -/
def TIL_ABORTS_LATE : Fld :=
  ⟨387, "TIL_ABORTS_LATE", .til, 0x008, 0, 1, 0, 16, .ro, false, 0, [], .free⟩

/-- TIL_ABORTS_ABORTED (R76). -/
def TIL_ABORTS_ABORTED : Fld :=
  ⟨388, "TIL_ABORTS_ABORTED", .til, 0x008, 0, 1, 16, 16, .ro, false, 0, [], .free⟩

/-! Register table of R106. -/

/-- TKE_TICK_PERIOD_PERIOD_US (R106). -/
def TKE_TICK_PERIOD_PERIOD_US : Fld :=
  ⟨512, "TKE_TICK_PERIOD_PERIOD_US", .tke, 0x000, 0, 1, 0, 15, .rwa, false, 1000, [], .free⟩

/-- TKE_COMMIT_OFFSET_OFFSET_US (R106). -/
def TKE_COMMIT_OFFSET_OFFSET_US : Fld :=
  ⟨513, "TKE_COMMIT_OFFSET_OFFSET_US", .tke, 0x004, 0, 1, 0, 15, .rwa, false, 0, [], .free⟩

/-- TKE_TICK_PHASE_PHASE_NS (R106). -/
def TKE_TICK_PHASE_PHASE_NS : Fld :=
  ⟨514, "TKE_TICK_PHASE_PHASE_NS", .tke, 0x008, 0, 1, 0, 32, .rwa, false, 0, [], .free⟩

/-- TKE_ALIGN_ALIGN_EN (R106). -/
def TKE_ALIGN_ALIGN_EN : Fld :=
  ⟨515, "TKE_ALIGN_ALIGN_EN", .tke, 0x00C, 0, 1, 0, 1, .rwa, false, 1, [], .free⟩

/-- TKE_ALIGN_SLEW_FC (R106). -/
def TKE_ALIGN_SLEW_FC : Fld :=
  ⟨516, "TKE_ALIGN_SLEW_FC", .tke, 0x00C, 0, 1, 8, 9, .rwa, false, 4, [], .clamp 1 400⟩

/-- TKE_ALIGN_STATE (R106). -/
def TKE_ALIGN_STATE : Fld :=
  ⟨517, "TKE_ALIGN_STATE", .tke, 0x00C, 0, 1, 20, 2, .ro, false, 0, [], .free⟩

/-- TKE_ALIGN_ERR_ERR_NS (R106). -/
def TKE_ALIGN_ERR_ERR_NS : Fld :=
  ⟨518, "TKE_ALIGN_ERR_ERR_NS", .tke, 0x010, 0, 1, 0, 32, .ro, false, 0, [], .free⟩

/-- TKE_CTRL_ARM (R106). -/
def TKE_CTRL_ARM : Fld :=
  ⟨519, "TKE_CTRL_ARM", .tke, 0x014, 0, 1, 0, 1, .rw, true, 0, [], .free⟩

/-- TKE_CTRL_ARMED (R106). -/
def TKE_CTRL_ARMED : Fld :=
  ⟨520, "TKE_CTRL_ARMED", .tke, 0x014, 0, 1, 1, 1, .ro, false, 0, [], .free⟩

/-- TKE_CTRL_FALLBACK_ACTIVE (R106). -/
def TKE_CTRL_FALLBACK_ACTIVE : Fld :=
  ⟨521, "TKE_CTRL_FALLBACK_ACTIVE", .tke, 0x014, 0, 1, 2, 1, .ro, false, 0, [], .free⟩

/-- TKE_CTRL_STOPPED (R106). -/
def TKE_CTRL_STOPPED : Fld :=
  ⟨522, "TKE_CTRL_STOPPED", .tke, 0x014, 0, 1, 3, 1, .ro, false, 0, [], .free⟩

/-- TKE_CTRL_ARM_ERR (R106). -/
def TKE_CTRL_ARM_ERR : Fld :=
  ⟨523, "TKE_CTRL_ARM_ERR", .tke, 0x014, 0, 1, 4, 4, .ro, false, 0, [], .free⟩

/-- TKE_ROW_LO_ROW (R106). -/
def TKE_ROW_LO_ROW : Fld :=
  ⟨524, "TKE_ROW_LO_ROW", .tke, 0x018, 0, 1, 0, 32, .ro, false, 0, [], .free⟩

/-- TKE_ROW_HI_ROW (R106). -/
def TKE_ROW_HI_ROW : Fld :=
  ⟨525, "TKE_ROW_HI_ROW", .tke, 0x01C, 0, 1, 0, 32, .ro, false, 0, [], .free⟩

/-- TKE_OVERRUN_TOTAL (R106). -/
def TKE_OVERRUN_TOTAL : Fld :=
  ⟨526, "TKE_OVERRUN_TOTAL", .tke, 0x020, 0, 1, 0, 16, .ro, false, 0, [], .free⟩

/-- TKE_OVERRUN_CONSEC (R106). -/
def TKE_OVERRUN_CONSEC : Fld :=
  ⟨527, "TKE_OVERRUN_CONSEC", .tke, 0x020, 0, 1, 16, 2, .ro, false, 0, [], .free⟩

/-- TKE_OVERRUN_LAST_CAUSE (R106). -/
def TKE_OVERRUN_LAST_CAUSE : Fld :=
  ⟨528, "TKE_OVERRUN_LAST_CAUSE", .tke, 0x020, 0, 1, 20, 3, .ro, false, 0, [], .free⟩

/-- TKE_PEAK_FC (R106). -/
def TKE_PEAK_FC : Fld :=
  ⟨529, "TKE_PEAK_FC", .tke, 0x030, 0, 1, 0, 24, .rol, false, 0, [], .free⟩

/-- TKE_EPOCH_EPOCH (R106). -/
def TKE_EPOCH_EPOCH : Fld :=
  ⟨530, "TKE_EPOCH_EPOCH", .tke, 0x034, 0, 1, 0, 32, .ro, false, 0, [], .free⟩

/-- TKE_TABLE_STATE_LIVE_BUF (R106). -/
def TKE_TABLE_STATE_LIVE_BUF : Fld :=
  ⟨531, "TKE_TABLE_STATE_LIVE_BUF", .tke, 0x038, 0, 1, 0, 2, .ro, false, 3, [], .free⟩

/-- TKE_TABLE_STATE_PENDING_BUF (R106). -/
def TKE_TABLE_STATE_PENDING_BUF : Fld :=
  ⟨532, "TKE_TABLE_STATE_PENDING_BUF", .tke, 0x038, 0, 1, 2, 2, .ro, false, 3, [], .free⟩

/-- TKE_TABLE_STATE_LOADING_BUF (R106). -/
def TKE_TABLE_STATE_LOADING_BUF : Fld :=
  ⟨533, "TKE_TABLE_STATE_LOADING_BUF", .tke, 0x038, 0, 1, 4, 2, .ro, false, 3, [], .free⟩

/-- TKE_TABLE_STATE_SUPERSEDED (R106). -/
def TKE_TABLE_STATE_SUPERSEDED : Fld :=
  ⟨534, "TKE_TABLE_STATE_SUPERSEDED", .tke, 0x038, 0, 1, 16, 16, .ro, false, 0, [], .free⟩

/-- TKE_LOCKSTEP_MASKED (R106). -/
def TKE_LOCKSTEP_MASKED : Fld :=
  ⟨535, "TKE_LOCKSTEP_MASKED", .tke, 0x03C, 0, 1, 0, 4, .ro, false, 0, [], .free⟩

/-- TKE_LOCKSTEP_DISAGREE_COUNT (R106). -/
def TKE_LOCKSTEP_DISAGREE_COUNT : Fld :=
  ⟨536, "TKE_LOCKSTEP_DISAGREE_COUNT", .tke, 0x03C, 0, 1, 16, 16, .ro, false, 0, [], .free⟩

/-- TKE_RREC_CFG_SIZE_LOG2 (R106). -/
def TKE_RREC_CFG_SIZE_LOG2 : Fld :=
  ⟨537, "TKE_RREC_CFG_SIZE_LOG2", .tke, 0x048, 0, 1, 0, 5, .rwa, false, 4, [], .outside 4 16 4⟩

/-- TKE_RREC_CFG_HOST (R106). -/
def TKE_RREC_CFG_HOST : Fld :=
  ⟨538, "TKE_RREC_CFG_HOST", .tke, 0x048, 0, 1, 8, 1, .rwa, false, 0, [], .free⟩

/-- TKE_RREC_CFG_ENABLE (R106). -/
def TKE_RREC_CFG_ENABLE : Fld :=
  ⟨539, "TKE_RREC_CFG_ENABLE", .tke, 0x048, 0, 1, 9, 1, .rw, true, 0, [], .free⟩

/-- TKE_RREC_CFG_DROPPED (R106). -/
def TKE_RREC_CFG_DROPPED : Fld :=
  ⟨540, "TKE_RREC_CFG_DROPPED", .tke, 0x048, 0, 1, 16, 16, .ro, false, 0, [], .free⟩

/-- TKE_RREC_HEAD_INDEX (R106). -/
def TKE_RREC_HEAD_INDEX : Fld :=
  ⟨541, "TKE_RREC_HEAD_INDEX", .tke, 0x04C, 0, 1, 0, 16, .rw, true, 0, [], .free⟩

/-- TKE_RREC_WRITE_INDEX (R106). -/
def TKE_RREC_WRITE_INDEX : Fld :=
  ⟨542, "TKE_RREC_WRITE_INDEX", .tke, 0x050, 0, 1, 0, 16, .ro, false, 0, [], .free⟩

/-- TKE_RREC_HEAD_PHASE (R106). -/
def TKE_RREC_HEAD_PHASE : Fld :=
  ⟨543, "TKE_RREC_HEAD_PHASE", .tke, 0x04C, 0, 1, 16, 1, .rw, true, 1, [], .free⟩

/-- TKE_RREC_WRITE_PHASE (R106). -/
def TKE_RREC_WRITE_PHASE : Fld :=
  ⟨544, "TKE_RREC_WRITE_PHASE", .tke, 0x050, 0, 1, 16, 1, .ro, false, 1, [], .free⟩

/-- TKE_RREC_BASE_LO_ADDR_LO (R106). -/
def TKE_RREC_BASE_LO_ADDR_LO : Fld :=
  ⟨545, "TKE_RREC_BASE_LO_ADDR_LO", .tke, 0x040, 0, 1, 12, 20, .rwa, false, 0, [], .free⟩

/-- TKE_RREC_BASE_HI_ADDR_HI (R106). -/
def TKE_RREC_BASE_HI_ADDR_HI : Fld :=
  ⟨546, "TKE_RREC_BASE_HI_ADDR_HI", .tke, 0x044, 0, 1, 0, 32, .rwa, false, 0, [], .free⟩

/-- TKE_COST_MAIN_FC (R106). -/
def TKE_COST_MAIN_FC : Fld :=
  ⟨547, "TKE_COST_MAIN_FC", .tke, 0x024, 0, 1, 0, 24, .ro, false, 0, [], .free⟩

/-- TKE_COST_FALLBACK_FC (R106). -/
def TKE_COST_FALLBACK_FC : Fld :=
  ⟨548, "TKE_COST_FALLBACK_FC", .tke, 0x028, 0, 1, 0, 24, .ro, false, 0, [], .free⟩

/-- TKE_BUDGET_FC (R106). -/
def TKE_BUDGET_FC : Fld :=
  ⟨549, "TKE_BUDGET_FC", .tke, 0x02C, 0, 1, 0, 24, .ro, false, 0, [], .free⟩

/-! Register table of R137. -/

/-- SPS_CTRL_WARM_EN (R137). -/
def SPS_CTRL_WARM_EN : Fld :=
  ⟨640, "SPS_CTRL_WARM_EN", .sps, 0x000, 0, 1, 0, 1, .rwa, false, 1, [], .free⟩

/-- SPS_STATUS_OUTCOME (R137). -/
def SPS_STATUS_OUTCOME : Fld :=
  ⟨641, "SPS_STATUS_OUTCOME", .sps, 0x004, 0, 1, 0, 2, .ro, false, 0, [], .free⟩

/-- SPS_STATUS_FEAS_ITER (R137). -/
def SPS_STATUS_FEAS_ITER : Fld :=
  ⟨642, "SPS_STATUS_FEAS_ITER", .sps, 0x004, 0, 1, 2, 4, .ro, false, 0, [], .free⟩

/-- SPS_STATUS_REGION (R137). -/
def SPS_STATUS_REGION : Fld :=
  ⟨643, "SPS_STATUS_REGION", .sps, 0x004, 0, 1, 8, 6, .ro, false, 0, [], .free⟩

/-- SPS_STATUS_ENV_CONFLICT (R137). -/
def SPS_STATUS_ENV_CONFLICT : Fld :=
  ⟨644, "SPS_STATUS_ENV_CONFLICT", .sps, 0x004, 0, 1, 16, 1, .ro, false, 0, [], .free⟩

/-- SPS_STATUS_RATE_YIELD (R137). -/
def SPS_STATUS_RATE_YIELD : Fld :=
  ⟨645, "SPS_STATUS_RATE_YIELD", .sps, 0x004, 0, 1, 17, 1, .ro, false, 0, [], .free⟩

/-- SPS_STATUS_REGION_CHANGED (R137). -/
def SPS_STATUS_REGION_CHANGED : Fld :=
  ⟨646, "SPS_STATUS_REGION_CHANGED", .sps, 0x004, 0, 1, 18, 1, .ro, false, 0, [], .free⟩

/-- SPS_STATUS_NUMERIC (R137). -/
def SPS_STATUS_NUMERIC : Fld :=
  ⟨647, "SPS_STATUS_NUMERIC", .sps, 0x004, 0, 1, 19, 1, .ro, false, 0, [], .free⟩

/-- SPS_STATUS_WARM (R137). -/
def SPS_STATUS_WARM : Fld :=
  ⟨648, "SPS_STATUS_WARM", .sps, 0x004, 0, 1, 20, 1, .ro, false, 0, [], .free⟩

/-- SPS_SOLVE_FC_FC (R137). -/
def SPS_SOLVE_FC_FC : Fld :=
  ⟨649, "SPS_SOLVE_FC_FC", .sps, 0x008, 0, 1, 0, 15, .ro, false, 0, [], .free⟩

/-- SPS_SOLVE_ROW_LO_ROW (R137). -/
def SPS_SOLVE_ROW_LO_ROW : Fld :=
  ⟨650, "SPS_SOLVE_ROW_LO_ROW", .sps, 0x00C, 0, 1, 0, 32, .ro, false, 0, [], .free⟩

/-- SPS_SOLVE_ROW_HI_ROW (R137). -/
def SPS_SOLVE_ROW_HI_ROW : Fld :=
  ⟨651, "SPS_SOLVE_ROW_HI_ROW", .sps, 0x010, 0, 1, 0, 32, .ro, false, 0, [], .free⟩

/-- SPS_COUNTS_FEASIBLE (R137). -/
def SPS_COUNTS_FEASIBLE : Fld :=
  ⟨652, "SPS_COUNTS_FEASIBLE", .sps, 0x014, 0, 1, 0, 16, .ro, false, 0, [], .free⟩

/-- SPS_COUNTS_FALLBACK (R137). -/
def SPS_COUNTS_FALLBACK : Fld :=
  ⟨653, "SPS_COUNTS_FALLBACK", .sps, 0x014, 0, 1, 16, 16, .ro, false, 0, [], .free⟩

/-- SPS_RESID_PRI_VALUE (R137). -/
def SPS_RESID_PRI_VALUE : Fld :=
  ⟨654, "SPS_RESID_PRI_VALUE", .sps, 0x018, 0, 1, 0, 32, .ro, false, 0, [], .free⟩

/-- SPS_RESID_DUA_VALUE (R137). -/
def SPS_RESID_DUA_VALUE : Fld :=
  ⟨655, "SPS_RESID_DUA_VALUE", .sps, 0x01C, 0, 1, 0, 32, .ro, false, 0, [], .free⟩

/-- SPS_QUAL_STALE_STALE (R137). -/
def SPS_QUAL_STALE_STALE : Fld :=
  ⟨656, "SPS_QUAL_STALE_STALE", .sps, 0x020, 0, 1, 0, 16, .ro, false, 0, [], .free⟩

/-- SPS_QUAL_FUTURE_COUNT (R137). -/
def SPS_QUAL_FUTURE_COUNT : Fld :=
  ⟨657, "SPS_QUAL_FUTURE_COUNT", .sps, 0x024, 0, 1, 0, 16, .ro, false, 0, [], .free⟩

/-- SPS_YIELD_MASK_SLOTS (R137). -/
def SPS_YIELD_MASK_SLOTS : Fld :=
  ⟨658, "SPS_YIELD_MASK_SLOTS", .sps, 0x028, 0, 1, 0, 32, .ro, false, 0, [], .free⟩

/-- SPS_SET_ID_LO_SET_ID (R137). -/
def SPS_SET_ID_LO_SET_ID : Fld :=
  ⟨659, "SPS_SET_ID_LO_SET_ID", .sps, 0x02C, 0, 1, 0, 32, .ro, false, 0, [], .free⟩

/-- SPS_SET_ID_HI_SET_ID (R137). -/
def SPS_SET_ID_HI_SET_ID : Fld :=
  ⟨660, "SPS_SET_ID_HI_SET_ID", .sps, 0x030, 0, 1, 0, 32, .ro, false, 0, [], .free⟩

/-- SPS_QUAL_CFG_MAX_AGE_MS (R137). -/
def SPS_QUAL_CFG_MAX_AGE_MS : Fld :=
  ⟨661, "SPS_QUAL_CFG_MAX_AGE_MS", .sps, 0x040, 4, 16, 0, 16, .rwa, false, 0, [5, 5, 5, 5, 5, 2000, 2000, 2000, 100, 5, 200, 20, 20, 20, 0, 0], .free⟩

/-- SPS_QUAL_CFG_SOURCE (R137). -/
def SPS_QUAL_CFG_SOURCE : Fld :=
  ⟨662, "SPS_QUAL_CFG_SOURCE", .sps, 0x040, 4, 16, 16, 2, .rwa, false, 0, [0, 0, 0, 0, 0, 2, 2, 2, 0, 0, 2, 1, 1, 1, 3, 3], .free⟩

/-- SPS_SETPOINT_VALUE (R137). -/
def SPS_SETPOINT_VALUE : Fld :=
  ⟨663, "SPS_SETPOINT_VALUE", .sps, 0x100, 4, 32, 0, 32, .ro, false, 0, [], .free⟩

/-- SPS_OP_LO_VALUE (R137). -/
def SPS_OP_LO_VALUE : Fld :=
  ⟨664, "SPS_OP_LO_VALUE", .sps, 0x200, 4, 32, 0, 32, .ro, false, 0, [], .free⟩

/-- SPS_OP_HI_VALUE (R137). -/
def SPS_OP_HI_VALUE : Fld :=
  ⟨665, "SPS_OP_HI_VALUE", .sps, 0x280, 4, 32, 0, 32, .ro, false, 0, [], .free⟩

/-- SPS_QUAL_VALUE_VALUE (R137). -/
def SPS_QUAL_VALUE_VALUE : Fld :=
  ⟨666, "SPS_QUAL_VALUE_VALUE", .sps, 0x300, 4, 16, 0, 32, .ro, false, 0, [], .free⟩

/-! Register table of R138. -/

/-- FNL_FB_FAULT_SLOTS (R138). -/
def FNL_FB_FAULT_SLOTS : Fld :=
  ⟨768, "FNL_FB_FAULT_SLOTS", .fnl, 0x000, 0, 1, 0, 32, .ro, false, 0, [], .free⟩

/-- FNL_SAT_SLOTS (R138). -/
def FNL_SAT_SLOTS : Fld :=
  ⟨769, "FNL_SAT_SLOTS", .fnl, 0x004, 0, 1, 0, 32, .ro, false, 0, [], .free⟩

/-- FNL_OUT_VALUE (R138). -/
def FNL_OUT_VALUE : Fld :=
  ⟨770, "FNL_OUT_VALUE", .fnl, 0x100, 4, 32, 0, 32, .ro, false, 0, [], .free⟩

/-- FNL_SP_VALUE (R138). -/
def FNL_SP_VALUE : Fld :=
  ⟨771, "FNL_SP_VALUE", .fnl, 0x180, 4, 32, 0, 32, .ro, false, 0, [], .free⟩

/-! Register table of R165. -/

/-- SFE_CTRL_BG_CAL_EN (R165). -/
def SFE_CTRL_BG_CAL_EN : Fld :=
  ⟨896, "SFE_CTRL_BG_CAL_EN", .sfe, 0x000, 0, 1, 0, 1, .rw, false, 1, [], .free⟩

/-- SFE_CTRL_LIVE_BANK (R165). -/
def SFE_CTRL_LIVE_BANK : Fld :=
  ⟨897, "SFE_CTRL_LIVE_BANK", .sfe, 0x000, 0, 1, 1, 1, .ro, false, 0, [], .free⟩

/-- SFE_CTRL_PENDING (R165). -/
def SFE_CTRL_PENDING : Fld :=
  ⟨898, "SFE_CTRL_PENDING", .sfe, 0x000, 0, 1, 2, 1, .ro, false, 0, [], .free⟩

/-- SFE_CTRL_PENDING_BANK (R165). -/
def SFE_CTRL_PENDING_BANK : Fld :=
  ⟨899, "SFE_CTRL_PENDING_BANK", .sfe, 0x000, 0, 1, 3, 1, .ro, false, 0, [], .free⟩

/-- SFE_IMP_EVENTS_CLIPPED (R165). -/
def SFE_IMP_EVENTS_CLIPPED : Fld :=
  ⟨900, "SFE_IMP_EVENTS_CLIPPED", .sfe, 0x008, 0, 1, 0, 16, .ro, false, 0, [], .free⟩

/-- SFE_IMP_EVENTS_STUCK (R165). -/
def SFE_IMP_EVENTS_STUCK : Fld :=
  ⟨901, "SFE_IMP_EVENTS_STUCK", .sfe, 0x008, 0, 1, 16, 16, .ro, false, 0, [], .free⟩

/-- SFE_QUAD_ERRS_COUNT (R165). -/
def SFE_QUAD_ERRS_COUNT : Fld :=
  ⟨902, "SFE_QUAD_ERRS_COUNT", .sfe, 0x00C, 0, 1, 0, 32, .ro, false, 0, [], .free⟩

/-- SFE_QUAD_ZERO_PAIR (R165). -/
def SFE_QUAD_ZERO_PAIR : Fld :=
  ⟨903, "SFE_QUAD_ZERO_PAIR", .sfe, 0x010, 0, 1, 0, 16, .wo, true, 0, [], .free⟩

/-- SFE_SSUP_STAT_FAULT (R165). -/
def SFE_SSUP_STAT_FAULT : Fld :=
  ⟨904, "SFE_SSUP_STAT_FAULT", .sfe, 0x014, 0, 1, 0, 8, .ro, false, 0, [], .free⟩

/-- SFE_SSUP_STAT_LATCHED (R165). -/
def SFE_SSUP_STAT_LATCHED : Fld :=
  ⟨905, "SFE_SSUP_STAT_LATCHED", .sfe, 0x014, 0, 1, 8, 8, .ro, false, 0, [], .free⟩

/-- SFE_SSUP_STAT_TRIPPED (R165). -/
def SFE_SSUP_STAT_TRIPPED : Fld :=
  ⟨906, "SFE_SSUP_STAT_TRIPPED", .sfe, 0x014, 0, 1, 16, 8, .rw1c, false, 0, [], .free⟩

/-- SFE_CAL_CFG_PERIOD_S (R165). -/
def SFE_CAL_CFG_PERIOD_S : Fld :=
  ⟨907, "SFE_CAL_CFG_PERIOD_S", .sfe, 0x018, 0, 1, 0, 8, .rw, false, 10, [], .clamp 1 255⟩

/-- SFE_CAL_STAT_RETIRED (R165). -/
def SFE_CAL_STAT_RETIRED : Fld :=
  ⟨908, "SFE_CAL_STAT_RETIRED", .sfe, 0x01C, 0, 1, 0, 14, .ro, false, 0, [], .free⟩

/-- SFE_CAL_STAT_SWAPS (R165). -/
def SFE_CAL_STAT_SWAPS : Fld :=
  ⟨909, "SFE_CAL_STAT_SWAPS", .sfe, 0x01C, 0, 1, 16, 16, .ro, false, 0, [], .free⟩

/-- SFE_ZT_CFG_EN (R165). -/
def SFE_ZT_CFG_EN : Fld :=
  ⟨910, "SFE_ZT_CFG_EN", .sfe, 0x020, 0, 1, 0, 1, .rwa, false, 0, [], .free⟩

/-- SFE_ZT_CFG_MEASURE (R165). -/
def SFE_ZT_CFG_MEASURE : Fld :=
  ⟨911, "SFE_ZT_CFG_MEASURE", .sfe, 0x020, 0, 1, 4, 4, .rwa, false, 0, [], .free⟩

/-- SFE_ZT_CFG_COND_GIN (R165). -/
def SFE_ZT_CFG_COND_GIN : Fld :=
  ⟨912, "SFE_ZT_CFG_COND_GIN", .sfe, 0x020, 0, 1, 8, 6, .rwa, false, 0, [], .free⟩

/-- SFE_ZT_CFG_COND_LEVEL (R165). -/
def SFE_ZT_CFG_COND_LEVEL : Fld :=
  ⟨913, "SFE_ZT_CFG_COND_LEVEL", .sfe, 0x020, 0, 1, 14, 1, .rwa, false, 1, [], .free⟩

/-- SFE_ZT_TIMES_SETTLE_MS (R165). -/
def SFE_ZT_TIMES_SETTLE_MS : Fld :=
  ⟨914, "SFE_ZT_TIMES_SETTLE_MS", .sfe, 0x024, 0, 1, 0, 16, .rwa, false, 2000, [], .free⟩

/-- SFE_ZT_TIMES_WINDOW_MS (R165). -/
def SFE_ZT_TIMES_WINDOW_MS : Fld :=
  ⟨915, "SFE_ZT_TIMES_WINDOW_MS", .sfe, 0x024, 0, 1, 16, 16, .rwa, false, 5000, [], .clamp 100 65535⟩

/-- SFE_ZT_STEP_ZT_STEP (R165). -/
def SFE_ZT_STEP_ZT_STEP : Fld :=
  ⟨916, "SFE_ZT_STEP_ZT_STEP", .sfe, 0x028, 0, 1, 0, 32, .rwa, false, 0, [], .free⟩

/-- SFE_ZT_STAT_ACCEPTED (R165). -/
def SFE_ZT_STAT_ACCEPTED : Fld :=
  ⟨917, "SFE_ZT_STAT_ACCEPTED", .sfe, 0x02C, 0, 1, 0, 16, .ro, false, 0, [], .free⟩

/-- SFE_ZT_STAT_REJECTED (R165). -/
def SFE_ZT_STAT_REJECTED : Fld :=
  ⟨918, "SFE_ZT_STAT_REJECTED", .sfe, 0x02C, 0, 1, 16, 16, .ro, false, 0, [], .free⟩

/-- SFE_LOST_IMP_LO_LOST (R165). -/
def SFE_LOST_IMP_LO_LOST : Fld :=
  ⟨919, "SFE_LOST_IMP_LO_LOST", .sfe, 0x030, 0, 1, 0, 32, .ro, false, 0, [], .free⟩

/-- SFE_LOST_IMP_HI_LOST (R165). -/
def SFE_LOST_IMP_HI_LOST : Fld :=
  ⟨920, "SFE_LOST_IMP_HI_LOST", .sfe, 0x034, 0, 1, 0, 32, .ro, false, 0, [], .free⟩

/-- SFE_LOST_GIN_LO_LOST (R165). -/
def SFE_LOST_GIN_LO_LOST : Fld :=
  ⟨921, "SFE_LOST_GIN_LO_LOST", .sfe, 0x038, 0, 1, 0, 32, .ro, false, 0, [], .free⟩

/-- SFE_LOST_GIN_HI_LOST (R165). -/
def SFE_LOST_GIN_HI_LOST : Fld :=
  ⟨922, "SFE_LOST_GIN_HI_LOST", .sfe, 0x03C, 0, 1, 0, 32, .ro, false, 0, [], .free⟩

/-- SFE_IMP_CFG_EN (R165). -/
def SFE_IMP_CFG_EN : Fld :=
  ⟨923, "SFE_IMP_CFG_EN", .sfe, 0x100, 4, 48, 0, 1, .rwa, false, 0, [], .free⟩

/-- SFE_IMP_CFG_GAIN (R165). -/
def SFE_IMP_CFG_GAIN : Fld :=
  ⟨924, "SFE_IMP_CFG_GAIN", .sfe, 0x100, 4, 48, 1, 2, .rwa, false, 0, [], .free⟩

/-- SFE_IMP_CFG_PROFILE (R165). -/
def SFE_IMP_CFG_PROFILE : Fld :=
  ⟨925, "SFE_IMP_CFG_PROFILE", .sfe, 0x100, 4, 48, 3, 2, .rwa, false, 0, [], .free⟩

/-- SFE_IMP_CFG_TRIG (R165). -/
def SFE_IMP_CFG_TRIG : Fld :=
  ⟨926, "SFE_IMP_CFG_TRIG", .sfe, 0x100, 4, 48, 8, 12, .rwa, false, 40, [], .free⟩

/-- SFE_IMP_CFG_HOLD_OFF (R165). -/
def SFE_IMP_CFG_HOLD_OFF : Fld :=
  ⟨927, "SFE_IMP_CFG_HOLD_OFF", .sfe, 0x100, 4, 48, 20, 8, .rwa, false, 6, [], .clamp 1 255⟩

/-- SFE_IMP_CFG_SUPPLY (R165). -/
def SFE_IMP_CFG_SUPPLY : Fld :=
  ⟨928, "SFE_IMP_CFG_SUPPLY", .sfe, 0x100, 4, 48, 28, 4, .rwa, false, 0, [], .outside 0 8 0⟩

/-- SFE_FRQ_CFG_EN (R165). -/
def SFE_FRQ_CFG_EN : Fld :=
  ⟨929, "SFE_FRQ_CFG_EN", .sfe, 0x1C0, 4, 32, 0, 1, .rwa, false, 0, [], .free⟩

/-- SFE_FRQ_CFG_MODE (R165). -/
def SFE_FRQ_CFG_MODE : Fld :=
  ⟨930, "SFE_FRQ_CFG_MODE", .sfe, 0x1C0, 4, 32, 1, 1, .rwa, false, 0, [], .free⟩

/-- SFE_FRQ_CFG_QUAD (R165). -/
def SFE_FRQ_CFG_QUAD : Fld :=
  ⟨931, "SFE_FRQ_CFG_QUAD", .sfe, 0x1C0, 4, 32, 2, 1, .rwa, false, 0, [], .free⟩

/-- SFE_FRQ_CFG_THRESH (R165). -/
def SFE_FRQ_CFG_THRESH : Fld :=
  ⟨932, "SFE_FRQ_CFG_THRESH", .sfe, 0x1C0, 4, 32, 4, 4, .rwa, false, 4, [], .free⟩

/-- SFE_FRQ_CFG_MIN_PULSE (R165). -/
def SFE_FRQ_CFG_MIN_PULSE : Fld :=
  ⟨933, "SFE_FRQ_CFG_MIN_PULSE", .sfe, 0x1C0, 4, 32, 8, 8, .rwa, false, 0, [], .free⟩

/-- SFE_FRQ_CFG_TIMEOUT_10MS (R165). -/
def SFE_FRQ_CFG_TIMEOUT_10MS : Fld :=
  ⟨934, "SFE_FRQ_CFG_TIMEOUT_10MS", .sfe, 0x1C0, 4, 32, 16, 12, .rwa, false, 0, [], .free⟩

/-- SFE_FRQ_CFG_SUPPLY (R165). -/
def SFE_FRQ_CFG_SUPPLY : Fld :=
  ⟨935, "SFE_FRQ_CFG_SUPPLY", .sfe, 0x1C0, 4, 32, 28, 4, .rwa, false, 0, [], .outside 0 8 0⟩

/-- SFE_GIN_CFG_MODE (R165). -/
def SFE_GIN_CFG_MODE : Fld :=
  ⟨936, "SFE_GIN_CFG_MODE", .sfe, 0x240, 8, 64, 0, 3, .rwa, false, 0, [], .outside 0 5 0⟩

/-- SFE_GIN_CFG_PULL (R165). -/
def SFE_GIN_CFG_PULL : Fld :=
  ⟨937, "SFE_GIN_CFG_PULL", .sfe, 0x240, 8, 64, 3, 1, .rwa, false, 0, [], .free⟩

/-- SFE_GIN_CFG_SUPPLY (R165). -/
def SFE_GIN_CFG_SUPPLY : Fld :=
  ⟨938, "SFE_GIN_CFG_SUPPLY", .sfe, 0x240, 8, 64, 4, 4, .rwa, false, 0, [], .outside 0 8 0⟩

/-- SFE_GIN_CFG_FILT_MS (R165). -/
def SFE_GIN_CFG_FILT_MS : Fld :=
  ⟨939, "SFE_GIN_CFG_FILT_MS", .sfe, 0x240, 8, 64, 8, 8, .rwa, false, 0, [], .free⟩

/-- SFE_GIN_CFG_DEBOUNCE_MS (R165). -/
def SFE_GIN_CFG_DEBOUNCE_MS : Fld :=
  ⟨940, "SFE_GIN_CFG_DEBOUNCE_MS", .sfe, 0x240, 8, 64, 16, 8, .rwa, false, 5, [], .free⟩

/-- SFE_GIN_CFG_DIG_THRESH (R165). -/
def SFE_GIN_CFG_DIG_THRESH : Fld :=
  ⟨941, "SFE_GIN_CFG_DIG_THRESH", .sfe, 0x240, 8, 64, 24, 7, .rwa, false, 24, [], .clamp 2 120⟩

/-- SFE_GIN_WIN_VALID_LO (R165). -/
def SFE_GIN_WIN_VALID_LO : Fld :=
  ⟨942, "SFE_GIN_WIN_VALID_LO", .sfe, 0x244, 8, 64, 0, 16, .rwa, false, 0, [], .free⟩

/-- SFE_GIN_WIN_VALID_HI (R165). -/
def SFE_GIN_WIN_VALID_HI : Fld :=
  ⟨943, "SFE_GIN_WIN_VALID_HI", .sfe, 0x244, 8, 64, 16, 16, .rwa, false, 65535, [], .free⟩

/-- SFE_LCL_CFG_EN (R165). -/
def SFE_LCL_CFG_EN : Fld :=
  ⟨944, "SFE_LCL_CFG_EN", .sfe, 0x440, 4, 4, 0, 1, .rwa, false, 0, [], .free⟩

/-- SFE_SSUP_CFG_EN (R165). -/
def SFE_SSUP_CFG_EN : Fld :=
  ⟨945, "SFE_SSUP_CFG_EN", .sfe, 0x460, 4, 8, 0, 1, .rw, true, 0, [], .free⟩

/-- SFE_LCL_CFG_RANGE (R165). -/
def SFE_LCL_CFG_RANGE : Fld :=
  ⟨946, "SFE_LCL_CFG_RANGE", .sfe, 0x440, 4, 4, 1, 1, .rwa, false, 0, [], .free⟩

/-- SFE_SSUP_CFG_VOLT (R165). -/
def SFE_SSUP_CFG_VOLT : Fld :=
  ⟨947, "SFE_SSUP_CFG_VOLT", .sfe, 0x460, 4, 8, 1, 2, .rw, false, 0, [], .outside 0 2 0⟩

/-- SFE_RULE_WORD (R165). -/
def SFE_RULE_WORD : Fld :=
  ⟨948, "SFE_RULE_WORD", .sfe, 0x800, 4, 512, 0, 32, .rwa, false, 0, [], .free⟩

/-! Register table of R156. -/

/-- SFE_EST_KIND (R156). -/
def SFE_EST_KIND : Fld :=
  ⟨949, "SFE_EST_KIND", .sfe, 0x500, 32, 16, 0, 3, .rwa, false, 0, [2, 3, 1, 1, 4, 0, 0, 0, 3, 1, 0, 0, 0, 0, 0, 0], .outside 0 4 0⟩

/-- SFE_EST_IN1_CLASS (R156). -/
def SFE_EST_IN1_CLASS : Fld :=
  ⟨950, "SFE_EST_IN1_CLASS", .sfe, 0x500, 32, 16, 4, 3, .rwa, false, 0, [3, 2, 0, 0, 1, 0, 0, 0, 2, 0, 0, 0, 0, 0, 0, 0], .free⟩

/-- SFE_EST_IN1_INDEX (R156). -/
def SFE_EST_IN1_INDEX : Fld :=
  ⟨951, "SFE_EST_IN1_INDEX", .sfe, 0x500, 32, 16, 8, 7, .rwa, false, 0, [0, 0, 0, 0, 1, 0, 0, 0, 2, 0, 0, 0, 0, 0, 0, 0], .free⟩

/-- SFE_EST_IN2_CLASS (R156). -/
def SFE_EST_IN2_CLASS : Fld :=
  ⟨952, "SFE_EST_IN2_CLASS", .sfe, 0x500, 32, 16, 16, 3, .rwa, false, 0, [1, 0, 0, 0, 2, 0, 0, 0, 2, 0, 0, 0, 0, 0, 0, 0], .free⟩

/-- SFE_EST_IN2_INDEX (R156). -/
def SFE_EST_IN2_INDEX : Fld :=
  ⟨953, "SFE_EST_IN2_INDEX", .sfe, 0x500, 32, 16, 24, 7, .rwa, false, 0, [0, 0, 0, 0, 1, 0, 0, 0, 3, 0, 0, 0, 0, 0, 0, 0], .free⟩

/-- SFE_EST_MASK_LO (R156). -/
def SFE_EST_MASK_LO : Fld :=
  ⟨954, "SFE_EST_MASK_LO", .sfe, 0x504, 32, 16, 0, 32, .rwa, false, 0, [0, 0, 65535, 4294901760, 0, 0, 0, 0, 0, 0, 0, 0, 0, 0, 0, 0], .free⟩

/-- SFE_EST_MASK_HI (R156). -/
def SFE_EST_MASK_HI : Fld :=
  ⟨955, "SFE_EST_MASK_HI", .sfe, 0x508, 32, 16, 0, 16, .rwa, false, 0, [0, 0, 0, 0, 0, 0, 0, 0, 0, 65535, 0, 0, 0, 0, 0, 0], .free⟩

/-- SFE_EST_A (R156). -/
def SFE_EST_A : Fld :=
  ⟨956, "SFE_EST_A", .sfe, 0x50C, 32, 16, 0, 32, .rwa, false, 0, [1065353216, 1065353216, 1065353216, 1065353216, 1065353216, 0, 0, 0, 1065353216, 1065353216, 0, 0, 0, 0, 0, 0], .free⟩

/-- SFE_EST_B (R156). -/
def SFE_EST_B : Fld :=
  ⟨957, "SFE_EST_B", .sfe, 0x510, 32, 16, 0, 32, .rwa, false, 0, [0, 0, 0, 0, 0, 0, 0, 0, 0, 0, 0, 0, 0, 0, 0, 0], .free⟩

/-- SFE_EST_C (R156). -/
def SFE_EST_C : Fld :=
  ⟨958, "SFE_EST_C", .sfe, 0x514, 32, 16, 0, 32, .rwa, false, 0, [1045220557, 0, 1056964608, 1056964608, 0, 0, 0, 0, 0, 1056964608, 0, 0, 0, 0, 0, 0], .free⟩

/-- SFE_EST_X2_REF (R156). -/
def SFE_EST_X2_REF : Fld :=
  ⟨959, "SFE_EST_X2_REF", .sfe, 0x518, 32, 16, 0, 32, .rwa, false, 0, [1092616192, 0, 0, 0, 0, 0, 0, 0, 1101004800, 0, 0, 0, 0, 0, 0, 0], .free⟩

/-- SFE_EST_TAU (R156). -/
def SFE_EST_TAU : Fld :=
  ⟨960, "SFE_EST_TAU", .sfe, 0x51C, 32, 16, 0, 32, .rwa, false, 0, [1056964608, 1028443341, 1056964608, 1056964608, 1045220557, 0, 0, 0, 1073741824, 1056964608, 0, 0, 0, 0, 0, 0], .free⟩

/-! Register table of R200. -/

/-- DBK_C7_BNR_BOOST_NOT_READY (R200). -/
def DBK_C7_BNR_BOOST_NOT_READY : Fld :=
  ⟨1024, "DBK_C7_BNR_BOOST_NOT_READY", .dbk, 0x800, 0, 1, 0, 8, .rw1c, false, 0, [], .free⟩

/-- DBK_C7_VBST_VBST_MEAS (R200). -/
def DBK_C7_VBST_VBST_MEAS : Fld :=
  ⟨1025, "DBK_C7_VBST_VBST_MEAS", .dbk, 0x804, 0, 1, 0, 8, .ro, false, 0, [], .free⟩

/-- DBK_C7_VBST_VBST_SET (R200). -/
def DBK_C7_VBST_VBST_SET : Fld :=
  ⟨1026, "DBK_C7_VBST_VBST_SET", .dbk, 0x804, 0, 1, 8, 8, .ro, false, 120, [], .free⟩

/-- DBK_C7_OUT_ON (R200). -/
def DBK_C7_OUT_ON : Fld :=
  ⟨1027, "DBK_C7_OUT_ON", .dbk, 0x808, 0, 1, 0, 8, .ro, false, 0, [], .free⟩

/-- DBK_C7_OUT_FAULT (R200). -/
def DBK_C7_OUT_FAULT : Fld :=
  ⟨1028, "DBK_C7_OUT_FAULT", .dbk, 0x808, 0, 1, 8, 8, .ro, false, 0, [], .free⟩

/-! Register table of R201. -/

/-- DBK_CTRL_ENABLE (R201). -/
def DBK_CTRL_ENABLE : Fld :=
  ⟨1029, "DBK_CTRL_ENABLE", .dbk, 0x000, 0, 1, 0, 1, .rwa, false, 0, [], .free⟩

/-- DBK_CTRL_CHECK (R201). -/
def DBK_CTRL_CHECK : Fld :=
  ⟨1030, "DBK_CTRL_CHECK", .dbk, 0x000, 0, 1, 1, 1, .wo, true, 0, [], .free⟩

/-- DBK_CTRL_ADMITTED (R201). -/
def DBK_CTRL_ADMITTED : Fld :=
  ⟨1031, "DBK_CTRL_ADMITTED", .dbk, 0x000, 0, 1, 2, 1, .ro, false, 0, [], .free⟩

/-- DBK_CTRL_SCG_CUT (R201). -/
def DBK_CTRL_SCG_CUT : Fld :=
  ⟨1032, "DBK_CTRL_SCG_CUT", .dbk, 0x000, 0, 1, 3, 1, .rwa, false, 1, [], .free⟩

/-- DBK_CTRL_FAIL_B (R201). -/
def DBK_CTRL_FAIL_B : Fld :=
  ⟨1033, "DBK_CTRL_FAIL_B", .dbk, 0x000, 0, 1, 8, 3, .ro, false, 0, [], .free⟩

/-- DBK_CTRL_FAIL_H (R201). -/
def DBK_CTRL_FAIL_H : Fld :=
  ⟨1034, "DBK_CTRL_FAIL_H", .dbk, 0x000, 0, 1, 12, 3, .ro, false, 0, [], .free⟩

/-- DBK_BOOST_SET_VBST_CODE (R201). -/
def DBK_BOOST_SET_VBST_CODE : Fld :=
  ⟨1035, "DBK_BOOST_SET_VBST_CODE", .dbk, 0x004, 0, 1, 0, 8, .rw, false, 120, [], .clamp 60 144⟩

/-- DBK_VBST_MEAS (R201). -/
def DBK_VBST_MEAS : Fld :=
  ⟨1036, "DBK_VBST_MEAS", .dbk, 0x008, 0, 1, 0, 10, .ro, false, 0, [], .free⟩

/-- DBK_VBST_READY (R201). -/
def DBK_VBST_READY : Fld :=
  ⟨1037, "DBK_VBST_READY", .dbk, 0x008, 0, 1, 10, 1, .ro, false, 0, [], .free⟩

/-- DBK_STATUS_HSV_CH (R201). -/
def DBK_STATUS_HSV_CH : Fld :=
  ⟨1038, "DBK_STATUS_HSV_CH", .dbk, 0x00C, 0, 1, 0, 3, .ro, false, 0, [], .free⟩

/-- DBK_STATUS_HSV_ON (R201). -/
def DBK_STATUS_HSV_ON : Fld :=
  ⟨1039, "DBK_STATUS_HSV_ON", .dbk, 0x00C, 0, 1, 3, 1, .ro, false, 0, [], .free⟩

/-- DBK_STATUS_HSB_ON (R201). -/
def DBK_STATUS_HSB_ON : Fld :=
  ⟨1040, "DBK_STATUS_HSB_ON", .dbk, 0x00C, 0, 1, 4, 1, .ro, false, 0, [], .free⟩

/-- DBK_STATUS_WAITING (R201). -/
def DBK_STATUS_WAITING : Fld :=
  ⟨1041, "DBK_STATUS_WAITING", .dbk, 0x00C, 0, 1, 8, 8, .ro, false, 0, [], .free⟩

/-- DBK_STATUS_BANK_FAULT (R201). -/
def DBK_STATUS_BANK_FAULT : Fld :=
  ⟨1042, "DBK_STATUS_BANK_FAULT", .dbk, 0x00C, 0, 1, 16, 4, .ro, false, 0, [], .free⟩

/-- DBK_STATUS_LATCHED (R201). -/
def DBK_STATUS_LATCHED : Fld :=
  ⟨1043, "DBK_STATUS_LATCHED", .dbk, 0x00C, 0, 1, 20, 1, .ro, false, 0, [], .free⟩

/-- DBK_DERATE_BOOST_MA (R201). -/
def DBK_DERATE_BOOST_MA : Fld :=
  ⟨1044, "DBK_DERATE_BOOST_MA", .dbk, 0x010, 0, 1, 0, 16, .ro, false, 12000, [], .free⟩

/-- DBK_DERATE_PEAK_MA (R201). -/
def DBK_DERATE_PEAK_MA : Fld :=
  ⟨1045, "DBK_DERATE_PEAK_MA", .dbk, 0x010, 0, 1, 16, 16, .ro, false, 8000, [], .free⟩

/-- DBK_STAGE_MISS_COUNT (R201). -/
def DBK_STAGE_MISS_COUNT : Fld :=
  ⟨1046, "DBK_STAGE_MISS_COUNT", .dbk, 0x014, 0, 1, 0, 16, .ro, false, 0, [], .free⟩

/-- DBK_CH_CFG_MODE (R201). -/
def DBK_CH_CFG_MODE : Fld :=
  ⟨1047, "DBK_CH_CFG_MODE", .dbk, 0x100, 64, 8, 0, 2, .rwa, false, 0, [], .outside 0 2 0⟩

/-- DBK_CH_CFG_OWNER (R201). -/
def DBK_CH_CFG_OWNER : Fld :=
  ⟨1048, "DBK_CH_CFG_OWNER", .dbk, 0x100, 64, 8, 2, 1, .rwa, false, 0, [], .free⟩

/-- DBK_CH_CFG_DECAY (R201). -/
def DBK_CH_CFG_DECAY : Fld :=
  ⟨1049, "DBK_CH_CFG_DECAY", .dbk, 0x100, 64, 8, 3, 1, .rwa, false, 0, [], .free⟩

/-- DBK_CH_CFG_REG (R201). -/
def DBK_CH_CFG_REG : Fld :=
  ⟨1050, "DBK_CH_CFG_REG", .dbk, 0x100, 64, 8, 4, 1, .rwa, false, 0, [], .free⟩

/-- DBK_CH_CFG_REG_KHZ (R201). -/
def DBK_CH_CFG_REG_KHZ : Fld :=
  ⟨1051, "DBK_CH_CFG_REG_KHZ", .dbk, 0x100, 64, 8, 5, 6, .rwa, false, 20, [], .clamp 2 50⟩

/-- DBK_CH_CFG_MOVE_EN (R201). -/
def DBK_CH_CFG_MOVE_EN : Fld :=
  ⟨1052, "DBK_CH_CFG_MOVE_EN", .dbk, 0x100, 64, 8, 11, 1, .rwa, false, 0, [], .free⟩

/-- DBK_CH_CFG_BOOST_WAIT (R201). -/
def DBK_CH_CFG_BOOST_WAIT : Fld :=
  ⟨1053, "DBK_CH_CFG_BOOST_WAIT", .dbk, 0x100, 64, 8, 16, 9, .rwa, false, 0, [], .clamp 0 500⟩

/-- DBK_CH_BOOST_I_BOOST_MA (R201). -/
def DBK_CH_BOOST_I_BOOST_MA : Fld :=
  ⟨1054, "DBK_CH_BOOST_I_BOOST_MA", .dbk, 0x104, 64, 8, 0, 14, .rwa, false, 8000, [], .clamp 0 12000⟩

/-- DBK_CH_BOOST_T_BOOST_US (R201). -/
def DBK_CH_BOOST_T_BOOST_US : Fld :=
  ⟨1055, "DBK_CH_BOOST_T_BOOST_US", .dbk, 0x104, 64, 8, 16, 10, .rwa, false, 200, [], .clamp 1 1000⟩

/-- DBK_CH_PEAK_I_PEAK_MA (R201). -/
def DBK_CH_PEAK_I_PEAK_MA : Fld :=
  ⟨1056, "DBK_CH_PEAK_I_PEAK_MA", .dbk, 0x108, 64, 8, 0, 13, .rwa, false, 4000, [], .clamp 0 8000⟩

/-- DBK_CH_PEAK_T_PEAK_US (R201). -/
def DBK_CH_PEAK_T_PEAK_US : Fld :=
  ⟨1057, "DBK_CH_PEAK_T_PEAK_US", .dbk, 0x108, 64, 8, 16, 16, .rwa, false, 300, [], .free⟩

/-- DBK_CH_HOLD_I_HOLD_MA (R201). -/
def DBK_CH_HOLD_I_HOLD_MA : Fld :=
  ⟨1058, "DBK_CH_HOLD_I_HOLD_MA", .dbk, 0x10C, 64, 8, 0, 12, .rwa, false, 1000, [], .clamp 100 4000⟩

/-- DBK_CH_HOLD_HOLD_FLOOR_MA (R201). -/
def DBK_CH_HOLD_HOLD_FLOOR_MA : Fld :=
  ⟨1059, "DBK_CH_HOLD_HOLD_FLOOR_MA", .dbk, 0x10C, 64, 8, 16, 12, .rwa, false, 0, [], .free⟩

/-- DBK_CH_PROP_DITHER_HZ (R201). -/
def DBK_CH_PROP_DITHER_HZ : Fld :=
  ⟨1060, "DBK_CH_PROP_DITHER_HZ", .dbk, 0x110, 64, 8, 0, 9, .rwa, false, 0, [], .clamp 0 400⟩

/-- DBK_CH_PROP_DITHER_MA (R201). -/
def DBK_CH_PROP_DITHER_MA : Fld :=
  ⟨1061, "DBK_CH_PROP_DITHER_MA", .dbk, 0x110, 64, 8, 10, 10, .rwa, false, 0, [], .clamp 0 500⟩

/-- DBK_CH_PROP_PWM_KHZ (R201). -/
def DBK_CH_PROP_PWM_KHZ : Fld :=
  ⟨1062, "DBK_CH_PROP_PWM_KHZ", .dbk, 0x110, 64, 8, 24, 5, .rwa, false, 4, [], .clamp 1 20⟩

/-- DBK_CH_FLOOR_PROP_REF_MA (R201). -/
def DBK_CH_FLOOR_PROP_REF_MA : Fld :=
  ⟨1063, "DBK_CH_FLOOR_PROP_REF_MA", .dbk, 0x114, 64, 8, 0, 12, .rwa, false, 0, [], .free⟩

/-- DBK_CH_FLOOR_DECAY (R201). -/
def DBK_CH_FLOOR_DECAY : Fld :=
  ⟨1064, "DBK_CH_FLOOR_DECAY", .dbk, 0x114, 64, 8, 16, 16, .rwa, false, 0, [], .free⟩

/-- DBK_CH_MOVE_CFG_BLANK (R201). -/
def DBK_CH_MOVE_CFG_BLANK : Fld :=
  ⟨1065, "DBK_CH_MOVE_CFG_BLANK", .dbk, 0x118, 64, 8, 0, 11, .rwa, false, 40, [], .free⟩

/-- DBK_CH_MOVE_CFG_DIP_MA (R201). -/
def DBK_CH_MOVE_CFG_DIP_MA : Fld :=
  ⟨1066, "DBK_CH_MOVE_CFG_DIP_MA", .dbk, 0x118, 64, 8, 16, 12, .rwa, false, 100, [], .clamp 1 4095⟩

/-- DBK_CH_DIAG_CFG_OPEN_MA (R201). -/
def DBK_CH_DIAG_CFG_OPEN_MA : Fld :=
  ⟨1067, "DBK_CH_DIAG_CFG_OPEN_MA", .dbk, 0x11C, 64, 8, 0, 12, .rwa, false, 50, [], .free⟩

/-- DBK_CH_DIAG_CFG_OFF_DIAG_EN (R201). -/
def DBK_CH_DIAG_CFG_OFF_DIAG_EN : Fld :=
  ⟨1068, "DBK_CH_DIAG_CFG_OFF_DIAG_EN", .dbk, 0x11C, 64, 8, 12, 1, .rwa, false, 1, [], .free⟩

/-- DBK_CH_SHOT_SHOT_US (R201). -/
def DBK_CH_SHOT_SHOT_US : Fld :=
  ⟨1069, "DBK_CH_SHOT_SHOT_US", .dbk, 0x120, 64, 8, 0, 16, .rwa, false, 1000, [], .clamp 1 65535⟩

/-- DBK_CH_SHOT_MIN_GAP_US (R201). -/
def DBK_CH_SHOT_MIN_GAP_US : Fld :=
  ⟨1070, "DBK_CH_SHOT_MIN_GAP_US", .dbk, 0x120, 64, 8, 16, 16, .rwa, false, 500, [], .free⟩

/-- DBK_CH_STAT_PHASE (R201). -/
def DBK_CH_STAT_PHASE : Fld :=
  ⟨1071, "DBK_CH_STAT_PHASE", .dbk, 0x124, 64, 8, 0, 3, .ro, false, 0, [], .free⟩

/-- DBK_CH_STAT_FORCED (R201). -/
def DBK_CH_STAT_FORCED : Fld :=
  ⟨1072, "DBK_CH_STAT_FORCED", .dbk, 0x124, 64, 8, 3, 1, .ro, false, 0, [], .free⟩

/-- DBK_CH_STAT_FAULT (R201). -/
def DBK_CH_STAT_FAULT : Fld :=
  ⟨1073, "DBK_CH_STAT_FAULT", .dbk, 0x124, 64, 8, 4, 4, .ro, false, 0, [], .free⟩

/-- DBK_CH_STAT_LATCHED (R201). -/
def DBK_CH_STAT_LATCHED : Fld :=
  ⟨1074, "DBK_CH_STAT_LATCHED", .dbk, 0x124, 64, 8, 8, 1, .ro, false, 0, [], .free⟩

/-- DBK_CH_STAT_CLAMPED (R201). -/
def DBK_CH_STAT_CLAMPED : Fld :=
  ⟨1075, "DBK_CH_STAT_CLAMPED", .dbk, 0x124, 64, 8, 9, 1, .ro, false, 0, [], .free⟩

/-- DBK_CH_STAT_I_MA (R201). -/
def DBK_CH_STAT_I_MA : Fld :=
  ⟨1076, "DBK_CH_STAT_I_MA", .dbk, 0x124, 64, 8, 16, 14, .ro, false, 0, [], .free⟩

/-- DBK_CH_MOVE_MOVE_TIME (R201). -/
def DBK_CH_MOVE_MOVE_TIME : Fld :=
  ⟨1077, "DBK_CH_MOVE_MOVE_TIME", .dbk, 0x128, 64, 8, 0, 13, .ro, false, 0, [], .free⟩

/-- DBK_CH_MOVE_NO_MOVE (R201). -/
def DBK_CH_MOVE_NO_MOVE : Fld :=
  ⟨1078, "DBK_CH_MOVE_NO_MOVE", .dbk, 0x128, 64, 8, 13, 1, .ro, false, 0, [], .free⟩

/-- DBK_CH_MOVE_VALID (R201). -/
def DBK_CH_MOVE_VALID : Fld :=
  ⟨1079, "DBK_CH_MOVE_VALID", .dbk, 0x128, 64, 8, 14, 1, .ro, false, 0, [], .free⟩

/-- DBK_CH_MOVE_SHOTS (R201). -/
def DBK_CH_MOVE_SHOTS : Fld :=
  ⟨1080, "DBK_CH_MOVE_SHOTS", .dbk, 0x128, 64, 8, 16, 16, .ro, false, 0, [], .free⟩

/-- DBK_CH_LAST_SHIFT (R201). -/
def DBK_CH_LAST_SHIFT : Fld :=
  ⟨1081, "DBK_CH_LAST_SHIFT", .dbk, 0x12C, 64, 8, 0, 10, .ro, false, 0, [], .free⟩

/-- DBK_CH_LAST_VBST_LOW (R201). -/
def DBK_CH_LAST_VBST_LOW : Fld :=
  ⟨1082, "DBK_CH_LAST_VBST_LOW", .dbk, 0x12C, 64, 8, 10, 1, .ro, false, 0, [], .free⟩

/-- DBK_CH_LAST_VBST_AT_START (R201). -/
def DBK_CH_LAST_VBST_AT_START : Fld :=
  ⟨1083, "DBK_CH_LAST_VBST_AT_START", .dbk, 0x12C, 64, 8, 16, 10, .ro, false, 0, [], .free⟩

/-- DBK_CH_COUNTS_FLOOR_HITS (R201). -/
def DBK_CH_COUNTS_FLOOR_HITS : Fld :=
  ⟨1084, "DBK_CH_COUNTS_FLOOR_HITS", .dbk, 0x130, 64, 8, 0, 16, .ro, false, 0, [], .free⟩

/-- DBK_CH_COUNTS_DROPPED (R201). -/
def DBK_CH_COUNTS_DROPPED : Fld :=
  ⟨1085, "DBK_CH_COUNTS_DROPPED", .dbk, 0x130, 64, 8, 16, 16, .ro, false, 0, [], .free⟩

/-- DBK_CH_DECAY_MEAS_DECAY (R201). -/
def DBK_CH_DECAY_MEAS_DECAY : Fld :=
  ⟨1086, "DBK_CH_DECAY_MEAS_DECAY", .dbk, 0x134, 64, 8, 0, 16, .ro, false, 0, [], .free⟩

/-! Register table of R224. -/

/-- SBK_CTRL_ENABLE (R224). -/
def SBK_CTRL_ENABLE : Fld :=
  ⟨1152, "SBK_CTRL_ENABLE", .sbk, 0x000, 0, 1, 0, 1, .rwa, false, 0, [], .free⟩

/-- SBK_STATUS_ON (R224). -/
def SBK_STATUS_ON : Fld :=
  ⟨1153, "SBK_STATUS_ON", .sbk, 0x004, 0, 1, 0, 8, .ro, false, 0, [], .free⟩

/-- SBK_STATUS_LATCHED (R224). -/
def SBK_STATUS_LATCHED : Fld :=
  ⟨1154, "SBK_STATUS_LATCHED", .sbk, 0x004, 0, 1, 8, 8, .ro, false, 0, [], .free⟩

/-- SBK_STATUS_SHED (R224). -/
def SBK_STATUS_SHED : Fld :=
  ⟨1155, "SBK_STATUS_SHED", .sbk, 0x004, 0, 1, 16, 8, .ro, false, 0, [], .free⟩

/-- SBK_STATUS_UV (R224). -/
def SBK_STATUS_UV : Fld :=
  ⟨1156, "SBK_STATUS_UV", .sbk, 0x004, 0, 1, 24, 1, .ro, false, 0, [], .free⟩

/-- SBK_STAGE_MISS_COUNT (R224). -/
def SBK_STAGE_MISS_COUNT : Fld :=
  ⟨1157, "SBK_STAGE_MISS_COUNT", .sbk, 0x008, 0, 1, 0, 16, .ro, false, 0, [], .free⟩

/-- SBK_FEED_UV_UV_CODE (R224). -/
def SBK_FEED_UV_UV_CODE : Fld :=
  ⟨1158, "SBK_FEED_UV_UV_CODE", .sbk, 0x010, 0, 1, 0, 5, .rwa, false, 4, [], .clamp 0 28⟩

/-- SBK_FEED_UV_UV_HYST (R224). -/
def SBK_FEED_UV_UV_HYST : Fld :=
  ⟨1159, "SBK_FEED_UV_UV_HYST", .sbk, 0x010, 0, 1, 5, 3, .rwa, false, 3, [], .free⟩

/-- SBK_FEED_UV_RESTART_10MS (R224). -/
def SBK_FEED_UV_RESTART_10MS : Fld :=
  ⟨1160, "SBK_FEED_UV_RESTART_10MS", .sbk, 0x010, 0, 1, 8, 8, .rwa, false, 10, [], .clamp 1 255⟩

/-- SBK_FEED_LIMIT_LIMIT_A (R224). -/
def SBK_FEED_LIMIT_LIMIT_A : Fld :=
  ⟨1161, "SBK_FEED_LIMIT_LIMIT_A", .sbk, 0x014, 0, 1, 0, 8, .rwa, false, Config.feedRating, [], .clamp 20 Config.feedRating⟩

/-- SBK_FEED_MEAS_V_100MV (R224). -/
def SBK_FEED_MEAS_V_100MV : Fld :=
  ⟨1162, "SBK_FEED_MEAS_V_100MV", .sbk, 0x018, 0, 1, 0, 10, .ro, false, 0, [], .free⟩

/-- SBK_FEED_MEAS_I_A (R224). -/
def SBK_FEED_MEAS_I_A : Fld :=
  ⟨1163, "SBK_FEED_MEAS_I_A", .sbk, 0x018, 0, 1, 16, 9, .ro, false, 0, [], .free⟩

/-- SBK_CH_CFG_MODE (R224). -/
def SBK_CH_CFG_MODE : Fld :=
  ⟨1164, "SBK_CH_CFG_MODE", .sbk, 0x100, 32, 8, 0, 2, .rwa, false, 0, [], .outside 0 1 0⟩

/-- SBK_CH_CFG_OWNER (R224). -/
def SBK_CH_CFG_OWNER : Fld :=
  ⟨1165, "SBK_CH_CFG_OWNER", .sbk, 0x100, 32, 8, 2, 1, .rwa, false, 0, [], .free⟩

/-- SBK_CH_CFG_PAR (R224). -/
def SBK_CH_CFG_PAR : Fld :=
  ⟨1166, "SBK_CH_CFG_PAR", .sbk, 0x100, 32, 8, 3, 1, .rwa, false, 0, [], .free⟩

/-- SBK_CH_CFG_WPROF (R224). -/
def SBK_CH_CFG_WPROF : Fld :=
  ⟨1167, "SBK_CH_CFG_WPROF", .sbk, 0x100, 32, 8, 4, 4, .rwa, false, 4, [], .free⟩

/-- SBK_CH_CFG_FUSE_PCT (R224). -/
def SBK_CH_CFG_FUSE_PCT : Fld :=
  ⟨1168, "SBK_CH_CFG_FUSE_PCT", .sbk, 0x100, 32, 8, 8, 7, .rwa, false, 100, [], .clamp 50 100⟩

/-- SBK_CH_CFG_PWM_HZ (R224). -/
def SBK_CH_CFG_PWM_HZ : Fld :=
  ⟨1169, "SBK_CH_CFG_PWM_HZ", .sbk, 0x100, 32, 8, 16, 11, .rwa, false, 200, [], .clamp 50 2000⟩

/-- SBK_CH_PROT_POLICY (R224). -/
def SBK_CH_PROT_POLICY : Fld :=
  ⟨1170, "SBK_CH_PROT_POLICY", .sbk, 0x104, 32, 8, 0, 1, .rwa, false, 0, [], .free⟩

/-- SBK_CH_PROT_RETRY_MAX (R224). -/
def SBK_CH_PROT_RETRY_MAX : Fld :=
  ⟨1171, "SBK_CH_PROT_RETRY_MAX", .sbk, 0x104, 32, 8, 4, 4, .rwa, false, 3, [], .free⟩

/-- SBK_CH_PROT_RETRY_WINDOW_S (R224). -/
def SBK_CH_PROT_RETRY_WINDOW_S : Fld :=
  ⟨1172, "SBK_CH_PROT_RETRY_WINDOW_S", .sbk, 0x104, 32, 8, 8, 6, .rwa, false, 10, [], .clamp 1 60⟩

/-- SBK_CH_PROT_SHED_RANK (R224). -/
def SBK_CH_PROT_SHED_RANK : Fld :=
  ⟨1173, "SBK_CH_PROT_SHED_RANK", .sbk, 0x104, 32, 8, 16, 4, .rwa, false, 0, [], .free⟩

/-- SBK_CH_OL_OL_MA (R224). -/
def SBK_CH_OL_OL_MA : Fld :=
  ⟨1174, "SBK_CH_OL_OL_MA", .sbk, 0x108, 32, 8, 0, 11, .rwa, false, 100, [], .clamp 20 2000⟩

/-- SBK_CH_OL_OL_EN (R224). -/
def SBK_CH_OL_OL_EN : Fld :=
  ⟨1175, "SBK_CH_OL_OL_EN", .sbk, 0x108, 32, 8, 11, 1, .rwa, false, 1, [], .free⟩

/-- SBK_CH_OL_OL_DEBOUNCE_MS (R224). -/
def SBK_CH_OL_OL_DEBOUNCE_MS : Fld :=
  ⟨1176, "SBK_CH_OL_OL_DEBOUNCE_MS", .sbk, 0x108, 32, 8, 16, 8, .rwa, false, 50, [], .clamp 1 255⟩

/-- SBK_CH_STAT_STATE (R224). -/
def SBK_CH_STAT_STATE : Fld :=
  ⟨1177, "SBK_CH_STAT_STATE", .sbk, 0x10C, 32, 8, 0, 2, .ro, false, 0, [], .free⟩

/-- SBK_CH_STAT_TRIPPED (R224). -/
def SBK_CH_STAT_TRIPPED : Fld :=
  ⟨1178, "SBK_CH_STAT_TRIPPED", .sbk, 0x10C, 32, 8, 2, 1, .ro, false, 0, [], .free⟩

/-- SBK_CH_STAT_THERM_LATCH (R224). -/
def SBK_CH_STAT_THERM_LATCH : Fld :=
  ⟨1179, "SBK_CH_STAT_THERM_LATCH", .sbk, 0x10C, 32, 8, 3, 1, .ro, false, 0, [], .free⟩

/-- SBK_CH_STAT_LOCKED (R224). -/
def SBK_CH_STAT_LOCKED : Fld :=
  ⟨1180, "SBK_CH_STAT_LOCKED", .sbk, 0x10C, 32, 8, 4, 1, .ro, false, 0, [], .free⟩

/-- SBK_CH_STAT_UV_OFF (R224). -/
def SBK_CH_STAT_UV_OFF : Fld :=
  ⟨1181, "SBK_CH_STAT_UV_OFF", .sbk, 0x10C, 32, 8, 5, 1, .ro, false, 0, [], .free⟩

/-- SBK_CH_STAT_SHED (R224). -/
def SBK_CH_STAT_SHED : Fld :=
  ⟨1182, "SBK_CH_STAT_SHED", .sbk, 0x10C, 32, 8, 6, 1, .ro, false, 0, [], .free⟩

/-- SBK_CH_STAT_OPEN_LOAD (R224). -/
def SBK_CH_STAT_OPEN_LOAD : Fld :=
  ⟨1183, "SBK_CH_STAT_OPEN_LOAD", .sbk, 0x10C, 32, 8, 7, 1, .ro, false, 0, [], .free⟩

/-- SBK_CH_STAT_IN_LIMIT (R224). -/
def SBK_CH_STAT_IN_LIMIT : Fld :=
  ⟨1184, "SBK_CH_STAT_IN_LIMIT", .sbk, 0x10C, 32, 8, 8, 1, .ro, false, 0, [], .free⟩

/-- SBK_CH_STAT_TRIP_CAUSE (R224). -/
def SBK_CH_STAT_TRIP_CAUSE : Fld :=
  ⟨1185, "SBK_CH_STAT_TRIP_CAUSE", .sbk, 0x10C, 32, 8, 9, 2, .ro, false, 0, [], .free⟩

/-- SBK_CH_STAT_RETRIES_USED (R224). -/
def SBK_CH_STAT_RETRIES_USED : Fld :=
  ⟨1186, "SBK_CH_STAT_RETRIES_USED", .sbk, 0x10C, 32, 8, 12, 4, .ro, false, 0, [], .free⟩

/-- SBK_CH_STAT_I_10MA (R224). -/
def SBK_CH_STAT_I_10MA : Fld :=
  ⟨1187, "SBK_CH_STAT_I_10MA", .sbk, 0x10C, 32, 8, 16, 16, .ro, false, 0, [], .free⟩

/-- SBK_CH_MODEL_THETA (R224). -/
def SBK_CH_MODEL_THETA : Fld :=
  ⟨1188, "SBK_CH_MODEL_THETA", .sbk, 0x110, 32, 8, 0, 16, .ro, false, 0, [], .free⟩

/-- SBK_CH_MODEL_TJ (R224). -/
def SBK_CH_MODEL_TJ : Fld :=
  ⟨1189, "SBK_CH_MODEL_TJ", .sbk, 0x110, 32, 8, 16, 8, .ro, false, 0, [], .free⟩

/-- SBK_CH_COUNTS_TRIPS (R224). -/
def SBK_CH_COUNTS_TRIPS : Fld :=
  ⟨1190, "SBK_CH_COUNTS_TRIPS", .sbk, 0x114, 32, 8, 0, 8, .ro, false, 0, [], .free⟩

/-- SBK_CH_COUNTS_THERM_LATCHES (R224). -/
def SBK_CH_COUNTS_THERM_LATCHES : Fld :=
  ⟨1191, "SBK_CH_COUNTS_THERM_LATCHES", .sbk, 0x114, 32, 8, 8, 8, .ro, false, 0, [], .free⟩

/-- SBK_CH_COUNTS_RESTARTS (R224). -/
def SBK_CH_COUNTS_RESTARTS : Fld :=
  ⟨1192, "SBK_CH_COUNTS_RESTARTS", .sbk, 0x114, 32, 8, 16, 8, .ro, false, 0, [], .free⟩

/-- SBK_CH_COUNTS_OPEN_LOADS (R224). -/
def SBK_CH_COUNTS_OPEN_LOADS : Fld :=
  ⟨1193, "SBK_CH_COUNTS_OPEN_LOADS", .sbk, 0x114, 32, 8, 24, 8, .ro, false, 0, [], .free⟩

/-! Register table of R256. -/

/-- PPS_CTRL_ARM (R256). -/
def PPS_CTRL_ARM : Fld :=
  ⟨1280, "PPS_CTRL_ARM", .pps, 0x000, 0, 1, 0, 1, .rw, true, 0, [], .free⟩

/-- PPS_CTRL_ARMED (R256). -/
def PPS_CTRL_ARMED : Fld :=
  ⟨1281, "PPS_CTRL_ARMED", .pps, 0x000, 0, 1, 1, 1, .ro, false, 0, [], .free⟩

/-- PPS_CTRL_SAFE_NOW (R256). -/
def PPS_CTRL_SAFE_NOW : Fld :=
  ⟨1282, "PPS_CTRL_SAFE_NOW", .pps, 0x000, 0, 1, 2, 1, .wo, true, 0, [], .free⟩

/-- PPS_CTRL_CLEAR_BID (R256). -/
def PPS_CTRL_CLEAR_BID : Fld :=
  ⟨1283, "PPS_CTRL_CLEAR_BID", .pps, 0x000, 0, 1, 3, 1, .wo, true, 0, [], .free⟩

/-- PPS_CTRL_ARM_ERR (R256). -/
def PPS_CTRL_ARM_ERR : Fld :=
  ⟨1284, "PPS_CTRL_ARM_ERR", .pps, 0x000, 0, 1, 4, 4, .ro, false, 0, [], .free⟩

/-- PPS_STATUS_HOLDING (R256). -/
def PPS_STATUS_HOLDING : Fld :=
  ⟨1285, "PPS_STATUS_HOLDING", .pps, 0x004, 0, 1, 0, 1, .ro, false, 0, [], .free⟩

/-- PPS_STATUS_SAFE_ACTIVE (R256). -/
def PPS_STATUS_SAFE_ACTIVE : Fld :=
  ⟨1286, "PPS_STATUS_SAFE_ACTIVE", .pps, 0x004, 0, 1, 1, 1, .ro, false, 0, [], .free⟩

/-- PPS_STATUS_SOURCE (R256). -/
def PPS_STATUS_SOURCE : Fld :=
  ⟨1287, "PPS_STATUS_SOURCE", .pps, 0x004, 0, 1, 2, 1, .ro, false, 0, [], .free⟩

/-- PPS_STATUS_TICK_US (R256). -/
def PPS_STATUS_TICK_US : Fld :=
  ⟨1288, "PPS_STATUS_TICK_US", .pps, 0x004, 0, 1, 16, 15, .ro, false, 0, [], .free⟩

/-- PPS_HIGHEST_BID (R256). -/
def PPS_HIGHEST_BID : Fld :=
  ⟨1289, "PPS_HIGHEST_BID", .pps, 0x008, 0, 1, 0, 32, .ro, false, 0, [], .free⟩

/-- PPS_LAST_ROW_LO_ROW (R256). -/
def PPS_LAST_ROW_LO_ROW : Fld :=
  ⟨1290, "PPS_LAST_ROW_LO_ROW", .pps, 0x00C, 0, 1, 0, 32, .ro, false, 0, [], .free⟩

/-- PPS_LAST_ROW_HI_ROW (R256). -/
def PPS_LAST_ROW_HI_ROW : Fld :=
  ⟨1291, "PPS_LAST_ROW_HI_ROW", .pps, 0x010, 0, 1, 0, 32, .ro, false, 0, [], .free⟩

/-- PPS_FENCES_OWN (R256). -/
def PPS_FENCES_OWN : Fld :=
  ⟨1292, "PPS_FENCES_OWN", .pps, 0x014, 0, 1, 0, 16, .ro, false, 0, [], .free⟩

/-- PPS_FENCES_PARTNER (R256). -/
def PPS_FENCES_PARTNER : Fld :=
  ⟨1293, "PPS_FENCES_PARTNER", .pps, 0x014, 0, 1, 16, 16, .ro, false, 0, [], .free⟩

/-- PPS_HOLD_EVENTS_HOLD_EXPIRIES (R256). -/
def PPS_HOLD_EVENTS_HOLD_EXPIRIES : Fld :=
  ⟨1294, "PPS_HOLD_EVENTS_HOLD_EXPIRIES", .pps, 0x018, 0, 1, 0, 16, .ro, false, 0, [], .free⟩

/-- PPS_HOLD_EVENTS_HOLD_RESUMES (R256). -/
def PPS_HOLD_EVENTS_HOLD_RESUMES : Fld :=
  ⟨1295, "PPS_HOLD_EVENTS_HOLD_RESUMES", .pps, 0x018, 0, 1, 16, 16, .ro, false, 0, [], .free⟩

/-- PPS_DRV_HOLD_ROWS (R256). -/
def PPS_DRV_HOLD_ROWS : Fld :=
  ⟨1296, "PPS_DRV_HOLD_ROWS", .pps, 0x100, 4, 48, 0, 13, .rwa, false, 3, [], .clamp 1 8000⟩

/-- PPS_SW_HOLD_ROWS (R256). -/
def PPS_SW_HOLD_ROWS : Fld :=
  ⟨1297, "PPS_SW_HOLD_ROWS", .pps, 0x200, 4, 48, 0, 13, .rwa, false, 3, [], .clamp 1 8000⟩

/-- PPS_DRV_SAFE (R256). -/
def PPS_DRV_SAFE : Fld :=
  ⟨1298, "PPS_DRV_SAFE", .pps, 0x100, 4, 48, 13, 2, .rwa, false, 0, [], .outside 0 2 0⟩

/-- PPS_SW_SAFE (R256). -/
def PPS_SW_SAFE : Fld :=
  ⟨1299, "PPS_SW_SAFE", .pps, 0x200, 4, 48, 13, 2, .rwa, false, 0, [], .outside 0 2 0⟩

/-- PPS_DRV_SAFE_VALUE (R256). -/
def PPS_DRV_SAFE_VALUE : Fld :=
  ⟨1300, "PPS_DRV_SAFE_VALUE", .pps, 0x100, 4, 48, 16, 12, .rwa, false, 0, [], .free⟩

/-- PPS_SW_SAFE_VALUE (R256). -/
def PPS_SW_SAFE_VALUE : Fld :=
  ⟨1301, "PPS_SW_SAFE_VALUE", .pps, 0x200, 4, 48, 16, 12, .rwa, false, 0, [], .free⟩

/-! Register table of R255. -/

/-- XLK_PAIR_CFG_PAIR_EN (R255). -/
def XLK_PAIR_CFG_PAIR_EN : Fld :=
  ⟨1408, "XLK_PAIR_CFG_PAIR_EN", .xlk, 0x000, 0, 1, 0, 1, .rwa, false, 0, [], .free⟩

/-- XLK_PAIR_CFG_SIDE (R255). -/
def XLK_PAIR_CFG_SIDE : Fld :=
  ⟨1409, "XLK_PAIR_CFG_SIDE", .xlk, 0x000, 0, 1, 1, 1, .rwa, false, 0, [], .free⟩

/-- XLK_PAIR_CFG_ALONE_OK (R255). -/
def XLK_PAIR_CFG_ALONE_OK : Fld :=
  ⟨1410, "XLK_PAIR_CFG_ALONE_OK", .xlk, 0x000, 0, 1, 2, 1, .rwa, false, 0, [], .free⟩

/-- XLK_PAIR_CFG_PRIORITY (R255). -/
def XLK_PAIR_CFG_PRIORITY : Fld :=
  ⟨1411, "XLK_PAIR_CFG_PRIORITY", .xlk, 0x000, 0, 1, 4, 7, .rwa, false, 0, [], .free⟩

/-- XLK_PAIR_CFG_HB_MISS (R255). -/
def XLK_PAIR_CFG_HB_MISS : Fld :=
  ⟨1412, "XLK_PAIR_CFG_HB_MISS", .xlk, 0x000, 0, 1, 16, 4, .rwa, false, 3, [], .clamp 2 15⟩

/-- XLK_RESYNC_ROWS_ROWS (R255). -/
def XLK_RESYNC_ROWS_ROWS : Fld :=
  ⟨1413, "XLK_RESYNC_ROWS_ROWS", .xlk, 0x004, 0, 1, 0, 16, .rwa, false, 1000, [], .clamp 100 65535⟩

/-- XLK_PAIR_ID_PAIR_ID (R255). -/
def XLK_PAIR_ID_PAIR_ID : Fld :=
  ⟨1414, "XLK_PAIR_ID_PAIR_ID", .xlk, 0x008, 0, 1, 0, 32, .rwa, false, 0, [], .free⟩

/-- XLK_ROLE_ROLE (R255). -/
def XLK_ROLE_ROLE : Fld :=
  ⟨1415, "XLK_ROLE_ROLE", .xlk, 0x00C, 0, 1, 0, 3, .ro, false, 0, [], .free⟩

/-- XLK_ROLE_PARTNER_LOST (R255). -/
def XLK_ROLE_PARTNER_LOST : Fld :=
  ⟨1416, "XLK_ROLE_PARTNER_LOST", .xlk, 0x00C, 0, 1, 3, 1, .ro, false, 0, [], .free⟩

/-- XLK_ROLE_LINK_UP (R255). -/
def XLK_ROLE_LINK_UP : Fld :=
  ⟨1417, "XLK_ROLE_LINK_UP", .xlk, 0x00C, 0, 1, 4, 1, .ro, false, 0, [], .free⟩

/-- XLK_ROLE_MISSED (R255). -/
def XLK_ROLE_MISSED : Fld :=
  ⟨1418, "XLK_ROLE_MISSED", .xlk, 0x00C, 0, 1, 8, 4, .ro, false, 0, [], .free⟩

/-- XLK_ROLE_MATCH_ROWS (R255). -/
def XLK_ROLE_MATCH_ROWS : Fld :=
  ⟨1419, "XLK_ROLE_MATCH_ROWS", .xlk, 0x00C, 0, 1, 16, 16, .ro, false, 0, [], .free⟩

/-- XLK_BID_BID (R255). -/
def XLK_BID_BID : Fld :=
  ⟨1420, "XLK_BID_BID", .xlk, 0x010, 0, 1, 0, 32, .ro, false, 0, [], .free⟩

/-- XLK_COUNTS_MISMATCHES (R255). -/
def XLK_COUNTS_MISMATCHES : Fld :=
  ⟨1421, "XLK_COUNTS_MISMATCHES", .xlk, 0x014, 0, 1, 0, 16, .ro, false, 0, [], .free⟩

/-- XLK_COUNTS_TAKEOVERS (R255). -/
def XLK_COUNTS_TAKEOVERS : Fld :=
  ⟨1422, "XLK_COUNTS_TAKEOVERS", .xlk, 0x014, 0, 1, 16, 8, .ro, false, 0, [], .free⟩

/-- XLK_COUNTS_FENCED_OUT (R255). -/
def XLK_COUNTS_FENCED_OUT : Fld :=
  ⟨1423, "XLK_COUNTS_FENCED_OUT", .xlk, 0x014, 0, 1, 24, 8, .ro, false, 0, [], .free⟩

/-- XLK_BAD_FRAMES_COUNT (R255). -/
def XLK_BAD_FRAMES_COUNT : Fld :=
  ⟨1424, "XLK_BAD_FRAMES_COUNT", .xlk, 0x018, 0, 1, 0, 32, .ro, false, 0, [], .free⟩

/-- XLK_PEER_HEALTH_WORD (R255). -/
def XLK_PEER_HEALTH_WORD : Fld :=
  ⟨1425, "XLK_PEER_HEALTH_WORD", .xlk, 0x040, 4, 16, 0, 32, .ro, false, 0, [], .free⟩

/-! Register table of R281. -/

/-- NAV_CTRL_EN (R281). -/
def NAV_CTRL_EN : Fld :=
  ⟨1536, "NAV_CTRL_EN", .nav, 0x000, 0, 1, 0, 1, .rw, false, 1, [], .free⟩

/-- NAV_CTRL_ANT_B_EN (R281). -/
def NAV_CTRL_ANT_B_EN : Fld :=
  ⟨1537, "NAV_CTRL_ANT_B_EN", .nav, 0x000, 0, 1, 1, 1, .rw, false, 1, [], .free⟩

/-- NAV_CTRL_HEADING_EN (R281). -/
def NAV_CTRL_HEADING_EN : Fld :=
  ⟨1538, "NAV_CTRL_HEADING_EN", .nav, 0x000, 0, 1, 2, 1, .rw, false, 0, [], .free⟩

/-- NAV_CTRL_RTK_EN (R281). -/
def NAV_CTRL_RTK_EN : Fld :=
  ⟨1539, "NAV_CTRL_RTK_EN", .nav, 0x000, 0, 1, 3, 1, .rw, false, 0, [], .free⟩

/-- NAV_CTRL_SBAS_EN (R281). -/
def NAV_CTRL_SBAS_EN : Fld :=
  ⟨1540, "NAV_CTRL_SBAS_EN", .nav, 0x000, 0, 1, 4, 1, .rw, false, 1, [], .free⟩

/-- NAV_CTRL_IMU_EN (R281). -/
def NAV_CTRL_IMU_EN : Fld :=
  ⟨1541, "NAV_CTRL_IMU_EN", .nav, 0x000, 0, 1, 5, 1, .rw, false, 1, [], .free⟩

/-- NAV_CTRL_ACQ_MODE (R281). -/
def NAV_CTRL_ACQ_MODE : Fld :=
  ⟨1542, "NAV_CTRL_ACQ_MODE", .nav, 0x000, 0, 1, 6, 1, .rw, false, 0, [], .free⟩

/-- NAV_CTRL_PULSE_KEEP (R281). -/
def NAV_CTRL_PULSE_KEEP : Fld :=
  ⟨1543, "NAV_CTRL_PULSE_KEEP", .nav, 0x000, 0, 1, 7, 1, .rw, false, 0, [], .free⟩

/-- NAV_CTRL_TP_PP_EN (R281). -/
def NAV_CTRL_TP_PP_EN : Fld :=
  ⟨1544, "NAV_CTRL_TP_PP_EN", .nav, 0x000, 0, 1, 8, 1, .rw, false, 0, [], .free⟩

/-- NAV_CTRL_TP_422_EN (R281). -/
def NAV_CTRL_TP_422_EN : Fld :=
  ⟨1545, "NAV_CTRL_TP_422_EN", .nav, 0x000, 0, 1, 9, 1, .rw, false, 0, [], .free⟩

/-- NAV_CTRL_TP_POL (R281). -/
def NAV_CTRL_TP_POL : Fld :=
  ⟨1546, "NAV_CTRL_TP_POL", .nav, 0x000, 0, 1, 10, 1, .rw, false, 0, [], .free⟩

/-- NAV_SIG_EN_SIG (R281). -/
def NAV_SIG_EN_SIG : Fld :=
  ⟨1547, "NAV_SIG_EN_SIG", .nav, 0x004, 0, 1, 0, 18, .rw, false, 262143, [], .free⟩

/-- NAV_STATE_TIME_STATE (R281). -/
def NAV_STATE_TIME_STATE : Fld :=
  ⟨1548, "NAV_STATE_TIME_STATE", .nav, 0x008, 0, 1, 0, 2, .ro, false, 0, [], .free⟩

/-- NAV_STATE_FIX (R281). -/
def NAV_STATE_FIX : Fld :=
  ⟨1549, "NAV_STATE_FIX", .nav, 0x008, 0, 1, 2, 3, .ro, false, 0, [], .free⟩

/-- NAV_STATE_HEADING_VALID (R281). -/
def NAV_STATE_HEADING_VALID : Fld :=
  ⟨1550, "NAV_STATE_HEADING_VALID", .nav, 0x008, 0, 1, 5, 1, .ro, false, 0, [], .free⟩

/-- NAV_STATE_START_KIND (R281). -/
def NAV_STATE_START_KIND : Fld :=
  ⟨1551, "NAV_STATE_START_KIND", .nav, 0x008, 0, 1, 6, 2, .ro, false, 0, [], .free⟩

/-- NAV_STATE_SATS (R281). -/
def NAV_STATE_SATS : Fld :=
  ⟨1552, "NAV_STATE_SATS", .nav, 0x008, 0, 1, 8, 8, .ro, false, 0, [], .free⟩

/-- NAV_STATE_TRK_A (R281). -/
def NAV_STATE_TRK_A : Fld :=
  ⟨1553, "NAV_STATE_TRK_A", .nav, 0x008, 0, 1, 16, 8, .ro, false, 0, [], .free⟩

/-- NAV_STATE_TRK_B (R281). -/
def NAV_STATE_TRK_B : Fld :=
  ⟨1554, "NAV_STATE_TRK_B", .nav, 0x008, 0, 1, 24, 8, .ro, false, 0, [], .free⟩

/-- NAV_TIME_UNC_NS (R281). -/
def NAV_TIME_UNC_NS : Fld :=
  ⟨1555, "NAV_TIME_UNC_NS", .nav, 0x00C, 0, 1, 0, 32, .ro, false, 4294967295, [], .free⟩

/-- NAV_TIME_ERR_NS (R281). -/
def NAV_TIME_ERR_NS : Fld :=
  ⟨1556, "NAV_TIME_ERR_NS", .nav, 0x010, 0, 1, 0, 32, .ro, false, 0, [], .free⟩

/-- NAV_HO_LIMITS_HOLDOVER_LIMIT (R281). -/
def NAV_HO_LIMITS_HOLDOVER_LIMIT : Fld :=
  ⟨1557, "NAV_HO_LIMITS_HOLDOVER_LIMIT", .nav, 0x014, 0, 1, 0, 16, .rw, false, 1000, [], .clamp 1 65535⟩

/-- NAV_HO_LIMITS_SLEW_LIMIT (R281). -/
def NAV_HO_LIMITS_SLEW_LIMIT : Fld :=
  ⟨1558, "NAV_HO_LIMITS_SLEW_LIMIT", .nav, 0x014, 0, 1, 16, 16, .rw, false, 1000, [], .free⟩

/-- NAV_TP_CFG_TP_PERIOD (R281). -/
def NAV_TP_CFG_TP_PERIOD : Fld :=
  ⟨1559, "NAV_TP_CFG_TP_PERIOD", .nav, 0x018, 0, 1, 0, 7, .rw, false, 10, [], .clamp 1 100⟩

/-- NAV_TP_WIDTH_TP_WIDTH (R281). -/
def NAV_TP_WIDTH_TP_WIDTH : Fld :=
  ⟨1560, "NAV_TP_WIDTH_TP_WIDTH", .nav, 0x01C, 0, 1, 0, 19, .rw, false, 100000, [], .clamp 1 500000⟩

/-- NAV_CABLE_A_DELAY (R281). -/
def NAV_CABLE_A_DELAY : Fld :=
  ⟨1561, "NAV_CABLE_A_DELAY", .nav, 0x020, 0, 1, 0, 15, .rw, false, 0, [], .clamp 0 20000⟩

/-- NAV_CABLE_B_DELAY (R281). -/
def NAV_CABLE_B_DELAY : Fld :=
  ⟨1562, "NAV_CABLE_B_DELAY", .nav, 0x024, 0, 1, 0, 15, .rw, false, 0, [], .clamp 0 20000⟩

/-- NAV_TP_NEXT_LO_TIME (R281). -/
def NAV_TP_NEXT_LO_TIME : Fld :=
  ⟨1563, "NAV_TP_NEXT_LO_TIME", .nav, 0x028, 0, 1, 0, 32, .ro, false, 0, [], .free⟩

/-- NAV_TP_LAST_LO_TIME (R281). -/
def NAV_TP_LAST_LO_TIME : Fld :=
  ⟨1564, "NAV_TP_LAST_LO_TIME", .nav, 0x030, 0, 1, 0, 32, .ro, false, 0, [], .free⟩

/-- NAV_TP_NEXT_HI_TIME (R281). -/
def NAV_TP_NEXT_HI_TIME : Fld :=
  ⟨1565, "NAV_TP_NEXT_HI_TIME", .nav, 0x02C, 0, 1, 0, 32, .ro, false, 0, [], .free⟩

/-- NAV_TP_LAST_HI_TIME (R281). -/
def NAV_TP_LAST_HI_TIME : Fld :=
  ⟨1566, "NAV_TP_LAST_HI_TIME", .nav, 0x034, 0, 1, 0, 32, .ro, false, 0, [], .free⟩

/-- NAV_TP_STAT_SEQ (R281). -/
def NAV_TP_STAT_SEQ : Fld :=
  ⟨1567, "NAV_TP_STAT_SEQ", .nav, 0x038, 0, 1, 0, 16, .ro, false, 0, [], .free⟩

/-- NAV_TP_STAT_EMITTED (R281). -/
def NAV_TP_STAT_EMITTED : Fld :=
  ⟨1568, "NAV_TP_STAT_EMITTED", .nav, 0x038, 0, 1, 16, 1, .ro, false, 0, [], .free⟩

/-- NAV_TP_STAT_STEP (R281). -/
def NAV_TP_STAT_STEP : Fld :=
  ⟨1569, "NAV_TP_STAT_STEP", .nav, 0x038, 0, 1, 17, 1, .ro, false, 0, [], .free⟩

/-- NAV_TP_STAT_HOLDOVER (R281). -/
def NAV_TP_STAT_HOLDOVER : Fld :=
  ⟨1570, "NAV_TP_STAT_HOLDOVER", .nav, 0x038, 0, 1, 18, 1, .ro, false, 0, [], .free⟩

/-- NAV_TP_STAT_SLEWING (R281). -/
def NAV_TP_STAT_SLEWING : Fld :=
  ⟨1571, "NAV_TP_STAT_SLEWING", .nav, 0x038, 0, 1, 19, 1, .ro, false, 0, [], .free⟩

/-- NAV_TP_STAT_STEP_COUNT (R281). -/
def NAV_TP_STAT_STEP_COUNT : Fld :=
  ⟨1572, "NAV_TP_STAT_STEP_COUNT", .nav, 0x038, 0, 1, 24, 8, .ro, false, 0, [], .free⟩

/-- NAV_RTK_CFG_CORR_MAX_AGE_S (R281). -/
def NAV_RTK_CFG_CORR_MAX_AGE_S : Fld :=
  ⟨1573, "NAV_RTK_CFG_CORR_MAX_AGE_S", .nav, 0x03C, 0, 1, 0, 6, .rw, false, 10, [], .clamp 1 60⟩

/-- NAV_RTK_CFG_ELEV_MASK (R281). -/
def NAV_RTK_CFG_ELEV_MASK : Fld :=
  ⟨1574, "NAV_RTK_CFG_ELEV_MASK", .nav, 0x03C, 0, 1, 8, 7, .rw, false, 10, [], .free⟩

/-- NAV_RTK_CFG_SOL_HZ (R281). -/
def NAV_RTK_CFG_SOL_HZ : Fld :=
  ⟨1575, "NAV_RTK_CFG_SOL_HZ", .nav, 0x03C, 0, 1, 16, 8, .rw, false, 10, [], .free⟩

/-- NAV_RTK_CFG_DR_MAX_S (R281). -/
def NAV_RTK_CFG_DR_MAX_S : Fld :=
  ⟨1576, "NAV_RTK_CFG_DR_MAX_S", .nav, 0x03C, 0, 1, 24, 8, .rw, false, 10, [], .free⟩

/-- NAV_BASELINE_BASELINE_MM (R281). -/
def NAV_BASELINE_BASELINE_MM : Fld :=
  ⟨1577, "NAV_BASELINE_BASELINE_MM", .nav, 0x040, 0, 1, 0, 13, .rw, false, 1000, [], .clamp 500 5000⟩

/-- NAV_BASELINE_BASE_TOL_MM (R281). -/
def NAV_BASELINE_BASE_TOL_MM : Fld :=
  ⟨1578, "NAV_BASELINE_BASE_TOL_MM", .nav, 0x040, 0, 1, 16, 8, .rw, false, 20, [], .free⟩

/-- NAV_MOUNT_RP_MOUNT_ROLL (R281). -/
def NAV_MOUNT_RP_MOUNT_ROLL : Fld :=
  ⟨1579, "NAV_MOUNT_RP_MOUNT_ROLL", .nav, 0x044, 0, 1, 0, 16, .rw, false, 0, [], .free⟩

/-- NAV_MOUNT_RP_MOUNT_PITCH (R281). -/
def NAV_MOUNT_RP_MOUNT_PITCH : Fld :=
  ⟨1580, "NAV_MOUNT_RP_MOUNT_PITCH", .nav, 0x044, 0, 1, 16, 16, .rw, false, 0, [], .free⟩

/-- NAV_MOUNT_Y_MOUNT_YAW (R281). -/
def NAV_MOUNT_Y_MOUNT_YAW : Fld :=
  ⟨1581, "NAV_MOUNT_Y_MOUNT_YAW", .nav, 0x048, 0, 1, 0, 16, .rw, false, 0, [], .free⟩

/-- NAV_ANT_ANT_VOLT_A (R281). -/
def NAV_ANT_ANT_VOLT_A : Fld :=
  ⟨1582, "NAV_ANT_ANT_VOLT_A", .nav, 0x04C, 0, 1, 0, 1, .rw, false, 1, [], .free⟩

/-- NAV_ANT_OPEN_A (R281). -/
def NAV_ANT_OPEN_A : Fld :=
  ⟨1583, "NAV_ANT_OPEN_A", .nav, 0x04C, 0, 1, 1, 1, .ro, false, 0, [], .free⟩

/-- NAV_ANT_SHORT_A (R281). -/
def NAV_ANT_SHORT_A : Fld :=
  ⟨1584, "NAV_ANT_SHORT_A", .nav, 0x04C, 0, 1, 2, 1, .ro, false, 0, [], .free⟩

/-- NAV_ANT_TIME_ANT_B (R281). -/
def NAV_ANT_TIME_ANT_B : Fld :=
  ⟨1585, "NAV_ANT_TIME_ANT_B", .nav, 0x04C, 0, 1, 3, 1, .ro, false, 0, [], .free⟩

/-- NAV_ANT_ANT_VOLT_B (R281). -/
def NAV_ANT_ANT_VOLT_B : Fld :=
  ⟨1586, "NAV_ANT_ANT_VOLT_B", .nav, 0x04C, 0, 1, 8, 1, .rw, false, 1, [], .free⟩

/-- NAV_ANT_OPEN_B (R281). -/
def NAV_ANT_OPEN_B : Fld :=
  ⟨1587, "NAV_ANT_OPEN_B", .nav, 0x04C, 0, 1, 9, 1, .ro, false, 0, [], .free⟩

/-- NAV_ANT_SHORT_B (R281). -/
def NAV_ANT_SHORT_B : Fld :=
  ⟨1588, "NAV_ANT_SHORT_B", .nav, 0x04C, 0, 1, 10, 1, .ro, false, 0, [], .free⟩

/-- NAV_LEAP_LEAP_S (R281). -/
def NAV_LEAP_LEAP_S : Fld :=
  ⟨1589, "NAV_LEAP_LEAP_S", .nav, 0x050, 0, 1, 0, 8, .ro, false, 0, [], .free⟩

/-- NAV_LEAP_LEAP_VALID (R281). -/
def NAV_LEAP_LEAP_VALID : Fld :=
  ⟨1590, "NAV_LEAP_LEAP_VALID", .nav, 0x050, 0, 1, 8, 1, .ro, false, 0, [], .free⟩

/-- NAV_LEAP_SAVE_BAD (R281). -/
def NAV_LEAP_SAVE_BAD : Fld :=
  ⟨1591, "NAV_LEAP_SAVE_BAD", .nav, 0x050, 0, 1, 16, 16, .ro, false, 0, [], .free⟩

/-- NAV_RTCM_ERRS_COUNT (R281). -/
def NAV_RTCM_ERRS_COUNT : Fld :=
  ⟨1592, "NAV_RTCM_ERRS_COUNT", .nav, 0x054, 0, 1, 0, 32, .ro, false, 0, [], .free⟩

/-- NAV_CORR_SPACING (R281). -/
def NAV_CORR_SPACING : Fld :=
  ⟨1593, "NAV_CORR_SPACING", .nav, 0x100, 4, 18, 0, 7, .rw, false, 0, [8, 8, 8, 32, 8, 32, 32, 32, 8, 8, 32, 8, 8, 8, 8, 8, 32, 8], .clamp 3 64⟩

/-! Register table of R337. -/

/-- CAM_CTRL_EN (R337). -/
def CAM_CTRL_EN : Fld :=
  ⟨1664, "CAM_CTRL_EN", .cam, 0x000, 0, 1, 0, 1, .rw, true, 0, [], .free⟩

/-- CAM_CTRL_PWR_EN (R337). -/
def CAM_CTRL_PWR_EN : Fld :=
  ⟨1665, "CAM_CTRL_PWR_EN", .cam, 0x000, 0, 1, 1, 1, .rw, false, 0, [], .free⟩

/-- CAM_CTRL_FSYNC_EN (R337). -/
def CAM_CTRL_FSYNC_EN : Fld :=
  ⟨1666, "CAM_CTRL_FSYNC_EN", .cam, 0x000, 0, 1, 2, 1, .rwa, false, 0, [], .free⟩

/-- CAM_CTRL_LINK_UP (R337). -/
def CAM_CTRL_LINK_UP : Fld :=
  ⟨1667, "CAM_CTRL_LINK_UP", .cam, 0x000, 0, 1, 3, 1, .ro, false, 0, [], .free⟩

/-- CAM_CTRL_GEAR (R337). -/
def CAM_CTRL_GEAR : Fld :=
  ⟨1668, "CAM_CTRL_GEAR", .cam, 0x000, 0, 1, 4, 2, .ro, false, 0, [], .free⟩

/-- CAM_CTRL_PWR_FAULT (R337). -/
def CAM_CTRL_PWR_FAULT : Fld :=
  ⟨1669, "CAM_CTRL_PWR_FAULT", .cam, 0x000, 0, 1, 6, 1, .ro, false, 0, [], .free⟩

/-- CAM_CTRL_ERR (R337). -/
def CAM_CTRL_ERR : Fld :=
  ⟨1670, "CAM_CTRL_ERR", .cam, 0x000, 0, 1, 8, 4, .ro, false, 0, [], .free⟩

/-- CAM_FORMAT_DATA_TYPE (R337). -/
def CAM_FORMAT_DATA_TYPE : Fld :=
  ⟨1671, "CAM_FORMAT_DATA_TYPE", .cam, 0x004, 0, 1, 0, 6, .rwa, false, 44, [], .free⟩

/-- CAM_FORMAT_MOSAIC (R337). -/
def CAM_FORMAT_MOSAIC : Fld :=
  ⟨1672, "CAM_FORMAT_MOSAIC", .cam, 0x004, 0, 1, 8, 3, .rwa, false, 0, [], .free⟩

/-- CAM_FORMAT_PHASE (R337). -/
def CAM_FORMAT_PHASE : Fld :=
  ⟨1673, "CAM_FORMAT_PHASE", .cam, 0x004, 0, 1, 12, 2, .rwa, false, 0, [], .free⟩

/-- CAM_FORMAT_SENSOR_DELAY (R337). -/
def CAM_FORMAT_SENSOR_DELAY : Fld :=
  ⟨1674, "CAM_FORMAT_SENSOR_DELAY", .cam, 0x004, 0, 1, 16, 3, .rwa, false, 0, [], .clamp 0 4⟩

/-- CAM_FORMAT_I2C_ADDR (R337). -/
def CAM_FORMAT_I2C_ADDR : Fld :=
  ⟨1675, "CAM_FORMAT_I2C_ADDR", .cam, 0x004, 0, 1, 24, 7, .rwa, false, 0, [], .free⟩

/-- CAM_SIZE_WIDTH (R337). -/
def CAM_SIZE_WIDTH : Fld :=
  ⟨1676, "CAM_SIZE_WIDTH", .cam, 0x008, 0, 1, 0, 13, .rwa, false, 1920, [], .free⟩

/-- CAM_SIZE_HEIGHT (R337). -/
def CAM_SIZE_HEIGHT : Fld :=
  ⟨1677, "CAM_SIZE_HEIGHT", .cam, 0x008, 0, 1, 16, 13, .rwa, false, 1080, [], .free⟩

/-- CAM_RAW_SLOT_SLOT_4K (R337). -/
def CAM_RAW_SLOT_SLOT_4K : Fld :=
  ⟨1678, "CAM_RAW_SLOT_SLOT_4K", .cam, 0x014, 0, 1, 0, 16, .rwa, false, 0, [], .free⟩

/-- CAM_RAW_SLOT_SLOT_COUNT (R337). -/
def CAM_RAW_SLOT_SLOT_COUNT : Fld :=
  ⟨1679, "CAM_RAW_SLOT_SLOT_COUNT", .cam, 0x014, 0, 1, 16, 7, .rwa, false, 0, [], .free⟩

/-- CAM_FSYNC_PERIOD_US (R337). -/
def CAM_FSYNC_PERIOD_US : Fld :=
  ⟨1680, "CAM_FSYNC_PERIOD_US", .cam, 0x018, 0, 1, 0, 20, .rwa, false, 33333, [], .clamp 1000 1000000⟩

/-- CAM_FSYNC_PHASE_PHASE_US (R337). -/
def CAM_FSYNC_PHASE_PHASE_US : Fld :=
  ⟨1681, "CAM_FSYNC_PHASE_PHASE_US", .cam, 0x01C, 0, 1, 0, 20, .rwa, false, 0, [], .free⟩

/-- CAM_FRAME_FRAME_NO (R337). -/
def CAM_FRAME_FRAME_NO : Fld :=
  ⟨1682, "CAM_FRAME_FRAME_NO", .cam, 0x020, 0, 1, 0, 32, .ro, false, 0, [], .free⟩

/-- CAM_DROPS_NO_SLOT (R337). -/
def CAM_DROPS_NO_SLOT : Fld :=
  ⟨1683, "CAM_DROPS_NO_SLOT", .cam, 0x024, 0, 1, 0, 16, .ro, false, 0, [], .free⟩

/-- CAM_DROPS_REUSED (R337). -/
def CAM_DROPS_REUSED : Fld :=
  ⟨1684, "CAM_DROPS_REUSED", .cam, 0x024, 0, 1, 16, 16, .ro, false, 0, [], .free⟩

/-- CAM_LOSS_OVERFLOWS (R337). -/
def CAM_LOSS_OVERFLOWS : Fld :=
  ⟨1685, "CAM_LOSS_OVERFLOWS", .cam, 0x028, 0, 1, 0, 16, .ro, false, 0, [], .free⟩

/-- CAM_LOSS_NO_JOB (R337). -/
def CAM_LOSS_NO_JOB : Fld :=
  ⟨1686, "CAM_LOSS_NO_JOB", .cam, 0x028, 0, 1, 16, 16, .ro, false, 0, [], .free⟩

/-- CAM_PKT_HDR_ERRS (R337). -/
def CAM_PKT_HDR_ERRS : Fld :=
  ⟨1687, "CAM_PKT_HDR_ERRS", .cam, 0x02C, 0, 1, 0, 16, .ro, false, 0, [], .free⟩

/-- CAM_PKT_IGNORED (R337). -/
def CAM_PKT_IGNORED : Fld :=
  ⟨1688, "CAM_PKT_IGNORED", .cam, 0x02C, 0, 1, 16, 16, .ro, false, 0, [], .free⟩

/-- CAM_RAW_BASE_LO_ADDR_LO (R337). -/
def CAM_RAW_BASE_LO_ADDR_LO : Fld :=
  ⟨1689, "CAM_RAW_BASE_LO_ADDR_LO", .cam, 0x00C, 0, 1, 12, 20, .rwa, false, 0, [], .free⟩

/-- CAM_RAW_BASE_HI_ADDR_HI (R337). -/
def CAM_RAW_BASE_HI_ADDR_HI : Fld :=
  ⟨1690, "CAM_RAW_BASE_HI_ADDR_HI", .cam, 0x010, 0, 1, 0, 32, .rwa, false, 0, [], .free⟩

/-! Register table of R338. -/

/-- ISP_STAT_LOAD (R338). -/
def ISP_STAT_LOAD : Fld :=
  ⟨1792, "ISP_STAT_LOAD", .isp, 0x000, 0, 1, 0, 8, .ro, false, 0, [], .free⟩

/-- ISP_STAT_CUR_PORT (R338). -/
def ISP_STAT_CUR_PORT : Fld :=
  ⟨1793, "ISP_STAT_CUR_PORT", .isp, 0x000, 0, 1, 8, 2, .ro, false, 0, [], .free⟩

/-- ISP_STAT_BUSY (R338). -/
def ISP_STAT_BUSY : Fld :=
  ⟨1794, "ISP_STAT_BUSY", .isp, 0x000, 0, 1, 10, 1, .ro, false, 0, [], .free⟩

/-- ISP_STAT_READY (R338). -/
def ISP_STAT_READY : Fld :=
  ⟨1795, "ISP_STAT_READY", .isp, 0x000, 0, 1, 16, 16, .ro, false, 0, [], .free⟩

/-- VXA_STAT_BUSY (R338). -/
def VXA_STAT_BUSY : Fld :=
  ⟨1920, "VXA_STAT_BUSY", .vxa, 0x000, 0, 1, 0, 1, .ro, false, 0, [], .free⟩

/-- VXA_STAT_URGENT_RUN (R338). -/
def VXA_STAT_URGENT_RUN : Fld :=
  ⟨1921, "VXA_STAT_URGENT_RUN", .vxa, 0x000, 0, 1, 1, 1, .ro, false, 0, [], .free⟩

/-- VXA_STAT_QUEUED (R338). -/
def VXA_STAT_QUEUED : Fld :=
  ⟨1922, "VXA_STAT_QUEUED", .vxa, 0x000, 0, 1, 16, 16, .ro, false, 0, [], .free⟩

/-- VXA_NET_ID_LO_NET_ID (R338). -/
def VXA_NET_ID_LO_NET_ID : Fld :=
  ⟨1923, "VXA_NET_ID_LO_NET_ID", .vxa, 0x004, 0, 1, 0, 32, .ro, false, 0, [], .free⟩

/-- VXA_NET_ID_HI_NET_ID (R338). -/
def VXA_NET_ID_HI_NET_ID : Fld :=
  ⟨1924, "VXA_NET_ID_HI_NET_ID", .vxa, 0x008, 0, 1, 0, 32, .ro, false, 0, [], .free⟩

/-- VXA_COUNTS_JOBS (R338). -/
def VXA_COUNTS_JOBS : Fld :=
  ⟨1925, "VXA_COUNTS_JOBS", .vxa, 0x00C, 0, 1, 0, 16, .ro, false, 0, [], .free⟩

/-- VXA_COUNTS_ECC_FATAL (R338). -/
def VXA_COUNTS_ECC_FATAL : Fld :=
  ⟨1926, "VXA_COUNTS_ECC_FATAL", .vxa, 0x00C, 0, 1, 16, 16, .ro, false, 0, [], .free⟩

/-! Register table of R363. -/

/-- CAN_CTRL_EN (R363). -/
def CAN_CTRL_EN : Fld :=
  ⟨2048, "CAN_CTRL_EN", .can, 0x000, 0, 1, 0, 1, .rw, true, 0, [], .free⟩

/-- CAN_CTRL_MODE (R363). -/
def CAN_CTRL_MODE : Fld :=
  ⟨2049, "CAN_CTRL_MODE", .can, 0x000, 0, 1, 1, 2, .rwa, false, 0, [], .outside 0 2 1⟩

/-- CAN_CTRL_FD_EN (R363). -/
def CAN_CTRL_FD_EN : Fld :=
  ⟨2050, "CAN_CTRL_FD_EN", .can, 0x000, 0, 1, 3, 1, .rwa, false, 1, [], .free⟩

/-- CAN_CTRL_TERM_EN (R363). -/
def CAN_CTRL_TERM_EN : Fld :=
  ⟨2051, "CAN_CTRL_TERM_EN", .can, 0x000, 0, 1, 4, 1, .rw, false, 0, [], .free⟩

/-- CAN_CTRL_RECOVER (R363). -/
def CAN_CTRL_RECOVER : Fld :=
  ⟨2052, "CAN_CTRL_RECOVER", .can, 0x000, 0, 1, 5, 1, .wo, true, 0, [], .free⟩

/-- CAN_CTRL_TDC_EN (R363). -/
def CAN_CTRL_TDC_EN : Fld :=
  ⟨2053, "CAN_CTRL_TDC_EN", .can, 0x000, 0, 1, 6, 1, .rwa, false, 1, [], .free⟩

/-- CAN_CTRL_ERR (R363). -/
def CAN_CTRL_ERR : Fld :=
  ⟨2054, "CAN_CTRL_ERR", .can, 0x000, 0, 1, 8, 4, .ro, false, 0, [], .free⟩

/-- CAN_NBT_NTSEG1 (R363). -/
def CAN_NBT_NTSEG1 : Fld :=
  ⟨2055, "CAN_NBT_NTSEG1", .can, 0x004, 0, 1, 0, 8, .rwa, false, 127, [], .clamp 2 255⟩

/-- CAN_NBT_NTSEG2 (R363). -/
def CAN_NBT_NTSEG2 : Fld :=
  ⟨2056, "CAN_NBT_NTSEG2", .can, 0x004, 0, 1, 8, 7, .rwa, false, 32, [], .clamp 1 127⟩

/-- CAN_NBT_NSJW (R363). -/
def CAN_NBT_NSJW : Fld :=
  ⟨2057, "CAN_NBT_NSJW", .can, 0x004, 0, 1, 15, 7, .rwa, false, 32, [], .clamp 1 127⟩

/-- CAN_NBT_NBRP (R363). -/
def CAN_NBT_NBRP : Fld :=
  ⟨2058, "CAN_NBT_NBRP", .can, 0x004, 0, 1, 22, 5, .rwa, false, 2, [], .clamp 1 31⟩

/-- CAN_DBT_DTSEG1 (R363). -/
def CAN_DBT_DTSEG1 : Fld :=
  ⟨2059, "CAN_DBT_DTSEG1", .can, 0x008, 0, 1, 0, 6, .rwa, false, 31, [], .clamp 1 63⟩

/-- CAN_DBT_DTSEG2 (R363). -/
def CAN_DBT_DTSEG2 : Fld :=
  ⟨2060, "CAN_DBT_DTSEG2", .can, 0x008, 0, 1, 6, 4, .rwa, false, 8, [], .clamp 1 15⟩

/-- CAN_DBT_DSJW (R363). -/
def CAN_DBT_DSJW : Fld :=
  ⟨2061, "CAN_DBT_DSJW", .can, 0x008, 0, 1, 10, 4, .rwa, false, 8, [], .clamp 1 15⟩

/-- CAN_DBT_DBRP (R363). -/
def CAN_DBT_DBRP : Fld :=
  ⟨2062, "CAN_DBT_DBRP", .can, 0x008, 0, 1, 14, 5, .rwa, false, 1, [], .clamp 1 31⟩

/-- CAN_DBT_TDCO (R363). -/
def CAN_DBT_TDCO : Fld :=
  ⟨2063, "CAN_DBT_TDCO", .can, 0x008, 0, 1, 19, 7, .rwa, false, 32, [], .free⟩

/-- CAN_TX_CFG_RING (R363). -/
def CAN_TX_CFG_RING : Fld :=
  ⟨2064, "CAN_TX_CFG_RING", .can, 0x00C, 0, 1, 0, 8, .rwa, false, 0, [], .free⟩

/-- CAN_TX_CFG_ORDER (R363). -/
def CAN_TX_CFG_ORDER : Fld :=
  ⟨2065, "CAN_TX_CFG_ORDER", .can, 0x00C, 0, 1, 8, 1, .rwa, false, 0, [], .free⟩

/-- CAN_TX_CFG_RETRY_LIMIT (R363). -/
def CAN_TX_CFG_RETRY_LIMIT : Fld :=
  ⟨2066, "CAN_TX_CFG_RETRY_LIMIT", .can, 0x00C, 0, 1, 9, 5, .rwa, false, 3, [], .free⟩

/-- CAN_TX_CFG_DEFAULT_ACT (R363). -/
def CAN_TX_CFG_DEFAULT_ACT : Fld :=
  ⟨2067, "CAN_TX_CFG_DEFAULT_ACT", .can, 0x00C, 0, 1, 14, 2, .rwa, false, 3, [], .free⟩

/-- CAN_STATUS_STATE (R363). -/
def CAN_STATUS_STATE : Fld :=
  ⟨2068, "CAN_STATUS_STATE", .can, 0x010, 0, 1, 0, 2, .ro, false, 0, [], .free⟩

/-- CAN_STATUS_TXB_BUSY (R363). -/
def CAN_STATUS_TXB_BUSY : Fld :=
  ⟨2069, "CAN_STATUS_TXB_BUSY", .can, 0x010, 0, 1, 2, 3, .ro, false, 0, [], .free⟩

/-- CAN_STATUS_STAGED (R363). -/
def CAN_STATUS_STAGED : Fld :=
  ⟨2070, "CAN_STATUS_STAGED", .can, 0x010, 0, 1, 5, 4, .ro, false, 0, [], .free⟩

/-- CAN_ERR_CNT_TEC (R363). -/
def CAN_ERR_CNT_TEC : Fld :=
  ⟨2071, "CAN_ERR_CNT_TEC", .can, 0x014, 0, 1, 0, 9, .ro, false, 0, [], .free⟩

/-- CAN_ERR_CNT_REC (R363). -/
def CAN_ERR_CNT_REC : Fld :=
  ⟨2072, "CAN_ERR_CNT_REC", .can, 0x014, 0, 1, 16, 8, .ro, false, 0, [], .free⟩

/-- CAN_ERR_CNT_BUS_OFFS (R363). -/
def CAN_ERR_CNT_BUS_OFFS : Fld :=
  ⟨2073, "CAN_ERR_CNT_BUS_OFFS", .can, 0x014, 0, 1, 24, 8, .ro, false, 0, [], .free⟩

/-- CAN_COUNTS_RX_DROPS (R363). -/
def CAN_COUNTS_RX_DROPS : Fld :=
  ⟨2074, "CAN_COUNTS_RX_DROPS", .can, 0x018, 0, 1, 0, 16, .ro, false, 0, [], .free⟩

/-- CAN_COUNTS_SATURATED (R363). -/
def CAN_COUNTS_SATURATED : Fld :=
  ⟨2075, "CAN_COUNTS_SATURATED", .can, 0x018, 0, 1, 16, 16, .ro, false, 0, [], .free⟩

/-- CAN_STAGE_CNT_STAGE_DROPS (R363). -/
def CAN_STAGE_CNT_STAGE_DROPS : Fld :=
  ⟨2076, "CAN_STAGE_CNT_STAGE_DROPS", .can, 0x01C, 0, 1, 0, 16, .ro, false, 0, [], .free⟩

/-- CAN_STAGE_CNT_STAGE_FAILS (R363). -/
def CAN_STAGE_CNT_STAGE_FAILS : Fld :=
  ⟨2077, "CAN_STAGE_CNT_STAGE_FAILS", .can, 0x01C, 0, 1, 16, 16, .ro, false, 0, [], .free⟩

/-- CAN_RXQ_CFG_SIZE_LOG2 (R363). -/
def CAN_RXQ_CFG_SIZE_LOG2 : Fld :=
  ⟨2078, "CAN_RXQ_CFG_SIZE_LOG2", .can, 0x048, 32, 2, 0, 5, .rwa, false, 4, [], .outside 4 16 4⟩

/-- CAN_RXQ_CFG_HOST (R363). -/
def CAN_RXQ_CFG_HOST : Fld :=
  ⟨2079, "CAN_RXQ_CFG_HOST", .can, 0x048, 32, 2, 8, 1, .rwa, false, 0, [], .free⟩

/-- CAN_RXQ_CFG_ENABLE (R363). -/
def CAN_RXQ_CFG_ENABLE : Fld :=
  ⟨2080, "CAN_RXQ_CFG_ENABLE", .can, 0x048, 32, 2, 9, 1, .rw, true, 0, [], .free⟩

/-- CAN_RXQ_HEAD_INDEX (R363). -/
def CAN_RXQ_HEAD_INDEX : Fld :=
  ⟨2081, "CAN_RXQ_HEAD_INDEX", .can, 0x04C, 32, 2, 0, 16, .rw, true, 0, [], .free⟩

/-- CAN_RXQ_WRITE_INDEX (R363). -/
def CAN_RXQ_WRITE_INDEX : Fld :=
  ⟨2082, "CAN_RXQ_WRITE_INDEX", .can, 0x050, 32, 2, 0, 16, .ro, false, 0, [], .free⟩

/-- CAN_RXQ_HEAD_PHASE (R363). -/
def CAN_RXQ_HEAD_PHASE : Fld :=
  ⟨2083, "CAN_RXQ_HEAD_PHASE", .can, 0x04C, 32, 2, 16, 1, .rw, true, 1, [], .free⟩

/-- CAN_RXQ_WRITE_PHASE (R363). -/
def CAN_RXQ_WRITE_PHASE : Fld :=
  ⟨2084, "CAN_RXQ_WRITE_PHASE", .can, 0x050, 32, 2, 16, 1, .ro, false, 1, [], .free⟩

/-- CAN_FLT_VALUE_WORD (R363). -/
def CAN_FLT_VALUE_WORD : Fld :=
  ⟨2085, "CAN_FLT_VALUE_WORD", .can, 0x100, 8, 32, 0, 31, .rw, false, 0, [], .free⟩

/-- CAN_FLT_MASK_WORD (R363). -/
def CAN_FLT_MASK_WORD : Fld :=
  ⟨2086, "CAN_FLT_MASK_WORD", .can, 0x104, 8, 32, 0, 31, .rw, false, 0, [], .free⟩

/-- CAN_FLT_ACT (R363). -/
def CAN_FLT_ACT : Fld :=
  ⟨2087, "CAN_FLT_ACT", .can, 0x200, 4, 2, 0, 32, .rw, false, 0, [], .free⟩

/-- CAN_RXQ_BASE_LO_ADDR_LO (R363). -/
def CAN_RXQ_BASE_LO_ADDR_LO : Fld :=
  ⟨2088, "CAN_RXQ_BASE_LO_ADDR_LO", .can, 0x040, 32, 2, 12, 20, .rwa, false, 0, [], .free⟩

/-- CAN_RXQ_BASE_HI_ADDR_HI (R363). -/
def CAN_RXQ_BASE_HI_ADDR_HI : Fld :=
  ⟨2089, "CAN_RXQ_BASE_HI_ADDR_HI", .can, 0x044, 32, 2, 0, 32, .rwa, false, 0, [], .free⟩

/-! Register table of R364. -/

/-- ETH_CTRL_EN (R364). -/
def ETH_CTRL_EN : Fld :=
  ⟨2176, "ETH_CTRL_EN", .eth, 0x000, 0, 1, 0, 1, .rw, false, 0, [], .free⟩

/-- ETH_CTRL_MASTER (R364). -/
def ETH_CTRL_MASTER : Fld :=
  ⟨2177, "ETH_CTRL_MASTER", .eth, 0x000, 0, 1, 1, 1, .rwa, false, 0, [], .free⟩

/-- ETH_CTRL_MCAST_EN (R364). -/
def ETH_CTRL_MCAST_EN : Fld :=
  ⟨2178, "ETH_CTRL_MCAST_EN", .eth, 0x000, 0, 1, 2, 1, .rw, false, 1, [], .free⟩

/-- ETH_CTRL_PROMISC (R364). -/
def ETH_CTRL_PROMISC : Fld :=
  ⟨2179, "ETH_CTRL_PROMISC", .eth, 0x000, 0, 1, 3, 1, .rw, false, 0, [], .free⟩

/-- ETH_CTRL_GPTP_EN (R364). -/
def ETH_CTRL_GPTP_EN : Fld :=
  ⟨2180, "ETH_CTRL_GPTP_EN", .eth, 0x000, 0, 1, 4, 1, .rwa, false, 1, [], .free⟩

/-- ETH_CTRL_SLEEP (R364). -/
def ETH_CTRL_SLEEP : Fld :=
  ⟨2181, "ETH_CTRL_SLEEP", .eth, 0x000, 0, 1, 5, 1, .wo, true, 0, [], .free⟩

/-- ETH_CTRL_WAKE (R364). -/
def ETH_CTRL_WAKE : Fld :=
  ⟨2182, "ETH_CTRL_WAKE", .eth, 0x000, 0, 1, 6, 1, .wo, true, 0, [], .free⟩

/-- ETH_CTRL_WAKE_EN (R364). -/
def ETH_CTRL_WAKE_EN : Fld :=
  ⟨2183, "ETH_CTRL_WAKE_EN", .eth, 0x000, 0, 1, 7, 1, .rw, false, 0, [], .free⟩

/-- ETH_CTRL_PLCA_EN (R364). -/
def ETH_CTRL_PLCA_EN : Fld :=
  ⟨2184, "ETH_CTRL_PLCA_EN", .eth, 0x000, 0, 1, 8, 1, .rwa, false, 1, [], .free⟩

/-- ETH_CTRL_PLCA_ID (R364). -/
def ETH_CTRL_PLCA_ID : Fld :=
  ⟨2185, "ETH_CTRL_PLCA_ID", .eth, 0x000, 0, 1, 9, 8, .rwa, false, 255, [], .free⟩

/-- ETH_CTRL_PLCA_COUNT (R364). -/
def ETH_CTRL_PLCA_COUNT : Fld :=
  ⟨2186, "ETH_CTRL_PLCA_COUNT", .eth, 0x000, 0, 1, 17, 8, .rwa, false, 8, [], .free⟩

/-- ETH_STATUS_LINK_UP (R364). -/
def ETH_STATUS_LINK_UP : Fld :=
  ⟨2187, "ETH_STATUS_LINK_UP", .eth, 0x004, 0, 1, 0, 1, .ro, false, 0, [], .free⟩

/-- ETH_STATUS_ASLEEP (R364). -/
def ETH_STATUS_ASLEEP : Fld :=
  ⟨2188, "ETH_STATUS_ASLEEP", .eth, 0x004, 0, 1, 1, 1, .ro, false, 0, [], .free⟩

/-- ETH_STATUS_GM (R364). -/
def ETH_STATUS_GM : Fld :=
  ⟨2189, "ETH_STATUS_GM", .eth, 0x004, 0, 1, 2, 1, .ro, false, 0, [], .free⟩

/-- ETH_STATUS_FCS_ERRS (R364). -/
def ETH_STATUS_FCS_ERRS : Fld :=
  ⟨2190, "ETH_STATUS_FCS_ERRS", .eth, 0x004, 0, 1, 16, 16, .ro, false, 0, [], .free⟩

/-- ETH_MAC_LO_MAC (R364). -/
def ETH_MAC_LO_MAC : Fld :=
  ⟨2191, "ETH_MAC_LO_MAC", .eth, 0x008, 0, 1, 0, 32, .rwa, false, 0, [], .free⟩

/-- ETH_MAC_HI_MAC (R364). -/
def ETH_MAC_HI_MAC : Fld :=
  ⟨2192, "ETH_MAC_HI_MAC", .eth, 0x00C, 0, 1, 0, 16, .rwa, false, 0, [], .free⟩

/-- ETH_GPTP_PRIORITY1 (R364). -/
def ETH_GPTP_PRIORITY1 : Fld :=
  ⟨2193, "ETH_GPTP_PRIORITY1", .eth, 0x024, 0, 1, 0, 8, .rw, false, 246, [], .free⟩

/-- ETH_GPTP_PRIORITY2 (R364). -/
def ETH_GPTP_PRIORITY2 : Fld :=
  ⟨2194, "ETH_GPTP_PRIORITY2", .eth, 0x024, 0, 1, 8, 8, .rw, false, 248, [], .free⟩

/-- ETH_GPTP_OFFSET_NS (R364). -/
def ETH_GPTP_OFFSET_NS : Fld :=
  ⟨2195, "ETH_GPTP_OFFSET_NS", .eth, 0x028, 0, 1, 0, 32, .ro, false, 0, [], .free⟩

/-- ETH_DROPS_RX_DROPS (R364). -/
def ETH_DROPS_RX_DROPS : Fld :=
  ⟨2196, "ETH_DROPS_RX_DROPS", .eth, 0x02C, 0, 1, 0, 32, .ro, false, 0, [], .free⟩

/-- ETH_RXQ_BASE_LO_ADDR_LO (R364). -/
def ETH_RXQ_BASE_LO_ADDR_LO : Fld :=
  ⟨2197, "ETH_RXQ_BASE_LO_ADDR_LO", .eth, 0x010, 0, 1, 12, 20, .rwa, false, 0, [], .free⟩

/-- ETH_RXQ_BASE_HI_ADDR_HI (R364). -/
def ETH_RXQ_BASE_HI_ADDR_HI : Fld :=
  ⟨2198, "ETH_RXQ_BASE_HI_ADDR_HI", .eth, 0x014, 0, 1, 0, 32, .rwa, false, 0, [], .free⟩

/-- ETH_RXQ_CFG_SIZE_LOG2 (R364). -/
def ETH_RXQ_CFG_SIZE_LOG2 : Fld :=
  ⟨2199, "ETH_RXQ_CFG_SIZE_LOG2", .eth, 0x018, 0, 1, 0, 5, .rwa, false, 4, [], .outside 4 16 4⟩

/-- ETH_RXQ_CFG_HOST (R364). -/
def ETH_RXQ_CFG_HOST : Fld :=
  ⟨2200, "ETH_RXQ_CFG_HOST", .eth, 0x018, 0, 1, 8, 1, .rwa, false, 0, [], .free⟩

/-- ETH_RXQ_CFG_ENABLE (R364). -/
def ETH_RXQ_CFG_ENABLE : Fld :=
  ⟨2201, "ETH_RXQ_CFG_ENABLE", .eth, 0x018, 0, 1, 9, 1, .rw, true, 0, [], .free⟩

/-- ETH_RXQ_HEAD_INDEX (R364). -/
def ETH_RXQ_HEAD_INDEX : Fld :=
  ⟨2202, "ETH_RXQ_HEAD_INDEX", .eth, 0x01C, 0, 1, 0, 16, .rw, true, 0, [], .free⟩

/-- ETH_RXQ_HEAD_PHASE (R364). -/
def ETH_RXQ_HEAD_PHASE : Fld :=
  ⟨2203, "ETH_RXQ_HEAD_PHASE", .eth, 0x01C, 0, 1, 16, 1, .rw, true, 1, [], .free⟩

/-- ETH_RXQ_WRITE_INDEX (R364). -/
def ETH_RXQ_WRITE_INDEX : Fld :=
  ⟨2204, "ETH_RXQ_WRITE_INDEX", .eth, 0x020, 0, 1, 0, 16, .ro, false, 0, [], .free⟩

/-- ETH_RXQ_WRITE_PHASE (R364). -/
def ETH_RXQ_WRITE_PHASE : Fld :=
  ⟨2205, "ETH_RXQ_WRITE_PHASE", .eth, 0x020, 0, 1, 16, 1, .ro, false, 1, [], .free⟩

/-! Register table of R365. -/

/-- HLK_STATUS_LINK_UP (R365). -/
def HLK_STATUS_LINK_UP : Fld :=
  ⟨2304, "HLK_STATUS_LINK_UP", .hlk, 0x000, 0, 1, 0, 1, .ro, false, 0, [], .free⟩

/-- HLK_STATUS_WIDTH (R365). -/
def HLK_STATUS_WIDTH : Fld :=
  ⟨2305, "HLK_STATUS_WIDTH", .hlk, 0x000, 0, 1, 1, 3, .ro, false, 0, [], .free⟩

/-- HLK_STATUS_SPEED (R365). -/
def HLK_STATUS_SPEED : Fld :=
  ⟨2306, "HLK_STATUS_SPEED", .hlk, 0x000, 0, 1, 4, 3, .ro, false, 0, [], .free⟩

/-- HLK_STATUS_D_STATE (R365). -/
def HLK_STATUS_D_STATE : Fld :=
  ⟨2307, "HLK_STATUS_D_STATE", .hlk, 0x000, 0, 1, 7, 2, .ro, false, 0, [], .free⟩

/-- HLK_STATUS_DOWN_EVENTS (R365). -/
def HLK_STATUS_DOWN_EVENTS : Fld :=
  ⟨2308, "HLK_STATUS_DOWN_EVENTS", .hlk, 0x000, 0, 1, 16, 16, .ro, false, 0, [], .free⟩

/-- HLK_AER_UNCORR (R365). -/
def HLK_AER_UNCORR : Fld :=
  ⟨2309, "HLK_AER_UNCORR", .hlk, 0x004, 0, 1, 0, 16, .ro, false, 0, [], .free⟩

/-- HLK_AER_CORR (R365). -/
def HLK_AER_CORR : Fld :=
  ⟨2310, "HLK_AER_CORR", .hlk, 0x004, 0, 1, 16, 16, .ro, false, 0, [], .free⟩

/-! Register table of R390. -/

/-- FLE_CTRL_EN (R390). -/
def FLE_CTRL_EN : Fld :=
  ⟨2432, "FLE_CTRL_EN", .fle, 0x000, 0, 1, 0, 1, .rw, true, 0, [], .free⟩

/-- FLE_CTRL_PUB_EN (R390). -/
def FLE_CTRL_PUB_EN : Fld :=
  ⟨2433, "FLE_CTRL_PUB_EN", .fle, 0x000, 0, 1, 1, 1, .rw, false, 1, [], .free⟩

/-- FLE_CTRL_SHARE_KINDS (R390). -/
def FLE_CTRL_SHARE_KINDS : Fld :=
  ⟨2434, "FLE_CTRL_SHARE_KINDS", .fle, 0x000, 0, 1, 2, 3, .rwa, false, 7, [], .free⟩

/-- FLE_CTRL_ERR (R390). -/
def FLE_CTRL_ERR : Fld :=
  ⟨2435, "FLE_CTRL_ERR", .fle, 0x000, 0, 1, 8, 4, .ro, false, 0, [], .free⟩

/-- FLE_CTRL_PORT (R390). -/
def FLE_CTRL_PORT : Fld :=
  ⟨2436, "FLE_CTRL_PORT", .fle, 0x000, 0, 1, 12, 2, .rwa, false, 0, [], .free⟩

/-- FLE_MARKET_ID_MARKET_ID (R390). -/
def FLE_MARKET_ID_MARKET_ID : Fld :=
  ⟨2437, "FLE_MARKET_ID_MARKET_ID", .fle, 0x004, 0, 1, 0, 32, .ro, false, 0, [], .free⟩

/-- FLE_PITCH_PITCH (R390). -/
def FLE_PITCH_PITCH : Fld :=
  ⟨2438, "FLE_PITCH_PITCH", .fle, 0x008, 0, 1, 0, 10, .ro, false, 0, [], .free⟩

/-- FLE_PITCH_CRED_VALID (R390). -/
def FLE_PITCH_CRED_VALID : Fld :=
  ⟨2439, "FLE_PITCH_CRED_VALID", .fle, 0x008, 0, 1, 16, 1, .ro, false, 0, [], .free⟩

/-- FLE_UDP_UDP_PORT (R390). -/
def FLE_UDP_UDP_PORT : Fld :=
  ⟨2440, "FLE_UDP_UDP_PORT", .fle, 0x00C, 0, 1, 0, 16, .rwa, false, 47210, [], .free⟩

/-- FLE_ADDR_ADDR (R390). -/
def FLE_ADDR_ADDR : Fld :=
  ⟨2441, "FLE_ADDR_ADDR", .fle, 0x010, 4, 4, 0, 32, .rwa, false, 0, [], .free⟩

/-- FLE_PUB_PUB_QUIET_MS (R390). -/
def FLE_PUB_PUB_QUIET_MS : Fld :=
  ⟨2442, "FLE_PUB_PUB_QUIET_MS", .fle, 0x020, 0, 1, 0, 16, .rw, false, 2000, [], .clamp 1 65535⟩

/-- FLE_PUB_PUB_MAX_MS (R390). -/
def FLE_PUB_PUB_MAX_MS : Fld :=
  ⟨2443, "FLE_PUB_PUB_MAX_MS", .fle, 0x020, 0, 1, 16, 16, .rw, false, 10000, [], .free⟩

/-- FLE_LIMITS_SKEW_MS (R390). -/
def FLE_LIMITS_SKEW_MS : Fld :=
  ⟨2444, "FLE_LIMITS_SKEW_MS", .fle, 0x024, 0, 1, 0, 10, .rwa, false, 500, [], .clamp 1 1023⟩

/-- FLE_LIMITS_STRIKE_MAX (R390). -/
def FLE_LIMITS_STRIKE_MAX : Fld :=
  ⟨2445, "FLE_LIMITS_STRIKE_MAX", .fle, 0x024, 0, 1, 16, 4, .rwa, false, 8, [], .clamp 2 15⟩

/-- FLE_LIMITS_STRIKE_DECAY_S (R390). -/
def FLE_LIMITS_STRIKE_DECAY_S : Fld :=
  ⟨2446, "FLE_LIMITS_STRIKE_DECAY_S", .fle, 0x024, 0, 1, 24, 8, .rwa, false, 60, [], .clamp 1 255⟩

/-- FLE_TIMERS_PEER_TIMEOUT_S (R390). -/
def FLE_TIMERS_PEER_TIMEOUT_S : Fld :=
  ⟨2447, "FLE_TIMERS_PEER_TIMEOUT_S", .fle, 0x028, 0, 1, 0, 8, .rwa, false, 15, [], .clamp 6 255⟩

/-- FLE_TIMERS_RETRY_S (R390). -/
def FLE_TIMERS_RETRY_S : Fld :=
  ⟨2448, "FLE_TIMERS_RETRY_S", .fle, 0x028, 0, 1, 8, 8, .rwa, false, 10, [], .clamp 1 255⟩

/-- FLE_TIMERS_EVICT_HOLD_S (R390). -/
def FLE_TIMERS_EVICT_HOLD_S : Fld :=
  ⟨2449, "FLE_TIMERS_EVICT_HOLD_S", .fle, 0x028, 0, 1, 16, 16, .rwa, false, 600, [], .free⟩

/-- FLE_COUNTS_APPLIED (R390). -/
def FLE_COUNTS_APPLIED : Fld :=
  ⟨2450, "FLE_COUNTS_APPLIED", .fle, 0x060, 0, 1, 0, 16, .ro, false, 0, [], .free⟩

/-- FLE_COUNTS_PUBLISHED (R390). -/
def FLE_COUNTS_PUBLISHED : Fld :=
  ⟨2451, "FLE_COUNTS_PUBLISHED", .fle, 0x060, 0, 1, 16, 16, .ro, false, 0, [], .free⟩

/-- FLE_DROPS_A_BUDGET_DROPS (R390). -/
def FLE_DROPS_A_BUDGET_DROPS : Fld :=
  ⟨2452, "FLE_DROPS_A_BUDGET_DROPS", .fle, 0x064, 0, 1, 0, 16, .ro, false, 0, [], .free⟩

/-- FLE_DROPS_A_SKEW_DROPS (R390). -/
def FLE_DROPS_A_SKEW_DROPS : Fld :=
  ⟨2453, "FLE_DROPS_A_SKEW_DROPS", .fle, 0x064, 0, 1, 16, 16, .ro, false, 0, [], .free⟩

/-- FLE_DROPS_B_UNKNOWN_DROPS (R390). -/
def FLE_DROPS_B_UNKNOWN_DROPS : Fld :=
  ⟨2454, "FLE_DROPS_B_UNKNOWN_DROPS", .fle, 0x068, 0, 1, 0, 16, .ro, false, 0, [], .free⟩

/-- FLE_DROPS_B_UNSHARED_DROPS (R390). -/
def FLE_DROPS_B_UNSHARED_DROPS : Fld :=
  ⟨2455, "FLE_DROPS_B_UNSHARED_DROPS", .fle, 0x068, 0, 1, 16, 16, .ro, false, 0, [], .free⟩

/-- FLE_STRIKES_STRIKES (R390). -/
def FLE_STRIKES_STRIKES : Fld :=
  ⟨2456, "FLE_STRIKES_STRIKES", .fle, 0x06C, 0, 1, 0, 16, .ro, false, 0, [], .free⟩

/-- FLE_STRIKES_RATE_DROPS (R390). -/
def FLE_STRIKES_RATE_DROPS : Fld :=
  ⟨2457, "FLE_STRIKES_RATE_DROPS", .fle, 0x06C, 0, 1, 16, 8, .ro, false, 0, [], .free⟩

/-- FLE_STRIKES_BEHIND_COUNT (R390). -/
def FLE_STRIKES_BEHIND_COUNT : Fld :=
  ⟨2458, "FLE_STRIKES_BEHIND_COUNT", .fle, 0x06C, 0, 1, 24, 8, .ro, false, 0, [], .free⟩

/-- FLE_SESSIONS_UP (R390). -/
def FLE_SESSIONS_UP : Fld :=
  ⟨2459, "FLE_SESSIONS_UP", .fle, 0x070, 0, 1, 0, 32, .ro, false, 0, [], .free⟩

/-- FLE_MEMBER_SEL_PITCH (R390). -/
def FLE_MEMBER_SEL_PITCH : Fld :=
  ⟨2460, "FLE_MEMBER_SEL_PITCH", .fle, 0x074, 0, 1, 0, 10, .rw, false, 0, [], .free⟩

/-- FLE_MEMBER_STATE (R390). -/
def FLE_MEMBER_STATE : Fld :=
  ⟨2461, "FLE_MEMBER_STATE", .fle, 0x078, 0, 1, 0, 2, .ro, false, 0, [], .free⟩

/-- FLE_MEMBER_STRIKES (R390). -/
def FLE_MEMBER_STRIKES : Fld :=
  ⟨2462, "FLE_MEMBER_STRIKES", .fle, 0x078, 0, 1, 2, 4, .ro, false, 0, [], .free⟩

/-- FLE_MEMBER_TIME_STATE (R390). -/
def FLE_MEMBER_TIME_STATE : Fld :=
  ⟨2463, "FLE_MEMBER_TIME_STATE", .fle, 0x078, 0, 1, 6, 2, .ro, false, 0, [], .free⟩

/-- FLE_MEMBER_TOKENS (R390). -/
def FLE_MEMBER_TOKENS : Fld :=
  ⟨2464, "FLE_MEMBER_TOKENS", .fle, 0x078, 0, 1, 8, 8, .ro, false, 0, [], .free⟩

/-- FLE_MEMBER_OFFSET_NS (R390). -/
def FLE_MEMBER_OFFSET_NS : Fld :=
  ⟨2465, "FLE_MEMBER_OFFSET_NS", .fle, 0x07C, 0, 1, 0, 32, .ro, false, 0, [], .free⟩

/-- FLE_VER_BASE_LO_ADDR_LO (R390). -/
def FLE_VER_BASE_LO_ADDR_LO : Fld :=
  ⟨2466, "FLE_VER_BASE_LO_ADDR_LO", .fle, 0x030, 0, 1, 16, 16, .rwa, false, 0, [], .free⟩

/-- FLE_VER_BASE_HI_ADDR_HI (R390). -/
def FLE_VER_BASE_HI_ADDR_HI : Fld :=
  ⟨2467, "FLE_VER_BASE_HI_ADDR_HI", .fle, 0x034, 0, 1, 0, 32, .rwa, false, 0, [], .free⟩

/-- FLE_STORE_BASE_LO_ADDR_LO (R390). -/
def FLE_STORE_BASE_LO_ADDR_LO : Fld :=
  ⟨2468, "FLE_STORE_BASE_LO_ADDR_LO", .fle, 0x038, 0, 1, 16, 16, .rwa, false, 0, [], .free⟩

/-- FLE_STORE_BASE_HI_ADDR_HI (R390). -/
def FLE_STORE_BASE_HI_ADDR_HI : Fld :=
  ⟨2469, "FLE_STORE_BASE_HI_ADDR_HI", .fle, 0x03C, 0, 1, 0, 32, .rwa, false, 0, [], .free⟩

/-- FLE_RXQ_BASE_LO_ADDR_LO (R390). -/
def FLE_RXQ_BASE_LO_ADDR_LO : Fld :=
  ⟨2470, "FLE_RXQ_BASE_LO_ADDR_LO", .fle, 0x040, 0, 1, 12, 20, .rwa, false, 0, [], .free⟩

/-- FLE_RXQ_BASE_HI_ADDR_HI (R390). -/
def FLE_RXQ_BASE_HI_ADDR_HI : Fld :=
  ⟨2471, "FLE_RXQ_BASE_HI_ADDR_HI", .fle, 0x044, 0, 1, 0, 32, .rwa, false, 0, [], .free⟩

/-- FLE_RXQ_CFG_SIZE_LOG2 (R390). -/
def FLE_RXQ_CFG_SIZE_LOG2 : Fld :=
  ⟨2472, "FLE_RXQ_CFG_SIZE_LOG2", .fle, 0x048, 0, 1, 0, 5, .rwa, false, 4, [], .outside 4 16 4⟩

/-- FLE_RXQ_CFG_HOST (R390). -/
def FLE_RXQ_CFG_HOST : Fld :=
  ⟨2473, "FLE_RXQ_CFG_HOST", .fle, 0x048, 0, 1, 8, 1, .rwa, false, 0, [], .free⟩

/-- FLE_RXQ_CFG_ENABLE (R390). -/
def FLE_RXQ_CFG_ENABLE : Fld :=
  ⟨2474, "FLE_RXQ_CFG_ENABLE", .fle, 0x048, 0, 1, 9, 1, .rw, true, 0, [], .free⟩

/-- FLE_RXQ_HEAD_INDEX (R390). -/
def FLE_RXQ_HEAD_INDEX : Fld :=
  ⟨2475, "FLE_RXQ_HEAD_INDEX", .fle, 0x04C, 0, 1, 0, 16, .rw, true, 0, [], .free⟩

/-- FLE_RXQ_HEAD_PHASE (R390). -/
def FLE_RXQ_HEAD_PHASE : Fld :=
  ⟨2476, "FLE_RXQ_HEAD_PHASE", .fle, 0x04C, 0, 1, 16, 1, .rw, true, 1, [], .free⟩

/-- FLE_RXQ_WRITE_INDEX (R390). -/
def FLE_RXQ_WRITE_INDEX : Fld :=
  ⟨2477, "FLE_RXQ_WRITE_INDEX", .fle, 0x050, 0, 1, 0, 16, .ro, false, 0, [], .free⟩

/-- FLE_RXQ_WRITE_PHASE (R390). -/
def FLE_RXQ_WRITE_PHASE : Fld :=
  ⟨2478, "FLE_RXQ_WRITE_PHASE", .fle, 0x050, 0, 1, 16, 1, .ro, false, 1, [], .free⟩

/-! Register table of R405. -/

/-- PNL_CTRL_EN (R405). -/
def PNL_CTRL_EN : Fld :=
  ⟨2560, "PNL_CTRL_EN", .pnl, 0x000, 0, 1, 0, 1, .rw, true, 0, [], .free⟩

/-- PNL_CTRL_PWR_EN (R405). -/
def PNL_CTRL_PWR_EN : Fld :=
  ⟨2561, "PNL_CTRL_PWR_EN", .pnl, 0x000, 0, 1, 1, 1, .rw, false, 0, [], .free⟩

/-- PNL_CTRL_BLANK (R405). -/
def PNL_CTRL_BLANK : Fld :=
  ⟨2562, "PNL_CTRL_BLANK", .pnl, 0x000, 0, 1, 2, 1, .rw, false, 0, [], .free⟩

/-- PNL_CTRL_BLANK_ON_CRACK (R405). -/
def PNL_CTRL_BLANK_ON_CRACK : Fld :=
  ⟨2563, "PNL_CTRL_BLANK_ON_CRACK", .pnl, 0x000, 0, 1, 3, 1, .rw, false, 1, [], .free⟩

/-- PNL_CTRL_PARK_KEEP (R405). -/
def PNL_CTRL_PARK_KEEP : Fld :=
  ⟨2564, "PNL_CTRL_PARK_KEEP", .pnl, 0x000, 0, 1, 4, 1, .rw, false, 1, [], .free⟩

/-- PNL_CTRL_TSRC (R405). -/
def PNL_CTRL_TSRC : Fld :=
  ⟨2565, "PNL_CTRL_TSRC", .pnl, 0x000, 0, 1, 5, 1, .rw, false, 0, [], .free⟩

/-- PNL_CTRL_ERR (R405). -/
def PNL_CTRL_ERR : Fld :=
  ⟨2566, "PNL_CTRL_ERR", .pnl, 0x000, 0, 1, 8, 4, .ro, false, 0, [], .free⟩

/-- PNL_SIZE_WIDTH (R405). -/
def PNL_SIZE_WIDTH : Fld :=
  ⟨2567, "PNL_SIZE_WIDTH", .pnl, 0x004, 0, 1, 0, 9, .rwa, false, 400, [], .free⟩

/-- PNL_SIZE_HEIGHT (R405). -/
def PNL_SIZE_HEIGHT : Fld :=
  ⟨2568, "PNL_SIZE_HEIGHT", .pnl, 0x004, 0, 1, 16, 9, .rwa, false, 240, [], .free⟩

/-- PNL_TIMING_PCK_100K (R405). -/
def PNL_TIMING_PCK_100K : Fld :=
  ⟨2569, "PNL_TIMING_PCK_100K", .pnl, 0x008, 0, 1, 0, 7, .rwa, false, 40, [], .clamp 5 100⟩

/-- PNL_TIMING_VCOM_HZ (R405). -/
def PNL_TIMING_VCOM_HZ : Fld :=
  ⟨2570, "PNL_TIMING_VCOM_HZ", .pnl, 0x008, 0, 1, 8, 6, .rw, false, 60, [], .clamp 1 60⟩

/-- PNL_TIMING_LP_VCOM_HZ (R405). -/
def PNL_TIMING_LP_VCOM_HZ : Fld :=
  ⟨2571, "PNL_TIMING_LP_VCOM_HZ", .pnl, 0x008, 0, 1, 16, 6, .rw, false, 1, [], .clamp 1 60⟩

/-- PNL_STATUS_PENDING (R405). -/
def PNL_STATUS_PENDING : Fld :=
  ⟨2572, "PNL_STATUS_PENDING", .pnl, 0x00C, 0, 1, 0, 9, .ro, false, 0, [], .free⟩

/-- PNL_STATUS_WRITING (R405). -/
def PNL_STATUS_WRITING : Fld :=
  ⟨2573, "PNL_STATUS_WRITING", .pnl, 0x00C, 0, 1, 9, 1, .ro, false, 0, [], .free⟩

/-- PNL_STATUS_BLANKED (R405). -/
def PNL_STATUS_BLANKED : Fld :=
  ⟨2574, "PNL_STATUS_BLANKED", .pnl, 0x00C, 0, 1, 10, 1, .ro, false, 0, [], .free⟩

/-- PNL_STATUS_BAND (R405). -/
def PNL_STATUS_BAND : Fld :=
  ⟨2575, "PNL_STATUS_BAND", .pnl, 0x00C, 0, 1, 11, 3, .ro, false, 0, [], .free⟩

/-- PNL_STATUS_VLCD_10MV (R405). -/
def PNL_STATUS_VLCD_10MV : Fld :=
  ⟨2576, "PNL_STATUS_VLCD_10MV", .pnl, 0x00C, 0, 1, 16, 10, .ro, false, 0, [], .free⟩

/-- PNL_STATUS_TSNS_FAULT (R405). -/
def PNL_STATUS_TSNS_FAULT : Fld :=
  ⟨2577, "PNL_STATUS_TSNS_FAULT", .pnl, 0x00C, 0, 1, 26, 1, .ro, false, 0, [], .free⟩

/-- PNL_CRACK_CRACK_OHM (R405). -/
def PNL_CRACK_CRACK_OHM : Fld :=
  ⟨2578, "PNL_CRACK_CRACK_OHM", .pnl, 0x010, 0, 1, 0, 8, .rw, false, 50, [], .clamp 1 255⟩

/-- PNL_CRACK_PANEL_CRACK (R405). -/
def PNL_CRACK_PANEL_CRACK : Fld :=
  ⟨2579, "PNL_CRACK_PANEL_CRACK", .pnl, 0x010, 0, 1, 8, 1, .rw1c, true, 0, [], .free⟩

/-- PNL_CRACK_LOOP_OHM (R405). -/
def PNL_CRACK_LOOP_OHM : Fld :=
  ⟨2580, "PNL_CRACK_LOOP_OHM", .pnl, 0x010, 0, 1, 16, 16, .ro, false, 0, [], .free⟩

/-- PNL_TEMP_TEMP (R405). -/
def PNL_TEMP_TEMP : Fld :=
  ⟨2581, "PNL_TEMP_TEMP", .pnl, 0x014, 0, 1, 0, 8, .ro, false, 0, [], .free⟩

/-- PNL_COUNTS_WRITTEN (R405). -/
def PNL_COUNTS_WRITTEN : Fld :=
  ⟨2582, "PNL_COUNTS_WRITTEN", .pnl, 0x018, 0, 1, 0, 16, .ro, false, 0, [], .free⟩

/-- PNL_COUNTS_SKIPPED (R405). -/
def PNL_COUNTS_SKIPPED : Fld :=
  ⟨2583, "PNL_COUNTS_SKIPPED", .pnl, 0x018, 0, 1, 16, 16, .ro, false, 0, [], .free⟩

/-- PNL_VLCD_T_POINT (R405). -/
def PNL_VLCD_T_POINT : Fld :=
  ⟨2584, "PNL_VLCD_T_POINT", .pnl, 0x040, 4, 8, 0, 8, .rwa, false, 0, [10, 30, 50, 65, 80, 95, 115, 135], .free⟩

/-- PNL_VLCD_V_POINT (R405). -/
def PNL_VLCD_V_POINT : Fld :=
  ⟨2585, "PNL_VLCD_V_POINT", .pnl, 0x040, 4, 8, 16, 10, .rwa, false, 0, [560, 520, 480, 450, 420, 390, 350, 310], .clamp 300 600⟩

/-! Register table of R311. -/

/-- STO_MAP_CTRL_MAP_EN (R311). -/
def STO_MAP_CTRL_MAP_EN : Fld :=
  ⟨2688, "STO_MAP_CTRL_MAP_EN", .sto, 0x000, 0, 1, 0, 1, .rw, false, 0, [], .free⟩

/-- STO_MAP_CTRL_RECORD_SRC (R311). -/
def STO_MAP_CTRL_RECORD_SRC : Fld :=
  ⟨2689, "STO_MAP_CTRL_RECORD_SRC", .sto, 0x000, 0, 1, 1, 1, .rwa, false, 0, [], .free⟩

/-- STO_MAP_CTRL_RECORD_GIN (R311). -/
def STO_MAP_CTRL_RECORD_GIN : Fld :=
  ⟨2690, "STO_MAP_CTRL_RECORD_GIN", .sto, 0x000, 0, 1, 2, 6, .rwa, false, 0, [], .free⟩

/-- STO_MAP_CTRL_RECORD_LEVEL (R311). -/
def STO_MAP_CTRL_RECORD_LEVEL : Fld :=
  ⟨2691, "STO_MAP_CTRL_RECORD_LEVEL", .sto, 0x000, 0, 1, 8, 1, .rwa, false, 1, [], .free⟩

/-- STO_MAP_CTRL_DELAY_POINTS (R311). -/
def STO_MAP_CTRL_DELAY_POINTS : Fld :=
  ⟨2692, "STO_MAP_CTRL_DELAY_POINTS", .sto, 0x000, 0, 1, 9, 4, .rwa, false, 1, [], .clamp 1 8⟩

/-- STO_MAP_GRID_CELL_CM (R311). -/
def STO_MAP_GRID_CELL_CM : Fld :=
  ⟨2693, "STO_MAP_GRID_CELL_CM", .sto, 0x004, 0, 1, 0, 10, .rwa, false, 100, [], .clamp 50 500⟩

/-- STO_MAP_GRID_M_REF (R311). -/
def STO_MAP_GRID_M_REF : Fld :=
  ⟨2694, "STO_MAP_GRID_M_REF", .sto, 0x004, 0, 1, 16, 10, .rwa, false, 140, [], .clamp 50 300⟩

/-- STO_ORIGIN_ID_VALUE (R311). -/
def STO_ORIGIN_ID_VALUE : Fld :=
  ⟨2695, "STO_ORIGIN_ID_VALUE", .sto, 0x018, 0, 1, 0, 32, .rwa, false, 0, [], .free⟩

/-- STO_HDR_OFFSET_HDR_FWD (R311). -/
def STO_HDR_OFFSET_HDR_FWD : Fld :=
  ⟨2696, "STO_HDR_OFFSET_HDR_FWD", .sto, 0x01C, 0, 1, 0, 16, .rwa, false, 0, [], .free⟩

/-- STO_HDR_OFFSET_HDR_RIGHT (R311). -/
def STO_HDR_OFFSET_HDR_RIGHT : Fld :=
  ⟨2697, "STO_HDR_OFFSET_HDR_RIGHT", .sto, 0x01C, 0, 1, 16, 16, .rwa, false, 0, [], .free⟩

/-- STO_ANT_HEIGHT_ANT_HEIGHT (R311). -/
def STO_ANT_HEIGHT_ANT_HEIGHT : Fld :=
  ⟨2698, "STO_ANT_HEIGHT_ANT_HEIGHT", .sto, 0x020, 0, 1, 0, 14, .rwa, false, 0, [], .free⟩

/-- STO_FLUSH_FLUSH_S (R311). -/
def STO_FLUSH_FLUSH_S : Fld :=
  ⟨2699, "STO_FLUSH_FLUSH_S", .sto, 0x024, 0, 1, 0, 12, .rw, false, 60, [], .clamp 1 4095⟩

/-- STO_DELAY_MF (R311). -/
def STO_DELAY_MF : Fld :=
  ⟨2700, "STO_DELAY_MF", .sto, 0x040, 4, 8, 0, 16, .rwa, false, 0, [], .free⟩

/-- STO_DELAY_DELAY (R311). -/
def STO_DELAY_DELAY : Fld :=
  ⟨2701, "STO_DELAY_DELAY", .sto, 0x040, 4, 8, 16, 9, .rwa, false, 120, [], .clamp 40 300⟩

/-- STO_SECT_WIDTH_CM (R311). -/
def STO_SECT_WIDTH_CM : Fld :=
  ⟨2702, "STO_SECT_WIDTH_CM", .sto, 0x060, 8, 16, 0, 12, .rwa, false, 0, [], .free⟩

/-- STO_SECT_CENTRE_CM (R311). -/
def STO_SECT_CENTRE_CM : Fld :=
  ⟨2703, "STO_SECT_CENTRE_CM", .sto, 0x060, 8, 16, 12, 16, .rwa, false, 0, [], .free⟩

/-- STO_SECT_SRC_GIN (R311). -/
def STO_SECT_SRC_GIN : Fld :=
  ⟨2704, "STO_SECT_SRC_GIN", .sto, 0x064, 8, 16, 0, 6, .rwa, false, 0, [], .free⟩

/-- STO_SECT_SRC_SRC (R311). -/
def STO_SECT_SRC_SRC : Fld :=
  ⟨2705, "STO_SECT_SRC_SRC", .sto, 0x064, 8, 16, 6, 1, .rwa, false, 0, [], .free⟩

/-- STO_SECT_SRC_LEVEL (R311). -/
def STO_SECT_SRC_LEVEL : Fld :=
  ⟨2706, "STO_SECT_SRC_LEVEL", .sto, 0x064, 8, 16, 7, 1, .rwa, false, 1, [], .free⟩

/-- STO_MAP_STAT_ACTIVE (R311). -/
def STO_MAP_STAT_ACTIVE : Fld :=
  ⟨2707, "STO_MAP_STAT_ACTIVE", .sto, 0x0E0, 0, 1, 0, 13, .ro, false, 0, [], .free⟩

/-- STO_MAP_STAT_DIRTY (R311). -/
def STO_MAP_STAT_DIRTY : Fld :=
  ⟨2708, "STO_MAP_STAT_DIRTY", .sto, 0x0E0, 0, 1, 16, 13, .ro, false, 0, [], .free⟩

/-- STO_MAP_COUNTS_DROPPED (R311). -/
def STO_MAP_COUNTS_DROPPED : Fld :=
  ⟨2709, "STO_MAP_COUNTS_DROPPED", .sto, 0x0E4, 0, 1, 0, 16, .ro, false, 0, [], .free⟩

/-- STO_MAP_COUNTS_UNMAPPED (R311). -/
def STO_MAP_COUNTS_UNMAPPED : Fld :=
  ⟨2710, "STO_MAP_COUNTS_UNMAPPED", .sto, 0x0E4, 0, 1, 16, 16, .ro, false, 0, [], .free⟩

/-- STO_UNMAPPED_KG_VALUE (R311). -/
def STO_UNMAPPED_KG_VALUE : Fld :=
  ⟨2711, "STO_UNMAPPED_KG_VALUE", .sto, 0x0E8, 0, 1, 0, 32, .ro, false, 0, [], .free⟩

/-- STO_LIFE_LIFE_A (R311). -/
def STO_LIFE_LIFE_A : Fld :=
  ⟨2712, "STO_LIFE_LIFE_A", .sto, 0x100, 0, 1, 0, 4, .ro, false, 0, [], .free⟩

/-- STO_LIFE_LIFE_B (R311). -/
def STO_LIFE_LIFE_B : Fld :=
  ⟨2713, "STO_LIFE_LIFE_B", .sto, 0x100, 0, 1, 4, 4, .ro, false, 0, [], .free⟩

/-- STO_LIFE_PRE_EOL (R311). -/
def STO_LIFE_PRE_EOL : Fld :=
  ⟨2714, "STO_LIFE_PRE_EOL", .sto, 0x100, 0, 1, 8, 2, .ro, false, 0, [], .free⟩

/-- STO_LIFE_LINK_UP (R311). -/
def STO_LIFE_LINK_UP : Fld :=
  ⟨2715, "STO_LIFE_LINK_UP", .sto, 0x100, 0, 1, 10, 1, .ro, false, 0, [], .free⟩

/-- STO_WRITE_BUDGET_MIB_DAY (R311). -/
def STO_WRITE_BUDGET_MIB_DAY : Fld :=
  ⟨2716, "STO_WRITE_BUDGET_MIB_DAY", .sto, 0x104, 0, 1, 0, 16, .rw, false, 2048, [], .free⟩

/-- STO_WRITE_BUDGET_USED_MIB (R311). -/
def STO_WRITE_BUDGET_USED_MIB : Fld :=
  ⟨2717, "STO_WRITE_BUDGET_USED_MIB", .sto, 0x104, 0, 1, 16, 16, .ro, false, 0, [], .free⟩

/-- STO_MEDIA_ERRS_READ (R311). -/
def STO_MEDIA_ERRS_READ : Fld :=
  ⟨2718, "STO_MEDIA_ERRS_READ", .sto, 0x108, 0, 1, 0, 16, .ro, false, 0, [], .free⟩

/-- STO_MEDIA_ERRS_WRITE (R311). -/
def STO_MEDIA_ERRS_WRITE : Fld :=
  ⟨2719, "STO_MEDIA_ERRS_WRITE", .sto, 0x108, 0, 1, 16, 16, .ro, false, 0, [], .free⟩

/-- STO_CACHE_BASE_LO_ADDR_LO (R311). -/
def STO_CACHE_BASE_LO_ADDR_LO : Fld :=
  ⟨2720, "STO_CACHE_BASE_LO_ADDR_LO", .sto, 0x028, 0, 1, 16, 16, .rwa, false, 0, [], .free⟩

/-- STO_CACHE_BASE_HI_ADDR_HI (R311). -/
def STO_CACHE_BASE_HI_ADDR_HI : Fld :=
  ⟨2721, "STO_CACHE_BASE_HI_ADDR_HI", .sto, 0x02C, 0, 1, 0, 32, .rwa, false, 0, [], .free⟩

/-- STO_ORIGIN_LAT_LO_VALUE (R311). -/
def STO_ORIGIN_LAT_LO_VALUE : Fld :=
  ⟨2722, "STO_ORIGIN_LAT_LO_VALUE", .sto, 0x008, 0, 1, 0, 32, .rwa, false, 0, [], .free⟩

/-- STO_ORIGIN_LAT_HI_VALUE (R311). -/
def STO_ORIGIN_LAT_HI_VALUE : Fld :=
  ⟨2723, "STO_ORIGIN_LAT_HI_VALUE", .sto, 0x00C, 0, 1, 0, 32, .rwa, false, 0, [], .free⟩

/-- STO_ORIGIN_LON_LO_VALUE (R311). -/
def STO_ORIGIN_LON_LO_VALUE : Fld :=
  ⟨2724, "STO_ORIGIN_LON_LO_VALUE", .sto, 0x010, 0, 1, 0, 32, .rwa, false, 0, [], .free⟩

/-- STO_ORIGIN_LON_HI_VALUE (R311). -/
def STO_ORIGIN_LON_HI_VALUE : Fld :=
  ⟨2725, "STO_ORIGIN_LON_HI_VALUE", .sto, 0x014, 0, 1, 0, 32, .rwa, false, 0, [], .free⟩

/-! Register table of R312. -/

/-- JRN_STAT_EV_HEAD (R312). -/
def JRN_STAT_EV_HEAD : Fld :=
  ⟨2816, "JRN_STAT_EV_HEAD", .jrn, 0x000, 0, 1, 0, 19, .ro, false, 0, [], .free⟩

/-- JRN_OVF_OVF_LOST (R312). -/
def JRN_OVF_OVF_LOST : Fld :=
  ⟨2817, "JRN_OVF_OVF_LOST", .jrn, 0x004, 0, 1, 0, 32, .ro, false, 0, [], .free⟩

/-- JRN_PAGE_PEAK_COUNT (R312). -/
def JRN_PAGE_PEAK_COUNT : Fld :=
  ⟨2818, "JRN_PAGE_PEAK_COUNT", .jrn, 0x008, 0, 1, 0, 32, .ro, false, 0, [], .free⟩

/-- JRN_PAGE_IDX_PAGE (R312). -/
def JRN_PAGE_IDX_PAGE : Fld :=
  ⟨2819, "JRN_PAGE_IDX_PAGE", .jrn, 0x00C, 0, 1, 0, 13, .ro, false, 0, [], .free⟩

/-- JRN_BUDGET_NOW_COUNT (R312). -/
def JRN_BUDGET_NOW_COUNT : Fld :=
  ⟨2820, "JRN_BUDGET_NOW_COUNT", .jrn, 0x010, 0, 1, 0, 32, .ro, false, 0, [], .free⟩

/-! Register table of R442. -/

/-- UPD_STATUS_ACTIVE_BANK (R442). -/
def UPD_STATUS_ACTIVE_BANK : Fld :=
  ⟨2944, "UPD_STATUS_ACTIVE_BANK", .upd, 0x000, 0, 1, 0, 1, .ro, false, 0, [], .free⟩

/-- UPD_STATUS_TRIAL (R442). -/
def UPD_STATUS_TRIAL : Fld :=
  ⟨2945, "UPD_STATUS_TRIAL", .upd, 0x000, 0, 1, 1, 1, .ro, false, 0, [], .free⟩

/-- UPD_STATUS_PENDING (R442). -/
def UPD_STATUS_PENDING : Fld :=
  ⟨2946, "UPD_STATUS_PENDING", .upd, 0x000, 0, 1, 2, 1, .ro, false, 0, [], .free⟩

/-- UPD_STATUS_SLOT_A (R442). -/
def UPD_STATUS_SLOT_A : Fld :=
  ⟨2947, "UPD_STATUS_SLOT_A", .upd, 0x000, 0, 1, 6, 2, .ro, false, 0, [], .free⟩

/-- UPD_STATUS_SLOT_B (R442). -/
def UPD_STATUS_SLOT_B : Fld :=
  ⟨2948, "UPD_STATUS_SLOT_B", .upd, 0x000, 0, 1, 8, 2, .ro, false, 0, [], .free⟩

/-- UPD_STATUS_LAST_RESULT (R442). -/
def UPD_STATUS_LAST_RESULT : Fld :=
  ⟨2949, "UPD_STATUS_LAST_RESULT", .upd, 0x000, 0, 1, 10, 2, .ro, false, 0, [], .free⟩

/-- UPD_STATUS_SHORT_KIND (R442). -/
def UPD_STATUS_SHORT_KIND : Fld :=
  ⟨2950, "UPD_STATUS_SHORT_KIND", .upd, 0x000, 0, 1, 12, 1, .ro, false, 0, [], .free⟩

/-- UPD_STATUS_SHORT_CH (R442). -/
def UPD_STATUS_SHORT_CH : Fld :=
  ⟨2951, "UPD_STATUS_SHORT_CH", .upd, 0x000, 0, 1, 13, 7, .ro, false, 0, [], .free⟩

/-- UPD_VERSION_ACTIVE_VERSION (R442). -/
def UPD_VERSION_ACTIVE_VERSION : Fld :=
  ⟨2952, "UPD_VERSION_ACTIVE_VERSION", .upd, 0x004, 0, 1, 0, 32, .ro, false, 0, [], .free⟩

/-- UPD_VERSION_PREV_VERSION (R442). -/
def UPD_VERSION_PREV_VERSION : Fld :=
  ⟨2953, "UPD_VERSION_PREV_VERSION", .upd, 0x008, 0, 1, 0, 32, .ro, false, 0, [], .free⟩

/-- UPD_SVN_VENDOR_SVN (R442). -/
def UPD_SVN_VENDOR_SVN : Fld :=
  ⟨2954, "UPD_SVN_VENDOR_SVN", .upd, 0x00C, 0, 1, 0, 7, .ro, false, 0, [], .free⟩

/-- UPD_SVN_INT_SVN (R442). -/
def UPD_SVN_INT_SVN : Fld :=
  ⟨2955, "UPD_SVN_INT_SVN", .upd, 0x00C, 0, 1, 8, 7, .ro, false, 0, [], .free⟩

/-- UPD_BLOCKS_A_MISSING (R442). -/
def UPD_BLOCKS_A_MISSING : Fld :=
  ⟨2956, "UPD_BLOCKS_A_MISSING", .upd, 0x010, 0, 1, 0, 17, .ro, false, 0, [], .free⟩

/-- UPD_BLOCKS_B_MISSING (R442). -/
def UPD_BLOCKS_B_MISSING : Fld :=
  ⟨2957, "UPD_BLOCKS_B_MISSING", .upd, 0x014, 0, 1, 0, 17, .ro, false, 0, [], .free⟩

/-- UPD_PPS_PPS_A (R442). -/
def UPD_PPS_PPS_A : Fld :=
  ⟨2958, "UPD_PPS_PPS_A", .upd, 0x018, 0, 1, 0, 16, .ro, false, 0, [], .free⟩

/-- UPD_PPS_PPS_B (R442). -/
def UPD_PPS_PPS_B : Fld :=
  ⟨2959, "UPD_PPS_PPS_B", .upd, 0x018, 0, 1, 16, 16, .ro, false, 0, [], .free⟩

/-! Register table of R443. -/

/-- KSM_LC_STATE (R443). -/
def KSM_LC_STATE : Fld :=
  ⟨3072, "KSM_LC_STATE", .ksm, 0x000, 0, 1, 0, 3, .ro, false, 0, [], .free⟩

/-- KSM_LC_SEALED (R443). -/
def KSM_LC_SEALED : Fld :=
  ⟨3073, "KSM_LC_SEALED", .ksm, 0x000, 0, 1, 3, 1, .ro, false, 0, [], .free⟩

/-- KSM_LC_TRANSITIONS (R443). -/
def KSM_LC_TRANSITIONS : Fld :=
  ⟨3074, "KSM_LC_TRANSITIONS", .ksm, 0x000, 0, 1, 8, 8, .ro, false, 0, [], .free⟩

/-- KSM_KEYS_INT_SLOTS (R443). -/
def KSM_KEYS_INT_SLOTS : Fld :=
  ⟨3075, "KSM_KEYS_INT_SLOTS", .ksm, 0x004, 0, 1, 0, 4, .ro, false, 0, [], .free⟩

/-- KSM_KEYS_MEMBER_CERT (R443). -/
def KSM_KEYS_MEMBER_CERT : Fld :=
  ⟨3076, "KSM_KEYS_MEMBER_CERT", .ksm, 0x004, 0, 1, 4, 1, .ro, false, 0, [], .free⟩

/-- KSM_KEYS_ROOT (R443). -/
def KSM_KEYS_ROOT : Fld :=
  ⟨3077, "KSM_KEYS_ROOT", .ksm, 0x004, 0, 1, 5, 1, .ro, false, 0, [], .free⟩

/-- KSM_KEYS_DEVICE_KEY (R443). -/
def KSM_KEYS_DEVICE_KEY : Fld :=
  ⟨3078, "KSM_KEYS_DEVICE_KEY", .ksm, 0x004, 0, 1, 6, 1, .ro, false, 0, [], .free⟩

/-- KSM_LC_NONCE_NONCE (R443). -/
def KSM_LC_NONCE_NONCE : Fld :=
  ⟨3079, "KSM_LC_NONCE_NONCE", .ksm, 0x010, 4, 4, 0, 32, .ro, false, 0, [], .free⟩

/-! Register table of R460. -/

/-- HLM_CTRL_DARN_EN (R460). -/
def HLM_CTRL_DARN_EN : Fld :=
  ⟨3200, "HLM_CTRL_DARN_EN", .hlm, 0x000, 0, 1, 0, 1, .rw, false, 1, [], .free⟩

/-- HLM_CTRL_REPLAN_EN (R460). -/
def HLM_CTRL_REPLAN_EN : Fld :=
  ⟨3201, "HLM_CTRL_REPLAN_EN", .hlm, 0x000, 0, 1, 1, 1, .rw, false, 1, [], .free⟩

/-- HLM_CTRL_AVS_EN (R460). -/
def HLM_CTRL_AVS_EN : Fld :=
  ⟨3202, "HLM_CTRL_AVS_EN", .hlm, 0x000, 0, 1, 2, 1, .rw, false, 1, [], .free⟩

/-- HLM_CTRL_DRAM_PASS_H (R460). -/
def HLM_CTRL_DRAM_PASS_H : Fld :=
  ⟨3203, "HLM_CTRL_DRAM_PASS_H", .hlm, 0x000, 0, 1, 8, 8, .rw, false, 24, [], .clamp 1 168⟩

/-- HLM_CTRL_TM_PASS_MIN (R460). -/
def HLM_CTRL_TM_PASS_MIN : Fld :=
  ⟨3204, "HLM_CTRL_TM_PASS_MIN", .hlm, 0x000, 0, 1, 16, 8, .rw, false, 10, [], .clamp 1 60⟩

/-- HLM_CTRL_SAMPLE_S (R460). -/
def HLM_CTRL_SAMPLE_S : Fld :=
  ⟨3205, "HLM_CTRL_SAMPLE_S", .hlm, 0x000, 0, 1, 24, 8, .rw, false, 10, [], .free⟩

/-- HLM_REPLAN_REPLAN_H (R460). -/
def HLM_REPLAN_REPLAN_H : Fld :=
  ⟨3206, "HLM_REPLAN_REPLAN_H", .hlm, 0x004, 0, 1, 0, 8, .rw, false, 24, [], .clamp 1 255⟩

/-- HLM_REPLAN_SLACK_TARGET_PS (R460). -/
def HLM_REPLAN_SLACK_TARGET_PS : Fld :=
  ⟨3207, "HLM_REPLAN_SLACK_TARGET_PS", .hlm, 0x004, 0, 1, 16, 16, .rw, false, 150, [], .clamp 50 65535⟩

/-- HLM_DARN_STAT_DRAM_PROGRESS (R460). -/
def HLM_DARN_STAT_DRAM_PROGRESS : Fld :=
  ⟨3208, "HLM_DARN_STAT_DRAM_PROGRESS", .hlm, 0x008, 0, 1, 0, 10, .ro, false, 0, [], .free⟩

/-- HLM_DARN_STAT_TM_PROGRESS (R460). -/
def HLM_DARN_STAT_TM_PROGRESS : Fld :=
  ⟨3209, "HLM_DARN_STAT_TM_PROGRESS", .hlm, 0x008, 0, 1, 16, 10, .ro, false, 0, [], .free⟩

/-- HLM_DARN_PASSES_DRAM_PASSES (R460). -/
def HLM_DARN_PASSES_DRAM_PASSES : Fld :=
  ⟨3210, "HLM_DARN_PASSES_DRAM_PASSES", .hlm, 0x00C, 0, 1, 0, 12, .ro, false, 0, [], .free⟩

/-- HLM_DARN_PASSES_TM_PASSES (R460). -/
def HLM_DARN_PASSES_TM_PASSES : Fld :=
  ⟨3211, "HLM_DARN_PASSES_TM_PASSES", .hlm, 0x00C, 0, 1, 12, 12, .ro, false, 0, [], .free⟩

/-- HLM_DARN_PASSES_LATE_PASSES (R460). -/
def HLM_DARN_PASSES_LATE_PASSES : Fld :=
  ⟨3212, "HLM_DARN_PASSES_LATE_PASSES", .hlm, 0x00C, 0, 1, 24, 8, .ro, false, 0, [], .free⟩

/-- HLM_ECC_DRAM_CE (R460). -/
def HLM_ECC_DRAM_CE : Fld :=
  ⟨3213, "HLM_ECC_DRAM_CE", .hlm, 0x010, 0, 1, 0, 16, .ro, false, 0, [], .free⟩

/-- HLM_ECC_TM_CE (R460). -/
def HLM_ECC_TM_CE : Fld :=
  ⟨3214, "HLM_ECC_TM_CE", .hlm, 0x014, 0, 1, 0, 16, .ro, false, 0, [], .free⟩

/-- HLM_ECC_DRAM_UE (R460). -/
def HLM_ECC_DRAM_UE : Fld :=
  ⟨3215, "HLM_ECC_DRAM_UE", .hlm, 0x010, 0, 1, 16, 8, .ro, false, 0, [], .free⟩

/-- HLM_ECC_TM_UE (R460). -/
def HLM_ECC_TM_UE : Fld :=
  ⟨3216, "HLM_ECC_TM_UE", .hlm, 0x014, 0, 1, 16, 8, .ro, false, 0, [], .free⟩

/-- HLM_ECC_DRAM_ADDR (R460). -/
def HLM_ECC_DRAM_ADDR : Fld :=
  ⟨3217, "HLM_ECC_DRAM_ADDR", .hlm, 0x010, 0, 1, 24, 8, .ro, false, 0, [], .free⟩

/-- HLM_ECC_TM_ADDR (R460). -/
def HLM_ECC_TM_ADDR : Fld :=
  ⟨3218, "HLM_ECC_TM_ADDR", .hlm, 0x014, 0, 1, 24, 8, .ro, false, 0, [], .free⟩

/-- HLM_ECC_LAST_LO_ADDR (R460). -/
def HLM_ECC_LAST_LO_ADDR : Fld :=
  ⟨3219, "HLM_ECC_LAST_LO_ADDR", .hlm, 0x018, 0, 1, 0, 32, .rol, false, 0, [], .free⟩

/-- HLM_ECC_LAST_HI_ADDR (R460). -/
def HLM_ECC_LAST_HI_ADDR : Fld :=
  ⟨3220, "HLM_ECC_LAST_HI_ADDR", .hlm, 0x01C, 0, 1, 0, 32, .rol, false, 0, [], .free⟩

/-- HLM_ECC_LAST_INFO_MEMORY (R460). -/
def HLM_ECC_LAST_INFO_MEMORY : Fld :=
  ⟨3221, "HLM_ECC_LAST_INFO_MEMORY", .hlm, 0x020, 0, 1, 0, 1, .rol, false, 0, [], .free⟩

/-- HLM_ECC_LAST_INFO_IS_ADDR (R460). -/
def HLM_ECC_LAST_INFO_IS_ADDR : Fld :=
  ⟨3222, "HLM_ECC_LAST_INFO_IS_ADDR", .hlm, 0x020, 0, 1, 1, 1, .rol, false, 0, [], .free⟩

/-- HLM_ECC_LAST_INFO_SYNDROME (R460). -/
def HLM_ECC_LAST_INFO_SYNDROME : Fld :=
  ⟨3223, "HLM_ECC_LAST_INFO_SYNDROME", .hlm, 0x020, 0, 1, 2, 7, .rol, false, 0, [], .free⟩

/-- HLM_ECC_LAST_INFO_READER (R460). -/
def HLM_ECC_LAST_INFO_READER : Fld :=
  ⟨3224, "HLM_ECC_LAST_INFO_READER", .hlm, 0x020, 0, 1, 9, 3, .rol, false, 0, [], .free⟩

/-- HLM_REPAIR_TM_SPARES_USED (R460). -/
def HLM_REPAIR_TM_SPARES_USED : Fld :=
  ⟨3225, "HLM_REPAIR_TM_SPARES_USED", .hlm, 0x024, 0, 1, 0, 8, .ro, false, 0, [], .free⟩

/-- HLM_REPAIR_DRAM_RETIRED (R460). -/
def HLM_REPAIR_DRAM_RETIRED : Fld :=
  ⟨3226, "HLM_REPAIR_DRAM_RETIRED", .hlm, 0x024, 0, 1, 8, 16, .ro, false, 0, [], .free⟩

/-- HLM_TLM_DROPS_TLM_DROPS (R460). -/
def HLM_TLM_DROPS_TLM_DROPS : Fld :=
  ⟨3227, "HLM_TLM_DROPS_TLM_DROPS", .hlm, 0x054, 0, 1, 0, 16, .ro, false, 0, [], .free⟩

/-- HLM_TLM_DROPS_JRN_SUPPRESSED (R460). -/
def HLM_TLM_DROPS_JRN_SUPPRESSED : Fld :=
  ⟨3228, "HLM_TLM_DROPS_JRN_SUPPRESSED", .hlm, 0x054, 0, 1, 16, 16, .ro, false, 0, [], .free⟩

/-- HLM_VCORE_VCORE_MV (R460). -/
def HLM_VCORE_VCORE_MV : Fld :=
  ⟨3229, "HLM_VCORE_VCORE_MV", .hlm, 0x060, 0, 1, 0, 11, .ro, false, 700, [], .free⟩

/-- HLM_VCORE_FLOOR_MV (R460). -/
def HLM_VCORE_FLOOR_MV : Fld :=
  ⟨3230, "HLM_VCORE_FLOOR_MV", .hlm, 0x060, 0, 1, 16, 11, .ro, false, 700, [], .free⟩

/-- HLM_SLACK_MIN_SLACK_PS (R460). -/
def HLM_SLACK_MIN_SLACK_PS : Fld :=
  ⟨3231, "HLM_SLACK_MIN_SLACK_PS", .hlm, 0x064, 0, 1, 0, 16, .ro, false, 0, [], .free⟩

/-- HLM_LIFE_LIFE_PERMILLE (R460). -/
def HLM_LIFE_LIFE_PERMILLE : Fld :=
  ⟨3232, "HLM_LIFE_LIFE_PERMILLE", .hlm, 0x068, 0, 1, 0, 11, .ro, false, 0, [], .free⟩

/-- HLM_LIFE_OP_HOURS (R460). -/
def HLM_LIFE_OP_HOURS : Fld :=
  ⟨3233, "HLM_LIFE_OP_HOURS", .hlm, 0x068, 0, 1, 16, 16, .ro, false, 0, [], .free⟩

/-- HLM_RO_SLACK_PS (R460). -/
def HLM_RO_SLACK_PS : Fld :=
  ⟨3234, "HLM_RO_SLACK_PS", .hlm, 0x100, 4, 32, 0, 16, .ro, false, 0, [], .free⟩

/-- HLM_RO_BASE_PS (R460). -/
def HLM_RO_BASE_PS : Fld :=
  ⟨3235, "HLM_RO_BASE_PS", .hlm, 0x100, 4, 32, 16, 16, .ro, false, 0, (List.range 32).map Config.roBase, .free⟩

/-! Register table of R452. -/

/-- HLM_TLM_BASE_LO_ADDR_LO (R452). -/
def HLM_TLM_BASE_LO_ADDR_LO : Fld :=
  ⟨3236, "HLM_TLM_BASE_LO_ADDR_LO", .hlm, 0x040, 0, 1, 12, 20, .rwa, false, 0, [], .free⟩

/-- HLM_TLM_BASE_HI_ADDR_HI (R452). -/
def HLM_TLM_BASE_HI_ADDR_HI : Fld :=
  ⟨3237, "HLM_TLM_BASE_HI_ADDR_HI", .hlm, 0x044, 0, 1, 0, 32, .rwa, false, 0, [], .free⟩

/-- HLM_TLM_CFG_SIZE_LOG2 (R452). -/
def HLM_TLM_CFG_SIZE_LOG2 : Fld :=
  ⟨3238, "HLM_TLM_CFG_SIZE_LOG2", .hlm, 0x048, 0, 1, 0, 5, .rwa, false, 4, [], .outside 4 16 4⟩

/-- HLM_TLM_CFG_HOST (R452). -/
def HLM_TLM_CFG_HOST : Fld :=
  ⟨3239, "HLM_TLM_CFG_HOST", .hlm, 0x048, 0, 1, 8, 1, .rwa, false, 0, [], .free⟩

/-- HLM_TLM_CFG_ENABLE (R452). -/
def HLM_TLM_CFG_ENABLE : Fld :=
  ⟨3240, "HLM_TLM_CFG_ENABLE", .hlm, 0x048, 0, 1, 9, 1, .rw, true, 0, [], .free⟩

/-- HLM_TLM_HEAD_INDEX (R452). -/
def HLM_TLM_HEAD_INDEX : Fld :=
  ⟨3241, "HLM_TLM_HEAD_INDEX", .hlm, 0x04C, 0, 1, 0, 16, .rw, true, 0, [], .free⟩

/-- HLM_TLM_HEAD_PHASE (R452). -/
def HLM_TLM_HEAD_PHASE : Fld :=
  ⟨3242, "HLM_TLM_HEAD_PHASE", .hlm, 0x04C, 0, 1, 16, 1, .rw, true, 1, [], .free⟩

/-- HLM_TLM_WRITE_INDEX (R452). -/
def HLM_TLM_WRITE_INDEX : Fld :=
  ⟨3243, "HLM_TLM_WRITE_INDEX", .hlm, 0x050, 0, 1, 0, 16, .ro, false, 0, [], .free⟩

/-- HLM_TLM_WRITE_PHASE (R452). -/
def HLM_TLM_WRITE_PHASE : Fld :=
  ⟨3244, "HLM_TLM_WRITE_PHASE", .hlm, 0x050, 0, 1, 16, 1, .ro, false, 1, [], .free⟩

/-! Register table of R423. -/

/-- AOC_PWR_STATE_LAST (R423). -/
def AOC_PWR_STATE_LAST : Fld :=
  ⟨3328, "AOC_PWR_STATE_LAST", .aoc, 0x000, 0, 1, 0, 3, .ro, false, 0, [], .free⟩

/-- AOC_PWR_STATE_THROTTLED (R423). -/
def AOC_PWR_STATE_THROTTLED : Fld :=
  ⟨3329, "AOC_PWR_STATE_THROTTLED", .aoc, 0x000, 0, 1, 3, 1, .ro, false, 0, [], .free⟩

/-- AOC_PWR_STATE_SLEEP_ERR (R423). -/
def AOC_PWR_STATE_SLEEP_ERR : Fld :=
  ⟨3330, "AOC_PWR_STATE_SLEEP_ERR", .aoc, 0x000, 0, 1, 4, 4, .ro, false, 0, [], .free⟩

/-- AOC_PWR_STATE_BINDING (R423). -/
def AOC_PWR_STATE_BINDING : Fld :=
  ⟨3331, "AOC_PWR_STATE_BINDING", .aoc, 0x000, 0, 1, 8, 1, .ro, false, 0, [], .free⟩

/-- AOC_PWR_STATE_BIND_STEP (R423). -/
def AOC_PWR_STATE_BIND_STEP : Fld :=
  ⟨3332, "AOC_PWR_STATE_BIND_STEP", .aoc, 0x000, 0, 1, 9, 3, .ro, false, 0, [], .free⟩

/-- AOC_PWR_STATE_BIND_ABORTED (R423). -/
def AOC_PWR_STATE_BIND_ABORTED : Fld :=
  ⟨3333, "AOC_PWR_STATE_BIND_ABORTED", .aoc, 0x000, 0, 1, 12, 1, .rw1c, false, 0, [], .free⟩

/-- AOC_PWR_STATE_BIND_TIMEOUT (R423). -/
def AOC_PWR_STATE_BIND_TIMEOUT : Fld :=
  ⟨3334, "AOC_PWR_STATE_BIND_TIMEOUT", .aoc, 0x000, 0, 1, 13, 1, .rw1c, false, 0, [], .free⟩

/-- AOC_PWR_STATE_SUSPEND_TIMEOUT (R423). -/
def AOC_PWR_STATE_SUSPEND_TIMEOUT : Fld :=
  ⟨3335, "AOC_PWR_STATE_SUSPEND_TIMEOUT", .aoc, 0x000, 0, 1, 14, 1, .rw1c, false, 0, [], .free⟩

/-- AOC_PWR_STATE_RTC_VALID (R423). -/
def AOC_PWR_STATE_RTC_VALID : Fld :=
  ⟨3336, "AOC_PWR_STATE_RTC_VALID", .aoc, 0x000, 0, 1, 15, 1, .ro, false, 0, [], .free⟩

/-- AOC_WAKE_TOLERANCE_US (R423). -/
def AOC_WAKE_TOLERANCE_US : Fld :=
  ⟨3337, "AOC_WAKE_TOLERANCE_US", .aoc, 0x004, 0, 1, 0, 32, .rw, false, 50, [], .free⟩

/-- AOC_SLEEP_GO (R423). -/
def AOC_SLEEP_GO : Fld :=
  ⟨3338, "AOC_SLEEP_GO", .aoc, 0x008, 0, 1, 0, 1, .wo, true, 0, [], .free⟩

/-- AOC_SLEEP_BIND_NOW (R423). -/
def AOC_SLEEP_BIND_NOW : Fld :=
  ⟨3339, "AOC_SLEEP_BIND_NOW", .aoc, 0x008, 0, 1, 1, 1, .wo, true, 0, [], .free⟩

/-- AOC_SLEEP_SUSPEND_READY (R423). -/
def AOC_SLEEP_SUSPEND_READY : Fld :=
  ⟨3340, "AOC_SLEEP_SUSPEND_READY", .aoc, 0x008, 0, 1, 2, 1, .wo, true, 0, [], .free⟩

/-- AOC_WAKE_EN_IGN (R423). -/
def AOC_WAKE_EN_IGN : Fld :=
  ⟨3341, "AOC_WAKE_EN_IGN", .aoc, 0x00C, 0, 1, 0, 1, .ro, false, 1, [], .free⟩

/-- AOC_WAKE_CAUSE_IGN (R423). -/
def AOC_WAKE_CAUSE_IGN : Fld :=
  ⟨3342, "AOC_WAKE_CAUSE_IGN", .aoc, 0x010, 0, 1, 0, 1, .rol, false, 0, [], .free⟩

/-- AOC_WAKE_EN_RTC (R423). -/
def AOC_WAKE_EN_RTC : Fld :=
  ⟨3343, "AOC_WAKE_EN_RTC", .aoc, 0x00C, 0, 1, 1, 1, .rw, false, 0, [], .free⟩

/-- AOC_WAKE_CAUSE_RTC (R423). -/
def AOC_WAKE_CAUSE_RTC : Fld :=
  ⟨3344, "AOC_WAKE_CAUSE_RTC", .aoc, 0x010, 0, 1, 1, 1, .rol, false, 0, [], .free⟩

/-- AOC_WAKE_EN_CAN0 (R423). -/
def AOC_WAKE_EN_CAN0 : Fld :=
  ⟨3345, "AOC_WAKE_EN_CAN0", .aoc, 0x00C, 0, 1, 2, 1, .rw, false, 0, [], .free⟩

/-- AOC_WAKE_CAUSE_CAN0 (R423). -/
def AOC_WAKE_CAUSE_CAN0 : Fld :=
  ⟨3346, "AOC_WAKE_CAUSE_CAN0", .aoc, 0x010, 0, 1, 2, 1, .rol, false, 0, [], .free⟩

/-- AOC_WAKE_EN_CAN1 (R423). -/
def AOC_WAKE_EN_CAN1 : Fld :=
  ⟨3347, "AOC_WAKE_EN_CAN1", .aoc, 0x00C, 0, 1, 3, 1, .rw, false, 0, [], .free⟩

/-- AOC_WAKE_CAUSE_CAN1 (R423). -/
def AOC_WAKE_CAUSE_CAN1 : Fld :=
  ⟨3348, "AOC_WAKE_CAUSE_CAN1", .aoc, 0x010, 0, 1, 3, 1, .rol, false, 0, [], .free⟩

/-- AOC_WAKE_EN_ETH (R423). -/
def AOC_WAKE_EN_ETH : Fld :=
  ⟨3349, "AOC_WAKE_EN_ETH", .aoc, 0x00C, 0, 1, 4, 1, .rw, false, 0, [], .free⟩

/-- AOC_WAKE_CAUSE_ETH (R423). -/
def AOC_WAKE_CAUSE_ETH : Fld :=
  ⟨3350, "AOC_WAKE_CAUSE_ETH", .aoc, 0x010, 0, 1, 4, 1, .rol, false, 0, [], .free⟩

/-- AOC_WAKE_EN_XLK (R423). -/
def AOC_WAKE_EN_XLK : Fld :=
  ⟨3351, "AOC_WAKE_EN_XLK", .aoc, 0x00C, 0, 1, 5, 1, .rw, false, 0, [], .free⟩

/-- AOC_WAKE_CAUSE_XLK (R423). -/
def AOC_WAKE_CAUSE_XLK : Fld :=
  ⟨3352, "AOC_WAKE_CAUSE_XLK", .aoc, 0x010, 0, 1, 5, 1, .rol, false, 0, [], .free⟩

/-- AOC_WAKE_CAUSE_LOGIC (R423). -/
def AOC_WAKE_CAUSE_LOGIC : Fld :=
  ⟨3353, "AOC_WAKE_CAUSE_LOGIC", .aoc, 0x010, 0, 1, 6, 1, .rol, false, 0, [], .free⟩

/-- AOC_BIND_CFG_BIND_DELAY_S (R423). -/
def AOC_BIND_CFG_BIND_DELAY_S : Fld :=
  ⟨3354, "AOC_BIND_CFG_BIND_DELAY_S", .aoc, 0x014, 0, 1, 0, 10, .rw, false, 5, [], .outside 0 600 600⟩

/-- AOC_BIND_CFG_BIND_SAFE_MS (R423). -/
def AOC_BIND_CFG_BIND_SAFE_MS : Fld :=
  ⟨3355, "AOC_BIND_CFG_BIND_SAFE_MS", .aoc, 0x014, 0, 1, 10, 13, .rw, false, 500, [], .clamp 0 5000⟩

/-- AOC_BIND_CFG_BIND_TILE_MAX_S (R423). -/
def AOC_BIND_CFG_BIND_TILE_MAX_S : Fld :=
  ⟨3356, "AOC_BIND_CFG_BIND_TILE_MAX_S", .aoc, 0x014, 0, 1, 23, 7, .rw, false, 30, [], .clamp 1 127⟩

/-- AOC_PARK_CFG_DEEP_AFTER_MIN (R423). -/
def AOC_PARK_CFG_DEEP_AFTER_MIN : Fld :=
  ⟨3357, "AOC_PARK_CFG_DEEP_AFTER_MIN", .aoc, 0x018, 0, 1, 0, 16, .rw, false, 60, [], .free⟩

/-- AOC_PARK_CFG_IGN_DEBOUNCE_MS (R423). -/
def AOC_PARK_CFG_IGN_DEBOUNCE_MS : Fld :=
  ⟨3358, "AOC_PARK_CFG_IGN_DEBOUNCE_MS", .aoc, 0x018, 0, 1, 16, 12, .rw, false, 200, [], .clamp 10 4095⟩

/-- AOC_PARK_CFG_SUSPEND_S (R423). -/
def AOC_PARK_CFG_SUSPEND_S : Fld :=
  ⟨3359, "AOC_PARK_CFG_SUSPEND_S", .aoc, 0x018, 0, 1, 28, 4, .rw, false, 2, [], .clamp 1 15⟩

/-- AOC_CASTON_STAGE (R423). -/
def AOC_CASTON_STAGE : Fld :=
  ⟨3360, "AOC_CASTON_STAGE", .aoc, 0x01C, 0, 1, 0, 4, .ro, false, 1, [], .free⟩

/-- AOC_CASTON_HOST_READY (R423). -/
def AOC_CASTON_HOST_READY : Fld :=
  ⟨3361, "AOC_CASTON_HOST_READY", .aoc, 0x01C, 0, 1, 4, 1, .wo, true, 0, [], .free⟩

/-- AOC_CASTON_SEAL_USED (R423). -/
def AOC_CASTON_SEAL_USED : Fld :=
  ⟨3362, "AOC_CASTON_SEAL_USED", .aoc, 0x01C, 0, 1, 5, 1, .ro, false, 0, [], .free⟩

/-- AOC_CASTON_LAST_MS (R423). -/
def AOC_CASTON_LAST_MS : Fld :=
  ⟨3363, "AOC_CASTON_LAST_MS", .aoc, 0x01C, 0, 1, 16, 16, .ro, false, 0, [], .free⟩

/-- AOC_RESET_KIND (R423). -/
def AOC_RESET_KIND : Fld :=
  ⟨3364, "AOC_RESET_KIND", .aoc, 0x020, 0, 1, 0, 2, .wo, true, 0, [], .free⟩

/-- AOC_RESET_WIPE (R423). -/
def AOC_RESET_WIPE : Fld :=
  ⟨3365, "AOC_RESET_WIPE", .aoc, 0x020, 0, 1, 2, 1, .wo, true, 0, [], .free⟩

/-- AOC_RESET_CONFIRM (R423). -/
def AOC_RESET_CONFIRM : Fld :=
  ⟨3366, "AOC_RESET_CONFIRM", .aoc, 0x020, 0, 1, 8, 8, .wo, true, 0, [], .free⟩

/-- AOC_RESET_CAUSE_KIND (R423). -/
def AOC_RESET_CAUSE_KIND : Fld :=
  ⟨3367, "AOC_RESET_CAUSE_KIND", .aoc, 0x024, 0, 1, 0, 2, .rol, false, 0, [], .free⟩

/-- AOC_RESET_CAUSE_SOURCE (R423). -/
def AOC_RESET_CAUSE_SOURCE : Fld :=
  ⟨3368, "AOC_RESET_CAUSE_SOURCE", .aoc, 0x024, 0, 1, 2, 4, .rol, false, 0, [], .free⟩

/-- AOC_SUPPLY_LOGIC_100MV (R423). -/
def AOC_SUPPLY_LOGIC_100MV : Fld :=
  ⟨3369, "AOC_SUPPLY_LOGIC_100MV", .aoc, 0x028, 0, 1, 0, 10, .ro, false, 0, [], .free⟩

/-- AOC_SUPPLY_IGN_100MV (R423). -/
def AOC_SUPPLY_IGN_100MV : Fld :=
  ⟨3370, "AOC_SUPPLY_IGN_100MV", .aoc, 0x028, 0, 1, 16, 10, .ro, false, 0, [], .free⟩

/-- AOC_SUPPLY_IGN_LEVEL (R423). -/
def AOC_SUPPLY_IGN_LEVEL : Fld :=
  ⟨3371, "AOC_SUPPLY_IGN_LEVEL", .aoc, 0x028, 0, 1, 26, 1, .ro, false, 0, [], .free⟩

/-- AOC_WDOG_TIMEOUT_MS (R423). -/
def AOC_WDOG_TIMEOUT_MS : Fld :=
  ⟨3372, "AOC_WDOG_TIMEOUT_MS", .aoc, 0x02C, 0, 1, 0, 16, .rw, false, 0, [], .free⟩

/-- AOC_WDOG_KICK (R423). -/
def AOC_WDOG_KICK : Fld :=
  ⟨3373, "AOC_WDOG_KICK", .aoc, 0x02C, 0, 1, 16, 1, .wo, true, 0, [], .free⟩

/-- AOC_RTC_LO_VALUE (R423). -/
def AOC_RTC_LO_VALUE : Fld :=
  ⟨3374, "AOC_RTC_LO_VALUE", .aoc, 0x030, 0, 1, 0, 32, .ro, false, 0, [], .free⟩

/-- AOC_RTC_HI_VALUE (R423). -/
def AOC_RTC_HI_VALUE : Fld :=
  ⟨3375, "AOC_RTC_HI_VALUE", .aoc, 0x034, 0, 1, 0, 32, .ro, false, 0, [], .free⟩

/-- AOC_ALARM_LO_VALUE (R423). -/
def AOC_ALARM_LO_VALUE : Fld :=
  ⟨3376, "AOC_ALARM_LO_VALUE", .aoc, 0x038, 0, 1, 0, 32, .rw, false, 0, [], .free⟩

/-- AOC_ALARM_HI_VALUE (R423). -/
def AOC_ALARM_HI_VALUE : Fld :=
  ⟨3377, "AOC_ALARM_HI_VALUE", .aoc, 0x03C, 0, 1, 0, 32, .rw, false, 0, [], .free⟩

/-- AOC_RESUME_LO_VALUE (R423). -/
def AOC_RESUME_LO_VALUE : Fld :=
  ⟨3378, "AOC_RESUME_LO_VALUE", .aoc, 0x040, 0, 1, 0, 32, .rw, false, 0, [], .free⟩

/-- AOC_RESUME_HI_VALUE (R423). -/
def AOC_RESUME_HI_VALUE : Fld :=
  ⟨3379, "AOC_RESUME_HI_VALUE", .aoc, 0x044, 0, 1, 0, 32, .rw, false, 0, [], .free⟩

/-! The MSI-X window of R42: 128 table entries of four words, and the pending bits. The layout of an entry is that of the
PCI Express standard that R362 names (PRESUMED, log entry 119; unsafe). -/

/-- Message address, low word. -/
def MSIX_ADDR_LO : Fld := ⟨3840, "MSIX_ADDR_LO", .msix, 0x0000, 16, 128, 0, 32, .rw, false, 0, [], .free⟩

/-- Message address, high word. -/
def MSIX_ADDR_HI : Fld := ⟨3841, "MSIX_ADDR_HI", .msix, 0x0004, 16, 128, 0, 32, .rw, false, 0, [], .free⟩

/-- Message data. -/
def MSIX_DATA : Fld := ⟨3842, "MSIX_DATA", .msix, 0x0008, 16, 128, 0, 32, .rw, false, 0, [], .free⟩

/-- Vector control: the vector is masked. -/
def MSIX_MASK : Fld := ⟨3843, "MSIX_MASK", .msix, 0x000C, 16, 128, 0, 1, .rw, false, 1, [], .free⟩

/-- Pending bits, 32 vectors a word. -/
def MSIX_PENDING : Fld := ⟨3844, "MSIX_PENDING", .msix, 0x8000, 4, 4, 0, 32, .ro, false, 0, [], .free⟩

end R

/-- The fields of a block's window, in the order of its tables. -/
def blkFields : Blk → List Fld
  | .arb => [R.ARB_INFO_REQ_COUNT, R.ARB_INFO_DOMAIN, R.ARB_INFO_KIND, R.ARB_INFO_INDEX, R.ARB_LIMITS_TENURE_MAX, R.ARB_LIMITS_EMERG_MAX, R.ARB_EMERG_EMERG_SPACING, R.ARB_EMERG_EMERG_ENABLED, R.ARB_STAT_HOLDER, R.ARB_STAT_BUSY, R.ARB_STAT_EMERG_ACTIVE, R.ARB_STAT_TOP_RANK] ++
    [R.ARB_PREEMPT_COUNT_COUNT, R.ARB_DEAD_COUNT_COUNT, R.ARB_TICKET_PEAK_TICKET, R.ARB_TICKET_PEAK_REQUESTER, R.ARB_CLEAR_CLEAR_COUNTS]
  | .rng => [R.RING_BASE_LO_ADDR_LO, R.RING_BASE_HI_ADDR_HI, R.RING_CFG_SIZE_LOG2, R.RING_CFG_CLASS, R.RING_CFG_CQ, R.RING_CFG_HOST, R.RING_CTRL_ENABLE, R.RING_CTRL_IDLE, R.RING_CTRL_ERROR, R.RING_CTRL_ERR_CODE, R.RING_HEAD_INDEX, R.RING_TAIL_INDEX] ++
    [R.RING_HEAD_PHASE, R.RING_TAIL_PHASE, R.RING_COUNT_OUTSTANDING, R.RING_NOOP_ABORT_NOOP, R.RING_NOOP_DB_DISCARD]
  | .cqr => [R.CQ_CFG_SIZE_LOG2, R.CQ_CFG_HOST, R.CQ_CFG_IRQ_EN, R.CQ_CFG_VECTOR, R.CQ_CTRL_ENABLE, R.CQ_WRITE_INDEX, R.CQ_HEAD_INDEX, R.CQ_WRITE_PHASE, R.CQ_HEAD_PHASE, R.CQ_MOD_COUNT, R.CQ_MOD_DELAY, R.CQ_FREE_FREE] ++
    [R.CQ_BASE_LO_ADDR_LO, R.CQ_BASE_HI_ADDR_HI]
  | .til => [R.TIL_SEQ_NEXT_SEQ, R.TIL_QUEUE_FREE, R.TIL_QUEUE_SERVICE_MASKED, R.TIL_ABORTS_LATE, R.TIL_ABORTS_ABORTED]
  | .tke => [R.TKE_TICK_PERIOD_PERIOD_US, R.TKE_COMMIT_OFFSET_OFFSET_US, R.TKE_TICK_PHASE_PHASE_NS, R.TKE_ALIGN_ALIGN_EN, R.TKE_ALIGN_SLEW_FC, R.TKE_ALIGN_STATE, R.TKE_ALIGN_ERR_ERR_NS, R.TKE_CTRL_ARM, R.TKE_CTRL_ARMED, R.TKE_CTRL_FALLBACK_ACTIVE, R.TKE_CTRL_STOPPED, R.TKE_CTRL_ARM_ERR] ++
    [R.TKE_ROW_LO_ROW, R.TKE_ROW_HI_ROW, R.TKE_OVERRUN_TOTAL, R.TKE_OVERRUN_CONSEC, R.TKE_OVERRUN_LAST_CAUSE, R.TKE_PEAK_FC, R.TKE_EPOCH_EPOCH, R.TKE_TABLE_STATE_LIVE_BUF, R.TKE_TABLE_STATE_PENDING_BUF, R.TKE_TABLE_STATE_LOADING_BUF, R.TKE_TABLE_STATE_SUPERSEDED, R.TKE_LOCKSTEP_MASKED] ++
    [R.TKE_LOCKSTEP_DISAGREE_COUNT, R.TKE_RREC_CFG_SIZE_LOG2, R.TKE_RREC_CFG_HOST, R.TKE_RREC_CFG_ENABLE, R.TKE_RREC_CFG_DROPPED, R.TKE_RREC_HEAD_INDEX, R.TKE_RREC_WRITE_INDEX, R.TKE_RREC_HEAD_PHASE, R.TKE_RREC_WRITE_PHASE, R.TKE_RREC_BASE_LO_ADDR_LO, R.TKE_RREC_BASE_HI_ADDR_HI, R.TKE_COST_MAIN_FC] ++
    [R.TKE_COST_FALLBACK_FC, R.TKE_BUDGET_FC]
  | .sps => [R.SPS_CTRL_WARM_EN, R.SPS_STATUS_OUTCOME, R.SPS_STATUS_FEAS_ITER, R.SPS_STATUS_REGION, R.SPS_STATUS_ENV_CONFLICT, R.SPS_STATUS_RATE_YIELD, R.SPS_STATUS_REGION_CHANGED, R.SPS_STATUS_NUMERIC, R.SPS_STATUS_WARM, R.SPS_SOLVE_FC_FC, R.SPS_SOLVE_ROW_LO_ROW, R.SPS_SOLVE_ROW_HI_ROW] ++
    [R.SPS_COUNTS_FEASIBLE, R.SPS_COUNTS_FALLBACK, R.SPS_RESID_PRI_VALUE, R.SPS_RESID_DUA_VALUE, R.SPS_QUAL_STALE_STALE, R.SPS_QUAL_FUTURE_COUNT, R.SPS_YIELD_MASK_SLOTS, R.SPS_SET_ID_LO_SET_ID, R.SPS_SET_ID_HI_SET_ID, R.SPS_QUAL_CFG_MAX_AGE_MS, R.SPS_QUAL_CFG_SOURCE, R.SPS_SETPOINT_VALUE] ++
    [R.SPS_OP_LO_VALUE, R.SPS_OP_HI_VALUE, R.SPS_QUAL_VALUE_VALUE]
  | .fnl => [R.FNL_FB_FAULT_SLOTS, R.FNL_SAT_SLOTS, R.FNL_OUT_VALUE, R.FNL_SP_VALUE]
  | .sfe => [R.SFE_CTRL_BG_CAL_EN, R.SFE_CTRL_LIVE_BANK, R.SFE_CTRL_PENDING, R.SFE_CTRL_PENDING_BANK, R.SFE_IMP_EVENTS_CLIPPED, R.SFE_IMP_EVENTS_STUCK, R.SFE_QUAD_ERRS_COUNT, R.SFE_QUAD_ZERO_PAIR, R.SFE_SSUP_STAT_FAULT, R.SFE_SSUP_STAT_LATCHED, R.SFE_SSUP_STAT_TRIPPED, R.SFE_CAL_CFG_PERIOD_S] ++
    [R.SFE_CAL_STAT_RETIRED, R.SFE_CAL_STAT_SWAPS, R.SFE_ZT_CFG_EN, R.SFE_ZT_CFG_MEASURE, R.SFE_ZT_CFG_COND_GIN, R.SFE_ZT_CFG_COND_LEVEL, R.SFE_ZT_TIMES_SETTLE_MS, R.SFE_ZT_TIMES_WINDOW_MS, R.SFE_ZT_STEP_ZT_STEP, R.SFE_ZT_STAT_ACCEPTED, R.SFE_ZT_STAT_REJECTED, R.SFE_LOST_IMP_LO_LOST] ++
    [R.SFE_LOST_IMP_HI_LOST, R.SFE_LOST_GIN_LO_LOST, R.SFE_LOST_GIN_HI_LOST, R.SFE_IMP_CFG_EN, R.SFE_IMP_CFG_GAIN, R.SFE_IMP_CFG_PROFILE, R.SFE_IMP_CFG_TRIG, R.SFE_IMP_CFG_HOLD_OFF, R.SFE_IMP_CFG_SUPPLY, R.SFE_FRQ_CFG_EN, R.SFE_FRQ_CFG_MODE, R.SFE_FRQ_CFG_QUAD] ++
    [R.SFE_FRQ_CFG_THRESH, R.SFE_FRQ_CFG_MIN_PULSE, R.SFE_FRQ_CFG_TIMEOUT_10MS, R.SFE_FRQ_CFG_SUPPLY, R.SFE_GIN_CFG_MODE, R.SFE_GIN_CFG_PULL, R.SFE_GIN_CFG_SUPPLY, R.SFE_GIN_CFG_FILT_MS, R.SFE_GIN_CFG_DEBOUNCE_MS, R.SFE_GIN_CFG_DIG_THRESH, R.SFE_GIN_WIN_VALID_LO, R.SFE_GIN_WIN_VALID_HI] ++
    [R.SFE_LCL_CFG_EN, R.SFE_SSUP_CFG_EN, R.SFE_LCL_CFG_RANGE, R.SFE_SSUP_CFG_VOLT, R.SFE_RULE_WORD, R.SFE_EST_KIND, R.SFE_EST_IN1_CLASS, R.SFE_EST_IN1_INDEX, R.SFE_EST_IN2_CLASS, R.SFE_EST_IN2_INDEX, R.SFE_EST_MASK_LO, R.SFE_EST_MASK_HI] ++
    [R.SFE_EST_A, R.SFE_EST_B, R.SFE_EST_C, R.SFE_EST_X2_REF, R.SFE_EST_TAU]
  | .dbk => [R.DBK_C7_BNR_BOOST_NOT_READY, R.DBK_C7_VBST_VBST_MEAS, R.DBK_C7_VBST_VBST_SET, R.DBK_C7_OUT_ON, R.DBK_C7_OUT_FAULT, R.DBK_CTRL_ENABLE, R.DBK_CTRL_CHECK, R.DBK_CTRL_ADMITTED, R.DBK_CTRL_SCG_CUT, R.DBK_CTRL_FAIL_B, R.DBK_CTRL_FAIL_H, R.DBK_BOOST_SET_VBST_CODE] ++
    [R.DBK_VBST_MEAS, R.DBK_VBST_READY, R.DBK_STATUS_HSV_CH, R.DBK_STATUS_HSV_ON, R.DBK_STATUS_HSB_ON, R.DBK_STATUS_WAITING, R.DBK_STATUS_BANK_FAULT, R.DBK_STATUS_LATCHED, R.DBK_DERATE_BOOST_MA, R.DBK_DERATE_PEAK_MA, R.DBK_STAGE_MISS_COUNT, R.DBK_CH_CFG_MODE] ++
    [R.DBK_CH_CFG_OWNER, R.DBK_CH_CFG_DECAY, R.DBK_CH_CFG_REG, R.DBK_CH_CFG_REG_KHZ, R.DBK_CH_CFG_MOVE_EN, R.DBK_CH_CFG_BOOST_WAIT, R.DBK_CH_BOOST_I_BOOST_MA, R.DBK_CH_BOOST_T_BOOST_US, R.DBK_CH_PEAK_I_PEAK_MA, R.DBK_CH_PEAK_T_PEAK_US, R.DBK_CH_HOLD_I_HOLD_MA, R.DBK_CH_HOLD_HOLD_FLOOR_MA] ++
    [R.DBK_CH_PROP_DITHER_HZ, R.DBK_CH_PROP_DITHER_MA, R.DBK_CH_PROP_PWM_KHZ, R.DBK_CH_FLOOR_PROP_REF_MA, R.DBK_CH_FLOOR_DECAY, R.DBK_CH_MOVE_CFG_BLANK, R.DBK_CH_MOVE_CFG_DIP_MA, R.DBK_CH_DIAG_CFG_OPEN_MA, R.DBK_CH_DIAG_CFG_OFF_DIAG_EN, R.DBK_CH_SHOT_SHOT_US, R.DBK_CH_SHOT_MIN_GAP_US, R.DBK_CH_STAT_PHASE] ++
    [R.DBK_CH_STAT_FORCED, R.DBK_CH_STAT_FAULT, R.DBK_CH_STAT_LATCHED, R.DBK_CH_STAT_CLAMPED, R.DBK_CH_STAT_I_MA, R.DBK_CH_MOVE_MOVE_TIME, R.DBK_CH_MOVE_NO_MOVE, R.DBK_CH_MOVE_VALID, R.DBK_CH_MOVE_SHOTS, R.DBK_CH_LAST_SHIFT, R.DBK_CH_LAST_VBST_LOW, R.DBK_CH_LAST_VBST_AT_START] ++
    [R.DBK_CH_COUNTS_FLOOR_HITS, R.DBK_CH_COUNTS_DROPPED, R.DBK_CH_DECAY_MEAS_DECAY]
  | .sbk => [R.SBK_CTRL_ENABLE, R.SBK_STATUS_ON, R.SBK_STATUS_LATCHED, R.SBK_STATUS_SHED, R.SBK_STATUS_UV, R.SBK_STAGE_MISS_COUNT, R.SBK_FEED_UV_UV_CODE, R.SBK_FEED_UV_UV_HYST, R.SBK_FEED_UV_RESTART_10MS, R.SBK_FEED_LIMIT_LIMIT_A, R.SBK_FEED_MEAS_V_100MV, R.SBK_FEED_MEAS_I_A] ++
    [R.SBK_CH_CFG_MODE, R.SBK_CH_CFG_OWNER, R.SBK_CH_CFG_PAR, R.SBK_CH_CFG_WPROF, R.SBK_CH_CFG_FUSE_PCT, R.SBK_CH_CFG_PWM_HZ, R.SBK_CH_PROT_POLICY, R.SBK_CH_PROT_RETRY_MAX, R.SBK_CH_PROT_RETRY_WINDOW_S, R.SBK_CH_PROT_SHED_RANK, R.SBK_CH_OL_OL_MA, R.SBK_CH_OL_OL_EN] ++
    [R.SBK_CH_OL_OL_DEBOUNCE_MS, R.SBK_CH_STAT_STATE, R.SBK_CH_STAT_TRIPPED, R.SBK_CH_STAT_THERM_LATCH, R.SBK_CH_STAT_LOCKED, R.SBK_CH_STAT_UV_OFF, R.SBK_CH_STAT_SHED, R.SBK_CH_STAT_OPEN_LOAD, R.SBK_CH_STAT_IN_LIMIT, R.SBK_CH_STAT_TRIP_CAUSE, R.SBK_CH_STAT_RETRIES_USED, R.SBK_CH_STAT_I_10MA] ++
    [R.SBK_CH_MODEL_THETA, R.SBK_CH_MODEL_TJ, R.SBK_CH_COUNTS_TRIPS, R.SBK_CH_COUNTS_THERM_LATCHES, R.SBK_CH_COUNTS_RESTARTS, R.SBK_CH_COUNTS_OPEN_LOADS]
  | .pps => [R.PPS_CTRL_ARM, R.PPS_CTRL_ARMED, R.PPS_CTRL_SAFE_NOW, R.PPS_CTRL_CLEAR_BID, R.PPS_CTRL_ARM_ERR, R.PPS_STATUS_HOLDING, R.PPS_STATUS_SAFE_ACTIVE, R.PPS_STATUS_SOURCE, R.PPS_STATUS_TICK_US, R.PPS_HIGHEST_BID, R.PPS_LAST_ROW_LO_ROW, R.PPS_LAST_ROW_HI_ROW] ++
    [R.PPS_FENCES_OWN, R.PPS_FENCES_PARTNER, R.PPS_HOLD_EVENTS_HOLD_EXPIRIES, R.PPS_HOLD_EVENTS_HOLD_RESUMES, R.PPS_DRV_HOLD_ROWS, R.PPS_SW_HOLD_ROWS, R.PPS_DRV_SAFE, R.PPS_SW_SAFE, R.PPS_DRV_SAFE_VALUE, R.PPS_SW_SAFE_VALUE]
  | .xlk => [R.XLK_PAIR_CFG_PAIR_EN, R.XLK_PAIR_CFG_SIDE, R.XLK_PAIR_CFG_ALONE_OK, R.XLK_PAIR_CFG_PRIORITY, R.XLK_PAIR_CFG_HB_MISS, R.XLK_RESYNC_ROWS_ROWS, R.XLK_PAIR_ID_PAIR_ID, R.XLK_ROLE_ROLE, R.XLK_ROLE_PARTNER_LOST, R.XLK_ROLE_LINK_UP, R.XLK_ROLE_MISSED, R.XLK_ROLE_MATCH_ROWS] ++
    [R.XLK_BID_BID, R.XLK_COUNTS_MISMATCHES, R.XLK_COUNTS_TAKEOVERS, R.XLK_COUNTS_FENCED_OUT, R.XLK_BAD_FRAMES_COUNT, R.XLK_PEER_HEALTH_WORD]
  | .nav => [R.NAV_CTRL_EN, R.NAV_CTRL_ANT_B_EN, R.NAV_CTRL_HEADING_EN, R.NAV_CTRL_RTK_EN, R.NAV_CTRL_SBAS_EN, R.NAV_CTRL_IMU_EN, R.NAV_CTRL_ACQ_MODE, R.NAV_CTRL_PULSE_KEEP, R.NAV_CTRL_TP_PP_EN, R.NAV_CTRL_TP_422_EN, R.NAV_CTRL_TP_POL, R.NAV_SIG_EN_SIG] ++
    [R.NAV_STATE_TIME_STATE, R.NAV_STATE_FIX, R.NAV_STATE_HEADING_VALID, R.NAV_STATE_START_KIND, R.NAV_STATE_SATS, R.NAV_STATE_TRK_A, R.NAV_STATE_TRK_B, R.NAV_TIME_UNC_NS, R.NAV_TIME_ERR_NS, R.NAV_HO_LIMITS_HOLDOVER_LIMIT, R.NAV_HO_LIMITS_SLEW_LIMIT, R.NAV_TP_CFG_TP_PERIOD] ++
    [R.NAV_TP_WIDTH_TP_WIDTH, R.NAV_CABLE_A_DELAY, R.NAV_CABLE_B_DELAY, R.NAV_TP_NEXT_LO_TIME, R.NAV_TP_LAST_LO_TIME, R.NAV_TP_NEXT_HI_TIME, R.NAV_TP_LAST_HI_TIME, R.NAV_TP_STAT_SEQ, R.NAV_TP_STAT_EMITTED, R.NAV_TP_STAT_STEP, R.NAV_TP_STAT_HOLDOVER, R.NAV_TP_STAT_SLEWING] ++
    [R.NAV_TP_STAT_STEP_COUNT, R.NAV_RTK_CFG_CORR_MAX_AGE_S, R.NAV_RTK_CFG_ELEV_MASK, R.NAV_RTK_CFG_SOL_HZ, R.NAV_RTK_CFG_DR_MAX_S, R.NAV_BASELINE_BASELINE_MM, R.NAV_BASELINE_BASE_TOL_MM, R.NAV_MOUNT_RP_MOUNT_ROLL, R.NAV_MOUNT_RP_MOUNT_PITCH, R.NAV_MOUNT_Y_MOUNT_YAW, R.NAV_ANT_ANT_VOLT_A, R.NAV_ANT_OPEN_A] ++
    [R.NAV_ANT_SHORT_A, R.NAV_ANT_TIME_ANT_B, R.NAV_ANT_ANT_VOLT_B, R.NAV_ANT_OPEN_B, R.NAV_ANT_SHORT_B, R.NAV_LEAP_LEAP_S, R.NAV_LEAP_LEAP_VALID, R.NAV_LEAP_SAVE_BAD, R.NAV_RTCM_ERRS_COUNT, R.NAV_CORR_SPACING]
  | .cam => [R.CAM_CTRL_EN, R.CAM_CTRL_PWR_EN, R.CAM_CTRL_FSYNC_EN, R.CAM_CTRL_LINK_UP, R.CAM_CTRL_GEAR, R.CAM_CTRL_PWR_FAULT, R.CAM_CTRL_ERR, R.CAM_FORMAT_DATA_TYPE, R.CAM_FORMAT_MOSAIC, R.CAM_FORMAT_PHASE, R.CAM_FORMAT_SENSOR_DELAY, R.CAM_FORMAT_I2C_ADDR] ++
    [R.CAM_SIZE_WIDTH, R.CAM_SIZE_HEIGHT, R.CAM_RAW_SLOT_SLOT_4K, R.CAM_RAW_SLOT_SLOT_COUNT, R.CAM_FSYNC_PERIOD_US, R.CAM_FSYNC_PHASE_PHASE_US, R.CAM_FRAME_FRAME_NO, R.CAM_DROPS_NO_SLOT, R.CAM_DROPS_REUSED, R.CAM_LOSS_OVERFLOWS, R.CAM_LOSS_NO_JOB, R.CAM_PKT_HDR_ERRS] ++
    [R.CAM_PKT_IGNORED, R.CAM_RAW_BASE_LO_ADDR_LO, R.CAM_RAW_BASE_HI_ADDR_HI]
  | .isp => [R.ISP_STAT_LOAD, R.ISP_STAT_CUR_PORT, R.ISP_STAT_BUSY, R.ISP_STAT_READY]
  | .vxa => [R.VXA_STAT_BUSY, R.VXA_STAT_URGENT_RUN, R.VXA_STAT_QUEUED, R.VXA_NET_ID_LO_NET_ID, R.VXA_NET_ID_HI_NET_ID, R.VXA_COUNTS_JOBS, R.VXA_COUNTS_ECC_FATAL]
  | .can => [R.CAN_CTRL_EN, R.CAN_CTRL_MODE, R.CAN_CTRL_FD_EN, R.CAN_CTRL_TERM_EN, R.CAN_CTRL_RECOVER, R.CAN_CTRL_TDC_EN, R.CAN_CTRL_ERR, R.CAN_NBT_NTSEG1, R.CAN_NBT_NTSEG2, R.CAN_NBT_NSJW, R.CAN_NBT_NBRP, R.CAN_DBT_DTSEG1] ++
    [R.CAN_DBT_DTSEG2, R.CAN_DBT_DSJW, R.CAN_DBT_DBRP, R.CAN_DBT_TDCO, R.CAN_TX_CFG_RING, R.CAN_TX_CFG_ORDER, R.CAN_TX_CFG_RETRY_LIMIT, R.CAN_TX_CFG_DEFAULT_ACT, R.CAN_STATUS_STATE, R.CAN_STATUS_TXB_BUSY, R.CAN_STATUS_STAGED, R.CAN_ERR_CNT_TEC] ++
    [R.CAN_ERR_CNT_REC, R.CAN_ERR_CNT_BUS_OFFS, R.CAN_COUNTS_RX_DROPS, R.CAN_COUNTS_SATURATED, R.CAN_STAGE_CNT_STAGE_DROPS, R.CAN_STAGE_CNT_STAGE_FAILS, R.CAN_RXQ_CFG_SIZE_LOG2, R.CAN_RXQ_CFG_HOST, R.CAN_RXQ_CFG_ENABLE, R.CAN_RXQ_HEAD_INDEX, R.CAN_RXQ_WRITE_INDEX, R.CAN_RXQ_HEAD_PHASE] ++
    [R.CAN_RXQ_WRITE_PHASE, R.CAN_FLT_VALUE_WORD, R.CAN_FLT_MASK_WORD, R.CAN_FLT_ACT, R.CAN_RXQ_BASE_LO_ADDR_LO, R.CAN_RXQ_BASE_HI_ADDR_HI]
  | .eth => [R.ETH_CTRL_EN, R.ETH_CTRL_MASTER, R.ETH_CTRL_MCAST_EN, R.ETH_CTRL_PROMISC, R.ETH_CTRL_GPTP_EN, R.ETH_CTRL_SLEEP, R.ETH_CTRL_WAKE, R.ETH_CTRL_WAKE_EN, R.ETH_CTRL_PLCA_EN, R.ETH_CTRL_PLCA_ID, R.ETH_CTRL_PLCA_COUNT, R.ETH_STATUS_LINK_UP] ++
    [R.ETH_STATUS_ASLEEP, R.ETH_STATUS_GM, R.ETH_STATUS_FCS_ERRS, R.ETH_MAC_LO_MAC, R.ETH_MAC_HI_MAC, R.ETH_GPTP_PRIORITY1, R.ETH_GPTP_PRIORITY2, R.ETH_GPTP_OFFSET_NS, R.ETH_DROPS_RX_DROPS, R.ETH_RXQ_BASE_LO_ADDR_LO, R.ETH_RXQ_BASE_HI_ADDR_HI, R.ETH_RXQ_CFG_SIZE_LOG2] ++
    [R.ETH_RXQ_CFG_HOST, R.ETH_RXQ_CFG_ENABLE, R.ETH_RXQ_HEAD_INDEX, R.ETH_RXQ_HEAD_PHASE, R.ETH_RXQ_WRITE_INDEX, R.ETH_RXQ_WRITE_PHASE]
  | .hlk => [R.HLK_STATUS_LINK_UP, R.HLK_STATUS_WIDTH, R.HLK_STATUS_SPEED, R.HLK_STATUS_D_STATE, R.HLK_STATUS_DOWN_EVENTS, R.HLK_AER_UNCORR, R.HLK_AER_CORR]
  | .fle => [R.FLE_CTRL_EN, R.FLE_CTRL_PUB_EN, R.FLE_CTRL_SHARE_KINDS, R.FLE_CTRL_ERR, R.FLE_CTRL_PORT, R.FLE_MARKET_ID_MARKET_ID, R.FLE_PITCH_PITCH, R.FLE_PITCH_CRED_VALID, R.FLE_UDP_UDP_PORT, R.FLE_ADDR_ADDR, R.FLE_PUB_PUB_QUIET_MS, R.FLE_PUB_PUB_MAX_MS] ++
    [R.FLE_LIMITS_SKEW_MS, R.FLE_LIMITS_STRIKE_MAX, R.FLE_LIMITS_STRIKE_DECAY_S, R.FLE_TIMERS_PEER_TIMEOUT_S, R.FLE_TIMERS_RETRY_S, R.FLE_TIMERS_EVICT_HOLD_S, R.FLE_COUNTS_APPLIED, R.FLE_COUNTS_PUBLISHED, R.FLE_DROPS_A_BUDGET_DROPS, R.FLE_DROPS_A_SKEW_DROPS, R.FLE_DROPS_B_UNKNOWN_DROPS, R.FLE_DROPS_B_UNSHARED_DROPS] ++
    [R.FLE_STRIKES_STRIKES, R.FLE_STRIKES_RATE_DROPS, R.FLE_STRIKES_BEHIND_COUNT, R.FLE_SESSIONS_UP, R.FLE_MEMBER_SEL_PITCH, R.FLE_MEMBER_STATE, R.FLE_MEMBER_STRIKES, R.FLE_MEMBER_TIME_STATE, R.FLE_MEMBER_TOKENS, R.FLE_MEMBER_OFFSET_NS, R.FLE_VER_BASE_LO_ADDR_LO, R.FLE_VER_BASE_HI_ADDR_HI] ++
    [R.FLE_STORE_BASE_LO_ADDR_LO, R.FLE_STORE_BASE_HI_ADDR_HI, R.FLE_RXQ_BASE_LO_ADDR_LO, R.FLE_RXQ_BASE_HI_ADDR_HI, R.FLE_RXQ_CFG_SIZE_LOG2, R.FLE_RXQ_CFG_HOST, R.FLE_RXQ_CFG_ENABLE, R.FLE_RXQ_HEAD_INDEX, R.FLE_RXQ_HEAD_PHASE, R.FLE_RXQ_WRITE_INDEX, R.FLE_RXQ_WRITE_PHASE]
  | .pnl => [R.PNL_CTRL_EN, R.PNL_CTRL_PWR_EN, R.PNL_CTRL_BLANK, R.PNL_CTRL_BLANK_ON_CRACK, R.PNL_CTRL_PARK_KEEP, R.PNL_CTRL_TSRC, R.PNL_CTRL_ERR, R.PNL_SIZE_WIDTH, R.PNL_SIZE_HEIGHT, R.PNL_TIMING_PCK_100K, R.PNL_TIMING_VCOM_HZ, R.PNL_TIMING_LP_VCOM_HZ] ++
    [R.PNL_STATUS_PENDING, R.PNL_STATUS_WRITING, R.PNL_STATUS_BLANKED, R.PNL_STATUS_BAND, R.PNL_STATUS_VLCD_10MV, R.PNL_STATUS_TSNS_FAULT, R.PNL_CRACK_CRACK_OHM, R.PNL_CRACK_PANEL_CRACK, R.PNL_CRACK_LOOP_OHM, R.PNL_TEMP_TEMP, R.PNL_COUNTS_WRITTEN, R.PNL_COUNTS_SKIPPED] ++
    [R.PNL_VLCD_T_POINT, R.PNL_VLCD_V_POINT]
  | .sto => [R.STO_MAP_CTRL_MAP_EN, R.STO_MAP_CTRL_RECORD_SRC, R.STO_MAP_CTRL_RECORD_GIN, R.STO_MAP_CTRL_RECORD_LEVEL, R.STO_MAP_CTRL_DELAY_POINTS, R.STO_MAP_GRID_CELL_CM, R.STO_MAP_GRID_M_REF, R.STO_ORIGIN_ID_VALUE, R.STO_HDR_OFFSET_HDR_FWD, R.STO_HDR_OFFSET_HDR_RIGHT, R.STO_ANT_HEIGHT_ANT_HEIGHT, R.STO_FLUSH_FLUSH_S] ++
    [R.STO_DELAY_MF, R.STO_DELAY_DELAY, R.STO_SECT_WIDTH_CM, R.STO_SECT_CENTRE_CM, R.STO_SECT_SRC_GIN, R.STO_SECT_SRC_SRC, R.STO_SECT_SRC_LEVEL, R.STO_MAP_STAT_ACTIVE, R.STO_MAP_STAT_DIRTY, R.STO_MAP_COUNTS_DROPPED, R.STO_MAP_COUNTS_UNMAPPED, R.STO_UNMAPPED_KG_VALUE] ++
    [R.STO_LIFE_LIFE_A, R.STO_LIFE_LIFE_B, R.STO_LIFE_PRE_EOL, R.STO_LIFE_LINK_UP, R.STO_WRITE_BUDGET_MIB_DAY, R.STO_WRITE_BUDGET_USED_MIB, R.STO_MEDIA_ERRS_READ, R.STO_MEDIA_ERRS_WRITE, R.STO_CACHE_BASE_LO_ADDR_LO, R.STO_CACHE_BASE_HI_ADDR_HI, R.STO_ORIGIN_LAT_LO_VALUE, R.STO_ORIGIN_LAT_HI_VALUE] ++
    [R.STO_ORIGIN_LON_LO_VALUE, R.STO_ORIGIN_LON_HI_VALUE]
  | .jrn => [R.JRN_STAT_EV_HEAD, R.JRN_OVF_OVF_LOST, R.JRN_PAGE_PEAK_COUNT, R.JRN_PAGE_IDX_PAGE, R.JRN_BUDGET_NOW_COUNT]
  | .upd => [R.UPD_STATUS_ACTIVE_BANK, R.UPD_STATUS_TRIAL, R.UPD_STATUS_PENDING, R.UPD_STATUS_SLOT_A, R.UPD_STATUS_SLOT_B, R.UPD_STATUS_LAST_RESULT, R.UPD_STATUS_SHORT_KIND, R.UPD_STATUS_SHORT_CH, R.UPD_VERSION_ACTIVE_VERSION, R.UPD_VERSION_PREV_VERSION, R.UPD_SVN_VENDOR_SVN, R.UPD_SVN_INT_SVN] ++
    [R.UPD_BLOCKS_A_MISSING, R.UPD_BLOCKS_B_MISSING, R.UPD_PPS_PPS_A, R.UPD_PPS_PPS_B]
  | .ksm => [R.KSM_LC_STATE, R.KSM_LC_SEALED, R.KSM_LC_TRANSITIONS, R.KSM_KEYS_INT_SLOTS, R.KSM_KEYS_MEMBER_CERT, R.KSM_KEYS_ROOT, R.KSM_KEYS_DEVICE_KEY, R.KSM_LC_NONCE_NONCE]
  | .hlm => [R.HLM_CTRL_DARN_EN, R.HLM_CTRL_REPLAN_EN, R.HLM_CTRL_AVS_EN, R.HLM_CTRL_DRAM_PASS_H, R.HLM_CTRL_TM_PASS_MIN, R.HLM_CTRL_SAMPLE_S, R.HLM_REPLAN_REPLAN_H, R.HLM_REPLAN_SLACK_TARGET_PS, R.HLM_DARN_STAT_DRAM_PROGRESS, R.HLM_DARN_STAT_TM_PROGRESS, R.HLM_DARN_PASSES_DRAM_PASSES, R.HLM_DARN_PASSES_TM_PASSES] ++
    [R.HLM_DARN_PASSES_LATE_PASSES, R.HLM_ECC_DRAM_CE, R.HLM_ECC_TM_CE, R.HLM_ECC_DRAM_UE, R.HLM_ECC_TM_UE, R.HLM_ECC_DRAM_ADDR, R.HLM_ECC_TM_ADDR, R.HLM_ECC_LAST_LO_ADDR, R.HLM_ECC_LAST_HI_ADDR, R.HLM_ECC_LAST_INFO_MEMORY, R.HLM_ECC_LAST_INFO_IS_ADDR, R.HLM_ECC_LAST_INFO_SYNDROME] ++
    [R.HLM_ECC_LAST_INFO_READER, R.HLM_REPAIR_TM_SPARES_USED, R.HLM_REPAIR_DRAM_RETIRED, R.HLM_TLM_DROPS_TLM_DROPS, R.HLM_TLM_DROPS_JRN_SUPPRESSED, R.HLM_VCORE_VCORE_MV, R.HLM_VCORE_FLOOR_MV, R.HLM_SLACK_MIN_SLACK_PS, R.HLM_LIFE_LIFE_PERMILLE, R.HLM_LIFE_OP_HOURS, R.HLM_RO_SLACK_PS, R.HLM_RO_BASE_PS] ++
    [R.HLM_TLM_BASE_LO_ADDR_LO, R.HLM_TLM_BASE_HI_ADDR_HI, R.HLM_TLM_CFG_SIZE_LOG2, R.HLM_TLM_CFG_HOST, R.HLM_TLM_CFG_ENABLE, R.HLM_TLM_HEAD_INDEX, R.HLM_TLM_HEAD_PHASE, R.HLM_TLM_WRITE_INDEX, R.HLM_TLM_WRITE_PHASE]
  | .aoc => [R.AOC_PWR_STATE_LAST, R.AOC_PWR_STATE_THROTTLED, R.AOC_PWR_STATE_SLEEP_ERR, R.AOC_PWR_STATE_BINDING, R.AOC_PWR_STATE_BIND_STEP, R.AOC_PWR_STATE_BIND_ABORTED, R.AOC_PWR_STATE_BIND_TIMEOUT, R.AOC_PWR_STATE_SUSPEND_TIMEOUT, R.AOC_PWR_STATE_RTC_VALID, R.AOC_WAKE_TOLERANCE_US, R.AOC_SLEEP_GO, R.AOC_SLEEP_BIND_NOW] ++
    [R.AOC_SLEEP_SUSPEND_READY, R.AOC_WAKE_EN_IGN, R.AOC_WAKE_CAUSE_IGN, R.AOC_WAKE_EN_RTC, R.AOC_WAKE_CAUSE_RTC, R.AOC_WAKE_EN_CAN0, R.AOC_WAKE_CAUSE_CAN0, R.AOC_WAKE_EN_CAN1, R.AOC_WAKE_CAUSE_CAN1, R.AOC_WAKE_EN_ETH, R.AOC_WAKE_CAUSE_ETH, R.AOC_WAKE_EN_XLK] ++
    [R.AOC_WAKE_CAUSE_XLK, R.AOC_WAKE_CAUSE_LOGIC, R.AOC_BIND_CFG_BIND_DELAY_S, R.AOC_BIND_CFG_BIND_SAFE_MS, R.AOC_BIND_CFG_BIND_TILE_MAX_S, R.AOC_PARK_CFG_DEEP_AFTER_MIN, R.AOC_PARK_CFG_IGN_DEBOUNCE_MS, R.AOC_PARK_CFG_SUSPEND_S, R.AOC_CASTON_STAGE, R.AOC_CASTON_HOST_READY, R.AOC_CASTON_SEAL_USED, R.AOC_CASTON_LAST_MS] ++
    [R.AOC_RESET_KIND, R.AOC_RESET_WIPE, R.AOC_RESET_CONFIRM, R.AOC_RESET_CAUSE_KIND, R.AOC_RESET_CAUSE_SOURCE, R.AOC_SUPPLY_LOGIC_100MV, R.AOC_SUPPLY_IGN_100MV, R.AOC_SUPPLY_IGN_LEVEL, R.AOC_WDOG_TIMEOUT_MS, R.AOC_WDOG_KICK, R.AOC_RTC_LO_VALUE, R.AOC_RTC_HI_VALUE] ++
    [R.AOC_ALARM_LO_VALUE, R.AOC_ALARM_HI_VALUE, R.AOC_RESUME_LO_VALUE, R.AOC_RESUME_HI_VALUE]
  | .mem => []
  | .gauge => []
  | .doorbell => []
  | .msix => [R.MSIX_ADDR_LO, R.MSIX_ADDR_HI, R.MSIX_DATA, R.MSIX_MASK, R.MSIX_PENDING]

end Sys2Proof.Machine
end

