-- ==== Sys2Proof/Machine/Tbl.lean ====
section
/-! DEFINITION. `Tbl α`: a sparse table, keyed by numbers, as a list of pairs with strictly rising keys.
The state keeps in such tables whatever the module has many of, most of them untouched: register fields,
channels, ring slots, cells, bytes of memory. -/

namespace Sys2Proof.Machine

/-- A sparse table: pairs of a key and a value, keys strictly rising. -/
abbrev Tbl (α : Type) := List (Nat × α)

/-- The entry under a key, if there is one. -/
def tblGet? {α : Type} : Tbl α → Nat → Option α
  | [], _ => none
  | (k, v) :: t, n => if n = k then some v else tblGet? t n

/-- Puts a value under a key, keeping the keys rising. -/
def tblSet {α : Type} : Tbl α → Nat → α → Tbl α
  | [], n, v => [(n, v)]
  | (k, w) :: t, n, v =>
    if n < k then (n, v) :: (k, w) :: t
    else if n = k then (n, v) :: t
    else (k, w) :: tblSet t n v

/-- Removes the entry under a key. -/
def tblErase {α : Type} : Tbl α → Nat → Tbl α
  | [], _ => []
  | (k, w) :: t, n => if n = k then t else (k, w) :: tblErase t n

/-- The entry under a key, or a default. -/
def tblGetD {α : Type} (t : Tbl α) (n : Nat) (d : α) : α := (tblGet? t n).getD d

/-- Every key of the table is above `lo`. -/
def tblAbove {α : Type} (lo : Nat) (t : Tbl α) : Bool := t.all fun p => decide (lo < p.1)

/-- The keys rise strictly. -/
def tblSorted {α : Type} : Tbl α → Bool
  | [] => true
  | (k, _) :: t => tblAbove k t && tblSorted t

end Sys2Proof.Machine
end

