-- ==== Sys2Proof/Machine/State.lean ====
section
/-! DEFINITION. The state of the module as plain data: every register field (in one sparse table, read through its
descriptor of `Machine/Regs.lean`), every queue, buffer, counter, mode and time the spec gives its blocks, the
memory the module writes, and the queue of commands that wait. -/

namespace Sys2Proof.Machine

/-- Byte-addressed memory in canonical form: addresses strictly rising, no byte equal to what an unlisted
address reads as. -/
abbrev Memory := List Host.Cell

/-! ### Arbiters (R27–R41) -/

/-- A normal grant: the requester, the cycle it begins in and the cycles of tenure it has from there (R29). -/
structure Grant where
  who : Nat
  start : Nat
  left : Nat
  deriving DecidableEq, Repr

/-- What an arbiter instance decides from at the start of one of its cycles. -/
structure ArbSt where
  /-- Rank order over all normal requesters, highest first (R28). -/
  rank : List Nat
  /-- Requesters that request and are not granted. -/
  want : List Nat
  holder : Option Grant
  /-- The pre-empted holder, with its remaining tenure (R32). -/
  resume : Option Grant
  /-- First cycle of the emergency grant in progress. -/
  emStart : Option Nat
  /-- Cycles at which emergency requests not yet granted were made. -/
  emWait : List Nat
  /-- First cycle of the latest emergency grant (R33). -/
  emLast : Option Nat
  deriving DecidableEq, Repr

/-- What an instance has been told in one cycle. Its outcome does not depend on the order within the cycle (R5, R35). -/
structure ArbEv where
  /-- Normal requests raised. -/
  reqs : List Nat
  withdrawn : List Nat
  /-- The holder releases, or its tenure ends, with this cycle. -/
  ended : Bool
  /-- Emergency requests made. -/
  emReqs : Nat
  /-- The emergency grant ends with this cycle. -/
  emEnded : Bool
  deriving DecidableEq, Repr

/-- One arbiter instance. Its cycles are those of the domain of the resource it guards. -/
structure Arb where
  /-- The cycle in which it stands, its state at the start of it, and what it has been told in it. -/
  cyc : Nat
  st : ArbSt
  ev : ArbEv
  /-- The ticket of each waiting requester (R36): the cycle by which it promises the grant, `none` where it promises
  no bound (65,535). -/
  tickets : Tbl (Option Nat)
  /-- Requesters masked in this cycle: the service requester at the till (R38), and whether the till flush masks it. -/
  masked : List Nat
  flushMask : Bool
  /-- The same from the next cycle on. -/
  maskNext : List Nat
  flushNext : Bool
  deriving DecidableEq, Repr

/-! ### Rings and the till (R55–R76) -/

/-- What a completion entry reports (R69). -/
structure Compl where
  status : Nat
  detail : Nat
  /-- The row of a row-time class; `none` for the other classes. -/
  row : Option Nat
  deriving DecidableEq, Repr

/-- How far a submitted descriptor has come. -/
inductive Stage where
  /-- Submitted, not yet fetched. -/
  | waiting
  /-- Fetched; it waits at its consumer. -/
  | held
  /-- Its consumer has begun work on it. -/
  | taken
  /-- Its completion is posted to the till and has no sequence number yet. -/
  | posted (c : Compl)
  /-- Its completion has a till sequence number; the entry is not yet written. -/
  | sequenced (seq : Nat) (c : Compl) (time : Nat)
  deriving DecidableEq, Repr

/-- An accepted abort: the row in progress, the fc A of its registration, and the completion that stood posted without
a sequence number at A, which stands after all if it is sequenced in A (R71). -/
structure AbortMark where
  row : Nat
  at_ : Nat
  natural : Option Compl
  deriving DecidableEq, Repr

/-- An outstanding descriptor. -/
structure Req where
  ring : Nat
  slot : Nat
  /-- Tells it from another outstanding descriptor of the same slot: 0 where there was none when it was submitted. -/
  pass : Nat
  /-- Phase of the pass it was submitted in (R62). -/
  phase : Bool
  desc : Option Desc
  stage : Stage
  /-- Number of its fetch, counted over all rings. -/
  order : Nat
  /-- The abort accepted for it, if one was (R71). -/
  aborted : Option AbortMark
  deriving DecidableEq, Repr

/-- A record posted to the till by one of its producers (R27, R68). -/
structure TillRec where
  prod : Nat
  /-- An aggregated row record, which takes one sequence number of its own; else a service completion. -/
  rowRec : Bool
  compls : List Ref
  deriving DecidableEq, Repr

/-- A fencing record of a plane supervisor (R33): the supervisor and the fenced frame's words. -/
structure FenceRec where
  sup : Nat
  words : List Nat
  deriving DecidableEq, Repr

/-- An entry of the till output queue: a completion, or the place taken by a record without one. -/
inductive OutEntry where
  | completion (r : Ref)
  | plain (prod : Nat)
  deriving DecidableEq, Repr

/-- An abort doorbell that found no descriptor: the fc of its registration, its ring and index, and whether ABORT_NOOP had
room to count it. -/
structure Noop where
  at_ : Nat
  ring : Nat
  slot : Nat
  counted : Bool
  deriving DecidableEq, Repr

/-- The till (R37–R39, R68). -/
structure Till where
  posted : List TillRec
  /-- Accepted records on their way to the output queue, with the fc of acceptance. -/
  accepted : List (Nat × TillRec)
  outQ : List OutEntry
  /-- Row-time completions that wait for their block's next row record, by producer. -/
  rowDone : Tbl (List Ref)
  /-- Producers whose row record of the present flush has not been accepted; none outside a flush. -/
  flushLeft : Nat
  /-- The two-entry emergency queue, and the records the supervisors keep back, in order (R33). -/
  fenceQ : List FenceRec
  fenceHeld : List FenceRec
  /-- Fencing records accepted, latest first. -/
  fenced : List FenceRec
  /-- Supervisors whose record the emergency grant in progress has served (R33). -/
  fenceDone : List Nat
  /-- Next cycle and end of the emergency grant that serves fencing records. -/
  fenceAt : Option (Nat × Nat)
  /-- fc of registration of the latest abort: one is registered per fc (R71). -/
  abortAt : Option Nat
  /-- Abort doorbells that found no descriptor: a tail doorbell of the fc of their registration comes before them
  (R72). -/
  noops : List Noop
  deriving DecidableEq, Repr

/-- Interrupt moderation of a completion ring (R65). -/
structure CqIrq where
  unsignalled : Nat
  firstAt : Nat
  deriving DecidableEq, Repr

/-! ### Tick engine (R77–R108) -/

/-- A pending main pattern: its descriptor, the fc at which it became pending and the DETAIL it completes with
(R89, R92). -/
structure PendPat where
  pat : Pattern
  ref : Option Ref
  at_ : Nat
  detail : Nat
  deriving DecidableEq, Repr

/-- The tick settings a row latched (R102). -/
structure TickSet where
  periodUs : Nat
  offsetUs : Nat
  phaseNs : Nat
  alignEn : Bool
  slewFc : Nat
  deriving DecidableEq, Repr

/-- What a solve stages for commit (R113, R137). -/
structure SolveOut where
  outcome : Nat
  iter : Nat
  region : Nat
  epoch : Nat
  conflict : Bool
  yielded : Bool
  numeric : Bool
  warm : Bool
  usedFc : Nat
  rp : F32
  rd : F32
  stale : Nat
  future : Nat
  yieldMask : Nat
  setpoints : List F32
  opLo : List F32
  opHi : List F32
  qvals : List F32
  x : List F32
  z : List F32
  y : List F32
  deriving DecidableEq, Repr

/-- A CAN frame that a controller holds for transmission (R344, R345): staged when it has no descriptor. -/
structure CanTx where
  frame : CanFrame
  ref : Option Ref
  echo : Bool
  echoQ : Nat
  losses : Nat
  errors : Nat
  /-- An attempt has begun. -/
  begun : Bool
  deriving DecidableEq, Repr

/-- What a row has staged and its commit makes good (R94, R113, R158). -/
structure Staged where
  /-- Staged outputs in stitch order, and with the setpoints the numbers that the DIGEST is taken over (R240). -/
  cmds : List OutCmd
  digest : List Nat
  /-- Loop outputs by channel, before the STAGE stitches: (kind, output). -/
  loopDrive : Tbl (Nat × F32)
  loopSwitch : Tbl F32
  canWords : Tbl F32
  can : List (Nat × CanTx)
  solve : Option SolveOut
  est : Tbl EstSt
  qvals : Tbl QVal
  loops : Tbl LoopSt
  region : Option (Nat × Nat)
  mirror : List Nat
  deriving DecidableEq, Repr

/-- The snapshot latched at a tick edge (R80, R81). -/
structure Snap where
  /-- Group record entries, 64 bits each, under 8 × group + entry (R144). -/
  sfe : Tbl Nat
  /-- Length of the sampled tick in fc (R142). -/
  sampledFc : Nat
  /-- The navigation record in force at the edge (R269). -/
  nav : NavRec
  /-- Host posts as of the fc before the edge (R117). -/
  posts : Tbl QVal
  epoch : Nat
  deriving DecidableEq, Repr

/-- The tick engine. -/
structure Tke where
  /-- A row is running: the tick runs from fabric initialisation (R79). -/
  running : Bool
  rowStart : Nat
  /-- Length of the row in fc, fixed at its edge (R99). -/
  rowLen : Nat
  edgeTime : Nat
  inForce : TickSet
  main : Option Pattern
  fallback : Option Pattern
  pending : Option PendPat
  /-- The PATTERN_LOAD being copied: descriptor, slot and image words (R90). -/
  loadPat : Option (Ref × Nat × List Nat)
  /-- The TABLE_SET being copied: descriptor, buffer and image words. -/
  loadTbl : Option (Ref × Nat × List Nat)
  /-- Table buffers 0–2 by number (R103). -/
  bufs : Tbl (List Nat)
  /-- Descriptor of the PENDING set and the fc at which it became PENDING. -/
  pendTbl : Option (Option Ref × Nat)
  /-- PROMOTEs accepted for the next edge (R90). -/
  promote : List Ref
  /-- Commands of the fc of a tick edge that stood before it in the queue: they act after it (R5, R104, R142). -/
  held : List Instr
  /-- A pattern runs in this row, and it is the fallback one. -/
  rowArmed : Bool
  rowFallback : Bool
  /-- fc in which the running row was disarmed: commits stop from the next commit point (R93). -/
  disarmAt : Option Nat
  /-- fc of the latest disarm: one in the fc of an edge belongs to the row that begins there. -/
  disarmLast : Option Nat
  patTag : Nat
  /-- Stitches the row has still to run, in record order. -/
  todo : List Stitch
  consts : List Nat
  /-- MIRROR stitches that an overrun abandoned: their state is still sent (R94). -/
  mirrorTodo : List Stitch
  /-- What the drive banks' entries of the row record hold as of its commit point (R199). -/
  entries : Tbl Nat
  /-- Cause of the row's overrun, once it has one (R95). -/
  overrun : Option Nat
  usedFc : Nat
  solved : Bool
  flip : Bool
  regrid : Bool
  adjFc : Int
  committed : Bool
  /-- fc of the commit point that has been run. -/
  commitFc : Nat
  flushed : Bool
  /-- |e| ≤ 10 ns at each of the latest edges, latest first, up to 16 (R100). -/
  errOk : List Bool
  timeEverValid : Bool
  /-- Module time has been stepped since the latest edge (R101). -/
  stepSeen : Bool
  /-- Workspace words by byte offset, and the half exposed at the latest flush (R83). -/
  work : Tbl Nat
  exposed : Tbl Nat
  snapHalf : Nat
  /-- The half that the next flush exposes. -/
  snapNext : Nat
  snap : Snap
  staged : Staged
  /-- CAN staging words last committed (R134). -/
  canWords : Tbl F32
  deriving DecidableEq, Repr

/-! ### Solver and loops (R109–R140) -/

/-- An accepted ENVELOPE_SET waiting for the edge: limits, or `none` for a release (R119). -/
structure EnvPend where
  limits : Option (F32 × F32)
  ref : Option Ref
  deriving DecidableEq, Repr

structure Sps where
  /-- Previous setpoints p by slot (R109). -/
  p : List F32
  /-- Operator envelope of the slots that have one (R118). -/
  env : Tbl (F32 × F32)
  envPend : Tbl EnvPend
  /-- Values accepted under R117, by measure. -/
  posts : Tbl QVal
  /-- Values the measures' ESTIMATE stitches last committed. -/
  qvals : Tbl QVal
  warm : Option Warm
  /-- Present mass-flow band and moisture band; none after a flip or arming (R122). -/
  bands : Option (Nat × Nat)
  /-- p is to be taken from the fallback setpoints (R109). -/
  pFromFallback : Bool
  /-- State of the function loops (R133). -/
  loops : Tbl LoopSt
  deriving DecidableEq, Repr

/-! ### Sensor front end (R141–R167) -/

/-- One impact channel over the running sampled tick (R144, R146). -/
structure ImpCh where
  isOpen : Bool
  /-- Stuck: waiting for HOLD_OFF samples at or below TRIG (R147), and how many there have been in succession. -/
  waiting : Bool
  quiet : Nat
  /-- Baseline in 2⁻¹⁶ of a converter code (R146). -/
  base : Int
  kernel : Nat
  straw : Nat
  other : Nat
  pileup : Nat
  clip : Bool
  stuck : Bool
  /-- Stuck already reported since the channel was last valid (R166). -/
  stuckTold : Bool
  deriving DecidableEq, Repr

/-- One frequency input (R151): its latest two qualified edges, the first of the running sampled tick, and its enable,
in module time in 0.25 ns. -/
structure FrqIn where
  t0 : Option Int
  t1 : Option Int
  firstInTick : Option Int
  enabled : Int
  nInTick : Nat
  count : Nat
  deriving DecidableEq, Repr

/-- One quadrature pair (R152). -/
structure QuadPair where
  a : Bool
  b : Bool
  pos : Int
  posAtEdge : Int
  err : Bool
  zero : Bool
  deriving DecidableEq, Repr

/-- One DIG input (R153): its debounced level, the level against its threshold, and the fc of that level's latest
change. -/
structure DigIn where
  level : Bool
  raw : Bool
  since : Nat
  deriving DecidableEq, Repr

/-- One sensor supply (R155). -/
structure Ssup where
  on : Bool
  onAt : Nat
  /-- It was off, faulted or on for less than 10 ms in the running sampled tick. -/
  badTick : Bool
  offTimes : List Nat
  restartAt : Option Nat
  deriving DecidableEq, Repr

/-- An accepted CAL_SET waiting for the edge (R159). -/
structure CalPend where
  a : Option F32
  b : Option F32
  ref : Option Ref
  deriving DecidableEq, Repr

/-- Mass-flow zero tracking (R162). -/
structure ZeroTrack where
  /-- fc since which the condition has held. -/
  since : Option Nat
  /-- Start of the averaging window, and the sum and count of the valid values of input 1 latched in it. -/
  window : Option Nat
  sum : Rat
  n : Nat
  /-- Mean of a window that has ended, until the next edge judges it. -/
  result : Option F32
  deriving DecidableEq, Repr

structure Sfe where
  imp : Tbl ImpCh
  frq : Tbl FrqIn
  quad : Tbl QuadPair
  dig : Tbl DigIn
  /-- Samples of general inputs that an average may still take, and of load cells that belong to the running tick. -/
  gin : List GinSample
  lcl : List LclSample
  /-- Load cells with an excitation fault in the running sampled tick, and those with one now (R154). -/
  excTick : List Nat
  exc : List Nat
  ssup : Tbl Ssup
  /-- fc at which each input was enabled, under 256 × class + input. -/
  enabledAt : Tbl Nat
  clsRef : Option (Option Ref)
  calPend : Tbl CalPend
  zt : ZeroTrack
  est : Tbl EstSt
  /-- Rotation position of the converters of each group (R161). -/
  rotation : Tbl Nat
  lastSwap : Tbl Nat
  /-- Inputs whose converter is lost, under 256 × class + input. -/
  lost : List Nat
  deriving DecidableEq, Repr

/-! Reset values of this part. -/

def Till.reset : Till :=
  { posted := [], accepted := [], outQ := [], rowDone := [], flushLeft := 0, fenceQ := [], fenceHeld := [],
    fenced := [], fenceDone := [], fenceAt := none, abortAt := none, noops := [] }

/-- Nothing staged. -/
def Staged.empty : Staged :=
  { cmds := [], digest := [], loopDrive := [], loopSwitch := [], canWords := [], can := [], solve := none,
    est := [], qvals := [], loops := [], region := none, mirror := [] }

def Snap.empty : Snap := { sfe := [], sampledFc := 0, nav := NavRec.zero, posts := [], epoch := 0 }

/-- The default tick: 1,000 µs, aligned, 4 fc of slew (R77, R106). -/
def TickSet.default : TickSet := { periodUs := 1000, offsetUs := 0, phaseNs := 0, alignEn := true, slewFc := 4 }

def Tke.reset : Tke :=
  { running := false, rowStart := 0, rowLen := 0, edgeTime := 0, inForce := TickSet.default, main := none,
    fallback := none, pending := none, loadPat := none, loadTbl := none, bufs := [], pendTbl := none,
    promote := [], held := [], rowArmed := false, rowFallback := false, disarmAt := none, disarmLast := none,
    patTag := 0, todo := [], consts := [], mirrorTodo := [], entries := [],
    overrun := none, usedFc := 0, solved := false, flip := false, regrid := false, adjFc := 0,
    committed := false, commitFc := 0, flushed := false, errOk := [], timeEverValid := false, stepSeen := false, work := [],
    exposed := [], snapHalf := 0, snapNext := 0, snap := Snap.empty, staged := Staged.empty, canWords := [] }

def Sps.reset : Sps :=
  { p := [], env := [], envPend := [], posts := [], qvals := [], warm := none, bands := none,
    pFromFallback := true, loops := [] }

def ImpCh.idle : ImpCh :=
  { isOpen := false, waiting := false, quiet := 0, base := 0, kernel := 0, straw := 0, other := 0, pileup := 0,
    clip := false, stuck := false, stuckTold := false }

def FrqIn.idle : FrqIn := { t0 := none, t1 := none, firstInTick := none, enabled := 0, nInTick := 0, count := 0 }

def QuadPair.idle : QuadPair := { a := false, b := false, pos := 0, posAtEdge := 0, err := false, zero := false }

def DigIn.idle : DigIn := { level := false, raw := false, since := 0 }

def Ssup.idle : Ssup := { on := false, onAt := 0, badTick := true, offTimes := [], restartAt := none }

def LoopSt.fresh : LoopSt :=
  { sr := 0, ig := 0, df := 0, fbLast := 0, out := none, started := false, sat := false }

def Sfe.reset : Sfe :=
  { imp := [], frq := [], quad := [], dig := [], gin := [], lcl := [], excTick := [], exc := [], ssup := [], enabledAt := [],
    clsRef := none, calPend := [], zt := { since := none, window := none, sum := 0, n := 0, result := none }, est := [],
    rotation := [], lastSwap := [], lost := [] }

/-! ### Drive banks (R168–R203) -/

/-- A profile of a drive channel: requested, waiting or running (R180–R185). -/
structure DrvProf where
  /-- Requested start in fc. -/
  reqStart : Nat
  /-- Its boost has been requested (R184). -/
  requested : Bool
  /-- ON_TIME in fc; none until OFF. -/
  onTime : Option Nat
  /-- End times asked for by extending profiles: the latest in fc, or until OFF. -/
  extEnd : Nat
  extOff : Bool
  /-- Start of the boost in fc. -/
  start : Option Nat
  /-- Start of PEAK. -/
  peakStart : Option Nat
  holdMa : Nat
  /-- The descriptor it completes, and the row at whose commit it took effect. -/
  ref : Option Ref
  row : Nat
  shift : Nat
  byTimeout : Bool
  /-- The movement search of R190 has ended. -/
  searched : Bool
  noMove : Bool
  /-- Running maximum since blanking, and the lowest current of the dip that is not yet confirmed with its step after
  the boost start (R190). -/
  maxMa : Nat
  dip : Option (Nat × Nat)
  floorCh : Option Nat
  deriving DecidableEq, Repr

/-- A drive channel beside its registers. -/
structure DrvCh where
  prof : Option DrvProf
  /-- Latest sample of its current in mA, and its fc. -/
  ma : Nat
  maAt : Nat
  /-- The low side is closed (R181), and the step of its latest opening. -/
  low : Bool
  openAt : Nat
  propMa : Nat
  ditherHz : Nat
  ditherMa : Nat
  /-- Phase of the dither at an fc, one period being the fc of a second (R192). -/
  ditherPh : Nat
  ditherAt : Nat
  /-- Current at the latest switch-off, and whether it decays fast; a sibling's boost has forced a decay that has not been
  measured (R191). -/
  decayMa : Nat
  decayFast : Bool
  forcedDecay : Bool
  /-- Committed shot rate, its interval in fc, and the requested start of the next shot (R189). -/
  rate : F32
  interval : Nat
  lastShot : Option Nat
  nextShot : Option Nat
  /-- Time of the latest change of PHASE, and that from which a regulated current has had its level for the on-state
  diagnosis (R195). -/
  since : Nat
  levelAt : Nat
  /-- PHASE before that change, which shows until its step has come (R198). -/
  phaseWas : Nat
  /-- Off-state diagnosis: the code of the latest samples and how many agree, and the fc of the latest one (R194). -/
  diag : Nat × Nat
  diagAt : Nat
  /-- A floor hit has been counted in this sibling boost (R187), and the latest event raised for one. -/
  floorDone : Bool
  floorEventAt : Option Nat
  /-- Row-record flags since the previous record (R199). -/
  recForced : Bool
  recMove : Bool
  recFloor : Bool
  recVbst : Bool
  recClamp : Bool
  deriving DecidableEq, Repr

/-- A drive bank beside its registers. -/
structure DrvBank where
  /-- First fc at which the HSV may be granted again (R184). -/
  hsvFrom : Nat
  /-- Start and end of the latest boost (R186). -/
  boostAt : Nat
  boostEnd : Nat
  /-- fc from which ENABLE has been 0, or `none` and the fc from which it has been 1 (R193, R197). -/
  offFrom : Option Nat
  onFrom : Nat
  /-- fc at which the boost voltage was what DBK_VBST last noted (R193). -/
  vbstAt : Nat
  /-- fc at which both switches of the high side were last opened (R197). -/
  hsOpenAt : Nat
  /-- Lower boost and peak limits waiting for every channel to be OFF (R170). -/
  derate : Option (Nat × Nat)
  deriving DecidableEq, Repr

/-! ### Switch banks (R204–R226) -/

/-- A switch channel beside its registers. -/
structure SwCh where
  duty : Nat
  /-- The output is switched on, statically or in PWM, and the fc from which it is. -/
  on : Bool
  onAt : Nat
  /-- Latest sample of its current in mA. -/
  ma : Nat
  /-- Wire model (R213). -/
  thf : Rat
  ths : Rat
  /-- Start of the interval in current limit, and the latest fc at which the channel was found to reach it (R214). -/
  limitSince : Option Nat
  limitLast : Nat
  /-- fc of the latest turn-off by a thermal latch while on, with the limit interval that it ended (R220). -/
  thermAt : Option (Nat × Option Nat)
  /-- Times since it was switched on in which its on-intervals were too short for the open-load debounce (R221); the
  latest may still run. -/
  short : List (Nat × Option Nat)
  /-- End of the open retry window (R218). -/
  window : Option Nat
  /-- Off after a thermal latch under POLICY 0 until a REARM; a REARM was accepted while the latch was set, and its fc
  (R219). -/
  barred : Bool
  rearmed : Bool
  rearmedAt : Nat
  recLimit : Bool
  recRestart : Bool
  deriving DecidableEq, Repr

/-- One plane's feed as the switch banks follow it (R217, R222). -/
structure Feed where
  /-- UV_OFF is in force. -/
  uv : Bool
  /-- The voltage measured last is below UV_V, and the fc of the latest fall below it (R217). -/
  below : Bool
  fallAt : Option Nat
  /-- The fall that SBK_UV was raised for (R225). -/
  toldAt : Option Nat
  /-- Channels that wait for their restart, in ascending order, and the fc from which the next may restart. -/
  restart : List Nat
  restartAt : Nat
  /-- Shed ranks, the most recent first. -/
  shed : List Nat
  /-- fc of the latest shed or restore. -/
  shedAt : Nat
  overTold : Bool
  deriving DecidableEq, Repr

/-! ### Plane supervisors (R232–R249) -/

/-- A command that a plane supervisor has passed to a bank and that has not yet taken effect. -/
structure Passed where
  cmd : OutCmd
  /-- The host descriptor that carries it. -/
  ref : Option Ref
  /-- Its CLASS_WORD has BANK set with an opcode other than CLEAR (R179). -/
  bankBit : Bool
  /-- An output that the pattern staged, here or on the partner (R173, R207). -/
  staged : Bool
  row : Nat
  at_ : Nat
  deriving DecidableEq, Repr

/-- A plane supervisor beside its registers. -/
structure Pps where
  powered : Bool
  /-- XLK_PAIR_ID as the supervisor's receive path holds it (R229, R231). -/
  pairId : Nat
  /-- A COMMIT has been accepted since the plane was last armed or the supervisor powered up (R246, R247). -/
  live : Bool
  contactAt : Nat
  /-- fc of the latest accepted COMMIT. -/
  commitAt : Option Nat
  /-- The latest commit point, to which the time base of the plane's drive banks is aligned (R168). -/
  gridAt : Nat
  /-- Local channels whose hold window has expired: drive channels n, switch channels 48 + n. -/
  expired : List Nat
  expTold : Bool
  passed : List Passed
  deriving DecidableEq, Repr

/-! ### Pairing (R227–R258) -/

/-- A pattern or table set forwarded to the partner and not yet confirmed (R251). -/
inductive Forwarded where
  | pattern (p : PendPat)
  | table (r : Ref) (buffer : Nat) (at_ : Nat)
  deriving DecidableEq, Repr

/-- A frame handed to the cross-link (R229, R230): its requester at the arbiter, none for the emergency port, its words
from the link header to the CRC, and what a RESYNC frame delivers, with the row at whose edge it takes effect. -/
structure XFrame where
  req : Option Nat
  typ : Nat
  words : List Nat
  item : Option (Nat × ResyncItem)
  deriving DecidableEq, Repr

/-- What a module reports of a row in its heartbeat (R240). -/
structure RowReport where
  row : Nat
  digest : Nat
  overrun : Bool
  fallback : Bool
  epoch : Nat
  edge : Nat
  deriving DecidableEq, Repr

/-- The pairing engine beside its registers. -/
structure Xlk where
  /-- Epoch stored in the journal, and that of the partner's latest heartbeat (R235). -/
  savedEpoch : Nat
  hbEpoch : Nat
  lastHb : Option Heartbeat
  /-- A valid heartbeat has arrived since the latest tick edge. -/
  hbHeard : Bool
  /-- Row in which STARTING was entered (R237). -/
  startRow : Nat
  /-- Mirrored snapshot entries of the primary's row, the row, and the MIRROR frames received for it (R250). -/
  mirror : Tbl Nat
  mirrorRow : Nat
  mirrorGot : Nat
  /-- MIRROR frames sent in the running row. -/
  mirrorSent : Nat
  /-- A heartbeat's row has been run in shadow. -/
  shadowed : Bool
  /-- The row shadowed last. -/
  shadow : RowReport
  /-- Items forwarded by the primary, with the row at whose edge they take effect. -/
  inbox : List (Nat × ResyncItem)
  /-- This PRIMARY has been fenced: RESYNC from the next tick edge (R243). -/
  fencedOut : Bool
  /-- A READY_STANDBY takes over at its next tick edge after a HANDOVER (R252). -/
  takeNext : Bool
  /-- PAIR_HANDOVER descriptors outstanding, each with the row in which it was accepted. -/
  handover : List (Ref × Nat)
  /-- The module took over with its latest heartbeat's row not yet run in shadow (R254). -/
  lateShadow : Bool
  forwards : List Forwarded
  /-- Host commands for an own plane that is not armed which the partner's planes have had (R227). -/
  sentHost : List Ref
  /-- The TKE has been disarmed by software. -/
  swDisarmed : Bool
  /-- Cable delay in ns (R239). -/
  cableNs : Nat
  healthSeq : Nat
  healthAt : Nat
  recentMismatch : Nat
  /-- Payload of the latest SERVICE frame received. -/
  service : List Nat
  /-- Frames waiting for the link, in the order in which they were handed to it, the next sequence number, and the frame
  of each TYPE sent last. -/
  out : List XFrame
  txSeq : Nat
  tx : Tbl XFrame
  deriving DecidableEq, Repr

def DrvCh.idle : DrvCh :=
  { prof := none, ma := 0, maAt := 0, low := false, openAt := 0, propMa := 0, ditherHz := 0, ditherMa := 0, ditherPh := 0,
    ditherAt := 0, decayMa := 0, decayFast := true, forcedDecay := false, rate := 0, interval := 0, lastShot := none,
    nextShot := none, since := 0, levelAt := 0, phaseWas := 0, diag := (0, 0), diagAt := 0, floorDone := false, floorEventAt := none, recForced := false,
    recMove := false, recFloor := false, recVbst := false, recClamp := false }

def DrvBank.idle : DrvBank :=
  { hsvFrom := 0, boostAt := 0, boostEnd := 0, offFrom := some 0, onFrom := 0, vbstAt := 0, hsOpenAt := 0, derate := none }

def SwCh.idle : SwCh :=
  { duty := 0, on := false, onAt := 0, ma := 0, thf := 0, ths := 0, limitSince := none, limitLast := 0, thermAt := none, short := [],
    window := none, barred := false,
    rearmed := false, rearmedAt := 0, recLimit := false, recRestart := false }

def Feed.idle : Feed :=
  { uv := false, below := false, fallAt := none, toldAt := none, restart := [], restartAt := 0, shed := [], shedAt := 0, overTold := false }

def Pps.idle : Pps :=
  { powered := true, pairId := 0, live := false, contactAt := 0, commitAt := none, gridAt := 0, expired := [], expTold := false, passed := [] }

def Xlk.reset : Xlk :=
  { savedEpoch := 0, hbEpoch := 0, lastHb := none, hbHeard := false, startRow := 0, mirror := [], mirrorRow := 0, mirrorGot := 0,
    mirrorSent := 0, shadowed := true,
    shadow := { row := 0, digest := 0, overrun := false, fallback := false, epoch := 0, edge := 0 }, inbox := [], fencedOut := false, takeNext := false, handover := [], lateShadow := false,
    forwards := [], sentHost := [], swDisarmed := false, cableNs := 0, healthSeq := 0, healthAt := 0, recentMismatch := 0,
    service := [], out := [], txSeq := 0, tx := [] }


/-! ### Navigation and time (R259–R283) -/

/-- A tracking channel of an antenna (R261, R262). -/
structure Trk where
  antB : Bool
  sig : Nat
  sat : Nat
  /-- Elevation of the satellite in degrees, and the signals it transmits (R262). -/
  elev : Nat
  sends : List Nat
  /-- Early–late spacing of its correlators in 1/64 chip. -/
  spacing : Nat
  deriving DecidableEq, Repr

/-- A search that NAV_SEARCH asked for, as it runs (R264). -/
structure NavSearch where
  ref : Ref
  antB : Bool
  sig : Nat
  sat : Nat
  /-- 0 AIDED; 1 FFT (R263). -/
  mode : Nat
  deriving DecidableEq, Repr

/-- What NAV keeps in the always-on SRAM (R271, R272). -/
structure NavSaved where
  /-- Module times of the oldest ephemeris and of the almanac. -/
  ephemeris : Nat
  almanac : Nat
  lat : Int
  lon : Int
  leap : Option Nat
  deriving DecidableEq, Repr

/-- The confirmation of R275: the first of the consecutive solutions, and the range of their errors. -/
structure NavConf where
  first : Nat
  last : Nat
  lo : Int
  hi : Int
  deriving DecidableEq, Repr

/-- NAV beside its registers. Errors of module time are in units of 0.25 ns. -/
structure Nav where
  /-- The error being slewed out, as it stood at `slewFrom`; 0 when nothing is slewed (R275). -/
  slew : Int
  slewFrom : Nat
  /-- What module time went by before it was last set, stepped or slewed, latest first: the fc of that change, and offset,
  slew and start of the slew before it (R26, R276). -/
  past : List (Nat × Int × Int × Nat)
  /-- Latest error measured and not yet decided on. -/
  delta : Int
  /-- fc and uncertainty in ns of the latest valid time solution. -/
  solAt : Nat
  solUnc : Nat
  /-- u0 in 0.25 ns, ε in ppb, TCXO temperature at entry and the largest change since, in holdover (R274). -/
  u0 : Nat
  eps : Nat
  tcxo : Int
  tcxoMax : Nat
  suppressTold : Bool
  /-- fc since which GNSS time has been held without a break (R274). -/
  lockFrom : Nat
  conf : Option NavConf
  /-- A first time solution has been made since NAV started (R271). -/
  started : Bool
  /-- Period (0.1 s) and width (µs) of the pulse in force (R278). -/
  tpPeriod : Nat
  tpWidth : Nat
  /-- fc of the trailing edge of the latest pulse (R277). -/
  tpFall : Nat
  lastEmit : Option Nat
  lastLabel : Option Nat
  stepCarry : Bool
  trk : List Trk
  /-- NAV_SEARCH requests running, and the mode of the latest search that has ended. -/
  searches : List NavSearch
  acqMode : Nat
  /-- SBAS satellites whose corrections are out of use, with the fc of their message type 0 (R259). -/
  sbasOff : Tbl Nat
  /-- RTK: station position and identifier known, restart from RTK_FLOAT due, age of the newest MSM epoch at an fc. -/
  station : Bool
  stationId : Option Nat
  refloat : Bool
  corrAt : Option Int
  /-- Fix types the latest observations support, one bit each. -/
  fixMask : Nat
  /-- fc of the latest GNSS fix, and its horizontal accuracy. -/
  fixAt : Option Nat
  fixAcc : Nat
  /-- fc of the latest heading made from a baseline or a course. -/
  headAt : Option Nat
  record : NavRec
  /-- Module time of the next filter step (R269). -/
  stepNext : Nat
  /-- Antenna supplies turned off, 0 ANT-A and 1 ANT-B, with the fc of the latest turn-off or retry (R260). -/
  supplyOff : Tbl Nat
  saved : Option NavSaved
  savedAt : Nat
  deriving DecidableEq, Repr

def Nav.reset : Nav :=
  { slew := 0, slewFrom := 0, past := [], delta := 0, solAt := 0, solUnc := 0, u0 := 0, eps := 0, tcxo := 0, tcxoMax := 0,
    suppressTold := false, lockFrom := 0, conf := none, started := false, tpPeriod := 10, tpWidth := 100000,
    tpFall := 0, lastEmit := none, lastLabel := none, stepCarry := false, trk := [], searches := [], acqMode := 0,
    sbasOff := [], station := false, stationId := none,
    refloat := false, corrAt := none, fixMask := 0, fixAt := none, fixAcc := 0, headAt := none,
    record := NavRec.zero, stepNext := 0, supplyOff := [], saved := none, savedAt := 0 }

/-! ### Yield mapping, the managed store and the journal (R284–R314) -/

/-- A cell's version entry (R378). -/
structure Ver where
  stamp : Stamp
  pub : Bool
  deriving DecidableEq, Repr

/-- A tile: its identity, its grid, the cells that are not all zero, by index, and the versions that are not zero. -/
structure Tile where
  id : Nat
  cellCm : Nat
  origin : Nat
  lat0 : Int
  lon0 : Int
  cells : Tbl Nat
  vers : Tbl Ver
  deriving DecidableEq, Repr

/-- A slot of the tile cache (R296–R298). -/
structure CacheSlot where
  tile : Tile
  /-- The tile is being loaded. -/
  loading : Bool
  /-- fc since which it is dirty and not being flushed. -/
  dirty : Option Nat
  /-- The image a flush in progress writes. -/
  flushing : Option Tile
  touched : Nat
  /-- fc of the oldest local write of each cell with PUB set, and of the latest local write (R379). -/
  pubAt : Tbl Nat
  pubLast : Nat
  deriving DecidableEq, Repr

/-- What waits for its tile: a tile descriptor, a TILE_WRITE with the image it writes, a delta with the session slot that
delivered it, or cells to publish: those that a peer with this figure for the module's pitch lacks, or those with PUB set. -/
inductive MapWait where
  | desc (ref : Ref) (id : Nat) (write : Option Tile)
  | delta (slot : Nat) (d : Delta)
  | pull (id : Nat) (figure : Option Stamp)
  deriving DecidableEq, Repr

def MapWait.tile : MapWait → Nat
  | .desc _ id _ => id
  | .delta _ d => d.tile
  | .pull id _ => id

def MapWait.ref : MapWait → Option Ref
  | .desc r _ _ => some r
  | .delta _ _ => none
  | .pull _ _ => none

/-- A tile of the MAP partition: its image, the module time of its last flush and its first 4 KiB block (R298). -/
structure Stored where
  tile : Tile
  at_ : Nat
  block : Nat
  /-- Times of the local writes of its cells with PUB set, as in `CacheSlot`. -/
  pubAt : Tbl Nat
  pubLast : Nat
  deriving DecidableEq, Repr

/-- An entry of the position history (R285), lengths in nm. -/
structure HistPos where
  edge : Nat
  valid : Bool
  x : Int
  y : Int
  heading : F32
  recording : Bool
  sections : Nat
  deriving DecidableEq, Repr

/-- The latest mapped extract (R290, R291): its header point, and the cell of each strip centre in grid. -/
structure Mapped where
  x : Int
  y : Int
  strips : Tbl (Int × Int)
  deriving DecidableEq, Repr

/-- A STORE_READ or STORE_WRITE in progress. -/
structure StoreJob where
  ref : Ref
  part : Nat
  block : Nat
  count : Nat
  write : Bool
  addr : Nat
  data : List Nat
  deriving DecidableEq, Repr

/-- A journal access in progress. -/
structure JrnJob where
  ref : Ref
  /-- Offset within the whole journal. -/
  off : Nat
  write : Bool
  addr : Nat
  data : List Nat
  deriving DecidableEq, Repr

/-- STO and JRN beside their registers. -/
structure Sto where
  /-- The sample queue, oldest first. -/
  samples : List Extract
  dropAt : Option Nat
  /-- The position history, newest first. -/
  history : List HistPos
  /-- EDGE_TIME of the extract processed last. -/
  prevEdge : Option Nat
  /-- The previous extract was mapped. -/
  inRun : Bool
  lastMapped : Option Mapped
  /-- Slots 0–4,095 of the tile cache. -/
  cache : Tbl CacheSlot
  touches : Nat
  /-- The MAP partition: stored tiles by TILE_ID, and the locations taken so far. -/
  map : Tbl Stored
  locations : Nat
  /-- What waits for a tile, in order of arrival (R310). -/
  waits : List MapWait
  /-- TILE_FLUSH descriptors, and bind-off's own flush, with the slots still to flush. -/
  flushes : List (Option Ref × List Nat)
  /-- The class of store traffic in service: 0 flushes at bind-off, 2 descriptors, 3 tile flushes and loads (R303). -/
  serving : Option Nat
  jobs : List StoreJob
  /-- Bytes written to partitions, under 2^40 × partition + offset. -/
  store : Tbl Byte
  dayStart : Option Nat
  dayBytes : Nat
  pollAt : Option Nat
  refreshAt : Option Nat
  jrnJobs : List JrnJob
  /-- SOFTWARE section of the journal, by offset within it, and its page write counts. -/
  soft : Memory
  pages : Tbl Nat
  /-- RTC time of provisioning, in ns (R306). -/
  provisioned : Nat
  /-- Activation and cast-on counts of COUNTERS (R306). -/
  activations : Nat
  castOns : Nat
  deriving DecidableEq, Repr

def Sto.reset : Sto :=
  { samples := [], dropAt := none, history := [], prevEdge := none, inRun := false, lastMapped := none, cache := [],
    touches := 0, map := [], locations := 0, waits := [], flushes := [], serving := none, jobs := [], store := [], dayStart := none, dayBytes := 0,
    pollAt := none, refreshAt := none, jrnJobs := [], soft := [], pages := [], provisioned := 0,
    activations := 0, castOns := 0 }

/-! ### Fleet market (R368–R392) -/

/-- A session slot (R372). -/
structure Session where
  addr : List Nat
  port : Nat
  pitch : Nat
  /-- The PEER_SET outstanding, and its fc. -/
  ref : Option Ref
  setAt : Nat
  isOpen : Bool
  absent : Bool
  closedAt : Nat
  /-- The engine is opening the session. -/
  trying : Bool
  txAt : Nat
  rxAt : Nat
  /-- Module time at which the peer's chain expires. -/
  expires : Nat
  queue : List FleMsg
  /-- Deltas that the exchange at the session's start owes the peer, in stamp order. -/
  owed : List Delta
  behind : Bool
  /-- The running second of R374 and the messages accepted in it. -/
  rateFrom : Nat
  rateCount : Nat
  deriving DecidableEq, Repr

/-- A member (R383–R386). -/
structure Member where
  cert : Option Cert
  /-- The pitch has been returned to the known state. -/
  known : Bool
  evicted : Bool
  /-- Serial number of the evicted certificate, and module time and fc of the eviction. -/
  evictSerial : Nat
  evictTime : Nat
  evictAt : Nat
  strikes : Nat
  /-- Budget: tokens times the fc of a second, at an fc. -/
  level : Nat
  levelAt : Nat
  timeState : Nat
  lastStatus : Option Nat
  offset : Int
  /-- Greatest stamp applied from this author. -/
  best : Stamp
  deriving DecidableEq, Repr

/-- The fleet engine beside its registers. -/
structure Fle where
  /-- The hybrid clock (R376). -/
  t : Nat
  c : Nat
  sessions : Tbl Session
  members : Tbl Member
  /-- The delta store, oldest first (R382). -/
  store : List Delta
  /-- Deltas stored so far. -/
  stored : Nat
  /-- Slots that an eviction keeps closed, with the fc of its end; and the fc of a slot's latest FLE_BEHIND. -/
  held : Tbl Nat
  behindTold : Tbl Nat
  /-- The message sent last, as bytes. -/
  sent : List Nat
  /-- PUBLISH_NOW descriptors with the cells they wait for. -/
  pubNow : List (Ref × List (Nat × Nat))
  statusAt : Option Nat
  decayAt : Nat
  deriving DecidableEq, Repr

def Stamp.zero : Stamp := { t := 0, c := 0, a := 0 }

def Fle.reset : Fle :=
  { t := 0, c := 0, sessions := [], members := [], store := [], stored := 0, held := [], behindTold := [], sent := [],
    pubNow := [], statusAt := none, decayAt := 0 }

/-! ### Key store and firmware update (R425–R444) -/

/-- A firmware image as its header and contents describe it (R432, R433). -/
structure Image where
  signer : Nat
  version : Nat
  svn : Nat
  blocks : Nat
  lastLen : Nat
  hwMin : Nat
  variants : Nat
  keyId : Nat
  /-- Component types present. -/
  components : List Nat
  deriving DecidableEq, Repr

/-- The key store beside its registers. -/
structure Ksm where
  memberCert : Option Cert
  root : Bool
  rootMarket : Nat
  /-- Integrator image keys by slot 1–4, and the MAC addresses, as installed. -/
  intKeys : Tbl (List Nat)
  macs : List (List Nat)
  /-- Life-cycle change whose wipes were cut short by a loss of power: from and to states (R429). -/
  unfinished : Option (Nat × Nat)
  deriving DecidableEq, Repr

/-- A module as made: no credentials (DESIGN CHOICE, log entry 6; unsafe). -/
def Ksm.reset : Ksm :=
  { memberCert := none, root := false, rootMarket := 0, intKeys := [], macs := [], unfinished := none }


/-! ### Cameras and vision (R315–R340) -/

/-- A frame of a camera port (R317–R323). -/
structure CamFrame where
  no : Nat
  csi : Nat
  /-- Module times of FS and of closure, and the fc of closure. -/
  fsTime : Nat
  feTime : Nat
  feAt : Nat
  /-- Its raw slot; none on CAM0. -/
  slot : Option Nat
  /-- The frame is being kept: it has a slot, or on CAM0 a CAPTURE. -/
  kept : Bool
  /-- Lines accepted, latest first, and lines received at the port. -/
  rows : List (List Nat)
  received : Nat
  lost : Nat
  lineErrs : Nat
  crcLines : Nat
  hdrErrs : Nat
  ovf : Bool
  long : Bool
  noFe : Bool
  linkLost : Bool
  /-- The CAPTURE bound to it, and the APPLY_FRAME of the parameter set live when the ISP started. -/
  ref : Option Ref
  params : Option Nat
  /-- Lines that the ISP has processed (R322). -/
  done : Nat
  deriving DecidableEq, Repr

/-- A pending ISP parameter set (R328). -/
structure ParamSet where
  ref : Ref
  apply : Nat
  words : List Nat
  deriving DecidableEq, Repr

/-- A sensor write (R327): due at the FE of frame `target`; `eff` is its effective frame once that FE has passed. -/
structure SensorJob where
  ref : Ref
  apply : Nat
  target : Int
  addr : Nat
  wide : Nat
  entries : List Nat
  eff : Option Nat
  deriving DecidableEq, Repr

/-- A camera port beside its registers. -/
structure Cam where
  /-- FRAME_NO of the next FS. -/
  next : Nat
  cur : Option CamFrame
  /-- Closed frames awaiting the ISP, oldest first; on CAM0, closed frames not yet processed to their end. -/
  ready : List CamFrame
  /-- Next raw slot in ring order. -/
  slotAt : Nat
  /-- Unbound CAPTUREs, in fetch order. -/
  jobs : List Ref
  live : Option (Nat × List Nat)
  pend : List ParamSet
  writes : List SensorJob
  /-- Effective frames of the sensor writes sent since EN was set. -/
  effs : List Nat
  /-- FRAME_NO at the latest FE. -/
  feSeen : Option Nat
  overAt : Option Nat
  /-- Frame-sync instants sent, in ns of module time (R318). -/
  syncs : List Nat
  /-- Latest burst over the uplink: I2C address, entries written. -/
  burst : Option (Nat × List (Nat × Nat))
  /-- The receive buffer on its way to memory (R321): runs of bytes with their addresses, oldest first. -/
  buf : List (Nat × List Byte)
  deriving DecidableEq, Repr

/-- A RUN of the accelerator (R332–R334). -/
structure VxaJob where
  ref : Ref
  urgent : Bool
  netId : Nat
  crc : Nat
  outAddr : Nat
  outLen : Nat
  deriving DecidableEq, Repr

/-- A line slot of the ISP (R322): the port and frame whose line it processes, and the fc of its end. -/
structure LineSlot where
  port : Nat
  no : Nat
  end_ : Nat
  deriving DecidableEq, Repr

/-- The camera ports, the ISP, and the accelerator. -/
structure Vision where
  cams : Tbl Cam
  /-- The memory frame in progress, with its port. -/
  isp : Option (Nat × CamFrame)
  /-- The line slot in progress, and the times in fc over which slots were used, latest first (R338). -/
  slot : Option LineSlot
  used : List (Nat × Nat)
  /-- The port that the camera-write requester serves next (R321). -/
  burstAt : Nat
  /-- Jobs submitted and not yet fetched when EN of a port was written 0, with the port (R324). -/
  offs : List (Ref × Nat × AbortMark)
  run : Option VxaJob
  runAt : Nat
  queue : List VxaJob
  /-- NET_ID and IMAGE_CRC of the resident network. -/
  resident : Option (Nat × Nat)
  deriving DecidableEq, Repr

def Cam.idle : Cam :=
  { next := 0, cur := none, ready := [], slotAt := 0, jobs := [], live := none, pend := [], writes := [],
    effs := [], feSeen := none, overAt := none, syncs := [], burst := none, buf := [] }

def Vision.reset : Vision :=
  { cams := [], isp := none, slot := none, used := [], burstAt := 0, offs := [], run := none, runAt := 0, queue := [], resident := none }

/-! ### Fieldbus, Ethernet and host link (R341–R367) -/

/-- A CAN controller beside its registers. -/
structure CanCtl where
  /-- Descriptors accepted and not yet in a buffer, in fetch order. -/
  sends : List Ref
  /-- TXB0–TXB2, by number. -/
  txb : Tbl CanTx
  /-- The staged-frame queue. -/
  staged : List CanTx
  /-- The attempt on the bus: TXB 0–2, or 3 for the head of the staged-frame queue, with the module time of its
  start of frame. -/
  onBus : Option (Nat × Nat)
  /-- fc of the latest drop of each receive queue. -/
  dropAt : Tbl Nat
  deriving DecidableEq, Repr

/-- A frame in a port's transmit queue (R358). -/
structure EthTx where
  ref : Ref
  /-- Address for its time stamp, if one is asked for. -/
  tsAddr : Option Nat
  data : List Nat
  deriving DecidableEq, Repr

/-- What the module announces as grandmaster (R360). -/
structure Announce where
  clockClass : Nat
  timeTraceable : Bool
  utcOffset : Int
  utcValid : Bool
  priority1 : Nat
  priority2 : Nat
  deriving DecidableEq, Repr

/-- How a port takes part in its link (R357): a forced master or slave on ETH0–ETH3; on SPE0–SPE1 the PLCA coordinator,
sending beacons for a number of nodes, a PLCA node with its ID, or CSMA/CD. -/
inductive LinkRole where
  | master
  | slave
  | coordinator (nodes : Nat)
  | node (id : Nat)
  | csmaCd
  deriving DecidableEq, Repr

/-- An Ethernet or SPE port beside its registers. -/
structure EthPort where
  /-- Its role on the link since LINK_UP last became 1. -/
  role : Option LinkRole
  /-- Of gPTP (R360): the best grandmaster announced on the port, the gPTP time at which the latest Sync arrived, and the
  delay of the link in ns. -/
  heard : Option GmVector
  syncAt : Option Nat
  linkDelay : Int
  queue : List EthTx
  /-- The fleet engine's frames are next in turn. -/
  fleetTurn : Bool
  sleepAsked : Bool
  /-- Wake-ups sent. -/
  wakes : Nat
  /-- The ETH_TX frame sent last. -/
  sent : List Nat
  announce : Option Announce
  /-- Offset of another grandmaster's time from module time in ns, as the port relays it (R360). -/
  relay : Option Int
  deriving DecidableEq, Repr

def CanCtl.idle : CanCtl := { sends := [], txb := [], staged := [], onBus := none, dropAt := [] }

def EthPort.idle : EthPort :=
  { role := none, heard := none, syncAt := none, linkDelay := 0, queue := [], fleetTurn := false, sleepAsked := false, wakes := 0, sent := [], announce := none, relay := none }

/-! ### Sentinel panels (R393–R406) -/

/-- A line of a port's line store. A line that is not listed holds colour 0, as does the panel. -/
structure PnlLine where
  /-- Colours of its pixels in the store, and as last written to the panel: what its shadow stands for. -/
  content : List Nat
  shown : List Nat
  /-- Shadow checksum (R395). -/
  shadow : Nat
  /-- The UPDATE it belongs to, and the one whose content the store holds. -/
  owner : Option Ref
  source : Option Ref
  /-- UPDATEs whose FORCE holds it pending. -/
  forced : List Ref
  deriving DecidableEq, Repr

/-- A line write in progress. -/
structure PnlWrite where
  line : Nat
  content : List Nat
  source : Option Ref
  /-- fc at which PSEL may fall again. -/
  ends : Nat
  deriving DecidableEq, Repr

/-- An outstanding UPDATE. -/
structure PnlJob where
  ref : Ref
  written : Nat
  takenOver : Bool
  deriving DecidableEq, Repr

/-- A panel port beside its registers. -/
structure Pnl where
  lines : Tbl PnlLine
  writing : Option PnlWrite
  /-- Line written last. -/
  last : Option Nat
  jobs : List PnlJob
  /-- Wipes still to be sent: CLEARs, and that of EN (none). -/
  wipes : List (Option Ref)
  /-- A wipe being sent: fc of its end, and what it serves. -/
  wiping : Option (Nat × List (Option Ref))
  /-- PDA at the falling edges of PCK in the latest assertion of PSEL. -/
  frame : List Bool
  /-- VDD is on. -/
  vdd : Bool
  /-- The latest move of VLCD: its fc, and the voltages in 10 mV before and after. -/
  move : Option (Nat × Nat × Nat)
  /-- fc of the latest temperature sample; band and VLCD target from it. -/
  tempAt : Option Nat
  band : Nat
  target : Nat
  /-- Level of PINV, the fc of the grid instant served last, and a change delayed by a line write. -/
  pinv : Bool
  vcomAt : Option Nat
  vcomDue : Bool
  /-- fc of the latest crack reading; consecutive readings above, and at or below, CRACK_OHM. -/
  crackAt : Option Nat
  high : Nat
  low : Nat
  deriving DecidableEq, Repr

def Pnl.idle : Pnl :=
  { lines := [], writing := none, last := none, jobs := [], wipes := [], wiping := none, frame := [], vdd := false, move := none,
    tempAt := none, band := 0, target := 0, pinv := false, vcomAt := none, vcomDue := false, crackAt := none, high := 0, low := 0 }

/-! ### Firmware update (R432–R442) -/

/-- A staging slot beside its registers. -/
structure UpdSlot where
  image : Option Image
  /-- Blocks held. -/
  held : List Nat
  closing : Option Ref
  deriving DecidableEq, Repr

/-- The update engine beside its registers. -/
structure Upd where
  /-- Slots 0 STAGE_A and 1 STAGE_B. -/
  slots : Tbl UpdSlot
  /-- Images of SYSTEM banks 0 and 1; a bank that is not listed holds no valid image. -/
  banks : Tbl Image
  /-- Background copy of an ACTIVATE with WHEN 0, and its slot. -/
  copying : Option (Ref × Nat)
  /-- The copy is complete: the activation reset is requested at the till flush of a row after this one. -/
  resetAfter : Option Nat
  /-- The next cast-on boots the previous bank (R439), or is the first from a new bank (R444). -/
  revert : Bool
  fresh : Bool
  /-- PPS_APPLYs running, by plane: descriptor, version loaded, fc. -/
  applying : Tbl (Ref × Nat × Nat)
  deriving DecidableEq, Repr

def UpdSlot.empty : UpdSlot := { image := none, held := [], closing := none }

/-- The image of the firmware delivered with the module: the spec gives none of its header's values (DESIGN CHOICE, log
entry 101; unsafe). -/
def Image.delivered : Image :=
  { signer := 0, version := 0, svn := 0, blocks := 0, lastLen := 0, hwMin := 0, variants := 3, keyId := 0,
    components := [1, 2, 3, 4] }

def Upd.reset : Upd :=
  { slots := [], banks := [(0, Image.delivered)], copying := none, resetAfter := none, revert := false, fresh := false,
    applying := [] }

/-! ### Power and starting (R407–R424) -/

/-- The always-on controller beside its registers. -/
structure Aoc where
  /-- Power state of R409: 0 RUN, 1 TRIM, 2 PARK, 3 DEEP, 4 OFF. -/
  power : Nat
  /-- LOGIC has qualified since the computing side was last held in reset. -/
  logic : Bool
  /-- The AON domain has not been lost since the latest cast-on. -/
  kept : Bool
  failAt : Option Nat
  /-- fc at which the cast-on in progress began, and its first STAGE (R414); none when no cast-on is due. -/
  castFrom : Option (Nat × Nat)
  /-- IGN low: fc from which BIND_DELAY_S runs. -/
  ignOff : Option Nat
  /-- fc at which the present step of bind-off began, and IGN high again in step 1–5. -/
  stepAt : Nat
  ignBack : Bool
  /-- Entry to PARK, DEEP or OFF: state and fc at which fetching stopped; the wait of R413 has ended. -/
  entry : Option (Nat × Nat)
  drained : Bool
  /-- fc of the suspend interrupt. -/
  suspendAt : Option Nat
  ready : Bool
  /-- The wake from PARK is a warm reset (R413). -/
  warmWake : Bool
  parkedAt : Nat
  /-- Wake sources that came during the entry. -/
  wakes : List Nat
  wdogAt : Nat
  wdogTimes : List Nat
  /-- Bank that a valid boot seal stands for. -/
  bootSeal : Option Nat
  deriving DecidableEq, Repr

/-- LOGIC has not yet qualified after power was applied. -/
def Aoc.reset : Aoc :=
  { power := 0, logic := false, kept := false, failAt := none, castFrom := some (0, 1), ignOff := none, stepAt := 0,
    ignBack := false, entry := none, drained := false, suspendAt := none, ready := false, warmWake := false,
    parkedAt := 0, wakes := [], wdogAt := 0, wdogTimes := [], bootSeal := none }

/-! ### Health (R445–R473) -/

/-- A darning pass over one memory (R448). -/
structure Pass where
  start : Nat
  /-- Word to be read next. -/
  pos : Nat
  number : Nat
  /-- Words found CE, with the pass in which they last were. -/
  ce : Tbl Nat
  deriving DecidableEq, Repr

/-- Movement results of a drive channel since its latest KIND 9 record (R190, R455): results and their sum, least and
greatest in 0.5 µs, searches without movement, and the sum of VBST at the boost starts in 0.1 V. -/
structure MoveStats where
  count : Nat
  sum : Nat
  least : Nat
  greatest : Nat
  noMove : Nat
  vbst : Nat
  deriving DecidableEq, Repr

def MoveStats.zero : MoveStats := { count := 0, sum := 0, least := 0, greatest := 0, noMove := 0, vbst := 0 }

/-- The health monitor beside its registers. -/
structure Hlm where
  dram : Pass
  tm : Pass
  /-- CEs that darning has counted, awaiting their write-back: 2 × word + memory (1 tick memory), and the fc. -/
  cePend : List (Nat × Nat)
  /-- Rows of tick memory to be moved to a spare, rows moved, and spares used by bank. -/
  rowMoves : List Nat
  moved : List Nat
  spares : Tbl Nat
  /-- Retired DRAM pages, in order of retirement. -/
  retired : List Nat
  /-- Margin ring and monitor ring of the AGEING section, and records ever written to each. -/
  margin : Tbl (List Byte)
  marginSeq : Nat
  monitor : Tbl (List Byte)
  monitorSeq : Nat
  /-- Latest HSB resistance and boost capacitance with their baselines, by bank. -/
  hsb : Tbl (F32 × F32)
  cap : Tbl (F32 × F32)
  /-- Movement results by drive channel, and the fc of the latest record of each monitored item. -/
  moves : Tbl MoveStats
  ageAt : Tbl Nat
  /-- Items whose report limit has been told, by their key (`itemKey`). -/
  told : List Nat
  /-- Operating time in fc up to `runFrom`, and the fc from which the module runs. -/
  opFc : Nat
  runFrom : Option Nat
  /-- Half-cycles by bin (R456). -/
  halves : Tbl Nat
  /-- Turning points of the base-plate temperature that the rainflow count has not yet closed, latest first. -/
  turns : List Int
  lifeTold : Bool
  exhausted : Bool
  /-- Consecutive measurements with slack to spare. -/
  spareCount : Nat
  sampleAt : Option Nat
  roAt : Option Nat
  replanAt : Tbl Nat
  /-- Base plate: fc of the latest sample, above its limit since, reported hot, well below since. -/
  baseAt : Option Nat
  hotSince : Option Nat
  hot : Bool
  coolSince : Option Nat
  deriving DecidableEq, Repr

def Pass.idle : Pass := { start := 0, pos := 0, number := 0, ce := [] }

def Hlm.reset : Hlm :=
  { dram := Pass.idle, tm := Pass.idle, cePend := [], rowMoves := [], moved := [], spares := [], retired := [],
    margin := [], marginSeq := 0, monitor := [], monitorSeq := 0, hsb := [], cap := [], moves := [], ageAt := [], told := [], opFc := 0,
    runFrom := none, halves := [], turns := [], lifeTold := false, exhausted := false, spareCount := 0, sampleAt := none,
    roAt := none, replanAt := [], baseAt := none, hotSince := none, hot := false, coolSince := none }

/-! ### Memory the module writes, events (R306, R450–R452) -/

/-- An event record (R450). -/
structure Ev where
  time : Nat
  row : Nat
  code : Nat
  inst : Nat
  tick : Bool
  seq : Nat
  data : Nat
  deriving DecidableEq, Repr

/-- The event writer: sequence number, the EVENTS ring of the journal, and its budget (R450, R451, R309). -/
structure EventLog where
  seq : Nat
  /-- EVENTS slots by number (0–524,287). -/
  events : Tbl Ev
  /-- Event records ever written to EVENTS, and of them those copied to JOVF. -/
  written : Nat
  copied : Nat
  /-- A loss episode of R309 is running. -/
  losing : Bool
  /-- JOVF, a ring of 2^26 records, by number (R309). -/
  jovf : Tbl Ev
  /-- Times in fc of the journal writes of the last second. -/
  stamps : List Nat
  /-- Events suppressed since the latest journal write. -/
  suppressed : Nat
  deriving DecidableEq, Repr

/-- An ROL field since the previous read (R12, R13): what an event of an earlier fc latched, the events of fc `at_`,
and the field's value before them. -/
structure RolSt where
  at_ : Nat
  fresh : Option Nat
  latched : Option Nat
  before : Nat
  deriving DecidableEq, Repr

/-- What the block held at the end of the fc before the present one, of what an edge takes no newer (R81, R93, R102,
R117). It is the model's own. -/
structure Before where
  regs : Tbl Nat
  posts : Tbl QVal
  navRec : NavRec
  deriving DecidableEq, Repr

/-! ### The whole state -/

/-- Why the machine stops with a fault: no behaviour of the block does. No command raises one; the type is empty. -/
inductive Fault where
  deriving DecidableEq, Repr

/-- Why a command is refused. -/
inductive Refusal where
  /-- Raised by the dispatch alone, for a command that has no meaning in this model yet. Safe: nothing is proved
  of what such a command does. -/
  | notModelled (mnemonic : String)
  deriving DecidableEq, Repr

/-- The state of the module. -/
structure State where
  /-- Time of the latest command, in fc since the model's start. -/
  now : Nat
  before : Before
  /-- Commands waiting, first in first out. -/
  pending : List Instr
  /-- Register fields that do not hold their reset value, by field, instance and index. -/
  regs : Tbl Nat
  /-- High halves latched by a read of the low half of a 64-bit pair (R106), by the field of the high half. -/
  hiLatch : Tbl Nat
  /-- ROL fields latched by an event since the previous read (R12), by field. -/
  rolLatch : Tbl RolSt
  /-- RW1C bits that the module has set: fc of the latest set, under 32 × field + bit (R13). -/
  onesAt : Tbl Nat
  /-- What the latest register read returned. -/
  readData : Nat
  /-- Free values drawn so far (the model's own counter). -/
  freeCount : Nat
  /-- The fabric is initialised and not held in reset (R414, R407, R419). -/
  fabric : Bool
  /-- Module time at `now`, in units of 0.25 ns, is `timeOff` plus 10 for each fc since the model's start, less what a
  slew has taken out (R8, R25, R275); the RTC is `rtcOff` plus 10 for each fc. -/
  timeOff : Int
  rtcOff : Int
  /-- Memory of the internal host that the module has written: DRAM reads zero after its wipe (R430). -/
  mem : Memory
  /-- Memory of the external host that the module has written. -/
  extMem : Memory
  log : EventLog
  arbs : Tbl Arb
  reqs : List Req
  till : Till
  cqIrq : Tbl CqIrq
  /-- Interrupts sent: to the application cores by source number, and MSI-X messages at 4096 plus their table entry
  (R60, R65). -/
  irqs : Tbl Nat
  tke : Tke
  sps : Sps
  sfe : Sfe
  /-- Descriptors fetched so far, over all rings. -/
  fetches : Nat
  /-- Drive channels, drive banks, switch channels, feeds and plane supervisors, by number. -/
  drv : Tbl DrvCh
  dbk : Tbl DrvBank
  sw : Tbl SwCh
  feed : Tbl Feed
  pps : Tbl Pps
  /-- Row-record entries of R199 and R223 published with the latest snapshot, under 8 × producer + channel. -/
  rowEntries : Tbl Nat
  xlk : Xlk
  nav : Nav
  sto : Sto
  fle : Fle
  ksm : Ksm
  vis : Vision
  /-- CAN controllers and Ethernet ports, by number; SPE0 and SPE1 are ports 4 and 5. -/
  can : Tbl CanCtl
  eth : Tbl EthPort
  pnl : Tbl Pnl
  upd : Upd
  aoc : Aoc
  hlm : Hlm
  deriving DecidableEq, Repr

/-- The machine right after reset: a power-on reset before cast-on (DEDUCED, log entry 5; safe). -/
def State.reset : State :=
  { now := 0, before := { regs := [], posts := [], navRec := NavRec.zero }, pending := [], regs := [], hiLatch := [], rolLatch := [], onesAt := [], readData := 0, freeCount := 0,
    fabric := false, timeOff := 0, rtcOff := 0, mem := [], extMem := []
    log := { seq := 0, events := [], written := 0, copied := 0, losing := false, jovf := [], stamps := [], suppressed := 0 }
    arbs := [], reqs := []
    till := Till.reset
    cqIrq := [], irqs := []
    tke := Tke.reset
    sps := Sps.reset
    sfe := Sfe.reset
    fetches := 0, drv := [], dbk := [], sw := [], feed := [], pps := [], rowEntries := []
    xlk := Xlk.reset
    nav := Nav.reset
    sto := Sto.reset
    fle := Fle.reset
    ksm := Ksm.reset
    vis := Vision.reset
    can := [], eth := [], pnl := []
    upd := Upd.reset
    aoc := Aoc.reset
    hlm := Hlm.reset }

end Sys2Proof.Machine
end

