-- ==== Sys2Proof/Machine/Wire.lean ====
section
/-! DEFINITION. What the fleet market puts into bytes: the URI of a member certificate (R368), tile identifiers and cells
as deltas carry them (R292, R295), and the fleet messages (R373, R380, R386). -/

namespace Sys2Proof.Machine

/-! ### Names in certificates (R368) -/

/-- "urn:quinery:market:" and ":pitch:" as bytes. -/
def uriHead : List Nat :=
  [0x75, 0x72, 0x6E, 0x3A, 0x71, 0x75, 0x69, 0x6E, 0x65, 0x72, 0x79, 0x3A, 0x6D, 0x61, 0x72, 0x6B, 0x65, 0x74, 0x3A]
def uriMid : List Nat := [0x3A, 0x70, 0x69, 0x74, 0x63, 0x68, 0x3A]

/-- Value of an upper-case hexadecimal digit. -/
def hexDigit (b : Nat) : Option Nat :=
  if 0x30 ≤ b ∧ b ≤ 0x39 then some (b - 0x30) else if 0x41 ≤ b ∧ b ≤ 0x46 then some (b - 0x37) else none

/-- Value of digits of a base; none where one is no digit of it. -/
def digitsNat (base : Nat) (l : List Nat) : Option Nat :=
  l.foldl (fun a b => match a, hexDigit b with
    | some v, some n => if n < base then some (base * v + n) else none
    | _, _ => none) (some 0)

/-- Market and pitch that a URI names: eight hexadecimal digits, and a decimal number of 0–1023 without leading zeros
(DEDUCED, log entry 183; safe). -/
def uriName (u : List Nat) : Option (Nat × Nat) :=
  let p := u.drop 34
  if u.take 19 != uriHead || (u.drop 27).take 7 != uriMid || p.isEmpty || (p.head? == some 0x30 && p.length != 1) then none
  else match digitsNat 16 ((u.drop 19).take 8), digitsNat 10 p with
    | some m, some n => if n < 1024 then some (m, n) else none
    | _, _ => none

end Sys2Proof.Machine

namespace Sys2Proof

/-- The market and pitch of a certificate with exactly one URI of the form. -/
def Cert.name (c : Cert) : Option (Nat × Nat) :=
  match c.uris.filterMap Machine.uriName with
  | [x] => some x
  | _ => none

def Cert.market (c : Cert) : Nat := (c.name.map (·.1)).getD 0
def Cert.pitch (c : Cert) : Nat := (c.name.map (·.2)).getD 0

/-- Largest certificate in DER (R369). -/
def Cert.sizeOk (c : Cert) : Bool := decide (c.der.length ≤ 1024)

end Sys2Proof

namespace Sys2Proof.Machine

/-! ### Tiles and cells (R292, R295) -/

/-- KIND of a TILE_ID. -/
def tileKind (id : Nat) : Nat := bitField id 32 4

/-- A TILE_ID with a defined KIND and its reserved bits zero. -/
def tileIdOk (id : Nat) : Bool := decide (id / 2 ^ 36 = 0) && decide (1 ≤ tileKind id ∧ tileKind id ≤ 3)

/-- Bytes of a cell. -/
def cellBytes (kind : Nat) : Nat := if kind = 1 then 16 else 1

/-! ### Bytes -/

/-- Little-endian bytes as numbers, and back. -/
def natBytes (n v : Nat) : List Nat := (leBytes n v).map (·.toNat)
def bytesNat : List Nat → Nat
  | [] => 0
  | b :: t => b % 256 + 256 * bytesNat t

/-- Field of `n` bytes of a message. -/
def msgField (raw : List Nat) (off n : Nat) : Nat := bytesNat ((raw.drop off).take n)

/-- The module's signature of a message: 96 bytes (R380). -/
def ownSignature (body : List Nat) : List Nat := (List.range 96).map fun k => Config.signature body k % 256

/-! ### DELTA (R380) -/

/-- Indices rise strictly and lie in a tile. -/
def indicesOk : List (Nat × Nat) → Bool
  | [] => true
  | [a] => decide (a.1 < 16384)
  | a :: b :: t => decide (a.1 < b.1) && indicesOk (b :: t)

/-- Most cells of a delta of a kind. -/
def deltaMax (kind : Nat) : Nat := if kind = 1 then 57 else 346

/-- The bytes that a delta's signature covers. -/
def deltaBody (d : Delta) : List Nat :=
  [1, 1] ++ natBytes 2 d.author ++ natBytes 4 d.market ++ natBytes 8 d.tile ++ natBytes 8 d.t ++ natBytes 2 d.c ++
    natBytes 2 d.cells.length ++ natBytes 4 d.origin ++ natBytes 2 d.cellCm ++ List.replicate 30 0 ++
    d.cells.flatMap fun e => natBytes 2 e.1 ++ natBytes (cellBytes (tileKind d.tile)) e.2

/-- A DELTA message. -/
def deltaBytes (d : Delta) : List Nat := deltaBody d ++ d.sig

/-- The cell entries of a delta: index, and the cell's bytes. -/
def deltaCells (raw : List Nat) (width n : Nat) : List (Nat × Nat) :=
  (List.range n).map fun k =>
    (msgField raw (0x40 + (2 + width) * k) 2, msgField raw (0x42 + (2 + width) * k) width)

/-- The delta of a message whose format is right: length, TYPE, VERSION, reserved bits, tile, CELL_COUNT, index order and
range (R384). -/
def parseDelta (raw : List Nat) : Option Delta :=
  let tile := msgField raw 8 8
  let w := cellBytes (tileKind tile)
  let n := msgField raw 0x1A 2
  let head := raw.getD 0 0 == 1 && raw.getD 1 0 == 1 && decide (msgField raw 2 2 < 1024) &&
    ((raw.drop 0x22).take 30).all (· == 0)
  if !head || !tileIdOk tile || n == 0 || decide (deltaMax (tileKind tile) < n) || raw.length != 0x40 + n * (2 + w) + 96 then
    none
  else
    let cells := deltaCells raw w n
    if indicesOk cells then
      some { author := msgField raw 2 2, market := msgField raw 4 4, tile := tile, t := msgField raw 0x10 8,
             c := msgField raw 0x18 2, origin := msgField raw 0x1C 4, cellCm := msgField raw 0x20 2, cells := cells,
             sig := raw.drop (0x40 + n * (2 + w)) }
    else none

/-! ### STATUS (R386) -/

/-- The bytes that the signature of the module's own status covers; those that R386 does not name are zero. -/
def statusBody (author market time timeState : Nat) (payload : List Nat) : List Nat :=
  [3, 1] ++ natBytes 2 author ++ natBytes 4 market ++ natBytes 8 time ++ natBytes 2 timeState ++
    natBytes 2 payload.length ++ List.replicate 12 0 ++ payload

/-- The status of a message whose format is right; bytes that R386 does not name are not checked (DESIGN CHOICE, log entry
184; unsafe). -/
def parseStatus (raw : List Nat) : Option StatusMsg :=
  let n := msgField raw 0x12 2
  if raw.getD 0 0 != 3 || raw.getD 1 0 != 1 || decide (256 < n) || raw.length != 0x20 + n + 96 then none
  else some { author := msgField raw 2 2 % 1024, market := msgField raw 4 4, time := msgField raw 8 8,
              timeState := raw.getD 0x10 0 % 4, payload := (raw.drop 0x20).take n, raw := raw }

/-- A status of the module's own. -/
def ownStatus (author market time timeState : Nat) (payload : List Nat) : StatusMsg :=
  let b := statusBody author market time timeState payload
  ⟨author, market, time, timeState % 4, payload, b ++ ownSignature b⟩

/-! ### Every message (R373) -/

/-- A fleet message as the module sends it. The certificate of an ANNOUNCE follows byte 0x01; the spec gives a SUMMARY no
layout (DESIGN CHOICE, log entry 184; safe). -/
def FleMsg.bytes : FleMsg → List Nat
  | .delta d => deltaBytes d
  | .announce c => [2, 1] ++ c.der
  | .status m => m.raw
  | .summary figures => [4, 1] ++ Config.summaryBody figures
  | .certReq pitch => [5, 1] ++ natBytes 2 pitch
  | .bye => [6, 1]
  | .keepalive => [7, 1]

/-- The pitch that a CERT_REQ names. -/
def parseCertReq (raw : List Nat) : Option Nat :=
  if raw.getD 0 0 == 5 && raw.getD 1 0 == 1 && decide (4 ≤ raw.length) then some (msgField raw 2 2 % 1024) else none

end Sys2Proof.Machine
end

