-- ==== Sys2Proof/Machine/Ops.lean ====
section
/-! DEFINITION. The shared operations: time, register fields, memory, queues that the module writes, events,
descriptors and their completions, free values. -/

namespace Sys2Proof.Machine

/-- The outcome of a command. -/
abbrev Out := Host.Outcome State Fault Refusal

/-! ### Time -/

/-- What an edge takes of the block. -/
def State.held (s : State) : Before := { regs := s.regs, posts := s.sps.posts, navRec := s.nav.record }

/-- Moves the time of the block forward to a command's time; a time already passed is taken as now. -/
def advance (s : State) (t : Fc) : State :=
  { s with now := max s.now t, before := if s.now < t then s.held else s.before }

/-- fc in a microsecond, a millisecond and a second (R7). -/
def fcUs : Nat := 400
def fcMs : Nat := 400000
def fcSec : Nat := 400000000

/-- Nanoseconds that a count of fc lasts, rounded down. -/
def nsOfFc (n : Nat) : Nat := 5 * n / 2

/-- What the slew of R275 has taken out of module time by a fabric cycle, in 0.25 ns: 100 ns per second, towards an
error of 0. -/
def slewed (s : State) (n : Nat) : Int :=
  let k := min s.nav.slew.natAbs ((n - s.nav.slewFrom) / 1000000)
  if s.nav.slew < 0 then -(k : Int) else k

/-- Module time at a fabric cycle in 0.25 ns. -/
def quarterAt (s : State) (n : Nat) : Int := s.timeOff + 10 * (n : Int) - slewed s n

/-- Module time at a fabric cycle (R8): 64-bit, wrapping. -/
def timeAt (s : State) (n : Nat) : Ns := (quarterAt s n / 4 % ((2 ^ 64 : Nat) : Int)).toNat

/-- Module time now. -/
def moduleTime (s : State) : Ns := timeAt s s.now

/-- Module time is about to change its law: what it went by is kept for one second. -/
def noteTime (s : State) : State :=
  let l := s.nav.past.filter fun p => decide (s.now < p.1 + fcSec)
  if (l.head?.map (·.1)) = some s.now then s
  else { s with nav := { s.nav with past := (s.now, s.timeOff, s.nav.slew, s.nav.slewFrom) :: l } }

/-- Module time of an event at an earlier fc, as it was then (R26): a step or slew made since does not move it. -/
def eventTime (s : State) (n : Nat) : Ns :=
  match (s.nav.past.filter fun p => decide (n < p.1)).getLast? with
  | some (_, off, slew, from_) => timeAt { s with timeOff := off, nav := { s.nav with slew := slew, slewFrom := from_ } } n
  | none => timeAt s n

/-- Applies an effect at a command's time. -/
def atTime (t : Fc) (f : State → State) (s : State) : Out := .next (f (advance s t))

/-- Applies an effect at a command's time while the fabric is initialised; else only time moves. -/
def atFabric (t : Fc) (f : State → State) (s : State) : Out :=
  .next (if s.fabric then f (advance s t) else advance s t)

/-- The tick edge of the present fc has not been run. -/
def edgeDue (s : State) : Bool := s.tke.running && s.tke.rowStart + s.tke.rowLen == s.now

/-- Applies the effect of a command `c` that belongs to the next row or sampled tick when it comes in the fc of a tick
edge (R104, R117, R142): before the edge it is held for it, whatever the order of arrival (R5; DEDUCED, log entry 128;
unsafe). -/
def afterEdge (c : Instr) (f : State → State) (s : State) : State :=
  if edgeDue s then { s with tke := { s.tke with held := s.tke.held ++ [c] } } else f s

/-- An effect that needs a condition; without it the command changes nothing. -/
def onlyIf (c : Bool) (f : State → State) (s : State) : State := if c then f s else s

/-! ### Register fields -/

/-- The key of a field of one instance and index. -/
def Fld.key (f : Fld) (i j : Nat) : Nat := (f.id * 64 + i % 64) * 4096 + j % 4096

/-- The reset value of a field (R11). Where the spec gives a dash: DESIGN CHOICE, log entry 7 (unsafe). -/
def Fld.resetAt (f : Fld) (i j : Nat) : Nat :=
  if f.resets.isEmpty then f.reset else f.resets.getD (if f.count = 1 then i else j) f.reset

/-- What a field holds: the last value written, or its reset value. -/
def rget (s : State) (f : Fld) (i : Nat := 0) (j : Nat := 0) : Nat :=
  tblGetD s.regs (f.key i j) (f.resetAt i j)

/-- The value a field is taken as: on use, not on the write (DEDUCED, log entry 11; unsafe). -/
def rval (s : State) (f : Fld) (i : Nat := 0) (j : Nat := 0) : Nat := f.lim.apply (rget s f i j)

/-- Sets a field; the value is kept to the field's width. -/
def rset (s : State) (f : Fld) (v : Nat) (i : Nat := 0) (j : Nat := 0) : State :=
  { s with regs := tblSet s.regs (f.key i j) (v % 2 ^ f.width) }

/-- The registers as they stood before the present fc. -/
def beforeRegs (s : State) : State := { s with regs := s.before.regs }

/-- A one-bit field. -/
def rbit (s : State) (f : Fld) (i : Nat := 0) (j : Nat := 0) : Bool := rget s f i j == 1

/-- Sets a one-bit field. -/
def rsetB (s : State) (f : Fld) (b : Bool) (i : Nat := 0) (j : Nat := 0) : State := rset s f (b2n b) i j

/-- Adds to a counter, which saturates at its width. -/
def rinc (s : State) (f : Fld) (n : Nat := 1) (i : Nat := 0) (j : Nat := 0) : State :=
  rset s f (satTo f.width (rget s f i j + n)) i j

/-- Adds to a counter that wraps. -/
def rwrap (s : State) (f : Fld) (n : Nat := 1) (i : Nat := 0) (j : Nat := 0) : State :=
  rset s f (rget s f i j + n) i j

/-- Sets a bit of a field. -/
def rsetBitAt (s : State) (f : Fld) (n : Nat) (b : Bool) (i : Nat := 0) (j : Nat := 0) : State :=
  rset s f (setBit (rget s f i j) n b) i j

/-- A 64-bit value in a low and a high field. -/
def rget64 (s : State) (lo hi : Fld) (i : Nat := 0) (j : Nat := 0) : Nat :=
  rget s lo i j + 2 ^ 32 * rget s hi i j

def rset64 (s : State) (lo hi : Fld) (v : Nat) (i : Nat := 0) (j : Nat := 0) : State :=
  rset (rset s lo v i j) hi (v / 2 ^ 32) i j

/-- A field read as two's complement. -/
def rgetS (s : State) (f : Fld) (i : Nat := 0) (j : Nat := 0) : Int := toSigned f.width (rget s f i j)

/-- Sets a two's complement field, saturated. -/
def rsetS (s : State) (f : Fld) (v : Int) (i : Nat := 0) (j : Nat := 0) : State :=
  rset s f (ofSignedSat f.width v) i j

/-- Sets a bit of an RW1C field and notes its fc, so that a write of 1 in the same fc leaves it set (R13). -/
def setOnes (s : State) (f : Fld) (n : Nat := 0) (i : Nat := 0) (j : Nat := 0) : State :=
  let s1 := rsetBitAt s f n true i j
  { s1 with onesAt := tblSet s1.onesAt (32 * f.key i j + n % 32) s.now }

/-- Software's write of `bits` to an RW1C field: each bit written 1 is cleared, unless the module has set it in the
same fc (R12, R13). -/
def clearOnes (s : State) (f : Fld) (bits : Nat) (i : Nat := 0) (j : Nat := 0) : State :=
  (List.range f.width).foldl (fun s n =>
    if bitOf bits n && !(tblGet? s.onesAt (32 * f.key i j + n) == some s.now) then rsetBitAt s f n false i j else s) s

/-- The event of an ROL field (R12): its first since the previous read is what the next read returns; one of the fc
of a read is kept for the read after it (R13). -/
def rolEvent (s : State) (f : Fld) (v : Nat) (i : Nat := 0) : State :=
  let k := f.key i 0
  let w := v % 2 ^ f.width
  let r : RolSt := match tblGet? s.rolLatch k with
    | none => ⟨s.now, some w, none, rget s f i⟩
    | some r =>
      if r.at_ = s.now then { r with fresh := some (r.fresh.getD w) }
      else ⟨s.now, some w, some (r.latched.getD (r.fresh.getD w)), rget s f i⟩
  rset { s with rolLatch := tblSet s.rolLatch k r } f v i

/-- The greater of two peaks; `n` is one more than the greatest value of the peak itself, and what stands above it
goes with it. -/
def peakMax (n : Nat) (a : Option Nat) (b : Nat) : Nat :=
  match a with
  | some a => if a % n < b % n then b else a
  | none => b

/-- The event of an ROL field that keeps the highest value since the previous read; a companion field's value stands
above the field's width in `v`. `fc` is that of the event. -/
def rolPeakAt (fc : Nat) (s : State) (f : Fld) (v : Nat) (i : Nat := 0) : State :=
  let k := f.key i 0
  let n := 2 ^ f.width
  let r : RolSt := match tblGet? s.rolLatch k with
    | none => ⟨fc, some v, none, 0⟩
    | some r =>
      if r.at_ = fc then { r with fresh := some (peakMax n r.fresh v) }
      else ⟨fc, some v, some (match r.fresh with
        | some w => peakMax n r.latched w
        | none => r.latched.getD 0), 0⟩
  { s with rolLatch := tblSet s.rolLatch k r }

/-- An event of the present fc at such a field. -/
def rolPeak (s : State) (f : Fld) (v : Nat) (i : Nat := 0) : State := rolPeakAt s.now s f v i

/-- What a read of an ROL field returns, and the state after the read has released the latch (R12, R13; a peak without
an event DEDUCED, log entry 13; unsafe). -/
def rolRead (s : State) (f : Fld) (peak : Bool) (i : Nat := 0) : Nat × State :=
  let k := f.key i 0
  match tblGet? s.rolLatch k with
  | none => (if peak then 0 else rget s f i, s)
  | some r =>
    match r.fresh with
    | some w =>
      if r.at_ = s.now then
        (r.latched.getD r.before, { s with rolLatch := tblSet s.rolLatch k { r with latched := none } })
      else
        (if peak then peakMax (2 ^ f.width) r.latched w else r.latched.getD w,
          { s with rolLatch := tblErase s.rolLatch k })
    | none => (r.latched.getD (if peak then 0 else rget s f i), { s with rolLatch := tblErase s.rolLatch k })

/-- The number of the block that a register key belongs to, and its instance. -/
def keyBlk (k : Nat) : Nat := k / (64 * 4096) / 128
def keyInst (k : Nat) : Nat := k / 4096 % 64

/-- Forgets the registers and read latches of the keys that satisfy `p`: they read their reset values (R11). -/
def dropKeys (s : State) (p : Nat → Bool) : State :=
  { s with
    regs := s.regs.filter fun x => !p x.1, hiLatch := s.hiLatch.filter fun x => !p x.1,
    rolLatch := s.rolLatch.filter fun x => !p x.1, onesAt := s.onesAt.filter fun x => !p (x.1 / 32) }

/-- Puts a whole block's registers back to their reset values (R11), but for the fields in `keep`. -/
def resetBlock (s : State) (b : Blk) (keep : List Fld := []) : State :=
  dropKeys s fun k => keyBlk k == blkCode b && !keep.any fun f => f.id == k / (64 * 4096)

/-- As `resetBlock`, for the instances that satisfy `which` only. -/
def resetInst (s : State) (b : Blk) (which : Nat → Bool) : State :=
  dropKeys s fun k => keyBlk k == blkCode b && which (keyInst k)

/-! ### Free values -/

/-- Draws the next free value and hands it on. -/
def withFree (s : State) (f : Nat → State → State) : State :=
  f (Config.freeValue s.freeCount) { s with freeCount := s.freeCount + 1 }

/-! ### Memory that the module writes -/

/-- What a byte of memory that nothing has written reads as: DRAM is wiped to zero (R430); for external host memory
DESIGN CHOICE, log entry 8 (unsafe). -/
def Memory.unlisted : Byte := 0

def Memory.read (m : Memory) (a : Nat) : Byte := tblGetD m a Memory.unlisted

/-- Writes one byte, keeping the canonical form. -/
def Memory.write (m : Memory) (a : Nat) (b : Byte) : Memory :=
  if b = Memory.unlisted then tblErase m a else tblSet m a b

/-- Writes bytes at rising addresses, which wrap at 2^64. -/
def Memory.writeList (m : Memory) (a : Nat) : List Byte → Memory
  | [] => m
  | b :: t => Memory.writeList (Memory.write m (a % 2 ^ 64) b) (a + 1) t

/-- The canonical form: addresses strictly rising, no byte equal to what an unlisted address reads as. -/
def Memory.wf (m : Memory) : Bool := tblSorted m && m.all fun p => p.2 != Memory.unlisted

/-- Writes bytes to the memory of one host: 0 internal, 1 external (R55). -/
def hostWrite (s : State) (host : Bool) (a : Nat) (bs : List Byte) : State :=
  if host then { s with extMem := Memory.writeList s.extMem a bs } else { s with mem := Memory.writeList s.mem a bs }

/-- Reads bytes the module has written to the memory of one host. -/
def hostRead (s : State) (host : Bool) (a n : Nat) : List Byte :=
  (List.range n).map fun k => Memory.read (if host then s.extMem else s.mem) ((a + k) % 2 ^ 64)

/-! ### Rings and queues: index and phase -/

/-- Position of an index and phase on the double pass of a ring of `n` entries: phase 1 first. -/
def ringPos (n idx ph : Nat) : Nat := idx + if ph = 1 then 0 else n

/-- Entries from position `a` to position `b`. -/
def ringDist (n a b : Nat) : Nat := (b + 2 * n - a) % (2 * n)

/-- The index at a position. -/
def posIndex (n p : Nat) : Nat := p % n

/-- The phase at a position. -/
def posPhase (n p : Nat) : Nat := if p % (2 * n) < n then 1 else 0

/-- The register fields of a queue that the module writes without descriptors (R55, R352, R363). -/
structure QueueRegs where
  baseLo : Fld
  baseHi : Fld
  size : Fld
  host : Fld
  enable : Fld
  headIdx : Fld
  headPh : Fld
  wrIdx : Fld
  wrPh : Fld
  deriving DecidableEq, Repr

/-- The telemetry ring (R452). -/
def queueTlm : QueueRegs :=
  ⟨R.HLM_TLM_BASE_LO_ADDR_LO, R.HLM_TLM_BASE_HI_ADDR_HI, R.HLM_TLM_CFG_SIZE_LOG2, R.HLM_TLM_CFG_HOST,
   R.HLM_TLM_CFG_ENABLE, R.HLM_TLM_HEAD_INDEX, R.HLM_TLM_HEAD_PHASE, R.HLM_TLM_WRITE_INDEX, R.HLM_TLM_WRITE_PHASE⟩

/-- The CAN receive queues (R352), by controller and queue. -/
def queueCan : QueueRegs :=
  ⟨R.CAN_RXQ_BASE_LO_ADDR_LO, R.CAN_RXQ_BASE_HI_ADDR_HI, R.CAN_RXQ_CFG_SIZE_LOG2, R.CAN_RXQ_CFG_HOST,
   R.CAN_RXQ_CFG_ENABLE, R.CAN_RXQ_HEAD_INDEX, R.CAN_RXQ_HEAD_PHASE, R.CAN_RXQ_WRITE_INDEX, R.CAN_RXQ_WRITE_PHASE⟩

/-- The Ethernet receive queues (R359). -/
def queueEth : QueueRegs :=
  ⟨R.ETH_RXQ_BASE_LO_ADDR_LO, R.ETH_RXQ_BASE_HI_ADDR_HI, R.ETH_RXQ_CFG_SIZE_LOG2, R.ETH_RXQ_CFG_HOST,
   R.ETH_RXQ_CFG_ENABLE, R.ETH_RXQ_HEAD_INDEX, R.ETH_RXQ_HEAD_PHASE, R.ETH_RXQ_WRITE_INDEX, R.ETH_RXQ_WRITE_PHASE⟩

/-- The fleet receive queue (R390). -/
def queueFle : QueueRegs :=
  ⟨R.FLE_RXQ_BASE_LO_ADDR_LO, R.FLE_RXQ_BASE_HI_ADDR_HI, R.FLE_RXQ_CFG_SIZE_LOG2, R.FLE_RXQ_CFG_HOST,
   R.FLE_RXQ_CFG_ENABLE, R.FLE_RXQ_HEAD_INDEX, R.FLE_RXQ_HEAD_PHASE, R.FLE_RXQ_WRITE_INDEX, R.FLE_RXQ_WRITE_PHASE⟩

/-- The row-summary ring (R105, R106). -/
def queueRrec : QueueRegs :=
  ⟨R.TKE_RREC_BASE_LO_ADDR_LO, R.TKE_RREC_BASE_HI_ADDR_HI, R.TKE_RREC_CFG_SIZE_LOG2, R.TKE_RREC_CFG_HOST,
   R.TKE_RREC_CFG_ENABLE, R.TKE_RREC_HEAD_INDEX, R.TKE_RREC_HEAD_PHASE, R.TKE_RREC_WRITE_INDEX,
   R.TKE_RREC_WRITE_PHASE⟩

/-- The queues that the module writes without descriptors. -/
def queueOf (q : WriteQueue) : QueueRegs × Nat × Nat :=
  match q with
  | .can c n => (queueCan, c.val, n.val)
  | .eth p => (queueEth, p.val, 0)
  | .fleet => (queueFle, 0, 0)
  | .telemetry => (queueTlm, 0, 0)
  | .rowSummary => (queueRrec, 0, 0)

/-- Entries of a queue: 2^k of R55. -/
def queueSize (s : State) (q : QueueRegs) (i j : Nat) : Nat := 2 ^ rval s q.size i j

/-- The head of a queue, index and phase; a HEAD write of the present fc that waits frees its entries first (R356, R454). -/
def queueHeadNow (s : State) (q : QueueRegs) (i j : Nat) : Nat × Nat :=
  s.pending.foldl (fun h c => match c with
    | .queueHeadWrite t w idx ph => if t = s.now ∧ queueOf w = (q, i, j) then (idx.val, ph.val) else h
    | .rrecHeadWrite t idx ph => if t = s.now ∧ q = queueRrec then (idx.val, ph.val) else h
    | _ => h) (rget s q.headIdx i j, rget s q.headPh i j)

/-- Entries written and not yet returned by software. -/
def queueUsed (s : State) (q : QueueRegs) (i j : Nat) : Nat :=
  let n := queueSize s q i j
  let h := queueHeadNow s q i j
  ringDist n (ringPos n h.1 h.2) (ringPos n (rget s q.wrIdx i j) (rget s q.wrPh i j))

/-- The queue is enabled and has a free entry. -/
def queueRoom (s : State) (q : QueueRegs) (i j : Nat) : Bool :=
  rbit s q.enable i j && queueUsed s q i j < queueSize s q i j

/-- The host of a queue's memory. -/
def queueHost (s : State) (q : QueueRegs) (i j : Nat) : Bool := rbit s q.host i j

/-- The base address of a queue. -/
def queueBase (s : State) (q : QueueRegs) (i j : Nat) : Nat :=
  rget s q.baseLo i j * 4096 + 2 ^ 32 * rget s q.baseHi i j

/-- Writes an entry of `size` bytes at the write slot and moves the slot on; `mk` makes the bytes from the phase. -/
def queuePut (s : State) (q : QueueRegs) (i j size : Nat) (mk : Nat → List Byte) : State :=
  let n := queueSize s q i j
  let idx := rget s q.wrIdx i j
  let ph := rget s q.wrPh i j
  let s1 := hostWrite s (queueHost s q i j) (queueBase s q i j + size * idx) (mk ph)
  let p := ringPos n idx ph + 1
  rset (rset s1 q.wrIdx (posIndex n p) i j) q.wrPh (posPhase n p) i j

/-- A change of ENABLE from 0 to 1: write slot and head become slot 0 with phase 1 (R55). A write of 1 to an
ENABLE that reads 1 changes nothing; a write of 0 only clears it. -/
def queueEnable (s : State) (q : QueueRegs) (i j : Nat) (on : Bool) : State :=
  if on then
    if rbit s q.enable i j then s
    else
      let s1 := rset (rset s q.headIdx 0 i j) q.headPh 1 i j
      let s2 := rset (rset s1 q.wrIdx 0 i j) q.wrPh 1 i j
      rset s2 q.enable 1 i j
  else rset s q.enable 0 i j

/-- Software writes the head of a queue (R352). -/
def queueHead (s : State) (q : QueueRegs) (i j idx ph : Nat) : State :=
  rset (rset s q.headIdx idx i j) q.headPh ph i j

/-! ### Events (R450–R452) -/

/-- The commit window in fc of a period and offset in µs (R77, R78). -/
def windowOf (periodUs offsetUs : Nat) : Nat := (if offsetUs = 0 then periodUs / 2 else offsetUs) * fcUs

/-- fc of the commit point of the running row (R77). -/
def commitAt (s : State) : Nat := s.tke.rowStart + windowOf s.tke.inForce.periodUs s.tke.inForce.offsetUs

/-- The 64-bit row counter (R79). -/
def rowNow (s : State) : Nat := rget64 s R.TKE_ROW_LO_ROW R.TKE_ROW_HI_ROW

/-- The row whose tick edge is the latest at or before the present fc, whether or not that edge has been run (R67, R69). -/
def rowHere (s : State) : Nat := rowNow s + b2n (edgeDue s)

/-- The 32 bytes of an event record (R450). -/
def evBytes (e : Ev) : List Byte :=
  leBytes 8 e.time ++ leBytes 8 e.row ++ leBytes 2 e.code ++ leBytes 1 e.inst ++ leBytes 1 (b2n e.tick) ++
    leBytes 4 e.seq ++ leBytes 8 e.data

/-- Writes an entry of the telemetry ring, or counts it dropped when the ring is full (R452). -/
def telemetryPut (s : State) (kind : Nat) (body : List Byte) : State :=
  if rbit s R.HLM_TLM_CFG_ENABLE then
    if queueRoom s queueTlm 0 0 then
      queuePut s queueTlm 0 0 128 fun ph =>
        leBytes 1 kind ++ leBytes 2 0 ++ leBytes 1 (ph * 128) ++ leBytes 12 0 ++
          (body ++ List.replicate (112 - body.length) 0)
    else rinc s R.HLM_TLM_DROPS_TLM_DROPS
  else s

/-- Slots of the EVENTS ring (R306). -/
def eventSlots : Nat := 524288

/-- Writes one event record to the EVENTS ring (R306, R309, R312). -/
def journalPut (s : State) (e : Ev) : State :=
  let l := s.log
  let slot := l.written % eventSlots
  let lost := l.copied + eventSlots ≤ l.written
  let l1 := { l with
    events := tblSet l.events slot e, written := l.written + 1,
    copied := if lost then l.copied + 1 else l.copied, losing := decide lost, stamps := s.now :: l.stamps }
  let s1 := rset { s with log := l1 } R.JRN_STAT_EV_HEAD ((l.written + 1) % eventSlots)
  if lost then rinc s1 R.JRN_OVF_OVF_LOST else s1

/-- Takes the next event sequence number (R450). -/
def nextSeq (s : State) : State := { s with log := { s.log with seq := (s.log.seq + 1) % 2 ^ 32 } }

/-- Numbers an event and writes it to the telemetry ring and, within the budget of R451, to the journal. -/
def writeEvent (s : State) (code inst data : Nat) (tick : Bool) : State :=
  let e : Ev := ⟨moduleTime s, rowNow s, code, inst, tick, s.log.seq, data % 2 ^ 64⟩
  journalPut (telemetryPut (nextSeq s) 1 (evBytes e)) e

/-- The codes of the blocks of the tick world (R17): TKE, SPS and FNL, SFE, DBK, SBK, PPS and the pair. -/
def tickEvent (code : Nat) : Bool := decide (0x0300 ≤ code ∧ code < 0x0900)

/-- Raises an event (R450, R451): no more than 200 journal records in any second; an event beyond is telemetry
only and counted, and the first journal write after it is preceded by EVENTS_SUPPRESSED. The first record of a loss
episode raises JRN_OVF_LOST (R309). -/
def raiseEv (s : State) (code : Nat) (inst : Nat := 0) (data : Nat := 0) : State :=
  let tick := tickEvent code
  let l := s.log
  let told := fun (s1 : State) => if !l.losing && s1.log.losing then writeEvent s1 evJrnOvfLost 0 0 false else s1
  let recent := l.stamps.filter fun t => s.now < t + fcSec
  let s0 := { s with log := { l with stamps := recent } }
  let beyond := fun (s0 : State) =>
    let e : Ev := ⟨moduleTime s0, rowNow s0, code, inst, tick, s0.log.seq, data % 2 ^ 64⟩
    let s1 := rinc (telemetryPut (nextSeq s0) 1 (evBytes e)) R.HLM_TLM_DROPS_JRN_SUPPRESSED
    { s1 with log := { s1.log with suppressed := s1.log.suppressed + 1 } }
  if 200 ≤ recent.length then beyond s0
  else if 0 < l.suppressed then
    let s1 := writeEvent { s0 with log := { s0.log with suppressed := 0 } } evEventsSuppressed 0 l.suppressed false
    if recent.length < 199 then told (writeEvent s1 code inst data tick) else told (beyond s1)
  else told (writeEvent s0 code inst data tick)

/-! ### Margin and monitor records (R459) -/

/-- Seconds that the module has operated. -/
def opSeconds (s : State) : Nat :=
  (s.hlm.opFc + match s.hlm.runFrom with
    | some a => s.now - a
    | none => 0) / fcSec

/-- What a record says beside its time, number and checksum. -/
structure AgeRec where
  kind : Nat
  inst : Nat
  item : Nat
  action : Nat
  value : F32
  baseline : F32
  old : Nat
  new : Nat
  least : F32
  greatest : F32
  count : Nat
  noMove : Nat
  vbst : F32
  deriving DecidableEq, Repr

/-- The 64 bytes of a record. -/
def ageBytes (s : State) (r : AgeRec) (seq : Nat) : List Byte :=
  let b := leBytes 8 (moduleTime s) ++ leBytes 4 (opSeconds s) ++ leBytes 1 r.kind ++ leBytes 1 r.inst ++
    leBytes 1 r.item ++ leBytes 1 r.action ++ leBytes 4 r.value ++ leBytes 4 r.baseline ++ leBytes 4 r.old ++
    leBytes 4 r.new ++ leBytes 4 r.least ++ leBytes 4 r.greatest ++ leBytes 2 r.count ++ leBytes 2 r.noMove ++
    leBytes 4 r.vbst ++ leBytes 8 0 ++ leBytes 4 seq
  b ++ leBytes 4 (crc32 (b.map (·.toNat)))

/-- Writes a margin record to its ring and to the telemetry ring. -/
def marginPut (s : State) (r : AgeRec) : State :=
  let h := s.hlm
  let bytes := ageBytes s r h.marginSeq
  let s1 := { s with hlm := { h with margin := tblSet h.margin (h.marginSeq % 16384) bytes, marginSeq := h.marginSeq + 1 } }
  telemetryPut s1 3 bytes

/-- Writes a monitor record. -/
def monitorPut (s : State) (r : AgeRec) : State :=
  let h := s.hlm
  let bytes := ageBytes s r h.monitorSeq
  { s with hlm := { h with monitor := tblSet h.monitor (h.monitorSeq % 111616) bytes, monitorSeq := h.monitorSeq + 1 } }

/-- A margin record of a changed limit, and its event (R457, R458, R462). -/
def marginChange (s : State) (kind inst action old new : Nat) : State :=
  let s1 := marginPut s ⟨kind, inst, 0, action, 0, 0, old, new, 0, 0, 0, 0, 0⟩
  raiseEv s1 evHlmMarginChanged 0 (kind + 256 * inst + 65536 * (new % 2 ^ 32))

/-! ### Descriptors and completions -/

/-- The name of an outstanding descriptor. -/
def Req.ref (q : Req) : Ref := ⟨q.ring, q.slot, q.pass⟩

/-- The outstanding descriptor of a name. -/
def findReq (s : State) (r : Ref) : Option Req := s.reqs.find? fun q => q.ref == r

/-- The fetched descriptor of a ring slot. -/
def reqDesc (s : State) (r : Ref) : Option Desc :=
  match findReq s r with
  | some q => q.desc
  | none => none

/-- Changes the outstanding descriptor of a ring slot. -/
def updReq (s : State) (r : Ref) (f : Req → Req) : State :=
  { s with reqs := s.reqs.map fun q => if q.ref == r then f q else q }

/-- The descriptor that its consumer holds in a ring slot, if it has the class and opcode named. -/
def heldDesc (s : State) (r : Ref) (cls op : Nat) : Option Desc :=
  match findReq s r with
  | some q =>
    match q.desc with
    | some d => if q.stage = .held ∧ d.cls = cls ∧ d.op = op then some d else none
    | none => none
  | none => none

/-- The consumer has taken the descriptor and not completed it. -/
def isTaken (s : State) (r : Ref) : Bool :=
  match findReq s r with
  | some q => decide (q.stage = .taken)
  | none => false

/-- Index of the service requester at the till (R27). -/
def svc : Nat := 48

/-- Posts a record to the till; its producer begins to request (R27, R68). -/
def tillPost (s : State) (r : TillRec) : State := { s with till := { s.till with posted := s.till.posted ++ [r] } }

/-- Completes a descriptor through the till's service requester; one that was abandoned (R75) has no completion. -/
def complete (s : State) (r : Ref) (status : Nat) (detail : Nat := 0) (row : Option Nat := none) : State :=
  if (findReq s r).isNone then s
  else tillPost (updReq s r fun q => { q with stage := .posted ⟨status, detail % 2 ^ 16, row⟩ }) ⟨svc, false, [r]⟩

/-- Completes a descriptor, where there is one. -/
def completeOpt (s : State) (r : Option Ref) (status : Nat) (detail : Nat := 0) (row : Option Nat := none) : State :=
  match r with
  | some x => complete s x status detail row
  | none => s

/-- This module commands outputs: its role is SINGLE or PRIMARY (R236, R238). -/
def commanding (s : State) : Bool := rget s R.XLK_ROLE_ROLE == 0 || rget s R.XLK_ROLE_ROLE == 2

/-- A descriptor of R238 on a module that is neither PRIMARY nor SINGLE completes REJECT_STATE. -/
def ifCommanding (r : Ref) (row : Option Nat) (f : State → State) (s : State) : State :=
  if commanding s then f s else complete s r stRejectState 0x0283 row

/-- Completes a row-time descriptor of a block that posts row records: the completion waits for the record. -/
def completeRow (s : State) (prod : Nat) (r : Ref) (status : Nat) (detail row : Nat) : State :=
  if (findReq s r).isNone then s
  else
    let s1 := updReq s r fun q => { q with stage := .posted ⟨status, detail % 2 ^ 16, some row⟩ }
    { s1 with till := { s1.till with rowDone := tblSet s1.till.rowDone prod (tblGetD s1.till.rowDone prod [] ++ [r]) } }

/-- The row or module time that NOT_BEFORE names has come (R67). -/
def due (s : State) (d : Desc) : Bool :=
  d.notBefore == 0 || decide (d.notBefore ≤ if d.cls ≤ 3 then rowNow s else moduleTime s)

/-- The consumer begins work on a descriptor. -/
def takeReq (s : State) (r : Ref) : State := updReq s r fun q => { q with stage := .taken }

/-- A consumer takes a held descriptor of one class and opcode that is due; without one the command changes
nothing. -/
def withDesc (r : Ref) (cls op : Nat) (f : Desc → State → State) (s : State) : State :=
  match heldDesc s r cls op with
  | some d => if due s d then f d (takeReq s r) else s
  | none => s

/-- Ring 256 does not exist: a frame on the bus whose descriptor has been abandoned carries this reference. -/
def ghostRef : Ref := ⟨256, 0, 0⟩

/-- Puts a descriptor in its place by order of fetch. -/
def insertReq (q : Req) : List Req → List Req
  | [] => [q]
  | p :: t => if q.order < p.order then q :: p :: t else p :: insertReq q t

/-- Number of a descriptor's fetch. -/
def orderOf (s : State) (r : Ref) : Nat :=
  match findReq s r with
  | some q => q.order
  | none => 0

/-- Puts a job in its place by order of fetch. -/
def insertJob (s : State) (r : Ref) : List Ref → List Ref
  | [] => [r]
  | x :: t => if orderOf s r < orderOf s x then r :: x :: t else x :: insertJob s r t

/-- The held descriptors of a class, in order of fetch. -/
def heldReqs (s : State) (cls : Nat) : List Req :=
  (s.reqs.filter fun q => decide (q.stage = .held) && (q.desc.map (·.cls)) == some cls).foldr insertReq []

/-- Their references. -/
def heldRefs (s : State) (cls : Nat) : List Ref := (heldReqs s cls).map Req.ref

/-- Applies an abort registered in fc `a` to an outstanding descriptor (R71): one already sequenced stands; one without a
sequence number completes ABORTED, its consumer having stopped; `stop` is what the consumer does and how it completes.
One not yet fetched only keeps the mark. The row of a row-time class is that of the abort (R69). A CAN frame's DETAIL
stays as it is (R347). -/
def abortReqAt (s : State) (r : Ref) (a : Nat) (stop : State → State) : State :=
  match findReq s r with
  | none => s
  | some q =>
    if q.aborted.isSome then s
    else
      let natural := match q.stage with
        | .posted c => some c
        | _ => none
      let s1 := updReq s r fun q => { q with aborted := some ⟨rowHere s, a, natural⟩ }
      match q.stage with
      | .held => stop s1
      | .taken => stop s1
      | .posted c =>
        let can := (q.desc.map (·.cls)) == some 6 && (c.status == stDone || c.status == stOverlapDropped)
        updReq s1 r fun q => { q with
          stage := .posted ⟨stAborted, if can then c.detail else 0, c.row.map fun _ => rowHere s⟩ }
      | _ => s1

/-- Applies an abort of the present fc. -/
def abortReq (s : State) (r : Ref) (stop : State → State) : State := abortReqAt s r s.now stop

/-- Pitch and market of the module's certificate (R390); 0 without one. -/
def ownPitch (s : State) : Nat := match s.ksm.memberCert with
  | some c => c.pitch % 1024
  | none => 0
def ownMarket (s : State) : Nat := match s.ksm.memberCert with
  | some c => c.market % 2 ^ 32
  | none => 0

/-- Life-cycle states of R425. -/
def lcState (s : State) : Nat := rget s R.KSM_LC_STATE

/-- The KSM does not use the key of a store partition in this life-cycle state: that of MAP and of APP in SERVICE, where SEALED
is 1, and of all but SYSTEM in MANUFACTURE and RETIRED (R425, R431). -/
def keyWithheld (s : State) (p : Nat) : Bool :=
  (rbit s R.KSM_LC_SEALED || lcState s == 3) && (p == 4 || p == 6) || (lcState s == 0 || lcState s == 4) && p != 0

/-- The TKE counts as armed while ARMED is 1 (R106). -/
def tkeArmed (s : State) : Bool := rbit s R.TKE_CTRL_ARMED

end Sys2Proof.Machine
end

