-- ==== Sys2Proof/Machine/Arbiter.lean ====
section
/-! DEFINITION. The arbiters (R27–R41) and their commands. An instance stands in a cycle with what it has been told in
it; what the cycle grants follows from that alone, whatever the order of the commands (R5, R35), and later cycles are
reached by closing the ones before them. -/

namespace Sys2Proof.Machine

/-! ### Instances -/

/-- Nothing has been told. -/
def ArbEv.none_ : ArbEv := ⟨[], [], false, 0, false⟩

/-- An instance after reset: index 0 highest (R28), nothing requests (DESIGN CHOICE, log entry 10; unsafe). -/
def arbInit (n : Nat) : Arb :=
  { cyc := 0, st := ⟨List.range (R.ARB_INFO_REQ_COUNT.resetAt n 0), [], none, none, none, [], none⟩, ev := .none_,
    tickets := [], masked := [], flushMask := false, maskNext := [], flushNext := false }

def getArb (s : State) (n : Nat) : Arb := tblGetD s.arbs n (arbInit n)
def setArb (s : State) (n : Nat) (a : Arb) : State := { s with arbs := tblSet s.arbs n a }

/-- L, E and W in force at an instance, and whether its emergency requester is enabled (R27, R34). -/
structure ArbLim where
  l : Nat
  e : Nat
  w : Nat
  on : Bool
  deriving DecidableEq, Repr

def arbL (s : State) (n : Nat) : Nat := rget s R.ARB_LIMITS_TENURE_MAX n
def arbE (s : State) (n : Nat) : Nat := rget s R.ARB_LIMITS_EMERG_MAX n
def arbW (s : State) (n : Nat) : Nat := rget s R.ARB_EMERG_EMERG_SPACING n
def arbEmOn (s : State) (n : Nat) : Bool := rbit s R.ARB_EMERG_EMERG_ENABLED n
def arbLim (s : State) (n : Nat) : ArbLim := ⟨arbL s n, arbE s n, arbW s n, arbEmOn s n⟩

/-- The cycle of an instance's domain at a fabric cycle: FAB 400 MHz, MEM 800 MHz, XLK 312.5 MHz (R24, R27). -/
def arbCycleAt (n fc : Nat) : Nat := if 1 ≤ n ∧ n ≤ 4 then 2 * fc else if n = 21 then fc * 25 / 32 else fc

/-- The fabric cycle of a cycle of an instance's domain. -/
def arbFcAt (n c : Nat) : Nat := if 1 ≤ n ∧ n ≤ 4 then c / 2 else if n = 21 then (c * 32 + 24) / 25 else c

/-! ### One cycle -/

/-- The highest-ranked requester that requests and is not masked (R28). -/
def ArbSt.winner (b : ArbSt) (masked : List Nat) : Option Nat :=
  b.rank.find? fun p => b.want.contains p && !masked.contains p

/-- Requests join those that wait; a requester that waits already does not join again. The request of one that holds
stands beyond the end of its grant (DESIGN CHOICE, log entry 162; unsafe). -/
def ArbSt.ask (b : ArbSt) (ps : List Nat) : ArbSt :=
  { b with want := b.want ++ (ps.filter fun p => b.rank.contains p && !b.want.contains p).eraseDups }

/-- The grant of cycle `c`: a free resource goes to the winner for L cycles, and the winner moves to the lowest rank
(R28, R29). -/
def ArbSt.grant (b : ArbSt) (masked : List Nat) (l c : Nat) : ArbSt :=
  if b.holder.isSome ∨ b.emStart.isSome then b
  else match b.winner masked with
    | some p => { b with holder := some ⟨p, c, l⟩, want := b.want.erase p, rank := b.rank.erase p ++ [p] }
    | none => b

/-- The instance in its cycle with the requests made so far granted. -/
def Arb.granted (a : Arb) (l : Nat) : ArbSt := (a.st.ask a.ev.reqs).grant a.masked l a.cyc

/-- The grant of this cycle is withdrawn in this cycle (R30). -/
def Arb.unused (a : Arb) (l : Nat) : Bool :=
  (a.granted l).holder.any fun g => g.start == a.cyc && g.left == l && a.ev.withdrawn.contains g.who

/-- The instance in its cycle: a requester that has not been granted and withdraws no longer waits (R31), and a grant
withdrawn in its first cycle leaves the resource idle (R30). -/
def Arb.inCycle (a : Arb) (l : Nat) : ArbSt :=
  let b := a.granted l
  { b with want := b.want.filter fun p => !a.ev.withdrawn.contains p, holder := if a.unused l then none else b.holder }

/-- First cycle in which the oldest waiting emergency request may be granted: the cycle after the request, and no
sooner than W after the start of the grant before (R32, R33). -/
def ArbSt.emDue (b : ArbSt) (w : Nat) : Option Nat :=
  match b.emWait with
  | [] => none
  | r :: _ => some (match b.emLast with
    | some l => max (r + 1) (l + w)
    | none => r + 1)

/-- A normal grant with tenure left after the cycle before `c`, as it resumes in `c`. -/
def Grant.rest (g : Grant) (c : Nat) : Option Grant :=
  if g.start + g.left ≤ c then none else some { g with start := c, left := g.start + g.left - c }

/-- An emergency grant begins in cycle `c`; a holder with tenure left is pre-empted (R32). -/
def ArbSt.emBegin (b : ArbSt) (c : Nat) : ArbSt :=
  { b with emWait := b.emWait.drop 1, emStart := some c, emLast := some c, holder := none,
           resume := b.holder.bind fun g => g.rest c }

/-- What the close of a cycle answers: the state at the start of the next one, and the pre-emption or the dead cycle
that is counted. -/
structure ArbClose where
  st : ArbSt
  preempt : Bool
  dead : Bool
  deriving DecidableEq, Repr

/-- The requests and releases of a cycle as they stand at its end. -/
def Arb.atEnd (a : Arb) (m : ArbLim) : ArbSt :=
  let b := a.inCycle m.l
  { b with
    holder := if a.ev.ended then none else b.holder
    emWait := b.emWait ++ List.replicate a.ev.emReqs a.cyc }

/-- Closes a cycle: an emergency grant that ends or has run E cycles gives way to the pre-empted holder (R32); else an
emergency request that is due is granted from the next cycle, a holder in mid-tenure is pre-empted, and a withdrawal of
the same cycle counts as a pre-emption and costs no dead cycle (R35). -/
def Arb.close (a : Arb) (m : ArbLim) : ArbClose :=
  let b := a.atEnd m
  let c := a.cyc + 1
  match b.emStart with
  | some f =>
    if a.ev.emEnded ∨ f + m.e ≤ c then
      ⟨{ b with emStart := none, resume := none, holder := b.resume.map fun g => { g with start := c } }, false, a.unused m.l⟩
    else ⟨b, false, false⟩
  | none =>
    if m.on ∧ (b.emDue m.w).any fun d => decide (d ≤ c) then
      ⟨b.emBegin c, (b.emBegin c).resume.isSome || a.unused m.l, false⟩
    else ⟨b, false, a.unused m.l⟩

/-! ### From cycle to cycle -/

/-- The cycle, after the one in which the instance stands, at whose end something happens of itself: an emergency
request falls due, or an emergency grant has run E cycles; `c` where neither comes before it. -/
def Arb.quietTo (a : Arb) (m : ArbLim) (c : Nat) : Nat :=
  let d := match a.st.emStart with
    | some f => f + m.e
    | none => if m.on then (a.st.emDue m.w).getD c else c
  max a.cyc (min c (d - 1))

/-- Reaches cycle `c`: closes the present cycle, and passes over the cycles in which nothing new can happen, the grant
of the next one made. The counts are pre-emptions and dead cycles. -/
def Arb.runTo (m : ArbLim) (c : Nat) : Nat → Arb → Arb × Nat × Nat
  | 0, a => (a, 0, 0)
  | n + 1, a =>
    if c ≤ a.cyc then (a, 0, 0)
    else
      let q := a.close m
      let a1 : Arb := { a with
        cyc := a.cyc + 1, st := q.st, ev := .none_, masked := a.maskNext, flushMask := a.flushNext }
      let a2 := if c ≤ a1.cyc then a1
        else let a3 := { a1 with st := a1.inCycle m.l }
          { a3 with cyc := a3.quietTo m c }
      let r := Arb.runTo m c n a2
      (r.1, r.2.1 + b2n q.preempt, r.2.2 + b2n q.dead)

/-- Closes of cycles that may be needed before nothing happens of itself any more. -/
def Arb.fuel (a : Arb) : Nat := 3 * (a.st.emWait.length + a.ev.emReqs) + 8

/-- The instance when cycle `c` is reached, with the pre-emptions and dead cycles on the way. -/
def arbReach (s : State) (n c : Nat) : Arb × Nat × Nat := Arb.runTo (arbLim s n) c (getArb s n).fuel (getArb s n)

/-- Reaches cycle `c` (a cycle already passed is taken as the present one) and counts what the closed cycles brought
(R35). -/
def arbTo (s : State) (n c : Nat) : State :=
  let r := arbReach s n c
  rinc (rinc (setArb s n r.1) R.ARB_PREEMPT_COUNT_COUNT r.2.1 n) R.ARB_DEAD_COUNT_COUNT r.2.2 n

/-- An instance in its present cycle. -/
def arbNow (s : State) (n : Nat) : ArbSt := (getArb s n).inCycle (arbL s n)

/-- An instance as a read at the present time finds it (R40). -/
def seenNow (s : State) (n : Nat) : ArbSt := (arbReach s n (arbCycleAt n s.now)).1.inCycle (arbL s n)

/-! ### Tickets -/

/-- The remaining tenure r of R36: of the holder, or of the pre-empted one; one cycle where the resource is free from the
next cycle only (DEDUCED, log entry 161; unsafe). -/
def Arb.remaining (a : Arb) (l : Nat) : Nat :=
  let b := a.inCycle l
  match b.holder, b.resume with
  | some g, _ => if a.ev.ended then 1 else g.start + g.left - a.cyc
  | none, some g => g.left
  | none, none => b2n (a.unused l)

/-- The ticket of a requester in the instance's cycle (R36). -/
def Arb.ticket (a : Arb) (m : ArbLim) (p : Nat) : Nat :=
  let b := a.inCycle m.l
  let hold := match b.holder with
    | some g => some g.who
    | none => b.resume.map (·.who)
  let k := ((b.rank.takeWhile fun q => q != p).filter fun q => hold != some q && !(a.flushMask && a.masked.contains q)).length
  let x := a.remaining m.l + k * m.l
  let e := if m.on ∧ m.e < m.w then m.e * (1 + x / (m.w - m.e)) else 0
  min (x + e) 65535

/-- Issues a ticket to each losing requester, and reissues it where its bound, the cycle by which it promises the
grant, has fallen (R36; DEDUCED, log entry 161; unsafe); the highest issued is kept in ARB_TICKET_PEAK (R40). The ticket
of a requester that no longer waits is void (R31). -/
def arbTickets (s : State) (n : Nat) : State :=
  let want := (arbNow s n).want
  let a := getArb s n
  want.foldl (fun s p =>
    let a := getArb s n
    let t := a.ticket (arbLim s n) p
    let fresh := match tblGet? a.tickets p with
      | some (some bound) => decide (a.cyc + t < bound)
      | some none => decide (t < 65535)
      | none => true
    if fresh then
      rolPeakAt (arbFcAt n a.cyc) (setArb s n { a with tickets := tblSet a.tickets p (if t < 65535 then some (a.cyc + t) else none) })
        R.ARB_TICKET_PEAK_TICKET (t + 65536 * p) n
    else s) (setArb s n { a with tickets := a.tickets.filter fun x => want.contains x.1 })

/-- An instance is told something in cycle `c`. -/
def arbTell (s : State) (n c : Nat) (f : ArbEv → ArbEv) : State :=
  let s1 := arbTo s n c
  let a := getArb s1 n
  arbTickets (setArb s1 n { a with ev := f a.ev }) n

/-! ### What the commands tell -/

/-- Normal requesters raise their requests in cycle `c`. -/
def arbRequest (s : State) (n c : Nat) (ps : List Nat) : State :=
  arbTell s n c fun e => { e with reqs := e.reqs ++ ps }

/-- The holder releases with cycle `c` (R29). -/
def arbRelease (s : State) (n c : Nat) : State :=
  let held := (arbNow (arbTo s n c) n).holder.isSome
  arbTell s n c fun e => { e with ended := e.ended || held }

/-- A normal grant has run its tenure by the end of cycle `c` and ends (R29). -/
def arbExpire (s : State) (n c : Nat) : State :=
  let s1 := arbTo s n c
  let past := (arbNow s1 n).holder.any fun g => decide (g.start + g.left ≤ (getArb s1 n).cyc + 1)
  arbTell s n c fun e => { e with ended := e.ended || past }

/-- A requester withdraws in cycle `c` (R30, R31). -/
def arbWithdraw (s : State) (n c p : Nat) : State :=
  arbTell s n c fun e => { e with withdrawn := e.withdrawn ++ [p] }

/-- The emergency requester requests in cycle `c`; a disabled one is not heard (R34). -/
def arbEmergency (s : State) (n c : Nat) : State :=
  if arbEmOn s n then arbTell s n c fun e => { e with emReqs := e.emReqs + 1 } else s

/-- The emergency grant in progress ends with cycle `c` (R32, R33). -/
def arbEmergencyEnd (s : State) (n c : Nat) : State :=
  let s1 := arbTo s n c
  let on := (getArb s1 n).st.emStart.any fun f => decide (f ≤ (getArb s1 n).cyc)
  arbTell s n c fun e => { e with emEnded := e.emEnded || on }

/-! ### The till's emergency port (R33) -/

/-- A supervisor whose queued record has been served posts the first one it has kept back. -/
def fenceNext (s : State) (sup : Nat) : State :=
  match s.till.fenceHeld.find? fun f => f.sup == sup with
  | some f => { s with till := { s.till with fenceQ := s.till.fenceQ ++ [f], fenceHeld := s.till.fenceHeld.erase f } }
  | none => s

/-- The emergency port requests for the records in its queue (R33): for one that the tenure in progress does not serve it
raises its request in cycle `c`, where none waits. -/
def fenceAsk (s : State) (c : Nat) : State :=
  let a := getArb s 0
  let left := s.till.fenceQ.any fun f => s.till.fenceAt.isNone || s.till.fenceDone.contains f.sup
  if left ∧ a.st.emWait = [] ∧ a.ev.emReqs = 0 ∧ arbEmOn s 0 then
    setArb s 0 { a with st := { a.st with emWait := [c] } }
  else s

/-- One cycle `c` of an emergency grant at the till serves the first queued record of a supervisor that the grant has
not served: it takes its till sequence number (R68) and its way to the output queue. A record that its supervisor has
kept back takes its place, and a later grant is requested for it. -/
def fenceServe (s : State) (c : Nat) : State :=
  match s.till.fenceQ.find? fun f => !s.till.fenceDone.contains f.sup with
  | some f =>
    let s1 := { s with till := { s.till with
      fenceQ := s.till.fenceQ.erase f, fenced := f :: s.till.fenced, fenceDone := f.sup :: s.till.fenceDone,
      accepted := s.till.accepted ++ [(c, ⟨46 + f.sup, true, []⟩)] } }
    fenceAsk (fenceNext (rwrap s1 R.TIL_SEQ_NEXT_SEQ) f.sup) c
  | none => s

/-- The emergency grant at the till serves a record in each of its cycles up to `c`. -/
def fenceRun (s : State) (c : Nat) : State :=
  match s.till.fenceAt with
  | some (k, e) =>
    let m := min (c + 1) e
    let s1 := (List.range (m - k)).foldl (fun s i => fenceServe s (k + i)) s
    { s1 with till := { s1.till with fenceAt := if m < e then some (max k m, e) else none } }
  | none => s

/-- The till's instance reaches cycle `c` in up to `n` emergency grants, with the records that each serves. -/
def tillRuns (c : Nat) : Nat → State → State
  | 0, s => s
  | n + 1, s =>
    let s1 := arbTo s 0 c
    match (getArb s1 0).st.emLast with
    | some f =>
      if (getArb s 0).st.emLast = some f then s1
      else tillRuns c n (fenceRun { s1 with till := { s1.till with fenceDone := [], fenceAt := some (f, f + arbE s 0) } } c)
    | none => s1

/-- The till's instance reaches cycle `c`, with the records that its emergency port serves on the way. -/
def tillTo (s : State) (c : Nat) : State :=
  let s1 := fenceRun s c
  tillRuns c (s1.till.fenceHeld.length + 3) s1

/-- A supervisor makes a fencing record: it is posted to the two-entry queue, or kept back while an earlier record of
the same supervisor is queued. -/
def fencePost (s0 : State) (f : FenceRec) : State :=
  let s := tillTo s0 s0.now
  if s.till.fenceQ.any (fun g => g.sup == f.sup) then
    { s with till := { s.till with fenceHeld := s.till.fenceHeld ++ [f] } }
  else fenceAsk { s with till := { s.till with fenceQ := s.till.fenceQ ++ [f] } } s.now

/-! ### Commands -/

/-- The instance reaches the command's cycle, with the records that the till's emergency port serves on the way. -/
def arbAt (s : State) (n c : Nat) : State := if n = 0 then tillTo s c else s

/-- ARB_REQUEST. -/
def execArbRequest (t : Nat) (inst : Fin 22) (reqs : List Nat) (s : State) : Out :=
  .next (if s.fabric then arbRequest (arbAt s inst t) inst t reqs else s)

/-- ARB_WITHDRAW. -/
def execArbWithdraw (t : Nat) (inst : Fin 22) (req : Nat) (s : State) : Out :=
  .next (if s.fabric then arbWithdraw (arbAt s inst t) inst t req else s)

/-- EMERGENCY_REQUEST. At the till the one port requests for the records in its queue (R33): a request while it requests
already, for a record that the grant in progress serves, or with no record queued, adds none. -/
def execEmergencyRequest (t : Nat) (inst : Fin 22) (s : State) : Out :=
  .next (if !s.fabric then s
  else if inst.val = 0 then arbTickets (fenceAsk (tillTo s t) (max t (getArb (tillTo s t) 0).cyc)) 0
  else arbEmergency s inst t)

/-- CLEAR_COUNTS: a counter that increments in the cycle of the write reads 1 afterwards (R41), since the present cycle
is counted when it closes. -/
def execClearCounts (t : Nat) (inst : Fin 22) (s : State) : Out :=
  .next (if s.fabric then
    rset (rset (arbTo (arbAt s inst t) inst t) R.ARB_PREEMPT_COUNT_COUNT 0 inst) R.ARB_DEAD_COUNT_COUNT 0 inst
  else s)

end Sys2Proof.Machine
end

