-- ==== Sys2Proof/Machine/Links.lean ====
section
/-! DEFINITION. Frames to the partner (R229, R230): what is handed to the cross-link waits for its grant, one frame to a
grant, and is sent when the grant ends. -/

namespace Sys2Proof.Machine

/-- The arbiter instance of the cross-link (R27). -/
def linkArb : Nat := 21

/-- Requester that carries a frame TYPE; none for the emergency port (R230). -/
def linkReq (typ : Nat) : Option Nat :=
  match typ with
  | 1 | 2 => some 0
  | 3 | 4 => some 1
  | 5 => some 2
  | 6 => some 3
  | 7 => none
  | _ => some 4

/-- Bytes of 32-bit words, lowest first. -/
def linkBytes (ws : List Nat) : List Nat := ws.flatMap fun w => [w % 256, w / 256 % 256, w / 65536 % 256, w / 2 ^ 24 % 256]

/-- The words of a frame: link header, payload and CRC-32 (R229). -/
def frameWords (pairId typ seq : Nat) (payload : List Nat) : List Nat :=
  let ws := [pairId % 2 ^ 32, typ + 256 * payload.length + 65536 * (seq % 65536)] ++ payload
  ws ++ [crc32 (linkBytes ws)]

/-- A requester of the cross-link raises its request: a normal one, or the emergency port where it does not request yet. -/
def linkAsk (s : State) (req : Option Nat) : State :=
  let c := arbCycleAt linkArb s.now
  if !s.fabric then s
  else match req with
    | some p => arbRequest s linkArb c [p]
    | none =>
      let a := getArb s linkArb
      if a.st.emWait = [] ∧ a.ev.emReqs = 0 then arbEmergency s linkArb c else s

/-- Hands one frame of at most 64 payload words to the cross-link. -/
def linkPut (s : State) (typ : Nat) (payload : List Nat) (item : Option (Nat × ResyncItem)) : State :=
  let f : XFrame := ⟨linkReq typ, typ, frameWords (rget s R.XLK_PAIR_ID_PAIR_ID) typ s.xlk.txSeq payload, item⟩
  linkAsk { s with xlk := { s.xlk with out := s.xlk.out ++ [f], txSeq := (s.xlk.txSeq + 1) % 65536 } } f.req

/-- Hands a payload to the cross-link; one of more than 256 bytes goes in several frames of its TYPE (DESIGN CHOICE, log
entry 138; unsafe). -/
def xlkSend (s : State) (typ : Nat) (payload : List Nat) (item : Option (Nat × ResyncItem)) : State :=
  (List.range (max 1 ((payload.length + 63) / 64))).foldl (fun s k =>
    linkPut s typ ((payload.drop (64 * k)).take 64) (if k = 0 then item else none)) s

/-- A PRIMARY with a linked partner in RESYNC or READY_STANDBY forwards patterns and sets first (R251). -/
def forwarding (s : State) : Bool :=
  rget s R.XLK_ROLE_ROLE == 2 && rbit s R.XLK_ROLE_LINK_UP && !rbit s R.XLK_ROLE_PARTNER_LOST &&
    (match s.xlk.lastHb with
      | some h => h.role == 3 || h.role == 4
      | none => false)

/-- Sends an item in RESYNC frames; row 0 is for an item that the partner has pulled (R251). -/
def resyncSend (s : State) (row : Nat) (item : ResyncItem) : State :=
  xlkSend s 6 (Config.resyncWords row item) (some (row, item))

/-- The row at whose tick edge what is accepted now takes effect: what comes in the fc of an edge, at the one after it. -/
def effectRow (s : State) : Nat := rowNow s + (if edgeDue s then 2 else 1)

/-- A PRIMARY forwards an item that takes effect at a tick edge to a partner in RESYNC or READY_STANDBY (R251). -/
def forward (s : State) (item : ResyncItem) : State :=
  if forwarding s then resyncSend s (effectRow s) item else s

/-- A grant of the cross-link ends: the first frame of its requester has been sent, and for the next one the requester
requests again. -/
def linkSent (s : State) (req : Option Nat) : State :=
  match s.xlk.out.find? fun f => f.req == req with
  | none => s
  | some f =>
    let s1 := { s with xlk := { s.xlk with out := s.xlk.out.erase f, tx := tblSet s.xlk.tx f.typ f } }
    if s1.xlk.out.any fun g => g.req == req then linkAsk s1 req else s1

/-- The frames that leave as an instance turns from one state to another: that of the grant that has ended. -/
def linkAfter (s0 : State) (inst : Nat) (s : State) : State :=
  if inst ≠ linkArb then s
  else
    let was := (getArb s0 inst).ev
    let now := (getArb s inst).ev
    match (arbNow s0 inst).holder with
    | some g => if now.ended && !was.ended then linkSent s (some g.who) else s
    | none => if now.emEnded && !was.emEnded then linkSent s none else s

/-- The camera-write requester of a DRAM arbiter (R27). -/
def camReq : Nat := 4

/-- One burst of the camera-write requester: up to 256 bytes of the buffer of the port next in rotation (R321). -/
def camBurst (s : State) : State :=
  let buf := fun p => (tblGetD s.vis.cams p Cam.idle).buf
  match ((List.range 4).map fun k => (s.vis.burstAt + k) % 4).find? fun p => !(buf p).isEmpty with
  | none => s
  | some p =>
    match buf p with
    | [] => s
    | (a, bs) :: t =>
      let c := tblGetD s.vis.cams p Cam.idle
      let left := if bs.length ≤ 256 then t else (a + 256, bs.drop 256) :: t
      hostWrite { s with vis := { s.vis with cams := tblSet s.vis.cams p { c with buf := left }, burstAt := (p + 1) % 4 } }
        false a (bs.take 256)

/-- The release in cycle `c` ends a grant of the camera-write requester, and its burst with it. -/
def camGranted (s : State) (n c : Nat) : Bool :=
  decide (1 ≤ n ∧ n ≤ 4) && ((arbNow (arbTo s n c) n).holder.any fun g => g.who == camReq) &&
    !(getArb (arbTo s n c) n).ev.ended

/-- ARB_RELEASE. -/
def execArbRelease (t : Nat) (inst : Fin 22) (s : State) : Out :=
  .next (if s.fabric then
    let s1 := linkAfter (arbTo s inst t) inst (arbRelease (arbAt s inst t) inst t)
    if camGranted s inst t then camBurst s1 else s1
  else s)

/-- TENURE_EXPIRY. -/
def execTenureExpiry (t : Nat) (inst : Fin 22) (s : State) : Out :=
  .next (if s.fabric then linkAfter (arbTo s inst t) inst (arbExpire (arbAt s inst t) inst t) else s)

/-- EMERGENCY_GRANT_END. -/
def execEmergencyGrantEnd (t : Nat) (inst : Fin 22) (s : State) : Out :=
  .next (if s.fabric then
    let s1 := arbEmergencyEnd (arbAt s inst t) inst t
    if inst.val = 0 ∧ (getArb s1 0).ev.emEnded then fenceAsk { s1 with till := { s1.till with fenceAt := none } } (getArb s1 0).cyc
    else linkAfter (arbTo s inst t) inst s1
  else s)

end Sys2Proof.Machine
end

