-- ==== Sys2Proof/Machine/Solver.lean ====
section
/-! DEFINITION. The setpoint solver (R109–R130): table-set accessors, quality inputs and their age, envelope and
bounds, operating regions, the ADMM solve and its outcome, and the general service commands of the SPS. Sums
run in ascending index order (DESIGN CHOICE, log entry 15; unsafe). -/

namespace Sys2Proof.Machine

/-! ### Table sets (R127–R129) -/

/-- The 32-bit word of an image at a byte offset. -/
def imgWord (ts : List Nat) (off : Nat) : Nat := ts.getD (off / 4) 0

/-- `n` words from a byte offset on. -/
def imgWords (ts : List Nat) (off n : Nat) : List Nat := (List.range n).map fun k => imgWord ts (off + 4 * k)

def tsRegions (ts : List Nat) : Nat := bitField (imgWord ts 0x04) 16 16
def tsMfBands (ts : List Nat) : Nat := bitField (imgWord ts 0x0C) 0 8
def tsMoBands (ts : List Nat) : Nat := bitField (imgWord ts 0x0C) 8 8
def tsGenRows (ts : List Nat) : Nat := bitField (imgWord ts 0x0C) 16 8
def tsDefault (ts : List Nat) : Nat := bitField (imgWord ts 0x0C) 24 6
def tsHardLo (ts : List Nat) (i : Nat) : F32 := imgWord ts (0x300 + 8 * i)
def tsHardHi (ts : List Nat) (i : Nat) : F32 := imgWord ts (0x304 + 8 * i)
def tsFallback (ts : List Nat) (i : Nat) : F32 := imgWord ts (0x400 + 4 * i)
def tsSlotFree (ts : List Nat) (i : Nat) : Bool := bitOf (imgWord ts 0x18) i
/-- Byte offset of a region record and of a general row. -/
def tsRegion (r : Nat) : Nat := 0x3000 + 0x1000 * r
def tsGen (g : Nat) : Nat := 0xD00 + 136 * g
def tsS (ts : List Nat) (r j i : Nat) : F32 := imgWord ts (tsRegion r + 0x80 * j + 4 * i)
def tsTarget (ts : List Nat) (r j : Nat) : F32 := imgWord ts (tsRegion r + 0x800 + 4 * j)
def tsWeight (ts : List Nat) (r j : Nat) : F32 := imgWord ts (tsRegion r + 0x840 + 4 * j)
def tsMove (ts : List Nat) (r i : Nat) : F32 := imgWord ts (tsRegion r + 0x880 + 4 * i)
def tsLo (ts : List Nat) (r i : Nat) : F32 := imgWord ts (tsRegion r + 0x900 + 4 * i)
def tsHi (ts : List Nat) (r i : Nat) : F32 := imgWord ts (tsRegion r + 0x980 + 4 * i)
def tsRate (ts : List Nat) (r i : Nat) : F32 := imgWord ts (tsRegion r + 0xA00 + 4 * i)

/-- The live table set (R103). -/
def liveSet (s : State) : Option (List Nat) := tblGet? s.tke.bufs (rget s R.TKE_TABLE_STATE_LIVE_BUF)

/-! ### The row that runs -/

/-- The pattern of the running row. -/
def rowPattern (s : State) : Option Pattern :=
  if s.tke.rowArmed then (if s.tke.rowFallback then s.tke.fallback else s.tke.main) else none

/-- Seconds of `n` tick periods, as binary32: EVERY × TICK_PERIOD of R112 is formed exactly in µs and rounded once (DESIGN
CHOICE, log entry 173; unsafe). -/
def tickSeconds (s : State) (n : Nat) : F32 := fOfRatio (n * s.tke.inForce.periodUs) 1000000

/-! ### Quality inputs (R114, R115) -/

/-- A measure whose SOURCE is NAV (R270): ROLL, PITCH, and the ground speed in km/h. -/
def navMeasure (r : NavRec) (j : Nat) : Option QVal :=
  match j with
  | 11 => some ⟨r.roll, !r.slopeValid, r.solTime⟩
  | 12 => some ⟨r.pitch, !r.slopeValid, r.solTime⟩
  -- 3.6
  | 13 => some ⟨fMul r.speed 0x40666666, !r.speedValid, r.solTime⟩
  | _ => none

/-- Value, INVALID mark and stamp of a measure by its SOURCE; none where it has no value. -/
def qualValue (s : State) (j : Nat) : Option QVal :=
  match rget s R.SPS_QUAL_CFG_SOURCE 0 j with
  | 0 => match tblGet? s.tke.staged.qvals j with
    | some v => some v
    | none => tblGet? s.sps.qvals j
  | 1 => navMeasure s.tke.snap.nav j
  | 2 => tblGet? s.tke.snap.posts j
  | _ => none

/-- The conditions of R115 other than the weight, at the EDGE_TIME of the row. -/
def qualFresh (s : State) (j : Nat) : Bool :=
  let age := rget s R.SPS_QUAL_CFG_MAX_AGE_MS 0 j
  match qualValue s j with
  | some v => decide (age ≠ 0) && decide (v.stamp ≤ s.tke.edgeTime) &&
      decide (s.tke.edgeTime - v.stamp ≤ age * 1000000) && fFinite v.value && !v.invalid
  | none => false

/-- The measure's stamp lies after EDGE_TIME. -/
def qualFuture (s : State) (j : Nat) : Bool :=
  match qualValue s j with
  | some v => decide (s.tke.edgeTime < v.stamp)
  | none => false

/-! ### Envelope and bounds (R121) -/

/-- What R121 computes for one slot. -/
structure SlotBounds where
  ol : F32
  oh : F32
  el : F32
  eh : F32
  lo : F32
  hi : F32
  conflict : Bool
  yielded : Bool
  deriving DecidableEq, Repr

/-- Operator envelope against the hard bounds, then the region bounds. -/
def slotEnvelope (s : State) (ts : List Nat) (r i : Nat) : SlotBounds :=
  let hl := fFlush (tsHardLo ts i)
  let hh := fFlush (tsHardHi ts i)
  let o := match tblGet? s.sps.env i with
    | some e => e
    | none => (hl, hh)
  let c : F32 × F32 × Bool :=
    if fLt o.2 hl then (hl, hl, true)
    else if fLt hh o.1 then (hh, hh, true)
    else (fMax o.1 hl, fMin o.2 hh, false)
  let el := fMax c.1 (tsLo ts r i)
  let eh := fMin c.2.1 (tsHi ts r i)
  if fLt eh el then ⟨c.1, c.2.1, c.1, c.2.1, 0, 0, true, false⟩
  else ⟨c.1, c.2.1, el, eh, 0, 0, c.2.2, false⟩

/-- The fallback setpoint of a slot, clamped to the envelope. -/
def fallbackSetpoint (s : State) (ts : List Nat) (r i : Nat) : F32 :=
  let b := slotEnvelope s ts r i
  fClamp (tsFallback ts i) b.el b.eh

/-- Effective bounds of a slot for a solve with previous setpoint `p` and interval `dt`. -/
def slotBounds (s : State) (ts : List Nat) (r i : Nat) (p dt : F32) : SlotBounds :=
  let b := slotEnvelope s ts r i
  if tsSlotFree ts i then
    let d := fMul (tsRate ts r i) dt
    let lo := fMax b.el (fSub p d)
    let hi := fMin b.eh (fAdd p d)
    if fLt hi lo then
      let v := if fLt p b.el then b.el else b.eh
      { b with lo := v, hi := v, yielded := true }
    else { b with lo := lo, hi := hi }
  else
    let v := fClamp (tsFallback ts i) b.el b.eh
    { b with lo := v, hi := v }

/-! ### Regions (R122) -/

/-- The band that contains a value. -/
def bandOf (breaks : List F32) (v : F32) : Nat := (breaks.filter fun b => fLe b v).length

/-- The band after hysteresis `h`, from the present band `b`. -/
def bandNext (breaks : List F32) (h v : F32) (b : Nat) : Nat :=
  let up := match breaks[b]? with
    | some x => fLe (fAdd x h) v
    | none => false
  let down := match b with
    | 0 => false
    | k + 1 => match breaks[k]? with
      | some x => fLt v (fSub x h)
      | none => false
  if up || down then bandOf breaks v else b

/-- Present bands: those held, or the ones of DEFAULT_REGION after a flip or arming. -/
def presentBands (s : State) (ts : List Nat) : Nat × Nat :=
  match s.tke.staged.region with
  | some b => b
  | none => match s.sps.bands with
    | some b => b
    | none => (tsDefault ts % tsMfBands ts, tsDefault ts / tsMfBands ts)

/-- The live region of the row; DEFAULT_REGION for a pattern without REGION_SELECT. -/
def liveRegion (s : State) (ts : List Nat) : Nat :=
  match rowPattern s with
  | some p =>
    if p.stitches.any fun st => st.typ == 3 then
      let b := presentBands s ts
      b.2 * tsMfBands ts + b.1
    else tsDefault ts
  | none => tsDefault ts

/-- REGION_SELECT's choice: each band moves only while both measures pass R115 but for the weight. -/
def regionChoice (s : State) (ts : List Nat) : Nat × Nat :=
  let b := presentBands s ts
  match qualValue s 0, qualValue s 8 with
  | some mf, some mo =>
    if qualFresh s 0 && qualFresh s 8 then
      (bandNext (imgWords ts 0x100 (tsMfBands ts - 1)) (imgWord ts 0x34) mf.value b.1,
       bandNext (imgWords ts 0x200 (tsMoBands ts - 1)) (imgWord ts 0x38) mo.value b.2)
    else b
  | _, _ => b

/-- Previous setpoints p (R109). The clamp of the fallback setpoints, after arming or a fallback row, is that of the row that
uses them: its region, envelope and table set (DESIGN CHOICE, log entry 172; unsafe). -/
def prevSetpoints (s : State) (ts : List Nat) : List F32 :=
  (List.range 32).map fun i =>
    if s.sps.pFromFallback then fallbackSetpoint s ts (liveRegion s ts) i else s.sps.p.getD i 0

/-! ### Linear algebra in binary32 -/

/-- A × x for a matrix given by rows. -/
def matVec (m : List (List F32)) (x : List F32) : List F32 := m.map fun r => fDot r x

/-- Row `i` of the Cholesky factor, from the rows before it and row `i` of the matrix. -/
def cholRow (prev : List (List F32)) (a : List F32) (i : Nat) : List F32 :=
  let row := (List.range i).foldl (fun (acc : List F32) j =>
    let lj := prev.getD j []
    let t := (List.range j).foldl (fun v k => fSub v (fMul (acc.getD k 0) (lj.getD k 0))) (a.getD j 0)
    acc ++ [fDiv t (lj.getD j 0)]) []
  let d := (List.range i).foldl (fun v k => fSub v (fMul (row.getD k 0) (row.getD k 0))) (a.getD i 0)
  row ++ [fSqrt d]

/-- The lower Cholesky factor of a symmetric matrix. -/
def cholesky (m : List (List F32)) : List (List F32) :=
  (List.range m.length).foldl (fun acc i => acc ++ [cholRow acc (m.getD i []) i]) []

/-- Solves L × L' × x = b. -/
def cholSolve (l : List (List F32)) (b : List F32) : List F32 :=
  let n := l.length
  let y := (List.range n).foldl (fun (acc : List F32) i =>
    let row := l.getD i []
    let t := (List.range i).foldl (fun v k => fSub v (fMul (row.getD k 0) (acc.getD k 0))) (b.getD i 0)
    acc ++ [fDiv t (row.getD i 0)]) []
  (List.range n).foldr (fun i (acc : List F32) =>
    -- acc holds x for the indices above i
    let t := (List.range (n - 1 - i)).foldl
      (fun v k => fSub v (fMul ((l.getD (i + 1 + k) []).getD i 0) (acc.getD k 0))) (y.getD i 0)
    fDiv t ((l.getD i []).getD i 0) :: acc) []

/-- Largest magnitude of a vector. -/
def maxAbs (x : List F32) : F32 := x.foldl (fun m v => if fIsNaN v then fNaN else fMax m (fAbs v)) 0

/-! ### The solve (R123, R124) -/

/-- σ = 1 × 10^−6. -/
def sigma : F32 := 0x358637BD

/-- The problem of one solve. -/
structure Problem where
  p : List (List F32)
  c : List F32
  /-- General rows G. -/
  g : List (List F32)
  l : List F32
  u : List F32
  k : List (List F32)
  rho : F32
  alpha : F32
  tol : F32
  deriving DecidableEq, Repr

/-- A × x: the slots, then the general rows (R110). -/
def Problem.aMul (q : Problem) (x : List F32) : List F32 := x ++ matVec q.g x

/-- A' × v. -/
def Problem.atMul (q : Problem) (v : List F32) : List F32 :=
  (List.range 32).map fun i =>
    (List.range q.g.length).foldl (fun a r => fAdd a (fMul ((q.g.getD r []).getD i 0) (v.getD (32 + r) 0))) (v.getD i 0)

def vecMap2 (f : F32 → F32 → F32) (a b : List F32) : List F32 := List.zipWith f a b

/-- Clamps each row into its limits. -/
def Problem.project (q : Problem) (v : List F32) : List F32 :=
  (List.range v.length).map fun i => fClamp (v.getD i 0) (q.l.getD i 0) (q.u.getD i 0)

/-- Forms P, c, the bounds and K for region `r`, weights `w`, values `qv` and previous setpoints `p`. Products of three factors
associate to the left, but RHO × (A′ × A); `cholesky` reads the lower triangle (DESIGN CHOICE, log entry 174; unsafe). -/
def formProblem (ts : List Nat) (r : Nat) (w qv p : List F32) (bs : List SlotBounds) : Problem :=
  let two : F32 := 0x40000000
  let sRow := fun j => (List.range 32).map fun i => tsS ts r j i
  let rows := (List.range 16).map sRow
  let resid := (List.range 16).map fun j =>
    if fIsZero (w.getD j 0) then f0
    else fSub (fSub (qv.getD j 0) (tsTarget ts r j)) (fDot (rows.getD j []) p)
  let pm := (List.range 32).map fun a => (List.range 32).map fun b =>
    let t := fSum ((List.range 16).map fun j =>
      fMul (fMul ((rows.getD j []).getD a 0) (w.getD j 0)) ((rows.getD j []).getD b 0))
    fMul two (if a = b then fAdd t (tsMove ts r a) else t)
  let c := (List.range 32).map fun a =>
    let t := fSum ((List.range 16).map fun j =>
      fMul (fMul (fMul two ((rows.getD j []).getD a 0)) (w.getD j 0)) (resid.getD j 0))
    fSub t (fMul (fMul two (tsMove ts r a)) (p.getD a 0))
  let g := (List.range (tsGenRows ts)).map fun k => imgWords ts (tsGen k) 32
  let gl := (List.range (tsGenRows ts)).map fun k => imgWord ts (tsGen k + 128)
  let gh := (List.range (tsGenRows ts)).map fun k => imgWord ts (tsGen k + 132)
  let rho := imgWord ts 0x20
  let km := (List.range 32).map fun a => (List.range 32).map fun b =>
    let base := (pm.getD a []).getD b 0
    let base1 := if a = b then fAdd base sigma else base
    let ata := g.foldl (fun v row => fAdd v (fMul (row.getD a 0) (row.getD b 0))) (if a = b then f1 else f0)
    fAdd base1 (fMul rho ata)
  { p := pm, c := c, g := g, l := bs.map (·.lo) ++ gl, u := bs.map (·.hi) ++ gh, k := cholesky km,
    rho := rho, alpha := imgWord ts 0x24, tol := imgWord ts 0x30 }

/-- An iterate: x, z, y, the latest feasible iteration with its x, and whether every value was finite. -/
structure Iterate where
  x : List F32
  z : List F32
  y : List F32
  best : Nat
  xb : List F32
  finite : Bool
  deriving DecidableEq, Repr

def allFinite (x : List F32) : Bool := x.all fFinite

/-- Every row of A × x lies within the bounds widened by FEAS_TOL. -/
def Problem.feasible (q : Problem) (x : List F32) : Bool :=
  let ax := q.aMul x
  (List.range ax.length).all fun i =>
    fLe (fSub (q.l.getD i 0) q.tol) (ax.getD i 0) && fLe (ax.getD i 0) (fAdd (q.u.getD i 0) q.tol)

/-- One iteration of R123. -/
def Problem.iterate (q : Problem) (it : Iterate) (k : Nat) : Iterate :=
  let rhs := vecMap2 fAdd (vecMap2 fSub (it.x.map (fMul sigma)) q.c)
    (q.atMul (vecMap2 fSub (it.z.map (fMul q.rho)) it.y))
  let xt := cholSolve q.k rhs
  let one := fSub f1 q.alpha
  let zr := vecMap2 fAdd ((q.aMul xt).map (fMul q.alpha)) (it.z.map (fMul one))
  let x := vecMap2 fAdd (xt.map (fMul q.alpha)) (it.x.map (fMul one))
  let z := q.project (vecMap2 fAdd zr (it.y.map fun v => fDiv v q.rho))
  let y := vecMap2 fAdd it.y ((vecMap2 fSub zr z).map (fMul q.rho))
  let ok := q.feasible x
  { x := x, z := z, y := y, best := if ok then k else it.best, xb := if ok then x else it.xb,
    finite := it.finite && allFinite xt && allFinite x && allFinite z && allFinite y }

/-- The whole solve: twelve iterations from the start given (R123). -/
def runAdmm (q : Problem) (x z y : List F32) : Iterate :=
  (List.range 12).foldl (fun it k => q.iterate it (k + 1))
    { x := x, z := z, y := y, best := 0, xb := [], finite := true }

/-- Bits of a list of truth values, the first at bit 0. -/
def maskOf (l : List Bool) : Nat := l.foldr (fun b a => 2 * a + b2n b) 0

/-- A solve in the running row, staged and not committed (R112, R113, R121–R124); `every` is the stitch's EVERY. -/
def runSolve (s : State) (ts : List Nat) (every usedFc : Nat) : SolveOut :=
  let r := liveRegion s ts
  let p := prevSetpoints s ts
  let dt := tickSeconds s every
  let bs := (List.range 32).map fun i => slotBounds s ts r i (p.getD i 0) dt
  let fresh := (List.range 16).map fun j => qualFresh s j
  let w := (List.range 16).map fun j => if fresh.getD j false then tsWeight ts r j else f0
  let qv := (List.range 16).map fun j => match qualValue s j with
    | some v => v.value
    | none => f0
  let q := formProblem ts r w qv p bs
  let warm : Option Warm := match s.sps.warm with
    | some k => if rbit s R.SPS_CTRL_WARM_EN ∧ k.epoch = s.tke.snap.epoch ∧ k.region = r then some k else none
    | none => none
  let it : Iterate := match warm with
    | some k => runAdmm q k.x k.z k.y
    | none => runAdmm q p (q.project (q.aMul p)) (List.replicate (32 + q.g.length) f0)
  let rp := maxAbs (vecMap2 fSub (q.aMul it.x) it.z)
  let rd := maxAbs (vecMap2 fAdd (vecMap2 fAdd (matVec q.p it.x) q.c) (q.atMul it.y))
  let finite := it.finite && q.p.all allFinite && allFinite q.c && q.k.all allFinite
  let outcome := if !finite then 3
    else if it.best = 12 ∧ fLe rp (imgWord ts 0x28) ∧ fLe rd (imgWord ts 0x2C) then 1
    else if 1 ≤ it.best then 2 else 3
  { outcome := outcome, iter := if outcome = 3 then 0 else it.best, region := r, epoch := s.tke.snap.epoch,
    conflict := bs.any (·.conflict), yielded := bs.any (·.yielded), numeric := !finite, warm := warm.isSome,
    usedFc := min usedFc 24000, rp := rp, rd := rd,
    stale := maskOf (w.map fIsZero),
    future := ((List.range 16).filter fun j => qualFuture s j).length,
    yieldMask := maskOf (bs.map (·.yielded)),
    setpoints := (List.range 32).map fun i =>
      if outcome = 3 then fallbackSetpoint s ts r i
      else let b := bs.getD i ⟨0, 0, 0, 0, 0, 0, false, false⟩; fClamp (it.xb.getD i 0) b.lo b.hi,
    opLo := bs.map (·.ol), opHi := bs.map (·.oh), qvals := qv, x := it.x, z := it.z, y := it.y }

/-- A staged solve becomes the solver's state when its row commits (R113, R124, R137). -/
def commitSolve (s : State) (o : SolveOut) : State :=
  let was := rget s R.SPS_STATUS_OUTCOME
  let wasConflict := rbit s R.SPS_STATUS_ENV_CONFLICT
  let changed := decide (was ≠ 0) && decide (rget s R.SPS_STATUS_REGION ≠ o.region)
  let s1 := rset (rset (rset s R.SPS_STATUS_OUTCOME o.outcome) R.SPS_STATUS_FEAS_ITER o.iter)
    R.SPS_STATUS_REGION o.region
  let s2 := rsetB (rsetB (rsetB s1 R.SPS_STATUS_ENV_CONFLICT o.conflict) R.SPS_STATUS_RATE_YIELD o.yielded)
    R.SPS_STATUS_REGION_CHANGED changed
  let s3 := rsetB (rsetB s2 R.SPS_STATUS_NUMERIC o.numeric) R.SPS_STATUS_WARM o.warm
  let s4 := rset64 (rset s3 R.SPS_SOLVE_FC_FC o.usedFc) R.SPS_SOLVE_ROW_LO_ROW R.SPS_SOLVE_ROW_HI_ROW (rowNow s)
  let s5 := if o.outcome = 2 then rinc s4 R.SPS_COUNTS_FEASIBLE
    else if o.outcome = 3 then rinc s4 R.SPS_COUNTS_FALLBACK else s4
  let s6 := rset (rset s5 R.SPS_RESID_PRI_VALUE o.rp) R.SPS_RESID_DUA_VALUE o.rd
  let s7 := rinc (rset (rset s6 R.SPS_QUAL_STALE_STALE o.stale) R.SPS_YIELD_MASK_SLOTS o.yieldMask)
    R.SPS_QUAL_FUTURE_COUNT o.future
  let s8 := (List.range 32).foldl (fun s i =>
    rset (rset (rset s R.SPS_SETPOINT_VALUE (o.setpoints.getD i 0) 0 i) R.SPS_OP_LO_VALUE (o.opLo.getD i 0) 0 i)
      R.SPS_OP_HI_VALUE (o.opHi.getD i 0) 0 i) s7
  let s9 := (List.range 16).foldl (fun s j => rset s R.SPS_QUAL_VALUE_VALUE (o.qvals.getD j 0) 0 j) s8
  let warm : Option Warm := if o.outcome = 3 then none else some ⟨o.epoch, o.region, o.x, o.z, o.y⟩
  let s10 := { s9 with sps := { s9.sps with p := o.setpoints, pFromFallback := false, warm := warm } }
  let s11 := if o.outcome = 3 ∧ was ≠ 3 then raiseEv s10 evSpsFallback else s10
  if o.conflict ∧ !wasConflict then raiseEv s11 evSpsEnvConflict else s11

/-! ### General service: QUAL_POST and ENVELOPE_SET -/

/-- QUAL_POST (R116, R117). -/
def qualPost (s : State) (r : Ref) (d : Desc) : State :=
  let j := d.classWord % 16
  if d.classWord / 16 ≠ 0 ∨ d.word 0x14 / 2 ≠ 0 ∨ (List.range 8).any (fun k => d.word (0x20 + 4 * k) ≠ 0) then
    complete s r stRejectFormat 0x0121
  else if rget s R.SPS_QUAL_CFG_SOURCE 0 j ≠ 2 then complete s r stRejectState 0x0222
  else
    let v : QVal := ⟨d.word 0x10, bitOf (d.word 0x14) 0, d.quad 0x18⟩
    let older := match tblGet? s.sps.posts j with
      | some old => decide (v.stamp < old.stamp)
      | none => false
    if older then complete s r stDone 2
    else complete (forward { s with sps := { s.sps with posts := tblSet s.sps.posts j v } } (.post j v)) r stDone

/-- ENVELOPE_SET (R118, R119). -/
def envelopeSet (s : State) (r : Ref) (d : Desc) : State :=
  let i := d.classWord % 32
  let lo := d.word 0x10
  let hi := d.word 0x14
  let release := bitOf (d.word 0x18) 0
  let accept := fun (lim : Option (F32 × F32)) =>
    let s1 := match tblGet? s.sps.envPend i with
      | some old => completeOpt s old.ref stDone 1
      | none => s
    let p : EnvPend := { limits := lim, ref := some r }
    forward { s1 with sps := { s1.sps with envPend := tblSet s1.sps.envPend i p } } (.envelope i lim)
  if d.classWord / 32 ≠ 0 ∨ d.word 0x18 / 2 ≠ 0 ∨ (List.range 9).any (fun k => d.word (0x1C + 4 * k) ≠ 0) then
    complete s r stRejectFormat 0x0121
  else if release then accept none
  else if !fFinite lo || !fFinite hi || fLt hi lo then complete s r stRejectFormat 0x0120
  else match liveSet s with
    | none => complete s r stRejectState 0x0221
    | some ts =>
      if fLt hi (tsHardLo ts i) || fLt (tsHardHi ts i) lo then complete s r stRejectState 0x0220
      else accept (some (lo, hi))

/-- The accepted envelopes take effect at an edge and complete. -/
def envEdge (s : State) : State :=
  let s1 := s.sps.envPend.foldl (fun s p =>
    let env := match p.2.limits with
      | some e => tblSet s.sps.env p.1 e
      | none => tblErase s.sps.env p.1
    completeOpt { s with sps := { s.sps with env := env } } p.2.ref stDone) s
  { s1 with sps := { s1.sps with envPend := [] } }

/-- QUAL_POST. -/
def execQualPost (t : Fc) (r : Ref) (s : State) : Out :=
  atFabric t (fun s => withDesc r 0xB 0x20 (fun d s => ifCommanding r none (fun s => qualPost s r d) s) s) s

/-- ENVELOPE_SET at its consumer. -/
def serveEnvelope (s : State) (r : Ref) : State :=
  withDesc r 0xB 0x21 (fun d s => ifCommanding r none (fun s => envelopeSet s r d) s) s

/-- ENVELOPE_SET. -/
def execEnvelopeSet (t : Fc) (r : Ref) (s : State) : Out :=
  atFabric t (afterEdge (.envelopeSet t r) fun s => serveEnvelope s r) s

end Sys2Proof.Machine
end

