-- ==== Sys2Proof/Machine/Patterns.lean ====
section
/-! DEFINITION. Pattern and table images: layout, checks and admission (R86–R92), TABLE_SET (R103, R127–R130) and
PROMOTE (R90). Images are the 32-bit words that the copy brought from host memory. -/

namespace Sys2Proof.Machine

/-! ### Images -/

/-- The first `n` bytes of an image. -/
def imgBytes (img : List Nat) (n : Nat) : List Nat := ((img.flatMap fun w => (leBytes 4 w).map (·.toNat))).take n

/-- `n` bytes of an image from a byte offset on. -/
def imgSlice (img : List Nat) (off n : Nat) : List Nat := ((imgBytes img (off + n)).drop off)

/-- CRC of an image of `n` bytes with the CRC word at offset `at_` taken as zero. -/
def imgCrc (img : List Nat) (n at_ : Nat) : Nat := crc32 (imgBytes (img.set (at_ / 4) 0) n)

/-- The commit window of the settings now in the registers. -/
def windowNow (s : State) : Nat := windowOf (rget s R.TKE_TICK_PERIOD_PERIOD_US) (rget s R.TKE_COMMIT_OFFSET_OFFSET_US)

/-- The row budget of a commit window (R78). -/
def budgetOf (window : Nat) : Nat := window * 850 / 1000

/-! ### Patterns -/

/-- Range of N of a stitch type; none for an unknown type (R84). -/
def stitchMaxN : Nat → Option Nat
  | 1 => some 19
  | 2 => some 16
  | 3 => some 1
  | 4 => some 1
  | 5 => some 32
  | 6 => some 96
  | 7 => some 96
  | 8 => some 1024
  | 9 => some 8
  | 10 => some 64
  | _ => none

/-- BASE, UNIT and ACC of a stitch type (R84). -/
def stitchCost : Nat → Nat × Nat × Nat
  | 1 => (16, 8, 4)
  | 2 => (24, 40, 6)
  | 3 => (48, 0, 2)
  | 4 => (24000, 0, 0)
  | 5 => (8, 96, 3)
  | 6 => (8, 12, 1)
  | 7 => (8, 8, 1)
  | 8 => (8, 4, 1)
  | 9 => (40, 24, 2)
  | 10 => (8, 16, 1)
  | _ => (0, 0, 0)

/-- The instance number of a tick-memory bank arbiter (R27). -/
def tickMemArb : Nat := 5

/-- The access cost a = W + 4, with W the ticket of R36 for r = L = 4 and k = 6 (R88). -/
def accessCost (s : State) : Nat :=
  let l := arbL s tickMemArb
  let b := l + 6 * l
  let e := if arbEmOn s tickMemArb then
      arbE s tickMemArb * (1 + b / (arbW s tickMemArb - arbE s tickMemArb))
    else 0
  min (b + e) 65535 + 4

/-- Cost of a pattern's stitches with access cost `a`, fixed costs included (R88). -/
def patternCost (a : Nat) (l : List Stitch) : Nat :=
  l.foldl (fun c t => let k := stitchCost t.typ; c + k.1 + t.n * (k.2.1 + k.2.2 * a)) (64 + 256 + 58)

/-- Reads stitch record `k` of an image; the second part is whether its reserved bytes are zero (R87). -/
def readStitch (img : List Nat) (off : Nat) : Stitch × Bool :=
  let w := imgWord img off
  let n := imgWord img (off + 4)
  (⟨w % 256, bitField w 8 8, bitField w 16 8, n % 2 ^ 16, imgWord img (off + 8), imgWord img (off + 12)⟩,
   decide (bitField w 24 8 = 0) && decide (bitField n 16 16 = 0))

/-- What the stitch records of R88 have come to: the detail of the first failure, or none. -/
def checkStitches (fallback : Bool) : List (Stitch × Bool) → Bool → Bool → Option Nat
  | [], _, _ => none
  | (t, clean) :: rest, loops, solved =>
    match stitchMaxN t.typ with
    | none => some 0x0103
    | some m =>
      if !clean || decide (t.n < 1) || decide (m < t.n) then some 0x0103
      else if t.every = 0 ∨ t.every ≤ t.offset then some 0x0105
      else if t.typ = 4 then
        if fallback then some 0x0106
        else if solved || loops then some 0x0104
        else checkStitches fallback rest true true
      else if t.typ = 5 ∨ t.typ = 6 ∨ t.typ = 7 ∨ t.typ = 9 ∨ t.typ = 10 then
        checkStitches fallback rest true solved
      else if t.typ = 8 then checkStitches fallback rest loops solved
      else if loops then some 0x0104
      else checkStitches fallback rest false solved

/-- A pattern, or the status and detail it is rejected with. -/
inductive PatVerdict where
  | admitted (p : Pattern)
  | rejected (status detail : Nat)
  deriving DecidableEq, Repr

/-- The figure of R89: cost in permille of the commit window, rounded up. -/
def costPermille (cost window : Nat) : Nat := ceilDiv (1000 * cost) window

/-- The checks of a copied pattern from SIGNATURE on, in the order of R91. -/
def checkPattern (s : State) (fallback : Bool) (len : Nat) (img : List Nat) : PatVerdict :=
  let w := fun o => imgWord img o
  let ilen := w 0x08
  let count := bitField (w 0x04) 16 16
  let soff := w 0x0C
  let window := windowNow s
  let period := rget s R.TKE_TICK_PERIOD_PERIOD_US
  if w 0 ≠ 0x54415051 ∨ w 0x04 % 2 ^ 16 ≠ 0x0100 then .rejected stRejectFormat 0x0101
  else if 0x200000 < ilen then .rejected stRejectFormat 0x0107
  else if ilen ≠ len then .rejected stRejectFormat 0x0108
  else if imgCrc img ilen 0x38 ≠ w 0x38 then .rejected stRejectFormat 0x0102
  else if w 0x2C ≠ 0 ∨ w 0x30 ≠ 0 ∨ w 0x34 ≠ 0 ∨ w 0x3C ≠ 0 ∨ soff % 16 ≠ 0 ∨ count = 0 ∨ 4096 < count ∨
      ilen < soff + 16 * count ∨ ilen < w 0x24 + w 0x28 then .rejected stRejectFormat 0x0109
  else if 0x400000 < w 0x20 then .rejected stRejectFormat 0x0107
  else
    let recs := (List.range count).map fun k => readStitch img (soff + 16 * k)
    match checkStitches fallback recs false false with
    | some d => .rejected stRejectFormat d
    | none =>
      let lo := w 0x18 % 2 ^ 16
      let hi := bitField (w 0x18) 16 16
      let stitches := recs.map (·.1)
      let cost := patternCost (accessCost s) stitches
      if period < lo ∨ hi < period then .rejected stRejectState 0x0203
      else if budgetOf window < cost then .rejected stRejectBudget (min (costPermille cost window) 0xFFFF)
      else .admitted { patId := join64 (w 0x10) (w 0x14), periodMin := lo, periodMax := hi,
                       consts := imgSlice img (w 0x24) (w 0x28), stitches := stitches, cost := cost }

/-- The class-0x1 descriptor the TKE takes next: the rings in ring-number order, none until the image it serves is
PENDING, written to its slot, or rejected (R90). -/
def nextLoad (s : State) : Option Ref :=
  if s.tke.loadPat.isSome || s.tke.loadTbl.isSome || !s.xlk.forwards.isEmpty then none
  else ((List.range 256).findSome? fun n =>
    (heldRefs s 1).find? fun r => r.ring == n)

/-- The TKE serves this descriptor now. -/
def tkeServes (s : State) (r : Ref) : Bool := nextLoad s == some r

/-- Completes a class-0x1 descriptor in the row that runs. -/
def completeTke (s : State) (r : Ref) (status detail : Nat) : State := complete s r status detail (some (rowHere s))

/-- As `completeTke`, where there is a descriptor. -/
def completeTkeOpt (s : State) (r : Option Ref) (status detail : Nat) : State :=
  completeOpt s r status detail (some (rowHere s))

/-- PATTERN_LOAD: the checks before the source is read (R91), then the copy begins. -/
def patternLoad (s : State) (r : Ref) (d : Desc) (img : List Nat) : State :=
  let slot := d.classWord % 2
  let len := d.word 0x18
  if slot = 1 ∧ tkeArmed s then completeTke s r stRejectState 0x0201
  else if 0x200000 < len then completeTke s r stRejectFormat 0x0107
  else if len < 64 then completeTke s r stRejectFormat 0x0108
  else { s with tke := { s.tke with loadPat := some (r, slot, img) } }

/-- The pending pattern is superseded (R92). -/
def supersedePattern (s : State) : State :=
  match s.tke.pending with
  | some p =>
    rinc (completeTkeOpt { s with tke := { s.tke with pending := none } } p.ref stDone 1) R.TKE_TABLE_STATE_SUPERSEDED
  | none => s

/-- A pattern becomes pending, superseding an earlier one (R92). -/
def pendPattern (s : State) (q : PendPat) : State :=
  let s1 := supersedePattern s
  { s1 with tke := { s1.tke with pending := some { q with at_ := s.now } } }

/-- A main pattern is admitted: pending while armed, after the partner has had it (R251), else written to its slot
(R92). -/
def admitMain (s : State) (p : Pattern) (r : Ref) (detail : Nat) : State :=
  if tkeArmed s then
    let q : PendPat := { pat := p, ref := some r, at_ := s.now, detail := detail }
    if forwarding s then
      let s1 := { s with xlk := { s.xlk with forwards := s.xlk.forwards ++ [.pattern q] } }
      resyncSend s1 (effectRow s) (.pattern false p)
    else pendPattern s q
  else
    let s1 := supersedePattern s
    completeTke { s1 with tke := { s1.tke with main := some p } } r stDone detail

/-- PATTERN_ADMISSION: the copy has ended; `ecc` says that it met an uncorrectable error. -/
def patternAdmission (s : State) (ecc : Bool) : State :=
  match s.tke.loadPat with
  | none => s
  | some (r, slot, img) =>
    let s1 := { s with tke := { s.tke with loadPat := none } }
    let len := match reqDesc s r with
      | some d => d.word 0x18
      | none => 0
    if ecc then completeTke s1 r stEccFatal 0
    else match checkPattern s (slot == 1) len img with
      | .rejected st d => completeTke s1 r st d
      | .admitted p =>
        let detail := costPermille p.cost (windowNow s)
        if slot = 1 then
          if tkeArmed s then completeTke s1 r stRejectState 0x0201
          else completeTke { s1 with tke := { s1.tke with fallback := some p } } r stDone detail
        else admitMain s1 p r detail

/-! ### Table sets -/

def tsNanFree (l : List Nat) : Bool := l.all fFinite

/-- Strictly increasing. -/
def fIncreasing : List F32 → Bool
  | a :: b :: t => fLt a b && fIncreasing (b :: t)
  | _ => true

def allZero (l : List Nat) : Bool := l.all (· == 0)

/-- Loop record `i` (R132). -/
def tsLoop (i : Nat) : Nat := 0x500 + 64 * i
def loopMode (ts : List Nat) (i : Nat) : Nat := imgWord ts (tsLoop i) % 256
def loopKind (ts : List Nat) (i : Nat) : Nat := bitField (imgWord ts (tsLoop i)) 8 8
def loopOutA (ts : List Nat) (i : Nat) : Nat := bitField (imgWord ts (tsLoop i)) 16 16
def loopOutB (ts : List Nat) (i : Nat) : Nat := imgWord ts (tsLoop i + 4) % 2 ^ 16
def loopFbClass (ts : List Nat) (i : Nat) : Nat := bitField (imgWord ts (tsLoop i + 4)) 16 8
def loopFbIndex (ts : List Nat) (i : Nat) : Nat := bitField (imgWord ts (tsLoop i + 4)) 24 8
/-- A real-valued field of a loop record, by byte offset. -/
def loopF (ts : List Nat) (i off : Nat) : F32 := imgWord ts (tsLoop i + off)

/-- Drive channels, switch channels and CAN words that a loop names. -/
def loopDriveNames (ts : List Nat) (i : Nat) : List Nat :=
  match loopKind ts i with
  | 1 | 5 => [loopOutA ts i]
  | 2 => [loopOutA ts i, loopOutB ts i]
  | _ => []
def loopSwitchNames (ts : List Nat) (i : Nat) : List Nat :=
  match loopKind ts i with
  | 3 => [loopOutA ts i]
  | 4 => [loopOutA ts i, loopOutB ts i]
  | _ => []
def loopCanNames (ts : List Nat) (i : Nat) : List Nat := if loopKind ts i = 6 then [loopOutA ts i] else []

/-- No two entries are equal. -/
def noRepeats (l : List Nat) : Bool := l.eraseDups.length == l.length

/-- The loop records are valid (R132, detail 0x0119). -/
def loopsValid (ts : List Nat) : Bool :=
  let is := List.range 32
  let dr := is.flatMap fun i => loopDriveNames ts i
  let sw := is.flatMap fun i => loopSwitchNames ts i
  let cw := is.flatMap fun i => loopCanNames ts i
  (is.all fun i =>
    decide (loopMode ts i ≤ 3) && decide (loopKind ts i ≤ 6) && decide (loopFbClass ts i ≤ 5) &&
      fLe (loopF ts i 0x28) (loopF ts i 0x2C) &&
      (decide (loopMode ts i = 0 ∨ loopMode ts i = 3) || decide (loopFbClass ts i ≠ 0)) &&
      (decide (loopFbClass ts i ≠ 4) || decide (loopFbIndex ts i % 2 = 0))) &&
  (dr.all fun c => decide (c ≤ 95)) && (sw.all fun c => decide (c ≤ 95)) && (cw.all fun c => decide (c ≤ 63)) &&
  noRepeats dr && noRepeats sw && noRepeats cw

/-- Bytes that shall be zero (detail 0x011A). -/
def reservedClear (ts : List Nat) : Bool :=
  let z := fun off n => allZero (imgWords ts off n)
  decide (bitField (imgWord ts 0x0C) 30 2 = 0) && z 0x1C 1 && z 0x40 48 &&
  z (0x100 + 4 * (tsMfBands ts - 1)) (65 - tsMfBands ts) && z (0x200 + 4 * (tsMoBands ts - 1)) (65 - tsMoBands ts) &&
  z 0x480 32 && z 0x2F00 64 && z (tsGen (tsGenRows ts)) (34 * (64 - tsGenRows ts)) &&
  ((List.range 32).all fun i => z (tsLoop i + 0x3C) 1 &&
    (decide (loopKind ts i = 2 ∨ loopKind ts i = 4) || decide (loopOutB ts i = 0))) &&
  ((List.range (tsRegions ts)).all fun r => z (tsRegion r + 0xA80) 352)

/-- Every FP32 value in a field that is not reserved is finite (detail 0x0113). -/
def tsFinite (ts : List Nat) : Bool :=
  let ok := fun off n => tsNanFree (imgWords ts off n)
  ok 0x20 7 && ok 0x100 (tsMfBands ts - 1) && ok 0x200 (tsMoBands ts - 1) && ok 0x300 64 && ok 0x400 32 &&
  ((List.range 32).all fun i => ok (tsLoop i + 8) 13) &&
  ((List.range (tsGenRows ts)).all fun g => ok (tsGen g) 34) &&
  ((List.range (tsRegions ts)).all fun r => ok (tsRegion r) 672)

/-- Bound pairs are ordered and every region box meets the hard bounds (detail 0x0115). -/
def tsBoundsOk (ts : List Nat) : Bool :=
  ((List.range 32).all fun i => fLe (tsHardLo ts i) (tsHardHi ts i)) &&
  ((List.range (tsGenRows ts)).all fun g => fLe (imgWord ts (tsGen g + 128)) (imgWord ts (tsGen g + 132))) &&
  ((List.range (tsRegions ts)).all fun r => (List.range 32).all fun i =>
    fLe (tsLo ts r i) (tsHi ts r i) && fLe (tsHardLo ts i) (tsHi ts r i) && fLe (tsLo ts r i) (tsHardHi ts i))

/-- Weights are not negative; move penalties and rates are above 0 (detail 0x0116). -/
def tsWeightsOk (ts : List Nat) : Bool :=
  (List.range (tsRegions ts)).all fun r =>
    ((List.range 16).all fun j => fLe f0 (tsWeight ts r j)) &&
    ((List.range 32).all fun i => fLt f0 (tsMove ts r i) && fLt f0 (tsRate ts r i))

/-- The scalars lie in their ranges (detail 0x0117): RHO 10⁻³ to 10⁴, ALPHA 1.0 to 1.8. -/
def tsScalarsOk (ts : List Nat) : Bool :=
  let w := fun o => imgWord ts o
  fLe 0x3A83126F (w 0x20) && fLe (w 0x20) 0x461C4000 && fLe f1 (w 0x24) && fLe (w 0x24) 0x3FE66666 &&
  fLt f0 (w 0x28) && fLt f0 (w 0x2C) && fLt f0 (w 0x30) && fLe f0 (w 0x34) && fLe f0 (w 0x38)

/-- The fallback vector lies in the hard bounds and meets every general row within FEAS_TOL (detail 0x0118). -/
def tsFallbackOk (ts : List Nat) : Bool :=
  let v := imgWords ts 0x400 32
  let tol := imgWord ts 0x30
  ((List.range 32).all fun i => fLe (tsHardLo ts i) (tsFallback ts i) && fLe (tsFallback ts i) (tsHardHi ts i)) &&
  ((List.range (tsGenRows ts)).all fun g =>
    let x := fDot (imgWords ts (tsGen g) 32) v
    fLe (fSub (imgWord ts (tsGen g + 128)) tol) x && fLe x (fAdd (imgWord ts (tsGen g + 132)) tol))

/-- The first failing check of a table set, in the order of R91 and R130. -/
def checkTable (len : Nat) (ts : List Nat) : Option Nat :=
  let slen := imgWord ts 0x08
  if imgWord ts 0 ≠ 0x4C425451 ∨ imgWord ts 4 % 2 ^ 16 ≠ 0x0100 then some 0x0110
  else if 0x100000 < slen then some 0x0107
  else if len ≠ slen then some 0x0108
  else if tsRegions ts < 1 ∨ 64 < tsRegions ts ∨ tsMfBands ts < 1 ∨ 64 < tsMfBands ts ∨ tsMoBands ts < 1 ∨
      64 < tsMoBands ts ∨ tsRegions ts ≠ tsMfBands ts * tsMoBands ts ∨ slen ≠ 0x3000 + tsRegions ts * 0x1000 ∨
      64 < tsGenRows ts ∨ tsRegions ts ≤ tsDefault ts then some 0x0111
  else if imgCrc ts slen 0x3C ≠ imgWord ts 0x3C then some 0x0112
  else if !tsFinite ts then some 0x0113
  else if !fIncreasing (imgWords ts 0x100 (tsMfBands ts - 1)) || !fIncreasing (imgWords ts 0x200 (tsMoBands ts - 1)) then
    some 0x0114
  else if !tsBoundsOk ts then some 0x0115
  else if !tsWeightsOk ts then some 0x0116
  else if !tsScalarsOk ts then some 0x0117
  else if !tsFallbackOk ts then some 0x0118
  else if !loopsValid ts then some 0x0119
  else if !reservedClear ts then some 0x011A
  else none

/-- The lowest-numbered table buffer that is neither LIVE nor PENDING (R103), nor held for a partner's
confirmation. -/
def freeBuffer (s : State) : Nat :=
  let used := [rget s R.TKE_TABLE_STATE_LIVE_BUF, rget s R.TKE_TABLE_STATE_PENDING_BUF] ++
    (s.xlk.forwards.filterMap fun f => match f with
      | .table _ b _ => some b
      | .pattern _ => none)
  if !used.contains 0 then 0 else if !used.contains 1 then 1 else 2

/-- TABLE_SET: the length checks, then the copy into a free buffer begins. -/
def tableSet (s : State) (r : Ref) (d : Desc) (img : List Nat) : State :=
  let len := d.word 0x18
  if 0x100000 < len then completeTke s r stRejectFormat 0x0107
  else if len < 64 then completeTke s r stRejectFormat 0x0108
  else
    let b := freeBuffer s
    rset { s with tke := { s.tke with loadTbl := some (r, b, img) } } R.TKE_TABLE_STATE_LOADING_BUF b

/-- The PENDING set is superseded: its buffer is freed and its descriptor completes (R103). -/
def supersedeTable (s : State) : State :=
  match s.tke.pendTbl with
  | some (old, _) =>
    let b := rget s R.TKE_TABLE_STATE_PENDING_BUF
    let s1 := { s with tke := { s.tke with pendTbl := none, bufs := tblErase s.tke.bufs b } }
    rinc (completeTkeOpt (rset s1 R.TKE_TABLE_STATE_PENDING_BUF 3) old stDone 1) R.TKE_TABLE_STATE_SUPERSEDED
  | none => s

/-- A checked set becomes PENDING in its buffer, superseding an earlier one (R103). -/
def pendTable (s : State) (r : Option Ref) (b : Nat) : State :=
  let s2 := supersedeTable s
  rset { s2 with tke := { s2.tke with pendTbl := some (r, s.now) } } R.TKE_TABLE_STATE_PENDING_BUF b

/-- TABLE_SET_CHECK: the copy has ended; `ecc` says that it met an uncorrectable error. A set that waits for the partner's
confirmation (R251) is neither LOADING nor PENDING: no field shows its buffer (DESIGN CHOICE, log entry 171; unsafe). -/
def tableSetCheck (s : State) (ecc : Bool) : State :=
  match s.tke.loadTbl with
  | none => s
  | some (r, b, img) =>
    let s1 := rset { s with tke := { s.tke with loadTbl := none } } R.TKE_TABLE_STATE_LOADING_BUF 3
    let len := match reqDesc s r with
      | some d => d.word 0x18
      | none => 0
    if ecc then completeTke s1 r stEccFatal 0
    else match checkTable len img with
      | some e => completeTke s1 r stRejectFormat e
      | none =>
        let s2 := { s1 with tke := { s1.tke with bufs := tblSet s1.tke.bufs b img } }
        if forwarding s then
          let s3 := { s2 with xlk := { s2.xlk with forwards := s2.xlk.forwards ++ [.table r b s.now] } }
          resyncSend s3 (effectRow s) (.pendingTable img)
        else pendTable s2 (some r) b

/-- The PENDING set becomes LIVE at a tick edge (R103); the completion carries the row that begins. -/
def flipTable (s : State) : State :=
  match s.tke.pendTbl with
  | some (r, at_) =>
    if at_ < s.now then
      let b := rget s R.TKE_TABLE_STATE_PENDING_BUF
      let old := rget s R.TKE_TABLE_STATE_LIVE_BUF
      let bufs := tblErase s.tke.bufs old
      let ts := tblGetD bufs b []
      let s1 := { s with tke := { s.tke with bufs := bufs, pendTbl := none, flip := true },
                         sps := { s.sps with bands := none } }
      let s2 := rset (rset s1 R.TKE_TABLE_STATE_LIVE_BUF b) R.TKE_TABLE_STATE_PENDING_BUF 3
      let s3 := rset64 (rinc s2 R.TKE_EPOCH_EPOCH) R.SPS_SET_ID_LO_SET_ID R.SPS_SET_ID_HI_SET_ID
        (join64 (imgWord ts 0x10) (imgWord ts 0x14))
      completeTkeOpt s3 r stDone 0
    else s
  | none => s

/-- The pending main pattern becomes the main pattern at a tick edge (R92). -/
def swapPattern (s : State) : State :=
  match s.tke.pending with
  | some p =>
    if p.at_ < s.now then
      completeTkeOpt { s with tke := { s.tke with pending := none, main := some p.pat } } p.ref stDone p.detail
    else s
  | none => s

/-! ### PROMOTE -/

/-- PROMOTE: refused while the main pattern executes and in a row that has demoted or stopped, else due at the next tick
edge (R90, R91, R98). While the TKE is not armed it is accepted (DESIGN CHOICE, log entry 124; unsafe). -/
def promote (s : State) (r : Ref) : State :=
  if tkeArmed s && !rbit s R.TKE_CTRL_FALLBACK_ACTIVE ||
      s.tke.rowArmed && (!s.tke.rowFallback || rbit s R.TKE_CTRL_STOPPED) then
    completeTke s r stRejectState 0x0202
  else { s with tke := { s.tke with promote := s.tke.promote ++ [r] } }

/-- The PROMOTEs due at a tick edge take effect. -/
def promoteEdge (s : State) : State :=
  match s.tke.promote with
  | [] => s
  | l =>
    let s1 := rset { s with tke := { s.tke with promote := [] } } R.TKE_CTRL_FALLBACK_ACTIVE 0
    l.foldl (fun s r => completeTke s r stDone 0) s1

/-- A demotion or a stop refuses the PROMOTEs due at the next edge (R98). -/
def promoteRefuse (s : State) : State :=
  s.tke.promote.foldl (fun s r => completeTke s r stRejectState 0x0202) { s with tke := { s.tke with promote := [] } }

/-- RREC_HEAD_WRITE: the head is taken as it stands (R105). -/
def rrecHead (s : State) (idx ph : Nat) : State := queueHead s queueRrec 0 0 idx ph

/-! ### Commands -/

/-- PATTERN_LOAD. -/
def execPatternLoad (t : Fc) (r : Ref) (image : List Nat) (s : State) : Out :=
  atFabric t (fun s => if tkeServes s r then withDesc r 1 1 (fun d s => ifCommanding r (some (rowHere s)) (fun s => patternLoad s r d image) s) s else s) s

/-- PATTERN_ADMISSION. -/
def execPatternAdmission (t : Fc) (ecc : Bool) (s : State) : Out :=
  atFabric t (afterEdge (.patternAdmission t ecc) fun s => patternAdmission s ecc) s

/-- TABLE_SET. -/
def execTableSet (t : Fc) (r : Ref) (image : List Nat) (s : State) : Out :=
  atFabric t (fun s => if tkeServes s r then withDesc r 1 2 (fun d s => ifCommanding r (some (rowHere s)) (fun s => tableSet s r d image) s) s else s) s

/-- TABLE_SET_CHECK. -/
def execTableSetCheck (t : Fc) (ecc : Bool) (s : State) : Out :=
  atFabric t (afterEdge (.tableSetCheck t ecc) fun s => tableSetCheck s ecc) s

/-- PROMOTE at its consumer. -/
def servePromote (s : State) (r : Ref) : State :=
  if tkeServes s r then withDesc r 1 3 (fun _ s => ifCommanding r (some (rowHere s)) (fun s => promote s r) s) s else s

/-- PROMOTE. -/
def execPromote (t : Fc) (r : Ref) (s : State) : Out := atFabric t (afterEdge (.promote t r) fun s => servePromote s r) s

/-- RREC_HEAD_WRITE. -/
def execRrecHeadWrite (t : Fc) (idx : Fin 65536) (ph : Fin 2) (s : State) : Out :=
  atFabric t (fun s => rrecHead s idx ph) s

end Sys2Proof.Machine
end

