-- ==== Sys2Proof/Machine/Sfe.lean ====
section
/-! DEFINITION. The sensor front end (R141–R167): impact, frequency, quadrature and general inputs, load cells,
sensor supplies, converter rotation, zero tracking, the latch at the tick edge, and its general service
commands. -/

namespace Sys2Proof.Machine

/-! ### Impact channels -/

def getImp (s : State) (n : Nat) : ImpCh := tblGetD s.sfe.imp n ImpCh.idle
def setImp (s : State) (n : Nat) (c : ImpCh) : State := { s with sfe := { s.sfe with imp := tblSet s.sfe.imp n c } }

/-- Trigger level in converter codes: TRIG is in units of 16 codes (R165). -/
def impTrig (s : State) (n : Nat) : Nat := 16 * rget s R.SFE_IMP_CFG_TRIG 0 n

/-- Samples of the baseline's time constant: 20 ms of 4 µs (R146). -/
def impBaseSamples : Int := 5000

/-- Magnitude of a conversion less the baseline, in codes. -/
def impMag (c : ImpCh) (x : Int) : Nat := min 32767 (((x * 65536 - c.base).natAbs + 32768) / 65536)

/-- A conversion at the converter's full scale. -/
def impFull (x : Int) : Bool := decide (32767 ≤ x ∨ x ≤ -32768)

/-- The features of a pulse (R146). -/
structure Features where
  peak : Nat
  rise : Nat
  decay : Nat
  energy : Nat
  deriving DecidableEq, Repr

/-- Index of the last sample above the trigger level. -/
def lastAbove (trig : Nat) (l : List Nat) : Nat :=
  (l.foldl (fun (p : Nat × Nat) x => (p.1 + 1, if trig < x then p.1 else p.2)) (0, 0)).2

/-- Features of the samples of a pulse, the opening sample first. -/
def features (trig : Nat) (l : List Nat) : Features :=
  let peak := l.foldl max 0
  let ip := (l.takeWhile fun x => x != peak).length
  let il := lastAbove trig l
  let e := ((l.take (il + 1)).foldl (fun a x => a + x * x) 0) / 2 ^ 24
  ⟨peak, min ip 255, min (il - ip) 4095, min e 65535⟩

/-- Pile-up: after the peak the samples rise by more than the trigger level above their lowest since the peak
"while still above TRIG": read as no sample since the peak at or below it (R147; DEDUCED, log entry 16). The
triple is the peak so far, the lowest since it, and the mark. -/
def pileStep (trig : Nat) (p : Nat × Nat × Bool) (x : Nat) : Nat × Nat × Bool :=
  if p.1 < x then
    (x, x, p.2.2 || (decide (p.2.1 < p.1) && decide (trig < p.2.1) && decide (p.2.1 + trig < x)))
  else
    let low := min p.2.1 x
    (p.1, low, p.2.2 || (decide (trig < low) && decide (low + trig < x)))

def isPileUp (trig : Nat) (l : List Nat) : Bool := (l.foldl (pileStep trig) (0, 0, false)).2.2

/-- Word `w` of rule `r` of a bank (R148). -/
def ruleWord (s : State) (b r w : Nat) : Nat := rget s R.SFE_RULE_WORD 0 (256 * b + 4 * r + w)

/-- A rule matches a pulse of a channel of profile `p` (R149). -/
def ruleMatches (s : State) (b r p : Nat) (f : Features) : Bool :=
  let w0 := ruleWord s b r 0
  let w1 := ruleWord s b r 1
  let w2 := ruleWord s b r 2
  let w3 := ruleWord s b r 3
  bitOf w0 0 && bitField w0 1 2 != 3 && bitOf w0 (4 + p) &&
    decide (bitField w0 8 8 ≤ f.rise ∧ f.rise ≤ bitField w0 16 8) &&
    decide (bitField w1 0 16 ≤ f.peak ∧ f.peak ≤ bitField w1 16 16) &&
    decide (bitField w2 0 16 ≤ f.decay ∧ f.decay ≤ bitField w2 16 16) &&
    decide (bitField w3 0 16 ≤ f.energy ∧ f.energy ≤ bitField w3 16 16)

/-- The class of a pulse: that of the lowest-numbered matching rule of the live bank, else other (R149). -/
def classify (s : State) (n : Nat) (f : Features) : Nat :=
  let b := rget s R.SFE_CTRL_LIVE_BANK
  let p := rget s R.SFE_IMP_CFG_PROFILE 0 n
  match (List.range 64).find? fun r => ruleMatches s b r p f with
  | some r => bitField (ruleWord s b r 0) 1 2
  | none => 2

/-- One conversion while no pulse is open: it opens one above TRIG, for which a stuck channel first needs HOLD_OFF samples
at or below it (R147), or it enters the baseline: a first-order mean of 20 ms (R146; its arithmetic DESIGN CHOICE, log
entry 130; unsafe). -/
def impSample (trig hold : Nat) (c : ImpCh) (x : Int) : ImpCh :=
  if c.isOpen then c
  else
    let m := impMag c x
    if trig < m ∧ (!c.waiting ∨ hold ≤ c.quiet) then { c with isOpen := true, waiting := false, quiet := 0 }
    else { c with base := c.base + (x * 65536 - c.base) / impBaseSamples, quiet := if m ≤ trig then c.quiet + 1 else 0 }

/-- The conversions since the latest pulse of a channel, up to one that opens a pulse (R146). -/
def impOpen (s : State) (n : Nat) (xs : List Int) : State :=
  if rbit s R.SFE_IMP_CFG_EN 0 n then
    setImp s n (xs.foldl (impSample (impTrig s n) (rval s R.SFE_IMP_CFG_HOLD_OFF 0 n)) (getImp s n))
  else s

/-- Counts one impact of a class, saturating at 0xFFFF (R144). -/
def ImpCh.count (c : ImpCh) (cls : Nat) : ImpCh :=
  match cls with
  | 0 => { c with kernel := min (c.kernel + 1) 0xFFFF }
  | 1 => { c with straw := min (c.straw + 1) 0xFFFF }
  | _ => { c with other := min (c.other + 1) 0xFFFF }

/-- Samples of a pulse up to its decision, the HOLD_OFF-th consecutive one at or below TRIG; none while it is open. The
pair is the samples so far and the run of those at or below TRIG. -/
def pulseEnd (trig hold : Nat) (l : List Nat) : Option Nat :=
  (l.foldl (fun (p : Nat × Nat × Option Nat) x =>
    let q := if x ≤ trig then p.2.1 + 1 else 0
    (p.1 + 1, q, if p.2.2.isNone && q == hold then some (p.1 + 1) else p.2.2)) (0, 0, none)).2.2

/-- A pulse begins with a sample above TRIG. -/
def opensAbove (trig : Nat) : List Nat → Bool
  | x :: _ => decide (trig < x)
  | [] => false

/-- A clipped pulse counts, whatever else it is (R147, R163). -/
def noteClip (s : State) (full : Bool) : State := if full then rinc s R.SFE_IMP_EVENTS_CLIPPED else s

/-- A pulse closes with the sample of its decision, up to its 4,096th one, and is classified or counted as a pile-up (R146,
R147, R149; DEDUCED, log entry 175; unsafe). -/
def impClose (s : State) (n : Nat) (xs : List Int) : State :=
  let c := getImp s n
  let trig := impTrig s n
  let l := xs.map (impMag c)
  let full := xs.any impFull
  if c.isOpen && opensAbove trig l && pulseEnd trig (rval s R.SFE_IMP_CFG_HOLD_OFF 0 n) l == some l.length &&
      decide (l.length ≤ 4096) then
    let f := features trig l
    let f1 := if full then { f with peak := 32767 } else f
    let c1 := { c with isOpen := false, clip := c.clip || full }
    let c2 := if isPileUp trig l then { c1 with pileup := min (c1.pileup + 1) 0xFF }
      else c1.count (classify s n f1)
    noteClip (setImp s n c2) full
  else s

/-- A pulse still open after 4,096 samples; a clip and a pile-up in them still count (R147). -/
def impStuck (s : State) (n : Nat) (xs : List Int) : State :=
  let c := getImp s n
  let trig := impTrig s n
  let l := (xs.take 4096).map (impMag c)
  let full := (xs.take 4096).any impFull
  if c.isOpen && opensAbove trig l && decide (4096 ≤ l.length) &&
      (pulseEnd trig (rval s R.SFE_IMP_CFG_HOLD_OFF 0 n) l).isNone then
    let c1 := { c with isOpen := false, waiting := true, quiet := 0, stuck := true, stuckTold := true,
                       clip := c.clip || full, pileup := if isPileUp trig l then min (c.pileup + 1) 0xFF else c.pileup }
    let s1 := rinc (noteClip (setImp s n c1) full) R.SFE_IMP_EVENTS_STUCK
    if c.stuckTold then s1 else raiseEv s1 evSfeImpactStuck
  else s

/-! ### Frequency and quadrature inputs -/

def getFrq (s : State) (n : Nat) : FrqIn := tblGetD s.sfe.frq n FrqIn.idle
def setFrq (s : State) (n : Nat) (c : FrqIn) : State := { s with sfe := { s.sfe with frq := tblSet s.sfe.frq n c } }
def getQuad (s : State) (k : Nat) : QuadPair := tblGetD s.sfe.quad k QuadPair.idle
def setQuad (s : State) (k : Nat) (q : QuadPair) : State :=
  { s with sfe := { s.sfe with quad := tblSet s.sfe.quad k q } }

/-- Pair `k` is joined and counts: QUAD of its even input and EN of both (R152). -/
def quadOn (s : State) (k : Nat) : Bool :=
  rbit s R.SFE_FRQ_CFG_QUAD 0 (2 * k) && rbit s R.SFE_FRQ_CFG_EN 0 (2 * k) && rbit s R.SFE_FRQ_CFG_EN 0 (2 * k + 1)

/-- Input `n` is one of a joined pair. -/
def inQuad (s : State) (n : Nat) : Bool := rbit s R.SFE_FRQ_CFG_QUAD 0 (2 * (n / 2))

/-- A rising edge that has held its level for MIN_PULSE × 100 ns is recorded with the module time of the edge (R151). -/
def frqEdge (s : State) (n held : Nat) : State :=
  if rbit s R.SFE_FRQ_CFG_EN 0 n && !inQuad s n && decide (40 * rget s R.SFE_FRQ_CFG_MIN_PULSE 0 n ≤ held) then
    let c := getFrq s n
    let e := quarterAt s (s.now - held)
    setFrq s n { c with
      t0 := c.t1, t1 := some e, firstInTick := if c.nInTick = 0 then some e else c.firstInTick,
      nInTick := c.nInTick + 1, count := (c.count + 1) % 2 ^ 24 }
  else s

/-- The step of a quadrature pair from one pair of levels to another: +1 where A leads B, −1 where B leads A, 0 for
no change or an illegal step. -/
def quadStep (a b a' b' : Bool) : Int :=
  match a, b, a', b' with
  | false, false, true, false => 1
  | true, false, true, true => 1
  | true, true, false, true => 1
  | false, true, false, false => 1
  | false, false, false, true => -1
  | false, true, true, true => -1
  | true, true, true, false => -1
  | true, false, false, false => -1
  | _, _, _, _ => 0

/-- An edge of a pair: counted, or illegal where both phases change within one fc (R152). -/
def quadEdge (s : State) (k : Nat) (a b : Bool) : State :=
  if quadOn s k then
    let q := getQuad s k
    if a != q.a && b != q.b then
      rinc (setQuad s k { q with a := a, b := b, err := true }) R.SFE_QUAD_ERRS_COUNT
    else setQuad s k { q with a := a, b := b, pos := q.pos + quadStep q.a q.b a b }
  else setQuad s k { getQuad s k with a := a, b := b }

/-- A write to SFE_QUAD_ZERO: the named pairs are zeroed at the next tick edge (R152, R165). -/
def quadZero (s : State) (mask : Nat) : State :=
  (List.range 16).foldl (fun s k => if bitOf mask k then setQuad s k { getQuad s k with zero := true } else s) s

/-! ### General inputs, load cells, supplies -/

/-- fc between two samples of a general input: 8 kS/s (R145). -/
def ginSampleFc : Nat := 50000

/-- One sample of a DIG input of `uv` µV taken in fc `at_`: its level against the threshold, which rises at DIG_THRESH and
falls 0.5 V below it (the place of the hysteresis DESIGN CHOICE, log entry 131; unsafe), and the debounced level, which
follows one that has stayed for DEBOUNCE_MS; 0 means one sample (R153). -/
def digSample (thresh ms at_ : Nat) (c : DigIn) (uv : Nat) : DigIn :=
  let raw := if c.raw then decide (thresh * 250000 ≤ uv + 500000) else decide (thresh * 250000 ≤ uv)
  let since := if raw = c.raw then c.since else at_
  { raw := raw, since := since, level := if since + ms * fcMs ≤ at_ then raw else c.level }

/-- The samples of a DIG input since the latest report, one each 125 µs, the last of them now. -/
def digSamples (s : State) (n : Nat) (uvs : List Nat) : State :=
  if rval s R.SFE_GIN_CFG_MODE 0 n = 5 then
    let thresh := rval s R.SFE_GIN_CFG_DIG_THRESH 0 n
    let ms := rget s R.SFE_GIN_CFG_DEBOUNCE_MS 0 n
    let r := uvs.foldl (fun (p : Nat × DigIn) uv => (p.1 - 1, digSample thresh ms (s.now - p.1 * ginSampleFc) p.2 uv))
      (uvs.length - 1, tblGetD s.sfe.dig n DigIn.idle)
    { s with sfe := { s.sfe with dig := tblSet s.sfe.dig n r.2 } }
  else s

/-- The excitation of a load cell is measured: beyond 60 mA or below 4.75 V is a fault until it is back within
limits for a whole sampled tick (R154). -/
def excMeasure (s : State) (n ma mv : Nat) : State :=
  if rbit s R.SFE_LCL_CFG_EN 0 n then
    let bad := decide (60 < ma) || decide (mv < 4750)
    let rest := s.sfe.exc.filter fun x => x != n
    { s with sfe := { s.sfe with
        exc := if bad then n :: rest else rest,
        excTick := if bad || s.sfe.exc.contains n then n :: (s.sfe.excTick.filter fun x => x != n)
          else s.sfe.excTick } }
  else s

def getSsup (s : State) (n : Nat) : Ssup := tblGetD s.sfe.ssup n Ssup.idle
def setSsup (s : State) (n : Nat) (c : Ssup) : State := { s with sfe := { s.sfe with ssup := tblSet s.sfe.ssup n c } }

/-- Setting of a supply in mV (R165). -/
def ssupMv (s : State) (n : Nat) : Nat :=
  match rval s R.SFE_SSUP_CFG_VOLT 0 n with
  | 1 => 8000
  | 2 => 10000
  | _ => 5000

/-- A supply has been beyond 360 mA or below 90 % of its setting for 1 ms: it turns off, and the third time within
10 s it latches (R155). -/
def ssupFault (s : State) (n ma mv since : Nat) : State :=
  let c := getSsup s n
  if c.on && (decide (360 < ma) || decide (mv * 10 < ssupMv s n * 9)) && decide (since + fcMs ≤ s.now) then
    let recent := s.now :: (c.offTimes.filter fun x => decide (s.now < x + 10 * fcSec))
    let latch := decide (3 ≤ recent.length)
    let s1 := setSsup s n { on := false, onAt := c.onAt, badTick := true, offTimes := recent,
                            restartAt := if latch then none else some (s.now + 100 * fcMs) }
    let s2 := setOnes (rsetBitAt s1 R.SFE_SSUP_STAT_FAULT n true) R.SFE_SSUP_STAT_TRIPPED n
    if latch then raiseEv (rsetBitAt s2 R.SFE_SSUP_STAT_LATCHED n true) evSfeSupplyLatched else s2
  else s

/-- A supply restarts 100 ms after its turn-off (R155). -/
def ssupRestart (s : State) (n : Nat) : State :=
  let c := getSsup s n
  match c.restartAt with
  | some d =>
    if d ≤ s.now then
      rsetBitAt (setSsup s n { c with on := true, onAt := s.now, badTick := true, restartAt := none })
        R.SFE_SSUP_STAT_FAULT n false
    else s
  | none => s

/-- A write of a supply's EN; 0 and then 1 releases a latched supply (R155). -/
def ssupEnable (s : State) (n : Nat) (en : Bool) : State :=
  let c := getSsup s n
  let was := rbit s R.SFE_SSUP_CFG_EN 0 n
  let s1 := rsetB s R.SFE_SSUP_CFG_EN en 0 n
  if en && !was then
    let s2 := rsetBitAt (rsetBitAt s1 R.SFE_SSUP_STAT_FAULT n false) R.SFE_SSUP_STAT_LATCHED n false
    setSsup s2 n { c with on := true, onAt := s.now, badTick := true, restartAt := none }
  else if !en then setSsup s1 n { c with on := false, badTick := true, restartAt := none }
  else s1

/-! ### Converter rotation (R161) -/

/-- Bit of a group in SFE_CAL_STAT.RETIRED: bits 0–5 impact groups, 6–13 general groups 10–17. -/
def calGroup (b : Nat) : Nat := if b < 6 then b else b + 4

/-- A converter of group bit `b` is taken out and checked: gain error in 0.01 %, offset in codes. -/
def converterSwap (s : State) (b gain offset : Nat) : State :=
  let last := tblGetD s.sfe.lastSwap b 0
  if rbit s R.SFE_CTRL_BG_CAL_EN && !bitOf (rget s R.SFE_CAL_STAT_RETIRED) b &&
      decide (last + rval s R.SFE_CAL_CFG_PERIOD_S * fcSec ≤ s.now) then
    let s1 := rinc { s with sfe := { s.sfe with
      lastSwap := tblSet s.sfe.lastSwap b s.now,
      rotation := tblSet s.sfe.rotation b ((tblGetD s.sfe.rotation b 0 + 1) % 9) } } R.SFE_CAL_STAT_SWAPS
    if 200 < gain ∨ (if b < 6 then 64 else 8) < offset then
      raiseEv (rsetBitAt s1 R.SFE_CAL_STAT_RETIRED b true) evSfeConverterRetired
    else s1
  else s

/-! ### The latch at the tick edge (R142, R144) -/

/-- An input has been enabled since before the sampled tick that ends now; `from_` is that tick's start. -/
def wholeTick (s : State) (cls n from_ : Nat) : Bool := decide (tblGetD s.sfe.enabledAt (256 * cls + n) 0 ≤ from_)

/-- The supply an input names was good for the whole sampled tick (R155). -/
def supplyGood (s : State) (code : Nat) : Bool := code = 0 || !(getSsup s (code - 1)).badTick

/-- Signed ratio rounded once. -/
def fOfIntRatio (n : Int) (d : Nat) : F32 := fRound (decide (n < 0)) n.natAbs d 0

/-- Truth values as bits, the first at bit 0. -/
def flagsOf (fs : List Bool) : Nat := (fs.foldr (fun b a => 2 * a + b2n b) 0)

/-- An entry's VALID bit. -/
def entryValid (e : Nat) : Bool := bitOf e 56

/-- Entry of an impact channel. -/
def impEntry (s : State) (n from_ : Nat) : Nat :=
  let c := getImp s n
  let en := rbit s R.SFE_IMP_CFG_EN 0 n
  let sup := supplyGood s (rval s R.SFE_IMP_CFG_SUPPLY 0 n)
  let lost := s.sfe.lost.contains n
  let valid := en && wholeTick s 0 n from_ && sup && !c.stuck && !lost
  let sat := decide (c.kernel = 0xFFFF ∨ c.straw = 0xFFFF ∨ c.other = 0xFFFF ∨ c.pileup = 0xFF)
  c.kernel + 2 ^ 16 * c.straw + 2 ^ 32 * c.other + 2 ^ 48 * c.pileup +
    2 ^ 56 * flagsOf [valid, c.clip, c.stuck, sat, !sup]

/-- One over a time in 0.25 ns, times `k`, as a ratio in Hz. -/
def frqOf (k : Nat) (d : Int) : Nat × Nat := if 0 < d then (k * 4000000000, d.toNat) else Config.backwardFrequency d

/-- Frequency of an input at an edge of module time `te` as a ratio in Hz, and TIMEOUT (R151). -/
def frqRatio (s : State) (n : Nat) (te : Int) : (Nat × Nat) × Bool :=
  let c := getFrq s n
  let f : Nat × Nat := match c.firstInTick, c.t1, c.t0 with
    | some a, some b, t0 =>
      if 2 ≤ c.nInTick then frqOf (c.nInTick - 1) (b - a)
      else match t0 with
        | some z => frqOf 1 (b - z)
        | none => (0, 1)
    | none, some b, some z => frqOf 1 (b - z)
    | _, _, _ => (0, 1)
  let g := te - c.t1.getD c.enabled
  -- g × f > 1
  let f1 := if 0 < f.1 ∧ ((f.2 * 4000000000 : Nat) : Int) < g * (f.1 : Nat) then (4000000000, g.toNat) else f
  let code := rget s R.SFE_FRQ_CFG_TIMEOUT_10MS 0 n
  let limit : Nat := (if code = 0 then 1000 else code) * 40000000
  if (limit : Int) < g then ((0, 1), true) else (f1, false)

/-- Entry of a frequency input that is not in a pair. -/
def frqEntry (s : State) (n from_ : Nat) (te : Int) : Nat :=
  let en := rbit s R.SFE_FRQ_CFG_EN 0 n
  let sup := supplyGood s (rval s R.SFE_FRQ_CFG_SUPPLY 0 n)
  let r := frqRatio s n te
  let ovf := decide (55000 * r.1.2 < r.1.1)
  let valid := en && wholeTick s 1 n from_ && sup && !ovf
  fOfRatio r.1.1 r.1.2 + 2 ^ 32 * (getFrq s n).count + 2 ^ 56 * flagsOf [valid, ovf, r.2, false, !sup]

/-- Entries of the even and odd input of pair `k`; the rate is taken before a zeroing, the position after it. -/
def quadEntries (s : State) (k from_ te : Nat) : Nat × Nat :=
  let q := getQuad s k
  let sup := supplyGood s (rval s R.SFE_FRQ_CFG_SUPPLY 0 (2 * k)) &&
    supplyGood s (rval s R.SFE_FRQ_CFG_SUPPLY 0 (2 * k + 1))
  let valid := quadOn s k && wholeTick s 1 (2 * k) from_ && wholeTick s 1 (2 * k + 1) from_ && sup
  let rate := fOfIntRatio ((q.pos - q.posAtEdge) * fcSec) (te - from_)
  let pos := if q.zero then 0 else q.pos
  let fl := 2 ^ 56 * flagsOf [valid, false, false, q.err, !sup]
  (rate + 2 ^ 32 * ofSigned 24 pos + fl, ofSigned 32 pos + fl)

/-- The samples that VALUE averages at the edge in fc `te`: of the sampled tick, or of the latest FILT_MS (R153). -/
def ginTaken (s : State) (n from_ te : Nat) (l : List GinSample) : List GinSample :=
  let ms := rget s R.SFE_GIN_CFG_FILT_MS 0 n
  l.filter fun g => g.input == n && decide (g.at_ < te) &&
    (if ms = 0 then decide (from_ ≤ g.at_) else decide (te ≤ g.at_ + ms * fcMs))

/-- Entry of a general input from its samples (R153): VALUE is their mean, rounded once, and RAW that of their codes,
rounded down (DESIGN CHOICE, log entry 131; unsafe). Without a sample it is not VALID. -/
def ginEntry (s : State) (n from_ : Nat) (l : List GinSample) : Nat :=
  let sup := supplyGood s (rval s R.SFE_GIN_CFG_SUPPLY 0 n)
  let lost := s.sfe.lost.contains (512 + n)
  let k := l.length
  let sum := (l.map (·.micro)).foldl (· + ·) 0
  let raw := (l.map (·.raw)).foldl (· + ·) 0 / max k 1
  let val := fOfRatio sum (max k 1 * 1000000)
  let base := decide (0 < k) && wholeTick s 2 n from_ && sup && !lost
  match rval s R.SFE_GIN_CFG_MODE 0 n with
  | 1 | 2 =>
    let low := decide (raw < rget s R.SFE_GIN_WIN_VALID_LO 0 n)
    let high := decide (rget s R.SFE_GIN_WIN_VALID_HI 0 n < raw)
    val + 2 ^ 32 * (raw % 2 ^ 16) + 2 ^ 56 * flagsOf [base && !low && !high, low, high, false, !sup, lost]
  | 3 =>
    let low := decide (sum < k * 3600000)
    let high := decide (k * 21000000 < sum)
    val + 2 ^ 32 * (raw % 2 ^ 16) + 2 ^ 56 * flagsOf [base && !low && !high, low, high, false, !sup, lost]
  | 4 =>
    let opn := decide (k * 12000000000 < sum)
    val + 2 ^ 32 * (raw % 2 ^ 16) + 2 ^ 56 * flagsOf [base && !opn, false, false, opn, !sup, lost]
  | 5 =>
    let lv := (tblGetD s.sfe.dig n DigIn.idle).level
    (if lv then f1 else f0) + 2 ^ 32 * b2n lv +
      2 ^ 56 * flagsOf [wholeTick s 2 n from_ && sup && !lost, false, false, false, !sup, lost]
  | _ => 2 ^ 56 * flagsOf [false, false, false, false, !sup, lost]

/-- Range of a load cell in 10⁻⁶ mV/V. -/
def lclRange (s : State) (n : Nat) : Nat := if rbit s R.SFE_LCL_CFG_RANGE 0 n then 8000000 else 2000000

/-- Entry of a load cell from its conversions over the sampled tick (R154). -/
def lclEntry (s : State) (n from_ : Nat) (l : List Int) : Nat :=
  let exc := s.sfe.exc.contains n || s.sfe.excTick.contains n
  let ovr := l.any fun v => decide (lclRange s n < v.natAbs)
  let valid := !l.isEmpty && rbit s R.SFE_LCL_CFG_EN 0 n && wholeTick s 3 n from_ && !ovr && !exc
  fOfIntRatio (l.foldl (· + ·) 0) (max l.length 1 * 1000000) + 2 ^ 32 * (l.length % 2 ^ 24) +
    2 ^ 56 * flagsOf [valid, ovr, exc]

/-- All group records of the sampled tick that runs from fc `from_` to the edge at fc `te`. -/
def sfeRecords (s : State) (from_ te : Nat) (x : SfeSamples) : Tbl Nat :=
  let imp := (List.range 48).map fun n => (n, impEntry s n from_)
  let frq := (List.range 32).map fun n =>
    (48 + n, if inQuad s n then
        let e := quadEntries s (n / 2) from_ te
        if n % 2 = 0 then e.1 else e.2
      else frqEntry s n from_ (quarterAt s te))
  let gins := s.sfe.gin ++ x.gin
  let gin := (List.range 64).map fun n => (80 + n, ginEntry s n from_ (ginTaken s n from_ te gins))
  let lcls := (s.sfe.lcl ++ x.lcl).filter fun g => decide (g.at_ < te)
  let lcl := (List.range 4).map fun n => (144 + n, lclEntry s n from_ ((lcls.filter fun g => g.cell == n).map (·.nv)))
  imp ++ frq ++ gin ++ lcl

/-- The counters of the sampled tick start again; a supply stays bad until it has been on for 10 ms (R155), and a channel
that was VALID tells of its next stuck pulse (R166). `recs` are the records of the tick that has ended. -/
def sfeNewTick (s : State) (recs : Tbl Nat) (x : SfeSamples) : State :=
  let sfe := s.sfe
  { s with sfe := { sfe with
      imp := sfe.imp.map fun p => (p.1, { p.2 with
        kernel := 0, straw := 0, other := 0, pileup := 0, clip := false, stuck := false,
        stuckTold := p.2.stuckTold && !entryValid (tblGetD recs p.1 0) }),
      frq := sfe.frq.map fun p => (p.1, { p.2 with nInTick := 0, firstInTick := none }),
      quad := sfe.quad.map fun p =>
        let z := if p.2.zero then 0 else p.2.pos
        (p.1, { p.2 with pos := z, posAtEdge := z, err := false, zero := false }),
      gin := (sfe.gin ++ x.gin).filter fun g => decide (s.now ≤ g.at_ + 255 * fcMs),
      lcl := (sfe.lcl ++ x.lcl).filter fun g => decide (s.now ≤ g.at_),
      excTick := [],
      ssup := sfe.ssup.map fun p => (p.1, { p.2 with badTick := !(p.2.on && decide (p.2.onAt + 10 * fcMs ≤ s.now)) }) } }

/-! ### Zero tracking (R162) -/

/-- The tracking condition at a tick edge: COND_GIN reads COND_LEVEL in DIG mode, and input 2 of the estimator is
valid and at least 0.5 × X2_REF. `x2` is that input. -/
def ztCondition (s : State) (rec : Tbl Nat) (x2 : Option F32) : Bool :=
  let q := rget s R.SFE_ZT_CFG_MEASURE
  let g := rget s R.SFE_ZT_CFG_COND_GIN
  let e := tblGetD rec (80 + g) 0
  rbit s R.SFE_ZT_CFG_EN && decide (rval s R.SFE_EST_KIND 0 q = 2) && decide (rval s R.SFE_GIN_CFG_MODE 0 g = 5) &&
    entryValid e && (decide (bitField e 32 16 = 1) == rbit s R.SFE_ZT_CFG_COND_LEVEL) &&
    (match x2 with
      | some v => fLe (fMul 0x3F000000 (rget s R.SFE_EST_X2_REF 0 q)) v
      | none => false)

/-- The exact value of a finite binary32. -/
def fRat (a : F32) : Rat := let r := fToRatio a; (r.1 : Rat) / (r.2 : Rat)

/-- An exact value rounded once to binary32. -/
def ratF (q : Rat) : F32 := fOfIntRatio q.num q.den

/-- The condition as evaluated at an edge: it starts, goes on, or fails and abandons the window. In a window the latched
value `x1` of input 1 is taken into the average: the spec names no other sampling (DEDUCED, log entry 132; unsafe). -/
def ztEdge (s : State) (holds : Bool) (x1 : Option F32) : State :=
  let z := s.sfe.zt
  let z1 : ZeroTrack := if holds then
      match z.window, x1 with
      | some _, some v =>
        if fFinite v then { z with since := some (z.since.getD s.now), sum := z.sum + fRat v, n := z.n + 1 }
        else { z with since := some (z.since.getD s.now) }
      | _, _ => { z with since := some (z.since.getD s.now) }
    else { z with since := none, window := none }
  { s with sfe := { s.sfe with zt := z1 } }

/-- The condition has held for SETTLE_MS: an averaging window begins. -/
def ztSettle (s : State) : State :=
  let z := s.sfe.zt
  match z.since, z.window with
  | some t, none =>
    if t + rget s R.SFE_ZT_TIMES_SETTLE_MS * fcMs ≤ s.now then
      { s with sfe := { s.sfe with zt := { z with window := some s.now, sum := 0, n := 0 } } }
    else s
  | _, _ => s

/-- The window begun at fc `start` ends with the mean of input 1, rounded once; the next edge judges it, and a new window
begins. A window in
which input 1 was never valid has none (DEDUCED, log entry 132; unsafe). -/
def ztWindowEnd (s : State) (start : Nat) : State :=
  let z := s.sfe.zt
  match z.window with
  | some t =>
    if t = start ∧ t + rval s R.SFE_ZT_TIMES_WINDOW_MS * fcMs ≤ s.now then
      { s with sfe := { s.sfe with zt := { z with
          window := some s.now, sum := 0, n := 0, result := if z.n = 0 then z.result else some (ratF (z.sum / z.n)) } } }
    else s
  | none => s

/-- Judges a window at the edge: a CAL_SET of B at the same edge discards it (R163); a mean within ZT_STEP of B
becomes B; else it is rejected. Tracking that no longer runs judges nothing. -/
def ztJudge (s : State) : State :=
  match s.sfe.zt.result with
  | none => s
  | some m =>
    let q := rget s R.SFE_ZT_CFG_MEASURE
    let s1 := { s with sfe := { s.sfe with zt := { s.sfe.zt with result := none } } }
    if !rbit s R.SFE_ZT_CFG_EN || rval s R.SFE_EST_KIND 0 q != 2 then s1
    else match tblGet? s.sfe.calPend q with
    | some ⟨_, some _, _⟩ =>
      { s1 with sfe := { s1.sfe with zt := { s1.sfe.zt with
          window := s1.sfe.zt.since.map fun _ => s.now, sum := 0, n := 0 } } }
    | _ =>
      let b := rget s R.SFE_EST_B 0 q
      if fLe (fAbs (fSub m b)) (rget s R.SFE_ZT_STEP_ZT_STEP) then
        rinc (rset s1 R.SFE_EST_B m 0 q) R.SFE_ZT_STAT_ACCEPTED
      else raiseEv (rinc s1 R.SFE_ZT_STAT_REJECTED) evSfeZeroReject

/-! ### General service: CAL_SET and CLS_SELECT -/

/-- CAL_SET (R159, R160). -/
def calSet (s : State) (r : Ref) (d : Desc) : State :=
  let q := d.classWord % 16
  let a := d.word 0x10
  let b := d.word 0x14
  let setA := bitOf (d.word 0x18) 0
  let setB := bitOf (d.word 0x18) 1
  if (!setA && !setB) || (setA && !fFinite a) || (setB && !fFinite b) then complete s r stRejectFormat 0x0130
  else if rval s R.SFE_EST_KIND 0 q = 0 then complete s r stRejectState 0x0231
  else
    let s1 := match tblGet? s.sfe.calPend q with
      | some old => completeOpt s old.ref stDone 1
      | none => s
    let p : CalPend := { a := if setA then some a else none, b := if setB then some b else none, ref := some r }
    forward { s1 with sfe := { s1.sfe with calPend := tblSet s1.sfe.calPend q p } }
      (.calibration q (p.a.getD (rget s R.SFE_EST_A 0 q)) (p.b.getD (rget s R.SFE_EST_B 0 q)))

/-- The pending CAL_SETs take effect at an edge and complete. -/
def calEdge (s : State) : State :=
  let s1 := s.sfe.calPend.foldl (fun s p =>
    let s1 := match p.2.a with
      | some v => rset s R.SFE_EST_A v 0 p.1
      | none => s
    let s2 := match p.2.b with
      | some v => rset s1 R.SFE_EST_B v 0 p.1
      | none => s1
    completeOpt s2 p.2.ref stDone) s
  { s1 with sfe := { s1.sfe with calPend := [] } }

/-- CLS_SELECT (R150). -/
def clsSelect (s : State) (r : Ref) (d : Desc) : State :=
  let b := d.classWord % 2
  let s1 := match s.sfe.clsRef with
    | some old => completeOpt s old stDone 1
    | none => s
  if rget s R.SFE_CTRL_LIVE_BANK = b then
    let s2 := rset s1 R.SFE_CTRL_PENDING 0
    complete (forward { s2 with sfe := { s2.sfe with clsRef := none } } (.classBank b)) r stDone 3
  else
    let s2 := rset (rset s1 R.SFE_CTRL_PENDING 1) R.SFE_CTRL_PENDING_BANK b
    forward { s2 with sfe := { s2.sfe with clsRef := some (some r) } } (.classBank b)

/-- The pending CLS_SELECT takes effect at an edge. -/
def clsEdge (s : State) : State :=
  match s.sfe.clsRef with
  | some r =>
    let s1 := rset (rset s R.SFE_CTRL_LIVE_BANK (rget s R.SFE_CTRL_PENDING_BANK)) R.SFE_CTRL_PENDING 0
    completeOpt { s1 with sfe := { s1.sfe with clsRef := none } } r stDone
  | none => s

/-! ### Commands -/

/-- The event of a command of the front end, which belongs to the sampled tick of its fc (R142, R163): one of the fc of a
tick edge acts after the edge. -/
def sfeApply (c : Instr) (s : State) : State :=
  match c with
  | .impactPulseOpen _ ch quiet x => impOpen s ch (quiet ++ [x])
  | .impactPulseClose _ ch x samples => impClose s ch (x :: samples)
  | .impactStuck _ ch samples => impStuck s ch samples
  | .frqEdge _ n held => frqEdge s n held
  | .quadEdge _ pair a b => quadEdge s pair a b
  | .quadZero _ mask => quadZero s mask
  | .digDebounceExpiry _ n uv uvs => digSamples s n (uv :: uvs)
  | .excFault _ cell ma mv => excMeasure s cell ma mv
  | .ssupFaultOff _ n ma mv since => ssupFault s n ma mv since
  | .ssupRestart _ n => ssupRestart s n
  | .ssupEnable _ n en => ssupEnable s n en
  | .ztSettleExpiry _ => ztSettle s
  | .ztWindowEnd _ start => ztWindowEnd s start
  | .calSet _ r => withDesc r 0xB 0x30 (fun d s => ifCommanding r none (fun s => calSet s r d) s) s
  | .clsSelect _ r => withDesc r 0xB 0x31 (fun d s => ifCommanding r none (fun s => clsSelect s r d) s) s
  | _ => s

/-- A command of the front end. -/
def sfeExec (t : Fc) (c : Instr) (s : State) : Out := atFabric t (afterEdge c (sfeApply c)) s

/-- IMPACT_PULSE_OPEN. -/
def execImpactPulseOpen (t : Fc) (ch : Fin 48) (quiet : List Int) (x : Int) (s : State) : Out :=
  sfeExec t (.impactPulseOpen t ch quiet x) s

/-- IMPACT_PULSE_CLOSE. -/
def execImpactPulseClose (t : Fc) (ch : Fin 48) (x : Int) (samples : List Int) (s : State) : Out :=
  sfeExec t (.impactPulseClose t ch x samples) s

/-- IMPACT_STUCK. -/
def execImpactStuck (t : Fc) (ch : Fin 48) (samples : List Int) (s : State) : Out :=
  sfeExec t (.impactStuck t ch samples) s

/-- FRQ_EDGE. -/
def execFrqEdge (t : Fc) (n : Fin 32) (held : Nat) (s : State) : Out := sfeExec t (.frqEdge t n held) s

/-- QUAD_EDGE. -/
def execQuadEdge (t : Fc) (pair : Fin 16) (a b : Bool) (s : State) : Out := sfeExec t (.quadEdge t pair a b) s

/-- QUAD_ZERO. -/
def execQuadZero (t : Fc) (mask : Fin 65536) (s : State) : Out := sfeExec t (.quadZero t mask) s

/-- DIG_DEBOUNCE_EXPIRY. -/
def execDigDebounceExpiry (t : Fc) (n : Fin 64) (uv : Nat) (uvs : List Nat) (s : State) : Out :=
  sfeExec t (.digDebounceExpiry t n uv uvs) s

/-- EXC_FAULT. -/
def execExcFault (t : Fc) (cell : Fin 4) (ma mv : Nat) (s : State) : Out := sfeExec t (.excFault t cell ma mv) s

/-- SSUP_FAULT_OFF. -/
def execSsupFaultOff (t : Fc) (n : Fin 8) (ma mv : Nat) (since : Fc) (s : State) : Out :=
  sfeExec t (.ssupFaultOff t n ma mv since) s

/-- SSUP_RESTART. -/
def execSsupRestart (t : Fc) (n : Fin 8) (s : State) : Out := sfeExec t (.ssupRestart t n) s

/-- SSUP_ENABLE. -/
def execSsupEnable (t : Fc) (n : Fin 8) (en : Bool) (s : State) : Out := sfeExec t (.ssupEnable t n en) s

/-- CONVERTER_SWAP. -/
def execConverterSwap (t : Fc) (group : Fin 14) (gain offset : Nat) (s : State) : Out :=
  atFabric t (fun s => converterSwap s group gain offset) s

/-- ZT_SETTLE_EXPIRY. -/
def execZtSettleExpiry (t : Fc) (s : State) : Out := sfeExec t (.ztSettleExpiry t) s

/-- ZT_WINDOW_END. -/
def execZtWindowEnd (t : Fc) (start : Fc) (s : State) : Out := sfeExec t (.ztWindowEnd t start) s

/-- CAL_SET. -/
def execCalSet (t : Fc) (r : Ref) (s : State) : Out := sfeExec t (.calSet t r) s

/-- CLS_SELECT. -/
def execClsSelect (t : Fc) (r : Ref) (s : State) : Out := sfeExec t (.clsSelect t r) s

end Sys2Proof.Machine
end

