-- ==== Sys2Proof/Machine/Stitches.lean ====
section
/-! DEFINITION. The stitches of a row (R84, R85): gathering, estimators (R157), region selection (R122), the solve
(R123), function loops (R133–R135), staging of drive and switch outputs (R134, R173, R207), compute stitches, and
the comparison of the four sequencers (R96). A row stages; its commit makes good. -/

namespace Sys2Proof.Machine

/-- Runs the next stitch of the row, which shall have the type named: stitches run one at a time, in record order,
before the commit point (R82, R85). The command's time is the stitch's end: one that ends in the fc of the commit
point has not ended by it (DESIGN CHOICE, log entry 125; unsafe). -/
def runStitch (s : State) (typ : Nat) (f : Stitch → State → State) : State :=
  match s.tke.todo with
  | st :: rest =>
    if st.typ = typ ∧ s.now < commitAt s then
      let s1 := f st s
      { s1 with tke := { s1.tke with todo := rest, usedFc := s.now - s.tke.rowStart } }
    else s
  | [] => s

/-- Changes what the row has staged. -/
def stage (s : State) (f : Staged → Staged) : State := { s with tke := { s.tke with staged := f s.tke.staged } }

/-! ### Gathering -/

/-- The 64 bytes of a navigation record as eight 64-bit words (R269). -/
def navEntries (r : NavRec) : List Nat :=
  let u64 := fun (v : Int) => (v % ((2 ^ 64 : Nat) : Int)).toNat
  let pair := fun (a b : Nat) => a % 2 ^ 32 + 2 ^ 32 * (b % 2 ^ 32)
  let flags := r.fix % 8 + 8 * flagsOf [r.posValid, r.speedValid, r.headingValid, r.slopeValid, r.hdgCourse] +
    256 * (min r.sats 255) + 65536 * (min r.corrAge 255) + 2 ^ 24 * (r.timeState % 4)
  [r.solTime % 2 ^ 64, u64 r.lat, u64 r.lon, pair (u64 r.height % 2 ^ 32) r.speed, pair r.velN r.velE, pair r.velU r.heading,
   pair r.roll r.pitch, pair (min r.hAcc 65535 + 65536 * min r.hdgAcc 65535) flags]

/-- The navigation record that eight words hold. -/
def navOfEntries (w : List Nat) : NavRec :=
  let e := fun (k : Nat) => w.getD k 0
  let lo := fun (k : Nat) => e k % 2 ^ 32
  let hi := fun (k : Nat) => e k / 2 ^ 32
  let f := hi 7
  { solTime := e 0, lat := toSigned 64 (e 1), lon := toSigned 64 (e 2), height := toSigned 32 (lo 3), speed := hi 3,
    velN := lo 4, velE := hi 4, velU := lo 5, heading := hi 5, roll := lo 6, pitch := hi 6, hAcc := lo 7 % 65536,
    hdgAcc := lo 7 / 65536, fix := f % 8, posValid := bitOf f 3, speedValid := bitOf f 4, headingValid := bitOf f 5,
    slopeValid := bitOf f 6, hdgCourse := bitOf f 7, sats := bitField f 8 8, corrAge := bitField f 16 8,
    timeState := bitField f 24 2 }

/-- Entry of the navigation record in the latched snapshot, after the nineteen group records (DESIGN CHOICE, log entry
140; unsafe). -/
def navEntry : Nat := 152

/-- An entry of the latched snapshot, under 8 × group + entry (R144). -/
def snapEntry (s : State) (k : Nat) : Nat :=
  if navEntry ≤ k ∧ k < navEntry + 8 then (navEntries s.tke.snap.nav).getD (k - navEntry) 0
  else tblGetD s.tke.snap.sfe k 0

/-- GATHER_GROUP copies group records of eight 64-bit entries into the workspace (R143). -/
def gatherGroup (st : Stitch) (s : State) : State :=
  let g0 := st.opA % 32
  (List.range st.n).foldl (fun s k =>
    if 18 < g0 + k then s
    else (List.range 8).foldl (fun s e =>
      let v := snapEntry s (8 * (g0 + k) + e)
      let a := st.opB + 64 * k + 8 * e
      let w := tblSet (tblSet s.tke.work a (v % 2 ^ 32)) (a + 4) (v / 2 ^ 32)
      { s with tke := { s.tke with work := w } }) s) s

/-- COMPUTE executes instructions of a set that the spec does not give: the workspace after it is a free value. -/
def compute (_ : Stitch) (s : State) : State :=
  { s with tke := { s.tke with work := Config.freeWorkspace s.freeCount }, freeCount := s.freeCount + 1 }

/-! ### Inputs of estimators and loops (R132, R144, R157) -/

/-- An input by class (0 none; 1 FRQ; 2 GIN; 3 LCL; 4 quadrature rate; 5 quadrature position) and number: its value,
or none where it is not valid. -/
def latchedInput (s : State) (cls n : Nat) : Option F32 :=
  let take := fun (k : Nat) => let e := snapEntry s k; if entryValid e then some (e % 2 ^ 32) else none
  match cls with
  | 1 => if n ≤ 31 then take (48 + n) else none
  | 2 => if n ≤ 63 then take (80 + n) else none
  | 3 => if n ≤ 3 then take (144 + n) else none
  | 4 => if n ≤ 31 ∧ n % 2 = 0 ∧ quadOn s (n / 2) then take (48 + n) else none
  | 5 => if n ≤ 31 ∧ n % 2 = 0 ∧ quadOn s (n / 2) then
      (take (49 + n)).map fun v => fOfInt (toSigned 32 v)
    else none
  | _ => none

/-! ### Estimators (R157) -/

/-- T of R142 in seconds. -/
def sampledSeconds (s : State) : F32 := fOfRatio s.tke.snap.sampledFc fcSec

/-- Mask of impact channels of a LOSS_COUNT estimator. -/
def estMask (s : State) (j : Nat) : Nat := rget s R.SFE_EST_MASK_LO 0 j + 2 ^ 32 * rget s R.SFE_EST_MASK_HI 0 j

/-- The value v of an estimator from the latched records; none where it is invalid. -/
def estValue (s : State) (j : Nat) : Option F32 :=
  let a := rget s R.SFE_EST_A 0 j
  let b := rget s R.SFE_EST_B 0 j
  let c := rget s R.SFE_EST_C 0 j
  let ref := rget s R.SFE_EST_X2_REF 0 j
  let c2 := rget s R.SFE_EST_IN2_CLASS 0 j
  let x1 := latchedInput s (rget s R.SFE_EST_IN1_CLASS 0 j) (rget s R.SFE_EST_IN1_INDEX 0 j)
  let x2 := latchedInput s c2 (rget s R.SFE_EST_IN2_INDEX 0 j)
  match rval s R.SFE_EST_KIND 0 j with
  | 1 =>
    let chans := (List.range 48).filter fun n => bitOf (estMask s j) n
    let good := chans.filter fun n => entryValid (snapEntry s n)
    if good.isEmpty then none
    else
      let sum := fSum (good.map fun n =>
        let e := snapEntry s n
        fAdd (fOfNat (bitField e 0 16)) (fMul c (fOfNat (bitField e 48 8))))
      let x := fDiv (fMul sum (fOfNat chans.length)) (fOfNat good.length)
      some (fAdd (fDiv (fMul a x) (sampledSeconds s)) b)
  | 2 =>
    match x1 with
    | none => none
    | some v1 =>
      let f := fSub v1 b
      let g := if c2 = 0 then some f
        else match x2 with
          | none => none
          | some v2 =>
            -- 0.05 × X2_REF
            if fLt v2 (fMul 0x3D4CCCCD ref) then some f0 else some (fDiv (fMul f ref) v2)
      g.map fun f => let v := fMul a f; if fLt v c then f0 else v
  | 3 =>
    match x1 with
    | none => none
    | some v1 =>
      let v := fAdd (fMul a v1) b
      if c2 = 0 then some v
      else x2.map fun v2 => fAdd v (fMul c (fSub v2 ref))
  | 4 =>
    match x1, x2 with
    | some v1, some v2 => some (fAdd (fMul (fMul a v1) v2) b)
    | _, _ => none
  | _ => none

/-- Filter state of an estimator as the row sees it. -/
def estState (s : State) (j : Nat) : EstSt := tblGetD s.tke.staged.est j (tblGetD s.sfe.est j ⟨0, false⟩)

/-- Evaluates and filters the estimator of one measure; the result is staged. -/
def estimateOne (dt : F32) (s : State) (j : Nat) : State :=
  let e := estState s j
  let tau := rget s R.SFE_EST_TAU 0 j
  let v := match estValue s j with
    | some v => if fFinite v then some v else none
    | none => none
  let n : EstSt := match v with
    | none => e
    | some v =>
      if !e.valid || fIsZero tau then ⟨v, true⟩
      else ⟨fAdd e.y (fMul (fDiv dt (fAdd tau dt)) (fSub v e.y)), true⟩
  let q : QVal := ⟨n.y, v.isNone, s.tke.edgeTime - s.tke.inForce.periodUs * 1000⟩
  stage s fun g => { g with est := tblSet g.est j n, qvals := tblSet g.qvals j q }

/-- ESTIMATE (R157). -/
def estimate (st : Stitch) (s : State) : State :=
  let dt := tickSeconds s st.every
  ((List.range st.n).map (st.opA % 16 + ·)).foldl (fun s j => if 15 < j then s else estimateOne dt s j) s

/-! ### Region and solve -/

/-- REGION_SELECT (R122). -/
def regionSelect (_ : Stitch) (s : State) : State :=
  match liveSet s with
  | some ts => let b := regionChoice s ts; stage s fun g => { g with region := some b }
  | none => s

/-- SOLVE (R112, R123): staged until the row commits. -/
def solve (st : Stitch) (s : State) : State :=
  match liveSet s with
  | some ts =>
    let o := runSolve s ts st.every (s.now - s.tke.rowStart - s.tke.usedFc)
    let s1 := stage s fun g => { g with solve := some o, digest := g.digest ++ o.setpoints }
    { s1 with tke := { s1.tke with solved := true } }
  | none => s

/-! ### Function loops (R131–R135) -/

/-- The setpoint of slot `i` in the running row (R112, R131). -/
def loopSetpoint (s : State) (ts : List Nat) (i : Nat) : F32 :=
  if s.tke.rowFallback then fallbackSetpoint s ts (liveRegion s ts) i
  else match s.tke.staged.solve with
    | some o => o.setpoints.getD i 0
    | none => (prevSetpoints s ts).getD i 0

/-- The raw feedback of a loop; none where it is not valid. -/
def loopRaw (s : State) (ts : List Nat) (i : Nat) : Option F32 :=
  let n := loopFbIndex ts i
  match loopFbClass ts i with
  | 4 => latchedInput s (if loopMode ts i = 1 then 5 else 4) n
  | 5 => if s.tke.snap.nav.speedValid then some s.tke.snap.nav.speed else none
  | c => latchedInput s c n

/-- State of a loop as the row sees it. -/
def loopState (s : State) (i : Nat) : LoopSt := tblGetD s.sps.loops i LoopSt.fresh

/-- Stages an output of a loop for its channels or CAN word (R134). -/
def stageLoop (s : State) (ts : List Nat) (i : Nat) (u : F32) : State :=
  let a := loopOutA ts i
  let b := loopOutB ts i
  let neg := fLt u f0
  match loopKind ts i with
  | 1 => stage s fun g => { g with loopDrive := tblSet g.loopDrive a (1, u) }
  | 2 =>
    let ua := if neg then f0 else u
    let ub := if neg then fNeg u else f0
    stage s fun g => { g with loopDrive := tblSet (tblSet g.loopDrive a (1, ua)) b (1, ub) }
  | 3 => stage s fun g => { g with loopSwitch := tblSet g.loopSwitch a u }
  | 4 =>
    let ua := if neg then f0 else u
    let ub := if neg then fNeg u else f0
    stage s fun g => { g with loopSwitch := tblSet (tblSet g.loopSwitch a ua) b ub }
  | 5 => stage s fun g => { g with loopDrive := tblSet g.loopDrive a (5, u) }
  | 6 => stage s fun g => { g with canWords := tblSet g.canWords a u }
  | _ => s

/-- The ramped setpoint; a fresh loop starts at its first setpoint (R133). -/
def rampedSetpoint (ts : List Nat) (i : Nat) (st : LoopSt) (sp dt : F32) : F32 :=
  let slew := loopF ts i 0x38
  if st.started && fLt f0 slew then
    let lim := fMul slew dt
    fAdd st.sr (fClamp (fSub sp st.sr) (fNeg lim) lim)
  else sp

/-- The law of R133 for one row: the next state, its output among it. -/
def loopLaw (ts : List Nat) (i : Nat) (st : LoopSt) (sp raw dt : F32) : LoopSt :=
  let f := fun off => fFlush (loopF ts i off)
  let sr := rampedSetpoint ts i st sp dt
  let fb := fAdd (fMul raw (f 0x08)) (f 0x0C)
  let e0 := fSub sr fb
  let e := if fLe (fAbs e0) (f 0x34) then f0 else e0
  let last := if st.started then st.fbLast else fb
  let v := fDiv (fSub fb last) dt
  let df := fAdd st.df (fMul (fDiv dt (fAdd (f 0x1C) dt)) (fSub v st.df))
  let u := fSub (fAdd (fAdd (fAdd (fMul (f 0x20) sr) (f 0x24)) (fMul (f 0x10) e)) st.ig) (fMul (f 0x18) df)
  let above := fLt (f 0x2C) u
  let below := fLt u (f 0x28)
  let ig := if above && fLt f0 e || below && !above && fLt e f0 then st.ig
    else fClamp (fAdd st.ig (fMul (fMul (f 0x14) e) dt)) (fNeg (f 0x30)) (f 0x30)
  { sr := sr, ig := ig, df := df, fbLast := fb, started := true, sat := above || below,
    out := some (if above then f 0x2C else if below then f 0x28 else u) }

/-- The open loop of MODE 3. -/
def loopOpen (ts : List Nat) (i : Nat) (st : LoopSt) (sp dt : F32) : LoopSt :=
  let f := fun off => fFlush (loopF ts i off)
  let sr := rampedSetpoint ts i st sp dt
  let u := fAdd (fMul (f 0x20) sr) (f 0x24)
  let w := fClamp u (f 0x28) (f 0x2C)
  { st with sr := sr, started := true, sat := fLt (f 0x2C) u || fLt u (f 0x28), out := some w }

/-- Stages a loop's next state and its output. -/
def loopStage (s : State) (ts : List Nat) (i : Nat) (n : LoopSt) : State :=
  let s1 := stage s fun g => { g with loops := tblSet g.loops i n }
  match n.out with
  | some u => stageLoop s1 ts i u
  | none => s1

/-- Runs one loop (R133, R135). -/
def loopOne (ts : List Nat) (dt : F32) (s : State) (i : Nat) : State :=
  let st := loopState s i
  let sp := loopSetpoint s ts i
  match loopMode ts i with
  | 0 => s
  | 3 => loopStage s ts i (loopOpen ts i st sp dt)
  | _ => match loopRaw s ts i with
    | some raw => loopStage (rsetBitAt s R.FNL_FB_FAULT_SLOTS i false) ts i (loopLaw ts i st sp raw dt)
    | none =>
      let s1 := loopStage (rsetBitAt s R.FNL_FB_FAULT_SLOTS i true) ts i st
      if bitOf (rget s R.FNL_FB_FAULT_SLOTS) i then s1 else raiseEv s1 evFnlFbFault

/-- LOOP: N loops from slot OPERAND_A on. -/
def loops (st : Stitch) (s : State) : State :=
  match liveSet s with
  | some ts =>
    let dt := tickSeconds s st.every
    ((List.range st.n).map (st.opA + ·)).foldl (fun s i => if 31 < i then s else loopOne ts dt s i) s
  | none => s

/-- What a row's loops leave when it commits (R133, R138). -/
def commitLoops (s : State) (ts : List Nat) : State :=
  let g := s.tke.staged
  let s1 := g.loops.foldl (fun s p =>
    let s1 := { s with sps := { s.sps with loops := tblSet s.sps.loops p.1 p.2 } }
    let s2 := if p.2.started then rset s1 R.FNL_SP_VALUE p.2.sr 0 p.1 else s1
    match loopKind ts p.1, p.2.out with
    | 0, _ => s2
    | _, some u => rset s2 R.FNL_OUT_VALUE u 0 p.1
    | _, none => s2) s
  rset s1 R.FNL_SAT_SLOTS (maskOf ((List.range 32).map fun i =>
    match tblGet? g.loops i with
    | some l => l.sat && decide (loopKind ts i ≠ 0)
    | none => false))

/-! ### Staging (R134, R173, R207) -/

/-- The command a staged loop output becomes: a current of 0–3,500 mA, or a shot rate. -/
def loopDrvCmd (kind : Nat) (u : F32) : DrvCmd :=
  if kind = 5 then .rate u else .prop (clampInt 0 3500 (fScaleRound 1000 u)).toNat none

/-- Numbers that stand for a command. -/
def encodeCmd : OutCmd → List Nat
  | .drv ch (.profile d n h) => [ch, 1, d, n, h]
  | .drv ch (.prop m none) => [ch, 2, m]
  | .drv ch (.prop m (some x)) => [ch, 2, m, x.1, x.2]
  | .drv ch .off => [ch, 3]
  | .drv ch (.clear b) => [ch, 4, b2n b]
  | .drv ch (.rate r) => [ch, 5, r]
  | .sw ch (.set d) => [128 + ch, 1, d]
  | .sw ch .rearm => [128 + ch, 2]

/-- Stages an output: it joins the row's commands and the numbers of its DIGEST, in stitch order (R240). -/
def stageCmd (s : State) (c : OutCmd) : State :=
  stage s fun g => { g with cmds := g.cmds ++ [c], digest := g.digest ++ encodeCmd c }

/-- STAGE_DRIVE: N channels from OPERAND_A on. -/
def stageDrive (st : Stitch) (s : State) : State :=
  ((List.range st.n).map (st.opA + ·)).foldl (fun s c =>
    match tblGet? s.tke.staged.loopDrive c with
    | some (k, u) => stageCmd s (.drv c (loopDrvCmd k u))
    | none => s) s

/-- STAGE_SWITCH: the duty is round(1,000 × u), limited to 0–1,000. -/
def stageSwitch (st : Stitch) (s : State) : State :=
  ((List.range st.n).map (st.opA + ·)).foldl (fun s c =>
    match tblGet? s.tke.staged.loopSwitch c with
    | some u => stageCmd s (.sw c (.set (clampInt 0 1000 (fScaleRound 1000 u)).toNat))
    | none => s) s

/-! ### Lockstep (R95, R96) -/

/-- The row ends at once: its remaining stitches are abandoned and what it has staged is discarded (R94, R95). -/
def endRow (s : State) (cause : Nat) : State :=
  let k := s.tke
  { s with tke := { k with
      overrun := some (k.overrun.getD cause), todo := [], staged := Staged.empty,
      mirrorTodo := k.mirrorTodo ++ k.todo.filter fun st => st.typ == 10,
      usedFc := if k.overrun.isSome then k.usedFc else s.now - k.rowStart } }

/-- Of two causes of one fc the row's cause: LATE is none beside another (R98), and LOCKSTEP comes before ECC (DESIGN
CHOICE, log entry 125; unsafe). -/
def causeOf (old new : Nat) : Nat := if old = 1 then new else min old new

/-- A LOCKSTEP or ECC cause arises in the running row (R95, R98): it ends the row, which its commit point counts; in the
fc of the commit point it is the cause of an unfinished row, and a finished row has ended (DESIGN CHOICE, log entry 125; unsafe). -/
def rowCause (s : State) (cause : Nat) : State :=
  let k := s.tke
  if !k.rowArmed then s
  else match k.overrun with
    | some c =>
      if k.usedFc = s.now - k.rowStart ∧ (!k.committed ∨ k.commitFc = s.now) then
        let s1 := { s with tke := { k with overrun := some (causeOf c cause) } }
        if k.committed then rset s1 R.TKE_OVERRUN_LAST_CAUSE (causeOf c cause) else s1
      else s
    | none => if k.committed ∨ (k.todo.isEmpty ∧ commitAt s ≤ s.now) then s else endRow s cause

/-- Sequencers of a set of four, as a list. -/
def maskBits (m : Nat) : List Nat := (List.range 4).filter fun n => bitOf m n

/-- LOCKSTEP_MISMATCH: `out` gives the output of each sequencer. Three or four that agree are the majority and the
dissenters among those not masked are masked; a two-against-two split ends the row. Of what the spec does not name, a
majority of the unmasked masks and anything else is a split (DESIGN CHOICE, log entry 126; unsafe). -/
def lockstep (s : State) (out : List Nat) : State :=
  let masked := rget s R.TKE_LOCKSTEP_MASKED
  let live := (List.range 4).filter fun n => !bitOf masked n
  let votes := fun n => (live.filter fun k => out.getD k 0 == out.getD n 0).length
  let best := (live.map votes).foldl max 0
  if best = live.length then s
  else if live.length < 2 * best then
    match live.find? fun n => votes n == best with
    | none => s
    | some lead =>
      (live.filter fun n => out.getD n 0 != out.getD lead 0).foldl (fun s n =>
        let s1 := rinc (rsetBitAt s R.TKE_LOCKSTEP_MASKED n true) R.TKE_LOCKSTEP_DISAGREE_COUNT
        raiseEv s1 evTkeLockstepMask) s
  else
    rowCause (raiseEv s evTkeLockstepSplit) 2

/-! ### Commands -/

/-- GATHER_GROUP. -/
def execGatherGroup (t : Fc) (s : State) : Out := atFabric t (fun s => runStitch s 1 gatherGroup) s

/-- ESTIMATE. -/
def execEstimate (t : Fc) (s : State) : Out := atFabric t (fun s => runStitch s 2 estimate) s

/-- REGION_SELECT. -/
def execRegionSelect (t : Fc) (s : State) : Out := atFabric t (fun s => runStitch s 3 regionSelect) s

/-- SOLVE. -/
def execSolve (t : Fc) (s : State) : Out := atFabric t (fun s => runStitch s 4 solve) s

/-- LOOP. -/
def execLoop (t : Fc) (s : State) : Out := atFabric t (fun s => runStitch s 5 loops) s

/-- STAGE_DRIVE. -/
def execStageDrive (t : Fc) (s : State) : Out := atFabric t (fun s => runStitch s 6 stageDrive) s

/-- STAGE_SWITCH. -/
def execStageSwitch (t : Fc) (s : State) : Out := atFabric t (fun s => runStitch s 7 stageSwitch) s

/-- COMPUTE. -/
def execCompute (t : Fc) (s : State) : Out := atFabric t (fun s => runStitch s 8 compute) s

/-- LOCKSTEP_MISMATCH. -/
def execLockstepMismatch (t : Fc) (outputs : List Nat) (s : State) : Out :=
  atFabric t (fun s => lockstep s outputs) s

end Sys2Proof.Machine
end

