-- ==== Sys2Proof/Machine/Tiles.lean ====
section
/-! DEFINITION. Tiles and the tile cache (R292–R298), the version plane (R378), and the module's hybrid clock (R376):
what the map engine, the fleet engine and the tile descriptors share. -/

namespace Sys2Proof.Machine

def modSto (s : State) (f : Sto → Sto) : State := { s with sto := f s.sto }
def modFle (s : State) (f : Fle → Fle) : State := { s with fle := f s.fle }

/-! ### The hybrid clock (R375, R376) -/

/-- The order of stamps: T, then C, then A. -/
def stampLt (a b : Stamp) : Bool := a.t < b.t || a.t == b.t && (a.c < b.c || a.c == b.c && a.a < b.a)

/-- The later of two stamps. -/
def stampMax (a b : Stamp) : Stamp := if stampLt a b then b else a

/-- The counter's overflow moves T on. -/
def clockSet (s : State) (t c : Nat) : State :=
  modFle s fun f => if 0xFFFF < c then { f with t := t + 1, c := 0 } else { f with t := t, c := c }

/-- A local event. -/
def clockLocal (s : State) : State :=
  let t := max s.fle.t (moduleTime s)
  clockSet s t (if t = s.fle.t then s.fle.c + 1 else 0)

/-- The receipt of a stamp. -/
def clockReceive (s : State) (tm cm : Nat) : State :=
  let t := max (max s.fle.t tm) (moduleTime s)
  clockSet s t
    (if t = s.fle.t ∧ t = tm then max s.fle.c cm + 1
     else if t = s.fle.t then s.fle.c + 1
     else if t = tm then cm + 1 else 0)

/-- The stamp of the latest local event. -/
def ownStamp (s : State) : Stamp := ⟨s.fle.t, s.fle.c, ownPitch s⟩

/-! ### Tiles (R292–R295) -/

/-- The TILE_ID of a tile's indices and kind. -/
def tileId (kind : Nat) (tx ty : Int) : Nat := ofSigned 16 tx + 2 ^ 16 * ofSigned 16 ty + 2 ^ 32 * kind

/-- Grid origin (R288). -/
def gridLat (s : State) : Int := toSigned 64 (rget64 s R.STO_ORIGIN_LAT_LO_VALUE R.STO_ORIGIN_LAT_HI_VALUE)
def gridLon (s : State) : Int := toSigned 64 (rget64 s R.STO_ORIGIN_LON_LO_VALUE R.STO_ORIGIN_LON_HI_VALUE)

/-- CELL_CM as taken. -/
def gridCell (s : State) : Nat := rval s R.STO_MAP_GRID_CELL_CM

/-- A tile created with all cells and versions zero (R297, R378). -/
def tileNew (s : State) (id : Nat) : Tile :=
  { id := id, cellCm := gridCell s, origin := rget s R.STO_ORIGIN_ID_VALUE, lat0 := gridLat s, lon0 := gridLon s,
    cells := [], vers := [] }

/-- A cell of a tile, and its version. -/
def tileCell (t : Tile) (i : Nat) : Nat := tblGetD t.cells i 0
def tileVer (t : Tile) (i : Nat) : Ver := tblGetD t.vers i ⟨Stamp.zero, false⟩

/-- Writes a cell; a cell of zero is not listed. -/
def tileSetCell (t : Tile) (i v : Nat) (ver : Ver) : Tile :=
  { t with cells := if v = 0 then tblErase t.cells i else tblSet t.cells i v, vers := tblSet t.vers i ver }

/-- The greatest version of a tile's plane: the clock and author of its header (R378). -/
def tileStamp (t : Tile) : Stamp := t.vers.foldl (fun a p => stampMax a p.2.stamp) Stamp.zero

/-- The first 0x38 bytes of a tile's header (R294). -/
def tileHead (t : Tile) : List Byte :=
  let st := tileStamp t
  leBytes 4 0x4C495451 ++ leBytes 4 (1 + 256 * tileKind t.id + 65536 * t.cellCm) ++ leBytes 4 (t.id % 2 ^ 32) ++
    leBytes 4 t.origin ++ leBytes 8 (ofSigned 64 t.lat0) ++ leBytes 8 (ofSigned 64 t.lon0) ++ leBytes 8 st.t ++
    leBytes 4 (st.c % 2 ^ 16 + 2 ^ 16 * st.a) ++ leBytes 4 t.cells.length ++ leBytes 8 0

/-- The bytes of a version entry (R378). -/
def verBytes (v : Ver) : List Byte :=
  leBytes 8 v.stamp.t ++ leBytes 2 v.stamp.c ++ leBytes 2 (v.stamp.a % 1024 + 32768 * b2n v.pub) ++ leBytes 4 0

/-- A byte of a cached tile beyond its header, by offset. -/
def tileByte (t : Tile) (off : Nat) : Byte :=
  let n := cellBytes (tileKind t.id)
  BitVec.ofNat 8 (tileCell t ((off - 0x40) / n) / 256 ^ ((off - 0x40) % n))

/-- Bytes of a whole tile (R293). -/
def tileSize (kind : Nat) : Nat := 0x40 + 16384 * cellBytes kind

/-- TILE_CRC: over the whole tile, taken with this field as zero (R294). -/
def tileCrc (t : Tile) : Nat :=
  crc32 ((tileHead t).map (·.toNat) ++ List.replicate 8 0 ++
    (List.range (16384 * cellBytes (tileKind t.id))).map fun k => (tileByte t (0x40 + k)).toNat)

/-- A byte of a whole tile, by offset. -/
def tileImageByte (t : Tile) (off : Nat) : Byte :=
  if off < 0x38 then (tileHead t).getD off 0
  else if off < 0x40 then (leBytes 8 (tileCrc t)).getD (off - 0x38) 0
  else tileByte t off

/-- Bytes of a version plane, and a byte of it (R378). -/
def planeSize : Nat := 0x40000
def verPlaneByte (t : Tile) (off : Nat) : Byte := (verBytes (tileVer t (off / 16))).getD (off % 16) 0

/-! ### The cache (R296–R298) -/

/-- Slots of the cache. -/
def cacheSlots : Nat := 4096

/-- The slot that holds a tile. -/
def cacheFind (s : State) (id : Nat) : Option (Nat × CacheSlot) := s.sto.cache.find? fun p => p.2.tile.id == id

/-- The slot counts as dirty: changed and not yet flushed. -/
def slotDirty (c : CacheSlot) : Bool := c.dirty.isSome || c.flushing.isSome

/-- STO_MAP_STAT. -/
def cacheActive (s : State) : Nat := s.sto.cache.length
def cacheDirty (s : State) : Nat := (s.sto.cache.filter fun p => slotDirty p.2).length

/-- Changes a slot. -/
def modSlot (s : State) (k : Nat) (f : CacheSlot → CacheSlot) : State :=
  match tblGet? s.sto.cache k with
  | some c => modSto s fun m => { m with cache := tblSet m.cache k (f c) }
  | none => s

/-- Notes a touch of a slot. -/
def touchSlot (s : State) (k : Nat) : State :=
  modSto (modSlot s k fun c => { c with touched := s.sto.touches + 1 }) fun m => { m with touches := m.touches + 1 }

/-- The descriptors with a store access: STORE_READ and STORE_WRITE (R300), and BLOCK and CLOSE of the update engine
(R434). -/
def storeOps (d : Desc) : Bool := (d.cls == 0xB && (d.op == 0x64 || d.op == 0x65)) || (d.cls == 9 && (d.op == 2 || d.op == 3))

/-- Those that are held and due, in order of fetch. -/
def storeHeld (s : State) : List Req :=
  (s.reqs.filter fun q => decide (q.stage = .held) && match q.desc with
    | some d => storeOps d && due s d
    | none => false).foldr insertReq []

/-- The CLOSE descriptors in progress. -/
def closings (s : State) : List Ref := s.upd.slots.filterMap fun p => p.2.closing

/-- Store traffic of a class is outstanding. -/
def storeHas (s : State) (c : Nat) : Bool :=
  match c with
  | 0 => rbit s R.AOC_PWR_STATE_BINDING && s.sto.cache.any fun p => p.2.flushing.isSome
  | 2 => !s.sto.jobs.isEmpty || !(closings s).isEmpty || !(storeHeld s).isEmpty
  | 3 => s.sto.cache.any fun p => p.2.flushing.isSome || p.2.loading
  | _ => false

/-- The class in service: the one begun while it lasts, else the first in the order of R303. One class is served at a time
(DESIGN CHOICE, log entry 149; unsafe). -/
def storeTurn (s : State) : Option Nat :=
  match s.sto.serving.filter (storeHas s) with
  | some c => some c
  | none => [0, 2, 3].find? (storeHas s)

/-- Traffic has been added: service begins where none was. -/
def storeServe (s : State) : State := modSto s fun m => { m with serving := storeTurn s }

/-- An access has ended: the next in the order of R303 begins. -/
def storeNext (s : State) : State := storeServe (modSto s fun m => { m with serving := none })

/-- A held descriptor with a store access is the next one to be served, in order of fetch (R303). -/
def storeFirst (s : State) (r : Ref) : Bool := (storeHeld s).head?.map Req.ref == some r

/-- The store serves descriptors, and none with an access of an earlier fetch is in progress. -/
def storeAlone (s : State) (r : Ref) : Bool :=
  storeTurn s == some 2 &&
    (s.sto.jobs.map StoreJob.ref ++ closings s).all fun x => x == r || decide (orderOf s r < orderOf s x)

/-- Begins the flush of a dirty slot (R298); none while the key of MAP is withheld (R425, R431). -/
def flushStart (s : State) (k : Nat) : State :=
  if keyWithheld s 4 then s
  else storeServe (modSlot s k fun c =>
    if c.flushing.isNone && c.dirty.isSome && !c.loading then { c with flushing := some c.tile, dirty := none } else c)

/-- A slot with the least of some measure among those that satisfy a condition. -/
def leastSlot (l : Tbl CacheSlot) (ok : Nat → CacheSlot → Bool) (key : CacheSlot → Nat) : Option Nat :=
  (l.foldl (fun (a : Option (Nat × Nat)) p =>
    if ok p.1 p.2 then
      match a with
      | some (_, v) => if key p.2 < v then some (p.1, key p.2) else a
      | none => some (p.1, key p.2)
    else a) none).map (·.1)

/-- A slot for a tile: a free one, or that of the clean tile least recently touched. `pin` names tiles to keep. -/
def slotFor (s : State) (pin : List Nat) : Option Nat :=
  if s.sto.cache.length < cacheSlots then
    (List.range cacheSlots).find? fun k => (tblGet? s.sto.cache k).isNone
  else leastSlot s.sto.cache (fun _ c => !slotDirty c && !c.loading && !pin.contains c.tile.id) (·.touched)

/-- With every tile dirty, the one longest dirty is flushed first; while a flush runs, that one is waited for. -/
def flushOldest (s : State) : State :=
  if s.sto.cache.any fun p => p.2.flushing.isSome then s
  else match leastSlot s.sto.cache (fun _ c => c.dirty.isSome && !c.loading) (fun c => c.dirty.getD 0) with
  | some k => flushStart s k
  | none => s

/-- Brings a tile into the cache (R297); the second part is its slot once it can be used. -/
def needTile (s : State) (id : Nat) (pin : List Nat) : State × Option Nat :=
  match cacheFind s id with
  | some (k, c) => if c.loading then (s, none) else (touchSlot s k, some k)
  | none =>
    match slotFor s pin with
    | none => (flushOldest s, none)
    | some k =>
      if (tblGet? s.sto.map id).isSome && keyWithheld s 4 then (s, none) else
      let put := fun (t : Tile) (l : Bool) (at_ : Tbl Nat) (last : Nat) => modSto s fun m => { m with
        cache := tblSet m.cache k ⟨t, l, none, none, m.touches + 1, at_, last⟩, touches := m.touches + 1 }
      match tblGet? s.sto.map id with
      | some t => (storeServe (put t.tile true t.pubAt t.pubLast), none)
      | none => (put (tileNew s id) false [] 0, some k)

/-- Brings several tiles in; the second part says that all can be used. -/
def needTiles (s : State) (ids : List Nat) : State × Bool :=
  ids.foldl (fun a id => let r := needTile a.1 id ids; (r.1, a.2 && r.2.isSome)) (s, true)

/-- Writes a cell of a cached tile; the tile is dirty from now on. -/
def writeCell (s : State) (id i v : Nat) (ver : Ver) : State :=
  match cacheFind s id with
  | some (k, _) => modSlot s k fun c => { c with
      tile := tileSetCell c.tile i v ver, dirty := some (c.dirty.getD s.now),
      pubAt := if ver.pub then tblSet c.pubAt i (tblGetD c.pubAt i s.now) else tblErase c.pubAt i,
      pubLast := if ver.pub then s.now else c.pubLast }
  | none => s

/-- The present bytes of a cell of a cached tile. -/
def readCell (s : State) (id i : Nat) : Nat :=
  match cacheFind s id with
  | some (_, c) => tileCell c.tile i
  | none => 0

/-! ### The cache as host memory shows it (R296, R378) -/

/-- Base addresses of the cache and of the version area. -/
def cacheBase (s : State) : Nat := rget s R.STO_CACHE_BASE_LO_ADDR_LO * 65536 + 2 ^ 32 * rget s R.STO_CACHE_BASE_HI_ADDR_HI
def fleStoreBase (s : State) : Nat := rget s R.FLE_STORE_BASE_LO_ADDR_LO * 65536 + 2 ^ 32 * rget s R.FLE_STORE_BASE_HI_ADDR_HI
def verBase (s : State) : Nat := rget s R.FLE_VER_BASE_LO_ADDR_LO * 65536 + 2 ^ 32 * rget s R.FLE_VER_BASE_HI_ADDR_HI

/-- The 16 bytes of a directory entry. -/
def dirBytes (c : Option CacheSlot) : List Byte :=
  match c with
  | some c => leBytes 8 c.tile.id ++ leBytes 1 (1 + 2 * b2n (slotDirty c) + 4 * b2n c.loading) ++ leBytes 7 0
  | none => leBytes 16 0

/-- The delta in an entry of the delta store: delta number `n` stands in entry `n` mod 65,536 (R382; DESIGN CHOICE, log
entry 185; unsafe). -/
def storedAt (s : State) (e : Nat) : Option Delta :=
  let first := s.fle.stored - s.fle.store.length
  s.fle.store[(e + 65536 - first % 65536) % 65536]?

/-- A byte of internal-host DRAM as the module leaves it: the cache and version areas, and what else it writes. -/
def dramByte (s : State) (a : Nat) : Byte :=
  let cb := cacheBase s
  let vb := verBase s
  let fb := fleStoreBase s
  if cb ≠ 0 ∧ cb ≤ a ∧ a < cb + 0x10000 then (dirBytes (tblGet? s.sto.cache ((a - cb) / 16))).getD ((a - cb) % 16) 0
  else if cb ≠ 0 ∧ cb + 0x10000 ≤ a ∧ a < cb + 0x41010000 then
    match tblGet? s.sto.cache ((a - cb - 0x10000) / 0x41000) with
    | some c =>
      tileImageByte c.tile ((a - cb - 0x10000) % 0x41000)
    | none => 0
  else if vb ≠ 0 ∧ vb ≤ a ∧ a < vb + 0x40000000 then
    match tblGet? s.sto.cache ((a - vb) / 0x40000) with
    | some c => verPlaneByte c.tile ((a - vb) % planeSize)
    | none => 0
  else if fb ≠ 0 ∧ fb ≤ a ∧ a < fb + 0x8000000 then
    match storedAt s ((a - fb) / 2048) with
    | some d => BitVec.ofNat 8 (Config.storeEntry d ((a - fb) % 2048))
    | none => 0
  else Memory.read s.mem a

/-- An address of these areas. -/
def inAreas (s : State) (a : Nat) : Bool :=
  let within := fun (b n : Nat) => b != 0 && decide (b ≤ a ∧ a < b + n)
  within (cacheBase s) 0x41010000 || within (verBase s) 0x40000000 || within (fleStoreBase s) 0x8000000

/-- The bytes of these areas that are not all zero, by address. -/
def areaBytes (s : State) : List (Nat × List Byte) :=
  let cb := cacheBase s
  let vb := verBase s
  let fb := fleStoreBase s
  let cells := fun (k : Nat) (t : Tile) =>
    let n := cellBytes (tileKind t.id)
    t.cells.map fun c => (cb + 0x10040 + 0x41000 * k + n * c.1, leBytes n c.2)
  (if cb = 0 then [] else s.sto.cache.flatMap fun p =>
    (cb + 16 * p.1, dirBytes (some p.2)) ::
      (cb + 0x10000 + 0x41000 * p.1, (List.range 0x40).map (tileImageByte p.2.tile)) :: cells p.1 p.2.tile) ++
  (if vb = 0 then [] else s.sto.cache.flatMap fun p =>
    p.2.tile.vers.map fun v => (vb + planeSize * p.1 + 16 * v.1, verBytes v.2)) ++
  if fb = 0 then [] else (List.range s.fle.store.length).filterMap fun i =>
    let e := (s.fle.stored - s.fle.store.length + i) % 65536
    (storedAt s e).map fun d => (fb + 2048 * e, (List.range 2048).map fun k => BitVec.ofNat 8 (Config.storeEntry d k))

/-- DRAM as a fabric or warm reset leaves it: what these areas show stays there (R430). -/
def settleDram (s : State) : State :=
  if cacheBase s = 0 ∧ verBase s = 0 ∧ fleStoreBase s = 0 then s
  else { s with mem := (areaBytes s).foldl (fun m x => Memory.writeList m x.1 x.2) (s.mem.filter fun p => !inAreas s p.1) }

end Sys2Proof.Machine
end

