-- ==== Sys2Proof/Machine/Fleet.lean ====
section
/-! DEFINITION. The fleet market (R368–R392): sessions, members with their strikes and budgets, deltas and their merge,
publication, status, and the fleet publish descriptors. Whether a signature or a certificate chain verifies arrives
with the message; what follows from it is here. Messages as bytes stand in `Wire.lean`. -/

namespace Sys2Proof.Machine

/-! ### Members and credentials (R368–R370, R383) -/

/-- Tokens of a full budget, in tokens times the fc of a second. -/
def budgetFull : Nat := 200 * fcSec

/-- A pitch of which nothing is known. -/
def Member.unknown : Member :=
  { cert := none, known := false, evicted := false, evictSerial := 0, evictTime := 0, evictAt := 0, strikes := 0, level := budgetFull,
    levelAt := 0, timeState := 0, lastStatus := none, offset := 0, best := Stamp.zero }

def getMember (s : State) (p : Nat) : Member := tblGetD s.fle.members p Member.unknown
def modMember (s : State) (p : Nat) (f : Member → Member) : State :=
  modFle s fun m => { m with members := tblSet m.members p (f (getMember s p)) }

/-- The first check of R369 that a certificate fails; one above 1,024 bytes fails the first (DEDUCED, log entry 183;
safe). -/
def certError (s : State) (c : Cert) : Option Nat :=
  let t := moduleTime s
  if !c.chains || !c.sizeOk then some 0
  else if t < c.notBefore ∨ c.notAfter < t then some 1
  else if c.name.isNone ∨ c.market ≠ ownMarket s then some 2
  else if !c.usage then some 3 else none

/-- The KSM holds valid credentials, usable in this life-cycle state (R370, R425). -/
def credsValid (s : State) : Bool :=
  decide (1 ≤ lcState s ∧ lcState s ≤ 3) && s.ksm.root && match s.ksm.memberCert with
    | some c => (certError s c).isNone
    | none => false

/-- Budget level of a member now (R383). -/
def levelNow (s : State) (m : Member) : Nat := min budgetFull (m.level + 200 * (s.now - m.levelAt))

/-- FLE_MEMBER.TOKENS: a pitch of which the module holds no record shows none. -/
def tokensNow (s : State) (p : Nat) : Nat :=
  match tblGet? s.fle.members p with
  | some m => levelNow s m / fcSec
  | none => 0

/-- Takes a budget token of an author, if there is one. -/
def takeToken (s : State) (p : Nat) : Option State :=
  let m := getMember s p
  if fcSec ≤ levelNow s m then some (modMember s p fun m => { m with level := levelNow s m - fcSec, levelAt := s.now })
  else none

/-! ### Sessions (R372) -/

/-- An empty session slot. -/
def Session.empty : Session :=
  { addr := [], port := 0, pitch := 0, ref := none, setAt := 0, isOpen := false, absent := false, closedAt := 0,
    trying := false, txAt := 0, rxAt := 0, expires := 0, queue := [], owed := [], behind := false, rateFrom := 0,
    rateCount := 0 }

def modSession (s : State) (k : Nat) (f : Session → Session) : State :=
  match tblGet? s.fle.sessions k with
  | some c => modFle s fun m => { m with sessions := tblSet m.sessions k (f c) }
  | none => s

/-- The session of a slot, while it is open. -/
def openSession (s : State) (k : Nat) : Option Session :=
  match tblGet? s.fle.sessions k with
  | some c => if c.isOpen then some c else none
  | none => none

/-- An eviction keeps the slot closed (R385). -/
def slotHeld (s : State) (k : Nat) : Bool :=
  match tblGet? s.fle.held k with
  | some t => decide (s.now < t)
  | none => false

/-- Slots with an open session. -/
def openSlots (s : State) : List Nat := (s.fle.sessions.filter fun p => p.2.isOpen).map (·.1)

/-- Queues a message on a session; a full queue is emptied and the session marked BEHIND (R382). -/
def sendTo (s : State) (k : Nat) (m : FleMsg) : State :=
  match openSession s k with
  | none => s
  | some c =>
    if c.queue.length < 512 then modSession s k fun c => { c with queue := c.queue ++ [m] }
    else
      let told := match tblGet? s.fle.behindTold k with
        | some a => decide (s.now < a + 60 * fcSec)
        | none => false
      let s1 := rinc s R.FLE_STRIKES_BEHIND_COUNT
      let s2 := modSession s1 k fun c => { c with queue := [], owed := [], behind := true }
      if told then s2
      else raiseEv (modFle s2 fun f => { f with behindTold := tblSet f.behindTold k s.now }) evFleBehind

/-- Queues a message on every open session but one. -/
def sendAll (s : State) (m : FleMsg) (but : Option Nat) : State :=
  (openSlots s).foldl (fun s k => if but = some k then s else sendTo s k m) s

/-- Ends a session. -/
def closeSession (s : State) (k : Nat) (bye : Bool) : State :=
  rsetBitAt (modSession s k fun c => { c with
    isOpen := false, trying := false, closedAt := s.now, queue := if bye && c.isOpen then [.bye] else [], owed := []
    behind := false })
    R.FLE_SESSIONS_UP k false

/-- A session that is closed and marked ABSENT. -/
def absentSession (s : State) (k : Nat) : State :=
  raiseEv (modSession (closeSession s k false) k fun c => { c with absent := true }) evFlePeerAbsent

/-- The greatest stamp applied from each of `n` pitches on from `lo`, zero where none has been (R382). -/
def figuresOf (s : State) (lo n : Nat) : List Stamp :=
  (List.range n).map fun i => { (getMember s (lo + i)).best with a := lo + i }

/-- The start-of-session exchange: for every pitch the greatest stamp applied, in SUMMARY messages of at most 99 figures,
which twelve bytes each keep below 1,200 (R371, R382; DESIGN CHOICE, log entry 184; unsafe). -/
def startExchange (s : State) (k : Nat) : State :=
  (List.range 11).foldl (fun s i => sendTo s k (.summary (figuresOf s (99 * i) (min 99 (1024 - 99 * i))))) s

/-- A session has taken the messages of its second (R374). -/
def Session.overRate (c : Session) (now : Nat) : Bool := decide (400 ≤ c.rateCount ∧ now < c.rateFrom + fcSec)

/-- A session after a message received at `now`: the first of a second begins its count (R374). -/
def Session.received (c : Session) (now : Nat) : Session :=
  if c.rateFrom + fcSec ≤ now ∨ c.rateCount = 0 then { c with rxAt := now, rateFrom := now, rateCount := 1 }
  else { c with rxAt := now, rateCount := c.rateCount + 1 }

/-- A message received on a session: beyond the session's rate it is discarded (R374), and so is one that was on its way when
its sender was evicted (R389); else `f` acts on it. -/
def onSession (s : State) (k : Nat) (f : Session → State → State) : State :=
  match openSession s k with
  | none => if slotHeld s k then rinc s R.FLE_DROPS_B_UNKNOWN_DROPS else s
  | some c =>
    if c.overRate s.now then rinc s R.FLE_STRIKES_RATE_DROPS
    else f c (modSession s k fun c => c.received s.now)

/-! ### Strikes and eviction (R384, R385) -/

/-- Evicts a pitch: its sessions are closed with BYE, and its slots stay closed for EVICT_HOLD_S. -/
def evict (s : State) (p : Nat) : State :=
  let s1 := modMember s p fun m => { m with
    evicted := true, evictAt := s.now, evictTime := moduleTime s, evictSerial := match m.cert with
      | some c => c.serial
      | none => 0 }
  let hold := s.now + rget s R.FLE_TIMERS_EVICT_HOLD_S * fcSec
  let s2 := (s.fle.sessions.filter fun q => q.2.pitch == p).foldl (fun s q =>
    modFle (closeSession s q.1 q.2.isOpen) fun f => { f with held := tblSet f.held q.1 hold }) s1
  raiseEv s2 evFleEvict

/-- A strike against a pitch. -/
def strike (s : State) (p : Nat) : State :=
  let s1 := rinc (modMember s p fun m => { m with strikes := m.strikes + 1 }) R.FLE_STRIKES_STRIKES
  let m := getMember s1 p
  if !m.evicted && decide (rval s R.FLE_LIMITS_STRIKE_MAX ≤ m.strikes) then evict s1 p else s1

/-- An evicted pitch returns to the known state. -/
def rejoin (s : State) (p : Nat) : State :=
  raiseEv (modMember s p fun m => { m with evicted := false, known := true, strikes := 0 }) evFleRejoin

/-! ### Checks of DELTA and STATUS (R374) -/

/-- Checks 2 to 6 of R374; the second part says that all passed. -/
def authorCheck (s : State) (peer k author market time : Nat) (sig : Bool) : State × Bool :=
  let m := getMember s author
  if market ≠ ownMarket s then (strike s peer, false)
  else if m.evicted then (rinc s R.FLE_DROPS_B_UNKNOWN_DROPS, false)
  else if m.cert.isNone && author != ownPitch s then
    (sendTo (rinc s R.FLE_DROPS_B_UNKNOWN_DROPS) k (.certReq author), false)
  else if !sig then (strike s peer, false)
  else match takeToken s author with
    | none => (rinc s R.FLE_DROPS_A_BUDGET_DROPS, false)
    | some s1 =>
      if moduleTime s + rval s R.FLE_LIMITS_SKEW_MS * 1000000 < time then
        (strike (rinc s1 R.FLE_DROPS_A_SKEW_DROPS) author, false)
      else (s1, true)

/-! ### Deltas (R380–R382) -/

/-- Tiles of this kind are shared (R377). -/
def kindShared (s : State) (kind : Nat) : Bool := bitOf (rget s R.FLE_CTRL_SHARE_KINDS) (kind - 1)

/-- The present version of a cell: that of the cache, else that of the stored tile. -/
def cellVer (s : State) (id i : Nat) : Ver :=
  match cacheFind s id, tblGet? s.sto.map id with
  | some (_, c), _ => if c.loading then tileVer (((tblGet? s.sto.map id).map (·.tile)).getD c.tile) i else tileVer c.tile i
  | none, some t => tileVer t.tile i
  | none, none => ⟨Stamp.zero, false⟩

/-- PUBLISH_NOW descriptors complete once none of their cells has PUB set (R387). -/
def pubNowDone (s : State) : State :=
  let waits := fun (c : Nat × Nat) => (cellVer s c.1 c.2).pub
  let left := s.fle.pubNow.map fun p => (p.1, p.2.filter waits)
  let s1 := modFle s fun f => { f with pubNow := left.filter fun p => !p.2.isEmpty }
  (left.filter fun p => p.2.isEmpty).foldl (fun s p => complete s p.1 stDone) s1

/-- A delta enters the delta store, which keeps the latest 65,536. -/
def storeDelta (s : State) (d : Delta) : State :=
  let s1 := modFle s fun f => { f with
    store := (f.store ++ [d]).drop (f.store.length + 1 - 65536), stored := f.stored + 1 }
  modMember s1 d.author fun m => { m with best := stampMax m.best ⟨d.t, d.c, d.author⟩ }

/-- Merges a delta into its tile in the cache: entries later than their cell's version apply (R381). The second part
counts them. -/
def mergeCells (s : State) (d : Delta) : State × Nat :=
  d.cells.foldl (fun a e =>
    match cacheFind a.1 d.tile with
    | some (_, c) =>
      let st : Stamp := ⟨d.t, d.c, d.author⟩
      if stampLt (tileVer c.tile e.1).stamp st then (writeCell a.1 d.tile e.1 e.2 ⟨st, false⟩, a.2 + 1) else a
    | none => a) (s, 0)

/-- Applies a delta once its tile can be used; with a cell applied it is stored and forwarded. -/
def applyDelta (s : State) (k : Nat) (d : Delta) : State :=
  let r := needTile s d.tile [d.tile]
  match r.2 with
  | none => modSto r.1 fun m => { m with waits := m.waits ++ [.delta k d] }
  | some _ =>
    let m := mergeCells r.1 d
    if m.2 = 0 then m.1
    else pubNowDone (sendAll (storeDelta (rinc m.1 R.FLE_COUNTS_APPLIED) d) (.delta d) (some k))

/-- DELTA_RX: `raw` is the message, `sig` says that its signature verifies. -/
def deltaRx (s : State) (k : Nat) (raw : List Nat) (sig : Bool) : State :=
  onSession s k fun p s =>
    match parseDelta raw with
    | none => strike s p.pitch
    | some d =>
      let a := authorCheck s p.pitch k d.author d.market d.t sig
      if !a.2 then a.1
      else
        let s1 := clockReceive a.1 d.t d.c
        if d.origin ≠ rget s R.STO_ORIGIN_ID_VALUE ∨ d.cellCm ≠ gridCell s ∨ !kindShared s (tileKind d.tile) then
          rinc s1 R.FLE_DROPS_B_UNSHARED_DROPS
        else applyDelta s1 k d

/-! ### Publication (R379, R383) -/

/-- Cells of a tile with PUB set, in ascending order. -/
def pubCells (t : Tile) : List Nat := (t.vers.filter fun p => p.2.pub).map (·.1)

/-- PUB_QUIET_MS and PUB_MAX_MS in fc. -/
def pubQuiet (s : State) : Nat := rval s R.FLE_PUB_PUB_QUIET_MS * fcMs
def pubMax (s : State) : Nat := max (rget s R.FLE_PUB_PUB_MAX_MS * fcMs) (pubQuiet s)

/-- A cached tile is due for publication. -/
def pubDue (s : State) (c : CacheSlot) : Bool :=
  rbit s R.FLE_CTRL_EN && rbit s R.FLE_CTRL_PUB_EN && kindShared s (tileKind c.tile.id) && !c.loading &&
    (decide (c.pubLast + pubQuiet s ≤ s.now) || (c.pubAt.any fun x => decide (x.2 + pubMax s ≤ s.now)) || s.fle.pubNow.any fun p => p.2.any fun q => q.1 == c.tile.id)

/-- Puts up to a delta's worth of PUB cells into one delta. -/
def publishOne (s : State) (t : Tile) (idx : List Nat) : State :=
  let s1 := clockLocal s
  let st := ownStamp s1
  let bare : Delta := ⟨st.a, ownMarket s, t.id, st.t, st.c, rget s R.STO_ORIGIN_ID_VALUE, gridCell s,
    idx.map fun i => (i, tileCell t i), []⟩
  let d : Delta := { bare with sig := ownSignature (deltaBody bare) }
  let s2 := idx.foldl (fun s i => writeCell s t.id i (tileCell t i) ⟨st, false⟩) s1
  sendAll (storeDelta (rinc s2 R.FLE_COUNTS_PUBLISHED) d) (.delta d) none

/-- Publishes a tile delta by delta while tokens last. -/
def publishTile : Nat → State → Tile → List Nat → State
  | 0, s, _, _ => s
  | fuel + 1, s, t, idx =>
    if idx.isEmpty then s
    else match takeToken s (ownPitch s) with
      | none => s
      | some s1 =>
        let n := deltaMax (tileKind t.id)
        publishTile fuel (publishOne s1 t (idx.take n)) t (idx.drop n)

/-- PUB_DUE of a cache slot. -/
def pubTile (s : State) (k : Nat) : State :=
  match tblGet? s.sto.cache k with
  | none => s
  | some c =>
    let idx := pubCells c.tile
    if idx.isEmpty || !pubDue s c then s
    else
      let s1 := publishTile 300 s c.tile idx
      pubNowDone s1

/-! ### Other messages -/

/-- Deltas in stamp order. -/
def insertDelta (d : Delta) : List Delta → List Delta
  | [] => [d]
  | e :: t => if stampLt ⟨d.t, d.c, d.author⟩ ⟨e.t, e.c, e.author⟩ then d :: e :: t else e :: insertDelta d t

/-- The store still holds the delta that a cell's version comes from. -/
def storeHolds (s : State) (tile i : Nat) (v : Stamp) : Bool :=
  s.fle.store.any fun d => d.author == v.a && d.tile == tile && d.t == v.t && d.c == v.c && d.cells.any fun e => e.1 == i

/-- Own cells of a tile that a peer with this figure lacks and the store no longer holds. -/
def lackedCells (s : State) (fig : Stamp) (t : Tile) : List (Nat × Ver) :=
  if kindShared s (tileKind t.id) then
    t.vers.filter fun v => v.2.stamp.a == ownPitch s && v.2.stamp.t != 0 && !v.2.pub && stampLt fig v.2.stamp &&
      !storeHolds s t.id v.1 v.2.stamp
  else []

/-- Such cells of a cached tile are marked for publication at once. -/
def remarkSlot (s : State) (fig : Stamp) (k : Nat) (c : CacheSlot) : State :=
  let lacks := lackedCells s fig c.tile
  if lacks.isEmpty || c.loading then s
  else modSlot s k fun c => { c with
    tile := { c.tile with vers := lacks.foldl (fun t v => tblSet t v.1 { v.2 with pub := true }) c.tile.vers },
    pubAt := lacks.foldl (fun t v => tblSet t v.1 0) c.pubAt, pubLast := 0, dirty := some (c.dirty.getD s.now) }

/-- Brings a tile in whose cells are to be published; with no figure they have PUB set already. -/
def pullTile (s : State) (id : Nat) (fig : Option Stamp) : State :=
  let n := needTile s id [id]
  match n.2, fig with
  | none, _ => modSto n.1 fun m => { m with waits := m.waits ++ [.pull id fig] }
  | some k, some f =>
    match tblGet? n.1.sto.cache k with
    | some c => remarkSlot n.1 f k c
    | none => n.1
  | some _, none => n.1

/-- Stored tiles that the cache does not hold. -/
def awayTiles (s : State) : List Tile :=
  (s.sto.map.filter fun p => (cacheFind s p.1).isNone || (s.sto.cache.any fun c => c.2.tile.id == p.1 && c.2.loading)).map
    fun p => p.2.tile

/-- Own cells that a peer lacks and the store no longer holds are marked for publication at once; a tile outside the cache is
brought in for it (R382). -/
def remark (s : State) (fig : Stamp) : State :=
  let away := (awayTiles s).filter fun t => !(lackedCells s fig t).isEmpty
  let s1 := s.sto.cache.foldl (fun s p => remarkSlot s fig p.1 p.2) s
  away.foldl (fun s t => pullTile s t.id (some fig)) s1

/-- SUMMARY_RX: the peer is owed every stored delta later than its figure for the author, for the authors that this message
lists; then own cells that the store no longer holds (R382). -/
def summaryRx (s : State) (k : Nat) (figs : List Stamp) : State :=
  onSession s k fun _ s =>
    let lacks := s.fle.store.filter fun d => figs.any fun f => f.a == d.author && stampLt f ⟨d.t, d.c, d.author⟩
    let s1 := modSession s k fun c => { c with owed := lacks.foldr insertDelta c.owed }
    match figs.find? fun f => f.a == ownPitch s with
    | some f => remark s1 f
    | none => s1

/-- ANNOUNCE_RX (R373, R384, R385). -/
def announceRx (s : State) (k : Nat) (c : Cert) : State :=
  onSession s k fun p s =>
    if (certError s c).isSome then strike s p.pitch
    else
      let m := getMember s c.pitch
      if m.evicted then
        if c.serial ≠ m.evictSerial ∧ m.evictTime < c.notBefore then
          rejoin (modMember s c.pitch fun m => { m with cert := some c }) c.pitch
        else s
      else
        let s1 := modMember s c.pitch fun m => { m with cert := some c }
        if m.cert.isNone then sendAll s1 (.announce c) (some k) else s1

/-- The 512 bytes of a STATUS entry (R386). -/
def statusBytes (rx : Nat) (m : StatusMsg) (ph : Nat) : List Byte :=
  leBytes 8 rx ++ leBytes 4 (m.author % 1024 + 2 ^ 31 * ph) ++ leBytes 4 0 ++
    (((m.raw.drop 8).take 16 ++ m.payload).map (BitVec.ofNat 8)) ++ List.replicate (480 - m.payload.length) 0

/-- An accepted STATUS: the figures of its author, its entry in FLE_RXQ, and its forwarding. -/
def statusTake (s : State) (k : Nat) (m : StatusMsg) : State :=
  let rx := moduleTime s
  let s1 := modMember s m.author fun x => { x with
    lastStatus := some m.time, timeState := m.timeState, offset := (rx : Int) - m.time }
  let s2 := if queueRoom s1 queueFle 0 0 then queuePut s1 queueFle 0 0 512 (statusBytes rx m) else s1
  sendAll s2 (.status m) (some k)

/-- STATUS_RX. -/
def statusRx (s : State) (k : Nat) (raw : List Nat) (sig : Bool) : State :=
  onSession s k fun p s =>
    match parseStatus raw with
    | none => strike s p.pitch
    | some m =>
      let a := authorCheck s p.pitch k m.author m.market m.time sig
      let old := match (getMember a.1 m.author).lastStatus with
        | some t => decide (m.time ≤ t)
        | none => false
      if !a.2 || old then a.1 else statusTake a.1 k m

/-! ### Sessions: opening, closing, timers (R372, R385) -/

/-- An attempt to open a session fails; the slot is tried again RETRY_S later. -/
def tryFailed (s : State) (k : Nat) : State := modSession s k fun c => { c with trying := false, closedAt := s.now }

/-- An evicted pitch is within its EVICT_HOLD_S. -/
def inHold (s : State) (p : Nat) : Bool :=
  let m := getMember s p
  m.evicted && decide (s.now < m.evictAt + rget s R.FLE_TIMERS_EVICT_HOLD_S * fcSec)

/-- A full handshake has succeeded: the session opens, and the exchange of its start begins. -/
def sessionOpen (s : State) (k : Nat) (c : Session) (x : Cert) : State :=
  let s1 := modMember s x.pitch fun m => { m with cert := some x }
  let s2 := if (getMember s x.pitch).evicted then rejoin s1 x.pitch else s1
  let s3 := modSession s2 k fun c => { c with
    isOpen := true, absent := false, trying := false, txAt := s.now, rxAt := s.now, expires := x.notAfter,
    queue := [], owed := [], behind := false, ref := none, rateCount := 0 }
  startExchange (completeOpt (rsetBitAt s3 R.FLE_SESSIONS_UP k true) c.ref stDone) k

/-- SESSION_HANDSHAKE with the peer's certificate, or with none where the handshake does not come to it. A slot is opened
while the engine tries it; an evicted pitch in its hold is refused on any (R372, R385). -/
def handshake (s : State) (k : Nat) (cert : Option Cert) : State :=
  match tblGet? s.fle.sessions k with
  | none => s
  | some c =>
    if c.isOpen || !rbit s R.FLE_CTRL_EN then s
    else match cert with
      | none => if c.trying then tryFailed s k else s
      | some x =>
        let bad := (certError s x).or (if x.pitch = c.pitch then none else some 4)
        if bad.isNone && inHold s x.pitch then raiseEv (tryFailed s k) evFleAuthFail
        else if !c.trying || slotHeld s k then s
        else match bad with
        | some n =>
          let s1 := completeOpt (modSession (tryFailed s k) k fun c => { c with ref := none }) c.ref stRejectAuth (0x04E0 + n)
          if n = 4 then raiseEv s1 evFleAuthFail else s1
        | none => sessionOpen s k c x

/-- SESSION_RETRY: RETRY_S after a failure or closure the engine opens the slot again. -/
def sessionRetry (s : State) (k : Nat) : State :=
  modSession s k fun c =>
    if rbit s R.FLE_CTRL_EN && !c.isOpen && !slotHeld s k && decide (c.closedAt + rval s R.FLE_TIMERS_RETRY_S * fcSec ≤ s.now) then
      { c with trying := true } else c

/-- KEEPALIVE_DUE: nothing has been sent for 5 s. -/
def keepaliveDue (s : State) (k : Nat) : State :=
  match openSession s k with
  | some c => if c.txAt + 5 * fcSec ≤ s.now ∧ !c.queue.contains .keepalive then sendTo s k .keepalive else s
  | none => s

/-- PEER_TIMEOUT. -/
def peerTimeout (s : State) (k : Nat) : State :=
  match openSession s k with
  | some c => if c.rxAt + rval s R.FLE_TIMERS_PEER_TIMEOUT_S * fcSec ≤ s.now then absentSession s k else s
  | none => s

/-- CERT_EXPIRY. -/
def certExpiry (s : State) (k : Nat) : State :=
  match openSession s k with
  | some c => if c.expires < moduleTime s then absentSession s k else s
  | none => s

/-- EVICT_HOLD_EXPIRY. -/
def evictHoldEnd (s : State) (k : Nat) : State :=
  match tblGet? s.fle.held k with
  | some t => if t ≤ s.now then modFle s fun f => { f with held := tblErase f.held k } else s
  | none => s

/-- STRIKE_DECAY: every strike count falls by one. -/
def strikeDecay (s : State) : State :=
  if s.fle.decayAt + rval s R.FLE_LIMITS_STRIKE_DECAY_S * fcSec ≤ s.now then
    modFle s fun f => { f with
      decayAt := s.now,
      members := f.members.map fun p => (p.1, { p.2 with strikes := p.2.strikes - 1 }) }
  else s

/-- BEHIND_CATCH_UP: a session marked BEHIND is idle. -/
def catchUp (s : State) (k : Nat) : State :=
  match openSession s k with
  | some c => if c.behind && c.queue.isEmpty && c.owed.isEmpty then startExchange (modSession s k fun c => { c with behind := false }) k else s
  | none => s

/-- A peer closes its session with BYE. -/
def byeRx (s : State) (k : Nat) : State :=
  onSession s k fun _ s => closeSession s k false

/-- The certificate of a pitch, if the module has it. -/
def certOf (s : State) (pitch : Nat) : Option Cert :=
  if pitch = ownPitch s then s.ksm.memberCert else (getMember s pitch).cert

/-- CERT_REQ_RX: the certificate of the pitch that the message names is sent. -/
def certReqRx (s : State) (k : Nat) (raw : List Nat) : State :=
  onSession s k fun _ s =>
    match (parseCertReq raw).bind (certOf s) with
    | some c => sendTo s k (.announce c)
    | none => s

/-! ### Enabling (R370) -/

/-- The first condition of R370 that fails, as ERR. -/
def fleError (s : State) : Nat :=
  if rget s R.NAV_STATE_TIME_STATE = 0 then 1
  else if !credsValid s then 2
  else if verBase s = 0 ∨ cacheBase s = 0 ∨
      (rget s R.FLE_STORE_BASE_LO_ADDR_LO = 0 ∧ rget s R.FLE_STORE_BASE_HI_ADDR_HI = 0) then 3
  else if !rbit s R.ETH_CTRL_EN (rget s R.FLE_CTRL_PORT) then 4 else 0

/-- FLE_ENABLE. -/
def fleEnable (s : State) : State :=
  if rbit s R.FLE_CTRL_EN then s
  else
    let e := fleError s
    let s1 := rset s R.FLE_CTRL_ERR e
    if e = 0 then rset s1 R.FLE_CTRL_EN 1 else s1

/-- FLE_DISABLE, and step 5 of bind-off (R416): every session is closed with BYE. -/
def fleClose (s : State) : State := (openSlots s).foldl (fun s k => closeSession s k true) s

def fleDisable (s : State) : State := rset (fleClose s) R.FLE_CTRL_EN 0

/-! ### Descriptors (R387, R388) -/

/-- PEER_SET. -/
def peerSet (s : State) (r : Ref) (d : Desc) : State :=
  let k := d.classWord % 32
  let old := match tblGet? s.fle.sessions k with
    | some c => c.ref
    | none => none
  let addr := (List.range 4).map fun w => d.word (0x10 + 4 * w)
  let port := d.word 0x20 % 65536
  let clear := bitOf d.classWord 31
  if !clear && (addr.all (· == 0) || port == 0) then complete s r stRejectFormat 0x01E0
  else if !rbit s R.FLE_CTRL_EN then complete s r stRejectState 0x02E0
  else
    let s1 := completeOpt (closeSession s k true) old stPartnerAbsent
    if clear then complete (modFle s1 fun f => { f with sessions := tblErase f.sessions k }) r stDone
    else
      let c : Session := { Session.empty with
        addr := addr, port := port, pitch := bitField (d.word 0x20) 16 10, ref := some r, setAt := s.now, closedAt := s.now, trying := true }
      modFle s1 fun f => { f with sessions := tblSet f.sessions k c }

/-- PEER_SET_TIMEOUT. -/
def peerSetTimeout (s : State) (k : Nat) : State :=
  match tblGet? s.fle.sessions k with
  | some c =>
    if c.setAt + 10 * fcSec ≤ s.now ∧ c.ref.isSome then
      completeOpt (modSession s k fun c => { c with ref := none }) c.ref stPartnerAbsent
    else s
  | none => s

/-- STATUS_PUBLISH; `data` is the payload read from host memory. -/
def statusPublish (s : State) (r : Ref) (d : Desc) (data : List Nat) : State :=
  let len := d.word 0x18 % 512
  let soon := match s.fle.statusAt with
    | some a => decide (s.now < a + 100 * fcMs)
    | none => false
  if 256 < len then complete s r stRejectFormat 0x01E0
  else if !rbit s R.FLE_CTRL_EN then complete s r stRejectState 0x02E0
  else if soon then complete s r stRejectBudget 0x03E0
  else
    let m := ownStatus (ownPitch s) (ownMarket s) (moduleTime s) (rget s R.NAV_STATE_TIME_STATE) (data.take len)
    complete (sendAll (modFle s fun f => { f with statusAt := some s.now }) (.status m) none) r stDone

/-- MEMBER_EVICT. -/
def memberEvict (s : State) (r : Ref) (d : Desc) : State :=
  let p := d.classWord % 65536
  if 1023 < p then complete s r stRejectFormat 0x01E0
  else if !rbit s R.FLE_CTRL_EN then complete s r stRejectState 0x02E0
  else if p = ownPitch s then complete s r stRejectState 0x02E1
  else if bitOf d.classWord 16 then
    complete (if (getMember s p).evicted then rejoin s p else modMember s p fun m => { m with strikes := 0 }) r stDone
  else complete (if (getMember s p).evicted then s else evict s p) r stDone

/-- The cells with PUB set of a tile of a shared kind. -/
def sharedPubs (s : State) (t : Tile) : List (Nat × Nat) :=
  if kindShared s (tileKind t.id) then (pubCells t).map fun i => (t.id, i) else []

/-- PUBLISH_NOW: every cell with PUB set, in the cache or in the store, whose tile is brought in. -/
def publishNow (s : State) (r : Ref) : State :=
  if !rbit s R.FLE_CTRL_EN then complete s r stRejectState 0x02E0
  else
    let away := (awayTiles s).filter fun t => !(sharedPubs s t).isEmpty
    let here := (s.sto.cache.filter fun p => !p.2.loading).map fun p => p.2.tile
    let s1 := pubNowDone (modFle s fun f => { f with pubNow := f.pubNow ++ [(r, (here ++ away).flatMap (sharedPubs s))] })
    away.foldl (fun s t => pullTile s t.id none) s1

/-! ### Commands -/

/-- FLE_ENABLE. -/
def execFleEnable (t : Fc) (s : State) : Out := atFabric t fleEnable s

/-- FLE_DISABLE. -/
def execFleDisable (t : Fc) (s : State) : Out := atFabric t fleDisable s

/-- PEER_SET. -/
def execPeerSet (t : Fc) (r : Ref) (s : State) : Out := atFabric t (fun s => withDesc r 7 1 (fun d s => peerSet s r d) s) s

/-- PEER_SET_TIMEOUT. -/
def execPeerSetTimeout (t : Fc) (slot : Fin 32) (s : State) : Out := atFabric t (fun s => peerSetTimeout s slot) s

/-- SESSION_HANDSHAKE. -/
def execSessionHandshake (t : Fc) (slot : Fin 32) (cert : Option Cert) (s : State) : Out :=
  atFabric t (fun s => handshake s slot cert) s

/-- SESSION_RETRY. -/
def execSessionRetry (t : Fc) (slot : Fin 32) (s : State) : Out := atFabric t (fun s => sessionRetry s slot) s

/-- KEEPALIVE_DUE. -/
def execKeepaliveDue (t : Fc) (slot : Fin 32) (s : State) : Out := atFabric t (fun s => keepaliveDue s slot) s

/-- PEER_TIMEOUT. -/
def execPeerTimeout (t : Fc) (slot : Fin 32) (s : State) : Out := atFabric t (fun s => peerTimeout s slot) s

/-- CERT_EXPIRY. -/
def execCertExpiry (t : Fc) (slot : Fin 32) (s : State) : Out := atFabric t (fun s => certExpiry s slot) s

/-- DELTA_RX; a record that its session's keys do not authenticate is no message. -/
def execDeltaRx (t : Fc) (slot : Fin 32) (raw : List Nat) (rec sig : Bool) (s : State) : Out :=
  atFabric t (fun s => if rec then deltaRx s slot raw sig else s) s

/-- ANNOUNCE_RX. -/
def execAnnounceRx (t : Fc) (slot : Fin 32) (c : Cert) (s : State) : Out := atFabric t (fun s => announceRx s slot c) s

/-- STATUS_RX. -/
def execStatusRx (t : Fc) (slot : Fin 32) (raw : List Nat) (rec sig : Bool) (s : State) : Out :=
  atFabric t (fun s => if rec then statusRx s slot raw sig else s) s

/-- SUMMARY_RX. -/
def execSummaryRx (t : Fc) (slot : Fin 32) (figs : List Stamp) (s : State) : Out :=
  atFabric t (fun s => summaryRx s slot figs) s

/-- CERT_REQ_RX. -/
def execCertReqRx (t : Fc) (slot : Fin 32) (raw : List Nat) (s : State) : Out :=
  atFabric t (fun s => certReqRx s slot raw) s

/-- BYE_RX. -/
def execByeRx (t : Fc) (slot : Fin 32) (s : State) : Out := atFabric t (fun s => byeRx s slot) s

/-- KEEPALIVE_RX. -/
def execKeepaliveRx (t : Fc) (slot : Fin 32) (s : State) : Out := atFabric t (fun s => onSession s slot fun _ s => s) s

/-- PUB_DUE of the tile in a cache slot. -/
def execPubDue (t : Fc) (slot : Fin 4096) (s : State) : Out := atFabric t (fun s => pubTile s slot) s

/-- STRIKE_DECAY. -/
def execStrikeDecay (t : Fc) (s : State) : Out := atFabric t strikeDecay s

/-- EVICT_HOLD_EXPIRY. -/
def execEvictHoldExpiry (t : Fc) (slot : Fin 32) (s : State) : Out := atFabric t (fun s => evictHoldEnd s slot) s

/-- BEHIND_CATCH_UP. -/
def execBehindCatchUp (t : Fc) (slot : Fin 32) (s : State) : Out := atFabric t (fun s => catchUp s slot) s

/-- STATUS_PUBLISH. -/
def execStatusPublish (t : Fc) (r : Ref) (data : List Nat) (s : State) : Out :=
  atFabric t (fun s => withDesc r 7 2 (fun d s => statusPublish s r d data) s) s

/-- MEMBER_EVICT. -/
def execMemberEvict (t : Fc) (r : Ref) (s : State) : Out :=
  atFabric t (fun s => withDesc r 7 3 (fun d s => memberEvict s r d) s) s

/-- PUBLISH_NOW. -/
def execPublishNow (t : Fc) (r : Ref) (s : State) : Out :=
  atFabric t (fun s => withDesc r 7 4 (fun _ s => publishNow s r) s) s

end Sys2Proof.Machine
end

