-- ==== Sys2Proof/Machine/Store.lean ====
section
/-! DEFINITION. Tile loads and flushes, map and store descriptors, and the journal (R297–R310). What the UFS device
returns, and whether an access succeeds, arrives with the command. -/

namespace Sys2Proof.Machine

/-- The host memory of a descriptor's ring. -/
def refHost (s : State) (r : Ref) : Bool := rbit s R.RING_CFG_HOST 0 r.ring

/-- DETAIL of a media error: sense key and additional sense code (R300). -/
def senseDetail (key asc : Nat) : Nat := key % 256 + 256 * (asc % 256)

/-- Counts a media error and raises its event. -/
def mediaError (s : State) (write : Bool) : State :=
  raiseEv (rinc s (if write then R.STO_MEDIA_ERRS_WRITE else R.STO_MEDIA_ERRS_READ)) evStoMediaError

/-- A store fault of the update copy: whether it hit a write, the sense key and the additional sense code. -/
def copyError (s : State) (fault : Option (Bool × Nat × Nat)) : State :=
  match fault with
  | some e => mediaError s e.1
  | none => s

/-! ### Tile descriptors (R299, R300) -/

/-- The checks that every tile descriptor meets; the first that fails. A key withheld outside SERVICE is reported as the seal is
(DESIGN CHOICE, log entry 191; unsafe). -/
def tileError (s : State) (id : Nat) : Option (Nat × Nat) :=
  if !tileIdOk id then some (stRejectFormat, 0x01A0)
  else if cacheBase s = 0 then some (stRejectState, 0x02A2)
  else if keyWithheld s 4 then some (stRejectState, 0x02A3) else none

/-- A TILE_WRITE replaces the tile by its image (R299); each cell whose bytes differ takes the version of one local event
(R379). -/
def writeTile (s : State) (id : Nat) (img : Tile) : State :=
  match cacheFind s id with
  | none => s
  | some (_, c) =>
    let keys := ((c.tile.cells.map (·.1)) ++ img.cells.map (·.1)).eraseDups
    let diff := keys.filter fun i => tileCell c.tile i != tileCell img i
    let s1 := clockLocal s
    let s2 := diff.foldl (fun s i => writeCell s id i (tileCell img i) ⟨ownStamp s1, true⟩) s1
    match cacheFind s2 id with
    | some (k, _) => modSlot s2 k fun c => { c with
        tile := { c.tile with cellCm := img.cellCm, origin := img.origin, lat0 := img.lat0, lon0 := img.lon0 },
        dirty := some (c.dirty.getD s.now) }
    | none => s2

/-- Serves a tile descriptor once its tile can be used; else it waits. -/
def serveDesc (s : State) (r : Ref) (id : Nat) (write : Option Tile) : State :=
  let n := needTile s id [id]
  match n.2 with
  | none => modSto n.1 fun m => { m with waits := m.waits ++ [.desc r id write] }
  | some k =>
    match write with
    | none => complete n.1 r stDone k
    | some img => complete (writeTile n.1 id img) r stDone

/-- Serves what waited for a tile or a slot. -/
def serveWait (s : State) (w : MapWait) : State :=
  match w with
  | .desc r id write => serveDesc s r id write
  | .delta k d => applyDelta s k d
  | .pull id fig => pullTile s id fig

/-- Descriptors and deltas that waited for a tile or a slot proceed, in order of arrival (R310). -/
def serveWaits (s : State) : State := s.sto.waits.foldl serveWait (modSto s fun m => { m with waits := [] })

/-- TILE_LOAD. -/
def tileLoad (s : State) (r : Ref) (d : Desc) : State :=
  match tileError s (d.quad 0x10) with
  | some (st, e) => complete s r st e
  | none => serveDesc s r (d.quad 0x10) none

/-- The cells of an image from its words on; cells of zero are left out. -/
def imageCells (kind : Nat) : Nat → List Nat → Tbl Nat
  | _, [] => []
  | i, w :: t =>
    if kind = 1 then
      match t with
      | b :: c :: d :: rest =>
        let v := w % 2 ^ 32 + 2 ^ 32 * (b % 2 ^ 32) + 2 ^ 64 * (c % 2 ^ 32) + 2 ^ 96 * (d % 2 ^ 32)
        if v = 0 then imageCells kind (i + 1) rest else (i, v) :: imageCells kind (i + 1) rest
      | _ => []
    else
      ((List.range 4).filterMap fun k =>
        let v := bitField w (8 * k) 8
        if v = 0 then none else some (i + k, v)) ++ imageCells kind (i + 4) t

/-- Words of a whole tile of a kind. -/
def tileWords (kind : Nat) : Nat := 16 + if kind = 1 then 65536 else 4096

/-- The image checks of a TILE_WRITE: SIGNATURE, TILE_CRC, identity and grid. -/
def tileImageOk (s : State) (id : Nat) (img : List Nat) : Bool :=
  let w := fun off => imgWord img off
  w 0 == 0x4C495451 && bitField (w 4) 8 4 == tileKind id && w 8 == id % 2 ^ 32 && bitField (w 4) 16 16 == gridCell s &&
    toSigned 64 (join64 (w 0x10) (w 0x14)) == gridLat s && toSigned 64 (join64 (w 0x18) (w 0x1C)) == gridLon s &&
    imgCrc img (4 * tileWords (tileKind id)) 0x38 == w 0x38

/-- The tile of an image's words. -/
def imageTile (id : Nat) (img : List Nat) : Tile :=
  let w := fun off => imgWord img off
  { id := id, cellCm := bitField (w 4) 16 16, origin := w 0xC, lat0 := toSigned 64 (join64 (w 0x10) (w 0x14)),
    lon0 := toSigned 64 (join64 (w 0x18) (w 0x1C)),
    cells := imageCells (tileKind id) 0 ((img.drop 16).take (tileWords (tileKind id) - 16)), vers := [] }

/-- TILE_WRITE; `img` are the tile's words as read from host memory. -/
def tileWrite (s : State) (r : Ref) (d : Desc) (img : List Nat) : State :=
  let id := d.quad 0x10
  match tileError s id with
  | some (st, e) => complete s r st e
  | none =>
    if tileKind id ≠ 3 ∧ rbit s R.STO_MAP_CTRL_MAP_EN then complete s r stRejectState 0x02A1
    else if !tileImageOk s id img then complete s r stRejectFormat 0x01A2
    else serveDesc s r id (some (imageTile id img))

/-- Flushes every dirty tile (R298). -/
def flushAll (s : State) : State :=
  (s.sto.cache.filter fun p => p.2.dirty.isSome).foldl (fun s p => flushStart s p.1) s

/-- The flush of every dirty tile (R298, R299): the slots dirty now are to flush, those dirty again behind a flush in progress
once more (written as 4,096 + slot); `r` is the TILE_FLUSH that asks for it, none at bind-off. -/
def flushNow (s : State) (r : Option Ref) : State :=
  let l := (s.sto.cache.filter fun p => slotDirty p.2).map fun p =>
    if p.2.flushing.isSome && p.2.dirty.isSome then p.1 + 4096 else p.1
  if l.isEmpty then completeOpt s r stDone
  else modSto (flushAll s) fun m => { m with flushes := m.flushes ++ [(r, l)] }

/-- TILE_FLUSH: completes when the tiles dirty at acceptance have flushed. -/
def tileFlush (s : State) (r : Ref) : State :=
  if cacheBase s = 0 then complete s r stRejectState 0x02A2
  else if keyWithheld s 4 then complete s r stRejectState 0x02A3
  else flushNow s (some r)

/-! ### Loads and flushes (R297, R298) -/

/-- TILE_LOAD_DONE: the load of a slot ends; with a media error the tile leaves the cache and its descriptors complete
MEDIA_ERROR. -/
def loadDone (s : State) (k : Nat) (ok : Bool) (key asc : Nat) : State :=
  match tblGet? s.sto.cache k with
  | none => s
  | some c =>
    if !c.loading ∨ storeTurn s ≠ some 3 then s
    else storeNext <| if ok then serveWaits (modSlot s k fun c => { c with loading := false })
    else
      let gone := s.sto.waits.filter fun w => w.tile == c.tile.id
      let s1 := modSto s fun m => { m with
        cache := tblErase m.cache k, waits := m.waits.filter fun w => w.tile != c.tile.id }
      gone.foldl (fun s w => completeOpt s w.ref stMediaError (senseDetail key asc)) (mediaError s1 false)

/-- TILE_FLUSH_DUE: FLUSH_S after the tile of a slot first became dirty. -/
def flushDue (s : State) (k : Nat) : State :=
  match tblGet? s.sto.cache k with
  | some c => match c.dirty with
    | some a => if a + rval s R.STO_FLUSH_FLUSH_S * fcSec ≤ s.now then flushStart s k else s
    | none => s
  | none => s

/-- A flush of a slot has ended: TILE_FLUSH descriptors left with no slot complete. An entry of 4,096 + slot waits for
one more flush of a slot that was dirty again at its acceptance. -/
def flushSettled (s : State) (k : Nat) : State :=
  let more := s.sto.flushes.any fun p => p.2.contains (k + 4096)
  let l := s.sto.flushes.map fun p => (p.1, (p.2.filter (· != k)).map fun j => if j = k + 4096 then k else j)
  let s1 := modSto s fun m => { m with flushes := l.filter fun p => !p.2.isEmpty }
  let s2 := (l.filter fun p => p.2.isEmpty).foldl (fun s p => completeOpt s p.1 stDone) s1
  if more then flushStart s2 k else s2

/-- The image of a tile is written to a fresh location of the MAP partition, and the old one is free (R298). -/
def storeTile (s : State) (img : Tile) (pubAt : Tbl Nat) (pubLast : Nat) : State :=
  modSto s fun m => { m with
    map := tblSet m.map img.id ⟨img, moduleTime s, Config.tileBlock m.locations, pubAt, pubLast⟩
    locations := m.locations + 1 }

/-- TILE_FLUSH_DONE: the image written becomes the stored version, or a media error leaves the tile dirty (R298). -/
def flushDone (s : State) (k : Nat) (ok : Bool) (key asc : Nat) : State :=
  match tblGet? s.sto.cache k with
  | none => s
  | some c =>
    match c.flushing with
    | none => s
    | some img =>
      if storeTurn s ≠ some 0 ∧ storeTurn s ≠ some 3 then s
      else storeNext <| if ok then
        let s1 := storeTile s img c.pubAt c.pubLast
        serveWaits (flushSettled (modSlot s1 k fun c => { c with flushing := none }) k)
      else
        let s1 := modSlot s k fun c => { c with flushing := none, dirty := some s.now }
        let hit := fun (p : Option Ref × List Nat) => p.2.contains k || p.2.contains (k + 4096)
        let gone := s.sto.flushes.filter hit
        let s2 := modSto (mediaError s1 true) fun m => { m with flushes := m.flushes.filter fun p => !hit p }
        raiseEv (gone.foldl (fun s p => completeOpt s p.1 stMediaError (senseDetail key asc)) s2) evMapFlushFail

/-! ### The managed store (R301–R305) -/

/-- Usable MiB of a partition (R302). -/
def partMib (p : Nat) : Nat := [8192, 4096, 4096, 2048, 98304, 32768, 65536].getD p 0

/-- A new day of the write budget begins once 86,400 s have passed (R304). -/
def budgetRoll (s : State) : State :=
  match s.sto.dayStart with
  | some a =>
    if a + 86400 * 1000000000 ≤ moduleTime s then
      rset (modSto s fun m => { m with dayStart := none, dayBytes := 0 }) R.STO_WRITE_BUDGET_USED_MIB 0
    else s
  | none => s

/-- A descriptor is the first in order of fetch among the held ones of its class that are due and satisfy a condition. -/
def firstFetched (s : State) (r : Ref) (cls : Nat) (p : Desc → Bool) : Bool :=
  ((heldReqs s cls).find? fun q => match q.desc with
    | some d => p d && due s d
    | none => false).map Req.ref == some r

/-- STORE_READ and STORE_WRITE; `data` are the bytes to write, as read from host memory. -/
def storeJob (s : State) (r : Ref) (d : Desc) (write : Bool) (data : List Nat) : State :=
  let p := d.classWord % 16
  let block := d.word 0x18
  let n := d.word 0x1C % 65536
  let opens := if write then p = 5 ∨ p = 6 else 3 ≤ p ∧ p ≤ 6
  if n = 0 ∨ 256 < n ∨ partMib p * 256 < block + n then complete s r stRejectFormat 0x01A1
  else if !decide opens then complete s r stRejectState 0x02A0
  else if keyWithheld s p then complete s r stRejectState 0x02A3
  else
    let s1 := if write then budgetRoll s else s
    let bytes := n * 4096
    if write ∧ rget s R.STO_WRITE_BUDGET_MIB_DAY * 1048576 < s1.sto.dayBytes + bytes then complete s1 r stRejectBudget 0x03A0
    else
      let s2 := if write then
          rset (modSto s1 fun m => { m with
              dayStart := some (m.dayStart.getD (moduleTime s)), dayBytes := m.dayBytes + bytes })
            R.STO_WRITE_BUDGET_USED_MIB (min ((s1.sto.dayBytes + bytes) / 1048576) 65535)
        else s1
      let j : StoreJob := ⟨r, p, block, n, write, d.quad 0x10, data.take bytes⟩
      storeServe (modSto s2 fun m => { m with jobs := m.jobs ++ [j] })

/-- Key of a byte of a partition. -/
def partKey (p off : Nat) : Nat := 2 ^ 40 * p + off

/-- Bytes written to a partition. -/
def partWrite (s : State) (p off : Nat) : List Nat → State
  | [] => s
  | b :: t => partWrite (modSto s fun m => { m with store := tblSet m.store (partKey p off) (BitVec.ofNat 8 b) }) p (off + 1) t

/-- A byte of a partition, where the module has written one: of JOVF, an event record of its ring, from the partition's
first byte on (DESIGN CHOICE, log entry 150; unsafe); of MAP, a stored tile with its version plane after it (R378); else what descriptors and the update engine
wrote. -/
def partByte (s : State) (p off : Nat) : Option Byte :=
  if p = 3 then (tblGet? s.log.jovf (off / 32)).map fun e => (evBytes e).getD (off % 32) 0
  else if p = 4 then
    match s.sto.map.find? (fun x =>
        4096 * x.2.block ≤ off && off < 4096 * x.2.block + tileSize (tileKind x.2.tile.id) + planeSize) with
    | some x =>
      let k := off - 4096 * x.2.block
      let n := tileSize (tileKind x.2.tile.id)
      some (if k < n then tileImageByte x.2.tile k else verPlaneByte x.2.tile (k - n))
    | none => none
  else tblGet? s.sto.store (partKey p off)

/-- STORE_ACCESS_DONE of the oldest access; `data` is what the device returned where the module has written
nothing. -/
def storeDone (s : State) (ok : Bool) (key asc : Nat) (data : List Nat) : State :=
  match s.sto.jobs with
  | [] => s
  | j :: rest =>
    let s1 := modSto s fun m => { m with jobs := rest }
    if !storeAlone s j.ref then s
    else storeNext <| if !ok then complete (mediaError s1 j.write) j.ref stMediaError (senseDetail key asc)
    else if j.write then complete (partWrite s1 j.part (4096 * j.block) j.data) j.ref stDone
    else
      let bs := (List.range (4096 * j.count)).map fun k =>
        (partByte s j.part (4096 * j.block + k)).getD (BitVec.ofNat 8 (data.getD k 0))
      complete (hostWrite s1 (refHost s j.ref) j.addr bs) j.ref stDone

/-- STORE_LIFE_POLL, hourly (R305). -/
def lifePoll (s : State) (a b eol : Nat) : State :=
  let due := match s.sto.pollAt with
    | some t => decide (t + 3600 * fcSec ≤ s.now)
    | none => true
  if !due then s
  else
    let old := rget s R.STO_LIFE_PRE_EOL
    let s1 := rset (rset (rset (modSto s fun m => { m with pollAt := some s.now }) R.STO_LIFE_LIFE_A a)
      R.STO_LIFE_LIFE_B b) R.STO_LIFE_PRE_EOL eol
    if (eol % 4 = 2 ∨ eol % 4 = 3) ∧ eol % 4 ≠ old then raiseEv s1 evStoPreEol else s1

/-- TILE_REFRESH: a stored tile whose last flush is more than 12 months old, at most one in 10 s, with no other traffic
outstanding (R303, R305). -/
def tileRefresh (s : State) (id : Nat) : State :=
  let free := match s.sto.refreshAt with
    | some t => decide (t + 10 * fcSec ≤ s.now)
    | none => true
  match tblGet? s.sto.map id with
  | some x =>
    if free && (storeTurn s).isNone && !keyWithheld s 4 && decide (x.at_ + 365 * 86400 * 1000000000 < moduleTime s) then
      modSto (storeTile s x.tile x.pubAt x.pubLast) fun m => { m with refreshAt := some s.now }
    else s
  | none => s

/-! ### The journal (R306–R309) -/

/-- Offset and bytes of the SOFTWARE section, and bytes of the whole journal (R306). -/
def softBase : Nat := 0x2000000
def softSize : Nat := 0x2000000
def jrnSize : Nat := 0x4000000

/-- RTC time in ns; its drift is left out (DESIGN CHOICE, log entry 76; unsafe). -/
def rtcNow (s : State) : Nat := ((s.rtcOff + 10 * (s.now : Int)) / 4 % ((2 ^ 64 : Nat) : Int)).toNat

/-- Present limit of a page's write count (R307). -/
def pageLimit (s : State) : Nat := 10000000 + 2 * ((rtcNow s - s.sto.provisioned) / 1000000000)

/-- Pages of a range of SOFTWARE. -/
def pagesOf (off len : Nat) : List Nat := (List.range ((off + len - 1) / 4096 - off / 4096 + 1)).map (off / 4096 + ·)

/-- Counts one write to a page. -/
def countPage (s : State) (p : Nat) : State :=
  modSto s fun m => { m with pages := tblSet m.pages p (tblGetD m.pages p 0 + 1) }

/-- The page with the highest write count, the lowest of several, and that count (R312; which of several DESIGN CHOICE, log
entry 152; unsafe). -/
def pagePeak (s : State) : Nat × Nat := s.sto.pages.foldl (fun a p => if a.2 < p.2 then p else a) (0, 0)

/-- A write to SOFTWARE: checked, counted and begun (R307, R308). -/
def jrnStart (s : State) (r : Ref) (off len : Nat) (data : List Nat) : State :=
  if off % 4 ≠ 0 ∨ len % 4 ≠ 0 ∨ len = 0 ∨ softSize < off + len then complete s r stRejectFormat 0x01B0
  else if (pagesOf off len).any fun p => decide (pageLimit s ≤ tblGetD s.sto.pages p 0) then
    raiseEv (complete s r stRejectBudget 0x03B0) evJrnBudgetRefused
  else
    let s1 := (pagesOf off len).foldl countPage s
    modSto s1 fun m => { m with jrnJobs := m.jrnJobs ++ [⟨r, softBase + off, true, 0, data.take len⟩] }

/-- Pages of SOFTWARE that a journal write covers. -/
def writePages (d : Desc) : List Nat :=
  let len := if d.op = 1 then 4 * (d.word 0x30 % 16) else d.word 0x18
  if len = 0 then [] else pagesOf d.classWord len

/-- No journal write fetched earlier, and due, waits for a page of this one (R310). -/
def writeFirst (s : State) (r : Ref) : Bool :=
  match reqDesc s r with
  | some d => firstFetched s r 0xA fun e =>
      (e.op == 1 || e.op == 2) && (e == d || (writePages e).any (writePages d).contains)
  | none => true

/-- WRITE_INLINE: up to eight words from the body. -/
def writeInline (s : State) (r : Ref) (d : Desc) : State :=
  let n := d.word 0x30 % 16
  if n = 0 ∨ 8 < n then complete s r stRejectFormat 0x01B0
  else jrnStart s r d.classWord (4 * n) ((imgBytes d.body 32).take (4 * n))

/-- WRITE of a host buffer. -/
def jrnWrite (s : State) (r : Ref) (d : Desc) (data : List Nat) : State :=
  let len := d.word 0x18
  if 65536 < len then complete s r stRejectFormat 0x01B0 else jrnStart s r d.classWord len data

/-- READ of a range of the journal. -/
def jrnRead (s : State) (r : Ref) (d : Desc) : State :=
  let len := d.word 0x18
  let off := d.classWord
  if off % 4 ≠ 0 ∨ len % 4 ≠ 0 ∨ len = 0 ∨ 65536 < len ∨ jrnSize < off + len then complete s r stRejectFormat 0x01B0
  else modSto s fun m => { m with jrnJobs := m.jrnJobs ++ [⟨r, off, false, d.quad 0x10, List.replicate len 0⟩] }

/-- A byte of a ring of records in the journal; a slot not yet written reads zero (DESIGN CHOICE, log
entry 118; unsafe). -/
def ringByte (ring : Tbl (List Byte)) (size off : Nat) : Byte :=
  match tblGet? ring (off / size) with
  | some b => b.getD (off % size) 0
  | none => 0

/-- What a section of the journal holds whose layout the spec does not give (R306): HEADER the layout version and the time of
provisioning; PAIR the stored epoch and the pairing state; COUNTERS operating seconds, activations and cast-ons; MAP_INDEX
the location of each tile; of AGEING (R459) the baselines, which nothing changes, and the running totals. -/
def sectionWords (s : State) (n : Nat) : List Nat :=
  match n with
  | 0 => [1, s.sto.provisioned]
  | 1 => [s.xlk.savedEpoch, rget s R.XLK_PAIR_CFG_PAIR_EN, rget s R.XLK_PAIR_ID_PAIR_ID]
  | 2 => [opSeconds s, s.sto.activations, s.sto.castOns]
  | 6 => []
  | 7 => opSeconds s :: rget s R.HLM_VCORE_FLOOR_MV :: (s.hlm.halves.map (·.2) ++
      (List.range 12).flatMap fun b => [rget s R.DBK_DERATE_BOOST_MA b, rget s R.DBK_DERATE_PEAK_MA b])
  | _ => s.sto.map.flatMap fun x => [x.1, x.2.block]

/-- A byte of the journal: of HEADER, the characters "QJRN" as written; of the sections whose layout is not given, a free
value that goes with their content; SOFTWARE, the EVENTS ring, and of AGEING the retired-page list and the two record rings,
as written (DESIGN CHOICE, log entry 151; safe). -/
def jrnByte (s : State) (off : Nat) : Byte :=
  let part := fun (n base : Nat) => BitVec.ofNat 8 (Config.jrnSection n (sectionWords s n) (off - base))
  if off < 4 then (leBytes 4 0x4E524A51).getD off 0
  else if off < 0x1000 then part 0 0
  else if off < 0x2000 then part 1 0x1000
  else if off < 0x10000 then part 2 0x2000
  else if 0x1810000 ≤ off ∧ off < softBase then part 5 0x1810000
  else if softBase ≤ off then Memory.read s.sto.soft (off - softBase)
  else if 0x10000 ≤ off ∧ off < 0x1010000 then
    match tblGet? s.log.events ((off - 0x10000) / 32) with
    | some e => (evBytes e).getD ((off - 0x10000) % 32) 0
    | none => 0
  else if 0x1010000 ≤ off ∧ off < 0x1020000 then part 6 0x1010000
  else if 0x1020000 ≤ off ∧ off < 0x1030000 then part 7 0x1020000
  else if 0x1030000 ≤ off ∧ off < 0x1040000 then
    BitVec.ofNat 8 (s.hlm.retired.getD ((off - 0x1030000) / 8) 0 / 256 ^ (off % 8))
  else if 0x1040000 ≤ off ∧ off < 0x1140000 then ringByte s.hlm.margin 64 (off - 0x1040000)
  else ringByte s.hlm.monitor 64 (off - 0x1140000)

/-- A write becomes durable. -/
def jrnApply (s : State) (j : JrnJob) (n : Nat) : State :=
  modSto s fun m => { m with soft := Memory.writeList m.soft (j.off - softBase) ((j.data.take n).map (BitVec.ofNat 8)) }

/-- JRN_ACCESS_DONE of the oldest access; a media fault completes MEDIA_ERROR. -/
def jrnDone (s : State) (ok : Bool) : State :=
  match s.sto.jrnJobs with
  | [] => s
  | j :: rest =>
    let s1 := modSto s fun m => { m with jrnJobs := rest }
    if !ok then complete (raiseEv s1 evStoMediaError) j.ref stMediaError 0
    else if j.write then complete (jrnApply s1 j j.data.length) j.ref stDone
    else
      complete (hostWrite s1 (refHost s j.ref) j.addr ((List.range j.data.length).map fun k => jrnByte s (j.off + k)))
        j.ref stDone

/-- JOVF_COPY: a batch of 128 event records goes to JOVF (R309), after the tile flushes of a bind-off (R303). -/
def jovfCopy (s : State) : State :=
  let l := s.log
  let n := min 128 (l.written - l.copied)
  if n < 128 ∨ storeTurn s = some 0 ∨ keyWithheld s 3 then s
  else
    let ring := (List.range n).foldl (fun t k =>
      match tblGet? l.events ((l.copied + k) % eventSlots) with
      | some e => tblSet t ((l.copied + k) % 2 ^ 26) e
      | none => t) l.jovf
    { s with log := { l with copied := l.copied + n, jovf := ring, losing := false } }

/-! ### Commands -/

/-- TILE_LOAD_DONE. -/
def execTileLoadDone (t : Fc) (slot : Fin 4096) (ok : Bool) (key asc : Nat) (s : State) : Out :=
  atFabric t (fun s => loadDone s slot ok key asc) s

/-- TILE_FLUSH_DUE. -/
def execTileFlushDue (t : Fc) (slot : Fin 4096) (s : State) : Out := atFabric t (fun s => flushDue s slot) s

/-- TILE_FLUSH_DONE. -/
def execTileFlushDone (t : Fc) (slot : Fin 4096) (ok : Bool) (key asc : Nat) (s : State) : Out :=
  atFabric t (fun s => flushDone s slot ok key asc) s

/-- TILE_LOAD. -/
def execTileLoad (t : Fc) (r : Ref) (s : State) : Out :=
  atFabric t (fun s => withDesc r 0xB 0x60 (fun d s => tileLoad s r d) s) s

/-- TILE_WRITE. -/
def execTileWrite (t : Fc) (r : Ref) (img : List Nat) (s : State) : Out :=
  atFabric t (fun s => withDesc r 0xB 0x61 (fun d s => tileWrite s r d img) s) s

/-- TILE_FLUSH. -/
def execTileFlush (t : Fc) (r : Ref) (s : State) : Out :=
  atFabric t (fun s => withDesc r 0xB 0x62 (fun _ s => tileFlush s r) s) s

/-- STORE_READ. -/
def execStoreRead (t : Fc) (r : Ref) (s : State) : Out :=
  atFabric t (fun s => onlyIf (storeFirst s r) (withDesc r 0xB 0x64 (fun d s => storeJob s r d false [])) s) s

/-- STORE_WRITE. -/
def execStoreWrite (t : Fc) (r : Ref) (data : List Nat) (s : State) : Out :=
  atFabric t (fun s => onlyIf (storeFirst s r) (withDesc r 0xB 0x65 (fun d s => storeJob s r d true data)) s) s

/-- STORE_ACCESS_DONE. -/
def execStoreAccessDone (t : Fc) (ok : Bool) (key asc : Nat) (data : List Nat) (s : State) : Out :=
  atFabric t (fun s => storeDone s ok key asc data) s

/-- STORE_LIFE_POLL. -/
def execStoreLifePoll (t : Fc) (a b eol : Nat) (s : State) : Out := atFabric t (fun s => lifePoll s a b eol) s

/-- TILE_REFRESH. -/
def execTileRefresh (t : Fc) (id : Nat) (s : State) : Out := atFabric t (fun s => tileRefresh s id) s

/-- WRITE_BUDGET_DAY_END. -/
def execWriteBudgetDayEnd (t : Fc) (s : State) : Out := atFabric t budgetRoll s

/-- WRITE_INLINE. -/
def execWriteInline (t : Fc) (r : Ref) (s : State) : Out :=
  atFabric t (fun s => onlyIf (writeFirst s r) (withDesc r 0xA 1 (fun d s => writeInline s r d)) s) s

/-- JRN_WRITE. -/
def execJrnWrite (t : Fc) (r : Ref) (data : List Nat) (s : State) : Out :=
  atFabric t (fun s => onlyIf (writeFirst s r) (withDesc r 0xA 2 (fun d s => jrnWrite s r d data)) s) s

/-- JRN_READ. -/
def execJrnRead (t : Fc) (r : Ref) (s : State) : Out :=
  atFabric t (fun s => withDesc r 0xA 3 (fun d s => jrnRead s r d) s) s

/-- JRN_ACCESS_DONE. -/
def execJrnAccessDone (t : Fc) (ok : Bool) (s : State) : Out := atFabric t (fun s => jrnDone s ok) s

/-- JOVF_COPY. -/
def execJovfCopy (t : Fc) (s : State) : Out := atFabric t jovfCopy s

end Sys2Proof.Machine
end

