-- ==== Sys2Proof/Machine/Can.lean ====
section
/-! DEFINITION. The CAN FD controllers (R341–R356): transmit buffers and the staged-frame queue, selection, retries,
receive queues and filters, error counting and bus-off. What happens on the bus arrives with the command. -/

namespace Sys2Proof.Machine

def getCan (s : State) (c : Nat) : CanCtl := tblGetD s.can c CanCtl.idle

/-- Changes a controller, and the occupancy that CAN_STATUS shows. -/
def modCan (s : State) (c : Nat) (f : CanCtl → CanCtl) : State :=
  let k := f (getCan s c)
  let busy := [0, 1, 2].foldl (fun n b => if (tblGet? k.txb b).isSome then n + 2 ^ b else n) 0
  rset (rset { s with can := tblSet s.can c k } R.CAN_STATUS_TXB_BUSY busy c) R.CAN_STATUS_STAGED k.staged.length c

def canOn (s : State) (c : Nat) : Bool := rbit s R.CAN_CTRL_EN c

/-- Bus-off, or recovering from it (R354). -/
def canOff (s : State) (c : Nat) : Bool := decide (2 ≤ rget s R.CAN_STATUS_STATE c)

/-! ### Configuration (R342) -/

/-- Periods of 80 MHz in a nominal bit and in a data bit. -/
def nominalBit (s : State) (c : Nat) : Nat :=
  rval s R.CAN_NBT_NBRP c * (1 + rval s R.CAN_NBT_NTSEG1 c + rval s R.CAN_NBT_NTSEG2 c)

def dataBit (s : State) (c : Nat) : Nat :=
  rval s R.CAN_DBT_DBRP c * (1 + rval s R.CAN_DBT_DTSEG1 c + rval s R.CAN_DBT_DTSEG2 c)

/-- The bit timing is valid: 125 kbit/s to 1 Mbit/s, data at most 5 Mbit/s and not below nominal, SJW within TSEG2. -/
def timingOk (s : State) (c : Nat) : Bool :=
  decide (80 ≤ nominalBit s c ∧ nominalBit s c ≤ 640 ∧ 16 ≤ dataBit s c ∧ dataBit s c ≤ nominalBit s c) &&
    decide (rval s R.CAN_NBT_NSJW c ≤ rval s R.CAN_NBT_NTSEG2 c ∧ rval s R.CAN_DBT_DSJW c ≤ rval s R.CAN_DBT_DTSEG2 c)

/-- CAN_ENABLE. -/
def canEnable (s : State) (c : Nat) : State :=
  if canOn s c then s
  else if !timingOk s c then rset s R.CAN_CTRL_ERR 1 c
  else if rget s R.RING_CFG_CLASS 0 (rget s R.CAN_TX_CFG_RING c) ≠ 6 then rset s R.CAN_CTRL_ERR 2 c
  else rset (rset s R.CAN_CTRL_ERR 0 c) R.CAN_CTRL_EN 1 c

/-! ### Frames -/

/-- Data bytes that a data length code stands for (ISO 11898-1). -/
def dlcBytes (fdf : Bool) (dlc : Nat) : Nat :=
  if dlc ≤ 8 then dlc else if !fdf then 8 else [12, 16, 20, 24, 32, 48, 64].getD (dlc - 9) 64

/-- The ID word of bytes 0x10–0x13. -/
def idWord (f : CanFrame) : Nat := f.canId % 2 ^ 29 + 2 ^ 29 * b2n f.ide + 2 ^ 30 * b2n f.rtr

/-- The frame that an ID word and a control word spell. -/
def frameOf (id ctl : Nat) (data : List Nat) : CanFrame :=
  let ide := bitOf id 29
  { ide := ide, rtr := bitOf id 30, fdf := bitOf ctl 4, brs := bitOf ctl 5, esi := false,
    canId := if ide then id % 2 ^ 29 else id % 2 ^ 11, dlc := ctl % 16, data := data }

/-- The arbitration field as a number; the lower one wins on the bus. -/
def arbKey (f : CanFrame) : Nat :=
  let rtr := b2n (f.rtr && !f.fdf)
  if f.ide then f.canId / 2 ^ 18 * 2 ^ 21 + 2 ^ 20 + 2 ^ 19 + f.canId % 2 ^ 18 * 2 + rtr
  else f.canId * 2 ^ 21 + 2 ^ 20 * rtr

/-- The 128 bytes of a receive-queue entry (R352). -/
def canEntry (time : Nat) (f : CanFrame) (echo staged deflt : Bool) (filter ph : Nat) : List Byte :=
  let n := if f.rtr then 0 else min (dlcBytes f.fdf f.dlc) 64
  let w := f.dlc + 16 * b2n f.fdf + 32 * b2n f.brs + 64 * b2n f.esi + 128 * b2n echo + 256 * b2n staged +
    512 * filter + 16384 * b2n deflt + 32768 * n + 2 ^ 31 * ph
  leBytes 8 time ++ leBytes 4 (idWord f) ++ leBytes 4 w ++
    ((List.range 64).map fun k => if k < n then BitVec.ofNat 8 (f.data.getD k 0) else 0) ++ List.replicate 48 0

/-- Writes an entry to a receive queue, or drops it (R352). -/
def canQueue (s : State) (c q time : Nat) (f : CanFrame) (echo staged deflt : Bool) (filter : Nat) : State :=
  if !rbit s R.CAN_RXQ_CFG_ENABLE c q then s
  else if queueRoom s queueCan c q then queuePut s queueCan c q 128 (canEntry time f echo staged deflt filter)
  else
    let tell := match tblGet? (getCan s c).dropAt q with
      | some a => decide (a + fcSec ≤ s.now)
      | none => true
    let s1 := rinc (modCan s c fun k => { k with dropAt := tblSet k.dropAt q s.now }) R.CAN_COUNTS_RX_DROPS 1 c
    if tell then raiseEv s1 evCanRxqFull c else s1

/-! ### Filters (R351) -/

/-- Action of a filter pair. -/
def filterAct (s : State) (c m : Nat) : Nat := bitField (rget s R.CAN_FLT_ACT c (m / 16)) (2 * (m % 16)) 2

/-- A frame matches a filter pair. -/
def filterHit (s : State) (c : Nat) (f : CanFrame) (m : Nat) : Bool :=
  decide (filterAct s c m ≠ 0) &&
    Nat.land (Nat.xor (idWord f) (rget s R.CAN_FLT_VALUE_WORD c m)) (rget s R.CAN_FLT_MASK_WORD c m) == 0

/-- Filters a received frame; a filter written in the same fc takes part as it was (R356). -/
def filterFrame (s : State) (c time : Nat) (f : CanFrame) : State :=
  let b := beforeRegs s
  match (List.range 32).find? fun m => filterHit b c f m with
  | some m => if filterAct b c m = 3 then s else canQueue s c (filterAct b c m - 1) time f false false false m
  | none =>
    let a := rget s R.CAN_TX_CFG_DEFAULT_ACT c
    if a = 1 ∨ a = 2 then canQueue s c (a - 1) time f false false true 0 else s

/-! ### Error counting (R354)

The amounts are those of ISO 11898-1 (PRESUMED, log entry 23; unsafe). -/

/-- Error-active or error-passive, by the counters. -/
def errorState (s : State) (c : Nat) : State :=
  if canOff s c then s
  else rset s R.CAN_STATUS_STATE (b2n (decide (128 ≤ rget s R.CAN_ERR_CNT_TEC c ∨ 128 ≤ rget s R.CAN_ERR_CNT_REC c))) c

/-- TEC falls by 1 after a frame sent. -/
def txGood (s : State) (c : Nat) : State := errorState (rset s R.CAN_ERR_CNT_TEC (rget s R.CAN_ERR_CNT_TEC c - 1) c) c

/-- REC after a frame received: one less, and from above 127 to a value between 119 and 127 that the standard leaves
open. -/
def rxGood (s : State) (c : Nat) : State :=
  let n := rget s R.CAN_ERR_CNT_REC c
  if 127 < n then withFree s fun v s => errorState (rset s R.CAN_ERR_CNT_REC (119 + v % 9) c) c
  else errorState (rset s R.CAN_ERR_CNT_REC (n - 1) c) c

/-! ### SEND (R346, R347) -/

/-- Control word of a SEND: bytes 0x14–0x17. -/
def sendCtl (d : Desc) : Nat := d.word 0x14

/-- The first check that a SEND fails. -/
def sendError (s : State) (r : Ref) (d : Desc) : Option (Nat × Nat) :=
  let c := d.classWord % 8
  let id := d.word 0x10
  let w := sendCtl d
  let fdf := bitOf w 4
  if rget s R.CAN_TX_CFG_RING c ≠ r.ring ∨ (bitOf id 30 ∧ fdf) ∨ (bitOf w 5 ∧ !fdf) ∨
      (!bitOf id 29 ∧ id % 2 ^ 29 ≥ 2 ^ 11) then some (stRejectFormat, 0x01D0)
  else if 32 < dlcBytes fdf (w % 16) ∧ !bitOf w 6 then some (stRejectFormat, 0x01D1)
  else if !canOn s c ∨ rval s R.CAN_CTRL_MODE c ≠ 0 then some (stRejectState, 0x02D0)
  else if canOff s c then some (stRejectState, 0x02D1)
  else if fdf ∧ !rbit s R.CAN_CTRL_FD_EN c then some (stRejectState, 0x02D2)
  else none

/-- SEND: checked, then it waits for a free buffer, in ring order (R344). -/
def canSend (s : State) (r : Ref) (d : Desc) : State :=
  match sendError s r d with
  | some (st, e) => complete s r st e
  | none => modCan s (d.classWord % 8) fun k => { k with sends := insertJob s r k.sends }

/-- A SEND of the ring that was fetched before a descriptor has not been taken up: buffers fill in ring order (R344). -/
def sendBefore (s : State) (r : Ref) : Bool := (heldReqs s 6).any fun q => q.ring == r.ring && decide (q.order < orderOf s r)

/-- CAN_TXB_FETCH: the next descriptor of the ring goes into a free buffer; in bus-off it completes at once. `data` is
what DATA_ADDR holds. -/
def txbFetch (s : State) (c : Nat) (data : List Nat) : State :=
  let k := getCan s c
  match k.sends with
  | [] => s
  | r :: rest =>
    if sendBefore s r then s
    else match reqDesc s r with
    | none => s
    | some d =>
      let s1 := modCan s c fun k => { k with sends := rest }
      if !canOn s c ∨ rval s R.CAN_CTRL_MODE c ≠ 0 then complete s1 r stRejectState 0x02D0
      else if canOff s c then complete s1 r stRejectState 0x02D1
      else
        match [0, 1, 2].find? fun b => (tblGet? k.txb b).isNone with
        | none => s
        | some b =>
          let w := sendCtl d
          let n := dlcBytes (bitOf w 4) (w % 16)
          let bytes := if bitOf w 6 then data.take n else ((imgBytes d.body 48).drop 16).take n
          let x : CanTx :=
            { frame := frameOf (d.word 0x10) w bytes, ref := some r, echo := bitOf w 7, echoQ := b2n (bitOf w 8),
              losses := 0, errors := 0, begun := false }
          modCan s1 c fun k => { k with txb := tblSet k.txb b x }

/-! ### Transmission (R344, R345) -/

/-- The frames that stand for selection, by place: TXB 0–2, 3 for the head of the staged-frame queue; in the order of
BUFFER. -/
def candidates (k : CanCtl) : List (Nat × CanTx) :=
  ((k.staged.take 1).map fun x => (3, x)) ++ k.txb

/-- The frame whose arbitration field would win. -/
def bestFrame : List (Nat × CanTx) → Option (Nat × CanTx)
  | [] => none
  | p :: t =>
    match bestFrame t with
    | none => some p
    | some q => if arbKey q.2.frame < arbKey p.2.frame then some q else some p

/-- The frame selected when the bus becomes idle. -/
def txChoice (s : State) (c : Nat) : Option Nat :=
  let l := candidates (getCan s c)
  if rbit s R.CAN_TX_CFG_ORDER c then (l.head?).map (·.1) else (bestFrame l).map (·.1)

/-- Changes the frame in a place. -/
def modTx (k : CanCtl) (b : Nat) (f : CanTx → CanTx) : CanCtl :=
  if b = 3 then { k with staged := (k.staged.take 1).map f ++ k.staged.drop 1 }
  else match tblGet? k.txb b with
    | some x => { k with txb := tblSet k.txb b (f x) }
    | none => k

/-- Frees a place, and the bus. -/
def freeTx (k : CanCtl) (b : Nat) : CanCtl :=
  if b = 3 then { k with staged := k.staged.drop 1, onBus := none } else { k with txb := tblErase k.txb b, onBus := none }

/-- The frame in a place. -/
def txAt (k : CanCtl) (b : Nat) : Option CanTx := if b = 3 then k.staged.head? else tblGet? k.txb b

/-- CAN_TX_SELECT; nothing is selected once TEC has passed the bus-off limit, though CAN_BUS_OFF has not come. -/
def txSelect (s : State) (c : Nat) : State :=
  if !canOn s c ∨ canOff s c ∨ 255 < rget s R.CAN_ERR_CNT_TEC c ∨ rval s R.CAN_CTRL_MODE c = 1 ∨ (getCan s c).onBus.isSome then s
  else
    match txChoice s c with
    | none => s
    | some b => modCan s c fun k =>
        { modTx k b (fun x => { x with begun := true }) with onBus := some (b, moduleTime s) }

/-- DETAIL of a SEND (R347). -/
def sendDetail (x : CanTx) (b : Nat) (sent error : Bool) : Nat :=
  min x.losses 31 + 32 * min x.errors 31 + 1024 * (b % 4) + 4096 * b2n sent + 8192 * b2n error

/-- An abort has been accepted for a frame's descriptor, or the descriptor has been abandoned (R75). -/
def txAborted (s : State) (x : CanTx) : Bool :=
  match x.ref with
  | some r => match findReq s r with
    | some q => q.aborted.isSome
    | none => true
  | none => false

/-- Completes the descriptor of a frame; after an accepted abort it carries ABORTED (R348, R71). -/
def completeTx (s : State) (x : CanTx) (status detail : Nat) : State :=
  completeOpt s x.ref (if txAborted s x then stAborted else status) detail

/-- CAN_TX_SUCCESS. -/
def txSuccess (s : State) (c : Nat) : State :=
  let k := getCan s c
  match k.onBus with
  | none => s
  | some (b, sof) =>
    match txAt k b with
    | none => s
    | some x =>
      let f := { x.frame with esi := x.frame.fdf && rget s R.CAN_STATUS_STATE c == 1 }
      let s1 := txGood (modCan s c fun k => freeTx k b) c
      let s2 := if x.echo then canQueue s1 c x.echoQ sof f true x.ref.isNone false 0 else s1
      let s3 := if rval s R.CAN_CTRL_MODE c = 2 then filterFrame s2 c sof f else s2
      completeTx s3 x stDone (sendDetail x b true false)

/-- An attempt has failed: the frame is freed when it is aborted or has used up its attempts; the last failure was an
error or an arbitration loss. A frame that has put the controller beyond the bus-off limit stays for CAN_BUS_OFF. -/
def attemptFailed (s : State) (c b : Nat) (x : CanTx) (error : Bool) : State :=
  let done := decide (rget s R.CAN_TX_CFG_RETRY_LIMIT c < x.losses + x.errors)
  if txAborted s x then
    completeTx (modCan s c fun k => freeTx k b) x stAborted (sendDetail x b false false)
  else if 255 < rget s R.CAN_ERR_CNT_TEC c then modCan s c fun k => { modTx k b (fun _ => x) with onBus := none }
  else if done then
    let s1 := modCan s c fun k => freeTx k b
    let s2 := if x.ref.isNone then rinc s1 R.CAN_STAGE_CNT_STAGE_FAILS 1 c else s1
    completeTx s2 x stOverlapDropped (sendDetail x b false error)
  else modCan s c fun k => { modTx k b (fun _ => x) with onBus := none }

/-- CAN_ARB_LOSS. -/
def arbLoss (s : State) (c : Nat) : State :=
  let k := getCan s c
  match k.onBus with
  | none => s
  | some (b, _) =>
    match txAt k b with
    | none => s
    | some x => attemptFailed s c b { x with losses := x.losses + 1 } false

/-- CAN_TX_ERROR: TEC rises by 8, but for the standard's exceptions. -/
def txError (s : State) (c : Nat) (exempt : Bool) : State :=
  let k := getCan s c
  match k.onBus with
  | none => s
  | some (b, _) =>
    match txAt k b with
    | none => s
    | some x =>
      let s1 := if exempt then s else errorState (rinc s R.CAN_ERR_CNT_TEC 8 c) c
      attemptFailed s1 c b { x with errors := x.errors + 1 } true

/-- CAN_BUS_OFF (R354). -/
def busOff (s : State) (c : Nat) : State :=
  if canOff s c ∨ rget s R.CAN_ERR_CNT_TEC c < 256 then s
  else
    let k := getCan s c
    let s1 := modCan s c fun k => { k with txb := [], staged := [], onBus := none }
    let s2 := k.txb.foldl (fun s p => completeTx s p.2 stRejectState 0x02D1) s1
    let s3 := rinc (rinc s2 R.CAN_STAGE_CNT_STAGE_FAILS k.staged.length c) R.CAN_ERR_CNT_BUS_OFFS 1 c
    raiseEv (rset s3 R.CAN_STATUS_STATE 2 c) evCanBusOff c

/-- RECOVER. -/
def canRecover (s : State) (c : Nat) : State :=
  if rget s R.CAN_STATUS_STATE c = 2 then rset s R.CAN_STATUS_STATE 3 c else s

/-- CAN_RECOVERED: error-active again, with both counters at 0. -/
def canRecovered (s : State) (c : Nat) : State :=
  if rget s R.CAN_STATUS_STATE c = 3 then
    rset (rset (rset s R.CAN_STATUS_STATE 0 c) R.CAN_ERR_CNT_TEC 0 c) R.CAN_ERR_CNT_REC 0 c
  else s

/-- The controller hears the bus: in LOOPBACK its receiver is joined to its own transmitter (R355). -/
def canHears (s : State) (c : Nat) : Bool := canOn s c && !canOff s c && decide (rval s R.CAN_CTRL_MODE c ≠ 2)

/-- CAN_RX: a frame of another node, received without error; `sof` is the fc of its start-of-frame edge. -/
def canRx (s : State) (c sof : Nat) (f : CanFrame) : State :=
  if !canHears s c ∨ (f.fdf ∧ !rbit s R.CAN_CTRL_FD_EN c) then s
  else filterFrame (rxGood s c) c (eventTime s (min sof s.now)) f

/-- CAN_RX_ERROR: REC rises by 1, or by 8. -/
def canRxError (s : State) (c : Nat) (heavy : Bool) : State :=
  if !canHears s c then s else errorState (rinc s R.CAN_ERR_CNT_REC (if heavy then 8 else 1) c) c

/-- An accepted abort of a SEND (R348): a frame on the bus finishes its attempt. -/
def stopSend (s : State) (c : Nat) (r : Ref) : State :=
  let k := getCan s c
  match k.txb.find? fun p => p.2.ref == some r with
  | none => complete (modCan s c fun k => { k with sends := k.sends.filter (· != r) }) r stAborted
  | some (b, x) =>
    if (k.onBus.map (·.1)) = some b then s
    else complete (modCan s c fun k => { k with txb := tblErase k.txb b }) r stAborted (sendDetail x b false false)

/-! ### Staged frames (R349, R350) -/

/-- A word of the constant area. -/
def constWord (s : State) (off : Nat) : Nat :=
  (List.range 4).foldl (fun n k => n + s.tke.consts.getD (off + k) 0 * 256 ^ k) 0

/-- A raw value kept to its field: the field's pattern, and whether it was saturated. -/
def rawField (sgn : Bool) (w : Nat) (v : Int) : Nat × Bool :=
  let lo : Int := if sgn then -((2 ^ (w - 1) : Nat) : Int) else 0
  let hi : Int := if sgn then ((2 ^ (w - 1) : Nat) : Int) - 1 else ((2 ^ w : Nat) : Int) - 1
  (ofSigned w (clampInt lo hi v), decide (v < lo ∨ hi < v))

/-- The raw value of a signal: round(u × SCALE) + OFFSET; none where u or the product is not a number to round. -/
def rawValue (u scale : F32) (offset : Int) : Option Int :=
  let p := fMul u scale
  if !fFinite u ∨ fIsNaN p then none
  else if fIsInf p then some (if fSign p then -(2 ^ 64 : Int) else 2 ^ 64)
  else some (fScaleRound 1 p + offset)

/-- Writes one signal into the data bytes of a staged frame; also whether it was saturated. -/
def encodeSignal (word : Nat → F32) (desc scale : Nat) (data : List Nat) : List Nat × Bool :=
  if !bitOf desc 6 then (data, false)
  else
    let n := [1, 2, 4].getD (bitField desc 10 2) 4
    let start := bitField desc 7 3
    match rawValue (word (desc % 64)) scale (toSigned 16 (desc / 65536)) with
    | none => (data, false)
    | some v =>
      let r := rawField (bitOf desc 12) (8 * n) v
      let put := fun (l : List Nat) k =>
        let byte := if bitOf desc 13 then n - 1 - k else k
        l.set (start + k) (r.1 / 256 ^ byte % 256)
      ((List.range n).foldl put data, r.2)

/-- The CAN staging word of a row: staged in it, or last committed. -/
def canWord (s : State) (k : Nat) : F32 := tblGetD s.tke.staged.canWords k (tblGetD s.tke.canWords k f0)

/-- Encodes one template and stages its frame. -/
def stageFrame (c off : Nat) (s : State) : State :=
  let w := fun k => constWord s (off + k)
  let d0 := (List.range 8).map fun k => s.tke.consts.getD (off + 8 + k) 0
  let a := encodeSignal (canWord s) (w 0x10) (w 0x14) d0
  let b := encodeSignal (canWord s) (w 0x18) (w 0x1C) a.1
  let f := frameOf (w 0) (w 4) b.1
  let x : CanTx :=
    { frame := { f with dlc := min f.dlc 8, data := f.data.take (min f.dlc 8) }, ref := none, echo := bitOf (w 4) 7,
      echoQ := b2n (bitOf (w 4) 8), losses := 0, errors := 0, begun := false }
  rinc (stage s fun g => { g with can := g.can ++ [(c, x)] }) R.CAN_COUNTS_SATURATED (b2n a.2 + b2n b.2) c

/-- CAN_STAGE: N templates for the controller of OPERAND_A. -/
def canStage (st : Stitch) (s : State) : State :=
  (List.range st.n).foldl (fun s k => stageFrame (st.opA % 8) (st.opB + 32 * k) s) s

/-- Same identifier and format. -/
def sameFrame (f g : CanFrame) : Bool := f.canId == g.canId && f.ide == g.ide && f.fdf == g.fdf

/-- Puts a staged frame into the queue of its controller at the commit (R350). -/
def canHandOver (s : State) (p : Nat × CanTx) : State :=
  let (c, x) := p
  let k := getCan s c
  let old := fun (y : CanTx) => !y.begun && sameFrame x.frame y.frame
  if canOff s c then rinc s R.CAN_STAGE_CNT_STAGE_DROPS 1 c
  else
    match k.staged.find? old with
    | some y => modCan s c fun k => { k with staged := k.staged.map fun z => if z = y then x else z }
    | none =>
      if k.staged.length < 8 then modCan s c fun k => { k with staged := k.staged ++ [x] }
      else rinc s R.CAN_STAGE_CNT_STAGE_DROPS 1 c

/-- Hands over what the row's CAN_STAGE stitches have staged. -/
def canCommit (s : State) : State := s.tke.staged.can.foldl canHandOver s

/-! ### Commands -/

/-- CAN_STAGE. -/
def execCanStage (t : Fc) (s : State) : Out := atFabric t (fun s => runStitch s 9 canStage) s

/-- CAN_ENABLE. -/
def execCanEnable (t : Fc) (ctl : Fin 8) (s : State) : Out := atFabric t (fun s => canEnable s ctl) s

/-- SEND. -/
def execSend (t : Fc) (r : Ref) (s : State) : Out :=
  atFabric t (fun s => withDesc r 6 1 (fun d s => canSend s r d) s) s

/-- CAN_TXB_FETCH. -/
def execCanTxbFetch (t : Fc) (ctl : Fin 8) (data : List Nat) (s : State) : Out :=
  atFabric t (fun s => txbFetch s ctl data) s

/-- CAN_TX_SELECT. -/
def execCanTxSelect (t : Fc) (ctl : Fin 8) (s : State) : Out := atFabric t (fun s => txSelect s ctl) s

/-- CAN_TX_SUCCESS. -/
def execCanTxSuccess (t : Fc) (ctl : Fin 8) (s : State) : Out := atFabric t (fun s => txSuccess s ctl) s

/-- CAN_ARB_LOSS. -/
def execCanArbLoss (t : Fc) (ctl : Fin 8) (s : State) : Out := atFabric t (fun s => arbLoss s ctl) s

/-- CAN_TX_ERROR. -/
def execCanTxError (t : Fc) (ctl : Fin 8) (exempt : Bool) (s : State) : Out := atFabric t (fun s => txError s ctl exempt) s

/-- CAN_RX. -/
def execCanRx (t : Fc) (ctl : Fin 8) (sof : Fc) (f : CanFrame) (s : State) : Out :=
  atFabric t (fun s => canRx s ctl sof f) s

/-- CAN_BUS_OFF. -/
def execCanBusOff (t : Fc) (ctl : Fin 8) (s : State) : Out := atFabric t (fun s => busOff s ctl) s

/-- RECOVER. -/
def execRecover (t : Fc) (ctl : Fin 8) (s : State) : Out := atFabric t (fun s => canRecover s ctl) s

/-- CAN_RECOVERED. -/
def execCanRecovered (t : Fc) (ctl : Fin 8) (s : State) : Out := atFabric t (fun s => canRecovered s ctl) s

/-- CAN_RX_ERROR. -/
def execCanRxError (t : Fc) (ctl : Fin 8) (heavy : Bool) (s : State) : Out :=
  atFabric t (fun s => canRxError s ctl heavy) s

end Sys2Proof.Machine
end

