-- ==== Sys2Proof/Machine/Nav.lean ====
section
/-! DEFINITION. Navigation and time (R259–R283): tracking channels, searches, corrections, the navigation record,
module time with its holdover, slew and step, the time pulse, and the antenna supplies. What the radio, the
correlators and the fusion filter compute from their signals arrives as operands. -/

namespace Sys2Proof.Machine

/-- Changes NAV's own state. -/
def modNav (s : State) (f : Nav → Nav) : State := { s with nav := f s.nav }

/-! ### Tracking channels (R261, R262) -/

/-- The system of a signal by its lowest SIG_INDEX (R259). -/
def sigSystem (sig : Nat) : Nat :=
  if sig ≤ 3 then 0 else if sig ≤ 7 then 4 else if sig ≤ 10 then 8 else if sig ≤ 12 then 11 else if sig ≤ 16 then 13 else 17

/-- Signals in the 1,559–1,610 MHz band. -/
def sigUpper (sig : Nat) : Bool := [0, 1, 4, 8, 9, 11, 13, 14, 17].contains sig

/-- SIG_INDEX is enabled. -/
def sigOn (s : State) (sig : Nat) : Bool := decide (sig ≤ 17) && bitOf (rget s R.NAV_SIG_EN_SIG) sig

/-- The signal of a satellite that R262 takes first: the lowest one in the upper band that is enabled and that the
satellite transmits. -/
def sigFirst (s : State) (c : Trk) : Bool :=
  sigUpper c.sig && !(List.range c.sig).any fun k =>
    sigSystem k == sigSystem c.sig && sigUpper k && sigOn s k && c.sends.contains k

/-- Place of a channel in the order of R262: lower is taken first. -/
def trkKey (s : State) (c : Trk) : Nat := (if sigFirst s c then 0 else 1 + c.sig) * 256 + (255 - min c.elev 255)

/-- Puts a channel in its place by the order of R262. -/
def trkInsert (s : State) (c : Trk) : List Trk → List Trk
  | [] => [c]
  | d :: t => if trkKey s c < trkKey s d then c :: d :: t else d :: trkInsert s c t

/-- The two channels track the same signal of the same satellite on the same antenna. -/
def trkSame (a b : Trk) : Bool := a.antB == b.antB && a.sig == b.sig && a.sat == b.sat

/-- NAV receives the signal; of GLONASS, the frequency channels −7 to +6, numbered from 0 (R259, R264). -/
def sigReceived (sig sat : Nat) : Bool := decide (sig ≤ 17) && (decide (sig ≠ 11 ∧ sig ≠ 12) || decide (sat ≤ 13))

/-- The signal is eligible (R262); ELEV_MASK lies within 0–60 (R281). -/
def trkEligible (s : State) (c : Trk) : Bool :=
  rbit s R.NAV_CTRL_EN && sigReceived c.sig c.sat && sigOn s c.sig && decide (min (rget s R.NAV_RTK_CFG_ELEV_MASK) 60 < c.elev)

/-- Keeps the registers' counts of assigned channels. -/
def trkCount (s : State) : State :=
  rset (rset s R.NAV_STATE_TRK_A (s.nav.trk.filter fun c => !c.antB).length)
    R.NAV_STATE_TRK_B (s.nav.trk.filter fun c => c.antB).length

/-- Channels of an antenna in the order of R262. -/
def trkOrder (s : State) (cs : List Trk) : List Trk := cs.foldl (fun l c => trkInsert s c l) []

/-- The channels that stay assigned: those of eligible signals; with HEADING_EN, ANT-B takes the set of ANT-A, for which
the one ELEV_MASK is taken as its own (DESIGN CHOICE, log entry 144; unsafe). -/
def trkKept (s : State) : List Trk :=
  let ok := s.nav.trk.filter (trkEligible s)
  let a := trkOrder s (ok.filter fun c => !c.antB)
  let b := if !rbit s R.NAV_CTRL_ANT_B_EN then []
    else if rbit s R.NAV_CTRL_HEADING_EN then a.map fun c => { c with antB := true }
    else trkOrder s (ok.filter fun c => c.antB)
  a ++ b

/-- The assignment is judged again, after a change of what R262 rests on; a channel of a signal whose NAV_SIG_EN bit is
cleared is released at once (R280). -/
def trkRejudge (s : State) : State := trkCount (modNav s fun n => { n with trk := trkKept s })

/-- Assigns a channel of one antenna, its correlators at the signal's spacing (R261); of 128 the ones first in the order
stay. -/
def trkTake (s : State) (c : Trk) : State :=
  let here := s.nav.trk.filter fun d => d.antB == c.antB && !trkSame c d
  let others := s.nav.trk.filter fun d => d.antB != c.antB
  let c1 := { c with spacing := rval s R.NAV_CORR_SPACING 0 c.sig }
  modNav s fun n => { n with trk := others ++ (trkInsert s c1 here).take 128 }

/-- A found signal is tracked if it is eligible there; with HEADING_EN, ANT-B follows ANT-A. -/
def trkAssign (s : State) (c : Trk) : State :=
  if !trkEligible s c || (c.antB && (rbit s R.NAV_CTRL_HEADING_EN || !rbit s R.NAV_CTRL_ANT_B_EN)) then s
  else trkRejudge (trkTake s c)

/-- Releases a channel. -/
def trkRelease (s : State) (c : Trk) : State :=
  trkRejudge (modNav s fun n => { n with trk := n.trk.filter fun d => !trkSame c d })

/-- NAV_CORR of a signal is written: its channels take the new spacing, the integration period being taken as 0 (DESIGN
CHOICE, log entry 144; unsafe). -/
def trkSpacing (s : State) (sig : Nat) : State :=
  modNav s fun n => { n with trk := n.trk.map fun c =>
    if c.sig = sig then { c with spacing := rval s R.NAV_CORR_SPACING 0 sig } else c }

/-! ### Acquisition (R263, R264) -/

/-- The elevation moves of satellites that a filter step brings. -/
def skyMoved (s : State) (sky : List (Nat × Nat × Nat)) : State :=
  if sky.isEmpty then s
  else
    let moved := fun (c : Trk) => match sky.find? (fun x => x.1 == sigSystem c.sig && x.2.1 == c.sat) with
      | some x => { c with elev := x.2.2 }
      | none => c
    trkRejudge (modNav s fun n => { n with trk := n.trk.map moved })

/-- Ends what runs in NAV when EN is cleared: channels are released, and searches end without a find (DESIGN CHOICE, log
entry 144; unsafe). -/
def navEnable (s : State) : State :=
  if rbit s R.NAV_CTRL_EN then s
  else
    s.nav.searches.foldl (fun s x => complete s x.ref stDone 0) (trkRejudge (modNav s fun n => { n with searches := [] }))

/-- A search of the antenna can run: the receiver runs and a channel is free. -/
def searchRoom (s : State) (antB : Bool) : Bool :=
  rbit s R.NAV_CTRL_EN && decide ((s.nav.trk.filter fun c => c.antB == antB).length < 128)

/-! ### RTCM frames (R265) -/

/-- One step of CRC-24Q over a byte. -/
def crc24Byte (c : Nat) (b : Nat) : Nat :=
  (List.range 8).foldl (fun v _ => if bitOf v 23 then Nat.xor (2 * v) 0x1864CFB % 2 ^ 24 else 2 * v)
    (Nat.xor c (b % 256 * 2 ^ 16))

/-- CRC-24Q. -/
def crc24q (bs : List Nat) : Nat := bs.foldl crc24Byte 0

/-- What parsing a buffer gives: frames taken, frames ignored or bad, frames whose CRC failed, and of each frame taken the
message type, the station identifier and the message. -/
structure Rtcm where
  taken : Nat
  ignored : Nat
  badCrc : Nat
  msgs : List (Nat × Nat × List Nat)
  deriving DecidableEq, Repr

/-- Message types that NAV takes. -/
def rtcmTypes : List Nat := [1005, 1006, 1033, 1074, 1077, 1084, 1087, 1094, 1097, 1114, 1117, 1124, 1127, 1230]

/-- Message types with observations. -/
def rtcmMsm (m : Nat) : Bool := [1074, 1077, 1084, 1087, 1094, 1097, 1114, 1117, 1124, 1127].contains m

/-- The whole frames of a buffer; a byte that starts no frame is passed over. `fuel` bounds the frames. -/
def rtcmParse : Nat → List Nat → Rtcm → Rtcm
  | 0, _, a => a
  | fuel + 1, bs, a =>
    match bs with
    | [] => a
    | b0 :: t =>
      let len := bs.getD 1 0 % 4 * 256 + bs.getD 2 0 % 256
      if b0 ≠ 0xD3 ∨ 4 ≤ bs.getD 1 0 then rtcmParse fuel t a
      else
        let frame := bs.take (len + 3)
        let crc := ((bs.drop (len + 3)).take 3).foldl (fun v b => v * 256 + b % 256) 0
        let rest := bs.drop (len + 6)
        if bs.length < len + 6 ∨ crc24q frame ≠ crc then
          rtcmParse fuel rest { a with ignored := a.ignored + 1, badCrc := a.badCrc + 1 }
        else
          let typ := bs.getD 3 0 % 256 * 16 + bs.getD 4 0 % 256 / 16
          let sid := bs.getD 4 0 % 16 * 256 + bs.getD 5 0 % 256
          if 2 ≤ len ∧ rtcmTypes.contains typ then
            rtcmParse fuel rest { a with taken := a.taken + 1, msgs := a.msgs ++ [(typ, sid, (bs.drop 3).take len)] }
          else rtcmParse fuel rest { a with ignored := a.ignored + 1 }

/-- `n` bits of a message from bit `p` on, the first one most significant. -/
def rtcmBits (m : List Nat) (p n : Nat) : Nat :=
  (List.range n).foldl (fun v k => 2 * v + b2n (bitOf (m.getD ((p + k) / 8) 0) (7 - (p + k) % 8))) 0

/-- SIG_INDEX of a signal identifier of an MSM message, by the tables of RTCM SC-104 version 3 (PRESUMED, log entry 145;
unsafe); none for those outside R259. -/
def msmSignal (typ id : Nat) : Option Nat :=
  let table : List (Nat × Nat) := match typ / 10 with
    | 107 => [(2, 0), (15, 2), (16, 2), (17, 2), (22, 3), (23, 3), (24, 3), (30, 1), (31, 1), (32, 1)]
    | 108 => [(2, 11), (8, 12)]
    | 109 => [(2, 4), (4, 4), (5, 4), (8, 7), (10, 7), (11, 7), (14, 6), (15, 6), (16, 6), (22, 5), (23, 5), (24, 5)]
    | 111 => [(2, 13), (15, 15), (16, 15), (17, 15), (22, 16), (23, 16), (24, 16), (30, 14), (31, 14), (32, 14)]
    | 112 => [(2, 8), (22, 10), (23, 10), (24, 10), (30, 9), (31, 9), (32, 9)]
    | _ => []
  (table.find? fun x => x.1 == id).map (·.2)

/-- The numbers, from 1, of the ones among `n` bits of a message from bit `p` on. -/
def msmMask (m : List Nat) (p n : Nat) : List Nat :=
  (List.range n).filterMap fun k => if rtcmBits m (p + k) 1 = 1 then some (k + 1) else none

/-- The number by which NAV knows a satellite of an MSM message (R264): QZSS from 193 on, GLONASS by the frequency channel
of its slot (PRESUMED, log entry 145; unsafe). -/
def msmSat (slots : List (Nat × Nat)) (typ sat : Nat) : Option Nat :=
  if typ / 10 = 108 then (slots.find? fun x => x.1 == sat).map (·.2)
  else some (if typ / 10 = 111 then sat + 192 else sat)

/-- Some channel tracks the signal of the satellite of an observation. -/
def obsTracked (s : State) (slots : List (Nat × Nat)) (typ sat sig : Nat) : Bool :=
  s.nav.trk.any fun c => c.sig == sig && some c.sat == msmSat slots typ sat

/-- The MSM message has an observation of a signal that NAV tracks (R265). -/
def msmUsed (s : State) (slots : List (Nat × Nat)) (typ : Nat) (m : List Nat) : Bool :=
  let sats := msmMask m 73 64
  let sigs := msmMask m 137 32
  (List.range sats.length).any fun i => (List.range sigs.length).any fun j =>
    rtcmBits m (169 + i * sigs.length + j) 1 == 1 &&
      match msmSignal typ (sigs.getD j 0) with
      | some g => obsTracked s slots typ (sats.getD i 0) g
      | none => false

/-- Milliseconds in a day. -/
def dayMs : Nat := 86400000

/-- Age in ms of an MSM message's epoch, which its system's time gives within the week, or GLONASS within the day where it
names no day (PRESUMED, log entry 145; unsafe). An epoch ahead of module time has the age 0. -/
def msmAgeMs (s : State) (typ : Nat) (m : List Nat) : Nat :=
  let now := moduleTime s / 1000000
  let glo := typ / 10 = 108
  let dow := rtcmBits m 24 3
  let tow := if glo then dow * dayMs + rtcmBits m 27 27 + 7 * dayMs - 10800000 + 1000 * rget s R.NAV_LEAP_LEAP_S
    else if typ / 10 = 112 then rtcmBits m 24 30 + 14000 else rtcmBits m 24 30
  let p := if glo ∧ dow = 7 then dayMs else 7 * dayMs
  let a := (now + p - tow % p) % p
  if p < 2 * a then 0 else a

/-- One message taken: station position and identifier, and the epoch of the corrections in use, the newest of which
counts. A new station identifier restarts RTK from RTK_FLOAT (R266). -/
def rtcmTake (slots : List (Nat × Nat)) (s : State) (m : Nat × Nat × List Nat) : State :=
  modNav s fun n =>
    let moved := match n.stationId with
      | some k => k != m.2.1
      | none => false
    let kept := if moved then none else n.corrAt
    let epoch : Int := (s.now : Int) - msmAgeMs s m.1 m.2.2 * fcMs
    { n with station := n.station && !moved || m.1 == 1005 || m.1 == 1006, stationId := some m.2.1,
             refloat := n.refloat || moved,
             corrAt := if rtcmMsm m.1 && msmUsed s slots m.1 m.2.2 then some (max epoch (kept.getD epoch)) else kept }

/-- RTCM_IN: `data` is the buffer. -/
def rtcmIn (s : State) (r : Ref) (d : Desc) (data : List Nat) (slots : List (Nat × Nat)) : State :=
  let len := d.word 0x18 % 65536
  if len = 0 ∨ 4096 < len then complete s r stRejectFormat 0x0150
  else if !rbit s R.NAV_CTRL_RTK_EN then complete s r stRejectState 0x0250
  else
    let a := rtcmParse (len + 1) (data.take len) ⟨0, 0, 0, []⟩
    let s1 := a.msgs.foldl (rtcmTake slots) s
    complete (rinc s1 R.NAV_RTCM_ERRS_COUNT a.badCrc) r stDone (min a.taken 255 + 256 * min a.ignored 255)

/-! ### Fix, heading and the record (R266–R270) -/

/-- Age of the corrections in fc. -/
def corrAgeFc (s : State) : Option Nat := s.nav.corrAt.map fun c => ((s.now : Int) - c).toNat

/-- The conditions of RTK_FLOAT and RTK_FIXED other than the observations. -/
def rtkOk (s : State) : Bool :=
  rbit s R.NAV_CTRL_RTK_EN && s.nav.station && match corrAgeFc s with
    | some a => decide (a ≤ rval s R.NAV_RTK_CFG_CORR_MAX_AGE_S * fcSec)
    | none => false

/-- The best fix type whose conditions hold (R266, R268); after a change of station RTK starts from RTK_FLOAT. -/
def bestFix (s : State) (mask : Nat) : Nat :=
  let on := rbit s R.NAV_CTRL_EN
  if on && bitOf mask 4 && rtkOk s && !s.nav.refloat then 4
  else if on && (bitOf mask 3 || bitOf mask 4) && rtkOk s then 3
  else if on && bitOf mask 2 && rbit s R.NAV_CTRL_SBAS_EN then 2
  else if on && bitOf mask 1 then 1
  else if rbit s R.NAV_CTRL_IMU_EN && s.nav.fixAt.isSome then 5 else 0

/-- Whole outage limit in fc. -/
def drMaxFc (s : State) : Nat := min (rget s R.NAV_RTK_CFG_DR_MAX_S) 60 * fcSec

/-- Outage of GNSS fixes in fc. -/
def outageFc (s : State) : Nat := match s.nav.fixAt with
  | some a => s.now - a
  | none => 0

/-- States of NAV_STATE.TIME_STATE (R272). -/
def timeNone : Nat := 0
def timeGnss : Nat := 1
def timeHoldover : Nat := 2
def timeSlewing : Nat := 3

def timeState (s : State) : Nat := rget s R.NAV_STATE_TIME_STATE

/-- Horizontal accuracy in mm under dead reckoning: the last figure plus 0.5 m for each second squared. -/
def drAcc (s : State) : Nat := s.nav.fixAcc + 500 * outageFc s * outageFc s / (fcSec * fcSec)

/-- Writes the record's fix figures to NAV_STATE and raises NAV_RTK_LOST when the fix falls from RTK_FIXED. -/
def setFix (s : State) (old : Nat) : State :=
  let r := s.nav.record
  let s1 := rset (rsetB (rset s R.NAV_STATE_FIX r.fix) R.NAV_STATE_HEADING_VALID r.headingValid) R.NAV_STATE_SATS r.sats
  if old = 4 ∧ r.fix ≠ 4 then raiseEv s1 evNavRtkLost else s1

/-- Accuracy in 0.01° of a heading from the baseline: 0.1° × 1,000 mm / BASELINE_MM, no less than 0.02°, rounded up (R267;
the rounding DESIGN CHOICE, log entry 146; unsafe). -/
def baselineAcc (s : State) : Nat :=
  let b := rval s R.NAV_BASELINE_BASELINE_MM
  max 2 ((10000 + b - 1) / b)

/-- The heading of a resolved baseline of the right length, and its accuracy (R267). -/
def baselineHeading (s : State) (m : NavMeas) : Option (F32 × Nat) :=
  match m.baseline with
  | some (len, h) =>
    let want := rval s R.NAV_BASELINE_BASELINE_MM
    let tol := rget s R.NAV_BASELINE_BASE_TOL_MM
    if rbit s R.NAV_CTRL_HEADING_EN && decide (len ≤ want + tol) && decide (want ≤ len + tol) then some (h, baselineAcc s)
    else none
  | none => none

/-- Ground speed above 1 km/h gives a course (R267). -/
def courseOk (m : NavMeas) (speedOk : Bool) : Bool := speedOk && fLt 0x3E8E38E4 (fAbs m.speed)

/-- Heading of a filter step: value, accuracy, valid, course (R267). -/
def headingOf (s : State) (m : NavMeas) (speedOk : Bool) : F32 × Nat × Bool × Bool :=
  match baselineHeading s m with
  | some (h, acc) => (h, acc, true, false)
  | none =>
    if courseOk m speedOk then (m.course, m.hdgAcc, true, true)
    else match s.nav.headAt with
      | some a => (m.gyro, m.hdgAcc, decide (s.now < a + drMaxFc s), s.nav.record.hdgCourse)
      | none => (m.gyro, m.hdgAcc, false, false)

/-- Roll and pitch in the machine's frame: the sensor's attitude rotated by the mounting angles (R268). -/
def machineAttitude (s : State) (m : NavMeas) : F32 × F32 :=
  let r := rgetS s R.NAV_MOUNT_RP_MOUNT_ROLL
  let p := rgetS s R.NAV_MOUNT_RP_MOUNT_PITCH
  let y := rgetS s R.NAV_MOUNT_Y_MOUNT_YAW
  if r = 0 ∧ p = 0 ∧ y = 0 then (m.roll, m.pitch)
  else
    let a := Config.machineAttitude r p y (m.roll, m.pitch)
    (a.1 % 2 ^ 32, a.2 % 2 ^ 32)

/-- SBAS message type 0 puts a satellite's corrections out of use for 60 s (R259). -/
def sbasStep (s : State) (m : NavMeas) : State :=
  modNav s fun n => { n with
    sbasOff := m.sbasZero.foldl (fun t k => tblSet t k s.now) (n.sbasOff.filter fun x => decide (s.now < x.2 + 60 * fcSec)) }

/-- The fix types that the observations support; type 2 with the corrections of a satellite in use. -/
def fixTypes (s : State) (m : NavMeas) : Nat :=
  if m.sbas.any fun k => (tblGet? s.nav.sbasOff k).isNone then m.fixMask else setBit m.fixMask 2 false

/-- The TCXO temperature is measured: ΔT of R274 is the largest change since the entry to holdover. -/
def noteTcxo (s : State) (tcxo : Int) : State :=
  if timeState s = timeHoldover then modNav s fun n => { n with tcxoMax := max n.tcxoMax (tcxo - n.tcxo).natAbs } else s

/-- NAV_FILTER_STEP: at a whole millisecond of module time the record is made anew (R268, R269). -/
def filterStep (s0 : State) (m : NavMeas) : State :=
  let s := sbasStep (skyMoved (noteTcxo s0 m.tcxo) m.sky) m
  let mask := fixTypes s m
  let ms := moduleTime s / 1000000 * 1000000
  let old := s.nav.record.fix
  let fix := bestFix s mask
  let gnss := decide (1 ≤ fix ∧ fix ≤ 4)
  let s1 := modNav s fun n => { n with
    stepNext := ms + 1000000, fixMask := mask, fixAt := if gnss then some s.now else n.fixAt, fixAcc := if gnss then m.hAcc else n.fixAcc,
    refloat := n.refloat && fix != 3 }
  let live := gnss || fix == 5 && decide (outageFc s1 < drMaxFc s1)
  let h := headingOf s1 m live
  let att := machineAttitude s1 m
  let signed := h.2.2.1 && !h.2.2.2
  let age := match corrAgeFc s1 with
    | some a => min (a / (fcSec / 10)) 255
    | none => 255
  let rec' : NavRec :=
    { solTime := ms, lat := m.lat, lon := m.lon, height := m.height, speed := if signed then m.speed else fAbs m.speed,
      velN := m.velN, velE := m.velE, velU := m.velU, heading := h.1, roll := att.1, pitch := att.2,
      hAcc := min (if gnss then m.hAcc else drAcc s1) 65535, hdgAcc := min h.2.1 65535, fix := fix,
      posValid := live, speedValid := live, headingValid := h.2.2.1,
      slopeValid := m.slopeOk && rbit s R.NAV_CTRL_IMU_EN, hdgCourse := h.2.2.2, sats := min m.sats 255,
      corrAge := age, timeState := rget s R.NAV_STATE_TIME_STATE }
  let fresh := (baselineHeading s1 m).isSome || courseOk m live
  setFix (modNav s1 fun n => { n with record := rec', headAt := if fresh then some s.now else n.headAt }) old

/-- The instant of the next filter step has come: a whole millisecond of module time (R268, R269). -/
def filterDue (s : State) : Bool := decide (s.nav.stepNext ≤ moduleTime s)

/-- DR_TIMEOUT: position and speed become invalid (R268). -/
def drTimeout (s : State) : State :=
  if s.nav.record.fix = 5 ∧ drMaxFc s ≤ outageFc s then
    modNav s fun n => { n with record := { n.record with posValid := false, speedValid := false } }
  else s

/-- CORR_AGE_EXPIRY: the best remaining fix of R266. -/
def corrExpiry (s : State) : State :=
  let old := s.nav.record.fix
  if (old = 3 ∨ old = 4) ∧ !rtkOk s then
    setFix (modNav s fun n => { n with record := { n.record with fix := bestFix s n.fixMask } }) old
  else s

/-! ### Module time (R272–R275) -/

/-- Sets TIME_STATE. -/
def setTimeState (s : State) (v : Nat) : State := rset s R.NAV_STATE_TIME_STATE v

/-- What is left of the error being slewed out, in 0.25 ns. -/
def slewLeft (s : State) : Int := s.nav.slew - slewed s s.now

/-- Ends the slew where it stands: what it has taken out stays taken out. -/
def settleSlew (s0 : State) : State :=
  let s := noteTime s0
  { s with timeOff := s.timeOff - slewed s s.now, nav := { s.nav with slew := 0, slewFrom := s.now } }

/-- Slews an error out from now on. -/
def startSlew (s : State) (d : Int) : State :=
  let s1 := settleSlew s
  rsetS { s1 with nav := { s1.nav with slew := d, slewFrom := s.now } } R.NAV_TIME_ERR_NS (d / 4)

/-- NAV_TIME_UNC in ns, saturated. -/
def setUnc (s : State) (ns : Nat) : State := rset s R.NAV_TIME_UNC_NS (min ns (2 ^ 32 - 1))

/-- The RTC is set from module time (R272, R416). -/
def setRtc (s : State) : State :=
  rset { s with rtcOff := quarterAt s s.now - 10 * (s.now : Int) } R.AOC_PWR_STATE_RTC_VALID 1

/-- CABLE_DELAY of an antenna in 0.25 ns (R273). -/
def cableDelay (s : State) (antB : Bool) : Nat :=
  if antB then rval s R.NAV_CABLE_B_DELAY else rval s R.NAV_CABLE_A_DELAY

/-- u(t) of R274, in 0.25 ns times 10^8. -/
def holdoverU (s : State) : Nat := s.nav.u0 * 100000000 + (s.nav.eps + 2 * s.nav.tcxoMax) * (s.now - s.nav.solAt)

/-- Module time has moved by a step: the grid of the filter goes on at the next whole millisecond (R269). -/
def regridFilter (s : State) : State :=
  modNav s fun n => { n with stepNext := (moduleTime s + 999999) / 1000000 * 1000000 }

/-- The first valid solution from NONE sets module time directly (R272). -/
def firstTime (s : State) (d : Int) (unc : Nat) : State :=
  let s0 := regridFilter { noteTime s with timeOff := s.timeOff - d, tke := { s.tke with timeEverValid := true } }
  let s1 := setRtc (modNav s0 fun n => { n with lockFrom := s.now })
  let s2 := rset64 s1 R.NAV_TP_NEXT_LO_TIME R.NAV_TP_NEXT_HI_TIME
    ((moduleTime s1 / (s.nav.tpPeriod * 100000000) + 1) * (s.nav.tpPeriod * 100000000))
  raiseEv (setUnc (setTimeState s2 timeGnss) unc) evNavTimeValid

/-- GNSS solutions per second (R281). -/
def solHz (s : State) : Nat :=
  let v := rget s R.NAV_RTK_CFG_SOL_HZ
  if [1, 2, 5, 10, 20, 50, 100].contains v then v else 10

/-- The confirmation of R275 takes one more valid solution: solutions that are not consecutive, an epoch of SOL_HZ having
passed between them (DEDUCED, log entry 147; unsafe), or do not agree within 50 ns start it anew. -/
def confirm (hz : Nat) (c : Option NavConf) (now : Nat) (d : Int) : NavConf :=
  match c with
  | some c =>
    let lo := min c.lo d
    let hi := max c.hi d
    if hi - lo ≤ 200 ∧ (now - c.last) * hz < 2 * fcSec then ⟨c.first, now, lo, hi⟩ else ⟨now, now, d, d⟩
  | none => ⟨now, now, d, d⟩

/-- A valid time solution with the error `d` of module time. -/
def validSolution (s : State) (d : Int) (unc : Nat) : State :=
  let s1 := modNav s fun n => { n with solAt := s.now, solUnc := unc, delta := d }
  let st := timeState s
  if st = timeNone then firstTime (modNav s1 fun n => { n with delta := 0 }) d unc
  else if st = timeGnss then setUnc s1 unc
  else if st = timeHoldover then
    -- u goes on from the last solution before the holdover
    modNav s1 fun n => { n with solAt := s.nav.solAt, conf := some (confirm (solHz s) n.conf s.now d) }
  else setUnc (startSlew s1 d) (d.natAbs / 4 + unc)

/-- TIME_SOLUTION: `a` and `b` give, for an antenna that yields one, module time less the solution's GNSS time as
received at the front end, in 0.25 ns; `far` says that the saved position lies more than 100 km from the solution's. -/
def timeSolution (s : State) (a b : Option Int) (unc : Nat) (far : Bool) : State :=
  if !rbit s R.NAV_CTRL_EN then s
  else
    let pick : Option (Bool × Int) := match a with
      | some d => some (false, d)
      | none => match b with
        | some d => if rbit s R.NAV_CTRL_ANT_B_EN then some (true, d) else none
        | none => none
    match pick with
    | none => s
    | some (antB, raw) =>
      let s1 := rsetB s R.NAV_ANT_TIME_ANT_B antB
      let k := rget s R.NAV_STATE_START_KIND
      let s2 := if s.nav.started then s1
        else
          let s2 := modNav s1 fun n => { n with started := true }
          if far ∧ (k = 1 ∨ k = 2) then rinc (rset s2 R.NAV_STATE_START_KIND 3) R.NAV_LEAP_SAVE_BAD else s2
      if unc ≤ 100 then validSolution s2 (raw - cableDelay s antB) unc
      else
        -- not valid; while TIME_STATE is GNSS, NAV_TIME_UNC reports it all the same (R274)
        let s3 := if timeState s = timeGnss then setUnc s2 unc else s2
        modNav s3 fun n => { n with conf := none }

/-- A write of an antenna's CABLE_DELAY, `old` before it: that of the antenna in use moves GNSS time (R273, R280). -/
def cableWritten (s : State) (antB : Bool) (old : Nat) : State :=
  let d : Int := (old : Int) - cableDelay s antB
  if rbit s R.NAV_ANT_TIME_ANT_B != antB then s
  else if timeState s = timeGnss then modNav s fun n => { n with delta := n.delta + d }
  else if timeState s = timeSlewing then
    let e := slewLeft s + d
    setUnc (startSlew s e) (e.natAbs / 4 + s.nav.solUnc)
  else s

/-- TIME_STATE becomes HOLDOVER (R274); a remainder still being slewed out is added to u0 (R280). -/
def holdoverBegin (s : State) (eps : Nat) (tcxo : Int) : State :=
  let left := slewLeft s
  let s1 := settleSlew s
  let s2 := modNav s1 fun n => { n with
    u0 := 4 * n.solUnc + left.natAbs, eps := min eps (if n.lockFrom + 600 * fcSec ≤ n.solAt then 8 else 500), tcxo := tcxo, tcxoMax := 0, suppressTold := false,
    conf := none, delta := 0 }
  let s3 := rsetS (setTimeState s2 timeHoldover) R.NAV_TIME_ERR_NS 0
  raiseEv (setUnc s3 (holdoverU s3 / 400000000)) evNavHoldover

/-- HOLDOVER_ENTRY: no valid solution for 1 s. `eps` is the receiver's frequency uncertainty in ppb, `tcxo` the
TCXO temperature in °C; after 10 min of lock ε is no more than 8 ppb (R274, R280). -/
def holdoverEntry (s : State) (eps : Nat) (tcxo : Int) : State :=
  if timeState s = timeHoldover then modNav s fun n => { n with conf := none }
  else if timeState s = timeNone ∨ s.now < s.nav.solAt + fcSec then s
  else holdoverBegin s eps tcxo

/-- SLEW_COMPLETE (R275). -/
def slewComplete (s : State) : State :=
  if timeState s = timeSlewing ∧ slewLeft s = 0 then
    setUnc (rsetS (setTimeState (modNav (settleSlew s) fun n => { n with delta := 0 }) timeGnss) R.NAV_TIME_ERR_NS 0)
      s.nav.solUnc
  else s

/-! ### The time pulse (R277–R279) -/

/-- The error that a boundary decides on, if there is a decision to make (R275). -/
def boundaryDelta (s : State) : Option Int :=
  let lim := 4 * (rget s R.NAV_HO_LIMITS_SLEW_LIMIT : Int)
  if timeState s = timeHoldover then
    match s.nav.conf with
    | some c => if c.first + 3 * fcSec ≤ c.last then some s.nav.delta else none
    | none => none
  else if timeState s = timeGnss then if s.nav.delta = 0 then none else some s.nav.delta
  else if timeState s = timeSlewing then
    if lim < slewLeft s ∨ slewLeft s < -lim then some (slewLeft s) else none
  else none

/-- The decision ends a confirmation: its latest solution is the latest valid one, and lock has been held since its
first. -/
def endConf (s : State) : State :=
  match s.nav.conf with
  | some c => modNav s fun n => { n with solAt := c.last, lockFrom := c.first, conf := none }
  | none => s

/-- Module time is stepped by −δ (R275). -/
def timeStep (s : State) (d : Int) : State :=
  let s1 := settleSlew (endConf s)
  let s2 := regridFilter { s1 with timeOff := s1.timeOff - d, tke := { s1.tke with stepSeen := true } }
  let s3 := modNav s2 fun n => { n with delta := 0, stepCarry := true }
  let s4 := rwrap (rsetS (setTimeState s3 timeGnss) R.NAV_TIME_ERR_NS 0) R.NAV_TP_STAT_STEP_COUNT
  raiseEv (setUnc s4 s.nav.solUnc) evNavTimeStep

/-- Slewing begins at the decision; an error of 0 leaves nothing to slew. -/
def slewDecide (s : State) (d : Int) : State :=
  let s1 := modNav (endConf s) fun n => { n with delta := 0 }
  if d = 0 then setUnc (setTimeState s1 timeGnss) s.nav.solUnc
  else setUnc (startSlew (setTimeState s1 timeSlewing) d) (d.natAbs / 4 + s.nav.solUnc)

/-- The period in force in ns, and in fc. -/
def tpNs (s : State) : Nat := s.nav.tpPeriod * 100000000
def tpFc (s : State) : Nat := s.nav.tpPeriod * (fcSec / 10)

/-- Label of the next boundary. -/
def tpNext (s : State) : Nat := rget64 s R.NAV_TP_NEXT_LO_TIME R.NAV_TP_NEXT_HI_TIME

/-- Sets the label of the next boundary: the first multiple of the period above a module time. -/
def setTpNext (s : State) (time : Nat) : State :=
  rset64 s R.NAV_TP_NEXT_LO_TIME R.NAV_TP_NEXT_HI_TIME ((time / tpNs s + 1) * tpNs s)

/-- No boundary was noted while the fabric stood still: the label of the next one is renewed. -/
def renewTpNext (s : State) : State := if tpNext s < moduleTime s then setTpNext s (moduleTime s) else s

/-- TP_WIDTH as taken: at or above the period, half the period (R281). -/
def widthTaken (s : State) : Nat :=
  let p := rval s R.NAV_TP_CFG_TP_PERIOD * 100000
  let w := rval s R.NAV_TP_WIDTH_TP_WIDTH
  if p ≤ w then p / 2 else w

/-- Suppressed by the uncertainty of a holdover (R274). -/
def pulseUncertain (s : State) : Bool :=
  timeState s == timeHoldover && !rbit s R.NAV_CTRL_PULSE_KEEP &&
    decide (max (rget s R.NAV_HO_LIMITS_HOLDOVER_LIMIT) 1 * 400000000 < holdoverU s)

/-- The pulse of a boundary is emitted (R274, R277, R278). -/
def pulseEmitted (s : State) (label : Nat) : Bool :=
  let spaced := match s.nav.lastEmit with
    | some a => decide (tpFc s ≤ 2 * (s.now - a))
    | none => true
  let fresh := match s.nav.lastLabel with
    | some l => decide (l < label)
    | none => true
  timeState s != timeNone && !pulseUncertain s && spaced && fresh

/-- The time message of a boundary (R279). -/
def pulseMessage (s : State) (label : Nat) (emitted : Bool) : State :=
  let s1 := rset64 s R.NAV_TP_LAST_LO_TIME R.NAV_TP_LAST_HI_TIME label
  let s2 := rsetB (rwrap s1 R.NAV_TP_STAT_SEQ) R.NAV_TP_STAT_EMITTED emitted
  let s3 := rsetB s2 R.NAV_TP_STAT_STEP (emitted && s.nav.stepCarry)
  rsetB (rsetB s3 R.NAV_TP_STAT_HOLDOVER (timeState s == timeHoldover)) R.NAV_TP_STAT_SLEWING (timeState s == timeSlewing)

/-- The boundary's pulse and its message; the period and width of the registers come into force with an emitted
pulse, and the first suppression of a holdover raises NAV_PULSE_SUPPRESSED. -/
def pulseOut (s : State) (label : Nat) (stepped : Bool) : State :=
  let e := pulseEmitted s label
  let told := pulseUncertain s && !s.nav.suppressTold
  let s1 := pulseMessage s label e
  let s2 := if e then modNav s1 fun n => { n with
      lastEmit := some s.now, tpFall := s.now + n.tpWidth * fcUs, lastLabel := some label, stepCarry := false,
      tpPeriod := rval s R.NAV_TP_CFG_TP_PERIOD, tpWidth := widthTaken s }
    else s1
  let s3 := if told then raiseEv (modNav s2 fun n => { n with suppressTold := true }) evNavPulseSuppressed else s2
  setTpNext s3 (if stepped then moduleTime s else label)

/-- PULSE_BOUNDARY, with the TCXO temperature: the decision of R275, then the pulse. After a backward step the same
label comes again, at the corrected instant. -/
def pulseBoundary (s : State) (tcxo : Int) : State :=
  let label := tpNext s
  if moduleTime s < label then s
  else
    let s1 := noteTcxo s tcxo
    let s0 := if timeState s1 = timeHoldover then setUnc s1 (holdoverU s1 / 400000000) else s1
    match boundaryDelta s0 with
    | none => pulseOut s0 label false
    | some d =>
      let lim := 4 * (rget s R.NAV_HO_LIMITS_SLEW_LIMIT : Int)
      if d ≤ lim ∧ -lim ≤ d then pulseOut (slewDecide s0 d) label false
      else
        let s1 := timeStep s0 d
        if 0 < d then setTpNext s1 (moduleTime s1) else pulseOut s1 label true

/-- The levels of the push-pull output and of the RS-422 pair of J7, where they are enabled: a pulse lasts TP_WIDTH from its
leading edge, which falls with TP_POL 1 (R277). -/
def pulseLevels (s : State) : Option Bool × Option Bool :=
  let level := decide (s.now < s.nav.tpFall) != rbit s R.NAV_CTRL_TP_POL
  (if rbit s R.NAV_CTRL_TP_PP_EN then some level else none, if rbit s R.NAV_CTRL_TP_422_EN then some level else none)

/-- A pulse boundary of the present fc that waits in the queue falls first: a step takes effect at the start of that fc
(R280). -/
def boundaryNow (s : State) : State :=
  s.pending.foldl (fun s c => match c with
    | .pulseBoundary t tcxo => if t = s.now then pulseBoundary s tcxo else s
    | _ => s) s

/-! ### Antenna supplies (R260) -/

/-- An antenna's supply is on. -/
def supplyOn (s : State) (antB : Bool) : Bool := (tblGet? s.nav.supplyOff (b2n antB)).isNone

/-- Sets OPEN or SHORT; a change from 0 to 1 raises NAV_ANT_FAULT. -/
def antFault (s : State) (f : Fld) (on : Bool) : State :=
  let s1 := rsetB s f on
  if on && !rbit s f then raiseEv s1 evNavAntFault else s1

def antOpenFld (antB : Bool) : Fld := if antB then R.NAV_ANT_OPEN_B else R.NAV_ANT_OPEN_A
def antShortFld (antB : Bool) : Fld := if antB then R.NAV_ANT_SHORT_B else R.NAV_ANT_SHORT_A

/-- ANT_SHORT: SHORT is set and the supply turned off. -/
def antShort (s : State) (antB : Bool) : State :=
  if supplyOn s antB then
    antFault (modNav s fun n => { n with supplyOff := tblSet n.supplyOff (b2n antB) s.now }) (antShortFld antB) true
  else s

/-- ANT_SUPPLY_RETRY, 1 s after the supply was turned off or last retried: with the short gone the supply stays on and
SHORT is clear. -/
def antRetry (s : State) (antB gone : Bool) : State :=
  match tblGet? s.nav.supplyOff (b2n antB) with
  | some a =>
    if s.now < a + fcSec then s
    else if gone then
      rset (modNav s fun n => { n with supplyOff := tblErase n.supplyOff (b2n antB) }) (antShortFld antB) 0
    else modNav s fun n => { n with supplyOff := tblSet n.supplyOff (b2n antB) s.now }
  | none => s

/-- Supply of an antenna in mV: ANT_VOLT while it is on (R260). -/
def antSupplyMv (s : State) (antB : Bool) : Nat :=
  if !supplyOn s antB then 0
  else if rbit s (if antB then R.NAV_ANT_ANT_VOLT_B else R.NAV_ANT_ANT_VOLT_A) then 5000 else 3300

/-! ### Start kinds (R271, R272) -/

/-- Saves NAV's data to the always-on SRAM. -/
def navStore (s : State) (ephemeris almanac : Nat) : State :=
  let leap := if rbit s R.NAV_LEAP_LEAP_VALID then some (rget s R.NAV_LEAP_LEAP_S) else none
  modNav s fun n => { n with
    saved := some ⟨ephemeris, almanac, n.record.lat, n.record.lon, leap⟩, savedAt := s.now }

/-- START_KIND at a start, and the restored leap-second count. -/
def navStart (s : State) : State :=
  let t := moduleTime s
  let rtc := rbit s R.AOC_PWR_STATE_RTC_VALID
  let kind := match s.nav.saved with
    | some v =>
      if rtc && decide (t ≤ v.ephemeris + 4 * 3600 * 1000000000) then 1
      else if rtc && decide (t ≤ v.almanac + 30 * 86400 * 1000000000) then 2 else 3
    | none => 3
  let s1 := setTpNext (rset s R.NAV_STATE_START_KIND kind) t
  match s.nav.saved with
  | some v => match v.leap with
    | some n => rset (rset s1 R.NAV_LEAP_LEAP_S n) R.NAV_LEAP_LEAP_VALID 1
    | none => s1
  | none => s1

/-! ### Searches (R263, R264) -/

/-- The uncertainty that NAV_TIME_UNC reports: in HOLDOVER, u of R274 now; in SLEWING, the remaining error plus the
solution's uncertainty (R275). -/
def reportedUnc (s : State) : Nat :=
  if timeState s = timeHoldover then min (holdoverU s / 400000000) (2 ^ 32 - 1)
  else if timeState s = timeSlewing then min ((slewLeft s).natAbs / 4 + s.nav.solUnc) (2 ^ 32 - 1)
  else rget s R.NAV_TIME_UNC_NS

/-- The conditions of an AIDED search but for the satellite's ephemeris or almanac: time uncertainty no more than 1 ms,
position uncertainty no more than 100 km, which a fix, its dead reckoning or a hot or warm start gives (DEDUCED, log entry
148; unsafe). -/
def aidedOk (s : State) : Bool :=
  let k := rget s R.NAV_STATE_START_KIND
  timeState s != timeNone && decide (reportedUnc s ≤ 1000000) &&
    ((s.nav.fixAt.isSome && decide (drAcc s ≤ 100000000)) || k == 1 || k == 2)

/-- The mode of a search: 1 FFT when ACQ_MODE forces it, when it is requested or when the conditions of AIDED do not
hold; else 0 AIDED. `known` says that ephemeris or almanac of the satellite are known. -/
def searchMode (s : State) (fft known : Bool) : Nat :=
  b2n (rbit s R.NAV_CTRL_ACQ_MODE || fft || !(known && aidedOk s))

/-- NAV_SEARCH: the search runs when a channel is free (R264). -/
def navSearch (s : State) (r : Ref) (known : Bool) : State :=
  match heldDesc s r 0xB 0x51 with
  | some d =>
    let antB := bitOf d.classWord 16
    if due s d && searchRoom s antB then
      modNav (takeReq s r) fun n => { n with searches := n.searches ++
        [⟨r, antB, d.classWord % 32, bitField d.classWord 8 8, searchMode s (bitOf d.classWord 17) known⟩] }
    else s
  | none => s

/-- The signal lies in the search space of the mode (R263): in FFT within ±6 kHz of Doppler; in AIDED within ±(500 Hz +
TCXO uncertainty) of the predicted Doppler and within ±(time and range uncertainty) of the predicted code phase. -/
def searchSpace (s : State) (mode : Nat) (a : SatAid) : Bool :=
  if mode = 1 then decide (a.doppler.natAbs ≤ 6000)
  else decide (a.offHz ≤ 500 + a.tcxoHz ∧ a.codeNs ≤ reportedUnc s + a.rangeNs)

/-- A search has found its signal: one that NAV receives and that lies in the search space. -/
def searchFound (s : State) (mode sig sat : Nat) (a : SatAid) (found : Bool) : Bool :=
  found && sigReceived sig sat && searchSpace s mode a

/-- ACQ_SEARCH_DONE of the NAV_SEARCH `req`, whose CLASS_WORD gives signal, satellite and antenna, or of a search that NAV
started for the channel `c`. -/
def searchDone (s : State) (req : Option Ref) (c : Trk) (aid : SatAid) (found : Bool) (cn0 : Nat) : State :=
  match req with
  | some r =>
    match s.nav.searches.find? (fun x => x.ref == r) with
    | some x =>
      let f := searchFound s x.mode x.sig x.sat aid found
      let s1 := modNav s fun n => { n with searches := n.searches.filter (fun y => y.ref != r), acqMode := x.mode }
      let s2 := if f then trkAssign s1 { c with antB := x.antB, sig := x.sig, sat := x.sat } else s1
      complete s2 r stDone (b2n f + 256 * (cn0 % 256))
    | none => s
  | none =>
    let mode := searchMode s false aid.known
    let s1 := modNav s fun n => { n with acqMode := mode }
    if rbit s R.NAV_CTRL_EN && searchFound s mode c.sig c.sat aid found then trkAssign s1 c else s1

/-! ### Commands -/

/-- NAV_SEARCH: the search runs until ACQ_SEARCH_DONE. -/
def execNavSearch (t : Fc) (q : SearchReq) (s : State) : Out := atFabric t (fun s => navSearch s q.ref q.known) s

/-- ACQ_SEARCH_DONE. -/
def execAcqSearchDone (t : Fc) (req : Option Ref) (antB : Bool) (sig sat : Nat) (aid : SatAid) (found : Bool) (cn0 : Nat)
    (s : State) : Out :=
  atFabric t (fun s => searchDone s req ⟨antB, sig, sat, aid.elev, aid.sends, 0⟩ aid found cn0) s

/-- RTCM_IN. -/
def execRtcmIn (t : Fc) (r : Ref) (data : List Nat) (slots : List (Nat × Nat)) (s : State) : Out :=
  atFabric t (fun s => withDesc r 0xB 0x50 (fun d s => rtcmIn s r d data slots) s) s

/-- CHANNEL_LOCK_LOSS. -/
def execChannelLockLoss (t : Fc) (antB : Bool) (sig sat : Nat) (next : Option (Nat × Nat × SatAid)) (s : State) : Out :=
  atFabric t (fun s =>
    let s1 := trkRelease s ⟨antB, sig, sat, 0, [], 0⟩
    match next with
    | some (g, v, a) => trkAssign s1 ⟨antB, g, v, a.elev, a.sends, 0⟩
    | none => s1) s

/-- NAV_FILTER_STEP. -/
def execNavFilterStep (t : Fc) (m : NavMeas) (s : State) : Out :=
  atFabric t (fun s => if filterDue s then filterStep s m else s) s

/-- TIME_SOLUTION. -/
def execTimeSolution (t : Fc) (a b : Option Int) (unc : Nat) (far : Bool) (s : State) : Out :=
  atFabric t (fun s => timeSolution s a b unc far) s

/-- LEAP_DECODE. -/
def execLeapDecode (t : Fc) (leap : Fin 256) (s : State) : Out :=
  atFabric t (fun s => rset (rset s R.NAV_LEAP_LEAP_S leap) R.NAV_LEAP_LEAP_VALID 1) s

/-- HOLDOVER_ENTRY. -/
def execHoldoverEntry (t : Fc) (eps : Nat) (tcxo : Int) (s : State) : Out :=
  atFabric t (fun s => holdoverEntry s eps tcxo) s

/-- PULSE_BOUNDARY. -/
def execPulseBoundary (t : Fc) (tcxo : Int) (s : State) : Out := atFabric t (fun s => pulseBoundary s tcxo) s

/-- SLEW_COMPLETE. -/
def execSlewComplete (t : Fc) (s : State) : Out := atFabric t slewComplete s

/-- DR_TIMEOUT. -/
def execDrTimeout (t : Fc) (s : State) : Out := atFabric t drTimeout s

/-- CORR_AGE_EXPIRY. -/
def execCorrAgeExpiry (t : Fc) (s : State) : Out := atFabric t corrExpiry s

/-- ANT_OPEN: the current has been below 2 mA for 1 s, or is back. -/
def execAntOpen (t : Fc) (antB isOpen : Bool) (s : State) : Out :=
  atFabric t (fun s => antFault s (antOpenFld antB) (isOpen && supplyOn s antB)) s

/-- ANT_SHORT. -/
def execAntShort (t : Fc) (antB : Bool) (s : State) : Out := atFabric t (fun s => antShort s antB) s

/-- ANT_SUPPLY_RETRY. -/
def execAntSupplyRetry (t : Fc) (antB gone : Bool) (s : State) : Out := atFabric t (fun s => antRetry s antB gone) s

/-- NAV_SAVE. -/
def execNavSave (t : Fc) (ephemeris almanac : Nat) (s : State) : Out :=
  atFabric t (fun s =>
    if 1 ≤ s.nav.record.fix ∧ s.nav.record.fix ≤ 4 ∧ s.nav.savedAt + 600 * fcSec ≤ s.now then navStore s ephemeris almanac
    else s) s

end Sys2Proof.Machine
end

