-- ==== Sys2Proof/Machine/Eth.lean ====
section
/-! DEFINITION. Ethernet and SPE ports, gPTP, TC10 sleep and wake, and the host link's status (R357–R365). Frames on the
wire, and the verdict of the best master clock algorithm, arrive with the command. -/

namespace Sys2Proof.Machine

def getEth (s : State) (p : Nat) : EthPort := tblGetD s.eth p EthPort.idle
def modEth (s : State) (p : Nat) (f : EthPort → EthPort) : State :=
  { s with eth := tblSet s.eth p (f (getEth s p)) }

def ethUp (s : State) (p : Nat) : Bool := rbit s R.ETH_STATUS_LINK_UP p

/-- ETH_TX (R358); `data` is the frame as read from host memory. -/
def ethTx (s : State) (r : Ref) (d : Desc) (data : List Nat) : State :=
  let p := d.classWord % 8
  let n := d.word 0x18 % 65536
  if n < 60 ∨ 1518 < n then complete s r stRejectFormat 0x01D8
  else if !ethUp s p then complete s r stRejectState 0x02D8
  else
    let x : EthTx := ⟨r, if bitOf (d.word 0x18) 16 then some (d.quad 0x20) else none, data.take n⟩
    modEth s p fun e => { e with queue := e.queue ++ [x] }

/-- The next message of a session: of its queue, else a delta that the exchange at its start owes (R382). -/
def Session.next (x : Session) : Option FleMsg := x.queue.head?.or (x.owed.head?.map FleMsg.delta)

/-- The first session with a message to send, by slot. -/
def fleetSender (s : State) : Option (Nat × Session) := s.fle.sessions.find? fun p => p.2.next.isSome

/-- A message of the fleet engine leaves the port. -/
def fleetSent (s : State) (k : Nat) (x : Session) : State :=
  { s with fle := { s.fle with
      sent := (x.next.map FleMsg.bytes).getD []
      sessions := tblSet s.fle.sessions k { x with
        queue := x.queue.drop 1, owed := if x.queue.isEmpty then x.owed.drop 1 else x.owed, txAt := s.now } } }

/-- The fleet engine sends on a port. -/
def fleetOn (s : State) (p : Nat) : Bool := rget s R.FLE_CTRL_PORT == p && decide (p < 4) && (fleetSender s).isSome

/-- ETH_TX_DONE: the next frame of the port's transmit queue has left; ETH_TX and the fleet engine take turns. -/
def ethTxDone (s : State) (p sof : Nat) : State :=
  if !ethUp s p then s
  else
    let e := getEth s p
    match e.queue, fleetOn s p && (e.fleetTurn || e.queue.isEmpty) with
    | _, true =>
      match fleetSender s with
      | some (k, x) => modEth (fleetSent s k x) p fun e => { e with fleetTurn := false }
      | none => s
    | [], false => s
    | x :: rest, false =>
      let s1 := modEth s p fun e => { e with queue := rest, fleetTurn := true, sent := x.data }
      let s2 := match x.tsAddr with
        | some a => hostWrite s1 (refHost s x.ref) a (leBytes 8 (eventTime s (min sof s.now)))
        | none => s1
      complete s2 x.ref stDone

/-- Queued frames of a port whose link is gone complete REJECT_STATE (R358, R361). -/
def ethFlush (s : State) (p : Nat) : State :=
  (getEth s p).queue.foldl (fun s x => complete s x.ref stRejectState 0x02D8) (modEth s p fun e => { e with queue := [] })

/-- LINK_UP of a port goes to 0. -/
def ethDown (s : State) (p : Nat) : State :=
  if ethUp s p then
    let s1 := modEth s p fun e => { e with role := none, heard := none, syncAt := none }
    raiseEv (ethFlush (rset s1 R.ETH_STATUS_LINK_UP 0 p) p) evEthLinkDown p
  else s

/-- The role of a port on its link, from its registers (R357, R364). -/
def linkRole (s : State) (p : Nat) : LinkRole :=
  if p < 4 then if rbit s R.ETH_CTRL_MASTER p then .master else .slave
  else
    let id := rget s R.ETH_CTRL_PLCA_ID p
    if !rbit s R.ETH_CTRL_PLCA_EN p ∨ id = 255 then .csmaCd
    else if id = 0 then .coordinator (rget s R.ETH_CTRL_PLCA_COUNT p) else .node id

/-- ETH_LINK_UP. -/
def ethLinkUp (s : State) (p : Nat) : State :=
  if rbit s R.ETH_CTRL_EN p then
    rset (rset (modEth s p fun e => { e with role := some (linkRole s p) }) R.ETH_STATUS_LINK_UP 1 p) R.ETH_STATUS_ASLEEP 0 p
  else s

/-! ### Reception (R357, R359) -/

/-- The port's MAC address, first byte first. -/
def ownMac (s : State) (p : Nat) : List Nat :=
  ((leBytes 4 (rget s R.ETH_MAC_LO_MAC p)) ++ leBytes 2 (rget s R.ETH_MAC_HI_MAC p)).map (·.toNat)

/-- The port accepts a frame by its destination. -/
def macAccepts (s : State) (p : Nat) (frame : List Nat) : Bool :=
  let dest := frame.take 6
  rbit s R.ETH_CTRL_PROMISC p || dest == ownMac s p || dest == List.replicate 6 255 ||
    (rbit s R.ETH_CTRL_MCAST_EN p && bitOf (dest.getD 0 0) 0)

/-- A frame that the time engine consumes: ethertype 0x88F7 on a port that runs gPTP. -/
def isGptp (s : State) (p : Nat) (frame : List Nat) : Bool :=
  decide (p < 4) && rbit s R.ETH_CTRL_GPTP_EN p && frame.getD 12 0 == 0x88 && frame.getD 13 0 == 0xF7

/-- The 2,048 bytes of a receive-queue entry (R359). -/
def ethEntry (time : Nat) (frame : List Nat) (ph : Nat) : List Byte :=
  leBytes 8 time ++ leBytes 4 (frame.length % 2048 + 2 ^ 31 * ph) ++ leBytes 4 0 ++ frame.map (BitVec.ofNat 8) ++
    List.replicate (2032 - frame.length) 0

/-- ETH_RX: `frame` without its FCS; `sof` is the fc of its start-of-frame delimiter. -/
def ethRx (s : State) (p sof : Nat) (fcsOk : Bool) (frame : List Nat) : State :=
  if !ethUp s p ∨ !rbit s R.ETH_CTRL_EN p then s
  else if !fcsOk then rinc s R.ETH_STATUS_FCS_ERRS 1 p
  else if frame.length < 60 ∨ 1518 < frame.length ∨ !macAccepts s p frame ∨ isGptp s p frame then s
  else if !rbit s R.ETH_RXQ_CFG_ENABLE p then s
  else if queueRoom s queueEth p 0 then queuePut s queueEth p 0 2048 (ethEntry (eventTime s (min sof s.now)) frame)
  else rinc s R.ETH_DROPS_RX_DROPS 1 p

/-! ### gPTP (R360) -/

/-- The gPTP time is module time plus 315,964,819 s. -/
def gptpEpoch : Nat := 315964819 * 1000000000

/-- What the module announces. TIME_STATE: 0 NONE, 1 GNSS, 2 HOLDOVER, 3 SLEWING (R272). -/
def announceNow (s : State) : Announce :=
  let st := rget s R.NAV_STATE_TIME_STATE
  { clockClass := if st = 1 ∨ st = 3 then 6 else if st = 2 then 7 else 248
    timeTraceable := decide (st ≠ 0)
    utcOffset := rgetS s R.NAV_LEAP_LEAP_S + 19, utcValid := rbit s R.NAV_LEAP_LEAP_VALID
    priority1 := rget s R.ETH_GPTP_PRIORITY1, priority2 := rget s R.ETH_GPTP_PRIORITY2 }

/-- What the module would be as grandmaster. -/
def ownVector (s : State) : GmVector :=
  let n := announceNow s
  let st := rget s R.NAV_STATE_TIME_STATE
  { priority1 := n.priority1, clockClass := n.clockClass, accuracy := Config.gmAccuracy st, variance := Config.gmVariance st,
    priority2 := n.priority2, identity := Config.gmIdentity (ownMac s 0), steps := 0 }

/-- A vector as the numbers that are compared in turn. -/
def gmKey (v : GmVector) : List Nat :=
  [v.priority1, v.clockClass, v.accuracy, v.variance, v.priority2, v.identity, v.steps]

/-- The first vector is better than the second. -/
def gmBetter (a b : GmVector) : Bool :=
  match ((gmKey a).zip (gmKey b)).find? fun x => x.1 != x.2 with
  | some (m, n) => decide (m < n)
  | none => false

/-- The port runs gPTP. -/
def gptpOn (s : State) (p : Nat) : Bool := decide (p < 4) && ethUp s p && rbit s R.ETH_CTRL_GPTP_EN p

/-- The port on which the selected grandmaster is heard; none while the module is grandmaster itself. -/
def gmPort (s : State) : Option Nat :=
  ([0, 1, 2, 3].foldl (fun (b : Option (Nat × GmVector)) p =>
    match (if gptpOn s p then (getEth s p).heard else none), b with
    | some v, none => if gmBetter v (ownVector s) then some (p, v) else none
    | some v, some (q, w) => if gmBetter v w then some (p, v) else some (q, w)
    | none, b => b) none).map (·.1)

/-- The effect of a gPTP message on its port; `corr` is the correction of a Follow_Up in ns. -/
def gptpTake (s : State) (p : Nat) (m : GptpMsg) : State :=
  match m with
  | .announce v => modEth s p fun e => { e with heard := some v }
  | .quiet => modEth s p fun e => { e with heard := none }
  | .sync sof => modEth s p fun e => { e with syncAt := some (eventTime s (min sof s.now) + gptpEpoch) }
  | .peerDelay t1 t2 t3 t4 =>
    modEth s p fun e => { e with linkDelay := (((t4 : Int) - t1) - ((t3 : Int) - t2)) / 2 }
  | .followUp _ => s

/-- The offset in ns of the selected grandmaster's time from the module's own that a message gives: that of the Follow_Up of
a Sync, its origin time, correction and the delay of the link against the Sync's arrival. -/
def gptpOffset (s : State) (p : Nat) (m : GptpMsg) (corr : Int) : Option Int :=
  match m, (getEth s p).syncAt with
  | .followUp origin, some at_ => if gmPort s = some p then some ((origin : Int) + corr + (getEth s p).linkDelay - at_) else none
  | _, _ => none

/-- GPTP_MESSAGE: the best master clock algorithm selects the grandmaster; the time of another one is relayed on the other
ports and its offset reported. Module time is never adjusted. -/
def gptpMessage (s0 : State) (p : Nat) (m : GptpMsg) (corr : Int) : State :=
  if !gptpOn s0 p then s0
  else
    let s := gptpTake s0 p m
    let was := rbit s R.ETH_STATUS_GM
    let src := gmPort s
    let own := src.isNone
    let ns := (gptpOffset s p m corr).getD (rgetS s R.ETH_GPTP_OFFSET_NS)
    let s1 := [0, 1, 2, 3].foldl (fun s k =>
      rsetS (rsetB s R.ETH_STATUS_GM own k) R.ETH_GPTP_OFFSET_NS (if own then 0 else ns) k) s
    let s2 := [0, 1, 2, 3].foldl (fun s k =>
      modEth s k fun e => { e with
        announce := if own && gptpOn s k then some (announceNow s) else none
        relay := if !own && gptpOn s k && src != some k then some ns else none }) s1
    if own = was then s2 else raiseEv s2 evEthGmChange p

/-! ### TC10 (R361) -/

/-- TC10_SLEEP: a write of SLEEP sends the request. -/
def tc10Sleep (s : State) (p : Nat) : State :=
  if p < 4 ∧ ethUp s p then modEth s p fun e => { e with sleepAsked := true } else s

/-- TC10_SLEEP_ACK: the link goes to sleep. -/
def tc10Ack (s : State) (p : Nat) : State :=
  if (getEth s p).sleepAsked then
    ethDown (rset (modEth s p fun e => { e with sleepAsked := false }) R.ETH_STATUS_ASLEEP 1 p) p
  else s

/-- TC10_WAKE: a write of WAKE sends a wake-up; the link comes up with ETH_LINK_UP. -/
def tc10Wake (s : State) (p : Nat) : State :=
  if p < 4 then rset (modEth s p fun e => { e with wakes := e.wakes + 1 }) R.ETH_STATUS_ASLEEP 0 p else s

/-- A wake-up received while the module runs (R361). -/
def tc10WakeRx (s : State) (p : Nat) : State :=
  if p < 4 ∧ rbit s R.ETH_CTRL_WAKE_EN p then raiseEv (ethLinkUp s p) evEthWake p else s

/-! ### Aborts -/

/-- An ETH_TX that waits in a queue leaves it. -/
def stopEthTx (s : State) (r : Ref) : State :=
  { s with eth := s.eth.map fun p => (p.1, { p.2 with queue := p.2.queue.filter fun x => x.ref != r }) }

/-! ### The host link (R362, R365) -/

/-- Class code of the endpoint: a co-processor. -/
def hostClassCode : Nat := 0x0B4000

/-- HOST_LINK_UP: the link trains at x1, x2 and x4 and at the speeds 1–4, 2.5 to 16.0 GT/s. -/
def hostLinkUp (s : State) (width speed : Nat) : State :=
  if (width ≠ 1 ∧ width ≠ 2 ∧ width ≠ 4) ∨ speed = 0 ∨ 4 < speed then s
  else rset (rset (rset (rset s R.HLK_STATUS_LINK_UP 1) R.HLK_STATUS_WIDTH width) R.HLK_STATUS_SPEED speed) R.HLK_STATUS_D_STATE 0

/-! ### Commands -/

/-- ETH_TX. -/
def execEthTx (t : Fc) (r : Ref) (data : List Nat) (s : State) : Out :=
  atFabric t (fun s => withDesc r 0xB 0x70 (fun d s => ethTx s r d data) s) s

/-- ETH_TX_DONE. -/
def execEthTxDone (t : Fc) (port : Fin 6) (sof : Fc) (s : State) : Out := atFabric t (fun s => ethTxDone s port sof) s

/-- ETH_RX. -/
def execEthRx (t : Fc) (port : Fin 6) (sof : Fc) (fcsOk : Bool) (frame : List Nat) (s : State) : Out :=
  atFabric t (fun s => ethRx s port sof fcsOk frame) s

/-- GPTP_MESSAGE. -/
def execGptpMessage (t : Fc) (port : Fin 4) (m : GptpMsg) (corr : Int) (s : State) : Out :=
  atFabric t (fun s => gptpMessage s port m corr) s

/-- ETH_LINK_DOWN. -/
def execEthLinkDown (t : Fc) (port : Fin 6) (s : State) : Out := atFabric t (fun s => ethDown s port) s

/-- ETH_LINK_UP. -/
def execEthLinkUp (t : Fc) (port : Fin 6) (s : State) : Out := atFabric t (fun s => ethLinkUp s port) s

/-- TC10_SLEEP. -/
def execTc10Sleep (t : Fc) (port : Fin 4) (s : State) : Out := atFabric t (fun s => tc10Sleep s port) s

/-- TC10_SLEEP_ACK. -/
def execTc10SleepAck (t : Fc) (port : Fin 4) (s : State) : Out := atFabric t (fun s => tc10Ack s port) s

/-- TC10_WAKE. -/
def execTc10Wake (t : Fc) (port : Fin 4) (s : State) : Out := atFabric t (fun s => tc10Wake s port) s

/-- HOST_LINK_UP. -/
def execHostLinkUp (t : Fc) (width : Fin 8) (speed : Fin 8) (s : State) : Out :=
  atFabric t (fun s => hostLinkUp s width speed) s

end Sys2Proof.Machine
end

