-- ==== Sys2Proof/Machine/Panels.lean ====
section
/-! DEFINITION. Sentinel panel ports (R393–R406): the line store, line writes, wipes, contrast voltage, common
electrode, the crack loop and blanking. Measured values arrive with the command. -/

namespace Sys2Proof.Machine

def getPnl (s : State) (p : Nat) : Pnl := tblGetD s.pnl p Pnl.idle
def modPnl (s : State) (p : Nat) (f : Pnl → Pnl) : State := { s with pnl := tblSet s.pnl p (f (getPnl s p)) }

def pnlOn (s : State) (p : Nat) : Bool := rbit s R.PNL_CTRL_EN p
def pnlWidth (s : State) (p : Nat) : Nat := rget s R.PNL_SIZE_WIDTH p
def pnlHeight (s : State) (p : Nat) : Nat := rget s R.PNL_SIZE_HEIGHT p

/-- Applies an effect while the port runs: with the fabric, and in PARK with PARK_KEEP (R402). -/
def atPanel (t : Fc) (p : Nat) (f : State → State) (s : State) : Out :=
  .next (if s.fabric || (s.aoc.power == 2 && rbit s R.PNL_CTRL_PARK_KEEP p) then f (advance s t) else advance s t)

/-! ### Lines (R395) -/

/-- Eight pixels of a plane as a byte, the first in the most significant bit. -/
def planeByte (bit : Nat) (px : List Nat) : Nat :=
  (List.range 8).foldl (fun n k => 2 * n + b2n (bitOf (px.getD k 0) bit)) 0

/-- The three data planes of a line, as bytes in the order of R394. -/
def linePlanes (w : Nat) (px : List Nat) : List Nat :=
  [0, 1, 2].flatMap fun bit => (List.range (w / 8)).map fun k => planeByte bit (px.drop (8 * k))

/-- Bits of a field, the most significant first. -/
def bitsMsb (n v : Nat) : List Bool := (List.range n).map fun k => bitOf v (n - 1 - k)

/-- What a line write carries on PDA: WRITE_LINE, the line field, the three planes and 12 latch clocks (R394). -/
def lineFrame (w n : Nat) (px : List Nat) : List Bool :=
  bitsMsb 8 0x3C ++ bitsMsb 16 (n % 1024) ++ ([0, 1, 2].flatMap fun bit => (List.range w).map fun k => bitOf (px.getD k 0) bit) ++
    List.replicate 12 false

/-- What a wipe carries. -/
def wipeFrame : List Bool := bitsMsb 8 0xC3 ++ bitsMsb 16 0 ++ List.replicate 12 false

/-- fc from the fall of PSEL for a frame of `n` bits to the earliest next one: n / f_PCK + 5 µs (R394). -/
def frameFc (s : State) (p n : Nat) : Nat := ceilDiv (n * 4000) (rval s R.PNL_TIMING_PCK_100K p) + 5 * fcUs

/-- fc of a line write. -/
def lineFc (s : State) (p : Nat) : Nat := frameFc s p (36 + 3 * pnlWidth s p)

/-- Checksum of a line. -/
def lineCrc (w : Nat) (px : List Nat) : Nat := crc32 (linePlanes w px)

/-- A line of colour 0. -/
def zeroLine (w : Nat) : List Nat := List.replicate w 0

/-- A line of the store. -/
def getLine (s : State) (p n : Nat) : PnlLine :=
  let w := pnlWidth s p
  (tblGet? (getPnl s p).lines n).getD
    { content := zeroLine w, shown := zeroLine w, shadow := lineCrc w (zeroLine w), owner := none, source := none,
      forced := [] }

def setLine (s : State) (p n : Nat) (l : PnlLine) : State :=
  modPnl s p fun q => { q with lines := tblSet q.lines n l }

/-- A line is pending when its content's checksum differs from its shadow, or FORCE marked it. -/
def linePending (w : Nat) (l : PnlLine) : Bool := lineCrc w l.content != l.shadow || !l.forced.isEmpty

/-- A wipe waits for the line boundary, or is being sent. -/
def wipeOpen (s : State) (p : Nat) : Bool := !(getPnl s p).wipes.isEmpty || (getPnl s p).wiping.isSome

/-- The shadow that a line's content is held against, and the content it stands for: an open wipe counts as sent (a CLEAR
empties the pending set, R397). -/
def shadowOf (s : State) (p : Nat) (l : PnlLine) : Nat :=
  if wipeOpen s p then lineCrc (pnlWidth s p) (zeroLine (pnlWidth s p)) else l.shadow
def shownOf (s : State) (p : Nat) (l : PnlLine) : List Nat := if wipeOpen s p then zeroLine (pnlWidth s p) else l.shown

/-- Numbers of the pending lines, rising; EN 0 has discarded them. -/
def pendingLines (s : State) (p : Nat) : List Nat :=
  if pnlOn s p then
    ((getPnl s p).lines.filter fun x => linePending (pnlWidth s p) { x.2 with shadow := shadowOf s p x.2 }).map (·.1)
  else []

/-- The panel is to be blanked (R403). -/
def blankWanted (s : State) (p : Nat) : Bool :=
  rbit s R.PNL_CTRL_BLANK p || (rbit s R.PNL_CTRL_BLANK_ON_CRACK p && rbit s R.PNL_CRACK_PANEL_CRACK p)

/-- VLCD goes to a voltage, in 10 mV. -/
def vlcdTo (s : State) (p v : Nat) : State :=
  let old := rget s R.PNL_STATUS_VLCD_10MV p
  if old = v then s else rset (modPnl s p fun q => { q with move := some (s.now, old, v) }) R.PNL_STATUS_VLCD_10MV v p

/-- VLCD lies within 20 mV of its target, or the gap has been extended by 50 µs (R401). -/
def vlcdSettled (s : State) (p : Nat) : Bool :=
  match (getPnl s p).move with
  | some (a, f, v) =>
    decide (f ≤ v + 2 ∧ v ≤ f + 2) || decide (a + min (Config.vlcdSettle f v) (50 * fcUs) ≤ s.now)
  | none => true

/-- Brings VDD and PNL_STATUS up to date: a line write in progress keeps PEN and VLCD as they are. -/
def panelView (s : State) (p : Nat) : State :=
  let q := getPnl s p
  let on := rbit s R.PNL_CTRL_PWR_EN p
  let s0 := if q.vdd = on then s else modPnl s p fun q => { q with vdd := on }
  let s1 := rset (rsetB s0 R.PNL_STATUS_WRITING q.writing.isSome p) R.PNL_STATUS_PENDING (pendingLines s p).length p
  if q.writing.isSome then s1
  else vlcdTo (rsetB s1 R.PNL_STATUS_BLANKED (blankWanted s p) p) p (if on then q.target else 0)

/-! ### Completion (R398) -/

/-- Lines no longer name descriptors that have ended: a later one may stand in the same place of its ring. What one of them
forced stays pending. -/
def forgetJobs (l : List Ref) (q : Pnl) : Pnl :=
  let src := fun (r : Option Ref) => if r.any l.contains then none else r
  { q with
    lines := q.lines.map fun x => (x.1, { x.2 with
      source := src x.2.source, forced := x.2.forced.map fun r => if l.contains r then ghostRef else r })
    writing := q.writing.map fun w => { w with source := src w.source } }

/-- Completes the UPDATEs none of whose lines belongs to them any more. -/
def settleJobs (s : State) (p : Nat) : State :=
  let q := getPnl s p
  let holds := fun (j : PnlJob) => q.lines.any fun x => x.2.owner == some j.ref
  let done := q.jobs.filter fun j => !holds j
  if done.isEmpty then s
  else
    done.foldl (fun s j => complete s j.ref stDone (j.written % 512 + 512 * b2n j.takenOver))
      (modPnl s p fun q => forgetJobs (done.map PnlJob.ref) { q with jobs := q.jobs.filter holds })

/-- Marks the UPDATE whose content a later request replaces. -/
def takeOver (s : State) (p : Nat) (src : Option Ref) : State :=
  match src with
  | some r => modPnl s p fun q => { q with
      jobs := q.jobs.map fun j => if j.ref = r then { j with takenOver := true } else j }
  | none => s

/-- A wipe: every shadow stands for an all-zero line. Lines whose content is zero are settled. -/
def wipeShadows (s : State) (p : Nat) : State :=
  let w := pnlWidth s p
  let z := lineCrc w (zeroLine w)
  modPnl s p fun q => { q with
    lines := q.lines.map fun x =>
      (x.1, { x.2 with shown := zeroLine w, shadow := z, owner := if lineCrc w x.2.content = z ∧ x.2.forced = [] then none else x.2.owner }) }

/-- At a line boundary the wipe that is due begins; one serves all that wait. -/
def sendWipes (s : State) (p : Nat) : State :=
  let q := getPnl s p
  if q.writing.isSome || q.wiping.isSome || q.wipes.isEmpty then s
  else modPnl s p fun q => { q with
    wipes := [], wiping := some (s.now + frameFc s p 36, q.wipes), frame := wipeFrame }

/-- A wipe has been sent: its CLEARs complete. -/
def wipeDone (s : State) (p : Nat) : State :=
  match (getPnl s p).wiping with
  | some (e, l) =>
    if s.now < e then s
    else sendWipes (settleJobs (l.foldl (fun s r => completeOpt s r stDone)
      (wipeShadows (modPnl s p fun q => { q with wiping := none }) p)) p) p
  | none => s

/-! ### Enabling -/

/-- The points' temperatures rise strictly (R400). -/
def pointsRise (s : State) (p : Nat) : Bool :=
  (List.range 7).all fun k => decide (rget s R.PNL_VLCD_T_POINT p k < rget s R.PNL_VLCD_T_POINT p (k + 1))

/-- The first condition of R405 that fails, as its ERR code. -/
def pnlError (s : State) (p : Nat) : Nat :=
  let w := pnlWidth s p
  let h := pnlHeight s p
  if w < 64 ∨ 480 < w ∨ w % 16 ≠ 0 ∨ h < 16 ∨ 320 < h then 1
  else if !pointsRise s p then 2
  else if !rbit s R.PNL_CTRL_PWR_EN p then 3
  else 0

/-- PNL_ENABLE: the store is emptied and a wipe sent; a line write still in progress finishes first. -/
def pnlEnable (s : State) (p : Nat) : State :=
  if pnlOn s p then s
  else
    let s1 := rset s R.PNL_CTRL_ERR (pnlError s p) p
    if pnlError s p ≠ 0 then s1
    else panelView (sendWipes (rset (modPnl s1 p fun q => { q with
      lines := [], last := none, jobs := [], wipes := [none] }) R.PNL_CTRL_EN 1 p) p) p

/-! ### Requests (R397) -/

/-- Pixels of a source line, 4 bits each, bit 3 ignored. -/
def sourceLine (w : Nat) (bs : List Nat) : List Nat :=
  (List.range w).map fun k => bs.getD (k / 2) 0 / 16 ^ (k % 2) % 8

/-- One line of an UPDATE enters the store. -/
def updateLine (s : State) (p : Nat) (r : Ref) (force blanked : Bool) (n : Nat) (px : List Nat) : State :=
  let w := pnlWidth s p
  let l := getLine s p n
  let s1 := takeOver s p l.source
  let busy := match (getPnl s p).writing with
    | some x => x.line == n && !wipeOpen s p
    | none => false
  let same := lineCrc w px == shadowOf s p l
  let l1 := { l with
    content := px, source := if blanked then none else some r
    forced := if force then l.forced ++ [if blanked then ghostRef else r] else l.forced
    owner := if blanked || (same && !force && l.forced.isEmpty && !busy) then none else some r }
  let s2 := setLine s1 p n l1
  if same then rinc s2 R.PNL_COUNTS_SKIPPED 1 p else s2

/-- UPDATE; `src` are the bytes from the source address on. -/
def pnlUpdate (s : State) (r : Ref) (d : Desc) (src : List Nat) : State :=
  let p := d.classWord % 2
  let first := d.word 0x18 % 512
  let n := d.word 0x18 / 65536 % 512
  let stride := d.word 0x1C % 65536
  if n = 0 ∨ pnlHeight s p < first + n ∨ stride < pnlWidth s p / 2 then complete s r stRejectFormat 0x01F0
  else if !pnlOn s p then complete s r stRejectState 0x02F0
  else
    let blanked := blankWanted s p
    let force := bitOf (d.word 0x20) 0
    let s1 := modPnl s p fun q => { q with jobs := if blanked then q.jobs else q.jobs ++ [⟨r, 0, false⟩] }
    let s2 := (List.range n).foldl (fun s k =>
      updateLine s p r force blanked (first + k) (sourceLine (pnlWidth s p) (src.drop (k * stride)))) s1
    let s3 := if blanked then complete s2 r stDone 1024 else s2
    panelView (settleJobs s3 p) p

/-- CLEAR. -/
def pnlClear (s : State) (r : Ref) (d : Desc) : State :=
  let p := d.classWord % 2
  if !pnlOn s p then complete s r stRejectState 0x02F0
  else
    let w := pnlWidth s p
    let s1 := modPnl s p fun q => { q with
      lines := q.lines.map fun x => (x.1, { x.2 with content := zeroLine w, owner := none, source := none, forced := [] }),
      jobs := q.jobs.map fun j => { j with takenOver := true }, wipes := q.wipes ++ [some r] }
    panelView (sendWipes (settleJobs s1 p) p) p

/-! ### Line writes (R396, R401) -/

/-- The pending line written next. -/
def nextLine (s : State) (p : Nat) : Option Nat :=
  let l := pendingLines s p
  match (getPnl s p).last with
  | some k => match l.find? fun n => decide (k < n) with
    | some n => some n
    | none => l.head?
  | none => l.head?

/-- LINE_WRITE_START. -/
def lineStart (s : State) (p : Nat) : State :=
  let q := getPnl s p
  if !pnlOn s p || q.writing.isSome || q.wiping.isSome || blankWanted s p || !vlcdSettled s p ||
      decide (s.aoc.power ≠ 0 ∧ s.aoc.power ≠ 1) then s
  else
    match nextLine s p with
    | none => s
    | some n =>
      let l := getLine s p n
      let s1 := setLine s p n { l with forced := [] }
      let s2 := modPnl s1 p fun q => { q with
        writing := some ⟨n, l.content, l.source, s.now + lineFc s p⟩, frame := lineFrame (pnlWidth s p) n l.content }
      panelView (rset s2 R.PNL_STATUS_BAND q.band p) p

/-- PINV changes level. -/
def pinvChange (s : State) (p : Nat) : State := modPnl s p fun q => { q with pinv := !q.pinv, vcomDue := false }

/-- LINE_WRITE_DONE: the shadow takes the buffer's checksum. It ends a wipe as well (DESIGN CHOICE, log entry 188; unsafe). -/
def lineDone (s : State) (p : Nat) : State :=
  let q := getPnl s p
  match q.writing with
  | none => if q.wiping.isSome then panelView (wipeDone s p) p else s
  | some x =>
    if s.now < x.ends then s
    else
      let w := pnlWidth s p
      let l := getLine s p x.line
      let crc := lineCrc w x.content
      let l1 := { l with shown := x.content, shadow := crc, owner := if lineCrc w l.content = crc ∧ l.forced = [] ∧ !wipeOpen s p then none else l.owner }
      let s1 := modPnl (setLine s p x.line l1) p fun q => { q with
        writing := none, last := some x.line,
        jobs := q.jobs.map fun j => if some j.ref = x.source then { j with written := j.written + 1 } else j }
      let s2 := if q.vcomDue then pinvChange s1 p else s1
      panelView (sendWipes (settleJobs (rinc s2 R.PNL_COUNTS_WRITTEN 1 p) p) p) p

/-! ### Contrast voltage, common electrode, crack loop (R400–R403) -/

/-- Point k of the table: temperature in °C and voltage in 10 mV. -/
def vlcdT (s : State) (p k : Nat) : Int := (rget s R.PNL_VLCD_T_POINT p k : Int) - 50
def vlcdV (s : State) (p k : Nat) : Nat := rval s R.PNL_VLCD_V_POINT p k

/-- Band and target for a temperature; the interpolated voltage is rounded to 10 mV (DEDUCED, log entry
92; unsafe). -/
def vlcdTarget (s : State) (p : Nat) (t : Int) : Nat × Nat :=
  if t < vlcdT s p 0 then (0, vlcdV s p 0)
  else if vlcdT s p 7 ≤ t then (7, vlcdV s p 7)
  else
    match (List.range 7).find? fun k => decide (vlcdT s p k ≤ t ∧ t < vlcdT s p (k + 1)) with
    | some k =>
      let v0 : Int := vlcdV s p k
      let v1 : Int := vlcdV s p (k + 1)
      let dt := vlcdT s p (k + 1) - vlcdT s p k
      (k, (v0 + roundHalfAway ((v1 - v0) * (t - vlcdT s p k)) dt.toNat).toNat)
    | none => (7, vlcdV s p 7)

/-- PNL_TEMP_SAMPLE: TSNS in °C, none where it is open or shorted, and the housing temperature. -/
def tempSample (s : State) (p : Nat) (tsns : Option Int) (housing : Int) : State :=
  let due := match (getPnl s p).tempAt with
    | some a => decide (a + 100 * fcMs ≤ s.now)
    | none => true
  if !due then s
  else
    let t := match tsns with
      | some v => if rbit s R.PNL_CTRL_TSRC p then housing else v
      | none => housing
    let b := vlcdTarget s p t
    let was := rbit s R.PNL_STATUS_TSNS_FAULT p
    let s1 := rset (modPnl s p fun q => { q with tempAt := some s.now, band := b.1, target := b.2 }) R.PNL_TEMP_TEMP
      (clampInt 0 255 (t + 50)).toNat p
    let s2 := rsetB s1 R.PNL_STATUS_TSNS_FAULT tsns.isNone p
    panelView (if tsns.isNone && !was then raiseEv s2 evPanelTsnsFault p else s2) p

/-- Changes of PINV per second: VCOM_HZ, in PARK LP_VCOM_HZ. -/
def vcomHz (s : State) (p : Nat) : Nat :=
  if s.aoc.power = 2 then rval s R.PNL_TIMING_LP_VCOM_HZ p else rval s R.PNL_TIMING_VCOM_HZ p

/-- An instant of PINV's grid of module time falls in this fc. -/
def vcomInstant (s : State) (p : Nat) : Bool :=
  timeAt s s.now * vcomHz s p / 1000000000 != timeAt s (s.now - 1) * vcomHz s p / 1000000000

/-- VCOM_TOGGLE: PINV changes at each instant of its grid of module time; a change due during a write is delayed to its
end. -/
def vcomToggle (s : State) (p : Nat) : State :=
  let q := getPnl s p
  if !pnlOn s p || !rbit s R.PNL_CTRL_PWR_EN p || !vcomInstant s p || q.vcomAt == some s.now then s
  else
    let s1 := modPnl s p fun q => { q with vcomAt := some s.now }
    if q.writing.isSome then modPnl s1 p fun q => { q with vcomDue := true } else pinvChange s1 p

/-- CRACK_MEASURE. -/
def crackMeasure (s : State) (p ohm : Nat) : State :=
  let q := getPnl s p
  let due := match q.crackAt with
    | some a => decide (a + fcSec ≤ s.now)
    | none => true
  if !due then s
  else
    let above := decide (10 * rval s R.PNL_CRACK_CRACK_OHM p < ohm)
    let s1 := rset (modPnl s p fun q => { q with
        crackAt := some s.now, high := if above then q.high + 1 else 0, low := if above then 0 else q.low + 1 })
      R.PNL_CRACK_LOOP_OHM (min ohm 65535) p
    if above ∧ 1 ≤ q.high ∧ !rbit s R.PNL_CRACK_PANEL_CRACK p then
      panelView (raiseEv (rset s1 R.PNL_CRACK_PANEL_CRACK 1 p) evPanelCrackEvent p) p
    else s1

/-- PANEL_CRACK_CLEAR: a write of 1 takes effect only after two consecutive readings at or below CRACK_OHM. -/
def crackClear (s : State) (p : Nat) : State :=
  if 2 ≤ (getPnl s p).low then panelView (rset s R.PNL_CRACK_PANEL_CRACK 0 p) p else s

/-! ### Aborts and the end of a port's work -/

/-- An aborted UPDATE's lines take back what their shadow stands for (R399); an aborted CLEAR sends no wipe, but one being
sent is sent to its end. -/
def stopPanelJob (s : State) (p : Nat) (r : Ref) : State :=
  let busy := match (getPnl s p).writing with
    | some x => some x.line
    | none => none
  let s1 := modPnl s p fun q => { q with
    jobs := q.jobs.filter fun j => j.ref != r, wipes := q.wipes.filter (· != some r)
    wiping := q.wiping.map fun x => (x.1, x.2.filter (· != some r))
    lines := q.lines.map fun x =>
      if x.2.owner = some r then
        (x.1, { x.2 with
          content := if busy = some x.1 then x.2.content else shownOf s p x.2
          owner := none, forced := x.2.forced.filter (· != r) })
      else x }
  panelView (modPnl s1 p (forgetJobs [r])) p

/-- An accepted abort of a panel descriptor. -/
def abortPanelJob (s : State) (p : Nat) (r : Ref) : State :=
  abortReq s r fun s => complete (stopPanelJob s p r) r stAborted

/-- PNL_DISABLE: a line in its write finishes; the pending set is discarded. -/
def pnlDisable (s : State) (p : Nat) : State :=
  if !pnlOn s p then s
  else
    let mine := s.reqs.filter fun q => match q.desc with
      | some d => d.cls == 8 && d.classWord % 2 == p
      | none => false
    let s1 := mine.foldl (fun s q => abortPanelJob s p q.ref) (rset s R.PNL_CTRL_EN 0 p)
    let held := fun (n : Nat) (l : PnlLine) => match (getPnl s p).writing with
      | some w => if w.line = n then w.content else shownOf s1 p l
      | none => shownOf s1 p l
    panelView (modPnl s1 p fun q => { q with
      wipes := [], jobs := [], writing := q.writing.map fun w => { w with source := none }
      lines := q.lines.map fun x => (x.1, { x.2 with content := held x.1 x.2, owner := none, source := none, forced := [] }) }) p

/-- PANEL_SUPPLY_FAULT: the port sets PWR_EN and EN to 0. -/
def pnlSupplyFault (s : State) (p : Nat) : State :=
  if !rbit s R.PNL_CTRL_PWR_EN p then s
  else panelView (raiseEv (rset (pnlDisable s p) R.PNL_CTRL_PWR_EN 0 p) evPanelSupplyFault p) p

/-- The port before the module enters a state without it: PEN and PINV low, VDD and VLCD off (R402). -/
def panelDark (s : State) (p : Nat) : State :=
  vlcdTo (rset (rset (modPnl s p fun q => { q with pinv := false, vcomDue := false, writing := none, wiping := none, vdd := false })
    R.PNL_STATUS_BLANKED 1 p) R.PNL_STATUS_WRITING 0 p) p 0

/-! ### Commands -/

/-- PNL_ENABLE. -/
def execPnlEnable (t : Fc) (port : Fin 2) (s : State) : Out := atFabric t (fun s => pnlEnable s port) s

/-- PNL_DISABLE. -/
def execPnlDisable (t : Fc) (port : Fin 2) (s : State) : Out := atFabric t (fun s => pnlDisable s port) s

/-- A port takes its descriptors in fetch order across all class-0x8 rings (R397): this one is the first held. -/
def panelServes (s : State) (r : Ref) : Bool :=
  let port := fun (q : Req) => q.desc.map fun d => d.classWord % 2
  match findReq s r with
  | some x => ((heldReqs s 8).find? fun q => port q == port x).map Req.ref == some r
  | none => false

/-- UPDATE. -/
def execUpdate (t : Fc) (r : Ref) (src : List Nat) (s : State) : Out :=
  atFabric t (fun s => if panelServes s r then withDesc r 8 1 (fun d s => pnlUpdate s r d src) s else s) s

/-- PNL_CLEAR. -/
def execPnlClear (t : Fc) (r : Ref) (s : State) : Out :=
  atFabric t (fun s => if panelServes s r then withDesc r 8 2 (fun d s => pnlClear s r d) s else s) s

/-- LINE_WRITE_START. -/
def execLineWriteStart (t : Fc) (port : Fin 2) (s : State) : Out := atFabric t (fun s => lineStart s port) s

/-- LINE_WRITE_DONE. -/
def execLineWriteDone (t : Fc) (port : Fin 2) (s : State) : Out := atPanel t port (fun s => lineDone s port) s

/-- PNL_TEMP_SAMPLE. -/
def execPnlTempSample (t : Fc) (port : Fin 2) (tsns : Option Int) (housing : Int) (s : State) : Out :=
  atPanel t port (fun s => tempSample s port tsns housing) s

/-- VCOM_TOGGLE. -/
def execVcomToggle (t : Fc) (port : Fin 2) (s : State) : Out := atPanel t port (fun s => vcomToggle s port) s

/-- CRACK_MEASURE. -/
def execCrackMeasure (t : Fc) (port : Fin 2) (ohm : Nat) (s : State) : Out :=
  atPanel t port (fun s => crackMeasure s port ohm) s

/-- PANEL_CRACK_CLEAR. -/
def execPanelCrackClear (t : Fc) (port : Fin 2) (s : State) : Out := atFabric t (fun s => crackClear s port) s

/-- PANEL_SUPPLY_FAULT. -/
def execPanelSupplyFault (t : Fc) (port : Fin 2) (s : State) : Out :=
  atPanel t port (fun s => pnlSupplyFault s port) s

end Sys2Proof.Machine
end

