-- ==== Sys2Proof/Machine/Rings.lean ====
section
/-! DEFINITION. Submission and completion rings, doorbells, descriptor fetch and the till (R55–R76). What an abort
does to a consumer's work stands in `Aborts.lean`, after the consumers. -/

namespace Sys2Proof.Machine

/-! ### Rings -/

/-- Entry count of a submission ring and of a completion ring (R55). -/
def ringSize (s : State) (n : Nat) : Nat := 2 ^ rval s R.RING_CFG_SIZE_LOG2 0 n
def cqSize (s : State) (m : Nat) : Nat := 2 ^ rval s R.CQ_CFG_SIZE_LOG2 0 m

/-- The completion ring a ring is bound to. -/
def ringCq (s : State) (n : Nat) : Nat := rget s R.RING_CFG_CQ 0 n

def ringEnabled (s : State) (n : Nat) : Bool := rbit s R.RING_CTRL_ENABLE 0 n
def cqEnabled (s : State) (m : Nat) : Bool := rbit s R.CQ_CTRL_ENABLE 0 m

/-- Outstanding descriptors of a ring (RING_COUNT.OUTSTANDING). -/
def ringCount (s : State) (n : Nat) : Nat := (s.reqs.filter fun q => q.ring == n).length

/-- RING_CTRL.IDLE. -/
def ringIdle (s : State) (n : Nat) : Bool := !(s.reqs.any fun q => q.ring == n)

/-- Ring class codes that are defined (R56). -/
def classDefined (c : Nat) : Bool := decide (1 ≤ c ∧ c ≤ 0xB)

/-- The opcodes of each class (R90, R174, R208, R326–R328, R332, R346, R387, R397, R434, R308, R490). -/
def classOps : Nat → List Nat
  | 0x1 => [1, 2, 3]
  | 0x2 => [1, 2, 3, 4]
  | 0x3 => [1, 2]
  | 0x4 => [1, 2, 3]
  | 0x5 => [1]
  | 0x6 => [1]
  | 0x7 => [1, 2, 3, 4]
  | 0x8 => [1, 2]
  | 0x9 => [1, 2, 3, 4, 5, 6, 7]
  | 0xA => [1, 2, 3]
  | 0xB => [0x20, 0x21, 0x30, 0x31, 0x40, 0x50, 0x51, 0x60, 0x61, 0x62, 0x64, 0x65, 0x70, 0x80, 0x81, 0x82, 0x90]
  | _ => []

/-- The classes whose completions carry a row number (R56). -/
def classIsRow (c : Nat) : Bool := decide (1 ≤ c ∧ c ≤ 3)

/-- The first header check of R67 that a descriptor fails, as its detail value. -/
def headerError (d : Desc) (phase : Bool) (cls : Nat) : Option Nat :=
  if d.phase ≠ phase then some 1
  else if d.cls ≠ cls then some 2
  else if d.version ≠ 1 then some 3
  else if d.reserved ≠ 0 then some 4
  else if !(classOps cls).contains d.op then some 5
  else none

/-- RING_ENABLE: a write of 1 to ENABLE (R58, R59). -/
def ringEnable (s : State) (n : Nat) : State :=
  if ringEnabled s n then s
  else if ringIdle s n && classDefined (rget s R.RING_CFG_CLASS 0 n) && cqEnabled s (ringCq s n) &&
      (rget s R.CQ_CFG_HOST 0 (ringCq s n) == rget s R.RING_CFG_HOST 0 n) then
    let s1 := rset (rset s R.RING_HEAD_INDEX 0 0 n) R.RING_HEAD_PHASE 1 0 n
    let s2 := rset (rset s1 R.RING_TAIL_INDEX 0 0 n) R.RING_TAIL_PHASE 1 0 n
    let s3 := rset (rset s2 R.RING_NOOP_ABORT_NOOP 0 0 n) R.RING_NOOP_DB_DISCARD 0 0 n
    rset (rset (rset s3 R.RING_CTRL_ERROR 0 0 n) R.RING_CTRL_ERR_CODE 0 0 n) R.RING_CTRL_ENABLE 1 0 n
  else rset s R.RING_CTRL_ERR_CODE 4 0 n

/-- CQ_ENABLE: a change of ENABLE from 0 to 1 (R60). Entries that were unsignalled before it no longer count towards an
interrupt (DESIGN CHOICE, log entry 169; unsafe). -/
def cqEnable (s : State) (m : Nat) : State :=
  if cqEnabled s m then s
  else
    let s1 := rset (rset s R.CQ_WRITE_INDEX 0 0 m) R.CQ_WRITE_PHASE 1 0 m
    let s2 := rset (rset s1 R.CQ_HEAD_INDEX 0 0 m) R.CQ_HEAD_PHASE 1 0 m
    let s3 := rset s2 R.CQ_FREE_FREE (cqSize s m) 0 m
    rset { s3 with cqIrq := tblErase s3.cqIrq m } R.CQ_CTRL_ENABLE 1 0 m

/-- CQ_DISABLE: a write of 0 to ENABLE, without effect while an enabled ring is bound to it (R60). -/
def cqDisable (s : State) (m : Nat) : State :=
  if (List.range 256).any fun n => ringEnabled s n && ringCq s n == m then s
  else rset s R.CQ_CTRL_ENABLE 0 0 m

/-- The ring sets ERROR with a cause (R57). -/
def ringError (s : State) (n code : Nat) : State :=
  rset (rset s R.RING_CTRL_ERROR 1 0 n) R.RING_CTRL_ERR_CODE code 0 n

/-- The positions a tail doorbell submits, from the last accepted tail on. -/
def submitFrom (n pos d : Nat) (ring : Nat) : List Req :=
  (List.range d).map fun k => ⟨ring, posIndex n (pos + k), 0, posPhase n (pos + k) == 1, none, .waiting, 0, none⟩

/-- The descriptors of the slot that are outstanding. -/
def sameSlot (s : State) (n idx : Nat) : List Req := s.reqs.filter fun q => q.ring == n && q.slot == idx

/-- A submitted descriptor with a name that no outstanding descriptor of its slot has (R63). -/
def nameReq (s : State) (q : Req) : Req :=
  let used := (sameSlot s q.ring q.slot).map (·.pass)
  { q with pass := ((List.range (used.length + 1)).find? fun k => !used.contains k).getD 0 }

/-- TAIL_DB (R62, R63, R74): `host` is the path the write came by. -/
def tailDoorbell (s : State) (n idx ph : Nat) (host : Bool) : State :=
  let k := ringSize s n
  let discard := rinc s R.RING_NOOP_DB_DISCARD 1 0 n
  if rbit s R.RING_CFG_HOST 0 n ≠ host then discard
  else if !ringEnabled s n then discard
  else if rbit s R.RING_CTRL_ERROR 0 n then discard
  else if k ≤ idx then ringError discard n 2
  else
    let p := ringPos k (rget s R.RING_TAIL_INDEX 0 n) (rget s R.RING_TAIL_PHASE 0 n)
    let d := ringDist k p (ringPos k idx ph)
    if k < ringCount s n + d then ringError discard n 1
    else
      let s1 := { s with reqs := s.reqs ++ (submitFrom k p d n).map (nameReq s) }
      rset (rset s1 R.RING_TAIL_INDEX idx 0 n) R.RING_TAIL_PHASE ph 0 n

/-- HEAD_DB (R66). One for a disabled ring is discarded (DESIGN CHOICE, log entry 163; unsafe). One by the wrong path has no effect, and no counter of a completion ring counts it: DB_DISCARD, which
R74 names, is a field of the submission rings only (DEDUCED, log entry 122; unsafe). -/
def headDoorbell (s : State) (m idx ph : Nat) (host : Bool) : State :=
  let k := cqSize s m
  if rbit s R.CQ_CFG_HOST 0 m ≠ host ∨ !cqEnabled s m ∨ k ≤ idx then s
  else
    let h := ringPos k (rget s R.CQ_HEAD_INDEX 0 m) (rget s R.CQ_HEAD_PHASE 0 m)
    let w := ringPos k (rget s R.CQ_WRITE_INDEX 0 m) (rget s R.CQ_WRITE_PHASE 0 m)
    let d := ringDist k h (ringPos k idx ph)
    if ringDist k h w < d then s
    else
      let s1 := rset (rset s R.CQ_HEAD_INDEX idx 0 m) R.CQ_HEAD_PHASE ph 0 m
      rset s1 R.CQ_FREE_FREE (rget s R.CQ_FREE_FREE 0 m + d) 0 m

/-- The next descriptor of a ring to be fetched: the first submitted one not yet fetched. -/
def nextWaiting (s : State) (n : Nat) : Option Req :=
  s.reqs.find? fun q => q.ring == n && decide (q.stage = .waiting)

/-- Every earlier descriptor of the ring has a till sequence number (R64). -/
def fenceClear (s : State) (r : Req) : Bool :=
  let earlier := (s.reqs.filter fun q => q.ring == r.ring).takeWhile fun q => q.ref != r.ref
  earlier.all fun q => match q.stage with
    | .sequenced _ _ _ => true
    | _ => false

/-- The fetch moves RING_HEAD past a slot and reserves a slot of the completion ring (R64). -/
def fetchTake (s : State) (n : Nat) : State :=
  let k := ringSize s n
  let p := ringPos k (rget s R.RING_HEAD_INDEX 0 n) (rget s R.RING_HEAD_PHASE 0 n) + 1
  let s1 := rset (rset s R.RING_HEAD_INDEX (posIndex k p) 0 n) R.RING_HEAD_PHASE (posPhase k p) 0 n
  rset s1 R.CQ_FREE_FREE (rget s R.CQ_FREE_FREE 0 (ringCq s n) - 1) 0 (ringCq s n)

/-- The abort of a camera job that was submitted before EN of its port was written 0 (R324). -/
def portAbort (s : State) (r : Ref) (d : Desc) : Option AbortMark :=
  if d.cls = 4 ∧ rget s R.RING_CFG_CLASS 0 r.ring = 4 then
    (s.vis.offs.find? fun x => x.1 == r && x.2.1 == d.classWord % 4).map (·.2.2)
  else none

/-- DESCRIPTOR_FETCH of ring `n`, with the descriptor that the module reads from host memory; `fault` where the read
fails. A descriptor aborted before its fetch waits for its turn and is neither checked nor passed on, and its row is
that in which the abort was accepted (R69, R71: DEDUCED, log entry 12); so too a camera job whose port was disabled before
(R324); nothing of it is read from the memory of a ring
that is disabled by then (R55). A header error completes through the service requester (R67). At entry to PARK, DEEP or OFF nothing is fetched (R413). -/
def fetchDesc (s : State) (n : Nat) (d : Desc) (fault : Bool) : State :=
  if s.aoc.entry.isSome then s
  else match nextWaiting s n with
  | none => s
  | some q =>
    let r := q.ref
    if rget s R.CQ_FREE_FREE 0 (ringCq s n) = 0 ∨ !cqEnabled s (ringCq s n) then s
    else if q.aborted.isSome then
      if ringEnabled s n && d.fence && !fenceClear s q then s else
      let s1 := updReq (fetchTake s n) r fun q => { q with desc := if ringEnabled s n then some d else none }
      complete s1 r stAborted 0 (if classIsRow (rget s R.RING_CFG_CLASS 0 n) then q.aborted.map (·.row) else none)
    else if !ringEnabled s n then s
    else if fault then ringError s n 3
    else if d.fence && !fenceClear s q then s
    else
      let s0 := { fetchTake s n with fetches := s.fetches + 1 }
      let s1 := updReq s0 r fun q => { q with desc := some d, stage := .held, order := s0.fetches }
      match headerError d q.phase (rget s R.RING_CFG_CLASS 0 n) with
      | some e => complete s1 r stRejectFormat e
          (if classIsRow (rget s R.RING_CFG_CLASS 0 n) then some (rowHere s) else none)
      | none =>
        -- a drive or switch command that names no channel reaches no bank (R177, R179, R210)
        if (d.cls = 2 ∨ d.cls = 3) ∧ 95 < d.classWord % 128 then
          complete s1 r stRejectFormat (if d.cls = 2 then 0x0160 else 0x0170) (some (rowHere s))
        else s1

/-- The abort of a camera job that was submitted before EN of its port was written 0 shows when it is fetched (R324). -/
def portMark (s : State) (n : Nat) (d : Desc) (fault : Bool) : State :=
  match s.vis.offs, nextWaiting s n with
  | [], _ => s
  | _, none => s
  | l, some q =>
    if ringEnabled s n && !fault && d.cls == 4 then
      match l.find? fun x => x.1 == q.ref && x.2.1 == d.classWord % 4 with
      | some x => updReq s q.ref fun q => { q with aborted := q.aborted.orElse fun _ => some x.2.2 }
      | none => s
    else s

/-- Such marks are kept for descriptors that still wait to be fetched. -/
def dropMarks (s : State) : State :=
  let l := s.vis.offs.filter fun x => s.reqs.any fun q => q.ref == x.1 && decide (q.stage = .waiting)
  if s.vis.offs.isEmpty then s else { s with vis := { s.vis with offs := l } }

/-! ### The till -/

/-- The till flush of a row starts in the present fc, though its command still waits. -/
def tillFlushNow (s : State) : Bool :=
  s.tke.committed && !s.tke.flushed && s.pending.any fun c => match c with
    | .tillFlush t _ => t == s.now
    | _ => false

/-- Masks the service requester during a till flush, and while 64 or fewer output entries are free (R38). The flush masks
it in the whole fc of its start; what lifts the mask, and a want of free entries, act from the next fc on, so that the
grant of an fc stands whatever the order in it (R5; DEDUCED, log entry 164; unsafe). -/
def tillMask (s : State) : State :=
  let flush := decide (0 < s.till.flushLeft)
  let begins := flush || tillFlushNow s
  let m := flush || decide (rget s R.TIL_QUEUE_FREE ≤ 64)
  let s1 := tillTo s s.now
  let a := getArb s1 0
  rsetB (arbTickets (setArb s1 0 { a with
    masked := if begins then [svc] else a.masked, flushMask := begins || a.flushMask,
    maskNext := if m then [svc] else [], flushNext := flush }) 0) R.TIL_QUEUE_SERVICE_MASKED m

/-- Gives a posted completion its sequence number (R68). A completion sequenced in the fc of its abort stands as the
consumer posted it (R71: S ≤ A). -/
def seqCompl (s : State) (r : Ref) : State :=
  match findReq s r with
  | some q =>
    match q.stage with
    | .posted c =>
      let n := rget s R.TIL_SEQ_NEXT_SEQ
      let c := match q.aborted with
        | some a => if s.now ≤ a.at_ then a.natural.getD c else c
        | none => c
      let time := match c.row with
        | some k => k
        | none => moduleTime s
      rwrap (updReq s r fun q => { q with stage := .sequenced n c time }) R.TIL_SEQ_NEXT_SEQ
    | _ => s
  | none => s

/-- The till accepts a record: one number for each completion it carries, in order; a row record takes one further
number for itself (R68). A record of the service requester is its one completion and takes no further number, as the
numbers 0x0004_1A2C and 0x0004_1A2D of the example under R72 have it (DEDUCED, log entry 120; unsafe). -/
def tillTake (s : State) (r : TillRec) : State :=
  let s1 := r.compls.foldl seqCompl s
  let s2 := if r.rowRec then rwrap s1 R.TIL_SEQ_NEXT_SEQ else s1
  { s2 with till := { s2.till with
      accepted := s2.till.accepted ++ [(s2.now, r)],
      flushLeft := if r.rowRec then s2.till.flushLeft - 1 else s2.till.flushLeft } }

/-- The first record posted by a producer. -/
def firstPosted (s : State) (p : Nat) : Option TillRec := s.till.posted.find? fun r => r.prod == p

/-- TILL_ACCEPT: the till's arbiter grants the highest-ranked producer with a posted record, and the till accepts
that record in the cycle of the grant (R38, R68). -/
def tillAccept (s0 : State) : State :=
  let s := tillMask s0
  let c := s.now
  let s0 := tillTo s c
  let idle := fun p => !((arbNow s0 0).holder.any fun g => g.who == p)
  let s1 := arbRequest s0 0 c (((s.till.posted.map (·.prod)).eraseDups).filter idle)
  match (arbNow s1 0).holder with
  | some g =>
    match firstPosted s1 g.who with
    | some r =>
      if (getArb s1 0).ev.ended then s1
      else
        let s2 := arbRelease s1 0 c
        let s3 := { s2 with till := { s2.till with posted := s2.till.posted.erase r } }
        tillMask (tillTake s3 r)
    | none => s1
  | none => s1

/-- The entries a record takes in the output queue: one for each completion, and one for a row record itself. -/
def outEntries (r : TillRec) : List OutEntry :=
  r.compls.map OutEntry.completion ++ if r.rowRec then [OutEntry.plain r.prod] else []

/-- TILL_OUTPUT_WRITE: the oldest accepted record is written to the output queue 8 fc after acceptance (R37, R39). A
record of more entries than are free is written all the same, and FREE reads 0 (DESIGN CHOICE, log entry 165; unsafe). -/
def tillOutput (s0 : State) : State :=
  let s := tillTo s0 s0.now
  match s.till.accepted with
  | (at_, r) :: rest =>
    if at_ + 8 ≤ s.now then
      let es := outEntries r
      tillMask (rset { s with till := { s.till with accepted := rest, outQ := s.till.outQ ++ es } } R.TIL_QUEUE_FREE
        (rget s R.TIL_QUEUE_FREE - es.length))
    else s
  | [] => s

/-- The abort of a descriptor whose entry is written in fc `n`: one that is registered in an earlier fc; a later one finds
the entry written (R71, R72). -/
def abortedBy (q : Req) (n : Nat) : Bool := q.aborted.any fun a => decide (a.at_ < n)

/-- The status written in fc `n` for a sequenced completion: DONE becomes DONE_ABORT_LATE after an accepted abort (R71). -/
def finalStatus (q : Req) (n : Nat) (c : Compl) : Nat :=
  if abortedBy q n ∧ c.status = stDone then stDoneAbortLate else c.status

/-- The 16 bytes of a completion entry (R69). -/
def complBytes (ring slot seq status detail time : Nat) (isModuleTime : Bool) (phase : Nat) : List Byte :=
  leBytes 4 seq ++ leBytes 1 ring ++ leBytes 1 status ++ leBytes 2 slot ++ leBytes 2 detail ++
    leBytes 6 (time % 2 ^ 46 + 2 ^ 46 * b2n isModuleTime + 2 ^ 47 * phase)

/-- An interrupt is sent. -/
def irqSend (s : State) (k : Nat) : State := { s with irqs := tblSet s.irqs k (tblGetD s.irqs k 0 + 1) }

/-- An MSI-X vector: its message is sent, or its pending bit is set while it is masked (R42, R65; the mask PRESUMED, log
entry 119; unsafe). -/
def msixRaise (s : State) (v : Nat) : State :=
  if rbit s R.MSIX_MASK 0 v then rsetBitAt s R.MSIX_PENDING (v % 32) true 0 (v / 32) else irqSend s (4096 + v)

/-- The mask of a vector is lifted: a pending message is sent. -/
def msixUnmask (s : State) (v : Nat) : State :=
  if bitOf (rget s R.MSIX_PENDING 0 (v / 32)) (v % 32) then
    irqSend (rsetBitAt s R.MSIX_PENDING (v % 32) false 0 (v / 32)) (4096 + v)
  else s

/-- Raises a completion ring's interrupt through VECTOR and restarts the count (R60, R65). A vector above 127 of a ring of
HOST 1 names no table entry and sends nothing (DESIGN CHOICE, log entry 167; unsafe). -/
def cqRaise (s : State) (m : Nat) : State :=
  let v := rget s R.CQ_CFG_VECTOR 0 m
  let s1 := { s with cqIrq := tblSet s.cqIrq m ⟨0, 0⟩ }
  if !rbit s R.CQ_CFG_HOST 0 m then irqSend s1 v else if v < 128 then msixRaise s1 v else s1

/-- Counts a written entry towards the ring's interrupt; the count runs whether or not IRQ_EN is set (R65).
An IRQ_EN set, or a COUNT lowered, when enough entries are unsignalled raises nothing before the next counted entry or
the end of DELAY (DESIGN CHOICE, log entry 168; unsafe). -/
def cqCount (s : State) (m : Nat) (noIrq : Bool) : State :=
  if noIrq then s
  else
    let c := tblGetD s.cqIrq m ⟨0, 0⟩
    let c1 : CqIrq := ⟨c.unsignalled + 1, if c.unsignalled = 0 then s.now else c.firstAt⟩
    let s1 := { s with cqIrq := tblSet s.cqIrq m c1 }
    if rbit s R.CQ_CFG_IRQ_EN 0 m && decide (rval s R.CQ_MOD_COUNT 0 m ≤ c1.unsignalled) then cqRaise s1 m else s1

/-- Writes a completion entry to its ring and ends the descriptor (R65, R69). An entry whose completion ring has been
disabled, while its submission ring was disabled and not yet idle (R59, R60), has nowhere to go and ends its descriptor
unwritten (DESIGN CHOICE, log entry 121; unsafe). Completion ring and class are those that the ring's registers name now,
though they may have been rewritten since the fetch (DESIGN CHOICE, log entry 166; unsafe). -/
def writeCompl (s : State) (r : Ref) : State :=
  match findReq s r with
  | some q =>
    match q.stage with
    | .sequenced seq c time =>
      let s0 := if q.aborted.isSome && !abortedBy q s.now && ringEnabled s r.ring then rinc s R.RING_NOOP_ABORT_NOOP 1 0 r.ring else s
      let s1 := { s0 with reqs := s.reqs.filter fun p => p.ref != r }
      let m := ringCq s r.ring
      if cqEnabled s m then
        let k := cqSize s m
        let idx := rget s R.CQ_WRITE_INDEX 0 m
        let ph := rget s R.CQ_WRITE_PHASE 0 m
        let st := finalStatus q s.now c
        let base := rget s R.CQ_BASE_LO_ADDR_LO 0 m * 4096 + 2 ^ 32 * rget s R.CQ_BASE_HI_ADDR_HI 0 m
        let s2 := hostWrite s1 (rbit s R.CQ_CFG_HOST 0 m) (base + 16 * idx)
          (complBytes r.ring r.slot seq st c.detail time c.row.isNone ph)
        let p := ringPos k idx ph + 1
        let s3 := rset (rset s2 R.CQ_WRITE_INDEX (posIndex k p) 0 m) R.CQ_WRITE_PHASE (posPhase k p) 0 m
        let s4 := if st = stDoneAbortLate then rinc s3 R.TIL_ABORTS_LATE
          else if st = stAborted then rinc s3 R.TIL_ABORTS_ABORTED else s3
        cqCount s4 m (match q.desc with
          | some d => d.noIrq
          | none => false)
      else s1
    | _ => s
  | none => s

/-- Entries without a completion at the front of the output queue leave it at once. -/
def dropPlain : List OutEntry → List OutEntry
  | .plain _ :: t => dropPlain t
  | l => l

/-- COMPLETION_WRITE: the first completion entry of the output queue is handed on, and its place is free again
(R38, R65). -/
def complWrite (s : State) : State :=
  let q := dropPlain s.till.outQ
  let gone := s.till.outQ.length - q.length
  match q with
  | .completion r :: rest =>
    let s1 := rset { s with till := { s.till with outQ := rest } } R.TIL_QUEUE_FREE
      (rget s R.TIL_QUEUE_FREE + gone + 1)
    tillMask (writeCompl s1 r)
  | _ => tillMask (rset { s with till := { s.till with outQ := q } } R.TIL_QUEUE_FREE
      (rget s R.TIL_QUEUE_FREE + gone))

/-- CQ_DELAY_EXPIRY: DELAY microseconds after the first unsignalled entry the interrupt is raised (R65). -/
def cqDelay (s : State) (m : Nat) : State :=
  let c := tblGetD s.cqIrq m ⟨0, 0⟩
  let d := rget s R.CQ_MOD_DELAY 0 m
  if 0 < c.unsignalled ∧ d ≠ 0 ∧ c.firstAt + d * fcUs ≤ s.now ∧ rbit s R.CQ_CFG_IRQ_EN 0 m then cqRaise s m else s

/-! ### Commands -/

/-- RING_ENABLE. -/
def execRingEnable (t : Fc) (ring : Fin 256) (s : State) : Out := atFabric t (fun s => ringEnable s ring) s

/-- CQ_ENABLE. -/
def execCqEnable (t : Fc) (cq : Fin 64) (s : State) : Out := atFabric t (fun s => cqEnable s cq) s

/-- CQ_DISABLE. -/
def execCqDisable (t : Fc) (cq : Fin 64) (s : State) : Out := atFabric t (fun s => cqDisable s cq) s

/-- QUEUE_ENABLE: a write of ENABLE to a queue that the module writes without descriptors. -/
def execQueueEnable (t : Fc) (q : WriteQueue) (on : Bool) (s : State) : Out :=
  atFabric t (fun s => let k := queueOf q; queueEnable s k.1 k.2.1 k.2.2 on) s

/-- QUEUE_HEAD_WRITE. -/
def execQueueHeadWrite (t : Fc) (q : WriteQueue) (idx : Fin 65536) (ph : Fin 2) (s : State) : Out :=
  atFabric t (fun s => let k := queueOf q; queueHead s k.1 k.2.1 k.2.2 idx ph) s

/-- HEAD_DB: a write of four bytes at offset 0x000 of the page 256 + m (R9, R61). -/
def execHeadDb (t : Fc) (cq : Fin 64) (idx : Fin 65536) (ph : Fin 2) (w : DbWrite) (s : State) : Out :=
  atFabric t (onlyIf (w.size == 4) fun s => headDoorbell s cq idx ph w.host) s

/-- DESCRIPTOR_FETCH. -/
def execDescriptorFetch (t : Fc) (ring : Fin 256) (d : Desc) (fault : Bool) (s : State) : Out :=
  atFabric t (fun s => dropMarks (fetchDesc (portMark s ring d fault) ring d fault)) s

/-- TILL_ACCEPT. -/
def execTillAccept (t : Fc) (s : State) : Out := atFabric t tillAccept s

/-- TILL_OUTPUT_WRITE. -/
def execTillOutputWrite (t : Fc) (s : State) : Out := atFabric t tillOutput s

/-- COMPLETION_WRITE. -/
def execCompletionWrite (t : Fc) (s : State) : Out := atFabric t complWrite s

/-- CQ_DELAY_EXPIRY. -/
def execCqDelayExpiry (t : Fc) (cq : Fin 64) (s : State) : Out := atFabric t (fun s => cqDelay s cq) s

end Sys2Proof.Machine
end

