-- ==== Sys2Proof/Machine/DriveBanks.lean ====
section
/-! DEFINITION. Drive banks (R168–R203): channels, profiles, the shared boost switch, shots, movement, diagnostics
and latches. Channels are numbered 0–95; channel `ch` is index `ch % 8` of bank `ch / 8` on plane `ch / 48`. -/

namespace Sys2Proof.Machine

/-! ### Access -/

def getPps (s : State) (p : Nat) : Pps := tblGetD s.pps p Pps.idle
def setPps (s : State) (p : Nat) (v : Pps) : State := { s with pps := tblSet s.pps p v }

/-- Applies an effect at a command's time while the plane's supervisor has power; else only time moves. -/
def atPlane (t : Fc) (plane : Nat) (f : State → State) (s : State) : Out :=
  .next (if (getPps s plane).powered then f (advance s t) else advance s t)

def getDrv (s : State) (ch : Nat) : DrvCh := tblGetD s.drv ch DrvCh.idle
def setDrv (s : State) (ch : Nat) (v : DrvCh) : State := { s with drv := tblSet s.drv ch v }
def modDrv (s : State) (ch : Nat) (f : DrvCh → DrvCh) : State := setDrv s ch (f (getDrv s ch))
def getDbk (s : State) (b : Nat) : DrvBank := tblGetD s.dbk b DrvBank.idle
def setDbk (s : State) (b : Nat) (v : DrvBank) : State := { s with dbk := tblSet s.dbk b v }

/-- A register field of a drive channel. -/
def dget (s : State) (f : Fld) (ch : Nat) : Nat := rget s f (ch / 8) (ch % 8)
def dval (s : State) (f : Fld) (ch : Nat) : Nat := rval s f (ch / 8) (ch % 8)
def dset (s : State) (f : Fld) (v ch : Nat) : State := rset s f v (ch / 8) (ch % 8)
def dbit (s : State) (f : Fld) (ch : Nat) : Bool := rbit s f (ch / 8) (ch % 8)

/-- The channels of a bank. -/
def bankChans (b : Nat) : List Nat := (List.range 8).map (8 * b + ·)

/-- Half a microsecond, the bank's time base (R168). -/
def halfUs : Nat := 200

/-- BOOST_GAP (R169). -/
def boostGap : Nat := 800

/-- PHASE of a channel: 0 OFF, 1 WAIT, 2 BOOST, 3 PEAK, 4 HOLD, 5 PROP, 6 DECAY. -/
def drvPhase (s : State) (ch : Nat) : Nat := dget s R.DBK_CH_STAT_PHASE ch

/-- The HSV is on for a channel of the bank. -/
def hsvOn (s : State) (b : Nat) : Bool := rbit s R.DBK_STATUS_HSV_ON b

/-- The channel holds the HSV. -/
def hasHsv (s : State) (ch : Nat) : Bool := hsvOn s (ch / 8) && rget s R.DBK_STATUS_HSV_CH (ch / 8) == ch % 8

/-- The channel's low side is held open for a sibling's boost (R186). -/
def drvForced (s : State) (ch : Nat) : Bool :=
  hsvOn s (ch / 8) && !hasHsv s ch && (drvPhase s ch == 4 || drvPhase s ch == 5)

/-- The HSB is closed: a channel is in PEAK, HOLD or PROP above 0 mA, whether or not a boost runs beside it (DESIGN
CHOICE, log entry 133; unsafe). -/
def hsbClosed (s : State) (b : Nat) : Bool :=
  (bankChans b).any fun c => drvPhase s c == 3 || drvPhase s c == 4 ||
    (drvPhase s c == 5 && decide (0 < (getDrv s c).propMa))

/-- The high-side node is closed, through the HSB or the HSV. -/
def highSideClosed (s : State) (b : Nat) : Bool := hsvOn s b || hsbClosed s b

/-- The 0.5 µs step of the bank's time base that runs now: steps are counted from the latest commit point of the row, or of
a COMMIT that the plane's supervisor took (R168). -/
def stepNow (s : State) (ch : Nat) : Nat := s.now - (s.now - (getPps s (ch / 48)).gridAt) % halfUs

/-- The low side of a channel is switched at fc `t`. -/
def DrvCh.setLow (c : DrvCh) (b : Bool) (t : Nat) : DrvCh := { c with low := b, openAt := if c.low && !b then t else c.openAt }

/-- Notes that the high side of a bank has opened between two states (R197). -/
def noteHs (s0 : State) (b : Nat) (s : State) : State :=
  if highSideClosed s0 b && !highSideClosed s b then setDbk s b { getDbk s b with hsOpenAt := s.now } else s

/-- Enters a phase at fc `t`; a channel that becomes forced has its low side held open and is marked for the row record
(R186). -/
def setPhaseAt (s : State) (ch ph t : Nat) : State :=
  let s1 := modDrv (dset s R.DBK_CH_STAT_PHASE ph ch) ch fun c =>
    { c with since := t, levelAt := t, phaseWas := drvPhase s ch, diag := (0, 0), forcedDecay := false }
  noteHs s (ch / 8) (if drvForced s1 ch then
    modDrv s1 ch fun c => { c.setLow false t with recForced := true, forcedDecay := true } else s1)

/-- Enters a phase in the step that runs. -/
def setPhase (s : State) (ch ph : Nat) : State := setPhaseAt s ch ph (stepNow s ch)

/-- PHASE as it shows: one that begins with the next step does not show before it. -/
def phaseShown (s : State) (ch : Nat) : Nat :=
  if s.now < (getDrv s ch).since then (getDrv s ch).phaseWas else drvPhase s ch

/-- Channel or bank is latched off (R196, R197). -/
def drvLatched (s : State) (ch : Nat) : Bool := dbit s R.DBK_CH_STAT_LATCHED ch || rbit s R.DBK_STATUS_LATCHED (ch / 8)

/-! ### Completions of profiles (R177, R178) -/

/-- The end time of a started profile; none until OFF (R182, R183). -/
def DrvProf.endAt (p : DrvProf) : Option Nat :=
  match p.start, p.onTime with
  | some t, some n => if p.extOff then none else some (max (t + n) p.extEnd)
  | _, _ => none

/-- DETAIL of a profile's completion. -/
def DrvProf.detail (p : DrvProf) (truncated : Bool) : Nat :=
  p.shift % 1024 + 1024 * b2n p.noMove + 4096 * b2n truncated + 8192 * (p.floorCh.getD 0 % 8)

/-- A profile's descriptor completes DONE or HOLD_FLOOR in the bank's row record. -/
def finishProf (s : State) (ch : Nat) (p : DrvProf) (truncated : Bool) : State :=
  match p.ref with
  | none => s
  | some r => completeRow s (ch / 8) r (if p.floorCh.isSome then stHoldFloor else stDone) (p.detail truncated) p.row

/-! ### Levels in force (R170, R192) -/

/-- A level limited by DBK_DERATE; the second part says that it was. -/
def derated (level limit : Nat) : Nat × Bool := (min level limit, decide (limit < level))

/-- The boost current and the peak current that apply to the channel, and whether DBK_DERATE limits them. -/
def boostLevel (s : State) (ch : Nat) : Nat × Bool :=
  derated (dval s R.DBK_CH_BOOST_I_BOOST_MA ch) (rget s R.DBK_DERATE_BOOST_MA (ch / 8))
def peakLevel (s : State) (ch : Nat) : Nat × Bool :=
  derated (dval s R.DBK_CH_PEAK_I_PEAK_MA ch) (rget s R.DBK_DERATE_PEAK_MA (ch / 8))

/-- Sets CLAMPED where a level of the channel is limited (R170). -/
def noteClamp (s : State) (ch : Nat) : State :=
  if (boostLevel s ch).2 || (peakLevel s ch).2 then dset s R.DBK_CH_STAT_CLAMPED 1 ch else s

/-- Phase of the dither at fc `t`, one period being the fc of a second: it runs on through changes of current and of the
dither itself. -/
def DrvCh.ditherPhase (c : DrvCh) (t : Nat) : Nat := (c.ditherPh + (t - c.ditherAt) * c.ditherHz) % fcSec

/-- The current that a PROP channel regulates its mean to at fc `t`: the commanded one plus a triangle that rises over the
first half of each period, within 0–3,500 mA; no dither at 0 mA. -/
def DrvCh.propTarget (c : DrvCh) (t : Nat) : Nat :=
  if c.propMa = 0 then 0
  else
    let x := c.ditherPhase t
    let up := if 2 * x < fcSec then 2 * x else 2 * (fcSec - x)
    (clampInt 0 3500 ((c.propMa : Int) + (2 * (c.ditherMa * up : Int) - c.ditherMa * fcSec) / (2 * fcSec : Nat))).toNat

/-- The level of a regulated channel. -/
def drvLevel (s : State) (ch t : Nat) : Nat :=
  match drvPhase s ch, (getDrv s ch).prof with
  | 3, _ => (peakLevel s ch).1
  | 4, some p => p.holdMa
  | 5, _ => (getDrv s ch).propTarget t
  | _, _ => 0

/-! ### Movement (R190) -/

/-- A movement result joins those of the next record of opening delay (R190, R455). -/
def noteMove (s : State) (ch : Nat) (step : Option Nat) : State :=
  let m := tblGetD s.hlm.moves ch MoveStats.zero
  let m1 := { m with vbst := m.vbst + dget s R.DBK_CH_LAST_VBST_AT_START ch }
  let m2 := match step with
    | some n => { m1 with
        count := m.count + 1, sum := m.sum + n, least := if m.count = 0 then n else min m.least n,
        greatest := max m.greatest n }
    | none => { m1 with noMove := m.noMove + 1 }
  { s with hlm := { s.hlm with moves := tblSet s.hlm.moves ch m2 } }

/-- Records a movement result. -/
def recordMove (s0 : State) (ch : Nat) (step : Option Nat) : State :=
  let s := noteMove s0 ch step
  let s1 := modDrv s ch fun c => { c with recMove := true, prof := c.prof.map fun p =>
    { p with searched := true, noMove := step.isNone } }
  match step with
  | some n => dset (dset (dset s1 R.DBK_CH_MOVE_MOVE_TIME (min n 8191) ch) R.DBK_CH_MOVE_VALID 1 ch)
      R.DBK_CH_MOVE_NO_MOVE 0 ch
  | none => dset (dset (dset s1 R.DBK_CH_MOVE_MOVE_TIME 0 ch) R.DBK_CH_MOVE_VALID 0 ch) R.DBK_CH_MOVE_NO_MOVE 1 ch

/-- One sample of the movement search, `k` steps after the boost start: the profile, and the step of a dip that the sample
confirms. The samples are those of the bank's filter, whose form the spec does not give (DESIGN CHOICE, log entry 134;
unsafe). -/
def DrvProf.sample (p : DrvProf) (dipMa k ma : Nat) : DrvProf × Option Nat :=
  match p.dip with
  | none =>
    let m := max p.maxMa ma
    ({ p with maxMa := m, dip := if ma + dipMa ≤ m then some (ma, k) else none }, none)
  | some (lo, at_) =>
    if ma < lo then ({ p with dip := some (ma, k) }, none)
    else (p, if 4 * lo + dipMa ≤ 4 * ma then some at_ else none)

/-- The search ends; without a confirmed dip no movement is recorded. -/
def endSearch (s : State) (ch : Nat) : State :=
  match (getDrv s ch).prof with
  | some p => if dbit s R.DBK_CH_CFG_MOVE_EN ch && !p.searched then recordMove s ch none else s
  | none => s

/-- A sample at fc `t` in the search of R190: it confirms a dip, or it ends the search at I_BOOST in BOOST and at I_PEAK
after it; a dip that the last sample confirms counts (DESIGN CHOICE, log entry 134; unsafe). -/
def moveSample (s : State) (ch t ma : Nat) : State :=
  let ph := drvPhase s ch
  match (getDrv s ch).prof with
  | some p =>
    match p.start with
    | some a =>
      let k := (t - a) / halfUs
      if !dbit s R.DBK_CH_CFG_MOVE_EN ch || p.searched || (ph != 2 && ph != 3) ||
          decide (k < dget s R.DBK_CH_MOVE_CFG_BLANK ch) then s
      else
        let r := p.sample (dval s R.DBK_CH_MOVE_CFG_DIP_MA ch) k ma
        let s1 := modDrv s ch fun c => { c with prof := some r.1 }
        match r.2 with
        | some n => recordMove s1 ch (some n)
        | none =>
          if (if ph = 2 then (boostLevel s ch).1 else (peakLevel s ch).1) ≤ ma then recordMove s1 ch none else s1
    | none => s
  | none => s

/-! ### Regulation (R181, R186, R192) -/

/-- Hysteretic regulation: the low side opens at level plus band and closes at level minus band, the band being the larger
of 50 mA and 10 % of the level. -/
def hystLow (low : Bool) (level ma : Nat) : Bool :=
  let band10 := max 500 level
  if 10 * level + band10 ≤ 10 * ma then false else if 10 * ma + band10 ≤ 10 * level then true else low

/-- Fixed-frequency regulation `n` fc after the regulation began, the sample before having come after `n0`: the low side
closes at the start of each period of `khz` and opens at the level, or at 90 % of the period. -/
def fixedLow (low : Bool) (khz level n0 n ma : Nat) : Bool :=
  (low || n * khz / fcMs != n0 * khz / fcMs) && decide (ma < level) && decide (n * khz % fcMs < 9 * fcMs / 10)

/-- Low side of a PROP channel `n` fc into its phase: closed from the start of each PWM period for a time that brings the
mean current to the target; the spec gives no law for that time (DESIGN CHOICE, log entry 135; safe). -/
def propLow (khz target n : Nat) : Bool :=
  decide (0 < target) && decide (n * khz % fcMs < Config.propOnTime target (n * khz / fcMs))

/-- A sibling's boost holds the low side of the channel open at fc `t`; regulation resumes at the step after the HSV
opens (R186). -/
def forcedAt (s : State) (ch t : Nat) : Bool :=
  let b := getDbk s (ch / 8)
  rget s R.DBK_STATUS_HSV_CH (ch / 8) != ch % 8 && (drvPhase s ch == 4 || drvPhase s ch == 5) &&
    decide (b.boostAt ≤ t) && (hsvOn s (ch / 8) || decide (t ≤ b.boostEnd && b.boostAt < b.boostEnd))

/-- The low side of the channel after a sample at fc `t`. -/
def lowAfter (s : State) (ch t ma : Nat) : Bool :=
  let c := getDrv s ch
  let level := drvLevel s ch t
  match drvPhase s ch with
  | 2 => true
  | 3 | 4 =>
    if forcedAt s ch t then false
    else if dbit s R.DBK_CH_CFG_REG ch then
      fixedLow c.low (dval s R.DBK_CH_CFG_REG_KHZ ch) level (c.maAt - c.since) (t - c.since) ma
    else hystLow c.low level ma
  | 5 => if forcedAt s ch t then false else propLow (dval s R.DBK_CH_PROP_PWM_KHZ ch) level (t - c.since)
  | _ => false

/-- The bank takes a sample of the channel's current at fc `t`. -/
def drvSample (s : State) (ch t ma : Nat) : State :=
  let c := getDrv s ch
  if (c.maAt < t ∨ c.maAt = 0) ∧ c.since ≤ t then
    let s1 := moveSample s ch t ma
    modDrv s1 ch fun c => { c.setLow (lowAfter s ch t ma) t with ma := ma, maAt := t }
  else s

/-- The samples of the latest 0.5 µs steps, the last one that of the step at fc `t`. -/
def drvTrace (s : State) (ch t : Nat) : List Nat → State
  | [] => s
  | ma :: rest => drvTrace (drvSample s ch (t - halfUs * rest.length) ma) ch t rest

/-- The channel's current in the present step, where it has been sampled. -/
def maNow (s : State) (ch : Nat) : Option Nat :=
  if (getDrv s ch).maAt = stepNow s ch then some (getDrv s ch).ma else none

/-- Applies an effect on a channel at a command's time, after the current samples that the command brings. -/
def atDrive (t : Fc) (ch : Nat) (trace : List Nat) (f : State → State) (s : State) : Out :=
  atPlane t (ch / 48) (fun s => f (drvTrace s ch (stepNow s ch) trace)) s

/-! ### The boost switch (R184–R186) -/

/-- The HSV opens at fc `t`; it may be granted again after BOOST_GAP. The boost capacitor charges again from there. -/
def releaseHsvAt (s : State) (ch t : Nat) : State :=
  if hasHsv s ch then
    let b := ch / 8
    noteHs s b (rset (setDbk s b { getDbk s b with hsvFrom := t + boostGap, boostEnd := t, vbstAt := t })
      R.DBK_STATUS_HSV_ON 0 b)
  else s

/-- The HSV opens in the step that runs. -/
def releaseHsv (s : State) (ch : Nat) : State := releaseHsvAt s ch (stepNow s ch)

/-- Integer square root of a number below 2^20. -/
def isqrt (n : Nat) : Nat :=
  (List.range 10).foldl (fun r k => if (r + 2 ^ (9 - k)) ^ 2 ≤ n then r + 2 ^ (9 - k) else r) 0

/-- The boost capacitor in 0.1 V after `n` fc of charging from `v` to the setting: the converter's 80 W into 330 µF (R169)
add 4 / 33 of a square of 0.1 V per fc (DESIGN CHOICE, log entry 176; unsafe). -/
def charged (v top n : Nat) : Nat := if top ≤ v then v else min top (isqrt (min (v * v + 4 * n / 33) (top * top)))

/-- What the boost capacitor can hold at a measured voltage in 0.1 V: with ENABLE 0 for 100 ms it is discharged below 30 V
(R193). -/
def vbstHeld (s : State) (b vbst : Nat) : Nat :=
  match (getDbk s b).offFrom with
  | some a => if a + 100 * fcMs ≤ s.now then min vbst 299 else vbst
  | none => vbst

/-- VBST in 0.1 V: as noted last, and while ENABLE is 1 and no boost runs charged to DBK_BOOST_SET since (R193). -/
def vbstNow (s : State) (b : Nat) : Nat :=
  let k := getDbk s b
  let v := vbstHeld s b (rget s R.DBK_VBST_MEAS b)
  if k.offFrom.isSome || hsvOn s b then v else charged v (5 * rval s R.DBK_BOOST_SET_VBST_CODE b) (s.now - k.vbstAt)

/-- VBST is noted in the present fc. -/
def setVbst (s : State) (b v : Nat) : State := setDbk (rset s R.DBK_VBST_MEAS v b) b { getDbk s b with vbstAt := s.now }

/-- A measured VBST. Recovered energy does not raise it beyond 6 V above the setting: the clamp takes the rest (R193). -/
def noteVbst (s : State) (b vbst : Nat) : State :=
  let top := 5 * rval s R.DBK_BOOST_SET_VBST_CODE b + 60
  setVbst s b (vbstHeld s b (if vbstNow s b ≤ top then min vbst top else vbst))

/-- VBST is at or above 90 % of its setting: 0.1 V against half-volt units. -/
def vbstReady (s : State) (b : Nat) : Bool :=
  decide (9 * rval s R.DBK_BOOST_SET_VBST_CODE b ≤ 2 * vbstNow s b)

/-- The boost of channel `ch` starts, whatever VBST (R184, R186, R193). -/
def startBoost (s : State) (ch : Nat) : State :=
  match (getDrv s ch).prof with
  | none => s
  | some p =>
    let b := ch / 8
    let t := stepNow s ch
    let shift := (t - p.reqStart) / halfUs
    let low := !vbstReady s b
    let sv := setVbst s b (vbstNow s b)
    let s0 := setDbk sv b { getDbk sv b with boostAt := t, boostEnd := t }
    let s1 := rset (rset s0 R.DBK_STATUS_HSV_CH (ch % 8) b) R.DBK_STATUS_HSV_ON 1 b
    let s2 := modDrv (setPhase s1 ch 2) ch fun c =>
      { c.setLow true t with prof := some { p with start := some t, shift := shift }, recVbst := c.recVbst || low }
    let s3 := dset (dset (dset s2 R.DBK_CH_LAST_SHIFT shift ch) R.DBK_CH_LAST_VBST_LOW (b2n low) ch)
      R.DBK_CH_LAST_VBST_AT_START (vbstNow s b) ch
    let s4 := noteClamp (rwrap s3 R.DBK_CH_MOVE_SHOTS 1 b (ch % 8)) ch
    let s5 := if low then setOnes s4 R.DBK_C7_BNR_BOOST_NOT_READY (ch % 8) b else s4
    (bankChans b).foldl (fun s k => modDrv s k fun c =>
      if drvForced s k then { c.setLow false t with floorDone := false, recForced := true, forcedDecay := true }
      else { c with floorDone := false }) s5

/-- A waiting request is better than another: earlier requested start, then lower index. -/
def betterReq (a b : Nat × Nat) : Bool := decide (a.1 < b.1) || (a.1 == b.1 && decide (a.2 < b.2))

/-- The waiting request to be granted next (R184). -/
def nextBoost (s : State) (b : Nat) : Option Nat :=
  ((bankChans b).foldl (fun (best : Option (Nat × Nat)) c =>
    match (getDrv s c).prof with
    | some p =>
      if drvPhase s c == 1 && p.requested then
        match best with
        | some x => if betterReq (p.reqStart, c) x then some (p.reqStart, c) else best
        | none => some (p.reqStart, c)
      else best
    | none => best) none).map (·.2)

/-- Grants the HSV if it is available and a request waits. -/
def hsvGrant (s : State) (b : Nat) : State :=
  if hsvOn s b || decide (s.now < (getDbk s b).hsvFrom) then s
  else match nextBoost s b with
    | some c => startBoost s c
    | none => s

/-! ### Profiles (R180–R185) -/

/-- The channel enters DECAY at fc `t`, and its decay path is the one that DECAY chooses (R180, R191). -/
def enterDecayAt (s : State) (ch t : Nat) : State :=
  if drvPhase s ch = 6 then s
  else modDrv (setPhaseAt s ch 6 t) ch fun c =>
    { c.setLow false t with decayMa := c.ma, decayFast := !(ch % 8 == 7 && dbit s R.DBK_CH_CFG_DECAY ch) }

/-- The channel enters DECAY in the step that runs. -/
def enterDecay (s : State) (ch : Nat) : State := enterDecayAt s ch (stepNow s ch)

/-- An abort of a profile that has not completed (R198): its request is withdrawn, or its channel enters DECAY at the next
step, and the HSV opens there. -/
def abortProf (s : State) (ch : Nat) : State :=
  let none_ := fun s => modDrv s ch fun c => { c with prof := none }
  match drvPhase s ch with
  | 2 | 3 =>
    let t := stepNow s ch + halfUs
    enterDecayAt (none_ (releaseHsvAt s ch t)) ch t
  | 1 => setPhase (none_ s) ch 0
  | _ => none_ s

/-- The profile of a channel ends, before or after its peak, whatever its phase: the channel goes to DECAY. -/
def stopProf (s : State) (ch : Nat) : State :=
  let s1 := match (getDrv s ch).prof with
    | some p => finishProf s ch p true
    | none => s
  enterDecay (modDrv (releaseHsv s1 ch) ch fun c => { c with prof := none }) ch

/-- The peak phase has ended: HOLD, and the descriptor completes (R177, R180). -/
def endPeak (s : State) (ch : Nat) : State :=
  let s1 := endSearch s ch
  match (getDrv s1 ch).prof with
  | some p =>
    let s2 := finishProf s1 ch p false
    setPhase (modDrv s2 ch fun c => { c with prof := some { p with ref := none } }) ch 4
  | none => s1

/-- BOOST ends, by current or by T_BOOST: PEAK, or HOLD where T_PEAK is 0 (R180). -/
def endBoost (s : State) (ch : Nat) (byTimeout : Bool) : State :=
  let s0 := if byTimeout then s else endSearch s ch
  let s1 := modDrv (releaseHsv s0 ch) ch fun c => { c with prof := c.prof.map fun p =>
    { p with byTimeout := byTimeout, peakStart := some (stepNow s ch) } }
  if dget s R.DBK_CH_PEAK_T_PEAK_US ch = 0 then endPeak s1 ch else setPhase s1 ch 3

/-- ON_TIME in fc; none for until OFF. -/
def onTimeFc (n : Nat) : Option Nat := if n = 0xFFFFFFFF then none else some (n * fcUs)

/-- A PROFILE command that took effect at fc `at_` (R182, R183). -/
def drvProfile (s : State) (ch delay on hold : Nat) (ref : Option Ref) (row at_ : Nat) : State :=
  let req := at_ + delay * halfUs
  match (getDrv s ch).prof with
  | some p =>
    let q : DrvProf := match onTimeFc on with
      | some n => { p with extEnd := max p.extEnd (req + n) }
      | none => { p with extOff := true }
    let s1 := modDrv s ch fun c => { c with prof := some q }
    match ref with
    | some r => completeRow s1 (ch / 8) r stDone 0x0800 row
    | none => s1
  | none =>
    let lvl := clampNat 100 4000 (if hold = 0 then dval s R.DBK_CH_HOLD_I_HOLD_MA ch else hold)
    let p : DrvProf :=
      { reqStart := req, requested := false, onTime := onTimeFc on, extEnd := 0, extOff := false, start := none,
        peakStart := none, holdMa := lvl, ref := ref, row := row, shift := 0, byTimeout := false, searched := false,
        noMove := false, maxMa := 0, dip := none, floorCh := none }
    modDrv s ch fun c => { c with prof := some p }

/-- A request is dropped with its whole profile (R185). -/
def dropProf (s : State) (ch : Nat) : State :=
  match (getDrv s ch).prof with
  | none => s
  | some p =>
    let s1 := setPhase (modDrv s ch fun c => { c with prof := none }) ch 0
    let s2 := rinc s1 R.DBK_CH_COUNTS_DROPPED 1 (ch / 8) (ch % 8)
    match p.ref with
    | some r => completeRow s2 (ch / 8) r stOverlapDropped (2 * dval s R.DBK_CH_CFG_BOOST_WAIT ch) p.row
    | none => s2

/-- Sets FAULT; DBK_OPEN_LOAD when it becomes 1 or 4. -/
def setDrvFault (s : State) (ch code : Nat) : State :=
  let old := dget s R.DBK_CH_STAT_FAULT ch
  let s1 := dset s R.DBK_CH_STAT_FAULT code ch
  if old ≠ code ∧ (code = 1 ∨ code = 4) then raiseEv s1 evDbkOpenLoad (ch / 8) else s1

/-- The present current is below OPEN_MA: code 4, beside no code of 5–7. -/
def openNow (s : State) (ch : Nat) : State :=
  if (maNow s ch).any (fun ma => decide (ma < dget s R.DBK_CH_DIAG_CFG_OPEN_MA ch)) &&
      decide (dget s R.DBK_CH_STAT_FAULT ch ≤ 4) then setDrvFault s ch 4
  else s

/-- The phases that have ended by now by their time end (R180): BOOST at T_BOOST, or by its current where that has reached
I_BOOST in this very step, and PEAK at T_PEAK. A BOOST that ends by T_BOOST is checked for an open load (R195). -/
def settleProf (s : State) (ch : Nat) : State :=
  let s1 := match drvPhase s ch, (getDrv s ch).prof with
    | 2, some p =>
      if (p.start.getD s.now) + dval s R.DBK_CH_BOOST_T_BOOST_US ch * fcUs ≤ s.now then
        let byTime := match maNow s ch with
          | some ma => decide (ma < (boostLevel s ch).1)
          | none => true
        let s1 := endBoost s ch byTime
        if byTime then openNow s1 ch else s1
      else s
    | _, _ => s
  match drvPhase s1 ch, (getDrv s1 ch).prof with
  | 3, some p =>
    if (p.peakStart.getD s.now) + dget s R.DBK_CH_PEAK_T_PEAK_US ch * fcUs ≤ s.now then endPeak s1 ch else s1
  | _, _ => s1

/-- OFF (R182), also as a safe state: shots stop. -/
def drvOff (s : State) (ch : Nat) : State :=
  stopProf (settleProf (modDrv s ch fun c => { c with rate := 0, nextShot := none, propMa := 0 }) ch) ch

/-- PROP (R192): a level in mA and the dither, or the channel's configured dither. -/
def drvProp (s : State) (ch ma : Nat) (dither : Option (Nat × Nat)) : State :=
  let cap := dval s R.DBK_CH_PROP_PWM_KHZ ch * 100
  let d := dither.getD (dval s R.DBK_CH_PROP_DITHER_HZ ch, dval s R.DBK_CH_PROP_DITHER_MA ch)
  let t := stepNow s ch
  let open2 := 2 * dget s R.DBK_CH_DIAG_CFG_OPEN_MA ch
  let s1 := if drvPhase s ch = 5 then s else setPhase s ch 5
  noteHs s1 (ch / 8) <| modDrv s1 ch fun c => { c.setLow (c.low && decide (0 < ma)) t with
    propMa := ma, ditherHz := min d.1 cap, ditherMa := d.2, ditherPh := c.ditherPhase t, ditherAt := t,
    levelAt := if c.propMa < open2 ∧ open2 ≤ ma then t else c.levelAt }

/-! ### Shots (R189) -/

/-- Interval of a positive rate in fc, and whether SHOT_US + MIN_GAP_US governs it. -/
def shotInterval (s : State) (ch : Nat) (u : F32) : Nat × Bool :=
  let q := fToRatio u
  let byRate := fcSec * q.2 / q.1.toNat
  let least := (dval s R.DBK_CH_SHOT_SHOT_US ch + dget s R.DBK_CH_SHOT_MIN_GAP_US ch) * fcUs
  if byRate < least then (least, true) else (byRate, false)

/-- A committed rate (R189); `at_` is the commit point. -/
def drvRate (s : State) (ch : Nat) (u : F32) (at_ : Nat) : State :=
  if fLt 0 u then
    let iv := shotInterval s ch u
    modDrv s ch fun c =>
      let next := match c.lastShot with
        | some l => max (l + iv.1) at_
        | none => at_
      { c with rate := u, interval := iv.1, recClamp := iv.2, nextShot := some next }
  else modDrv s ch fun c => { c with rate := u, recClamp := false, nextShot := none }

/-- A shot is due: a profile of SHOT_US with the channel's levels, dropped while the previous one runs. -/
def shotDue (s : State) (ch : Nat) : State :=
  match (getDrv s ch).nextShot with
  | none => s
  | some d =>
    if s.now < d then s
    else
      let busy := (getDrv s ch).prof.isSome
      let s1 := modDrv s ch fun c => { c with lastShot := some d, nextShot := some (d + c.interval) }
      if drvLatched s ch then s1
      else if busy then rinc s1 R.DBK_CH_COUNTS_DROPPED 1 (ch / 8) (ch % 8)
      else drvProfile s1 ch 0 (dval s R.DBK_CH_SHOT_SHOT_US ch) 0 none (rowNow s) d

/-! ### Faults (R194–R197) -/

/-- Every channel of the bank off, and the bank latched (R197). -/
def latchBank (s : State) (b code : Nat) : State :=
  if rbit s R.DBK_STATUS_LATCHED b then s
  else
    let s1 := (bankChans b).foldl (fun s c => drvOff s c) s
    raiseEv (rset (rset s1 R.DBK_STATUS_LATCHED 1 b) R.DBK_STATUS_BANK_FAULT code b) evDbkBankLatched b

/-- The condition of an on-state fault (R195) on a value that has held since fc `since`: 5, a low-side pin below 1.0 V for
2 µs after the low side has opened, in an off-interval or, in DECAY, at the switch-off, in mV; 6, a low-side current above 14 A for 1 µs, in mA, or the switch out of
saturation for as long; 7, a junction above 175 °C. Outside OFF, WAIT and DECAY; at switch-off, in DECAY. -/
def onFault (s : State) (ch code value since : Nat) (desat : Bool) : Bool :=
  let ph := drvPhase s ch
  let held := fun n => decide (since + n ≤ s.now)
  let c := getDrv s ch
  match code with
  | 5 => decide (value < 1000) && decide (max since c.openAt + 2 * fcUs ≤ s.now) && !c.low && ph != 0 && ph != 1 &&
      (ph != 6 || decide (since ≤ c.openAt) && decide (s.now < c.openAt + 2 * fcUs + halfUs))
  | 6 => (desat || decide (14000 < value)) && held fcUs && ph != 0 && ph != 1 && ph != 6
  | 7 => decide (175 < value) && ph != 0 && ph != 1 && ph != 6
  | _ => false

/-- An on-state fault of code 5, 6 or 7 (R196). -/
def drvChFault (s : State) (ch code value since : Nat) (desat : Bool) : State :=
  if !onFault s ch code value since desat then s
  else
    let s1 := drvOff s ch
    let s2 := raiseEv (dset (setDrvFault s1 ch code) R.DBK_CH_STAT_LATCHED 1 ch) evDbkChLatched (ch / 8)
    if code = 5 ∧ rbit s R.DBK_CTRL_SCG_CUT (ch / 8) then latchBank s2 (ch / 8) 4 else s2

/-- Classifies an off-state sample, in mV (R195): a fault code, 0 for normal, or none between the bands. -/
def offCode (closed : Bool) (vl vh : Nat) : Option Nat :=
  if vl ≤ 1000 then some 2
  else if closed then
    if vh ≤ vl + 2000 then some 0 else if 2000 ≤ vl ∧ vl ≤ 7000 then some 1 else none
  else if 1500 ≤ vl ∧ vl ≤ 3500 then some 0
  else if 4000 ≤ vl ∧ vl ≤ 6000 then some 1
  else if 6000 < vl then some 3 else none

/-- An off-state sample, no sooner than 1 ms after the one before: three that agree set FAULT, or clear a code of 1–4 (R194, R196). -/
def offDiag (s : State) (ch vl vh : Nat) : State :=
  let c := getDrv s ch
  if dbit s R.DBK_CH_DIAG_CFG_OFF_DIAG_EN ch && drvPhase s ch == 0 && decide (c.since + 500 * fcUs ≤ s.now) &&
      (c.diag.2 == 0 && decide (c.diagAt < c.since) || decide (c.diagAt + fcMs ≤ s.now)) then
    match offCode (highSideClosed s (ch / 8)) vl vh with
    | none => setDrv s ch { c with diag := (0, 0), diagAt := s.now }
    | some k =>
      let n := if c.diag.1 = k ∧ c.diag.2 ≠ 0 then c.diag.2 + 1 else 1
      let s1 := setDrv s ch { c with diag := (k, min n 3), diagAt := s.now }
      if 3 ≤ n ∧ dget s R.DBK_CH_STAT_FAULT ch ≤ 4 then setDrvFault s1 ch k else s1
  else s

/-- The on-state open-load check of a regulated current (R195): 50 µs into HOLD or PROP at twice OPEN_MA or more. -/
def onOpenLoad (s : State) (ch : Nat) : State :=
  let c := getDrv s ch
  let ph := drvPhase s ch
  let level := if ph = 5 then c.propMa else match c.prof with
    | some p => p.holdMa
    | none => 0
  if decide (ph = 4 ∨ ph = 5) && decide (2 * dget s R.DBK_CH_DIAG_CFG_OPEN_MA ch ≤ level) &&
      decide (c.levelAt + 50 * fcUs ≤ s.now) then openNow s ch
  else s

/-- A floor hit of a forced channel by its present current (R187). -/
def floorHit (s : State) (ch : Nat) : State :=
  let b := ch / 8
  let floor := dget s R.DBK_CH_HOLD_HOLD_FLOOR_MA ch
  let c := getDrv s ch
  if drvForced s ch && floor != 0 && (maNow s ch).any (fun ma => decide (ma < floor)) && !c.floorDone then
    let tell := match c.floorEventAt with
      | some t => decide (t + fcSec ≤ s.now)
      | none => true
    let c1 := { c with floorDone := true, recFloor := true,
                       floorEventAt := if tell then some s.now else c.floorEventAt }
    let s1 := rinc (setDrv s ch c1) R.DBK_CH_COUNTS_FLOOR_HITS 1 b (ch % 8)
    let s2 := modDrv s1 (8 * b + rget s R.DBK_STATUS_HSV_CH b) fun k => { k with prof := k.prof.map fun p =>
      { p with floorCh := some (match p.floorCh with
          | some x => min x (ch % 8)
          | none => ch % 8) } }
    if tell then raiseEv s2 evDbkHoldFloor b else s2
  else s

/-- Bank fault conditions of R197 on a measured value (mA or mV) that has held since fc `since`, with the high side open or
ENABLE at 1 for as long. -/
def bankFault (s : State) (b code value since : Nat) : State :=
  let held := fun a n => decide (max since a + n ≤ s.now)
  let hit := match code with
    | 1 => decide (70000 < value) && held 0 (2 * fcUs)
    | 2 => decide (6000 < value) && held (getDbk s b).hsOpenAt (3 * fcMs) && !highSideClosed s b
    | 3 => decide (value < 30000) && held (getDbk s b).onFrom (10 * fcMs) && rbit s R.DBK_CTRL_ENABLE b
    | _ => false
  let s1 := if code = 3 then noteVbst s b (value / 100) else s
  if hit then latchBank s1 b code else s1

/-- CLEAR of a channel or bank; `present` says that the fault is still there in the off state (R196, R197). The
result is whether the latch was released. -/
def drvClear (s : State) (ch : Nat) (bank present : Bool) : State × Bool :=
  let b := ch / 8
  if bank then
    if rbit s R.DBK_STATUS_LATCHED b && present then (s, false)
    else (rset (rset s R.DBK_STATUS_LATCHED 0 b) R.DBK_STATUS_BANK_FAULT 0 b, true)
  else if dbit s R.DBK_CH_STAT_LATCHED ch then
    if present then (s, false) else (dset (dset s R.DBK_CH_STAT_LATCHED 0 ch) R.DBK_CH_STAT_FAULT 0 ch, true)
  else (s, true)

/-! ### Admission and limits (R170, R188) -/

/-- A pair of the bank admission check that fails. -/
def pairFails (s : State) (b h : Nat) : Bool :=
  let floor := dget s R.DBK_CH_HOLD_HOLD_FLOOR_MA h
  dval s R.DBK_CH_CFG_MODE b == 1 && b != h && dval s R.DBK_CH_CFG_MODE h == 2 && decide (0 < floor) &&
    decide (100 * dget s R.DBK_CH_FLOOR_PROP_REF_MA h <
      100 * floor + dget s R.DBK_CH_FLOOR_DECAY h * dval s R.DBK_CH_BOOST_T_BOOST_US b)

/-- The first failing pair, in the order of R188. -/
def firstFail (s : State) (bank : Nat) : Option (Nat × Nat) :=
  (bankChans bank).findSome? fun b => ((bankChans bank).find? fun h => pairFails s b h).map fun h => (b % 8, h % 8)

/-- The bank admission check (R188). -/
def bankCheck (s : State) (b : Nat) : State :=
  match firstFail s b with
  | none => rset s R.DBK_CTRL_ADMITTED 1 b
  | some (x, y) =>
    raiseEv (rset (rset (rset s R.DBK_CTRL_ADMITTED 0 b) R.DBK_CTRL_FAIL_B x b) R.DBK_CTRL_FAIL_H y b) evDbkAdmitFail b

/-- Every channel of the bank is in PHASE OFF. -/
def bankOff (s : State) (b : Nat) : Bool := (bankChans b).all fun c => drvPhase s c == 0

/-- Puts new limits in force; each change writes a margin record: of the boost limit with the monitor of the boost
capacitance, of the peak limit with that of the HSB resistance (R458). -/
def derateSet (s : State) (b boost peak : Nat) : State :=
  let b0 := rget s R.DBK_DERATE_BOOST_MA b
  let p0 := rget s R.DBK_DERATE_PEAK_MA b
  let s1 := rset (rset s R.DBK_DERATE_BOOST_MA boost b) R.DBK_DERATE_PEAK_MA peak b
  let s2 := if boost = b0 then s1 else marginChange s1 6 b (if boost < b0 then 3 else 7) b0 boost
  if peak = p0 then s2 else marginChange s2 2 b (if peak < p0 then 4 else 7) p0 peak

/-- Pending limits take effect once every channel is OFF. -/
def derateApply (s : State) (b : Nat) : State :=
  match (getDbk s b).derate with
  | some (boost, peak) =>
    if bankOff s b then derateSet (setDbk s b { getDbk s b with derate := none }) b boost peak else s
  | none => s

/-! ### Commands that a plane supervisor passes (R174–R179) -/

/-- The first command passed for a channel and not yet in effect, if `p` accepts it; the rest stays. -/
def takePassed (s : State) (plane : Nat) (p : OutCmd → Bool) (same : OutCmd → Bool) : Option (Passed × State) :=
  match (getPps s plane).passed.find? fun q => same q.cmd with
  | some q =>
    if p q.cmd then some (q, setPps s plane { getPps s plane with passed := (getPps s plane).passed.erase q })
    else none
  | none => none

/-- The command is for drive channel `ch`. -/
def OutCmd.isDrv (ch : Nat) : OutCmd → Bool
  | .drv c _ => c == ch
  | .sw _ _ => false

/-- The format failure of a drive command (R179). -/
def drvFormat (q : Passed) (c : DrvCmd) : Option Nat :=
  match c with
  | .clear _ => none
  | .profile _ on _ => if q.bankBit then some 0x0160 else if on = 0 then some 0x0161 else none
  | .prop ma d => if q.bankBit then some 0x0160
    else if 3500 < ma then some 0x0161
    else match d with
      | some (hz, am) => if 400 < hz ∨ 500 < am then some 0x0161 else none
      | none => none
  | _ => if q.bankBit then some 0x0160 else none

/-- The first state failure of a drive command in the order of R179; what the pattern has staged has been held to the
owner and the mode when it was passed (R173). -/
def drvState (s : State) (ch : Nat) (q : Passed) (c : DrvCmd) : Option Nat :=
  let mode := dval s R.DBK_CH_CFG_MODE ch
  let own := !q.staged && dbit s R.DBK_CH_CFG_OWNER ch
  let en := if rbit s R.DBK_CTRL_ENABLE (ch / 8) then none else some 0x0263
  match c with
  | .clear _ => en
  | .profile _ _ _ =>
    if own then some 0x0260 else if drvLatched s ch then some 0x0261 else if mode ≠ 1 then some 0x0262 else en
  | .prop _ _ =>
    if own then some 0x0260 else if drvLatched s ch then some 0x0261 else if mode ≠ 2 then some 0x0262 else en
  | .off => if own then some 0x0260 else if mode ≠ 1 ∧ mode ≠ 2 then some 0x0262 else en
  | .rate _ => none

/-- Completes the command's descriptor in the bank's row record. -/
def drvDone (s : State) (ch : Nat) (q : Passed) (status detail : Nat) : State :=
  match q.ref with
  | some r => completeRow s (ch / 8) r status detail q.row
  | none => s

/-- Runs a passed drive command through its checks. -/
def drvRun (s : State) (ch : Nat) (q : Passed) (c : DrvCmd) (f : State → State) : State :=
  match drvFormat q c with
  | some d => drvDone s ch q stRejectFormat d
  | none =>
    if q.ref.isSome && !commanding s then drvDone s ch q stRejectState 0x0283
    else match drvState s ch q c with
      | some d => if !q.staged ∨ d ≠ 0x0263 then drvDone s ch q stRejectState d else f s
      | none => f s

/-- DRV_PROFILE on the next command passed for the channel. -/
def doProfile (s : State) (ch : Nat) : State :=
  match takePassed s (ch / 48) (fun c => match c with
      | .drv _ (.profile _ _ _) => true
      | _ => false) (OutCmd.isDrv ch) with
  | some (q, s1) =>
    match q.cmd with
    | .drv _ (.profile d on h) => drvRun s1 ch q (.profile d on h) fun s => drvProfile s ch d on h q.ref q.row q.at_
    | _ => s1
  | none => s

/-- DRV_PROP. -/
def doProp (s : State) (ch : Nat) : State :=
  match takePassed s (ch / 48) (fun c => match c with
      | .drv _ (.prop _ _) => true
      | _ => false) (OutCmd.isDrv ch) with
  | some (q, s1) =>
    match q.cmd with
    | .drv _ (.prop ma d) => drvRun s1 ch q (.prop ma d) fun s => drvDone (drvProp s ch ma d) ch q stDone 0
    | _ => s1
  | none => s

/-- DRV_OFF. -/
def doOff (s : State) (ch : Nat) : State :=
  match takePassed s (ch / 48) (fun c => match c with
      | .drv _ .off => true
      | _ => false) (OutCmd.isDrv ch) with
  | some (q, s1) => drvRun s1 ch q .off fun s => drvDone (drvOff s ch) ch q stDone 0
  | none => s

/-- DRV_CLEAR. -/
def doClear (s : State) (ch : Nat) (present : Bool) : State :=
  match takePassed s (ch / 48) (fun c => match c with
      | .drv _ (.clear _) => true
      | _ => false) (OutCmd.isDrv ch) with
  | some (q, s1) =>
    match q.cmd with
    | .drv _ (.clear b) => drvRun s1 ch q (.clear b) fun s =>
        let r := drvClear s ch b present
        if r.2 then drvDone r.1 ch q stDone 0 else drvDone r.1 ch q stRejectState 0x0261
    | _ => s1
  | none => s

/-! ### Timed steps -/

/-- A profile whose requested start has come requests its boost: the channel enters WAIT. -/
def askBoost (s : State) (ch : Nat) : State :=
  match (getDrv s ch).prof with
  | some p =>
    if !p.requested && decide (p.reqStart ≤ s.now) then
      setPhase (modDrv s ch fun c => { c.setLow false (stepNow s ch) with prof := some { p with requested := true } }) ch 1
    else s
  | none => s

/-- The commands of the commit that the bank has still to take, CLEAR apart, which needs the off-state diagnosis. -/
def bankPassed (s : State) (b : Nat) : State :=
  (getPps s (b / 6)).passed.foldl (fun s q => match q.cmd with
    | .drv c (.profile _ _ _) => if c / 8 = b then doProfile s c else s
    | .drv c (.prop _ _) => if c / 8 = b then doProp s c else s
    | .drv c .off => if c / 8 = b then doOff s c else s
    | _ => s) s

/-- Every request of the bank that is due is made, shots among them, and then the HSV is granted: of requests of one step
the one with the lower index starts, whatever the order of arrival (R5, R184, R198). -/
def bankGrant (s : State) (b vbst : Nat) : State :=
  let s1 := (bankChans b).foldl shotDue (bankPassed (noteVbst s b vbst) b)
  hsvGrant ((bankChans b).foldl askBoost s1) b

/-- BOOST_WAIT_EXPIRY: a request that could be granted in this step is; else its profile is dropped. -/
def boostWait (s0 : State) (ch vbst : Nat) : State :=
  let s := bankGrant s0 (ch / 8) vbst
  match (getDrv s ch).prof with
  | some p =>
    if drvPhase s ch = 1 ∧ p.requested ∧ p.reqStart + dval s R.DBK_CH_CFG_BOOST_WAIT ch * fcUs ≤ s.now then
      dropProf s ch
    else s
  | none => s

/-- PROFILE_END_TIME: an end time that does not fall before the end of PEAK leaves the profile untruncated. -/
def profileEnd (s0 : State) (ch : Nat) : State :=
  let s := settleProf s0 ch
  match (getDrv s ch).prof with
  | some p =>
    match p.endAt with
    | some e => if e ≤ s.now then stopProf s ch else s
    | none => s
  | none => s

/-! ### Commands -/

/-- DRV_PROFILE. -/
def execDrvProfile (t : Fc) (ch : Fin 96) (s : State) : Out := atPlane t (ch.val / 48) (fun s => doProfile s ch) s

/-- DRV_PROP. -/
def execDrvProp (t : Fc) (ch : Fin 96) (s : State) : Out := atPlane t (ch.val / 48) (fun s => doProp s ch) s

/-- DRV_OFF. -/
def execDrvOff (t : Fc) (ch : Fin 96) (s : State) : Out := atPlane t (ch.val / 48) (fun s => doOff s ch) s

/-- DRV_CLEAR. -/
def execDrvClear (t : Fc) (ch : Fin 96) (present : Bool) (s : State) : Out :=
  atPlane t (ch.val / 48) (fun s => doClear s ch present) s

/-- BOOST_REQUEST. -/
def execBoostRequest (t : Fc) (ch : Fin 96) (vbst : Fin 1024) (s : State) : Out :=
  atPlane t (ch.val / 48) (fun s => bankGrant s (ch.val / 8) vbst) s

/-- BOOST_GAP_EXPIRY. -/
def execBoostGapExpiry (t : Fc) (bank : Fin 12) (vbst : Fin 1024) (s : State) : Out :=
  atPlane t (bank.val / 6) (fun s => bankGrant s bank vbst) s

/-- BOOST_WAIT_EXPIRY. -/
def execBoostWaitExpiry (t : Fc) (ch : Fin 96) (vbst : Fin 1024) (s : State) : Out :=
  atPlane t (ch.val / 48) (fun s => boostWait s ch vbst) s

/-- BOOST_CURRENT_REACHED. -/
def execBoostCurrentReached (t : Fc) (c : DrvTrace) (s : State) : Out :=
  atDrive t c.ch c.trace (fun s =>
    if drvPhase s c.ch = 2 ∧ (maNow s c.ch).any (fun ma => decide ((boostLevel s c.ch).1 ≤ ma)) then endBoost s c.ch false
    else s) s

/-- T_BOOST_EXPIRY. -/
def execTBoostExpiry (t : Fc) (c : DrvTrace) (s : State) : Out :=
  atDrive t c.ch c.trace (fun s => settleProf s c.ch) s

/-- T_PEAK_EXPIRY. -/
def execTPeakExpiry (t : Fc) (c : DrvTrace) (s : State) : Out :=
  atDrive t c.ch c.trace (fun s => if drvPhase s c.ch = 3 then settleProf s c.ch else s) s

/-- PROFILE_END_TIME. -/
def execProfileEndTime (t : Fc) (c : DrvTrace) (s : State) : Out :=
  atDrive t c.ch c.trace (fun s => profileEnd s c.ch) s

/-- The fast-decay slope of a decay that the bank measures: each forced one, and each fast switch-off from above 500 mA
(R191). -/
def noteSlope (s : State) (ch slope : Nat) : State :=
  let c := getDrv s ch
  if c.forcedDecay || drvPhase s ch == 6 && c.decayFast && decide (500 < c.decayMa) then
    modDrv (dset s R.DBK_CH_DECAY_MEAS_DECAY slope ch) ch fun c => { c with forcedDecay := false }
  else s

/-- DECAY_END; `slope` is the slope that the bank has measured, where it measures one. A forced decay leaves the phase as
it is and brings its slope here too. -/
def execDecayEnd (t : Fc) (c : DrvTrace) (slope : Fin 65536) (s : State) : Out :=
  atDrive t c.ch c.trace (fun s =>
    let s1 := noteSlope s c.ch slope
    if drvPhase s c.ch = 6 ∧ (maNow s c.ch).any (fun ma => decide (ma < 50)) then setPhase s1 c.ch 0 else s1) s

/-- MOVEMENT_DETECTED: the samples up to the one that confirms a dip or ends the search (R190). -/
def execMovementDetected (t : Fc) (ch : Fin 96) (trace : List Nat) (s : State) : Out := atDrive t ch trace id s

/-- HOLD_FLOOR_HIT. -/
def execHoldFloorHit (t : Fc) (ch : Fin 96) (trace : List Nat) (s : State) : Out :=
  atDrive t ch trace (fun s => floorHit s ch) s

/-- SHOT_DUE. -/
def execShotDue (t : Fc) (ch : Fin 96) (s : State) : Out := atPlane t (ch.val / 48) (fun s => shotDue s ch) s

/-- OFF_DIAG_SAMPLE. -/
def execOffDiagSample (t : Fc) (ch : Fin 96) (vl vh : Nat) (s : State) : Out :=
  atPlane t (ch.val / 48) (fun s => offDiag s ch vl vh) s

/-- DRV_CH_FAULT. -/
def execDrvChFault (t : Fc) (ch : Fin 96) (f : DrvFaultSeen) (s : State) : Out :=
  atPlane t (ch.val / 48) (fun s => drvChFault s ch f.code f.value f.since f.desat) s

/-- DRV_ON_OPEN_LOAD. -/
def execDrvOnOpenLoad (t : Fc) (ch : Fin 96) (trace : List Nat) (s : State) : Out :=
  atDrive t ch trace (fun s => onOpenLoad s ch) s

/-- DBK_BANK_FAULT. -/
def execDbkBankFault (t : Fc) (bank : Fin 12) (code : Fin 4) (value : Nat) (since : Fc) (s : State) : Out :=
  atPlane t (bank.val / 6) (fun s => bankFault s bank code value since) s

/-- BANK_CHECK. -/
def execBankCheck (t : Fc) (bank : Fin 12) (s : State) : Out := atPlane t (bank.val / 6) (fun s => bankCheck s bank) s

/-- DERATE_APPLY. -/
def execDerateApply (t : Fc) (bank : Fin 12) (s : State) : Out := atPlane t (bank.val / 6) (fun s => derateApply s bank) s

end Sys2Proof.Machine
end

