-- ==== Sys2Proof/Machine/SwitchBanks.lean ====
section
/-! DEFINITION. Switch banks and feeds (R204–R226): duty, wire model, trips, thermal latch, under-voltage, retry and
restart, open load and shedding. Channels are numbered 0–95; channel `ch` is index `ch % 8` of bank `ch / 8` on
plane `ch / 48`. -/

namespace Sys2Proof.Machine

/-! ### Access -/

def getSw (s : State) (ch : Nat) : SwCh := tblGetD s.sw ch SwCh.idle
def setSw (s : State) (ch : Nat) (v : SwCh) : State := { s with sw := tblSet s.sw ch v }
def modSw (s : State) (ch : Nat) (f : SwCh → SwCh) : State := setSw s ch (f (getSw s ch))
def getFeed (s : State) (p : Nat) : Feed := tblGetD s.feed p Feed.idle
def setFeed (s : State) (p : Nat) (v : Feed) : State := { s with feed := tblSet s.feed p v }

/-- The SBK instance that holds a plane's feed registers (R224). -/
def feedInst (p : Nat) : Nat := 6 * p

/-- The channels of a plane. -/
def planeChans (p : Nat) : List Nat := (List.range 48).map (48 * p + ·)

/-- The channel is the odd or the even member of a paralleled pair (R211). -/
def swOdd (s : State) (ch : Nat) : Bool := ch % 2 == 1 && dbit s R.SBK_CH_CFG_PAR (ch - 1)
def swEven (s : State) (ch : Nat) : Bool := ch % 2 == 0 && dbit s R.SBK_CH_CFG_PAR ch

/-- The channel whose configuration and duty govern `ch`. -/
def swLead (s : State) (ch : Nat) : Nat := if swOdd s ch then ch - 1 else ch

/-- Both members of a pair, or the channel alone. -/
def swMembers (s : State) (ch : Nat) : List Nat :=
  let l := swLead s ch
  if swEven s l then [l, l + 1] else [l]

/-- MODE is SWITCH. -/
def swMode (s : State) (ch : Nat) : Bool := dval s R.SBK_CH_CFG_MODE (swLead s ch) == 1

/-- Sets a register field of every member. -/
def swAll (s : State) (ch : Nat) (f : Fld) (v : Nat) : State := (swMembers s ch).foldl (fun s c => dset s f v c) s
def modAll (s : State) (ch : Nat) (f : SwCh → SwCh) : State := (swMembers s ch).foldl (fun s c => modSw s c f) s

/-- θ of R213. -/
def swTheta (s : State) (ch : Nat) : Rat := (getSw s ch).thf + (getSw s ch).ths

/-! ### PWM (R206, R211) -/

/-- Where the PWM period of a channel stands at fc `t`, one period being the fc of a second: a pair follows the even
channel, and the periods of a bank are staggered by an eighth in index order. Periods are counted from the model's start
(DESIGN CHOICE, log entry 136; unsafe). -/
def pwmPhase (s : State) (ch t : Nat) : Nat :=
  let l := swLead s ch
  (t * dval s R.SBK_CH_CFG_PWM_HZ l + (8 - l % 8) * (fcSec / 8)) % fcSec

/-- Length of the on-interval of duty `d`, of a period of the fc of a second. -/
def onPart (d : Nat) : Nat := d * (fcSec / 1000)

/-- The channel conducts at fc `t`: on, statically or in the on-interval of its PWM. -/
def conducts (s : State) (ch t : Nat) : Bool :=
  let c := getSw s ch
  c.on && (decide (1000 ≤ c.duty) || decide (pwmPhase s ch t < onPart c.duty))

/-- The on-interval that runs at fc `a` still runs at fc `b`: the PWM has not turned the channel off between them. -/
def onThrough (s : State) (ch a b : Nat) : Bool :=
  let c := getSw s ch
  c.on && (decide (1000 ≤ c.duty) ||
    decide (pwmPhase s ch a + (b - a) * dval s R.SBK_CH_CFG_PWM_HZ (swLead s ch) < onPart c.duty))

/-- In PWM, the on-intervals of a duty last less than 50 µs, too short for a sample (R221). -/
def shortOn (s : State) (ch duty : Nat) : Bool :=
  decide (0 < duty) && decide (duty < 1000) && decide (1000 * duty < 50 * dval s R.SBK_CH_CFG_PWM_HZ (swLead s ch))

/-- The channel is held at its current limit at fc `t`: its limit interval has not ended (R214). -/
def limitHeld (s : State) (ch t : Nat) : Bool := match (getSw s ch).limitSince with
  | some a => onThrough s ch a t
  | none => false

/-! ### Output -/

/-- What keeps a commanded output off besides UV_OFF: a trip, a latch, a lock, a shed, or for a restart the bar of R219. -/
def swStopped (s : State) (ch : Nat) : Bool :=
  dbit s R.SBK_CH_STAT_TRIPPED ch || dbit s R.SBK_CH_STAT_THERM_LATCH ch || dbit s R.SBK_CH_STAT_LOCKED ch ||
    dbit s R.SBK_CH_STAT_SHED ch || (getSw s ch).barred

/-- The channel waits for its turn after UV_OFF (R217). -/
def swQueued (s : State) (ch : Nat) : Bool := (getFeed s (ch / 48)).restart.contains (swLead s ch)

/-- The output is switched off: a limit interval ends and OPEN_LOAD clears (R214, R221). -/
def swTurnOff (s : State) (ch : Nat) : State :=
  swAll (modAll s ch fun c => { c with on := false, limitSince := none, short := [] }) ch R.SBK_CH_STAT_OPEN_LOAD 0

/-- What the debounce time of R221 leaves out, as a duty that is short or not sets in. -/
def SwCh.noteShort (c : SwCh) (t : Nat) (isShort : Bool) : SwCh :=
  match c.short with
  | (a, none) :: rest => if isShort then c else { c with short := (a, some t) :: rest }
  | l => if isShort then { c with short := (t, none) :: l } else c

/-- Time since fc `a` that the debounce leaves out. -/
def SwCh.shortTime (c : SwCh) (a now : Nat) : Nat :=
  (c.short.map fun p => (p.2.getD now) - max a p.1).sum

/-- The output is switched on, or its duty changes while it is. A turn-on uses up a REARM under a thermal latch (R219). -/
def swTurnOn (s : State) (ch : Nat) : State := modAll s ch fun c =>
  ({ c with on := true, onAt := if c.on then c.onAt else s.now, rearmed := c.rearmed && c.on } : SwCh).noteShort s.now
    (shortOn s ch c.duty)

/-- A limit interval that the PWM has ended is forgotten before the duty changes (R214). -/
def dropLimit (s : State) (ch : Nat) : State :=
  if limitHeld s ch s.now then s else modAll s ch fun c => { c with limitSince := none }

/-- A commanded duty (R206–R210): stored, and applied unless the output is held off. The bar of R219 is on automatic
restarts alone (DEDUCED, log entry 137; unsafe). -/
def swDuty (s : State) (ch duty : Nat) : State :=
  let s1 := modAll (dropLimit s ch) ch fun c => { c with duty := duty, barred := false }
  if duty = 0 then swTurnOff s1 ch
  else if (getFeed s1 (ch / 48)).uv then swAll (swTurnOff s1 ch) ch R.SBK_CH_STAT_UV_OFF 1
  else if swStopped s1 ch || swQueued s1 ch then swTurnOff s1 ch
  else swTurnOn s1 ch

/-- STATE of a channel: 0 OFF, 1 ON, 2 PWM, 3 HELD. -/
def swState (s : State) (ch : Nat) : Nat :=
  let c := getSw s ch
  if c.duty = 0 then 0 else if !c.on then 3 else if c.duty = 1000 then 1 else 2

/-! ### Thresholds of the feed (R217, R222) -/

def uvMv (s : State) (p : Nat) : Nat := 6000 + 500 * rval s R.SBK_FEED_UV_UV_CODE (feedInst p)
def uvHystMv (s : State) (p : Nat) : Nat := 250 * (rget s R.SBK_FEED_UV_UV_HYST (feedInst p) + 1)

/-- The lowest non-zero rank with a channel still on. -/
def shedRank (s : State) (p : Nat) : Option Nat :=
  ((List.range 15).map (· + 1)).find? fun r => (planeChans p).any fun c =>
    (getSw s c).on && dget s R.SBK_CH_PROT_SHED_RANK (swLead s c) == r

/-- A feed current in A above LIMIT_A since fc `since` sheds: for 5 ms, and every further 5 ms. -/
def shedComes (s : State) (p amps since : Nat) : Bool :=
  decide (rval s R.SBK_FEED_LIMIT_LIMIT_A (feedInst p) < amps) && decide (max since (getFeed s p).shedAt + 5 * fcMs ≤ s.now)

/-! ### Restarts (R218, R219) -/

/-- A restart is made: it counts, uses a retry unless it is free, and opens the retry window where none is open. -/
def swRestart (s : State) (ch : Nat) (free : Bool) : State :=
  let w := dval s R.SBK_CH_PROT_RETRY_WINDOW_S (swLead s ch) * fcSec
  (swMembers s ch).foldl (fun s c =>
    let s1 := dset s R.SBK_CH_STAT_TRIPPED 0 c
    let s2 := rinc s1 R.SBK_CH_COUNTS_RESTARTS 1 (c / 8) (c % 8)
    let s3 := if free then s2 else rinc s2 R.SBK_CH_STAT_RETRIES_USED 1 (c / 8) (c % 8)
    modSw s3 c fun k =>
      ({ k with on := true, onAt := s.now, recRestart := true, rearmed := false,
                window := some (k.window.getD (s.now + w)) } : SwCh).noteShort
        s.now (shortOn s c k.duty)) s

/-- The feed is found below UV_V for 50 µs, the channel is shed or its thermal latch is set by a command of the present fc
that waits in the queue: a restart due in the same step does not take place (R5, R219, R220). -/
def heldNow (s : State) (ch : Nat) : Bool :=
  let p := ch / 48
  s.pending.any fun c => match c with
    | .feedUv t q mv since =>
      t == s.now && q.val == p && decide (mv < uvMv s p) && decide (since + 50 * fcUs ≤ s.now)
    | .thermLatchSet t c tj => t == s.now && (swMembers s ch).contains c.val && decide (170 ≤ tj)
    | .planeShed t q amps since =>
      t == s.now && q.val == p && shedComes s p amps since && shedRank s p == some (dget s R.SBK_CH_PROT_SHED_RANK (swLead s ch))
    | _ => false

/-- A restart is due: it takes place, is refused for want of budget, or does not take place (R218); one that waits for its
turn after UV_OFF is left to it (R217), and a channel that is on is not restarted. Under POLICY 0 a restart that a REARM
asked for under a thermal latch uses no retry (R219). -/
def swDue (s : State) (ch : Nat) : State :=
  let l := swLead s ch
  let free := !dbit s R.SBK_CH_PROT_POLICY l && (getSw s l).rearmed
  let tripped := dbit s R.SBK_CH_STAT_TRIPPED l
  let retry := dbit s R.SBK_CH_PROT_POLICY l && decide (swTheta s l ≤ 1 / 2)
  if dbit s R.SBK_CH_STAT_THERM_LATCH l || dbit s R.SBK_CH_STAT_LOCKED l || (tripped && !retry) ||
      (getFeed s (ch / 48)).uv || dbit s R.SBK_CH_STAT_UV_OFF l || dbit s R.SBK_CH_STAT_SHED l ||
      (getSw s l).duty == 0 || (getSw s l).barred || (getSw s l).on || swQueued s ch || heldNow s ch then s
  else if free || decide (dget s R.SBK_CH_STAT_RETRIES_USED l < dget s R.SBK_CH_PROT_RETRY_MAX l) then swRestart s ch free
  else raiseEv (swAll s ch R.SBK_CH_STAT_LOCKED 1) evSbkLocked (ch / 8)

/-! ### Wire model and trips (R212–R215) -/

/-- I_NOM in 0.1 A and τ_F in s of a wire profile; τ_S is ten times τ_F (R212). -/
def wireProfile (n : Nat) : Nat × Nat :=
  [(50, 4), (65, 5), (85, 7), (100, 9), (130, 12), (180, 18), (240, 26), (310, 35), (430, 55), (100, 7), (120, 9),
   (155, 12), (210, 18), (280, 26), (360, 35), (500, 55)].getD n (50, 4)

/-- I_EFF in mA (R213). -/
def swIEff (s : State) (ch : Nat) : Nat :=
  let l := swLead s ch
  min ((wireProfile (dget s R.SBK_CH_CFG_WPROF l)).1 * dval s R.SBK_CH_CFG_FUSE_PCT l)
    (if swEven s l then 2 * Config.switchRatingMa else Config.switchRatingMa)

/-- The register form of θ: units of 1/32,768, saturated. -/
def thetaCode (x : Rat) : Nat := min ((x * 32768).floor.toNat) 0xFFFF

/-- A sample of the channel's current in mA. -/
def noteMa (s : State) (ch : Nat) (samples : List Nat) : State := match samples.getLast? with
  | some ma => modSw s ch fun c => { c with ma := ma }
  | none => s

/-- A thermal latch has turned the channel off in this very step (R220). -/
def thermNow (s : State) (ch : Nat) : Bool := (getSw s ch).thermAt.any fun p => p.1 == s.now

/-- A trip turns the channel off (R215). -/
def swTrip (s : State) (ch cause : Nat) : State :=
  let s1 := swTurnOff s ch
  let s2 := (swMembers s ch).foldl (fun s c =>
    rinc (dset (dset s R.SBK_CH_STAT_TRIPPED 1 c) R.SBK_CH_STAT_TRIP_CAUSE cause c) R.SBK_CH_COUNTS_TRIPS 1
      (c / 8) (c % 8)) s1
  raiseEv s2 evSbkTrip (ch / 8)

/-- The current limit of a channel or pair in mA (R205). -/
def limitMa (s : State) (ch : Nat) : Nat := if swEven s (swLead s ch) then 180000 else 90000

/-- Mean square of a list of currents in mA². -/
def meanSquare (l : List Nat) : Rat := mkRat ((l.map fun i => i * i).sum : Nat) (max l.length 1)

/-- One millisecond of the wire model from the samples of every 10 µs in mA: those of the channel, and for a pair those of
the odd member, whose sum counts (R204, R211, R213). Exact rationals: DESIGN CHOICE, log entry 63 (unsafe). -/
def wireUpdate (s0 : State) (ch : Nat) (own other : List Nat) : State :=
  if swOdd s0 ch then s0
  else
    let s := noteMa (noteMa s0 ch own) (ch + 1) (if swEven s0 ch then other else [])
    let sums := if swEven s ch then (List.range own.length).map (fun n => own.getD n 0 + other.getD n 0) else own
    let k := wireProfile (dget s R.SBK_CH_CFG_WPROF ch)
    let ie := swIEff s ch
    let c := getSw s ch
    let h : Rat := meanSquare sums / (ie * ie : Nat)
    let f := c.thf + (mkRat 1 (1000 * k.2)) * (mkRat 2 5 * h - c.thf)
    let g := c.ths + (mkRat 1 (10000 * k.2)) * (mkRat 3 5 * h - c.ths)
    let s1 := swAll (modAll s ch fun c => { c with thf := f, ths := g }) ch R.SBK_CH_MODEL_THETA (thetaCode (f + g))
    -- the latest sample below the limit says when the channel was last out of it: the interval began at the latest
    -- reach of the limit, if that came after
    let out := (List.range sums.length).find? fun n => decide (sums.getD (sums.length - 1 - n) 0 < limitMa s ch)
    let since := match c.limitSince, out with
      | some t, some n =>
        if s.now ≤ t + n * 10 * fcUs then some t
        else if s.now < c.limitLast + n * 10 * fcUs then some c.limitLast else none
      | l, _ => l
    let s2 := if since = c.limitSince then s1 else modAll s1 ch fun c => { c with limitSince := since }
    if decide ((1 : Rat) ≤ f + g) && (c.on || thermNow s ch) then swTrip s2 ch 1 else s2

/-- The channel is held at its current limit: the 10 ms interval starts, or a further one after an off-interval (R214). -/
def inLimit (s : State) (ch : Nat) : State :=
  if conducts s ch s.now then
    modAll s ch fun c => { c with
      limitSince := if limitHeld s ch s.now then c.limitSince else some s.now, limitLast := s.now, recLimit := true }
  else s

/-- The interval in limit has lasted 10 ms without interruption; a turn-off by PWM in this step ends it, and one by a
thermal latch in this step does not (R214, R220). -/
def inrush (s : State) (ch : Nat) : State :=
  let c := getSw s ch
  let from_ := if limitHeld s ch s.now then c.limitSince
    else match c.thermAt with
      | some (t, some a) => if t = s.now then some a else none
      | _ => none
  match from_ with
  | some a => if a + 10 * fcMs ≤ s.now then swTrip s ch 2 else s
  | none => s

/-! ### Thermal latch (R216, R219) -/

/-- °C plus 50, as TJ holds it. -/
def tjCode (tj : Int) : Nat := (clampInt 0 255 (tj + 50)).toNat

/-- A junction at 170 °C or above sets the latch on both members. A REARM of this very fc counts as accepted under it
(R220). -/
def thermSet (s : State) (ch : Nat) (tj : Int) : State :=
  let s0 := dset s R.SBK_CH_MODEL_TJ (tjCode tj) ch
  if tj < 170 ∨ dbit s R.SBK_CH_STAT_THERM_LATCH ch then s0
  else
    let was := getSw s0 ch
    let s0b := swTurnOff s0 ch
    let s0c := if was.on then modAll s0b ch fun c =>
        { c with thermAt := some (s.now, if limitHeld s0 ch s.now then was.limitSince else none) }
      else s0b
    let s1 := swAll s0c ch R.SBK_CH_STAT_THERM_LATCH 1
    let s2 := (swMembers s ch).foldl (fun s c => rinc s R.SBK_CH_COUNTS_THERM_LATCHES 1 (c / 8) (c % 8)) s1
    raiseEv (modAll s2 ch fun c => { c with rearmed := c.rearmed && c.rearmedAt == s.now }) evSbkThermLatch (ch / 8)

/-- A junction below 140 °C clears it, of a pair both junctions, and a restart becomes due (R211, R216, R219). -/
def thermClear (s : State) (ch : Nat) (tj : Int) : State :=
  let s0 := dset s R.SBK_CH_MODEL_TJ (tjCode tj) ch
  if !dbit s R.SBK_CH_STAT_THERM_LATCH ch || (swMembers s ch).any fun c => decide (tjCode 140 ≤ dget s0 R.SBK_CH_MODEL_TJ c) then
    s0
  else
    let s1 := swAll s0 ch R.SBK_CH_STAT_THERM_LATCH 0
    let l := swLead s ch
    if dbit s R.SBK_CH_PROT_POLICY l || (getSw s l).rearmed then swDue s1 ch
    else modAll s1 ch fun c => { c with barred := true }

/-- PAR joins two channels: the odd one takes the even one's duty, and a thermal latch, trip or lock of either acts on both
(R211). -/
def pairJoin (s : State) (ch : Nat) : State :=
  let either := fun s (f : Fld) => dset (dset s f (max (dget s f ch) (dget s f (ch + 1))) ch) f
    (max (dget s f ch) (dget s f (ch + 1))) (ch + 1)
  let s0 := if !dbit s R.SBK_CH_STAT_TRIPPED ch && dbit s R.SBK_CH_STAT_TRIPPED (ch + 1) then
    dset s R.SBK_CH_STAT_TRIP_CAUSE (dget s R.SBK_CH_STAT_TRIP_CAUSE (ch + 1)) ch else s
  let s1 := either (either (either s0 R.SBK_CH_STAT_TRIPPED) R.SBK_CH_STAT_THERM_LATCH) R.SBK_CH_STAT_LOCKED
  swDuty s1 ch (getSw s1 ch).duty

/-! ### Feed under-voltage (R217) -/

/-- The feed voltage as measured. -/
def feedVolts (s : State) (p mv : Nat) : State :=
  let s1 := setFeed s p { getFeed s p with below := decide (mv < uvMv s p) }
  rset s1 R.SBK_FEED_MEAS_V_100MV (min (mv / 100) 1023) (feedInst p)

/-- The feed fell below UV_V at fc `since`. When it has stayed there for 50 µs every channel of the plane goes off;
SBK_UV is raised once for each such fall (R217, R225). A shorter fall only starts RESTART_DELAY again. -/
def feedUv (s0 : State) (p mv since : Nat) : State :=
  let s := feedVolts s0 p mv
  if uvMv s p ≤ mv then s
  else if s.now < since + 50 * fcUs then setFeed s p { getFeed s p with fallAt := some since }
  else
    let f := getFeed s p
    let told := f.uv && f.toldAt == some since
    let s1 := (planeChans p).foldl (fun s c =>
      let k := getSw s c
      let s1 := if k.duty = 0 then s else dset s R.SBK_CH_STAT_UV_OFF 1 c
      if k.on then swTurnOff s1 c else s1) (setFeed s p { f with uv := true, fallAt := some since, toldAt := some since, restart := [] })
    if told then s1 else raiseEv s1 evSbkUv (feedInst p)

/-- The feed has been at or above UV_V + UV_HYST since fc `since`, for RESTART_DELAY or more: UV_OFF clears, and the
channels with non-zero duty wait for their restart. -/
def uvEnd (s0 : State) (p mv since : Nat) : State :=
  let s := feedVolts s0 p mv
  let f := getFeed s p
  if !f.uv ∨ mv < uvMv s p + uvHystMv s p ∨ f.fallAt.any (fun a => decide (since < a)) ∨
      s.now < since + rval s R.SBK_FEED_UV_RESTART_10MS (feedInst p) * 10 * fcMs then s
  else
    let due := (planeChans p).filter fun c => dbit s R.SBK_CH_STAT_UV_OFF c && !swOdd s c && (getSw s c).duty != 0
    let s1 := (planeChans p).foldl (fun s c => dset s R.SBK_CH_STAT_UV_OFF 0 c) s
    setFeed s1 p { f with uv := false, restart := due, restartAt := s.now }

/-- The next channel's turn, every 500 µs. -/
def uvStep (s : State) (p : Nat) : State :=
  let f := getFeed s p
  match f.restart with
  | [] => s
  | c :: rest =>
    if s.now < f.restartAt then s
    else swDue (setFeed s p { f with restart := rest, restartAt := s.now + 500 * fcUs }) c

/-! ### Shedding (R222) -/

/-- The feed current in A has been above LIMIT_A since fc `since`: every channel of the rank is shed, whatever its
duty. A current at or below LIMIT_A ends the overload that SBK_PLANE_OVER was raised for. -/
def planeShed (s0 : State) (p amps since : Nat) : State :=
  let s := rset s0 R.SBK_FEED_MEAS_I_A (min amps 511) (feedInst p)
  let f := getFeed s p
  if amps ≤ rval s R.SBK_FEED_LIMIT_LIMIT_A (feedInst p) then setFeed s p { f with overTold := false }
  else if !shedComes s p amps since then s
  else match shedRank s p with
    | some r =>
      let hit := (planeChans p).filter fun c => dget s R.SBK_CH_PROT_SHED_RANK (swLead s c) == r
      let s1 := hit.foldl (fun s c => dset (swTurnOff s c) R.SBK_CH_STAT_SHED 1 c) s
      raiseEv (setFeed s1 p { f with shed := r :: f.shed, shedAt := s.now }) evSbkShed (feedInst p)
    | none => if f.overTold then s else raiseEv (setFeed s p { f with overTold := true }) evSbkPlaneOver (feedInst p)

/-- The feed current has been below 90 % of LIMIT_A since fc `since`: the latest rank is restored. -/
def shedRestore (s0 : State) (p amps since : Nat) : State :=
  let s := rset s0 R.SBK_FEED_MEAS_I_A (min amps 511) (feedInst p)
  let f := getFeed s p
  match f.shed with
  | [] => s
  | r :: rest =>
    if 9 * rval s R.SBK_FEED_LIMIT_LIMIT_A (feedInst p) ≤ 10 * amps ∨ s.now < max since f.shedAt + fcSec then s
    else
      let hit := (planeChans p).filter fun c =>
        dget s R.SBK_CH_PROT_SHED_RANK (swLead s c) == r && dbit s R.SBK_CH_STAT_SHED c
      let s1 := hit.foldl (fun s c =>
        let s1 := dset s R.SBK_CH_STAT_SHED 0 c
        if swStopped s1 c || (getFeed s1 p).uv || swQueued s1 c || (getSw s1 c).duty == 0 then s1
        else modSw s1 c fun k =>
          ({ k with on := true, onAt := s1.now, rearmed := false } : SwCh).noteShort s1.now (shortOn s1 c k.duty)) s
      setFeed s1 p { f with shed := rest, shedAt := s.now, overTold := false }

/-! ### Open load (R221) -/

/-- A sample for the open-load detection, which for a pair is the sum of both currents and no member's own (R211, R224). -/
def noteOl (s : State) (ch ma : Nat) : State := if swEven s (swLead s ch) then s else noteMa s ch [ma]

/-- The samples of the channel, of a pair the sums of both, have been below OL_MA since fc `since`. The debounce runs while
the channel is on, and stands still while its on-intervals are shorter than 50 µs. -/
def openLoad (s0 : State) (ch ma since : Nat) : State :=
  let s := noteOl s0 ch ma
  let l := swLead s ch
  let c := getSw s l
  let a := max since c.onAt
  if dbit s R.SBK_CH_OL_OL_EN l && c.on && !shortOn s l c.duty && decide (ma < dval s R.SBK_CH_OL_OL_MA l) &&
      decide (a + c.shortTime a s.now + dval s R.SBK_CH_OL_OL_DEBOUNCE_MS l * fcMs ≤ s.now) &&
      !dbit s R.SBK_CH_STAT_OPEN_LOAD l then
    let s1 := (swMembers s ch).foldl (fun s c =>
      rinc (dset s R.SBK_CH_STAT_OPEN_LOAD 1 c) R.SBK_CH_COUNTS_OPEN_LOADS 1 (c / 8) (c % 8)) s
    raiseEv s1 evSbkOpenLoad (ch / 8)
  else s

/-- A sample above OL_MA clears OPEN_LOAD; on-intervals shorter than 50 µs give none. -/
def openLoadClear (s0 : State) (ch ma : Nat) : State :=
  let l := swLead s0 ch
  let s := noteOl s0 ch ma
  if dval s R.SBK_CH_OL_OL_MA l < ma ∧ !shortOn s l (getSw s l).duty then swAll s ch R.SBK_CH_STAT_OPEN_LOAD 0 else s

/-! ### Commands that a plane supervisor passes (R208–R210) -/

/-- The command is for switch channel `ch`. -/
def OutCmd.isSw (ch : Nat) : OutCmd → Bool
  | .sw c _ => c == ch
  | .drv _ _ => false

/-- Completes the command's descriptor in the bank's row record; the switch banks' records follow the drive banks'. -/
def swDone (s : State) (ch : Nat) (q : Passed) (status detail : Nat) : State :=
  match q.ref with
  | some r => completeRow s (12 + ch / 8) r status detail q.row
  | none => s

/-- HELD of a completion (R209). -/
def swHeld (s : State) (ch : Nat) : Bool :=
  (getSw s ch).duty != 0 && (dbit s R.SBK_CH_STAT_UV_OFF ch || dbit s R.SBK_CH_STAT_SHED ch ||
    dbit s R.SBK_CH_STAT_THERM_LATCH ch)

/-- The first state failure of a SET, in the order of R210; a SET of 0 is always accepted on a SWITCH channel. What the
pattern has staged has been held to owner and mode when it was passed (R207). -/
def swSetState (s : State) (ch duty : Nat) (q : Passed) : Option Nat :=
  if duty = 0 ∧ swMode s ch ∧ !swOdd s ch then none
  else if !q.staged && dbit s R.SBK_CH_CFG_OWNER ch then some 0x0270
  else if !q.staged ∧ duty ≠ 0 ∧ (dbit s R.SBK_CH_STAT_TRIPPED ch ∨ dbit s R.SBK_CH_STAT_LOCKED ch) then some 0x0271
  else if !swMode s ch || swOdd s ch then some 0x0272
  else if !q.staged && !rbit s R.SBK_CTRL_ENABLE (ch / 8) then some 0x0273
  else none

/-- The plane's protections as the commands of the present fc that wait in the queue leave them: what R220 settles between
them and a command to a channel holds whatever the order in the fc (R5). -/
def swAhead (s : State) : State :=
  s.pending.foldl (fun u c => match c with
    | .wireModelUpdate t ch m => if t = s.now then wireUpdate u ch m.own m.other else u
    | .inrushExpiry t ch => if t = s.now then inrush u ch else u
    | .thermLatchSet t ch tj => if t = s.now then thermSet u ch tj else u
    | .feedUv t p mv since => if t = s.now then feedUv u p mv since else u
    | .planeShed t p amps since => if t = s.now then planeShed u p amps since else u
    | _ => u) s

/-- SW_SET on the next command passed for the channel. -/
def doSet (s : State) (ch : Nat) : State :=
  match takePassed s (ch / 48) (fun c => match c with
      | .sw _ (.set _) => true
      | _ => false) (OutCmd.isSw ch) with
  | some (q, s1) =>
    match q.cmd with
    | .sw _ (.set d) =>
      if 1000 < d then swDone s1 ch q stRejectFormat 0x0170
      else if q.ref.isSome && !commanding s then swDone s1 ch q stRejectState 0x0283
      else match swSetState (swAhead s1) ch d q with
        | some e => swDone s1 ch q stRejectState e
        | none => let s2 := swDuty s1 ch d; swDone s2 ch q stDone (b2n (swHeld (swAhead s2) ch))
    | _ => s1
  | none => s

/-- REARM releases TRIPPED and LOCKED and closes the retry window; a commanded output then comes on unless it is held,
and under a thermal latch (`therm`) once that clears (R208, R219). -/
def swRearm (s : State) (ch : Nat) (therm : Bool) : State :=
  let s1 := swAll (swAll (swAll s ch R.SBK_CH_STAT_TRIPPED 0) ch R.SBK_CH_STAT_LOCKED 0) ch R.SBK_CH_STAT_RETRIES_USED 0
  let s2 := modAll s1 ch fun c => { c with window := none, barred := false }
  modAll (swDuty s2 ch (getSw s2 ch).duty) ch fun c => { c with rearmed := therm, rearmedAt := s.now }

/-- SW_REARM on the next command passed for the channel. -/
def doRearm (s : State) (ch : Nat) : State :=
  match takePassed s (ch / 48) (fun c => match c with
      | .sw _ .rearm => true
      | _ => false) (OutCmd.isSw ch) with
  | some (q, s1) =>
    if q.ref.isSome && !commanding s then swDone s1 ch q stRejectState 0x0283
    else if !swMode s1 ch || swOdd s1 ch then swDone s1 ch q stRejectState 0x0272
    else if !rbit s1 R.SBK_CTRL_ENABLE (ch / 8) then swDone s1 ch q stRejectState 0x0273
    else if decide ((1 / 2 : Rat) < swTheta s1 ch) then swDone s1 ch q stRejectState 0x0274
    else
      let therm := dbit (swAhead s1) R.SBK_CH_STAT_THERM_LATCH ch
      let s2 := swRearm s1 ch therm
      swDone s2 ch q stDone (b2n (swHeld (swAhead s2) ch) + 2 * b2n therm)
  | none => s

/-- RETRY_RESTART: a tripped channel under POLICY 1 whose wire has cooled to 0.5. -/
def retryRestart (s : State) (ch : Nat) : State :=
  if dbit s R.SBK_CH_STAT_TRIPPED ch && dbit s R.SBK_CH_PROT_POLICY (swLead s ch) then swDue s ch else s

/-- RETRY_WINDOW_END. -/
def retryWindow (s : State) (ch : Nat) : State :=
  match (getSw s ch).window with
  | some w =>
    if w ≤ s.now then swAll (modAll s ch fun c => { c with window := none }) ch R.SBK_CH_STAT_RETRIES_USED 0 else s
  | none => s

/-! ### Commands -/

/-- SW_SET. -/
def execSwSet (t : Fc) (ch : Fin 96) (s : State) : Out := atPlane t (ch.val / 48) (fun s => doSet s ch) s

/-- SW_REARM. -/
def execSwRearm (t : Fc) (ch : Fin 96) (s : State) : Out := atPlane t (ch.val / 48) (fun s => doRearm s ch) s

/-- WIRE_MODEL_UPDATE. -/
def execWireModelUpdate (t : Fc) (ch : Fin 96) (m : MsSamples) (s : State) : Out :=
  atPlane t (ch.val / 48) (fun s => wireUpdate s ch m.own m.other) s

/-- INRUSH_EXPIRY. -/
def execInrushExpiry (t : Fc) (ch : Fin 96) (s : State) : Out := atPlane t (ch.val / 48) (fun s => inrush s ch) s

/-- THERM_LATCH_SET. -/
def execThermLatchSet (t : Fc) (ch : Fin 96) (tj : Int) (s : State) : Out :=
  atPlane t (ch.val / 48) (fun s => thermSet s ch tj) s

/-- THERM_LATCH_CLEAR. -/
def execThermLatchClear (t : Fc) (ch : Fin 96) (tj : Int) (s : State) : Out :=
  atPlane t (ch.val / 48) (fun s => thermClear s ch tj) s

/-- FEED_UV. -/
def execFeedUv (t : Fc) (plane : Fin 2) (mv : Nat) (since : Fc) (s : State) : Out :=
  atPlane t plane (fun s => feedUv s plane mv since) s

/-- UV_RESTART_DELAY_EXPIRY. -/
def execUvRestartDelayExpiry (t : Fc) (plane : Fin 2) (mv : Nat) (since : Fc) (s : State) : Out :=
  atPlane t plane (fun s => uvEnd s plane mv since) s

/-- UV_RESTART_STEP. -/
def execUvRestartStep (t : Fc) (plane : Fin 2) (s : State) : Out := atPlane t plane (fun s => uvStep s plane) s

/-- RETRY_RESTART. -/
def execRetryRestart (t : Fc) (ch : Fin 96) (s : State) : Out :=
  atPlane t (ch.val / 48) (fun s => retryRestart s ch) s

/-- RETRY_WINDOW_END. -/
def execRetryWindowEnd (t : Fc) (ch : Fin 96) (s : State) : Out :=
  atPlane t (ch.val / 48) (fun s => retryWindow s ch) s

/-- OPEN_LOAD_DETECT. -/
def execOpenLoadDetect (t : Fc) (ch : Fin 96) (ma : Nat) (since : Fc) (s : State) : Out :=
  atPlane t (ch.val / 48) (fun s => openLoad s ch ma since) s

/-- PLANE_SHED. -/
def execPlaneShed (t : Fc) (plane : Fin 2) (amps : Nat) (since : Fc) (s : State) : Out :=
  atPlane t plane (fun s => planeShed s plane amps since) s

/-- SHED_RESTORE. -/
def execShedRestore (t : Fc) (plane : Fin 2) (amps : Nat) (since : Fc) (s : State) : Out :=
  atPlane t plane (fun s => shedRestore s plane amps since) s

/-- OPEN_LOAD_CLEAR. -/
def execOpenLoadClear (t : Fc) (ch : Fin 96) (ma : Nat) (s : State) : Out :=
  atPlane t (ch.val / 48) (fun s => openLoadClear s ch ma) s

/-- IN_LIMIT. -/
def execInLimit (t : Fc) (ch : Fin 96) (s : State) : Out := atPlane t (ch.val / 48) (fun s => inLimit s ch) s

end Sys2Proof.Machine
end

