-- ==== Sys2Proof/Machine/Pps.lean ====
section
/-! DEFINITION. Plane supervisors (R232–R234, R243–R249): bids and fencing, arming, hold windows and safe states.
Supervisor 0 is PPS-A with channels 0–47, supervisor 1 is PPS-B with channels 48–95. -/

namespace Sys2Proof.Machine

/-- The channel of a command. -/
def OutCmd.chan : OutCmd → Nat
  | .drv ch _ => ch
  | .sw ch _ => ch

/-- The row-record producer of a command's bank (R27). -/
def OutCmd.prod : OutCmd → Nat
  | .drv ch _ => ch / 8
  | .sw ch _ => 12 + ch / 8

/-- P in fc, the tick period of the latest accepted frame (R247). -/
def ppsPeriod (s : State) (p : Nat) : Nat := rget s R.PPS_STATUS_TICK_US p * fcUs

/-- The plane is armed. -/
def planeArmed (s : State) (p : Nat) : Bool := rbit s R.PPS_CTRL_ARMED p

/-! ### Hold windows (R245, R247) -/

/-- The effective hold window of a channel in µs for a tick period in µs. -/
def holdWindowUs (rows periodUs : Nat) : Nat := min (rows * periodUs) 2000000

/-- HOLD_ROWS of local drive channel `n` or switch channel `n`. -/
def holdRows (s : State) (p : Nat) (drive : Bool) (n : Nat) : Nat :=
  if drive then rval s R.PPS_DRV_HOLD_ROWS p n else rval s R.PPS_SW_HOLD_ROWS p n

/-- The hold-window condition of a plane (R245). -/
def holdCondition (s : State) (p : Nat) : Bool :=
  !rbit s R.XLK_PAIR_CFG_PAIR_EN ||
    (let t := rget s R.TKE_TICK_PERIOD_PERIOD_US
     let need := (rval s R.XLK_PAIR_CFG_HB_MISS + 2) * t
     (List.range 48).all fun n =>
      let b := 6 * p + n / 8
      (!rbit s R.DBK_CTRL_ENABLE b || decide (need ≤ holdWindowUs (holdRows s p true n) t)) &&
      (!rbit s R.SBK_CTRL_ENABLE b || decide (need ≤ holdWindowUs (holdRows s p false n) t)))

/-! ### Safe states (R248) -/

/-- A drive channel takes its safe state. -/
def safeDrive (s : State) (p n : Nat) : State :=
  let ch := 48 * p + n
  let mode := dval s R.DBK_CH_CFG_MODE ch
  let v := rget s R.PPS_DRV_SAFE_VALUE p n
  if drvLatched s ch then s
  else match rval s R.PPS_DRV_SAFE p n, mode with
    | 0, 1 => drvOff s ch
    | 0, 2 => drvProp s ch 0 none
    | 2, 1 => drvProfile s ch 0 0xFFFFFFFF v none (rowNow s) s.now
    | 2, 2 => drvProp s ch (min v 3500) none
    | _, _ => s

/-- A switch channel takes its safe state. -/
def safeSwitch (s : State) (p n : Nat) : State :=
  let ch := 48 * p + n
  if !swMode s ch || swOdd s ch then s
  else match rval s R.PPS_SW_SAFE p n with
    | 0 => swDuty s ch 0
    | 2 => swDuty s ch (min (rget s R.PPS_SW_SAFE_VALUE p n) 1000)
    | _ => s

/-- SAFE_VALUE of every channel that uses it is in its range for the channel's mode (R248). -/
def safeValuesOk (s : State) (p : Nat) : Bool :=
  (List.range 48).all fun n =>
    let ch := 48 * p + n
    let v := rget s R.PPS_DRV_SAFE_VALUE p n
    let d := match rval s R.PPS_DRV_SAFE p n, dval s R.DBK_CH_CFG_MODE ch with
      | 2, 1 => decide (100 ≤ v ∧ v ≤ 4000)
      | 2, 2 => decide (v ≤ 3500)
      | _, _ => true
    let w := if rval s R.PPS_SW_SAFE p n = 2 ∧ swMode s ch then decide (rget s R.PPS_SW_SAFE_VALUE p n ≤ 1000) else true
    d && w

/-! ### Arming (R244, R246) -/

/-- The first failing condition of R244, or 0; the bank checks have been run. -/
def ppsArmErr (s : State) (p : Nat) : Nat :=
  if (List.range 6).any fun k => rbit s R.DBK_CTRL_ENABLE (6 * p + k) && !rbit s R.DBK_CTRL_ADMITTED (6 * p + k) then 1
  else if !holdCondition s p then 2
  else if !safeValuesOk s p then 3
  else if lcState s = 4 then 4 else 0

/-- Channels of a plane as arming leaves them: PROP at 0 mA, no shots, CLAMPED clear. -/
def armChannels (s : State) (p : Nat) : State :=
  (planeChans p).foldl (fun s c =>
    dset (modDrv s c fun k => { k with propMa := 0, rate := 0, lastShot := none, nextShot := none })
      R.DBK_CH_STAT_CLAMPED 0 c) s

/-- The plane's supervisor is loading firmware (R440). -/
def ppsLoading (s : State) (p : Nat) : Bool := (tblGet? s.upd.applying p).isSome

/-- PPS_ARM: ARM is written 1, and the plane arms where every condition of R244 holds. -/
def ppsArm (s0 : State) (p : Nat) : State :=
  if planeArmed s0 p || ppsLoading s0 p then s0
  else
    let s := rset s0 R.PPS_CTRL_ARM 1 p
    let s1 := (List.range 6).foldl (fun s k => bankCheck s (6 * p + k)) s
    let e := ppsArmErr s1 p
    let s2 := rset s1 R.PPS_CTRL_ARM_ERR e p
    if e ≠ 0 then s2
    else
      let s3 := rset (armChannels s2 p) R.PPS_CTRL_ARMED 1 p
      let s4 := rset (rset (rset s3 R.PPS_STATUS_TICK_US 0 p) R.PPS_STATUS_HOLDING 0 p) R.PPS_STATUS_SAFE_ACTIVE 0 p
      setPps s4 p { getPps s4 p with live := false, expired := [], expTold := false, passed := [] }

/-- Commands passed and not yet in effect go back to wait for the next commit. -/
def dropPassed (s : State) (p : Nat) : State :=
  let s1 := (getPps s p).passed.foldl (fun s q => match q.ref with
    | some r => updReq s r fun k => { k with stage := .held }
    | none => s) s
  setPps s1 p { getPps s1 p with passed := [] }

/-- PPS_DISARM: every channel of the plane off at once (R246). -/
def ppsDisarm (s : State) (p : Nat) : State :=
  if ppsLoading s p then s
  else if !planeArmed s p then rset s R.PPS_CTRL_ARM 0 p
  else
    let s1 := (planeChans p).foldl (fun s c => swDuty (drvOff s c) c 0) (dropPassed s p)
    let s2 := rset (rset s1 R.PPS_CTRL_ARM 0 p) R.PPS_CTRL_ARMED 0 p
    let s3 := rset s2 R.PPS_STATUS_SAFE_ACTIVE 0 p
    setPps s3 p { getPps s3 p with expired := [], expTold := false }

/-- Every channel of the plane takes its safe state. -/
def safeAll (s : State) (p : Nat) : State :=
  (List.range 48).foldl (fun s n => safeSwitch (safeDrive s p n) p n) s

/-- SAFE_NOW on an armed plane that has had its first COMMIT (R246). -/
def safeNow (s : State) (p : Nat) : State :=
  if planeArmed s p && (getPps s p).live && !ppsLoading s p then
    let s1 := rset (safeAll s p) R.PPS_STATUS_SAFE_ACTIVE 1 p
    setPps s1 p { getPps s1 p with expired := List.range 96 }
  else s

/-- CLEAR_BID while disarmed in SERVICE or MANUFACTURE (R234). -/
def clearBid (s : State) (p : Nat) : State :=
  if !planeArmed s p ∧ (lcState s = 0 ∨ lcState s = 3) then rset s R.PPS_HIGHEST_BID 0 p else s

/-! ### Frames (R233, R247) -/

/-- The kinds of frame that reach a supervisor. -/
inductive FrameKind where
  | commit
  | keep
  | takeover
  deriving DecidableEq, Repr

/-- An output staged for a channel of this module that does not take it (R173, R207): each module's own bank configuration
decides (R227). -/
def stageMisses (s : State) (q : Passed) : Bool :=
  q.staged && match q.cmd with
    | .drv ch c =>
      let mode := match c with
        | .rate _ => 1
        | _ => 2
      !dbit s R.DBK_CH_CFG_OWNER ch || dval s R.DBK_CH_CFG_MODE ch != mode
    | .sw ch _ => !dbit s R.SBK_CH_CFG_OWNER ch || dval s R.SBK_CH_CFG_MODE ch != 1 || swOdd s ch

/-- Counts a discarded output. -/
def stageMiss (s : State) (q : Passed) : State :=
  match q.cmd with
  | .drv ch _ => rinc s R.DBK_STAGE_MISS_COUNT 1 (ch / 8)
  | .sw ch _ => rinc s R.SBK_STAGE_MISS_COUNT 1 (ch / 8)

/-- The supervisor passes a command to its bank. A staged output that the channel does not take is discarded; shot rates
act as they are passed; the other commands wait for their own step at the bank. -/
def passOne (p : Nat) (s : State) (q : Passed) : State :=
  if stageMisses s q then stageMiss s q
  else match q.cmd with
  | .drv ch (.rate u) =>
    if drvLatched s ch || dval s R.DBK_CH_CFG_MODE ch != 1 then s else drvRate s ch u q.at_
  | _ => setPps s p { getPps s p with passed := (getPps s p).passed ++ [q] }

/-- An accepted COMMIT or KEEP (R247). -/
def ppsContact (s : State) (p : Nat) (own : Bool) (kind : FrameKind) (row periodUs : Nat) (cmds : List Passed) : State :=
  let g := getPps s p
  if kind = .keep ∧ !g.live then s
  else
    let s1 := rset (rset (rset s R.PPS_STATUS_TICK_US periodUs p) R.PPS_STATUS_SOURCE (b2n !own) p) R.PPS_STATUS_HOLDING 0 p
    let s2 := setPps s1 p { g with contactAt := s.now }
    match kind with
    | .commit =>
      let s3 := rset64 s2 R.PPS_LAST_ROW_LO_ROW R.PPS_LAST_ROW_HI_ROW row p
      if planeArmed s p then
        let s4 := if rbit s R.PPS_STATUS_SAFE_ACTIVE p then
            raiseEv (rinc (rset s3 R.PPS_STATUS_SAFE_ACTIVE 0 p) R.PPS_HOLD_EVENTS_HOLD_RESUMES 1 p) evPpsHoldResumed p
          else s3
        cmds.foldl (passOne p) (setPps s4 p { getPps s4 p with live := true, commitAt := some s.now, gridAt := s.now, expired := [], expTold := false })
      else
        -- a disarmed plane passes nothing; a staged output is still counted where its channel does not take it
        let s4 := setPps s3 p { getPps s3 p with live := true, commitAt := some s.now, gridAt := s.now }
        (cmds.filter (stageMisses s4)).foldl stageMiss s4
    | _ => s2

/-- A supervisor sends a FENCE_ACK: over the cross-link's arbiter, or, while the computing side does not run, by its own
transmit path (R231). -/
def fenceAck (s : State) (p : Nat) (payload : List Nat) : State :=
  if s.fabric then xlkSend s 4 payload none
  else
    let f : XFrame := ⟨linkReq 4, 4, frameWords (getPps s p).pairId 4 s.xlk.txSeq payload, none⟩
    { s with xlk := { s.xlk with tx := tblSet s.xlk.tx 4 f, txSeq := (s.xlk.txSeq + 1) % 65536 } }

/-- A frame with a lower bid is fenced (R233); a fencing record or FENCE_ACK follows a COMMIT with commands only. -/
def ppsFenced (s : State) (p : Nat) (own : Bool) (kind : FrameKind) (bid row : Nat) (cmds : List Passed) : State :=
  if own then
    let s1 := rinc s R.PPS_FENCES_OWN 1 p
    if kind ≠ .commit then s1
    else
      let s2 := fencePost s1 ⟨p, [bid, row]⟩
      cmds.foldl (fun s q => match q.ref with
        | some r => completeRow s (OutCmd.prod q.cmd) r stFenced 0x0181 row
        | none => s) s2
  else
    let s1 := rinc s R.PPS_FENCES_PARTNER 1 p
    if kind = .commit then fenceAck s1 p [p, bid, row % 2 ^ 32, row / 2 ^ 32] else s1

/-- The highest bid of the TAKEOVERs that reach the supervisor in the present fc and wait in the queue: they are taken
before a COMMIT of the same fc (R5, R254). -/
def takeoverNow (s : State) (p : Nat) : Nat :=
  s.pending.foldl (fun m c => match c with
    | .takeoverRx x q bid => if x.t = s.now ∧ q.val = p ∧ x.pair = (getPps s p).pairId then max m bid else m
    | _ => m) 0

/-- A frame reaches a supervisor; the result is whether it was accepted. -/
def ppsFrame (s : State) (p : Nat) (own : Bool) (kind : FrameKind) (bid row periodUs : Nat) (cmds : List Passed) :
    State × Bool :=
  let h := max (rget s R.PPS_HIGHEST_BID p) (if kind = .commit then takeoverNow s p else 0)
  if !(getPps s p).powered || ppsLoading s p then (s, true)
  else if bid < h then (ppsFenced (rset s R.PPS_HIGHEST_BID h p) p own kind bid row cmds, false)
  else
    let s1 := if h < bid then rset s R.PPS_HIGHEST_BID bid p else s
    (if kind = .takeover then s1 else ppsContact s1 p own kind row periodUs cmds, true)

/-! ### Loss of contact (R247) -/

/-- Hold windows run: the plane is armed, with a first COMMIT accepted. -/
def ppsTiming (s : State) (p : Nat) : Bool := planeArmed s p && (getPps s p).live

/-- HOLDING_TIMEOUT: 1.5 × P without contact, from the first accepted COMMIT on. -/
def holdingTimeout (s : State) (p : Nat) : State :=
  if (getPps s p).live && decide (2 * (getPps s p).contactAt + 3 * ppsPeriod s p ≤ 2 * s.now) then
    rset s R.PPS_STATUS_HOLDING 1 p
  else s

/-- A COMMIT that the supervisor will accept reaches it in the present fc and waits in the queue (R5, R254). -/
def commitNow (s : State) (p : Nat) : Bool :=
  let h := max (rget s R.PPS_HIGHEST_BID p) (takeoverNow s p)
  s.pending.any fun c => match c with
    | .commitRx x q keep bid _ _ _ =>
      x.t == s.now && q.val == p && !keep && x.pair == (getPps s p).pairId && decide (h ≤ bid)
    | .commitPoint c =>
      c.t == s.now && s.fabric && s.tke.running && !s.tke.committed && s.tke.rowArmed && commanding s &&
        s.tke.overrun.isNone && s.tke.todo.isEmpty && s.tke.disarmAt.all (fun a => s.now ≤ a) &&
        decide (commitAt s ≤ s.now) && decide (h ≤ rget s R.XLK_BID_BID)
    | _ => false

/-- HOLD_WINDOW_EXPIRY of one channel: its effective hold window plus 0.5 × P without contact; an accepted COMMIT of the
same fc comes first. -/
def holdExpiry (s : State) (p : Nat) (drive : Bool) (n : Nat) : State :=
  let g := getPps s p
  let key := if drive then n else 48 + n
  let w := holdWindowUs (holdRows s p drive n) (rget s R.PPS_STATUS_TICK_US p) * fcUs
  if ppsTiming s p && !commitNow s p && !g.expired.contains key && decide (2 * (g.contactAt + w) + ppsPeriod s p ≤ 2 * s.now) then
    let s1 := if drive then safeDrive s p n else safeSwitch s p n
    let s2 := rinc (rset s1 R.PPS_STATUS_SAFE_ACTIVE 1 p) R.PPS_HOLD_EVENTS_HOLD_EXPIRIES 1 p
    let s3 := setPps s2 p { getPps s2 p with expired := key :: g.expired, expTold := true }
    if g.expTold then s3 else raiseEv s3 evPpsHoldExpired p
  else s

/-! ### Supply of a supervisor (R234, R247, R249) -/

/-- Register blocks of a plane's banks and supervisor go back to reset. -/
def planeReset (s : State) (p : Nat) : State :=
  let banks := fun i => i / 6 == p
  let s1 := resetInst (resetInst (resetInst s .dbk banks) .sbk banks) .pps fun i => i == p
  { s1 with
    drv := s1.drv.filter fun x => x.1 / 48 != p, dbk := s1.dbk.filter fun x => x.1 / 6 != p,
    sw := s1.sw.filter fun x => x.1 / 48 != p, feed := s1.feed.filter fun x => x.1 != p }

/-- The supervisor loses its feed and LOGIC: it and its banks lose their state, HIGHEST among it. -/
def ppsPowerLoss (s : State) (p : Nat) : State :=
  let s1 := (planeChans p).foldl drvOff (dropPassed s p)
  setPps (planeReset s1 p) p { Pps.idle with powered := false, pairId := rget s R.XLK_PAIR_ID_PAIR_ID }

/-- It powers up with its plane disarmed and no tick period. -/
def ppsPowerUp (s : State) (p : Nat) : State :=
  if (getPps s p).powered then s else setPps (planeReset s p) p { Pps.idle with pairId := rget s R.XLK_PAIR_ID_PAIR_ID }

/-! ### Commands -/

/-- PPS_ARM. -/
def execPpsArm (t : Fc) (plane : Fin 2) (s : State) : Out :=
  atPlane t plane (fun s => if s.fabric then ppsArm s plane else s) s

/-- PPS_DISARM. -/
def execPpsDisarm (t : Fc) (plane : Fin 2) (s : State) : Out :=
  atPlane t plane (fun s => if s.fabric then ppsDisarm s plane else s) s

/-- SAFE_NOW. -/
def execSafeNow (t : Fc) (plane : Fin 2) (s : State) : Out :=
  atPlane t plane (fun s => if s.fabric then safeNow s plane else s) s

/-- CLEAR_BID. -/
def execClearBid (t : Fc) (plane : Fin 2) (s : State) : Out :=
  atPlane t plane (fun s => if s.fabric then clearBid s plane else s) s

/-- HOLDING_TIMEOUT. -/
def execHoldingTimeout (t : Fc) (plane : Fin 2) (s : State) : Out := atPlane t plane (fun s => holdingTimeout s plane) s

/-- HOLD_WINDOW_EXPIRY. -/
def execHoldWindowExpiry (t : Fc) (plane : Fin 2) (drive : Bool) (n : Fin 48) (s : State) : Out :=
  atPlane t plane (fun s => holdExpiry s plane drive n) s

/-- PLANE_SUPERVISOR_POWER_LOSS. -/
def execPlaneSupervisorPowerLoss (t : Fc) (plane : Fin 2) (s : State) : Out :=
  atTime t (fun s => ppsPowerLoss s plane) s

/-- PLANE_SUPERVISOR_POWER_UP. -/
def execPlaneSupervisorPowerUp (t : Fc) (plane : Fin 2) (s : State) : Out :=
  atTime t (fun s => ppsPowerUp s plane) s

end Sys2Proof.Machine
end

