-- ==== Sys2Proof/Machine/Update.lean ====
section
/-! DEFINITION. Credentials of the key store (R426) and the firmware update descriptors (R432–R441): staging slots,
activation's background copy, confirmation, plane supervisor firmware. Verdicts of cryptographic checks, and what a
certificate says, arrive with the command. Resets stand in `Lifecycle.lean`. -/

namespace Sys2Proof.Machine

def modUpd (s : State) (f : Upd → Upd) : State := { s with upd := f s.upd }
def modKsm (s : State) (f : Ksm → Ksm) : State := { s with ksm := f s.ksm }

/-! ### Credentials -/

/-- Installs an object that has passed its check. -/
def credInstall (s : State) (kind market : Nat) (cert : Option Cert) (bytes : List Nat) : State :=
  match kind with
  | 0 => rset (modKsm s fun k => { k with memberCert := cert }) R.KSM_KEYS_MEMBER_CERT 1
  | 1 => rset (modKsm s fun k => { k with root := true, rootMarket := market }) R.KSM_KEYS_ROOT 1
  | 6 => modKsm s fun k => { k with macs := (List.range 6).map fun p => (bytes.drop (6 * p)).take 6 }
  | n => rsetBitAt (modKsm s fun k => { k with intKeys := tblSet k.intKeys (n - 1) bytes }) R.KSM_KEYS_INT_SLOTS (n - 2) true

/-- The certificate may replace the held one in FIELD: it chains to the market root and names the same market and
pitch. -/
def certRenews (s : State) (cert : Option Cert) : Bool :=
  match cert, s.ksm.memberCert with
  | some c, some h => s.ksm.root && c.chains && c.name.isSome && c.market == h.market && c.pitch == h.pitch
  | _, _ => false

/-- CRED_SET; `ok` says that the object passes its check. -/
def credSet (s : State) (r : Ref) (d : Desc) (ok : Bool) (cert : Option Cert) (market : Nat) (bytes : List Nat) : State :=
  let kind := d.classWord % 16
  let st := lcState s
  let len := d.word 0x18 % 65536
  let open_ := if kind = 6 then st = 0 else if kind = 0 then st = 0 ∨ st = 1 ∨ st = 2 else kind ≤ 5 ∧ (st = 0 ∨ st = 1)
  let size := if kind = 6 then len == 36 else if 2 ≤ kind then len == 97 else decide (len ≤ 1024)
  if !decide open_ then complete s r stRejectState 0x0298
  else if !ok ∨ !size ∨ (kind = 0 ∧ cert.isNone) ∨ (kind = 0 ∧ st = 2 ∧ !certRenews s cert) then
    complete s r stRejectAuth 0x0498
  else complete (credInstall s kind market (cert.map fun c => { c with der := bytes.take len }) bytes) r stDone

/-- PUBKEY_GET. -/
def pubkeyGet (s : State) (r : Ref) (d : Desc) : State :=
  if rbit s R.KSM_KEYS_DEVICE_KEY then
    complete (hostWrite s (refHost s r) (d.quad 0x10)
      ((List.range 97).map fun k => BitVec.ofNat 8 (Config.devicePublicKey k))) r stDone
  else complete s r stRejectState 0x0298

/-! ### Staging slots (R434) -/

def getSlot (s : State) (k : Nat) : UpdSlot := tblGetD s.upd.slots k UpdSlot.empty
def modSlotU (s : State) (k : Nat) (f : UpdSlot → UpdSlot) : State :=
  modUpd s fun u => { u with slots := tblSet u.slots k (f (getSlot s k)) }

/-- States of a slot: 0 EMPTY, 1 OPEN, 2 CLOSED, 3 BOUND. -/
def slotState (s : State) (k : Nat) : Nat := rget s (if k = 0 then R.UPD_STATUS_SLOT_A else R.UPD_STATUS_SLOT_B)
def setSlotState (s : State) (k v : Nat) : State :=
  rset s (if k = 0 then R.UPD_STATUS_SLOT_A else R.UPD_STATUS_SLOT_B) v

/-- Sets the count of missing blocks. -/
def setMissing (s : State) (k n : Nat) : State :=
  rset s (if k = 0 then R.UPD_BLOCKS_A_MISSING else R.UPD_BLOCKS_B_MISSING) n

/-- Crypto-erases a slot; a CLOSE verifying it finds it no longer open. -/
def eraseSlot (s : State) (k : Nat) : State :=
  let s1 := completeOpt s (getSlot s k).closing stRejectState 0x0292
  setMissing (setSlotState (modSlotU s1 k fun _ => UpdSlot.empty) k 0) k 0

/-- Bytes of an image. -/
def Image.size (i : Image) : Nat := (i.blocks - 1) * 65536 + i.lastLen

/-- Words of the header in a byte range are zero. -/
def headerZero (h : List Nat) (lo hi : Nat) : Bool := ((h.take (hi / 4)).drop (lo / 4)).all fun w => w == 0

/-- A component entry lies within the image. -/
def componentOk (i : Image) (h : List Nat) (k : Nat) : Bool :=
  let o := 0x40 + 16 * k
  imgWord h o % 256 == 0 ||
    decide (imgWord h (o + 4) * 65536 + join64 (imgWord h (o + 8)) (imgWord h (o + 12)) ≤ i.size)

/-- The image that a header describes. -/
def headerImage (h : List Nat) : Image :=
  { signer := imgWord h 4 / 65536 % 256, version := imgWord h 8, svn := imgWord h 0xC % 128, blocks := imgWord h 0x10,
    lastLen := imgWord h 0x14, hwMin := imgWord h 0x18 % 256, variants := imgWord h 0x18 / 256 % 4, keyId := imgWord h 0x1C,
    components := ((List.range 16).map fun k => imgWord h (0x40 + 16 * k) % 256).filter (· != 0) }

/-- The header checks of OPEN (R432, R435); `h` are its 1,024 words. -/
def headerOk (h : List Nat) : Bool :=
  let i := headerImage h
  imgWord h 0 == 0x474D4951 && imgWord h 4 % 65536 == 0x0100 && imgWord h 4 / 2 ^ 24 == 0 &&
    decide (imgWord h 0xC < 128) && decide (1 ≤ i.blocks ∧ i.blocks ≤ 65000) && decide (1 ≤ i.lastLen ∧ i.lastLen ≤ 65536) &&
    decide (imgWord h 0x18 < 1024) && headerZero h 0x28 0x40 && headerZero h 0x140 0xF00 && headerZero h 0xF60 0x1000 &&
    (List.range 16).all fun k => componentOk i h k

/-- Any opcode in RETIRED is refused, then the descriptor. -/
def updJob (s : State) (r : Ref) (f : State → State) : State :=
  if lcState s = 4 then complete s r stRejectState 0x0297 else f s

/-- UPD_OPEN; `h` are the header's words as read from memory. -/
def updOpen (s : State) (r : Ref) (d : Desc) (h : List Nat) : State :=
  updJob s r fun s =>
    let k := d.classWord % 2
    if lcState s = 0 then complete s r stRejectState 0x0297
    else if !headerOk h then complete s r stRejectFormat 0x0190
    else if slotState s k = 3 then complete s r stRejectState 0x0292
    else
      let i := headerImage h
      let s1 := modSlotU (eraseSlot s k) k fun _ => { UpdSlot.empty with image := some i }
      complete (setMissing (setSlotState s1 k 1) k i.blocks) r stDone

/-- UPD_BLOCK; `tagOk` says that the tag verifies, `fault` is the sense of a store fault. -/
def updBlock (s : State) (r : Ref) (d : Desc) (tagOk : Bool) (fault : Option (Nat × Nat)) : State :=
  updJob s r fun s =>
    let k := d.classWord % 2
    let idx := d.classWord / 256
    match (getSlot s k).image with
    | none => complete s r stRejectState 0x0292
    | some i =>
      if slotState s k ≠ 1 then complete s r stRejectState 0x0292
      else if i.blocks ≤ idx ∨ d.word 0x18 % 2 ^ 17 ≠ (if idx + 1 = i.blocks then i.lastLen else 65536) then
        complete s r stRejectFormat 0x0191
      else if (getSlot s k).held.contains idx then complete s r stDone 1
      else if !tagOk then complete s r stRejectAuth 0x0491
      else match fault with
        | some (key, asc) => complete (mediaError s true) r stMediaError (senseDetail key asc)
        | none =>
          let s1 := modSlotU s k fun u => { u with held := idx :: u.held }
          complete (setMissing s1 k (i.blocks - (getSlot s1 k).held.length)) r stDone

/-- UPD_CLOSE: with every block held, the verification begins. -/
def updClose (s : State) (r : Ref) (d : Desc) : State :=
  updJob s r fun s =>
    let k := d.classWord % 2
    match (getSlot s k).image with
    | none => complete s r stRejectState 0x0292
    | some i =>
      if slotState s k ≠ 1 ∨ (getSlot s k).closing.isSome then complete s r stRejectState 0x0292
      else if (getSlot s k).held.length < i.blocks then complete s r stRejectState 0x0293
      else modSlotU s k fun u => { u with closing := some r }

/-- Fuse counter of an image's signer. -/
def fuseCounter (s : State) (signer : Nat) : Nat :=
  if signer = 0 then rget s R.UPD_SVN_VENDOR_SVN else rget s R.UPD_SVN_INT_SVN

/-- The image suits this module: its revision and its ordering code. -/
def imageSuits (i : Image) : Bool :=
  decide (i.hwMin ≤ Config.hwMajor) && bitOf i.variants (if Config.airCooled then 1 else 0)

/-- UPD_CLOSE_DONE: `sigOk` says that SIG verifies with the named key, `keyKnown` that KEY_ID is known. -/
def updCloseDone (s : State) (k : Nat) (sigOk keyKnown : Bool) (fault : Option (Nat × Nat)) : State :=
  match (getSlot s k).closing, (getSlot s k).image with
  | some r, some i =>
    if !storeAlone s r then s
    else storeNext <|
    let s1 := modSlotU s k fun u => { u with closing := none }
    let noKey := i.signer ≠ 0 ∧ (tblGet? s.ksm.intKeys i.signer).isNone
    match fault with
    | some (key, asc) => complete (mediaError s1 false) r stMediaError (senseDetail key asc)
    | none =>
      if !sigOk ∨ !keyKnown ∨ noKey then complete s1 r stRejectAuth 0x0492
      else if i.svn < fuseCounter s i.signer then complete s1 r stRejectAuth 0x0493
      else if (i.signer ≠ 0 ∧ i.components.any (· != 1)) ∨ !imageSuits i then complete s1 r stRejectAuth 0x0494
      else complete (setSlotState s1 k 2) r stDone
  | _, _ => s

/-- UPD_CANCEL. -/
def updCancel (s : State) (r : Ref) (d : Desc) : State :=
  updJob s r fun s =>
    let k := d.classWord % 2
    if slotState s k = 3 then complete s r stRejectState 0x0292 else complete (eraseSlot s k) r stDone

/-! ### Activation (R436, R437, R439) -/

/-- The first channel of an enabled bank of an armed plane whose effective hold window is below 1,600 ms: kind (0 drive,
1 switch) and number. -/
def shortHold (s : State) : Option (Nat × Nat) :=
  let t := rget s R.TKE_TICK_PERIOD_PERIOD_US
  let short := fun (drive : Bool) ch => planeArmed s (ch / 48) &&
    rbit s (if drive then R.DBK_CTRL_ENABLE else R.SBK_CTRL_ENABLE) (ch / 8) &&
    decide (holdWindowUs (holdRows s (ch / 48) drive (ch % 48)) t < 1600000)
  match (List.range 96).find? fun ch => short true ch with
  | some ch => some (0, ch)
  | none => match (List.range 96).find? fun ch => short false ch with
    | some ch => some (1, ch)
    | none => none

/-- ACTIVATE. -/
def activate (s : State) (r : Ref) (d : Desc) : State :=
  updJob s r fun s =>
    let k := d.classWord % 2
    if slotState s k ≠ 2 then complete s r stRejectState 0x0292
    else if rbit s R.UPD_STATUS_TRIAL ∨ slotState s (1 - k) = 3 then complete s r stRejectState 0x0294
    else if bitOf d.classWord 1 then complete (rset (setSlotState s k 3) R.UPD_STATUS_PENDING 1) r stDone
    else
      let go := modUpd (setSlotState s k 3) fun u => { u with copying := some (r, k) }
      if commanding s && !bitOf d.classWord 2 then
        match shortHold s with
        | some (kind, ch) =>
          complete (rset (rset s R.UPD_STATUS_SHORT_KIND kind) R.UPD_STATUS_SHORT_CH ch) r stRejectState 0x0295
        | none => go
      else go

/-- The bank that is not active. -/
def otherBank (s : State) : Nat := 1 - rget s R.UPD_STATUS_ACTIVE_BANK

/-- ACTIVATE_COPY_DONE: a seal is made for the inactive bank and the activation reset is requested at the till flush of
the next row; a failed copy leaves the slot CLOSED and that bank invalid. -/
def copyDone (s : State) (fault : Option (Bool × Nat × Nat)) : State :=
  match s.upd.copying with
  | none => s
  | some (r, k) =>
    if s.upd.resetAfter.isSome then s
    else match fault, (getSlot s k).image with
      | none, some i =>
        let s1 := modUpd s fun u => { u with banks := tblSet u.banks (otherBank s) i, resetAfter := some (rowNow s) }
        { s1 with aoc := { s1.aoc with bootSeal := some (otherBank s) } }
      | f, _ =>
        let s1 := modUpd (setSlotState s k 2) fun u => { u with copying := none, banks := tblErase u.banks (otherBank s) }
        let e := f.getD (false, 0, 0)
        complete (copyError (rset s1 R.UPD_STATUS_LAST_RESULT 3) f) r stMediaError (senseDetail e.2.1 e.2.2)

/-- The activation reset may be requested: its row has come and its record has been flushed (R436). -/
def activationDue (s : State) : Bool :=
  s.upd.copying.isSome && match s.upd.resetAfter with
    | some row => decide (row < rowNow s) && s.tke.flushed
    | none => false

/-- The activation reset of a descriptor is requested in the present fc, by a command that waits: an abort of that fc
finds the copy complete (R5, R441). -/
def activationNow (s : State) (r : Ref) : Bool :=
  activationDue s && (s.upd.copying.map (·.1)) == some r && s.pending.any fun c => match c with
    | .activationReset t => t == s.now
    | _ => false

/-- The abort doorbell of a descriptor that waits in the present fc is registered in it (R5, R71). -/
def noteAbortNow (s : State) (r : Ref) : State :=
  let waits := s.pending.any fun c => match c with
    | .abortDb t n idx w =>
      t == s.now && n.val == r.ring && idx.val == r.slot && w.size == 4 && rbit s R.RING_CFG_HOST 0 n == w.host
    | _ => false
  if waits then updReq s r fun q => { q with aborted := q.aborted.orElse fun _ => some ⟨rowNow s, s.now, none⟩ } else s

/-- CONFIRM: ends the trial; the signer's fuse counter advances to the running image's SVN. -/
def confirmImage (s : State) (r : Ref) : State :=
  updJob s r fun s =>
    if rbit s R.UPD_STATUS_TRIAL then
      let i := tblGetD s.upd.banks (rget s R.UPD_STATUS_ACTIVE_BANK) Image.delivered
      let fuse := if i.signer = 0 then R.UPD_SVN_VENDOR_SVN else R.UPD_SVN_INT_SVN
      let s1 := rset (rset s R.UPD_STATUS_TRIAL 0) fuse (max (rget s fuse) i.svn)
      complete (raiseEv s1 evUpdConfirmed) r stDone
    else complete s r stDone

/-- A CONFIRM that waits in the fc of a reset request takes effect before the reset (R5, R441). -/
def confirmFirst (s : State) : State :=
  s.pending.foldl (fun u c => match c with
    | .confirm t r => if t = s.now then withDesc r 9 5 (fun _ u => confirmImage u r) u else u
    | _ => u) s

/-! ### Plane supervisor firmware (R440) -/

/-- PPS_APPLY; `version` is that of the PPS component of the active bank. An image without one is refused as R440's other
conditions are (DESIGN CHOICE, log entry 104; unsafe). -/
def ppsApply (s : State) (r : Ref) (d : Desc) (version : Nat) : State :=
  updJob s r fun s =>
    let p := d.classWord % 2
    let recent : Bool := match (getPps s p).commitAt with
      | some a => decide (s.now < a + 100 * fcMs)
      | none => false
    let held := (tblGetD s.upd.banks (rget s R.UPD_STATUS_ACTIVE_BANK) Image.delivered).components.contains 4
    if !held ∨ !rbit s R.PPS_STATUS_SAFE_ACTIVE p ∨ (tkeArmed s ∧ planeArmed s p) ∨
        (rbit s R.XLK_PAIR_CFG_PAIR_EN ∧ recent) ∨ ppsLoading s p then complete s r stRejectState 0x0296
    else if version % 65536 = rget s (if p = 0 then R.UPD_PPS_PPS_A else R.UPD_PPS_PPS_B) then complete s r stDone 1
    else modUpd s fun u => { u with applying := tblSet u.applying p (r, version, s.now) }

/-- The new firmware starts: the supervisor is reinitialised, but for HIGHEST and ARMED, and the safe states hold until the
next accepted COMMIT (R249, R440; which registers it keeps besides DEDUCED, log entry 178; unsafe). -/
def ppsRestart (s : State) (p : Nat) : State :=
  let keep : List Fld := [R.PPS_HIGHEST_BID, R.PPS_CTRL_ARM, R.PPS_CTRL_ARMED, R.PPS_STATUS_SAFE_ACTIVE]
  let s1 := dropKeys s fun k => keyBlk k == blkCode .pps && keyInst k == p && !keep.any fun f => f.id == k / (64 * 4096)
  let g := getPps s p
  setPps s1 p { Pps.idle with pairId := g.pairId, gridAt := g.gridAt }

/-- PPS_APPLY_DONE: the supervisor runs again. -/
def ppsApplyDone (s : State) (p : Nat) : State :=
  match tblGet? s.upd.applying p with
  | none => s
  | some (r, v, _) =>
    let s1 := modUpd (ppsRestart s p) fun u => { u with applying := tblErase u.applying p }
    let s2 := raiseEv (rset s1 (if p = 0 then R.UPD_PPS_PPS_A else R.UPD_PPS_PPS_B) v) evUpdPpsApplied
    if isTaken s2 r then complete s2 r stDone else s2

/-! ### Aborts (R441) -/

/-- The work of an update descriptor stops: a copy leaves its slot CLOSED and the inactive bank invalid, a CLOSE its
slot OPEN; a supervisor finishes loading. -/
def stopUpdate (s : State) (r : Ref) : State :=
  let s1 := match s.upd.copying with
    | some (q, k) =>
      if q = r then modUpd (setSlotState s k 2) fun u => { u with
          copying := none, resetAfter := none, banks := tblErase u.banks (otherBank s) }
      else s
    | none => s
  modUpd s1 fun u => { u with
    slots := u.slots.map fun p => (p.1, if p.2.closing = some r then { p.2 with closing := none } else p.2) }

/-! ### Commands -/

/-- CRED_SET. -/
def execCredSet (t : Fc) (r : Ref) (ok : Bool) (cert : Option Cert) (market : Nat) (bytes : List Nat) (s : State) : Out :=
  atFabric t (fun s => withDesc r 0xB 0x82 (fun d s => credSet s r d ok cert market bytes) s) s

/-- PUBKEY_GET. -/
def execPubkeyGet (t : Fc) (r : Ref) (s : State) : Out :=
  atFabric t (fun s => withDesc r 0xB 0x81 (fun d s => pubkeyGet s r d) s) s

/-- UPD_OPEN. -/
def execUpdOpen (t : Fc) (r : Ref) (header : List Nat) (s : State) : Out :=
  atFabric t (fun s => withDesc r 9 1 (fun d s => updOpen s r d header) s) s

/-- UPD_BLOCK. -/
def execUpdBlock (t : Fc) (r : Ref) (tagOk : Bool) (fault : Option (Nat × Nat)) (s : State) : Out :=
  atFabric t (fun s => onlyIf (storeFirst s r && storeAlone s r)
    (fun s => storeNext (withDesc r 9 2 (fun d s => updBlock s r d tagOk fault) s)) s) s

/-- UPD_CLOSE. -/
def execUpdClose (t : Fc) (r : Ref) (s : State) : Out :=
  atFabric t (fun s => onlyIf (storeFirst s r)
    (fun s => storeServe (withDesc r 9 3 (fun d s => updClose s r d) s)) s) s

/-- UPD_CLOSE_DONE. -/
def execUpdCloseDone (t : Fc) (slot : Fin 2) (sigOk keyKnown : Bool) (fault : Option (Nat × Nat)) (s : State) : Out :=
  atFabric t (fun s => updCloseDone s slot sigOk keyKnown fault) s

/-- ACTIVATE. -/
def execActivate (t : Fc) (r : Ref) (s : State) : Out :=
  atFabric t (fun s => withDesc r 9 4 (fun d s => activate s r d) s) s

/-- ACTIVATE_COPY_DONE. -/
def execActivateCopyDone (t : Fc) (fault : Option (Bool × Nat × Nat)) (s : State) : Out :=
  atFabric t (fun s => copyDone s fault) s

/-- CONFIRM. -/
def execConfirm (t : Fc) (r : Ref) (s : State) : Out :=
  atFabric t (fun s => withDesc r 9 5 (fun _ s => confirmImage s r) s) s

/-- PPS_APPLY. -/
def execPpsApply (t : Fc) (r : Ref) (version : Nat) (s : State) : Out :=
  atFabric t (fun s => withDesc r 9 6 (fun d s => ppsApply s r d version) s) s

/-- PPS_APPLY_DONE. -/
def execPpsApplyDone (t : Fc) (plane : Fin 2) (s : State) : Out := atPlane t plane (fun s => ppsApplyDone s plane) s

/-- UPD_CANCEL. -/
def execUpdCancel (t : Fc) (r : Ref) (s : State) : Out :=
  atFabric t (fun s => withDesc r 9 7 (fun d s => updCancel s r d) s) s

end Sys2Proof.Machine
end

