-- ==== Sys2Proof/Machine/Vision.lean ====
section
/-! DEFINITION. Camera ports, the image pipeline's frames and jobs, and the vision accelerator (R315–R340). Pixels of a
line, and what the pipeline and a network compute, arrive with the command: the spec does not state that arithmetic. -/

namespace Sys2Proof.Machine

def modVis (s : State) (f : Vision → Vision) : State := { s with vis := f s.vis }
def getCam (s : State) (p : Nat) : Cam := tblGetD s.vis.cams p Cam.idle
def modCam (s : State) (p : Nat) (f : Cam → Cam) : State :=
  modVis s fun v => { v with cams := tblSet v.cams p (f (getCam s p)) }

def camOn (s : State) (p : Nat) : Bool := rbit s R.CAM_CTRL_EN p

/-- Bytes of a raw pixel: 1 for RAW8, else 2 (R319). -/
def rawBytes (s : State) (p : Nat) : Nat := if rget s R.CAM_FORMAT_DATA_TYPE p = 0x2A then 1 else 2

def camWidth (s : State) (p : Nat) : Nat := rget s R.CAM_SIZE_WIDTH p
def camHeight (s : State) (p : Nat) : Nat := rget s R.CAM_SIZE_HEIGHT p
def mosaic (s : State) (p : Nat) : Nat := rget s R.CAM_FORMAT_MOSAIC p

/-- Address of a raw slot. -/
def slotAddr (s : State) (p k : Nat) : Nat :=
  rget s R.CAM_RAW_BASE_LO_ADDR_LO p * 4096 + 2 ^ 32 * rget s R.CAM_RAW_BASE_HI_ADDR_HI p +
    k * (rget s R.CAM_RAW_SLOT_SLOT_4K p * 4096)

/-- READY and BUSY of ISP_STAT. -/
def ispView (s : State) : State :=
  let n := [1, 2, 3].foldl (fun n p => n + (getCam s p).ready.length) 0
  let zero := getCam s 0
  let bound := match zero.cur with
    | some f => f.kept
    | none => false
  rsetB (rset s R.ISP_STAT_READY n) R.ISP_STAT_BUSY (s.vis.isp.isSome || bound || !zero.ready.isEmpty)

/-! ### Line slots (R321, R322) -/

/-- The frames of CAM0 that a CAPTURE is bound to, oldest first. -/
def zeroFrames (s : State) : List CamFrame :=
  let c := getCam s 0
  (c.ready ++ c.cur.toList).filter (·.kept)

/-- A line of the frame waits for the ISP. -/
def lineWaits (f : CamFrame) : Bool := decide (f.done < f.rows.length)

/-- Port and frame of the next line slot: a complete CAM0 line first, else the memory frame in progress. -/
def lineTurn (s : State) : Option (Nat × Nat) :=
  match (zeroFrames s).find? lineWaits with
  | some f => some (0, f.no)
  | none => match s.vis.isp with
    | some (p, f) => if lineWaits f then some (p, f.no) else none
    | none => none

/-- Length of a line slot in fc: 800 Mpixel/s. -/
def slotFc (s : State) (p : Nat) : Nat := camWidth s p / 2

/-- A line slot begins at an fc, if none is in progress and a line waits. -/
def lineBegin (s : State) (at_ : Nat) : State :=
  match s.vis.slot, lineTurn s with
  | none, some (p, no) => modVis s fun v => { v with slot := some ⟨p, no, at_ + slotFc s p⟩ }
  | _, _ => s

/-- Adds a time of use; what ended more than one second ago is dropped. -/
def addUsed (now a b : Nat) (l : List (Nat × Nat)) : List (Nat × Nat) :=
  let k := l.filter fun x => decide (now < x.2 + fcSec)
  match k with
  | (c, d) :: t => if d = a then (c, b) :: t else (a, b) :: k
  | [] => [(a, b)]

/-- A line slot ends: one more line of its frame has been processed. -/
def lineEnd (s : State) (l : LineSlot) : State :=
  let up := fun (f : CamFrame) => if f.no = l.no ∧ f.kept then { f with done := f.done + 1 } else f
  let s1 := modVis s fun v => { v with
    slot := none, used := addUsed s.now (l.end_ - slotFc s l.port) l.end_ v.used }
  if l.port = 0 then modCam s1 0 fun c => { c with cur := c.cur.map up, ready := c.ready.map up }
  else modVis s1 fun v => { v with isp := v.isp.map fun x => if x.1 = l.port then (x.1, up x.2) else x }

/-- The line slots up to the present fc; `fuel` bounds them. -/
def runLines : Nat → State → State
  | 0, s => s
  | fuel + 1, s =>
    match s.vis.slot with
    | some l => if l.end_ ≤ s.now then runLines fuel (lineBegin (lineEnd s l) l.end_) else s
    | none => s

/-- The ISP as it stands in the present fc. -/
def ispNow (s : State) : State :=
  let mem := match s.vis.isp with
    | some (_, f) => f.rows.length
    | none => 0
  runLines (((zeroFrames s).foldl (fun n f => n + f.rows.length) mem) + 1) s

/-- ISP_STAT.LOAD: the share of the last second in which line slots were used, in percent (how it is counted DESIGN CHOICE,
log entry 179; unsafe). -/
def ispLoad (s0 : State) : Nat :=
  let s := ispNow s0
  let from_ := s.now - fcSec
  let busy := s.vis.used.foldl (fun n x => n + (x.2 - max x.1 from_)) 0
  let run := match s.vis.slot with
    | some l => s.now - max (l.end_ - slotFc s l.port) from_
    | none => 0
  min ((busy + run) * 100 / fcSec) 100

/-- ISP_STAT.CUR_PORT: the port of the line in progress, else of the memory frame in progress, else that of the frame started
last. -/
def ispPort (s0 : State) : Nat :=
  let s := ispNow s0
  match s.vis.slot with
  | some l => l.port
  | none => match s.vis.isp with
    | some (p, _) => p
    | none => rget s R.ISP_STAT_CUR_PORT

/-- Every accepted line of a frame has been processed. -/
def frameThrough (f : CamFrame) : Bool := !lineWaits f

/-- Bytes of a port's receive buffer (R321). -/
def bufSize : Nat := 262144

/-- Bytes in a port's receive buffer, a pixel taking what it takes in a raw slot (DESIGN CHOICE, log entry 180; unsafe): on
CAM0 the lines that wait for the ISP, on CAM1–CAM3 what has not been written to memory. -/
def bufLevel (s : State) (p : Nat) : Nat :=
  if p = 0 then
    (zeroFrames s).foldl (fun n f => n + (f.rows.length - f.done) * camWidth s 0 * rawBytes s 0) 0
  else (getCam s p).buf.foldl (fun n x => n + x.2.length) 0

/-- Bytes join the buffer behind those of the address before them. -/
def bufPut (addr : Nat) (bs : List Byte) : List (Nat × List Byte) → List (Nat × List Byte)
  | [] => if bs.isEmpty then [] else [(addr, bs)]
  | [(a, l)] => if a + l.length = addr then [(a, l ++ bs)] else (a, l) :: if bs.isEmpty then [] else [(addr, bs)]
  | x :: t => x :: bufPut addr bs t

/-! ### Ports (R315–R318) -/

/-- The colours of a colour filter (R330). -/
inductive Colour where
  | r | g | b | c | ir
  deriving DecidableEq, Repr

/-- The cell of a mosaic in phase 0, by rows; none for a value that R330 does not give, and no cell for MONO_NIR. -/
def mosaicCell (m : Nat) : Option (List (List Colour)) :=
  match m with
  | 0 => some [[.r, .g], [.g, .b]]
  | 1 => some [[.r, .c], [.c, .b]]
  | 2 => some [[.r, .c], [.c, .c]]
  | 3 => some [[.r, .g], [.ir, .b]]
  | 4 => some [[.b, .g, .r, .g], [.g, .ir, .g, .ir], [.r, .g, .b, .g], [.g, .ir, .g, .ir]]
  | 5 => some []
  | _ => none

/-- The colour of the pixel in a column and row of a frame: PHASE bit 0 shifts the cell by one column, bit 1 by one row
(R330). -/
def pixelColour (m phase x y : Nat) : Option Colour :=
  match mosaicCell m with
  | some cell =>
    let n := cell.length
    (cell[(y + phase / 2) % n]?).bind fun row => row[(x + phase % 2) % n]?
  | none => none

/-- Some pixel of the frame has the colour. -/
def hasColour (m phase : Nat) (c : Colour) : Bool :=
  (List.range 4).any fun y => (List.range 4).any fun x => pixelColour m phase x y == some c

/-- The raw data types of R315. -/
def rawType (dt : Nat) : Bool := decide (0x2A ≤ dt ∧ dt ≤ 0x2E)

/-- The first condition of R316 that a port's configuration fails, as its ERR code. -/
def camError (s : State) (p : Nat) : Nat :=
  let w := camWidth s p
  let h := camHeight s p
  if w < 64 ∨ 4096 < w ∨ w % 16 ≠ 0 ∨ h < 16 ∨ 3072 < h ∨ !rawType (rget s R.CAM_FORMAT_DATA_TYPE p) then 1
  else if (mosaicCell (mosaic s p)).isNone then 3
  else if p ≠ 0 ∧ (rget s R.CAM_RAW_SLOT_SLOT_COUNT p < 2 ∨ 64 < rget s R.CAM_RAW_SLOT_SLOT_COUNT p ∨
      rget s R.CAM_RAW_SLOT_SLOT_4K p * 4096 < w * h * rawBytes s p) then 2
  else 0

/-- CAM_ENABLE. -/
def camEnable (s : State) (p : Nat) : State :=
  if camOn s p then s
  else
    let s1 := rset s R.CAM_CTRL_ERR (camError s p) p
    if camError s p ≠ 0 then s1
    else rset (modCam s1 p fun c => { Cam.idle with live := c.live, syncs := c.syncs, overAt := c.overAt }) R.CAM_CTRL_EN 1 p

/-- Flags of a frame as DETAIL [7:0] of R326. -/
def frameFlags (height : Nat) (f : CamFrame) : Nat :=
  let short := decide (f.received < height)
  b2n short + 2 * b2n f.long + 4 * b2n f.ovf + 8 * b2n (decide (0 < f.lineErrs)) + 16 * b2n f.noFe +
    32 * b2n f.linkLost + 64 * b2n (short || decide (0 < f.lost)) + 128 * b2n (decide (0 < f.crcLines))

/-- Closes the frame being received; a kept frame awaits the ISP (R320, R323). -/
def closeFrame (s : State) (p : Nat) (mark : CamFrame → CamFrame) : State :=
  let c := getCam s p
  match c.cur with
  | none => s
  | some f =>
    let g := mark { f with feTime := moduleTime s, feAt := s.now }
    modCam s p fun c => { c with cur := none, ready := if f.kept then c.ready ++ [g] else c.ready }

/-- A frame that starts. -/
def CamFrame.start (s : State) (no csi hdr : Nat) : CamFrame :=
  { no := no, csi := csi % 65536, fsTime := moduleTime s, feTime := 0, feAt := 0, slot := none, kept := false, rows := [],
    received := 0, lost := 0, lineErrs := 0, crcLines := 0, hdrErrs := hdr, ovf := false, long := false, noFe := false,
    linkLost := false, ref := none, params := none, done := 0 }

/-- The raw slots of a port in use: filling, READY or BOUND. -/
def slotsUsed (s : State) (p : Nat) : List Nat :=
  let c := getCam s p
  let bound := match s.vis.isp with
    | some (q, f) => if q = p then [f] else []
    | none => []
  (c.cur.toList ++ c.ready ++ bound).filterMap (·.slot)

/-- The FREE slot next in ring order. -/
def nextSlot (s : State) (p : Nat) : Option Nat :=
  let n := rget s R.CAM_RAW_SLOT_SLOT_COUNT p
  let used := slotsUsed s p
  ((List.range n).map fun k => ((getCam s p).slotAt + k) % n).find? fun k => !used.contains k

/-- A memory-path port takes a slot at FS (R320). -/
def takeSlot (s : State) (p : Nat) (f : CamFrame) : State :=
  let n := rget s R.CAM_RAW_SLOT_SLOT_COUNT p
  let put := fun (s : State) k =>
    modCam s p fun c => { c with cur := some { f with slot := some k, kept := true }, slotAt := (k + 1) % max n 1 }
  match nextSlot s p with
  | some k => put s k
  | none =>
    match (getCam s p).ready with
    | old :: rest =>
      put (rinc (modCam s p fun c => { c with ready := rest }) R.CAM_DROPS_REUSED 1 p) (old.slot.getD 0)
    | [] => rinc (modCam s p fun c => { c with cur := some f }) R.CAM_DROPS_NO_SLOT 1 p

/-! ### Parameters (R328, R329) -/

/-- The set with the greatest APPLY_FRAME. -/
def bestSet : List ParamSet → Option ParamSet
  | [] => none
  | a :: t =>
    match bestSet t with
    | some b => if b.apply ≤ a.apply then some a else some b
    | none => some a

/-- The ISP starts frame `n` of a port: the pending set with the greatest APPLY_FRAME that does not exceed `n`
becomes live. -/
def paramsStart (s : State) (p n : Nat) : State :=
  let due := (getCam s p).pend.filter fun x => decide (x.apply ≤ n)
  match bestSet due with
  | none => s
  | some b =>
    let s1 := modCam s p fun c => { c with
      pend := c.pend.filter fun x => decide (n < x.apply), live := some (b.apply, b.words) }
    due.foldl (fun s x =>
      complete s x.ref stDone (if x.ref = b.ref then (if b.apply = n then 0 else 4) else 1)) s1

/-- Zero in every byte of a range of an image. -/
def zeroBytes (img : List Nat) (lo hi : Nat) : Bool :=
  (((imgBytes img 1024).take (hi + 1)).drop lo).all fun b => b == 0

/-- Values in the list do not fall. -/
def nonDecreasing : List Nat → Bool
  | a :: b :: t => decide (a ≤ b) && nonDecreasing (b :: t)
  | _ => true

/-- The checks of R329. -/
def paramsOk (img : List Nat) : Bool :=
  let bs := imgBytes img 1024
  let gains := [2, 3, 4, 5].map fun k => img.getD k 0
  let gamma := (List.range 257).map fun k => bs.getD (0x80 + 2 * k) 0 + 256 * bs.getD (0x81 + 2 * k) 0
  gains.all (fun g => decide (g ≤ 0x41800000) || g == 0x80000000) && decide (bs.getD 0x54 0 ≤ 15) &&
    decide (bs.getD 0x55 0 ≤ 15) && zeroBytes img 0x56 0x7F && nonDecreasing gamma && zeroBytes img 0x282 0x3FB &&
    crc32 (bs.take 0x3FC) == imgWord img 0x3FC

/-- The checks that every camera job meets (R324), then the job. -/
def camJob (s : State) (r : Ref) (d : Desc) (f : Nat → State → State) : State :=
  let p := d.classWord % 4
  if refHost s r then complete s r stRejectState 0x02C0
  else if !camOn s p then complete s r stRejectState 0x02C1
  else f p s

/-- ISP_PARAMS; `img` are the words of the block as read from memory. -/
def ispParams (s : State) (r : Ref) (d : Desc) (img : List Nat) : State :=
  camJob s r d fun p s =>
    let n := d.word 0x18
    if !paramsOk img then complete s r stRejectFormat 0x01C1
    else
      let pend := (getCam s p).pend
      let new : ParamSet := ⟨r, n, img.take 256⟩
      match pend.find? fun x => x.apply == n with
      | some old =>
        complete (modCam s p fun c => { c with pend := c.pend.map fun x => if x.apply = n then new else x }) old.ref
          stDone 1
      | none =>
        if 4 ≤ pend.length then complete s r stRejectBudget 0x03C0
        else modCam s p fun c => { c with pend := c.pend ++ [new] }

/-! ### Jobs (R324–R327) -/

/-- Row stride of an output format (R325). -/
def outStride (s : State) (p fmt : Nat) : Nat :=
  ceilDiv (if fmt = 1 then 2 * camWidth s p else camWidth s p) 64 * 64

/-- The mosaic has an IR plane. -/
def hasIr (s : State) (p : Nat) : Bool := hasColour (mosaic s p) (rget s R.CAM_FORMAT_PHASE p) .ir

/-- The planes of an output format: offset, bytes a row, rows, and lines of the frame a row stands for. -/
def outPlanes (s : State) (p fmt : Nat) : List (Nat × Nat × Nat × Nat) :=
  let st := outStride s p fmt
  let h := camHeight s p
  let main := match fmt with
    | 1 => [(0, st, h, 1)]
    | 2 => [(0, st, h, 1), (st * h, st, h / 2, 2)]
    | 3 => [(0, st, h, 1), (st * h, st, h, 1), (2 * (st * h), st, h, 1)]
    | 4 => [(0, st, h, 1)]
    | _ => []
  let len := match fmt with
    | 2 => 3 * (st * h) / 2
    | 3 => 3 * (st * h)
    | _ => st * h
  if 2 ≤ fmt ∧ hasIr s p then main ++ [(len, st / 2, h / 2, 2)] else main

/-- Length of an output format in bytes (R325). -/
def outLength (s : State) (p fmt : Nat) : Nat :=
  let st := outStride s p fmt
  let h := camHeight s p
  let len := match fmt with
    | 0 => 0
    | 2 => 3 * (st * h) / 2
    | 3 => 3 * (st * h)
    | _ => st * h
  if 2 ≤ fmt ∧ hasIr s p then len + st / 2 * (h / 2) else len

/-- No CAPTURE of the same port that was fetched earlier, and is due, waits: they bind in order of fetch (R326). -/
def captureFirst (s : State) (r : Ref) : Bool :=
  match reqDesc s r with
  | some d => firstFetched s r 4 fun e => e.op == 1 && e.classWord % 4 == d.classWord % 4
  | none => true

/-- CAPTURE. -/
def capture (s : State) (r : Ref) (d : Desc) : State :=
  camJob s r d fun p s =>
    let fmt := d.word 0x1C % 8
    if 5 ≤ fmt ∨ ((fmt = 2 ∨ fmt = 3) ∧ (mosaic s p = 2 ∨ mosaic s p = 5)) then complete s r stRejectFormat 0x01C3
    else if d.word 0x18 < outLength s p fmt then complete s r stRejectFormat 0x01C2
    else modCam s p fun c => { c with jobs := insertJob s r c.jobs }

/-- SENSOR_WRITE (R327). An I2C address of 0 stands for the port's default. -/
def sensorWrite (s : State) (r : Ref) (d : Desc) : State :=
  camJob s r d fun p s =>
    let n := d.word 0x14 / 256 % 16
    let a := d.word 0x14 % 128
    if n = 0 ∨ 8 < n then complete s r stRejectFormat 0x01C4
    else
      let j : SensorJob :=
        { ref := r, apply := d.word 0x10, target := (d.word 0x10 : Int) - rval s R.CAM_FORMAT_SENSOR_DELAY p - 1,
          addr := if a = 0 then rget s R.CAM_FORMAT_I2C_ADDR p else a, wide := d.word 0x38 % 256,
          entries := (List.range n).map fun e => d.word (0x18 + 4 * e), eff := none }
      modCam s p fun c => { c with writes := c.writes ++ [j] }

/-- The sensor writes due at the FE of frame `n` are sent, in fetch order. -/
def writesDue (s : State) (p n : Nat) : State :=
  let eff := n + rval s R.CAM_FORMAT_SENSOR_DELAY p + 1
  modCam s p fun c => { c with
    feSeen := some n,
    writes := c.writes.map fun j => if j.eff = none ∧ j.target ≤ (n : Int) then { j with eff := some eff } else j }

/-- The burst sent first: among those due, the earliest effective frame, then the earliest fetch. -/
def firstBurst (s : State) (p : Nat) : Option SensorJob :=
  ((getCam s p).writes.filter fun j => j.eff.isSome).foldl (fun b j =>
    match b with
    | none => some j
    | some k => if j.eff.getD 0 < k.eff.getD 0 ∨ (j.eff = k.eff ∧ orderOf s j.ref < orderOf s k.ref) then some j else some k)
    none

/-- SENSOR_BURST_DONE: `acked` entries were acknowledged. -/
def burstDone (s : State) (p acked : Nat) : State :=
  match firstBurst s p with
  | none => s
  | some j =>
    let eff := j.eff.getD 0
    let wrote := (j.entries.take acked).zipIdx.map fun (w, e) =>
      (w % 65536, if bitOf j.wide e then w / 65536 % 65536 else w / 65536 % 256)
    let s1 := modCam s p fun c => { c with
      writes := c.writes.filter fun k => k.ref != j.ref, burst := some (j.addr, wrote),
      effs := if wrote.isEmpty then c.effs else c.effs ++ [eff] }
    if j.entries.length ≤ acked then complete s1 j.ref stDone (min (eff - j.apply) 255)
    else complete s1 j.ref stRejectState 0x02C3

/-! ### Frames -/

/-- CAM_FS; `hdr` is 1 where its header was corrected, which counts in the frame that starts. -/
def camFs (s : State) (p csi hdr : Nat) : State :=
  let s1 := closeFrame s p fun f => { f with noFe := true }
  let n := (getCam s1 p).next
  let f := CamFrame.start s1 n csi hdr
  let s2 := rset (modCam s1 p fun c => { c with next := (n + 1) % 2 ^ 32 }) R.CAM_FRAME_FRAME_NO n p
  if p ≠ 0 then ispView (takeSlot s2 p f)
  else
    match (getCam s2 p).jobs with
    | [] => rinc (modCam s2 p fun c => { c with cur := some f }) R.CAM_LOSS_NO_JOB 1 p
    | r :: rest =>
      let s3 := paramsStart s2 p n
      let live := (getCam s3 p).live.map (·.1)
      let s4 := modCam s3 p fun c => { c with
        jobs := rest, cur := some { f with ref := some r, kept := true, params := live } }
      ispView (rset s4 R.ISP_STAT_CUR_PORT p)

/-- Changes the frame being received. -/
def modCur (s : State) (p : Nat) (f : CamFrame → CamFrame) : State :=
  modCam s p fun c => { c with cur := c.cur.map f }

/-- Little-endian raw pixels. -/
def rawLine (b : Nat) (px : List Nat) : List Byte := px.flatMap fun v => leBytes b v

/-- A frame loses what comes after a full receive buffer (R321); CAM_OVERFLOW at most once a second (R339). -/
def camOverflow (s : State) (p : Nat) : State :=
  let s1 := rinc (modCur s p fun g => { g with ovf := true }) R.CAM_LOSS_OVERFLOWS 1 p
  let tell := match (getCam s p).overAt with
    | some a => decide (a + fcSec ≤ s.now)
    | none => true
  if tell then raiseEv (modCam s1 p fun c => { c with overAt := some s.now }) evCamOverflow p else s1

/-- The bytes of a line go to the receive buffer of a memory-path port, on their way to the frame's slot. -/
def bufLine (s : State) (p k row : Nat) (bs : List Byte) : State :=
  modCam s p fun c => { c with buf := bufPut (slotAddr s p k + row * camWidth s p * rawBytes s p) bs c.buf }

/-- A line of the frame being received (R321, R323). One for which the buffer has no room is lost from the pixel on that
fills it. -/
def takeLine (s : State) (p : Nat) (crcOk : Bool) (px : List Nat) : State :=
  match (getCam s p).cur with
  | none => s
  | some f =>
    let crc := fun (g : CamFrame) => if crcOk then g else { g with crcLines := min (g.crcLines + 1) 65535 }
    let lose := fun (s : State) => modCur s p fun g => crc { g with received := g.received + 1, lost := g.lost + 1 }
    if camHeight s p ≤ f.received then modCur s p fun g => { g with long := true }
    else if f.ovf then lose s
    else
      let w := camWidth s p
      let keep := px.take w
      let bs := rawLine (rawBytes s p) keep
      let room := bufSize - bufLevel s p
      if f.kept && decide (room < bs.length) then
        let s1 := match f.slot with
          | some k => bufLine s p k f.received (bs.take room)
          | none => s
        lose (camOverflow s1 p)
      else
        let s1 := modCur s p fun g => crc { g with
          received := g.received + 1, rows := if f.kept then keep :: g.rows else g.rows,
          lineErrs := if px.length = w then g.lineErrs else min (g.lineErrs + 1) 65535 }
        match f.slot with
        | some k => bufLine s1 p k f.received bs
        | none => s1

/-- A packet arrives: `hdr` is 0 for a good header, 1 for a corrected one, 2 for a larger error, which discards it; one that
the port does not accept is discarded and counted (R315). A header error counts in the frame in progress, but for a packet
whose `own` frame it is counted in (R331). -/
def camPacket (s : State) (p hdr : Nat) (accepted own : Bool) (f : State → State) : State :=
  if !camOn s p || !rbit s R.CAM_CTRL_LINK_UP p then s
  else
    let s1 := if hdr = 0 ∨ (hdr = 1 ∧ own ∧ accepted) then s else modCur s p fun g => { g with hdrErrs := min (g.hdrErrs + 1) 65535 }
    if hdr = 2 then rinc s1 R.CAM_PKT_HDR_ERRS 1 p
    else if !accepted then rinc s1 R.CAM_PKT_IGNORED 1 p
    else f s1

/-- CAM_FE. -/
def camFe (s : State) (p : Nat) : State :=
  match (getCam s p).cur with
  | none => s
  | some f => ispView (writesDue (closeFrame s p id) p f.no)

/-- CAM_LINK_LOST. -/
def camLinkLost (s : State) (p : Nat) : State :=
  if !rbit s R.CAM_CTRL_LINK_UP p then s
  else
    let s1 := closeFrame s p fun f => { f with linkLost := true }
    ispView (raiseEv (rset (rset s1 R.CAM_CTRL_LINK_UP 0 p) R.CAM_CTRL_GEAR 0 p) evCamLinkDown p)

/-- CAM_LINK_UP. -/
def camLinkUp (s : State) (p gear : Nat) : State :=
  rset (rset s R.CAM_CTRL_LINK_UP 1 p) R.CAM_CTRL_GEAR (clampNat 1 3 gear) p

/-- CAM_BUFFER_FULL: a line being received fills the buffer. -/
def camFull (s : State) (p : Nat) : State :=
  match (getCam s p).cur with
  | none => s
  | some f =>
    if f.ovf || !f.kept || decide (bufLevel s p + camWidth s p * rawBytes s p ≤ bufSize) then s else camOverflow s p

/-- CAM_POWER_FAULT: the supply reaches, or leaves, its current limit. -/
def camPower (s : State) (p : Nat) (on : Bool) : State :=
  let was := rbit s R.CAM_CTRL_PWR_FAULT p
  let now := on && rbit s R.CAM_CTRL_PWR_EN p
  let s1 := rsetB s R.CAM_CTRL_PWR_FAULT now p
  if now && !was then raiseEv s1 evCamPowerFault p else s1

/-- FSYNC_TRIGGER (R318): sent within 1 µs of an instant of the grid, once for each instant. -/
def fsync (s : State) (p : Nat) : State :=
  let per := rval s R.CAM_FSYNC_PERIOD_US p * 1000
  let ph := rget s R.CAM_FSYNC_PHASE_PHASE_US p * 1000 % per
  let late := (moduleTime s + per - ph) % per
  let at_ := moduleTime s - late
  if rbit s R.CAM_CTRL_FSYNC_EN p && decide (late ≤ 1000 ∧ late ≤ moduleTime s) && !(getCam s p).syncs.contains at_ then
    modCam s p fun c => { c with syncs := at_ :: c.syncs }
  else s

/-! ### The ISP (R322, R326, R331) -/

/-- The frame the ISP starts next: the earliest FE among READY frames whose port has an unbound CAPTURE, the lower port
first. -/
def ispNext (s : State) : Option (Nat × CamFrame) :=
  [1, 2, 3].foldl (fun b p =>
    let c := getCam s p
    match c.ready, c.jobs with
    | f :: _, _ :: _ =>
      match b with
      | none => some (p, f)
      | some (q, g) => if f.feAt < g.feAt then some (p, f) else some (q, g)
    | _, _ => b) none

/-- The frame ends of the present fc that wait in the queue: of several in one fc the lower port goes first, whatever their
order (R5, R336). -/
def feNow (s : State) : State :=
  s.pending.foldl (fun s c => match c with
    | .camFe t p =>
      if t = s.now ∧ p.hdr.val ≠ 2 ∧ p.vc.val = 0 then camPacket s p.port p.hdr true false fun s => camFe s p.port else s
    | _ => s) s

/-- ISP_FRAME_START: with no line slot in use and no memory frame in progress, the next memory frame starts. -/
def ispStart (s0 : State) : State :=
  let s := feNow s0
  if s.vis.isp.isSome ∨ s.vis.slot.isSome then s0
  else
    match ispNext s with
    | none => s0
    | some (p, f) =>
      match (getCam s p).jobs with
      | [] => s0
      | r :: rest =>
        let s1 := paramsStart s p f.no
        let live := (getCam s1 p).live.map (·.1)
        let s2 := modCam s1 p fun c => { c with jobs := rest, ready := c.ready.drop 1 }
        ispView (rset (modVis s2 fun v => { v with isp := some (p, { f with ref := some r, params := live }) })
          R.ISP_STAT_CUR_PORT p)

/-- Lines delivered. -/
def frameLines (f : CamFrame) : Nat := f.rows.length

/-- Effective frame of the latest sensor write in force for a frame. -/
def sensorFrame (c : Cam) (n : Nat) : Nat := (c.effs.filter fun e => decide (e ≤ n)).getLastD 0xFFFFFFFF

/-- Zone rows holding at least one delivered line (R331). -/
def zoneRows (height lines : Nat) : Nat := ((List.range 16).filter fun z => decide (z * height / 16 < lines)).length

/-- The mosaic provides the plane of R, G, B, Y: a colour plane where the filter has its colour, C standing for G where R and
B are given with it, and the luma always (R330, R331). -/
def planeGiven (m phase pl : Nat) : Bool :=
  match pl with
  | 0 => hasColour m phase .r
  | 1 => hasColour m phase .g || (hasColour m phase .c && hasColour m phase .b)
  | 2 => hasColour m phase .b
  | _ => true

/-- The bytes of ZONES and HIST as the ISP computed them (R331). -/
structure IspStats where
  zones : List Nat
  hist : List Nat
  deriving DecidableEq, Repr

/-- A pixel of zone (zx, zy) was delivered: some delivered line of its rows reaches its columns. -/
def zoneHas (w h : Nat) (rows : List (List Nat)) (zx zy : Nat) : Bool :=
  ((rows.take ((zy + 1) * h / 16)).drop (zy * h / 16)).any fun px => decide (zx * w / 16 < px.length)

/-- The ZONES and HIST bytes of the record, zero where R331 says zero: for planes that the mosaic does not provide, and in
zones with no delivered pixel. -/
def statsBody (m phase w h : Nat) (rows : List (List Nat)) (stats : IspStats) : List Byte :=
  ((List.range 2048).map fun k =>
    if planeGiven m phase (k % 8 / 2) && zoneHas w h rows (k / 8 % 16) (k / 128) then BitVec.ofNat 8 (stats.zones.getD k 0)
    else 0) ++
  (List.range 4096).map fun k => if planeGiven m phase (k / 1024) then BitVec.ofNat 8 (stats.hist.getD k 0) else 0

/-- Bits of a raw pixel of the port's data type (R315). -/
def pixelBits (s : State) (p : Nat) : Nat := [8, 10, 12, 14, 16].getD (rget s R.CAM_FORMAT_DATA_TYPE p - 0x2A) 16

/-- CLIPPED: pixels at the converter's full scale. -/
def clippedOf (s : State) (p : Nat) (f : CamFrame) : Nat :=
  f.rows.foldl (fun n px => n + (px.filter fun v => v == 2 ^ pixelBits s p - 1).length) 0

/-- The statistics record (R331). -/
def statsRecord (s : State) (p : Nat) (f : CamFrame) (stats : IspStats) : List Byte :=
  let h := camHeight s p
  let lines := frameLines f
  let zr := zoneRows h lines
  leBytes 4 f.no ++ leBytes 4 (frameFlags h f + 256 * p + 65536 * f.csi) ++ leBytes 8 f.fsTime ++ leBytes 8 f.feTime ++
    leBytes 4 (lines + 65536 * f.lineErrs) ++ leBytes 4 (sensorFrame (getCam s p) f.no) ++
    leBytes 4 (f.params.getD 0xFFFFFFFF) ++ leBytes 4 zr ++ leBytes 4 (f.crcLines + 65536 * f.hdrErrs) ++
    leBytes 4 (clippedOf s p f) ++ leBytes 16 0 ++
    statsBody (mosaic s p) (rget s R.CAM_FORMAT_PHASE p) (camWidth s p) h f.rows.reverse stats ++ leBytes 1984 0

/-- Writes the delivered rows of a raw frame (RAW16). -/
def writeRaw (s : State) (addr stride : Nat) (f : CamFrame) : State :=
  f.rows.reverse.zipIdx.foldl (fun s (px, k) => hostWrite s false (addr + k * stride) (rawLine 2 px)) s

/-- Writes processed rows: plane, row and the row's bytes. Rows beyond the last line received are not written, and of a row
only what the pixels received give: a byte for each, of an IR plane (half the stride) one for two (R323). A row that two
lines give goes by the first (DESIGN CHOICE, log entry 181; unsafe). -/
def writeRows (s : State) (addr st : Nat) (planes : List (Nat × Nat × Nat × Nat)) (lines : List (List Nat))
    (out : List (Nat × Nat × List Nat)) : State :=
  out.foldl (fun s (pl, row, bs) =>
    match planes[pl]? with
    | some (off, len, rows, per) =>
      match lines[row * per]? with
      | some px =>
        let n := if len = st then px.length else px.length / 2
        if row < rows then hostWrite s false (addr + off + row * len) ((bs.take (min n len)).map (BitVec.ofNat 8)) else s
      | none => s
    | none => s) s

/-- Processed rows with those of the IR plane, the last plane of its format (R325). -/
def withIr (s : State) (p fmt : Nat) (out : List (Nat × Nat × List Nat)) (ir : List (Nat × List Nat)) :
    List (Nat × Nat × List Nat) :=
  if 2 ≤ fmt ∧ hasIr s p then out ++ ir.map fun x => ((outPlanes s p fmt).length - 1, x.1, x.2) else out

/-- The output and the record of a finished frame, and the CAPTURE's completion. -/
def finishFrame (s : State) (p : Nat) (f : CamFrame) (ecc : Bool) (out : List (Nat × Nat × List Nat))
    (ir : List (Nat × List Nat)) (stats : IspStats) : State :=
  match f.ref with
  | none => s
  | some r =>
    if ecc then complete s r stEccFatal
    else
      match reqDesc s r with
      | none => s
      | some d =>
        let fmt := d.word 0x1C % 8
        let s1 := if fmt = 1 then writeRaw s (d.quad 0x10) (outStride s p 1) f
          else writeRows s (d.quad 0x10) (outStride s p fmt) (outPlanes s p fmt) f.rows.reverse (withIr s p fmt out ir)
        let s2 := if d.quad 0x20 = 0 then s1 else hostWrite s1 false (d.quad 0x20) (statsRecord s p f stats)
        complete s2 r stDone (frameFlags (camHeight s p) f + 256 * (f.no % 256))

/-- ISP_FRAME_DONE: of CAM0 the oldest closed frame, else the memory frame in progress, once every line of it has had its
slot; an uncorrectable error of the raw slot ends a memory frame before that. -/
def ispDone (s : State) (p : Nat) (ecc : Bool) (out : List (Nat × Nat × List Nat))
    (ir : List (Nat × List Nat)) (stats : IspStats) : State :=
  if p = 0 then
    match (getCam s 0).ready with
    | [] => s
    | f :: rest =>
      if frameThrough f then ispView (finishFrame (modCam s 0 fun c => { c with ready := rest }) 0 f false out ir stats) else s
  else
    match s.vis.isp with
    | some (q, f) =>
      if q = p ∧ (ecc ∨ frameThrough f) then
        ispView (finishFrame (modVis s fun v => { v with isp := none }) p f ecc out ir stats)
      else s
    | none => s

/-! ### Aborts of camera jobs -/

/-- The work of a camera job stops (R336); its slot is freed and effects already made remain. -/
def stopCamJob (s0 : State) (p : Nat) (r : Ref) : State :=
  let s := ispNow s0
  let s1 := modCam s p fun c => { c with
    jobs := c.jobs.filter (· != r), pend := c.pend.filter fun x => x.ref != r,
    writes := c.writes.filter fun x => x.ref != r, ready := c.ready.filter fun f => f.ref != some r,
    cur := c.cur.map fun f => if f.ref = some r then { f with ref := none, kept := false, rows := [] } else f }
  let s2 := match s1.vis.isp with
    | some (_, f) => if f.ref = some r then modVis s1 fun v => { v with isp := none } else s1
    | none => s1
  ispView (lineBegin s2 s.now)

/-- An accepted abort of a camera job. -/
def abortCamJob (s : State) (p : Nat) (r : Ref) : State :=
  abortReq s r fun s => complete (stopCamJob s p r) r stAborted

/-- The camera jobs that are submitted and not yet fetched: which port they name shows at their fetch, and one for this port
is then aborted as of the present fc (R71, R324). -/
def markUnfetched (s : State) (p : Nat) : State :=
  let l := s.reqs.filter fun q => q.desc.isNone && q.aborted.isNone && rget s R.RING_CFG_CLASS 0 q.ring == 4
  modVis s fun v => { v with offs := v.offs ++ l.map fun q => (q.ref, p, ⟨rowNow s, s.now, none⟩) }

/-- CAM_DISABLE (R323, R324). -/
def camDisable (s : State) (p : Nat) : State :=
  if !camOn s p then s
  else
    let mine := s.reqs.filter fun q => match q.desc with
      | some d => d.cls == 4 && d.classWord % 4 == p
      | none => false
    let s1 := mine.foldl (fun s q => abortCamJob s p q.ref) (markUnfetched (rset s R.CAM_CTRL_EN 0 p) p)
    let s2 := modCam s1 p fun c => { c with cur := none, ready := [], buf := [] }
    let s3 := match s2.vis.isp with
      | some (q, _) => if q = p then modVis s2 fun v => { v with isp := none } else s2
      | none => s2
    ispView s3

/-! ### The accelerator (R332–R334) -/

/-- VXA_STAT. -/
def vxaView (s : State) : State :=
  let u := match s.vis.run with
    | some j => j.urgent
    | none => false
  rsetB (rsetB s R.VXA_STAT_BUSY s.vis.run.isSome) R.VXA_STAT_URGENT_RUN u

/-- VXA_STAT.QUEUED: jobs fetched and waiting, those not yet taken among them. -/
def vxaQueued (s : State) : Nat := s.vis.queue.length + (heldReqs s 5).length

/-- The earliest-submitted URGENT job, or else the earliest-submitted other job: outstanding descriptors stand in the order
of the tail doorbells that submitted them (R62, R334). -/
def vxaNext (s : State) : Option VxaJob :=
  let jobs := s.reqs.filterMap fun q => s.vis.queue.find? fun j => j.ref == q.ref
  match jobs.find? (·.urgent) with
  | some j => some j
  | none => jobs.head?

/-- Starts the next job when none runs; the network of the job becomes resident. -/
def vxaStart (s : State) : State :=
  if s.vis.run.isSome then vxaView s
  else
    match vxaNext s with
    | none => vxaView s
    | some j =>
      let s1 := modVis s fun v => { v with
        run := some j, runAt := s.now, queue := v.queue.filter fun k => k.ref != j.ref, resident := some (j.netId, j.crc) }
      vxaView (rset64 s1 R.VXA_NET_ID_LO_NET_ID R.VXA_NET_ID_HI_NET_ID j.netId)

/-- The checks of R333 on the words of a network image. -/
def netHeaderOk (h : List Nat) : Bool :=
  let w := fun off => imgWord h off
  w 0 == 0x54454E51 && w 4 % 65536 == 0x0100 && decide (1 ≤ w 4 / 65536 ∧ w 4 / 65536 ≤ 4096) &&
    decide (w 8 ≤ 64 * 1048576) && decide (w 0xC ≤ 8 * 1048576) &&
    ([0x20, 0x24, 0x28, 0x2C, 0x30, 0x34, 0x38].all fun o => w o == 0) &&
    decide (w 8 ≤ 4 * h.length) && imgCrc h (w 8) 0x3C == w 0x3C

/-- VXA_RUN: `h` are the words of the network image. -/
def vxaRun (s : State) (r : Ref) (d : Desc) (h : List Nat) : State :=
  if refHost s r then complete s r stRejectState 0x02C0
  else if !netHeaderOk h then complete s r stRejectFormat 0x01C8
  else if d.word 0x28 ≠ imgWord h 0x18 ∨ d.word 0x2C ≠ imgWord h 0x1C then complete s r stRejectFormat 0x01C9
  else
    let j : VxaJob :=
      { ref := r, urgent := bitOf d.classWord 0, netId := join64 (imgWord h 0x10) (imgWord h 0x14),
        crc := imgWord h 0x3C, outAddr := d.quad 0x20, outLen := d.word 0x2C }
    vxaStart (modVis s fun v => { v with queue := v.queue ++ [j] })

/-- VXA_JOB_DONE: the running job ends; `out` is its output tensor. -/
def vxaDone (s : State) (ecc : Bool) (out : List Nat) : State :=
  match s.vis.run with
  | none => s
  | some j =>
    let s1 := modVis s fun v => { v with run := none }
    if ecc then
      let s2 := rset64 (rinc (modVis s1 fun v => { v with resident := none }) R.VXA_COUNTS_ECC_FATAL)
        R.VXA_NET_ID_LO_NET_ID R.VXA_NET_ID_HI_NET_ID 0
      vxaStart (raiseEv (complete s2 j.ref stEccFatal) evVxaEccFatal)
    else
      let s2 := hostWrite s1 false j.outAddr ((out.take j.outLen).map (BitVec.ofNat 8))
      vxaStart (complete (rinc s2 R.VXA_COUNTS_JOBS) j.ref stDone (min ((s.now - s.vis.runAt) / fcMs) 65535))

/-- The work of a RUN stops at the next layer boundary. -/
def stopVxaJob (s : State) (r : Ref) : State :=
  let s1 := modVis s fun v => { v with queue := v.queue.filter fun k => k.ref != r }
  match s1.vis.run with
  | some j => vxaStart (if j.ref = r then modVis s1 fun v => { v with run := none } else s1)
  | none => vxaView s1

/-! ### Commands -/

/-- A command to the ports or the ISP: the line slots run up to it, and one begins after it where a line waits (R322). -/
def atVision (t : Fc) (f : State → State) (s : State) : Out :=
  atFabric t (fun s => let s1 := f (ispNow s); lineBegin s1 s1.now) s

/-- CAM_ENABLE. -/
def execCamEnable (t : Fc) (port : Fin 4) (s : State) : Out := atFabric t (fun s => camEnable s port) s

/-- CAM_DISABLE. -/
def execCamDisable (t : Fc) (port : Fin 4) (s : State) : Out := atVision t (fun s => camDisable s port) s

/-- CAM_FS. -/
def execCamFs (t : Fc) (port : Fin 4) (p : CamStart) (s : State) : Out :=
  atVision t (fun s => camPacket s port p.hdr (p.vc.val == 0) true fun s => camFs s port p.csi p.hdr) s

/-- CAM_LINE. -/
def execCamLine (t : Fc) (port : Fin 4) (vc : Fin 16) (dt : Fin 64) (hdr : Fin 3) (crcOk : Bool) (px : List Nat)
    (s : State) : Out :=
  atVision t (fun s => camPacket s port hdr (vc.val == 0 && rawType dt) false fun s => takeLine s port crcOk px) s

/-- CAM_FE. -/
def execCamFe (t : Fc) (p : CamEnd) (s : State) : Out :=
  atVision t (fun s => camPacket s p.port p.hdr (p.vc.val == 0) false fun s => camFe s p.port) s

/-- CAM_LINK_LOST. -/
def execCamLinkLost (t : Fc) (port : Fin 4) (s : State) : Out := atVision t (fun s => camLinkLost s port) s

/-- CAM_BUFFER_FULL. -/
def execCamBufferFull (t : Fc) (port : Fin 4) (s : State) : Out := atVision t (fun s => camFull s port) s

/-- CAM_POWER_FAULT. -/
def execCamPowerFault (t : Fc) (port : Fin 4) (on : Bool) (s : State) : Out := atFabric t (fun s => camPower s port on) s

/-- FSYNC_TRIGGER. -/
def execFsyncTrigger (t : Fc) (port : Fin 4) (s : State) : Out := atFabric t (fun s => fsync s port) s

/-- ISP_FRAME_START. -/
def execIspFrameStart (t : Fc) (s : State) : Out := atVision t ispStart s

/-- ISP_FRAME_DONE. -/
def execIspFrameDone (t : Fc) (port : Fin 4) (ecc : Bool) (out : List (Nat × Nat × List Nat)) (zones hist : List Nat)
    (ir : List (Nat × List Nat)) (s : State) : Out :=
  atVision t (fun s => ispDone s port ecc out ir ⟨zones, hist⟩) s

/-- CAPTURE. -/
def execCapture (t : Fc) (r : Ref) (s : State) : Out :=
  atFabric t (fun s => onlyIf (captureFirst s r) (withDesc r 4 1 (fun d s => capture s r d)) s) s

/-- SENSOR_WRITE. -/
def execSensorWrite (t : Fc) (r : Ref) (s : State) : Out :=
  atFabric t (fun s => withDesc r 4 2 (fun d s => sensorWrite s r d) s) s

/-- SENSOR_BURST_DONE. -/
def execSensorBurstDone (t : Fc) (port : Fin 4) (acked : Nat) (s : State) : Out :=
  atFabric t (fun s => burstDone s port acked) s

/-- ISP_PARAMS. -/
def execIspParams (t : Fc) (r : Ref) (img : List Nat) (s : State) : Out :=
  atFabric t (fun s => withDesc r 4 3 (fun d s => ispParams s r d img) s) s

/-- VXA_RUN. -/
def execVxaRun (t : Fc) (r : Ref) (header body : List Nat) (s : State) : Out :=
  atFabric t (fun s => withDesc r 5 1 (fun d s => vxaRun s r d (header ++ body)) s) s

/-- VXA_JOB_DONE. -/
def execVxaJobDone (t : Fc) (ecc : Bool) (out : List Nat) (s : State) : Out := atFabric t (fun s => vxaDone s ecc out) s

/-- CAM_LINK_UP. -/
def execCamLinkUp (t : Fc) (port : Fin 4) (gear : Fin 4) (s : State) : Out := atFabric t (fun s => camLinkUp s port gear) s

end Sys2Proof.Machine
end

