-- ==== Sys2Proof/Machine/Aborts.lean ====
section
/-! DEFINITION. What an abort does to each consumer's work (R71, R72, R104, R198), ring disable, the abort doorbell and
the loss of the host link (R75, R362). -/

namespace Sys2Proof.Machine

/-! ### The consumers' stops -/

/-- A pattern or table load stops: a PENDING set's buffer is freed, LIVE unchanged (R104). -/
def stopLoad (s : State) (r : Ref) : State :=
  let k := s.tke
  let s1 := { s with
    tke := { k with
      loadPat := k.loadPat.filter fun x => x.1 != r,
      pending := k.pending.filter fun x => x.ref != some r,
      promote := k.promote.filter (· != r) },
    xlk := { s.xlk with forwards := s.xlk.forwards.filter fun f => match f with
      | .pattern p => p.ref != some r
      | .table q _ _ => q != r } }
  let s2 := match k.loadTbl with
    | some (q, _, _) =>
      if q = r then rset { s1 with tke := { s1.tke with loadTbl := none } } R.TKE_TABLE_STATE_LOADING_BUF 3 else s1
    | none => s1
  match k.pendTbl with
  | some (q, _) =>
    if q = some r then
      let b := rget s2 R.TKE_TABLE_STATE_PENDING_BUF
      rset { s2 with tke := { s2.tke with pendTbl := none, bufs := tblErase s2.tke.bufs b } }
        R.TKE_TABLE_STATE_PENDING_BUF 3
    else s2
  | none => s2

/-- The drive channel whose profile a descriptor started. -/
def profOf (s : State) (r : Ref) : Option Nat :=
  (s.drv.find? fun p => (p.2.prof.bind fun q => q.ref) == some r).map (·.1)

/-- A profile no longer completes its descriptor. -/
def freeProf (s : State) (ch : Nat) : State :=
  modDrv s ch fun c => { c with prof := c.prof.map fun p => { p with ref := none } }

/-- Commands that the supervisors have passed for a descriptor, changed or dropped. -/
def modPassed (s : State) (f : List Passed → List Passed) : State :=
  { s with pps := s.pps.map fun p => (p.1, { p.2 with passed := f p.2.passed }) }

/-- A drive or switch command stops: not applied, its request withdrawn, or its channel into DECAY at the next step (R198). -/
def stopOut (s : State) (r : Ref) : State :=
  let s1 := modPassed s fun l => l.filter fun q => q.ref != some r
  match profOf s1 r with
  | some ch => abortProf s1 ch
  | none => s1

/-- The producer in whose row record a drive or switch command completes (R177, R209). -/
def outProd (d : Desc) : Nat := (if d.cls = 2 then 0 else 12) + d.classWord % 128 / 8

/-- A fleet descriptor stops. -/
def stopFleet (s : State) (r : Ref) : State :=
  { s with fle := { s.fle with
      sessions := s.fle.sessions.map fun p => (p.1, if p.2.ref = some r then { p.2 with ref := none } else p.2),
      pubNow := s.fle.pubNow.filter fun x => x.1 != r } }

/-- A general service descriptor stops. -/
def stopGeneral (s : State) (r : Ref) : State :=
  let s0 := stopEthTx s r
  let s1 := if s.sfe.clsRef = some (some r) then rset s0 R.SFE_CTRL_PENDING 0 else s0
  { s1 with
    sps := { s1.sps with envPend := s1.sps.envPend.filter fun p => p.2.ref != some r },
    sfe := { s1.sfe with
      calPend := s1.sfe.calPend.filter fun p => p.2.ref != some r,
      clsRef := s1.sfe.clsRef.filter fun x => x != some r },
    xlk := { s1.xlk with handover := s1.xlk.handover.filter fun x => x.1 != r },
    nav := { s1.nav with searches := s1.nav.searches.filter fun x => x.ref != r },
    sto := { s1.sto with
      waits := s1.sto.waits.filter fun x => x.ref != some r,
      flushes := s1.sto.flushes.filter fun x => x.1 != some r,
      jobs := s1.sto.jobs.filter fun x => x.ref != r } }

/-- A journal access stops. -/
def stopJournal (s : State) (r : Ref) : State :=
  { s with sto := { s.sto with jrnJobs := s.sto.jrnJobs.filter fun x => x.ref != r } }

/-- The consumer of a descriptor's class stops work on it. -/
def stopWork (s : State) (r : Ref) (d : Desc) : State :=
  match d.cls with
  | 1 => stopLoad s r
  | 2 | 3 => stopOut s r
  | 4 => stopCamJob s (d.classWord % 4) r
  | 5 => stopVxaJob s r
  | 7 => stopFleet s r
  | 8 => stopPanelJob s (d.classWord % 2) r
  | 9 => stopUpdate s r
  | 0xA => stopJournal s r
  | _ => stopGeneral s r

/-- The consumer stops and completes the descriptor ABORTED (R71). A CAN frame on the bus ends its attempt first
(R348); a drive or switch command completes in its bank's row record (R177); an ACTIVATE whose reset is requested in this
fc stands (R441). -/
def stopAborted (s : State) (r : Ref) (d : Desc) : State :=
  if d.cls = 6 then stopSend s (d.classWord % 8) r
  else if d.cls = 9 ∧ activationNow s r then s
  else
    let s1 := stopWork s r d
    if d.cls = 2 ∨ d.cls = 3 then completeRow s1 (outProd d) r stAborted 0 (rowHere s)
    else complete s1 r stAborted 0 (if d.cls = 1 then some (rowHere s) else none)

/-- An abort of an outstanding descriptor, registered in fc `a`. -/
def abortDescAt (s : State) (r : Ref) (a : Nat) : State :=
  abortReqAt s r a fun s => match reqDesc s r with
    | some d => stopAborted s r d
    | none => s

/-- An abort registered in the present fc. -/
def abortDesc (s : State) (r : Ref) : State := abortDescAt s r s.now

/-! ### The abort doorbell and ring disable -/

/-- The ring is disabled in the present fc, though the command for it still waits (R5, R72). -/
def disableNow (s : State) (n : Nat) : Bool :=
  s.pending.any fun c => match c with
    | .ringDisable t r => t == s.now && r.val == n
    | _ => false

/-- The ring is enabled throughout the present fc. -/
def ringOpen (s : State) (n : Nat) : Bool := ringEnabled s n && !disableNow s n

/-- An abort doorbell with no effect, registered in fc `a`. -/
def abortNoop (s : State) (n idx a : Nat) : State :=
  let room := decide (rget s R.RING_NOOP_ABORT_NOOP 0 n < 0xFFFF)
  rinc { s with till := { s.till with
    noops := (s.till.noops.filter fun x => decide (s.now ≤ x.at_)) ++ [⟨a, n, idx, room⟩] } } R.RING_NOOP_ABORT_NOOP 1 0 n

/-- ABORT_DB: of a descriptor that is not outstanding, or a second one, it has no effect (R63, R71, R74). The till registers
one abort per fc, so a second one of the same fc is registered in the next (R71); the consumer's work stops in the fc of
the doorbell even then (DEDUCED, log entry 170; unsafe). Of two outstanding descriptors of one slot it means the older one
not yet aborted (DESIGN CHOICE, log entry 123; unsafe). -/
def abortDoorbell (s0 : State) (n idx : Nat) (host : Bool) : State :=
  if rbit s0 R.RING_CFG_HOST 0 n ≠ host then rinc s0 R.RING_NOOP_DB_DISCARD 1 0 n
  else
    let a := match s0.till.abortAt with
      | some b => max s0.now (b + 1)
      | none => s0.now
    let s := { s0 with till := { s0.till with abortAt := some a } }
    if !ringOpen s n then rinc s R.RING_NOOP_ABORT_NOOP 1 0 n
    else match (sameSlot s n idx).find? fun q => q.aborted.isNone with
      | some q => abortDescAt s q.ref a
      | none => abortNoop s n idx a

/-- A tail doorbell comes before an abort doorbell that found no descriptor: it no longer counts in ABORT_NOOP, and one
that the saturated counter could not count takes its place. -/
def takeBack (s : State) (x : Noop) : State :=
  let l := s.till.noops.erase x
  let put := fun l => { s with till := { s.till with noops := l } }
  if !x.counted then put l
  else match l.find? fun y => y.ring == x.ring && !y.counted with
    | some y => put (l.map fun z => if z = y then { y with counted := true } else z)
    | none => rset (put l) R.RING_NOOP_ABORT_NOOP (rget s R.RING_NOOP_ABORT_NOOP 0 x.ring - 1) 0 x.ring

/-- TAIL_DB, with the abort doorbells of the same ring that were registered no earlier and came before it: the tail is
applied first, and they act on the descriptors it submits (R5, R72). A ring that is disabled in the fc takes no tail. -/
def tailFirst (s : State) (n idx ph : Nat) (host : Bool) : State :=
  let old := s.reqs.map Req.ref
  let s1 := if disableNow s n ∧ rbit s R.RING_CFG_HOST 0 n = host then rinc s R.RING_NOOP_DB_DISCARD 1 0 n
    else tailDoorbell s n idx ph host
  s.till.noops.foldl (fun u x =>
    if s.now ≤ x.at_ ∧ x.ring = n then
      match (sameSlot u n x.slot).find? fun q => q.aborted.isNone && !old.contains q.ref with
      | some q => abortDescAt (takeBack u x) q.ref x.at_
      | none => u
    else u) s1

/-- References of a ring's outstanding descriptors, in index order. -/
def ringRefs (s : State) (n : Nat) : List Ref := (s.reqs.filter fun q => q.ring == n).map Req.ref

/-- A write of 0 to ENABLE: fetching stops, and the abort rule applies to every outstanding descriptor (R59). -/
def ringDisable (s : State) (n : Nat) : State :=
  if ringEnabled s n then (ringRefs s n).foldl abortDesc (rset s R.RING_CTRL_ENABLE 0 0 n) else s

/-! ### The host link (R75) -/

/-- A record without the completion of an abandoned descriptor. -/
def TillRec.without (r : Ref) (x : TillRec) : TillRec := { x with compls := x.compls.filter (· != r) }

/-- The till forgets a descriptor's completion; its place in the output queue stays until it leaves. -/
def tillForget (s : State) (r : Ref) : State :=
  let t := s.till
  { s with till := { t with
      posted := (t.posted.map (TillRec.without r)).filter fun x => x.rowRec || !x.compls.isEmpty,
      accepted := t.accepted.map fun x => (x.1, x.2.without r),
      outQ := t.outQ.map fun e => if e = .completion r then .plain svc else e,
      rowDone := t.rowDone.map fun p => (p.1, p.2.filter (· != r)) } }

/-- An abandoned descriptor: its work stops, but for commands already committed and a frame on the bus. -/
def abandon (s : State) (q : Req) : State :=
  let r := q.ref
  let s1 := match q.desc with
    | none => s
    | some d =>
      if d.cls = 2 ∨ d.cls = 3 then
        let s1 := modPassed s fun l => l.map fun p => if p.ref = some r then { p with ref := none } else p
        match profOf s1 r with
        | some ch => freeProf s1 ch
        | none => s1
      else if d.cls = 6 then modCan s (d.classWord % 8) fun k => { k with
          sends := k.sends.filter (· != r),
          txb := (k.txb.filter fun p => p.2.ref != some r || (k.onBus.map (·.1)) == some p.1).map fun p =>
            (p.1, if p.2.ref = some r then { p.2 with ref := some ghostRef } else p.2) }
      else stopWork s r d
  let s2 := tillForget (modUpd s1 fun u => { u with
    applying := u.applying.map fun p => (p.1, if p.2.1 = r then (ghostRef, p.2.2) else p.2) }) r
  { s2 with reqs := s2.reqs.filter fun p => p.ref != r }

/-- Every outstanding descriptor of a set of rings is abandoned, and the rings are disabled. -/
def abandonRings (s : State) (which : Nat → Bool) : State :=
  let s1 := dropMarks ((s.reqs.filter fun q => which q.ring).foldl abandon s)
  (List.range 256).foldl (fun s n => if which n then rset s R.RING_CTRL_ENABLE 0 0 n else s) s1

/-- The link's part of a host link down: its status, and the event. -/
def hostLinkOff (s : State) (d3 : Bool) : State :=
  let s1 := rinc (rset s R.HLK_STATUS_LINK_UP 0) R.HLK_STATUS_DOWN_EVENTS
  raiseEv (if d3 then rset s1 R.HLK_STATUS_D_STATE 3 else s1) evHlkLinkDown

/-- HOST_LINK_DOWN; `d3` says that the cause is a move to D3hot. Queues written without descriptors stay enabled
(DEDUCED, log entry 32; unsafe). -/
def hostLinkDown (s : State) (d3 : Bool) : State :=
  if !rbit s R.HLK_STATUS_LINK_UP then s
  else
    let s1 := abandonRings s fun n => rbit s R.RING_CFG_HOST 0 n
    let s2 := (List.range 64).foldl (fun s m =>
      if rbit s R.CQ_CFG_HOST 0 m then rset { s with cqIrq := tblErase s.cqIrq m } R.CQ_CTRL_ENABLE 0 0 m else s) s1
    hostLinkOff s2 d3

/-- HLK_AER copies the status registers of Advanced Error Reporting, which the external host alone clears (R365). -/
def aerNote (s : State) (uncorr corr : Nat) : State :=
  rset (rset s R.HLK_AER_UNCORR (uncorr % 65536)) R.HLK_AER_CORR (corr % 65536)

/-! ### Commands -/

/-- RING_DISABLE. -/
def execRingDisable (t : Fc) (ring : Fin 256) (s : State) : Out := atFabric t (fun s => ringDisable s ring) s

/-- TAIL_DB: a write of four bytes at offset 0x000 of the ring's page (R9, R61). -/
def execTailDb (t : Fc) (ring : Fin 256) (idx : Fin 65536) (ph : Fin 2) (w : DbWrite) (s : State) : Out :=
  atFabric t (onlyIf (w.size == 4) fun s => tailFirst s ring idx ph w.host) s

/-- ABORT_DB: a write of four bytes at offset 0x004 of the ring's page. -/
def execAbortDb (t : Fc) (ring : Fin 256) (idx : Fin 65536) (w : DbWrite) (s : State) : Out :=
  atFabric t (onlyIf (w.size == 4) fun s => abortDoorbell s ring idx w.host) s

/-- HOST_LINK_DOWN. -/
def execHostLinkDown (t : Fc) (x : LinkDown) (s : State) : Out :=
  atFabric t (fun s => hostLinkDown (aerNote s x.uncorr x.corr) x.d3) s

end Sys2Proof.Machine
end

