-- ==== Sys2Proof/Machine/Trig.lean ====
section
/-! DEFINITION. Sines and cosines of angles in degrees, as integers scaled by 10^18, for the map engine's geometry
(R288). The series is carried far beyond the nanometre the map engine keeps positions to (DESIGN CHOICE, log entry
21; unsafe). -/

namespace Sys2Proof.Machine

/-- The scale of a sine or cosine. -/
def trigScale : Int := 1000000000000000000

/-- π at that scale. -/
def piScaled : Int := 3141592653589793238

/-- An angle of n / d degrees in radians, within half a turn of zero. -/
def radScaled (n : Int) (d : Nat) : Int :=
  let k := n % (360 * (d : Int))
  let m := if 180 * (d : Int) < k then k - 360 * (d : Int) else k
  m * piScaled / (180 * (d : Int))

/-- The terms of a sine or cosine series from the `k`-th power on. -/
def trigTerms : Nat → Nat → Int → Int → Int
  | 0, _, _, _ => 0
  | fuel + 1, k, x, t =>
    t + trigTerms fuel (k + 2) x (-(t * x / trigScale * x / trigScale) / (((k + 1) * (k + 2) : Nat) : Int))

/-- Sine and cosine of scaled radians. -/
def sinRad (x : Int) : Int := trigTerms 20 1 x x
def cosRad (x : Int) : Int := trigTerms 20 0 x trigScale

/-- Sine and cosine of FP32 degrees; those of 0 where the angle is not finite. -/
def sinDeg (a : F32) : Int := if fFinite a then let r := fToRatio a; sinRad (radScaled r.1 r.2) else 0
def cosDeg (a : F32) : Int := if fFinite a then let r := fToRatio a; cosRad (radScaled r.1 r.2) else trigScale

/-- Cosine of an angle in 10^−9 degree. -/
def cosNano (a : Int) : Int := cosRad (radScaled a 1000000000)

end Sys2Proof.Machine
end

