-- ==== Sys2Proof/Machine/Mapping.lean ====
section
/-! DEFINITION. The map engine (R284–R291): the sample queue, the position history, the grain travel delay, header
point and sections, and what a mapped extract adds to its cells. Lengths are in nanometres. -/

namespace Sys2Proof.Machine

/-! ### The sample queue (R284) -/

/-- The till writes an extract to the sample queue, or drops it. -/
def pushExtract (s : State) (x : Extract) : State :=
  if s.sto.samples.length < 4096 then modSto s fun m => { m with samples := m.samples ++ [x] }
  else
    let told := match s.sto.dropAt with
      | some a => decide (s.now < a + fcSec)
      | none => false
    let s1 := rinc (modSto s fun m => { m with dropAt := some s.now }) R.STO_MAP_COUNTS_DROPPED
    if told then s1 else raiseEv s1 evMapSampleDrop

/-! ### Header point and sections (R288, R289) -/

/-- 50 km: a point further out is out of grid. -/
def gridLimit : Int := 50000 * 1000000000

/-- A point lies in grid. -/
def inGrid (x y : Int) : Bool := decide (x ≤ gridLimit ∧ -gridLimit ≤ x ∧ y ≤ gridLimit ∧ -gridLimit ≤ y)

/-- Nanometres of an angle in 10^−9 degree along a great circle of R = 6,371,000 m. -/
def arcNm (a : Int) : Int := a * piScaled * 6371000 / (180 * trigScale)

/-- Grid position of the antenna. -/
def antennaPos (s : State) (lat lon : Int) : Int × Int :=
  (arcNm (lon - gridLon s) * cosNano (gridLat s) / trigScale, arcNm (lat - gridLat s))

/-- A point `f` forward and `r` to the right of a point, under a heading. -/
def offsetPoint (p : Int × Int) (heading : F32) (f r : Int) : Int × Int :=
  let sn := sinDeg heading
  let cs := cosDeg heading
  (p.1 + (f * sn + r * cs) / trigScale, p.2 + (f * cs - r * sn) / trigScale)

/-- The header point of an extract. -/
def headerPoint (s : State) (x : Extract) : Int × Int :=
  let h : Int := rget s R.STO_ANT_HEIGHT_ANT_HEIGHT * 1000000
  let sp := if x.slopeValid then sinDeg x.pitch else 0
  let sr := if x.slopeValid then sinDeg x.roll else 0
  offsetPoint (antennaPos s x.lat x.lon) x.heading
    (rgetS s R.STO_HDR_OFFSET_HDR_FWD * 10000000 + h * sp / trigScale)
    (rgetS s R.STO_HDR_OFFSET_HDR_RIGHT * 10000000 - h * sr / trigScale)

/-- Level of a general input in an extract. -/
def digOf (x : Extract) (g : Nat) : Nat := b2n (bitOf x.dig g)

/-- The recording condition. -/
def recordingOf (s : State) (x : Extract) : Bool :=
  rget s R.STO_MAP_CTRL_RECORD_SRC == 0 ||
    digOf x (rget s R.STO_MAP_CTRL_RECORD_GIN) == rget s R.STO_MAP_CTRL_RECORD_LEVEL

/-- Active sections, one bit each. -/
def sectionsOf (s : State) (x : Extract) : Nat :=
  (List.range 16).foldl (fun m n =>
    let on := rget s R.STO_SECT_WIDTH_CM 0 n != 0 && (rget s R.STO_SECT_SRC_SRC 0 n == 0 ||
      digOf x (rget s R.STO_SECT_SRC_GIN 0 n) == rget s R.STO_SECT_SRC_LEVEL 0 n)
    m + b2n on * 2 ^ n) 0

/-- Enters an extract in the position history (R285). -/
def enterHistory (s : State) (x : Extract) : State :=
  let fresh := match s.sto.history with
    | h :: _ => decide (h.edge + 1000000 ≤ x.edge)
    | [] => true
  if fresh then
    let p := headerPoint s x
    let e : HistPos := ⟨x.edge, x.posValid && x.headingValid && inGrid p.1 p.2, p.1, p.2, x.heading, recordingOf s x,
      sectionsOf s x⟩
    modSto s fun m => { m with history := (e :: m.history).take 32768 }
  else s

/-! ### The cut time (R286, R287) -/

/-- Delay in ns of point `k`, and its mass flow in kg/s. -/
def delayAt (s : State) (k : Nat) : Rat := (rval s R.STO_DELAY_DELAY 0 k : Rat) * 100000000
def delayFlow (s : State) (k : Nat) : Rat := mkRat (rget s R.STO_DELAY_MF 0 k) 100

/-- The delay from the `k`-th of `n` points on, for a mass flow not below its own. -/
def delaySeg (s : State) (n : Nat) (q : Rat) : Nat → Nat → Rat
  | 0, k => delayAt s k
  | fuel + 1, k =>
    if n ≤ k + 1 then delayAt s (n - 1)
    else if q < delayFlow s (k + 1) then
      delayAt s k + (delayAt s (k + 1) - delayAt s k) * ((q - delayFlow s k) / (delayFlow s (k + 1) - delayFlow s k))
    else delaySeg s n q fuel (k + 1)

/-- D in nanoseconds: linear in Q00 between the points of STO_DELAY, held beyond them. -/
def travelDelay (s : State) (q00 : F32) : Nat :=
  let q : Rat := let r := fToRatio q00; mkRat r.1 r.2
  (if q ≤ delayFlow s 0 then delayAt s 0 else delaySeg s (rval s R.STO_MAP_CTRL_DELAY_POINTS) q 8 0).floor.toNat

/-- The valid entries of the history that bracket a cut time. -/
def bracket (s : State) (tc : Nat) : Option (HistPos × HistPos) :=
  let ok := s.sto.history.filter (·.valid)
  match ok.find? fun h => decide (h.edge ≤ tc) with
  | none => none
  | some b =>
    match (ok.filter fun h => decide (tc ≤ h.edge)).getLast? with
    | none => none
    | some a => if a.edge ≤ b.edge + 1000000000 then some (b, a) else none

/-- Header point at the cut time. -/
def pointAt (b a : HistPos) (tc : Nat) : Int × Int :=
  if a.edge = b.edge then (b.x, b.y)
  else
    let k : Int := (tc - b.edge : Nat)
    let w : Int := (a.edge - b.edge : Nat)
    (b.x + (a.x - b.x) * k / w, b.y + (a.y - b.y) * k / w)

/-! ### Strips (R290) -/

/-- A strip of a section: its key, its centre in grid as a cell, and the section's width and strips. -/
structure Strip where
  key : Nat
  cell : Option (Int × Int)
  widthCm : Nat
  n : Nat
  deriving DecidableEq, Repr

/-- The strips of the active sections at a header point. -/
def stripsOf (s : State) (p : Int × Int) (heading : F32) (sections : Nat) : List Strip :=
  (List.range 16).flatMap fun k =>
    let w := rget s R.STO_SECT_WIDTH_CM 0 k
    if bitOf sections k && w != 0 then
      let n := min (ceilDiv w (gridCell s)) 64
      (List.range n).map fun (j : Nat) =>
        let off : Int := rgetS s R.STO_SECT_CENTRE_CM 0 k * 10000000 +
          (2 * (j : Int) + 1 - (n : Int)) * (w : Int) * 10000000 / (2 * (n : Int))
        let c := offsetPoint p heading 0 off
        let size : Int := (gridCell s * 10000000 : Nat)
        ⟨64 * k + j, if inGrid c.1 c.2 then some (c.1 / size, c.2 / size) else none, w, n⟩
    else []

/-- TILE_ID and cell index of a cell of a kind (R292, R293). -/
def cellPlace (kind : Nat) (c : Int × Int) : Nat × Nat :=
  (tileId kind (c.1 / 128) (c.2 / 128), (128 * (c.2 % 128) + c.1 % 128).toNat)

/-- The tiles that an extract's strips need. -/
def stripTiles (l : List Strip) : List Nat :=
  ((l.filterMap (·.cell)).flatMap fun c => [(cellPlace 1 c).1, (cellPlace 2 c).1]).eraseDups

/-- Q00 × dt × w / W of a strip in mg, w / W as the share of the active width. -/
def stripWet (q00 : F32) (dt : Int) (st : Strip) (width : Nat) : Rat :=
  let r := fToRatio q00
  mkRat r.1 r.2 * dt / 1000 * mkRat st.widthCm (st.n * width)

/-- Nearest whole number, from 0 up to a limit. -/
def nearSat (q : Rat) (hi : Nat) : Nat := min (roundHalfAway q.num q.den).toNat hi

/-- The yield cell with a strip's masses and area added (R290, R295). -/
def yieldAdd (v : Nat) (wet dry area : Nat) (wetOnly : Bool) : Nat :=
  min (bitField v 0 48 + dry) (2 ^ 48 - 1) + 2 ^ 48 * min (bitField v 48 48 + wet) (2 ^ 48 - 1) +
    2 ^ 96 * min (bitField v 96 31 + area) (2 ^ 31 - 1) + 2 ^ 127 * b2n (bitOf v 127 || wetOnly)

/-- The coverage cell with one more pass (R291, R295). -/
def passAdd (v : Nat) : Nat := min (v % 16 + 1) 15 + 16

/-- What one strip adds to its yield and coverage cells. -/
def mapStrip (x : Extract) (dt : Int) (width dist : Nat) (mref : Nat) (last : Option Mapped) (ver : Ver) (s : State)
    (st : Strip) : State :=
  let wet := stripWet x.q00 dt st width
  match st.cell with
  | none =>
    -- out of grid: the wet mass in kg is not mapped
    let kg := wet / 1000000
    rset s R.STO_UNMAPPED_KG_VALUE (fAdd (rget s R.STO_UNMAPPED_KG_VALUE)
      (fRound (decide (kg.num < 0)) kg.num.natAbs kg.den 0))
  | some c =>
    let q08 : Rat := let r := fToRatio x.q08; mkRat r.1 r.2
    let dry := if x.q08Bad then wet else wet * ((100 - q08) * 10 / (1000 - (mref : Rat)))
    let area := mkRat (dist * st.widthCm * 10) (st.n * 1000000)
    let p := cellPlace 1 c
    let s1 := writeCell s p.1 p.2
      (yieldAdd (readCell s p.1 p.2) (nearSat wet (2 ^ 48 - 1)) (nearSat dry (2 ^ 48 - 1)) (nearSat area (2 ^ 31 - 1))
        x.q08Bad) ver
    let pass := match last with
      | some m => tblGet? m.strips st.key != some c
      | none => true
    if pass then
      let k := cellPlace 2 c
      writeCell s1 k.1 k.2 (passAdd (readCell s1 k.1 k.2)) ver
    else s1

/-- Distance of two points. -/
def distance (a : Int × Int) (x y : Int) : Nat := Nat.sqrt ((a.1 - x).natAbs ^ 2 + (a.2 - y).natAbs ^ 2)

/-! ### One extract -/

/-- The extract leaves the queue. -/
def extractDone (s : State) (x : Extract) (mapped : Bool) : State :=
  modSto s fun m => { m with samples := m.samples.drop 1, prevEdge := some x.edge, inRun := mapped }

/-- An extract that is not mapped: its grain is counted (R287). -/
def extractUnmapped (s : State) (x : Extract) (dt : Option Int) : State :=
  let s1 := rinc s R.STO_MAP_COUNTS_UNMAPPED
  let s2 := match dt with
    | some d => if x.q00Bad then s1
        else rset s1 R.STO_UNMAPPED_KG_VALUE (fAdd (rget s1 R.STO_UNMAPPED_KG_VALUE)
          (fMul x.q00 (fRound (decide (d < 0)) d.natAbs 1000000000 0)))
    | none => s1
  extractDone s2 x false

/-- Maps an extract into its cells once their tiles are in the cache. -/
def extractMap (s : State) (x : Extract) (dt : Int) (b a : HistPos) (tc : Nat) : State :=
  let p := pointAt b a tc
  let strips := stripsOf s p b.heading b.sections
  let r := needTiles s (stripTiles strips)
  if !r.2 then r.1
  else
    let width := ((List.range 16).map fun k =>
      if bitOf b.sections k then rget s R.STO_SECT_WIDTH_CM 0 k else 0).foldl (· + ·) 0
    let dist := match s.sto.lastMapped with
      | some m => if s.sto.inRun then distance p m.x m.y else 0
      | none => 0
    let s1 := if strips.any (·.cell.isSome) then clockLocal r.1 else r.1
    let ver : Ver := ⟨ownStamp s1, true⟩
    let s2 := strips.foldl (mapStrip x dt width dist (rval s R.STO_MAP_GRID_M_REF) s.sto.lastMapped ver) s1
    let cells := strips.foldl (fun t st => match st.cell with
      | some c => tblSet t st.key c
      | none => t) []
    extractDone (modSto s2 fun m => { m with lastMapped := some ⟨p.1, p.2, cells⟩ }) x true

/-- MAP_EXTRACT: the oldest extract of the queue; it waits there while a tile it needs is being loaded. -/
def mapExtract (s : State) : State :=
  match s.sto.samples with
  | [] => s
  | x :: _ =>
    let s1 := enterHistory s x
    let dt := s1.sto.prevEdge.map fun e => (x.edge : Int) - e
    match dt with
    | none => extractUnmapped s1 x none
    | some d =>
      let delay := travelDelay s1 x.q00
      if x.q00Bad ∨ d < 0 ∨ 100000000 < d ∨ x.edge < delay then extractUnmapped s1 x dt
      else
        match bracket s1 (x.edge - delay) with
        | some (b, a) =>
          if b.recording && b.sections != 0 then extractMap s1 x d b a (x.edge - delay) else extractUnmapped s1 x dt
        | none => extractUnmapped s1 x dt

/-! ### Commands -/

/-- MAP_EXTRACT. -/
def execMapExtract (t : Fc) (s : State) : Out := atFabric t mapExtract s

end Sys2Proof.Machine
end

