-- ==== Sys2Proof/Machine/Xlk.lean ====
section
/-! DEFINITION. Pairing over the cross-link (R227–R243, R250–R255): bids and roles, heartbeats and takeover, shadow
rows and resynchronisation, health reports, handover. -/

namespace Sys2Proof.Machine

/-! ### Bids and roles (R232, R235–R237) -/

def role (s : State) : Nat := rget s R.XLK_ROLE_ROLE
def pairEn (s : State) : Bool := rbit s R.XLK_PAIR_CFG_PAIR_EN

/-- The rank part of a bid (R232). -/
def rankOf (s : State) : Nat := 2 * rget s R.XLK_PAIR_CFG_PRIORITY + rget s R.XLK_PAIR_CFG_SIDE

/-- The next epoch (R235). -/
def nextEpoch (s : State) : Nat :=
  1 + max (max s.xlk.savedEpoch (rget s R.PPS_HIGHEST_BID 0 / 256)) (max (rget s R.PPS_HIGHEST_BID 1 / 256) s.xlk.hbEpoch)

/-- The module becomes the commanding module in a role; `saved` says that the journal took the new epoch (R235). -/
def becomeCommander (s : State) (r : Nat) (saved : Bool) : State :=
  let e := nextEpoch s
  let s1 := rset (rset s R.XLK_BID_BID (e * 256 + rankOf s)) R.XLK_ROLE_ROLE r
  if saved then { s1 with xlk := { s1.xlk with savedEpoch := e } } else raiseEv s1 evPairEpochUnsaved

/-- The module enters RESYNC and asks the primary for its state (R251). A standby keeps what has been forwarded to it. -/
def enterResync (s : State) : State :=
  let s1 := rset (rset s R.XLK_ROLE_ROLE 3) R.XLK_ROLE_MATCH_ROWS 0
  resyncSend { s1 with xlk := { s1.xlk with
    inbox := if role s = 4 then s1.xlk.inbox else [], takeNext := false } } 0 .pull

/-- TAKEOVER goes to the partner with the new bid of a module that has just become PRIMARY (R230). -/
def announce (s : State) : State := xlkSend s 7 [rget s R.XLK_BID_BID] none

/-- STARTING_LISTEN_EXPIRY (R237). -/
def listenExpiry (s : State) (saved : Bool) : State :=
  if role s ≠ 1 ∨ rowNow s < s.xlk.startRow + rval s R.XLK_PAIR_CFG_HB_MISS + 2 then s
  else match s.xlk.lastHb with
    | some h =>
      if h.role = 2 then enterResync s
      else if h.role = 1 then
        if h.bid < rget s R.XLK_BID_BID then announce (becomeCommander s 2 saved) else enterResync s
      else s
    | none =>
      if rbit s R.XLK_PAIR_CFG_ALONE_OK then rset (announce (becomeCommander s 2 saved)) R.XLK_ROLE_PARTNER_LOST 1 else s

/-! ### What a row leaves when it commits (R113, R133, R158) -/

/-- Estimators, solve, loops, region and CAN words of the row become the module's state. -/
def commitTickWorld (s : State) : State :=
  let g := s.tke.staged
  let s1 := { s with
    sfe := { s.sfe with est := g.est.foldl (fun t p => tblSet t p.1 p.2) s.sfe.est },
    sps := { s.sps with qvals := g.qvals.foldl (fun t p => tblSet t p.1 p.2) s.sps.qvals,
                        bands := match g.region with
                          | some b => some b
                          | none => s.sps.bands },
    tke := { s.tke with canWords := g.canWords.foldl (fun t p => tblSet t p.1 p.2) s.tke.canWords } }
  let s2 := match g.solve with
    | some o => commitSolve s1 o
    | none => s1
  let s3 := match liveSet s2 with
    | some ts => commitLoops s2 ts
    | none => s2
  if s.tke.rowFallback then { s3 with sps := { s3.sps with pFromFallback := true, warm := none } } else s3

/-- DIGEST of the row's staged commands and setpoints, in stitch order (R240). -/
def stagedDigest (s : State) : Nat := Config.rowDigest s.tke.staged.digest

/-! ### Heartbeats (R240, R241) -/

/-- A 64-bit value as two words. -/
def two (v : Nat) : List Nat := [v % 2 ^ 32, v / 2 ^ 32 % 2 ^ 32]

/-- The heartbeat of a row (R240). -/
def hbWords (s : State) (w : RowReport) : List Nat :=
  let flags := flagsOf [w.overrun, rbit s R.TKE_CTRL_STOPPED, s.xlk.swDisarmed, !s.xlk.handover.isEmpty, w.fallback]
  two w.row ++ [rget s R.XLK_BID_BID, flags + 32 * role s + 256 * (s.xlk.mirrorSent % 256)] ++ two w.digest ++
    [w.epoch % 2 ^ 32, w.edge % 2 ^ 32]

/-- What the module reports of its own running row; an overrun row's digest is zero. -/
def ownReport (s : State) (digest : Nat) : RowReport :=
  let ovf := s.tke.overrun.isSome
  { row := rowNow s, digest := if ovf then 0 else digest, overrun := ovf, fallback := s.tke.rowFallback,
    epoch := s.tke.snap.epoch, edge := s.tke.edgeTime }

/-- The module of a pair sends its heartbeat: a standby that of the row it has just shadowed. -/
def hbSend (s : State) (digest : Nat) : State :=
  if !pairEn s || role s == 0 then s
  else xlkSend s 1 (hbWords s (if role s = 3 ∨ role s = 4 then s.xlk.shadow else ownReport s digest)) none

/-- HEARTBEAT_RX. -/
def hbRx (s : State) (h : Heartbeat) : State :=
  if !pairEn s then s
  else
    -- one flagged DISARMED starts no takeover (R241); one without HANDOVER withdraws the offer (R252)
    let s1 := { s with xlk := { s.xlk with lastHb := some h, hbEpoch := h.bid / 256, hbHeard := true, shadowed := false,
                                           lateShadow := false,
                                           takeNext := role s == 4 && h.handover && !h.disarmed } }
    let s2 := if h.stopped then s1 else rset (rset s1 R.XLK_ROLE_MISSED 0) R.XLK_ROLE_PARTNER_LOST 0
    if h.role = 4 ∨ h.role = 2 then s2
    else s2.xlk.handover.foldl (fun s x => complete s x.1 stPartnerAbsent 0x0282)
      { s2 with xlk := { s2.xlk with handover := [] } }

/-! ### What the primary has forwarded (R251) -/

/-- Stands for the row of a forwarded pattern or table set that the primary has not yet named: it names it once the item
is pending there (DESIGN CHOICE, log entry 177; unsafe). -/
def undated : Nat := 2 ^ 64

/-- Applies what a RESYNC frame delivered (R251). -/
def applyItem (s : State) : ResyncItem → State
  | .pattern fb p =>
    if fb then { s with tke := { s.tke with fallback := some p } } else { s with tke := { s.tke with main := some p } }
  | .liveTable img e =>
    let b := freeBuffer s
    let old := rget s R.TKE_TABLE_STATE_LIVE_BUF
    let s1 := { s with tke := { s.tke with bufs := tblSet (tblErase s.tke.bufs old) b img } }
    rset64 (rset (rset s1 R.TKE_TABLE_STATE_LIVE_BUF b) R.TKE_EPOCH_EPOCH e) R.SPS_SET_ID_LO_SET_ID
      R.SPS_SET_ID_HI_SET_ID (join64 (imgWord img 0x10) (imgWord img 0x14))
  | .pendingTable img =>
    let s1 := supersedeTable s
    let b := freeBuffer s1
    pendTable { s1 with tke := { s1.tke with bufs := tblSet s1.tke.bufs b img } } none b
  | .rowCounter n => rset64 s R.TKE_ROW_LO_ROW R.TKE_ROW_HI_ROW n
  | .solver p f w b => { s with sps := { s.sps with p := p, pFromFallback := f, warm := w, bands := b } }
  | .loop i st => { s with sps := { s.sps with loops := tblSet s.sps.loops i st } }
  | .estimator j st => { s with sfe := { s.sfe with est := tblSet s.sfe.est j st } }
  | .envelope i lim =>
    { s with sps := { s.sps with env := match lim with
        | some e => tblSet s.sps.env i e
        | none => tblErase s.sps.env i } }
  | .calibration j a b => rset (rset s R.SFE_EST_A a 0 j) R.SFE_EST_B b 0 j
  | .post j v => { s with sps := { s.sps with posts := tblSet s.sps.posts j v } }
  | .classBank b => rset s R.SFE_CTRL_LIVE_BANK b
  | .confirm => s
  | .dated => s
  | .pull => s

/-- Items forwarded for rows up to `row` take effect. -/
def applyInbox (s : State) (row : Nat) : State :=
  let now := s.xlk.inbox.filter fun p => decide (p.1 ≤ row)
  let later := s.xlk.inbox.filter fun p => decide (row < p.1)
  now.foldl (fun s p => applyItem s p.2) { s with xlk := { s.xlk with inbox := later } }

/-- A forwarded item is a table set. -/
def itemIsTable : ResyncItem → Bool
  | .pendingTable _ => true
  | _ => false

/-- A primary that has taken over makes good what was forwarded to it and has not been shadowed: what takes effect with the
row that begins, a table set at this very edge, and as pending what has no row yet. The rest waits for its row. -/
def takeInbox (s : State) : State :=
  let box := s.xlk.inbox
  let s1 := applyInbox s (rowNow s)
  let flips := box.any fun p => decide (p.1 ≤ rowNow s) && itemIsTable p.2
  let s2 := if flips then { s1 with tke := { s1.tke with pendTbl := s1.tke.pendTbl.map fun x => (x.1, 0) } } else s1
  (box.filter fun p => p.1 == undated).foldl (fun s p => applyItem s p.2)
    { s2 with xlk := { s2.xlk with inbox := s2.xlk.inbox.filter fun p => p.1 != undated } }

/-- The module takes over at a tick edge (R242). -/
def takeover (s : State) (saved : Bool) : State :=
  let s1 := rinc (becomeCommander (takeInbox s) 2 saved) R.XLK_COUNTS_TAKEOVERS
  let bid := rget s1 R.XLK_BID_BID
  let s2 := announce { s1 with xlk := { s1.xlk with takeNext := false, lateShadow := !s1.xlk.shadowed } }
  let s3 := (ppsFrame s2 0 true .takeover bid (rowNow s) 0 []).1
  raiseEv (ppsFrame s3 1 true .takeover bid (rowNow s) 0 []).1 evPairTakeover

/-- A heartbeat for the row that ends has been received (R241). A standby's heartbeat is that of the row it shadows,
one behind, so a module that is no standby counts any that came in the row (DEDUCED, log entry 19). -/
def hbFor (s : State) : Bool :=
  s.xlk.hbHeard && match s.xlk.lastHb with
    | some h => !h.stopped && ((role s != 3 && role s != 4) || h.row + 1 == rowNow s)
    | none => false

/-- Pairing at a tick edge, the row counter having moved: a fenced primary enters RESYNC, misses are counted, and a
standby takes over (R241–R243, R252). -/
def pairEdge (s : State) (saved : Bool) : State :=
  if !pairEn s || role s == 0 then s
  else
    let s1 := if s.xlk.fencedOut then
        let s1 := enterResync { s with xlk := { s.xlk with fencedOut := false, handover := [] } }
        s.xlk.handover.foldl (fun s x => complete s x.1 stDone) s1
      else s
    let heard := hbFor s1
    let n := rget s1 R.XLK_ROLE_MISSED + 1
    let miss := rval s1 R.XLK_PAIR_CFG_HB_MISS
    let s2 := if heard then s1 else rinc s1 R.XLK_ROLE_MISSED
    let lost := !heard && decide (miss ≤ n)
    let s3 := if lost && !rbit s2 R.XLK_ROLE_PARTNER_LOST then
        raiseEv (rset s2 R.XLK_ROLE_PARTNER_LOST 1) evPairPartnerLost
      else s2
    -- a DISARMED module is not taken over from, and does not take over (R241, R417)
    let barred := s3.xlk.swDisarmed || s3.xlk.lastHb.any fun h => h.disarmed
    let s4 := if role s3 == 4 && (lost || s3.xlk.takeNext) && !barred then takeover s3 saved
      else if role s3 == 2 then takeInbox s3 else s3
    { s4 with xlk := { s4.xlk with hbHeard := false, mirrorSent := 0, lateShadow := role s3 == 4 && s4.xlk.lateShadow } }

/-- This PRIMARY's COMMIT has been fenced (R243). -/
def fencedOut (s : State) : State :=
  if role s = 2 ∧ !s.xlk.fencedOut then
    raiseEv (rinc { s with xlk := { s.xlk with fencedOut := true } } R.XLK_COUNTS_FENCED_OUT) evPairFencedOut
  else s

/-! ### Mirroring and shadow rows (R250) -/

/-- MIRROR: N blocks of 64 bytes of the latched snapshot from byte offset OPERAND_B on, one frame each. -/
def mirrorStitch (st : Stitch) (s : State) : State :=
  if role s ≠ 2 then s
  else (List.range st.n).foldl (fun s k =>
    let off := st.opB + 64 * k
    let words := (List.range 8).flatMap fun e => two (snapEntry s (off / 8 + e))
    xlkSend { s with xlk := { s.xlk with mirrorSent := s.xlk.mirrorSent + 1 } } 2 (two (rowNow s) ++ [off] ++ words) none) s

/-- MIRROR_RX: the block's entries are kept for the shadow row. -/
def mirrorRx (s : State) (row off : Nat) (entries : List Nat) : State :=
  if role s ≠ 3 ∧ role s ≠ 4 then s
  else
    let x := if s.xlk.mirrorRow = row then s.xlk else { s.xlk with mirror := [], mirrorRow := row, mirrorGot := 0 }
    let m := (List.range 8).foldl (fun t e => tblSet t (off / 8 + e) (entries.getD e 0)) x.mirror
    { s with xlk := { x with mirror := m, mirrorGot := x.mirrorGot + 1 } }

/-- Runs a stitch by its type. -/
def runByType (s : State) (st : Stitch) : State :=
  match st.typ with
  | 1 => gatherGroup st s
  | 2 => estimate st s
  | 3 => regionSelect st s
  | 4 => solve st s
  | 5 => loops st s
  | 6 => stageDrive st s
  | 7 => stageSwitch st s
  | 8 => compute st s
  | _ => s

/-- The stitches of a pattern that a row selects (R85, R87). -/
def rowStitches (p : Pattern) (row : Nat) : List Stitch :=
  p.stitches.filter fun st => st.every != 0 && row % st.every == st.offset

/-- Runs the primary's row in shadow: its results update the tick-world state and reach no output. The second part is
its digest. -/
def shadowRun (s : State) (h : Heartbeat) : State × Nat :=
  match if h.fallback then s.tke.fallback else s.tke.main with
  | none => (s, 0)
  | some p =>
    let edge := s.tke.edgeTime - (s.tke.edgeTime + 2 ^ 32 - h.edge) % 2 ^ 32
    let blocks := if s.xlk.mirrorRow = h.row ∧ 0 < h.mirrorCount then s.xlk.mirror else []
    let navs := (List.range 8).map fun k => tblGetD blocks (navEntry + k) ((navEntries s.tke.snap.nav).getD k 0)
    let snap := { s.tke.snap with
      sfe := (blocks.filter fun q => decide (q.1 < navEntry)).foldl (fun t q => tblSet t q.1 q.2) s.tke.snap.sfe,
      nav := navOfEntries navs, posts := s.sps.posts, epoch := h.epoch }
    let s1 := { s with tke := { s.tke with rowArmed := true, rowFallback := h.fallback, edgeTime := edge, snap := snap,
                                           staged := Staged.empty } }
    let s2 := (rowStitches p h.row).foldl runByType s1
    let d := stagedDigest s2
    let s3 := commitTickWorld s2
    ({ s3 with tke := { s3.tke with rowArmed := s.tke.rowArmed, rowFallback := s.tke.rowFallback,
                                    edgeTime := s.tke.edgeTime, snap := s.tke.snap, staged := s.tke.staged } }, d)

/-- A PENDING set becomes LIVE with the row whose EPOCH names it (R250). -/
def shadowEpoch (s : State) (epoch : Nat) : State :=
  if s.tke.pendTbl.isSome ∧ epoch = (rget s R.TKE_EPOCH_EPOCH + 1) % 2 ^ 32 then
    flipTable { s with tke := { s.tke with pendTbl := s.tke.pendTbl.map fun x => (x.1, 0) } }
  else s

/-- What the standby reports of a row that it has shadowed (R240). -/
def shadowReport (h : Heartbeat) (digest : Nat) : RowReport :=
  { row := h.row, digest := digest, overrun := h.overrun, fallback := h.fallback, epoch := h.epoch, edge := h.edge }

/-- A mismatch (R250). -/
def shadowMiss (s : State) : State :=
  let s1 := rinc (rset s R.XLK_ROLE_MATCH_ROWS 0) R.XLK_COUNTS_MISMATCHES
  raiseEv { s1 with xlk := { s1.xlk with recentMismatch := s1.xlk.recentMismatch + 1 } } evPairMismatch

/-- Compares digests (R250, R251). -/
def shadowCompare (s : State) (mine theirs : Nat) : State :=
  if mine = theirs then
    let s1 := rinc s R.XLK_ROLE_MATCH_ROWS
    if role s1 = 3 ∧ rval s1 R.XLK_RESYNC_ROWS_ROWS ≤ rget s1 R.XLK_ROLE_MATCH_ROWS then
      raiseEv (rset s1 R.XLK_ROLE_ROLE 4) evPairReady
    else s1
  else
    let s2 := shadowMiss s
    if role s2 = 4 then enterResync s2 else s2

/-- SHADOW_ROW: of the row whose heartbeat a PRIMARY has sent. -/
def shadowRow (s : State) : State :=
  match s.xlk.lastHb with
  | none => s
  | some h =>
    let mirrored := h.mirrorCount = 0 ∨ (s.xlk.mirrorRow = h.row ∧ h.mirrorCount ≤ s.xlk.mirrorGot)
    if s.xlk.shadowed ∨ !mirrored ∨ h.role ≠ 2 then s
    else if role s = 2 ∧ s.xlk.lateShadow then
      -- the mismatch of a row whose shadow the takeover cut short is counted after it (R254)
      let s1 := { s with xlk := { s.xlk with shadowed := true, lateShadow := false } }
      if h.overrun ∨ h.stopped ∨ h.disarmed ∨ (shadowRun s1 h).2 = h.digest then s1 else shadowMiss s1
    else if role s ≠ 3 ∧ role s ≠ 4 then s
    else
      let s1 := shadowEpoch (applyInbox { s with xlk := { s.xlk with shadowed := true } } h.row) h.epoch
      if h.overrun ∨ h.stopped ∨ h.disarmed then { s1 with xlk := { s1.xlk with shadow := shadowReport h 0 } }
      else
        let r := shadowRun s1 h
        shadowCompare { r.1 with xlk := { r.1.xlk with shadow := shadowReport h r.2 } } r.2 h.digest

/-! ### Forwarding (R251) -/

/-- A forwarded item becomes pending; a partner that has confirmed it learns the row of its effect. -/
def releaseForward (s : State) (confirmed : Bool) : State :=
  match s.xlk.forwards with
  | [] => s
  | f :: rest =>
    let s1 := { s with xlk := { s.xlk with forwards := rest } }
    let s2 := match f with
      | .pattern p => pendPattern s1 p
      | .table r b _ => pendTable s1 (some r) b
    if confirmed then resyncSend s2 (effectRow s2) .dated else s2

/-- fc at which a forwarded item was sent. -/
def Forwarded.sentAt : Forwarded → Nat
  | .pattern p => p.at_
  | .table _ _ t => t

/-- FORWARD_CONFIRM_TIMEOUT. -/
def forwardTimeout (s : State) : State :=
  match s.xlk.forwards with
  | f :: _ => if f.sentAt + 100 * fcMs ≤ s.now then releaseForward s false else s
  | [] => s

/-- What a partner that enters RESYNC pulls (R251). -/
def pulledItems (s : State) : List ResyncItem :=
  let pats := fun (fb : Bool) (p : Option Pattern) => match p with
    | some q => [ResyncItem.pattern fb q]
    | none => []
  let sets := (match liveSet s with
      | some img => [ResyncItem.liveTable img (rget s R.TKE_EPOCH_EPOCH)]
      | none => []) ++
    (match s.tke.pendTbl with
      | some _ => [ResyncItem.pendingTable (tblGetD s.tke.bufs (rget s R.TKE_TABLE_STATE_PENDING_BUF) [])]
      | none => [])
  pats false s.tke.main ++ pats true s.tke.fallback ++ sets ++
    [.rowCounter (rowNow s), .solver s.sps.p s.sps.pFromFallback s.sps.warm s.sps.bands] ++
    (s.sps.loops.map fun p => .loop p.1 p.2) ++ (s.sfe.est.map fun p => .estimator p.1 p.2) ++
    (s.sps.env.map fun p => .envelope p.1 (some p.2)) ++
    (List.range 16).map fun j => .calibration j (rget s R.SFE_EST_A 0 j) (rget s R.SFE_EST_B 0 j)

/-- RESYNC_RX: a pull is answered; a pulled item (row 0) takes effect at once, a forwarded one with its row; a forwarded
pattern or table set is confirmed, and takes effect with the row that the primary names when it is pending there. -/
def resyncRx (s : State) (row : Nat) (item : ResyncItem) : State :=
  match item with
  | .confirm => if role s = 2 then releaseForward s true else s
  | .dated => { s with xlk := { s.xlk with inbox := s.xlk.inbox.map fun p => if p.1 = undated then (row, p.2) else p } }
  | .pull => if role s = 2 then (pulledItems s).foldl (fun s x => resyncSend s 0 x) s else s
  | _ =>
    if role s ≠ 3 ∧ role s ≠ 4 then s
    else if row = 0 then applyItem s item
    else
      let hold := fun s => { s with xlk := { s.xlk with
        inbox := (s.xlk.inbox.filter fun p => p.1 != undated) ++ [(undated, item)] } }
      match item with
      | .pattern _ _ => resyncSend (hold s) row .confirm
      | .pendingTable _ => resyncSend (hold s) row .confirm
      | _ => { s with xlk := { s.xlk with inbox := s.xlk.inbox ++ [(row, item)] } }

/-! ### Handover (R252) -/

/-- PAIR_HANDOVER. -/
def pairHandover (s : State) (r : Ref) : State :=
  if role s ≠ 2 then complete s r stRejectState 0x0280
  else match s.xlk.lastHb with
    | some h =>
      if h.role ≠ 4 then complete s r stPartnerRefused 0x0281
      else if rbit s R.XLK_ROLE_PARTNER_LOST then complete s r stPartnerAbsent 0x0282
      else { s with xlk := { s.xlk with handover := s.xlk.handover ++ [(r, rowNow s)] } }
    | none => complete s r stPartnerRefused 0x0281

/-- HANDOVER_TIMEOUT. -/
def handoverTimeout (s : State) : State :=
  if s.xlk.fencedOut then s
  else
    let late := fun x : Ref × Nat => decide (x.2 + rval s R.XLK_PAIR_CFG_HB_MISS + 1 < rowNow s)
    (s.xlk.handover.filter late).foldl (fun s x => complete s x.1 stPartnerAbsent 0x0282)
      { s with xlk := { s.xlk with handover := s.xlk.handover.filter fun x => !late x } }

/-! ### Health (R253) -/

/-- HEALTH_RX: kept in the registers and written to the telemetry ring. -/
def healthRx (s : State) (w : List Nat) : State :=
  let s1 := (List.range 16).foldl (fun s k => rset s R.XLK_PEER_HEALTH_WORD (w.getD k 0) 0 k) s
  telemetryPut s1 4 ((List.range 16).flatMap fun k => leBytes 4 (w.getD k 0))

/-- One bit per bank. -/
def bankMask (p : Nat → Bool) : Nat := maskOf ((List.range 12).map p)

/-- The 64-byte HEALTH payload; `meas` gives TEMP, LOGIC, FEED_A and FEED_B as measured. -/
def healthWords (s : State) (meas : List Nat) : List Nat :=
  let dl := bankMask fun b => rbit s R.DBK_STATUS_LATCHED b || (bankChans b).any fun c => dbit s R.DBK_CH_STAT_LATCHED c
  let sl := bankMask fun b => (bankChans b).any fun c =>
    dbit s R.SBK_CH_STAT_TRIPPED c || dbit s R.SBK_CH_STAT_THERM_LATCH c || dbit s R.SBK_CH_STAT_LOCKED c
  let df := bankMask fun b => (bankChans b).any fun c => let f := dget s R.DBK_CH_STAT_FAULT c; decide (1 ≤ f ∧ f ≤ 3)
  let so := bankMask fun b => (bankChans b).any fun c => dbit s R.SBK_CH_STAT_OPEN_LOAD c
  let pat := match s.tke.main with
    | some p => p.patId % 2 ^ 32
    | none => 0
  let w := [1 + 256 * role s + 2048 * rget s R.XLK_ROLE_PARTNER_LOST + 65536 * (s.xlk.healthSeq % 65536),
    rget s R.XLK_BID_BID, rget s R.PPS_HIGHEST_BID 0, rget s R.PPS_HIGHEST_BID 1] ++ two (rowNow s) ++
    two (moduleTime s) ++
    [rget s R.XLK_ROLE_MATCH_ROWS + 65536 * min s.xlk.recentMismatch 65535, dl + 4096 * sl,
     df + 4096 * so + 2 ^ 24 * rget s R.TKE_ALIGN_STATE,
     meas.getD 0 0 % 256 + 256 * (meas.getD 1 0 % 256) + 65536 * (meas.getD 2 0 % 256) + 2 ^ 24 * (meas.getD 3 0 % 256),
     rget s R.UPD_VERSION_ACTIVE_VERSION, pat, rget s R.SPS_SET_ID_LO_SET_ID]
  w ++ [crc32 (imgBytes w 60)]

/-- HEALTH_TX: once in each second of module time. -/
def healthTx (s : State) (meas : List Nat) : State :=
  let sec := moduleTime s / 1000000000
  if pairEn s && sec != s.xlk.healthAt then
    let s1 := xlkSend s 5 (healthWords s meas) none
    { s1 with xlk := { s1.xlk with healthSeq := s1.xlk.healthSeq + 1, healthAt := sec, recentMismatch := 0 } }
  else s

/-! ### Frames to the supervisors -/

/-- The partner's commands for one plane. -/
def partnerCmds (s : State) (p row : Nat) (cmds : List SentCmd) : List Passed :=
  (cmds.filter fun c => OutCmd.chan c.cmd / 48 == p).map fun c => ⟨c.cmd, none, false, c.staged, row, s.now⟩

/-! ### What arrives (R229) -/

/-- A frame whose PAIR_ID is not this pair's is discarded and counted. -/
def ofPair (pair : Nat) (f : State → State) (s : State) : State :=
  if pair = rget s R.XLK_PAIR_ID_PAIR_ID then f s else rinc s R.XLK_BAD_FRAMES_COUNT

/-- The same at a supervisor's receive path, which holds its own copy of PAIR_ID and counts while the computing side runs
(R231; DESIGN CHOICE, log entry 139; unsafe). -/
def ofPlanePair (pair p : Nat) (f : State → State) (s : State) : State :=
  if pair = (getPps s p).pairId then f s else if s.fabric then rinc s R.XLK_BAD_FRAMES_COUNT else s

/-- A frame as received is discarded for its CRC or its PAIR_ID. -/
def badFrame (s : State) (ws : List Nat) : Bool :=
  ws.getLast? != some (crc32 (linkBytes ws.dropLast)) || ws.getD 0 0 != rget s R.XLK_PAIR_ID_PAIR_ID

/-! ### Commands -/

/-- HEARTBEAT_RX. -/
def execHeartbeatRx (x : XHead) (h : Heartbeat) (s : State) : Out :=
  atFabric x.t (ofPair x.pair fun s => hbRx s h) s

/-- MIRROR_RX. -/
def execMirrorRx (x : XHead) (row off : Nat) (entries : List Nat) (s : State) : Out :=
  atFabric x.t (ofPair x.pair fun s => mirrorRx s row off entries) s

/-- COMMIT_RX. -/
def execCommitRx (x : XHead) (plane : Fin 2) (keep : Bool) (bid row periodUs : Nat) (cmds : List SentCmd) (s : State) :
    Out :=
  atPlane x.t plane (ofPlanePair x.pair plane fun s =>
    (ppsFrame s plane false (if keep then .keep else .commit) bid row periodUs (partnerCmds s plane row cmds)).1) s

/-- TAKEOVER_RX. -/
def execTakeoverRx (x : XHead) (plane : Fin 2) (bid : Nat) (s : State) : Out :=
  atPlane x.t plane (ofPlanePair x.pair plane fun s => (ppsFrame s plane false .takeover bid 0 0 []).1) s

/-- FENCE_ACK_RX: it names the bid that was fenced. -/
def execFenceAckRx (x : XHead) (bid : Nat) (s : State) : Out :=
  atFabric x.t (ofPair x.pair fun s => if bid = rget s R.XLK_BID_BID then fencedOut s else s) s

/-- HEALTH_RX. -/
def execHealthRx (x : XHead) (words : List Nat) (s : State) : Out :=
  atFabric x.t (ofPair x.pair fun s => healthRx s words) s

/-- RESYNC_RX. -/
def execResyncRx (x : XHead) (row : Nat) (item : ResyncItem) (s : State) : Out :=
  atFabric x.t (ofPair x.pair (afterEdge (.resyncRx x row item) fun s => resyncRx s row item)) s

/-- SERVICE_RX. -/
def execServiceRx (x : XHead) (words : List Nat) (s : State) : Out :=
  atFabric x.t (ofPair x.pair fun s => { s with xlk := { s.xlk with service := words } }) s

/-- XLK_BAD_FRAME. -/
def execXlkBadFrame (f : RawFrame) (s : State) : Out :=
  atFabric f.t (fun s => if badFrame s f.words then rinc s R.XLK_BAD_FRAMES_COUNT else s) s

/-- XLK_LINK_UP. -/
def execXlkLinkUp (t : Fc) (delayNs : Nat) (s : State) : Out :=
  atFabric t (fun s => rset { s with xlk := { s.xlk with cableNs := delayNs } } R.XLK_ROLE_LINK_UP 1) s

/-- HEALTH_TX. -/
def execHealthTx (t : Fc) (meas : List Nat) (s : State) : Out := atFabric t (fun s => healthTx s meas) s

/-- STARTING_LISTEN_EXPIRY. -/
def execStartingListenExpiry (t : Fc) (saved : Bool) (s : State) : Out := atFabric t (fun s => listenExpiry s saved) s

/-- SHADOW_ROW. -/
def execShadowRow (t : Fc) (s : State) : Out := atFabric t shadowRow s

/-- FORWARD_CONFIRM_TIMEOUT. -/
def execForwardConfirmTimeout (t : Fc) (s : State) : Out :=
  atFabric t (afterEdge (.forwardConfirmTimeout t) forwardTimeout) s

/-- PAIR_HANDOVER. -/
def execPairHandover (t : Fc) (r : Ref) (s : State) : Out :=
  atFabric t (fun s => withDesc r 0xB 0x40 (fun _ s => pairHandover s r) s) s

/-- HANDOVER_TIMEOUT. -/
def execHandoverTimeout (t : Fc) (s : State) : Out := atFabric t handoverTimeout s

/-- MIRROR. -/
def execMirror (t : Fc) (s : State) : Out := atFabric t (fun s => runStitch s 10 mirrorStitch) s

/-- XLK_LINK_DOWN. -/
def execXlkLinkDown (t : Fc) (s : State) : Out := atFabric t (fun s => rset s R.XLK_ROLE_LINK_UP 0) s

end Sys2Proof.Machine
end

