-- ==== Sys2Proof/Machine/Tick.lean ====
section
/-! DEFINITION. The tick engine's rows (R77–R83, R92–R105): the tick edge with its latch, the alignment of edges to
module time, the commit point with overrun and demotion, the till flush, arming and disarming. -/

namespace Sys2Proof.Machine

def modTke (s : State) (f : Tke → Tke) : State := { s with tke := f s.tke }

/-! ### Alignment (R99–R102, R239) -/

/-- The tick settings in the registers (R106). -/
def tickSettings (s : State) : TickSet :=
  { periodUs := rget s R.TKE_TICK_PERIOD_PERIOD_US, offsetUs := rget s R.TKE_COMMIT_OFFSET_OFFSET_US,
    phaseNs := rget s R.TKE_TICK_PHASE_PHASE_NS, alignEn := rbit s R.TKE_ALIGN_ALIGN_EN,
    slewFc := rval s R.TKE_ALIGN_SLEW_FC }

/-- The edge that a paired module which is not PRIMARY aligns to: the primary's latest tick edge that it has heard of
(R239). -/
def partnerEdge (s : State) : Option Nat :=
  if pairEn s && role s != 0 && role s != 2 then
    match s.xlk.lastHb with
    | some h => if h.role = 2 then some h.edge else none
    | none => none
  else none

/-- Module time less a target edge: of the grid of module time, or of a partner's tick edge `pe`, corrected for the cable
delay. -/
def sinceTarget (s : State) (k : TickSet) (pe : Option Nat) (time : Nat) : Int :=
  match pe with
  | some e => toSigned 32 ((time + 2 ^ 32 - e % 2 ^ 32) % 2 ^ 32) - Config.edgeCorrection s.xlk.cableNs
  | none => (time : Int) - k.phaseNs

/-- The phase error e of an edge in ns, in (−P/2, P/2]. -/
def phaseError (s : State) (k : TickSet) (pe : Option Nat) (time : Nat) : Int :=
  let p : Int := k.periodUs * 1000
  let r := sinceTarget s k pe time % p
  if 2 * r ≤ p then r else r - p

/-- A time in ns as the nearest count of fc of 2.5 ns. -/
def fcRound (e : Int) : Int := (4 * e + 5) / 10

/-- d of R99. -/
def slewStep (k : TickSet) (e : Int) : Int := -clampInt (-(k.slewFc : Int)) k.slewFc (fcRound e)

/-- Length in fc of a regrid row: it ends on the first target at least 250 µs after its edge. -/
def regridLength (s : State) (k : TickSet) (pe : Option Nat) (time : Nat) : Nat :=
  let p : Int := k.periodUs * 1000
  let r := sinceTarget s k pe time % p
  let least : Int := 250000
  let n := (least + r + p - 1) / p
  (fcRound (n * p - r)).toNat

/-- Module time is valid. -/
def timeValid (s : State) : Bool := timeState s != timeNone

/-- ALIGN_STATE of R100 from the errors of the latest edges. -/
def alignState (s : State) (k : TickSet) (ok : List Bool) : Nat :=
  if !k.alignEn || !s.tke.timeEverValid then 0
  else if timeState s = timeHoldover then 3
  else if ok.length = 16 ∧ ok.all id then 2 else 1

/-- Fixes the length of the row that begins now (R99–R102); a setting written in the fc of the edge waits for the next.
`pe` is the partner's edge to align to, if any. -/
def alignRow (s0 : State) (pe : Option Nat) (time : Nat) : State :=
  let old := s0.tke.inForce
  let k := tickSettings (beforeRegs s0)
  let s := modTke s0 fun t => { t with timeEverValid := t.timeEverValid || timeValid s0 }
  let e := phaseError s k pe time
  let was := rget s R.TKE_ALIGN_STATE
  let stepped := s.tke.stepSeen && was != 0 && k.alignEn
  let moved := decide (k.periodUs ≠ old.periodUs ∨ k.phaseNs ≠ old.phaseNs) || (k.alignEn && !old.alignEn)
  let regrid := moved && k.alignEn && timeValid s
  let ok := if stepped || regrid then [] else (decide (e.natAbs ≤ 10) :: s.tke.errOk).take 16
  let st := if stepped || regrid then 1 else alignState s k ok
  let len : Nat := if regrid then regridLength s k pe time
    else if st = 0 ∨ moved then k.periodUs * fcUs
    else ((k.periodUs * fcUs : Nat) + slewStep k e).toNat
  let s1 := modTke s fun t => { t with
    inForce := k, rowLen := len, adjFc := (len : Int) - (k.periodUs * fcUs : Nat), regrid := regrid, errOk := ok,
    stepSeen := false }
  let s2 := rset (rsetS s1 R.TKE_ALIGN_ERR_ERR_NS e) R.TKE_ALIGN_STATE st
  if stepped then raiseEv s2 evTkeAlignStep else s2

/-! ### The tick edge (R79–R81) -/

/-- The row's snapshot is latched: the group records of the tick that ends, the navigation record, the host posts and
the live epoch. A record or post of the fc of the edge is seen in the next row (R81, R117). -/
def latchSnap (s : State) (recs : Tbl Nat) : State :=
  modTke s fun t => { t with snap :=
    { sfe := recs, sampledFc := s.now - t.rowStart, nav := s.before.navRec, posts := s.before.posts,
      epoch := rget s R.TKE_EPOCH_EPOCH } }

/-- The pattern of the row that begins: none while the TKE is not armed or the module does not command. Arming and
disarming in the fc of the edge leave the row as it would have been (R93). USED_FC of a row that runs a pattern is at
least that of its latch, and of another row 0 (DESIGN CHOICE, log entry 127; unsafe). -/
def beginPattern (s : State) : State :=
  let run := tkeArmed (beforeRegs s) && commanding s
  let fb := rbit s R.TKE_CTRL_FALLBACK_ACTIVE
  let p := if run then (if fb then s.tke.fallback else s.tke.main) else none
  let s1 := if tkeArmed s then s else rset s R.TKE_CTRL_FALLBACK_ACTIVE 0
  modTke s1 fun t => { t with
    rowArmed := run, rowFallback := run && fb,
    patTag := match p with
      | some q => q.patId % 256
      | none => 0
    todo := match p with
      | some q => rowStitches q (rowNow s)
      | none => []
    consts := match p with
      | some q => q.consts
      | none => []
    staged := Staged.empty, mirrorTodo := [], overrun := none, usedFc := if p.isSome then 64 else 0, solved := false,
    committed := false, flushed := false, disarmAt := t.disarmLast.filter fun a => a == s.now }

/-- Zero tracking at the edge: the window that has ended is judged before a CAL_SET takes effect (R162, R163). -/
def trackEdge (s : State) : State :=
  let q := rget s R.SFE_ZT_CFG_MEASURE
  let x2 := latchedInput s (rget s R.SFE_EST_IN2_CLASS 0 q) (rget s R.SFE_EST_IN2_INDEX 0 q)
  let x1 := latchedInput s (rget s R.SFE_EST_IN1_CLASS 0 q) (rget s R.SFE_EST_IN1_INDEX 0 q)
  ztJudge (ztEdge s (ztCondition s s.tke.snap.sfe x2) x1)

/-- What a command held for the edge does after it. -/
def heldApply (c : Instr) (s : State) : State :=
  match c with
  | .patternAdmission _ ecc => patternAdmission s ecc
  | .tableSetCheck _ ecc => tableSetCheck s ecc
  | .promote _ r => servePromote s r
  | .envelopeSet _ r => serveEnvelope s r
  | .forwardConfirmTimeout _ => forwardTimeout s
  | .resyncRx _ row item => resyncRx s row item
  | c => sfeApply c s

/-- The commands held for the edge act, in their order. -/
def replayHeld (s : State) : State :=
  s.tke.held.foldl (fun s c => heldApply c s) (modTke s fun t => { t with held := [] })

/-- TICK_EDGE: a row ends and the next begins. `x` holds the front end's conversions over the tick that ends; `saved`
says that the journal took the epoch of a takeover. -/
def tickEdge (s0 : State) (x : SfeSamples) (saved : Bool) : State :=
  if !s0.tke.running ∨ s0.now < s0.tke.rowStart + s0.tke.rowLen then s0
  else
    let s := boundaryNow s0
    let recs := sfeRecords s s.tke.rowStart s.now x
    let pe := partnerEdge s
    -- what the edge raises carries the row that begins (R67, R107)
    let s1 := rset64 s R.TKE_ROW_LO_ROW R.TKE_ROW_HI_ROW (rowNow s + 1)
    let s2 := modTke (pairEdge s1 saved) fun t => { t with flip := false }
    let time := moduleTime s2
    -- a standby's tables and patterns change with the rows that it shadows (R250, R251)
    let s3 := promoteEdge (if role s2 = 3 ∨ role s2 = 4 then s2 else swapPattern (flipTable s2))
    let s4 := latchSnap s3 recs
    let s5 := clsEdge (calEdge (envEdge (trackEdge s4)))
    let s6 := sfeNewTick (alignRow s5 pe time) recs x
    let s7 := rset s6 R.TKE_LOCKSTEP_MASKED 0
    replayHeld (beginPattern (modTke s7 fun t => { t with rowStart := s.now, edgeTime := time }))

/-! ### The commit point (R80, R94, R97) -/

/-- The command of a drive or switch descriptor (R174, R175, R208). -/
def descCmd (d : Desc) : OutCmd :=
  let ch := d.classWord % 128
  if d.cls = 2 then
    match d.op with
    | 1 => .drv ch (.profile (d.word 0x10 % 65536) (d.word 0x14) (d.word 0x18 % 4096))
    | 2 => .drv ch (.prop (d.word 0x10 % 4096)
        (if bitOf (d.word 0x18) 0 then none else some (d.word 0x14 % 512, bitField (d.word 0x14) 16 10)))
    | 3 => .drv ch .off
    | _ => .drv ch (.clear (bitOf d.classWord 7))
  else if d.op = 1 then .sw ch (.set (d.word 0x10 % 2048))
  else .sw ch .rearm

/-- The drive and switch descriptors held for a plane and due, in fetch order. -/
def dueOutputs (s : State) (plane : Nat → Bool) : List (Ref × Desc) :=
  (s.reqs.filter fun q => decide (q.stage = .held)).foldr insertReq [] |>.filterMap fun q =>
    match q.desc with
    | some d =>
      if (d.cls == 2 || d.cls == 3) && plane (d.classWord % 128 / 48) && due s d then some (q.ref, d) else none
    | none => none

/-- A host command as its supervisor passes it. -/
def passedOf (s : State) (x : Ref × Desc) : Passed :=
  ⟨descCmd x.2, some x.1, x.2.cls == 2 && bitOf x.2.classWord 7 && x.2.op != 4, false, rowNow s, s.now⟩

/-- The plane of a host command is armed. -/
def ownPlane (s : State) (q : Passed) : Bool := planeArmed s (OutCmd.chan q.cmd / 48)

/-- A module that does not command rejects the drive and switch descriptors it holds (R238). -/
def rejectOutputs (s : State) : State :=
  (dueOutputs s fun _ => true).foldl (fun s x =>
    completeRow s ((if x.2.cls = 2 then 0 else 12) + x.2.classWord % 128 / 8) x.1 stRejectState 0x0283 (rowHere s)) s

/-- The command set that a PRIMARY sends to its partner (R227, R230): what the pattern staged and the due host commands, each
of these once. One for an own plane that is not armed goes to the partner and waits here (DEDUCED, log entry 141;
unsafe). -/
def partnerSet (s : State) (cmds : List Passed) : List Passed :=
  cmds.filter fun q => !(q.ref.any fun r => s.xlk.sentHost.contains r)

/-- COMMIT frames to the own supervisors, and to the partner's by a PRIMARY (R230, R238). A host command that its own
supervisor cannot pass, its plane not being armed, stays held. -/
def sendCommit (s : State) (kind : FrameKind) (cmds : List Passed) : State :=
  let bid := rget s R.XLK_BID_BID
  let us := s.tke.inForce.periodUs
  let row := rowNow s
  let here := cmds.filter fun q => q.ref.isNone || ownPlane s q
  let mine := fun (p : Nat) => here.filter fun q => OutCmd.chan q.cmd / 48 == p
  let s1 := here.foldl (fun s q => match q.ref with
    | some r => takeReq s r
    | none => s) s
  let a := ppsFrame s1 0 true kind bid row us (mine 0)
  let b := ppsFrame a.1 1 true kind bid row us (mine 1)
  let s2 := if (a.2 && b.2) || kind != .commit then b.1 else fencedOut b.1
  if role s = 2 then
    let waits := (cmds.filter fun q => !ownPlane s q).filterMap (·.ref)
    let s3 := if kind = .commit then { s2 with xlk := { s2.xlk with sentHost := waits } } else s2
    xlkSend s3 3 (two row ++ [bid, us + 65536 * b2n (kind = .keep)] ++ (partnerSet s cmds).flatMap fun q => encodeCmd q.cmd) none
  else s2

/-- An overrun row at its commit point: no commit, its mirrored state is still sent, CONSEC counts, and the third in
succession demotes or stops (R94, R97). -/
def overrunRow (s : State) (cause : Nat) : State :=
  let s0 := endRow s cause
  let s1 := s0.tke.mirrorTodo.foldl (fun s st => mirrorStitch st s) s0
  let n := rget s R.TKE_OVERRUN_CONSEC + 1
  let s2 := rset (rinc (rset s1 R.TKE_OVERRUN_LAST_CAUSE cause) R.TKE_OVERRUN_TOTAL) R.TKE_OVERRUN_CONSEC n
  let s3 := if n < 3 then s2
    else if s.tke.rowFallback then
      raiseEv (promoteRefuse (rset (rset s2 R.TKE_CTRL_STOPPED 1) R.TKE_CTRL_ARMED 0)) evTkeStopped
    else raiseEv (promoteRefuse (rset (rset s2 R.TKE_CTRL_FALLBACK_ACTIVE 1) R.TKE_OVERRUN_CONSEC 0)) evTkeDemoted
  sendCommit s3 .keep []

/-- A finished row commits. -/
def commitRow (s : State) : State :=
  let s1 := rset s R.TKE_OVERRUN_CONSEC 0
  let used := min s.tke.usedFc (2 ^ 24 - 1)
  let s2 := rolPeak s1 R.TKE_PEAK_FC used
  let own : List Passed := s2.tke.staged.cmds.map fun c => ⟨c, none, false, true, rowNow s, s.now⟩
  let host := (dueOutputs s2 fun p => planeArmed s2 p || role s == 2).map (passedOf s2)
  canCommit (commitTickWorld (sendCommit s2 .commit (own ++ host)))

/-- The running row has been disarmed in an earlier fc. -/
def rowDisarmed (s : State) : Bool := match s.tke.disarmAt with
  | some a => decide (a < s.now)
  | none => false

/-- The row's commit or overrun at its commit point. -/
def commitOrOverrun (s : State) : State :=
  match s.tke.overrun with
  | some c => overrunRow s c
  | none => if s.tke.todo.isEmpty then commitRow s else overrunRow s 1

/-- The currents of the drive channels measured at the commit point, in mA. -/
def setAmps (s : State) (amps : List Nat) : State :=
  { s with
    drv := (List.range 96).foldl (fun t c => match amps[c]? with
      | some ma => let k := tblGetD t c DrvCh.idle; if k.ma = ma then t else tblSet t c { k with ma := ma }
      | none => t) s.drv }

/-- The currents of the switch channels measured at the commit point, in mA. -/
def setSwAmps (s : State) (amps : List Nat) : State :=
  { s with
    sw := (List.range 96).foldl (fun t c => match amps[c]? with
      | some ma => let k := tblGetD t c SwCh.idle; if k.ma = ma then t else tblSet t c { k with ma := ma }
      | none => t) s.sw }

/-- What the row-record entry of a drive channel holds as of the commit point (R199): current, PHASE, FAULT and LATCHED.
PHASE is that before the row's commands act (DESIGN CHOICE, log entry 142; unsafe). -/
def commitEntries (s : State) : Tbl Nat :=
  (List.range 96).map fun c => (c, min (getDrv s c).ma 16383 + 2 ^ 14 * phaseShown s c +
    2 ^ 18 * dget s R.DBK_CH_STAT_FAULT c + 2 ^ 22 * dget s R.DBK_CH_STAT_LATCHED c)

/-- COMMIT_POINT, to which the drive banks align their time base (R168). A row disarmed in this very fc still commits (R98; DESIGN CHOICE, log entry 125; unsafe). -/
def commitPoint (s0 : State) (amps : List Nat) : State :=
  if !s0.tke.running ∨ s0.tke.committed ∨ s0.now < commitAt s0 then s0
  else
    let s := setAmps ((List.range 2).foldl (fun s p => setPps s p { getPps s p with gridAt := s.now }) s0) amps
    let s1 := modTke s fun t => { t with committed := true, commitFc := s.now, entries := commitEntries s }
    let s2 := if commanding s1 then s1 else rejectOutputs s1
    if !s2.tke.rowArmed || rowDisarmed s2 || !commanding s2 then s2
    else
      let s3 := commitOrOverrun s2
      if s3.tke.disarmAt.isSome then rset s3 R.TKE_OVERRUN_CONSEC 0 else s3

/-! ### The till flush (R83, R105, R199, R223) -/

/-- Row-record entry of a drive channel. -/
def drvEntry (s : State) (ch : Nat) : Nat :=
  let c := getDrv s ch
  tblGetD s.tke.entries ch 0 + 2 ^ 17 * b2n (c.recForced || drvForced s ch) +
    2 ^ 23 * dget s R.DBK_CH_MOVE_NO_MOVE ch + 2 ^ 24 * dget s R.DBK_CH_MOVE_MOVE_TIME ch +
    2 ^ 37 * b2n c.recMove + 2 ^ 38 * b2n c.recFloor + 2 ^ 39 * b2n c.recVbst + 2 ^ 40 * b2n c.recClamp +
    2 ^ 48 * (dget s R.DBK_CH_MOVE_SHOTS ch % 65536)

/-- Row-record entry of a switch channel. -/
def swEntry (s : State) (ch : Nat) : Nat :=
  let c := getSw s ch
  let bit := fun (f : Fld) => dget s f ch
  min (c.ma / 10) 65535 + 2 ^ 16 * swState s ch + 2 ^ 18 * bit R.SBK_CH_STAT_TRIPPED + 2 ^ 19 * bit R.SBK_CH_STAT_THERM_LATCH +
    2 ^ 20 * bit R.SBK_CH_STAT_LOCKED + 2 ^ 21 * bit R.SBK_CH_STAT_UV_OFF + 2 ^ 22 * bit R.SBK_CH_STAT_SHED +
    2 ^ 23 * bit R.SBK_CH_STAT_OPEN_LOAD + 2 ^ 24 * b2n (c.recLimit || limitHeld s ch s.now) +
    2 ^ 25 * b2n c.recRestart + 2 ^ 26 * min c.duty 1000 + 2 ^ 36 * thetaCode (swTheta s ch)

/-- The entries of all row records that are published: of the banks under 8 × producer + channel, then the eight words of
the navigation record in NAV's (R199, R223, R269). -/
def recordEntries (s : State) : Tbl Nat :=
  ((List.range 96).map fun c => (c, drvEntry s c)) ++ ((List.range 96).map fun c => (96 + c, swEntry s c)) ++
    (List.range 8).map fun k => (192 + k, (navEntries s.tke.snap.nav).getD k 0)

/-- What was to be told since the previous record has been told; the entries of an overrun row are not published, and what
they would have told stays for the next record (DESIGN CHOICE, log entry 142; unsafe). -/
def clearRecords (s : State) : State :=
  { s with
    drv := s.drv.map fun p => (p.1, { p.2 with recForced := false, recMove := false, recFloor := false, recVbst := false }),
    sw := s.sw.map fun p => (p.1, { p.2 with recLimit := limitHeld s p.1 s.now, recRestart := false }) }

/-- Place of a completion in its row record: by the row in which it took effect, then in fetch order (R177). -/
def rowKey (s : State) (r : Ref) : Nat :=
  match findReq s r with
  | some q =>
    match q.stage with
    | .posted c => (c.row.getD 0) * 2 ^ 32 + q.order
    | _ => 0
  | none => 0

def insertRef (s : State) (r : Ref) : List Ref → List Ref
  | [] => [r]
  | p :: t => if rowKey s r < rowKey s p then r :: p :: t else p :: insertRef s r t

/-- The 48 producers post their row records, each with the completions that waited for it. -/
def postRecords (s : State) : State :=
  let recs : List TillRec := (List.range 48).map fun p =>
    ⟨p, true, (tblGetD s.till.rowDone p []).foldr (insertRef s) []⟩
  tillMask { s with till := { s.till with posted := s.till.posted ++ recs, rowDone := [], flushLeft := 48 } }

/-- The 32 bytes of the row summary (R105). -/
def summaryBytes (s : State) (ph : Nat) : List Byte :=
  let t := s.tke
  let ovf := t.overrun.isSome
  let flags := b2n ovf + 2 * t.overrun.getD 0 + 16 * b2n t.rowFallback + 32 * b2n t.solved + 64 * b2n t.flip +
    128 * rget s R.TKE_ALIGN_STATE + 512 * t.snapHalf + 1024 * b2n t.regrid + 32768 * ph
  leBytes 8 (rowNow s) ++ leBytes 8 t.edgeTime ++ leBytes 4 t.snap.epoch ++ leBytes 3 (min t.usedFc (2 ^ 24 - 1)) ++
    leBytes 1 t.patTag ++ leBytes 2 (ofSignedSat 16 t.adjFc) ++ leBytes 2 flags ++ leBytes 4 0

/-- The till writes the row summary, or counts it as dropped. -/
def rowSummary (s : State) : State :=
  if !rbit s R.TKE_RREC_CFG_ENABLE then s
  else if queueRoom s queueRrec 0 0 then queuePut s queueRrec 0 0 32 (summaryBytes s)
  else rinc s R.TKE_RREC_CFG_DROPPED

/-- The row's extract for the map engine (R284). -/
def rowExtract (s : State) : Extract :=
  let q := fun j => (qualValue s j).getD ⟨0, true, 0⟩
  let n := s.tke.snap.nav
  let dig := maskOf ((List.range 64).map fun g =>
    decide (rval s R.SFE_GIN_CFG_MODE 0 g = 5) && entryValid (snapEntry s (80 + g)) && bitOf (snapEntry s (80 + g)) 32)
  { row := rowNow s, edge := s.tke.edgeTime, q00 := (q 0).value, q00Bad := (q 0).invalid, q08 := (q 8).value,
    q08Bad := (q 8).invalid, lat := n.lat, lon := n.lon, heading := n.heading, roll := n.roll, pitch := n.pitch,
    posValid := n.posValid, headingValid := n.headingValid, slopeValid := n.slopeValid, dig := dig }

/-- The row's workspace and records are exposed in the half of the snapshot area that is not exposed (R83), the first in
half 0 (DESIGN CHOICE, log entry 46; unsafe). -/
def exposeSnap (s : State) : State :=
  modTke { s with rowEntries := recordEntries s } fun t => { t with exposed := t.work, snapHalf := t.snapNext, snapNext := 1 - t.snapNext }

/-- TILL_FLUSH, 256 fc after the commit point; `amps` are the switch channels' currents at it. -/
def tillFlush (s0 : State) (amps : List Nat) : State :=
  if !s0.tke.committed ∨ s0.tke.flushed ∨ s0.now < commitAt s0 + 256 then s0
  else
    let s := setSwAmps s0 amps
    let ovf := s.tke.overrun.isSome
    let digest := stagedDigest s
    let s1 := if ovf then s else clearRecords (exposeSnap s)
    let s2 := postRecords (modTke s1 fun t => { t with flushed := true })
    let s3 := hbSend (rowSummary s2) digest
    if ovf || !rbit s R.STO_MAP_CTRL_MAP_EN then s3 else pushExtract s3 (rowExtract s)

/-! ### Arming (R93) -/

/-- COMMIT_OFFSET meets R77. -/
def offsetOk (s : State) : Bool :=
  let o := rget s R.TKE_COMMIT_OFFSET_OFFSET_US
  decide (o = 0 ∨ 100 ≤ o ∧ o + 100 ≤ rget s R.TKE_TICK_PERIOD_PERIOD_US)

/-- The period lies in a pattern's range. -/
def periodOk (s : State) (p : Pattern) : Bool :=
  let t := rget s R.TKE_TICK_PERIOD_PERIOD_US
  decide (p.periodMin ≤ t ∧ t ≤ p.periodMax)

/-- The pattern fits the row budget now. -/
def costOk (s : State) (p : Pattern) : Bool := decide (patternCost (accessCost s) p.stitches ≤ budgetOf (windowNow s))

/-- The check of R88 on arming: 4 for the period, 7 for the budget, else 0. -/
def recheck (s : State) (p : Pattern) : Nat := if !periodOk s p then 4 else if !costOk s p then 7 else 0

/-- ARM_ERR: the code of the first failing condition in the order of R93, the main pattern's check before the fallback's
(DESIGN CHOICE, log entry 127; unsafe), or 0. -/
def armError (s : State) : Nat :=
  match s.tke.main, s.tke.fallback with
  | none, _ => 1
  | some _, none => 2
  | some m, some f =>
    if rget s R.TKE_TABLE_STATE_LIVE_BUF = 3 then 3
    else if recheck s m ≠ 0 then recheck s m
    else if recheck s f ≠ 0 then recheck s f
    else if !offsetOk s then 5
    else if !holdCondition s 0 || !holdCondition s 1 then 6 else 0

/-- A pattern with the cost that the check on arming has found (R89), which TKE_COST_MAIN and TKE_COST_FALLBACK show from
then on (DESIGN CHOICE, log entry 127; unsafe). -/
def recosted (s : State) (p : Pattern) : Pattern := { p with cost := patternCost (accessCost s) p.stitches }

/-- Arming: the solver, the loops and the estimators start afresh (R109, R122, R133, R157). -/
def armFresh (s : State) : State :=
  { s with sps := { s.sps with pFromFallback := true, bands := none, loops := [] }, sfe := { s.sfe with est := [] } }

/-- The role as the TKE arms: a module of a pair listens in STARTING with the bid of its stored epoch (R235, R237). -/
def armRole (s : State) (saved : Bool) : State :=
  if pairEn s then
    let s1 := rset (rset s R.XLK_ROLE_ROLE 1) R.XLK_BID_BID (s.xlk.savedEpoch * 256 + rankOf s)
    { s1 with xlk := { s1.xlk with startRow := rowNow s, lastHb := none, swDisarmed := false } }
  else becomeCommander s 0 saved

/-- TKE_ARM; `saved` says that the journal took the new epoch. -/
def armTke (s : State) (saved : Bool) : State :=
  if tkeArmed s then s
  else
    let e := armError s
    let s1 := rset s R.TKE_CTRL_ARM_ERR e
    if e ≠ 0 then rset s1 R.TKE_CTRL_ARM 0
    else
      let s1 := modTke s1 fun t => { t with main := t.main.map (recosted s), fallback := t.fallback.map (recosted s) }
      let s2 := rset (rset (rset s1 R.TKE_CTRL_ARM 1) R.TKE_CTRL_ARMED 1) R.TKE_CTRL_STOPPED 0
      armRole (armFresh (rset (rset s2 R.TKE_CTRL_FALLBACK_ACTIVE 0) R.TKE_OVERRUN_CONSEC 0)) saved

/-- TKE_DISARM: commits stop from the next commit point (R93, R98); one due in this fc clears CONSEC after it. -/
def disarmTke (s : State) : State :=
  let s1 := rset (rset s R.TKE_CTRL_ARM 0) R.TKE_CTRL_ARMED 0
  let s2 := if s.tke.rowArmed && !s.tke.committed && decide (commitAt s ≤ s.now) then s1 else rset s1 R.TKE_OVERRUN_CONSEC 0
  { s2 with
    xlk := { s2.xlk with swDisarmed := true },
    tke := { s2.tke with
      disarmAt := if s.tke.rowArmed then some (s.tke.disarmAt.getD s.now) else s.tke.disarmAt, disarmLast := some s.now } }

/-! ### Commands -/

/-- TICK_EDGE. -/
def execTickEdge (t : Fc) (x : SfeSamples) (saved : Bool) (s : State) : Out := atFabric t (fun s => tickEdge s x saved) s

/-- COMMIT_POINT. -/
def execCommitPoint (c : CommitIn) (s : State) : Out := atFabric c.t (fun s => commitPoint s c.amps) s

/-- TILL_FLUSH. -/
def execTillFlush (t : Fc) (amps : List Nat) (s : State) : Out := atFabric t (fun s => tillFlush s amps) s

/-- TKE_ARM. -/
def execTkeArm (t : Fc) (saved : Bool) (s : State) : Out := atFabric t (fun s => armTke s saved) s

/-- TKE_DISARM. -/
def execTkeDisarm (t : Fc) (s : State) : Out := atFabric t disarmTke s

end Sys2Proof.Machine
end

