-- ==== Sys2Proof/Machine/Resets.lean ====
section
/-! DEFINITION. The reset kinds (R419–R421, R430): the completions written before a reset, what each kind
reinitialises and wipes, and the cause it records. Plane supervisors and output banks are outside every kind (R249). -/

namespace Sys2Proof.Machine

/-- Kinds of AOC_RESET_CAUSE.KIND. -/
def kindPowerOn : Nat := 0
def kindFull : Nat := 1
def kindFabric : Nat := 2
def kindWarm : Nat := 3

/-! ### The completions written before a reset (R421) -/

/-- A submitted descriptor not yet fetched takes its completion slot and completes ABORTED (R71, R59). -/
def abortWaiting (s : State) (q : Req) : State :=
  let r := q.ref
  if q.stage = .waiting ∧ rget s R.CQ_FREE_FREE 0 (ringCq s q.ring) ≠ 0 then
    complete (fetchTake s q.ring) r stAborted 0
      (if classIsRow (rget s R.RING_CFG_CLASS 0 q.ring) then some ((q.aborted.map (·.row)).getD (rowHere s)) else none)
  else s

/-- A descriptor still being worked on: a CAN frame whose attempt the reset cuts short (R348). -/
def abortTaken (s : State) (q : Req) : State :=
  if q.stage = .taken ∨ q.stage = .held then complete s q.ref stAborted 0 else s

/-- Row-time completions that wait for their row record are posted without it (DEDUCED, log entry 28; unsafe). -/
def postRowDone (s : State) : State :=
  let recs : List TillRec := (s.till.rowDone.filter fun p => !p.2.isEmpty).map fun p => ⟨p.1, false, p.2⟩
  { s with till := { s.till with posted := s.till.posted ++ recs, rowDone := [] } }

/-- The completion a place of the output queue carries. -/
def OutEntry.ref? : OutEntry → Option Ref
  | .completion r => some r
  | .plain _ => none

/-- The till accepts every posted record and writes every completion. -/
def drainTill (s : State) : State :=
  let s1 := postRowDone s
  let s2 := s1.till.posted.foldl tillTake s1
  let refs := s2.till.outQ.filterMap OutEntry.ref? ++ s2.till.accepted.flatMap fun x => x.2.compls
  let s3 := refs.foldl writeCompl s2
  tillMask (rset { s3 with till := { s3.till with posted := [], accepted := [], outQ := [], flushLeft := 0 } }
    R.TIL_QUEUE_FREE 4096)

/-- Every ring is disabled, and the completions that result are written (R421). -/
def drainRings (s : State) : State :=
  let s1 := (List.range 256).foldl ringDisable s
  let s2 := s1.reqs.foldl abortWaiting s1
  drainTill (s2.reqs.foldl abortTaken s2)

/-! ### What a reset reinitialises -/

/-- Fields of UPD that say what the store holds: bank, slots, counters, result. -/
def updKept : List Fld :=
  [R.UPD_STATUS_ACTIVE_BANK, R.UPD_STATUS_TRIAL, R.UPD_STATUS_PENDING, R.UPD_STATUS_SLOT_A, R.UPD_STATUS_SLOT_B,
   R.UPD_STATUS_LAST_RESULT, R.UPD_VERSION_ACTIVE_VERSION, R.UPD_VERSION_PREV_VERSION, R.UPD_SVN_VENDOR_SVN,
   R.UPD_SVN_INT_SVN, R.UPD_PPS_PPS_A, R.UPD_PPS_PPS_B]

/-- Fields of HLM that the AGEING section of the journal holds (R449, R456, R457, R460). -/
def hlmKept : List Fld :=
  [R.HLM_REPAIR_TM_SPARES_USED, R.HLM_REPAIR_DRAM_RETIRED, R.HLM_VCORE_VCORE_MV, R.HLM_VCORE_FLOOR_MV,
   R.HLM_LIFE_LIFE_PERMILLE, R.HLM_LIFE_OP_HOURS, R.HLM_RO_BASE_PS]

/-- The operating time up to now is counted, and the count stands still. -/
def stopClock (s : State) : State :=
  match s.hlm.runFrom with
  | some a => { s with hlm := { s.hlm with opFc := s.hlm.opFc + (s.now - a), runFrom := none } }
  | none => s

/-- The registers of the FAB-domain blocks other than the output banks and the supervisors. -/
def resetFabRegs (s : State) : State :=
  let s1 := resetInst s .arb fun i => i == 0 || (5 ≤ i && i ≤ 20)
  let s2 := [Blk.rng, .cqr, .til, .tke, .sps, .fnl, .sfe, .fle, .pnl, .sto, .jrn].foldl (fun s b => resetBlock s b) s1
  resetBlock (resetBlock s2 .upd updKept) .hlm hlmKept

/-- HLM after a reset: the journal keeps its records and totals. -/
def Hlm.afterReset (h : Hlm) : Hlm :=
  { Hlm.reset with
    moved := h.moved, spares := h.spares, retired := h.retired, margin := h.margin, marginSeq := h.marginSeq,
    monitor := h.monitor, monitorSeq := h.monitorSeq, hsb := h.hsb, cap := h.cap, told := h.told, opFc := h.opFc,
    halves := h.halves, lifeTold := h.lifeTold, exhausted := h.exhausted }

/-- The FENCE_ACKs that wait at a reset are sent all the same: their path does not need the computing side (R231). -/
def sendAcks (x : Xlk) : Xlk :=
  let acks := x.out.filter fun f => f.typ == 4
  { x with out := x.out.filter (fun f => f.typ != 4), tx := acks.foldl (fun t f => tblSet t 4 f) x.tx }

/-- The fabric part of every kind: the FAB-domain blocks, tick memory, the rings and the till. -/
def resetFabric (s : State) : State :=
  let s1 := stopClock (resetFabRegs s)
  { s1 with
    fabric := false
    arbs := s1.arbs.filter fun p => 1 ≤ p.1 && p.1 ≤ 4 || p.1 == 21
    reqs := [], till := Till.reset, cqIrq := [], tke := Tke.reset, sps := Sps.reset, sfe := Sfe.reset, rowEntries := []
    pnl := [], xlk := sendAcks s1.xlk
    log := { s1.log with stamps := [], suppressed := 0 }
    fle := { Fle.reset with t := s1.fle.t, c := s1.fle.c, store := s1.fle.store, stored := s1.fle.stored }
    sto := { Sto.reset with
      map := s1.sto.map, locations := s1.sto.locations, store := s1.sto.store, soft := s1.sto.soft, pages := s1.sto.pages,
      provisioned := s1.sto.provisioned, activations := s1.sto.activations, castOns := s1.sto.castOns }
    upd := { s1.upd with
      copying := none, resetAfter := none,
      slots := s1.upd.slots.map fun p => (p.1, { p.2 with closing := none }),
      applying := s1.upd.applying.map fun p => (p.1, (ghostRef, p.2.2)) }
    hlm := Hlm.afterReset s1.hlm
    aoc := { s1.aoc with
      ignBack := false, entry := none, drained := false, suspendAt := none, ready := false,
      warmWake := false, wakes := [], wdogAt := s1.now, power := 0 } }

/-- The MAC addresses take their values from the KSM's provisioning record (R364, R426). -/
def loadMacs (s : State) : State :=
  (List.range 6).foldl (fun s p =>
    let m := s.ksm.macs.getD p []
    let b := fun k => m.getD k 0 % 256
    rset (rset s R.ETH_MAC_LO_MAC (b 0 + 256 * b 1 + 65536 * b 2 + 2 ^ 24 * b 3) p) R.ETH_MAC_HI_MAC (b 4 + 256 * b 5) p) s

/-- The nonce of life-cycle tokens is renewed (R427). -/
def renewNonce (s : State) : State :=
  (List.range 4).foldl (fun s w => withFree s fun v s => rset s R.KSM_LC_NONCE_NONCE v 0 w) s

/-- NAV, CAN, ETH and SPE, CAM, ISP and VXA, whose firmware is the PERIPH component (R433, R437). -/
def resetPeriph (s : State) : State :=
  let s1 := [Blk.nav, .can, .eth, .cam, .isp, .vxa].foldl (fun s b => resetBlock s b) s
  loadMacs { s1 with
    nav := { Nav.reset with past := s1.nav.past, saved := s1.nav.saved, savedAt := s1.nav.savedAt }
    can := [], eth := [], vis := Vision.reset }

/-- What a power-on and a full reset reinitialise beside the fabric (R419). -/
def resetOuter (s : State) : State :=
  let s1 := resetInst (resetPeriph s) .arb fun i => 1 ≤ i && i ≤ 4 || i == 21
  let s2 := [Blk.hlk, .msix, .xlk, .mem].foldl (fun s b => resetBlock s b) s1
  renewNonce { s2 with
    arbs := s2.arbs.filter fun p => !(1 ≤ p.1 && p.1 ≤ 4 || p.1 == 21)
    xlk := { Xlk.reset with savedEpoch := s2.xlk.savedEpoch, tx := s2.xlk.tx.filter fun p => p.1 == 4 } }

/-- DRAM is wiped: memory reads zero, and with it go the hybrid clock and the delta store (R376, R382, R430). -/
def wipeDram (s : State) : State := { s with mem := [], fle := { s.fle with t := 0, c := 0, store := [], stored := 0 } }

/-- The AON domain is lost: AOC, RTC and always-on SRAM (R419, R430); event numbers begin anew (R450). -/
def resetAon (s : State) : State :=
  let s1 := resetBlock s .aoc
  { s1 with
    aoc := Aoc.reset, rtcOff := -(10 * (s1.now : Int)), nav := { s1.nav with saved := none },
    log := { s1.log with seq := 0 } }

/-- First STAGE of the cast-on after a kind (R414, R419). -/
def firstStage (kind : Nat) : Nat := if kind ≤ 1 then 1 else 8

/-- During a trial, a reset of SOURCE 0, 2 or 3 makes the next cast-on boot the previous bank (R439). -/
def noteTrial (s : State) (source : Nat) : State :=
  if rbit s R.UPD_STATUS_TRIAL ∧ (source = 0 ∨ source = 2 ∨ source = 3) then
    { s with upd := { s.upd with revert := true } }
  else s

/-- Records the cause and waits for the cast-on that follows. -/
def noteCause (s : State) (kind source : Nat) : State :=
  let s1 := rolEvent (rolEvent s R.AOC_RESET_CAUSE_KIND kind) R.AOC_RESET_CAUSE_SOURCE source
  let s2 := rset (rset s1 R.AOC_PWR_STATE_BINDING 0) R.AOC_PWR_STATE_BIND_STEP 0
  let s3 := rset s2 R.AOC_CASTON_STAGE (firstStage kind)
  { s3 with aoc := { s3.aoc with castFrom := some (s3.now, firstStage kind) } }

/-- Sources whose resets write the outstanding descriptors' completions first (R421). -/
def sourceDrains (source : Nat) : Bool := [1, 2, 6, 7].contains source

/-- A reset of a kind and SOURCE (R420); `wipe` adds the DRAM wipe to a warm one (R423). -/
def resetTo (s : State) (kind source : Nat) (wipe : Bool) : State :=
  let s0 := if sourceDrains source then drainRings (confirmFirst s) else abandonRings s fun _ => true
  let s1 := resetFabric (noteTrial (if kind ≤ 1 ∨ wipe then s0 else settleDram s0) source)
  let s2 := if kind ≤ 1 then resetOuter s1 else s1
  let s3 := if kind = 0 then resetAon s2 else s2
  noteCause (if kind ≤ 1 ∨ wipe then wipeDram s3 else s3) kind source

end Sys2Proof.Machine
end

