-- ==== Sys2Proof/Machine/Lifecycle.lean ====
section
/-! DEFINITION. Life-cycle transitions with their wipes (R425–R431) and the activation reset (R436, R437). The verdict
on a token's signature arrives with the command. -/

namespace Sys2Proof.Machine

/-! ### Transitions -/

/-- Kinds of signer of R428. -/
inductive Signer where
  | none
  | vendor
  | integrator
  | either
  deriving DecidableEq, Repr

/-- The permitted transitions and their token's signer (R428). -/
def transition : Nat → Nat → Option Signer
  | 0, 1 => some .vendor
  | 1, 2 => some .integrator
  | 2, 3 => some .integrator
  | 3, 2 => some .none
  | 2, 1 => some .integrator
  | 0, 4 => some .vendor
  | 1, 4 => some .either
  | 2, 4 => some .either
  | 3, 4 => some .either
  | _, _ => none

/-- The transition exists and, to PROVISIONED, a member certificate and a market root are held. -/
def transitionOk (s : State) (dst : Nat) : Bool :=
  (transition (lcState s) dst).isSome && (dst != 1 || (s.ksm.memberCert.isSome && s.ksm.root))

/-- The token's signer is of the kind required, with its key slot filled. -/
def signerOk (s : State) (k : Signer) (signer : Nat) : Bool :=
  let int := decide (1 ≤ signer ∧ signer ≤ 4) && (tblGet? s.ksm.intKeys signer).isSome
  match k with
  | .none => true
  | .vendor => signer == 0
  | .integrator => int
  | .either => signer == 0 || int

/-- Little-endian word of a byte list. -/
def tokenWord (b : List Nat) (o : Nat) : Nat :=
  b.getD o 0 % 256 + 256 * (b.getD (o + 1) 0 % 256) + 65536 * (b.getD (o + 2) 0 % 256) + 2 ^ 24 * (b.getD (o + 3) 0 % 256)

/-- The token names this transition and the nonce (R427); `sigOk` says that its signature verifies. -/
def tokenOk (s : State) (dst : Nat) (token : List Nat) (sigOk : Bool) : Bool :=
  match transition (lcState s) dst with
  | some .none => true
  | some k =>
    sigOk && signerOk s k (token.getD 0 0) && token.getD 1 0 == lcState s && token.getD 2 0 == dst &&
      (List.range 4).all fun w => tokenWord token (8 + 4 * w) == rget s R.KSM_LC_NONCE_NONCE 0 w
  | none => false

/-! ### Wipes (R431) -/

/-- Crypto-erase of the PAIR, EVENTS, MAP_INDEX and SOFTWARE sections; COUNTERS and AGEING stay (DEDUCED, log entry 29;
unsafe). -/
def eraseJournal (s : State) : State :=
  let s1 := rset s R.JRN_STAT_EV_HEAD 0
  { s1 with
    xlk := { s1.xlk with savedEpoch := 0 }
    log := { s1.log with events := [], written := 0, copied := 0, losing := false }
    sto := { s1.sto with map := [], soft := [] } }

/-- A staging slot is crypto-erased; a BOUND one loses its activation (R441). -/
def eraseStaging (s : State) (k : Nat) : State :=
  if slotState s k = 3 then
    raiseEv (eraseSlot (rset (modUpd s fun u => { u with copying := none, resetAfter := none }) R.UPD_STATUS_PENDING 0) k)
      evUpdCancelled
  else eraseSlot s k

/-- STAGE_A and STAGE_B. An ACTIVATE being copied ends with the reset that follows. -/
def eraseStages (s : State) : State := eraseStaging (eraseStaging s 0) 1

/-- JOVF, MAP, LOG and APP. -/
def eraseParts (s : State) : State :=
  { s with
    log := { s.log with jovf := [] }
    sto := { s.sto with map := [], locations := 0, store := s.sto.store.filter fun p => decide (p.1 / 2 ^ 40 < 3) } }

/-- The always-on SRAM is wiped; the boot seal goes with every transition (R414). -/
def wipeSram (s : State) : State := { s with nav := { s.nav with saved := none } }

/-- The wipes of a transition, but for DRAM's. -/
def lcWipe (s : State) (from_ dst : Nat) : State :=
  if dst = 4 then
    let s1 := modKsm (eraseParts (eraseStages (eraseJournal (wipeSram s)))) fun k => { k with
      memberCert := none, root := false, rootMarket := 0, intKeys := [] }
    rset (rset (rset (rset s1 R.KSM_KEYS_DEVICE_KEY 0) R.KSM_KEYS_MEMBER_CERT 0) R.KSM_KEYS_ROOT 0) R.KSM_KEYS_INT_SLOTS 0
  else if from_ = 0 then
    let s1 := eraseParts (eraseStages (eraseJournal (wipeSram s)))
    { s1 with sto := { s1.sto with provisioned := rtcNow s } }
  else if dst = 1 then
    let s1 := eraseParts (eraseStages (eraseJournal (wipeSram s)))
    rset (modKsm s1 fun k => { k with memberCert := none }) R.KSM_KEYS_MEMBER_CERT 0
  else if dst = 3 then rset s R.KSM_LC_SEALED 1
  else if from_ = 3 then rset s R.KSM_LC_SEALED 0
  else eraseStages s

/-- A transition is made: wipes, state, a new nonce, no boot seal. -/
def lcMake (s : State) (from_ dst : Nat) : State :=
  let s1 := modKsm (lcWipe s from_ dst) fun k => { k with unfinished := none }
  let s2 := renewNonce (rinc (rset s1 R.KSM_LC_STATE dst) R.KSM_LC_TRANSITIONS)
  raiseEv { s2 with aoc := { s2.aoc with bootSeal := none } } evUpdLcDone 0 (from_ + 256 * dst)

/-- LC_CHANGE. `cut` says that power is lost during the wipes: the state stays, and the next cast-on finishes. -/
def lcChange (s : State) (r : Ref) (d : Desc) (token : List Nat) (sigOk cut : Bool) : State :=
  let dst := d.classWord % 8
  let st := lcState s
  if planeArmed s 0 ∨ planeArmed s 1 then complete s r stRejectState 0x0290
  else if !transitionOk s dst then complete s r stRejectState 0x0291
  else if !tokenOk s dst token (sigOk && d.quad 0x10 != 0) then complete s r stRejectAuth 0x0490
  else
    let s1 := disarmTke s
    if cut then modKsm s1 fun k => { k with unfinished := some (st, dst) }
    else resetTo (drainTill (complete (lcMake s1 st dst) r stDone)) kindFull 6 false

/-! ### Activation (R436, R437) -/

/-- IMAGE_VERSION of the active bank and of the other one. -/
def setVersions (s : State) : State :=
  let v := fun k => match tblGet? s.upd.banks k with
    | some i => i.version
    | none => 0
  rset (rset s R.UPD_VERSION_ACTIVE_VERSION (v (rget s R.UPD_STATUS_ACTIVE_BANK))) R.UPD_VERSION_PREV_VERSION (v (otherBank s))

/-- The copied bank becomes active: its slot is EMPTY and the trial begins. -/
def takeBank (s : State) (k : Nat) : State :=
  let s1 := modUpd (rset s R.UPD_STATUS_ACTIVE_BANK (otherBank s)) fun u => { u with
    slots := tblErase u.slots k, copying := none, resetAfter := none, fresh := true, revert := false }
  setVersions (setMissing (setSlotState (rset (rset s1 R.UPD_STATUS_TRIAL 1) R.UPD_STATUS_LAST_RESULT 1) k 0) k 0)

/-- Blocks whose firmware an image replaces are reinitialised, the KSM among them: its nonce is renewed (R427, R433). -/
def replacePeriph (s : State) (i : Image) : State := if i.components.contains 3 then renewNonce (resetPeriph s) else s

/-- ACTIVATION_RESET, at the till flush of a row after the copy completed: the descriptor completes DONE first. -/
def activationReset (s : State) : State :=
  match s.upd.copying with
  | some (r, k) =>
    if !activationDue s then s
    else
      let i := tblGetD s.upd.banks (otherBank s) Image.delivered
      let s1 := takeBank (drainTill (complete (noteAbortNow s r) r stDone)) k
      let s2 := replacePeriph (resetTo s1 kindWarm 7 false) i
      rset { s2 with aoc := { s2.aoc with castFrom := some (s2.now, 3) } } R.AOC_CASTON_STAGE 3
  | none => s

/-! ### Commands -/

/-- LC_CHANGE. -/
def execLcChange (t : Fc) (r : Ref) (token : List Nat) (sigOk cut : Bool) (s : State) : Out :=
  atFabric t (fun s => withDesc r 0xB 0x80 (fun d s => lcChange s r d token sigOk cut) s) s

/-- ACTIVATION_RESET. -/
def execActivationReset (t : Fc) (s : State) : Out := atFabric t activationReset s

end Sys2Proof.Machine
end

