-- ==== Sys2Proof/Machine/Power.lean ====
section
/-! DEFINITION. Power states, cast-on and bind-off (R407–R424): the supply inputs, the choice of a state, entry and
wake, the start-up sequence, controlled shutdown, resets by software and watchdog. -/

namespace Sys2Proof.Machine

def modAoc (s : State) (f : Aoc → Aoc) : State := { s with aoc := f s.aoc }

/-- Codes of R409. -/
def pwRun : Nat := 0
def pwTrim : Nat := 1
def pwPark : Nat := 2
def pwDeep : Nat := 3
def pwOff : Nat := 4

/-- Software runs: RUN or TRIM, with the fabric initialised. -/
def running (s : State) : Bool := s.fabric && decide (s.aoc.power ≤ 1)

/-- The tolerable wake latency in µs. -/
def tolerance (s : State) : Nat := rget s R.AOC_WAKE_TOLERANCE_US

/-- The deepest of PARK, DEEP and OFF that the tolerance allows (R409, R411). -/
def deepest (s : State) : Option Nat :=
  if 8000000 ≤ tolerance s then some pwOff
  else if 3500000 ≤ tolerance s then some pwDeep
  else if 180000 ≤ tolerance s then some pwPark
  else none

def binding (s : State) : Bool := rbit s R.AOC_PWR_STATE_BINDING
def bindStep (s : State) : Nat := rget s R.AOC_PWR_STATE_BIND_STEP

/-! ### Wake (R412) -/

/-- The fields of AOC_WAKE_CAUSE by source: IGN, RTC, CAN0, CAN1, ETH, XLK, LOGIC. -/
def wakeFields : List Fld :=
  [R.AOC_WAKE_CAUSE_IGN, R.AOC_WAKE_CAUSE_RTC, R.AOC_WAKE_CAUSE_CAN0, R.AOC_WAKE_CAUSE_CAN1, R.AOC_WAKE_CAUSE_ETH,
   R.AOC_WAKE_CAUSE_XLK, R.AOC_WAKE_CAUSE_LOGIC]

/-- Records the causes of one wake. -/
def noteWake (s : State) (mask : Nat) : State :=
  (List.range 7).foldl (fun s k => rolEvent s (wakeFields.getD k R.AOC_WAKE_CAUSE_IGN) (b2n (bitOf mask k))) s

/-- AOC_WAKE_CAUSE as it stands. -/
def wakeCause (s : State) : Nat := maskOf (wakeFields.map fun f => rbit s f)

/-- PWR_WAKE, with WAKE_CAUSE in its data (R424). -/
def wakeRaise (s : State) : State := raiseEv s evPwrWake 0 (wakeCause s)

/-- AOC_WAKE_EN; IGN is always enabled. -/
def wakeEnabled (s : State) : Nat → Bool
  | 0 => true
  | 1 => rbit s R.AOC_WAKE_EN_RTC
  | 2 => rbit s R.AOC_WAKE_EN_CAN0
  | 3 => rbit s R.AOC_WAKE_EN_CAN1
  | 4 => rbit s R.AOC_WAKE_EN_ETH
  | 5 => rbit s R.AOC_WAKE_EN_XLK
  | _ => false

/-- The sources that wake from a state: all but the cross-link from DEEP, IGN and the RTC alarm from OFF. -/
def wakeSources (state : Nat) : List Nat :=
  if state = pwPark then [0, 1, 2, 3, 4, 5] else if state = pwDeep then [0, 1, 2, 3, 4] else [0, 1]

/-- The RTC alarm's time has come (R423). -/
def alarmDue (s : State) : Bool :=
  let a := rget64 s R.AOC_ALARM_LO_VALUE R.AOC_ALARM_HI_VALUE
  decide (a ≠ 0 ∧ a ≤ rtcNow s)

/-- Those of the sources in a mask that take part in a state. -/
def wakeMask (s : State) (state mask : Nat) : Nat :=
  maskOf ((List.range 6).map fun k => bitOf mask k && (wakeSources state).contains k && wakeEnabled s k &&
    (k != 1 || alarmDue s) && (k != 4 || (List.range 4).any fun p => rbit s R.ETH_CTRL_WAKE_EN p))

/-- The fabric runs on with the row counter where it stood (R410). -/
def resumeFabric (s : State) : State :=
  let s1 := { s with
    fabric := true, aoc := { s.aoc with power := pwRun, wdogAt := s.now }, hlm := { s.hlm with runFrom := some s.now }
    tke := { s.tke with rowStart := s.now, rowLen := s.tke.inForce.periodUs * fcUs, edgeTime := moduleTime s } }
  renewTpNext (panelView (panelView s1 0) 1)

/-- The module wakes from a state: a resume from PARK, or a reset (R410, R413, R420). -/
def wakeUp (s : State) (mask : Nat) : State :=
  let left := s.aoc.power
  let warm := s.aoc.warmWake
  let s1 := noteWake (rset s R.AOC_PWR_STATE_LAST left) mask
  let s2 :=
    if left = pwPark then if warm then resetTo s1 kindWarm 8 false else resumeFabric s1
    else resetTo s1 kindFull (if left = pwDeep then 4 else 5) false
  wakeRaise s2

/-- The sources of the commands that wait for the present fc: all are recorded with one wake (R422). -/
def wakesAhead (s : State) : Nat :=
  s.pending.foldl (fun m c => Nat.lor m (match c with
    | .wakeEvent t k => if t = s.now then k.val else 0
    | .ignHigh t mv => if t = s.now ∧ 60 < mv.val then 1 else 0
    | .tc10WakeRx t p => if t = s.now ∧ rbit s R.ETH_CTRL_WAKE_EN p then 16 else 0
    | _ => 0)) 0

/-- WAKE_EVENT: sources by bit, as AOC_WAKE_EN numbers them. During an entry the wake follows when it completes. -/
def wakeEvent (s : State) (mask : Nat) : State :=
  match s.aoc.entry with
  | some (state, _) =>
    let m := wakeMask s state mask
    modAoc s fun a => { a with wakes := a.wakes ++ (List.range 6).filter fun k => bitOf m k && !a.wakes.contains k }
  | none =>
    if s.aoc.power < 2 then s
    else
      if wakeMask s s.aoc.power mask = 0 then s else wakeUp s (wakeMask s s.aoc.power (Nat.lor mask (wakesAhead s)))

/-! ### Entry to PARK, DEEP and OFF (R402, R410, R413) -/

/-- The panel ports before a state: PARK_KEEP keeps one running in PARK. -/
def panelEntry (state : Nat) (s : State) (p : Nat) : State :=
  if state = pwPark ∧ rbit s R.PNL_CTRL_PARK_KEEP p then s else panelDark s p

/-- The state is entered: the host link goes down, NAV saves, module time goes on as a holdover in PARK. -/
def enterState (s : State) (state : Nat) (x : EntryMeas) : State :=
  -- R75 abandons nothing here: the rings of HOST 1 stay as they are (R410)
  let s1 := if rbit s R.HLK_STATUS_LINK_UP then hostLinkOff s false else s
  let s2 := if state = pwOff ∧ !binding s then s1 else navStore s1 x.ephemeris x.almanac
  let s3 := if state = pwPark ∧ timeState s2 ≠ timeNone ∧ timeState s2 ≠ timeHoldover then holdoverBegin s2 x.eps x.tcxo
    else s2
  let s4 := stopClock (panelEntry state (panelEntry state s3 0) 1)
  let s5 := rset (rset s4 R.AOC_PWR_STATE_BINDING 0) R.AOC_PWR_STATE_BIND_STEP 0
  let wakes := s5.aoc.wakes
  let s6 := { s5 with
    fabric := false
    aoc := { s5.aoc with
      power := state, entry := none, drained := false, suspendAt := none, ready := false, ignOff := none,
      ignBack := false, parkedAt := s5.now, wakes := [] } }
  if wakes.isEmpty then s6 else wakeUp s6 (maskOf ((List.range 6).map fun k => wakes.contains k))

/-- A descriptor fetched and not completed is left. -/
def fetchedLeft (s : State) : Bool := s.reqs.any fun q => decide (q.stage ≠ .waiting)

/-- The suspend interrupt is raised. -/
def suspendRequest (s : State) : State :=
  modAoc s fun a => { a with suspendAt := some s.now, ready := false, warmWake := false }

/-- The state that an entry goes to by the tolerance as it stands now: one lowered since the entry began holds (R411). -/
def entryState (s : State) (state : Nat) : Option Nat :=
  match deepest s with
  | some d => some (min state d)
  | none => if binding s then some pwPark else none

/-- An entry that the tolerance no longer allows ends with the module in RUN, as a GO refused (DEDUCED, log entry 190;
unsafe). -/
def entryRefuse (s : State) : State :=
  rset (modAoc s fun a => { a with
    entry := none, drained := false, suspendAt := none, ready := false, warmWake := false, wakes := [] })
    R.AOC_PWR_STATE_SLEEP_ERR 3

/-- Software has been asked to suspend, and is ready or late. -/
def suspended (s : State) : Bool := s.aoc.suspendAt.isSome && (s.aoc.ready || s.aoc.warmWake)

/-- Both waits of an entry have ended: that for fetched descriptors, and before PARK that for software, which is asked now
where the entry was to a deeper state. -/
def tryEnter (s : State) (x : EntryMeas) : State :=
  match s.aoc.entry with
  | some (state, a) =>
    if !s.aoc.drained && fetchedLeft s then s
    else match entryState s state with
      | none => entryRefuse s
      | some st =>
        if st ≠ pwPark ∨ suspended s then enterState s st x
        else if s.aoc.suspendAt.isSome then s
        else suspendRequest (modAoc s fun k => { k with entry := some (st, a) })
  | none => s

/-- Entry begins: fetching stops. -/
def startEntry (s : State) (state : Nat) (x : EntryMeas) : State :=
  tryEnter (modAoc s fun a => { a with entry := some (state, s.now), drained := false, wakes := [] }) x

/-- The code of R411 for a GO that is refused. -/
def goError (s : State) : Nat :=
  if tkeArmed s then 1
  else if planeArmed s 0 ∨ planeArmed s 1 then 2
  else if (deepest s).isNone then 3
  else if s.aoc.castFrom.isSome ∨ binding s then 4 else 0

/-- GO. -/
def go (s : State) (x : EntryMeas) : State :=
  if s.aoc.entry.isSome ∧ !binding s then s
  else
    let e := goError s
    if e ≠ 0 then rset s R.AOC_PWR_STATE_SLEEP_ERR e
    else match deepest s with
      | some state => startEntry (if state = pwPark then suspendRequest s else modAoc s fun a => { a with suspendAt := none, warmWake := false }) state x
      | none => s

/-- ENTRY_DRAIN_END: 100 ms after fetching stopped R71 applies to the fetched descriptors that are left, and the
completions are written. -/
def drainEnd (s : State) (x : EntryMeas) : State :=
  match s.aoc.entry with
  | some (_, a) =>
    if s.aoc.drained ∨ s.now < a + 100 * fcMs ∧ fetchedLeft s then s
    else
      let left := (s.reqs.filter fun q => decide (q.stage ≠ .waiting)).map fun q => q.ref
      let s1 := left.foldl abortDesc s
      let s2 := drainTill (s1.reqs.foldl abortTaken s1)
      tryEnter (modAoc s2 fun a => { a with drained := true }) x
  | none => s

/-! ### Bind-off (R416, R417, R422) -/

/-- Bind-off ends with the module in RUN. -/
def bindAbort (s : State) : State :=
  let s1 := setOnes (rset (rset s R.AOC_PWR_STATE_BINDING 0) R.AOC_PWR_STATE_BIND_STEP 0) R.AOC_PWR_STATE_BIND_ABORTED
  modAoc s1 fun a => { a with ignBack := false, suspendAt := none, ready := false, warmWake := false }

/-- The next step begins, unless IGN has come back. -/
def bindNext (s : State) (step : Nat) : State :=
  if s.aoc.ignBack then bindAbort s
  else modAoc (rset s R.AOC_PWR_STATE_BIND_STEP step) fun a => { a with stepAt := s.now }

/-- Every dirty tile has flushed, or the MAP key is withheld and they stay (R431, R441). -/
def tilesFlushed (s : State) : Bool := keyWithheld s 4 || !s.sto.cache.any fun p => slotDirty p.2

/-- Step 1: the TKE is disarmed and both supervisors take their safe states. -/
def bindSafe (s : State) : State := safeNow (safeNow (disarmTke s) 0) 1

/-- Step 5: NAV saves, the RTC is set, fleet sessions close. -/
def bindSave (s : State) (x : EntryMeas) : State :=
  let s1 := navStore s x.ephemeris x.almanac
  fleClose (if timeState s1 = timeGnss ∨ timeState s1 = timeSlewing then setRtc s1 else s1)

/-- Step 3: the journal takes the pair epoch; its counters and event records stand in it already. -/
def journalFlush (s : State) : State :=
  { s with xlk := { s.xlk with savedEpoch := max s.xlk.savedEpoch (rget s R.XLK_BID_BID / 256) } }

/-- One step of bind-off, as far as the time has come. -/
def bindOnce (s : State) (x : EntryMeas) : State :=
  match bindStep s with
  | 1 => bindNext (bindSafe s) 2
  | 2 =>
    if s.aoc.stepAt + rval s R.AOC_BIND_CFG_BIND_SAFE_MS * fcMs ≤ s.now then bindNext (ppsDisarm (ppsDisarm s 0) 1) 3
    else s
  | 3 => bindNext (if keyWithheld s 4 then journalFlush s else flushNow (journalFlush s) none) 4
  | 4 => if tilesFlushed s then bindNext s 5 else s
  | 5 =>
    let s1 := bindNext (bindSave s x) 6
    if bindStep s1 = 6 then suspendRequest s1 else s1
  | 6 =>
    if s.aoc.ready || s.aoc.warmWake then
      startEntry (modAoc (rset s R.AOC_PWR_STATE_BIND_STEP 7) fun a => { a with stepAt := s.now })
        ((deepest s).getD pwPark) x
    else s
  | _ => s

/-- The steps of bind-off in order, as far as the time has come. -/
def bindRun (s : State) (x : EntryMeas) : State :=
  (List.range 7).foldl (fun s _ => if binding s then bindOnce s x else s) s

/-- Bind-off starts. -/
def bindBegin (s : State) (x : EntryMeas) : State :=
  let s1 := rset (rset s R.AOC_PWR_STATE_BINDING 1) R.AOC_PWR_STATE_BIND_STEP 1
  bindRun (modAoc s1 fun a => { a with stepAt := s.now, ignBack := false, ignOff := none, warmWake := false }) x

/-- BIND_START: BIND_DELAY_S after IGN_OFF bind-off starts; a bind-off in progress goes on. -/
def bindStart (s : State) (x : EntryMeas) : State :=
  if binding s then bindRun s x
  else match s.aoc.ignOff with
    | some a =>
      if s.aoc.castFrom.isNone ∧ s.aoc.entry.isNone ∧ a + rval s R.AOC_BIND_CFG_BIND_DELAY_S * fcSec ≤ s.now then
        bindBegin s x
      else s
    | none => s

/-- BIND_NOW. -/
def bindNow (s : State) (x : EntryMeas) : State := if binding s ∨ s.aoc.entry.isSome then s else bindBegin s x

/-- BIND_TILE_TIMEOUT: the remaining tiles stay dirty. -/
def bindTileTimeout (s : State) (x : EntryMeas) : State :=
  if binding s ∧ bindStep s = 4 ∧ !tilesFlushed s ∧ s.aoc.stepAt + rval s R.AOC_BIND_CFG_BIND_TILE_MAX_S * fcSec ≤ s.now then
    bindRun (bindNext (raiseEv (setOnes s R.AOC_PWR_STATE_BIND_TIMEOUT) evPwrBindTimeout) 5) x
  else s

/-- SUSPEND_READY. -/
def suspendReady (s : State) (x : EntryMeas) : State :=
  if s.aoc.suspendAt.isNone then s
  else
    let s1 := modAoc s fun a => { a with ready := true }
    if binding s ∧ s.aoc.entry.isNone then bindRun s1 x else tryEnter s1 x

/-- SUSPEND_TIMEOUT: the state is entered all the same, and the wake from PARK is a warm reset. -/
def suspendTimeout (s : State) (x : EntryMeas) : State :=
  match s.aoc.suspendAt with
  | some a =>
    if s.aoc.ready ∨ s.aoc.warmWake ∨ s.now < a + rval s R.AOC_PARK_CFG_SUSPEND_S * fcSec then s
    else
      let s1 := raiseEv (setOnes s R.AOC_PWR_STATE_SUSPEND_TIMEOUT) evPwrSuspendTimeout
      let s2 := modAoc s1 fun a => { a with warmWake := true }
      if binding s ∧ s.aoc.entry.isNone then bindRun s2 x else tryEnter s2 x
  | none => s

/-! ### IGN (R407, R412, R416, R422) -/

/-- PWR_IGN_OFF: IGN has been low for IGN_DEBOUNCE_MS; `mv100` is its voltage in 0.1 V. -/
def ignOff (s : State) (mv100 : Nat) : State :=
  let s0 := rset s R.AOC_SUPPLY_IGN_100MV mv100
  let s1 := if mv100 < 30 then rset s0 R.AOC_SUPPLY_IGN_LEVEL 0 else s0
  if 30 ≤ mv100 ∨ 2 ≤ s.aoc.power ∨ !s.aoc.logic ∨ s.aoc.ignOff.isSome then s1
  else raiseEv (if binding s && !s.aoc.ignBack then s1 else modAoc s1 fun a => { a with ignOff := some s.now }) evPwrIgnOff

/-- IGN high again cancels a bind-off that has not begun, and ends one before its entry. -/
def ignReturn (s : State) : State :=
  if binding s then
    if s.aoc.entry.isSome then s
    else if bindStep s = 6 then bindAbort s
    else raiseEv (modAoc s fun a => { a with ignBack := true, ignOff := none }) evPwrIgnOn
  else if s.aoc.ignOff.isSome then raiseEv (modAoc s fun a => { a with ignOff := none }) evPwrIgnOn
  else s

/-- IGN_HIGH: IGN above 6.0 V, debounced. -/
def ignHigh (s : State) (mv100 : Nat) : State :=
  if mv100 ≤ 60 then rset s R.AOC_SUPPLY_IGN_100MV mv100
  else
    let s1 := rset (rset s R.AOC_SUPPLY_IGN_100MV mv100) R.AOC_SUPPLY_IGN_LEVEL 1
    if 2 ≤ s.aoc.power ∨ s.aoc.entry.isSome then wakeEvent s1 1 else ignReturn s1

/-! ### LOGIC (R407, R408) -/

/-- The slack has fallen below 0 ps at the highest voltage (R457). -/
def slackLimited (s : State) : Bool := rget s R.HLM_VCORE_FLOOR_MV == 1800 && decide (rgetS s R.HLM_SLACK_MIN_SLACK_PS < 0)

/-- LOGIC_THROTTLE: 8.0–12.0 V limits the APX clock. -/
def logicThrottle (s : State) (mv100 : Nat) : State :=
  rsetB (rset s R.AOC_SUPPLY_LOGIC_100MV mv100) R.AOC_PWR_STATE_THROTTLED (decide (mv100 ≤ 120) || slackLimited s)

/-- LOGIC_QUALIFIED: LOGIC above 8.0 V for 20 ms; a return after a loss of the AON domain is a wake of its own. -/
def logicQualified (s : State) (mv100 : Nat) : State :=
  let s1 := logicThrottle s mv100
  if s.aoc.logic ∨ mv100 ≤ 80 then s1
  else
    let s2 := modAoc s1 fun a => { a with logic := true, failAt := none, castFrom := some (s.now, 1) }
    if s.aoc.kept then s2 else wakeRaise (noteWake s2 64)

/-- The write in progress at the journal's head ends with the page it has started, `pages` of its pages in all. -/
def finishPage (s : State) (pages : Nat) : State :=
  match s.sto.jrnJobs with
  | j :: _ =>
    if j.write ∧ 0 < pages then jrnApply s j (min j.data.length (4096 * pages - (j.off - softBase) % 4096)) else s
  | [] => s

/-- POWER_FAIL: LOGIC below 7.0 V for 1 ms. -/
def powerFail (s : State) (mv100 pages : Nat) : State :=
  if 70 ≤ mv100 ∨ !s.aoc.logic then s
  else
    let s1 := raiseEv (finishPage (rset s R.AOC_SUPPLY_LOGIC_100MV mv100) pages) evPwrLogicFail
    modAoc (resetTo s1 kindFull 3 false) fun a => { a with
      logic := false, kept := true, failAt := some s.now, castFrom := none }

/-- AON_LOSS: LOGIC below 3.0 V, or power-fail for more than 2 s. -/
def aonLoss (s : State) (mv100 : Nat) : State :=
  let long : Bool := match s.aoc.failAt with
    | some a => decide (a + 2 * fcSec < s.now)
    | none => false
  if mv100 < 30 ∨ long then
    modAoc (rset (resetTo s kindPowerOn 0 false) R.AOC_SUPPLY_LOGIC_100MV mv100) fun a => { a with castFrom := none }
  else s

/-! ### Cast-on (R414, R415) -/

/-- The previous bank becomes active again (R439). -/
def revertBank (s : State) : State :=
  let s1 := modUpd (rset s R.UPD_STATUS_ACTIVE_BANK (otherBank s)) fun u => { u with revert := false, fresh := false }
  raiseEv (setVersions (rset (rset s1 R.UPD_STATUS_TRIAL 0) R.UPD_STATUS_LAST_RESULT 2)) evUpdReverted

/-- The active bank holds an image whose SVN is not below its signer's counter (R439). -/
def bankBootable (s : State) : Bool :=
  match tblGet? s.upd.banks (rget s R.UPD_STATUS_ACTIVE_BANK) with
  | some i => decide (fuseCounter s i.signer ≤ i.svn)
  | none => false

/-- The boot seal stands for the active bank. -/
def sealHeld (s : State) : Bool := s.aoc.bootSeal == some (rget s R.UPD_STATUS_ACTIVE_BANK)

/-- STAGE 5: by the seal if it is held, else by full verification; success makes a seal. -/
def bootVerify (s : State) (x : CastIn) : State × Bool :=
  let ok := bankBootable s && (if sealHeld s then x.sealOk else x.verifyOk)
  let s1 := rsetB s R.AOC_CASTON_SEAL_USED (sealHeld s)
  if ok then (modAoc s1 fun a => { a with bootSeal := some (rget s R.UPD_STATUS_ACTIVE_BANK) }, true)
  else
    let s2 := modAoc (rset s1 R.AOC_CASTON_STAGE 15) fun a => { a with castFrom := none, bootSeal := none }
    (modUpd s2 fun u => { u with revert := rbit s R.UPD_STATUS_TRIAL }, false)

/-- The slot whose image awaits a cast-on. -/
def pendingSlot (s : State) : Nat := if slotState s 0 = 3 then 0 else 1

/-- STAGE 6: the pending image is copied to the other bank, which becomes active with a seal of its own. -/
def copyPending (s : State) (fault : Option (Bool × Nat × Nat)) : State :=
  if !rbit s R.UPD_STATUS_PENDING then s
  else
    let k := pendingSlot s
    let s1 := rset s R.UPD_STATUS_PENDING 0
    match fault, (getSlot s k).image with
    | none, some i =>
      let s2 := modUpd s1 fun u => { u with banks := tblSet u.banks (otherBank s) i }
      modAoc (takeBank s2 k) fun a => { a with bootSeal := some (otherBank s) }
    | f, _ =>
      let s2 := modUpd (copyError s1 f) fun u => { u with banks := tblErase u.banks (otherBank s) }
      rset (setVersions (setSlotState s2 k 2)) R.UPD_STATUS_LAST_RESULT 3

/-- A life-cycle change cut short is finished before STAGE 8 (R429). -/
def finishChange (s : State) : State :=
  match s.ksm.unfinished with
  | some (a, b) => lcMake s a b
  | none => s

/-- The converter self-test: the first bad converter of a group takes its spare, a further one loses its input
(R161). -/
def selfTest (s : State) (n : Nat) : State :=
  let b := if n < 256 then n / 8 else 6 + (n - 512) / 8
  if bitOf (rget s R.SFE_CAL_STAT_RETIRED) b then
    raiseEv { s with sfe := { s.sfe with lost := s.sfe.lost ++ [n] } } evSfeInputLost
  else raiseEv (rsetBitAt s R.SFE_CAL_STAT_RETIRED b true) evSfeConverterRetired

/-- Debug access at the tick-memory banks by life-cycle state (R34, R425). -/
def debugAccess (s : State) : State :=
  let off : Bool := decide (lcState s = 2 ∨ lcState s = 4)
  (List.range 16).foldl (fun s k =>
    if off then rset (rset s R.ARB_EMERG_EMERG_ENABLED 0 (5 + k)) R.ARB_LIMITS_EMERG_MAX 0 (5 + k) else s) s

/-- STAGE 8: the row counter is 0 and the tick runs. -/
def fabricInit (s : State) (bad : List Nat) : State :=
  let s1 := debugAccess (rset64 s R.TKE_ROW_LO_ROW R.TKE_ROW_HI_ROW 0)
  let k := tickSettings s1
  let s2 := { s1 with
    fabric := true
    tke := { s1.tke with
      running := true, rowStart := s1.now, rowLen := k.periodUs * fcUs, edgeTime := moduleTime s1, inForce := k }
    hlm := { s1.hlm with runFrom := some s1.now } }
  bad.foldl selfTest s2

/-- Module time that is not valid starts from the RTC at every cast-on (R272). -/
def loadRtc (s0 : State) : State :=
  let s := noteTime s0
  regridFilter { s with timeOff := s.rtcOff, nav := { s.nav with slew := 0, slewFrom := s.now, delta := 0 } }

/-- The device key is made at the first cast-on in MANUFACTURE (R426). -/
def makeKey (s : State) : State := if lcState s = 0 then rset s R.KSM_KEYS_DEVICE_KEY 1 else s

/-- The stages from verification on, for a cast-on whose first stage is `first`. -/
def castStages (s : State) (first : Nat) (x : CastIn) : State :=
  -- STAGE 4: the store link runs (R414)
  let s0 := rset s R.STO_LIFE_LINK_UP 1
  let s1 := if s0.upd.revert then revertBank s0 else s0
  let v := if first ≤ 5 then bootVerify (makeKey s1) x else (rset s1 R.AOC_CASTON_SEAL_USED 0, bankBootable s1)
  if !v.2 then rset (modAoc v.1 fun a => { a with castFrom := none }) R.AOC_CASTON_STAGE 15
  else
    let s2 := if first = 1 then copyPending v.1 x.copyFault else v.1
    let s3 := finishChange s2
    let s4 := fabricInit s3 x.badInputs
    let s5 := if first = 1 ∨ rget s4 R.NAV_STATE_START_KIND = 0 then navStart s4 else renewTpNext s4
    let s6 := if s5.upd.fresh then
        raiseEv (modSto (modUpd s5 fun u => { u with fresh := false }) fun m => { m with activations := m.activations + 1 })
          evUpdActivated
      else s5
    rset (modSto s6 fun m => { m with castOns := m.castOns + 1 }) R.AOC_CASTON_STAGE 9

/-- CAST_ON: the start-up sequence up to the host's boot. -/
def castOn (s : State) (x : CastIn) : State :=
  match s.aoc.castFrom with
  | some (_, first) =>
    if s.fabric ∨ !s.aoc.logic ∨ s.aoc.power ≠ pwRun then s
    else castStages (if first = 1 ∨ timeState s = timeNone then loadRtc s else s) first x
  | none => s

/-- HOST_READY ends cast-on; with IGN low the delay of bind-off starts now (R422). -/
def hostReady (s : State) : State :=
  match s.aoc.castFrom with
  | some (a, _) =>
    if rget s R.AOC_CASTON_STAGE ≠ 9 then s
    else
      let s1 := rset (rset s R.AOC_CASTON_STAGE 0) R.AOC_CASTON_LAST_MS (min ((s.now - a) / fcMs) 65535)
      modAoc s1 fun k => { k with castFrom := none, kept := true, ignOff := k.ignOff.map fun _ => s.now }
  | none => s

/-! ### TRIM (R411), DEEP after PARK (R418) -/

/-- TRIM_ENTER. -/
def trimEnter (s : State) : State :=
  if s.aoc.power = pwRun ∧ 50 ≤ tolerance s ∧ s.aoc.entry.isNone then modAoc s fun a => { a with power := pwTrim } else s

/-- TRIM_EXIT. -/
def trimExit (s : State) : State :=
  if s.aoc.power = pwTrim then rset (modAoc s fun a => { a with power := pwRun }) R.AOC_PWR_STATE_LAST pwTrim else s

/-- DEEP_DESCENT. -/
def deepDescent (s : State) : State :=
  let m := rget s R.AOC_PARK_CFG_DEEP_AFTER_MIN
  if s.aoc.power = pwPark ∧ m ≠ 0 ∧ s.aoc.parkedAt + m * 60 * fcSec ≤ s.now ∧ 3500000 ≤ tolerance s then
    modAoc (panelDark (panelDark s 0) 1) fun a => { a with power := pwDeep }
  else s

/-! ### Reset by software and by the watchdog (R420–R423) -/

/-- AOC_RESET. KIND as written: 1 warm, 2 fabric, 3 full. -/
def aocReset (s : State) (kind : Nat) (wipe : Bool) (confirm : Nat) : State :=
  if confirm = 0xA5 ∧ kind ≠ 0 then resetTo s (4 - kind) 1 (wipe && kind == 1) else s

/-- WATCHDOG_EXPIRY: warm, or full at the third within 600 s. -/
def watchdog (s : State) : State :=
  let m := rget s R.AOC_WDOG_TIMEOUT_MS
  if m = 0 ∨ s.now < s.aoc.wdogAt + m * fcMs then s
  else
    let times := s.aoc.wdogTimes.filter fun a => s.now < a + 600 * fcSec
    resetTo (modAoc s fun a => { a with wdogTimes := s.now :: times }) (if 2 ≤ times.length then kindFull else kindWarm) 2 false

/-- TC10_WAKE_RX: in RUN the link comes up; in PARK and DEEP it is a wake source (R361). -/
def tc10Rx (s : State) (p : Nat) : State :=
  let s1 := if running s then tc10WakeRx s p else s
  if rbit s R.ETH_CTRL_WAKE_EN p then wakeEvent s1 16 else s1

/-! ### Commands -/

/-- LOGIC_QUALIFIED. -/
def execLogicQualified (t : Fc) (mv100 : Fin 1024) (s : State) : Out := atTime t (fun s => logicQualified s mv100) s

/-- LOGIC_THROTTLE. -/
def execLogicThrottle (t : Fc) (mv100 : Fin 1024) (s : State) : Out :=
  atTime t (fun s => if s.aoc.logic then logicThrottle s mv100 else s) s

/-- POWER_FAIL. -/
def execPowerFail (t : Fc) (mv100 : Fin 1024) (pages : Nat) (s : State) : Out := atTime t (fun s => powerFail s mv100 pages) s

/-- AON_LOSS. -/
def execAonLoss (t : Fc) (mv100 : Fin 1024) (s : State) : Out := atTime t (fun s => aonLoss s mv100) s

/-- CAST_ON. -/
def execCastOn (t : Fc) (x : CastIn) (s : State) : Out := atTime t (fun s => castOn s x) s

/-- HOST_READY. -/
def execHostReady (t : Fc) (s : State) : Out := atFabric t hostReady s

/-- IGN_HIGH. -/
def execIgnHigh (t : Fc) (mv100 : Fin 1024) (s : State) : Out := atTime t (fun s => ignHigh s mv100) s

/-- PWR_IGN_OFF. -/
def execPwrIgnOff (t : Fc) (mv100 : Fin 1024) (s : State) : Out := atTime t (fun s => ignOff s mv100) s

/-- BIND_START. -/
def execBindStart (t : Fc) (x : EntryMeas) (s : State) : Out := atFabric t (fun s => bindStart s x) s

/-- BIND_NOW. -/
def execBindNow (t : Fc) (x : EntryMeas) (s : State) : Out := atFabric t (fun s => bindNow s x) s

/-- BIND_TILE_TIMEOUT. -/
def execBindTileTimeout (t : Fc) (x : EntryMeas) (s : State) : Out := atFabric t (fun s => bindTileTimeout s x) s

/-- GO. -/
def execGo (t : Fc) (x : EntryMeas) (s : State) : Out := atFabric t (fun s => go s x) s

/-- ENTRY_DRAIN_END. -/
def execEntryDrainEnd (t : Fc) (x : EntryMeas) (s : State) : Out := atFabric t (fun s => drainEnd s x) s

/-- SUSPEND_READY. -/
def execSuspendReady (t : Fc) (x : EntryMeas) (s : State) : Out := atFabric t (fun s => suspendReady s x) s

/-- SUSPEND_TIMEOUT. -/
def execSuspendTimeout (t : Fc) (x : EntryMeas) (s : State) : Out := atFabric t (fun s => suspendTimeout s x) s

/-- TRIM_ENTER. -/
def execTrimEnter (t : Fc) (s : State) : Out := atFabric t trimEnter s

/-- TRIM_EXIT. -/
def execTrimExit (t : Fc) (s : State) : Out := atFabric t trimExit s

/-- WAKE_EVENT. -/
def execWakeEvent (t : Fc) (sources : Fin 64) (s : State) : Out := atTime t (fun s => wakeEvent s sources) s

/-- DEEP_DESCENT. -/
def execDeepDescent (t : Fc) (s : State) : Out := atTime t deepDescent s

/-- AOC_RESET. -/
def execAocReset (t : Fc) (kind : Fin 4) (wipe : Bool) (confirm : Fin 256) (s : State) : Out :=
  atFabric t (fun s => aocReset s kind wipe confirm) s

/-- WATCHDOG_KICK. -/
def execWatchdogKick (t : Fc) (s : State) : Out := atFabric t (fun s => modAoc s fun a => { a with wdogAt := s.now }) s

/-- WATCHDOG_EXPIRY. -/
def execWatchdogExpiry (t : Fc) (s : State) : Out := atFabric t watchdog s

/-- TC10_WAKE_RX. -/
def execTc10WakeRx (t : Fc) (port : Fin 4) (s : State) : Out := atTime t (fun s => tc10Rx s port) s

end Sys2Proof.Machine
end

