-- ==== Sys2Proof/Machine/Health.lean ====
section
/-! DEFINITION. Health, darning and ageing (R445–R463), the base-plate temperature (R473) and the DRAM temperature
(R27). Measured values, and the class of each checked word, arrive with the command. -/

namespace Sys2Proof.Machine

def modHlm (s : State) (f : Hlm → Hlm) : State := { s with hlm := f s.hlm }

/-! ### Memory errors (R445–R447) -/

/-- Counters of a memory: 0 DRAM, 1 tick memory. -/
def ceFld (tm : Bool) : Fld := if tm then R.HLM_ECC_TM_CE else R.HLM_ECC_DRAM_CE
def ueFld (tm : Bool) : Fld := if tm then R.HLM_ECC_TM_UE else R.HLM_ECC_DRAM_UE
def addrFld (tm : Bool) : Fld := if tm then R.HLM_ECC_TM_ADDR else R.HLM_ECC_DRAM_ADDR

/-- The mark of a word whose CE has been counted and whose write-back is due. -/
def ceKey (tm : Bool) (word : Nat) : Nat := 2 * word + b2n tm

/-- The mark stands: its write-back comes within 64 cycles of the resource's domain (R446). -/
def ceMarked (s : State) (tm : Bool) (word : Nat) : Option (Nat × Nat) :=
  let n := if tm then 5 else 1
  s.hlm.cePend.find? fun x => x.1 == ceKey tm word && decide (arbCycleAt n s.now ≤ arbCycleAt n x.2 + 64)

/-- CE_WRITEBACK: a CE is counted once, whether the demand read or darning found it; a word written in the meantime
needs no write-back (R446, R454). -/
def ceWriteback (s : State) (tm : Bool) (word : Nat) : State :=
  match ceMarked s tm word with
  | some x => modHlm s fun h => { h with cePend := h.cePend.erase x }
  | none => rinc s (ceFld tm)

/-- Counts, latches and reports a UE or ADDR at a physical address (R447). -/
def eccReport (s : State) (tm isAddr : Bool) (syndrome reader addr : Nat) : State :=
  let s1 := rinc s (ueFld tm)
  let s2 := if isAddr then rinc s1 (addrFld tm) else s1
  let s3 := rolEvent (rolEvent s2 R.HLM_ECC_LAST_LO_ADDR addr) R.HLM_ECC_LAST_HI_ADDR (addr / 2 ^ 32)
  let s4 := rolEvent (rolEvent s3 R.HLM_ECC_LAST_INFO_MEMORY (b2n tm)) R.HLM_ECC_LAST_INFO_IS_ADDR (b2n isAddr)
  let s5 := rolEvent (rolEvent s4 R.HLM_ECC_LAST_INFO_SYNDROME syndrome) R.HLM_ECC_LAST_INFO_READER reader
  raiseEv s5 (if isAddr then evEccAddress else evEccUncorrectable) 0 addr

/-- A descriptor whose data are lost completes ECC_FATAL. -/
def eccFatal (s : State) (r : Ref) : State :=
  match findReq s r with
  | some q =>
    match q.desc with
    | some d =>
      if q.stage = .held ∨ q.stage = .taken then
        let s1 := stopWork s r d
        if d.cls = 2 ∨ d.cls = 3 then completeRow s1 (outProd d) r stEccFatal 0 (rowHere s)
        else complete s1 r stEccFatal 0 (if d.cls = 1 then some (rowHere s) else none)
      else s
    | none => s
  | none => s

/-- ECC_UNCORRECTABLE, by reader: 0 a row, 1 till or bridge, 2 a descriptor's DRAM read, 3 APX, 4 darning. -/
def eccUncorrectable (s : State) (tm isAddr : Bool) (syndrome reader addr : Nat) (r : Option Ref) : State :=
  let s1 := eccReport s tm isAddr syndrome reader addr
  match reader, r with
  | 0, _ => rowCause s1 3
  | 1, some x => eccFatal s1 x
  | 2, some x => eccFatal s1 x
  | _, _ => s1

/-! ### Darning (R448, R449) -/

/-- Words of a memory: 32 GiB and 16 MiB. -/
def memWords (tm : Bool) : Nat := if tm then 2 ^ 22 else 2 ^ 33

/-- Period of a pass in fc. -/
def passFc (s : State) (tm : Bool) : Nat :=
  if tm then rval s R.HLM_CTRL_TM_PASS_MIN * 60 * fcSec else rval s R.HLM_CTRL_DRAM_PASS_H * 3600 * fcSec

def getPass (s : State) (tm : Bool) : Pass := if tm then s.hlm.tm else s.hlm.dram
def setPass (s : State) (tm : Bool) (p : Pass) : State :=
  modHlm s fun h => if tm then { h with tm := p } else { h with dram := p }

/-- The 1 KiB row of tick memory that holds a word, over all banks, and its bank. -/
def rowOfWord (word : Nat) : Nat := word / 256
def bankOfRow (row : Nat) : Nat := row / 1024

/-- Spare rows of each tick-memory bank. -/
def spareRows : Nat := 8

/-- A row of tick memory is to be moved to a spare; with none left it stays (R449). -/
def weakRow (s : State) (row : Nat) : State :=
  if s.hlm.rowMoves.contains row then s
  else if tblGetD s.hlm.spares (bankOfRow row) 0 < spareRows then
    modHlm s fun h => { h with rowMoves := h.rowMoves ++ [row] }
  else raiseEv s evTmRowRepaired 0 (1024 * row + 2 ^ 63)

/-- A DRAM page is listed as retired. -/
def retirePage (s : State) (page : Nat) : State :=
  if s.hlm.retired.contains page ∨ 8192 ≤ s.hlm.retired.length then s
  else
    let s1 := modHlm s fun h => { h with retired := h.retired ++ [page] }
    raiseEv (rset s1 R.HLM_REPAIR_DRAM_RETIRED s1.hlm.retired.length) evDramPageRetired 0 page

/-- A weak or lost word: its row or page is taken out of use. -/
def weakWord (s : State) (tm : Bool) (word : Nat) : State :=
  if tm then weakRow s (rowOfWord word) else retirePage s (4 * word / 4096 * 4096)

/-- What darning does about the word it reads: `cls` 0 CLEAN, 1 CE, 2 UE, 3 ADDR (R445). -/
def darnWord (s : State) (tm : Bool) (word cls syndrome : Nat) : State :=
  let p := getPass s tm
  match cls with
  | 0 => s
  | 1 =>
    let s1 := modHlm (rinc s (ceFld tm)) fun h => { h with
      cePend := (h.cePend.filter fun x => x.1 != ceKey tm word) ++ [(ceKey tm word, s.now)] }
    let again := (tblGet? p.ce word) == some (p.number - 1) && p.number != 0
    let s2 := setPass s1 tm { p with ce := tblSet p.ce word p.number }
    if again then weakWord s2 tm word else s2
  | c =>
    let s1 := eccReport s tm (c == 3) syndrome 4 (4 * word)
    if tm then
      -- a word with no repair: the event alone
      raiseEv s1 evTmRowRepaired 0 (1024 * rowOfWord word +
        (if spareRows ≤ tblGetD s.hlm.spares (bankOfRow (rowOfWord word)) 0 then 2 ^ 63 else 0))
    else weakWord s1 tm word

/-- A pass ends: it is counted, and the next starts on the grid, or at once when this one ends late. -/
def passEnd (s : State) (tm : Bool) (p : Pass) : State :=
  let late := decide (p.start + passFc s tm < s.now)
  let s1 := rinc s (if tm then R.HLM_DARN_PASSES_TM_PASSES else R.HLM_DARN_PASSES_DRAM_PASSES)
  let s2 := if late then rinc s1 R.HLM_DARN_PASSES_LATE_PASSES else s1
  setPass s2 tm { p with
    start := if late then s.now else p.start + passFc s tm, pos := 0, number := p.number + 1,
    ce := p.ce.filter fun x => x.2 == p.number }

/-- DARN_READ: the next word of a pass, once its time has come. -/
def darnRead (s : State) (tm : Bool) (cls syndrome : Nat) : State :=
  let p := getPass s tm
  if !rbit s R.HLM_CTRL_DARN_EN ∨ s.now < p.start + p.pos * passFc s tm / memWords tm then s
  else
    let s1 := darnWord s tm p.pos cls syndrome
    let p1 := { getPass s1 tm with pos := p.pos + 1 }
    let s2 := rset (setPass s1 tm p1) (if tm then R.HLM_DARN_STAT_TM_PROGRESS else R.HLM_DARN_STAT_DRAM_PROGRESS)
      (p1.pos * 1000 / memWords tm % 1000)
    if p1.pos = memWords tm then passEnd s2 tm p1 else s2

/-- SPARE_ROW_SWITCH: the row has been copied, and its address is switched to the spare. -/
def spareSwitch (s : State) (row : Nat) : State :=
  if s.hlm.rowMoves.contains row then
    let b := bankOfRow row
    let s1 := modHlm s fun h => { h with
      rowMoves := h.rowMoves.erase row, moved := h.moved ++ [row], spares := tblSet h.spares b (tblGetD h.spares b 0 + 1) }
    raiseEv (rinc s1 R.HLM_REPAIR_TM_SPARES_USED) evTmRowRepaired 0 (1024 * row)
  else s

/-! ### Life (R456) -/

/-- D of R456 in units of 1 / 4,000,000: half-cycles of the four bins. -/
def damage (h : Tbl Nat) : Nat := tblGetD h 0 0 + 10 * tblGetD h 1 0 + 50 * tblGetD h 2 0 + 200 * tblGetD h 3 0

/-- Seconds since provisioning; none has passed in MANUFACTURE. -/
def sinceProvision (s : State) : Nat := if lcState s = 0 then 0 else (rtcNow s - s.sto.provisioned) / 1000000000

/-- 1,000 × the largest of the three fractions; a year is 365.25 days (DESIGN CHOICE, log entry 80; unsafe). -/
def lifePermille (s : State) : Nat :=
  min 2047 (max (max (1000 * opSeconds s / (25000 * 3600)) (1000 * sinceProvision s / (15 * 31557600)))
    (damage s.hlm.halves / 4000))

/-- Brings HLM_LIFE up to date; HLM_LIFE_REACHED is raised when it first reaches 1,000. -/
def lifeUpdate (s : State) : State :=
  let v := lifePermille s
  let s1 := rset (rset s R.HLM_LIFE_LIFE_PERMILLE v) R.HLM_LIFE_OP_HOURS (min (opSeconds s / 3600) 65535)
  if 1000 ≤ v ∧ !s.hlm.lifeTold then raiseEv (modHlm s1 fun h => { h with lifeTold := true }) evHlmLifeReached 0 v else s1

/-- Bin of a swing in °C. -/
def swingBin (d : Nat) : Option Nat :=
  if d < 10 then none else if d ≤ 20 then some 0 else if d ≤ 40 then some 1 else if d ≤ 60 then some 2 else some 3

/-- Counts half-cycles of a swing. -/
def countSwing (t : Tbl Nat) (d n : Nat) : Tbl Nat :=
  match swingBin d with
  | some b => tblSet t b (tblGetD t b 0 + n)
  | none => t

/-- Closes cycles at the latest turning points (rainflow, three points as in ASTM E1049: PRESUMED, log entry
30; unsafe); `fuel` bounds the cycles. -/
def rainflow : Nat → List Int → Tbl Nat → List Int × Tbl Nat
  | fuel + 1, a :: b :: c :: rest, h =>
    if (a - b).natAbs < (b - c).natAbs then (a :: b :: c :: rest, h)
    else if rest.isEmpty then ([a, b], countSwing h (b - c).natAbs 1)
    else rainflow fuel (a :: rest) (countSwing h (b - c).natAbs 2)
  | _, l, h => (l, h)

/-- The turning points with one more sample: a sample on in the same direction moves the latest one. -/
def addSample (l : List Int) (x : Int) : List Int :=
  match l with
  | a :: b :: rest => if (b ≤ a ∧ a ≤ x) ∨ (a ≤ b ∧ x ≤ a) then x :: b :: rest else x :: a :: b :: rest
  | [a] => if x = a then [a] else [x, a]
  | [] => [x]

/-- The thermal-cycle monitor takes a sample. -/
def thermalSample (s : State) (x : Int) : State :=
  let l := addSample s.hlm.turns x
  let r := rainflow l.length l s.hlm.halves
  modHlm s fun h => { h with turns := r.1, halves := r.2 }

/-! ### Telemetry samples (R453) -/

/-- A temperature in °C plus 50, in a byte. -/
def tempByte (t : Int) : Nat := (clampInt 0 255 (t + 50)).toNat

/-- The body of a SAMPLE. -/
def sampleBytes (s : State) (base plane die : Int) : List Byte :=
  let g := fun (f : Fld) => rget s f
  leBytes 8 (moduleTime s) ++ leBytes 2 (g R.HLM_VCORE_VCORE_MV) ++ leBytes 2 (g R.HLM_SLACK_MIN_SLACK_PS) ++
    leBytes 1 (tempByte base) ++ leBytes 1 (tempByte plane) ++ leBytes 1 (tempByte die) ++ leBytes 1 0 ++
    leBytes 4 (g R.HLM_ECC_DRAM_CE + 2 ^ 16 * g R.HLM_ECC_DRAM_UE + 2 ^ 24 * g R.HLM_ECC_DRAM_ADDR) ++
    leBytes 4 (g R.HLM_ECC_TM_CE + 2 ^ 16 * g R.HLM_ECC_TM_UE + 2 ^ 24 * g R.HLM_ECC_TM_ADDR) ++
    leBytes 4 (g R.HLM_REPAIR_TM_SPARES_USED + 2 ^ 8 * g R.HLM_REPAIR_DRAM_RETIRED) ++
    leBytes 4 (g R.HLM_LIFE_LIFE_PERMILLE + 2 ^ 16 * g R.HLM_LIFE_OP_HOURS)

/-- At least `gap` fc have passed since `last`. -/
def passed (s : State) (last : Option Nat) (gap : Nat) : Bool :=
  match last with
  | some a => decide (a + gap ≤ s.now)
  | none => true

/-- TLM_SAMPLE, every SAMPLE_S seconds. -/
def tlmSample (s : State) (base plane die : Int) : State :=
  let n := rget s R.HLM_CTRL_SAMPLE_S
  if n = 0 ∨ !passed s s.hlm.sampleAt (n * fcSec) then s
  else
    let s1 := lifeUpdate (modHlm s fun h => { h with sampleAt := some s.now })
    telemetryPut s1 2 (sampleBytes s1 base plane die)

/-! ### Ageing monitors (R455) -/

/-- `a` is greater than `n / d` times `b`, of two FP32 values. -/
def overRatio (a b : F32) (n d : Nat) : Bool :=
  let x := fToRatio a
  let y := fToRatio b
  decide (y.1 * (n : Int) * (x.2 : Int) < x.1 * (d : Int) * (y.2 : Int))

/-- `a` is greater than `b` by more than `n`. -/
def overBy (a b : F32) (n : Nat) : Bool :=
  let x := fToRatio a
  let y := fToRatio b
  decide (y.1 * (x.2 : Int) + (n : Int) * (x.2 : Int) * (y.2 : Int) < x.1 * (y.2 : Int))

/-- The measurement passes its monitor's report limit. -/
def overLimit (s : State) (kind : Nat) (value base : F32) : Bool :=
  match kind with
  | 1 => fLt value (fOfNat (rval s R.HLM_REPLAN_SLACK_TARGET_PS))
  | 2 => overRatio value base 6 5
  | 3 => overRatio value base 6 5
  | 4 => overRatio value base 13 10
  | 5 => overRatio value base 13 10
  | 6 => overRatio base value 5 4
  | 7 => overRatio value base 2 1
  | 8 => overBy value base 5
  | _ => false

/-- The items of R455 by KIND, a channel's under its bank and number: KIND 10 is a decision, not a monitor (DESIGN CHOICE, log
entry 154; unsafe). -/
def monitorItem (kind inst item : Nat) : Bool :=
  match kind with
  | 1 => item < 32
  | 2 | 3 | 6 | 7 => inst < 12
  | 4 | 5 | 9 => item < 96 && inst == item / 8
  | 8 => inst < 15
  | 11 => inst == 0
  | _ => false

/-- Key of an item. -/
def itemKey (kind inst item : Nat) : Nat := kind * 65536 + inst % 256 * 256 + item % 256

/-- An item's baseline. -/
def baselineOf (s : State) (kind inst item : Nat) : F32 :=
  if kind = 1 then fOfNat (rget s R.HLM_RO_BASE_PS 0 item) else Config.ageBaseline kind inst item % 2 ^ 32

/-- A channel's movement results. -/
def movesOf (s : State) (ch : Nat) : MoveStats := tblGetD s.hlm.moves ch MoveStats.zero

/-- An item's value: a ring oscillator's latest slack, a channel's mean MOVE_TIME in µs, the damage fraction; else what was
measured (the values of KIND 9 and 11 DESIGN CHOICE, log entry 154; unsafe). -/
def monitorValue (s : State) (m : AgeMeas) : F32 :=
  match m.kind with
  | 1 => fOfInt (rgetS s R.HLM_RO_SLACK_PS 0 m.item)
  | 9 => let q := movesOf s m.item; if q.count = 0 then 0 else fOfRatio q.sum (2 * q.count)
  | 11 => fOfRatio (damage s.hlm.halves) 4000000
  | _ => m.value

/-- The cadence of a monitor in fc. -/
def cadence (kind : Nat) : Nat := if kind = 1 then 600 * fcSec else if kind = 11 then 24 * 3600 * fcSec else 3600 * fcSec

/-- A record may close: its time has come and, for an hour of use, it rests on 100 valid measurements (R455). -/
def monitorDue (s : State) (m : AgeMeas) : Bool :=
  let from_ := (tblGet? s.hlm.ageAt (itemKey m.kind m.inst m.item)).getD (s.hlm.runFrom.getD 0)
  let enough := match m.kind with
    | 2 | 3 | 4 | 5 => decide (100 ≤ m.count)
    | 9 => decide (100 ≤ (movesOf s m.item).count)
    | _ => true
  monitorItem m.kind m.inst m.item && decide (from_ + cadence m.kind ≤ s.now) && enough

/-- The record of a monitor: KIND 9 tells its results. -/
def monitorRec (s : State) (m : AgeMeas) : AgeRec :=
  let v := monitorValue s m
  let b := baselineOf s m.kind m.inst m.item
  let q := if m.kind = 9 then movesOf s m.item else MoveStats.zero
  ⟨m.kind, m.inst, m.item, 0, v, b, 0, 0, fOfRatio q.least 2, fOfRatio q.greatest 2, min q.count 65535,
    min q.noMove 65535, if q.count + q.noMove = 0 then 0 else fOfRatio q.vbst (10 * (q.count + q.noMove))⟩

/-- HLM_AGEING_LIMIT, once for an item. -/
def tellLimit (s : State) (kind inst item : Nat) : State :=
  let key := itemKey kind inst item
  if s.hlm.told.contains key then s
  else raiseEv (modHlm s fun h => { h with told := h.told ++ [key] }) evHlmAgeingLimit 0
    (kind + 256 * (inst % 256) + 65536 * (item % 256))

/-- AGEING_MEASURE: a monitor closes a record. -/
def ageingMeasure (s : State) (m : AgeMeas) : State :=
  if !monitorDue s m then s
  else
    let r := monitorRec s m
    let s1 := modHlm (monitorPut s r) fun h => { h with
      ageAt := tblSet h.ageAt (itemKey m.kind m.inst m.item) s.now
      moves := if m.kind = 9 then tblErase h.moves m.item else h.moves
      hsb := if m.kind = 2 then tblSet h.hsb m.inst (r.value, r.baseline) else h.hsb
      cap := if m.kind = 6 then tblSet h.cap m.inst (r.value, r.baseline) else h.cap }
    lifeUpdate (if overLimit s m.kind r.value r.baseline then tellLimit s1 m.kind m.inst m.item else s1)

/-! ### Core voltage (R457) -/

/-- FLOOR_MV moves, with its margin record. -/
def setFloor (s : State) (new : Nat) : State :=
  let old := rget s R.HLM_VCORE_FLOOR_MV
  marginChange (rset s R.HLM_VCORE_FLOOR_MV new) 10 0 (if old < new then 1 else 2) old new

/-- Margin exhausted: told once; below 0 ps the APX is limited. -/
def exhaust (s : State) (slack : Int) : State :=
  let s1 := if s.hlm.exhausted then s
    else
      let r : AgeRec := ⟨10, 0, 0, 6, fOfInt slack, 0, 1800, 1800, 0, 0, 0, 0, 0⟩
      raiseEv (marginPut (modHlm s fun h => { h with exhausted := true }) r) evHlmMarginExhausted 0 (ofSignedSat 16 slack)
  if slackLimited s1 then rset s1 R.AOC_PWR_STATE_THROTTLED 1 else s1

/-- The rules of FLOOR_MV after a measurement with least slack `slack`. -/
def floorStep (s : State) (slack : Int) : State :=
  let f := rget s R.HLM_VCORE_FLOOR_MV
  let target : Int := rval s R.HLM_REPLAN_SLACK_TARGET_PS
  if slack < target then
    let s1 := modHlm s fun h => { h with spareCount := 0 }
    if f < 1800 then setFloor s1 (min (f + 10) 1800) else exhaust s1 slack
  else if target + 100 < slack then
    let n := s.hlm.spareCount + 1
    if n < 7 then modHlm s fun h => { h with spareCount := n }
    else
      let s1 := modHlm s fun h => { h with spareCount := 0 }
      if 710 ≤ f then setFloor s1 (f - 10) else s1
  else modHlm s fun h => { h with spareCount := 0 }

/-- The least of the slacks of RO0–RO15. -/
def leastSlack (slacks : List Int) : Int := ((slacks.take 16).drop 1).foldl min (slacks.getD 0 0)

/-- RO_MEASURE, every 10 min: the slack of each ring oscillator in ps; `offset` is the DVFS offset in mV. -/
def roMeasure (s : State) (slacks : List Int) (offset : Nat) : State :=
  if !passed s s.hlm.roAt (600 * fcSec) then s
  else
    let s0 := modHlm s fun h => { h with roAt := some s.now }
    let s1 := (List.range 32).foldl (fun s n => rsetS s R.HLM_RO_SLACK_PS (slacks.getD n 0) 0 n) s0
    let m := leastSlack slacks
    let s2 := rsetS s1 R.HLM_SLACK_MIN_SLACK_PS m
    if rbit s R.HLM_CTRL_AVS_EN then
      let s3 := floorStep s2 m
      rset s3 R.HLM_VCORE_VCORE_MV (clampNat 700 1800 (rget s3 R.HLM_VCORE_FLOOR_MV + offset))
    else s2

/-! ### Drive-bank limits (R458, R461) -/

/-- A limit of R458: `full * num / den` in steps of 100 mA, at least `least`. -/
def stepLimit (least num den : Nat) : Nat := max least (num / (den * 100) * 100)

/-- The boost limit from the boost capacitance and its baseline. -/
def boostLimit (cap : Option (F32 × F32)) : Nat :=
  match cap with
  | some (v, b) =>
    if overRatio b v 5 4 then
      let x := fToRatio v
      let y := fToRatio b
      -- 12,000 * (v / b) / 0.80
      stepLimit 4000 (15000 * x.1.toNat * y.2) (x.2 * y.1.toNat)
    else 12000
  | none => 12000

/-- The peak limit from the HSB resistance and its baseline. -/
def peakLimit (hsb : Option (F32 × F32)) : Nat :=
  match hsb with
  | some (v, b) =>
    if overRatio v b 6 5 then
      let x := fToRatio v
      let y := fToRatio b
      -- 8,000 * 1.20 / (v / b)
      stepLimit 2000 (9600 * y.1.toNat * x.2) (y.2 * x.1.toNat)
    else 8000
  | none => 8000

/-- The limits in force or pending. -/
def limitsNow (s : State) (b : Nat) : Nat × Nat :=
  (getDbk s b).derate.getD (rget s R.DBK_DERATE_BOOST_MA b, rget s R.DBK_DERATE_PEAK_MA b)

/-- A record that a limit is pending. -/
def pendingRecord (s : State) (kind b old new : Nat) : State :=
  if new < old then marginPut s ⟨kind, b, 0, 5, 0, 0, old, new, 0, 0, 0, 0, 0⟩ else s

/-- Operating time in fc. -/
def opTime (s : State) : Nat := s.hlm.opFc + match s.hlm.runFrom with
  | some a => s.now - a
  | none => 0

/-- BANK_REPLAN of a drive bank: a lower limit waits until every channel is OFF; a limit is never raised. -/
def bankReplan (s : State) (b : Nat) : State :=
  let due := match tblGet? s.hlm.replanAt b with
    | some a => decide (a + rval s R.HLM_REPLAN_REPLAN_H * 3600 * fcSec ≤ opTime s)
    | none => true
  if !rbit s R.HLM_CTRL_REPLAN_EN ∨ !due then s
  else
    let s1 := modHlm s fun h => { h with replanAt := tblSet h.replanAt b (opTime s) }
    let cur := limitsNow s b
    let boost := min cur.1 (boostLimit (tblGet? s.hlm.cap b))
    let peak := min cur.2 (peakLimit (tblGet? s.hlm.hsb b))
    if (boost, peak) = cur then s1
    else if bankOff s b then derateSet (setDbk s1 b { getDbk s1 b with derate := none }) b boost peak
    else setDbk (pendingRecord (pendingRecord s1 6 b cur.1 boost) 2 b cur.2 peak) b { getDbk s1 b with derate := some (boost, peak) }

/-- MARGIN_RESET: the design ratings again, in SERVICE only. -/
def marginReset (s : State) (r : Ref) (d : Desc) : State :=
  let b := d.classWord % 16
  if 11 < b then complete s r stRejectFormat 0x01B8
  else if lcState s ≠ 3 then complete s r stRejectState 0x02B0
  else
    let boost := R.DBK_DERATE_BOOST_MA.resetAt b 0
    let peak := R.DBK_DERATE_PEAK_MA.resetAt b 0
    let s1 := setDbk s b { getDbk s b with derate := none }
    let same := rget s R.DBK_DERATE_BOOST_MA b == boost && rget s R.DBK_DERATE_PEAK_MA b == peak
    let s2 := if same then marginPut s1 ⟨6, b, 0, 7, 0, 0, boost, boost, 0, 0, 0, 0, 0⟩ else derateSet s1 b boost peak
    complete s2 r stDone

/-! ### Temperatures (R27, R473) -/

/-- The base plate is above its limit: hot after 10 s. -/
def baseAbove (s : State) (t : Int) : State :=
  let a := s.hlm.hotSince.getD s.now
  let s1 := modHlm s fun h => { h with hotSince := some a, coolSince := none }
  if !s.hlm.hot ∧ a + 10 * fcSec ≤ s.now then raiseEv (modHlm s1 fun h => { h with hot := true }) evHlmBaseHot 0 (tempByte t)
  else s1

/-- The base plate is at least 5 °C below its limit: normal again after 60 s. -/
def baseBelow (s : State) (t : Int) : State :=
  let a := s.hlm.coolSince.getD s.now
  let s1 := modHlm s fun h => { h with hotSince := none, coolSince := some a }
  if s.hlm.hot ∧ a + 60 * fcSec ≤ s.now then
    raiseEv (modHlm s1 fun h => { h with hot := false, coolSince := none }) evHlmBaseNormal 0 (tempByte t)
  else s1

/-- BASE_TEMP_SAMPLE, every 10 s. -/
def baseTempSample (s : State) (t : Int) : State :=
  if !passed s s.hlm.baseAt (10 * fcSec) then s
  else
    let s1 := thermalSample (modHlm s fun h => { h with baseAt := some s.now }) t
    let s2 := if Config.baseLimitC < t then baseAbove s1 t
      else if t ≤ Config.baseLimitC - 5 then baseBelow s1 t
      else modHlm s1 fun h => { h with hotSince := none, coolSince := none }
    lifeUpdate s2

/-- DRAM_TEMP_ABOVE_85C: W of the four DRAM channels, from the present cycle of each on. -/
def dramTemp (s : State) (above : Bool) : State :=
  [1, 2, 3, 4].foldl (fun s n => rset (arbTo s n (arbCycleAt n s.now)) R.ARB_EMERG_EMERG_SPACING (if above then 1560 else 3120) n) s

/-! ### Commands -/

/-- CE_WRITEBACK. -/
def execCeWriteback (t : Fc) (tm : Bool) (word : Nat) (s : State) : Out := atFabric t (fun s => ceWriteback s tm word) s

/-- ECC_UNCORRECTABLE. -/
def execEccUncorrectable (t : Fc) (tm isAddr : Bool) (syndrome : Fin 128) (reader : Fin 5) (addr : Nat) (r : Option Ref)
    (s : State) : Out :=
  atFabric t (fun s => eccUncorrectable s tm isAddr syndrome reader addr r) s

/-- DARN_READ. -/
def execDarnRead (t : Fc) (tm : Bool) (cls : Fin 4) (syndrome : Fin 128) (s : State) : Out :=
  atFabric t (fun s => darnRead s tm cls syndrome) s

/-- SPARE_ROW_SWITCH. -/
def execSpareRowSwitch (t : Fc) (row : Fin 16384) (s : State) : Out := atFabric t (fun s => spareSwitch s row) s

/-- TLM_SAMPLE. -/
def execTlmSample (t : Fc) (base plane die : Int) (s : State) : Out := atFabric t (fun s => tlmSample s base plane die) s

/-- AGEING_MEASURE. -/
def execAgeingMeasure (t : Fc) (m : AgeMeas) (s : State) : Out := atFabric t (fun s => ageingMeasure s m) s

/-- RO_MEASURE. -/
def execRoMeasure (t : Fc) (slacks : List Int) (offset : Nat) (s : State) : Out :=
  atFabric t (fun s => roMeasure s slacks offset) s

/-- BANK_REPLAN. -/
def execBankReplan (t : Fc) (bank : Fin 12) (s : State) : Out := atFabric t (fun s => bankReplan s bank) s

/-- MARGIN_RESET. -/
def execMarginReset (t : Fc) (r : Ref) (s : State) : Out :=
  atFabric t (fun s => withDesc r 0xB 0x90 (fun d s => marginReset s r d) s) s

/-- BASE_TEMP_SAMPLE. -/
def execBaseTempSample (t : Fc) (temp : Int) (s : State) : Out := atFabric t (fun s => baseTempSample s temp) s

/-- DRAM_TEMP_ABOVE_85C. -/
def execDramTempAbove85c (t : Fc) (above : Bool) (s : State) : Out := atFabric t (fun s => dramTemp s above) s

end Sys2Proof.Machine
end

