-- ==== Sys2Proof/Machine/Gauge.lean ====
section
/-! DEFINITION. The gauge table (R42–R54): its header, the gauge record of every block instance, and the capability
records with the bodies that the chapters give (R52–R54, R108, R140, R167, R203, R226, R258, R283, R314, R340, R367,
R392, R463). Reads of the region only; nothing in it can be written (R43). -/

namespace Sys2Proof.Machine

/-- Block type code and number of instances, in the order of the gauge records (R47). The order is DEDUCED from the
example under R54, where record 10 is DBK instance 6. -/
def gaugeTypes : List (Nat × Nat) :=
  [(0x10, 1), (0x11, 1), (0x12, 1), (0x20, 1), (0x30, 12), (0x31, 12), (0x32, 2), (0x40, 1), (0x50, 4), (0x51, 1),
   (0x52, 1), (0x60, 8), (0x61, 4), (0x62, 2), (0x63, 1), (0x64, 1), (0x70, 1), (0x71, 2)] ++
    [(0x80, 1), (0x81, 1), (0x82, 1), (0x83, 1), (0x90, 1), (0x91, 1), (0x92, 1), (0xA0, 1), (0xA1, 22), (0xA2, 2),
     (0xA3, 1)]

/-- Type and instance of each gauge record. -/
def gaugeRecords : List (Nat × Nat) := gaugeTypes.flatMap fun p => (List.range p.2).map fun k => (p.1, k)

/-- The instance is unusable in the present life-cycle state (R46): the FLE in MANUFACTURE and RETIRED (R425). -/
def blockDisabled (s : State) (code : Nat) : Bool := code == 0x70 && (lcState s == 0 || lcState s == 4)

/-! ### Capability bodies -/

/-- A word from fields: lowest bit and value of each. -/
def packWord (l : List (Nat × Nat)) : Nat := l.foldl (fun a p => a + p.2 * 2 ^ p.1) 0

/-- Ring classes that a block consumes (R52, R56, R490). -/
def ringClasses : Nat → List Nat
  | 0x10 => [1]
  | 0x32 => [2, 3]
  | 0x50 => [4]
  | 0x51 => [4]
  | 0x52 => [5]
  | 0x60 => [6]
  | 0x70 => [7]
  | 0x71 => [8]
  | 0x82 => [9]
  | 0x81 => [10]
  | 0x11 => [11]
  | 0x20 => [11]
  | 0x64 => [11]
  | 0x40 => [11]
  | 0x80 => [11]
  | 0x61 => [11]
  | 0x62 => [11]
  | 0x83 => [11]
  | 0x90 => [11]
  | _ => []

/-- RING_LIMITS (R53) of a window of `n` rings from ring number `first`, whose first doorbell page is `page`. -/
def ringLimits (n first page : Nat) : List Nat := [packWord [(0, n), (16, first)], 65536, 4096 * page, 1]

/-- TICK_LIMITS (R108). -/
def tickLimits : List Nat :=
  [packWord [(0, 250), (16, 20000)], packWord [(0, 850), (16, 4096)], 0x200000, 0x100000,
   packWord [(0, 64), (8, 58), (16, 256)]] ++
    ((List.range 10).map fun k =>
      let c := stitchCost (k + 1)
      packWord [(0, c.1), (16, c.2.1), (24, c.2.2)]) ++ [0]

/-- Cross-section of a wire profile in 0.05 mm² and its ISO 6722-1 class as a character code (R212). -/
def wireSection (n : Nat) : Nat × Nat :=
  ([7, 10, 15, 20, 30, 50, 80, 120, 200, 15, 20, 30, 50, 80, 120, 200].getD n 0, if n < 9 then 0x42 else 0x43)

/-- WIRE_PROFILES (R226). -/
def wireProfiles : List Nat :=
  (List.range 16).flatMap fun n =>
    let p := wireProfile n
    [packWord [(0, p.1), (16, (wireSection n).1), (24, (wireSection n).2)], packWord [(0, 10 * p.2), (16, 10 * p.2)]]

/-- SWITCH_RATINGS of the fitted ordering code (R226, R466). -/
def switchRatings : List Nat :=
  [packWord [(0, Config.switchRatingMa), (16, 2 * Config.switchRatingMa)],
   packWord [(0, 90), (8, 10), (16, Config.feedRating)], packWord [(0, 50), (16, 2000)]]

/-- PARTITIONS (R314): partitions 1–3 use pSLC, as R302 has it. -/
def partitionWords : List Nat :=
  7 :: (List.range 7).map fun p =>
    packWord [(0, p), (4, if 1 ≤ p ∧ p ≤ 3 then 1 else 0), (8, [8192, 4096, 4096, 2048, 98304, 32768, 65536].getD p 0)]

/-- The capability records of a block instance, in the order of their identifiers: identifier and body (R49). -/
def capBodies (code inst : Nat) : List (Nat × List Nat) :=
  let classes := ringClasses code
  let own : List (Nat × List Nat) :=
    match code with
    | 0x10 => [(0x0010, tickLimits)]
    | 0x11 => [(0x0011, [packWord [(0, 32), (8, 16), (16, 64)], packWord [(0, 12), (8, 64)], 24000,
        packWord [(0, 0x0100), (16, 32)]])]
    | 0x20 => [(0x0020, [packWord [(0, 48), (8, 64), (16, 2), (20, 4)], 250000, packWord [(0, 4096), (16, 4)]])]
    | 0x30 => [(0x0030, [packWord [(0, 12000), (16, 8000)], packWord [(0, 4000), (16, 3500)],
        packWord [(0, 60), (8, 144), (16, 1000)], packWord [(0, 500), (16, 8), (24, 50)]]),
        (0x0031, [0x80]), (0x0032, [0x800])]
    | 0x31 => [(0x0033, switchRatings), (0x0034, wireProfiles)]
    | 0x32 => [(0x0038, [packWord [(0, 15), (8, 2), (16, 5000)], packWord [(0, 2000), (16, 10)],
        packWord [(0, 1000), (16, 256)]])]
    | 0x64 => [(0x0038, [packWord [(0, 15), (8, 2), (16, 5000)], packWord [(0, 2000), (16, 10)],
        packWord [(0, 1000), (16, 256)]])]
    | 0x40 => [(0x0040, [0x3FFFF, packWord [(0, 2), (8, 64), (16, 128)], packWord [(0, 3), (8, 60), (16, 4096)]])]
    | 0x51 => [(0x0050, [0x3F, packWord [(0, 4096), (16, 3072)], packWord [(0, 800), (16, 600)]])]
    | 0x60 => [(0x0060, [packWord [(0, 32), (8, 3), (12, 2), (16, 5000)], packWord [(0, 8), (8, 0x03)]])]
    | 0x61 => [(0x0061, [packWord [(0, 1), (1, 1), (8, 8)]])]
    | 0x62 => [(0x0061, [packWord [(8, 8)]])]
    | 0x63 => [(0x0063, [128, 4])]
    | 0x70 => [(0x0070, [packWord [(0, 1024), (16, 32)], packWord [(0, 4096), (16, 1200)],
        packWord [(0, 200), (16, 64)]])]
    | 0x80 => [(0x0080, partitionWords)]
    | 0x90 => [(0x0090, [packWord [(0, 32), (8, 10), (16, 8)], packWord [(0, 700), (16, 1800)],
        packWord [(0, 25000), (16, 15)], packWord [(0, 128), (16, 32)]])]
    | 0xA2 => [(0x0002, ringLimits 128 (128 * inst) (128 * inst))]
    | 0xA3 => [(0x0002, ringLimits 64 0 256)]
    | _ => []
  (if classes.isEmpty then [] else [(0x0001, [packWord (classes.map fun c => (c, 1))])]) ++ own

/-- The words of a chain of capability records that begins at an offset (R48); CAP_VERSION is 1, as in the example
under R54. -/
def capWords (off : Nat) : List (Nat × List Nat) → List Nat
  | [] => []
  | (id, body) :: t =>
    let next := off + 4 * (body.length + 2)
    packWord [(0, id), (16, 1), (24, body.length + 2)] :: (if t.isEmpty then 0 else next) :: (body ++ capWords next t)

/-- Bytes of the chain of gauge record `i`. -/
def capBytes (i : Nat) : Nat :=
  let p := gaugeRecords.getD i (0, 0)
  4 * (capWords 0 (capBodies p.1 p.2)).length

/-- A placing of the chains that R50 allows: on 4-byte boundaries, beyond the gauge records, within the region, no two
over one another; and the chain of record 10 where the example under R54 has it. -/
def capPlaced (f : Nat → Nat) : Bool :=
  let n := gaugeRecords.length
  f 10 == 0x4A00 && (List.range n).all fun i =>
    f i % 4 == 0 && decide (0x40 + 0x20 * n ≤ f i) && decide (f i + capBytes i ≤ 0x10000) &&
      (List.range i).all fun j => decide (f i + capBytes i ≤ f j) || decide (f j + capBytes j ≤ f i)

/-- Where the chains lie: the part's own placing, as far as R50 allows it: the spec gives one offset (DEDUCED,
log entry 9). -/
def capPlace (i : Nat) : Nat :=
  if capPlaced Config.capOffset then Config.capOffset i else if i = 10 then 0x4A00 else 0x5000 + 0x180 * i

/-- Control-window offset of the first capability record of gauge record `i`, 0 where the block has none. -/
def capOffset (i : Nat) (p : Nat × Nat) : Nat := if (capBodies p.1 p.2).isEmpty then 0 else capPlace i

/-! ### The region -/

/-- Control-window offset of a gauge record's register window: the example under R54 has 0x1A000 for record 10. -/
def windowBase (i : Nat) : Nat := 0x10000 + 0x1000 * i

/-- The eight words of gauge record `i` (R46). -/
def gaugeRecord (s : State) (i : Nat) (p : Nat × Nat) : List Nat :=
  [packWord [(0, p.1), (16, p.2)], windowBase i, 0x1000, packWord [(0, 0x0100), (16, b2n (blockDisabled s p.1))],
   capOffset i p, 0, 0, 0]

/-- All gauge records, by number. -/
def gaugeList (s : State) : List Nat :=
  ((List.range gaugeRecords.length).zip gaugeRecords).flatMap fun x => gaugeRecord s x.1 x.2

/-- The first seven words of the header (R44). -/
def gaugeHead : List Nat :=
  [0x42544751, packWord [(0, 0x0100), (16, gaugeRecords.length)], 0x40, 0x20, Config.serialNumber % 2 ^ 32,
   Config.serialNumber / 2 ^ 32 % 2 ^ 32,
   packWord [(0, Config.hwMinor % 256), (8, Config.hwMajor % 256), (16, Config.variant)]]

/-- Bytes of a word, lowest first. -/
def wordBytes (w : Nat) : List Nat := (List.range 4).map fun k => w / 256 ^ k % 256

/-- TABLE_CRC (R44): the header's bytes 0x00–0x1B, then the gauge records. -/
def gaugeCrc (s : State) : Nat := crc32 ((gaugeHead ++ gaugeList s).flatMap wordBytes)

/-- The word of the chain of record `i` at an offset of the region, if it lies in that chain. -/
def capWordAt (off i : Nat) (p : Nat × Nat) : Option Nat :=
  let base := capOffset i p
  let ws := capWords base (capBodies p.1 p.2)
  if base ≤ off ∧ off < base + 4 * ws.length then some (ws.getD ((off - base) / 4) 0) else none

/-- The word at an offset of the complete gauge region. -/
def gaugeTable (s : State) (off : Nat) : Nat :=
  let w := off / 4
  if w < 7 then gaugeHead.getD w 0
  else if w = 7 then gaugeCrc s
  else if w < 16 then 0
  else if w < 16 + 8 * gaugeRecords.length then (gaugeList s).getD (w - 16) 0
  else
    (((List.range gaugeRecords.length).zip gaugeRecords).findSome? fun x => capWordAt off x.1 x.2).getD 0

/-- A read of the gauge region: all zero until the table is complete (R45). -/
def gaugeRead (s : State) (off : Nat) : Nat := if s.fabric then gaugeTable s off else 0

end Sys2Proof.Machine
end

