-- ==== Sys2Proof/Machine/Registers.lean ====
section
/-! DEFINITION. Reads and writes of the register windows (R9–R13): what a read of a field returns, which fields a write
sets and which of them it leaves alone while their block is armed, and what follows at once from a field's new value. -/

namespace Sys2Proof.Machine

/-! ### Where a field lies -/

/-- Instance and index under which a field is kept, for the window of instance `inst` and an offset in it; none where
the field does not lie there. The ring fields are kept by ring number over both RNG windows (R57). -/
def slotAt (f : Fld) (inst off : Nat) : Option (Nat × Nat) :=
  if f.count = 1 then if off = f.off then some (inst, 0) else none
  else if off < f.off ∨ (off - f.off) % f.stride ≠ 0 then none
  else
    let j := (off - f.off) / f.stride
    if f.blk = .rng then if j < 128 then some (0, 128 * inst + j) else none
    else if j < f.count then some (inst, j) else none

/-- The fields of the register at an offset of a window, each with its instance and index. -/
def fieldsAt (b : Blk) (inst off : Nat) : List (Fld × Nat × Nat) :=
  (blkFields b).filterMap fun f => (slotAt f inst off).map fun p => (f, p.1, p.2)

/-- Instances of a block; SPE0 and SPE1 are instances 4 and 5 of the Ethernet window (R47, R364). -/
def blkCount : Blk → Nat
  | .arb => 22
  | .rng => 2
  | .dbk => 12
  | .sbk => 12
  | .pps => 2
  | .cam => 4
  | .can => 8
  | .eth => 6
  | .pnl => 2
  | .doorbell => 4096
  | _ => 1

/-- The window answers: the computing side is running, or it is the AOC's in PARK (R409, R422); and the block instance is not
disabled (R46, R45, R407). -/
def windowOpen (s : State) (b : Blk) (inst : Nat) : Bool :=
  (s.fabric || (b == .aoc && s.aoc.power == 2)) && decide (inst < blkCount b) && !(b == .fle && blockDisabled s 0x70)

/-! ### Reads -/

/-- Bits 0–7 of a bank's channels. -/
def chanBits (b : Nat) (p : Nat → Bool) : Nat :=
  (List.range 8).foldl (fun a n => a + if p (8 * b + n) then 2 ^ n else 0) 0

/-- Inputs of one class whose converter is lost, from input `lo` on (R161, R165). -/
def lostBits (s : State) (cls lo : Nat) : Nat :=
  (List.range 32).foldl (fun a n => a + if s.sfe.lost.contains (256 * cls + lo + n) then 2 ^ n else 0) 0

/-- The member that FLE_MEMBER_SEL names (R390). -/
def selMember (s : State) : Member := getMember s (rget s R.FLE_MEMBER_SEL_PITCH)

/-- FLE_MEMBER.STATE: 0 unknown, 1 known, 2 in session, 3 evicted. -/
def memberState (s : State) : Nat :=
  let p := rget s R.FLE_MEMBER_SEL_PITCH
  let m := selMember s
  if m.evicted then 3
  else if s.fle.sessions.any fun x => x.2.isOpen && x.2.pitch == p then 2
  else if m.cert.isSome || m.known then 1 else 0

/-- Bits of a two's complement number of `w` bits, saturated. -/
def satBits (w : Nat) (v : Int) : Nat := ofSignedSat w v

/-- Fields whose value follows from other state, first part: arbiters, rings, tick engine, front end. -/
def viewA (s : State) (f : Fld) (i j : Nat) : Option Nat :=
  if f = R.ARB_STAT_HOLDER then some (((seenNow s i).holder.map (·.who)).getD 0)
  else if f = R.ARB_STAT_BUSY then some (b2n (seenNow s i).holder.isSome)
  else if f = R.ARB_STAT_EMERG_ACTIVE then some (b2n (seenNow s i).emStart.isSome)
  else if f = R.ARB_STAT_TOP_RANK then some ((seenNow s i).rank.headD 0)
  else if f = R.ARB_PREEMPT_COUNT_COUNT then
    some (satTo 32 (rget s f i + (arbReach s i (arbCycleAt i s.now)).2.1))
  else if f = R.ARB_DEAD_COUNT_COUNT then
    some (satTo 32 (rget s f i + (arbReach s i (arbCycleAt i s.now)).2.2))
  else if f = R.RING_CTRL_IDLE then some (b2n (ringIdle s j))
  else if f = R.RING_COUNT_OUTSTANDING then some (ringCount s j)
  else if f = R.TKE_COST_MAIN_FC then some (match s.tke.main with | some p => p.cost | none => 0)
  else if f = R.TKE_COST_FALLBACK_FC then some (match s.tke.fallback with | some p => p.cost | none => 0)
  else if f = R.TKE_BUDGET_FC then some (if s.tke.running then budgetOf (windowOf s.tke.inForce.periodUs s.tke.inForce.offsetUs) else 0)
  else if f = R.SFE_LOST_IMP_LO_LOST then some (lostBits s 0 0)
  else if f = R.SFE_LOST_IMP_HI_LOST then some (lostBits s 0 32)
  else if f = R.SFE_LOST_GIN_LO_LOST then some (lostBits s 2 0)
  else if f = R.SFE_LOST_GIN_HI_LOST then some (lostBits s 2 32)
  else none

/-- Second part: drive and switch banks. -/
def viewB (s : State) (f : Fld) (i j : Nat) : Option Nat :=
  if f = R.DBK_C7_VBST_VBST_MEAS then some (min (vbstNow s i / 5) 255)
  else if f = R.DBK_VBST_MEAS then some (vbstNow s i)
  else if f = R.DBK_C7_VBST_VBST_SET then some (rval s R.DBK_BOOST_SET_VBST_CODE i)
  else if f = R.DBK_C7_OUT_ON then
    some (chanBits i fun c => drvPhase s c == 2 || drvPhase s c == 3 || drvPhase s c == 4 ||
      (drvPhase s c == 5 && decide (0 < (getDrv s c).propMa)))
  else if f = R.DBK_C7_OUT_FAULT then some (chanBits i fun c => decide (dget s R.DBK_CH_STAT_FAULT c ≠ 0))
  else if f = R.DBK_STATUS_HSB_ON then some (b2n (hsbClosed s i))
  else if f = R.DBK_VBST_READY then some (b2n (vbstReady s i))
  else if f = R.DBK_CH_STAT_PHASE then some (phaseShown s (8 * i + j))
  else if f = R.DBK_STATUS_WAITING then some (chanBits i fun c => drvPhase s c == 1)
  else if f = R.DBK_CH_STAT_FORCED then some (b2n (drvForced s (8 * i + j)))
  else if f = R.DBK_CH_STAT_I_MA then some (min (getDrv s (8 * i + j)).ma 16383)
  else if f = R.SBK_STATUS_ON then some (chanBits i fun c => swState s c == 1 || swState s c == 2)
  else if f = R.SBK_STATUS_LATCHED then
    some (chanBits i fun c => dbit s R.SBK_CH_STAT_TRIPPED c || dbit s R.SBK_CH_STAT_THERM_LATCH c ||
      dbit s R.SBK_CH_STAT_LOCKED c)
  else if f = R.SBK_STATUS_SHED then some (chanBits i fun c => dbit s R.SBK_CH_STAT_SHED c)
  else if f = R.SBK_STATUS_UV then some (b2n (getFeed s (i / 6)).below)
  else if f = R.SBK_CH_STAT_STATE then some (swState s (8 * i + j))
  else if f = R.SBK_CH_STAT_I_10MA then some (min ((getSw s (8 * i + j)).ma / 10) 65535)
  else if f = R.SBK_CH_STAT_IN_LIMIT then some (b2n (limitHeld s (8 * i + j) s.now))
  else if f.blk = .sbk ∧ 0x010 ≤ f.off ∧ f.off ≤ 0x018 then some (rget s f (feedInst (i / 6)))
  else none

/-- Third part: navigation, Ethernet, fleet, store, journal, health, power. -/
def viewC (s : State) (f : Fld) : Option Nat :=
  if f = R.NAV_TIME_UNC_NS then some (reportedUnc s)
  else if f = R.NAV_TIME_ERR_NS then some (satBits 32 (slewLeft s / 4))
  else if f = R.ETH_GPTP_PRIORITY1 ∨ f = R.ETH_GPTP_PRIORITY2 then some (rget s f 0)
  else if f = R.FLE_MARKET_ID_MARKET_ID then some (ownMarket s)
  else if f = R.FLE_PITCH_PITCH then some (ownPitch s)
  else if f = R.FLE_PITCH_CRED_VALID then some (b2n (credsValid s))
  else if f = R.FLE_MEMBER_STATE then some (memberState s)
  else if f = R.FLE_MEMBER_STRIKES then some (min (selMember s).strikes 15)
  else if f = R.FLE_MEMBER_TIME_STATE then some (selMember s).timeState
  else if f = R.FLE_MEMBER_TOKENS then some (tokensNow s (rget s R.FLE_MEMBER_SEL_PITCH))
  else if f = R.FLE_MEMBER_OFFSET_NS then some (satBits 32 (selMember s).offset)
  else if f = R.ISP_STAT_LOAD then some (ispLoad s)
  else if f = R.ISP_STAT_CUR_PORT then some (ispPort s)
  else if f = R.VXA_STAT_QUEUED then some (min (vxaQueued s) 65535)
  else if f = R.STO_MAP_STAT_ACTIVE then some (cacheActive s)
  else if f = R.STO_MAP_STAT_DIRTY then some (cacheDirty s)
  else if f = R.JRN_PAGE_PEAK_COUNT then some (min (pagePeak s).2 (2 ^ 32 - 1))
  else if f = R.JRN_PAGE_IDX_PAGE then some (pagePeak s).1
  else if f = R.JRN_BUDGET_NOW_COUNT then some (min (pageLimit s) (2 ^ 32 - 1))
  else if f = R.HLM_LIFE_OP_HOURS then some (min (opSeconds s / 3600) 65535)
  else if f = R.AOC_RTC_LO_VALUE then some (rtcNow s)
  else if f = R.AOC_RTC_HI_VALUE then some (rtcNow s / 2 ^ 32)
  else none

/-- What a read of a field returns, its latches aside: a field the module derives reads as derived, a SIZE_LOG2 as it is
taken (R55), a write-only field as zero, and any other as it stands (R12). CAM0 has no slot registers (R319). -/
def fieldRead (s : State) (f : Fld) (i j : Nat) : Nat :=
  let v := (viewA s f i j).getD ((viewB s f i j).getD ((viewC s f).getD (rget s f i j)))
  if f.acc = .wo then 0
  else if f.blk = .cam ∧ i = 0 ∧ 0x00C ≤ f.off ∧ f.off ≤ 0x014 then 0
  else if f.lim = .outside 4 16 4 then f.lim.apply v
  else v % 2 ^ f.width

/-- What a read of a register returns, its latches aside; the gauge region answers as R45 has it. -/
def wordView (s : State) (b : Blk) (inst off : Nat) : Nat :=
  if b = .gauge then gaugeRead s off
  else if !windowOpen s b inst then 0
  else (fieldsAt b inst off).foldl (fun a x => a + fieldRead s x.1 x.2.1 x.2.2 * 2 ^ x.1.lsb) 0

/-- The low halves that latch their high half, with it (R106, R137, R256, R281, R423, R460). -/
def loHalves : List (Fld × Fld) :=
  [(R.TKE_ROW_LO_ROW, R.TKE_ROW_HI_ROW), (R.SPS_SOLVE_ROW_LO_ROW, R.SPS_SOLVE_ROW_HI_ROW),
   (R.PPS_LAST_ROW_LO_ROW, R.PPS_LAST_ROW_HI_ROW), (R.NAV_TP_NEXT_LO_TIME, R.NAV_TP_NEXT_HI_TIME),
   (R.NAV_TP_LAST_LO_TIME, R.NAV_TP_LAST_HI_TIME), (R.AOC_RTC_LO_VALUE, R.AOC_RTC_HI_VALUE),
   (R.AOC_ALARM_LO_VALUE, R.AOC_ALARM_HI_VALUE), (R.AOC_RESUME_LO_VALUE, R.AOC_RESUME_HI_VALUE),
   (R.HLM_ECC_LAST_LO_ADDR, R.HLM_ECC_LAST_HI_ADDR)]

/-- ROL fields that keep the highest value since the previous read. -/
def isPeak (f : Fld) : Bool := f = R.ARB_TICKET_PEAK_TICKET ∨ f = R.TKE_PEAK_FC

/-- A read of one field: its bits in place, and the state with its latch released (R12). The requester of
ARB_TICKET_PEAK comes with its ticket. -/
def fieldTake (s : State) (f : Fld) (i j : Nat) : Nat × State :=
  if f = R.ARB_TICKET_PEAK_REQUESTER then (0, s)
  else if f.acc = .rol then
    let r := rolRead s f (isPeak f) i
    (r.1 * 2 ^ f.lsb, r.2)
  else (fieldRead s f i j * 2 ^ f.lsb, s)

/-- Latches the high half of a pair whose low half is read: the value that a read of it at this moment returns. -/
def latchHigh (s : State) (hi : Fld) (i : Nat) : State :=
  let r := fieldTake s hi i 0
  { r.2 with hiLatch := tblSet s.hiLatch (hi.key i 0) r.1 }

/-- A read of one field with the halves of a pair: a latched high half is returned once. -/
def fieldPair (s : State) (f : Fld) (i j : Nat) : Nat × State :=
  match tblGet? s.hiLatch (f.key i j) with
  | some v => (v, { s with hiLatch := tblErase s.hiLatch (f.key i j) })
  | none =>
    let r := fieldTake s f i j
    match loHalves.find? fun p => p.1 = f with
    | some p => (r.1, latchHigh r.2 p.2 i)
    | none => r

/-- A read of a register by software: what it returned stands in `readData`. A window that does not answer reads
zero. -/
def readReg (s : State) (b : Blk) (inst off : Nat) : State :=
  if windowOpen s b inst then
    let r := (fieldsAt b inst off).foldl (fun (a : Nat × State) x =>
      let q := fieldPair a.2 x.1 x.2.1 x.2.2
      (a.1 + q.1, q.2)) (0, s)
    { r.2 with readData := r.1 }
  else { s with readData := 0 }

/-! ### Writes -/

/-- The field counts as armed under R12. -/
def fieldArmed (s : State) (f : Fld) (i j : Nat) : Bool :=
  match f.blk with
  | .rng => ringEnabled s j
  | .cqr => cqEnabled s j
  | .sfe =>
    if f = R.SFE_RULE_WORD then
      tkeArmed s && (rget s R.SFE_CTRL_LIVE_BANK == j / 256 ||
        (rbit s R.SFE_CTRL_PENDING && rget s R.SFE_CTRL_PENDING_BANK == j / 256))
    else tkeArmed s
  | .tke => tkeArmed s
  | .sps => tkeArmed s
  | .fnl => tkeArmed s
  | .xlk => tkeArmed s
  | .dbk => planeArmed s (i / 6)
  | .sbk => planeArmed s (i / 6)
  | .pps => planeArmed s i
  | .cam => rbit s R.CAM_CTRL_EN i
  | .can => rbit s R.CAN_CTRL_EN i
  | .eth => rbit s R.ETH_CTRL_EN i
  | .fle => rbit s R.FLE_CTRL_EN
  | .pnl => rbit s R.PNL_CTRL_EN i
  | .sto => rbit s R.STO_MAP_CTRL_MAP_EN
  | .hlm => rbit s R.HLM_TLM_CFG_ENABLE
  | _ => false

/-- The field exists for writing in this instance and accepts this value: a tick period outside R106, a VOLT while its
supply is on (R165), DECAY below index 7 (R191), PAR on an odd channel (R211), a feed register outside SBK0 and SBK6
(R224), slot registers of CAM0 (R319), MAP_EN while the partition is sealed (R431), a gPTP priority outside ETH0 and MASTER
of an SPE port (R364) are left as they are. -/
def fieldAccepts (s : State) (f : Fld) (i j v : Nat) : Bool :=
  if f = R.TKE_TICK_PERIOD_PERIOD_US then decide (250 ≤ v ∧ v ≤ 20000)
  else if f = R.SFE_SSUP_CFG_VOLT then !rbit s R.SFE_SSUP_CFG_EN 0 j
  else if f = R.DBK_CH_CFG_DECAY then j == 7
  else if f = R.SBK_CH_CFG_PAR then j % 2 == 0
  else if f.blk = .sbk ∧ 0x010 ≤ f.off ∧ f.off ≤ 0x014 then i % 6 == 0
  else if f.blk = .cam ∧ 0x00C ≤ f.off ∧ f.off ≤ 0x014 then i != 0
  else if f = R.STO_MAP_CTRL_MAP_EN then !(v == 1 && rbit s R.KSM_LC_SEALED)
  else if f = R.ETH_GPTP_PRIORITY1 ∨ f = R.ETH_GPTP_PRIORITY2 then i == 0
  else if f = R.ETH_CTRL_MASTER then decide (i < 4)
  else true

/-- Notes the fc at which an input is enabled (R142). -/
def noteEnabled (s : State) (cls n : Nat) (was now : Bool) : State :=
  if now && !was then { s with sfe := { s.sfe with enabledAt := tblSet s.sfe.enabledAt (256 * cls + n) s.now } } else s

/-- An impact channel that is disabled drops the pulse it has open (DESIGN CHOICE, log entry 54; unsafe). -/
def noteImp (s : State) (n : Nat) : State :=
  if rbit s R.SFE_IMP_CFG_EN 0 n then s else setImp s n { getImp s n with isOpen := false }

/-- COUNT of a frequency input counts since its enable (R144). -/
def noteFrq (s0 s : State) (n : Nat) : State :=
  if rbit s R.SFE_FRQ_CFG_EN 0 n && !rbit s0 R.SFE_FRQ_CFG_EN 0 n then
    setFrq s n { getFrq s n with count := 0, enabled := quarterAt s s.now }
  else s

/-- A quadrature pair that begins to count counts from 0 (R152). -/
def notePair (s0 s : State) (k : Nat) : State :=
  if quadOn s k && !quadOn s0 k then setQuad s k { getQuad s k with pos := 0, posAtEdge := 0, err := false } else s

/-- What follows at once from a field's new value; `s0` is the state before the write. -/
def afterWrite (s0 : State) (f : Fld) (i j : Nat) (s : State) : State :=
  if f = R.SFE_IMP_CFG_EN then noteImp (noteEnabled s 0 j (rbit s0 f i j) (rbit s f i j)) j
  else if f = R.SFE_FRQ_CFG_EN then notePair s0 (noteFrq s0 (noteEnabled s 1 j (rbit s0 f i j) (rbit s f i j)) j) (j / 2)
  else if f = R.SFE_FRQ_CFG_QUAD then notePair s0 s (j / 2)
  else if f = R.SFE_GIN_CFG_MODE then noteEnabled s 2 j (rval s0 f i j != 0) (rval s f i j != 0)
  else if f = R.SFE_LCL_CFG_EN then noteEnabled s 3 j (rbit s0 f i j) (rbit s f i j)
  else if f = R.XLK_PAIR_ID_PAIR_ID then
    (List.range 2).foldl (fun s p =>
      if (getPps s p).powered then setPps s p { getPps s p with pairId := rget s f } else s) s
  else if f = R.DBK_CTRL_ENABLE then
    let v := setVbst s i (vbstNow s0 i)
    if rbit s f i == rbit s0 f i then s
    else setDbk v i { getDbk v i with offFrom := if rbit s f i then none else some s.now, onFrom := s.now }
  else if f = R.DBK_BOOST_SET_VBST_CODE then setVbst s i (vbstNow s0 i)
  else if f = R.SBK_CH_CFG_PAR then if rbit s f i j && !rbit s0 f i j then pairJoin s (8 * i + j) else s
  else if f = R.XLK_PAIR_CFG_PAIR_EN then if rbit s f then s else rset s R.XLK_ROLE_ROLE 0
  else if f = R.NAV_SIG_EN_SIG ∨ f = R.NAV_RTK_CFG_ELEV_MASK ∨ f = R.NAV_CTRL_HEADING_EN ∨ f = R.NAV_CTRL_ANT_B_EN then
    trkRejudge s
  else if f = R.NAV_CTRL_EN then navEnable s
  else if f = R.NAV_CORR_SPACING then trkSpacing s j
  else if f = R.NAV_CABLE_A_DELAY then cableWritten s false (rval s0 f)
  else if f = R.NAV_CABLE_B_DELAY then cableWritten s true (rval s0 f)
  else if f = R.STO_MAP_CTRL_MAP_EN then
    if rbit s f && !rbit s0 f then modSto s fun m => { m with lastMapped := none } else s
  else if f = R.PNL_CTRL_BLANK ∨ f = R.PNL_CTRL_BLANK_ON_CRACK ∨ f = R.PNL_CTRL_PWR_EN then panelView s i
  else if f = R.MSIX_MASK then if rbit s f 0 j then s else msixUnmask s j
  else if f = R.AOC_WDOG_TIMEOUT_MS then
    if rget s0 f = 0 then modAoc s fun a => { a with wdogAt := s.now } else s
  else s

/-- The bits of a written value that a field keeps: a rule's word 0 has reserved bits (R10, R148). -/
def kept (f : Fld) (j v : Nat) : Nat :=
  if f = R.SFE_RULE_WORD ∧ j % 4 = 0 then setBit (v % 2 ^ 24) 3 false else v

/-- A field with a row of its own is left to it; only the 0 that clears EN of a CAN controller has none (R363). -/
def rowTakes (f : Fld) (v : Nat) : Bool := f.ownRow && !(f == R.CAN_CTRL_EN && v == 0)

/-- A write to one field: `v` are its bits of the word written. -/
def fieldWrite (s0 s : State) (f : Fld) (i j v : Nat) : State :=
  let may := match f.acc with
    | .rw => true
    | .rwa => !fieldArmed s0 f i j
    | _ => false
  if may && !rowTakes f v && fieldAccepts s0 f i j v then afterWrite s f i j (rset s f (kept f j v) i j) else s

/-- A write of a register by software. -/
def writeReg (s : State) (b : Blk) (inst off v : Nat) : State :=
  if windowOpen s b inst then
    (fieldsAt b inst off).foldl (fun a x => fieldWrite s a x.1 x.2.1 x.2.2 (bitField v x.1.lsb x.1.width)) s
  else s

/-- A write to the RW1C fields of a register (R12, R13). -/
def clearReg (s : State) (b : Blk) (inst off v : Nat) : State :=
  if windowOpen s b inst then
    (fieldsAt b inst off).foldl (fun a x =>
      if x.1.acc = .rw1c && !x.1.ownRow then clearOnes a x.1 (bitField v x.1.lsb x.1.width) x.2.1 x.2.2 else a) s
  else s

/-- Only a naturally aligned access of four bytes acts; any other reads zero and changes nothing (R9). -/
def plainAccess (off size : Nat) : Bool := off % 4 == 0 && size == 4

/-- A read of a register of `size` bytes, where `p` holds for one of the fields it meets. -/
def readRow (s : State) (b : Blk) (inst off size : Nat) (p : Fld → Bool) : State :=
  if !plainAccess off size then { s with readData := 0 }
  else if (fieldsAt b inst off).any fun x => p x.1 then readReg s b inst off
  else s

/-- A high or low half of a 64-bit pair whose low half latches the high one. -/
def isHalf (f : Fld) : Bool := loHalves.any fun p => p.1 = f || p.2 = f

/-! ### The address windows (R42, R43, R73) -/

/-- The window block of a block type code, and the instance in it: SPE0 and SPE1 are instances 4 and 5 of the Ethernet
window (R47, R364). -/
def blkOfCode : Nat → Blk
  | 0x10 => .tke
  | 0x11 => .sps
  | 0x12 => .fnl
  | 0x20 => .sfe
  | 0x30 => .dbk
  | 0x31 => .sbk
  | 0x32 => .pps
  | 0x40 => .nav
  | 0x50 => .cam
  | 0x51 => .isp
  | 0x52 => .vxa
  | 0x60 => .can
  | 0x61 => .eth
  | 0x62 => .eth
  | 0x63 => .hlk
  | 0x64 => .xlk
  | 0x70 => .fle
  | 0x71 => .pnl
  | 0x80 => .sto
  | 0x81 => .jrn
  | 0x82 => .upd
  | 0x83 => .ksm
  | 0x90 => .hlm
  | 0x91 => .aoc
  | 0x92 => .mem
  | 0xA0 => .til
  | 0xA1 => .arb
  | 0xA2 => .rng
  | _ => .cqr

/-- Where an offset of the control window lies: the gauge region below 0x1_0000, the register windows above it. -/
def controlAt (off : Nat) : Option (Blk × Nat × Nat) :=
  if off < 0x10000 then some (.gauge, 0, off)
  else (gaugeRecords[(off - 0x10000) / 0x1000]?).map fun p =>
    (blkOfCode p.1, p.2 + (if p.1 = 0x62 then 4 else 0), off % 0x1000)

/-- Where an address of the internal host lies: the control window of 64 MiB at 0x0000_0002_0000_0000 and the doorbell
window of 16 MiB at 0x0000_0002_0400_0000. -/
def internalAt (a : Nat) : Option (Blk × Nat × Nat) :=
  if 0x200000000 ≤ a ∧ a < 0x204000000 then controlAt (a - 0x200000000)
  else if 0x204000000 ≤ a ∧ a < 0x205000000 then some (.doorbell, (a - 0x204000000) / 4096, a % 4096)
  else none

/-- Where an offset of a BAR lies for the external host: BAR0 the control window, BAR2 the doorbell window, BAR4 the 64 KiB
of MSI-X. -/
def externalAt (bar off : Nat) : Option (Blk × Nat × Nat) :=
  if bar = 0 ∧ off < 0x4000000 then controlAt off
  else if bar = 2 ∧ off < 0x1000000 then some (.doorbell, off / 4096, off % 4096)
  else if bar = 4 ∧ off < 0x10000 then some (.msix, 0, off)
  else none

/-- What a read of `size` bytes at a place of a window returns, its latches aside: a doorbell page reads zero throughout
(R43, R61), and so does any access but a naturally aligned one of four bytes (R9). -/
def placeRead (s : State) (p : Blk × Nat × Nat) (size : Nat) : Nat :=
  if plainAccess p.2.2 size then wordView s p.1 p.2.1 p.2.2 else 0

/-! ### The rows -/

/-- REGISTER_WRITE. The gauge region (R43) and a doorbell page (R43, R61) have no field, so a write to them has no effect;
the doorbells themselves have rows of their own. -/
def execRegisterWrite (t : Fc) (b : Blk) (inst off : Nat) (v : Fin 4294967296) (size : Nat) (s : State) : Out :=
  atTime t (fun s => if plainAccess off size then writeReg s b inst off v else s) s

/-- RW1C_WRITE. -/
def execRw1cWrite (t : Fc) (b : Blk) (inst off : Nat) (v : Fin 4294967296) (size : Nat) (s : State) : Out :=
  atTime t (fun s => if plainAccess off size then clearReg s b inst off v else s) s

/-- ROL_READ. -/
def execRolRead (t : Fc) (b : Blk) (inst off size : Nat) (s : State) : Out :=
  atTime t (fun s => readRow s b inst off size fun f => f.acc == .rol) s

/-- LO_HALF_READ. -/
def execLoHalfRead (t : Fc) (b : Blk) (inst off size : Nat) (s : State) : Out :=
  atTime t (fun s => readRow s b inst off size isHalf) s

end Sys2Proof.Machine
end

