-- ==== Sys2Proof/Machine/Dispatch.lean ====
section
/-! DEFINITION. The dispatch: one arm for each constructor of `Instr`, a direct call of its meaning. -/

namespace Sys2Proof.Machine

/-- The effect of a command on everything but the queue. -/
def exec (i : Instr) (s : State) : Host.Outcome State Fault Refusal :=
  match i with
  | .arbRequest t inst reqs => Sys2Proof.Machine.execArbRequest t inst reqs s
  | .arbRelease t inst => Sys2Proof.Machine.execArbRelease t inst s
  | .tenureExpiry t inst => Sys2Proof.Machine.execTenureExpiry t inst s
  | .arbWithdraw t inst req => Sys2Proof.Machine.execArbWithdraw t inst req s
  | .emergencyRequest t inst => Sys2Proof.Machine.execEmergencyRequest t inst s
  | .emergencyGrantEnd t inst => Sys2Proof.Machine.execEmergencyGrantEnd t inst s
  | .clearCounts t inst => Sys2Proof.Machine.execClearCounts t inst s
  | .registerWrite t b inst off v size => Sys2Proof.Machine.execRegisterWrite t b inst off v size s
  | .rw1cWrite t b inst off v size => Sys2Proof.Machine.execRw1cWrite t b inst off v size s
  | .rolRead t b inst off size => Sys2Proof.Machine.execRolRead t b inst off size s
  | .loHalfRead t b inst off size => Sys2Proof.Machine.execLoHalfRead t b inst off size s
  | .ringEnable t ring => Sys2Proof.Machine.execRingEnable t ring s
  | .ringDisable t ring => Sys2Proof.Machine.execRingDisable t ring s
  | .cqEnable t cq => Sys2Proof.Machine.execCqEnable t cq s
  | .cqDisable t cq => Sys2Proof.Machine.execCqDisable t cq s
  | .queueEnable t q on => Sys2Proof.Machine.execQueueEnable t q on s
  | .queueHeadWrite t q idx ph => Sys2Proof.Machine.execQueueHeadWrite t q idx ph s
  | .tailDb t ring idx ph w => Sys2Proof.Machine.execTailDb t ring idx ph w s
  | .abortDb t ring idx w => Sys2Proof.Machine.execAbortDb t ring idx w s
  | .headDb t cq idx ph w => Sys2Proof.Machine.execHeadDb t cq idx ph w s
  | .descriptorFetch t ring d fault => Sys2Proof.Machine.execDescriptorFetch t ring d fault s
  | .tillAccept t => Sys2Proof.Machine.execTillAccept t s
  | .tillOutputWrite t => Sys2Proof.Machine.execTillOutputWrite t s
  | .completionWrite t => Sys2Proof.Machine.execCompletionWrite t s
  | .cqDelayExpiry t cq => Sys2Proof.Machine.execCqDelayExpiry t cq s
  | .hostLinkDown t x => Sys2Proof.Machine.execHostLinkDown t x s
  | .tickEdge t x saved => Sys2Proof.Machine.execTickEdge t x saved s
  | .gatherGroup t => Sys2Proof.Machine.execGatherGroup t s
  | .estimate t => Sys2Proof.Machine.execEstimate t s
  | .regionSelect t => Sys2Proof.Machine.execRegionSelect t s
  | .solve t => Sys2Proof.Machine.execSolve t s
  | .loop t => Sys2Proof.Machine.execLoop t s
  | .stageDrive t => Sys2Proof.Machine.execStageDrive t s
  | .stageSwitch t => Sys2Proof.Machine.execStageSwitch t s
  | .compute t => Sys2Proof.Machine.execCompute t s
  | .canStage t => Sys2Proof.Machine.execCanStage t s
  | .mirror t => Sys2Proof.Machine.execMirror t s
  | .lockstepMismatch t outputs => Sys2Proof.Machine.execLockstepMismatch t outputs s
  | .commitPoint c => Sys2Proof.Machine.execCommitPoint c s
  | .tillFlush t amps => Sys2Proof.Machine.execTillFlush t amps s
  | .patternLoad t r image => Sys2Proof.Machine.execPatternLoad t r image s
  | .patternAdmission t ecc => Sys2Proof.Machine.execPatternAdmission t ecc s
  | .tableSet t r image => Sys2Proof.Machine.execTableSet t r image s
  | .tableSetCheck t ecc => Sys2Proof.Machine.execTableSetCheck t ecc s
  | .promote t r => Sys2Proof.Machine.execPromote t r s
  | .tkeArm t saved => Sys2Proof.Machine.execTkeArm t saved s
  | .tkeDisarm t => Sys2Proof.Machine.execTkeDisarm t s
  | .rrecHeadWrite t idx ph => Sys2Proof.Machine.execRrecHeadWrite t idx ph s
  | .qualPost t r => Sys2Proof.Machine.execQualPost t r s
  | .envelopeSet t r => Sys2Proof.Machine.execEnvelopeSet t r s
  | .calSet t r => Sys2Proof.Machine.execCalSet t r s
  | .clsSelect t r => Sys2Proof.Machine.execClsSelect t r s
  | .impactPulseOpen t ch quiet x => Sys2Proof.Machine.execImpactPulseOpen t ch quiet x s
  | .impactPulseClose t ch x samples => Sys2Proof.Machine.execImpactPulseClose t ch x samples s
  | .impactStuck t ch samples => Sys2Proof.Machine.execImpactStuck t ch samples s
  | .frqEdge t n held => Sys2Proof.Machine.execFrqEdge t n held s
  | .quadEdge t pair a b => Sys2Proof.Machine.execQuadEdge t pair a b s
  | .quadZero t mask => Sys2Proof.Machine.execQuadZero t mask s
  | .digDebounceExpiry t n uv uvs => Sys2Proof.Machine.execDigDebounceExpiry t n uv uvs s
  | .excFault t cell ma mv => Sys2Proof.Machine.execExcFault t cell ma mv s
  | .ssupFaultOff t n ma mv since => Sys2Proof.Machine.execSsupFaultOff t n ma mv since s
  | .ssupRestart t n => Sys2Proof.Machine.execSsupRestart t n s
  | .ssupEnable t n en => Sys2Proof.Machine.execSsupEnable t n en s
  | .converterSwap t group gain offset => Sys2Proof.Machine.execConverterSwap t group gain offset s
  | .ztSettleExpiry t => Sys2Proof.Machine.execZtSettleExpiry t s
  | .ztWindowEnd t start => Sys2Proof.Machine.execZtWindowEnd t start s
  | .drvProfile t ch => Sys2Proof.Machine.execDrvProfile t ch s
  | .drvProp t ch => Sys2Proof.Machine.execDrvProp t ch s
  | .drvOff t ch => Sys2Proof.Machine.execDrvOff t ch s
  | .drvClear t ch present => Sys2Proof.Machine.execDrvClear t ch present s
  | .boostRequest t ch vbst => Sys2Proof.Machine.execBoostRequest t ch vbst s
  | .boostGapExpiry t bank vbst => Sys2Proof.Machine.execBoostGapExpiry t bank vbst s
  | .boostWaitExpiry t ch vbst => Sys2Proof.Machine.execBoostWaitExpiry t ch vbst s
  | .boostCurrentReached t c => Sys2Proof.Machine.execBoostCurrentReached t c s
  | .tBoostExpiry t c => Sys2Proof.Machine.execTBoostExpiry t c s
  | .tPeakExpiry t c => Sys2Proof.Machine.execTPeakExpiry t c s
  | .profileEndTime t c => Sys2Proof.Machine.execProfileEndTime t c s
  | .decayEnd t c slope => Sys2Proof.Machine.execDecayEnd t c slope s
  | .movementDetected t ch trace => Sys2Proof.Machine.execMovementDetected t ch trace s
  | .holdFloorHit t ch trace => Sys2Proof.Machine.execHoldFloorHit t ch trace s
  | .shotDue t ch => Sys2Proof.Machine.execShotDue t ch s
  | .offDiagSample t ch vl vh => Sys2Proof.Machine.execOffDiagSample t ch vl vh s
  | .drvChFault t ch f => Sys2Proof.Machine.execDrvChFault t ch f s
  | .drvOnOpenLoad t ch trace => Sys2Proof.Machine.execDrvOnOpenLoad t ch trace s
  | .dbkBankFault t bank code value since => Sys2Proof.Machine.execDbkBankFault t bank code value since s
  | .bankCheck t bank => Sys2Proof.Machine.execBankCheck t bank s
  | .derateApply t bank => Sys2Proof.Machine.execDerateApply t bank s
  | .swSet t ch => Sys2Proof.Machine.execSwSet t ch s
  | .swRearm t ch => Sys2Proof.Machine.execSwRearm t ch s
  | .wireModelUpdate t ch m => Sys2Proof.Machine.execWireModelUpdate t ch m s
  | .inrushExpiry t ch => Sys2Proof.Machine.execInrushExpiry t ch s
  | .thermLatchSet t ch tj => Sys2Proof.Machine.execThermLatchSet t ch tj s
  | .thermLatchClear t ch tj => Sys2Proof.Machine.execThermLatchClear t ch tj s
  | .feedUv t plane mv since => Sys2Proof.Machine.execFeedUv t plane mv since s
  | .uvRestartDelayExpiry t plane mv since => Sys2Proof.Machine.execUvRestartDelayExpiry t plane mv since s
  | .uvRestartStep t plane => Sys2Proof.Machine.execUvRestartStep t plane s
  | .retryRestart t ch => Sys2Proof.Machine.execRetryRestart t ch s
  | .retryWindowEnd t ch => Sys2Proof.Machine.execRetryWindowEnd t ch s
  | .openLoadDetect t ch ma since => Sys2Proof.Machine.execOpenLoadDetect t ch ma since s
  | .planeShed t plane amps since => Sys2Proof.Machine.execPlaneShed t plane amps since s
  | .shedRestore t plane amps since => Sys2Proof.Machine.execShedRestore t plane amps since s
  | .heartbeatRx x h => Sys2Proof.Machine.execHeartbeatRx x h s
  | .mirrorRx x row off entries => Sys2Proof.Machine.execMirrorRx x row off entries s
  | .commitRx x plane keep bid row periodUs cmds => Sys2Proof.Machine.execCommitRx x plane keep bid row periodUs cmds s
  | .takeoverRx x plane bid => Sys2Proof.Machine.execTakeoverRx x plane bid s
  | .fenceAckRx x bid => Sys2Proof.Machine.execFenceAckRx x bid s
  | .healthRx x words => Sys2Proof.Machine.execHealthRx x words s
  | .resyncRx x row item => Sys2Proof.Machine.execResyncRx x row item s
  | .serviceRx x words => Sys2Proof.Machine.execServiceRx x words s
  | .xlkBadFrame f => Sys2Proof.Machine.execXlkBadFrame f s
  | .xlkLinkUp t delayNs => Sys2Proof.Machine.execXlkLinkUp t delayNs s
  | .healthTx t meas => Sys2Proof.Machine.execHealthTx t meas s
  | .startingListenExpiry t saved => Sys2Proof.Machine.execStartingListenExpiry t saved s
  | .shadowRow t => Sys2Proof.Machine.execShadowRow t s
  | .forwardConfirmTimeout t => Sys2Proof.Machine.execForwardConfirmTimeout t s
  | .pairHandover t r => Sys2Proof.Machine.execPairHandover t r s
  | .handoverTimeout t => Sys2Proof.Machine.execHandoverTimeout t s
  | .ppsArm t plane => Sys2Proof.Machine.execPpsArm t plane s
  | .ppsDisarm t plane => Sys2Proof.Machine.execPpsDisarm t plane s
  | .safeNow t plane => Sys2Proof.Machine.execSafeNow t plane s
  | .clearBid t plane => Sys2Proof.Machine.execClearBid t plane s
  | .holdingTimeout t plane => Sys2Proof.Machine.execHoldingTimeout t plane s
  | .holdWindowExpiry t plane drive n => Sys2Proof.Machine.execHoldWindowExpiry t plane drive n s
  | .navSearch t q => Sys2Proof.Machine.execNavSearch t q s
  | .acqSearchDone t req antB sig sat aid found cn0 => Sys2Proof.Machine.execAcqSearchDone t req antB sig sat aid found cn0 s
  | .rtcmIn t r data slots => Sys2Proof.Machine.execRtcmIn t r data slots s
  | .channelLockLoss t antB sig sat next => Sys2Proof.Machine.execChannelLockLoss t antB sig sat next s
  | .navFilterStep t m => Sys2Proof.Machine.execNavFilterStep t m s
  | .timeSolution t a b unc far => Sys2Proof.Machine.execTimeSolution t a b unc far s
  | .leapDecode t leap => Sys2Proof.Machine.execLeapDecode t leap s
  | .holdoverEntry t eps tcxo => Sys2Proof.Machine.execHoldoverEntry t eps tcxo s
  | .pulseBoundary t tcxo => Sys2Proof.Machine.execPulseBoundary t tcxo s
  | .slewComplete t => Sys2Proof.Machine.execSlewComplete t s
  | .drTimeout t => Sys2Proof.Machine.execDrTimeout t s
  | .corrAgeExpiry t => Sys2Proof.Machine.execCorrAgeExpiry t s
  | .antOpen t antB isOpen => Sys2Proof.Machine.execAntOpen t antB isOpen s
  | .antShort t antB => Sys2Proof.Machine.execAntShort t antB s
  | .antSupplyRetry t antB gone => Sys2Proof.Machine.execAntSupplyRetry t antB gone s
  | .navSave t ephemeris almanac => Sys2Proof.Machine.execNavSave t ephemeris almanac s
  | .mapExtract t => Sys2Proof.Machine.execMapExtract t s
  | .tileLoadDone t slot ok key asc => Sys2Proof.Machine.execTileLoadDone t slot ok key asc s
  | .tileFlushDue t slot => Sys2Proof.Machine.execTileFlushDue t slot s
  | .tileFlushDone t slot ok key asc => Sys2Proof.Machine.execTileFlushDone t slot ok key asc s
  | .tileLoad t r => Sys2Proof.Machine.execTileLoad t r s
  | .tileWrite t r img => Sys2Proof.Machine.execTileWrite t r img s
  | .tileFlush t r => Sys2Proof.Machine.execTileFlush t r s
  | .storeRead t r => Sys2Proof.Machine.execStoreRead t r s
  | .storeWrite t r data => Sys2Proof.Machine.execStoreWrite t r data s
  | .storeLifePoll t a b eol => Sys2Proof.Machine.execStoreLifePoll t a b eol s
  | .tileRefresh t id => Sys2Proof.Machine.execTileRefresh t id s
  | .writeInline t r => Sys2Proof.Machine.execWriteInline t r s
  | .jrnWrite t r data => Sys2Proof.Machine.execJrnWrite t r data s
  | .jrnRead t r => Sys2Proof.Machine.execJrnRead t r s
  | .jovfCopy t => Sys2Proof.Machine.execJovfCopy t s
  | .camEnable t port => Sys2Proof.Machine.execCamEnable t port s
  | .camDisable t port => Sys2Proof.Machine.execCamDisable t port s
  | .camFs t port p => Sys2Proof.Machine.execCamFs t port p s
  | .camLine t port vc dt hdr crcOk px => Sys2Proof.Machine.execCamLine t port vc dt hdr crcOk px s
  | .camFe t p => Sys2Proof.Machine.execCamFe t p s
  | .camLinkLost t port => Sys2Proof.Machine.execCamLinkLost t port s
  | .camBufferFull t port => Sys2Proof.Machine.execCamBufferFull t port s
  | .camPowerFault t port on => Sys2Proof.Machine.execCamPowerFault t port on s
  | .fsyncTrigger t port => Sys2Proof.Machine.execFsyncTrigger t port s
  | .ispFrameStart t => Sys2Proof.Machine.execIspFrameStart t s
  | .ispFrameDone t port ecc out zones hist ir => Sys2Proof.Machine.execIspFrameDone t port ecc out zones hist ir s
  | .capture t r => Sys2Proof.Machine.execCapture t r s
  | .sensorWrite t r => Sys2Proof.Machine.execSensorWrite t r s
  | .sensorBurstDone t port acked => Sys2Proof.Machine.execSensorBurstDone t port acked s
  | .ispParams t r img => Sys2Proof.Machine.execIspParams t r img s
  | .vxaRun t r header body => Sys2Proof.Machine.execVxaRun t r header body s
  | .vxaJobDone t ecc out => Sys2Proof.Machine.execVxaJobDone t ecc out s
  | .canEnable t ctl => Sys2Proof.Machine.execCanEnable t ctl s
  | .send t r => Sys2Proof.Machine.execSend t r s
  | .canTxbFetch t ctl data => Sys2Proof.Machine.execCanTxbFetch t ctl data s
  | .canTxSelect t ctl => Sys2Proof.Machine.execCanTxSelect t ctl s
  | .canTxSuccess t ctl => Sys2Proof.Machine.execCanTxSuccess t ctl s
  | .canArbLoss t ctl => Sys2Proof.Machine.execCanArbLoss t ctl s
  | .canTxError t ctl exempt => Sys2Proof.Machine.execCanTxError t ctl exempt s
  | .canRx t ctl sof f => Sys2Proof.Machine.execCanRx t ctl sof f s
  | .canBusOff t ctl => Sys2Proof.Machine.execCanBusOff t ctl s
  | .recover t ctl => Sys2Proof.Machine.execRecover t ctl s
  | .canRecovered t ctl => Sys2Proof.Machine.execCanRecovered t ctl s
  | .ethTx t r data => Sys2Proof.Machine.execEthTx t r data s
  | .ethTxDone t port sof => Sys2Proof.Machine.execEthTxDone t port sof s
  | .ethRx t port sof fcsOk frame => Sys2Proof.Machine.execEthRx t port sof fcsOk frame s
  | .gptpMessage t port m corr => Sys2Proof.Machine.execGptpMessage t port m corr s
  | .ethLinkDown t port => Sys2Proof.Machine.execEthLinkDown t port s
  | .tc10Sleep t port => Sys2Proof.Machine.execTc10Sleep t port s
  | .tc10Wake t port => Sys2Proof.Machine.execTc10Wake t port s
  | .tc10WakeRx t port => Sys2Proof.Machine.execTc10WakeRx t port s
  | .fleEnable t => Sys2Proof.Machine.execFleEnable t s
  | .fleDisable t => Sys2Proof.Machine.execFleDisable t s
  | .peerSet t r => Sys2Proof.Machine.execPeerSet t r s
  | .peerSetTimeout t slot => Sys2Proof.Machine.execPeerSetTimeout t slot s
  | .sessionHandshake t slot cert => Sys2Proof.Machine.execSessionHandshake t slot cert s
  | .sessionRetry t slot => Sys2Proof.Machine.execSessionRetry t slot s
  | .keepaliveDue t slot => Sys2Proof.Machine.execKeepaliveDue t slot s
  | .peerTimeout t slot => Sys2Proof.Machine.execPeerTimeout t slot s
  | .certExpiry t slot => Sys2Proof.Machine.execCertExpiry t slot s
  | .deltaRx t slot raw rec sig => Sys2Proof.Machine.execDeltaRx t slot raw rec sig s
  | .announceRx t slot c => Sys2Proof.Machine.execAnnounceRx t slot c s
  | .statusRx t slot raw rec sig => Sys2Proof.Machine.execStatusRx t slot raw rec sig s
  | .summaryRx t slot figs => Sys2Proof.Machine.execSummaryRx t slot figs s
  | .certReqRx t slot raw => Sys2Proof.Machine.execCertReqRx t slot raw s
  | .byeRx t slot => Sys2Proof.Machine.execByeRx t slot s
  | .keepaliveRx t slot => Sys2Proof.Machine.execKeepaliveRx t slot s
  | .pubDue t slot => Sys2Proof.Machine.execPubDue t slot s
  | .strikeDecay t => Sys2Proof.Machine.execStrikeDecay t s
  | .evictHoldExpiry t slot => Sys2Proof.Machine.execEvictHoldExpiry t slot s
  | .behindCatchUp t slot => Sys2Proof.Machine.execBehindCatchUp t slot s
  | .statusPublish t r data => Sys2Proof.Machine.execStatusPublish t r data s
  | .memberEvict t r => Sys2Proof.Machine.execMemberEvict t r s
  | .publishNow t r => Sys2Proof.Machine.execPublishNow t r s
  | .pnlEnable t port => Sys2Proof.Machine.execPnlEnable t port s
  | .pnlDisable t port => Sys2Proof.Machine.execPnlDisable t port s
  | .update t r src => Sys2Proof.Machine.execUpdate t r src s
  | .pnlClear t r => Sys2Proof.Machine.execPnlClear t r s
  | .lineWriteStart t port => Sys2Proof.Machine.execLineWriteStart t port s
  | .lineWriteDone t port => Sys2Proof.Machine.execLineWriteDone t port s
  | .pnlTempSample t port tsns housing => Sys2Proof.Machine.execPnlTempSample t port tsns housing s
  | .vcomToggle t port => Sys2Proof.Machine.execVcomToggle t port s
  | .crackMeasure t port ohm => Sys2Proof.Machine.execCrackMeasure t port ohm s
  | .panelCrackClear t port => Sys2Proof.Machine.execPanelCrackClear t port s
  | .panelSupplyFault t port => Sys2Proof.Machine.execPanelSupplyFault t port s
  | .logicQualified t mv100 => Sys2Proof.Machine.execLogicQualified t mv100 s
  | .castOn t x => Sys2Proof.Machine.execCastOn t x s
  | .hostReady t => Sys2Proof.Machine.execHostReady t s
  | .powerFail t mv100 pages => Sys2Proof.Machine.execPowerFail t mv100 pages s
  | .aonLoss t mv100 => Sys2Proof.Machine.execAonLoss t mv100 s
  | .ignHigh t mv100 => Sys2Proof.Machine.execIgnHigh t mv100 s
  | .pwrIgnOff t mv100 => Sys2Proof.Machine.execPwrIgnOff t mv100 s
  | .bindStart t x => Sys2Proof.Machine.execBindStart t x s
  | .bindNow t x => Sys2Proof.Machine.execBindNow t x s
  | .bindTileTimeout t x => Sys2Proof.Machine.execBindTileTimeout t x s
  | .go t x => Sys2Proof.Machine.execGo t x s
  | .entryDrainEnd t x => Sys2Proof.Machine.execEntryDrainEnd t x s
  | .suspendReady t x => Sys2Proof.Machine.execSuspendReady t x s
  | .suspendTimeout t x => Sys2Proof.Machine.execSuspendTimeout t x s
  | .trimEnter t => Sys2Proof.Machine.execTrimEnter t s
  | .trimExit t => Sys2Proof.Machine.execTrimExit t s
  | .wakeEvent t sources => Sys2Proof.Machine.execWakeEvent t sources s
  | .deepDescent t => Sys2Proof.Machine.execDeepDescent t s
  | .aocReset t kind wipe confirm => Sys2Proof.Machine.execAocReset t kind wipe confirm s
  | .watchdogKick t => Sys2Proof.Machine.execWatchdogKick t s
  | .watchdogExpiry t => Sys2Proof.Machine.execWatchdogExpiry t s
  | .credSet t r ok cert market bytes => Sys2Proof.Machine.execCredSet t r ok cert market bytes s
  | .pubkeyGet t r => Sys2Proof.Machine.execPubkeyGet t r s
  | .lcChange t r token sigOk cut => Sys2Proof.Machine.execLcChange t r token sigOk cut s
  | .updOpen t r header => Sys2Proof.Machine.execUpdOpen t r header s
  | .updBlock t r tagOk fault => Sys2Proof.Machine.execUpdBlock t r tagOk fault s
  | .updClose t r => Sys2Proof.Machine.execUpdClose t r s
  | .activate t r => Sys2Proof.Machine.execActivate t r s
  | .activateCopyDone t fault => Sys2Proof.Machine.execActivateCopyDone t fault s
  | .activationReset t => Sys2Proof.Machine.execActivationReset t s
  | .confirm t r => Sys2Proof.Machine.execConfirm t r s
  | .ppsApply t r version => Sys2Proof.Machine.execPpsApply t r version s
  | .ppsApplyDone t plane => Sys2Proof.Machine.execPpsApplyDone t plane s
  | .updCancel t r => Sys2Proof.Machine.execUpdCancel t r s
  | .ceWriteback t tm word => Sys2Proof.Machine.execCeWriteback t tm word s
  | .eccUncorrectable t tm isAddr syndrome reader addr r => Sys2Proof.Machine.execEccUncorrectable t tm isAddr syndrome reader addr r s
  | .darnRead t tm cls syndrome => Sys2Proof.Machine.execDarnRead t tm cls syndrome s
  | .spareRowSwitch t row => Sys2Proof.Machine.execSpareRowSwitch t row s
  | .tlmSample t base plane die => Sys2Proof.Machine.execTlmSample t base plane die s
  | .ageingMeasure t m => Sys2Proof.Machine.execAgeingMeasure t m s
  | .roMeasure t slacks offset => Sys2Proof.Machine.execRoMeasure t slacks offset s
  | .bankReplan t bank => Sys2Proof.Machine.execBankReplan t bank s
  | .marginReset t r => Sys2Proof.Machine.execMarginReset t r s
  | .baseTempSample t temp => Sys2Proof.Machine.execBaseTempSample t temp s
  | .hostLinkUp t width speed => Sys2Proof.Machine.execHostLinkUp t width speed s
  | .xlkLinkDown t => Sys2Proof.Machine.execXlkLinkDown t s
  | .camLinkUp t port gear => Sys2Proof.Machine.execCamLinkUp t port gear s
  | .ethLinkUp t port => Sys2Proof.Machine.execEthLinkUp t port s
  | .planeSupervisorPowerLoss t plane => Sys2Proof.Machine.execPlaneSupervisorPowerLoss t plane s
  | .planeSupervisorPowerUp t plane => Sys2Proof.Machine.execPlaneSupervisorPowerUp t plane s
  | .dramTempAbove85c t above => Sys2Proof.Machine.execDramTempAbove85c t above s
  | .storeAccessDone t ok key asc data => Sys2Proof.Machine.execStoreAccessDone t ok key asc data s
  | .jrnAccessDone t ok => Sys2Proof.Machine.execJrnAccessDone t ok s
  | .updCloseDone t slot sigOk keyKnown fault => Sys2Proof.Machine.execUpdCloseDone t slot sigOk keyKnown fault s
  | .writeBudgetDayEnd t => Sys2Proof.Machine.execWriteBudgetDayEnd t s
  | .openLoadClear t ch ma => Sys2Proof.Machine.execOpenLoadClear t ch ma s
  | .inLimit t ch => Sys2Proof.Machine.execInLimit t ch s
  | .canRxError t ctl heavy => Sys2Proof.Machine.execCanRxError t ctl heavy s
  | .tc10SleepAck t port => Sys2Proof.Machine.execTc10SleepAck t port s
  | .logicThrottle t mv100 => Sys2Proof.Machine.execLogicThrottle t mv100 s

end Sys2Proof.Machine
end

