-- ==== Sys2Proof/Safety.lean ====
section
/-! DEFINITION. What the statements speak of: what a command may have changed, the canonical form of the state, and
the situations in which an arbiter, a ring or a queue is when a command meets it. -/

namespace Sys2Proof.Machine

/-- Every register field is as before but for those of the keys listed. -/
def RegsOnly (s u : State) (l : List Nat) : Prop := ∀ k, k ∉ l → tblGet? u.regs k = tblGet? s.regs k

/-- Nothing but the register fields of the keys listed has changed. -/
def OnlyRegs (s u : State) (l : List Nat) : Prop := u = { s with regs := u.regs } ∧ RegsOnly s u l

/-- Every register field of the blocks that are not listed is as before. -/
def BlocksOnly (s u : State) (l : List Blk) : Prop :=
  ∀ k, keyBlk k ∉ l.map blkCode → tblGet? u.regs k = tblGet? s.regs k

/-- The memory of both hosts is as before. -/
def SameMemory (s u : State) : Prop := u.mem = s.mem ∧ u.extMem = s.extMem

/-- No output, no bank and no plane supervisor has changed beside its registers. -/
def SameOutputs (s u : State) : Prop :=
  u.drv = s.drv ∧ u.dbk = s.dbk ∧ u.sw = s.sw ∧ u.feed = s.feed ∧ u.pps = s.pps

/-- The records of the drive banks are as before, but for the time at which a high side opened last. -/
def SameBanks (s u : State) : Prop := ∀ b, { getDbk u b with hsOpenAt := (getDbk s b).hsOpenAt } = getDbk s b

/-- The state is in canonical form: memories, and the register table. -/
def State.Canonical (s : State) : Prop :=
  Memory.wf s.mem = true ∧ Memory.wf s.extMem = true ∧ tblSorted s.regs = true

/-- The register fields that raising an event may write: the telemetry ring's and the journal's (R450–R452, R309). -/
def eventKeys : List Nat :=
  [R.HLM_TLM_WRITE_INDEX.key 0 0, R.HLM_TLM_WRITE_PHASE.key 0 0, R.HLM_TLM_DROPS_TLM_DROPS.key 0 0,
   R.HLM_TLM_DROPS_JRN_SUPPRESSED.key 0 0, R.JRN_STAT_EV_HEAD.key 0 0, R.JRN_OVF_OVF_LOST.key 0 0]

/-- No emergency request is made or served at an arbiter instance. -/
def ArbSt.calm (b : ArbSt) : Bool := b.emStart.isNone && b.emWait.isEmpty && b.resume.isNone

/-- A calm instance whose resource is free and for which nobody waits, in a cycle in which it has been told nothing. -/
def Arb.idle (a : Arb) : Bool :=
  a.st.calm && a.st.holder.isNone && a.st.want.isEmpty && a.ev == ArbEv.none_

end Sys2Proof.Machine
end

