-- ==== Sys2Proof/WellFormed.lean ====
section
/-! DEFINITION. Which commands are well formed: the bounds on operands that their types leave out. A ring is below
256 and a slot below 65,536 (R57, R62), a requester is one of its instance's (R27), a byte, word or quantity fits its
width, a register access lies in a window of 4 KiB (R47). -/

namespace Sys2Proof

def byteWf (n : Nat) : Bool := decide (n < 2 ^ 8)
def halfWf (n : Nat) : Bool := decide (n < 2 ^ 16)
def wordWf (n : Nat) : Bool := decide (n < 2 ^ 32)
def quadWf (n : Nat) : Bool := decide (n < 2 ^ 64)

def bytesWf (l : List Nat) : Bool := l.all byteWf
def wordsWf (l : List Nat) : Bool := l.all wordWf

/-- A ring and one of its slots. -/
def refWf (r : Ref) : Bool := decide (r.ring < 256) && halfWf r.slot

/-- Requesters of an arbiter instance (R27). -/
def requesterCount (inst : Fin 22) : Nat :=
  if inst.val = 0 then 49 else if inst.val < 5 then 10 else if inst.val = 21 then 5 else 7

def requesterWf (inst : Fin 22) (q : Nat) : Bool := decide (q < requesterCount inst)

/-- Instances of a block type (R46). -/
def Blk.instances : Blk → Nat
  | .arb => 22
  | .dbk => 12
  | .sbk => 12
  | .can => 8
  | .eth => 6
  | .cam => 4
  | .rng => 2
  | .pps => 2
  | .pnl => 2
  | .doorbell => 4096
  | _ => 1

/-- An access within a window: an instance that exists, a size the fabric carries, and an offset aligned to it. The
gauge region and the MSI-X window are wider than a register window (R42). -/
def accessWf (b : Blk) (inst off size : Nat) : Bool :=
  decide (inst < b.instances) && [1, 2, 4, 8].contains size && off % size == 0 && (b == .gauge || b == .msix || decide (off < 4096))

/-- A descriptor's 64 bytes (R67). -/
def descWf (d : Desc) : Bool :=
  byteWf d.cls && byteWf d.op && decide (d.reserved < 32) && byteWf d.version && wordWf d.classWord &&
    quadWf d.notBefore && decide (d.body.length = 12) && wordsWf d.body

def stampWf (x : Stamp) : Bool := quadWf x.t && halfWf x.c && decide (x.a < 1024)

def certWf (c : Cert) : Bool := c.uris.all bytesWf && bytesWf c.der

/-- A CAN frame: identifier of 11 or 29 bits, a data length code, and bytes (R349, R351). -/
def frameWf (f : CanFrame) : Bool :=
  decide (f.canId < if f.ide then 2 ^ 29 else 2 ^ 11) && decide (f.dlc < 16) && bytesWf f.data &&
    decide (f.data.length ≤ 64)

def heartbeatWf (h : Heartbeat) : Bool :=
  quadWf h.row && quadWf h.bid && decide (h.role < 8) && quadWf h.digest && wordWf h.epoch && quadWf h.edge

/-- Samples of inputs that exist (R141). -/
def samplesWf (x : SfeSamples) : Bool :=
  (x.gin.all fun g => decide (g.input < 64) && halfWf g.raw) && x.lcl.all fun c => decide (c.cell < 4)

def measWf (m : NavMeas) : Bool :=
  [m.speed, m.velN, m.velE, m.velU, m.roll, m.pitch, m.course, m.gyro].all wordWf

/-- A measurement of a monitor: KIND, INSTANCE and ITEM are bytes of its record (R459). -/
def ageMeasWf (m : AgeMeas) : Bool := byteWf m.kind && byteWf m.inst && byteWf m.item && wordWf m.value

/-- The command's operands keep their bounds. -/
def Instr.wf : Instr → Bool
  | .arbRequest _ inst reqs => reqs.all (requesterWf inst)
  | .arbWithdraw _ inst req => requesterWf inst req
  | .registerWrite _ b inst off _ size => accessWf b inst off size
  | .rw1cWrite _ b inst off _ size => accessWf b inst off size
  | .rolRead _ b inst off size => accessWf b inst off size
  | .loHalfRead _ b inst off size => accessWf b inst off size
  | .descriptorFetch _ _ d _ => descWf d
  | .tickEdge _ x _ => samplesWf x
  | .lockstepMismatch _ outputs => decide (outputs.length = 4)
  | .commitPoint c => wordsWf c.amps
  | .tillFlush _ amps => wordsWf amps
  | .patternLoad _ r image => refWf r && wordsWf image
  | .tableSet _ r image => refWf r && wordsWf image
  | .promote _ r => refWf r
  | .qualPost _ r => refWf r
  | .envelopeSet _ r => refWf r
  | .calSet _ r => refWf r
  | .clsSelect _ r => refWf r
  | .digDebounceExpiry _ _ uv uvs => wordWf uv && wordsWf uvs
  | .boostCurrentReached _ c => wordsWf c.trace
  | .tBoostExpiry _ c => wordsWf c.trace
  | .tPeakExpiry _ c => wordsWf c.trace
  | .profileEndTime _ c => wordsWf c.trace
  | .decayEnd _ c _ => wordsWf c.trace
  | .movementDetected _ _ trace => wordsWf trace
  | .holdFloorHit _ _ trace => wordsWf trace
  | .drvOnOpenLoad _ _ trace => wordsWf trace
  | .wireModelUpdate _ _ m => wordsWf m.own && wordsWf m.other
  | .heartbeatRx _ h => heartbeatWf h
  | .mirrorRx _ _ _ entries => entries.all quadWf
  | .commitRx _ _ _ bid _ _ _ => quadWf bid
  | .takeoverRx _ _ bid => quadWf bid
  | .fenceAckRx _ bid => quadWf bid
  | .healthRx _ words => wordsWf words
  | .serviceRx _ words => wordsWf words
  | .xlkBadFrame f => wordsWf f.words
  | .healthTx _ meas => decide (meas.length = 4)
  | .pairHandover _ r => refWf r
  | .navSearch _ q => refWf q.ref
  | .acqSearchDone _ req _ _ _ _ _ _ => req.all refWf
  | .rtcmIn _ r data _ => refWf r && bytesWf data
  | .navFilterStep _ m => measWf m
  | .tileLoad _ r => refWf r
  | .tileWrite _ r img => refWf r && wordsWf img
  | .tileFlush _ r => refWf r
  | .storeRead _ r => refWf r
  | .storeWrite _ r data => refWf r && bytesWf data
  | .writeInline _ r => refWf r
  | .jrnWrite _ r data => refWf r && bytesWf data
  | .jrnRead _ r => refWf r
  | .camLine _ _ _ _ _ _ px => px.all halfWf
  | .ispFrameDone _ _ _ _ zones hist _ => bytesWf zones && bytesWf hist
  | .capture _ r => refWf r
  | .sensorWrite _ r => refWf r
  | .ispParams _ r img => refWf r && wordsWf img
  | .vxaRun _ r header body => refWf r && wordsWf header && wordsWf body
  | .vxaJobDone _ _ out => bytesWf out
  | .send _ r => refWf r
  | .canTxbFetch _ _ data => bytesWf data
  | .canRx _ _ _ f => frameWf f
  | .ethTx _ r data => refWf r && bytesWf data
  | .ethRx _ _ _ _ frame => bytesWf frame
  | .peerSet _ r => refWf r
  | .sessionHandshake _ _ cert => cert.all certWf
  | .deltaRx _ _ raw _ _ => bytesWf raw
  | .announceRx _ _ c => certWf c
  | .statusRx _ _ raw _ _ => bytesWf raw
  | .summaryRx _ _ figs => figs.all stampWf
  | .certReqRx _ _ raw => bytesWf raw
  | .statusPublish _ r data => refWf r && bytesWf data
  | .memberEvict _ r => refWf r
  | .publishNow _ r => refWf r
  | .update _ r src => refWf r && bytesWf src
  | .pnlClear _ r => refWf r
  | .credSet _ r _ cert _ bytes => refWf r && cert.all certWf && bytesWf bytes
  | .pubkeyGet _ r => refWf r
  | .lcChange _ r token _ _ => refWf r && bytesWf token
  | .updOpen _ r header => refWf r && wordsWf header
  | .updBlock _ r _ _ => refWf r
  | .updClose _ r => refWf r
  | .activate _ r => refWf r
  | .confirm _ r => refWf r
  | .ppsApply _ r _ => refWf r
  | .updCancel _ r => refWf r
  | .eccUncorrectable _ _ _ _ _ _ r => r.all refWf
  | .ageingMeasure _ m => ageMeasWf m
  | .marginReset _ r => refWf r
  | .storeAccessDone _ _ _ _ data => bytesWf data
  | .arbRelease _ _
  | .tenureExpiry _ _
  | .emergencyRequest _ _
  | .emergencyGrantEnd _ _
  | .clearCounts _ _
  | .ringEnable _ _
  | .ringDisable _ _
  | .cqEnable _ _
  | .cqDisable _ _
  | .queueEnable _ _ _
  | .queueHeadWrite _ _ _ _
  | .tailDb _ _ _ _ _
  | .abortDb _ _ _ _
  | .headDb _ _ _ _ _
  | .tillAccept _
  | .tillOutputWrite _
  | .completionWrite _
  | .cqDelayExpiry _ _
  | .hostLinkDown _ _
  | .gatherGroup _
  | .estimate _
  | .regionSelect _
  | .solve _
  | .loop _
  | .stageDrive _
  | .stageSwitch _
  | .compute _
  | .canStage _
  | .mirror _
  | .patternAdmission _ _
  | .tableSetCheck _ _
  | .tkeArm _ _
  | .tkeDisarm _
  | .rrecHeadWrite _ _ _
  | .impactPulseOpen _ _ _ _
  | .impactPulseClose _ _ _ _
  | .impactStuck _ _ _
  | .frqEdge _ _ _
  | .quadEdge _ _ _ _
  | .quadZero _ _
  | .excFault _ _ _ _
  | .ssupFaultOff _ _ _ _ _
  | .ssupRestart _ _
  | .ssupEnable _ _ _
  | .converterSwap _ _ _ _
  | .ztSettleExpiry _
  | .ztWindowEnd _ _
  | .drvProfile _ _
  | .drvProp _ _
  | .drvOff _ _
  | .drvClear _ _ _
  | .boostRequest _ _ _
  | .boostGapExpiry _ _ _
  | .boostWaitExpiry _ _ _
  | .shotDue _ _
  | .offDiagSample _ _ _ _
  | .drvChFault _ _ _
  | .dbkBankFault _ _ _ _ _
  | .bankCheck _ _
  | .derateApply _ _
  | .swSet _ _
  | .swRearm _ _
  | .inrushExpiry _ _
  | .thermLatchSet _ _ _
  | .thermLatchClear _ _ _
  | .feedUv _ _ _ _
  | .uvRestartDelayExpiry _ _ _ _
  | .uvRestartStep _ _
  | .retryRestart _ _
  | .retryWindowEnd _ _
  | .openLoadDetect _ _ _ _
  | .planeShed _ _ _ _
  | .shedRestore _ _ _ _
  | .resyncRx _ _ _
  | .xlkLinkUp _ _
  | .startingListenExpiry _ _
  | .shadowRow _
  | .forwardConfirmTimeout _
  | .handoverTimeout _
  | .ppsArm _ _
  | .ppsDisarm _ _
  | .safeNow _ _
  | .clearBid _ _
  | .holdingTimeout _ _
  | .holdWindowExpiry _ _ _ _
  | .channelLockLoss _ _ _ _ _
  | .timeSolution _ _ _ _ _
  | .leapDecode _ _
  | .holdoverEntry _ _ _
  | .pulseBoundary _ _
  | .slewComplete _
  | .drTimeout _
  | .corrAgeExpiry _
  | .antOpen _ _ _
  | .antShort _ _
  | .antSupplyRetry _ _ _
  | .navSave _ _ _
  | .mapExtract _
  | .tileLoadDone _ _ _ _ _
  | .tileFlushDue _ _
  | .tileFlushDone _ _ _ _ _
  | .storeLifePoll _ _ _ _
  | .tileRefresh _ _
  | .jovfCopy _
  | .camEnable _ _
  | .camDisable _ _
  | .camFs _ _ _
  | .camFe _ _
  | .camLinkLost _ _
  | .camBufferFull _ _
  | .camPowerFault _ _ _
  | .fsyncTrigger _ _
  | .ispFrameStart _
  | .sensorBurstDone _ _ _
  | .canEnable _ _
  | .canTxSelect _ _
  | .canTxSuccess _ _
  | .canArbLoss _ _
  | .canTxError _ _ _
  | .canBusOff _ _
  | .recover _ _
  | .canRecovered _ _
  | .ethTxDone _ _ _
  | .gptpMessage _ _ _ _
  | .ethLinkDown _ _
  | .tc10Sleep _ _
  | .tc10Wake _ _
  | .tc10WakeRx _ _
  | .fleEnable _
  | .fleDisable _
  | .peerSetTimeout _ _
  | .sessionRetry _ _
  | .keepaliveDue _ _
  | .peerTimeout _ _
  | .certExpiry _ _
  | .byeRx _ _
  | .keepaliveRx _ _
  | .pubDue _ _
  | .strikeDecay _
  | .evictHoldExpiry _ _
  | .behindCatchUp _ _
  | .pnlEnable _ _
  | .pnlDisable _ _
  | .lineWriteStart _ _
  | .lineWriteDone _ _
  | .pnlTempSample _ _ _ _
  | .vcomToggle _ _
  | .crackMeasure _ _ _
  | .panelCrackClear _ _
  | .panelSupplyFault _ _
  | .logicQualified _ _
  | .castOn _ _
  | .hostReady _
  | .powerFail _ _ _
  | .aonLoss _ _
  | .ignHigh _ _
  | .pwrIgnOff _ _
  | .bindStart _ _
  | .bindNow _ _
  | .bindTileTimeout _ _
  | .go _ _
  | .entryDrainEnd _ _
  | .suspendReady _ _
  | .suspendTimeout _ _
  | .trimEnter _
  | .trimExit _
  | .wakeEvent _ _
  | .deepDescent _
  | .aocReset _ _ _ _
  | .watchdogKick _
  | .watchdogExpiry _
  | .activateCopyDone _ _
  | .activationReset _
  | .ppsApplyDone _ _
  | .ceWriteback _ _ _
  | .darnRead _ _ _ _
  | .spareRowSwitch _ _
  | .tlmSample _ _ _ _
  | .roMeasure _ _ _
  | .bankReplan _ _
  | .baseTempSample _ _
  | .hostLinkUp _ _ _
  | .xlkLinkDown _
  | .camLinkUp _ _ _
  | .ethLinkUp _ _
  | .planeSupervisorPowerLoss _ _
  | .planeSupervisorPowerUp _ _
  | .dramTempAbove85c _ _
  | .jrnAccessDone _ _
  | .updCloseDone _ _ _ _ _
  | .writeBudgetDayEnd _
  | .openLoadClear _ _ _
  | .inLimit _ _
  | .canRxError _ _ _
  | .tc10SleepAck _ _
  | .logicThrottle _ _ => true

end Sys2Proof
end

