-- ==== Sys2Proof/Certificates/Slice0/Obligations.lean ====
section
/-! DEFINITION. The statements for the provers. A clause about a command says, for every state and operands that
meet its hypotheses, what next state the command answers: `exec c s = .next u` with the whole of `u`, or what `u`
holds and what it leaves. -/

open Sys2Proof Sys2Proof.Machine

/-- For every command c and every state, step with c at the front of the queue is exec of c on the state with the rest of the queue. -/
def Obligations.StepRunsTheFrontCommand : Prop :=
  (∀ (s : State) (c : Instr) (rest : List Instr),
      step { s with pending := c :: rest } = exec c { s with pending := rest }) ∧
  (∀ (s : State),
      s.pending = [] →
      step s = .next s)

/-- For every command and every state exec answers a next state: no command of the table ends in a fault or a refusal. -/
def Obligations.CommandsNeverStop : Prop :=
  ∀ (s : State) (c : Instr),
      ∃ u, exec c s = .next u

/-- From every state in canonical form (both memories with addresses strictly rising and no byte equal to what an unlisted address reads as; register keys strictly rising) a step that answers a next state answers one in canonical form. -/
def Obligations.StepKeepsCanonicalForm : Prop :=
  ∀ (s u : State),
      s.Canonical →
      step s = .next u →
      u.Canonical

/-- For every state, a step that answers u leaves in the queue what stood behind the front command (nothing, on an empty queue), and the time of u is not before that of the state. The queue and the time operand are the model's own (log entries 1 and 2). -/
def Obligations.QueueTakenInOrder : Prop :=
  ∀ (s u : State),
      step s = .next u →
      u.pending = s.pending.drop 1 ∧ s.now ≤ u.now

/-- The state after reset is in canonical form, no command waits, the fabric is held in reset, no descriptor is outstanding, time and row counter are 0, and every register field reads the reset value of its descriptor. The initial life-cycle state and the fields for which the spec gives no reset value are the model's choice (log entries 6 and 7). -/
def Obligations.ResetState : Prop :=
  (      State.reset.Canonical) ∧
  (      (State.reset.pending = [] ∧ State.reset.reqs = [] ∧ State.reset.fabric = false ∧ State.reset.now = 0 ∧
       rowNow State.reset = 0)) ∧
  (∀ (f : Fld) (i j : Nat),
      rget State.reset f i j = f.resetAt i j)

/-- After a field is set, the same field, instance and index read the value kept to the field's width; every other field, and everything but the register table, is as before. -/
def Obligations.RegisterFieldReadBack : Prop :=
  ∀ (s : State) (f g : Fld) (v i j k l : Nat),
      (rget (rset s f v i j) f i j = v % 2 ^ f.width ∧
        (f.key i j ≠ g.key k l → rget (rset s f v i j) g k l = rget s g k l) ∧
        { rset s f v i j with regs := s.regs } = s)

/-- In a memory in canonical form, writing a byte makes that address read it, leaves every other address as it was, and keeps the canonical form; writing a list leaves every byte outside its range alone. -/
def Obligations.HostMemoryReadBack : Prop :=
  (∀ (m : Memory) (a c : Nat) (b : Byte),
      Memory.wf m = true →
      c ≠ a →
      (Memory.read (Memory.write m a b) a = b ∧ Memory.read (Memory.write m a b) c = Memory.read m c ∧
        Memory.wf (Memory.write m a b) = true)) ∧
  (∀ (m : Memory) (a c : Nat) (l : List Byte),
      (∀ k < l.length, c ≠ (a + k) % 2 ^ 64) →
      Memory.read (Memory.writeList m a l) c = Memory.read m c)

/-- With the fabric running, in every state and at every instance: ARB_REQUEST is heard, so that each requester named requests in the cycle of the command (R28); ARB_RELEASE while a requester holds, and TENURE_EXPIRY while a holder has run its tenure, end the grant with the cycle (R29); ARB_WITHDRAW is heard (R30, R31); EMERGENCY_REQUEST at an instance other than the till whose emergency requester is enabled adds a request (R32, R34), and at the till one for a queued fencing record while none waits (R33); EMERGENCY_GRANT_END during an emergency grant ends it with the cycle (R32), and at the till nothing more is served in it (R33); at the cross-link the end of a grant sends its frame (R230); CLEAR_COUNTS sets both counters to 0 (R41). What the cycle then grants is stated in Arbiters. -/
def Obligations.ArbiterCommandsComplete : Prop :=
  (∀ (s : State) (t : Nat) (n : Fin 22) (ps : List Nat),
      s.fabric = true →
      ∃ u, exec (.arbRequest t n ps) s = .next u ∧ (∀ p ∈ ps, p ∈ (getArb u n).ev.reqs) ∧ t ≤ (getArb u n).cyc ∧ SameMemory s u) ∧
  (∀ (s : State) (t : Nat) (n : Fin 22),
      s.fabric = true →
      n.val ≠ 21 →
      (arbNow (arbTo (arbAt s n t) n t) n).holder.isSome = true →
      ∃ u, exec (.arbRelease t n) s = .next u ∧ (getArb u n).ev.ended = true ∧ (camGranted s n t = false → SameMemory s u)) ∧
  (∀ (s : State) (t : Nat) (n : Fin 22) (g : Grant),
      s.fabric = true →
      n.val ≠ 0 →
      n.val ≠ 21 →
      (arbNow (arbTo s n t) n).holder = some g →
      g.start + g.left ≤ (getArb (arbTo s n t) n).cyc + 1 →
      ∃ u, exec (.tenureExpiry t n) s = .next u ∧ (getArb u n).ev.ended = true ∧ SameMemory s u) ∧
  (∀ (s : State) (t : Nat) (g : Grant),
      s.fabric = true →
      (arbNow (arbTo (tillTo s t) 0 t) 0).holder = some g →
      g.start + g.left ≤ (getArb (arbTo (tillTo s t) 0 t) 0).cyc + 1 →
      ∃ u, exec (.tenureExpiry t 0) s = .next u ∧ (getArb u 0).ev.ended = true ∧ SameMemory s u) ∧
  (∀ (s : State) (t : Nat) (g : Grant) (f : XFrame),
      s.fabric = true →
      (arbNow (arbTo s 21 t) 21).holder = some g →
      (getArb (arbTo s 21 t) 21).ev.ended = false →
      (s.xlk.out.find? fun f => f.req == some g.who) = some f →
      (s.xlk.out.erase f).any (fun h => h.req == some g.who) = false →
      ∃ u, exec (.arbRelease t 21) s = .next u ∧ u.xlk.out = s.xlk.out.erase f ∧ u.xlk.tx = tblSet s.xlk.tx f.typ f ∧ (getArb u 21).ev.ended = true) ∧
  (∀ (s : State) (t : Nat) (g : Grant) (f : XFrame),
      s.fabric = true →
      (arbNow (arbTo s 21 t) 21).holder = some g →
      (getArb (arbTo s 21 t) 21).ev.ended = false →
      (s.xlk.out.find? fun f => f.req == some g.who) = some f →
      (s.xlk.out.erase f).any (fun h => h.req == some g.who) = false →
      g.start + g.left ≤ (getArb (arbTo s 21 t) 21).cyc + 1 →
      ∃ u, exec (.tenureExpiry t 21) s = .next u ∧ u.xlk.out = s.xlk.out.erase f ∧ u.xlk.tx = tblSet s.xlk.tx f.typ f ∧ (getArb u 21).ev.ended = true) ∧
  (∀ (s : State) (t : Nat) (n : Fin 22) (p : Nat),
      s.fabric = true →
      ∃ u, exec (.arbWithdraw t n p) s = .next u ∧ p ∈ (getArb u n).ev.withdrawn ∧ t ≤ (getArb u n).cyc ∧ SameMemory s u) ∧
  (∀ (s : State) (t : Nat) (n : Fin 22),
      s.fabric = true →
      n.val ≠ 0 →
      arbEmOn s n = true →
      ∃ u, exec (.emergencyRequest t n) s = .next u ∧ (getArb u n).ev.emReqs = (getArb (arbTo s n t) n).ev.emReqs + 1 ∧ SameMemory s u) ∧
  (∀ (s : State) (t : Nat) (f : FenceRec),
      s.fabric = true →
      arbEmOn s 0 = true →
      f ∈ (tillTo s t).till.fenceQ →
      (tillTo s t).till.fenceAt = none →
      (getArb (tillTo s t) 0).st.emWait = [] →
      (getArb (tillTo s t) 0).ev.emReqs = 0 →
      ∃ u, exec (.emergencyRequest t 0) s = .next u ∧ (getArb u 0).st.emWait = [max t (getArb (tillTo s t) 0).cyc] ∧ SameMemory s u) ∧
  (∀ (s : State) (t : Nat) (n : Fin 22) (b : Nat),
      s.fabric = true →
      n.val ≠ 0 →
      n.val ≠ 21 →
      (getArb (arbTo s n t) n).st.emStart = some b →
      b ≤ (getArb (arbTo s n t) n).cyc →
      ∃ u, exec (.emergencyGrantEnd t n) s = .next u ∧ (getArb u n).ev.emEnded = true ∧ SameMemory s u) ∧
  (∀ (s : State) (t : Nat) (b : Nat),
      s.fabric = true →
      (getArb (arbTo (tillTo s t) 0 t) 0).st.emStart = some b →
      b ≤ (getArb (arbTo (tillTo s t) 0 t) 0).cyc →
      ∃ u, exec (.emergencyGrantEnd t 0) s = .next u ∧ (getArb u 0).ev.emEnded = true ∧ u.till.fenceAt = none ∧ SameMemory s u) ∧
  (∀ (s : State) (t : Nat) (n : Fin 22),
      s.fabric = true →
      ∃ u, exec (.clearCounts t n) s = .next u ∧ rget u R.ARB_PREEMPT_COUNT_COUNT n = 0 ∧ rget u R.ARB_DEAD_COUNT_COUNT n = 0 ∧ SameMemory s u)

/-- At an instance other than the till and the cross-link, standing in cycle t with nothing told: a requester of an idle instance is granted in the cycle of its request with the full tenure and moves to the lowest rank; where the resource is held, a request waits and changes neither holder nor rank; a release, and a tenure that ends, leave the resource to the following cycle; a withdrawal in the first cycle of a grant costs that cycle and is counted; a waiting requester that withdraws waits no more and its ticket is void; an emergency request that meets a holder with tenure left, no emergency grant having been made before, is granted from the next cycle, the holder keeps the rest of its tenure, the pre-emption is counted and the rank order stands; when the emergency grant ends, the pre-empted holder resumes in the following cycle. The release of the camera-write requester of a DRAM arbiter ends its burst: the first bytes of the buffer of the port next in rotation are written (R321). -/
def Obligations.Arbiters : Prop :=
  (∀ (s : State) (t : Nat) (n : Fin 22) (p : Nat),
      s.fabric = true →
      n.val ≠ 0 →
      (getArb s n).cyc = t →
      (getArb s n).idle = true →
      p ∈ (getArb s n).st.rank →
      p ∉ (getArb s n).masked →
      ∃ u, exec (.arbRequest t n [p]) s = .next u ∧ (arbNow u n).holder = some ⟨p, t, arbL s n⟩ ∧
        (arbNow u n).rank = (getArb s n).st.rank.erase p ++ [p] ∧ (arbNow u n).want = []) ∧
  (∀ (s : State) (t : Nat) (n : Fin 22) (p : Nat) (g : Grant),
      s.fabric = true →
      n.val ≠ 0 →
      n.val ≠ 21 →
      (getArb s n).cyc = t →
      (getArb s n).ev = ArbEv.none_ →
      (getArb s n).st.calm = true →
      (getArb s n).st.holder = some g →
      g.who ≠ p →
      (getArb s n).st.want = [] →
      p ∈ (getArb s n).st.rank →
      ∃ u, exec (.arbRequest t n [p]) s = .next u ∧ (arbNow u n).holder = some g ∧ (arbNow u n).rank = (getArb s n).st.rank ∧ (arbNow u n).want = [p] ∧
        u.reqs = s.reqs ∧ SameMemory s u) ∧
  (∀ (s : State) (t : Nat) (n : Fin 22) (g : Grant),
      s.fabric = true →
      n.val ≠ 0 →
      n.val ≠ 21 →
      (getArb s n).cyc = t →
      (getArb s n).ev = ArbEv.none_ →
      (getArb s n).st.calm = true →
      (getArb s n).st.holder = some g →
      (getArb s n).st.emLast = none →
      ∃ u, exec (.arbRelease t n) s = .next u ∧ (arbReach u n (t + 1)).1.st.holder = none ∧ (arbReach u n (t + 1)).1.st.rank = (getArb s n).st.rank ∧
        (arbReach u n (t + 1)).1.st.want = (getArb s n).st.want ∧ (arbReach u n (t + 1)).2 = (0, 0)) ∧
  (∀ (s : State) (t : Nat) (n : Fin 22) (g : Grant),
      s.fabric = true →
      n.val ≠ 0 →
      n.val ≠ 21 →
      (getArb s n).cyc = t →
      (getArb s n).ev = ArbEv.none_ →
      (getArb s n).st.calm = true →
      (getArb s n).st.holder = some g →
      (getArb s n).st.emLast = none →
      g.start + g.left ≤ t + 1 →
      ∃ u, exec (.tenureExpiry t n) s = .next u ∧ (arbReach u n (t + 1)).1.st.holder = none ∧ (arbReach u n (t + 1)).1.st.rank = (getArb s n).st.rank ∧
        (arbReach u n (t + 1)).1.st.want = (getArb s n).st.want ∧ (arbReach u n (t + 1)).2 = (0, 0)) ∧
  (∀ (s : State) (t : Nat) (n : Fin 22) (p : Nat),
      s.fabric = true →
      n.val ≠ 0 →
      (getArb s n).cyc = t →
      (getArb s n).st.calm = true →
      (getArb s n).st.holder = none →
      (getArb s n).st.want = [] →
      (getArb s n).ev = { ArbEv.none_ with reqs := [p] } →
      p ∈ (getArb s n).st.rank →
      p ∉ (getArb s n).masked →
      ∃ u, exec (.arbWithdraw t n p) s = .next u ∧ (arbReach u n (t + 1)).1.st.holder = none ∧ (arbReach u n (t + 1)).1.st.want = [] ∧ (arbReach u n (t + 1)).2 = (0, 1)) ∧
  (∀ (s : State) (t : Nat) (n : Fin 22) (p : Nat) (g : Grant),
      s.fabric = true →
      n.val ≠ 0 →
      n.val ≠ 21 →
      (getArb s n).cyc = t →
      (getArb s n).ev = ArbEv.none_ →
      (getArb s n).st.calm = true →
      (getArb s n).st.holder = some g →
      g.who ≠ p →
      ∃ u, exec (.arbWithdraw t n p) s = .next u ∧ (arbNow u n).want = (getArb s n).st.want.filter (· != p) ∧ tblGet? (getArb u n).tickets p = none ∧
        (arbNow u n).rank = (getArb s n).st.rank ∧ (arbNow u n).holder = some g ∧ SameMemory s u) ∧
  (∀ (s : State) (t : Nat) (n : Fin 22) (g : Grant),
      s.fabric = true →
      n.val ≠ 0 →
      n.val ≠ 21 →
      (getArb s n).cyc = t →
      (getArb s n).ev = ArbEv.none_ →
      (getArb s n).st.calm = true →
      arbEmOn s n = true →
      (getArb s n).st.emLast = none →
      (getArb s n).st.holder = some g →
      t + 1 < g.start + g.left →
      ∃ u, exec (.emergencyRequest t n) s = .next u ∧ (arbReach u n (t + 1)).1.st.emStart = some (t + 1) ∧ (arbReach u n (t + 1)).1.st.holder = none ∧
        (arbReach u n (t + 1)).1.st.resume = some ⟨g.who, t + 1, g.start + g.left - (t + 1)⟩ ∧ (arbReach u n (t + 1)).1.st.rank = (getArb s n).st.rank ∧
        (arbReach u n (t + 1)).2 = (1, 0) ∧ SameMemory s u) ∧
  (∀ (s : State) (t : Nat) (n : Fin 22) (b : Nat) (g : Grant),
      s.fabric = true →
      n.val ≠ 0 →
      n.val ≠ 21 →
      (getArb s n).cyc = t →
      (getArb s n).ev = ArbEv.none_ →
      (getArb s n).st.emStart = some b →
      b ≤ t →
      (getArb s n).st.holder = none →
      (getArb s n).st.resume = some g →
      ∃ u, exec (.emergencyGrantEnd t n) s = .next u ∧ (arbReach u n (t + 1)).1.st.emStart = none ∧ (arbReach u n (t + 1)).1.st.resume = none ∧
        (arbReach u n (t + 1)).1.st.holder = some { g with start := t + 1 } ∧ (arbReach u n (t + 1)).1.st.rank = (getArb s n).st.rank ∧ SameMemory s u) ∧
  (∀ (s u : State) (c : Instr) (t : Nat) (n : Fin 22) (p : Nat) (ps : List Nat),
      c ∈ [Instr.arbRequest t n ps, .arbRelease t n, .tenureExpiry t n, .arbWithdraw t n p, .emergencyRequest t n,
         .emergencyGrantEnd t n, .clearCounts t n] →
      n.val ≠ 0 →
      n.val ≠ 21 →
      (c = .arbRelease t n → camGranted s n t = false) →
      exec c s = .next u →
      (u = { s with regs := u.regs, arbs := u.arbs, rolLatch := u.rolLatch } ∧ BlocksOnly s u [.arb])) ∧
  (∀ (s : State) (t : Nat) (n : Fin 22) (p : Nat) (a : Nat) (bs : List Byte) (q : List (Nat × List Byte)),
      s.fabric = true →
      camGranted s n t = true →
      s.vis.burstAt = p →
      p < 4 →
      (tblGetD s.vis.cams p Cam.idle).buf = (a, bs) :: q →
      bs.length ≤ 256 →
      ∃ u, exec (.arbRelease t n) s = .next u ∧ (tblGetD u.vis.cams p Cam.idle).buf = q ∧ u.vis.burstAt = (p + 1) % 4 ∧ u.mem = Memory.writeList s.mem a bs ∧
        u.extMem = s.extMem ∧ u.reqs = s.reqs)

/-- CLEAR_COUNTS sets the pre-emption and dead-cycle counters to 0; a counter that increments in the cycle of the write reads 1 afterwards: what the register holds and what the close of that cycle adds come to 1 where that cycle counts, else to 0. -/
def Obligations.ArbiterCountersCleared : Prop :=
  ∀ (s : State) (t : Nat) (n : Fin 22),
      s.fabric = true →
      n.val ≠ 0 →
      (getArb s n).cyc ≤ t →
      ∃ u, exec (.clearCounts t n) s = .next u ∧ 
        rget u R.ARB_PREEMPT_COUNT_COUNT n + (arbReach u n (t + 1)).2.1 = b2n ((getArb u n).close (arbLim s n)).preempt ∧
        rget u R.ARB_DEAD_COUNT_COUNT n + (arbReach u n (t + 1)).2.2 = b2n ((getArb u n).close (arbLim s n)).dead ∧
        getArb u n = getArb (arbTo s n t) n ∧ SameMemory s u

/-- With the window open (the fabric running, R46, R407) and a naturally aligned access of four bytes, REGISTER_WRITE writes each writable field of the register and RW1C_WRITE clears the bits written 1; ROL_READ and LO_HALF_READ read a register with such a field and release its latch. With the fabric running: RING_ENABLE, RING_DISABLE, CQ_ENABLE, CQ_DISABLE, QUEUE_ENABLE, QUEUE_HEAD_WRITE, RREC_HEAD_WRITE act as R55 to R60 state; TAIL_DB, ABORT_DB and HEAD_DB of four bytes through the path of an enabled ring act as R62, R66 and R71 state; DESCRIPTOR_FETCH takes the next descriptor when a completion slot is free (R64); TILL_ACCEPT takes the record of the producer that the till grants (R68); TILL_OUTPUT_WRITE moves an accepted record 8 fc old (R37); COMPLETION_WRITE writes the entry in front (R65); CQ_DELAY_EXPIRY raises the interrupt (R65); HOST_LINK_DOWN takes the link down and copies the AER status (R75, R365), HOST_LINK_UP at a width of 1, 2 or 4 and a speed of 1 to 4 brings it up (R362). -/
def Obligations.RegistersAndRingsComplete : Prop :=
  (∀ (s : State) (t : Fc) (b : Blk) (inst off : Nat) (v : Fin 4294967296),
      windowOpen s b inst = true →
      off % 4 = 0 →
      exec (.registerWrite t b inst off v 4) s = .next ((fieldsAt b inst off).foldl (fun a x =>
          fieldWrite (advance s t) a x.1 x.2.1 x.2.2 (bitField v x.1.lsb x.1.width)) (advance s t))) ∧
  (∀ (s : State) (t : Fc) (b : Blk) (inst off : Nat) (v : Fin 4294967296),
      windowOpen s b inst = true →
      off % 4 = 0 →
      exec (.rw1cWrite t b inst off v 4) s = .next ((fieldsAt b inst off).foldl (fun a x =>
          if x.1.acc = .rw1c && !x.1.ownRow then clearOnes a x.1 (bitField v x.1.lsb x.1.width) x.2.1 x.2.2 else a) (advance s t))) ∧
  (∀ (s : State) (t : Fc) (b : Blk) (inst off : Nat),
      windowOpen s b inst = true →
      off % 4 = 0 →
      ((fieldsAt b inst off).any fun x => x.1.acc == .rol) = true →
      exec (.rolRead t b inst off 4) s = .next (readReg (advance s t) b inst off)) ∧
  (∀ (s : State) (t : Fc) (b : Blk) (inst off : Nat),
      windowOpen s b inst = true →
      off % 4 = 0 →
      ((fieldsAt b inst off).any fun x => isHalf x.1) = true →
      exec (.loHalfRead t b inst off 4) s = .next (readReg (advance s t) b inst off)) ∧
  (∀ (s : State) (t : Fc) (n : Fin 256),
      s.fabric = true →
      ringEnabled s n = false →
      ringIdle s n = true →
      classDefined (rget s R.RING_CFG_CLASS 0 n) = true →
      cqEnabled s (ringCq s n) = true →
      rget s R.CQ_CFG_HOST 0 (ringCq s n) = rget s R.RING_CFG_HOST 0 n →
      ∃ u, exec (.ringEnable t n) s = .next u ∧ ringEnabled u n = true ∧ ringPos 2 (rget u R.RING_HEAD_INDEX 0 n) (rget u R.RING_HEAD_PHASE 0 n) = 0) ∧
  (∀ (s : State) (t : Fc) (n : Fin 256),
      s.fabric = true →
      ringEnabled s n = true →
      exec (.ringDisable t n) s = .next ((ringRefs s n).foldl abortDesc (rset (advance s t) R.RING_CTRL_ENABLE 0 0 n))) ∧
  (∀ (s : State) (t : Fc) (n : Fin 256) (i : Fin 65536) (p : Fin 2) (h : Bool),
      s.fabric = true →
      rbit s R.RING_CFG_HOST 0 n = h →
      ringEnabled s n = true →
      rbit s R.RING_CTRL_ERROR 0 n = false →
      i.val < ringSize s n →
      ringCount s n + ringDist (ringSize s n) (ringPos (ringSize s n) (rget s R.RING_TAIL_INDEX 0 n) (rget s R.RING_TAIL_PHASE 0 n)) (ringPos (ringSize s n) i p) ≤ ringSize s n →
      disableNow (advance s t) n = false →
      ∃ u, exec (.tailDb t n i p ⟨h, 4⟩) s = .next u ∧ rget u R.RING_TAIL_INDEX 0 n = i ∧ rget u R.RING_TAIL_PHASE 0 n = p ∧
        (u.reqs.map Req.ref).length = s.reqs.length + ringDist (ringSize s n) (ringPos (ringSize s n) (rget s R.RING_TAIL_INDEX 0 n) (rget s R.RING_TAIL_PHASE 0 n)) (ringPos (ringSize s n) i p)) ∧
  (∀ (s : State) (t : Fc) (n : Fin 256) (i : Fin 65536) (h : Bool) (q : Req),
      s.fabric = true →
      rbit s R.RING_CFG_HOST 0 n = h →
      ringOpen (advance s t) n = true →
      ((sameSlot s n i).find? fun q => q.aborted.isNone) = some q →
      (∀ b, s.till.abortAt = some b → b < max s.now t) →
      exec (.abortDb t n i ⟨h, 4⟩) s = .next (abortDesc { advance s t with till := { s.till with abortAt := some (max s.now t) } } q.ref)) ∧
  (∀ (s : State) (t : Fc) (m : Fin 64),
      s.fabric = true →
      cqEnabled s m = false →
      ∃ u, exec (.cqEnable t m) s = .next u ∧ cqEnabled u m = true ∧ rget u R.CQ_FREE_FREE 0 m = cqSize s m % 2 ^ 17) ∧
  (∀ (s : State) (t : Fc) (m : Fin 64),
      s.fabric = true →
      (∀ n < 256, ringEnabled s n = false ∨ ringCq s n ≠ m) →
      ∃ u, exec (.cqDisable t m) s = .next u ∧ cqEnabled u m = false) ∧
  (∀ (s : State) (t : Fc) (q : WriteQueue) (on : Bool),
      s.fabric = true →
      ∃ u, exec (.queueEnable t q on) s = .next u ∧ rbit u (queueOf q).1.enable (queueOf q).2.1 (queueOf q).2.2 = on) ∧
  (∀ (s : State) (t : Fc) (q : WriteQueue) (i : Fin 65536) (p : Fin 2),
      s.fabric = true →
      ∃ u, exec (.queueHeadWrite t q i p) s = .next u ∧ rget u (queueOf q).1.headIdx (queueOf q).2.1 (queueOf q).2.2 = i ∧
        rget u (queueOf q).1.headPh (queueOf q).2.1 (queueOf q).2.2 = p) ∧
  (∀ (s : State) (t : Fc) (i : Fin 65536) (p : Fin 2),
      s.fabric = true →
      ∃ u, exec (.rrecHeadWrite t i p) s = .next u ∧ rget u R.TKE_RREC_HEAD_INDEX = i ∧ rget u R.TKE_RREC_HEAD_PHASE = p) ∧
  (∀ (s : State) (t : Fc) (m : Fin 64) (i : Fin 65536) (p : Fin 2) (h : Bool),
      s.fabric = true →
      rbit s R.CQ_CFG_HOST 0 m = h →
      cqEnabled s m = true →
      i.val < cqSize s m →
      ringDist (cqSize s m) (ringPos (cqSize s m) (rget s R.CQ_HEAD_INDEX 0 m) (rget s R.CQ_HEAD_PHASE 0 m)) (ringPos (cqSize s m) i p) ≤
        ringDist (cqSize s m) (ringPos (cqSize s m) (rget s R.CQ_HEAD_INDEX 0 m) (rget s R.CQ_HEAD_PHASE 0 m))
          (ringPos (cqSize s m) (rget s R.CQ_WRITE_INDEX 0 m) (rget s R.CQ_WRITE_PHASE 0 m)) →
      ∃ u, exec (.headDb t m i p ⟨h, 4⟩) s = .next u ∧ rget u R.CQ_HEAD_INDEX 0 m = i ∧ rget u R.CQ_HEAD_PHASE 0 m = p) ∧
  (∀ (s : State) (t : Fc) (n : Fin 256) (q : Req) (d : Desc),
      s.fabric = true →
      s.aoc.entry = none →
      nextWaiting s n = some q →
      q.aborted = none →
      ringEnabled s n = true →
      cqEnabled s (ringCq s n) = true →
      rget s R.CQ_FREE_FREE 0 (ringCq s n) ≠ 0 →
      (d.fence = false ∨ fenceClear s q = true) →
      headerError d q.phase (rget s R.RING_CFG_CLASS 0 n) = none →
      ((d.cls = 2 ∨ d.cls = 3) → d.classWord % 128 ≤ 95) →
      ((s.vis.offs.any fun x => x.1 == q.ref && x.2.1 == d.classWord % 4) = false ∨ d.cls ≠ 4) →
      ∃ u, exec (.descriptorFetch t n d false) s = .next u ∧ u.reqs = (updReq s q.ref fun q => { q with desc := some d, stage := .held, order := s.fetches + 1 }).reqs ∧
        u.regs = (fetchTake s n).regs) ∧
  (∀ (s : State) (t : Fc) (s1 : State) (g : Grant) (r : TillRec),
      s.fabric = true →
      s1 = arbRequest (tillTo (tillMask (advance s t)) (max s.now t)) 0 (max s.now t)
        (((s.till.posted.map (·.prod)).eraseDups).filter fun p =>
          !((arbNow (tillTo (tillMask (advance s t)) (max s.now t)) 0).holder.any fun g => g.who == p)) →
      (arbNow s1 0).holder = some g →
      firstPosted s1 g.who = some r →
      (getArb s1 0).ev.ended = false →
      ∃ u, exec (.tillAccept t) s = .next u ∧ (max s.now t, r) ∈ u.till.accepted ∧ u.till.posted = s.till.posted.erase r) ∧
  (∀ (s : State) (t : Fc) (a : Nat) (r : TillRec) (rest : List (Nat × TillRec)),
      s.fabric = true →
      s.till.accepted = (a, r) :: rest →
      a + 8 ≤ max s.now t →
      ∃ u, exec (.tillOutputWrite t) s = .next u ∧ u.till.outQ = s.till.outQ ++ outEntries r) ∧
  (∀ (s : State) (t : Fc) (r : Ref) (rest : List OutEntry) (q : Req) (n time : Nat) (c : Compl),
      s.fabric = true →
      dropPlain s.till.outQ = .completion r :: rest →
      findReq s r = some q →
      q.stage = .sequenced n c time →
      cqEnabled s (ringCq s r.ring) = true →
      ∃ u, exec (.completionWrite t) s = .next u ∧ u.till.outQ = rest ∧ u.reqs = s.reqs.filter (fun p => p.ref != r)) ∧
  (∀ (s : State) (t : Fc) (m : Fin 64) (k : CqIrq),
      s.fabric = true →
      tblGet? s.cqIrq m = some k →
      0 < k.unsignalled →
      rget s R.CQ_MOD_DELAY 0 m ≠ 0 →
      k.firstAt + rget s R.CQ_MOD_DELAY 0 m * 400 ≤ max s.now t →
      rbit s R.CQ_CFG_IRQ_EN 0 m = true →
      exec (.cqDelayExpiry t m) s = .next (cqRaise (advance s t) m)) ∧
  (∀ (s : State) (t : Fc) (x : LinkDown),
      s.fabric = true →
      rbit s R.HLK_STATUS_LINK_UP = true →
      ∃ u, exec (.hostLinkDown t x) s = .next u ∧ rbit u R.HLK_STATUS_LINK_UP = false ∧ rget u R.HLK_AER_UNCORR = x.uncorr % 65536 ∧
        rget u R.HLK_AER_CORR = x.corr % 65536) ∧
  (∀ (s : State) (t : Fc) (w v : Fin 8),
      s.fabric = true →
      (w.val = 1 ∨ w.val = 2 ∨ w.val = 4) →
      1 ≤ v.val →
      v.val ≤ 4 →
      ∃ u, exec (.hostLinkUp t w v) s = .next u ∧ rbit u R.HLK_STATUS_LINK_UP = true ∧ rget u R.HLK_STATUS_WIDTH = w ∧ rget u R.HLK_STATUS_SPEED = v)

/-- A write of another size or alignment changes nothing. A write to AOC_WAKE_TOL stores the word. TKE_TICK_PERIOD takes a period of 250 to 20,000 us while the TKE is not armed, and is left as it is when the TKE is armed or the period is outside that range. A 1 written to BIND_ABORTED clears it, unless the module set it in the same fabric cycle. A read of TKE_PEAK returns the peak latched since the previous read and releases the latch. A read of TKE_ROW_LO returns the low word and latches the high word; a read of TKE_ROW_HI then returns the latched word once, whatever the counter has become. A read of another size or alignment returns 0 and releases no latch. -/
def Obligations.RegisterWrites : Prop :=
  (∀ (s : State) (t : Fc) (b : Blk) (inst off : Nat) (v : Fin 4294967296) (size : Nat),
      (off % 4 ≠ 0 ∨ size ≠ 4) →
      exec (.registerWrite t b inst off v size) s = .next (advance s t)) ∧
  (∀ (s : State) (t : Fc) (v : Fin 4294967296),
      s.fabric = true →
      exec (.registerWrite t .aoc 0 0x004 v 4) s = .next (rset (advance s t) R.AOC_WAKE_TOLERANCE_US v)) ∧
  (∀ (s : State) (t : Fc) (v : Fin 4294967296),
      s.fabric = true →
      tkeArmed s = false →
      250 ≤ v.val →
      v.val ≤ 20000 →
      exec (.registerWrite t .tke 0 0x000 v 4) s = .next (rset (advance s t) R.TKE_TICK_PERIOD_PERIOD_US v)) ∧
  (∀ (s : State) (t : Fc) (v : Fin 4294967296),
      s.fabric = true →
      (tkeArmed s = true ∨ v.val % 32768 < 250 ∨ 20000 < v.val % 32768) →
      exec (.registerWrite t .tke 0 0x000 v 4) s = .next (advance s t)) ∧
  (∀ (s : State) (t : Fc),
      s.fabric = true →
      rget s R.AOC_PWR_STATE_BIND_ABORTED = 1 →
      tblGet? s.onesAt (32 * R.AOC_PWR_STATE_BIND_ABORTED.key 0 0) ≠ some (max s.now t) →
      exec (.rw1cWrite t .aoc 0 0x000 4096 4) s = .next (rset (advance s t) R.AOC_PWR_STATE_BIND_ABORTED 0)) ∧
  (∀ (s : State) (t : Fc),
      s.fabric = true →
      tblGet? s.onesAt (32 * R.AOC_PWR_STATE_BIND_ABORTED.key 0 0) = some (max s.now t) →
      exec (.rw1cWrite t .aoc 0 0x000 4096 4) s = .next (advance s t)) ∧
  (∀ (s : State) (t : Fc) (a w b : Nat),
      s.fabric = true →
      tblGet? s.rolLatch (R.TKE_PEAK_FC.key 0 0) = some ⟨a, some w, none, b⟩ →
      a < max s.now t →
      tblGet? s.hiLatch (R.TKE_PEAK_FC.key 0 0) = none →
      exec (.rolRead t .tke 0 0x030 4) s = .next ({ advance s t with readData := w, rolLatch := tblErase s.rolLatch (R.TKE_PEAK_FC.key 0 0) })) ∧
  (∀ (s : State) (t : Fc),
      s.fabric = true →
      s.hiLatch = [] →
      exec (.loHalfRead t .tke 0 0x018 4) s = .next ({ advance s t with
          readData := rget s R.TKE_ROW_LO_ROW % 2 ^ 32,
          hiLatch := [(R.TKE_ROW_HI_ROW.key 0 0, rget s R.TKE_ROW_HI_ROW % 2 ^ 32)] })) ∧
  (∀ (s : State) (t : Fc) (v : Nat),
      s.fabric = true →
      s.hiLatch = [(R.TKE_ROW_HI_ROW.key 0 0, v)] →
      exec (.loHalfRead t .tke 0 0x01C 4) s = .next ({ advance s t with readData := v, hiLatch := [] })) ∧
  (∀ (s : State) (t : Fc) (b : Blk) (inst off size : Nat),
      (off % 4 ≠ 0 ∨ size ≠ 4) →
      (exec (.rolRead t b inst off size) s = .next { advance s t with readData := 0 } ∧
        exec (.loHalfRead t b inst off size) s = .next { advance s t with readData := 0 }))

/-- Enabling an idle submission ring of a defined class, bound to an enabled completion ring of its host, clears head and tail to index 0 phase 1, clears both counters, ERROR and ERR_CODE, and sets ENABLE; otherwise ERR_CODE becomes 4 and nothing else changes. Enabling a completion ring resets its write slot and head and frees all its slots; disabling it clears ENABLE, and has no effect while an enabled ring is bound to it. Disabling an idle submission ring clears ENABLE alone. Of a queue without descriptors (CAN, Ethernet, fleet, telemetry, row summary) a change of ENABLE from 0 to 1 puts write slot and head to slot 0 with phase 1 and sets ENABLE; a write of 0 clears ENABLE alone; a head write stores index and phase and changes nothing else. -/
def Obligations.RingEnabling : Prop :=
  (∀ (s : State) (t : Fc) (n : Fin 256),
      s.fabric = true →
      ringEnabled s n = false →
      ringIdle s n = true →
      classDefined (rget s R.RING_CFG_CLASS 0 n) = true →
      cqEnabled s (ringCq s n) = true →
      rget s R.CQ_CFG_HOST 0 (ringCq s n) = rget s R.RING_CFG_HOST 0 n →
      ∃ u, exec (.ringEnable t n) s = .next u ∧ (rget u R.RING_HEAD_INDEX 0 n = 0 ∧ rget u R.RING_HEAD_PHASE 0 n = 1 ∧ rget u R.RING_TAIL_INDEX 0 n = 0 ∧
        rget u R.RING_TAIL_PHASE 0 n = 1 ∧ rget u R.RING_NOOP_ABORT_NOOP 0 n = 0 ∧ rget u R.RING_NOOP_DB_DISCARD 0 n = 0 ∧
        rget u R.RING_CTRL_ERROR 0 n = 0 ∧ rget u R.RING_CTRL_ERR_CODE 0 n = 0 ∧ rget u R.RING_CTRL_ENABLE 0 n = 1) ∧
        OnlyRegs (advance s t) u [R.RING_HEAD_INDEX.key 0 n, R.RING_HEAD_PHASE.key 0 n, R.RING_TAIL_INDEX.key 0 n,
          R.RING_TAIL_PHASE.key 0 n, R.RING_NOOP_ABORT_NOOP.key 0 n, R.RING_NOOP_DB_DISCARD.key 0 n,
          R.RING_CTRL_ERROR.key 0 n, R.RING_CTRL_ERR_CODE.key 0 n, R.RING_CTRL_ENABLE.key 0 n]) ∧
  (∀ (s : State) (t : Fc) (n : Fin 256),
      s.fabric = true →
      ringEnabled s n = false →
      (ringIdle s n = false ∨ classDefined (rget s R.RING_CFG_CLASS 0 n) = false ∨ cqEnabled s (ringCq s n) = false ∨
        rget s R.CQ_CFG_HOST 0 (ringCq s n) ≠ rget s R.RING_CFG_HOST 0 n) →
      exec (.ringEnable t n) s = .next (rset (advance s t) R.RING_CTRL_ERR_CODE 4 0 n)) ∧
  (∀ (s : State) (t : Fc) (n : Fin 256),
      s.fabric = true →
      ringEnabled s n = true →
      s.reqs.all (fun q => q.ring != n.val) = true →
      exec (.ringDisable t n) s = .next (rset (advance s t) R.RING_CTRL_ENABLE 0 0 n)) ∧
  (∀ (s : State) (t : Fc) (m : Fin 64),
      s.fabric = true →
      cqEnabled s m = false →
      ∃ u, exec (.cqEnable t m) s = .next u ∧ (rget u R.CQ_WRITE_INDEX 0 m = 0 ∧ rget u R.CQ_WRITE_PHASE 0 m = 1 ∧ rget u R.CQ_HEAD_INDEX 0 m = 0 ∧
        rget u R.CQ_HEAD_PHASE 0 m = 1 ∧ rget u R.CQ_FREE_FREE 0 m = cqSize s m % 2 ^ 17 ∧ rget u R.CQ_CTRL_ENABLE 0 m = 1) ∧
        u = { advance s t with regs := u.regs, cqIrq := tblErase s.cqIrq m }) ∧
  (∀ (s : State) (t : Fc) (m : Fin 64),
      s.fabric = true →
      (∀ n < 256, ringEnabled s n = false ∨ ringCq s n ≠ m) →
      exec (.cqDisable t m) s = .next (rset (advance s t) R.CQ_CTRL_ENABLE 0 0 m)) ∧
  (∀ (s : State) (t : Fc) (m : Fin 64) (n : Fin 256),
      s.fabric = true →
      ringEnabled s n = true →
      ringCq s n = m →
      exec (.cqDisable t m) s = .next (advance s t)) ∧
  (∀ (s : State) (t : Fc) (q : WriteQueue),
      s.fabric = true →
      rbit s (queueOf q).1.enable (queueOf q).2.1 (queueOf q).2.2 = false →
      ∃ u, exec (.queueEnable t q true) s = .next u ∧ (rget u (queueOf q).1.headIdx (queueOf q).2.1 (queueOf q).2.2 = 0 ∧ rget u (queueOf q).1.headPh (queueOf q).2.1 (queueOf q).2.2 = 1 ∧
        rget u (queueOf q).1.wrIdx (queueOf q).2.1 (queueOf q).2.2 = 0 ∧ rget u (queueOf q).1.wrPh (queueOf q).2.1 (queueOf q).2.2 = 1 ∧
        rget u (queueOf q).1.enable (queueOf q).2.1 (queueOf q).2.2 = 1) ∧ u = { advance s t with regs := u.regs }) ∧
  (∀ (s : State) (t : Fc) (q : WriteQueue),
      s.fabric = true →
      exec (.queueEnable t q false) s = .next (rset (advance s t) (queueOf q).1.enable 0 (queueOf q).2.1 (queueOf q).2.2)) ∧
  (∀ (s : State) (t : Fc) (q : WriteQueue) (i : Fin 65536) (p : Fin 2),
      s.fabric = true →
      exec (.queueHeadWrite t q i p) s = .next (rset (rset (advance s t) (queueOf q).1.headIdx i (queueOf q).2.1 (queueOf q).2.2) (queueOf q).1.headPh p
          (queueOf q).2.1 (queueOf q).2.2)) ∧
  (∀ (s : State) (t : Fc) (i : Fin 65536) (p : Fin 2),
      s.fabric = true →
      exec (.rrecHeadWrite t i p) s = .next (rset (rset (advance s t) R.TKE_RREC_HEAD_INDEX i) R.TKE_RREC_HEAD_PHASE p))

/-- A tail doorbell through the path of an enabled ring without error submits the descriptors from the last accepted tail on and stores index and phase; an index beyond the ring sets ERROR with code TAIL_RANGE and counts a discard; a doorbell by the wrong path, of a disabled ring, of one that is disabled in the same fabric cycle or of one with ERROR counts a discard and changes nothing else. A head doorbell within the written entries stores the head and frees as many slots as it passes; otherwise it is discarded. An abort doorbell of a descriptor not yet fetched marks it; of a slot without an outstanding descriptor it counts in ABORT_NOOP alone. -/
def Obligations.Doorbells : Prop :=
  (∀ (s : State) (t : Fc) (n : Fin 256) (i : Fin 65536) (p : Fin 2) (h : Bool),
      s.fabric = true →
      rbit s R.RING_CFG_HOST 0 n = h →
      ringEnabled s n = true →
      rbit s R.RING_CTRL_ERROR 0 n = false →
      i.val < ringSize s n →
      ringCount s n + ringDist (ringSize s n) (ringPos (ringSize s n) (rget s R.RING_TAIL_INDEX 0 n) (rget s R.RING_TAIL_PHASE 0 n)) (ringPos (ringSize s n) i p) ≤ ringSize s n →
      disableNow (advance s t) n = false →
      (∀ x ∈ s.till.noops, x.at_ < max s.now t ∨ x.ring ≠ n) →
      ∃ u, exec (.tailDb t n i p ⟨h, 4⟩) s = .next u ∧ (rget u R.RING_TAIL_INDEX 0 n = i ∧ rget u R.RING_TAIL_PHASE 0 n = p ∧
        u.reqs = s.reqs ++ (submitFrom (ringSize s n) (ringPos (ringSize s n) (rget s R.RING_TAIL_INDEX 0 n) (rget s R.RING_TAIL_PHASE 0 n))
          (ringDist (ringSize s n) (ringPos (ringSize s n) (rget s R.RING_TAIL_INDEX 0 n) (rget s R.RING_TAIL_PHASE 0 n)) (ringPos (ringSize s n) i p)) n).map (nameReq s)) ∧
        u = { advance s t with regs := u.regs, reqs := u.reqs } ∧ RegsOnly s u [R.RING_TAIL_INDEX.key 0 n, R.RING_TAIL_PHASE.key 0 n]) ∧
  (∀ (s : State) (t : Fc) (n : Fin 256) (i : Fin 65536) (p : Fin 2) (h : Bool),
      s.fabric = true →
      rbit s R.RING_CFG_HOST 0 n = h →
      ringEnabled s n = true →
      rbit s R.RING_CTRL_ERROR 0 n = false →
      ringSize s n ≤ i.val →
      disableNow (advance s t) n = false →
      exec (.tailDb t n i p ⟨h, 4⟩) s = .next (rset (rset (rset (advance s t) R.RING_NOOP_DB_DISCARD (satTo 16 (rget s R.RING_NOOP_DB_DISCARD 0 n + 1)) 0 n)
          R.RING_CTRL_ERROR 1 0 n) R.RING_CTRL_ERR_CODE 2 0 n)) ∧
  (∀ (s : State) (t : Fc) (n : Fin 256) (i : Fin 65536) (p : Fin 2) (h : Bool),
      s.fabric = true →
      (rbit s R.RING_CFG_HOST 0 n ≠ h ∨ ringEnabled s n = false ∨ rbit s R.RING_CTRL_ERROR 0 n = true ∨
        disableNow (advance s t) n = true) →
      exec (.tailDb t n i p ⟨h, 4⟩) s = .next (rset (advance s t) R.RING_NOOP_DB_DISCARD (satTo 16 (rget s R.RING_NOOP_DB_DISCARD 0 n + 1)) 0 n)) ∧
  (∀ (s : State) (t : Fc) (m : Fin 64) (i : Fin 65536) (p : Fin 2) (h : Bool),
      s.fabric = true →
      rbit s R.CQ_CFG_HOST 0 m = h →
      cqEnabled s m = true →
      i.val < cqSize s m →
      ringDist (cqSize s m) (ringPos (cqSize s m) (rget s R.CQ_HEAD_INDEX 0 m) (rget s R.CQ_HEAD_PHASE 0 m)) (ringPos (cqSize s m) i p) ≤ ringDist (cqSize s m) (ringPos (cqSize s m) (rget s R.CQ_HEAD_INDEX 0 m) (rget s R.CQ_HEAD_PHASE 0 m)) (ringPos (cqSize s m) (rget s R.CQ_WRITE_INDEX 0 m) (rget s R.CQ_WRITE_PHASE 0 m)) →
      exec (.headDb t m i p ⟨h, 4⟩) s = .next (rset (rset (rset (advance s t) R.CQ_HEAD_INDEX i 0 m) R.CQ_HEAD_PHASE p 0 m) R.CQ_FREE_FREE
          (rget s R.CQ_FREE_FREE 0 m + ringDist (cqSize s m) (ringPos (cqSize s m) (rget s R.CQ_HEAD_INDEX 0 m) (rget s R.CQ_HEAD_PHASE 0 m)) (ringPos (cqSize s m) i p)) 0 m)) ∧
  (∀ (s : State) (t : Fc) (m : Fin 64) (i : Fin 65536) (p : Fin 2) (h : Bool),
      s.fabric = true →
      (rbit s R.CQ_CFG_HOST 0 m ≠ h ∨ cqEnabled s m = false ∨ cqSize s m ≤ i.val ∨
        ringDist (cqSize s m) (ringPos (cqSize s m) (rget s R.CQ_HEAD_INDEX 0 m) (rget s R.CQ_HEAD_PHASE 0 m)) (ringPos (cqSize s m) (rget s R.CQ_WRITE_INDEX 0 m) (rget s R.CQ_WRITE_PHASE 0 m)) < ringDist (cqSize s m) (ringPos (cqSize s m) (rget s R.CQ_HEAD_INDEX 0 m) (rget s R.CQ_HEAD_PHASE 0 m)) (ringPos (cqSize s m) i p)) →
      exec (.headDb t m i p ⟨h, 4⟩) s = .next (advance s t)) ∧
  (∀ (s : State) (t : Fc) (n : Fin 256) (i : Fin 65536) (h : Bool) (q : Req),
      s.fabric = true →
      rbit s R.RING_CFG_HOST 0 n = h →
      ringOpen (advance s t) n = true →
      ((sameSlot s n i).find? fun q => q.aborted.isNone) = some q →
      findReq s q.ref = some q →
      q.stage = .waiting →
      s.till.abortAt = none →
      exec (.abortDb t n i ⟨h, 4⟩) s = .next (updReq { advance s t with till := { s.till with abortAt := some (max s.now t) } } q.ref fun q =>
          { q with aborted := some ⟨rowHere (advance s t), max s.now t, none⟩ })) ∧
  (∀ (s : State) (t : Fc) (n : Fin 256) (i : Fin 65536) (h : Bool),
      s.fabric = true →
      rbit s R.RING_CFG_HOST 0 n = h →
      ringOpen (advance s t) n = true →
      s.till.abortAt = none →
      ((sameSlot s n i).find? fun q => q.aborted.isNone) = none →
      ∃ u, exec (.abortDb t n i ⟨h, 4⟩) s = .next u ∧ rget u R.RING_NOOP_ABORT_NOOP 0 n = satTo 16 (rget s R.RING_NOOP_ABORT_NOOP 0 n + 1) ∧ u.reqs = s.reqs ∧
        RegsOnly s u [R.RING_NOOP_ABORT_NOOP.key 0 n] ∧ u = { advance s t with regs := u.regs, till := u.till })

/-- A fetch moves RING_HEAD past the slot, reserves a completion slot and hands a correct descriptor to its consumer; one whose PHASE is wrong completes REJECT_FORMAT with DETAIL 0x0001; a fetch that fails sets ERROR with code FETCH_FAULT. The till accepts the record of the highest-ranked producer: its completion takes NEXT_SEQ as its sequence number, and NEXT_SEQ grows by one. Eight fc after acceptance the record is in the output queue. A completion entry is 16 bytes at the write slot of the bound completion ring; writing it ends the descriptor and moves the slot on. With DELAY past since the first unsignalled entry the interrupt is raised. -/
def Obligations.FetchAndTill : Prop :=
  (∀ (s : State) (t : Fc) (n : Fin 256) (q : Req) (d : Desc),
      s.fabric = true →
      s.aoc.entry = none →
      nextWaiting s n = some q →
      q.aborted = none →
      ringEnabled s n = true →
      cqEnabled s (ringCq s n) = true →
      rget s R.CQ_FREE_FREE 0 (ringCq s n) ≠ 0 →
      d.fence = false →
      ((s.vis.offs.any fun x => x.1 == q.ref && x.2.1 == d.classWord % 4) = false ∨ d.cls ≠ 4) →
      headerError d q.phase (rget s R.RING_CFG_CLASS 0 n) = none →
      (¬(d.cls = 2 ∨ d.cls = 3)) →
      ∃ u, exec (.descriptorFetch t n d false) s = .next u ∧ u.reqs = (updReq s q.ref fun q => { q with desc := some d, stage := .held, order := s.fetches + 1 }).reqs ∧
        u.regs = (fetchTake s n).regs ∧ u = { advance s t with regs := u.regs, reqs := u.reqs, fetches := s.fetches + 1, vis := u.vis } ∧
        u.vis = { s.vis with offs := u.vis.offs }) ∧
  (∀ (s : State) (t : Fc) (n : Fin 256) (q : Req) (d : Desc),
      s.fabric = true →
      s.aoc.entry = none →
      nextWaiting s n = some q →
      q.aborted = none →
      ringEnabled s n = true →
      cqEnabled s (ringCq s n) = true →
      rget s R.CQ_FREE_FREE 0 (ringCq s n) ≠ 0 →
      d.fence = false →
      ((s.vis.offs.any fun x => x.1 == q.ref && x.2.1 == d.classWord % 4) = false ∨ d.cls ≠ 4) →
      d.phase ≠ q.phase →
      classIsRow (rget s R.RING_CFG_CLASS 0 n) = false →
      ∃ u, exec (.descriptorFetch t n d false) s = .next u ∧ (∃ q1, findReq u q.ref = some q1 ∧ q1.stage = .posted ⟨stRejectFormat, 1, none⟩) ∧ u.till.posted = s.till.posted ++ [⟨svc, false, [q.ref]⟩] ∧
        u = { advance s t with regs := u.regs, reqs := u.reqs, till := u.till, fetches := s.fetches + 1, vis := u.vis } ∧
        u.vis = { s.vis with offs := u.vis.offs }) ∧
  (∀ (s : State) (t : Fc) (n : Fin 256) (q : Req) (d : Desc),
      s.fabric = true →
      s.aoc.entry = none →
      nextWaiting s n = some q →
      q.aborted = none →
      ringEnabled s n = true →
      cqEnabled s (ringCq s n) = true →
      rget s R.CQ_FREE_FREE 0 (ringCq s n) ≠ 0 →
      ∃ u, exec (.descriptorFetch t n d true) s = .next u ∧ u = { rset (rset (advance s t) R.RING_CTRL_ERROR 1 0 n) R.RING_CTRL_ERR_CODE 3 0 n with vis := u.vis } ∧
        u.vis = { s.vis with offs := u.vis.offs }) ∧
  (∀ (s : State) (t : Fc) (q : Req) (c : Compl) (ref : Ref),
      s.fabric = true →
      s.till = { Till.reset with posted := [⟨svc, false, [ref]⟩] } →
      getArb s 0 = arbInit 0 →
      rget s R.TIL_QUEUE_FREE = 4096 →
      findReq s ref = some q →
      q.stage = .posted c →
      q.ring = ref.ring →
      q.slot = ref.slot →
      ∃ u, exec (.tillAccept t) s = .next u ∧ u.till = { Till.reset with accepted := [(max s.now t, ⟨svc, false, [ref]⟩)] } ∧
        (∃ q1 time, findReq u ref = some q1 ∧ q1.stage = .sequenced (rget s R.TIL_SEQ_NEXT_SEQ) c time) ∧
        rget u R.TIL_SEQ_NEXT_SEQ = (rget s R.TIL_SEQ_NEXT_SEQ + 1) % 2 ^ 32 ∧ SameMemory s u) ∧
  (∀ (s : State) (t : Fc) (a : Nat) (r : TillRec) (rest : List (Nat × TillRec)),
      s.fabric = true →
      s.till.accepted = (a, r) :: rest →
      a + 8 ≤ max s.now t →
      ∃ u, exec (.tillOutputWrite t) s = .next u ∧ (rest <+: u.till.accepted ∧ u.till.outQ = s.till.outQ ++ outEntries r ∧
        rget u R.TIL_QUEUE_FREE = (rget s R.TIL_QUEUE_FREE - (outEntries r).length) % 2 ^ 13) ∧
        u = { advance s t with regs := u.regs, till := u.till, arbs := u.arbs, rolLatch := u.rolLatch } ∧
        BlocksOnly s u [.til, .arb]) ∧
  (∀ (s : State) (t : Fc) (r : Ref) (rest : List OutEntry) (q : Req) (n time : Nat) (c : Compl),
      s.fabric = true →
      s.till.outQ = .completion r :: rest →
      findReq s r = some q →
      q.stage = .sequenced n c time →
      cqEnabled s (ringCq s r.ring) = true →
      ∃ u, exec (.completionWrite t) s = .next u ∧ (u.till.outQ = rest ∧ u.reqs = s.reqs.filter (fun p => p.ref != r) ∧
        rget u R.TIL_QUEUE_FREE = (rget s R.TIL_QUEUE_FREE + 1) % 2 ^ 13) ∧
        (let m := ringCq s r.ring
         let w := hostWrite s (rbit s R.CQ_CFG_HOST 0 m)
           (rget s R.CQ_BASE_LO_ADDR_LO 0 m * 4096 + 2 ^ 32 * rget s R.CQ_BASE_HI_ADDR_HI 0 m + 16 * rget s R.CQ_WRITE_INDEX 0 m)
           (complBytes r.ring r.slot n (finalStatus q (max s.now t) c) c.detail time c.row.isNone (rget s R.CQ_WRITE_PHASE 0 m))
         u.mem = w.mem ∧ u.extMem = w.extMem) ∧
        u = { advance s t with
          regs := u.regs, reqs := u.reqs, till := u.till, arbs := u.arbs, rolLatch := u.rolLatch, cqIrq := u.cqIrq,
          irqs := u.irqs, mem := u.mem, extMem := u.extMem }) ∧
  (∀ (s : State) (t : Fc) (m : Fin 64) (k : CqIrq) (v : Nat),
      s.fabric = true →
      tblGet? s.cqIrq m = some k →
      0 < k.unsignalled →
      rget s R.CQ_MOD_DELAY 0 m ≠ 0 →
      k.firstAt + rget s R.CQ_MOD_DELAY 0 m * 400 ≤ max s.now t →
      rbit s R.CQ_CFG_IRQ_EN 0 m = true →
      rget s R.CQ_CFG_VECTOR 0 m = v →
      (rbit s R.CQ_CFG_HOST 0 m = false ∨ (v < 128 ∧ rbit s R.MSIX_MASK 0 v = false)) →
      exec (.cqDelayExpiry t m) s = .next (let w := if rbit s R.CQ_CFG_HOST 0 m then 4096 + v else v
        { advance s t with cqIrq := tblSet s.cqIrq m ⟨0, 0⟩, irqs := tblSet s.irqs w (tblGetD s.irqs w 0 + 1) }))

/-- When the link goes down every submission and completion ring of the external host is disabled, its outstanding descriptors are gone without a completion, LINK_UP falls and DOWN_EVENTS counts; rings of the internal host keep their descriptors. When the link trains at x1, x2 or x4 and at a speed of 1 to 4, LINK_UP, WIDTH and SPEED are set. -/
def Obligations.HostLink : Prop :=
  (∀ (s : State) (t : Fc) (x : LinkDown),
      s.fabric = true →
      rbit s R.HLK_STATUS_LINK_UP = true →
      ∃ u, exec (.hostLinkDown t x) s = .next u ∧ rget u R.HLK_STATUS_LINK_UP = 0 ∧ rget u R.HLK_STATUS_DOWN_EVENTS = satTo 16 (rget s R.HLK_STATUS_DOWN_EVENTS + 1) ∧
        (∀ q ∈ u.reqs, rbit s R.RING_CFG_HOST 0 q.ring = false) ∧
        (∀ n < 256, rbit s R.RING_CFG_HOST 0 n = true → rget u R.RING_CTRL_ENABLE 0 n = 0) ∧
        (∀ m < 64, rbit s R.CQ_CFG_HOST 0 m = true → rget u R.CQ_CTRL_ENABLE 0 m = 0)) ∧
  (∀ (s : State) (t : Fc) (w v : Fin 8),
      s.fabric = true →
      (w.val = 1 ∨ w.val = 2 ∨ w.val = 4) →
      1 ≤ v.val →
      v.val ≤ 4 →
      exec (.hostLinkUp t w v) s = .next (rset (rset (rset (rset (advance s t) R.HLK_STATUS_LINK_UP 1) R.HLK_STATUS_WIDTH w) R.HLK_STATUS_SPEED v)
          R.HLK_STATUS_D_STATE 0))

/-- Of TICK_EDGE, GATHER_GROUP, ESTIMATE, REGION_SELECT, SOLVE, LOOP, STAGE_DRIVE, STAGE_SWITCH, COMPUTE, CAN_STAGE and MIRROR. TICK_EDGE at the end of a running row: the row counter rises by one, the row of that number begins now with nothing staged, committed or overrun, and outputs are untouched. On a module without pairing no sequencer is masked, and with the TKE armed, no demotion, and no pattern or promotion waiting, its stitches are those that the main pattern selects for the row. Before the end of the row nothing happens. The row's next stitch, met by the command of its type before the commit point, completes and leaves the list. GATHER_GROUP copies the entries of the named groups, up to group 18, into the workspace. ESTIMATE stages a value for each named measure with the stamp of the sampled tick's start, invalid where the estimator has none. REGION_SELECT stages the bands of the live set. SOLVE stages an outcome for the live region, with the fallback setpoints on outcome 3. LOOP stages an open loop's law, and a closed one's where its feedback is valid. STAGE_DRIVE and STAGE_SWITCH stage the loops' outputs in channel order. COMPUTE leaves a workspace that the spec does not give (log entry 4). CAN_STAGE stages its templates, and MIRROR on a PRIMARY sends its blocks. None of them changes an output, and solver state waits for the commit. -/
def Obligations.RowCommands : Prop :=
  (∀ (s : State) (t : Fc) (x : SfeSamples) (saved : Bool),
      s.fabric = true →
      s.tke.running = true →
      s.tke.rowStart + s.tke.rowLen ≤ max s.now t →
      s.tke.held = [] →
      ∃ u, exec (.tickEdge t x saved) s = .next u ∧ rowNow u = (rowNow s + 1) % 2 ^ 64 ∧ u.tke.rowStart = max s.now t ∧ u.tke.running = true ∧ u.tke.committed = false ∧
        u.tke.flushed = false ∧ u.tke.overrun = none ∧ u.tke.staged = Staged.empty ∧ u.tke.held = []) ∧
  (∀ (s : State) (t : Fc) (x : SfeSamples) (saved : Bool),
      s.fabric = true →
      s.tke.running = true →
      s.tke.rowStart + s.tke.rowLen ≤ max s.now t →
      s.tke.held = [] →
      pairEn s = false →
      ∃ u, exec (.tickEdge t x saved) s = .next u ∧ rget u R.TKE_LOCKSTEP_MASKED = 0 ∧ SameOutputs s u ∧ BlocksOnly s u [.tke, .sps, .sfe, .nav, .xlk, .til, .arb, .hlm, .jrn] ∧
        u.can = s.can ∧ u.sto = s.sto ∧ u.fle = s.fle ∧ u.vis = s.vis ∧ u.eth = s.eth ∧ u.pnl = s.pnl ∧ u.upd = s.upd ∧ u.aoc = s.aoc ∧ u.fabric = true) ∧
  (∀ (s : State) (t : Fc) (x : SfeSamples) (saved : Bool) (p : Pattern),
      s.fabric = true →
      s.tke.running = true →
      s.tke.rowStart + s.tke.rowLen ≤ max s.now t →
      s.tke.held = [] →
      pairEn s = false →
      tkeArmed (beforeRegs (advance s t)) = true →
      tkeArmed s = true →
      commanding s = true →
      s.tke.main = some p →
      s.tke.pending = none →
      s.tke.promote = [] →
      rbit s R.TKE_CTRL_FALLBACK_ACTIVE = false →
      ∃ u, exec (.tickEdge t x saved) s = .next u ∧ u.tke.rowArmed = true ∧ u.tke.rowFallback = false ∧ u.tke.consts = p.consts ∧
        u.tke.todo = p.stitches.filter fun st => st.every != 0 && rowNow u % st.every == st.offset) ∧
  (∀ (s : State) (t : Fc) (x : SfeSamples) (saved : Bool),
      s.fabric = true →
      (s.tke.running = false ∨ max s.now t < s.tke.rowStart + s.tke.rowLen) →
      exec (.tickEdge t x saved) s = .next (advance s t)) ∧
  (∀ (s : State) (t : Fc) (st : Stitch) (l : List Stitch),
      s.fabric = true →
      s.tke.todo = st :: l →
      st.typ = 1 →
      max s.now t < commitAt s →
      ∃ u, exec (.gatherGroup t) s = .next u ∧ u.tke.todo = l ∧ u.tke.usedFc = max s.now t - s.tke.rowStart ∧ (∀ k < st.n, st.opA % 32 + k ≤ 18 → ∀ e < 8,
          tblGet? u.tke.work (st.opB + 64 * k + 8 * e) = some (snapEntry s (8 * (st.opA % 32 + k) + e) % 2 ^ 32) ∧
          tblGet? u.tke.work (st.opB + 64 * k + 8 * e + 4) = some (snapEntry s (8 * (st.opA % 32 + k) + e) / 2 ^ 32)) ∧
        u = { advance s t with tke := { s.tke with work := u.tke.work, todo := l, usedFc := max s.now t - s.tke.rowStart } }) ∧
  (∀ (s : State) (t : Fc) (st : Stitch) (l : List Stitch),
      s.fabric = true →
      s.tke.todo = st :: l →
      st.typ = 2 →
      max s.now t < commitAt s →
      ∃ u, exec (.estimate t) s = .next u ∧ (∀ k < st.n, st.opA % 16 + k ≤ 15 → ∃ q, tblGet? u.tke.staged.qvals (st.opA % 16 + k) = some q ∧ q.stamp = s.tke.edgeTime - s.tke.inForce.periodUs * 1000 ∧
          (estValue s (st.opA % 16 + k) = none → q.invalid = true) ∧ (∀ v, estValue s (st.opA % 16 + k) = some v → fFinite v = true → q.invalid = false)) ∧
        u = { advance s t with tke := { s.tke with staged := { s.tke.staged with est := u.tke.staged.est, qvals := u.tke.staged.qvals }, todo := l, usedFc := max s.now t - s.tke.rowStart } }) ∧
  (∀ (s : State) (t : Fc) (st : Stitch) (l : List Stitch) (ts : List Nat),
      s.fabric = true →
      s.tke.todo = st :: l →
      st.typ = 3 →
      max s.now t < commitAt s →
      liveSet s = some ts →
      exec (.regionSelect t) s = .next ({ advance s t with tke := { s.tke with staged := { s.tke.staged with region := some (regionChoice s ts) }, todo := l, usedFc := max s.now t - s.tke.rowStart } })) ∧
  (∀ (s : State) (t : Fc) (st : Stitch) (l : List Stitch) (ts : List Nat),
      s.fabric = true →
      s.tke.todo = st :: l →
      st.typ = 4 →
      max s.now t < commitAt s →
      liveSet s = some ts →
      ∃ u, exec (.solve t) s = .next u ∧ (∃ o, u.tke.staged.solve = some o ∧ o.region = liveRegion s ts ∧ o.epoch = s.tke.snap.epoch ∧ o.setpoints.length = 32 ∧ (o.outcome = 1 ∨ o.outcome = 2 ∨ o.outcome = 3) ∧
          (o.outcome = 3 → o.iter = 0 ∧ o.setpoints = (List.range 32).map (fallbackSetpoint s ts (liveRegion s ts))) ∧ (o.outcome = 1 → o.iter = 12) ∧
          u.tke.staged.digest = s.tke.staged.digest ++ o.setpoints) ∧
        u = { advance s t with tke := { s.tke with staged := { s.tke.staged with solve := u.tke.staged.solve, digest := u.tke.staged.digest }, solved := true, todo := l, usedFc := max s.now t - s.tke.rowStart } }) ∧
  (∀ (s : State) (t : Fc) (st : Stitch) (l : List Stitch) (ts : List Nat),
      s.fabric = true →
      s.tke.todo = st :: l →
      st.typ = 5 →
      max s.now t < commitAt s →
      liveSet s = some ts →
      ∃ u, exec (.loop t) s = .next u ∧ (∀ k < st.n, st.opA + k ≤ 31 → loopMode ts (st.opA + k) = 3 →
          tblGet? u.tke.staged.loops (st.opA + k) = some (loopOpen ts (st.opA + k) (loopState s (st.opA + k)) (loopSetpoint s ts (st.opA + k)) (tickSeconds s st.every))) ∧
        (∀ k < st.n, st.opA + k ≤ 31 → loopMode ts (st.opA + k) = 1 → ∀ x, loopRaw s ts (st.opA + k) = some x →
          tblGet? u.tke.staged.loops (st.opA + k) = some (loopLaw ts (st.opA + k) (loopState s (st.opA + k)) (loopSetpoint s ts (st.opA + k)) x (tickSeconds s st.every))) ∧
        u.tke.todo = l ∧ u.tke.usedFc = max s.now t - s.tke.rowStart ∧ u.sps = s.sps ∧ BlocksOnly s u [.fnl, .hlm, .jrn] ∧ u = { advance s t with regs := u.regs, tke := u.tke, log := u.log, mem := u.mem, extMem := u.extMem }) ∧
  (∀ (s : State) (t : Fc) (st : Stitch) (l : List Stitch),
      s.fabric = true →
      s.tke.todo = st :: l →
      st.typ = 6 →
      max s.now t < commitAt s →
      exec (.stageDrive t) s = .next (let cs := (List.range st.n).filterMap fun k => (tblGet? s.tke.staged.loopDrive (st.opA + k)).map fun x => OutCmd.drv (st.opA + k) (loopDrvCmd x.1 x.2)
        { advance s t with tke := { s.tke with staged := { s.tke.staged with cmds := s.tke.staged.cmds ++ cs, digest := s.tke.staged.digest ++ cs.flatMap encodeCmd }, todo := l, usedFc := max s.now t - s.tke.rowStart } })) ∧
  (∀ (s : State) (t : Fc) (st : Stitch) (l : List Stitch),
      s.fabric = true →
      s.tke.todo = st :: l →
      st.typ = 7 →
      max s.now t < commitAt s →
      exec (.stageSwitch t) s = .next (let cs := (List.range st.n).filterMap fun k => (tblGet? s.tke.staged.loopSwitch (st.opA + k)).map fun x => OutCmd.sw (st.opA + k) (.set (clampInt 0 1000 (fScaleRound 1000 x)).toNat)
        { advance s t with tke := { s.tke with staged := { s.tke.staged with cmds := s.tke.staged.cmds ++ cs, digest := s.tke.staged.digest ++ cs.flatMap encodeCmd }, todo := l, usedFc := max s.now t - s.tke.rowStart } })) ∧
  (∀ (s : State) (t : Fc) (st : Stitch) (l : List Stitch),
      s.fabric = true →
      s.tke.todo = st :: l →
      st.typ = 8 →
      max s.now t < commitAt s →
      exec (.compute t) s = .next ({ advance s t with tke := { s.tke with work := Config.freeWorkspace s.freeCount, todo := l, usedFc := max s.now t - s.tke.rowStart }, freeCount := s.freeCount + 1 })) ∧
  (∀ (s : State) (t : Fc) (st : Stitch) (l : List Stitch),
      s.fabric = true →
      s.tke.todo = st :: l →
      st.typ = 9 →
      max s.now t < commitAt s →
      ∃ u, exec (.canStage t) s = .next u ∧ u.tke.staged.can.length = s.tke.staged.can.length + st.n ∧ (∀ p ∈ u.tke.staged.can, p ∈ s.tke.staged.can ∨ p.1 = st.opA % 8) ∧ u.tke.todo = l ∧ u.tke.usedFc = max s.now t - s.tke.rowStart ∧
        RegsOnly s u [R.CAN_COUNTS_SATURATED.key (st.opA % 8) 0] ∧ u = { advance s t with regs := u.regs, tke := { s.tke with staged := { s.tke.staged with can := u.tke.staged.can }, todo := l, usedFc := max s.now t - s.tke.rowStart } }) ∧
  (∀ (s : State) (t : Fc) (st : Stitch) (l : List Stitch),
      s.fabric = true →
      s.tke.todo = st :: l →
      st.typ = 10 →
      max s.now t < commitAt s →
      role s = 2 →
      ∃ u, exec (.mirror t) s = .next u ∧ u.xlk.mirrorSent = s.xlk.mirrorSent + st.n ∧ u.xlk.out.length = s.xlk.out.length + st.n ∧ BlocksOnly s u [.arb] ∧
        u = { advance s t with
          regs := u.regs, arbs := u.arbs, rolLatch := u.rolLatch, xlk := { s.xlk with mirrorSent := u.xlk.mirrorSent, out := u.xlk.out, txSeq := u.xlk.txSeq }, tke := { s.tke with todo := l, usedFc := max s.now t - s.tke.rowStart } }) ∧
  (∀ (s : State) (t : Fc),
      s.fabric = true →
      (s.tke.todo = [] ∨ commitAt s < max s.now t) →
      exec (.solve t) s = .next (advance s t))

/-- At the commit point of an armed row that has run every stitch without an overrun CONSEC is 0, the row's solve becomes the solver's state, and the staged commands go to the supervisors. An overrun row, or one with stitches left, counts in TOTAL and CONSEC, stages nothing, commits nothing and leaves solver and outputs as they are; on the third in succession the main pattern gives way to the fallback, and the fallback stops the TKE. The till flush 256 fc later exposes the row's workspace unless it overran, and posts one record of each of the 48 producers. With no sequencer masked, one output that differs from the three others masks its sequencer, counts and raises TKE_LOCKSTEP_MASK; two against two masks none and ends the row that runs with cause LOCKSTEP. The currents of the drive channels are an operand of COMMIT_POINT, those of the switch channels one of TILL_FLUSH. -/
def Obligations.CommitCommands : Prop :=
  (∀ (s : State) (t : Fc) (amps : List Nat),
      s.fabric = true →
      s.tke.running = true →
      s.tke.committed = false →
      commitAt s ≤ max s.now t →
      s.tke.rowArmed = true →
      s.tke.disarmAt = none →
      tkeArmed s = true →
      commanding s = true →
      s.tke.overrun = none →
      s.tke.todo = [] →
      ∃ u, exec (.commitPoint ⟨t, amps⟩) s = .next u ∧ u.tke.committed = true ∧ u.tke.overrun = none ∧ rget u R.TKE_OVERRUN_CONSEC = 0 ∧ rget u R.TKE_OVERRUN_TOTAL = rget s R.TKE_OVERRUN_TOTAL ∧
        (s.tke.staged.solve = none → u.sps.p = s.sps.p) ∧
        (∀ o, s.tke.staged.solve = some o → u.sps.p = o.setpoints ∧ rget u R.SPS_STATUS_OUTCOME = o.outcome % 4 ∧ rget u R.SPS_STATUS_REGION = o.region % 2 ^ R.SPS_STATUS_REGION.width) ∧
        BlocksOnly s u [.tke, .sps, .fnl, .sfe, .pps, .dbk, .sbk, .xlk, .can, .til, .arb, .hlm, .jrn] ∧
        u = { advance s t with regs := u.regs, tke := u.tke, sps := u.sps, sfe := u.sfe, pps := u.pps, drv := u.drv, reqs := u.reqs, till := u.till, xlk := u.xlk, can := u.can, arbs := u.arbs, rolLatch := u.rolLatch, log := u.log, mem := u.mem, extMem := u.extMem }) ∧
  (∀ (s : State) (t : Fc) (amps : List Nat),
      s.fabric = true →
      s.tke.running = true →
      s.tke.committed = false →
      commitAt s ≤ max s.now t →
      s.tke.rowArmed = true →
      s.tke.disarmAt = none →
      tkeArmed s = true →
      commanding s = true →
      (s.tke.overrun ≠ none ∨ s.tke.todo ≠ []) →
      rget s R.TKE_OVERRUN_CONSEC < 2 →
      ∃ u, exec (.commitPoint ⟨t, amps⟩) s = .next u ∧ u.tke.committed = true ∧ u.tke.staged = Staged.empty ∧ u.tke.todo = [] ∧ rget u R.TKE_OVERRUN_TOTAL = satTo R.TKE_OVERRUN_TOTAL.width (rget s R.TKE_OVERRUN_TOTAL + 1) ∧
        rget u R.TKE_OVERRUN_CONSEC = rget s R.TKE_OVERRUN_CONSEC + 1 ∧ tkeArmed u = true ∧ rget u R.TKE_CTRL_FALLBACK_ACTIVE = rget s R.TKE_CTRL_FALLBACK_ACTIVE ∧
        u.sps = s.sps ∧ u.drv = (setAmps (advance s t) amps).drv ∧ u.sw = s.sw ∧ u.can = s.can ∧
        BlocksOnly s u [.tke, .pps, .xlk, .til, .arb, .hlm, .jrn]) ∧
  (∀ (s : State) (t : Fc) (amps : List Nat),
      s.fabric = true →
      s.tke.running = true →
      s.tke.committed = false →
      commitAt s ≤ max s.now t →
      s.tke.rowArmed = true →
      s.tke.disarmAt = none →
      tkeArmed s = true →
      commanding s = true →
      (s.tke.overrun ≠ none ∨ s.tke.todo ≠ []) →
      2 ≤ rget s R.TKE_OVERRUN_CONSEC →
      s.tke.rowFallback = false →
      ∃ u, exec (.commitPoint ⟨t, amps⟩) s = .next u ∧ u.tke.committed = true ∧ u.tke.staged = Staged.empty ∧ u.tke.todo = [] ∧ rget u R.TKE_OVERRUN_TOTAL = satTo R.TKE_OVERRUN_TOTAL.width (rget s R.TKE_OVERRUN_TOTAL + 1) ∧
        rget u R.TKE_CTRL_FALLBACK_ACTIVE = 1 ∧ rget u R.TKE_OVERRUN_CONSEC = 0 ∧ tkeArmed u = true ∧
        u.sps = s.sps ∧ u.drv = (setAmps (advance s t) amps).drv ∧ u.sw = s.sw ∧ u.can = s.can ∧
        BlocksOnly s u [.tke, .pps, .xlk, .til, .arb, .hlm, .jrn]) ∧
  (∀ (s : State) (t : Fc) (amps : List Nat),
      s.fabric = true →
      s.tke.running = true →
      s.tke.committed = false →
      commitAt s ≤ max s.now t →
      s.tke.rowArmed = true →
      s.tke.disarmAt = none →
      tkeArmed s = true →
      commanding s = true →
      (s.tke.overrun ≠ none ∨ s.tke.todo ≠ []) →
      2 ≤ rget s R.TKE_OVERRUN_CONSEC →
      s.tke.rowFallback = true →
      ∃ u, exec (.commitPoint ⟨t, amps⟩) s = .next u ∧ u.tke.committed = true ∧ u.tke.staged = Staged.empty ∧ u.tke.todo = [] ∧ rget u R.TKE_OVERRUN_TOTAL = satTo R.TKE_OVERRUN_TOTAL.width (rget s R.TKE_OVERRUN_TOTAL + 1) ∧
        rget u R.TKE_CTRL_STOPPED = 1 ∧ rget u R.TKE_CTRL_ARMED = 0 ∧
        u.sps = s.sps ∧ u.drv = (setAmps (advance s t) amps).drv ∧ u.sw = s.sw ∧ u.can = s.can ∧
        BlocksOnly s u [.tke, .pps, .xlk, .til, .arb, .hlm, .jrn]) ∧
  (∀ (s : State) (t : Fc) (amps : List Nat),
      s.fabric = true →
      s.tke.running = true →
      s.tke.committed = false →
      commitAt s ≤ max s.now t →
      s.tke.rowArmed = false →
      commanding s = true →
      exec (.commitPoint ⟨t, amps⟩) s = .next (let a := setAmps ((List.range 2).foldl (fun s p => setPps s p { getPps s p with gridAt := s.now }) (advance s t)) amps
        { a with tke := { a.tke with committed := true, commitFc := max s.now t, entries := commitEntries a } })) ∧
  (∀ (s : State) (t : Fc) (amps : List Nat),
      s.fabric = true →
      s.tke.committed = true →
      s.tke.flushed = false →
      commitAt s + 256 ≤ max s.now t →
      ∃ u, exec (.tillFlush t amps) s = .next u ∧ u.tke.flushed = true ∧ u.till.posted.length = s.till.posted.length + 48 ∧ u.till.flushLeft = 48 ∧ u.till.rowDone = [] ∧
        (s.tke.overrun ≠ none → u.tke.exposed = s.tke.exposed ∧ u.tke.snapHalf = s.tke.snapHalf) ∧
        (s.tke.overrun = none → u.tke.exposed = s.tke.work ∧ u.tke.snapHalf = s.tke.snapNext) ∧ u.sps = s.sps ∧ u.pps = s.pps) ∧
  (∀ (s : State) (t : Fc) (l : List Nat) (x : Fin 4) (v : Nat),
      s.fabric = true →
      rget s R.TKE_LOCKSTEP_MASKED = 0 →
      (∀ k : Fin 4, k ≠ x → l.getD k 0 = v) →
      l.getD x 0 ≠ v →
      exec (.lockstepMismatch t l) s = .next (raiseEv (rset (rset (advance s t) R.TKE_LOCKSTEP_MASKED (2 ^ x.val)) R.TKE_LOCKSTEP_DISAGREE_COUNT
          (satTo R.TKE_LOCKSTEP_DISAGREE_COUNT.width (rget s R.TKE_LOCKSTEP_DISAGREE_COUNT + 1))) evTkeLockstepMask)) ∧
  (∀ (s : State) (t : Fc) (a b : Nat),
      s.fabric = true →
      rget s R.TKE_LOCKSTEP_MASKED = 0 →
      a ≠ b →
      s.tke.rowArmed = true →
      s.tke.committed = false →
      s.tke.overrun = none →
      max s.now t < commitAt s →
      ∃ u, exec (.lockstepMismatch t [a, b, b, a]) s = .next u ∧ u.tke.overrun = some 2 ∧ u.tke.todo = [] ∧ u.tke.staged = Staged.empty ∧ u.tke.usedFc = max s.now t - s.tke.rowStart ∧ rget u R.TKE_LOCKSTEP_MASKED = 0 ∧ BlocksOnly s u [.hlm, .jrn] ∧ u = { advance s t with regs := u.regs, tke := u.tke, log := u.log, mem := u.mem, extMem := u.extMem })

/-- The TKE serves its descriptors one after another, and what comes in the fc of a tick edge acts after the edge. A PATTERN_LOAD or TABLE_SET of a permitted length begins its copy; one too long or too short, or for the fallback slot of an armed TKE, is rejected. At the end of a copy an ECC error completes ECC_FATAL, a failing check completes with its status and detail, an admitted pattern goes to its slot while disarmed and becomes pending while armed, and a passing set becomes PENDING in its buffer, each superseding an earlier pending one, which completes DONE with detail 1. PROMOTE waits for the edge while the fallback runs and is refused while the main pattern does. -/
def Obligations.PatternsAndTables : Prop :=
  (∀ (s : State) (t : Fc) (r : Ref) (d : Desc) (img : List Nat),
      s.fabric = true →
      heldDesc s r 1 1 = some d →
      due (advance s t) d = true →
      tkeServes s r = true →
      commanding s = true →
      (d.classWord % 2 = 0 ∨ tkeArmed s = false) →
      64 ≤ d.word 0x18 →
      d.word 0x18 ≤ 0x200000 →
      exec (.patternLoad t r img) s = .next ({ (takeReq (advance s t) r) with tke := { s.tke with loadPat := some (r, d.classWord % 2, img) } })) ∧
  (∀ (s : State) (t : Fc) (r : Ref) (d : Desc) (img : List Nat),
      s.fabric = true →
      heldDesc s r 1 1 = some d →
      due (advance s t) d = true →
      tkeServes s r = true →
      commanding s = true →
      d.classWord % 2 = 1 →
      tkeArmed s = true →
      exec (.patternLoad t r img) s = .next (complete (takeReq (advance s t) r) r stRejectState 0x0201 (some (rowHere (advance s t))))) ∧
  (∀ (s : State) (t : Fc) (r : Ref) (d : Desc) (img : List Nat),
      s.fabric = true →
      heldDesc s r 1 1 = some d →
      due (advance s t) d = true →
      tkeServes s r = true →
      commanding s = true →
      (d.classWord % 2 = 0 ∨ tkeArmed s = false) →
      d.word 0x18 < 64 →
      exec (.patternLoad t r img) s = .next (complete (takeReq (advance s t) r) r stRejectFormat 0x0108 (some (rowHere (advance s t))))) ∧
  (∀ (s : State) (t : Fc) (r : Ref) (d : Desc) (img : List Nat),
      s.fabric = true →
      heldDesc s r 1 1 = some d →
      due (advance s t) d = true →
      tkeServes s r = true →
      commanding s = true →
      (d.classWord % 2 = 0 ∨ tkeArmed s = false) →
      0x200000 < d.word 0x18 →
      exec (.patternLoad t r img) s = .next (complete (takeReq (advance s t) r) r stRejectFormat 0x0107 (some (rowHere (advance s t))))) ∧
  (∀ (s : State) (t : Fc) (r : Ref) (d : Desc) (img : List Nat) (n : Nat),
      s.fabric = true →
      edgeDue (advance s t) = false →
      s.tke.loadPat = some (r, n, img) →
      reqDesc s r = some d →
      exec (.patternAdmission t true) s = .next (complete { advance s t with tke := { s.tke with loadPat := none } } r stEccFatal 0 (some (rowHere (advance s t))))) ∧
  (∀ (s : State) (t : Fc) (r : Ref) (d : Desc) (img : List Nat) (n st e : Nat),
      s.fabric = true →
      edgeDue (advance s t) = false →
      s.tke.loadPat = some (r, n, img) →
      reqDesc s r = some d →
      checkPattern s (n == 1) (d.word 0x18) img = .rejected st e →
      exec (.patternAdmission t false) s = .next (complete { advance s t with tke := { s.tke with loadPat := none } } r st e (some (rowHere (advance s t))))) ∧
  (∀ (s : State) (t : Fc) (r : Ref) (d : Desc) (img : List Nat) (p : Pattern),
      s.fabric = true →
      edgeDue (advance s t) = false →
      s.tke.loadPat = some (r, 0, img) →
      reqDesc s r = some d →
      checkPattern s false (d.word 0x18) img = .admitted p →
      tkeArmed s = false →
      s.tke.pending = none →
      exec (.patternAdmission t false) s = .next (complete { advance s t with tke := { s.tke with loadPat := none, main := some p } } r stDone (costPermille p.cost (windowNow s)) (some (rowHere (advance s t))))) ∧
  (∀ (s : State) (t : Fc) (r : Ref) (d : Desc) (img : List Nat) (p : Pattern),
      s.fabric = true →
      edgeDue (advance s t) = false →
      s.tke.loadPat = some (r, 1, img) →
      reqDesc s r = some d →
      checkPattern s true (d.word 0x18) img = .admitted p →
      tkeArmed s = false →
      exec (.patternAdmission t false) s = .next (complete { advance s t with tke := { s.tke with loadPat := none, fallback := some p } } r stDone (costPermille p.cost (windowNow s)) (some (rowHere (advance s t))))) ∧
  (∀ (s : State) (t : Fc) (r : Ref) (d : Desc) (img : List Nat) (p q : Pattern) (r0 : Ref) (a e : Nat),
      s.fabric = true →
      edgeDue (advance s t) = false →
      s.tke.loadPat = some (r, 0, img) →
      reqDesc s r = some d →
      checkPattern s false (d.word 0x18) img = .admitted p →
      tkeArmed s = true →
      forwarding s = false →
      s.tke.pending = some ⟨q, some r0, a, e⟩ →
      ∃ u, exec (.patternAdmission t false) s = .next u ∧ u.tke.main = s.tke.main ∧ u.tke.pending = some ⟨p, some r, max s.now t, costPermille p.cost (windowNow s)⟩ ∧ u.reqs = (complete s r0 stDone 1 (some (rowHere (advance s t)))).reqs ∧
        rget u R.TKE_TABLE_STATE_SUPERSEDED = satTo R.TKE_TABLE_STATE_SUPERSEDED.width (rget s R.TKE_TABLE_STATE_SUPERSEDED + 1) ∧ RegsOnly s u [R.TKE_TABLE_STATE_SUPERSEDED.key 0 0] ∧ u = { advance s t with regs := u.regs, tke := u.tke, reqs := u.reqs, till := u.till }) ∧
  (∀ (s : State) (t : Fc) (r : Ref) (d : Desc) (img : List Nat),
      s.fabric = true →
      heldDesc s r 1 2 = some d →
      due (advance s t) d = true →
      tkeServes s r = true →
      commanding s = true →
      64 ≤ d.word 0x18 →
      d.word 0x18 ≤ 0x100000 →
      exec (.tableSet t r img) s = .next (rset { (takeReq (advance s t) r) with tke := { s.tke with loadTbl := some (r, freeBuffer s, img) } } R.TKE_TABLE_STATE_LOADING_BUF (freeBuffer s))) ∧
  (∀ (s : State) (t : Fc) (r : Ref) (d : Desc) (img : List Nat),
      s.fabric = true →
      heldDesc s r 1 2 = some d →
      due (advance s t) d = true →
      tkeServes s r = true →
      commanding s = true →
      d.word 0x18 < 64 →
      exec (.tableSet t r img) s = .next (complete (takeReq (advance s t) r) r stRejectFormat 0x0108 (some (rowHere (advance s t))))) ∧
  (∀ (s : State) (t : Fc) (r : Ref) (d : Desc) (b : Nat) (img : List Nat),
      s.fabric = true →
      edgeDue (advance s t) = false →
      s.tke.loadTbl = some (r, b, img) →
      reqDesc s r = some d →
      exec (.tableSetCheck t true) s = .next (complete (rset { advance s t with tke := { s.tke with loadTbl := none } } R.TKE_TABLE_STATE_LOADING_BUF 3) r stEccFatal 0 (some (rowHere (advance s t))))) ∧
  (∀ (s : State) (t : Fc) (r : Ref) (d : Desc) (b : Nat) (img : List Nat) (e : Nat),
      s.fabric = true →
      edgeDue (advance s t) = false →
      s.tke.loadTbl = some (r, b, img) →
      reqDesc s r = some d →
      checkTable (d.word 0x18) img = some e →
      exec (.tableSetCheck t false) s = .next (complete (rset { advance s t with tke := { s.tke with loadTbl := none } } R.TKE_TABLE_STATE_LOADING_BUF 3) r stRejectFormat e (some (rowHere (advance s t))))) ∧
  (∀ (s : State) (t : Fc) (r : Ref) (d : Desc) (b : Nat) (img : List Nat),
      s.fabric = true →
      edgeDue (advance s t) = false →
      s.tke.loadTbl = some (r, b, img) →
      reqDesc s r = some d →
      checkTable (d.word 0x18) img = none →
      forwarding s = false →
      b ≤ 2 →
      ∃ u, exec (.tableSetCheck t false) s = .next u ∧ rget u R.TKE_TABLE_STATE_PENDING_BUF = b ∧ rget u R.TKE_TABLE_STATE_LOADING_BUF = 3 ∧ rget u R.TKE_TABLE_STATE_LIVE_BUF = rget s R.TKE_TABLE_STATE_LIVE_BUF ∧ u.tke.pendTbl = some (some r, max s.now t) ∧ u.tke.loadTbl = none ∧
        (s.tke.pendTbl = none → tblGet? u.tke.bufs b = some img ∧ u.reqs = s.reqs) ∧ BlocksOnly s u [.tke] ∧ u = { advance s t with regs := u.regs, tke := u.tke, reqs := u.reqs, till := u.till }) ∧
  (∀ (s : State) (t : Fc) (r : Ref) (d : Desc),
      s.fabric = true →
      heldDesc s r 1 3 = some d →
      due (advance s t) d = true →
      edgeDue (advance s t) = false →
      tkeServes s r = true →
      commanding s = true →
      (tkeArmed s = false ∨ rbit s R.TKE_CTRL_FALLBACK_ACTIVE = true) →
      (s.tke.rowArmed = false ∨ (s.tke.rowFallback = true ∧ rbit s R.TKE_CTRL_STOPPED = false)) →
      exec (.promote t r) s = .next ({ (takeReq (advance s t) r) with tke := { s.tke with promote := s.tke.promote ++ [r] } })) ∧
  (∀ (s : State) (t : Fc) (r : Ref) (d : Desc),
      s.fabric = true →
      heldDesc s r 1 3 = some d →
      due (advance s t) d = true →
      edgeDue (advance s t) = false →
      tkeServes s r = true →
      commanding s = true →
      tkeArmed s = true →
      rbit s R.TKE_CTRL_FALLBACK_ACTIVE = false →
      exec (.promote t r) s = .next (complete (takeReq (advance s t) r) r stRejectState 0x0202 (some (rowHere (advance s t)))))

/-- A pattern that passes fits the row budget and the present tick period, has 1 to 4,096 stitches of known types, each with 1 ≤ N and OFFSET < EVERY, at most one SOLVE, and none in the fallback slot. A table set that passes has as many regions as its two band counts multiply to, between 1 and 64, hard bounds in order for all 32 slots with the fallback vector inside them, finite values, weights not negative and no output channel named by two loops. -/
def Obligations.AdmittedImages : Prop :=
  (∀ (s : State) (fb : Bool) (n : Nat) (img : List Nat) (p : Pattern),
      checkPattern s fb n img = .admitted p →
      p.cost = patternCost (accessCost s) p.stitches ∧ p.cost ≤ budgetOf (windowNow s) ∧ p.periodMin ≤ rget s R.TKE_TICK_PERIOD_PERIOD_US ∧ rget s R.TKE_TICK_PERIOD_PERIOD_US ≤ p.periodMax ∧
        1 ≤ p.stitches.length ∧ p.stitches.length ≤ 4096 ∧ (p.stitches.filter fun st => st.typ == 4).length ≤ 1 ∧ (fb = true → ∀ st ∈ p.stitches, st.typ ≠ 4) ∧
        (∀ st ∈ p.stitches, 1 ≤ st.n ∧ st.offset < st.every ∧ 1 ≤ st.typ ∧ st.typ ≤ 10 ∧ ∀ m, stitchMaxN st.typ = some m → st.n ≤ m)) ∧
  (∀ (n : Nat) (ts : List Nat),
      checkTable n ts = none →
      tsRegions ts = tsMfBands ts * tsMoBands ts ∧ 1 ≤ tsRegions ts ∧ tsRegions ts ≤ 64 ∧ tsDefault ts < tsRegions ts ∧ n = 0x3000 + tsRegions ts * 0x1000 ∧ n = imgWord ts 8 ∧
        (∀ i < 32, fLe (tsHardLo ts i) (tsHardHi ts i) = true ∧ fLe (tsHardLo ts i) (tsFallback ts i) = true ∧ fLe (tsFallback ts i) (tsHardHi ts i) = true) ∧
        (∀ r < tsRegions ts, ∀ j < 16, fLe f0 (tsWeight ts r j) = true ∧ fFinite (tsWeight ts r j) = true) ∧
        (∀ i < 32, ∀ k < 32, i ≠ k → ∀ c, c ∈ loopDriveNames ts i → c ≤ 95 ∧ c ∉ loopDriveNames ts k))

/-- A TKE that meets every condition of arming is armed and SINGLE or STARTING, with ARM_ERR 0, STOPPED, FALLBACK_ACTIVE and CONSEC clear, and its solver, loops and estimators fresh; with pairing the module listens in STARTING with the bid of its stored epoch. A condition that fails leaves it disarmed with ARM_ERR at the code of the first. Disarming clears ARM, ARMED and CONSEC. -/
def Obligations.TickArming : Prop :=
  (∀ (s : State) (t : Fc) (saved : Bool),
      s.fabric = true →
      tkeArmed s = false →
      armError s = 0 →
      pairEn s = false →
      ∃ u, exec (.tkeArm t saved) s = .next u ∧ tkeArmed u = true ∧ rget u R.TKE_CTRL_ARM = 1 ∧ rget u R.TKE_CTRL_ARM_ERR = 0 ∧ rget u R.TKE_CTRL_STOPPED = 0 ∧ rget u R.TKE_CTRL_FALLBACK_ACTIVE = 0 ∧ rget u R.TKE_OVERRUN_CONSEC = 0 ∧
        rget u R.XLK_ROLE_ROLE = 0 ∧ rget u R.XLK_BID_BID = (nextEpoch s * 256 + rankOf s) % 2 ^ 32 ∧ (saved = true → u.xlk.savedEpoch = nextEpoch s) ∧ u.sps = { s.sps with pFromFallback := true, bands := none, loops := [] } ∧ u.sfe = { s.sfe with est := [] } ∧
        u.tke = { s.tke with main := s.tke.main.map (recosted s), fallback := s.tke.fallback.map (recosted s) } ∧ BlocksOnly s u [.tke, .xlk, .hlm, .jrn] ∧ u = { advance s t with regs := u.regs, tke := u.tke, sps := u.sps, sfe := u.sfe, xlk := u.xlk, log := u.log, mem := u.mem, extMem := u.extMem }) ∧
  (∀ (s : State) (t : Fc) (saved : Bool),
      s.fabric = true →
      tkeArmed s = false →
      armError s = 0 →
      pairEn s = true →
      ∃ u, exec (.tkeArm t saved) s = .next u ∧ tkeArmed u = true ∧ rget u R.TKE_CTRL_ARM = 1 ∧ rget u R.TKE_CTRL_ARM_ERR = 0 ∧ rget u R.TKE_CTRL_STOPPED = 0 ∧ rget u R.TKE_CTRL_FALLBACK_ACTIVE = 0 ∧ rget u R.TKE_OVERRUN_CONSEC = 0 ∧
        rget u R.XLK_ROLE_ROLE = 1 ∧ rget u R.XLK_BID_BID = (s.xlk.savedEpoch * 256 + rankOf s) % 2 ^ 32 ∧ u.xlk.lastHb = none ∧ u.xlk.startRow = rowNow s ∧ u.sps = { s.sps with pFromFallback := true, bands := none, loops := [] } ∧ u.sfe = { s.sfe with est := [] } ∧
        u.tke = { s.tke with main := s.tke.main.map (recosted s), fallback := s.tke.fallback.map (recosted s) } ∧ BlocksOnly s u [.tke, .xlk] ∧ u = { advance s t with regs := u.regs, tke := u.tke, sps := u.sps, sfe := u.sfe, xlk := u.xlk }) ∧
  (∀ (s : State) (t : Fc) (saved : Bool),
      s.fabric = true →
      tkeArmed s = false →
      armError s ≠ 0 →
      exec (.tkeArm t saved) s = .next (rset (rset (advance s t) R.TKE_CTRL_ARM_ERR (armError s)) R.TKE_CTRL_ARM 0)) ∧
  (∀ (s : State) (t : Fc) (saved : Bool),
      s.fabric = true →
      tkeArmed s = false →
      s.tke.main = none →
      exec (.tkeArm t saved) s = .next (rset (rset (advance s t) R.TKE_CTRL_ARM_ERR 1) R.TKE_CTRL_ARM 0)) ∧
  (∀ (s : State) (t : Fc) (saved : Bool) (m f : Pattern),
      s.fabric = true →
      tkeArmed s = false →
      s.tke.main = some m →
      s.tke.fallback = some f →
      rget s R.TKE_TABLE_STATE_LIVE_BUF ≠ 3 →
      recheck s m = 0 →
      recheck s f = 0 →
      0 < rget s R.TKE_COMMIT_OFFSET_OFFSET_US →
      rget s R.TKE_COMMIT_OFFSET_OFFSET_US < 100 →
      exec (.tkeArm t saved) s = .next (rset (rset (advance s t) R.TKE_CTRL_ARM_ERR 5) R.TKE_CTRL_ARM 0)) ∧
  (∀ (s : State) (t : Fc),
      s.fabric = true →
      ∃ u, exec (.tkeDisarm t) s = .next u ∧ tkeArmed u = false ∧ rget u R.TKE_CTRL_ARM = 0 ∧ (s.tke.rowArmed = false → rget u R.TKE_OVERRUN_CONSEC = 0) ∧ u.xlk = { s.xlk with swDisarmed := true } ∧
        (s.tke.rowArmed = true → u.tke.disarmAt ≠ none) ∧ u.tke = { s.tke with disarmAt := u.tke.disarmAt, disarmLast := some (max s.now t) } ∧
        RegsOnly s u [R.TKE_CTRL_ARM.key 0 0, R.TKE_CTRL_ARMED.key 0 0, R.TKE_OVERRUN_CONSEC.key 0 0] ∧ u = { advance s t with regs := u.regs, tke := u.tke, xlk := u.xlk })

/-- On a module that commands, a QUAL_POST of a host-posted measure stores value, INVALID and stamp and completes DONE, or DONE with detail 2 where it is older than the value held; a measure of another source is refused. An ENVELOPE_SET with finite ordered limits that meet the hard bounds, or a release, waits for the edge and so does a CAL_SET of finite values for a measure with an estimator; CLS_SELECT of the other bank pends it, of the live bank completes DONE with detail 3. An earlier one waiting for the same slot, measure or bank completes DONE with detail 1, and what is taken is forwarded to a partner that resynchronises. The last three act after the edge when they come in its fc. A module that does not command refuses with 0x0283. -/
def Obligations.GeneralService : Prop :=
  (∀ (s : State) (t : Fc) (r : Ref) (d : Desc),
      s.fabric = true →
      heldDesc s r 0xB 0x20 = some d →
      due (advance s t) d = true →
      commanding s = true →
      d.classWord < 16 →
      d.word 0x14 < 2 →
      (∀ k < 8, d.word (0x20 + 4 * k) = 0) →
      rget s R.SPS_QUAL_CFG_SOURCE 0 (d.classWord % 16) = 2 →
      (∀ v, tblGet? s.sps.posts (d.classWord % 16) = some v → v.stamp ≤ d.quad 0x18) →
      exec (.qualPost t r) s = .next (let v : QVal := ⟨d.word 0x10, bitOf (d.word 0x14) 0, d.quad 0x18⟩
        complete (forward { (takeReq (advance s t) r) with sps := { s.sps with posts := tblSet s.sps.posts (d.classWord % 16) v } } (.post (d.classWord % 16) v)) r stDone)) ∧
  (∀ (s : State) (t : Fc) (r : Ref) (d : Desc) (v : QVal),
      s.fabric = true →
      heldDesc s r 0xB 0x20 = some d →
      due (advance s t) d = true →
      commanding s = true →
      d.classWord < 16 →
      d.word 0x14 < 2 →
      (∀ k < 8, d.word (0x20 + 4 * k) = 0) →
      rget s R.SPS_QUAL_CFG_SOURCE 0 (d.classWord % 16) = 2 →
      tblGet? s.sps.posts (d.classWord % 16) = some v →
      d.quad 0x18 < v.stamp →
      exec (.qualPost t r) s = .next (complete (takeReq (advance s t) r) r stDone 2)) ∧
  (∀ (s : State) (t : Fc) (r : Ref) (d : Desc),
      s.fabric = true →
      heldDesc s r 0xB 0x20 = some d →
      due (advance s t) d = true →
      commanding s = true →
      d.classWord < 16 →
      d.word 0x14 < 2 →
      (∀ k < 8, d.word (0x20 + 4 * k) = 0) →
      rget s R.SPS_QUAL_CFG_SOURCE 0 (d.classWord % 16) ≠ 2 →
      exec (.qualPost t r) s = .next (complete (takeReq (advance s t) r) r stRejectState 0x0222)) ∧
  (∀ (s : State) (t : Fc) (r : Ref) (d : Desc),
      s.fabric = true →
      heldDesc s r 0xB 0x20 = some d →
      due (advance s t) d = true →
      commanding s = false →
      exec (.qualPost t r) s = .next (complete (takeReq (advance s t) r) r stRejectState 0x0283)) ∧
  (∀ (s : State) (t : Fc) (r : Ref) (d : Desc) (ts : List Nat),
      s.fabric = true →
      heldDesc s r 0xB 0x21 = some d →
      due (advance s t) d = true →
      edgeDue (advance s t) = false →
      commanding s = true →
      d.classWord < 32 →
      (∀ k < 9, d.word (0x1C + 4 * k) = 0) →
      d.word 0x18 = 0 →
      fFinite (d.word 0x10) = true →
      fFinite (d.word 0x14) = true →
      fLt (d.word 0x14) (d.word 0x10) = false →
      liveSet s = some ts →
      fLt (d.word 0x14) (tsHardLo ts (d.classWord % 32)) = false →
      fLt (tsHardHi ts (d.classWord % 32)) (d.word 0x10) = false →
      exec (.envelopeSet t r) s = .next (let a := match tblGet? s.sps.envPend (d.classWord % 32) with
          | some o => completeOpt (takeReq (advance s t) r) o.ref stDone 1
          | none => (takeReq (advance s t) r)
        forward { a with sps := { a.sps with envPend := tblSet a.sps.envPend (d.classWord % 32) ⟨some (d.word 0x10, d.word 0x14), some r⟩ } } (.envelope (d.classWord % 32) (some (d.word 0x10, d.word 0x14))))) ∧
  (∀ (s : State) (t : Fc) (r : Ref) (d : Desc),
      s.fabric = true →
      heldDesc s r 0xB 0x21 = some d →
      due (advance s t) d = true →
      edgeDue (advance s t) = false →
      commanding s = true →
      d.classWord < 32 →
      (∀ k < 9, d.word (0x1C + 4 * k) = 0) →
      d.word 0x18 = 1 →
      exec (.envelopeSet t r) s = .next (let a := match tblGet? s.sps.envPend (d.classWord % 32) with
          | some o => completeOpt (takeReq (advance s t) r) o.ref stDone 1
          | none => (takeReq (advance s t) r)
        forward { a with sps := { a.sps with envPend := tblSet a.sps.envPend (d.classWord % 32) ⟨none, some r⟩ } } (.envelope (d.classWord % 32) none))) ∧
  (∀ (s : State) (t : Fc) (r : Ref) (d : Desc),
      s.fabric = true →
      heldDesc s r 0xB 0x21 = some d →
      due (advance s t) d = true →
      edgeDue (advance s t) = false →
      commanding s = true →
      d.classWord < 32 →
      (∀ k < 9, d.word (0x1C + 4 * k) = 0) →
      d.word 0x18 = 0 →
      (fFinite (d.word 0x10) = false ∨ fFinite (d.word 0x14) = false ∨ fLt (d.word 0x14) (d.word 0x10) = true) →
      exec (.envelopeSet t r) s = .next (complete (takeReq (advance s t) r) r stRejectFormat 0x0120)) ∧
  (∀ (s : State) (t : Fc) (r : Ref) (d : Desc),
      s.fabric = true →
      heldDesc s r 0xB 0x21 = some d →
      due (advance s t) d = true →
      edgeDue (advance s t) = false →
      commanding s = true →
      d.classWord < 32 →
      (∀ k < 9, d.word (0x1C + 4 * k) = 0) →
      d.word 0x18 = 0 →
      fFinite (d.word 0x10) = true →
      fFinite (d.word 0x14) = true →
      fLt (d.word 0x14) (d.word 0x10) = false →
      liveSet s = none →
      exec (.envelopeSet t r) s = .next (complete (takeReq (advance s t) r) r stRejectState 0x0221)) ∧
  (∀ (s : State) (t : Fc) (r : Ref) (d : Desc),
      s.fabric = true →
      heldDesc s r 0xB 0x30 = some d →
      due (advance s t) d = true →
      edgeDue (advance s t) = false →
      commanding s = true →
      (bitOf (d.word 0x18) 0 = true ∨ bitOf (d.word 0x18) 1 = true) →
      (bitOf (d.word 0x18) 0 = true → fFinite (d.word 0x10) = true) →
      (bitOf (d.word 0x18) 1 = true → fFinite (d.word 0x14) = true) →
      rval s R.SFE_EST_KIND 0 (d.classWord % 16) ≠ 0 →
      exec (.calSet t r) s = .next (let a := match tblGet? s.sfe.calPend (d.classWord % 16) with
          | some o => completeOpt (takeReq (advance s t) r) o.ref stDone 1
          | none => (takeReq (advance s t) r)
        let p : CalPend := ⟨if bitOf (d.word 0x18) 0 then some (d.word 0x10) else none, if bitOf (d.word 0x18) 1 then some (d.word 0x14) else none, some r⟩
        forward { a with sfe := { a.sfe with calPend := tblSet a.sfe.calPend (d.classWord % 16) p } } (.calibration (d.classWord % 16) (p.a.getD (rget s R.SFE_EST_A 0 (d.classWord % 16))) (p.b.getD (rget s R.SFE_EST_B 0 (d.classWord % 16)))))) ∧
  (∀ (s : State) (t : Fc) (r : Ref) (d : Desc),
      s.fabric = true →
      heldDesc s r 0xB 0x30 = some d →
      due (advance s t) d = true →
      edgeDue (advance s t) = false →
      commanding s = true →
      bitOf (d.word 0x18) 0 = true →
      bitOf (d.word 0x18) 1 = false →
      fFinite (d.word 0x10) = true →
      rval s R.SFE_EST_KIND 0 (d.classWord % 16) = 0 →
      exec (.calSet t r) s = .next (complete (takeReq (advance s t) r) r stRejectState 0x0231)) ∧
  (∀ (s : State) (t : Fc) (r : Ref) (d : Desc),
      s.fabric = true →
      heldDesc s r 0xB 0x30 = some d →
      due (advance s t) d = true →
      edgeDue (advance s t) = false →
      commanding s = true →
      bitOf (d.word 0x18) 0 = false →
      bitOf (d.word 0x18) 1 = false →
      exec (.calSet t r) s = .next (complete (takeReq (advance s t) r) r stRejectFormat 0x0130)) ∧
  (∀ (s : State) (t : Fc) (r : Ref) (d : Desc),
      s.fabric = true →
      heldDesc s r 0xB 0x31 = some d →
      due (advance s t) d = true →
      edgeDue (advance s t) = false →
      commanding s = true →
      rget s R.SFE_CTRL_LIVE_BANK ≠ d.classWord % 2 →
      exec (.clsSelect t r) s = .next (let a := match s.sfe.clsRef with
          | some o => completeOpt (takeReq (advance s t) r) o stDone 1
          | none => (takeReq (advance s t) r)
        forward { rset (rset a R.SFE_CTRL_PENDING 1) R.SFE_CTRL_PENDING_BANK (d.classWord % 2) with sfe := { a.sfe with clsRef := some (some r) } } (.classBank (d.classWord % 2)))) ∧
  (∀ (s : State) (t : Fc) (r : Ref) (d : Desc),
      s.fabric = true →
      heldDesc s r 0xB 0x31 = some d →
      due (advance s t) d = true →
      edgeDue (advance s t) = false →
      commanding s = true →
      rget s R.SFE_CTRL_LIVE_BANK = d.classWord % 2 →
      exec (.clsSelect t r) s = .next (let a := match s.sfe.clsRef with
          | some o => completeOpt (takeReq (advance s t) r) o stDone 1
          | none => (takeReq (advance s t) r)
        complete (forward { rset a R.SFE_CTRL_PENDING 0 with sfe := { a.sfe with clsRef := none } } (.classBank (d.classWord % 2))) r stDone 3))

/-- The conversions of an enabled idle channel enter its baseline until one of magnitude above TRIG opens a pulse. After HOLD_OFF samples at or below TRIG it closes: a pile-up counts in PILEUP alone, any other pulse counts once in the counter of its class, saturating; a clipped one counts in CLIPPED. A pulse still open after 4,096 samples closes, counts in STUCK, raises SFE_IMPACT_STUCK once and waits for HOLD_OFF quiet samples. What comes in the fc of a tick edge acts after the edge. The arithmetic of the baseline is the model's choice (log entry 130). -/
def Obligations.ImpactPulses : Prop :=
  (∀ (s : State) (t : Fc) (ch : Fin 48) (xs : List Int) (x : Int),
      s.fabric = true →
      edgeDue (advance s t) = false →
      rbit s R.SFE_IMP_CFG_EN 0 ch = true →
      exec (.impactPulseOpen t ch xs x) s = .next (setImp (advance s t) ch ((xs ++ [x]).foldl (impSample (impTrig s ch) (rval s R.SFE_IMP_CFG_HOLD_OFF 0 ch)) (getImp s ch)))) ∧
  (∀ (s : State) (t : Fc) (ch : Fin 48) (xs : List Int) (x : Int) (c : ImpCh),
      s.fabric = true →
      edgeDue (advance s t) = false →
      rbit s R.SFE_IMP_CFG_EN 0 ch = true →
      xs.foldl (impSample (impTrig s ch) (rval s R.SFE_IMP_CFG_HOLD_OFF 0 ch)) (getImp s ch) = c →
      c.isOpen = false →
      impTrig s ch < impMag c x →
      (c.waiting = false ∨ (rval s R.SFE_IMP_CFG_HOLD_OFF 0 ch) ≤ c.quiet) →
      exec (.impactPulseOpen t ch xs x) s = .next (setImp (advance s t) ch { c with isOpen := true, waiting := false, quiet := 0 })) ∧
  (∀ (s : State) (t : Fc) (ch : Fin 48) (x : Int),
      s.fabric = true →
      edgeDue (advance s t) = false →
      rbit s R.SFE_IMP_CFG_EN 0 ch = true →
      (getImp s ch).isOpen = false →
      impMag (getImp s ch) x ≤ impTrig s ch →
      exec (.impactPulseOpen t ch [] x) s = .next (setImp (advance s t) ch { getImp s ch with base := (getImp s ch).base + (x * 65536 - (getImp s ch).base) / 5000, quiet := (getImp s ch).quiet + 1 })) ∧
  (∀ (s : State) (t : Fc) (ch : Fin 48) (x : Int) (xs : List Int) (l : List Nat),
      s.fabric = true →
      edgeDue (advance s t) = false →
      (getImp s ch).isOpen = true →
      (x :: xs).map (impMag (getImp s ch)) = l →
      opensAbove (impTrig s ch) l = true →
      pulseEnd (impTrig s ch) (rval s R.SFE_IMP_CFG_HOLD_OFF 0 ch) l = some l.length →
      l.length ≤ 4096 →
      (x :: xs).any impFull = false →
      isPileUp (impTrig s ch) l = false →
      classify s ch (features (impTrig s ch) l) = 0 →
      exec (.impactPulseClose t ch x xs) s = .next (setImp (advance s t) ch { getImp s ch with isOpen := false, kernel := min ((getImp s ch).kernel + 1) 0xFFFF })) ∧
  (∀ (s : State) (t : Fc) (ch : Fin 48) (x : Int) (xs : List Int) (l : List Nat),
      s.fabric = true →
      edgeDue (advance s t) = false →
      (getImp s ch).isOpen = true →
      (x :: xs).map (impMag (getImp s ch)) = l →
      opensAbove (impTrig s ch) l = true →
      pulseEnd (impTrig s ch) (rval s R.SFE_IMP_CFG_HOLD_OFF 0 ch) l = some l.length →
      l.length ≤ 4096 →
      (x :: xs).any impFull = false →
      isPileUp (impTrig s ch) l = false →
      classify s ch (features (impTrig s ch) l) = 1 →
      exec (.impactPulseClose t ch x xs) s = .next (setImp (advance s t) ch { getImp s ch with isOpen := false, straw := min ((getImp s ch).straw + 1) 0xFFFF })) ∧
  (∀ (s : State) (t : Fc) (ch : Fin 48) (x : Int) (xs : List Int) (l : List Nat),
      s.fabric = true →
      edgeDue (advance s t) = false →
      (getImp s ch).isOpen = true →
      (x :: xs).map (impMag (getImp s ch)) = l →
      opensAbove (impTrig s ch) l = true →
      pulseEnd (impTrig s ch) (rval s R.SFE_IMP_CFG_HOLD_OFF 0 ch) l = some l.length →
      l.length ≤ 4096 →
      (x :: xs).any impFull = false →
      isPileUp (impTrig s ch) l = false →
      classify s ch (features (impTrig s ch) l) = 2 →
      exec (.impactPulseClose t ch x xs) s = .next (setImp (advance s t) ch { getImp s ch with isOpen := false, other := min ((getImp s ch).other + 1) 0xFFFF })) ∧
  (∀ (s : State) (t : Fc) (ch : Fin 48) (x : Int) (xs : List Int) (l : List Nat),
      s.fabric = true →
      edgeDue (advance s t) = false →
      (getImp s ch).isOpen = true →
      (x :: xs).map (impMag (getImp s ch)) = l →
      opensAbove (impTrig s ch) l = true →
      pulseEnd (impTrig s ch) (rval s R.SFE_IMP_CFG_HOLD_OFF 0 ch) l = some l.length →
      l.length ≤ 4096 →
      (x :: xs).any impFull = false →
      isPileUp (impTrig s ch) l = true →
      exec (.impactPulseClose t ch x xs) s = .next (setImp (advance s t) ch { getImp s ch with isOpen := false, pileup := min ((getImp s ch).pileup + 1) 0xFF })) ∧
  (∀ (s : State) (t : Fc) (ch : Fin 48) (x : Int) (xs : List Int) (l : List Nat),
      s.fabric = true →
      edgeDue (advance s t) = false →
      (getImp s ch).isOpen = true →
      (x :: xs).map (impMag (getImp s ch)) = l →
      opensAbove (impTrig s ch) l = true →
      pulseEnd (impTrig s ch) (rval s R.SFE_IMP_CFG_HOLD_OFF 0 ch) l = some l.length →
      l.length ≤ 4096 →
      (x :: xs).any impFull = true →
      ∃ u, exec (.impactPulseClose t ch x xs) s = .next u ∧ (getImp u ch).clip = true ∧ (getImp u ch).isOpen = false ∧ rget u R.SFE_IMP_EVENTS_CLIPPED = satTo R.SFE_IMP_EVENTS_CLIPPED.width (rget s R.SFE_IMP_EVENTS_CLIPPED + 1) ∧ RegsOnly s u [R.SFE_IMP_EVENTS_CLIPPED.key 0 0] ∧ u = { advance s t with regs := u.regs, sfe := u.sfe }) ∧
  (∀ (s : State) (t : Fc) (ch : Fin 48) (xs : List Int) (l : List Nat),
      s.fabric = true →
      edgeDue (advance s t) = false →
      (getImp s ch).isOpen = true →
      (xs.take 4096).map (impMag (getImp s ch)) = l →
      opensAbove (impTrig s ch) l = true →
      4096 ≤ l.length →
      pulseEnd (impTrig s ch) (rval s R.SFE_IMP_CFG_HOLD_OFF 0 ch) l = none →
      (xs.take 4096).any impFull = false →
      (getImp s ch).stuckTold = false →
      ∃ u, exec (.impactStuck t ch xs) s = .next u ∧ (getImp u ch).isOpen = false ∧ (getImp u ch).waiting = true ∧ (getImp u ch).stuck = true ∧ (getImp u ch).kernel = (getImp s ch).kernel ∧
        rget u R.SFE_IMP_EVENTS_STUCK = satTo R.SFE_IMP_EVENTS_STUCK.width (rget s R.SFE_IMP_EVENTS_STUCK + 1) ∧ BlocksOnly s u [.sfe, .hlm, .jrn] ∧ u = { advance s t with regs := u.regs, sfe := u.sfe, log := u.log, mem := u.mem, extMem := u.extMem })

/-- Of FRQ_EDGE, QUAD_EDGE, QUAD_ZERO, DIG_DEBOUNCE_EXPIRY, EXC_FAULT, SSUP_FAULT_OFF, SSUP_RESTART, SSUP_ENABLE, CONVERTER_SWAP, ZT_SETTLE_EXPIRY and ZT_WINDOW_END. What comes in the fc of a tick edge acts after the edge. An edge that has held MIN_PULSE is recorded with its own module time and counted modulo 2^24. A legal quadrature step moves the position by one, an illegal one only counts an error; SFE_QUAD_ZERO marks the named pairs. The samples of a DIG input set its level against the threshold, and one held for the debounce time is taken. An excitation beyond its limits is a fault of the cell. A supply beyond its limits for 1 ms turns off and restarts 100 ms later; the third time in 10 s it latches until EN is written 0 and 1. A converter swap out of limits retires its group. Zero tracking opens a window after SETTLE_MS and keeps the mean of input 1 after WINDOW_MS. -/
def Obligations.SensorInputs : Prop :=
  (∀ (s : State) (t : Fc) (n : Fin 32) (h : Nat),
      s.fabric = true →
      edgeDue (advance s t) = false →
      rbit s R.SFE_FRQ_CFG_EN 0 n = true →
      inQuad s n = false →
      40 * rget s R.SFE_FRQ_CFG_MIN_PULSE 0 n ≤ h →
      exec (.frqEdge t n h) s = .next (let e := quarterAt (advance s t) (max s.now t - h)
        setFrq (advance s t) n { getFrq s n with t0 := (getFrq s n).t1, t1 := some e, firstInTick := if (getFrq s n).nInTick = 0 then some e else (getFrq s n).firstInTick, nInTick := (getFrq s n).nInTick + 1, count := ((getFrq s n).count + 1) % 2 ^ 24 })) ∧
  (∀ (s : State) (t : Fc) (n : Fin 32) (h : Nat),
      s.fabric = true →
      edgeDue (advance s t) = false →
      h < 40 * rget s R.SFE_FRQ_CFG_MIN_PULSE 0 n →
      exec (.frqEdge t n h) s = .next (advance s t)) ∧
  (∀ (s : State) (t : Fc) (k : Fin 16),
      s.fabric = true →
      edgeDue (advance s t) = false →
      quadOn s k = true →
      (getQuad s k).a = false →
      (getQuad s k).b = false →
      exec (.quadEdge t k true false) s = .next (setQuad (advance s t) k { getQuad s k with a := true, b := false, pos := (getQuad s k).pos + 1 })) ∧
  (∀ (s : State) (t : Fc) (k : Fin 16),
      s.fabric = true →
      edgeDue (advance s t) = false →
      quadOn s k = true →
      (getQuad s k).a = false →
      (getQuad s k).b = false →
      exec (.quadEdge t k false true) s = .next (setQuad (advance s t) k { getQuad s k with a := false, b := true, pos := (getQuad s k).pos - 1 })) ∧
  (∀ (s : State) (t : Fc) (k : Fin 16) (a b : Bool),
      s.fabric = true →
      edgeDue (advance s t) = false →
      quadOn s k = true →
      a ≠ (getQuad s k).a →
      b ≠ (getQuad s k).b →
      exec (.quadEdge t k a b) s = .next (rset (setQuad (advance s t) k { getQuad s k with a := a, b := b, err := true }) R.SFE_QUAD_ERRS_COUNT (satTo R.SFE_QUAD_ERRS_COUNT.width (rget s R.SFE_QUAD_ERRS_COUNT + 1)))) ∧
  (∀ (s : State) (t : Fc) (m : Fin 65536),
      s.fabric = true →
      edgeDue (advance s t) = false →
      ∃ u, exec (.quadZero t m) s = .next u ∧ (∀ k < 16, getQuad u k = { getQuad s k with zero := (getQuad s k).zero || bitOf m k }) ∧ u = { advance s t with sfe := u.sfe }) ∧
  (∀ (s : State) (t : Fc) (n : Fin 64) (uv : Nat) (uvs : List Nat),
      s.fabric = true →
      edgeDue (advance s t) = false →
      rval s R.SFE_GIN_CFG_MODE 0 n = 5 →
      exec (.digDebounceExpiry t n uv uvs) s = .next (digSamples (advance s t) n (uv :: uvs))) ∧
  (∀ (s : State) (t : Fc) (n : Fin 64) (uv : Nat) (c : DigIn),
      s.fabric = true →
      edgeDue (advance s t) = false →
      rval s R.SFE_GIN_CFG_MODE 0 n = 5 →
      tblGetD s.sfe.dig n DigIn.idle = c →
      c.raw = true →
      rval s R.SFE_GIN_CFG_DIG_THRESH 0 n * 250000 ≤ uv + 500000 →
      c.since + rget s R.SFE_GIN_CFG_DEBOUNCE_MS 0 n * 400000 ≤ max s.now t →
      exec (.digDebounceExpiry t n uv []) s = .next ({ advance s t with sfe := { s.sfe with dig := tblSet s.sfe.dig n { c with level := true } } })) ∧
  (∀ (s : State) (t : Fc) (n : Fin 4) (ma mv : Nat),
      s.fabric = true →
      edgeDue (advance s t) = false →
      rbit s R.SFE_LCL_CFG_EN 0 n = true →
      (60 < ma ∨ mv < 4750) →
      ∃ u, exec (.excFault t n ma mv) s = .next u ∧ n.val ∈ u.sfe.exc ∧ n.val ∈ u.sfe.excTick ∧ (∀ k, k ≠ n.val → (k ∈ u.sfe.exc ↔ k ∈ s.sfe.exc)) ∧ u = { advance s t with sfe := { s.sfe with exc := u.sfe.exc, excTick := u.sfe.excTick } }) ∧
  (∀ (s : State) (t : Fc) (n : Fin 4) (ma mv : Nat),
      s.fabric = true →
      edgeDue (advance s t) = false →
      rbit s R.SFE_LCL_CFG_EN 0 n = true →
      ma ≤ 60 →
      4750 ≤ mv →
      ∃ u, exec (.excFault t n ma mv) s = .next u ∧ n.val ∉ u.sfe.exc ∧ (n.val ∈ s.sfe.exc → n.val ∈ u.sfe.excTick)) ∧
  (∀ (s : State) (t : Fc) (n : Fin 8) (ma mv a : Nat),
      s.fabric = true →
      edgeDue (advance s t) = false →
      (getSsup s n).on = true →
      (360 < ma ∨ mv * 10 < ssupMv s n * 9) →
      a + 400000 ≤ max s.now t →
      ((getSsup s n).offTimes.filter fun x => decide (max s.now t < x + 10 * 400000000)).length < 2 →
      ∃ u, exec (.ssupFaultOff t n ma mv a) s = .next u ∧ (getSsup u n).on = false ∧ (getSsup u n).badTick = true ∧ (getSsup u n).offTimes = max s.now t :: ((getSsup s n).offTimes.filter fun x => decide (max s.now t < x + 10 * 400000000)) ∧ bitOf (rget u R.SFE_SSUP_STAT_FAULT) n = true ∧ bitOf (rget u R.SFE_SSUP_STAT_TRIPPED) n = true ∧
        (getSsup u n).restartAt = some (max s.now t + 40000000) ∧ RegsOnly s u [R.SFE_SSUP_STAT_FAULT.key 0 0, R.SFE_SSUP_STAT_TRIPPED.key 0 0] ∧ u = { advance s t with regs := u.regs, sfe := u.sfe, onesAt := u.onesAt }) ∧
  (∀ (s : State) (t : Fc) (n : Fin 8) (ma mv a : Nat),
      s.fabric = true →
      edgeDue (advance s t) = false →
      (getSsup s n).on = true →
      (360 < ma ∨ mv * 10 < ssupMv s n * 9) →
      a + 400000 ≤ max s.now t →
      2 ≤ ((getSsup s n).offTimes.filter fun x => decide (max s.now t < x + 10 * 400000000)).length →
      ∃ u, exec (.ssupFaultOff t n ma mv a) s = .next u ∧ (getSsup u n).on = false ∧ (getSsup u n).badTick = true ∧ (getSsup u n).offTimes = max s.now t :: ((getSsup s n).offTimes.filter fun x => decide (max s.now t < x + 10 * 400000000)) ∧ bitOf (rget u R.SFE_SSUP_STAT_FAULT) n = true ∧ bitOf (rget u R.SFE_SSUP_STAT_TRIPPED) n = true ∧
        (getSsup u n).restartAt = none ∧ bitOf (rget u R.SFE_SSUP_STAT_LATCHED) n = true ∧ BlocksOnly s u [.sfe, .hlm, .jrn] ∧ u = { advance s t with regs := u.regs, sfe := u.sfe, onesAt := u.onesAt, log := u.log, mem := u.mem, extMem := u.extMem }) ∧
  (∀ (s : State) (t : Fc) (n : Fin 8) (a : Nat),
      s.fabric = true →
      edgeDue (advance s t) = false →
      (getSsup s n).restartAt = some a →
      a ≤ max s.now t →
      ∃ u, exec (.ssupRestart t n) s = .next u ∧ getSsup u n = { getSsup s n with on := true, onAt := max s.now t, badTick := true, restartAt := none } ∧ bitOf (rget u R.SFE_SSUP_STAT_FAULT) n = false ∧ RegsOnly s u [R.SFE_SSUP_STAT_FAULT.key 0 0] ∧ u = { advance s t with regs := u.regs, sfe := u.sfe }) ∧
  (∀ (s : State) (t : Fc) (n : Fin 8),
      s.fabric = true →
      edgeDue (advance s t) = false →
      rbit s R.SFE_SSUP_CFG_EN 0 n = false →
      ∃ u, exec (.ssupEnable t n true) s = .next u ∧ rget u R.SFE_SSUP_CFG_EN 0 n = 1 ∧ (getSsup u n).on = true ∧ (getSsup u n).restartAt = none ∧ bitOf (rget u R.SFE_SSUP_STAT_FAULT) n = false ∧ bitOf (rget u R.SFE_SSUP_STAT_LATCHED) n = false ∧
        RegsOnly s u [R.SFE_SSUP_CFG_EN.key 0 n, R.SFE_SSUP_STAT_FAULT.key 0 0, R.SFE_SSUP_STAT_LATCHED.key 0 0] ∧ u = { advance s t with regs := u.regs, sfe := u.sfe }) ∧
  (∀ (s : State) (t : Fc) (b : Fin 14) (g o : Nat),
      s.fabric = true →
      rbit s R.SFE_CTRL_BG_CAL_EN = true →
      bitOf (rget s R.SFE_CAL_STAT_RETIRED) b = false →
      tblGetD s.sfe.lastSwap b 0 + rval s R.SFE_CAL_CFG_PERIOD_S * 400000000 ≤ max s.now t →
      g ≤ 200 →
      (o ≤ (if b.val < 6 then 64 else 8)) →
      ∃ u, exec (.converterSwap t b g o) s = .next u ∧ tblGet? u.sfe.lastSwap b = some (max s.now t) ∧ tblGet? u.sfe.rotation b = some ((tblGetD s.sfe.rotation b 0 + 1) % 9) ∧ rget u R.SFE_CAL_STAT_SWAPS = satTo R.SFE_CAL_STAT_SWAPS.width (rget s R.SFE_CAL_STAT_SWAPS + 1) ∧
        RegsOnly s u [R.SFE_CAL_STAT_SWAPS.key 0 0] ∧ u = { advance s t with regs := u.regs, sfe := u.sfe }) ∧
  (∀ (s : State) (t : Fc) (b : Fin 14) (g o : Nat),
      s.fabric = true →
      rbit s R.SFE_CTRL_BG_CAL_EN = true →
      bitOf (rget s R.SFE_CAL_STAT_RETIRED) b = false →
      tblGetD s.sfe.lastSwap b 0 + rval s R.SFE_CAL_CFG_PERIOD_S * 400000000 ≤ max s.now t →
      (200 < g ∨ (if b.val < 6 then 64 else 8) < o) →
      ∃ u, exec (.converterSwap t b g o) s = .next u ∧ tblGet? u.sfe.lastSwap b = some (max s.now t) ∧ tblGet? u.sfe.rotation b = some ((tblGetD s.sfe.rotation b 0 + 1) % 9) ∧ rget u R.SFE_CAL_STAT_SWAPS = satTo R.SFE_CAL_STAT_SWAPS.width (rget s R.SFE_CAL_STAT_SWAPS + 1) ∧
        bitOf (rget u R.SFE_CAL_STAT_RETIRED) b = true ∧ BlocksOnly s u [.sfe, .hlm, .jrn] ∧ u = { advance s t with regs := u.regs, sfe := u.sfe, log := u.log, mem := u.mem, extMem := u.extMem }) ∧
  (∀ (s : State) (t : Fc) (a : Nat),
      s.fabric = true →
      edgeDue (advance s t) = false →
      s.sfe.zt.since = some a →
      s.sfe.zt.window = none →
      a + rget s R.SFE_ZT_TIMES_SETTLE_MS * 400000 ≤ max s.now t →
      exec (.ztSettleExpiry t) s = .next ({ advance s t with sfe := { s.sfe with zt := { s.sfe.zt with window := some (max s.now t), sum := 0, n := 0 } } })) ∧
  (∀ (s : State) (t : Fc) (a : Nat),
      s.fabric = true →
      edgeDue (advance s t) = false →
      s.sfe.zt.window ≠ some a →
      exec (.ztWindowEnd t a) s = .next (advance s t)) ∧
  (∀ (s : State) (t : Fc) (a : Nat),
      s.fabric = true →
      edgeDue (advance s t) = false →
      s.sfe.zt.window = some a →
      a + rval s R.SFE_ZT_TIMES_WINDOW_MS * 400000 ≤ max s.now t →
      s.sfe.zt.n ≠ 0 →
      exec (.ztWindowEnd t a) s = .next ({ advance s t with sfe := { s.sfe with zt := { s.sfe.zt with window := some (max s.now t), sum := 0, n := 0, result := some (ratF (s.sfe.zt.sum / s.sfe.zt.n)) } } }))

/-- With the plane's supervisor powered, the first command that it has passed for the channel acts. A PROFILE on a free channel of MODE 1 gives it a profile that starts its delay after the commit point, with its ON_TIME and its hold level limited to 100-4,000 mA; on a latched channel it completes REJECT_STATE with 0x0261 in the bank's row record. A PROP sets PHASE PROP, current and dither and completes DONE in that record. OFF takes the channel into DECAY, and stops its shots. CLEAR releases a latched channel whose fault is gone, and is refused while it is found. -/
def Obligations.DriveCommands : Prop :=
  (∀ (s : State) (t : Fc) (ch : Fin 96) (q : Passed) (d n h : Nat),
      (getPps s (ch.val / 48)).powered = true →
      ((getPps s (ch.val / 48)).passed.find? fun x => OutCmd.isDrv ch x.cmd) = some q →
      q.cmd = .drv ch (.profile d n h) →
      q.bankBit = false →
      n ≠ 0 →
      dval s R.DBK_CH_CFG_MODE ch = 1 →
      (getDrv s ch).prof = none →
      drvLatched s ch = false →
      rbit s R.DBK_CTRL_ENABLE (ch.val / 8) = true →
      (q.ref = none ∨ commanding s = true) →
      (q.staged = true ∨ dbit s R.DBK_CH_CFG_OWNER ch = false) →
      ∃ u, exec (.drvProfile t ch) s = .next u ∧ (∃ p, (getDrv u ch).prof = some p ∧ p.reqStart = q.at_ + d * 200 ∧ p.onTime = onTimeFc n ∧ p.ref = q.ref ∧ p.row = q.row ∧
          p.requested = false ∧ p.start = none ∧
          p.holdMa = clampNat 100 4000 (if h = 0 then dval s R.DBK_CH_HOLD_I_HOLD_MA ch else h)) ∧
        (getPps u (ch.val / 48)).passed = (getPps s (ch.val / 48)).passed.erase q ∧ u = { advance s t with pps := u.pps, drv := u.drv }) ∧
  (∀ (s : State) (t : Fc) (ch : Fin 96) (q : Passed) (d n h : Nat) (r : Ref),
      (getPps s (ch.val / 48)).powered = true →
      ((getPps s (ch.val / 48)).passed.find? fun x => OutCmd.isDrv ch x.cmd) = some q →
      q.cmd = .drv ch (.profile d n h) →
      q.bankBit = false →
      n ≠ 0 →
      q.ref = some r →
      commanding s = true →
      (q.staged = true ∨ dbit s R.DBK_CH_CFG_OWNER ch = false) →
      drvLatched s ch = true →
      exec (.drvProfile t ch) s = .next (completeRow (setPps (advance s t) (ch.val / 48) { getPps s (ch.val / 48) with passed := (getPps s (ch.val / 48)).passed.erase q }) (ch.val / 8) r stRejectState 0x0261 q.row)) ∧
  (∀ (s : State) (t : Fc) (ch : Fin 96) (q : Passed) (m hz am : Nat),
      (getPps s (ch.val / 48)).powered = true →
      ((getPps s (ch.val / 48)).passed.find? fun x => OutCmd.isDrv ch x.cmd) = some q →
      q.cmd = .drv ch (.prop m (some (hz, am))) →
      q.bankBit = false →
      m ≤ 3500 →
      hz ≤ 400 →
      am ≤ 500 →
      dval s R.DBK_CH_CFG_MODE ch = 2 →
      drvLatched s ch = false →
      rbit s R.DBK_CTRL_ENABLE (ch.val / 8) = true →
      (q.ref = none ∨ commanding s = true) →
      (q.staged = true ∨ dbit s R.DBK_CH_CFG_OWNER ch = false) →
      ∃ u, exec (.drvProp t ch) s = .next u ∧ drvPhase u ch = 5 ∧ (getDrv u ch).propMa = m ∧ (getDrv u ch).ditherHz = min hz (dval s R.DBK_CH_PROP_PWM_KHZ ch * 100) ∧
        (getDrv u ch).ditherMa = am ∧ (getPps u (ch.val / 48)).passed = (getPps s (ch.val / 48)).passed.erase q ∧ RegsOnly s u [R.DBK_CH_STAT_PHASE.key (ch.val / 8) (ch.val % 8)] ∧ SameBanks s u ∧
        u = { advance s t with regs := u.regs, pps := u.pps, drv := u.drv, dbk := u.dbk, reqs := u.reqs, till := u.till }) ∧
  (∀ (s : State) (t : Fc) (ch : Fin 96) (q : Passed) (m hz am : Nat) (r : Ref) (x : Req),
      (getPps s (ch.val / 48)).powered = true →
      ((getPps s (ch.val / 48)).passed.find? fun x => OutCmd.isDrv ch x.cmd) = some q →
      q.cmd = .drv ch (.prop m (some (hz, am))) →
      q.bankBit = false →
      m ≤ 3500 →
      hz ≤ 400 →
      am ≤ 500 →
      dval s R.DBK_CH_CFG_MODE ch = 2 →
      drvLatched s ch = false →
      rbit s R.DBK_CTRL_ENABLE (ch.val / 8) = true →
      (q.ref = none ∨ commanding s = true) →
      (q.staged = true ∨ dbit s R.DBK_CH_CFG_OWNER ch = false) →
      q.ref = some r →
      findReq s r = some x →
      ∃ u, exec (.drvProp t ch) s = .next u ∧ tblGetD u.till.rowDone (ch.val / 8) [] = tblGetD s.till.rowDone (ch.val / 8) [] ++ [r] ∧
        (∃ y, findReq u r = some y ∧ y.stage = .posted ⟨stDone, 0, some q.row⟩)) ∧
  (∀ (s : State) (t : Fc) (ch : Fin 96) (q : Passed),
      (getPps s (ch.val / 48)).powered = true →
      ((getPps s (ch.val / 48)).passed.find? fun x => OutCmd.isDrv ch x.cmd) = some q →
      q.cmd = .drv ch .off →
      q.bankBit = false →
      rbit s R.DBK_CTRL_ENABLE (ch.val / 8) = true →
      (q.ref = none ∨ commanding s = true) →
      (q.staged = true ∨ dbit s R.DBK_CH_CFG_OWNER ch = false) →
      (dval s R.DBK_CH_CFG_MODE ch = 1 ∨ dval s R.DBK_CH_CFG_MODE ch = 2) →
      ∃ u, exec (.drvOff t ch) s = .next u ∧ drvPhase u ch = 6 ∧ (getDrv u ch).prof = none ∧ (getDrv u ch).propMa = 0 ∧
        (getDrv u ch).rate = 0 ∧ (getDrv u ch).nextShot = none ∧ (getPps u (ch.val / 48)).passed = (getPps s (ch.val / 48)).passed.erase q ∧ BlocksOnly s u [.dbk, .hlm, .jrn] ∧ u = { advance s t with regs := u.regs, pps := u.pps, drv := u.drv, dbk := u.dbk, hlm := u.hlm, reqs := u.reqs, till := u.till, log := u.log, mem := u.mem, extMem := u.extMem }) ∧
  (∀ (s : State) (t : Fc) (ch : Fin 96) (q : Passed),
      (getPps s (ch.val / 48)).powered = true →
      ((getPps s (ch.val / 48)).passed.find? fun x => OutCmd.isDrv ch x.cmd) = some q →
      q.cmd = .drv ch (.clear false) →
      q.bankBit = false →
      rbit s R.DBK_CTRL_ENABLE (ch.val / 8) = true →
      q.ref = none →
      dbit s R.DBK_CH_STAT_LATCHED ch = true →
      exec (.drvClear t ch false) s = .next (dset (dset (setPps (advance s t) (ch.val / 48) { getPps s (ch.val / 48) with passed := (getPps s (ch.val / 48)).passed.erase q }) R.DBK_CH_STAT_LATCHED 0 ch)
          R.DBK_CH_STAT_FAULT 0 ch)) ∧
  (∀ (s : State) (t : Fc) (ch : Fin 96) (q : Passed),
      (getPps s (ch.val / 48)).powered = true →
      ((getPps s (ch.val / 48)).passed.find? fun x => OutCmd.isDrv ch x.cmd) = some q →
      q.cmd = .drv ch (.clear false) →
      q.bankBit = false →
      rbit s R.DBK_CTRL_ENABLE (ch.val / 8) = true →
      q.ref = none →
      dbit s R.DBK_CH_STAT_LATCHED ch = true →
      exec (.drvClear t ch true) s = .next (setPps (advance s t) (ch.val / 48) { getPps s (ch.val / 48) with passed := (getPps s (ch.val / 48)).passed.erase q }))

/-- Of BOOST_REQUEST, BOOST_GAP_EXPIRY, BOOST_WAIT_EXPIRY, BOOST_CURRENT_REACHED, T_BOOST_EXPIRY, T_PEAK_EXPIRY, PROFILE_END_TIME, DECAY_END, MOVEMENT_DETECTED and SHOT_DUE. At its requested start the only waiting profile of a bank whose HSV is free starts its boost: PHASE BOOST, HSV_ON with its channel, SHIFT in steps of 0.5 us, SHOTS counts; with the HSV taken it waits. BOOST_GAP after a boost the best waiting request is granted. A request that has waited BOOST_WAIT is dropped with its profile and counted. The boost ends at its current or at T_BOOST: PEAK, HSV off, and BOOST_GAP of 2 us starts. T_PEAK after the start of PEAK the channel holds and its descriptor has completed. At its end time a profile enters DECAY, below 50 mA the channel is OFF, and a slope that the bank has measured is stored. A dip that the samples confirm stores the movement time limited to 8,191; a search that reaches its end level stores NO_MOVE. A due shot starts a profile of SHOT_US at its requested start and the next shot is due one interval later; while a profile runs it is dropped and counted. The samples of the current are the commands' operand (log entry 134). -/
def Obligations.DriveProfiles : Prop :=
  (∀ (s : State) (t : Fc) (ch : Fin 96) (v : Fin 1024),
      (getPps s (ch.val / 48)).powered = true →
      exec (.boostRequest t ch v) s = .next (bankGrant (advance s t) (ch.val / 8) v)) ∧
  (∀ (s : State) (t : Fc) (ch : Fin 96) (v : Fin 1024) (p : DrvProf),
      (getPps s (ch.val / 48)).powered = true →
      (getPps s (ch.val / 48)).passed = [] →
      (getDrv s ch).prof = some p →
      p.requested = false →
      p.reqStart ≤ max s.now t →
      (∀ c ∈ bankChans (ch.val / 8), (getDrv s c).nextShot = none ∧ (c ≠ ch.val → (getDrv s c).prof = none)) →
      hsvOn s (ch.val / 8) = false →
      (getDbk s (ch.val / 8)).hsvFrom ≤ max s.now t →
      ∃ u, exec (.boostRequest t ch v) s = .next u ∧ drvPhase u ch = 2 ∧ hsvOn u (ch.val / 8) = true ∧ rget u R.DBK_STATUS_HSV_CH (ch.val / 8) = ch.val % 8 ∧
        dget u R.DBK_CH_LAST_SHIFT ch = (((stepNow (advance s t) ch) - p.reqStart) / 200) % 2 ^ R.DBK_CH_LAST_SHIFT.width ∧
        dget u R.DBK_CH_MOVE_SHOTS ch = (dget s R.DBK_CH_MOVE_SHOTS ch + 1) % 2 ^ R.DBK_CH_MOVE_SHOTS.width ∧
        ((getDrv u ch).prof.bind fun x => x.start) = some (stepNow (advance s t) ch) ∧ BlocksOnly s u [.dbk] ∧ u = { advance s t with regs := u.regs, drv := u.drv, dbk := u.dbk, onesAt := u.onesAt }) ∧
  (∀ (s : State) (t : Fc) (ch : Fin 96) (v : Fin 1024) (p : DrvProf),
      (getPps s (ch.val / 48)).powered = true →
      (getPps s (ch.val / 48)).passed = [] →
      (getDrv s ch).prof = some p →
      p.requested = false →
      p.reqStart ≤ max s.now t →
      (∀ c ∈ bankChans (ch.val / 8), (getDrv s c).nextShot = none ∧ (c ≠ ch.val → (getDrv s c).prof = none)) →
      hsvOn s (ch.val / 8) = true →
      hasHsv s ch = false →
      ∃ u, exec (.boostRequest t ch v) s = .next u ∧ drvPhase u ch = 1 ∧ (getDrv u ch).prof = some { p with requested := true } ∧
        RegsOnly s u [R.DBK_CH_STAT_PHASE.key (ch.val / 8) (ch.val % 8), R.DBK_VBST_MEAS.key (ch.val / 8) 0] ∧ (∀ k, getDbk u k = if k = (ch.val / 8) then { getDbk s k with vbstAt := max s.now t } else getDbk s k) ∧ u = { advance s t with regs := u.regs, drv := u.drv, dbk := u.dbk }) ∧
  (∀ (s : State) (t : Fc) (b : Fin 12) (v : Fin 1024) (c : Nat) (p : DrvProf),
      (getPps s (b.val / 6)).powered = true →
      (getPps s (b.val / 6)).passed = [] →
      (∀ c ∈ bankChans b, (getDrv s c).nextShot = none ∧ (getDrv s c).prof.all (fun x => x.requested) = true) →
      hsvOn s b = false →
      (getDbk s b).hsvFrom ≤ max s.now t →
      nextBoost s b = some c →
      c / 8 = b.val →
      (getDrv s c).prof = some p →
      ∃ u, exec (.boostGapExpiry t b v) s = .next u ∧ drvPhase u c = 2 ∧ hsvOn u b = true ∧ rget u R.DBK_STATUS_HSV_CH b = c % 8 ∧ BlocksOnly s u [.dbk] ∧ u = { advance s t with regs := u.regs, drv := u.drv, dbk := u.dbk, onesAt := u.onesAt }) ∧
  (∀ (s : State) (t : Fc) (b : Fin 12) (v : Fin 1024),
      (getPps s (b.val / 6)).powered = true →
      exec (.boostGapExpiry t b v) s = .next (bankGrant (advance s t) b v)) ∧
  (∀ (s : State) (t : Fc) (ch : Fin 96) (v : Fin 1024) (p : DrvProf),
      (getPps s (ch.val / 48)).powered = true →
      (getPps s (ch.val / 48)).passed = [] →
      (∀ c ∈ bankChans (ch.val / 8), (getDrv s c).nextShot = none ∧ (getDrv s c).prof.all (fun x => x.requested) = true) →
      hsvOn s (ch.val / 8) = true →
      drvPhase s ch = 1 →
      (getDrv s ch).prof = some p →
      p.requested = true →
      p.reqStart + dval s R.DBK_CH_CFG_BOOST_WAIT ch * 400 ≤ max s.now t →
      ∃ u, exec (.boostWaitExpiry t ch v) s = .next u ∧ (getDrv u ch).prof = none ∧ drvPhase u ch = 0 ∧
        dget u R.DBK_CH_COUNTS_DROPPED ch = satTo R.DBK_CH_COUNTS_DROPPED.width (dget s R.DBK_CH_COUNTS_DROPPED ch + 1) ∧ (∀ k, getDbk u k = if k = (ch.val / 8) then { getDbk s k with vbstAt := max s.now t } else getDbk s k) ∧ u = { advance s t with regs := u.regs, drv := u.drv, dbk := u.dbk, reqs := u.reqs, till := u.till }) ∧
  (∀ (s : State) (t : Fc) (ch : Fin 96) (v : Fin 1024),
      (getPps s (ch.val / 48)).powered = true →
      exec (.boostWaitExpiry t ch v) s = .next (boostWait (advance s t) ch v)) ∧
  (∀ (s : State) (t : Fc) (ch : Fin 96) (l : List Nat) (a : State) (p : DrvProf) (m : Nat),
      (getPps s (ch.val / 48)).powered = true →
      drvTrace (advance s t) ch (stepNow (advance s t) ch) l = a →
      drvPhase a ch = 2 →
      (getDrv a ch).prof = some p →
      hasHsv a ch = true →
      dget a R.DBK_CH_PEAK_T_PEAK_US ch ≠ 0 →
      maNow a ch = some m →
      (boostLevel a ch).1 ≤ m →
      ∃ u, exec (.boostCurrentReached t ⟨ch, l⟩) s = .next u ∧ drvPhase u ch = 3 ∧ hsvOn u (ch.val / 8) = false ∧ (getDbk u (ch.val / 8)).hsvFrom = (stepNow a ch) + 800 ∧
        ((getDrv u ch).prof.map fun x => (x.peakStart, x.byTimeout)) = some (some (stepNow a ch), false) ∧ BlocksOnly a u [.dbk] ∧ u = { a with regs := u.regs, drv := u.drv, dbk := u.dbk, hlm := u.hlm }) ∧
  (∀ (s : State) (t : Fc) (ch : Fin 96) (l : List Nat) (a : State) (p : DrvProf) (x : Nat),
      (getPps s (ch.val / 48)).powered = true →
      drvTrace (advance s t) ch (stepNow (advance s t) ch) l = a →
      drvPhase a ch = 2 →
      (getDrv a ch).prof = some p →
      hasHsv a ch = true →
      dget a R.DBK_CH_PEAK_T_PEAK_US ch ≠ 0 →
      p.start = some x →
      x + dval a R.DBK_CH_BOOST_T_BOOST_US ch * 400 ≤ max s.now t →
      (maNow a ch = none ∨ ∃ m < (boostLevel a ch).1, maNow a ch = some m) →
      ∃ u, exec (.tBoostExpiry t ⟨ch, l⟩) s = .next u ∧ drvPhase u ch = 3 ∧ hsvOn u (ch.val / 8) = false ∧ (getDbk u (ch.val / 8)).hsvFrom = (stepNow a ch) + 800 ∧
        ((getDrv u ch).prof.map fun x => (x.peakStart, x.byTimeout)) = some (some (stepNow a ch), true) ∧ BlocksOnly a u [.dbk, .hlm, .jrn] ∧ u = { a with regs := u.regs, drv := u.drv, dbk := u.dbk, hlm := u.hlm, log := u.log, mem := u.mem, extMem := u.extMem }) ∧
  (∀ (s : State) (t : Fc) (ch : Fin 96) (l : List Nat) (a : State) (p : DrvProf) (x : Nat),
      (getPps s (ch.val / 48)).powered = true →
      drvTrace (advance s t) ch (stepNow (advance s t) ch) l = a →
      drvPhase a ch = 3 →
      (getDrv a ch).prof = some p →
      p.peakStart = some x →
      x + dget a R.DBK_CH_PEAK_T_PEAK_US ch * 400 ≤ max s.now t →
      ∃ u, exec (.tPeakExpiry t ⟨ch, l⟩) s = .next u ∧ drvPhase u ch = 4 ∧ ((getDrv u ch).prof.map fun x => x.ref) = some none ∧ BlocksOnly a u [.dbk] ∧ u = { a with regs := u.regs, drv := u.drv, hlm := u.hlm, reqs := u.reqs, till := u.till }) ∧
  (∀ (s : State) (t : Fc) (ch : Fin 96) (l : List Nat) (a : State) (p : DrvProf) (e : Nat),
      (getPps s (ch.val / 48)).powered = true →
      drvTrace (advance s t) ch (stepNow (advance s t) ch) l = a →
      drvPhase a ch = 4 →
      (getDrv a ch).prof = some p →
      p.endAt = some e →
      e ≤ max s.now t →
      ∃ u, exec (.profileEndTime t ⟨ch, l⟩) s = .next u ∧ drvPhase u ch = 6 ∧ (getDrv u ch).prof = none ∧ BlocksOnly a u [.dbk] ∧ u = { a with regs := u.regs, drv := u.drv, dbk := u.dbk, reqs := u.reqs, till := u.till }) ∧
  (∀ (s : State) (t : Fc) (ch : Fin 96) (l : List Nat) (a : State) (v : Fin 65536) (m : Nat),
      (getPps s (ch.val / 48)).powered = true →
      drvTrace (advance s t) ch (stepNow (advance s t) ch) l = a →
      drvPhase a ch = 6 →
      maNow a ch = some m →
      m < 50 →
      ∃ u, exec (.decayEnd t ⟨ch, l⟩ v) s = .next u ∧ drvPhase u ch = 0 ∧ ((getDrv a ch).forcedDecay = true ∨ ((getDrv a ch).decayFast = true ∧ 500 < (getDrv a ch).decayMa) → dget u R.DBK_CH_DECAY_MEAS_DECAY ch = v.val % 2 ^ R.DBK_CH_DECAY_MEAS_DECAY.width) ∧
        RegsOnly a u [R.DBK_CH_STAT_PHASE.key (ch.val / 8) (ch.val % 8), R.DBK_CH_DECAY_MEAS_DECAY.key (ch.val / 8) (ch.val % 8)] ∧ u = { a with regs := u.regs, drv := u.drv }) ∧
  (∀ (s : State) (t : Fc) (ch : Fin 96) (l : List Nat),
      (getPps s (ch.val / 48)).powered = true →
      exec (.movementDetected t ch l) s = .next (drvTrace (advance s t) ch (stepNow (advance s t) ch) l)) ∧
  (∀ (s : State) (t : Fc) (ch : Fin 96) (p : DrvProf) (x m lo n : Nat),
      (getPps s (ch.val / 48)).powered = true →
      (getDrv s ch).prof = some p →
      dbit s R.DBK_CH_CFG_MOVE_EN ch = true →
      p.searched = false →
      p.start = some x →
      dget s R.DBK_CH_MOVE_CFG_BLANK ch ≤ ((stepNow (advance s t) ch) - x) / 200 →
      ((getDrv s ch).maAt = 0 ∨ (getDrv s ch).maAt < (stepNow (advance s t) ch)) →
      (getDrv s ch).since ≤ (stepNow (advance s t) ch) →
      (drvPhase s ch = 2 ∨ drvPhase s ch = 3) →
      p.dip = some (lo, n) →
      lo ≤ m →
      4 * lo + dval s R.DBK_CH_MOVE_CFG_DIP_MA ch ≤ 4 * m →
      ∃ u, exec (.movementDetected t ch [m]) s = .next u ∧ dget u R.DBK_CH_MOVE_MOVE_TIME ch = min n 8191 ∧ dget u R.DBK_CH_MOVE_VALID ch = 1 ∧ dget u R.DBK_CH_MOVE_NO_MOVE ch = 0 ∧ BlocksOnly s u [.dbk] ∧ u = { advance s t with regs := u.regs, drv := u.drv, hlm := u.hlm }) ∧
  (∀ (s : State) (t : Fc) (ch : Fin 96) (p : DrvProf) (x m : Nat),
      (getPps s (ch.val / 48)).powered = true →
      (getDrv s ch).prof = some p →
      dbit s R.DBK_CH_CFG_MOVE_EN ch = true →
      p.searched = false →
      p.start = some x →
      dget s R.DBK_CH_MOVE_CFG_BLANK ch ≤ ((stepNow (advance s t) ch) - x) / 200 →
      ((getDrv s ch).maAt = 0 ∨ (getDrv s ch).maAt < (stepNow (advance s t) ch)) →
      (getDrv s ch).since ≤ (stepNow (advance s t) ch) →
      drvPhase s ch = 3 →
      p.dip = none →
      p.maxMa < m + dval s R.DBK_CH_MOVE_CFG_DIP_MA ch →
      0 < dval s R.DBK_CH_MOVE_CFG_DIP_MA ch →
      (peakLevel s ch).1 ≤ m →
      ∃ u, exec (.movementDetected t ch [m]) s = .next u ∧ dget u R.DBK_CH_MOVE_MOVE_TIME ch = 0 ∧ dget u R.DBK_CH_MOVE_VALID ch = 0 ∧ dget u R.DBK_CH_MOVE_NO_MOVE ch = 1 ∧ BlocksOnly s u [.dbk] ∧ u = { advance s t with regs := u.regs, drv := u.drv, hlm := u.hlm }) ∧
  (∀ (s : State) (t : Fc) (ch : Fin 96) (d : Nat),
      (getPps s (ch.val / 48)).powered = true →
      (getDrv s ch).nextShot = some d →
      d ≤ max s.now t →
      drvLatched s ch = false →
      (getDrv s ch).prof = none →
      ∃ u, exec (.shotDue t ch) s = .next u ∧ ((getDrv u ch).prof.map fun x => (x.reqStart, x.onTime)) = some (d, onTimeFc (dval s R.DBK_CH_SHOT_SHOT_US ch)) ∧ (getDrv u ch).lastShot = some d ∧
        (getDrv u ch).nextShot = some (d + (getDrv s ch).interval) ∧ u = { advance s t with drv := u.drv }) ∧
  (∀ (s : State) (t : Fc) (ch : Fin 96) (d : Nat),
      (getPps s (ch.val / 48)).powered = true →
      (getDrv s ch).nextShot = some d →
      d ≤ max s.now t →
      drvLatched s ch = false →
      (getDrv s ch).prof ≠ none →
      ∃ u, exec (.shotDue t ch) s = .next u ∧ dget u R.DBK_CH_COUNTS_DROPPED ch = satTo R.DBK_CH_COUNTS_DROPPED.width (dget s R.DBK_CH_COUNTS_DROPPED ch + 1) ∧ (getDrv u ch).prof = (getDrv s ch).prof ∧
        (getDrv u ch).nextShot = some (d + (getDrv s ch).interval) ∧ u = { advance s t with regs := u.regs, drv := u.drv })

/-- A forced channel below its floor counts one hit in a sibling boost. An off-state sample counts with those before it that agree, and the third sets FAULT. An on-state fault latches the channel and puts it into DECAY; an open load sets code 4 and the channel keeps operating. A bank fault latches the bank with its code and no channel keeps a profile. The bank check sets ADMITTED, or names the failing pair and raises DBK_ADMIT_FAIL. Pending lower limits become DBK_DERATE once every channel is OFF. -/
def Obligations.DriveFaults : Prop :=
  (∀ (s : State) (t : Fc) (ch : Fin 96) (l : List Nat) (a : State) (m : Nat),
      (getPps s (ch.val / 48)).powered = true →
      drvTrace (advance s t) ch (stepNow (advance s t) ch) l = a →
      drvForced a ch = true →
      m < dget a R.DBK_CH_HOLD_HOLD_FLOOR_MA ch →
      maNow a ch = some m →
      (getDrv a ch).floorDone = false →
      ∃ u, exec (.holdFloorHit t ch l) s = .next u ∧ dget u R.DBK_CH_COUNTS_FLOOR_HITS ch = satTo R.DBK_CH_COUNTS_FLOOR_HITS.width (dget a R.DBK_CH_COUNTS_FLOOR_HITS ch + 1) ∧ (getDrv u ch).floorDone = true ∧
        (getDrv u ch).recFloor = true ∧ BlocksOnly a u [.dbk, .hlm, .jrn] ∧ u = { a with regs := u.regs, drv := u.drv, log := u.log, mem := u.mem, extMem := u.extMem }) ∧
  (∀ (s : State) (t : Fc) (ch : Fin 96) (vl vh k : Nat),
      (getPps s (ch.val / 48)).powered = true →
      dbit s R.DBK_CH_DIAG_CFG_OFF_DIAG_EN ch = true →
      drvPhase s ch = 0 →
      (getDrv s ch).since + 200000 ≤ max s.now t →
      offCode (highSideClosed s (ch.val / 8)) vl vh = some k →
      (getDrv s ch).diag.2 = 0 →
      (getDrv s ch).diagAt < (getDrv s ch).since →
      exec (.offDiagSample t ch vl vh) s = .next (setDrv (advance s t) ch { getDrv s ch with diag := (k, 1), diagAt := max s.now t })) ∧
  (∀ (s : State) (t : Fc) (ch : Fin 96) (vl vh k : Nat),
      (getPps s (ch.val / 48)).powered = true →
      dbit s R.DBK_CH_DIAG_CFG_OFF_DIAG_EN ch = true →
      drvPhase s ch = 0 →
      (getDrv s ch).since + 200000 ≤ max s.now t →
      offCode (highSideClosed s (ch.val / 8)) vl vh = some k →
      (getDrv s ch).diagAt + 400000 ≤ max s.now t →
      (k = 2 ∨ k = 3) →
      (getDrv s ch).diag = (k, 2) →
      dget s R.DBK_CH_STAT_FAULT ch ≤ 4 →
      exec (.offDiagSample t ch vl vh) s = .next (dset (setDrv (advance s t) ch { getDrv s ch with diag := (k, 3), diagAt := max s.now t }) R.DBK_CH_STAT_FAULT k ch)) ∧
  (∀ (s : State) (t : Fc) (ch : Fin 96) (k : Fin 8) (v a : Nat) (ds : Bool),
      (getPps s (ch.val / 48)).powered = true →
      onFault (advance s t) ch k v a ds = true →
      (k.val ≠ 5 ∨ rbit s R.DBK_CTRL_SCG_CUT (ch.val / 8) = false) →
      ∃ u, exec (.drvChFault t ch ⟨k, v, a, ds⟩) s = .next u ∧ dget u R.DBK_CH_STAT_FAULT ch = k ∧ dget u R.DBK_CH_STAT_LATCHED ch = 1 ∧ drvPhase u ch = 6 ∧ (getDrv u ch).prof = none ∧ BlocksOnly s u [.dbk, .hlm, .jrn] ∧ u = { advance s t with regs := u.regs, drv := u.drv, dbk := u.dbk, hlm := u.hlm, reqs := u.reqs, till := u.till, log := u.log, mem := u.mem, extMem := u.extMem }) ∧
  (∀ (s : State) (t : Fc) (ch : Fin 96) (l : List Nat) (a : State) (m : Nat),
      (getPps s (ch.val / 48)).powered = true →
      drvTrace (advance s t) ch (stepNow (advance s t) ch) l = a →
      drvPhase a ch = 5 →
      2 * dget a R.DBK_CH_DIAG_CFG_OPEN_MA ch ≤ (getDrv a ch).propMa →
      (getDrv a ch).levelAt + 20000 ≤ max s.now t →
      maNow a ch = some m →
      m < dget a R.DBK_CH_DIAG_CFG_OPEN_MA ch →
      dget a R.DBK_CH_STAT_FAULT ch ≤ 4 →
      ∃ u, exec (.drvOnOpenLoad t ch l) s = .next u ∧ dget u R.DBK_CH_STAT_FAULT ch = 4 ∧ drvPhase u ch = 5 ∧ u.drv = a.drv ∧ BlocksOnly a u [.dbk, .hlm, .jrn] ∧ u = { a with regs := u.regs, log := u.log, mem := u.mem, extMem := u.extMem }) ∧
  (∀ (s : State) (t : Fc) (b : Fin 12) (v a : Nat),
      (getPps s (b.val / 6)).powered = true →
      70000 < v →
      a + 800 ≤ max s.now t →
      rbit s R.DBK_STATUS_LATCHED b = false →
      ∃ u, exec (.dbkBankFault t b 1 v a) s = .next u ∧ rget u R.DBK_STATUS_LATCHED b = 1 ∧ rget u R.DBK_STATUS_BANK_FAULT b = 1 ∧ (∀ c ∈ bankChans b, (getDrv u c).prof = none) ∧ BlocksOnly s u [.dbk, .hlm, .jrn]) ∧
  (∀ (s : State) (t : Fc) (b : Fin 12),
      (getPps s (b.val / 6)).powered = true →
      firstFail s b = none →
      exec (.bankCheck t b) s = .next (rset (advance s t) R.DBK_CTRL_ADMITTED 1 b)) ∧
  (∀ (s : State) (t : Fc) (b : Fin 12) (x y : Nat),
      (getPps s (b.val / 6)).powered = true →
      firstFail s b = some (x, y) →
      exec (.bankCheck t b) s = .next (raiseEv (rset (rset (rset (advance s t) R.DBK_CTRL_ADMITTED 0 b) R.DBK_CTRL_FAIL_B x b) R.DBK_CTRL_FAIL_H y b) evDbkAdmitFail b)) ∧
  (∀ (s : State) (t : Fc) (b : Fin 12) (x y : Nat),
      (getPps s (b.val / 6)).powered = true →
      (getDbk s b).derate = some (x, y) →
      bankOff s b = true →
      ∃ u, exec (.derateApply t b) s = .next u ∧ rget u R.DBK_DERATE_BOOST_MA b = x % 2 ^ R.DBK_DERATE_BOOST_MA.width ∧ rget u R.DBK_DERATE_PEAK_MA b = y % 2 ^ R.DBK_DERATE_PEAK_MA.width ∧ (getDbk u b).derate = none ∧ BlocksOnly s u [.dbk, .hlm, .jrn])

/-- With the plane's supervisor powered, the first command that it has passed for the channel acts. A SET of up to 1,000 permille on a channel of MODE SWITCH that nothing holds off, nor does a protection of the same fabric cycle, stores the duty and switches the output on, or off for duty 0, of a pair both members; above 1,000 it completes REJECT_FORMAT with 0x0170 in the bank's row record. A REARM of a channel whose wire has cooled to 0.5 releases TRIPPED and LOCKED, clears the retry count and closes the retry window. -/
def Obligations.SwitchCommands : Prop :=
  (∀ (s : State) (t : Fc) (ch : Fin 96) (q : Passed) (d : Nat),
      (getPps s (ch.val / 48)).powered = true →
      ((getPps s (ch.val / 48)).passed.find? fun x => OutCmd.isSw ch x.cmd) = some q →
      q.cmd = .sw ch (.set d) →
      d ≤ 1000 →
      (q.ref = none ∨ commanding s = true) →
      (q.staged = true ∨ (dbit s R.SBK_CH_CFG_OWNER ch = false ∧ rbit s R.SBK_CTRL_ENABLE (ch.val / 8) = true)) →
      swOdd s ch = false →
      swMode s ch = true →
      swStopped s ch = false →
      (d = 0 ∨ q.staged = true ∨ swStopped (swAhead (setPps (advance s t) (ch.val / 48) { getPps s (ch.val / 48) with passed := (getPps s (ch.val / 48)).passed.erase q })) ch = false) →
      (getFeed s (ch.val / 48)).uv = false →
      swQueued s ch = false →
      ∃ u, exec (.swSet t ch) s = .next u ∧ (∀ c ∈ swMembers s ch, (getSw u c).duty = d ∧ (getSw u c).on = decide (d ≠ 0)) ∧ (getPps u (ch.val / 48)).passed = (getPps s (ch.val / 48)).passed.erase q ∧ BlocksOnly s u [.sbk] ∧ u = { advance s t with regs := u.regs, pps := u.pps, sw := u.sw, reqs := u.reqs, till := u.till }) ∧
  (∀ (s : State) (t : Fc) (ch : Fin 96) (q : Passed) (d : Nat) (r : Ref),
      (getPps s (ch.val / 48)).powered = true →
      ((getPps s (ch.val / 48)).passed.find? fun x => OutCmd.isSw ch x.cmd) = some q →
      q.cmd = .sw ch (.set d) →
      1000 < d →
      q.ref = some r →
      exec (.swSet t ch) s = .next (completeRow (setPps (advance s t) (ch.val / 48) { getPps s (ch.val / 48) with passed := (getPps s (ch.val / 48)).passed.erase q }) (12 + ch.val / 8) r stRejectFormat 0x0170 q.row)) ∧
  (∀ (s : State) (t : Fc) (ch : Fin 96) (q : Passed),
      (getPps s (ch.val / 48)).powered = true →
      ((getPps s (ch.val / 48)).passed.find? fun x => OutCmd.isSw ch x.cmd) = some q →
      q.cmd = .sw ch .rearm →
      (q.ref = none ∨ commanding s = true) →
      swOdd s ch = false →
      swMode s ch = true →
      rbit s R.SBK_CTRL_ENABLE (ch.val / 8) = true →
      swTheta s ch ≤ 1 / 2 →
      ∃ u, exec (.swRearm t ch) s = .next u ∧ (∀ c ∈ swMembers s ch, dget u R.SBK_CH_STAT_TRIPPED c = 0 ∧ dget u R.SBK_CH_STAT_LOCKED c = 0 ∧ dget u R.SBK_CH_STAT_RETRIES_USED c = 0 ∧
        (getSw u c).window = none ∧ (getSw u c).barred = false ∧ (getSw u c).duty = (getSw s ch).duty) ∧ (getPps u (ch.val / 48)).passed = (getPps s (ch.val / 48)).passed.erase q ∧ BlocksOnly s u [.sbk] ∧ u = { advance s t with regs := u.regs, pps := u.pps, sw := u.sw, reqs := u.reqs, till := u.till })

/-- Of WIRE_MODEL_UPDATE, INRUSH_EXPIRY, IN_LIMIT, THERM_LATCH_SET, THERM_LATCH_CLEAR, RETRY_RESTART, RETRY_WINDOW_END, OPEN_LOAD_DETECT, OPEN_LOAD_CLEAR, FEED_UV, UV_RESTART_DELAY_EXPIRY, UV_RESTART_STEP, PLANE_SHED and SHED_RESTORE. Each millisecond the two parts of the wire model move towards the load of the samples by the rule of R213 and THETA is stored; at 1.0 an on channel trips with cause FUSE. Ten milliseconds in limit without interruption trip it with cause INRUSH. A junction at 170 degrees latches it off; with every junction below 140 the latch clears, and under POLICY 0 without a REARM the channel stays off. A trip switches the output off, counts and raises SBK_TRIP. A tripped channel under POLICY 1 whose wire has cooled to 0.5 restarts while its budget lasts: TRIPPED clears, RESTARTS and RETRIES_USED count, the output is on; with the budget spent it is LOCKED instead. The end of the window clears the count. A current below OL_MA for the debounce time sets OPEN_LOAD and counts; a sample above clears it. Of a pair each clause says it of both members. A feed below UV_V for 50 us switches every channel of the plane off and holds it; after RESTART_DELAY above UV_V plus hysteresis UV_OFF clears for all, and every 500 us the first channel of the queue takes its turn. A feed current above LIMIT_A for 5 ms sheds the lowest non-zero rank that is still on: its channels are off with SHED 1; below 90 % for 1 s the latest rank is restored. Exact rationals in the wire model are the model's choice (log entry 63). -/
def Obligations.SwitchProtection : Prop :=
  (∀ (s : State) (t : Fc) (ch : Fin 96) (own other sums : List Nat),
      (getPps s (ch.val / 48)).powered = true →
      swOdd s ch = false →
      (sums = if swEven s ch then (List.range own.length).map (fun n => own.getD n 0 + other.getD n 0) else own) →
      ((getSw s ch).thf + mkRat 1 (1000 * (wireProfile (dget s R.SBK_CH_CFG_WPROF ch)).2) * (mkRat 2 5 * (meanSquare sums / ((swIEff s ch * swIEff s ch : Nat) : Rat)) - (getSw s ch).thf)) + ((getSw s ch).ths + mkRat 1 (10000 * (wireProfile (dget s R.SBK_CH_CFG_WPROF ch)).2) * (mkRat 3 5 * (meanSquare sums / ((swIEff s ch * swIEff s ch : Nat) : Rat)) - (getSw s ch).ths)) < 1 →
      ∃ u, exec (.wireModelUpdate t ch ⟨own, other⟩) s = .next u ∧ (∀ c ∈ swMembers s ch, (getSw u c).thf = (getSw s ch).thf + mkRat 1 (1000 * (wireProfile (dget s R.SBK_CH_CFG_WPROF ch)).2) * (mkRat 2 5 * (meanSquare sums / ((swIEff s ch * swIEff s ch : Nat) : Rat)) - (getSw s ch).thf) ∧
        (getSw u c).ths = (getSw s ch).ths + mkRat 1 (10000 * (wireProfile (dget s R.SBK_CH_CFG_WPROF ch)).2) * (mkRat 3 5 * (meanSquare sums / ((swIEff s ch * swIEff s ch : Nat) : Rat)) - (getSw s ch).ths) ∧
        dget u R.SBK_CH_MODEL_THETA c = thetaCode (((getSw s ch).thf + mkRat 1 (1000 * (wireProfile (dget s R.SBK_CH_CFG_WPROF ch)).2) * (mkRat 2 5 * (meanSquare sums / ((swIEff s ch * swIEff s ch : Nat) : Rat)) - (getSw s ch).thf)) + ((getSw s ch).ths + mkRat 1 (10000 * (wireProfile (dget s R.SBK_CH_CFG_WPROF ch)).2) * (mkRat 3 5 * (meanSquare sums / ((swIEff s ch * swIEff s ch : Nat) : Rat)) - (getSw s ch).ths))) % 2 ^ R.SBK_CH_MODEL_THETA.width ∧
        (getSw u c).on = (getSw s c).on) ∧ BlocksOnly s u [.sbk] ∧ u = { advance s t with regs := u.regs, sw := u.sw }) ∧
  (∀ (s : State) (t : Fc) (ch : Fin 96) (own other sums : List Nat),
      (getPps s (ch.val / 48)).powered = true →
      swOdd s ch = false →
      (sums = if swEven s ch then (List.range own.length).map (fun n => own.getD n 0 + other.getD n 0) else own) →
      1 ≤ ((getSw s ch).thf + mkRat 1 (1000 * (wireProfile (dget s R.SBK_CH_CFG_WPROF ch)).2) * (mkRat 2 5 * (meanSquare sums / ((swIEff s ch * swIEff s ch : Nat) : Rat)) - (getSw s ch).thf)) + ((getSw s ch).ths + mkRat 1 (10000 * (wireProfile (dget s R.SBK_CH_CFG_WPROF ch)).2) * (mkRat 3 5 * (meanSquare sums / ((swIEff s ch * swIEff s ch : Nat) : Rat)) - (getSw s ch).ths)) →
      (getSw s ch).on = true →
      ∃ u, exec (.wireModelUpdate t ch ⟨own, other⟩) s = .next u ∧ (∀ c ∈ swMembers s ch, dget u R.SBK_CH_STAT_TRIPPED c = 1 ∧ dget u R.SBK_CH_STAT_TRIP_CAUSE c = 1 ∧ (getSw u c).on = false ∧ dget u R.SBK_CH_COUNTS_TRIPS c = satTo R.SBK_CH_COUNTS_TRIPS.width (dget s R.SBK_CH_COUNTS_TRIPS c + 1)) ∧ BlocksOnly s u [.sbk, .hlm, .jrn] ∧ u = { advance s t with regs := u.regs, sw := u.sw, log := u.log, mem := u.mem, extMem := u.extMem }) ∧
  (∀ (s : State) (t : Fc) (ch : Fin 96) (a : Nat),
      (getPps s (ch.val / 48)).powered = true →
      limitHeld (advance s t) ch (max s.now t) = true →
      (getSw s ch).limitSince = some a →
      a + 4000000 ≤ max s.now t →
      ∃ u, exec (.inrushExpiry t ch) s = .next u ∧ (∀ c ∈ swMembers s ch, dget u R.SBK_CH_STAT_TRIPPED c = 1 ∧ dget u R.SBK_CH_STAT_TRIP_CAUSE c = 2 ∧ (getSw u c).on = false ∧ (getSw u c).limitSince = none ∧ dget u R.SBK_CH_COUNTS_TRIPS c = satTo R.SBK_CH_COUNTS_TRIPS.width (dget s R.SBK_CH_COUNTS_TRIPS c + 1)) ∧ BlocksOnly s u [.sbk, .hlm, .jrn] ∧ u = { advance s t with regs := u.regs, sw := u.sw, log := u.log, mem := u.mem, extMem := u.extMem }) ∧
  (∀ (s : State) (t : Fc) (ch : Fin 96),
      (getPps s (ch.val / 48)).powered = true →
      conducts (advance s t) ch (max s.now t) = true →
      limitHeld (advance s t) ch (max s.now t) = false →
      ∃ u, exec (.inLimit t ch) s = .next u ∧ (∀ c ∈ swMembers s ch, (getSw u c).limitSince = some (max s.now t) ∧ (getSw u c).recLimit = true) ∧ u = { advance s t with sw := u.sw }) ∧
  (∀ (s : State) (t : Fc) (ch : Fin 96) (j : Int),
      (getPps s (ch.val / 48)).powered = true →
      170 ≤ j →
      dbit s R.SBK_CH_STAT_THERM_LATCH ch = false →
      ∃ u, exec (.thermLatchSet t ch j) s = .next u ∧ dget u R.SBK_CH_MODEL_TJ ch = tjCode j % 2 ^ R.SBK_CH_MODEL_TJ.width ∧ (∀ c ∈ swMembers s ch, dget u R.SBK_CH_STAT_THERM_LATCH c = 1 ∧ (getSw u c).on = false ∧ dget u R.SBK_CH_COUNTS_THERM_LATCHES c = satTo R.SBK_CH_COUNTS_THERM_LATCHES.width (dget s R.SBK_CH_COUNTS_THERM_LATCHES c + 1)) ∧ BlocksOnly s u [.sbk, .hlm, .jrn] ∧ u = { advance s t with regs := u.regs, sw := u.sw, log := u.log, mem := u.mem, extMem := u.extMem }) ∧
  (∀ (s : State) (t : Fc) (ch : Fin 96) (j : Int),
      (getPps s (ch.val / 48)).powered = true →
      j < 140 →
      (∀ c ∈ swMembers s ch, c = ch.val ∨ dget s R.SBK_CH_MODEL_TJ c < 190) →
      dbit s R.SBK_CH_STAT_THERM_LATCH ch = true →
      dbit s R.SBK_CH_PROT_POLICY (swLead s ch) = false →
      (getSw s (swLead s ch)).rearmed = false →
      ∃ u, exec (.thermLatchClear t ch j) s = .next u ∧ dget u R.SBK_CH_MODEL_TJ ch = tjCode j % 2 ^ R.SBK_CH_MODEL_TJ.width ∧ (∀ c ∈ swMembers s ch, dget u R.SBK_CH_STAT_THERM_LATCH c = 0 ∧ (getSw u c).barred = true ∧ (getSw u c).on = (getSw s c).on) ∧ BlocksOnly s u [.sbk] ∧ u = { advance s t with regs := u.regs, sw := u.sw }) ∧
  (∀ (s : State) (t : Fc) (ch : Fin 96),
      (getPps s (ch.val / 48)).powered = true →
      swOdd s ch = false →
      dbit s R.SBK_CH_STAT_TRIPPED ch = true →
      dbit s R.SBK_CH_PROT_POLICY ch = true →
      swTheta s ch ≤ 1 / 2 →
      swQueued s ch = false →
      (getSw s ch).on = false →
      heldNow (advance s t) ch = false →
      dbit s R.SBK_CH_STAT_THERM_LATCH ch = false →
      dbit s R.SBK_CH_STAT_LOCKED ch = false →
      (getFeed s (ch.val / 48)).uv = false →
      dbit s R.SBK_CH_STAT_UV_OFF ch = false →
      dbit s R.SBK_CH_STAT_SHED ch = false →
      (getSw s ch).duty ≠ 0 →
      (getSw s ch).barred = false →
      dget s R.SBK_CH_STAT_RETRIES_USED ch < dget s R.SBK_CH_PROT_RETRY_MAX ch →
      ∃ u, exec (.retryRestart t ch) s = .next u ∧ (∀ c ∈ swMembers s ch, dget u R.SBK_CH_STAT_TRIPPED c = 0 ∧ (getSw u c).on = true ∧ dget u R.SBK_CH_COUNTS_RESTARTS c = satTo R.SBK_CH_COUNTS_RESTARTS.width (dget s R.SBK_CH_COUNTS_RESTARTS c + 1) ∧ dget u R.SBK_CH_STAT_RETRIES_USED c = satTo R.SBK_CH_STAT_RETRIES_USED.width (dget s R.SBK_CH_STAT_RETRIES_USED c + 1) ∧
        (getSw u c).window ≠ none) ∧ BlocksOnly s u [.sbk] ∧ u = { advance s t with regs := u.regs, sw := u.sw }) ∧
  (∀ (s : State) (t : Fc) (ch : Fin 96),
      (getPps s (ch.val / 48)).powered = true →
      swOdd s ch = false →
      dbit s R.SBK_CH_STAT_TRIPPED ch = true →
      dbit s R.SBK_CH_PROT_POLICY ch = true →
      swTheta s ch ≤ 1 / 2 →
      swQueued s ch = false →
      (getSw s ch).on = false →
      heldNow (advance s t) ch = false →
      dbit s R.SBK_CH_STAT_THERM_LATCH ch = false →
      dbit s R.SBK_CH_STAT_LOCKED ch = false →
      (getFeed s (ch.val / 48)).uv = false →
      dbit s R.SBK_CH_STAT_UV_OFF ch = false →
      dbit s R.SBK_CH_STAT_SHED ch = false →
      (getSw s ch).duty ≠ 0 →
      (getSw s ch).barred = false →
      dget s R.SBK_CH_PROT_RETRY_MAX ch ≤ dget s R.SBK_CH_STAT_RETRIES_USED ch →
      exec (.retryRestart t ch) s = .next (raiseEv (swAll (advance s t) ch R.SBK_CH_STAT_LOCKED 1) evSbkLocked (ch.val / 8))) ∧
  (∀ (s : State) (t : Fc) (ch : Fin 96) (w : Nat),
      (getPps s (ch.val / 48)).powered = true →
      (getSw s ch).window = some w →
      w ≤ max s.now t →
      exec (.retryWindowEnd t ch) s = .next (swAll (modAll (advance s t) ch fun c => { c with window := none }) ch R.SBK_CH_STAT_RETRIES_USED 0)) ∧
  (∀ (s : State) (t : Fc) (ch : Fin 96) (m a : Nat),
      (getPps s (ch.val / 48)).powered = true →
      swOdd s ch = false →
      dbit s R.SBK_CH_OL_OL_EN ch = true →
      (getSw s ch).on = true →
      shortOn s ch (getSw s ch).duty = false →
      m < dval s R.SBK_CH_OL_OL_MA ch →
      (max a (getSw s ch).onAt) + (getSw s ch).shortTime (max a (getSw s ch).onAt) (max s.now t) + dval s R.SBK_CH_OL_OL_DEBOUNCE_MS ch * 400000 ≤ max s.now t →
      dbit s R.SBK_CH_STAT_OPEN_LOAD ch = false →
      ∃ u, exec (.openLoadDetect t ch m a) s = .next u ∧ (∀ c ∈ swMembers s ch, dget u R.SBK_CH_STAT_OPEN_LOAD c = 1 ∧ dget u R.SBK_CH_COUNTS_OPEN_LOADS c = satTo R.SBK_CH_COUNTS_OPEN_LOADS.width (dget s R.SBK_CH_COUNTS_OPEN_LOADS c + 1) ∧ (getSw u c).on = (getSw s c).on) ∧ BlocksOnly s u [.sbk, .hlm, .jrn] ∧ u = { advance s t with regs := u.regs, sw := u.sw, log := u.log, mem := u.mem, extMem := u.extMem }) ∧
  (∀ (s : State) (t : Fc) (ch : Fin 96) (m : Nat),
      (getPps s (ch.val / 48)).powered = true →
      dval s R.SBK_CH_OL_OL_MA (swLead s ch) < m →
      shortOn s (swLead s ch) (getSw s (swLead s ch)).duty = false →
      exec (.openLoadClear t ch m) s = .next (swAll (if swEven s (swLead s ch) then advance s t else modSw (advance s t) ch fun c => { c with ma := m }) ch
          R.SBK_CH_STAT_OPEN_LOAD 0)) ∧
  (∀ (s : State) (t : Fc) (p : Fin 2) (mv a : Nat),
      (getPps s p).powered = true →
      mv < uvMv s p →
      a + 20000 ≤ max s.now t →
      ∃ u, exec (.feedUv t p mv a) s = .next u ∧ (getFeed u p).uv = true ∧ (getFeed u p).restart = [] ∧ (∀ c ∈ planeChans p, (getSw u c).on = false ∧ ((getSw s c).duty ≠ 0 → dget u R.SBK_CH_STAT_UV_OFF c = 1)) ∧ BlocksOnly s u [.sbk, .hlm, .jrn]) ∧
  (∀ (s : State) (t : Fc) (p : Fin 2) (mv a : Nat),
      (getPps s p).powered = true →
      (getFeed s p).uv = true →
      uvMv s p + uvHystMv s p ≤ mv →
      (getFeed s p).fallAt.all (fun x => decide (x ≤ a)) = true →
      a + rval s R.SBK_FEED_UV_RESTART_10MS (feedInst p) * 10 * 400000 ≤ max s.now t →
      ∃ u, exec (.uvRestartDelayExpiry t p mv a) s = .next u ∧ (getFeed u p).uv = false ∧ (getFeed u p).restartAt = max s.now t ∧ (∀ c ∈ planeChans p, dget u R.SBK_CH_STAT_UV_OFF c = 0) ∧ u.sw = s.sw ∧ BlocksOnly s u [.sbk] ∧ u = { advance s t with regs := u.regs, feed := u.feed }) ∧
  (∀ (s : State) (t : Fc) (p : Fin 2) (c0 : Nat) (l : List Nat),
      (getPps s p).powered = true →
      (getFeed s p).restart = c0 :: l →
      (getFeed s p).restartAt ≤ max s.now t →
      (getFeed s p).uv = false →
      c0 / 48 = p.val →
      c0 ∉ l →
      swOdd s c0 = false →
      swStopped s c0 = false →
      dbit s R.SBK_CH_STAT_UV_OFF c0 = false →
      (getSw s c0).duty ≠ 0 →
      (getSw s c0).on = false →
      heldNow (advance s t) c0 = false →
      dget s R.SBK_CH_STAT_RETRIES_USED c0 < dget s R.SBK_CH_PROT_RETRY_MAX c0 →
      ∃ u, exec (.uvRestartStep t p) s = .next u ∧ (getFeed u p).restart = l ∧ (getFeed u p).restartAt = max s.now t + 200000 ∧ (∀ c ∈ swMembers s c0, (getSw u c).on = true ∧ (getSw u c).duty = (getSw s c).duty) ∧ BlocksOnly s u [.sbk] ∧ u = { advance s t with regs := u.regs, feed := u.feed, sw := u.sw }) ∧
  (∀ (s : State) (t : Fc) (p : Fin 2) (a n r : Nat),
      (getPps s p).powered = true →
      rval s R.SBK_FEED_LIMIT_LIMIT_A (feedInst p) < a →
      max n (getFeed s p).shedAt + 2000000 ≤ max s.now t →
      shedRank s p = some r →
      ∃ u, exec (.planeShed t p a n) s = .next u ∧ (getFeed u p).shed = r :: (getFeed s p).shed ∧ (getFeed u p).shedAt = max s.now t ∧ (∀ c ∈ planeChans p, dget s R.SBK_CH_PROT_SHED_RANK (swLead s c) = r →
          (getSw u c).on = false ∧ dget u R.SBK_CH_STAT_SHED c = 1) ∧ BlocksOnly s u [.sbk, .hlm, .jrn]) ∧
  (∀ (s : State) (t : Fc) (p : Fin 2) (a n r : Nat) (l : List Nat),
      (getPps s p).powered = true →
      (getFeed s p).shed = r :: l →
      10 * a < 9 * rval s R.SBK_FEED_LIMIT_LIMIT_A (feedInst p) →
      max n (getFeed s p).shedAt + 400000000 ≤ max s.now t →
      ∃ u, exec (.shedRestore t p a n) s = .next u ∧ (getFeed u p).shed = l ∧ (getFeed u p).shedAt = max s.now t ∧ (∀ c ∈ planeChans p, dget s R.SBK_CH_PROT_SHED_RANK (swLead s c) = r → dbit s R.SBK_CH_STAT_SHED c = true → dget u R.SBK_CH_STAT_SHED c = 0) ∧ BlocksOnly s u [.sbk] ∧ u = { advance s t with regs := u.regs, feed := u.feed, sw := u.sw })

/-- Arming with every enabled bank passing its check and every other condition of R244 met sets ARMED with ARM_ERR 0, no tick period, no expired window, PROP channels at 0 mA and no shot; a hold window shorter than the takeover needs gives ARM_ERR 2. Disarming clears ARM, ARMED and SAFE_ACTIVE and leaves no channel with a profile, a current or a duty. SAFE_NOW on an armed plane that has had a COMMIT sets SAFE_ACTIVE with every window expired. CLEAR_BID zeroes HIGHEST only while disarmed in MANUFACTURE or SERVICE. 1.5 P without contact sets HOLDING; a hold window plus 0.5 P without contact sets SAFE_ACTIVE, counts and marks the channel expired, and a switch channel of safe state OFF is off. A supervisor that loses its supply loses HIGHEST and its arming, and powers up disarmed with HIGHEST 0; the other plane is untouched. -/
def Obligations.PlaneSupervisors : Prop :=
  (∀ (s : State) (t : Fc) (p : Fin 2),
      (getPps s p).powered = true →
      s.fabric = true →
      planeArmed s p = false →
      ppsLoading s p = false →
      (∀ k < 6, rbit s R.DBK_CTRL_ENABLE (6 * p + k) = true → firstFail s (6 * p + k) = none) →
      holdCondition s p = true →
      safeValuesOk s p = true →
      lcState s ≠ 4 →
      ∃ u, exec (.ppsArm t p) s = .next u ∧ planeArmed u p = true ∧ rget u R.PPS_CTRL_ARM p = 1 ∧ rget u R.PPS_CTRL_ARM_ERR p = 0 ∧ rget u R.PPS_STATUS_TICK_US p = 0 ∧ rget u R.PPS_STATUS_HOLDING p = 0 ∧
        rget u R.PPS_STATUS_SAFE_ACTIVE p = 0 ∧ (getPps u p).live = false ∧ (getPps u p).expired = [] ∧ (getPps u p).passed = [] ∧
        (∀ c ∈ planeChans p, (getDrv u c).propMa = 0 ∧ (getDrv u c).nextShot = none) ∧ BlocksOnly s u [.pps, .dbk, .hlm, .jrn] ∧ u = { advance s t with regs := u.regs, pps := u.pps, drv := u.drv, log := u.log, mem := u.mem, extMem := u.extMem }) ∧
  (∀ (s : State) (t : Fc) (p : Fin 2),
      (getPps s p).powered = true →
      s.fabric = true →
      planeArmed s p = false →
      ppsLoading s p = false →
      (∀ k < 6, rbit s R.DBK_CTRL_ENABLE (6 * p + k) = true → firstFail s (6 * p + k) = none) →
      holdCondition s p = false →
      ∃ u, exec (.ppsArm t p) s = .next u ∧ planeArmed u p = false ∧ rget u R.PPS_CTRL_ARM p = 1 ∧ rget u R.PPS_CTRL_ARM_ERR p = 2 ∧ u.drv = s.drv ∧ u.pps = s.pps ∧ BlocksOnly s u [.pps, .dbk, .hlm, .jrn]) ∧
  (∀ (s : State) (t : Fc) (p : Fin 2),
      (getPps s p).powered = true →
      s.fabric = true →
      planeArmed s p = true →
      ppsLoading s p = false →
      ∃ u, exec (.ppsDisarm t p) s = .next u ∧ planeArmed u p = false ∧ rget u R.PPS_CTRL_ARM p = 0 ∧ rget u R.PPS_STATUS_SAFE_ACTIVE p = 0 ∧ (getPps u p).passed = [] ∧ (getPps u p).expired = [] ∧
        (∀ c ∈ planeChans p, (getDrv u c).prof = none ∧ (getDrv u c).propMa = 0 ∧ (getDrv u c).nextShot = none ∧ (swOdd s c = false → (getSw u c).duty = 0 ∧ (getSw u c).on = false)) ∧ BlocksOnly s u [.pps, .dbk, .sbk, .hlm, .jrn]) ∧
  (∀ (s : State) (t : Fc) (p : Fin 2),
      (getPps s p).powered = true →
      s.fabric = true →
      ppsLoading s p = false →
      planeArmed s p = true →
      (getPps s p).live = true →
      ∃ u, exec (.safeNow t p) s = .next u ∧ rget u R.PPS_STATUS_SAFE_ACTIVE p = 1 ∧ (getPps u p).expired = List.range 96 ∧ planeArmed u p = true) ∧
  (∀ (s : State) (t : Fc) (p : Fin 2),
      (getPps s p).powered = true →
      s.fabric = true →
      planeArmed s p = false →
      (lcState s = 0 ∨ lcState s = 3) →
      exec (.clearBid t p) s = .next (rset (advance s t) R.PPS_HIGHEST_BID 0 p)) ∧
  (∀ (s : State) (t : Fc) (p : Fin 2),
      (getPps s p).powered = true →
      s.fabric = true →
      (planeArmed s p = true ∨ (lcState s ≠ 0 ∧ lcState s ≠ 3)) →
      exec (.clearBid t p) s = .next (advance s t)) ∧
  (∀ (s : State) (t : Fc) (p : Fin 2),
      (getPps s p).powered = true →
      (getPps s p).live = true →
      2 * (getPps s p).contactAt + 3 * ppsPeriod s p ≤ 2 * (max s.now t) →
      exec (.holdingTimeout t p) s = .next (rset (advance s t) R.PPS_STATUS_HOLDING 1 p)) ∧
  (∀ (s : State) (t : Fc) (p : Fin 2) (d : Bool) (n : Fin 48) (k : Nat),
      (getPps s p).powered = true →
      planeArmed s p = true →
      (getPps s p).live = true →
      commitNow (advance s t) p = false →
      (k = (if d then n.val else 48 + n.val)) →
      k ∉ (getPps s p).expired →
      2 * ((getPps s p).contactAt + holdWindowUs (holdRows s p d n) (rget s R.PPS_STATUS_TICK_US p) * 400) + ppsPeriod s p ≤ 2 * (max s.now t) →
      ∃ u, exec (.holdWindowExpiry t p d n) s = .next u ∧ rget u R.PPS_STATUS_SAFE_ACTIVE p = 1 ∧ (getPps u p).expired = k :: (getPps s p).expired ∧ rget u R.PPS_HOLD_EVENTS_HOLD_EXPIRIES p = satTo R.PPS_HOLD_EVENTS_HOLD_EXPIRIES.width (rget s R.PPS_HOLD_EVENTS_HOLD_EXPIRIES p + 1)
        ∧ BlocksOnly s u [.pps, .dbk, .sbk, .hlm, .jrn]) ∧
  (∀ (s : State) (t : Fc) (p : Fin 2) (n : Fin 48),
      (getPps s p).powered = true →
      planeArmed s p = true →
      (getPps s p).live = true →
      commitNow (advance s t) p = false →
      (48 + n.val) ∉ (getPps s p).expired →
      2 * ((getPps s p).contactAt + holdWindowUs (holdRows s p false n) (rget s R.PPS_STATUS_TICK_US p) * 400) + ppsPeriod s p ≤ 2 * (max s.now t) →
      rval s R.PPS_SW_SAFE p n = 0 →
      swMode s (48 * p + n) = true →
      swOdd s (48 * p + n) = false →
      ∃ u, exec (.holdWindowExpiry t p false n) s = .next u ∧ (getSw u (48 * p + n)).duty = 0 ∧ (getSw u (48 * p + n)).on = false ∧ u.drv = s.drv) ∧
  (∀ (s : State) (t : Fc) (p : Fin 2),
      (getPps s p).powered = true →
      ∃ u, exec (.planeSupervisorPowerLoss t p) s = .next u ∧ (getPps u p).powered = false ∧ rget u R.PPS_HIGHEST_BID p = 0 ∧ planeArmed u p = false ∧ getPps u (1 - p.val) = getPps s (1 - p.val) ∧
        rget u R.PPS_HIGHEST_BID (1 - p.val) = rget s R.PPS_HIGHEST_BID (1 - p.val)) ∧
  (∀ (s : State) (t : Fc) (p : Fin 2),
      (getPps s p).powered = false →
      ∃ u, exec (.planeSupervisorPowerUp t p) s = .next u ∧ getPps u p = { Pps.idle with pairId := rget s R.XLK_PAIR_ID_PAIR_ID } ∧ rget u R.PPS_HIGHEST_BID p = 0 ∧ planeArmed u p = false ∧ rget u R.PPS_STATUS_TICK_US p = 0 ∧
        getPps u (1 - p.val) = getPps s (1 - p.val) ∧ BlocksOnly s u [.pps, .dbk, .sbk])

/-- A COMMIT of the partner whose bid is not below HIGHEST, nor below a TAKEOVER's of the same fc, is accepted by a powered supervisor: HIGHEST is its bid, TICK_US, SOURCE and LAST_ROW are stored, HOLDING clears and the plane has contact; an armed plane passes its commands to its banks, an unarmed one passes none. The first COMMIT after a safe state clears SAFE_ACTIVE and counts. A bid below HIGHEST is fenced: it is counted, a FENCE_ACK goes to the partner, by the supervisor's own transmit path while the computing side does not run, and nothing else changes. A KEEP refreshes contact. A TAKEOVER only raises HIGHEST. A PRIMARY that learns that its bid was fenced counts it and leaves its role at the next edge. A frame of another PAIR_ID is discarded and counted. -/
def Obligations.BidsAndFencing : Prop :=
  (∀ (s : State) (t : Fc) (p : Fin 2) (b row us : Nat) (l : List SentCmd),
      (getPps s p).powered = true →
      ppsLoading s p = false →
      (max (rget s R.PPS_HIGHEST_BID p) (takeoverNow (advance s t) p)) ≤ b →
      exec (.commitRx ⟨t, (getPps s p).pairId⟩ p false b row us l) s = .next (ppsContact (if (max (rget s R.PPS_HIGHEST_BID p) (takeoverNow (advance s t) p)) < b then rset (advance s t) R.PPS_HIGHEST_BID b p else advance s t) p false .commit row us (partnerCmds (advance s t) p row l))) ∧
  (∀ (s : State) (t : Fc) (p : Fin 2) (b row us : Nat) (l : List SentCmd),
      (getPps s p).powered = true →
      ppsLoading s p = false →
      planeArmed s p = true →
      rbit s R.PPS_STATUS_SAFE_ACTIVE p = false →
      (max (rget s R.PPS_HIGHEST_BID p) (takeoverNow (advance s t) p)) < b →
      b < 2 ^ 32 →
      (∀ q ∈ partnerCmds (advance s t) p row l, stageMisses s q = false ∧ (match q.cmd with | .drv _ (.rate _) => false | _ => true) = true) →
      ∃ u, exec (.commitRx ⟨t, (getPps s p).pairId⟩ p false b row us l) s = .next u ∧ rget u R.PPS_HIGHEST_BID p = b ∧ rget u R.PPS_STATUS_TICK_US p = us % 2 ^ R.PPS_STATUS_TICK_US.width ∧ rget u R.PPS_STATUS_SOURCE p = 1 ∧ rget u R.PPS_STATUS_HOLDING p = 0 ∧
        rget64 u R.PPS_LAST_ROW_LO_ROW R.PPS_LAST_ROW_HI_ROW p = row % 2 ^ 64 ∧ (getPps u p).live = true ∧ (getPps u p).expired = [] ∧ (getPps u p).passed = (getPps s p).passed ++ partnerCmds (advance s t) p row l ∧
        (getPps u p).contactAt = max s.now t ∧ BlocksOnly s u [.pps] ∧ u = { advance s t with regs := u.regs, pps := u.pps }) ∧
  (∀ (s : State) (t : Fc) (p : Fin 2) (b row us : Nat) (l : List SentCmd),
      (getPps s p).powered = true →
      ppsLoading s p = false →
      planeArmed s p = false →
      (max (rget s R.PPS_HIGHEST_BID p) (takeoverNow (advance s t) p)) < b →
      b < 2 ^ 32 →
      (∀ q ∈ partnerCmds (advance s t) p row l, stageMisses s q = false) →
      ∃ u, exec (.commitRx ⟨t, (getPps s p).pairId⟩ p false b row us l) s = .next u ∧ rget u R.PPS_HIGHEST_BID p = b ∧ rget u R.PPS_STATUS_TICK_US p = us % 2 ^ R.PPS_STATUS_TICK_US.width ∧ rget u R.PPS_STATUS_SOURCE p = 1 ∧ rget u R.PPS_STATUS_HOLDING p = 0 ∧ rget64 u R.PPS_LAST_ROW_LO_ROW R.PPS_LAST_ROW_HI_ROW p = row % 2 ^ 64 ∧ (getPps u p).live = true ∧
        (getPps u p).passed = (getPps s p).passed ∧ (getPps u p).contactAt = max s.now t ∧ BlocksOnly s u [.pps] ∧ u = { advance s t with regs := u.regs, pps := u.pps }) ∧
  (∀ (s : State) (t : Fc) (p : Fin 2) (b row us : Nat) (l : List SentCmd),
      (getPps s p).powered = true →
      ppsLoading s p = false →
      planeArmed s p = true →
      rbit s R.PPS_STATUS_SAFE_ACTIVE p = true →
      (max (rget s R.PPS_HIGHEST_BID p) (takeoverNow (advance s t) p)) ≤ b →
      partnerCmds (advance s t) p row l = [] →
      ∃ u, exec (.commitRx ⟨t, (getPps s p).pairId⟩ p false b row us l) s = .next u ∧ rget u R.PPS_STATUS_SAFE_ACTIVE p = 0 ∧ (getPps u p).expired = [] ∧ rget u R.PPS_HOLD_EVENTS_HOLD_RESUMES p = satTo R.PPS_HOLD_EVENTS_HOLD_RESUMES.width (rget s R.PPS_HOLD_EVENTS_HOLD_RESUMES p + 1) ∧
        BlocksOnly s u [.pps, .hlm, .jrn] ∧ u = { advance s t with regs := u.regs, pps := u.pps, log := u.log, mem := u.mem, extMem := u.extMem }) ∧
  (∀ (s : State) (t : Fc) (p : Fin 2) (b row us : Nat) (l : List SentCmd),
      (getPps s p).powered = true →
      ppsLoading s p = false →
      s.fabric = true →
      b < (max (rget s R.PPS_HIGHEST_BID p) (takeoverNow (advance s t) p)) →
      exec (.commitRx ⟨t, (getPps s p).pairId⟩ p false b row us l) s = .next (xlkSend (rinc (rset (advance s t) R.PPS_HIGHEST_BID (max (rget s R.PPS_HIGHEST_BID p) (takeoverNow (advance s t) p)) p) R.PPS_FENCES_PARTNER 1 p) 4 [p.val, b, row % 2 ^ 32, row / 2 ^ 32] none)) ∧
  (∀ (s : State) (t : Fc) (p : Fin 2) (b row us : Nat) (l : List SentCmd),
      (getPps s p).powered = true →
      ppsLoading s p = false →
      s.fabric = false →
      b < (max (rget s R.PPS_HIGHEST_BID p) (takeoverNow (advance s t) p)) →
      exec (.commitRx ⟨t, (getPps s p).pairId⟩ p false b row us l) s = .next (let w := rinc (rset (advance s t) R.PPS_HIGHEST_BID (max (rget s R.PPS_HIGHEST_BID p) (takeoverNow (advance s t) p)) p) R.PPS_FENCES_PARTNER 1 p
        let x : XFrame := ⟨some 1, 4, frameWords (getPps s p).pairId 4 s.xlk.txSeq [p.val, b, row % 2 ^ 32, row / 2 ^ 32], none⟩
        { w with xlk := { s.xlk with tx := tblSet s.xlk.tx 4 x, txSeq := (s.xlk.txSeq + 1) % 65536 } })) ∧
  (∀ (s : State) (t : Fc) (p : Fin 2) (b row us : Nat) (l : List SentCmd),
      (getPps s p).powered = true →
      ppsLoading s p = false →
      (getPps s p).live = true →
      rget s R.PPS_HIGHEST_BID p ≤ b →
      ∃ u, exec (.commitRx ⟨t, (getPps s p).pairId⟩ p true b row us l) s = .next u ∧ rget u R.PPS_STATUS_TICK_US p = us % 2 ^ R.PPS_STATUS_TICK_US.width ∧ rget u R.PPS_STATUS_SOURCE p = 1 ∧ rget u R.PPS_STATUS_HOLDING p = 0 ∧ (getPps u p).contactAt = max s.now t ∧ (getPps u p).passed = (getPps s p).passed ∧ BlocksOnly s u [.pps] ∧ u = { advance s t with regs := u.regs, pps := u.pps }) ∧
  (∀ (s : State) (t : Fc) (p : Fin 2) (b : Nat),
      (getPps s p).powered = true →
      ppsLoading s p = false →
      rget s R.PPS_HIGHEST_BID p < b →
      exec (.takeoverRx ⟨t, (getPps s p).pairId⟩ p b) s = .next (rset (advance s t) R.PPS_HIGHEST_BID b p)) ∧
  (∀ (s : State) (t : Fc) (p : Fin 2) (b : Nat),
      (getPps s p).powered = true →
      ppsLoading s p = false →
      b = rget s R.PPS_HIGHEST_BID p →
      exec (.takeoverRx ⟨t, (getPps s p).pairId⟩ p b) s = .next (advance s t)) ∧
  (∀ (s : State) (t : Fc),
      s.fabric = true →
      role s = 2 →
      s.xlk.fencedOut = false →
      ∃ u, exec (.fenceAckRx ⟨t, (rget s R.XLK_PAIR_ID_PAIR_ID)⟩ (rget s R.XLK_BID_BID)) s = .next u ∧ u.xlk = { s.xlk with fencedOut := true } ∧ rget u R.XLK_COUNTS_FENCED_OUT = satTo R.XLK_COUNTS_FENCED_OUT.width (rget s R.XLK_COUNTS_FENCED_OUT + 1) ∧ BlocksOnly s u [.xlk, .hlm, .jrn] ∧ u = { advance s t with regs := u.regs, xlk := u.xlk, log := u.log, mem := u.mem, extMem := u.extMem }) ∧
  (∀ (s : State) (t : Fc) (q : Nat) (h : Heartbeat),
      s.fabric = true →
      q ≠ (rget s R.XLK_PAIR_ID_PAIR_ID) →
      exec (.heartbeatRx ⟨t, q⟩ h) s = .next (rinc (advance s t) R.XLK_BAD_FRAMES_COUNT)) ∧
  (∀ (s : State) (t : Fc) (p : Fin 2) (b row us : Nat) (l : List SentCmd) (q : Nat),
      (getPps s p).powered = true →
      s.fabric = true →
      q ≠ (getPps s p).pairId →
      exec (.commitRx ⟨t, q⟩ p false b row us l) s = .next (rinc (advance s t) R.XLK_BAD_FRAMES_COUNT))

/-- Of HEARTBEAT_RX, MIRROR_RX, HEALTH_RX, RESYNC_RX, SERVICE_RX, XLK_BAD_FRAME, XLK_LINK_UP, XLK_LINK_DOWN, HEALTH_TX, PAIR_HANDOVER, HANDOVER_TIMEOUT, STARTING_LISTEN_EXPIRY, SHADOW_ROW and FORWARD_CONFIRM_TIMEOUT. A heartbeat of a running partner clears MISSED and PARTNER_LOST and is kept as its latest. A mirror frame on a standby is kept for the shadow row of its row number. HEALTH words stand in XLK_PEER_HEALTH and go to the telemetry ring. A pulled item takes effect at once, a forwarded one waits for its row, a pattern or table set is confirmed and waits for the row that the primary then names; a confirm releases what was forwarded and a pull is answered. A bad frame counts alone. The link's state and cable delay are stored. HEALTH goes out once in a second of module time. A PRIMARY with a READY_STANDBY partner offers HANDOVER; elsewhere the descriptor is refused; unanswered, it completes PARTNER_ABSENT. A module that has listened long enough and heard nothing becomes PRIMARY where ALONE_OK allows it, with a bid above every bid it knows, announced by a TAKEOVER, and PARTNER_LOST set; one that heard a PRIMARY enters RESYNC. A standby that has a PRIMARY's heartbeat and the mirrors of a row runs it once: it compares digests, or for an overrun row runs nothing. A forwarded item not confirmed in 100 ms becomes pending on the primary alone. -/
def Obligations.Pairing : Prop :=
  (∀ (s : State) (t : Fc) (h : Heartbeat),
      s.fabric = true →
      pairEn s = true →
      h.stopped = false →
      (h.role = 2 ∨ h.role = 4 ∨ s.xlk.handover = []) →
      ∃ u, exec (.heartbeatRx ⟨t, (rget s R.XLK_PAIR_ID_PAIR_ID)⟩ h) s = .next u ∧ rget u R.XLK_ROLE_MISSED = 0 ∧ rget u R.XLK_ROLE_PARTNER_LOST = 0 ∧ u.xlk.lastHb = some h ∧ u.xlk.hbEpoch = h.bid / 256 ∧ u.xlk.hbHeard = true ∧ u.xlk.shadowed = false ∧
        RegsOnly s u [R.XLK_ROLE_MISSED.key 0 0, R.XLK_ROLE_PARTNER_LOST.key 0 0] ∧ u = { advance s t with regs := u.regs, xlk := u.xlk }) ∧
  (∀ (s : State) (t : Fc) (h : Heartbeat),
      s.fabric = true →
      pairEn s = true →
      h.stopped = true →
      (h.role = 2 ∨ h.role = 4 ∨ s.xlk.handover = []) →
      ∃ u, exec (.heartbeatRx ⟨t, (rget s R.XLK_PAIR_ID_PAIR_ID)⟩ h) s = .next u ∧ u.xlk.lastHb = some h ∧ u.xlk.hbEpoch = h.bid / 256 ∧ u.xlk.hbHeard = true ∧ u.xlk.shadowed = false ∧ u = { advance s t with xlk := u.xlk }) ∧
  (∀ (s : State) (t : Fc) (row off : Nat) (l : List Nat),
      s.fabric = true →
      (role s = 3 ∨ role s = 4) →
      ∃ u, exec (.mirrorRx ⟨t, (rget s R.XLK_PAIR_ID_PAIR_ID)⟩ row off l) s = .next u ∧ u.xlk.mirrorRow = row ∧ u.xlk.mirrorGot = (if s.xlk.mirrorRow = row then s.xlk.mirrorGot else 0) + 1 ∧ (∀ e < 8, tblGet? u.xlk.mirror (off / 8 + e) = some (l.getD e 0)) ∧ u = { advance s t with xlk := u.xlk }) ∧
  (∀ (s : State) (t : Fc) (l : List Nat),
      s.fabric = true →
      (∀ x ∈ l, x < 2 ^ 32) →
      ∃ u, exec (.healthRx ⟨t, (rget s R.XLK_PAIR_ID_PAIR_ID)⟩ l) s = .next u ∧ (∀ k < 16, rget u R.XLK_PEER_HEALTH_WORD 0 k = l.getD k 0) ∧ BlocksOnly s u [.xlk, .hlm] ∧ u = { advance s t with regs := u.regs, mem := u.mem, extMem := u.extMem }) ∧
  (∀ (s : State) (t : Fc) (i : ResyncItem),
      s.fabric = true →
      edgeDue (advance s t) = false →
      (role s = 3 ∨ role s = 4) →
      i ≠ .confirm →
      i ≠ .pull →
      i ≠ .dated →
      exec (.resyncRx ⟨t, (rget s R.XLK_PAIR_ID_PAIR_ID)⟩ 0 i) s = .next (applyItem (advance s t) i)) ∧
  (∀ (s : State) (t : Fc) (i : ResyncItem) (row : Nat),
      s.fabric = true →
      edgeDue (advance s t) = false →
      (role s = 3 ∨ role s = 4) →
      row ≠ 0 →
      i ≠ .confirm →
      i ≠ .pull →
      i ≠ .dated →
      (match i with | .pattern _ _ => true | .pendingTable _ => true | _ => false) = false →
      exec (.resyncRx ⟨t, (rget s R.XLK_PAIR_ID_PAIR_ID)⟩ row i) s = .next ({ advance s t with xlk := { s.xlk with inbox := s.xlk.inbox ++ [(row, i)] } })) ∧
  (∀ (s : State) (t : Fc) (i : ResyncItem) (row : Nat),
      s.fabric = true →
      edgeDue (advance s t) = false →
      (role s = 3 ∨ role s = 4) →
      row ≠ 0 →
      (match i with | .pattern _ _ => true | .pendingTable _ => true | _ => false) = true →
      exec (.resyncRx ⟨t, (rget s R.XLK_PAIR_ID_PAIR_ID)⟩ row i) s = .next (resyncSend { advance s t with xlk := { s.xlk with
          inbox := (s.xlk.inbox.filter fun p => p.1 != undated) ++ [(undated, i)] } } row .confirm)) ∧
  (∀ (s : State) (t : Fc) (row : Nat),
      s.fabric = true →
      edgeDue (advance s t) = false →
      exec (.resyncRx ⟨t, (rget s R.XLK_PAIR_ID_PAIR_ID)⟩ row .dated) s = .next ({ advance s t with xlk := { s.xlk with inbox := s.xlk.inbox.map fun p => if p.1 = undated then (row, p.2) else p } })) ∧
  (∀ (s : State) (t : Fc) (row : Nat),
      s.fabric = true →
      edgeDue (advance s t) = false →
      role s = 2 →
      exec (.resyncRx ⟨t, (rget s R.XLK_PAIR_ID_PAIR_ID)⟩ row .confirm) s = .next (releaseForward (advance s t) true)) ∧
  (∀ (s : State) (t : Fc) (row : Nat),
      s.fabric = true →
      edgeDue (advance s t) = false →
      role s = 2 →
      exec (.resyncRx ⟨t, (rget s R.XLK_PAIR_ID_PAIR_ID)⟩ row .pull) s = .next ((pulledItems (advance s t)).foldl (fun s x => resyncSend s 0 x) (advance s t))) ∧
  (∀ (s : State) (t : Fc) (i : ResyncItem) (row : Nat),
      s.fabric = true →
      edgeDue (advance s t) = true →
      exec (.resyncRx ⟨t, (rget s R.XLK_PAIR_ID_PAIR_ID)⟩ row i) s = .next ({ advance s t with tke := { s.tke with held := s.tke.held ++ [.resyncRx ⟨t, rget s R.XLK_PAIR_ID_PAIR_ID⟩ row i] } })) ∧
  (∀ (s : State) (t : Fc) (l : List Nat),
      s.fabric = true →
      exec (.serviceRx ⟨t, (rget s R.XLK_PAIR_ID_PAIR_ID)⟩ l) s = .next ({ advance s t with xlk := { s.xlk with service := l } })) ∧
  (∀ (s : State) (t : Fc) (l : List Nat),
      s.fabric = true →
      (l.getLast? ≠ some (crc32 (linkBytes l.dropLast)) ∨ l.getD 0 0 ≠ (rget s R.XLK_PAIR_ID_PAIR_ID)) →
      exec (.xlkBadFrame ⟨t, l⟩) s = .next (rset (advance s t) R.XLK_BAD_FRAMES_COUNT (satTo R.XLK_BAD_FRAMES_COUNT.width (rget s R.XLK_BAD_FRAMES_COUNT + 1)))) ∧
  (∀ (s : State) (t : Fc) (d : Nat),
      s.fabric = true →
      exec (.xlkLinkUp t d) s = .next (rset { advance s t with xlk := { s.xlk with cableNs := d } } R.XLK_ROLE_LINK_UP 1)) ∧
  (∀ (s : State) (t : Fc),
      s.fabric = true →
      exec (.xlkLinkDown t) s = .next (rset (advance s t) R.XLK_ROLE_LINK_UP 0)) ∧
  (∀ (s : State) (t : Fc) (l : List Nat),
      s.fabric = true →
      pairEn s = true →
      moduleTime (advance s t) / 1000000000 ≠ s.xlk.healthAt →
      ∃ u, exec (.healthTx t l) s = .next u ∧ u.xlk.healthSeq = s.xlk.healthSeq + 1 ∧ u.xlk.healthAt = moduleTime (advance s t) / 1000000000 ∧ u.xlk.recentMismatch = 0 ∧
        u.xlk.out = s.xlk.out ++ [⟨some 2, 5, frameWords (rget s R.XLK_PAIR_ID_PAIR_ID) 5 s.xlk.txSeq (healthWords (advance s t) l), none⟩] ∧ BlocksOnly s u [.arb] ∧ SameOutputs s u ∧ SameMemory s u) ∧
  (∀ (s : State) (t : Fc) (r : Ref) (d : Desc) (h : Heartbeat),
      s.fabric = true →
      heldDesc s r 0xB 0x40 = some d →
      due (advance s t) d = true →
      role s = 2 →
      s.xlk.lastHb = some h →
      h.role = 4 →
      rbit s R.XLK_ROLE_PARTNER_LOST = false →
      exec (.pairHandover t r) s = .next ({ (takeReq (advance s t) r) with xlk := { s.xlk with handover := s.xlk.handover ++ [(r, rowNow s)] } })) ∧
  (∀ (s : State) (t : Fc) (r : Ref) (d : Desc),
      s.fabric = true →
      heldDesc s r 0xB 0x40 = some d →
      due (advance s t) d = true →
      role s ≠ 2 →
      exec (.pairHandover t r) s = .next (complete (takeReq (advance s t) r) r stRejectState 0x0280)) ∧
  (∀ (s : State) (t : Fc) (r : Ref) (row : Nat),
      s.fabric = true →
      s.xlk.handover = [(r, row)] →
      row + rval s R.XLK_PAIR_CFG_HB_MISS + 1 < rowNow s →
      s.xlk.fencedOut = false →
      exec (.handoverTimeout t) s = .next (complete { advance s t with xlk := { s.xlk with handover := [] } } r stPartnerAbsent 0x0282)) ∧
  (∀ (s : State) (t : Fc),
      s.fabric = true →
      role s = 1 →
      s.xlk.startRow + rval s R.XLK_PAIR_CFG_HB_MISS + 2 ≤ rowNow s →
      s.xlk.lastHb = none →
      rbit s R.XLK_PAIR_CFG_ALONE_OK = true →
      ∃ u, exec (.startingListenExpiry t true) s = .next u ∧ rget u R.XLK_ROLE_ROLE = 2 ∧ rget u R.XLK_ROLE_PARTNER_LOST = 1 ∧ rget u R.XLK_BID_BID = (nextEpoch s * 256 + rankOf s) % 2 ^ 32 ∧ u.xlk.savedEpoch = nextEpoch s ∧
        u.xlk.out = s.xlk.out ++ [⟨none, 7, frameWords (rget s R.XLK_PAIR_ID_PAIR_ID) 7 s.xlk.txSeq [rget u R.XLK_BID_BID], none⟩] ∧
        BlocksOnly s u [.xlk, .arb] ∧ SameOutputs s u) ∧
  (∀ (s : State) (t : Fc) (h : Heartbeat) (x : Bool),
      s.fabric = true →
      role s = 1 →
      s.xlk.startRow + rval s R.XLK_PAIR_CFG_HB_MISS + 2 ≤ rowNow s →
      s.xlk.lastHb = some h →
      h.role = 2 →
      ∃ u, exec (.startingListenExpiry t x) s = .next u ∧ rget u R.XLK_ROLE_ROLE = 3 ∧ rget u R.XLK_ROLE_MATCH_ROWS = 0 ∧ rget u R.XLK_BID_BID = rget s R.XLK_BID_BID ∧ u.xlk.inbox = [] ∧ BlocksOnly s u [.xlk, .arb] ∧ SameOutputs s u) ∧
  (∀ (s : State) (t : Fc) (h : Heartbeat) (a : State) (r : State × Nat),
      s.fabric = true →
      (role s = 3 ∨ role s = 4) →
      s.xlk.shadowed = false →
      s.xlk.lastHb = some h →
      h.role = 2 →
      (h.mirrorCount = 0 ∨ (s.xlk.mirrorRow = h.row ∧ h.mirrorCount ≤ s.xlk.mirrorGot)) →
      h.overrun = false →
      h.stopped = false →
      h.disarmed = false →
      a = (shadowEpoch (applyInbox { advance s t with xlk := { s.xlk with shadowed := true } } h.row) h.epoch) →
      r = shadowRun a h →
      exec (.shadowRow t) s = .next (shadowCompare { r.1 with xlk := { r.1.xlk with shadow := shadowReport h r.2 } } r.2 h.digest)) ∧
  (∀ (s : State) (t : Fc) (h : Heartbeat) (a : State),
      s.fabric = true →
      (role s = 3 ∨ role s = 4) →
      s.xlk.shadowed = false →
      s.xlk.lastHb = some h →
      h.role = 2 →
      (h.mirrorCount = 0 ∨ (s.xlk.mirrorRow = h.row ∧ h.mirrorCount ≤ s.xlk.mirrorGot)) →
      (h.overrun = true ∨ h.stopped = true ∨ h.disarmed = true) →
      a = (shadowEpoch (applyInbox { advance s t with xlk := { s.xlk with shadowed := true } } h.row) h.epoch) →
      exec (.shadowRow t) s = .next ({ a with xlk := { a.xlk with shadow := shadowReport h 0 } })) ∧
  (∀ (s : State) (t : Fc) (h : Heartbeat),
      s.fabric = true →
      role s = 4 →
      s.xlk.shadowed = false →
      s.xlk.lastHb = some h →
      h.role = 2 →
      (h.mirrorCount = 0 ∨ (s.xlk.mirrorRow = h.row ∧ h.mirrorCount ≤ s.xlk.mirrorGot)) →
      h.overrun = false →
      h.stopped = false →
      h.disarmed = false →
      h.fallback = false →
      s.tke.main = none →
      s.xlk.inbox = [] →
      s.tke.pendTbl = none →
      h.digest = 0 →
      ∃ u, exec (.shadowRow t) s = .next u ∧ u.xlk.shadow = shadowReport h 0 ∧ u.xlk.shadowed = true ∧ rget u R.XLK_ROLE_MATCH_ROWS = satTo R.XLK_ROLE_MATCH_ROWS.width (rget s R.XLK_ROLE_MATCH_ROWS + 1) ∧ rget u R.XLK_ROLE_ROLE = 4 ∧ u = { advance s t with regs := u.regs, xlk := u.xlk }) ∧
  (∀ (s : State) (t : Fc) (f : Forwarded) (l : List Forwarded),
      s.fabric = true →
      edgeDue (advance s t) = false →
      s.xlk.forwards = f :: l →
      f.sentAt + 40000000 ≤ max s.now t →
      exec (.forwardConfirmTimeout t) s = .next ((match f with
      | .pattern p => pendPattern { advance s t with xlk := { s.xlk with forwards := l } } p
      | .table r b _ => pendTable { advance s t with xlk := { s.xlk with forwards := l } } (some r) b)))

/-- Of NAV_SEARCH, ACQ_SEARCH_DONE, RTCM_IN, CHANNEL_LOCK_LOSS, NAV_FILTER_STEP, DR_TIMEOUT, CORR_AGE_EXPIRY, ANT_OPEN, ANT_SHORT, ANT_SUPPLY_RETRY and NAV_SAVE. A NAV_SEARCH starts when its antenna has a free channel, in the mode that R263 selects, and completes DONE with FOUND and C/N0 when it ends; what it finds, or NAV's own search, is tracked if it is eligible, with the correlator spacing of its signal; a lost one is released and the next takes its place. RTCM_IN without RTK_EN or of a wrong length is refused; else it takes its messages and completes with its counts of frames, and bad CRCs are counted. At a whole millisecond a filter step makes a record with the best fix whose conditions hold, position valid under a GNSS fix or within the outage limit. The outage limit ends validity, and old corrections end RTK. OPEN and SHORT raise NAV_ANT_FAULT; a shorted supply is off until a retry finds the short gone. A save keeps ephemeris, almanac, position and leap seconds. -/
def Obligations.NavTracking : Prop :=
  (∀ (s : State) (t : Fc) (r : Ref) (d : Desc) (k : Bool),
      s.fabric = true →
      heldDesc s r 0xB 0x51 = some d →
      due (advance s t) d = true →
      searchRoom s (bitOf d.classWord 16) = true →
      exec (.navSearch t ⟨r, k⟩) s = .next ({ (takeReq (advance s t) r) with nav := { s.nav with searches := s.nav.searches ++ [⟨r, bitOf d.classWord 16, d.classWord % 32, bitField d.classWord 8 8, searchMode (advance s t) (bitOf d.classWord 17) k⟩] } })) ∧
  (∀ (s : State) (t : Fc) (r : Ref) (d : Desc) (k : Bool),
      s.fabric = true →
      heldDesc s r 0xB 0x51 = some d →
      due (advance s t) d = true →
      searchRoom s (bitOf d.classWord 16) = false →
      exec (.navSearch t ⟨r, k⟩) s = .next (advance s t)) ∧
  (∀ (s : State) (t : Fc) (r : Ref) (x : NavSearch) (b : Bool) (g v : Nat) (a : SatAid) (f : Bool) (n : Nat),
      s.fabric = true →
      s.nav.searches.find? (fun x => x.ref == r) = some x →
      searchFound (advance s t) x.mode x.sig x.sat a f = false →
      exec (.acqSearchDone t (some r) b g v a f n) s = .next (complete { advance s t with nav := { s.nav with
        searches := s.nav.searches.filter (fun y => y.ref != r), acqMode := x.mode } } r stDone (256 * (n % 256)))) ∧
  (∀ (s : State) (t : Fc) (r : Ref) (x : NavSearch) (b : Bool) (g v : Nat) (a : SatAid) (f : Bool) (n : Nat),
      s.fabric = true →
      s.nav.searches.find? (fun x => x.ref == r) = some x →
      searchFound (advance s t) x.mode x.sig x.sat a f = true →
      exec (.acqSearchDone t (some r) b g v a f n) s = .next (complete (trkAssign { advance s t with nav := { s.nav with
        searches := s.nav.searches.filter (fun y => y.ref != r), acqMode := x.mode } } ⟨x.antB, x.sig, x.sat, a.elev, a.sends, 0⟩) r stDone (1 + 256 * (n % 256)))) ∧
  (∀ (s : State) (t : Fc) (g v : Nat) (a : SatAid) (n : Nat),
      s.fabric = true →
      searchFound (advance s t) (searchMode (advance s t) false a.known) g v a true = true →
      trkEligible s ⟨false, g, v, a.elev, a.sends, 0⟩ = true →
      rbit s R.NAV_CTRL_HEADING_EN = false →
      (s.nav.trk.filter fun c => !c.antB).length < 128 →
      ∃ u, exec (.acqSearchDone t none false g v a true n) s = .next u ∧ ⟨false, g, v, a.elev, a.sends, rval s R.NAV_CORR_SPACING 0 g⟩ ∈ u.nav.trk ∧ (∀ c, c ∈ u.nav.trk → c ∈ s.nav.trk ∨ c = ⟨false, g, v, a.elev, a.sends, rval s R.NAV_CORR_SPACING 0 g⟩) ∧ RegsOnly s u [R.NAV_STATE_TRK_A.key 0 0, R.NAV_STATE_TRK_B.key 0 0] ∧ u = { advance s t with regs := u.regs, nav := { s.nav with trk := u.nav.trk, acqMode := u.nav.acqMode } }) ∧
  (∀ (s : State) (t : Fc) (b : Bool) (g v : Nat),
      s.fabric = true →
      (b = false ∨ rbit s R.NAV_CTRL_HEADING_EN = false) →
      ∃ u, exec (.channelLockLoss t b g v none) s = .next u ∧ (∀ c ∈ u.nav.trk, ¬(c.antB = b ∧ c.sig = g ∧ c.sat = v)) ∧ rget u R.NAV_STATE_TRK_A = (u.nav.trk.filter fun c => !c.antB).length % 2 ^ R.NAV_STATE_TRK_A.width ∧
        RegsOnly s u [R.NAV_STATE_TRK_A.key 0 0, R.NAV_STATE_TRK_B.key 0 0] ∧ u = { advance s t with regs := u.regs, nav := { s.nav with trk := u.nav.trk } }) ∧
  (∀ (s : State) (t : Fc) (b : Bool) (g v g2 v2 : Nat) (a : SatAid),
      s.fabric = true →
      exec (.channelLockLoss t b g v (some (g2, v2, a))) s = .next (trkAssign (trkRelease (advance s t) ⟨b, g, v, 0, [], 0⟩) ⟨b, g2, v2, a.elev, a.sends, 0⟩)) ∧
  (∀ (s : State) (t : Fc) (r : Ref) (d : Desc) (l : List Nat) (g : List (Nat × Nat)),
      s.fabric = true →
      heldDesc s r 0xB 0x50 = some d →
      due (advance s t) d = true →
      ((d.word 0x18 % 65536) = 0 ∨ 4096 < (d.word 0x18 % 65536)) →
      exec (.rtcmIn t r l g) s = .next (complete (takeReq (advance s t) r) r stRejectFormat 0x0150)) ∧
  (∀ (s : State) (t : Fc) (r : Ref) (d : Desc) (l : List Nat) (g : List (Nat × Nat)),
      s.fabric = true →
      heldDesc s r 0xB 0x50 = some d →
      due (advance s t) d = true →
      1 ≤ (d.word 0x18 % 65536) →
      (d.word 0x18 % 65536) ≤ 4096 →
      rbit s R.NAV_CTRL_RTK_EN = false →
      exec (.rtcmIn t r l g) s = .next (complete (takeReq (advance s t) r) r stRejectState 0x0250)) ∧
  (∀ (s : State) (t : Fc) (r : Ref) (d : Desc) (l : List Nat) (g : List (Nat × Nat)),
      s.fabric = true →
      heldDesc s r 0xB 0x50 = some d →
      due (advance s t) d = true →
      1 ≤ (d.word 0x18 % 65536) →
      (d.word 0x18 % 65536) ≤ 4096 →
      rbit s R.NAV_CTRL_RTK_EN = true →
      exec (.rtcmIn t r l g) s = .next (complete (rinc ((rtcmParse ((d.word 0x18 % 65536) + 1) (l.take (d.word 0x18 % 65536)) ⟨0, 0, 0, []⟩).msgs.foldl (rtcmTake g) (takeReq (advance s t) r)) R.NAV_RTCM_ERRS_COUNT (rtcmParse ((d.word 0x18 % 65536) + 1) (l.take (d.word 0x18 % 65536)) ⟨0, 0, 0, []⟩).badCrc) r stDone
        (min (rtcmParse ((d.word 0x18 % 65536) + 1) (l.take (d.word 0x18 % 65536)) ⟨0, 0, 0, []⟩).taken 255 + 256 * min (rtcmParse ((d.word 0x18 % 65536) + 1) (l.take (d.word 0x18 % 65536)) ⟨0, 0, 0, []⟩).ignored 255))) ∧
  (∀ (s : State) (t : Fc) (m : NavMeas),
      s.fabric = true →
      s.nav.stepNext ≤ moduleTime (advance s t) →
      ∃ u, exec (.navFilterStep t m) s = .next u ∧ u.nav.record.solTime = (moduleTime (advance s t) / 1000000 * 1000000) ∧ u.nav.stepNext = (moduleTime (advance s t) / 1000000 * 1000000) + 1000000 ∧ u.nav.record.lat = m.lat ∧ u.nav.record.lon = m.lon ∧ u.nav.record.fix = bestFix (advance s t) (fixTypes (sbasStep (advance s t) m) m) ∧ rget u R.NAV_STATE_FIX = bestFix (advance s t) (fixTypes (sbasStep (advance s t) m) m) ∧
        (1 ≤ u.nav.record.fix → u.nav.record.fix ≤ 4 → u.nav.record.posValid = true ∧ u.nav.record.hAcc = min m.hAcc 65535 ∧ u.nav.fixAt = some (max s.now t)) ∧
        (u.nav.record.fix = 0 → u.nav.record.posValid = false) ∧ (u.nav.record.roll, u.nav.record.pitch) = machineAttitude (advance s t) m ∧
        u.nav.record.slopeValid = (m.slopeOk && rbit s R.NAV_CTRL_IMU_EN) ∧ BlocksOnly s u [.nav, .hlm, .jrn] ∧ u = { advance s t with regs := u.regs, nav := u.nav, log := u.log, mem := u.mem, extMem := u.extMem }) ∧
  (∀ (s : State) (t : Fc),
      s.fabric = true →
      s.nav.record.fix = 5 →
      drMaxFc s ≤ outageFc (advance s t) →
      exec (.drTimeout t) s = .next ({ advance s t with nav := { s.nav with record := { s.nav.record with posValid := false, speedValid := false } } })) ∧
  (∀ (s : State) (t : Fc),
      s.fabric = true →
      (s.nav.record.fix = 3 ∨ s.nav.record.fix = 4) →
      rtkOk (advance s t) = false →
      ∃ u, exec (.corrAgeExpiry t) s = .next u ∧ u.nav.record = { s.nav.record with fix := bestFix (advance s t) s.nav.fixMask } ∧ u.nav.record.fix ≠ 3 ∧ u.nav.record.fix ≠ 4 ∧ BlocksOnly s u [.nav, .hlm, .jrn] ∧ u = { advance s t with regs := u.regs, nav := u.nav, log := u.log, mem := u.mem, extMem := u.extMem }) ∧
  (∀ (s : State) (t : Fc) (b : Bool),
      s.fabric = true →
      supplyOn s b = true →
      rbit s (antOpenFld b) = false →
      exec (.antOpen t b true) s = .next (raiseEv (rset (advance s t) (antOpenFld b) 1) evNavAntFault)) ∧
  (∀ (s : State) (t : Fc) (b : Bool),
      s.fabric = true →
      supplyOn s b = true →
      rbit s (antOpenFld b) = true →
      exec (.antOpen t b true) s = .next (rset (advance s t) (antOpenFld b) 1)) ∧
  (∀ (s : State) (t : Fc) (b : Bool),
      s.fabric = true →
      exec (.antOpen t b false) s = .next (rset (advance s t) (antOpenFld b) 0)) ∧
  (∀ (s : State) (t : Fc) (b : Bool),
      s.fabric = true →
      supplyOn s b = true →
      rbit s (antShortFld b) = false →
      exec (.antShort t b) s = .next (raiseEv (rset { advance s t with nav := { s.nav with supplyOff := tblSet s.nav.supplyOff (b2n b) (max s.now t) } } (antShortFld b) 1) evNavAntFault)) ∧
  (∀ (s : State) (t : Fc) (b : Bool) (a : Nat),
      s.fabric = true →
      tblGet? s.nav.supplyOff (b2n b) = some a →
      a + 400000000 ≤ max s.now t →
      exec (.antSupplyRetry t b true) s = .next (rset { advance s t with nav := { s.nav with supplyOff := tblErase s.nav.supplyOff (b2n b) } } (antShortFld b) 0)) ∧
  (∀ (s : State) (t : Fc) (b : Bool) (a : Nat),
      s.fabric = true →
      tblGet? s.nav.supplyOff (b2n b) = some a →
      a + 400000000 ≤ max s.now t →
      exec (.antSupplyRetry t b false) s = .next ({ advance s t with nav := { s.nav with supplyOff := tblSet s.nav.supplyOff (b2n b) (max s.now t) } })) ∧
  (∀ (s : State) (t : Fc) (x y : Nat),
      s.fabric = true →
      1 ≤ s.nav.record.fix →
      s.nav.record.fix ≤ 4 →
      s.nav.savedAt + 600 * 400000000 ≤ max s.now t →
      exec (.navSave t x y) s = .next ({ advance s t with nav := { s.nav with saved := some ⟨x, y, s.nav.record.lat, s.nav.record.lon, if rbit s R.NAV_LEAP_LEAP_VALID then some (rget s R.NAV_LEAP_LEAP_S) else none⟩, savedAt := max s.now t } }))

/-- The first valid solution sets module time by its error less the cable delay of its antenna, and TIME_STATE to GNSS. In GNSS a solution leaves its error for the next boundary; in HOLDOVER it takes part in the confirmation; while slewing it restarts the slew. 1 s without a valid solution begins HOLDOVER. At a boundary an error within SLEW_LIMIT is slewed out from now on without moving module time; a larger one steps module time by its negative, counts and raises NAV_TIME_STEP, and after a forward step the boundary has passed. The boundary's message carries its label. A slew that has taken out its error returns to GNSS. -/
def Obligations.ModuleTimeRules : Prop :=
  (∀ (s : State) (t : Fc) (d : Int) (q : Bool) (a b : Option Int) (n : Nat) (far : Bool),
      s.fabric = true →
      rbit s R.NAV_CTRL_EN = true →
      ((a = some d ∧ q = false) ∨ (a = none ∧ b = some d ∧ rbit s R.NAV_CTRL_ANT_B_EN = true ∧ q = true)) →
      (s.nav.started = true ∨ far = false) →
      n ≤ 100 →
      rget s R.NAV_STATE_TIME_STATE = 0 →
      ∃ u, exec (.timeSolution t a b n far) s = .next u ∧ rget u R.NAV_STATE_TIME_STATE = 1 ∧ u.timeOff = s.timeOff - (d - cableDelay s q) ∧ rget u R.NAV_TIME_UNC_NS = n ∧ rget u R.AOC_PWR_STATE_RTC_VALID = 1 ∧ rget u R.NAV_ANT_TIME_ANT_B = b2n q ∧ u.nav.solAt = max s.now t ∧ u.nav.delta = 0 ∧
        u.tke = { s.tke with timeEverValid := true } ∧ BlocksOnly s u [.nav, .aoc, .hlm, .jrn] ∧ u = { advance s t with regs := u.regs, nav := u.nav, timeOff := u.timeOff, rtcOff := u.rtcOff, tke := u.tke, log := u.log, mem := u.mem, extMem := u.extMem }) ∧
  (∀ (s : State) (t : Fc) (d : Int) (q : Bool) (a b : Option Int) (n : Nat) (far : Bool),
      s.fabric = true →
      rbit s R.NAV_CTRL_EN = true →
      ((a = some d ∧ q = false) ∨ (a = none ∧ b = some d ∧ rbit s R.NAV_CTRL_ANT_B_EN = true ∧ q = true)) →
      (s.nav.started = true ∨ far = false) →
      n ≤ 100 →
      rget s R.NAV_STATE_TIME_STATE = 1 →
      ∃ u, exec (.timeSolution t a b n far) s = .next u ∧ rget u R.NAV_STATE_TIME_STATE = 1 ∧ u.timeOff = s.timeOff ∧ rget u R.NAV_TIME_UNC_NS = n ∧ u.nav = { s.nav with started := true, solAt := max s.now t, solUnc := n, delta := (d - cableDelay s q) } ∧ BlocksOnly s u [.nav] ∧ u = { advance s t with regs := u.regs, nav := u.nav }) ∧
  (∀ (s : State) (t : Fc) (d : Int) (q : Bool) (a b : Option Int) (n : Nat) (far : Bool),
      s.fabric = true →
      rbit s R.NAV_CTRL_EN = true →
      ((a = some d ∧ q = false) ∨ (a = none ∧ b = some d ∧ rbit s R.NAV_CTRL_ANT_B_EN = true ∧ q = true)) →
      (s.nav.started = true ∨ far = false) →
      n ≤ 100 →
      rget s R.NAV_STATE_TIME_STATE = 2 →
      ∃ u, exec (.timeSolution t a b n far) s = .next u ∧ rget u R.NAV_STATE_TIME_STATE = 2 ∧ u.timeOff = s.timeOff ∧ u.nav = { s.nav with started := true, solUnc := n, delta := (d - cableDelay s q), conf := some (confirm (solHz s) s.nav.conf (max s.now t) (d - cableDelay s q)) } ∧ RegsOnly s u [R.NAV_ANT_TIME_ANT_B.key 0 0] ∧ u = { advance s t with regs := u.regs, nav := u.nav }) ∧
  (∀ (s : State) (t : Fc) (d : Int) (q : Bool) (a b : Option Int) (n : Nat) (far : Bool),
      s.fabric = true →
      rbit s R.NAV_CTRL_EN = true →
      ((a = some d ∧ q = false) ∨ (a = none ∧ b = some d ∧ rbit s R.NAV_CTRL_ANT_B_EN = true ∧ q = true)) →
      (s.nav.started = true ∨ far = false) →
      n ≤ 100 →
      rget s R.NAV_STATE_TIME_STATE = 3 →
      ∃ u, exec (.timeSolution t a b n far) s = .next u ∧ rget u R.NAV_STATE_TIME_STATE = 3 ∧ u.nav.slew = (d - cableDelay s q) ∧ u.nav.slewFrom = max s.now t ∧ u.nav.solAt = max s.now t ∧ moduleTime u = moduleTime (advance s t) ∧ BlocksOnly s u [.nav] ∧ u = { advance s t with regs := u.regs, nav := u.nav, timeOff := u.timeOff }) ∧
  (∀ (s : State) (t : Fc) (d : Int) (q : Bool) (a b : Option Int) (n : Nat) (far : Bool),
      s.fabric = true →
      rbit s R.NAV_CTRL_EN = true →
      ((a = some d ∧ q = false) ∨ (a = none ∧ b = some d ∧ rbit s R.NAV_CTRL_ANT_B_EN = true ∧ q = true)) →
      (s.nav.started = true ∨ far = false) →
      100 < n →
      ∃ u, exec (.timeSolution t a b n far) s = .next u ∧ u.nav = { s.nav with started := true, conf := none } ∧ rget u R.NAV_TIME_UNC_NS = (if rget s R.NAV_STATE_TIME_STATE = 1 then min n (2 ^ 32 - 1) else rget s R.NAV_TIME_UNC_NS) ∧
        RegsOnly s u [R.NAV_ANT_TIME_ANT_B.key 0 0, R.NAV_TIME_UNC_NS.key 0 0] ∧ u = { advance s t with regs := u.regs, nav := u.nav }) ∧
  (∀ (s : State) (t : Fc) (d : Int) (q : Bool) (a b : Option Int) (n : Nat) (far : Bool),
      s.fabric = true →
      rbit s R.NAV_CTRL_EN = true →
      ((a = some d ∧ q = false) ∨ (a = none ∧ b = some d ∧ rbit s R.NAV_CTRL_ANT_B_EN = true ∧ q = true)) →
      s.nav.started = false →
      100 < n →
      far = true →
      (rget s R.NAV_STATE_START_KIND = 1 ∨ rget s R.NAV_STATE_START_KIND = 2) →
      ∃ u, exec (.timeSolution t a b n far) s = .next u ∧ u.nav = { s.nav with started := true, conf := none } ∧ rget u R.NAV_STATE_START_KIND = 3 ∧ rget u R.NAV_LEAP_SAVE_BAD = satTo R.NAV_LEAP_SAVE_BAD.width (rget s R.NAV_LEAP_SAVE_BAD + 1) ∧ BlocksOnly s u [.nav] ∧ u = { advance s t with regs := u.regs, nav := u.nav }) ∧
  (∀ (s : State) (t : Fc) (n : Fin 256),
      s.fabric = true →
      exec (.leapDecode t n) s = .next (rset (rset (advance s t) R.NAV_LEAP_LEAP_S n) R.NAV_LEAP_LEAP_VALID 1)) ∧
  (∀ (s : State) (t : Fc) (e : Nat) (c : Int),
      s.fabric = true →
      (rget s R.NAV_STATE_TIME_STATE = 1 ∨ rget s R.NAV_STATE_TIME_STATE = 3) →
      s.nav.solAt + 400000000 ≤ max s.now t →
      ∃ u, exec (.holdoverEntry t e c) s = .next u ∧ rget u R.NAV_STATE_TIME_STATE = 2 ∧ rget u R.NAV_TIME_ERR_NS = 0 ∧ u.nav.u0 = 4 * s.nav.solUnc + (slewLeft (advance s t)).natAbs ∧ u.nav.eps = min e (if s.nav.lockFrom + 600 * 400000000 ≤ s.nav.solAt then 8 else 500) ∧
        u.nav.tcxo = c ∧ u.nav.slew = 0 ∧ u.nav.conf = none ∧ moduleTime u = moduleTime (advance s t) ∧
        BlocksOnly s u [.nav, .hlm, .jrn] ∧ u = { advance s t with regs := u.regs, nav := u.nav, timeOff := u.timeOff, log := u.log, mem := u.mem, extMem := u.extMem }) ∧
  (∀ (s : State) (t : Fc) (e : Nat) (c : Int),
      s.fabric = true →
      rget s R.NAV_STATE_TIME_STATE = 1 →
      max s.now t < s.nav.solAt + 400000000 →
      exec (.holdoverEntry t e c) s = .next (advance s t)) ∧
  (∀ (s : State) (t : Fc) (c : Int),
      s.fabric = true →
      tpNext s ≤ moduleTime (advance s t) →
      rget s R.NAV_STATE_TIME_STATE ≠ 2 →
      boundaryDelta (advance s t) = none →
      ∃ u, exec (.pulseBoundary t c) s = .next u ∧ rget64 u R.NAV_TP_LAST_LO_TIME R.NAV_TP_LAST_HI_TIME = tpNext s % 2 ^ 64 ∧ rget u R.NAV_TP_STAT_SEQ = (rget s R.NAV_TP_STAT_SEQ + 1) % 2 ^ R.NAV_TP_STAT_SEQ.width ∧ rget u R.NAV_STATE_TIME_STATE = rget s R.NAV_STATE_TIME_STATE ∧ rget u R.NAV_TP_STAT_EMITTED = b2n (pulseEmitted (advance s t) (tpNext s)) ∧ moduleTime u = moduleTime (advance s t) ∧ BlocksOnly s u [.nav, .hlm, .jrn] ∧ u = { advance s t with regs := u.regs, nav := u.nav, log := u.log, mem := u.mem, extMem := u.extMem }) ∧
  (∀ (s : State) (t : Fc) (c d : Int),
      s.fabric = true →
      tpNext s ≤ moduleTime (advance s t) →
      rget s R.NAV_STATE_TIME_STATE = 1 →
      s.nav.delta = d →
      d ≠ 0 →
      d ≤ 4 * (rget s R.NAV_HO_LIMITS_SLEW_LIMIT : Int) →
      -(4 * (rget s R.NAV_HO_LIMITS_SLEW_LIMIT : Int)) ≤ d →
      ∃ u, exec (.pulseBoundary t c) s = .next u ∧ rget64 u R.NAV_TP_LAST_LO_TIME R.NAV_TP_LAST_HI_TIME = tpNext s % 2 ^ 64 ∧ rget u R.NAV_TP_STAT_SEQ = (rget s R.NAV_TP_STAT_SEQ + 1) % 2 ^ R.NAV_TP_STAT_SEQ.width ∧ rget u R.NAV_STATE_TIME_STATE = 3 ∧ u.nav.slew = d ∧ u.nav.slewFrom = max s.now t ∧ moduleTime u = moduleTime (advance s t) ∧ BlocksOnly s u [.nav, .hlm, .jrn] ∧ u = { advance s t with regs := u.regs, nav := u.nav, timeOff := u.timeOff, log := u.log, mem := u.mem, extMem := u.extMem }) ∧
  (∀ (s : State) (t : Fc) (c d : Int) (k : NavConf),
      s.fabric = true →
      tpNext s ≤ moduleTime (advance s t) →
      rget s R.NAV_STATE_TIME_STATE = 2 →
      s.nav.conf = some k →
      k.first + 1200000000 ≤ k.last →
      s.nav.delta = d →
      d ≠ 0 →
      d ≤ 4 * (rget s R.NAV_HO_LIMITS_SLEW_LIMIT : Int) →
      -(4 * (rget s R.NAV_HO_LIMITS_SLEW_LIMIT : Int)) ≤ d →
      ∃ u, exec (.pulseBoundary t c) s = .next u ∧ rget64 u R.NAV_TP_LAST_LO_TIME R.NAV_TP_LAST_HI_TIME = tpNext s % 2 ^ 64 ∧ rget u R.NAV_TP_STAT_SEQ = (rget s R.NAV_TP_STAT_SEQ + 1) % 2 ^ R.NAV_TP_STAT_SEQ.width ∧ rget u R.NAV_STATE_TIME_STATE = 3 ∧ u.nav.slew = d ∧ u.nav.slewFrom = max s.now t ∧ u.nav.conf = none ∧ moduleTime u = moduleTime (advance s t) ∧ BlocksOnly s u [.nav, .hlm, .jrn] ∧ u = { advance s t with regs := u.regs, nav := u.nav, timeOff := u.timeOff, log := u.log, mem := u.mem, extMem := u.extMem }) ∧
  (∀ (s : State) (t : Fc) (c d : Int),
      s.fabric = true →
      tpNext s ≤ moduleTime (advance s t) →
      rget s R.NAV_STATE_TIME_STATE = 1 →
      s.nav.delta = d →
      d < 0 →
      d < -(4 * (rget s R.NAV_HO_LIMITS_SLEW_LIMIT : Int)) →
      ∃ u, exec (.pulseBoundary t c) s = .next u ∧ rget64 u R.NAV_TP_LAST_LO_TIME R.NAV_TP_LAST_HI_TIME = tpNext s % 2 ^ 64 ∧ rget u R.NAV_TP_STAT_SEQ = (rget s R.NAV_TP_STAT_SEQ + 1) % 2 ^ R.NAV_TP_STAT_SEQ.width ∧ rget u R.NAV_STATE_TIME_STATE = 1 ∧ u.timeOff = s.timeOff - slewed s (max s.now t) - d ∧ u.nav.slew = 0 ∧ rget u R.NAV_TP_STAT_STEP_COUNT = (rget s R.NAV_TP_STAT_STEP_COUNT + 1) % 2 ^ R.NAV_TP_STAT_STEP_COUNT.width ∧ u.tke.stepSeen = true ∧
        BlocksOnly s u [.nav, .hlm, .jrn] ∧ u = { advance s t with regs := u.regs, nav := u.nav, timeOff := u.timeOff, tke := u.tke, log := u.log, mem := u.mem, extMem := u.extMem }) ∧
  (∀ (s : State) (t : Fc) (c d : Int),
      s.fabric = true →
      tpNext s ≤ moduleTime (advance s t) →
      rget s R.NAV_STATE_TIME_STATE = 1 →
      s.nav.delta = d →
      0 < d →
      4 * (rget s R.NAV_HO_LIMITS_SLEW_LIMIT : Int) < d →
      ∃ u, exec (.pulseBoundary t c) s = .next u ∧ rget u R.NAV_STATE_TIME_STATE = 1 ∧ u.timeOff = s.timeOff - slewed s (max s.now t) - d ∧ u.nav.slew = 0 ∧ rget u R.NAV_TP_STAT_STEP_COUNT = (rget s R.NAV_TP_STAT_STEP_COUNT + 1) % 2 ^ R.NAV_TP_STAT_STEP_COUNT.width ∧ u.tke.stepSeen = true ∧ rget u R.NAV_TP_STAT_SEQ = rget s R.NAV_TP_STAT_SEQ ∧ u.nav.lastEmit = s.nav.lastEmit ∧
        BlocksOnly s u [.nav, .hlm, .jrn] ∧ u = { advance s t with regs := u.regs, nav := u.nav, timeOff := u.timeOff, tke := u.tke, log := u.log, mem := u.mem, extMem := u.extMem }) ∧
  (∀ (s : State) (t : Fc) (c : Int),
      s.fabric = true →
      moduleTime (advance s t) < tpNext s →
      exec (.pulseBoundary t c) s = .next (advance s t)) ∧
  (∀ (s : State) (t : Fc),
      s.fabric = true →
      rget s R.NAV_STATE_TIME_STATE = 3 →
      slewLeft (advance s t) = 0 →
      ∃ u, exec (.slewComplete t) s = .next u ∧ rget u R.NAV_STATE_TIME_STATE = 1 ∧ rget u R.NAV_TIME_ERR_NS = 0 ∧ u.nav.slew = 0 ∧ moduleTime u = moduleTime (advance s t) ∧ BlocksOnly s u [.nav] ∧ u = { advance s t with regs := u.regs, nav := u.nav, timeOff := u.timeOff })

/-- An extract with a bad mass flow is counted and not mapped; one whose point in the position history was recording with an active section leaves the queue mapped once its tiles are in the cache, and waits until then; with no such point it is not mapped. TILE_LOAD of a cached tile completes DONE with its slot; of a stored tile it waits for the load; a tile stored nowhere starts with every cell zero. TILE_WRITE leaves the tile with the image's cells. TILE_FLUSH completes when every dirty tile has flushed. A finished load makes a slot usable, a failed one frees it. A finished flush stores the image as it was when the flush began; a failed one leaves the tile dirty and raises MAP_FLUSH_FAIL. An old stored tile is refreshed. -/
def Obligations.MappingAndTiles : Prop :=
  (∀ (s : State) (t : Fc) (x : Extract) (l : List Extract),
      s.fabric = true →
      s.sto.samples = x :: l →
      x.q00Bad = true →
      ∃ u, exec (.mapExtract t) s = .next u ∧ u.sto.samples = l ∧ u.sto.inRun = false ∧ u.sto.cache = s.sto.cache ∧ u.sto.lastMapped = s.sto.lastMapped ∧ rget u R.STO_MAP_COUNTS_UNMAPPED = satTo R.STO_MAP_COUNTS_UNMAPPED.width (rget s R.STO_MAP_COUNTS_UNMAPPED + 1) ∧
        RegsOnly s u [R.STO_MAP_COUNTS_UNMAPPED.key 0 0] ∧ u = { advance s t with regs := u.regs, sto := u.sto }) ∧
  (∀ (s : State) (t : Fc) (x : Extract) (l : List Extract) (b a : HistPos) (e : Nat),
      s.fabric = true →
      s.sto.samples = x :: l →
      x.q00Bad = false →
      s.sto.prevEdge = some e →
      e ≤ x.edge →
      x.edge ≤ e + 100000000 →
      travelDelay s x.q00 ≤ x.edge →
      bracket (enterHistory (advance s t) x) (x.edge - travelDelay s x.q00) = some (b, a) →
      b.recording = true →
      b.sections ≠ 0 →
      (needTiles (enterHistory (advance s t) x) (stripTiles (stripsOf (enterHistory (advance s t) x) (pointAt b a (x.edge - travelDelay s x.q00)) b.heading b.sections))).2 = true →
      ∃ u, exec (.mapExtract t) s = .next u ∧ u.sto.samples = l ∧ u.sto.prevEdge = some x.edge ∧ u.sto.inRun = true ∧ u.sto.lastMapped.isSome = true ∧ u.sto.map = s.sto.map ∧ RegsOnly s u [R.STO_UNMAPPED_KG_VALUE.key 0 0] ∧ u = { advance s t with regs := u.regs, sto := u.sto, fle := u.fle }) ∧
  (∀ (s : State) (t : Fc) (x : Extract) (l : List Extract) (e : Nat),
      s.fabric = true →
      s.sto.samples = x :: l →
      x.q00Bad = false →
      s.sto.prevEdge = some e →
      e ≤ x.edge →
      x.edge ≤ e + 100000000 →
      travelDelay s x.q00 ≤ x.edge →
      bracket (enterHistory (advance s t) x) (x.edge - travelDelay s x.q00) = none →
      exec (.mapExtract t) s = .next (extractUnmapped (enterHistory (advance s t) x) x (some ((x.edge : Int) - e)))) ∧
  (∀ (s : State) (t : Fc) (x : Extract) (l : List Extract) (e : Nat) (b a : HistPos),
      s.fabric = true →
      s.sto.samples = x :: l →
      x.q00Bad = false →
      s.sto.prevEdge = some e →
      e ≤ x.edge →
      x.edge ≤ e + 100000000 →
      travelDelay s x.q00 ≤ x.edge →
      bracket (enterHistory (advance s t) x) (x.edge - travelDelay s x.q00) = some (b, a) →
      (b.recording = false ∨ b.sections = 0) →
      exec (.mapExtract t) s = .next (extractUnmapped (enterHistory (advance s t) x) x (some ((x.edge : Int) - e)))) ∧
  (∀ (s : State) (t : Fc) (x : Extract) (l : List Extract) (e : Nat) (b a : HistPos),
      s.fabric = true →
      s.sto.samples = x :: l →
      x.q00Bad = false →
      s.sto.prevEdge = some e →
      e ≤ x.edge →
      x.edge ≤ e + 100000000 →
      travelDelay s x.q00 ≤ x.edge →
      bracket (enterHistory (advance s t) x) (x.edge - travelDelay s x.q00) = some (b, a) →
      b.recording = true →
      b.sections ≠ 0 →
      (needTiles (enterHistory (advance s t) x) (stripTiles (stripsOf (enterHistory (advance s t) x) (pointAt b a (x.edge - travelDelay s x.q00)) b.heading b.sections))).2 = false →
      exec (.mapExtract t) s = .next ((needTiles (enterHistory (advance s t) x) (stripTiles (stripsOf (enterHistory (advance s t) x) (pointAt b a (x.edge - travelDelay s x.q00)) b.heading b.sections))).1)) ∧
  (∀ (s : State) (t : Fc) (r : Ref) (d : Desc) (k : Nat) (c : CacheSlot),
      s.fabric = true →
      heldDesc s r 0xB 0x60 = some d →
      due (advance s t) d = true →
      tileError s (d.quad 0x10) = none →
      cacheFind s (d.quad 0x10) = some (k, c) →
      c.loading = false →
      exec (.tileLoad t r) s = .next (complete (touchSlot (takeReq (advance s t) r) k) r stDone k)) ∧
  (∀ (s : State) (t : Fc) (r : Ref) (d : Desc) (k : Nat) (x : Stored),
      s.fabric = true →
      heldDesc s r 0xB 0x60 = some d →
      due (advance s t) d = true →
      tileError s (d.quad 0x10) = none →
      cacheFind s (d.quad 0x10) = none →
      slotFor s [(d.quad 0x10)] = some k →
      tblGet? s.sto.map (d.quad 0x10) = some x →
      ∃ u, exec (.tileLoad t r) s = .next u ∧ u.sto.waits = s.sto.waits ++ [.desc r (d.quad 0x10) none] ∧ (∃ c, tblGet? u.sto.cache k = some c ∧ c.tile = x.tile ∧ c.loading = true) ∧ u.reqs = (takeReq (advance s t) r).reqs ∧ u = { advance s t with sto := u.sto, reqs := u.reqs }) ∧
  (∀ (s : State) (t : Fc) (r : Ref) (d : Desc) (k : Nat),
      s.fabric = true →
      heldDesc s r 0xB 0x60 = some d →
      due (advance s t) d = true →
      tileError s (d.quad 0x10) = none →
      cacheFind s (d.quad 0x10) = none →
      slotFor s [(d.quad 0x10)] = some k →
      tblGet? s.sto.map (d.quad 0x10) = none →
      ∃ u, exec (.tileLoad t r) s = .next u ∧ (∃ c, tblGet? u.sto.cache k = some c ∧ c.tile.id = (d.quad 0x10) ∧ c.loading = false ∧ c.dirty = none ∧ ∀ i, tileCell c.tile i = 0) ∧ u.reqs = (complete (takeReq (advance s t) r) r stDone k).reqs ∧ u = { advance s t with sto := u.sto, reqs := u.reqs, till := u.till }) ∧
  (∀ (s : State) (t : Fc) (r : Ref) (d : Desc),
      s.fabric = true →
      heldDesc s r 0xB 0x60 = some d →
      due (advance s t) d = true →
      tileError s (d.quad 0x10) = none →
      exec (.tileLoad t r) s = .next (serveDesc (takeReq (advance s t) r) r (d.quad 0x10) none)) ∧
  (∀ (s : State) (t : Fc) (r : Ref) (d : Desc),
      s.fabric = true →
      heldDesc s r 0xB 0x60 = some d →
      due (advance s t) d = true →
      tileIdOk (d.quad 0x10) = true →
      cacheBase s = 0 →
      exec (.tileLoad t r) s = .next (complete (takeReq (advance s t) r) r stRejectState 0x02A2)) ∧
  (∀ (s : State) (t : Fc) (r : Ref) (d : Desc) (img : List Nat) (k : Nat) (c : CacheSlot),
      s.fabric = true →
      heldDesc s r 0xB 0x61 = some d →
      due (advance s t) d = true →
      tileError s (d.quad 0x10) = none →
      tileKind (d.quad 0x10) = 3 →
      tileImageOk s (d.quad 0x10) img = true →
      cacheFind s (d.quad 0x10) = some (k, c) →
      c.loading = false →
      tblGet? s.sto.cache k = some c →
      tblSorted s.sto.cache = true →
      tblSorted c.tile.cells = true →
      ∃ u, exec (.tileWrite t r img) s = .next u ∧ (∃ n, tblGet? u.sto.cache k = some n ∧ n.loading = false ∧ n.dirty.isSome = true ∧ n.tile.id = c.tile.id ∧ n.tile.origin = imgWord img 0xC ∧ ∀ i, tileCell n.tile i = tblGetD (imageCells (tileKind (d.quad 0x10)) 0 ((img.drop 16).take (tileWords (tileKind (d.quad 0x10)) - 16))) i 0) ∧ u.sto.map = s.sto.map ∧ u.reqs = (complete (takeReq (advance s t) r) r stDone).reqs ∧ u = { advance s t with sto := u.sto, fle := u.fle, reqs := u.reqs, till := u.till }) ∧
  (∀ (s : State) (t : Fc) (r : Ref) (d : Desc) (img : List Nat),
      s.fabric = true →
      heldDesc s r 0xB 0x61 = some d →
      due (advance s t) d = true →
      tileError s (d.quad 0x10) = none →
      (tileKind (d.quad 0x10) = 3 ∨ rbit s R.STO_MAP_CTRL_MAP_EN = false) →
      tileImageOk s (d.quad 0x10) img = true →
      exec (.tileWrite t r img) s = .next (serveDesc (takeReq (advance s t) r) r (d.quad 0x10) (some (imageTile (d.quad 0x10) img)))) ∧
  (∀ (s : State) (t : Fc) (r : Ref) (d : Desc) (img : List Nat),
      s.fabric = true →
      heldDesc s r 0xB 0x61 = some d →
      due (advance s t) d = true →
      tileError s (d.quad 0x10) = none →
      tileKind (d.quad 0x10) = 3 →
      tileImageOk s (d.quad 0x10) img = false →
      exec (.tileWrite t r img) s = .next (complete (takeReq (advance s t) r) r stRejectFormat 0x01A2)) ∧
  (∀ (s : State) (t : Fc) (r : Ref) (d : Desc),
      s.fabric = true →
      heldDesc s r 0xB 0x62 = some d →
      due (advance s t) d = true →
      cacheBase s ≠ 0 →
      keyWithheld s 4 = false →
      (∀ p ∈ s.sto.cache, slotDirty p.2 = false) →
      exec (.tileFlush t r) s = .next (complete (takeReq (advance s t) r) r stDone)) ∧
  (∀ (s : State) (t : Fc) (r : Ref) (d : Desc) (k : Nat) (c : CacheSlot),
      s.fabric = true →
      heldDesc s r 0xB 0x62 = some d →
      due (advance s t) d = true →
      cacheBase s ≠ 0 →
      keyWithheld s 4 = false →
      s.sto.cache = [(k, c)] →
      c.dirty.isSome = true →
      c.flushing = none →
      c.loading = false →
      ∃ u, exec (.tileFlush t r) s = .next u ∧ u.sto.cache = [(k, { c with dirty := none, flushing := some c.tile })] ∧ u.sto.flushes = s.sto.flushes ++ [(some r, [k])] ∧ u.reqs = (takeReq (advance s t) r).reqs ∧ u = { advance s t with sto := u.sto, reqs := u.reqs }) ∧
  (∀ (s : State) (t : Fc) (r : Ref) (d : Desc),
      s.fabric = true →
      heldDesc s r 0xB 0x62 = some d →
      due (advance s t) d = true →
      cacheBase s ≠ 0 →
      keyWithheld s 4 = false →
      exec (.tileFlush t r) s = .next (flushNow (takeReq (advance s t) r) (some r))) ∧
  (∀ (s : State) (t : Fc) (k : Fin 4096) (c : CacheSlot) (a : Nat),
      s.fabric = true →
      keyWithheld s 4 = false →
      tblGet? s.sto.cache k = some c →
      c.dirty = some a →
      c.flushing = none →
      c.loading = false →
      a + rval s R.STO_FLUSH_FLUSH_S * 400000000 ≤ max s.now t →
      exec (.tileFlushDue t k) s = .next (storeServe { advance s t with sto := { s.sto with cache := tblSet s.sto.cache k { c with dirty := none, flushing := some c.tile } } })) ∧
  (∀ (s : State) (t : Fc) (k : Fin 4096) (n m : Nat) (c : CacheSlot),
      s.fabric = true →
      tblGet? s.sto.cache k = some c →
      c.loading = true →
      storeTurn (advance s t) = some 3 →
      exec (.tileLoadDone t k true n m) s = .next (storeNext (serveWaits { advance s t with sto := { s.sto with cache := tblSet s.sto.cache k { c with loading := false } } }))) ∧
  (∀ (s : State) (t : Fc) (k : Fin 4096) (n m : Nat) (c : CacheSlot),
      s.fabric = true →
      tblGet? s.sto.cache k = some c →
      c.loading = true →
      storeTurn (advance s t) = some 3 →
      ∃ u, exec (.tileLoadDone t k false n m) s = .next u ∧ u.sto.cache = tblErase s.sto.cache k ∧ (∀ w ∈ u.sto.waits, w.tile ≠ c.tile.id) ∧ rget u R.STO_MEDIA_ERRS_READ = satTo R.STO_MEDIA_ERRS_READ.width (rget s R.STO_MEDIA_ERRS_READ + 1) ∧ BlocksOnly s u [.sto, .hlm, .jrn] ∧ u = { advance s t with regs := u.regs, sto := u.sto, fle := u.fle, reqs := u.reqs, till := u.till, log := u.log, mem := u.mem, extMem := u.extMem }) ∧
  (∀ (s : State) (t : Fc) (k : Fin 4096) (n m : Nat) (c : CacheSlot) (im : Tile),
      s.fabric = true →
      tblGet? s.sto.cache k = some c →
      c.flushing = some im →
      (storeTurn (advance s t) = some 0 ∨ storeTurn (advance s t) = some 3) →
      exec (.tileFlushDone t k true n m) s = .next (storeNext (serveWaits (flushSettled (modSlot (storeTile (advance s t) im c.pubAt c.pubLast) k fun c => { c with flushing := none }) k)))) ∧
  (∀ (s : State) (t : Fc) (k : Fin 4096) (n m : Nat) (c : CacheSlot) (im : Tile),
      s.fabric = true →
      tblGet? s.sto.cache k = some c →
      c.flushing = some im →
      (storeTurn (advance s t) = some 0 ∨ storeTurn (advance s t) = some 3) →
      ∃ u, exec (.tileFlushDone t k false n m) s = .next u ∧ tblGet? u.sto.cache k = some { c with flushing := none, dirty := some (max s.now t) } ∧ u.sto.map = s.sto.map ∧ (∀ p ∈ u.sto.flushes, p.2.contains k.val = false) ∧ rget u R.STO_MEDIA_ERRS_WRITE = satTo R.STO_MEDIA_ERRS_WRITE.width (rget s R.STO_MEDIA_ERRS_WRITE + 1) ∧ BlocksOnly s u [.sto, .hlm, .jrn] ∧ u = { advance s t with regs := u.regs, sto := u.sto, reqs := u.reqs, till := u.till, log := u.log, mem := u.mem, extMem := u.extMem }) ∧
  (∀ (s : State) (t : Fc) (id : Nat) (x : Stored),
      s.fabric = true →
      tblGet? s.sto.map id = some x →
      s.sto.refreshAt.all (fun a => a + 4000000000 ≤ max s.now t) = true →
      storeTurn (advance s t) = none →
      keyWithheld s 4 = false →
      x.at_ + 365 * 86400 * 1000000000 < moduleTime (advance s t) →
      exec (.tileRefresh t id) s = .next (modSto (storeTile (advance s t) x.tile x.pubAt x.pubLast) fun m => { m with refreshAt := some (max s.now t) }))

/-- A STORE_READ or STORE_WRITE of 1 to 256 blocks in a partition open to it begins, in fetch order; one out of range, of a closed partition, or beyond the day's write budget is refused. A finished write is durable byte by byte, a finished read is in host memory; a media error completes MEDIA_ERROR. The hourly poll stores the device's life figures; after a day the budget is whole again. A journal write within SOFTWARE whose pages are below their limit begins and counts once on each page it touches; a page at its limit refuses it. 128 event records are copied to JOVF at a time. -/
def Obligations.StoreAndJournal : Prop :=
  (∀ (s : State) (t : Fc) (r : Ref) (d : Desc),
      s.fabric = true →
      heldDesc s r 0xB 0x64 = some d →
      due (advance s t) d = true →
      storeFirst (advance s t) r = true →
      1 ≤ (d.word 0x1C % 65536) →
      (d.word 0x1C % 65536) ≤ 256 →
      d.word 0x18 + (d.word 0x1C % 65536) ≤ partMib (d.classWord % 16) * 256 →
      3 ≤ (d.classWord % 16) →
      (d.classWord % 16) ≤ 6 →
      keyWithheld s (d.classWord % 16) = false →
      exec (.storeRead t r) s = .next (storeServe { (takeReq (advance s t) r) with sto := { s.sto with jobs := s.sto.jobs ++ [⟨r, (d.classWord % 16), d.word 0x18, (d.word 0x1C % 65536), false, d.quad 0x10, []⟩] } })) ∧
  (∀ (s : State) (t : Fc) (r : Ref) (d : Desc),
      s.fabric = true →
      heldDesc s r 0xB 0x64 = some d →
      due (advance s t) d = true →
      storeFirst (advance s t) r = true →
      1 ≤ (d.word 0x1C % 65536) →
      (d.word 0x1C % 65536) ≤ 256 →
      d.word 0x18 + (d.word 0x1C % 65536) ≤ partMib (d.classWord % 16) * 256 →
      ((d.classWord % 16) < 3 ∨ 6 < (d.classWord % 16)) →
      exec (.storeRead t r) s = .next (complete (takeReq (advance s t) r) r stRejectState 0x02A0)) ∧
  (∀ (s : State) (t : Fc) (r : Ref) (d : Desc),
      s.fabric = true →
      heldDesc s r 0xB 0x64 = some d →
      due (advance s t) d = true →
      storeFirst (advance s t) r = true →
      ((d.word 0x1C % 65536) = 0 ∨ 256 < (d.word 0x1C % 65536) ∨ partMib (d.classWord % 16) * 256 < d.word 0x18 + (d.word 0x1C % 65536)) →
      exec (.storeRead t r) s = .next (complete (takeReq (advance s t) r) r stRejectFormat 0x01A1)) ∧
  (∀ (s : State) (t : Fc) (r : Ref) (d : Desc) (l : List Nat),
      s.fabric = true →
      heldDesc s r 0xB 0x65 = some d →
      due (advance s t) d = true →
      storeFirst (advance s t) r = true →
      1 ≤ (d.word 0x1C % 65536) →
      (d.word 0x1C % 65536) ≤ 256 →
      d.word 0x18 + (d.word 0x1C % 65536) ≤ partMib (d.classWord % 16) * 256 →
      ((d.classWord % 16) = 5 ∨ (d.classWord % 16) = 6) →
      keyWithheld s (d.classWord % 16) = false →
      s.sto.dayStart.all (fun a => moduleTime (advance s t) < a + 86400 * 1000000000) = true →
      s.sto.dayBytes + (d.word 0x1C % 65536) * 4096 ≤ (rget s R.STO_WRITE_BUDGET_MIB_DAY * 1048576) →
      ∃ u, exec (.storeWrite t r l) s = .next u ∧ u.sto.jobs = s.sto.jobs ++ [⟨r, (d.classWord % 16), d.word 0x18, (d.word 0x1C % 65536), true, d.quad 0x10, l.take ((d.word 0x1C % 65536) * 4096)⟩] ∧ u.sto.dayStart = some (s.sto.dayStart.getD (moduleTime (advance s t))) ∧ u.sto.dayBytes = s.sto.dayBytes + (d.word 0x1C % 65536) * 4096 ∧
        u.sto.store = s.sto.store ∧ u.reqs = (takeReq (advance s t) r).reqs ∧ RegsOnly s u [R.STO_WRITE_BUDGET_USED_MIB.key 0 0] ∧ u = { advance s t with regs := u.regs, sto := u.sto, reqs := u.reqs }) ∧
  (∀ (s : State) (t : Fc) (r : Ref) (d : Desc) (l : List Nat) (a : Nat),
      s.fabric = true →
      heldDesc s r 0xB 0x65 = some d →
      due (advance s t) d = true →
      storeFirst (advance s t) r = true →
      1 ≤ (d.word 0x1C % 65536) →
      (d.word 0x1C % 65536) ≤ 256 →
      d.word 0x18 + (d.word 0x1C % 65536) ≤ partMib (d.classWord % 16) * 256 →
      ((d.classWord % 16) = 5 ∨ (d.classWord % 16) = 6) →
      keyWithheld s (d.classWord % 16) = false →
      s.sto.dayStart = some a →
      a + 86400 * 1000000000 ≤ moduleTime (advance s t) →
      (d.word 0x1C % 65536) * 4096 ≤ (rget s R.STO_WRITE_BUDGET_MIB_DAY * 1048576) →
      ∃ u, exec (.storeWrite t r l) s = .next u ∧ u.sto.jobs = s.sto.jobs ++ [⟨r, (d.classWord % 16), d.word 0x18, (d.word 0x1C % 65536), true, d.quad 0x10, l.take ((d.word 0x1C % 65536) * 4096)⟩] ∧ u.sto.dayStart = some (moduleTime (advance s t)) ∧ u.sto.dayBytes = (d.word 0x1C % 65536) * 4096 ∧
        u.sto.store = s.sto.store ∧ u.reqs = (takeReq (advance s t) r).reqs ∧ RegsOnly s u [R.STO_WRITE_BUDGET_USED_MIB.key 0 0] ∧ u = { advance s t with regs := u.regs, sto := u.sto, reqs := u.reqs }) ∧
  (∀ (s : State) (t : Fc) (r : Ref) (d : Desc) (l : List Nat),
      s.fabric = true →
      heldDesc s r 0xB 0x65 = some d →
      due (advance s t) d = true →
      storeFirst (advance s t) r = true →
      1 ≤ (d.word 0x1C % 65536) →
      (d.word 0x1C % 65536) ≤ 256 →
      d.word 0x18 + (d.word 0x1C % 65536) ≤ partMib (d.classWord % 16) * 256 →
      ((d.classWord % 16) = 5 ∨ (d.classWord % 16) = 6) →
      keyWithheld s (d.classWord % 16) = false →
      s.sto.dayStart.all (fun a => moduleTime (advance s t) < a + 86400 * 1000000000) = true →
      (rget s R.STO_WRITE_BUDGET_MIB_DAY * 1048576) < s.sto.dayBytes + (d.word 0x1C % 65536) * 4096 →
      exec (.storeWrite t r l) s = .next (complete (takeReq (advance s t) r) r stRejectBudget 0x03A0)) ∧
  (∀ (s : State) (t : Fc) (r : Ref) (d : Desc) (l : List Nat),
      s.fabric = true →
      heldDesc s r 0xB 0x65 = some d →
      due (advance s t) d = true →
      storeFirst (advance s t) r = true →
      1 ≤ (d.word 0x1C % 65536) →
      (d.word 0x1C % 65536) ≤ 256 →
      d.word 0x18 + (d.word 0x1C % 65536) ≤ partMib (d.classWord % 16) * 256 →
      (d.classWord % 16) = 6 →
      keyWithheld s 6 = true →
      exec (.storeWrite t r l) s = .next (complete (takeReq (advance s t) r) r stRejectState 0x02A3)) ∧
  (∀ (s : State) (t : Fc) (j : StoreJob) (l : List StoreJob) (n m : Nat) (x : List Nat),
      s.fabric = true →
      s.sto.jobs = j :: l →
      storeAlone (advance s t) j.ref = true →
      ∃ u, exec (.storeAccessDone t false n m x) s = .next u ∧ u.sto = { s.sto with jobs := l, serving := u.sto.serving } ∧ u.reqs = (complete s j.ref stMediaError (n % 256 + 256 * (m % 256))).reqs ∧ BlocksOnly s u [.sto, .hlm, .jrn] ∧ u = { advance s t with regs := u.regs, sto := u.sto, reqs := u.reqs, till := u.till, log := u.log, mem := u.mem, extMem := u.extMem }) ∧
  (∀ (s : State) (t : Fc) (j : StoreJob) (l : List StoreJob) (n m : Nat) (x : List Nat),
      s.fabric = true →
      s.sto.jobs = j :: l →
      storeAlone (advance s t) j.ref = true →
      j.write = true →
      ∃ u, exec (.storeAccessDone t true n m x) s = .next u ∧ (∀ k < j.data.length, tblGet? u.sto.store (2 ^ 40 * j.part + (4096 * j.block + k)) = some (BitVec.ofNat 8 (j.data.getD k 0))) ∧
        (∀ a, (∀ k < j.data.length, a ≠ 2 ^ 40 * j.part + (4096 * j.block + k)) → tblGet? u.sto.store a = tblGet? s.sto.store a) ∧ u.sto.jobs = l ∧
        u.reqs = (complete s j.ref stDone).reqs ∧ u = { advance s t with sto := u.sto, reqs := u.reqs, till := u.till }) ∧
  (∀ (s : State) (t : Fc) (j : StoreJob) (l : List StoreJob) (n m : Nat) (x : List Nat),
      s.fabric = true →
      s.sto.jobs = j :: l →
      storeAlone (advance s t) j.ref = true →
      j.write = false →
      j.count ≤ 256 →
      Memory.wf s.mem = true →
      Memory.wf s.extMem = true →
      ∃ u, exec (.storeAccessDone t true n m x) s = .next u ∧ (∀ k < 4096 * j.count, Memory.read (if refHost s j.ref then u.extMem else u.mem) ((j.addr + k) % 2 ^ 64) = (partByte s j.part (4096 * j.block + k)).getD (BitVec.ofNat 8 (x.getD k 0))) ∧
        u.sto = { s.sto with jobs := l, serving := u.sto.serving } ∧ u.reqs = (complete s j.ref stDone).reqs ∧ u = { advance s t with sto := u.sto, reqs := u.reqs, till := u.till, mem := u.mem, extMem := u.extMem }) ∧
  (∀ (s : State) (t : Fc) (a b e : Nat),
      s.fabric = true →
      s.sto.pollAt.all (fun a => a + 3600 * 400000000 ≤ max s.now t) = true →
      (e % 4 < 2 ∨ e % 4 = rget s R.STO_LIFE_PRE_EOL) →
      exec (.storeLifePoll t a b e) s = .next ((rset (rset (rset { advance s t with sto := { s.sto with pollAt := some (max s.now t) } } R.STO_LIFE_LIFE_A a) R.STO_LIFE_LIFE_B b) R.STO_LIFE_PRE_EOL e))) ∧
  (∀ (s : State) (t : Fc) (a b e : Nat),
      s.fabric = true →
      s.sto.pollAt.all (fun a => a + 3600 * 400000000 ≤ max s.now t) = true →
      2 ≤ e % 4 →
      e % 4 ≠ rget s R.STO_LIFE_PRE_EOL →
      exec (.storeLifePoll t a b e) s = .next (raiseEv (rset (rset (rset { advance s t with sto := { s.sto with pollAt := some (max s.now t) } } R.STO_LIFE_LIFE_A a) R.STO_LIFE_LIFE_B b) R.STO_LIFE_PRE_EOL e) evStoPreEol)) ∧
  (∀ (s : State) (t : Fc) (a : Nat),
      s.fabric = true →
      s.sto.dayStart = some a →
      a + 86400 * 1000000000 ≤ moduleTime (advance s t) →
      exec (.writeBudgetDayEnd t) s = .next (rset { advance s t with sto := { s.sto with dayStart := none, dayBytes := 0 } } R.STO_WRITE_BUDGET_USED_MIB 0)) ∧
  (∀ (s : State) (t : Fc) (r : Ref) (d : Desc),
      s.fabric = true →
      heldDesc s r 0xA 1 = some d →
      due (advance s t) d = true →
      writeFirst (advance s t) r = true →
      1 ≤ d.word 0x30 % 16 →
      d.word 0x30 % 16 ≤ 8 →
      d.classWord % 4 = 0 →
      d.classWord + (4 * (d.word 0x30 % 16)) ≤ 0x2000000 →
      (∀ p ∈ pagesOf d.classWord (4 * (d.word 0x30 % 16)), tblGetD s.sto.pages p 0 < pageLimit (advance s t)) →
      ∃ u, exec (.writeInline t r) s = .next u ∧ (∀ p ∈ pagesOf d.classWord (4 * (d.word 0x30 % 16)), tblGetD u.sto.pages p 0 = tblGetD s.sto.pages p 0 + 1) ∧ (∀ p, p ∉ pagesOf d.classWord (4 * (d.word 0x30 % 16)) → tblGetD u.sto.pages p 0 = tblGetD s.sto.pages p 0) ∧
        u.sto.jrnJobs = s.sto.jrnJobs ++ [⟨r, 0x2000000 + d.classWord, true, 0, ((imgBytes d.body 32).take (4 * (d.word 0x30 % 16))).take (4 * (d.word 0x30 % 16))⟩] ∧ u = { (takeReq (advance s t) r) with sto := { s.sto with pages := u.sto.pages, jrnJobs := u.sto.jrnJobs } }) ∧
  (∀ (s : State) (t : Fc) (r : Ref) (d : Desc) (x : List Nat),
      s.fabric = true →
      heldDesc s r 0xA 2 = some d →
      due (advance s t) d = true →
      writeFirst (advance s t) r = true →
      (d.word 0x18) % 4 = 0 →
      1 ≤ (d.word 0x18) →
      (d.word 0x18) ≤ 65536 →
      d.classWord % 4 = 0 →
      d.classWord + (d.word 0x18) ≤ 0x2000000 →
      (∀ p ∈ pagesOf d.classWord (d.word 0x18), tblGetD s.sto.pages p 0 < pageLimit (advance s t)) →
      ∃ u, exec (.jrnWrite t r x) s = .next u ∧ (∀ p ∈ pagesOf d.classWord (d.word 0x18), tblGetD u.sto.pages p 0 = tblGetD s.sto.pages p 0 + 1) ∧ (∀ p, p ∉ pagesOf d.classWord (d.word 0x18) → tblGetD u.sto.pages p 0 = tblGetD s.sto.pages p 0) ∧
        u.sto.jrnJobs = s.sto.jrnJobs ++ [⟨r, 0x2000000 + d.classWord, true, 0, x.take (d.word 0x18)⟩] ∧ u = { (takeReq (advance s t) r) with sto := { s.sto with pages := u.sto.pages, jrnJobs := u.sto.jrnJobs } }) ∧
  (∀ (s : State) (t : Fc) (r : Ref) (d : Desc) (x : List Nat),
      s.fabric = true →
      heldDesc s r 0xA 2 = some d →
      due (advance s t) d = true →
      writeFirst (advance s t) r = true →
      (d.word 0x18) % 4 = 0 →
      1 ≤ (d.word 0x18) →
      (d.word 0x18) ≤ 65536 →
      d.classWord % 4 = 0 →
      d.classWord + (d.word 0x18) ≤ 0x2000000 →
      pageLimit (advance s t) ≤ tblGetD s.sto.pages (d.classWord / 4096) 0 →
      exec (.jrnWrite t r x) s = .next (raiseEv (complete (takeReq (advance s t) r) r stRejectBudget 0x03B0) evJrnBudgetRefused)) ∧
  (∀ (s : State) (t : Fc) (r : Ref) (d : Desc),
      s.fabric = true →
      heldDesc s r 0xA 3 = some d →
      due (advance s t) d = true →
      (d.word 0x18) % 4 = 0 →
      1 ≤ (d.word 0x18) →
      (d.word 0x18) ≤ 65536 →
      d.classWord % 4 = 0 →
      d.classWord + (d.word 0x18) ≤ 0x4000000 →
      exec (.jrnRead t r) s = .next ({ (takeReq (advance s t) r) with sto := { s.sto with jrnJobs := s.sto.jrnJobs ++ [⟨r, d.classWord, false, d.quad 0x10, List.replicate (d.word 0x18) 0⟩] } })) ∧
  (∀ (s : State) (t : Fc) (r : Ref) (d : Desc),
      s.fabric = true →
      heldDesc s r 0xA 3 = some d →
      due (advance s t) d = true →
      0x4000000 < d.classWord + (d.word 0x18) →
      exec (.jrnRead t r) s = .next (complete (takeReq (advance s t) r) r stRejectFormat 0x01B0)) ∧
  (∀ (s : State) (t : Fc) (j : JrnJob) (l : List JrnJob),
      s.fabric = true →
      s.sto.jrnJobs = j :: l →
      j.write = true →
      0x2000000 ≤ j.off →
      j.off + j.data.length ≤ 0x4000000 →
      Memory.wf s.sto.soft = true →
      ∃ u, exec (.jrnAccessDone t true) s = .next u ∧ (∀ k < j.data.length, Memory.read u.sto.soft (j.off - 0x2000000 + k) = BitVec.ofNat 8 (j.data.getD k 0)) ∧ (∀ a, (a < j.off - 0x2000000 ∨ j.off - 0x2000000 + j.data.length ≤ a) → Memory.read u.sto.soft a = Memory.read s.sto.soft a) ∧
        u.reqs = (complete s j.ref stDone).reqs ∧ u = { advance s t with sto := { s.sto with jrnJobs := l, soft := u.sto.soft }, reqs := u.reqs, till := u.till }) ∧
  (∀ (s : State) (t : Fc) (j : JrnJob) (l : List JrnJob),
      s.fabric = true →
      s.sto.jrnJobs = j :: l →
      j.write = false →
      j.data.length ≤ 65536 →
      Memory.wf s.mem = true →
      Memory.wf s.extMem = true →
      ∃ u, exec (.jrnAccessDone t true) s = .next u ∧ (∀ k < j.data.length, Memory.read (if refHost s j.ref then u.extMem else u.mem) ((j.addr + k) % 2 ^ 64) = jrnByte (advance s t) (j.off + k)) ∧ u.reqs = (complete s j.ref stDone).reqs ∧
        u = { advance s t with sto := { s.sto with jrnJobs := l }, reqs := u.reqs, till := u.till, mem := u.mem, extMem := u.extMem }) ∧
  (∀ (s : State) (t : Fc) (j : JrnJob) (l : List JrnJob),
      s.fabric = true →
      s.sto.jrnJobs = j :: l →
      j.write = false →
      0x2000000 ≤ j.off →
      j.data.length ≤ 65536 →
      Memory.wf s.mem = true →
      Memory.wf s.extMem = true →
      ∃ u, exec (.jrnAccessDone t true) s = .next u ∧ (∀ k < j.data.length, Memory.read (if refHost s j.ref then u.extMem else u.mem) ((j.addr + k) % 2 ^ 64) = Memory.read s.sto.soft (j.off - 0x2000000 + k)) ∧ u.reqs = (complete s j.ref stDone).reqs ∧
        u = { advance s t with sto := { s.sto with jrnJobs := l }, reqs := u.reqs, till := u.till, mem := u.mem, extMem := u.extMem }) ∧
  (∀ (s : State) (t : Fc) (j : JrnJob) (l : List JrnJob),
      s.fabric = true →
      s.sto.jrnJobs = j :: l →
      ∃ u, exec (.jrnAccessDone t false) s = .next u ∧ u.sto = { s.sto with jrnJobs := l } ∧ u.reqs = (complete s j.ref stMediaError).reqs ∧ BlocksOnly s u [.hlm, .jrn] ∧ u = { advance s t with regs := u.regs, sto := u.sto, reqs := u.reqs, till := u.till, log := u.log, mem := u.mem, extMem := u.extMem }) ∧
  (∀ (s : State) (t : Fc),
      s.fabric = true →
      s.log.copied + 128 ≤ s.log.written →
      storeTurn (advance s t) ≠ some 0 →
      keyWithheld s 3 = false →
      ∃ u, exec (.jovfCopy t) s = .next u ∧ u.log.copied = s.log.copied + 128 ∧ u.log.losing = false ∧ u.log.events = s.log.events ∧ u = { advance s t with log := { s.log with copied := u.log.copied, jovf := u.log.jovf, losing := false } }) ∧
  (∀ (s : State) (t : Fc),
      s.fabric = true →
      s.log.written < s.log.copied + 128 →
      exec (.jovfCopy t) s = .next (advance s t))

/-- A port with a valid configuration is enabled with its frames forgotten; an invalid one gets the code of its first failing check. Disabling closes its frames. A frame start numbers the frame and takes the next free raw slot, or on CAM0 the next CAPTURE. A line of a frame with a slot, cut to the width, joins the port's receive buffer on its way to its place in the slot; one for which the buffer has no room marks the frame and is lost. A frame end closes the frame, which awaits the ISP if it was kept. A link that falls closes it too and raises CAM_LINK_DOWN. A full buffer marks the frame once. A current limit raises CAM_POWER_FAULT. Frame sync is sent once for each instant of its grid. A packet of another virtual channel or with a header that cannot be corrected is discarded and counted. -/
def Obligations.CameraPorts : Prop :=
  (∀ (s : State) (t : Fc) (p : Fin 4),
      s.fabric = true →
      camOn s p = false →
      camError s p = 0 →
      ∃ u, exec (.camEnable t p) s = .next u ∧ rget u R.CAM_CTRL_EN p = 1 ∧ rget u R.CAM_CTRL_ERR p = 0 ∧ getCam u p = { Cam.idle with live := (getCam s p).live, syncs := (getCam s p).syncs, overAt := (getCam s p).overAt } ∧
        RegsOnly s u [R.CAM_CTRL_EN.key p 0, R.CAM_CTRL_ERR.key p 0] ∧ u = { advance s t with regs := u.regs, vis := u.vis }) ∧
  (∀ (s : State) (t : Fc) (p : Fin 4),
      s.fabric = true →
      camOn s p = false →
      camError s p ≠ 0 →
      exec (.camEnable t p) s = .next (rset (advance s t) R.CAM_CTRL_ERR (camError s p) p)) ∧
  (∀ (s : State) (t : Fc) (p : Fin 4),
      s.fabric = true →
      camOn s p = false →
      rget s R.CAM_SIZE_WIDTH p < 64 →
      exec (.camEnable t p) s = .next (rset (advance s t) R.CAM_CTRL_ERR 1 p)) ∧
  (∀ (s : State) (t : Fc) (p : Fin 4),
      s.fabric = true →
      camOn s p = true →
      ∃ u, exec (.camDisable t p) s = .next u ∧ rget u R.CAM_CTRL_EN p = 0 ∧ (getCam u p).cur = none ∧ (getCam u p).ready = [] ∧ (getCam u p).buf = [] ∧ (∀ f, u.vis.isp ≠ some (p.val, f)) ∧ BlocksOnly s u [.cam, .isp] ∧ u = { advance s t with regs := u.regs, vis := u.vis, reqs := u.reqs, till := u.till }) ∧
  (∀ (s : State) (t : Fc) (p : Fin 4) (h : Fin 3) (csi k : Nat),
      s.fabric = true →
      p ≠ 0 →
      h ≠ 2 →
      camOn s p = true →
      rbit s R.CAM_CTRL_LINK_UP p = true →
      (getCam s p).cur = none →
      nextSlot s p = some k →
      ∃ u, exec (.camFs t p ⟨0, h, csi⟩) s = .next u ∧ (getCam u p).cur = some { CamFrame.start (advance s t) (getCam s p).next csi h with slot := some k, kept := true } ∧ (getCam u p).next = ((getCam s p).next + 1) % 2 ^ 32 ∧ rget u R.CAM_FRAME_FRAME_NO p = (getCam s p).next % 2 ^ 32 ∧
        (getCam u p).ready = (getCam s p).ready ∧ BlocksOnly s u [.cam, .isp] ∧ u = { advance s t with regs := u.regs, vis := u.vis }) ∧
  (∀ (s : State) (t : Fc) (p : Fin 4) (csi k : Nat) (f : CamFrame),
      s.fabric = true →
      p ≠ 0 →
      camOn s p = true →
      rbit s R.CAM_CTRL_LINK_UP p = true →
      (getCam s p).cur = some f →
      f.kept = true →
      nextSlot s p = some k →
      ∃ u, exec (.camFs t p ⟨0, 0, csi⟩) s = .next u ∧ (getCam u p).cur = some { CamFrame.start (advance s t) (getCam s p).next csi 0 with slot := some k, kept := true } ∧ (getCam u p).next = ((getCam s p).next + 1) % 2 ^ 32 ∧ rget u R.CAM_FRAME_FRAME_NO p = (getCam s p).next % 2 ^ 32 ∧
        (getCam u p).ready = (getCam s p).ready ++ [{ f with feTime := moduleTime (advance s t), feAt := max s.now t, noFe := true }] ∧ BlocksOnly s u [.cam, .isp] ∧ u = { advance s t with regs := u.regs, vis := u.vis }) ∧
  (∀ (s : State) (t : Fc) (p : Fin 4) (h : Fin 3) (csi : Nat),
      s.fabric = true →
      p ≠ 0 →
      h ≠ 2 →
      camOn s p = true →
      rbit s R.CAM_CTRL_LINK_UP p = true →
      (getCam s p).cur = none →
      nextSlot s p = none →
      (getCam s p).ready = [] →
      ∃ u, exec (.camFs t p ⟨0, h, csi⟩) s = .next u ∧ (getCam u p).cur = some (CamFrame.start (advance s t) (getCam s p).next csi h) ∧ (getCam u p).next = ((getCam s p).next + 1) % 2 ^ 32 ∧ rget u R.CAM_FRAME_FRAME_NO p = (getCam s p).next % 2 ^ 32 ∧ rget u R.CAM_DROPS_NO_SLOT p = satTo R.CAM_DROPS_NO_SLOT.width (rget s R.CAM_DROPS_NO_SLOT p + 1) ∧ BlocksOnly s u [.cam, .isp] ∧ u = { advance s t with regs := u.regs, vis := u.vis }) ∧
  (∀ (s : State) (t : Fc) (h : Fin 3) (csi : Nat) (r : Ref) (l : List Ref),
      s.fabric = true →
      h ≠ 2 →
      camOn s 0 = true →
      rbit s R.CAM_CTRL_LINK_UP 0 = true →
      (getCam s 0).cur = none →
      (getCam s 0).jobs = r :: l →
      ∃ u, exec (.camFs t 0 ⟨0, h, csi⟩) s = .next u ∧ (getCam u 0).cur.map (·.ref) = some (some r) ∧ (getCam u 0).jobs = l ∧ rget u R.CAM_FRAME_FRAME_NO 0 = (getCam s 0).next % 2 ^ 32 ∧ rget u R.ISP_STAT_CUR_PORT = 0 ∧ rget u R.ISP_STAT_BUSY = 1 ∧ BlocksOnly s u [.cam, .isp] ∧ u = { advance s t with regs := u.regs, vis := u.vis, reqs := u.reqs, till := u.till }) ∧
  (∀ (s : State) (t : Fc) (h : Fin 3) (csi : Nat),
      s.fabric = true →
      h ≠ 2 →
      camOn s 0 = true →
      rbit s R.CAM_CTRL_LINK_UP 0 = true →
      (getCam s 0).cur = none →
      (getCam s 0).jobs = [] →
      ∃ u, exec (.camFs t 0 ⟨0, h, csi⟩) s = .next u ∧ (getCam u 0).cur = some (CamFrame.start (advance s t) (getCam s 0).next csi h) ∧ rget u R.CAM_LOSS_NO_JOB 0 = satTo R.CAM_LOSS_NO_JOB.width (rget s R.CAM_LOSS_NO_JOB 0 + 1) ∧ BlocksOnly s u [.cam] ∧ u = { advance s t with regs := u.regs, vis := u.vis }) ∧
  (∀ (s : State) (t : Fc) (p : Fin 4) (vc : Fin 16) (h : Fin 3) (csi : Nat),
      s.fabric = true →
      h ≠ 2 →
      camOn s p = true →
      rbit s R.CAM_CTRL_LINK_UP p = true →
      vc ≠ 0 →
      ∃ u, exec (.camFs t p ⟨vc, h, csi⟩) s = .next u ∧ rget u R.CAM_PKT_IGNORED p = satTo R.CAM_PKT_IGNORED.width (rget s R.CAM_PKT_IGNORED p + 1) ∧ RegsOnly s u [R.CAM_PKT_IGNORED.key p 0] ∧ u = { advance s t with regs := u.regs, vis := u.vis }) ∧
  (∀ (s : State) (t : Fc) (p : Fin 4) (dt : Fin 64) (h : Fin 3) (c : Bool) (px : List Nat) (f g : CamFrame) (k : Nat),
      s.fabric = true →
      h ≠ 2 →
      camOn s p = true →
      rbit s R.CAM_CTRL_LINK_UP p = true →
      rawType dt = true →
      (getCam (ispNow (advance s t)) p).cur = some f →
      (g = (if h = 0 then f else { f with hdrErrs := min (f.hdrErrs + 1) 65535 })) →
      f.received < camHeight s p →
      f.ovf = false →
      f.slot = some k →
      (f.kept = false ∨ (rawLine (rawBytes s p) (px.take (camWidth s p))).length ≤ bufSize - bufLevel (ispNow (advance s t)) p) →
      ∃ u, exec (.camLine t p 0 dt h c px) s = .next u ∧ (getCam u p).cur = some { g with
          received := f.received + 1, rows := if f.kept then px.take (camWidth s p) :: f.rows else f.rows,
          lineErrs := if px.length = camWidth s p then f.lineErrs else min (f.lineErrs + 1) 65535, crcLines := if c then f.crcLines else min (f.crcLines + 1) 65535 } ∧
        (getCam u p).buf = bufPut (slotAddr s p k + f.received * camWidth s p * rawBytes s p) (rawLine (rawBytes s p) (px.take (camWidth s p))) (getCam s p).buf ∧ u = { advance s t with vis := u.vis }) ∧
  (∀ (s : State) (t : Fc) (p : Fin 4) (dt : Fin 64) (h : Fin 3) (c : Bool) (px : List Nat) (f g : CamFrame),
      s.fabric = true →
      h ≠ 2 →
      camOn s p = true →
      rbit s R.CAM_CTRL_LINK_UP p = true →
      rawType dt = true →
      (getCam (ispNow (advance s t)) p).cur = some f →
      (g = (if h = 0 then f else { f with hdrErrs := min (f.hdrErrs + 1) 65535 })) →
      f.received < camHeight s p →
      f.ovf = false →
      f.slot = none →
      (f.kept = false ∨ (rawLine (rawBytes s p) (px.take (camWidth s p))).length ≤ bufSize - bufLevel (ispNow (advance s t)) p) →
      ∃ u, exec (.camLine t p 0 dt h c px) s = .next u ∧ (getCam u p).cur = some { g with
          received := f.received + 1, rows := if f.kept then px.take (camWidth s p) :: f.rows else f.rows,
          lineErrs := if px.length = camWidth s p then f.lineErrs else min (f.lineErrs + 1) 65535, crcLines := if c then f.crcLines else min (f.crcLines + 1) 65535 } ∧ (getCam u p).buf = (getCam s p).buf ∧ u = { advance s t with vis := u.vis }) ∧
  (∀ (s : State) (t : Fc) (p : Fin 4) (dt : Fin 64) (h : Fin 3) (c : Bool) (px : List Nat) (f g : CamFrame),
      s.fabric = true →
      h ≠ 2 →
      camOn s p = true →
      rbit s R.CAM_CTRL_LINK_UP p = true →
      rawType dt = true →
      (getCam (ispNow (advance s t)) p).cur = some f →
      (g = (if h = 0 then f else { f with hdrErrs := min (f.hdrErrs + 1) 65535 })) →
      f.received < camHeight s p →
      f.ovf = false →
      f.kept = true →
      bufSize - bufLevel (ispNow (advance s t)) p < (rawLine (rawBytes s p) (px.take (camWidth s p))).length →
      ∃ u, exec (.camLine t p 0 dt h c px) s = .next u ∧ (getCam u p).cur = some { g with ovf := true, received := f.received + 1, lost := f.lost + 1, crcLines := if c then f.crcLines else min (f.crcLines + 1) 65535 } ∧ rget u R.CAM_LOSS_OVERFLOWS p = satTo R.CAM_LOSS_OVERFLOWS.width (rget s R.CAM_LOSS_OVERFLOWS p + 1) ∧ BlocksOnly s u [.cam, .hlm, .jrn] ∧ u = { advance s t with regs := u.regs, vis := u.vis, log := u.log, mem := u.mem, extMem := u.extMem }) ∧
  (∀ (s : State) (t : Fc) (p : Fin 4) (dt : Fin 64) (h : Fin 3) (c : Bool) (px : List Nat) (f g : CamFrame),
      s.fabric = true →
      h ≠ 2 →
      camOn s p = true →
      rbit s R.CAM_CTRL_LINK_UP p = true →
      rawType dt = true →
      (getCam (ispNow (advance s t)) p).cur = some f →
      (g = (if h = 0 then f else { f with hdrErrs := min (f.hdrErrs + 1) 65535 })) →
      f.received < camHeight s p →
      f.ovf = true →
      ∃ u, exec (.camLine t p 0 dt h c px) s = .next u ∧ (getCam u p).cur = some { g with received := f.received + 1, lost := f.lost + 1, crcLines := if c then f.crcLines else min (f.crcLines + 1) 65535 } ∧ u = { advance s t with vis := u.vis }) ∧
  (∀ (s : State) (t : Fc) (p : Fin 4) (dt : Fin 64) (h : Fin 3) (c : Bool) (px : List Nat) (f g : CamFrame),
      s.fabric = true →
      h ≠ 2 →
      camOn s p = true →
      rbit s R.CAM_CTRL_LINK_UP p = true →
      rawType dt = true →
      (getCam (ispNow (advance s t)) p).cur = some f →
      (g = (if h = 0 then f else { f with hdrErrs := min (f.hdrErrs + 1) 65535 })) →
      camHeight s p ≤ f.received →
      ∃ u, exec (.camLine t p 0 dt h c px) s = .next u ∧ (getCam u p).cur = some { g with long := true } ∧ u = { advance s t with vis := u.vis }) ∧
  (∀ (s : State) (t : Fc) (p : Fin 4) (vc : Fin 16) (dt : Fin 64) (c : Bool) (px : List Nat),
      s.fabric = true →
      camOn s p = true →
      rbit s R.CAM_CTRL_LINK_UP p = true →
      (getCam s p).cur = none →
      ∃ u, exec (.camLine t p vc dt 2 c px) s = .next u ∧ rget u R.CAM_PKT_HDR_ERRS p = satTo R.CAM_PKT_HDR_ERRS.width (rget s R.CAM_PKT_HDR_ERRS p + 1) ∧ getCam u p = getCam (ispNow (advance s t)) p ∧ RegsOnly s u [R.CAM_PKT_HDR_ERRS.key p 0] ∧ u = { advance s t with regs := u.regs, vis := u.vis }) ∧
  (∀ (s : State) (t : Fc) (p : Fin 4) (h : Fin 3) (f : CamFrame),
      s.fabric = true →
      h ≠ 2 →
      camOn s p = true →
      rbit s R.CAM_CTRL_LINK_UP p = true →
      (getCam (ispNow (advance s t)) p).cur = some f →
      ∃ u, exec (.camFe t ⟨p, 0, h⟩) s = .next u ∧ (getCam u p).cur = none ∧ (getCam u p).feSeen = some f.no ∧ (getCam u p).jobs = (getCam s p).jobs ∧ (getCam u p).ready = (if f.kept then (getCam (ispNow (advance s t)) p).ready ++
          [{ f with hdrErrs := if h = 0 then f.hdrErrs else min (f.hdrErrs + 1) 65535, feTime := moduleTime (advance s t), feAt := max s.now t }] else (getCam (ispNow (advance s t)) p).ready) ∧ BlocksOnly s u [.isp] ∧ u = { advance s t with regs := u.regs, vis := u.vis }) ∧
  (∀ (s : State) (t : Fc) (p : Fin 4),
      s.fabric = true →
      rbit s R.CAM_CTRL_LINK_UP p = true →
      ∃ u, exec (.camLinkLost t p) s = .next u ∧ rget u R.CAM_CTRL_LINK_UP p = 0 ∧ rget u R.CAM_CTRL_GEAR p = 0 ∧ (getCam u p).cur = none ∧ rget u R.CAM_CTRL_EN p = rget s R.CAM_CTRL_EN p ∧ BlocksOnly s u [.cam, .isp, .hlm, .jrn] ∧ u = { advance s t with regs := u.regs, vis := u.vis, log := u.log, mem := u.mem, extMem := u.extMem }) ∧
  (∀ (s : State) (t : Fc) (p : Fin 4),
      s.fabric = true →
      exec (.camPowerFault t p false) s = .next (rset (advance s t) R.CAM_CTRL_PWR_FAULT 0 p)) ∧
  (∀ (s : State) (t : Fc) (p : Fin 4) (g : Fin 4),
      s.fabric = true →
      exec (.camLinkUp t p g) s = .next (rset (rset (advance s t) R.CAM_CTRL_LINK_UP 1 p) R.CAM_CTRL_GEAR (clampNat 1 3 g) p)) ∧
  (∀ (s : State) (t : Fc) (p : Fin 4) (f : CamFrame),
      s.fabric = true →
      (getCam (ispNow (advance s t)) p).cur = some f →
      f.ovf = false →
      f.kept = true →
      bufSize < bufLevel (ispNow (advance s t)) p + camWidth s p * rawBytes s p →
      ∃ u, exec (.camBufferFull t p) s = .next u ∧ (getCam u p).cur = some { f with ovf := true } ∧ rget u R.CAM_LOSS_OVERFLOWS p = satTo R.CAM_LOSS_OVERFLOWS.width (rget s R.CAM_LOSS_OVERFLOWS p + 1) ∧ BlocksOnly s u [.cam, .hlm, .jrn] ∧ u = { advance s t with regs := u.regs, vis := u.vis, log := u.log, mem := u.mem, extMem := u.extMem }) ∧
  (∀ (s : State) (t : Fc) (p : Fin 4),
      s.fabric = true →
      rbit s R.CAM_CTRL_PWR_EN p = true →
      rbit s R.CAM_CTRL_PWR_FAULT p = false →
      exec (.camPowerFault t p true) s = .next (raiseEv (rset (advance s t) R.CAM_CTRL_PWR_FAULT 1 p) evCamPowerFault p)) ∧
  (∀ (s : State) (t : Fc) (p : Fin 4),
      s.fabric = true →
      rbit s R.CAM_CTRL_FSYNC_EN p = true →
      ((moduleTime (advance s t) + rval s R.CAM_FSYNC_PERIOD_US p * 1000 - rget s R.CAM_FSYNC_PHASE_PHASE_US p * 1000 % (rval s R.CAM_FSYNC_PERIOD_US p * 1000)) % (rval s R.CAM_FSYNC_PERIOD_US p * 1000)) ≤ 1000 →
      ((moduleTime (advance s t) + rval s R.CAM_FSYNC_PERIOD_US p * 1000 - rget s R.CAM_FSYNC_PHASE_PHASE_US p * 1000 % (rval s R.CAM_FSYNC_PERIOD_US p * 1000)) % (rval s R.CAM_FSYNC_PERIOD_US p * 1000)) ≤ moduleTime (advance s t) →
      (moduleTime (advance s t) - ((moduleTime (advance s t) + rval s R.CAM_FSYNC_PERIOD_US p * 1000 - rget s R.CAM_FSYNC_PHASE_PHASE_US p * 1000 % (rval s R.CAM_FSYNC_PERIOD_US p * 1000)) % (rval s R.CAM_FSYNC_PERIOD_US p * 1000))) ∉ (getCam s p).syncs →
      ∃ u, exec (.fsyncTrigger t p) s = .next u ∧ (getCam u p).syncs = (moduleTime (advance s t) - ((moduleTime (advance s t) + rval s R.CAM_FSYNC_PERIOD_US p * 1000 - rget s R.CAM_FSYNC_PHASE_PHASE_US p * 1000 % (rval s R.CAM_FSYNC_PERIOD_US p * 1000)) % (rval s R.CAM_FSYNC_PERIOD_US p * 1000))) :: (getCam s p).syncs ∧ (getCam u p).cur = (getCam s p).cur ∧ u = { advance s t with vis := u.vis })

/-- A camera job of the external host or for a disabled port is refused. A CAPTURE whose format and length fit waits for a frame; the ISP takes the oldest one with the earliest READY frame, and its completion gives the frame's flags and number. A SENSOR_WRITE of 1 to 8 entries waits for its frame end and completes with its lateness, or with 0x02C3 where the sensor did not acknowledge. A valid parameter set waits for its frame, superseding one of the same frame. A RUN with a valid header starts or queues; its end writes only its output tensor and counts. -/
def Obligations.VisionJobs : Prop :=
  (∀ (s : State) (t : Fc) (r : Ref) (d : Desc),
      s.fabric = true →
      heldDesc s r 4 1 = some d →
      due (advance s t) d = true →
      captureFirst (advance s t) r = true →
      refHost s r = false →
      camOn s (d.classWord % 4) = true →
      (d.word 0x1C % 8) < 5 →
      (((d.word 0x1C % 8) ≠ 2 ∧ (d.word 0x1C % 8) ≠ 3) ∨ (mosaic s (d.classWord % 4) ≠ 2 ∧ mosaic s (d.classWord % 4) ≠ 5)) →
      outLength s (d.classWord % 4) (d.word 0x1C % 8) ≤ d.word 0x18 →
      ∃ u, exec (.capture t r) s = .next u ∧ (∀ x, x ∈ (getCam u (d.classWord % 4)).jobs ↔ x = r ∨ x ∈ (getCam s (d.classWord % 4)).jobs) ∧ (getCam u (d.classWord % 4)).cur = (getCam s (d.classWord % 4)).cur ∧ u.reqs = (takeReq (advance s t) r).reqs ∧ u = { advance s t with vis := u.vis, reqs := u.reqs }) ∧
  (∀ (s : State) (t : Fc) (r : Ref) (d : Desc),
      s.fabric = true →
      heldDesc s r 4 1 = some d →
      due (advance s t) d = true →
      captureFirst (advance s t) r = true →
      refHost s r = false →
      camOn s (d.classWord % 4) = true →
      (d.word 0x1C % 8) < 5 →
      (((d.word 0x1C % 8) ≠ 2 ∧ (d.word 0x1C % 8) ≠ 3) ∨ (mosaic s (d.classWord % 4) ≠ 2 ∧ mosaic s (d.classWord % 4) ≠ 5)) →
      d.word 0x18 < outLength s (d.classWord % 4) (d.word 0x1C % 8) →
      exec (.capture t r) s = .next (complete (takeReq (advance s t) r) r stRejectFormat 0x01C2)) ∧
  (∀ (s : State) (t : Fc) (r : Ref) (d : Desc),
      s.fabric = true →
      heldDesc s r 4 1 = some d →
      due (advance s t) d = true →
      captureFirst (advance s t) r = true →
      refHost s r = true →
      exec (.capture t r) s = .next (complete (takeReq (advance s t) r) r stRejectState 0x02C0)) ∧
  (∀ (s : State) (t : Fc) (r : Ref) (d : Desc),
      s.fabric = true →
      heldDesc s r 4 1 = some d →
      due (advance s t) d = true →
      captureFirst (advance s t) r = true →
      refHost s r = false →
      camOn s (d.classWord % 4) = false →
      exec (.capture t r) s = .next (complete (takeReq (advance s t) r) r stRejectState 0x02C1)) ∧
  (∀ (s : State) (t : Fc) (r : Ref) (d : Desc),
      s.fabric = true →
      heldDesc s r 4 2 = some d →
      due (advance s t) d = true →
      refHost s r = false →
      camOn s (d.classWord % 4) = true →
      1 ≤ (d.word 0x14 / 256 % 16) →
      (d.word 0x14 / 256 % 16) ≤ 8 →
      ∃ u, exec (.sensorWrite t r) s = .next u ∧ (∃ j, (getCam u (d.classWord % 4)).writes = (getCam s (d.classWord % 4)).writes ++ [j] ∧ j.ref = r ∧ j.apply = d.word 0x10 ∧ j.target = (d.word 0x10 : Int) - rval s R.CAM_FORMAT_SENSOR_DELAY (d.classWord % 4) - 1 ∧ j.entries = ((List.range (d.word 0x14 / 256 % 16)).map fun e => d.word (0x18 + 4 * e)) ∧ j.eff = none) ∧
        u.reqs = (takeReq (advance s t) r).reqs ∧ u = { advance s t with vis := u.vis, reqs := u.reqs }) ∧
  (∀ (s : State) (t : Fc) (r : Ref) (d : Desc),
      s.fabric = true →
      heldDesc s r 4 2 = some d →
      due (advance s t) d = true →
      refHost s r = false →
      camOn s (d.classWord % 4) = true →
      ((d.word 0x14 / 256 % 16) = 0 ∨ 8 < (d.word 0x14 / 256 % 16)) →
      exec (.sensorWrite t r) s = .next (complete (takeReq (advance s t) r) r stRejectFormat 0x01C4)) ∧
  (∀ (s : State) (t : Fc) (p : Fin 4) (n : Nat) (j : SensorJob),
      s.fabric = true →
      firstBurst s p = some j →
      j.entries.length ≤ n →
      ∃ u, exec (.sensorBurstDone t p n) s = .next u ∧ u.reqs = (complete s j.ref stDone (min (j.eff.getD 0 - j.apply) 255)).reqs ∧ (getCam u p).burst.map (·.1) = some j.addr ∧ (∀ x ∈ (getCam u p).writes, x.ref ≠ j.ref) ∧ u = { advance s t with vis := u.vis, reqs := u.reqs, till := u.till }) ∧
  (∀ (s : State) (t : Fc) (p : Fin 4) (n : Nat) (j : SensorJob),
      s.fabric = true →
      firstBurst s p = some j →
      n < j.entries.length →
      ∃ u, exec (.sensorBurstDone t p n) s = .next u ∧ u.reqs = (complete s j.ref stRejectState 0x02C3).reqs ∧ (∀ x ∈ (getCam u p).writes, x.ref ≠ j.ref) ∧ u = { advance s t with vis := u.vis, reqs := u.reqs, till := u.till }) ∧
  (∀ (s : State) (t : Fc) (r : Ref) (d : Desc) (img : List Nat),
      s.fabric = true →
      heldDesc s r 4 3 = some d →
      due (advance s t) d = true →
      refHost s r = false →
      camOn s (d.classWord % 4) = true →
      paramsOk img = true →
      (getCam s (d.classWord % 4)).pend.length < 4 →
      (∀ x ∈ (getCam s (d.classWord % 4)).pend, x.apply ≠ d.word 0x18) →
      ∃ u, exec (.ispParams t r img) s = .next u ∧ (getCam u (d.classWord % 4)).pend = (getCam s (d.classWord % 4)).pend ++ [⟨r, d.word 0x18, img.take 256⟩] ∧ (getCam u (d.classWord % 4)).live = (getCam s (d.classWord % 4)).live ∧ u.reqs = (takeReq (advance s t) r).reqs ∧ u = { advance s t with vis := u.vis, reqs := u.reqs }) ∧
  (∀ (s : State) (t : Fc) (r : Ref) (d : Desc) (img : List Nat),
      s.fabric = true →
      heldDesc s r 4 3 = some d →
      due (advance s t) d = true →
      refHost s r = false →
      camOn s (d.classWord % 4) = true →
      paramsOk img = true →
      4 ≤ (getCam s (d.classWord % 4)).pend.length →
      (∀ x ∈ (getCam s (d.classWord % 4)).pend, x.apply ≠ d.word 0x18) →
      exec (.ispParams t r img) s = .next (complete (takeReq (advance s t) r) r stRejectBudget 0x03C0)) ∧
  (∀ (s : State) (t : Fc) (r : Ref) (d : Desc) (img : List Nat),
      s.fabric = true →
      heldDesc s r 4 3 = some d →
      due (advance s t) d = true →
      refHost s r = false →
      camOn s (d.classWord % 4) = true →
      paramsOk img = false →
      exec (.ispParams t r img) s = .next (complete (takeReq (advance s t) r) r stRejectFormat 0x01C1)) ∧
  (∀ (s : State) (t : Fc) (p : Fin 4) (f : CamFrame) (r : Ref) (l : List Ref),
      s.fabric = true →
      s.vis.isp = none →
      (ispNow (advance s t)).vis.slot = none →
      ispNext (feNow (ispNow (advance s t))) = some (p.val, f) →
      (getCam (feNow (ispNow (advance s t))) p).jobs = r :: l →
      ∃ u, exec (.ispFrameStart t) s = .next u ∧ u.vis.isp = some (p.val, { f with ref := some r, params := (getCam (paramsStart (feNow (ispNow (advance s t))) p f.no) p).live.map (·.1) }) ∧ (getCam u p).jobs = l ∧ (getCam u p).ready = (getCam (feNow (ispNow (advance s t))) p).ready.drop 1 ∧ rget u R.ISP_STAT_CUR_PORT = p ∧ rget u R.ISP_STAT_BUSY = 1 ∧ BlocksOnly s u [.isp] ∧ u = { advance s t with regs := u.regs, vis := u.vis, reqs := u.reqs, till := u.till }) ∧
  (∀ (s : State) (t : Fc) (p : Fin 4) (f : CamFrame) (r : Ref) (d : Desc) (out : List (Nat × Nat × List Nat)) (zs hs : List Nat) (n : List (Nat × List Nat)),
      s.fabric = true →
      p ≠ 0 →
      (ispNow (advance s t)).vis.isp = some (p.val, f) →
      f.ref = some r →
      reqDesc s r = some d →
      frameThrough f = true →
      ∃ u, exec (.ispFrameDone t p false out zs hs n) s = .next u ∧ u.vis.isp = none ∧ u.reqs = (complete s r stDone (frameFlags (camHeight s p) f + 256 * (f.no % 256))).reqs ∧ u.extMem = s.extMem ∧ BlocksOnly s u [.isp] ∧ u = { advance s t with regs := u.regs, vis := u.vis, mem := u.mem, reqs := u.reqs, till := u.till }) ∧
  (∀ (s : State) (t : Fc) (p : Fin 4) (f : CamFrame) (r : Ref) (d : Desc) (out : List (Nat × Nat × List Nat)) (zs hs : List Nat) (n : List (Nat × List Nat)),
      s.fabric = true →
      p ≠ 0 →
      (ispNow (advance s t)).vis.isp = some (p.val, f) →
      f.ref = some r →
      reqDesc s r = some d →
      ∃ u, exec (.ispFrameDone t p true out zs hs n) s = .next u ∧ u.vis.isp = none ∧ u.reqs = (complete s r stEccFatal).reqs ∧ SameMemory s u ∧ BlocksOnly s u [.isp] ∧ u = { advance s t with regs := u.regs, vis := u.vis, reqs := u.reqs, till := u.till }) ∧
  (∀ (s : State) (t : Fc) (f : CamFrame) (l : List CamFrame) (r : Ref) (d : Desc) (out : List (Nat × Nat × List Nat)) (zs hs : List Nat) (c : Bool) (n : List (Nat × List Nat)),
      s.fabric = true →
      (getCam (ispNow (advance s t)) 0).ready = f :: l →
      frameThrough f = true →
      f.ref = some r →
      reqDesc s r = some d →
      ∃ u, exec (.ispFrameDone t 0 c out zs hs n) s = .next u ∧ (getCam u 0).ready = l ∧ u.reqs = (complete s r stDone (frameFlags (camHeight s 0) f + 256 * (f.no % 256))).reqs ∧ u.extMem = s.extMem ∧ BlocksOnly s u [.isp] ∧ u = { advance s t with regs := u.regs, vis := u.vis, mem := u.mem, reqs := u.reqs, till := u.till }) ∧
  (∀ (s : State) (t : Fc) (r : Ref) (d : Desc) (h b : List Nat),
      s.fabric = true →
      heldDesc s r 5 1 = some d →
      due (advance s t) d = true →
      refHost s r = false →
      netHeaderOk (h ++ b) = true →
      d.word 0x28 = imgWord (h ++ b) 0x18 →
      d.word 0x2C = imgWord (h ++ b) 0x1C →
      s.vis.run = none →
      s.vis.queue = [] →
      ∃ u, exec (.vxaRun t r h b) s = .next u ∧ u.vis.run.map (fun j => (j.ref, j.outAddr, j.outLen)) = some (r, d.quad 0x20, d.word 0x2C) ∧ u.vis.queue = [] ∧ u.vis.runAt = max s.now t ∧ rget u R.VXA_STAT_BUSY = 1 ∧ u.reqs = (takeReq (advance s t) r).reqs ∧ BlocksOnly s u [.vxa] ∧ u = { advance s t with regs := u.regs, vis := u.vis, reqs := u.reqs }) ∧
  (∀ (s : State) (t : Fc) (r : Ref) (d : Desc) (h b : List Nat) (j : VxaJob),
      s.fabric = true →
      heldDesc s r 5 1 = some d →
      due (advance s t) d = true →
      refHost s r = false →
      netHeaderOk (h ++ b) = true →
      d.word 0x28 = imgWord (h ++ b) 0x18 →
      d.word 0x2C = imgWord (h ++ b) 0x1C →
      s.vis.run = some j →
      ∃ u, exec (.vxaRun t r h b) s = .next u ∧ u.vis.run = some j ∧ u.vis.queue.length = s.vis.queue.length + 1 ∧ rget u R.VXA_STAT_BUSY = 1 ∧ u.reqs = (takeReq (advance s t) r).reqs ∧ BlocksOnly s u [.vxa] ∧ u = { advance s t with regs := u.regs, vis := u.vis, reqs := u.reqs }) ∧
  (∀ (s : State) (t : Fc) (r : Ref) (d : Desc) (h b : List Nat),
      s.fabric = true →
      heldDesc s r 5 1 = some d →
      due (advance s t) d = true →
      refHost s r = false →
      netHeaderOk (h ++ b) = false →
      exec (.vxaRun t r h b) s = .next (complete (takeReq (advance s t) r) r stRejectFormat 0x01C8)) ∧
  (∀ (s : State) (t : Fc) (j : VxaJob) (out : List Nat),
      s.fabric = true →
      s.vis.run = some j →
      exec (.vxaJobDone t false out) s = .next (vxaStart (complete (rinc (hostWrite { advance s t with vis := { s.vis with run := none } } false j.outAddr ((out.take j.outLen).map (BitVec.ofNat 8))) R.VXA_COUNTS_JOBS)
        j.ref stDone (min ((max s.now t - s.vis.runAt) / 400000) 65535)))) ∧
  (∀ (s : State) (t : Fc) (j : VxaJob) (out : List Nat),
      s.fabric = true →
      s.vis.run = some j →
      s.vis.queue = [] →
      ∃ u, exec (.vxaJobDone t false out) s = .next u ∧ u.vis.run = none ∧ rget u R.VXA_STAT_BUSY = 0 ∧ rget u R.VXA_COUNTS_JOBS = satTo R.VXA_COUNTS_JOBS.width (rget s R.VXA_COUNTS_JOBS + 1) ∧ u.reqs = (complete s j.ref stDone (min ((max s.now t - s.vis.runAt) / 400000) 65535)).reqs ∧
        u.mem = Memory.writeList s.mem j.outAddr ((out.take j.outLen).map (BitVec.ofNat 8)) ∧ (∀ a, (∀ k < j.outLen, a ≠ (j.outAddr + k) % 2 ^ 64) → Memory.read u.mem a = Memory.read s.mem a) ∧ BlocksOnly s u [.vxa] ∧ u = { advance s t with regs := u.regs, vis := u.vis, mem := u.mem, reqs := u.reqs, till := u.till }) ∧
  (∀ (s : State) (t : Fc) (j : VxaJob) (out : List Nat),
      s.fabric = true →
      s.vis.run = some j →
      s.vis.queue = [] →
      ∃ u, exec (.vxaJobDone t true out) s = .next u ∧ u.vis.run = none ∧ u.vis.resident = none ∧ rget u R.VXA_COUNTS_ECC_FATAL = satTo R.VXA_COUNTS_ECC_FATAL.width (rget s R.VXA_COUNTS_ECC_FATAL + 1) ∧ u.reqs = (complete s j.ref stEccFatal).reqs ∧ BlocksOnly s u [.vxa, .hlm, .jrn] ∧ u = { advance s t with regs := u.regs, vis := u.vis, reqs := u.reqs, till := u.till, log := u.log, mem := u.mem, extMem := u.extMem })

/-- ETH_TX on a port whose link is up joins its transmit queue; with the link down it completes REJECT_STATE with DETAIL 0x02D8, of a wrong length REJECT_FORMAT with 0x01D8. A queued frame that leaves completes DONE, in turn with those of the fleet engine. A frame for this port with a good FCS is written to the receive queue as an entry of 2,048 bytes with its receive time; one with a bad FCS counts in FCS_ERRS alone. A link that goes down clears LINK_UP, completes what is queued and raises ETH_LINK_DOWN; a port with EN 1 comes up with ASLEEP 0. A gPTP message decides the grandmaster by the vectors heard, sets GM and OFFSET of every port by that choice, raises ETH_GM_CHANGE on a change, and never adjusts module time. A sleep request is remembered until its acknowledgement takes the link down with ASLEEP 1; a wake-up clears ASLEEP. -/
def Obligations.EthernetPorts : Prop :=
  (∀ (s : State) (t : Fc) (r : Ref) (d : Desc) (data : List Nat),
      s.fabric = true →
      heldDesc s r 0xB 0x70 = some d →
      due (advance s t) d = true →
      60 ≤ d.word 0x18 % 65536 →
      d.word 0x18 % 65536 ≤ 1518 →
      ethUp s (d.classWord % 8) = true →
      exec (.ethTx t r data) s = .next (modEth (takeReq (advance s t) r) (d.classWord % 8) fun e => { e with queue := e.queue ++
          [⟨r, if bitOf (d.word 0x18) 16 then some (d.quad 0x20) else none, data.take (d.word 0x18 % 65536)⟩] })) ∧
  (∀ (s : State) (t : Fc) (r : Ref) (d : Desc) (data : List Nat),
      s.fabric = true →
      heldDesc s r 0xB 0x70 = some d →
      due (advance s t) d = true →
      60 ≤ d.word 0x18 % 65536 →
      d.word 0x18 % 65536 ≤ 1518 →
      ethUp s (d.classWord % 8) = false →
      exec (.ethTx t r data) s = .next (complete (takeReq (advance s t) r) r stRejectState 0x02D8)) ∧
  (∀ (s : State) (t : Fc) (r : Ref) (d : Desc) (data : List Nat),
      s.fabric = true →
      heldDesc s r 0xB 0x70 = some d →
      due (advance s t) d = true →
      (d.word 0x18 % 65536 < 60 ∨ 1518 < d.word 0x18 % 65536) →
      exec (.ethTx t r data) s = .next (complete (takeReq (advance s t) r) r stRejectFormat 0x01D8)) ∧
  (∀ (s : State) (t : Fc) (p : Fin 6) (sof : Fc) (x : EthTx) (rest : List EthTx),
      s.fabric = true →
      ethUp s p = true →
      (fleetOn s p = false ∨ (getEth s p).fleetTurn = false) →
      (getEth s p).queue = x :: rest →
      x.tsAddr = none →
      exec (.ethTxDone t p sof) s = .next (complete (modEth (advance s t) p fun e => { e with queue := rest, fleetTurn := true, sent := x.data }) x.ref stDone)) ∧
  (∀ (s : State) (t : Fc) (p : Fin 6) (sof : Fc) (x : EthTx) (rest : List EthTx) (a : Nat),
      s.fabric = true →
      ethUp s p = true →
      (fleetOn s p = false ∨ (getEth s p).fleetTurn = false) →
      (getEth s p).queue = x :: rest →
      x.tsAddr = some a →
      exec (.ethTxDone t p sof) s = .next (complete (hostWrite (modEth (advance s t) p fun e => { e with queue := rest, fleetTurn := true, sent := x.data })
          (refHost s x.ref) a (leBytes 8 (eventTime (advance s t) (min sof (max s.now t))))) x.ref stDone)) ∧
  (∀ (s : State) (t : Fc) (p : Fin 6) (sof : Fc) (k : Nat) (x : Session),
      s.fabric = true →
      ethUp s p = true →
      fleetOn s p = true →
      ((getEth s p).fleetTurn = true ∨ (getEth s p).queue = []) →
      fleetSender s = some (k, x) →
      exec (.ethTxDone t p sof) s = .next (modEth (fleetSent (advance s t) k x) p fun e => { e with fleetTurn := false })) ∧
  (∀ (s : State) (t : Fc) (p : Fin 6) (sof : Fc) (f : List Nat),
      s.fabric = true →
      ethUp s p = true →
      rbit s R.ETH_CTRL_EN p = true →
      60 ≤ f.length →
      f.length ≤ 1518 →
      macAccepts s p f = true →
      isGptp s p f = false →
      queueRoom s queueEth p 0 = true →
      exec (.ethRx t p sof true f) s = .next (queuePut (advance s t) queueEth p 0 2048 (ethEntry (eventTime (advance s t) (min sof (max s.now t))) f))) ∧
  (∀ (s : State) (t : Fc) (p : Fin 6) (sof : Fc) (f : List Nat),
      s.fabric = true →
      ethUp s p = true →
      rbit s R.ETH_CTRL_EN p = true →
      exec (.ethRx t p sof false f) s = .next (rset (advance s t) R.ETH_STATUS_FCS_ERRS (satTo R.ETH_STATUS_FCS_ERRS.width (rget s R.ETH_STATUS_FCS_ERRS p + 1)) p)) ∧
  (∀ (s : State) (t : Fc) (p : Fin 6) (sof : Fc) (f : List Nat),
      s.fabric = true →
      ethUp s p = true →
      rbit s R.ETH_CTRL_EN p = true →
      60 ≤ f.length →
      f.length ≤ 1518 →
      macAccepts s p f = true →
      isGptp s p f = false →
      rbit s R.ETH_RXQ_CFG_ENABLE p = true →
      queueRoom s queueEth p 0 = false →
      exec (.ethRx t p sof true f) s = .next (rset (advance s t) R.ETH_DROPS_RX_DROPS (satTo R.ETH_DROPS_RX_DROPS.width (rget s R.ETH_DROPS_RX_DROPS p + 1)) p)) ∧
  (∀ (s : State) (t : Fc) (p : Fin 4) (m : GptpMsg) (c : Int),
      s.fabric = true →
      ethUp s p = true →
      rbit s R.ETH_CTRL_GPTP_EN p = true →
      ∃ u, exec (.gptpMessage t p m c) s = .next u ∧ (∀ k < 4, rget u R.ETH_STATUS_GM k = b2n (gmPort (gptpTake (advance s t) p m)).isNone ∧ rget u R.ETH_GPTP_OFFSET_NS k = ofSignedSat R.ETH_GPTP_OFFSET_NS.width (if (gmPort (gptpTake (advance s t) p m)).isNone then 0 else (gptpOffset (gptpTake (advance s t) p m) p m c).getD (rgetS s R.ETH_GPTP_OFFSET_NS))) ∧
        u.timeOff = s.timeOff ∧ u.nav = s.nav ∧ u = { advance s t with regs := u.regs, eth := u.eth, log := u.log, mem := u.mem, extMem := u.extMem }) ∧
  (∀ (s : State) (t : Fc) (p : Fin 6),
      s.fabric = true →
      ethUp s p = true →
      exec (.ethLinkDown t p) s = .next (raiseEv (ethFlush (rset (modEth (advance s t) p fun e => { e with role := none, heard := none, syncAt := none }) R.ETH_STATUS_LINK_UP 0 p) p) evEthLinkDown p)) ∧
  (∀ (s : State) (t : Fc) (p : Fin 6),
      s.fabric = true →
      rbit s R.ETH_CTRL_EN p = true →
      exec (.ethLinkUp t p) s = .next (rset (rset (modEth (advance s t) p fun e => { e with role := some (linkRole s p) }) R.ETH_STATUS_LINK_UP 1 p) R.ETH_STATUS_ASLEEP 0 p)) ∧
  (∀ (s : State) (t : Fc) (p : Fin 4),
      s.fabric = true →
      ethUp s p = true →
      exec (.tc10Sleep t p) s = .next (modEth (advance s t) p fun e => { e with sleepAsked := true })) ∧
  (∀ (s : State) (t : Fc) (p : Fin 4),
      s.fabric = true →
      (getEth s p).sleepAsked = true →
      ethUp s p = true →
      ∃ u, exec (.tc10SleepAck t p) s = .next u ∧ rget u R.ETH_STATUS_ASLEEP p = 1 ∧ rget u R.ETH_STATUS_LINK_UP p = 0 ∧ (getEth u p).sleepAsked = false ∧ (getEth u p).queue = [] ∧
        u = { advance s t with regs := u.regs, eth := u.eth, reqs := u.reqs, till := u.till, log := u.log, mem := u.mem, extMem := u.extMem }) ∧
  (∀ (s : State) (t : Fc) (p : Fin 4),
      s.fabric = true →
      exec (.tc10Wake t p) s = .next (rset (modEth (advance s t) p fun e => { e with wakes := e.wakes + 1 }) R.ETH_STATUS_ASLEEP 0 p))

/-- Of CAN_ENABLE, SEND, CAN_TXB_FETCH, CAN_TX_SELECT, CAN_TX_SUCCESS, CAN_ARB_LOSS, CAN_TX_ERROR, CAN_RX, CAN_RX_ERROR, CAN_BUS_OFF, RECOVER and CAN_RECOVERED. A controller with valid timing and a ring of class 6 is enabled; else ERR tells why. A SEND that passes its checks waits for a free buffer and is fetched into it; in bus-off it completes with 0x02D1. The frame selected has the lowest arbitration field unless ORDER is 1. A frame sent completes DONE and TEC falls; a failed attempt stays in its buffer while RETRY_LIMIT allows, and else completes OVERLAP_DROPPED; an error adds 8 to TEC. A received frame goes to the queue of the first filter that matches, with its start-of-frame time. TEC of 256 empties the buffers, completes their descriptors and raises CAN_BUS_OFF; RECOVER leads back to error-active with the counters at 0. -/
def Obligations.CanControllers : Prop :=
  (∀ (s : State) (t : Fc) (c : Fin 8),
      s.fabric = true →
      canOn s c = false →
      timingOk s c = true →
      rget s R.RING_CFG_CLASS 0 (rget s R.CAN_TX_CFG_RING c) = 6 →
      exec (.canEnable t c) s = .next (rset (rset (advance s t) R.CAN_CTRL_ERR 0 c) R.CAN_CTRL_EN 1 c)) ∧
  (∀ (s : State) (t : Fc) (c : Fin 8),
      s.fabric = true →
      canOn s c = false →
      timingOk s c = false →
      exec (.canEnable t c) s = .next (rset (advance s t) R.CAN_CTRL_ERR 1 c)) ∧
  (∀ (s : State) (t : Fc) (c : Fin 8),
      s.fabric = true →
      canOn s c = false →
      timingOk s c = true →
      rget s R.RING_CFG_CLASS 0 (rget s R.CAN_TX_CFG_RING c) ≠ 6 →
      exec (.canEnable t c) s = .next (rset (advance s t) R.CAN_CTRL_ERR 2 c)) ∧
  (∀ (s : State) (t : Fc) (r : Ref) (d : Desc),
      s.fabric = true →
      heldDesc s r 6 1 = some d →
      due (advance s t) d = true →
      sendError s r d = none →
      ∃ u, exec (.send t r) s = .next u ∧ (getCan u (d.classWord % 8)).sends = (getCan s (d.classWord % 8)).sends ++ [r] ∧ (getCan u (d.classWord % 8)).txb = (getCan s (d.classWord % 8)).txb ∧ u.reqs = (takeReq (advance s t) r).reqs ∧ BlocksOnly s u [.can] ∧ u = { advance s t with regs := u.regs, can := u.can, reqs := u.reqs }) ∧
  (∀ (s : State) (t : Fc) (r : Ref) (d : Desc),
      s.fabric = true →
      heldDesc s r 6 1 = some d →
      due (advance s t) d = true →
      bitOf (d.word 0x10) 29 = false →
      2 ^ 11 ≤ d.word 0x10 % 2 ^ 29 →
      exec (.send t r) s = .next (complete (takeReq (advance s t) r) r stRejectFormat 0x01D0)) ∧
  (∀ (s : State) (t : Fc) (r : Ref) (d : Desc),
      s.fabric = true →
      heldDesc s r 6 1 = some d →
      due (advance s t) d = true →
      sendError s r d = some (stRejectState, 0x02D1) →
      exec (.send t r) s = .next (complete (takeReq (advance s t) r) r stRejectState 0x02D1)) ∧
  (∀ (s : State) (t : Fc) (c : Fin 8) (x : List Nat) (r : Ref) (l : List Ref) (d : Desc) (b : Nat),
      s.fabric = true →
      canOn s c = true →
      rval s R.CAN_CTRL_MODE c = 0 →
      (getCan s c).sends = r :: l →
      sendBefore s r = false →
      reqDesc s r = some d →
      canOff s c = false →
      ([0, 1, 2].find? fun b => (tblGet? (getCan s c).txb b).isNone) = some b →
      ∃ u, exec (.canTxbFetch t c x) s = .next u ∧ (getCan u c).sends = l ∧ (∃ y, (getCan u c).txb = tblSet (getCan s c).txb b y ∧ y.ref = some r ∧ y.losses = 0 ∧ y.errors = 0 ∧ y.frame = frameOf (d.word 0x10) (d.word 0x14)
          (if bitOf (d.word 0x14) 6 then x.take (dlcBytes (bitOf (d.word 0x14) 4) (d.word 0x14 % 16)) else ((imgBytes d.body 48).drop 16).take (dlcBytes (bitOf (d.word 0x14) 4) (d.word 0x14 % 16)))) ∧
        u.reqs = s.reqs ∧ RegsOnly s u [R.CAN_STATUS_TXB_BUSY.key c 0, R.CAN_STATUS_STAGED.key c 0] ∧ u = { advance s t with regs := u.regs, can := u.can }) ∧
  (∀ (s : State) (t : Fc) (c : Fin 8) (x : List Nat) (r : Ref) (l : List Ref) (d : Desc),
      s.fabric = true →
      canOn s c = true →
      rval s R.CAN_CTRL_MODE c = 0 →
      (getCan s c).sends = r :: l →
      sendBefore s r = false →
      reqDesc s r = some d →
      canOff s c = true →
      ∃ u, exec (.canTxbFetch t c x) s = .next u ∧ (getCan u c).sends = l ∧ (getCan u c).txb = (getCan s c).txb ∧ u.reqs = (complete s r stRejectState 0x02D1).reqs ∧ BlocksOnly s u [.can] ∧ u = { advance s t with regs := u.regs, can := u.can, reqs := u.reqs, till := u.till }) ∧
  (∀ (s : State) (t : Fc) (c : Fin 8),
      s.fabric = true →
      canOn s c = true →
      canOff s c = false →
      rget s R.CAN_ERR_CNT_TEC c ≤ 255 →
      rval s R.CAN_CTRL_MODE c ≠ 1 →
      (getCan s c).onBus = none →
      rbit s R.CAN_TX_CFG_ORDER c = false →
      candidates (getCan s c) ≠ [] →
      ∃ u, exec (.canTxSelect t c) s = .next u ∧ (∃ p ∈ candidates (getCan s c), (getCan u c).onBus = some (p.1, moduleTime (advance s t)) ∧ ∀ q ∈ candidates (getCan s c), arbKey p.2.frame ≤ arbKey q.2.frame) ∧ u.reqs = s.reqs ∧ BlocksOnly s u [.can] ∧ u = { advance s t with regs := u.regs, can := u.can }) ∧
  (∀ (s : State) (t : Fc) (c : Fin 8) (p : Nat × CanTx) (l : List (Nat × CanTx)),
      s.fabric = true →
      canOn s c = true →
      canOff s c = false →
      rget s R.CAN_ERR_CNT_TEC c ≤ 255 →
      rval s R.CAN_CTRL_MODE c ≠ 1 →
      (getCan s c).onBus = none →
      rbit s R.CAN_TX_CFG_ORDER c = true →
      candidates (getCan s c) = p :: l →
      ∃ u, exec (.canTxSelect t c) s = .next u ∧ (getCan u c).onBus = some (p.1, moduleTime (advance s t)) ∧ u.reqs = s.reqs ∧ u = { advance s t with regs := u.regs, can := u.can }) ∧
  (∀ (s : State) (t : Fc) (c : Fin 8) (b n : Nat) (x : CanTx) (r : Ref),
      s.fabric = true →
      (getCan s c).onBus = some (b, n) →
      txAt (getCan s c) b = some x →
      txAborted s x = false →
      x.echo = false →
      rval s R.CAN_CTRL_MODE c = 0 →
      x.ref = some r →
      ∃ u, exec (.canTxSuccess t c) s = .next u ∧ (getCan u c).onBus = none ∧ (b ≠ 3 → (getCan u c).txb = tblErase (getCan s c).txb b) ∧ u.reqs = (complete s r stDone (min x.losses 31 + 32 * min x.errors 31 + 1024 * (b % 4) + 4096)).reqs ∧ rget u R.CAN_ERR_CNT_TEC c = (rget s R.CAN_ERR_CNT_TEC c - 1) % 2 ^ 9 ∧ BlocksOnly s u [.can] ∧ u = { advance s t with regs := u.regs, can := u.can, reqs := u.reqs, till := u.till }) ∧
  (∀ (s : State) (t : Fc) (c : Fin 8) (b n : Nat) (x : CanTx) (r : Ref),
      s.fabric = true →
      (getCan s c).onBus = some (b, n) →
      txAt (getCan s c) b = some x →
      txAborted s x = false →
      x.echo = true →
      rval s R.CAN_CTRL_MODE c = 0 →
      x.ref = some r →
      exec (.canTxSuccess t c) s = .next (complete (canQueue (txGood (modCan (advance s t) c fun k => freeTx k b) c) c x.echoQ n { x.frame with esi := x.frame.fdf && rget s R.CAN_STATUS_STATE c == 1 } true false false 0) r stDone
        (min x.losses 31 + 32 * min x.errors 31 + 1024 * (b % 4) + 4096))) ∧
  (∀ (s : State) (t : Fc) (c : Fin 8) (n : Nat) (x : CanTx) (l : List CanTx),
      s.fabric = true →
      (getCan s c).onBus = some (3, n) →
      (getCan s c).staged = x :: l →
      x.ref = none →
      x.echo = false →
      rval s R.CAN_CTRL_MODE c = 0 →
      ∃ u, exec (.canTxSuccess t c) s = .next u ∧ (getCan u c).onBus = none ∧ (getCan u c).staged = l ∧ (getCan u c).txb = (getCan s c).txb ∧ u.reqs = s.reqs ∧ rget u R.CAN_ERR_CNT_TEC c = (rget s R.CAN_ERR_CNT_TEC c - 1) % 2 ^ 9 ∧ BlocksOnly s u [.can] ∧ u = { advance s t with regs := u.regs, can := u.can }) ∧
  (∀ (s : State) (t : Fc) (c : Fin 8) (n : Nat) (x : CanTx) (l : List CanTx),
      s.fabric = true →
      (getCan s c).onBus = some (3, n) →
      (getCan s c).staged = x :: l →
      x.ref = none →
      rget s R.CAN_ERR_CNT_TEC c ≤ 255 →
      rget s R.CAN_TX_CFG_RETRY_LIMIT c < x.losses + 1 + x.errors →
      ∃ u, exec (.canArbLoss t c) s = .next u ∧ (getCan u c).onBus = none ∧ (getCan u c).staged = l ∧ rget u R.CAN_STAGE_CNT_STAGE_FAILS c = satTo R.CAN_STAGE_CNT_STAGE_FAILS.width (rget s R.CAN_STAGE_CNT_STAGE_FAILS c + 1) ∧ u.reqs = s.reqs ∧ BlocksOnly s u [.can] ∧ u = { advance s t with regs := u.regs, can := u.can }) ∧
  (∀ (s : State) (t : Fc) (c : Fin 8) (b n : Nat) (x : CanTx),
      s.fabric = true →
      (getCan s c).onBus = some (b, n) →
      txAt (getCan s c) b = some x →
      txAborted s x = false →
      rget s R.CAN_ERR_CNT_TEC c ≤ 255 →
      x.losses + 1 + x.errors ≤ rget s R.CAN_TX_CFG_RETRY_LIMIT c →
      ∃ u, exec (.canArbLoss t c) s = .next u ∧ (getCan u c).onBus = none ∧ txAt (getCan u c) b = some { x with losses := x.losses + 1 } ∧ u.reqs = s.reqs ∧ RegsOnly s u [R.CAN_STATUS_TXB_BUSY.key c 0, R.CAN_STATUS_STAGED.key c 0] ∧ u = { advance s t with regs := u.regs, can := u.can }) ∧
  (∀ (s : State) (t : Fc) (c : Fin 8) (b n : Nat) (x : CanTx) (r : Ref),
      s.fabric = true →
      (getCan s c).onBus = some (b, n) →
      txAt (getCan s c) b = some x →
      txAborted s x = false →
      rget s R.CAN_ERR_CNT_TEC c ≤ 255 →
      rget s R.CAN_TX_CFG_RETRY_LIMIT c < x.losses + 1 + x.errors →
      x.ref = some r →
      ∃ u, exec (.canArbLoss t c) s = .next u ∧ (getCan u c).onBus = none ∧ (b ≠ 3 → (getCan u c).txb = tblErase (getCan s c).txb b) ∧ u.reqs = (complete s r stOverlapDropped (min (x.losses + 1) 31 + 32 * min x.errors 31 + 1024 * (b % 4))).reqs ∧ BlocksOnly s u [.can] ∧ u = { advance s t with regs := u.regs, can := u.can, reqs := u.reqs, till := u.till }) ∧
  (∀ (s : State) (t : Fc) (c : Fin 8) (b n : Nat) (x : CanTx),
      s.fabric = true →
      (getCan s c).onBus = some (b, n) →
      txAt (getCan s c) b = some x →
      txAborted s x = false →
      rget s R.CAN_ERR_CNT_TEC c ≤ 247 →
      x.losses + x.errors + 1 ≤ rget s R.CAN_TX_CFG_RETRY_LIMIT c →
      canOff s c = false →
      ∃ u, exec (.canTxError t c false) s = .next u ∧ rget u R.CAN_ERR_CNT_TEC c = rget s R.CAN_ERR_CNT_TEC c + 8 ∧ rget u R.CAN_STATUS_STATE c = b2n (decide (120 ≤ rget s R.CAN_ERR_CNT_TEC c ∨ 128 ≤ rget s R.CAN_ERR_CNT_REC c)) ∧ txAt (getCan u c) b = some { x with errors := x.errors + 1 } ∧ u.reqs = s.reqs ∧ BlocksOnly s u [.can] ∧ u = { advance s t with regs := u.regs, can := u.can }) ∧
  (∀ (s : State) (t : Fc) (c : Fin 8) (sof : Nat) (f : CanFrame) (m : Nat),
      s.fabric = true →
      canHears s c = true →
      (f.fdf = false ∨ rbit s R.CAN_CTRL_FD_EN c = true) →
      rget s R.CAN_ERR_CNT_REC c ≤ 127 →
      ((List.range 32).find? fun k => filterHit (beforeRegs (advance s t)) c f k) = some m →
      (filterAct (beforeRegs (advance s t)) c m = 1 ∨ filterAct (beforeRegs (advance s t)) c m = 2) →
      queueRoom s queueCan c (filterAct (beforeRegs (advance s t)) c m - 1) = true →
      Memory.wf s.mem = true →
      Memory.wf s.extMem = true →
      ∃ u, exec (.canRx t c sof f) s = .next u ∧ (∀ k < 128, Memory.read (if queueHost s queueCan c (filterAct (beforeRegs (advance s t)) c m - 1) then u.extMem else u.mem) (((queueBase s queueCan c (filterAct (beforeRegs (advance s t)) c m - 1) + 128 * rget s R.CAN_RXQ_WRITE_INDEX c (filterAct (beforeRegs (advance s t)) c m - 1)) + k) % 2 ^ 64) = (canEntry (eventTime (advance s t) (min sof (max s.now t))) f false false false m (rget s R.CAN_RXQ_WRITE_PHASE c (filterAct (beforeRegs (advance s t)) c m - 1))).getD k 0) ∧
        rget u R.CAN_ERR_CNT_REC c = rget s R.CAN_ERR_CNT_REC c - 1 ∧ rget u R.CAN_COUNTS_RX_DROPS c = rget s R.CAN_COUNTS_RX_DROPS c ∧ u.reqs = s.reqs ∧ BlocksOnly s u [.can] ∧ u = { advance s t with regs := u.regs, mem := u.mem, extMem := u.extMem }) ∧
  (∀ (s : State) (t : Fc) (c : Fin 8) (sof : Nat) (f : CanFrame) (m : Nat),
      s.fabric = true →
      canHears s c = true →
      (f.fdf = false ∨ rbit s R.CAN_CTRL_FD_EN c = true) →
      rget s R.CAN_ERR_CNT_REC c ≤ 127 →
      ((List.range 32).find? fun k => filterHit (beforeRegs (advance s t)) c f k) = some m →
      filterAct (beforeRegs (advance s t)) c m = 3 →
      ∃ u, exec (.canRx t c sof f) s = .next u ∧ rget u R.CAN_ERR_CNT_REC c = rget s R.CAN_ERR_CNT_REC c - 1 ∧ SameMemory s u ∧ RegsOnly s u [R.CAN_ERR_CNT_REC.key c 0, R.CAN_STATUS_STATE.key c 0] ∧ u = { advance s t with regs := u.regs }) ∧
  (∀ (s : State) (t : Fc) (c : Fin 8) (sof : Nat) (f : CanFrame),
      s.fabric = true →
      canHears s c = true →
      (f.fdf = false ∨ rbit s R.CAN_CTRL_FD_EN c = true) →
      rget s R.CAN_ERR_CNT_REC c ≤ 127 →
      ((List.range 32).find? fun k => filterHit (beforeRegs (advance s t)) c f k) = none →
      (rget s R.CAN_TX_CFG_DEFAULT_ACT c = 0 ∨ rget s R.CAN_TX_CFG_DEFAULT_ACT c = 3) →
      ∃ u, exec (.canRx t c sof f) s = .next u ∧ rget u R.CAN_ERR_CNT_REC c = rget s R.CAN_ERR_CNT_REC c - 1 ∧ SameMemory s u ∧ RegsOnly s u [R.CAN_ERR_CNT_REC.key c 0, R.CAN_STATUS_STATE.key c 0] ∧ u = { advance s t with regs := u.regs }) ∧
  (∀ (s : State) (t : Fc) (c : Fin 8) (sof : Nat) (f : CanFrame),
      s.fabric = true →
      canHears s c = true →
      (f.fdf = false ∨ rbit s R.CAN_CTRL_FD_EN c = true) →
      128 ≤ rget s R.CAN_ERR_CNT_REC c →
      ∃ u, exec (.canRx t c sof f) s = .next u ∧ 119 ≤ rget u R.CAN_ERR_CNT_REC c ∧ rget u R.CAN_ERR_CNT_REC c ≤ 127 ∧ u.freeCount = s.freeCount + 1 ∧ u.reqs = s.reqs ∧ BlocksOnly s u [.can, .hlm, .jrn]) ∧
  (∀ (s : State) (t : Fc) (c : Fin 8) (h : Bool),
      s.fabric = true →
      canHears s c = true →
      ∃ u, exec (.canRxError t c h) s = .next u ∧ rget u R.CAN_ERR_CNT_REC c = satTo 8 (rget s R.CAN_ERR_CNT_REC c + (if h then 8 else 1)) ∧ rget u R.CAN_ERR_CNT_TEC c = rget s R.CAN_ERR_CNT_TEC c ∧ RegsOnly s u [R.CAN_ERR_CNT_REC.key c 0, R.CAN_STATUS_STATE.key c 0] ∧ u = { advance s t with regs := u.regs }) ∧
  (∀ (s : State) (t : Fc) (c : Fin 8),
      s.fabric = true →
      canOff s c = false →
      256 ≤ rget s R.CAN_ERR_CNT_TEC c →
      ∃ u, exec (.canBusOff t c) s = .next u ∧ rget u R.CAN_STATUS_STATE c = 2 ∧ (getCan u c).txb = [] ∧ (getCan u c).staged = [] ∧ (getCan u c).onBus = none ∧ (getCan u c).sends = (getCan s c).sends ∧ rget u R.CAN_ERR_CNT_BUS_OFFS c = satTo R.CAN_ERR_CNT_BUS_OFFS.width (rget s R.CAN_ERR_CNT_BUS_OFFS c + 1) ∧ BlocksOnly s u [.can, .hlm, .jrn] ∧ u = { advance s t with regs := u.regs, can := u.can, reqs := u.reqs, till := u.till, log := u.log, mem := u.mem, extMem := u.extMem }) ∧
  (∀ (s : State) (t : Fc) (c : Fin 8),
      s.fabric = true →
      rget s R.CAN_STATUS_STATE c = 2 →
      exec (.recover t c) s = .next (rset (advance s t) R.CAN_STATUS_STATE 3 c)) ∧
  (∀ (s : State) (t : Fc) (c : Fin 8),
      s.fabric = true →
      rget s R.CAN_STATUS_STATE c = 3 →
      exec (.canRecovered t c) s = .next (rset (rset (rset (advance s t) R.CAN_STATUS_STATE 0 c) R.CAN_ERR_CNT_TEC 0 c) R.CAN_ERR_CNT_REC 0 c))

/-- Of PNL_ENABLE, PNL_DISABLE, UPDATE, PNL_CLEAR, LINE_WRITE_START, LINE_WRITE_DONE, PNL_TEMP_SAMPLE, VCOM_TOGGLE, CRACK_MEASURE, PANEL_CRACK_CLEAR and PANEL_SUPPLY_FAULT. Enabling a port whose configuration passes empties its store of anything but colour 0, its pending set and its requests, sets EN with ERR 0 and has a wipe sent; a failing configuration only sets ERR. Disabling clears EN, drops every request and makes each line of the store what the panel shows, that of a line in its write what is being written. An UPDATE in range on an enabled port puts its source lines into the store; out of range it completes REJECT_FORMAT with 0x01F0, on a disabled port REJECT_STATE with 0x02F0. A CLEAR with no line in its write zeroes the store and begins the wipe, at whose end it completes DONE; else the wipe waits. Once the contrast voltage has settled a line write latches the next pending line with its content and the band, and unmarks FORCE; when its time has passed the line's shadow stands for what was written and WRITTEN counts. A temperature sample sets TEMP, band and target. PINV changes at each new instant of its grid, between line writes. A crack reading above CRACK_OHM that follows another sets PANEL_CRACK; a single one does not; every reading stands in LOOP_OHM. A write of 1 clears PANEL_CRACK after two good readings, and does nothing before. A supply at its limit takes PWR_EN and EN to 0. -/
def Obligations.SentinelPanels : Prop :=
  (∀ (s : State) (t : Fc) (p : Fin 2),
      s.fabric = true →
      pnlOn s p = false →
      pnlError s p = 0 →
      ∃ u, exec (.pnlEnable t p) s = .next u ∧ rget u R.PNL_CTRL_EN p = 1 ∧ rget u R.PNL_CTRL_ERR p = 0 ∧ (getPnl u p).lines = [] ∧ (getPnl u p).jobs = [] ∧
        wipeOpen u p = true ∧ BlocksOnly s u [.pnl] ∧ u = { advance s t with regs := u.regs, pnl := u.pnl }) ∧
  (∀ (s : State) (t : Fc) (p : Fin 2),
      s.fabric = true →
      pnlOn s p = false →
      pnlError s p ≠ 0 →
      exec (.pnlEnable t p) s = .next (rset (advance s t) R.PNL_CTRL_ERR (pnlError s p) p)) ∧
  (∀ (s : State) (t : Fc) (p : Fin 2),
      s.fabric = true →
      pnlOn s p = true →
      ∃ u, exec (.pnlDisable t p) s = .next u ∧ rget u R.PNL_CTRL_EN p = 0 ∧ (getPnl u p).jobs = [] ∧ (getPnl u p).wipes = [] ∧ pendingLines u p = [] ∧
        (∀ x ∈ (getPnl u p).lines, x.2.owner = none ∧ x.2.source = none ∧ x.2.forced = []) ∧
        (∀ w, (getPnl s p).writing = some w → ∀ x ∈ (getPnl u p).lines, x.1 = w.line → x.2.content = w.content) ∧ u = { advance s t with regs := u.regs, pnl := u.pnl, reqs := u.reqs, till := u.till }) ∧
  (∀ (s : State) (t : Fc) (p : Fin 2),
      s.fabric = true →
      pnlOn s p = true →
      (getPnl s p).writing = none →
      wipeOpen s p = false →
      ∃ u, exec (.pnlDisable t p) s = .next u ∧ (∀ x ∈ (getPnl u p).lines, x.2.content = x.2.shown) ∧ u = { advance s t with regs := u.regs, pnl := u.pnl, reqs := u.reqs, till := u.till }) ∧
  (∀ (s : State) (t : Fc) (r : Ref) (d : Desc) (src : List Nat),
      s.fabric = true →
      heldDesc s r 8 1 = some d →
      due (advance s t) d = true →
      panelServes s r = true →
      d.word 0x18 / 65536 % 512 ≠ 0 →
      d.word 0x18 % 512 + d.word 0x18 / 65536 % 512 ≤ pnlHeight s (d.classWord % 2) →
      pnlWidth s (d.classWord % 2) / 2 ≤ d.word 0x1C % 65536 →
      pnlOn s (d.classWord % 2) = true →
      ∃ u, exec (.update t r src) s = .next u ∧ (∀ k < d.word 0x18 / 65536 % 512, (getLine u (d.classWord % 2) (d.word 0x18 % 512 + k)).content =
          sourceLine (pnlWidth s (d.classWord % 2)) (src.drop (k * (d.word 0x1C % 65536)))) ∧
        BlocksOnly s u [.pnl] ∧ u = { advance s t with regs := u.regs, pnl := u.pnl, reqs := u.reqs, till := u.till }) ∧
  (∀ (s : State) (t : Fc) (r : Ref) (d : Desc) (src : List Nat),
      s.fabric = true →
      heldDesc s r 8 1 = some d →
      due (advance s t) d = true →
      panelServes s r = true →
      (d.word 0x18 / 65536 % 512 = 0 ∨ pnlHeight s (d.classWord % 2) < d.word 0x18 % 512 + d.word 0x18 / 65536 % 512 ∨
        d.word 0x1C % 65536 < pnlWidth s (d.classWord % 2) / 2) →
      exec (.update t r src) s = .next (complete (takeReq (advance s t) r) r stRejectFormat 0x01F0)) ∧
  (∀ (s : State) (t : Fc) (r : Ref) (d : Desc) (src : List Nat),
      s.fabric = true →
      heldDesc s r 8 1 = some d →
      due (advance s t) d = true →
      panelServes s r = true →
      d.word 0x18 / 65536 % 512 ≠ 0 →
      d.word 0x18 % 512 + d.word 0x18 / 65536 % 512 ≤ pnlHeight s (d.classWord % 2) →
      pnlWidth s (d.classWord % 2) / 2 ≤ d.word 0x1C % 65536 →
      pnlOn s (d.classWord % 2) = false →
      exec (.update t r src) s = .next (complete (takeReq (advance s t) r) r stRejectState 0x02F0)) ∧
  (∀ (s : State) (t : Fc) (r : Ref) (d : Desc),
      s.fabric = true →
      heldDesc s r 8 2 = some d →
      due (advance s t) d = true →
      panelServes s r = true →
      pnlOn s (d.classWord % 2) = true →
      (getPnl s (d.classWord % 2)).writing = none →
      (getPnl s (d.classWord % 2)).wiping = none →
      ∃ u, exec (.pnlClear t r) s = .next u ∧ (∀ x ∈ (getPnl u (d.classWord % 2)).lines, x.2.content = zeroLine (pnlWidth s (d.classWord % 2))) ∧ (getPnl u (d.classWord % 2)).wipes = [] ∧
        (getPnl u (d.classWord % 2)).wiping = some (max s.now t + frameFc s (d.classWord % 2) 36, (getPnl s (d.classWord % 2)).wipes ++ [some r]) ∧ BlocksOnly s u [.pnl] ∧ u = { advance s t with regs := u.regs, pnl := u.pnl, reqs := u.reqs, till := u.till }) ∧
  (∀ (s : State) (t : Fc) (r : Ref) (d : Desc),
      s.fabric = true →
      heldDesc s r 8 2 = some d →
      due (advance s t) d = true →
      panelServes s r = true →
      pnlOn s (d.classWord % 2) = false →
      exec (.pnlClear t r) s = .next (complete (takeReq (advance s t) r) r stRejectState 0x02F0)) ∧
  (∀ (s : State) (t : Fc) (p : Fin 2) (e : Nat) (r : Ref),
      (s.fabric = true ∨ (s.aoc.power = 2 ∧ rbit s R.PNL_CTRL_PARK_KEEP p = true)) →
      (getPnl s p).writing = none →
      (getPnl s p).wiping = some (e, [some r]) →
      e ≤ max s.now t →
      (getPnl s p).wipes = [] →
      (getPnl s p).jobs = [] →
      ∃ u, exec (.lineWriteDone t p) s = .next u ∧ (∀ x ∈ (getPnl u p).lines, x.2.shown = zeroLine (pnlWidth s p) ∧ x.2.shadow = lineCrc (pnlWidth s p) (zeroLine (pnlWidth s p))) ∧
        wipeOpen u p = false ∧ u.reqs = (complete s r stDone).reqs ∧ BlocksOnly s u [.pnl] ∧ u = { advance s t with regs := u.regs, pnl := u.pnl, reqs := u.reqs, till := u.till }) ∧
  (∀ (s : State) (t : Fc) (r : Ref) (d : Desc) (x : PnlWrite),
      s.fabric = true →
      heldDesc s r 8 2 = some d →
      due (advance s t) d = true →
      panelServes s r = true →
      pnlOn s (d.classWord % 2) = true →
      (getPnl s (d.classWord % 2)).writing = some x →
      ∃ u, exec (.pnlClear t r) s = .next u ∧ (∀ x ∈ (getPnl u (d.classWord % 2)).lines, x.2.content = zeroLine (pnlWidth s (d.classWord % 2))) ∧ (getPnl u (d.classWord % 2)).wipes = (getPnl s (d.classWord % 2)).wipes ++ [some r] ∧
        (getPnl u (d.classWord % 2)).writing.map (·.line) = some x.line ∧ BlocksOnly s u [.pnl] ∧ u = { advance s t with regs := u.regs, pnl := u.pnl, reqs := u.reqs, till := u.till }) ∧
  (∀ (s : State) (t : Fc) (p : Fin 2) (n : Nat),
      s.fabric = true →
      pnlOn s p = true →
      (getPnl s p).writing = none →
      (getPnl s p).wiping = none →
      blankWanted s p = false →
      vlcdSettled (advance s t) p = true →
      (s.aoc.power = 0 ∨ s.aoc.power = 1) →
      nextLine s p = some n →
      ∃ u, exec (.lineWriteStart t p) s = .next u ∧ (getPnl u p).writing = some ⟨n, (getLine s p n).content, (getLine s p n).source, max s.now t + lineFc s p⟩ ∧ (getPnl u p).frame = lineFrame (pnlWidth s p) n (getLine s p n).content ∧ (getLine u p n).forced = [] ∧
        rget u R.PNL_STATUS_BAND p = (getPnl s p).band % 2 ^ R.PNL_STATUS_BAND.width ∧ BlocksOnly s u [.pnl] ∧ u = { advance s t with regs := u.regs, pnl := u.pnl }) ∧
  (∀ (s : State) (t : Fc) (p : Fin 2) (x : PnlWrite),
      (s.fabric = true ∨ (s.aoc.power = 2 ∧ rbit s R.PNL_CTRL_PARK_KEEP p = true)) →
      (getPnl s p).writing = some x →
      x.ends ≤ max s.now t →
      (getPnl s p).wipes = [] →
      ∃ u, exec (.lineWriteDone t p) s = .next u ∧ (getPnl u p).writing = none ∧ (getPnl u p).last = some x.line ∧ (getLine u p x.line).shown = x.content ∧
        (getLine u p x.line).shadow = lineCrc (pnlWidth s p) x.content ∧
        rget u R.PNL_COUNTS_WRITTEN p = satTo R.PNL_COUNTS_WRITTEN.width (rget s R.PNL_COUNTS_WRITTEN p + 1) ∧ BlocksOnly s u [.pnl] ∧ u = { advance s t with regs := u.regs, pnl := u.pnl, reqs := u.reqs, till := u.till }) ∧
  (∀ (s : State) (t : Fc) (p : Fin 2) (v h : Int),
      (s.fabric = true ∨ (s.aoc.power = 2 ∧ rbit s R.PNL_CTRL_PARK_KEEP p = true)) →
      (getPnl s p).tempAt.all (fun a => a + 40000000 ≤ max s.now t) = true →
      rbit s R.PNL_CTRL_TSRC p = false →
      ∃ u, exec (.pnlTempSample t p (some v) h) s = .next u ∧ (getPnl u p).band = (vlcdTarget s p v).1 ∧ (getPnl u p).target = (vlcdTarget s p v).2 ∧ (getPnl u p).tempAt = some (max s.now t) ∧
        rget u R.PNL_TEMP_TEMP p = (clampInt 0 255 (v + 50)).toNat % 2 ^ R.PNL_TEMP_TEMP.width ∧
        rget u R.PNL_STATUS_TSNS_FAULT p = 0 ∧ BlocksOnly s u [.pnl] ∧ u = { advance s t with regs := u.regs, pnl := u.pnl }) ∧
  (∀ (s : State) (t : Fc) (p : Fin 2) (v h : Int),
      (s.fabric = true ∨ (s.aoc.power = 2 ∧ rbit s R.PNL_CTRL_PARK_KEEP p = true)) →
      (getPnl s p).tempAt.all (fun a => a + 40000000 ≤ max s.now t) = true →
      rbit s R.PNL_CTRL_TSRC p = true →
      ∃ u, exec (.pnlTempSample t p (some v) h) s = .next u ∧ (getPnl u p).band = (vlcdTarget s p h).1 ∧ (getPnl u p).target = (vlcdTarget s p h).2 ∧ (getPnl u p).tempAt = some (max s.now t) ∧
        rget u R.PNL_TEMP_TEMP p = (clampInt 0 255 (h + 50)).toNat % 2 ^ R.PNL_TEMP_TEMP.width ∧
        rget u R.PNL_STATUS_TSNS_FAULT p = 0 ∧ BlocksOnly s u [.pnl] ∧ u = { advance s t with regs := u.regs, pnl := u.pnl }) ∧
  (∀ (s : State) (t : Fc) (p : Fin 2) (h : Int),
      (s.fabric = true ∨ (s.aoc.power = 2 ∧ rbit s R.PNL_CTRL_PARK_KEEP p = true)) →
      (getPnl s p).tempAt.all (fun a => a + 40000000 ≤ max s.now t) = true →
      ∃ u, exec (.pnlTempSample t p none h) s = .next u ∧ (getPnl u p).band = (vlcdTarget s p h).1 ∧ (getPnl u p).target = (vlcdTarget s p h).2 ∧ (getPnl u p).tempAt = some (max s.now t) ∧
        rget u R.PNL_TEMP_TEMP p = (clampInt 0 255 (h + 50)).toNat % 2 ^ R.PNL_TEMP_TEMP.width ∧
        rget u R.PNL_STATUS_TSNS_FAULT p = 1 ∧ BlocksOnly s u [.pnl, .hlm, .jrn] ∧ u = { advance s t with regs := u.regs, pnl := u.pnl, log := u.log, mem := u.mem, extMem := u.extMem }) ∧
  (∀ (s : State) (t : Fc) (p : Fin 2),
      (s.fabric = true ∨ (s.aoc.power = 2 ∧ rbit s R.PNL_CTRL_PARK_KEEP p = true)) →
      pnlOn s p = true →
      rbit s R.PNL_CTRL_PWR_EN p = true →
      vcomInstant (advance s t) p = true →
      (getPnl s p).vcomAt ≠ some (max s.now t) →
      (getPnl s p).writing = none →
      ∃ u, exec (.vcomToggle t p) s = .next u ∧ (getPnl u p).pinv = !(getPnl s p).pinv ∧ (getPnl u p).vcomDue = false ∧ (getPnl u p).vcomAt = some (max s.now t) ∧ (getPnl u p).lines = (getPnl s p).lines ∧ u = { advance s t with pnl := u.pnl }) ∧
  (∀ (s : State) (t : Fc) (p : Fin 2) (x : PnlWrite),
      (s.fabric = true ∨ (s.aoc.power = 2 ∧ rbit s R.PNL_CTRL_PARK_KEEP p = true)) →
      pnlOn s p = true →
      rbit s R.PNL_CTRL_PWR_EN p = true →
      vcomInstant (advance s t) p = true →
      (getPnl s p).vcomAt ≠ some (max s.now t) →
      (getPnl s p).writing = some x →
      ∃ u, exec (.vcomToggle t p) s = .next u ∧ (getPnl u p).pinv = (getPnl s p).pinv ∧ (getPnl u p).vcomDue = true ∧ (getPnl u p).lines = (getPnl s p).lines ∧ u = { advance s t with pnl := u.pnl }) ∧
  (∀ (s : State) (t : Fc) (p : Fin 2) (o : Nat),
      (s.fabric = true ∨ (s.aoc.power = 2 ∧ rbit s R.PNL_CTRL_PARK_KEEP p = true)) →
      (getPnl s p).crackAt.all (fun a => a + 400000000 ≤ max s.now t) = true →
      10 * rval s R.PNL_CRACK_CRACK_OHM p < o →
      1 ≤ (getPnl s p).high →
      ∃ u, exec (.crackMeasure t p o) s = .next u ∧ rget u R.PNL_CRACK_PANEL_CRACK p = 1 ∧ (getPnl u p).high = (getPnl s p).high + 1 ∧ (getPnl u p).low = 0 ∧
        rget u R.PNL_CRACK_LOOP_OHM p = min o 65535 ∧ BlocksOnly s u [.pnl, .hlm, .jrn] ∧ u = { advance s t with regs := u.regs, pnl := u.pnl, log := u.log, mem := u.mem, extMem := u.extMem }) ∧
  (∀ (s : State) (t : Fc) (p : Fin 2) (o : Nat),
      (s.fabric = true ∨ (s.aoc.power = 2 ∧ rbit s R.PNL_CTRL_PARK_KEEP p = true)) →
      (getPnl s p).crackAt.all (fun a => a + 400000000 ≤ max s.now t) = true →
      10 * rval s R.PNL_CRACK_CRACK_OHM p < o →
      (getPnl s p).high = 0 →
      ∃ u, exec (.crackMeasure t p o) s = .next u ∧ rget u R.PNL_CRACK_PANEL_CRACK p = rget s R.PNL_CRACK_PANEL_CRACK p ∧ (getPnl u p).high = 1 ∧ (getPnl u p).low = 0 ∧
        rget u R.PNL_CRACK_LOOP_OHM p = min o 65535 ∧ RegsOnly s u [R.PNL_CRACK_LOOP_OHM.key p 0] ∧ u = { advance s t with regs := u.regs, pnl := u.pnl }) ∧
  (∀ (s : State) (t : Fc) (p : Fin 2) (o : Nat),
      (s.fabric = true ∨ (s.aoc.power = 2 ∧ rbit s R.PNL_CTRL_PARK_KEEP p = true)) →
      (getPnl s p).crackAt.all (fun a => a + 400000000 ≤ max s.now t) = true →
      o ≤ 10 * rval s R.PNL_CRACK_CRACK_OHM p →
      ∃ u, exec (.crackMeasure t p o) s = .next u ∧ (getPnl u p).high = 0 ∧ (getPnl u p).low = (getPnl s p).low + 1 ∧ rget u R.PNL_CRACK_LOOP_OHM p = min o 65535 ∧ RegsOnly s u [R.PNL_CRACK_LOOP_OHM.key p 0] ∧ u = { advance s t with regs := u.regs, pnl := u.pnl }) ∧
  (∀ (s : State) (t : Fc) (p : Fin 2),
      s.fabric = true →
      2 ≤ (getPnl s p).low →
      ∃ u, exec (.panelCrackClear t p) s = .next u ∧ rget u R.PNL_CRACK_PANEL_CRACK p = 0 ∧ BlocksOnly s u [.pnl] ∧ u = { advance s t with regs := u.regs, pnl := u.pnl }) ∧
  (∀ (s : State) (t : Fc) (p : Fin 2),
      s.fabric = true →
      (getPnl s p).low < 2 →
      exec (.panelCrackClear t p) s = .next (advance s t)) ∧
  (∀ (s : State) (t : Fc) (p : Fin 2),
      (s.fabric = true ∨ (s.aoc.power = 2 ∧ rbit s R.PNL_CTRL_PARK_KEEP p = true)) →
      rbit s R.PNL_CTRL_PWR_EN p = true →
      pnlOn s p = true →
      ∃ u, exec (.panelSupplyFault t p) s = .next u ∧ rget u R.PNL_CTRL_PWR_EN p = 0 ∧ rget u R.PNL_CTRL_EN p = 0 ∧ (getPnl u p).jobs = [] ∧ BlocksOnly s u [.pnl, .hlm, .jrn] ∧ u = { advance s t with regs := u.regs, pnl := u.pnl, reqs := u.reqs, till := u.till, log := u.log, mem := u.mem, extMem := u.extMem })

/-- Of FLE_ENABLE, FLE_DISABLE, PEER_SET, PEER_SET_TIMEOUT, SESSION_HANDSHAKE, SESSION_RETRY, KEEPALIVE_DUE, PEER_TIMEOUT, CERT_EXPIRY, BYE_RX, KEEPALIVE_RX, EVICT_HOLD_EXPIRY, BEHIND_CATCH_UP and STRIKE_DECAY. The engine starts when its preconditions hold, else ERR tells why; EN 0 closes every session with BYE. PEER_SET fills a slot and waits; a zero address or port is REJECT_FORMAT; CLEAR empties the slot. A handshake with a certificate that verifies opens the session, completes PEER_SET and sends the greatest stamps applied, pitch by pitch, in eleven SUMMARY messages; a certificate that fails check n, or names another pitch (n = 4), completes it REJECT_AUTH 0x04E0 + n; an evicted pitch is refused during its hold; RETRY_S after a failure or closure the slot is opened again. A session silent for 5 s gets a keepalive; one silent for PEER_TIMEOUT_S, or whose certificate expires, is closed and ABSENT. BYE closes it. An idle session marked BEHIND repeats the exchange. -/
def Obligations.FleetSessions : Prop :=
  (∀ (s : State) (t : Fc),
      s.fabric = true →
      rbit s R.FLE_CTRL_EN = false →
      rget s R.NAV_STATE_TIME_STATE ≠ 0 →
      credsValid (advance s t) = true →
      verBase s ≠ 0 →
      cacheBase s ≠ 0 →
      (rget s R.FLE_STORE_BASE_LO_ADDR_LO ≠ 0 ∨ rget s R.FLE_STORE_BASE_HI_ADDR_HI ≠ 0) →
      rbit s R.ETH_CTRL_EN (rget s R.FLE_CTRL_PORT) = true →
      exec (.fleEnable t) s = .next (rset (rset (advance s t) R.FLE_CTRL_ERR 0) R.FLE_CTRL_EN 1)) ∧
  (∀ (s : State) (t : Fc),
      s.fabric = true →
      rbit s R.FLE_CTRL_EN = false →
      rget s R.NAV_STATE_TIME_STATE = 0 →
      exec (.fleEnable t) s = .next (rset (advance s t) R.FLE_CTRL_ERR 1)) ∧
  (∀ (s : State) (t : Fc),
      s.fabric = true →
      tblSorted s.fle.sessions = true →
      ∃ u, exec (.fleDisable t) s = .next u ∧ rget u R.FLE_CTRL_EN = 0 ∧
        (∀ k c, tblGet? s.fle.sessions k = some c → tblGet? u.fle.sessions k = some (if c.isOpen then { c with isOpen := false, trying := false, closedAt := max s.now t, owed := [], queue := [.bye], behind := false } else c)) ∧
        u.fle = { s.fle with sessions := u.fle.sessions } ∧ RegsOnly s u [R.FLE_CTRL_EN.key 0 0, R.FLE_SESSIONS_UP.key 0 0] ∧ u = { advance s t with regs := u.regs, fle := u.fle }) ∧
  (∀ (s : State) (t : Fc) (r : Ref) (d : Desc) (o : Option Session),
      s.fabric = true →
      heldDesc s r 7 1 = some d →
      due (advance s t) d = true →
      bitOf d.classWord 31 = false →
      (∃ w ∈ [d.word 0x10, d.word 0x14, d.word 0x18, d.word 0x1C], w ≠ 0) →
      d.word 0x20 % 65536 ≠ 0 →
      rbit s R.FLE_CTRL_EN = true →
      tblGet? s.fle.sessions (d.classWord % 32) = o →
      ∃ u, exec (.peerSet t r) s = .next u ∧ u.fle = { s.fle with sessions := tblSet s.fle.sessions (d.classWord % 32) { Session.empty with addr := [d.word 0x10, d.word 0x14, d.word 0x18, d.word 0x1C], port := d.word 0x20 % 65536, pitch := bitField (d.word 0x20) 16 10, ref := some r, setAt := max s.now t, closedAt := max s.now t, trying := true } } ∧
        u.reqs = (completeOpt (takeReq (advance s t) r) (o.bind (·.ref)) stPartnerAbsent).reqs ∧ RegsOnly s u [R.FLE_SESSIONS_UP.key 0 0] ∧ u = { advance s t with regs := u.regs, fle := u.fle, reqs := u.reqs, till := u.till }) ∧
  (∀ (s : State) (t : Fc) (r : Ref) (d : Desc),
      s.fabric = true →
      heldDesc s r 7 1 = some d →
      due (advance s t) d = true →
      bitOf d.classWord 31 = false →
      ((∀ w ∈ [d.word 0x10, d.word 0x14, d.word 0x18, d.word 0x1C], w = 0) ∨ d.word 0x20 % 65536 = 0) →
      exec (.peerSet t r) s = .next (complete (takeReq (advance s t) r) r stRejectFormat 0x01E0)) ∧
  (∀ (s : State) (t : Fc) (r : Ref) (d : Desc),
      s.fabric = true →
      heldDesc s r 7 1 = some d →
      due (advance s t) d = true →
      bitOf d.classWord 31 = false →
      (∃ w ∈ [d.word 0x10, d.word 0x14, d.word 0x18, d.word 0x1C], w ≠ 0) →
      d.word 0x20 % 65536 ≠ 0 →
      rbit s R.FLE_CTRL_EN = false →
      exec (.peerSet t r) s = .next (complete (takeReq (advance s t) r) r stRejectState 0x02E0)) ∧
  (∀ (s : State) (t : Fc) (r : Ref) (d : Desc) (c : Session),
      s.fabric = true →
      heldDesc s r 7 1 = some d →
      due (advance s t) d = true →
      bitOf d.classWord 31 = true →
      rbit s R.FLE_CTRL_EN = true →
      tblGet? s.fle.sessions (d.classWord % 32) = some c →
      tblSorted s.fle.sessions = true →
      ∃ u, exec (.peerSet t r) s = .next u ∧ tblGet? u.fle.sessions (d.classWord % 32) = none ∧ (∀ j, j ≠ (d.classWord % 32) → tblGet? u.fle.sessions j = tblGet? s.fle.sessions j) ∧ u.fle = { s.fle with sessions := u.fle.sessions } ∧ bitOf (rget u R.FLE_SESSIONS_UP) (d.classWord % 32) = false ∧
        u.reqs = (complete (completeOpt (takeReq (advance s t) r) c.ref stPartnerAbsent) r stDone).reqs ∧ RegsOnly s u [R.FLE_SESSIONS_UP.key 0 0] ∧ u = { advance s t with regs := u.regs, fle := u.fle, reqs := u.reqs, till := u.till }) ∧
  (∀ (s : State) (t : Fc) (k : Fin 32) (c : Session) (q : Ref),
      s.fabric = true →
      tblGet? s.fle.sessions k = some c →
      c.ref = some q →
      c.setAt + 4000000000 ≤ max s.now t →
      exec (.peerSetTimeout t k) s = .next (complete ({ advance s t with fle := { s.fle with sessions := tblSet s.fle.sessions k { c with ref := none } } }) q stPartnerAbsent)) ∧
  (∀ (s : State) (t : Fc) (k : Fin 32) (c : Session) (x : Cert),
      s.fabric = true →
      tblGet? s.fle.sessions k = some c →
      rbit s R.FLE_CTRL_EN = true →
      c.isOpen = false →
      c.trying = true →
      slotHeld (advance s t) k = false →
      certError (advance s t) x = none →
      x.pitch = c.pitch →
      (getMember s x.pitch).evicted = false →
      ∃ u, exec (.sessionHandshake t k (some x)) s = .next u ∧ (∃ n, tblGet? u.fle.sessions k = some n ∧ n.isOpen = true ∧ n.absent = false ∧ n.pitch = c.pitch ∧ n.expires = x.notAfter ∧ n.ref = none ∧
          n.queue = ((List.range 11).map fun i => FleMsg.summary (figuresOf s (99 * i) (min 99 (1024 - 99 * i))))) ∧
        getMember u x.pitch = { getMember s x.pitch with cert := some x } ∧ (∀ j, j ≠ k.val → tblGet? u.fle.sessions j = tblGet? s.fle.sessions j) ∧
        bitOf (rget u R.FLE_SESSIONS_UP) k = true ∧ u.reqs = (completeOpt s c.ref stDone).reqs ∧ RegsOnly s u [R.FLE_SESSIONS_UP.key 0 0] ∧ u = { advance s t with regs := u.regs, fle := u.fle, reqs := u.reqs, till := u.till }) ∧
  (∀ (s : State) (t : Fc) (k : Fin 32) (c : Session),
      s.fabric = true →
      tblGet? s.fle.sessions k = some c →
      rbit s R.FLE_CTRL_EN = true →
      c.isOpen = false →
      c.trying = true →
      exec (.sessionHandshake t k none) s = .next ({ advance s t with fle := { s.fle with sessions := tblSet s.fle.sessions k { c with trying := false, closedAt := max s.now t } } })) ∧
  (∀ (s : State) (t : Fc) (k : Fin 32) (c : Session) (x : Cert) (n : Nat),
      s.fabric = true →
      tblGet? s.fle.sessions k = some c →
      rbit s R.FLE_CTRL_EN = true →
      c.isOpen = false →
      c.trying = true →
      slotHeld (advance s t) k = false →
      certError (advance s t) x = some n →
      ∃ u, exec (.sessionHandshake t k (some x)) s = .next u ∧ u.fle = { s.fle with sessions := tblSet s.fle.sessions k { c with trying := false, closedAt := max s.now t, ref := none } } ∧ u.reqs = (completeOpt s c.ref stRejectAuth (0x04E0 + n)).reqs ∧ BlocksOnly s u [.hlm, .jrn] ∧ u = { advance s t with regs := u.regs, fle := u.fle, reqs := u.reqs, till := u.till, log := u.log, mem := u.mem, extMem := u.extMem }) ∧
  (∀ (s : State) (t : Fc) (k : Fin 32) (c : Session) (x : Cert),
      s.fabric = true →
      tblGet? s.fle.sessions k = some c →
      rbit s R.FLE_CTRL_EN = true →
      c.isOpen = false →
      c.trying = true →
      slotHeld (advance s t) k = false →
      certError (advance s t) x = none →
      x.pitch ≠ c.pitch →
      ∃ u, exec (.sessionHandshake t k (some x)) s = .next u ∧ u.fle = { s.fle with sessions := tblSet s.fle.sessions k { c with trying := false, closedAt := max s.now t, ref := none } } ∧ u.reqs = (completeOpt s c.ref stRejectAuth (0x04E0 + 4)).reqs ∧ BlocksOnly s u [.hlm, .jrn] ∧ u = { advance s t with regs := u.regs, fle := u.fle, reqs := u.reqs, till := u.till, log := u.log, mem := u.mem, extMem := u.extMem }) ∧
  (∀ (s : State) (t : Fc) (k : Fin 32) (c : Session) (x : Cert),
      s.fabric = true →
      tblGet? s.fle.sessions k = some c →
      rbit s R.FLE_CTRL_EN = true →
      c.isOpen = false →
      certError (advance s t) x = none →
      x.pitch = c.pitch →
      (getMember s x.pitch).evicted = true →
      max s.now t < (getMember s x.pitch).evictAt + rget s R.FLE_TIMERS_EVICT_HOLD_S * 400000000 →
      ∃ u, exec (.sessionHandshake t k (some x)) s = .next u ∧ u.fle = { s.fle with sessions := tblSet s.fle.sessions k { c with trying := false, closedAt := max s.now t } } ∧ BlocksOnly s u [.hlm, .jrn] ∧ u = { advance s t with regs := u.regs, fle := u.fle, log := u.log, mem := u.mem, extMem := u.extMem }) ∧
  (∀ (s : State) (t : Fc) (k : Fin 32) (c : Session),
      s.fabric = true →
      tblGet? s.fle.sessions k = some c →
      rbit s R.FLE_CTRL_EN = true →
      c.isOpen = false →
      slotHeld (advance s t) k = false →
      c.closedAt + rval s R.FLE_TIMERS_RETRY_S * 400000000 ≤ max s.now t →
      exec (.sessionRetry t k) s = .next ({ advance s t with fle := { s.fle with sessions := tblSet s.fle.sessions k { c with trying := true } } })) ∧
  (∀ (s : State) (t : Fc) (k : Fin 32) (c : Session),
      s.fabric = true →
      tblGet? s.fle.sessions k = some c →
      c.isOpen = true →
      c.txAt + 2000000000 ≤ max s.now t →
      c.queue.length < 512 →
      .keepalive ∉ c.queue →
      exec (.keepaliveDue t k) s = .next ({ advance s t with fle := { s.fle with sessions := tblSet s.fle.sessions k { c with queue := c.queue ++ [.keepalive] } } })) ∧
  (∀ (s : State) (t : Fc) (k : Fin 32) (c : Session),
      s.fabric = true →
      tblGet? s.fle.sessions k = some c →
      c.isOpen = true →
      c.rxAt + rval s R.FLE_TIMERS_PEER_TIMEOUT_S * 400000000 ≤ max s.now t →
      ∃ u, exec (.peerTimeout t k) s = .next u ∧ u.fle = { s.fle with sessions := tblSet s.fle.sessions k { c with isOpen := false, trying := false, closedAt := max s.now t, owed := [], queue := [], behind := false, absent := true } } ∧ bitOf (rget u R.FLE_SESSIONS_UP) k = false ∧ BlocksOnly s u [.fle, .hlm, .jrn] ∧ u = { advance s t with regs := u.regs, fle := u.fle, log := u.log, mem := u.mem, extMem := u.extMem }) ∧
  (∀ (s : State) (t : Fc) (k : Fin 32) (c : Session),
      s.fabric = true →
      tblGet? s.fle.sessions k = some c →
      c.isOpen = true →
      c.expires < moduleTime (advance s t) →
      ∃ u, exec (.certExpiry t k) s = .next u ∧ u.fle = { s.fle with sessions := tblSet s.fle.sessions k { c with isOpen := false, trying := false, closedAt := max s.now t, owed := [], queue := [], behind := false, absent := true } } ∧ bitOf (rget u R.FLE_SESSIONS_UP) k = false ∧ BlocksOnly s u [.fle, .hlm, .jrn] ∧ u = { advance s t with regs := u.regs, fle := u.fle, log := u.log, mem := u.mem, extMem := u.extMem }) ∧
  (∀ (s : State) (t : Fc) (k : Fin 32) (c : Session),
      s.fabric = true →
      tblGet? s.fle.sessions k = some c →
      c.isOpen = true →
      c.overRate (max s.now t) = false →
      ∃ u, exec (.byeRx t k) s = .next u ∧ u.fle = { s.fle with sessions := tblSet s.fle.sessions k { c.received (max s.now t) with isOpen := false, trying := false, closedAt := max s.now t, owed := [], queue := [], behind := false } } ∧ bitOf (rget u R.FLE_SESSIONS_UP) k = false ∧ RegsOnly s u [R.FLE_SESSIONS_UP.key 0 0] ∧ u = { advance s t with regs := u.regs, fle := u.fle }) ∧
  (∀ (s : State) (t : Fc) (k : Fin 32) (c : Session),
      s.fabric = true →
      tblGet? s.fle.sessions k = some c →
      c.isOpen = true →
      c.overRate (max s.now t) = false →
      exec (.keepaliveRx t k) s = .next ({ advance s t with fle := { s.fle with sessions := tblSet s.fle.sessions k (c.received (max s.now t)) } })) ∧
  (∀ (s : State) (t : Fc) (k : Fin 32) (c : Session),
      s.fabric = true →
      tblGet? s.fle.sessions k = some c →
      c.isOpen = true →
      max s.now t < c.rateFrom + 400000000 →
      400 ≤ c.rateCount →
      exec (.keepaliveRx t k) s = .next (rinc (advance s t) R.FLE_STRIKES_RATE_DROPS)) ∧
  (∀ (s : State) (t : Fc) (k : Fin 32) (a : Nat),
      s.fabric = true →
      tblGet? s.fle.held k = some a →
      a ≤ max s.now t →
      exec (.evictHoldExpiry t k) s = .next ({ advance s t with fle := { s.fle with held := tblErase s.fle.held k } })) ∧
  (∀ (s : State) (t : Fc) (k : Fin 32) (c : Session),
      s.fabric = true →
      tblGet? s.fle.sessions k = some c →
      c.isOpen = true →
      c.behind = true →
      c.queue = [] →
      c.owed = [] →
      exec (.behindCatchUp t k) s = .next ({ advance s t with fle := { s.fle with sessions := tblSet s.fle.sessions k { c with behind := false, queue := ((List.range 11).map fun i => FleMsg.summary (figuresOf s (99 * i) (min 99 (1024 - 99 * i)))) } } })) ∧
  (∀ (s : State) (t : Fc),
      s.fabric = true →
      s.fle.decayAt + rval s R.FLE_LIMITS_STRIKE_DECAY_S * 400000000 ≤ max s.now t →
      exec (.strikeDecay t) s = .next ({ advance s t with fle := { s.fle with decayAt := max s.now t, members := s.fle.members.map fun p => (p.1, { p.2 with strikes := p.2.strikes - 1 }) } }))

/-- A SUMMARY is answered with every stored delta later than the peer's figure for its author, and own cells that the peer lacks and the store has lost are marked for publication; a CERT_REQ with the certificate. A new certificate is kept and forwarded; one that fails strikes the peer; the strike that reaches STRIKE_MAX evicts it and closes its session with BYE for the hold. A DELTA that passes the checks is merged: a cell whose version is earlier takes the entry and its stamp, every other cell stays; then it is stored and counted. Format failures strike the peer, late stamps the author; an unknown author costs a CERT_REQ; an evicted one, no token or a foreign grid is only counted, and so is a message still on its way when its sender was evicted. A due tile is published, PUB cleared. STATUS later than the last is kept and written to its queue. MEMBER_EVICT and PUBLISH_NOW as R387 says. -/
def Obligations.FleetMessages : Prop :=
  (∀ (s : State) (t : Fc) (k : Fin 32) (c : Session) (figs : List Stamp),
      s.fabric = true →
      tblGet? s.fle.sessions k = some c →
      c.isOpen = true →
      c.overRate (max s.now t) = false →
      figs.find? (fun f => f.a == ownPitch s) = none →
      ∃ u, exec (.summaryRx t k figs) s = .next u ∧ (∃ l : List Delta, tblGet? u.fle.sessions k = some { c.received (max s.now t) with owed := l } ∧ (c.owed = [] → l.Pairwise (fun a b => stampLt ⟨b.t, b.c, b.author⟩ ⟨a.t, a.c, a.author⟩ = false)) ∧
          ∀ d, d ∈ l ↔ d ∈ c.owed ∨ d ∈ s.fle.store ∧ ∃ f ∈ figs, f.a = d.author ∧ stampLt f ⟨d.t, d.c, d.author⟩ = true) ∧
        u.fle = { s.fle with sessions := u.fle.sessions } ∧ u = { advance s t with fle := u.fle }) ∧
  (∀ (s : State) (t : Fc) (k : Fin 32) (c : Session) (figs : List Stamp) (g : Stamp),
      s.fabric = true →
      tblGet? s.fle.sessions k = some c →
      c.isOpen = true →
      c.overRate (max s.now t) = false →
      figs.find? (fun f => f.a == ownPitch s) = some g →
      (∀ x ∈ awayTiles s, lackedCells s g x = []) →
      tblSorted s.sto.cache = true →
      (∀ p ∈ s.sto.cache, tblSorted p.2.tile.vers = true) →
      ∃ u, exec (.summaryRx t k figs) s = .next u ∧ (∃ l : List Delta, tblGet? u.fle.sessions k = some { c.received (max s.now t) with owed := l } ∧ (c.owed = [] → l.Pairwise (fun a b => stampLt ⟨b.t, b.c, b.author⟩ ⟨a.t, a.c, a.author⟩ = false)) ∧
          ∀ d, d ∈ l ↔ d ∈ c.owed ∨ d ∈ s.fle.store ∧ ∃ f ∈ figs, f.a = d.author ∧ stampLt f ⟨d.t, d.c, d.author⟩ = true) ∧
        u.fle = { s.fle with sessions := u.fle.sessions } ∧ u.sto = { s.sto with cache := u.sto.cache } ∧
        (∀ j n, tblGet? s.sto.cache j = some n → ∃ m, tblGet? u.sto.cache j = some m ∧ ∀ i, tileCell m.tile i = tileCell n.tile i ∧ (tileVer m.tile i).stamp = (tileVer n.tile i).stamp ∧
            ((tileVer m.tile i).pub = true ↔ (tileVer n.tile i).pub = true ∨ (n.loading = false ∧ kindShared s (tileKind n.tile.id) = true ∧ (tileVer n.tile i).stamp.a = ownPitch s ∧ (tileVer n.tile i).stamp.t ≠ 0 ∧
              stampLt g (tileVer n.tile i).stamp = true ∧ storeHolds s n.tile.id i (tileVer n.tile i).stamp = false))) ∧ u = { advance s t with fle := u.fle, sto := u.sto }) ∧
  (∀ (s : State) (t : Fc) (k : Fin 32) (c : Session) (raw : List Nat) (p : Nat) (x : Cert),
      s.fabric = true →
      tblGet? s.fle.sessions k = some c →
      c.isOpen = true →
      c.overRate (max s.now t) = false →
      c.queue.length < 512 →
      parseCertReq raw = some p →
      certOf s p = some x →
      exec (.certReqRx t k raw) s = .next ({ advance s t with fle := { s.fle with sessions := tblSet s.fle.sessions k { c.received (max s.now t) with queue := c.queue ++ [.announce x] } } })) ∧
  (∀ (s : State) (t : Fc) (k : Fin 32) (c : Session) (raw : List Nat),
      s.fabric = true →
      tblGet? s.fle.sessions k = some c →
      c.isOpen = true →
      c.overRate (max s.now t) = false →
      (parseCertReq raw).bind (certOf s) = none →
      exec (.certReqRx t k raw) s = .next ({ advance s t with fle := { s.fle with sessions := tblSet s.fle.sessions k (c.received (max s.now t)) } })) ∧
  (∀ (s : State) (t : Fc) (k : Fin 32) (c : Session) (x : Cert),
      s.fabric = true →
      tblGet? s.fle.sessions k = some c →
      c.isOpen = true →
      c.overRate (max s.now t) = false →
      certError (advance s t) x = none →
      (getMember s x.pitch).evicted = false →
      tblSorted s.fle.sessions = true →
      ∃ u, exec (.announceRx t k x) s = .next u ∧ getMember u x.pitch = { getMember s x.pitch with cert := some x } ∧ (∀ p, p ≠ x.pitch → getMember u p = getMember s p) ∧
        (∀ j n, j ≠ k.val → tblGet? s.fle.sessions j = some n → n.isOpen = true → n.queue.length < 512 → (getMember s x.pitch).cert = none → tblGet? u.fle.sessions j = some { n with queue := n.queue ++ [.announce x] }) ∧
        u.reqs = s.reqs ∧ BlocksOnly s u [.fle, .hlm, .jrn] ∧ u = { advance s t with regs := u.regs, fle := u.fle, log := u.log, mem := u.mem, extMem := u.extMem }) ∧
  (∀ (s : State) (t : Fc) (k : Fin 32) (c : Session) (x : Cert),
      s.fabric = true →
      tblGet? s.fle.sessions k = some c →
      c.isOpen = true →
      c.overRate (max s.now t) = false →
      certError (advance s t) x = none →
      (getMember s x.pitch).evicted = true →
      x.serial ≠ (getMember s x.pitch).evictSerial →
      (getMember s x.pitch).evictTime < x.notBefore →
      ∃ u, exec (.announceRx t k x) s = .next u ∧ getMember u x.pitch = { getMember s x.pitch with cert := some x, evicted := false, known := true, strikes := 0 } ∧ (∀ p, p ≠ x.pitch → getMember u p = getMember s p) ∧ u.fle.sessions = tblSet s.fle.sessions k (c.received (max s.now t)) ∧ BlocksOnly s u [.hlm, .jrn] ∧ u = { advance s t with regs := u.regs, fle := u.fle, log := u.log, mem := u.mem, extMem := u.extMem }) ∧
  (∀ (s : State) (t : Fc) (k : Fin 32) (c : Session) (x : Cert) (n : Nat),
      s.fabric = true →
      tblGet? s.fle.sessions k = some c →
      c.isOpen = true →
      c.overRate (max s.now t) = false →
      certError (advance s t) x = some n →
      (getMember s c.pitch).evicted = false →
      (getMember s c.pitch).strikes + 1 < rval s R.FLE_LIMITS_STRIKE_MAX →
      ∃ u, exec (.announceRx t k x) s = .next u ∧ getMember u c.pitch = { getMember s c.pitch with strikes := (getMember s c.pitch).strikes + 1 } ∧ tblGet? u.fle.sessions k = some (c.received (max s.now t)) ∧ rget u R.FLE_STRIKES_STRIKES = satTo R.FLE_STRIKES_STRIKES.width (rget s R.FLE_STRIKES_STRIKES + 1) ∧ RegsOnly s u [R.FLE_STRIKES_STRIKES.key 0 0] ∧ u = { advance s t with regs := u.regs, fle := u.fle }) ∧
  (∀ (s : State) (t : Fc) (k : Fin 32) (c : Session) (x : Cert) (n : Nat),
      s.fabric = true →
      tblGet? s.fle.sessions k = some c →
      c.isOpen = true →
      c.overRate (max s.now t) = false →
      certError (advance s t) x = some n →
      (getMember s c.pitch).evicted = false →
      rval s R.FLE_LIMITS_STRIKE_MAX ≤ (getMember s c.pitch).strikes + 1 →
      tblSorted s.fle.sessions = true →
      ∃ u, exec (.announceRx t k x) s = .next u ∧ (getMember u c.pitch).evicted = true ∧ (getMember u c.pitch).evictAt = max s.now t ∧ tblGet? u.fle.sessions k = some { c.received (max s.now t) with isOpen := false, trying := false, closedAt := max s.now t, owed := [], queue := [.bye], behind := false } ∧ tblGet? u.fle.held k = some (max s.now t + rget s R.FLE_TIMERS_EVICT_HOLD_S * 400000000) ∧
        bitOf (rget u R.FLE_SESSIONS_UP) k = false ∧ rget u R.FLE_STRIKES_STRIKES = satTo R.FLE_STRIKES_STRIKES.width (rget s R.FLE_STRIKES_STRIKES + 1) ∧ BlocksOnly s u [.fle, .hlm, .jrn] ∧ u = { advance s t with regs := u.regs, fle := u.fle, log := u.log, mem := u.mem, extMem := u.extMem }) ∧
  (∀ (s : State) (t : Fc) (k : Fin 32) (c : Session) (raw : List Nat) (sig : Bool),
      s.fabric = true →
      tblGet? s.fle.sessions k = some c →
      c.isOpen = false →
      slotHeld (advance s t) k = true →
      exec (.deltaRx t k raw true sig) s = .next (rinc (advance s t) R.FLE_DROPS_B_UNKNOWN_DROPS)) ∧
  (∀ (s : State) (t : Fc) (k : Fin 32) (c : Session) (raw : List Nat) (d : Delta) (sig : Bool) (j : Nat) (sl : CacheSlot),
      s.fabric = true →
      tblGet? s.fle.sessions k = some c →
      c.isOpen = true →
      c.overRate (max s.now t) = false →
      parseDelta raw = some d →
      d.market = ownMarket s →
      (getMember s d.author).evicted = false →
      ((getMember s d.author).cert.isSome = true ∨ d.author = ownPitch s) →
      sig = true →
      400000000 ≤ levelNow (advance s t) (getMember s d.author) →
      d.t ≤ moduleTime (advance s t) + rval s R.FLE_LIMITS_SKEW_MS * 1000000 →
      d.origin = rget s R.STO_ORIGIN_ID_VALUE →
      d.cellCm = gridCell s →
      kindShared s (tileKind d.tile) = true →
      cacheFind s d.tile = some (j, sl) →
      tblGet? s.sto.cache j = some sl →
      sl.loading = false →
      tblSorted s.sto.cache = true →
      tblSorted sl.tile.cells = true →
      d.cells.any (fun e => stampLt (tileVer sl.tile e.1).stamp (⟨d.t, d.c, d.author⟩ : Stamp)) = true →
      ∃ u, exec (.deltaRx t k raw true sig) s = .next u ∧ (∃ n, tblGet? u.sto.cache j = some n ∧
          (∀ e ∈ d.cells, if stampLt (tileVer sl.tile e.1).stamp (⟨d.t, d.c, d.author⟩ : Stamp) then tileCell n.tile e.1 = e.2 ∧ tileVer n.tile e.1 = ⟨(⟨d.t, d.c, d.author⟩ : Stamp), false⟩
            else tileCell n.tile e.1 = tileCell sl.tile e.1 ∧ tileVer n.tile e.1 = tileVer sl.tile e.1) ∧
          ∀ i, (∀ e ∈ d.cells, e.1 ≠ i) → tileCell n.tile i = tileCell sl.tile i ∧ tileVer n.tile i = tileVer sl.tile i) ∧
        (∀ i, i ≠ j → tblGet? u.sto.cache i = tblGet? s.sto.cache i) ∧ u.fle.store = (s.fle.store ++ [d]).drop (s.fle.store.length + 1 - 65536) ∧
        rget u R.FLE_COUNTS_APPLIED = satTo R.FLE_COUNTS_APPLIED.width (rget s R.FLE_COUNTS_APPLIED + 1) ∧ BlocksOnly s u [.fle, .hlm, .jrn] ∧ u = { advance s t with regs := u.regs, fle := u.fle, sto := u.sto, reqs := u.reqs, till := u.till, log := u.log, mem := u.mem, extMem := u.extMem }) ∧
  (∀ (s : State) (t : Fc) (k : Fin 32) (c : Session) (raw : List Nat) (d : Delta) (sig : Bool) (j : Nat) (sl : CacheSlot),
      s.fabric = true →
      tblGet? s.fle.sessions k = some c →
      c.isOpen = true →
      c.overRate (max s.now t) = false →
      parseDelta raw = some d →
      d.market = ownMarket s →
      (getMember s d.author).evicted = false →
      ((getMember s d.author).cert.isSome = true ∨ d.author = ownPitch s) →
      sig = true →
      400000000 ≤ levelNow (advance s t) (getMember s d.author) →
      d.t ≤ moduleTime (advance s t) + rval s R.FLE_LIMITS_SKEW_MS * 1000000 →
      d.origin = rget s R.STO_ORIGIN_ID_VALUE →
      d.cellCm = gridCell s →
      kindShared s (tileKind d.tile) = true →
      cacheFind s d.tile = some (j, sl) →
      tblGet? s.sto.cache j = some sl →
      sl.loading = false →
      tblSorted s.sto.cache = true →
      tblSorted sl.tile.cells = true →
      d.cells.any (fun e => stampLt (tileVer sl.tile e.1).stamp (⟨d.t, d.c, d.author⟩ : Stamp)) = false →
      ∃ u, exec (.deltaRx t k raw true sig) s = .next u ∧ (∃ n, tblGet? u.sto.cache j = some n ∧ n.tile = sl.tile ∧ n.dirty = sl.dirty) ∧ u.fle.store = s.fle.store ∧ tblGet? u.fle.sessions k = some (c.received (max s.now t)) ∧ u = { advance s t with fle := u.fle, sto := u.sto }) ∧
  (∀ (s : State) (t : Fc) (k : Fin 32) (c : Session) (raw : List Nat) (sig : Bool),
      s.fabric = true →
      tblGet? s.fle.sessions k = some c →
      c.isOpen = true →
      c.overRate (max s.now t) = false →
      parseDelta raw = none →
      (getMember s c.pitch).evicted = false →
      (getMember s c.pitch).strikes + 1 < rval s R.FLE_LIMITS_STRIKE_MAX →
      ∃ u, exec (.deltaRx t k raw true sig) s = .next u ∧ getMember u c.pitch = { getMember s c.pitch with strikes := (getMember s c.pitch).strikes + 1 } ∧ rget u R.FLE_STRIKES_STRIKES = satTo R.FLE_STRIKES_STRIKES.width (rget s R.FLE_STRIKES_STRIKES + 1) ∧ RegsOnly s u [R.FLE_STRIKES_STRIKES.key 0 0] ∧ u = { advance s t with regs := u.regs, fle := u.fle }) ∧
  (∀ (s : State) (t : Fc) (k : Fin 32) (c : Session) (raw : List Nat) (d : Delta) (sig : Bool),
      s.fabric = true →
      tblGet? s.fle.sessions k = some c →
      c.isOpen = true →
      c.overRate (max s.now t) = false →
      parseDelta raw = some d →
      d.market = ownMarket s →
      (getMember s d.author).evicted = true →
      exec (.deltaRx t k raw true sig) s = .next (rinc ({ advance s t with fle := { s.fle with sessions := tblSet s.fle.sessions k (c.received (max s.now t)) } }) R.FLE_DROPS_B_UNKNOWN_DROPS)) ∧
  (∀ (s : State) (t : Fc) (k : Fin 32) (c : Session) (raw : List Nat) (d : Delta) (sig : Bool),
      s.fabric = true →
      tblGet? s.fle.sessions k = some c →
      c.isOpen = true →
      c.overRate (max s.now t) = false →
      parseDelta raw = some d →
      d.market = ownMarket s →
      (getMember s d.author).evicted = false →
      (getMember s d.author).cert = none →
      d.author ≠ ownPitch s →
      c.queue.length < 512 →
      exec (.deltaRx t k raw true sig) s = .next (rinc ({ advance s t with fle := { s.fle with sessions := tblSet s.fle.sessions k { c.received (max s.now t) with queue := c.queue ++ [.certReq d.author] } } }) R.FLE_DROPS_B_UNKNOWN_DROPS)) ∧
  (∀ (s : State) (t : Fc) (k : Fin 32) (c : Session) (raw : List Nat) (d : Delta) (sig : Bool),
      s.fabric = true →
      tblGet? s.fle.sessions k = some c →
      c.isOpen = true →
      c.overRate (max s.now t) = false →
      parseDelta raw = some d →
      d.market = ownMarket s →
      (getMember s d.author).evicted = false →
      ((getMember s d.author).cert.isSome = true ∨ d.author = ownPitch s) →
      sig = true →
      levelNow (advance s t) (getMember s d.author) < 400000000 →
      exec (.deltaRx t k raw true sig) s = .next (rinc ({ advance s t with fle := { s.fle with sessions := tblSet s.fle.sessions k (c.received (max s.now t)) } }) R.FLE_DROPS_A_BUDGET_DROPS)) ∧
  (∀ (s : State) (t : Fc) (k : Fin 32) (c : Session) (raw : List Nat) (d : Delta) (sig : Bool),
      s.fabric = true →
      tblGet? s.fle.sessions k = some c →
      c.isOpen = true →
      c.overRate (max s.now t) = false →
      parseDelta raw = some d →
      d.market = ownMarket s →
      (getMember s d.author).evicted = false →
      ((getMember s d.author).cert.isSome = true ∨ d.author = ownPitch s) →
      sig = true →
      400000000 ≤ levelNow (advance s t) (getMember s d.author) →
      moduleTime (advance s t) + rval s R.FLE_LIMITS_SKEW_MS * 1000000 < d.t →
      (getMember s d.author).strikes + 1 < rval s R.FLE_LIMITS_STRIKE_MAX →
      ∃ u, exec (.deltaRx t k raw true sig) s = .next u ∧ (getMember u d.author).strikes = (getMember s d.author).strikes + 1 ∧ rget u R.FLE_DROPS_A_SKEW_DROPS = satTo R.FLE_DROPS_A_SKEW_DROPS.width (rget s R.FLE_DROPS_A_SKEW_DROPS + 1) ∧ rget u R.FLE_STRIKES_STRIKES = satTo R.FLE_STRIKES_STRIKES.width (rget s R.FLE_STRIKES_STRIKES + 1) ∧ RegsOnly s u [R.FLE_STRIKES_STRIKES.key 0 0, R.FLE_DROPS_A_SKEW_DROPS.key 0 0] ∧ u = { advance s t with regs := u.regs, fle := u.fle }) ∧
  (∀ (s : State) (t : Fc) (k : Fin 32) (c : Session) (raw : List Nat) (d : Delta) (sig : Bool),
      s.fabric = true →
      tblGet? s.fle.sessions k = some c →
      c.isOpen = true →
      c.overRate (max s.now t) = false →
      parseDelta raw = some d →
      d.market = ownMarket s →
      (getMember s d.author).evicted = false →
      ((getMember s d.author).cert.isSome = true ∨ d.author = ownPitch s) →
      sig = true →
      400000000 ≤ levelNow (advance s t) (getMember s d.author) →
      d.t ≤ moduleTime (advance s t) + rval s R.FLE_LIMITS_SKEW_MS * 1000000 →
      d.origin ≠ rget s R.STO_ORIGIN_ID_VALUE →
      ∃ u, exec (.deltaRx t k raw true sig) s = .next u ∧ rget u R.FLE_DROPS_B_UNSHARED_DROPS = satTo R.FLE_DROPS_B_UNSHARED_DROPS.width (rget s R.FLE_DROPS_B_UNSHARED_DROPS + 1) ∧ RegsOnly s u [R.FLE_DROPS_B_UNSHARED_DROPS.key 0 0] ∧ u = { advance s t with regs := u.regs, fle := u.fle }) ∧
  (∀ (s : State) (t : Fc) (k : Fin 32) (c : Session) (raw : List Nat) (m : StatusMsg) (sig : Bool),
      s.fabric = true →
      tblGet? s.fle.sessions k = some c →
      c.isOpen = true →
      c.overRate (max s.now t) = false →
      parseStatus raw = some m →
      m.market = ownMarket s →
      (getMember s m.author).evicted = false →
      ((getMember s m.author).cert.isSome = true ∨ m.author = ownPitch s) →
      sig = true →
      400000000 ≤ levelNow (advance s t) (getMember s m.author) →
      m.time ≤ moduleTime (advance s t) + rval s R.FLE_LIMITS_SKEW_MS * 1000000 →
      (∀ a, (getMember s m.author).lastStatus = some a → a < m.time) →
      queueRoom s queueFle 0 0 = true →
      Memory.wf s.mem = true →
      Memory.wf s.extMem = true →
      tblSorted s.fle.sessions = true →
      (∀ p ∈ s.fle.sessions, p.1 ≠ k.val → p.2.isOpen = true → p.2.queue.length < 512) →
      ∃ u, exec (.statusRx t k raw true sig) s = .next u ∧ (getMember u m.author).lastStatus = some m.time ∧ (getMember u m.author).timeState = m.timeState ∧ (getMember u m.author).offset = (moduleTime (advance s t) : Int) - m.time ∧
        (∀ i < 512, Memory.read (if queueHost s queueFle 0 0 then u.extMem else u.mem) (((queueBase s queueFle 0 0 + 512 * rget s R.FLE_RXQ_WRITE_INDEX) + i) % 2 ^ 64) = (statusBytes (moduleTime (advance s t)) m (rget s R.FLE_RXQ_WRITE_PHASE)).getD i 0) ∧
        (∀ j n, j ≠ k.val → tblGet? s.fle.sessions j = some n → tblGet? u.fle.sessions j = some (if n.isOpen then { n with queue := n.queue ++ [.status m] } else n)) ∧
        RegsOnly s u [R.FLE_RXQ_WRITE_INDEX.key 0 0, R.FLE_RXQ_WRITE_PHASE.key 0 0] ∧ u = { advance s t with regs := u.regs, fle := u.fle, mem := u.mem, extMem := u.extMem }) ∧
  (∀ (s : State) (t : Fc) (k : Fin 32) (c : Session) (raw : List Nat) (m : StatusMsg) (sig : Bool) (a : Nat),
      s.fabric = true →
      tblGet? s.fle.sessions k = some c →
      c.isOpen = true →
      c.overRate (max s.now t) = false →
      parseStatus raw = some m →
      m.market = ownMarket s →
      (getMember s m.author).evicted = false →
      ((getMember s m.author).cert.isSome = true ∨ m.author = ownPitch s) →
      sig = true →
      400000000 ≤ levelNow (advance s t) (getMember s m.author) →
      m.time ≤ moduleTime (advance s t) + rval s R.FLE_LIMITS_SKEW_MS * 1000000 →
      (getMember s m.author).lastStatus = some a →
      m.time ≤ a →
      ∃ u, exec (.statusRx t k raw true sig) s = .next u ∧ (getMember u m.author).lastStatus = some a ∧ tblGet? u.fle.sessions k = some (c.received (max s.now t)) ∧ u = { advance s t with fle := u.fle }) ∧
  (∀ (s : State) (t : Fc) (k : Fin 4096) (c : CacheSlot),
      s.fabric = true →
      tblGet? s.sto.cache k = some c →
      cacheFind s c.tile.id = some (k.val, c) →
      tblSorted s.sto.cache = true →
      tblSorted c.tile.cells = true →
      tblSorted c.tile.vers = true →
      tblSorted c.pubAt = true →
      pubCells c.tile ≠ [] →
      (pubCells c.tile).length ≤ deltaMax (tileKind c.tile.id) →
      (∀ i ∈ pubCells c.tile, i < 16384) →
      pubDue (advance s t) c = true →
      400000000 ≤ levelNow (advance s t) (getMember s (ownPitch s)) →
      ∃ u, exec (.pubDue t k) s = .next u ∧ (∃ n st, tblGet? u.sto.cache k = some n ∧ (∀ i ∈ pubCells c.tile, tileVer n.tile i = ⟨st, false⟩ ∧ tblGet? n.pubAt i = none) ∧ pubCells n.tile = [] ∧ (∀ j, tileCell n.tile j = tileCell c.tile j) ∧ stampLt ⟨s.fle.t, s.fle.c, ownPitch s⟩ st = true ∧
          ∃ d : Delta, u.fle.store = (s.fle.store ++ [d]).drop (s.fle.store.length + 1 - 65536) ∧ d.author = ownPitch s ∧ d.market = ownMarket s ∧ d.tile = c.tile.id ∧ d.t = st.t ∧ d.c = st.c ∧ st.a = d.author ∧
            d.origin = rget s R.STO_ORIGIN_ID_VALUE ∧ d.cellCm = gridCell s ∧ d.cells = ((pubCells c.tile).map fun i => (i, tileCell c.tile i)) ∧ d.sig = ownSignature (deltaBody d)) ∧
        (∀ j, j ≠ k.val → tblGet? u.sto.cache j = tblGet? s.sto.cache j) ∧ rget u R.FLE_COUNTS_PUBLISHED = satTo R.FLE_COUNTS_PUBLISHED.width (rget s R.FLE_COUNTS_PUBLISHED + 1) ∧ BlocksOnly s u [.fle, .hlm, .jrn] ∧ u = { advance s t with regs := u.regs, fle := u.fle, sto := u.sto, reqs := u.reqs, till := u.till, log := u.log, mem := u.mem, extMem := u.extMem }) ∧
  (∀ (s : State) (t : Fc) (r : Ref) (d : Desc) (data : List Nat),
      s.fabric = true →
      heldDesc s r 7 2 = some d →
      due (advance s t) d = true →
      d.word 0x18 % 512 ≤ 256 →
      rbit s R.FLE_CTRL_EN = true →
      (∀ a, s.fle.statusAt = some a → a + 40000000 ≤ max s.now t) →
      tblSorted s.fle.sessions = true →
      ∃ u, exec (.statusPublish t r data) s = .next u ∧ u.fle.statusAt = some (max s.now t) ∧ (∀ j n, tblGet? s.fle.sessions j = some n → n.isOpen = true → n.queue.length < 512 → tblGet? u.fle.sessions j = some { n with queue := n.queue ++ [.status (ownStatus (ownPitch s) (ownMarket s) (moduleTime (advance s t)) (rget s R.NAV_STATE_TIME_STATE) (data.take (d.word 0x18 % 512)))] }) ∧
        u.reqs = (complete (takeReq (advance s t) r) r stDone).reqs ∧ BlocksOnly s u [.fle, .hlm, .jrn] ∧ u = { advance s t with regs := u.regs, fle := u.fle, reqs := u.reqs, till := u.till, log := u.log, mem := u.mem, extMem := u.extMem }) ∧
  (∀ (s : State) (t : Fc) (r : Ref) (d : Desc) (data : List Nat) (a : Nat),
      s.fabric = true →
      heldDesc s r 7 2 = some d →
      due (advance s t) d = true →
      d.word 0x18 % 512 ≤ 256 →
      rbit s R.FLE_CTRL_EN = true →
      s.fle.statusAt = some a →
      max s.now t < a + 40000000 →
      exec (.statusPublish t r data) s = .next (complete (takeReq (advance s t) r) r stRejectBudget 0x03E0)) ∧
  (∀ (s : State) (t : Fc) (r : Ref) (d : Desc),
      s.fabric = true →
      heldDesc s r 7 3 = some d →
      due (advance s t) d = true →
      (d.classWord % 65536) ≤ 1023 →
      rbit s R.FLE_CTRL_EN = true →
      (d.classWord % 65536) ≠ ownPitch s →
      bitOf d.classWord 16 = false →
      (getMember s (d.classWord % 65536)).evicted = false →
      ∃ u, exec (.memberEvict t r) s = .next u ∧ (getMember u (d.classWord % 65536)).evicted = true ∧ (getMember u (d.classWord % 65536)).evictAt = max s.now t ∧ (∀ p, p ≠ (d.classWord % 65536) → getMember u p = getMember s p) ∧ u.reqs = (complete (takeReq (advance s t) r) r stDone).reqs ∧ BlocksOnly s u [.fle, .hlm, .jrn] ∧ u = { advance s t with regs := u.regs, fle := u.fle, reqs := u.reqs, till := u.till, log := u.log, mem := u.mem, extMem := u.extMem }) ∧
  (∀ (s : State) (t : Fc) (r : Ref) (d : Desc),
      s.fabric = true →
      heldDesc s r 7 3 = some d →
      due (advance s t) d = true →
      (d.classWord % 65536) ≤ 1023 →
      rbit s R.FLE_CTRL_EN = true →
      (d.classWord % 65536) ≠ ownPitch s →
      bitOf d.classWord 16 = true →
      ∃ u, exec (.memberEvict t r) s = .next u ∧ (getMember u (d.classWord % 65536)).evicted = false ∧ (getMember u (d.classWord % 65536)).strikes = 0 ∧ u.fle.sessions = s.fle.sessions ∧ u.reqs = (complete (takeReq (advance s t) r) r stDone).reqs ∧ BlocksOnly s u [.hlm, .jrn] ∧ u = { advance s t with regs := u.regs, fle := u.fle, reqs := u.reqs, till := u.till, log := u.log, mem := u.mem, extMem := u.extMem }) ∧
  (∀ (s : State) (t : Fc) (r : Ref) (d : Desc),
      s.fabric = true →
      heldDesc s r 7 3 = some d →
      due (advance s t) d = true →
      (d.classWord % 65536) ≤ 1023 →
      rbit s R.FLE_CTRL_EN = true →
      (d.classWord % 65536) = ownPitch s →
      exec (.memberEvict t r) s = .next (complete (takeReq (advance s t) r) r stRejectState 0x02E1)) ∧
  (∀ (s : State) (t : Fc) (r : Ref) (d : Desc),
      s.fabric = true →
      heldDesc s r 7 4 = some d →
      due (advance s t) d = true →
      rbit s R.FLE_CTRL_EN = true →
      s.fle.pubNow = [] →
      (∀ x ∈ awayTiles s, sharedPubs s x = []) →
      (((s.sto.cache.filter fun p => !p.2.loading).map fun p => p.2.tile).flatMap (sharedPubs s)) = [] →
      exec (.publishNow t r) s = .next (complete (takeReq (advance s t) r) r stDone)) ∧
  (∀ (s : State) (t : Fc) (r : Ref) (d : Desc),
      s.fabric = true →
      heldDesc s r 7 4 = some d →
      due (advance s t) d = true →
      rbit s R.FLE_CTRL_EN = true →
      s.fle.pubNow = [] →
      (∀ x ∈ awayTiles s, sharedPubs s x = []) →
      (((s.sto.cache.filter fun p => !p.2.loading).map fun p => p.2.tile).flatMap (sharedPubs s)) ≠ [] →
      (∀ p ∈ s.sto.cache, cacheFind s p.2.tile.id = some p ∧ tblSorted p.2.tile.vers = true) →
      exec (.publishNow t r) s = .next ({ (takeReq (advance s t) r) with fle := { s.fle with pubNow := [(r, (((s.sto.cache.filter fun p => !p.2.loading).map fun p => p.2.tile).flatMap (sharedPubs s)))] } }))

/-- Of GO, ENTRY_DRAIN_END, SUSPEND_READY, SUSPEND_TIMEOUT, TRIM_ENTER, TRIM_EXIT, WAKE_EVENT, PWR_IGN_OFF, IGN_HIGH, BIND_START, BIND_NOW, BIND_TILE_TIMEOUT and TC10_WAKE_RX. GO of an armed module, or with no state the tolerance allows, sets SLEEP_ERR; else fetching stops and the deepest state the tolerance allows is entered, once no fetched descriptor is left or 100 ms have passed, and PARK once software is ready or its wait has run out; an entry that the tolerance no longer allows ends in RUN with SLEEP_ERR 3. GO during bind-off sets SLEEP_ERR 4. In the state the fabric stands still and the host link is down. An enabled source wakes the module: from PARK it runs on with its row counter, from OFF it is reset. IGN low starts the delay of bind-off, IGN high ends it. Bind-off disarms the tick engine, takes the planes to their safe states and goes on by steps; tiles not flushed in time stay dirty. TRIM is entered and left. -/
def Obligations.PowerStates : Prop :=
  (∀ (s : State) (t : Fc) (x : EntryMeas),
      s.fabric = true →
      s.aoc.entry = none →
      tkeArmed s = true →
      exec (.go t x) s = .next (rset (advance s t) R.AOC_PWR_STATE_SLEEP_ERR 1)) ∧
  (∀ (s : State) (t : Fc) (x : EntryMeas),
      s.fabric = true →
      s.aoc.entry = none →
      tkeArmed s = false →
      planeArmed s 0 = false →
      planeArmed s 1 = false →
      rget s R.AOC_WAKE_TOLERANCE_US < 180000 →
      exec (.go t x) s = .next (rset (advance s t) R.AOC_PWR_STATE_SLEEP_ERR 3)) ∧
  (∀ (s : State) (t : Fc) (x : EntryMeas),
      s.fabric = true →
      tkeArmed s = false →
      planeArmed s 0 = false →
      planeArmed s 1 = false →
      binding s = true →
      180000 ≤ rget s R.AOC_WAKE_TOLERANCE_US →
      exec (.go t x) s = .next (rset (advance s t) R.AOC_PWR_STATE_SLEEP_ERR 4)) ∧
  (∀ (s : State) (t : Fc) (x : EntryMeas),
      s.fabric = true →
      s.aoc.entry = none →
      tkeArmed s = false →
      planeArmed s 0 = false →
      planeArmed s 1 = false →
      s.aoc.castFrom = none →
      binding s = false →
      180000 ≤ rget s R.AOC_WAKE_TOLERANCE_US →
      rget s R.AOC_WAKE_TOLERANCE_US < 3500000 →
      exec (.go t x) s = .next ({ advance s t with aoc := { s.aoc with entry := some (2, max s.now t), drained := false, wakes := [], suspendAt := some (max s.now t), ready := false, warmWake := false } })) ∧
  (∀ (s : State) (t : Fc) (x : EntryMeas),
      s.fabric = true →
      s.aoc.entry = none →
      tkeArmed s = false →
      planeArmed s 0 = false →
      planeArmed s 1 = false →
      s.aoc.castFrom = none →
      binding s = false →
      3500000 ≤ rget s R.AOC_WAKE_TOLERANCE_US →
      rget s R.AOC_WAKE_TOLERANCE_US < 8000000 →
      fetchedLeft s = false →
      rbit s R.HLK_STATUS_LINK_UP = false →
      ∃ u, exec (.go t x) s = .next u ∧ u.fabric = false ∧ u.aoc = { s.aoc with power := 3, entry := none, drained := false, suspendAt := none, ready := false, ignOff := none, ignBack := false, parkedAt := max s.now t, wakes := [], warmWake := false } ∧ u.nav.saved.isSome = true ∧ rget u R.PNL_STATUS_BLANKED 0 = 1 ∧ rget u R.PNL_STATUS_BLANKED 1 = 1 ∧ BlocksOnly s u [.aoc, .pnl] ∧ u = { advance s t with regs := u.regs, aoc := u.aoc, nav := u.nav, pnl := u.pnl, hlm := u.hlm, fabric := u.fabric }) ∧
  (∀ (s : State) (t : Fc) (x : EntryMeas),
      s.fabric = true →
      s.aoc.entry = none →
      tkeArmed s = false →
      planeArmed s 0 = false →
      planeArmed s 1 = false →
      s.aoc.castFrom = none →
      binding s = false →
      3500000 ≤ rget s R.AOC_WAKE_TOLERANCE_US →
      rget s R.AOC_WAKE_TOLERANCE_US < 8000000 →
      fetchedLeft s = false →
      ∃ u, exec (.go t x) s = .next u ∧ u.fabric = false ∧ u.aoc.power = 3 ∧ rbit u R.HLK_STATUS_LINK_UP = false) ∧
  (∀ (s : State) (t : Fc) (x : EntryMeas),
      s.fabric = true →
      s.aoc.entry = none →
      tkeArmed s = false →
      planeArmed s 0 = false →
      planeArmed s 1 = false →
      s.aoc.castFrom = none →
      binding s = false →
      3500000 ≤ rget s R.AOC_WAKE_TOLERANCE_US →
      rget s R.AOC_WAKE_TOLERANCE_US < 8000000 →
      fetchedLeft s = true →
      exec (.go t x) s = .next ({ advance s t with aoc := { s.aoc with entry := some (3, max s.now t), drained := false, wakes := [], suspendAt := none, warmWake := false } })) ∧
  (∀ (s : State) (t : Fc) (x : EntryMeas) (a : Nat) (st : Nat),
      s.fabric = true →
      s.aoc.entry = some (st, a) →
      fetchedLeft s = true →
      max s.now t < a + 40000000 →
      exec (.entryDrainEnd t x) s = .next ((advance s t))) ∧
  (∀ (s : State) (t : Fc) (x : EntryMeas) (a : Nat),
      s.fabric = true →
      s.aoc.entry = some (2, a) →
      s.aoc.drained = false →
      a + 40000000 ≤ max s.now t →
      s.aoc.ready = false →
      s.aoc.warmWake = false →
      s.aoc.suspendAt.isSome = true →
      180000 ≤ rget s R.AOC_WAKE_TOLERANCE_US →
      ∃ u, exec (.entryDrainEnd t x) s = .next u ∧ u.aoc = { s.aoc with drained := true } ∧ u.fabric = true ∧ u.pending = s.pending ∧ u.now = max s.now t) ∧
  (∀ (s : State) (t : Fc) (x : EntryMeas) (a : Nat) (st : Nat),
      s.fabric = true →
      s.aoc.entry = some (st, a) →
      st ≠ 2 →
      entryState s st = some st →
      s.aoc.drained = false →
      a + 40000000 ≤ max s.now t →
      s.aoc.wakes = [] →
      ∃ u, exec (.entryDrainEnd t x) s = .next u ∧ u.fabric = false ∧ u.aoc = { s.aoc with power := st, entry := none, drained := false, suspendAt := none, ready := false, ignOff := none, ignBack := false, parkedAt := max s.now t, wakes := [] } ∧ rbit u R.HLK_STATUS_LINK_UP = false ∧ rget u R.PNL_STATUS_BLANKED 0 = 1 ∧ rget u R.PNL_STATUS_BLANKED 1 = 1 ∧ u.pending = s.pending ∧ u.now = max s.now t) ∧
  (∀ (s : State) (t : Fc) (x : EntryMeas) (a : Nat) (b : Nat),
      s.fabric = true →
      s.aoc.entry = some (2, a) →
      s.aoc.suspendAt = some b →
      (s.aoc.drained = true ∨ fetchedLeft s = false) →
      entryState s 2 = some 2 →
      s.aoc.wakes = [] →
      ∃ u, exec (.suspendReady t x) s = .next u ∧ u.fabric = false ∧ u.aoc = { s.aoc with power := 2, entry := none, drained := false, suspendAt := none, ready := false, ignOff := none, ignBack := false, parkedAt := max s.now t, wakes := [] } ∧ u.nav.saved.isSome = true ∧ rbit u R.HLK_STATUS_LINK_UP = false ∧ rowNow u = rowNow s ∧ u.pending = s.pending ∧ u.now = max s.now t) ∧
  (∀ (s : State) (t : Fc) (x : EntryMeas) (a : Nat) (b st : Nat),
      s.fabric = true →
      s.aoc.entry = some (st, a) →
      s.aoc.suspendAt = some b →
      (s.aoc.drained = true ∨ fetchedLeft s = false) →
      rget s R.AOC_WAKE_TOLERANCE_US < 180000 →
      binding s = false →
      exec (.suspendReady t x) s = .next (rset ({ advance s t with aoc := { s.aoc with entry := none, drained := false, suspendAt := none, ready := false, warmWake := false, wakes := [] } }) R.AOC_PWR_STATE_SLEEP_ERR 3)) ∧
  (∀ (s : State) (t : Fc) (x : EntryMeas) (a : Nat) (b : Nat),
      s.fabric = true →
      s.aoc.entry = some (2, a) →
      s.aoc.suspendAt = some b →
      s.aoc.drained = false →
      fetchedLeft s = true →
      exec (.suspendReady t x) s = .next ({ advance s t with aoc := { s.aoc with ready := true } })) ∧
  (∀ (s : State) (t : Fc) (x : EntryMeas) (a : Nat) (b st : Nat),
      s.fabric = true →
      s.aoc.entry = some (st, b) →
      s.aoc.suspendAt = some a →
      s.aoc.ready = false →
      s.aoc.warmWake = false →
      a + rval s R.AOC_PARK_CFG_SUSPEND_S * 400000000 ≤ max s.now t →
      fetchedLeft s = true →
      s.aoc.drained = false →
      ∃ u, exec (.suspendTimeout t x) s = .next u ∧ u.aoc = { s.aoc with warmWake := true } ∧ rget u R.AOC_PWR_STATE_SUSPEND_TIMEOUT % 2 = 1 ∧ u.reqs = s.reqs ∧ BlocksOnly s u [.aoc, .hlm, .jrn] ∧ u = { advance s t with regs := u.regs, onesAt := u.onesAt, aoc := u.aoc, log := u.log, mem := u.mem, extMem := u.extMem }) ∧
  (∀ (s : State) (t : Fc) (x : EntryMeas) (a : Nat) (b : Nat),
      s.fabric = true →
      s.aoc.entry = some (2, b) →
      s.aoc.suspendAt = some a →
      s.aoc.ready = false →
      s.aoc.warmWake = false →
      a + rval s R.AOC_PARK_CFG_SUSPEND_S * 400000000 ≤ max s.now t →
      (s.aoc.drained = true ∨ fetchedLeft s = false) →
      entryState s 2 = some 2 →
      s.aoc.wakes = [] →
      ∃ u, exec (.suspendTimeout t x) s = .next u ∧ u.fabric = false ∧ u.aoc = { s.aoc with power := 2, entry := none, drained := false, suspendAt := none, ready := false, ignOff := none, ignBack := false, parkedAt := max s.now t, wakes := [], warmWake := true } ∧ rget u R.AOC_PWR_STATE_SUSPEND_TIMEOUT % 2 = 1 ∧ u.pending = s.pending ∧ u.now = max s.now t) ∧
  (∀ (s : State) (t : Fc),
      s.fabric = true →
      s.aoc.entry = none →
      s.aoc.power = 0 →
      50 ≤ rget s R.AOC_WAKE_TOLERANCE_US →
      exec (.trimEnter t) s = .next ({ advance s t with aoc := { s.aoc with power := 1 } })) ∧
  (∀ (s : State) (t : Fc),
      s.fabric = true →
      s.aoc.power = 1 →
      exec (.trimExit t) s = .next (rset ({ advance s t with aoc := { s.aoc with power := 0 } }) R.AOC_PWR_STATE_LAST 1)) ∧
  (∀ (s : State) (t : Fc) (m : Fin 64),
      s.aoc.entry = none →
      s.aoc.power = 2 →
      s.aoc.warmWake = false →
      wakeMask (advance s t) 2 m ≠ 0 →
      ∃ u, exec (.wakeEvent t m) s = .next u ∧ u.fabric = true ∧ u.aoc = { s.aoc with power := 0, wdogAt := max s.now t } ∧ rowNow u = rowNow s ∧ u.tke.rowStart = max s.now t ∧ rget u R.AOC_PWR_STATE_LAST = 2 ∧ u.reqs = s.reqs ∧ BlocksOnly s u [.aoc, .nav, .pnl, .hlm, .jrn] ∧ u = { advance s t with regs := u.regs, rolLatch := u.rolLatch, fabric := u.fabric, aoc := u.aoc, hlm := u.hlm, tke := u.tke, pnl := u.pnl, log := u.log, mem := u.mem, extMem := u.extMem }) ∧
  (∀ (s : State) (t : Fc) (m : Fin 64) (st a : Nat),
      s.aoc.entry = some (st, a) →
      exec (.wakeEvent t m) s = .next ({ advance s t with aoc := { s.aoc with wakes := s.aoc.wakes ++ (List.range 6).filter fun k => bitOf (wakeMask (advance s t) st m) k && !s.aoc.wakes.contains k } })) ∧
  (∀ (s : State) (t : Fc) (m : Fin 64),
      s.aoc.entry = none →
      s.aoc.power = 2 →
      s.aoc.warmWake = true →
      wakeMask (advance s t) 2 m ≠ 0 →
      ∃ u, exec (.wakeEvent t m) s = .next u ∧ u.fabric = false ∧ u.aoc.power = 0 ∧ u.aoc.castFrom = some (max s.now t, 8) ∧ rget u R.AOC_CASTON_STAGE = 8 ∧ rget u R.AOC_RESET_CAUSE_KIND = 3 ∧ rget u R.AOC_RESET_CAUSE_SOURCE = 8 ∧ u.reqs = [] ∧ u.pending = s.pending) ∧
  (∀ (s : State) (t : Fc) (m : Fin 64),
      s.aoc.entry = none →
      3 ≤ s.aoc.power →
      s.aoc.power ≤ 4 →
      wakeMask (advance s t) s.aoc.power m ≠ 0 →
      ∃ u, exec (.wakeEvent t m) s = .next u ∧ u.fabric = false ∧ u.aoc.power = 0 ∧ u.aoc.castFrom = some (max s.now t, 1) ∧ rget u R.AOC_CASTON_STAGE = 1 ∧ rget u R.AOC_RESET_CAUSE_KIND = 1 ∧ rget u R.AOC_RESET_CAUSE_SOURCE = s.aoc.power + 1 ∧ u.reqs = [] ∧ u.pending = s.pending) ∧
  (∀ (s : State) (t : Fc) (m : Fin 64),
      s.aoc.entry = none →
      2 ≤ s.aoc.power →
      wakeMask (advance s t) s.aoc.power m = 0 →
      exec (.wakeEvent t m) s = .next ((advance s t))) ∧
  (∀ (s : State) (t : Fc) (mv : Fin 1024),
      mv.val < 30 →
      s.aoc.power < 2 →
      s.aoc.logic = true →
      s.aoc.ignOff = none →
      binding s = false →
      ∃ u, exec (.pwrIgnOff t mv) s = .next u ∧ u.aoc = { s.aoc with ignOff := some (max s.now t) } ∧ rget u R.AOC_SUPPLY_IGN_100MV = mv ∧ rget u R.AOC_SUPPLY_IGN_LEVEL = 0 ∧ BlocksOnly s u [.aoc, .hlm, .jrn] ∧ u = { advance s t with regs := u.regs, aoc := u.aoc, log := u.log, mem := u.mem, extMem := u.extMem }) ∧
  (∀ (s : State) (t : Fc) (mv : Fin 1024) (a : Nat),
      60 < mv.val →
      s.aoc.power < 2 →
      s.aoc.entry = none →
      binding s = false →
      s.aoc.ignOff = some a →
      ∃ u, exec (.ignHigh t mv) s = .next u ∧ u.aoc = { s.aoc with ignOff := none } ∧ rget u R.AOC_SUPPLY_IGN_100MV = mv ∧ rget u R.AOC_SUPPLY_IGN_LEVEL = 1 ∧ BlocksOnly s u [.aoc, .hlm, .jrn] ∧ u = { advance s t with regs := u.regs, aoc := u.aoc, log := u.log, mem := u.mem, extMem := u.extMem }) ∧
  (∀ (s : State) (t : Fc) (x : EntryMeas) (a : Nat),
      s.fabric = true →
      s.aoc.entry = none →
      binding s = false →
      s.aoc.castFrom = none →
      s.aoc.ignOff = some a →
      a + rval s R.AOC_BIND_CFG_BIND_DELAY_S * 400000000 ≤ max s.now t →
      0 < rval s R.AOC_BIND_CFG_BIND_SAFE_MS →
      ∃ u, exec (.bindStart t x) s = .next u ∧ binding u = true ∧ bindStep u = 2 ∧ u.aoc = { s.aoc with stepAt := max s.now t, ignBack := false, ignOff := none, warmWake := false } ∧ tkeArmed u = false ∧
        (∀ p < 2, planeArmed s p = true → (getPps s p).live = true → ppsLoading s p = false → rbit u R.PPS_STATUS_SAFE_ACTIVE p = true) ∧ u.fabric = true ∧ u.pending = s.pending) ∧
  (∀ (s : State) (t : Fc) (x : EntryMeas),
      s.fabric = true →
      s.aoc.entry = none →
      binding s = false →
      0 < rval s R.AOC_BIND_CFG_BIND_SAFE_MS →
      ∃ u, exec (.bindNow t x) s = .next u ∧ binding u = true ∧ bindStep u = 2 ∧ u.aoc = { s.aoc with stepAt := max s.now t, ignBack := false, ignOff := none, warmWake := false } ∧ tkeArmed u = false ∧
        (∀ p < 2, planeArmed s p = true → (getPps s p).live = true → ppsLoading s p = false → rbit u R.PPS_STATUS_SAFE_ACTIVE p = true) ∧ u.fabric = true ∧ u.pending = s.pending) ∧
  (∀ (s : State) (t : Fc) (x : EntryMeas),
      s.fabric = true →
      binding s = true →
      bindStep s = 4 →
      tilesFlushed s = false →
      exec (.bindStart t x) s = .next ((advance s t))) ∧
  (∀ (s : State) (t : Fc) (x : EntryMeas),
      s.fabric = true →
      s.aoc.entry = none →
      binding s = true →
      bindStep s = 4 →
      tilesFlushed s = false →
      s.aoc.ignBack = false →
      s.aoc.stepAt + rval s R.AOC_BIND_CFG_BIND_TILE_MAX_S * 400000000 ≤ max s.now t →
      ∃ u, exec (.bindTileTimeout t x) s = .next u ∧ bindStep u = 6 ∧ u.aoc = { s.aoc with stepAt := max s.now t, suspendAt := some (max s.now t), ready := false, warmWake := false } ∧ rget u R.AOC_PWR_STATE_BIND_TIMEOUT % 2 = 1 ∧ u.sto = s.sto ∧ u.nav.saved.isSome = true ∧ BlocksOnly s u [.aoc, .fle, .hlm, .jrn] ∧ u = { advance s t with regs := u.regs, onesAt := u.onesAt, aoc := u.aoc, nav := u.nav, fle := u.fle, rtcOff := u.rtcOff, log := u.log, mem := u.mem, extMem := u.extMem }) ∧
  (∀ (s : State) (t : Fc) (p : Fin 4),
      s.fabric = true →
      s.aoc.power < 2 →
      s.aoc.entry = none →
      rbit s R.ETH_CTRL_WAKE_EN p = true →
      rbit s R.ETH_CTRL_EN p = true →
      ∃ u, exec (.tc10WakeRx t p) s = .next u ∧ rget u R.ETH_STATUS_LINK_UP p = 1 ∧ rget u R.ETH_STATUS_ASLEEP p = 0 ∧ BlocksOnly s u [.eth, .hlm, .jrn] ∧ u = { advance s t with regs := u.regs, eth := u.eth, log := u.log, mem := u.mem, extMem := u.extMem })

/-- LOGIC above 8.0 V starts a cast-on; below 12.0 V the APX is throttled. A cast-on whose verification succeeds sets the row counter to 0, starts the tick and waits for the host; one that fails stops at STAGE 0xF with the fabric held. HOST_READY ends it. Power-fail resets everything but the supervisors and output banks, writes no completions and wipes DRAM; a lost AON domain also loses the always-on SRAM. A reset by software needs CONFIRM 0xA5; it and the watchdog (warm, full at the third within 600 s) leave no descriptor outstanding and start the cast-on of their kind. A kick restarts the watchdog. -/
def Obligations.StartingAndReset : Prop :=
  (∀ (s : State) (t : Fc) (mv : Fin 1024),
      s.aoc.logic = true →
      exec (.logicThrottle t mv) s = .next (rsetB (rset (advance s t) R.AOC_SUPPLY_LOGIC_100MV mv) R.AOC_PWR_STATE_THROTTLED (decide (mv.val ≤ 120) || slackLimited s))) ∧
  (∀ (s : State) (t : Fc) (mv : Fin 1024),
      s.aoc.logic = false →
      80 < mv.val →
      s.aoc.kept = true →
      ∃ u, exec (.logicQualified t mv) s = .next u ∧ u.aoc = { s.aoc with logic := true, failAt := none, castFrom := some (max s.now t, 1) } ∧ rget u R.AOC_SUPPLY_LOGIC_100MV = mv ∧ rget u R.AOC_PWR_STATE_THROTTLED = b2n (decide (mv.val ≤ 120) || slackLimited s) ∧ RegsOnly s u [R.AOC_SUPPLY_LOGIC_100MV.key 0 0, R.AOC_PWR_STATE_THROTTLED.key 0 0] ∧ u = { advance s t with regs := u.regs, aoc := u.aoc }) ∧
  (∀ (s : State) (t : Fc) (mv : Fin 1024),
      s.aoc.logic = false →
      80 < mv.val →
      s.aoc.kept = false →
      ∃ u, exec (.logicQualified t mv) s = .next u ∧ u.aoc = { s.aoc with logic := true, failAt := none, castFrom := some (max s.now t, 1) } ∧ rget u R.AOC_WAKE_CAUSE_LOGIC = 1 ∧ BlocksOnly s u [.aoc, .hlm, .jrn] ∧ u = { advance s t with regs := u.regs, aoc := u.aoc, rolLatch := u.rolLatch, log := u.log, mem := u.mem, extMem := u.extMem }) ∧
  (∀ (s : State) (t : Fc) (x : CastIn) (a : Nat),
      s.aoc.castFrom = some (a, 8) →
      s.fabric = false →
      s.aoc.logic = true →
      s.aoc.power = 0 →
      s.upd.revert = false →
      bankBootable s = true →
      s.ksm.unfinished = none →
      rget s R.NAV_STATE_START_KIND ≠ 0 →
      ∃ u, exec (.castOn t x) s = .next u ∧ u.fabric = true ∧ rowNow u = 0 ∧ u.tke.running = true ∧ u.tke.rowStart = max s.now t ∧ rget u R.AOC_CASTON_STAGE = 9 ∧ rget u R.AOC_CASTON_SEAL_USED = 0 ∧ rget u R.STO_LIFE_LINK_UP = 1 ∧ u.sto = { s.sto with castOns := s.sto.castOns + 1, activations := s.sto.activations + (if s.upd.fresh then 1 else 0) } ∧ u.upd = { s.upd with fresh := false } ∧ BlocksOnly s u [.tke, .arb, .aoc, .nav, .sto, .sfe, .hlm, .jrn] ∧ u = { advance s t with regs := u.regs, timeOff := u.timeOff, nav := u.nav, fabric := u.fabric, tke := u.tke, hlm := u.hlm, sto := u.sto, sfe := u.sfe, upd := u.upd, log := u.log, mem := u.mem, extMem := u.extMem }) ∧
  (∀ (s : State) (t : Fc) (x : CastIn) (a : Nat),
      s.aoc.castFrom = some (a, 1) →
      s.fabric = false →
      s.aoc.logic = true →
      s.aoc.power = 0 →
      s.upd.revert = false →
      bankBootable s = true →
      ((if sealHeld s then x.sealOk else x.verifyOk) = true) →
      rbit s R.UPD_STATUS_PENDING = false →
      s.ksm.unfinished = none →
      ∃ u, exec (.castOn t x) s = .next u ∧ u.fabric = true ∧ rowNow u = 0 ∧ u.tke.running = true ∧ u.aoc = { s.aoc with bootSeal := some (rget s R.UPD_STATUS_ACTIVE_BANK) } ∧ rget u R.AOC_CASTON_STAGE = 9 ∧ rget u R.AOC_CASTON_SEAL_USED = b2n (sealHeld s) ∧
        rget u R.STO_LIFE_LINK_UP = 1 ∧ tkeArmed u = tkeArmed s ∧ u.sto = { s.sto with castOns := s.sto.castOns + 1, activations := s.sto.activations + (if s.upd.fresh then 1 else 0) } ∧ u.upd = { s.upd with fresh := false } ∧ BlocksOnly s u [.tke, .arb, .aoc, .ksm, .nav, .sto, .sfe, .hlm, .jrn] ∧ u = { advance s t with regs := u.regs, fabric := u.fabric, tke := u.tke, hlm := u.hlm, timeOff := u.timeOff, nav := u.nav, aoc := u.aoc, sto := u.sto, sfe := u.sfe, upd := u.upd, log := u.log, mem := u.mem, extMem := u.extMem }) ∧
  (∀ (s : State) (t : Fc) (x : CastIn) (a : Nat) (i : Image),
      s.aoc.castFrom = some (a, 1) →
      s.fabric = false →
      s.aoc.logic = true →
      s.aoc.power = 0 →
      s.upd.revert = false →
      bankBootable s = true →
      ((if sealHeld s then x.sealOk else x.verifyOk) = true) →
      rbit s R.UPD_STATUS_PENDING = true →
      x.copyFault = none →
      (getSlot s (pendingSlot s)).image = some i →
      s.ksm.unfinished = none →
      ∃ u, exec (.castOn t x) s = .next u ∧ u.fabric = true ∧ rget u R.UPD_STATUS_ACTIVE_BANK = otherBank s ∧ tblGet? u.upd.banks (otherBank s) = some i ∧ rget u R.UPD_STATUS_PENDING = 0 ∧ rget u R.UPD_STATUS_TRIAL = 1 ∧ u.aoc.bootSeal = some (otherBank s) ∧ u.upd.fresh = false ∧ slotState u (pendingSlot s) = 0 ∧ u.pending = s.pending) ∧
  (∀ (s : State) (t : Fc) (x : CastIn) (a : Nat),
      s.aoc.castFrom = some (a, 8) →
      s.fabric = false →
      s.aoc.logic = true →
      s.aoc.power = 0 →
      s.upd.revert = true →
      s.ksm.unfinished = none →
      ∃ u, exec (.castOn t x) s = .next u ∧ rget u R.UPD_STATUS_ACTIVE_BANK = otherBank s ∧ rget u R.UPD_STATUS_TRIAL = 0 ∧ rget u R.UPD_STATUS_LAST_RESULT = 2 ∧ u.upd.revert = false ∧ u.pending = s.pending) ∧
  (∀ (s : State) (t : Fc) (x : CastIn) (a : Nat),
      s.aoc.castFrom = some (a, 1) →
      s.fabric = false →
      s.aoc.logic = true →
      s.aoc.power = 0 →
      s.upd.revert = false →
      (bankBootable s = false ∨ (if sealHeld s then x.sealOk else x.verifyOk) = false) →
      ∃ u, exec (.castOn t x) s = .next u ∧ u.fabric = false ∧ rget u R.AOC_CASTON_STAGE = 15 ∧ u.aoc = { s.aoc with castFrom := none, bootSeal := none } ∧ u.upd = { s.upd with revert := rbit s R.UPD_STATUS_TRIAL } ∧ BlocksOnly s u [.aoc, .ksm, .sto] ∧ u = { advance s t with regs := u.regs, aoc := u.aoc, upd := u.upd, timeOff := u.timeOff, nav := u.nav }) ∧
  (∀ (s : State) (t : Fc) (a f : Nat),
      s.fabric = true →
      s.aoc.castFrom = some (a, f) →
      rget s R.AOC_CASTON_STAGE = 9 →
      ∃ u, exec (.hostReady t) s = .next u ∧ u.aoc = { s.aoc with castFrom := none, kept := true, ignOff := s.aoc.ignOff.map fun _ => max s.now t } ∧ rget u R.AOC_CASTON_STAGE = 0 ∧ rget u R.AOC_CASTON_LAST_MS = min ((max s.now t - a) / 400000) 65535 ∧ RegsOnly s u [R.AOC_CASTON_STAGE.key 0 0, R.AOC_CASTON_LAST_MS.key 0 0] ∧ u = { advance s t with regs := u.regs, aoc := u.aoc }) ∧
  (∀ (s : State) (t : Fc) (mv : Fin 1024) (n : Nat),
      mv.val < 70 →
      s.aoc.logic = true →
      ∃ u, exec (.powerFail t mv n) s = .next u ∧ u.fabric = false ∧ u.reqs = [] ∧ u.mem = [] ∧ u.aoc.logic = false ∧ u.aoc.failAt = some (max s.now t) ∧ u.aoc.castFrom = none ∧ rget u R.AOC_RESET_CAUSE_KIND = 1 ∧ rget u R.AOC_RESET_CAUSE_SOURCE = 3 ∧ u.pending = s.pending ∧
        (∀ k, keyBlk k ∈ [Blk.dbk, .sbk, .pps].map blkCode → tblGet? u.regs k = tblGet? s.regs k)) ∧
  (∀ (s : State) (t : Fc) (mv : Fin 1024),
      mv.val < 30 →
      ∃ u, exec (.aonLoss t mv) s = .next u ∧ u.fabric = false ∧ u.reqs = [] ∧ u.mem = [] ∧ u.aoc = { Aoc.reset with castFrom := none } ∧ u.nav.saved = none ∧ rget u R.AOC_SUPPLY_LOGIC_100MV = mv ∧ u.pending = s.pending ∧
        (∀ k, keyBlk k ∈ [Blk.dbk, .sbk, .pps].map blkCode → tblGet? u.regs k = tblGet? s.regs k)) ∧
  (∀ (s : State) (t : Fc) (mv : Fin 1024),
      30 ≤ mv.val →
      s.aoc.failAt = none →
      exec (.aonLoss t mv) s = .next ((advance s t))) ∧
  (∀ (s : State) (t : Fc) (k : Fin 4) (w : Bool) (c : Fin 256),
      s.fabric = true →
      c = 0xA5 →
      k ≠ 0 →
      ∃ u, exec (.aocReset t k w c) s = .next u ∧ u.fabric = false ∧ u.reqs = [] ∧ u.aoc.castFrom = some (max s.now t, if k = 3 then 1 else 8) ∧ rget u R.AOC_CASTON_STAGE = (if k = 3 then 1 else 8) ∧ rget u R.AOC_RESET_CAUSE_KIND = 4 - k.val ∧ rget u R.AOC_RESET_CAUSE_SOURCE = 1 ∧
        (k = 3 ∨ (k = 1 ∧ w = true) → u.mem = []) ∧ u.pending = s.pending) ∧
  (∀ (s : State) (t : Fc) (k : Fin 4) (w : Bool) (c : Fin 256),
      s.fabric = true →
      c ≠ 0xA5 →
      exec (.aocReset t k w c) s = .next ((advance s t))) ∧
  (∀ (s : State) (t : Fc),
      s.fabric = true →
      exec (.watchdogKick t) s = .next ({ advance s t with aoc := { s.aoc with wdogAt := max s.now t } })) ∧
  (∀ (s : State) (t : Fc),
      s.fabric = true →
      rget s R.AOC_WDOG_TIMEOUT_MS ≠ 0 →
      s.aoc.wdogAt + rget s R.AOC_WDOG_TIMEOUT_MS * 400000 ≤ max s.now t →
      (s.aoc.wdogTimes.filter fun a => decide (max s.now t < a + 600 * 400000000)).length < 2 →
      ∃ u, exec (.watchdogExpiry t) s = .next u ∧ u.fabric = false ∧ u.reqs = [] ∧ u.aoc.castFrom = some (max s.now t, 8) ∧ rget u R.AOC_RESET_CAUSE_KIND = 3 ∧ rget u R.AOC_RESET_CAUSE_SOURCE = 2 ∧ u.pending = s.pending) ∧
  (∀ (s : State) (t : Fc),
      s.fabric = true →
      rget s R.AOC_WDOG_TIMEOUT_MS ≠ 0 →
      s.aoc.wdogAt + rget s R.AOC_WDOG_TIMEOUT_MS * 400000 ≤ max s.now t →
      2 ≤ (s.aoc.wdogTimes.filter fun a => decide (max s.now t < a + 600 * 400000000)).length →
      ∃ u, exec (.watchdogExpiry t) s = .next u ∧ u.fabric = false ∧ u.reqs = [] ∧ u.mem = [] ∧ u.aoc.castFrom = some (max s.now t, 1) ∧ rget u R.AOC_RESET_CAUSE_KIND = 1 ∧ rget u R.AOC_RESET_CAUSE_SOURCE = 2 ∧ u.pending = s.pending) ∧
  (∀ (s : State) (t : Fc),
      s.fabric = true →
      max s.now t < s.aoc.wdogAt + rget s R.AOC_WDOG_TIMEOUT_MS * 400000 →
      exec (.watchdogExpiry t) s = .next ((advance s t)))

/-- CRED_SET outside its states is REJECT_STATE, with an object that fails its check or is too long REJECT_AUTH; else the object is held and the key flags show it. PUBKEY_GET writes the 97 bytes of the public key, or is refused without a key. LC_CHANGE of an armed plane, of a transition that does not exist, or with a token that does not fit is refused with its code; a permitted one disarms the tick engine, sets the state, counts it, drops the boot seal and, on the way to RETIRED, the credentials, and resets the module with SOURCE 6; one cut short keeps the state and is left for the next cast-on. -/
def Obligations.LifeCycleAndKeys : Prop :=
  (∀ (s : State) (t : Fc) (r : Ref) (d : Desc) (ok : Bool) (cert : Option Cert) (m : Nat) (b : List Nat) (x : Cert),
      s.fabric = true →
      heldDesc s r 0xB 0x82 = some d →
      due (advance s t) d = true →
      (d.classWord % 16) = 0 →
      lcState s ≤ 1 →
      (d.word 0x18 % 65536) ≤ 1024 →
      ok = true →
      cert = some x →
      exec (.credSet t r ok cert m b) s = .next (complete (rset { (takeReq (advance s t) r) with ksm := { s.ksm with memberCert := some { x with der := b.take (d.word 0x18 % 65536) } } } R.KSM_KEYS_MEMBER_CERT 1) r stDone)) ∧
  (∀ (s : State) (t : Fc) (r : Ref) (d : Desc) (ok : Bool) (cert : Option Cert) (m : Nat) (b : List Nat) (x h : Cert),
      s.fabric = true →
      heldDesc s r 0xB 0x82 = some d →
      due (advance s t) d = true →
      (d.classWord % 16) = 0 →
      lcState s = 2 →
      (d.word 0x18 % 65536) ≤ 1024 →
      ok = true →
      cert = some x →
      s.ksm.memberCert = some h →
      s.ksm.root = true →
      x.chains = true →
      x.name.isSome = true →
      x.market = h.market →
      x.pitch = h.pitch →
      exec (.credSet t r ok cert m b) s = .next (complete (rset { (takeReq (advance s t) r) with ksm := { s.ksm with memberCert := some { x with der := b.take (d.word 0x18 % 65536) } } } R.KSM_KEYS_MEMBER_CERT 1) r stDone)) ∧
  (∀ (s : State) (t : Fc) (r : Ref) (d : Desc) (ok : Bool) (cert : Option Cert) (m : Nat) (b : List Nat),
      s.fabric = true →
      heldDesc s r 0xB 0x82 = some d →
      due (advance s t) d = true →
      (d.classWord % 16) = 1 →
      lcState s ≤ 1 →
      (d.word 0x18 % 65536) ≤ 1024 →
      ok = true →
      exec (.credSet t r ok cert m b) s = .next (complete (rset { (takeReq (advance s t) r) with ksm := { s.ksm with root := true, rootMarket := m } } R.KSM_KEYS_ROOT 1) r stDone)) ∧
  (∀ (s : State) (t : Fc) (r : Ref) (d : Desc) (ok : Bool) (cert : Option Cert) (m : Nat) (b : List Nat),
      s.fabric = true →
      heldDesc s r 0xB 0x82 = some d →
      due (advance s t) d = true →
      2 ≤ (d.classWord % 16) →
      (d.classWord % 16) ≤ 5 →
      lcState s ≤ 1 →
      ok = true →
      d.word 0x18 % 65536 = 97 →
      exec (.credSet t r ok cert m b) s = .next (complete (rsetBitAt { (takeReq (advance s t) r) with ksm := { s.ksm with intKeys := tblSet s.ksm.intKeys ((d.classWord % 16) - 1) b } } R.KSM_KEYS_INT_SLOTS ((d.classWord % 16) - 2) true) r stDone)) ∧
  (∀ (s : State) (t : Fc) (r : Ref) (d : Desc) (ok : Bool) (cert : Option Cert) (m : Nat) (b : List Nat),
      s.fabric = true →
      heldDesc s r 0xB 0x82 = some d →
      due (advance s t) d = true →
      (d.classWord % 16) = 6 →
      lcState s = 0 →
      ok = true →
      d.word 0x18 % 65536 = 36 →
      exec (.credSet t r ok cert m b) s = .next (complete { (takeReq (advance s t) r) with ksm := { s.ksm with macs := (List.range 6).map fun p => (b.drop (6 * p)).take 6 } } r stDone)) ∧
  (∀ (s : State) (t : Fc) (r : Ref) (d : Desc) (ok : Bool) (cert : Option Cert) (m : Nat) (b : List Nat),
      s.fabric = true →
      heldDesc s r 0xB 0x82 = some d →
      due (advance s t) d = true →
      (d.classWord % 16) = 0 →
      lcState s = 2 →
      certRenews s cert = false →
      exec (.credSet t r ok cert m b) s = .next (complete (takeReq (advance s t) r) r stRejectAuth 0x0498)) ∧
  (∀ (s : State) (t : Fc) (r : Ref) (d : Desc) (ok : Bool) (cert : Option Cert) (m : Nat) (b : List Nat),
      s.fabric = true →
      heldDesc s r 0xB 0x82 = some d →
      due (advance s t) d = true →
      ((6 < (d.classWord % 16)) ∨ 3 ≤ lcState s ∨ (lcState s = 2 ∧ (d.classWord % 16) ≠ 0)) →
      exec (.credSet t r ok cert m b) s = .next (complete (takeReq (advance s t) r) r stRejectState 0x0298)) ∧
  (∀ (s : State) (t : Fc) (r : Ref) (d : Desc) (ok : Bool) (cert : Option Cert) (m : Nat) (b : List Nat),
      s.fabric = true →
      heldDesc s r 0xB 0x82 = some d →
      due (advance s t) d = true →
      (d.classWord % 16) ≤ 1 →
      lcState s ≤ 1 →
      1024 < (d.word 0x18 % 65536) →
      exec (.credSet t r ok cert m b) s = .next (complete (takeReq (advance s t) r) r stRejectAuth 0x0498)) ∧
  (∀ (s : State) (t : Fc) (r : Ref) (d : Desc) (ok : Bool) (cert : Option Cert) (m : Nat) (b : List Nat),
      s.fabric = true →
      heldDesc s r 0xB 0x82 = some d →
      due (advance s t) d = true →
      (d.classWord % 16) ≤ 5 →
      lcState s ≤ 1 →
      ok = false →
      exec (.credSet t r ok cert m b) s = .next (complete (takeReq (advance s t) r) r stRejectAuth 0x0498)) ∧
  (∀ (s : State) (t : Fc) (r : Ref) (d : Desc),
      s.fabric = true →
      heldDesc s r 0xB 0x81 = some d →
      due (advance s t) d = true →
      rbit s R.KSM_KEYS_DEVICE_KEY = true →
      Memory.wf s.mem = true →
      Memory.wf s.extMem = true →
      ∃ u, exec (.pubkeyGet t r) s = .next u ∧ (∀ k < 97, Memory.read (if refHost s r then u.extMem else u.mem) ((d.quad 0x10 + k) % 2 ^ 64) = BitVec.ofNat 8 (Config.devicePublicKey k)) ∧ u.reqs = (complete (takeReq (advance s t) r) r stDone).reqs ∧ u = { advance s t with mem := u.mem, extMem := u.extMem, reqs := u.reqs, till := u.till }) ∧
  (∀ (s : State) (t : Fc) (r : Ref) (d : Desc),
      s.fabric = true →
      heldDesc s r 0xB 0x81 = some d →
      due (advance s t) d = true →
      rbit s R.KSM_KEYS_DEVICE_KEY = false →
      exec (.pubkeyGet t r) s = .next (complete (takeReq (advance s t) r) r stRejectState 0x0298)) ∧
  (∀ (s : State) (t : Fc) (r : Ref) (d : Desc) (tok : List Nat) (sig cut : Bool),
      s.fabric = true →
      heldDesc s r 0xB 0x80 = some d →
      due (advance s t) d = true →
      (planeArmed s 0 = true ∨ planeArmed s 1 = true) →
      exec (.lcChange t r tok sig cut) s = .next (complete (takeReq (advance s t) r) r stRejectState 0x0290)) ∧
  (∀ (s : State) (t : Fc) (r : Ref) (d : Desc) (tok : List Nat) (sig cut : Bool),
      s.fabric = true →
      heldDesc s r 0xB 0x80 = some d →
      due (advance s t) d = true →
      planeArmed s 0 = false →
      planeArmed s 1 = false →
      transitionOk s (d.classWord % 8) = false →
      exec (.lcChange t r tok sig cut) s = .next (complete (takeReq (advance s t) r) r stRejectState 0x0291)) ∧
  (∀ (s : State) (t : Fc) (r : Ref) (d : Desc) (tok : List Nat) (sig cut : Bool),
      s.fabric = true →
      heldDesc s r 0xB 0x80 = some d →
      due (advance s t) d = true →
      planeArmed s 0 = false →
      planeArmed s 1 = false →
      transitionOk s (d.classWord % 8) = true →
      tokenOk s (d.classWord % 8) tok (sig && d.quad 0x10 != 0) = false →
      exec (.lcChange t r tok sig cut) s = .next (complete (takeReq (advance s t) r) r stRejectAuth 0x0490)) ∧
  (∀ (s : State) (t : Fc) (r : Ref) (d : Desc) (tok : List Nat) (sig cut : Bool),
      s.fabric = true →
      heldDesc s r 0xB 0x80 = some d →
      due (advance s t) d = true →
      planeArmed s 0 = false →
      planeArmed s 1 = false →
      transitionOk s (d.classWord % 8) = true →
      tokenOk s (d.classWord % 8) tok (sig && d.quad 0x10 != 0) = true →
      cut = false →
      ∃ u, exec (.lcChange t r tok sig cut) s = .next u ∧ lcState u = (d.classWord % 8) ∧ rget u R.KSM_LC_TRANSITIONS = satTo R.KSM_LC_TRANSITIONS.width (rget s R.KSM_LC_TRANSITIONS + 1) ∧ u.aoc.bootSeal = none ∧ u.fabric = false ∧ u.reqs = [] ∧ u.mem = [] ∧ u.aoc.castFrom = some (max s.now t, 1) ∧ rget u R.AOC_RESET_CAUSE_SOURCE = 6 ∧ u.pending = s.pending ∧
        ((d.classWord % 8) = 4 → u.ksm.memberCert = none ∧ u.ksm.root = false ∧ u.ksm.intKeys = []) ∧ ((d.classWord % 8) = 3 → rget u R.KSM_LC_SEALED = 1) ∧ (lcState s = 3 → (d.classWord % 8) = 2 → rget u R.KSM_LC_SEALED = 0)) ∧
  (∀ (s : State) (t : Fc) (r : Ref) (d : Desc) (tok : List Nat) (sig cut : Bool),
      s.fabric = true →
      heldDesc s r 0xB 0x80 = some d →
      due (advance s t) d = true →
      planeArmed s 0 = false →
      planeArmed s 1 = false →
      transitionOk s (d.classWord % 8) = true →
      tokenOk s (d.classWord % 8) tok (sig && d.quad 0x10 != 0) = true →
      cut = true →
      ∃ u, exec (.lcChange t r tok sig cut) s = .next u ∧ u.ksm = { s.ksm with unfinished := some (lcState s, (d.classWord % 8)) } ∧ lcState u = lcState s ∧ tkeArmed u = false ∧ u.reqs = (takeReq (advance s t) r).reqs ∧ BlocksOnly s u [.tke] ∧ u.tke = { s.tke with disarmAt := u.tke.disarmAt, disarmLast := u.tke.disarmLast } ∧ u.xlk = { s.xlk with swDisarmed := true } ∧ u = { advance s t with regs := u.regs, ksm := u.ksm, xlk := u.xlk, tke := u.tke, reqs := u.reqs })

/-- UPD_OPEN with a correct header opens its slot with every block missing; a bad header, a BOUND slot or the wrong life-cycle state is refused. UPD_BLOCK adds a block whose tag verifies; one already held is DONE with DETAIL 1. UPD_CLOSE verifies once every block is held; the verdict closes the slot or is refused with its code. ACTIVATE copies the image in the background or leaves it pending; a short hold window refuses it and is shown. The copy prepares the other bank; the activation reset makes it the active one, on trial. CONFIRM ends the trial and advances the counter. PPS_APPLY reloads a supervisor, which starts anew with HIGHEST and ARMED kept. UPD_CANCEL empties a slot that is not BOUND. -/
def Obligations.FirmwareUpdate : Prop :=
  (∀ (s : State) (t : Fc) (r : Ref) (d : Desc) (h : List Nat),
      s.fabric = true →
      heldDesc s r 9 1 = some d →
      due (advance s t) d = true →
      lcState s ≠ 4 →
      lcState s ≠ 0 →
      headerOk h = true →
      slotState s (d.classWord % 2) ≠ 3 →
      ∃ u, exec (.updOpen t r h) s = .next u ∧ getSlot u (d.classWord % 2) = { image := some (headerImage h), held := [], closing := none } ∧ slotState u (d.classWord % 2) = 1 ∧ rget u (if (d.classWord % 2) = 0 then R.UPD_BLOCKS_A_MISSING else R.UPD_BLOCKS_B_MISSING) = (headerImage h).blocks ∧ u.reqs = (complete (completeOpt (takeReq (advance s t) r) (getSlot s (d.classWord % 2)).closing stRejectState 0x0292) r stDone).reqs ∧ RegsOnly s u [Fld.key (if (d.classWord % 2) = 0 then R.UPD_STATUS_SLOT_A else R.UPD_STATUS_SLOT_B) 0 0, Fld.key (if (d.classWord % 2) = 0 then R.UPD_BLOCKS_A_MISSING else R.UPD_BLOCKS_B_MISSING) 0 0] ∧ u = { advance s t with regs := u.regs, upd := u.upd, reqs := u.reqs, till := u.till }) ∧
  (∀ (s : State) (t : Fc) (r : Ref) (d : Desc) (h : List Nat),
      s.fabric = true →
      heldDesc s r 9 1 = some d →
      due (advance s t) d = true →
      lcState s ≠ 4 →
      lcState s ≠ 0 →
      headerOk h = false →
      exec (.updOpen t r h) s = .next (complete (takeReq (advance s t) r) r stRejectFormat 0x0190)) ∧
  (∀ (s : State) (t : Fc) (r : Ref) (d : Desc) (h : List Nat),
      s.fabric = true →
      heldDesc s r 9 1 = some d →
      due (advance s t) d = true →
      lcState s ≠ 4 →
      lcState s ≠ 0 →
      headerOk h = true →
      slotState s (d.classWord % 2) = 3 →
      exec (.updOpen t r h) s = .next (complete (takeReq (advance s t) r) r stRejectState 0x0292)) ∧
  (∀ (s : State) (t : Fc) (r : Ref) (d : Desc) (h : List Nat),
      s.fabric = true →
      heldDesc s r 9 1 = some d →
      due (advance s t) d = true →
      (lcState s = 4 ∨ lcState s = 0) →
      exec (.updOpen t r h) s = .next (complete (takeReq (advance s t) r) r stRejectState 0x0297)) ∧
  (∀ (s : State) (t : Fc) (r : Ref) (d : Desc) (ok : Bool) (i : Image),
      s.fabric = true →
      heldDesc s r 9 2 = some d →
      due (advance s t) d = true →
      lcState s ≠ 4 →
      storeFirst (advance s t) r = true →
      storeAlone (advance s t) r = true →
      (getSlot s (d.classWord % 2)).image = some i →
      slotState s (d.classWord % 2) = 1 →
      (d.classWord / 256) < i.blocks →
      (d.word 0x18 % 2 ^ 17 = (if (d.classWord / 256) + 1 = i.blocks then i.lastLen else 65536)) →
      (d.classWord / 256) ∉ (getSlot s (d.classWord % 2)).held →
      ok = true →
      i.blocks ≤ 65000 →
      ∃ u, exec (.updBlock t r ok none) s = .next u ∧ getSlot u (d.classWord % 2) = { getSlot s (d.classWord % 2) with held := (d.classWord / 256) :: (getSlot s (d.classWord % 2)).held } ∧ rget u (if (d.classWord % 2) = 0 then R.UPD_BLOCKS_A_MISSING else R.UPD_BLOCKS_B_MISSING) = i.blocks - ((getSlot s (d.classWord % 2)).held.length + 1) ∧ u.reqs = (complete (takeReq (advance s t) r) r stDone).reqs ∧ u.sto = { s.sto with serving := u.sto.serving } ∧ RegsOnly s u [Fld.key (if (d.classWord % 2) = 0 then R.UPD_STATUS_SLOT_A else R.UPD_STATUS_SLOT_B) 0 0, Fld.key (if (d.classWord % 2) = 0 then R.UPD_BLOCKS_A_MISSING else R.UPD_BLOCKS_B_MISSING) 0 0] ∧ u = { advance s t with regs := u.regs, upd := u.upd, sto := u.sto, reqs := u.reqs, till := u.till }) ∧
  (∀ (s : State) (t : Fc) (r : Ref) (d : Desc) (ok : Bool) (i : Image),
      s.fabric = true →
      heldDesc s r 9 2 = some d →
      due (advance s t) d = true →
      lcState s ≠ 4 →
      storeFirst (advance s t) r = true →
      storeAlone (advance s t) r = true →
      (getSlot s (d.classWord % 2)).image = some i →
      slotState s (d.classWord % 2) = 1 →
      (d.classWord / 256) < i.blocks →
      (d.word 0x18 % 2 ^ 17 = (if (d.classWord / 256) + 1 = i.blocks then i.lastLen else 65536)) →
      (d.classWord / 256) ∈ (getSlot s (d.classWord % 2)).held →
      exec (.updBlock t r ok none) s = .next (storeNext (complete (takeReq (advance s t) r) r stDone 1))) ∧
  (∀ (s : State) (t : Fc) (r : Ref) (d : Desc) (ok : Bool) (i : Image),
      s.fabric = true →
      heldDesc s r 9 2 = some d →
      due (advance s t) d = true →
      lcState s ≠ 4 →
      storeFirst (advance s t) r = true →
      storeAlone (advance s t) r = true →
      (getSlot s (d.classWord % 2)).image = some i →
      slotState s (d.classWord % 2) = 1 →
      (d.classWord / 256) < i.blocks →
      (d.word 0x18 % 2 ^ 17 = (if (d.classWord / 256) + 1 = i.blocks then i.lastLen else 65536)) →
      (d.classWord / 256) ∉ (getSlot s (d.classWord % 2)).held →
      ok = false →
      exec (.updBlock t r ok none) s = .next (storeNext (complete (takeReq (advance s t) r) r stRejectAuth 0x0491))) ∧
  (∀ (s : State) (t : Fc) (r : Ref) (d : Desc) (ok : Bool) (i : Image) (a b : Nat),
      s.fabric = true →
      heldDesc s r 9 2 = some d →
      due (advance s t) d = true →
      lcState s ≠ 4 →
      storeFirst (advance s t) r = true →
      storeAlone (advance s t) r = true →
      (getSlot s (d.classWord % 2)).image = some i →
      slotState s (d.classWord % 2) = 1 →
      (d.classWord / 256) < i.blocks →
      (d.word 0x18 % 2 ^ 17 = (if (d.classWord / 256) + 1 = i.blocks then i.lastLen else 65536)) →
      (d.classWord / 256) ∉ (getSlot s (d.classWord % 2)).held →
      ok = true →
      exec (.updBlock t r ok (some (a, b))) s = .next (storeNext (complete (mediaError (takeReq (advance s t) r) true) r stMediaError (senseDetail a b)))) ∧
  (∀ (s : State) (t : Fc) (r : Ref) (d : Desc) (i : Image),
      s.fabric = true →
      heldDesc s r 9 3 = some d →
      due (advance s t) d = true →
      lcState s ≠ 4 →
      storeFirst (advance s t) r = true →
      (getSlot s (d.classWord % 2)).image = some i →
      slotState s (d.classWord % 2) = 1 →
      (getSlot s (d.classWord % 2)).closing = none →
      i.blocks ≤ (getSlot s (d.classWord % 2)).held.length →
      exec (.updClose t r) s = .next (storeServe { (takeReq (advance s t) r) with upd := { s.upd with slots := tblSet s.upd.slots (d.classWord % 2) { getSlot s (d.classWord % 2) with closing := some r } } })) ∧
  (∀ (s : State) (t : Fc) (r : Ref) (d : Desc) (i : Image),
      s.fabric = true →
      heldDesc s r 9 3 = some d →
      due (advance s t) d = true →
      lcState s ≠ 4 →
      storeFirst (advance s t) r = true →
      (getSlot s (d.classWord % 2)).image = some i →
      slotState s (d.classWord % 2) = 1 →
      (getSlot s (d.classWord % 2)).closing = none →
      (getSlot s (d.classWord % 2)).held.length < i.blocks →
      exec (.updClose t r) s = .next (storeServe (complete (takeReq (advance s t) r) r stRejectState 0x0293))) ∧
  (∀ (s : State) (t : Fc) (k : Fin 2) (ok known : Bool) (q : Ref) (i : Image),
      s.fabric = true →
      storeAlone (advance s t) q = true →
      (getSlot s k).closing = some q →
      (getSlot s k).image = some i →
      ok = true →
      known = true →
      (i.signer = 0 ∨ ((tblGet? s.ksm.intKeys i.signer).isSome = true ∧ ∀ c ∈ i.components, c = 1)) →
      fuseCounter s i.signer ≤ i.svn →
      imageSuits i = true →
      exec (.updCloseDone t k ok known none) s = .next (storeNext (complete (setSlotState { advance s t with upd := { s.upd with slots := tblSet s.upd.slots k { getSlot s k with closing := none } } } k 2) q stDone))) ∧
  (∀ (s : State) (t : Fc) (k : Fin 2) (ok known : Bool) (q : Ref) (i : Image),
      s.fabric = true →
      storeAlone (advance s t) q = true →
      (getSlot s k).closing = some q →
      (getSlot s k).image = some i →
      (ok = false ∨ known = false ∨ (i.signer ≠ 0 ∧ tblGet? s.ksm.intKeys i.signer = none)) →
      exec (.updCloseDone t k ok known none) s = .next (storeNext (complete { advance s t with upd := { s.upd with slots := tblSet s.upd.slots k { getSlot s k with closing := none } } } q stRejectAuth 0x0492))) ∧
  (∀ (s : State) (t : Fc) (k : Fin 2) (ok known : Bool) (q : Ref) (i : Image),
      s.fabric = true →
      storeAlone (advance s t) q = true →
      (getSlot s k).closing = some q →
      (getSlot s k).image = some i →
      ok = true →
      known = true →
      (i.signer = 0 ∨ (tblGet? s.ksm.intKeys i.signer).isSome = true) →
      i.svn < fuseCounter s i.signer →
      exec (.updCloseDone t k ok known none) s = .next (storeNext (complete { advance s t with upd := { s.upd with slots := tblSet s.upd.slots k { getSlot s k with closing := none } } } q stRejectAuth 0x0493))) ∧
  (∀ (s : State) (t : Fc) (k : Fin 2) (ok known : Bool) (q : Ref) (i : Image),
      s.fabric = true →
      storeAlone (advance s t) q = true →
      (getSlot s k).closing = some q →
      (getSlot s k).image = some i →
      ok = true →
      known = true →
      i.signer ≠ 0 →
      (tblGet? s.ksm.intKeys i.signer).isSome = true →
      fuseCounter s i.signer ≤ i.svn →
      (∃ c ∈ i.components, c ≠ 1) →
      exec (.updCloseDone t k ok known none) s = .next (storeNext (complete { advance s t with upd := { s.upd with slots := tblSet s.upd.slots k { getSlot s k with closing := none } } } q stRejectAuth 0x0494))) ∧
  (∀ (s : State) (t : Fc) (k : Fin 2) (ok known : Bool) (q : Ref) (i : Image) (a b : Nat),
      s.fabric = true →
      storeAlone (advance s t) q = true →
      (getSlot s k).closing = some q →
      (getSlot s k).image = some i →
      exec (.updCloseDone t k ok known (some (a, b))) s = .next (storeNext (complete (mediaError { advance s t with upd := { s.upd with slots := tblSet s.upd.slots k { getSlot s k with closing := none } } } false) q stMediaError (senseDetail a b)))) ∧
  (∀ (s : State) (t : Fc) (r : Ref) (d : Desc),
      s.fabric = true →
      heldDesc s r 9 4 = some d →
      due (advance s t) d = true →
      lcState s ≠ 4 →
      slotState s (d.classWord % 2) = 2 →
      rbit s R.UPD_STATUS_TRIAL = false →
      slotState s (1 - (d.classWord % 2)) ≠ 3 →
      bitOf d.classWord 1 = false →
      (commanding s = false ∨ bitOf d.classWord 2 = true ∨ shortHold s = none) →
      ∃ u, exec (.activate t r) s = .next u ∧ u.upd = { s.upd with copying := some (r, (d.classWord % 2)) } ∧ slotState u (d.classWord % 2) = 3 ∧ u.reqs = (takeReq (advance s t) r).reqs ∧ RegsOnly s u [Fld.key (if (d.classWord % 2) = 0 then R.UPD_STATUS_SLOT_A else R.UPD_STATUS_SLOT_B) 0 0, Fld.key (if (d.classWord % 2) = 0 then R.UPD_BLOCKS_A_MISSING else R.UPD_BLOCKS_B_MISSING) 0 0] ∧ u = { advance s t with regs := u.regs, upd := u.upd, reqs := u.reqs }) ∧
  (∀ (s : State) (t : Fc) (r : Ref) (d : Desc),
      s.fabric = true →
      heldDesc s r 9 4 = some d →
      due (advance s t) d = true →
      lcState s ≠ 4 →
      slotState s (d.classWord % 2) = 2 →
      rbit s R.UPD_STATUS_TRIAL = false →
      slotState s (1 - (d.classWord % 2)) ≠ 3 →
      bitOf d.classWord 1 = true →
      ∃ u, exec (.activate t r) s = .next u ∧ rget u R.UPD_STATUS_PENDING = 1 ∧ slotState u (d.classWord % 2) = 3 ∧ u.upd = s.upd ∧ u.reqs = (complete (takeReq (advance s t) r) r stDone).reqs ∧ RegsOnly s u [Fld.key (if (d.classWord % 2) = 0 then R.UPD_STATUS_SLOT_A else R.UPD_STATUS_SLOT_B) 0 0, R.UPD_STATUS_PENDING.key 0 0] ∧ u = { advance s t with regs := u.regs, reqs := u.reqs, till := u.till }) ∧
  (∀ (s : State) (t : Fc) (r : Ref) (d : Desc) (j n : Nat),
      s.fabric = true →
      heldDesc s r 9 4 = some d →
      due (advance s t) d = true →
      lcState s ≠ 4 →
      slotState s (d.classWord % 2) = 2 →
      rbit s R.UPD_STATUS_TRIAL = false →
      slotState s (1 - (d.classWord % 2)) ≠ 3 →
      bitOf d.classWord 1 = false →
      bitOf d.classWord 2 = false →
      commanding s = true →
      shortHold s = some (j, n) →
      exec (.activate t r) s = .next (complete (rset (rset (takeReq (advance s t) r) R.UPD_STATUS_SHORT_KIND j) R.UPD_STATUS_SHORT_CH n) r stRejectState 0x0295)) ∧
  (∀ (s : State) (t : Fc) (r : Ref) (d : Desc),
      s.fabric = true →
      heldDesc s r 9 4 = some d →
      due (advance s t) d = true →
      lcState s ≠ 4 →
      slotState s (d.classWord % 2) = 2 →
      rbit s R.UPD_STATUS_TRIAL = true →
      exec (.activate t r) s = .next (complete (takeReq (advance s t) r) r stRejectState 0x0294)) ∧
  (∀ (s : State) (t : Fc) (q : Ref) (k : Nat) (i : Image),
      s.fabric = true →
      s.upd.copying = some (q, k) →
      (getSlot s k).image = some i →
      s.upd.resetAfter = none →
      exec (.activateCopyDone t none) s = .next ({ advance s t with upd := { s.upd with banks := tblSet s.upd.banks (otherBank s) i, resetAfter := some (rowNow s) }, aoc := { s.aoc with bootSeal := some (otherBank s) } })) ∧
  (∀ (s : State) (t : Fc) (q : Ref) (k : Nat) (i : Image) (w : Bool) (a b : Nat),
      s.fabric = true →
      s.upd.copying = some (q, k) →
      (getSlot s k).image = some i →
      s.upd.resetAfter = none →
      ∃ u, exec (.activateCopyDone t (some (w, a, b))) s = .next u ∧ u.upd = { s.upd with copying := none, banks := tblErase s.upd.banks (otherBank s) } ∧ rget u R.UPD_STATUS_LAST_RESULT = 3 ∧ slotState u k = 2 ∧ u.reqs = (complete s q stMediaError (senseDetail a b)).reqs ∧ (w = true → rget u R.STO_MEDIA_ERRS_WRITE = satTo R.STO_MEDIA_ERRS_WRITE.width (rget s R.STO_MEDIA_ERRS_WRITE + 1)) ∧ (w = false → rget u R.STO_MEDIA_ERRS_READ = satTo R.STO_MEDIA_ERRS_READ.width (rget s R.STO_MEDIA_ERRS_READ + 1)) ∧ BlocksOnly s u [.upd, .sto, .hlm, .jrn] ∧ u = { advance s t with regs := u.regs, upd := u.upd, reqs := u.reqs, till := u.till, log := u.log, mem := u.mem, extMem := u.extMem }) ∧
  (∀ (s : State) (t : Fc) (q : Ref) (k n : Nat),
      s.fabric = true →
      s.upd.copying = some (q, k) →
      s.upd.resetAfter = some n →
      rowNow s ≤ n →
      exec (.activationReset t) s = .next ((advance s t))) ∧
  (∀ (s : State) (t : Fc) (q : Ref) (k n : Nat),
      s.fabric = true →
      s.upd.copying = some (q, k) →
      s.upd.resetAfter = some n →
      n < rowNow s →
      s.tke.flushed = true →
      ∃ u, exec (.activationReset t) s = .next u ∧ rget u R.UPD_STATUS_ACTIVE_BANK = otherBank s ∧ rget u R.UPD_STATUS_TRIAL = 1 ∧ slotState u k = 0 ∧ u.upd.copying = none ∧ u.upd.fresh = true ∧ u.fabric = false ∧ u.reqs = [] ∧ rget u R.AOC_CASTON_STAGE = 3 ∧ u.aoc.castFrom = some (max s.now t, 3) ∧ rget u R.AOC_RESET_CAUSE_SOURCE = 7 ∧ u.pending = s.pending) ∧
  (∀ (s : State) (t : Fc) (r : Ref) (d : Desc),
      s.fabric = true →
      heldDesc s r 9 5 = some d →
      due (advance s t) d = true →
      lcState s ≠ 4 →
      rbit s R.UPD_STATUS_TRIAL = true →
      (tblGetD s.upd.banks (rget s R.UPD_STATUS_ACTIVE_BANK) Image.delivered).svn < 128 →
      ∃ u, exec (.confirm t r) s = .next u ∧ rget u R.UPD_STATUS_TRIAL = 0 ∧ rget u (if (tblGetD s.upd.banks (rget s R.UPD_STATUS_ACTIVE_BANK) Image.delivered).signer = 0 then R.UPD_SVN_VENDOR_SVN else R.UPD_SVN_INT_SVN) = max (rget s (if (tblGetD s.upd.banks (rget s R.UPD_STATUS_ACTIVE_BANK) Image.delivered).signer = 0 then R.UPD_SVN_VENDOR_SVN else R.UPD_SVN_INT_SVN)) (tblGetD s.upd.banks (rget s R.UPD_STATUS_ACTIVE_BANK) Image.delivered).svn % 128 ∧ u.reqs = (complete (takeReq (advance s t) r) r stDone).reqs ∧ BlocksOnly s u [.upd, .hlm, .jrn] ∧ u = { advance s t with regs := u.regs, reqs := u.reqs, till := u.till, log := u.log, mem := u.mem, extMem := u.extMem }) ∧
  (∀ (s : State) (t : Fc) (r : Ref) (d : Desc),
      s.fabric = true →
      heldDesc s r 9 5 = some d →
      due (advance s t) d = true →
      lcState s ≠ 4 →
      rbit s R.UPD_STATUS_TRIAL = false →
      exec (.confirm t r) s = .next (complete (takeReq (advance s t) r) r stDone)) ∧
  (∀ (s : State) (t : Fc) (r : Ref) (d : Desc) (v : Nat),
      s.fabric = true →
      heldDesc s r 9 6 = some d →
      due (advance s t) d = true →
      lcState s ≠ 4 →
      rbit s R.PPS_STATUS_SAFE_ACTIVE (d.classWord % 2) = true →
      4 ∈ (tblGetD s.upd.banks (rget s R.UPD_STATUS_ACTIVE_BANK) Image.delivered).components →
      (tkeArmed s = false ∨ planeArmed s (d.classWord % 2) = false) →
      (rbit s R.XLK_PAIR_CFG_PAIR_EN = false ∨ ∀ a, (getPps s (d.classWord % 2)).commitAt = some a → a + 40000000 ≤ max s.now t) →
      ppsLoading s (d.classWord % 2) = false →
      (v % 65536 ≠ rget s (if (d.classWord % 2) = 0 then R.UPD_PPS_PPS_A else R.UPD_PPS_PPS_B)) →
      exec (.ppsApply t r v) s = .next ({ (takeReq (advance s t) r) with upd := { s.upd with applying := tblSet s.upd.applying (d.classWord % 2) (r, v, max s.now t) } })) ∧
  (∀ (s : State) (t : Fc) (r : Ref) (d : Desc) (v : Nat),
      s.fabric = true →
      heldDesc s r 9 6 = some d →
      due (advance s t) d = true →
      lcState s ≠ 4 →
      rbit s R.PPS_STATUS_SAFE_ACTIVE (d.classWord % 2) = true →
      4 ∈ (tblGetD s.upd.banks (rget s R.UPD_STATUS_ACTIVE_BANK) Image.delivered).components →
      tkeArmed s = false →
      rbit s R.XLK_PAIR_CFG_PAIR_EN = false →
      ppsLoading s (d.classWord % 2) = false →
      (v % 65536 = rget s (if (d.classWord % 2) = 0 then R.UPD_PPS_PPS_A else R.UPD_PPS_PPS_B)) →
      exec (.ppsApply t r v) s = .next (complete (takeReq (advance s t) r) r stDone 1)) ∧
  (∀ (s : State) (t : Fc) (r : Ref) (d : Desc) (v : Nat),
      s.fabric = true →
      heldDesc s r 9 6 = some d →
      due (advance s t) d = true →
      lcState s ≠ 4 →
      (rbit s R.PPS_STATUS_SAFE_ACTIVE (d.classWord % 2) = false ∨ 4 ∉ (tblGetD s.upd.banks (rget s R.UPD_STATUS_ACTIVE_BANK) Image.delivered).components) →
      exec (.ppsApply t r v) s = .next (complete (takeReq (advance s t) r) r stRejectState 0x0296)) ∧
  (∀ (s : State) (t : Fc) (p : Fin 2) (q : Ref) (v a : Nat),
      (getPps s p).powered = true →
      tblGet? s.upd.applying p = some (q, v, a) →
      ∃ u, exec (.ppsApplyDone t p) s = .next u ∧ rget u (if p = 0 then R.UPD_PPS_PPS_A else R.UPD_PPS_PPS_B) = v % 65536 ∧ u.upd = { s.upd with applying := tblErase s.upd.applying p } ∧ u.reqs = (if isTaken s q then complete s q stDone else s).reqs ∧ rget u R.PPS_HIGHEST_BID p = rget s R.PPS_HIGHEST_BID p ∧ rget u R.PPS_CTRL_ARMED p = rget s R.PPS_CTRL_ARMED p ∧ (getPps u p).commitAt = none ∧ (getPps u p).live = false ∧ BlocksOnly s u [.pps, .upd, .hlm, .jrn] ∧ u = { advance s t with regs := u.regs, pps := u.pps, upd := u.upd, reqs := u.reqs, till := u.till, log := u.log, mem := u.mem, extMem := u.extMem }) ∧
  (∀ (s : State) (t : Fc) (r : Ref) (d : Desc),
      s.fabric = true →
      heldDesc s r 9 7 = some d →
      due (advance s t) d = true →
      lcState s ≠ 4 →
      slotState s (d.classWord % 2) ≠ 3 →
      ∃ u, exec (.updCancel t r) s = .next u ∧ getSlot u (d.classWord % 2) = UpdSlot.empty ∧ slotState u (d.classWord % 2) = 0 ∧ rget u (if (d.classWord % 2) = 0 then R.UPD_BLOCKS_A_MISSING else R.UPD_BLOCKS_B_MISSING) = 0 ∧ u.reqs = (complete (completeOpt (takeReq (advance s t) r) (getSlot s (d.classWord % 2)).closing stRejectState 0x0292) r stDone).reqs ∧ RegsOnly s u [Fld.key (if (d.classWord % 2) = 0 then R.UPD_STATUS_SLOT_A else R.UPD_STATUS_SLOT_B) 0 0, Fld.key (if (d.classWord % 2) = 0 then R.UPD_BLOCKS_A_MISSING else R.UPD_BLOCKS_B_MISSING) 0 0] ∧ u = { advance s t with regs := u.regs, upd := u.upd, reqs := u.reqs, till := u.till }) ∧
  (∀ (s : State) (t : Fc) (r : Ref) (d : Desc),
      s.fabric = true →
      heldDesc s r 9 7 = some d →
      due (advance s t) d = true →
      lcState s ≠ 4 →
      slotState s (d.classWord % 2) = 3 →
      exec (.updCancel t r) s = .next (complete (takeReq (advance s t) r) r stRejectState 0x0292))

/-- Of CE_WRITEBACK, ECC_UNCORRECTABLE, DARN_READ, SPARE_ROW_SWITCH, TLM_SAMPLE, AGEING_MEASURE, RO_MEASURE, BANK_REPLAN, MARGIN_RESET, BASE_TEMP_SAMPLE and DRAM_TEMP_ABOVE_85C. A corrected error is counted once. An uncorrectable one is counted, latched and reported; read by a row it ends the row, read for a descriptor it completes ECC_FATAL. Darning reads word by word at its pace; a word found CE in two passes running has its row moved to a spare, which the switch completes. A SAMPLE is written every SAMPLE_S. A monitor record is written, and a limit passed is told once. With scaling, FLOOR_MV rises by 10 mV when the least slack is below its target. A lower limit of a drive bank waits until every channel is OFF; MARGIN_RESET restores the ratings, in SERVICE only. The base plate is hot after 10 s above its limit. Above 85 °C the DRAM channels refresh at half the spacing. An event is written to the journal with its time, row and number; beyond 200 a second it is only counted. -/
def Obligations.HealthAndAgeing : Prop :=
  (∀ (s : State) (t : Fc) (w : Nat) (tm : Bool),
      s.fabric = true →
      ceMarked (advance s t) tm w = none →
      exec (.ceWriteback t tm w) s = .next (rinc (advance s t) (if tm then R.HLM_ECC_TM_CE else R.HLM_ECC_DRAM_CE))) ∧
  (∀ (s : State) (t : Fc) (w : Nat) (tm : Bool) (x : Nat × Nat),
      s.fabric = true →
      ceMarked (advance s t) tm w = some x →
      exec (.ceWriteback t tm w) s = .next ({ advance s t with hlm := { s.hlm with cePend := s.hlm.cePend.erase x } })) ∧
  (∀ (s : State) (t : Fc) (tm a : Bool) (y : Fin 128) (x : Nat),
      s.fabric = true →
      ∃ u, exec (.eccUncorrectable t tm a y 3 x none) s = .next u ∧ rget u (ueFld tm) = satTo (ueFld tm).width (rget s (ueFld tm) + 1) ∧ rget u (addrFld tm) = (if a then satTo (addrFld tm).width (rget s (addrFld tm) + 1) else rget s (addrFld tm)) ∧ rget u R.HLM_ECC_LAST_LO_ADDR = x % 2 ^ 32 ∧ rget u R.HLM_ECC_LAST_INFO_SYNDROME = y ∧ u.reqs = s.reqs ∧ u.tke = s.tke ∧ BlocksOnly s u [.hlm, .jrn] ∧ u = { advance s t with regs := u.regs, rolLatch := u.rolLatch, log := u.log, mem := u.mem, extMem := u.extMem }) ∧
  (∀ (s : State) (t : Fc) (tm a : Bool) (y : Fin 128) (x : Nat),
      s.fabric = true →
      s.tke.running = true →
      s.tke.committed = false →
      s.tke.overrun = none →
      ∃ u, exec (.eccUncorrectable t tm a y 0 x none) s = .next u ∧ rget u (ueFld tm) = satTo (ueFld tm).width (rget s (ueFld tm) + 1) ∧ rget u (addrFld tm) = (if a then satTo (addrFld tm).width (rget s (addrFld tm) + 1) else rget s (addrFld tm)) ∧ rget u R.HLM_ECC_LAST_LO_ADDR = x % 2 ^ 32 ∧ rget u R.HLM_ECC_LAST_INFO_SYNDROME = y ∧ u.tke.overrun = some 3 ∧ u.tke.todo = [] ∧ BlocksOnly s u [.hlm, .jrn] ∧ u = { advance s t with regs := u.regs, rolLatch := u.rolLatch, tke := u.tke, log := u.log, mem := u.mem, extMem := u.extMem }) ∧
  (∀ (s : State) (t : Fc) (tm a : Bool) (y : Fin 128) (x : Nat) (r : Ref) (q : Req) (d : Desc),
      s.fabric = true →
      findReq s r = some q →
      q.stage = .held →
      q.desc = some d →
      d.cls = 0xB →
      ∃ u, exec (.eccUncorrectable t tm a y 2 x (some r)) s = .next u ∧ rget u (ueFld tm) = satTo (ueFld tm).width (rget s (ueFld tm) + 1) ∧ rget u (addrFld tm) = (if a then satTo (addrFld tm).width (rget s (addrFld tm) + 1) else rget s (addrFld tm)) ∧ rget u R.HLM_ECC_LAST_LO_ADDR = x % 2 ^ 32 ∧ rget u R.HLM_ECC_LAST_INFO_SYNDROME = y ∧ u.reqs = (complete s r stEccFatal 0).reqs) ∧
  (∀ (s : State) (t : Fc) (y : Fin 128) (tm : Bool),
      s.fabric = true →
      rbit s R.HLM_CTRL_DARN_EN = true →
      (getPass s tm).start + (getPass s tm).pos * passFc s tm / memWords tm ≤ max s.now t →
      (getPass s tm).pos + 1 < memWords tm →
      exec (.darnRead t tm 0 y) s = .next (rset (setPass (advance s t) tm { (getPass s tm) with pos := (getPass s tm).pos + 1 }) (if tm then R.HLM_DARN_STAT_TM_PROGRESS else R.HLM_DARN_STAT_DRAM_PROGRESS) (((getPass s tm).pos + 1) * 1000 / memWords tm % 1000))) ∧
  (∀ (s : State) (t : Fc) (y : Fin 128) (tm : Bool) (c : Fin 4),
      s.fabric = true →
      rbit s R.HLM_CTRL_DARN_EN = false →
      exec (.darnRead t tm c y) s = .next ((advance s t))) ∧
  (∀ (s : State) (t : Fc) (y : Fin 128),
      s.fabric = true →
      rbit s R.HLM_CTRL_DARN_EN = true →
      s.hlm.tm.start + s.hlm.tm.pos * passFc s true / memWords true ≤ max s.now t →
      s.hlm.tm.pos + 1 < memWords true →
      s.hlm.tm.number ≠ 0 →
      tblGet? s.hlm.tm.ce s.hlm.tm.pos = some (s.hlm.tm.number - 1) →
      rowOfWord s.hlm.tm.pos ∉ s.hlm.rowMoves →
      tblGetD s.hlm.spares (bankOfRow (rowOfWord s.hlm.tm.pos)) 0 < 8 →
      ∃ u, exec (.darnRead t true 1 y) s = .next u ∧ u.hlm.rowMoves = s.hlm.rowMoves ++ [rowOfWord s.hlm.tm.pos] ∧ u.hlm.cePend = (s.hlm.cePend.filter fun x => x.1 != ceKey true s.hlm.tm.pos) ++ [(ceKey true s.hlm.tm.pos, max s.now t)] ∧ tblGet? u.hlm.tm.ce s.hlm.tm.pos = some s.hlm.tm.number ∧ u.hlm.tm.pos = s.hlm.tm.pos + 1 ∧ rget u R.HLM_ECC_TM_CE = satTo R.HLM_ECC_TM_CE.width (rget s R.HLM_ECC_TM_CE + 1) ∧ RegsOnly s u [R.HLM_ECC_TM_CE.key 0 0, R.HLM_DARN_STAT_TM_PROGRESS.key 0 0] ∧ u = { advance s t with regs := u.regs, hlm := u.hlm }) ∧
  (∀ (s : State) (t : Fc) (y : Fin 128) (c : Fin 4),
      s.fabric = true →
      rbit s R.HLM_CTRL_DARN_EN = true →
      s.hlm.dram.start + s.hlm.dram.pos * passFc s false / memWords false ≤ max s.now t →
      s.hlm.dram.pos + 1 < memWords false →
      2 ≤ c.val →
      4 * s.hlm.dram.pos / 4096 * 4096 ∉ s.hlm.retired →
      s.hlm.retired.length < 8192 →
      ∃ u, exec (.darnRead t false c y) s = .next u ∧ u.hlm.retired = s.hlm.retired ++ [4 * s.hlm.dram.pos / 4096 * 4096] ∧ rget u R.HLM_REPAIR_DRAM_RETIRED = s.hlm.retired.length + 1 ∧ rget u R.HLM_ECC_LAST_INFO_READER = 4 ∧ rget u R.HLM_ECC_DRAM_UE = satTo R.HLM_ECC_DRAM_UE.width (rget s R.HLM_ECC_DRAM_UE + 1) ∧ BlocksOnly s u [.hlm, .jrn] ∧ u = { advance s t with regs := u.regs, rolLatch := u.rolLatch, hlm := u.hlm, log := u.log, mem := u.mem, extMem := u.extMem }) ∧
  (∀ (s : State) (t : Fc) (y : Fin 128),
      s.fabric = true →
      rbit s R.HLM_CTRL_DARN_EN = true →
      s.hlm.tm.start + s.hlm.tm.pos * passFc s true / memWords true ≤ max s.now t →
      s.hlm.tm.pos + 1 = memWords true →
      max s.now t ≤ s.hlm.tm.start + passFc s true →
      ∃ u, exec (.darnRead t true 0 y) s = .next u ∧ u.hlm.tm.start = s.hlm.tm.start + passFc s true ∧ u.hlm.tm.pos = 0 ∧ u.hlm.tm.number = s.hlm.tm.number + 1 ∧ rget u R.HLM_DARN_PASSES_TM_PASSES = satTo R.HLM_DARN_PASSES_TM_PASSES.width (rget s R.HLM_DARN_PASSES_TM_PASSES + 1) ∧ RegsOnly s u [R.HLM_DARN_PASSES_TM_PASSES.key 0 0, R.HLM_DARN_STAT_TM_PROGRESS.key 0 0] ∧ u = { advance s t with regs := u.regs, hlm := u.hlm }) ∧
  (∀ (s : State) (t : Fc) (w : Fin 16384),
      s.fabric = true →
      w.val ∈ s.hlm.rowMoves →
      ∃ u, exec (.spareRowSwitch t w) s = .next u ∧ u.hlm = { s.hlm with rowMoves := s.hlm.rowMoves.erase w, moved := s.hlm.moved ++ [w.val], spares := tblSet s.hlm.spares (bankOfRow w) (tblGetD s.hlm.spares (bankOfRow w) 0 + 1) } ∧ rget u R.HLM_REPAIR_TM_SPARES_USED = satTo R.HLM_REPAIR_TM_SPARES_USED.width (rget s R.HLM_REPAIR_TM_SPARES_USED + 1) ∧ BlocksOnly s u [.hlm, .jrn] ∧ u = { advance s t with regs := u.regs, hlm := u.hlm, log := u.log, mem := u.mem, extMem := u.extMem }) ∧
  (∀ (s : State) (t : Fc) (a b c : Int),
      s.fabric = true →
      rget s R.HLM_CTRL_SAMPLE_S = 0 →
      exec (.tlmSample t a b c) s = .next ((advance s t))) ∧
  (∀ (s : State) (t : Fc) (a b c : Int),
      s.fabric = true →
      rget s R.HLM_CTRL_SAMPLE_S ≠ 0 →
      passed (advance s t) s.hlm.sampleAt (rget s R.HLM_CTRL_SAMPLE_S * 400000000) = true →
      (s.hlm.lifeTold = true ∨ lifePermille (advance s t) < 1000) →
      rbit s R.HLM_TLM_CFG_ENABLE = true →
      queueRoom s queueTlm 0 0 = true →
      Memory.wf s.mem = true →
      Memory.wf s.extMem = true →
      ∃ u, exec (.tlmSample t a b c) s = .next u ∧ u.hlm = { s.hlm with sampleAt := some (max s.now t) } ∧ rget u R.HLM_LIFE_LIFE_PERMILLE = lifePermille (advance s t) ∧
        (∀ k < 8, Memory.read (if queueHost s queueTlm 0 0 then u.extMem else u.mem) (((queueBase s queueTlm 0 0 + 128 * rget s R.HLM_TLM_WRITE_INDEX) + 16 + k) % 2 ^ 64) = (leBytes 8 (moduleTime (advance s t))).getD k 0) ∧
        RegsOnly s u [R.HLM_LIFE_LIFE_PERMILLE.key 0 0, R.HLM_LIFE_OP_HOURS.key 0 0, R.HLM_TLM_WRITE_INDEX.key 0 0, R.HLM_TLM_WRITE_PHASE.key 0 0] ∧ u = { advance s t with regs := u.regs, hlm := u.hlm, mem := u.mem, extMem := u.extMem }) ∧
  (∀ (s : State) (t : Fc) (a b c : Int),
      s.fabric = true →
      rget s R.HLM_CTRL_SAMPLE_S ≠ 0 →
      passed (advance s t) s.hlm.sampleAt (rget s R.HLM_CTRL_SAMPLE_S * 400000000) = true →
      (s.hlm.lifeTold = true ∨ lifePermille (advance s t) < 1000) →
      rbit s R.HLM_TLM_CFG_ENABLE = true →
      queueRoom s queueTlm 0 0 = false →
      ∃ u, exec (.tlmSample t a b c) s = .next u ∧ u.hlm = { s.hlm with sampleAt := some (max s.now t) } ∧ rget u R.HLM_TLM_DROPS_TLM_DROPS = satTo R.HLM_TLM_DROPS_TLM_DROPS.width (rget s R.HLM_TLM_DROPS_TLM_DROPS + 1) ∧ RegsOnly s u [R.HLM_LIFE_LIFE_PERMILLE.key 0 0, R.HLM_LIFE_OP_HOURS.key 0 0, R.HLM_TLM_DROPS_TLM_DROPS.key 0 0] ∧ u = { advance s t with regs := u.regs, hlm := u.hlm }) ∧
  (∀ (s : State) (t : Fc) (m : AgeMeas),
      s.fabric = true →
      monitorDue (advance s t) m = true →
      overLimit (advance s t) m.kind (monitorValue (advance s t) m) (baselineOf (advance s t) m.kind m.inst m.item) = false →
      ∃ u, exec (.ageingMeasure t m) s = .next u ∧ tblGet? u.hlm.monitor (s.hlm.monitorSeq % 111616) = some (ageBytes (advance s t) (monitorRec (advance s t) m) s.hlm.monitorSeq) ∧ u.hlm.monitorSeq = s.hlm.monitorSeq + 1 ∧ tblGet? u.hlm.ageAt (itemKey m.kind m.inst m.item) = some (max s.now t) ∧ u.hlm.moves = (if m.kind = 9 then tblErase s.hlm.moves m.item else s.hlm.moves) ∧
        (m.kind = 2 → tblGet? u.hlm.hsb m.inst = some ((monitorValue (advance s t) m), (baselineOf (advance s t) m.kind m.inst m.item))) ∧ (m.kind = 6 → tblGet? u.hlm.cap m.inst = some ((monitorValue (advance s t) m), (baselineOf (advance s t) m.kind m.inst m.item))) ∧ u.hlm.told = s.hlm.told ∧ BlocksOnly s u [.hlm, .jrn] ∧ u = { advance s t with regs := u.regs, hlm := u.hlm, log := u.log, mem := u.mem, extMem := u.extMem }) ∧
  (∀ (s : State) (t : Fc) (m : AgeMeas),
      s.fabric = true →
      monitorDue (advance s t) m = true →
      overLimit (advance s t) m.kind (monitorValue (advance s t) m) (baselineOf (advance s t) m.kind m.inst m.item) = true →
      (itemKey m.kind m.inst m.item) ∉ s.hlm.told →
      ∃ u, exec (.ageingMeasure t m) s = .next u ∧ u.hlm.told = s.hlm.told ++ [(itemKey m.kind m.inst m.item)] ∧ u.hlm.monitorSeq = s.hlm.monitorSeq + 1 ∧ tblGet? u.hlm.ageAt (itemKey m.kind m.inst m.item) = some (max s.now t) ∧ u.hlm.moves = (if m.kind = 9 then tblErase s.hlm.moves m.item else s.hlm.moves) ∧
        (m.kind = 2 → tblGet? u.hlm.hsb m.inst = some ((monitorValue (advance s t) m), (baselineOf (advance s t) m.kind m.inst m.item))) ∧ (m.kind = 6 → tblGet? u.hlm.cap m.inst = some ((monitorValue (advance s t) m), (baselineOf (advance s t) m.kind m.inst m.item))) ∧ BlocksOnly s u [.hlm, .jrn] ∧ u = { advance s t with regs := u.regs, hlm := u.hlm, log := u.log, mem := u.mem, extMem := u.extMem }) ∧
  (∀ (s : State) (t : Fc) (m : AgeMeas),
      s.fabric = true →
      monitorDue (advance s t) m = false →
      exec (.ageingMeasure t m) s = .next ((advance s t))) ∧
  (∀ (s : State) (t : Fc) (l : List Int) (o : Nat),
      s.fabric = true →
      passed (advance s t) s.hlm.roAt (600 * 400000000) = true →
      (∀ n < 32, -32768 ≤ l.getD n 0 ∧ l.getD n 0 ≤ 32767) →
      rbit s R.HLM_CTRL_AVS_EN = false →
      l.length = 32 →
      ∃ u, exec (.roMeasure t l o) s = .next u ∧ (∀ n < 32, rgetS u R.HLM_RO_SLACK_PS 0 n = l.getD n 0) ∧ rgetS u R.HLM_SLACK_MIN_SLACK_PS = leastSlack l ∧ u.hlm = { s.hlm with roAt := some (max s.now t) } ∧ BlocksOnly s u [.hlm] ∧ u = { advance s t with regs := u.regs, hlm := u.hlm }) ∧
  (∀ (s : State) (t : Fc) (l : List Int) (o : Nat),
      s.fabric = true →
      passed (advance s t) s.hlm.roAt (600 * 400000000) = true →
      (∀ n < 32, -32768 ≤ l.getD n 0 ∧ l.getD n 0 ≤ 32767) →
      rbit s R.HLM_CTRL_AVS_EN = true →
      l.length = 32 →
      leastSlack l < (rval s R.HLM_REPLAN_SLACK_TARGET_PS : Int) →
      700 ≤ rget s R.HLM_VCORE_FLOOR_MV →
      rget s R.HLM_VCORE_FLOOR_MV ≤ 1790 →
      ∃ u, exec (.roMeasure t l o) s = .next u ∧ rget u R.HLM_VCORE_FLOOR_MV = rget s R.HLM_VCORE_FLOOR_MV + 10 ∧ rget u R.HLM_VCORE_VCORE_MV = min (rget s R.HLM_VCORE_FLOOR_MV + 10 + o) 1800 ∧ rgetS u R.HLM_SLACK_MIN_SLACK_PS = leastSlack l ∧ u.hlm.marginSeq = s.hlm.marginSeq + 1 ∧ BlocksOnly s u [.hlm, .jrn] ∧ u = { advance s t with regs := u.regs, hlm := u.hlm, log := u.log, mem := u.mem, extMem := u.extMem }) ∧
  (∀ (s : State) (t : Fc) (l : List Int) (o : Nat),
      s.fabric = true →
      passed (advance s t) s.hlm.roAt (600 * 400000000) = true →
      (∀ n < 32, -32768 ≤ l.getD n 0 ∧ l.getD n 0 ≤ 32767) →
      rbit s R.HLM_CTRL_AVS_EN = true →
      l.length = 32 →
      (rval s R.HLM_REPLAN_SLACK_TARGET_PS : Int) + 100 < leastSlack l →
      s.hlm.spareCount = 6 →
      710 ≤ rget s R.HLM_VCORE_FLOOR_MV →
      rget s R.HLM_VCORE_FLOOR_MV ≤ 1800 →
      ∃ u, exec (.roMeasure t l o) s = .next u ∧ rget u R.HLM_VCORE_FLOOR_MV = rget s R.HLM_VCORE_FLOOR_MV - 10 ∧ u.hlm.spareCount = 0 ∧ u.hlm.marginSeq = s.hlm.marginSeq + 1 ∧ BlocksOnly s u [.hlm, .jrn] ∧ u = { advance s t with regs := u.regs, hlm := u.hlm, log := u.log, mem := u.mem, extMem := u.extMem }) ∧
  (∀ (s : State) (t : Fc) (l : List Int) (o : Nat),
      s.fabric = true →
      passed (advance s t) s.hlm.roAt (600 * 400000000) = true →
      (∀ n < 32, -32768 ≤ l.getD n 0 ∧ l.getD n 0 ≤ 32767) →
      rbit s R.HLM_CTRL_AVS_EN = true →
      l.length = 32 →
      leastSlack l < (rval s R.HLM_REPLAN_SLACK_TARGET_PS : Int) →
      rget s R.HLM_VCORE_FLOOR_MV = 1800 →
      s.hlm.exhausted = false →
      ∃ u, exec (.roMeasure t l o) s = .next u ∧ u.hlm.exhausted = true ∧ u.hlm.marginSeq = s.hlm.marginSeq + 1 ∧ rget u R.HLM_VCORE_FLOOR_MV = 1800 ∧ rget u R.AOC_PWR_STATE_THROTTLED = (if leastSlack l < 0 then 1 else rget s R.AOC_PWR_STATE_THROTTLED) ∧ BlocksOnly s u [.hlm, .jrn, .aoc] ∧ u = { advance s t with regs := u.regs, hlm := u.hlm, log := u.log, mem := u.mem, extMem := u.extMem }) ∧
  (∀ (s : State) (t : Fc) (b : Fin 12),
      s.fabric = true →
      rbit s R.HLM_CTRL_REPLAN_EN = false →
      exec (.bankReplan t b) s = .next ((advance s t))) ∧
  (∀ (s : State) (t : Fc) (b : Fin 12),
      s.fabric = true →
      rbit s R.HLM_CTRL_REPLAN_EN = true →
      (∀ a, tblGet? s.hlm.replanAt b = some a → a + rval s R.HLM_REPLAN_REPLAN_H * 3600 * 400000000 ≤ opTime (advance s t)) →
      (boostLimit (tblGet? s.hlm.cap b) < (limitsNow s b).1 ∨ peakLimit (tblGet? s.hlm.hsb b) < (limitsNow s b).2) →
      bankOff s b = true →
      ∃ u, exec (.bankReplan t b) s = .next u ∧ rget u R.DBK_DERATE_BOOST_MA b = (min (limitsNow s b).1 (boostLimit (tblGet? s.hlm.cap b))) % 2 ^ 16 ∧ rget u R.DBK_DERATE_PEAK_MA b = (min (limitsNow s b).2 (peakLimit (tblGet? s.hlm.hsb b))) % 2 ^ 16 ∧ (getDbk u b).derate = none ∧ u.hlm.replanAt = tblSet s.hlm.replanAt b (opTime (advance s t)) ∧ BlocksOnly s u [.dbk, .hlm, .jrn] ∧ u = { advance s t with regs := u.regs, hlm := u.hlm, dbk := u.dbk, log := u.log, mem := u.mem, extMem := u.extMem }) ∧
  (∀ (s : State) (t : Fc) (b : Fin 12),
      s.fabric = true →
      rbit s R.HLM_CTRL_REPLAN_EN = true →
      (∀ a, tblGet? s.hlm.replanAt b = some a → a + rval s R.HLM_REPLAN_REPLAN_H * 3600 * 400000000 ≤ opTime (advance s t)) →
      (boostLimit (tblGet? s.hlm.cap b) < (limitsNow s b).1 ∨ peakLimit (tblGet? s.hlm.hsb b) < (limitsNow s b).2) →
      bankOff s b = false →
      ∃ u, exec (.bankReplan t b) s = .next u ∧ (getDbk u b).derate = some ((min (limitsNow s b).1 (boostLimit (tblGet? s.hlm.cap b))), (min (limitsNow s b).2 (peakLimit (tblGet? s.hlm.hsb b)))) ∧ rget u R.DBK_DERATE_BOOST_MA b = rget s R.DBK_DERATE_BOOST_MA b ∧ rget u R.DBK_DERATE_PEAK_MA b = rget s R.DBK_DERATE_PEAK_MA b ∧ BlocksOnly s u [.hlm] ∧ u = { advance s t with regs := u.regs, hlm := u.hlm, dbk := u.dbk, mem := u.mem, extMem := u.extMem }) ∧
  (∀ (s : State) (t : Fc) (b : Fin 12),
      s.fabric = true →
      rbit s R.HLM_CTRL_REPLAN_EN = true →
      (∀ a, tblGet? s.hlm.replanAt b = some a → a + rval s R.HLM_REPLAN_REPLAN_H * 3600 * 400000000 ≤ opTime (advance s t)) →
      (limitsNow s b).1 ≤ boostLimit (tblGet? s.hlm.cap b) →
      (limitsNow s b).2 ≤ peakLimit (tblGet? s.hlm.hsb b) →
      exec (.bankReplan t b) s = .next ({ advance s t with hlm := { s.hlm with replanAt := tblSet s.hlm.replanAt b (opTime (advance s t)) } })) ∧
  (∀ (s : State) (t : Fc) (r : Ref) (d : Desc),
      s.fabric = true →
      heldDesc s r 0xB 0x90 = some d →
      due (advance s t) d = true →
      (d.classWord % 16) ≤ 11 →
      lcState s = 3 →
      ∃ u, exec (.marginReset t r) s = .next u ∧ rget u R.DBK_DERATE_BOOST_MA (d.classWord % 16) = R.DBK_DERATE_BOOST_MA.resetAt (d.classWord % 16) 0 ∧ rget u R.DBK_DERATE_PEAK_MA (d.classWord % 16) = R.DBK_DERATE_PEAK_MA.resetAt (d.classWord % 16) 0 ∧ (getDbk u (d.classWord % 16)).derate = none ∧ u.reqs = (complete (takeReq (advance s t) r) r stDone).reqs ∧ BlocksOnly s u [.dbk, .hlm, .jrn] ∧ u = { advance s t with regs := u.regs, hlm := u.hlm, dbk := u.dbk, reqs := u.reqs, till := u.till, log := u.log, mem := u.mem, extMem := u.extMem }) ∧
  (∀ (s : State) (t : Fc) (r : Ref) (d : Desc),
      s.fabric = true →
      heldDesc s r 0xB 0x90 = some d →
      due (advance s t) d = true →
      (d.classWord % 16) ≤ 11 →
      lcState s ≠ 3 →
      exec (.marginReset t r) s = .next (complete (takeReq (advance s t) r) r stRejectState 0x02B0)) ∧
  (∀ (s : State) (t : Fc) (x : Int) (a : Nat),
      s.fabric = true →
      passed (advance s t) s.hlm.baseAt (10 * 400000000) = true →
      Config.baseLimitC < x →
      s.hlm.hotSince = some a →
      s.hlm.hot = false →
      a + 4000000000 ≤ max s.now t →
      ∃ u, exec (.baseTempSample t x) s = .next u ∧ u.hlm.hot = true ∧ u.hlm.hotSince = some a ∧ u.hlm.coolSince = none ∧ u.hlm.baseAt = some (max s.now t) ∧ BlocksOnly s u [.hlm, .jrn] ∧ u = { advance s t with regs := u.regs, hlm := u.hlm, log := u.log, mem := u.mem, extMem := u.extMem }) ∧
  (∀ (s : State) (t : Fc) (x : Int) (a : Nat),
      s.fabric = true →
      passed (advance s t) s.hlm.baseAt (10 * 400000000) = true →
      x ≤ Config.baseLimitC - 5 →
      s.hlm.coolSince = some a →
      s.hlm.hot = true →
      a + 24000000000 ≤ max s.now t →
      ∃ u, exec (.baseTempSample t x) s = .next u ∧ u.hlm.hot = false ∧ u.hlm.hotSince = none ∧ u.hlm.coolSince = none ∧ u.hlm.baseAt = some (max s.now t) ∧ BlocksOnly s u [.hlm, .jrn] ∧ u = { advance s t with regs := u.regs, hlm := u.hlm, log := u.log, mem := u.mem, extMem := u.extMem }) ∧
  (∀ (s : State) (t : Fc) (x : Int),
      s.fabric = true →
      passed (advance s t) s.hlm.baseAt (10 * 400000000) = true →
      x ≤ Config.baseLimitC →
      Config.baseLimitC - 5 < x →
      ∃ u, exec (.baseTempSample t x) s = .next u ∧ u.hlm.hot = s.hlm.hot ∧ u.hlm.hotSince = none ∧ u.hlm.coolSince = none ∧ BlocksOnly s u [.hlm, .jrn] ∧ u = { advance s t with regs := u.regs, hlm := u.hlm, log := u.log, mem := u.mem, extMem := u.extMem }) ∧
  (∀ (s : State) (t : Fc) (a : Bool),
      s.fabric = true →
      ∃ u, exec (.dramTempAbove85c t a) s = .next u ∧ (∀ n, 1 ≤ n → n ≤ 4 → rget u R.ARB_EMERG_EMERG_SPACING n = if a then 1560 else 3120) ∧ BlocksOnly s u [.arb] ∧ u = { advance s t with regs := u.regs, arbs := u.arbs }) ∧
  (∀ (s : State) (code inst data : Nat),
      rbit s R.HLM_TLM_CFG_ENABLE = false →
      (s.log.stamps.filter fun t => decide (s.now < t + 400000000)).length < 200 →
      s.log.suppressed = 0 →
      s.log.losing = false →
      s.log.written < s.log.copied + 524288 →
      (tblGet? (raiseEv s code inst data).log.events (s.log.written % 524288) = some ⟨moduleTime s, rowNow s, code, inst, tickEvent code, s.log.seq, data % 2 ^ 64⟩ ∧ (raiseEv s code inst data).log.written = s.log.written + 1 ∧ (raiseEv s code inst data).log.seq = (s.log.seq + 1) % 2 ^ 32 ∧
        rget (raiseEv s code inst data) R.JRN_STAT_EV_HEAD = (s.log.written + 1) % 524288 ∧ RegsOnly s (raiseEv s code inst data) [R.JRN_STAT_EV_HEAD.key 0 0] ∧ (raiseEv s code inst data) = { s with regs := (raiseEv s code inst data).regs, log := (raiseEv s code inst data).log })) ∧
  (∀ (s : State) (code inst data : Nat),
      rbit s R.HLM_TLM_CFG_ENABLE = false →
      200 ≤ (s.log.stamps.filter fun t => decide (s.now < t + 400000000)).length →
      ((raiseEv s code inst data).log.events = s.log.events ∧ (raiseEv s code inst data).log.suppressed = s.log.suppressed + 1 ∧ (raiseEv s code inst data).log.seq = (s.log.seq + 1) % 2 ^ 32 ∧
        rget (raiseEv s code inst data) R.HLM_TLM_DROPS_JRN_SUPPRESSED = satTo R.HLM_TLM_DROPS_JRN_SUPPRESSED.width (rget s R.HLM_TLM_DROPS_JRN_SUPPRESSED + 1) ∧ RegsOnly s (raiseEv s code inst data) [R.HLM_TLM_DROPS_JRN_SUPPRESSED.key 0 0]))

/-- In PARK, DEEP_AFTER_MIN minutes after its entry (an entry notes its time; a wake leaves PARK), with a tolerance of at least 3.5 s, the power state becomes DEEP and the panels go dark; nothing else changes. With DEEP_AFTER_MIN 0, before that time, with less tolerance, or in another state, the command changes nothing. -/
def Obligations.DescentToDeep : Prop :=
  (∀ (s : State) (t : Fc),
      s.aoc.power = 2 →
      rget s R.AOC_PARK_CFG_DEEP_AFTER_MIN ≠ 0 →
      s.aoc.parkedAt + rget s R.AOC_PARK_CFG_DEEP_AFTER_MIN * 60 * 400000000 ≤ max s.now t →
      3500000 ≤ rget s R.AOC_WAKE_TOLERANCE_US →
      ∃ u, exec (.deepDescent t) s = .next u ∧ u.aoc = { s.aoc with power := 3 } ∧ rget u R.PNL_STATUS_BLANKED 0 = 1 ∧ rget u R.PNL_STATUS_BLANKED 1 = 1 ∧ BlocksOnly s u [.pnl] ∧ u = { advance s t with regs := u.regs, aoc := u.aoc, pnl := u.pnl }) ∧
  (∀ (s : State) (t : Fc),
      rget s R.AOC_PARK_CFG_DEEP_AFTER_MIN = 0 →
      exec (.deepDescent t) s = .next ((advance s t))) ∧
  (∀ (s : State) (t : Fc),
      max s.now t < s.aoc.parkedAt + rget s R.AOC_PARK_CFG_DEEP_AFTER_MIN * 60 * 400000000 →
      exec (.deepDescent t) s = .next ((advance s t))) ∧
  (∀ (s : State) (t : Fc),
      rget s R.AOC_WAKE_TOLERANCE_US < 3500000 →
      exec (.deepDescent t) s = .next ((advance s t))) ∧
  (∀ (s : State) (t : Fc),
      s.aoc.power ≠ 2 →
      exec (.deepDescent t) s = .next ((advance s t)))

/-- Each of CAL_SET, CLS_SELECT, COMMIT_POINT, CONVERTER_SWAP, DIG_DEBOUNCE_EXPIRY, ENVELOPE_SET, EXC_FAULT, FRQ_EDGE, IMPACT_PULSE_CLOSE, IMPACT_PULSE_OPEN, IMPACT_STUCK, LOCKSTEP_MISMATCH, PATTERN_ADMISSION, PATTERN_LOAD, PROMOTE, QUAD_EDGE, QUAD_ZERO, QUAL_POST, SSUP_ENABLE, SSUP_FAULT_OFF, SSUP_RESTART, TABLE_SET, TABLE_SET_CHECK, TILL_FLUSH, TKE_ARM, TKE_DISARM, ZT_SETTLE_EXPIRY and ZT_WINDOW_END completes: under conditions on the state and the operands alone, exec answers a next state, and that state is, or holds, what the clause gives of the command's own effect. -/
def Obligations.TickAndSensingComplete : Prop :=
  (∀ (s : State) (t : Fc) (amps : List Nat),
      s.fabric = true →
      s.tke.running = true →
      s.tke.committed = false →
      commitAt s ≤ max s.now t →
      s.tke.rowArmed = true →
      s.tke.disarmAt = none →
      tkeArmed s = true →
      commanding s = true →
      s.tke.overrun = none →
      s.tke.todo = [] →
      ∃ u, exec (.commitPoint ⟨t, amps⟩) s = .next u ∧ u.tke.committed = true ∧ rget u R.TKE_OVERRUN_CONSEC = 0) ∧
  (∀ (s : State) (t : Fc) (amps : List Nat),
      s.fabric = true →
      s.tke.committed = true →
      s.tke.flushed = false →
      commitAt s + 256 ≤ max s.now t →
      ∃ u, exec (.tillFlush t amps) s = .next u ∧ u.tke.flushed = true ∧ u.till.flushLeft = 48) ∧
  (∀ (s : State) (t : Fc) (l : List Nat) (x : Fin 4) (v : Nat),
      s.fabric = true →
      rget s R.TKE_LOCKSTEP_MASKED = 0 →
      (∀ k : Fin 4, k ≠ x → l.getD k 0 = v) →
      l.getD x 0 ≠ v →
      ∃ u, exec (.lockstepMismatch t l) s = .next u ∧ rget u R.TKE_LOCKSTEP_MASKED = 2 ^ x.val ∧ rget u R.TKE_LOCKSTEP_DISAGREE_COUNT = satTo R.TKE_LOCKSTEP_DISAGREE_COUNT.width (rget s R.TKE_LOCKSTEP_DISAGREE_COUNT + 1)) ∧
  (∀ (s : State) (t : Fc) (r : Ref) (d : Desc) (img : List Nat),
      s.fabric = true →
      heldDesc s r 1 1 = some d →
      due (advance s t) d = true →
      tkeServes s r = true →
      commanding s = true →
      (d.classWord % 2 = 0 ∨ tkeArmed s = false) →
      64 ≤ d.word 0x18 →
      d.word 0x18 ≤ 0x200000 →
      ∃ u, exec (.patternLoad t r img) s = .next u ∧ u.tke.loadPat = some (r, d.classWord % 2, img)) ∧
  (∀ (s : State) (t : Fc) (r : Ref) (d : Desc) (img : List Nat) (p : Pattern),
      s.fabric = true →
      edgeDue (advance s t) = false →
      s.tke.loadPat = some (r, 0, img) →
      reqDesc s r = some d →
      checkPattern s false (d.word 0x18) img = .admitted p →
      tkeArmed s = false →
      s.tke.pending = none →
      ∃ u, exec (.patternAdmission t false) s = .next u ∧ u.tke.main = some p ∧ u.tke.loadPat = none) ∧
  (∀ (s : State) (t : Fc) (r : Ref) (d : Desc) (img : List Nat),
      s.fabric = true →
      heldDesc s r 1 2 = some d →
      due (advance s t) d = true →
      tkeServes s r = true →
      commanding s = true →
      64 ≤ d.word 0x18 →
      d.word 0x18 ≤ 0x100000 →
      ∃ u, exec (.tableSet t r img) s = .next u ∧ u.tke.loadTbl = some (r, freeBuffer s, img)) ∧
  (∀ (s : State) (t : Fc) (r : Ref) (d : Desc) (b : Nat) (img : List Nat),
      s.fabric = true →
      edgeDue (advance s t) = false →
      s.tke.loadTbl = some (r, b, img) →
      reqDesc s r = some d →
      checkTable (d.word 0x18) img = none →
      forwarding s = false →
      b ≤ 2 →
      ∃ u, exec (.tableSetCheck t false) s = .next u ∧ u.tke.loadTbl = none ∧ rget u R.TKE_TABLE_STATE_PENDING_BUF = b) ∧
  (∀ (s : State) (t : Fc) (r : Ref) (d : Desc),
      s.fabric = true →
      heldDesc s r 1 3 = some d →
      due (advance s t) d = true →
      edgeDue (advance s t) = false →
      tkeServes s r = true →
      commanding s = true →
      (tkeArmed s = false ∨ rbit s R.TKE_CTRL_FALLBACK_ACTIVE = true) →
      (s.tke.rowArmed = false ∨ (s.tke.rowFallback = true ∧ rbit s R.TKE_CTRL_STOPPED = false)) →
      ∃ u, exec (.promote t r) s = .next u ∧ u.tke.promote = s.tke.promote ++ [r]) ∧
  (∀ (s : State) (t : Fc) (saved : Bool),
      s.fabric = true →
      tkeArmed s = false →
      armError s = 0 →
      pairEn s = false →
      ∃ u, exec (.tkeArm t saved) s = .next u ∧ tkeArmed u = true ∧ rget u R.TKE_CTRL_ARM_ERR = 0 ∧ rget u R.XLK_BID_BID = (nextEpoch s * 256 + rankOf s) % 2 ^ 32) ∧
  (∀ (s : State) (t : Fc),
      s.fabric = true →
      ∃ u, exec (.tkeDisarm t) s = .next u ∧ tkeArmed u = false ∧ rget u R.TKE_CTRL_ARM = 0) ∧
  (∀ (s : State) (t : Fc) (r : Ref) (d : Desc),
      s.fabric = true →
      heldDesc s r 0xB 0x20 = some d →
      due (advance s t) d = true →
      commanding s = true →
      d.classWord < 16 →
      d.word 0x14 < 2 →
      (∀ k < 8, d.word (0x20 + 4 * k) = 0) →
      rget s R.SPS_QUAL_CFG_SOURCE 0 (d.classWord % 16) = 2 →
      (∀ v, tblGet? s.sps.posts (d.classWord % 16) = some v → v.stamp ≤ d.quad 0x18) →
      ∃ u, exec (.qualPost t r) s = .next u ∧ tblGet? u.sps.posts (d.classWord % 16) = some ⟨d.word 0x10, bitOf (d.word 0x14) 0, d.quad 0x18⟩) ∧
  (∀ (s : State) (t : Fc) (r : Ref) (d : Desc) (ts : List Nat),
      s.fabric = true →
      heldDesc s r 0xB 0x21 = some d →
      due (advance s t) d = true →
      edgeDue (advance s t) = false →
      commanding s = true →
      d.classWord < 32 →
      (∀ k < 9, d.word (0x1C + 4 * k) = 0) →
      d.word 0x18 = 0 →
      fFinite (d.word 0x10) = true →
      fFinite (d.word 0x14) = true →
      fLt (d.word 0x14) (d.word 0x10) = false →
      liveSet s = some ts →
      fLt (d.word 0x14) (tsHardLo ts (d.classWord % 32)) = false →
      fLt (tsHardHi ts (d.classWord % 32)) (d.word 0x10) = false →
      ∃ u, exec (.envelopeSet t r) s = .next u ∧ tblGet? u.sps.envPend (d.classWord % 32) = some ⟨some (d.word 0x10, d.word 0x14), some r⟩) ∧
  (∀ (s : State) (t : Fc) (r : Ref) (d : Desc),
      s.fabric = true →
      heldDesc s r 0xB 0x30 = some d →
      due (advance s t) d = true →
      edgeDue (advance s t) = false →
      commanding s = true →
      (bitOf (d.word 0x18) 0 = true ∨ bitOf (d.word 0x18) 1 = true) →
      (bitOf (d.word 0x18) 0 = true → fFinite (d.word 0x10) = true) →
      (bitOf (d.word 0x18) 1 = true → fFinite (d.word 0x14) = true) →
      rval s R.SFE_EST_KIND 0 (d.classWord % 16) ≠ 0 →
      ∃ u, exec (.calSet t r) s = .next u ∧ (tblGet? u.sfe.calPend (d.classWord % 16) = some ⟨if bitOf (d.word 0x18) 0 then some (d.word 0x10) else none, if bitOf (d.word 0x18) 1 then some (d.word 0x14) else none, some r⟩)) ∧
  (∀ (s : State) (t : Fc) (r : Ref) (d : Desc),
      s.fabric = true →
      heldDesc s r 0xB 0x31 = some d →
      due (advance s t) d = true →
      edgeDue (advance s t) = false →
      commanding s = true →
      rget s R.SFE_CTRL_LIVE_BANK ≠ d.classWord % 2 →
      ∃ u, exec (.clsSelect t r) s = .next u ∧ rget u R.SFE_CTRL_PENDING = 1 ∧ rget u R.SFE_CTRL_PENDING_BANK = d.classWord % 2 ∧ u.sfe.clsRef = some (some r)) ∧
  (∀ (s : State) (t : Fc) (ch : Fin 48) (xs : List Int) (x : Int),
      s.fabric = true →
      edgeDue (advance s t) = false →
      rbit s R.SFE_IMP_CFG_EN 0 ch = true →
      ∃ u, exec (.impactPulseOpen t ch xs x) s = .next u ∧ getImp u ch = (xs ++ [x]).foldl (impSample (impTrig s ch) (rval s R.SFE_IMP_CFG_HOLD_OFF 0 ch)) (getImp s ch)) ∧
  (∀ (s : State) (t : Fc) (ch : Fin 48) (x : Int) (xs : List Int) (l : List Nat),
      s.fabric = true →
      edgeDue (advance s t) = false →
      (getImp s ch).isOpen = true →
      (x :: xs).map (impMag (getImp s ch)) = l →
      opensAbove (impTrig s ch) l = true →
      pulseEnd (impTrig s ch) (rval s R.SFE_IMP_CFG_HOLD_OFF 0 ch) l = some l.length →
      l.length ≤ 4096 →
      (x :: xs).any impFull = false →
      isPileUp (impTrig s ch) l = false →
      classify s ch (features (impTrig s ch) l) = 0 →
      ∃ u, exec (.impactPulseClose t ch x xs) s = .next u ∧ (getImp u ch).isOpen = false ∧ (getImp u ch).kernel = min ((getImp s ch).kernel + 1) 0xFFFF) ∧
  (∀ (s : State) (t : Fc) (ch : Fin 48) (xs : List Int) (l : List Nat),
      s.fabric = true →
      edgeDue (advance s t) = false →
      (getImp s ch).isOpen = true →
      (xs.take 4096).map (impMag (getImp s ch)) = l →
      opensAbove (impTrig s ch) l = true →
      4096 ≤ l.length →
      pulseEnd (impTrig s ch) (rval s R.SFE_IMP_CFG_HOLD_OFF 0 ch) l = none →
      (xs.take 4096).any impFull = false →
      (getImp s ch).stuckTold = false →
      ∃ u, exec (.impactStuck t ch xs) s = .next u ∧ (getImp u ch).isOpen = false ∧ (getImp u ch).waiting = true ∧ (getImp u ch).stuck = true) ∧
  (∀ (s : State) (t : Fc) (n : Fin 32) (h : Nat),
      s.fabric = true →
      edgeDue (advance s t) = false →
      rbit s R.SFE_FRQ_CFG_EN 0 n = true →
      inQuad s n = false →
      40 * rget s R.SFE_FRQ_CFG_MIN_PULSE 0 n ≤ h →
      ∃ u, exec (.frqEdge t n h) s = .next u ∧ (getFrq u n).t1 = some (quarterAt (advance s t) (max s.now t - h)) ∧ (getFrq u n).t0 = (getFrq s n).t1 ∧ (getFrq u n).nInTick = (getFrq s n).nInTick + 1) ∧
  (∀ (s : State) (t : Fc) (k : Fin 16),
      s.fabric = true →
      edgeDue (advance s t) = false →
      quadOn s k = true →
      (getQuad s k).a = false →
      (getQuad s k).b = false →
      ∃ u, exec (.quadEdge t k true false) s = .next u ∧ (getQuad u k).pos = (getQuad s k).pos + 1 ∧ (getQuad u k).a = true ∧ (getQuad u k).b = false) ∧
  (∀ (s : State) (t : Fc) (m : Fin 65536),
      s.fabric = true →
      edgeDue (advance s t) = false →
      ∃ u, exec (.quadZero t m) s = .next u ∧ (∀ k < 16, getQuad u k = { getQuad s k with zero := (getQuad s k).zero || bitOf m k })) ∧
  (∀ (s : State) (t : Fc) (n : Fin 64) (uv : Nat) (uvs : List Nat),
      s.fabric = true →
      edgeDue (advance s t) = false →
      rval s R.SFE_GIN_CFG_MODE 0 n = 5 →
      exec (.digDebounceExpiry t n uv uvs) s = .next (digSamples (advance s t) n (uv :: uvs))) ∧
  (∀ (s : State) (t : Fc) (n : Fin 4) (ma mv : Nat),
      s.fabric = true →
      edgeDue (advance s t) = false →
      rbit s R.SFE_LCL_CFG_EN 0 n = true →
      (60 < ma ∨ mv < 4750) →
      ∃ u, exec (.excFault t n ma mv) s = .next u ∧ n.val ∈ u.sfe.exc ∧ n.val ∈ u.sfe.excTick) ∧
  (∀ (s : State) (t : Fc) (n : Fin 8) (ma mv a : Nat),
      s.fabric = true →
      edgeDue (advance s t) = false →
      (getSsup s n).on = true →
      (360 < ma ∨ mv * 10 < ssupMv s n * 9) →
      a + 400000 ≤ max s.now t →
      ((getSsup s n).offTimes.filter fun x => decide (max s.now t < x + 10 * 400000000)).length < 2 →
      ∃ u, exec (.ssupFaultOff t n ma mv a) s = .next u ∧ (getSsup u n).on = false ∧ bitOf (rget u R.SFE_SSUP_STAT_FAULT) n = true ∧ bitOf (rget u R.SFE_SSUP_STAT_TRIPPED) n = true) ∧
  (∀ (s : State) (t : Fc) (n : Fin 8) (a : Nat),
      s.fabric = true →
      edgeDue (advance s t) = false →
      (getSsup s n).restartAt = some a →
      a ≤ max s.now t →
      ∃ u, exec (.ssupRestart t n) s = .next u ∧ getSsup u n = { getSsup s n with on := true, onAt := max s.now t, badTick := true, restartAt := none } ∧ bitOf (rget u R.SFE_SSUP_STAT_FAULT) n = false) ∧
  (∀ (s : State) (t : Fc) (n : Fin 8),
      s.fabric = true →
      edgeDue (advance s t) = false →
      rbit s R.SFE_SSUP_CFG_EN 0 n = false →
      ∃ u, exec (.ssupEnable t n true) s = .next u ∧ rget u R.SFE_SSUP_CFG_EN 0 n = 1 ∧ (getSsup u n).on = true) ∧
  (∀ (s : State) (t : Fc) (b : Fin 14) (g o : Nat),
      s.fabric = true →
      rbit s R.SFE_CTRL_BG_CAL_EN = true →
      bitOf (rget s R.SFE_CAL_STAT_RETIRED) b = false →
      tblGetD s.sfe.lastSwap b 0 + rval s R.SFE_CAL_CFG_PERIOD_S * 400000000 ≤ max s.now t →
      g ≤ 200 →
      (o ≤ (if b.val < 6 then 64 else 8)) →
      ∃ u, exec (.converterSwap t b g o) s = .next u ∧ tblGet? u.sfe.rotation b = some ((tblGetD s.sfe.rotation b 0 + 1) % 9) ∧ rget u R.SFE_CAL_STAT_SWAPS = satTo R.SFE_CAL_STAT_SWAPS.width (rget s R.SFE_CAL_STAT_SWAPS + 1)) ∧
  (∀ (s : State) (t : Fc) (a : Nat),
      s.fabric = true →
      edgeDue (advance s t) = false →
      s.sfe.zt.since = some a →
      s.sfe.zt.window = none →
      a + rget s R.SFE_ZT_TIMES_SETTLE_MS * 400000 ≤ max s.now t →
      ∃ u, exec (.ztSettleExpiry t) s = .next u ∧ u.sfe.zt.window = some (max s.now t) ∧ u.sfe.zt.n = 0) ∧
  (∀ (s : State) (t : Fc) (a : Nat),
      s.fabric = true →
      edgeDue (advance s t) = false →
      s.sfe.zt.window = some a →
      a + rval s R.SFE_ZT_TIMES_WINDOW_MS * 400000 ≤ max s.now t →
      s.sfe.zt.n ≠ 0 →
      ∃ u, exec (.ztWindowEnd t a) s = .next u ∧ u.sfe.zt.result = some (ratF (s.sfe.zt.sum / s.sfe.zt.n)) ∧ u.sfe.zt.window = some (max s.now t))

/-- Each of BANK_CHECK, BOOST_CURRENT_REACHED, BOOST_GAP_EXPIRY, BOOST_REQUEST, BOOST_WAIT_EXPIRY, DBK_BANK_FAULT, DECAY_END, DERATE_APPLY, DRV_CH_FAULT, DRV_CLEAR, DRV_OFF, DRV_ON_OPEN_LOAD, DRV_PROFILE, DRV_PROP, HOLD_FLOOR_HIT, MOVEMENT_DETECTED, OFF_DIAG_SAMPLE, PROFILE_END_TIME, SHOT_DUE, T_BOOST_EXPIRY and T_PEAK_EXPIRY completes: under conditions on the state and the operands alone, exec answers a next state, and that state is, or holds, what the clause gives of the command's own effect. -/
def Obligations.DriveBanksComplete : Prop :=
  (∀ (s : State) (t : Fc) (ch : Fin 96) (q : Passed) (d n h : Nat),
      (getPps s (ch.val / 48)).powered = true →
      ((getPps s (ch.val / 48)).passed.find? fun x => OutCmd.isDrv ch x.cmd) = some q →
      q.cmd = .drv ch (.profile d n h) →
      q.bankBit = false →
      n ≠ 0 →
      dval s R.DBK_CH_CFG_MODE ch = 1 →
      (getDrv s ch).prof = none →
      drvLatched s ch = false →
      rbit s R.DBK_CTRL_ENABLE (ch.val / 8) = true →
      (q.ref = none ∨ commanding s = true) →
      (q.staged = true ∨ dbit s R.DBK_CH_CFG_OWNER ch = false) →
      ∃ u, exec (.drvProfile t ch) s = .next u ∧ (∃ p, (getDrv u ch).prof = some p ∧ p.reqStart = q.at_ + d * 200 ∧ p.onTime = onTimeFc n ∧ p.ref = q.ref ∧ p.row = q.row ∧
          p.requested = false ∧ p.start = none ∧
          p.holdMa = clampNat 100 4000 (if h = 0 then dval s R.DBK_CH_HOLD_I_HOLD_MA ch else h))) ∧
  (∀ (s : State) (t : Fc) (ch : Fin 96) (q : Passed) (m hz am : Nat),
      (getPps s (ch.val / 48)).powered = true →
      ((getPps s (ch.val / 48)).passed.find? fun x => OutCmd.isDrv ch x.cmd) = some q →
      q.cmd = .drv ch (.prop m (some (hz, am))) →
      q.bankBit = false →
      m ≤ 3500 →
      hz ≤ 400 →
      am ≤ 500 →
      dval s R.DBK_CH_CFG_MODE ch = 2 →
      drvLatched s ch = false →
      rbit s R.DBK_CTRL_ENABLE (ch.val / 8) = true →
      (q.ref = none ∨ commanding s = true) →
      (q.staged = true ∨ dbit s R.DBK_CH_CFG_OWNER ch = false) →
      ∃ u, exec (.drvProp t ch) s = .next u ∧ drvPhase u ch = 5 ∧ (getDrv u ch).propMa = m ∧ (getDrv u ch).ditherHz = min hz (dval s R.DBK_CH_PROP_PWM_KHZ ch * 100) ∧ (getDrv u ch).ditherMa = am) ∧
  (∀ (s : State) (t : Fc) (ch : Fin 96) (q : Passed),
      (getPps s (ch.val / 48)).powered = true →
      ((getPps s (ch.val / 48)).passed.find? fun x => OutCmd.isDrv ch x.cmd) = some q →
      q.cmd = .drv ch .off →
      q.bankBit = false →
      rbit s R.DBK_CTRL_ENABLE (ch.val / 8) = true →
      (q.ref = none ∨ commanding s = true) →
      (q.staged = true ∨ dbit s R.DBK_CH_CFG_OWNER ch = false) →
      (dval s R.DBK_CH_CFG_MODE ch = 1 ∨ dval s R.DBK_CH_CFG_MODE ch = 2) →
      ∃ u, exec (.drvOff t ch) s = .next u ∧ drvPhase u ch = 6 ∧ (getDrv u ch).prof = none) ∧
  (∀ (s : State) (t : Fc) (ch : Fin 96) (q : Passed),
      (getPps s (ch.val / 48)).powered = true →
      ((getPps s (ch.val / 48)).passed.find? fun x => OutCmd.isDrv ch x.cmd) = some q →
      q.cmd = .drv ch (.clear false) →
      q.bankBit = false →
      rbit s R.DBK_CTRL_ENABLE (ch.val / 8) = true →
      q.ref = none →
      dbit s R.DBK_CH_STAT_LATCHED ch = true →
      ∃ u, exec (.drvClear t ch false) s = .next u ∧ dget u R.DBK_CH_STAT_LATCHED ch = 0 ∧ dget u R.DBK_CH_STAT_FAULT ch = 0) ∧
  (∀ (s : State) (t : Fc) (ch : Fin 96) (v : Fin 1024),
      (getPps s (ch.val / 48)).powered = true →
      exec (.boostRequest t ch v) s = .next (bankGrant (advance s t) (ch.val / 8) v)) ∧
  (∀ (s : State) (t : Fc) (b : Fin 12) (v : Fin 1024) (c : Nat) (p : DrvProf),
      (getPps s (b.val / 6)).powered = true →
      (getPps s (b.val / 6)).passed = [] →
      (∀ c ∈ bankChans b, (getDrv s c).nextShot = none ∧ (getDrv s c).prof.all (fun x => x.requested) = true) →
      hsvOn s b = false →
      (getDbk s b).hsvFrom ≤ max s.now t →
      nextBoost s b = some c →
      c / 8 = b.val →
      (getDrv s c).prof = some p →
      ∃ u, exec (.boostGapExpiry t b v) s = .next u ∧ drvPhase u c = 2 ∧ hsvOn u b = true ∧ rget u R.DBK_STATUS_HSV_CH b = c % 8) ∧
  (∀ (s : State) (t : Fc) (ch : Fin 96) (v : Fin 1024) (p : DrvProf),
      (getPps s (ch.val / 48)).powered = true →
      (getPps s (ch.val / 48)).passed = [] →
      (∀ c ∈ bankChans (ch.val / 8), (getDrv s c).nextShot = none ∧ (getDrv s c).prof.all (fun x => x.requested) = true) →
      hsvOn s (ch.val / 8) = true →
      drvPhase s ch = 1 →
      (getDrv s ch).prof = some p →
      p.requested = true →
      p.reqStart + dval s R.DBK_CH_CFG_BOOST_WAIT ch * 400 ≤ max s.now t →
      ∃ u, exec (.boostWaitExpiry t ch v) s = .next u ∧ (getDrv u ch).prof = none ∧ drvPhase u ch = 0 ∧ dget u R.DBK_CH_COUNTS_DROPPED ch = satTo R.DBK_CH_COUNTS_DROPPED.width (dget s R.DBK_CH_COUNTS_DROPPED ch + 1)) ∧
  (∀ (s : State) (t : Fc) (ch : Fin 96) (l : List Nat) (a : State) (p : DrvProf) (m : Nat),
      (getPps s (ch.val / 48)).powered = true →
      drvTrace (advance s t) ch (stepNow (advance s t) ch) l = a →
      drvPhase a ch = 2 →
      (getDrv a ch).prof = some p →
      hasHsv a ch = true →
      dget a R.DBK_CH_PEAK_T_PEAK_US ch ≠ 0 →
      maNow a ch = some m →
      (boostLevel a ch).1 ≤ m →
      ∃ u, exec (.boostCurrentReached t ⟨ch, l⟩) s = .next u ∧ drvPhase u ch = 3 ∧ hsvOn u (ch.val / 8) = false) ∧
  (∀ (s : State) (t : Fc) (ch : Fin 96) (l : List Nat) (a : State) (p : DrvProf) (x : Nat),
      (getPps s (ch.val / 48)).powered = true →
      drvTrace (advance s t) ch (stepNow (advance s t) ch) l = a →
      drvPhase a ch = 2 →
      (getDrv a ch).prof = some p →
      hasHsv a ch = true →
      dget a R.DBK_CH_PEAK_T_PEAK_US ch ≠ 0 →
      p.start = some x →
      x + dval a R.DBK_CH_BOOST_T_BOOST_US ch * 400 ≤ max s.now t →
      (maNow a ch = none ∨ ∃ m < (boostLevel a ch).1, maNow a ch = some m) →
      ∃ u, exec (.tBoostExpiry t ⟨ch, l⟩) s = .next u ∧ drvPhase u ch = 3 ∧ hsvOn u (ch.val / 8) = false) ∧
  (∀ (s : State) (t : Fc) (ch : Fin 96) (l : List Nat) (a : State) (p : DrvProf) (x : Nat),
      (getPps s (ch.val / 48)).powered = true →
      drvTrace (advance s t) ch (stepNow (advance s t) ch) l = a →
      drvPhase a ch = 3 →
      (getDrv a ch).prof = some p →
      p.peakStart = some x →
      x + dget a R.DBK_CH_PEAK_T_PEAK_US ch * 400 ≤ max s.now t →
      ∃ u, exec (.tPeakExpiry t ⟨ch, l⟩) s = .next u ∧ drvPhase u ch = 4) ∧
  (∀ (s : State) (t : Fc) (ch : Fin 96) (l : List Nat) (a : State) (p : DrvProf) (e : Nat),
      (getPps s (ch.val / 48)).powered = true →
      drvTrace (advance s t) ch (stepNow (advance s t) ch) l = a →
      drvPhase a ch = 4 →
      (getDrv a ch).prof = some p →
      p.endAt = some e →
      e ≤ max s.now t →
      ∃ u, exec (.profileEndTime t ⟨ch, l⟩) s = .next u ∧ drvPhase u ch = 6 ∧ (getDrv u ch).prof = none) ∧
  (∀ (s : State) (t : Fc) (ch : Fin 96) (l : List Nat) (a : State) (v : Fin 65536) (m : Nat),
      (getPps s (ch.val / 48)).powered = true →
      drvTrace (advance s t) ch (stepNow (advance s t) ch) l = a →
      drvPhase a ch = 6 →
      maNow a ch = some m →
      m < 50 →
      ∃ u, exec (.decayEnd t ⟨ch, l⟩ v) s = .next u ∧ drvPhase u ch = 0) ∧
  (∀ (s : State) (t : Fc) (ch : Fin 96) (l : List Nat),
      (getPps s (ch.val / 48)).powered = true →
      exec (.movementDetected t ch l) s = .next (drvTrace (advance s t) ch (stepNow (advance s t) ch) l)) ∧
  (∀ (s : State) (t : Fc) (ch : Fin 96) (d : Nat),
      (getPps s (ch.val / 48)).powered = true →
      (getDrv s ch).nextShot = some d →
      d ≤ max s.now t →
      drvLatched s ch = false →
      (getDrv s ch).prof = none →
      ∃ u, exec (.shotDue t ch) s = .next u ∧ ((getDrv u ch).prof.map fun x => (x.reqStart, x.onTime)) = some (d, onTimeFc (dval s R.DBK_CH_SHOT_SHOT_US ch)) ∧ (getDrv u ch).lastShot = some d) ∧
  (∀ (s : State) (t : Fc) (ch : Fin 96) (l : List Nat) (a : State) (m : Nat),
      (getPps s (ch.val / 48)).powered = true →
      drvTrace (advance s t) ch (stepNow (advance s t) ch) l = a →
      drvForced a ch = true →
      m < dget a R.DBK_CH_HOLD_HOLD_FLOOR_MA ch →
      maNow a ch = some m →
      (getDrv a ch).floorDone = false →
      ∃ u, exec (.holdFloorHit t ch l) s = .next u ∧ dget u R.DBK_CH_COUNTS_FLOOR_HITS ch = satTo R.DBK_CH_COUNTS_FLOOR_HITS.width (dget a R.DBK_CH_COUNTS_FLOOR_HITS ch + 1) ∧ (getDrv u ch).floorDone = true) ∧
  (∀ (s : State) (t : Fc) (ch : Fin 96) (vl vh k : Nat),
      (getPps s (ch.val / 48)).powered = true →
      dbit s R.DBK_CH_DIAG_CFG_OFF_DIAG_EN ch = true →
      drvPhase s ch = 0 →
      (getDrv s ch).since + 200000 ≤ max s.now t →
      offCode (highSideClosed s (ch.val / 8)) vl vh = some k →
      (getDrv s ch).diag.2 = 0 →
      (getDrv s ch).diagAt < (getDrv s ch).since →
      ∃ u, exec (.offDiagSample t ch vl vh) s = .next u ∧ (getDrv u ch).diag = (k, 1)) ∧
  (∀ (s : State) (t : Fc) (ch : Fin 96) (k : Fin 8) (v a : Nat) (ds : Bool),
      (getPps s (ch.val / 48)).powered = true →
      onFault (advance s t) ch k v a ds = true →
      (k.val ≠ 5 ∨ rbit s R.DBK_CTRL_SCG_CUT (ch.val / 8) = false) →
      ∃ u, exec (.drvChFault t ch ⟨k, v, a, ds⟩) s = .next u ∧ dget u R.DBK_CH_STAT_FAULT ch = k ∧ dget u R.DBK_CH_STAT_LATCHED ch = 1) ∧
  (∀ (s : State) (t : Fc) (ch : Fin 96) (l : List Nat) (a : State) (m : Nat),
      (getPps s (ch.val / 48)).powered = true →
      drvTrace (advance s t) ch (stepNow (advance s t) ch) l = a →
      drvPhase a ch = 5 →
      2 * dget a R.DBK_CH_DIAG_CFG_OPEN_MA ch ≤ (getDrv a ch).propMa →
      (getDrv a ch).levelAt + 20000 ≤ max s.now t →
      maNow a ch = some m →
      m < dget a R.DBK_CH_DIAG_CFG_OPEN_MA ch →
      dget a R.DBK_CH_STAT_FAULT ch ≤ 4 →
      ∃ u, exec (.drvOnOpenLoad t ch l) s = .next u ∧ dget u R.DBK_CH_STAT_FAULT ch = 4 ∧ drvPhase u ch = 5) ∧
  (∀ (s : State) (t : Fc) (b : Fin 12) (v a : Nat),
      (getPps s (b.val / 6)).powered = true →
      70000 < v →
      a + 800 ≤ max s.now t →
      rbit s R.DBK_STATUS_LATCHED b = false →
      ∃ u, exec (.dbkBankFault t b 1 v a) s = .next u ∧ rget u R.DBK_STATUS_LATCHED b = 1 ∧ rget u R.DBK_STATUS_BANK_FAULT b = 1) ∧
  (∀ (s : State) (t : Fc) (b : Fin 12),
      (getPps s (b.val / 6)).powered = true →
      firstFail s b = none →
      ∃ u, exec (.bankCheck t b) s = .next u ∧ rget u R.DBK_CTRL_ADMITTED b = 1) ∧
  (∀ (s : State) (t : Fc) (b : Fin 12) (x y : Nat),
      (getPps s (b.val / 6)).powered = true →
      (getDbk s b).derate = some (x, y) →
      bankOff s b = true →
      ∃ u, exec (.derateApply t b) s = .next u ∧ rget u R.DBK_DERATE_BOOST_MA b = x % 2 ^ R.DBK_DERATE_BOOST_MA.width ∧ rget u R.DBK_DERATE_PEAK_MA b = y % 2 ^ R.DBK_DERATE_PEAK_MA.width)

/-- Each of FEED_UV, INRUSH_EXPIRY, IN_LIMIT, OPEN_LOAD_CLEAR, OPEN_LOAD_DETECT, PLANE_SHED, RETRY_RESTART, RETRY_WINDOW_END, SHED_RESTORE, SW_REARM, SW_SET, THERM_LATCH_CLEAR, THERM_LATCH_SET, UV_RESTART_DELAY_EXPIRY, UV_RESTART_STEP and WIRE_MODEL_UPDATE completes: under conditions on the state and the operands alone, exec answers a next state, and that state is, or holds, what the clause gives of the command's own effect. -/
def Obligations.SwitchBanksComplete : Prop :=
  (∀ (s : State) (t : Fc) (ch : Fin 96) (q : Passed) (d : Nat),
      (getPps s (ch.val / 48)).powered = true →
      ((getPps s (ch.val / 48)).passed.find? fun x => OutCmd.isSw ch x.cmd) = some q →
      q.cmd = .sw ch (.set d) →
      d ≤ 1000 →
      (q.ref = none ∨ commanding s = true) →
      (q.staged = true ∨ (dbit s R.SBK_CH_CFG_OWNER ch = false ∧ rbit s R.SBK_CTRL_ENABLE (ch.val / 8) = true)) →
      swOdd s ch = false →
      swMode s ch = true →
      swStopped s ch = false →
      (d = 0 ∨ q.staged = true ∨ swStopped (swAhead (setPps (advance s t) (ch.val / 48) { getPps s (ch.val / 48) with passed := (getPps s (ch.val / 48)).passed.erase q })) ch = false) →
      (getFeed s (ch.val / 48)).uv = false →
      swQueued s ch = false →
      ∃ u, exec (.swSet t ch) s = .next u ∧ (∀ c ∈ swMembers s ch, (getSw u c).duty = d ∧ (getSw u c).on = decide (d ≠ 0)) ∧ (getPps u (ch.val / 48)).passed = (getPps s (ch.val / 48)).passed.erase q) ∧
  (∀ (s : State) (t : Fc) (ch : Fin 96) (q : Passed),
      (getPps s (ch.val / 48)).powered = true →
      ((getPps s (ch.val / 48)).passed.find? fun x => OutCmd.isSw ch x.cmd) = some q →
      q.cmd = .sw ch .rearm →
      (q.ref = none ∨ commanding s = true) →
      swOdd s ch = false →
      swMode s ch = true →
      rbit s R.SBK_CTRL_ENABLE (ch.val / 8) = true →
      swTheta s ch ≤ 1 / 2 →
      ∃ u, exec (.swRearm t ch) s = .next u ∧ (∀ c ∈ swMembers s ch, dget u R.SBK_CH_STAT_TRIPPED c = 0 ∧ dget u R.SBK_CH_STAT_LOCKED c = 0 ∧ dget u R.SBK_CH_STAT_RETRIES_USED c = 0 ∧
        (getSw u c).window = none ∧ (getSw u c).barred = false ∧ (getSw u c).duty = (getSw s ch).duty) ∧ (getPps u (ch.val / 48)).passed = (getPps s (ch.val / 48)).passed.erase q) ∧
  (∀ (s : State) (t : Fc) (ch : Fin 96) (own other sums : List Nat),
      (getPps s (ch.val / 48)).powered = true →
      swOdd s ch = false →
      (sums = if swEven s ch then (List.range own.length).map (fun n => own.getD n 0 + other.getD n 0) else own) →
      ((getSw s ch).thf + mkRat 1 (1000 * (wireProfile (dget s R.SBK_CH_CFG_WPROF ch)).2) * (mkRat 2 5 * (meanSquare sums / ((swIEff s ch * swIEff s ch : Nat) : Rat)) - (getSw s ch).thf)) + ((getSw s ch).ths + mkRat 1 (10000 * (wireProfile (dget s R.SBK_CH_CFG_WPROF ch)).2) * (mkRat 3 5 * (meanSquare sums / ((swIEff s ch * swIEff s ch : Nat) : Rat)) - (getSw s ch).ths)) < 1 →
      ∃ u, exec (.wireModelUpdate t ch ⟨own, other⟩) s = .next u ∧ (∀ c ∈ swMembers s ch, (getSw u c).thf = (getSw s ch).thf + mkRat 1 (1000 * (wireProfile (dget s R.SBK_CH_CFG_WPROF ch)).2) * (mkRat 2 5 * (meanSquare sums / ((swIEff s ch * swIEff s ch : Nat) : Rat)) - (getSw s ch).thf) ∧
        (getSw u c).ths = (getSw s ch).ths + mkRat 1 (10000 * (wireProfile (dget s R.SBK_CH_CFG_WPROF ch)).2) * (mkRat 3 5 * (meanSquare sums / ((swIEff s ch * swIEff s ch : Nat) : Rat)) - (getSw s ch).ths) ∧
        dget u R.SBK_CH_MODEL_THETA c = thetaCode (((getSw s ch).thf + mkRat 1 (1000 * (wireProfile (dget s R.SBK_CH_CFG_WPROF ch)).2) * (mkRat 2 5 * (meanSquare sums / ((swIEff s ch * swIEff s ch : Nat) : Rat)) - (getSw s ch).thf)) + ((getSw s ch).ths + mkRat 1 (10000 * (wireProfile (dget s R.SBK_CH_CFG_WPROF ch)).2) * (mkRat 3 5 * (meanSquare sums / ((swIEff s ch * swIEff s ch : Nat) : Rat)) - (getSw s ch).ths))) % 2 ^ R.SBK_CH_MODEL_THETA.width ∧
        (getSw u c).on = (getSw s c).on)) ∧
  (∀ (s : State) (t : Fc) (ch : Fin 96) (a : Nat),
      (getPps s (ch.val / 48)).powered = true →
      limitHeld (advance s t) ch (max s.now t) = true →
      (getSw s ch).limitSince = some a →
      a + 4000000 ≤ max s.now t →
      ∃ u, exec (.inrushExpiry t ch) s = .next u ∧ (∀ c ∈ swMembers s ch, dget u R.SBK_CH_STAT_TRIPPED c = 1 ∧ dget u R.SBK_CH_STAT_TRIP_CAUSE c = 2 ∧ (getSw u c).on = false ∧ (getSw u c).limitSince = none ∧ dget u R.SBK_CH_COUNTS_TRIPS c = satTo R.SBK_CH_COUNTS_TRIPS.width (dget s R.SBK_CH_COUNTS_TRIPS c + 1))) ∧
  (∀ (s : State) (t : Fc) (ch : Fin 96),
      (getPps s (ch.val / 48)).powered = true →
      conducts (advance s t) ch (max s.now t) = true →
      limitHeld (advance s t) ch (max s.now t) = false →
      ∃ u, exec (.inLimit t ch) s = .next u ∧ (∀ c ∈ swMembers s ch, (getSw u c).limitSince = some (max s.now t) ∧ (getSw u c).recLimit = true)) ∧
  (∀ (s : State) (t : Fc) (ch : Fin 96) (j : Int),
      (getPps s (ch.val / 48)).powered = true →
      170 ≤ j →
      dbit s R.SBK_CH_STAT_THERM_LATCH ch = false →
      ∃ u, exec (.thermLatchSet t ch j) s = .next u ∧ (∀ c ∈ swMembers s ch, dget u R.SBK_CH_STAT_THERM_LATCH c = 1 ∧ (getSw u c).on = false ∧ dget u R.SBK_CH_COUNTS_THERM_LATCHES c = satTo R.SBK_CH_COUNTS_THERM_LATCHES.width (dget s R.SBK_CH_COUNTS_THERM_LATCHES c + 1))) ∧
  (∀ (s : State) (t : Fc) (ch : Fin 96) (j : Int),
      (getPps s (ch.val / 48)).powered = true →
      j < 140 →
      (∀ c ∈ swMembers s ch, c = ch.val ∨ dget s R.SBK_CH_MODEL_TJ c < 190) →
      dbit s R.SBK_CH_STAT_THERM_LATCH ch = true →
      dbit s R.SBK_CH_PROT_POLICY (swLead s ch) = false →
      (getSw s (swLead s ch)).rearmed = false →
      ∃ u, exec (.thermLatchClear t ch j) s = .next u ∧ (∀ c ∈ swMembers s ch, dget u R.SBK_CH_STAT_THERM_LATCH c = 0 ∧ (getSw u c).barred = true ∧ (getSw u c).on = (getSw s c).on)) ∧
  (∀ (s : State) (t : Fc) (ch : Fin 96),
      (getPps s (ch.val / 48)).powered = true →
      swOdd s ch = false →
      dbit s R.SBK_CH_STAT_TRIPPED ch = true →
      dbit s R.SBK_CH_PROT_POLICY ch = true →
      swTheta s ch ≤ 1 / 2 →
      swQueued s ch = false →
      (getSw s ch).on = false →
      heldNow (advance s t) ch = false →
      dbit s R.SBK_CH_STAT_THERM_LATCH ch = false →
      dbit s R.SBK_CH_STAT_LOCKED ch = false →
      (getFeed s (ch.val / 48)).uv = false →
      dbit s R.SBK_CH_STAT_UV_OFF ch = false →
      dbit s R.SBK_CH_STAT_SHED ch = false →
      (getSw s ch).duty ≠ 0 →
      (getSw s ch).barred = false →
      dget s R.SBK_CH_STAT_RETRIES_USED ch < dget s R.SBK_CH_PROT_RETRY_MAX ch →
      ∃ u, exec (.retryRestart t ch) s = .next u ∧ (∀ c ∈ swMembers s ch, dget u R.SBK_CH_STAT_TRIPPED c = 0 ∧ (getSw u c).on = true ∧ dget u R.SBK_CH_COUNTS_RESTARTS c = satTo R.SBK_CH_COUNTS_RESTARTS.width (dget s R.SBK_CH_COUNTS_RESTARTS c + 1) ∧ dget u R.SBK_CH_STAT_RETRIES_USED c = satTo R.SBK_CH_STAT_RETRIES_USED.width (dget s R.SBK_CH_STAT_RETRIES_USED c + 1) ∧
        (getSw u c).window ≠ none)) ∧
  (∀ (s : State) (t : Fc) (ch : Fin 96) (w : Nat),
      (getPps s (ch.val / 48)).powered = true →
      (getSw s ch).window = some w →
      w ≤ max s.now t →
      ∃ u, exec (.retryWindowEnd t ch) s = .next u ∧ (∀ c ∈ swMembers s ch, (getSw u c).window = none ∧ dget u R.SBK_CH_STAT_RETRIES_USED c = 0)) ∧
  (∀ (s : State) (t : Fc) (ch : Fin 96) (m a : Nat),
      (getPps s (ch.val / 48)).powered = true →
      swOdd s ch = false →
      dbit s R.SBK_CH_OL_OL_EN ch = true →
      (getSw s ch).on = true →
      shortOn s ch (getSw s ch).duty = false →
      m < dval s R.SBK_CH_OL_OL_MA ch →
      (max a (getSw s ch).onAt) + (getSw s ch).shortTime (max a (getSw s ch).onAt) (max s.now t) + dval s R.SBK_CH_OL_OL_DEBOUNCE_MS ch * 400000 ≤ max s.now t →
      dbit s R.SBK_CH_STAT_OPEN_LOAD ch = false →
      ∃ u, exec (.openLoadDetect t ch m a) s = .next u ∧ (∀ c ∈ swMembers s ch, dget u R.SBK_CH_STAT_OPEN_LOAD c = 1 ∧ dget u R.SBK_CH_COUNTS_OPEN_LOADS c = satTo R.SBK_CH_COUNTS_OPEN_LOADS.width (dget s R.SBK_CH_COUNTS_OPEN_LOADS c + 1) ∧ (getSw u c).on = (getSw s c).on)) ∧
  (∀ (s : State) (t : Fc) (ch : Fin 96) (m : Nat),
      (getPps s (ch.val / 48)).powered = true →
      dval s R.SBK_CH_OL_OL_MA (swLead s ch) < m →
      shortOn s (swLead s ch) (getSw s (swLead s ch)).duty = false →
      ∃ u, exec (.openLoadClear t ch m) s = .next u ∧ (∀ c ∈ swMembers s ch, dget u R.SBK_CH_STAT_OPEN_LOAD c = 0)) ∧
  (∀ (s : State) (t : Fc) (p : Fin 2) (mv a : Nat),
      (getPps s p).powered = true →
      mv < uvMv s p →
      a + 20000 ≤ max s.now t →
      ∃ u, exec (.feedUv t p mv a) s = .next u ∧ (getFeed u p).uv = true ∧ (∀ c ∈ planeChans p, (getSw u c).on = false ∧ ((getSw s c).duty ≠ 0 → dget u R.SBK_CH_STAT_UV_OFF c = 1))) ∧
  (∀ (s : State) (t : Fc) (p : Fin 2) (mv a : Nat),
      (getPps s p).powered = true →
      (getFeed s p).uv = true →
      uvMv s p + uvHystMv s p ≤ mv →
      (getFeed s p).fallAt.all (fun x => decide (x ≤ a)) = true →
      a + rval s R.SBK_FEED_UV_RESTART_10MS (feedInst p) * 10 * 400000 ≤ max s.now t →
      ∃ u, exec (.uvRestartDelayExpiry t p mv a) s = .next u ∧ (getFeed u p).uv = false ∧ (∀ c ∈ planeChans p, dget u R.SBK_CH_STAT_UV_OFF c = 0)) ∧
  (∀ (s : State) (t : Fc) (p : Fin 2) (c0 : Nat) (l : List Nat),
      (getPps s p).powered = true →
      (getFeed s p).restart = c0 :: l →
      (getFeed s p).restartAt ≤ max s.now t →
      (getFeed s p).uv = false →
      c0 / 48 = p.val →
      c0 ∉ l →
      swOdd s c0 = false →
      swStopped s c0 = false →
      dbit s R.SBK_CH_STAT_UV_OFF c0 = false →
      (getSw s c0).duty ≠ 0 →
      (getSw s c0).on = false →
      heldNow (advance s t) c0 = false →
      dget s R.SBK_CH_STAT_RETRIES_USED c0 < dget s R.SBK_CH_PROT_RETRY_MAX c0 →
      ∃ u, exec (.uvRestartStep t p) s = .next u ∧ (getFeed u p).restart = l ∧ (∀ c ∈ swMembers s c0, (getSw u c).on = true ∧ (getSw u c).duty = (getSw s c).duty)) ∧
  (∀ (s : State) (t : Fc) (p : Fin 2) (a n r : Nat),
      (getPps s p).powered = true →
      rval s R.SBK_FEED_LIMIT_LIMIT_A (feedInst p) < a →
      max n (getFeed s p).shedAt + 2000000 ≤ max s.now t →
      shedRank s p = some r →
      ∃ u, exec (.planeShed t p a n) s = .next u ∧ (getFeed u p).shed = r :: (getFeed s p).shed ∧ (∀ c ∈ planeChans p, dget s R.SBK_CH_PROT_SHED_RANK (swLead s c) = r →
          (getSw u c).on = false ∧ dget u R.SBK_CH_STAT_SHED c = 1)) ∧
  (∀ (s : State) (t : Fc) (p : Fin 2) (a n r : Nat) (l : List Nat),
      (getPps s p).powered = true →
      (getFeed s p).shed = r :: l →
      10 * a < 9 * rval s R.SBK_FEED_LIMIT_LIMIT_A (feedInst p) →
      max n (getFeed s p).shedAt + 400000000 ≤ max s.now t →
      ∃ u, exec (.shedRestore t p a n) s = .next u ∧ (getFeed u p).shed = l ∧ (∀ c ∈ planeChans p, dget s R.SBK_CH_PROT_SHED_RANK (swLead s c) = r → dbit s R.SBK_CH_STAT_SHED c = true → dget u R.SBK_CH_STAT_SHED c = 0))

/-- Each of CLEAR_BID, COMMIT_RX, FENCE_ACK_RX, FORWARD_CONFIRM_TIMEOUT, HANDOVER_TIMEOUT, HEALTH_RX, HEALTH_TX, HEARTBEAT_RX, HOLDING_TIMEOUT, HOLD_WINDOW_EXPIRY, MIRROR_RX, PAIR_HANDOVER, PLANE_SUPERVISOR_POWER_LOSS, PLANE_SUPERVISOR_POWER_UP, PPS_ARM, PPS_DISARM, RESYNC_RX, SAFE_NOW, SERVICE_RX, SHADOW_ROW, STARTING_LISTEN_EXPIRY, TAKEOVER_RX, XLK_BAD_FRAME, XLK_LINK_DOWN and XLK_LINK_UP completes: under conditions on the state and the operands alone, exec answers a next state, and that state is, or holds, what the clause gives of the command's own effect. -/
def Obligations.PairComplete : Prop :=
  (∀ (s : State) (t : Fc) (p : Fin 2),
      (getPps s p).powered = true →
      s.fabric = true →
      planeArmed s p = false →
      ppsLoading s p = false →
      (∀ k < 6, rbit s R.DBK_CTRL_ENABLE (6 * p + k) = true → firstFail s (6 * p + k) = none) →
      holdCondition s p = true →
      safeValuesOk s p = true →
      lcState s ≠ 4 →
      ∃ u, exec (.ppsArm t p) s = .next u ∧ planeArmed u p = true ∧ rget u R.PPS_CTRL_ARM_ERR p = 0) ∧
  (∀ (s : State) (t : Fc) (p : Fin 2),
      (getPps s p).powered = true →
      s.fabric = true →
      planeArmed s p = true →
      ppsLoading s p = false →
      ∃ u, exec (.ppsDisarm t p) s = .next u ∧ planeArmed u p = false ∧ rget u R.PPS_CTRL_ARM p = 0) ∧
  (∀ (s : State) (t : Fc) (p : Fin 2),
      (getPps s p).powered = true →
      s.fabric = true →
      ppsLoading s p = false →
      planeArmed s p = true →
      (getPps s p).live = true →
      ∃ u, exec (.safeNow t p) s = .next u ∧ rget u R.PPS_STATUS_SAFE_ACTIVE p = 1 ∧ (getPps u p).expired = List.range 96) ∧
  (∀ (s : State) (t : Fc) (p : Fin 2),
      (getPps s p).powered = true →
      s.fabric = true →
      planeArmed s p = false →
      (lcState s = 0 ∨ lcState s = 3) →
      ∃ u, exec (.clearBid t p) s = .next u ∧ rget u R.PPS_HIGHEST_BID p = 0) ∧
  (∀ (s : State) (t : Fc) (p : Fin 2),
      (getPps s p).powered = true →
      (getPps s p).live = true →
      2 * (getPps s p).contactAt + 3 * ppsPeriod s p ≤ 2 * (max s.now t) →
      ∃ u, exec (.holdingTimeout t p) s = .next u ∧ rget u R.PPS_STATUS_HOLDING p = 1) ∧
  (∀ (s : State) (t : Fc) (p : Fin 2) (d : Bool) (n : Fin 48) (k : Nat),
      (getPps s p).powered = true →
      planeArmed s p = true →
      (getPps s p).live = true →
      commitNow (advance s t) p = false →
      (k = (if d then n.val else 48 + n.val)) →
      k ∉ (getPps s p).expired →
      2 * ((getPps s p).contactAt + holdWindowUs (holdRows s p d n) (rget s R.PPS_STATUS_TICK_US p) * 400) + ppsPeriod s p ≤ 2 * (max s.now t) →
      ∃ u, exec (.holdWindowExpiry t p d n) s = .next u ∧ rget u R.PPS_STATUS_SAFE_ACTIVE p = 1 ∧ (getPps u p).expired = k :: (getPps s p).expired ∧ rget u R.PPS_HOLD_EVENTS_HOLD_EXPIRIES p = satTo R.PPS_HOLD_EVENTS_HOLD_EXPIRIES.width (rget s R.PPS_HOLD_EVENTS_HOLD_EXPIRIES p + 1)) ∧
  (∀ (s : State) (t : Fc) (p : Fin 2),
      (getPps s p).powered = true →
      ∃ u, exec (.planeSupervisorPowerLoss t p) s = .next u ∧ (getPps u p).powered = false ∧ rget u R.PPS_HIGHEST_BID p = 0 ∧ planeArmed u p = false) ∧
  (∀ (s : State) (t : Fc) (p : Fin 2),
      (getPps s p).powered = false →
      ∃ u, exec (.planeSupervisorPowerUp t p) s = .next u ∧ getPps u p = { Pps.idle with pairId := rget s R.XLK_PAIR_ID_PAIR_ID } ∧ rget u R.PPS_HIGHEST_BID p = 0) ∧
  (∀ (s : State) (t : Fc) (p : Fin 2) (b row us : Nat) (l : List SentCmd),
      (getPps s p).powered = true →
      ppsLoading s p = false →
      (max (rget s R.PPS_HIGHEST_BID p) (takeoverNow (advance s t) p)) ≤ b →
      exec (.commitRx ⟨t, (getPps s p).pairId⟩ p false b row us l) s = .next (ppsContact (if (max (rget s R.PPS_HIGHEST_BID p) (takeoverNow (advance s t) p)) < b then rset (advance s t) R.PPS_HIGHEST_BID b p else advance s t) p false .commit row us (partnerCmds (advance s t) p row l))) ∧
  (∀ (s : State) (t : Fc) (p : Fin 2) (b : Nat),
      (getPps s p).powered = true →
      ppsLoading s p = false →
      rget s R.PPS_HIGHEST_BID p < b →
      ∃ u, exec (.takeoverRx ⟨t, (getPps s p).pairId⟩ p b) s = .next u ∧ rget u R.PPS_HIGHEST_BID p = b % 2 ^ R.PPS_HIGHEST_BID.width) ∧
  (∀ (s : State) (t : Fc),
      s.fabric = true →
      role s = 2 →
      s.xlk.fencedOut = false →
      ∃ u, exec (.fenceAckRx ⟨t, (rget s R.XLK_PAIR_ID_PAIR_ID)⟩ (rget s R.XLK_BID_BID)) s = .next u ∧ u.xlk = { s.xlk with fencedOut := true }) ∧
  (∀ (s : State) (t : Fc) (h : Heartbeat),
      s.fabric = true →
      pairEn s = true →
      h.stopped = false →
      (h.role = 2 ∨ h.role = 4 ∨ s.xlk.handover = []) →
      ∃ u, exec (.heartbeatRx ⟨t, (rget s R.XLK_PAIR_ID_PAIR_ID)⟩ h) s = .next u ∧ rget u R.XLK_ROLE_MISSED = 0 ∧ u.xlk.lastHb = some h) ∧
  (∀ (s : State) (t : Fc) (row off : Nat) (l : List Nat),
      s.fabric = true →
      (role s = 3 ∨ role s = 4) →
      ∃ u, exec (.mirrorRx ⟨t, (rget s R.XLK_PAIR_ID_PAIR_ID)⟩ row off l) s = .next u ∧ (∀ e < 8, tblGet? u.xlk.mirror (off / 8 + e) = some (l.getD e 0))) ∧
  (∀ (s : State) (t : Fc) (l : List Nat),
      s.fabric = true →
      (∀ x ∈ l, x < 2 ^ 32) →
      ∃ u, exec (.healthRx ⟨t, (rget s R.XLK_PAIR_ID_PAIR_ID)⟩ l) s = .next u ∧ (∀ k < 16, rget u R.XLK_PEER_HEALTH_WORD 0 k = l.getD k 0)) ∧
  (∀ (s : State) (t : Fc) (i : ResyncItem),
      s.fabric = true →
      edgeDue (advance s t) = false →
      (role s = 3 ∨ role s = 4) →
      i ≠ .confirm →
      i ≠ .pull →
      i ≠ .dated →
      exec (.resyncRx ⟨t, (rget s R.XLK_PAIR_ID_PAIR_ID)⟩ 0 i) s = .next (applyItem (advance s t) i)) ∧
  (∀ (s : State) (t : Fc) (l : List Nat),
      s.fabric = true →
      ∃ u, exec (.serviceRx ⟨t, (rget s R.XLK_PAIR_ID_PAIR_ID)⟩ l) s = .next u ∧ u.xlk.service = l) ∧
  (∀ (s : State) (t : Fc) (l : List Nat),
      s.fabric = true →
      (l.getLast? ≠ some (crc32 (linkBytes l.dropLast)) ∨ l.getD 0 0 ≠ (rget s R.XLK_PAIR_ID_PAIR_ID)) →
      ∃ u, exec (.xlkBadFrame ⟨t, l⟩) s = .next u ∧ rget u R.XLK_BAD_FRAMES_COUNT = satTo R.XLK_BAD_FRAMES_COUNT.width (rget s R.XLK_BAD_FRAMES_COUNT + 1)) ∧
  (∀ (s : State) (t : Fc) (d : Nat),
      s.fabric = true →
      ∃ u, exec (.xlkLinkUp t d) s = .next u ∧ rget u R.XLK_ROLE_LINK_UP = 1 ∧ u.xlk.cableNs = d) ∧
  (∀ (s : State) (t : Fc),
      s.fabric = true →
      ∃ u, exec (.xlkLinkDown t) s = .next u ∧ rget u R.XLK_ROLE_LINK_UP = 0) ∧
  (∀ (s : State) (t : Fc) (l : List Nat),
      s.fabric = true →
      pairEn s = true →
      moduleTime (advance s t) / 1000000000 ≠ s.xlk.healthAt →
      ∃ u, exec (.healthTx t l) s = .next u ∧ u.xlk.out = s.xlk.out ++ [⟨some 2, 5, frameWords (rget s R.XLK_PAIR_ID_PAIR_ID) 5 s.xlk.txSeq (healthWords (advance s t) l), none⟩]) ∧
  (∀ (s : State) (t : Fc) (r : Ref) (d : Desc) (h : Heartbeat),
      s.fabric = true →
      heldDesc s r 0xB 0x40 = some d →
      due (advance s t) d = true →
      role s = 2 →
      s.xlk.lastHb = some h →
      h.role = 4 →
      rbit s R.XLK_ROLE_PARTNER_LOST = false →
      ∃ u, exec (.pairHandover t r) s = .next u ∧ u.xlk.handover = s.xlk.handover ++ [(r, rowNow s)]) ∧
  (∀ (s : State) (t : Fc) (r : Ref) (row : Nat),
      s.fabric = true →
      s.xlk.handover = [(r, row)] →
      row + rval s R.XLK_PAIR_CFG_HB_MISS + 1 < rowNow s →
      s.xlk.fencedOut = false →
      ∃ u, exec (.handoverTimeout t) s = .next u ∧ u.xlk.handover = [] ∧ u.reqs = (complete s r stPartnerAbsent 0x0282).reqs) ∧
  (∀ (s : State) (t : Fc),
      s.fabric = true →
      role s = 1 →
      s.xlk.startRow + rval s R.XLK_PAIR_CFG_HB_MISS + 2 ≤ rowNow s →
      s.xlk.lastHb = none →
      rbit s R.XLK_PAIR_CFG_ALONE_OK = true →
      ∃ u, exec (.startingListenExpiry t true) s = .next u ∧ rget u R.XLK_ROLE_ROLE = 2 ∧ rget u R.XLK_BID_BID = (nextEpoch s * 256 + rankOf s) % 2 ^ 32) ∧
  (∀ (s : State) (t : Fc) (h : Heartbeat) (a : State) (r : State × Nat),
      s.fabric = true →
      (role s = 3 ∨ role s = 4) →
      s.xlk.shadowed = false →
      s.xlk.lastHb = some h →
      h.role = 2 →
      (h.mirrorCount = 0 ∨ (s.xlk.mirrorRow = h.row ∧ h.mirrorCount ≤ s.xlk.mirrorGot)) →
      h.overrun = false →
      h.stopped = false →
      h.disarmed = false →
      a = (shadowEpoch (applyInbox { advance s t with xlk := { s.xlk with shadowed := true } } h.row) h.epoch) →
      r = shadowRun a h →
      exec (.shadowRow t) s = .next (shadowCompare { r.1 with xlk := { r.1.xlk with shadow := shadowReport h r.2 } } r.2 h.digest)) ∧
  (∀ (s : State) (t : Fc) (f : Forwarded) (l : List Forwarded),
      s.fabric = true →
      edgeDue (advance s t) = false →
      s.xlk.forwards = f :: l →
      f.sentAt + 40000000 ≤ max s.now t →
      ∃ u, exec (.forwardConfirmTimeout t) s = .next u ∧ u.xlk.forwards = l)

/-- Each of ACQ_SEARCH_DONE, ANT_OPEN, ANT_SHORT, ANT_SUPPLY_RETRY, CHANNEL_LOCK_LOSS, CORR_AGE_EXPIRY, DR_TIMEOUT, HOLDOVER_ENTRY, LEAP_DECODE, NAV_FILTER_STEP, NAV_SAVE, NAV_SEARCH, PULSE_BOUNDARY, RTCM_IN, SLEW_COMPLETE and TIME_SOLUTION completes: under conditions on the state and the operands alone, exec answers a next state, and that state is, or holds, what the clause gives of the command's own effect. -/
def Obligations.NavigationComplete : Prop :=
  (∀ (s : State) (t : Fc) (r : Ref) (d : Desc) (k : Bool),
      s.fabric = true →
      heldDesc s r 0xB 0x51 = some d →
      due (advance s t) d = true →
      searchRoom s (bitOf d.classWord 16) = true →
      ∃ u, exec (.navSearch t ⟨r, k⟩) s = .next u ∧ u.nav.searches = s.nav.searches ++ [⟨r, bitOf d.classWord 16, d.classWord % 32, bitField d.classWord 8 8, searchMode (advance s t) (bitOf d.classWord 17) k⟩]) ∧
  (∀ (s : State) (t : Fc) (r : Ref) (x : NavSearch) (b : Bool) (g v : Nat) (a : SatAid) (f : Bool) (n : Nat),
      s.fabric = true →
      s.nav.searches.find? (fun x => x.ref == r) = some x →
      searchFound (advance s t) x.mode x.sig x.sat a f = false →
      ∃ u, exec (.acqSearchDone t (some r) b g v a f n) s = .next u ∧ (u.nav.searches = s.nav.searches.filter (fun y => y.ref != r)) ∧ u.nav.acqMode = x.mode ∧ u.reqs = (complete s r stDone (256 * (n % 256))).reqs) ∧
  (∀ (s : State) (t : Fc) (b : Bool) (g v : Nat),
      s.fabric = true →
      (b = false ∨ rbit s R.NAV_CTRL_HEADING_EN = false) →
      ∃ u, exec (.channelLockLoss t b g v none) s = .next u ∧ (∀ c ∈ u.nav.trk, ¬(c.antB = b ∧ c.sig = g ∧ c.sat = v)) ∧ rget u R.NAV_STATE_TRK_A = (u.nav.trk.filter fun c => !c.antB).length % 2 ^ R.NAV_STATE_TRK_A.width) ∧
  (∀ (s : State) (t : Fc) (r : Ref) (d : Desc) (l : List Nat) (g : List (Nat × Nat)),
      s.fabric = true →
      heldDesc s r 0xB 0x50 = some d →
      due (advance s t) d = true →
      1 ≤ (d.word 0x18 % 65536) →
      (d.word 0x18 % 65536) ≤ 4096 →
      rbit s R.NAV_CTRL_RTK_EN = true →
      exec (.rtcmIn t r l g) s = .next (complete (rinc ((rtcmParse ((d.word 0x18 % 65536) + 1) (l.take (d.word 0x18 % 65536)) ⟨0, 0, 0, []⟩).msgs.foldl (rtcmTake g) (takeReq (advance s t) r)) R.NAV_RTCM_ERRS_COUNT (rtcmParse ((d.word 0x18 % 65536) + 1) (l.take (d.word 0x18 % 65536)) ⟨0, 0, 0, []⟩).badCrc) r stDone
        (min (rtcmParse ((d.word 0x18 % 65536) + 1) (l.take (d.word 0x18 % 65536)) ⟨0, 0, 0, []⟩).taken 255 + 256 * min (rtcmParse ((d.word 0x18 % 65536) + 1) (l.take (d.word 0x18 % 65536)) ⟨0, 0, 0, []⟩).ignored 255))) ∧
  (∀ (s : State) (t : Fc) (m : NavMeas),
      s.fabric = true →
      s.nav.stepNext ≤ moduleTime (advance s t) →
      ∃ u, exec (.navFilterStep t m) s = .next u ∧ u.nav.record.solTime = (moduleTime (advance s t) / 1000000 * 1000000) ∧ u.nav.record.lat = m.lat ∧ u.nav.record.lon = m.lon) ∧
  (∀ (s : State) (t : Fc),
      s.fabric = true →
      s.nav.record.fix = 5 →
      drMaxFc s ≤ outageFc (advance s t) →
      ∃ u, exec (.drTimeout t) s = .next u ∧ u.nav.record.posValid = false ∧ u.nav.record.speedValid = false) ∧
  (∀ (s : State) (t : Fc),
      s.fabric = true →
      (s.nav.record.fix = 3 ∨ s.nav.record.fix = 4) →
      rtkOk (advance s t) = false →
      ∃ u, exec (.corrAgeExpiry t) s = .next u ∧ u.nav.record = { s.nav.record with fix := bestFix (advance s t) s.nav.fixMask }) ∧
  (∀ (s : State) (t : Fc) (b : Bool),
      s.fabric = true →
      supplyOn s b = true →
      rbit s (antOpenFld b) = false →
      ∃ u, exec (.antOpen t b true) s = .next u ∧ rget u (antOpenFld b) = 1) ∧
  (∀ (s : State) (t : Fc) (b : Bool),
      s.fabric = true →
      supplyOn s b = true →
      rbit s (antShortFld b) = false →
      ∃ u, exec (.antShort t b) s = .next u ∧ rget u (antShortFld b) = 1 ∧ tblGet? u.nav.supplyOff (b2n b) = some (max s.now t)) ∧
  (∀ (s : State) (t : Fc) (b : Bool) (a : Nat),
      s.fabric = true →
      tblGet? s.nav.supplyOff (b2n b) = some a →
      a + 400000000 ≤ max s.now t →
      ∃ u, exec (.antSupplyRetry t b true) s = .next u ∧ rget u (antShortFld b) = 0) ∧
  (∀ (s : State) (t : Fc) (x y : Nat),
      s.fabric = true →
      1 ≤ s.nav.record.fix →
      s.nav.record.fix ≤ 4 →
      s.nav.savedAt + 600 * 400000000 ≤ max s.now t →
      ∃ u, exec (.navSave t x y) s = .next u ∧ (u.nav.saved = some ⟨x, y, s.nav.record.lat, s.nav.record.lon, if rbit s R.NAV_LEAP_LEAP_VALID then some (rget s R.NAV_LEAP_LEAP_S) else none⟩) ∧ u.nav.savedAt = max s.now t) ∧
  (∀ (s : State) (t : Fc) (d : Int) (q : Bool) (a b : Option Int) (n : Nat) (far : Bool),
      s.fabric = true →
      rbit s R.NAV_CTRL_EN = true →
      ((a = some d ∧ q = false) ∨ (a = none ∧ b = some d ∧ rbit s R.NAV_CTRL_ANT_B_EN = true ∧ q = true)) →
      (s.nav.started = true ∨ far = false) →
      n ≤ 100 →
      rget s R.NAV_STATE_TIME_STATE = 0 →
      ∃ u, exec (.timeSolution t a b n far) s = .next u ∧ rget u R.NAV_STATE_TIME_STATE = 1 ∧ u.timeOff = s.timeOff - (d - cableDelay s q) ∧ rget u R.NAV_TIME_UNC_NS = n) ∧
  (∀ (s : State) (t : Fc) (n : Fin 256),
      s.fabric = true →
      ∃ u, exec (.leapDecode t n) s = .next u ∧ rget u R.NAV_LEAP_LEAP_S = n % 2 ^ R.NAV_LEAP_LEAP_S.width ∧ rget u R.NAV_LEAP_LEAP_VALID = 1) ∧
  (∀ (s : State) (t : Fc) (e : Nat) (c : Int),
      s.fabric = true →
      (rget s R.NAV_STATE_TIME_STATE = 1 ∨ rget s R.NAV_STATE_TIME_STATE = 3) →
      s.nav.solAt + 400000000 ≤ max s.now t →
      ∃ u, exec (.holdoverEntry t e c) s = .next u ∧ rget u R.NAV_STATE_TIME_STATE = 2 ∧ u.nav.u0 = 4 * s.nav.solUnc + (slewLeft (advance s t)).natAbs) ∧
  (∀ (s : State) (t : Fc) (c : Int),
      s.fabric = true →
      tpNext s ≤ moduleTime (advance s t) →
      rget s R.NAV_STATE_TIME_STATE ≠ 2 →
      boundaryDelta (advance s t) = none →
      ∃ u, exec (.pulseBoundary t c) s = .next u ∧ rget64 u R.NAV_TP_LAST_LO_TIME R.NAV_TP_LAST_HI_TIME = tpNext s % 2 ^ 64 ∧ rget u R.NAV_TP_STAT_SEQ = (rget s R.NAV_TP_STAT_SEQ + 1) % 2 ^ R.NAV_TP_STAT_SEQ.width) ∧
  (∀ (s : State) (t : Fc),
      s.fabric = true →
      rget s R.NAV_STATE_TIME_STATE = 3 →
      slewLeft (advance s t) = 0 →
      ∃ u, exec (.slewComplete t) s = .next u ∧ rget u R.NAV_STATE_TIME_STATE = 1 ∧ u.nav.slew = 0)

/-- Each of JOVF_COPY, JRN_ACCESS_DONE, JRN_READ, JRN_WRITE, MAP_EXTRACT, STORE_ACCESS_DONE, STORE_LIFE_POLL, STORE_READ, STORE_WRITE, TILE_FLUSH, TILE_FLUSH_DONE, TILE_FLUSH_DUE, TILE_LOAD, TILE_LOAD_DONE, TILE_REFRESH, TILE_WRITE, WRITE_BUDGET_DAY_END and WRITE_INLINE completes: under conditions on the state and the operands alone, exec answers a next state, and that state is, or holds, what the clause gives of the command's own effect. -/
def Obligations.StorageComplete : Prop :=
  (∀ (s : State) (t : Fc) (x : Extract) (l : List Extract) (b a : HistPos) (e : Nat),
      s.fabric = true →
      s.sto.samples = x :: l →
      x.q00Bad = false →
      s.sto.prevEdge = some e →
      e ≤ x.edge →
      x.edge ≤ e + 100000000 →
      travelDelay s x.q00 ≤ x.edge →
      bracket (enterHistory (advance s t) x) (x.edge - travelDelay s x.q00) = some (b, a) →
      b.recording = true →
      b.sections ≠ 0 →
      (needTiles (enterHistory (advance s t) x) (stripTiles (stripsOf (enterHistory (advance s t) x) (pointAt b a (x.edge - travelDelay s x.q00)) b.heading b.sections))).2 = true →
      ∃ u, exec (.mapExtract t) s = .next u ∧ u.sto.inRun = true ∧ u.sto.lastMapped.isSome = true) ∧
  (∀ (s : State) (t : Fc) (r : Ref) (d : Desc) (k : Nat) (c : CacheSlot),
      s.fabric = true →
      heldDesc s r 0xB 0x60 = some d →
      due (advance s t) d = true →
      tileError s (d.quad 0x10) = none →
      cacheFind s (d.quad 0x10) = some (k, c) →
      c.loading = false →
      ∃ u, exec (.tileLoad t r) s = .next u ∧ u.reqs = (complete (takeReq (advance s t) r) r stDone k).reqs) ∧
  (∀ (s : State) (t : Fc) (r : Ref) (d : Desc) (img : List Nat) (k : Nat) (c : CacheSlot),
      s.fabric = true →
      heldDesc s r 0xB 0x61 = some d →
      due (advance s t) d = true →
      tileError s (d.quad 0x10) = none →
      tileKind (d.quad 0x10) = 3 →
      tileImageOk s (d.quad 0x10) img = true →
      cacheFind s (d.quad 0x10) = some (k, c) →
      c.loading = false →
      tblGet? s.sto.cache k = some c →
      tblSorted s.sto.cache = true →
      tblSorted c.tile.cells = true →
      ∃ u, exec (.tileWrite t r img) s = .next u ∧ (∃ n, tblGet? u.sto.cache k = some n ∧ n.loading = false ∧ n.dirty.isSome = true ∧ n.tile.id = c.tile.id ∧ n.tile.origin = imgWord img 0xC ∧ ∀ i, tileCell n.tile i = tblGetD (imageCells (tileKind (d.quad 0x10)) 0 ((img.drop 16).take (tileWords (tileKind (d.quad 0x10)) - 16))) i 0)) ∧
  (∀ (s : State) (t : Fc) (r : Ref) (d : Desc),
      s.fabric = true →
      heldDesc s r 0xB 0x62 = some d →
      due (advance s t) d = true →
      cacheBase s ≠ 0 →
      keyWithheld s 4 = false →
      (∀ p ∈ s.sto.cache, slotDirty p.2 = false) →
      ∃ u, exec (.tileFlush t r) s = .next u ∧ u.reqs = (complete (takeReq (advance s t) r) r stDone).reqs) ∧
  (∀ (s : State) (t : Fc) (k : Fin 4096) (c : CacheSlot) (a : Nat),
      s.fabric = true →
      keyWithheld s 4 = false →
      tblGet? s.sto.cache k = some c →
      c.dirty = some a →
      c.flushing = none →
      c.loading = false →
      a + rval s R.STO_FLUSH_FLUSH_S * 400000000 ≤ max s.now t →
      ∃ u, exec (.tileFlushDue t k) s = .next u ∧ tblGet? u.sto.cache k = some { c with dirty := none, flushing := some c.tile }) ∧
  (∀ (s : State) (t : Fc) (k : Fin 4096) (n m : Nat) (c : CacheSlot),
      s.fabric = true →
      tblGet? s.sto.cache k = some c →
      c.loading = true →
      storeTurn (advance s t) = some 3 →
      exec (.tileLoadDone t k true n m) s = .next (storeNext (serveWaits { advance s t with sto := { s.sto with cache := tblSet s.sto.cache k { c with loading := false } } }))) ∧
  (∀ (s : State) (t : Fc) (k : Fin 4096) (n m : Nat) (c : CacheSlot) (im : Tile),
      s.fabric = true →
      tblGet? s.sto.cache k = some c →
      c.flushing = some im →
      (storeTurn (advance s t) = some 0 ∨ storeTurn (advance s t) = some 3) →
      exec (.tileFlushDone t k true n m) s = .next (storeNext (serveWaits (flushSettled (modSlot (storeTile (advance s t) im c.pubAt c.pubLast) k fun c => { c with flushing := none }) k)))) ∧
  (∀ (s : State) (t : Fc) (id : Nat) (x : Stored),
      s.fabric = true →
      tblGet? s.sto.map id = some x →
      s.sto.refreshAt.all (fun a => a + 4000000000 ≤ max s.now t) = true →
      storeTurn (advance s t) = none →
      keyWithheld s 4 = false →
      x.at_ + 365 * 86400 * 1000000000 < moduleTime (advance s t) →
      ∃ u, exec (.tileRefresh t id) s = .next u ∧ tblGet? u.sto.map x.tile.id = some ⟨x.tile, moduleTime (advance s t), Config.tileBlock s.sto.locations, x.pubAt, x.pubLast⟩ ∧ u.sto.refreshAt = some (max s.now t)) ∧
  (∀ (s : State) (t : Fc) (r : Ref) (d : Desc),
      s.fabric = true →
      heldDesc s r 0xB 0x64 = some d →
      due (advance s t) d = true →
      storeFirst (advance s t) r = true →
      1 ≤ (d.word 0x1C % 65536) →
      (d.word 0x1C % 65536) ≤ 256 →
      d.word 0x18 + (d.word 0x1C % 65536) ≤ partMib (d.classWord % 16) * 256 →
      3 ≤ (d.classWord % 16) →
      (d.classWord % 16) ≤ 6 →
      keyWithheld s (d.classWord % 16) = false →
      ∃ u, exec (.storeRead t r) s = .next u ∧ u.sto.jobs = s.sto.jobs ++ [⟨r, d.classWord % 16, d.word 0x18, d.word 0x1C % 65536, false, d.quad 0x10, []⟩]) ∧
  (∀ (s : State) (t : Fc) (r : Ref) (d : Desc) (l : List Nat),
      s.fabric = true →
      heldDesc s r 0xB 0x65 = some d →
      due (advance s t) d = true →
      storeFirst (advance s t) r = true →
      1 ≤ (d.word 0x1C % 65536) →
      (d.word 0x1C % 65536) ≤ 256 →
      d.word 0x18 + (d.word 0x1C % 65536) ≤ partMib (d.classWord % 16) * 256 →
      ((d.classWord % 16) = 5 ∨ (d.classWord % 16) = 6) →
      keyWithheld s (d.classWord % 16) = false →
      s.sto.dayStart.all (fun a => moduleTime (advance s t) < a + 86400 * 1000000000) = true →
      s.sto.dayBytes + (d.word 0x1C % 65536) * 4096 ≤ (rget s R.STO_WRITE_BUDGET_MIB_DAY * 1048576) →
      ∃ u, exec (.storeWrite t r l) s = .next u ∧ u.sto.jobs = s.sto.jobs ++ [⟨r, (d.classWord % 16), d.word 0x18, (d.word 0x1C % 65536), true, d.quad 0x10, l.take ((d.word 0x1C % 65536) * 4096)⟩]) ∧
  (∀ (s : State) (t : Fc) (j : StoreJob) (l : List StoreJob) (n m : Nat) (x : List Nat),
      s.fabric = true →
      s.sto.jobs = j :: l →
      storeAlone (advance s t) j.ref = true →
      j.write = true →
      ∃ u, exec (.storeAccessDone t true n m x) s = .next u ∧ (∀ k < j.data.length, tblGet? u.sto.store (2 ^ 40 * j.part + (4096 * j.block + k)) = some (BitVec.ofNat 8 (j.data.getD k 0))) ∧ u.reqs = (complete s j.ref stDone).reqs) ∧
  (∀ (s : State) (t : Fc) (a b e : Nat),
      s.fabric = true →
      s.sto.pollAt.all (fun a => a + 3600 * 400000000 ≤ max s.now t) = true →
      (e % 4 < 2 ∨ e % 4 = rget s R.STO_LIFE_PRE_EOL) →
      ∃ u, exec (.storeLifePoll t a b e) s = .next u ∧ rget u R.STO_LIFE_LIFE_A = a % 2 ^ R.STO_LIFE_LIFE_A.width ∧ rget u R.STO_LIFE_LIFE_B = b % 2 ^ R.STO_LIFE_LIFE_B.width ∧ rget u R.STO_LIFE_PRE_EOL = e % 2 ^ R.STO_LIFE_PRE_EOL.width) ∧
  (∀ (s : State) (t : Fc) (a : Nat),
      s.fabric = true →
      s.sto.dayStart = some a →
      a + 86400 * 1000000000 ≤ moduleTime (advance s t) →
      ∃ u, exec (.writeBudgetDayEnd t) s = .next u ∧ u.sto.dayStart = none ∧ u.sto.dayBytes = 0 ∧ rget u R.STO_WRITE_BUDGET_USED_MIB = 0) ∧
  (∀ (s : State) (t : Fc) (r : Ref) (d : Desc),
      s.fabric = true →
      heldDesc s r 0xA 1 = some d →
      due (advance s t) d = true →
      writeFirst (advance s t) r = true →
      1 ≤ d.word 0x30 % 16 →
      d.word 0x30 % 16 ≤ 8 →
      d.classWord % 4 = 0 →
      d.classWord + (4 * (d.word 0x30 % 16)) ≤ 0x2000000 →
      (∀ p ∈ pagesOf d.classWord (4 * (d.word 0x30 % 16)), tblGetD s.sto.pages p 0 < pageLimit (advance s t)) →
      ∃ u, exec (.writeInline t r) s = .next u ∧ u.sto.jrnJobs = s.sto.jrnJobs ++ [⟨r, 0x2000000 + d.classWord, true, 0, ((imgBytes d.body 32).take (4 * (d.word 0x30 % 16))).take (4 * (d.word 0x30 % 16))⟩]) ∧
  (∀ (s : State) (t : Fc) (r : Ref) (d : Desc) (x : List Nat),
      s.fabric = true →
      heldDesc s r 0xA 2 = some d →
      due (advance s t) d = true →
      writeFirst (advance s t) r = true →
      (d.word 0x18) % 4 = 0 →
      1 ≤ (d.word 0x18) →
      (d.word 0x18) ≤ 65536 →
      d.classWord % 4 = 0 →
      d.classWord + (d.word 0x18) ≤ 0x2000000 →
      (∀ p ∈ pagesOf d.classWord (d.word 0x18), tblGetD s.sto.pages p 0 < pageLimit (advance s t)) →
      ∃ u, exec (.jrnWrite t r x) s = .next u ∧ u.sto.jrnJobs = s.sto.jrnJobs ++ [⟨r, 0x2000000 + d.classWord, true, 0, x.take (d.word 0x18)⟩]) ∧
  (∀ (s : State) (t : Fc) (r : Ref) (d : Desc),
      s.fabric = true →
      heldDesc s r 0xA 3 = some d →
      due (advance s t) d = true →
      (d.word 0x18) % 4 = 0 →
      1 ≤ (d.word 0x18) →
      (d.word 0x18) ≤ 65536 →
      d.classWord % 4 = 0 →
      d.classWord + (d.word 0x18) ≤ 0x4000000 →
      ∃ u, exec (.jrnRead t r) s = .next u ∧ u.sto.jrnJobs = s.sto.jrnJobs ++ [⟨r, d.classWord, false, d.quad 0x10, List.replicate (d.word 0x18) 0⟩]) ∧
  (∀ (s : State) (t : Fc) (j : JrnJob) (l : List JrnJob),
      s.fabric = true →
      s.sto.jrnJobs = j :: l →
      j.write = true →
      0x2000000 ≤ j.off →
      j.off + j.data.length ≤ 0x4000000 →
      Memory.wf s.sto.soft = true →
      ∃ u, exec (.jrnAccessDone t true) s = .next u ∧ (∀ k < j.data.length, Memory.read u.sto.soft (j.off - 0x2000000 + k) = BitVec.ofNat 8 (j.data.getD k 0)) ∧ u.reqs = (complete s j.ref stDone).reqs) ∧
  (∀ (s : State) (t : Fc),
      s.fabric = true →
      s.log.copied + 128 ≤ s.log.written →
      storeTurn (advance s t) ≠ some 0 →
      keyWithheld s 3 = false →
      ∃ u, exec (.jovfCopy t) s = .next u ∧ u.log.copied = s.log.copied + 128 ∧ u.log.losing = false)

/-- Each of CAM_BUFFER_FULL, CAM_DISABLE, CAM_ENABLE, CAM_FE, CAM_FS, CAM_LINE, CAM_LINK_LOST, CAM_LINK_UP, CAM_POWER_FAULT, CAPTURE, CRACK_MEASURE, FSYNC_TRIGGER, ISP_FRAME_DONE, ISP_FRAME_START, ISP_PARAMS, LINE_WRITE_DONE, LINE_WRITE_START, PANEL_CRACK_CLEAR, PANEL_SUPPLY_FAULT, PNL_CLEAR, PNL_DISABLE, PNL_ENABLE, PNL_TEMP_SAMPLE, SENSOR_BURST_DONE, SENSOR_WRITE, UPDATE, VCOM_TOGGLE, VXA_JOB_DONE and VXA_RUN completes: under conditions on the state and the operands alone, exec answers a next state, and that state is, or holds, what the clause gives of the command's own effect. -/
def Obligations.CamerasAndPanelsComplete : Prop :=
  (∀ (s : State) (t : Fc) (p : Fin 4),
      s.fabric = true →
      camOn s p = false →
      camError s p = 0 →
      ∃ u, exec (.camEnable t p) s = .next u ∧ rget u R.CAM_CTRL_EN p = 1 ∧ getCam u p = { Cam.idle with live := (getCam s p).live, syncs := (getCam s p).syncs, overAt := (getCam s p).overAt }) ∧
  (∀ (s : State) (t : Fc) (p : Fin 4),
      s.fabric = true →
      camOn s p = true →
      ∃ u, exec (.camDisable t p) s = .next u ∧ rget u R.CAM_CTRL_EN p = 0 ∧ (getCam u p).cur = none ∧ (getCam u p).ready = []) ∧
  (∀ (s : State) (t : Fc) (p : Fin 4) (h : Fin 3) (csi k : Nat),
      s.fabric = true →
      p ≠ 0 →
      h ≠ 2 →
      camOn s p = true →
      rbit s R.CAM_CTRL_LINK_UP p = true →
      (getCam s p).cur = none →
      nextSlot s p = some k →
      ∃ u, exec (.camFs t p ⟨0, h, csi⟩) s = .next u ∧ (getCam u p).cur = some { CamFrame.start (advance s t) (getCam s p).next csi h with slot := some k, kept := true }) ∧
  (∀ (s : State) (t : Fc) (p : Fin 4) (dt : Fin 64) (h : Fin 3) (c : Bool) (px : List Nat) (f g : CamFrame) (k : Nat),
      s.fabric = true →
      h ≠ 2 →
      camOn s p = true →
      rbit s R.CAM_CTRL_LINK_UP p = true →
      rawType dt = true →
      (getCam (ispNow (advance s t)) p).cur = some f →
      (g = (if h = 0 then f else { f with hdrErrs := min (f.hdrErrs + 1) 65535 })) →
      f.received < camHeight s p →
      f.ovf = false →
      f.slot = some k →
      (f.kept = false ∨ (rawLine (rawBytes s p) (px.take (camWidth s p))).length ≤ bufSize - bufLevel (ispNow (advance s t)) p) →
      ∃ u, exec (.camLine t p 0 dt h c px) s = .next u ∧ (getCam u p).cur = some { g with
          received := f.received + 1, rows := if f.kept then px.take (camWidth s p) :: f.rows else f.rows,
          lineErrs := if px.length = camWidth s p then f.lineErrs else min (f.lineErrs + 1) 65535, crcLines := if c then f.crcLines else min (f.crcLines + 1) 65535 }) ∧
  (∀ (s : State) (t : Fc) (p : Fin 4) (h : Fin 3) (f : CamFrame),
      s.fabric = true →
      h ≠ 2 →
      camOn s p = true →
      rbit s R.CAM_CTRL_LINK_UP p = true →
      (getCam (ispNow (advance s t)) p).cur = some f →
      ∃ u, exec (.camFe t ⟨p, 0, h⟩) s = .next u ∧ (getCam u p).cur = none ∧ (getCam u p).feSeen = some f.no) ∧
  (∀ (s : State) (t : Fc) (p : Fin 4),
      s.fabric = true →
      rbit s R.CAM_CTRL_LINK_UP p = true →
      ∃ u, exec (.camLinkLost t p) s = .next u ∧ rget u R.CAM_CTRL_LINK_UP p = 0 ∧ (getCam u p).cur = none) ∧
  (∀ (s : State) (t : Fc) (p : Fin 4) (g : Fin 4),
      s.fabric = true →
      ∃ u, exec (.camLinkUp t p g) s = .next u ∧ rget u R.CAM_CTRL_LINK_UP p = 1 ∧ rget u R.CAM_CTRL_GEAR p = clampNat 1 3 g) ∧
  (∀ (s : State) (t : Fc) (p : Fin 4) (f : CamFrame),
      s.fabric = true →
      (getCam (ispNow (advance s t)) p).cur = some f →
      f.ovf = false →
      f.kept = true →
      bufSize < bufLevel (ispNow (advance s t)) p + camWidth s p * rawBytes s p →
      ∃ u, exec (.camBufferFull t p) s = .next u ∧ rget u R.CAM_LOSS_OVERFLOWS p = satTo R.CAM_LOSS_OVERFLOWS.width (rget s R.CAM_LOSS_OVERFLOWS p + 1)) ∧
  (∀ (s : State) (t : Fc) (p : Fin 4),
      s.fabric = true →
      rbit s R.CAM_CTRL_PWR_EN p = true →
      rbit s R.CAM_CTRL_PWR_FAULT p = false →
      ∃ u, exec (.camPowerFault t p true) s = .next u ∧ rget u R.CAM_CTRL_PWR_FAULT p = 1) ∧
  (∀ (s : State) (t : Fc) (p : Fin 4),
      s.fabric = true →
      rbit s R.CAM_CTRL_FSYNC_EN p = true →
      ((moduleTime (advance s t) + rval s R.CAM_FSYNC_PERIOD_US p * 1000 - rget s R.CAM_FSYNC_PHASE_PHASE_US p * 1000 % (rval s R.CAM_FSYNC_PERIOD_US p * 1000)) % (rval s R.CAM_FSYNC_PERIOD_US p * 1000)) ≤ 1000 →
      ((moduleTime (advance s t) + rval s R.CAM_FSYNC_PERIOD_US p * 1000 - rget s R.CAM_FSYNC_PHASE_PHASE_US p * 1000 % (rval s R.CAM_FSYNC_PERIOD_US p * 1000)) % (rval s R.CAM_FSYNC_PERIOD_US p * 1000)) ≤ moduleTime (advance s t) →
      (moduleTime (advance s t) - ((moduleTime (advance s t) + rval s R.CAM_FSYNC_PERIOD_US p * 1000 - rget s R.CAM_FSYNC_PHASE_PHASE_US p * 1000 % (rval s R.CAM_FSYNC_PERIOD_US p * 1000)) % (rval s R.CAM_FSYNC_PERIOD_US p * 1000))) ∉ (getCam s p).syncs →
      ∃ u, exec (.fsyncTrigger t p) s = .next u ∧ (getCam u p).syncs = (moduleTime (advance s t) - ((moduleTime (advance s t) + rval s R.CAM_FSYNC_PERIOD_US p * 1000 - rget s R.CAM_FSYNC_PHASE_PHASE_US p * 1000 % (rval s R.CAM_FSYNC_PERIOD_US p * 1000)) % (rval s R.CAM_FSYNC_PERIOD_US p * 1000))) :: (getCam s p).syncs) ∧
  (∀ (s : State) (t : Fc) (r : Ref) (d : Desc),
      s.fabric = true →
      heldDesc s r 4 1 = some d →
      due (advance s t) d = true →
      captureFirst (advance s t) r = true →
      refHost s r = false →
      camOn s (d.classWord % 4) = true →
      (d.word 0x1C % 8) < 5 →
      (((d.word 0x1C % 8) ≠ 2 ∧ (d.word 0x1C % 8) ≠ 3) ∨ (mosaic s (d.classWord % 4) ≠ 2 ∧ mosaic s (d.classWord % 4) ≠ 5)) →
      outLength s (d.classWord % 4) (d.word 0x1C % 8) ≤ d.word 0x18 →
      ∃ u, exec (.capture t r) s = .next u ∧ (∀ x, x ∈ (getCam u (d.classWord % 4)).jobs ↔ x = r ∨ x ∈ (getCam s (d.classWord % 4)).jobs)) ∧
  (∀ (s : State) (t : Fc) (r : Ref) (d : Desc),
      s.fabric = true →
      heldDesc s r 4 2 = some d →
      due (advance s t) d = true →
      refHost s r = false →
      camOn s (d.classWord % 4) = true →
      1 ≤ (d.word 0x14 / 256 % 16) →
      (d.word 0x14 / 256 % 16) ≤ 8 →
      ∃ u, exec (.sensorWrite t r) s = .next u ∧ (∃ j, (getCam u (d.classWord % 4)).writes = (getCam s (d.classWord % 4)).writes ++ [j] ∧ j.ref = r ∧ j.apply = d.word 0x10 ∧ j.target = (d.word 0x10 : Int) - rval s R.CAM_FORMAT_SENSOR_DELAY (d.classWord % 4) - 1 ∧ j.entries = ((List.range (d.word 0x14 / 256 % 16)).map fun e => d.word (0x18 + 4 * e)) ∧ j.eff = none)) ∧
  (∀ (s : State) (t : Fc) (p : Fin 4) (n : Nat) (j : SensorJob),
      s.fabric = true →
      firstBurst s p = some j →
      j.entries.length ≤ n →
      ∃ u, exec (.sensorBurstDone t p n) s = .next u ∧ u.reqs = (complete s j.ref stDone (min (j.eff.getD 0 - j.apply) 255)).reqs ∧ (∀ x ∈ (getCam u p).writes, x.ref ≠ j.ref)) ∧
  (∀ (s : State) (t : Fc) (r : Ref) (d : Desc) (img : List Nat),
      s.fabric = true →
      heldDesc s r 4 3 = some d →
      due (advance s t) d = true →
      refHost s r = false →
      camOn s (d.classWord % 4) = true →
      paramsOk img = true →
      (getCam s (d.classWord % 4)).pend.length < 4 →
      (∀ x ∈ (getCam s (d.classWord % 4)).pend, x.apply ≠ d.word 0x18) →
      ∃ u, exec (.ispParams t r img) s = .next u ∧ (getCam u (d.classWord % 4)).pend = (getCam s (d.classWord % 4)).pend ++ [⟨r, d.word 0x18, img.take 256⟩]) ∧
  (∀ (s : State) (t : Fc) (p : Fin 4) (f : CamFrame) (r : Ref) (l : List Ref),
      s.fabric = true →
      s.vis.isp = none →
      (ispNow (advance s t)).vis.slot = none →
      ispNext (feNow (ispNow (advance s t))) = some (p.val, f) →
      (getCam (feNow (ispNow (advance s t))) p).jobs = r :: l →
      ∃ u, exec (.ispFrameStart t) s = .next u ∧ u.vis.isp = some (p.val, { f with ref := some r, params := (getCam (paramsStart (feNow (ispNow (advance s t))) p f.no) p).live.map (·.1) })) ∧
  (∀ (s : State) (t : Fc) (p : Fin 4) (f : CamFrame) (r : Ref) (d : Desc) (out : List (Nat × Nat × List Nat)) (zs hs : List Nat) (n : List (Nat × List Nat)),
      s.fabric = true →
      p ≠ 0 →
      (ispNow (advance s t)).vis.isp = some (p.val, f) →
      f.ref = some r →
      reqDesc s r = some d →
      frameThrough f = true →
      ∃ u, exec (.ispFrameDone t p false out zs hs n) s = .next u ∧ u.vis.isp = none ∧ u.reqs = (complete s r stDone (frameFlags (camHeight s p) f + 256 * (f.no % 256))).reqs) ∧
  (∀ (s : State) (t : Fc) (r : Ref) (d : Desc) (h b : List Nat),
      s.fabric = true →
      heldDesc s r 5 1 = some d →
      due (advance s t) d = true →
      refHost s r = false →
      netHeaderOk (h ++ b) = true →
      d.word 0x28 = imgWord (h ++ b) 0x18 →
      d.word 0x2C = imgWord (h ++ b) 0x1C →
      s.vis.run = none →
      s.vis.queue = [] →
      ∃ u, exec (.vxaRun t r h b) s = .next u ∧ u.vis.run.map (fun j => (j.ref, j.outAddr, j.outLen)) = some (r, d.quad 0x20, d.word 0x2C)) ∧
  (∀ (s : State) (t : Fc) (j : VxaJob) (out : List Nat),
      s.fabric = true →
      s.vis.run = some j →
      ∃ u, exec (.vxaJobDone t false out) s = .next u ∧ rget u R.VXA_COUNTS_JOBS = satTo R.VXA_COUNTS_JOBS.width (rget s R.VXA_COUNTS_JOBS + 1)) ∧
  (∀ (s : State) (t : Fc) (p : Fin 2),
      s.fabric = true →
      pnlOn s p = false →
      pnlError s p = 0 →
      ∃ u, exec (.pnlEnable t p) s = .next u ∧ rget u R.PNL_CTRL_EN p = 1 ∧ wipeOpen u p = true) ∧
  (∀ (s : State) (t : Fc) (p : Fin 2),
      s.fabric = true →
      pnlOn s p = true →
      ∃ u, exec (.pnlDisable t p) s = .next u ∧ rget u R.PNL_CTRL_EN p = 0 ∧ (getPnl u p).jobs = [] ∧ pendingLines u p = []) ∧
  (∀ (s : State) (t : Fc) (r : Ref) (d : Desc) (src : List Nat),
      s.fabric = true →
      heldDesc s r 8 1 = some d →
      due (advance s t) d = true →
      panelServes s r = true →
      d.word 0x18 / 65536 % 512 ≠ 0 →
      d.word 0x18 % 512 + d.word 0x18 / 65536 % 512 ≤ pnlHeight s (d.classWord % 2) →
      pnlWidth s (d.classWord % 2) / 2 ≤ d.word 0x1C % 65536 →
      pnlOn s (d.classWord % 2) = true →
      ∃ u, exec (.update t r src) s = .next u ∧ (∀ k < d.word 0x18 / 65536 % 512, (getLine u (d.classWord % 2) (d.word 0x18 % 512 + k)).content =
          sourceLine (pnlWidth s (d.classWord % 2)) (src.drop (k * (d.word 0x1C % 65536))))) ∧
  (∀ (s : State) (t : Fc) (r : Ref) (d : Desc),
      s.fabric = true →
      heldDesc s r 8 2 = some d →
      due (advance s t) d = true →
      panelServes s r = true →
      pnlOn s (d.classWord % 2) = true →
      (getPnl s (d.classWord % 2)).writing = none →
      (getPnl s (d.classWord % 2)).wiping = none →
      ∃ u, exec (.pnlClear t r) s = .next u ∧ (∀ x ∈ (getPnl u (d.classWord % 2)).lines, x.2.content = zeroLine (pnlWidth s (d.classWord % 2)))) ∧
  (∀ (s : State) (t : Fc) (p : Fin 2) (n : Nat),
      s.fabric = true →
      pnlOn s p = true →
      (getPnl s p).writing = none →
      (getPnl s p).wiping = none →
      blankWanted s p = false →
      vlcdSettled (advance s t) p = true →
      (s.aoc.power = 0 ∨ s.aoc.power = 1) →
      nextLine s p = some n →
      ∃ u, exec (.lineWriteStart t p) s = .next u ∧ (getPnl u p).writing = some ⟨n, (getLine s p n).content, (getLine s p n).source, max s.now t + lineFc s p⟩) ∧
  (∀ (s : State) (t : Fc) (p : Fin 2) (x : PnlWrite),
      (s.fabric = true ∨ (s.aoc.power = 2 ∧ rbit s R.PNL_CTRL_PARK_KEEP p = true)) →
      (getPnl s p).writing = some x →
      x.ends ≤ max s.now t →
      (getPnl s p).wipes = [] →
      ∃ u, exec (.lineWriteDone t p) s = .next u ∧ (getPnl u p).writing = none ∧ (getLine u p x.line).shown = x.content ∧ (getLine u p x.line).shadow = lineCrc (pnlWidth s p) x.content) ∧
  (∀ (s : State) (t : Fc) (p : Fin 2) (v h : Int),
      (s.fabric = true ∨ (s.aoc.power = 2 ∧ rbit s R.PNL_CTRL_PARK_KEEP p = true)) →
      (getPnl s p).tempAt.all (fun a => a + 40000000 ≤ max s.now t) = true →
      rbit s R.PNL_CTRL_TSRC p = false →
      ∃ u, exec (.pnlTempSample t p (some v) h) s = .next u ∧ (getPnl u p).band = (vlcdTarget s p v).1 ∧ (getPnl u p).target = (vlcdTarget s p v).2 ∧ rget u R.PNL_TEMP_TEMP p = (clampInt 0 255 (v + 50)).toNat % 2 ^ R.PNL_TEMP_TEMP.width) ∧
  (∀ (s : State) (t : Fc) (p : Fin 2),
      (s.fabric = true ∨ (s.aoc.power = 2 ∧ rbit s R.PNL_CTRL_PARK_KEEP p = true)) →
      pnlOn s p = true →
      rbit s R.PNL_CTRL_PWR_EN p = true →
      vcomInstant (advance s t) p = true →
      (getPnl s p).vcomAt ≠ some (max s.now t) →
      (getPnl s p).writing = none →
      ∃ u, exec (.vcomToggle t p) s = .next u ∧ (getPnl u p).pinv = !(getPnl s p).pinv) ∧
  (∀ (s : State) (t : Fc) (p : Fin 2) (o : Nat),
      (s.fabric = true ∨ (s.aoc.power = 2 ∧ rbit s R.PNL_CTRL_PARK_KEEP p = true)) →
      (getPnl s p).crackAt.all (fun a => a + 400000000 ≤ max s.now t) = true →
      10 * rval s R.PNL_CRACK_CRACK_OHM p < o →
      1 ≤ (getPnl s p).high →
      ∃ u, exec (.crackMeasure t p o) s = .next u ∧ rget u R.PNL_CRACK_PANEL_CRACK p = 1 ∧ rget u R.PNL_CRACK_LOOP_OHM p = min o 65535) ∧
  (∀ (s : State) (t : Fc) (p : Fin 2),
      s.fabric = true →
      2 ≤ (getPnl s p).low →
      ∃ u, exec (.panelCrackClear t p) s = .next u ∧ rget u R.PNL_CRACK_PANEL_CRACK p = 0) ∧
  (∀ (s : State) (t : Fc) (p : Fin 2),
      (s.fabric = true ∨ (s.aoc.power = 2 ∧ rbit s R.PNL_CTRL_PARK_KEEP p = true)) →
      rbit s R.PNL_CTRL_PWR_EN p = true →
      pnlOn s p = true →
      ∃ u, exec (.panelSupplyFault t p) s = .next u ∧ rget u R.PNL_CTRL_PWR_EN p = 0 ∧ rget u R.PNL_CTRL_EN p = 0)

/-- Each of CAN_ARB_LOSS, CAN_BUS_OFF, CAN_ENABLE, CAN_RECOVERED, CAN_RX, CAN_RX_ERROR, CAN_TXB_FETCH, CAN_TX_ERROR, CAN_TX_SELECT, CAN_TX_SUCCESS, ETH_LINK_DOWN, ETH_LINK_UP, ETH_RX, ETH_TX, ETH_TX_DONE, GPTP_MESSAGE, RECOVER, SEND, TC10_SLEEP, TC10_SLEEP_ACK and TC10_WAKE completes: under conditions on the state and the operands alone, exec answers a next state, and that state is, or holds, what the clause gives of the command's own effect. -/
def Obligations.BusesComplete : Prop :=
  (∀ (s : State) (t : Fc) (r : Ref) (d : Desc) (data : List Nat),
      s.fabric = true →
      heldDesc s r 0xB 0x70 = some d →
      due (advance s t) d = true →
      60 ≤ d.word 0x18 % 65536 →
      d.word 0x18 % 65536 ≤ 1518 →
      ethUp s (d.classWord % 8) = true →
      ∃ u, exec (.ethTx t r data) s = .next u ∧ ((getEth u (d.classWord % 8)).queue = (getEth s (d.classWord % 8)).queue ++ [⟨r, if bitOf (d.word 0x18) 16 then some (d.quad 0x20) else none, data.take (d.word 0x18 % 65536)⟩])) ∧
  (∀ (s : State) (t : Fc) (p : Fin 6) (sof : Fc) (x : EthTx) (rest : List EthTx),
      s.fabric = true →
      ethUp s p = true →
      (fleetOn s p = false ∨ (getEth s p).fleetTurn = false) →
      (getEth s p).queue = x :: rest →
      x.tsAddr = none →
      ∃ u, exec (.ethTxDone t p sof) s = .next u ∧ (getEth u p).queue = rest ∧ u.reqs = (complete s x.ref stDone).reqs) ∧
  (∀ (s : State) (t : Fc) (p : Fin 6) (sof : Fc) (f : List Nat),
      s.fabric = true →
      ethUp s p = true →
      rbit s R.ETH_CTRL_EN p = true →
      60 ≤ f.length →
      f.length ≤ 1518 →
      macAccepts s p f = true →
      isGptp s p f = false →
      queueRoom s queueEth p 0 = true →
      exec (.ethRx t p sof true f) s = .next (queuePut (advance s t) queueEth p 0 2048 (ethEntry (eventTime (advance s t) (min sof (max s.now t))) f))) ∧
  (∀ (s : State) (t : Fc) (p : Fin 4) (m : GptpMsg) (c : Int),
      s.fabric = true →
      ethUp s p = true →
      rbit s R.ETH_CTRL_GPTP_EN p = true →
      ∃ u, exec (.gptpMessage t p m c) s = .next u ∧ (∀ k < 4, rget u R.ETH_STATUS_GM k = b2n (gmPort (gptpTake (advance s t) p m)).isNone ∧ rget u R.ETH_GPTP_OFFSET_NS k = ofSignedSat R.ETH_GPTP_OFFSET_NS.width (if (gmPort (gptpTake (advance s t) p m)).isNone then 0 else (gptpOffset (gptpTake (advance s t) p m) p m c).getD (rgetS s R.ETH_GPTP_OFFSET_NS)))) ∧
  (∀ (s : State) (t : Fc) (p : Fin 6),
      s.fabric = true →
      ethUp s p = true →
      ∃ u, exec (.ethLinkDown t p) s = .next u ∧ rget u R.ETH_STATUS_LINK_UP p = 0) ∧
  (∀ (s : State) (t : Fc) (p : Fin 6),
      s.fabric = true →
      rbit s R.ETH_CTRL_EN p = true →
      ∃ u, exec (.ethLinkUp t p) s = .next u ∧ rget u R.ETH_STATUS_LINK_UP p = 1 ∧ rget u R.ETH_STATUS_ASLEEP p = 0) ∧
  (∀ (s : State) (t : Fc) (p : Fin 4),
      s.fabric = true →
      ethUp s p = true →
      ∃ u, exec (.tc10Sleep t p) s = .next u ∧ (getEth u p).sleepAsked = true) ∧
  (∀ (s : State) (t : Fc) (p : Fin 4),
      s.fabric = true →
      (getEth s p).sleepAsked = true →
      ethUp s p = true →
      ∃ u, exec (.tc10SleepAck t p) s = .next u ∧ rget u R.ETH_STATUS_ASLEEP p = 1 ∧ rget u R.ETH_STATUS_LINK_UP p = 0) ∧
  (∀ (s : State) (t : Fc) (p : Fin 4),
      s.fabric = true →
      ∃ u, exec (.tc10Wake t p) s = .next u ∧ rget u R.ETH_STATUS_ASLEEP p = 0 ∧ (getEth u p).wakes = (getEth s p).wakes + 1) ∧
  (∀ (s : State) (t : Fc) (c : Fin 8),
      s.fabric = true →
      canOn s c = false →
      timingOk s c = true →
      rget s R.RING_CFG_CLASS 0 (rget s R.CAN_TX_CFG_RING c) = 6 →
      ∃ u, exec (.canEnable t c) s = .next u ∧ rget u R.CAN_CTRL_EN c = 1 ∧ rget u R.CAN_CTRL_ERR c = 0) ∧
  (∀ (s : State) (t : Fc) (r : Ref) (d : Desc),
      s.fabric = true →
      heldDesc s r 6 1 = some d →
      due (advance s t) d = true →
      sendError s r d = none →
      ∃ u, exec (.send t r) s = .next u ∧ (getCan u (d.classWord % 8)).sends = (getCan s (d.classWord % 8)).sends ++ [r]) ∧
  (∀ (s : State) (t : Fc) (c : Fin 8) (x : List Nat) (r : Ref) (l : List Ref) (d : Desc) (b : Nat),
      s.fabric = true →
      canOn s c = true →
      rval s R.CAN_CTRL_MODE c = 0 →
      (getCan s c).sends = r :: l →
      sendBefore s r = false →
      reqDesc s r = some d →
      canOff s c = false →
      ([0, 1, 2].find? fun b => (tblGet? (getCan s c).txb b).isNone) = some b →
      ∃ u, exec (.canTxbFetch t c x) s = .next u ∧ (getCan u c).sends = l ∧ (∃ y, (getCan u c).txb = tblSet (getCan s c).txb b y ∧ y.ref = some r ∧ y.losses = 0 ∧ y.errors = 0 ∧ y.frame = frameOf (d.word 0x10) (d.word 0x14)
          (if bitOf (d.word 0x14) 6 then x.take (dlcBytes (bitOf (d.word 0x14) 4) (d.word 0x14 % 16)) else ((imgBytes d.body 48).drop 16).take (dlcBytes (bitOf (d.word 0x14) 4) (d.word 0x14 % 16))))) ∧
  (∀ (s : State) (t : Fc) (c : Fin 8),
      s.fabric = true →
      canOn s c = true →
      canOff s c = false →
      rget s R.CAN_ERR_CNT_TEC c ≤ 255 →
      rval s R.CAN_CTRL_MODE c ≠ 1 →
      (getCan s c).onBus = none →
      rbit s R.CAN_TX_CFG_ORDER c = false →
      candidates (getCan s c) ≠ [] →
      ∃ u, exec (.canTxSelect t c) s = .next u ∧ (∃ p ∈ candidates (getCan s c), (getCan u c).onBus = some (p.1, moduleTime (advance s t)) ∧ ∀ q ∈ candidates (getCan s c), arbKey p.2.frame ≤ arbKey q.2.frame)) ∧
  (∀ (s : State) (t : Fc) (c : Fin 8) (b n : Nat) (x : CanTx) (r : Ref),
      s.fabric = true →
      (getCan s c).onBus = some (b, n) →
      txAt (getCan s c) b = some x →
      txAborted s x = false →
      x.echo = false →
      rval s R.CAN_CTRL_MODE c = 0 →
      x.ref = some r →
      ∃ u, exec (.canTxSuccess t c) s = .next u ∧ (getCan u c).onBus = none ∧ u.reqs = (complete s r stDone (min x.losses 31 + 32 * min x.errors 31 + 1024 * (b % 4) + 4096)).reqs) ∧
  (∀ (s : State) (t : Fc) (c : Fin 8) (b n : Nat) (x : CanTx),
      s.fabric = true →
      (getCan s c).onBus = some (b, n) →
      txAt (getCan s c) b = some x →
      txAborted s x = false →
      rget s R.CAN_ERR_CNT_TEC c ≤ 255 →
      x.losses + 1 + x.errors ≤ rget s R.CAN_TX_CFG_RETRY_LIMIT c →
      ∃ u, exec (.canArbLoss t c) s = .next u ∧ (getCan u c).onBus = none ∧ txAt (getCan u c) b = some { x with losses := x.losses + 1 }) ∧
  (∀ (s : State) (t : Fc) (c : Fin 8) (b n : Nat) (x : CanTx),
      s.fabric = true →
      (getCan s c).onBus = some (b, n) →
      txAt (getCan s c) b = some x →
      txAborted s x = false →
      rget s R.CAN_ERR_CNT_TEC c ≤ 247 →
      x.losses + x.errors + 1 ≤ rget s R.CAN_TX_CFG_RETRY_LIMIT c →
      canOff s c = false →
      ∃ u, exec (.canTxError t c false) s = .next u ∧ rget u R.CAN_ERR_CNT_TEC c = rget s R.CAN_ERR_CNT_TEC c + 8 ∧ txAt (getCan u c) b = some { x with errors := x.errors + 1 }) ∧
  (∀ (s : State) (t : Fc) (c : Fin 8) (sof : Nat) (f : CanFrame) (m : Nat),
      s.fabric = true →
      canHears s c = true →
      (f.fdf = false ∨ rbit s R.CAN_CTRL_FD_EN c = true) →
      rget s R.CAN_ERR_CNT_REC c ≤ 127 →
      ((List.range 32).find? fun k => filterHit (beforeRegs (advance s t)) c f k) = some m →
      (filterAct (beforeRegs (advance s t)) c m = 1 ∨ filterAct (beforeRegs (advance s t)) c m = 2) →
      queueRoom s queueCan c (filterAct (beforeRegs (advance s t)) c m - 1) = true →
      Memory.wf s.mem = true →
      Memory.wf s.extMem = true →
      ∃ u, exec (.canRx t c sof f) s = .next u ∧ (∀ k < 128, Memory.read (if queueHost s queueCan c (filterAct (beforeRegs (advance s t)) c m - 1) then u.extMem else u.mem) (((queueBase s queueCan c (filterAct (beforeRegs (advance s t)) c m - 1) + 128 * rget s R.CAN_RXQ_WRITE_INDEX c (filterAct (beforeRegs (advance s t)) c m - 1)) + k) % 2 ^ 64) = (canEntry (eventTime (advance s t) (min sof (max s.now t))) f false false false m (rget s R.CAN_RXQ_WRITE_PHASE c (filterAct (beforeRegs (advance s t)) c m - 1))).getD k 0)) ∧
  (∀ (s : State) (t : Fc) (c : Fin 8) (h : Bool),
      s.fabric = true →
      canHears s c = true →
      ∃ u, exec (.canRxError t c h) s = .next u ∧ rget u R.CAN_ERR_CNT_REC c = satTo 8 (rget s R.CAN_ERR_CNT_REC c + (if h then 8 else 1))) ∧
  (∀ (s : State) (t : Fc) (c : Fin 8),
      s.fabric = true →
      canOff s c = false →
      256 ≤ rget s R.CAN_ERR_CNT_TEC c →
      ∃ u, exec (.canBusOff t c) s = .next u ∧ rget u R.CAN_STATUS_STATE c = 2 ∧ (getCan u c).txb = []) ∧
  (∀ (s : State) (t : Fc) (c : Fin 8),
      s.fabric = true →
      rget s R.CAN_STATUS_STATE c = 2 →
      ∃ u, exec (.recover t c) s = .next u ∧ rget u R.CAN_STATUS_STATE c = 3) ∧
  (∀ (s : State) (t : Fc) (c : Fin 8),
      s.fabric = true →
      rget s R.CAN_STATUS_STATE c = 3 →
      ∃ u, exec (.canRecovered t c) s = .next u ∧ rget u R.CAN_STATUS_STATE c = 0 ∧ rget u R.CAN_ERR_CNT_TEC c = 0 ∧ rget u R.CAN_ERR_CNT_REC c = 0)

/-- Each of ANNOUNCE_RX, BEHIND_CATCH_UP, BYE_RX, CERT_EXPIRY, CERT_REQ_RX, DELTA_RX, EVICT_HOLD_EXPIRY, FLE_DISABLE, FLE_ENABLE, KEEPALIVE_DUE, KEEPALIVE_RX, MEMBER_EVICT, PEER_SET, PEER_SET_TIMEOUT, PEER_TIMEOUT, PUBLISH_NOW, PUB_DUE, SESSION_HANDSHAKE, SESSION_RETRY, STATUS_PUBLISH, STATUS_RX, STRIKE_DECAY and SUMMARY_RX completes: under conditions on the state and the operands alone, exec answers a next state, and that state is, or holds, what the clause gives of the command's own effect. -/
def Obligations.FleetComplete : Prop :=
  (∀ (s : State) (t : Fc),
      s.fabric = true →
      rbit s R.FLE_CTRL_EN = false →
      rget s R.NAV_STATE_TIME_STATE ≠ 0 →
      credsValid (advance s t) = true →
      verBase s ≠ 0 →
      cacheBase s ≠ 0 →
      (rget s R.FLE_STORE_BASE_LO_ADDR_LO ≠ 0 ∨ rget s R.FLE_STORE_BASE_HI_ADDR_HI ≠ 0) →
      rbit s R.ETH_CTRL_EN (rget s R.FLE_CTRL_PORT) = true →
      ∃ u, exec (.fleEnable t) s = .next u ∧ rget u R.FLE_CTRL_EN = 1 ∧ rget u R.FLE_CTRL_ERR = 0) ∧
  (∀ (s : State) (t : Fc),
      s.fabric = true →
      tblSorted s.fle.sessions = true →
      ∃ u, exec (.fleDisable t) s = .next u ∧ rget u R.FLE_CTRL_EN = 0 ∧ (∀ k c, tblGet? s.fle.sessions k = some c → tblGet? u.fle.sessions k = some (if c.isOpen then { c with isOpen := false, trying := false, closedAt := max s.now t, owed := [], queue := [.bye], behind := false } else c))) ∧
  (∀ (s : State) (t : Fc) (r : Ref) (d : Desc) (o : Option Session),
      s.fabric = true →
      heldDesc s r 7 1 = some d →
      due (advance s t) d = true →
      bitOf d.classWord 31 = false →
      (∃ w ∈ [d.word 0x10, d.word 0x14, d.word 0x18, d.word 0x1C], w ≠ 0) →
      d.word 0x20 % 65536 ≠ 0 →
      rbit s R.FLE_CTRL_EN = true →
      tblGet? s.fle.sessions (d.classWord % 32) = o →
      ∃ u, exec (.peerSet t r) s = .next u ∧ u.fle = { s.fle with sessions := tblSet s.fle.sessions (d.classWord % 32) { Session.empty with addr := [d.word 0x10, d.word 0x14, d.word 0x18, d.word 0x1C], port := d.word 0x20 % 65536, pitch := bitField (d.word 0x20) 16 10, ref := some r, setAt := max s.now t, closedAt := max s.now t, trying := true } } ∧ u.reqs = (completeOpt (takeReq (advance s t) r) (o.bind (·.ref)) stPartnerAbsent).reqs) ∧
  (∀ (s : State) (t : Fc) (k : Fin 32) (c : Session) (q : Ref),
      s.fabric = true →
      tblGet? s.fle.sessions k = some c →
      c.ref = some q →
      c.setAt + 4000000000 ≤ max s.now t →
      ∃ u, exec (.peerSetTimeout t k) s = .next u ∧ u.reqs = (complete s q stPartnerAbsent).reqs ∧ tblGet? u.fle.sessions k = some { c with ref := none }) ∧
  (∀ (s : State) (t : Fc) (k : Fin 32) (c : Session) (x : Cert),
      s.fabric = true →
      tblGet? s.fle.sessions k = some c →
      rbit s R.FLE_CTRL_EN = true →
      c.isOpen = false →
      c.trying = true →
      slotHeld (advance s t) k = false →
      certError (advance s t) x = none →
      x.pitch = c.pitch →
      (getMember s x.pitch).evicted = false →
      ∃ u, exec (.sessionHandshake t k (some x)) s = .next u ∧ (∃ n, tblGet? u.fle.sessions k = some n ∧ n.isOpen = true ∧ n.absent = false ∧ n.pitch = c.pitch ∧ n.expires = x.notAfter ∧ n.ref = none ∧
          n.queue = ((List.range 11).map fun i => FleMsg.summary (figuresOf s (99 * i) (min 99 (1024 - 99 * i))))) ∧ getMember u x.pitch = { getMember s x.pitch with cert := some x }) ∧
  (∀ (s : State) (t : Fc) (k : Fin 32) (c : Session),
      s.fabric = true →
      tblGet? s.fle.sessions k = some c →
      rbit s R.FLE_CTRL_EN = true →
      c.isOpen = false →
      slotHeld (advance s t) k = false →
      c.closedAt + rval s R.FLE_TIMERS_RETRY_S * 400000000 ≤ max s.now t →
      ∃ u, exec (.sessionRetry t k) s = .next u ∧ tblGet? u.fle.sessions k = some { c with trying := true }) ∧
  (∀ (s : State) (t : Fc) (k : Fin 32) (c : Session),
      s.fabric = true →
      tblGet? s.fle.sessions k = some c →
      c.isOpen = true →
      c.txAt + 2000000000 ≤ max s.now t →
      c.queue.length < 512 →
      .keepalive ∉ c.queue →
      ∃ u, exec (.keepaliveDue t k) s = .next u ∧ tblGet? u.fle.sessions k = some { c with queue := c.queue ++ [.keepalive] }) ∧
  (∀ (s : State) (t : Fc) (k : Fin 32) (c : Session),
      s.fabric = true →
      tblGet? s.fle.sessions k = some c →
      c.isOpen = true →
      c.rxAt + rval s R.FLE_TIMERS_PEER_TIMEOUT_S * 400000000 ≤ max s.now t →
      ∃ u, exec (.peerTimeout t k) s = .next u ∧ u.fle = { s.fle with sessions := tblSet s.fle.sessions k { c with isOpen := false, trying := false, closedAt := max s.now t, owed := [], queue := [], behind := false, absent := true } } ∧ bitOf (rget u R.FLE_SESSIONS_UP) k = false) ∧
  (∀ (s : State) (t : Fc) (k : Fin 32) (c : Session),
      s.fabric = true →
      tblGet? s.fle.sessions k = some c →
      c.isOpen = true →
      c.expires < moduleTime (advance s t) →
      ∃ u, exec (.certExpiry t k) s = .next u ∧ u.fle = { s.fle with sessions := tblSet s.fle.sessions k { c with isOpen := false, trying := false, closedAt := max s.now t, owed := [], queue := [], behind := false, absent := true } } ∧ bitOf (rget u R.FLE_SESSIONS_UP) k = false) ∧
  (∀ (s : State) (t : Fc) (k : Fin 32) (c : Session),
      s.fabric = true →
      tblGet? s.fle.sessions k = some c →
      c.isOpen = true →
      c.overRate (max s.now t) = false →
      ∃ u, exec (.byeRx t k) s = .next u ∧ u.fle = { s.fle with sessions := tblSet s.fle.sessions k { c.received (max s.now t) with isOpen := false, trying := false, closedAt := max s.now t, owed := [], queue := [], behind := false } } ∧ bitOf (rget u R.FLE_SESSIONS_UP) k = false) ∧
  (∀ (s : State) (t : Fc) (k : Fin 32) (c : Session),
      s.fabric = true →
      tblGet? s.fle.sessions k = some c →
      c.isOpen = true →
      c.overRate (max s.now t) = false →
      ∃ u, exec (.keepaliveRx t k) s = .next u ∧ tblGet? u.fle.sessions k = some (c.received (max s.now t))) ∧
  (∀ (s : State) (t : Fc) (k : Fin 32) (a : Nat),
      s.fabric = true →
      tblGet? s.fle.held k = some a →
      a ≤ max s.now t →
      ∃ u, exec (.evictHoldExpiry t k) s = .next u ∧ u.fle.held = tblErase s.fle.held k) ∧
  (∀ (s : State) (t : Fc) (k : Fin 32) (c : Session),
      s.fabric = true →
      tblGet? s.fle.sessions k = some c →
      c.isOpen = true →
      c.behind = true →
      c.queue = [] →
      c.owed = [] →
      ∃ u, exec (.behindCatchUp t k) s = .next u ∧ (tblGet? u.fle.sessions k = some { c with behind := false, queue := ((List.range 11).map fun i => FleMsg.summary (figuresOf s (99 * i) (min 99 (1024 - 99 * i)))) })) ∧
  (∀ (s : State) (t : Fc),
      s.fabric = true →
      s.fle.decayAt + rval s R.FLE_LIMITS_STRIKE_DECAY_S * 400000000 ≤ max s.now t →
      ∃ u, exec (.strikeDecay t) s = .next u ∧ (u.fle.members = s.fle.members.map fun p => (p.1, { p.2 with strikes := p.2.strikes - 1 })) ∧ u.fle.decayAt = max s.now t) ∧
  (∀ (s : State) (t : Fc) (k : Fin 32) (c : Session) (figs : List Stamp),
      s.fabric = true →
      tblGet? s.fle.sessions k = some c →
      c.isOpen = true →
      c.overRate (max s.now t) = false →
      figs.find? (fun f => f.a == ownPitch s) = none →
      ∃ u, exec (.summaryRx t k figs) s = .next u ∧ (∃ l : List Delta, tblGet? u.fle.sessions k = some { c.received (max s.now t) with owed := l } ∧ (c.owed = [] → l.Pairwise (fun a b => stampLt ⟨b.t, b.c, b.author⟩ ⟨a.t, a.c, a.author⟩ = false)) ∧
          ∀ d, d ∈ l ↔ d ∈ c.owed ∨ d ∈ s.fle.store ∧ ∃ f ∈ figs, f.a = d.author ∧ stampLt f ⟨d.t, d.c, d.author⟩ = true)) ∧
  (∀ (s : State) (t : Fc) (k : Fin 32) (c : Session) (raw : List Nat) (p : Nat) (x : Cert),
      s.fabric = true →
      tblGet? s.fle.sessions k = some c →
      c.isOpen = true →
      c.overRate (max s.now t) = false →
      c.queue.length < 512 →
      parseCertReq raw = some p →
      certOf s p = some x →
      ∃ u, exec (.certReqRx t k raw) s = .next u ∧ tblGet? u.fle.sessions k = some { c.received (max s.now t) with queue := c.queue ++ [.announce x] }) ∧
  (∀ (s : State) (t : Fc) (k : Fin 32) (c : Session) (x : Cert),
      s.fabric = true →
      tblGet? s.fle.sessions k = some c →
      c.isOpen = true →
      c.overRate (max s.now t) = false →
      certError (advance s t) x = none →
      (getMember s x.pitch).evicted = false →
      tblSorted s.fle.sessions = true →
      ∃ u, exec (.announceRx t k x) s = .next u ∧ getMember u x.pitch = { getMember s x.pitch with cert := some x }) ∧
  (∀ (s : State) (t : Fc) (k : Fin 32) (c : Session) (raw : List Nat) (d : Delta) (sig : Bool) (j : Nat) (sl : CacheSlot),
      s.fabric = true →
      tblGet? s.fle.sessions k = some c →
      c.isOpen = true →
      c.overRate (max s.now t) = false →
      parseDelta raw = some d →
      d.market = ownMarket s →
      (getMember s d.author).evicted = false →
      ((getMember s d.author).cert.isSome = true ∨ d.author = ownPitch s) →
      sig = true →
      400000000 ≤ levelNow (advance s t) (getMember s d.author) →
      d.t ≤ moduleTime (advance s t) + rval s R.FLE_LIMITS_SKEW_MS * 1000000 →
      d.origin = rget s R.STO_ORIGIN_ID_VALUE →
      d.cellCm = gridCell s →
      kindShared s (tileKind d.tile) = true →
      cacheFind s d.tile = some (j, sl) →
      tblGet? s.sto.cache j = some sl →
      sl.loading = false →
      tblSorted s.sto.cache = true →
      tblSorted sl.tile.cells = true →
      d.cells.any (fun e => stampLt (tileVer sl.tile e.1).stamp (⟨d.t, d.c, d.author⟩ : Stamp)) = true →
      ∃ u, exec (.deltaRx t k raw true sig) s = .next u ∧ (∃ n, tblGet? u.sto.cache j = some n ∧
          (∀ e ∈ d.cells, if stampLt (tileVer sl.tile e.1).stamp (⟨d.t, d.c, d.author⟩ : Stamp) then tileCell n.tile e.1 = e.2 ∧ tileVer n.tile e.1 = ⟨(⟨d.t, d.c, d.author⟩ : Stamp), false⟩
            else tileCell n.tile e.1 = tileCell sl.tile e.1 ∧ tileVer n.tile e.1 = tileVer sl.tile e.1) ∧
          ∀ i, (∀ e ∈ d.cells, e.1 ≠ i) → tileCell n.tile i = tileCell sl.tile i ∧ tileVer n.tile i = tileVer sl.tile i)) ∧
  (∀ (s : State) (t : Fc) (k : Fin 32) (c : Session) (raw : List Nat) (m : StatusMsg) (sig : Bool),
      s.fabric = true →
      tblGet? s.fle.sessions k = some c →
      c.isOpen = true →
      c.overRate (max s.now t) = false →
      parseStatus raw = some m →
      m.market = ownMarket s →
      (getMember s m.author).evicted = false →
      ((getMember s m.author).cert.isSome = true ∨ m.author = ownPitch s) →
      sig = true →
      400000000 ≤ levelNow (advance s t) (getMember s m.author) →
      m.time ≤ moduleTime (advance s t) + rval s R.FLE_LIMITS_SKEW_MS * 1000000 →
      (∀ a, (getMember s m.author).lastStatus = some a → a < m.time) →
      queueRoom s queueFle 0 0 = true →
      Memory.wf s.mem = true →
      Memory.wf s.extMem = true →
      tblSorted s.fle.sessions = true →
      (∀ p ∈ s.fle.sessions, p.1 ≠ k.val → p.2.isOpen = true → p.2.queue.length < 512) →
      ∃ u, exec (.statusRx t k raw true sig) s = .next u ∧ (getMember u m.author).lastStatus = some m.time ∧ (getMember u m.author).timeState = m.timeState ∧ (getMember u m.author).offset = (moduleTime (advance s t) : Int) - m.time) ∧
  (∀ (s : State) (t : Fc) (k : Fin 4096) (c : CacheSlot),
      s.fabric = true →
      tblGet? s.sto.cache k = some c →
      cacheFind s c.tile.id = some (k.val, c) →
      tblSorted s.sto.cache = true →
      tblSorted c.tile.cells = true →
      tblSorted c.tile.vers = true →
      tblSorted c.pubAt = true →
      pubCells c.tile ≠ [] →
      (pubCells c.tile).length ≤ deltaMax (tileKind c.tile.id) →
      (∀ i ∈ pubCells c.tile, i < 16384) →
      pubDue (advance s t) c = true →
      400000000 ≤ levelNow (advance s t) (getMember s (ownPitch s)) →
      ∃ u, exec (.pubDue t k) s = .next u ∧ (∃ n st, tblGet? u.sto.cache k = some n ∧ (∀ i ∈ pubCells c.tile, tileVer n.tile i = ⟨st, false⟩ ∧ tblGet? n.pubAt i = none) ∧ pubCells n.tile = [] ∧ (∀ j, tileCell n.tile j = tileCell c.tile j) ∧ stampLt ⟨s.fle.t, s.fle.c, ownPitch s⟩ st = true ∧
          ∃ d : Delta, u.fle.store = (s.fle.store ++ [d]).drop (s.fle.store.length + 1 - 65536) ∧ d.author = ownPitch s ∧ d.market = ownMarket s ∧ d.tile = c.tile.id ∧ d.t = st.t ∧ d.c = st.c ∧ st.a = d.author ∧
            d.origin = rget s R.STO_ORIGIN_ID_VALUE ∧ d.cellCm = gridCell s ∧ d.cells = ((pubCells c.tile).map fun i => (i, tileCell c.tile i)) ∧ d.sig = ownSignature (deltaBody d))) ∧
  (∀ (s : State) (t : Fc) (r : Ref) (d : Desc) (data : List Nat),
      s.fabric = true →
      heldDesc s r 7 2 = some d →
      due (advance s t) d = true →
      d.word 0x18 % 512 ≤ 256 →
      rbit s R.FLE_CTRL_EN = true →
      (∀ a, s.fle.statusAt = some a → a + 40000000 ≤ max s.now t) →
      tblSorted s.fle.sessions = true →
      ∃ u, exec (.statusPublish t r data) s = .next u ∧ u.fle.statusAt = some (max s.now t) ∧ u.reqs = (complete (takeReq (advance s t) r) r stDone).reqs) ∧
  (∀ (s : State) (t : Fc) (r : Ref) (d : Desc),
      s.fabric = true →
      heldDesc s r 7 3 = some d →
      due (advance s t) d = true →
      (d.classWord % 65536) ≤ 1023 →
      rbit s R.FLE_CTRL_EN = true →
      (d.classWord % 65536) ≠ ownPitch s →
      bitOf d.classWord 16 = false →
      (getMember s (d.classWord % 65536)).evicted = false →
      ∃ u, exec (.memberEvict t r) s = .next u ∧ (getMember u (d.classWord % 65536)).evicted = true ∧ u.reqs = (complete (takeReq (advance s t) r) r stDone).reqs) ∧
  (∀ (s : State) (t : Fc) (r : Ref) (d : Desc),
      s.fabric = true →
      heldDesc s r 7 4 = some d →
      due (advance s t) d = true →
      rbit s R.FLE_CTRL_EN = true →
      s.fle.pubNow = [] →
      (∀ x ∈ awayTiles s, sharedPubs s x = []) →
      (((s.sto.cache.filter fun p => !p.2.loading).map fun p => p.2.tile).flatMap (sharedPubs s)) = [] →
      ∃ u, exec (.publishNow t r) s = .next u ∧ u.reqs = (complete (takeReq (advance s t) r) r stDone).reqs)

/-- Each of AOC_RESET, AON_LOSS, BIND_NOW, BIND_START, BIND_TILE_TIMEOUT, CAST_ON, DEEP_DESCENT, ENTRY_DRAIN_END, GO, HOST_READY, IGN_HIGH, LOGIC_QUALIFIED, LOGIC_THROTTLE, POWER_FAIL, PWR_IGN_OFF, SUSPEND_READY, SUSPEND_TIMEOUT, TC10_WAKE_RX, TRIM_ENTER, TRIM_EXIT, WAKE_EVENT, WATCHDOG_EXPIRY and WATCHDOG_KICK completes: under conditions on the state and the operands alone, exec answers a next state, and that state is, or holds, what the clause gives of the command's own effect. -/
def Obligations.PowerComplete : Prop :=
  (∀ (s : State) (t : Fc) (x : EntryMeas),
      s.fabric = true →
      s.aoc.entry = none →
      tkeArmed s = false →
      planeArmed s 0 = false →
      planeArmed s 1 = false →
      s.aoc.castFrom = none →
      binding s = false →
      3500000 ≤ rget s R.AOC_WAKE_TOLERANCE_US →
      rget s R.AOC_WAKE_TOLERANCE_US < 8000000 →
      fetchedLeft s = false →
      rbit s R.HLK_STATUS_LINK_UP = false →
      ∃ u, exec (.go t x) s = .next u ∧ u.fabric = false ∧ u.aoc = { s.aoc with power := 3, entry := none, drained := false, suspendAt := none, ready := false, ignOff := none, ignBack := false, parkedAt := max s.now t, wakes := [], warmWake := false }) ∧
  (∀ (s : State) (t : Fc) (x : EntryMeas) (a : Nat) (st : Nat),
      s.fabric = true →
      s.aoc.entry = some (st, a) →
      st ≠ 2 →
      entryState s st = some st →
      s.aoc.drained = false →
      a + 40000000 ≤ max s.now t →
      s.aoc.wakes = [] →
      ∃ u, exec (.entryDrainEnd t x) s = .next u ∧ u.fabric = false ∧ u.aoc = { s.aoc with power := st, entry := none, drained := false, suspendAt := none, ready := false, ignOff := none, ignBack := false, parkedAt := max s.now t, wakes := [] }) ∧
  (∀ (s : State) (t : Fc) (x : EntryMeas) (a : Nat) (b : Nat),
      s.fabric = true →
      s.aoc.entry = some (2, a) →
      s.aoc.suspendAt = some b →
      (s.aoc.drained = true ∨ fetchedLeft s = false) →
      entryState s 2 = some 2 →
      s.aoc.wakes = [] →
      ∃ u, exec (.suspendReady t x) s = .next u ∧ u.fabric = false ∧ u.aoc = { s.aoc with power := 2, entry := none, drained := false, suspendAt := none, ready := false, ignOff := none, ignBack := false, parkedAt := max s.now t, wakes := [] }) ∧
  (∀ (s : State) (t : Fc) (x : EntryMeas) (a : Nat) (b st : Nat),
      s.fabric = true →
      s.aoc.entry = some (st, b) →
      s.aoc.suspendAt = some a →
      s.aoc.ready = false →
      s.aoc.warmWake = false →
      a + rval s R.AOC_PARK_CFG_SUSPEND_S * 400000000 ≤ max s.now t →
      fetchedLeft s = true →
      s.aoc.drained = false →
      ∃ u, exec (.suspendTimeout t x) s = .next u ∧ u.aoc = { s.aoc with warmWake := true } ∧ rget u R.AOC_PWR_STATE_SUSPEND_TIMEOUT % 2 = 1) ∧
  (∀ (s : State) (t : Fc),
      s.fabric = true →
      s.aoc.entry = none →
      s.aoc.power = 0 →
      50 ≤ rget s R.AOC_WAKE_TOLERANCE_US →
      ∃ u, exec (.trimEnter t) s = .next u ∧ u.aoc = { s.aoc with power := 1 }) ∧
  (∀ (s : State) (t : Fc),
      s.fabric = true →
      s.aoc.power = 1 →
      ∃ u, exec (.trimExit t) s = .next u ∧ u.aoc = { s.aoc with power := 0 } ∧ rget u R.AOC_PWR_STATE_LAST = 1) ∧
  (∀ (s : State) (t : Fc) (m : Fin 64),
      s.aoc.entry = none →
      s.aoc.power = 2 →
      s.aoc.warmWake = false →
      wakeMask (advance s t) 2 m ≠ 0 →
      ∃ u, exec (.wakeEvent t m) s = .next u ∧ u.fabric = true ∧ u.aoc = { s.aoc with power := 0, wdogAt := max s.now t } ∧ rget u R.AOC_PWR_STATE_LAST = 2) ∧
  (∀ (s : State) (t : Fc) (mv : Fin 1024),
      mv.val < 30 →
      s.aoc.power < 2 →
      s.aoc.logic = true →
      s.aoc.ignOff = none →
      binding s = false →
      ∃ u, exec (.pwrIgnOff t mv) s = .next u ∧ u.aoc = { s.aoc with ignOff := some (max s.now t) } ∧ rget u R.AOC_SUPPLY_IGN_LEVEL = 0) ∧
  (∀ (s : State) (t : Fc) (mv : Fin 1024) (a : Nat),
      60 < mv.val →
      s.aoc.power < 2 →
      s.aoc.entry = none →
      binding s = false →
      s.aoc.ignOff = some a →
      ∃ u, exec (.ignHigh t mv) s = .next u ∧ u.aoc = { s.aoc with ignOff := none } ∧ rget u R.AOC_SUPPLY_IGN_LEVEL = 1) ∧
  (∀ (s : State) (t : Fc) (x : EntryMeas) (a : Nat),
      s.fabric = true →
      s.aoc.entry = none →
      binding s = false →
      s.aoc.castFrom = none →
      s.aoc.ignOff = some a →
      a + rval s R.AOC_BIND_CFG_BIND_DELAY_S * 400000000 ≤ max s.now t →
      0 < rval s R.AOC_BIND_CFG_BIND_SAFE_MS →
      ∃ u, exec (.bindStart t x) s = .next u ∧ binding u = true ∧ bindStep u = 2) ∧
  (∀ (s : State) (t : Fc) (x : EntryMeas),
      s.fabric = true →
      s.aoc.entry = none →
      binding s = false →
      0 < rval s R.AOC_BIND_CFG_BIND_SAFE_MS →
      ∃ u, exec (.bindNow t x) s = .next u ∧ binding u = true ∧ bindStep u = 2) ∧
  (∀ (s : State) (t : Fc) (x : EntryMeas),
      s.fabric = true →
      s.aoc.entry = none →
      binding s = true →
      bindStep s = 4 →
      tilesFlushed s = false →
      s.aoc.ignBack = false →
      s.aoc.stepAt + rval s R.AOC_BIND_CFG_BIND_TILE_MAX_S * 400000000 ≤ max s.now t →
      ∃ u, exec (.bindTileTimeout t x) s = .next u ∧ bindStep u = 6 ∧ rget u R.AOC_PWR_STATE_BIND_TIMEOUT % 2 = 1) ∧
  (∀ (s : State) (t : Fc) (p : Fin 4),
      s.fabric = true →
      s.aoc.power < 2 →
      s.aoc.entry = none →
      rbit s R.ETH_CTRL_WAKE_EN p = true →
      rbit s R.ETH_CTRL_EN p = true →
      ∃ u, exec (.tc10WakeRx t p) s = .next u ∧ rget u R.ETH_STATUS_LINK_UP p = 1 ∧ rget u R.ETH_STATUS_ASLEEP p = 0) ∧
  (∀ (s : State) (t : Fc) (mv : Fin 1024),
      s.aoc.logic = true →
      ∃ u, exec (.logicThrottle t mv) s = .next u ∧ rget u R.AOC_SUPPLY_LOGIC_100MV = mv ∧ rget u R.AOC_PWR_STATE_THROTTLED = b2n (decide (mv.val ≤ 120) || slackLimited s)) ∧
  (∀ (s : State) (t : Fc) (mv : Fin 1024),
      s.aoc.logic = false →
      80 < mv.val →
      s.aoc.kept = true →
      ∃ u, exec (.logicQualified t mv) s = .next u ∧ u.aoc = { s.aoc with logic := true, failAt := none, castFrom := some (max s.now t, 1) } ∧ rget u R.AOC_SUPPLY_LOGIC_100MV = mv) ∧
  (∀ (s : State) (t : Fc) (x : CastIn) (a : Nat),
      s.aoc.castFrom = some (a, 8) →
      s.fabric = false →
      s.aoc.logic = true →
      s.aoc.power = 0 →
      s.upd.revert = false →
      bankBootable s = true →
      s.ksm.unfinished = none →
      rget s R.NAV_STATE_START_KIND ≠ 0 →
      ∃ u, exec (.castOn t x) s = .next u ∧ u.fabric = true ∧ rget u R.AOC_CASTON_STAGE = 9) ∧
  (∀ (s : State) (t : Fc) (a f : Nat),
      s.fabric = true →
      s.aoc.castFrom = some (a, f) →
      rget s R.AOC_CASTON_STAGE = 9 →
      ∃ u, exec (.hostReady t) s = .next u ∧ u.aoc = { s.aoc with castFrom := none, kept := true, ignOff := s.aoc.ignOff.map fun _ => max s.now t } ∧ rget u R.AOC_CASTON_STAGE = 0) ∧
  (∀ (s : State) (t : Fc) (mv : Fin 1024) (n : Nat),
      mv.val < 70 →
      s.aoc.logic = true →
      ∃ u, exec (.powerFail t mv n) s = .next u ∧ u.fabric = false ∧ u.aoc.logic = false ∧ rget u R.AOC_RESET_CAUSE_KIND = 1 ∧ rget u R.AOC_RESET_CAUSE_SOURCE = 3) ∧
  (∀ (s : State) (t : Fc) (mv : Fin 1024),
      mv.val < 30 →
      ∃ u, exec (.aonLoss t mv) s = .next u ∧ u.fabric = false ∧ u.aoc = { Aoc.reset with castFrom := none }) ∧
  (∀ (s : State) (t : Fc) (k : Fin 4) (w : Bool) (c : Fin 256),
      s.fabric = true →
      c = 0xA5 →
      k ≠ 0 →
      ∃ u, exec (.aocReset t k w c) s = .next u ∧ u.fabric = false ∧ u.aoc.castFrom = some (max s.now t, if k = 3 then 1 else 8) ∧ rget u R.AOC_RESET_CAUSE_KIND = 4 - k.val ∧ rget u R.AOC_RESET_CAUSE_SOURCE = 1) ∧
  (∀ (s : State) (t : Fc),
      s.fabric = true →
      ∃ u, exec (.watchdogKick t) s = .next u ∧ u.aoc = { s.aoc with wdogAt := max s.now t }) ∧
  (∀ (s : State) (t : Fc),
      s.fabric = true →
      rget s R.AOC_WDOG_TIMEOUT_MS ≠ 0 →
      s.aoc.wdogAt + rget s R.AOC_WDOG_TIMEOUT_MS * 400000 ≤ max s.now t →
      (s.aoc.wdogTimes.filter fun a => decide (max s.now t < a + 600 * 400000000)).length < 2 →
      ∃ u, exec (.watchdogExpiry t) s = .next u ∧ u.fabric = false ∧ rget u R.AOC_RESET_CAUSE_KIND = 3 ∧ rget u R.AOC_RESET_CAUSE_SOURCE = 2) ∧
  (∀ (s : State) (t : Fc),
      s.aoc.power = 2 →
      rget s R.AOC_PARK_CFG_DEEP_AFTER_MIN ≠ 0 →
      s.aoc.parkedAt + rget s R.AOC_PARK_CFG_DEEP_AFTER_MIN * 60 * 400000000 ≤ max s.now t →
      3500000 ≤ rget s R.AOC_WAKE_TOLERANCE_US →
      ∃ u, exec (.deepDescent t) s = .next u ∧ u.aoc = { s.aoc with power := 3 })

/-- Each of ACTIVATE, ACTIVATE_COPY_DONE, ACTIVATION_RESET, AGEING_MEASURE, BANK_REPLAN, BASE_TEMP_SAMPLE, CE_WRITEBACK, CONFIRM, CRED_SET, DARN_READ, DRAM_TEMP_ABOVE_85C, ECC_UNCORRECTABLE, LC_CHANGE, MARGIN_RESET, PPS_APPLY, PPS_APPLY_DONE, PUBKEY_GET, RO_MEASURE, SPARE_ROW_SWITCH, TLM_SAMPLE, UPD_BLOCK, UPD_CANCEL, UPD_CLOSE, UPD_CLOSE_DONE and UPD_OPEN completes: under conditions on the state and the operands alone, exec answers a next state, and that state is, or holds, what the clause gives of the command's own effect. -/
def Obligations.KeysUpdateHealthComplete : Prop :=
  (∀ (s : State) (t : Fc) (r : Ref) (d : Desc) (ok : Bool) (cert : Option Cert) (m : Nat) (b : List Nat) (x : Cert),
      s.fabric = true →
      heldDesc s r 0xB 0x82 = some d →
      due (advance s t) d = true →
      (d.classWord % 16) = 0 →
      lcState s ≤ 1 →
      (d.word 0x18 % 65536) ≤ 1024 →
      ok = true →
      cert = some x →
      ∃ u, exec (.credSet t r ok cert m b) s = .next u ∧ u.ksm.memberCert = some { x with der := b.take (d.word 0x18 % 65536) } ∧ rget u R.KSM_KEYS_MEMBER_CERT = 1) ∧
  (∀ (s : State) (t : Fc) (r : Ref) (d : Desc),
      s.fabric = true →
      heldDesc s r 0xB 0x81 = some d →
      due (advance s t) d = true →
      rbit s R.KSM_KEYS_DEVICE_KEY = true →
      Memory.wf s.mem = true →
      Memory.wf s.extMem = true →
      ∃ u, exec (.pubkeyGet t r) s = .next u ∧ (∀ k < 97, Memory.read (if refHost s r then u.extMem else u.mem) ((d.quad 0x10 + k) % 2 ^ 64) = BitVec.ofNat 8 (Config.devicePublicKey k))) ∧
  (∀ (s : State) (t : Fc) (r : Ref) (d : Desc) (tok : List Nat) (sig cut : Bool),
      s.fabric = true →
      heldDesc s r 0xB 0x80 = some d →
      due (advance s t) d = true →
      planeArmed s 0 = false →
      planeArmed s 1 = false →
      transitionOk s (d.classWord % 8) = true →
      tokenOk s (d.classWord % 8) tok (sig && d.quad 0x10 != 0) = true →
      cut = false →
      ∃ u, exec (.lcChange t r tok sig cut) s = .next u ∧ lcState u = (d.classWord % 8) ∧ rget u R.KSM_LC_TRANSITIONS = satTo R.KSM_LC_TRANSITIONS.width (rget s R.KSM_LC_TRANSITIONS + 1) ∧ u.fabric = false ∧ rget u R.AOC_RESET_CAUSE_SOURCE = 6) ∧
  (∀ (s : State) (t : Fc) (r : Ref) (d : Desc) (h : List Nat),
      s.fabric = true →
      heldDesc s r 9 1 = some d →
      due (advance s t) d = true →
      lcState s ≠ 4 →
      lcState s ≠ 0 →
      headerOk h = true →
      slotState s (d.classWord % 2) ≠ 3 →
      ∃ u, exec (.updOpen t r h) s = .next u ∧ getSlot u (d.classWord % 2) = { image := some (headerImage h), held := [], closing := none } ∧ slotState u (d.classWord % 2) = 1 ∧ rget u (if (d.classWord % 2) = 0 then R.UPD_BLOCKS_A_MISSING else R.UPD_BLOCKS_B_MISSING) = (headerImage h).blocks) ∧
  (∀ (s : State) (t : Fc) (r : Ref) (d : Desc) (ok : Bool) (i : Image),
      s.fabric = true →
      heldDesc s r 9 2 = some d →
      due (advance s t) d = true →
      lcState s ≠ 4 →
      storeFirst (advance s t) r = true →
      storeAlone (advance s t) r = true →
      (getSlot s (d.classWord % 2)).image = some i →
      slotState s (d.classWord % 2) = 1 →
      (d.classWord / 256) < i.blocks →
      (d.word 0x18 % 2 ^ 17 = (if (d.classWord / 256) + 1 = i.blocks then i.lastLen else 65536)) →
      (d.classWord / 256) ∉ (getSlot s (d.classWord % 2)).held →
      ok = true →
      i.blocks ≤ 65000 →
      ∃ u, exec (.updBlock t r ok none) s = .next u ∧ getSlot u (d.classWord % 2) = { getSlot s (d.classWord % 2) with held := (d.classWord / 256) :: (getSlot s (d.classWord % 2)).held } ∧ rget u (if (d.classWord % 2) = 0 then R.UPD_BLOCKS_A_MISSING else R.UPD_BLOCKS_B_MISSING) = i.blocks - ((getSlot s (d.classWord % 2)).held.length + 1)) ∧
  (∀ (s : State) (t : Fc) (r : Ref) (d : Desc) (i : Image),
      s.fabric = true →
      heldDesc s r 9 3 = some d →
      due (advance s t) d = true →
      lcState s ≠ 4 →
      storeFirst (advance s t) r = true →
      (getSlot s (d.classWord % 2)).image = some i →
      slotState s (d.classWord % 2) = 1 →
      (getSlot s (d.classWord % 2)).closing = none →
      i.blocks ≤ (getSlot s (d.classWord % 2)).held.length →
      ∃ u, exec (.updClose t r) s = .next u ∧ getSlot u (d.classWord % 2) = { getSlot s (d.classWord % 2) with closing := some r }) ∧
  (∀ (s : State) (t : Fc) (k : Fin 2) (ok known : Bool) (q : Ref) (i : Image),
      s.fabric = true →
      storeAlone (advance s t) q = true →
      (getSlot s k).closing = some q →
      (getSlot s k).image = some i →
      ok = true →
      known = true →
      (i.signer = 0 ∨ ((tblGet? s.ksm.intKeys i.signer).isSome = true ∧ ∀ c ∈ i.components, c = 1)) →
      fuseCounter s i.signer ≤ i.svn →
      imageSuits i = true →
      ∃ u, exec (.updCloseDone t k ok known none) s = .next u ∧ slotState u k = 2 ∧ u.reqs = (complete s q stDone).reqs) ∧
  (∀ (s : State) (t : Fc) (r : Ref) (d : Desc),
      s.fabric = true →
      heldDesc s r 9 4 = some d →
      due (advance s t) d = true →
      lcState s ≠ 4 →
      slotState s (d.classWord % 2) = 2 →
      rbit s R.UPD_STATUS_TRIAL = false →
      slotState s (1 - (d.classWord % 2)) ≠ 3 →
      bitOf d.classWord 1 = false →
      (commanding s = false ∨ bitOf d.classWord 2 = true ∨ shortHold s = none) →
      ∃ u, exec (.activate t r) s = .next u ∧ u.upd = { s.upd with copying := some (r, (d.classWord % 2)) } ∧ slotState u (d.classWord % 2) = 3) ∧
  (∀ (s : State) (t : Fc) (q : Ref) (k : Nat) (i : Image),
      s.fabric = true →
      s.upd.copying = some (q, k) →
      (getSlot s k).image = some i →
      s.upd.resetAfter = none →
      ∃ u, exec (.activateCopyDone t none) s = .next u ∧ u.upd.banks = tblSet s.upd.banks (otherBank s) i ∧ u.upd.resetAfter = some (rowNow s) ∧ u.aoc.bootSeal = some (otherBank s)) ∧
  (∀ (s : State) (t : Fc) (q : Ref) (k n : Nat),
      s.fabric = true →
      s.upd.copying = some (q, k) →
      s.upd.resetAfter = some n →
      n < rowNow s →
      s.tke.flushed = true →
      ∃ u, exec (.activationReset t) s = .next u ∧ rget u R.UPD_STATUS_ACTIVE_BANK = otherBank s ∧ rget u R.UPD_STATUS_TRIAL = 1 ∧ u.fabric = false ∧ rget u R.AOC_RESET_CAUSE_SOURCE = 7) ∧
  (∀ (s : State) (t : Fc) (r : Ref) (d : Desc),
      s.fabric = true →
      heldDesc s r 9 5 = some d →
      due (advance s t) d = true →
      lcState s ≠ 4 →
      rbit s R.UPD_STATUS_TRIAL = true →
      (tblGetD s.upd.banks (rget s R.UPD_STATUS_ACTIVE_BANK) Image.delivered).svn < 128 →
      ∃ u, exec (.confirm t r) s = .next u ∧ rget u R.UPD_STATUS_TRIAL = 0) ∧
  (∀ (s : State) (t : Fc) (r : Ref) (d : Desc) (v : Nat),
      s.fabric = true →
      heldDesc s r 9 6 = some d →
      due (advance s t) d = true →
      lcState s ≠ 4 →
      rbit s R.PPS_STATUS_SAFE_ACTIVE (d.classWord % 2) = true →
      4 ∈ (tblGetD s.upd.banks (rget s R.UPD_STATUS_ACTIVE_BANK) Image.delivered).components →
      (tkeArmed s = false ∨ planeArmed s (d.classWord % 2) = false) →
      (rbit s R.XLK_PAIR_CFG_PAIR_EN = false ∨ ∀ a, (getPps s (d.classWord % 2)).commitAt = some a → a + 40000000 ≤ max s.now t) →
      ppsLoading s (d.classWord % 2) = false →
      (v % 65536 ≠ rget s (if (d.classWord % 2) = 0 then R.UPD_PPS_PPS_A else R.UPD_PPS_PPS_B)) →
      ∃ u, exec (.ppsApply t r v) s = .next u ∧ u.upd.applying = tblSet s.upd.applying (d.classWord % 2) (r, v, max s.now t)) ∧
  (∀ (s : State) (t : Fc) (p : Fin 2) (q : Ref) (v a : Nat),
      (getPps s p).powered = true →
      tblGet? s.upd.applying p = some (q, v, a) →
      ∃ u, exec (.ppsApplyDone t p) s = .next u ∧ rget u (if p = 0 then R.UPD_PPS_PPS_A else R.UPD_PPS_PPS_B) = v % 65536 ∧ u.upd = { s.upd with applying := tblErase s.upd.applying p }) ∧
  (∀ (s : State) (t : Fc) (r : Ref) (d : Desc),
      s.fabric = true →
      heldDesc s r 9 7 = some d →
      due (advance s t) d = true →
      lcState s ≠ 4 →
      slotState s (d.classWord % 2) ≠ 3 →
      ∃ u, exec (.updCancel t r) s = .next u ∧ getSlot u (d.classWord % 2) = UpdSlot.empty ∧ slotState u (d.classWord % 2) = 0 ∧ rget u (if (d.classWord % 2) = 0 then R.UPD_BLOCKS_A_MISSING else R.UPD_BLOCKS_B_MISSING) = 0) ∧
  (∀ (s : State) (t : Fc) (w : Nat) (tm : Bool),
      s.fabric = true →
      ceMarked (advance s t) tm w = none →
      ∃ u, exec (.ceWriteback t tm w) s = .next u ∧ (rget u (if tm then R.HLM_ECC_TM_CE else R.HLM_ECC_DRAM_CE) = satTo (if tm then R.HLM_ECC_TM_CE else R.HLM_ECC_DRAM_CE).width (rget s (if tm then R.HLM_ECC_TM_CE else R.HLM_ECC_DRAM_CE) + 1))) ∧
  (∀ (s : State) (t : Fc) (tm a : Bool) (y : Fin 128) (x : Nat),
      s.fabric = true →
      ∃ u, exec (.eccUncorrectable t tm a y 3 x none) s = .next u ∧ rget u (ueFld tm) = satTo (ueFld tm).width (rget s (ueFld tm) + 1) ∧ rget u R.HLM_ECC_LAST_LO_ADDR = x % 2 ^ 32 ∧ rget u R.HLM_ECC_LAST_INFO_SYNDROME = y) ∧
  (∀ (s : State) (t : Fc) (y : Fin 128) (tm : Bool),
      s.fabric = true →
      rbit s R.HLM_CTRL_DARN_EN = true →
      (getPass s tm).start + (getPass s tm).pos * passFc s tm / memWords tm ≤ max s.now t →
      (getPass s tm).pos + 1 < memWords tm →
      ∃ u, exec (.darnRead t tm 0 y) s = .next u ∧ getPass u tm = { (getPass s tm) with pos := (getPass s tm).pos + 1 }) ∧
  (∀ (s : State) (t : Fc) (w : Fin 16384),
      s.fabric = true →
      w.val ∈ s.hlm.rowMoves →
      ∃ u, exec (.spareRowSwitch t w) s = .next u ∧ u.hlm = { s.hlm with rowMoves := s.hlm.rowMoves.erase w, moved := s.hlm.moved ++ [w.val], spares := tblSet s.hlm.spares (bankOfRow w) (tblGetD s.hlm.spares (bankOfRow w) 0 + 1) }) ∧
  (∀ (s : State) (t : Fc) (a b c : Int),
      s.fabric = true →
      rget s R.HLM_CTRL_SAMPLE_S ≠ 0 →
      passed (advance s t) s.hlm.sampleAt (rget s R.HLM_CTRL_SAMPLE_S * 400000000) = true →
      (s.hlm.lifeTold = true ∨ lifePermille (advance s t) < 1000) →
      rbit s R.HLM_TLM_CFG_ENABLE = true →
      queueRoom s queueTlm 0 0 = true →
      Memory.wf s.mem = true →
      Memory.wf s.extMem = true →
      ∃ u, exec (.tlmSample t a b c) s = .next u ∧ u.hlm = { s.hlm with sampleAt := some (max s.now t) } ∧ (∀ k < 8, Memory.read (if queueHost s queueTlm 0 0 then u.extMem else u.mem) (((queueBase s queueTlm 0 0 + 128 * rget s R.HLM_TLM_WRITE_INDEX) + 16 + k) % 2 ^ 64) = (leBytes 8 (moduleTime (advance s t))).getD k 0)) ∧
  (∀ (s : State) (t : Fc) (m : AgeMeas),
      s.fabric = true →
      monitorDue (advance s t) m = true →
      overLimit (advance s t) m.kind (monitorValue (advance s t) m) (baselineOf (advance s t) m.kind m.inst m.item) = false →
      ∃ u, exec (.ageingMeasure t m) s = .next u ∧ tblGet? u.hlm.monitor (s.hlm.monitorSeq % 111616) = some (ageBytes (advance s t) (monitorRec (advance s t) m) s.hlm.monitorSeq) ∧ u.hlm.monitorSeq = s.hlm.monitorSeq + 1) ∧
  (∀ (s : State) (t : Fc) (l : List Int) (o : Nat),
      s.fabric = true →
      passed (advance s t) s.hlm.roAt (600 * 400000000) = true →
      (∀ n < 32, -32768 ≤ l.getD n 0 ∧ l.getD n 0 ≤ 32767) →
      rbit s R.HLM_CTRL_AVS_EN = true →
      l.length = 32 →
      leastSlack l < (rval s R.HLM_REPLAN_SLACK_TARGET_PS : Int) →
      700 ≤ rget s R.HLM_VCORE_FLOOR_MV →
      rget s R.HLM_VCORE_FLOOR_MV ≤ 1790 →
      ∃ u, exec (.roMeasure t l o) s = .next u ∧ rget u R.HLM_VCORE_FLOOR_MV = rget s R.HLM_VCORE_FLOOR_MV + 10 ∧ rget u R.HLM_VCORE_VCORE_MV = min (rget s R.HLM_VCORE_FLOOR_MV + 10 + o) 1800) ∧
  (∀ (s : State) (t : Fc) (b : Fin 12),
      s.fabric = true →
      rbit s R.HLM_CTRL_REPLAN_EN = true →
      (∀ a, tblGet? s.hlm.replanAt b = some a → a + rval s R.HLM_REPLAN_REPLAN_H * 3600 * 400000000 ≤ opTime (advance s t)) →
      (boostLimit (tblGet? s.hlm.cap b) < (limitsNow s b).1 ∨ peakLimit (tblGet? s.hlm.hsb b) < (limitsNow s b).2) →
      bankOff s b = true →
      ∃ u, exec (.bankReplan t b) s = .next u ∧ rget u R.DBK_DERATE_BOOST_MA b = (min (limitsNow s b).1 (boostLimit (tblGet? s.hlm.cap b))) % 2 ^ 16 ∧ rget u R.DBK_DERATE_PEAK_MA b = (min (limitsNow s b).2 (peakLimit (tblGet? s.hlm.hsb b))) % 2 ^ 16) ∧
  (∀ (s : State) (t : Fc) (r : Ref) (d : Desc),
      s.fabric = true →
      heldDesc s r 0xB 0x90 = some d →
      due (advance s t) d = true →
      (d.classWord % 16) ≤ 11 →
      lcState s = 3 →
      ∃ u, exec (.marginReset t r) s = .next u ∧ rget u R.DBK_DERATE_BOOST_MA (d.classWord % 16) = R.DBK_DERATE_BOOST_MA.resetAt (d.classWord % 16) 0 ∧ rget u R.DBK_DERATE_PEAK_MA (d.classWord % 16) = R.DBK_DERATE_PEAK_MA.resetAt (d.classWord % 16) 0 ∧ u.reqs = (complete (takeReq (advance s t) r) r stDone).reqs) ∧
  (∀ (s : State) (t : Fc) (x : Int) (a : Nat),
      s.fabric = true →
      passed (advance s t) s.hlm.baseAt (10 * 400000000) = true →
      Config.baseLimitC < x →
      s.hlm.hotSince = some a →
      s.hlm.hot = false →
      a + 4000000000 ≤ max s.now t →
      ∃ u, exec (.baseTempSample t x) s = .next u ∧ u.hlm.hot = true ∧ u.hlm.hotSince = some a) ∧
  (∀ (s : State) (t : Fc) (a : Bool),
      s.fabric = true →
      ∃ u, exec (.dramTempAbove85c t a) s = .next u ∧ (∀ n, 1 ≤ n → n ≤ 4 → rget u R.ARB_EMERG_EMERG_SPACING n = if a then 1560 else 3120))
end

