-- ==== Sys2Proof/Laws/State.lean ====
section
/-! SUPPORT. One law per field for the updates that every meaning is built from: what each leaves of the state and
what it puts there. -/

namespace Sys2Proof.Machine

variable (s : State)

@[simp] theorem advance_now (t : Fc) : (advance s t).now = max s.now t := rfl
@[simp] theorem advance_pending (t : Fc) : (advance s t).pending = s.pending := rfl
@[simp] theorem advance_regs (t : Fc) : (advance s t).regs = s.regs := rfl
@[simp] theorem advance_hiLatch (t : Fc) : (advance s t).hiLatch = s.hiLatch := rfl
@[simp] theorem advance_rolLatch (t : Fc) : (advance s t).rolLatch = s.rolLatch := rfl
@[simp] theorem advance_onesAt (t : Fc) : (advance s t).onesAt = s.onesAt := rfl
@[simp] theorem advance_readData (t : Fc) : (advance s t).readData = s.readData := rfl
@[simp] theorem advance_freeCount (t : Fc) : (advance s t).freeCount = s.freeCount := rfl
@[simp] theorem advance_fabric (t : Fc) : (advance s t).fabric = s.fabric := rfl
@[simp] theorem advance_timeOff (t : Fc) : (advance s t).timeOff = s.timeOff := rfl
@[simp] theorem advance_rtcOff (t : Fc) : (advance s t).rtcOff = s.rtcOff := rfl
@[simp] theorem advance_mem (t : Fc) : (advance s t).mem = s.mem := rfl
@[simp] theorem advance_extMem (t : Fc) : (advance s t).extMem = s.extMem := rfl
@[simp] theorem advance_log (t : Fc) : (advance s t).log = s.log := rfl
@[simp] theorem advance_arbs (t : Fc) : (advance s t).arbs = s.arbs := rfl
@[simp] theorem advance_reqs (t : Fc) : (advance s t).reqs = s.reqs := rfl
@[simp] theorem advance_till (t : Fc) : (advance s t).till = s.till := rfl
@[simp] theorem advance_cqIrq (t : Fc) : (advance s t).cqIrq = s.cqIrq := rfl
@[simp] theorem advance_irqs (t : Fc) : (advance s t).irqs = s.irqs := rfl
@[simp] theorem advance_tke (t : Fc) : (advance s t).tke = s.tke := rfl
@[simp] theorem advance_sps (t : Fc) : (advance s t).sps = s.sps := rfl
@[simp] theorem advance_sfe (t : Fc) : (advance s t).sfe = s.sfe := rfl
@[simp] theorem advance_fetches (t : Fc) : (advance s t).fetches = s.fetches := rfl
@[simp] theorem advance_drv (t : Fc) : (advance s t).drv = s.drv := rfl
@[simp] theorem advance_dbk (t : Fc) : (advance s t).dbk = s.dbk := rfl
@[simp] theorem advance_sw (t : Fc) : (advance s t).sw = s.sw := rfl
@[simp] theorem advance_feed (t : Fc) : (advance s t).feed = s.feed := rfl
@[simp] theorem advance_pps (t : Fc) : (advance s t).pps = s.pps := rfl
@[simp] theorem advance_rowEntries (t : Fc) : (advance s t).rowEntries = s.rowEntries := rfl
@[simp] theorem advance_xlk (t : Fc) : (advance s t).xlk = s.xlk := rfl
@[simp] theorem advance_nav (t : Fc) : (advance s t).nav = s.nav := rfl
@[simp] theorem advance_sto (t : Fc) : (advance s t).sto = s.sto := rfl
@[simp] theorem advance_fle (t : Fc) : (advance s t).fle = s.fle := rfl
@[simp] theorem advance_ksm (t : Fc) : (advance s t).ksm = s.ksm := rfl
@[simp] theorem advance_vis (t : Fc) : (advance s t).vis = s.vis := rfl
@[simp] theorem advance_can (t : Fc) : (advance s t).can = s.can := rfl
@[simp] theorem advance_eth (t : Fc) : (advance s t).eth = s.eth := rfl
@[simp] theorem advance_pnl (t : Fc) : (advance s t).pnl = s.pnl := rfl
@[simp] theorem advance_upd (t : Fc) : (advance s t).upd = s.upd := rfl
@[simp] theorem advance_aoc (t : Fc) : (advance s t).aoc = s.aoc := rfl
@[simp] theorem advance_hlm (t : Fc) : (advance s t).hlm = s.hlm := rfl

@[simp] theorem rset_regs (f : Fld) (v i j : Nat) :
    (rset s f v i j).regs = tblSet s.regs (f.key i j) (v % 2 ^ f.width) := rfl
@[simp] theorem rset_now (f : Fld) (v i j : Nat) : (rset s f v i j).now = s.now := rfl
@[simp] theorem rset_before (f : Fld) (v i j : Nat) : (rset s f v i j).before = s.before := rfl
@[simp] theorem rset_pending (f : Fld) (v i j : Nat) : (rset s f v i j).pending = s.pending := rfl
@[simp] theorem rset_hiLatch (f : Fld) (v i j : Nat) : (rset s f v i j).hiLatch = s.hiLatch := rfl
@[simp] theorem rset_rolLatch (f : Fld) (v i j : Nat) : (rset s f v i j).rolLatch = s.rolLatch := rfl
@[simp] theorem rset_onesAt (f : Fld) (v i j : Nat) : (rset s f v i j).onesAt = s.onesAt := rfl
@[simp] theorem rset_readData (f : Fld) (v i j : Nat) : (rset s f v i j).readData = s.readData := rfl
@[simp] theorem rset_freeCount (f : Fld) (v i j : Nat) : (rset s f v i j).freeCount = s.freeCount := rfl
@[simp] theorem rset_fabric (f : Fld) (v i j : Nat) : (rset s f v i j).fabric = s.fabric := rfl
@[simp] theorem rset_timeOff (f : Fld) (v i j : Nat) : (rset s f v i j).timeOff = s.timeOff := rfl
@[simp] theorem rset_rtcOff (f : Fld) (v i j : Nat) : (rset s f v i j).rtcOff = s.rtcOff := rfl
@[simp] theorem rset_mem (f : Fld) (v i j : Nat) : (rset s f v i j).mem = s.mem := rfl
@[simp] theorem rset_extMem (f : Fld) (v i j : Nat) : (rset s f v i j).extMem = s.extMem := rfl
@[simp] theorem rset_log (f : Fld) (v i j : Nat) : (rset s f v i j).log = s.log := rfl
@[simp] theorem rset_arbs (f : Fld) (v i j : Nat) : (rset s f v i j).arbs = s.arbs := rfl
@[simp] theorem rset_reqs (f : Fld) (v i j : Nat) : (rset s f v i j).reqs = s.reqs := rfl
@[simp] theorem rset_till (f : Fld) (v i j : Nat) : (rset s f v i j).till = s.till := rfl
@[simp] theorem rset_cqIrq (f : Fld) (v i j : Nat) : (rset s f v i j).cqIrq = s.cqIrq := rfl
@[simp] theorem rset_irqs (f : Fld) (v i j : Nat) : (rset s f v i j).irqs = s.irqs := rfl
@[simp] theorem rset_tke (f : Fld) (v i j : Nat) : (rset s f v i j).tke = s.tke := rfl
@[simp] theorem rset_sps (f : Fld) (v i j : Nat) : (rset s f v i j).sps = s.sps := rfl
@[simp] theorem rset_sfe (f : Fld) (v i j : Nat) : (rset s f v i j).sfe = s.sfe := rfl
@[simp] theorem rset_fetches (f : Fld) (v i j : Nat) : (rset s f v i j).fetches = s.fetches := rfl
@[simp] theorem rset_drv (f : Fld) (v i j : Nat) : (rset s f v i j).drv = s.drv := rfl
@[simp] theorem rset_dbk (f : Fld) (v i j : Nat) : (rset s f v i j).dbk = s.dbk := rfl
@[simp] theorem rset_sw (f : Fld) (v i j : Nat) : (rset s f v i j).sw = s.sw := rfl
@[simp] theorem rset_feed (f : Fld) (v i j : Nat) : (rset s f v i j).feed = s.feed := rfl
@[simp] theorem rset_pps (f : Fld) (v i j : Nat) : (rset s f v i j).pps = s.pps := rfl
@[simp] theorem rset_rowEntries (f : Fld) (v i j : Nat) : (rset s f v i j).rowEntries = s.rowEntries := rfl
@[simp] theorem rset_xlk (f : Fld) (v i j : Nat) : (rset s f v i j).xlk = s.xlk := rfl
@[simp] theorem rset_nav (f : Fld) (v i j : Nat) : (rset s f v i j).nav = s.nav := rfl
@[simp] theorem rset_sto (f : Fld) (v i j : Nat) : (rset s f v i j).sto = s.sto := rfl
@[simp] theorem rset_fle (f : Fld) (v i j : Nat) : (rset s f v i j).fle = s.fle := rfl
@[simp] theorem rset_ksm (f : Fld) (v i j : Nat) : (rset s f v i j).ksm = s.ksm := rfl
@[simp] theorem rset_vis (f : Fld) (v i j : Nat) : (rset s f v i j).vis = s.vis := rfl
@[simp] theorem rset_can (f : Fld) (v i j : Nat) : (rset s f v i j).can = s.can := rfl
@[simp] theorem rset_eth (f : Fld) (v i j : Nat) : (rset s f v i j).eth = s.eth := rfl
@[simp] theorem rset_pnl (f : Fld) (v i j : Nat) : (rset s f v i j).pnl = s.pnl := rfl
@[simp] theorem rset_upd (f : Fld) (v i j : Nat) : (rset s f v i j).upd = s.upd := rfl
@[simp] theorem rset_aoc (f : Fld) (v i j : Nat) : (rset s f v i j).aoc = s.aoc := rfl
@[simp] theorem rset_hlm (f : Fld) (v i j : Nat) : (rset s f v i j).hlm = s.hlm := rfl

@[simp] theorem hostWrite_now (h : Bool) (a : Nat) (l : List Byte) : (hostWrite s h a l).now = s.now := by
  cases h <;> rfl
@[simp] theorem hostWrite_before (h : Bool) (a : Nat) (l : List Byte) : (hostWrite s h a l).before = s.before := by
  cases h <;> rfl
@[simp] theorem hostWrite_pending (h : Bool) (a : Nat) (l : List Byte) : (hostWrite s h a l).pending = s.pending := by
  cases h <;> rfl
@[simp] theorem hostWrite_regs (h : Bool) (a : Nat) (l : List Byte) : (hostWrite s h a l).regs = s.regs := by
  cases h <;> rfl
@[simp] theorem hostWrite_hiLatch (h : Bool) (a : Nat) (l : List Byte) : (hostWrite s h a l).hiLatch = s.hiLatch := by
  cases h <;> rfl
@[simp] theorem hostWrite_rolLatch (h : Bool) (a : Nat) (l : List Byte) : (hostWrite s h a l).rolLatch = s.rolLatch := by
  cases h <;> rfl
@[simp] theorem hostWrite_onesAt (h : Bool) (a : Nat) (l : List Byte) : (hostWrite s h a l).onesAt = s.onesAt := by
  cases h <;> rfl
@[simp] theorem hostWrite_readData (h : Bool) (a : Nat) (l : List Byte) : (hostWrite s h a l).readData = s.readData := by
  cases h <;> rfl
@[simp] theorem hostWrite_freeCount (h : Bool) (a : Nat) (l : List Byte) : (hostWrite s h a l).freeCount = s.freeCount := by
  cases h <;> rfl
@[simp] theorem hostWrite_fabric (h : Bool) (a : Nat) (l : List Byte) : (hostWrite s h a l).fabric = s.fabric := by
  cases h <;> rfl
@[simp] theorem hostWrite_timeOff (h : Bool) (a : Nat) (l : List Byte) : (hostWrite s h a l).timeOff = s.timeOff := by
  cases h <;> rfl
@[simp] theorem hostWrite_rtcOff (h : Bool) (a : Nat) (l : List Byte) : (hostWrite s h a l).rtcOff = s.rtcOff := by
  cases h <;> rfl
@[simp] theorem hostWrite_mem_false (a : Nat) (l : List Byte) :
    (hostWrite s false a l).mem = Memory.writeList s.mem a l := rfl
@[simp] theorem hostWrite_mem_true (a : Nat) (l : List Byte) : (hostWrite s true a l).mem = s.mem := rfl
@[simp] theorem hostWrite_extMem_true (a : Nat) (l : List Byte) :
    (hostWrite s true a l).extMem = Memory.writeList s.extMem a l := rfl
@[simp] theorem hostWrite_extMem_false (a : Nat) (l : List Byte) : (hostWrite s false a l).extMem = s.extMem := rfl
@[simp] theorem hostWrite_log (h : Bool) (a : Nat) (l : List Byte) : (hostWrite s h a l).log = s.log := by
  cases h <;> rfl
@[simp] theorem hostWrite_arbs (h : Bool) (a : Nat) (l : List Byte) : (hostWrite s h a l).arbs = s.arbs := by
  cases h <;> rfl
@[simp] theorem hostWrite_reqs (h : Bool) (a : Nat) (l : List Byte) : (hostWrite s h a l).reqs = s.reqs := by
  cases h <;> rfl
@[simp] theorem hostWrite_till (h : Bool) (a : Nat) (l : List Byte) : (hostWrite s h a l).till = s.till := by
  cases h <;> rfl
@[simp] theorem hostWrite_cqIrq (h : Bool) (a : Nat) (l : List Byte) : (hostWrite s h a l).cqIrq = s.cqIrq := by
  cases h <;> rfl
@[simp] theorem hostWrite_irqs (h : Bool) (a : Nat) (l : List Byte) : (hostWrite s h a l).irqs = s.irqs := by
  cases h <;> rfl
@[simp] theorem hostWrite_tke (h : Bool) (a : Nat) (l : List Byte) : (hostWrite s h a l).tke = s.tke := by
  cases h <;> rfl
@[simp] theorem hostWrite_sps (h : Bool) (a : Nat) (l : List Byte) : (hostWrite s h a l).sps = s.sps := by
  cases h <;> rfl
@[simp] theorem hostWrite_sfe (h : Bool) (a : Nat) (l : List Byte) : (hostWrite s h a l).sfe = s.sfe := by
  cases h <;> rfl
@[simp] theorem hostWrite_fetches (h : Bool) (a : Nat) (l : List Byte) : (hostWrite s h a l).fetches = s.fetches := by
  cases h <;> rfl
@[simp] theorem hostWrite_drv (h : Bool) (a : Nat) (l : List Byte) : (hostWrite s h a l).drv = s.drv := by
  cases h <;> rfl
@[simp] theorem hostWrite_dbk (h : Bool) (a : Nat) (l : List Byte) : (hostWrite s h a l).dbk = s.dbk := by
  cases h <;> rfl
@[simp] theorem hostWrite_sw (h : Bool) (a : Nat) (l : List Byte) : (hostWrite s h a l).sw = s.sw := by
  cases h <;> rfl
@[simp] theorem hostWrite_feed (h : Bool) (a : Nat) (l : List Byte) : (hostWrite s h a l).feed = s.feed := by
  cases h <;> rfl
@[simp] theorem hostWrite_pps (h : Bool) (a : Nat) (l : List Byte) : (hostWrite s h a l).pps = s.pps := by
  cases h <;> rfl
@[simp] theorem hostWrite_rowEntries (h : Bool) (a : Nat) (l : List Byte) : (hostWrite s h a l).rowEntries = s.rowEntries := by
  cases h <;> rfl
@[simp] theorem hostWrite_xlk (h : Bool) (a : Nat) (l : List Byte) : (hostWrite s h a l).xlk = s.xlk := by
  cases h <;> rfl
@[simp] theorem hostWrite_nav (h : Bool) (a : Nat) (l : List Byte) : (hostWrite s h a l).nav = s.nav := by
  cases h <;> rfl
@[simp] theorem hostWrite_sto (h : Bool) (a : Nat) (l : List Byte) : (hostWrite s h a l).sto = s.sto := by
  cases h <;> rfl
@[simp] theorem hostWrite_fle (h : Bool) (a : Nat) (l : List Byte) : (hostWrite s h a l).fle = s.fle := by
  cases h <;> rfl
@[simp] theorem hostWrite_ksm (h : Bool) (a : Nat) (l : List Byte) : (hostWrite s h a l).ksm = s.ksm := by
  cases h <;> rfl
@[simp] theorem hostWrite_vis (h : Bool) (a : Nat) (l : List Byte) : (hostWrite s h a l).vis = s.vis := by
  cases h <;> rfl
@[simp] theorem hostWrite_can (h : Bool) (a : Nat) (l : List Byte) : (hostWrite s h a l).can = s.can := by
  cases h <;> rfl
@[simp] theorem hostWrite_eth (h : Bool) (a : Nat) (l : List Byte) : (hostWrite s h a l).eth = s.eth := by
  cases h <;> rfl
@[simp] theorem hostWrite_pnl (h : Bool) (a : Nat) (l : List Byte) : (hostWrite s h a l).pnl = s.pnl := by
  cases h <;> rfl
@[simp] theorem hostWrite_upd (h : Bool) (a : Nat) (l : List Byte) : (hostWrite s h a l).upd = s.upd := by
  cases h <;> rfl
@[simp] theorem hostWrite_aoc (h : Bool) (a : Nat) (l : List Byte) : (hostWrite s h a l).aoc = s.aoc := by
  cases h <;> rfl
@[simp] theorem hostWrite_hlm (h : Bool) (a : Nat) (l : List Byte) : (hostWrite s h a l).hlm = s.hlm := by
  cases h <;> rfl

@[simp] theorem setArb_arbs (n : Nat) (a : Arb) : (setArb s n a).arbs = tblSet s.arbs n a := rfl
@[simp] theorem setArb_now (n : Nat) (a : Arb) : (setArb s n a).now = s.now := rfl
@[simp] theorem setArb_before (n : Nat) (a : Arb) : (setArb s n a).before = s.before := rfl
@[simp] theorem setArb_pending (n : Nat) (a : Arb) : (setArb s n a).pending = s.pending := rfl
@[simp] theorem setArb_regs (n : Nat) (a : Arb) : (setArb s n a).regs = s.regs := rfl
@[simp] theorem setArb_hiLatch (n : Nat) (a : Arb) : (setArb s n a).hiLatch = s.hiLatch := rfl
@[simp] theorem setArb_rolLatch (n : Nat) (a : Arb) : (setArb s n a).rolLatch = s.rolLatch := rfl
@[simp] theorem setArb_onesAt (n : Nat) (a : Arb) : (setArb s n a).onesAt = s.onesAt := rfl
@[simp] theorem setArb_readData (n : Nat) (a : Arb) : (setArb s n a).readData = s.readData := rfl
@[simp] theorem setArb_freeCount (n : Nat) (a : Arb) : (setArb s n a).freeCount = s.freeCount := rfl
@[simp] theorem setArb_fabric (n : Nat) (a : Arb) : (setArb s n a).fabric = s.fabric := rfl
@[simp] theorem setArb_timeOff (n : Nat) (a : Arb) : (setArb s n a).timeOff = s.timeOff := rfl
@[simp] theorem setArb_rtcOff (n : Nat) (a : Arb) : (setArb s n a).rtcOff = s.rtcOff := rfl
@[simp] theorem setArb_mem (n : Nat) (a : Arb) : (setArb s n a).mem = s.mem := rfl
@[simp] theorem setArb_extMem (n : Nat) (a : Arb) : (setArb s n a).extMem = s.extMem := rfl
@[simp] theorem setArb_log (n : Nat) (a : Arb) : (setArb s n a).log = s.log := rfl
@[simp] theorem setArb_reqs (n : Nat) (a : Arb) : (setArb s n a).reqs = s.reqs := rfl
@[simp] theorem setArb_till (n : Nat) (a : Arb) : (setArb s n a).till = s.till := rfl
@[simp] theorem setArb_cqIrq (n : Nat) (a : Arb) : (setArb s n a).cqIrq = s.cqIrq := rfl
@[simp] theorem setArb_irqs (n : Nat) (a : Arb) : (setArb s n a).irqs = s.irqs := rfl
@[simp] theorem setArb_tke (n : Nat) (a : Arb) : (setArb s n a).tke = s.tke := rfl
@[simp] theorem setArb_sps (n : Nat) (a : Arb) : (setArb s n a).sps = s.sps := rfl
@[simp] theorem setArb_sfe (n : Nat) (a : Arb) : (setArb s n a).sfe = s.sfe := rfl
@[simp] theorem setArb_fetches (n : Nat) (a : Arb) : (setArb s n a).fetches = s.fetches := rfl
@[simp] theorem setArb_drv (n : Nat) (a : Arb) : (setArb s n a).drv = s.drv := rfl
@[simp] theorem setArb_dbk (n : Nat) (a : Arb) : (setArb s n a).dbk = s.dbk := rfl
@[simp] theorem setArb_sw (n : Nat) (a : Arb) : (setArb s n a).sw = s.sw := rfl
@[simp] theorem setArb_feed (n : Nat) (a : Arb) : (setArb s n a).feed = s.feed := rfl
@[simp] theorem setArb_pps (n : Nat) (a : Arb) : (setArb s n a).pps = s.pps := rfl
@[simp] theorem setArb_rowEntries (n : Nat) (a : Arb) : (setArb s n a).rowEntries = s.rowEntries := rfl
@[simp] theorem setArb_xlk (n : Nat) (a : Arb) : (setArb s n a).xlk = s.xlk := rfl
@[simp] theorem setArb_nav (n : Nat) (a : Arb) : (setArb s n a).nav = s.nav := rfl
@[simp] theorem setArb_sto (n : Nat) (a : Arb) : (setArb s n a).sto = s.sto := rfl
@[simp] theorem setArb_fle (n : Nat) (a : Arb) : (setArb s n a).fle = s.fle := rfl
@[simp] theorem setArb_ksm (n : Nat) (a : Arb) : (setArb s n a).ksm = s.ksm := rfl
@[simp] theorem setArb_vis (n : Nat) (a : Arb) : (setArb s n a).vis = s.vis := rfl
@[simp] theorem setArb_can (n : Nat) (a : Arb) : (setArb s n a).can = s.can := rfl
@[simp] theorem setArb_eth (n : Nat) (a : Arb) : (setArb s n a).eth = s.eth := rfl
@[simp] theorem setArb_pnl (n : Nat) (a : Arb) : (setArb s n a).pnl = s.pnl := rfl
@[simp] theorem setArb_upd (n : Nat) (a : Arb) : (setArb s n a).upd = s.upd := rfl
@[simp] theorem setArb_aoc (n : Nat) (a : Arb) : (setArb s n a).aoc = s.aoc := rfl
@[simp] theorem setArb_hlm (n : Nat) (a : Arb) : (setArb s n a).hlm = s.hlm := rfl

@[simp] theorem tillPost_till (r : TillRec) :
    (tillPost s r).till = { s.till with posted := s.till.posted ++ [r] } := rfl
@[simp] theorem tillPost_now (r : TillRec) : (tillPost s r).now = s.now := rfl
@[simp] theorem tillPost_before (r : TillRec) : (tillPost s r).before = s.before := rfl
@[simp] theorem tillPost_pending (r : TillRec) : (tillPost s r).pending = s.pending := rfl
@[simp] theorem tillPost_regs (r : TillRec) : (tillPost s r).regs = s.regs := rfl
@[simp] theorem tillPost_hiLatch (r : TillRec) : (tillPost s r).hiLatch = s.hiLatch := rfl
@[simp] theorem tillPost_rolLatch (r : TillRec) : (tillPost s r).rolLatch = s.rolLatch := rfl
@[simp] theorem tillPost_onesAt (r : TillRec) : (tillPost s r).onesAt = s.onesAt := rfl
@[simp] theorem tillPost_readData (r : TillRec) : (tillPost s r).readData = s.readData := rfl
@[simp] theorem tillPost_freeCount (r : TillRec) : (tillPost s r).freeCount = s.freeCount := rfl
@[simp] theorem tillPost_fabric (r : TillRec) : (tillPost s r).fabric = s.fabric := rfl
@[simp] theorem tillPost_timeOff (r : TillRec) : (tillPost s r).timeOff = s.timeOff := rfl
@[simp] theorem tillPost_rtcOff (r : TillRec) : (tillPost s r).rtcOff = s.rtcOff := rfl
@[simp] theorem tillPost_mem (r : TillRec) : (tillPost s r).mem = s.mem := rfl
@[simp] theorem tillPost_extMem (r : TillRec) : (tillPost s r).extMem = s.extMem := rfl
@[simp] theorem tillPost_log (r : TillRec) : (tillPost s r).log = s.log := rfl
@[simp] theorem tillPost_arbs (r : TillRec) : (tillPost s r).arbs = s.arbs := rfl
@[simp] theorem tillPost_reqs (r : TillRec) : (tillPost s r).reqs = s.reqs := rfl
@[simp] theorem tillPost_cqIrq (r : TillRec) : (tillPost s r).cqIrq = s.cqIrq := rfl
@[simp] theorem tillPost_irqs (r : TillRec) : (tillPost s r).irqs = s.irqs := rfl
@[simp] theorem tillPost_tke (r : TillRec) : (tillPost s r).tke = s.tke := rfl
@[simp] theorem tillPost_sps (r : TillRec) : (tillPost s r).sps = s.sps := rfl
@[simp] theorem tillPost_sfe (r : TillRec) : (tillPost s r).sfe = s.sfe := rfl
@[simp] theorem tillPost_fetches (r : TillRec) : (tillPost s r).fetches = s.fetches := rfl
@[simp] theorem tillPost_drv (r : TillRec) : (tillPost s r).drv = s.drv := rfl
@[simp] theorem tillPost_dbk (r : TillRec) : (tillPost s r).dbk = s.dbk := rfl
@[simp] theorem tillPost_sw (r : TillRec) : (tillPost s r).sw = s.sw := rfl
@[simp] theorem tillPost_feed (r : TillRec) : (tillPost s r).feed = s.feed := rfl
@[simp] theorem tillPost_pps (r : TillRec) : (tillPost s r).pps = s.pps := rfl
@[simp] theorem tillPost_rowEntries (r : TillRec) : (tillPost s r).rowEntries = s.rowEntries := rfl
@[simp] theorem tillPost_xlk (r : TillRec) : (tillPost s r).xlk = s.xlk := rfl
@[simp] theorem tillPost_nav (r : TillRec) : (tillPost s r).nav = s.nav := rfl
@[simp] theorem tillPost_sto (r : TillRec) : (tillPost s r).sto = s.sto := rfl
@[simp] theorem tillPost_fle (r : TillRec) : (tillPost s r).fle = s.fle := rfl
@[simp] theorem tillPost_ksm (r : TillRec) : (tillPost s r).ksm = s.ksm := rfl
@[simp] theorem tillPost_vis (r : TillRec) : (tillPost s r).vis = s.vis := rfl
@[simp] theorem tillPost_can (r : TillRec) : (tillPost s r).can = s.can := rfl
@[simp] theorem tillPost_eth (r : TillRec) : (tillPost s r).eth = s.eth := rfl
@[simp] theorem tillPost_pnl (r : TillRec) : (tillPost s r).pnl = s.pnl := rfl
@[simp] theorem tillPost_upd (r : TillRec) : (tillPost s r).upd = s.upd := rfl
@[simp] theorem tillPost_aoc (r : TillRec) : (tillPost s r).aoc = s.aoc := rfl
@[simp] theorem tillPost_hlm (r : TillRec) : (tillPost s r).hlm = s.hlm := rfl

end Sys2Proof.Machine
end

