-- ==== Sys2Proof/Laws/Tables.lean ====
section
/-! SUPPORT. Sparse tables, register fields and memory: what a read returns after a write, and that every write keeps
the keys rising and the memory in its canonical form. -/

namespace Sys2Proof.Machine

/-! ### Tables -/

theorem tblGet?_set {α : Type} (t : Tbl α) (n m : Nat) (v : α) :
    tblGet? (tblSet t n v) m = if m = n then some v else tblGet? t m := by
  induction t with
  | nil => simp [tblSet, tblGet?]
  | cons p t ih =>
    obtain ⟨k, w⟩ := p
    unfold tblSet
    split
    · simp [tblGet?]
    · split
      · rename_i h
        subst h
        simp only [tblGet?]
        split <;> simp_all
      · simp only [tblGet?, ih]
        split <;> split <;> simp_all

@[simp] theorem tblGet?_set_self {α : Type} (t : Tbl α) (n : Nat) (v : α) : tblGet? (tblSet t n v) n = some v := by
  simp [tblGet?_set]

theorem tblGet?_set_ne {α : Type} (t : Tbl α) {n m : Nat} (v : α) (h : m ≠ n) :
    tblGet? (tblSet t n v) m = tblGet? t m := by
  simp [tblGet?_set, h]

theorem tblGetD_set {α : Type} (t : Tbl α) (n m : Nat) (v d : α) :
    tblGetD (tblSet t n v) m d = if m = n then v else tblGetD t m d := by
  unfold tblGetD
  rw [tblGet?_set]
  split <;> rfl

@[simp] theorem tblGetD_set_self {α : Type} (t : Tbl α) (n : Nat) (v d : α) : tblGetD (tblSet t n v) n d = v := by
  simp [tblGetD_set]

theorem tblAbove_of_le {α : Type} {a b : Nat} (h : a ≤ b) (t : Tbl α) (hb : tblAbove b t = true) :
    tblAbove a t = true := by
  simp only [tblAbove, List.all_eq_true, decide_eq_true_eq] at *
  intro p hp
  exact Nat.lt_of_le_of_lt h (hb p hp)

theorem tblAbove_set {α : Type} {a n : Nat} (t : Tbl α) (v : α) (h : a < n) (ht : tblAbove a t = true) :
    tblAbove a (tblSet t n v) = true := by
  induction t with
  | nil => simpa [tblSet, tblAbove] using h
  | cons p t ih =>
    obtain ⟨k, w⟩ := p
    simp only [tblAbove, List.all_cons, Bool.and_eq_true, decide_eq_true_eq] at ht ih
    unfold tblSet
    split
    · simp [tblAbove, h, ht]
    · split <;> simp [tblAbove, h, ht]
      simpa [tblAbove] using ih ht.2

/-- Setting an entry keeps the keys rising. -/
theorem tblSorted_set {α : Type} (t : Tbl α) (n : Nat) (v : α) (ht : tblSorted t = true) :
    tblSorted (tblSet t n v) = true := by
  induction t with
  | nil => rfl
  | cons p t ih =>
    obtain ⟨k, w⟩ := p
    simp only [tblSorted, Bool.and_eq_true] at ht
    unfold tblSet
    split
    · rename_i h
      have := tblAbove_of_le (Nat.le_of_lt h) t ht.1
      simp only [tblSorted, Bool.and_eq_true]
      exact ⟨by simpa [tblAbove] using ⟨h, by simpa [tblAbove] using this⟩, ht.1, ht.2⟩
    · split
      · simp_all [tblSorted]
      · have h : k < n := by omega
        simp [tblSorted, tblAbove_set t v h ht.1, ih ht.2]

theorem tblAbove_filter {α : Type} (a : Nat) (t : Tbl α) (q : Nat × α → Bool) (h : tblAbove a t = true) :
    tblAbove a (t.filter q) = true := by
  simp only [tblAbove, List.all_eq_true] at *
  intro p hp
  exact h p (List.mem_filter.mp hp).1

/-- Dropping entries keeps the keys rising. -/
theorem tblSorted_filter {α : Type} (t : Tbl α) (q : Nat × α → Bool) (ht : tblSorted t = true) :
    tblSorted (t.filter q) = true := by
  induction t with
  | nil => rfl
  | cons p t ih =>
    simp only [tblSorted, Bool.and_eq_true] at ht
    rw [List.filter_cons]
    split
    · simp [tblSorted, tblAbove_filter _ t q ht.1, ih ht.2]
    · exact ih ht.2

theorem tblAbove_erase {α : Type} (a n : Nat) (t : Tbl α) (h : tblAbove a t = true) :
    tblAbove a (tblErase t n) = true := by
  induction t with
  | nil => rfl
  | cons p t ih =>
    simp only [tblAbove, List.all_cons, Bool.and_eq_true, decide_eq_true_eq] at h ih
    unfold tblErase
    split
    · simpa [tblAbove] using h.2
    · simp [tblAbove, h.1]
      simpa [tblAbove] using ih h.2

theorem tblSorted_erase {α : Type} (t : Tbl α) (n : Nat) (ht : tblSorted t = true) :
    tblSorted (tblErase t n) = true := by
  induction t with
  | nil => rfl
  | cons p t ih =>
    simp only [tblSorted, Bool.and_eq_true] at ht
    unfold tblErase
    split
    · exact ht.2
    · simp [tblSorted, tblAbove_erase _ n t ht.1, ih ht.2]

/-! ### Memory -/

/-- Writing a byte keeps the canonical form. -/
theorem Memory.write_wf (m : Memory) (a : Nat) (b : Byte) (h : Memory.wf m = true) :
    Memory.wf (Memory.write m a b) = true := by
  simp only [Memory.wf, Bool.and_eq_true] at *
  unfold Memory.write
  split
  · refine ⟨tblSorted_erase m a h.1, ?_⟩
    have : ∀ t : Memory, (t.all fun p => p.2 != Memory.unlisted) = true →
        ((tblErase t a).all fun p => p.2 != Memory.unlisted) = true := by
      intro t
      induction t with
      | nil => simp [tblErase]
      | cons p t ih =>
        intro ht
        simp only [List.all_cons, Bool.and_eq_true] at ht
        unfold tblErase
        split
        · exact ht.2
        · simp only [List.all_cons, Bool.and_eq_true]
          exact ⟨ht.1, ih ht.2⟩
    exact this m h.2
  · rename_i hb
    refine ⟨tblSorted_set m a b h.1, ?_⟩
    have : ∀ t : Memory, (t.all fun p => p.2 != Memory.unlisted) = true →
        ((tblSet t a b).all fun p => p.2 != Memory.unlisted) = true := by
      intro t
      induction t with
      | nil => intro _; simpa [tblSet] using hb
      | cons p t ih =>
        intro ht
        simp only [List.all_cons, Bool.and_eq_true] at ht
        unfold tblSet
        split
        · simp only [List.all_cons, Bool.and_eq_true]
          exact ⟨by simpa using hb, ht⟩
        · split
          · simp only [List.all_cons, Bool.and_eq_true]
            exact ⟨by simpa using hb, ht.2⟩
          · simp only [List.all_cons, Bool.and_eq_true]
            exact ⟨ht.1, ih ht.2⟩
    exact this m h.2

theorem Memory.writeList_wf (l : List Byte) (m : Memory) (a : Nat) (h : Memory.wf m = true) :
    Memory.wf (Memory.writeList m a l) = true := by
  induction l generalizing m a with
  | nil => exact h
  | cons b l ih => exact ih _ _ (Memory.write_wf m _ b h)

theorem tblGetD_erase_self {α : Type} (t : Tbl α) (n : Nat) (d : α) (ht : tblSorted t = true) :
    tblGetD (tblErase t n) n d = d := by
  have key : ∀ t : Tbl α, tblAbove n t = true → tblGet? t n = none := by
    intro t
    induction t with
    | nil => intro _; rfl
    | cons p t ih =>
      intro h
      simp only [tblAbove, List.all_cons, Bool.and_eq_true, decide_eq_true_eq] at h
      simp only [tblGet?]
      rw [if_neg (by omega)]
      exact ih (by simpa [tblAbove] using h.2)
  unfold tblGetD
  suffices tblGet? (tblErase t n) n = none by simp [this]
  induction t with
  | nil => rfl
  | cons p t ih =>
    simp only [tblSorted, Bool.and_eq_true] at ht
    unfold tblErase
    split
    · rename_i h
      exact key t (h ▸ ht.1)
    · rename_i h
      simp only [tblGet?, if_neg h]
      exact ih ht.2

theorem tblGetD_erase_ne {α : Type} (t : Tbl α) {n m : Nat} (d : α) (h : m ≠ n) :
    tblGetD (tblErase t n) m d = tblGetD t m d := by
  unfold tblGetD
  suffices tblGet? (tblErase t n) m = tblGet? t m by rw [this]
  induction t with
  | nil => rfl
  | cons p t ih =>
    unfold tblErase
    split
    · rename_i hk
      simp only [tblGet?]
      rw [if_neg (by omega)]
    · simp only [tblGet?, ih]

/-- Reading back a written byte. -/
theorem Memory.read_write_self (m : Memory) (a : Nat) (b : Byte) (h : Memory.wf m = true) :
    Memory.read (Memory.write m a b) a = b := by
  simp only [Memory.wf, Bool.and_eq_true] at h
  unfold Memory.read Memory.write
  split
  · rename_i hb
    rw [tblGetD_erase_self m a _ h.1, hb]
  · simp

/-- A write leaves every other byte alone. -/
theorem Memory.read_write_ne (m : Memory) {a c : Nat} (b : Byte) (h : c ≠ a) :
    Memory.read (Memory.write m a b) c = Memory.read m c := by
  unfold Memory.read Memory.write
  split
  · exact tblGetD_erase_ne m _ h
  · simp [tblGetD_set, h]

/-- A list write leaves the bytes outside its range alone. -/
theorem Memory.read_writeList_of_notMem (l : List Byte) (m : Memory) (a c : Nat)
    (h : ∀ k < l.length, c ≠ (a + k) % 2 ^ 64) : Memory.read (Memory.writeList m a l) c = Memory.read m c := by
  induction l generalizing m a with
  | nil => rfl
  | cons b l ih =>
    unfold Memory.writeList
    rw [ih]
    · exact Memory.read_write_ne m b (h 0 (by simp))
    · intro k hk
      have := h (k + 1) (by simpa using hk)
      rwa [show a + 1 + k = a + (k + 1) by omega]

theorem hostWrite_wf (s : State) (x : Bool) (a : Nat) (l : List Byte)
    (h : Memory.wf s.mem = true ∧ Memory.wf s.extMem = true) :
    Memory.wf (hostWrite s x a l).mem = true ∧ Memory.wf (hostWrite s x a l).extMem = true := by
  cases x
  · exact ⟨Memory.writeList_wf l _ a h.1, h.2⟩
  · exact ⟨h.1, Memory.writeList_wf l _ a h.2⟩

/-! ### Register fields -/

/-- Two fields have one key only if they are one field, instance and index. -/
theorem Fld.key_eq_iff (f g : Fld) (i j k l : Nat) :
    f.key i j = g.key k l ↔ f.id = g.id ∧ i % 64 = k % 64 ∧ j % 4096 = l % 4096 := by
  unfold Fld.key
  omega

/-- A field reads what was written to it, and other fields are as before. -/
@[simp] theorem rget_rset (s : State) (f g : Fld) (v i j k l : Nat) :
    rget (rset s f v i j) g k l =
      if g.id = f.id ∧ k % 64 = i % 64 ∧ l % 4096 = j % 4096 then v % 2 ^ f.width else rget s g k l := by
  simp only [rget, rset_regs, tblGetD_set, Fld.key_eq_iff]

theorem rget_rset_self (s : State) (f : Fld) (v i j : Nat) : rget (rset s f v i j) f i j = v % 2 ^ f.width := by
  simp

theorem rget_rset_ne (s : State) {f g : Fld} (v i j k l : Nat) (h : g.id ≠ f.id) :
    rget (rset s f v i j) g k l = rget s g k l := by
  simp [h]

@[simp] theorem rget_advance (s : State) (t : Fc) (f : Fld) (i j : Nat) : rget (advance s t) f i j = rget s f i j := rfl
@[simp] theorem rget_hostWrite (s : State) (h : Bool) (a : Nat) (b : List Byte) (f : Fld) (i j : Nat) :
    rget (hostWrite s h a b) f i j = rget s f i j := by
  cases h <;> rfl
@[simp] theorem rget_setArb (s : State) (n : Nat) (a : Arb) (f : Fld) (i j : Nat) :
    rget (setArb s n a) f i j = rget s f i j := rfl
@[simp] theorem rget_tillPost (s : State) (r : TillRec) (f : Fld) (i j : Nat) :
    rget (tillPost s r) f i j = rget s f i j := rfl
@[simp] theorem rget_updReq (s : State) (r : Ref) (h : Req → Req) (f : Fld) (i j : Nat) :
    rget (updReq s r h) f i j = rget s f i j := rfl

/-- A read depends on the register table alone. -/
theorem rget_congr {s u : State} (h : u.regs = s.regs) (f : Fld) (i j : Nat) : rget u f i j = rget s f i j := by
  unfold rget
  rw [h]

theorem rbit_iff (s : State) (f : Fld) (i j : Nat) : rbit s f i j = true ↔ rget s f i j = 1 := by
  simp [rbit]

@[simp] theorem getArb_setArb (s : State) (n m : Nat) (a : Arb) :
    getArb (setArb s n a) m = if m = n then a else getArb s m := by
  simp [getArb, tblGetD_set]

end Sys2Proof.Machine
end

