-- ==== Sys2Proof/Laws/Commands.lean ====
section
/-! SUPPORT. The frames in which the meanings run: what a command does where the fabric is up and where it is held in
reset, at a supervisor with and without power, with and without the descriptor it names, and before a tick edge of its
own fc. A proof about a command opens its frame with one of these and goes on with the operation inside. -/

namespace Sys2Proof.Machine

variable (s : State) (t : Fc)

theorem atFabric_up (f : State → State) (h : s.fabric = true) : atFabric t f s = .next (f (advance s t)) := by
  simp [atFabric, h]

theorem atFabric_down (f : State → State) (h : s.fabric = false) : atFabric t f s = .next (advance s t) := by
  simp [atFabric, h]

theorem atPlane_powered (p : Nat) (f : State → State) (h : (getPps s p).powered = true) :
    atPlane t p f s = .next (f (advance s t)) := by
  simp [atPlane, h]

theorem atPlane_unpowered (p : Nat) (f : State → State) (h : (getPps s p).powered = false) :
    atPlane t p f s = .next (advance s t) := by
  simp [atPlane, h]

theorem withDesc_due {r : Ref} {cls op : Nat} {d : Desc} (f : Desc → State → State) (h : heldDesc s r cls op = some d)
    (hd : due s d = true) : withDesc r cls op f s = f d (takeReq s r) := by
  simp [withDesc, h, hd]

theorem withDesc_early {r : Ref} {cls op : Nat} {d : Desc} (f : Desc → State → State) (h : heldDesc s r cls op = some d)
    (hd : due s d = false) : withDesc r cls op f s = s := by
  simp [withDesc, h, hd]

theorem withDesc_absent {r : Ref} {cls op : Nat} (f : Desc → State → State) (h : heldDesc s r cls op = none) :
    withDesc r cls op f s = s := by
  simp [withDesc, h]

theorem afterEdge_now (c : Instr) (f : State → State) (h : edgeDue s = false) : afterEdge c f s = f s := by
  simp [afterEdge, h]

theorem afterEdge_held (c : Instr) (f : State → State) (h : edgeDue s = true) :
    afterEdge c f s = { s with tke := { s.tke with held := s.tke.held ++ [c] } } := by
  simp [afterEdge, h]

theorem ifCommanding_yes (r : Ref) (row : Option Nat) (f : State → State) (h : commanding s = true) :
    ifCommanding r row f s = f s := by
  simp [ifCommanding, h]

theorem ifCommanding_no (r : Ref) (row : Option Nat) (f : State → State) (h : commanding s = false) :
    ifCommanding r row f s = complete s r stRejectState 0x0283 row := by
  simp [ifCommanding, h]

end Sys2Proof.Machine
end

