-- ==== Sys2Proof/Laws/Ops.lean ====
section
/-! SUPPORT. What each shared operation leaves alone: completing a descriptor, setting a status bit, writing a queue
entry, and raising an event, which touches the event log, two blocks' registers and the hosts' memories; and that each
of them keeps the state's canonical form. -/

namespace Sys2Proof.Machine

variable (s : State)

/-! ### Raising an event -/

/-- From `s` to `u`, only what raising an event may touch has changed. -/
def EventFrame (s u : State) : Prop :=
  u = { s with regs := u.regs, mem := u.mem, extMem := u.extMem, log := u.log }

theorem EventFrame.trans {s u v : State} (h : EventFrame s u) (k : EventFrame u v) : EventFrame s v := by
  unfold EventFrame at *
  generalize u.regs = a at h
  generalize u.mem = b at h
  generalize u.extMem = c at h
  generalize u.log = d at h
  subst h
  exact k

theorem RegsOnly.trans {s u v : State} {l : List Nat} (h : RegsOnly s u l) (k : RegsOnly u v l) : RegsOnly s v l :=
  fun n hn => (k n hn).trans (h n hn)

theorem RegsOnly.of_eq {s u : State} (l : List Nat) (h : u.regs = s.regs) : RegsOnly s u l := fun _ _ => by rw [h]

theorem RegsOnly.mono {s u : State} {l m : List Nat} (h : RegsOnly s u l) (k : ∀ n ∈ l, n ∈ m) : RegsOnly s u m :=
  fun n hn => h n fun e => hn (k n e)

theorem rset_regsOnly (f : Fld) (v i j : Nat) {l : List Nat} (h : f.key i j ∈ l) : RegsOnly s (rset s f v i j) l :=
  fun n hn => tblGet?_set_ne s.regs _ fun e => hn (e ▸ h)

/-- A field whose key is not listed reads as before. -/
theorem RegsOnly.rget {s u : State} {l : List Nat} (h : RegsOnly s u l) (f : Fld) (i j : Nat) (k : f.key i j ∉ l) :
    rget u f i j = rget s f i j := by
  simp only [Machine.rget, tblGetD, h _ k]

theorem rset_canonical (f : Fld) (v i j : Nat) (h : s.Canonical) : (rset s f v i j).Canonical :=
  ⟨h.1, h.2.1, tblSorted_set _ _ _ h.2.2⟩

theorem hostWrite_canonical (x : Bool) (a : Nat) (l : List Byte) (h : s.Canonical) : (hostWrite s x a l).Canonical := by
  cases x
  · exact ⟨Memory.writeList_wf l _ a h.1, h.2.1, h.2.2⟩
  · exact ⟨h.1, Memory.writeList_wf l _ a h.2.1, h.2.2⟩

theorem setOnes_canonical (f : Fld) (n i j : Nat) (h : s.Canonical) : (setOnes s f n i j).Canonical :=
  rset_canonical s f _ i j h

theorem dropKeys_canonical (p : Nat → Bool) (h : s.Canonical) : (dropKeys s p).Canonical :=
  ⟨h.1, h.2.1, tblSorted_filter _ _ h.2.2⟩

theorem queuePut_canonical (q : QueueRegs) (i j n : Nat) (mk : Nat → List Byte) (h : s.Canonical) :
    (queuePut s q i j n mk).Canonical :=
  rset_canonical _ _ _ _ _ (rset_canonical _ _ _ _ _ (hostWrite_canonical s _ _ _ h))

theorem complete_canonical (r : Ref) (c d : Nat) (w : Option Nat) (h : s.Canonical) : (complete s r c d w).Canonical := by
  unfold complete
  split
  · exact h
  · exact h

/-- Everything that raising an event can do: it writes the event log, the listed register fields and the hosts'
memories, and keeps the canonical form. -/
def EventStep (s u : State) : Prop := EventFrame s u ∧ RegsOnly s u eventKeys ∧ (s.Canonical → u.Canonical)

theorem EventStep.trans {s u v : State} (h : EventStep s u) (k : EventStep u v) : EventStep s v :=
  ⟨h.1.trans k.1, h.2.1.trans k.2.1, fun c => k.2.2 (h.2.2 c)⟩

theorem log_eventStep (l : EventLog) : EventStep s { s with log := l } := ⟨rfl, RegsOnly.of_eq _ rfl, fun c => c⟩

theorem rset_eventStep (f : Fld) (v i j : Nat) (h : f.key i j ∈ eventKeys) : EventStep s (rset s f v i j) :=
  ⟨rfl, rset_regsOnly s f v i j h, rset_canonical s f v i j⟩

theorem hostWrite_eventStep (h : Bool) (a : Nat) (l : List Byte) : EventStep s (hostWrite s h a l) := by
  refine ⟨?_, RegsOnly.of_eq _ ?_, hostWrite_canonical s h a l⟩ <;> cases h <;> rfl

theorem queuePut_eventStep (n : Nat) (mk : Nat → List Byte) : EventStep s (queuePut s queueTlm 0 0 n mk) :=
  ((hostWrite_eventStep s _ _ _).trans (rset_eventStep _ _ _ _ _ (by decide))).trans
    (rset_eventStep _ _ _ _ _ (by decide))

theorem telemetryPut_eventStep (k : Nat) (l : List Byte) : EventStep s (telemetryPut s k l) := by
  unfold telemetryPut
  split
  · split
    · exact queuePut_eventStep s _ _
    · exact rset_eventStep s _ _ _ _ (by decide)
  · exact log_eventStep s s.log

theorem journalPut_eventStep (e : Ev) : EventStep s (journalPut s e) := by
  unfold journalPut
  dsimp only
  split
  · exact ((log_eventStep s _).trans (rset_eventStep _ _ _ _ _ (by decide))).trans
      (rset_eventStep _ _ _ _ _ (by decide))
  · exact (log_eventStep s _).trans (rset_eventStep _ _ _ _ _ (by decide))

theorem writeEvent_eventStep (c i d : Nat) (k : Bool) : EventStep s (writeEvent s c i d k) := by
  unfold writeEvent
  exact (EventStep.trans (log_eventStep s _) (telemetryPut_eventStep (nextSeq s) _ _)).trans
    (journalPut_eventStep _ _)

theorem raiseEv_eventStep (c i d : Nat) : EventStep s (raiseEv s c i d) := by
  unfold raiseEv
  extract_lets tick l told recent s0 beyond _ s1
  have told_step (u : State) : EventStep u (told u) := by
    simp only [told]
    split
    · exact writeEvent_eventStep _ _ _ _ _
    · exact log_eventStep u u.log
  have beyond_step (u : State) : EventStep u (beyond u) := by
    simp only [beyond]
    refine EventStep.trans ?_ (log_eventStep _ _)
    refine EventStep.trans ?_ (rset_eventStep _ _ _ _ _ (by decide))
    exact (log_eventStep u _).trans (telemetryPut_eventStep (nextSeq u) _ _)
  have s0_step : EventStep s s0 := log_eventStep s _
  have s1_step : EventStep s s1 := (s0_step.trans (log_eventStep s0 _)).trans (writeEvent_eventStep _ _ _ _ _)
  split
  · exact s0_step.trans (beyond_step _)
  · split
    · split
      · exact (s1_step.trans (writeEvent_eventStep _ _ _ _ _)).trans (told_step _)
      · exact (s1_step.trans (beyond_step _)).trans (told_step _)
    · exact (s0_step.trans (writeEvent_eventStep s0 _ _ _ _)).trans (told_step _)

theorem raiseEv_canonical (c i d : Nat) (h : s.Canonical) : (raiseEv s c i d).Canonical :=
  (raiseEv_eventStep s c i d).2.2 h

/-- A field that is none of those an event writes reads as before it. -/
theorem rget_raiseEv (c i d : Nat) (f : Fld) (a b : Nat) (h : f.key a b ∉ eventKeys) :
    rget (raiseEv s c i d) f a b = rget s f a b := (raiseEv_eventStep s c i d).2.1.rget f a b h

theorem rget_telemetryPut (n : Nat) (l : List Byte) (f : Fld) (a b : Nat) (h : f.key a b ∉ eventKeys) :
    rget (telemetryPut s n l) f a b = rget s f a b := (telemetryPut_eventStep s n l).2.1.rget f a b h

@[simp] theorem rget_complete (r : Ref) (c d : Nat) (w : Option Nat) (f : Fld) (a b : Nat) :
    rget (complete s r c d w) f a b = rget s f a b := by
  unfold complete
  split <;> rfl

theorem BlocksOnly.trans {s u v : State} {l : List Blk} (h : BlocksOnly s u l) (k : BlocksOnly u v l) :
    BlocksOnly s v l :=
  fun n hn => (k n hn).trans (h n hn)

theorem BlocksOnly.mono {s u : State} {l m : List Blk} (h : BlocksOnly s u l) (k : ∀ b ∈ l, b ∈ m) :
    BlocksOnly s u m :=
  fun n hn => h n fun e => hn (List.map_subset blkCode k e)

theorem BlocksOnly.of_eq {s u : State} (l : List Blk) (h : u.regs = s.regs) : BlocksOnly s u l := fun _ _ => by rw [h]

theorem rset_blocksOnly (f : Fld) (v i j : Nat) {l : List Blk} (h : keyBlk (f.key i j) ∈ l.map blkCode) :
    BlocksOnly s (rset s f v i j) l :=
  fun n hn => tblGet?_set_ne s.regs _ fun e => hn (e ▸ h)

/-- The number of a field's block, whatever its instance and index. -/
theorem keyBlk_key (f : Fld) (i j : Nat) : keyBlk (f.key i j) = f.id / 128 := by
  unfold keyBlk Fld.key
  congr 1
  omega

theorem raiseEv_blocksOnly (c i d : Nat) {l : List Blk} (h : .hlm ∈ l) (g : .jrn ∈ l) :
    BlocksOnly s (raiseEv s c i d) l := by
  refine BlocksOnly.mono (l := [.hlm, .jrn]) ?_ (by simp [h, g])
  intro n hn
  apply (raiseEv_eventStep s c i d).2.1 n
  intro e
  have all : ∀ m ∈ eventKeys, keyBlk m ∈ [Blk.hlm, Blk.jrn].map blkCode := by decide
  exact hn (all n e)

/-! ### Fields that an operation leaves -/

@[simp] theorem setOnes_now (f : Fld) (n i j : Nat) : (setOnes s f n i j).now = s.now := rfl
@[simp] theorem setOnes_before (f : Fld) (n i j : Nat) : (setOnes s f n i j).before = s.before := rfl
@[simp] theorem setOnes_pending (f : Fld) (n i j : Nat) : (setOnes s f n i j).pending = s.pending := rfl
@[simp] theorem setOnes_hiLatch (f : Fld) (n i j : Nat) : (setOnes s f n i j).hiLatch = s.hiLatch := rfl
@[simp] theorem setOnes_rolLatch (f : Fld) (n i j : Nat) : (setOnes s f n i j).rolLatch = s.rolLatch := rfl
@[simp] theorem setOnes_readData (f : Fld) (n i j : Nat) : (setOnes s f n i j).readData = s.readData := rfl
@[simp] theorem setOnes_freeCount (f : Fld) (n i j : Nat) : (setOnes s f n i j).freeCount = s.freeCount := rfl
@[simp] theorem setOnes_fabric (f : Fld) (n i j : Nat) : (setOnes s f n i j).fabric = s.fabric := rfl
@[simp] theorem setOnes_timeOff (f : Fld) (n i j : Nat) : (setOnes s f n i j).timeOff = s.timeOff := rfl
@[simp] theorem setOnes_rtcOff (f : Fld) (n i j : Nat) : (setOnes s f n i j).rtcOff = s.rtcOff := rfl
@[simp] theorem setOnes_mem (f : Fld) (n i j : Nat) : (setOnes s f n i j).mem = s.mem := rfl
@[simp] theorem setOnes_extMem (f : Fld) (n i j : Nat) : (setOnes s f n i j).extMem = s.extMem := rfl
@[simp] theorem setOnes_log (f : Fld) (n i j : Nat) : (setOnes s f n i j).log = s.log := rfl
@[simp] theorem setOnes_arbs (f : Fld) (n i j : Nat) : (setOnes s f n i j).arbs = s.arbs := rfl
@[simp] theorem setOnes_reqs (f : Fld) (n i j : Nat) : (setOnes s f n i j).reqs = s.reqs := rfl
@[simp] theorem setOnes_till (f : Fld) (n i j : Nat) : (setOnes s f n i j).till = s.till := rfl
@[simp] theorem setOnes_cqIrq (f : Fld) (n i j : Nat) : (setOnes s f n i j).cqIrq = s.cqIrq := rfl
@[simp] theorem setOnes_irqs (f : Fld) (n i j : Nat) : (setOnes s f n i j).irqs = s.irqs := rfl
@[simp] theorem setOnes_tke (f : Fld) (n i j : Nat) : (setOnes s f n i j).tke = s.tke := rfl
@[simp] theorem setOnes_sps (f : Fld) (n i j : Nat) : (setOnes s f n i j).sps = s.sps := rfl
@[simp] theorem setOnes_sfe (f : Fld) (n i j : Nat) : (setOnes s f n i j).sfe = s.sfe := rfl
@[simp] theorem setOnes_fetches (f : Fld) (n i j : Nat) : (setOnes s f n i j).fetches = s.fetches := rfl
@[simp] theorem setOnes_drv (f : Fld) (n i j : Nat) : (setOnes s f n i j).drv = s.drv := rfl
@[simp] theorem setOnes_dbk (f : Fld) (n i j : Nat) : (setOnes s f n i j).dbk = s.dbk := rfl
@[simp] theorem setOnes_sw (f : Fld) (n i j : Nat) : (setOnes s f n i j).sw = s.sw := rfl
@[simp] theorem setOnes_feed (f : Fld) (n i j : Nat) : (setOnes s f n i j).feed = s.feed := rfl
@[simp] theorem setOnes_pps (f : Fld) (n i j : Nat) : (setOnes s f n i j).pps = s.pps := rfl
@[simp] theorem setOnes_rowEntries (f : Fld) (n i j : Nat) : (setOnes s f n i j).rowEntries = s.rowEntries := rfl
@[simp] theorem setOnes_xlk (f : Fld) (n i j : Nat) : (setOnes s f n i j).xlk = s.xlk := rfl
@[simp] theorem setOnes_nav (f : Fld) (n i j : Nat) : (setOnes s f n i j).nav = s.nav := rfl
@[simp] theorem setOnes_sto (f : Fld) (n i j : Nat) : (setOnes s f n i j).sto = s.sto := rfl
@[simp] theorem setOnes_fle (f : Fld) (n i j : Nat) : (setOnes s f n i j).fle = s.fle := rfl
@[simp] theorem setOnes_ksm (f : Fld) (n i j : Nat) : (setOnes s f n i j).ksm = s.ksm := rfl
@[simp] theorem setOnes_vis (f : Fld) (n i j : Nat) : (setOnes s f n i j).vis = s.vis := rfl
@[simp] theorem setOnes_can (f : Fld) (n i j : Nat) : (setOnes s f n i j).can = s.can := rfl
@[simp] theorem setOnes_eth (f : Fld) (n i j : Nat) : (setOnes s f n i j).eth = s.eth := rfl
@[simp] theorem setOnes_pnl (f : Fld) (n i j : Nat) : (setOnes s f n i j).pnl = s.pnl := rfl
@[simp] theorem setOnes_upd (f : Fld) (n i j : Nat) : (setOnes s f n i j).upd = s.upd := rfl
@[simp] theorem setOnes_aoc (f : Fld) (n i j : Nat) : (setOnes s f n i j).aoc = s.aoc := rfl
@[simp] theorem setOnes_hlm (f : Fld) (n i j : Nat) : (setOnes s f n i j).hlm = s.hlm := rfl

@[simp] theorem updReq_now (r : Ref) (f : Req → Req) : (updReq s r f).now = s.now := rfl
@[simp] theorem updReq_before (r : Ref) (f : Req → Req) : (updReq s r f).before = s.before := rfl
@[simp] theorem updReq_pending (r : Ref) (f : Req → Req) : (updReq s r f).pending = s.pending := rfl
@[simp] theorem updReq_regs (r : Ref) (f : Req → Req) : (updReq s r f).regs = s.regs := rfl
@[simp] theorem updReq_hiLatch (r : Ref) (f : Req → Req) : (updReq s r f).hiLatch = s.hiLatch := rfl
@[simp] theorem updReq_rolLatch (r : Ref) (f : Req → Req) : (updReq s r f).rolLatch = s.rolLatch := rfl
@[simp] theorem updReq_onesAt (r : Ref) (f : Req → Req) : (updReq s r f).onesAt = s.onesAt := rfl
@[simp] theorem updReq_readData (r : Ref) (f : Req → Req) : (updReq s r f).readData = s.readData := rfl
@[simp] theorem updReq_freeCount (r : Ref) (f : Req → Req) : (updReq s r f).freeCount = s.freeCount := rfl
@[simp] theorem updReq_fabric (r : Ref) (f : Req → Req) : (updReq s r f).fabric = s.fabric := rfl
@[simp] theorem updReq_timeOff (r : Ref) (f : Req → Req) : (updReq s r f).timeOff = s.timeOff := rfl
@[simp] theorem updReq_rtcOff (r : Ref) (f : Req → Req) : (updReq s r f).rtcOff = s.rtcOff := rfl
@[simp] theorem updReq_mem (r : Ref) (f : Req → Req) : (updReq s r f).mem = s.mem := rfl
@[simp] theorem updReq_extMem (r : Ref) (f : Req → Req) : (updReq s r f).extMem = s.extMem := rfl
@[simp] theorem updReq_log (r : Ref) (f : Req → Req) : (updReq s r f).log = s.log := rfl
@[simp] theorem updReq_arbs (r : Ref) (f : Req → Req) : (updReq s r f).arbs = s.arbs := rfl
@[simp] theorem updReq_till (r : Ref) (f : Req → Req) : (updReq s r f).till = s.till := rfl
@[simp] theorem updReq_cqIrq (r : Ref) (f : Req → Req) : (updReq s r f).cqIrq = s.cqIrq := rfl
@[simp] theorem updReq_irqs (r : Ref) (f : Req → Req) : (updReq s r f).irqs = s.irqs := rfl
@[simp] theorem updReq_tke (r : Ref) (f : Req → Req) : (updReq s r f).tke = s.tke := rfl
@[simp] theorem updReq_sps (r : Ref) (f : Req → Req) : (updReq s r f).sps = s.sps := rfl
@[simp] theorem updReq_sfe (r : Ref) (f : Req → Req) : (updReq s r f).sfe = s.sfe := rfl
@[simp] theorem updReq_fetches (r : Ref) (f : Req → Req) : (updReq s r f).fetches = s.fetches := rfl
@[simp] theorem updReq_drv (r : Ref) (f : Req → Req) : (updReq s r f).drv = s.drv := rfl
@[simp] theorem updReq_dbk (r : Ref) (f : Req → Req) : (updReq s r f).dbk = s.dbk := rfl
@[simp] theorem updReq_sw (r : Ref) (f : Req → Req) : (updReq s r f).sw = s.sw := rfl
@[simp] theorem updReq_feed (r : Ref) (f : Req → Req) : (updReq s r f).feed = s.feed := rfl
@[simp] theorem updReq_pps (r : Ref) (f : Req → Req) : (updReq s r f).pps = s.pps := rfl
@[simp] theorem updReq_rowEntries (r : Ref) (f : Req → Req) : (updReq s r f).rowEntries = s.rowEntries := rfl
@[simp] theorem updReq_xlk (r : Ref) (f : Req → Req) : (updReq s r f).xlk = s.xlk := rfl
@[simp] theorem updReq_nav (r : Ref) (f : Req → Req) : (updReq s r f).nav = s.nav := rfl
@[simp] theorem updReq_sto (r : Ref) (f : Req → Req) : (updReq s r f).sto = s.sto := rfl
@[simp] theorem updReq_fle (r : Ref) (f : Req → Req) : (updReq s r f).fle = s.fle := rfl
@[simp] theorem updReq_ksm (r : Ref) (f : Req → Req) : (updReq s r f).ksm = s.ksm := rfl
@[simp] theorem updReq_vis (r : Ref) (f : Req → Req) : (updReq s r f).vis = s.vis := rfl
@[simp] theorem updReq_can (r : Ref) (f : Req → Req) : (updReq s r f).can = s.can := rfl
@[simp] theorem updReq_eth (r : Ref) (f : Req → Req) : (updReq s r f).eth = s.eth := rfl
@[simp] theorem updReq_pnl (r : Ref) (f : Req → Req) : (updReq s r f).pnl = s.pnl := rfl
@[simp] theorem updReq_upd (r : Ref) (f : Req → Req) : (updReq s r f).upd = s.upd := rfl
@[simp] theorem updReq_aoc (r : Ref) (f : Req → Req) : (updReq s r f).aoc = s.aoc := rfl
@[simp] theorem updReq_hlm (r : Ref) (f : Req → Req) : (updReq s r f).hlm = s.hlm := rfl

@[simp] theorem complete_now (r : Ref) (c d : Nat) (w : Option Nat) : (complete s r c d w).now = s.now := by
  unfold complete; split <;> rfl
@[simp] theorem complete_before (r : Ref) (c d : Nat) (w : Option Nat) : (complete s r c d w).before = s.before := by
  unfold complete; split <;> rfl
@[simp] theorem complete_pending (r : Ref) (c d : Nat) (w : Option Nat) : (complete s r c d w).pending = s.pending := by
  unfold complete; split <;> rfl
@[simp] theorem complete_regs (r : Ref) (c d : Nat) (w : Option Nat) : (complete s r c d w).regs = s.regs := by
  unfold complete; split <;> rfl
@[simp] theorem complete_hiLatch (r : Ref) (c d : Nat) (w : Option Nat) : (complete s r c d w).hiLatch = s.hiLatch := by
  unfold complete; split <;> rfl
@[simp] theorem complete_rolLatch (r : Ref) (c d : Nat) (w : Option Nat) : (complete s r c d w).rolLatch = s.rolLatch := by
  unfold complete; split <;> rfl
@[simp] theorem complete_onesAt (r : Ref) (c d : Nat) (w : Option Nat) : (complete s r c d w).onesAt = s.onesAt := by
  unfold complete; split <;> rfl
@[simp] theorem complete_readData (r : Ref) (c d : Nat) (w : Option Nat) : (complete s r c d w).readData = s.readData := by
  unfold complete; split <;> rfl
@[simp] theorem complete_freeCount (r : Ref) (c d : Nat) (w : Option Nat) : (complete s r c d w).freeCount = s.freeCount := by
  unfold complete; split <;> rfl
@[simp] theorem complete_fabric (r : Ref) (c d : Nat) (w : Option Nat) : (complete s r c d w).fabric = s.fabric := by
  unfold complete; split <;> rfl
@[simp] theorem complete_timeOff (r : Ref) (c d : Nat) (w : Option Nat) : (complete s r c d w).timeOff = s.timeOff := by
  unfold complete; split <;> rfl
@[simp] theorem complete_rtcOff (r : Ref) (c d : Nat) (w : Option Nat) : (complete s r c d w).rtcOff = s.rtcOff := by
  unfold complete; split <;> rfl
@[simp] theorem complete_mem (r : Ref) (c d : Nat) (w : Option Nat) : (complete s r c d w).mem = s.mem := by
  unfold complete; split <;> rfl
@[simp] theorem complete_extMem (r : Ref) (c d : Nat) (w : Option Nat) : (complete s r c d w).extMem = s.extMem := by
  unfold complete; split <;> rfl
@[simp] theorem complete_log (r : Ref) (c d : Nat) (w : Option Nat) : (complete s r c d w).log = s.log := by
  unfold complete; split <;> rfl
@[simp] theorem complete_arbs (r : Ref) (c d : Nat) (w : Option Nat) : (complete s r c d w).arbs = s.arbs := by
  unfold complete; split <;> rfl
@[simp] theorem complete_cqIrq (r : Ref) (c d : Nat) (w : Option Nat) : (complete s r c d w).cqIrq = s.cqIrq := by
  unfold complete; split <;> rfl
@[simp] theorem complete_irqs (r : Ref) (c d : Nat) (w : Option Nat) : (complete s r c d w).irqs = s.irqs := by
  unfold complete; split <;> rfl
@[simp] theorem complete_tke (r : Ref) (c d : Nat) (w : Option Nat) : (complete s r c d w).tke = s.tke := by
  unfold complete; split <;> rfl
@[simp] theorem complete_sps (r : Ref) (c d : Nat) (w : Option Nat) : (complete s r c d w).sps = s.sps := by
  unfold complete; split <;> rfl
@[simp] theorem complete_sfe (r : Ref) (c d : Nat) (w : Option Nat) : (complete s r c d w).sfe = s.sfe := by
  unfold complete; split <;> rfl
@[simp] theorem complete_fetches (r : Ref) (c d : Nat) (w : Option Nat) : (complete s r c d w).fetches = s.fetches := by
  unfold complete; split <;> rfl
@[simp] theorem complete_drv (r : Ref) (c d : Nat) (w : Option Nat) : (complete s r c d w).drv = s.drv := by
  unfold complete; split <;> rfl
@[simp] theorem complete_dbk (r : Ref) (c d : Nat) (w : Option Nat) : (complete s r c d w).dbk = s.dbk := by
  unfold complete; split <;> rfl
@[simp] theorem complete_sw (r : Ref) (c d : Nat) (w : Option Nat) : (complete s r c d w).sw = s.sw := by
  unfold complete; split <;> rfl
@[simp] theorem complete_feed (r : Ref) (c d : Nat) (w : Option Nat) : (complete s r c d w).feed = s.feed := by
  unfold complete; split <;> rfl
@[simp] theorem complete_pps (r : Ref) (c d : Nat) (w : Option Nat) : (complete s r c d w).pps = s.pps := by
  unfold complete; split <;> rfl
@[simp] theorem complete_rowEntries (r : Ref) (c d : Nat) (w : Option Nat) : (complete s r c d w).rowEntries = s.rowEntries := by
  unfold complete; split <;> rfl
@[simp] theorem complete_xlk (r : Ref) (c d : Nat) (w : Option Nat) : (complete s r c d w).xlk = s.xlk := by
  unfold complete; split <;> rfl
@[simp] theorem complete_nav (r : Ref) (c d : Nat) (w : Option Nat) : (complete s r c d w).nav = s.nav := by
  unfold complete; split <;> rfl
@[simp] theorem complete_sto (r : Ref) (c d : Nat) (w : Option Nat) : (complete s r c d w).sto = s.sto := by
  unfold complete; split <;> rfl
@[simp] theorem complete_fle (r : Ref) (c d : Nat) (w : Option Nat) : (complete s r c d w).fle = s.fle := by
  unfold complete; split <;> rfl
@[simp] theorem complete_ksm (r : Ref) (c d : Nat) (w : Option Nat) : (complete s r c d w).ksm = s.ksm := by
  unfold complete; split <;> rfl
@[simp] theorem complete_vis (r : Ref) (c d : Nat) (w : Option Nat) : (complete s r c d w).vis = s.vis := by
  unfold complete; split <;> rfl
@[simp] theorem complete_can (r : Ref) (c d : Nat) (w : Option Nat) : (complete s r c d w).can = s.can := by
  unfold complete; split <;> rfl
@[simp] theorem complete_eth (r : Ref) (c d : Nat) (w : Option Nat) : (complete s r c d w).eth = s.eth := by
  unfold complete; split <;> rfl
@[simp] theorem complete_pnl (r : Ref) (c d : Nat) (w : Option Nat) : (complete s r c d w).pnl = s.pnl := by
  unfold complete; split <;> rfl
@[simp] theorem complete_upd (r : Ref) (c d : Nat) (w : Option Nat) : (complete s r c d w).upd = s.upd := by
  unfold complete; split <;> rfl
@[simp] theorem complete_aoc (r : Ref) (c d : Nat) (w : Option Nat) : (complete s r c d w).aoc = s.aoc := by
  unfold complete; split <;> rfl
@[simp] theorem complete_hlm (r : Ref) (c d : Nat) (w : Option Nat) : (complete s r c d w).hlm = s.hlm := by
  unfold complete; split <;> rfl

theorem EventFrame.now {s u : State} (h : EventFrame s u) : u.now = s.now := by
  rw [EventFrame] at h; rw [h]
theorem EventFrame.before {s u : State} (h : EventFrame s u) : u.before = s.before := by
  rw [EventFrame] at h; rw [h]
theorem EventFrame.pending {s u : State} (h : EventFrame s u) : u.pending = s.pending := by
  rw [EventFrame] at h; rw [h]
theorem EventFrame.hiLatch {s u : State} (h : EventFrame s u) : u.hiLatch = s.hiLatch := by
  rw [EventFrame] at h; rw [h]
theorem EventFrame.rolLatch {s u : State} (h : EventFrame s u) : u.rolLatch = s.rolLatch := by
  rw [EventFrame] at h; rw [h]
theorem EventFrame.onesAt {s u : State} (h : EventFrame s u) : u.onesAt = s.onesAt := by
  rw [EventFrame] at h; rw [h]
theorem EventFrame.readData {s u : State} (h : EventFrame s u) : u.readData = s.readData := by
  rw [EventFrame] at h; rw [h]
theorem EventFrame.freeCount {s u : State} (h : EventFrame s u) : u.freeCount = s.freeCount := by
  rw [EventFrame] at h; rw [h]
theorem EventFrame.fabric {s u : State} (h : EventFrame s u) : u.fabric = s.fabric := by
  rw [EventFrame] at h; rw [h]
theorem EventFrame.timeOff {s u : State} (h : EventFrame s u) : u.timeOff = s.timeOff := by
  rw [EventFrame] at h; rw [h]
theorem EventFrame.rtcOff {s u : State} (h : EventFrame s u) : u.rtcOff = s.rtcOff := by
  rw [EventFrame] at h; rw [h]
theorem EventFrame.arbs {s u : State} (h : EventFrame s u) : u.arbs = s.arbs := by
  rw [EventFrame] at h; rw [h]
theorem EventFrame.reqs {s u : State} (h : EventFrame s u) : u.reqs = s.reqs := by
  rw [EventFrame] at h; rw [h]
theorem EventFrame.till {s u : State} (h : EventFrame s u) : u.till = s.till := by
  rw [EventFrame] at h; rw [h]
theorem EventFrame.cqIrq {s u : State} (h : EventFrame s u) : u.cqIrq = s.cqIrq := by
  rw [EventFrame] at h; rw [h]
theorem EventFrame.irqs {s u : State} (h : EventFrame s u) : u.irqs = s.irqs := by
  rw [EventFrame] at h; rw [h]
theorem EventFrame.tke {s u : State} (h : EventFrame s u) : u.tke = s.tke := by
  rw [EventFrame] at h; rw [h]
theorem EventFrame.sps {s u : State} (h : EventFrame s u) : u.sps = s.sps := by
  rw [EventFrame] at h; rw [h]
theorem EventFrame.sfe {s u : State} (h : EventFrame s u) : u.sfe = s.sfe := by
  rw [EventFrame] at h; rw [h]
theorem EventFrame.fetches {s u : State} (h : EventFrame s u) : u.fetches = s.fetches := by
  rw [EventFrame] at h; rw [h]
theorem EventFrame.drv {s u : State} (h : EventFrame s u) : u.drv = s.drv := by
  rw [EventFrame] at h; rw [h]
theorem EventFrame.dbk {s u : State} (h : EventFrame s u) : u.dbk = s.dbk := by
  rw [EventFrame] at h; rw [h]
theorem EventFrame.sw {s u : State} (h : EventFrame s u) : u.sw = s.sw := by
  rw [EventFrame] at h; rw [h]
theorem EventFrame.feed {s u : State} (h : EventFrame s u) : u.feed = s.feed := by
  rw [EventFrame] at h; rw [h]
theorem EventFrame.pps {s u : State} (h : EventFrame s u) : u.pps = s.pps := by
  rw [EventFrame] at h; rw [h]
theorem EventFrame.rowEntries {s u : State} (h : EventFrame s u) : u.rowEntries = s.rowEntries := by
  rw [EventFrame] at h; rw [h]
theorem EventFrame.xlk {s u : State} (h : EventFrame s u) : u.xlk = s.xlk := by
  rw [EventFrame] at h; rw [h]
theorem EventFrame.nav {s u : State} (h : EventFrame s u) : u.nav = s.nav := by
  rw [EventFrame] at h; rw [h]
theorem EventFrame.sto {s u : State} (h : EventFrame s u) : u.sto = s.sto := by
  rw [EventFrame] at h; rw [h]
theorem EventFrame.fle {s u : State} (h : EventFrame s u) : u.fle = s.fle := by
  rw [EventFrame] at h; rw [h]
theorem EventFrame.ksm {s u : State} (h : EventFrame s u) : u.ksm = s.ksm := by
  rw [EventFrame] at h; rw [h]
theorem EventFrame.vis {s u : State} (h : EventFrame s u) : u.vis = s.vis := by
  rw [EventFrame] at h; rw [h]
theorem EventFrame.can {s u : State} (h : EventFrame s u) : u.can = s.can := by
  rw [EventFrame] at h; rw [h]
theorem EventFrame.eth {s u : State} (h : EventFrame s u) : u.eth = s.eth := by
  rw [EventFrame] at h; rw [h]
theorem EventFrame.pnl {s u : State} (h : EventFrame s u) : u.pnl = s.pnl := by
  rw [EventFrame] at h; rw [h]
theorem EventFrame.upd {s u : State} (h : EventFrame s u) : u.upd = s.upd := by
  rw [EventFrame] at h; rw [h]
theorem EventFrame.aoc {s u : State} (h : EventFrame s u) : u.aoc = s.aoc := by
  rw [EventFrame] at h; rw [h]
theorem EventFrame.hlm {s u : State} (h : EventFrame s u) : u.hlm = s.hlm := by
  rw [EventFrame] at h; rw [h]

@[simp] theorem telemetryPut_now (k : Nat) (l : List Byte) : (telemetryPut s k l).now = s.now := 
  (telemetryPut_eventStep s k l).1.now
@[simp] theorem telemetryPut_before (k : Nat) (l : List Byte) : (telemetryPut s k l).before = s.before := 
  (telemetryPut_eventStep s k l).1.before
@[simp] theorem telemetryPut_pending (k : Nat) (l : List Byte) : (telemetryPut s k l).pending = s.pending := 
  (telemetryPut_eventStep s k l).1.pending
@[simp] theorem telemetryPut_hiLatch (k : Nat) (l : List Byte) : (telemetryPut s k l).hiLatch = s.hiLatch := 
  (telemetryPut_eventStep s k l).1.hiLatch
@[simp] theorem telemetryPut_rolLatch (k : Nat) (l : List Byte) : (telemetryPut s k l).rolLatch = s.rolLatch := 
  (telemetryPut_eventStep s k l).1.rolLatch
@[simp] theorem telemetryPut_onesAt (k : Nat) (l : List Byte) : (telemetryPut s k l).onesAt = s.onesAt := 
  (telemetryPut_eventStep s k l).1.onesAt
@[simp] theorem telemetryPut_readData (k : Nat) (l : List Byte) : (telemetryPut s k l).readData = s.readData := 
  (telemetryPut_eventStep s k l).1.readData
@[simp] theorem telemetryPut_freeCount (k : Nat) (l : List Byte) : (telemetryPut s k l).freeCount = s.freeCount := 
  (telemetryPut_eventStep s k l).1.freeCount
@[simp] theorem telemetryPut_fabric (k : Nat) (l : List Byte) : (telemetryPut s k l).fabric = s.fabric := 
  (telemetryPut_eventStep s k l).1.fabric
@[simp] theorem telemetryPut_timeOff (k : Nat) (l : List Byte) : (telemetryPut s k l).timeOff = s.timeOff := 
  (telemetryPut_eventStep s k l).1.timeOff
@[simp] theorem telemetryPut_rtcOff (k : Nat) (l : List Byte) : (telemetryPut s k l).rtcOff = s.rtcOff := 
  (telemetryPut_eventStep s k l).1.rtcOff
@[simp] theorem telemetryPut_arbs (k : Nat) (l : List Byte) : (telemetryPut s k l).arbs = s.arbs := 
  (telemetryPut_eventStep s k l).1.arbs
@[simp] theorem telemetryPut_reqs (k : Nat) (l : List Byte) : (telemetryPut s k l).reqs = s.reqs := 
  (telemetryPut_eventStep s k l).1.reqs
@[simp] theorem telemetryPut_till (k : Nat) (l : List Byte) : (telemetryPut s k l).till = s.till := 
  (telemetryPut_eventStep s k l).1.till
@[simp] theorem telemetryPut_cqIrq (k : Nat) (l : List Byte) : (telemetryPut s k l).cqIrq = s.cqIrq := 
  (telemetryPut_eventStep s k l).1.cqIrq
@[simp] theorem telemetryPut_irqs (k : Nat) (l : List Byte) : (telemetryPut s k l).irqs = s.irqs := 
  (telemetryPut_eventStep s k l).1.irqs
@[simp] theorem telemetryPut_tke (k : Nat) (l : List Byte) : (telemetryPut s k l).tke = s.tke := 
  (telemetryPut_eventStep s k l).1.tke
@[simp] theorem telemetryPut_sps (k : Nat) (l : List Byte) : (telemetryPut s k l).sps = s.sps := 
  (telemetryPut_eventStep s k l).1.sps
@[simp] theorem telemetryPut_sfe (k : Nat) (l : List Byte) : (telemetryPut s k l).sfe = s.sfe := 
  (telemetryPut_eventStep s k l).1.sfe
@[simp] theorem telemetryPut_fetches (k : Nat) (l : List Byte) : (telemetryPut s k l).fetches = s.fetches := 
  (telemetryPut_eventStep s k l).1.fetches
@[simp] theorem telemetryPut_drv (k : Nat) (l : List Byte) : (telemetryPut s k l).drv = s.drv := 
  (telemetryPut_eventStep s k l).1.drv
@[simp] theorem telemetryPut_dbk (k : Nat) (l : List Byte) : (telemetryPut s k l).dbk = s.dbk := 
  (telemetryPut_eventStep s k l).1.dbk
@[simp] theorem telemetryPut_sw (k : Nat) (l : List Byte) : (telemetryPut s k l).sw = s.sw := 
  (telemetryPut_eventStep s k l).1.sw
@[simp] theorem telemetryPut_feed (k : Nat) (l : List Byte) : (telemetryPut s k l).feed = s.feed := 
  (telemetryPut_eventStep s k l).1.feed
@[simp] theorem telemetryPut_pps (k : Nat) (l : List Byte) : (telemetryPut s k l).pps = s.pps := 
  (telemetryPut_eventStep s k l).1.pps
@[simp] theorem telemetryPut_rowEntries (k : Nat) (l : List Byte) : (telemetryPut s k l).rowEntries = s.rowEntries := 
  (telemetryPut_eventStep s k l).1.rowEntries
@[simp] theorem telemetryPut_xlk (k : Nat) (l : List Byte) : (telemetryPut s k l).xlk = s.xlk := 
  (telemetryPut_eventStep s k l).1.xlk
@[simp] theorem telemetryPut_nav (k : Nat) (l : List Byte) : (telemetryPut s k l).nav = s.nav := 
  (telemetryPut_eventStep s k l).1.nav
@[simp] theorem telemetryPut_sto (k : Nat) (l : List Byte) : (telemetryPut s k l).sto = s.sto := 
  (telemetryPut_eventStep s k l).1.sto
@[simp] theorem telemetryPut_fle (k : Nat) (l : List Byte) : (telemetryPut s k l).fle = s.fle := 
  (telemetryPut_eventStep s k l).1.fle
@[simp] theorem telemetryPut_ksm (k : Nat) (l : List Byte) : (telemetryPut s k l).ksm = s.ksm := 
  (telemetryPut_eventStep s k l).1.ksm
@[simp] theorem telemetryPut_vis (k : Nat) (l : List Byte) : (telemetryPut s k l).vis = s.vis := 
  (telemetryPut_eventStep s k l).1.vis
@[simp] theorem telemetryPut_can (k : Nat) (l : List Byte) : (telemetryPut s k l).can = s.can := 
  (telemetryPut_eventStep s k l).1.can
@[simp] theorem telemetryPut_eth (k : Nat) (l : List Byte) : (telemetryPut s k l).eth = s.eth := 
  (telemetryPut_eventStep s k l).1.eth
@[simp] theorem telemetryPut_pnl (k : Nat) (l : List Byte) : (telemetryPut s k l).pnl = s.pnl := 
  (telemetryPut_eventStep s k l).1.pnl
@[simp] theorem telemetryPut_upd (k : Nat) (l : List Byte) : (telemetryPut s k l).upd = s.upd := 
  (telemetryPut_eventStep s k l).1.upd
@[simp] theorem telemetryPut_aoc (k : Nat) (l : List Byte) : (telemetryPut s k l).aoc = s.aoc := 
  (telemetryPut_eventStep s k l).1.aoc
@[simp] theorem telemetryPut_hlm (k : Nat) (l : List Byte) : (telemetryPut s k l).hlm = s.hlm := 
  (telemetryPut_eventStep s k l).1.hlm

@[simp] theorem raiseEv_now (c i d : Nat) : (raiseEv s c i d).now = s.now := 
  (raiseEv_eventStep s c i d).1.now
@[simp] theorem raiseEv_before (c i d : Nat) : (raiseEv s c i d).before = s.before := 
  (raiseEv_eventStep s c i d).1.before
@[simp] theorem raiseEv_pending (c i d : Nat) : (raiseEv s c i d).pending = s.pending := 
  (raiseEv_eventStep s c i d).1.pending
@[simp] theorem raiseEv_hiLatch (c i d : Nat) : (raiseEv s c i d).hiLatch = s.hiLatch := 
  (raiseEv_eventStep s c i d).1.hiLatch
@[simp] theorem raiseEv_rolLatch (c i d : Nat) : (raiseEv s c i d).rolLatch = s.rolLatch := 
  (raiseEv_eventStep s c i d).1.rolLatch
@[simp] theorem raiseEv_onesAt (c i d : Nat) : (raiseEv s c i d).onesAt = s.onesAt := 
  (raiseEv_eventStep s c i d).1.onesAt
@[simp] theorem raiseEv_readData (c i d : Nat) : (raiseEv s c i d).readData = s.readData := 
  (raiseEv_eventStep s c i d).1.readData
@[simp] theorem raiseEv_freeCount (c i d : Nat) : (raiseEv s c i d).freeCount = s.freeCount := 
  (raiseEv_eventStep s c i d).1.freeCount
@[simp] theorem raiseEv_fabric (c i d : Nat) : (raiseEv s c i d).fabric = s.fabric := 
  (raiseEv_eventStep s c i d).1.fabric
@[simp] theorem raiseEv_timeOff (c i d : Nat) : (raiseEv s c i d).timeOff = s.timeOff := 
  (raiseEv_eventStep s c i d).1.timeOff
@[simp] theorem raiseEv_rtcOff (c i d : Nat) : (raiseEv s c i d).rtcOff = s.rtcOff := 
  (raiseEv_eventStep s c i d).1.rtcOff
@[simp] theorem raiseEv_arbs (c i d : Nat) : (raiseEv s c i d).arbs = s.arbs := 
  (raiseEv_eventStep s c i d).1.arbs
@[simp] theorem raiseEv_reqs (c i d : Nat) : (raiseEv s c i d).reqs = s.reqs := 
  (raiseEv_eventStep s c i d).1.reqs
@[simp] theorem raiseEv_till (c i d : Nat) : (raiseEv s c i d).till = s.till := 
  (raiseEv_eventStep s c i d).1.till
@[simp] theorem raiseEv_cqIrq (c i d : Nat) : (raiseEv s c i d).cqIrq = s.cqIrq := 
  (raiseEv_eventStep s c i d).1.cqIrq
@[simp] theorem raiseEv_irqs (c i d : Nat) : (raiseEv s c i d).irqs = s.irqs := 
  (raiseEv_eventStep s c i d).1.irqs
@[simp] theorem raiseEv_tke (c i d : Nat) : (raiseEv s c i d).tke = s.tke := 
  (raiseEv_eventStep s c i d).1.tke
@[simp] theorem raiseEv_sps (c i d : Nat) : (raiseEv s c i d).sps = s.sps := 
  (raiseEv_eventStep s c i d).1.sps
@[simp] theorem raiseEv_sfe (c i d : Nat) : (raiseEv s c i d).sfe = s.sfe := 
  (raiseEv_eventStep s c i d).1.sfe
@[simp] theorem raiseEv_fetches (c i d : Nat) : (raiseEv s c i d).fetches = s.fetches := 
  (raiseEv_eventStep s c i d).1.fetches
@[simp] theorem raiseEv_drv (c i d : Nat) : (raiseEv s c i d).drv = s.drv := 
  (raiseEv_eventStep s c i d).1.drv
@[simp] theorem raiseEv_dbk (c i d : Nat) : (raiseEv s c i d).dbk = s.dbk := 
  (raiseEv_eventStep s c i d).1.dbk
@[simp] theorem raiseEv_sw (c i d : Nat) : (raiseEv s c i d).sw = s.sw := 
  (raiseEv_eventStep s c i d).1.sw
@[simp] theorem raiseEv_feed (c i d : Nat) : (raiseEv s c i d).feed = s.feed := 
  (raiseEv_eventStep s c i d).1.feed
@[simp] theorem raiseEv_pps (c i d : Nat) : (raiseEv s c i d).pps = s.pps := 
  (raiseEv_eventStep s c i d).1.pps
@[simp] theorem raiseEv_rowEntries (c i d : Nat) : (raiseEv s c i d).rowEntries = s.rowEntries := 
  (raiseEv_eventStep s c i d).1.rowEntries
@[simp] theorem raiseEv_xlk (c i d : Nat) : (raiseEv s c i d).xlk = s.xlk := 
  (raiseEv_eventStep s c i d).1.xlk
@[simp] theorem raiseEv_nav (c i d : Nat) : (raiseEv s c i d).nav = s.nav := 
  (raiseEv_eventStep s c i d).1.nav
@[simp] theorem raiseEv_sto (c i d : Nat) : (raiseEv s c i d).sto = s.sto := 
  (raiseEv_eventStep s c i d).1.sto
@[simp] theorem raiseEv_fle (c i d : Nat) : (raiseEv s c i d).fle = s.fle := 
  (raiseEv_eventStep s c i d).1.fle
@[simp] theorem raiseEv_ksm (c i d : Nat) : (raiseEv s c i d).ksm = s.ksm := 
  (raiseEv_eventStep s c i d).1.ksm
@[simp] theorem raiseEv_vis (c i d : Nat) : (raiseEv s c i d).vis = s.vis := 
  (raiseEv_eventStep s c i d).1.vis
@[simp] theorem raiseEv_can (c i d : Nat) : (raiseEv s c i d).can = s.can := 
  (raiseEv_eventStep s c i d).1.can
@[simp] theorem raiseEv_eth (c i d : Nat) : (raiseEv s c i d).eth = s.eth := 
  (raiseEv_eventStep s c i d).1.eth
@[simp] theorem raiseEv_pnl (c i d : Nat) : (raiseEv s c i d).pnl = s.pnl := 
  (raiseEv_eventStep s c i d).1.pnl
@[simp] theorem raiseEv_upd (c i d : Nat) : (raiseEv s c i d).upd = s.upd := 
  (raiseEv_eventStep s c i d).1.upd
@[simp] theorem raiseEv_aoc (c i d : Nat) : (raiseEv s c i d).aoc = s.aoc := 
  (raiseEv_eventStep s c i d).1.aoc
@[simp] theorem raiseEv_hlm (c i d : Nat) : (raiseEv s c i d).hlm = s.hlm := 
  (raiseEv_eventStep s c i d).1.hlm

end Sys2Proof.Machine
end

