-- ==== Sys2Proof/Tests/Base.lean ====
section
/-! SUPPORT. Small states for the tests. -/

namespace Sys2Proof.Tests

open Sys2Proof Sys2Proof.Machine

/-- The module with its fabric initialised, and nothing else done. -/
def live : State := { State.reset with fabric := true }

/-- `live` in FIELD, where the keys are usable. -/
def inUse : State := rset live R.KSM_LC_STATE 2

/-- `live` with the longest wake tolerance. -/
def slow : State := rset live R.AOC_WAKE_TOLERANCE_US 0xFFFFFFFF

/-- `live` with one register field set. -/
def liveR (f : Fld) (v : Nat) (i : Nat := 0) (j : Nat := 0) : State := rset live f v i j

/-- A state with a normal grant at an arbiter instance. -/
def granted (n : Nat) (g : Grant) : State := setArb live n { arbInit n with cyc := g.start, st := { (arbInit n).st with holder := some g } }

/-- A correct descriptor header with an empty body. -/
def header (cls op : Nat) : Desc :=
  { cls := cls, op := op, phase := true, fence := false, noIrq := false, reserved := 0, version := 1, classWord := 0,
    notBefore := 0, body := List.replicate 12 0 }

/-- Ring 7, of class 1, enabled with one submitted descriptor; completion ring 0 enabled. -/
def fetchable : State :=
  let s := rset (rset (rset live R.RING_CFG_CLASS 1 0 7) R.RING_CTRL_ENABLE 1 0 7) R.CQ_CTRL_ENABLE 1 0 0
  { s with reqs := [⟨7, 0, 0, true, none, .waiting, 0, none⟩] }

/-- One completion posted to the till. -/
def postedOne : State :=
  { live with
    reqs := [⟨7, 0, 0, true, none, .posted ⟨1, 0, none⟩, 1, none⟩]
    till := { Till.reset with posted := [⟨svc, false, [⟨7, 0, 0⟩]⟩] } }

/-- One sequenced completion in the output queue. -/
def sequencedOne : State :=
  { liveR R.CQ_CTRL_ENABLE 1 0 0 with
    reqs := [⟨7, 0, 0, true, none, .sequenced 5 ⟨1, 0, none⟩ 0, 1, none⟩]
    till := { Till.reset with outQ := [.completion ⟨7, 0, 0⟩] } }

/-- One descriptor, held by its consumer, in slot 0 of ring 7. -/
def holding (d : Desc) (s : State := live) : State :=
  { s with reqs := [⟨7, 0, 0, true, some d, .held, 1, none⟩], fetches := 1 }

/-- Panel port 1 of 64 by 16 pixels with its supply on, not enabled. -/
def panel : State :=
  rset (rset (rset live R.PNL_SIZE_WIDTH 64 1) R.PNL_SIZE_HEIGHT 16 1) R.PNL_CTRL_PWR_EN 1 1

/-- `panel`, enabled, with line 3 pending. -/
def paintable : State :=
  setLine (rset panel R.PNL_CTRL_EN 1 1) 1 3
    { content := List.replicate 64 1, shown := List.replicate 64 0, shadow := 0, owner := none, source := none, forced := [] }

/-- A command that a plane supervisor has passed and that has not yet taken effect. -/
def passing (p : Nat) (q : Passed) (s : State) : State := setPps s p { getPps s p with passed := [q] }

/-- Drive channel 50 in a mode, its bank enabled, with a command of the pattern passed to it. -/
def driveOn (c : OutCmd) (mode : Nat) : State :=
  passing 1 ⟨c, none, false, true, 3, 8⟩ (rset (dset live R.DBK_CH_CFG_MODE mode 50) R.DBK_CTRL_ENABLE 1 6)

/-- A profile of 1 ms requested at fc 0. -/
def someProf : DrvProf :=
  { reqStart := 0, requested := false, onTime := some 400000, extEnd := 0, extOff := false, start := none,
    peakStart := none, holdMa := 1000, ref := none, row := 0, shift := 0, byTimeout := false, searched := false,
    noMove := false, maxMa := 0, dip := none, floorCh := none }

/-- Switch channel 50 in MODE SWITCH, its bank enabled, with a command of the pattern passed to it. -/
def switchOn (c : OutCmd) : State :=
  passing 1 ⟨c, none, false, true, 3, 8⟩ (rset (dset live R.SBK_CH_CFG_MODE 1 50) R.SBK_CTRL_ENABLE 1 6)

/-- A heartbeat of row 4. -/
def someBeat : Heartbeat :=
  { row := 4, bid := 257, overrun := false, stopped := false, disarmed := false, handover := false, fallback := false,
    role := 1, mirrorCount := 0, digest := 0, epoch := 1, edge := 0 }

/-- A stitch of every row. -/
def stitchOf (typ n a b : Nat) : Stitch := { typ := typ, every := 1, offset := 0, n := n, opA := a, opB := b }

/-- A pattern of one compute stitch. -/
def onePattern : Pattern :=
  { patId := 7, periodMin := 500, periodMax := 4000, consts := [], stitches := [stitchOf 8 1 0 0], cost := 0 }

/-- A row of a SINGLE module that runs its main pattern, with these stitches still to run. -/
def inRow (todo : List Stitch := []) : State :=
  { liveR R.TKE_CTRL_ARMED 1 with
    tke := { Tke.reset with running := true, rowLen := 400000, rowArmed := true, main := some onePattern, todo := todo } }

/-- `inRow` with table set `ts` live. -/
def inRowSet (ts : List Nat) (todo : List Stitch) : State :=
  let s := inRow todo
  { s with tke := { s.tke with bufs := [(3, ts)] } }

/-- What a filter step has with a standard fix. -/
def someMeas : NavMeas :=
  { lat := 5, lon := 6, height := 7, speed := 0, velN := 0, velE := 0, velU := 0, roll := 0, pitch := 0, slopeOk := true,
    baseline := none, course := 0, gyro := 0, hdgAcc := 0, fixMask := 2, sbas := [], sbasZero := [],
    sky := [], tcxo := 25, hAcc := 900, sats := 8 }

/-- Words of a prescription tile with no cell written, as far as its header, with CRC word `c`. -/
def imageWords (c : Nat) : List Nat := [0x4C495451, 1 + 256 * 3 + 65536 * gridCell live, 0, 0, 0, 0, 0, 0, 0, 0, 0, 0, 0, 0, c, 0]

/-- The image with its CRC. -/
def goodImage : List Nat := imageWords (imgCrc (imageWords 0) (4 * tileWords 3) 0x38)

/-- A network image of 64 bytes, with CRC word `c`. -/
def netWords (c : Nat) : List Nat := [0x54454E51, 0x00010100, 64, 0, 5, 0, 6, 7, 0, 0, 0, 0, 0, 0, 0, c]

/-- The image with its CRC. -/
def goodNet : List Nat := netWords (imgCrc (netWords 0) 64 0x3C)

/-- Camera port `p` enabled and linked, 64 by 16 pixels of RAW8, with four raw slots. -/
def camera (p : Nat) : State :=
  let s := rset (rset (rset live R.CAM_CTRL_EN 1 p) R.CAM_CTRL_LINK_UP 1 p) R.CAM_SIZE_WIDTH 64 p
  rset (rset (rset (rset s R.CAM_SIZE_HEIGHT 16 p) R.CAM_FORMAT_DATA_TYPE 0x2A p) R.CAM_RAW_SLOT_SLOT_COUNT 4 p)
    R.CAM_RAW_SLOT_SLOT_4K 1 p

/-- A frame being received into raw slot 2. -/
def someFrame : CamFrame := { CamFrame.start live 9 33 0 with slot := some 2, kept := true }

/-- `camera` with that frame. -/
def filming (p : Nat) : State := modCam (camera p) p fun c => { c with cur := some someFrame }

/-- Controller 2 enabled, in mode NORMAL, its ring 7 of class 6. -/
def onBus2 : State :=
  rset (rset (rset live R.CAN_CTRL_EN 1 2) R.CAN_TX_CFG_RING 7 2) R.RING_CFG_CLASS 6 0 7

/-- A frame of two bytes. -/
def someCanFrame : CanFrame :=
  { ide := false, rtr := false, fdf := false, brs := false, esi := false, canId := 0x123, dlc := 2, data := [1, 2] }

/-- That frame in a transmit buffer, for the descriptor in slot 0 of ring 7. -/
def someTx : CanTx := { frame := someCanFrame, ref := some ⟨7, 0, 0⟩, echo := false, echoQ := 0, losses := 0, errors := 0, begun := false }

/-- The URI of a pitch of market 5. -/
def someUri (p : Nat) : List Nat :=
  uriHead ++ List.replicate 7 0x30 ++ [0x35] ++ uriMid ++ (Nat.toDigits 10 p).map (·.toNat)

/-- A valid certificate of a pitch of market 5. -/
def someCert (p : Nat) : Cert :=
  { uris := [someUri p], serial := 77, notBefore := 0, notAfter := 10 ^ 18, chains := true, usage := true, der := [1] }

/-- An open session with pitch 9. -/
def someSession : Session := { Session.empty with pitch := 9, isOpen := true, expires := 10 ^ 18 }

/-- The fleet engine of pitch 1 running, with that session in slot 3 and pitch 9 known. -/
def inFleet (c : Session := someSession) : State :=
  let s := rset live R.FLE_CTRL_EN 1
  { s with
    ksm := { s.ksm with memberCert := some (someCert 1), root := true },
    fle := { Fle.reset with
      sessions := [(3, c)], members := [(9, { Member.unknown with cert := some (someCert 9) })] } }

/-- A delta of one cell of a coverage tile, written by pitch 9. -/
def someDelta : Delta :=
  { author := 9, market := 5, tile := 3 * 2 ^ 32, t := 40, c := 0, origin := 0, cellCm := gridCell live, cells := [(9, 4)], sig := List.replicate 96 0 }

/-- An image of two blocks from the vendor. -/
def testImage : Image :=
  { signer := 0, version := 3, svn := 5, blocks := 2, lastLen := 100, hwMin := 0, variants := 3, keyId := 0,
    components := [1] }

/-- The 1,024 words of a header for such an image. -/
def testHeader : List Nat :=
  [0x474D4951, 0x100, 3, 5, 2, 100, 0x300, 0, 0, 0] ++ List.replicate 1014 0

end Sys2Proof.Tests
end

