-- ==== Sys2Proof/Tests/Table.lean ====
section
/-! SUPPORT. A table set and a pattern that pass every check: the smallest table set is 16 KiB, so its words are looked up
by index rather than in the list. -/

namespace Sys2Proof.Tests

open Sys2Proof Sys2Proof.Machine

set_option maxRecDepth 100000

/-- Words of the smallest table set, with CRC word `c`: one region, every slot held, every target zero. -/
def tableWords (c : Nat) : List Nat :=
  [0x4C425451, 0x00010100, 0x4000, 0x00000101, 9, 0, 0, 0, 0x3F800000, 0x3F800000, 0x3F800000, 0x3F800000, 0x3F800000,
   0, 0, c] ++ (List.replicate 3600 0 ++ (List.replicate 32 0x3F800000 ++ (List.replicate 64 0 ++ List.replicate 32 0x3F800000)))

/-- A table set that passes every check. -/
def goodTable : List Nat := tableWords (imgCrc (tableWords 0) 0x4000 0x3C)

/-- Its words by index. -/
def tableAt (c i : Nat) : Nat :=
  if i < 16 then [0x4C425451, 0x00010100, 0x4000, 0x00000101, 9, 0, 0, 0, 0x3F800000, 0x3F800000, 0x3F800000, 0x3F800000,
    0x3F800000, 0, 0, c].getD i 0
  else if (3616 ≤ i ∧ i < 3648) ∨ (3712 ≤ i ∧ i < 3744) then 0x3F800000 else 0

theorem getD_replicate (n v i : Nat) : (List.replicate n v).getD i 0 = if i < n then v else 0 := by
  simp only [List.getD_eq_getElem?_getD, List.getElem?_replicate]
  split <;> rfl

theorem getD_app (a b : List Nat) (i : Nat) : (a ++ b).getD i 0 = if i < a.length then a.getD i 0 else b.getD (i - a.length) 0 := by
  simp only [List.getD_eq_getElem?_getD]
  split
  · rw [List.getElem?_append_left (by assumption)]
  · rw [List.getElem?_append_right (by omega)]

theorem tableWords_getD (c i : Nat) : (tableWords c).getD i 0 = tableAt c i := by
  unfold tableWords tableAt
  rw [getD_app]
  simp only [List.length_cons, List.length_nil, Nat.zero_add, Nat.reduceAdd]
  split
  · rfl
  · rw [getD_app, getD_app, getD_app]
    simp only [getD_replicate, List.length_replicate]
    repeat' split
    all_goals first | rfl | omega

theorem set_app (h t : List Nat) (c : Nat) (i : Nat) (hi : i < h.length) : (h ++ t).set i c = h.set i c ++ t := by
  rw [List.set_append_left _ _ hi]

theorem tableWords_clear (c : Nat) : (tableWords c).set 15 0 = tableWords 0 := by
  unfold tableWords
  rw [set_app _ _ _ _ (by simp)]
  congr 1

theorem tableWords_crc (c : Nat) : imgCrc (tableWords c) 0x4000 0x3C = crc32 (imgBytes (tableWords 0) 0x4000) :=
  congrArg (fun l => crc32 (imgBytes l 0x4000)) (tableWords_clear c)

theorem tableWords_word (c : Nat) : imgWord (tableWords c) 0x3C = c := by
  unfold imgWord
  rw [tableWords_getD]
  rfl

theorem goodTable_crc : imgCrc goodTable 0x4000 0x3C = imgWord goodTable 0x3C :=
  (tableWords_crc _).trans ((tableWords_crc 0).symm.trans (tableWords_word _).symm)

theorem goodTable_checks :
    tsFinite goodTable = true ∧ tsBoundsOk goodTable = true ∧ tsWeightsOk goodTable = true ∧ tsScalarsOk goodTable = true ∧
    tsFallbackOk goodTable = true ∧ loopsValid goodTable = true ∧ reservedClear goodTable = true := by
  refine ⟨?_, ?_, ?_, ?_, ?_, ?_, ?_⟩ <;>
    simp only [tsFinite, tsBoundsOk, tsWeightsOk, tsScalarsOk, tsFallbackOk, loopsValid, reservedClear, loopDriveNames,
      loopSwitchNames, loopCanNames, loopMode, loopKind, loopFbClass, loopFbIndex, loopF, loopOutA, loopOutB, tsHardLo, tsHardHi,
      tsLo, tsHi, tsWeight, tsMove, tsRate, tsFallback, tsRegions, tsMfBands, tsMoBands, tsGenRows, imgWords, imgWord, goodTable,
      tableWords_getD] <;>
    decide +kernel

theorem goodTable_header : imgWord goodTable 0 = 0x4C425451 ∧ imgWord goodTable 4 = 0x00010100 ∧ imgWord goodTable 8 = 0x4000 ∧
    imgWord goodTable 0x0C = 0x101 := by
  simp only [imgWord, goodTable, tableWords_getD]
  decide +kernel

theorem goodTable_bands : fIncreasing (imgWords goodTable 0x100 (tsMfBands goodTable - 1)) = true ∧
    fIncreasing (imgWords goodTable 0x200 (tsMoBands goodTable - 1)) = true := by
  simp only [imgWords, imgWord, goodTable, tsMfBands, tsMoBands, tableWords_getD]
  decide +kernel

theorem goodTable_passes : checkTable 0x4000 goodTable = none := by
  obtain ⟨h1, h2, h3, h4, h5, h6, h7⟩ := goodTable_checks
  obtain ⟨w0, w4, w8, wc⟩ := goodTable_header
  obtain ⟨b1, b2⟩ := goodTable_bands
  have hr : tsRegions goodTable = 1 := by unfold tsRegions; rw [w4]; rfl
  have hf : tsMfBands goodTable = 1 := by unfold tsMfBands; rw [wc]; rfl
  have ho : tsMoBands goodTable = 1 := by unfold tsMoBands; rw [wc]; rfl
  have hg : tsGenRows goodTable = 0 := by unfold tsGenRows; rw [wc]; rfl
  have hd : tsDefault goodTable = 0 := by unfold tsDefault; rw [wc]; rfl
  have hc : ¬ (imgCrc goodTable 0x4000 0x3C ≠ imgWord goodTable 0x3C) := fun h => h goodTable_crc
  unfold checkTable
  dsimp only
  rw [w0, w4, w8, hr, hg, hd, b1, b2, h1, h2, h3, h4, h5, h6, h7, hf, ho, if_neg (by decide), if_neg (by decide), if_neg (by decide),
    if_neg (by decide), if_neg hc]
  rfl

/-- Words of a pattern of one compute stitch in every row, with CRC word `c`. -/
def patternWords (c : Nat) : List Nat :=
  [0x54415051, 0x00010100, 80, 64, 7, 0, 4000 * 65536 + 250, 0, 0, 0, 0, 0, 0, 0, c, 0, 8 + 256, 1, 0, 0]

/-- A pattern that passes every check. -/
def goodPattern : List Nat := patternWords (imgCrc (patternWords 0) 80 0x38)

/-- The pattern it is admitted as. -/
def admittedPattern : Pattern :=
  { patId := 7, periodMin := 250, periodMax := 4000, consts := [], stitches := [⟨8, 1, 0, 1, 0, 0⟩],
    cost := patternCost (accessCost live) [⟨8, 1, 0, 1, 0, 0⟩] }

theorem goodPattern_admitted : checkPattern live false 80 goodPattern = .admitted admittedPattern := by decide +kernel

theorem goodPattern_fallback : checkPattern live true 80 goodPattern = .admitted admittedPattern := by decide +kernel

/-- An ISP parameter block of zeros, with its CRC. -/
def zeroParams : List Nat := List.replicate 255 0 ++ [crc32 (List.replicate 0x3FC 0)]

theorem zeroParams_bytes (c : Nat) : imgBytes (List.replicate 255 0 ++ [c]) 1024 = List.replicate 1020 0 ++ (leBytes 4 c).map (·.toNat) := by
  unfold imgBytes
  rw [List.flatMap_append]
  have h : (List.replicate 255 0).flatMap (fun w => (leBytes 4 w).map (·.toNat)) = List.replicate 1020 0 := by decide +kernel
  rw [h, List.take_append]
  simp [leBytes]

theorem zeroParams_ok : paramsOk zeroParams = true := by
  have hb : imgBytes zeroParams 1024 = _ := zeroParams_bytes _
  have ht : (imgBytes zeroParams 1024).take 0x3FC = List.replicate 0x3FC 0 := by
    rw [hb, List.take_append]; simp
  have hc : imgWord zeroParams 0x3FC = crc32 (List.replicate 0x3FC 0) := by
    unfold imgWord zeroParams
    rw [getD_app]; rfl
  unfold paramsOk zeroBytes
  dsimp only
  rw [ht, hc, beq_self_eq_true, Bool.and_true, hb]
  simp only [getD_app, getD_replicate, List.length_replicate]
  decide +kernel

end Sys2Proof.Tests
end

