-- ==== Sys2Proof/Tests/Slice0.lean ====
section
/-! SUPPORT. The tests: an ill-formed command for each check of `WellFormed`, and for each clause of a statement a
state and operands that meet its hypotheses. -/

namespace Sys2Proof.Tests

open Sys2Proof Sys2Proof.Machine

set_option maxRecDepth 20000
set_option Elab.async false


/-! ### Ill-formed commands: one for each bound that `Instr.wf` checks -/

/-- A reference to a ring that does not exist. -/
def badRing : Ref := ⟨256, 0, 0⟩

/-- A reference to a slot that does not exist. -/
def badSlot : Ref := ⟨7, 65536, 0⟩

theorem test_wf_references :
    [Instr.promote 0 badRing, .promote 0 badSlot, .qualPost 0 badRing, .envelopeSet 0 badSlot, .calSet 0 badRing,
      .clsSelect 0 badSlot, .pairHandover 0 badRing, .navSearch 0 ⟨badSlot, true⟩, .tileLoad 0 badRing, .tileFlush 0 badSlot,
      .storeRead 0 badRing, .writeInline 0 badSlot, .jrnRead 0 badRing, .capture 0 badSlot, .sensorWrite 0 badRing,
      .send 0 badSlot, .peerSet 0 badRing, .memberEvict 0 badSlot, .publishNow 0 badRing, .pnlClear 0 badSlot,
      .pubkeyGet 0 badRing, .updBlock 0 badSlot true none, .updClose 0 badRing, .activate 0 badSlot, .confirm 0 badRing,
      .ppsApply 0 badSlot 1, .updCancel 0 badRing, .marginReset 0 badSlot,
      .eccUncorrectable 0 false false 0 0 0 (some badRing)].all (fun i => !i.wf) = true := by decide

theorem test_wf_references_with_data :
    [Instr.patternLoad 0 badRing [], .tableSet 0 badSlot [], .rtcmIn 0 badRing [] [], .tileWrite 0 badSlot [],
      .storeWrite 0 badRing [], .jrnWrite 0 badSlot [], .ispParams 0 badRing [], .vxaRun 0 badSlot [] [],
      .ethTx 0 badRing [], .statusPublish 0 badSlot [], .update 0 badRing [], .credSet 0 badSlot true none 0 [],
      .lcChange 0 badRing [] true false, .updOpen 0 badSlot []].all (fun i => !i.wf) = true := by decide

theorem test_wf_words_and_bytes :
    [Instr.patternLoad 0 ⟨0, 0, 0⟩ [2 ^ 32], .tableSet 0 ⟨0, 0, 0⟩ [2 ^ 32], .rtcmIn 0 ⟨0, 0, 0⟩ [256] [],
      .tileWrite 0 ⟨0, 0, 0⟩ [2 ^ 32], .storeWrite 0 ⟨0, 0, 0⟩ [256], .jrnWrite 0 ⟨0, 0, 0⟩ [256], .ispParams 0 ⟨0, 0, 0⟩ [2 ^ 32],
      .vxaRun 0 ⟨0, 0, 0⟩ [2 ^ 32] [], .vxaRun 0 ⟨0, 0, 0⟩ [] [2 ^ 32], .ethTx 0 ⟨0, 0, 0⟩ [256], .statusPublish 0 ⟨0, 0, 0⟩ [256], .update 0 ⟨0, 0, 0⟩ [256],
      .credSet 0 ⟨0, 0, 0⟩ true none 0 [256], .lcChange 0 ⟨0, 0, 0⟩ [256] true false, .updOpen 0 ⟨0, 0, 0⟩ [2 ^ 32],
      .ispFrameDone 0 0 false [] [256] [] [], .ispFrameDone 0 0 false [] [] [256] [], .vxaJobDone 0 false [256], .camLine 0 0 0 0 0 true [65536],
      .canTxbFetch 0 0 [256], .ethRx 0 0 0 true [256], .storeAccessDone 0 true 0 0 [256]].all (fun i => !i.wf) = true := by
  decide

theorem test_wf_requesters :
    [Instr.arbRequest 0 0 [49], .arbRequest 0 4 [10], .arbRequest 0 5 [7], .arbRequest 0 21 [5], .arbWithdraw 0 20 7].all
      (fun i => !i.wf) = true := by decide

theorem test_wf_accesses :
    [Instr.registerWrite 0 .can 8 0 0 4, .registerWrite 0 .ksm 1 0 0 4, .registerWrite 0 .can 0 0 0 3,
      .rw1cWrite 0 .hlm 0 2 0 4, .rolRead 0 .tke 0 4096 4, .loHalfRead 0 .til 0 4 8].all (fun i => !i.wf) = true := by
  decide

theorem test_wf_descriptors :
    [{ header 256 0 with body := List.replicate 12 0 }, header 1 256, { header 1 0 with reserved := 32 },
      { header 1 0 with version := 256 }, { header 1 0 with classWord := 2 ^ 32 },
      { header 1 0 with notBefore := 2 ^ 64 }, { header 1 0 with body := [] },
      { header 1 0 with body := List.replicate 12 (2 ^ 32) }].all
      (fun d => !(Instr.descriptorFetch 0 7 d false).wf) = true := by decide

theorem test_wf_samples :
    [SfeSamples.mk [⟨64, 0, 0, 0⟩] [], ⟨[⟨0, 0, 65536, 0⟩], []⟩, ⟨[], [⟨4, 0, 0⟩]⟩].all
      (fun x => !(Instr.tickEdge 0 x false).wf) = true := by decide

theorem test_wf_traces :
    [Instr.digDebounceExpiry 0 0 0 [2 ^ 32], .digDebounceExpiry 0 0 (2 ^ 32) [], .boostCurrentReached 0 ⟨0, [2 ^ 32]⟩, .tBoostExpiry 0 ⟨0, [2 ^ 32]⟩,
      .tPeakExpiry 0 ⟨0, [2 ^ 32]⟩, .profileEndTime 0 ⟨0, [2 ^ 32]⟩, .decayEnd 0 ⟨0, [2 ^ 32]⟩ 0, .movementDetected 0 0 [2 ^ 32],
      .holdFloorHit 0 0 [2 ^ 32], .drvOnOpenLoad 0 0 [2 ^ 32], .commitPoint ⟨0, [2 ^ 32]⟩, .tillFlush 0 [2 ^ 32], .wireModelUpdate 0 0 ⟨[2 ^ 32], []⟩,
      .wireModelUpdate 0 0 ⟨[], [2 ^ 32]⟩].all (fun i => !i.wf) = true := by decide

theorem test_wf_measured :
    [Instr.lockstepMismatch 0 [0], .healthTx 0 [], .navFilterStep 0 { someMeas with speed := 2 ^ 32 },
      .navFilterStep 0 { someMeas with gyro := 2 ^ 32 }, .ageingMeasure 0 ⟨256, 0, 0, 0, 0⟩, .ageingMeasure 0 ⟨1, 256, 0, 0, 0⟩,
      .ageingMeasure 0 ⟨1, 0, 256, 0, 0⟩, .ageingMeasure 0 ⟨2, 0, 0, 2 ^ 32, 0⟩,
      .acqSearchDone 0 (some badRing) false 0 0 ⟨0, [], true, 0, 0, 0, 0, 0⟩ true 0].all (fun i => !i.wf) = true := by decide

theorem test_wf_link_frames :
    [Instr.heartbeatRx ⟨0, 0⟩ { someBeat with row := 2 ^ 64 }, .heartbeatRx ⟨0, 0⟩ { someBeat with role := 8 },
      .heartbeatRx ⟨0, 0⟩ { someBeat with epoch := 2 ^ 32 }, .mirrorRx ⟨0, 0⟩ 0 0 [2 ^ 64], .commitRx ⟨0, 0⟩ 0 false (2 ^ 64) 0 0 [],
      .takeoverRx ⟨0, 0⟩ 0 (2 ^ 64), .fenceAckRx ⟨0, 0⟩ (2 ^ 64), .healthRx ⟨0, 0⟩ [2 ^ 32], .serviceRx ⟨0, 0⟩ [2 ^ 32],
      .xlkBadFrame ⟨0, [2 ^ 32]⟩].all (fun i => !i.wf) = true := by decide

theorem test_wf_can_frames :
    [{ someCanFrame with canId := 2 ^ 11 }, { someCanFrame with ide := true, canId := 2 ^ 29 },
      { someCanFrame with dlc := 16 }, { someCanFrame with data := [256] },
      { someCanFrame with data := List.replicate 65 0 }].all (fun f => !(Instr.canRx 0 0 0 f).wf) = true := by decide

theorem test_wf_fleet :
    [Instr.sessionHandshake 0 0 (some { someCert 1 with uris := [[256]] }), .announceRx 0 0 { someCert 1 with der := [256] },
      .deltaRx 0 0 [256] true true, .statusRx 0 0 [256] true true, .certReqRx 0 0 [256],
      .summaryRx 0 0 [⟨2 ^ 64, 0, 0⟩], .summaryRx 0 0 [⟨0, 65536, 0⟩], .summaryRx 0 0 [⟨0, 0, 1024⟩],
      .credSet 0 ⟨0, 0, 0⟩ true (some { someCert 1 with der := [256] }) 0 []].all (fun i => !i.wf) = true := by decide

theorem test_wf_admits :
    [Instr.arbRequest 0 0 [48], .registerWrite 0 .can 7 4092 0 4, .descriptorFetch 0 7 (header 1 0) false,
      .tickEdge 0 ⟨[⟨63, 0, 65535, 0⟩], [⟨3, 0, 0⟩]⟩ false, .heartbeatRx ⟨0, 0⟩ someBeat, .canRx 0 0 0 someCanFrame,
      .promote 0 ⟨255, 65535, 0⟩, .ageingMeasure 0 ⟨11, 255, 255, 0, 0⟩, .announceRx 0 0 (someCert 1023)].all Instr.wf = true := by decide

/-! ### What the statements need -/

theorem meets_stepEmpty : ∃ (s : State),
    (s.pending = []) :=
  ⟨live, by decide⟩

theorem meets_stepCanonical : ∃ (s : State) (u : State),
    (s.Canonical) ∧ (step s = .next u) :=
  ⟨live, live, by unfold State.Canonical; decide, rfl⟩

theorem meets_stepQueue : ∃ (s : State) (u : State),
    (step s = .next u) :=
  ⟨live, live, rfl⟩

theorem meets_memBack : ∃ (m : Memory) (a : Nat) (c : Nat),
    (Memory.wf m = true) ∧ (c ≠ a) :=
  ⟨[], 0, 1, by decide⟩

theorem meets_memListFrame : ∃ (a : Nat) (c : Nat) (l : List Byte),
    (∀ k < l.length, c ≠ (a + k) % 2 ^ 64) :=
  ⟨0, 9, [1, 2], by decide⟩

theorem meets_doneArbRequest : ∃ (s : State),
    (s.fabric = true) :=
  ⟨live, by decide⟩

theorem meets_doneArbRelease : ∃ (s : State) (t : Nat) (n : Fin 22),
    (s.fabric = true) ∧ (n.val ≠ 21) ∧ ((arbNow (arbTo (arbAt s n t) n t) n).holder.isSome = true) :=
  ⟨granted 1 ⟨2, 3, 8⟩, 4, 1, by decide⟩

theorem meets_doneTenureExpiry : ∃ (s : State) (t : Nat) (n : Fin 22) (g : Grant),
    (s.fabric = true) ∧ (n.val ≠ 0) ∧ (n.val ≠ 21) ∧ ((arbNow (arbTo s n t) n).holder = some g) ∧ (g.start + g.left ≤ (getArb (arbTo s n t) n).cyc + 1) :=
  ⟨granted 1 ⟨2, 3, 8⟩, 10, 1, ⟨2, 3, 8⟩, by decide⟩

theorem meets_doneTillExpiry : ∃ (s : State) (t : Nat) (g : Grant),
    (s.fabric = true) ∧ ((arbNow (arbTo (tillTo s t) 0 t) 0).holder = some g) ∧ (g.start + g.left ≤ (getArb (arbTo (tillTo s t) 0 t) 0).cyc + 1) :=
  ⟨granted 0 ⟨2, 3, 1⟩, 3, ⟨2, 3, 1⟩, by decide⟩

theorem meets_doneLinkRelease : ∃ (s : State) (t : Nat) (g : Grant) (f : XFrame),
    (s.fabric = true) ∧ ((arbNow (arbTo s 21 t) 21).holder = some g) ∧ ((getArb (arbTo s 21 t) 21).ev.ended = false) ∧ ((s.xlk.out.find? fun f => f.req == some g.who) = some f) ∧ ((s.xlk.out.erase f).any (fun h => h.req == some g.who) = false) :=
  ⟨{ granted 21 ⟨2, 3, 20⟩ with xlk := { Xlk.reset with out := [⟨some 2, 5, [1], none⟩] } }, 5, ⟨2, 3, 20⟩, ⟨some 2, 5, [1], none⟩, by decide⟩

theorem meets_doneLinkExpiry : ∃ (s : State) (t : Nat) (g : Grant) (f : XFrame),
    (s.fabric = true) ∧ ((arbNow (arbTo s 21 t) 21).holder = some g) ∧ ((getArb (arbTo s 21 t) 21).ev.ended = false) ∧ ((s.xlk.out.find? fun f => f.req == some g.who) = some f) ∧ ((s.xlk.out.erase f).any (fun h => h.req == some g.who) = false) ∧ (g.start + g.left ≤ (getArb (arbTo s 21 t) 21).cyc + 1) :=
  ⟨{ granted 21 ⟨2, 3, 20⟩ with xlk := { Xlk.reset with out := [⟨some 2, 5, [1], none⟩] } }, 22, ⟨2, 3, 20⟩, ⟨some 2, 5, [1], none⟩, by decide⟩

theorem meets_doneArbWithdraw : ∃ (s : State),
    (s.fabric = true) :=
  ⟨granted 1 ⟨2, 3, 8⟩, by decide⟩

theorem meets_doneEmergency : ∃ (s : State) (n : Fin 22),
    (s.fabric = true) ∧ (n.val ≠ 0) ∧ (arbEmOn s n = true) :=
  ⟨granted 1 ⟨2, 3, 8⟩, 1, by decide⟩

theorem meets_doneTillEmergency : ∃ (s : State) (t : Nat) (f : FenceRec),
    (s.fabric = true) ∧ (arbEmOn s 0 = true) ∧ (f ∈ (tillTo s t).till.fenceQ) ∧ ((tillTo s t).till.fenceAt = none) ∧ ((getArb (tillTo s t) 0).st.emWait = []) ∧ ((getArb (tillTo s t) 0).ev.emReqs = 0) :=
  ⟨{ live with till := { Till.reset with fenceQ := [⟨0, [5]⟩] } }, 5, ⟨0, [5]⟩, by decide⟩

theorem meets_doneEmergencyEnd : ∃ (s : State) (t : Nat) (n : Fin 22) (b : Nat),
    (s.fabric = true) ∧ (n.val ≠ 0) ∧ (n.val ≠ 21) ∧ ((getArb (arbTo s n t) n).st.emStart = some b) ∧ (b ≤ (getArb (arbTo s n t) n).cyc) :=
  ⟨setArb live 1 { arbInit 1 with cyc := 6, st := { (arbInit 1).st with emStart := some 6, resume := some ⟨2, 6, 5⟩ } }, 8, 1, 6, by decide⟩

theorem meets_doneTillEmergencyEnd : ∃ (s : State) (t : Nat) (b : Nat),
    (s.fabric = true) ∧ ((getArb (arbTo (tillTo s t) 0 t) 0).st.emStart = some b) ∧ (b ≤ (getArb (arbTo (tillTo s t) 0 t) 0).cyc) :=
  ⟨setArb live 0 { arbInit 0 with cyc := 6, st := { (arbInit 0).st with emStart := some 6, resume := some ⟨2, 6, 5⟩ } }, 6, 6, by decide⟩

theorem meets_doneClearCounts : ∃ (s : State),
    (s.fabric = true) :=
  ⟨live, by decide⟩

theorem meets_arbRequestIdle : ∃ (s : State) (t : Nat) (n : Fin 22) (p : Nat),
    (s.fabric = true) ∧ (n.val ≠ 0) ∧ ((getArb s n).cyc = t) ∧ ((getArb s n).idle = true) ∧ (p ∈ (getArb s n).st.rank) ∧ (p ∉ (getArb s n).masked) :=
  ⟨live, 0, 1, 3, by decide⟩

theorem meets_arbRequestHeld : ∃ (s : State) (t : Nat) (n : Fin 22) (p : Nat) (g : Grant),
    (s.fabric = true) ∧ (n.val ≠ 0) ∧ (n.val ≠ 21) ∧ ((getArb s n).cyc = t) ∧ ((getArb s n).ev = ArbEv.none_) ∧ ((getArb s n).st.calm = true) ∧ ((getArb s n).st.holder = some g) ∧ (g.who ≠ p) ∧ ((getArb s n).st.want = []) ∧ (p ∈ (getArb s n).st.rank) :=
  ⟨granted 1 ⟨2, 3, 8⟩, 3, 1, 3, ⟨2, 3, 8⟩, by decide⟩

theorem meets_arbReleaseHeld : ∃ (s : State) (t : Nat) (n : Fin 22) (g : Grant),
    (s.fabric = true) ∧ (n.val ≠ 0) ∧ (n.val ≠ 21) ∧ ((getArb s n).cyc = t) ∧ ((getArb s n).ev = ArbEv.none_) ∧ ((getArb s n).st.calm = true) ∧ ((getArb s n).st.holder = some g) ∧ ((getArb s n).st.emLast = none) :=
  ⟨granted 1 ⟨2, 3, 8⟩, 3, 1, ⟨2, 3, 8⟩, by decide⟩

theorem meets_arbExpiryHeld : ∃ (s : State) (t : Nat) (n : Fin 22) (g : Grant),
    (s.fabric = true) ∧ (n.val ≠ 0) ∧ (n.val ≠ 21) ∧ ((getArb s n).cyc = t) ∧ ((getArb s n).ev = ArbEv.none_) ∧ ((getArb s n).st.calm = true) ∧ ((getArb s n).st.holder = some g) ∧ ((getArb s n).st.emLast = none) ∧ (g.start + g.left ≤ t + 1) :=
  ⟨granted 1 ⟨2, 3, 1⟩, 3, 1, ⟨2, 3, 1⟩, by decide⟩

theorem meets_arbWithdrawFirst : ∃ (s : State) (t : Nat) (n : Fin 22) (p : Nat),
    (s.fabric = true) ∧ (n.val ≠ 0) ∧ ((getArb s n).cyc = t) ∧ ((getArb s n).st.calm = true) ∧ ((getArb s n).st.holder = none) ∧ ((getArb s n).st.want = []) ∧ ((getArb s n).ev = { ArbEv.none_ with reqs := [p] }) ∧ (p ∈ (getArb s n).st.rank) ∧ (p ∉ (getArb s n).masked) :=
  ⟨setArb live 1 { arbInit 1 with ev := { ArbEv.none_ with reqs := [3] } }, 0, 1, 3, by decide⟩

theorem meets_arbWithdrawWaiting : ∃ (s : State) (t : Nat) (n : Fin 22) (p : Nat) (g : Grant),
    (s.fabric = true) ∧ (n.val ≠ 0) ∧ (n.val ≠ 21) ∧ ((getArb s n).cyc = t) ∧ ((getArb s n).ev = ArbEv.none_) ∧ ((getArb s n).st.calm = true) ∧ ((getArb s n).st.holder = some g) ∧ (g.who ≠ p) :=
  ⟨setArb live 1 { arbInit 1 with cyc := 4, st := { (arbInit 1).st with want := [3], holder := some ⟨2, 3, 8⟩ } }, 4, 1, 3, ⟨2, 3, 8⟩, by decide⟩

theorem meets_emergencyPreempts : ∃ (s : State) (t : Nat) (n : Fin 22) (g : Grant),
    (s.fabric = true) ∧ (n.val ≠ 0) ∧ (n.val ≠ 21) ∧ ((getArb s n).cyc = t) ∧ ((getArb s n).ev = ArbEv.none_) ∧ ((getArb s n).st.calm = true) ∧ (arbEmOn s n = true) ∧ ((getArb s n).st.emLast = none) ∧ ((getArb s n).st.holder = some g) ∧ (t + 1 < g.start + g.left) :=
  ⟨granted 1 ⟨2, 3, 8⟩, 3, 1, ⟨2, 3, 8⟩, by decide⟩

theorem meets_emergencyEnds : ∃ (s : State) (t : Nat) (n : Fin 22) (b : Nat) (g : Grant),
    (s.fabric = true) ∧ (n.val ≠ 0) ∧ (n.val ≠ 21) ∧ ((getArb s n).cyc = t) ∧ ((getArb s n).ev = ArbEv.none_) ∧ ((getArb s n).st.emStart = some b) ∧ (b ≤ t) ∧ ((getArb s n).st.holder = none) ∧ ((getArb s n).st.resume = some g) :=
  ⟨setArb live 1 { arbInit 1 with cyc := 9, st := { (arbInit 1).st with emStart := some 6, resume := some ⟨2, 6, 5⟩ } }, 9, 1, 6, ⟨2, 6, 5⟩, by decide⟩

theorem meets_arbFrame : ∃ (s : State) (u : State) (c : Instr) (t : Nat) (n : Fin 22) (p : Nat) (ps : List Nat),
    (c ∈ [Instr.arbRequest t n ps, .arbRelease t n, .tenureExpiry t n, .arbWithdraw t n p, .emergencyRequest t n,
         .emergencyGrantEnd t n, .clearCounts t n]) ∧ (n.val ≠ 0) ∧ (n.val ≠ 21) ∧ (c = .arbRelease t n → camGranted s n t = false) ∧ (exec c s = .next u) :=
  ⟨live, rset (rset (arbTo live 1 0) R.ARB_PREEMPT_COUNT_COUNT 0 1) R.ARB_DEAD_COUNT_COUNT 0 1, .clearCounts 0 1, 0, 1, 0, [], by simp, by decide, by decide, by simp, rfl⟩

theorem meets_cameraBurst : ∃ (s : State) (t : Nat) (n : Fin 22) (p : Nat) (a : Nat) (bs : List Byte) (q : List (Nat × List Byte)),
    (s.fabric = true) ∧ (camGranted s n t = true) ∧ (s.vis.burstAt = p) ∧ (p < 4) ∧ ((tblGetD s.vis.cams p Cam.idle).buf = (a, bs) :: q) ∧ (bs.length ≤ 256) :=
  ⟨{ granted 1 ⟨4, 3, 8⟩ with vis := { live.vis with cams := [(0, { Cam.idle with buf := [(64, [7])] })] } }, 4, 1, 0, 64, [7], [], by decide⟩

theorem meets_clearCounts : ∃ (s : State) (t : Nat) (n : Fin 22),
    (s.fabric = true) ∧ (n.val ≠ 0) ∧ ((getArb s n).cyc ≤ t) :=
  ⟨live, 0, 1, by decide⟩

theorem meets_doneRegisterWrite : ∃ (s : State) (b : Blk) (inst : Nat) (off : Nat),
    (windowOpen s b inst = true) ∧ (off % 4 = 0) :=
  ⟨live, .aoc, 0, 4, by decide⟩

theorem meets_doneRw1cWrite : ∃ (s : State) (b : Blk) (inst : Nat) (off : Nat),
    (windowOpen s b inst = true) ∧ (off % 4 = 0) :=
  ⟨liveR R.AOC_PWR_STATE_BIND_ABORTED 1, .aoc, 0, 0, by decide⟩

theorem meets_doneRolRead : ∃ (s : State) (b : Blk) (inst : Nat) (off : Nat),
    (windowOpen s b inst = true) ∧ (off % 4 = 0) ∧ (((fieldsAt b inst off).any fun x => x.1.acc == .rol) = true) :=
  ⟨rolPeak live R.TKE_PEAK_FC 77, .tke, 0, 0x030, by decide⟩

theorem meets_doneLoHalfRead : ∃ (s : State) (b : Blk) (inst : Nat) (off : Nat),
    (windowOpen s b inst = true) ∧ (off % 4 = 0) ∧ (((fieldsAt b inst off).any fun x => isHalf x.1) = true) :=
  ⟨live, .tke, 0, 0x018, by decide⟩

theorem meets_doneRingEnable : ∃ (s : State) (n : Fin 256),
    (s.fabric = true) ∧ (ringEnabled s n = false) ∧ (ringIdle s n = true) ∧ (classDefined (rget s R.RING_CFG_CLASS 0 n) = true) ∧ (cqEnabled s (ringCq s n) = true) ∧ (rget s R.CQ_CFG_HOST 0 (ringCq s n) = rget s R.RING_CFG_HOST 0 n) :=
  ⟨rset (liveR R.RING_CFG_CLASS 1 0 7) R.CQ_CTRL_ENABLE 1 0 0, 7, by decide⟩

theorem meets_doneRingDisable : ∃ (s : State) (n : Fin 256),
    (s.fabric = true) ∧ (ringEnabled s n = true) :=
  ⟨liveR R.RING_CTRL_ENABLE 1 0 7, 7, by decide⟩

theorem meets_doneTailDb : ∃ (s : State) (t : Fc) (n : Fin 256) (i : Fin 65536) (p : Fin 2) (h : Bool),
    (s.fabric = true) ∧ (rbit s R.RING_CFG_HOST 0 n = h) ∧ (ringEnabled s n = true) ∧ (rbit s R.RING_CTRL_ERROR 0 n = false) ∧ (i.val < ringSize s n) ∧ (ringCount s n + ringDist (ringSize s n) (ringPos (ringSize s n) (rget s R.RING_TAIL_INDEX 0 n) (rget s R.RING_TAIL_PHASE 0 n)) (ringPos (ringSize s n) i p) ≤ ringSize s n) ∧ (disableNow (advance s t) n = false) :=
  ⟨liveR R.RING_CTRL_ENABLE 1 0 7, 0, 7, 3, 1, false, by decide⟩

theorem meets_doneAbortDb : ∃ (s : State) (t : Fc) (n : Fin 256) (i : Fin 65536) (h : Bool) (q : Req),
    (s.fabric = true) ∧ (rbit s R.RING_CFG_HOST 0 n = h) ∧ (ringOpen (advance s t) n = true) ∧ (((sameSlot s n i).find? fun q => q.aborted.isNone) = some q) ∧ (∀ b, s.till.abortAt = some b → b < max s.now t) :=
  ⟨{ liveR R.RING_CTRL_ENABLE 1 0 7 with reqs := [⟨7, 2, 0, true, none, .waiting, 0, none⟩] }, 0, 7, 2, false, ⟨7, 2, 0, true, none, .waiting, 0, none⟩, by decide, by decide, by decide, by decide, by intro b h; exact absurd h (by simp [live, liveR, rset, State.reset, Till.reset])⟩

theorem meets_doneCqEnable : ∃ (s : State) (m : Fin 64),
    (s.fabric = true) ∧ (cqEnabled s m = false) :=
  ⟨live, 3, by decide⟩

theorem meets_doneCqDisable : ∃ (s : State) (m : Fin 64),
    (s.fabric = true) ∧ (∀ n < 256, ringEnabled s n = false ∨ ringCq s n ≠ m) :=
  ⟨liveR R.CQ_CTRL_ENABLE 1 0 3, 3, by set_option maxRecDepth 10000 in decide⟩

theorem meets_doneQueueEnable : ∃ (s : State),
    (s.fabric = true) :=
  ⟨live, by decide⟩

theorem meets_doneQueueHead : ∃ (s : State),
    (s.fabric = true) :=
  ⟨live, by decide⟩

theorem meets_doneRrecHead : ∃ (s : State),
    (s.fabric = true) :=
  ⟨live, by decide⟩

theorem meets_doneHeadDb : ∃ (s : State) (m : Fin 64) (i : Fin 65536) (p : Fin 2) (h : Bool),
    (s.fabric = true) ∧ (rbit s R.CQ_CFG_HOST 0 m = h) ∧ (cqEnabled s m = true) ∧ (i.val < cqSize s m) ∧ (ringDist (cqSize s m) (ringPos (cqSize s m) (rget s R.CQ_HEAD_INDEX 0 m) (rget s R.CQ_HEAD_PHASE 0 m)) (ringPos (cqSize s m) i p) ≤
        ringDist (cqSize s m) (ringPos (cqSize s m) (rget s R.CQ_HEAD_INDEX 0 m) (rget s R.CQ_HEAD_PHASE 0 m))
          (ringPos (cqSize s m) (rget s R.CQ_WRITE_INDEX 0 m) (rget s R.CQ_WRITE_PHASE 0 m))) :=
  ⟨rset (liveR R.CQ_CTRL_ENABLE 1 0 3) R.CQ_WRITE_INDEX 4 0 3, 3, 2, 1, false, by decide⟩

theorem meets_doneFetch : ∃ (s : State) (n : Fin 256) (q : Req) (d : Desc),
    (s.fabric = true) ∧ (s.aoc.entry = none) ∧ (nextWaiting s n = some q) ∧ (q.aborted = none) ∧ (ringEnabled s n = true) ∧ (cqEnabled s (ringCq s n) = true) ∧ (rget s R.CQ_FREE_FREE 0 (ringCq s n) ≠ 0) ∧ (d.fence = false ∨ fenceClear s q = true) ∧ (headerError d q.phase (rget s R.RING_CFG_CLASS 0 n) = none) ∧ ((d.cls = 2 ∨ d.cls = 3) → d.classWord % 128 ≤ 95) ∧ ((s.vis.offs.any fun x => x.1 == q.ref && x.2.1 == d.classWord % 4) = false ∨ d.cls ≠ 4) :=
  ⟨fetchable, 7, ⟨7, 0, 0, true, none, .waiting, 0, none⟩, header 1 1, by decide⟩

theorem meets_doneTillAccept : ∃ (s : State) (t : Fc) (s1 : State) (g : Grant) (r : TillRec),
    (s.fabric = true) ∧ (s1 = arbRequest (tillTo (tillMask (advance s t)) (max s.now t)) 0 (max s.now t)
        (((s.till.posted.map (·.prod)).eraseDups).filter fun p =>
          !((arbNow (tillTo (tillMask (advance s t)) (max s.now t)) 0).holder.any fun g => g.who == p))) ∧ ((arbNow s1 0).holder = some g) ∧ (firstPosted s1 g.who = some r) ∧ ((getArb s1 0).ev.ended = false) :=
  ⟨postedOne, 4, arbRequest (tillTo (tillMask (advance postedOne 4)) 4) 0 4 [svc], ⟨svc, 4, 1⟩, ⟨svc, false, [⟨7, 0, 0⟩]⟩, by rfl, by rfl, by decide, by decide, by decide⟩

theorem meets_doneTillOutput : ∃ (s : State) (t : Fc) (a : Nat) (r : TillRec) (rest : List (Nat × TillRec)),
    (s.fabric = true) ∧ (s.till.accepted = (a, r) :: rest) ∧ (a + 8 ≤ max s.now t) :=
  ⟨{ live with till := { Till.reset with accepted := [(0, ⟨svc, false, [⟨7, 0, 0⟩]⟩)] } }, 8, 0, ⟨svc, false, [⟨7, 0, 0⟩]⟩, [], by decide⟩

theorem meets_doneCompletionWrite : ∃ (s : State) (r : Ref) (rest : List OutEntry) (q : Req) (n : Nat) (time : Nat) (c : Compl),
    (s.fabric = true) ∧ (dropPlain s.till.outQ = .completion r :: rest) ∧ (findReq s r = some q) ∧ (q.stage = .sequenced n c time) ∧ (cqEnabled s (ringCq s r.ring) = true) :=
  ⟨sequencedOne, ⟨7, 0, 0⟩, [], ⟨7, 0, 0, true, none, .sequenced 5 ⟨1, 0, none⟩ 0, 1, none⟩, 5, 0, ⟨1, 0, none⟩, by decide⟩

theorem meets_doneCqDelay : ∃ (s : State) (t : Fc) (m : Fin 64) (k : CqIrq),
    (s.fabric = true) ∧ (tblGet? s.cqIrq m = some k) ∧ (0 < k.unsignalled) ∧ (rget s R.CQ_MOD_DELAY 0 m ≠ 0) ∧ (k.firstAt + rget s R.CQ_MOD_DELAY 0 m * 400 ≤ max s.now t) ∧ (rbit s R.CQ_CFG_IRQ_EN 0 m = true) :=
  ⟨{ rset (liveR R.CQ_MOD_DELAY 1 0 3) R.CQ_CFG_IRQ_EN 1 0 3 with cqIrq := [(3, ⟨2, 0⟩)] }, 400, 3, ⟨2, 0⟩, by decide⟩

theorem meets_doneLinkDown : ∃ (s : State),
    (s.fabric = true) ∧ (rbit s R.HLK_STATUS_LINK_UP = true) :=
  ⟨liveR R.HLK_STATUS_LINK_UP 1, by decide⟩

theorem meets_doneLinkUp : ∃ (s : State) (w : Fin 8) (v : Fin 8),
    (s.fabric = true) ∧ (w.val = 1 ∨ w.val = 2 ∨ w.val = 4) ∧ (1 ≤ v.val) ∧ (v.val ≤ 4) :=
  ⟨live, 4, 3, by decide⟩

theorem meets_regWriteMisfit : ∃ (off : Nat) (size : Nat),
    (off % 4 ≠ 0 ∨ size ≠ 4) :=
  ⟨2, 4, by decide⟩

theorem meets_regWriteWord : ∃ (s : State),
    (s.fabric = true) :=
  ⟨live, by decide⟩

theorem meets_regWritePeriod : ∃ (s : State) (v : Fin 4294967296),
    (s.fabric = true) ∧ (tkeArmed s = false) ∧ (250 ≤ v.val) ∧ (v.val ≤ 20000) :=
  ⟨live, 2000, by decide⟩

theorem meets_regWriteArmed : ∃ (s : State) (v : Fin 4294967296),
    (s.fabric = true) ∧ (tkeArmed s = true ∨ v.val % 32768 < 250 ∨ 20000 < v.val % 32768) :=
  ⟨live, 20001, by decide⟩

theorem meets_rw1cClears : ∃ (s : State) (t : Fc),
    (s.fabric = true) ∧ (rget s R.AOC_PWR_STATE_BIND_ABORTED = 1) ∧ (tblGet? s.onesAt (32 * R.AOC_PWR_STATE_BIND_ABORTED.key 0 0) ≠ some (max s.now t)) :=
  ⟨liveR R.AOC_PWR_STATE_BIND_ABORTED 1, 0, by decide⟩

theorem meets_rw1cSameCycle : ∃ (s : State) (t : Fc),
    (s.fabric = true) ∧ (tblGet? s.onesAt (32 * R.AOC_PWR_STATE_BIND_ABORTED.key 0 0) = some (max s.now t)) :=
  ⟨setOnes live R.AOC_PWR_STATE_BIND_ABORTED, 0, by decide⟩

theorem meets_rolReadPeak : ∃ (s : State) (t : Fc) (a : Nat) (w : Nat) (b : Nat),
    (s.fabric = true) ∧ (tblGet? s.rolLatch (R.TKE_PEAK_FC.key 0 0) = some ⟨a, some w, none, b⟩) ∧ (a < max s.now t) ∧ (tblGet? s.hiLatch (R.TKE_PEAK_FC.key 0 0) = none) :=
  ⟨rolPeak live R.TKE_PEAK_FC 77, 5, 0, 77, 0, by decide⟩

theorem meets_loHalfLow : ∃ (s : State),
    (s.fabric = true) ∧ (s.hiLatch = []) :=
  ⟨live, by decide⟩

theorem meets_loHalfHigh : ∃ (s : State) (v : Nat),
    (s.fabric = true) ∧ (s.hiLatch = [(R.TKE_ROW_HI_ROW.key 0 0, v)]) :=
  ⟨{ live with hiLatch := [(R.TKE_ROW_HI_ROW.key 0 0, 9)] }, 9, by decide⟩

theorem meets_readMisfit : ∃ (off : Nat) (size : Nat),
    (off % 4 ≠ 0 ∨ size ≠ 4) :=
  ⟨2, 4, by decide⟩

theorem meets_ringEnables : ∃ (s : State) (n : Fin 256),
    (s.fabric = true) ∧ (ringEnabled s n = false) ∧ (ringIdle s n = true) ∧ (classDefined (rget s R.RING_CFG_CLASS 0 n) = true) ∧ (cqEnabled s (ringCq s n) = true) ∧ (rget s R.CQ_CFG_HOST 0 (ringCq s n) = rget s R.RING_CFG_HOST 0 n) :=
  ⟨rset (liveR R.RING_CFG_CLASS 1 0 7) R.CQ_CTRL_ENABLE 1 0 0, 7, by decide⟩

theorem meets_ringRefuses : ∃ (s : State) (n : Fin 256),
    (s.fabric = true) ∧ (ringEnabled s n = false) ∧ (ringIdle s n = false ∨ classDefined (rget s R.RING_CFG_CLASS 0 n) = false ∨ cqEnabled s (ringCq s n) = false ∨
        rget s R.CQ_CFG_HOST 0 (ringCq s n) ≠ rget s R.RING_CFG_HOST 0 n) :=
  ⟨live, 7, by decide⟩

theorem meets_ringDisables : ∃ (s : State) (n : Fin 256),
    (s.fabric = true) ∧ (ringEnabled s n = true) ∧ (s.reqs.all (fun q => q.ring != n.val) = true) :=
  ⟨liveR R.RING_CTRL_ENABLE 1 0 7, 7, by decide⟩

theorem meets_cqEnables : ∃ (s : State) (m : Fin 64),
    (s.fabric = true) ∧ (cqEnabled s m = false) :=
  ⟨live, 3, by decide⟩

theorem meets_cqDisables : ∃ (s : State) (m : Fin 64),
    (s.fabric = true) ∧ (∀ n < 256, ringEnabled s n = false ∨ ringCq s n ≠ m) :=
  ⟨liveR R.CQ_CTRL_ENABLE 1 0 3, 3, by set_option maxRecDepth 10000 in decide⟩

theorem meets_cqBound : ∃ (s : State) (m : Fin 64) (n : Fin 256),
    (s.fabric = true) ∧ (ringEnabled s n = true) ∧ (ringCq s n = m) :=
  ⟨liveR R.RING_CTRL_ENABLE 1 0 3, 0, 3, by decide⟩

theorem meets_queueEnables : ∃ (s : State) (q : WriteQueue),
    (s.fabric = true) ∧ (rbit s (queueOf q).1.enable (queueOf q).2.1 (queueOf q).2.2 = false) :=
  ⟨live, .telemetry, by decide⟩

theorem meets_queueDisables : ∃ (s : State),
    (s.fabric = true) :=
  ⟨live, by decide⟩

theorem meets_queueHeads : ∃ (s : State),
    (s.fabric = true) :=
  ⟨live, by decide⟩

theorem meets_rrecHeads : ∃ (s : State),
    (s.fabric = true) :=
  ⟨live, by decide⟩

theorem meets_tailSubmits : ∃ (s : State) (t : Fc) (n : Fin 256) (i : Fin 65536) (p : Fin 2) (h : Bool),
    (s.fabric = true) ∧ (rbit s R.RING_CFG_HOST 0 n = h) ∧ (ringEnabled s n = true) ∧ (rbit s R.RING_CTRL_ERROR 0 n = false) ∧ (i.val < ringSize s n) ∧ (ringCount s n + ringDist (ringSize s n) (ringPos (ringSize s n) (rget s R.RING_TAIL_INDEX 0 n) (rget s R.RING_TAIL_PHASE 0 n)) (ringPos (ringSize s n) i p) ≤ ringSize s n) ∧ (disableNow (advance s t) n = false) ∧ (∀ x ∈ s.till.noops, x.at_ < max s.now t ∨ x.ring ≠ n) :=
  ⟨liveR R.RING_CTRL_ENABLE 1 0 7, 0, 7, 3, 1, false, by decide⟩

theorem meets_tailBeyond : ∃ (s : State) (t : Fc) (n : Fin 256) (i : Fin 65536) (h : Bool),
    (s.fabric = true) ∧ (rbit s R.RING_CFG_HOST 0 n = h) ∧ (ringEnabled s n = true) ∧ (rbit s R.RING_CTRL_ERROR 0 n = false) ∧ (ringSize s n ≤ i.val) ∧ (disableNow (advance s t) n = false) :=
  ⟨liveR R.RING_CTRL_ENABLE 1 0 7, 0, 7, 16, false, by decide⟩

theorem meets_tailDiscards : ∃ (s : State) (t : Fc) (n : Fin 256) (h : Bool),
    (s.fabric = true) ∧ (rbit s R.RING_CFG_HOST 0 n ≠ h ∨ ringEnabled s n = false ∨ rbit s R.RING_CTRL_ERROR 0 n = true ∨
        disableNow (advance s t) n = true) :=
  ⟨live, 0, 7, false, by decide⟩

theorem meets_headFrees : ∃ (s : State) (m : Fin 64) (i : Fin 65536) (p : Fin 2) (h : Bool),
    (s.fabric = true) ∧ (rbit s R.CQ_CFG_HOST 0 m = h) ∧ (cqEnabled s m = true) ∧ (i.val < cqSize s m) ∧ (ringDist (cqSize s m) (ringPos (cqSize s m) (rget s R.CQ_HEAD_INDEX 0 m) (rget s R.CQ_HEAD_PHASE 0 m)) (ringPos (cqSize s m) i p) ≤ ringDist (cqSize s m) (ringPos (cqSize s m) (rget s R.CQ_HEAD_INDEX 0 m) (rget s R.CQ_HEAD_PHASE 0 m)) (ringPos (cqSize s m) (rget s R.CQ_WRITE_INDEX 0 m) (rget s R.CQ_WRITE_PHASE 0 m))) :=
  ⟨rset (liveR R.CQ_CTRL_ENABLE 1 0 3) R.CQ_WRITE_INDEX 4 0 3, 3, 2, 1, false, by decide⟩

theorem meets_headDiscards : ∃ (s : State) (m : Fin 64) (i : Fin 65536) (p : Fin 2) (h : Bool),
    (s.fabric = true) ∧ (rbit s R.CQ_CFG_HOST 0 m ≠ h ∨ cqEnabled s m = false ∨ cqSize s m ≤ i.val ∨
        ringDist (cqSize s m) (ringPos (cqSize s m) (rget s R.CQ_HEAD_INDEX 0 m) (rget s R.CQ_HEAD_PHASE 0 m)) (ringPos (cqSize s m) (rget s R.CQ_WRITE_INDEX 0 m) (rget s R.CQ_WRITE_PHASE 0 m)) < ringDist (cqSize s m) (ringPos (cqSize s m) (rget s R.CQ_HEAD_INDEX 0 m) (rget s R.CQ_HEAD_PHASE 0 m)) (ringPos (cqSize s m) i p)) :=
  ⟨live, 3, 2, 1, false, by decide⟩

theorem meets_abortMarks : ∃ (s : State) (t : Fc) (n : Fin 256) (i : Fin 65536) (h : Bool) (q : Req),
    (s.fabric = true) ∧ (rbit s R.RING_CFG_HOST 0 n = h) ∧ (ringOpen (advance s t) n = true) ∧ (((sameSlot s n i).find? fun q => q.aborted.isNone) = some q) ∧ (findReq s q.ref = some q) ∧ (q.stage = .waiting) ∧ (s.till.abortAt = none) :=
  ⟨{ liveR R.RING_CTRL_ENABLE 1 0 7 with reqs := [⟨7, 2, 0, true, none, .waiting, 0, none⟩] }, 0, 7, 2, false, ⟨7, 2, 0, true, none, .waiting, 0, none⟩, by decide⟩

theorem meets_abortNoop : ∃ (s : State) (t : Fc) (n : Fin 256) (i : Fin 65536) (h : Bool),
    (s.fabric = true) ∧ (rbit s R.RING_CFG_HOST 0 n = h) ∧ (ringOpen (advance s t) n = true) ∧ (s.till.abortAt = none) ∧ (((sameSlot s n i).find? fun q => q.aborted.isNone) = none) :=
  ⟨liveR R.RING_CTRL_ENABLE 1 0 7, 0, 7, 2, false, by decide⟩

theorem meets_fetchHands : ∃ (s : State) (n : Fin 256) (q : Req) (d : Desc),
    (s.fabric = true) ∧ (s.aoc.entry = none) ∧ (nextWaiting s n = some q) ∧ (q.aborted = none) ∧ (ringEnabled s n = true) ∧ (cqEnabled s (ringCq s n) = true) ∧ (rget s R.CQ_FREE_FREE 0 (ringCq s n) ≠ 0) ∧ (d.fence = false) ∧ ((s.vis.offs.any fun x => x.1 == q.ref && x.2.1 == d.classWord % 4) = false ∨ d.cls ≠ 4) ∧ (headerError d q.phase (rget s R.RING_CFG_CLASS 0 n) = none) ∧ (¬(d.cls = 2 ∨ d.cls = 3)) :=
  ⟨fetchable, 7, ⟨7, 0, 0, true, none, .waiting, 0, none⟩, header 1 1, by decide⟩

theorem meets_fetchRejects : ∃ (s : State) (n : Fin 256) (q : Req) (d : Desc),
    (s.fabric = true) ∧ (s.aoc.entry = none) ∧ (nextWaiting s n = some q) ∧ (q.aborted = none) ∧ (ringEnabled s n = true) ∧ (cqEnabled s (ringCq s n) = true) ∧ (rget s R.CQ_FREE_FREE 0 (ringCq s n) ≠ 0) ∧ (d.fence = false) ∧ ((s.vis.offs.any fun x => x.1 == q.ref && x.2.1 == d.classWord % 4) = false ∨ d.cls ≠ 4) ∧ (d.phase ≠ q.phase) ∧ (classIsRow (rget s R.RING_CFG_CLASS 0 n) = false) :=
  ⟨rset fetchable R.RING_CFG_CLASS 8 0 7, 7, ⟨7, 0, 0, true, none, .waiting, 0, none⟩, { header 8 1 with phase := false }, by decide⟩

theorem meets_fetchFaults : ∃ (s : State) (n : Fin 256) (q : Req),
    (s.fabric = true) ∧ (s.aoc.entry = none) ∧ (nextWaiting s n = some q) ∧ (q.aborted = none) ∧ (ringEnabled s n = true) ∧ (cqEnabled s (ringCq s n) = true) ∧ (rget s R.CQ_FREE_FREE 0 (ringCq s n) ≠ 0) :=
  ⟨fetchable, 7, ⟨7, 0, 0, true, none, .waiting, 0, none⟩, by decide⟩

theorem meets_tillAccepts : ∃ (s : State) (q : Req) (c : Compl) (ref : Ref),
    (s.fabric = true) ∧ (s.till = { Till.reset with posted := [⟨svc, false, [ref]⟩] }) ∧ (getArb s 0 = arbInit 0) ∧ (rget s R.TIL_QUEUE_FREE = 4096) ∧ (findReq s ref = some q) ∧ (q.stage = .posted c) ∧ (q.ring = ref.ring) ∧ (q.slot = ref.slot) :=
  ⟨postedOne, ⟨7, 0, 0, true, none, .posted ⟨1, 0, none⟩, 1, none⟩, ⟨1, 0, none⟩, ⟨7, 0, 0⟩, by decide⟩

theorem meets_tillOutputs : ∃ (s : State) (t : Fc) (a : Nat) (r : TillRec) (rest : List (Nat × TillRec)),
    (s.fabric = true) ∧ (s.till.accepted = (a, r) :: rest) ∧ (a + 8 ≤ max s.now t) :=
  ⟨{ live with till := { Till.reset with accepted := [(0, ⟨svc, false, [⟨7, 0, 0⟩]⟩)] } }, 8, 0, ⟨svc, false, [⟨7, 0, 0⟩]⟩, [], by decide⟩

theorem meets_completionWrites : ∃ (s : State) (r : Ref) (rest : List OutEntry) (q : Req) (n : Nat) (time : Nat) (c : Compl),
    (s.fabric = true) ∧ (s.till.outQ = .completion r :: rest) ∧ (findReq s r = some q) ∧ (q.stage = .sequenced n c time) ∧ (cqEnabled s (ringCq s r.ring) = true) :=
  ⟨sequencedOne, ⟨7, 0, 0⟩, [], ⟨7, 0, 0, true, none, .sequenced 5 ⟨1, 0, none⟩ 0, 1, none⟩, 5, 0, ⟨1, 0, none⟩, by decide⟩

theorem meets_delayRaises : ∃ (s : State) (t : Fc) (m : Fin 64) (k : CqIrq) (v : Nat),
    (s.fabric = true) ∧ (tblGet? s.cqIrq m = some k) ∧ (0 < k.unsignalled) ∧ (rget s R.CQ_MOD_DELAY 0 m ≠ 0) ∧ (k.firstAt + rget s R.CQ_MOD_DELAY 0 m * 400 ≤ max s.now t) ∧ (rbit s R.CQ_CFG_IRQ_EN 0 m = true) ∧ (rget s R.CQ_CFG_VECTOR 0 m = v) ∧ (rbit s R.CQ_CFG_HOST 0 m = false ∨ (v < 128 ∧ rbit s R.MSIX_MASK 0 v = false)) :=
  ⟨{ rset (liveR R.CQ_MOD_DELAY 1 0 3) R.CQ_CFG_IRQ_EN 1 0 3 with cqIrq := [(3, ⟨2, 0⟩)] }, 400, 3, ⟨2, 0⟩, 0, by decide⟩

theorem meets_linkDown : ∃ (s : State),
    (s.fabric = true) ∧ (rbit s R.HLK_STATUS_LINK_UP = true) :=
  ⟨rset (rset (liveR R.HLK_STATUS_LINK_UP 1) R.RING_CFG_HOST 1 0 7) R.RING_CTRL_ENABLE 1 0 7, by decide⟩

theorem meets_linkUp : ∃ (s : State) (w : Fin 8) (v : Fin 8),
    (s.fabric = true) ∧ (w.val = 1 ∨ w.val = 2 ∨ w.val = 4) ∧ (1 ≤ v.val) ∧ (v.val ≤ 4) :=
  ⟨live, 4, 3, by decide⟩

theorem meets_edgeMoves : ∃ (s : State) (t : Fc),
    (s.fabric = true) ∧ (s.tke.running = true) ∧ (s.tke.rowStart + s.tke.rowLen ≤ max s.now t) ∧ (s.tke.held = []) :=
  ⟨inRow, 400000, by decide⟩

theorem meets_edgeFrame : ∃ (s : State) (t : Fc),
    (s.fabric = true) ∧ (s.tke.running = true) ∧ (s.tke.rowStart + s.tke.rowLen ≤ max s.now t) ∧ (s.tke.held = []) ∧ (pairEn s = false) :=
  ⟨inRow, 400000, by decide⟩

theorem meets_edgeRuns : ∃ (s : State) (t : Fc) (p : Pattern),
    (s.fabric = true) ∧ (s.tke.running = true) ∧ (s.tke.rowStart + s.tke.rowLen ≤ max s.now t) ∧ (s.tke.held = []) ∧ (pairEn s = false) ∧ (tkeArmed (beforeRegs (advance s t)) = true) ∧ (tkeArmed s = true) ∧ (commanding s = true) ∧ (s.tke.main = some p) ∧ (s.tke.pending = none) ∧ (s.tke.promote = []) ∧ (rbit s R.TKE_CTRL_FALLBACK_ACTIVE = false) :=
  ⟨inRow, 400000, onePattern, by decide⟩

theorem meets_edgeEarly : ∃ (s : State) (t : Fc),
    (s.fabric = true) ∧ (s.tke.running = false ∨ max s.now t < s.tke.rowStart + s.tke.rowLen) :=
  ⟨inRow, 399999, by decide⟩

theorem meets_gathers : ∃ (s : State) (t : Fc) (st : Stitch) (l : List Stitch),
    (s.fabric = true) ∧ (s.tke.todo = st :: l) ∧ (st.typ = 1) ∧ (max s.now t < commitAt s) :=
  ⟨inRow [stitchOf 1 2 3 64], 100, stitchOf 1 2 3 64, [], by decide⟩

theorem meets_estimates : ∃ (s : State) (t : Fc) (st : Stitch) (l : List Stitch),
    (s.fabric = true) ∧ (s.tke.todo = st :: l) ∧ (st.typ = 2) ∧ (max s.now t < commitAt s) :=
  ⟨inRow [stitchOf 2 2 3 0], 100, stitchOf 2 2 3 0, [], by decide⟩

theorem meets_selectsRegion : ∃ (s : State) (t : Fc) (st : Stitch) (l : List Stitch) (ts : List Nat),
    (s.fabric = true) ∧ (s.tke.todo = st :: l) ∧ (st.typ = 3) ∧ (max s.now t < commitAt s) ∧ (liveSet s = some ts) :=
  ⟨inRowSet [] [stitchOf 3 1 0 0], 100, stitchOf 3 1 0 0, [], [], by decide⟩

theorem meets_solves : ∃ (s : State) (t : Fc) (st : Stitch) (l : List Stitch) (ts : List Nat),
    (s.fabric = true) ∧ (s.tke.todo = st :: l) ∧ (st.typ = 4) ∧ (max s.now t < commitAt s) ∧ (liveSet s = some ts) :=
  ⟨inRowSet [] [stitchOf 4 1 0 0], 100, stitchOf 4 1 0 0, [], [], by decide⟩

theorem meets_loopsRun : ∃ (s : State) (t : Fc) (st : Stitch) (l : List Stitch) (ts : List Nat),
    (s.fabric = true) ∧ (s.tke.todo = st :: l) ∧ (st.typ = 5) ∧ (max s.now t < commitAt s) ∧ (liveSet s = some ts) :=
  ⟨inRowSet [] [stitchOf 5 2 3 0], 100, stitchOf 5 2 3 0, [], [], by decide⟩

theorem meets_stagesDrive : ∃ (s : State) (t : Fc) (st : Stitch) (l : List Stitch),
    (s.fabric = true) ∧ (s.tke.todo = st :: l) ∧ (st.typ = 6) ∧ (max s.now t < commitAt s) :=
  ⟨inRow [stitchOf 6 2 3 0], 100, stitchOf 6 2 3 0, [], by decide⟩

theorem meets_stagesSwitch : ∃ (s : State) (t : Fc) (st : Stitch) (l : List Stitch),
    (s.fabric = true) ∧ (s.tke.todo = st :: l) ∧ (st.typ = 7) ∧ (max s.now t < commitAt s) :=
  ⟨inRow [stitchOf 7 2 3 0], 100, stitchOf 7 2 3 0, [], by decide⟩

theorem meets_computes : ∃ (s : State) (t : Fc) (st : Stitch) (l : List Stitch),
    (s.fabric = true) ∧ (s.tke.todo = st :: l) ∧ (st.typ = 8) ∧ (max s.now t < commitAt s) :=
  ⟨inRow [stitchOf 8 2 3 0], 100, stitchOf 8 2 3 0, [], by decide⟩

theorem meets_stagesCan : ∃ (s : State) (t : Fc) (st : Stitch) (l : List Stitch),
    (s.fabric = true) ∧ (s.tke.todo = st :: l) ∧ (st.typ = 9) ∧ (max s.now t < commitAt s) :=
  ⟨inRow [stitchOf 9 2 3 0], 100, stitchOf 9 2 3 0, [], by decide⟩

theorem meets_mirrors : ∃ (s : State) (t : Fc) (st : Stitch) (l : List Stitch),
    (s.fabric = true) ∧ (s.tke.todo = st :: l) ∧ (st.typ = 10) ∧ (max s.now t < commitAt s) ∧ (role s = 2) :=
  ⟨rset (inRow [stitchOf 10 2 3 0]) R.XLK_ROLE_ROLE 2, 100, stitchOf 10 2 3 0, [], by decide⟩

theorem meets_stitchLate : ∃ (s : State) (t : Fc),
    (s.fabric = true) ∧ (s.tke.todo = [] ∨ commitAt s < max s.now t) :=
  ⟨inRow, 100, by decide⟩

theorem meets_commitMakesGood : ∃ (s : State) (t : Fc),
    (s.fabric = true) ∧ (s.tke.running = true) ∧ (s.tke.committed = false) ∧ (commitAt s ≤ max s.now t) ∧ (s.tke.rowArmed = true) ∧ (s.tke.disarmAt = none) ∧ (tkeArmed s = true) ∧ (commanding s = true) ∧ (s.tke.overrun = none) ∧ (s.tke.todo = []) :=
  ⟨inRow, 200000, by decide⟩

theorem meets_overrunCounts : ∃ (s : State) (t : Fc),
    (s.fabric = true) ∧ (s.tke.running = true) ∧ (s.tke.committed = false) ∧ (commitAt s ≤ max s.now t) ∧ (s.tke.rowArmed = true) ∧ (s.tke.disarmAt = none) ∧ (tkeArmed s = true) ∧ (commanding s = true) ∧ (s.tke.overrun ≠ none ∨ s.tke.todo ≠ []) ∧ (rget s R.TKE_OVERRUN_CONSEC < 2) :=
  ⟨inRow [stitchOf 8 1 0 0], 200000, by decide⟩

theorem meets_thirdDemotes : ∃ (s : State) (t : Fc),
    (s.fabric = true) ∧ (s.tke.running = true) ∧ (s.tke.committed = false) ∧ (commitAt s ≤ max s.now t) ∧ (s.tke.rowArmed = true) ∧ (s.tke.disarmAt = none) ∧ (tkeArmed s = true) ∧ (commanding s = true) ∧ (s.tke.overrun ≠ none ∨ s.tke.todo ≠ []) ∧ (2 ≤ rget s R.TKE_OVERRUN_CONSEC) ∧ (s.tke.rowFallback = false) :=
  ⟨rset (inRow [stitchOf 8 1 0 0]) R.TKE_OVERRUN_CONSEC 2, 200000, by decide⟩

theorem meets_thirdStops : ∃ (s : State) (t : Fc),
    (s.fabric = true) ∧ (s.tke.running = true) ∧ (s.tke.committed = false) ∧ (commitAt s ≤ max s.now t) ∧ (s.tke.rowArmed = true) ∧ (s.tke.disarmAt = none) ∧ (tkeArmed s = true) ∧ (commanding s = true) ∧ (s.tke.overrun ≠ none ∨ s.tke.todo ≠ []) ∧ (2 ≤ rget s R.TKE_OVERRUN_CONSEC) ∧ (s.tke.rowFallback = true) :=
  ⟨(fun x : State => { x with tke := { x.tke with rowFallback := true } }) (rset (inRow [stitchOf 8 1 0 0]) R.TKE_OVERRUN_CONSEC 2), 200000, by decide⟩

theorem meets_unarmedCommits : ∃ (s : State) (t : Fc),
    (s.fabric = true) ∧ (s.tke.running = true) ∧ (s.tke.committed = false) ∧ (commitAt s ≤ max s.now t) ∧ (s.tke.rowArmed = false) ∧ (commanding s = true) :=
  ⟨(fun x : State => { x with tke := { x.tke with rowArmed := false } }) inRow, 200000, by decide⟩

theorem meets_flushPosts : ∃ (s : State) (t : Fc),
    (s.fabric = true) ∧ (s.tke.committed = true) ∧ (s.tke.flushed = false) ∧ (commitAt s + 256 ≤ max s.now t) :=
  ⟨(fun x : State => { x with tke := { x.tke with committed := true } }) inRow, 200256, by decide⟩

theorem meets_dissenterMasked : ∃ (s : State) (l : List Nat) (x : Fin 4) (v : Nat),
    (s.fabric = true) ∧ (rget s R.TKE_LOCKSTEP_MASKED = 0) ∧ (∀ k : Fin 4, k ≠ x → l.getD k 0 = v) ∧ (l.getD x 0 ≠ v) :=
  ⟨inRow, [5, 5, 6, 5], 2, 5, by decide⟩

theorem meets_splitEnds : ∃ (s : State) (t : Fc) (a : Nat) (b : Nat),
    (s.fabric = true) ∧ (rget s R.TKE_LOCKSTEP_MASKED = 0) ∧ (a ≠ b) ∧ (s.tke.rowArmed = true) ∧ (s.tke.committed = false) ∧ (s.tke.overrun = none) ∧ (max s.now t < commitAt s) :=
  ⟨inRow [stitchOf 8 1 0 0], 10, 5, 6, by decide⟩

theorem meets_loadBegins : ∃ (s : State) (t : Fc) (r : Ref) (d : Desc),
    (s.fabric = true) ∧ (heldDesc s r 1 1 = some d) ∧ (due (advance s t) d = true) ∧ (tkeServes s r = true) ∧ (commanding s = true) ∧ (d.classWord % 2 = 0 ∨ tkeArmed s = false) ∧ (64 ≤ d.word 0x18) ∧ (d.word 0x18 ≤ 0x200000) :=
  ⟨holding ({ header 1 1 with classWord := 0, body := [0, 0, 80] ++ List.replicate 9 0 }) (live), 0, ⟨7, 0, 0⟩, { header 1 1 with classWord := 0, body := [0, 0, 80] ++ List.replicate 9 0 }, by decide⟩

theorem meets_loadToFallback : ∃ (s : State) (t : Fc) (r : Ref) (d : Desc),
    (s.fabric = true) ∧ (heldDesc s r 1 1 = some d) ∧ (due (advance s t) d = true) ∧ (tkeServes s r = true) ∧ (commanding s = true) ∧ (d.classWord % 2 = 1) ∧ (tkeArmed s = true) :=
  ⟨holding ({ header 1 1 with classWord := 1, body := [0, 0, 80] ++ List.replicate 9 0 }) (liveR R.TKE_CTRL_ARMED 1), 0, ⟨7, 0, 0⟩, { header 1 1 with classWord := 1, body := [0, 0, 80] ++ List.replicate 9 0 }, by decide⟩

theorem meets_loadLength : ∃ (s : State) (t : Fc) (r : Ref) (d : Desc),
    (s.fabric = true) ∧ (heldDesc s r 1 1 = some d) ∧ (due (advance s t) d = true) ∧ (tkeServes s r = true) ∧ (commanding s = true) ∧ (d.classWord % 2 = 0 ∨ tkeArmed s = false) ∧ (d.word 0x18 < 64) :=
  ⟨holding ({ header 1 1 with classWord := 0, body := [0, 0, 63] ++ List.replicate 9 0 }) (live), 0, ⟨7, 0, 0⟩, { header 1 1 with classWord := 0, body := [0, 0, 63] ++ List.replicate 9 0 }, by decide⟩

theorem meets_loadTooLong : ∃ (s : State) (t : Fc) (r : Ref) (d : Desc),
    (s.fabric = true) ∧ (heldDesc s r 1 1 = some d) ∧ (due (advance s t) d = true) ∧ (tkeServes s r = true) ∧ (commanding s = true) ∧ (d.classWord % 2 = 0 ∨ tkeArmed s = false) ∧ (0x200000 < d.word 0x18) :=
  ⟨holding ({ header 1 1 with classWord := 0, body := [0, 0, 0x200001] ++ List.replicate 9 0 }) (live), 0, ⟨7, 0, 0⟩, { header 1 1 with classWord := 0, body := [0, 0, 0x200001] ++ List.replicate 9 0 }, by decide⟩

theorem meets_admissionEcc : ∃ (s : State) (t : Fc) (r : Ref) (d : Desc) (img : List Nat) (n : Nat),
    (s.fabric = true) ∧ (edgeDue (advance s t) = false) ∧ (s.tke.loadPat = some (r, n, img)) ∧ (reqDesc s r = some d) :=
  ⟨(fun x : State => { x with tke := { x.tke with loadPat := some (⟨7, 0, 0⟩, 0, []) } }) (holding ({ header 1 1 with classWord := 0, body := [0, 0, 80] ++ List.replicate 9 0 }) (live)), 0, ⟨7, 0, 0⟩, { header 1 1 with classWord := 0, body := [0, 0, 80] ++ List.replicate 9 0 }, [], 0, by decide⟩

theorem meets_admissionRejects : ∃ (s : State) (t : Fc) (r : Ref) (d : Desc) (img : List Nat) (n : Nat) (st : Nat) (e : Nat),
    (s.fabric = true) ∧ (edgeDue (advance s t) = false) ∧ (s.tke.loadPat = some (r, n, img)) ∧ (reqDesc s r = some d) ∧ (checkPattern s (n == 1) (d.word 0x18) img = .rejected st e) :=
  ⟨(fun x : State => { x with tke := { x.tke with loadPat := some (⟨7, 0, 0⟩, 0, []) } }) (holding ({ header 1 1 with classWord := 0, body := [0, 0, 80] ++ List.replicate 9 0 }) (live)), 0, ⟨7, 0, 0⟩, { header 1 1 with classWord := 0, body := [0, 0, 80] ++ List.replicate 9 0 }, [], 0, stRejectFormat, 0x0101, by decide⟩

theorem meets_admittedMain : ∃ (s : State) (t : Fc) (r : Ref) (d : Desc) (img : List Nat) (p : Pattern),
    (s.fabric = true) ∧ (edgeDue (advance s t) = false) ∧ (s.tke.loadPat = some (r, 0, img)) ∧ (reqDesc s r = some d) ∧ (checkPattern s false (d.word 0x18) img = .admitted p) ∧ (tkeArmed s = false) ∧ (s.tke.pending = none) :=
  ⟨(fun x : State => { x with tke := { x.tke with loadPat := some (⟨7, 0, 0⟩, 0, goodPattern) } }) (holding ({ header 1 1 with classWord := 0, body := [0, 0, 80] ++ List.replicate 9 0 }) (live)), 0, ⟨7, 0, 0⟩, { header 1 1 with classWord := 0, body := [0, 0, 80] ++ List.replicate 9 0 }, goodPattern, admittedPattern, by decide, by decide, by decide, by decide, by decide +kernel, by decide, by decide⟩

theorem meets_admittedFallback : ∃ (s : State) (t : Fc) (r : Ref) (d : Desc) (img : List Nat) (p : Pattern),
    (s.fabric = true) ∧ (edgeDue (advance s t) = false) ∧ (s.tke.loadPat = some (r, 1, img)) ∧ (reqDesc s r = some d) ∧ (checkPattern s true (d.word 0x18) img = .admitted p) ∧ (tkeArmed s = false) :=
  ⟨(fun x : State => { x with tke := { x.tke with loadPat := some (⟨7, 0, 0⟩, 1, goodPattern) } }) (holding ({ header 1 1 with classWord := 1, body := [0, 0, 80] ++ List.replicate 9 0 }) (live)), 0, ⟨7, 0, 0⟩, { header 1 1 with classWord := 1, body := [0, 0, 80] ++ List.replicate 9 0 }, goodPattern, admittedPattern, by decide, by decide, by decide, by decide, by decide +kernel, by decide⟩

theorem meets_admittedWaits : ∃ (s : State) (t : Fc) (r : Ref) (d : Desc) (img : List Nat) (p : Pattern) (q : Pattern) (r0 : Ref) (a : Nat) (e : Nat),
    (s.fabric = true) ∧ (edgeDue (advance s t) = false) ∧ (s.tke.loadPat = some (r, 0, img)) ∧ (reqDesc s r = some d) ∧ (checkPattern s false (d.word 0x18) img = .admitted p) ∧ (tkeArmed s = true) ∧ (forwarding s = false) ∧ (s.tke.pending = some ⟨q, some r0, a, e⟩) :=
  ⟨(fun x : State => { x with tke := { x.tke with pending := some ⟨onePattern, some ⟨7, 1, 0⟩, 0, 5⟩ } }) ((fun x : State => { x with tke := { x.tke with loadPat := some (⟨7, 0, 0⟩, 0, goodPattern) } }) (holding ({ header 1 1 with classWord := 0, body := [0, 0, 80] ++ List.replicate 9 0 }) (liveR R.TKE_CTRL_ARMED 1))), 0, ⟨7, 0, 0⟩, { header 1 1 with classWord := 0, body := [0, 0, 80] ++ List.replicate 9 0 }, goodPattern, admittedPattern, onePattern, ⟨7, 1, 0⟩, 0, 5, by decide, by decide, by decide, by decide, by decide +kernel, by decide, by decide, by decide⟩

theorem meets_setBegins : ∃ (s : State) (t : Fc) (r : Ref) (d : Desc),
    (s.fabric = true) ∧ (heldDesc s r 1 2 = some d) ∧ (due (advance s t) d = true) ∧ (tkeServes s r = true) ∧ (commanding s = true) ∧ (64 ≤ d.word 0x18) ∧ (d.word 0x18 ≤ 0x100000) :=
  ⟨holding ({ header 1 2 with classWord := 0, body := [0, 0, 16384] ++ List.replicate 9 0 }) (live), 0, ⟨7, 0, 0⟩, { header 1 2 with classWord := 0, body := [0, 0, 16384] ++ List.replicate 9 0 }, by decide⟩

theorem meets_setLength : ∃ (s : State) (t : Fc) (r : Ref) (d : Desc),
    (s.fabric = true) ∧ (heldDesc s r 1 2 = some d) ∧ (due (advance s t) d = true) ∧ (tkeServes s r = true) ∧ (commanding s = true) ∧ (d.word 0x18 < 64) :=
  ⟨holding ({ header 1 2 with classWord := 0, body := [0, 0, 63] ++ List.replicate 9 0 }) (live), 0, ⟨7, 0, 0⟩, { header 1 2 with classWord := 0, body := [0, 0, 63] ++ List.replicate 9 0 }, by decide⟩

theorem meets_setEcc : ∃ (s : State) (t : Fc) (r : Ref) (d : Desc) (b : Nat) (img : List Nat),
    (s.fabric = true) ∧ (edgeDue (advance s t) = false) ∧ (s.tke.loadTbl = some (r, b, img)) ∧ (reqDesc s r = some d) :=
  ⟨(fun x : State => { x with tke := { x.tke with loadTbl := some (⟨7, 0, 0⟩, 0, []) } }) (holding ({ header 1 2 with classWord := 0, body := [0, 0, 16384] ++ List.replicate 9 0 }) (live)), 0, ⟨7, 0, 0⟩, { header 1 2 with classWord := 0, body := [0, 0, 16384] ++ List.replicate 9 0 }, 0, [], by decide⟩

theorem meets_setFails : ∃ (s : State) (t : Fc) (r : Ref) (d : Desc) (b : Nat) (img : List Nat) (e : Nat),
    (s.fabric = true) ∧ (edgeDue (advance s t) = false) ∧ (s.tke.loadTbl = some (r, b, img)) ∧ (reqDesc s r = some d) ∧ (checkTable (d.word 0x18) img = some e) :=
  ⟨(fun x : State => { x with tke := { x.tke with loadTbl := some (⟨7, 0, 0⟩, 0, []) } }) (holding ({ header 1 2 with classWord := 0, body := [0, 0, 16384] ++ List.replicate 9 0 }) (live)), 0, ⟨7, 0, 0⟩, { header 1 2 with classWord := 0, body := [0, 0, 16384] ++ List.replicate 9 0 }, 0, [], 0x0110, by decide⟩

theorem meets_setPends : ∃ (s : State) (t : Fc) (r : Ref) (d : Desc) (b : Nat) (img : List Nat),
    (s.fabric = true) ∧ (edgeDue (advance s t) = false) ∧ (s.tke.loadTbl = some (r, b, img)) ∧ (reqDesc s r = some d) ∧ (checkTable (d.word 0x18) img = none) ∧ (forwarding s = false) ∧ (b ≤ 2) :=
  ⟨(fun x : State => { x with tke := { x.tke with loadTbl := some (⟨7, 0, 0⟩, 0, goodTable) } }) (holding ({ header 1 2 with classWord := 0, body := [0, 0, 16384] ++ List.replicate 9 0 }) (live)), 0, ⟨7, 0, 0⟩, { header 1 2 with classWord := 0, body := [0, 0, 16384] ++ List.replicate 9 0 }, 0, goodTable, rfl, rfl, rfl, by decide, goodTable_passes, by decide, by decide⟩

theorem meets_promoteWaits : ∃ (s : State) (t : Fc) (r : Ref) (d : Desc),
    (s.fabric = true) ∧ (heldDesc s r 1 3 = some d) ∧ (due (advance s t) d = true) ∧ (edgeDue (advance s t) = false) ∧ (tkeServes s r = true) ∧ (commanding s = true) ∧ (tkeArmed s = false ∨ rbit s R.TKE_CTRL_FALLBACK_ACTIVE = true) ∧ (s.tke.rowArmed = false ∨ (s.tke.rowFallback = true ∧ rbit s R.TKE_CTRL_STOPPED = false)) :=
  ⟨holding (header 1 3) (live), 0, ⟨7, 0, 0⟩, header 1 3, by decide⟩

theorem meets_promoteRefused : ∃ (s : State) (t : Fc) (r : Ref) (d : Desc),
    (s.fabric = true) ∧ (heldDesc s r 1 3 = some d) ∧ (due (advance s t) d = true) ∧ (edgeDue (advance s t) = false) ∧ (tkeServes s r = true) ∧ (commanding s = true) ∧ (tkeArmed s = true) ∧ (rbit s R.TKE_CTRL_FALLBACK_ACTIVE = false) :=
  ⟨holding (header 1 3) (liveR R.TKE_CTRL_ARMED 1), 0, ⟨7, 0, 0⟩, header 1 3, by decide⟩

theorem meets_admittedPatternFits : ∃ (s : State) (fb : Bool) (n : Nat) (img : List Nat) (p : Pattern),
    (checkPattern s fb n img = .admitted p) :=
  ⟨live, false, 80, goodPattern, admittedPattern, goodPattern_admitted⟩

theorem meets_acceptedTableSound : ∃ (n : Nat) (ts : List Nat),
    (checkTable n ts = none) :=
  ⟨0x4000, goodTable, goodTable_passes⟩

theorem meets_armsSingle : ∃ (s : State),
    (s.fabric = true) ∧ (tkeArmed s = false) ∧ (armError s = 0) ∧ (pairEn s = false) :=
  ⟨(fun x : State => { x with tke := { x.tke with main := some onePattern, fallback := some onePattern } }) (liveR R.TKE_TABLE_STATE_LIVE_BUF 0), by decide +kernel⟩

theorem meets_armsPaired : ∃ (s : State),
    (s.fabric = true) ∧ (tkeArmed s = false) ∧ (armError s = 0) ∧ (pairEn s = true) :=
  ⟨rset ((fun x : State => { x with tke := { x.tke with main := some onePattern, fallback := some onePattern } }) (liveR R.TKE_TABLE_STATE_LIVE_BUF 0)) R.XLK_PAIR_CFG_PAIR_EN 1, by decide +kernel⟩

theorem meets_armRefused : ∃ (s : State),
    (s.fabric = true) ∧ (tkeArmed s = false) ∧ (armError s ≠ 0) :=
  ⟨live, by decide⟩

theorem meets_armNeedsMain : ∃ (s : State),
    (s.fabric = true) ∧ (tkeArmed s = false) ∧ (s.tke.main = none) :=
  ⟨live, by decide⟩

theorem meets_armNeedsOffset : ∃ (s : State) (m : Pattern) (f : Pattern),
    (s.fabric = true) ∧ (tkeArmed s = false) ∧ (s.tke.main = some m) ∧ (s.tke.fallback = some f) ∧ (rget s R.TKE_TABLE_STATE_LIVE_BUF ≠ 3) ∧ (recheck s m = 0) ∧ (recheck s f = 0) ∧ (0 < rget s R.TKE_COMMIT_OFFSET_OFFSET_US) ∧ (rget s R.TKE_COMMIT_OFFSET_OFFSET_US < 100) :=
  ⟨rset ((fun x : State => { x with tke := { x.tke with main := some onePattern, fallback := some onePattern } }) (liveR R.TKE_TABLE_STATE_LIVE_BUF 0)) R.TKE_COMMIT_OFFSET_OFFSET_US 99, onePattern, onePattern, by decide⟩

theorem meets_disarms : ∃ (s : State),
    (s.fabric = true) :=
  ⟨inRow, by decide⟩

theorem meets_qualTaken : ∃ (s : State) (t : Fc) (r : Ref) (d : Desc),
    (s.fabric = true) ∧ (heldDesc s r 0xB 0x20 = some d) ∧ (due (advance s t) d = true) ∧ (commanding s = true) ∧ (d.classWord < 16) ∧ (d.word 0x14 < 2) ∧ (∀ k < 8, d.word (0x20 + 4 * k) = 0) ∧ (rget s R.SPS_QUAL_CFG_SOURCE 0 (d.classWord % 16) = 2) ∧ (∀ v, tblGet? s.sps.posts (d.classWord % 16) = some v → v.stamp ≤ d.quad 0x18) :=
  ⟨holding ({ header 11 0x20 with classWord := 3, body := [5, 1, 9, 0, 0, 0, 0, 0, 0, 0, 0, 0] }) (rset live R.SPS_QUAL_CFG_SOURCE 2 0 3), 0, ⟨7, 0, 0⟩, { header 11 0x20 with classWord := 3, body := [5, 1, 9, 0, 0, 0, 0, 0, 0, 0, 0, 0] }, by decide, by decide, by decide, by decide, by decide, by decide, by decide, by decide, by simp [holding, live, State.reset, Sps.reset, rset, tblGet?]⟩

theorem meets_qualOlder : ∃ (s : State) (t : Fc) (r : Ref) (d : Desc) (v : QVal),
    (s.fabric = true) ∧ (heldDesc s r 0xB 0x20 = some d) ∧ (due (advance s t) d = true) ∧ (commanding s = true) ∧ (d.classWord < 16) ∧ (d.word 0x14 < 2) ∧ (∀ k < 8, d.word (0x20 + 4 * k) = 0) ∧ (rget s R.SPS_QUAL_CFG_SOURCE 0 (d.classWord % 16) = 2) ∧ (tblGet? s.sps.posts (d.classWord % 16) = some v) ∧ (d.quad 0x18 < v.stamp) :=
  ⟨holding ({ header 11 0x20 with classWord := 3, body := [5, 1, 9, 0, 0, 0, 0, 0, 0, 0, 0, 0] }) ({ rset live R.SPS_QUAL_CFG_SOURCE 2 0 3 with sps := { Sps.reset with posts := [(3, ⟨1, false, 10⟩)] } }), 0, ⟨7, 0, 0⟩, { header 11 0x20 with classWord := 3, body := [5, 1, 9, 0, 0, 0, 0, 0, 0, 0, 0, 0] }, ⟨1, false, 10⟩, by decide⟩

theorem meets_qualSource : ∃ (s : State) (t : Fc) (r : Ref) (d : Desc),
    (s.fabric = true) ∧ (heldDesc s r 0xB 0x20 = some d) ∧ (due (advance s t) d = true) ∧ (commanding s = true) ∧ (d.classWord < 16) ∧ (d.word 0x14 < 2) ∧ (∀ k < 8, d.word (0x20 + 4 * k) = 0) ∧ (rget s R.SPS_QUAL_CFG_SOURCE 0 (d.classWord % 16) ≠ 2) :=
  ⟨holding ({ header 11 0x20 with classWord := 3, body := [5, 1, 9, 0, 0, 0, 0, 0, 0, 0, 0, 0] }) (live), 0, ⟨7, 0, 0⟩, { header 11 0x20 with classWord := 3, body := [5, 1, 9, 0, 0, 0, 0, 0, 0, 0, 0, 0] }, by decide⟩

theorem meets_qualForbidden : ∃ (s : State) (t : Fc) (r : Ref) (d : Desc),
    (s.fabric = true) ∧ (heldDesc s r 0xB 0x20 = some d) ∧ (due (advance s t) d = true) ∧ (commanding s = false) :=
  ⟨holding ({ header 11 0x20 with classWord := 3, body := [5, 1, 9, 0, 0, 0, 0, 0, 0, 0, 0, 0] }) (rset live R.XLK_ROLE_ROLE 4), 0, ⟨7, 0, 0⟩, { header 11 0x20 with classWord := 3, body := [5, 1, 9, 0, 0, 0, 0, 0, 0, 0, 0, 0] }, by decide⟩

theorem meets_envelopeWaits : ∃ (s : State) (t : Fc) (r : Ref) (d : Desc) (ts : List Nat),
    (s.fabric = true) ∧ (heldDesc s r 0xB 0x21 = some d) ∧ (due (advance s t) d = true) ∧ (edgeDue (advance s t) = false) ∧ (commanding s = true) ∧ (d.classWord < 32) ∧ (∀ k < 9, d.word (0x1C + 4 * k) = 0) ∧ (d.word 0x18 = 0) ∧ (fFinite (d.word 0x10) = true) ∧ (fFinite (d.word 0x14) = true) ∧ (fLt (d.word 0x14) (d.word 0x10) = false) ∧ (liveSet s = some ts) ∧ (fLt (d.word 0x14) (tsHardLo ts (d.classWord % 32)) = false) ∧ (fLt (tsHardHi ts (d.classWord % 32)) (d.word 0x10) = false) :=
  ⟨holding ({ header 11 0x21 with classWord := 3, body := [0, 0, 0, 0, 0, 0, 0, 0, 0, 0, 0, 0] }) (inRowSet [] []), 0, ⟨7, 0, 0⟩, { header 11 0x21 with classWord := 3, body := [0, 0, 0, 0, 0, 0, 0, 0, 0, 0, 0, 0] }, [], by decide⟩

theorem meets_envelopeReleases : ∃ (s : State) (t : Fc) (r : Ref) (d : Desc),
    (s.fabric = true) ∧ (heldDesc s r 0xB 0x21 = some d) ∧ (due (advance s t) d = true) ∧ (edgeDue (advance s t) = false) ∧ (commanding s = true) ∧ (d.classWord < 32) ∧ (∀ k < 9, d.word (0x1C + 4 * k) = 0) ∧ (d.word 0x18 = 1) :=
  ⟨holding ({ header 11 0x21 with classWord := 3, body := [0, 0, 1, 0, 0, 0, 0, 0, 0, 0, 0, 0] }) ({ live with sps := { Sps.reset with envPend := [(3, ⟨none, some ⟨7, 5, 0⟩⟩)] } }), 0, ⟨7, 0, 0⟩, { header 11 0x21 with classWord := 3, body := [0, 0, 1, 0, 0, 0, 0, 0, 0, 0, 0, 0] }, by decide⟩

theorem meets_envelopeValues : ∃ (s : State) (t : Fc) (r : Ref) (d : Desc),
    (s.fabric = true) ∧ (heldDesc s r 0xB 0x21 = some d) ∧ (due (advance s t) d = true) ∧ (edgeDue (advance s t) = false) ∧ (commanding s = true) ∧ (d.classWord < 32) ∧ (∀ k < 9, d.word (0x1C + 4 * k) = 0) ∧ (d.word 0x18 = 0) ∧ (fFinite (d.word 0x10) = false ∨ fFinite (d.word 0x14) = false ∨ fLt (d.word 0x14) (d.word 0x10) = true) :=
  ⟨holding ({ header 11 0x21 with classWord := 3, body := [0x7F800000, 0, 0, 0, 0, 0, 0, 0, 0, 0, 0, 0] }) (live), 0, ⟨7, 0, 0⟩, { header 11 0x21 with classWord := 3, body := [0x7F800000, 0, 0, 0, 0, 0, 0, 0, 0, 0, 0, 0] }, by decide⟩

theorem meets_envelopeNoTable : ∃ (s : State) (t : Fc) (r : Ref) (d : Desc),
    (s.fabric = true) ∧ (heldDesc s r 0xB 0x21 = some d) ∧ (due (advance s t) d = true) ∧ (edgeDue (advance s t) = false) ∧ (commanding s = true) ∧ (d.classWord < 32) ∧ (∀ k < 9, d.word (0x1C + 4 * k) = 0) ∧ (d.word 0x18 = 0) ∧ (fFinite (d.word 0x10) = true) ∧ (fFinite (d.word 0x14) = true) ∧ (fLt (d.word 0x14) (d.word 0x10) = false) ∧ (liveSet s = none) :=
  ⟨holding ({ header 11 0x21 with classWord := 3, body := [0, 0, 0, 0, 0, 0, 0, 0, 0, 0, 0, 0] }) (live), 0, ⟨7, 0, 0⟩, { header 11 0x21 with classWord := 3, body := [0, 0, 0, 0, 0, 0, 0, 0, 0, 0, 0, 0] }, by decide⟩

theorem meets_calWaits : ∃ (s : State) (t : Fc) (r : Ref) (d : Desc),
    (s.fabric = true) ∧ (heldDesc s r 0xB 0x30 = some d) ∧ (due (advance s t) d = true) ∧ (edgeDue (advance s t) = false) ∧ (commanding s = true) ∧ (bitOf (d.word 0x18) 0 = true ∨ bitOf (d.word 0x18) 1 = true) ∧ (bitOf (d.word 0x18) 0 = true → fFinite (d.word 0x10) = true) ∧ (bitOf (d.word 0x18) 1 = true → fFinite (d.word 0x14) = true) ∧ (rval s R.SFE_EST_KIND 0 (d.classWord % 16) ≠ 0) :=
  ⟨holding ({ header 11 0x30 with classWord := 2, body := [5, 6, 1, 0, 0, 0, 0, 0, 0, 0, 0, 0] }) (rset live R.SFE_EST_KIND 2 0 2), 0, ⟨7, 0, 0⟩, { header 11 0x30 with classWord := 2, body := [5, 6, 1, 0, 0, 0, 0, 0, 0, 0, 0, 0] }, by decide⟩

theorem meets_calNoEstimator : ∃ (s : State) (t : Fc) (r : Ref) (d : Desc),
    (s.fabric = true) ∧ (heldDesc s r 0xB 0x30 = some d) ∧ (due (advance s t) d = true) ∧ (edgeDue (advance s t) = false) ∧ (commanding s = true) ∧ (bitOf (d.word 0x18) 0 = true) ∧ (bitOf (d.word 0x18) 1 = false) ∧ (fFinite (d.word 0x10) = true) ∧ (rval s R.SFE_EST_KIND 0 (d.classWord % 16) = 0) :=
  ⟨holding ({ header 11 0x30 with classWord := 2, body := [5, 6, 1, 0, 0, 0, 0, 0, 0, 0, 0, 0] }) (rset live R.SFE_EST_KIND 0 0 2), 0, ⟨7, 0, 0⟩, { header 11 0x30 with classWord := 2, body := [5, 6, 1, 0, 0, 0, 0, 0, 0, 0, 0, 0] }, by decide⟩

theorem meets_calNothing : ∃ (s : State) (t : Fc) (r : Ref) (d : Desc),
    (s.fabric = true) ∧ (heldDesc s r 0xB 0x30 = some d) ∧ (due (advance s t) d = true) ∧ (edgeDue (advance s t) = false) ∧ (commanding s = true) ∧ (bitOf (d.word 0x18) 0 = false) ∧ (bitOf (d.word 0x18) 1 = false) :=
  ⟨holding ({ header 11 0x30 with classWord := 2, body := [5, 6, 0, 0, 0, 0, 0, 0, 0, 0, 0, 0] }) (live), 0, ⟨7, 0, 0⟩, { header 11 0x30 with classWord := 2, body := [5, 6, 0, 0, 0, 0, 0, 0, 0, 0, 0, 0] }, by decide⟩

theorem meets_bankPends : ∃ (s : State) (t : Fc) (r : Ref) (d : Desc),
    (s.fabric = true) ∧ (heldDesc s r 0xB 0x31 = some d) ∧ (due (advance s t) d = true) ∧ (edgeDue (advance s t) = false) ∧ (commanding s = true) ∧ (rget s R.SFE_CTRL_LIVE_BANK ≠ d.classWord % 2) :=
  ⟨holding ({ header 11 0x31 with classWord := 1, body := [0, 0, 0, 0, 0, 0, 0, 0, 0, 0, 0, 0] }) (live), 0, ⟨7, 0, 0⟩, { header 11 0x31 with classWord := 1, body := [0, 0, 0, 0, 0, 0, 0, 0, 0, 0, 0, 0] }, by decide⟩

theorem meets_bankLive : ∃ (s : State) (t : Fc) (r : Ref) (d : Desc),
    (s.fabric = true) ∧ (heldDesc s r 0xB 0x31 = some d) ∧ (due (advance s t) d = true) ∧ (edgeDue (advance s t) = false) ∧ (commanding s = true) ∧ (rget s R.SFE_CTRL_LIVE_BANK = d.classWord % 2) :=
  ⟨holding ({ header 11 0x31 with classWord := 0, body := [0, 0, 0, 0, 0, 0, 0, 0, 0, 0, 0, 0] }) (live), 0, ⟨7, 0, 0⟩, { header 11 0x31 with classWord := 0, body := [0, 0, 0, 0, 0, 0, 0, 0, 0, 0, 0, 0] }, by decide⟩

theorem meets_pulseSamples : ∃ (s : State) (t : Fc) (ch : Fin 48),
    (s.fabric = true) ∧ (edgeDue (advance s t) = false) ∧ (rbit s R.SFE_IMP_CFG_EN 0 ch = true) :=
  ⟨rset (rset live R.SFE_IMP_CFG_EN 1 0 5) R.SFE_IMP_CFG_TRIG 10 0 5, 0, 5, by decide⟩

theorem meets_pulseOpens : ∃ (s : State) (t : Fc) (ch : Fin 48) (xs : List Int) (x : Int) (c : ImpCh),
    (s.fabric = true) ∧ (edgeDue (advance s t) = false) ∧ (rbit s R.SFE_IMP_CFG_EN 0 ch = true) ∧ (xs.foldl (impSample (impTrig s ch) (rval s R.SFE_IMP_CFG_HOLD_OFF 0 ch)) (getImp s ch) = c) ∧ (c.isOpen = false) ∧ (impTrig s ch < impMag c x) ∧ (c.waiting = false ∨ (rval s R.SFE_IMP_CFG_HOLD_OFF 0 ch) ≤ c.quiet) :=
  ⟨rset (rset live R.SFE_IMP_CFG_EN 1 0 5) R.SFE_IMP_CFG_TRIG 10 0 5, 0, 5, [0], -161, { ImpCh.idle with quiet := 1 }, by decide +kernel⟩

theorem meets_baselineMoves : ∃ (s : State) (t : Fc) (ch : Fin 48) (x : Int),
    (s.fabric = true) ∧ (edgeDue (advance s t) = false) ∧ (rbit s R.SFE_IMP_CFG_EN 0 ch = true) ∧ ((getImp s ch).isOpen = false) ∧ (impMag (getImp s ch) x ≤ impTrig s ch) :=
  ⟨rset (rset live R.SFE_IMP_CFG_EN 1 0 5) R.SFE_IMP_CFG_TRIG 10 0 5, 0, 5, 160, by decide⟩

theorem meets_kernelCounts : ∃ (s : State) (t : Fc) (ch : Fin 48) (x : Int) (xs : List Int) (l : List Nat),
    (s.fabric = true) ∧ (edgeDue (advance s t) = false) ∧ ((getImp s ch).isOpen = true) ∧ ((x :: xs).map (impMag (getImp s ch)) = l) ∧ (opensAbove (impTrig s ch) l = true) ∧ (pulseEnd (impTrig s ch) (rval s R.SFE_IMP_CFG_HOLD_OFF 0 ch) l = some l.length) ∧ (l.length ≤ 4096) ∧ ((x :: xs).any impFull = false) ∧ (isPileUp (impTrig s ch) l = false) ∧ (classify s ch (features (impTrig s ch) l) = 0) :=
  ⟨rset (rset (rset (rset (rset (rset (setImp (rset (rset live R.SFE_IMP_CFG_EN 1 0 5) R.SFE_IMP_CFG_TRIG 10 0 5) 5 { ImpCh.idle with isOpen := true }) R.SFE_RULE_WORD (1 + 16 + 0xFF0000) 0 0) R.SFE_RULE_WORD 0xFFFF0000 0 1) R.SFE_RULE_WORD 0xFFFF0000 0 2) R.SFE_RULE_WORD 0xFFFF0000 0 3) R.SFE_RULE_WORD 0 0 4) R.SFE_RULE_WORD 0 0 8, 0, 5, 200, [400] ++ List.replicate 6 0, [200, 400] ++ List.replicate 6 0, by decide +kernel⟩

theorem meets_strawCounts : ∃ (s : State) (t : Fc) (ch : Fin 48) (x : Int) (xs : List Int) (l : List Nat),
    (s.fabric = true) ∧ (edgeDue (advance s t) = false) ∧ ((getImp s ch).isOpen = true) ∧ ((x :: xs).map (impMag (getImp s ch)) = l) ∧ (opensAbove (impTrig s ch) l = true) ∧ (pulseEnd (impTrig s ch) (rval s R.SFE_IMP_CFG_HOLD_OFF 0 ch) l = some l.length) ∧ (l.length ≤ 4096) ∧ ((x :: xs).any impFull = false) ∧ (isPileUp (impTrig s ch) l = false) ∧ (classify s ch (features (impTrig s ch) l) = 1) :=
  ⟨rset (rset (rset (rset (rset (rset (setImp (rset (rset live R.SFE_IMP_CFG_EN 1 0 5) R.SFE_IMP_CFG_TRIG 10 0 5) 5 { ImpCh.idle with isOpen := true }) R.SFE_RULE_WORD (3 + 16 + 0xFF0000) 0 0) R.SFE_RULE_WORD 0xFFFF0000 0 1) R.SFE_RULE_WORD 0xFFFF0000 0 2) R.SFE_RULE_WORD 0xFFFF0000 0 3) R.SFE_RULE_WORD 0 0 4) R.SFE_RULE_WORD 0 0 8, 0, 5, 200, [400] ++ List.replicate 6 0, [200, 400] ++ List.replicate 6 0, by decide +kernel⟩

theorem meets_otherCounts : ∃ (s : State) (t : Fc) (ch : Fin 48) (x : Int) (xs : List Int) (l : List Nat),
    (s.fabric = true) ∧ (edgeDue (advance s t) = false) ∧ ((getImp s ch).isOpen = true) ∧ ((x :: xs).map (impMag (getImp s ch)) = l) ∧ (opensAbove (impTrig s ch) l = true) ∧ (pulseEnd (impTrig s ch) (rval s R.SFE_IMP_CFG_HOLD_OFF 0 ch) l = some l.length) ∧ (l.length ≤ 4096) ∧ ((x :: xs).any impFull = false) ∧ (isPileUp (impTrig s ch) l = false) ∧ (classify s ch (features (impTrig s ch) l) = 2) :=
  ⟨setImp (rset (rset live R.SFE_IMP_CFG_EN 1 0 5) R.SFE_IMP_CFG_TRIG 10 0 5) 5 { ImpCh.idle with isOpen := true }, 0, 5, 200, [400] ++ List.replicate 6 0, [200, 400] ++ List.replicate 6 0, by decide +kernel⟩

theorem meets_pileUpCounts : ∃ (s : State) (t : Fc) (ch : Fin 48) (x : Int) (xs : List Int) (l : List Nat),
    (s.fabric = true) ∧ (edgeDue (advance s t) = false) ∧ ((getImp s ch).isOpen = true) ∧ ((x :: xs).map (impMag (getImp s ch)) = l) ∧ (opensAbove (impTrig s ch) l = true) ∧ (pulseEnd (impTrig s ch) (rval s R.SFE_IMP_CFG_HOLD_OFF 0 ch) l = some l.length) ∧ (l.length ≤ 4096) ∧ ((x :: xs).any impFull = false) ∧ (isPileUp (impTrig s ch) l = true) :=
  ⟨setImp (rset (rset live R.SFE_IMP_CFG_EN 1 0 5) R.SFE_IMP_CFG_TRIG 10 0 5) 5 { ImpCh.idle with isOpen := true }, 0, 5, 900, [200, 700] ++ List.replicate 6 0, [900, 200, 700] ++ List.replicate 6 0, by decide +kernel⟩

theorem meets_clippedCounts : ∃ (s : State) (t : Fc) (ch : Fin 48) (x : Int) (xs : List Int) (l : List Nat),
    (s.fabric = true) ∧ (edgeDue (advance s t) = false) ∧ ((getImp s ch).isOpen = true) ∧ ((x :: xs).map (impMag (getImp s ch)) = l) ∧ (opensAbove (impTrig s ch) l = true) ∧ (pulseEnd (impTrig s ch) (rval s R.SFE_IMP_CFG_HOLD_OFF 0 ch) l = some l.length) ∧ (l.length ≤ 4096) ∧ ((x :: xs).any impFull = true) :=
  ⟨setImp (rset (rset live R.SFE_IMP_CFG_EN 1 0 5) R.SFE_IMP_CFG_TRIG 10 0 5) 5 { ImpCh.idle with isOpen := true }, 0, 5, 200, [-32768] ++ List.replicate 6 0, [200, 32767] ++ List.replicate 6 0, by decide +kernel⟩

theorem meets_stuckCloses : ∃ (s : State) (t : Fc) (ch : Fin 48) (xs : List Int) (l : List Nat),
    (s.fabric = true) ∧ (edgeDue (advance s t) = false) ∧ ((getImp s ch).isOpen = true) ∧ ((xs.take 4096).map (impMag (getImp s ch)) = l) ∧ (opensAbove (impTrig s ch) l = true) ∧ (4096 ≤ l.length) ∧ (pulseEnd (impTrig s ch) (rval s R.SFE_IMP_CFG_HOLD_OFF 0 ch) l = none) ∧ ((xs.take 4096).any impFull = false) ∧ ((getImp s ch).stuckTold = false) :=
  ⟨setImp (rset (rset live R.SFE_IMP_CFG_EN 1 0 5) R.SFE_IMP_CFG_TRIG 10 0 5) 5 { ImpCh.idle with isOpen := true }, 6553600, 5, List.replicate 4096 400, List.replicate 4096 400, by decide +kernel⟩

theorem meets_edgeRecorded : ∃ (s : State) (t : Fc) (n : Fin 32) (h : Nat),
    (s.fabric = true) ∧ (edgeDue (advance s t) = false) ∧ (rbit s R.SFE_FRQ_CFG_EN 0 n = true) ∧ (inQuad s n = false) ∧ (40 * rget s R.SFE_FRQ_CFG_MIN_PULSE 0 n ≤ h) :=
  ⟨rset (rset live R.SFE_FRQ_CFG_EN 1 0 4) R.SFE_FRQ_CFG_MIN_PULSE 2 0 4, 100, 4, 80, by decide⟩

theorem meets_edgeTooShort : ∃ (s : State) (t : Fc) (n : Fin 32) (h : Nat),
    (s.fabric = true) ∧ (edgeDue (advance s t) = false) ∧ (h < 40 * rget s R.SFE_FRQ_CFG_MIN_PULSE 0 n) :=
  ⟨rset (rset live R.SFE_FRQ_CFG_EN 1 0 4) R.SFE_FRQ_CFG_MIN_PULSE 2 0 4, 100, 4, 79, by decide⟩

theorem meets_quadForward : ∃ (s : State) (t : Fc) (k : Fin 16),
    (s.fabric = true) ∧ (edgeDue (advance s t) = false) ∧ (quadOn s k = true) ∧ ((getQuad s k).a = false) ∧ ((getQuad s k).b = false) :=
  ⟨rset (rset (rset live R.SFE_FRQ_CFG_QUAD 1 0 4) R.SFE_FRQ_CFG_EN 1 0 4) R.SFE_FRQ_CFG_EN 1 0 5, 100, 2, by decide⟩

theorem meets_quadBack : ∃ (s : State) (t : Fc) (k : Fin 16),
    (s.fabric = true) ∧ (edgeDue (advance s t) = false) ∧ (quadOn s k = true) ∧ ((getQuad s k).a = false) ∧ ((getQuad s k).b = false) :=
  ⟨rset (rset (rset live R.SFE_FRQ_CFG_QUAD 1 0 4) R.SFE_FRQ_CFG_EN 1 0 4) R.SFE_FRQ_CFG_EN 1 0 5, 100, 2, by decide⟩

theorem meets_quadIllegal : ∃ (s : State) (t : Fc) (k : Fin 16) (a : Bool) (b : Bool),
    (s.fabric = true) ∧ (edgeDue (advance s t) = false) ∧ (quadOn s k = true) ∧ (a ≠ (getQuad s k).a) ∧ (b ≠ (getQuad s k).b) :=
  ⟨rset (rset (rset live R.SFE_FRQ_CFG_QUAD 1 0 4) R.SFE_FRQ_CFG_EN 1 0 4) R.SFE_FRQ_CFG_EN 1 0 5, 100, 2, true, true, by decide⟩

theorem meets_quadZeroed : ∃ (s : State) (t : Fc),
    (s.fabric = true) ∧ (edgeDue (advance s t) = false) :=
  ⟨rset (rset (rset live R.SFE_FRQ_CFG_QUAD 1 0 4) R.SFE_FRQ_CFG_EN 1 0 4) R.SFE_FRQ_CFG_EN 1 0 5, 100, by decide⟩

theorem meets_levelSampled : ∃ (s : State) (t : Fc) (n : Fin 64),
    (s.fabric = true) ∧ (edgeDue (advance s t) = false) ∧ (rval s R.SFE_GIN_CFG_MODE 0 n = 5) :=
  ⟨rset (rset live R.SFE_GIN_CFG_MODE 5 0 9) R.SFE_GIN_CFG_DEBOUNCE_MS 3 0 9, 1200001, 9, by decide⟩

theorem meets_levelTaken : ∃ (s : State) (t : Fc) (n : Fin 64) (uv : Nat) (c : DigIn),
    (s.fabric = true) ∧ (edgeDue (advance s t) = false) ∧ (rval s R.SFE_GIN_CFG_MODE 0 n = 5) ∧ (tblGetD s.sfe.dig n DigIn.idle = c) ∧ (c.raw = true) ∧ (rval s R.SFE_GIN_CFG_DIG_THRESH 0 n * 250000 ≤ uv + 500000) ∧ (c.since + rget s R.SFE_GIN_CFG_DEBOUNCE_MS 0 n * 400000 ≤ max s.now t) :=
  ⟨{ rset (rset live R.SFE_GIN_CFG_MODE 5 0 9) R.SFE_GIN_CFG_DEBOUNCE_MS 3 0 9 with sfe := { live.sfe with dig := [(9, ⟨false, true, 1⟩)] } }, 1200001, 9, 9000000, ⟨false, true, 1⟩, by decide⟩

theorem meets_excitationFails : ∃ (s : State) (t : Fc) (n : Fin 4) (ma : Nat) (mv : Nat),
    (s.fabric = true) ∧ (edgeDue (advance s t) = false) ∧ (rbit s R.SFE_LCL_CFG_EN 0 n = true) ∧ (60 < ma ∨ mv < 4750) :=
  ⟨rset live R.SFE_LCL_CFG_EN 1 0 2, 100, 2, 61, 5000, by decide⟩

theorem meets_excitationBack : ∃ (s : State) (t : Fc) (n : Fin 4) (ma : Nat) (mv : Nat),
    (s.fabric = true) ∧ (edgeDue (advance s t) = false) ∧ (rbit s R.SFE_LCL_CFG_EN 0 n = true) ∧ (ma ≤ 60) ∧ (4750 ≤ mv) :=
  ⟨rset { live with sfe := { live.sfe with exc := [2] } } R.SFE_LCL_CFG_EN 1 0 2, 100, 2, 60, 4750, by decide⟩

theorem meets_supplyTrips : ∃ (s : State) (t : Fc) (n : Fin 8) (ma : Nat) (mv : Nat) (a : Nat),
    (s.fabric = true) ∧ (edgeDue (advance s t) = false) ∧ ((getSsup s n).on = true) ∧ (360 < ma ∨ mv * 10 < ssupMv s n * 9) ∧ (a + 400000 ≤ max s.now t) ∧ (((getSsup s n).offTimes.filter fun x => decide (max s.now t < x + 10 * 400000000)).length < 2) :=
  ⟨setSsup live 3 { Ssup.idle with on := true }, 400000, 3, 361, 5000, 0, by decide⟩

theorem meets_supplyLatches : ∃ (s : State) (t : Fc) (n : Fin 8) (ma : Nat) (mv : Nat) (a : Nat),
    (s.fabric = true) ∧ (edgeDue (advance s t) = false) ∧ ((getSsup s n).on = true) ∧ (360 < ma ∨ mv * 10 < ssupMv s n * 9) ∧ (a + 400000 ≤ max s.now t) ∧ (2 ≤ ((getSsup s n).offTimes.filter fun x => decide (max s.now t < x + 10 * 400000000)).length) :=
  ⟨setSsup live 3 { Ssup.idle with on := true, offTimes := [2, 1] }, 400000, 3, 361, 5000, 0, by decide⟩

theorem meets_supplyRestarts : ∃ (s : State) (t : Fc) (n : Fin 8) (a : Nat),
    (s.fabric = true) ∧ (edgeDue (advance s t) = false) ∧ ((getSsup s n).restartAt = some a) ∧ (a ≤ max s.now t) :=
  ⟨rset (setSsup live 3 { Ssup.idle with restartAt := some 5 }) R.SFE_SSUP_STAT_FAULT 8, 5, 3, 5, by decide⟩

theorem meets_supplyReleased : ∃ (s : State) (t : Fc) (n : Fin 8),
    (s.fabric = true) ∧ (edgeDue (advance s t) = false) ∧ (rbit s R.SFE_SSUP_CFG_EN 0 n = false) :=
  ⟨rset live R.SFE_SSUP_STAT_LATCHED 8, 5, 3, by decide⟩

theorem meets_converterRotates : ∃ (s : State) (t : Fc) (b : Fin 14) (g : Nat) (o : Nat),
    (s.fabric = true) ∧ (rbit s R.SFE_CTRL_BG_CAL_EN = true) ∧ (bitOf (rget s R.SFE_CAL_STAT_RETIRED) b = false) ∧ (tblGetD s.sfe.lastSwap b 0 + rval s R.SFE_CAL_CFG_PERIOD_S * 400000000 ≤ max s.now t) ∧ (g ≤ 200) ∧ (o ≤ (if b.val < 6 then 64 else 8)) :=
  ⟨rset live R.SFE_CTRL_BG_CAL_EN 1, 4000000000000, 7, 200, 8, by decide +kernel⟩

theorem meets_converterRetires : ∃ (s : State) (t : Fc) (b : Fin 14) (g : Nat) (o : Nat),
    (s.fabric = true) ∧ (rbit s R.SFE_CTRL_BG_CAL_EN = true) ∧ (bitOf (rget s R.SFE_CAL_STAT_RETIRED) b = false) ∧ (tblGetD s.sfe.lastSwap b 0 + rval s R.SFE_CAL_CFG_PERIOD_S * 400000000 ≤ max s.now t) ∧ (200 < g ∨ (if b.val < 6 then 64 else 8) < o) :=
  ⟨rset live R.SFE_CTRL_BG_CAL_EN 1, 4000000000000, 7, 200, 9, by decide +kernel⟩

theorem meets_trackSettles : ∃ (s : State) (t : Fc) (a : Nat),
    (s.fabric = true) ∧ (edgeDue (advance s t) = false) ∧ (s.sfe.zt.since = some a) ∧ (s.sfe.zt.window = none) ∧ (a + rget s R.SFE_ZT_TIMES_SETTLE_MS * 400000 ≤ max s.now t) :=
  ⟨{ live with sfe := { live.sfe with zt := { live.sfe.zt with since := some 0 } } }, 40000000000, 0, by decide⟩

theorem meets_trackWindowOther : ∃ (s : State) (t : Fc) (a : Nat),
    (s.fabric = true) ∧ (edgeDue (advance s t) = false) ∧ (s.sfe.zt.window ≠ some a) :=
  ⟨live, 7, 3, by decide⟩

theorem meets_trackWindowEnds : ∃ (s : State) (t : Fc) (a : Nat),
    (s.fabric = true) ∧ (edgeDue (advance s t) = false) ∧ (s.sfe.zt.window = some a) ∧ (a + rval s R.SFE_ZT_TIMES_WINDOW_MS * 400000 ≤ max s.now t) ∧ (s.sfe.zt.n ≠ 0) :=
  ⟨{ live with sfe := { live.sfe with zt := { live.sfe.zt with window := some 0, sum := 3, n := 2 } } }, 40000000000, 0, by decide⟩

theorem meets_profileStarts : ∃ (s : State) (ch : Fin 96) (q : Passed) (d : Nat) (n : Nat) (h : Nat),
    ((getPps s (ch.val / 48)).powered = true) ∧ (((getPps s (ch.val / 48)).passed.find? fun x => OutCmd.isDrv ch x.cmd) = some q) ∧ (q.cmd = .drv ch (.profile d n h)) ∧ (q.bankBit = false) ∧ (n ≠ 0) ∧ (dval s R.DBK_CH_CFG_MODE ch = 1) ∧ ((getDrv s ch).prof = none) ∧ (drvLatched s ch = false) ∧ (rbit s R.DBK_CTRL_ENABLE (ch.val / 8) = true) ∧ (q.ref = none ∨ commanding s = true) ∧ (q.staged = true ∨ dbit s R.DBK_CH_CFG_OWNER ch = false) :=
  ⟨driveOn (.drv 50 (.profile 2 1000 0)) 1, 50, ⟨.drv 50 (.profile 2 1000 0), none, false, true, 3, 8⟩, 2, 1000, 0, by decide⟩

theorem meets_profileLatched : ∃ (s : State) (ch : Fin 96) (q : Passed) (d : Nat) (n : Nat) (h : Nat) (r : Ref),
    ((getPps s (ch.val / 48)).powered = true) ∧ (((getPps s (ch.val / 48)).passed.find? fun x => OutCmd.isDrv ch x.cmd) = some q) ∧ (q.cmd = .drv ch (.profile d n h)) ∧ (q.bankBit = false) ∧ (n ≠ 0) ∧ (q.ref = some r) ∧ (commanding s = true) ∧ (q.staged = true ∨ dbit s R.DBK_CH_CFG_OWNER ch = false) ∧ (drvLatched s ch = true) :=
  ⟨passing 1 ⟨.drv 50 (.profile 2 1000 0), some ⟨7, 0, 0⟩, false, true, 3, 8⟩ (holding (header 2 1) (dset live R.DBK_CH_STAT_LATCHED 1 50)), 50, ⟨.drv 50 (.profile 2 1000 0), some ⟨7, 0, 0⟩, false, true, 3, 8⟩, 2, 1000, 0, ⟨7, 0, 0⟩, by decide⟩

theorem meets_propSets : ∃ (s : State) (ch : Fin 96) (q : Passed) (m : Nat) (hz : Nat) (am : Nat),
    ((getPps s (ch.val / 48)).powered = true) ∧ (((getPps s (ch.val / 48)).passed.find? fun x => OutCmd.isDrv ch x.cmd) = some q) ∧ (q.cmd = .drv ch (.prop m (some (hz, am)))) ∧ (q.bankBit = false) ∧ (m ≤ 3500) ∧ (hz ≤ 400) ∧ (am ≤ 500) ∧ (dval s R.DBK_CH_CFG_MODE ch = 2) ∧ (drvLatched s ch = false) ∧ (rbit s R.DBK_CTRL_ENABLE (ch.val / 8) = true) ∧ (q.ref = none ∨ commanding s = true) ∧ (q.staged = true ∨ dbit s R.DBK_CH_CFG_OWNER ch = false) :=
  ⟨driveOn (.drv 50 (.prop 900 (some (200, 100)))) 2, 50, ⟨.drv 50 (.prop 900 (some (200, 100))), none, false, true, 3, 8⟩, 900, 200, 100, by decide⟩

theorem meets_propCompletes : ∃ (s : State) (ch : Fin 96) (q : Passed) (m : Nat) (hz : Nat) (am : Nat) (r : Ref) (x : Req),
    ((getPps s (ch.val / 48)).powered = true) ∧ (((getPps s (ch.val / 48)).passed.find? fun x => OutCmd.isDrv ch x.cmd) = some q) ∧ (q.cmd = .drv ch (.prop m (some (hz, am)))) ∧ (q.bankBit = false) ∧ (m ≤ 3500) ∧ (hz ≤ 400) ∧ (am ≤ 500) ∧ (dval s R.DBK_CH_CFG_MODE ch = 2) ∧ (drvLatched s ch = false) ∧ (rbit s R.DBK_CTRL_ENABLE (ch.val / 8) = true) ∧ (q.ref = none ∨ commanding s = true) ∧ (q.staged = true ∨ dbit s R.DBK_CH_CFG_OWNER ch = false) ∧ (q.ref = some r) ∧ (findReq s r = some x) :=
  ⟨passing 1 ⟨.drv 50 (.prop 900 (some (200, 100))), some ⟨7, 0, 0⟩, false, true, 3, 8⟩ (holding (header 2 2) (rset (dset live R.DBK_CH_CFG_MODE 2 50) R.DBK_CTRL_ENABLE 1 6)), 50, ⟨.drv 50 (.prop 900 (some (200, 100))), some ⟨7, 0, 0⟩, false, true, 3, 8⟩, 900, 200, 100, ⟨7, 0, 0⟩, ⟨7, 0, 0, true, some (header 2 2), .held, 1, none⟩, by decide⟩

theorem meets_offDecays : ∃ (s : State) (ch : Fin 96) (q : Passed),
    ((getPps s (ch.val / 48)).powered = true) ∧ (((getPps s (ch.val / 48)).passed.find? fun x => OutCmd.isDrv ch x.cmd) = some q) ∧ (q.cmd = .drv ch .off) ∧ (q.bankBit = false) ∧ (rbit s R.DBK_CTRL_ENABLE (ch.val / 8) = true) ∧ (q.ref = none ∨ commanding s = true) ∧ (q.staged = true ∨ dbit s R.DBK_CH_CFG_OWNER ch = false) ∧ (dval s R.DBK_CH_CFG_MODE ch = 1 ∨ dval s R.DBK_CH_CFG_MODE ch = 2) :=
  ⟨dset (driveOn (.drv 50 .off) 2) R.DBK_CH_STAT_PHASE 5 50, 50, ⟨.drv 50 .off, none, false, true, 3, 8⟩, by decide⟩

theorem meets_clearReleases : ∃ (s : State) (ch : Fin 96) (q : Passed),
    ((getPps s (ch.val / 48)).powered = true) ∧ (((getPps s (ch.val / 48)).passed.find? fun x => OutCmd.isDrv ch x.cmd) = some q) ∧ (q.cmd = .drv ch (.clear false)) ∧ (q.bankBit = false) ∧ (rbit s R.DBK_CTRL_ENABLE (ch.val / 8) = true) ∧ (q.ref = none) ∧ (dbit s R.DBK_CH_STAT_LATCHED ch = true) :=
  ⟨dset (driveOn (.drv 50 (.clear false)) 1) R.DBK_CH_STAT_LATCHED 1 50, 50, ⟨.drv 50 (.clear false), none, false, true, 3, 8⟩, by decide⟩

theorem meets_clearRefused : ∃ (s : State) (ch : Fin 96) (q : Passed),
    ((getPps s (ch.val / 48)).powered = true) ∧ (((getPps s (ch.val / 48)).passed.find? fun x => OutCmd.isDrv ch x.cmd) = some q) ∧ (q.cmd = .drv ch (.clear false)) ∧ (q.bankBit = false) ∧ (rbit s R.DBK_CTRL_ENABLE (ch.val / 8) = true) ∧ (q.ref = none) ∧ (dbit s R.DBK_CH_STAT_LATCHED ch = true) :=
  ⟨dset (driveOn (.drv 50 (.clear false)) 1) R.DBK_CH_STAT_LATCHED 1 50, 50, ⟨.drv 50 (.clear false), none, false, true, 3, 8⟩, by decide⟩

theorem meets_boostAsked : ∃ (s : State) (ch : Fin 96),
    ((getPps s (ch.val / 48)).powered = true) :=
  ⟨live, 50, by decide⟩

theorem meets_boostGranted : ∃ (s : State) (t : Fc) (ch : Fin 96) (p : DrvProf),
    ((getPps s (ch.val / 48)).powered = true) ∧ ((getPps s (ch.val / 48)).passed = []) ∧ ((getDrv s ch).prof = some p) ∧ (p.requested = false) ∧ (p.reqStart ≤ max s.now t) ∧ (∀ c ∈ bankChans (ch.val / 8), (getDrv s c).nextShot = none ∧ (c ≠ ch.val → (getDrv s c).prof = none)) ∧ (hsvOn s (ch.val / 8) = false) ∧ ((getDbk s (ch.val / 8)).hsvFrom ≤ max s.now t) :=
  ⟨modDrv live 50 fun c => { c with prof := some someProf }, 400, 50, someProf, by decide⟩

theorem meets_boostWaits : ∃ (s : State) (t : Fc) (ch : Fin 96) (p : DrvProf),
    ((getPps s (ch.val / 48)).powered = true) ∧ ((getPps s (ch.val / 48)).passed = []) ∧ ((getDrv s ch).prof = some p) ∧ (p.requested = false) ∧ (p.reqStart ≤ max s.now t) ∧ (∀ c ∈ bankChans (ch.val / 8), (getDrv s c).nextShot = none ∧ (c ≠ ch.val → (getDrv s c).prof = none)) ∧ (hsvOn s (ch.val / 8) = true) ∧ (hasHsv s ch = false) :=
  ⟨modDrv (rset live R.DBK_STATUS_HSV_ON 1 6) 50 fun c => { c with prof := some someProf }, 400, 50, someProf, by decide⟩

theorem meets_gapGrants : ∃ (s : State) (t : Fc) (b : Fin 12) (c : Nat) (p : DrvProf),
    ((getPps s (b.val / 6)).powered = true) ∧ ((getPps s (b.val / 6)).passed = []) ∧ (∀ c ∈ bankChans b, (getDrv s c).nextShot = none ∧ (getDrv s c).prof.all (fun x => x.requested) = true) ∧ (hsvOn s b = false) ∧ ((getDbk s b).hsvFrom ≤ max s.now t) ∧ (nextBoost s b = some c) ∧ (c / 8 = b.val) ∧ ((getDrv s c).prof = some p) :=
  ⟨dset (modDrv live 50 fun c => { c with prof := some { someProf with requested := true } }) R.DBK_CH_STAT_PHASE 1 50, 400, 6, 50, { someProf with requested := true }, by decide⟩

theorem meets_gapAsked : ∃ (s : State) (b : Fin 12),
    ((getPps s (b.val / 6)).powered = true) :=
  ⟨live, 6, by decide⟩

theorem meets_waitDrops : ∃ (s : State) (t : Fc) (ch : Fin 96) (p : DrvProf),
    ((getPps s (ch.val / 48)).powered = true) ∧ ((getPps s (ch.val / 48)).passed = []) ∧ (∀ c ∈ bankChans (ch.val / 8), (getDrv s c).nextShot = none ∧ (getDrv s c).prof.all (fun x => x.requested) = true) ∧ (hsvOn s (ch.val / 8) = true) ∧ (drvPhase s ch = 1) ∧ ((getDrv s ch).prof = some p) ∧ (p.requested = true) ∧ (p.reqStart + dval s R.DBK_CH_CFG_BOOST_WAIT ch * 400 ≤ max s.now t) :=
  ⟨dset (rset (modDrv live 50 fun c => { c with prof := some { someProf with requested := true } }) R.DBK_STATUS_HSV_ON 1 6) R.DBK_CH_STAT_PHASE 1 50, 400000, 50, { someProf with requested := true }, by decide⟩

theorem meets_waitAsked : ∃ (s : State) (ch : Fin 96),
    ((getPps s (ch.val / 48)).powered = true) :=
  ⟨live, 50, by decide⟩

theorem meets_currentReached : ∃ (s : State) (t : Fc) (ch : Fin 96) (l : List Nat) (a : State) (p : DrvProf) (m : Nat),
    ((getPps s (ch.val / 48)).powered = true) ∧ (drvTrace (advance s t) ch (stepNow (advance s t) ch) l = a) ∧ (drvPhase a ch = 2) ∧ ((getDrv a ch).prof = some p) ∧ (hasHsv a ch = true) ∧ (dget a R.DBK_CH_PEAK_T_PEAK_US ch ≠ 0) ∧ (maNow a ch = some m) ∧ ((boostLevel a ch).1 ≤ m) :=
  ⟨dset (rset (rset (dset (modDrv live 50 fun c => { c with prof := some { someProf with start := some 0 } }) R.DBK_CH_STAT_PHASE 2 50) R.DBK_STATUS_HSV_ON 1 6) R.DBK_STATUS_HSV_CH 2 6) R.DBK_CH_PEAK_T_PEAK_US 100 50, 400, 50, [20000], drvTrace (advance (dset (rset (rset (dset (modDrv live 50 fun c => { c with prof := some { someProf with start := some 0 } }) R.DBK_CH_STAT_PHASE 2 50) R.DBK_STATUS_HSV_ON 1 6) R.DBK_STATUS_HSV_CH 2 6) R.DBK_CH_PEAK_T_PEAK_US 100 50) 400) 50 (stepNow (advance (dset (rset (rset (dset (modDrv live 50 fun c => { c with prof := some { someProf with start := some 0 } }) R.DBK_CH_STAT_PHASE 2 50) R.DBK_STATUS_HSV_ON 1 6) R.DBK_STATUS_HSV_CH 2 6) R.DBK_CH_PEAK_T_PEAK_US 100 50) 400) 50) [20000], { someProf with start := some 0 }, 20000, by decide, rfl, by decide⟩

theorem meets_boostTimesOut : ∃ (s : State) (t : Fc) (ch : Fin 96) (l : List Nat) (a : State) (p : DrvProf) (x : Nat),
    ((getPps s (ch.val / 48)).powered = true) ∧ (drvTrace (advance s t) ch (stepNow (advance s t) ch) l = a) ∧ (drvPhase a ch = 2) ∧ ((getDrv a ch).prof = some p) ∧ (hasHsv a ch = true) ∧ (dget a R.DBK_CH_PEAK_T_PEAK_US ch ≠ 0) ∧ (p.start = some x) ∧ (x + dval a R.DBK_CH_BOOST_T_BOOST_US ch * 400 ≤ max s.now t) ∧ (maNow a ch = none ∨ ∃ m < (boostLevel a ch).1, maNow a ch = some m) :=
  ⟨dset (rset (rset (dset (modDrv live 50 fun c => { c with prof := some { someProf with start := some 0 } }) R.DBK_CH_STAT_PHASE 2 50) R.DBK_STATUS_HSV_ON 1 6) R.DBK_STATUS_HSV_CH 2 6) R.DBK_CH_PEAK_T_PEAK_US 100 50, 4000000, 50, [], drvTrace (advance (dset (rset (rset (dset (modDrv live 50 fun c => { c with prof := some { someProf with start := some 0 } }) R.DBK_CH_STAT_PHASE 2 50) R.DBK_STATUS_HSV_ON 1 6) R.DBK_STATUS_HSV_CH 2 6) R.DBK_CH_PEAK_T_PEAK_US 100 50) 4000000) 50 (stepNow (advance (dset (rset (rset (dset (modDrv live 50 fun c => { c with prof := some { someProf with start := some 0 } }) R.DBK_CH_STAT_PHASE 2 50) R.DBK_STATUS_HSV_ON 1 6) R.DBK_STATUS_HSV_CH 2 6) R.DBK_CH_PEAK_T_PEAK_US 100 50) 4000000) 50) [], { someProf with start := some 0 }, 0, by decide, rfl, by decide, by decide, by decide, by decide, by decide, by decide, Or.inl (by decide)⟩

theorem meets_peakEnds : ∃ (s : State) (t : Fc) (ch : Fin 96) (l : List Nat) (a : State) (p : DrvProf) (x : Nat),
    ((getPps s (ch.val / 48)).powered = true) ∧ (drvTrace (advance s t) ch (stepNow (advance s t) ch) l = a) ∧ (drvPhase a ch = 3) ∧ ((getDrv a ch).prof = some p) ∧ (p.peakStart = some x) ∧ (x + dget a R.DBK_CH_PEAK_T_PEAK_US ch * 400 ≤ max s.now t) :=
  ⟨dset (modDrv live 50 fun c => { c with prof := some { someProf with peakStart := some 0 } }) R.DBK_CH_STAT_PHASE 3 50, 4000000, 50, [], drvTrace (advance (dset (modDrv live 50 fun c => { c with prof := some { someProf with peakStart := some 0 } }) R.DBK_CH_STAT_PHASE 3 50) 4000000) 50 (stepNow (advance (dset (modDrv live 50 fun c => { c with prof := some { someProf with peakStart := some 0 } }) R.DBK_CH_STAT_PHASE 3 50) 4000000) 50) [], { someProf with peakStart := some 0 }, 0, by decide, rfl, by decide⟩

theorem meets_profileEnds : ∃ (s : State) (t : Fc) (ch : Fin 96) (l : List Nat) (a : State) (p : DrvProf) (e : Nat),
    ((getPps s (ch.val / 48)).powered = true) ∧ (drvTrace (advance s t) ch (stepNow (advance s t) ch) l = a) ∧ (drvPhase a ch = 4) ∧ ((getDrv a ch).prof = some p) ∧ (p.endAt = some e) ∧ (e ≤ max s.now t) :=
  ⟨dset (modDrv live 50 fun c => { c with prof := some { someProf with start := some 0 } }) R.DBK_CH_STAT_PHASE 4 50, 4000000, 50, [1000], drvTrace (advance (dset (modDrv live 50 fun c => { c with prof := some { someProf with start := some 0 } }) R.DBK_CH_STAT_PHASE 4 50) 4000000) 50 (stepNow (advance (dset (modDrv live 50 fun c => { c with prof := some { someProf with start := some 0 } }) R.DBK_CH_STAT_PHASE 4 50) 4000000) 50) [1000], { someProf with start := some 0 }, 400000, by decide, rfl, by decide⟩

theorem meets_decayEnds : ∃ (s : State) (t : Fc) (ch : Fin 96) (l : List Nat) (a : State) (m : Nat),
    ((getPps s (ch.val / 48)).powered = true) ∧ (drvTrace (advance s t) ch (stepNow (advance s t) ch) l = a) ∧ (drvPhase a ch = 6) ∧ (maNow a ch = some m) ∧ (m < 50) :=
  ⟨dset (modDrv live 50 fun c => { c with decayFast := true, decayMa := 900 }) R.DBK_CH_STAT_PHASE 6 50, 400, 50, [40], drvTrace (advance (dset (modDrv live 50 fun c => { c with decayFast := true, decayMa := 900 }) R.DBK_CH_STAT_PHASE 6 50) 400) 50 (stepNow (advance (dset (modDrv live 50 fun c => { c with decayFast := true, decayMa := 900 }) R.DBK_CH_STAT_PHASE 6 50) 400) 50) [40], 40, by decide, rfl, by decide⟩

theorem meets_moveTraced : ∃ (s : State) (ch : Fin 96),
    ((getPps s (ch.val / 48)).powered = true) :=
  ⟨live, 50, by decide⟩

theorem meets_moveFound : ∃ (s : State) (t : Fc) (ch : Fin 96) (p : DrvProf) (x : Nat) (m : Nat) (lo : Nat) (n : Nat),
    ((getPps s (ch.val / 48)).powered = true) ∧ ((getDrv s ch).prof = some p) ∧ (dbit s R.DBK_CH_CFG_MOVE_EN ch = true) ∧ (p.searched = false) ∧ (p.start = some x) ∧ (dget s R.DBK_CH_MOVE_CFG_BLANK ch ≤ ((stepNow (advance s t) ch) - x) / 200) ∧ ((getDrv s ch).maAt = 0 ∨ (getDrv s ch).maAt < (stepNow (advance s t) ch)) ∧ ((getDrv s ch).since ≤ (stepNow (advance s t) ch)) ∧ (drvPhase s ch = 2 ∨ drvPhase s ch = 3) ∧ (p.dip = some (lo, n)) ∧ (lo ≤ m) ∧ (4 * lo + dval s R.DBK_CH_MOVE_CFG_DIP_MA ch ≤ 4 * m) :=
  ⟨dset (dset (modDrv live 50 fun c => { c with prof := some { someProf with start := some 0, maxMa := 3000, dip := some (2000, 9000) } }) R.DBK_CH_CFG_MOVE_EN 1 50) R.DBK_CH_STAT_PHASE 3 50, 4000000, 50, { someProf with start := some 0, maxMa := 3000, dip := some (2000, 9000) }, 0, 3000, 2000, 9000, by decide⟩

theorem meets_moveMissing : ∃ (s : State) (t : Fc) (ch : Fin 96) (p : DrvProf) (x : Nat) (m : Nat),
    ((getPps s (ch.val / 48)).powered = true) ∧ ((getDrv s ch).prof = some p) ∧ (dbit s R.DBK_CH_CFG_MOVE_EN ch = true) ∧ (p.searched = false) ∧ (p.start = some x) ∧ (dget s R.DBK_CH_MOVE_CFG_BLANK ch ≤ ((stepNow (advance s t) ch) - x) / 200) ∧ ((getDrv s ch).maAt = 0 ∨ (getDrv s ch).maAt < (stepNow (advance s t) ch)) ∧ ((getDrv s ch).since ≤ (stepNow (advance s t) ch)) ∧ (drvPhase s ch = 3) ∧ (p.dip = none) ∧ (p.maxMa < m + dval s R.DBK_CH_MOVE_CFG_DIP_MA ch) ∧ (0 < dval s R.DBK_CH_MOVE_CFG_DIP_MA ch) ∧ ((peakLevel s ch).1 ≤ m) :=
  ⟨dset (dset (modDrv live 50 fun c => { c with prof := some { someProf with start := some 0 } }) R.DBK_CH_CFG_MOVE_EN 1 50) R.DBK_CH_STAT_PHASE 3 50, 4000000, 50, { someProf with start := some 0 }, 0, 20000, by decide⟩

theorem meets_shotStarts : ∃ (s : State) (t : Fc) (ch : Fin 96) (d : Nat),
    ((getPps s (ch.val / 48)).powered = true) ∧ ((getDrv s ch).nextShot = some d) ∧ (d ≤ max s.now t) ∧ (drvLatched s ch = false) ∧ ((getDrv s ch).prof = none) :=
  ⟨modDrv live 50 fun c => { c with nextShot := some 4, interval := 4000 }, 9, 50, 4, by decide⟩

theorem meets_shotDrops : ∃ (s : State) (t : Fc) (ch : Fin 96) (d : Nat),
    ((getPps s (ch.val / 48)).powered = true) ∧ ((getDrv s ch).nextShot = some d) ∧ (d ≤ max s.now t) ∧ (drvLatched s ch = false) ∧ ((getDrv s ch).prof ≠ none) :=
  ⟨modDrv live 50 fun c => { c with nextShot := some 4, interval := 4000, prof := some someProf }, 9, 50, 4, by decide⟩

theorem meets_floorHits : ∃ (s : State) (t : Fc) (ch : Fin 96) (l : List Nat) (a : State) (m : Nat),
    ((getPps s (ch.val / 48)).powered = true) ∧ (drvTrace (advance s t) ch (stepNow (advance s t) ch) l = a) ∧ (drvForced a ch = true) ∧ (m < dget a R.DBK_CH_HOLD_HOLD_FLOOR_MA ch) ∧ (maNow a ch = some m) ∧ ((getDrv a ch).floorDone = false) :=
  ⟨dset (rset (dset live R.DBK_CH_STAT_PHASE 4 50) R.DBK_STATUS_HSV_ON 1 6) R.DBK_CH_HOLD_HOLD_FLOOR_MA 300 50, 400, 50, [200], drvTrace (advance (dset (rset (dset live R.DBK_CH_STAT_PHASE 4 50) R.DBK_STATUS_HSV_ON 1 6) R.DBK_CH_HOLD_HOLD_FLOOR_MA 300 50) 400) 50 (stepNow (advance (dset (rset (dset live R.DBK_CH_STAT_PHASE 4 50) R.DBK_STATUS_HSV_ON 1 6) R.DBK_CH_HOLD_HOLD_FLOOR_MA 300 50) 400) 50) [200], 200, by decide, rfl, by decide⟩

theorem meets_offSampleCounts : ∃ (s : State) (t : Fc) (ch : Fin 96) (vl : Nat) (vh : Nat) (k : Nat),
    ((getPps s (ch.val / 48)).powered = true) ∧ (dbit s R.DBK_CH_DIAG_CFG_OFF_DIAG_EN ch = true) ∧ (drvPhase s ch = 0) ∧ ((getDrv s ch).since + 200000 ≤ max s.now t) ∧ (offCode (highSideClosed s (ch.val / 8)) vl vh = some k) ∧ ((getDrv s ch).diag.2 = 0) ∧ ((getDrv s ch).diagAt < (getDrv s ch).since) :=
  ⟨modDrv (dset live R.DBK_CH_DIAG_CFG_OFF_DIAG_EN 1 50) 50 fun c => { c with since := 5 }, 900000, 50, 500, 9000, 2, by decide⟩

theorem meets_offSampleFault : ∃ (s : State) (t : Fc) (ch : Fin 96) (vl : Nat) (vh : Nat) (k : Nat),
    ((getPps s (ch.val / 48)).powered = true) ∧ (dbit s R.DBK_CH_DIAG_CFG_OFF_DIAG_EN ch = true) ∧ (drvPhase s ch = 0) ∧ ((getDrv s ch).since + 200000 ≤ max s.now t) ∧ (offCode (highSideClosed s (ch.val / 8)) vl vh = some k) ∧ ((getDrv s ch).diagAt + 400000 ≤ max s.now t) ∧ (k = 2 ∨ k = 3) ∧ ((getDrv s ch).diag = (k, 2)) ∧ (dget s R.DBK_CH_STAT_FAULT ch ≤ 4) :=
  ⟨modDrv (dset live R.DBK_CH_DIAG_CFG_OFF_DIAG_EN 1 50) 50 fun c => { c with diag := (2, 2) }, 900000, 50, 500, 9000, 2, by decide⟩

theorem meets_channelLatches : ∃ (s : State) (t : Fc) (ch : Fin 96) (k : Fin 8) (v : Nat) (a : Nat) (ds : Bool),
    ((getPps s (ch.val / 48)).powered = true) ∧ (onFault (advance s t) ch k v a ds = true) ∧ (k.val ≠ 5 ∨ rbit s R.DBK_CTRL_SCG_CUT (ch.val / 8) = false) :=
  ⟨dset live R.DBK_CH_STAT_PHASE 5 50, 900, 50, 6, 14001, 0, false, by decide⟩

theorem meets_openLoadFound : ∃ (s : State) (t : Fc) (ch : Fin 96) (l : List Nat) (a : State) (m : Nat),
    ((getPps s (ch.val / 48)).powered = true) ∧ (drvTrace (advance s t) ch (stepNow (advance s t) ch) l = a) ∧ (drvPhase a ch = 5) ∧ (2 * dget a R.DBK_CH_DIAG_CFG_OPEN_MA ch ≤ (getDrv a ch).propMa) ∧ ((getDrv a ch).levelAt + 20000 ≤ max s.now t) ∧ (maNow a ch = some m) ∧ (m < dget a R.DBK_CH_DIAG_CFG_OPEN_MA ch) ∧ (dget a R.DBK_CH_STAT_FAULT ch ≤ 4) :=
  ⟨dset (modDrv (dset live R.DBK_CH_STAT_PHASE 5 50) 50 fun c => { c with propMa := 900 }) R.DBK_CH_DIAG_CFG_OPEN_MA 100 50, 90000, 50, [20], drvTrace (advance (dset (modDrv (dset live R.DBK_CH_STAT_PHASE 5 50) 50 fun c => { c with propMa := 900 }) R.DBK_CH_DIAG_CFG_OPEN_MA 100 50) 90000) 50 (stepNow (advance (dset (modDrv (dset live R.DBK_CH_STAT_PHASE 5 50) 50 fun c => { c with propMa := 900 }) R.DBK_CH_DIAG_CFG_OPEN_MA 100 50) 90000) 50) [20], 20, by decide, rfl, by decide⟩

theorem meets_bankLatches : ∃ (s : State) (t : Fc) (b : Fin 12) (v : Nat) (a : Nat),
    ((getPps s (b.val / 6)).powered = true) ∧ (70000 < v) ∧ (a + 800 ≤ max s.now t) ∧ (rbit s R.DBK_STATUS_LATCHED b = false) :=
  ⟨live, 900, 6, 70001, 0, by decide⟩

theorem meets_bankAdmits : ∃ (s : State) (b : Fin 12),
    ((getPps s (b.val / 6)).powered = true) ∧ (firstFail s b = none) :=
  ⟨live, 6, by decide⟩

theorem meets_bankRefuses : ∃ (s : State) (b : Fin 12) (x : Nat) (y : Nat),
    ((getPps s (b.val / 6)).powered = true) ∧ (firstFail s b = some (x, y)) :=
  ⟨dset (dset (dset live R.DBK_CH_CFG_MODE 1 48) R.DBK_CH_CFG_MODE 2 49) R.DBK_CH_HOLD_HOLD_FLOOR_MA 3000 49, 6, 0, 1, by decide⟩

theorem meets_limitsApply : ∃ (s : State) (b : Fin 12) (x : Nat) (y : Nat),
    ((getPps s (b.val / 6)).powered = true) ∧ ((getDbk s b).derate = some (x, y)) ∧ (bankOff s b = true) :=
  ⟨setDbk live 6 { DrvBank.idle with derate := some (9000, 8000) }, 6, 9000, 8000, by decide⟩

theorem meets_setApplies : ∃ (s : State) (t : Fc) (ch : Fin 96) (q : Passed) (d : Nat),
    ((getPps s (ch.val / 48)).powered = true) ∧ (((getPps s (ch.val / 48)).passed.find? fun x => OutCmd.isSw ch x.cmd) = some q) ∧ (q.cmd = .sw ch (.set d)) ∧ (d ≤ 1000) ∧ (q.ref = none ∨ commanding s = true) ∧ (q.staged = true ∨ (dbit s R.SBK_CH_CFG_OWNER ch = false ∧ rbit s R.SBK_CTRL_ENABLE (ch.val / 8) = true)) ∧ (swOdd s ch = false) ∧ (swMode s ch = true) ∧ (swStopped s ch = false) ∧ (d = 0 ∨ q.staged = true ∨ swStopped (swAhead (setPps (advance s t) (ch.val / 48) { getPps s (ch.val / 48) with passed := (getPps s (ch.val / 48)).passed.erase q })) ch = false) ∧ ((getFeed s (ch.val / 48)).uv = false) ∧ (swQueued s ch = false) :=
  ⟨switchOn (.sw 50 (.set 700)), 0, 50, ⟨.sw 50 (.set 700), none, false, true, 3, 8⟩, 700, by decide⟩

theorem meets_setRange : ∃ (s : State) (ch : Fin 96) (q : Passed) (d : Nat) (r : Ref),
    ((getPps s (ch.val / 48)).powered = true) ∧ (((getPps s (ch.val / 48)).passed.find? fun x => OutCmd.isSw ch x.cmd) = some q) ∧ (q.cmd = .sw ch (.set d)) ∧ (1000 < d) ∧ (q.ref = some r) :=
  ⟨passing 1 ⟨.sw 50 (.set 1001), some ⟨7, 0, 0⟩, false, true, 3, 8⟩ (holding (header 3 1)), 50, ⟨.sw 50 (.set 1001), some ⟨7, 0, 0⟩, false, true, 3, 8⟩, 1001, ⟨7, 0, 0⟩, by decide⟩

theorem meets_rearmReleases : ∃ (s : State) (ch : Fin 96) (q : Passed),
    ((getPps s (ch.val / 48)).powered = true) ∧ (((getPps s (ch.val / 48)).passed.find? fun x => OutCmd.isSw ch x.cmd) = some q) ∧ (q.cmd = .sw ch .rearm) ∧ (q.ref = none ∨ commanding s = true) ∧ (swOdd s ch = false) ∧ (swMode s ch = true) ∧ (rbit s R.SBK_CTRL_ENABLE (ch.val / 8) = true) ∧ (swTheta s ch ≤ 1 / 2) :=
  ⟨dset (switchOn (.sw 50 .rearm)) R.SBK_CH_STAT_TRIPPED 1 50, 50, ⟨.sw 50 .rearm, none, false, true, 3, 8⟩, by refine ⟨by decide, by decide, by decide, by decide, by decide, by decide, by decide, ?_⟩; show (0 : Rat) + 0 ≤ 1 / 2; norm_num⟩

theorem meets_wireMoves : ∃ (s : State) (ch : Fin 96) (own : List Nat) (other : List Nat) (sums : List Nat),
    ((getPps s (ch.val / 48)).powered = true) ∧ (swOdd s ch = false) ∧ (sums = if swEven s ch then (List.range own.length).map (fun n => own.getD n 0 + other.getD n 0) else own) ∧ (((getSw s ch).thf + mkRat 1 (1000 * (wireProfile (dget s R.SBK_CH_CFG_WPROF ch)).2) * (mkRat 2 5 * (meanSquare sums / ((swIEff s ch * swIEff s ch : Nat) : Rat)) - (getSw s ch).thf)) + ((getSw s ch).ths + mkRat 1 (10000 * (wireProfile (dget s R.SBK_CH_CFG_WPROF ch)).2) * (mkRat 3 5 * (meanSquare sums / ((swIEff s ch * swIEff s ch : Nat) : Rat)) - (getSw s ch).ths)) < 1) :=
  ⟨live, 50, [], [], [], by refine ⟨by decide, by decide, by decide, ?_⟩; show (0 : Rat) + mkRat 1 (1000 * 12) * (mkRat 2 5 * (mkRat 0 1 / _) - 0) + (0 + mkRat 1 (10000 * 12) * (mkRat 3 5 * (mkRat 0 1 / _) - 0)) < 1; simp⟩

theorem meets_wireTrips : ∃ (s : State) (ch : Fin 96) (own : List Nat) (other : List Nat) (sums : List Nat),
    ((getPps s (ch.val / 48)).powered = true) ∧ (swOdd s ch = false) ∧ (sums = if swEven s ch then (List.range own.length).map (fun n => own.getD n 0 + other.getD n 0) else own) ∧ (1 ≤ ((getSw s ch).thf + mkRat 1 (1000 * (wireProfile (dget s R.SBK_CH_CFG_WPROF ch)).2) * (mkRat 2 5 * (meanSquare sums / ((swIEff s ch * swIEff s ch : Nat) : Rat)) - (getSw s ch).thf)) + ((getSw s ch).ths + mkRat 1 (10000 * (wireProfile (dget s R.SBK_CH_CFG_WPROF ch)).2) * (mkRat 3 5 * (meanSquare sums / ((swIEff s ch * swIEff s ch : Nat) : Rat)) - (getSw s ch).ths))) ∧ ((getSw s ch).on = true) :=
  ⟨modSw live 50 fun c => { c with on := true, duty := 1000, thf := 2 }, 50, [], [], [], by refine ⟨by decide, by decide, by decide, ?_, by decide⟩; show (1 : Rat) ≤ (2 : Rat) + mkRat 1 (1000 * 12) * (mkRat 2 5 * (mkRat 0 1 / _) - 2) + (0 + mkRat 1 (10000 * 12) * (mkRat 3 5 * (mkRat 0 1 / _) - 0)); simp [Rat.mkRat_eq_div]; norm_num⟩

theorem meets_inrushTrips : ∃ (s : State) (t : Fc) (ch : Fin 96) (a : Nat),
    ((getPps s (ch.val / 48)).powered = true) ∧ (limitHeld (advance s t) ch (max s.now t) = true) ∧ ((getSw s ch).limitSince = some a) ∧ (a + 4000000 ≤ max s.now t) :=
  ⟨modSw live 50 fun c => { c with on := true, duty := 1000, limitSince := some 0 }, 4000000, 50, 0, by decide⟩

theorem meets_limitReached : ∃ (s : State) (t : Fc) (ch : Fin 96),
    ((getPps s (ch.val / 48)).powered = true) ∧ (conducts (advance s t) ch (max s.now t) = true) ∧ (limitHeld (advance s t) ch (max s.now t) = false) :=
  ⟨modSw live 50 fun c => { c with on := true, duty := 1000 }, 4, 50, by decide⟩

theorem meets_thermLatches : ∃ (s : State) (ch : Fin 96) (j : Int),
    ((getPps s (ch.val / 48)).powered = true) ∧ (170 ≤ j) ∧ (dbit s R.SBK_CH_STAT_THERM_LATCH ch = false) :=
  ⟨modSw live 50 fun c => { c with on := true, duty := 1000 }, 50, 171, by decide⟩

theorem meets_thermClears : ∃ (s : State) (ch : Fin 96) (j : Int),
    ((getPps s (ch.val / 48)).powered = true) ∧ (j < 140) ∧ (∀ c ∈ swMembers s ch, c = ch.val ∨ dget s R.SBK_CH_MODEL_TJ c < 190) ∧ (dbit s R.SBK_CH_STAT_THERM_LATCH ch = true) ∧ (dbit s R.SBK_CH_PROT_POLICY (swLead s ch) = false) ∧ ((getSw s (swLead s ch)).rearmed = false) :=
  ⟨dset live R.SBK_CH_STAT_THERM_LATCH 1 50, 50, 139, by decide⟩

theorem meets_retryRestarts : ∃ (s : State) (t : Fc) (ch : Fin 96),
    ((getPps s (ch.val / 48)).powered = true) ∧ (swOdd s ch = false) ∧ (dbit s R.SBK_CH_STAT_TRIPPED ch = true) ∧ (dbit s R.SBK_CH_PROT_POLICY ch = true) ∧ (swTheta s ch ≤ 1 / 2) ∧ (swQueued s ch = false) ∧ ((getSw s ch).on = false) ∧ (heldNow (advance s t) ch = false) ∧ (dbit s R.SBK_CH_STAT_THERM_LATCH ch = false) ∧ (dbit s R.SBK_CH_STAT_LOCKED ch = false) ∧ ((getFeed s (ch.val / 48)).uv = false) ∧ (dbit s R.SBK_CH_STAT_UV_OFF ch = false) ∧ (dbit s R.SBK_CH_STAT_SHED ch = false) ∧ ((getSw s ch).duty ≠ 0) ∧ ((getSw s ch).barred = false) ∧ (dget s R.SBK_CH_STAT_RETRIES_USED ch < dget s R.SBK_CH_PROT_RETRY_MAX ch) :=
  ⟨dset (dset (dset (modSw live 50 fun c => { c with duty := 700 }) R.SBK_CH_STAT_TRIPPED 1 50) R.SBK_CH_PROT_POLICY 1 50) R.SBK_CH_PROT_RETRY_MAX 3 50, 4, 50, by refine ⟨by decide, by decide, by decide, by decide, ?_, by decide, by decide, by decide, by decide, by decide, by decide, by decide, by decide, by decide, by decide, by decide⟩; show (0 : Rat) + 0 ≤ 1 / 2; norm_num⟩

theorem meets_retryLocks : ∃ (s : State) (t : Fc) (ch : Fin 96),
    ((getPps s (ch.val / 48)).powered = true) ∧ (swOdd s ch = false) ∧ (dbit s R.SBK_CH_STAT_TRIPPED ch = true) ∧ (dbit s R.SBK_CH_PROT_POLICY ch = true) ∧ (swTheta s ch ≤ 1 / 2) ∧ (swQueued s ch = false) ∧ ((getSw s ch).on = false) ∧ (heldNow (advance s t) ch = false) ∧ (dbit s R.SBK_CH_STAT_THERM_LATCH ch = false) ∧ (dbit s R.SBK_CH_STAT_LOCKED ch = false) ∧ ((getFeed s (ch.val / 48)).uv = false) ∧ (dbit s R.SBK_CH_STAT_UV_OFF ch = false) ∧ (dbit s R.SBK_CH_STAT_SHED ch = false) ∧ ((getSw s ch).duty ≠ 0) ∧ ((getSw s ch).barred = false) ∧ (dget s R.SBK_CH_PROT_RETRY_MAX ch ≤ dget s R.SBK_CH_STAT_RETRIES_USED ch) :=
  ⟨dset (dset (dset (modSw live 50 fun c => { c with duty := 700 }) R.SBK_CH_STAT_TRIPPED 1 50) R.SBK_CH_PROT_POLICY 1 50) R.SBK_CH_PROT_RETRY_MAX 0 50, 4, 50, by refine ⟨by decide, by decide, by decide, by decide, ?_, by decide, by decide, by decide, by decide, by decide, by decide, by decide, by decide, by decide, by decide, by decide⟩; show (0 : Rat) + 0 ≤ 1 / 2; norm_num⟩

theorem meets_windowEnds : ∃ (s : State) (t : Fc) (ch : Fin 96) (w : Nat),
    ((getPps s (ch.val / 48)).powered = true) ∧ ((getSw s ch).window = some w) ∧ (w ≤ max s.now t) :=
  ⟨modSw live 50 fun c => { c with window := some 3 }, 4, 50, 3, by decide⟩

theorem meets_openLoadFoundSw : ∃ (s : State) (t : Fc) (ch : Fin 96) (m : Nat) (a : Nat),
    ((getPps s (ch.val / 48)).powered = true) ∧ (swOdd s ch = false) ∧ (dbit s R.SBK_CH_OL_OL_EN ch = true) ∧ ((getSw s ch).on = true) ∧ (shortOn s ch (getSw s ch).duty = false) ∧ (m < dval s R.SBK_CH_OL_OL_MA ch) ∧ ((max a (getSw s ch).onAt) + (getSw s ch).shortTime (max a (getSw s ch).onAt) (max s.now t) + dval s R.SBK_CH_OL_OL_DEBOUNCE_MS ch * 400000 ≤ max s.now t) ∧ (dbit s R.SBK_CH_STAT_OPEN_LOAD ch = false) :=
  ⟨dset (dset (modSw live 50 fun c => { c with on := true, duty := 1000 }) R.SBK_CH_OL_OL_EN 1 50) R.SBK_CH_OL_OL_MA 50 50, 4000000000, 50, 3, 0, by decide⟩

theorem meets_openLoadClearsSw : ∃ (s : State) (ch : Fin 96) (m : Nat),
    ((getPps s (ch.val / 48)).powered = true) ∧ (dval s R.SBK_CH_OL_OL_MA (swLead s ch) < m) ∧ (shortOn s (swLead s ch) (getSw s (swLead s ch)).duty = false) :=
  ⟨live, 50, 60000, by decide⟩

theorem meets_feedFails : ∃ (s : State) (t : Fc) (p : Fin 2) (mv : Nat) (a : Nat),
    ((getPps s p).powered = true) ∧ (mv < uvMv s p) ∧ (a + 20000 ≤ max s.now t) :=
  ⟨modSw live 50 fun c => { c with on := true, duty := 1000 }, 20000, 1, 100, 0, by decide⟩

theorem meets_feedReturns : ∃ (s : State) (t : Fc) (p : Fin 2) (mv : Nat) (a : Nat),
    ((getPps s p).powered = true) ∧ ((getFeed s p).uv = true) ∧ (uvMv s p + uvHystMv s p ≤ mv) ∧ ((getFeed s p).fallAt.all (fun x => decide (x ≤ a)) = true) ∧ (a + rval s R.SBK_FEED_UV_RESTART_10MS (feedInst p) * 10 * 400000 ≤ max s.now t) :=
  ⟨setFeed live 1 { Feed.idle with uv := true }, 4000000000, 1, 24000, 0, by decide⟩

theorem meets_turnComes : ∃ (s : State) (t : Fc) (p : Fin 2) (c0 : Nat) (l : List Nat),
    ((getPps s p).powered = true) ∧ ((getFeed s p).restart = c0 :: l) ∧ ((getFeed s p).restartAt ≤ max s.now t) ∧ ((getFeed s p).uv = false) ∧ (c0 / 48 = p.val) ∧ (c0 ∉ l) ∧ (swOdd s c0 = false) ∧ (swStopped s c0 = false) ∧ (dbit s R.SBK_CH_STAT_UV_OFF c0 = false) ∧ ((getSw s c0).duty ≠ 0) ∧ ((getSw s c0).on = false) ∧ (heldNow (advance s t) c0 = false) ∧ (dget s R.SBK_CH_STAT_RETRIES_USED c0 < dget s R.SBK_CH_PROT_RETRY_MAX c0) :=
  ⟨setFeed (dset (modSw live 50 fun c => { c with duty := 700 }) R.SBK_CH_PROT_RETRY_MAX 3 50) 1 { Feed.idle with restart := [50] }, 4, 1, 50, [], by decide⟩

theorem meets_rankShed : ∃ (s : State) (t : Fc) (p : Fin 2) (a : Nat) (n : Nat) (r : Nat),
    ((getPps s p).powered = true) ∧ (rval s R.SBK_FEED_LIMIT_LIMIT_A (feedInst p) < a) ∧ (max n (getFeed s p).shedAt + 2000000 ≤ max s.now t) ∧ (shedRank s p = some r) :=
  ⟨rset (dset (modSw live 50 fun c => { c with on := true, duty := 1000 }) R.SBK_CH_PROT_SHED_RANK 2 50) R.SBK_FEED_LIMIT_LIMIT_A 30 6, 2000000, 1, 40, 0, 2, by refine ⟨by decide, ?_, by decide, by decide⟩; show max 20 (min Config.feedRating 30) < 40; omega⟩

theorem meets_rankRestored : ∃ (s : State) (t : Fc) (p : Fin 2) (a : Nat) (n : Nat) (r : Nat) (l : List Nat),
    ((getPps s p).powered = true) ∧ ((getFeed s p).shed = r :: l) ∧ (10 * a < 9 * rval s R.SBK_FEED_LIMIT_LIMIT_A (feedInst p)) ∧ (max n (getFeed s p).shedAt + 400000000 ≤ max s.now t) :=
  ⟨setFeed (rset live R.SBK_FEED_LIMIT_LIMIT_A 30 6) 1 { Feed.idle with shed := [2] }, 400000000, 1, 10, 0, 2, [], by refine ⟨by decide, by decide, ?_, by decide⟩; show 10 * 10 < 9 * max 20 (min Config.feedRating 30); omega⟩

theorem meets_ppsArms : ∃ (s : State) (p : Fin 2),
    ((getPps s p).powered = true) ∧ (s.fabric = true) ∧ (planeArmed s p = false) ∧ (ppsLoading s p = false) ∧ (∀ k < 6, rbit s R.DBK_CTRL_ENABLE (6 * p + k) = true → firstFail s (6 * p + k) = none) ∧ (holdCondition s p = true) ∧ (safeValuesOk s p = true) ∧ (lcState s ≠ 4) :=
  ⟨rset live R.DBK_CTRL_ENABLE 1 7, 1, by decide⟩

theorem meets_ppsArmRefused : ∃ (s : State) (p : Fin 2),
    ((getPps s p).powered = true) ∧ (s.fabric = true) ∧ (planeArmed s p = false) ∧ (ppsLoading s p = false) ∧ (∀ k < 6, rbit s R.DBK_CTRL_ENABLE (6 * p + k) = true → firstFail s (6 * p + k) = none) ∧ (holdCondition s p = false) :=
  ⟨rset (rset (rset live R.XLK_PAIR_CFG_PAIR_EN 1) R.SBK_CTRL_ENABLE 1 6) R.PPS_SW_HOLD_ROWS 1 1 0, 1, by decide⟩

theorem meets_ppsDisarms : ∃ (s : State) (p : Fin 2),
    ((getPps s p).powered = true) ∧ (s.fabric = true) ∧ (planeArmed s p = true) ∧ (ppsLoading s p = false) :=
  ⟨passing 1 ⟨.sw 50 (.set 700), none, false, true, 3, 8⟩ (rset live R.PPS_CTRL_ARMED 1 1), 1, by decide⟩

theorem meets_safeNowActs : ∃ (s : State) (p : Fin 2),
    ((getPps s p).powered = true) ∧ (s.fabric = true) ∧ (ppsLoading s p = false) ∧ (planeArmed s p = true) ∧ ((getPps s p).live = true) :=
  ⟨setPps (rset live R.PPS_CTRL_ARMED 1 1) 1 { Pps.idle with live := true }, 1, by decide⟩

theorem meets_bidCleared : ∃ (s : State) (p : Fin 2),
    ((getPps s p).powered = true) ∧ (s.fabric = true) ∧ (planeArmed s p = false) ∧ (lcState s = 0 ∨ lcState s = 3) :=
  ⟨rset live R.PPS_HIGHEST_BID 513 1, 1, by decide⟩

theorem meets_bidKept : ∃ (s : State) (p : Fin 2),
    ((getPps s p).powered = true) ∧ (s.fabric = true) ∧ (planeArmed s p = true ∨ (lcState s ≠ 0 ∧ lcState s ≠ 3)) :=
  ⟨rset live R.KSM_LC_STATE 2, 1, by decide⟩

theorem meets_holdingSets : ∃ (s : State) (t : Fc) (p : Fin 2),
    ((getPps s p).powered = true) ∧ ((getPps s p).live = true) ∧ (2 * (getPps s p).contactAt + 3 * ppsPeriod s p ≤ 2 * (max s.now t)) :=
  ⟨setPps live 1 { Pps.idle with live := true }, 0, 1, by decide⟩

theorem meets_windowExpires : ∃ (s : State) (t : Fc) (p : Fin 2) (d : Bool) (n : Fin 48) (k : Nat),
    ((getPps s p).powered = true) ∧ (planeArmed s p = true) ∧ ((getPps s p).live = true) ∧ (commitNow (advance s t) p = false) ∧ (k = (if d then n.val else 48 + n.val)) ∧ (k ∉ (getPps s p).expired) ∧ (2 * ((getPps s p).contactAt + holdWindowUs (holdRows s p d n) (rget s R.PPS_STATUS_TICK_US p) * 400) + ppsPeriod s p ≤ 2 * (max s.now t)) :=
  ⟨setPps (rset live R.PPS_CTRL_ARMED 1 1) 1 { Pps.idle with live := true }, 0, 1, true, 3, 3, by decide⟩

theorem meets_windowTurnsOff : ∃ (s : State) (t : Fc) (p : Fin 2) (n : Fin 48),
    ((getPps s p).powered = true) ∧ (planeArmed s p = true) ∧ ((getPps s p).live = true) ∧ (commitNow (advance s t) p = false) ∧ ((48 + n.val) ∉ (getPps s p).expired) ∧ (2 * ((getPps s p).contactAt + holdWindowUs (holdRows s p false n) (rget s R.PPS_STATUS_TICK_US p) * 400) + ppsPeriod s p ≤ 2 * (max s.now t)) ∧ (rval s R.PPS_SW_SAFE p n = 0) ∧ (swMode s (48 * p + n) = true) ∧ (swOdd s (48 * p + n) = false) :=
  ⟨modSw (dset (setPps (rset live R.PPS_CTRL_ARMED 1 1) 1 { Pps.idle with live := true }) R.SBK_CH_CFG_MODE 1 50) 50 fun c => { c with on := true, duty := 1000 }, 0, 1, 2, by decide⟩

theorem meets_supplyLost : ∃ (s : State) (p : Fin 2),
    ((getPps s p).powered = true) :=
  ⟨rset (rset live R.PPS_HIGHEST_BID 513 1) R.PPS_HIGHEST_BID 513 0, 1, by decide⟩

theorem meets_supplyBack : ∃ (s : State) (p : Fin 2),
    ((getPps s p).powered = false) :=
  ⟨setPps (rset live R.PPS_HIGHEST_BID 513 1) 1 { Pps.idle with powered := false }, 1, by decide⟩

theorem meets_commitTaken : ∃ (s : State) (t : Fc) (p : Fin 2) (b : Nat),
    ((getPps s p).powered = true) ∧ (ppsLoading s p = false) ∧ ((max (rget s R.PPS_HIGHEST_BID p) (takeoverNow (advance s t) p)) ≤ b) :=
  ⟨rset live R.PPS_CTRL_ARMED 1 1, 7, 1, 513, by decide⟩

theorem meets_commitAccepted : ∃ (s : State) (t : Fc) (p : Fin 2) (b : Nat) (row : Nat) (l : List SentCmd),
    ((getPps s p).powered = true) ∧ (ppsLoading s p = false) ∧ (planeArmed s p = true) ∧ (rbit s R.PPS_STATUS_SAFE_ACTIVE p = false) ∧ ((max (rget s R.PPS_HIGHEST_BID p) (takeoverNow (advance s t) p)) < b) ∧ (b < 2 ^ 32) ∧ (∀ q ∈ partnerCmds (advance s t) p row l, stageMisses s q = false ∧ (match q.cmd with | .drv _ (.rate _) => false | _ => true) = true) :=
  ⟨rset (dset (dset live R.SBK_CH_CFG_MODE 1 50) R.SBK_CH_CFG_OWNER 1 50) R.PPS_CTRL_ARMED 1 1, 7, 1, 513, 9, [⟨true, .sw 50 (.set 700)⟩, ⟨false, .drv 3 .off⟩], by decide⟩

theorem meets_commitUnarmed : ∃ (s : State) (t : Fc) (p : Fin 2) (b : Nat) (row : Nat) (l : List SentCmd),
    ((getPps s p).powered = true) ∧ (ppsLoading s p = false) ∧ (planeArmed s p = false) ∧ ((max (rget s R.PPS_HIGHEST_BID p) (takeoverNow (advance s t) p)) < b) ∧ (b < 2 ^ 32) ∧ (∀ q ∈ partnerCmds (advance s t) p row l, stageMisses s q = false) :=
  ⟨live, 7, 1, 513, 9, [⟨false, .drv 50 .off⟩], by decide⟩

theorem meets_commitResumes : ∃ (s : State) (t : Fc) (p : Fin 2) (b : Nat) (row : Nat) (l : List SentCmd),
    ((getPps s p).powered = true) ∧ (ppsLoading s p = false) ∧ (planeArmed s p = true) ∧ (rbit s R.PPS_STATUS_SAFE_ACTIVE p = true) ∧ ((max (rget s R.PPS_HIGHEST_BID p) (takeoverNow (advance s t) p)) ≤ b) ∧ (partnerCmds (advance s t) p row l = []) :=
  ⟨rset (rset live R.PPS_CTRL_ARMED 1 1) R.PPS_STATUS_SAFE_ACTIVE 1 1, 7, 1, 513, 9, [], by decide⟩

theorem meets_commitFenced : ∃ (s : State) (t : Fc) (p : Fin 2) (b : Nat),
    ((getPps s p).powered = true) ∧ (ppsLoading s p = false) ∧ (s.fabric = true) ∧ (b < (max (rget s R.PPS_HIGHEST_BID p) (takeoverNow (advance s t) p))) :=
  ⟨rset live R.PPS_HIGHEST_BID 515 1, 7, 1, 513, by decide⟩

theorem meets_commitFencedAlone : ∃ (s : State) (t : Fc) (p : Fin 2) (b : Nat),
    ((getPps s p).powered = true) ∧ (ppsLoading s p = false) ∧ (s.fabric = false) ∧ (b < (max (rget s R.PPS_HIGHEST_BID p) (takeoverNow (advance s t) p))) :=
  ⟨{ rset live R.PPS_HIGHEST_BID 515 1 with fabric := false }, 7, 1, 513, by decide⟩

theorem meets_keepRefreshes : ∃ (s : State) (p : Fin 2) (b : Nat),
    ((getPps s p).powered = true) ∧ (ppsLoading s p = false) ∧ ((getPps s p).live = true) ∧ (rget s R.PPS_HIGHEST_BID p ≤ b) :=
  ⟨setPps live 1 { Pps.idle with live := true }, 1, 513, by decide⟩

theorem meets_takeoverRaises : ∃ (s : State) (p : Fin 2) (b : Nat),
    ((getPps s p).powered = true) ∧ (ppsLoading s p = false) ∧ (rget s R.PPS_HIGHEST_BID p < b) :=
  ⟨live, 1, 512, by decide⟩

theorem meets_takeoverKept : ∃ (s : State) (p : Fin 2) (b : Nat),
    ((getPps s p).powered = true) ∧ (ppsLoading s p = false) ∧ (b = rget s R.PPS_HIGHEST_BID p) :=
  ⟨live, 1, 0, by decide⟩

theorem meets_fencedPrimary : ∃ (s : State),
    (s.fabric = true) ∧ (role s = 2) ∧ (s.xlk.fencedOut = false) :=
  ⟨rset live R.XLK_ROLE_ROLE 2, by decide⟩

theorem meets_otherPair : ∃ (s : State) (q : Nat),
    (s.fabric = true) ∧ (q ≠ (rget s R.XLK_PAIR_ID_PAIR_ID)) :=
  ⟨live, 5, by decide⟩

theorem meets_otherPairPlane : ∃ (s : State) (p : Fin 2) (q : Nat),
    ((getPps s p).powered = true) ∧ (s.fabric = true) ∧ (q ≠ (getPps s p).pairId) :=
  ⟨live, 1, 5, by decide⟩

theorem meets_heartbeatHeard : ∃ (s : State) (h : Heartbeat),
    (s.fabric = true) ∧ (pairEn s = true) ∧ (h.stopped = false) ∧ (h.role = 2 ∨ h.role = 4 ∨ s.xlk.handover = []) :=
  ⟨rset live R.XLK_PAIR_CFG_PAIR_EN 1, someBeat, by decide⟩

theorem meets_heartbeatStopped : ∃ (s : State) (h : Heartbeat),
    (s.fabric = true) ∧ (pairEn s = true) ∧ (h.stopped = true) ∧ (h.role = 2 ∨ h.role = 4 ∨ s.xlk.handover = []) :=
  ⟨rset live R.XLK_PAIR_CFG_PAIR_EN 1, { someBeat with stopped := true }, by decide⟩

theorem meets_mirrorKept : ∃ (s : State),
    (s.fabric = true) ∧ (role s = 3 ∨ role s = 4) :=
  ⟨rset live R.XLK_ROLE_ROLE 4, by decide⟩

theorem meets_healthKept : ∃ (s : State) (l : List Nat),
    (s.fabric = true) ∧ (∀ x ∈ l, x < 2 ^ 32) :=
  ⟨live, [1, 2, 3], by decide⟩

theorem meets_itemApplied : ∃ (s : State) (t : Fc) (i : ResyncItem),
    (s.fabric = true) ∧ (edgeDue (advance s t) = false) ∧ (role s = 3 ∨ role s = 4) ∧ (i ≠ .confirm) ∧ (i ≠ .pull) ∧ (i ≠ .dated) :=
  ⟨rset live R.XLK_ROLE_ROLE 4, 0, .classBank 1, by decide⟩

theorem meets_itemWaits : ∃ (s : State) (t : Fc) (i : ResyncItem) (row : Nat),
    (s.fabric = true) ∧ (edgeDue (advance s t) = false) ∧ (role s = 3 ∨ role s = 4) ∧ (row ≠ 0) ∧ (i ≠ .confirm) ∧ (i ≠ .pull) ∧ (i ≠ .dated) ∧ ((match i with | .pattern _ _ => true | .pendingTable _ => true | _ => false) = false) :=
  ⟨rset live R.XLK_ROLE_ROLE 4, 0, .classBank 1, 8, by decide⟩

theorem meets_itemConfirmed : ∃ (s : State) (t : Fc) (i : ResyncItem) (row : Nat),
    (s.fabric = true) ∧ (edgeDue (advance s t) = false) ∧ (role s = 3 ∨ role s = 4) ∧ (row ≠ 0) ∧ ((match i with | .pattern _ _ => true | .pendingTable _ => true | _ => false) = true) :=
  ⟨rset live R.XLK_ROLE_ROLE 4, 0, .pendingTable [], 8, by decide⟩

theorem meets_itemDated : ∃ (s : State) (t : Fc),
    (s.fabric = true) ∧ (edgeDue (advance s t) = false) :=
  ⟨rset live R.XLK_ROLE_ROLE 4, 0, by decide⟩

theorem meets_confirmReleases : ∃ (s : State) (t : Fc),
    (s.fabric = true) ∧ (edgeDue (advance s t) = false) ∧ (role s = 2) :=
  ⟨rset live R.XLK_ROLE_ROLE 2, 0, by decide⟩

theorem meets_pullAnswered : ∃ (s : State) (t : Fc),
    (s.fabric = true) ∧ (edgeDue (advance s t) = false) ∧ (role s = 2) :=
  ⟨rset live R.XLK_ROLE_ROLE 2, 0, by decide⟩

theorem meets_itemHeld : ∃ (s : State) (t : Fc),
    (s.fabric = true) ∧ (edgeDue (advance s t) = true) :=
  ⟨{ live with tke := { Tke.reset with running := true, rowLen := 40 } }, 40, by decide⟩

theorem meets_serviceKept : ∃ (s : State),
    (s.fabric = true) :=
  ⟨live, by decide⟩

theorem meets_badFrameCounts : ∃ (s : State) (l : List Nat),
    (s.fabric = true) ∧ (l.getLast? ≠ some (crc32 (linkBytes l.dropLast)) ∨ l.getD 0 0 ≠ (rget s R.XLK_PAIR_ID_PAIR_ID)) :=
  ⟨live, [1, 2], by decide⟩

theorem meets_xlkRises : ∃ (s : State),
    (s.fabric = true) :=
  ⟨live, by decide⟩

theorem meets_xlkFalls : ∃ (s : State),
    (s.fabric = true) :=
  ⟨live, by decide⟩

theorem meets_healthSent : ∃ (s : State) (t : Fc),
    (s.fabric = true) ∧ (pairEn s = true) ∧ (moduleTime (advance s t) / 1000000000 ≠ s.xlk.healthAt) :=
  ⟨rset live R.XLK_PAIR_CFG_PAIR_EN 1, 400000000, by decide⟩

theorem meets_handoverOffered : ∃ (s : State) (t : Fc) (r : Ref) (d : Desc) (h : Heartbeat),
    (s.fabric = true) ∧ (heldDesc s r 0xB 0x40 = some d) ∧ (due (advance s t) d = true) ∧ (role s = 2) ∧ (s.xlk.lastHb = some h) ∧ (h.role = 4) ∧ (rbit s R.XLK_ROLE_PARTNER_LOST = false) :=
  ⟨holding (header 11 0x40) ({ rset live R.XLK_ROLE_ROLE 2 with xlk := { Xlk.reset with lastHb := some { someBeat with role := 4 } } }), 0, ⟨7, 0, 0⟩, header 11 0x40, { someBeat with role := 4 }, by decide⟩

theorem meets_handoverState : ∃ (s : State) (t : Fc) (r : Ref) (d : Desc),
    (s.fabric = true) ∧ (heldDesc s r 0xB 0x40 = some d) ∧ (due (advance s t) d = true) ∧ (role s ≠ 2) :=
  ⟨holding (header 11 0x40) (live), 0, ⟨7, 0, 0⟩, header 11 0x40, by decide⟩

theorem meets_handoverExpires : ∃ (s : State) (r : Ref) (row : Nat),
    (s.fabric = true) ∧ (s.xlk.handover = [(r, row)]) ∧ (row + rval s R.XLK_PAIR_CFG_HB_MISS + 1 < rowNow s) ∧ (s.xlk.fencedOut = false) :=
  ⟨{ rset live R.TKE_ROW_LO_ROW 900 with xlk := { Xlk.reset with handover := [(⟨7, 0, 0⟩, 1)] } }, ⟨7, 0, 0⟩, 1, by decide⟩

theorem meets_aloneBecomesPrimary : ∃ (s : State),
    (s.fabric = true) ∧ (role s = 1) ∧ (s.xlk.startRow + rval s R.XLK_PAIR_CFG_HB_MISS + 2 ≤ rowNow s) ∧ (s.xlk.lastHb = none) ∧ (rbit s R.XLK_PAIR_CFG_ALONE_OK = true) :=
  ⟨rset (rset (rset live R.XLK_ROLE_ROLE 1) R.XLK_PAIR_CFG_ALONE_OK 1) R.TKE_ROW_LO_ROW 900, by decide⟩

theorem meets_primaryHeard : ∃ (s : State) (h : Heartbeat),
    (s.fabric = true) ∧ (role s = 1) ∧ (s.xlk.startRow + rval s R.XLK_PAIR_CFG_HB_MISS + 2 ≤ rowNow s) ∧ (s.xlk.lastHb = some h) ∧ (h.role = 2) :=
  ⟨{ rset (rset live R.XLK_ROLE_ROLE 1) R.TKE_ROW_LO_ROW 900 with xlk := { Xlk.reset with lastHb := some { someBeat with role := 2 } } }, { someBeat with role := 2 }, by decide⟩

theorem meets_rowShadowed : ∃ (s : State) (t : Fc) (h : Heartbeat) (a : State) (r : State × Nat),
    (s.fabric = true) ∧ (role s = 3 ∨ role s = 4) ∧ (s.xlk.shadowed = false) ∧ (s.xlk.lastHb = some h) ∧ (h.role = 2) ∧ (h.mirrorCount = 0 ∨ (s.xlk.mirrorRow = h.row ∧ h.mirrorCount ≤ s.xlk.mirrorGot)) ∧ (h.overrun = false) ∧ (h.stopped = false) ∧ (h.disarmed = false) ∧ (a = (shadowEpoch (applyInbox { advance s t with xlk := { s.xlk with shadowed := true } } h.row) h.epoch)) ∧ (r = shadowRun a h) :=
  ⟨{ rset live R.XLK_ROLE_ROLE 4 with xlk := { Xlk.reset with lastHb := some { someBeat with role := 2 }, shadowed := false } }, 0, { someBeat with role := 2 }, (shadowEpoch (applyInbox { advance ({ rset live R.XLK_ROLE_ROLE 4 with xlk := { Xlk.reset with lastHb := some { someBeat with role := 2 }, shadowed := false } }) 0 with xlk := { ({ rset live R.XLK_ROLE_ROLE 4 with xlk := { Xlk.reset with lastHb := some { someBeat with role := 2 }, shadowed := false } } : State).xlk with shadowed := true } } 4) 1), (shadowRun (shadowEpoch (applyInbox { advance ({ rset live R.XLK_ROLE_ROLE 4 with xlk := { Xlk.reset with lastHb := some { someBeat with role := 2 }, shadowed := false } }) 0 with xlk := { ({ rset live R.XLK_ROLE_ROLE 4 with xlk := { Xlk.reset with lastHb := some { someBeat with role := 2 }, shadowed := false } } : State).xlk with shadowed := true } } 4) 1) { someBeat with role := 2 }), by decide, by decide, by decide, rfl, rfl, by decide, by decide, by decide, by decide, rfl, rfl⟩

theorem meets_overrunShadowed : ∃ (s : State) (t : Fc) (h : Heartbeat) (a : State),
    (s.fabric = true) ∧ (role s = 3 ∨ role s = 4) ∧ (s.xlk.shadowed = false) ∧ (s.xlk.lastHb = some h) ∧ (h.role = 2) ∧ (h.mirrorCount = 0 ∨ (s.xlk.mirrorRow = h.row ∧ h.mirrorCount ≤ s.xlk.mirrorGot)) ∧ (h.overrun = true ∨ h.stopped = true ∨ h.disarmed = true) ∧ (a = (shadowEpoch (applyInbox { advance s t with xlk := { s.xlk with shadowed := true } } h.row) h.epoch)) :=
  ⟨{ rset live R.XLK_ROLE_ROLE 4 with xlk := { Xlk.reset with lastHb := some { someBeat with role := 2, overrun := true }, shadowed := false } }, 0, { someBeat with role := 2, overrun := true }, (shadowEpoch (applyInbox { advance ({ rset live R.XLK_ROLE_ROLE 4 with xlk := { Xlk.reset with lastHb := some { someBeat with role := 2, overrun := true }, shadowed := false } }) 0 with xlk := { ({ rset live R.XLK_ROLE_ROLE 4 with xlk := { Xlk.reset with lastHb := some { someBeat with role := 2, overrun := true }, shadowed := false } } : State).xlk with shadowed := true } } 4) 1), by decide, by decide, by decide, rfl, rfl, by decide, by decide, rfl⟩

theorem meets_shadowMatches : ∃ (s : State) (h : Heartbeat),
    (s.fabric = true) ∧ (role s = 4) ∧ (s.xlk.shadowed = false) ∧ (s.xlk.lastHb = some h) ∧ (h.role = 2) ∧ (h.mirrorCount = 0 ∨ (s.xlk.mirrorRow = h.row ∧ h.mirrorCount ≤ s.xlk.mirrorGot)) ∧ (h.overrun = false) ∧ (h.stopped = false) ∧ (h.disarmed = false) ∧ (h.fallback = false) ∧ (s.tke.main = none) ∧ (s.xlk.inbox = []) ∧ (s.tke.pendTbl = none) ∧ (h.digest = 0) :=
  ⟨{ rset live R.XLK_ROLE_ROLE 4 with xlk := { Xlk.reset with lastHb := some { someBeat with role := 2 }, shadowed := false } }, { someBeat with role := 2 }, by decide⟩

theorem meets_forwardReleased : ∃ (s : State) (t : Fc) (f : Forwarded) (l : List Forwarded),
    (s.fabric = true) ∧ (edgeDue (advance s t) = false) ∧ (s.xlk.forwards = f :: l) ∧ (f.sentAt + 40000000 ≤ max s.now t) :=
  ⟨{ live with xlk := { Xlk.reset with forwards := [.table ⟨7, 0, 0⟩ 1 0] } }, 40000000, .table ⟨7, 0, 0⟩ 1 0, [], by decide⟩

theorem meets_searchStarts : ∃ (s : State) (t : Fc) (r : Ref) (d : Desc),
    (s.fabric = true) ∧ (heldDesc s r 0xB 0x51 = some d) ∧ (due (advance s t) d = true) ∧ (searchRoom s (bitOf d.classWord 16) = true) :=
  ⟨holding ({ header 11 0x51 with classWord := 0x00020401 }) (rset live R.NAV_CTRL_EN 1), 0, ⟨7, 0, 0⟩, { header 11 0x51 with classWord := 0x00020401 }, by decide⟩

theorem meets_searchWaits : ∃ (s : State) (t : Fc) (r : Ref) (d : Desc),
    (s.fabric = true) ∧ (heldDesc s r 0xB 0x51 = some d) ∧ (due (advance s t) d = true) ∧ (searchRoom s (bitOf d.classWord 16) = false) :=
  ⟨holding ({ header 11 0x51 with classWord := 0x00020401 }) (rset live R.NAV_CTRL_EN 0), 0, ⟨7, 0, 0⟩, { header 11 0x51 with classWord := 0x00020401 }, by decide⟩

theorem meets_searchFails : ∃ (s : State) (t : Fc) (r : Ref) (x : NavSearch) (a : SatAid) (f : Bool),
    (s.fabric = true) ∧ (s.nav.searches.find? (fun x => x.ref == r) = some x) ∧ (searchFound (advance s t) x.mode x.sig x.sat a f = false) :=
  ⟨{ holding ({ header 11 0x51 with classWord := 0x00020401 }) (rset (rset live R.NAV_CTRL_EN 1) R.NAV_SIG_EN_SIG 2) with nav := { Nav.reset with searches := [⟨⟨7, 0, 0⟩, false, 1, 4, 1⟩] } }, 0, ⟨7, 0, 0⟩, ⟨⟨7, 0, 0⟩, false, 1, 4, 1⟩, ⟨30, [1], true, 6001, 0, 0, 0, 0⟩, true, by decide⟩

theorem meets_searchFinds : ∃ (s : State) (t : Fc) (r : Ref) (x : NavSearch) (a : SatAid) (f : Bool),
    (s.fabric = true) ∧ (s.nav.searches.find? (fun x => x.ref == r) = some x) ∧ (searchFound (advance s t) x.mode x.sig x.sat a f = true) :=
  ⟨{ holding ({ header 11 0x51 with classWord := 0x00020401 }) (rset (rset live R.NAV_CTRL_EN 1) R.NAV_SIG_EN_SIG 2) with nav := { Nav.reset with searches := [⟨⟨7, 0, 0⟩, false, 1, 4, 1⟩] } }, 0, ⟨7, 0, 0⟩, ⟨⟨7, 0, 0⟩, false, 1, 4, 1⟩, ⟨30, [1], true, 6000, 0, 0, 0, 0⟩, true, by decide⟩

theorem meets_foundTracked : ∃ (s : State) (t : Fc) (g : Nat) (v : Nat) (a : SatAid),
    (s.fabric = true) ∧ (searchFound (advance s t) (searchMode (advance s t) false a.known) g v a true = true) ∧ (trkEligible s ⟨false, g, v, a.elev, a.sends, 0⟩ = true) ∧ (rbit s R.NAV_CTRL_HEADING_EN = false) ∧ ((s.nav.trk.filter fun c => !c.antB).length < 128) :=
  ⟨rset (rset live R.NAV_CTRL_EN 1) R.NAV_SIG_EN_SIG 2, 0, 1, 2, ⟨30, [1], true, 900, 0, 0, 0, 0⟩, by decide⟩

theorem meets_lockLost : ∃ (s : State) (b : Bool),
    (s.fabric = true) ∧ (b = false ∨ rbit s R.NAV_CTRL_HEADING_EN = false) :=
  ⟨{ rset live R.NAV_CTRL_EN 1 with nav := { Nav.reset with trk := [⟨false, 1, 2, 30, [1], 32⟩, ⟨true, 1, 2, 30, [1], 32⟩] } }, false, by decide⟩

theorem meets_lockMoves : ∃ (s : State),
    (s.fabric = true) :=
  ⟨{ rset live R.NAV_CTRL_EN 1 with nav := { Nav.reset with trk := [⟨false, 1, 2, 30, [1], 32⟩] } }, by decide⟩

theorem meets_rtcmLength : ∃ (s : State) (t : Fc) (r : Ref) (d : Desc),
    (s.fabric = true) ∧ (heldDesc s r 0xB 0x50 = some d) ∧ (due (advance s t) d = true) ∧ ((d.word 0x18 % 65536) = 0 ∨ 4096 < (d.word 0x18 % 65536)) :=
  ⟨holding ({ header 11 0x50 with body := [0, 0, 4097] ++ List.replicate 9 0 }) (live), 0, ⟨7, 0, 0⟩, { header 11 0x50 with body := [0, 0, 4097] ++ List.replicate 9 0 }, by decide⟩

theorem meets_rtcmDisabled : ∃ (s : State) (t : Fc) (r : Ref) (d : Desc),
    (s.fabric = true) ∧ (heldDesc s r 0xB 0x50 = some d) ∧ (due (advance s t) d = true) ∧ (1 ≤ (d.word 0x18 % 65536)) ∧ ((d.word 0x18 % 65536) ≤ 4096) ∧ (rbit s R.NAV_CTRL_RTK_EN = false) :=
  ⟨holding ({ header 11 0x50 with body := [0, 0, 6] ++ List.replicate 9 0 }) (rset live R.NAV_CTRL_RTK_EN 0), 0, ⟨7, 0, 0⟩, { header 11 0x50 with body := [0, 0, 6] ++ List.replicate 9 0 }, by decide⟩

theorem meets_rtcmTaken : ∃ (s : State) (t : Fc) (r : Ref) (d : Desc),
    (s.fabric = true) ∧ (heldDesc s r 0xB 0x50 = some d) ∧ (due (advance s t) d = true) ∧ (1 ≤ (d.word 0x18 % 65536)) ∧ ((d.word 0x18 % 65536) ≤ 4096) ∧ (rbit s R.NAV_CTRL_RTK_EN = true) :=
  ⟨holding ({ header 11 0x50 with body := [0, 0, 6] ++ List.replicate 9 0 }) (rset live R.NAV_CTRL_RTK_EN 1), 0, ⟨7, 0, 0⟩, { header 11 0x50 with body := [0, 0, 6] ++ List.replicate 9 0 }, by decide⟩

theorem meets_recordMade : ∃ (s : State) (t : Fc),
    (s.fabric = true) ∧ (s.nav.stepNext ≤ moduleTime (advance s t)) :=
  ⟨rset live R.NAV_CTRL_EN 1, 400000, by decide⟩

theorem meets_outageEnds : ∃ (s : State) (t : Fc),
    (s.fabric = true) ∧ (s.nav.record.fix = 5) ∧ (drMaxFc s ≤ outageFc (advance s t)) :=
  ⟨{ live with nav := { Nav.reset with record := { NavRec.zero with fix := 5 }, fixAt := some 0 } }, 24000000000, by decide⟩

theorem meets_correctionsOld : ∃ (s : State) (t : Fc),
    (s.fabric = true) ∧ (s.nav.record.fix = 3 ∨ s.nav.record.fix = 4) ∧ (rtkOk (advance s t) = false) :=
  ⟨{ live with nav := { Nav.reset with record := { NavRec.zero with fix := 4 } } }, 0, by decide⟩

theorem meets_antennaOpens : ∃ (s : State) (b : Bool),
    (s.fabric = true) ∧ (supplyOn s b = true) ∧ (rbit s (antOpenFld b) = false) :=
  ⟨live, true, by decide⟩

theorem meets_antennaStays : ∃ (s : State) (b : Bool),
    (s.fabric = true) ∧ (supplyOn s b = true) ∧ (rbit s (antOpenFld b) = true) :=
  ⟨rset live R.NAV_ANT_OPEN_B 1, true, by decide⟩

theorem meets_antennaBack : ∃ (s : State),
    (s.fabric = true) :=
  ⟨live, by decide⟩

theorem meets_antennaShorts : ∃ (s : State) (b : Bool),
    (s.fabric = true) ∧ (supplyOn s b = true) ∧ (rbit s (antShortFld b) = false) :=
  ⟨live, true, by decide⟩

theorem meets_retryWorks : ∃ (s : State) (t : Fc) (b : Bool) (a : Nat),
    (s.fabric = true) ∧ (tblGet? s.nav.supplyOff (b2n b) = some a) ∧ (a + 400000000 ≤ max s.now t) :=
  ⟨{ live with nav := { Nav.reset with supplyOff := [(1, 0)] } }, 400000000, true, 0, by decide⟩

theorem meets_retryFails : ∃ (s : State) (t : Fc) (b : Bool) (a : Nat),
    (s.fabric = true) ∧ (tblGet? s.nav.supplyOff (b2n b) = some a) ∧ (a + 400000000 ≤ max s.now t) :=
  ⟨{ live with nav := { Nav.reset with supplyOff := [(1, 0)] } }, 400000000, true, 0, by decide⟩

theorem meets_navSaves : ∃ (s : State) (t : Fc),
    (s.fabric = true) ∧ (1 ≤ s.nav.record.fix) ∧ (s.nav.record.fix ≤ 4) ∧ (s.nav.savedAt + 600 * 400000000 ≤ max s.now t) :=
  ⟨{ live with nav := { Nav.reset with record := { NavRec.zero with fix := 2 } } }, 240000000000, by decide⟩

theorem meets_firstSolution : ∃ (s : State) (d : Int) (q : Bool) (a : Option Int) (b : Option Int) (n : Nat) (far : Bool),
    (s.fabric = true) ∧ (rbit s R.NAV_CTRL_EN = true) ∧ ((a = some d ∧ q = false) ∨ (a = none ∧ b = some d ∧ rbit s R.NAV_CTRL_ANT_B_EN = true ∧ q = true)) ∧ (s.nav.started = true ∨ far = false) ∧ (n ≤ 100) ∧ (rget s R.NAV_STATE_TIME_STATE = 0) :=
  ⟨{ rset (rset (rset live R.NAV_CTRL_EN 1) R.NAV_CTRL_ANT_B_EN 1) R.NAV_STATE_TIME_STATE 0 with nav := { Nav.reset with started := false } }, 1000, true, none, some 1000, 20, false, by decide⟩

theorem meets_solutionInGnss : ∃ (s : State) (d : Int) (q : Bool) (a : Option Int) (b : Option Int) (n : Nat) (far : Bool),
    (s.fabric = true) ∧ (rbit s R.NAV_CTRL_EN = true) ∧ ((a = some d ∧ q = false) ∨ (a = none ∧ b = some d ∧ rbit s R.NAV_CTRL_ANT_B_EN = true ∧ q = true)) ∧ (s.nav.started = true ∨ far = false) ∧ (n ≤ 100) ∧ (rget s R.NAV_STATE_TIME_STATE = 1) :=
  ⟨{ rset (rset (rset live R.NAV_CTRL_EN 1) R.NAV_CTRL_ANT_B_EN 1) R.NAV_STATE_TIME_STATE 1 with nav := { Nav.reset with started := true } }, 1000, true, none, some 1000, 20, false, by decide⟩

theorem meets_solutionInHoldover : ∃ (s : State) (d : Int) (q : Bool) (a : Option Int) (b : Option Int) (n : Nat) (far : Bool),
    (s.fabric = true) ∧ (rbit s R.NAV_CTRL_EN = true) ∧ ((a = some d ∧ q = false) ∨ (a = none ∧ b = some d ∧ rbit s R.NAV_CTRL_ANT_B_EN = true ∧ q = true)) ∧ (s.nav.started = true ∨ far = false) ∧ (n ≤ 100) ∧ (rget s R.NAV_STATE_TIME_STATE = 2) :=
  ⟨{ rset (rset (rset live R.NAV_CTRL_EN 1) R.NAV_CTRL_ANT_B_EN 1) R.NAV_STATE_TIME_STATE 2 with nav := { Nav.reset with started := true } }, 1000, true, none, some 1000, 20, false, by decide⟩

theorem meets_solutionInSlew : ∃ (s : State) (d : Int) (q : Bool) (a : Option Int) (b : Option Int) (n : Nat) (far : Bool),
    (s.fabric = true) ∧ (rbit s R.NAV_CTRL_EN = true) ∧ ((a = some d ∧ q = false) ∨ (a = none ∧ b = some d ∧ rbit s R.NAV_CTRL_ANT_B_EN = true ∧ q = true)) ∧ (s.nav.started = true ∨ far = false) ∧ (n ≤ 100) ∧ (rget s R.NAV_STATE_TIME_STATE = 3) :=
  ⟨{ rset (rset (rset live R.NAV_CTRL_EN 1) R.NAV_CTRL_ANT_B_EN 1) R.NAV_STATE_TIME_STATE 3 with nav := { Nav.reset with started := true } }, 1000, true, none, some 1000, 20, false, by decide⟩

theorem meets_solutionUncertain : ∃ (s : State) (d : Int) (q : Bool) (a : Option Int) (b : Option Int) (n : Nat) (far : Bool),
    (s.fabric = true) ∧ (rbit s R.NAV_CTRL_EN = true) ∧ ((a = some d ∧ q = false) ∨ (a = none ∧ b = some d ∧ rbit s R.NAV_CTRL_ANT_B_EN = true ∧ q = true)) ∧ (s.nav.started = true ∨ far = false) ∧ (100 < n) :=
  ⟨{ rset (rset (rset live R.NAV_CTRL_EN 1) R.NAV_CTRL_ANT_B_EN 1) R.NAV_STATE_TIME_STATE 1 with nav := { Nav.reset with started := true } }, 1000, true, none, some 1000, 101, false, by decide⟩

theorem meets_savedIsBad : ∃ (s : State) (d : Int) (q : Bool) (a : Option Int) (b : Option Int) (n : Nat) (far : Bool),
    (s.fabric = true) ∧ (rbit s R.NAV_CTRL_EN = true) ∧ ((a = some d ∧ q = false) ∨ (a = none ∧ b = some d ∧ rbit s R.NAV_CTRL_ANT_B_EN = true ∧ q = true)) ∧ (s.nav.started = false) ∧ (100 < n) ∧ (far = true) ∧ (rget s R.NAV_STATE_START_KIND = 1 ∨ rget s R.NAV_STATE_START_KIND = 2) :=
  ⟨{ rset (rset (rset live R.NAV_CTRL_EN 1) R.NAV_CTRL_ANT_B_EN 1) R.NAV_STATE_START_KIND 1 with nav := Nav.reset }, 1000, true, none, some 1000, 101, true, by decide⟩

theorem meets_leapKnown : ∃ (s : State),
    (s.fabric = true) :=
  ⟨live, by decide⟩

theorem meets_holdoverBegins : ∃ (s : State) (t : Fc),
    (s.fabric = true) ∧ (rget s R.NAV_STATE_TIME_STATE = 1 ∨ rget s R.NAV_STATE_TIME_STATE = 3) ∧ (s.nav.solAt + 400000000 ≤ max s.now t) :=
  ⟨{ rset (rset (rset live R.NAV_CTRL_EN 1) R.NAV_CTRL_ANT_B_EN 1) R.NAV_STATE_TIME_STATE 1 with nav := { Nav.reset with started := true } }, 400000000, by decide⟩

theorem meets_solutionsBack : ∃ (s : State) (t : Fc),
    (s.fabric = true) ∧ (rget s R.NAV_STATE_TIME_STATE = 1) ∧ (max s.now t < s.nav.solAt + 400000000) :=
  ⟨{ rset (rset (rset live R.NAV_CTRL_EN 1) R.NAV_CTRL_ANT_B_EN 1) R.NAV_STATE_TIME_STATE 1 with nav := { Nav.reset with started := true } }, 399999999, by decide⟩

theorem meets_boundaryPasses : ∃ (s : State) (t : Fc),
    (s.fabric = true) ∧ (tpNext s ≤ moduleTime (advance s t)) ∧ (rget s R.NAV_STATE_TIME_STATE ≠ 2) ∧ (boundaryDelta (advance s t) = none) :=
  ⟨{ rset (rset (rset live R.NAV_CTRL_EN 1) R.NAV_CTRL_ANT_B_EN 1) R.NAV_STATE_TIME_STATE 1 with nav := { Nav.reset with started := true } }, 400000000, by decide⟩

theorem meets_boundarySlews : ∃ (s : State) (t : Fc) (d : Int),
    (s.fabric = true) ∧ (tpNext s ≤ moduleTime (advance s t)) ∧ (rget s R.NAV_STATE_TIME_STATE = 1) ∧ (s.nav.delta = d) ∧ (d ≠ 0) ∧ (d ≤ 4 * (rget s R.NAV_HO_LIMITS_SLEW_LIMIT : Int)) ∧ (-(4 * (rget s R.NAV_HO_LIMITS_SLEW_LIMIT : Int)) ≤ d) :=
  ⟨{ rset (rset (rset live R.NAV_CTRL_EN 1) R.NAV_CTRL_ANT_B_EN 1) R.NAV_STATE_TIME_STATE 1 with nav := { Nav.reset with started := true, delta := 8 } }, 400000000, 8, by decide⟩

theorem meets_boundaryConfirms : ∃ (s : State) (t : Fc) (d : Int) (k : NavConf),
    (s.fabric = true) ∧ (tpNext s ≤ moduleTime (advance s t)) ∧ (rget s R.NAV_STATE_TIME_STATE = 2) ∧ (s.nav.conf = some k) ∧ (k.first + 1200000000 ≤ k.last) ∧ (s.nav.delta = d) ∧ (d ≠ 0) ∧ (d ≤ 4 * (rget s R.NAV_HO_LIMITS_SLEW_LIMIT : Int)) ∧ (-(4 * (rget s R.NAV_HO_LIMITS_SLEW_LIMIT : Int)) ≤ d) :=
  ⟨{ rset (rset (rset live R.NAV_CTRL_EN 1) R.NAV_CTRL_ANT_B_EN 1) R.NAV_STATE_TIME_STATE 2 with nav := { Nav.reset with started := true, delta := 8, conf := some ⟨0, 1200000000, 8, 8⟩ } }, 1200000000, 8, ⟨0, 1200000000, 8, 8⟩, by decide⟩

theorem meets_boundarySteps : ∃ (s : State) (t : Fc) (d : Int),
    (s.fabric = true) ∧ (tpNext s ≤ moduleTime (advance s t)) ∧ (rget s R.NAV_STATE_TIME_STATE = 1) ∧ (s.nav.delta = d) ∧ (d < 0) ∧ (d < -(4 * (rget s R.NAV_HO_LIMITS_SLEW_LIMIT : Int))) :=
  ⟨{ rset (rset (rset live R.NAV_CTRL_EN 1) R.NAV_CTRL_ANT_B_EN 1) R.NAV_STATE_TIME_STATE 1 with nav := { Nav.reset with started := true, delta := -80000000 } }, 400000000, -80000000, by decide⟩

theorem meets_boundaryStepsBack : ∃ (s : State) (t : Fc) (d : Int),
    (s.fabric = true) ∧ (tpNext s ≤ moduleTime (advance s t)) ∧ (rget s R.NAV_STATE_TIME_STATE = 1) ∧ (s.nav.delta = d) ∧ (0 < d) ∧ (4 * (rget s R.NAV_HO_LIMITS_SLEW_LIMIT : Int) < d) :=
  ⟨{ rset (rset (rset live R.NAV_CTRL_EN 1) R.NAV_CTRL_ANT_B_EN 1) R.NAV_STATE_TIME_STATE 1 with nav := { Nav.reset with started := true, delta := 80000000 } }, 400000000, 80000000, by decide⟩

theorem meets_boundaryEarly : ∃ (s : State) (t : Fc),
    (s.fabric = true) ∧ (moduleTime (advance s t) < tpNext s) :=
  ⟨rset live R.NAV_TP_NEXT_LO_TIME 1000, 399, by decide⟩

theorem meets_slewEnds : ∃ (s : State) (t : Fc),
    (s.fabric = true) ∧ (rget s R.NAV_STATE_TIME_STATE = 3) ∧ (slewLeft (advance s t) = 0) :=
  ⟨{ rset (rset (rset live R.NAV_CTRL_EN 1) R.NAV_CTRL_ANT_B_EN 1) R.NAV_STATE_TIME_STATE 3 with nav := { Nav.reset with started := true } }, 0, by decide⟩

theorem meets_extractBad : ∃ (s : State) (x : Extract) (l : List Extract),
    (s.fabric = true) ∧ (s.sto.samples = x :: l) ∧ (x.q00Bad = true) :=
  ⟨{ live with sto := { Sto.reset with samples := [{ row := 1, edge := 13000000000, q00 := 0, q00Bad := true, q08 := 0, q08Bad := false, lat := 0, lon := 0, heading := 0, roll := 0, pitch := 0, posValid := false, headingValid := false, slopeValid := false, dig := 0 }], prevEdge := some 12999000000, history := [] } }, { row := 1, edge := 13000000000, q00 := 0, q00Bad := true, q08 := 0, q08Bad := false, lat := 0, lon := 0, heading := 0, roll := 0, pitch := 0, posValid := false, headingValid := false, slopeValid := false, dig := 0 }, [], by decide⟩

theorem meets_extractMapped : ∃ (s : State) (t : Fc) (x : Extract) (l : List Extract) (b : HistPos) (a : HistPos) (e : Nat),
    (s.fabric = true) ∧ (s.sto.samples = x :: l) ∧ (x.q00Bad = false) ∧ (s.sto.prevEdge = some e) ∧ (e ≤ x.edge) ∧ (x.edge ≤ e + 100000000) ∧ (travelDelay s x.q00 ≤ x.edge) ∧ (bracket (enterHistory (advance s t) x) (x.edge - travelDelay s x.q00) = some (b, a)) ∧ (b.recording = true) ∧ (b.sections ≠ 0) ∧ ((needTiles (enterHistory (advance s t) x) (stripTiles (stripsOf (enterHistory (advance s t) x) (pointAt b a (x.edge - travelDelay s x.q00)) b.heading b.sections))).2 = true) :=
  ⟨{ live with sto := { Sto.reset with samples := [{ row := 1, edge := 13000000000, q00 := 0, q00Bad := false, q08 := 0, q08Bad := false, lat := 0, lon := 0, heading := 0, roll := 0, pitch := 0, posValid := false, headingValid := false, slopeValid := false, dig := 0 }], prevEdge := some 12999000000, history := [⟨1000000000, true, 0, 0, 0, true, 1⟩] } }, 0, { row := 1, edge := 13000000000, q00 := 0, q00Bad := false, q08 := 0, q08Bad := false, lat := 0, lon := 0, heading := 0, roll := 0, pitch := 0, posValid := false, headingValid := false, slopeValid := false, dig := 0 }, [], ⟨1000000000, true, 0, 0, 0, true, 1⟩, ⟨1000000000, true, 0, 0, 0, true, 1⟩, 12999000000, by decide +kernel⟩

theorem meets_extractNowhere : ∃ (s : State) (t : Fc) (x : Extract) (l : List Extract) (e : Nat),
    (s.fabric = true) ∧ (s.sto.samples = x :: l) ∧ (x.q00Bad = false) ∧ (s.sto.prevEdge = some e) ∧ (e ≤ x.edge) ∧ (x.edge ≤ e + 100000000) ∧ (travelDelay s x.q00 ≤ x.edge) ∧ (bracket (enterHistory (advance s t) x) (x.edge - travelDelay s x.q00) = none) :=
  ⟨{ live with sto := { Sto.reset with samples := [{ row := 1, edge := 13000000000, q00 := 0, q00Bad := false, q08 := 0, q08Bad := false, lat := 0, lon := 0, heading := 0, roll := 0, pitch := 0, posValid := false, headingValid := false, slopeValid := false, dig := 0 }], prevEdge := some 12999000000, history := [] } }, 0, { row := 1, edge := 13000000000, q00 := 0, q00Bad := false, q08 := 0, q08Bad := false, lat := 0, lon := 0, heading := 0, roll := 0, pitch := 0, posValid := false, headingValid := false, slopeValid := false, dig := 0 }, [], 12999000000, by decide +kernel⟩

theorem meets_extractIdle : ∃ (s : State) (t : Fc) (x : Extract) (l : List Extract) (e : Nat) (b : HistPos) (a : HistPos),
    (s.fabric = true) ∧ (s.sto.samples = x :: l) ∧ (x.q00Bad = false) ∧ (s.sto.prevEdge = some e) ∧ (e ≤ x.edge) ∧ (x.edge ≤ e + 100000000) ∧ (travelDelay s x.q00 ≤ x.edge) ∧ (bracket (enterHistory (advance s t) x) (x.edge - travelDelay s x.q00) = some (b, a)) ∧ (b.recording = false ∨ b.sections = 0) :=
  ⟨{ live with sto := { Sto.reset with samples := [{ row := 1, edge := 13000000000, q00 := 0, q00Bad := false, q08 := 0, q08Bad := false, lat := 0, lon := 0, heading := 0, roll := 0, pitch := 0, posValid := false, headingValid := false, slopeValid := false, dig := 0 }], prevEdge := some 12999000000, history := [⟨1000000000, true, 0, 0, 0, true, 0⟩] } }, 0, { row := 1, edge := 13000000000, q00 := 0, q00Bad := false, q08 := 0, q08Bad := false, lat := 0, lon := 0, heading := 0, roll := 0, pitch := 0, posValid := false, headingValid := false, slopeValid := false, dig := 0 }, [], 12999000000, ⟨1000000000, true, 0, 0, 0, true, 0⟩, ⟨1000000000, true, 0, 0, 0, true, 0⟩, by decide +kernel⟩

theorem meets_extractWaits : ∃ (s : State) (t : Fc) (x : Extract) (l : List Extract) (e : Nat) (b : HistPos) (a : HistPos),
    (s.fabric = true) ∧ (s.sto.samples = x :: l) ∧ (x.q00Bad = false) ∧ (s.sto.prevEdge = some e) ∧ (e ≤ x.edge) ∧ (x.edge ≤ e + 100000000) ∧ (travelDelay s x.q00 ≤ x.edge) ∧ (bracket (enterHistory (advance s t) x) (x.edge - travelDelay s x.q00) = some (b, a)) ∧ (b.recording = true) ∧ (b.sections ≠ 0) ∧ ((needTiles (enterHistory (advance s t) x) (stripTiles (stripsOf (enterHistory (advance s t) x) (pointAt b a (x.edge - travelDelay s x.q00)) b.heading b.sections))).2 = false) :=
  ⟨(fun x : State => { rset x R.STO_SECT_WIDTH_CM 100 0 0 with sto := { x.sto with map := [(tileId 1 0 0, ⟨tileNew live (tileId 1 0 0), 7, 0, [], 0⟩)] } }) ({ live with sto := { Sto.reset with samples := [{ row := 1, edge := 13000000000, q00 := 0, q00Bad := false, q08 := 0, q08Bad := false, lat := 0, lon := 0, heading := 0, roll := 0, pitch := 0, posValid := false, headingValid := false, slopeValid := false, dig := 0 }], prevEdge := some 12999000000, history := [⟨1000000000, true, 0, 0, 0, true, 1⟩] } }), 0, { row := 1, edge := 13000000000, q00 := 0, q00Bad := false, q08 := 0, q08Bad := false, lat := 0, lon := 0, heading := 0, roll := 0, pitch := 0, posValid := false, headingValid := false, slopeValid := false, dig := 0 }, [], 12999000000, ⟨1000000000, true, 0, 0, 0, true, 1⟩, ⟨1000000000, true, 0, 0, 0, true, 1⟩, by decide +kernel⟩

theorem meets_loadCached : ∃ (s : State) (t : Fc) (r : Ref) (d : Desc) (k : Nat) (c : CacheSlot),
    (s.fabric = true) ∧ (heldDesc s r 0xB 0x60 = some d) ∧ (due (advance s t) d = true) ∧ (tileError s (d.quad 0x10) = none) ∧ (cacheFind s (d.quad 0x10) = some (k, c)) ∧ (c.loading = false) :=
  ⟨holding ({ header 11 0x60 with classWord := 0, body := [0, 3, 0, 0, 0, 0, 0, 0, 0, 0, 0, 0] }) ((fun x : State => { x with sto := { x.sto with cache := [(5, ⟨{ tileNew live (3 * 2 ^ 32) with cells := [(9, 4)] }, false, none, none, 1, [], 0⟩)] } }) (rset inUse R.STO_CACHE_BASE_LO_ADDR_LO 1)), 0, ⟨7, 0, 0⟩, { header 11 0x60 with classWord := 0, body := [0, 3, 0, 0, 0, 0, 0, 0, 0, 0, 0, 0] }, 5, ⟨{ tileNew live (3 * 2 ^ 32) with cells := [(9, 4)] }, false, none, none, 1, [], 0⟩, by decide⟩

theorem meets_loadStored : ∃ (s : State) (t : Fc) (r : Ref) (d : Desc) (k : Nat) (x : Stored),
    (s.fabric = true) ∧ (heldDesc s r 0xB 0x60 = some d) ∧ (due (advance s t) d = true) ∧ (tileError s (d.quad 0x10) = none) ∧ (cacheFind s (d.quad 0x10) = none) ∧ (slotFor s [(d.quad 0x10)] = some k) ∧ (tblGet? s.sto.map (d.quad 0x10) = some x) :=
  ⟨holding ({ header 11 0x60 with classWord := 0, body := [0, 3, 0, 0, 0, 0, 0, 0, 0, 0, 0, 0] }) ({ rset inUse R.STO_CACHE_BASE_LO_ADDR_LO 1 with sto := { Sto.reset with map := [(3 * 2 ^ 32, ⟨tileNew live (3 * 2 ^ 32), 7, 0, [], 0⟩)] } }), 0, ⟨7, 0, 0⟩, { header 11 0x60 with classWord := 0, body := [0, 3, 0, 0, 0, 0, 0, 0, 0, 0, 0, 0] }, 0, ⟨tileNew live (3 * 2 ^ 32), 7, 0, [], 0⟩, by decide +kernel⟩

theorem meets_loadNew : ∃ (s : State) (t : Fc) (r : Ref) (d : Desc) (k : Nat),
    (s.fabric = true) ∧ (heldDesc s r 0xB 0x60 = some d) ∧ (due (advance s t) d = true) ∧ (tileError s (d.quad 0x10) = none) ∧ (cacheFind s (d.quad 0x10) = none) ∧ (slotFor s [(d.quad 0x10)] = some k) ∧ (tblGet? s.sto.map (d.quad 0x10) = none) :=
  ⟨holding ({ header 11 0x60 with classWord := 0, body := [0, 3, 0, 0, 0, 0, 0, 0, 0, 0, 0, 0] }) (rset inUse R.STO_CACHE_BASE_LO_ADDR_LO 1), 0, ⟨7, 0, 0⟩, { header 11 0x60 with classWord := 0, body := [0, 3, 0, 0, 0, 0, 0, 0, 0, 0, 0, 0] }, 0, by decide +kernel⟩

theorem meets_loadServed : ∃ (s : State) (t : Fc) (r : Ref) (d : Desc),
    (s.fabric = true) ∧ (heldDesc s r 0xB 0x60 = some d) ∧ (due (advance s t) d = true) ∧ (tileError s (d.quad 0x10) = none) :=
  ⟨holding ({ header 11 0x60 with classWord := 0, body := [0, 3, 0, 0, 0, 0, 0, 0, 0, 0, 0, 0] }) ((fun x : State => { x with sto := { x.sto with cache := [(5, ⟨{ tileNew live (3 * 2 ^ 32) with cells := [(9, 4)] }, false, none, none, 1, [], 0⟩)] } }) (rset inUse R.STO_CACHE_BASE_LO_ADDR_LO 1)), 0, ⟨7, 0, 0⟩, { header 11 0x60 with classWord := 0, body := [0, 3, 0, 0, 0, 0, 0, 0, 0, 0, 0, 0] }, by decide⟩

theorem meets_loadNoCache : ∃ (s : State) (t : Fc) (r : Ref) (d : Desc),
    (s.fabric = true) ∧ (heldDesc s r 0xB 0x60 = some d) ∧ (due (advance s t) d = true) ∧ (tileIdOk (d.quad 0x10) = true) ∧ (cacheBase s = 0) :=
  ⟨holding ({ header 11 0x60 with classWord := 0, body := [0, 3, 0, 0, 0, 0, 0, 0, 0, 0, 0, 0] }) (live), 0, ⟨7, 0, 0⟩, { header 11 0x60 with classWord := 0, body := [0, 3, 0, 0, 0, 0, 0, 0, 0, 0, 0, 0] }, by decide⟩

theorem meets_tileWritten : ∃ (s : State) (t : Fc) (r : Ref) (d : Desc) (img : List Nat) (k : Nat) (c : CacheSlot),
    (s.fabric = true) ∧ (heldDesc s r 0xB 0x61 = some d) ∧ (due (advance s t) d = true) ∧ (tileError s (d.quad 0x10) = none) ∧ (tileKind (d.quad 0x10) = 3) ∧ (tileImageOk s (d.quad 0x10) img = true) ∧ (cacheFind s (d.quad 0x10) = some (k, c)) ∧ (c.loading = false) ∧ (tblGet? s.sto.cache k = some c) ∧ (tblSorted s.sto.cache = true) ∧ (tblSorted c.tile.cells = true) :=
  ⟨holding ({ header 11 0x61 with classWord := 0, body := [0, 3, 0, 0, 0, 0, 0, 0, 0, 0, 0, 0] }) ((fun x : State => { x with sto := { x.sto with cache := [(5, ⟨{ tileNew live (3 * 2 ^ 32) with cells := [(9, 4)] }, false, none, none, 1, [], 0⟩)] } }) (rset inUse R.STO_CACHE_BASE_LO_ADDR_LO 1)), 0, ⟨7, 0, 0⟩, { header 11 0x61 with classWord := 0, body := [0, 3, 0, 0, 0, 0, 0, 0, 0, 0, 0, 0] }, goodImage, 5, ⟨{ tileNew live (3 * 2 ^ 32) with cells := [(9, 4)] }, false, none, none, 1, [], 0⟩, by decide +kernel⟩

theorem meets_imageServed : ∃ (s : State) (t : Fc) (r : Ref) (d : Desc) (img : List Nat),
    (s.fabric = true) ∧ (heldDesc s r 0xB 0x61 = some d) ∧ (due (advance s t) d = true) ∧ (tileError s (d.quad 0x10) = none) ∧ (tileKind (d.quad 0x10) = 3 ∨ rbit s R.STO_MAP_CTRL_MAP_EN = false) ∧ (tileImageOk s (d.quad 0x10) img = true) :=
  ⟨holding ({ header 11 0x61 with classWord := 0, body := [0, 3, 0, 0, 0, 0, 0, 0, 0, 0, 0, 0] }) ((fun x : State => { x with sto := { x.sto with cache := [(5, ⟨{ tileNew live (3 * 2 ^ 32) with cells := [(9, 4)] }, false, none, none, 1, [], 0⟩)] } }) (rset inUse R.STO_CACHE_BASE_LO_ADDR_LO 1)), 0, ⟨7, 0, 0⟩, { header 11 0x61 with classWord := 0, body := [0, 3, 0, 0, 0, 0, 0, 0, 0, 0, 0, 0] }, goodImage, by decide +kernel⟩

theorem meets_imageRefused : ∃ (s : State) (t : Fc) (r : Ref) (d : Desc) (img : List Nat),
    (s.fabric = true) ∧ (heldDesc s r 0xB 0x61 = some d) ∧ (due (advance s t) d = true) ∧ (tileError s (d.quad 0x10) = none) ∧ (tileKind (d.quad 0x10) = 3) ∧ (tileImageOk s (d.quad 0x10) img = false) :=
  ⟨holding ({ header 11 0x61 with classWord := 0, body := [0, 3, 0, 0, 0, 0, 0, 0, 0, 0, 0, 0] }) (rset inUse R.STO_CACHE_BASE_LO_ADDR_LO 1), 0, ⟨7, 0, 0⟩, { header 11 0x61 with classWord := 0, body := [0, 3, 0, 0, 0, 0, 0, 0, 0, 0, 0, 0] }, [], by decide⟩

theorem meets_nothingDirty : ∃ (s : State) (t : Fc) (r : Ref) (d : Desc),
    (s.fabric = true) ∧ (heldDesc s r 0xB 0x62 = some d) ∧ (due (advance s t) d = true) ∧ (cacheBase s ≠ 0) ∧ (keyWithheld s 4 = false) ∧ (∀ p ∈ s.sto.cache, slotDirty p.2 = false) :=
  ⟨holding ({ header 11 0x62 with classWord := 0, body := [0, 0, 0, 0, 0, 0, 0, 0, 0, 0, 0, 0] }) ((fun x : State => { x with sto := { x.sto with cache := [(5, ⟨{ tileNew live (3 * 2 ^ 32) with cells := [(9, 4)] }, false, none, none, 1, [], 0⟩)] } }) (rset inUse R.STO_CACHE_BASE_LO_ADDR_LO 1)), 0, ⟨7, 0, 0⟩, { header 11 0x62 with classWord := 0, body := [0, 0, 0, 0, 0, 0, 0, 0, 0, 0, 0, 0] }, by decide⟩

theorem meets_flushAsked : ∃ (s : State) (t : Fc) (r : Ref) (d : Desc) (k : Nat) (c : CacheSlot),
    (s.fabric = true) ∧ (heldDesc s r 0xB 0x62 = some d) ∧ (due (advance s t) d = true) ∧ (cacheBase s ≠ 0) ∧ (keyWithheld s 4 = false) ∧ (s.sto.cache = [(k, c)]) ∧ (c.dirty.isSome = true) ∧ (c.flushing = none) ∧ (c.loading = false) :=
  ⟨holding ({ header 11 0x62 with classWord := 0, body := [0, 0, 0, 0, 0, 0, 0, 0, 0, 0, 0, 0] }) ((fun x : State => { x with sto := { x.sto with cache := [(5, ⟨{ tileNew live (3 * 2 ^ 32) with cells := [(9, 4)] }, false, some 3, none, 1, [], 0⟩)] } }) (rset inUse R.STO_CACHE_BASE_LO_ADDR_LO 1)), 0, ⟨7, 0, 0⟩, { header 11 0x62 with classWord := 0, body := [0, 0, 0, 0, 0, 0, 0, 0, 0, 0, 0, 0] }, 5, ⟨{ tileNew live (3 * 2 ^ 32) with cells := [(9, 4)] }, false, some 3, none, 1, [], 0⟩, by decide⟩

theorem meets_flushes : ∃ (s : State) (t : Fc) (r : Ref) (d : Desc),
    (s.fabric = true) ∧ (heldDesc s r 0xB 0x62 = some d) ∧ (due (advance s t) d = true) ∧ (cacheBase s ≠ 0) ∧ (keyWithheld s 4 = false) :=
  ⟨holding ({ header 11 0x62 with classWord := 0, body := [0, 0, 0, 0, 0, 0, 0, 0, 0, 0, 0, 0] }) ((fun x : State => { x with sto := { x.sto with cache := [(5, ⟨{ tileNew live (3 * 2 ^ 32) with cells := [(9, 4)] }, false, some 3, none, 1, [], 0⟩)] } }) (rset inUse R.STO_CACHE_BASE_LO_ADDR_LO 1)), 0, ⟨7, 0, 0⟩, { header 11 0x62 with classWord := 0, body := [0, 0, 0, 0, 0, 0, 0, 0, 0, 0, 0, 0] }, by decide⟩

theorem meets_flushFallsDue : ∃ (s : State) (t : Fc) (k : Fin 4096) (c : CacheSlot) (a : Nat),
    (s.fabric = true) ∧ (keyWithheld s 4 = false) ∧ (tblGet? s.sto.cache k = some c) ∧ (c.dirty = some a) ∧ (c.flushing = none) ∧ (c.loading = false) ∧ (a + rval s R.STO_FLUSH_FLUSH_S * 400000000 ≤ max s.now t) :=
  ⟨(fun x : State => { x with sto := { x.sto with cache := [(5, ⟨{ tileNew live (3 * 2 ^ 32) with cells := [(9, 4)] }, false, some 3, none, 1, [], 0⟩)] } }) (rset inUse R.STO_CACHE_BASE_LO_ADDR_LO 1), 400000000000, 5, ⟨{ tileNew live (3 * 2 ^ 32) with cells := [(9, 4)] }, false, some 3, none, 1, [], 0⟩, 3, by decide +kernel⟩

theorem meets_loadEnds : ∃ (s : State) (t : Fc) (k : Fin 4096) (c : CacheSlot),
    (s.fabric = true) ∧ (tblGet? s.sto.cache k = some c) ∧ (c.loading = true) ∧ (storeTurn (advance s t) = some 3) :=
  ⟨{ live with sto := { Sto.reset with cache := [(5, ⟨tileNew live 9, true, none, none, 1, [], 0⟩)] } }, 0, 5, ⟨tileNew live 9, true, none, none, 1, [], 0⟩, by decide⟩

theorem meets_loadFails : ∃ (s : State) (t : Fc) (k : Fin 4096) (c : CacheSlot),
    (s.fabric = true) ∧ (tblGet? s.sto.cache k = some c) ∧ (c.loading = true) ∧ (storeTurn (advance s t) = some 3) :=
  ⟨{ live with sto := { Sto.reset with cache := [(5, ⟨tileNew live 9, true, none, none, 1, [], 0⟩)] } }, 0, 5, ⟨tileNew live 9, true, none, none, 1, [], 0⟩, by decide⟩

theorem meets_flushEnds : ∃ (s : State) (t : Fc) (k : Fin 4096) (c : CacheSlot) (im : Tile),
    (s.fabric = true) ∧ (tblGet? s.sto.cache k = some c) ∧ (c.flushing = some im) ∧ (storeTurn (advance s t) = some 0 ∨ storeTurn (advance s t) = some 3) :=
  ⟨{ live with sto := { Sto.reset with cache := [(5, ⟨tileNew live 9, false, none, some (tileNew live 9), 1, [], 0⟩)] } }, 0, 5, ⟨tileNew live 9, false, none, some (tileNew live 9), 1, [], 0⟩, tileNew live 9, by decide⟩

theorem meets_flushFails : ∃ (s : State) (t : Fc) (k : Fin 4096) (c : CacheSlot) (im : Tile),
    (s.fabric = true) ∧ (tblGet? s.sto.cache k = some c) ∧ (c.flushing = some im) ∧ (storeTurn (advance s t) = some 0 ∨ storeTurn (advance s t) = some 3) :=
  ⟨{ live with sto := { Sto.reset with cache := [(5, ⟨tileNew live 9, false, none, some (tileNew live 9), 1, [], 0⟩)] } }, 8, 5, ⟨tileNew live 9, false, none, some (tileNew live 9), 1, [], 0⟩, tileNew live 9, by decide⟩

theorem meets_oldTileRefreshed : ∃ (s : State) (t : Fc) (id : Nat) (x : Stored),
    (s.fabric = true) ∧ (tblGet? s.sto.map id = some x) ∧ (s.sto.refreshAt.all (fun a => a + 4000000000 ≤ max s.now t) = true) ∧ (storeTurn (advance s t) = none) ∧ (keyWithheld s 4 = false) ∧ (x.at_ + 365 * 86400 * 1000000000 < moduleTime (advance s t)) :=
  ⟨{ inUse with sto := { Sto.reset with map := [(9, ⟨tileNew live 9, 7, 0, [], 0⟩)] } }, 12614400000000008, 9, ⟨tileNew live 9, 7, 0, [], 0⟩, by decide +kernel⟩

theorem meets_readBegins : ∃ (s : State) (t : Fc) (r : Ref) (d : Desc),
    (s.fabric = true) ∧ (heldDesc s r 0xB 0x64 = some d) ∧ (due (advance s t) d = true) ∧ (storeFirst (advance s t) r = true) ∧ (1 ≤ (d.word 0x1C % 65536)) ∧ ((d.word 0x1C % 65536) ≤ 256) ∧ (d.word 0x18 + (d.word 0x1C % 65536) ≤ partMib (d.classWord % 16) * 256) ∧ (3 ≤ (d.classWord % 16)) ∧ ((d.classWord % 16) ≤ 6) ∧ (keyWithheld s (d.classWord % 16) = false) :=
  ⟨holding ({ header 11 0x64 with classWord := 5, body := [16, 0, 7, 2, 0, 0, 0, 0, 0, 0, 0, 0] }) (inUse), 0, ⟨7, 0, 0⟩, { header 11 0x64 with classWord := 5, body := [16, 0, 7, 2, 0, 0, 0, 0, 0, 0, 0, 0] }, by decide⟩

theorem meets_readClosed : ∃ (s : State) (t : Fc) (r : Ref) (d : Desc),
    (s.fabric = true) ∧ (heldDesc s r 0xB 0x64 = some d) ∧ (due (advance s t) d = true) ∧ (storeFirst (advance s t) r = true) ∧ (1 ≤ (d.word 0x1C % 65536)) ∧ ((d.word 0x1C % 65536) ≤ 256) ∧ (d.word 0x18 + (d.word 0x1C % 65536) ≤ partMib (d.classWord % 16) * 256) ∧ ((d.classWord % 16) < 3 ∨ 6 < (d.classWord % 16)) :=
  ⟨holding ({ header 11 0x64 with classWord := 2, body := [16, 0, 7, 2, 0, 0, 0, 0, 0, 0, 0, 0] }) (live), 0, ⟨7, 0, 0⟩, { header 11 0x64 with classWord := 2, body := [16, 0, 7, 2, 0, 0, 0, 0, 0, 0, 0, 0] }, by decide⟩

theorem meets_readRange : ∃ (s : State) (t : Fc) (r : Ref) (d : Desc),
    (s.fabric = true) ∧ (heldDesc s r 0xB 0x64 = some d) ∧ (due (advance s t) d = true) ∧ (storeFirst (advance s t) r = true) ∧ ((d.word 0x1C % 65536) = 0 ∨ 256 < (d.word 0x1C % 65536) ∨ partMib (d.classWord % 16) * 256 < d.word 0x18 + (d.word 0x1C % 65536)) :=
  ⟨holding ({ header 11 0x64 with classWord := 5, body := [16, 0, 7, 257, 0, 0, 0, 0, 0, 0, 0, 0] }) (live), 0, ⟨7, 0, 0⟩, { header 11 0x64 with classWord := 5, body := [16, 0, 7, 257, 0, 0, 0, 0, 0, 0, 0, 0] }, by decide⟩

theorem meets_writeBegins : ∃ (s : State) (t : Fc) (r : Ref) (d : Desc),
    (s.fabric = true) ∧ (heldDesc s r 0xB 0x65 = some d) ∧ (due (advance s t) d = true) ∧ (storeFirst (advance s t) r = true) ∧ (1 ≤ (d.word 0x1C % 65536)) ∧ ((d.word 0x1C % 65536) ≤ 256) ∧ (d.word 0x18 + (d.word 0x1C % 65536) ≤ partMib (d.classWord % 16) * 256) ∧ ((d.classWord % 16) = 5 ∨ (d.classWord % 16) = 6) ∧ (keyWithheld s (d.classWord % 16) = false) ∧ (s.sto.dayStart.all (fun a => moduleTime (advance s t) < a + 86400 * 1000000000) = true) ∧ (s.sto.dayBytes + (d.word 0x1C % 65536) * 4096 ≤ (rget s R.STO_WRITE_BUDGET_MIB_DAY * 1048576)) :=
  ⟨holding ({ header 11 0x65 with classWord := 5, body := [16, 0, 7, 2, 0, 0, 0, 0, 0, 0, 0, 0] }) (inUse), 0, ⟨7, 0, 0⟩, { header 11 0x65 with classWord := 5, body := [16, 0, 7, 2, 0, 0, 0, 0, 0, 0, 0, 0] }, by decide⟩

theorem meets_writeOfNewDay : ∃ (s : State) (t : Fc) (r : Ref) (d : Desc) (a : Nat),
    (s.fabric = true) ∧ (heldDesc s r 0xB 0x65 = some d) ∧ (due (advance s t) d = true) ∧ (storeFirst (advance s t) r = true) ∧ (1 ≤ (d.word 0x1C % 65536)) ∧ ((d.word 0x1C % 65536) ≤ 256) ∧ (d.word 0x18 + (d.word 0x1C % 65536) ≤ partMib (d.classWord % 16) * 256) ∧ ((d.classWord % 16) = 5 ∨ (d.classWord % 16) = 6) ∧ (keyWithheld s (d.classWord % 16) = false) ∧ (s.sto.dayStart = some a) ∧ (a + 86400 * 1000000000 ≤ moduleTime (advance s t)) ∧ ((d.word 0x1C % 65536) * 4096 ≤ (rget s R.STO_WRITE_BUDGET_MIB_DAY * 1048576)) :=
  ⟨holding ({ header 11 0x65 with classWord := 5, body := [16, 0, 7, 2, 0, 0, 0, 0, 0, 0, 0, 0] }) ({ inUse with sto := { Sto.reset with dayStart := some 5, dayBytes := 9 } }), 34560000000008, ⟨7, 0, 0⟩, { header 11 0x65 with classWord := 5, body := [16, 0, 7, 2, 0, 0, 0, 0, 0, 0, 0, 0] }, 5, by decide +kernel⟩

theorem meets_writeOverBudget : ∃ (s : State) (t : Fc) (r : Ref) (d : Desc),
    (s.fabric = true) ∧ (heldDesc s r 0xB 0x65 = some d) ∧ (due (advance s t) d = true) ∧ (storeFirst (advance s t) r = true) ∧ (1 ≤ (d.word 0x1C % 65536)) ∧ ((d.word 0x1C % 65536) ≤ 256) ∧ (d.word 0x18 + (d.word 0x1C % 65536) ≤ partMib (d.classWord % 16) * 256) ∧ ((d.classWord % 16) = 5 ∨ (d.classWord % 16) = 6) ∧ (keyWithheld s (d.classWord % 16) = false) ∧ (s.sto.dayStart.all (fun a => moduleTime (advance s t) < a + 86400 * 1000000000) = true) ∧ ((rget s R.STO_WRITE_BUDGET_MIB_DAY * 1048576) < s.sto.dayBytes + (d.word 0x1C % 65536) * 4096) :=
  ⟨holding ({ header 11 0x65 with classWord := 5, body := [16, 0, 7, 2, 0, 0, 0, 0, 0, 0, 0, 0] }) ({ inUse with sto := { Sto.reset with dayBytes := 2147483648 } }), 0, ⟨7, 0, 0⟩, { header 11 0x65 with classWord := 5, body := [16, 0, 7, 2, 0, 0, 0, 0, 0, 0, 0, 0] }, by decide⟩

theorem meets_writeSealed : ∃ (s : State) (t : Fc) (r : Ref) (d : Desc),
    (s.fabric = true) ∧ (heldDesc s r 0xB 0x65 = some d) ∧ (due (advance s t) d = true) ∧ (storeFirst (advance s t) r = true) ∧ (1 ≤ (d.word 0x1C % 65536)) ∧ ((d.word 0x1C % 65536) ≤ 256) ∧ (d.word 0x18 + (d.word 0x1C % 65536) ≤ partMib (d.classWord % 16) * 256) ∧ ((d.classWord % 16) = 6) ∧ (keyWithheld s 6 = true) :=
  ⟨holding ({ header 11 0x65 with classWord := 6, body := [16, 0, 7, 2, 0, 0, 0, 0, 0, 0, 0, 0] }) (rset live R.KSM_LC_SEALED 1), 0, ⟨7, 0, 0⟩, { header 11 0x65 with classWord := 6, body := [16, 0, 7, 2, 0, 0, 0, 0, 0, 0, 0, 0] }, by decide⟩

theorem meets_storeFails : ∃ (s : State) (t : Fc) (j : StoreJob) (l : List StoreJob),
    (s.fabric = true) ∧ (s.sto.jobs = j :: l) ∧ (storeAlone (advance s t) j.ref = true) :=
  ⟨{ holding (header 11 0x65) with sto := { Sto.reset with jobs := [⟨⟨7, 0, 0⟩, 5, 7, 1, true, 16, [1, 2]⟩] } }, 0, ⟨⟨7, 0, 0⟩, 5, 7, 1, true, 16, [1, 2]⟩, [], by decide⟩

theorem meets_storeWritten : ∃ (s : State) (t : Fc) (j : StoreJob) (l : List StoreJob),
    (s.fabric = true) ∧ (s.sto.jobs = j :: l) ∧ (storeAlone (advance s t) j.ref = true) ∧ (j.write = true) :=
  ⟨{ holding (header 11 0x65) with sto := { Sto.reset with jobs := [⟨⟨7, 0, 0⟩, 5, 7, 1, true, 16, [1, 2]⟩] } }, 0, ⟨⟨7, 0, 0⟩, 5, 7, 1, true, 16, [1, 2]⟩, [], by decide⟩

theorem meets_storeReadBack : ∃ (s : State) (t : Fc) (j : StoreJob) (l : List StoreJob),
    (s.fabric = true) ∧ (s.sto.jobs = j :: l) ∧ (storeAlone (advance s t) j.ref = true) ∧ (j.write = false) ∧ (j.count ≤ 256) ∧ (Memory.wf s.mem = true) ∧ (Memory.wf s.extMem = true) :=
  ⟨{ holding (header 11 0x65) with sto := { Sto.reset with jobs := [⟨⟨7, 0, 0⟩, 5, 7, 1, false, 16, []⟩] } }, 0, ⟨⟨7, 0, 0⟩, 5, 7, 1, false, 16, []⟩, [], by decide⟩

theorem meets_lifePolled : ∃ (s : State) (t : Fc) (a : Nat) (e : Nat),
    (s.fabric = true) ∧ (s.sto.pollAt.all (fun a => a + 3600 * 400000000 ≤ max s.now t) = true) ∧ (e % 4 < 2 ∨ e % 4 = rget s R.STO_LIFE_PRE_EOL) :=
  ⟨live, 0, 1, 1, by decide⟩

theorem meets_lifeNearsEnd : ∃ (s : State) (t : Fc) (a : Nat) (e : Nat),
    (s.fabric = true) ∧ (s.sto.pollAt.all (fun a => a + 3600 * 400000000 ≤ max s.now t) = true) ∧ (2 ≤ e % 4) ∧ (e % 4 ≠ rget s R.STO_LIFE_PRE_EOL) :=
  ⟨live, 0, 1, 2, by decide⟩

theorem meets_budgetDayEnds : ∃ (s : State) (t : Fc) (a : Nat),
    (s.fabric = true) ∧ (s.sto.dayStart = some a) ∧ (a + 86400 * 1000000000 ≤ moduleTime (advance s t)) :=
  ⟨{ live with sto := { Sto.reset with dayStart := some 5, dayBytes := 9 } }, 34560000000008, 5, by decide +kernel⟩

theorem meets_inlineBegins : ∃ (s : State) (t : Fc) (r : Ref) (d : Desc),
    (s.fabric = true) ∧ (heldDesc s r 0xA 1 = some d) ∧ (due (advance s t) d = true) ∧ (writeFirst (advance s t) r = true) ∧ (1 ≤ d.word 0x30 % 16) ∧ (d.word 0x30 % 16 ≤ 8) ∧ (d.classWord % 4 = 0) ∧ (d.classWord + (4 * (d.word 0x30 % 16)) ≤ 0x2000000) ∧ (∀ p ∈ pagesOf d.classWord (4 * (d.word 0x30 % 16)), tblGetD s.sto.pages p 0 < pageLimit (advance s t)) :=
  ⟨holding ({ header 10 1 with classWord := 4096, body := [1, 2, 0, 0, 0, 0, 0, 0, 2, 0, 0, 0] }) (live), 0, ⟨7, 0, 0⟩, { header 10 1 with classWord := 4096, body := [1, 2, 0, 0, 0, 0, 0, 0, 2, 0, 0, 0] }, by decide +kernel⟩

theorem meets_writeOfBuffer : ∃ (s : State) (t : Fc) (r : Ref) (d : Desc),
    (s.fabric = true) ∧ (heldDesc s r 0xA 2 = some d) ∧ (due (advance s t) d = true) ∧ (writeFirst (advance s t) r = true) ∧ ((d.word 0x18) % 4 = 0) ∧ (1 ≤ (d.word 0x18)) ∧ ((d.word 0x18) ≤ 65536) ∧ (d.classWord % 4 = 0) ∧ (d.classWord + (d.word 0x18) ≤ 0x2000000) ∧ (∀ p ∈ pagesOf d.classWord (d.word 0x18), tblGetD s.sto.pages p 0 < pageLimit (advance s t)) :=
  ⟨holding ({ header 10 2 with classWord := 4096, body := [16, 0, 8192, 0, 0, 0, 0, 0, 0, 0, 0, 0] }) (live), 0, ⟨7, 0, 0⟩, { header 10 2 with classWord := 4096, body := [16, 0, 8192, 0, 0, 0, 0, 0, 0, 0, 0, 0] }, by decide +kernel⟩

theorem meets_pageAtLimit : ∃ (s : State) (t : Fc) (r : Ref) (d : Desc),
    (s.fabric = true) ∧ (heldDesc s r 0xA 2 = some d) ∧ (due (advance s t) d = true) ∧ (writeFirst (advance s t) r = true) ∧ ((d.word 0x18) % 4 = 0) ∧ (1 ≤ (d.word 0x18)) ∧ ((d.word 0x18) ≤ 65536) ∧ (d.classWord % 4 = 0) ∧ (d.classWord + (d.word 0x18) ≤ 0x2000000) ∧ (pageLimit (advance s t) ≤ tblGetD s.sto.pages (d.classWord / 4096) 0) :=
  ⟨holding ({ header 10 2 with classWord := 4096, body := [16, 0, 4, 0, 0, 0, 0, 0, 0, 0, 0, 0] }) ({ live with sto := { Sto.reset with pages := [(1, 10 ^ 9)] } }), 0, ⟨7, 0, 0⟩, { header 10 2 with classWord := 4096, body := [16, 0, 4, 0, 0, 0, 0, 0, 0, 0, 0, 0] }, by decide +kernel⟩

theorem meets_journalRead : ∃ (s : State) (t : Fc) (r : Ref) (d : Desc),
    (s.fabric = true) ∧ (heldDesc s r 0xA 3 = some d) ∧ (due (advance s t) d = true) ∧ ((d.word 0x18) % 4 = 0) ∧ (1 ≤ (d.word 0x18)) ∧ ((d.word 0x18) ≤ 65536) ∧ (d.classWord % 4 = 0) ∧ (d.classWord + (d.word 0x18) ≤ 0x4000000) :=
  ⟨holding ({ header 10 3 with classWord := 4096, body := [16, 0, 8, 0, 0, 0, 0, 0, 0, 0, 0, 0] }) (live), 0, ⟨7, 0, 0⟩, { header 10 3 with classWord := 4096, body := [16, 0, 8, 0, 0, 0, 0, 0, 0, 0, 0, 0] }, by decide⟩

theorem meets_journalRange : ∃ (s : State) (t : Fc) (r : Ref) (d : Desc),
    (s.fabric = true) ∧ (heldDesc s r 0xA 3 = some d) ∧ (due (advance s t) d = true) ∧ (0x4000000 < d.classWord + (d.word 0x18)) :=
  ⟨holding ({ header 10 3 with classWord := 0x4000000, body := [16, 0, 4, 0, 0, 0, 0, 0, 0, 0, 0, 0] }) (live), 0, ⟨7, 0, 0⟩, { header 10 3 with classWord := 0x4000000, body := [16, 0, 4, 0, 0, 0, 0, 0, 0, 0, 0, 0] }, by decide⟩

theorem meets_journalDurable : ∃ (s : State) (j : JrnJob) (l : List JrnJob),
    (s.fabric = true) ∧ (s.sto.jrnJobs = j :: l) ∧ (j.write = true) ∧ (0x2000000 ≤ j.off) ∧ (j.off + j.data.length ≤ 0x4000000) ∧ (Memory.wf s.sto.soft = true) :=
  ⟨{ holding (header 10 2) with sto := { Sto.reset with jrnJobs := [⟨⟨7, 0, 0⟩, 0x2000004, true, 0, [1, 2]⟩] } }, ⟨⟨7, 0, 0⟩, 0x2000004, true, 0, [1, 2]⟩, [], by decide⟩

theorem meets_journalReadBack : ∃ (s : State) (j : JrnJob) (l : List JrnJob),
    (s.fabric = true) ∧ (s.sto.jrnJobs = j :: l) ∧ (j.write = false) ∧ (j.data.length ≤ 65536) ∧ (Memory.wf s.mem = true) ∧ (Memory.wf s.extMem = true) :=
  ⟨{ holding (header 10 2) with sto := { Sto.reset with jrnJobs := [⟨⟨7, 0, 0⟩, 0, false, 16, [0, 0]⟩] } }, ⟨⟨7, 0, 0⟩, 0, false, 16, [0, 0]⟩, [], by decide⟩

theorem meets_softwareRead : ∃ (s : State) (j : JrnJob) (l : List JrnJob),
    (s.fabric = true) ∧ (s.sto.jrnJobs = j :: l) ∧ (j.write = false) ∧ (0x2000000 ≤ j.off) ∧ (j.data.length ≤ 65536) ∧ (Memory.wf s.mem = true) ∧ (Memory.wf s.extMem = true) :=
  ⟨{ holding (header 10 2) with sto := { Sto.reset with jrnJobs := [⟨⟨7, 0, 0⟩, 0x2000004, false, 16, [0, 0]⟩] } }, ⟨⟨7, 0, 0⟩, 0x2000004, false, 16, [0, 0]⟩, [], by decide⟩

theorem meets_journalFails : ∃ (s : State) (j : JrnJob) (l : List JrnJob),
    (s.fabric = true) ∧ (s.sto.jrnJobs = j :: l) :=
  ⟨{ holding (header 10 2) with sto := { Sto.reset with jrnJobs := [⟨⟨7, 0, 0⟩, 0x2000004, false, 16, [0, 0]⟩] } }, ⟨⟨7, 0, 0⟩, 0x2000004, false, 16, [0, 0]⟩, [], by decide⟩

theorem meets_overflowCopied : ∃ (s : State) (t : Fc),
    (s.fabric = true) ∧ (s.log.copied + 128 ≤ s.log.written) ∧ (storeTurn (advance s t) ≠ some 0) ∧ (keyWithheld s 3 = false) :=
  ⟨{ inUse with log := { live.log with written := 128 } }, 0, by decide⟩

theorem meets_overflowWaits : ∃ (s : State),
    (s.fabric = true) ∧ (s.log.written < s.log.copied + 128) :=
  ⟨{ live with log := { live.log with written := 127 } }, by decide⟩

theorem meets_portEnabled : ∃ (s : State) (p : Fin 4),
    (s.fabric = true) ∧ (camOn s p = false) ∧ (camError s p = 0) :=
  ⟨rset (camera 1) R.CAM_CTRL_EN 0 1, 1, by decide⟩

theorem meets_portRefused : ∃ (s : State) (p : Fin 4),
    (s.fabric = true) ∧ (camOn s p = false) ∧ (camError s p ≠ 0) :=
  ⟨live, 1, by decide⟩

theorem meets_portTooNarrow : ∃ (s : State) (p : Fin 4),
    (s.fabric = true) ∧ (camOn s p = false) ∧ (rget s R.CAM_SIZE_WIDTH p < 64) :=
  ⟨rset (rset (camera 1) R.CAM_CTRL_EN 0 1) R.CAM_SIZE_WIDTH 48 1, 1, by decide⟩

theorem meets_portDisabled : ∃ (s : State) (p : Fin 4),
    (s.fabric = true) ∧ (camOn s p = true) :=
  ⟨filming 1, 1, by decide⟩

theorem meets_frameTakesSlot : ∃ (s : State) (p : Fin 4) (h : Fin 3) (k : Nat),
    (s.fabric = true) ∧ (p ≠ 0) ∧ (h ≠ 2) ∧ (camOn s p = true) ∧ (rbit s R.CAM_CTRL_LINK_UP p = true) ∧ ((getCam s p).cur = none) ∧ (nextSlot s p = some k) :=
  ⟨camera 1, 1, 1, 0, by decide⟩

theorem meets_frameHadNoEnd : ∃ (s : State) (p : Fin 4) (k : Nat) (f : CamFrame),
    (s.fabric = true) ∧ (p ≠ 0) ∧ (camOn s p = true) ∧ (rbit s R.CAM_CTRL_LINK_UP p = true) ∧ ((getCam s p).cur = some f) ∧ (f.kept = true) ∧ (nextSlot s p = some k) :=
  ⟨filming 1, 1, 0, someFrame, by decide⟩

theorem meets_frameDropsNoSlot : ∃ (s : State) (p : Fin 4) (h : Fin 3),
    (s.fabric = true) ∧ (p ≠ 0) ∧ (h ≠ 2) ∧ (camOn s p = true) ∧ (rbit s R.CAM_CTRL_LINK_UP p = true) ∧ ((getCam s p).cur = none) ∧ (nextSlot s p = none) ∧ ((getCam s p).ready = []) :=
  ⟨rset (camera 1) R.CAM_RAW_SLOT_SLOT_COUNT 0 1, 1, 0, by decide⟩

theorem meets_frameTakesCapture : ∃ (s : State) (h : Fin 3) (r : Ref) (l : List Ref),
    (s.fabric = true) ∧ (h ≠ 2) ∧ (camOn s 0 = true) ∧ (rbit s R.CAM_CTRL_LINK_UP 0 = true) ∧ ((getCam s 0).cur = none) ∧ ((getCam s 0).jobs = r :: l) :=
  ⟨modCam (camera 0) 0 fun c => { c with jobs := [⟨7, 0, 0⟩] }, 0, ⟨7, 0, 0⟩, [], by decide⟩

theorem meets_frameHasNoJob : ∃ (s : State) (h : Fin 3),
    (s.fabric = true) ∧ (h ≠ 2) ∧ (camOn s 0 = true) ∧ (rbit s R.CAM_CTRL_LINK_UP 0 = true) ∧ ((getCam s 0).cur = none) ∧ ((getCam s 0).jobs = []) :=
  ⟨camera 0, 0, by decide⟩

theorem meets_otherChannel : ∃ (s : State) (p : Fin 4) (vc : Fin 16) (h : Fin 3),
    (s.fabric = true) ∧ (h ≠ 2) ∧ (camOn s p = true) ∧ (rbit s R.CAM_CTRL_LINK_UP p = true) ∧ (vc ≠ 0) :=
  ⟨camera 1, 1, 3, 0, by decide⟩

theorem meets_lineTaken : ∃ (s : State) (t : Fc) (p : Fin 4) (dt : Fin 64) (h : Fin 3) (px : List Nat) (f : CamFrame) (g : CamFrame) (k : Nat),
    (s.fabric = true) ∧ (h ≠ 2) ∧ (camOn s p = true) ∧ (rbit s R.CAM_CTRL_LINK_UP p = true) ∧ (rawType dt = true) ∧ ((getCam (ispNow (advance s t)) p).cur = some f) ∧ (g = (if h = 0 then f else { f with hdrErrs := min (f.hdrErrs + 1) 65535 })) ∧ (f.received < camHeight s p) ∧ (f.ovf = false) ∧ (f.slot = some k) ∧ (f.kept = false ∨ (rawLine (rawBytes s p) (px.take (camWidth s p))).length ≤ bufSize - bufLevel (ispNow (advance s t)) p) :=
  ⟨filming 1, 0, 1, 0x2A, 0, [5, 6], someFrame, someFrame, 2, by decide⟩

theorem meets_lineKept : ∃ (s : State) (t : Fc) (p : Fin 4) (dt : Fin 64) (h : Fin 3) (px : List Nat) (f : CamFrame) (g : CamFrame),
    (s.fabric = true) ∧ (h ≠ 2) ∧ (camOn s p = true) ∧ (rbit s R.CAM_CTRL_LINK_UP p = true) ∧ (rawType dt = true) ∧ ((getCam (ispNow (advance s t)) p).cur = some f) ∧ (g = (if h = 0 then f else { f with hdrErrs := min (f.hdrErrs + 1) 65535 })) ∧ (f.received < camHeight s p) ∧ (f.ovf = false) ∧ (f.slot = none) ∧ (f.kept = false ∨ (rawLine (rawBytes s p) (px.take (camWidth s p))).length ≤ bufSize - bufLevel (ispNow (advance s t)) p) :=
  ⟨modCam (camera 1) 1 fun c => { c with cur := some { someFrame with slot := none } }, 0, 1, 0x2A, 0, [5, 6], { someFrame with slot := none }, { someFrame with slot := none }, by decide⟩

theorem meets_lineHasNoRoom : ∃ (s : State) (t : Fc) (p : Fin 4) (dt : Fin 64) (h : Fin 3) (px : List Nat) (f : CamFrame) (g : CamFrame),
    (s.fabric = true) ∧ (h ≠ 2) ∧ (camOn s p = true) ∧ (rbit s R.CAM_CTRL_LINK_UP p = true) ∧ (rawType dt = true) ∧ ((getCam (ispNow (advance s t)) p).cur = some f) ∧ (g = (if h = 0 then f else { f with hdrErrs := min (f.hdrErrs + 1) 65535 })) ∧ (f.received < camHeight s p) ∧ (f.ovf = false) ∧ (f.kept = true) ∧ (bufSize - bufLevel (ispNow (advance s t)) p < (rawLine (rawBytes s p) (px.take (camWidth s p))).length) :=
  ⟨modCam (rset (camera 0) R.CAM_SIZE_WIDTH 4096 0) 0 fun c => { c with cur := some { someFrame with slot := none, rows := List.replicate 64 [] } }, 0, 0, 0x2A, 0, [5, 6], { someFrame with slot := none, rows := List.replicate 64 [] }, { someFrame with slot := none, rows := List.replicate 64 [] }, by decide⟩

theorem meets_lineLost : ∃ (s : State) (t : Fc) (p : Fin 4) (dt : Fin 64) (h : Fin 3) (f : CamFrame) (g : CamFrame),
    (s.fabric = true) ∧ (h ≠ 2) ∧ (camOn s p = true) ∧ (rbit s R.CAM_CTRL_LINK_UP p = true) ∧ (rawType dt = true) ∧ ((getCam (ispNow (advance s t)) p).cur = some f) ∧ (g = (if h = 0 then f else { f with hdrErrs := min (f.hdrErrs + 1) 65535 })) ∧ (f.received < camHeight s p) ∧ (f.ovf = true) :=
  ⟨modCam (camera 1) 1 fun c => { c with cur := some { someFrame with ovf := true } }, 0, 1, 0x2A, 0, { someFrame with ovf := true }, { someFrame with ovf := true }, by decide⟩

theorem meets_lineTooMany : ∃ (s : State) (t : Fc) (p : Fin 4) (dt : Fin 64) (h : Fin 3) (f : CamFrame) (g : CamFrame),
    (s.fabric = true) ∧ (h ≠ 2) ∧ (camOn s p = true) ∧ (rbit s R.CAM_CTRL_LINK_UP p = true) ∧ (rawType dt = true) ∧ ((getCam (ispNow (advance s t)) p).cur = some f) ∧ (g = (if h = 0 then f else { f with hdrErrs := min (f.hdrErrs + 1) 65535 })) ∧ (camHeight s p ≤ f.received) :=
  ⟨modCam (camera 1) 1 fun c => { c with cur := some { someFrame with received := 16 } }, 0, 1, 0x2A, 0, { someFrame with received := 16 }, { someFrame with received := 16 }, by decide⟩

theorem meets_badHeader : ∃ (s : State) (p : Fin 4),
    (s.fabric = true) ∧ (camOn s p = true) ∧ (rbit s R.CAM_CTRL_LINK_UP p = true) ∧ ((getCam s p).cur = none) :=
  ⟨camera 1, 1, by decide⟩

theorem meets_frameEnds : ∃ (s : State) (t : Fc) (p : Fin 4) (h : Fin 3) (f : CamFrame),
    (s.fabric = true) ∧ (h ≠ 2) ∧ (camOn s p = true) ∧ (rbit s R.CAM_CTRL_LINK_UP p = true) ∧ ((getCam (ispNow (advance s t)) p).cur = some f) :=
  ⟨filming 1, 80, 1, 1, someFrame, by decide⟩

theorem meets_linkFalls : ∃ (s : State) (p : Fin 4),
    (s.fabric = true) ∧ (rbit s R.CAM_CTRL_LINK_UP p = true) :=
  ⟨filming 1, 1, by decide⟩

theorem meets_supplyRecovers : ∃ (s : State),
    (s.fabric = true) :=
  ⟨rset live R.CAM_CTRL_PWR_EN 1 1, by decide⟩

theorem meets_linkRises : ∃ (s : State),
    (s.fabric = true) :=
  ⟨live, by decide⟩

theorem meets_bufferFills : ∃ (s : State) (t : Fc) (p : Fin 4) (f : CamFrame),
    (s.fabric = true) ∧ ((getCam (ispNow (advance s t)) p).cur = some f) ∧ (f.ovf = false) ∧ (f.kept = true) ∧ (bufSize < bufLevel (ispNow (advance s t)) p + camWidth s p * rawBytes s p) :=
  ⟨modCam (rset (camera 0) R.CAM_SIZE_WIDTH 4096 0) 0 fun c => { c with cur := some { someFrame with slot := none, rows := List.replicate 64 [] } }, 80, 0, { someFrame with slot := none, rows := List.replicate 64 [] }, by decide⟩

theorem meets_supplyLimits : ∃ (s : State) (p : Fin 4),
    (s.fabric = true) ∧ (rbit s R.CAM_CTRL_PWR_EN p = true) ∧ (rbit s R.CAM_CTRL_PWR_FAULT p = false) :=
  ⟨rset live R.CAM_CTRL_PWR_EN 1 1, 1, by decide⟩

theorem meets_syncSent : ∃ (s : State) (t : Fc) (p : Fin 4),
    (s.fabric = true) ∧ (rbit s R.CAM_CTRL_FSYNC_EN p = true) ∧ (((moduleTime (advance s t) + rval s R.CAM_FSYNC_PERIOD_US p * 1000 - rget s R.CAM_FSYNC_PHASE_PHASE_US p * 1000 % (rval s R.CAM_FSYNC_PERIOD_US p * 1000)) % (rval s R.CAM_FSYNC_PERIOD_US p * 1000)) ≤ 1000) ∧ (((moduleTime (advance s t) + rval s R.CAM_FSYNC_PERIOD_US p * 1000 - rget s R.CAM_FSYNC_PHASE_PHASE_US p * 1000 % (rval s R.CAM_FSYNC_PERIOD_US p * 1000)) % (rval s R.CAM_FSYNC_PERIOD_US p * 1000)) ≤ moduleTime (advance s t)) ∧ ((moduleTime (advance s t) - ((moduleTime (advance s t) + rval s R.CAM_FSYNC_PERIOD_US p * 1000 - rget s R.CAM_FSYNC_PHASE_PHASE_US p * 1000 % (rval s R.CAM_FSYNC_PERIOD_US p * 1000)) % (rval s R.CAM_FSYNC_PERIOD_US p * 1000))) ∉ (getCam s p).syncs) :=
  ⟨rset live R.CAM_CTRL_FSYNC_EN 1 1, 0, 1, by decide +kernel⟩

theorem meets_captureWaits : ∃ (s : State) (t : Fc) (r : Ref) (d : Desc),
    (s.fabric = true) ∧ (heldDesc s r 4 1 = some d) ∧ (due (advance s t) d = true) ∧ (captureFirst (advance s t) r = true) ∧ (refHost s r = false) ∧ (camOn s (d.classWord % 4) = true) ∧ ((d.word 0x1C % 8) < 5) ∧ (((d.word 0x1C % 8) ≠ 2 ∧ (d.word 0x1C % 8) ≠ 3) ∨ (mosaic s (d.classWord % 4) ≠ 2 ∧ mosaic s (d.classWord % 4) ≠ 5)) ∧ (outLength s (d.classWord % 4) (d.word 0x1C % 8) ≤ d.word 0x18) :=
  ⟨holding ({ header 4 1 with classWord := 1, body := [0, 0, 2048, 1, 0, 0, 0, 0, 0, 0, 0, 0] }) (camera 1), 0, ⟨7, 0, 0⟩, { header 4 1 with classWord := 1, body := [0, 0, 2048, 1, 0, 0, 0, 0, 0, 0, 0, 0] }, by decide⟩

theorem meets_captureShort : ∃ (s : State) (t : Fc) (r : Ref) (d : Desc),
    (s.fabric = true) ∧ (heldDesc s r 4 1 = some d) ∧ (due (advance s t) d = true) ∧ (captureFirst (advance s t) r = true) ∧ (refHost s r = false) ∧ (camOn s (d.classWord % 4) = true) ∧ ((d.word 0x1C % 8) < 5) ∧ (((d.word 0x1C % 8) ≠ 2 ∧ (d.word 0x1C % 8) ≠ 3) ∨ (mosaic s (d.classWord % 4) ≠ 2 ∧ mosaic s (d.classWord % 4) ≠ 5)) ∧ (d.word 0x18 < outLength s (d.classWord % 4) (d.word 0x1C % 8)) :=
  ⟨holding ({ header 4 1 with classWord := 1, body := [0, 0, 2047, 1, 0, 0, 0, 0, 0, 0, 0, 0] }) (camera 1), 0, ⟨7, 0, 0⟩, { header 4 1 with classWord := 1, body := [0, 0, 2047, 1, 0, 0, 0, 0, 0, 0, 0, 0] }, by decide⟩

theorem meets_jobOfExternalHost : ∃ (s : State) (t : Fc) (r : Ref) (d : Desc),
    (s.fabric = true) ∧ (heldDesc s r 4 1 = some d) ∧ (due (advance s t) d = true) ∧ (captureFirst (advance s t) r = true) ∧ (refHost s r = true) :=
  ⟨holding ({ header 4 1 with classWord := 1, body := [0, 0, 2047, 1, 0, 0, 0, 0, 0, 0, 0, 0] }) (rset (camera 1) R.RING_CFG_HOST 1 0 7), 0, ⟨7, 0, 0⟩, { header 4 1 with classWord := 1, body := [0, 0, 2047, 1, 0, 0, 0, 0, 0, 0, 0, 0] }, by decide⟩

theorem meets_jobOfDisabledPort : ∃ (s : State) (t : Fc) (r : Ref) (d : Desc),
    (s.fabric = true) ∧ (heldDesc s r 4 1 = some d) ∧ (due (advance s t) d = true) ∧ (captureFirst (advance s t) r = true) ∧ (refHost s r = false) ∧ (camOn s (d.classWord % 4) = false) :=
  ⟨holding ({ header 4 1 with classWord := 2, body := [0, 0, 2047, 1, 0, 0, 0, 0, 0, 0, 0, 0] }) (camera 1), 0, ⟨7, 0, 0⟩, { header 4 1 with classWord := 2, body := [0, 0, 2047, 1, 0, 0, 0, 0, 0, 0, 0, 0] }, by decide⟩

theorem meets_sensorWaits : ∃ (s : State) (t : Fc) (r : Ref) (d : Desc),
    (s.fabric = true) ∧ (heldDesc s r 4 2 = some d) ∧ (due (advance s t) d = true) ∧ (refHost s r = false) ∧ (camOn s (d.classWord % 4) = true) ∧ (1 ≤ (d.word 0x14 / 256 % 16)) ∧ ((d.word 0x14 / 256 % 16) ≤ 8) :=
  ⟨holding ({ header 4 2 with classWord := 1, body := [20, 0x200, 5, 6, 0, 0, 0, 0, 0, 0, 0, 0] }) (camera 1), 0, ⟨7, 0, 0⟩, { header 4 2 with classWord := 1, body := [20, 0x200, 5, 6, 0, 0, 0, 0, 0, 0, 0, 0] }, by decide⟩

theorem meets_sensorCount : ∃ (s : State) (t : Fc) (r : Ref) (d : Desc),
    (s.fabric = true) ∧ (heldDesc s r 4 2 = some d) ∧ (due (advance s t) d = true) ∧ (refHost s r = false) ∧ (camOn s (d.classWord % 4) = true) ∧ ((d.word 0x14 / 256 % 16) = 0 ∨ 8 < (d.word 0x14 / 256 % 16)) :=
  ⟨holding ({ header 4 2 with classWord := 1, body := [20, 0x900, 5, 6, 0, 0, 0, 0, 0, 0, 0, 0] }) (camera 1), 0, ⟨7, 0, 0⟩, { header 4 2 with classWord := 1, body := [20, 0x900, 5, 6, 0, 0, 0, 0, 0, 0, 0, 0] }, by decide⟩

theorem meets_burstWritten : ∃ (s : State) (p : Fin 4) (n : Nat) (j : SensorJob),
    (s.fabric = true) ∧ (firstBurst s p = some j) ∧ (j.entries.length ≤ n) :=
  ⟨modCam (holding (header 4 2) (camera 1)) 1 fun c => { c with writes := [{ ref := ⟨7, 0, 0⟩, apply := 20, target := 17, addr := 3, wide := 0, entries := [5, 6], eff := some 22 }] }, 1, 2, { ref := ⟨7, 0, 0⟩, apply := 20, target := 17, addr := 3, wide := 0, entries := [5, 6], eff := some 22 }, by decide⟩

theorem meets_burstRefused : ∃ (s : State) (p : Fin 4) (n : Nat) (j : SensorJob),
    (s.fabric = true) ∧ (firstBurst s p = some j) ∧ (n < j.entries.length) :=
  ⟨modCam (holding (header 4 2) (camera 1)) 1 fun c => { c with writes := [{ ref := ⟨7, 0, 0⟩, apply := 20, target := 17, addr := 3, wide := 0, entries := [5, 6], eff := some 22 }] }, 1, 1, { ref := ⟨7, 0, 0⟩, apply := 20, target := 17, addr := 3, wide := 0, entries := [5, 6], eff := some 22 }, by decide⟩

theorem meets_paramsWait : ∃ (s : State) (t : Fc) (r : Ref) (d : Desc) (img : List Nat),
    (s.fabric = true) ∧ (heldDesc s r 4 3 = some d) ∧ (due (advance s t) d = true) ∧ (refHost s r = false) ∧ (camOn s (d.classWord % 4) = true) ∧ (paramsOk img = true) ∧ ((getCam s (d.classWord % 4)).pend.length < 4) ∧ (∀ x ∈ (getCam s (d.classWord % 4)).pend, x.apply ≠ d.word 0x18) :=
  ⟨holding ({ header 4 3 with classWord := 1, body := [0, 0, 9, 0, 0, 0, 0, 0, 0, 0, 0, 0] }) (camera 1), 0, ⟨7, 0, 0⟩, { header 4 3 with classWord := 1, body := [0, 0, 9, 0, 0, 0, 0, 0, 0, 0, 0, 0] }, zeroParams, by decide, by decide, by decide, by decide, by decide, zeroParams_ok, by decide, by decide⟩

theorem meets_paramsFull : ∃ (s : State) (t : Fc) (r : Ref) (d : Desc) (img : List Nat),
    (s.fabric = true) ∧ (heldDesc s r 4 3 = some d) ∧ (due (advance s t) d = true) ∧ (refHost s r = false) ∧ (camOn s (d.classWord % 4) = true) ∧ (paramsOk img = true) ∧ (4 ≤ (getCam s (d.classWord % 4)).pend.length) ∧ (∀ x ∈ (getCam s (d.classWord % 4)).pend, x.apply ≠ d.word 0x18) :=
  ⟨holding ({ header 4 3 with classWord := 1, body := [0, 0, 9, 0, 0, 0, 0, 0, 0, 0, 0, 0] }) (modCam (camera 1) 1 fun c => { c with pend := List.replicate 4 ⟨⟨7, 5, 0⟩, 1, []⟩ }), 0, ⟨7, 0, 0⟩, { header 4 3 with classWord := 1, body := [0, 0, 9, 0, 0, 0, 0, 0, 0, 0, 0, 0] }, zeroParams, by decide, by decide, by decide, by decide, by decide, zeroParams_ok, by decide, by decide⟩

theorem meets_paramsBad : ∃ (s : State) (t : Fc) (r : Ref) (d : Desc) (img : List Nat),
    (s.fabric = true) ∧ (heldDesc s r 4 3 = some d) ∧ (due (advance s t) d = true) ∧ (refHost s r = false) ∧ (camOn s (d.classWord % 4) = true) ∧ (paramsOk img = false) :=
  ⟨holding ({ header 4 3 with classWord := 1, body := [0, 0, 9, 0, 0, 0, 0, 0, 0, 0, 0, 0] }) (camera 1), 0, ⟨7, 0, 0⟩, { header 4 3 with classWord := 1, body := [0, 0, 9, 0, 0, 0, 0, 0, 0, 0, 0, 0] }, [0, 0, 0x7F800000], by decide +kernel⟩

theorem meets_ispStarts : ∃ (s : State) (t : Fc) (p : Fin 4) (f : CamFrame) (r : Ref) (l : List Ref),
    (s.fabric = true) ∧ (s.vis.isp = none) ∧ ((ispNow (advance s t)).vis.slot = none) ∧ (ispNext (feNow (ispNow (advance s t))) = some (p.val, f)) ∧ ((getCam (feNow (ispNow (advance s t))) p).jobs = r :: l) :=
  ⟨modCam (camera 1) 1 fun c => { c with jobs := [⟨7, 0, 0⟩], ready := [someFrame] }, 0, 1, someFrame, ⟨7, 0, 0⟩, [], by decide⟩

theorem meets_ispEnds : ∃ (s : State) (t : Fc) (p : Fin 4) (f : CamFrame) (r : Ref) (d : Desc),
    (s.fabric = true) ∧ (p ≠ 0) ∧ ((ispNow (advance s t)).vis.isp = some (p.val, f)) ∧ (f.ref = some r) ∧ (reqDesc s r = some d) ∧ (frameThrough f = true) :=
  ⟨(fun x : State => { x with vis := { x.vis with isp := some (1, { someFrame with ref := some ⟨7, 0, 0⟩ }) } }) (holding ({ header 4 1 with classWord := 1, body := [0, 0, 2048, 1, 0, 0, 0, 0, 0, 0, 0, 0] }) (camera 1)), 0, 1, { someFrame with ref := some ⟨7, 0, 0⟩ }, ⟨7, 0, 0⟩, { header 4 1 with classWord := 1, body := [0, 0, 2048, 1, 0, 0, 0, 0, 0, 0, 0, 0] }, by decide⟩

theorem meets_ispEcc : ∃ (s : State) (t : Fc) (p : Fin 4) (f : CamFrame) (r : Ref) (d : Desc),
    (s.fabric = true) ∧ (p ≠ 0) ∧ ((ispNow (advance s t)).vis.isp = some (p.val, f)) ∧ (f.ref = some r) ∧ (reqDesc s r = some d) :=
  ⟨(fun x : State => { x with vis := { x.vis with isp := some (1, { someFrame with ref := some ⟨7, 0, 0⟩ }) } }) (holding ({ header 4 1 with classWord := 1, body := [0, 0, 2048, 1, 0, 0, 0, 0, 0, 0, 0, 0] }) (camera 1)), 0, 1, { someFrame with ref := some ⟨7, 0, 0⟩ }, ⟨7, 0, 0⟩, { header 4 1 with classWord := 1, body := [0, 0, 2048, 1, 0, 0, 0, 0, 0, 0, 0, 0] }, by decide⟩

theorem meets_ispEndsCam0 : ∃ (s : State) (t : Fc) (f : CamFrame) (l : List CamFrame) (r : Ref) (d : Desc),
    (s.fabric = true) ∧ ((getCam (ispNow (advance s t)) 0).ready = f :: l) ∧ (frameThrough f = true) ∧ (f.ref = some r) ∧ (reqDesc s r = some d) :=
  ⟨modCam (holding ({ header 4 1 with classWord := 0, body := [0, 0, 2048, 1, 0, 0, 0, 0, 0, 0, 0, 0] }) (camera 0)) 0 fun c => { c with ready := [{ someFrame with ref := some ⟨7, 0, 0⟩ }] }, 0, { someFrame with ref := some ⟨7, 0, 0⟩ }, [], ⟨7, 0, 0⟩, { header 4 1 with classWord := 0, body := [0, 0, 2048, 1, 0, 0, 0, 0, 0, 0, 0, 0] }, by decide⟩

theorem meets_runStarts : ∃ (s : State) (t : Fc) (r : Ref) (d : Desc) (h : List Nat) (b : List Nat),
    (s.fabric = true) ∧ (heldDesc s r 5 1 = some d) ∧ (due (advance s t) d = true) ∧ (refHost s r = false) ∧ (netHeaderOk (h ++ b) = true) ∧ (d.word 0x28 = imgWord (h ++ b) 0x18) ∧ (d.word 0x2C = imgWord (h ++ b) 0x1C) ∧ (s.vis.run = none) ∧ (s.vis.queue = []) :=
  ⟨holding ({ header 5 1 with classWord := 0, body := [0, 0, 0, 0, 64, 0, 6, 7, 0, 0, 0, 0] }) (live), 0, ⟨7, 0, 0⟩, { header 5 1 with classWord := 0, body := [0, 0, 0, 0, 64, 0, 6, 7, 0, 0, 0, 0] }, goodNet, [], by decide⟩

theorem meets_runQueues : ∃ (s : State) (t : Fc) (r : Ref) (d : Desc) (h : List Nat) (b : List Nat) (j : VxaJob),
    (s.fabric = true) ∧ (heldDesc s r 5 1 = some d) ∧ (due (advance s t) d = true) ∧ (refHost s r = false) ∧ (netHeaderOk (h ++ b) = true) ∧ (d.word 0x28 = imgWord (h ++ b) 0x18) ∧ (d.word 0x2C = imgWord (h ++ b) 0x1C) ∧ (s.vis.run = some j) :=
  ⟨holding ({ header 5 1 with classWord := 0, body := [0, 0, 0, 0, 64, 0, 6, 7, 0, 0, 0, 0] }) ({ live with vis := { Vision.reset with run := some ⟨⟨7, 9, 0⟩, false, 5, 6, 64, 7⟩ } }), 0, ⟨7, 0, 0⟩, { header 5 1 with classWord := 0, body := [0, 0, 0, 0, 64, 0, 6, 7, 0, 0, 0, 0] }, goodNet, [], ⟨⟨7, 9, 0⟩, false, 5, 6, 64, 7⟩, by decide⟩

theorem meets_runHeader : ∃ (s : State) (t : Fc) (r : Ref) (d : Desc) (h : List Nat) (b : List Nat),
    (s.fabric = true) ∧ (heldDesc s r 5 1 = some d) ∧ (due (advance s t) d = true) ∧ (refHost s r = false) ∧ (netHeaderOk (h ++ b) = false) :=
  ⟨holding ({ header 5 1 with classWord := 0, body := [0, 0, 0, 0, 0, 0, 0, 0, 0, 0, 0, 0] }) (live), 0, ⟨7, 0, 0⟩, { header 5 1 with classWord := 0, body := [0, 0, 0, 0, 0, 0, 0, 0, 0, 0, 0, 0] }, [1, 2], [], by decide⟩

theorem meets_runEndsAny : ∃ (s : State) (j : VxaJob),
    (s.fabric = true) ∧ (s.vis.run = some j) :=
  ⟨{ holding (header 5 1) with vis := { Vision.reset with run := some ⟨⟨7, 0, 0⟩, false, 5, 6, 64, 2⟩ } }, ⟨⟨7, 0, 0⟩, false, 5, 6, 64, 2⟩, by decide⟩

theorem meets_runEnds : ∃ (s : State) (j : VxaJob),
    (s.fabric = true) ∧ (s.vis.run = some j) ∧ (s.vis.queue = []) :=
  ⟨{ holding (header 5 1) with vis := { Vision.reset with run := some ⟨⟨7, 0, 0⟩, false, 5, 6, 64, 2⟩ } }, ⟨⟨7, 0, 0⟩, false, 5, 6, 64, 2⟩, by decide⟩

theorem meets_runEcc : ∃ (s : State) (j : VxaJob),
    (s.fabric = true) ∧ (s.vis.run = some j) ∧ (s.vis.queue = []) :=
  ⟨{ holding (header 5 1) with vis := { Vision.reset with run := some ⟨⟨7, 0, 0⟩, false, 5, 6, 64, 2⟩ } }, ⟨⟨7, 0, 0⟩, false, 5, 6, 64, 2⟩, by decide⟩

theorem meets_ethTxQueues : ∃ (s : State) (t : Fc) (r : Ref) (d : Desc),
    (s.fabric = true) ∧ (heldDesc s r 0xB 0x70 = some d) ∧ (due (advance s t) d = true) ∧ (60 ≤ d.word 0x18 % 65536) ∧ (d.word 0x18 % 65536 ≤ 1518) ∧ (ethUp s (d.classWord % 8) = true) :=
  ⟨holding ({ header 11 0x70 with body := [0, 0, 60] }) (liveR R.ETH_STATUS_LINK_UP 1), 0, ⟨7, 0, 0⟩, { header 11 0x70 with body := [0, 0, 60] }, by decide⟩

theorem meets_ethTxLinkDown : ∃ (s : State) (t : Fc) (r : Ref) (d : Desc),
    (s.fabric = true) ∧ (heldDesc s r 0xB 0x70 = some d) ∧ (due (advance s t) d = true) ∧ (60 ≤ d.word 0x18 % 65536) ∧ (d.word 0x18 % 65536 ≤ 1518) ∧ (ethUp s (d.classWord % 8) = false) :=
  ⟨holding ({ header 11 0x70 with body := [0, 0, 60] }) (live), 0, ⟨7, 0, 0⟩, { header 11 0x70 with body := [0, 0, 60] }, by decide⟩

theorem meets_ethTxLength : ∃ (s : State) (t : Fc) (r : Ref) (d : Desc),
    (s.fabric = true) ∧ (heldDesc s r 0xB 0x70 = some d) ∧ (due (advance s t) d = true) ∧ (d.word 0x18 % 65536 < 60 ∨ 1518 < d.word 0x18 % 65536) :=
  ⟨holding (header 11 0x70) (live), 0, ⟨7, 0, 0⟩, header 11 0x70, by decide⟩

theorem meets_ethSends : ∃ (s : State) (p : Fin 6) (x : EthTx) (rest : List EthTx),
    (s.fabric = true) ∧ (ethUp s p = true) ∧ (fleetOn s p = false ∨ (getEth s p).fleetTurn = false) ∧ ((getEth s p).queue = x :: rest) ∧ (x.tsAddr = none) :=
  ⟨modEth (liveR R.ETH_STATUS_LINK_UP 1 2) 2 fun e => { e with queue := [⟨⟨7, 0, 0⟩, none, [1]⟩] }, 2, ⟨⟨7, 0, 0⟩, none, [1]⟩, [], by decide⟩

theorem meets_ethSendsStamped : ∃ (s : State) (p : Fin 6) (x : EthTx) (rest : List EthTx) (a : Nat),
    (s.fabric = true) ∧ (ethUp s p = true) ∧ (fleetOn s p = false ∨ (getEth s p).fleetTurn = false) ∧ ((getEth s p).queue = x :: rest) ∧ (x.tsAddr = some a) :=
  ⟨modEth (liveR R.ETH_STATUS_LINK_UP 1 2) 2 fun e => { e with queue := [⟨⟨7, 0, 0⟩, some 64, [1]⟩] }, 2, ⟨⟨7, 0, 0⟩, some 64, [1]⟩, [], 64, by decide⟩

theorem meets_fleetSends : ∃ (s : State) (p : Fin 6) (k : Nat) (x : Session),
    (s.fabric = true) ∧ (ethUp s p = true) ∧ (fleetOn s p = true) ∧ ((getEth s p).fleetTurn = true ∨ (getEth s p).queue = []) ∧ (fleetSender s = some (k, x)) :=
  ⟨(fun x : State => { rset (rset x R.ETH_STATUS_LINK_UP 1 2) R.FLE_CTRL_PORT 2 with fle := { x.fle with sessions := [(3, { someSession with queue := [.summary []] })] } }) (inFleet), 2, 3, { someSession with queue := [.summary []] }, by decide⟩

theorem meets_ethReceives : ∃ (s : State) (p : Fin 6) (f : List Nat),
    (s.fabric = true) ∧ (ethUp s p = true) ∧ (rbit s R.ETH_CTRL_EN p = true) ∧ (60 ≤ f.length) ∧ (f.length ≤ 1518) ∧ (macAccepts s p f = true) ∧ (isGptp s p f = false) ∧ (queueRoom s queueEth p 0 = true) :=
  ⟨rset (rset (liveR R.ETH_STATUS_LINK_UP 1 2) R.ETH_CTRL_EN 1 2) R.ETH_RXQ_CFG_ENABLE 1 2, 2, List.replicate 60 255, by decide⟩

theorem meets_ethBadFcs : ∃ (s : State) (p : Fin 6),
    (s.fabric = true) ∧ (ethUp s p = true) ∧ (rbit s R.ETH_CTRL_EN p = true) :=
  ⟨rset (liveR R.ETH_STATUS_LINK_UP 1 2) R.ETH_CTRL_EN 1 2, 2, by decide⟩

theorem meets_ethDrops : ∃ (s : State) (p : Fin 6) (f : List Nat),
    (s.fabric = true) ∧ (ethUp s p = true) ∧ (rbit s R.ETH_CTRL_EN p = true) ∧ (60 ≤ f.length) ∧ (f.length ≤ 1518) ∧ (macAccepts s p f = true) ∧ (isGptp s p f = false) ∧ (rbit s R.ETH_RXQ_CFG_ENABLE p = true) ∧ (queueRoom s queueEth p 0 = false) :=
  ⟨rset (rset (rset (liveR R.ETH_STATUS_LINK_UP 1 2) R.ETH_CTRL_EN 1 2) R.ETH_RXQ_CFG_ENABLE 1 2) R.ETH_RXQ_WRITE_PHASE 0 2, 2, List.replicate 60 255, by decide⟩

theorem meets_gptpSelects : ∃ (s : State) (p : Fin 4),
    (s.fabric = true) ∧ (ethUp s p = true) ∧ (rbit s R.ETH_CTRL_GPTP_EN p = true) :=
  ⟨rset (liveR R.ETH_STATUS_LINK_UP 1 2) R.ETH_CTRL_GPTP_EN 1 2, 2, by decide⟩

theorem meets_ethFalls : ∃ (s : State) (p : Fin 6),
    (s.fabric = true) ∧ (ethUp s p = true) :=
  ⟨liveR R.ETH_STATUS_LINK_UP 1 2, 2, by decide⟩

theorem meets_ethRises : ∃ (s : State) (p : Fin 6),
    (s.fabric = true) ∧ (rbit s R.ETH_CTRL_EN p = true) :=
  ⟨liveR R.ETH_CTRL_EN 1 2, 2, by decide⟩

theorem meets_sleepAsked : ∃ (s : State) (p : Fin 4),
    (s.fabric = true) ∧ (ethUp s p = true) :=
  ⟨liveR R.ETH_STATUS_LINK_UP 1 2, 2, by decide⟩

theorem meets_sleepAcked : ∃ (s : State) (p : Fin 4),
    (s.fabric = true) ∧ ((getEth s p).sleepAsked = true) ∧ (ethUp s p = true) :=
  ⟨modEth (liveR R.ETH_STATUS_LINK_UP 1 2) 2 fun e => { e with sleepAsked := true }, 2, by decide⟩

theorem meets_wakeSent : ∃ (s : State),
    (s.fabric = true) :=
  ⟨live, by decide⟩

theorem meets_canEnabled : ∃ (s : State) (c : Fin 8),
    (s.fabric = true) ∧ (canOn s c = false) ∧ (timingOk s c = true) ∧ (rget s R.RING_CFG_CLASS 0 (rget s R.CAN_TX_CFG_RING c) = 6) :=
  ⟨rset onBus2 R.CAN_CTRL_EN 0 2, 2, by decide⟩

theorem meets_canTiming : ∃ (s : State) (c : Fin 8),
    (s.fabric = true) ∧ (canOn s c = false) ∧ (timingOk s c = false) :=
  ⟨rset live R.CAN_NBT_NBRP 31 2, 2, by decide⟩

theorem meets_canRing : ∃ (s : State) (c : Fin 8),
    (s.fabric = true) ∧ (canOn s c = false) ∧ (timingOk s c = true) ∧ (rget s R.RING_CFG_CLASS 0 (rget s R.CAN_TX_CFG_RING c) ≠ 6) :=
  ⟨live, 2, by decide⟩

theorem meets_sendWaits : ∃ (s : State) (t : Fc) (r : Ref) (d : Desc),
    (s.fabric = true) ∧ (heldDesc s r 6 1 = some d) ∧ (due (advance s t) d = true) ∧ (sendError s r d = none) :=
  ⟨holding ({ header 6 1 with classWord := 2, body := [0x123, 2, 0, 0, 0, 0, 0, 0, 0, 0, 0, 0] }) (onBus2), 0, ⟨7, 0, 0⟩, { header 6 1 with classWord := 2, body := [0x123, 2, 0, 0, 0, 0, 0, 0, 0, 0, 0, 0] }, by decide⟩

theorem meets_sendIdentifier : ∃ (s : State) (t : Fc) (r : Ref) (d : Desc),
    (s.fabric = true) ∧ (heldDesc s r 6 1 = some d) ∧ (due (advance s t) d = true) ∧ (bitOf (d.word 0x10) 29 = false) ∧ (2 ^ 11 ≤ d.word 0x10 % 2 ^ 29) :=
  ⟨holding ({ header 6 1 with classWord := 2, body := [0x800, 2, 0, 0, 0, 0, 0, 0, 0, 0, 0, 0] }) (onBus2), 0, ⟨7, 0, 0⟩, { header 6 1 with classWord := 2, body := [0x800, 2, 0, 0, 0, 0, 0, 0, 0, 0, 0, 0] }, by decide⟩

theorem meets_sendBusOff : ∃ (s : State) (t : Fc) (r : Ref) (d : Desc),
    (s.fabric = true) ∧ (heldDesc s r 6 1 = some d) ∧ (due (advance s t) d = true) ∧ (sendError s r d = some (stRejectState, 0x02D1)) :=
  ⟨holding ({ header 6 1 with classWord := 2, body := [0x123, 2, 0, 0, 0, 0, 0, 0, 0, 0, 0, 0] }) (rset onBus2 R.CAN_STATUS_STATE 2 2), 0, ⟨7, 0, 0⟩, { header 6 1 with classWord := 2, body := [0x123, 2, 0, 0, 0, 0, 0, 0, 0, 0, 0, 0] }, by decide⟩

theorem meets_fetchedToBuffer : ∃ (s : State) (c : Fin 8) (r : Ref) (l : List Ref) (d : Desc) (b : Nat),
    (s.fabric = true) ∧ (canOn s c = true) ∧ (rval s R.CAN_CTRL_MODE c = 0) ∧ ((getCan s c).sends = r :: l) ∧ (sendBefore s r = false) ∧ (reqDesc s r = some d) ∧ (canOff s c = false) ∧ (([0, 1, 2].find? fun b => (tblGet? (getCan s c).txb b).isNone) = some b) :=
  ⟨modCan (holding ({ header 6 1 with classWord := 2, body := [0x123, 2, 0, 0, 0, 0, 0, 0, 0, 0, 0, 0] }) onBus2) 2 fun k => { k with sends := [⟨7, 0, 0⟩] }, 2, ⟨7, 0, 0⟩, [], { header 6 1 with classWord := 2, body := [0x123, 2, 0, 0, 0, 0, 0, 0, 0, 0, 0, 0] }, 0, by decide⟩

theorem meets_fetchedInBusOff : ∃ (s : State) (c : Fin 8) (r : Ref) (l : List Ref) (d : Desc),
    (s.fabric = true) ∧ (canOn s c = true) ∧ (rval s R.CAN_CTRL_MODE c = 0) ∧ ((getCan s c).sends = r :: l) ∧ (sendBefore s r = false) ∧ (reqDesc s r = some d) ∧ (canOff s c = true) :=
  ⟨modCan (holding ({ header 6 1 with classWord := 2, body := [0x123, 2, 0, 0, 0, 0, 0, 0, 0, 0, 0, 0] }) (rset onBus2 R.CAN_STATUS_STATE 2 2)) 2 fun k => { k with sends := [⟨7, 0, 0⟩] }, 2, ⟨7, 0, 0⟩, [], { header 6 1 with classWord := 2, body := [0x123, 2, 0, 0, 0, 0, 0, 0, 0, 0, 0, 0] }, by decide⟩

theorem meets_selectedByPriority : ∃ (s : State) (c : Fin 8),
    (s.fabric = true) ∧ (canOn s c = true) ∧ (canOff s c = false) ∧ (rget s R.CAN_ERR_CNT_TEC c ≤ 255) ∧ (rval s R.CAN_CTRL_MODE c ≠ 1) ∧ ((getCan s c).onBus = none) ∧ (rbit s R.CAN_TX_CFG_ORDER c = false) ∧ (candidates (getCan s c) ≠ []) :=
  ⟨modCan (holding (header 6 1) onBus2) 2 fun k => { k with txb := [(1, someTx)] }, 2, by decide⟩

theorem meets_selectedInOrder : ∃ (s : State) (c : Fin 8) (p : Nat × CanTx) (l : List (Nat × CanTx)),
    (s.fabric = true) ∧ (canOn s c = true) ∧ (canOff s c = false) ∧ (rget s R.CAN_ERR_CNT_TEC c ≤ 255) ∧ (rval s R.CAN_CTRL_MODE c ≠ 1) ∧ ((getCan s c).onBus = none) ∧ (rbit s R.CAN_TX_CFG_ORDER c = true) ∧ (candidates (getCan s c) = p :: l) :=
  ⟨modCan (rset onBus2 R.CAN_TX_CFG_ORDER 1 2) 2 fun k => { k with txb := [(1, someTx)] }, 2, (1, someTx), [], by decide⟩

theorem meets_frameSent : ∃ (s : State) (c : Fin 8) (b : Nat) (n : Nat) (x : CanTx) (r : Ref),
    (s.fabric = true) ∧ ((getCan s c).onBus = some (b, n)) ∧ (txAt (getCan s c) b = some x) ∧ (txAborted s x = false) ∧ (x.echo = false) ∧ (rval s R.CAN_CTRL_MODE c = 0) ∧ (x.ref = some r) :=
  ⟨modCan (holding (header 6 1) onBus2) 2 fun k => { k with txb := [(1, someTx)], onBus := some (1, 4) }, 2, 1, 4, someTx, ⟨7, 0, 0⟩, by decide⟩

theorem meets_echoQueued : ∃ (s : State) (c : Fin 8) (b : Nat) (n : Nat) (x : CanTx) (r : Ref),
    (s.fabric = true) ∧ ((getCan s c).onBus = some (b, n)) ∧ (txAt (getCan s c) b = some x) ∧ (txAborted s x = false) ∧ (x.echo = true) ∧ (rval s R.CAN_CTRL_MODE c = 0) ∧ (x.ref = some r) :=
  ⟨modCan (holding (header 6 1) onBus2) 2 fun k => { k with txb := [(1, { someTx with echo := true })], onBus := some (1, 4) }, 2, 1, 4, { someTx with echo := true }, ⟨7, 0, 0⟩, by decide⟩

theorem meets_stagedSent : ∃ (s : State) (c : Fin 8) (n : Nat) (x : CanTx) (l : List CanTx),
    (s.fabric = true) ∧ ((getCan s c).onBus = some (3, n)) ∧ ((getCan s c).staged = x :: l) ∧ (x.ref = none) ∧ (x.echo = false) ∧ (rval s R.CAN_CTRL_MODE c = 0) :=
  ⟨modCan onBus2 2 fun k => { k with staged := [{ someTx with ref := none }], onBus := some (3, 4) }, 2, 4, { someTx with ref := none }, [], by decide⟩

theorem meets_stagedFails : ∃ (s : State) (c : Fin 8) (n : Nat) (x : CanTx) (l : List CanTx),
    (s.fabric = true) ∧ ((getCan s c).onBus = some (3, n)) ∧ ((getCan s c).staged = x :: l) ∧ (x.ref = none) ∧ (rget s R.CAN_ERR_CNT_TEC c ≤ 255) ∧ (rget s R.CAN_TX_CFG_RETRY_LIMIT c < x.losses + 1 + x.errors) :=
  ⟨rset (modCan onBus2 2 fun k => { k with staged := [{ someTx with ref := none }], onBus := some (3, 4) }) R.CAN_TX_CFG_RETRY_LIMIT 0 2, 2, 4, { someTx with ref := none }, [], by decide⟩

theorem meets_arbitrationLost : ∃ (s : State) (c : Fin 8) (b : Nat) (n : Nat) (x : CanTx),
    (s.fabric = true) ∧ ((getCan s c).onBus = some (b, n)) ∧ (txAt (getCan s c) b = some x) ∧ (txAborted s x = false) ∧ (rget s R.CAN_ERR_CNT_TEC c ≤ 255) ∧ (x.losses + 1 + x.errors ≤ rget s R.CAN_TX_CFG_RETRY_LIMIT c) :=
  ⟨rset (modCan (holding (header 6 1) onBus2) 2 fun k => { k with txb := [(1, someTx)], onBus := some (1, 4) }) R.CAN_TX_CFG_RETRY_LIMIT 3 2, 2, 1, 4, someTx, by decide⟩

theorem meets_attemptsUsedUp : ∃ (s : State) (c : Fin 8) (b : Nat) (n : Nat) (x : CanTx) (r : Ref),
    (s.fabric = true) ∧ ((getCan s c).onBus = some (b, n)) ∧ (txAt (getCan s c) b = some x) ∧ (txAborted s x = false) ∧ (rget s R.CAN_ERR_CNT_TEC c ≤ 255) ∧ (rget s R.CAN_TX_CFG_RETRY_LIMIT c < x.losses + 1 + x.errors) ∧ (x.ref = some r) :=
  ⟨rset (modCan (holding (header 6 1) onBus2) 2 fun k => { k with txb := [(1, someTx)], onBus := some (1, 4) }) R.CAN_TX_CFG_RETRY_LIMIT 0 2, 2, 1, 4, someTx, ⟨7, 0, 0⟩, by decide⟩

theorem meets_errorCounts : ∃ (s : State) (c : Fin 8) (b : Nat) (n : Nat) (x : CanTx),
    (s.fabric = true) ∧ ((getCan s c).onBus = some (b, n)) ∧ (txAt (getCan s c) b = some x) ∧ (txAborted s x = false) ∧ (rget s R.CAN_ERR_CNT_TEC c ≤ 247) ∧ (x.losses + x.errors + 1 ≤ rget s R.CAN_TX_CFG_RETRY_LIMIT c) ∧ (canOff s c = false) :=
  ⟨rset (modCan (holding (header 6 1) onBus2) 2 fun k => { k with txb := [(1, someTx)], onBus := some (1, 4) }) R.CAN_TX_CFG_RETRY_LIMIT 3 2, 2, 1, 4, someTx, by decide⟩

theorem meets_frameQueued : ∃ (s : State) (t : Fc) (c : Fin 8) (f : CanFrame) (m : Nat),
    (s.fabric = true) ∧ (canHears s c = true) ∧ (f.fdf = false ∨ rbit s R.CAN_CTRL_FD_EN c = true) ∧ (rget s R.CAN_ERR_CNT_REC c ≤ 127) ∧ (((List.range 32).find? fun k => filterHit (beforeRegs (advance s t)) c f k) = some m) ∧ (filterAct (beforeRegs (advance s t)) c m = 1 ∨ filterAct (beforeRegs (advance s t)) c m = 2) ∧ (queueRoom s queueCan c (filterAct (beforeRegs (advance s t)) c m - 1) = true) ∧ (Memory.wf s.mem = true) ∧ (Memory.wf s.extMem = true) :=
  ⟨rset (rset (rset (rset onBus2 R.CAN_RXQ_CFG_ENABLE 1 2 0) R.CAN_RXQ_CFG_SIZE_LOG2 4 2 0) R.CAN_FLT_ACT 1 2 0) R.CAN_RXQ_HEAD_PHASE 1 2 0, 9, 2, someCanFrame, 0, by decide +kernel⟩

theorem meets_frameDiscarded : ∃ (s : State) (t : Fc) (c : Fin 8) (f : CanFrame) (m : Nat),
    (s.fabric = true) ∧ (canHears s c = true) ∧ (f.fdf = false ∨ rbit s R.CAN_CTRL_FD_EN c = true) ∧ (rget s R.CAN_ERR_CNT_REC c ≤ 127) ∧ (((List.range 32).find? fun k => filterHit (beforeRegs (advance s t)) c f k) = some m) ∧ (filterAct (beforeRegs (advance s t)) c m = 3) :=
  ⟨rset onBus2 R.CAN_FLT_ACT 3 2 0, 9, 2, someCanFrame, 0, by decide +kernel⟩

theorem meets_frameUnwanted : ∃ (s : State) (t : Fc) (c : Fin 8) (f : CanFrame),
    (s.fabric = true) ∧ (canHears s c = true) ∧ (f.fdf = false ∨ rbit s R.CAN_CTRL_FD_EN c = true) ∧ (rget s R.CAN_ERR_CNT_REC c ≤ 127) ∧ (((List.range 32).find? fun k => filterHit (beforeRegs (advance s t)) c f k) = none) ∧ (rget s R.CAN_TX_CFG_DEFAULT_ACT c = 0 ∨ rget s R.CAN_TX_CFG_DEFAULT_ACT c = 3) :=
  ⟨rset onBus2 R.CAN_TX_CFG_DEFAULT_ACT 0 2, 9, 2, someCanFrame, by decide +kernel⟩

theorem meets_frameOfPassive : ∃ (s : State) (c : Fin 8) (f : CanFrame),
    (s.fabric = true) ∧ (canHears s c = true) ∧ (f.fdf = false ∨ rbit s R.CAN_CTRL_FD_EN c = true) ∧ (128 ≤ rget s R.CAN_ERR_CNT_REC c) :=
  ⟨rset onBus2 R.CAN_ERR_CNT_REC 200 2, 2, someCanFrame, by decide⟩

theorem meets_receiveErrorCounts : ∃ (s : State) (c : Fin 8),
    (s.fabric = true) ∧ (canHears s c = true) :=
  ⟨onBus2, 2, by decide⟩

theorem meets_busOffEntered : ∃ (s : State) (c : Fin 8),
    (s.fabric = true) ∧ (canOff s c = false) ∧ (256 ≤ rget s R.CAN_ERR_CNT_TEC c) :=
  ⟨rset (modCan (holding (header 6 1) onBus2) 2 fun k => { k with txb := [(1, someTx)], onBus := some (1, 4) }) R.CAN_ERR_CNT_TEC 256 2, 2, by decide⟩

theorem meets_recoveryStarts : ∃ (s : State) (c : Fin 8),
    (s.fabric = true) ∧ (rget s R.CAN_STATUS_STATE c = 2) :=
  ⟨rset onBus2 R.CAN_STATUS_STATE 2 2, 2, by decide⟩

theorem meets_recovered : ∃ (s : State) (c : Fin 8),
    (s.fabric = true) ∧ (rget s R.CAN_STATUS_STATE c = 3) :=
  ⟨rset onBus2 R.CAN_STATUS_STATE 3 2, 2, by decide⟩

theorem meets_pnlEnables : ∃ (s : State) (p : Fin 2),
    (s.fabric = true) ∧ (pnlOn s p = false) ∧ (pnlError s p = 0) :=
  ⟨panel, 1, by decide⟩

theorem meets_pnlRefuses : ∃ (s : State) (p : Fin 2),
    (s.fabric = true) ∧ (pnlOn s p = false) ∧ (pnlError s p ≠ 0) :=
  ⟨live, 1, by decide⟩

theorem meets_pnlDisables : ∃ (s : State) (p : Fin 2),
    (s.fabric = true) ∧ (pnlOn s p = true) :=
  ⟨holding ({ header 8 1 with classWord := 1, body := [0, 0, 65536 + 3, 64] }) (rset panel R.PNL_CTRL_EN 1 1), 1, by decide⟩

theorem meets_pnlDisablesIdle : ∃ (s : State) (p : Fin 2),
    (s.fabric = true) ∧ (pnlOn s p = true) ∧ ((getPnl s p).writing = none) ∧ (wipeOpen s p = false) :=
  ⟨holding ({ header 8 1 with classWord := 1, body := [0, 0, 65536 + 3, 64] }) (rset panel R.PNL_CTRL_EN 1 1), 1, by decide⟩

theorem meets_updateTakes : ∃ (s : State) (t : Fc) (r : Ref) (d : Desc),
    (s.fabric = true) ∧ (heldDesc s r 8 1 = some d) ∧ (due (advance s t) d = true) ∧ (panelServes s r = true) ∧ (d.word 0x18 / 65536 % 512 ≠ 0) ∧ (d.word 0x18 % 512 + d.word 0x18 / 65536 % 512 ≤ pnlHeight s (d.classWord % 2)) ∧ (pnlWidth s (d.classWord % 2) / 2 ≤ d.word 0x1C % 65536) ∧ (pnlOn s (d.classWord % 2) = true) :=
  ⟨holding ({ header 8 1 with classWord := 1, body := [0, 0, 65536 + 3, 64] }) (rset panel R.PNL_CTRL_EN 1 1), 0, ⟨7, 0, 0⟩, { header 8 1 with classWord := 1, body := [0, 0, 65536 + 3, 64] }, by decide⟩

theorem meets_updateRange : ∃ (s : State) (t : Fc) (r : Ref) (d : Desc),
    (s.fabric = true) ∧ (heldDesc s r 8 1 = some d) ∧ (due (advance s t) d = true) ∧ (panelServes s r = true) ∧ (d.word 0x18 / 65536 % 512 = 0 ∨ pnlHeight s (d.classWord % 2) < d.word 0x18 % 512 + d.word 0x18 / 65536 % 512 ∨
        d.word 0x1C % 65536 < pnlWidth s (d.classWord % 2) / 2) :=
  ⟨holding (header 8 1) (live), 0, ⟨7, 0, 0⟩, header 8 1, by decide⟩

theorem meets_updateOff : ∃ (s : State) (t : Fc) (r : Ref) (d : Desc),
    (s.fabric = true) ∧ (heldDesc s r 8 1 = some d) ∧ (due (advance s t) d = true) ∧ (panelServes s r = true) ∧ (d.word 0x18 / 65536 % 512 ≠ 0) ∧ (d.word 0x18 % 512 + d.word 0x18 / 65536 % 512 ≤ pnlHeight s (d.classWord % 2)) ∧ (pnlWidth s (d.classWord % 2) / 2 ≤ d.word 0x1C % 65536) ∧ (pnlOn s (d.classWord % 2) = false) :=
  ⟨holding ({ header 8 1 with classWord := 1, body := [0, 0, 65536 + 3, 64] }) (panel), 0, ⟨7, 0, 0⟩, { header 8 1 with classWord := 1, body := [0, 0, 65536 + 3, 64] }, by decide⟩

theorem meets_clearWipes : ∃ (s : State) (t : Fc) (r : Ref) (d : Desc),
    (s.fabric = true) ∧ (heldDesc s r 8 2 = some d) ∧ (due (advance s t) d = true) ∧ (panelServes s r = true) ∧ (pnlOn s (d.classWord % 2) = true) ∧ ((getPnl s (d.classWord % 2)).writing = none) ∧ ((getPnl s (d.classWord % 2)).wiping = none) :=
  ⟨holding (header 8 2) (liveR R.PNL_CTRL_EN 1 0), 0, ⟨7, 0, 0⟩, header 8 2, by decide⟩

theorem meets_clearOff : ∃ (s : State) (t : Fc) (r : Ref) (d : Desc),
    (s.fabric = true) ∧ (heldDesc s r 8 2 = some d) ∧ (due (advance s t) d = true) ∧ (panelServes s r = true) ∧ (pnlOn s (d.classWord % 2) = false) :=
  ⟨holding (header 8 2) (live), 0, ⟨7, 0, 0⟩, header 8 2, by decide⟩

theorem meets_wipeEnds : ∃ (s : State) (t : Fc) (p : Fin 2) (e : Nat) (r : Ref),
    (s.fabric = true ∨ (s.aoc.power = 2 ∧ rbit s R.PNL_CTRL_PARK_KEEP p = true)) ∧ ((getPnl s p).writing = none) ∧ ((getPnl s p).wiping = some (e, [some r])) ∧ (e ≤ max s.now t) ∧ ((getPnl s p).wipes = []) ∧ ((getPnl s p).jobs = []) :=
  ⟨modPnl (holding ({ header 8 1 with classWord := 1, body := [0, 0, 65536 + 3, 64] }) (rset panel R.PNL_CTRL_EN 1 1)) 1 fun q => { q with wiping := some (9, [some ⟨7, 0, 0⟩]) }, 1000000, 1, 9, ⟨7, 0, 0⟩, by decide⟩

theorem meets_clearWaits : ∃ (s : State) (t : Fc) (r : Ref) (d : Desc) (x : PnlWrite),
    (s.fabric = true) ∧ (heldDesc s r 8 2 = some d) ∧ (due (advance s t) d = true) ∧ (panelServes s r = true) ∧ (pnlOn s (d.classWord % 2) = true) ∧ ((getPnl s (d.classWord % 2)).writing = some x) :=
  ⟨holding ({ header 8 2 with classWord := 1 }) (modPnl (rset panel R.PNL_CTRL_EN 1 1) 1 fun q => { q with writing := some ⟨3, List.replicate 64 1, none, 0⟩ }), 0, ⟨7, 0, 0⟩, { header 8 2 with classWord := 1 }, ⟨3, List.replicate 64 1, none, 0⟩, by decide⟩

theorem meets_lineStarts : ∃ (s : State) (t : Fc) (p : Fin 2) (n : Nat),
    (s.fabric = true) ∧ (pnlOn s p = true) ∧ ((getPnl s p).writing = none) ∧ ((getPnl s p).wiping = none) ∧ (blankWanted s p = false) ∧ (vlcdSettled (advance s t) p = true) ∧ (s.aoc.power = 0 ∨ s.aoc.power = 1) ∧ (nextLine s p = some n) :=
  ⟨paintable, 0, 1, 3, by decide⟩

theorem meets_lineEnds : ∃ (s : State) (t : Fc) (p : Fin 2) (x : PnlWrite),
    (s.fabric = true ∨ (s.aoc.power = 2 ∧ rbit s R.PNL_CTRL_PARK_KEEP p = true)) ∧ ((getPnl s p).writing = some x) ∧ (x.ends ≤ max s.now t) ∧ ((getPnl s p).wipes = []) :=
  ⟨modPnl paintable 1 fun q => { q with writing := some ⟨3, List.replicate 64 1, none, 0⟩ }, 1000000, 1, ⟨3, List.replicate 64 1, none, 0⟩, by decide⟩

theorem meets_tempSampled : ∃ (s : State) (t : Fc) (p : Fin 2),
    (s.fabric = true ∨ (s.aoc.power = 2 ∧ rbit s R.PNL_CTRL_PARK_KEEP p = true)) ∧ ((getPnl s p).tempAt.all (fun a => a + 40000000 ≤ max s.now t) = true) ∧ (rbit s R.PNL_CTRL_TSRC p = false) :=
  ⟨panel, 0, 1, by decide⟩

theorem meets_tempOfHousing : ∃ (s : State) (t : Fc) (p : Fin 2),
    (s.fabric = true ∨ (s.aoc.power = 2 ∧ rbit s R.PNL_CTRL_PARK_KEEP p = true)) ∧ ((getPnl s p).tempAt.all (fun a => a + 40000000 ≤ max s.now t) = true) ∧ (rbit s R.PNL_CTRL_TSRC p = true) :=
  ⟨rset panel R.PNL_CTRL_TSRC 1 1, 0, 1, by decide⟩

theorem meets_tempSensorLost : ∃ (s : State) (t : Fc) (p : Fin 2),
    (s.fabric = true ∨ (s.aoc.power = 2 ∧ rbit s R.PNL_CTRL_PARK_KEEP p = true)) ∧ ((getPnl s p).tempAt.all (fun a => a + 40000000 ≤ max s.now t) = true) :=
  ⟨panel, 0, 1, by decide⟩

theorem meets_pinvToggles : ∃ (s : State) (t : Fc) (p : Fin 2),
    (s.fabric = true ∨ (s.aoc.power = 2 ∧ rbit s R.PNL_CTRL_PARK_KEEP p = true)) ∧ (pnlOn s p = true) ∧ (rbit s R.PNL_CTRL_PWR_EN p = true) ∧ (vcomInstant (advance s t) p = true) ∧ ((getPnl s p).vcomAt ≠ some (max s.now t)) ∧ ((getPnl s p).writing = none) :=
  ⟨rset panel R.PNL_CTRL_EN 1 1, 400000000, 1, by decide⟩

theorem meets_pinvWaits : ∃ (s : State) (t : Fc) (p : Fin 2) (x : PnlWrite),
    (s.fabric = true ∨ (s.aoc.power = 2 ∧ rbit s R.PNL_CTRL_PARK_KEEP p = true)) ∧ (pnlOn s p = true) ∧ (rbit s R.PNL_CTRL_PWR_EN p = true) ∧ (vcomInstant (advance s t) p = true) ∧ ((getPnl s p).vcomAt ≠ some (max s.now t)) ∧ ((getPnl s p).writing = some x) :=
  ⟨modPnl (rset panel R.PNL_CTRL_EN 1 1) 1 fun q => { q with writing := some ⟨3, List.replicate 64 1, none, 0⟩ }, 400000000, 1, ⟨3, List.replicate 64 1, none, 0⟩, by decide⟩

theorem meets_crackSecond : ∃ (s : State) (t : Fc) (p : Fin 2) (o : Nat),
    (s.fabric = true ∨ (s.aoc.power = 2 ∧ rbit s R.PNL_CTRL_PARK_KEEP p = true)) ∧ ((getPnl s p).crackAt.all (fun a => a + 400000000 ≤ max s.now t) = true) ∧ (10 * rval s R.PNL_CRACK_CRACK_OHM p < o) ∧ (1 ≤ (getPnl s p).high) :=
  ⟨modPnl (rset panel R.PNL_CTRL_EN 1 1) 1 fun q => { q with high := 1 }, 0, 1, 60000, by decide⟩

theorem meets_crackFirst : ∃ (s : State) (t : Fc) (p : Fin 2) (o : Nat),
    (s.fabric = true ∨ (s.aoc.power = 2 ∧ rbit s R.PNL_CTRL_PARK_KEEP p = true)) ∧ ((getPnl s p).crackAt.all (fun a => a + 400000000 ≤ max s.now t) = true) ∧ (10 * rval s R.PNL_CRACK_CRACK_OHM p < o) ∧ ((getPnl s p).high = 0) :=
  ⟨rset panel R.PNL_CTRL_EN 1 1, 0, 1, 60000, by decide⟩

theorem meets_crackGood : ∃ (s : State) (t : Fc) (p : Fin 2) (o : Nat),
    (s.fabric = true ∨ (s.aoc.power = 2 ∧ rbit s R.PNL_CTRL_PARK_KEEP p = true)) ∧ ((getPnl s p).crackAt.all (fun a => a + 400000000 ≤ max s.now t) = true) ∧ (o ≤ 10 * rval s R.PNL_CRACK_CRACK_OHM p) :=
  ⟨rset panel R.PNL_CTRL_EN 1 1, 0, 1, 6, by decide⟩

theorem meets_crackCleared : ∃ (s : State) (p : Fin 2),
    (s.fabric = true) ∧ (2 ≤ (getPnl s p).low) :=
  ⟨modPnl panel 1 fun q => { q with low := 2 }, 1, by decide⟩

theorem meets_crackStays : ∃ (s : State) (p : Fin 2),
    (s.fabric = true) ∧ ((getPnl s p).low < 2) :=
  ⟨panel, 1, by decide⟩

theorem meets_supplyFaults : ∃ (s : State) (p : Fin 2),
    (s.fabric = true ∨ (s.aoc.power = 2 ∧ rbit s R.PNL_CTRL_PARK_KEEP p = true)) ∧ (rbit s R.PNL_CTRL_PWR_EN p = true) ∧ (pnlOn s p = true) :=
  ⟨rset panel R.PNL_CTRL_EN 1 1, 1, by decide⟩

theorem meets_fleetStarts : ∃ (s : State) (t : Fc),
    (s.fabric = true) ∧ (rbit s R.FLE_CTRL_EN = false) ∧ (rget s R.NAV_STATE_TIME_STATE ≠ 0) ∧ (credsValid (advance s t) = true) ∧ (verBase s ≠ 0) ∧ (cacheBase s ≠ 0) ∧ (rget s R.FLE_STORE_BASE_LO_ADDR_LO ≠ 0 ∨ rget s R.FLE_STORE_BASE_HI_ADDR_HI ≠ 0) ∧ (rbit s R.ETH_CTRL_EN (rget s R.FLE_CTRL_PORT) = true) :=
  ⟨rset (rset (rset (rset (rset (rset (rset inFleet R.FLE_CTRL_EN 0) R.NAV_STATE_TIME_STATE 1) R.KSM_LC_STATE 2) R.FLE_VER_BASE_LO_ADDR_LO 1) R.STO_CACHE_BASE_LO_ADDR_LO 1) R.FLE_STORE_BASE_LO_ADDR_LO 1) R.ETH_CTRL_EN 1 0, 0, by decide +kernel⟩

theorem meets_fleetNoTime : ∃ (s : State),
    (s.fabric = true) ∧ (rbit s R.FLE_CTRL_EN = false) ∧ (rget s R.NAV_STATE_TIME_STATE = 0) :=
  ⟨live, by decide⟩

theorem meets_fleetStops : ∃ (s : State),
    (s.fabric = true) ∧ (tblSorted s.fle.sessions = true) :=
  ⟨inFleet, by decide⟩

theorem meets_peerAsked : ∃ (s : State) (t : Fc) (r : Ref) (d : Desc) (o : Option Session),
    (s.fabric = true) ∧ (heldDesc s r 7 1 = some d) ∧ (due (advance s t) d = true) ∧ (bitOf d.classWord 31 = false) ∧ (∃ w ∈ [d.word 0x10, d.word 0x14, d.word 0x18, d.word 0x1C], w ≠ 0) ∧ (d.word 0x20 % 65536 ≠ 0) ∧ (rbit s R.FLE_CTRL_EN = true) ∧ (tblGet? s.fle.sessions (d.classWord % 32) = o) :=
  ⟨holding ({ header 7 1 with classWord := 4, body := [0, 0, 0, 1, 99 + 65536 * 12, 0, 0, 0, 0, 0, 0, 0] }) (inFleet), 0, ⟨7, 0, 0⟩, { header 7 1 with classWord := 4, body := [0, 0, 0, 1, 99 + 65536 * 12, 0, 0, 0, 0, 0, 0, 0] }, none, by decide⟩

theorem meets_peerZeroAddress : ∃ (s : State) (t : Fc) (r : Ref) (d : Desc),
    (s.fabric = true) ∧ (heldDesc s r 7 1 = some d) ∧ (due (advance s t) d = true) ∧ (bitOf d.classWord 31 = false) ∧ ((∀ w ∈ [d.word 0x10, d.word 0x14, d.word 0x18, d.word 0x1C], w = 0) ∨ d.word 0x20 % 65536 = 0) :=
  ⟨holding ({ header 7 1 with classWord := 4, body := [0, 0, 0, 0, 0, 0, 0, 0, 0, 0, 0, 0] }) (inFleet), 0, ⟨7, 0, 0⟩, { header 7 1 with classWord := 4, body := [0, 0, 0, 0, 0, 0, 0, 0, 0, 0, 0, 0] }, by decide⟩

theorem meets_peerFleetOff : ∃ (s : State) (t : Fc) (r : Ref) (d : Desc),
    (s.fabric = true) ∧ (heldDesc s r 7 1 = some d) ∧ (due (advance s t) d = true) ∧ (bitOf d.classWord 31 = false) ∧ (∃ w ∈ [d.word 0x10, d.word 0x14, d.word 0x18, d.word 0x1C], w ≠ 0) ∧ (d.word 0x20 % 65536 ≠ 0) ∧ (rbit s R.FLE_CTRL_EN = false) :=
  ⟨holding ({ header 7 1 with classWord := 4, body := [0, 0, 0, 1, 99 + 65536 * 12, 0, 0, 0, 0, 0, 0, 0] }) (live), 0, ⟨7, 0, 0⟩, { header 7 1 with classWord := 4, body := [0, 0, 0, 1, 99 + 65536 * 12, 0, 0, 0, 0, 0, 0, 0] }, by decide⟩

theorem meets_peerCleared : ∃ (s : State) (t : Fc) (r : Ref) (d : Desc) (c : Session),
    (s.fabric = true) ∧ (heldDesc s r 7 1 = some d) ∧ (due (advance s t) d = true) ∧ (bitOf d.classWord 31 = true) ∧ (rbit s R.FLE_CTRL_EN = true) ∧ (tblGet? s.fle.sessions (d.classWord % 32) = some c) ∧ (tblSorted s.fle.sessions = true) :=
  ⟨holding ({ header 7 1 with classWord := 2 ^ 31 + 3, body := [0, 0, 0, 0, 0, 0, 0, 0, 0, 0, 0, 0] }) (inFleet), 0, ⟨7, 0, 0⟩, { header 7 1 with classWord := 2 ^ 31 + 3, body := [0, 0, 0, 0, 0, 0, 0, 0, 0, 0, 0, 0] }, someSession, by decide⟩

theorem meets_peerNoAnswer : ∃ (s : State) (t : Fc) (k : Fin 32) (c : Session) (q : Ref),
    (s.fabric = true) ∧ (tblGet? s.fle.sessions k = some c) ∧ (c.ref = some q) ∧ (c.setAt + 4000000000 ≤ max s.now t) :=
  ⟨inFleet { someSession with ref := some ⟨7, 0, 0⟩ }, 4000000000, 3, { someSession with ref := some ⟨7, 0, 0⟩ }, ⟨7, 0, 0⟩, by decide⟩

theorem meets_handshakeOpens : ∃ (s : State) (t : Fc) (k : Fin 32) (c : Session) (x : Cert),
    (s.fabric = true) ∧ (tblGet? s.fle.sessions k = some c) ∧ (rbit s R.FLE_CTRL_EN = true) ∧ (c.isOpen = false) ∧ (c.trying = true) ∧ (slotHeld (advance s t) k = false) ∧ (certError (advance s t) x = none) ∧ (x.pitch = c.pitch) ∧ ((getMember s x.pitch).evicted = false) :=
  ⟨inFleet { someSession with isOpen := false, trying := true, ref := some ⟨7, 0, 0⟩ }, 0, 3, { someSession with isOpen := false, trying := true, ref := some ⟨7, 0, 0⟩ }, someCert 9, by decide +kernel⟩

theorem meets_handshakeLost : ∃ (s : State) (k : Fin 32) (c : Session),
    (s.fabric = true) ∧ (tblGet? s.fle.sessions k = some c) ∧ (rbit s R.FLE_CTRL_EN = true) ∧ (c.isOpen = false) ∧ (c.trying = true) :=
  ⟨inFleet { someSession with isOpen := false, trying := true, ref := some ⟨7, 0, 0⟩ }, 3, { someSession with isOpen := false, trying := true, ref := some ⟨7, 0, 0⟩ }, by decide⟩

theorem meets_certificateFails : ∃ (s : State) (t : Fc) (k : Fin 32) (c : Session) (x : Cert) (n : Nat),
    (s.fabric = true) ∧ (tblGet? s.fle.sessions k = some c) ∧ (rbit s R.FLE_CTRL_EN = true) ∧ (c.isOpen = false) ∧ (c.trying = true) ∧ (slotHeld (advance s t) k = false) ∧ (certError (advance s t) x = some n) :=
  ⟨inFleet { someSession with isOpen := false, trying := true, ref := some ⟨7, 0, 0⟩ }, 0, 3, { someSession with isOpen := false, trying := true, ref := some ⟨7, 0, 0⟩ }, { someCert 9 with usage := false }, 3, by decide⟩

theorem meets_wrongPitch : ∃ (s : State) (t : Fc) (k : Fin 32) (c : Session) (x : Cert),
    (s.fabric = true) ∧ (tblGet? s.fle.sessions k = some c) ∧ (rbit s R.FLE_CTRL_EN = true) ∧ (c.isOpen = false) ∧ (c.trying = true) ∧ (slotHeld (advance s t) k = false) ∧ (certError (advance s t) x = none) ∧ (x.pitch ≠ c.pitch) :=
  ⟨inFleet { someSession with isOpen := false, trying := true, ref := some ⟨7, 0, 0⟩ }, 0, 3, { someSession with isOpen := false, trying := true, ref := some ⟨7, 0, 0⟩ }, someCert 8, by decide⟩

theorem meets_handshakeInHold : ∃ (s : State) (t : Fc) (k : Fin 32) (c : Session) (x : Cert),
    (s.fabric = true) ∧ (tblGet? s.fle.sessions k = some c) ∧ (rbit s R.FLE_CTRL_EN = true) ∧ (c.isOpen = false) ∧ (certError (advance s t) x = none) ∧ (x.pitch = c.pitch) ∧ ((getMember s x.pitch).evicted = true) ∧ (max s.now t < (getMember s x.pitch).evictAt + rget s R.FLE_TIMERS_EVICT_HOLD_S * 400000000) :=
  ⟨modMember (inFleet { someSession with isOpen := false, trying := true, ref := some ⟨7, 0, 0⟩ }) 9 fun m => { m with evicted := true }, 0, 3, { someSession with isOpen := false, trying := true, ref := some ⟨7, 0, 0⟩ }, someCert 9, by decide⟩

theorem meets_slotRetried : ∃ (s : State) (t : Fc) (k : Fin 32) (c : Session),
    (s.fabric = true) ∧ (tblGet? s.fle.sessions k = some c) ∧ (rbit s R.FLE_CTRL_EN = true) ∧ (c.isOpen = false) ∧ (slotHeld (advance s t) k = false) ∧ (c.closedAt + rval s R.FLE_TIMERS_RETRY_S * 400000000 ≤ max s.now t) :=
  ⟨inFleet { someSession with isOpen := false, trying := true, ref := some ⟨7, 0, 0⟩ }, 4000000000, 3, { someSession with isOpen := false, trying := true, ref := some ⟨7, 0, 0⟩ }, by decide⟩

theorem meets_keepaliveSent : ∃ (s : State) (t : Fc) (k : Fin 32) (c : Session),
    (s.fabric = true) ∧ (tblGet? s.fle.sessions k = some c) ∧ (c.isOpen = true) ∧ (c.txAt + 2000000000 ≤ max s.now t) ∧ (c.queue.length < 512) ∧ (.keepalive ∉ c.queue) :=
  ⟨inFleet, 2000000000, 3, someSession, by decide⟩

theorem meets_peerSilent : ∃ (s : State) (t : Fc) (k : Fin 32) (c : Session),
    (s.fabric = true) ∧ (tblGet? s.fle.sessions k = some c) ∧ (c.isOpen = true) ∧ (c.rxAt + rval s R.FLE_TIMERS_PEER_TIMEOUT_S * 400000000 ≤ max s.now t) :=
  ⟨inFleet, 6000000000, 3, someSession, by decide⟩

theorem meets_certificateExpires : ∃ (s : State) (t : Fc) (k : Fin 32) (c : Session),
    (s.fabric = true) ∧ (tblGet? s.fle.sessions k = some c) ∧ (c.isOpen = true) ∧ (c.expires < moduleTime (advance s t)) :=
  ⟨inFleet { someSession with expires := 5 }, 400, 3, { someSession with expires := 5 }, by decide⟩

theorem meets_byeReceived : ∃ (s : State) (t : Fc) (k : Fin 32) (c : Session),
    (s.fabric = true) ∧ (tblGet? s.fle.sessions k = some c) ∧ (c.isOpen = true) ∧ (c.overRate (max s.now t) = false) :=
  ⟨inFleet, 0, 3, someSession, by decide⟩

theorem meets_keepaliveReceived : ∃ (s : State) (t : Fc) (k : Fin 32) (c : Session),
    (s.fabric = true) ∧ (tblGet? s.fle.sessions k = some c) ∧ (c.isOpen = true) ∧ (c.overRate (max s.now t) = false) :=
  ⟨inFleet, 0, 3, someSession, by decide⟩

theorem meets_messageOverRate : ∃ (s : State) (t : Fc) (k : Fin 32) (c : Session),
    (s.fabric = true) ∧ (tblGet? s.fle.sessions k = some c) ∧ (c.isOpen = true) ∧ (max s.now t < c.rateFrom + 400000000) ∧ (400 ≤ c.rateCount) :=
  ⟨inFleet { someSession with rateCount := 400 }, 0, 3, { someSession with rateCount := 400 }, by decide⟩

theorem meets_holdEnds : ∃ (s : State) (t : Fc) (k : Fin 32) (a : Nat),
    (s.fabric = true) ∧ (tblGet? s.fle.held k = some a) ∧ (a ≤ max s.now t) :=
  ⟨modFle inFleet fun f => { f with held := [(3, 7)] }, 9, 3, 7, by decide⟩

theorem meets_catchesUp : ∃ (s : State) (k : Fin 32) (c : Session),
    (s.fabric = true) ∧ (tblGet? s.fle.sessions k = some c) ∧ (c.isOpen = true) ∧ (c.behind = true) ∧ (c.queue = []) ∧ (c.owed = []) :=
  ⟨inFleet { someSession with behind := true }, 3, { someSession with behind := true }, by decide +kernel⟩

theorem meets_strikesDecay : ∃ (s : State) (t : Fc),
    (s.fabric = true) ∧ (s.fle.decayAt + rval s R.FLE_LIMITS_STRIKE_DECAY_S * 400000000 ≤ max s.now t) :=
  ⟨inFleet, 24000000000, by decide⟩

theorem meets_summaryAnswered : ∃ (s : State) (t : Fc) (k : Fin 32) (c : Session) (figs : List Stamp),
    (s.fabric = true) ∧ (tblGet? s.fle.sessions k = some c) ∧ (c.isOpen = true) ∧ (c.overRate (max s.now t) = false) ∧ (figs.find? (fun f => f.a == ownPitch s) = none) :=
  ⟨modFle inFleet fun f => { f with store := [someDelta] }, 0, 3, someSession, [⟨0, 0, 9⟩], by decide⟩

theorem meets_summaryOfOwnCells : ∃ (s : State) (t : Fc) (k : Fin 32) (c : Session) (figs : List Stamp) (g : Stamp),
    (s.fabric = true) ∧ (tblGet? s.fle.sessions k = some c) ∧ (c.isOpen = true) ∧ (c.overRate (max s.now t) = false) ∧ (figs.find? (fun f => f.a == ownPitch s) = some g) ∧ (∀ x ∈ awayTiles s, lackedCells s g x = []) ∧ (tblSorted s.sto.cache = true) ∧ (∀ p ∈ s.sto.cache, tblSorted p.2.tile.vers = true) :=
  ⟨modFle inFleet fun f => { f with store := [someDelta] }, 0, 3, someSession, [⟨0, 0, 9⟩, ⟨0, 0, 1⟩], ⟨0, 0, 1⟩, by decide⟩

theorem meets_certificateSent : ∃ (s : State) (t : Fc) (k : Fin 32) (c : Session) (raw : List Nat) (p : Nat) (x : Cert),
    (s.fabric = true) ∧ (tblGet? s.fle.sessions k = some c) ∧ (c.isOpen = true) ∧ (c.overRate (max s.now t) = false) ∧ (c.queue.length < 512) ∧ (parseCertReq raw = some p) ∧ (certOf s p = some x) :=
  ⟨inFleet, 0, 3, someSession, [5, 1, 1, 0], 1, someCert 1, by decide⟩

theorem meets_noCertificate : ∃ (s : State) (t : Fc) (k : Fin 32) (c : Session) (raw : List Nat),
    (s.fabric = true) ∧ (tblGet? s.fle.sessions k = some c) ∧ (c.isOpen = true) ∧ (c.overRate (max s.now t) = false) ∧ ((parseCertReq raw).bind (certOf s) = none) :=
  ⟨inFleet, 0, 3, someSession, [5, 1, 8, 0], by decide⟩

theorem meets_certificateKept : ∃ (s : State) (t : Fc) (k : Fin 32) (c : Session) (x : Cert),
    (s.fabric = true) ∧ (tblGet? s.fle.sessions k = some c) ∧ (c.isOpen = true) ∧ (c.overRate (max s.now t) = false) ∧ (certError (advance s t) x = none) ∧ ((getMember s x.pitch).evicted = false) ∧ (tblSorted s.fle.sessions = true) :=
  ⟨inFleet, 0, 3, someSession, someCert 8, by decide⟩

theorem meets_pitchRejoins : ∃ (s : State) (t : Fc) (k : Fin 32) (c : Session) (x : Cert),
    (s.fabric = true) ∧ (tblGet? s.fle.sessions k = some c) ∧ (c.isOpen = true) ∧ (c.overRate (max s.now t) = false) ∧ (certError (advance s t) x = none) ∧ ((getMember s x.pitch).evicted = true) ∧ (x.serial ≠ (getMember s x.pitch).evictSerial) ∧ ((getMember s x.pitch).evictTime < x.notBefore) :=
  ⟨modMember inFleet 8 fun m => { m with evicted := true }, 400, 3, someSession, { someCert 8 with notBefore := 1 }, by decide⟩

theorem meets_peerStruck : ∃ (s : State) (t : Fc) (k : Fin 32) (c : Session) (x : Cert) (n : Nat),
    (s.fabric = true) ∧ (tblGet? s.fle.sessions k = some c) ∧ (c.isOpen = true) ∧ (c.overRate (max s.now t) = false) ∧ (certError (advance s t) x = some n) ∧ ((getMember s c.pitch).evicted = false) ∧ ((getMember s c.pitch).strikes + 1 < rval s R.FLE_LIMITS_STRIKE_MAX) :=
  ⟨inFleet, 0, 3, someSession, { someCert 8 with usage := false }, 3, by decide⟩

theorem meets_peerEvicted : ∃ (s : State) (t : Fc) (k : Fin 32) (c : Session) (x : Cert) (n : Nat),
    (s.fabric = true) ∧ (tblGet? s.fle.sessions k = some c) ∧ (c.isOpen = true) ∧ (c.overRate (max s.now t) = false) ∧ (certError (advance s t) x = some n) ∧ ((getMember s c.pitch).evicted = false) ∧ (rval s R.FLE_LIMITS_STRIKE_MAX ≤ (getMember s c.pitch).strikes + 1) ∧ (tblSorted s.fle.sessions = true) :=
  ⟨modMember inFleet 9 fun m => { m with strikes := 7 }, 0, 3, someSession, { someCert 8 with usage := false }, 3, by decide⟩

theorem meets_messageAfterEviction : ∃ (s : State) (t : Fc) (k : Fin 32) (c : Session),
    (s.fabric = true) ∧ (tblGet? s.fle.sessions k = some c) ∧ (c.isOpen = false) ∧ (slotHeld (advance s t) k = true) :=
  ⟨modFle (inFleet { someSession with isOpen := false, trying := true, ref := some ⟨7, 0, 0⟩ }) fun f => { f with held := [(3, 7)] }, 0, 3, { someSession with isOpen := false, trying := true, ref := some ⟨7, 0, 0⟩ }, by decide⟩

theorem meets_deltaMerged : ∃ (s : State) (t : Fc) (k : Fin 32) (c : Session) (raw : List Nat) (d : Delta) (sig : Bool) (j : Nat) (sl : CacheSlot),
    (s.fabric = true) ∧ (tblGet? s.fle.sessions k = some c) ∧ (c.isOpen = true) ∧ (c.overRate (max s.now t) = false) ∧ (parseDelta raw = some d) ∧ (d.market = ownMarket s) ∧ ((getMember s d.author).evicted = false) ∧ ((getMember s d.author).cert.isSome = true ∨ d.author = ownPitch s) ∧ (sig = true) ∧ (400000000 ≤ levelNow (advance s t) (getMember s d.author)) ∧ (d.t ≤ moduleTime (advance s t) + rval s R.FLE_LIMITS_SKEW_MS * 1000000) ∧ (d.origin = rget s R.STO_ORIGIN_ID_VALUE) ∧ (d.cellCm = gridCell s) ∧ (kindShared s (tileKind d.tile) = true) ∧ (cacheFind s d.tile = some (j, sl)) ∧ (tblGet? s.sto.cache j = some sl) ∧ (sl.loading = false) ∧ (tblSorted s.sto.cache = true) ∧ (tblSorted sl.tile.cells = true) ∧ (d.cells.any (fun e => stampLt (tileVer sl.tile e.1).stamp (⟨d.t, d.c, d.author⟩ : Stamp)) = true) :=
  ⟨(modSto inFleet fun m => { m with cache := [(5, ⟨tileNew live (3 * 2 ^ 32), false, none, none, 1, [], 0⟩)] }), 0, 3, someSession, deltaBytes someDelta, someDelta, true, 5, ⟨tileNew live (3 * 2 ^ 32), false, none, none, 1, [], 0⟩, by decide +kernel⟩

theorem meets_deltaNotLater : ∃ (s : State) (t : Fc) (k : Fin 32) (c : Session) (raw : List Nat) (d : Delta) (sig : Bool) (j : Nat) (sl : CacheSlot),
    (s.fabric = true) ∧ (tblGet? s.fle.sessions k = some c) ∧ (c.isOpen = true) ∧ (c.overRate (max s.now t) = false) ∧ (parseDelta raw = some d) ∧ (d.market = ownMarket s) ∧ ((getMember s d.author).evicted = false) ∧ ((getMember s d.author).cert.isSome = true ∨ d.author = ownPitch s) ∧ (sig = true) ∧ (400000000 ≤ levelNow (advance s t) (getMember s d.author)) ∧ (d.t ≤ moduleTime (advance s t) + rval s R.FLE_LIMITS_SKEW_MS * 1000000) ∧ (d.origin = rget s R.STO_ORIGIN_ID_VALUE) ∧ (d.cellCm = gridCell s) ∧ (kindShared s (tileKind d.tile) = true) ∧ (cacheFind s d.tile = some (j, sl)) ∧ (tblGet? s.sto.cache j = some sl) ∧ (sl.loading = false) ∧ (tblSorted s.sto.cache = true) ∧ (tblSorted sl.tile.cells = true) ∧ (d.cells.any (fun e => stampLt (tileVer sl.tile e.1).stamp (⟨d.t, d.c, d.author⟩ : Stamp)) = false) :=
  ⟨(modSto inFleet fun m => { m with cache := [(5, ⟨tileSetCell (tileNew live (3 * 2 ^ 32)) 9 7 ⟨⟨40, 0, 9⟩, false⟩, false, none, none, 1, [], 0⟩)] }), 0, 3, someSession, deltaBytes someDelta, someDelta, true, 5, ⟨tileSetCell (tileNew live (3 * 2 ^ 32)) 9 7 ⟨⟨40, 0, 9⟩, false⟩, false, none, none, 1, [], 0⟩, by decide +kernel⟩

theorem meets_deltaBadFormat : ∃ (s : State) (t : Fc) (k : Fin 32) (c : Session) (raw : List Nat),
    (s.fabric = true) ∧ (tblGet? s.fle.sessions k = some c) ∧ (c.isOpen = true) ∧ (c.overRate (max s.now t) = false) ∧ (parseDelta raw = none) ∧ ((getMember s c.pitch).evicted = false) ∧ ((getMember s c.pitch).strikes + 1 < rval s R.FLE_LIMITS_STRIKE_MAX) :=
  ⟨inFleet, 0, 3, someSession, [1, 1, 9], by decide +kernel⟩

theorem meets_authorEvicted : ∃ (s : State) (t : Fc) (k : Fin 32) (c : Session) (raw : List Nat) (d : Delta),
    (s.fabric = true) ∧ (tblGet? s.fle.sessions k = some c) ∧ (c.isOpen = true) ∧ (c.overRate (max s.now t) = false) ∧ (parseDelta raw = some d) ∧ (d.market = ownMarket s) ∧ ((getMember s d.author).evicted = true) :=
  ⟨modMember inFleet 9 fun m => { m with evicted := true }, 0, 3, someSession, deltaBytes someDelta, someDelta, by decide +kernel⟩

theorem meets_authorUnknown : ∃ (s : State) (t : Fc) (k : Fin 32) (c : Session) (raw : List Nat) (d : Delta),
    (s.fabric = true) ∧ (tblGet? s.fle.sessions k = some c) ∧ (c.isOpen = true) ∧ (c.overRate (max s.now t) = false) ∧ (parseDelta raw = some d) ∧ (d.market = ownMarket s) ∧ ((getMember s d.author).evicted = false) ∧ ((getMember s d.author).cert = none) ∧ (d.author ≠ ownPitch s) ∧ (c.queue.length < 512) :=
  ⟨inFleet, 0, 3, someSession, deltaBytes { someDelta with author := 8 }, { someDelta with author := 8 }, by decide +kernel⟩

theorem meets_authorOutOfTokens : ∃ (s : State) (t : Fc) (k : Fin 32) (c : Session) (raw : List Nat) (d : Delta) (sig : Bool),
    (s.fabric = true) ∧ (tblGet? s.fle.sessions k = some c) ∧ (c.isOpen = true) ∧ (c.overRate (max s.now t) = false) ∧ (parseDelta raw = some d) ∧ (d.market = ownMarket s) ∧ ((getMember s d.author).evicted = false) ∧ ((getMember s d.author).cert.isSome = true ∨ d.author = ownPitch s) ∧ (sig = true) ∧ (levelNow (advance s t) (getMember s d.author) < 400000000) :=
  ⟨modMember inFleet 9 fun m => { m with level := 5 }, 0, 3, someSession, deltaBytes someDelta, someDelta, true, by decide +kernel⟩

theorem meets_stampTooLate : ∃ (s : State) (t : Fc) (k : Fin 32) (c : Session) (raw : List Nat) (d : Delta) (sig : Bool),
    (s.fabric = true) ∧ (tblGet? s.fle.sessions k = some c) ∧ (c.isOpen = true) ∧ (c.overRate (max s.now t) = false) ∧ (parseDelta raw = some d) ∧ (d.market = ownMarket s) ∧ ((getMember s d.author).evicted = false) ∧ ((getMember s d.author).cert.isSome = true ∨ d.author = ownPitch s) ∧ (sig = true) ∧ (400000000 ≤ levelNow (advance s t) (getMember s d.author)) ∧ (moduleTime (advance s t) + rval s R.FLE_LIMITS_SKEW_MS * 1000000 < d.t) ∧ ((getMember s d.author).strikes + 1 < rval s R.FLE_LIMITS_STRIKE_MAX) :=
  ⟨inFleet, 0, 3, someSession, deltaBytes { someDelta with t := 10 ^ 12 }, { someDelta with t := 10 ^ 12 }, true, by decide +kernel⟩

theorem meets_gridDiffers : ∃ (s : State) (t : Fc) (k : Fin 32) (c : Session) (raw : List Nat) (d : Delta) (sig : Bool),
    (s.fabric = true) ∧ (tblGet? s.fle.sessions k = some c) ∧ (c.isOpen = true) ∧ (c.overRate (max s.now t) = false) ∧ (parseDelta raw = some d) ∧ (d.market = ownMarket s) ∧ ((getMember s d.author).evicted = false) ∧ ((getMember s d.author).cert.isSome = true ∨ d.author = ownPitch s) ∧ (sig = true) ∧ (400000000 ≤ levelNow (advance s t) (getMember s d.author)) ∧ (d.t ≤ moduleTime (advance s t) + rval s R.FLE_LIMITS_SKEW_MS * 1000000) ∧ (d.origin ≠ rget s R.STO_ORIGIN_ID_VALUE) :=
  ⟨inFleet, 0, 3, someSession, deltaBytes { someDelta with origin := 5 }, { someDelta with origin := 5 }, true, by decide +kernel⟩

theorem meets_statusKept : ∃ (s : State) (t : Fc) (k : Fin 32) (c : Session) (raw : List Nat) (m : StatusMsg) (sig : Bool),
    (s.fabric = true) ∧ (tblGet? s.fle.sessions k = some c) ∧ (c.isOpen = true) ∧ (c.overRate (max s.now t) = false) ∧ (parseStatus raw = some m) ∧ (m.market = ownMarket s) ∧ ((getMember s m.author).evicted = false) ∧ ((getMember s m.author).cert.isSome = true ∨ m.author = ownPitch s) ∧ (sig = true) ∧ (400000000 ≤ levelNow (advance s t) (getMember s m.author)) ∧ (m.time ≤ moduleTime (advance s t) + rval s R.FLE_LIMITS_SKEW_MS * 1000000) ∧ (∀ a, (getMember s m.author).lastStatus = some a → a < m.time) ∧ (queueRoom s queueFle 0 0 = true) ∧ (Memory.wf s.mem = true) ∧ (Memory.wf s.extMem = true) ∧ (tblSorted s.fle.sessions = true) ∧ (∀ p ∈ s.fle.sessions, p.1 ≠ k.val → p.2.isOpen = true → p.2.queue.length < 512) :=
  ⟨rset (rset inFleet R.FLE_RXQ_CFG_ENABLE 1) R.FLE_RXQ_HEAD_PHASE 1, 0, 3, someSession, (statusBody 9 5 40 1 [1, 2] ++ List.replicate 96 0), ⟨9, 5, 40, 1, [1, 2], (statusBody 9 5 40 1 [1, 2] ++ List.replicate 96 0)⟩, true, by decide +kernel⟩

theorem meets_statusNotLater : ∃ (s : State) (t : Fc) (k : Fin 32) (c : Session) (raw : List Nat) (m : StatusMsg) (sig : Bool) (a : Nat),
    (s.fabric = true) ∧ (tblGet? s.fle.sessions k = some c) ∧ (c.isOpen = true) ∧ (c.overRate (max s.now t) = false) ∧ (parseStatus raw = some m) ∧ (m.market = ownMarket s) ∧ ((getMember s m.author).evicted = false) ∧ ((getMember s m.author).cert.isSome = true ∨ m.author = ownPitch s) ∧ (sig = true) ∧ (400000000 ≤ levelNow (advance s t) (getMember s m.author)) ∧ (m.time ≤ moduleTime (advance s t) + rval s R.FLE_LIMITS_SKEW_MS * 1000000) ∧ ((getMember s m.author).lastStatus = some a) ∧ (m.time ≤ a) :=
  ⟨modMember inFleet 9 fun m => { m with lastStatus := some 40 }, 0, 3, someSession, (statusBody 9 5 40 1 [1, 2] ++ List.replicate 96 0), ⟨9, 5, 40, 1, [1, 2], (statusBody 9 5 40 1 [1, 2] ++ List.replicate 96 0)⟩, true, 40, by decide +kernel⟩

theorem meets_tilePublished : ∃ (s : State) (t : Fc) (k : Fin 4096) (c : CacheSlot),
    (s.fabric = true) ∧ (tblGet? s.sto.cache k = some c) ∧ (cacheFind s c.tile.id = some (k.val, c)) ∧ (tblSorted s.sto.cache = true) ∧ (tblSorted c.tile.cells = true) ∧ (tblSorted c.tile.vers = true) ∧ (tblSorted c.pubAt = true) ∧ (pubCells c.tile ≠ []) ∧ ((pubCells c.tile).length ≤ deltaMax (tileKind c.tile.id)) ∧ (∀ i ∈ pubCells c.tile, i < 16384) ∧ (pubDue (advance s t) c = true) ∧ (400000000 ≤ levelNow (advance s t) (getMember s (ownPitch s))) :=
  ⟨(modSto inFleet fun m => { m with cache := [(5, ⟨tileSetCell (tileNew live (3 * 2 ^ 32)) 9 7 ⟨⟨3, 0, 1⟩, true⟩, false, none, none, 1, [(9, 0)], 0⟩)] }), 4000000000, 5, ⟨tileSetCell (tileNew live (3 * 2 ^ 32)) 9 7 ⟨⟨3, 0, 1⟩, true⟩, false, none, none, 1, [(9, 0)], 0⟩, by decide +kernel⟩

theorem meets_statusSent : ∃ (s : State) (t : Fc) (r : Ref) (d : Desc),
    (s.fabric = true) ∧ (heldDesc s r 7 2 = some d) ∧ (due (advance s t) d = true) ∧ (d.word 0x18 % 512 ≤ 256) ∧ (rbit s R.FLE_CTRL_EN = true) ∧ (∀ a, s.fle.statusAt = some a → a + 40000000 ≤ max s.now t) ∧ (tblSorted s.fle.sessions = true) :=
  ⟨holding ({ header 7 2 with classWord := 0, body := [0, 0, 2, 0, 0, 0, 0, 0, 0, 0, 0, 0] }) (inFleet), 0, ⟨7, 0, 0⟩, { header 7 2 with classWord := 0, body := [0, 0, 2, 0, 0, 0, 0, 0, 0, 0, 0, 0] }, by decide⟩

theorem meets_statusTooSoon : ∃ (s : State) (t : Fc) (r : Ref) (d : Desc) (a : Nat),
    (s.fabric = true) ∧ (heldDesc s r 7 2 = some d) ∧ (due (advance s t) d = true) ∧ (d.word 0x18 % 512 ≤ 256) ∧ (rbit s R.FLE_CTRL_EN = true) ∧ (s.fle.statusAt = some a) ∧ (max s.now t < a + 40000000) :=
  ⟨holding ({ header 7 2 with classWord := 0, body := [0, 0, 2, 0, 0, 0, 0, 0, 0, 0, 0, 0] }) (modFle inFleet fun f => { f with statusAt := some 0 }), 0, ⟨7, 0, 0⟩, { header 7 2 with classWord := 0, body := [0, 0, 2, 0, 0, 0, 0, 0, 0, 0, 0, 0] }, 0, by decide⟩

theorem meets_memberEvicted : ∃ (s : State) (t : Fc) (r : Ref) (d : Desc),
    (s.fabric = true) ∧ (heldDesc s r 7 3 = some d) ∧ (due (advance s t) d = true) ∧ ((d.classWord % 65536) ≤ 1023) ∧ (rbit s R.FLE_CTRL_EN = true) ∧ ((d.classWord % 65536) ≠ ownPitch s) ∧ (bitOf d.classWord 16 = false) ∧ ((getMember s (d.classWord % 65536)).evicted = false) :=
  ⟨holding ({ header 7 3 with classWord := 9, body := [0, 0, 0, 0, 0, 0, 0, 0, 0, 0, 0, 0] }) (inFleet), 0, ⟨7, 0, 0⟩, { header 7 3 with classWord := 9, body := [0, 0, 0, 0, 0, 0, 0, 0, 0, 0, 0, 0] }, by decide⟩

theorem meets_memberRestored : ∃ (s : State) (t : Fc) (r : Ref) (d : Desc),
    (s.fabric = true) ∧ (heldDesc s r 7 3 = some d) ∧ (due (advance s t) d = true) ∧ ((d.classWord % 65536) ≤ 1023) ∧ (rbit s R.FLE_CTRL_EN = true) ∧ ((d.classWord % 65536) ≠ ownPitch s) ∧ (bitOf d.classWord 16 = true) :=
  ⟨holding ({ header 7 3 with classWord := 2 ^ 16 + 9, body := [0, 0, 0, 0, 0, 0, 0, 0, 0, 0, 0, 0] }) (modMember inFleet 9 fun m => { m with evicted := true }), 0, ⟨7, 0, 0⟩, { header 7 3 with classWord := 2 ^ 16 + 9, body := [0, 0, 0, 0, 0, 0, 0, 0, 0, 0, 0, 0] }, by decide⟩

theorem meets_ownPitchKept : ∃ (s : State) (t : Fc) (r : Ref) (d : Desc),
    (s.fabric = true) ∧ (heldDesc s r 7 3 = some d) ∧ (due (advance s t) d = true) ∧ ((d.classWord % 65536) ≤ 1023) ∧ (rbit s R.FLE_CTRL_EN = true) ∧ ((d.classWord % 65536) = ownPitch s) :=
  ⟨holding ({ header 7 3 with classWord := 1, body := [0, 0, 0, 0, 0, 0, 0, 0, 0, 0, 0, 0] }) (inFleet), 0, ⟨7, 0, 0⟩, { header 7 3 with classWord := 1, body := [0, 0, 0, 0, 0, 0, 0, 0, 0, 0, 0, 0] }, by decide⟩

theorem meets_nothingToPublish : ∃ (s : State) (t : Fc) (r : Ref) (d : Desc),
    (s.fabric = true) ∧ (heldDesc s r 7 4 = some d) ∧ (due (advance s t) d = true) ∧ (rbit s R.FLE_CTRL_EN = true) ∧ (s.fle.pubNow = []) ∧ (∀ x ∈ awayTiles s, sharedPubs s x = []) ∧ ((((s.sto.cache.filter fun p => !p.2.loading).map fun p => p.2.tile).flatMap (sharedPubs s)) = []) :=
  ⟨holding ({ header 7 4 with classWord := 0, body := [0, 0, 0, 0, 0, 0, 0, 0, 0, 0, 0, 0] }) (inFleet), 0, ⟨7, 0, 0⟩, { header 7 4 with classWord := 0, body := [0, 0, 0, 0, 0, 0, 0, 0, 0, 0, 0, 0] }, by decide⟩

theorem meets_publishWaits : ∃ (s : State) (t : Fc) (r : Ref) (d : Desc),
    (s.fabric = true) ∧ (heldDesc s r 7 4 = some d) ∧ (due (advance s t) d = true) ∧ (rbit s R.FLE_CTRL_EN = true) ∧ (s.fle.pubNow = []) ∧ (∀ x ∈ awayTiles s, sharedPubs s x = []) ∧ ((((s.sto.cache.filter fun p => !p.2.loading).map fun p => p.2.tile).flatMap (sharedPubs s)) ≠ []) ∧ (∀ p ∈ s.sto.cache, cacheFind s p.2.tile.id = some p ∧ tblSorted p.2.tile.vers = true) :=
  ⟨holding ({ header 7 4 with classWord := 0, body := [0, 0, 0, 0, 0, 0, 0, 0, 0, 0, 0, 0] }) ((modSto inFleet fun m => { m with cache := [(5, ⟨tileSetCell (tileNew live (3 * 2 ^ 32)) 9 7 ⟨⟨3, 0, 1⟩, true⟩, false, none, none, 1, [(9, 0)], 0⟩)] })), 0, ⟨7, 0, 0⟩, { header 7 4 with classWord := 0, body := [0, 0, 0, 0, 0, 0, 0, 0, 0, 0, 0, 0] }, by decide +kernel⟩

theorem meets_goArmed : ∃ (s : State),
    (s.fabric = true) ∧ (s.aoc.entry = none) ∧ (tkeArmed s = true) :=
  ⟨rset live R.TKE_CTRL_ARMED 1, by decide⟩

theorem meets_goTooSlow : ∃ (s : State),
    (s.fabric = true) ∧ (s.aoc.entry = none) ∧ (tkeArmed s = false) ∧ (planeArmed s 0 = false) ∧ (planeArmed s 1 = false) ∧ (rget s R.AOC_WAKE_TOLERANCE_US < 180000) :=
  ⟨live, by decide⟩

theorem meets_goInBindOff : ∃ (s : State),
    (s.fabric = true) ∧ (tkeArmed s = false) ∧ (planeArmed s 0 = false) ∧ (planeArmed s 1 = false) ∧ (binding s = true) ∧ (180000 ≤ rget s R.AOC_WAKE_TOLERANCE_US) :=
  ⟨rset (rset live R.AOC_WAKE_TOLERANCE_US 200000) R.AOC_PWR_STATE_BINDING 1, by decide⟩

theorem meets_goToPark : ∃ (s : State),
    (s.fabric = true) ∧ (s.aoc.entry = none) ∧ (tkeArmed s = false) ∧ (planeArmed s 0 = false) ∧ (planeArmed s 1 = false) ∧ (s.aoc.castFrom = none) ∧ (binding s = false) ∧ (180000 ≤ rget s R.AOC_WAKE_TOLERANCE_US) ∧ (rget s R.AOC_WAKE_TOLERANCE_US < 3500000) :=
  ⟨rset ({ live with aoc := { live.aoc with castFrom := none, logic := true } }) R.AOC_WAKE_TOLERANCE_US 200000, by decide⟩

theorem meets_goToDeep : ∃ (s : State),
    (s.fabric = true) ∧ (s.aoc.entry = none) ∧ (tkeArmed s = false) ∧ (planeArmed s 0 = false) ∧ (planeArmed s 1 = false) ∧ (s.aoc.castFrom = none) ∧ (binding s = false) ∧ (3500000 ≤ rget s R.AOC_WAKE_TOLERANCE_US) ∧ (rget s R.AOC_WAKE_TOLERANCE_US < 8000000) ∧ (fetchedLeft s = false) ∧ (rbit s R.HLK_STATUS_LINK_UP = false) :=
  ⟨rset ({ live with aoc := { live.aoc with castFrom := none, logic := true } }) R.AOC_WAKE_TOLERANCE_US 4000000, by decide⟩

theorem meets_goTakesLinkDown : ∃ (s : State),
    (s.fabric = true) ∧ (s.aoc.entry = none) ∧ (tkeArmed s = false) ∧ (planeArmed s 0 = false) ∧ (planeArmed s 1 = false) ∧ (s.aoc.castFrom = none) ∧ (binding s = false) ∧ (3500000 ≤ rget s R.AOC_WAKE_TOLERANCE_US) ∧ (rget s R.AOC_WAKE_TOLERANCE_US < 8000000) ∧ (fetchedLeft s = false) :=
  ⟨rset (rset ({ live with aoc := { live.aoc with castFrom := none, logic := true } }) R.AOC_WAKE_TOLERANCE_US 4000000) R.HLK_STATUS_LINK_UP 1, by decide +kernel⟩

theorem meets_goWaitsForWork : ∃ (s : State),
    (s.fabric = true) ∧ (s.aoc.entry = none) ∧ (tkeArmed s = false) ∧ (planeArmed s 0 = false) ∧ (planeArmed s 1 = false) ∧ (s.aoc.castFrom = none) ∧ (binding s = false) ∧ (3500000 ≤ rget s R.AOC_WAKE_TOLERANCE_US) ∧ (rget s R.AOC_WAKE_TOLERANCE_US < 8000000) ∧ (fetchedLeft s = true) :=
  ⟨{ (rset ({ live with aoc := { live.aoc with castFrom := none, logic := true } }) R.AOC_WAKE_TOLERANCE_US 4000000) with reqs := [⟨7, 0, 0, true, none, .held, 1, none⟩] }, by decide⟩

theorem meets_drainStillWaits : ∃ (s : State) (t : Fc) (a : Nat) (st : Nat),
    (s.fabric = true) ∧ (s.aoc.entry = some (st, a)) ∧ (fetchedLeft s = true) ∧ (max s.now t < a + 40000000) :=
  ⟨{ { slow with aoc := { live.aoc with castFrom := none, logic := true, entry := some (3, 0) } } with reqs := [⟨7, 0, 0, true, none, .held, 1, none⟩] }, 0, 0, 3, by decide⟩

theorem meets_drainEnds : ∃ (s : State) (t : Fc) (a : Nat),
    (s.fabric = true) ∧ (s.aoc.entry = some (2, a)) ∧ (s.aoc.drained = false) ∧ (a + 40000000 ≤ max s.now t) ∧ (s.aoc.ready = false) ∧ (s.aoc.warmWake = false) ∧ (s.aoc.suspendAt.isSome = true) ∧ (180000 ≤ rget s R.AOC_WAKE_TOLERANCE_US) :=
  ⟨{ { slow with aoc := { live.aoc with castFrom := none, logic := true, entry := some (2, 0), suspendAt := some 0 } } with reqs := [⟨7, 0, 0, true, none, .held, 1, none⟩] }, 40000000, 0, by decide⟩

theorem meets_drainEndEnters : ∃ (s : State) (t : Fc) (a : Nat) (st : Nat),
    (s.fabric = true) ∧ (s.aoc.entry = some (st, a)) ∧ (st ≠ 2) ∧ (entryState s st = some st) ∧ (s.aoc.drained = false) ∧ (a + 40000000 ≤ max s.now t) ∧ (s.aoc.wakes = []) :=
  ⟨{ { slow with aoc := { live.aoc with castFrom := none, logic := true, entry := some (3, 0) } } with reqs := [⟨7, 0, 0, true, none, .held, 1, none⟩] }, 40000000, 0, 3, by decide +kernel⟩

theorem meets_softwareReady : ∃ (s : State) (a : Nat) (b : Nat),
    (s.fabric = true) ∧ (s.aoc.entry = some (2, a)) ∧ (s.aoc.suspendAt = some b) ∧ (s.aoc.drained = true ∨ fetchedLeft s = false) ∧ (entryState s 2 = some 2) ∧ (s.aoc.wakes = []) :=
  ⟨{ slow with aoc := { live.aoc with castFrom := none, logic := true, entry := some (2, 0), suspendAt := some 0 } }, 0, 0, by decide⟩

theorem meets_entryTooSlow : ∃ (s : State) (a : Nat) (b : Nat) (st : Nat),
    (s.fabric = true) ∧ (s.aoc.entry = some (st, a)) ∧ (s.aoc.suspendAt = some b) ∧ (s.aoc.drained = true ∨ fetchedLeft s = false) ∧ (rget s R.AOC_WAKE_TOLERANCE_US < 180000) ∧ (binding s = false) :=
  ⟨{ live with aoc := { live.aoc with castFrom := none, logic := true, entry := some (2, 0), suspendAt := some 0 } }, 0, 0, 2, by decide⟩

theorem meets_softwareReadyEarly : ∃ (s : State) (a : Nat) (b : Nat),
    (s.fabric = true) ∧ (s.aoc.entry = some (2, a)) ∧ (s.aoc.suspendAt = some b) ∧ (s.aoc.drained = false) ∧ (fetchedLeft s = true) :=
  ⟨{ { slow with aoc := { live.aoc with castFrom := none, logic := true, entry := some (2, 0), suspendAt := some 0 } } with reqs := [⟨7, 0, 0, true, none, .held, 1, none⟩] }, 0, 0, by decide⟩

theorem meets_softwareLate : ∃ (s : State) (t : Fc) (a : Nat) (b : Nat) (st : Nat),
    (s.fabric = true) ∧ (s.aoc.entry = some (st, b)) ∧ (s.aoc.suspendAt = some a) ∧ (s.aoc.ready = false) ∧ (s.aoc.warmWake = false) ∧ (a + rval s R.AOC_PARK_CFG_SUSPEND_S * 400000000 ≤ max s.now t) ∧ (fetchedLeft s = true) ∧ (s.aoc.drained = false) :=
  ⟨{ { slow with aoc := { live.aoc with castFrom := none, logic := true, entry := some (2, 0), suspendAt := some 0 } } with reqs := [⟨7, 0, 0, true, none, .held, 1, none⟩] }, 800000000, 0, 0, 2, by decide⟩

theorem meets_softwareLateEnters : ∃ (s : State) (t : Fc) (a : Nat) (b : Nat),
    (s.fabric = true) ∧ (s.aoc.entry = some (2, b)) ∧ (s.aoc.suspendAt = some a) ∧ (s.aoc.ready = false) ∧ (s.aoc.warmWake = false) ∧ (a + rval s R.AOC_PARK_CFG_SUSPEND_S * 400000000 ≤ max s.now t) ∧ (s.aoc.drained = true ∨ fetchedLeft s = false) ∧ (entryState s 2 = some 2) ∧ (s.aoc.wakes = []) :=
  ⟨{ slow with aoc := { live.aoc with castFrom := none, logic := true, entry := some (2, 0), suspendAt := some 0 } }, 800000000, 0, 0, by decide⟩

theorem meets_trimEntered : ∃ (s : State),
    (s.fabric = true) ∧ (s.aoc.entry = none) ∧ (s.aoc.power = 0) ∧ (50 ≤ rget s R.AOC_WAKE_TOLERANCE_US) :=
  ⟨live, by decide⟩

theorem meets_trimLeft : ∃ (s : State),
    (s.fabric = true) ∧ (s.aoc.power = 1) :=
  ⟨{ live with aoc := { live.aoc with power := 1 } }, by decide⟩

theorem meets_wokenFromPark : ∃ (s : State) (t : Fc) (m : Fin 64),
    (s.aoc.entry = none) ∧ (s.aoc.power = 2) ∧ (s.aoc.warmWake = false) ∧ (wakeMask (advance s t) 2 m ≠ 0) :=
  ⟨{ State.reset with aoc := { Aoc.reset with castFrom := none, logic := true, power := 2 } }, 0, 1, by decide⟩

theorem meets_wakeNoted : ∃ (s : State) (st : Nat) (a : Nat),
    (s.aoc.entry = some (st, a)) :=
  ⟨{ slow with aoc := { live.aoc with castFrom := none, logic := true, entry := some (2, 0) } }, 2, 0, by decide⟩

theorem meets_wokenWarm : ∃ (s : State) (t : Fc) (m : Fin 64),
    (s.aoc.entry = none) ∧ (s.aoc.power = 2) ∧ (s.aoc.warmWake = true) ∧ (wakeMask (advance s t) 2 m ≠ 0) :=
  ⟨{ State.reset with aoc := { Aoc.reset with castFrom := none, logic := true, power := 2, warmWake := true } }, 0, 1, by decide⟩

theorem meets_wokenByReset : ∃ (s : State) (t : Fc) (m : Fin 64),
    (s.aoc.entry = none) ∧ (3 ≤ s.aoc.power) ∧ (s.aoc.power ≤ 4) ∧ (wakeMask (advance s t) s.aoc.power m ≠ 0) :=
  ⟨{ State.reset with aoc := { Aoc.reset with castFrom := none, logic := true, power := 4 } }, 0, 1, by decide⟩

theorem meets_notWoken : ∃ (s : State) (t : Fc) (m : Fin 64),
    (s.aoc.entry = none) ∧ (2 ≤ s.aoc.power) ∧ (wakeMask (advance s t) s.aoc.power m = 0) :=
  ⟨{ State.reset with aoc := { Aoc.reset with castFrom := none, logic := true, power := 4 } }, 0, 4, by decide⟩

theorem meets_ignitionOff : ∃ (s : State) (mv : Fin 1024),
    (mv.val < 30) ∧ (s.aoc.power < 2) ∧ (s.aoc.logic = true) ∧ (s.aoc.ignOff = none) ∧ (binding s = false) :=
  ⟨{ live with aoc := { live.aoc with castFrom := none, logic := true } }, 9, by decide⟩

theorem meets_ignitionBack : ∃ (s : State) (mv : Fin 1024) (a : Nat),
    (60 < mv.val) ∧ (s.aoc.power < 2) ∧ (s.aoc.entry = none) ∧ (binding s = false) ∧ (s.aoc.ignOff = some a) :=
  ⟨{ live with aoc := { live.aoc with ignOff := some 3 } }, 120, 3, by decide⟩

theorem meets_bindOffStarts : ∃ (s : State) (t : Fc) (a : Nat),
    (s.fabric = true) ∧ (s.aoc.entry = none) ∧ (binding s = false) ∧ (s.aoc.castFrom = none) ∧ (s.aoc.ignOff = some a) ∧ (a + rval s R.AOC_BIND_CFG_BIND_DELAY_S * 400000000 ≤ max s.now t) ∧ (0 < rval s R.AOC_BIND_CFG_BIND_SAFE_MS) :=
  ⟨{ { live with aoc := { live.aoc with castFrom := none, logic := true } } with aoc := { ({ live with aoc := { live.aoc with castFrom := none, logic := true } }).aoc with ignOff := some 0 } }, 2000000000, 0, by decide⟩

theorem meets_bindOffNow : ∃ (s : State),
    (s.fabric = true) ∧ (s.aoc.entry = none) ∧ (binding s = false) ∧ (0 < rval s R.AOC_BIND_CFG_BIND_SAFE_MS) :=
  ⟨{ live with aoc := { live.aoc with castFrom := none, logic := true } }, by decide⟩

theorem meets_bindOffTilesWait : ∃ (s : State),
    (s.fabric = true) ∧ (binding s = true) ∧ (bindStep s = 4) ∧ (tilesFlushed s = false) :=
  ⟨modSto (rset (rset (rset ({ live with aoc := { live.aoc with castFrom := none, logic := true } }) R.KSM_LC_STATE 2) R.AOC_PWR_STATE_BINDING 1) R.AOC_PWR_STATE_BIND_STEP 4) fun m => { m with cache := [(5, ⟨tileNew live (3 * 2 ^ 32), false, some 3, none, 1, [], 0⟩)] }, by decide⟩

theorem meets_bindOffTilesLate : ∃ (s : State) (t : Fc),
    (s.fabric = true) ∧ (s.aoc.entry = none) ∧ (binding s = true) ∧ (bindStep s = 4) ∧ (tilesFlushed s = false) ∧ (s.aoc.ignBack = false) ∧ (s.aoc.stepAt + rval s R.AOC_BIND_CFG_BIND_TILE_MAX_S * 400000000 ≤ max s.now t) :=
  ⟨modSto (rset (rset (rset ({ live with aoc := { live.aoc with castFrom := none, logic := true } }) R.KSM_LC_STATE 2) R.AOC_PWR_STATE_BINDING 1) R.AOC_PWR_STATE_BIND_STEP 4) fun m => { m with cache := [(5, ⟨tileNew live (3 * 2 ^ 32), false, some 3, none, 1, [], 0⟩)] }, 12000000000, by decide⟩

theorem meets_wakeOverEthernet : ∃ (s : State) (p : Fin 4),
    (s.fabric = true) ∧ (s.aoc.power < 2) ∧ (s.aoc.entry = none) ∧ (rbit s R.ETH_CTRL_WAKE_EN p = true) ∧ (rbit s R.ETH_CTRL_EN p = true) :=
  ⟨rset (rset live R.ETH_CTRL_EN 1 1) R.ETH_CTRL_WAKE_EN 1 1, 1, by decide⟩

theorem meets_logicThrottled : ∃ (s : State),
    (s.aoc.logic = true) :=
  ⟨{ live with aoc := { live.aoc with castFrom := none, logic := true } }, by decide⟩

theorem meets_logicGood : ∃ (s : State) (mv : Fin 1024),
    (s.aoc.logic = false) ∧ (80 < mv.val) ∧ (s.aoc.kept = true) :=
  ⟨{ State.reset with aoc := { Aoc.reset with kept := true } }, 130, by decide⟩

theorem meets_logicGoodAfterLoss : ∃ (s : State) (mv : Fin 1024),
    (s.aoc.logic = false) ∧ (80 < mv.val) ∧ (s.aoc.kept = false) :=
  ⟨State.reset, 130, by decide⟩

theorem meets_warmCastOn : ∃ (s : State) (a : Nat),
    (s.aoc.castFrom = some (a, 8)) ∧ (s.fabric = false) ∧ (s.aoc.logic = true) ∧ (s.aoc.power = 0) ∧ (s.upd.revert = false) ∧ (bankBootable s = true) ∧ (s.ksm.unfinished = none) ∧ (rget s R.NAV_STATE_START_KIND ≠ 0) :=
  ⟨rset ({ State.reset with aoc := { Aoc.reset with logic := true, castFrom := some (0, 8) } }) R.NAV_STATE_START_KIND 1, 0, by decide +kernel⟩

theorem meets_coldCastOn : ∃ (s : State) (x : CastIn) (a : Nat),
    (s.aoc.castFrom = some (a, 1)) ∧ (s.fabric = false) ∧ (s.aoc.logic = true) ∧ (s.aoc.power = 0) ∧ (s.upd.revert = false) ∧ (bankBootable s = true) ∧ ((if sealHeld s then x.sealOk else x.verifyOk) = true) ∧ (rbit s R.UPD_STATUS_PENDING = false) ∧ (s.ksm.unfinished = none) :=
  ⟨{ State.reset with aoc := { Aoc.reset with logic := true, castFrom := some (0, 1) } }, ⟨false, true, none, []⟩, 0, by decide +kernel⟩

theorem meets_castOnActivates : ∃ (s : State) (x : CastIn) (a : Nat) (i : Image),
    (s.aoc.castFrom = some (a, 1)) ∧ (s.fabric = false) ∧ (s.aoc.logic = true) ∧ (s.aoc.power = 0) ∧ (s.upd.revert = false) ∧ (bankBootable s = true) ∧ ((if sealHeld s then x.sealOk else x.verifyOk) = true) ∧ (rbit s R.UPD_STATUS_PENDING = true) ∧ (x.copyFault = none) ∧ ((getSlot s (pendingSlot s)).image = some i) ∧ (s.ksm.unfinished = none) :=
  ⟨modUpd (rset (rset ({ State.reset with aoc := { Aoc.reset with logic := true, castFrom := some (0, 1) } }) R.UPD_STATUS_PENDING 1) R.UPD_STATUS_SLOT_A 3) fun m => { m with slots := [(0, { UpdSlot.empty with image := some testImage })] }, ⟨false, true, none, []⟩, 0, testImage, by decide +kernel⟩

theorem meets_castOnReverts : ∃ (s : State) (a : Nat),
    (s.aoc.castFrom = some (a, 8)) ∧ (s.fabric = false) ∧ (s.aoc.logic = true) ∧ (s.aoc.power = 0) ∧ (s.upd.revert = true) ∧ (s.ksm.unfinished = none) :=
  ⟨modUpd ({ State.reset with aoc := { Aoc.reset with logic := true, castFrom := some (0, 8) } }) fun m => { m with revert := true }, 0, by decide +kernel⟩

theorem meets_castOnRefused : ∃ (s : State) (x : CastIn) (a : Nat),
    (s.aoc.castFrom = some (a, 1)) ∧ (s.fabric = false) ∧ (s.aoc.logic = true) ∧ (s.aoc.power = 0) ∧ (s.upd.revert = false) ∧ (bankBootable s = false ∨ (if sealHeld s then x.sealOk else x.verifyOk) = false) :=
  ⟨{ State.reset with aoc := { Aoc.reset with logic := true, castFrom := some (0, 1) } }, ⟨false, false, none, []⟩, 0, by decide⟩

theorem meets_hostReadyEnds : ∃ (s : State) (a : Nat) (f : Nat),
    (s.fabric = true) ∧ (s.aoc.castFrom = some (a, f)) ∧ (rget s R.AOC_CASTON_STAGE = 9) :=
  ⟨rset live R.AOC_CASTON_STAGE 9, 0, 1, by decide⟩

theorem meets_powerFails : ∃ (s : State) (mv : Fin 1024),
    (mv.val < 70) ∧ (s.aoc.logic = true) :=
  ⟨{ live with aoc := { live.aoc with castFrom := none, logic := true } }, 60, by decide⟩

theorem meets_aonLost : ∃ (mv : Fin 1024),
    (mv.val < 30) :=
  ⟨20, by decide⟩

theorem meets_aonKept : ∃ (s : State) (mv : Fin 1024),
    (30 ≤ mv.val) ∧ (s.aoc.failAt = none) :=
  ⟨{ live with aoc := { live.aoc with castFrom := none, logic := true } }, 40, by decide⟩

theorem meets_resetBySoftware : ∃ (s : State) (k : Fin 4) (c : Fin 256),
    (s.fabric = true) ∧ (c = 0xA5) ∧ (k ≠ 0) :=
  ⟨{ live with aoc := { live.aoc with castFrom := none, logic := true } }, 1, 0xA5, by decide +kernel⟩

theorem meets_resetUnconfirmed : ∃ (s : State) (c : Fin 256),
    (s.fabric = true) ∧ (c ≠ 0xA5) :=
  ⟨{ live with aoc := { live.aoc with castFrom := none, logic := true } }, 0x5A, by decide⟩

theorem meets_watchdogKicked : ∃ (s : State),
    (s.fabric = true) :=
  ⟨live, by decide⟩

theorem meets_watchdogExpires : ∃ (s : State) (t : Fc),
    (s.fabric = true) ∧ (rget s R.AOC_WDOG_TIMEOUT_MS ≠ 0) ∧ (s.aoc.wdogAt + rget s R.AOC_WDOG_TIMEOUT_MS * 400000 ≤ max s.now t) ∧ ((s.aoc.wdogTimes.filter fun a => decide (max s.now t < a + 600 * 400000000)).length < 2) :=
  ⟨rset ({ live with aoc := { live.aoc with castFrom := none, logic := true } }) R.AOC_WDOG_TIMEOUT_MS 5, 2000000, by decide +kernel⟩

theorem meets_watchdogThird : ∃ (s : State) (t : Fc),
    (s.fabric = true) ∧ (rget s R.AOC_WDOG_TIMEOUT_MS ≠ 0) ∧ (s.aoc.wdogAt + rget s R.AOC_WDOG_TIMEOUT_MS * 400000 ≤ max s.now t) ∧ (2 ≤ (s.aoc.wdogTimes.filter fun a => decide (max s.now t < a + 600 * 400000000)).length) :=
  ⟨{ (rset ({ live with aoc := { live.aoc with castFrom := none, logic := true } }) R.AOC_WDOG_TIMEOUT_MS 5) with aoc := { ({ live with aoc := { live.aoc with castFrom := none, logic := true } }).aoc with wdogTimes := [9, 8] } }, 2000000, by decide +kernel⟩

theorem meets_watchdogRuns : ∃ (s : State) (t : Fc),
    (s.fabric = true) ∧ (max s.now t < s.aoc.wdogAt + rget s R.AOC_WDOG_TIMEOUT_MS * 400000) :=
  ⟨rset live R.AOC_WDOG_TIMEOUT_MS 5, 0, by decide⟩

theorem meets_memberCertHeld : ∃ (s : State) (t : Fc) (r : Ref) (d : Desc) (ok : Bool) (cert : Option Cert) (x : Cert),
    (s.fabric = true) ∧ (heldDesc s r 0xB 0x82 = some d) ∧ (due (advance s t) d = true) ∧ ((d.classWord % 16) = 0) ∧ (lcState s ≤ 1) ∧ ((d.word 0x18 % 65536) ≤ 1024) ∧ (ok = true) ∧ (cert = some x) :=
  ⟨holding ({ header 11 0x82 with classWord := 0, body := [0, 0, 0, 0, 0, 0, 0, 0, 0, 0, 0, 0] }) (live), 0, ⟨7, 0, 0⟩, { header 11 0x82 with classWord := 0, body := [0, 0, 0, 0, 0, 0, 0, 0, 0, 0, 0, 0] }, true, some (someCert 3), someCert 3, by decide⟩

theorem meets_memberCertRenewed : ∃ (s : State) (t : Fc) (r : Ref) (d : Desc) (ok : Bool) (cert : Option Cert) (x : Cert) (h : Cert),
    (s.fabric = true) ∧ (heldDesc s r 0xB 0x82 = some d) ∧ (due (advance s t) d = true) ∧ ((d.classWord % 16) = 0) ∧ (lcState s = 2) ∧ ((d.word 0x18 % 65536) ≤ 1024) ∧ (ok = true) ∧ (cert = some x) ∧ (s.ksm.memberCert = some h) ∧ (s.ksm.root = true) ∧ (x.chains = true) ∧ (x.name.isSome = true) ∧ (x.market = h.market) ∧ (x.pitch = h.pitch) :=
  ⟨holding ({ header 11 0x82 with classWord := 0, body := [0, 0, 0, 0, 0, 0, 0, 0, 0, 0, 0, 0] }) (rset (inFleet) R.KSM_LC_STATE 2), 0, ⟨7, 0, 0⟩, { header 11 0x82 with classWord := 0, body := [0, 0, 0, 0, 0, 0, 0, 0, 0, 0, 0, 0] }, true, some { someCert 1 with serial := 78 }, { someCert 1 with serial := 78 }, someCert 1, by decide⟩

theorem meets_rootHeld : ∃ (s : State) (t : Fc) (r : Ref) (d : Desc) (ok : Bool),
    (s.fabric = true) ∧ (heldDesc s r 0xB 0x82 = some d) ∧ (due (advance s t) d = true) ∧ ((d.classWord % 16) = 1) ∧ (lcState s ≤ 1) ∧ ((d.word 0x18 % 65536) ≤ 1024) ∧ (ok = true) :=
  ⟨holding ({ header 11 0x82 with classWord := 1, body := [0, 0, 0, 0, 0, 0, 0, 0, 0, 0, 0, 0] }) (live), 0, ⟨7, 0, 0⟩, { header 11 0x82 with classWord := 1, body := [0, 0, 0, 0, 0, 0, 0, 0, 0, 0, 0, 0] }, true, by decide⟩

theorem meets_intKeyHeld : ∃ (s : State) (t : Fc) (r : Ref) (d : Desc) (ok : Bool),
    (s.fabric = true) ∧ (heldDesc s r 0xB 0x82 = some d) ∧ (due (advance s t) d = true) ∧ (2 ≤ (d.classWord % 16)) ∧ ((d.classWord % 16) ≤ 5) ∧ (lcState s ≤ 1) ∧ (ok = true) ∧ (d.word 0x18 % 65536 = 97) :=
  ⟨holding ({ header 11 0x82 with classWord := 3, body := [0, 0, 97, 0, 0, 0, 0, 0, 0, 0, 0, 0] }) (live), 0, ⟨7, 0, 0⟩, { header 11 0x82 with classWord := 3, body := [0, 0, 97, 0, 0, 0, 0, 0, 0, 0, 0, 0] }, true, by decide⟩

theorem meets_macsHeld : ∃ (s : State) (t : Fc) (r : Ref) (d : Desc) (ok : Bool),
    (s.fabric = true) ∧ (heldDesc s r 0xB 0x82 = some d) ∧ (due (advance s t) d = true) ∧ ((d.classWord % 16) = 6) ∧ (lcState s = 0) ∧ (ok = true) ∧ (d.word 0x18 % 65536 = 36) :=
  ⟨holding ({ header 11 0x82 with classWord := 6, body := [0, 0, 36, 0, 0, 0, 0, 0, 0, 0, 0, 0] }) (live), 0, ⟨7, 0, 0⟩, { header 11 0x82 with classWord := 6, body := [0, 0, 36, 0, 0, 0, 0, 0, 0, 0, 0, 0] }, true, by decide⟩

theorem meets_credDiffers : ∃ (s : State) (t : Fc) (r : Ref) (d : Desc) (cert : Option Cert),
    (s.fabric = true) ∧ (heldDesc s r 0xB 0x82 = some d) ∧ (due (advance s t) d = true) ∧ ((d.classWord % 16) = 0) ∧ (lcState s = 2) ∧ (certRenews s cert = false) :=
  ⟨holding ({ header 11 0x82 with classWord := 0, body := [0, 0, 0, 0, 0, 0, 0, 0, 0, 0, 0, 0] }) (rset (live) R.KSM_LC_STATE 2), 0, ⟨7, 0, 0⟩, { header 11 0x82 with classWord := 0, body := [0, 0, 0, 0, 0, 0, 0, 0, 0, 0, 0, 0] }, some (someCert 3), by decide⟩

theorem meets_credClosed : ∃ (s : State) (t : Fc) (r : Ref) (d : Desc),
    (s.fabric = true) ∧ (heldDesc s r 0xB 0x82 = some d) ∧ (due (advance s t) d = true) ∧ ((6 < (d.classWord % 16)) ∨ 3 ≤ lcState s ∨ (lcState s = 2 ∧ (d.classWord % 16) ≠ 0)) :=
  ⟨holding ({ header 11 0x82 with classWord := 0, body := [0, 0, 0, 0, 0, 0, 0, 0, 0, 0, 0, 0] }) (rset (live) R.KSM_LC_STATE 4), 0, ⟨7, 0, 0⟩, { header 11 0x82 with classWord := 0, body := [0, 0, 0, 0, 0, 0, 0, 0, 0, 0, 0, 0] }, by decide⟩

theorem meets_certTooLong : ∃ (s : State) (t : Fc) (r : Ref) (d : Desc),
    (s.fabric = true) ∧ (heldDesc s r 0xB 0x82 = some d) ∧ (due (advance s t) d = true) ∧ ((d.classWord % 16) ≤ 1) ∧ (lcState s ≤ 1) ∧ (1024 < (d.word 0x18 % 65536)) :=
  ⟨holding ({ header 11 0x82 with classWord := 0, body := [0, 0, 1025, 0, 0, 0, 0, 0, 0, 0, 0, 0] }) (live), 0, ⟨7, 0, 0⟩, { header 11 0x82 with classWord := 0, body := [0, 0, 1025, 0, 0, 0, 0, 0, 0, 0, 0, 0] }, by decide⟩

theorem meets_credBad : ∃ (s : State) (t : Fc) (r : Ref) (d : Desc) (ok : Bool),
    (s.fabric = true) ∧ (heldDesc s r 0xB 0x82 = some d) ∧ (due (advance s t) d = true) ∧ ((d.classWord % 16) ≤ 5) ∧ (lcState s ≤ 1) ∧ (ok = false) :=
  ⟨holding ({ header 11 0x82 with classWord := 0, body := [0, 0, 0, 0, 0, 0, 0, 0, 0, 0, 0, 0] }) (live), 0, ⟨7, 0, 0⟩, { header 11 0x82 with classWord := 0, body := [0, 0, 0, 0, 0, 0, 0, 0, 0, 0, 0, 0] }, false, by decide⟩

theorem meets_publicKey : ∃ (s : State) (t : Fc) (r : Ref) (d : Desc),
    (s.fabric = true) ∧ (heldDesc s r 0xB 0x81 = some d) ∧ (due (advance s t) d = true) ∧ (rbit s R.KSM_KEYS_DEVICE_KEY = true) ∧ (Memory.wf s.mem = true) ∧ (Memory.wf s.extMem = true) :=
  ⟨holding ({ header 11 0x81 with classWord := 0, body := [0, 0, 0, 0, 0, 0, 0, 0, 0, 0, 0, 0] }) (rset live R.KSM_KEYS_DEVICE_KEY 1), 0, ⟨7, 0, 0⟩, { header 11 0x81 with classWord := 0, body := [0, 0, 0, 0, 0, 0, 0, 0, 0, 0, 0, 0] }, by decide⟩

theorem meets_noPublicKey : ∃ (s : State) (t : Fc) (r : Ref) (d : Desc),
    (s.fabric = true) ∧ (heldDesc s r 0xB 0x81 = some d) ∧ (due (advance s t) d = true) ∧ (rbit s R.KSM_KEYS_DEVICE_KEY = false) :=
  ⟨holding ({ header 11 0x81 with classWord := 0, body := [0, 0, 0, 0, 0, 0, 0, 0, 0, 0, 0, 0] }) (live), 0, ⟨7, 0, 0⟩, { header 11 0x81 with classWord := 0, body := [0, 0, 0, 0, 0, 0, 0, 0, 0, 0, 0, 0] }, by decide⟩

theorem meets_lcArmed : ∃ (s : State) (t : Fc) (r : Ref) (d : Desc),
    (s.fabric = true) ∧ (heldDesc s r 0xB 0x80 = some d) ∧ (due (advance s t) d = true) ∧ (planeArmed s 0 = true ∨ planeArmed s 1 = true) :=
  ⟨holding ({ header 11 0x80 with classWord := 2, body := [0, 0, 0, 0, 0, 0, 0, 0, 0, 0, 0, 0] }) (rset live R.PPS_CTRL_ARMED 1 1), 0, ⟨7, 0, 0⟩, { header 11 0x80 with classWord := 2, body := [0, 0, 0, 0, 0, 0, 0, 0, 0, 0, 0, 0] }, by decide⟩

theorem meets_lcNoSuchTransition : ∃ (s : State) (t : Fc) (r : Ref) (d : Desc),
    (s.fabric = true) ∧ (heldDesc s r 0xB 0x80 = some d) ∧ (due (advance s t) d = true) ∧ (planeArmed s 0 = false) ∧ (planeArmed s 1 = false) ∧ (transitionOk s (d.classWord % 8) = false) :=
  ⟨holding ({ header 11 0x80 with classWord := 3, body := [0, 0, 0, 0, 0, 0, 0, 0, 0, 0, 0, 0] }) (live), 0, ⟨7, 0, 0⟩, { header 11 0x80 with classWord := 3, body := [0, 0, 0, 0, 0, 0, 0, 0, 0, 0, 0, 0] }, by decide⟩

theorem meets_lcTokenRefused : ∃ (s : State) (t : Fc) (r : Ref) (d : Desc) (tok : List Nat) (sig : Bool),
    (s.fabric = true) ∧ (heldDesc s r 0xB 0x80 = some d) ∧ (due (advance s t) d = true) ∧ (planeArmed s 0 = false) ∧ (planeArmed s 1 = false) ∧ (transitionOk s (d.classWord % 8) = true) ∧ (tokenOk s (d.classWord % 8) tok (sig && d.quad 0x10 != 0) = false) :=
  ⟨holding ({ header 11 0x80 with classWord := 4, body := [0, 0, 0, 0, 0, 0, 0, 0, 0, 0, 0, 0] }) (live), 0, ⟨7, 0, 0⟩, { header 11 0x80 with classWord := 4, body := [0, 0, 0, 0, 0, 0, 0, 0, 0, 0, 0, 0] }, [], false, by decide⟩

theorem meets_lcChanged : ∃ (s : State) (t : Fc) (r : Ref) (d : Desc) (tok : List Nat) (sig : Bool) (cut : Bool),
    (s.fabric = true) ∧ (heldDesc s r 0xB 0x80 = some d) ∧ (due (advance s t) d = true) ∧ (planeArmed s 0 = false) ∧ (planeArmed s 1 = false) ∧ (transitionOk s (d.classWord % 8) = true) ∧ (tokenOk s (d.classWord % 8) tok (sig && d.quad 0x10 != 0) = true) ∧ (cut = false) :=
  ⟨holding ({ header 11 0x80 with classWord := 2, body := [0, 0, 0, 0, 0, 0, 0, 0, 0, 0, 0, 0] }) (rset (live) R.KSM_LC_STATE 3), 0, ⟨7, 0, 0⟩, { header 11 0x80 with classWord := 2, body := [0, 0, 0, 0, 0, 0, 0, 0, 0, 0, 0, 0] }, [], false, false, by decide +kernel⟩

theorem meets_lcCutShort : ∃ (s : State) (t : Fc) (r : Ref) (d : Desc) (tok : List Nat) (sig : Bool) (cut : Bool),
    (s.fabric = true) ∧ (heldDesc s r 0xB 0x80 = some d) ∧ (due (advance s t) d = true) ∧ (planeArmed s 0 = false) ∧ (planeArmed s 1 = false) ∧ (transitionOk s (d.classWord % 8) = true) ∧ (tokenOk s (d.classWord % 8) tok (sig && d.quad 0x10 != 0) = true) ∧ (cut = true) :=
  ⟨holding ({ header 11 0x80 with classWord := 2, body := [0, 0, 0, 0, 0, 0, 0, 0, 0, 0, 0, 0] }) (rset (live) R.KSM_LC_STATE 3), 0, ⟨7, 0, 0⟩, { header 11 0x80 with classWord := 2, body := [0, 0, 0, 0, 0, 0, 0, 0, 0, 0, 0, 0] }, [], false, true, by decide +kernel⟩

theorem meets_slotOpened : ∃ (s : State) (t : Fc) (r : Ref) (d : Desc) (h : List Nat),
    (s.fabric = true) ∧ (heldDesc s r 9 1 = some d) ∧ (due (advance s t) d = true) ∧ (lcState s ≠ 4) ∧ (lcState s ≠ 0) ∧ (headerOk h = true) ∧ (slotState s (d.classWord % 2) ≠ 3) :=
  ⟨holding ({ header 9 1 with classWord := 0, body := [0, 0, 0, 0, 0, 0, 0, 0, 0, 0, 0, 0] }) (rset (live) R.KSM_LC_STATE 2), 0, ⟨7, 0, 0⟩, { header 9 1 with classWord := 0, body := [0, 0, 0, 0, 0, 0, 0, 0, 0, 0, 0, 0] }, testHeader, by decide +kernel⟩

theorem meets_headerRefused : ∃ (s : State) (t : Fc) (r : Ref) (d : Desc) (h : List Nat),
    (s.fabric = true) ∧ (heldDesc s r 9 1 = some d) ∧ (due (advance s t) d = true) ∧ (lcState s ≠ 4) ∧ (lcState s ≠ 0) ∧ (headerOk h = false) :=
  ⟨holding ({ header 9 1 with classWord := 0, body := [0, 0, 0, 0, 0, 0, 0, 0, 0, 0, 0, 0] }) (rset (live) R.KSM_LC_STATE 2), 0, ⟨7, 0, 0⟩, { header 9 1 with classWord := 0, body := [0, 0, 0, 0, 0, 0, 0, 0, 0, 0, 0, 0] }, [], by decide⟩

theorem meets_openBound : ∃ (s : State) (t : Fc) (r : Ref) (d : Desc) (h : List Nat),
    (s.fabric = true) ∧ (heldDesc s r 9 1 = some d) ∧ (due (advance s t) d = true) ∧ (lcState s ≠ 4) ∧ (lcState s ≠ 0) ∧ (headerOk h = true) ∧ (slotState s (d.classWord % 2) = 3) :=
  ⟨holding ({ header 9 1 with classWord := 0, body := [0, 0, 0, 0, 0, 0, 0, 0, 0, 0, 0, 0] }) ((modUpd (setSlotState (rset live R.KSM_LC_STATE 2) 0 3) fun u => { u with slots := [(0, { image := some testImage, held := [], closing := none })] })), 0, ⟨7, 0, 0⟩, { header 9 1 with classWord := 0, body := [0, 0, 0, 0, 0, 0, 0, 0, 0, 0, 0, 0] }, testHeader, by decide +kernel⟩

theorem meets_openRetired : ∃ (s : State) (t : Fc) (r : Ref) (d : Desc),
    (s.fabric = true) ∧ (heldDesc s r 9 1 = some d) ∧ (due (advance s t) d = true) ∧ (lcState s = 4 ∨ lcState s = 0) :=
  ⟨holding ({ header 9 1 with classWord := 0, body := [0, 0, 0, 0, 0, 0, 0, 0, 0, 0, 0, 0] }) (live), 0, ⟨7, 0, 0⟩, { header 9 1 with classWord := 0, body := [0, 0, 0, 0, 0, 0, 0, 0, 0, 0, 0, 0] }, by decide⟩

theorem meets_blockHeld : ∃ (s : State) (t : Fc) (r : Ref) (d : Desc) (ok : Bool) (i : Image),
    (s.fabric = true) ∧ (heldDesc s r 9 2 = some d) ∧ (due (advance s t) d = true) ∧ (lcState s ≠ 4) ∧ (storeFirst (advance s t) r = true) ∧ (storeAlone (advance s t) r = true) ∧ ((getSlot s (d.classWord % 2)).image = some i) ∧ (slotState s (d.classWord % 2) = 1) ∧ ((d.classWord / 256) < i.blocks) ∧ (d.word 0x18 % 2 ^ 17 = (if (d.classWord / 256) + 1 = i.blocks then i.lastLen else 65536)) ∧ ((d.classWord / 256) ∉ (getSlot s (d.classWord % 2)).held) ∧ (ok = true) ∧ (i.blocks ≤ 65000) :=
  ⟨holding ({ header 9 2 with classWord := 0, body := [0, 0, 65536, 0, 0, 0, 0, 0, 0, 0, 0, 0] }) ((modUpd (setSlotState (rset live R.KSM_LC_STATE 2) 0 1) fun u => { u with slots := [(0, { image := some testImage, held := [], closing := none })] })), 0, ⟨7, 0, 0⟩, { header 9 2 with classWord := 0, body := [0, 0, 65536, 0, 0, 0, 0, 0, 0, 0, 0, 0] }, true, testImage, by decide +kernel⟩

theorem meets_blockHeldAlready : ∃ (s : State) (t : Fc) (r : Ref) (d : Desc) (i : Image),
    (s.fabric = true) ∧ (heldDesc s r 9 2 = some d) ∧ (due (advance s t) d = true) ∧ (lcState s ≠ 4) ∧ (storeFirst (advance s t) r = true) ∧ (storeAlone (advance s t) r = true) ∧ ((getSlot s (d.classWord % 2)).image = some i) ∧ (slotState s (d.classWord % 2) = 1) ∧ ((d.classWord / 256) < i.blocks) ∧ (d.word 0x18 % 2 ^ 17 = (if (d.classWord / 256) + 1 = i.blocks then i.lastLen else 65536)) ∧ ((d.classWord / 256) ∈ (getSlot s (d.classWord % 2)).held) :=
  ⟨holding ({ header 9 2 with classWord := 0, body := [0, 0, 65536, 0, 0, 0, 0, 0, 0, 0, 0, 0] }) ((modUpd (setSlotState (rset live R.KSM_LC_STATE 2) 0 1) fun u => { u with slots := [(0, { image := some testImage, held := [0], closing := none })] })), 0, ⟨7, 0, 0⟩, { header 9 2 with classWord := 0, body := [0, 0, 65536, 0, 0, 0, 0, 0, 0, 0, 0, 0] }, testImage, by decide +kernel⟩

theorem meets_blockTagRefused : ∃ (s : State) (t : Fc) (r : Ref) (d : Desc) (ok : Bool) (i : Image),
    (s.fabric = true) ∧ (heldDesc s r 9 2 = some d) ∧ (due (advance s t) d = true) ∧ (lcState s ≠ 4) ∧ (storeFirst (advance s t) r = true) ∧ (storeAlone (advance s t) r = true) ∧ ((getSlot s (d.classWord % 2)).image = some i) ∧ (slotState s (d.classWord % 2) = 1) ∧ ((d.classWord / 256) < i.blocks) ∧ (d.word 0x18 % 2 ^ 17 = (if (d.classWord / 256) + 1 = i.blocks then i.lastLen else 65536)) ∧ ((d.classWord / 256) ∉ (getSlot s (d.classWord % 2)).held) ∧ (ok = false) :=
  ⟨holding ({ header 9 2 with classWord := 0, body := [0, 0, 65536, 0, 0, 0, 0, 0, 0, 0, 0, 0] }) ((modUpd (setSlotState (rset live R.KSM_LC_STATE 2) 0 1) fun u => { u with slots := [(0, { image := some testImage, held := [], closing := none })] })), 0, ⟨7, 0, 0⟩, { header 9 2 with classWord := 0, body := [0, 0, 65536, 0, 0, 0, 0, 0, 0, 0, 0, 0] }, false, testImage, by decide +kernel⟩

theorem meets_blockFault : ∃ (s : State) (t : Fc) (r : Ref) (d : Desc) (ok : Bool) (i : Image),
    (s.fabric = true) ∧ (heldDesc s r 9 2 = some d) ∧ (due (advance s t) d = true) ∧ (lcState s ≠ 4) ∧ (storeFirst (advance s t) r = true) ∧ (storeAlone (advance s t) r = true) ∧ ((getSlot s (d.classWord % 2)).image = some i) ∧ (slotState s (d.classWord % 2) = 1) ∧ ((d.classWord / 256) < i.blocks) ∧ (d.word 0x18 % 2 ^ 17 = (if (d.classWord / 256) + 1 = i.blocks then i.lastLen else 65536)) ∧ ((d.classWord / 256) ∉ (getSlot s (d.classWord % 2)).held) ∧ (ok = true) :=
  ⟨holding ({ header 9 2 with classWord := 0, body := [0, 0, 65536, 0, 0, 0, 0, 0, 0, 0, 0, 0] }) ((modUpd (setSlotState (rset live R.KSM_LC_STATE 2) 0 1) fun u => { u with slots := [(0, { image := some testImage, held := [], closing := none })] })), 0, ⟨7, 0, 0⟩, { header 9 2 with classWord := 0, body := [0, 0, 65536, 0, 0, 0, 0, 0, 0, 0, 0, 0] }, true, testImage, by decide +kernel⟩

theorem meets_closeBegins : ∃ (s : State) (t : Fc) (r : Ref) (d : Desc) (i : Image),
    (s.fabric = true) ∧ (heldDesc s r 9 3 = some d) ∧ (due (advance s t) d = true) ∧ (lcState s ≠ 4) ∧ (storeFirst (advance s t) r = true) ∧ ((getSlot s (d.classWord % 2)).image = some i) ∧ (slotState s (d.classWord % 2) = 1) ∧ ((getSlot s (d.classWord % 2)).closing = none) ∧ (i.blocks ≤ (getSlot s (d.classWord % 2)).held.length) :=
  ⟨holding ({ header 9 3 with classWord := 0, body := [0, 0, 0, 0, 0, 0, 0, 0, 0, 0, 0, 0] }) ((modUpd (setSlotState (rset live R.KSM_LC_STATE 2) 0 1) fun u => { u with slots := [(0, { image := some testImage, held := [1, 0], closing := none })] })), 0, ⟨7, 0, 0⟩, { header 9 3 with classWord := 0, body := [0, 0, 0, 0, 0, 0, 0, 0, 0, 0, 0, 0] }, testImage, by decide +kernel⟩

theorem meets_closeTooSoon : ∃ (s : State) (t : Fc) (r : Ref) (d : Desc) (i : Image),
    (s.fabric = true) ∧ (heldDesc s r 9 3 = some d) ∧ (due (advance s t) d = true) ∧ (lcState s ≠ 4) ∧ (storeFirst (advance s t) r = true) ∧ ((getSlot s (d.classWord % 2)).image = some i) ∧ (slotState s (d.classWord % 2) = 1) ∧ ((getSlot s (d.classWord % 2)).closing = none) ∧ ((getSlot s (d.classWord % 2)).held.length < i.blocks) :=
  ⟨holding ({ header 9 3 with classWord := 0, body := [0, 0, 0, 0, 0, 0, 0, 0, 0, 0, 0, 0] }) ((modUpd (setSlotState (rset live R.KSM_LC_STATE 2) 0 1) fun u => { u with slots := [(0, { image := some testImage, held := [], closing := none })] })), 0, ⟨7, 0, 0⟩, { header 9 3 with classWord := 0, body := [0, 0, 0, 0, 0, 0, 0, 0, 0, 0, 0, 0] }, testImage, by decide +kernel⟩

theorem meets_imageClosed : ∃ (s : State) (t : Fc) (k : Fin 2) (ok : Bool) (known : Bool) (q : Ref) (i : Image),
    (s.fabric = true) ∧ (storeAlone (advance s t) q = true) ∧ ((getSlot s k).closing = some q) ∧ ((getSlot s k).image = some i) ∧ (ok = true) ∧ (known = true) ∧ (i.signer = 0 ∨ ((tblGet? s.ksm.intKeys i.signer).isSome = true ∧ ∀ c ∈ i.components, c = 1)) ∧ (fuseCounter s i.signer ≤ i.svn) ∧ (imageSuits i = true) :=
  ⟨(modUpd (setSlotState (rset live R.KSM_LC_STATE 2) 0 1) fun u => { u with slots := [(0, { image := some testImage, held := [], closing := some ⟨7, 0, 0⟩ })] }), 0, 0, true, true, ⟨7, 0, 0⟩, testImage, by refine ⟨by decide, by decide, by decide, by decide, by decide, by decide, by decide, by decide, ?_⟩; simp only [imageSuits]; cases Config.airCooled <;> simp [testImage, bitOf]⟩

theorem meets_imageSignatureBad : ∃ (s : State) (t : Fc) (k : Fin 2) (ok : Bool) (known : Bool) (q : Ref) (i : Image),
    (s.fabric = true) ∧ (storeAlone (advance s t) q = true) ∧ ((getSlot s k).closing = some q) ∧ ((getSlot s k).image = some i) ∧ (ok = false ∨ known = false ∨ (i.signer ≠ 0 ∧ tblGet? s.ksm.intKeys i.signer = none)) :=
  ⟨(modUpd (setSlotState (rset live R.KSM_LC_STATE 2) 0 1) fun u => { u with slots := [(0, { image := some testImage, held := [], closing := some ⟨7, 0, 0⟩ })] }), 0, 0, false, true, ⟨7, 0, 0⟩, testImage, by decide +kernel⟩

theorem meets_imageTooOld : ∃ (s : State) (t : Fc) (k : Fin 2) (ok : Bool) (known : Bool) (q : Ref) (i : Image),
    (s.fabric = true) ∧ (storeAlone (advance s t) q = true) ∧ ((getSlot s k).closing = some q) ∧ ((getSlot s k).image = some i) ∧ (ok = true) ∧ (known = true) ∧ (i.signer = 0 ∨ (tblGet? s.ksm.intKeys i.signer).isSome = true) ∧ (i.svn < fuseCounter s i.signer) :=
  ⟨rset ((modUpd (setSlotState (rset live R.KSM_LC_STATE 2) 0 1) fun u => { u with slots := [(0, { image := some testImage, held := [], closing := some ⟨7, 0, 0⟩ })] })) R.UPD_SVN_VENDOR_SVN 9, 0, 0, true, true, ⟨7, 0, 0⟩, testImage, by decide +kernel⟩

theorem meets_imageUnsuited : ∃ (s : State) (t : Fc) (k : Fin 2) (ok : Bool) (known : Bool) (q : Ref) (i : Image),
    (s.fabric = true) ∧ (storeAlone (advance s t) q = true) ∧ ((getSlot s k).closing = some q) ∧ ((getSlot s k).image = some i) ∧ (ok = true) ∧ (known = true) ∧ (i.signer ≠ 0) ∧ ((tblGet? s.ksm.intKeys i.signer).isSome = true) ∧ (fuseCounter s i.signer ≤ i.svn) ∧ (∃ c ∈ i.components, c ≠ 1) :=
  ⟨{ (modUpd (setSlotState (rset live R.KSM_LC_STATE 2) 0 1) fun u => { u with slots := [(0, { image := some { testImage with signer := 1, components := [1, 4] }, held := [], closing := some ⟨7, 0, 0⟩ })] }) with ksm := { live.ksm with intKeys := [(1, [])] } }, 0, 0, true, true, ⟨7, 0, 0⟩, { testImage with signer := 1, components := [1, 4] }, by decide +kernel⟩

theorem meets_imageUnreadable : ∃ (s : State) (t : Fc) (k : Fin 2) (q : Ref) (i : Image),
    (s.fabric = true) ∧ (storeAlone (advance s t) q = true) ∧ ((getSlot s k).closing = some q) ∧ ((getSlot s k).image = some i) :=
  ⟨(modUpd (setSlotState (rset live R.KSM_LC_STATE 2) 0 1) fun u => { u with slots := [(0, { image := some testImage, held := [], closing := some ⟨7, 0, 0⟩ })] }), 0, 0, ⟨7, 0, 0⟩, testImage, by decide +kernel⟩

theorem meets_activateCopies : ∃ (s : State) (t : Fc) (r : Ref) (d : Desc),
    (s.fabric = true) ∧ (heldDesc s r 9 4 = some d) ∧ (due (advance s t) d = true) ∧ (lcState s ≠ 4) ∧ (slotState s (d.classWord % 2) = 2) ∧ (rbit s R.UPD_STATUS_TRIAL = false) ∧ (slotState s (1 - (d.classWord % 2)) ≠ 3) ∧ (bitOf d.classWord 1 = false) ∧ (commanding s = false ∨ bitOf d.classWord 2 = true ∨ shortHold s = none) :=
  ⟨holding ({ header 9 4 with classWord := 4, body := [0, 0, 0, 0, 0, 0, 0, 0, 0, 0, 0, 0] }) ((modUpd (setSlotState (rset live R.KSM_LC_STATE 2) 0 2) fun u => { u with slots := [(0, { image := some testImage, held := [], closing := none })] })), 0, ⟨7, 0, 0⟩, { header 9 4 with classWord := 4, body := [0, 0, 0, 0, 0, 0, 0, 0, 0, 0, 0, 0] }, by decide +kernel⟩

theorem meets_activatePending : ∃ (s : State) (t : Fc) (r : Ref) (d : Desc),
    (s.fabric = true) ∧ (heldDesc s r 9 4 = some d) ∧ (due (advance s t) d = true) ∧ (lcState s ≠ 4) ∧ (slotState s (d.classWord % 2) = 2) ∧ (rbit s R.UPD_STATUS_TRIAL = false) ∧ (slotState s (1 - (d.classWord % 2)) ≠ 3) ∧ (bitOf d.classWord 1 = true) :=
  ⟨holding ({ header 9 4 with classWord := 2, body := [0, 0, 0, 0, 0, 0, 0, 0, 0, 0, 0, 0] }) ((modUpd (setSlotState (rset live R.KSM_LC_STATE 2) 0 2) fun u => { u with slots := [(0, { image := some testImage, held := [], closing := none })] })), 0, ⟨7, 0, 0⟩, { header 9 4 with classWord := 2, body := [0, 0, 0, 0, 0, 0, 0, 0, 0, 0, 0, 0] }, by decide +kernel⟩

theorem meets_activateShortHold : ∃ (s : State) (t : Fc) (r : Ref) (d : Desc) (j : Nat) (n : Nat),
    (s.fabric = true) ∧ (heldDesc s r 9 4 = some d) ∧ (due (advance s t) d = true) ∧ (lcState s ≠ 4) ∧ (slotState s (d.classWord % 2) = 2) ∧ (rbit s R.UPD_STATUS_TRIAL = false) ∧ (slotState s (1 - (d.classWord % 2)) ≠ 3) ∧ (bitOf d.classWord 1 = false) ∧ (bitOf d.classWord 2 = false) ∧ (commanding s = true) ∧ (shortHold s = some (j, n)) :=
  ⟨holding ({ header 9 4 with classWord := 0, body := [0, 0, 0, 0, 0, 0, 0, 0, 0, 0, 0, 0] }) (rset (rset (rset ((modUpd (setSlotState (rset live R.KSM_LC_STATE 2) 0 2) fun u => { u with slots := [(0, { image := some testImage, held := [], closing := none })] })) R.PPS_CTRL_ARMED 1 0) R.SBK_CTRL_ENABLE 1 0) R.PPS_SW_HOLD_ROWS 2 0 0), 0, ⟨7, 0, 0⟩, { header 9 4 with classWord := 0, body := [0, 0, 0, 0, 0, 0, 0, 0, 0, 0, 0, 0] }, 1, 0, by decide +kernel⟩

theorem meets_activateOnTrial : ∃ (s : State) (t : Fc) (r : Ref) (d : Desc),
    (s.fabric = true) ∧ (heldDesc s r 9 4 = some d) ∧ (due (advance s t) d = true) ∧ (lcState s ≠ 4) ∧ (slotState s (d.classWord % 2) = 2) ∧ (rbit s R.UPD_STATUS_TRIAL = true) :=
  ⟨holding ({ header 9 4 with classWord := 0, body := [0, 0, 0, 0, 0, 0, 0, 0, 0, 0, 0, 0] }) (rset ((modUpd (setSlotState (rset live R.KSM_LC_STATE 2) 0 2) fun u => { u with slots := [(0, { image := some testImage, held := [], closing := none })] })) R.UPD_STATUS_TRIAL 1), 0, ⟨7, 0, 0⟩, { header 9 4 with classWord := 0, body := [0, 0, 0, 0, 0, 0, 0, 0, 0, 0, 0, 0] }, by decide +kernel⟩

theorem meets_copyReady : ∃ (s : State) (q : Ref) (k : Nat) (i : Image),
    (s.fabric = true) ∧ (s.upd.copying = some (q, k)) ∧ ((getSlot s k).image = some i) ∧ (s.upd.resetAfter = none) :=
  ⟨(modUpd ((modUpd (setSlotState (rset live R.KSM_LC_STATE 2) 0 3) fun u => { u with slots := [(0, { image := some testImage, held := [], closing := none })] })) fun u => { u with copying := some (⟨7, 0, 0⟩, 0) }), ⟨7, 0, 0⟩, 0, testImage, by decide +kernel⟩

theorem meets_copyFails : ∃ (s : State) (q : Ref) (k : Nat) (i : Image),
    (s.fabric = true) ∧ (s.upd.copying = some (q, k)) ∧ ((getSlot s k).image = some i) ∧ (s.upd.resetAfter = none) :=
  ⟨(modUpd ((modUpd (setSlotState (rset live R.KSM_LC_STATE 2) 0 3) fun u => { u with slots := [(0, { image := some testImage, held := [], closing := none })] })) fun u => { u with copying := some (⟨7, 0, 0⟩, 0) }), ⟨7, 0, 0⟩, 0, testImage, by decide +kernel⟩

theorem meets_activationWaits : ∃ (s : State) (q : Ref) (k : Nat) (n : Nat),
    (s.fabric = true) ∧ (s.upd.copying = some (q, k)) ∧ (s.upd.resetAfter = some n) ∧ (rowNow s ≤ n) :=
  ⟨modUpd (modUpd ((modUpd (setSlotState (rset live R.KSM_LC_STATE 2) 0 3) fun u => { u with slots := [(0, { image := some testImage, held := [], closing := none })] })) fun u => { u with copying := some (⟨7, 0, 0⟩, 0) }) fun u => { u with resetAfter := some 0 }, ⟨7, 0, 0⟩, 0, 0, by decide +kernel⟩

theorem meets_activated : ∃ (s : State) (q : Ref) (k : Nat) (n : Nat),
    (s.fabric = true) ∧ (s.upd.copying = some (q, k)) ∧ (s.upd.resetAfter = some n) ∧ (n < rowNow s) ∧ (s.tke.flushed = true) :=
  ⟨(fun x : State => { x with tke := { x.tke with flushed := true } }) (rset (modUpd (modUpd ((modUpd (setSlotState (rset live R.KSM_LC_STATE 2) 0 3) fun u => { u with slots := [(0, { image := some testImage, held := [], closing := none })] })) fun u => { u with copying := some (⟨7, 0, 0⟩, 0) }) fun u => { u with resetAfter := some 0 }) R.TKE_ROW_LO_ROW 1), ⟨7, 0, 0⟩, 0, 0, by decide +kernel⟩

theorem meets_trialConfirmed : ∃ (s : State) (t : Fc) (r : Ref) (d : Desc),
    (s.fabric = true) ∧ (heldDesc s r 9 5 = some d) ∧ (due (advance s t) d = true) ∧ (lcState s ≠ 4) ∧ (rbit s R.UPD_STATUS_TRIAL = true) ∧ ((tblGetD s.upd.banks (rget s R.UPD_STATUS_ACTIVE_BANK) Image.delivered).svn < 128) :=
  ⟨holding ({ header 9 5 with classWord := 0, body := [0, 0, 0, 0, 0, 0, 0, 0, 0, 0, 0, 0] }) (rset live R.UPD_STATUS_TRIAL 1), 0, ⟨7, 0, 0⟩, { header 9 5 with classWord := 0, body := [0, 0, 0, 0, 0, 0, 0, 0, 0, 0, 0, 0] }, by decide +kernel⟩

theorem meets_nothingToConfirm : ∃ (s : State) (t : Fc) (r : Ref) (d : Desc),
    (s.fabric = true) ∧ (heldDesc s r 9 5 = some d) ∧ (due (advance s t) d = true) ∧ (lcState s ≠ 4) ∧ (rbit s R.UPD_STATUS_TRIAL = false) :=
  ⟨holding ({ header 9 5 with classWord := 0, body := [0, 0, 0, 0, 0, 0, 0, 0, 0, 0, 0, 0] }) (live), 0, ⟨7, 0, 0⟩, { header 9 5 with classWord := 0, body := [0, 0, 0, 0, 0, 0, 0, 0, 0, 0, 0, 0] }, by decide⟩

theorem meets_supervisorLoads : ∃ (s : State) (t : Fc) (r : Ref) (d : Desc) (v : Nat),
    (s.fabric = true) ∧ (heldDesc s r 9 6 = some d) ∧ (due (advance s t) d = true) ∧ (lcState s ≠ 4) ∧ (rbit s R.PPS_STATUS_SAFE_ACTIVE (d.classWord % 2) = true) ∧ (4 ∈ (tblGetD s.upd.banks (rget s R.UPD_STATUS_ACTIVE_BANK) Image.delivered).components) ∧ (tkeArmed s = false ∨ planeArmed s (d.classWord % 2) = false) ∧ (rbit s R.XLK_PAIR_CFG_PAIR_EN = false ∨ ∀ a, (getPps s (d.classWord % 2)).commitAt = some a → a + 40000000 ≤ max s.now t) ∧ (ppsLoading s (d.classWord % 2) = false) ∧ (v % 65536 ≠ rget s (if (d.classWord % 2) = 0 then R.UPD_PPS_PPS_A else R.UPD_PPS_PPS_B)) :=
  ⟨holding ({ header 9 6 with classWord := 1, body := [0, 0, 0, 0, 0, 0, 0, 0, 0, 0, 0, 0] }) (rset live R.PPS_STATUS_SAFE_ACTIVE 1 1), 0, ⟨7, 0, 0⟩, { header 9 6 with classWord := 1, body := [0, 0, 0, 0, 0, 0, 0, 0, 0, 0, 0, 0] }, 9, by decide +kernel⟩

theorem meets_supervisorCurrent : ∃ (s : State) (t : Fc) (r : Ref) (d : Desc) (v : Nat),
    (s.fabric = true) ∧ (heldDesc s r 9 6 = some d) ∧ (due (advance s t) d = true) ∧ (lcState s ≠ 4) ∧ (rbit s R.PPS_STATUS_SAFE_ACTIVE (d.classWord % 2) = true) ∧ (4 ∈ (tblGetD s.upd.banks (rget s R.UPD_STATUS_ACTIVE_BANK) Image.delivered).components) ∧ (tkeArmed s = false) ∧ (rbit s R.XLK_PAIR_CFG_PAIR_EN = false) ∧ (ppsLoading s (d.classWord % 2) = false) ∧ (v % 65536 = rget s (if (d.classWord % 2) = 0 then R.UPD_PPS_PPS_A else R.UPD_PPS_PPS_B)) :=
  ⟨holding ({ header 9 6 with classWord := 1, body := [0, 0, 0, 0, 0, 0, 0, 0, 0, 0, 0, 0] }) (rset live R.PPS_STATUS_SAFE_ACTIVE 1 1), 0, ⟨7, 0, 0⟩, { header 9 6 with classWord := 1, body := [0, 0, 0, 0, 0, 0, 0, 0, 0, 0, 0, 0] }, 0, by decide +kernel⟩

theorem meets_supervisorNotSafe : ∃ (s : State) (t : Fc) (r : Ref) (d : Desc),
    (s.fabric = true) ∧ (heldDesc s r 9 6 = some d) ∧ (due (advance s t) d = true) ∧ (lcState s ≠ 4) ∧ (rbit s R.PPS_STATUS_SAFE_ACTIVE (d.classWord % 2) = false ∨ 4 ∉ (tblGetD s.upd.banks (rget s R.UPD_STATUS_ACTIVE_BANK) Image.delivered).components) :=
  ⟨holding ({ header 9 6 with classWord := 1, body := [0, 0, 0, 0, 0, 0, 0, 0, 0, 0, 0, 0] }) (live), 0, ⟨7, 0, 0⟩, { header 9 6 with classWord := 1, body := [0, 0, 0, 0, 0, 0, 0, 0, 0, 0, 0, 0] }, by decide +kernel⟩

theorem meets_supervisorRuns : ∃ (s : State) (p : Fin 2) (q : Ref) (v : Nat) (a : Nat),
    ((getPps s p).powered = true) ∧ (tblGet? s.upd.applying p = some (q, v, a)) :=
  ⟨modUpd live fun u => { u with applying := [(1, (⟨7, 0, 0⟩, 9, 0))] }, 1, ⟨7, 0, 0⟩, 9, 0, by decide +kernel⟩

theorem meets_slotEmptied : ∃ (s : State) (t : Fc) (r : Ref) (d : Desc),
    (s.fabric = true) ∧ (heldDesc s r 9 7 = some d) ∧ (due (advance s t) d = true) ∧ (lcState s ≠ 4) ∧ (slotState s (d.classWord % 2) ≠ 3) :=
  ⟨holding ({ header 9 7 with classWord := 0, body := [0, 0, 0, 0, 0, 0, 0, 0, 0, 0, 0, 0] }) ((modUpd (setSlotState (rset live R.KSM_LC_STATE 2) 0 2) fun u => { u with slots := [(0, { image := some testImage, held := [], closing := none })] })), 0, ⟨7, 0, 0⟩, { header 9 7 with classWord := 0, body := [0, 0, 0, 0, 0, 0, 0, 0, 0, 0, 0, 0] }, by decide +kernel⟩

theorem meets_boundSlotStays : ∃ (s : State) (t : Fc) (r : Ref) (d : Desc),
    (s.fabric = true) ∧ (heldDesc s r 9 7 = some d) ∧ (due (advance s t) d = true) ∧ (lcState s ≠ 4) ∧ (slotState s (d.classWord % 2) = 3) :=
  ⟨holding ({ header 9 7 with classWord := 0, body := [0, 0, 0, 0, 0, 0, 0, 0, 0, 0, 0, 0] }) ((modUpd (setSlotState (rset live R.KSM_LC_STATE 2) 0 3) fun u => { u with slots := [(0, { image := some testImage, held := [], closing := none })] })), 0, ⟨7, 0, 0⟩, { header 9 7 with classWord := 0, body := [0, 0, 0, 0, 0, 0, 0, 0, 0, 0, 0, 0] }, by decide +kernel⟩

theorem meets_ceCounted : ∃ (s : State) (t : Fc) (w : Nat) (tm : Bool),
    (s.fabric = true) ∧ (ceMarked (advance s t) tm w = none) :=
  ⟨live, 0, 9, true, by decide⟩

theorem meets_ceCountedBefore : ∃ (s : State) (t : Fc) (w : Nat) (tm : Bool) (x : Nat × Nat),
    (s.fabric = true) ∧ (ceMarked (advance s t) tm w = some x) :=
  ⟨modHlm live fun h => { h with cePend := [(19, 0)] }, 0, 9, true, (19, 0), by decide⟩

theorem meets_ueReported : ∃ (s : State),
    (s.fabric = true) :=
  ⟨live, by decide⟩

theorem meets_ueEndsRow : ∃ (s : State),
    (s.fabric = true) ∧ (s.tke.running = true) ∧ (s.tke.committed = false) ∧ (s.tke.overrun = none) :=
  ⟨inRow, by decide⟩

theorem meets_ueLosesDescriptor : ∃ (s : State) (r : Ref) (q : Req) (d : Desc),
    (s.fabric = true) ∧ (findReq s r = some q) ∧ (q.stage = .held) ∧ (q.desc = some d) ∧ (d.cls = 0xB) :=
  ⟨holding (header 0xB 9), ⟨7, 0, 0⟩, ⟨7, 0, 0, true, some (header 0xB 9), .held, 1, none⟩, header 0xB 9, by decide⟩

theorem meets_darnClean : ∃ (s : State) (t : Fc) (tm : Bool),
    (s.fabric = true) ∧ (rbit s R.HLM_CTRL_DARN_EN = true) ∧ ((getPass s tm).start + (getPass s tm).pos * passFc s tm / memWords tm ≤ max s.now t) ∧ ((getPass s tm).pos + 1 < memWords tm) :=
  ⟨live, 0, true, by decide⟩

theorem meets_darnOff : ∃ (s : State),
    (s.fabric = true) ∧ (rbit s R.HLM_CTRL_DARN_EN = false) :=
  ⟨rset live R.HLM_CTRL_DARN_EN 0, by decide⟩

theorem meets_darnWeak : ∃ (s : State) (t : Fc),
    (s.fabric = true) ∧ (rbit s R.HLM_CTRL_DARN_EN = true) ∧ (s.hlm.tm.start + s.hlm.tm.pos * passFc s true / memWords true ≤ max s.now t) ∧ (s.hlm.tm.pos + 1 < memWords true) ∧ (s.hlm.tm.number ≠ 0) ∧ (tblGet? s.hlm.tm.ce s.hlm.tm.pos = some (s.hlm.tm.number - 1)) ∧ (rowOfWord s.hlm.tm.pos ∉ s.hlm.rowMoves) ∧ (tblGetD s.hlm.spares (bankOfRow (rowOfWord s.hlm.tm.pos)) 0 < 8) :=
  ⟨modHlm live fun h => { h with tm := ⟨0, 0, 3, [(0, 2)]⟩ }, 0, by decide⟩

theorem meets_darnPageRetired : ∃ (s : State) (t : Fc) (c : Fin 4),
    (s.fabric = true) ∧ (rbit s R.HLM_CTRL_DARN_EN = true) ∧ (s.hlm.dram.start + s.hlm.dram.pos * passFc s false / memWords false ≤ max s.now t) ∧ (s.hlm.dram.pos + 1 < memWords false) ∧ (2 ≤ c.val) ∧ (4 * s.hlm.dram.pos / 4096 * 4096 ∉ s.hlm.retired) ∧ (s.hlm.retired.length < 8192) :=
  ⟨live, 0, 2, by decide⟩

theorem meets_darnPassEnds : ∃ (s : State) (t : Fc),
    (s.fabric = true) ∧ (rbit s R.HLM_CTRL_DARN_EN = true) ∧ (s.hlm.tm.start + s.hlm.tm.pos * passFc s true / memWords true ≤ max s.now t) ∧ (s.hlm.tm.pos + 1 = memWords true) ∧ (max s.now t ≤ s.hlm.tm.start + passFc s true) :=
  ⟨modHlm live fun h => { h with tm := ⟨0, 4194303, 3, []⟩ }, 240000000000, by decide +kernel⟩

theorem meets_rowMoved : ∃ (s : State) (w : Fin 16384),
    (s.fabric = true) ∧ (w.val ∈ s.hlm.rowMoves) :=
  ⟨modHlm live fun h => { h with rowMoves := [5] }, 5, by decide⟩

theorem meets_sampleOff : ∃ (s : State),
    (s.fabric = true) ∧ (rget s R.HLM_CTRL_SAMPLE_S = 0) :=
  ⟨rset live R.HLM_CTRL_SAMPLE_S 0, by decide⟩

theorem meets_sampleWritten : ∃ (s : State) (t : Fc),
    (s.fabric = true) ∧ (rget s R.HLM_CTRL_SAMPLE_S ≠ 0) ∧ (passed (advance s t) s.hlm.sampleAt (rget s R.HLM_CTRL_SAMPLE_S * 400000000) = true) ∧ (s.hlm.lifeTold = true ∨ lifePermille (advance s t) < 1000) ∧ (rbit s R.HLM_TLM_CFG_ENABLE = true) ∧ (queueRoom s queueTlm 0 0 = true) ∧ (Memory.wf s.mem = true) ∧ (Memory.wf s.extMem = true) :=
  ⟨rset live R.HLM_TLM_CFG_ENABLE 1, 400, by decide +kernel⟩

theorem meets_sampleDropped : ∃ (s : State) (t : Fc),
    (s.fabric = true) ∧ (rget s R.HLM_CTRL_SAMPLE_S ≠ 0) ∧ (passed (advance s t) s.hlm.sampleAt (rget s R.HLM_CTRL_SAMPLE_S * 400000000) = true) ∧ (s.hlm.lifeTold = true ∨ lifePermille (advance s t) < 1000) ∧ (rbit s R.HLM_TLM_CFG_ENABLE = true) ∧ (queueRoom s queueTlm 0 0 = false) :=
  ⟨rset (rset (rset live R.HLM_TLM_CFG_ENABLE 1) R.HLM_TLM_WRITE_INDEX 0) R.HLM_TLM_WRITE_PHASE 0, 400, by decide +kernel⟩

theorem meets_monitorRecord : ∃ (s : State) (t : Fc) (m : AgeMeas),
    (s.fabric = true) ∧ (monitorDue (advance s t) m = true) ∧ (overLimit (advance s t) m.kind (monitorValue (advance s t) m) (baselineOf (advance s t) m.kind m.inst m.item) = false) :=
  ⟨live, 34560000000000, ⟨11, 0, 0, 0, 0⟩, by decide +kernel⟩

theorem meets_limitTold : ∃ (s : State) (t : Fc) (m : AgeMeas),
    (s.fabric = true) ∧ (monitorDue (advance s t) m = true) ∧ (overLimit (advance s t) m.kind (monitorValue (advance s t) m) (baselineOf (advance s t) m.kind m.inst m.item) = true) ∧ ((itemKey m.kind m.inst m.item) ∉ s.hlm.told) :=
  ⟨live, 240000000000, ⟨1, 0, 0, 0, 0⟩, by decide +kernel⟩

theorem meets_monitorNotDue : ∃ (s : State) (t : Fc) (m : AgeMeas),
    (s.fabric = true) ∧ (monitorDue (advance s t) m = false) :=
  ⟨live, 0, ⟨1, 0, 0, 0, 0⟩, by decide +kernel⟩

theorem meets_slackShown : ∃ (s : State) (t : Fc) (l : List Int),
    (s.fabric = true) ∧ (passed (advance s t) s.hlm.roAt (600 * 400000000) = true) ∧ (∀ n < 32, -32768 ≤ l.getD n 0 ∧ l.getD n 0 ≤ 32767) ∧ (rbit s R.HLM_CTRL_AVS_EN = false) ∧ (l.length = 32) :=
  ⟨rset live R.HLM_CTRL_AVS_EN 0, 0, List.replicate 32 40, by decide⟩

theorem meets_floorRises : ∃ (s : State) (t : Fc) (l : List Int),
    (s.fabric = true) ∧ (passed (advance s t) s.hlm.roAt (600 * 400000000) = true) ∧ (∀ n < 32, -32768 ≤ l.getD n 0 ∧ l.getD n 0 ≤ 32767) ∧ (rbit s R.HLM_CTRL_AVS_EN = true) ∧ (l.length = 32) ∧ (leastSlack l < (rval s R.HLM_REPLAN_SLACK_TARGET_PS : Int)) ∧ (700 ≤ rget s R.HLM_VCORE_FLOOR_MV) ∧ (rget s R.HLM_VCORE_FLOOR_MV ≤ 1790) :=
  ⟨live, 0, List.replicate 32 40, by decide⟩

theorem meets_floorFalls : ∃ (s : State) (t : Fc) (l : List Int),
    (s.fabric = true) ∧ (passed (advance s t) s.hlm.roAt (600 * 400000000) = true) ∧ (∀ n < 32, -32768 ≤ l.getD n 0 ∧ l.getD n 0 ≤ 32767) ∧ (rbit s R.HLM_CTRL_AVS_EN = true) ∧ (l.length = 32) ∧ ((rval s R.HLM_REPLAN_SLACK_TARGET_PS : Int) + 100 < leastSlack l) ∧ (s.hlm.spareCount = 6) ∧ (710 ≤ rget s R.HLM_VCORE_FLOOR_MV) ∧ (rget s R.HLM_VCORE_FLOOR_MV ≤ 1800) :=
  ⟨modHlm (rset live R.HLM_VCORE_FLOOR_MV 800) fun h => { h with spareCount := 6 }, 0, List.replicate 32 900, by decide⟩

theorem meets_marginExhausted : ∃ (s : State) (t : Fc) (l : List Int),
    (s.fabric = true) ∧ (passed (advance s t) s.hlm.roAt (600 * 400000000) = true) ∧ (∀ n < 32, -32768 ≤ l.getD n 0 ∧ l.getD n 0 ≤ 32767) ∧ (rbit s R.HLM_CTRL_AVS_EN = true) ∧ (l.length = 32) ∧ (leastSlack l < (rval s R.HLM_REPLAN_SLACK_TARGET_PS : Int)) ∧ (rget s R.HLM_VCORE_FLOOR_MV = 1800) ∧ (s.hlm.exhausted = false) :=
  ⟨rset live R.HLM_VCORE_FLOOR_MV 1800, 0, List.replicate 32 (-5), by decide⟩

theorem meets_replanOff : ∃ (s : State),
    (s.fabric = true) ∧ (rbit s R.HLM_CTRL_REPLAN_EN = false) :=
  ⟨rset live R.HLM_CTRL_REPLAN_EN 0, by decide⟩

theorem meets_replanned : ∃ (s : State) (t : Fc) (b : Fin 12),
    (s.fabric = true) ∧ (rbit s R.HLM_CTRL_REPLAN_EN = true) ∧ (∀ a, tblGet? s.hlm.replanAt b = some a → a + rval s R.HLM_REPLAN_REPLAN_H * 3600 * 400000000 ≤ opTime (advance s t)) ∧ (boostLimit (tblGet? s.hlm.cap b) < (limitsNow s b).1 ∨ peakLimit (tblGet? s.hlm.hsb b) < (limitsNow s b).2) ∧ (bankOff s b = true) :=
  ⟨modHlm live fun h => { h with cap := [(3, (fOfNat 60, fOfNat 100))] }, 0, 3, by decide +kernel⟩

theorem meets_replanWaits : ∃ (s : State) (t : Fc) (b : Fin 12),
    (s.fabric = true) ∧ (rbit s R.HLM_CTRL_REPLAN_EN = true) ∧ (∀ a, tblGet? s.hlm.replanAt b = some a → a + rval s R.HLM_REPLAN_REPLAN_H * 3600 * 400000000 ≤ opTime (advance s t)) ∧ (boostLimit (tblGet? s.hlm.cap b) < (limitsNow s b).1 ∨ peakLimit (tblGet? s.hlm.hsb b) < (limitsNow s b).2) ∧ (bankOff s b = false) :=
  ⟨dset (modHlm live fun h => { h with cap := [(3, (fOfNat 60, fOfNat 100))] }) R.DBK_CH_STAT_PHASE 1 24, 0, 3, by decide +kernel⟩

theorem meets_limitsStay : ∃ (s : State) (t : Fc) (b : Fin 12),
    (s.fabric = true) ∧ (rbit s R.HLM_CTRL_REPLAN_EN = true) ∧ (∀ a, tblGet? s.hlm.replanAt b = some a → a + rval s R.HLM_REPLAN_REPLAN_H * 3600 * 400000000 ≤ opTime (advance s t)) ∧ ((limitsNow s b).1 ≤ boostLimit (tblGet? s.hlm.cap b)) ∧ ((limitsNow s b).2 ≤ peakLimit (tblGet? s.hlm.hsb b)) :=
  ⟨live, 0, 3, by decide +kernel⟩

theorem meets_ratingsRestored : ∃ (s : State) (t : Fc) (r : Ref) (d : Desc),
    (s.fabric = true) ∧ (heldDesc s r 0xB 0x90 = some d) ∧ (due (advance s t) d = true) ∧ ((d.classWord % 16) ≤ 11) ∧ (lcState s = 3) :=
  ⟨holding ({ header 11 0x90 with classWord := 3, body := [0, 0, 0, 0, 0, 0, 0, 0, 0, 0, 0, 0] }) (rset (rset live R.KSM_LC_STATE 3) R.DBK_DERATE_BOOST_MA 6000 3), 0, ⟨7, 0, 0⟩, { header 11 0x90 with classWord := 3, body := [0, 0, 0, 0, 0, 0, 0, 0, 0, 0, 0, 0] }, by decide⟩

theorem meets_restoreRefused : ∃ (s : State) (t : Fc) (r : Ref) (d : Desc),
    (s.fabric = true) ∧ (heldDesc s r 0xB 0x90 = some d) ∧ (due (advance s t) d = true) ∧ ((d.classWord % 16) ≤ 11) ∧ (lcState s ≠ 3) :=
  ⟨holding ({ header 11 0x90 with classWord := 3, body := [0, 0, 0, 0, 0, 0, 0, 0, 0, 0, 0, 0] }) (live), 0, ⟨7, 0, 0⟩, { header 11 0x90 with classWord := 3, body := [0, 0, 0, 0, 0, 0, 0, 0, 0, 0, 0, 0] }, by decide⟩

theorem meets_baseHot : ∃ (s : State) (t : Fc) (x : Int) (a : Nat),
    (s.fabric = true) ∧ (passed (advance s t) s.hlm.baseAt (10 * 400000000) = true) ∧ (Config.baseLimitC < x) ∧ (s.hlm.hotSince = some a) ∧ (s.hlm.hot = false) ∧ (a + 4000000000 ≤ max s.now t) :=
  ⟨modHlm live fun h => { h with hotSince := some 0 }, 4000000000, Config.baseLimitC + 1, 0, by refine ⟨by decide, by decide, by omega, by decide, by decide, by decide⟩⟩

theorem meets_baseNormal : ∃ (s : State) (t : Fc) (x : Int) (a : Nat),
    (s.fabric = true) ∧ (passed (advance s t) s.hlm.baseAt (10 * 400000000) = true) ∧ (x ≤ Config.baseLimitC - 5) ∧ (s.hlm.coolSince = some a) ∧ (s.hlm.hot = true) ∧ (a + 24000000000 ≤ max s.now t) :=
  ⟨modHlm live fun h => { h with hot := true, coolSince := some 0 }, 24000000000, Config.baseLimitC - 5, 0, by refine ⟨by decide, by decide, by omega, by decide, by decide, by decide⟩⟩

theorem meets_baseBetween : ∃ (s : State) (t : Fc) (x : Int),
    (s.fabric = true) ∧ (passed (advance s t) s.hlm.baseAt (10 * 400000000) = true) ∧ (x ≤ Config.baseLimitC) ∧ (Config.baseLimitC - 5 < x) :=
  ⟨modHlm live fun h => { h with hot := true }, 0, Config.baseLimitC, by refine ⟨by decide, by decide, by omega, by omega⟩⟩

theorem meets_dramHot : ∃ (s : State),
    (s.fabric = true) :=
  ⟨live, by decide⟩

theorem meets_eventJournalled : ∃ (s : State),
    (rbit s R.HLM_TLM_CFG_ENABLE = false) ∧ ((s.log.stamps.filter fun t => decide (s.now < t + 400000000)).length < 200) ∧ (s.log.suppressed = 0) ∧ (s.log.losing = false) ∧ (s.log.written < s.log.copied + 524288) :=
  ⟨live, by decide⟩

theorem meets_eventBeyondBudget : ∃ (s : State),
    (rbit s R.HLM_TLM_CFG_ENABLE = false) ∧ (200 ≤ (s.log.stamps.filter fun t => decide (s.now < t + 400000000)).length) :=
  ⟨{ live with log := { live.log with stamps := List.replicate 200 0 } }, by decide⟩

theorem meets_deepAfterPark : ∃ (s : State) (t : Fc),
    (s.aoc.power = 2) ∧ (rget s R.AOC_PARK_CFG_DEEP_AFTER_MIN ≠ 0) ∧ (s.aoc.parkedAt + rget s R.AOC_PARK_CFG_DEEP_AFTER_MIN * 60 * 400000000 ≤ max s.now t) ∧ (3500000 ≤ rget s R.AOC_WAKE_TOLERANCE_US) :=
  ⟨rset ({ State.reset with aoc := { Aoc.reset with castFrom := none, logic := true, power := 2 } }) R.AOC_WAKE_TOLERANCE_US 4000000, 60 * 60 * 400000000, by decide⟩

theorem meets_descentDisabled : ∃ (s : State),
    (rget s R.AOC_PARK_CFG_DEEP_AFTER_MIN = 0) :=
  ⟨rset (rset ({ State.reset with aoc := { Aoc.reset with castFrom := none, logic := true, power := 2 } }) R.AOC_WAKE_TOLERANCE_US 4000000) R.AOC_PARK_CFG_DEEP_AFTER_MIN 0, by decide⟩

theorem meets_descentNotYet : ∃ (s : State) (t : Fc),
    (max s.now t < s.aoc.parkedAt + rget s R.AOC_PARK_CFG_DEEP_AFTER_MIN * 60 * 400000000) :=
  ⟨rset ({ State.reset with aoc := { Aoc.reset with castFrom := none, logic := true, power := 2 } }) R.AOC_WAKE_TOLERANCE_US 4000000, 60 * 60 * 400000000 - 1, by decide⟩

theorem meets_descentTooSlow : ∃ (s : State),
    (rget s R.AOC_WAKE_TOLERANCE_US < 3500000) :=
  ⟨{ State.reset with aoc := { Aoc.reset with castFrom := none, logic := true, power := 2 } }, by decide⟩

theorem meets_descentElsewhere : ∃ (s : State),
    (s.aoc.power ≠ 2) :=
  ⟨{ State.reset with aoc := { Aoc.reset with castFrom := none, logic := true, power := 3 } }, by decide⟩

theorem meets_completesCommitPoint : ∃ (s : State) (t : Fc),
    (s.fabric = true) ∧ (s.tke.running = true) ∧ (s.tke.committed = false) ∧ (commitAt s ≤ max s.now t) ∧ (s.tke.rowArmed = true) ∧ (s.tke.disarmAt = none) ∧ (tkeArmed s = true) ∧ (commanding s = true) ∧ (s.tke.overrun = none) ∧ (s.tke.todo = []) :=
  meets_commitMakesGood

theorem meets_completesTillFlush : ∃ (s : State) (t : Fc),
    (s.fabric = true) ∧ (s.tke.committed = true) ∧ (s.tke.flushed = false) ∧ (commitAt s + 256 ≤ max s.now t) :=
  meets_flushPosts

theorem meets_completesLockstepMismatch : ∃ (s : State) (l : List Nat) (x : Fin 4) (v : Nat),
    (s.fabric = true) ∧ (rget s R.TKE_LOCKSTEP_MASKED = 0) ∧ (∀ k : Fin 4, k ≠ x → l.getD k 0 = v) ∧ (l.getD x 0 ≠ v) :=
  meets_dissenterMasked

theorem meets_completesPatternLoad : ∃ (s : State) (t : Fc) (r : Ref) (d : Desc),
    (s.fabric = true) ∧ (heldDesc s r 1 1 = some d) ∧ (due (advance s t) d = true) ∧ (tkeServes s r = true) ∧ (commanding s = true) ∧ (d.classWord % 2 = 0 ∨ tkeArmed s = false) ∧ (64 ≤ d.word 0x18) ∧ (d.word 0x18 ≤ 0x200000) :=
  meets_loadBegins

theorem meets_completesPatternAdmission : ∃ (s : State) (t : Fc) (r : Ref) (d : Desc) (img : List Nat) (p : Pattern),
    (s.fabric = true) ∧ (edgeDue (advance s t) = false) ∧ (s.tke.loadPat = some (r, 0, img)) ∧ (reqDesc s r = some d) ∧ (checkPattern s false (d.word 0x18) img = .admitted p) ∧ (tkeArmed s = false) ∧ (s.tke.pending = none) :=
  meets_admittedMain

theorem meets_completesTableSet : ∃ (s : State) (t : Fc) (r : Ref) (d : Desc),
    (s.fabric = true) ∧ (heldDesc s r 1 2 = some d) ∧ (due (advance s t) d = true) ∧ (tkeServes s r = true) ∧ (commanding s = true) ∧ (64 ≤ d.word 0x18) ∧ (d.word 0x18 ≤ 0x100000) :=
  meets_setBegins

theorem meets_completesTableSetCheck : ∃ (s : State) (t : Fc) (r : Ref) (d : Desc) (b : Nat) (img : List Nat),
    (s.fabric = true) ∧ (edgeDue (advance s t) = false) ∧ (s.tke.loadTbl = some (r, b, img)) ∧ (reqDesc s r = some d) ∧ (checkTable (d.word 0x18) img = none) ∧ (forwarding s = false) ∧ (b ≤ 2) :=
  meets_setPends

theorem meets_completesPromote : ∃ (s : State) (t : Fc) (r : Ref) (d : Desc),
    (s.fabric = true) ∧ (heldDesc s r 1 3 = some d) ∧ (due (advance s t) d = true) ∧ (edgeDue (advance s t) = false) ∧ (tkeServes s r = true) ∧ (commanding s = true) ∧ (tkeArmed s = false ∨ rbit s R.TKE_CTRL_FALLBACK_ACTIVE = true) ∧ (s.tke.rowArmed = false ∨ (s.tke.rowFallback = true ∧ rbit s R.TKE_CTRL_STOPPED = false)) :=
  meets_promoteWaits

theorem meets_completesTkeArm : ∃ (s : State),
    (s.fabric = true) ∧ (tkeArmed s = false) ∧ (armError s = 0) ∧ (pairEn s = false) :=
  meets_armsSingle

theorem meets_completesTkeDisarm : ∃ (s : State),
    (s.fabric = true) :=
  meets_disarms

theorem meets_completesQualPost : ∃ (s : State) (t : Fc) (r : Ref) (d : Desc),
    (s.fabric = true) ∧ (heldDesc s r 0xB 0x20 = some d) ∧ (due (advance s t) d = true) ∧ (commanding s = true) ∧ (d.classWord < 16) ∧ (d.word 0x14 < 2) ∧ (∀ k < 8, d.word (0x20 + 4 * k) = 0) ∧ (rget s R.SPS_QUAL_CFG_SOURCE 0 (d.classWord % 16) = 2) ∧ (∀ v, tblGet? s.sps.posts (d.classWord % 16) = some v → v.stamp ≤ d.quad 0x18) :=
  meets_qualTaken

theorem meets_completesEnvelopeSet : ∃ (s : State) (t : Fc) (r : Ref) (d : Desc) (ts : List Nat),
    (s.fabric = true) ∧ (heldDesc s r 0xB 0x21 = some d) ∧ (due (advance s t) d = true) ∧ (edgeDue (advance s t) = false) ∧ (commanding s = true) ∧ (d.classWord < 32) ∧ (∀ k < 9, d.word (0x1C + 4 * k) = 0) ∧ (d.word 0x18 = 0) ∧ (fFinite (d.word 0x10) = true) ∧ (fFinite (d.word 0x14) = true) ∧ (fLt (d.word 0x14) (d.word 0x10) = false) ∧ (liveSet s = some ts) ∧ (fLt (d.word 0x14) (tsHardLo ts (d.classWord % 32)) = false) ∧ (fLt (tsHardHi ts (d.classWord % 32)) (d.word 0x10) = false) :=
  meets_envelopeWaits

theorem meets_completesCalSet : ∃ (s : State) (t : Fc) (r : Ref) (d : Desc),
    (s.fabric = true) ∧ (heldDesc s r 0xB 0x30 = some d) ∧ (due (advance s t) d = true) ∧ (edgeDue (advance s t) = false) ∧ (commanding s = true) ∧ (bitOf (d.word 0x18) 0 = true ∨ bitOf (d.word 0x18) 1 = true) ∧ (bitOf (d.word 0x18) 0 = true → fFinite (d.word 0x10) = true) ∧ (bitOf (d.word 0x18) 1 = true → fFinite (d.word 0x14) = true) ∧ (rval s R.SFE_EST_KIND 0 (d.classWord % 16) ≠ 0) :=
  meets_calWaits

theorem meets_completesClsSelect : ∃ (s : State) (t : Fc) (r : Ref) (d : Desc),
    (s.fabric = true) ∧ (heldDesc s r 0xB 0x31 = some d) ∧ (due (advance s t) d = true) ∧ (edgeDue (advance s t) = false) ∧ (commanding s = true) ∧ (rget s R.SFE_CTRL_LIVE_BANK ≠ d.classWord % 2) :=
  meets_bankPends

theorem meets_completesImpactPulseOpen : ∃ (s : State) (t : Fc) (ch : Fin 48),
    (s.fabric = true) ∧ (edgeDue (advance s t) = false) ∧ (rbit s R.SFE_IMP_CFG_EN 0 ch = true) :=
  meets_pulseSamples

theorem meets_completesImpactPulseClose : ∃ (s : State) (t : Fc) (ch : Fin 48) (x : Int) (xs : List Int) (l : List Nat),
    (s.fabric = true) ∧ (edgeDue (advance s t) = false) ∧ ((getImp s ch).isOpen = true) ∧ ((x :: xs).map (impMag (getImp s ch)) = l) ∧ (opensAbove (impTrig s ch) l = true) ∧ (pulseEnd (impTrig s ch) (rval s R.SFE_IMP_CFG_HOLD_OFF 0 ch) l = some l.length) ∧ (l.length ≤ 4096) ∧ ((x :: xs).any impFull = false) ∧ (isPileUp (impTrig s ch) l = false) ∧ (classify s ch (features (impTrig s ch) l) = 0) :=
  meets_kernelCounts

theorem meets_completesImpactStuck : ∃ (s : State) (t : Fc) (ch : Fin 48) (xs : List Int) (l : List Nat),
    (s.fabric = true) ∧ (edgeDue (advance s t) = false) ∧ ((getImp s ch).isOpen = true) ∧ ((xs.take 4096).map (impMag (getImp s ch)) = l) ∧ (opensAbove (impTrig s ch) l = true) ∧ (4096 ≤ l.length) ∧ (pulseEnd (impTrig s ch) (rval s R.SFE_IMP_CFG_HOLD_OFF 0 ch) l = none) ∧ ((xs.take 4096).any impFull = false) ∧ ((getImp s ch).stuckTold = false) :=
  meets_stuckCloses

theorem meets_completesFrqEdge : ∃ (s : State) (t : Fc) (n : Fin 32) (h : Nat),
    (s.fabric = true) ∧ (edgeDue (advance s t) = false) ∧ (rbit s R.SFE_FRQ_CFG_EN 0 n = true) ∧ (inQuad s n = false) ∧ (40 * rget s R.SFE_FRQ_CFG_MIN_PULSE 0 n ≤ h) :=
  meets_edgeRecorded

theorem meets_completesQuadEdge : ∃ (s : State) (t : Fc) (k : Fin 16),
    (s.fabric = true) ∧ (edgeDue (advance s t) = false) ∧ (quadOn s k = true) ∧ ((getQuad s k).a = false) ∧ ((getQuad s k).b = false) :=
  meets_quadForward

theorem meets_completesQuadZero : ∃ (s : State) (t : Fc),
    (s.fabric = true) ∧ (edgeDue (advance s t) = false) :=
  meets_quadZeroed

theorem meets_completesDigDebounceExpiry : ∃ (s : State) (t : Fc) (n : Fin 64),
    (s.fabric = true) ∧ (edgeDue (advance s t) = false) ∧ (rval s R.SFE_GIN_CFG_MODE 0 n = 5) :=
  meets_levelSampled

theorem meets_completesExcFault : ∃ (s : State) (t : Fc) (n : Fin 4) (ma : Nat) (mv : Nat),
    (s.fabric = true) ∧ (edgeDue (advance s t) = false) ∧ (rbit s R.SFE_LCL_CFG_EN 0 n = true) ∧ (60 < ma ∨ mv < 4750) :=
  meets_excitationFails

theorem meets_completesSsupFaultOff : ∃ (s : State) (t : Fc) (n : Fin 8) (ma : Nat) (mv : Nat) (a : Nat),
    (s.fabric = true) ∧ (edgeDue (advance s t) = false) ∧ ((getSsup s n).on = true) ∧ (360 < ma ∨ mv * 10 < ssupMv s n * 9) ∧ (a + 400000 ≤ max s.now t) ∧ (((getSsup s n).offTimes.filter fun x => decide (max s.now t < x + 10 * 400000000)).length < 2) :=
  meets_supplyTrips

theorem meets_completesSsupRestart : ∃ (s : State) (t : Fc) (n : Fin 8) (a : Nat),
    (s.fabric = true) ∧ (edgeDue (advance s t) = false) ∧ ((getSsup s n).restartAt = some a) ∧ (a ≤ max s.now t) :=
  meets_supplyRestarts

theorem meets_completesSsupEnable : ∃ (s : State) (t : Fc) (n : Fin 8),
    (s.fabric = true) ∧ (edgeDue (advance s t) = false) ∧ (rbit s R.SFE_SSUP_CFG_EN 0 n = false) :=
  meets_supplyReleased

theorem meets_completesConverterSwap : ∃ (s : State) (t : Fc) (b : Fin 14) (g : Nat) (o : Nat),
    (s.fabric = true) ∧ (rbit s R.SFE_CTRL_BG_CAL_EN = true) ∧ (bitOf (rget s R.SFE_CAL_STAT_RETIRED) b = false) ∧ (tblGetD s.sfe.lastSwap b 0 + rval s R.SFE_CAL_CFG_PERIOD_S * 400000000 ≤ max s.now t) ∧ (g ≤ 200) ∧ (o ≤ (if b.val < 6 then 64 else 8)) :=
  meets_converterRotates

theorem meets_completesZtSettleExpiry : ∃ (s : State) (t : Fc) (a : Nat),
    (s.fabric = true) ∧ (edgeDue (advance s t) = false) ∧ (s.sfe.zt.since = some a) ∧ (s.sfe.zt.window = none) ∧ (a + rget s R.SFE_ZT_TIMES_SETTLE_MS * 400000 ≤ max s.now t) :=
  meets_trackSettles

theorem meets_completesZtWindowEnd : ∃ (s : State) (t : Fc) (a : Nat),
    (s.fabric = true) ∧ (edgeDue (advance s t) = false) ∧ (s.sfe.zt.window = some a) ∧ (a + rval s R.SFE_ZT_TIMES_WINDOW_MS * 400000 ≤ max s.now t) ∧ (s.sfe.zt.n ≠ 0) :=
  meets_trackWindowEnds

theorem meets_completesDrvProfile : ∃ (s : State) (ch : Fin 96) (q : Passed) (d : Nat) (n : Nat) (h : Nat),
    ((getPps s (ch.val / 48)).powered = true) ∧ (((getPps s (ch.val / 48)).passed.find? fun x => OutCmd.isDrv ch x.cmd) = some q) ∧ (q.cmd = .drv ch (.profile d n h)) ∧ (q.bankBit = false) ∧ (n ≠ 0) ∧ (dval s R.DBK_CH_CFG_MODE ch = 1) ∧ ((getDrv s ch).prof = none) ∧ (drvLatched s ch = false) ∧ (rbit s R.DBK_CTRL_ENABLE (ch.val / 8) = true) ∧ (q.ref = none ∨ commanding s = true) ∧ (q.staged = true ∨ dbit s R.DBK_CH_CFG_OWNER ch = false) :=
  meets_profileStarts

theorem meets_completesDrvProp : ∃ (s : State) (ch : Fin 96) (q : Passed) (m : Nat) (hz : Nat) (am : Nat),
    ((getPps s (ch.val / 48)).powered = true) ∧ (((getPps s (ch.val / 48)).passed.find? fun x => OutCmd.isDrv ch x.cmd) = some q) ∧ (q.cmd = .drv ch (.prop m (some (hz, am)))) ∧ (q.bankBit = false) ∧ (m ≤ 3500) ∧ (hz ≤ 400) ∧ (am ≤ 500) ∧ (dval s R.DBK_CH_CFG_MODE ch = 2) ∧ (drvLatched s ch = false) ∧ (rbit s R.DBK_CTRL_ENABLE (ch.val / 8) = true) ∧ (q.ref = none ∨ commanding s = true) ∧ (q.staged = true ∨ dbit s R.DBK_CH_CFG_OWNER ch = false) :=
  meets_propSets

theorem meets_completesDrvOff : ∃ (s : State) (ch : Fin 96) (q : Passed),
    ((getPps s (ch.val / 48)).powered = true) ∧ (((getPps s (ch.val / 48)).passed.find? fun x => OutCmd.isDrv ch x.cmd) = some q) ∧ (q.cmd = .drv ch .off) ∧ (q.bankBit = false) ∧ (rbit s R.DBK_CTRL_ENABLE (ch.val / 8) = true) ∧ (q.ref = none ∨ commanding s = true) ∧ (q.staged = true ∨ dbit s R.DBK_CH_CFG_OWNER ch = false) ∧ (dval s R.DBK_CH_CFG_MODE ch = 1 ∨ dval s R.DBK_CH_CFG_MODE ch = 2) :=
  meets_offDecays

theorem meets_completesDrvClear : ∃ (s : State) (ch : Fin 96) (q : Passed),
    ((getPps s (ch.val / 48)).powered = true) ∧ (((getPps s (ch.val / 48)).passed.find? fun x => OutCmd.isDrv ch x.cmd) = some q) ∧ (q.cmd = .drv ch (.clear false)) ∧ (q.bankBit = false) ∧ (rbit s R.DBK_CTRL_ENABLE (ch.val / 8) = true) ∧ (q.ref = none) ∧ (dbit s R.DBK_CH_STAT_LATCHED ch = true) :=
  meets_clearReleases

theorem meets_completesBoostRequest : ∃ (s : State) (ch : Fin 96),
    ((getPps s (ch.val / 48)).powered = true) :=
  meets_boostAsked

theorem meets_completesBoostGapExpiry : ∃ (s : State) (t : Fc) (b : Fin 12) (c : Nat) (p : DrvProf),
    ((getPps s (b.val / 6)).powered = true) ∧ ((getPps s (b.val / 6)).passed = []) ∧ (∀ c ∈ bankChans b, (getDrv s c).nextShot = none ∧ (getDrv s c).prof.all (fun x => x.requested) = true) ∧ (hsvOn s b = false) ∧ ((getDbk s b).hsvFrom ≤ max s.now t) ∧ (nextBoost s b = some c) ∧ (c / 8 = b.val) ∧ ((getDrv s c).prof = some p) :=
  meets_gapGrants

theorem meets_completesBoostWaitExpiry : ∃ (s : State) (t : Fc) (ch : Fin 96) (p : DrvProf),
    ((getPps s (ch.val / 48)).powered = true) ∧ ((getPps s (ch.val / 48)).passed = []) ∧ (∀ c ∈ bankChans (ch.val / 8), (getDrv s c).nextShot = none ∧ (getDrv s c).prof.all (fun x => x.requested) = true) ∧ (hsvOn s (ch.val / 8) = true) ∧ (drvPhase s ch = 1) ∧ ((getDrv s ch).prof = some p) ∧ (p.requested = true) ∧ (p.reqStart + dval s R.DBK_CH_CFG_BOOST_WAIT ch * 400 ≤ max s.now t) :=
  meets_waitDrops

theorem meets_completesBoostCurrentReached : ∃ (s : State) (t : Fc) (ch : Fin 96) (l : List Nat) (a : State) (p : DrvProf) (m : Nat),
    ((getPps s (ch.val / 48)).powered = true) ∧ (drvTrace (advance s t) ch (stepNow (advance s t) ch) l = a) ∧ (drvPhase a ch = 2) ∧ ((getDrv a ch).prof = some p) ∧ (hasHsv a ch = true) ∧ (dget a R.DBK_CH_PEAK_T_PEAK_US ch ≠ 0) ∧ (maNow a ch = some m) ∧ ((boostLevel a ch).1 ≤ m) :=
  meets_currentReached

theorem meets_completesTBoostExpiry : ∃ (s : State) (t : Fc) (ch : Fin 96) (l : List Nat) (a : State) (p : DrvProf) (x : Nat),
    ((getPps s (ch.val / 48)).powered = true) ∧ (drvTrace (advance s t) ch (stepNow (advance s t) ch) l = a) ∧ (drvPhase a ch = 2) ∧ ((getDrv a ch).prof = some p) ∧ (hasHsv a ch = true) ∧ (dget a R.DBK_CH_PEAK_T_PEAK_US ch ≠ 0) ∧ (p.start = some x) ∧ (x + dval a R.DBK_CH_BOOST_T_BOOST_US ch * 400 ≤ max s.now t) ∧ (maNow a ch = none ∨ ∃ m < (boostLevel a ch).1, maNow a ch = some m) :=
  meets_boostTimesOut

theorem meets_completesTPeakExpiry : ∃ (s : State) (t : Fc) (ch : Fin 96) (l : List Nat) (a : State) (p : DrvProf) (x : Nat),
    ((getPps s (ch.val / 48)).powered = true) ∧ (drvTrace (advance s t) ch (stepNow (advance s t) ch) l = a) ∧ (drvPhase a ch = 3) ∧ ((getDrv a ch).prof = some p) ∧ (p.peakStart = some x) ∧ (x + dget a R.DBK_CH_PEAK_T_PEAK_US ch * 400 ≤ max s.now t) :=
  meets_peakEnds

theorem meets_completesProfileEndTime : ∃ (s : State) (t : Fc) (ch : Fin 96) (l : List Nat) (a : State) (p : DrvProf) (e : Nat),
    ((getPps s (ch.val / 48)).powered = true) ∧ (drvTrace (advance s t) ch (stepNow (advance s t) ch) l = a) ∧ (drvPhase a ch = 4) ∧ ((getDrv a ch).prof = some p) ∧ (p.endAt = some e) ∧ (e ≤ max s.now t) :=
  meets_profileEnds

theorem meets_completesDecayEnd : ∃ (s : State) (t : Fc) (ch : Fin 96) (l : List Nat) (a : State) (m : Nat),
    ((getPps s (ch.val / 48)).powered = true) ∧ (drvTrace (advance s t) ch (stepNow (advance s t) ch) l = a) ∧ (drvPhase a ch = 6) ∧ (maNow a ch = some m) ∧ (m < 50) :=
  meets_decayEnds

theorem meets_completesMovementDetected : ∃ (s : State) (ch : Fin 96),
    ((getPps s (ch.val / 48)).powered = true) :=
  meets_moveTraced

theorem meets_completesShotDue : ∃ (s : State) (t : Fc) (ch : Fin 96) (d : Nat),
    ((getPps s (ch.val / 48)).powered = true) ∧ ((getDrv s ch).nextShot = some d) ∧ (d ≤ max s.now t) ∧ (drvLatched s ch = false) ∧ ((getDrv s ch).prof = none) :=
  meets_shotStarts

theorem meets_completesHoldFloorHit : ∃ (s : State) (t : Fc) (ch : Fin 96) (l : List Nat) (a : State) (m : Nat),
    ((getPps s (ch.val / 48)).powered = true) ∧ (drvTrace (advance s t) ch (stepNow (advance s t) ch) l = a) ∧ (drvForced a ch = true) ∧ (m < dget a R.DBK_CH_HOLD_HOLD_FLOOR_MA ch) ∧ (maNow a ch = some m) ∧ ((getDrv a ch).floorDone = false) :=
  meets_floorHits

theorem meets_completesOffDiagSample : ∃ (s : State) (t : Fc) (ch : Fin 96) (vl : Nat) (vh : Nat) (k : Nat),
    ((getPps s (ch.val / 48)).powered = true) ∧ (dbit s R.DBK_CH_DIAG_CFG_OFF_DIAG_EN ch = true) ∧ (drvPhase s ch = 0) ∧ ((getDrv s ch).since + 200000 ≤ max s.now t) ∧ (offCode (highSideClosed s (ch.val / 8)) vl vh = some k) ∧ ((getDrv s ch).diag.2 = 0) ∧ ((getDrv s ch).diagAt < (getDrv s ch).since) :=
  meets_offSampleCounts

theorem meets_completesDrvChFault : ∃ (s : State) (t : Fc) (ch : Fin 96) (k : Fin 8) (v : Nat) (a : Nat) (ds : Bool),
    ((getPps s (ch.val / 48)).powered = true) ∧ (onFault (advance s t) ch k v a ds = true) ∧ (k.val ≠ 5 ∨ rbit s R.DBK_CTRL_SCG_CUT (ch.val / 8) = false) :=
  meets_channelLatches

theorem meets_completesDrvOnOpenLoad : ∃ (s : State) (t : Fc) (ch : Fin 96) (l : List Nat) (a : State) (m : Nat),
    ((getPps s (ch.val / 48)).powered = true) ∧ (drvTrace (advance s t) ch (stepNow (advance s t) ch) l = a) ∧ (drvPhase a ch = 5) ∧ (2 * dget a R.DBK_CH_DIAG_CFG_OPEN_MA ch ≤ (getDrv a ch).propMa) ∧ ((getDrv a ch).levelAt + 20000 ≤ max s.now t) ∧ (maNow a ch = some m) ∧ (m < dget a R.DBK_CH_DIAG_CFG_OPEN_MA ch) ∧ (dget a R.DBK_CH_STAT_FAULT ch ≤ 4) :=
  meets_openLoadFound

theorem meets_completesDbkBankFault : ∃ (s : State) (t : Fc) (b : Fin 12) (v : Nat) (a : Nat),
    ((getPps s (b.val / 6)).powered = true) ∧ (70000 < v) ∧ (a + 800 ≤ max s.now t) ∧ (rbit s R.DBK_STATUS_LATCHED b = false) :=
  meets_bankLatches

theorem meets_completesBankCheck : ∃ (s : State) (b : Fin 12),
    ((getPps s (b.val / 6)).powered = true) ∧ (firstFail s b = none) :=
  meets_bankAdmits

theorem meets_completesDerateApply : ∃ (s : State) (b : Fin 12) (x : Nat) (y : Nat),
    ((getPps s (b.val / 6)).powered = true) ∧ ((getDbk s b).derate = some (x, y)) ∧ (bankOff s b = true) :=
  meets_limitsApply

theorem meets_completesSwSet : ∃ (s : State) (t : Fc) (ch : Fin 96) (q : Passed) (d : Nat),
    ((getPps s (ch.val / 48)).powered = true) ∧ (((getPps s (ch.val / 48)).passed.find? fun x => OutCmd.isSw ch x.cmd) = some q) ∧ (q.cmd = .sw ch (.set d)) ∧ (d ≤ 1000) ∧ (q.ref = none ∨ commanding s = true) ∧ (q.staged = true ∨ (dbit s R.SBK_CH_CFG_OWNER ch = false ∧ rbit s R.SBK_CTRL_ENABLE (ch.val / 8) = true)) ∧ (swOdd s ch = false) ∧ (swMode s ch = true) ∧ (swStopped s ch = false) ∧ (d = 0 ∨ q.staged = true ∨ swStopped (swAhead (setPps (advance s t) (ch.val / 48) { getPps s (ch.val / 48) with passed := (getPps s (ch.val / 48)).passed.erase q })) ch = false) ∧ ((getFeed s (ch.val / 48)).uv = false) ∧ (swQueued s ch = false) :=
  meets_setApplies

theorem meets_completesSwRearm : ∃ (s : State) (ch : Fin 96) (q : Passed),
    ((getPps s (ch.val / 48)).powered = true) ∧ (((getPps s (ch.val / 48)).passed.find? fun x => OutCmd.isSw ch x.cmd) = some q) ∧ (q.cmd = .sw ch .rearm) ∧ (q.ref = none ∨ commanding s = true) ∧ (swOdd s ch = false) ∧ (swMode s ch = true) ∧ (rbit s R.SBK_CTRL_ENABLE (ch.val / 8) = true) ∧ (swTheta s ch ≤ 1 / 2) :=
  meets_rearmReleases

theorem meets_completesWireModelUpdate : ∃ (s : State) (ch : Fin 96) (own : List Nat) (other : List Nat) (sums : List Nat),
    ((getPps s (ch.val / 48)).powered = true) ∧ (swOdd s ch = false) ∧ (sums = if swEven s ch then (List.range own.length).map (fun n => own.getD n 0 + other.getD n 0) else own) ∧ (((getSw s ch).thf + mkRat 1 (1000 * (wireProfile (dget s R.SBK_CH_CFG_WPROF ch)).2) * (mkRat 2 5 * (meanSquare sums / ((swIEff s ch * swIEff s ch : Nat) : Rat)) - (getSw s ch).thf)) + ((getSw s ch).ths + mkRat 1 (10000 * (wireProfile (dget s R.SBK_CH_CFG_WPROF ch)).2) * (mkRat 3 5 * (meanSquare sums / ((swIEff s ch * swIEff s ch : Nat) : Rat)) - (getSw s ch).ths)) < 1) :=
  meets_wireMoves

theorem meets_completesInrushExpiry : ∃ (s : State) (t : Fc) (ch : Fin 96) (a : Nat),
    ((getPps s (ch.val / 48)).powered = true) ∧ (limitHeld (advance s t) ch (max s.now t) = true) ∧ ((getSw s ch).limitSince = some a) ∧ (a + 4000000 ≤ max s.now t) :=
  meets_inrushTrips

theorem meets_completesInLimit : ∃ (s : State) (t : Fc) (ch : Fin 96),
    ((getPps s (ch.val / 48)).powered = true) ∧ (conducts (advance s t) ch (max s.now t) = true) ∧ (limitHeld (advance s t) ch (max s.now t) = false) :=
  meets_limitReached

theorem meets_completesThermLatchSet : ∃ (s : State) (ch : Fin 96) (j : Int),
    ((getPps s (ch.val / 48)).powered = true) ∧ (170 ≤ j) ∧ (dbit s R.SBK_CH_STAT_THERM_LATCH ch = false) :=
  meets_thermLatches

theorem meets_completesThermLatchClear : ∃ (s : State) (ch : Fin 96) (j : Int),
    ((getPps s (ch.val / 48)).powered = true) ∧ (j < 140) ∧ (∀ c ∈ swMembers s ch, c = ch.val ∨ dget s R.SBK_CH_MODEL_TJ c < 190) ∧ (dbit s R.SBK_CH_STAT_THERM_LATCH ch = true) ∧ (dbit s R.SBK_CH_PROT_POLICY (swLead s ch) = false) ∧ ((getSw s (swLead s ch)).rearmed = false) :=
  meets_thermClears

theorem meets_completesRetryRestart : ∃ (s : State) (t : Fc) (ch : Fin 96),
    ((getPps s (ch.val / 48)).powered = true) ∧ (swOdd s ch = false) ∧ (dbit s R.SBK_CH_STAT_TRIPPED ch = true) ∧ (dbit s R.SBK_CH_PROT_POLICY ch = true) ∧ (swTheta s ch ≤ 1 / 2) ∧ (swQueued s ch = false) ∧ ((getSw s ch).on = false) ∧ (heldNow (advance s t) ch = false) ∧ (dbit s R.SBK_CH_STAT_THERM_LATCH ch = false) ∧ (dbit s R.SBK_CH_STAT_LOCKED ch = false) ∧ ((getFeed s (ch.val / 48)).uv = false) ∧ (dbit s R.SBK_CH_STAT_UV_OFF ch = false) ∧ (dbit s R.SBK_CH_STAT_SHED ch = false) ∧ ((getSw s ch).duty ≠ 0) ∧ ((getSw s ch).barred = false) ∧ (dget s R.SBK_CH_STAT_RETRIES_USED ch < dget s R.SBK_CH_PROT_RETRY_MAX ch) :=
  meets_retryRestarts

theorem meets_completesRetryWindowEnd : ∃ (s : State) (t : Fc) (ch : Fin 96) (w : Nat),
    ((getPps s (ch.val / 48)).powered = true) ∧ ((getSw s ch).window = some w) ∧ (w ≤ max s.now t) :=
  meets_windowEnds

theorem meets_completesOpenLoadDetect : ∃ (s : State) (t : Fc) (ch : Fin 96) (m : Nat) (a : Nat),
    ((getPps s (ch.val / 48)).powered = true) ∧ (swOdd s ch = false) ∧ (dbit s R.SBK_CH_OL_OL_EN ch = true) ∧ ((getSw s ch).on = true) ∧ (shortOn s ch (getSw s ch).duty = false) ∧ (m < dval s R.SBK_CH_OL_OL_MA ch) ∧ ((max a (getSw s ch).onAt) + (getSw s ch).shortTime (max a (getSw s ch).onAt) (max s.now t) + dval s R.SBK_CH_OL_OL_DEBOUNCE_MS ch * 400000 ≤ max s.now t) ∧ (dbit s R.SBK_CH_STAT_OPEN_LOAD ch = false) :=
  meets_openLoadFoundSw

theorem meets_completesOpenLoadClear : ∃ (s : State) (ch : Fin 96) (m : Nat),
    ((getPps s (ch.val / 48)).powered = true) ∧ (dval s R.SBK_CH_OL_OL_MA (swLead s ch) < m) ∧ (shortOn s (swLead s ch) (getSw s (swLead s ch)).duty = false) :=
  meets_openLoadClearsSw

theorem meets_completesFeedUv : ∃ (s : State) (t : Fc) (p : Fin 2) (mv : Nat) (a : Nat),
    ((getPps s p).powered = true) ∧ (mv < uvMv s p) ∧ (a + 20000 ≤ max s.now t) :=
  meets_feedFails

theorem meets_completesUvRestartDelayExpiry : ∃ (s : State) (t : Fc) (p : Fin 2) (mv : Nat) (a : Nat),
    ((getPps s p).powered = true) ∧ ((getFeed s p).uv = true) ∧ (uvMv s p + uvHystMv s p ≤ mv) ∧ ((getFeed s p).fallAt.all (fun x => decide (x ≤ a)) = true) ∧ (a + rval s R.SBK_FEED_UV_RESTART_10MS (feedInst p) * 10 * 400000 ≤ max s.now t) :=
  meets_feedReturns

theorem meets_completesUvRestartStep : ∃ (s : State) (t : Fc) (p : Fin 2) (c0 : Nat) (l : List Nat),
    ((getPps s p).powered = true) ∧ ((getFeed s p).restart = c0 :: l) ∧ ((getFeed s p).restartAt ≤ max s.now t) ∧ ((getFeed s p).uv = false) ∧ (c0 / 48 = p.val) ∧ (c0 ∉ l) ∧ (swOdd s c0 = false) ∧ (swStopped s c0 = false) ∧ (dbit s R.SBK_CH_STAT_UV_OFF c0 = false) ∧ ((getSw s c0).duty ≠ 0) ∧ ((getSw s c0).on = false) ∧ (heldNow (advance s t) c0 = false) ∧ (dget s R.SBK_CH_STAT_RETRIES_USED c0 < dget s R.SBK_CH_PROT_RETRY_MAX c0) :=
  meets_turnComes

theorem meets_completesPlaneShed : ∃ (s : State) (t : Fc) (p : Fin 2) (a : Nat) (n : Nat) (r : Nat),
    ((getPps s p).powered = true) ∧ (rval s R.SBK_FEED_LIMIT_LIMIT_A (feedInst p) < a) ∧ (max n (getFeed s p).shedAt + 2000000 ≤ max s.now t) ∧ (shedRank s p = some r) :=
  meets_rankShed

theorem meets_completesShedRestore : ∃ (s : State) (t : Fc) (p : Fin 2) (a : Nat) (n : Nat) (r : Nat) (l : List Nat),
    ((getPps s p).powered = true) ∧ ((getFeed s p).shed = r :: l) ∧ (10 * a < 9 * rval s R.SBK_FEED_LIMIT_LIMIT_A (feedInst p)) ∧ (max n (getFeed s p).shedAt + 400000000 ≤ max s.now t) :=
  meets_rankRestored

theorem meets_completesPpsArm : ∃ (s : State) (p : Fin 2),
    ((getPps s p).powered = true) ∧ (s.fabric = true) ∧ (planeArmed s p = false) ∧ (ppsLoading s p = false) ∧ (∀ k < 6, rbit s R.DBK_CTRL_ENABLE (6 * p + k) = true → firstFail s (6 * p + k) = none) ∧ (holdCondition s p = true) ∧ (safeValuesOk s p = true) ∧ (lcState s ≠ 4) :=
  meets_ppsArms

theorem meets_completesPpsDisarm : ∃ (s : State) (p : Fin 2),
    ((getPps s p).powered = true) ∧ (s.fabric = true) ∧ (planeArmed s p = true) ∧ (ppsLoading s p = false) :=
  meets_ppsDisarms

theorem meets_completesSafeNow : ∃ (s : State) (p : Fin 2),
    ((getPps s p).powered = true) ∧ (s.fabric = true) ∧ (ppsLoading s p = false) ∧ (planeArmed s p = true) ∧ ((getPps s p).live = true) :=
  meets_safeNowActs

theorem meets_completesClearBid : ∃ (s : State) (p : Fin 2),
    ((getPps s p).powered = true) ∧ (s.fabric = true) ∧ (planeArmed s p = false) ∧ (lcState s = 0 ∨ lcState s = 3) :=
  meets_bidCleared

theorem meets_completesHoldingTimeout : ∃ (s : State) (t : Fc) (p : Fin 2),
    ((getPps s p).powered = true) ∧ ((getPps s p).live = true) ∧ (2 * (getPps s p).contactAt + 3 * ppsPeriod s p ≤ 2 * (max s.now t)) :=
  meets_holdingSets

theorem meets_completesHoldWindowExpiry : ∃ (s : State) (t : Fc) (p : Fin 2) (d : Bool) (n : Fin 48) (k : Nat),
    ((getPps s p).powered = true) ∧ (planeArmed s p = true) ∧ ((getPps s p).live = true) ∧ (commitNow (advance s t) p = false) ∧ (k = (if d then n.val else 48 + n.val)) ∧ (k ∉ (getPps s p).expired) ∧ (2 * ((getPps s p).contactAt + holdWindowUs (holdRows s p d n) (rget s R.PPS_STATUS_TICK_US p) * 400) + ppsPeriod s p ≤ 2 * (max s.now t)) :=
  meets_windowExpires

theorem meets_completesPlaneSupervisorPowerLoss : ∃ (s : State) (p : Fin 2),
    ((getPps s p).powered = true) :=
  meets_supplyLost

theorem meets_completesPlaneSupervisorPowerUp : ∃ (s : State) (p : Fin 2),
    ((getPps s p).powered = false) :=
  meets_supplyBack

theorem meets_completesCommitRx : ∃ (s : State) (t : Fc) (p : Fin 2) (b : Nat),
    ((getPps s p).powered = true) ∧ (ppsLoading s p = false) ∧ ((max (rget s R.PPS_HIGHEST_BID p) (takeoverNow (advance s t) p)) ≤ b) :=
  meets_commitTaken

theorem meets_completesTakeoverRx : ∃ (s : State) (p : Fin 2) (b : Nat),
    ((getPps s p).powered = true) ∧ (ppsLoading s p = false) ∧ (rget s R.PPS_HIGHEST_BID p < b) :=
  meets_takeoverRaises

theorem meets_completesFenceAckRx : ∃ (s : State),
    (s.fabric = true) ∧ (role s = 2) ∧ (s.xlk.fencedOut = false) :=
  meets_fencedPrimary

theorem meets_completesHeartbeatRx : ∃ (s : State) (h : Heartbeat),
    (s.fabric = true) ∧ (pairEn s = true) ∧ (h.stopped = false) ∧ (h.role = 2 ∨ h.role = 4 ∨ s.xlk.handover = []) :=
  meets_heartbeatHeard

theorem meets_completesMirrorRx : ∃ (s : State),
    (s.fabric = true) ∧ (role s = 3 ∨ role s = 4) :=
  meets_mirrorKept

theorem meets_completesHealthRx : ∃ (s : State) (l : List Nat),
    (s.fabric = true) ∧ (∀ x ∈ l, x < 2 ^ 32) :=
  meets_healthKept

theorem meets_completesResyncRx : ∃ (s : State) (t : Fc) (i : ResyncItem),
    (s.fabric = true) ∧ (edgeDue (advance s t) = false) ∧ (role s = 3 ∨ role s = 4) ∧ (i ≠ .confirm) ∧ (i ≠ .pull) ∧ (i ≠ .dated) :=
  meets_itemApplied

theorem meets_completesServiceRx : ∃ (s : State),
    (s.fabric = true) :=
  meets_serviceKept

theorem meets_completesXlkBadFrame : ∃ (s : State) (l : List Nat),
    (s.fabric = true) ∧ (l.getLast? ≠ some (crc32 (linkBytes l.dropLast)) ∨ l.getD 0 0 ≠ (rget s R.XLK_PAIR_ID_PAIR_ID)) :=
  meets_badFrameCounts

theorem meets_completesXlkLinkUp : ∃ (s : State),
    (s.fabric = true) :=
  meets_xlkRises

theorem meets_completesXlkLinkDown : ∃ (s : State),
    (s.fabric = true) :=
  meets_xlkFalls

theorem meets_completesHealthTx : ∃ (s : State) (t : Fc),
    (s.fabric = true) ∧ (pairEn s = true) ∧ (moduleTime (advance s t) / 1000000000 ≠ s.xlk.healthAt) :=
  meets_healthSent

theorem meets_completesPairHandover : ∃ (s : State) (t : Fc) (r : Ref) (d : Desc) (h : Heartbeat),
    (s.fabric = true) ∧ (heldDesc s r 0xB 0x40 = some d) ∧ (due (advance s t) d = true) ∧ (role s = 2) ∧ (s.xlk.lastHb = some h) ∧ (h.role = 4) ∧ (rbit s R.XLK_ROLE_PARTNER_LOST = false) :=
  meets_handoverOffered

theorem meets_completesHandoverTimeout : ∃ (s : State) (r : Ref) (row : Nat),
    (s.fabric = true) ∧ (s.xlk.handover = [(r, row)]) ∧ (row + rval s R.XLK_PAIR_CFG_HB_MISS + 1 < rowNow s) ∧ (s.xlk.fencedOut = false) :=
  meets_handoverExpires

theorem meets_completesStartingListenExpiry : ∃ (s : State),
    (s.fabric = true) ∧ (role s = 1) ∧ (s.xlk.startRow + rval s R.XLK_PAIR_CFG_HB_MISS + 2 ≤ rowNow s) ∧ (s.xlk.lastHb = none) ∧ (rbit s R.XLK_PAIR_CFG_ALONE_OK = true) :=
  meets_aloneBecomesPrimary

theorem meets_completesShadowRow : ∃ (s : State) (t : Fc) (h : Heartbeat) (a : State) (r : State × Nat),
    (s.fabric = true) ∧ (role s = 3 ∨ role s = 4) ∧ (s.xlk.shadowed = false) ∧ (s.xlk.lastHb = some h) ∧ (h.role = 2) ∧ (h.mirrorCount = 0 ∨ (s.xlk.mirrorRow = h.row ∧ h.mirrorCount ≤ s.xlk.mirrorGot)) ∧ (h.overrun = false) ∧ (h.stopped = false) ∧ (h.disarmed = false) ∧ (a = (shadowEpoch (applyInbox { advance s t with xlk := { s.xlk with shadowed := true } } h.row) h.epoch)) ∧ (r = shadowRun a h) :=
  meets_rowShadowed

theorem meets_completesForwardConfirmTimeout : ∃ (s : State) (t : Fc) (f : Forwarded) (l : List Forwarded),
    (s.fabric = true) ∧ (edgeDue (advance s t) = false) ∧ (s.xlk.forwards = f :: l) ∧ (f.sentAt + 40000000 ≤ max s.now t) :=
  meets_forwardReleased

theorem meets_completesNavSearch : ∃ (s : State) (t : Fc) (r : Ref) (d : Desc),
    (s.fabric = true) ∧ (heldDesc s r 0xB 0x51 = some d) ∧ (due (advance s t) d = true) ∧ (searchRoom s (bitOf d.classWord 16) = true) :=
  meets_searchStarts

theorem meets_completesAcqSearchDone : ∃ (s : State) (t : Fc) (r : Ref) (x : NavSearch) (a : SatAid) (f : Bool),
    (s.fabric = true) ∧ (s.nav.searches.find? (fun x => x.ref == r) = some x) ∧ (searchFound (advance s t) x.mode x.sig x.sat a f = false) :=
  meets_searchFails

theorem meets_completesChannelLockLoss : ∃ (s : State) (b : Bool),
    (s.fabric = true) ∧ (b = false ∨ rbit s R.NAV_CTRL_HEADING_EN = false) :=
  meets_lockLost

theorem meets_completesRtcmIn : ∃ (s : State) (t : Fc) (r : Ref) (d : Desc),
    (s.fabric = true) ∧ (heldDesc s r 0xB 0x50 = some d) ∧ (due (advance s t) d = true) ∧ (1 ≤ (d.word 0x18 % 65536)) ∧ ((d.word 0x18 % 65536) ≤ 4096) ∧ (rbit s R.NAV_CTRL_RTK_EN = true) :=
  meets_rtcmTaken

theorem meets_completesNavFilterStep : ∃ (s : State) (t : Fc),
    (s.fabric = true) ∧ (s.nav.stepNext ≤ moduleTime (advance s t)) :=
  meets_recordMade

theorem meets_completesDrTimeout : ∃ (s : State) (t : Fc),
    (s.fabric = true) ∧ (s.nav.record.fix = 5) ∧ (drMaxFc s ≤ outageFc (advance s t)) :=
  meets_outageEnds

theorem meets_completesCorrAgeExpiry : ∃ (s : State) (t : Fc),
    (s.fabric = true) ∧ (s.nav.record.fix = 3 ∨ s.nav.record.fix = 4) ∧ (rtkOk (advance s t) = false) :=
  meets_correctionsOld

theorem meets_completesAntOpen : ∃ (s : State) (b : Bool),
    (s.fabric = true) ∧ (supplyOn s b = true) ∧ (rbit s (antOpenFld b) = false) :=
  meets_antennaOpens

theorem meets_completesAntShort : ∃ (s : State) (b : Bool),
    (s.fabric = true) ∧ (supplyOn s b = true) ∧ (rbit s (antShortFld b) = false) :=
  meets_antennaShorts

theorem meets_completesAntSupplyRetry : ∃ (s : State) (t : Fc) (b : Bool) (a : Nat),
    (s.fabric = true) ∧ (tblGet? s.nav.supplyOff (b2n b) = some a) ∧ (a + 400000000 ≤ max s.now t) :=
  meets_retryWorks

theorem meets_completesNavSave : ∃ (s : State) (t : Fc),
    (s.fabric = true) ∧ (1 ≤ s.nav.record.fix) ∧ (s.nav.record.fix ≤ 4) ∧ (s.nav.savedAt + 600 * 400000000 ≤ max s.now t) :=
  meets_navSaves

theorem meets_completesTimeSolution : ∃ (s : State) (d : Int) (q : Bool) (a : Option Int) (b : Option Int) (n : Nat) (far : Bool),
    (s.fabric = true) ∧ (rbit s R.NAV_CTRL_EN = true) ∧ ((a = some d ∧ q = false) ∨ (a = none ∧ b = some d ∧ rbit s R.NAV_CTRL_ANT_B_EN = true ∧ q = true)) ∧ (s.nav.started = true ∨ far = false) ∧ (n ≤ 100) ∧ (rget s R.NAV_STATE_TIME_STATE = 0) :=
  meets_firstSolution

theorem meets_completesLeapDecode : ∃ (s : State),
    (s.fabric = true) :=
  meets_leapKnown

theorem meets_completesHoldoverEntry : ∃ (s : State) (t : Fc),
    (s.fabric = true) ∧ (rget s R.NAV_STATE_TIME_STATE = 1 ∨ rget s R.NAV_STATE_TIME_STATE = 3) ∧ (s.nav.solAt + 400000000 ≤ max s.now t) :=
  meets_holdoverBegins

theorem meets_completesPulseBoundary : ∃ (s : State) (t : Fc),
    (s.fabric = true) ∧ (tpNext s ≤ moduleTime (advance s t)) ∧ (rget s R.NAV_STATE_TIME_STATE ≠ 2) ∧ (boundaryDelta (advance s t) = none) :=
  meets_boundaryPasses

theorem meets_completesSlewComplete : ∃ (s : State) (t : Fc),
    (s.fabric = true) ∧ (rget s R.NAV_STATE_TIME_STATE = 3) ∧ (slewLeft (advance s t) = 0) :=
  meets_slewEnds

theorem meets_completesMapExtract : ∃ (s : State) (t : Fc) (x : Extract) (l : List Extract) (b : HistPos) (a : HistPos) (e : Nat),
    (s.fabric = true) ∧ (s.sto.samples = x :: l) ∧ (x.q00Bad = false) ∧ (s.sto.prevEdge = some e) ∧ (e ≤ x.edge) ∧ (x.edge ≤ e + 100000000) ∧ (travelDelay s x.q00 ≤ x.edge) ∧ (bracket (enterHistory (advance s t) x) (x.edge - travelDelay s x.q00) = some (b, a)) ∧ (b.recording = true) ∧ (b.sections ≠ 0) ∧ ((needTiles (enterHistory (advance s t) x) (stripTiles (stripsOf (enterHistory (advance s t) x) (pointAt b a (x.edge - travelDelay s x.q00)) b.heading b.sections))).2 = true) :=
  meets_extractMapped

theorem meets_completesTileLoad : ∃ (s : State) (t : Fc) (r : Ref) (d : Desc) (k : Nat) (c : CacheSlot),
    (s.fabric = true) ∧ (heldDesc s r 0xB 0x60 = some d) ∧ (due (advance s t) d = true) ∧ (tileError s (d.quad 0x10) = none) ∧ (cacheFind s (d.quad 0x10) = some (k, c)) ∧ (c.loading = false) :=
  meets_loadCached

theorem meets_completesTileWrite : ∃ (s : State) (t : Fc) (r : Ref) (d : Desc) (img : List Nat) (k : Nat) (c : CacheSlot),
    (s.fabric = true) ∧ (heldDesc s r 0xB 0x61 = some d) ∧ (due (advance s t) d = true) ∧ (tileError s (d.quad 0x10) = none) ∧ (tileKind (d.quad 0x10) = 3) ∧ (tileImageOk s (d.quad 0x10) img = true) ∧ (cacheFind s (d.quad 0x10) = some (k, c)) ∧ (c.loading = false) ∧ (tblGet? s.sto.cache k = some c) ∧ (tblSorted s.sto.cache = true) ∧ (tblSorted c.tile.cells = true) :=
  meets_tileWritten

theorem meets_completesTileFlush : ∃ (s : State) (t : Fc) (r : Ref) (d : Desc),
    (s.fabric = true) ∧ (heldDesc s r 0xB 0x62 = some d) ∧ (due (advance s t) d = true) ∧ (cacheBase s ≠ 0) ∧ (keyWithheld s 4 = false) ∧ (∀ p ∈ s.sto.cache, slotDirty p.2 = false) :=
  meets_nothingDirty

theorem meets_completesTileFlushDue : ∃ (s : State) (t : Fc) (k : Fin 4096) (c : CacheSlot) (a : Nat),
    (s.fabric = true) ∧ (keyWithheld s 4 = false) ∧ (tblGet? s.sto.cache k = some c) ∧ (c.dirty = some a) ∧ (c.flushing = none) ∧ (c.loading = false) ∧ (a + rval s R.STO_FLUSH_FLUSH_S * 400000000 ≤ max s.now t) :=
  meets_flushFallsDue

theorem meets_completesTileLoadDone : ∃ (s : State) (t : Fc) (k : Fin 4096) (c : CacheSlot),
    (s.fabric = true) ∧ (tblGet? s.sto.cache k = some c) ∧ (c.loading = true) ∧ (storeTurn (advance s t) = some 3) :=
  meets_loadEnds

theorem meets_completesTileFlushDone : ∃ (s : State) (t : Fc) (k : Fin 4096) (c : CacheSlot) (im : Tile),
    (s.fabric = true) ∧ (tblGet? s.sto.cache k = some c) ∧ (c.flushing = some im) ∧ (storeTurn (advance s t) = some 0 ∨ storeTurn (advance s t) = some 3) :=
  meets_flushEnds

theorem meets_completesTileRefresh : ∃ (s : State) (t : Fc) (id : Nat) (x : Stored),
    (s.fabric = true) ∧ (tblGet? s.sto.map id = some x) ∧ (s.sto.refreshAt.all (fun a => a + 4000000000 ≤ max s.now t) = true) ∧ (storeTurn (advance s t) = none) ∧ (keyWithheld s 4 = false) ∧ (x.at_ + 365 * 86400 * 1000000000 < moduleTime (advance s t)) :=
  meets_oldTileRefreshed

theorem meets_completesStoreRead : ∃ (s : State) (t : Fc) (r : Ref) (d : Desc),
    (s.fabric = true) ∧ (heldDesc s r 0xB 0x64 = some d) ∧ (due (advance s t) d = true) ∧ (storeFirst (advance s t) r = true) ∧ (1 ≤ (d.word 0x1C % 65536)) ∧ ((d.word 0x1C % 65536) ≤ 256) ∧ (d.word 0x18 + (d.word 0x1C % 65536) ≤ partMib (d.classWord % 16) * 256) ∧ (3 ≤ (d.classWord % 16)) ∧ ((d.classWord % 16) ≤ 6) ∧ (keyWithheld s (d.classWord % 16) = false) :=
  meets_readBegins

theorem meets_completesStoreWrite : ∃ (s : State) (t : Fc) (r : Ref) (d : Desc),
    (s.fabric = true) ∧ (heldDesc s r 0xB 0x65 = some d) ∧ (due (advance s t) d = true) ∧ (storeFirst (advance s t) r = true) ∧ (1 ≤ (d.word 0x1C % 65536)) ∧ ((d.word 0x1C % 65536) ≤ 256) ∧ (d.word 0x18 + (d.word 0x1C % 65536) ≤ partMib (d.classWord % 16) * 256) ∧ ((d.classWord % 16) = 5 ∨ (d.classWord % 16) = 6) ∧ (keyWithheld s (d.classWord % 16) = false) ∧ (s.sto.dayStart.all (fun a => moduleTime (advance s t) < a + 86400 * 1000000000) = true) ∧ (s.sto.dayBytes + (d.word 0x1C % 65536) * 4096 ≤ (rget s R.STO_WRITE_BUDGET_MIB_DAY * 1048576)) :=
  meets_writeBegins

theorem meets_completesStoreAccessDone : ∃ (s : State) (t : Fc) (j : StoreJob) (l : List StoreJob),
    (s.fabric = true) ∧ (s.sto.jobs = j :: l) ∧ (storeAlone (advance s t) j.ref = true) ∧ (j.write = true) :=
  meets_storeWritten

theorem meets_completesStoreLifePoll : ∃ (s : State) (t : Fc) (a : Nat) (e : Nat),
    (s.fabric = true) ∧ (s.sto.pollAt.all (fun a => a + 3600 * 400000000 ≤ max s.now t) = true) ∧ (e % 4 < 2 ∨ e % 4 = rget s R.STO_LIFE_PRE_EOL) :=
  meets_lifePolled

theorem meets_completesWriteBudgetDayEnd : ∃ (s : State) (t : Fc) (a : Nat),
    (s.fabric = true) ∧ (s.sto.dayStart = some a) ∧ (a + 86400 * 1000000000 ≤ moduleTime (advance s t)) :=
  meets_budgetDayEnds

theorem meets_completesWriteInline : ∃ (s : State) (t : Fc) (r : Ref) (d : Desc),
    (s.fabric = true) ∧ (heldDesc s r 0xA 1 = some d) ∧ (due (advance s t) d = true) ∧ (writeFirst (advance s t) r = true) ∧ (1 ≤ d.word 0x30 % 16) ∧ (d.word 0x30 % 16 ≤ 8) ∧ (d.classWord % 4 = 0) ∧ (d.classWord + (4 * (d.word 0x30 % 16)) ≤ 0x2000000) ∧ (∀ p ∈ pagesOf d.classWord (4 * (d.word 0x30 % 16)), tblGetD s.sto.pages p 0 < pageLimit (advance s t)) :=
  meets_inlineBegins

theorem meets_completesJrnWrite : ∃ (s : State) (t : Fc) (r : Ref) (d : Desc),
    (s.fabric = true) ∧ (heldDesc s r 0xA 2 = some d) ∧ (due (advance s t) d = true) ∧ (writeFirst (advance s t) r = true) ∧ ((d.word 0x18) % 4 = 0) ∧ (1 ≤ (d.word 0x18)) ∧ ((d.word 0x18) ≤ 65536) ∧ (d.classWord % 4 = 0) ∧ (d.classWord + (d.word 0x18) ≤ 0x2000000) ∧ (∀ p ∈ pagesOf d.classWord (d.word 0x18), tblGetD s.sto.pages p 0 < pageLimit (advance s t)) :=
  meets_writeOfBuffer

theorem meets_completesJrnRead : ∃ (s : State) (t : Fc) (r : Ref) (d : Desc),
    (s.fabric = true) ∧ (heldDesc s r 0xA 3 = some d) ∧ (due (advance s t) d = true) ∧ ((d.word 0x18) % 4 = 0) ∧ (1 ≤ (d.word 0x18)) ∧ ((d.word 0x18) ≤ 65536) ∧ (d.classWord % 4 = 0) ∧ (d.classWord + (d.word 0x18) ≤ 0x4000000) :=
  meets_journalRead

theorem meets_completesJrnAccessDone : ∃ (s : State) (j : JrnJob) (l : List JrnJob),
    (s.fabric = true) ∧ (s.sto.jrnJobs = j :: l) ∧ (j.write = true) ∧ (0x2000000 ≤ j.off) ∧ (j.off + j.data.length ≤ 0x4000000) ∧ (Memory.wf s.sto.soft = true) :=
  meets_journalDurable

theorem meets_completesJovfCopy : ∃ (s : State) (t : Fc),
    (s.fabric = true) ∧ (s.log.copied + 128 ≤ s.log.written) ∧ (storeTurn (advance s t) ≠ some 0) ∧ (keyWithheld s 3 = false) :=
  meets_overflowCopied

theorem meets_completesCamEnable : ∃ (s : State) (p : Fin 4),
    (s.fabric = true) ∧ (camOn s p = false) ∧ (camError s p = 0) :=
  meets_portEnabled

theorem meets_completesCamDisable : ∃ (s : State) (p : Fin 4),
    (s.fabric = true) ∧ (camOn s p = true) :=
  meets_portDisabled

theorem meets_completesCamFs : ∃ (s : State) (p : Fin 4) (h : Fin 3) (k : Nat),
    (s.fabric = true) ∧ (p ≠ 0) ∧ (h ≠ 2) ∧ (camOn s p = true) ∧ (rbit s R.CAM_CTRL_LINK_UP p = true) ∧ ((getCam s p).cur = none) ∧ (nextSlot s p = some k) :=
  meets_frameTakesSlot

theorem meets_completesCamLine : ∃ (s : State) (t : Fc) (p : Fin 4) (dt : Fin 64) (h : Fin 3) (px : List Nat) (f : CamFrame) (g : CamFrame) (k : Nat),
    (s.fabric = true) ∧ (h ≠ 2) ∧ (camOn s p = true) ∧ (rbit s R.CAM_CTRL_LINK_UP p = true) ∧ (rawType dt = true) ∧ ((getCam (ispNow (advance s t)) p).cur = some f) ∧ (g = (if h = 0 then f else { f with hdrErrs := min (f.hdrErrs + 1) 65535 })) ∧ (f.received < camHeight s p) ∧ (f.ovf = false) ∧ (f.slot = some k) ∧ (f.kept = false ∨ (rawLine (rawBytes s p) (px.take (camWidth s p))).length ≤ bufSize - bufLevel (ispNow (advance s t)) p) :=
  meets_lineTaken

theorem meets_completesCamFe : ∃ (s : State) (t : Fc) (p : Fin 4) (h : Fin 3) (f : CamFrame),
    (s.fabric = true) ∧ (h ≠ 2) ∧ (camOn s p = true) ∧ (rbit s R.CAM_CTRL_LINK_UP p = true) ∧ ((getCam (ispNow (advance s t)) p).cur = some f) :=
  meets_frameEnds

theorem meets_completesCamLinkLost : ∃ (s : State) (p : Fin 4),
    (s.fabric = true) ∧ (rbit s R.CAM_CTRL_LINK_UP p = true) :=
  meets_linkFalls

theorem meets_completesCamLinkUp : ∃ (s : State),
    (s.fabric = true) :=
  meets_linkRises

theorem meets_completesCamBufferFull : ∃ (s : State) (t : Fc) (p : Fin 4) (f : CamFrame),
    (s.fabric = true) ∧ ((getCam (ispNow (advance s t)) p).cur = some f) ∧ (f.ovf = false) ∧ (f.kept = true) ∧ (bufSize < bufLevel (ispNow (advance s t)) p + camWidth s p * rawBytes s p) :=
  meets_bufferFills

theorem meets_completesCamPowerFault : ∃ (s : State) (p : Fin 4),
    (s.fabric = true) ∧ (rbit s R.CAM_CTRL_PWR_EN p = true) ∧ (rbit s R.CAM_CTRL_PWR_FAULT p = false) :=
  meets_supplyLimits

theorem meets_completesFsyncTrigger : ∃ (s : State) (t : Fc) (p : Fin 4),
    (s.fabric = true) ∧ (rbit s R.CAM_CTRL_FSYNC_EN p = true) ∧ (((moduleTime (advance s t) + rval s R.CAM_FSYNC_PERIOD_US p * 1000 - rget s R.CAM_FSYNC_PHASE_PHASE_US p * 1000 % (rval s R.CAM_FSYNC_PERIOD_US p * 1000)) % (rval s R.CAM_FSYNC_PERIOD_US p * 1000)) ≤ 1000) ∧ (((moduleTime (advance s t) + rval s R.CAM_FSYNC_PERIOD_US p * 1000 - rget s R.CAM_FSYNC_PHASE_PHASE_US p * 1000 % (rval s R.CAM_FSYNC_PERIOD_US p * 1000)) % (rval s R.CAM_FSYNC_PERIOD_US p * 1000)) ≤ moduleTime (advance s t)) ∧ ((moduleTime (advance s t) - ((moduleTime (advance s t) + rval s R.CAM_FSYNC_PERIOD_US p * 1000 - rget s R.CAM_FSYNC_PHASE_PHASE_US p * 1000 % (rval s R.CAM_FSYNC_PERIOD_US p * 1000)) % (rval s R.CAM_FSYNC_PERIOD_US p * 1000))) ∉ (getCam s p).syncs) :=
  meets_syncSent

theorem meets_completesCapture : ∃ (s : State) (t : Fc) (r : Ref) (d : Desc),
    (s.fabric = true) ∧ (heldDesc s r 4 1 = some d) ∧ (due (advance s t) d = true) ∧ (captureFirst (advance s t) r = true) ∧ (refHost s r = false) ∧ (camOn s (d.classWord % 4) = true) ∧ ((d.word 0x1C % 8) < 5) ∧ (((d.word 0x1C % 8) ≠ 2 ∧ (d.word 0x1C % 8) ≠ 3) ∨ (mosaic s (d.classWord % 4) ≠ 2 ∧ mosaic s (d.classWord % 4) ≠ 5)) ∧ (outLength s (d.classWord % 4) (d.word 0x1C % 8) ≤ d.word 0x18) :=
  meets_captureWaits

theorem meets_completesSensorWrite : ∃ (s : State) (t : Fc) (r : Ref) (d : Desc),
    (s.fabric = true) ∧ (heldDesc s r 4 2 = some d) ∧ (due (advance s t) d = true) ∧ (refHost s r = false) ∧ (camOn s (d.classWord % 4) = true) ∧ (1 ≤ (d.word 0x14 / 256 % 16)) ∧ ((d.word 0x14 / 256 % 16) ≤ 8) :=
  meets_sensorWaits

theorem meets_completesSensorBurstDone : ∃ (s : State) (p : Fin 4) (n : Nat) (j : SensorJob),
    (s.fabric = true) ∧ (firstBurst s p = some j) ∧ (j.entries.length ≤ n) :=
  meets_burstWritten

theorem meets_completesIspParams : ∃ (s : State) (t : Fc) (r : Ref) (d : Desc) (img : List Nat),
    (s.fabric = true) ∧ (heldDesc s r 4 3 = some d) ∧ (due (advance s t) d = true) ∧ (refHost s r = false) ∧ (camOn s (d.classWord % 4) = true) ∧ (paramsOk img = true) ∧ ((getCam s (d.classWord % 4)).pend.length < 4) ∧ (∀ x ∈ (getCam s (d.classWord % 4)).pend, x.apply ≠ d.word 0x18) :=
  meets_paramsWait

theorem meets_completesIspFrameStart : ∃ (s : State) (t : Fc) (p : Fin 4) (f : CamFrame) (r : Ref) (l : List Ref),
    (s.fabric = true) ∧ (s.vis.isp = none) ∧ ((ispNow (advance s t)).vis.slot = none) ∧ (ispNext (feNow (ispNow (advance s t))) = some (p.val, f)) ∧ ((getCam (feNow (ispNow (advance s t))) p).jobs = r :: l) :=
  meets_ispStarts

theorem meets_completesIspFrameDone : ∃ (s : State) (t : Fc) (p : Fin 4) (f : CamFrame) (r : Ref) (d : Desc),
    (s.fabric = true) ∧ (p ≠ 0) ∧ ((ispNow (advance s t)).vis.isp = some (p.val, f)) ∧ (f.ref = some r) ∧ (reqDesc s r = some d) ∧ (frameThrough f = true) :=
  meets_ispEnds

theorem meets_completesVxaRun : ∃ (s : State) (t : Fc) (r : Ref) (d : Desc) (h : List Nat) (b : List Nat),
    (s.fabric = true) ∧ (heldDesc s r 5 1 = some d) ∧ (due (advance s t) d = true) ∧ (refHost s r = false) ∧ (netHeaderOk (h ++ b) = true) ∧ (d.word 0x28 = imgWord (h ++ b) 0x18) ∧ (d.word 0x2C = imgWord (h ++ b) 0x1C) ∧ (s.vis.run = none) ∧ (s.vis.queue = []) :=
  meets_runStarts

theorem meets_completesVxaJobDone : ∃ (s : State) (j : VxaJob),
    (s.fabric = true) ∧ (s.vis.run = some j) :=
  meets_runEndsAny

theorem meets_completesPnlEnable : ∃ (s : State) (p : Fin 2),
    (s.fabric = true) ∧ (pnlOn s p = false) ∧ (pnlError s p = 0) :=
  meets_pnlEnables

theorem meets_completesPnlDisable : ∃ (s : State) (p : Fin 2),
    (s.fabric = true) ∧ (pnlOn s p = true) :=
  meets_pnlDisables

theorem meets_completesUpdate : ∃ (s : State) (t : Fc) (r : Ref) (d : Desc),
    (s.fabric = true) ∧ (heldDesc s r 8 1 = some d) ∧ (due (advance s t) d = true) ∧ (panelServes s r = true) ∧ (d.word 0x18 / 65536 % 512 ≠ 0) ∧ (d.word 0x18 % 512 + d.word 0x18 / 65536 % 512 ≤ pnlHeight s (d.classWord % 2)) ∧ (pnlWidth s (d.classWord % 2) / 2 ≤ d.word 0x1C % 65536) ∧ (pnlOn s (d.classWord % 2) = true) :=
  meets_updateTakes

theorem meets_completesPnlClear : ∃ (s : State) (t : Fc) (r : Ref) (d : Desc),
    (s.fabric = true) ∧ (heldDesc s r 8 2 = some d) ∧ (due (advance s t) d = true) ∧ (panelServes s r = true) ∧ (pnlOn s (d.classWord % 2) = true) ∧ ((getPnl s (d.classWord % 2)).writing = none) ∧ ((getPnl s (d.classWord % 2)).wiping = none) :=
  meets_clearWipes

theorem meets_completesLineWriteStart : ∃ (s : State) (t : Fc) (p : Fin 2) (n : Nat),
    (s.fabric = true) ∧ (pnlOn s p = true) ∧ ((getPnl s p).writing = none) ∧ ((getPnl s p).wiping = none) ∧ (blankWanted s p = false) ∧ (vlcdSettled (advance s t) p = true) ∧ (s.aoc.power = 0 ∨ s.aoc.power = 1) ∧ (nextLine s p = some n) :=
  meets_lineStarts

theorem meets_completesLineWriteDone : ∃ (s : State) (t : Fc) (p : Fin 2) (x : PnlWrite),
    (s.fabric = true ∨ (s.aoc.power = 2 ∧ rbit s R.PNL_CTRL_PARK_KEEP p = true)) ∧ ((getPnl s p).writing = some x) ∧ (x.ends ≤ max s.now t) ∧ ((getPnl s p).wipes = []) :=
  meets_lineEnds

theorem meets_completesPnlTempSample : ∃ (s : State) (t : Fc) (p : Fin 2),
    (s.fabric = true ∨ (s.aoc.power = 2 ∧ rbit s R.PNL_CTRL_PARK_KEEP p = true)) ∧ ((getPnl s p).tempAt.all (fun a => a + 40000000 ≤ max s.now t) = true) ∧ (rbit s R.PNL_CTRL_TSRC p = false) :=
  meets_tempSampled

theorem meets_completesVcomToggle : ∃ (s : State) (t : Fc) (p : Fin 2),
    (s.fabric = true ∨ (s.aoc.power = 2 ∧ rbit s R.PNL_CTRL_PARK_KEEP p = true)) ∧ (pnlOn s p = true) ∧ (rbit s R.PNL_CTRL_PWR_EN p = true) ∧ (vcomInstant (advance s t) p = true) ∧ ((getPnl s p).vcomAt ≠ some (max s.now t)) ∧ ((getPnl s p).writing = none) :=
  meets_pinvToggles

theorem meets_completesCrackMeasure : ∃ (s : State) (t : Fc) (p : Fin 2) (o : Nat),
    (s.fabric = true ∨ (s.aoc.power = 2 ∧ rbit s R.PNL_CTRL_PARK_KEEP p = true)) ∧ ((getPnl s p).crackAt.all (fun a => a + 400000000 ≤ max s.now t) = true) ∧ (10 * rval s R.PNL_CRACK_CRACK_OHM p < o) ∧ (1 ≤ (getPnl s p).high) :=
  meets_crackSecond

theorem meets_completesPanelCrackClear : ∃ (s : State) (p : Fin 2),
    (s.fabric = true) ∧ (2 ≤ (getPnl s p).low) :=
  meets_crackCleared

theorem meets_completesPanelSupplyFault : ∃ (s : State) (p : Fin 2),
    (s.fabric = true ∨ (s.aoc.power = 2 ∧ rbit s R.PNL_CTRL_PARK_KEEP p = true)) ∧ (rbit s R.PNL_CTRL_PWR_EN p = true) ∧ (pnlOn s p = true) :=
  meets_supplyFaults

theorem meets_completesEthTx : ∃ (s : State) (t : Fc) (r : Ref) (d : Desc),
    (s.fabric = true) ∧ (heldDesc s r 0xB 0x70 = some d) ∧ (due (advance s t) d = true) ∧ (60 ≤ d.word 0x18 % 65536) ∧ (d.word 0x18 % 65536 ≤ 1518) ∧ (ethUp s (d.classWord % 8) = true) :=
  meets_ethTxQueues

theorem meets_completesEthTxDone : ∃ (s : State) (p : Fin 6) (x : EthTx) (rest : List EthTx),
    (s.fabric = true) ∧ (ethUp s p = true) ∧ (fleetOn s p = false ∨ (getEth s p).fleetTurn = false) ∧ ((getEth s p).queue = x :: rest) ∧ (x.tsAddr = none) :=
  meets_ethSends

theorem meets_completesEthRx : ∃ (s : State) (p : Fin 6) (f : List Nat),
    (s.fabric = true) ∧ (ethUp s p = true) ∧ (rbit s R.ETH_CTRL_EN p = true) ∧ (60 ≤ f.length) ∧ (f.length ≤ 1518) ∧ (macAccepts s p f = true) ∧ (isGptp s p f = false) ∧ (queueRoom s queueEth p 0 = true) :=
  meets_ethReceives

theorem meets_completesGptpMessage : ∃ (s : State) (p : Fin 4),
    (s.fabric = true) ∧ (ethUp s p = true) ∧ (rbit s R.ETH_CTRL_GPTP_EN p = true) :=
  meets_gptpSelects

theorem meets_completesEthLinkDown : ∃ (s : State) (p : Fin 6),
    (s.fabric = true) ∧ (ethUp s p = true) :=
  meets_ethFalls

theorem meets_completesEthLinkUp : ∃ (s : State) (p : Fin 6),
    (s.fabric = true) ∧ (rbit s R.ETH_CTRL_EN p = true) :=
  meets_ethRises

theorem meets_completesTc10Sleep : ∃ (s : State) (p : Fin 4),
    (s.fabric = true) ∧ (ethUp s p = true) :=
  meets_sleepAsked

theorem meets_completesTc10SleepAck : ∃ (s : State) (p : Fin 4),
    (s.fabric = true) ∧ ((getEth s p).sleepAsked = true) ∧ (ethUp s p = true) :=
  meets_sleepAcked

theorem meets_completesTc10Wake : ∃ (s : State),
    (s.fabric = true) :=
  meets_wakeSent

theorem meets_completesCanEnable : ∃ (s : State) (c : Fin 8),
    (s.fabric = true) ∧ (canOn s c = false) ∧ (timingOk s c = true) ∧ (rget s R.RING_CFG_CLASS 0 (rget s R.CAN_TX_CFG_RING c) = 6) :=
  meets_canEnabled

theorem meets_completesSend : ∃ (s : State) (t : Fc) (r : Ref) (d : Desc),
    (s.fabric = true) ∧ (heldDesc s r 6 1 = some d) ∧ (due (advance s t) d = true) ∧ (sendError s r d = none) :=
  meets_sendWaits

theorem meets_completesCanTxbFetch : ∃ (s : State) (c : Fin 8) (r : Ref) (l : List Ref) (d : Desc) (b : Nat),
    (s.fabric = true) ∧ (canOn s c = true) ∧ (rval s R.CAN_CTRL_MODE c = 0) ∧ ((getCan s c).sends = r :: l) ∧ (sendBefore s r = false) ∧ (reqDesc s r = some d) ∧ (canOff s c = false) ∧ (([0, 1, 2].find? fun b => (tblGet? (getCan s c).txb b).isNone) = some b) :=
  meets_fetchedToBuffer

theorem meets_completesCanTxSelect : ∃ (s : State) (c : Fin 8),
    (s.fabric = true) ∧ (canOn s c = true) ∧ (canOff s c = false) ∧ (rget s R.CAN_ERR_CNT_TEC c ≤ 255) ∧ (rval s R.CAN_CTRL_MODE c ≠ 1) ∧ ((getCan s c).onBus = none) ∧ (rbit s R.CAN_TX_CFG_ORDER c = false) ∧ (candidates (getCan s c) ≠ []) :=
  meets_selectedByPriority

theorem meets_completesCanTxSuccess : ∃ (s : State) (c : Fin 8) (b : Nat) (n : Nat) (x : CanTx) (r : Ref),
    (s.fabric = true) ∧ ((getCan s c).onBus = some (b, n)) ∧ (txAt (getCan s c) b = some x) ∧ (txAborted s x = false) ∧ (x.echo = false) ∧ (rval s R.CAN_CTRL_MODE c = 0) ∧ (x.ref = some r) :=
  meets_frameSent

theorem meets_completesCanArbLoss : ∃ (s : State) (c : Fin 8) (b : Nat) (n : Nat) (x : CanTx),
    (s.fabric = true) ∧ ((getCan s c).onBus = some (b, n)) ∧ (txAt (getCan s c) b = some x) ∧ (txAborted s x = false) ∧ (rget s R.CAN_ERR_CNT_TEC c ≤ 255) ∧ (x.losses + 1 + x.errors ≤ rget s R.CAN_TX_CFG_RETRY_LIMIT c) :=
  meets_arbitrationLost

theorem meets_completesCanTxError : ∃ (s : State) (c : Fin 8) (b : Nat) (n : Nat) (x : CanTx),
    (s.fabric = true) ∧ ((getCan s c).onBus = some (b, n)) ∧ (txAt (getCan s c) b = some x) ∧ (txAborted s x = false) ∧ (rget s R.CAN_ERR_CNT_TEC c ≤ 247) ∧ (x.losses + x.errors + 1 ≤ rget s R.CAN_TX_CFG_RETRY_LIMIT c) ∧ (canOff s c = false) :=
  meets_errorCounts

theorem meets_completesCanRx : ∃ (s : State) (t : Fc) (c : Fin 8) (f : CanFrame) (m : Nat),
    (s.fabric = true) ∧ (canHears s c = true) ∧ (f.fdf = false ∨ rbit s R.CAN_CTRL_FD_EN c = true) ∧ (rget s R.CAN_ERR_CNT_REC c ≤ 127) ∧ (((List.range 32).find? fun k => filterHit (beforeRegs (advance s t)) c f k) = some m) ∧ (filterAct (beforeRegs (advance s t)) c m = 1 ∨ filterAct (beforeRegs (advance s t)) c m = 2) ∧ (queueRoom s queueCan c (filterAct (beforeRegs (advance s t)) c m - 1) = true) ∧ (Memory.wf s.mem = true) ∧ (Memory.wf s.extMem = true) :=
  meets_frameQueued

theorem meets_completesCanRxError : ∃ (s : State) (c : Fin 8),
    (s.fabric = true) ∧ (canHears s c = true) :=
  meets_receiveErrorCounts

theorem meets_completesCanBusOff : ∃ (s : State) (c : Fin 8),
    (s.fabric = true) ∧ (canOff s c = false) ∧ (256 ≤ rget s R.CAN_ERR_CNT_TEC c) :=
  meets_busOffEntered

theorem meets_completesRecover : ∃ (s : State) (c : Fin 8),
    (s.fabric = true) ∧ (rget s R.CAN_STATUS_STATE c = 2) :=
  meets_recoveryStarts

theorem meets_completesCanRecovered : ∃ (s : State) (c : Fin 8),
    (s.fabric = true) ∧ (rget s R.CAN_STATUS_STATE c = 3) :=
  meets_recovered

theorem meets_completesFleEnable : ∃ (s : State) (t : Fc),
    (s.fabric = true) ∧ (rbit s R.FLE_CTRL_EN = false) ∧ (rget s R.NAV_STATE_TIME_STATE ≠ 0) ∧ (credsValid (advance s t) = true) ∧ (verBase s ≠ 0) ∧ (cacheBase s ≠ 0) ∧ (rget s R.FLE_STORE_BASE_LO_ADDR_LO ≠ 0 ∨ rget s R.FLE_STORE_BASE_HI_ADDR_HI ≠ 0) ∧ (rbit s R.ETH_CTRL_EN (rget s R.FLE_CTRL_PORT) = true) :=
  meets_fleetStarts

theorem meets_completesFleDisable : ∃ (s : State),
    (s.fabric = true) ∧ (tblSorted s.fle.sessions = true) :=
  meets_fleetStops

theorem meets_completesPeerSet : ∃ (s : State) (t : Fc) (r : Ref) (d : Desc) (o : Option Session),
    (s.fabric = true) ∧ (heldDesc s r 7 1 = some d) ∧ (due (advance s t) d = true) ∧ (bitOf d.classWord 31 = false) ∧ (∃ w ∈ [d.word 0x10, d.word 0x14, d.word 0x18, d.word 0x1C], w ≠ 0) ∧ (d.word 0x20 % 65536 ≠ 0) ∧ (rbit s R.FLE_CTRL_EN = true) ∧ (tblGet? s.fle.sessions (d.classWord % 32) = o) :=
  meets_peerAsked

theorem meets_completesPeerSetTimeout : ∃ (s : State) (t : Fc) (k : Fin 32) (c : Session) (q : Ref),
    (s.fabric = true) ∧ (tblGet? s.fle.sessions k = some c) ∧ (c.ref = some q) ∧ (c.setAt + 4000000000 ≤ max s.now t) :=
  meets_peerNoAnswer

theorem meets_completesSessionHandshake : ∃ (s : State) (t : Fc) (k : Fin 32) (c : Session) (x : Cert),
    (s.fabric = true) ∧ (tblGet? s.fle.sessions k = some c) ∧ (rbit s R.FLE_CTRL_EN = true) ∧ (c.isOpen = false) ∧ (c.trying = true) ∧ (slotHeld (advance s t) k = false) ∧ (certError (advance s t) x = none) ∧ (x.pitch = c.pitch) ∧ ((getMember s x.pitch).evicted = false) :=
  meets_handshakeOpens

theorem meets_completesSessionRetry : ∃ (s : State) (t : Fc) (k : Fin 32) (c : Session),
    (s.fabric = true) ∧ (tblGet? s.fle.sessions k = some c) ∧ (rbit s R.FLE_CTRL_EN = true) ∧ (c.isOpen = false) ∧ (slotHeld (advance s t) k = false) ∧ (c.closedAt + rval s R.FLE_TIMERS_RETRY_S * 400000000 ≤ max s.now t) :=
  meets_slotRetried

theorem meets_completesKeepaliveDue : ∃ (s : State) (t : Fc) (k : Fin 32) (c : Session),
    (s.fabric = true) ∧ (tblGet? s.fle.sessions k = some c) ∧ (c.isOpen = true) ∧ (c.txAt + 2000000000 ≤ max s.now t) ∧ (c.queue.length < 512) ∧ (.keepalive ∉ c.queue) :=
  meets_keepaliveSent

theorem meets_completesPeerTimeout : ∃ (s : State) (t : Fc) (k : Fin 32) (c : Session),
    (s.fabric = true) ∧ (tblGet? s.fle.sessions k = some c) ∧ (c.isOpen = true) ∧ (c.rxAt + rval s R.FLE_TIMERS_PEER_TIMEOUT_S * 400000000 ≤ max s.now t) :=
  meets_peerSilent

theorem meets_completesCertExpiry : ∃ (s : State) (t : Fc) (k : Fin 32) (c : Session),
    (s.fabric = true) ∧ (tblGet? s.fle.sessions k = some c) ∧ (c.isOpen = true) ∧ (c.expires < moduleTime (advance s t)) :=
  meets_certificateExpires

theorem meets_completesByeRx : ∃ (s : State) (t : Fc) (k : Fin 32) (c : Session),
    (s.fabric = true) ∧ (tblGet? s.fle.sessions k = some c) ∧ (c.isOpen = true) ∧ (c.overRate (max s.now t) = false) :=
  meets_byeReceived

theorem meets_completesKeepaliveRx : ∃ (s : State) (t : Fc) (k : Fin 32) (c : Session),
    (s.fabric = true) ∧ (tblGet? s.fle.sessions k = some c) ∧ (c.isOpen = true) ∧ (c.overRate (max s.now t) = false) :=
  meets_keepaliveReceived

theorem meets_completesEvictHoldExpiry : ∃ (s : State) (t : Fc) (k : Fin 32) (a : Nat),
    (s.fabric = true) ∧ (tblGet? s.fle.held k = some a) ∧ (a ≤ max s.now t) :=
  meets_holdEnds

theorem meets_completesBehindCatchUp : ∃ (s : State) (k : Fin 32) (c : Session),
    (s.fabric = true) ∧ (tblGet? s.fle.sessions k = some c) ∧ (c.isOpen = true) ∧ (c.behind = true) ∧ (c.queue = []) ∧ (c.owed = []) :=
  meets_catchesUp

theorem meets_completesStrikeDecay : ∃ (s : State) (t : Fc),
    (s.fabric = true) ∧ (s.fle.decayAt + rval s R.FLE_LIMITS_STRIKE_DECAY_S * 400000000 ≤ max s.now t) :=
  meets_strikesDecay

theorem meets_completesSummaryRx : ∃ (s : State) (t : Fc) (k : Fin 32) (c : Session) (figs : List Stamp),
    (s.fabric = true) ∧ (tblGet? s.fle.sessions k = some c) ∧ (c.isOpen = true) ∧ (c.overRate (max s.now t) = false) ∧ (figs.find? (fun f => f.a == ownPitch s) = none) :=
  meets_summaryAnswered

theorem meets_completesCertReqRx : ∃ (s : State) (t : Fc) (k : Fin 32) (c : Session) (raw : List Nat) (p : Nat) (x : Cert),
    (s.fabric = true) ∧ (tblGet? s.fle.sessions k = some c) ∧ (c.isOpen = true) ∧ (c.overRate (max s.now t) = false) ∧ (c.queue.length < 512) ∧ (parseCertReq raw = some p) ∧ (certOf s p = some x) :=
  meets_certificateSent

theorem meets_completesAnnounceRx : ∃ (s : State) (t : Fc) (k : Fin 32) (c : Session) (x : Cert),
    (s.fabric = true) ∧ (tblGet? s.fle.sessions k = some c) ∧ (c.isOpen = true) ∧ (c.overRate (max s.now t) = false) ∧ (certError (advance s t) x = none) ∧ ((getMember s x.pitch).evicted = false) ∧ (tblSorted s.fle.sessions = true) :=
  meets_certificateKept

theorem meets_completesDeltaRx : ∃ (s : State) (t : Fc) (k : Fin 32) (c : Session) (raw : List Nat) (d : Delta) (sig : Bool) (j : Nat) (sl : CacheSlot),
    (s.fabric = true) ∧ (tblGet? s.fle.sessions k = some c) ∧ (c.isOpen = true) ∧ (c.overRate (max s.now t) = false) ∧ (parseDelta raw = some d) ∧ (d.market = ownMarket s) ∧ ((getMember s d.author).evicted = false) ∧ ((getMember s d.author).cert.isSome = true ∨ d.author = ownPitch s) ∧ (sig = true) ∧ (400000000 ≤ levelNow (advance s t) (getMember s d.author)) ∧ (d.t ≤ moduleTime (advance s t) + rval s R.FLE_LIMITS_SKEW_MS * 1000000) ∧ (d.origin = rget s R.STO_ORIGIN_ID_VALUE) ∧ (d.cellCm = gridCell s) ∧ (kindShared s (tileKind d.tile) = true) ∧ (cacheFind s d.tile = some (j, sl)) ∧ (tblGet? s.sto.cache j = some sl) ∧ (sl.loading = false) ∧ (tblSorted s.sto.cache = true) ∧ (tblSorted sl.tile.cells = true) ∧ (d.cells.any (fun e => stampLt (tileVer sl.tile e.1).stamp (⟨d.t, d.c, d.author⟩ : Stamp)) = true) :=
  meets_deltaMerged

theorem meets_completesStatusRx : ∃ (s : State) (t : Fc) (k : Fin 32) (c : Session) (raw : List Nat) (m : StatusMsg) (sig : Bool),
    (s.fabric = true) ∧ (tblGet? s.fle.sessions k = some c) ∧ (c.isOpen = true) ∧ (c.overRate (max s.now t) = false) ∧ (parseStatus raw = some m) ∧ (m.market = ownMarket s) ∧ ((getMember s m.author).evicted = false) ∧ ((getMember s m.author).cert.isSome = true ∨ m.author = ownPitch s) ∧ (sig = true) ∧ (400000000 ≤ levelNow (advance s t) (getMember s m.author)) ∧ (m.time ≤ moduleTime (advance s t) + rval s R.FLE_LIMITS_SKEW_MS * 1000000) ∧ (∀ a, (getMember s m.author).lastStatus = some a → a < m.time) ∧ (queueRoom s queueFle 0 0 = true) ∧ (Memory.wf s.mem = true) ∧ (Memory.wf s.extMem = true) ∧ (tblSorted s.fle.sessions = true) ∧ (∀ p ∈ s.fle.sessions, p.1 ≠ k.val → p.2.isOpen = true → p.2.queue.length < 512) :=
  meets_statusKept

theorem meets_completesPubDue : ∃ (s : State) (t : Fc) (k : Fin 4096) (c : CacheSlot),
    (s.fabric = true) ∧ (tblGet? s.sto.cache k = some c) ∧ (cacheFind s c.tile.id = some (k.val, c)) ∧ (tblSorted s.sto.cache = true) ∧ (tblSorted c.tile.cells = true) ∧ (tblSorted c.tile.vers = true) ∧ (tblSorted c.pubAt = true) ∧ (pubCells c.tile ≠ []) ∧ ((pubCells c.tile).length ≤ deltaMax (tileKind c.tile.id)) ∧ (∀ i ∈ pubCells c.tile, i < 16384) ∧ (pubDue (advance s t) c = true) ∧ (400000000 ≤ levelNow (advance s t) (getMember s (ownPitch s))) :=
  meets_tilePublished

theorem meets_completesStatusPublish : ∃ (s : State) (t : Fc) (r : Ref) (d : Desc),
    (s.fabric = true) ∧ (heldDesc s r 7 2 = some d) ∧ (due (advance s t) d = true) ∧ (d.word 0x18 % 512 ≤ 256) ∧ (rbit s R.FLE_CTRL_EN = true) ∧ (∀ a, s.fle.statusAt = some a → a + 40000000 ≤ max s.now t) ∧ (tblSorted s.fle.sessions = true) :=
  meets_statusSent

theorem meets_completesMemberEvict : ∃ (s : State) (t : Fc) (r : Ref) (d : Desc),
    (s.fabric = true) ∧ (heldDesc s r 7 3 = some d) ∧ (due (advance s t) d = true) ∧ ((d.classWord % 65536) ≤ 1023) ∧ (rbit s R.FLE_CTRL_EN = true) ∧ ((d.classWord % 65536) ≠ ownPitch s) ∧ (bitOf d.classWord 16 = false) ∧ ((getMember s (d.classWord % 65536)).evicted = false) :=
  meets_memberEvicted

theorem meets_completesPublishNow : ∃ (s : State) (t : Fc) (r : Ref) (d : Desc),
    (s.fabric = true) ∧ (heldDesc s r 7 4 = some d) ∧ (due (advance s t) d = true) ∧ (rbit s R.FLE_CTRL_EN = true) ∧ (s.fle.pubNow = []) ∧ (∀ x ∈ awayTiles s, sharedPubs s x = []) ∧ ((((s.sto.cache.filter fun p => !p.2.loading).map fun p => p.2.tile).flatMap (sharedPubs s)) = []) :=
  meets_nothingToPublish

theorem meets_completesGo : ∃ (s : State),
    (s.fabric = true) ∧ (s.aoc.entry = none) ∧ (tkeArmed s = false) ∧ (planeArmed s 0 = false) ∧ (planeArmed s 1 = false) ∧ (s.aoc.castFrom = none) ∧ (binding s = false) ∧ (3500000 ≤ rget s R.AOC_WAKE_TOLERANCE_US) ∧ (rget s R.AOC_WAKE_TOLERANCE_US < 8000000) ∧ (fetchedLeft s = false) ∧ (rbit s R.HLK_STATUS_LINK_UP = false) :=
  meets_goToDeep

theorem meets_completesEntryDrainEnd : ∃ (s : State) (t : Fc) (a : Nat) (st : Nat),
    (s.fabric = true) ∧ (s.aoc.entry = some (st, a)) ∧ (st ≠ 2) ∧ (entryState s st = some st) ∧ (s.aoc.drained = false) ∧ (a + 40000000 ≤ max s.now t) ∧ (s.aoc.wakes = []) :=
  meets_drainEndEnters

theorem meets_completesSuspendReady : ∃ (s : State) (a : Nat) (b : Nat),
    (s.fabric = true) ∧ (s.aoc.entry = some (2, a)) ∧ (s.aoc.suspendAt = some b) ∧ (s.aoc.drained = true ∨ fetchedLeft s = false) ∧ (entryState s 2 = some 2) ∧ (s.aoc.wakes = []) :=
  meets_softwareReady

theorem meets_completesSuspendTimeout : ∃ (s : State) (t : Fc) (a : Nat) (b : Nat) (st : Nat),
    (s.fabric = true) ∧ (s.aoc.entry = some (st, b)) ∧ (s.aoc.suspendAt = some a) ∧ (s.aoc.ready = false) ∧ (s.aoc.warmWake = false) ∧ (a + rval s R.AOC_PARK_CFG_SUSPEND_S * 400000000 ≤ max s.now t) ∧ (fetchedLeft s = true) ∧ (s.aoc.drained = false) :=
  meets_softwareLate

theorem meets_completesTrimEnter : ∃ (s : State),
    (s.fabric = true) ∧ (s.aoc.entry = none) ∧ (s.aoc.power = 0) ∧ (50 ≤ rget s R.AOC_WAKE_TOLERANCE_US) :=
  meets_trimEntered

theorem meets_completesTrimExit : ∃ (s : State),
    (s.fabric = true) ∧ (s.aoc.power = 1) :=
  meets_trimLeft

theorem meets_completesWakeEvent : ∃ (s : State) (t : Fc) (m : Fin 64),
    (s.aoc.entry = none) ∧ (s.aoc.power = 2) ∧ (s.aoc.warmWake = false) ∧ (wakeMask (advance s t) 2 m ≠ 0) :=
  meets_wokenFromPark

theorem meets_completesPwrIgnOff : ∃ (s : State) (mv : Fin 1024),
    (mv.val < 30) ∧ (s.aoc.power < 2) ∧ (s.aoc.logic = true) ∧ (s.aoc.ignOff = none) ∧ (binding s = false) :=
  meets_ignitionOff

theorem meets_completesIgnHigh : ∃ (s : State) (mv : Fin 1024) (a : Nat),
    (60 < mv.val) ∧ (s.aoc.power < 2) ∧ (s.aoc.entry = none) ∧ (binding s = false) ∧ (s.aoc.ignOff = some a) :=
  meets_ignitionBack

theorem meets_completesBindStart : ∃ (s : State) (t : Fc) (a : Nat),
    (s.fabric = true) ∧ (s.aoc.entry = none) ∧ (binding s = false) ∧ (s.aoc.castFrom = none) ∧ (s.aoc.ignOff = some a) ∧ (a + rval s R.AOC_BIND_CFG_BIND_DELAY_S * 400000000 ≤ max s.now t) ∧ (0 < rval s R.AOC_BIND_CFG_BIND_SAFE_MS) :=
  meets_bindOffStarts

theorem meets_completesBindNow : ∃ (s : State),
    (s.fabric = true) ∧ (s.aoc.entry = none) ∧ (binding s = false) ∧ (0 < rval s R.AOC_BIND_CFG_BIND_SAFE_MS) :=
  meets_bindOffNow

theorem meets_completesBindTileTimeout : ∃ (s : State) (t : Fc),
    (s.fabric = true) ∧ (s.aoc.entry = none) ∧ (binding s = true) ∧ (bindStep s = 4) ∧ (tilesFlushed s = false) ∧ (s.aoc.ignBack = false) ∧ (s.aoc.stepAt + rval s R.AOC_BIND_CFG_BIND_TILE_MAX_S * 400000000 ≤ max s.now t) :=
  meets_bindOffTilesLate

theorem meets_completesTc10WakeRx : ∃ (s : State) (p : Fin 4),
    (s.fabric = true) ∧ (s.aoc.power < 2) ∧ (s.aoc.entry = none) ∧ (rbit s R.ETH_CTRL_WAKE_EN p = true) ∧ (rbit s R.ETH_CTRL_EN p = true) :=
  meets_wakeOverEthernet

theorem meets_completesLogicThrottle : ∃ (s : State),
    (s.aoc.logic = true) :=
  meets_logicThrottled

theorem meets_completesLogicQualified : ∃ (s : State) (mv : Fin 1024),
    (s.aoc.logic = false) ∧ (80 < mv.val) ∧ (s.aoc.kept = true) :=
  meets_logicGood

theorem meets_completesCastOn : ∃ (s : State) (a : Nat),
    (s.aoc.castFrom = some (a, 8)) ∧ (s.fabric = false) ∧ (s.aoc.logic = true) ∧ (s.aoc.power = 0) ∧ (s.upd.revert = false) ∧ (bankBootable s = true) ∧ (s.ksm.unfinished = none) ∧ (rget s R.NAV_STATE_START_KIND ≠ 0) :=
  meets_warmCastOn

theorem meets_completesHostReady : ∃ (s : State) (a : Nat) (f : Nat),
    (s.fabric = true) ∧ (s.aoc.castFrom = some (a, f)) ∧ (rget s R.AOC_CASTON_STAGE = 9) :=
  meets_hostReadyEnds

theorem meets_completesPowerFail : ∃ (s : State) (mv : Fin 1024),
    (mv.val < 70) ∧ (s.aoc.logic = true) :=
  meets_powerFails

theorem meets_completesAonLoss : ∃ (mv : Fin 1024),
    (mv.val < 30) :=
  meets_aonLost

theorem meets_completesAocReset : ∃ (s : State) (k : Fin 4) (c : Fin 256),
    (s.fabric = true) ∧ (c = 0xA5) ∧ (k ≠ 0) :=
  meets_resetBySoftware

theorem meets_completesWatchdogKick : ∃ (s : State),
    (s.fabric = true) :=
  meets_watchdogKicked

theorem meets_completesWatchdogExpiry : ∃ (s : State) (t : Fc),
    (s.fabric = true) ∧ (rget s R.AOC_WDOG_TIMEOUT_MS ≠ 0) ∧ (s.aoc.wdogAt + rget s R.AOC_WDOG_TIMEOUT_MS * 400000 ≤ max s.now t) ∧ ((s.aoc.wdogTimes.filter fun a => decide (max s.now t < a + 600 * 400000000)).length < 2) :=
  meets_watchdogExpires

theorem meets_completesDeepDescent : ∃ (s : State) (t : Fc),
    (s.aoc.power = 2) ∧ (rget s R.AOC_PARK_CFG_DEEP_AFTER_MIN ≠ 0) ∧ (s.aoc.parkedAt + rget s R.AOC_PARK_CFG_DEEP_AFTER_MIN * 60 * 400000000 ≤ max s.now t) ∧ (3500000 ≤ rget s R.AOC_WAKE_TOLERANCE_US) :=
  meets_deepAfterPark

theorem meets_completesCredSet : ∃ (s : State) (t : Fc) (r : Ref) (d : Desc) (ok : Bool) (cert : Option Cert) (x : Cert),
    (s.fabric = true) ∧ (heldDesc s r 0xB 0x82 = some d) ∧ (due (advance s t) d = true) ∧ ((d.classWord % 16) = 0) ∧ (lcState s ≤ 1) ∧ ((d.word 0x18 % 65536) ≤ 1024) ∧ (ok = true) ∧ (cert = some x) :=
  meets_memberCertHeld

theorem meets_completesPubkeyGet : ∃ (s : State) (t : Fc) (r : Ref) (d : Desc),
    (s.fabric = true) ∧ (heldDesc s r 0xB 0x81 = some d) ∧ (due (advance s t) d = true) ∧ (rbit s R.KSM_KEYS_DEVICE_KEY = true) ∧ (Memory.wf s.mem = true) ∧ (Memory.wf s.extMem = true) :=
  meets_publicKey

theorem meets_completesLcChange : ∃ (s : State) (t : Fc) (r : Ref) (d : Desc) (tok : List Nat) (sig : Bool) (cut : Bool),
    (s.fabric = true) ∧ (heldDesc s r 0xB 0x80 = some d) ∧ (due (advance s t) d = true) ∧ (planeArmed s 0 = false) ∧ (planeArmed s 1 = false) ∧ (transitionOk s (d.classWord % 8) = true) ∧ (tokenOk s (d.classWord % 8) tok (sig && d.quad 0x10 != 0) = true) ∧ (cut = false) :=
  meets_lcChanged

theorem meets_completesUpdOpen : ∃ (s : State) (t : Fc) (r : Ref) (d : Desc) (h : List Nat),
    (s.fabric = true) ∧ (heldDesc s r 9 1 = some d) ∧ (due (advance s t) d = true) ∧ (lcState s ≠ 4) ∧ (lcState s ≠ 0) ∧ (headerOk h = true) ∧ (slotState s (d.classWord % 2) ≠ 3) :=
  meets_slotOpened

theorem meets_completesUpdBlock : ∃ (s : State) (t : Fc) (r : Ref) (d : Desc) (ok : Bool) (i : Image),
    (s.fabric = true) ∧ (heldDesc s r 9 2 = some d) ∧ (due (advance s t) d = true) ∧ (lcState s ≠ 4) ∧ (storeFirst (advance s t) r = true) ∧ (storeAlone (advance s t) r = true) ∧ ((getSlot s (d.classWord % 2)).image = some i) ∧ (slotState s (d.classWord % 2) = 1) ∧ ((d.classWord / 256) < i.blocks) ∧ (d.word 0x18 % 2 ^ 17 = (if (d.classWord / 256) + 1 = i.blocks then i.lastLen else 65536)) ∧ ((d.classWord / 256) ∉ (getSlot s (d.classWord % 2)).held) ∧ (ok = true) ∧ (i.blocks ≤ 65000) :=
  meets_blockHeld

theorem meets_completesUpdClose : ∃ (s : State) (t : Fc) (r : Ref) (d : Desc) (i : Image),
    (s.fabric = true) ∧ (heldDesc s r 9 3 = some d) ∧ (due (advance s t) d = true) ∧ (lcState s ≠ 4) ∧ (storeFirst (advance s t) r = true) ∧ ((getSlot s (d.classWord % 2)).image = some i) ∧ (slotState s (d.classWord % 2) = 1) ∧ ((getSlot s (d.classWord % 2)).closing = none) ∧ (i.blocks ≤ (getSlot s (d.classWord % 2)).held.length) :=
  meets_closeBegins

theorem meets_completesUpdCloseDone : ∃ (s : State) (t : Fc) (k : Fin 2) (ok : Bool) (known : Bool) (q : Ref) (i : Image),
    (s.fabric = true) ∧ (storeAlone (advance s t) q = true) ∧ ((getSlot s k).closing = some q) ∧ ((getSlot s k).image = some i) ∧ (ok = true) ∧ (known = true) ∧ (i.signer = 0 ∨ ((tblGet? s.ksm.intKeys i.signer).isSome = true ∧ ∀ c ∈ i.components, c = 1)) ∧ (fuseCounter s i.signer ≤ i.svn) ∧ (imageSuits i = true) :=
  meets_imageClosed

theorem meets_completesActivate : ∃ (s : State) (t : Fc) (r : Ref) (d : Desc),
    (s.fabric = true) ∧ (heldDesc s r 9 4 = some d) ∧ (due (advance s t) d = true) ∧ (lcState s ≠ 4) ∧ (slotState s (d.classWord % 2) = 2) ∧ (rbit s R.UPD_STATUS_TRIAL = false) ∧ (slotState s (1 - (d.classWord % 2)) ≠ 3) ∧ (bitOf d.classWord 1 = false) ∧ (commanding s = false ∨ bitOf d.classWord 2 = true ∨ shortHold s = none) :=
  meets_activateCopies

theorem meets_completesActivateCopyDone : ∃ (s : State) (q : Ref) (k : Nat) (i : Image),
    (s.fabric = true) ∧ (s.upd.copying = some (q, k)) ∧ ((getSlot s k).image = some i) ∧ (s.upd.resetAfter = none) :=
  meets_copyReady

theorem meets_completesActivationReset : ∃ (s : State) (q : Ref) (k : Nat) (n : Nat),
    (s.fabric = true) ∧ (s.upd.copying = some (q, k)) ∧ (s.upd.resetAfter = some n) ∧ (n < rowNow s) ∧ (s.tke.flushed = true) :=
  meets_activated

theorem meets_completesConfirm : ∃ (s : State) (t : Fc) (r : Ref) (d : Desc),
    (s.fabric = true) ∧ (heldDesc s r 9 5 = some d) ∧ (due (advance s t) d = true) ∧ (lcState s ≠ 4) ∧ (rbit s R.UPD_STATUS_TRIAL = true) ∧ ((tblGetD s.upd.banks (rget s R.UPD_STATUS_ACTIVE_BANK) Image.delivered).svn < 128) :=
  meets_trialConfirmed

theorem meets_completesPpsApply : ∃ (s : State) (t : Fc) (r : Ref) (d : Desc) (v : Nat),
    (s.fabric = true) ∧ (heldDesc s r 9 6 = some d) ∧ (due (advance s t) d = true) ∧ (lcState s ≠ 4) ∧ (rbit s R.PPS_STATUS_SAFE_ACTIVE (d.classWord % 2) = true) ∧ (4 ∈ (tblGetD s.upd.banks (rget s R.UPD_STATUS_ACTIVE_BANK) Image.delivered).components) ∧ (tkeArmed s = false ∨ planeArmed s (d.classWord % 2) = false) ∧ (rbit s R.XLK_PAIR_CFG_PAIR_EN = false ∨ ∀ a, (getPps s (d.classWord % 2)).commitAt = some a → a + 40000000 ≤ max s.now t) ∧ (ppsLoading s (d.classWord % 2) = false) ∧ (v % 65536 ≠ rget s (if (d.classWord % 2) = 0 then R.UPD_PPS_PPS_A else R.UPD_PPS_PPS_B)) :=
  meets_supervisorLoads

theorem meets_completesPpsApplyDone : ∃ (s : State) (p : Fin 2) (q : Ref) (v : Nat) (a : Nat),
    ((getPps s p).powered = true) ∧ (tblGet? s.upd.applying p = some (q, v, a)) :=
  meets_supervisorRuns

theorem meets_completesUpdCancel : ∃ (s : State) (t : Fc) (r : Ref) (d : Desc),
    (s.fabric = true) ∧ (heldDesc s r 9 7 = some d) ∧ (due (advance s t) d = true) ∧ (lcState s ≠ 4) ∧ (slotState s (d.classWord % 2) ≠ 3) :=
  meets_slotEmptied

theorem meets_completesCeWriteback : ∃ (s : State) (t : Fc) (w : Nat) (tm : Bool),
    (s.fabric = true) ∧ (ceMarked (advance s t) tm w = none) :=
  meets_ceCounted

theorem meets_completesEccUncorrectable : ∃ (s : State),
    (s.fabric = true) :=
  meets_ueReported

theorem meets_completesDarnRead : ∃ (s : State) (t : Fc) (tm : Bool),
    (s.fabric = true) ∧ (rbit s R.HLM_CTRL_DARN_EN = true) ∧ ((getPass s tm).start + (getPass s tm).pos * passFc s tm / memWords tm ≤ max s.now t) ∧ ((getPass s tm).pos + 1 < memWords tm) :=
  meets_darnClean

theorem meets_completesSpareRowSwitch : ∃ (s : State) (w : Fin 16384),
    (s.fabric = true) ∧ (w.val ∈ s.hlm.rowMoves) :=
  meets_rowMoved

theorem meets_completesTlmSample : ∃ (s : State) (t : Fc),
    (s.fabric = true) ∧ (rget s R.HLM_CTRL_SAMPLE_S ≠ 0) ∧ (passed (advance s t) s.hlm.sampleAt (rget s R.HLM_CTRL_SAMPLE_S * 400000000) = true) ∧ (s.hlm.lifeTold = true ∨ lifePermille (advance s t) < 1000) ∧ (rbit s R.HLM_TLM_CFG_ENABLE = true) ∧ (queueRoom s queueTlm 0 0 = true) ∧ (Memory.wf s.mem = true) ∧ (Memory.wf s.extMem = true) :=
  meets_sampleWritten

theorem meets_completesAgeingMeasure : ∃ (s : State) (t : Fc) (m : AgeMeas),
    (s.fabric = true) ∧ (monitorDue (advance s t) m = true) ∧ (overLimit (advance s t) m.kind (monitorValue (advance s t) m) (baselineOf (advance s t) m.kind m.inst m.item) = false) :=
  meets_monitorRecord

theorem meets_completesRoMeasure : ∃ (s : State) (t : Fc) (l : List Int),
    (s.fabric = true) ∧ (passed (advance s t) s.hlm.roAt (600 * 400000000) = true) ∧ (∀ n < 32, -32768 ≤ l.getD n 0 ∧ l.getD n 0 ≤ 32767) ∧ (rbit s R.HLM_CTRL_AVS_EN = true) ∧ (l.length = 32) ∧ (leastSlack l < (rval s R.HLM_REPLAN_SLACK_TARGET_PS : Int)) ∧ (700 ≤ rget s R.HLM_VCORE_FLOOR_MV) ∧ (rget s R.HLM_VCORE_FLOOR_MV ≤ 1790) :=
  meets_floorRises

theorem meets_completesBankReplan : ∃ (s : State) (t : Fc) (b : Fin 12),
    (s.fabric = true) ∧ (rbit s R.HLM_CTRL_REPLAN_EN = true) ∧ (∀ a, tblGet? s.hlm.replanAt b = some a → a + rval s R.HLM_REPLAN_REPLAN_H * 3600 * 400000000 ≤ opTime (advance s t)) ∧ (boostLimit (tblGet? s.hlm.cap b) < (limitsNow s b).1 ∨ peakLimit (tblGet? s.hlm.hsb b) < (limitsNow s b).2) ∧ (bankOff s b = true) :=
  meets_replanned

theorem meets_completesMarginReset : ∃ (s : State) (t : Fc) (r : Ref) (d : Desc),
    (s.fabric = true) ∧ (heldDesc s r 0xB 0x90 = some d) ∧ (due (advance s t) d = true) ∧ ((d.classWord % 16) ≤ 11) ∧ (lcState s = 3) :=
  meets_ratingsRestored

theorem meets_completesBaseTempSample : ∃ (s : State) (t : Fc) (x : Int) (a : Nat),
    (s.fabric = true) ∧ (passed (advance s t) s.hlm.baseAt (10 * 400000000) = true) ∧ (Config.baseLimitC < x) ∧ (s.hlm.hotSince = some a) ∧ (s.hlm.hot = false) ∧ (a + 4000000000 ≤ max s.now t) :=
  meets_baseHot

theorem meets_completesDramTempAbove85c : ∃ (s : State),
    (s.fabric = true) :=
  meets_dramHot

end Sys2Proof.Tests
end

section
/-! The arbiters from cycle to cycle (R27–R35), and CLEAR_COUNTS (R41). What is to be shown for O10 is that an arbiter
brought to cycle `t` stands in cycle `t`, so that the close of the very next cycle is the close of the cycle of the
write. An emergency request costs two closes, the grant's beginning and its end; `ArbSt.changesAhead` counts them, and
each close of a cycle at whose end one of them falls due (`Arb.AtChange`) leaves fewer. -/

namespace Sys2Proof.Machine

/-! ### One close -/

/-- The changes that come of themselves: each waiting emergency request begins a grant and ends it, and the grant in
progress ends. -/
def ArbSt.changesAhead (b : ArbSt) : Nat := 2 * b.emWait.length + b2n b.emStart.isSome

/-- At the end of the arbiter's cycle the emergency grant has run its time, or a waiting request falls due. -/
def Arb.AtChange (a : Arb) (m : ArbLim) : Prop :=
  match a.st.emStart with
  | some f => f + m.e ≤ a.cyc + 1
  | none => m.on = true ∧ ∃ d, a.st.emDue m.w = some d ∧ d ≤ a.cyc + 1

theorem ArbSt.emWait_ne_nil_of_emDue {b : ArbSt} {w d : Nat} (h : b.emDue w = some d) : b.emWait ≠ [] := by
  intro hn
  simp [ArbSt.emDue, hn] at h

theorem ArbSt.emDue_congr {a b : ArbSt} (hw : a.emWait = b.emWait) (hl : a.emLast = b.emLast) (w : Nat) :
    a.emDue w = b.emDue w := by
  simp only [ArbSt.emDue, hw, hl]

/-- Normal requests and grants leave the emergency requester's side alone. -/
theorem ArbSt.grant_emergency (b : ArbSt) (k : List Nat) (l c : Nat) :
    (b.grant k l c).emWait = b.emWait ∧ (b.grant k l c).emStart = b.emStart ∧ (b.grant k l c).emLast = b.emLast := by
  unfold ArbSt.grant
  split
  · exact ⟨rfl, rfl, rfl⟩
  · split <;> exact ⟨rfl, rfl, rfl⟩

@[simp] theorem Arb.inCycle_emWait (a : Arb) (l : Nat) : (a.inCycle l).emWait = a.st.emWait :=
  (ArbSt.grant_emergency (a.st.ask a.ev.reqs) a.masked l a.cyc).1
@[simp] theorem Arb.inCycle_emStart (a : Arb) (l : Nat) : (a.inCycle l).emStart = a.st.emStart :=
  (ArbSt.grant_emergency (a.st.ask a.ev.reqs) a.masked l a.cyc).2.1
@[simp] theorem Arb.inCycle_emLast (a : Arb) (l : Nat) : (a.inCycle l).emLast = a.st.emLast :=
  (ArbSt.grant_emergency (a.st.ask a.ev.reqs) a.masked l a.cyc).2.2

@[simp] theorem Arb.inCycle_changesAhead (a : Arb) (l : Nat) : (a.inCycle l).changesAhead = a.st.changesAhead := by
  simp [ArbSt.changesAhead]

@[simp] theorem Arb.atEnd_emWait (a : Arb) (m : ArbLim) :
    (a.atEnd m).emWait = a.st.emWait ++ List.replicate a.ev.emReqs a.cyc := by
  simp [Arb.atEnd]
@[simp] theorem Arb.atEnd_emStart (a : Arb) (m : ArbLim) : (a.atEnd m).emStart = a.st.emStart := by
  simp [Arb.atEnd]
@[simp] theorem Arb.atEnd_emLast (a : Arb) (m : ArbLim) : (a.atEnd m).emLast = a.st.emLast := by
  simp [Arb.atEnd]

/-- No emergency request is made of itself: after a close only those stand that waited or were made in the cycle. -/
theorem Arb.close_emWait_le (a : Arb) (m : ArbLim) :
    (a.close m).st.emWait.length ≤ a.st.emWait.length + a.ev.emReqs := by
  unfold Arb.close
  dsimp only
  split
  · split <;> simp
  · split
    · simp [ArbSt.emBegin]
    · simp

theorem Arb.close_changesAhead_le (a : Arb) (m : ArbLim) :
    (a.close m).st.changesAhead ≤ 2 * (a.st.emWait.length + a.ev.emReqs) + 1 := by
  have hw := a.close_emWait_le m
  have hb : b2n (a.close m).st.emStart.isSome ≤ 1 := by cases (a.close m).st.emStart <;> simp [b2n]
  unfold ArbSt.changesAhead
  omega

/-- The close of a cycle with a change at its end makes that change. -/
theorem Arb.close_changesAhead_lt {a : Arb} {m : ArbLim} (he : a.ev.emReqs = 0) (h : a.AtChange m) :
    (a.close m).st.changesAhead < a.st.changesAhead := by
  unfold Arb.AtChange at h
  cases hs : a.st.emStart with
  | some f =>
    have hend : f + m.e ≤ a.cyc + 1 := by simpa [hs] using h
    simp [Arb.close, hs, hend, ArbSt.changesAhead, he, b2n]
  | none =>
    obtain ⟨hon, d, hd, hle⟩ : m.on = true ∧ ∃ d, a.st.emDue m.w = some d ∧ d ≤ a.cyc + 1 := by simpa [hs] using h
    have hlen := List.length_pos_iff.mpr (ArbSt.emWait_ne_nil_of_emDue hd)
    have hdue : (a.atEnd m).emDue m.w = some d := by
      rw [← hd]
      exact ArbSt.emDue_congr (by simp [he]) (by simp) m.w
    simp [Arb.close, hs, hon, hdue, hle, ArbSt.emBegin, ArbSt.changesAhead, he, b2n]
    omega

/-! ### The quiet cycles -/

theorem Arb.le_quietTo (a : Arb) (m : ArbLim) (c : Nat) : a.cyc ≤ a.quietTo m c := by
  simp [Arb.quietTo]

theorem Arb.quietTo_le {a : Arb} {c : Nat} (h : a.cyc ≤ c) (m : ArbLim) : a.quietTo m c ≤ c := by
  simp [Arb.quietTo, h]

/-- Passing over the quiet cycles ends in a cycle with a change at its end, where none comes before `c`. -/
theorem Arb.quietTo_atChange (a : Arb) (m : ArbLim) (c : Nat) :
    c ≤ a.quietTo m c + 1 ∨ { a with cyc := a.quietTo m c }.AtChange m := by
  unfold Arb.AtChange Arb.quietTo
  cases a.st.emStart with
  | some f =>
    dsimp only
    omega
  | none =>
    dsimp only
    cases m.on with
    | false =>
      left
      simp only [Bool.false_eq_true, if_false]
      omega
    | true =>
      cases a.st.emDue m.w with
      | none =>
        left
        simp only [if_true, Option.getD_none]
        omega
      | some d =>
        simp only [if_true, Option.getD_some, Option.some.injEq, exists_eq_left', true_and]
        omega

/-! ### From cycle to cycle -/

/-- The arbiter at the start of the next cycle, with nothing told in it. -/
def Arb.following (a : Arb) (m : ArbLim) : Arb :=
  { a with cyc := a.cyc + 1, st := (a.close m).st, ev := .none_, masked := a.maskNext, flushMask := a.flushNext }

/-- The arbiter with the grant of its cycle made, in the last of the quiet cycles on the way to `c`. -/
def Arb.rested (a : Arb) (m : ArbLim) (c : Nat) : Arb :=
  { a with st := a.inCycle m.l, cyc := { a with st := a.inCycle m.l }.quietTo m c }

/-- Where `Arb.runTo` goes on after the close of the present cycle. -/
def Arb.onward (a : Arb) (m : ArbLim) (c : Nat) : Arb :=
  if c ≤ a.cyc + 1 then a.following m else (a.following m).rested m c

theorem Arb.runTo_of_le {m : ArbLim} {c : Nat} {a : Arb} (h : c ≤ a.cyc) (n : Nat) : Arb.runTo m c n a = (a, 0, 0) := by
  cases n <;> simp [Arb.runTo, h]

theorem Arb.runTo_of_lt {m : ArbLim} {c : Nat} {a : Arb} (h : a.cyc < c) (n : Nat) :
    Arb.runTo m c (n + 1) a =
      ((Arb.runTo m c n (a.onward m c)).1,
        (Arb.runTo m c n (a.onward m c)).2.1 + b2n (a.close m).preempt,
        (Arb.runTo m c n (a.onward m c)).2.2 + b2n (a.close m).dead) := by
  rw [Arb.runTo, if_neg (Nat.not_le.mpr h)]
  rfl

@[simp] theorem Arb.onward_ev (a : Arb) (m : ArbLim) (c : Nat) : (a.onward m c).ev = .none_ := by
  unfold Arb.onward
  split <;> rfl

@[simp] theorem Arb.onward_changesAhead (a : Arb) (m : ArbLim) (c : Nat) :
    (a.onward m c).st.changesAhead = (a.close m).st.changesAhead := by
  unfold Arb.onward
  split
  · rfl
  · exact (a.following m).inCycle_changesAhead m.l

theorem Arb.onward_cyc_succ (a : Arb) (m : ArbLim) : (a.onward m (a.cyc + 1)).cyc = a.cyc + 1 := by
  simp [Arb.onward, Arb.following]

theorem Arb.onward_cyc_le {a : Arb} {c : Nat} (h : a.cyc < c) (m : ArbLim) : (a.onward m c).cyc ≤ c := by
  unfold Arb.onward
  split
  · exact h
  · exact Arb.quietTo_le (a := { a.following m with st := (a.following m).inCycle m.l }) h m

theorem Arb.onward_atChange (a : Arb) (m : ArbLim) (c : Nat) :
    c ≤ (a.onward m c).cyc + 1 ∨ (a.onward m c).AtChange m := by
  unfold Arb.onward
  split
  case isTrue h => exact .inl (Nat.le_succ_of_le h)
  case isFalse =>
    exact Arb.quietTo_atChange { a.following m with st := (a.following m).inCycle m.l } m c

/-- An arbiter that stands at a change reaches cycle `c` with a close for each change ahead and one more. -/
theorem Arb.runTo_cyc_of_atChange {m : ArbLim} {c n : Nat} {a : Arb} (he : a.ev.emReqs = 0)
    (h : c ≤ a.cyc + 1 ∨ a.AtChange m) (hn : a.st.changesAhead < n) (hc : a.cyc ≤ c) :
    (Arb.runTo m c n a).1.cyc = c := by
  induction n generalizing a with
  | zero => omega
  | succ n ih =>
    obtain heq | hlt := Nat.eq_or_lt_of_le hc
    · rw [Arb.runTo_of_le (Nat.le_of_eq heq.symm)]
      exact heq
    · rw [Arb.runTo_of_lt hlt]
      obtain hlast | hch := h
      · obtain rfl : c = a.cyc + 1 := by omega
        rw [Arb.runTo_of_le (Nat.le_of_eq (a.onward_cyc_succ m).symm)]
        exact a.onward_cyc_succ m
      · have hfew := Arb.close_changesAhead_lt he hch
        refine ih (by simp [ArbEv.none_]) (a.onward_atChange m c) ?_ (Arb.onward_cyc_le hlt m)
        rw [Arb.onward_changesAhead]
        omega

/-- The fuel of an arbiter suffices for every later cycle, whatever it has been told. -/
theorem Arb.runTo_fuel_cyc {a : Arb} {c : Nat} (h : a.cyc ≤ c) (m : ArbLim) : (Arb.runTo m c a.fuel a).1.cyc = c := by
  obtain heq | hlt := Nat.eq_or_lt_of_le h
  · rw [Arb.runTo_of_le (Nat.le_of_eq heq.symm)]
    exact heq
  · have hbound := a.close_changesAhead_le m
    rw [Arb.fuel, Arb.runTo_of_lt hlt]
    refine Arb.runTo_cyc_of_atChange (by simp [ArbEv.none_]) (a.onward_atChange m c) ?_ (Arb.onward_cyc_le hlt m)
    rw [Arb.onward_changesAhead]
    omega

/-- On the way to the next cycle only the close of the present one counts. -/
theorem Arb.runTo_succ_counts (a : Arb) (m : ArbLim) :
    (Arb.runTo m (a.cyc + 1) a.fuel a).2 = (b2n (a.close m).preempt, b2n (a.close m).dead) := by
  rw [Arb.fuel, Arb.runTo_of_lt (Nat.lt_succ_self a.cyc), Arb.runTo_of_le (Nat.le_of_eq (a.onward_cyc_succ m).symm)]
  simp

/-! ### The arbiter in the state -/

@[simp] theorem getArb_rset (s : State) (f : Fld) (v i j n : Nat) : getArb (rset s f v i j) n = getArb s n := rfl

/-- The limits in force do not change where none of the fields that hold them does. -/
theorem arbLim_rset (s : State) {f : Fld} (v i j n : Nat)
    (h : f.id ∉ [R.ARB_LIMITS_TENURE_MAX.id, R.ARB_LIMITS_EMERG_MAX.id, R.ARB_EMERG_EMERG_SPACING.id,
      R.ARB_EMERG_EMERG_ENABLED.id]) :
    arbLim (rset s f v i j) n = arbLim s n := by
  simp only [List.mem_cons, List.not_mem_nil, or_false, not_or, eq_comm (a := f.id)] at h
  obtain ⟨hl, he, hw, hon⟩ := h
  simp only [arbLim, arbL, arbE, arbW, arbEmOn, rbit, rget_rset_ne s v i j n 0 hl, rget_rset_ne s v i j n 0 he,
    rget_rset_ne s v i j n 0 hw, rget_rset_ne s v i j n 0 hon]

@[simp] theorem arbLim_setArb (s : State) (n k : Nat) (a : Arb) : arbLim (setArb s n a) k = arbLim s k := rfl

@[simp] theorem arbLim_arbTo (s : State) (n c k : Nat) : arbLim (arbTo s n c) k = arbLim s k := by
  simp only [arbTo, rinc]
  rw [arbLim_rset _ _ _ _ _ (by decide), arbLim_rset _ _ _ _ _ (by decide), arbLim_setArb]

theorem getArb_arbTo (s : State) (n c : Nat) : getArb (arbTo s n c) n = (arbReach s n c).1 := by
  simp [arbTo, rinc]

theorem getArb_arbTo_cyc {s : State} {n c : Nat} (h : (getArb s n).cyc ≤ c) : (getArb (arbTo s n c) n).cyc = c := by
  rw [getArb_arbTo]
  exact Arb.runTo_fuel_cyc h (arbLim s n)

theorem arbTo_sameMemory (s : State) (n c : Nat) : SameMemory s (arbTo s n c) := ⟨rfl, rfl⟩

/-! ### CLEAR_COUNTS -/

/-- The state with both counters of an arbiter at 0. -/
def zeroCounts (s : State) (n : Nat) : State :=
  rset (rset s R.ARB_PREEMPT_COUNT_COUNT 0 n) R.ARB_DEAD_COUNT_COUNT 0 n

theorem exec_clearCounts {s : State} {n : Fin 22} (t : Nat) (h : s.fabric = true) (hn : n.val ≠ 0) :
    exec (.clearCounts t n) s = .next (zeroCounts (arbTo s n t) n) := by
  change execClearCounts t n s = _
  simp [execClearCounts, arbAt, h, hn, zeroCounts]

@[simp] theorem rget_zeroCounts_preempt (s : State) (n : Nat) : rget (zeroCounts s n) R.ARB_PREEMPT_COUNT_COUNT n = 0 := by
  rw [zeroCounts, rget_rset_ne _ _ _ _ _ _ (by decide), rget_rset_self, Nat.zero_mod]

@[simp] theorem rget_zeroCounts_dead (s : State) (n : Nat) : rget (zeroCounts s n) R.ARB_DEAD_COUNT_COUNT n = 0 := by
  rw [zeroCounts, rget_rset_self, Nat.zero_mod]

@[simp] theorem getArb_zeroCounts (s : State) (n k : Nat) : getArb (zeroCounts s n) k = getArb s k := rfl

@[simp] theorem arbLim_zeroCounts (s : State) (n k : Nat) : arbLim (zeroCounts s n) k = arbLim s k := by
  rw [zeroCounts, arbLim_rset _ _ _ _ _ (by decide), arbLim_rset _ _ _ _ _ (by decide)]

/-- What a state adds to the counters when the arbiter's present cycle closes. -/
theorem arbReach_succ_counts {s : State} {n c : Nat} (h : (getArb s n).cyc = c) :
    (arbReach s n (c + 1)).2 =
      (b2n ((getArb s n).close (arbLim s n)).preempt, b2n ((getArb s n).close (arbLim s n)).dead) := by
  subst h
  exact (getArb s n).runTo_succ_counts (arbLim s n)

/-- Settles O10: the arbiter reaches the cycle of the write (`getArb_arbTo_cyc`), both registers then hold 0, and the
next cycle adds the close of that one alone (`arbReach_succ_counts`). -/
theorem arbiterCountersCleared : Obligations.ArbiterCountersCleared := by
  unfold Obligations.ArbiterCountersCleared
  intro s t n hfab hn hcyc
  have hlim : arbLim (zeroCounts (arbTo s n t) n) n = arbLim s n := by simp
  have hcounts := arbReach_succ_counts (s := zeroCounts (arbTo s n t) n) (getArb_arbTo_cyc hcyc)
  rw [hlim] at hcounts
  refine ⟨zeroCounts (arbTo s n t) n, exec_clearCounts t hfab hn, ?_, ?_, rfl, arbTo_sameMemory s n t⟩
  · rw [rget_zeroCounts_preempt, hcounts, Nat.zero_add]
  · rw [rget_zeroCounts_dead, hcounts, Nat.zero_add]

end Sys2Proof.Machine
end

section
/-! The panels go dark (R402), and the timed descent from PARK to DEEP (R418). `PanelOnly` is the frame of an update of
a panel port: the record of the ports, and registers of block PNL. Every part of `panelDark` keeps within it, so the
descent changes nothing else beside the power state. -/

namespace Sys2Proof.Machine

/-! ### What a panel port changes -/

/-- Only the records of the panel ports and registers of block PNL have changed. -/
def PanelOnly (s u : State) : Prop := u = { s with regs := u.regs, pnl := u.pnl } ∧ BlocksOnly s u [.pnl]

theorem PanelOnly.refl (s : State) : PanelOnly s s := ⟨rfl, fun _ _ => rfl⟩

theorem PanelOnly.trans {s u v : State} (h : PanelOnly s u) (k : PanelOnly u v) : PanelOnly s v := by
  obtain ⟨hu, hub⟩ := h
  obtain ⟨hv, hvb⟩ := k
  exact ⟨hv.trans (by rw [hu]), hub.trans hvb⟩

theorem modPnl_panelOnly (s : State) (p : Nat) (f : Pnl → Pnl) : PanelOnly s (modPnl s p f) := ⟨rfl, fun _ _ => rfl⟩

/-- The numbers of block PNL's fields make it the block of their keys (`keyBlk_key`). -/
theorem rset_panelOnly (s : State) {f : Fld} (v i j : Nat) (h : f.id / 128 = blkCode .pnl) :
    PanelOnly s (rset s f v i j) :=
  ⟨rfl, rset_blocksOnly s f v i j (by simp [keyBlk_key, h])⟩

/-- VLCD stays at the voltage it has, or the port notes its move and the field takes the new one. -/
theorem vlcdTo_cases (s : State) (p v : Nat) :
    rget s R.PNL_STATUS_VLCD_10MV p = v ∧ vlcdTo s p v = s ∨
    rget s R.PNL_STATUS_VLCD_10MV p ≠ v ∧
      vlcdTo s p v = rset (modPnl s p fun q => { q with move := some (s.now, rget s R.PNL_STATUS_VLCD_10MV p, v) })
        R.PNL_STATUS_VLCD_10MV v p := by
  by_cases h : rget s R.PNL_STATUS_VLCD_10MV p = v
  · exact .inl ⟨h, if_pos h⟩
  · exact .inr ⟨h, if_neg h⟩

theorem vlcdTo_panelOnly (s : State) (p v : Nat) : PanelOnly s (vlcdTo s p v) := by
  obtain ⟨-, hkept⟩ | ⟨-, hmoved⟩ := vlcdTo_cases s p v
  · rw [hkept]
    exact .refl s
  · rw [hmoved]
    exact (modPnl_panelOnly s p _).trans (rset_panelOnly _ _ _ _ (by decide))

theorem panelDark_panelOnly (s : State) (p : Nat) : PanelOnly s (panelDark s p) :=
  (((modPnl_panelOnly s p _).trans (rset_panelOnly _ _ _ _ (by decide))).trans
    (rset_panelOnly _ _ _ _ (by decide))).trans (vlcdTo_panelOnly _ p 0)

/-! ### BLANKED of a dark port -/

@[simp] theorem rget_modPnl (s : State) (p : Nat) (g : Pnl → Pnl) (f : Fld) (i j : Nat) :
    rget (modPnl s p g) f i j = rget s f i j := rfl

@[simp] theorem rget_modAoc (s : State) (g : Aoc → Aoc) (f : Fld) (i j : Nat) :
    rget (modAoc s g) f i j = rget s f i j := rfl

/-- The way of VLCD to a voltage moves no field but VLCD_10MV. -/
theorem rget_vlcdTo_ne (s : State) {f : Fld} (p v i j : Nat) (h : f.id ≠ R.PNL_STATUS_VLCD_10MV.id) :
    rget (vlcdTo s p v) f i j = rget s f i j := by
  obtain ⟨-, hkept⟩ | ⟨-, hmoved⟩ := vlcdTo_cases s p v
  · rw [hkept]
  · rw [hmoved, rget_rset_ne _ _ _ _ _ _ h, rget_modPnl]

theorem rget_panelDark_blanked (s : State) (p k : Nat) :
    rget (panelDark s p) R.PNL_STATUS_BLANKED k = if k % 64 = p % 64 then 1 else rget s R.PNL_STATUS_BLANKED k := by
  rw [panelDark, rget_vlcdTo_ne _ _ _ _ _ (by decide), rget_rset_ne _ _ _ _ _ _ (by decide), rget_rset, rget_modPnl]
  simp [R.PNL_STATUS_BLANKED]

/-! ### DEEP_DESCENT -/

/-- R418's condition: in PARK, with a descent configured, DEEP_AFTER_MIN minutes after the entry, and with a tolerance
that allows DEEP. -/
def DescentDue (s : State) : Prop :=
  s.aoc.power = pwPark ∧ rget s R.AOC_PARK_CFG_DEEP_AFTER_MIN ≠ 0 ∧
    s.aoc.parkedAt + rget s R.AOC_PARK_CFG_DEEP_AFTER_MIN * 60 * fcSec ≤ s.now ∧ 3500000 ≤ tolerance s

/-- The module in DEEP: both panels dark, and the power state alone of the AOC's record. -/
def descended (s : State) : State :=
  modAoc (panelDark (panelDark s 0) 1) fun a => { a with power := pwDeep }

/-- At a command's time the condition is one of the time it comes to and of the state before it. -/
theorem descentDue_advance (s : State) (t : Fc) :
    DescentDue (advance s t) ↔
      s.aoc.power = 2 ∧ rget s R.AOC_PARK_CFG_DEEP_AFTER_MIN ≠ 0 ∧
        s.aoc.parkedAt + rget s R.AOC_PARK_CFG_DEEP_AFTER_MIN * 60 * 400000000 ≤ max s.now t ∧
        3500000 ≤ rget s R.AOC_WAKE_TOLERANCE_US :=
  Iff.rfl

theorem exec_deepDescent_due {s : State} {t : Fc} (h : DescentDue (advance s t)) :
    exec (.deepDescent t) s = .next (descended (advance s t)) :=
  congrArg Host.Outcome.next (if_pos h)

theorem exec_deepDescent_notDue {s : State} {t : Fc} (h : ¬ DescentDue (advance s t)) :
    exec (.deepDescent t) s = .next (advance s t) :=
  congrArg Host.Outcome.next (if_neg h)

theorem bothDark_panelOnly (s : State) : PanelOnly s (panelDark (panelDark s 0) 1) :=
  (panelDark_panelOnly s 0).trans (panelDark_panelOnly _ 1)

theorem descended_aoc (s : State) : (descended s).aoc = { s.aoc with power := 3 } := by
  obtain ⟨hdark, -⟩ := bothDark_panelOnly s
  rw [descended, modAoc, hdark]
  rfl

theorem descended_frame (s : State) :
    descended s = { s with regs := (descended s).regs, aoc := (descended s).aoc, pnl := (descended s).pnl } := by
  obtain ⟨hdark, -⟩ := bothDark_panelOnly s
  rw [descended, modAoc, hdark]

theorem descended_blocksOnly (s : State) : BlocksOnly s (descended s) [.pnl] := (bothDark_panelOnly s).2

theorem rget_descended_blanked_zero (s : State) : rget (descended s) R.PNL_STATUS_BLANKED 0 = 1 := by
  simp [descended, rget_panelDark_blanked]

theorem rget_descended_blanked_one (s : State) : rget (descended s) R.PNL_STATUS_BLANKED 1 = 1 := by
  simp [descended, rget_panelDark_blanked]

/-- Settles O49: when the descent is due the command answers `descended`, whose AOC record, panels and frame are the
lemmas above; each of the other four clauses denies one part of `DescentDue`. -/
theorem descentToDeep : Obligations.DescentToDeep := by
  unfold Obligations.DescentToDeep
  refine ⟨?due, ?off, ?early, ?shallow, ?elsewhere⟩
  case due =>
    intro s t hpark hon htime htol
    exact ⟨descended (advance s t), exec_deepDescent_due ((descentDue_advance s t).2 ⟨hpark, hon, htime, htol⟩),
      descended_aoc _, rget_descended_blanked_zero _, rget_descended_blanked_one _, descended_blocksOnly _,
      descended_frame _⟩
  case off =>
    intro s t hoff
    refine exec_deepDescent_notDue fun hdue => ?_
    obtain ⟨-, hon, -, -⟩ := (descentDue_advance s t).1 hdue
    exact hon hoff
  case early =>
    intro s t hearly
    refine exec_deepDescent_notDue fun hdue => ?_
    obtain ⟨-, -, htime, -⟩ := (descentDue_advance s t).1 hdue
    exact absurd htime (Nat.not_le.2 hearly)
  case shallow =>
    intro s t hshallow
    refine exec_deepDescent_notDue fun hdue => ?_
    obtain ⟨-, -, -, htol⟩ := (descentDue_advance s t).1 hdue
    exact absurd htol (Nat.not_le.2 hshallow)
  case elsewhere =>
    intro s t hpower
    refine exec_deepDescent_notDue fun hdue => ?_
    obtain ⟨hpark, -, -, -⟩ := (descentDue_advance s t).1 hdue
    exact hpower hpark

end Sys2Proof.Machine
end

section
/-! The step and its queue, the state after reset, and reads after writes (R9–R13). -/

namespace Sys2Proof.Machine

/-- Settles O1: `step` matches on the queue alone. -/
theorem stepRunsTheFrontCommand : Obligations.StepRunsTheFrontCommand := by
  unfold Obligations.StepRunsTheFrontCommand
  refine ⟨fun s c rest => rfl, fun s hempty => ?_⟩
  unfold step
  rw [hempty]

/-- Settles O2: whichever the command, its meaning ends in `.next`. -/
theorem commandsNeverStop : Obligations.CommandsNeverStop := by
  unfold Obligations.CommandsNeverStop
  intro s c
  cases c <;> exact ⟨_, rfl⟩

theorem reset_canonical : State.reset.Canonical := ⟨rfl, rfl, rfl⟩

/-- The register table of the reset state lists no field. -/
theorem rget_reset (f : Fld) (i j : Nat) : rget State.reset f i j = f.resetAt i j := rfl

/-- Settles O5. -/
theorem resetState : Obligations.ResetState := by
  unfold Obligations.ResetState
  exact ⟨reset_canonical, ⟨rfl, rfl, rfl, rfl, rfl⟩, rget_reset⟩

/-- A field of another key reads as before a write. -/
theorem rget_rset_of_key_ne (s : State) {f g : Fld} (v : Nat) {i j k l : Nat} (h : f.key i j ≠ g.key k l) :
    rget (rset s f v i j) g k l = rget s g k l := by
  simp only [rget, rset_regs, tblGetD_set, if_neg (Ne.symm h)]

/-- Settles O6. -/
theorem registerFieldReadBack : Obligations.RegisterFieldReadBack := by
  unfold Obligations.RegisterFieldReadBack
  intro s f g v i j k l
  exact ⟨rget_rset_self s f v i j, rget_rset_of_key_ne s v, rfl⟩

/-- Settles O7: the laws of a byte's write and of a list's. -/
theorem hostMemoryReadBack : Obligations.HostMemoryReadBack := by
  unfold Obligations.HostMemoryReadBack
  exact ⟨fun m a _ b hwf hne => ⟨m.read_write_self a b hwf, m.read_write_ne b hne, m.write_wf a b hwf⟩,
    fun m a c l => Memory.read_writeList_of_notMem l m a c⟩

end Sys2Proof.Machine
end

section
/-! What no step may do (O3, O4): `Keeps o s` says of a state `s` reached from `o` that the queue is that of `o`, that time
has not gone back and that the canonical form of `o` is kept. Each operation of the model keeps it; the lemma of an
operation rests on those of the operations it calls. -/

namespace Sys2Proof.Machine

/-- From `o` to `s` the queue stands, time has not gone back, and canonical form is kept. -/
def Keeps (o s : State) : Prop := s.pending = o.pending ∧ o.now ≤ s.now ∧ (o.Canonical → s.Canonical)

variable {o : State}

theorem Keeps.refl (s : State) : Keeps s s := ⟨rfl, Nat.le_refl _, id⟩

/-- What is neither queue, time, register table nor memory is free to change. -/
theorem keeps_update {s : State} {before : Before} {hiLatch : Tbl Nat} {rolLatch : Tbl RolSt} {onesAt : Tbl Nat} {readData : Nat} {freeCount :
Nat} {fabric : Bool} {timeOff : Int} {rtcOff : Int} {log : EventLog} {arbs : Tbl Arb} {reqs : List Req} {till
: Till} {cqIrq : Tbl CqIrq} {irqs : Tbl Nat} {tke : Tke} {sps : Sps} {sfe : Sfe} {fetches : Nat} {drv : Tbl
DrvCh} {dbk : Tbl DrvBank} {sw : Tbl SwCh} {feed : Tbl Feed} {pps : Tbl Pps} {rowEntries : Tbl Nat} {xlk :
Xlk} {nav : Nav} {sto : Sto} {fle : Fle} {ksm : Ksm} {vis : Vision} {can : Tbl CanCtl} {eth : Tbl EthPort}
{pnl : Tbl Pnl} {upd : Upd} {aoc : Aoc} {hlm : Hlm}
    (h : Keeps o s) : Keeps o ⟨s.now, before, s.pending, s.regs, hiLatch, rolLatch, onesAt, readData, freeCount, fabric, timeOff,
      rtcOff, s.mem, s.extMem, log, arbs, reqs, till, cqIrq, irqs, tke, sps, sfe, fetches, drv, dbk, sw,
      feed, pps, rowEntries, xlk, nav, sto, fle, ksm, vis, can, eth, pnl, upd, aoc, hlm⟩ := h

theorem keeps_ite {c : Prop} [Decidable c] {s u : State} (hs : Keeps o s) (hu : Keeps o u) :
    Keeps o (if c then s else u) := by
  split <;> assumption

theorem foldl_keeps {α : Type} {f : State → α → State} {s : State} {l : List α}
    (hf : ∀ u x, Keeps o u → Keeps o (f u x)) (h : Keeps o s) : Keeps o (l.foldl f s) := by
  induction l generalizing s with
  | nil => exact h
  | cons x l ih => exact ih (hf s x h)

theorem foldl_fst_keeps {α β : Type} {f : State × β → α → State × β} {s : State × β} {l : List α}
    (hf : ∀ u x, Keeps o u.1 → Keeps o (f u x).1) (h : Keeps o s.1) : Keeps o (l.foldl f s).1 := by
  induction l generalizing s with
  | nil => exact h
  | cons x l ih => exact ih (hf s x h)

theorem Memory.filter_wf {m : Memory} {q : Nat × Byte → Bool} (h : Memory.wf m = true) :
    Memory.wf (m.filter q) = true := by
  simp only [Memory.wf, Bool.and_eq_true, List.all_eq_true] at *
  exact ⟨tblSorted_filter m q h.1, fun p hp => h.2 p (List.mem_filter.mp hp).1⟩

theorem Memory.writeAreas_wf {l : List (Nat × List Byte)} {m : Memory} (h : Memory.wf m = true) :
    Memory.wf (l.foldl (fun m x => Memory.writeList m x.1 x.2) m) = true := by
  induction l generalizing m with
  | nil => exact h
  | cons x l ih => exact ih (Memory.writeList_wf x.2 m x.1 h)

theorem foldl_snd_keeps {α β : Type} {f : β × State → α → β × State} {s : β × State} {l : List α}
    (hf : ∀ u x, Keeps o u.2 → Keeps o (f u x).2) (h : Keeps o s.2) : Keeps o (l.foldl f s).2 := by
  induction l generalizing s with
  | nil => exact h
  | cons x l ih => exact ih (hf s x h)

/-- Whatever next state an outcome answers keeps. -/
def KeepsOut (o : State) (x : Out) : Prop := ∀ u, x = .next u → Keeps o u

theorem keepsOut_next {s : State} (h : Keeps o s) : KeepsOut o (.next s) := by
  intro u hu
  obtain rfl := Host.Outcome.next.inj hu
  exact h


/-! ### Ops -/

theorem advance_keeps {s : State} {t : Fc} (h : Keeps o s) : Keeps o (advance s t) :=
  ⟨h.1, Nat.le_trans h.2.1 (Nat.le_max_left _ _), h.2.2⟩

theorem noteTime_keeps {s : State} (h : Keeps o s) : Keeps o (noteTime s) := keeps_ite h (keeps_update h)

theorem atTime_keeps {t : Fc} {f : State → State} {s : State} (hf : ∀ u, Keeps o u → Keeps o (f u)) (h : Keeps o s) :
    KeepsOut o (atTime t f s) :=
  keepsOut_next (hf _ (advance_keeps h))

theorem atFabric_keeps {t : Fc} {f : State → State} {s : State} (hf : ∀ u, Keeps o u → Keeps o (f u)) (h : Keeps o s)
    : KeepsOut o (atFabric t f s) :=
  keepsOut_next (keeps_ite (hf _ (advance_keeps h)) (advance_keeps h))

theorem afterEdge_keeps {c : Instr} {f : State → State} {s : State} (hf : ∀ u, Keeps o u → Keeps o (f u)) (h : Keeps o
    s) : Keeps o (afterEdge c f s) :=
  keeps_ite (keeps_update h) (hf _ h)

theorem onlyIf_keeps {c : Bool} {f : State → State} {s : State} (hf : ∀ u, Keeps o u → Keeps o (f u)) (h : Keeps o s)
    : Keeps o (onlyIf c f s) :=
  keeps_ite (hf _ h) h

theorem rset_keeps {s : State} {f : Fld} {v i j : Nat} (h : Keeps o s) : Keeps o (rset s f v i j) :=
  ⟨h.1, h.2.1, fun hc => rset_canonical s f v i j (h.2.2 hc)⟩

theorem rsetB_keeps {s : State} {f : Fld} {b : Bool} {i j : Nat} (h : Keeps o s) : Keeps o (rsetB s f b i j) :=
  rset_keeps h

theorem rinc_keeps {s : State} {f : Fld} {n i j : Nat} (h : Keeps o s) : Keeps o (rinc s f n i j) := rset_keeps h

theorem rwrap_keeps {s : State} {f : Fld} {n i j : Nat} (h : Keeps o s) : Keeps o (rwrap s f n i j) := rset_keeps h

theorem rsetBitAt_keeps {s : State} {f : Fld} {n : Nat} {b : Bool} {i j : Nat} (h : Keeps o s) : Keeps o (rsetBitAt s
    f n b i j) :=
  rset_keeps h

theorem rset64_keeps {s : State} {lo hi : Fld} {v i j : Nat} (h : Keeps o s) : Keeps o (rset64 s lo hi v i j) :=
  rset_keeps (rset_keeps h)

theorem rsetS_keeps {s : State} {f : Fld} {v : Int} {i j : Nat} (h : Keeps o s) : Keeps o (rsetS s f v i j) :=
  rset_keeps h

theorem setOnes_keeps {s : State} {f : Fld} {n i j : Nat} (h : Keeps o s) : Keeps o (setOnes s f n i j) :=
  keeps_update (rsetBitAt_keeps h)

theorem clearOnes_keeps {s : State} {f : Fld} {bits i j : Nat} (h : Keeps o s) : Keeps o (clearOnes s f bits i j) :=
  foldl_keeps (fun _ _ hu => keeps_ite (rsetBitAt_keeps hu) hu) h

theorem rolEvent_keeps {s : State} {f : Fld} {v i : Nat} (h : Keeps o s) : Keeps o (rolEvent s f v i) :=
  rset_keeps (keeps_update h)

theorem rolPeakAt_keeps {fc : Nat} {s : State} {f : Fld} {v i : Nat} (h : Keeps o s) : Keeps o (rolPeakAt fc s f v i)
    :=
  keeps_update h

theorem rolPeak_keeps {s : State} {f : Fld} {v i : Nat} (h : Keeps o s) : Keeps o (rolPeak s f v i) :=
  rolPeakAt_keeps h

theorem rolRead_keeps {s : State} {f : Fld} {peak : Bool} {i : Nat} (h : Keeps o s) : Keeps o (rolRead s f peak i).2
    := by
  unfold rolRead
  dsimp only
  split
  · exact h
  · split
    · split
      · exact keeps_update h
      · exact keeps_update h
    · exact keeps_update h

theorem dropKeys_keeps {s : State} {p : Nat → Bool} (h : Keeps o s) : Keeps o (dropKeys s p) :=
  ⟨h.1, h.2.1, fun hc => dropKeys_canonical s p (h.2.2 hc)⟩

theorem resetBlock_keeps {s : State} {b : Blk} {keep : List Fld} (h : Keeps o s) : Keeps o (resetBlock s b keep) :=
  dropKeys_keeps h

theorem resetInst_keeps {s : State} {b : Blk} {which : Nat → Bool} (h : Keeps o s) : Keeps o (resetInst s b which) :=
  dropKeys_keeps h

theorem withFree_keeps {s : State} {f : Nat → State → State} (hf : ∀ x u, Keeps o u → Keeps o (f x u)) (h : Keeps o s)
    : Keeps o (withFree s f) :=
  hf _ _ (keeps_update h)

theorem hostWrite_keeps {s : State} {ext : Bool} {addr : Nat} {b : List Byte} (h : Keeps o s) : Keeps o (hostWrite s
    ext addr b) := by
  cases ext with
  | true => exact ⟨h.1, h.2.1, fun hc => hostWrite_canonical s true addr b (h.2.2 hc)⟩
  | false => exact ⟨h.1, h.2.1, fun hc => hostWrite_canonical s false addr b (h.2.2 hc)⟩

theorem queuePut_keeps {s : State} {q : QueueRegs} {i j size : Nat} {mk : Nat → List Byte} (h : Keeps o s) : Keeps o
    (queuePut s q i j size mk) :=
  rset_keeps (rset_keeps (hostWrite_keeps h))

theorem queueEnable_keeps {s : State} {q : QueueRegs} {i j : Nat} {on : Bool} (h : Keeps o s) : Keeps o (queueEnable s
    q i j on) :=
  keeps_ite (keeps_ite h (rset_keeps (rset_keeps (rset_keeps (rset_keeps (rset_keeps h)))))) (rset_keeps h)

theorem queueHead_keeps {s : State} {q : QueueRegs} {i j idx ph : Nat} (h : Keeps o s) : Keeps o (queueHead s q i j
    idx ph) :=
  rset_keeps (rset_keeps h)

theorem telemetryPut_keeps {s : State} {kind : Nat} {body : List Byte} (h : Keeps o s) : Keeps o (telemetryPut s kind
    body) :=
  keeps_ite (keeps_ite (queuePut_keeps h) (rinc_keeps h)) h

theorem journalPut_keeps {s : State} {e : Ev} (h : Keeps o s) : Keeps o (journalPut s e) :=
  keeps_ite (rinc_keeps (rset_keeps (keeps_update h))) (rset_keeps (keeps_update h))

theorem nextSeq_keeps {s : State} (h : Keeps o s) : Keeps o (nextSeq s) := keeps_update h

theorem writeEvent_keeps {s : State} {code inst data : Nat} {tick : Bool} (h : Keeps o s) : Keeps o (writeEvent s code
    inst data tick) :=
  journalPut_keeps (telemetryPut_keeps (nextSeq_keeps h))

theorem raiseEv_keeps {s : State} {code inst data : Nat} (h : Keeps o s) : Keeps o (raiseEv s code inst data) :=
  keeps_ite (keeps_update (rinc_keeps (telemetryPut_keeps (nextSeq_keeps (keeps_update h))))) (keeps_ite (keeps_ite
    (keeps_ite (writeEvent_keeps (writeEvent_keeps (writeEvent_keeps (keeps_update (keeps_update h)))))
    (writeEvent_keeps (writeEvent_keeps (keeps_update (keeps_update h))))) (keeps_ite (writeEvent_keeps (keeps_update
    (rinc_keeps (telemetryPut_keeps (nextSeq_keeps (writeEvent_keeps (keeps_update (keeps_update h))))))))
    (keeps_update (rinc_keeps (telemetryPut_keeps (nextSeq_keeps (writeEvent_keeps (keeps_update (keeps_update
    h))))))))) (keeps_ite (writeEvent_keeps (writeEvent_keeps (keeps_update h))) (writeEvent_keeps (keeps_update h))))

theorem marginPut_keeps {s : State} {r : AgeRec} (h : Keeps o s) : Keeps o (marginPut s r) :=
  telemetryPut_keeps (keeps_update h)

theorem monitorPut_keeps {s : State} {r : AgeRec} (h : Keeps o s) : Keeps o (monitorPut s r) := keeps_update h

theorem marginChange_keeps {s : State} {kind inst action old new : Nat} (h : Keeps o s) : Keeps o (marginChange s kind
    inst action old new) :=
  raiseEv_keeps (marginPut_keeps h)

theorem updReq_keeps {s : State} {r : Ref} {f : Req → Req} (h : Keeps o s) : Keeps o (updReq s r f) := keeps_update h

theorem tillPost_keeps {s : State} {r : TillRec} (h : Keeps o s) : Keeps o (tillPost s r) := keeps_update h

theorem complete_keeps {s : State} {r : Ref} {status detail : Nat} {row : Option Nat} (h : Keeps o s) : Keeps o
    (complete s r status detail row) :=
  keeps_ite h (tillPost_keeps (updReq_keeps h))

theorem completeOpt_keeps {s : State} {r : Option Ref} {status detail : Nat} {row : Option Nat} (h : Keeps o s) :
    Keeps o (completeOpt s r status detail row) := by
  unfold completeOpt
  split
  · exact complete_keeps h
  · exact h

theorem ifCommanding_keeps {r : Ref} {row : Option Nat} {f : State → State} {s : State} (hf : ∀ u, Keeps o u → Keeps o
    (f u)) (h : Keeps o s) : Keeps o (ifCommanding r row f s) :=
  keeps_ite (hf _ h) (complete_keeps h)

theorem completeRow_keeps {s : State} {prod : Nat} {r : Ref} {status detail row : Nat} (h : Keeps o s) : Keeps o
    (completeRow s prod r status detail row) :=
  keeps_ite h (keeps_update (updReq_keeps h))

theorem takeReq_keeps {s : State} {r : Ref} (h : Keeps o s) : Keeps o (takeReq s r) := updReq_keeps h

theorem withDesc_keeps {r : Ref} {cls op : Nat} {f : Desc → State → State} {s : State} (hf : ∀ x u, Keeps o u → Keeps
    o (f x u)) (h : Keeps o s) : Keeps o (withDesc r cls op f s) := by
  unfold withDesc
  split
  · exact keeps_ite (hf _ _ (takeReq_keeps h)) h
  · exact h

theorem abortReqAt_keeps {s : State} {r : Ref} {a : Nat} {stop : State → State} (hstop : ∀ u, Keeps o u → Keeps o
    (stop u)) (h : Keeps o s) : Keeps o (abortReqAt s r a stop) := by
  unfold abortReqAt
  split
  · exact h
  · refine keeps_ite ?_ ?_
    · exact h
    · dsimp only
      split
      · exact hstop _ (updReq_keeps h)
      · exact hstop _ (updReq_keeps h)
      · exact updReq_keeps (updReq_keeps h)
      · exact updReq_keeps h

theorem abortReq_keeps {s : State} {r : Ref} {stop : State → State} (hstop : ∀ u, Keeps o u → Keeps o (stop u)) (h :
    Keeps o s) : Keeps o (abortReq s r stop) :=
  abortReqAt_keeps hstop h

/-! ### Arbiter -/

theorem setArb_keeps {s : State} {n : Nat} {a : Arb} (h : Keeps o s) : Keeps o (setArb s n a) := keeps_update h

theorem arbTo_keeps {s : State} {n c : Nat} (h : Keeps o s) : Keeps o (arbTo s n c) :=
  rinc_keeps (rinc_keeps (setArb_keeps h))

theorem arbTickets_keeps {s : State} {n : Nat} (h : Keeps o s) : Keeps o (arbTickets s n) :=
  foldl_keeps (fun _ _ hu => keeps_ite (rolPeakAt_keeps (setArb_keeps hu)) hu) (setArb_keeps h)

theorem arbTell_keeps {s : State} {n c : Nat} {f : ArbEv → ArbEv} (h : Keeps o s) : Keeps o (arbTell s n c f) :=
  arbTickets_keeps (setArb_keeps (arbTo_keeps h))

theorem arbRequest_keeps {s : State} {n c : Nat} {ps : List Nat} (h : Keeps o s) : Keeps o (arbRequest s n c ps) :=
  arbTell_keeps h

theorem arbRelease_keeps {s : State} {n c : Nat} (h : Keeps o s) : Keeps o (arbRelease s n c) := arbTell_keeps h

theorem arbExpire_keeps {s : State} {n c : Nat} (h : Keeps o s) : Keeps o (arbExpire s n c) := arbTell_keeps h

theorem arbWithdraw_keeps {s : State} {n c p : Nat} (h : Keeps o s) : Keeps o (arbWithdraw s n c p) := arbTell_keeps h

theorem arbEmergency_keeps {s : State} {n c : Nat} (h : Keeps o s) : Keeps o (arbEmergency s n c) :=
  keeps_ite (arbTell_keeps h) h

theorem arbEmergencyEnd_keeps {s : State} {n c : Nat} (h : Keeps o s) : Keeps o (arbEmergencyEnd s n c) :=
  arbTell_keeps h

theorem fenceNext_keeps {s : State} {sup : Nat} (h : Keeps o s) : Keeps o (fenceNext s sup) := by
  unfold fenceNext
  split
  · exact keeps_update h
  · exact h

theorem fenceAsk_keeps {s : State} {c : Nat} (h : Keeps o s) : Keeps o (fenceAsk s c) := keeps_ite (setArb_keeps h) h

theorem fenceServe_keeps {s : State} {c : Nat} (h : Keeps o s) : Keeps o (fenceServe s c) := by
  unfold fenceServe
  split
  · exact fenceAsk_keeps (fenceNext_keeps (rwrap_keeps (keeps_update h)))
  · exact h

theorem fenceRun_keeps {s : State} {c : Nat} (h : Keeps o s) : Keeps o (fenceRun s c) := by
  unfold fenceRun
  split
  · exact keeps_update (foldl_keeps (fun _ _ hu => fenceServe_keeps hu) h)
  · exact h

theorem tillRuns_keeps {c n : Nat} {s : State} (h : Keeps o s) : Keeps o (tillRuns c n s) := by
  induction n generalizing s with
  | zero => exact h
  | succ n ih =>
    unfold tillRuns
    dsimp only
    split
    · exact keeps_ite (arbTo_keeps h) (ih (fenceRun_keeps (keeps_update (arbTo_keeps h))))
    · exact arbTo_keeps h

theorem tillTo_keeps {s : State} {c : Nat} (h : Keeps o s) : Keeps o (tillTo s c) := tillRuns_keeps (fenceRun_keeps h)

theorem fencePost_keeps {s0 : State} {f : FenceRec} (h : Keeps o s0) : Keeps o (fencePost s0 f) :=
  keeps_ite (keeps_update (tillTo_keeps h)) (fenceAsk_keeps (keeps_update (tillTo_keeps h)))

theorem arbAt_keeps {s : State} {n c : Nat} (h : Keeps o s) : Keeps o (arbAt s n c) := keeps_ite (tillTo_keeps h) h

theorem execArbRequest_keeps {t : Nat} {inst : Fin 22} {reqs : List Nat} {s : State} (h : Keeps o s) : KeepsOut o
    (execArbRequest t inst reqs s) :=
  keepsOut_next (keeps_ite (arbRequest_keeps (arbAt_keeps h)) h)

theorem execArbWithdraw_keeps {t : Nat} {inst : Fin 22} {req : Nat} {s : State} (h : Keeps o s) : KeepsOut o
    (execArbWithdraw t inst req s) :=
  keepsOut_next (keeps_ite (arbWithdraw_keeps (arbAt_keeps h)) h)

theorem execEmergencyRequest_keeps {t : Nat} {inst : Fin 22} {s : State} (h : Keeps o s) : KeepsOut o
    (execEmergencyRequest t inst s) :=
  keepsOut_next (keeps_ite h (keeps_ite (arbTickets_keeps (fenceAsk_keeps (tillTo_keeps h))) (arbEmergency_keeps h)))

theorem execClearCounts_keeps {t : Nat} {inst : Fin 22} {s : State} (h : Keeps o s) : KeepsOut o (execClearCounts t
    inst s) :=
  keepsOut_next (keeps_ite (rset_keeps (rset_keeps (arbTo_keeps (arbAt_keeps h)))) h)

/-! ### Links -/

theorem linkAsk_keeps {s : State} {req : Option Nat} (h : Keeps o s) : Keeps o (linkAsk s req) := by
  unfold linkAsk
  dsimp only
  refine keeps_ite ?_ ?_
  · exact h
  · split
    · exact arbRequest_keeps h
    · exact keeps_ite (arbEmergency_keeps h) h

theorem linkPut_keeps {s : State} {typ : Nat} {payload : List Nat} {item : Option (Nat × ResyncItem)} (h : Keeps o s)
    : Keeps o (linkPut s typ payload item) :=
  linkAsk_keeps (keeps_update h)

theorem xlkSend_keeps {s : State} {typ : Nat} {payload : List Nat} {item : Option (Nat × ResyncItem)} (h : Keeps o s)
    : Keeps o (xlkSend s typ payload item) :=
  foldl_keeps (fun _ _ hu => linkPut_keeps hu) h

theorem resyncSend_keeps {s : State} {row : Nat} {item : ResyncItem} (h : Keeps o s) : Keeps o (resyncSend s row item)
    :=
  xlkSend_keeps h

theorem forward_keeps {s : State} {item : ResyncItem} (h : Keeps o s) : Keeps o (forward s item) :=
  keeps_ite (resyncSend_keeps h) h

theorem linkSent_keeps {s : State} {req : Option Nat} (h : Keeps o s) : Keeps o (linkSent s req) := by
  unfold linkSent
  split
  · exact h
  · exact keeps_ite (linkAsk_keeps (keeps_update h)) (keeps_update h)

theorem linkAfter_keeps {s0 : State} {inst : Nat} {s : State} (h : Keeps o s) : Keeps o (linkAfter s0 inst s) := by
  unfold linkAfter
  refine keeps_ite ?_ ?_
  · exact h
  · dsimp only
    split
    · exact keeps_ite (linkSent_keeps h) h
    · exact keeps_ite (linkSent_keeps h) h

theorem camBurst_keeps {s : State} (h : Keeps o s) : Keeps o (camBurst s) := by
  unfold camBurst
  dsimp only
  split
  · exact h
  · split
    · exact h
    · exact hostWrite_keeps (keeps_update h)

theorem execArbRelease_keeps {t : Nat} {inst : Fin 22} {s : State} (h : Keeps o s) : KeepsOut o (execArbRelease t inst
    s) :=
  keepsOut_next (keeps_ite (keeps_ite (camBurst_keeps (linkAfter_keeps (arbRelease_keeps (arbAt_keeps h))))
    (linkAfter_keeps (arbRelease_keeps (arbAt_keeps h)))) h)

theorem execTenureExpiry_keeps {t : Nat} {inst : Fin 22} {s : State} (h : Keeps o s) : KeepsOut o (execTenureExpiry t
    inst s) :=
  keepsOut_next (keeps_ite (linkAfter_keeps (arbExpire_keeps (arbAt_keeps h))) h)

theorem execEmergencyGrantEnd_keeps {t : Nat} {inst : Fin 22} {s : State} (h : Keeps o s) : KeepsOut o
    (execEmergencyGrantEnd t inst s) :=
  keepsOut_next (keeps_ite (keeps_ite (fenceAsk_keeps (keeps_update (arbEmergencyEnd_keeps (arbAt_keeps h))))
    (linkAfter_keeps (arbEmergencyEnd_keeps (arbAt_keeps h)))) h)

/-! ### Solver -/

theorem commitSolve_keeps {s : State} {o' : SolveOut} (h : Keeps o s) : Keeps o (commitSolve s o') :=
  keeps_ite (raiseEv_keeps (keeps_ite (raiseEv_keeps (keeps_update (foldl_keeps (fun _ _ hu => rset_keeps hu)
    (foldl_keeps (fun _ _ hu => rset_keeps (rset_keeps (rset_keeps hu))) (rinc_keeps (rset_keeps (rset_keeps
    (rset_keeps (rset_keeps (keeps_ite (rinc_keeps (rset64_keeps (rset_keeps (rsetB_keeps (rsetB_keeps (rsetB_keeps
    (rsetB_keeps (rsetB_keeps (rset_keeps (rset_keeps (rset_keeps h))))))))))) (keeps_ite (rinc_keeps (rset64_keeps
    (rset_keeps (rsetB_keeps (rsetB_keeps (rsetB_keeps (rsetB_keeps (rsetB_keeps (rset_keeps (rset_keeps (rset_keeps
    h))))))))))) (rset64_keeps (rset_keeps (rsetB_keeps (rsetB_keeps (rsetB_keeps (rsetB_keeps (rsetB_keeps
    (rset_keeps (rset_keeps (rset_keeps h))))))))))))))))))))) (keeps_update (foldl_keeps (fun _ _ hu => rset_keeps
    hu) (foldl_keeps (fun _ _ hu => rset_keeps (rset_keeps (rset_keeps hu))) (rinc_keeps (rset_keeps (rset_keeps
    (rset_keeps (rset_keeps (keeps_ite (rinc_keeps (rset64_keeps (rset_keeps (rsetB_keeps (rsetB_keeps (rsetB_keeps
    (rsetB_keeps (rsetB_keeps (rset_keeps (rset_keeps (rset_keeps h))))))))))) (keeps_ite (rinc_keeps (rset64_keeps
    (rset_keeps (rsetB_keeps (rsetB_keeps (rsetB_keeps (rsetB_keeps (rsetB_keeps (rset_keeps (rset_keeps (rset_keeps
    h))))))))))) (rset64_keeps (rset_keeps (rsetB_keeps (rsetB_keeps (rsetB_keeps (rsetB_keeps (rsetB_keeps
    (rset_keeps (rset_keeps (rset_keeps h)))))))))))))))))))))) (keeps_ite (raiseEv_keeps (keeps_update (foldl_keeps
    (fun _ _ hu => rset_keeps hu) (foldl_keeps (fun _ _ hu => rset_keeps (rset_keeps (rset_keeps hu))) (rinc_keeps
    (rset_keeps (rset_keeps (rset_keeps (rset_keeps (keeps_ite (rinc_keeps (rset64_keeps (rset_keeps (rsetB_keeps
    (rsetB_keeps (rsetB_keeps (rsetB_keeps (rsetB_keeps (rset_keeps (rset_keeps (rset_keeps h))))))))))) (keeps_ite
    (rinc_keeps (rset64_keeps (rset_keeps (rsetB_keeps (rsetB_keeps (rsetB_keeps (rsetB_keeps (rsetB_keeps (rset_keeps
    (rset_keeps (rset_keeps h))))))))))) (rset64_keeps (rset_keeps (rsetB_keeps (rsetB_keeps (rsetB_keeps (rsetB_keeps
    (rsetB_keeps (rset_keeps (rset_keeps (rset_keeps h))))))))))))))))))))) (keeps_update (foldl_keeps (fun _ _ hu =>
    rset_keeps hu) (foldl_keeps (fun _ _ hu => rset_keeps (rset_keeps (rset_keeps hu))) (rinc_keeps (rset_keeps
    (rset_keeps (rset_keeps (rset_keeps (keeps_ite (rinc_keeps (rset64_keeps (rset_keeps (rsetB_keeps (rsetB_keeps
    (rsetB_keeps (rsetB_keeps (rsetB_keeps (rset_keeps (rset_keeps (rset_keeps h))))))))))) (keeps_ite (rinc_keeps
    (rset64_keeps (rset_keeps (rsetB_keeps (rsetB_keeps (rsetB_keeps (rsetB_keeps (rsetB_keeps (rset_keeps (rset_keeps
    (rset_keeps h))))))))))) (rset64_keeps (rset_keeps (rsetB_keeps (rsetB_keeps (rsetB_keeps (rsetB_keeps
    (rsetB_keeps (rset_keeps (rset_keeps (rset_keeps h)))))))))))))))))))))

theorem qualPost_keeps {s : State} {r : Ref} {d : Desc} (h : Keeps o s) : Keeps o (qualPost s r d) :=
  keeps_ite (complete_keeps h) (keeps_ite (complete_keeps h) (keeps_ite (complete_keeps h) (complete_keeps
    (forward_keeps (keeps_update h)))))

theorem envelopeSet_keeps {s : State} {r : Ref} {d : Desc} (h : Keeps o s) : Keeps o (envelopeSet s r d) := by
  unfold envelopeSet
  dsimp only
  refine keeps_ite ?_ ?_
  · exact complete_keeps h
  · refine keeps_ite ?_ ?_
    · refine forward_keeps ?_
      refine keeps_update ?_
      split
      · exact completeOpt_keeps h
      · exact h
    · refine keeps_ite ?_ ?_
      · exact complete_keeps h
      · split
        · exact complete_keeps h
        · refine keeps_ite ?_ ?_
          · exact complete_keeps h
          · refine forward_keeps ?_
            refine keeps_update ?_
            split
            · exact completeOpt_keeps h
            · exact h

theorem envEdge_keeps {s : State} (h : Keeps o s) : Keeps o (envEdge s) :=
  keeps_update (foldl_keeps (fun _ _ hu => completeOpt_keeps (keeps_update hu)) h)

theorem execQualPost_keeps {t : Fc} {r : Ref} {s : State} (h : Keeps o s) : KeepsOut o (execQualPost t r s) :=
  atFabric_keeps (fun _ hu => withDesc_keeps (fun _ _ hu1 => ifCommanding_keeps (fun _ hu2 => qualPost_keeps hu2) hu1)
    hu) h

theorem serveEnvelope_keeps {s : State} {r : Ref} (h : Keeps o s) : Keeps o (serveEnvelope s r) :=
  withDesc_keeps (fun _ _ hu => ifCommanding_keeps (fun _ hu1 => envelopeSet_keeps hu1) hu) h

theorem execEnvelopeSet_keeps {t : Fc} {r : Ref} {s : State} (h : Keeps o s) : KeepsOut o (execEnvelopeSet t r s) :=
  atFabric_keeps (fun _ hu => afterEdge_keeps (fun _ hu1 => serveEnvelope_keeps hu1) hu) h

/-! ### Patterns -/

theorem completeTke_keeps {s : State} {r : Ref} {status detail : Nat} (h : Keeps o s) : Keeps o (completeTke s r
    status detail) :=
  complete_keeps h

theorem completeTkeOpt_keeps {s : State} {r : Option Ref} {status detail : Nat} (h : Keeps o s) : Keeps o
    (completeTkeOpt s r status detail) :=
  completeOpt_keeps h

theorem patternLoad_keeps {s : State} {r : Ref} {d : Desc} {img : List Nat} (h : Keeps o s) : Keeps o (patternLoad s r
    d img) :=
  keeps_ite (completeTke_keeps h) (keeps_ite (completeTke_keeps h) (keeps_ite (completeTke_keeps h) (keeps_update h)))

theorem supersedePattern_keeps {s : State} (h : Keeps o s) : Keeps o (supersedePattern s) := by
  unfold supersedePattern
  split
  · exact rinc_keeps (completeTkeOpt_keeps (keeps_update h))
  · exact h

theorem pendPattern_keeps {s : State} {q : PendPat} (h : Keeps o s) : Keeps o (pendPattern s q) :=
  keeps_update (supersedePattern_keeps h)

theorem admitMain_keeps {s : State} {p : Pattern} {r : Ref} {detail : Nat} (h : Keeps o s) : Keeps o (admitMain s p r
    detail) :=
  keeps_ite (keeps_ite (resyncSend_keeps (keeps_update h)) (pendPattern_keeps h)) (completeTke_keeps (keeps_update
    (supersedePattern_keeps h)))

theorem patternAdmission_keeps {s : State} {ecc : Bool} (h : Keeps o s) : Keeps o (patternAdmission s ecc) := by
  unfold patternAdmission
  split
  · exact h
  · dsimp only
    refine keeps_ite ?_ ?_
    · exact completeTke_keeps (keeps_update h)
    · split
      · exact completeTke_keeps (keeps_update h)
      · exact keeps_ite (keeps_ite (completeTke_keeps (keeps_update h)) (completeTke_keeps (keeps_update (keeps_update
          h)))) (admitMain_keeps (keeps_update h))

theorem tableSet_keeps {s : State} {r : Ref} {d : Desc} {img : List Nat} (h : Keeps o s) : Keeps o (tableSet s r d
    img) :=
  keeps_ite (completeTke_keeps h) (keeps_ite (completeTke_keeps h) (rset_keeps (keeps_update h)))

theorem supersedeTable_keeps {s : State} (h : Keeps o s) : Keeps o (supersedeTable s) := by
  unfold supersedeTable
  split
  · exact rinc_keeps (completeTkeOpt_keeps (rset_keeps (keeps_update h)))
  · exact h

theorem pendTable_keeps {s : State} {r : Option Ref} {b : Nat} (h : Keeps o s) : Keeps o (pendTable s r b) :=
  rset_keeps (keeps_update (supersedeTable_keeps h))

theorem tableSetCheck_keeps {s : State} {ecc : Bool} (h : Keeps o s) : Keeps o (tableSetCheck s ecc) := by
  unfold tableSetCheck
  split
  · exact h
  · dsimp only
    refine keeps_ite ?_ ?_
    · exact completeTke_keeps (rset_keeps (keeps_update h))
    · split
      · exact completeTke_keeps (rset_keeps (keeps_update h))
      · exact keeps_ite (resyncSend_keeps (keeps_update (keeps_update (rset_keeps (keeps_update h)))))
          (pendTable_keeps (keeps_update (rset_keeps (keeps_update h))))

theorem flipTable_keeps {s : State} (h : Keeps o s) : Keeps o (flipTable s) := by
  unfold flipTable
  split
  · exact keeps_ite (completeTkeOpt_keeps (rset64_keeps (rinc_keeps (rset_keeps (rset_keeps (keeps_update h)))))) h
  · exact h

theorem swapPattern_keeps {s : State} (h : Keeps o s) : Keeps o (swapPattern s) := by
  unfold swapPattern
  split
  · exact keeps_ite (completeTkeOpt_keeps (keeps_update h)) h
  · exact h

theorem promote_keeps {s : State} {r : Ref} (h : Keeps o s) : Keeps o (promote s r) :=
  keeps_ite (completeTke_keeps h) (keeps_update h)

theorem promoteEdge_keeps {s : State} (h : Keeps o s) : Keeps o (promoteEdge s) := by
  unfold promoteEdge
  split
  · exact h
  · exact foldl_keeps (fun _ _ hu => completeTke_keeps hu) (rset_keeps (keeps_update h))

theorem promoteRefuse_keeps {s : State} (h : Keeps o s) : Keeps o (promoteRefuse s) :=
  foldl_keeps (fun _ _ hu => completeTke_keeps hu) (keeps_update h)

theorem rrecHead_keeps {s : State} {idx ph : Nat} (h : Keeps o s) : Keeps o (rrecHead s idx ph) := queueHead_keeps h

theorem execPatternLoad_keeps {t : Fc} {r : Ref} {image : List Nat} {s : State} (h : Keeps o s) : KeepsOut o
    (execPatternLoad t r image s) :=
  atFabric_keeps (fun _ hu => keeps_ite (withDesc_keeps (fun _ _ hu1 => ifCommanding_keeps (fun _ hu2 =>
    patternLoad_keeps hu2) hu1) hu) hu) h

theorem execPatternAdmission_keeps {t : Fc} {ecc : Bool} {s : State} (h : Keeps o s) : KeepsOut o
    (execPatternAdmission t ecc s) :=
  atFabric_keeps (fun _ hu => afterEdge_keeps (fun _ hu1 => patternAdmission_keeps hu1) hu) h

theorem execTableSet_keeps {t : Fc} {r : Ref} {image : List Nat} {s : State} (h : Keeps o s) : KeepsOut o
    (execTableSet t r image s) :=
  atFabric_keeps (fun _ hu => keeps_ite (withDesc_keeps (fun _ _ hu1 => ifCommanding_keeps (fun _ hu2 =>
    tableSet_keeps hu2) hu1) hu) hu) h

theorem execTableSetCheck_keeps {t : Fc} {ecc : Bool} {s : State} (h : Keeps o s) : KeepsOut o (execTableSetCheck t
    ecc s) :=
  atFabric_keeps (fun _ hu => afterEdge_keeps (fun _ hu1 => tableSetCheck_keeps hu1) hu) h

theorem servePromote_keeps {s : State} {r : Ref} (h : Keeps o s) : Keeps o (servePromote s r) :=
  keeps_ite (withDesc_keeps (fun _ _ hu => ifCommanding_keeps (fun _ hu1 => promote_keeps hu1) hu) h) h

theorem execPromote_keeps {t : Fc} {r : Ref} {s : State} (h : Keeps o s) : KeepsOut o (execPromote t r s) :=
  atFabric_keeps (fun _ hu => afterEdge_keeps (fun _ hu1 => servePromote_keeps hu1) hu) h

theorem execRrecHeadWrite_keeps {t : Fc} {idx : Fin 65536} {ph : Fin 2} {s : State} (h : Keeps o s) : KeepsOut o
    (execRrecHeadWrite t idx ph s) :=
  atFabric_keeps (fun _ hu => rrecHead_keeps hu) h

/-! ### Sfe -/

theorem setImp_keeps {s : State} {n : Nat} {c : ImpCh} (h : Keeps o s) : Keeps o (setImp s n c) := keeps_update h

theorem impOpen_keeps {s : State} {n : Nat} {xs : List Int} (h : Keeps o s) : Keeps o (impOpen s n xs) :=
  keeps_ite (setImp_keeps h) h

theorem noteClip_keeps {s : State} {full : Bool} (h : Keeps o s) : Keeps o (noteClip s full) :=
  keeps_ite (rinc_keeps h) h

theorem impClose_keeps {s : State} {n : Nat} {xs : List Int} (h : Keeps o s) : Keeps o (impClose s n xs) :=
  keeps_ite (noteClip_keeps (setImp_keeps h)) h

theorem impStuck_keeps {s : State} {n : Nat} {xs : List Int} (h : Keeps o s) : Keeps o (impStuck s n xs) :=
  keeps_ite (keeps_ite (rinc_keeps (noteClip_keeps (setImp_keeps h))) (raiseEv_keeps (rinc_keeps (noteClip_keeps
    (setImp_keeps h))))) h

theorem setFrq_keeps {s : State} {n : Nat} {c : FrqIn} (h : Keeps o s) : Keeps o (setFrq s n c) := keeps_update h

theorem setQuad_keeps {s : State} {k : Nat} {q : QuadPair} (h : Keeps o s) : Keeps o (setQuad s k q) := keeps_update h

theorem frqEdge_keeps {s : State} {n held : Nat} (h : Keeps o s) : Keeps o (frqEdge s n held) :=
  keeps_ite (setFrq_keeps h) h

theorem quadEdge_keeps {s : State} {k : Nat} {a b : Bool} (h : Keeps o s) : Keeps o (quadEdge s k a b) :=
  keeps_ite (keeps_ite (rinc_keeps (setQuad_keeps h)) (setQuad_keeps h)) (setQuad_keeps h)

theorem quadZero_keeps {s : State} {mask : Nat} (h : Keeps o s) : Keeps o (quadZero s mask) :=
  foldl_keeps (fun _ _ hu => keeps_ite (setQuad_keeps hu) hu) h

theorem digSamples_keeps {s : State} {n : Nat} {uvs : List Nat} (h : Keeps o s) : Keeps o (digSamples s n uvs) :=
  keeps_ite (keeps_update h) h

theorem excMeasure_keeps {s : State} {n ma mv : Nat} (h : Keeps o s) : Keeps o (excMeasure s n ma mv) :=
  keeps_ite (keeps_update h) h

theorem setSsup_keeps {s : State} {n : Nat} {c : Ssup} (h : Keeps o s) : Keeps o (setSsup s n c) := keeps_update h

theorem ssupFault_keeps {s : State} {n ma mv since : Nat} (h : Keeps o s) : Keeps o (ssupFault s n ma mv since) :=
  keeps_ite (keeps_ite (raiseEv_keeps (rsetBitAt_keeps (setOnes_keeps (rsetBitAt_keeps (setSsup_keeps h)))))
    (setOnes_keeps (rsetBitAt_keeps (setSsup_keeps h)))) h

theorem ssupRestart_keeps {s : State} {n : Nat} (h : Keeps o s) : Keeps o (ssupRestart s n) := by
  unfold ssupRestart
  dsimp only
  split
  · exact keeps_ite (rsetBitAt_keeps (setSsup_keeps h)) h
  · exact h

theorem ssupEnable_keeps {s : State} {n : Nat} {en : Bool} (h : Keeps o s) : Keeps o (ssupEnable s n en) :=
  keeps_ite (setSsup_keeps (rsetBitAt_keeps (rsetBitAt_keeps (rsetB_keeps h)))) (keeps_ite (setSsup_keeps (rsetB_keeps
    h)) (rsetB_keeps h))

theorem converterSwap_keeps {s : State} {b gain offset : Nat} (h : Keeps o s) : Keeps o (converterSwap s b gain
    offset) :=
  keeps_ite (keeps_ite (raiseEv_keeps (rsetBitAt_keeps (rinc_keeps (keeps_update h)))) (rinc_keeps (keeps_update h)))
    h

theorem sfeNewTick_keeps {s : State} {recs : Tbl Nat} {x : SfeSamples} (h : Keeps o s) : Keeps o (sfeNewTick s recs x)
    :=
  keeps_update h

theorem ztEdge_keeps {s : State} {holds : Bool} {x1 : Option F32} (h : Keeps o s) : Keeps o (ztEdge s holds x1) :=
  keeps_update h

theorem ztSettle_keeps {s : State} (h : Keeps o s) : Keeps o (ztSettle s) := by
  unfold ztSettle
  dsimp only
  split
  · exact keeps_ite (keeps_update h) h
  · exact h

theorem ztWindowEnd_keeps {s : State} {start : Nat} (h : Keeps o s) : Keeps o (ztWindowEnd s start) := by
  unfold ztWindowEnd
  dsimp only
  split
  · exact keeps_ite (keeps_update h) h
  · exact h

theorem ztJudge_keeps {s : State} (h : Keeps o s) : Keeps o (ztJudge s) := by
  unfold ztJudge
  split
  · exact h
  · dsimp only
    refine keeps_ite ?_ ?_
    · exact keeps_update h
    · split
      · exact keeps_update (keeps_update h)
      · exact keeps_ite (rinc_keeps (rset_keeps (keeps_update h))) (raiseEv_keeps (rinc_keeps (keeps_update h)))

theorem calSet_keeps {s : State} {r : Ref} {d : Desc} (h : Keeps o s) : Keeps o (calSet s r d) := by
  unfold calSet
  dsimp only
  refine keeps_ite ?_ ?_
  · exact complete_keeps h
  · refine keeps_ite ?_ ?_
    · exact complete_keeps h
    · refine forward_keeps ?_
      refine keeps_update ?_
      split
      · exact completeOpt_keeps h
      · exact h

theorem calEdge_keeps {s : State} (h : Keeps o s) : Keeps o (calEdge s) := by
  unfold calEdge
  dsimp only
  refine keeps_update ?_
  refine foldl_keeps ?_ h
  intro _ _ hu
  refine completeOpt_keeps ?_
  split
  · refine rset_keeps ?_
    split
    · exact rset_keeps hu
    · exact hu
  · split
    · exact rset_keeps hu
    · exact hu

theorem clsSelect_keeps {s : State} {r : Ref} {d : Desc} (h : Keeps o s) : Keeps o (clsSelect s r d) := by
  unfold clsSelect
  dsimp only
  refine keeps_ite ?_ ?_
  · refine complete_keeps ?_
    refine forward_keeps ?_
    refine keeps_update ?_
    refine rset_keeps ?_
    split
    · exact completeOpt_keeps h
    · exact h
  · refine forward_keeps ?_
    refine keeps_update ?_
    refine rset_keeps ?_
    refine rset_keeps ?_
    split
    · exact completeOpt_keeps h
    · exact h

theorem clsEdge_keeps {s : State} (h : Keeps o s) : Keeps o (clsEdge s) := by
  unfold clsEdge
  split
  · exact completeOpt_keeps (keeps_update (rset_keeps (rset_keeps h)))
  · exact h

theorem sfeApply_keeps {c : Instr} {s : State} (h : Keeps o s) : Keeps o (sfeApply c s) := by
  unfold sfeApply
  split
  · exact impOpen_keeps h
  · exact impClose_keeps h
  · exact impStuck_keeps h
  · exact frqEdge_keeps h
  · exact quadEdge_keeps h
  · exact quadZero_keeps h
  · exact digSamples_keeps h
  · exact excMeasure_keeps h
  · exact ssupFault_keeps h
  · exact ssupRestart_keeps h
  · exact ssupEnable_keeps h
  · exact ztSettle_keeps h
  · exact ztWindowEnd_keeps h
  · exact withDesc_keeps (fun _ _ hu => ifCommanding_keeps (fun _ hu1 => calSet_keeps hu1) hu) h
  · exact withDesc_keeps (fun _ _ hu => ifCommanding_keeps (fun _ hu1 => clsSelect_keeps hu1) hu) h
  · exact h

theorem sfeExec_keeps {t : Fc} {c : Instr} {s : State} (h : Keeps o s) : KeepsOut o (sfeExec t c s) :=
  atFabric_keeps (fun _ hu => afterEdge_keeps (fun _ hu1 => sfeApply_keeps hu1) hu) h

theorem execImpactPulseOpen_keeps {t : Fc} {ch : Fin 48} {quiet : List Int} {x : Int} {s : State} (h : Keeps o s) :
    KeepsOut o (execImpactPulseOpen t ch quiet x s) :=
  sfeExec_keeps h

theorem execImpactPulseClose_keeps {t : Fc} {ch : Fin 48} {x : Int} {samples : List Int} {s : State} (h : Keeps o s) :
    KeepsOut o (execImpactPulseClose t ch x samples s) :=
  sfeExec_keeps h

theorem execImpactStuck_keeps {t : Fc} {ch : Fin 48} {samples : List Int} {s : State} (h : Keeps o s) : KeepsOut o
    (execImpactStuck t ch samples s) :=
  sfeExec_keeps h

theorem execFrqEdge_keeps {t : Fc} {n : Fin 32} {held : Nat} {s : State} (h : Keeps o s) : KeepsOut o (execFrqEdge t n
    held s) :=
  sfeExec_keeps h

theorem execQuadEdge_keeps {t : Fc} {pair : Fin 16} {a b : Bool} {s : State} (h : Keeps o s) : KeepsOut o
    (execQuadEdge t pair a b s) :=
  sfeExec_keeps h

theorem execQuadZero_keeps {t : Fc} {mask : Fin 65536} {s : State} (h : Keeps o s) : KeepsOut o (execQuadZero t mask
    s) :=
  sfeExec_keeps h

theorem execDigDebounceExpiry_keeps {t : Fc} {n : Fin 64} {uv : Nat} {uvs : List Nat} {s : State} (h : Keeps o s) :
    KeepsOut o (execDigDebounceExpiry t n uv uvs s) :=
  sfeExec_keeps h

theorem execExcFault_keeps {t : Fc} {cell : Fin 4} {ma mv : Nat} {s : State} (h : Keeps o s) : KeepsOut o
    (execExcFault t cell ma mv s) :=
  sfeExec_keeps h

theorem execSsupFaultOff_keeps {t : Fc} {n : Fin 8} {ma mv : Nat} {since : Fc} {s : State} (h : Keeps o s) : KeepsOut
    o (execSsupFaultOff t n ma mv since s) :=
  sfeExec_keeps h

theorem execSsupRestart_keeps {t : Fc} {n : Fin 8} {s : State} (h : Keeps o s) : KeepsOut o (execSsupRestart t n s) :=
  sfeExec_keeps h

theorem execSsupEnable_keeps {t : Fc} {n : Fin 8} {en : Bool} {s : State} (h : Keeps o s) : KeepsOut o (execSsupEnable
    t n en s) :=
  sfeExec_keeps h

theorem execConverterSwap_keeps {t : Fc} {group : Fin 14} {gain offset : Nat} {s : State} (h : Keeps o s) : KeepsOut o
    (execConverterSwap t group gain offset s) :=
  atFabric_keeps (fun _ hu => converterSwap_keeps hu) h

theorem execZtSettleExpiry_keeps {t : Fc} {s : State} (h : Keeps o s) : KeepsOut o (execZtSettleExpiry t s) :=
  sfeExec_keeps h

theorem execZtWindowEnd_keeps {t start : Fc} {s : State} (h : Keeps o s) : KeepsOut o (execZtWindowEnd t start s) :=
  sfeExec_keeps h

theorem execCalSet_keeps {t : Fc} {r : Ref} {s : State} (h : Keeps o s) : KeepsOut o (execCalSet t r s) :=
  sfeExec_keeps h

theorem execClsSelect_keeps {t : Fc} {r : Ref} {s : State} (h : Keeps o s) : KeepsOut o (execClsSelect t r s) :=
  sfeExec_keeps h

/-! ### Stitches -/

theorem runStitch_keeps {s : State} {typ : Nat} {f : Stitch → State → State} (hf : ∀ x u, Keeps o u → Keeps o (f x u))
    (h : Keeps o s) : Keeps o (runStitch s typ f) := by
  unfold runStitch
  split
  · exact keeps_ite (keeps_update (hf _ _ h)) h
  · exact h

theorem stage_keeps {s : State} {f : Staged → Staged} (h : Keeps o s) : Keeps o (stage s f) := keeps_update h

theorem gatherGroup_keeps {st : Stitch} {s : State} (h : Keeps o s) : Keeps o (gatherGroup st s) :=
  foldl_keeps (fun _ _ hu => keeps_ite hu (foldl_keeps (fun _ _ hu1 => keeps_update hu1) hu)) h

theorem compute_keeps {a : Stitch} {s : State} (h : Keeps o s) : Keeps o (compute a s) := keeps_update h

theorem estimateOne_keeps {dt : F32} {s : State} {j : Nat} (h : Keeps o s) : Keeps o (estimateOne dt s j) :=
  stage_keeps h

theorem estimate_keeps {st : Stitch} {s : State} (h : Keeps o s) : Keeps o (estimate st s) :=
  foldl_keeps (fun _ _ hu => keeps_ite hu (estimateOne_keeps hu)) h

theorem regionSelect_keeps {a : Stitch} {s : State} (h : Keeps o s) : Keeps o (regionSelect a s) := by
  unfold regionSelect
  split
  · exact stage_keeps h
  · exact h

theorem solve_keeps {st : Stitch} {s : State} (h : Keeps o s) : Keeps o (solve st s) := by
  unfold solve
  split
  · exact keeps_update (stage_keeps h)
  · exact h

theorem stageLoop_keeps {s : State} {ts : List Nat} {i : Nat} {u : F32} (h : Keeps o s) : Keeps o (stageLoop s ts i u)
    := by
  unfold stageLoop
  dsimp only
  split
  · exact stage_keeps h
  · exact stage_keeps h
  · exact stage_keeps h
  · exact stage_keeps h
  · exact stage_keeps h
  · exact stage_keeps h
  · exact h

theorem loopStage_keeps {s : State} {ts : List Nat} {i : Nat} {n : LoopSt} (h : Keeps o s) : Keeps o (loopStage s ts i
    n) := by
  unfold loopStage
  dsimp only
  split
  · exact stageLoop_keeps (stage_keeps h)
  · exact stage_keeps h

theorem loopOne_keeps {ts : List Nat} {dt : F32} {s : State} {i : Nat} (h : Keeps o s) : Keeps o (loopOne ts dt s i)
    := by
  unfold loopOne
  dsimp only
  split
  · exact h
  · exact loopStage_keeps h
  · split
    · exact loopStage_keeps (rsetBitAt_keeps h)
    · exact keeps_ite (loopStage_keeps (rsetBitAt_keeps h)) (raiseEv_keeps (loopStage_keeps (rsetBitAt_keeps h)))

theorem loops_keeps {st : Stitch} {s : State} (h : Keeps o s) : Keeps o (loops st s) := by
  unfold loops
  split
  · exact foldl_keeps (fun _ _ hu => keeps_ite hu (loopOne_keeps hu)) h
  · exact h

theorem commitLoops_keeps {s : State} {ts : List Nat} (h : Keeps o s) : Keeps o (commitLoops s ts) := by
  unfold commitLoops
  dsimp only
  refine rset_keeps ?_
  refine foldl_keeps ?_ h
  intro _ _ hu
  split
  · exact keeps_ite (rset_keeps (keeps_update hu)) (keeps_update hu)
  · exact rset_keeps (keeps_ite (rset_keeps (keeps_update hu)) (keeps_update hu))
  · exact keeps_ite (rset_keeps (keeps_update hu)) (keeps_update hu)

theorem stageCmd_keeps {s : State} {c : OutCmd} (h : Keeps o s) : Keeps o (stageCmd s c) := stage_keeps h

theorem stageDrive_keeps {st : Stitch} {s : State} (h : Keeps o s) : Keeps o (stageDrive st s) := by
  unfold stageDrive
  refine foldl_keeps ?_ h
  intro _ _ hu
  split
  · exact stageCmd_keeps hu
  · exact hu

theorem stageSwitch_keeps {st : Stitch} {s : State} (h : Keeps o s) : Keeps o (stageSwitch st s) := by
  unfold stageSwitch
  refine foldl_keeps ?_ h
  intro _ _ hu
  split
  · exact stageCmd_keeps hu
  · exact hu

theorem endRow_keeps {s : State} {cause : Nat} (h : Keeps o s) : Keeps o (endRow s cause) := keeps_update h

theorem rowCause_keeps {s : State} {cause : Nat} (h : Keeps o s) : Keeps o (rowCause s cause) := by
  unfold rowCause
  dsimp only
  refine keeps_ite ?_ ?_
  · exact h
  · split
    · exact keeps_ite (keeps_ite (rset_keeps (keeps_update h)) (keeps_update h)) h
    · exact keeps_ite h (endRow_keeps h)

theorem lockstep_keeps {s : State} {out : List Nat} (h : Keeps o s) : Keeps o (lockstep s out) := by
  unfold lockstep
  dsimp only
  refine keeps_ite ?_ ?_
  · exact h
  · refine keeps_ite ?_ ?_
    · split
      · exact h
      · exact foldl_keeps (fun _ _ hu => raiseEv_keeps (rinc_keeps (rsetBitAt_keeps hu))) h
    · exact rowCause_keeps (raiseEv_keeps h)

theorem execGatherGroup_keeps {t : Fc} {s : State} (h : Keeps o s) : KeepsOut o (execGatherGroup t s) :=
  atFabric_keeps (fun _ hu => runStitch_keeps (fun _ _ hu1 => gatherGroup_keeps hu1) hu) h

theorem execEstimate_keeps {t : Fc} {s : State} (h : Keeps o s) : KeepsOut o (execEstimate t s) :=
  atFabric_keeps (fun _ hu => runStitch_keeps (fun _ _ hu1 => estimate_keeps hu1) hu) h

theorem execRegionSelect_keeps {t : Fc} {s : State} (h : Keeps o s) : KeepsOut o (execRegionSelect t s) :=
  atFabric_keeps (fun _ hu => runStitch_keeps (fun _ _ hu1 => regionSelect_keeps hu1) hu) h

theorem execSolve_keeps {t : Fc} {s : State} (h : Keeps o s) : KeepsOut o (execSolve t s) :=
  atFabric_keeps (fun _ hu => runStitch_keeps (fun _ _ hu1 => solve_keeps hu1) hu) h

theorem execLoop_keeps {t : Fc} {s : State} (h : Keeps o s) : KeepsOut o (execLoop t s) :=
  atFabric_keeps (fun _ hu => runStitch_keeps (fun _ _ hu1 => loops_keeps hu1) hu) h

theorem execStageDrive_keeps {t : Fc} {s : State} (h : Keeps o s) : KeepsOut o (execStageDrive t s) :=
  atFabric_keeps (fun _ hu => runStitch_keeps (fun _ _ hu1 => stageDrive_keeps hu1) hu) h

theorem execStageSwitch_keeps {t : Fc} {s : State} (h : Keeps o s) : KeepsOut o (execStageSwitch t s) :=
  atFabric_keeps (fun _ hu => runStitch_keeps (fun _ _ hu1 => stageSwitch_keeps hu1) hu) h

theorem execCompute_keeps {t : Fc} {s : State} (h : Keeps o s) : KeepsOut o (execCompute t s) :=
  atFabric_keeps (fun _ hu => runStitch_keeps (fun _ _ hu1 => compute_keeps hu1) hu) h

theorem execLockstepMismatch_keeps {t : Fc} {outputs : List Nat} {s : State} (h : Keeps o s) : KeepsOut o
    (execLockstepMismatch t outputs s) :=
  atFabric_keeps (fun _ hu => lockstep_keeps hu) h

/-! ### Tiles -/

theorem modSto_keeps {s : State} {f : Sto → Sto} (h : Keeps o s) : Keeps o (modSto s f) := keeps_update h

theorem modFle_keeps {s : State} {f : Fle → Fle} (h : Keeps o s) : Keeps o (modFle s f) := keeps_update h

theorem clockSet_keeps {s : State} {t c : Nat} (h : Keeps o s) : Keeps o (clockSet s t c) := modFle_keeps h

theorem clockLocal_keeps {s : State} (h : Keeps o s) : Keeps o (clockLocal s) := clockSet_keeps h

theorem clockReceive_keeps {s : State} {tm cm : Nat} (h : Keeps o s) : Keeps o (clockReceive s tm cm) :=
  clockSet_keeps h

theorem modSlot_keeps {s : State} {k : Nat} {f : CacheSlot → CacheSlot} (h : Keeps o s) : Keeps o (modSlot s k f) :=
    by
  unfold modSlot
  split
  · exact modSto_keeps h
  · exact h

theorem touchSlot_keeps {s : State} {k : Nat} (h : Keeps o s) : Keeps o (touchSlot s k) :=
  modSto_keeps (modSlot_keeps h)

theorem storeServe_keeps {s : State} (h : Keeps o s) : Keeps o (storeServe s) := modSto_keeps h

theorem storeNext_keeps {s : State} (h : Keeps o s) : Keeps o (storeNext s) := storeServe_keeps (modSto_keeps h)

theorem flushStart_keeps {s : State} {k : Nat} (h : Keeps o s) : Keeps o (flushStart s k) :=
  keeps_ite h (storeServe_keeps (modSlot_keeps h))

theorem flushOldest_keeps {s : State} (h : Keeps o s) : Keeps o (flushOldest s) := by
  unfold flushOldest
  refine keeps_ite ?_ ?_
  · exact h
  · split
    · exact flushStart_keeps h
    · exact h

theorem needTile_keeps {s : State} {id : Nat} {pin : List Nat} (h : Keeps o s) : Keeps o (needTile s id pin).1 := by
  unfold needTile
  split
  · split
    · exact h
    · exact touchSlot_keeps h
  · split
    · exact flushOldest_keeps h
    · split
      · exact h
      · dsimp only
        split
        · exact storeServe_keeps (modSto_keeps h)
        · exact modSto_keeps h

theorem needTiles_keeps {s : State} {ids : List Nat} (h : Keeps o s) : Keeps o (needTiles s ids).1 :=
  foldl_fst_keeps (fun _ _ hu => needTile_keeps hu) h

theorem writeCell_keeps {s : State} {id i v : Nat} {ver : Ver} (h : Keeps o s) : Keeps o (writeCell s id i v ver) :=
    by
  unfold writeCell
  split
  · exact modSlot_keeps h
  · exact h

theorem settleDram_keeps {s : State} (h : Keeps o s) : Keeps o (settleDram s) := by
  obtain ⟨hqueue, hnow, hcanonical⟩ := h
  refine keeps_ite ⟨hqueue, hnow, hcanonical⟩ ⟨hqueue, hnow, fun hc => ?_⟩
  obtain ⟨hmem, hrest⟩ := hcanonical hc
  exact ⟨Memory.writeAreas_wf (Memory.filter_wf hmem), hrest⟩

/-! ### Fleet -/

theorem modMember_keeps {s : State} {p : Nat} {f : Member → Member} (h : Keeps o s) : Keeps o (modMember s p f) :=
  modFle_keeps h

theorem takeToken_keeps {s : State} {p : Nat} {u : State} (ht : takeToken s p = some u) (h : Keeps o s) : Keeps o u :=
    by
  dsimp only [takeToken] at ht
  split at ht
  · obtain rfl := Option.some.inj ht
    exact modMember_keeps h
  · cases ht

theorem modSession_keeps {s : State} {k : Nat} {f : Session → Session} (h : Keeps o s) : Keeps o (modSession s k f) :=
    by
  unfold modSession
  split
  · exact modFle_keeps h
  · exact h

theorem sendTo_keeps {s : State} {k : Nat} {m : FleMsg} (h : Keeps o s) : Keeps o (sendTo s k m) := by
  unfold sendTo
  split
  · exact h
  · exact keeps_ite (modSession_keeps h) (keeps_ite (modSession_keeps (rinc_keeps h)) (raiseEv_keeps (modFle_keeps
      (modSession_keeps (rinc_keeps h)))))

theorem sendAll_keeps {s : State} {m : FleMsg} {but : Option Nat} (h : Keeps o s) : Keeps o (sendAll s m but) :=
  foldl_keeps (fun _ _ hu => keeps_ite hu (sendTo_keeps hu)) h

theorem closeSession_keeps {s : State} {k : Nat} {bye : Bool} (h : Keeps o s) : Keeps o (closeSession s k bye) :=
  rsetBitAt_keeps (modSession_keeps h)

theorem absentSession_keeps {s : State} {k : Nat} (h : Keeps o s) : Keeps o (absentSession s k) :=
  raiseEv_keeps (modSession_keeps (closeSession_keeps h))

theorem startExchange_keeps {s : State} {k : Nat} (h : Keeps o s) : Keeps o (startExchange s k) :=
  foldl_keeps (fun _ _ hu => sendTo_keeps hu) h

theorem onSession_keeps {s : State} {k : Nat} {f : Session → State → State} (hf : ∀ x u, Keeps o u → Keeps o (f x u))
    (h : Keeps o s) : Keeps o (onSession s k f) := by
  unfold onSession
  split
  · exact keeps_ite (rinc_keeps h) h
  · exact keeps_ite (rinc_keeps h) (hf _ _ (modSession_keeps h))

theorem evict_keeps {s : State} {p : Nat} (h : Keeps o s) : Keeps o (evict s p) :=
  raiseEv_keeps (foldl_keeps (fun _ _ hu => modFle_keeps (closeSession_keeps hu)) (modMember_keeps h))

theorem strike_keeps {s : State} {p : Nat} (h : Keeps o s) : Keeps o (strike s p) :=
  keeps_ite (evict_keeps (rinc_keeps (modMember_keeps h))) (rinc_keeps (modMember_keeps h))

theorem rejoin_keeps {s : State} {p : Nat} (h : Keeps o s) : Keeps o (rejoin s p) := raiseEv_keeps (modMember_keeps h)

theorem authorCheck_keeps {s : State} {peer k author market time : Nat} {sig : Bool} (h : Keeps o s) : Keeps o
    (authorCheck s peer k author market time sig).1 := by
  unfold authorCheck
  dsimp only
  split
  · exact strike_keeps h
  · split
    · exact rinc_keeps h
    · split
      · exact sendTo_keeps (rinc_keeps h)
      · split
        · exact strike_keeps h
        · split
          · exact rinc_keeps h
          · have hs := takeToken_keeps ‹_› h
            split
            · exact strike_keeps (rinc_keeps hs)
            · exact hs

theorem pubNowDone_keeps {s : State} (h : Keeps o s) : Keeps o (pubNowDone s) :=
  foldl_keeps (fun _ _ hu => complete_keeps hu) (modFle_keeps h)

theorem storeDelta_keeps {s : State} {d : Delta} (h : Keeps o s) : Keeps o (storeDelta s d) :=
  modMember_keeps (modFle_keeps h)

theorem mergeCells_keeps {s : State} {d : Delta} (h : Keeps o s) : Keeps o (mergeCells s d).1 := by
  unfold mergeCells
  refine foldl_fst_keeps (fun _ _ hu => ?_) h
  split
  · dsimp only
    split
    · exact writeCell_keeps hu
    · exact hu
  · exact hu

theorem applyDelta_keeps {s : State} {k : Nat} {d : Delta} (h : Keeps o s) : Keeps o (applyDelta s k d) := by
  unfold applyDelta
  dsimp only
  split
  · exact modSto_keeps (needTile_keeps h)
  · exact keeps_ite (mergeCells_keeps (needTile_keeps h)) (pubNowDone_keeps (sendAll_keeps (storeDelta_keeps
      (rinc_keeps (mergeCells_keeps (needTile_keeps h))))))

theorem deltaRx_keeps {s : State} {k : Nat} {raw : List Nat} {sig : Bool} (h : Keeps o s) : Keeps o (deltaRx s k raw
    sig) := by
  unfold deltaRx
  refine onSession_keeps ?_ h
  intro _ _ hu
  split
  · exact strike_keeps hu
  · exact keeps_ite (authorCheck_keeps hu) (keeps_ite (rinc_keeps (clockReceive_keeps (authorCheck_keeps hu)))
      (applyDelta_keeps (clockReceive_keeps (authorCheck_keeps hu))))

theorem publishOne_keeps {s : State} {t : Tile} {idx : List Nat} (h : Keeps o s) : Keeps o (publishOne s t idx) :=
  sendAll_keeps (storeDelta_keeps (rinc_keeps (foldl_keeps (fun _ _ hu => writeCell_keeps hu) (clockLocal_keeps h))))

theorem publishTile_keeps {fuel : Nat} {s : State} {t : Tile} {idx : List Nat} (h : Keeps o s) : Keeps o (publishTile
    fuel s t idx) := by
  induction fuel generalizing s t idx with
  | zero => exact h
  | succ fuel ih =>
    unfold publishTile
    refine keeps_ite h ?_
    split
    · exact h
    · exact ih (publishOne_keeps (takeToken_keeps ‹_› h))

theorem pubTile_keeps {s : State} {k : Nat} (h : Keeps o s) : Keeps o (pubTile s k) := by
  unfold pubTile
  split
  · exact h
  · exact keeps_ite h (pubNowDone_keeps (publishTile_keeps h))

theorem remarkSlot_keeps {s : State} {fig : Stamp} {k : Nat} {c : CacheSlot} (h : Keeps o s) : Keeps o (remarkSlot s
    fig k c) :=
  keeps_ite h (modSlot_keeps h)

theorem pullTile_keeps {s : State} {id : Nat} {fig : Option Stamp} (h : Keeps o s) : Keeps o (pullTile s id fig) := by
  unfold pullTile
  dsimp only
  split
  · exact modSto_keeps (needTile_keeps h)
  · split
    · exact remarkSlot_keeps (needTile_keeps h)
    · exact needTile_keeps h
  · exact needTile_keeps h

theorem remark_keeps {s : State} {fig : Stamp} (h : Keeps o s) : Keeps o (remark s fig) :=
  foldl_keeps (fun _ _ hu => pullTile_keeps hu) (foldl_keeps (fun _ _ hu => remarkSlot_keeps hu) h)

theorem summaryRx_keeps {s : State} {k : Nat} {figs : List Stamp} (h : Keeps o s) : Keeps o (summaryRx s k figs) := by
  unfold summaryRx
  refine onSession_keeps ?_ h
  intro _ _ hu
  dsimp only
  split
  · exact remark_keeps (modSession_keeps hu)
  · exact modSession_keeps hu

theorem announceRx_keeps {s : State} {k : Nat} {c : Cert} (h : Keeps o s) : Keeps o (announceRx s k c) :=
  onSession_keeps (fun _ _ hu => keeps_ite (strike_keeps hu) (keeps_ite (keeps_ite (rejoin_keeps (modMember_keeps hu))
    hu) (keeps_ite (sendAll_keeps (modMember_keeps hu)) (modMember_keeps hu)))) h

theorem statusTake_keeps {s : State} {k : Nat} {m : StatusMsg} (h : Keeps o s) : Keeps o (statusTake s k m) :=
  sendAll_keeps (keeps_ite (queuePut_keeps (modMember_keeps h)) (modMember_keeps h))

theorem statusRx_keeps {s : State} {k : Nat} {raw : List Nat} {sig : Bool} (h : Keeps o s) : Keeps o (statusRx s k raw
    sig) := by
  unfold statusRx
  refine onSession_keeps ?_ h
  intro _ _ hu
  split
  · exact strike_keeps hu
  · exact keeps_ite (authorCheck_keeps hu) (statusTake_keeps (authorCheck_keeps hu))

theorem tryFailed_keeps {s : State} {k : Nat} (h : Keeps o s) : Keeps o (tryFailed s k) := modSession_keeps h

theorem sessionOpen_keeps {s : State} {k : Nat} {c : Session} {x : Cert} (h : Keeps o s) : Keeps o (sessionOpen s k c
    x) :=
  startExchange_keeps (completeOpt_keeps (rsetBitAt_keeps (modSession_keeps (keeps_ite (rejoin_keeps (modMember_keeps
    h)) (modMember_keeps h)))))

theorem handshake_keeps {s : State} {k : Nat} {cert : Option Cert} (h : Keeps o s) : Keeps o (handshake s k cert) :=
    by
  unfold handshake
  split
  · exact h
  · refine keeps_ite ?_ ?_
    · exact h
    · split
      · exact keeps_ite (tryFailed_keeps h) h
      · dsimp only
        refine keeps_ite ?_ ?_
        · exact raiseEv_keeps (tryFailed_keeps h)
        · refine keeps_ite ?_ ?_
          · exact h
          · split
            · exact keeps_ite (raiseEv_keeps (completeOpt_keeps (modSession_keeps (tryFailed_keeps h))))
                (completeOpt_keeps (modSession_keeps (tryFailed_keeps h)))
            · exact sessionOpen_keeps h

theorem sessionRetry_keeps {s : State} {k : Nat} (h : Keeps o s) : Keeps o (sessionRetry s k) := modSession_keeps h

theorem keepaliveDue_keeps {s : State} {k : Nat} (h : Keeps o s) : Keeps o (keepaliveDue s k) := by
  unfold keepaliveDue
  split
  · exact keeps_ite (sendTo_keeps h) h
  · exact h

theorem peerTimeout_keeps {s : State} {k : Nat} (h : Keeps o s) : Keeps o (peerTimeout s k) := by
  unfold peerTimeout
  split
  · exact keeps_ite (absentSession_keeps h) h
  · exact h

theorem certExpiry_keeps {s : State} {k : Nat} (h : Keeps o s) : Keeps o (certExpiry s k) := by
  unfold certExpiry
  split
  · exact keeps_ite (absentSession_keeps h) h
  · exact h

theorem evictHoldEnd_keeps {s : State} {k : Nat} (h : Keeps o s) : Keeps o (evictHoldEnd s k) := by
  unfold evictHoldEnd
  split
  · exact keeps_ite (modFle_keeps h) h
  · exact h

theorem strikeDecay_keeps {s : State} (h : Keeps o s) : Keeps o (strikeDecay s) := keeps_ite (modFle_keeps h) h

theorem catchUp_keeps {s : State} {k : Nat} (h : Keeps o s) : Keeps o (catchUp s k) := by
  unfold catchUp
  split
  · exact keeps_ite (startExchange_keeps (modSession_keeps h)) h
  · exact h

theorem byeRx_keeps {s : State} {k : Nat} (h : Keeps o s) : Keeps o (byeRx s k) :=
  onSession_keeps (fun _ _ hu => closeSession_keeps hu) h

theorem certReqRx_keeps {s : State} {k : Nat} {raw : List Nat} (h : Keeps o s) : Keeps o (certReqRx s k raw) := by
  unfold certReqRx
  refine onSession_keeps ?_ h
  intro _ _ hu
  split
  · exact sendTo_keeps hu
  · exact hu

theorem fleEnable_keeps {s : State} (h : Keeps o s) : Keeps o (fleEnable s) :=
  keeps_ite h (keeps_ite (rset_keeps (rset_keeps h)) (rset_keeps h))

theorem fleClose_keeps {s : State} (h : Keeps o s) : Keeps o (fleClose s) :=
  foldl_keeps (fun _ _ hu => closeSession_keeps hu) h

theorem fleDisable_keeps {s : State} (h : Keeps o s) : Keeps o (fleDisable s) := rset_keeps (fleClose_keeps h)

theorem peerSet_keeps {s : State} {r : Ref} {d : Desc} (h : Keeps o s) : Keeps o (peerSet s r d) :=
  keeps_ite (complete_keeps h) (keeps_ite (complete_keeps h) (keeps_ite (complete_keeps (modFle_keeps
    (completeOpt_keeps (closeSession_keeps h)))) (modFle_keeps (completeOpt_keeps (closeSession_keeps h)))))

theorem peerSetTimeout_keeps {s : State} {k : Nat} (h : Keeps o s) : Keeps o (peerSetTimeout s k) := by
  unfold peerSetTimeout
  split
  · exact keeps_ite (completeOpt_keeps (modSession_keeps h)) h
  · exact h

theorem statusPublish_keeps {s : State} {r : Ref} {d : Desc} {data : List Nat} (h : Keeps o s) : Keeps o
    (statusPublish s r d data) :=
  keeps_ite (complete_keeps h) (keeps_ite (complete_keeps h) (keeps_ite (complete_keeps h) (complete_keeps
    (sendAll_keeps (modFle_keeps h)))))

theorem memberEvict_keeps {s : State} {r : Ref} {d : Desc} (h : Keeps o s) : Keeps o (memberEvict s r d) :=
  keeps_ite (complete_keeps h) (keeps_ite (complete_keeps h) (keeps_ite (complete_keeps h) (keeps_ite (complete_keeps
    (keeps_ite (rejoin_keeps h) (modMember_keeps h))) (complete_keeps (keeps_ite h (evict_keeps h))))))

theorem publishNow_keeps {s : State} {r : Ref} (h : Keeps o s) : Keeps o (publishNow s r) :=
  keeps_ite (complete_keeps h) (foldl_keeps (fun _ _ hu => pullTile_keeps hu) (pubNowDone_keeps (modFle_keeps h)))

theorem execFleEnable_keeps {t : Fc} {s : State} (h : Keeps o s) : KeepsOut o (execFleEnable t s) :=
  atFabric_keeps (fun _ hu => fleEnable_keeps hu) h

theorem execFleDisable_keeps {t : Fc} {s : State} (h : Keeps o s) : KeepsOut o (execFleDisable t s) :=
  atFabric_keeps (fun _ hu => fleDisable_keeps hu) h

theorem execPeerSet_keeps {t : Fc} {r : Ref} {s : State} (h : Keeps o s) : KeepsOut o (execPeerSet t r s) :=
  atFabric_keeps (fun _ hu => withDesc_keeps (fun _ _ hu1 => peerSet_keeps hu1) hu) h

theorem execPeerSetTimeout_keeps {t : Fc} {slot : Fin 32} {s : State} (h : Keeps o s) : KeepsOut o (execPeerSetTimeout
    t slot s) :=
  atFabric_keeps (fun _ hu => peerSetTimeout_keeps hu) h

theorem execSessionHandshake_keeps {t : Fc} {slot : Fin 32} {cert : Option Cert} {s : State} (h : Keeps o s) :
    KeepsOut o (execSessionHandshake t slot cert s) :=
  atFabric_keeps (fun _ hu => handshake_keeps hu) h

theorem execSessionRetry_keeps {t : Fc} {slot : Fin 32} {s : State} (h : Keeps o s) : KeepsOut o (execSessionRetry t
    slot s) :=
  atFabric_keeps (fun _ hu => sessionRetry_keeps hu) h

theorem execKeepaliveDue_keeps {t : Fc} {slot : Fin 32} {s : State} (h : Keeps o s) : KeepsOut o (execKeepaliveDue t
    slot s) :=
  atFabric_keeps (fun _ hu => keepaliveDue_keeps hu) h

theorem execPeerTimeout_keeps {t : Fc} {slot : Fin 32} {s : State} (h : Keeps o s) : KeepsOut o (execPeerTimeout t
    slot s) :=
  atFabric_keeps (fun _ hu => peerTimeout_keeps hu) h

theorem execCertExpiry_keeps {t : Fc} {slot : Fin 32} {s : State} (h : Keeps o s) : KeepsOut o (execCertExpiry t slot
    s) :=
  atFabric_keeps (fun _ hu => certExpiry_keeps hu) h

theorem execDeltaRx_keeps {t : Fc} {slot : Fin 32} {raw : List Nat} {rec sig : Bool} {s : State} (h : Keeps o s) :
    KeepsOut o (execDeltaRx t slot raw rec sig s) :=
  atFabric_keeps (fun _ hu => keeps_ite (deltaRx_keeps hu) hu) h

theorem execAnnounceRx_keeps {t : Fc} {slot : Fin 32} {c : Cert} {s : State} (h : Keeps o s) : KeepsOut o
    (execAnnounceRx t slot c s) :=
  atFabric_keeps (fun _ hu => announceRx_keeps hu) h

theorem execStatusRx_keeps {t : Fc} {slot : Fin 32} {raw : List Nat} {rec sig : Bool} {s : State} (h : Keeps o s) :
    KeepsOut o (execStatusRx t slot raw rec sig s) :=
  atFabric_keeps (fun _ hu => keeps_ite (statusRx_keeps hu) hu) h

theorem execSummaryRx_keeps {t : Fc} {slot : Fin 32} {figs : List Stamp} {s : State} (h : Keeps o s) : KeepsOut o
    (execSummaryRx t slot figs s) :=
  atFabric_keeps (fun _ hu => summaryRx_keeps hu) h

theorem execCertReqRx_keeps {t : Fc} {slot : Fin 32} {raw : List Nat} {s : State} (h : Keeps o s) : KeepsOut o
    (execCertReqRx t slot raw s) :=
  atFabric_keeps (fun _ hu => certReqRx_keeps hu) h

theorem execByeRx_keeps {t : Fc} {slot : Fin 32} {s : State} (h : Keeps o s) : KeepsOut o (execByeRx t slot s) :=
  atFabric_keeps (fun _ hu => byeRx_keeps hu) h

theorem execKeepaliveRx_keeps {t : Fc} {slot : Fin 32} {s : State} (h : Keeps o s) : KeepsOut o (execKeepaliveRx t
    slot s) :=
  atFabric_keeps (fun _ hu => onSession_keeps (fun _ _ hu1 => hu1) hu) h

theorem execPubDue_keeps {t : Fc} {slot : Fin 4096} {s : State} (h : Keeps o s) : KeepsOut o (execPubDue t slot s) :=
  atFabric_keeps (fun _ hu => pubTile_keeps hu) h

theorem execStrikeDecay_keeps {t : Fc} {s : State} (h : Keeps o s) : KeepsOut o (execStrikeDecay t s) :=
  atFabric_keeps (fun _ hu => strikeDecay_keeps hu) h

theorem execEvictHoldExpiry_keeps {t : Fc} {slot : Fin 32} {s : State} (h : Keeps o s) : KeepsOut o
    (execEvictHoldExpiry t slot s) :=
  atFabric_keeps (fun _ hu => evictHoldEnd_keeps hu) h

theorem execBehindCatchUp_keeps {t : Fc} {slot : Fin 32} {s : State} (h : Keeps o s) : KeepsOut o (execBehindCatchUp t
    slot s) :=
  atFabric_keeps (fun _ hu => catchUp_keeps hu) h

theorem execStatusPublish_keeps {t : Fc} {r : Ref} {data : List Nat} {s : State} (h : Keeps o s) : KeepsOut o
    (execStatusPublish t r data s) :=
  atFabric_keeps (fun _ hu => withDesc_keeps (fun _ _ hu1 => statusPublish_keeps hu1) hu) h

theorem execMemberEvict_keeps {t : Fc} {r : Ref} {s : State} (h : Keeps o s) : KeepsOut o (execMemberEvict t r s) :=
  atFabric_keeps (fun _ hu => withDesc_keeps (fun _ _ hu1 => memberEvict_keeps hu1) hu) h

theorem execPublishNow_keeps {t : Fc} {r : Ref} {s : State} (h : Keeps o s) : KeepsOut o (execPublishNow t r s) :=
  atFabric_keeps (fun _ hu => withDesc_keeps (fun _ _ hu1 => publishNow_keeps hu1) hu) h

/-! ### Store -/

theorem mediaError_keeps {s : State} {write : Bool} (h : Keeps o s) : Keeps o (mediaError s write) :=
  raiseEv_keeps (rinc_keeps h)

theorem copyError_keeps {s : State} {fault : Option (Bool × Nat × Nat)} (h : Keeps o s) : Keeps o (copyError s fault)
    := by
  unfold copyError
  split
  · exact mediaError_keeps h
  · exact h

theorem writeTile_keeps {s : State} {id : Nat} {img : Tile} (h : Keeps o s) : Keeps o (writeTile s id img) := by
  unfold writeTile
  split
  · exact h
  · dsimp only
    split
    · exact modSlot_keeps (foldl_keeps (fun _ _ hu => writeCell_keeps hu) (clockLocal_keeps h))
    · exact foldl_keeps (fun _ _ hu => writeCell_keeps hu) (clockLocal_keeps h)

theorem serveDesc_keeps {s : State} {r : Ref} {id : Nat} {write : Option Tile} (h : Keeps o s) : Keeps o (serveDesc s
    r id write) := by
  unfold serveDesc
  dsimp only
  split
  · exact modSto_keeps (needTile_keeps h)
  · split
    · exact complete_keeps (needTile_keeps h)
    · exact complete_keeps (writeTile_keeps (needTile_keeps h))

theorem serveWait_keeps {s : State} {w : MapWait} (h : Keeps o s) : Keeps o (serveWait s w) := by
  unfold serveWait
  split
  · exact serveDesc_keeps h
  · exact applyDelta_keeps h
  · exact pullTile_keeps h

theorem serveWaits_keeps {s : State} (h : Keeps o s) : Keeps o (serveWaits s) :=
  foldl_keeps (fun _ _ hu => serveWait_keeps hu) (modSto_keeps h)

theorem tileLoad_keeps {s : State} {r : Ref} {d : Desc} (h : Keeps o s) : Keeps o (tileLoad s r d) := by
  unfold tileLoad
  split
  · exact complete_keeps h
  · exact serveDesc_keeps h

theorem tileWrite_keeps {s : State} {r : Ref} {d : Desc} {img : List Nat} (h : Keeps o s) : Keeps o (tileWrite s r d
    img) := by
  unfold tileWrite
  dsimp only
  split
  · exact complete_keeps h
  · exact keeps_ite (complete_keeps h) (keeps_ite (complete_keeps h) (serveDesc_keeps h))

theorem flushAll_keeps {s : State} (h : Keeps o s) : Keeps o (flushAll s) :=
  foldl_keeps (fun _ _ hu => flushStart_keeps hu) h

theorem flushNow_keeps {s : State} {r : Option Ref} (h : Keeps o s) : Keeps o (flushNow s r) :=
  keeps_ite (completeOpt_keeps h) (modSto_keeps (flushAll_keeps h))

theorem tileFlush_keeps {s : State} {r : Ref} (h : Keeps o s) : Keeps o (tileFlush s r) :=
  keeps_ite (complete_keeps h) (keeps_ite (complete_keeps h) (flushNow_keeps h))

theorem loadDone_keeps {s : State} {k : Nat} {ok : Bool} {key asc : Nat} (h : Keeps o s) : Keeps o (loadDone s k ok
    key asc) := by
  unfold loadDone
  split
  · exact h
  · exact keeps_ite h (storeNext_keeps (keeps_ite (serveWaits_keeps (modSlot_keeps h)) (foldl_keeps (fun _ _ hu =>
      completeOpt_keeps hu) (mediaError_keeps (modSto_keeps h)))))

theorem flushDue_keeps {s : State} {k : Nat} (h : Keeps o s) : Keeps o (flushDue s k) := by
  unfold flushDue
  split
  · split
    · exact keeps_ite (flushStart_keeps h) h
    · exact h
  · exact h

theorem flushSettled_keeps {s : State} {k : Nat} (h : Keeps o s) : Keeps o (flushSettled s k) :=
  keeps_ite (flushStart_keeps (foldl_keeps (fun _ _ hu => completeOpt_keeps hu) (modSto_keeps h))) (foldl_keeps (fun _
    _ hu => completeOpt_keeps hu) (modSto_keeps h))

theorem storeTile_keeps {s : State} {img : Tile} {pubAt : Tbl Nat} {pubLast : Nat} (h : Keeps o s) : Keeps o
    (storeTile s img pubAt pubLast) :=
  modSto_keeps h

theorem flushDone_keeps {s : State} {k : Nat} {ok : Bool} {key asc : Nat} (h : Keeps o s) : Keeps o (flushDone s k ok
    key asc) := by
  unfold flushDone
  split
  · exact h
  · split
    · exact h
    · exact keeps_ite h (storeNext_keeps (keeps_ite (serveWaits_keeps (flushSettled_keeps (modSlot_keeps
        (storeTile_keeps h)))) (raiseEv_keeps (foldl_keeps (fun _ _ hu => completeOpt_keeps hu) (modSto_keeps
        (mediaError_keeps (modSlot_keeps h)))))))

theorem budgetRoll_keeps {s : State} (h : Keeps o s) : Keeps o (budgetRoll s) := by
  unfold budgetRoll
  split
  · exact keeps_ite (rset_keeps (modSto_keeps h)) h
  · exact h

theorem storeJob_keeps {s : State} {r : Ref} {d : Desc} {write : Bool} {data : List Nat} (h : Keeps o s) : Keeps o
    (storeJob s r d write data) :=
  keeps_ite (complete_keeps h) (keeps_ite (complete_keeps h) (keeps_ite (complete_keeps h) (keeps_ite (complete_keeps
    (keeps_ite (budgetRoll_keeps h) h)) (storeServe_keeps (modSto_keeps (keeps_ite (rset_keeps (modSto_keeps
    (keeps_ite (budgetRoll_keeps h) h))) (keeps_ite (budgetRoll_keeps h) h)))))))

theorem partWrite_keeps {s : State} {p off : Nat} {l : List Nat} (h : Keeps o s) : Keeps o (partWrite s p off l) := by
  induction l generalizing s off with
  | nil => exact h
  | cons b t ih => exact ih (modSto_keeps h)

theorem storeDone_keeps {s : State} {ok : Bool} {key asc : Nat} {data : List Nat} (h : Keeps o s) : Keeps o (storeDone
    s ok key asc data) := by
  unfold storeDone
  split
  · exact h
  · exact keeps_ite h (storeNext_keeps (keeps_ite (complete_keeps (mediaError_keeps (modSto_keeps h))) (keeps_ite
      (complete_keeps (partWrite_keeps (modSto_keeps h))) (complete_keeps (hostWrite_keeps (modSto_keeps h))))))

theorem lifePoll_keeps {s : State} {a b eol : Nat} (h : Keeps o s) : Keeps o (lifePoll s a b eol) :=
  keeps_ite h (keeps_ite (raiseEv_keeps (rset_keeps (rset_keeps (rset_keeps (modSto_keeps h))))) (rset_keeps
    (rset_keeps (rset_keeps (modSto_keeps h)))))

theorem tileRefresh_keeps {s : State} {id : Nat} (h : Keeps o s) : Keeps o (tileRefresh s id) := by
  unfold tileRefresh
  dsimp only
  split
  · exact keeps_ite (modSto_keeps (storeTile_keeps h)) h
  · exact h

theorem countPage_keeps {s : State} {p : Nat} (h : Keeps o s) : Keeps o (countPage s p) := modSto_keeps h

theorem jrnStart_keeps {s : State} {r : Ref} {off len : Nat} {data : List Nat} (h : Keeps o s) : Keeps o (jrnStart s r
    off len data) :=
  keeps_ite (complete_keeps h) (keeps_ite (raiseEv_keeps (complete_keeps h)) (modSto_keeps (foldl_keeps (fun _ _ hu =>
    countPage_keeps hu) h)))

theorem writeInline_keeps {s : State} {r : Ref} {d : Desc} (h : Keeps o s) : Keeps o (writeInline s r d) :=
  keeps_ite (complete_keeps h) (jrnStart_keeps h)

theorem jrnWrite_keeps {s : State} {r : Ref} {d : Desc} {data : List Nat} (h : Keeps o s) : Keeps o (jrnWrite s r d
    data) :=
  keeps_ite (complete_keeps h) (jrnStart_keeps h)

theorem jrnRead_keeps {s : State} {r : Ref} {d : Desc} (h : Keeps o s) : Keeps o (jrnRead s r d) :=
  keeps_ite (complete_keeps h) (modSto_keeps h)

theorem jrnApply_keeps {s : State} {j : JrnJob} {n : Nat} (h : Keeps o s) : Keeps o (jrnApply s j n) := modSto_keeps h

theorem jrnDone_keeps {s : State} {ok : Bool} (h : Keeps o s) : Keeps o (jrnDone s ok) := by
  unfold jrnDone
  split
  · exact h
  · exact keeps_ite (complete_keeps (raiseEv_keeps (modSto_keeps h))) (keeps_ite (complete_keeps (jrnApply_keeps
      (modSto_keeps h))) (complete_keeps (hostWrite_keeps (modSto_keeps h))))

theorem jovfCopy_keeps {s : State} (h : Keeps o s) : Keeps o (jovfCopy s) := keeps_ite h (keeps_update h)

theorem execTileLoadDone_keeps {t : Fc} {slot : Fin 4096} {ok : Bool} {key asc : Nat} {s : State} (h : Keeps o s) :
    KeepsOut o (execTileLoadDone t slot ok key asc s) :=
  atFabric_keeps (fun _ hu => loadDone_keeps hu) h

theorem execTileFlushDue_keeps {t : Fc} {slot : Fin 4096} {s : State} (h : Keeps o s) : KeepsOut o (execTileFlushDue t
    slot s) :=
  atFabric_keeps (fun _ hu => flushDue_keeps hu) h

theorem execTileFlushDone_keeps {t : Fc} {slot : Fin 4096} {ok : Bool} {key asc : Nat} {s : State} (h : Keeps o s) :
    KeepsOut o (execTileFlushDone t slot ok key asc s) :=
  atFabric_keeps (fun _ hu => flushDone_keeps hu) h

theorem execTileLoad_keeps {t : Fc} {r : Ref} {s : State} (h : Keeps o s) : KeepsOut o (execTileLoad t r s) :=
  atFabric_keeps (fun _ hu => withDesc_keeps (fun _ _ hu1 => tileLoad_keeps hu1) hu) h

theorem execTileWrite_keeps {t : Fc} {r : Ref} {img : List Nat} {s : State} (h : Keeps o s) : KeepsOut o
    (execTileWrite t r img s) :=
  atFabric_keeps (fun _ hu => withDesc_keeps (fun _ _ hu1 => tileWrite_keeps hu1) hu) h

theorem execTileFlush_keeps {t : Fc} {r : Ref} {s : State} (h : Keeps o s) : KeepsOut o (execTileFlush t r s) :=
  atFabric_keeps (fun _ hu => withDesc_keeps (fun _ _ hu1 => tileFlush_keeps hu1) hu) h

theorem execStoreRead_keeps {t : Fc} {r : Ref} {s : State} (h : Keeps o s) : KeepsOut o (execStoreRead t r s) :=
  atFabric_keeps (fun _ hu => onlyIf_keeps (fun _ hu1 => withDesc_keeps (fun _ _ hu2 => storeJob_keeps hu2) hu1) hu) h

theorem execStoreWrite_keeps {t : Fc} {r : Ref} {data : List Nat} {s : State} (h : Keeps o s) : KeepsOut o
    (execStoreWrite t r data s) :=
  atFabric_keeps (fun _ hu => onlyIf_keeps (fun _ hu1 => withDesc_keeps (fun _ _ hu2 => storeJob_keeps hu2) hu1) hu) h

theorem execStoreAccessDone_keeps {t : Fc} {ok : Bool} {key asc : Nat} {data : List Nat} {s : State} (h : Keeps o s) :
    KeepsOut o (execStoreAccessDone t ok key asc data s) :=
  atFabric_keeps (fun _ hu => storeDone_keeps hu) h

theorem execStoreLifePoll_keeps {t : Fc} {a b eol : Nat} {s : State} (h : Keeps o s) : KeepsOut o (execStoreLifePoll t
    a b eol s) :=
  atFabric_keeps (fun _ hu => lifePoll_keeps hu) h

theorem execTileRefresh_keeps {t : Fc} {id : Nat} {s : State} (h : Keeps o s) : KeepsOut o (execTileRefresh t id s) :=
  atFabric_keeps (fun _ hu => tileRefresh_keeps hu) h

theorem execWriteBudgetDayEnd_keeps {t : Fc} {s : State} (h : Keeps o s) : KeepsOut o (execWriteBudgetDayEnd t s) :=
  atFabric_keeps (fun _ hu => budgetRoll_keeps hu) h

theorem execWriteInline_keeps {t : Fc} {r : Ref} {s : State} (h : Keeps o s) : KeepsOut o (execWriteInline t r s) :=
  atFabric_keeps (fun _ hu => onlyIf_keeps (fun _ hu1 => withDesc_keeps (fun _ _ hu2 => writeInline_keeps hu2) hu1)
    hu) h

theorem execJrnWrite_keeps {t : Fc} {r : Ref} {data : List Nat} {s : State} (h : Keeps o s) : KeepsOut o (execJrnWrite
    t r data s) :=
  atFabric_keeps (fun _ hu => onlyIf_keeps (fun _ hu1 => withDesc_keeps (fun _ _ hu2 => jrnWrite_keeps hu2) hu1) hu) h

theorem execJrnRead_keeps {t : Fc} {r : Ref} {s : State} (h : Keeps o s) : KeepsOut o (execJrnRead t r s) :=
  atFabric_keeps (fun _ hu => withDesc_keeps (fun _ _ hu1 => jrnRead_keeps hu1) hu) h

theorem execJrnAccessDone_keeps {t : Fc} {ok : Bool} {s : State} (h : Keeps o s) : KeepsOut o (execJrnAccessDone t ok
    s) :=
  atFabric_keeps (fun _ hu => jrnDone_keeps hu) h

theorem execJovfCopy_keeps {t : Fc} {s : State} (h : Keeps o s) : KeepsOut o (execJovfCopy t s) :=
  atFabric_keeps (fun _ hu => jovfCopy_keeps hu) h

/-! ### Can -/

theorem modCan_keeps {s : State} {c : Nat} {f : CanCtl → CanCtl} (h : Keeps o s) : Keeps o (modCan s c f) :=
  rset_keeps (rset_keeps (keeps_update h))

theorem canEnable_keeps {s : State} {c : Nat} (h : Keeps o s) : Keeps o (canEnable s c) :=
  keeps_ite h (keeps_ite (rset_keeps h) (keeps_ite (rset_keeps h) (rset_keeps (rset_keeps h))))

theorem canQueue_keeps {s : State} {c q time : Nat} {f : CanFrame} {echo staged deflt : Bool} {filter : Nat} (h :
    Keeps o s) : Keeps o (canQueue s c q time f echo staged deflt filter) :=
  keeps_ite h (keeps_ite (queuePut_keeps h) (keeps_ite (raiseEv_keeps (rinc_keeps (modCan_keeps h))) (rinc_keeps
    (modCan_keeps h))))

theorem filterFrame_keeps {s : State} {c time : Nat} {f : CanFrame} (h : Keeps o s) : Keeps o (filterFrame s c time f)
    := by
  unfold filterFrame
  dsimp only
  split
  · exact keeps_ite h (canQueue_keeps h)
  · exact keeps_ite (canQueue_keeps h) h

theorem errorState_keeps {s : State} {c : Nat} (h : Keeps o s) : Keeps o (errorState s c) :=
  keeps_ite h (rset_keeps h)

theorem txGood_keeps {s : State} {c : Nat} (h : Keeps o s) : Keeps o (txGood s c) := errorState_keeps (rset_keeps h)

theorem rxGood_keeps {s : State} {c : Nat} (h : Keeps o s) : Keeps o (rxGood s c) :=
  keeps_ite (withFree_keeps (fun _ _ hu => errorState_keeps (rset_keeps hu)) h) (errorState_keeps (rset_keeps h))

theorem canSend_keeps {s : State} {r : Ref} {d : Desc} (h : Keeps o s) : Keeps o (canSend s r d) := by
  unfold canSend
  split
  · exact complete_keeps h
  · exact modCan_keeps h

theorem txbFetch_keeps {s : State} {c : Nat} {data : List Nat} (h : Keeps o s) : Keeps o (txbFetch s c data) := by
  unfold txbFetch
  dsimp only
  split
  · exact h
  · refine keeps_ite ?_ ?_
    · exact h
    · split
      · exact h
      · refine keeps_ite ?_ ?_
        · exact complete_keeps (modCan_keeps h)
        · refine keeps_ite ?_ ?_
          · exact complete_keeps (modCan_keeps h)
          · split
            · exact h
            · exact modCan_keeps (modCan_keeps h)

theorem txSelect_keeps {s : State} {c : Nat} (h : Keeps o s) : Keeps o (txSelect s c) := by
  unfold txSelect
  refine keeps_ite ?_ ?_
  · exact h
  · split
    · exact h
    · exact modCan_keeps h

theorem completeTx_keeps {s : State} {x : CanTx} {status detail : Nat} (h : Keeps o s) : Keeps o (completeTx s x
    status detail) :=
  completeOpt_keeps h

theorem txSuccess_keeps {s : State} {c : Nat} (h : Keeps o s) : Keeps o (txSuccess s c) := by
  unfold txSuccess
  dsimp only
  split
  · exact h
  · split
    · exact h
    · exact completeTx_keeps (keeps_ite (filterFrame_keeps (keeps_ite (canQueue_keeps (txGood_keeps (modCan_keeps h)))
        (txGood_keeps (modCan_keeps h)))) (keeps_ite (canQueue_keeps (txGood_keeps (modCan_keeps h)))
        (txGood_keeps (modCan_keeps h))))

theorem attemptFailed_keeps {s : State} {c b : Nat} {x : CanTx} {error : Bool} (h : Keeps o s) : Keeps o
    (attemptFailed s c b x error) :=
  keeps_ite (completeTx_keeps (modCan_keeps h)) (keeps_ite (modCan_keeps h) (keeps_ite (completeTx_keeps (keeps_ite
    (rinc_keeps (modCan_keeps h)) (modCan_keeps h))) (modCan_keeps h)))

theorem arbLoss_keeps {s : State} {c : Nat} (h : Keeps o s) : Keeps o (arbLoss s c) := by
  unfold arbLoss
  dsimp only
  split
  · exact h
  · split
    · exact h
    · exact attemptFailed_keeps h

theorem txError_keeps {s : State} {c : Nat} {exempt : Bool} (h : Keeps o s) : Keeps o (txError s c exempt) := by
  unfold txError
  dsimp only
  split
  · exact h
  · split
    · exact h
    · exact attemptFailed_keeps (keeps_ite h (errorState_keeps (rinc_keeps h)))

theorem busOff_keeps {s : State} {c : Nat} (h : Keeps o s) : Keeps o (busOff s c) :=
  keeps_ite h (raiseEv_keeps (rset_keeps (rinc_keeps (rinc_keeps (foldl_keeps (fun _ _ hu => completeTx_keeps hu)
    (modCan_keeps h))))))

theorem canRecover_keeps {s : State} {c : Nat} (h : Keeps o s) : Keeps o (canRecover s c) :=
  keeps_ite (rset_keeps h) h

theorem canRecovered_keeps {s : State} {c : Nat} (h : Keeps o s) : Keeps o (canRecovered s c) :=
  keeps_ite (rset_keeps (rset_keeps (rset_keeps h))) h

theorem canRx_keeps {s : State} {c sof : Nat} {f : CanFrame} (h : Keeps o s) : Keeps o (canRx s c sof f) :=
  keeps_ite h (filterFrame_keeps (rxGood_keeps h))

theorem canRxError_keeps {s : State} {c : Nat} {heavy : Bool} (h : Keeps o s) : Keeps o (canRxError s c heavy) :=
  keeps_ite h (errorState_keeps (rinc_keeps h))

theorem stopSend_keeps {s : State} {c : Nat} {r : Ref} (h : Keeps o s) : Keeps o (stopSend s c r) := by
  unfold stopSend
  dsimp only
  split
  · exact complete_keeps (modCan_keeps h)
  · exact keeps_ite h (complete_keeps (modCan_keeps h))

theorem stageFrame_keeps {c off : Nat} {s : State} (h : Keeps o s) : Keeps o (stageFrame c off s) :=
  rinc_keeps (stage_keeps h)

theorem canStage_keeps {st : Stitch} {s : State} (h : Keeps o s) : Keeps o (canStage st s) :=
  foldl_keeps (fun _ _ hu => stageFrame_keeps hu) h

theorem canHandOver_keeps {s : State} {p : Nat × CanTx} (h : Keeps o s) : Keeps o (canHandOver s p) := by
  unfold canHandOver
  refine keeps_ite ?_ ?_
  · exact rinc_keeps h
  · split
    · exact modCan_keeps h
    · exact keeps_ite (modCan_keeps h) (rinc_keeps h)

theorem canCommit_keeps {s : State} (h : Keeps o s) : Keeps o (canCommit s) :=
  foldl_keeps (fun _ _ hu => canHandOver_keeps hu) h

theorem execCanStage_keeps {t : Fc} {s : State} (h : Keeps o s) : KeepsOut o (execCanStage t s) :=
  atFabric_keeps (fun _ hu => runStitch_keeps (fun _ _ hu1 => canStage_keeps hu1) hu) h

theorem execCanEnable_keeps {t : Fc} {ctl : Fin 8} {s : State} (h : Keeps o s) : KeepsOut o (execCanEnable t ctl s) :=
  atFabric_keeps (fun _ hu => canEnable_keeps hu) h

theorem execSend_keeps {t : Fc} {r : Ref} {s : State} (h : Keeps o s) : KeepsOut o (execSend t r s) :=
  atFabric_keeps (fun _ hu => withDesc_keeps (fun _ _ hu1 => canSend_keeps hu1) hu) h

theorem execCanTxbFetch_keeps {t : Fc} {ctl : Fin 8} {data : List Nat} {s : State} (h : Keeps o s) : KeepsOut o
    (execCanTxbFetch t ctl data s) :=
  atFabric_keeps (fun _ hu => txbFetch_keeps hu) h

theorem execCanTxSelect_keeps {t : Fc} {ctl : Fin 8} {s : State} (h : Keeps o s) : KeepsOut o (execCanTxSelect t ctl
    s) :=
  atFabric_keeps (fun _ hu => txSelect_keeps hu) h

theorem execCanTxSuccess_keeps {t : Fc} {ctl : Fin 8} {s : State} (h : Keeps o s) : KeepsOut o (execCanTxSuccess t ctl
    s) :=
  atFabric_keeps (fun _ hu => txSuccess_keeps hu) h

theorem execCanArbLoss_keeps {t : Fc} {ctl : Fin 8} {s : State} (h : Keeps o s) : KeepsOut o (execCanArbLoss t ctl s)
    :=
  atFabric_keeps (fun _ hu => arbLoss_keeps hu) h

theorem execCanTxError_keeps {t : Fc} {ctl : Fin 8} {exempt : Bool} {s : State} (h : Keeps o s) : KeepsOut o
    (execCanTxError t ctl exempt s) :=
  atFabric_keeps (fun _ hu => txError_keeps hu) h

theorem execCanRx_keeps {t : Fc} {ctl : Fin 8} {sof : Fc} {f : CanFrame} {s : State} (h : Keeps o s) : KeepsOut o
    (execCanRx t ctl sof f s) :=
  atFabric_keeps (fun _ hu => canRx_keeps hu) h

theorem execCanBusOff_keeps {t : Fc} {ctl : Fin 8} {s : State} (h : Keeps o s) : KeepsOut o (execCanBusOff t ctl s) :=
  atFabric_keeps (fun _ hu => busOff_keeps hu) h

theorem execRecover_keeps {t : Fc} {ctl : Fin 8} {s : State} (h : Keeps o s) : KeepsOut o (execRecover t ctl s) :=
  atFabric_keeps (fun _ hu => canRecover_keeps hu) h

theorem execCanRecovered_keeps {t : Fc} {ctl : Fin 8} {s : State} (h : Keeps o s) : KeepsOut o (execCanRecovered t ctl
    s) :=
  atFabric_keeps (fun _ hu => canRecovered_keeps hu) h

theorem execCanRxError_keeps {t : Fc} {ctl : Fin 8} {heavy : Bool} {s : State} (h : Keeps o s) : KeepsOut o
    (execCanRxError t ctl heavy s) :=
  atFabric_keeps (fun _ hu => canRxError_keeps hu) h

/-! ### Nav -/

theorem modNav_keeps {s : State} {f : Nav → Nav} (h : Keeps o s) : Keeps o (modNav s f) := keeps_update h

theorem trkCount_keeps {s : State} (h : Keeps o s) : Keeps o (trkCount s) := rset_keeps (rset_keeps h)

theorem trkRejudge_keeps {s : State} (h : Keeps o s) : Keeps o (trkRejudge s) := trkCount_keeps (modNav_keeps h)

theorem trkTake_keeps {s : State} {c : Trk} (h : Keeps o s) : Keeps o (trkTake s c) := modNav_keeps h

theorem trkAssign_keeps {s : State} {c : Trk} (h : Keeps o s) : Keeps o (trkAssign s c) :=
  keeps_ite h (trkRejudge_keeps (trkTake_keeps h))

theorem trkRelease_keeps {s : State} {c : Trk} (h : Keeps o s) : Keeps o (trkRelease s c) :=
  trkRejudge_keeps (modNav_keeps h)

theorem trkSpacing_keeps {s : State} {sig : Nat} (h : Keeps o s) : Keeps o (trkSpacing s sig) := modNav_keeps h

theorem skyMoved_keeps {s : State} {sky : List (Nat × Nat × Nat)} (h : Keeps o s) : Keeps o (skyMoved s sky) :=
  keeps_ite h (trkRejudge_keeps (modNav_keeps h))

theorem navEnable_keeps {s : State} (h : Keeps o s) : Keeps o (navEnable s) :=
  keeps_ite h (foldl_keeps (fun _ _ hu => complete_keeps hu) (trkRejudge_keeps (modNav_keeps h)))

theorem rtcmTake_keeps {slots : List (Nat × Nat)} {s : State} {m : Nat × Nat × List Nat} (h : Keeps o s) : Keeps o
    (rtcmTake slots s m) :=
  modNav_keeps h

theorem rtcmIn_keeps {s : State} {r : Ref} {d : Desc} {data : List Nat} {slots : List (Nat × Nat)} (h : Keeps o s) :
    Keeps o (rtcmIn s r d data slots) :=
  keeps_ite (complete_keeps h) (keeps_ite (complete_keeps h) (complete_keeps (rinc_keeps (foldl_keeps (fun _ _ hu =>
    rtcmTake_keeps hu) h))))

theorem setFix_keeps {s : State} {old : Nat} (h : Keeps o s) : Keeps o (setFix s old) :=
  keeps_ite (raiseEv_keeps (rset_keeps (rsetB_keeps (rset_keeps h)))) (rset_keeps (rsetB_keeps (rset_keeps h)))

theorem sbasStep_keeps {s : State} {m : NavMeas} (h : Keeps o s) : Keeps o (sbasStep s m) := modNav_keeps h

theorem noteTcxo_keeps {s : State} {tcxo : Int} (h : Keeps o s) : Keeps o (noteTcxo s tcxo) :=
  keeps_ite (modNav_keeps h) h

theorem filterStep_keeps {s0 : State} {m : NavMeas} (h : Keeps o s0) : Keeps o (filterStep s0 m) :=
  setFix_keeps (modNav_keeps (modNav_keeps (sbasStep_keeps (skyMoved_keeps (noteTcxo_keeps h)))))

theorem drTimeout_keeps {s : State} (h : Keeps o s) : Keeps o (drTimeout s) := keeps_ite (modNav_keeps h) h

theorem corrExpiry_keeps {s : State} (h : Keeps o s) : Keeps o (corrExpiry s) :=
  keeps_ite (setFix_keeps (modNav_keeps h)) h

theorem setTimeState_keeps {s : State} {v : Nat} (h : Keeps o s) : Keeps o (setTimeState s v) := rset_keeps h

theorem settleSlew_keeps {s0 : State} (h : Keeps o s0) : Keeps o (settleSlew s0) := keeps_update (noteTime_keeps h)

theorem startSlew_keeps {s : State} {d : Int} (h : Keeps o s) : Keeps o (startSlew s d) :=
  rsetS_keeps (keeps_update (settleSlew_keeps h))

theorem setUnc_keeps {s : State} {ns : Nat} (h : Keeps o s) : Keeps o (setUnc s ns) := rset_keeps h

theorem setRtc_keeps {s : State} (h : Keeps o s) : Keeps o (setRtc s) := rset_keeps (keeps_update h)

theorem regridFilter_keeps {s : State} (h : Keeps o s) : Keeps o (regridFilter s) := modNav_keeps h

theorem firstTime_keeps {s : State} {d : Int} {unc : Nat} (h : Keeps o s) : Keeps o (firstTime s d unc) :=
  raiseEv_keeps (setUnc_keeps (setTimeState_keeps (rset64_keeps (setRtc_keeps (modNav_keeps (regridFilter_keeps
    (keeps_update (noteTime_keeps h))))))))

theorem validSolution_keeps {s : State} {d : Int} {unc : Nat} (h : Keeps o s) : Keeps o (validSolution s d unc) :=
  keeps_ite (firstTime_keeps (modNav_keeps (modNav_keeps h))) (keeps_ite (setUnc_keeps (modNav_keeps h)) (keeps_ite
    (modNav_keeps (modNav_keeps h)) (setUnc_keeps (startSlew_keeps (modNav_keeps h)))))

theorem timeSolution_keeps {s : State} {a b : Option Int} {unc : Nat} {far : Bool} (h : Keeps o s) : Keeps o
    (timeSolution s a b unc far) := by
  unfold timeSolution
  refine keeps_ite ?_ ?_
  · exact h
  · dsimp only
    split
    · exact h
    · exact keeps_ite (validSolution_keeps (keeps_ite (rsetB_keeps h) (keeps_ite (rinc_keeps (rset_keeps (modNav_keeps
        (rsetB_keeps h)))) (modNav_keeps (rsetB_keeps h))))) (modNav_keeps (keeps_ite (setUnc_keeps (keeps_ite
        (rsetB_keeps h) (keeps_ite (rinc_keeps (rset_keeps (modNav_keeps (rsetB_keeps h)))) (modNav_keeps
        (rsetB_keeps h))))) (keeps_ite (rsetB_keeps h) (keeps_ite (rinc_keeps (rset_keeps (modNav_keeps
        (rsetB_keeps h)))) (modNav_keeps (rsetB_keeps h))))))

theorem cableWritten_keeps {s : State} {antB : Bool} {old : Nat} (h : Keeps o s) : Keeps o (cableWritten s antB old)
    :=
  keeps_ite h (keeps_ite (modNav_keeps h) (keeps_ite (setUnc_keeps (startSlew_keeps h)) h))

theorem holdoverBegin_keeps {s : State} {eps : Nat} {tcxo : Int} (h : Keeps o s) : Keeps o (holdoverBegin s eps tcxo)
    :=
  raiseEv_keeps (setUnc_keeps (rsetS_keeps (setTimeState_keeps (modNav_keeps (settleSlew_keeps h)))))

theorem holdoverEntry_keeps {s : State} {eps : Nat} {tcxo : Int} (h : Keeps o s) : Keeps o (holdoverEntry s eps tcxo)
    :=
  keeps_ite (modNav_keeps h) (keeps_ite h (holdoverBegin_keeps h))

theorem slewComplete_keeps {s : State} (h : Keeps o s) : Keeps o (slewComplete s) :=
  keeps_ite (setUnc_keeps (rsetS_keeps (setTimeState_keeps (modNav_keeps (settleSlew_keeps h))))) h

theorem endConf_keeps {s : State} (h : Keeps o s) : Keeps o (endConf s) := by
  unfold endConf
  split
  · exact modNav_keeps h
  · exact h

theorem timeStep_keeps {s : State} {d : Int} (h : Keeps o s) : Keeps o (timeStep s d) :=
  raiseEv_keeps (setUnc_keeps (rwrap_keeps (rsetS_keeps (setTimeState_keeps (modNav_keeps (regridFilter_keeps
    (keeps_update (settleSlew_keeps (endConf_keeps h)))))))))

theorem slewDecide_keeps {s : State} {d : Int} (h : Keeps o s) : Keeps o (slewDecide s d) :=
  keeps_ite (setUnc_keeps (setTimeState_keeps (modNav_keeps (endConf_keeps h)))) (setUnc_keeps (startSlew_keeps
    (setTimeState_keeps (modNav_keeps (endConf_keeps h)))))

theorem setTpNext_keeps {s : State} {time : Nat} (h : Keeps o s) : Keeps o (setTpNext s time) := rset64_keeps h

theorem renewTpNext_keeps {s : State} (h : Keeps o s) : Keeps o (renewTpNext s) := keeps_ite (setTpNext_keeps h) h

theorem pulseMessage_keeps {s : State} {label : Nat} {emitted : Bool} (h : Keeps o s) : Keeps o (pulseMessage s label
    emitted) :=
  rsetB_keeps (rsetB_keeps (rsetB_keeps (rsetB_keeps (rwrap_keeps (rset64_keeps h)))))

theorem pulseOut_keeps {s : State} {label : Nat} {stepped : Bool} (h : Keeps o s) : Keeps o (pulseOut s label stepped)
    :=
  setTpNext_keeps (keeps_ite (raiseEv_keeps (modNav_keeps (keeps_ite (modNav_keeps (pulseMessage_keeps h))
    (pulseMessage_keeps h)))) (keeps_ite (modNav_keeps (pulseMessage_keeps h)) (pulseMessage_keeps h)))

theorem pulseBoundary_keeps {s : State} {tcxo : Int} (h : Keeps o s) : Keeps o (pulseBoundary s tcxo) := by
  unfold pulseBoundary
  dsimp only
  refine keeps_ite ?_ ?_
  · exact h
  · split
    · exact pulseOut_keeps (keeps_ite (setUnc_keeps (noteTcxo_keeps h)) (noteTcxo_keeps h))
    · exact keeps_ite (pulseOut_keeps (slewDecide_keeps (keeps_ite (setUnc_keeps (noteTcxo_keeps h)) (noteTcxo_keeps
        h)))) (keeps_ite (setTpNext_keeps (timeStep_keeps (keeps_ite (setUnc_keeps (noteTcxo_keeps h))
        (noteTcxo_keeps h)))) (pulseOut_keeps (timeStep_keeps (keeps_ite (setUnc_keeps (noteTcxo_keeps h))
        (noteTcxo_keeps h)))))

theorem boundaryNow_keeps {s : State} (h : Keeps o s) : Keeps o (boundaryNow s) := by
  unfold boundaryNow
  refine foldl_keeps ?_ h
  intro _ _ hu
  split
  · exact keeps_ite (pulseBoundary_keeps hu) hu
  · exact hu

theorem antFault_keeps {s : State} {f : Fld} {on : Bool} (h : Keeps o s) : Keeps o (antFault s f on) :=
  keeps_ite (raiseEv_keeps (rsetB_keeps h)) (rsetB_keeps h)

theorem antShort_keeps {s : State} {antB : Bool} (h : Keeps o s) : Keeps o (antShort s antB) :=
  keeps_ite (antFault_keeps (modNav_keeps h)) h

theorem antRetry_keeps {s : State} {antB gone : Bool} (h : Keeps o s) : Keeps o (antRetry s antB gone) := by
  unfold antRetry
  split
  · exact keeps_ite h (keeps_ite (rset_keeps (modNav_keeps h)) (modNav_keeps h))
  · exact h

theorem navStore_keeps {s : State} {ephemeris almanac : Nat} (h : Keeps o s) : Keeps o (navStore s ephemeris almanac)
    :=
  modNav_keeps h

theorem navStart_keeps {s : State} (h : Keeps o s) : Keeps o (navStart s) := by
  unfold navStart
  dsimp only
  split
  · split
    · exact rset_keeps (rset_keeps (setTpNext_keeps (rset_keeps h)))
    · exact setTpNext_keeps (rset_keeps h)
  · exact setTpNext_keeps (rset_keeps h)

theorem navSearch_keeps {s : State} {r : Ref} {known : Bool} (h : Keeps o s) : Keeps o (navSearch s r known) := by
  unfold navSearch
  split
  · exact keeps_ite (modNav_keeps (takeReq_keeps h)) h
  · exact h

theorem searchDone_keeps {s : State} {req : Option Ref} {c : Trk} {aid : SatAid} {found : Bool} {cn0 : Nat} (h : Keeps
    o s) : Keeps o (searchDone s req c aid found cn0) := by
  unfold searchDone
  split
  · split
    · exact complete_keeps (keeps_ite (trkAssign_keeps (modNav_keeps h)) (modNav_keeps h))
    · exact h
  · exact keeps_ite (trkAssign_keeps (modNav_keeps h)) (modNav_keeps h)

theorem execNavSearch_keeps {t : Fc} {q : SearchReq} {s : State} (h : Keeps o s) : KeepsOut o (execNavSearch t q s) :=
  atFabric_keeps (fun _ hu => navSearch_keeps hu) h

theorem execAcqSearchDone_keeps {t : Fc} {req : Option Ref} {antB : Bool} {sig sat : Nat} {aid : SatAid} {found :
    Bool} {cn0 : Nat} {s : State} (h : Keeps o s) : KeepsOut o (execAcqSearchDone t req antB sig sat aid found cn0 s)
    :=
  atFabric_keeps (fun _ hu => searchDone_keeps hu) h

theorem execRtcmIn_keeps {t : Fc} {r : Ref} {data : List Nat} {slots : List (Nat × Nat)} {s : State} (h : Keeps o s) :
    KeepsOut o (execRtcmIn t r data slots s) :=
  atFabric_keeps (fun _ hu => withDesc_keeps (fun _ _ hu1 => rtcmIn_keeps hu1) hu) h

theorem execChannelLockLoss_keeps {t : Fc} {antB : Bool} {sig sat : Nat} {next : Option (Nat × Nat × SatAid)} {s :
    State} (h : Keeps o s) : KeepsOut o (execChannelLockLoss t antB sig sat next s) := by
  unfold execChannelLockLoss
  refine atFabric_keeps ?_ h
  intro _ hu
  dsimp only
  split
  · exact trkAssign_keeps (trkRelease_keeps hu)
  · exact trkRelease_keeps hu

theorem execNavFilterStep_keeps {t : Fc} {m : NavMeas} {s : State} (h : Keeps o s) : KeepsOut o (execNavFilterStep t m
    s) :=
  atFabric_keeps (fun _ hu => keeps_ite (filterStep_keeps hu) hu) h

theorem execTimeSolution_keeps {t : Fc} {a b : Option Int} {unc : Nat} {far : Bool} {s : State} (h : Keeps o s) :
    KeepsOut o (execTimeSolution t a b unc far s) :=
  atFabric_keeps (fun _ hu => timeSolution_keeps hu) h

theorem execLeapDecode_keeps {t : Fc} {leap : Fin 256} {s : State} (h : Keeps o s) : KeepsOut o (execLeapDecode t leap
    s) :=
  atFabric_keeps (fun _ hu => rset_keeps (rset_keeps hu)) h

theorem execHoldoverEntry_keeps {t : Fc} {eps : Nat} {tcxo : Int} {s : State} (h : Keeps o s) : KeepsOut o
    (execHoldoverEntry t eps tcxo s) :=
  atFabric_keeps (fun _ hu => holdoverEntry_keeps hu) h

theorem execPulseBoundary_keeps {t : Fc} {tcxo : Int} {s : State} (h : Keeps o s) : KeepsOut o (execPulseBoundary t
    tcxo s) :=
  atFabric_keeps (fun _ hu => pulseBoundary_keeps hu) h

theorem execSlewComplete_keeps {t : Fc} {s : State} (h : Keeps o s) : KeepsOut o (execSlewComplete t s) :=
  atFabric_keeps (fun _ hu => slewComplete_keeps hu) h

theorem execDrTimeout_keeps {t : Fc} {s : State} (h : Keeps o s) : KeepsOut o (execDrTimeout t s) :=
  atFabric_keeps (fun _ hu => drTimeout_keeps hu) h

theorem execCorrAgeExpiry_keeps {t : Fc} {s : State} (h : Keeps o s) : KeepsOut o (execCorrAgeExpiry t s) :=
  atFabric_keeps (fun _ hu => corrExpiry_keeps hu) h

theorem execAntOpen_keeps {t : Fc} {antB isOpen : Bool} {s : State} (h : Keeps o s) : KeepsOut o (execAntOpen t antB
    isOpen s) :=
  atFabric_keeps (fun _ hu => antFault_keeps hu) h

theorem execAntShort_keeps {t : Fc} {antB : Bool} {s : State} (h : Keeps o s) : KeepsOut o (execAntShort t antB s) :=
  atFabric_keeps (fun _ hu => antShort_keeps hu) h

theorem execAntSupplyRetry_keeps {t : Fc} {antB gone : Bool} {s : State} (h : Keeps o s) : KeepsOut o
    (execAntSupplyRetry t antB gone s) :=
  atFabric_keeps (fun _ hu => antRetry_keeps hu) h

theorem execNavSave_keeps {t : Fc} {ephemeris almanac : Nat} {s : State} (h : Keeps o s) : KeepsOut o (execNavSave t
    ephemeris almanac s) :=
  atFabric_keeps (fun _ hu => keeps_ite (navStore_keeps hu) hu) h

/-! ### Eth -/

theorem modEth_keeps {s : State} {p : Nat} {f : EthPort → EthPort} (h : Keeps o s) : Keeps o (modEth s p f) :=
  keeps_update h

theorem ethTx_keeps {s : State} {r : Ref} {d : Desc} {data : List Nat} (h : Keeps o s) : Keeps o (ethTx s r d data) :=
  keeps_ite (complete_keeps h) (keeps_ite (complete_keeps h) (modEth_keeps h))

theorem fleetSent_keeps {s : State} {k : Nat} {x : Session} (h : Keeps o s) : Keeps o (fleetSent s k x) :=
  keeps_update h

theorem ethTxDone_keeps {s : State} {p sof : Nat} (h : Keeps o s) : Keeps o (ethTxDone s p sof) := by
  unfold ethTxDone
  refine keeps_ite ?_ ?_
  · exact h
  · dsimp only
    split
    · split
      · exact modEth_keeps (fleetSent_keeps h)
      · exact h
    · exact h
    · refine complete_keeps ?_
      split
      · exact hostWrite_keeps (modEth_keeps h)
      · exact modEth_keeps h

theorem ethFlush_keeps {s : State} {p : Nat} (h : Keeps o s) : Keeps o (ethFlush s p) :=
  foldl_keeps (fun _ _ hu => complete_keeps hu) (modEth_keeps h)

theorem ethDown_keeps {s : State} {p : Nat} (h : Keeps o s) : Keeps o (ethDown s p) :=
  keeps_ite (raiseEv_keeps (ethFlush_keeps (rset_keeps (modEth_keeps h)))) h

theorem ethLinkUp_keeps {s : State} {p : Nat} (h : Keeps o s) : Keeps o (ethLinkUp s p) :=
  keeps_ite (rset_keeps (rset_keeps (modEth_keeps h))) h

theorem ethRx_keeps {s : State} {p sof : Nat} {fcsOk : Bool} {frame : List Nat} (h : Keeps o s) : Keeps o (ethRx s p
    sof fcsOk frame) :=
  keeps_ite h (keeps_ite (rinc_keeps h) (keeps_ite h (keeps_ite h (keeps_ite (queuePut_keeps h) (rinc_keeps h)))))

theorem gptpTake_keeps {s : State} {p : Nat} {m : GptpMsg} (h : Keeps o s) : Keeps o (gptpTake s p m) := by
  unfold gptpTake
  split
  · exact modEth_keeps h
  · exact modEth_keeps h
  · exact modEth_keeps h
  · exact modEth_keeps h
  · exact h

theorem gptpMessage_keeps {s0 : State} {p : Nat} {m : GptpMsg} {corr : Int} (h : Keeps o s0) : Keeps o (gptpMessage s0
    p m corr) :=
  keeps_ite h (keeps_ite (foldl_keeps (fun _ _ hu => modEth_keeps hu) (foldl_keeps (fun _ _ hu => rsetS_keeps
    (rsetB_keeps hu)) (gptpTake_keeps h))) (raiseEv_keeps (foldl_keeps (fun _ _ hu => modEth_keeps hu) (foldl_keeps
    (fun _ _ hu => rsetS_keeps (rsetB_keeps hu)) (gptpTake_keeps h)))))

theorem tc10Sleep_keeps {s : State} {p : Nat} (h : Keeps o s) : Keeps o (tc10Sleep s p) :=
  keeps_ite (modEth_keeps h) h

theorem tc10Ack_keeps {s : State} {p : Nat} (h : Keeps o s) : Keeps o (tc10Ack s p) :=
  keeps_ite (ethDown_keeps (rset_keeps (modEth_keeps h))) h

theorem tc10Wake_keeps {s : State} {p : Nat} (h : Keeps o s) : Keeps o (tc10Wake s p) :=
  keeps_ite (rset_keeps (modEth_keeps h)) h

theorem tc10WakeRx_keeps {s : State} {p : Nat} (h : Keeps o s) : Keeps o (tc10WakeRx s p) :=
  keeps_ite (raiseEv_keeps (ethLinkUp_keeps h)) h

theorem stopEthTx_keeps {s : State} {r : Ref} (h : Keeps o s) : Keeps o (stopEthTx s r) := keeps_update h

theorem hostLinkUp_keeps {s : State} {width speed : Nat} (h : Keeps o s) : Keeps o (hostLinkUp s width speed) :=
  keeps_ite h (rset_keeps (rset_keeps (rset_keeps (rset_keeps h))))

theorem execEthTx_keeps {t : Fc} {r : Ref} {data : List Nat} {s : State} (h : Keeps o s) : KeepsOut o (execEthTx t r
    data s) :=
  atFabric_keeps (fun _ hu => withDesc_keeps (fun _ _ hu1 => ethTx_keeps hu1) hu) h

theorem execEthTxDone_keeps {t : Fc} {port : Fin 6} {sof : Fc} {s : State} (h : Keeps o s) : KeepsOut o (execEthTxDone
    t port sof s) :=
  atFabric_keeps (fun _ hu => ethTxDone_keeps hu) h

theorem execEthRx_keeps {t : Fc} {port : Fin 6} {sof : Fc} {fcsOk : Bool} {frame : List Nat} {s : State} (h : Keeps o
    s) : KeepsOut o (execEthRx t port sof fcsOk frame s) :=
  atFabric_keeps (fun _ hu => ethRx_keeps hu) h

theorem execGptpMessage_keeps {t : Fc} {port : Fin 4} {m : GptpMsg} {corr : Int} {s : State} (h : Keeps o s) :
    KeepsOut o (execGptpMessage t port m corr s) :=
  atFabric_keeps (fun _ hu => gptpMessage_keeps hu) h

theorem execEthLinkDown_keeps {t : Fc} {port : Fin 6} {s : State} (h : Keeps o s) : KeepsOut o (execEthLinkDown t port
    s) :=
  atFabric_keeps (fun _ hu => ethDown_keeps hu) h

theorem execEthLinkUp_keeps {t : Fc} {port : Fin 6} {s : State} (h : Keeps o s) : KeepsOut o (execEthLinkUp t port s)
    :=
  atFabric_keeps (fun _ hu => ethLinkUp_keeps hu) h

theorem execTc10Sleep_keeps {t : Fc} {port : Fin 4} {s : State} (h : Keeps o s) : KeepsOut o (execTc10Sleep t port s)
    :=
  atFabric_keeps (fun _ hu => tc10Sleep_keeps hu) h

theorem execTc10SleepAck_keeps {t : Fc} {port : Fin 4} {s : State} (h : Keeps o s) : KeepsOut o (execTc10SleepAck t
    port s) :=
  atFabric_keeps (fun _ hu => tc10Ack_keeps hu) h

theorem execTc10Wake_keeps {t : Fc} {port : Fin 4} {s : State} (h : Keeps o s) : KeepsOut o (execTc10Wake t port s) :=
  atFabric_keeps (fun _ hu => tc10Wake_keeps hu) h

theorem execHostLinkUp_keeps {t : Fc} {width speed : Fin 8} {s : State} (h : Keeps o s) : KeepsOut o (execHostLinkUp t
    width speed s) :=
  atFabric_keeps (fun _ hu => hostLinkUp_keeps hu) h

/-! ### Panels -/

theorem modPnl_keeps {s : State} {p : Nat} {f : Pnl → Pnl} (h : Keeps o s) : Keeps o (modPnl s p f) := keeps_update h

theorem atPanel_keeps {t : Fc} {p : Nat} {f : State → State} {s : State} (hf : ∀ u, Keeps o u → Keeps o (f u)) (h :
    Keeps o s) : KeepsOut o (atPanel t p f s) :=
  keepsOut_next (keeps_ite (hf _ (advance_keeps h)) (advance_keeps h))

theorem setLine_keeps {s : State} {p n : Nat} {l : PnlLine} (h : Keeps o s) : Keeps o (setLine s p n l) :=
  modPnl_keeps h

theorem vlcdTo_keeps {s : State} {p v : Nat} (h : Keeps o s) : Keeps o (vlcdTo s p v) :=
  keeps_ite h (rset_keeps (modPnl_keeps h))

theorem panelView_keeps {s : State} {p : Nat} (h : Keeps o s) : Keeps o (panelView s p) :=
  keeps_ite (rset_keeps (rsetB_keeps (keeps_ite h (modPnl_keeps h)))) (vlcdTo_keeps (rsetB_keeps (rset_keeps
    (rsetB_keeps (keeps_ite h (modPnl_keeps h))))))

theorem settleJobs_keeps {s : State} {p : Nat} (h : Keeps o s) : Keeps o (settleJobs s p) :=
  keeps_ite h (foldl_keeps (fun _ _ hu => complete_keeps hu) (modPnl_keeps h))

theorem takeOver_keeps {s : State} {p : Nat} {src : Option Ref} (h : Keeps o s) : Keeps o (takeOver s p src) := by
  unfold takeOver
  split
  · exact modPnl_keeps h
  · exact h

theorem wipeShadows_keeps {s : State} {p : Nat} (h : Keeps o s) : Keeps o (wipeShadows s p) := modPnl_keeps h

theorem sendWipes_keeps {s : State} {p : Nat} (h : Keeps o s) : Keeps o (sendWipes s p) :=
  keeps_ite h (modPnl_keeps h)

theorem wipeDone_keeps {s : State} {p : Nat} (h : Keeps o s) : Keeps o (wipeDone s p) := by
  unfold wipeDone
  split
  · exact keeps_ite h (sendWipes_keeps (settleJobs_keeps (foldl_keeps (fun _ _ hu => completeOpt_keeps hu)
      (wipeShadows_keeps (modPnl_keeps h)))))
  · exact h

theorem pnlEnable_keeps {s : State} {p : Nat} (h : Keeps o s) : Keeps o (pnlEnable s p) :=
  keeps_ite h (keeps_ite (rset_keeps h) (panelView_keeps (sendWipes_keeps (rset_keeps (modPnl_keeps (rset_keeps
    h))))))

theorem updateLine_keeps {s : State} {p : Nat} {r : Ref} {force blanked : Bool} {n : Nat} {px : List Nat} (h : Keeps o
    s) : Keeps o (updateLine s p r force blanked n px) :=
  keeps_ite (rinc_keeps (setLine_keeps (takeOver_keeps h))) (setLine_keeps (takeOver_keeps h))

theorem pnlUpdate_keeps {s : State} {r : Ref} {d : Desc} {src : List Nat} (h : Keeps o s) : Keeps o (pnlUpdate s r d
    src) :=
  keeps_ite (complete_keeps h) (keeps_ite (complete_keeps h) (panelView_keeps (settleJobs_keeps (keeps_ite
    (complete_keeps (foldl_keeps (fun _ _ hu => updateLine_keeps hu) (modPnl_keeps h))) (foldl_keeps (fun _ _ hu =>
    updateLine_keeps hu) (modPnl_keeps h))))))

theorem pnlClear_keeps {s : State} {r : Ref} {d : Desc} (h : Keeps o s) : Keeps o (pnlClear s r d) :=
  keeps_ite (complete_keeps h) (panelView_keeps (sendWipes_keeps (settleJobs_keeps (modPnl_keeps h))))

theorem lineStart_keeps {s : State} {p : Nat} (h : Keeps o s) : Keeps o (lineStart s p) := by
  unfold lineStart
  dsimp only
  refine keeps_ite ?_ ?_
  · exact h
  · split
    · exact h
    · exact panelView_keeps (rset_keeps (modPnl_keeps (setLine_keeps h)))

theorem pinvChange_keeps {s : State} {p : Nat} (h : Keeps o s) : Keeps o (pinvChange s p) := modPnl_keeps h

theorem lineDone_keeps {s : State} {p : Nat} (h : Keeps o s) : Keeps o (lineDone s p) := by
  unfold lineDone
  dsimp only
  split
  · exact keeps_ite (panelView_keeps (wipeDone_keeps h)) h
  · exact keeps_ite h (panelView_keeps (sendWipes_keeps (settleJobs_keeps (rinc_keeps (keeps_ite (pinvChange_keeps
      (modPnl_keeps (setLine_keeps h))) (modPnl_keeps (setLine_keeps h)))))))

theorem tempSample_keeps {s : State} {p : Nat} {tsns : Option Int} {housing : Int} (h : Keeps o s) : Keeps o
    (tempSample s p tsns housing) :=
  keeps_ite h (panelView_keeps (keeps_ite (raiseEv_keeps (rsetB_keeps (rset_keeps (modPnl_keeps h)))) (rsetB_keeps
    (rset_keeps (modPnl_keeps h)))))

theorem vcomToggle_keeps {s : State} {p : Nat} (h : Keeps o s) : Keeps o (vcomToggle s p) :=
  keeps_ite h (keeps_ite (modPnl_keeps (modPnl_keeps h)) (pinvChange_keeps (modPnl_keeps h)))

theorem crackMeasure_keeps {s : State} {p ohm : Nat} (h : Keeps o s) : Keeps o (crackMeasure s p ohm) :=
  keeps_ite h (keeps_ite (panelView_keeps (raiseEv_keeps (rset_keeps (rset_keeps (modPnl_keeps h))))) (rset_keeps
    (modPnl_keeps h)))

theorem crackClear_keeps {s : State} {p : Nat} (h : Keeps o s) : Keeps o (crackClear s p) :=
  keeps_ite (panelView_keeps (rset_keeps h)) h

theorem stopPanelJob_keeps {s : State} {p : Nat} {r : Ref} (h : Keeps o s) : Keeps o (stopPanelJob s p r) :=
  panelView_keeps (modPnl_keeps (modPnl_keeps h))

theorem abortPanelJob_keeps {s : State} {p : Nat} {r : Ref} (h : Keeps o s) : Keeps o (abortPanelJob s p r) :=
  abortReq_keeps (fun _ hu => complete_keeps (stopPanelJob_keeps hu)) h

theorem pnlDisable_keeps {s : State} {p : Nat} (h : Keeps o s) : Keeps o (pnlDisable s p) :=
  keeps_ite h (panelView_keeps (modPnl_keeps (foldl_keeps (fun _ _ hu => abortPanelJob_keeps hu) (rset_keeps h))))

theorem pnlSupplyFault_keeps {s : State} {p : Nat} (h : Keeps o s) : Keeps o (pnlSupplyFault s p) :=
  keeps_ite h (panelView_keeps (raiseEv_keeps (rset_keeps (pnlDisable_keeps h))))

theorem panelDark_keeps {s : State} {p : Nat} (h : Keeps o s) : Keeps o (panelDark s p) :=
  vlcdTo_keeps (rset_keeps (rset_keeps (modPnl_keeps h)))

theorem execPnlEnable_keeps {t : Fc} {port : Fin 2} {s : State} (h : Keeps o s) : KeepsOut o (execPnlEnable t port s)
    :=
  atFabric_keeps (fun _ hu => pnlEnable_keeps hu) h

theorem execPnlDisable_keeps {t : Fc} {port : Fin 2} {s : State} (h : Keeps o s) : KeepsOut o (execPnlDisable t port
    s) :=
  atFabric_keeps (fun _ hu => pnlDisable_keeps hu) h

theorem execUpdate_keeps {t : Fc} {r : Ref} {src : List Nat} {s : State} (h : Keeps o s) : KeepsOut o (execUpdate t r
    src s) :=
  atFabric_keeps (fun _ hu => keeps_ite (withDesc_keeps (fun _ _ hu1 => pnlUpdate_keeps hu1) hu) hu) h

theorem execPnlClear_keeps {t : Fc} {r : Ref} {s : State} (h : Keeps o s) : KeepsOut o (execPnlClear t r s) :=
  atFabric_keeps (fun _ hu => keeps_ite (withDesc_keeps (fun _ _ hu1 => pnlClear_keeps hu1) hu) hu) h

theorem execLineWriteStart_keeps {t : Fc} {port : Fin 2} {s : State} (h : Keeps o s) : KeepsOut o (execLineWriteStart
    t port s) :=
  atFabric_keeps (fun _ hu => lineStart_keeps hu) h

theorem execLineWriteDone_keeps {t : Fc} {port : Fin 2} {s : State} (h : Keeps o s) : KeepsOut o (execLineWriteDone t
    port s) :=
  atPanel_keeps (fun _ hu => lineDone_keeps hu) h

theorem execPnlTempSample_keeps {t : Fc} {port : Fin 2} {tsns : Option Int} {housing : Int} {s : State} (h : Keeps o
    s) : KeepsOut o (execPnlTempSample t port tsns housing s) :=
  atPanel_keeps (fun _ hu => tempSample_keeps hu) h

theorem execVcomToggle_keeps {t : Fc} {port : Fin 2} {s : State} (h : Keeps o s) : KeepsOut o (execVcomToggle t port
    s) :=
  atPanel_keeps (fun _ hu => vcomToggle_keeps hu) h

theorem execCrackMeasure_keeps {t : Fc} {port : Fin 2} {ohm : Nat} {s : State} (h : Keeps o s) : KeepsOut o
    (execCrackMeasure t port ohm s) :=
  atPanel_keeps (fun _ hu => crackMeasure_keeps hu) h

theorem execPanelCrackClear_keeps {t : Fc} {port : Fin 2} {s : State} (h : Keeps o s) : KeepsOut o
    (execPanelCrackClear t port s) :=
  atFabric_keeps (fun _ hu => crackClear_keeps hu) h

theorem execPanelSupplyFault_keeps {t : Fc} {port : Fin 2} {s : State} (h : Keeps o s) : KeepsOut o
    (execPanelSupplyFault t port s) :=
  atPanel_keeps (fun _ hu => pnlSupplyFault_keeps hu) h

/-! ### Rings -/

theorem ringEnable_keeps {s : State} {n : Nat} (h : Keeps o s) : Keeps o (ringEnable s n) :=
  keeps_ite h (keeps_ite (rset_keeps (rset_keeps (rset_keeps (rset_keeps (rset_keeps (rset_keeps (rset_keeps
    (rset_keeps (rset_keeps h))))))))) (rset_keeps h))

theorem cqEnable_keeps {s : State} {m : Nat} (h : Keeps o s) : Keeps o (cqEnable s m) :=
  keeps_ite h (rset_keeps (keeps_update (rset_keeps (rset_keeps (rset_keeps (rset_keeps (rset_keeps h)))))))

theorem cqDisable_keeps {s : State} {m : Nat} (h : Keeps o s) : Keeps o (cqDisable s m) := keeps_ite h (rset_keeps h)

theorem ringError_keeps {s : State} {n code : Nat} (h : Keeps o s) : Keeps o (ringError s n code) :=
  rset_keeps (rset_keeps h)

theorem tailDoorbell_keeps {s : State} {n idx ph : Nat} {host : Bool} (h : Keeps o s) : Keeps o (tailDoorbell s n idx
    ph host) :=
  keeps_ite (rinc_keeps h) (keeps_ite (rinc_keeps h) (keeps_ite (rinc_keeps h) (keeps_ite (ringError_keeps (rinc_keeps
    h)) (keeps_ite (ringError_keeps (rinc_keeps h)) (rset_keeps (rset_keeps (keeps_update h)))))))

theorem headDoorbell_keeps {s : State} {m idx ph : Nat} {host : Bool} (h : Keeps o s) : Keeps o (headDoorbell s m idx
    ph host) :=
  keeps_ite h (keeps_ite h (rset_keeps (rset_keeps (rset_keeps h))))

theorem fetchTake_keeps {s : State} {n : Nat} (h : Keeps o s) : Keeps o (fetchTake s n) :=
  rset_keeps (rset_keeps (rset_keeps h))

theorem fetchDesc_keeps {s : State} {n : Nat} {d : Desc} {fault : Bool} (h : Keeps o s) : Keeps o (fetchDesc s n d
    fault) := by
  unfold fetchDesc
  refine keeps_ite ?_ ?_
  · exact h
  · split
    · exact h
    · dsimp only
      refine keeps_ite ?_ ?_
      · exact h
      · refine keeps_ite ?_ ?_
        · exact keeps_ite h (complete_keeps (updReq_keeps (fetchTake_keeps h)))
        · refine keeps_ite ?_ ?_
          · exact h
          · refine keeps_ite ?_ ?_
            · exact ringError_keeps h
            · refine keeps_ite ?_ ?_
              · exact h
              · split
                · exact complete_keeps (updReq_keeps (keeps_update (fetchTake_keeps h)))
                · exact keeps_ite (complete_keeps (updReq_keeps (keeps_update (fetchTake_keeps h)))) (updReq_keeps
                    (keeps_update (fetchTake_keeps h)))

theorem portMark_keeps {s : State} {n : Nat} {d : Desc} {fault : Bool} (h : Keeps o s) : Keeps o (portMark s n d
    fault) := by
  unfold portMark
  split
  · exact h
  · exact h
  · refine keeps_ite ?_ ?_
    · split
      · exact updReq_keeps h
      · exact h
    · exact h

theorem dropMarks_keeps {s : State} (h : Keeps o s) : Keeps o (dropMarks s) := keeps_ite h (keeps_update h)

theorem tillMask_keeps {s : State} (h : Keeps o s) : Keeps o (tillMask s) :=
  rsetB_keeps (arbTickets_keeps (setArb_keeps (tillTo_keeps h)))

theorem seqCompl_keeps {s : State} {r : Ref} (h : Keeps o s) : Keeps o (seqCompl s r) := by
  unfold seqCompl
  split
  · split
    · exact rwrap_keeps (updReq_keeps h)
    · exact h
  · exact h

theorem tillTake_keeps {s : State} {r : TillRec} (h : Keeps o s) : Keeps o (tillTake s r) :=
  keeps_update (keeps_ite (rwrap_keeps (foldl_keeps (fun _ _ hu => seqCompl_keeps hu) h)) (foldl_keeps (fun _ _ hu =>
    seqCompl_keeps hu) h))

theorem tillAccept_keeps {s0 : State} (h : Keeps o s0) : Keeps o (tillAccept s0) := by
  unfold tillAccept
  extract_lets s c s0 idle s1
  have h1 : Keeps o s1 := arbRequest_keeps (tillTo_keeps (tillMask_keeps h))
  split
  · split
    · exact keeps_ite h1 (tillMask_keeps (tillTake_keeps (keeps_update (arbRelease_keeps h1))))
    · exact h1
  · exact h1

theorem tillOutput_keeps {s0 : State} (h : Keeps o s0) : Keeps o (tillOutput s0) := by
  unfold tillOutput
  dsimp only
  split
  · exact keeps_ite (tillMask_keeps (rset_keeps (keeps_update (tillTo_keeps h)))) (tillTo_keeps h)
  · exact tillTo_keeps h

theorem irqSend_keeps {s : State} {k : Nat} (h : Keeps o s) : Keeps o (irqSend s k) := keeps_update h

theorem msixRaise_keeps {s : State} {v : Nat} (h : Keeps o s) : Keeps o (msixRaise s v) :=
  keeps_ite (rsetBitAt_keeps h) (irqSend_keeps h)

theorem msixUnmask_keeps {s : State} {v : Nat} (h : Keeps o s) : Keeps o (msixUnmask s v) :=
  keeps_ite (irqSend_keeps (rsetBitAt_keeps h)) h

theorem cqRaise_keeps {s : State} {m : Nat} (h : Keeps o s) : Keeps o (cqRaise s m) :=
  keeps_ite (irqSend_keeps (keeps_update h)) (keeps_ite (msixRaise_keeps (keeps_update h)) (keeps_update h))

theorem cqCount_keeps {s : State} {m : Nat} {noIrq : Bool} (h : Keeps o s) : Keeps o (cqCount s m noIrq) :=
  keeps_ite h (keeps_ite (cqRaise_keeps (keeps_update h)) (keeps_update h))

theorem writeCompl_keeps {s : State} {r : Ref} (h : Keeps o s) : Keeps o (writeCompl s r) := by
  unfold writeCompl
  split
  · split
    · exact keeps_ite (cqCount_keeps (keeps_ite (rinc_keeps (rset_keeps (rset_keeps (hostWrite_keeps (keeps_update
        (keeps_ite (rinc_keeps h) h)))))) (keeps_ite (rinc_keeps (rset_keeps (rset_keeps (hostWrite_keeps
        (keeps_update (keeps_ite (rinc_keeps h) h)))))) (rset_keeps (rset_keeps (hostWrite_keeps (keeps_update
        (keeps_ite (rinc_keeps h) h)))))))) (keeps_update (keeps_ite (rinc_keeps h) h))
    · exact h
  · exact h

theorem complWrite_keeps {s : State} (h : Keeps o s) : Keeps o (complWrite s) := by
  unfold complWrite
  dsimp only
  split
  · exact tillMask_keeps (writeCompl_keeps (rset_keeps (keeps_update h)))
  · exact tillMask_keeps (rset_keeps (keeps_update h))

theorem cqDelay_keeps {s : State} {m : Nat} (h : Keeps o s) : Keeps o (cqDelay s m) := keeps_ite (cqRaise_keeps h) h

theorem execRingEnable_keeps {t : Fc} {ring : Fin 256} {s : State} (h : Keeps o s) : KeepsOut o (execRingEnable t ring
    s) :=
  atFabric_keeps (fun _ hu => ringEnable_keeps hu) h

theorem execCqEnable_keeps {t : Fc} {cq : Fin 64} {s : State} (h : Keeps o s) : KeepsOut o (execCqEnable t cq s) :=
  atFabric_keeps (fun _ hu => cqEnable_keeps hu) h

theorem execCqDisable_keeps {t : Fc} {cq : Fin 64} {s : State} (h : Keeps o s) : KeepsOut o (execCqDisable t cq s) :=
  atFabric_keeps (fun _ hu => cqDisable_keeps hu) h

theorem execQueueEnable_keeps {t : Fc} {q : WriteQueue} {on : Bool} {s : State} (h : Keeps o s) : KeepsOut o
    (execQueueEnable t q on s) :=
  atFabric_keeps (fun _ hu => queueEnable_keeps hu) h

theorem execQueueHeadWrite_keeps {t : Fc} {q : WriteQueue} {idx : Fin 65536} {ph : Fin 2} {s : State} (h : Keeps o s)
    : KeepsOut o (execQueueHeadWrite t q idx ph s) :=
  atFabric_keeps (fun _ hu => queueHead_keeps hu) h

theorem execHeadDb_keeps {t : Fc} {cq : Fin 64} {idx : Fin 65536} {ph : Fin 2} {w : DbWrite} {s : State} (h : Keeps o
    s) : KeepsOut o (execHeadDb t cq idx ph w s) :=
  atFabric_keeps (fun _ hu => onlyIf_keeps (fun _ hu1 => headDoorbell_keeps hu1) hu) h

theorem execDescriptorFetch_keeps {t : Fc} {ring : Fin 256} {d : Desc} {fault : Bool} {s : State} (h : Keeps o s) :
    KeepsOut o (execDescriptorFetch t ring d fault s) :=
  atFabric_keeps (fun _ hu => dropMarks_keeps (fetchDesc_keeps (portMark_keeps hu))) h

theorem execTillAccept_keeps {t : Fc} {s : State} (h : Keeps o s) : KeepsOut o (execTillAccept t s) :=
  atFabric_keeps (fun _ hu => tillAccept_keeps hu) h

theorem execTillOutputWrite_keeps {t : Fc} {s : State} (h : Keeps o s) : KeepsOut o (execTillOutputWrite t s) :=
  atFabric_keeps (fun _ hu => tillOutput_keeps hu) h

theorem execCompletionWrite_keeps {t : Fc} {s : State} (h : Keeps o s) : KeepsOut o (execCompletionWrite t s) :=
  atFabric_keeps (fun _ hu => complWrite_keeps hu) h

theorem execCqDelayExpiry_keeps {t : Fc} {cq : Fin 64} {s : State} (h : Keeps o s) : KeepsOut o (execCqDelayExpiry t
    cq s) :=
  atFabric_keeps (fun _ hu => cqDelay_keeps hu) h

/-! ### DriveBanks -/

theorem setPps_keeps {s : State} {p : Nat} {v : Pps} (h : Keeps o s) : Keeps o (setPps s p v) := keeps_update h

theorem atPlane_keeps {t : Fc} {plane : Nat} {f : State → State} {s : State} (hf : ∀ u, Keeps o u → Keeps o (f u)) (h
    : Keeps o s) : KeepsOut o (atPlane t plane f s) :=
  keepsOut_next (keeps_ite (hf _ (advance_keeps h)) (advance_keeps h))

theorem setDrv_keeps {s : State} {ch : Nat} {v : DrvCh} (h : Keeps o s) : Keeps o (setDrv s ch v) := keeps_update h

theorem modDrv_keeps {s : State} {ch : Nat} {f : DrvCh → DrvCh} (h : Keeps o s) : Keeps o (modDrv s ch f) :=
  setDrv_keeps h

theorem setDbk_keeps {s : State} {b : Nat} {v : DrvBank} (h : Keeps o s) : Keeps o (setDbk s b v) := keeps_update h

theorem dset_keeps {s : State} {f : Fld} {v ch : Nat} (h : Keeps o s) : Keeps o (dset s f v ch) := rset_keeps h

theorem noteHs_keeps {s0 : State} {b : Nat} {s : State} (h : Keeps o s) : Keeps o (noteHs s0 b s) :=
  keeps_ite (setDbk_keeps h) h

theorem setPhaseAt_keeps {s : State} {ch ph t : Nat} (h : Keeps o s) : Keeps o (setPhaseAt s ch ph t) :=
  noteHs_keeps (keeps_ite (modDrv_keeps (modDrv_keeps (dset_keeps h))) (modDrv_keeps (dset_keeps h)))

theorem setPhase_keeps {s : State} {ch ph : Nat} (h : Keeps o s) : Keeps o (setPhase s ch ph) := setPhaseAt_keeps h

theorem finishProf_keeps {s : State} {ch : Nat} {p : DrvProf} {truncated : Bool} (h : Keeps o s) : Keeps o (finishProf
    s ch p truncated) := by
  unfold finishProf
  split
  · exact h
  · exact completeRow_keeps h

theorem noteClamp_keeps {s : State} {ch : Nat} (h : Keeps o s) : Keeps o (noteClamp s ch) :=
  keeps_ite (dset_keeps h) h

theorem noteMove_keeps {s : State} {ch : Nat} {step : Option Nat} (h : Keeps o s) : Keeps o (noteMove s ch step) :=
  keeps_update h

theorem recordMove_keeps {s0 : State} {ch : Nat} {step : Option Nat} (h : Keeps o s0) : Keeps o (recordMove s0 ch
    step) := by
  unfold recordMove
  dsimp only
  split
  · exact dset_keeps (dset_keeps (dset_keeps (modDrv_keeps (noteMove_keeps h))))
  · exact dset_keeps (dset_keeps (dset_keeps (modDrv_keeps (noteMove_keeps h))))

theorem endSearch_keeps {s : State} {ch : Nat} (h : Keeps o s) : Keeps o (endSearch s ch) := by
  unfold endSearch
  split
  · exact keeps_ite (recordMove_keeps h) h
  · exact h

theorem moveSample_keeps {s : State} {ch t ma : Nat} (h : Keeps o s) : Keeps o (moveSample s ch t ma) := by
  unfold moveSample
  dsimp only
  split
  · split
    · refine keeps_ite ?_ ?_
      · exact h
      · split
        · exact recordMove_keeps (modDrv_keeps h)
        · exact keeps_ite (recordMove_keeps (modDrv_keeps h)) (modDrv_keeps h)
    · exact h
  · exact h

theorem drvSample_keeps {s : State} {ch t ma : Nat} (h : Keeps o s) : Keeps o (drvSample s ch t ma) :=
  keeps_ite (modDrv_keeps (moveSample_keeps h)) h

theorem drvTrace_keeps {s : State} {ch t : Nat} {l : List Nat} (h : Keeps o s) : Keeps o (drvTrace s ch t l) := by
  induction l generalizing s with
  | nil => exact h
  | cons ma rest ih => exact ih (drvSample_keeps h)

theorem atDrive_keeps {t : Fc} {ch : Nat} {trace : List Nat} {f : State → State} {s : State} (hf : ∀ u, Keeps o u →
    Keeps o (f u)) (h : Keeps o s) : KeepsOut o (atDrive t ch trace f s) :=
  atPlane_keeps (fun _ hu => hf _ (drvTrace_keeps hu)) h

theorem releaseHsvAt_keeps {s : State} {ch t : Nat} (h : Keeps o s) : Keeps o (releaseHsvAt s ch t) :=
  keeps_ite (noteHs_keeps (rset_keeps (setDbk_keeps h))) h

theorem releaseHsv_keeps {s : State} {ch : Nat} (h : Keeps o s) : Keeps o (releaseHsv s ch) := releaseHsvAt_keeps h

theorem setVbst_keeps {s : State} {b v : Nat} (h : Keeps o s) : Keeps o (setVbst s b v) := setDbk_keeps (rset_keeps h)

theorem noteVbst_keeps {s : State} {b vbst : Nat} (h : Keeps o s) : Keeps o (noteVbst s b vbst) := setVbst_keeps h

theorem startBoost_keeps {s : State} {ch : Nat} (h : Keeps o s) : Keeps o (startBoost s ch) := by
  unfold startBoost
  split
  · exact h
  · exact foldl_keeps (fun _ _ hu => modDrv_keeps hu) (keeps_ite (setOnes_keeps (noteClamp_keeps (rwrap_keeps
      (dset_keeps (dset_keeps (dset_keeps (modDrv_keeps (setPhase_keeps (rset_keeps (rset_keeps (setDbk_keeps
      (setVbst_keeps h)))))))))))) (noteClamp_keeps (rwrap_keeps (dset_keeps (dset_keeps (dset_keeps (modDrv_keeps
      (setPhase_keeps (rset_keeps (rset_keeps (setDbk_keeps (setVbst_keeps h))))))))))))

theorem hsvGrant_keeps {s : State} {b : Nat} (h : Keeps o s) : Keeps o (hsvGrant s b) := by
  unfold hsvGrant
  refine keeps_ite ?_ ?_
  · exact h
  · split
    · exact startBoost_keeps h
    · exact h

theorem enterDecayAt_keeps {s : State} {ch t : Nat} (h : Keeps o s) : Keeps o (enterDecayAt s ch t) :=
  keeps_ite h (modDrv_keeps (setPhaseAt_keeps h))

theorem enterDecay_keeps {s : State} {ch : Nat} (h : Keeps o s) : Keeps o (enterDecay s ch) := enterDecayAt_keeps h

theorem abortProf_keeps {s : State} {ch : Nat} (h : Keeps o s) : Keeps o (abortProf s ch) := by
  unfold abortProf
  dsimp only
  split
  · exact enterDecayAt_keeps (modDrv_keeps (releaseHsvAt_keeps h))
  · exact enterDecayAt_keeps (modDrv_keeps (releaseHsvAt_keeps h))
  · exact setPhase_keeps (modDrv_keeps h)
  · exact modDrv_keeps h

theorem stopProf_keeps {s : State} {ch : Nat} (h : Keeps o s) : Keeps o (stopProf s ch) := by
  unfold stopProf
  dsimp only
  refine enterDecay_keeps ?_
  refine modDrv_keeps ?_
  refine releaseHsv_keeps ?_
  split
  · exact finishProf_keeps h
  · exact h

theorem endPeak_keeps {s : State} {ch : Nat} (h : Keeps o s) : Keeps o (endPeak s ch) := by
  unfold endPeak
  dsimp only
  split
  · exact setPhase_keeps (modDrv_keeps (finishProf_keeps (endSearch_keeps h)))
  · exact endSearch_keeps h

theorem endBoost_keeps {s : State} {ch : Nat} {byTimeout : Bool} (h : Keeps o s) : Keeps o (endBoost s ch byTimeout)
    :=
  keeps_ite (endPeak_keeps (modDrv_keeps (releaseHsv_keeps (keeps_ite h (endSearch_keeps h))))) (setPhase_keeps
    (modDrv_keeps (releaseHsv_keeps (keeps_ite h (endSearch_keeps h)))))

theorem drvProfile_keeps {s : State} {ch delay on hold : Nat} {ref : Option Ref} {row at_ : Nat} (h : Keeps o s) :
    Keeps o (drvProfile s ch delay on hold ref row at_) := by
  unfold drvProfile
  dsimp only
  split
  · split
    · exact completeRow_keeps (modDrv_keeps h)
    · exact modDrv_keeps h
  · exact modDrv_keeps h

theorem dropProf_keeps {s : State} {ch : Nat} (h : Keeps o s) : Keeps o (dropProf s ch) := by
  unfold dropProf
  split
  · exact h
  · dsimp only
    split
    · exact completeRow_keeps (rinc_keeps (setPhase_keeps (modDrv_keeps h)))
    · exact rinc_keeps (setPhase_keeps (modDrv_keeps h))

theorem setDrvFault_keeps {s : State} {ch code : Nat} (h : Keeps o s) : Keeps o (setDrvFault s ch code) :=
  keeps_ite (raiseEv_keeps (dset_keeps h)) (dset_keeps h)

theorem openNow_keeps {s : State} {ch : Nat} (h : Keeps o s) : Keeps o (openNow s ch) :=
  keeps_ite (setDrvFault_keeps h) h

theorem settleProf_keeps {s : State} {ch : Nat} (h : Keeps o s) : Keeps o (settleProf s ch) := by
  unfold settleProf
  dsimp only
  split
  · refine keeps_ite ?_ ?_
    · refine endPeak_keeps ?_
      split
      · exact keeps_ite (keeps_ite (openNow_keeps (endBoost_keeps h)) (endBoost_keeps h)) h
      · exact h
    · split
      · exact keeps_ite (keeps_ite (openNow_keeps (endBoost_keeps h)) (endBoost_keeps h)) h
      · exact h
  · split
    · exact keeps_ite (keeps_ite (openNow_keeps (endBoost_keeps h)) (endBoost_keeps h)) h
    · exact h

theorem drvOff_keeps {s : State} {ch : Nat} (h : Keeps o s) : Keeps o (drvOff s ch) :=
  stopProf_keeps (settleProf_keeps (modDrv_keeps h))

theorem drvProp_keeps {s : State} {ch ma : Nat} {dither : Option (Nat × Nat)} (h : Keeps o s) : Keeps o (drvProp s ch
    ma dither) :=
  noteHs_keeps (modDrv_keeps (keeps_ite h (setPhase_keeps h)))

theorem drvRate_keeps {s : State} {ch : Nat} {u : F32} {at_ : Nat} (h : Keeps o s) : Keeps o (drvRate s ch u at_) :=
  keeps_ite (modDrv_keeps h) (modDrv_keeps h)

theorem shotDue_keeps {s : State} {ch : Nat} (h : Keeps o s) : Keeps o (shotDue s ch) := by
  unfold shotDue
  split
  · exact h
  · exact keeps_ite h (keeps_ite (modDrv_keeps h) (keeps_ite (rinc_keeps (modDrv_keeps h)) (drvProfile_keeps
      (modDrv_keeps h))))

theorem latchBank_keeps {s : State} {b code : Nat} (h : Keeps o s) : Keeps o (latchBank s b code) :=
  keeps_ite h (raiseEv_keeps (rset_keeps (rset_keeps (foldl_keeps (fun _ _ hu => drvOff_keeps hu) h))))

theorem drvChFault_keeps {s : State} {ch code value since : Nat} {desat : Bool} (h : Keeps o s) : Keeps o (drvChFault
    s ch code value since desat) :=
  keeps_ite h (keeps_ite (latchBank_keeps (raiseEv_keeps (dset_keeps (setDrvFault_keeps (drvOff_keeps h)))))
    (raiseEv_keeps (dset_keeps (setDrvFault_keeps (drvOff_keeps h)))))

theorem offDiag_keeps {s : State} {ch vl vh : Nat} (h : Keeps o s) : Keeps o (offDiag s ch vl vh) := by
  unfold offDiag
  dsimp only
  refine keeps_ite ?_ ?_
  · split
    · exact setDrv_keeps h
    · exact keeps_ite (setDrvFault_keeps (setDrv_keeps h)) (setDrv_keeps h)
  · exact h

theorem onOpenLoad_keeps {s : State} {ch : Nat} (h : Keeps o s) : Keeps o (onOpenLoad s ch) :=
  keeps_ite (openNow_keeps h) h

theorem floorHit_keeps {s : State} {ch : Nat} (h : Keeps o s) : Keeps o (floorHit s ch) :=
  keeps_ite (keeps_ite (raiseEv_keeps (modDrv_keeps (rinc_keeps (setDrv_keeps h)))) (modDrv_keeps (rinc_keeps
    (setDrv_keeps h)))) h

theorem bankFault_keeps {s : State} {b code value since : Nat} (h : Keeps o s) : Keeps o (bankFault s b code value
    since) :=
  keeps_ite (latchBank_keeps (keeps_ite (noteVbst_keeps h) h)) (keeps_ite (noteVbst_keeps h) h)

theorem drvClear_keeps {s : State} {ch : Nat} {bank present : Bool} (h : Keeps o s) : Keeps o (drvClear s ch bank
    present).1 := by
  unfold drvClear
  dsimp only
  split
  · split
    · exact h
    · exact rset_keeps (rset_keeps h)
  · split
    · split
      · exact h
      · exact dset_keeps (dset_keeps h)
    · exact h

theorem bankCheck_keeps {s : State} {b : Nat} (h : Keeps o s) : Keeps o (bankCheck s b) := by
  unfold bankCheck
  split
  · exact rset_keeps h
  · exact raiseEv_keeps (rset_keeps (rset_keeps (rset_keeps h)))

theorem derateSet_keeps {s : State} {b boost peak : Nat} (h : Keeps o s) : Keeps o (derateSet s b boost peak) :=
  keeps_ite (keeps_ite (rset_keeps (rset_keeps h)) (marginChange_keeps (rset_keeps (rset_keeps h))))
    (marginChange_keeps (keeps_ite (rset_keeps (rset_keeps h)) (marginChange_keeps (rset_keeps (rset_keeps h)))))

theorem derateApply_keeps {s : State} {b : Nat} (h : Keeps o s) : Keeps o (derateApply s b) := by
  unfold derateApply
  split
  · exact keeps_ite (derateSet_keeps (setDbk_keeps h)) h
  · exact h

theorem takePassed_keeps {s : State} {plane : Nat} {p same : OutCmd → Bool} {q : Passed} {u : State} (ht : takePassed
    s plane p same = some (q, u)) (h : Keeps o s) : Keeps o u := by
  unfold takePassed at ht
  split at ht
  · split at ht
    · obtain ⟨rfl, rfl⟩ := Prod.mk.inj (Option.some.inj ht)
      exact setPps_keeps h
    · cases ht
  · cases ht

theorem drvDone_keeps {s : State} {ch : Nat} {q : Passed} {status detail : Nat} (h : Keeps o s) : Keeps o (drvDone s
    ch q status detail) := by
  unfold drvDone
  split
  · exact completeRow_keeps h
  · exact h

theorem drvRun_keeps {s : State} {ch : Nat} {q : Passed} {c : DrvCmd} {f : State → State} (hf : ∀ u, Keeps o u → Keeps
    o (f u)) (h : Keeps o s) : Keeps o (drvRun s ch q c f) := by
  unfold drvRun
  split
  · exact drvDone_keeps h
  · refine keeps_ite ?_ ?_
    · exact drvDone_keeps h
    · split
      · exact keeps_ite (drvDone_keeps h) (hf _ h)
      · exact hf _ h

theorem doProfile_keeps {s : State} {ch : Nat} (h : Keeps o s) : Keeps o (doProfile s ch) := by
  unfold doProfile
  split
  · have hs := takePassed_keeps ‹_› h
    split
    · exact drvRun_keeps (fun _ hu => drvProfile_keeps hu) hs
    · exact hs
  · exact h

theorem doProp_keeps {s : State} {ch : Nat} (h : Keeps o s) : Keeps o (doProp s ch) := by
  unfold doProp
  split
  · have hs := takePassed_keeps ‹_› h
    split
    · exact drvRun_keeps (fun _ hu => drvDone_keeps (drvProp_keeps hu)) hs
    · exact hs
  · exact h

theorem doOff_keeps {s : State} {ch : Nat} (h : Keeps o s) : Keeps o (doOff s ch) := by
  unfold doOff
  split
  · have hs := takePassed_keeps ‹_› h
    exact drvRun_keeps (fun _ hu => drvDone_keeps (drvOff_keeps hu)) hs
  · exact h

theorem doClear_keeps {s : State} {ch : Nat} {present : Bool} (h : Keeps o s) : Keeps o (doClear s ch present) := by
  unfold doClear
  split
  · have hs := takePassed_keeps ‹_› h
    split
    · exact drvRun_keeps (fun _ hu => keeps_ite (drvDone_keeps (drvClear_keeps hu)) (drvDone_keeps (drvClear_keeps
        hu))) hs
    · exact hs
  · exact h

theorem askBoost_keeps {s : State} {ch : Nat} (h : Keeps o s) : Keeps o (askBoost s ch) := by
  unfold askBoost
  split
  · exact keeps_ite (setPhase_keeps (modDrv_keeps h)) h
  · exact h

theorem bankPassed_keeps {s : State} {b : Nat} (h : Keeps o s) : Keeps o (bankPassed s b) := by
  unfold bankPassed
  refine foldl_keeps ?_ h
  intro _ _ hu
  split
  · exact keeps_ite (doProfile_keeps hu) hu
  · exact keeps_ite (doProp_keeps hu) hu
  · exact keeps_ite (doOff_keeps hu) hu
  · exact hu

theorem bankGrant_keeps {s : State} {b vbst : Nat} (h : Keeps o s) : Keeps o (bankGrant s b vbst) := by
  unfold bankGrant
  extract_lets s1
  have h1 : Keeps o s1 := foldl_keeps (fun _ _ hu => shotDue_keeps hu) (bankPassed_keeps (noteVbst_keeps h))
  exact hsvGrant_keeps (foldl_keeps (fun _ _ hu => askBoost_keeps hu) h1)

theorem boostWait_keeps {s0 : State} {ch vbst : Nat} (h : Keeps o s0) : Keeps o (boostWait s0 ch vbst) := by
  unfold boostWait
  extract_lets s
  have hs : Keeps o s := bankGrant_keeps h
  split
  · exact keeps_ite (dropProf_keeps hs) hs
  · exact hs

theorem profileEnd_keeps {s0 : State} {ch : Nat} (h : Keeps o s0) : Keeps o (profileEnd s0 ch) := by
  unfold profileEnd
  dsimp only
  split
  · split
    · exact keeps_ite (stopProf_keeps (settleProf_keeps h)) (settleProf_keeps h)
    · exact settleProf_keeps h
  · exact settleProf_keeps h

theorem execDrvProfile_keeps {t : Fc} {ch : Fin 96} {s : State} (h : Keeps o s) : KeepsOut o (execDrvProfile t ch s)
    :=
  atPlane_keeps (fun _ hu => doProfile_keeps hu) h

theorem execDrvProp_keeps {t : Fc} {ch : Fin 96} {s : State} (h : Keeps o s) : KeepsOut o (execDrvProp t ch s) :=
  atPlane_keeps (fun _ hu => doProp_keeps hu) h

theorem execDrvOff_keeps {t : Fc} {ch : Fin 96} {s : State} (h : Keeps o s) : KeepsOut o (execDrvOff t ch s) :=
  atPlane_keeps (fun _ hu => doOff_keeps hu) h

theorem execDrvClear_keeps {t : Fc} {ch : Fin 96} {present : Bool} {s : State} (h : Keeps o s) : KeepsOut o
    (execDrvClear t ch present s) :=
  atPlane_keeps (fun _ hu => doClear_keeps hu) h

theorem execBoostRequest_keeps {t : Fc} {ch : Fin 96} {vbst : Fin 1024} {s : State} (h : Keeps o s) : KeepsOut o
    (execBoostRequest t ch vbst s) :=
  atPlane_keeps (fun _ hu => bankGrant_keeps hu) h

theorem execBoostGapExpiry_keeps {t : Fc} {bank : Fin 12} {vbst : Fin 1024} {s : State} (h : Keeps o s) : KeepsOut o
    (execBoostGapExpiry t bank vbst s) :=
  atPlane_keeps (fun _ hu => bankGrant_keeps hu) h

theorem execBoostWaitExpiry_keeps {t : Fc} {ch : Fin 96} {vbst : Fin 1024} {s : State} (h : Keeps o s) : KeepsOut o
    (execBoostWaitExpiry t ch vbst s) :=
  atPlane_keeps (fun _ hu => boostWait_keeps hu) h

theorem execBoostCurrentReached_keeps {t : Fc} {c : DrvTrace} {s : State} (h : Keeps o s) : KeepsOut o
    (execBoostCurrentReached t c s) :=
  atDrive_keeps (fun _ hu => keeps_ite (endBoost_keeps hu) hu) h

theorem execTBoostExpiry_keeps {t : Fc} {c : DrvTrace} {s : State} (h : Keeps o s) : KeepsOut o (execTBoostExpiry t c
    s) :=
  atDrive_keeps (fun _ hu => settleProf_keeps hu) h

theorem execTPeakExpiry_keeps {t : Fc} {c : DrvTrace} {s : State} (h : Keeps o s) : KeepsOut o (execTPeakExpiry t c s)
    :=
  atDrive_keeps (fun _ hu => keeps_ite (settleProf_keeps hu) hu) h

theorem execProfileEndTime_keeps {t : Fc} {c : DrvTrace} {s : State} (h : Keeps o s) : KeepsOut o (execProfileEndTime
    t c s) :=
  atDrive_keeps (fun _ hu => profileEnd_keeps hu) h

theorem noteSlope_keeps {s : State} {ch slope : Nat} (h : Keeps o s) : Keeps o (noteSlope s ch slope) :=
  keeps_ite (modDrv_keeps (dset_keeps h)) h

theorem execDecayEnd_keeps {t : Fc} {c : DrvTrace} {slope : Fin 65536} {s : State} (h : Keeps o s) : KeepsOut o
    (execDecayEnd t c slope s) :=
  atDrive_keeps (fun _ hu => keeps_ite (setPhase_keeps (noteSlope_keeps hu)) (noteSlope_keeps hu)) h

theorem execMovementDetected_keeps {t : Fc} {ch : Fin 96} {trace : List Nat} {s : State} (h : Keeps o s) : KeepsOut o
    (execMovementDetected t ch trace s) :=
  atDrive_keeps (fun _ hu => hu) h

theorem execHoldFloorHit_keeps {t : Fc} {ch : Fin 96} {trace : List Nat} {s : State} (h : Keeps o s) : KeepsOut o
    (execHoldFloorHit t ch trace s) :=
  atDrive_keeps (fun _ hu => floorHit_keeps hu) h

theorem execShotDue_keeps {t : Fc} {ch : Fin 96} {s : State} (h : Keeps o s) : KeepsOut o (execShotDue t ch s) :=
  atPlane_keeps (fun _ hu => shotDue_keeps hu) h

theorem execOffDiagSample_keeps {t : Fc} {ch : Fin 96} {vl vh : Nat} {s : State} (h : Keeps o s) : KeepsOut o
    (execOffDiagSample t ch vl vh s) :=
  atPlane_keeps (fun _ hu => offDiag_keeps hu) h

theorem execDrvChFault_keeps {t : Fc} {ch : Fin 96} {f : DrvFaultSeen} {s : State} (h : Keeps o s) : KeepsOut o
    (execDrvChFault t ch f s) :=
  atPlane_keeps (fun _ hu => drvChFault_keeps hu) h

theorem execDrvOnOpenLoad_keeps {t : Fc} {ch : Fin 96} {trace : List Nat} {s : State} (h : Keeps o s) : KeepsOut o
    (execDrvOnOpenLoad t ch trace s) :=
  atDrive_keeps (fun _ hu => onOpenLoad_keeps hu) h

theorem execDbkBankFault_keeps {t : Fc} {bank : Fin 12} {code : Fin 4} {value : Nat} {since : Fc} {s : State} (h :
    Keeps o s) : KeepsOut o (execDbkBankFault t bank code value since s) :=
  atPlane_keeps (fun _ hu => bankFault_keeps hu) h

theorem execBankCheck_keeps {t : Fc} {bank : Fin 12} {s : State} (h : Keeps o s) : KeepsOut o (execBankCheck t bank s)
    :=
  atPlane_keeps (fun _ hu => bankCheck_keeps hu) h

theorem execDerateApply_keeps {t : Fc} {bank : Fin 12} {s : State} (h : Keeps o s) : KeepsOut o (execDerateApply t
    bank s) :=
  atPlane_keeps (fun _ hu => derateApply_keeps hu) h

/-! ### SwitchBanks -/

theorem setSw_keeps {s : State} {ch : Nat} {v : SwCh} (h : Keeps o s) : Keeps o (setSw s ch v) := keeps_update h

theorem modSw_keeps {s : State} {ch : Nat} {f : SwCh → SwCh} (h : Keeps o s) : Keeps o (modSw s ch f) := setSw_keeps h

theorem setFeed_keeps {s : State} {p : Nat} {v : Feed} (h : Keeps o s) : Keeps o (setFeed s p v) := keeps_update h

theorem swAll_keeps {s : State} {ch : Nat} {f : Fld} {v : Nat} (h : Keeps o s) : Keeps o (swAll s ch f v) :=
  foldl_keeps (fun _ _ hu => dset_keeps hu) h

theorem modAll_keeps {s : State} {ch : Nat} {f : SwCh → SwCh} (h : Keeps o s) : Keeps o (modAll s ch f) :=
  foldl_keeps (fun _ _ hu => modSw_keeps hu) h

theorem swTurnOff_keeps {s : State} {ch : Nat} (h : Keeps o s) : Keeps o (swTurnOff s ch) :=
  swAll_keeps (modAll_keeps h)

theorem swTurnOn_keeps {s : State} {ch : Nat} (h : Keeps o s) : Keeps o (swTurnOn s ch) := modAll_keeps h

theorem dropLimit_keeps {s : State} {ch : Nat} (h : Keeps o s) : Keeps o (dropLimit s ch) :=
  keeps_ite h (modAll_keeps h)

theorem swDuty_keeps {s : State} {ch duty : Nat} (h : Keeps o s) : Keeps o (swDuty s ch duty) :=
  keeps_ite (swTurnOff_keeps (modAll_keeps (dropLimit_keeps h))) (keeps_ite (swAll_keeps (swTurnOff_keeps
    (modAll_keeps (dropLimit_keeps h)))) (keeps_ite (swTurnOff_keeps (modAll_keeps (dropLimit_keeps h)))
    (swTurnOn_keeps (modAll_keeps (dropLimit_keeps h)))))

theorem swRestart_keeps {s : State} {ch : Nat} {free : Bool} (h : Keeps o s) : Keeps o (swRestart s ch free) :=
  foldl_keeps (fun _ _ hu => modSw_keeps (keeps_ite (rinc_keeps (dset_keeps hu)) (rinc_keeps (rinc_keeps (dset_keeps
    hu))))) h

theorem swDue_keeps {s : State} {ch : Nat} (h : Keeps o s) : Keeps o (swDue s ch) :=
  keeps_ite h (keeps_ite (swRestart_keeps h) (raiseEv_keeps (swAll_keeps h)))

theorem noteMa_keeps {s : State} {ch : Nat} {samples : List Nat} (h : Keeps o s) : Keeps o (noteMa s ch samples) := by
  unfold noteMa
  split
  · exact modSw_keeps h
  · exact h

theorem swTrip_keeps {s : State} {ch cause : Nat} (h : Keeps o s) : Keeps o (swTrip s ch cause) :=
  raiseEv_keeps (foldl_keeps (fun _ _ hu => rinc_keeps (dset_keeps (dset_keeps hu))) (swTurnOff_keeps h))

theorem wireUpdate_keeps {s0 : State} {ch : Nat} {own other : List Nat} (h : Keeps o s0) : Keeps o (wireUpdate s0 ch
    own other) :=
  keeps_ite h (keeps_ite (swTrip_keeps (keeps_ite (swAll_keeps (modAll_keeps (noteMa_keeps (noteMa_keeps h))))
    (modAll_keeps (swAll_keeps (modAll_keeps (noteMa_keeps (noteMa_keeps h))))))) (keeps_ite (swAll_keeps
    (modAll_keeps (noteMa_keeps (noteMa_keeps h)))) (modAll_keeps (swAll_keeps (modAll_keeps (noteMa_keeps
    (noteMa_keeps h)))))))

theorem inLimit_keeps {s : State} {ch : Nat} (h : Keeps o s) : Keeps o (inLimit s ch) := keeps_ite (modAll_keeps h) h

theorem inrush_keeps {s : State} {ch : Nat} (h : Keeps o s) : Keeps o (inrush s ch) := by
  unfold inrush
  dsimp only
  split
  · exact keeps_ite (swTrip_keeps h) h
  · exact h

theorem thermSet_keeps {s : State} {ch : Nat} {tj : Int} (h : Keeps o s) : Keeps o (thermSet s ch tj) :=
  keeps_ite (dset_keeps h) (raiseEv_keeps (modAll_keeps (foldl_keeps (fun _ _ hu => rinc_keeps hu) (swAll_keeps
    (keeps_ite (modAll_keeps (swTurnOff_keeps (dset_keeps h))) (swTurnOff_keeps (dset_keeps h)))))))

theorem thermClear_keeps {s : State} {ch : Nat} {tj : Int} (h : Keeps o s) : Keeps o (thermClear s ch tj) :=
  keeps_ite (dset_keeps h) (keeps_ite (swDue_keeps (swAll_keeps (dset_keeps h))) (modAll_keeps (swAll_keeps
    (dset_keeps h))))

theorem pairJoin_keeps {s : State} {ch : Nat} (h : Keeps o s) : Keeps o (pairJoin s ch) :=
  swDuty_keeps (dset_keeps (dset_keeps (dset_keeps (dset_keeps (dset_keeps (dset_keeps (keeps_ite (dset_keeps h)
    h)))))))

theorem feedVolts_keeps {s : State} {p mv : Nat} (h : Keeps o s) : Keeps o (feedVolts s p mv) :=
  rset_keeps (setFeed_keeps h)

theorem feedUv_keeps {s0 : State} {p mv since : Nat} (h : Keeps o s0) : Keeps o (feedUv s0 p mv since) :=
  keeps_ite (feedVolts_keeps h) (keeps_ite (setFeed_keeps (feedVolts_keeps h)) (keeps_ite (foldl_keeps (fun _ _ hu =>
    keeps_ite (swTurnOff_keeps (keeps_ite hu (dset_keeps hu))) (keeps_ite hu (dset_keeps hu))) (setFeed_keeps
    (feedVolts_keeps h))) (raiseEv_keeps (foldl_keeps (fun _ _ hu => keeps_ite (swTurnOff_keeps (keeps_ite hu
    (dset_keeps hu))) (keeps_ite hu (dset_keeps hu))) (setFeed_keeps (feedVolts_keeps h))))))

theorem uvEnd_keeps {s0 : State} {p mv since : Nat} (h : Keeps o s0) : Keeps o (uvEnd s0 p mv since) :=
  keeps_ite (feedVolts_keeps h) (setFeed_keeps (foldl_keeps (fun _ _ hu => dset_keeps hu) (feedVolts_keeps h)))

theorem uvStep_keeps {s : State} {p : Nat} (h : Keeps o s) : Keeps o (uvStep s p) := by
  unfold uvStep
  dsimp only
  split
  · exact h
  · exact keeps_ite h (swDue_keeps (setFeed_keeps h))

theorem planeShed_keeps {s0 : State} {p amps since : Nat} (h : Keeps o s0) : Keeps o (planeShed s0 p amps since) := by
  unfold planeShed
  dsimp only
  refine keeps_ite ?_ ?_
  · exact setFeed_keeps (rset_keeps h)
  · refine keeps_ite ?_ ?_
    · exact rset_keeps h
    · split
      · exact raiseEv_keeps (setFeed_keeps (foldl_keeps (fun _ _ hu => dset_keeps (swTurnOff_keeps hu)) (rset_keeps
          h)))
      · exact keeps_ite (rset_keeps h) (raiseEv_keeps (setFeed_keeps (rset_keeps h)))

theorem shedRestore_keeps {s0 : State} {p amps since : Nat} (h : Keeps o s0) : Keeps o (shedRestore s0 p amps since)
    := by
  unfold shedRestore
  dsimp only
  split
  · exact rset_keeps h
  · exact keeps_ite (rset_keeps h) (setFeed_keeps (foldl_keeps (fun _ _ hu => keeps_ite (dset_keeps hu) (modSw_keeps
      (dset_keeps hu))) (rset_keeps h)))

theorem noteOl_keeps {s : State} {ch ma : Nat} (h : Keeps o s) : Keeps o (noteOl s ch ma) :=
  keeps_ite h (noteMa_keeps h)

theorem openLoad_keeps {s0 : State} {ch ma since : Nat} (h : Keeps o s0) : Keeps o (openLoad s0 ch ma since) :=
  keeps_ite (raiseEv_keeps (foldl_keeps (fun _ _ hu => rinc_keeps (dset_keeps hu)) (noteOl_keeps h))) (noteOl_keeps h)

theorem openLoadClear_keeps {s0 : State} {ch ma : Nat} (h : Keeps o s0) : Keeps o (openLoadClear s0 ch ma) :=
  keeps_ite (swAll_keeps (noteOl_keeps h)) (noteOl_keeps h)

theorem swDone_keeps {s : State} {ch : Nat} {q : Passed} {status detail : Nat} (h : Keeps o s) : Keeps o (swDone s ch
    q status detail) := by
  unfold swDone
  split
  · exact completeRow_keeps h
  · exact h

theorem doSet_keeps {s : State} {ch : Nat} (h : Keeps o s) : Keeps o (doSet s ch) := by
  unfold doSet
  split
  · have hs := takePassed_keeps ‹_› h
    split
    · refine keeps_ite ?_ ?_
      · exact swDone_keeps hs
      · refine keeps_ite ?_ ?_
        · exact swDone_keeps hs
        · split
          · exact swDone_keeps hs
          · exact swDone_keeps (swDuty_keeps hs)
    · exact hs
  · exact h

theorem swRearm_keeps {s : State} {ch : Nat} {therm : Bool} (h : Keeps o s) : Keeps o (swRearm s ch therm) :=
  modAll_keeps (swDuty_keeps (modAll_keeps (swAll_keeps (swAll_keeps (swAll_keeps h)))))

theorem doRearm_keeps {s : State} {ch : Nat} (h : Keeps o s) : Keeps o (doRearm s ch) := by
  unfold doRearm
  split
  · have hs := takePassed_keeps ‹_› h
    exact keeps_ite (swDone_keeps hs) (keeps_ite (swDone_keeps hs) (keeps_ite (swDone_keeps hs) (keeps_ite
      (swDone_keeps hs) (swDone_keeps (swRearm_keeps hs)))))
  · exact h

theorem retryRestart_keeps {s : State} {ch : Nat} (h : Keeps o s) : Keeps o (retryRestart s ch) :=
  keeps_ite (swDue_keeps h) h

theorem retryWindow_keeps {s : State} {ch : Nat} (h : Keeps o s) : Keeps o (retryWindow s ch) := by
  unfold retryWindow
  split
  · exact keeps_ite (swAll_keeps (modAll_keeps h)) h
  · exact h

theorem execSwSet_keeps {t : Fc} {ch : Fin 96} {s : State} (h : Keeps o s) : KeepsOut o (execSwSet t ch s) :=
  atPlane_keeps (fun _ hu => doSet_keeps hu) h

theorem execSwRearm_keeps {t : Fc} {ch : Fin 96} {s : State} (h : Keeps o s) : KeepsOut o (execSwRearm t ch s) :=
  atPlane_keeps (fun _ hu => doRearm_keeps hu) h

theorem execWireModelUpdate_keeps {t : Fc} {ch : Fin 96} {m : MsSamples} {s : State} (h : Keeps o s) : KeepsOut o
    (execWireModelUpdate t ch m s) :=
  atPlane_keeps (fun _ hu => wireUpdate_keeps hu) h

theorem execInrushExpiry_keeps {t : Fc} {ch : Fin 96} {s : State} (h : Keeps o s) : KeepsOut o (execInrushExpiry t ch
    s) :=
  atPlane_keeps (fun _ hu => inrush_keeps hu) h

theorem execThermLatchSet_keeps {t : Fc} {ch : Fin 96} {tj : Int} {s : State} (h : Keeps o s) : KeepsOut o
    (execThermLatchSet t ch tj s) :=
  atPlane_keeps (fun _ hu => thermSet_keeps hu) h

theorem execThermLatchClear_keeps {t : Fc} {ch : Fin 96} {tj : Int} {s : State} (h : Keeps o s) : KeepsOut o
    (execThermLatchClear t ch tj s) :=
  atPlane_keeps (fun _ hu => thermClear_keeps hu) h

theorem execFeedUv_keeps {t : Fc} {plane : Fin 2} {mv : Nat} {since : Fc} {s : State} (h : Keeps o s) : KeepsOut o
    (execFeedUv t plane mv since s) :=
  atPlane_keeps (fun _ hu => feedUv_keeps hu) h

theorem execUvRestartDelayExpiry_keeps {t : Fc} {plane : Fin 2} {mv : Nat} {since : Fc} {s : State} (h : Keeps o s) :
    KeepsOut o (execUvRestartDelayExpiry t plane mv since s) :=
  atPlane_keeps (fun _ hu => uvEnd_keeps hu) h

theorem execUvRestartStep_keeps {t : Fc} {plane : Fin 2} {s : State} (h : Keeps o s) : KeepsOut o (execUvRestartStep t
    plane s) :=
  atPlane_keeps (fun _ hu => uvStep_keeps hu) h

theorem execRetryRestart_keeps {t : Fc} {ch : Fin 96} {s : State} (h : Keeps o s) : KeepsOut o (execRetryRestart t ch
    s) :=
  atPlane_keeps (fun _ hu => retryRestart_keeps hu) h

theorem execRetryWindowEnd_keeps {t : Fc} {ch : Fin 96} {s : State} (h : Keeps o s) : KeepsOut o (execRetryWindowEnd t
    ch s) :=
  atPlane_keeps (fun _ hu => retryWindow_keeps hu) h

theorem execOpenLoadDetect_keeps {t : Fc} {ch : Fin 96} {ma : Nat} {since : Fc} {s : State} (h : Keeps o s) : KeepsOut
    o (execOpenLoadDetect t ch ma since s) :=
  atPlane_keeps (fun _ hu => openLoad_keeps hu) h

theorem execPlaneShed_keeps {t : Fc} {plane : Fin 2} {amps : Nat} {since : Fc} {s : State} (h : Keeps o s) : KeepsOut
    o (execPlaneShed t plane amps since s) :=
  atPlane_keeps (fun _ hu => planeShed_keeps hu) h

theorem execShedRestore_keeps {t : Fc} {plane : Fin 2} {amps : Nat} {since : Fc} {s : State} (h : Keeps o s) :
    KeepsOut o (execShedRestore t plane amps since s) :=
  atPlane_keeps (fun _ hu => shedRestore_keeps hu) h

theorem execOpenLoadClear_keeps {t : Fc} {ch : Fin 96} {ma : Nat} {s : State} (h : Keeps o s) : KeepsOut o
    (execOpenLoadClear t ch ma s) :=
  atPlane_keeps (fun _ hu => openLoadClear_keeps hu) h

theorem execInLimit_keeps {t : Fc} {ch : Fin 96} {s : State} (h : Keeps o s) : KeepsOut o (execInLimit t ch s) :=
  atPlane_keeps (fun _ hu => inLimit_keeps hu) h

/-! ### Pps -/

theorem safeDrive_keeps {s : State} {p n : Nat} (h : Keeps o s) : Keeps o (safeDrive s p n) := by
  unfold safeDrive
  dsimp only
  refine keeps_ite ?_ ?_
  · exact h
  · split
    · exact drvOff_keeps h
    · exact drvProp_keeps h
    · exact drvProfile_keeps h
    · exact drvProp_keeps h
    · exact h

theorem safeSwitch_keeps {s : State} {p n : Nat} (h : Keeps o s) : Keeps o (safeSwitch s p n) := by
  unfold safeSwitch
  dsimp only
  refine keeps_ite ?_ ?_
  · exact h
  · split
    · exact swDuty_keeps h
    · exact swDuty_keeps h
    · exact h

theorem armChannels_keeps {s : State} {p : Nat} (h : Keeps o s) : Keeps o (armChannels s p) :=
  foldl_keeps (fun _ _ hu => dset_keeps (modDrv_keeps hu)) h

theorem ppsArm_keeps {s0 : State} {p : Nat} (h : Keeps o s0) : Keeps o (ppsArm s0 p) :=
  keeps_ite h (keeps_ite (rset_keeps (foldl_keeps (fun _ _ hu => bankCheck_keeps hu) (rset_keeps h))) (setPps_keeps
    (rset_keeps (rset_keeps (rset_keeps (rset_keeps (armChannels_keeps (rset_keeps (foldl_keeps (fun _ _ hu =>
    bankCheck_keeps hu) (rset_keeps h))))))))))

theorem dropPassed_keeps {s : State} {p : Nat} (h : Keeps o s) : Keeps o (dropPassed s p) := by
  unfold dropPassed
  dsimp only
  refine setPps_keeps ?_
  refine foldl_keeps ?_ h
  intro _ _ hu
  split
  · exact updReq_keeps hu
  · exact hu

theorem ppsDisarm_keeps {s : State} {p : Nat} (h : Keeps o s) : Keeps o (ppsDisarm s p) :=
  keeps_ite h (keeps_ite (rset_keeps h) (setPps_keeps (rset_keeps (rset_keeps (rset_keeps (foldl_keeps (fun _ _ hu =>
    swDuty_keeps (drvOff_keeps hu)) (dropPassed_keeps h)))))))

theorem safeAll_keeps {s : State} {p : Nat} (h : Keeps o s) : Keeps o (safeAll s p) :=
  foldl_keeps (fun _ _ hu => safeSwitch_keeps (safeDrive_keeps hu)) h

theorem safeNow_keeps {s : State} {p : Nat} (h : Keeps o s) : Keeps o (safeNow s p) :=
  keeps_ite (setPps_keeps (rset_keeps (safeAll_keeps h))) h

theorem clearBid_keeps {s : State} {p : Nat} (h : Keeps o s) : Keeps o (clearBid s p) := keeps_ite (rset_keeps h) h

theorem stageMiss_keeps {s : State} {q : Passed} (h : Keeps o s) : Keeps o (stageMiss s q) := by
  unfold stageMiss
  split
  · exact rinc_keeps h
  · exact rinc_keeps h

theorem passOne_keeps {p : Nat} {s : State} {q : Passed} (h : Keeps o s) : Keeps o (passOne p s q) := by
  unfold passOne
  refine keeps_ite ?_ ?_
  · exact stageMiss_keeps h
  · split
    · exact keeps_ite h (drvRate_keeps h)
    · exact setPps_keeps h

theorem ppsContact_keeps {s : State} {p : Nat} {own : Bool} {kind : FrameKind} {row periodUs : Nat} {cmds : List
    Passed} (h : Keeps o s) : Keeps o (ppsContact s p own kind row periodUs cmds) := by
  unfold ppsContact
  dsimp only
  refine keeps_ite ?_ ?_
  · exact h
  · split
    · exact keeps_ite (foldl_keeps (fun _ _ hu => passOne_keeps hu) (setPps_keeps (keeps_ite (raiseEv_keeps
        (rinc_keeps (rset_keeps (rset64_keeps (setPps_keeps (rset_keeps (rset_keeps (rset_keeps h))))))))
        (rset64_keeps (setPps_keeps (rset_keeps (rset_keeps (rset_keeps h)))))))) (foldl_keeps (fun _ _ hu =>
        stageMiss_keeps hu) (setPps_keeps (rset64_keeps (setPps_keeps (rset_keeps (rset_keeps (rset_keeps h)))))))
    · exact setPps_keeps (rset_keeps (rset_keeps (rset_keeps h)))

theorem fenceAck_keeps {s : State} {p : Nat} {payload : List Nat} (h : Keeps o s) : Keeps o (fenceAck s p payload) :=
  keeps_ite (xlkSend_keeps h) (keeps_update h)

theorem ppsFenced_keeps {s : State} {p : Nat} {own : Bool} {kind : FrameKind} {bid row : Nat} {cmds : List Passed} (h
    : Keeps o s) : Keeps o (ppsFenced s p own kind bid row cmds) := by
  unfold ppsFenced
  refine keeps_ite ?_ ?_
  · dsimp only
    refine keeps_ite ?_ ?_
    · exact rinc_keeps h
    · refine foldl_keeps ?_ (fencePost_keeps (rinc_keeps h))
      intro _ _ hu
      split
      · exact completeRow_keeps hu
      · exact hu
  · exact keeps_ite (fenceAck_keeps (rinc_keeps h)) (rinc_keeps h)

theorem ppsFrame_keeps {s : State} {p : Nat} {own : Bool} {kind : FrameKind} {bid row periodUs : Nat} {cmds : List
    Passed} (h : Keeps o s) : Keeps o (ppsFrame s p own kind bid row periodUs cmds).1 := by
  unfold ppsFrame
  dsimp only
  split
  · exact h
  · split
    · split
      · exact ppsFenced_keeps (rset_keeps h)
      · exact keeps_ite (keeps_ite (rset_keeps h) h) (ppsContact_keeps (keeps_ite (rset_keeps h) h))
    · split
      · exact ppsFenced_keeps (rset_keeps h)
      · exact keeps_ite (keeps_ite (rset_keeps h) h) (ppsContact_keeps (keeps_ite (rset_keeps h) h))

theorem holdingTimeout_keeps {s : State} {p : Nat} (h : Keeps o s) : Keeps o (holdingTimeout s p) :=
  keeps_ite (rset_keeps h) h

theorem holdExpiry_keeps {s : State} {p : Nat} {drive : Bool} {n : Nat} (h : Keeps o s) : Keeps o (holdExpiry s p
    drive n) :=
  keeps_ite (keeps_ite (setPps_keeps (rinc_keeps (rset_keeps (keeps_ite (safeDrive_keeps h) (safeSwitch_keeps h)))))
    (raiseEv_keeps (setPps_keeps (rinc_keeps (rset_keeps (keeps_ite (safeDrive_keeps h) (safeSwitch_keeps h))))))) h

theorem planeReset_keeps {s : State} {p : Nat} (h : Keeps o s) : Keeps o (planeReset s p) :=
  keeps_update (resetInst_keeps (resetInst_keeps (resetInst_keeps h)))

theorem ppsPowerLoss_keeps {s : State} {p : Nat} (h : Keeps o s) : Keeps o (ppsPowerLoss s p) :=
  setPps_keeps (planeReset_keeps (foldl_keeps (fun _ _ hu => drvOff_keeps hu) (dropPassed_keeps h)))

theorem ppsPowerUp_keeps {s : State} {p : Nat} (h : Keeps o s) : Keeps o (ppsPowerUp s p) :=
  keeps_ite h (setPps_keeps (planeReset_keeps h))

theorem execPpsArm_keeps {t : Fc} {plane : Fin 2} {s : State} (h : Keeps o s) : KeepsOut o (execPpsArm t plane s) :=
  atPlane_keeps (fun _ hu => keeps_ite (ppsArm_keeps hu) hu) h

theorem execPpsDisarm_keeps {t : Fc} {plane : Fin 2} {s : State} (h : Keeps o s) : KeepsOut o (execPpsDisarm t plane
    s) :=
  atPlane_keeps (fun _ hu => keeps_ite (ppsDisarm_keeps hu) hu) h

theorem execSafeNow_keeps {t : Fc} {plane : Fin 2} {s : State} (h : Keeps o s) : KeepsOut o (execSafeNow t plane s) :=
  atPlane_keeps (fun _ hu => keeps_ite (safeNow_keeps hu) hu) h

theorem execClearBid_keeps {t : Fc} {plane : Fin 2} {s : State} (h : Keeps o s) : KeepsOut o (execClearBid t plane s)
    :=
  atPlane_keeps (fun _ hu => keeps_ite (clearBid_keeps hu) hu) h

theorem execHoldingTimeout_keeps {t : Fc} {plane : Fin 2} {s : State} (h : Keeps o s) : KeepsOut o (execHoldingTimeout
    t plane s) :=
  atPlane_keeps (fun _ hu => holdingTimeout_keeps hu) h

theorem execHoldWindowExpiry_keeps {t : Fc} {plane : Fin 2} {drive : Bool} {n : Fin 48} {s : State} (h : Keeps o s) :
    KeepsOut o (execHoldWindowExpiry t plane drive n s) :=
  atPlane_keeps (fun _ hu => holdExpiry_keeps hu) h

theorem execPlaneSupervisorPowerLoss_keeps {t : Fc} {plane : Fin 2} {s : State} (h : Keeps o s) : KeepsOut o
    (execPlaneSupervisorPowerLoss t plane s) :=
  atTime_keeps (fun _ hu => ppsPowerLoss_keeps hu) h

theorem execPlaneSupervisorPowerUp_keeps {t : Fc} {plane : Fin 2} {s : State} (h : Keeps o s) : KeepsOut o
    (execPlaneSupervisorPowerUp t plane s) :=
  atTime_keeps (fun _ hu => ppsPowerUp_keeps hu) h

/-! ### Update -/

theorem modUpd_keeps {s : State} {f : Upd → Upd} (h : Keeps o s) : Keeps o (modUpd s f) := keeps_update h

theorem modKsm_keeps {s : State} {f : Ksm → Ksm} (h : Keeps o s) : Keeps o (modKsm s f) := keeps_update h

theorem credInstall_keeps {s : State} {kind market : Nat} {cert : Option Cert} {bytes : List Nat} (h : Keeps o s) :
    Keeps o (credInstall s kind market cert bytes) := by
  unfold credInstall
  split
  · exact rset_keeps (modKsm_keeps h)
  · exact rset_keeps (modKsm_keeps h)
  · exact modKsm_keeps h
  · exact rsetBitAt_keeps (modKsm_keeps h)

theorem credSet_keeps {s : State} {r : Ref} {d : Desc} {ok : Bool} {cert : Option Cert} {market : Nat} {bytes : List
    Nat} (h : Keeps o s) : Keeps o (credSet s r d ok cert market bytes) :=
  keeps_ite (complete_keeps h) (keeps_ite (complete_keeps h) (complete_keeps (credInstall_keeps h)))

theorem pubkeyGet_keeps {s : State} {r : Ref} {d : Desc} (h : Keeps o s) : Keeps o (pubkeyGet s r d) :=
  keeps_ite (complete_keeps (hostWrite_keeps h)) (complete_keeps h)

theorem modSlotU_keeps {s : State} {k : Nat} {f : UpdSlot → UpdSlot} (h : Keeps o s) : Keeps o (modSlotU s k f) :=
  modUpd_keeps h

theorem setSlotState_keeps {s : State} {k v : Nat} (h : Keeps o s) : Keeps o (setSlotState s k v) := rset_keeps h

theorem setMissing_keeps {s : State} {k n : Nat} (h : Keeps o s) : Keeps o (setMissing s k n) := rset_keeps h

theorem eraseSlot_keeps {s : State} {k : Nat} (h : Keeps o s) : Keeps o (eraseSlot s k) :=
  setMissing_keeps (setSlotState_keeps (modSlotU_keeps (completeOpt_keeps h)))

theorem updJob_keeps {s : State} {r : Ref} {f : State → State} (hf : ∀ u, Keeps o u → Keeps o (f u)) (h : Keeps o s) :
    Keeps o (updJob s r f) :=
  keeps_ite (complete_keeps h) (hf _ h)

theorem updOpen_keeps {s : State} {r : Ref} {d : Desc} {h' : List Nat} (h : Keeps o s) : Keeps o (updOpen s r d h') :=
  updJob_keeps (fun _ hu => keeps_ite (complete_keeps hu) (keeps_ite (complete_keeps hu) (keeps_ite (complete_keeps
    hu) (complete_keeps (setMissing_keeps (setSlotState_keeps (modSlotU_keeps (eraseSlot_keeps hu)))))))) h

theorem updBlock_keeps {s : State} {r : Ref} {d : Desc} {tagOk : Bool} {fault : Option (Nat × Nat)} (h : Keeps o s) :
    Keeps o (updBlock s r d tagOk fault) := by
  unfold updBlock
  refine updJob_keeps ?_ h
  intro _ hu
  dsimp only
  split
  · exact complete_keeps hu
  · refine keeps_ite ?_ ?_
    · exact complete_keeps hu
    · refine keeps_ite ?_ ?_
      · exact complete_keeps hu
      · refine keeps_ite ?_ ?_
        · exact complete_keeps hu
        · refine keeps_ite ?_ ?_
          · exact complete_keeps hu
          · split
            · exact complete_keeps (mediaError_keeps hu)
            · exact complete_keeps (setMissing_keeps (modSlotU_keeps hu))

theorem updClose_keeps {s : State} {r : Ref} {d : Desc} (h : Keeps o s) : Keeps o (updClose s r d) := by
  unfold updClose
  refine updJob_keeps ?_ h
  intro _ hu
  dsimp only
  split
  · exact complete_keeps hu
  · exact keeps_ite (complete_keeps hu) (keeps_ite (complete_keeps hu) (modSlotU_keeps hu))

theorem updCloseDone_keeps {s : State} {k : Nat} {sigOk keyKnown : Bool} {fault : Option (Nat × Nat)} (h : Keeps o s)
    : Keeps o (updCloseDone s k sigOk keyKnown fault) := by
  unfold updCloseDone
  split
  · refine keeps_ite ?_ ?_
    · exact h
    · refine storeNext_keeps ?_
      dsimp only
      split
      · exact complete_keeps (mediaError_keeps (modSlotU_keeps h))
      · exact keeps_ite (complete_keeps (modSlotU_keeps h)) (keeps_ite (complete_keeps (modSlotU_keeps h)) (keeps_ite
          (complete_keeps (modSlotU_keeps h)) (complete_keeps (setSlotState_keeps (modSlotU_keeps h)))))
  · exact h

theorem updCancel_keeps {s : State} {r : Ref} {d : Desc} (h : Keeps o s) : Keeps o (updCancel s r d) :=
  updJob_keeps (fun _ hu => keeps_ite (complete_keeps hu) (complete_keeps (eraseSlot_keeps hu))) h

theorem activate_keeps {s : State} {r : Ref} {d : Desc} (h : Keeps o s) : Keeps o (activate s r d) := by
  unfold activate
  refine updJob_keeps ?_ h
  intro _ hu
  dsimp only
  refine keeps_ite ?_ ?_
  · exact complete_keeps hu
  · refine keeps_ite ?_ ?_
    · exact complete_keeps hu
    · refine keeps_ite ?_ ?_
      · exact complete_keeps (rset_keeps (setSlotState_keeps hu))
      · refine keeps_ite ?_ ?_
        · split
          · exact complete_keeps (rset_keeps (rset_keeps hu))
          · exact modUpd_keeps (setSlotState_keeps hu)
        · exact modUpd_keeps (setSlotState_keeps hu)

theorem copyDone_keeps {s : State} {fault : Option (Bool × Nat × Nat)} (h : Keeps o s) : Keeps o (copyDone s fault) :=
    by
  unfold copyDone
  split
  · exact h
  · refine keeps_ite ?_ ?_
    · exact h
    · split
      · exact keeps_update (modUpd_keeps h)
      · exact complete_keeps (copyError_keeps (rset_keeps (modUpd_keeps (setSlotState_keeps h))))

theorem noteAbortNow_keeps {s : State} {r : Ref} (h : Keeps o s) : Keeps o (noteAbortNow s r) :=
  keeps_ite (updReq_keeps h) h

theorem confirmImage_keeps {s : State} {r : Ref} (h : Keeps o s) : Keeps o (confirmImage s r) :=
  updJob_keeps (fun _ hu => keeps_ite (complete_keeps (raiseEv_keeps (rset_keeps (rset_keeps hu)))) (complete_keeps
    hu)) h

theorem confirmFirst_keeps {s : State} (h : Keeps o s) : Keeps o (confirmFirst s) := by
  unfold confirmFirst
  refine foldl_keeps ?_ h
  intro _ _ hu
  split
  · exact keeps_ite (withDesc_keeps (fun _ _ hu1 => confirmImage_keeps hu1) hu) hu
  · exact hu

theorem ppsApply_keeps {s : State} {r : Ref} {d : Desc} {version : Nat} (h : Keeps o s) : Keeps o (ppsApply s r d
    version) :=
  updJob_keeps (fun _ hu => keeps_ite (complete_keeps hu) (keeps_ite (complete_keeps hu) (modUpd_keeps hu))) h

theorem ppsRestart_keeps {s : State} {p : Nat} (h : Keeps o s) : Keeps o (ppsRestart s p) :=
  setPps_keeps (dropKeys_keeps h)

theorem ppsApplyDone_keeps {s : State} {p : Nat} (h : Keeps o s) : Keeps o (ppsApplyDone s p) := by
  unfold ppsApplyDone
  split
  · exact h
  · exact keeps_ite (complete_keeps (raiseEv_keeps (rset_keeps (modUpd_keeps (ppsRestart_keeps h))))) (raiseEv_keeps
      (rset_keeps (modUpd_keeps (ppsRestart_keeps h))))

theorem stopUpdate_keeps {s : State} {r : Ref} (h : Keeps o s) : Keeps o (stopUpdate s r) := by
  unfold stopUpdate
  dsimp only
  refine modUpd_keeps ?_
  split
  · exact keeps_ite (modUpd_keeps (setSlotState_keeps h)) h
  · exact h

theorem execCredSet_keeps {t : Fc} {r : Ref} {ok : Bool} {cert : Option Cert} {market : Nat} {bytes : List Nat} {s :
    State} (h : Keeps o s) : KeepsOut o (execCredSet t r ok cert market bytes s) :=
  atFabric_keeps (fun _ hu => withDesc_keeps (fun _ _ hu1 => credSet_keeps hu1) hu) h

theorem execPubkeyGet_keeps {t : Fc} {r : Ref} {s : State} (h : Keeps o s) : KeepsOut o (execPubkeyGet t r s) :=
  atFabric_keeps (fun _ hu => withDesc_keeps (fun _ _ hu1 => pubkeyGet_keeps hu1) hu) h

theorem execUpdOpen_keeps {t : Fc} {r : Ref} {header : List Nat} {s : State} (h : Keeps o s) : KeepsOut o (execUpdOpen
    t r header s) :=
  atFabric_keeps (fun _ hu => withDesc_keeps (fun _ _ hu1 => updOpen_keeps hu1) hu) h

theorem execUpdBlock_keeps {t : Fc} {r : Ref} {tagOk : Bool} {fault : Option (Nat × Nat)} {s : State} (h : Keeps o s)
    : KeepsOut o (execUpdBlock t r tagOk fault s) :=
  atFabric_keeps (fun _ hu => onlyIf_keeps (fun _ hu1 => storeNext_keeps (withDesc_keeps (fun _ _ hu2 =>
    updBlock_keeps hu2) hu1)) hu) h

theorem execUpdClose_keeps {t : Fc} {r : Ref} {s : State} (h : Keeps o s) : KeepsOut o (execUpdClose t r s) :=
  atFabric_keeps (fun _ hu => onlyIf_keeps (fun _ hu1 => storeServe_keeps (withDesc_keeps (fun _ _ hu2 =>
    updClose_keeps hu2) hu1)) hu) h

theorem execUpdCloseDone_keeps {t : Fc} {slot : Fin 2} {sigOk keyKnown : Bool} {fault : Option (Nat × Nat)} {s :
    State} (h : Keeps o s) : KeepsOut o (execUpdCloseDone t slot sigOk keyKnown fault s) :=
  atFabric_keeps (fun _ hu => updCloseDone_keeps hu) h

theorem execActivate_keeps {t : Fc} {r : Ref} {s : State} (h : Keeps o s) : KeepsOut o (execActivate t r s) :=
  atFabric_keeps (fun _ hu => withDesc_keeps (fun _ _ hu1 => activate_keeps hu1) hu) h

theorem execActivateCopyDone_keeps {t : Fc} {fault : Option (Bool × Nat × Nat)} {s : State} (h : Keeps o s) : KeepsOut
    o (execActivateCopyDone t fault s) :=
  atFabric_keeps (fun _ hu => copyDone_keeps hu) h

theorem execConfirm_keeps {t : Fc} {r : Ref} {s : State} (h : Keeps o s) : KeepsOut o (execConfirm t r s) :=
  atFabric_keeps (fun _ hu => withDesc_keeps (fun _ _ hu1 => confirmImage_keeps hu1) hu) h

theorem execPpsApply_keeps {t : Fc} {r : Ref} {version : Nat} {s : State} (h : Keeps o s) : KeepsOut o (execPpsApply t
    r version s) :=
  atFabric_keeps (fun _ hu => withDesc_keeps (fun _ _ hu1 => ppsApply_keeps hu1) hu) h

theorem execPpsApplyDone_keeps {t : Fc} {plane : Fin 2} {s : State} (h : Keeps o s) : KeepsOut o (execPpsApplyDone t
    plane s) :=
  atPlane_keeps (fun _ hu => ppsApplyDone_keeps hu) h

theorem execUpdCancel_keeps {t : Fc} {r : Ref} {s : State} (h : Keeps o s) : KeepsOut o (execUpdCancel t r s) :=
  atFabric_keeps (fun _ hu => withDesc_keeps (fun _ _ hu1 => updCancel_keeps hu1) hu) h

/-! ### Vision -/

theorem modVis_keeps {s : State} {f : Vision → Vision} (h : Keeps o s) : Keeps o (modVis s f) := keeps_update h

theorem modCam_keeps {s : State} {p : Nat} {f : Cam → Cam} (h : Keeps o s) : Keeps o (modCam s p f) := modVis_keeps h

theorem ispView_keeps {s : State} (h : Keeps o s) : Keeps o (ispView s) := rsetB_keeps (rset_keeps h)

theorem lineBegin_keeps {s : State} {at_ : Nat} (h : Keeps o s) : Keeps o (lineBegin s at_) := by
  unfold lineBegin
  split
  · exact modVis_keeps h
  · exact h

theorem lineEnd_keeps {s : State} {l : LineSlot} (h : Keeps o s) : Keeps o (lineEnd s l) :=
  keeps_ite (modCam_keeps (modVis_keeps h)) (modVis_keeps (modVis_keeps h))

theorem runLines_keeps {fuel : Nat} {s : State} (h : Keeps o s) : Keeps o (runLines fuel s) := by
  induction fuel generalizing s with
  | zero => exact h
  | succ fuel ih =>
    unfold runLines
    split
    · exact keeps_ite (ih (lineBegin_keeps (lineEnd_keeps h))) h
    · exact h

theorem ispNow_keeps {s : State} (h : Keeps o s) : Keeps o (ispNow s) := runLines_keeps h

theorem camEnable_keeps {s : State} {p : Nat} (h : Keeps o s) : Keeps o (camEnable s p) :=
  keeps_ite h (keeps_ite (rset_keeps h) (rset_keeps (modCam_keeps (rset_keeps h))))

theorem closeFrame_keeps {s : State} {p : Nat} {mark : CamFrame → CamFrame} (h : Keeps o s) : Keeps o (closeFrame s p
    mark) := by
  unfold closeFrame
  dsimp only
  split
  · exact h
  · exact modCam_keeps h

theorem takeSlot_keeps {s : State} {p : Nat} {f : CamFrame} (h : Keeps o s) : Keeps o (takeSlot s p f) := by
  unfold takeSlot
  dsimp only
  split
  · exact modCam_keeps h
  · split
    · exact modCam_keeps (rinc_keeps (modCam_keeps h))
    · exact rinc_keeps (modCam_keeps h)

theorem paramsStart_keeps {s : State} {p n : Nat} (h : Keeps o s) : Keeps o (paramsStart s p n) := by
  unfold paramsStart
  dsimp only
  split
  · exact h
  · exact foldl_keeps (fun _ _ hu => complete_keeps hu) (modCam_keeps h)

theorem camJob_keeps {s : State} {r : Ref} {d : Desc} {f : Nat → State → State} (hf : ∀ x u, Keeps o u → Keeps o (f x
    u)) (h : Keeps o s) : Keeps o (camJob s r d f) :=
  keeps_ite (complete_keeps h) (keeps_ite (complete_keeps h) (hf _ _ h))

theorem ispParams_keeps {s : State} {r : Ref} {d : Desc} {img : List Nat} (h : Keeps o s) : Keeps o (ispParams s r d
    img) := by
  unfold ispParams
  refine camJob_keeps ?_ h
  intro _ _ hu
  dsimp only
  refine keeps_ite ?_ ?_
  · exact complete_keeps hu
  · split
    · exact complete_keeps (modCam_keeps hu)
    · exact keeps_ite (complete_keeps hu) (modCam_keeps hu)

theorem capture_keeps {s : State} {r : Ref} {d : Desc} (h : Keeps o s) : Keeps o (capture s r d) :=
  camJob_keeps (fun _ _ hu => keeps_ite (complete_keeps hu) (keeps_ite (complete_keeps hu) (modCam_keeps hu))) h

theorem sensorWrite_keeps {s : State} {r : Ref} {d : Desc} (h : Keeps o s) : Keeps o (sensorWrite s r d) :=
  camJob_keeps (fun _ _ hu => keeps_ite (complete_keeps hu) (modCam_keeps hu)) h

theorem writesDue_keeps {s : State} {p n : Nat} (h : Keeps o s) : Keeps o (writesDue s p n) := modCam_keeps h

theorem burstDone_keeps {s : State} {p acked : Nat} (h : Keeps o s) : Keeps o (burstDone s p acked) := by
  unfold burstDone
  split
  · exact h
  · exact keeps_ite (complete_keeps (modCam_keeps h)) (complete_keeps (modCam_keeps h))

theorem camFs_keeps {s : State} {p csi hdr : Nat} (h : Keeps o s) : Keeps o (camFs s p csi hdr) := by
  unfold camFs
  dsimp only
  refine keeps_ite ?_ ?_
  · exact ispView_keeps (takeSlot_keeps (rset_keeps (modCam_keeps (closeFrame_keeps h))))
  · split
    · exact rinc_keeps (modCam_keeps (rset_keeps (modCam_keeps (closeFrame_keeps h))))
    · exact ispView_keeps (rset_keeps (modCam_keeps (paramsStart_keeps (rset_keeps (modCam_keeps (closeFrame_keeps
        h))))))

theorem modCur_keeps {s : State} {p : Nat} {f : CamFrame → CamFrame} (h : Keeps o s) : Keeps o (modCur s p f) :=
  modCam_keeps h

theorem camOverflow_keeps {s : State} {p : Nat} (h : Keeps o s) : Keeps o (camOverflow s p) :=
  keeps_ite (raiseEv_keeps (modCam_keeps (rinc_keeps (modCur_keeps h)))) (rinc_keeps (modCur_keeps h))

theorem bufLine_keeps {s : State} {p k row : Nat} {bs : List Byte} (h : Keeps o s) : Keeps o (bufLine s p k row bs) :=
  modCam_keeps h

theorem takeLine_keeps {s : State} {p : Nat} {crcOk : Bool} {px : List Nat} (h : Keeps o s) : Keeps o (takeLine s p
    crcOk px) := by
  unfold takeLine
  split
  · exact h
  · dsimp only
    refine keeps_ite ?_ ?_
    · exact modCur_keeps h
    · refine keeps_ite ?_ ?_
      · exact modCur_keeps h
      · refine keeps_ite ?_ ?_
        · refine modCur_keeps ?_
          refine camOverflow_keeps ?_
          split
          · exact bufLine_keeps h
          · exact h
        · split
          · exact bufLine_keeps (modCur_keeps h)
          · exact modCur_keeps h

theorem camPacket_keeps {s : State} {p hdr : Nat} {accepted own : Bool} {f : State → State} (hf : ∀ u, Keeps o u →
    Keeps o (f u)) (h : Keeps o s) : Keeps o (camPacket s p hdr accepted own f) :=
  keeps_ite h (keeps_ite (rinc_keeps (keeps_ite h (modCur_keeps h))) (keeps_ite (rinc_keeps (keeps_ite h (modCur_keeps
    h))) (hf _ (keeps_ite h (modCur_keeps h)))))

theorem camFe_keeps {s : State} {p : Nat} (h : Keeps o s) : Keeps o (camFe s p) := by
  unfold camFe
  split
  · exact h
  · exact ispView_keeps (writesDue_keeps (closeFrame_keeps h))

theorem camLinkLost_keeps {s : State} {p : Nat} (h : Keeps o s) : Keeps o (camLinkLost s p) :=
  keeps_ite h (ispView_keeps (raiseEv_keeps (rset_keeps (rset_keeps (closeFrame_keeps h)))))

theorem camLinkUp_keeps {s : State} {p gear : Nat} (h : Keeps o s) : Keeps o (camLinkUp s p gear) :=
  rset_keeps (rset_keeps h)

theorem camFull_keeps {s : State} {p : Nat} (h : Keeps o s) : Keeps o (camFull s p) := by
  unfold camFull
  split
  · exact h
  · exact keeps_ite h (camOverflow_keeps h)

theorem camPower_keeps {s : State} {p : Nat} {on : Bool} (h : Keeps o s) : Keeps o (camPower s p on) :=
  keeps_ite (raiseEv_keeps (rsetB_keeps h)) (rsetB_keeps h)

theorem fsync_keeps {s : State} {p : Nat} (h : Keeps o s) : Keeps o (fsync s p) := keeps_ite (modCam_keeps h) h

theorem feNow_keeps {s : State} (h : Keeps o s) : Keeps o (feNow s) := by
  unfold feNow
  refine foldl_keeps ?_ h
  intro _ _ hu
  split
  · exact keeps_ite (camPacket_keeps (fun _ hu1 => camFe_keeps hu1) hu) hu
  · exact hu

theorem ispStart_keeps {s0 : State} (h : Keeps o s0) : Keeps o (ispStart s0) := by
  unfold ispStart
  dsimp only
  refine keeps_ite ?_ ?_
  · exact h
  · split
    · exact h
    · split
      · exact h
      · exact ispView_keeps (rset_keeps (modVis_keeps (modCam_keeps (paramsStart_keeps (feNow_keeps h)))))

theorem writeRaw_keeps {s : State} {addr stride : Nat} {f : CamFrame} (h : Keeps o s) : Keeps o (writeRaw s addr
    stride f) :=
  foldl_keeps (fun _ _ hu => hostWrite_keeps hu) h

theorem writeRows_keeps {s : State} {addr st : Nat} {planes : List (Nat × Nat × Nat × Nat)} {lines : List (List Nat)}
    {out : List (Nat × Nat × List Nat)} (h : Keeps o s) : Keeps o (writeRows s addr st planes lines out) := by
  unfold writeRows
  refine foldl_keeps (fun _ _ hu => ?_) h
  split
  split
  · split
    · exact keeps_ite (hostWrite_keeps hu) hu
    · exact hu
  · exact hu

theorem finishFrame_keeps {s : State} {p : Nat} {f : CamFrame} {ecc : Bool} {out : List (Nat × Nat × List Nat)} {ir :
    List (Nat × List Nat)} {stats : IspStats} (h : Keeps o s) : Keeps o (finishFrame s p f ecc out ir stats) := by
  unfold finishFrame
  split
  · exact h
  · refine keeps_ite ?_ ?_
    · exact complete_keeps h
    · split
      · exact h
      · exact complete_keeps (keeps_ite (keeps_ite (writeRaw_keeps h) (writeRows_keeps h)) (hostWrite_keeps (keeps_ite
          (writeRaw_keeps h) (writeRows_keeps h))))

theorem ispDone_keeps {s : State} {p : Nat} {ecc : Bool} {out : List (Nat × Nat × List Nat)} {ir : List (Nat × List
    Nat)} {stats : IspStats} (h : Keeps o s) : Keeps o (ispDone s p ecc out ir stats) := by
  unfold ispDone
  refine keeps_ite ?_ ?_
  · split
    · exact h
    · exact keeps_ite (ispView_keeps (finishFrame_keeps (modCam_keeps h))) h
  · split
    · exact keeps_ite (ispView_keeps (finishFrame_keeps (modVis_keeps h))) h
    · exact h

theorem stopCamJob_keeps {s0 : State} {p : Nat} {r : Ref} (h : Keeps o s0) : Keeps o (stopCamJob s0 p r) := by
  unfold stopCamJob
  dsimp only
  refine ispView_keeps ?_
  refine lineBegin_keeps ?_
  split
  · exact keeps_ite (modVis_keeps (modCam_keeps (ispNow_keeps h))) (modCam_keeps (ispNow_keeps h))
  · exact modCam_keeps (ispNow_keeps h)

theorem abortCamJob_keeps {s : State} {p : Nat} {r : Ref} (h : Keeps o s) : Keeps o (abortCamJob s p r) :=
  abortReq_keeps (fun _ hu => complete_keeps (stopCamJob_keeps hu)) h

theorem markUnfetched_keeps {s : State} {p : Nat} (h : Keeps o s) : Keeps o (markUnfetched s p) := modVis_keeps h

theorem camDisable_keeps {s : State} {p : Nat} (h : Keeps o s) : Keeps o (camDisable s p) := by
  unfold camDisable
  refine keeps_ite ?_ ?_
  · exact h
  · dsimp only
    refine ispView_keeps ?_
    split
    · exact keeps_ite (modVis_keeps (modCam_keeps (foldl_keeps (fun _ _ hu => abortCamJob_keeps hu)
        (markUnfetched_keeps (rset_keeps h))))) (modCam_keeps (foldl_keeps (fun _ _ hu => abortCamJob_keeps hu)
        (markUnfetched_keeps (rset_keeps h))))
    · exact modCam_keeps (foldl_keeps (fun _ _ hu => abortCamJob_keeps hu) (markUnfetched_keeps (rset_keeps h)))

theorem vxaView_keeps {s : State} (h : Keeps o s) : Keeps o (vxaView s) := rsetB_keeps (rsetB_keeps h)

theorem vxaStart_keeps {s : State} (h : Keeps o s) : Keeps o (vxaStart s) := by
  unfold vxaStart
  refine keeps_ite ?_ ?_
  · exact vxaView_keeps h
  · split
    · exact vxaView_keeps h
    · exact vxaView_keeps (rset64_keeps (modVis_keeps h))

theorem vxaRun_keeps {s : State} {r : Ref} {d : Desc} {h' : List Nat} (h : Keeps o s) : Keeps o (vxaRun s r d h') :=
  keeps_ite (complete_keeps h) (keeps_ite (complete_keeps h) (keeps_ite (complete_keeps h) (vxaStart_keeps
    (modVis_keeps h))))

theorem vxaDone_keeps {s : State} {ecc : Bool} {out : List Nat} (h : Keeps o s) : Keeps o (vxaDone s ecc out) := by
  unfold vxaDone
  split
  · exact h
  · exact keeps_ite (vxaStart_keeps (raiseEv_keeps (complete_keeps (rset64_keeps (rinc_keeps (modVis_keeps
      (modVis_keeps h))))))) (vxaStart_keeps (complete_keeps (rinc_keeps (hostWrite_keeps (modVis_keeps h)))))

theorem stopVxaJob_keeps {s : State} {r : Ref} (h : Keeps o s) : Keeps o (stopVxaJob s r) := by
  unfold stopVxaJob
  dsimp only
  split
  · exact vxaStart_keeps (keeps_ite (modVis_keeps (modVis_keeps h)) (modVis_keeps h))
  · exact vxaView_keeps (modVis_keeps h)

theorem atVision_keeps {t : Fc} {f : State → State} {s : State} (hf : ∀ u, Keeps o u → Keeps o (f u)) (h : Keeps o s)
    : KeepsOut o (atVision t f s) :=
  atFabric_keeps (fun _ hu => lineBegin_keeps (hf _ (ispNow_keeps hu))) h

theorem execCamEnable_keeps {t : Fc} {port : Fin 4} {s : State} (h : Keeps o s) : KeepsOut o (execCamEnable t port s)
    :=
  atFabric_keeps (fun _ hu => camEnable_keeps hu) h

theorem execCamDisable_keeps {t : Fc} {port : Fin 4} {s : State} (h : Keeps o s) : KeepsOut o (execCamDisable t port
    s) :=
  atVision_keeps (fun _ hu => camDisable_keeps hu) h

theorem execCamFs_keeps {t : Fc} {port : Fin 4} {p : CamStart} {s : State} (h : Keeps o s) : KeepsOut o (execCamFs t
    port p s) :=
  atVision_keeps (fun _ hu => camPacket_keeps (fun _ hu1 => camFs_keeps hu1) hu) h

theorem execCamLine_keeps {t : Fc} {port : Fin 4} {vc : Fin 16} {dt : Fin 64} {hdr : Fin 3} {crcOk : Bool} {px : List
    Nat} {s : State} (h : Keeps o s) : KeepsOut o (execCamLine t port vc dt hdr crcOk px s) :=
  atVision_keeps (fun _ hu => camPacket_keeps (fun _ hu1 => takeLine_keeps hu1) hu) h

theorem execCamFe_keeps {t : Fc} {p : CamEnd} {s : State} (h : Keeps o s) : KeepsOut o (execCamFe t p s) :=
  atVision_keeps (fun _ hu => camPacket_keeps (fun _ hu1 => camFe_keeps hu1) hu) h

theorem execCamLinkLost_keeps {t : Fc} {port : Fin 4} {s : State} (h : Keeps o s) : KeepsOut o (execCamLinkLost t port
    s) :=
  atVision_keeps (fun _ hu => camLinkLost_keeps hu) h

theorem execCamBufferFull_keeps {t : Fc} {port : Fin 4} {s : State} (h : Keeps o s) : KeepsOut o (execCamBufferFull t
    port s) :=
  atVision_keeps (fun _ hu => camFull_keeps hu) h

theorem execCamPowerFault_keeps {t : Fc} {port : Fin 4} {on : Bool} {s : State} (h : Keeps o s) : KeepsOut o
    (execCamPowerFault t port on s) :=
  atFabric_keeps (fun _ hu => camPower_keeps hu) h

theorem execFsyncTrigger_keeps {t : Fc} {port : Fin 4} {s : State} (h : Keeps o s) : KeepsOut o (execFsyncTrigger t
    port s) :=
  atFabric_keeps (fun _ hu => fsync_keeps hu) h

theorem execIspFrameStart_keeps {t : Fc} {s : State} (h : Keeps o s) : KeepsOut o (execIspFrameStart t s) :=
  atVision_keeps (fun _ hu => ispStart_keeps hu) h

theorem execIspFrameDone_keeps {t : Fc} {port : Fin 4} {ecc : Bool} {out : List (Nat × Nat × List Nat)} {zones hist :
    List Nat} {ir : List (Nat × List Nat)} {s : State} (h : Keeps o s) : KeepsOut o (execIspFrameDone t port ecc out
    zones hist ir s) :=
  atVision_keeps (fun _ hu => ispDone_keeps hu) h

theorem execCapture_keeps {t : Fc} {r : Ref} {s : State} (h : Keeps o s) : KeepsOut o (execCapture t r s) :=
  atFabric_keeps (fun _ hu => onlyIf_keeps (fun _ hu1 => withDesc_keeps (fun _ _ hu2 => capture_keeps hu2) hu1) hu) h

theorem execSensorWrite_keeps {t : Fc} {r : Ref} {s : State} (h : Keeps o s) : KeepsOut o (execSensorWrite t r s) :=
  atFabric_keeps (fun _ hu => withDesc_keeps (fun _ _ hu1 => sensorWrite_keeps hu1) hu) h

theorem execSensorBurstDone_keeps {t : Fc} {port : Fin 4} {acked : Nat} {s : State} (h : Keeps o s) : KeepsOut o
    (execSensorBurstDone t port acked s) :=
  atFabric_keeps (fun _ hu => burstDone_keeps hu) h

theorem execIspParams_keeps {t : Fc} {r : Ref} {img : List Nat} {s : State} (h : Keeps o s) : KeepsOut o
    (execIspParams t r img s) :=
  atFabric_keeps (fun _ hu => withDesc_keeps (fun _ _ hu1 => ispParams_keeps hu1) hu) h

theorem execVxaRun_keeps {t : Fc} {r : Ref} {header body : List Nat} {s : State} (h : Keeps o s) : KeepsOut o
    (execVxaRun t r header body s) :=
  atFabric_keeps (fun _ hu => withDesc_keeps (fun _ _ hu1 => vxaRun_keeps hu1) hu) h

theorem execVxaJobDone_keeps {t : Fc} {ecc : Bool} {out : List Nat} {s : State} (h : Keeps o s) : KeepsOut o
    (execVxaJobDone t ecc out s) :=
  atFabric_keeps (fun _ hu => vxaDone_keeps hu) h

theorem execCamLinkUp_keeps {t : Fc} {port gear : Fin 4} {s : State} (h : Keeps o s) : KeepsOut o (execCamLinkUp t
    port gear s) :=
  atFabric_keeps (fun _ hu => camLinkUp_keeps hu) h

/-! ### Aborts -/

theorem stopLoad_keeps {s : State} {r : Ref} (h : Keeps o s) : Keeps o (stopLoad s r) := by
  unfold stopLoad
  dsimp only
  split
  · refine keeps_ite ?_ ?_
    · refine rset_keeps ?_
      refine keeps_update ?_
      split
      · exact keeps_ite (rset_keeps (keeps_update (keeps_update h))) (keeps_update h)
      · exact keeps_update h
    · split
      · exact keeps_ite (rset_keeps (keeps_update (keeps_update h))) (keeps_update h)
      · exact keeps_update h
  · split
    · exact keeps_ite (rset_keeps (keeps_update (keeps_update h))) (keeps_update h)
    · exact keeps_update h

theorem freeProf_keeps {s : State} {ch : Nat} (h : Keeps o s) : Keeps o (freeProf s ch) := modDrv_keeps h

theorem modPassed_keeps {s : State} {f : List Passed → List Passed} (h : Keeps o s) : Keeps o (modPassed s f) :=
  keeps_update h

theorem stopOut_keeps {s : State} {r : Ref} (h : Keeps o s) : Keeps o (stopOut s r) := by
  unfold stopOut
  dsimp only
  split
  · exact abortProf_keeps (modPassed_keeps h)
  · exact modPassed_keeps h

theorem stopFleet_keeps {s : State} {r : Ref} (h : Keeps o s) : Keeps o (stopFleet s r) := keeps_update h

theorem stopGeneral_keeps {s : State} {r : Ref} (h : Keeps o s) : Keeps o (stopGeneral s r) :=
  keeps_update (keeps_ite (rset_keeps (stopEthTx_keeps h)) (stopEthTx_keeps h))

theorem stopJournal_keeps {s : State} {r : Ref} (h : Keeps o s) : Keeps o (stopJournal s r) := keeps_update h

theorem stopWork_keeps {s : State} {r : Ref} {d : Desc} (h : Keeps o s) : Keeps o (stopWork s r d) := by
  unfold stopWork
  split
  · exact stopLoad_keeps h
  · exact stopOut_keeps h
  · exact stopOut_keeps h
  · exact stopCamJob_keeps h
  · exact stopVxaJob_keeps h
  · exact stopFleet_keeps h
  · exact stopPanelJob_keeps h
  · exact stopUpdate_keeps h
  · exact stopJournal_keeps h
  · exact stopGeneral_keeps h

theorem stopAborted_keeps {s : State} {r : Ref} {d : Desc} (h : Keeps o s) : Keeps o (stopAborted s r d) :=
  keeps_ite (stopSend_keeps h) (keeps_ite h (keeps_ite (completeRow_keeps (stopWork_keeps h)) (complete_keeps
    (stopWork_keeps h))))

theorem abortDescAt_keeps {s : State} {r : Ref} {a : Nat} (h : Keeps o s) : Keeps o (abortDescAt s r a) := by
  unfold abortDescAt
  refine abortReqAt_keeps ?_ h
  intro _ hu
  split
  · exact stopAborted_keeps hu
  · exact hu

theorem abortDesc_keeps {s : State} {r : Ref} (h : Keeps o s) : Keeps o (abortDesc s r) := abortDescAt_keeps h

theorem abortNoop_keeps {s : State} {n idx a : Nat} (h : Keeps o s) : Keeps o (abortNoop s n idx a) :=
  rinc_keeps (keeps_update h)

theorem abortDoorbell_keeps {s0 : State} {n idx : Nat} {host : Bool} (h : Keeps o s0) : Keeps o (abortDoorbell s0 n
    idx host) := by
  unfold abortDoorbell
  refine keeps_ite ?_ ?_
  · exact rinc_keeps h
  · dsimp only
    refine keeps_ite ?_ ?_
    · exact rinc_keeps (keeps_update h)
    · split
      · exact abortDescAt_keeps (keeps_update h)
      · exact abortNoop_keeps (keeps_update h)

theorem takeBack_keeps {s : State} {x : Noop} (h : Keeps o s) : Keeps o (takeBack s x) := by
  unfold takeBack
  dsimp only
  refine keeps_ite ?_ ?_
  · exact keeps_update h
  · split
    · exact keeps_update h
    · exact rset_keeps (keeps_update h)

theorem tailFirst_keeps {s : State} {n idx ph : Nat} {host : Bool} (h : Keeps o s) : Keeps o (tailFirst s n idx ph
    host) := by
  unfold tailFirst
  dsimp only
  refine foldl_keeps ?_ (keeps_ite (rinc_keeps h) (tailDoorbell_keeps h))
  intro _ _ hu
  refine keeps_ite ?_ ?_
  · split
    · exact abortDescAt_keeps (takeBack_keeps hu)
    · exact hu
  · exact hu

theorem ringDisable_keeps {s : State} {n : Nat} (h : Keeps o s) : Keeps o (ringDisable s n) :=
  keeps_ite (foldl_keeps (fun _ _ hu => abortDesc_keeps hu) (rset_keeps h)) h

theorem tillForget_keeps {s : State} {r : Ref} (h : Keeps o s) : Keeps o (tillForget s r) := keeps_update h

theorem abandon_keeps {s : State} {q : Req} (h : Keeps o s) : Keeps o (abandon s q) := by
  unfold abandon
  dsimp only
  refine keeps_update ?_
  refine tillForget_keeps ?_
  refine modUpd_keeps ?_
  split
  · exact h
  · refine keeps_ite ?_ ?_
    · split
      · exact freeProf_keeps (modPassed_keeps h)
      · exact modPassed_keeps h
    · exact keeps_ite (modCan_keeps h) (stopWork_keeps h)

theorem abandonRings_keeps {s : State} {which : Nat → Bool} (h : Keeps o s) : Keeps o (abandonRings s which) :=
  foldl_keeps (fun _ _ hu => keeps_ite (rset_keeps hu) hu) (dropMarks_keeps (foldl_keeps (fun _ _ hu => abandon_keeps
    hu) h))

theorem hostLinkOff_keeps {s : State} {d3 : Bool} (h : Keeps o s) : Keeps o (hostLinkOff s d3) :=
  raiseEv_keeps (keeps_ite (rset_keeps (rinc_keeps (rset_keeps h))) (rinc_keeps (rset_keeps h)))

theorem hostLinkDown_keeps {s : State} {d3 : Bool} (h : Keeps o s) : Keeps o (hostLinkDown s d3) :=
  keeps_ite h (hostLinkOff_keeps (foldl_keeps (fun _ _ hu => keeps_ite (rset_keeps (keeps_update hu)) hu)
    (abandonRings_keeps h)))

theorem aerNote_keeps {s : State} {uncorr corr : Nat} (h : Keeps o s) : Keeps o (aerNote s uncorr corr) :=
  rset_keeps (rset_keeps h)

theorem execRingDisable_keeps {t : Fc} {ring : Fin 256} {s : State} (h : Keeps o s) : KeepsOut o (execRingDisable t
    ring s) :=
  atFabric_keeps (fun _ hu => ringDisable_keeps hu) h

theorem execTailDb_keeps {t : Fc} {ring : Fin 256} {idx : Fin 65536} {ph : Fin 2} {w : DbWrite} {s : State} (h : Keeps
    o s) : KeepsOut o (execTailDb t ring idx ph w s) :=
  atFabric_keeps (fun _ hu => onlyIf_keeps (fun _ hu1 => tailFirst_keeps hu1) hu) h

theorem execAbortDb_keeps {t : Fc} {ring : Fin 256} {idx : Fin 65536} {w : DbWrite} {s : State} (h : Keeps o s) :
    KeepsOut o (execAbortDb t ring idx w s) :=
  atFabric_keeps (fun _ hu => onlyIf_keeps (fun _ hu1 => abortDoorbell_keeps hu1) hu) h

theorem execHostLinkDown_keeps {t : Fc} {x : LinkDown} {s : State} (h : Keeps o s) : KeepsOut o (execHostLinkDown t x
    s) :=
  atFabric_keeps (fun _ hu => hostLinkDown_keeps (aerNote_keeps hu)) h

/-! ### Mapping -/

theorem pushExtract_keeps {s : State} {x : Extract} (h : Keeps o s) : Keeps o (pushExtract s x) :=
  keeps_ite (modSto_keeps h) (keeps_ite (rinc_keeps (modSto_keeps h)) (raiseEv_keeps (rinc_keeps (modSto_keeps h))))

theorem enterHistory_keeps {s : State} {x : Extract} (h : Keeps o s) : Keeps o (enterHistory s x) :=
  keeps_ite (modSto_keeps h) h

theorem mapStrip_keeps {x : Extract} {dt : Int} {width dist mref : Nat} {last : Option Mapped} {ver : Ver} {s : State}
    {st : Strip} (h : Keeps o s) : Keeps o (mapStrip x dt width dist mref last ver s st) := by
  unfold mapStrip
  dsimp only
  split
  · exact rset_keeps h
  · exact keeps_ite (writeCell_keeps (writeCell_keeps h)) (writeCell_keeps h)

theorem extractDone_keeps {s : State} {x : Extract} {mapped : Bool} (h : Keeps o s) : Keeps o (extractDone s x mapped)
    :=
  modSto_keeps h

theorem extractUnmapped_keeps {s : State} {x : Extract} {dt : Option Int} (h : Keeps o s) : Keeps o (extractUnmapped s
    x dt) := by
  unfold extractUnmapped
  dsimp only
  refine extractDone_keeps ?_
  split
  · exact keeps_ite (rinc_keeps h) (rset_keeps (rinc_keeps h))
  · exact rinc_keeps h

theorem extractMap_keeps {s : State} {x : Extract} {dt : Int} {b a : HistPos} {tc : Nat} (h : Keeps o s) : Keeps o
    (extractMap s x dt b a tc) :=
  keeps_ite (needTiles_keeps h) (extractDone_keeps (modSto_keeps (foldl_keeps (fun _ _ hu => mapStrip_keeps hu)
    (keeps_ite (clockLocal_keeps (needTiles_keeps h)) (needTiles_keeps h)))))

theorem mapExtract_keeps {s : State} (h : Keeps o s) : Keeps o (mapExtract s) := by
  unfold mapExtract
  split
  · exact h
  · dsimp only
    split
    · exact extractUnmapped_keeps (enterHistory_keeps h)
    · refine keeps_ite ?_ ?_
      · exact extractUnmapped_keeps (enterHistory_keeps h)
      · split
        · exact keeps_ite (extractMap_keeps (enterHistory_keeps h)) (extractUnmapped_keeps (enterHistory_keeps h))
        · exact extractUnmapped_keeps (enterHistory_keeps h)

theorem execMapExtract_keeps {t : Fc} {s : State} (h : Keeps o s) : KeepsOut o (execMapExtract t s) :=
  atFabric_keeps (fun _ hu => mapExtract_keeps hu) h

/-! ### Xlk -/

theorem becomeCommander_keeps {s : State} {r : Nat} {saved : Bool} (h : Keeps o s) : Keeps o (becomeCommander s r
    saved) :=
  keeps_ite (keeps_update (rset_keeps (rset_keeps h))) (raiseEv_keeps (rset_keeps (rset_keeps h)))

theorem enterResync_keeps {s : State} (h : Keeps o s) : Keeps o (enterResync s) :=
  resyncSend_keeps (keeps_update (rset_keeps (rset_keeps h)))

theorem announce_keeps {s : State} (h : Keeps o s) : Keeps o (announce s) := xlkSend_keeps h

theorem listenExpiry_keeps {s : State} {saved : Bool} (h : Keeps o s) : Keeps o (listenExpiry s saved) := by
  unfold listenExpiry
  refine keeps_ite ?_ ?_
  · exact h
  · split
    · exact keeps_ite (enterResync_keeps h) (keeps_ite (keeps_ite (announce_keeps (becomeCommander_keeps h))
        (enterResync_keeps h)) h)
    · exact keeps_ite (rset_keeps (announce_keeps (becomeCommander_keeps h))) h

theorem commitTickWorld_keeps {s : State} (h : Keeps o s) : Keeps o (commitTickWorld s) := by
  unfold commitTickWorld
  dsimp only
  refine keeps_ite ?_ ?_
  · refine keeps_update ?_
    split
    · refine commitLoops_keeps ?_
      split
      · exact commitSolve_keeps (keeps_update h)
      · exact keeps_update h
    · split
      · exact commitSolve_keeps (keeps_update h)
      · exact keeps_update h
  · split
    · refine commitLoops_keeps ?_
      split
      · exact commitSolve_keeps (keeps_update h)
      · exact keeps_update h
    · split
      · exact commitSolve_keeps (keeps_update h)
      · exact keeps_update h

theorem hbSend_keeps {s : State} {digest : Nat} (h : Keeps o s) : Keeps o (hbSend s digest) :=
  keeps_ite h (xlkSend_keeps h)

theorem hbRx_keeps {s : State} {h' : Heartbeat} (h : Keeps o s) : Keeps o (hbRx s h') :=
  keeps_ite h (keeps_ite (keeps_ite (keeps_update h) (rset_keeps (rset_keeps (keeps_update h)))) (foldl_keeps (fun _ _
    hu => complete_keeps hu) (keeps_update (keeps_ite (keeps_update h) (rset_keeps (rset_keeps (keeps_update h)))))))

theorem applyItem_keeps {s : State} {a : ResyncItem} (h : Keeps o s) : Keeps o (applyItem s a) := by
  unfold applyItem
  split
  · exact keeps_ite (keeps_update h) (keeps_update h)
  · exact rset64_keeps (rset_keeps (rset_keeps (keeps_update h)))
  · exact pendTable_keeps (keeps_update (supersedeTable_keeps h))
  · exact rset64_keeps h
  · exact keeps_update h
  · exact keeps_update h
  · exact keeps_update h
  · exact keeps_update h
  · exact rset_keeps (rset_keeps h)
  · exact keeps_update h
  · exact rset_keeps h
  · exact h
  · exact h
  · exact h

theorem applyInbox_keeps {s : State} {row : Nat} (h : Keeps o s) : Keeps o (applyInbox s row) :=
  foldl_keeps (fun _ _ hu => applyItem_keeps hu) (keeps_update h)

theorem takeInbox_keeps {s : State} (h : Keeps o s) : Keeps o (takeInbox s) :=
  foldl_keeps (fun _ _ hu => applyItem_keeps hu) (keeps_update (keeps_ite (keeps_update (applyInbox_keeps h))
    (applyInbox_keeps h)))

theorem takeover_keeps {s : State} {saved : Bool} (h : Keeps o s) : Keeps o (takeover s saved) :=
  raiseEv_keeps (ppsFrame_keeps (ppsFrame_keeps (announce_keeps (keeps_update (rinc_keeps (becomeCommander_keeps
    (takeInbox_keeps h)))))))

theorem pairEdge_keeps {s : State} {saved : Bool} (h : Keeps o s) : Keeps o (pairEdge s saved) :=
  keeps_ite h (keeps_update (keeps_ite (takeover_keeps (keeps_ite (raiseEv_keeps (rset_keeps (keeps_ite (keeps_ite
    (foldl_keeps (fun _ _ hu => complete_keeps hu) (enterResync_keeps (keeps_update h))) h) (rinc_keeps (keeps_ite
    (foldl_keeps (fun _ _ hu => complete_keeps hu) (enterResync_keeps (keeps_update h))) h))))) (keeps_ite (keeps_ite
    (foldl_keeps (fun _ _ hu => complete_keeps hu) (enterResync_keeps (keeps_update h))) h) (rinc_keeps (keeps_ite
    (foldl_keeps (fun _ _ hu => complete_keeps hu) (enterResync_keeps (keeps_update h))) h))))) (keeps_ite
    (takeInbox_keeps (keeps_ite (raiseEv_keeps (rset_keeps (keeps_ite (keeps_ite (foldl_keeps (fun _ _ hu =>
    complete_keeps hu) (enterResync_keeps (keeps_update h))) h) (rinc_keeps (keeps_ite (foldl_keeps (fun _ _ hu =>
    complete_keeps hu) (enterResync_keeps (keeps_update h))) h))))) (keeps_ite (keeps_ite (foldl_keeps (fun _ _ hu =>
    complete_keeps hu) (enterResync_keeps (keeps_update h))) h) (rinc_keeps (keeps_ite (foldl_keeps (fun _ _ hu =>
    complete_keeps hu) (enterResync_keeps (keeps_update h))) h))))) (keeps_ite (raiseEv_keeps (rset_keeps (keeps_ite
    (keeps_ite (foldl_keeps (fun _ _ hu => complete_keeps hu) (enterResync_keeps (keeps_update h))) h) (rinc_keeps
    (keeps_ite (foldl_keeps (fun _ _ hu => complete_keeps hu) (enterResync_keeps (keeps_update h))) h))))) (keeps_ite
    (keeps_ite (foldl_keeps (fun _ _ hu => complete_keeps hu) (enterResync_keeps (keeps_update h))) h) (rinc_keeps
    (keeps_ite (foldl_keeps (fun _ _ hu => complete_keeps hu) (enterResync_keeps (keeps_update h))) h)))))))

theorem fencedOut_keeps {s : State} (h : Keeps o s) : Keeps o (fencedOut s) :=
  keeps_ite (raiseEv_keeps (rinc_keeps (keeps_update h))) h

theorem mirrorStitch_keeps {st : Stitch} {s : State} (h : Keeps o s) : Keeps o (mirrorStitch st s) :=
  keeps_ite h (foldl_keeps (fun _ _ hu => xlkSend_keeps (keeps_update hu)) h)

theorem mirrorRx_keeps {s : State} {row off : Nat} {entries : List Nat} (h : Keeps o s) : Keeps o (mirrorRx s row off
    entries) :=
  keeps_ite h (keeps_update h)

theorem runByType_keeps {s : State} {st : Stitch} (h : Keeps o s) : Keeps o (runByType s st) := by
  unfold runByType
  split
  · exact gatherGroup_keeps h
  · exact estimate_keeps h
  · exact regionSelect_keeps h
  · exact solve_keeps h
  · exact loops_keeps h
  · exact stageDrive_keeps h
  · exact stageSwitch_keeps h
  · exact compute_keeps h
  · exact h

theorem shadowRun_keeps {s : State} {h' : Heartbeat} (h : Keeps o s) : Keeps o (shadowRun s h').1 := by
  unfold shadowRun
  split
  · exact h
  · exact keeps_update (commitTickWorld_keeps (foldl_keeps (fun _ _ hu => runByType_keeps hu) (keeps_update h)))

theorem shadowEpoch_keeps {s : State} {epoch : Nat} (h : Keeps o s) : Keeps o (shadowEpoch s epoch) :=
  keeps_ite (flipTable_keeps (keeps_update h)) h

theorem shadowMiss_keeps {s : State} (h : Keeps o s) : Keeps o (shadowMiss s) :=
  raiseEv_keeps (keeps_update (rinc_keeps (rset_keeps h)))

theorem shadowCompare_keeps {s : State} {mine theirs : Nat} (h : Keeps o s) : Keeps o (shadowCompare s mine theirs) :=
  keeps_ite (keeps_ite (raiseEv_keeps (rset_keeps (rinc_keeps h))) (rinc_keeps h)) (keeps_ite (enterResync_keeps
    (shadowMiss_keeps h)) (shadowMiss_keeps h))

theorem shadowRow_keeps {s : State} (h : Keeps o s) : Keeps o (shadowRow s) := by
  unfold shadowRow
  split
  · exact h
  · exact keeps_ite h (keeps_ite (keeps_ite (keeps_update h) (shadowMiss_keeps (keeps_update h))) (keeps_ite h
      (keeps_ite (keeps_update (shadowEpoch_keeps (applyInbox_keeps (keeps_update h)))) (shadowCompare_keeps
      (keeps_update (shadowRun_keeps (shadowEpoch_keeps (applyInbox_keeps (keeps_update h)))))))))

theorem releaseForward_keeps {s : State} {confirmed : Bool} (h : Keeps o s) : Keeps o (releaseForward s confirmed) :=
    by
  unfold releaseForward
  split
  · exact h
  · dsimp only
    refine keeps_ite ?_ ?_
    · refine resyncSend_keeps ?_
      split
      · exact pendPattern_keeps (keeps_update h)
      · exact pendTable_keeps (keeps_update h)
    · split
      · exact pendPattern_keeps (keeps_update h)
      · exact pendTable_keeps (keeps_update h)

theorem forwardTimeout_keeps {s : State} (h : Keeps o s) : Keeps o (forwardTimeout s) := by
  unfold forwardTimeout
  split
  · exact keeps_ite (releaseForward_keeps h) h
  · exact h

theorem resyncRx_keeps {s : State} {row : Nat} {item : ResyncItem} (h : Keeps o s) : Keeps o (resyncRx s row item) :=
    by
  unfold resyncRx
  split
  · exact keeps_ite (releaseForward_keeps h) h
  · exact keeps_update h
  · exact keeps_ite (foldl_keeps (fun _ _ hu => resyncSend_keeps hu) h) h
  · refine keeps_ite ?_ ?_
    · exact h
    · refine keeps_ite ?_ ?_
      · exact applyItem_keeps h
      · dsimp only
        split
        · exact resyncSend_keeps (keeps_update h)
        · exact resyncSend_keeps (keeps_update h)
        · exact keeps_update h

theorem pairHandover_keeps {s : State} {r : Ref} (h : Keeps o s) : Keeps o (pairHandover s r) := by
  unfold pairHandover
  refine keeps_ite ?_ ?_
  · exact complete_keeps h
  · split
    · exact keeps_ite (complete_keeps h) (keeps_ite (complete_keeps h) (keeps_update h))
    · exact complete_keeps h

theorem handoverTimeout_keeps {s : State} (h : Keeps o s) : Keeps o (handoverTimeout s) :=
  keeps_ite h (foldl_keeps (fun _ _ hu => complete_keeps hu) (keeps_update h))

theorem healthRx_keeps {s : State} {w : List Nat} (h : Keeps o s) : Keeps o (healthRx s w) :=
  telemetryPut_keeps (foldl_keeps (fun _ _ hu => rset_keeps hu) h)

theorem healthTx_keeps {s : State} {meas : List Nat} (h : Keeps o s) : Keeps o (healthTx s meas) :=
  keeps_ite (keeps_update (xlkSend_keeps h)) h

theorem ofPair_keeps {pair : Nat} {f : State → State} {s : State} (hf : ∀ u, Keeps o u → Keeps o (f u)) (h : Keeps o
    s) : Keeps o (ofPair pair f s) :=
  keeps_ite (hf _ h) (rinc_keeps h)

theorem ofPlanePair_keeps {pair p : Nat} {f : State → State} {s : State} (hf : ∀ u, Keeps o u → Keeps o (f u)) (h :
    Keeps o s) : Keeps o (ofPlanePair pair p f s) :=
  keeps_ite (hf _ h) (keeps_ite (rinc_keeps h) h)

theorem execHeartbeatRx_keeps {x : XHead} {h' : Heartbeat} {s : State} (h : Keeps o s) : KeepsOut o (execHeartbeatRx x
    h' s) :=
  atFabric_keeps (fun _ hu => ofPair_keeps (fun _ hu1 => hbRx_keeps hu1) hu) h

theorem execMirrorRx_keeps {x : XHead} {row off : Nat} {entries : List Nat} {s : State} (h : Keeps o s) : KeepsOut o
    (execMirrorRx x row off entries s) :=
  atFabric_keeps (fun _ hu => ofPair_keeps (fun _ hu1 => mirrorRx_keeps hu1) hu) h

theorem execCommitRx_keeps {x : XHead} {plane : Fin 2} {keep : Bool} {bid row periodUs : Nat} {cmds : List SentCmd} {s
    : State} (h : Keeps o s) : KeepsOut o (execCommitRx x plane keep bid row periodUs cmds s) :=
  atPlane_keeps (fun _ hu => ofPlanePair_keeps (fun _ hu1 => ppsFrame_keeps hu1) hu) h

theorem execTakeoverRx_keeps {x : XHead} {plane : Fin 2} {bid : Nat} {s : State} (h : Keeps o s) : KeepsOut o
    (execTakeoverRx x plane bid s) :=
  atPlane_keeps (fun _ hu => ofPlanePair_keeps (fun _ hu1 => ppsFrame_keeps hu1) hu) h

theorem execFenceAckRx_keeps {x : XHead} {bid : Nat} {s : State} (h : Keeps o s) : KeepsOut o (execFenceAckRx x bid s)
    :=
  atFabric_keeps (fun _ hu => ofPair_keeps (fun _ hu1 => keeps_ite (fencedOut_keeps hu1) hu1) hu) h

theorem execHealthRx_keeps {x : XHead} {words : List Nat} {s : State} (h : Keeps o s) : KeepsOut o (execHealthRx x
    words s) :=
  atFabric_keeps (fun _ hu => ofPair_keeps (fun _ hu1 => healthRx_keeps hu1) hu) h

theorem execResyncRx_keeps {x : XHead} {row : Nat} {item : ResyncItem} {s : State} (h : Keeps o s) : KeepsOut o
    (execResyncRx x row item s) :=
  atFabric_keeps (fun _ hu => ofPair_keeps (fun _ hu1 => afterEdge_keeps (fun _ hu2 => resyncRx_keeps hu2) hu1) hu) h

theorem execServiceRx_keeps {x : XHead} {words : List Nat} {s : State} (h : Keeps o s) : KeepsOut o (execServiceRx x
    words s) :=
  atFabric_keeps (fun _ hu => ofPair_keeps (fun _ hu1 => keeps_update hu1) hu) h

theorem execXlkBadFrame_keeps {f : RawFrame} {s : State} (h : Keeps o s) : KeepsOut o (execXlkBadFrame f s) :=
  atFabric_keeps (fun _ hu => keeps_ite (rinc_keeps hu) hu) h

theorem execXlkLinkUp_keeps {t : Fc} {delayNs : Nat} {s : State} (h : Keeps o s) : KeepsOut o (execXlkLinkUp t delayNs
    s) :=
  atFabric_keeps (fun _ hu => rset_keeps (keeps_update hu)) h

theorem execHealthTx_keeps {t : Fc} {meas : List Nat} {s : State} (h : Keeps o s) : KeepsOut o (execHealthTx t meas s)
    :=
  atFabric_keeps (fun _ hu => healthTx_keeps hu) h

theorem execStartingListenExpiry_keeps {t : Fc} {saved : Bool} {s : State} (h : Keeps o s) : KeepsOut o
    (execStartingListenExpiry t saved s) :=
  atFabric_keeps (fun _ hu => listenExpiry_keeps hu) h

theorem execShadowRow_keeps {t : Fc} {s : State} (h : Keeps o s) : KeepsOut o (execShadowRow t s) :=
  atFabric_keeps (fun _ hu => shadowRow_keeps hu) h

theorem execForwardConfirmTimeout_keeps {t : Fc} {s : State} (h : Keeps o s) : KeepsOut o (execForwardConfirmTimeout t
    s) :=
  atFabric_keeps (fun _ hu => afterEdge_keeps (fun _ hu1 => forwardTimeout_keeps hu1) hu) h

theorem execPairHandover_keeps {t : Fc} {r : Ref} {s : State} (h : Keeps o s) : KeepsOut o (execPairHandover t r s) :=
  atFabric_keeps (fun _ hu => withDesc_keeps (fun _ _ hu1 => pairHandover_keeps hu1) hu) h

theorem execHandoverTimeout_keeps {t : Fc} {s : State} (h : Keeps o s) : KeepsOut o (execHandoverTimeout t s) :=
  atFabric_keeps (fun _ hu => handoverTimeout_keeps hu) h

theorem execMirror_keeps {t : Fc} {s : State} (h : Keeps o s) : KeepsOut o (execMirror t s) :=
  atFabric_keeps (fun _ hu => runStitch_keeps (fun _ _ hu1 => mirrorStitch_keeps hu1) hu) h

theorem execXlkLinkDown_keeps {t : Fc} {s : State} (h : Keeps o s) : KeepsOut o (execXlkLinkDown t s) :=
  atFabric_keeps (fun _ hu => rset_keeps hu) h

/-! ### Tick -/

theorem modTke_keeps {s : State} {f : Tke → Tke} (h : Keeps o s) : Keeps o (modTke s f) := keeps_update h

theorem alignRow_keeps {s0 : State} {pe : Option Nat} {time : Nat} (h : Keeps o s0) : Keeps o (alignRow s0 pe time) :=
  keeps_ite (raiseEv_keeps (rset_keeps (rsetS_keeps (modTke_keeps (modTke_keeps h))))) (rset_keeps (rsetS_keeps
    (modTke_keeps (modTke_keeps h))))

theorem latchSnap_keeps {s : State} {recs : Tbl Nat} (h : Keeps o s) : Keeps o (latchSnap s recs) := modTke_keeps h

theorem beginPattern_keeps {s : State} (h : Keeps o s) : Keeps o (beginPattern s) :=
  modTke_keeps (keeps_ite h (rset_keeps h))

theorem trackEdge_keeps {s : State} (h : Keeps o s) : Keeps o (trackEdge s) := ztJudge_keeps (ztEdge_keeps h)

theorem heldApply_keeps {c : Instr} {s : State} (h : Keeps o s) : Keeps o (heldApply c s) := by
  unfold heldApply
  split
  · exact patternAdmission_keeps h
  · exact tableSetCheck_keeps h
  · exact servePromote_keeps h
  · exact serveEnvelope_keeps h
  · exact forwardTimeout_keeps h
  · exact resyncRx_keeps h
  · exact sfeApply_keeps h

theorem replayHeld_keeps {s : State} (h : Keeps o s) : Keeps o (replayHeld s) :=
  foldl_keeps (fun _ _ hu => heldApply_keeps hu) (modTke_keeps h)

theorem tickEdge_keeps {s0 : State} {x : SfeSamples} {saved : Bool} (h : Keeps o s0) : Keeps o (tickEdge s0 x saved)
    :=
  keeps_ite h (replayHeld_keeps (beginPattern_keeps (modTke_keeps (rset_keeps (sfeNewTick_keeps (alignRow_keeps
    (clsEdge_keeps (calEdge_keeps (envEdge_keeps (trackEdge_keeps (latchSnap_keeps (promoteEdge_keeps (keeps_ite
    (modTke_keeps (pairEdge_keeps (rset64_keeps (boundaryNow_keeps h)))) (swapPattern_keeps (flipTable_keeps
    (modTke_keeps (pairEdge_keeps (rset64_keeps (boundaryNow_keeps h)))))))))))))))))))

theorem rejectOutputs_keeps {s : State} (h : Keeps o s) : Keeps o (rejectOutputs s) :=
  foldl_keeps (fun _ _ hu => completeRow_keeps hu) h

theorem sendCommit_keeps {s : State} {kind : FrameKind} {cmds : List Passed} (h : Keeps o s) : Keeps o (sendCommit s
    kind cmds) := by
  unfold sendCommit
  dsimp only
  refine keeps_ite ?_ ?_
  · refine xlkSend_keeps ?_
    refine keeps_ite ?_ ?_
    · refine keeps_update ?_
      refine keeps_ite ?_ ?_
      · refine ppsFrame_keeps ?_
        refine ppsFrame_keeps ?_
        refine foldl_keeps ?_ h
        intro _ _ hu
        split
        · exact takeReq_keeps hu
        · exact hu
      · refine fencedOut_keeps ?_
        refine ppsFrame_keeps ?_
        refine ppsFrame_keeps ?_
        refine foldl_keeps ?_ h
        intro _ _ hu
        split
        · exact takeReq_keeps hu
        · exact hu
    · refine keeps_ite ?_ ?_
      · refine ppsFrame_keeps ?_
        refine ppsFrame_keeps ?_
        refine foldl_keeps ?_ h
        intro _ _ hu
        split
        · exact takeReq_keeps hu
        · exact hu
      · refine fencedOut_keeps ?_
        refine ppsFrame_keeps ?_
        refine ppsFrame_keeps ?_
        refine foldl_keeps ?_ h
        intro _ _ hu
        split
        · exact takeReq_keeps hu
        · exact hu
  · refine keeps_ite ?_ ?_
    · refine ppsFrame_keeps ?_
      refine ppsFrame_keeps ?_
      refine foldl_keeps ?_ h
      intro _ _ hu
      split
      · exact takeReq_keeps hu
      · exact hu
    · refine fencedOut_keeps ?_
      refine ppsFrame_keeps ?_
      refine ppsFrame_keeps ?_
      refine foldl_keeps ?_ h
      intro _ _ hu
      split
      · exact takeReq_keeps hu
      · exact hu

theorem overrunRow_keeps {s : State} {cause : Nat} (h : Keeps o s) : Keeps o (overrunRow s cause) :=
  sendCommit_keeps (keeps_ite (rset_keeps (rinc_keeps (rset_keeps (foldl_keeps (fun _ _ hu => mirrorStitch_keeps hu)
    (endRow_keeps h))))) (keeps_ite (raiseEv_keeps (promoteRefuse_keeps (rset_keeps (rset_keeps (rset_keeps
    (rinc_keeps (rset_keeps (foldl_keeps (fun _ _ hu => mirrorStitch_keeps hu) (endRow_keeps h))))))))) (raiseEv_keeps
    (promoteRefuse_keeps (rset_keeps (rset_keeps (rset_keeps (rinc_keeps (rset_keeps (foldl_keeps (fun _ _ hu =>
    mirrorStitch_keeps hu) (endRow_keeps h)))))))))))

theorem commitRow_keeps {s : State} (h : Keeps o s) : Keeps o (commitRow s) :=
  canCommit_keeps (commitTickWorld_keeps (sendCommit_keeps (rolPeak_keeps (rset_keeps h))))

theorem commitOrOverrun_keeps {s : State} (h : Keeps o s) : Keeps o (commitOrOverrun s) := by
  unfold commitOrOverrun
  split
  · exact overrunRow_keeps h
  · exact keeps_ite (commitRow_keeps h) (overrunRow_keeps h)

theorem setAmps_keeps {s : State} {amps : List Nat} (h : Keeps o s) : Keeps o (setAmps s amps) := keeps_update h

theorem setSwAmps_keeps {s : State} {amps : List Nat} (h : Keeps o s) : Keeps o (setSwAmps s amps) := keeps_update h

theorem commitPoint_keeps {s0 : State} {amps : List Nat} (h : Keeps o s0) : Keeps o (commitPoint s0 amps) :=
  keeps_ite h (keeps_ite (keeps_ite (modTke_keeps (setAmps_keeps (foldl_keeps (fun _ _ hu => setPps_keeps hu) h)))
    (rejectOutputs_keeps (modTke_keeps (setAmps_keeps (foldl_keeps (fun _ _ hu => setPps_keeps hu) h))))) (keeps_ite
    (rset_keeps (commitOrOverrun_keeps (keeps_ite (modTke_keeps (setAmps_keeps (foldl_keeps (fun _ _ hu =>
    setPps_keeps hu) h))) (rejectOutputs_keeps (modTke_keeps (setAmps_keeps (foldl_keeps (fun _ _ hu => setPps_keeps
    hu) h))))))) (commitOrOverrun_keeps (keeps_ite (modTke_keeps (setAmps_keeps (foldl_keeps (fun _ _ hu =>
    setPps_keeps hu) h))) (rejectOutputs_keeps (modTke_keeps (setAmps_keeps (foldl_keeps (fun _ _ hu => setPps_keeps
    hu) h))))))))

theorem clearRecords_keeps {s : State} (h : Keeps o s) : Keeps o (clearRecords s) := keeps_update h

theorem postRecords_keeps {s : State} (h : Keeps o s) : Keeps o (postRecords s) := tillMask_keeps (keeps_update h)

theorem rowSummary_keeps {s : State} (h : Keeps o s) : Keeps o (rowSummary s) :=
  keeps_ite h (keeps_ite (queuePut_keeps h) (rinc_keeps h))

theorem exposeSnap_keeps {s : State} (h : Keeps o s) : Keeps o (exposeSnap s) := modTke_keeps (keeps_update h)

theorem tillFlush_keeps {s0 : State} {amps : List Nat} (h : Keeps o s0) : Keeps o (tillFlush s0 amps) :=
  keeps_ite h (keeps_ite (hbSend_keeps (rowSummary_keeps (postRecords_keeps (modTke_keeps (keeps_ite (setSwAmps_keeps
    h) (clearRecords_keeps (exposeSnap_keeps (setSwAmps_keeps h)))))))) (pushExtract_keeps (hbSend_keeps
    (rowSummary_keeps (postRecords_keeps (modTke_keeps (keeps_ite (setSwAmps_keeps h) (clearRecords_keeps
    (exposeSnap_keeps (setSwAmps_keeps h))))))))))

theorem armFresh_keeps {s : State} (h : Keeps o s) : Keeps o (armFresh s) := keeps_update h

theorem armRole_keeps {s : State} {saved : Bool} (h : Keeps o s) : Keeps o (armRole s saved) :=
  keeps_ite (keeps_update (rset_keeps (rset_keeps h))) (becomeCommander_keeps h)

theorem armTke_keeps {s : State} {saved : Bool} (h : Keeps o s) : Keeps o (armTke s saved) :=
  keeps_ite h (keeps_ite (rset_keeps (rset_keeps h)) (armRole_keeps (armFresh_keeps (rset_keeps (rset_keeps
    (rset_keeps (rset_keeps (rset_keeps (modTke_keeps (rset_keeps h))))))))))

theorem disarmTke_keeps {s : State} (h : Keeps o s) : Keeps o (disarmTke s) :=
  keeps_update (keeps_ite (rset_keeps (rset_keeps h)) (rset_keeps (rset_keeps (rset_keeps h))))

theorem execTickEdge_keeps {t : Fc} {x : SfeSamples} {saved : Bool} {s : State} (h : Keeps o s) : KeepsOut o
    (execTickEdge t x saved s) :=
  atFabric_keeps (fun _ hu => tickEdge_keeps hu) h

theorem execCommitPoint_keeps {c : CommitIn} {s : State} (h : Keeps o s) : KeepsOut o (execCommitPoint c s) :=
  atFabric_keeps (fun _ hu => commitPoint_keeps hu) h

theorem execTillFlush_keeps {t : Fc} {amps : List Nat} {s : State} (h : Keeps o s) : KeepsOut o (execTillFlush t amps
    s) :=
  atFabric_keeps (fun _ hu => tillFlush_keeps hu) h

theorem execTkeArm_keeps {t : Fc} {saved : Bool} {s : State} (h : Keeps o s) : KeepsOut o (execTkeArm t saved s) :=
  atFabric_keeps (fun _ hu => armTke_keeps hu) h

theorem execTkeDisarm_keeps {t : Fc} {s : State} (h : Keeps o s) : KeepsOut o (execTkeDisarm t s) :=
  atFabric_keeps (fun _ hu => disarmTke_keeps hu) h

/-! ### Resets -/

theorem abortWaiting_keeps {s : State} {q : Req} (h : Keeps o s) : Keeps o (abortWaiting s q) :=
  keeps_ite (complete_keeps (fetchTake_keeps h)) h

theorem abortTaken_keeps {s : State} {q : Req} (h : Keeps o s) : Keeps o (abortTaken s q) :=
  keeps_ite (complete_keeps h) h

theorem postRowDone_keeps {s : State} (h : Keeps o s) : Keeps o (postRowDone s) := keeps_update h

theorem drainTill_keeps {s : State} (h : Keeps o s) : Keeps o (drainTill s) :=
  tillMask_keeps (rset_keeps (keeps_update (foldl_keeps (fun _ _ hu => writeCompl_keeps hu) (foldl_keeps (fun _ _ hu
    => tillTake_keeps hu) (postRowDone_keeps h)))))

theorem drainRings_keeps {s : State} (h : Keeps o s) : Keeps o (drainRings s) :=
  drainTill_keeps (foldl_keeps (fun _ _ hu => abortTaken_keeps hu) (foldl_keeps (fun _ _ hu => abortWaiting_keeps hu)
    (foldl_keeps (fun _ _ hu => ringDisable_keeps hu) h)))

theorem stopClock_keeps {s : State} (h : Keeps o s) : Keeps o (stopClock s) := by
  unfold stopClock
  split
  · exact keeps_update h
  · exact h

theorem resetFabRegs_keeps {s : State} (h : Keeps o s) : Keeps o (resetFabRegs s) :=
  resetBlock_keeps (resetBlock_keeps (foldl_keeps (fun _ _ hu => resetBlock_keeps hu) (resetInst_keeps h)))

theorem resetFabric_keeps {s : State} (h : Keeps o s) : Keeps o (resetFabric s) :=
  keeps_update (stopClock_keeps (resetFabRegs_keeps h))

theorem loadMacs_keeps {s : State} (h : Keeps o s) : Keeps o (loadMacs s) :=
  foldl_keeps (fun _ _ hu => rset_keeps (rset_keeps hu)) h

theorem renewNonce_keeps {s : State} (h : Keeps o s) : Keeps o (renewNonce s) :=
  foldl_keeps (fun _ _ hu => withFree_keeps (fun _ _ hu1 => rset_keeps hu1) hu) h

theorem resetPeriph_keeps {s : State} (h : Keeps o s) : Keeps o (resetPeriph s) :=
  loadMacs_keeps (keeps_update (foldl_keeps (fun _ _ hu => resetBlock_keeps hu) h))

theorem resetOuter_keeps {s : State} (h : Keeps o s) : Keeps o (resetOuter s) :=
  renewNonce_keeps (keeps_update (foldl_keeps (fun _ _ hu => resetBlock_keeps hu) (resetInst_keeps (resetPeriph_keeps
    h))))

theorem wipeDram_keeps {s : State} (h : Keeps o s) : Keeps o (wipeDram s) :=
  ⟨h.1, h.2.1, fun hc => ⟨rfl, (h.2.2 hc).2⟩⟩

theorem resetAon_keeps {s : State} (h : Keeps o s) : Keeps o (resetAon s) := keeps_update (resetBlock_keeps h)

theorem noteTrial_keeps {s : State} {source : Nat} (h : Keeps o s) : Keeps o (noteTrial s source) :=
  keeps_ite (keeps_update h) h

theorem noteCause_keeps {s : State} {kind source : Nat} (h : Keeps o s) : Keeps o (noteCause s kind source) :=
  keeps_update (rset_keeps (rset_keeps (rset_keeps (rolEvent_keeps (rolEvent_keeps h)))))

theorem resetTo_keeps {s : State} {kind source : Nat} {wipe : Bool} (h : Keeps o s) : Keeps o (resetTo s kind source
    wipe) :=
  noteCause_keeps (keeps_ite (wipeDram_keeps (keeps_ite (resetAon_keeps (keeps_ite (resetOuter_keeps
    (resetFabric_keeps (noteTrial_keeps (keeps_ite (keeps_ite (drainRings_keeps (confirmFirst_keeps h))
    (abandonRings_keeps h)) (settleDram_keeps (keeps_ite (drainRings_keeps (confirmFirst_keeps h)) (abandonRings_keeps
    h))))))) (resetFabric_keeps (noteTrial_keeps (keeps_ite (keeps_ite (drainRings_keeps (confirmFirst_keeps h))
    (abandonRings_keeps h)) (settleDram_keeps (keeps_ite (drainRings_keeps (confirmFirst_keeps h)) (abandonRings_keeps
    h)))))))) (keeps_ite (resetOuter_keeps (resetFabric_keeps (noteTrial_keeps (keeps_ite (keeps_ite (drainRings_keeps
    (confirmFirst_keeps h)) (abandonRings_keeps h)) (settleDram_keeps (keeps_ite (drainRings_keeps (confirmFirst_keeps
    h)) (abandonRings_keeps h))))))) (resetFabric_keeps (noteTrial_keeps (keeps_ite (keeps_ite (drainRings_keeps
    (confirmFirst_keeps h)) (abandonRings_keeps h)) (settleDram_keeps (keeps_ite (drainRings_keeps (confirmFirst_keeps
    h)) (abandonRings_keeps h))))))))) (keeps_ite (resetAon_keeps (keeps_ite (resetOuter_keeps (resetFabric_keeps
    (noteTrial_keeps (keeps_ite (keeps_ite (drainRings_keeps (confirmFirst_keeps h)) (abandonRings_keeps h))
    (settleDram_keeps (keeps_ite (drainRings_keeps (confirmFirst_keeps h)) (abandonRings_keeps h)))))))
    (resetFabric_keeps (noteTrial_keeps (keeps_ite (keeps_ite (drainRings_keeps (confirmFirst_keeps h))
    (abandonRings_keeps h)) (settleDram_keeps (keeps_ite (drainRings_keeps (confirmFirst_keeps h)) (abandonRings_keeps
    h)))))))) (keeps_ite (resetOuter_keeps (resetFabric_keeps (noteTrial_keeps (keeps_ite (keeps_ite (drainRings_keeps
    (confirmFirst_keeps h)) (abandonRings_keeps h)) (settleDram_keeps (keeps_ite (drainRings_keeps (confirmFirst_keeps
    h)) (abandonRings_keeps h))))))) (resetFabric_keeps (noteTrial_keeps (keeps_ite (keeps_ite (drainRings_keeps
    (confirmFirst_keeps h)) (abandonRings_keeps h)) (settleDram_keeps (keeps_ite (drainRings_keeps (confirmFirst_keeps
    h)) (abandonRings_keeps h)))))))))

/-! ### Lifecycle -/

theorem eraseJournal_keeps {s : State} (h : Keeps o s) : Keeps o (eraseJournal s) := keeps_update (rset_keeps h)

theorem eraseStaging_keeps {s : State} {k : Nat} (h : Keeps o s) : Keeps o (eraseStaging s k) :=
  keeps_ite (raiseEv_keeps (eraseSlot_keeps (rset_keeps (modUpd_keeps h)))) (eraseSlot_keeps h)

theorem eraseStages_keeps {s : State} (h : Keeps o s) : Keeps o (eraseStages s) :=
  eraseStaging_keeps (eraseStaging_keeps h)

theorem eraseParts_keeps {s : State} (h : Keeps o s) : Keeps o (eraseParts s) := keeps_update h

theorem wipeSram_keeps {s : State} (h : Keeps o s) : Keeps o (wipeSram s) := keeps_update h

theorem lcWipe_keeps {s : State} {from_ dst : Nat} (h : Keeps o s) : Keeps o (lcWipe s from_ dst) :=
  keeps_ite (rset_keeps (rset_keeps (rset_keeps (rset_keeps (modKsm_keeps (eraseParts_keeps (eraseStages_keeps
    (eraseJournal_keeps (wipeSram_keeps h))))))))) (keeps_ite (keeps_update (eraseParts_keeps (eraseStages_keeps
    (eraseJournal_keeps (wipeSram_keeps h))))) (keeps_ite (rset_keeps (modKsm_keeps (eraseParts_keeps
    (eraseStages_keeps (eraseJournal_keeps (wipeSram_keeps h)))))) (keeps_ite (rset_keeps h) (keeps_ite (rset_keeps h)
    (eraseStages_keeps h)))))

theorem lcMake_keeps {s : State} {from_ dst : Nat} (h : Keeps o s) : Keeps o (lcMake s from_ dst) :=
  raiseEv_keeps (keeps_update (renewNonce_keeps (rinc_keeps (rset_keeps (modKsm_keeps (lcWipe_keeps h))))))

theorem lcChange_keeps {s : State} {r : Ref} {d : Desc} {token : List Nat} {sigOk cut : Bool} (h : Keeps o s) : Keeps
    o (lcChange s r d token sigOk cut) :=
  keeps_ite (complete_keeps h) (keeps_ite (complete_keeps h) (keeps_ite (complete_keeps h) (keeps_ite (modKsm_keeps
    (disarmTke_keeps h)) (resetTo_keeps (drainTill_keeps (complete_keeps (lcMake_keeps (disarmTke_keeps h))))))))

theorem setVersions_keeps {s : State} (h : Keeps o s) : Keeps o (setVersions s) := rset_keeps (rset_keeps h)

theorem takeBank_keeps {s : State} {k : Nat} (h : Keeps o s) : Keeps o (takeBank s k) :=
  setVersions_keeps (setMissing_keeps (setSlotState_keeps (rset_keeps (rset_keeps (modUpd_keeps (rset_keeps h))))))

theorem replacePeriph_keeps {s : State} {i : Image} (h : Keeps o s) : Keeps o (replacePeriph s i) :=
  keeps_ite (renewNonce_keeps (resetPeriph_keeps h)) h

theorem activationReset_keeps {s : State} (h : Keeps o s) : Keeps o (activationReset s) := by
  unfold activationReset
  split
  · exact keeps_ite h (rset_keeps (keeps_update (replacePeriph_keeps (resetTo_keeps (takeBank_keeps (drainTill_keeps
      (complete_keeps (noteAbortNow_keeps h))))))))
  · exact h

theorem execLcChange_keeps {t : Fc} {r : Ref} {token : List Nat} {sigOk cut : Bool} {s : State} (h : Keeps o s) :
    KeepsOut o (execLcChange t r token sigOk cut s) :=
  atFabric_keeps (fun _ hu => withDesc_keeps (fun _ _ hu1 => lcChange_keeps hu1) hu) h

theorem execActivationReset_keeps {t : Fc} {s : State} (h : Keeps o s) : KeepsOut o (execActivationReset t s) :=
  atFabric_keeps (fun _ hu => activationReset_keeps hu) h

/-! ### Power -/

theorem modAoc_keeps {s : State} {f : Aoc → Aoc} (h : Keeps o s) : Keeps o (modAoc s f) := keeps_update h

theorem noteWake_keeps {s : State} {mask : Nat} (h : Keeps o s) : Keeps o (noteWake s mask) :=
  foldl_keeps (fun _ _ hu => rolEvent_keeps hu) h

theorem wakeRaise_keeps {s : State} (h : Keeps o s) : Keeps o (wakeRaise s) := raiseEv_keeps h

theorem resumeFabric_keeps {s : State} (h : Keeps o s) : Keeps o (resumeFabric s) :=
  renewTpNext_keeps (panelView_keeps (panelView_keeps (keeps_update h)))

theorem wakeUp_keeps {s : State} {mask : Nat} (h : Keeps o s) : Keeps o (wakeUp s mask) :=
  wakeRaise_keeps (keeps_ite (keeps_ite (resetTo_keeps (noteWake_keeps (rset_keeps h))) (resumeFabric_keeps
    (noteWake_keeps (rset_keeps h)))) (resetTo_keeps (noteWake_keeps (rset_keeps h))))

theorem wakeEvent_keeps {s : State} {mask : Nat} (h : Keeps o s) : Keeps o (wakeEvent s mask) := by
  unfold wakeEvent
  split
  · exact modAoc_keeps h
  · exact keeps_ite h (keeps_ite h (wakeUp_keeps h))

theorem panelEntry_keeps {state : Nat} {s : State} {p : Nat} (h : Keeps o s) : Keeps o (panelEntry state s p) :=
  keeps_ite h (panelDark_keeps h)

theorem enterState_keeps {s : State} {state : Nat} {x : EntryMeas} (h : Keeps o s) : Keeps o (enterState s state x) :=
  keeps_ite (keeps_update (rset_keeps (rset_keeps (stopClock_keeps (panelEntry_keeps (panelEntry_keeps (keeps_ite
    (holdoverBegin_keeps (keeps_ite (keeps_ite (hostLinkOff_keeps h) h) (navStore_keeps (keeps_ite (hostLinkOff_keeps
    h) h)))) (keeps_ite (keeps_ite (hostLinkOff_keeps h) h) (navStore_keeps (keeps_ite (hostLinkOff_keeps h)
    h)))))))))) (wakeUp_keeps (keeps_update (rset_keeps (rset_keeps (stopClock_keeps (panelEntry_keeps
    (panelEntry_keeps (keeps_ite (holdoverBegin_keeps (keeps_ite (keeps_ite (hostLinkOff_keeps h) h) (navStore_keeps
    (keeps_ite (hostLinkOff_keeps h) h)))) (keeps_ite (keeps_ite (hostLinkOff_keeps h) h) (navStore_keeps (keeps_ite
    (hostLinkOff_keeps h) h)))))))))))

theorem suspendRequest_keeps {s : State} (h : Keeps o s) : Keeps o (suspendRequest s) := modAoc_keeps h

theorem entryRefuse_keeps {s : State} (h : Keeps o s) : Keeps o (entryRefuse s) := rset_keeps (modAoc_keeps h)

theorem tryEnter_keeps {s : State} {x : EntryMeas} (h : Keeps o s) : Keeps o (tryEnter s x) := by
  unfold tryEnter
  split
  · refine keeps_ite ?_ ?_
    · exact h
    · split
      · exact entryRefuse_keeps h
      · exact keeps_ite (enterState_keeps h) (keeps_ite h (suspendRequest_keeps (modAoc_keeps h)))
  · exact h

theorem startEntry_keeps {s : State} {state : Nat} {x : EntryMeas} (h : Keeps o s) : Keeps o (startEntry s state x) :=
  tryEnter_keeps (modAoc_keeps h)

theorem go_keeps {s : State} {x : EntryMeas} (h : Keeps o s) : Keeps o (go s x) := by
  unfold go
  refine keeps_ite ?_ ?_
  · exact h
  · dsimp only
    refine keeps_ite ?_ ?_
    · exact rset_keeps h
    · split
      · exact startEntry_keeps (keeps_ite (suspendRequest_keeps h) (modAoc_keeps h))
      · exact h

theorem drainEnd_keeps {s : State} {x : EntryMeas} (h : Keeps o s) : Keeps o (drainEnd s x) := by
  unfold drainEnd
  split
  · exact keeps_ite h (tryEnter_keeps (modAoc_keeps (drainTill_keeps (foldl_keeps (fun _ _ hu => abortTaken_keeps hu)
      (foldl_keeps (fun _ _ hu => abortDesc_keeps hu) h)))))
  · exact h

theorem bindAbort_keeps {s : State} (h : Keeps o s) : Keeps o (bindAbort s) :=
  modAoc_keeps (setOnes_keeps (rset_keeps (rset_keeps h)))

theorem bindNext_keeps {s : State} {step : Nat} (h : Keeps o s) : Keeps o (bindNext s step) :=
  keeps_ite (bindAbort_keeps h) (modAoc_keeps (rset_keeps h))

theorem bindSafe_keeps {s : State} (h : Keeps o s) : Keeps o (bindSafe s) :=
  safeNow_keeps (safeNow_keeps (disarmTke_keeps h))

theorem bindSave_keeps {s : State} {x : EntryMeas} (h : Keeps o s) : Keeps o (bindSave s x) :=
  fleClose_keeps (keeps_ite (setRtc_keeps (navStore_keeps h)) (navStore_keeps h))

theorem journalFlush_keeps {s : State} (h : Keeps o s) : Keeps o (journalFlush s) := keeps_update h

theorem bindOnce_keeps {s : State} {x : EntryMeas} (h : Keeps o s) : Keeps o (bindOnce s x) := by
  unfold bindOnce
  split
  · exact bindNext_keeps (bindSafe_keeps h)
  · exact keeps_ite (bindNext_keeps (ppsDisarm_keeps (ppsDisarm_keeps h))) h
  · exact bindNext_keeps (keeps_ite (journalFlush_keeps h) (flushNow_keeps (journalFlush_keeps h)))
  · exact keeps_ite (bindNext_keeps h) h
  · exact keeps_ite (suspendRequest_keeps (bindNext_keeps (bindSave_keeps h))) (bindNext_keeps (bindSave_keeps h))
  · exact keeps_ite (startEntry_keeps (modAoc_keeps (rset_keeps h))) h
  · exact h

theorem bindRun_keeps {s : State} {x : EntryMeas} (h : Keeps o s) : Keeps o (bindRun s x) :=
  foldl_keeps (fun _ _ hu => keeps_ite (bindOnce_keeps hu) hu) h

theorem bindBegin_keeps {s : State} {x : EntryMeas} (h : Keeps o s) : Keeps o (bindBegin s x) :=
  bindRun_keeps (modAoc_keeps (rset_keeps (rset_keeps h)))

theorem bindStart_keeps {s : State} {x : EntryMeas} (h : Keeps o s) : Keeps o (bindStart s x) := by
  unfold bindStart
  refine keeps_ite ?_ ?_
  · exact bindRun_keeps h
  · split
    · exact keeps_ite (bindBegin_keeps h) h
    · exact h

theorem bindNow_keeps {s : State} {x : EntryMeas} (h : Keeps o s) : Keeps o (bindNow s x) :=
  keeps_ite h (bindBegin_keeps h)

theorem bindTileTimeout_keeps {s : State} {x : EntryMeas} (h : Keeps o s) : Keeps o (bindTileTimeout s x) :=
  keeps_ite (bindRun_keeps (bindNext_keeps (raiseEv_keeps (setOnes_keeps h)))) h

theorem suspendReady_keeps {s : State} {x : EntryMeas} (h : Keeps o s) : Keeps o (suspendReady s x) :=
  keeps_ite h (keeps_ite (bindRun_keeps (modAoc_keeps h)) (tryEnter_keeps (modAoc_keeps h)))

theorem suspendTimeout_keeps {s : State} {x : EntryMeas} (h : Keeps o s) : Keeps o (suspendTimeout s x) := by
  unfold suspendTimeout
  split
  · exact keeps_ite h (keeps_ite (bindRun_keeps (modAoc_keeps (raiseEv_keeps (setOnes_keeps h)))) (tryEnter_keeps
      (modAoc_keeps (raiseEv_keeps (setOnes_keeps h)))))
  · exact h

theorem ignOff_keeps {s : State} {mv100 : Nat} (h : Keeps o s) : Keeps o (ignOff s mv100) :=
  keeps_ite (keeps_ite (rset_keeps (rset_keeps h)) (rset_keeps h)) (raiseEv_keeps (keeps_ite (keeps_ite (rset_keeps
    (rset_keeps h)) (rset_keeps h)) (modAoc_keeps (keeps_ite (rset_keeps (rset_keeps h)) (rset_keeps h)))))

theorem ignReturn_keeps {s : State} (h : Keeps o s) : Keeps o (ignReturn s) :=
  keeps_ite (keeps_ite h (keeps_ite (bindAbort_keeps h) (raiseEv_keeps (modAoc_keeps h)))) (keeps_ite (raiseEv_keeps
    (modAoc_keeps h)) h)

theorem ignHigh_keeps {s : State} {mv100 : Nat} (h : Keeps o s) : Keeps o (ignHigh s mv100) :=
  keeps_ite (rset_keeps h) (keeps_ite (wakeEvent_keeps (rset_keeps (rset_keeps h))) (ignReturn_keeps (rset_keeps
    (rset_keeps h))))

theorem logicThrottle_keeps {s : State} {mv100 : Nat} (h : Keeps o s) : Keeps o (logicThrottle s mv100) :=
  rsetB_keeps (rset_keeps h)

theorem logicQualified_keeps {s : State} {mv100 : Nat} (h : Keeps o s) : Keeps o (logicQualified s mv100) :=
  keeps_ite (logicThrottle_keeps h) (keeps_ite (modAoc_keeps (logicThrottle_keeps h)) (wakeRaise_keeps (noteWake_keeps
    (modAoc_keeps (logicThrottle_keeps h)))))

theorem finishPage_keeps {s : State} {pages : Nat} (h : Keeps o s) : Keeps o (finishPage s pages) := by
  unfold finishPage
  split
  · exact keeps_ite (jrnApply_keeps h) h
  · exact h

theorem powerFail_keeps {s : State} {mv100 pages : Nat} (h : Keeps o s) : Keeps o (powerFail s mv100 pages) :=
  keeps_ite h (modAoc_keeps (resetTo_keeps (raiseEv_keeps (finishPage_keeps (rset_keeps h)))))

theorem aonLoss_keeps {s : State} {mv100 : Nat} (h : Keeps o s) : Keeps o (aonLoss s mv100) :=
  keeps_ite (modAoc_keeps (rset_keeps (resetTo_keeps h))) h

theorem revertBank_keeps {s : State} (h : Keeps o s) : Keeps o (revertBank s) :=
  raiseEv_keeps (setVersions_keeps (rset_keeps (rset_keeps (modUpd_keeps (rset_keeps h)))))

theorem bootVerify_keeps {s : State} {x : CastIn} (h : Keeps o s) : Keeps o (bootVerify s x).1 := by
  unfold bootVerify
  dsimp only
  split
  · split
    · exact modAoc_keeps (rsetB_keeps h)
    · exact modUpd_keeps (modAoc_keeps (rset_keeps (rsetB_keeps h)))
  · split
    · exact modAoc_keeps (rsetB_keeps h)
    · exact modUpd_keeps (modAoc_keeps (rset_keeps (rsetB_keeps h)))

theorem copyPending_keeps {s : State} {fault : Option (Bool × Nat × Nat)} (h : Keeps o s) : Keeps o (copyPending s
    fault) := by
  unfold copyPending
  refine keeps_ite ?_ ?_
  · exact h
  · dsimp only
    split
    · exact modAoc_keeps (takeBank_keeps (modUpd_keeps (rset_keeps h)))
    · exact rset_keeps (setVersions_keeps (setSlotState_keeps (modUpd_keeps (copyError_keeps (rset_keeps h)))))

theorem finishChange_keeps {s : State} (h : Keeps o s) : Keeps o (finishChange s) := by
  unfold finishChange
  split
  · exact lcMake_keeps h
  · exact h

theorem selfTest_keeps {s : State} {n : Nat} (h : Keeps o s) : Keeps o (selfTest s n) :=
  keeps_ite (raiseEv_keeps (keeps_update h)) (raiseEv_keeps (rsetBitAt_keeps h))

theorem debugAccess_keeps {s : State} (h : Keeps o s) : Keeps o (debugAccess s) :=
  foldl_keeps (fun _ _ hu => keeps_ite (rset_keeps (rset_keeps hu)) hu) h

theorem fabricInit_keeps {s : State} {bad : List Nat} (h : Keeps o s) : Keeps o (fabricInit s bad) :=
  foldl_keeps (fun _ _ hu => selfTest_keeps hu) (keeps_update (debugAccess_keeps (rset64_keeps h)))

theorem loadRtc_keeps {s0 : State} (h : Keeps o s0) : Keeps o (loadRtc s0) :=
  regridFilter_keeps (keeps_update (noteTime_keeps h))

theorem makeKey_keeps {s : State} (h : Keeps o s) : Keeps o (makeKey s) := keeps_ite (rset_keeps h) h

theorem castStages_keeps {s : State} {first : Nat} {x : CastIn} (h : Keeps o s) : Keeps o (castStages s first x) := by
  unfold castStages
  dsimp only
  refine keeps_ite ?_ ?_
  · refine rset_keeps ?_
    refine modAoc_keeps ?_
    split
    · exact bootVerify_keeps (makeKey_keeps (keeps_ite (revertBank_keeps (rset_keeps h)) (rset_keeps h)))
    · exact rset_keeps (keeps_ite (revertBank_keeps (rset_keeps h)) (rset_keeps h))
  · refine rset_keeps ?_
    refine modSto_keeps ?_
    refine keeps_ite ?_ ?_
    · refine raiseEv_keeps ?_
      refine modSto_keeps ?_
      refine modUpd_keeps ?_
      refine keeps_ite ?_ ?_
      · refine navStart_keeps ?_
        refine fabricInit_keeps ?_
        refine finishChange_keeps ?_
        refine keeps_ite ?_ ?_
        · refine copyPending_keeps ?_
          split
          · exact bootVerify_keeps (makeKey_keeps (keeps_ite (revertBank_keeps (rset_keeps h)) (rset_keeps h)))
          · exact rset_keeps (keeps_ite (revertBank_keeps (rset_keeps h)) (rset_keeps h))
        · split
          · exact bootVerify_keeps (makeKey_keeps (keeps_ite (revertBank_keeps (rset_keeps h)) (rset_keeps h)))
          · exact rset_keeps (keeps_ite (revertBank_keeps (rset_keeps h)) (rset_keeps h))
      · refine renewTpNext_keeps ?_
        refine fabricInit_keeps ?_
        refine finishChange_keeps ?_
        refine keeps_ite ?_ ?_
        · refine copyPending_keeps ?_
          split
          · exact bootVerify_keeps (makeKey_keeps (keeps_ite (revertBank_keeps (rset_keeps h)) (rset_keeps h)))
          · exact rset_keeps (keeps_ite (revertBank_keeps (rset_keeps h)) (rset_keeps h))
        · split
          · exact bootVerify_keeps (makeKey_keeps (keeps_ite (revertBank_keeps (rset_keeps h)) (rset_keeps h)))
          · exact rset_keeps (keeps_ite (revertBank_keeps (rset_keeps h)) (rset_keeps h))
    · refine keeps_ite ?_ ?_
      · refine navStart_keeps ?_
        refine fabricInit_keeps ?_
        refine finishChange_keeps ?_
        refine keeps_ite ?_ ?_
        · refine copyPending_keeps ?_
          split
          · exact bootVerify_keeps (makeKey_keeps (keeps_ite (revertBank_keeps (rset_keeps h)) (rset_keeps h)))
          · exact rset_keeps (keeps_ite (revertBank_keeps (rset_keeps h)) (rset_keeps h))
        · split
          · exact bootVerify_keeps (makeKey_keeps (keeps_ite (revertBank_keeps (rset_keeps h)) (rset_keeps h)))
          · exact rset_keeps (keeps_ite (revertBank_keeps (rset_keeps h)) (rset_keeps h))
      · refine renewTpNext_keeps ?_
        refine fabricInit_keeps ?_
        refine finishChange_keeps ?_
        refine keeps_ite ?_ ?_
        · refine copyPending_keeps ?_
          split
          · exact bootVerify_keeps (makeKey_keeps (keeps_ite (revertBank_keeps (rset_keeps h)) (rset_keeps h)))
          · exact rset_keeps (keeps_ite (revertBank_keeps (rset_keeps h)) (rset_keeps h))
        · split
          · exact bootVerify_keeps (makeKey_keeps (keeps_ite (revertBank_keeps (rset_keeps h)) (rset_keeps h)))
          · exact rset_keeps (keeps_ite (revertBank_keeps (rset_keeps h)) (rset_keeps h))

theorem castOn_keeps {s : State} {x : CastIn} (h : Keeps o s) : Keeps o (castOn s x) := by
  unfold castOn
  split
  · exact keeps_ite h (castStages_keeps (keeps_ite (loadRtc_keeps h) h))
  · exact h

theorem hostReady_keeps {s : State} (h : Keeps o s) : Keeps o (hostReady s) := by
  unfold hostReady
  split
  · exact keeps_ite h (modAoc_keeps (rset_keeps (rset_keeps h)))
  · exact h

theorem trimEnter_keeps {s : State} (h : Keeps o s) : Keeps o (trimEnter s) := keeps_ite (modAoc_keeps h) h

theorem trimExit_keeps {s : State} (h : Keeps o s) : Keeps o (trimExit s) := keeps_ite (rset_keeps (modAoc_keeps h)) h

theorem deepDescent_keeps {s : State} (h : Keeps o s) : Keeps o (deepDescent s) :=
  keeps_ite (modAoc_keeps (panelDark_keeps (panelDark_keeps h))) h

theorem aocReset_keeps {s : State} {kind : Nat} {wipe : Bool} {confirm : Nat} (h : Keeps o s) : Keeps o (aocReset s
    kind wipe confirm) :=
  keeps_ite (resetTo_keeps h) h

theorem watchdog_keeps {s : State} (h : Keeps o s) : Keeps o (watchdog s) :=
  keeps_ite h (resetTo_keeps (modAoc_keeps h))

theorem tc10Rx_keeps {s : State} {p : Nat} (h : Keeps o s) : Keeps o (tc10Rx s p) :=
  keeps_ite (wakeEvent_keeps (keeps_ite (tc10WakeRx_keeps h) h)) (keeps_ite (tc10WakeRx_keeps h) h)

theorem execLogicQualified_keeps {t : Fc} {mv100 : Fin 1024} {s : State} (h : Keeps o s) : KeepsOut o
    (execLogicQualified t mv100 s) :=
  atTime_keeps (fun _ hu => logicQualified_keeps hu) h

theorem execLogicThrottle_keeps {t : Fc} {mv100 : Fin 1024} {s : State} (h : Keeps o s) : KeepsOut o
    (execLogicThrottle t mv100 s) :=
  atTime_keeps (fun _ hu => keeps_ite (logicThrottle_keeps hu) hu) h

theorem execPowerFail_keeps {t : Fc} {mv100 : Fin 1024} {pages : Nat} {s : State} (h : Keeps o s) : KeepsOut o
    (execPowerFail t mv100 pages s) :=
  atTime_keeps (fun _ hu => powerFail_keeps hu) h

theorem execAonLoss_keeps {t : Fc} {mv100 : Fin 1024} {s : State} (h : Keeps o s) : KeepsOut o (execAonLoss t mv100 s)
    :=
  atTime_keeps (fun _ hu => aonLoss_keeps hu) h

theorem execCastOn_keeps {t : Fc} {x : CastIn} {s : State} (h : Keeps o s) : KeepsOut o (execCastOn t x s) :=
  atTime_keeps (fun _ hu => castOn_keeps hu) h

theorem execHostReady_keeps {t : Fc} {s : State} (h : Keeps o s) : KeepsOut o (execHostReady t s) :=
  atFabric_keeps (fun _ hu => hostReady_keeps hu) h

theorem execIgnHigh_keeps {t : Fc} {mv100 : Fin 1024} {s : State} (h : Keeps o s) : KeepsOut o (execIgnHigh t mv100 s)
    :=
  atTime_keeps (fun _ hu => ignHigh_keeps hu) h

theorem execPwrIgnOff_keeps {t : Fc} {mv100 : Fin 1024} {s : State} (h : Keeps o s) : KeepsOut o (execPwrIgnOff t
    mv100 s) :=
  atTime_keeps (fun _ hu => ignOff_keeps hu) h

theorem execBindStart_keeps {t : Fc} {x : EntryMeas} {s : State} (h : Keeps o s) : KeepsOut o (execBindStart t x s) :=
  atFabric_keeps (fun _ hu => bindStart_keeps hu) h

theorem execBindNow_keeps {t : Fc} {x : EntryMeas} {s : State} (h : Keeps o s) : KeepsOut o (execBindNow t x s) :=
  atFabric_keeps (fun _ hu => bindNow_keeps hu) h

theorem execBindTileTimeout_keeps {t : Fc} {x : EntryMeas} {s : State} (h : Keeps o s) : KeepsOut o
    (execBindTileTimeout t x s) :=
  atFabric_keeps (fun _ hu => bindTileTimeout_keeps hu) h

theorem execGo_keeps {t : Fc} {x : EntryMeas} {s : State} (h : Keeps o s) : KeepsOut o (execGo t x s) :=
  atFabric_keeps (fun _ hu => go_keeps hu) h

theorem execEntryDrainEnd_keeps {t : Fc} {x : EntryMeas} {s : State} (h : Keeps o s) : KeepsOut o (execEntryDrainEnd t
    x s) :=
  atFabric_keeps (fun _ hu => drainEnd_keeps hu) h

theorem execSuspendReady_keeps {t : Fc} {x : EntryMeas} {s : State} (h : Keeps o s) : KeepsOut o (execSuspendReady t x
    s) :=
  atFabric_keeps (fun _ hu => suspendReady_keeps hu) h

theorem execSuspendTimeout_keeps {t : Fc} {x : EntryMeas} {s : State} (h : Keeps o s) : KeepsOut o (execSuspendTimeout
    t x s) :=
  atFabric_keeps (fun _ hu => suspendTimeout_keeps hu) h

theorem execTrimEnter_keeps {t : Fc} {s : State} (h : Keeps o s) : KeepsOut o (execTrimEnter t s) :=
  atFabric_keeps (fun _ hu => trimEnter_keeps hu) h

theorem execTrimExit_keeps {t : Fc} {s : State} (h : Keeps o s) : KeepsOut o (execTrimExit t s) :=
  atFabric_keeps (fun _ hu => trimExit_keeps hu) h

theorem execWakeEvent_keeps {t : Fc} {sources : Fin 64} {s : State} (h : Keeps o s) : KeepsOut o (execWakeEvent t
    sources s) :=
  atTime_keeps (fun _ hu => wakeEvent_keeps hu) h

theorem execDeepDescent_keeps {t : Fc} {s : State} (h : Keeps o s) : KeepsOut o (execDeepDescent t s) :=
  atTime_keeps (fun _ hu => deepDescent_keeps hu) h

theorem execAocReset_keeps {t : Fc} {kind : Fin 4} {wipe : Bool} {confirm : Fin 256} {s : State} (h : Keeps o s) :
    KeepsOut o (execAocReset t kind wipe confirm s) :=
  atFabric_keeps (fun _ hu => aocReset_keeps hu) h

theorem execWatchdogKick_keeps {t : Fc} {s : State} (h : Keeps o s) : KeepsOut o (execWatchdogKick t s) :=
  atFabric_keeps (fun _ hu => modAoc_keeps hu) h

theorem execWatchdogExpiry_keeps {t : Fc} {s : State} (h : Keeps o s) : KeepsOut o (execWatchdogExpiry t s) :=
  atFabric_keeps (fun _ hu => watchdog_keeps hu) h

theorem execTc10WakeRx_keeps {t : Fc} {port : Fin 4} {s : State} (h : Keeps o s) : KeepsOut o (execTc10WakeRx t port
    s) :=
  atTime_keeps (fun _ hu => tc10Rx_keeps hu) h

/-! ### Health -/

theorem modHlm_keeps {s : State} {f : Hlm → Hlm} (h : Keeps o s) : Keeps o (modHlm s f) := keeps_update h

theorem ceWriteback_keeps {s : State} {tm : Bool} {word : Nat} (h : Keeps o s) : Keeps o (ceWriteback s tm word) := by
  unfold ceWriteback
  split
  · exact modHlm_keeps h
  · exact rinc_keeps h

theorem eccReport_keeps {s : State} {tm isAddr : Bool} {syndrome reader addr : Nat} (h : Keeps o s) : Keeps o
    (eccReport s tm isAddr syndrome reader addr) :=
  raiseEv_keeps (rolEvent_keeps (rolEvent_keeps (rolEvent_keeps (rolEvent_keeps (rolEvent_keeps (rolEvent_keeps
    (keeps_ite (rinc_keeps (rinc_keeps h)) (rinc_keeps h))))))))

theorem eccFatal_keeps {s : State} {r : Ref} (h : Keeps o s) : Keeps o (eccFatal s r) := by
  unfold eccFatal
  split
  · split
    · exact keeps_ite (keeps_ite (completeRow_keeps (stopWork_keeps h)) (complete_keeps (stopWork_keeps h))) h
    · exact h
  · exact h

theorem eccUncorrectable_keeps {s : State} {tm isAddr : Bool} {syndrome reader addr : Nat} {r : Option Ref} (h : Keeps
    o s) : Keeps o (eccUncorrectable s tm isAddr syndrome reader addr r) := by
  unfold eccUncorrectable
  dsimp only
  split
  · exact rowCause_keeps (eccReport_keeps h)
  · exact eccFatal_keeps (eccReport_keeps h)
  · exact eccFatal_keeps (eccReport_keeps h)
  · exact eccReport_keeps h

theorem setPass_keeps {s : State} {tm : Bool} {p : Pass} (h : Keeps o s) : Keeps o (setPass s tm p) := modHlm_keeps h

theorem weakRow_keeps {s : State} {row : Nat} (h : Keeps o s) : Keeps o (weakRow s row) :=
  keeps_ite h (keeps_ite (modHlm_keeps h) (raiseEv_keeps h))

theorem retirePage_keeps {s : State} {page : Nat} (h : Keeps o s) : Keeps o (retirePage s page) :=
  keeps_ite h (raiseEv_keeps (rset_keeps (modHlm_keeps h)))

theorem weakWord_keeps {s : State} {tm : Bool} {word : Nat} (h : Keeps o s) : Keeps o (weakWord s tm word) :=
  keeps_ite (weakRow_keeps h) (retirePage_keeps h)

theorem darnWord_keeps {s : State} {tm : Bool} {word cls syndrome : Nat} (h : Keeps o s) : Keeps o (darnWord s tm word
    cls syndrome) := by
  unfold darnWord
  dsimp only
  split
  · exact h
  · exact keeps_ite (weakWord_keeps (setPass_keeps (modHlm_keeps (rinc_keeps h)))) (setPass_keeps (modHlm_keeps
      (rinc_keeps h)))
  · exact keeps_ite (raiseEv_keeps (eccReport_keeps h)) (weakWord_keeps (eccReport_keeps h))

theorem passEnd_keeps {s : State} {tm : Bool} {p : Pass} (h : Keeps o s) : Keeps o (passEnd s tm p) :=
  setPass_keeps (keeps_ite (rinc_keeps (rinc_keeps h)) (rinc_keeps h))

theorem darnRead_keeps {s : State} {tm : Bool} {cls syndrome : Nat} (h : Keeps o s) : Keeps o (darnRead s tm cls
    syndrome) :=
  keeps_ite h (keeps_ite (passEnd_keeps (rset_keeps (setPass_keeps (darnWord_keeps h)))) (rset_keeps (setPass_keeps
    (darnWord_keeps h))))

theorem spareSwitch_keeps {s : State} {row : Nat} (h : Keeps o s) : Keeps o (spareSwitch s row) :=
  keeps_ite (raiseEv_keeps (rinc_keeps (modHlm_keeps h))) h

theorem lifeUpdate_keeps {s : State} (h : Keeps o s) : Keeps o (lifeUpdate s) :=
  keeps_ite (raiseEv_keeps (modHlm_keeps (rset_keeps (rset_keeps h)))) (rset_keeps (rset_keeps h))

theorem thermalSample_keeps {s : State} {x : Int} (h : Keeps o s) : Keeps o (thermalSample s x) := modHlm_keeps h

theorem tlmSample_keeps {s : State} {base plane die : Int} (h : Keeps o s) : Keeps o (tlmSample s base plane die) :=
  keeps_ite h (telemetryPut_keeps (lifeUpdate_keeps (modHlm_keeps h)))

theorem tellLimit_keeps {s : State} {kind inst item : Nat} (h : Keeps o s) : Keeps o (tellLimit s kind inst item) :=
  keeps_ite h (raiseEv_keeps (modHlm_keeps h))

theorem ageingMeasure_keeps {s : State} {m : AgeMeas} (h : Keeps o s) : Keeps o (ageingMeasure s m) :=
  keeps_ite h (lifeUpdate_keeps (keeps_ite (tellLimit_keeps (modHlm_keeps (monitorPut_keeps h))) (modHlm_keeps
    (monitorPut_keeps h))))

theorem setFloor_keeps {s : State} {new : Nat} (h : Keeps o s) : Keeps o (setFloor s new) :=
  marginChange_keeps (rset_keeps h)

theorem exhaust_keeps {s : State} {slack : Int} (h : Keeps o s) : Keeps o (exhaust s slack) :=
  keeps_ite (rset_keeps (keeps_ite h (raiseEv_keeps (marginPut_keeps (modHlm_keeps h))))) (keeps_ite h (raiseEv_keeps
    (marginPut_keeps (modHlm_keeps h))))

theorem floorStep_keeps {s : State} {slack : Int} (h : Keeps o s) : Keeps o (floorStep s slack) :=
  keeps_ite (keeps_ite (setFloor_keeps (modHlm_keeps h)) (exhaust_keeps (modHlm_keeps h))) (keeps_ite (keeps_ite
    (modHlm_keeps h) (keeps_ite (setFloor_keeps (modHlm_keeps h)) (modHlm_keeps h))) (modHlm_keeps h))

theorem roMeasure_keeps {s : State} {slacks : List Int} {offset : Nat} (h : Keeps o s) : Keeps o (roMeasure s slacks
    offset) :=
  keeps_ite h (keeps_ite (rset_keeps (floorStep_keeps (rsetS_keeps (foldl_keeps (fun _ _ hu => rsetS_keeps hu)
    (modHlm_keeps h))))) (rsetS_keeps (foldl_keeps (fun _ _ hu => rsetS_keeps hu) (modHlm_keeps h))))

theorem pendingRecord_keeps {s : State} {kind b old new : Nat} (h : Keeps o s) : Keeps o (pendingRecord s kind b old
    new) :=
  keeps_ite (marginPut_keeps h) h

theorem bankReplan_keeps {s : State} {b : Nat} (h : Keeps o s) : Keeps o (bankReplan s b) :=
  keeps_ite h (keeps_ite (modHlm_keeps h) (keeps_ite (derateSet_keeps (setDbk_keeps (modHlm_keeps h))) (setDbk_keeps
    (pendingRecord_keeps (pendingRecord_keeps (modHlm_keeps h))))))

theorem marginReset_keeps {s : State} {r : Ref} {d : Desc} (h : Keeps o s) : Keeps o (marginReset s r d) :=
  keeps_ite (complete_keeps h) (keeps_ite (complete_keeps h) (complete_keeps (keeps_ite (marginPut_keeps (setDbk_keeps
    h)) (derateSet_keeps (setDbk_keeps h)))))

theorem baseAbove_keeps {s : State} {t : Int} (h : Keeps o s) : Keeps o (baseAbove s t) :=
  keeps_ite (raiseEv_keeps (modHlm_keeps (modHlm_keeps h))) (modHlm_keeps h)

theorem baseBelow_keeps {s : State} {t : Int} (h : Keeps o s) : Keeps o (baseBelow s t) :=
  keeps_ite (raiseEv_keeps (modHlm_keeps (modHlm_keeps h))) (modHlm_keeps h)

theorem baseTempSample_keeps {s : State} {t : Int} (h : Keeps o s) : Keeps o (baseTempSample s t) :=
  keeps_ite h (lifeUpdate_keeps (keeps_ite (baseAbove_keeps (thermalSample_keeps (modHlm_keeps h))) (keeps_ite
    (baseBelow_keeps (thermalSample_keeps (modHlm_keeps h))) (modHlm_keeps (thermalSample_keeps (modHlm_keeps h))))))

theorem dramTemp_keeps {s : State} {above : Bool} (h : Keeps o s) : Keeps o (dramTemp s above) :=
  foldl_keeps (fun _ _ hu => rset_keeps (arbTo_keeps hu)) h

theorem execCeWriteback_keeps {t : Fc} {tm : Bool} {word : Nat} {s : State} (h : Keeps o s) : KeepsOut o
    (execCeWriteback t tm word s) :=
  atFabric_keeps (fun _ hu => ceWriteback_keeps hu) h

theorem execEccUncorrectable_keeps {t : Fc} {tm isAddr : Bool} {syndrome : Fin 128} {reader : Fin 5} {addr : Nat} {r :
    Option Ref} {s : State} (h : Keeps o s) : KeepsOut o (execEccUncorrectable t tm isAddr syndrome reader addr r s)
    :=
  atFabric_keeps (fun _ hu => eccUncorrectable_keeps hu) h

theorem execDarnRead_keeps {t : Fc} {tm : Bool} {cls : Fin 4} {syndrome : Fin 128} {s : State} (h : Keeps o s) :
    KeepsOut o (execDarnRead t tm cls syndrome s) :=
  atFabric_keeps (fun _ hu => darnRead_keeps hu) h

theorem execSpareRowSwitch_keeps {t : Fc} {row : Fin 16384} {s : State} (h : Keeps o s) : KeepsOut o
    (execSpareRowSwitch t row s) :=
  atFabric_keeps (fun _ hu => spareSwitch_keeps hu) h

theorem execTlmSample_keeps {t : Fc} {base plane die : Int} {s : State} (h : Keeps o s) : KeepsOut o (execTlmSample t
    base plane die s) :=
  atFabric_keeps (fun _ hu => tlmSample_keeps hu) h

theorem execAgeingMeasure_keeps {t : Fc} {m : AgeMeas} {s : State} (h : Keeps o s) : KeepsOut o (execAgeingMeasure t m
    s) :=
  atFabric_keeps (fun _ hu => ageingMeasure_keeps hu) h

theorem execRoMeasure_keeps {t : Fc} {slacks : List Int} {offset : Nat} {s : State} (h : Keeps o s) : KeepsOut o
    (execRoMeasure t slacks offset s) :=
  atFabric_keeps (fun _ hu => roMeasure_keeps hu) h

theorem execBankReplan_keeps {t : Fc} {bank : Fin 12} {s : State} (h : Keeps o s) : KeepsOut o (execBankReplan t bank
    s) :=
  atFabric_keeps (fun _ hu => bankReplan_keeps hu) h

theorem execMarginReset_keeps {t : Fc} {r : Ref} {s : State} (h : Keeps o s) : KeepsOut o (execMarginReset t r s) :=
  atFabric_keeps (fun _ hu => withDesc_keeps (fun _ _ hu1 => marginReset_keeps hu1) hu) h

theorem execBaseTempSample_keeps {t : Fc} {temp : Int} {s : State} (h : Keeps o s) : KeepsOut o (execBaseTempSample t
    temp s) :=
  atFabric_keeps (fun _ hu => baseTempSample_keeps hu) h

theorem execDramTempAbove85c_keeps {t : Fc} {above : Bool} {s : State} (h : Keeps o s) : KeepsOut o
    (execDramTempAbove85c t above s) :=
  atFabric_keeps (fun _ hu => dramTemp_keeps hu) h

/-! ### Registers -/

theorem fieldTake_keeps {s : State} {f : Fld} {i j : Nat} (h : Keeps o s) : Keeps o (fieldTake s f i j).2 := by
  unfold fieldTake
  split
  · exact h
  · split
    · exact rolRead_keeps h
    · exact h

theorem latchHigh_keeps {s : State} {hi : Fld} {i : Nat} (h : Keeps o s) : Keeps o (latchHigh s hi i) :=
  keeps_update (fieldTake_keeps h)

theorem fieldPair_keeps {s : State} {f : Fld} {i j : Nat} (h : Keeps o s) : Keeps o (fieldPair s f i j).2 := by
  unfold fieldPair
  split
  · exact keeps_update h
  · dsimp only
    split
    · exact latchHigh_keeps (fieldTake_keeps h)
    · exact fieldTake_keeps h

theorem readReg_keeps {s : State} {b : Blk} {inst off : Nat} (h : Keeps o s) : Keeps o (readReg s b inst off) := by
  unfold readReg
  exact keeps_ite (keeps_update (foldl_snd_keeps (fun _ _ hu => fieldPair_keeps hu) h)) (keeps_update h)

theorem noteEnabled_keeps {s : State} {cls n : Nat} {was now : Bool} (h : Keeps o s) : Keeps o (noteEnabled s cls n
    was now) :=
  keeps_ite (keeps_update h) h

theorem noteImp_keeps {s : State} {n : Nat} (h : Keeps o s) : Keeps o (noteImp s n) := keeps_ite h (setImp_keeps h)

theorem noteFrq_keeps {s0 s : State} {n : Nat} (h : Keeps o s) : Keeps o (noteFrq s0 s n) :=
  keeps_ite (setFrq_keeps h) h

theorem notePair_keeps {s0 s : State} {k : Nat} (h : Keeps o s) : Keeps o (notePair s0 s k) :=
  keeps_ite (setQuad_keeps h) h

theorem afterWrite_keeps {s0 : State} {f : Fld} {i j : Nat} {s : State} (h : Keeps o s) : Keeps o (afterWrite s0 f i j
    s) :=
  keeps_ite (noteImp_keeps (noteEnabled_keeps h)) (keeps_ite (notePair_keeps (noteFrq_keeps (noteEnabled_keeps h)))
    (keeps_ite (notePair_keeps h) (keeps_ite (noteEnabled_keeps h) (keeps_ite (noteEnabled_keeps h) (keeps_ite
    (foldl_keeps (fun _ _ hu => keeps_ite (setPps_keeps hu) hu) h) (keeps_ite (keeps_ite h (setDbk_keeps
    (setVbst_keeps h))) (keeps_ite (setVbst_keeps h) (keeps_ite (keeps_ite (pairJoin_keeps h) h) (keeps_ite (keeps_ite
    h (rset_keeps h)) (keeps_ite (trkRejudge_keeps h) (keeps_ite (navEnable_keeps h) (keeps_ite (trkSpacing_keeps h)
    (keeps_ite (cableWritten_keeps h) (keeps_ite (cableWritten_keeps h) (keeps_ite (keeps_ite (modSto_keeps h) h)
    (keeps_ite (panelView_keeps h) (keeps_ite (keeps_ite h (msixUnmask_keeps h)) (keeps_ite (keeps_ite (modAoc_keeps
    h) h) h))))))))))))))))))

theorem fieldWrite_keeps {s0 s : State} {f : Fld} {i j v : Nat} (h : Keeps o s) : Keeps o (fieldWrite s0 s f i j v) :=
  keeps_ite (afterWrite_keeps (rset_keeps h)) h

theorem writeReg_keeps {s : State} {b : Blk} {inst off v : Nat} (h : Keeps o s) : Keeps o (writeReg s b inst off v) :=
  keeps_ite (foldl_keeps (fun _ _ hu => fieldWrite_keeps hu) h) h

theorem clearReg_keeps {s : State} {b : Blk} {inst off v : Nat} (h : Keeps o s) : Keeps o (clearReg s b inst off v) :=
  keeps_ite (foldl_keeps (fun _ _ hu => keeps_ite (clearOnes_keeps hu) hu) h) h

theorem readRow_keeps {s : State} {b : Blk} {inst off size : Nat} {p : Fld → Bool} (h : Keeps o s) : Keeps o (readRow
    s b inst off size p) :=
  keeps_ite (keeps_update h) (keeps_ite (readReg_keeps h) h)

theorem execRegisterWrite_keeps {t : Fc} {b : Blk} {inst off : Nat} {v : Fin 4294967296} {size : Nat} {s : State} (h :
    Keeps o s) : KeepsOut o (execRegisterWrite t b inst off v size s) :=
  atTime_keeps (fun _ hu => keeps_ite (writeReg_keeps hu) hu) h

theorem execRw1cWrite_keeps {t : Fc} {b : Blk} {inst off : Nat} {v : Fin 4294967296} {size : Nat} {s : State} (h :
    Keeps o s) : KeepsOut o (execRw1cWrite t b inst off v size s) :=
  atTime_keeps (fun _ hu => keeps_ite (clearReg_keeps hu) hu) h

theorem execRolRead_keeps {t : Fc} {b : Blk} {inst off size : Nat} {s : State} (h : Keeps o s) : KeepsOut o
    (execRolRead t b inst off size s) :=
  atTime_keeps (fun _ hu => readRow_keeps hu) h

theorem execLoHalfRead_keeps {t : Fc} {b : Blk} {inst off size : Nat} {s : State} (h : Keeps o s) : KeepsOut o
    (execLoHalfRead t b inst off size s) :=
  atTime_keeps (fun _ hu => readRow_keeps hu) h

/-! ### The dispatch -/

/-- Whatever the command, its next state keeps. -/
theorem exec_keeps {s : State} (c : Instr) (h : Keeps o s) : KeepsOut o (exec c s) := by
  cases c with
  | arbRequest => exact execArbRequest_keeps h
  | arbRelease => exact execArbRelease_keeps h
  | tenureExpiry => exact execTenureExpiry_keeps h
  | arbWithdraw => exact execArbWithdraw_keeps h
  | emergencyRequest => exact execEmergencyRequest_keeps h
  | emergencyGrantEnd => exact execEmergencyGrantEnd_keeps h
  | clearCounts => exact execClearCounts_keeps h
  | registerWrite => exact execRegisterWrite_keeps h
  | rw1cWrite => exact execRw1cWrite_keeps h
  | rolRead => exact execRolRead_keeps h
  | loHalfRead => exact execLoHalfRead_keeps h
  | ringEnable => exact execRingEnable_keeps h
  | ringDisable => exact execRingDisable_keeps h
  | cqEnable => exact execCqEnable_keeps h
  | cqDisable => exact execCqDisable_keeps h
  | queueEnable => exact execQueueEnable_keeps h
  | queueHeadWrite => exact execQueueHeadWrite_keeps h
  | tailDb => exact execTailDb_keeps h
  | abortDb => exact execAbortDb_keeps h
  | headDb => exact execHeadDb_keeps h
  | descriptorFetch => exact execDescriptorFetch_keeps h
  | tillAccept => exact execTillAccept_keeps h
  | tillOutputWrite => exact execTillOutputWrite_keeps h
  | completionWrite => exact execCompletionWrite_keeps h
  | cqDelayExpiry => exact execCqDelayExpiry_keeps h
  | hostLinkDown => exact execHostLinkDown_keeps h
  | tickEdge => exact execTickEdge_keeps h
  | gatherGroup => exact execGatherGroup_keeps h
  | estimate => exact execEstimate_keeps h
  | regionSelect => exact execRegionSelect_keeps h
  | solve => exact execSolve_keeps h
  | loop => exact execLoop_keeps h
  | stageDrive => exact execStageDrive_keeps h
  | stageSwitch => exact execStageSwitch_keeps h
  | compute => exact execCompute_keeps h
  | canStage => exact execCanStage_keeps h
  | mirror => exact execMirror_keeps h
  | lockstepMismatch => exact execLockstepMismatch_keeps h
  | commitPoint => exact execCommitPoint_keeps h
  | tillFlush => exact execTillFlush_keeps h
  | patternLoad => exact execPatternLoad_keeps h
  | patternAdmission => exact execPatternAdmission_keeps h
  | tableSet => exact execTableSet_keeps h
  | tableSetCheck => exact execTableSetCheck_keeps h
  | promote => exact execPromote_keeps h
  | tkeArm => exact execTkeArm_keeps h
  | tkeDisarm => exact execTkeDisarm_keeps h
  | rrecHeadWrite => exact execRrecHeadWrite_keeps h
  | qualPost => exact execQualPost_keeps h
  | envelopeSet => exact execEnvelopeSet_keeps h
  | calSet => exact execCalSet_keeps h
  | clsSelect => exact execClsSelect_keeps h
  | impactPulseOpen => exact execImpactPulseOpen_keeps h
  | impactPulseClose => exact execImpactPulseClose_keeps h
  | impactStuck => exact execImpactStuck_keeps h
  | frqEdge => exact execFrqEdge_keeps h
  | quadEdge => exact execQuadEdge_keeps h
  | quadZero => exact execQuadZero_keeps h
  | digDebounceExpiry => exact execDigDebounceExpiry_keeps h
  | excFault => exact execExcFault_keeps h
  | ssupFaultOff => exact execSsupFaultOff_keeps h
  | ssupRestart => exact execSsupRestart_keeps h
  | ssupEnable => exact execSsupEnable_keeps h
  | converterSwap => exact execConverterSwap_keeps h
  | ztSettleExpiry => exact execZtSettleExpiry_keeps h
  | ztWindowEnd => exact execZtWindowEnd_keeps h
  | drvProfile => exact execDrvProfile_keeps h
  | drvProp => exact execDrvProp_keeps h
  | drvOff => exact execDrvOff_keeps h
  | drvClear => exact execDrvClear_keeps h
  | boostRequest => exact execBoostRequest_keeps h
  | boostGapExpiry => exact execBoostGapExpiry_keeps h
  | boostWaitExpiry => exact execBoostWaitExpiry_keeps h
  | boostCurrentReached => exact execBoostCurrentReached_keeps h
  | tBoostExpiry => exact execTBoostExpiry_keeps h
  | tPeakExpiry => exact execTPeakExpiry_keeps h
  | profileEndTime => exact execProfileEndTime_keeps h
  | decayEnd => exact execDecayEnd_keeps h
  | movementDetected => exact execMovementDetected_keeps h
  | holdFloorHit => exact execHoldFloorHit_keeps h
  | shotDue => exact execShotDue_keeps h
  | offDiagSample => exact execOffDiagSample_keeps h
  | drvChFault => exact execDrvChFault_keeps h
  | drvOnOpenLoad => exact execDrvOnOpenLoad_keeps h
  | dbkBankFault => exact execDbkBankFault_keeps h
  | bankCheck => exact execBankCheck_keeps h
  | derateApply => exact execDerateApply_keeps h
  | swSet => exact execSwSet_keeps h
  | swRearm => exact execSwRearm_keeps h
  | wireModelUpdate => exact execWireModelUpdate_keeps h
  | inrushExpiry => exact execInrushExpiry_keeps h
  | thermLatchSet => exact execThermLatchSet_keeps h
  | thermLatchClear => exact execThermLatchClear_keeps h
  | feedUv => exact execFeedUv_keeps h
  | uvRestartDelayExpiry => exact execUvRestartDelayExpiry_keeps h
  | uvRestartStep => exact execUvRestartStep_keeps h
  | retryRestart => exact execRetryRestart_keeps h
  | retryWindowEnd => exact execRetryWindowEnd_keeps h
  | openLoadDetect => exact execOpenLoadDetect_keeps h
  | planeShed => exact execPlaneShed_keeps h
  | shedRestore => exact execShedRestore_keeps h
  | heartbeatRx => exact execHeartbeatRx_keeps h
  | mirrorRx => exact execMirrorRx_keeps h
  | commitRx => exact execCommitRx_keeps h
  | takeoverRx => exact execTakeoverRx_keeps h
  | fenceAckRx => exact execFenceAckRx_keeps h
  | healthRx => exact execHealthRx_keeps h
  | resyncRx => exact execResyncRx_keeps h
  | serviceRx => exact execServiceRx_keeps h
  | xlkBadFrame => exact execXlkBadFrame_keeps h
  | xlkLinkUp => exact execXlkLinkUp_keeps h
  | healthTx => exact execHealthTx_keeps h
  | startingListenExpiry => exact execStartingListenExpiry_keeps h
  | shadowRow => exact execShadowRow_keeps h
  | forwardConfirmTimeout => exact execForwardConfirmTimeout_keeps h
  | pairHandover => exact execPairHandover_keeps h
  | handoverTimeout => exact execHandoverTimeout_keeps h
  | ppsArm => exact execPpsArm_keeps h
  | ppsDisarm => exact execPpsDisarm_keeps h
  | safeNow => exact execSafeNow_keeps h
  | clearBid => exact execClearBid_keeps h
  | holdingTimeout => exact execHoldingTimeout_keeps h
  | holdWindowExpiry => exact execHoldWindowExpiry_keeps h
  | navSearch => exact execNavSearch_keeps h
  | acqSearchDone => exact execAcqSearchDone_keeps h
  | rtcmIn => exact execRtcmIn_keeps h
  | channelLockLoss => exact execChannelLockLoss_keeps h
  | navFilterStep => exact execNavFilterStep_keeps h
  | timeSolution => exact execTimeSolution_keeps h
  | leapDecode => exact execLeapDecode_keeps h
  | holdoverEntry => exact execHoldoverEntry_keeps h
  | pulseBoundary => exact execPulseBoundary_keeps h
  | slewComplete => exact execSlewComplete_keeps h
  | drTimeout => exact execDrTimeout_keeps h
  | corrAgeExpiry => exact execCorrAgeExpiry_keeps h
  | antOpen => exact execAntOpen_keeps h
  | antShort => exact execAntShort_keeps h
  | antSupplyRetry => exact execAntSupplyRetry_keeps h
  | navSave => exact execNavSave_keeps h
  | mapExtract => exact execMapExtract_keeps h
  | tileLoadDone => exact execTileLoadDone_keeps h
  | tileFlushDue => exact execTileFlushDue_keeps h
  | tileFlushDone => exact execTileFlushDone_keeps h
  | tileLoad => exact execTileLoad_keeps h
  | tileWrite => exact execTileWrite_keeps h
  | tileFlush => exact execTileFlush_keeps h
  | storeRead => exact execStoreRead_keeps h
  | storeWrite => exact execStoreWrite_keeps h
  | storeLifePoll => exact execStoreLifePoll_keeps h
  | tileRefresh => exact execTileRefresh_keeps h
  | writeInline => exact execWriteInline_keeps h
  | jrnWrite => exact execJrnWrite_keeps h
  | jrnRead => exact execJrnRead_keeps h
  | jovfCopy => exact execJovfCopy_keeps h
  | camEnable => exact execCamEnable_keeps h
  | camDisable => exact execCamDisable_keeps h
  | camFs => exact execCamFs_keeps h
  | camLine => exact execCamLine_keeps h
  | camFe => exact execCamFe_keeps h
  | camLinkLost => exact execCamLinkLost_keeps h
  | camBufferFull => exact execCamBufferFull_keeps h
  | camPowerFault => exact execCamPowerFault_keeps h
  | fsyncTrigger => exact execFsyncTrigger_keeps h
  | ispFrameStart => exact execIspFrameStart_keeps h
  | ispFrameDone => exact execIspFrameDone_keeps h
  | capture => exact execCapture_keeps h
  | sensorWrite => exact execSensorWrite_keeps h
  | sensorBurstDone => exact execSensorBurstDone_keeps h
  | ispParams => exact execIspParams_keeps h
  | vxaRun => exact execVxaRun_keeps h
  | vxaJobDone => exact execVxaJobDone_keeps h
  | canEnable => exact execCanEnable_keeps h
  | send => exact execSend_keeps h
  | canTxbFetch => exact execCanTxbFetch_keeps h
  | canTxSelect => exact execCanTxSelect_keeps h
  | canTxSuccess => exact execCanTxSuccess_keeps h
  | canArbLoss => exact execCanArbLoss_keeps h
  | canTxError => exact execCanTxError_keeps h
  | canRx => exact execCanRx_keeps h
  | canBusOff => exact execCanBusOff_keeps h
  | recover => exact execRecover_keeps h
  | canRecovered => exact execCanRecovered_keeps h
  | ethTx => exact execEthTx_keeps h
  | ethTxDone => exact execEthTxDone_keeps h
  | ethRx => exact execEthRx_keeps h
  | gptpMessage => exact execGptpMessage_keeps h
  | ethLinkDown => exact execEthLinkDown_keeps h
  | tc10Sleep => exact execTc10Sleep_keeps h
  | tc10Wake => exact execTc10Wake_keeps h
  | tc10WakeRx => exact execTc10WakeRx_keeps h
  | fleEnable => exact execFleEnable_keeps h
  | fleDisable => exact execFleDisable_keeps h
  | peerSet => exact execPeerSet_keeps h
  | peerSetTimeout => exact execPeerSetTimeout_keeps h
  | sessionHandshake => exact execSessionHandshake_keeps h
  | sessionRetry => exact execSessionRetry_keeps h
  | keepaliveDue => exact execKeepaliveDue_keeps h
  | peerTimeout => exact execPeerTimeout_keeps h
  | certExpiry => exact execCertExpiry_keeps h
  | deltaRx => exact execDeltaRx_keeps h
  | announceRx => exact execAnnounceRx_keeps h
  | statusRx => exact execStatusRx_keeps h
  | summaryRx => exact execSummaryRx_keeps h
  | certReqRx => exact execCertReqRx_keeps h
  | byeRx => exact execByeRx_keeps h
  | keepaliveRx => exact execKeepaliveRx_keeps h
  | pubDue => exact execPubDue_keeps h
  | strikeDecay => exact execStrikeDecay_keeps h
  | evictHoldExpiry => exact execEvictHoldExpiry_keeps h
  | behindCatchUp => exact execBehindCatchUp_keeps h
  | statusPublish => exact execStatusPublish_keeps h
  | memberEvict => exact execMemberEvict_keeps h
  | publishNow => exact execPublishNow_keeps h
  | pnlEnable => exact execPnlEnable_keeps h
  | pnlDisable => exact execPnlDisable_keeps h
  | update => exact execUpdate_keeps h
  | pnlClear => exact execPnlClear_keeps h
  | lineWriteStart => exact execLineWriteStart_keeps h
  | lineWriteDone => exact execLineWriteDone_keeps h
  | pnlTempSample => exact execPnlTempSample_keeps h
  | vcomToggle => exact execVcomToggle_keeps h
  | crackMeasure => exact execCrackMeasure_keeps h
  | panelCrackClear => exact execPanelCrackClear_keeps h
  | panelSupplyFault => exact execPanelSupplyFault_keeps h
  | logicQualified => exact execLogicQualified_keeps h
  | castOn => exact execCastOn_keeps h
  | hostReady => exact execHostReady_keeps h
  | powerFail => exact execPowerFail_keeps h
  | aonLoss => exact execAonLoss_keeps h
  | ignHigh => exact execIgnHigh_keeps h
  | pwrIgnOff => exact execPwrIgnOff_keeps h
  | bindStart => exact execBindStart_keeps h
  | bindNow => exact execBindNow_keeps h
  | bindTileTimeout => exact execBindTileTimeout_keeps h
  | go => exact execGo_keeps h
  | entryDrainEnd => exact execEntryDrainEnd_keeps h
  | suspendReady => exact execSuspendReady_keeps h
  | suspendTimeout => exact execSuspendTimeout_keeps h
  | trimEnter => exact execTrimEnter_keeps h
  | trimExit => exact execTrimExit_keeps h
  | wakeEvent => exact execWakeEvent_keeps h
  | deepDescent => exact execDeepDescent_keeps h
  | aocReset => exact execAocReset_keeps h
  | watchdogKick => exact execWatchdogKick_keeps h
  | watchdogExpiry => exact execWatchdogExpiry_keeps h
  | credSet => exact execCredSet_keeps h
  | pubkeyGet => exact execPubkeyGet_keeps h
  | lcChange => exact execLcChange_keeps h
  | updOpen => exact execUpdOpen_keeps h
  | updBlock => exact execUpdBlock_keeps h
  | updClose => exact execUpdClose_keeps h
  | activate => exact execActivate_keeps h
  | activateCopyDone => exact execActivateCopyDone_keeps h
  | activationReset => exact execActivationReset_keeps h
  | confirm => exact execConfirm_keeps h
  | ppsApply => exact execPpsApply_keeps h
  | ppsApplyDone => exact execPpsApplyDone_keeps h
  | updCancel => exact execUpdCancel_keeps h
  | ceWriteback => exact execCeWriteback_keeps h
  | eccUncorrectable => exact execEccUncorrectable_keeps h
  | darnRead => exact execDarnRead_keeps h
  | spareRowSwitch => exact execSpareRowSwitch_keeps h
  | tlmSample => exact execTlmSample_keeps h
  | ageingMeasure => exact execAgeingMeasure_keeps h
  | roMeasure => exact execRoMeasure_keeps h
  | bankReplan => exact execBankReplan_keeps h
  | marginReset => exact execMarginReset_keeps h
  | baseTempSample => exact execBaseTempSample_keeps h
  | hostLinkUp => exact execHostLinkUp_keeps h
  | xlkLinkDown => exact execXlkLinkDown_keeps h
  | camLinkUp => exact execCamLinkUp_keeps h
  | ethLinkUp => exact execEthLinkUp_keeps h
  | planeSupervisorPowerLoss => exact execPlaneSupervisorPowerLoss_keeps h
  | planeSupervisorPowerUp => exact execPlaneSupervisorPowerUp_keeps h
  | dramTempAbove85c => exact execDramTempAbove85c_keeps h
  | storeAccessDone => exact execStoreAccessDone_keeps h
  | jrnAccessDone => exact execJrnAccessDone_keeps h
  | updCloseDone => exact execUpdCloseDone_keeps h
  | writeBudgetDayEnd => exact execWriteBudgetDayEnd_keeps h
  | openLoadClear => exact execOpenLoadClear_keeps h
  | inLimit => exact execInLimit_keeps h
  | canRxError => exact execCanRxError_keeps h
  | tc10SleepAck => exact execTc10SleepAck_keeps h
  | logicThrottle => exact execLogicThrottle_keeps h

/-- What a step does to the queue: the front command is gone, and its next state keeps the state without it. -/
theorem step_keeps {s u : State} (h : step s = .next u) : Keeps { s with pending := s.pending.drop 1 } u := by
  unfold step at h
  split at h
  next hempty =>
    obtain rfl := Host.Outcome.next.inj h
    exact ⟨by simp [hempty], Nat.le_refl _, id⟩
  next c rest hqueue =>
    rw [hqueue]
    exact exec_keeps c (Keeps.refl _) u h

/-- Settles O3: a step keeps the canonical form of the state without its front command. -/
theorem stepKeepsCanonicalForm : Obligations.StepKeepsCanonicalForm := by
  unfold Obligations.StepKeepsCanonicalForm
  intro s u hcanonical hstep
  obtain ⟨-, -, hkeeps⟩ := step_keeps hstep
  exact hkeeps hcanonical

/-- Settles O4. -/
theorem queueTakenInOrder : Obligations.QueueTakenInOrder := by
  unfold Obligations.QueueTakenInOrder
  intro s u hstep
  obtain ⟨hqueue, hnow, -⟩ := step_keeps hstep
  exact ⟨hqueue, hnow⟩

end Sys2Proof.Machine
end

section
/-! The arbiters (R27–R41): what the commands tell an arbiter, and what the cycle in which it stands then grants.
`ArbOnly` is the frame of everything done at an arbiter; the till's emergency port adds the till (`TillOnly`). -/

namespace Sys2Proof.Machine

/-! ### Frames -/

/-- Only arbiter instances, their registers but for the limits in force, and the latches of their peak fields have
changed. -/
structure ArbOnly (s u : State) : Prop where
  frame : u = { s with regs := u.regs, arbs := u.arbs, rolLatch := u.rolLatch }
  blocks : BlocksOnly s u [.arb]
  limits : ∀ k, arbLim u k = arbLim s k

theorem ArbOnly.refl (s : State) : ArbOnly s s := ⟨rfl, fun _ _ => rfl, fun _ => rfl⟩

theorem ArbOnly.trans {s u v : State} (h : ArbOnly s u) (k : ArbOnly u v) : ArbOnly s v := by
  refine ⟨?_, h.blocks.trans k.blocks, fun n => (k.limits n).trans (h.limits n)⟩
  rw [k.frame, h.frame]

theorem setArb_arbOnly (s : State) (n : Nat) (a : Arb) : ArbOnly s (setArb s n a) :=
  ⟨rfl, fun _ _ => rfl, fun k => arbLim_setArb s n k a⟩

/-- The fields that hold the limits in force. -/
def limitFields : List Nat :=
  [R.ARB_LIMITS_TENURE_MAX.id, R.ARB_LIMITS_EMERG_MAX.id, R.ARB_EMERG_EMERG_SPACING.id, R.ARB_EMERG_EMERG_ENABLED.id]

theorem rset_arbOnly (s : State) {f : Fld} (v i j : Nat) (h : f.id / 128 = blkCode .arb) (hf : f.id ∉ limitFields) :
    ArbOnly s (rset s f v i j) :=
  ⟨rfl, rset_blocksOnly s f v i j (by simp [keyBlk_key, h]), fun k => arbLim_rset s v i j k hf⟩

theorem rolPeakAt_arbOnly (fc : Nat) (s : State) (f : Fld) (v i : Nat) : ArbOnly s (rolPeakAt fc s f v i) :=
  ⟨rfl, fun _ _ => rfl, fun _ => rfl⟩

theorem arbTo_arbOnly (s : State) (n c : Nat) : ArbOnly s (arbTo s n c) :=
  ((setArb_arbOnly s n _).trans (rset_arbOnly _ _ _ _ rfl (by decide))).trans (rset_arbOnly _ _ _ _ rfl (by decide))

/-- What holds of the start and is kept by every step holds of the result of a fold. -/
theorem foldl_invariant {α β : Type} {P : β → Prop} {f : β → α → β} {l : List α} {b : β} (h : P b)
    (hf : ∀ b, ∀ a ∈ l, P b → P (f b a)) : P (l.foldl f b) := by
  induction l generalizing b with
  | nil => exact h
  | cons a l ih =>
    exact ih (hf b a (List.mem_cons_self ..) h) fun b x hx => hf b x (List.mem_cons_of_mem a hx)

theorem arbTickets_arbOnly (s : State) (n : Nat) : ArbOnly s (arbTickets s n) := by
  unfold arbTickets
  refine foldl_invariant (setArb_arbOnly s n _) fun u p _ hu => hu.trans ?_
  extract_lets a t fresh
  split
  · exact (setArb_arbOnly u n _).trans (rolPeakAt_arbOnly _ _ _ _ _)
  · exact ArbOnly.refl u

theorem arbTell_arbOnly (s : State) (n c : Nat) (f : ArbEv → ArbEv) : ArbOnly s (arbTell s n c f) :=
  ((arbTo_arbOnly s n c).trans (setArb_arbOnly _ n _)).trans (arbTickets_arbOnly _ n)

theorem arbEmergency_arbOnly (s : State) (n c : Nat) : ArbOnly s (arbEmergency s n c) := by
  unfold arbEmergency
  split
  · exact arbTell_arbOnly s n c _
  · exact ArbOnly.refl s

theorem arbRequest_arbOnly (s : State) (n c : Nat) (ps : List Nat) : ArbOnly s (arbRequest s n c ps) := by
  unfold arbRequest
  exact arbTell_arbOnly s n c _

theorem arbWithdraw_arbOnly (s : State) (n c p : Nat) : ArbOnly s (arbWithdraw s n c p) := by
  unfold arbWithdraw
  exact arbTell_arbOnly s n c _

theorem arbRelease_arbOnly (s : State) (n c : Nat) : ArbOnly s (arbRelease s n c) := by
  unfold arbRelease
  exact arbTell_arbOnly s n c _

theorem arbExpire_arbOnly (s : State) (n c : Nat) : ArbOnly s (arbExpire s n c) := by
  unfold arbExpire
  exact arbTell_arbOnly s n c _

theorem arbEmergencyEnd_arbOnly (s : State) (n c : Nat) : ArbOnly s (arbEmergencyEnd s n c) := by
  unfold arbEmergencyEnd
  exact arbTell_arbOnly s n c _

theorem ArbOnly.sameMemory {s u : State} (h : ArbOnly s u) : SameMemory s u := by
  rw [h.frame]
  exact ⟨rfl, rfl⟩

theorem ArbOnly.vis {s u : State} (h : ArbOnly s u) : u.vis = s.vis := by rw [h.frame]
theorem ArbOnly.xlk {s u : State} (h : ArbOnly s u) : u.xlk = s.xlk := by rw [h.frame]
theorem ArbOnly.reqs {s u : State} (h : ArbOnly s u) : u.reqs = s.reqs := by rw [h.frame]
theorem ArbOnly.till {s u : State} (h : ArbOnly s u) : u.till = s.till := by rw [h.frame]

/-- Beside what an arbiter changes, only the till and its registers have changed. -/
structure TillOnly (s u : State) : Prop where
  frame : u = { s with regs := u.regs, arbs := u.arbs, rolLatch := u.rolLatch, till := u.till }
  blocks : BlocksOnly s u [.arb, .til]
  limits : ∀ k, arbLim u k = arbLim s k

theorem TillOnly.refl (s : State) : TillOnly s s := ⟨rfl, fun _ _ => rfl, fun _ => rfl⟩

theorem TillOnly.trans {s u v : State} (h : TillOnly s u) (k : TillOnly u v) : TillOnly s v := by
  refine ⟨?_, h.blocks.trans k.blocks, fun n => (k.limits n).trans (h.limits n)⟩
  rw [k.frame, h.frame]

theorem ArbOnly.tillOnly {s u : State} (h : ArbOnly s u) : TillOnly s u := by
  refine ⟨?_, h.blocks.mono (by simp), h.limits⟩
  rw [h.frame]

theorem till_tillOnly (s : State) (l : Till) : TillOnly s { s with till := l } := ⟨rfl, fun _ _ => rfl, fun _ => rfl⟩

theorem rset_tillOnly (s : State) {f : Fld} (v i j : Nat) (h : f.id / 128 = blkCode .til) (hf : f.id ∉ limitFields) :
    TillOnly s (rset s f v i j) :=
  ⟨rfl, rset_blocksOnly s f v i j (by simp [keyBlk_key, h]), fun k => arbLim_rset s v i j k hf⟩

theorem TillOnly.sameMemory {s u : State} (h : TillOnly s u) : SameMemory s u := by
  rw [h.frame]
  exact ⟨rfl, rfl⟩

theorem TillOnly.now {s u : State} (h : TillOnly s u) : u.now = s.now := by rw [h.frame]
theorem TillOnly.reqs {s u : State} (h : TillOnly s u) : u.reqs = s.reqs := by rw [h.frame]

theorem fenceAsk_arbOnly (s : State) (c : Nat) : ArbOnly s (fenceAsk s c) := by
  unfold fenceAsk
  dsimp only
  split
  · exact setArb_arbOnly s 0 _
  · exact ArbOnly.refl s

theorem fenceNext_tillOnly (s : State) (sup : Nat) : TillOnly s (fenceNext s sup) := by
  unfold fenceNext
  split
  · exact till_tillOnly s _
  · exact TillOnly.refl s

theorem fenceServe_tillOnly (s : State) (c : Nat) : TillOnly s (fenceServe s c) := by
  unfold fenceServe
  split
  · exact (((till_tillOnly s _).trans (rset_tillOnly _ _ _ _ rfl (by decide))).trans (fenceNext_tillOnly _ _)).trans
      (fenceAsk_arbOnly _ _).tillOnly
  · exact TillOnly.refl s

theorem fenceRun_tillOnly (s : State) (c : Nat) : TillOnly s (fenceRun s c) := by
  unfold fenceRun
  split
  · refine TillOnly.trans ?_ (till_tillOnly _ _)
    exact foldl_invariant (TillOnly.refl s) fun u i _ hu => hu.trans (fenceServe_tillOnly u _)
  · exact TillOnly.refl s

theorem tillRuns_tillOnly (c n : Nat) (s : State) : TillOnly s (tillRuns c n s) := by
  induction n generalizing s with
  | zero => exact TillOnly.refl s
  | succ n ih =>
    have hto := (arbTo_arbOnly s 0 c).tillOnly
    unfold tillRuns
    dsimp only
    split
    · split
      · exact hto
      · exact ((hto.trans (till_tillOnly _ _)).trans (fenceRun_tillOnly _ c)).trans (ih _)
    · exact hto

theorem tillTo_tillOnly (s : State) (c : Nat) : TillOnly s (tillTo s c) :=
  (fenceRun_tillOnly s c).trans (tillRuns_tillOnly c _ _)

theorem arbAt_tillOnly (s : State) (n c : Nat) : TillOnly s (arbAt s n c) := by
  unfold arbAt
  split
  · exact tillTo_tillOnly s c
  · exact TillOnly.refl s

/-! ### What an arbiter has been told -/

theorem tblGet?_filter_none {α : Type} (t : Tbl α) {q : Nat → Bool} {p : Nat} (h : q p = false) :
    tblGet? (t.filter fun x => q x.1) p = none := by
  induction t with
  | nil => rfl
  | cons x t ih =>
    rw [List.filter_cons]
    split
    case isTrue hx =>
      have hne : x.1 ≠ p := fun e => by simp [e, h] at hx
      obtain ⟨k, v⟩ := x
      simp only [tblGet?] at *
      rw [if_neg (Ne.symm hne)]
      exact ih
    case isFalse => exact ih

/-- An arbiter with other tickets. -/
def Arb.withTickets (a : Arb) (tk : Tbl (Option Nat)) : Arb := { a with tickets := tk }

/-- An arbiter that has been told more in its cycle. -/
def Arb.told (a : Arb) (f : ArbEv → ArbEv) : Arb := { a with ev := f a.ev }

/-- Issuing tickets changes nothing of the arbiter but its tickets, and only requesters that wait hold one. -/
theorem getArb_arbTickets (s : State) (n : Nat) :
    ∃ tk, getArb (arbTickets s n) n = (getArb s n).withTickets tk ∧ ∀ p ∉ (arbNow s n).want, tblGet? tk p = none := by
  unfold arbTickets
  refine foldl_invariant (P := fun u => ∃ tk, getArb u n = (getArb s n).withTickets tk ∧
      ∀ p ∉ (arbNow s n).want, tblGet? tk p = none) ?_ ?_
  · refine ⟨(getArb s n).tickets.filter fun x => (arbNow s n).want.contains x.1, ?_, fun p hp => ?_⟩
    · rw [getArb_setArb, if_pos rfl]
      rfl
    · exact tblGet?_filter_none _ (q := fun k => (arbNow s n).want.contains k) (by simpa using hp)
  · rintro u p hp ⟨tk, hu, htk⟩
    extract_lets a t fresh
    split
    · refine ⟨tblSet tk p (if t < 65535 then some (a.cyc + t) else none), ?_, fun q hq => ?_⟩
      · change getArb (setArb u n _) n = _
        rw [getArb_setArb, if_pos rfl]
        simp only [a, hu]
        rfl
      · rw [tblGet?_set_ne tk _ (fun e : q = p => hq (e ▸ hp))]
        exact htk q hq
    · exact ⟨tk, hu, htk⟩

theorem arbLim_arbTickets (s : State) (n k : Nat) : arbLim (arbTickets s n) k = arbLim s k :=
  (arbTickets_arbOnly s n).limits k

theorem arbLim_arbTell (s : State) (n c k : Nat) (f : ArbEv → ArbEv) : arbLim (arbTell s n c f) k = arbLim s k :=
  (arbTell_arbOnly s n c f).limits k

theorem arbL_eq (s : State) (n : Nat) : arbL s n = (arbLim s n).l := rfl

/-- What an arbiter holds once it has been told something: what it held when it reached the cycle, and what it has
been told; only a requester that waits holds a ticket. -/
theorem getArb_arbTell (s : State) (n c : Nat) (f : ArbEv → ArbEv) :
    ∃ tk, getArb (arbTell s n c f) n = ((getArb (arbTo s n c) n).told f).withTickets tk ∧
      ∀ p ∉ (arbNow (arbTell s n c f) n).want, tblGet? tk p = none := by
  unfold arbTell
  obtain ⟨tk, hget, htk⟩ := getArb_arbTickets (setArb (arbTo s n c) n ((getArb (arbTo s n c) n).told f)) n
  rw [getArb_setArb, if_pos rfl] at hget
  refine ⟨tk, hget, fun p hp => htk p ?_⟩
  have hnow (u : State) : arbNow u n = (getArb u n).inCycle (arbLim u n).l := rfl
  change p ∉ (arbNow (arbTickets (setArb (arbTo s n c) n ((getArb (arbTo s n c) n).told f)) n) n).want at hp
  rw [hnow, hget, arbLim_arbTickets] at hp
  rw [hnow, getArb_setArb, if_pos rfl]
  exact hp

theorem getArb_arbTell_ev (s : State) (n c : Nat) (f : ArbEv → ArbEv) :
    (getArb (arbTell s n c f) n).ev = f (getArb (arbTo s n c) n).ev := by
  obtain ⟨tk, h, -⟩ := getArb_arbTell s n c f
  rw [h]
  rfl

theorem getArb_arbTell_cyc (s : State) (n c : Nat) (f : ArbEv → ArbEv) :
    (getArb (arbTell s n c f) n).cyc = (getArb (arbTo s n c) n).cyc := by
  obtain ⟨tk, h, -⟩ := getArb_arbTell s n c f
  rw [h]
  rfl

/-- An arbiter brought to a cycle does not stand before it. -/
theorem le_getArb_arbTo_cyc (s : State) (n c : Nat) : c ≤ (getArb (arbTo s n c) n).cyc := by
  obtain h | h := Nat.le_total (getArb s n).cyc c
  · exact Nat.le_of_eq (getArb_arbTo_cyc h).symm
  · rw [getArb_arbTo, arbReach, Arb.runTo_of_le h]
    exact h

/-! ### An arbiter that stands in the command's cycle -/

theorem getArb_arbTo_here {s : State} {n c : Nat} (h : (getArb s n).cyc = c) : getArb (arbTo s n c) n = getArb s n := by
  rw [getArb_arbTo, arbReach, Arb.runTo_of_le (Nat.le_of_eq h.symm)]

/-- Told something in its own cycle, an arbiter grants in that cycle what follows from it alone. -/
theorem arbNow_arbTell {s : State} {n c : Nat} (h : (getArb s n).cyc = c) (f : ArbEv → ArbEv) :
    arbNow (arbTell s n c f) n = ((getArb s n).told f).inCycle (arbLim s n).l := by
  obtain ⟨tk, hget, -⟩ := getArb_arbTell s n c f
  rw [getArb_arbTo_here h] at hget
  unfold arbNow
  rw [arbL_eq, arbLim_arbTell, hget]
  rfl

/-- The state in which the next cycle begins is what the close of the present one leaves. -/
theorem Arb.runTo_succ_st (a : Arb) (m : ArbLim) : (Arb.runTo m (a.cyc + 1) a.fuel a).1.st = (a.close m).st := by
  rw [Arb.fuel, Arb.runTo_of_lt (Nat.lt_succ_self a.cyc), Arb.runTo_of_le (Nat.le_of_eq (a.onward_cyc_succ m).symm),
    Arb.onward, if_pos (Nat.le_refl _)]
  rfl

/-- Told something in its own cycle, an arbiter begins the next one as the close of the present one leaves it. -/
theorem arbReach_arbTell {s : State} {n c : Nat} (h : (getArb s n).cyc = c) (f : ArbEv → ArbEv) :
    (arbReach (arbTell s n c f) n (c + 1)).1.st = (((getArb s n).told f).close (arbLim s n)).st ∧
      (arbReach (arbTell s n c f) n (c + 1)).2 =
        (b2n (((getArb s n).told f).close (arbLim s n)).preempt, b2n (((getArb s n).told f).close (arbLim s n)).dead) := by
  obtain ⟨tk, hget, -⟩ := getArb_arbTell s n c f
  rw [getArb_arbTo_here h] at hget
  rw [arbReach, arbLim_arbTell, hget]
  subst h
  exact ⟨Arb.runTo_succ_st (((getArb s n).told f).withTickets tk) _,
    Arb.runTo_succ_counts (((getArb s n).told f).withTickets tk) _⟩

/-! ### The commands at an arbiter (R28–R35) -/

theorem exec_arbRequest {s : State} (t : Nat) (n : Fin 22) (ps : List Nat) (h : s.fabric = true) :
    exec (.arbRequest t n ps) s = .next (arbRequest (arbAt s n t) n t ps) := by
  change execArbRequest t n ps s = _
  rw [execArbRequest, if_pos h]

theorem exec_arbWithdraw {s : State} (t : Nat) (n : Fin 22) (p : Nat) (h : s.fabric = true) :
    exec (.arbWithdraw t n p) s = .next (arbWithdraw (arbAt s n t) n t p) := by
  change execArbWithdraw t n p s = _
  rw [execArbWithdraw, if_pos h]

theorem exec_arbRelease {s : State} (t : Nat) (n : Fin 22) (h : s.fabric = true) :
    exec (.arbRelease t n) s =
      .next (if camGranted s n t then camBurst (linkAfter (arbTo s n t) n (arbRelease (arbAt s n t) n t))
        else linkAfter (arbTo s n t) n (arbRelease (arbAt s n t) n t)) := by
  change execArbRelease t n s = _
  rw [execArbRelease, if_pos h]

theorem exec_tenureExpiry {s : State} (t : Nat) (n : Fin 22) (h : s.fabric = true) :
    exec (.tenureExpiry t n) s = .next (linkAfter (arbTo s n t) n (arbExpire (arbAt s n t) n t)) := by
  change execTenureExpiry t n s = _
  rw [execTenureExpiry, if_pos h]

theorem exec_emergencyRequest {s : State} (t : Nat) {n : Fin 22} (h : s.fabric = true) (hn : n.val ≠ 0) :
    exec (.emergencyRequest t n) s = .next (arbEmergency s n t) := by
  change execEmergencyRequest t n s = _
  simp [execEmergencyRequest, h, hn]

theorem exec_emergencyRequest_till {s : State} (t : Nat) (h : s.fabric = true) :
    exec (.emergencyRequest t 0) s =
      .next (arbTickets (fenceAsk (tillTo s t) (max t (getArb (tillTo s t) 0).cyc)) 0) := by
  change execEmergencyRequest t 0 s = _
  simp [execEmergencyRequest, h]

theorem exec_emergencyGrantEnd {s : State} (t : Nat) {n : Fin 22} (h : s.fabric = true) (hn : n.val ≠ 0) :
    exec (.emergencyGrantEnd t n) s = .next (linkAfter (arbTo s n t) n (arbEmergencyEnd s n t)) := by
  change execEmergencyGrantEnd t n s = _
  simp [execEmergencyGrantEnd, h, hn, arbAt]

theorem exec_clearCounts_at {s : State} (t : Nat) (n : Fin 22) (h : s.fabric = true) :
    exec (.clearCounts t n) s = .next (zeroCounts (arbTo (arbAt s n t) n t) n) := by
  change execClearCounts t n s = _
  rw [execClearCounts, if_pos h]
  rfl

/-- At the till the end of the emergency grant leaves what is queued to a later one (R33). -/
theorem exec_emergencyGrantEnd_till {s : State} {t : Nat} (h : s.fabric = true)
    (hended : (getArb (arbEmergencyEnd (tillTo s t) 0 t) 0).ev.emEnded = true) :
    exec (.emergencyGrantEnd t 0) s =
      .next (fenceAsk { arbEmergencyEnd (tillTo s t) 0 t with
        till := { (arbEmergencyEnd (tillTo s t) 0 t).till with fenceAt := none } }
        (getArb (arbEmergencyEnd (tillTo s t) 0 t) 0).cyc) := by
  change execEmergencyGrantEnd t 0 s = _
  simp [execEmergencyGrantEnd, h, arbAt, hended]

theorem exec_arbRelease_link {s : State} (t : Nat) (h : s.fabric = true) :
    exec (.arbRelease t 21) s = .next (linkAfter (arbTo s 21 t) 21 (arbRelease s 21 t)) := by
  rw [exec_arbRelease t 21 h, if_neg (by simp [camGranted])]
  rfl

/-- Frames leave at the cross-link alone. -/
theorem linkAfter_elsewhere (s0 s : State) {n : Nat} (h : n ≠ 21) : linkAfter s0 n s = s := by
  unfold linkAfter
  exact if_pos h

theorem arbAt_other (s : State) {n : Nat} (c : Nat) (h : n ≠ 0) : arbAt s n c = s := by
  unfold arbAt
  exact if_neg h

/-- A burst of the camera-write requester leaves the arbiters alone. -/
theorem camBurst_arbs (s : State) : (camBurst s).arbs = s.arbs ∧ (camBurst s).regs = s.regs := by
  unfold camBurst
  dsimp only
  split
  · exact ⟨rfl, rfl⟩
  · split <;> exact ⟨rfl, rfl⟩

theorem getArb_camBurst (s : State) (n : Nat) : getArb (camBurst s) n = getArb s n := by
  simp only [getArb, (camBurst_arbs s).1]

theorem arbReach_camBurst (s : State) (n c : Nat) : arbReach (camBurst s) n c = arbReach s n c := by
  simp only [arbReach, arbLim, arbL, arbE, arbW, arbEmOn, rbit, getArb_camBurst, rget_congr (camBurst_arbs s).2]

/-- The requester whose cross-link grant ends sends its first frame; it asks no more where it has no other. -/
theorem linkSent_last {s : State} {q : Option Nat} {f : XFrame} (hf : (s.xlk.out.find? fun f => f.req == q) = some f)
    (hlast : ((s.xlk.out.erase f).any fun g => g.req == q) = false) :
    linkSent s q = { s with xlk := { s.xlk with out := s.xlk.out.erase f, tx := tblSet s.xlk.tx f.typ f } } := by
  unfold linkSent
  rw [hf]
  simp only [hlast, Bool.false_eq_true, if_false]

/-- At the cross-link a grant that ends now sends a frame of its holder. -/
theorem linkAfter_ended {s0 s : State} {g : Grant} {f : XFrame} (hold : (arbNow s0 21).holder = some g)
    (hwas : (getArb s0 21).ev.ended = false) (hnow : (getArb s 21).ev.ended = true)
    (hf : (s.xlk.out.find? fun f => f.req == some g.who) = some f)
    (hlast : ((s.xlk.out.erase f).any fun h => h.req == some g.who) = false) :
    linkAfter s0 21 s = { s with xlk := { s.xlk with out := s.xlk.out.erase f, tx := tblSet s.xlk.tx f.typ f } } := by
  unfold linkAfter
  rw [if_neg (by decide)]
  simp only [hold, hwas, hnow, Bool.not_false, Bool.and_self, if_true]
  exact linkSent_last hf hlast

theorem arbRelease_ended {s : State} {n c : Nat} (h : (arbNow (arbTo s n c) n).holder.isSome = true) :
    (getArb (arbRelease s n c) n).ev.ended = true := by
  simp [arbRelease, getArb_arbTell_ev, h]

theorem arbExpire_ended {s : State} {n c : Nat} {g : Grant} (h : (arbNow (arbTo s n c) n).holder = some g)
    (hpast : g.start + g.left ≤ (getArb (arbTo s n c) n).cyc + 1) : (getArb (arbExpire s n c) n).ev.ended = true := by
  simp [arbExpire, getArb_arbTell_ev, h, hpast]

theorem arbEmergencyEnd_emEnded {s : State} {n c b : Nat} (h : (getArb (arbTo s n c) n).st.emStart = some b)
    (hb : b ≤ (getArb (arbTo s n c) n).cyc) : (getArb (arbEmergencyEnd s n c) n).ev.emEnded = true := by
  simp [arbEmergencyEnd, getArb_arbTell_ev, h, hb]

/-- The emergency port asks for a queued record of which no grant is in progress. -/
theorem fenceAsk_requests {s : State} {c : Nat} {f : FenceRec} (hf : f ∈ s.till.fenceQ) (hat : s.till.fenceAt = none)
    (hwait : (getArb s 0).st.emWait = []) (hev : (getArb s 0).ev.emReqs = 0) (hon : arbEmOn s 0 = true) :
    (getArb (fenceAsk s c) 0).st.emWait = [c] := by
  have hleft : (s.till.fenceQ.any fun f => s.till.fenceAt.isNone || s.till.fenceDone.contains f.sup) = true :=
    List.any_eq_true.mpr ⟨f, hf, by simp [hat]⟩
  unfold fenceAsk
  dsimp only
  rw [if_pos ⟨hleft, hwait, hev, hon⟩, getArb_setArb, if_pos rfl]

theorem fenceAsk_ev (s : State) (c : Nat) : (getArb (fenceAsk s c) 0).ev = (getArb s 0).ev := by
  unfold fenceAsk
  dsimp only
  split
  · rw [getArb_setArb, if_pos rfl]
  · rfl

/-- Settles O8: each command tells its arbiter one thing (`getArb_arbTell`), within the frame of the till. -/
theorem arbiterCommandsComplete : Obligations.ArbiterCommandsComplete := by
  unfold Obligations.ArbiterCommandsComplete
  refine ⟨?request, ?release, ?expiry, ?expiryTill, ?releaseLink, ?expiryLink, ?withdraw, ?emergency, ?emergencyTill,
    ?grantEnd, ?grantEndTill, ?clear⟩
  case request =>
    intro s t n ps hfab
    refine ⟨_, exec_arbRequest t n ps hfab, fun p hp => ?_, ?_, ((arbAt_tillOnly s n t).trans (arbRequest_arbOnly _ n t ps).tillOnly).sameMemory⟩
    · rw [arbRequest, getArb_arbTell_ev]
      exact List.mem_append_right _ hp
    · rw [arbRequest, getArb_arbTell_cyc]
      exact le_getArb_arbTo_cyc _ _ _
  case release =>
    intro s t n hfab hn hold
    refine ⟨_, exec_arbRelease t n hfab, ?_, fun hcam => ?_⟩
    · rw [linkAfter_elsewhere _ _ hn]
      split
      · rw [getArb_camBurst]
        exact arbRelease_ended hold
      · exact arbRelease_ended hold
    · rw [hcam, if_neg Bool.false_ne_true, linkAfter_elsewhere _ _ hn]
      exact ((arbAt_tillOnly s n t).trans (arbRelease_arbOnly _ n t).tillOnly).sameMemory
  case expiry =>
    intro s t n g hfab h0 h21 hold hpast
    refine ⟨_, exec_tenureExpiry t n hfab, ?_⟩
    rw [linkAfter_elsewhere _ _ h21, arbAt_other s t h0]
    exact ⟨arbExpire_ended hold hpast, (arbExpire_arbOnly s n t).sameMemory⟩
  case expiryTill =>
    intro s t g hfab hold hpast
    refine ⟨_, exec_tenureExpiry t 0 hfab, ?_⟩
    rw [linkAfter_elsewhere _ _ (by decide)]
    exact ⟨arbExpire_ended hold hpast, ((tillTo_tillOnly s t).trans (arbExpire_arbOnly _ 0 t).tillOnly).sameMemory⟩
  case releaseLink =>
    intro s t g f hfab hold hwas hf hlast
    have hended : (getArb (arbRelease s 21 t) 21).ev.ended = true := arbRelease_ended (by simp [hold])
    have hx : (arbRelease s 21 t).xlk = s.xlk := (arbRelease_arbOnly s 21 t).xlk
    have hsent := linkAfter_ended hold hwas hended (by rwa [hx]) (by rwa [hx])
    refine ⟨_, exec_arbRelease_link t hfab, ?_⟩
    rw [hsent, hx]
    exact ⟨rfl, rfl, hended⟩
  case expiryLink =>
    intro s t g f hfab hold hwas hf hlast hpast
    have hended : (getArb (arbExpire s 21 t) 21).ev.ended = true := arbExpire_ended hold hpast
    have hx : (arbExpire s 21 t).xlk = s.xlk := (arbExpire_arbOnly s 21 t).xlk
    have hsent := linkAfter_ended hold hwas hended (by rwa [hx]) (by rwa [hx])
    refine ⟨_, exec_tenureExpiry t 21 hfab, ?_⟩
    change (linkAfter (arbTo s 21 t) 21 (arbExpire s 21 t)).xlk.out = _ ∧
      (linkAfter (arbTo s 21 t) 21 (arbExpire s 21 t)).xlk.tx = _ ∧
      (getArb (linkAfter (arbTo s 21 t) 21 (arbExpire s 21 t)) 21).ev.ended = true
    rw [hsent, hx]
    exact ⟨rfl, rfl, hended⟩
  case withdraw =>
    intro s t n p hfab
    refine ⟨_, exec_arbWithdraw t n p hfab, ?_, ?_, ((arbAt_tillOnly s n t).trans (arbWithdraw_arbOnly _ n t p).tillOnly).sameMemory⟩
    · rw [arbWithdraw, getArb_arbTell_ev]
      exact List.mem_append_right _ (List.mem_singleton_self p)
    · rw [arbWithdraw, getArb_arbTell_cyc]
      exact le_getArb_arbTo_cyc _ _ _
  case emergency =>
    intro s t n hfab h0 hon
    refine ⟨_, exec_emergencyRequest t hfab h0, ?_, (arbEmergency_arbOnly s n t).sameMemory⟩
    rw [arbEmergency, if_pos hon, getArb_arbTell_ev]
  case emergencyTill =>
    intro s t f hfab hon hf hat hwait hev
    refine ⟨_, exec_emergencyRequest_till t hfab, ?_, ?_⟩
    · obtain ⟨tk, hget, -⟩ := getArb_arbTickets (fenceAsk (tillTo s t) (max t (getArb (tillTo s t) 0).cyc)) 0
      rw [hget]
      refine fenceAsk_requests hf hat hwait hev ?_
      exact (congrArg ArbLim.on ((tillTo_tillOnly s t).limits 0)).trans hon
    · exact ((tillTo_tillOnly s t).trans
        ((fenceAsk_arbOnly _ _).trans (arbTickets_arbOnly _ 0)).tillOnly).sameMemory
  case grantEnd =>
    intro s t n b hfab h0 h21 hstart hb
    refine ⟨_, exec_emergencyGrantEnd t hfab h0, ?_⟩
    rw [linkAfter_elsewhere _ _ h21]
    exact ⟨arbEmergencyEnd_emEnded hstart hb, (arbEmergencyEnd_arbOnly s n t).sameMemory⟩
  case grantEndTill =>
    intro s t b hfab hstart hb
    have hended := arbEmergencyEnd_emEnded hstart hb
    refine ⟨_, exec_emergencyGrantEnd_till hfab hended, ?_, ?_, ?_⟩
    · rw [fenceAsk_ev]
      exact hended
    · exact congrArg Till.fenceAt (fenceAsk_arbOnly _ _).till
    · exact (((tillTo_tillOnly s t).trans (arbEmergencyEnd_arbOnly _ 0 t).tillOnly).trans ((till_tillOnly _ _).trans
        (fenceAsk_arbOnly _ _).tillOnly)).sameMemory
  case clear =>
    intro s t n hfab
    refine ⟨_, exec_clearCounts_at t n hfab, rget_zeroCounts_preempt _ n, rget_zeroCounts_dead _ n, ?_⟩
    exact ((arbAt_tillOnly s n t).trans (arbTo_arbOnly _ n t).tillOnly).sameMemory

/-! ### What a cycle grants, and what the next one finds -/

/-- A requester that holds and does not withdraw holds on; requests of the cycle join those that wait. -/
theorem Arb.inCycle_held {a : Arb} {g : Grant} (l : Nat) (hold : a.st.holder = some g)
    (hwd : a.ev.withdrawn.contains g.who = false) :
    (a.inCycle l).holder = some g ∧ (a.inCycle l).rank = a.st.rank ∧
      (a.inCycle l).want = (a.st.ask a.ev.reqs).want.filter fun p => !a.ev.withdrawn.contains p := by
  have hg : a.granted l = a.st.ask a.ev.reqs := by
    rw [Arb.granted, ArbSt.grant, if_pos (Or.inl (by simp [ArbSt.ask, hold]))]
  have hh : (a.granted l).holder = some g := by rw [hg]; exact hold
  have hu : a.unused l = false := by
    rw [Arb.unused, hh, Option.any_some, hwd, Bool.and_false]
  rw [Arb.inCycle, hu, hg]
  exact ⟨hold, rfl, rfl⟩

/-- Nothing asked, nothing joins those that wait. -/
theorem ArbSt.ask_nil (b : ArbSt) : b.ask [] = b := by
  simp [ArbSt.ask]

/-- A requester of the arbiter, where none waits yet, is the only one to wait. -/
theorem ArbSt.ask_one {b : ArbSt} {p : Nat} (hrank : p ∈ b.rank) (hwant : b.want = []) :
    b.ask [p] = { b with want := [p] } := by
  simp only [ArbSt.ask, hwant, List.nil_append, List.contains_nil, Bool.not_false, Bool.and_true, List.filter_cons,
    List.contains_iff_mem.mpr hrank, if_true, List.filter_nil]
  rfl

theorem ArbSt.winner_only {b : ArbSt} {p : Nat} {k : List Nat} (hwant : b.want = [p]) (hrank : p ∈ b.rank)
    (hmask : p ∉ k) : b.winner k = some p := by
  have hp : (b.want.contains p && !k.contains p) = true := by simp [hwant, hmask]
  have hsome : (b.winner k).isSome = true := by
    rw [ArbSt.winner, List.find?_isSome]
    exact ⟨p, hrank, hp⟩
  obtain ⟨q, hq⟩ := Option.isSome_iff_exists.mp hsome
  have hqp : q = p := by
    rw [ArbSt.winner] at hq
    simpa [hwant] using (Bool.and_eq_true_iff.mp (List.find?_some (p := fun p => b.want.contains p && !k.contains p) hq)).1
  rw [hq, hqp]

/-- The only requester of a free arbiter gets the grant of the cycle. -/
theorem Arb.granted_only {a : Arb} {p : Nat} (l : Nat) (hold : a.st.holder = none) (hem : a.st.emStart = none)
    (hwant : a.st.want = []) (hev : a.ev.reqs = [p]) (hrank : p ∈ a.st.rank) (hmask : p ∉ a.masked) :
    a.granted l = { a.st with holder := some ⟨p, a.cyc, l⟩, want := [], rank := a.st.rank.erase p ++ [p] } := by
  have hwin : ({ a.st with want := [p] } : ArbSt).winner a.masked = some p := ArbSt.winner_only rfl hrank hmask
  rw [Arb.granted, hev, ArbSt.ask_one hrank hwant, ArbSt.grant, if_neg (by simp [hold, hem]), hwin]
  simp

theorem ArbSt.calm_iff (b : ArbSt) : b.calm = true ↔ b.emStart = none ∧ b.emWait = [] ∧ b.resume = none := by
  simp [ArbSt.calm, and_assoc]

/-- Of a calm arbiter that is asked for no emergency, the next cycle begins as this one ends, and a grant withdrawn
unused costs a dead cycle. -/
theorem Arb.close_calm {a : Arb} {m : ArbLim} (hstart : a.st.emStart = none) (hwait : a.st.emWait = [])
    (hev : a.ev.emReqs = 0) : a.close m = ⟨a.atEnd m, false, a.unused m.l⟩ := by
  have hdue : (a.atEnd m).emDue m.w = none := by simp [ArbSt.emDue, hwait, hev]
  simp [Arb.close, hstart, hdue]

/-- The end of a grant leaves the resource free and those that wait as they were. -/
theorem Arb.close_ended {a : Arb} {g : Grant} {m : ArbLim} (hcalm : a.st.calm = true) (hold : a.st.holder = some g)
    (hev : a.ev = { ArbEv.none_ with ended := true }) :
    (a.close m).st.holder = none ∧ (a.close m).st.rank = a.st.rank ∧ (a.close m).st.want = a.st.want ∧
      (a.close m).preempt = false ∧ (a.close m).dead = false := by
  obtain ⟨hstart, hwait, -⟩ := a.st.calm_iff.mp hcalm
  obtain ⟨hh, hrank, hwant⟩ := Arb.inCycle_held m.l hold (by rw [hev]; rfl)
  have hun : a.unused m.l = false := by
    simp [Arb.unused, hev, ArbEv.none_]
  rw [Arb.close_calm hstart hwait (by rw [hev]; rfl), hun]
  simp only [Arb.atEnd, hev, if_true, hrank, hwant]
  simp [ArbEv.none_, ArbSt.ask_nil]

/-- A grant withdrawn in its first cycle costs that cycle. -/
theorem Arb.close_withdrawn {a : Arb} {p : Nat} {m : ArbLim} (hcalm : a.st.calm = true) (hold : a.st.holder = none)
    (hwant : a.st.want = []) (hev : a.ev = { ArbEv.none_ with reqs := [p], withdrawn := [p] }) (hrank : p ∈ a.st.rank)
    (hmask : p ∉ a.masked) :
    (a.close m).st.holder = none ∧ (a.close m).st.want = [] ∧ (a.close m).preempt = false ∧ (a.close m).dead = true := by
  obtain ⟨hstart, hwait, -⟩ := a.st.calm_iff.mp hcalm
  have hg := Arb.granted_only m.l hold hstart hwant (by rw [hev]) hrank hmask
  have hun : a.unused m.l = true := by simp [Arb.unused, hg, hev]
  rw [Arb.close_calm hstart hwait (by rw [hev]; rfl), hun]
  simp [Arb.atEnd, Arb.inCycle, hg, hun]

/-- An emergency request that meets a holder with tenure left pre-empts it from the next cycle. -/
theorem Arb.close_emergency {a : Arb} {g : Grant} {m : ArbLim} (hcalm : a.st.calm = true) (hon : m.on = true)
    (hlast : a.st.emLast = none) (hold : a.st.holder = some g) (hleft : a.cyc + 1 < g.start + g.left)
    (hev : a.ev = { ArbEv.none_ with emReqs := 1 }) :
    (a.close m).st.emStart = some (a.cyc + 1) ∧ (a.close m).st.holder = none ∧
      (a.close m).st.resume = some ⟨g.who, a.cyc + 1, g.start + g.left - (a.cyc + 1)⟩ ∧
      (a.close m).st.rank = a.st.rank ∧ (a.close m).preempt = true ∧ (a.close m).dead = false := by
  obtain ⟨hstart, hwait, -⟩ := a.st.calm_iff.mp hcalm
  obtain ⟨hh, hrank, -⟩ := Arb.inCycle_held m.l hold (by rw [hev]; rfl)
  have hdue : (a.atEnd m).emDue m.w = some (a.cyc + 1) := by simp [ArbSt.emDue, hwait, hev, hlast]
  have hb : (a.atEnd m).holder = some g := by simp [Arb.atEnd, hev, ArbEv.none_, hh]
  have hr : (a.atEnd m).rank = a.st.rank := hrank
  have hclose : a.close m = ⟨(a.atEnd m).emBegin (a.cyc + 1),
      ((a.atEnd m).emBegin (a.cyc + 1)).resume.isSome || a.unused m.l, false⟩ := by
    simp [Arb.close, hstart, hdue, hon]
  have hrest : g.rest (a.cyc + 1) = some ⟨g.who, a.cyc + 1, g.start + g.left - (a.cyc + 1)⟩ := by
    rw [Grant.rest, if_neg (Nat.not_le.mpr hleft)]
  rw [hclose]
  simp [ArbSt.emBegin, hb, hr, hrest]

/-- An emergency grant told to end gives way to the pre-empted holder. -/
theorem Arb.close_emEnded {a : Arb} {g : Grant} {m : ArbLim} {b : Nat} (hstart : a.st.emStart = some b)
    (hresume : a.st.resume = some g) (hev : a.ev = { ArbEv.none_ with emEnded := true }) :
    (a.close m).st.emStart = none ∧ (a.close m).st.resume = none ∧
      (a.close m).st.holder = some { g with start := a.cyc + 1 } ∧ (a.close m).st.rank = a.st.rank := by
  have hg : a.granted m.l = a.st.ask a.ev.reqs := by
    rw [Arb.granted, ArbSt.grant, if_pos (Or.inr (by simp [ArbSt.ask, hstart]))]
  have hem : a.ev.emEnded = true := by rw [hev]
  have hres : (a.atEnd m).resume = some g := by simp [Arb.atEnd, Arb.inCycle, hg, ArbSt.ask, hresume]
  have hrank : (a.atEnd m).rank = a.st.rank := by simp [Arb.atEnd, Arb.inCycle, hg, ArbSt.ask]
  simp [Arb.close, hstart, hem, hres, hrank]

/-- The camera-write burst: the first bytes of the buffer of the port next in rotation (R321). -/
theorem camBurst_next {s : State} {p a : Nat} {bs : List Byte} {q : List (Nat × List Byte)} (hp : p < 4)
    (hat : s.vis.burstAt = p) (hbuf : (tblGetD s.vis.cams p Cam.idle).buf = (a, bs) :: q) (hlen : bs.length ≤ 256) :
    (tblGetD (camBurst s).vis.cams p Cam.idle).buf = q ∧ (camBurst s).vis.burstAt = (p + 1) % 4 ∧
      (camBurst s).mem = Memory.writeList s.mem a bs ∧ (camBurst s).extMem = s.extMem ∧ (camBurst s).reqs = s.reqs := by
  have hfirst : (((List.range 4).map fun k => (s.vis.burstAt + k) % 4).find? fun p =>
      !(tblGetD s.vis.cams p Cam.idle).buf.isEmpty) = some p := by
    rw [hat]
    simp [List.range_succ_eq_map, Nat.mod_eq_of_lt hp, hbuf]
  unfold camBurst
  simp only [hfirst, hbuf, hlen, if_true, List.take_of_length_le hlen]
  simp [hostWrite]

theorem camGranted_index {s : State} {n t : Nat} (h : camGranted s n t = true) : 1 ≤ n ∧ n ≤ 4 := by
  simp only [camGranted, Bool.and_eq_true, decide_eq_true_eq] at h
  exact h.1.1

/-- The seven commands at an arbiter other than the till and the cross-link keep within it. -/
theorem exec_arbiter_arbOnly {s u : State} {c : Instr} {t p : Nat} {n : Fin 22} {ps : List Nat}
    (hc : c ∈ [Instr.arbRequest t n ps, .arbRelease t n, .tenureExpiry t n, .arbWithdraw t n p, .emergencyRequest t n,
      .emergencyGrantEnd t n, .clearCounts t n]) (h0 : n.val ≠ 0) (h21 : n.val ≠ 21)
    (hcam : c = .arbRelease t n → camGranted s n t = false) (hu : exec c s = .next u) : ArbOnly s u := by
  by_cases hfab : s.fabric = true
  · simp only [List.mem_cons, List.not_mem_nil, or_false] at hc
    obtain rfl | rfl | rfl | rfl | rfl | rfl | rfl := hc
    · rw [exec_arbRequest t n ps hfab, arbAt_other s t h0] at hu
      exact Host.Outcome.next.inj hu ▸ arbRequest_arbOnly s n t ps
    · rw [exec_arbRelease t n hfab, hcam rfl, if_neg Bool.false_ne_true, linkAfter_elsewhere _ _ h21,
        arbAt_other s t h0] at hu
      exact Host.Outcome.next.inj hu ▸ arbRelease_arbOnly s n t
    · rw [exec_tenureExpiry t n hfab, linkAfter_elsewhere _ _ h21, arbAt_other s t h0] at hu
      exact Host.Outcome.next.inj hu ▸ arbExpire_arbOnly s n t
    · rw [exec_arbWithdraw t n p hfab, arbAt_other s t h0] at hu
      exact Host.Outcome.next.inj hu ▸ arbWithdraw_arbOnly s n t p
    · rw [exec_emergencyRequest t hfab h0] at hu
      exact Host.Outcome.next.inj hu ▸ arbEmergency_arbOnly s n t
    · rw [exec_emergencyGrantEnd t hfab h0, linkAfter_elsewhere _ _ h21] at hu
      exact Host.Outcome.next.inj hu ▸ arbEmergencyEnd_arbOnly s n t
    · rw [exec_clearCounts t hfab h0] at hu
      refine Host.Outcome.next.inj hu ▸ (arbTo_arbOnly s n t).trans ?_
      exact (rset_arbOnly _ _ _ _ rfl (by decide)).trans (rset_arbOnly _ _ _ _ rfl (by decide))
  · have hidle : exec c s = .next s := by
      simp only [List.mem_cons, List.not_mem_nil, or_false] at hc
      obtain rfl | rfl | rfl | rfl | rfl | rfl | rfl := hc
      · exact congrArg Host.Outcome.next (if_neg hfab)
      · exact congrArg Host.Outcome.next (if_neg hfab)
      · exact congrArg Host.Outcome.next (if_neg hfab)
      · exact congrArg Host.Outcome.next (if_neg hfab)
      · exact congrArg Host.Outcome.next (if_pos (by simpa using hfab))
      · exact congrArg Host.Outcome.next (if_neg hfab)
      · exact congrArg Host.Outcome.next (if_neg hfab)
    rw [hidle] at hu
    exact Host.Outcome.next.inj hu ▸ ArbOnly.refl s

/-- What the next cycle finds after a grant that ended in this one. -/
theorem arbReach_ended {s : State} {n t : Nat} {g : Grant} {f : ArbEv → ArbEv} (hcyc : (getArb s n).cyc = t)
    (hcalm : (getArb s n).st.calm = true) (hold : (getArb s n).st.holder = some g)
    (hev : f (getArb s n).ev = { ArbEv.none_ with ended := true }) :
    (arbReach (arbTell s n t f) n (t + 1)).1.st.holder = none ∧
      (arbReach (arbTell s n t f) n (t + 1)).1.st.rank = (getArb s n).st.rank ∧
      (arbReach (arbTell s n t f) n (t + 1)).1.st.want = (getArb s n).st.want ∧
      (arbReach (arbTell s n t f) n (t + 1)).2 = (0, 0) := by
  obtain ⟨hst, hcount⟩ := arbReach_arbTell hcyc f
  obtain ⟨hh, hrank, hwant, hpre, hdead⟩ :=
    Arb.close_ended (a := (getArb s n).told f) (m := arbLim s n) hcalm hold hev
  rw [hst, hcount, hh, hrank, hwant, hpre, hdead]
  exact ⟨rfl, rfl, rfl, rfl⟩

/-- What the next cycle finds after an emergency grant that ended in this one. -/
theorem arbReach_emEnded {s : State} {n t b : Nat} {g : Grant} {f : ArbEv → ArbEv} (hcyc : (getArb s n).cyc = t)
    (hstart : (getArb s n).st.emStart = some b) (hres : (getArb s n).st.resume = some g)
    (hev : f (getArb s n).ev = { ArbEv.none_ with emEnded := true }) :
    (arbReach (arbTell s n t f) n (t + 1)).1.st.emStart = none ∧
      (arbReach (arbTell s n t f) n (t + 1)).1.st.resume = none ∧
      (arbReach (arbTell s n t f) n (t + 1)).1.st.holder = some { g with start := t + 1 } ∧
      (arbReach (arbTell s n t f) n (t + 1)).1.st.rank = (getArb s n).st.rank := by
  obtain ⟨hst, -⟩ := arbReach_arbTell hcyc f
  rw [hst, ← hcyc]
  exact Arb.close_emEnded (a := (getArb s n).told f) (m := arbLim s n) hstart hres hev

/-- An arbiter in the cycle of the command shows its holder, where nothing has been told. -/
theorem arbNow_arbTo_holder {s : State} {n t : Nat} {g : Grant} (hcyc : (getArb s n).cyc = t)
    (hev : (getArb s n).ev = ArbEv.none_) (hold : (getArb s n).st.holder = some g) :
    (arbNow (arbTo s n t) n).holder = some g := by
  rw [arbNow, getArb_arbTo_here hcyc]
  exact (Arb.inCycle_held _ hold (by rw [hev]; rfl)).1

/-- Settles O9: told something in the cycle in which it stands, an arbiter grants and closes as `Arb.inCycle` and
`Arb.close` say of that cycle alone (`arbNow_arbTell`, `arbReach_arbTell`). -/
theorem arbiters : Obligations.Arbiters := by
  unfold Obligations.Arbiters
  refine ⟨?granted, ?waits, ?released, ?expired, ?withdrawn, ?ticketVoid, ?preempted, ?resumed, ?frame, ?burst⟩
  case granted =>
    intro s t n p hfab h0 hcyc hidle hrank hmask
    simp only [Arb.idle, Bool.and_eq_true, Option.isNone_iff_eq_none, List.isEmpty_iff, beq_iff_eq] at hidle
    obtain ⟨⟨⟨hcalm, hold⟩, hwant⟩, hev⟩ := hidle
    obtain ⟨hstart, -, -⟩ := ((getArb s n).st.calm_iff).mp hcalm
    refine ⟨_, exec_arbRequest t n [p] hfab, ?_⟩
    rw [arbAt_other s t h0, arbRequest, arbNow_arbTell hcyc]
    have hg := Arb.granted_only (a := (getArb s n).told fun e => { e with reqs := e.reqs ++ [p] }) (arbL s n) hold hstart
      hwant (by simp [Arb.told, hev, ArbEv.none_]) hrank hmask
    have hun : ((getArb s n).told fun e => { e with reqs := e.reqs ++ [p] }).unused (arbL s n) = false := by
      simp [Arb.unused, Arb.told, hev, ArbEv.none_]
    rw [← arbL_eq, Arb.inCycle, hg, hun]
    exact ⟨by simp [Arb.told, hcyc], rfl, rfl⟩
  case waits =>
    intro s t n p g hfab h0 h21 hcyc hev hcalm hold hne hwant hrank
    refine ⟨_, exec_arbRequest t n [p] hfab, ?_⟩
    rw [arbAt_other s t h0, arbRequest, arbNow_arbTell hcyc]
    obtain ⟨hh, hr, hw⟩ := Arb.inCycle_held (a := (getArb s n).told fun e => { e with reqs := e.reqs ++ [p] })
      (arbLim s n).l hold (by simp [Arb.told, hev, ArbEv.none_])
    have honly := arbTell_arbOnly s n t fun e => { e with reqs := e.reqs ++ [p] }
    refine ⟨hh, hr, ?_, honly.reqs, honly.sameMemory⟩
    rw [hw]
    simp [Arb.told, hev, ArbEv.none_, ArbSt.ask_one hrank hwant]
  case released =>
    intro s t n g hfab h0 h21 hcyc hev hcalm hold hlast
    have hends : (fun e : ArbEv => { e with ended := e.ended || (arbNow (arbTo s n t) n).holder.isSome })
        (getArb s n).ev = { ArbEv.none_ with ended := true } := by
      simp [arbNow_arbTo_holder hcyc hev hold, hev]
    refine ⟨_, exec_arbRelease t n hfab, ?_⟩
    rw [linkAfter_elsewhere _ _ h21, arbAt_other s t h0]
    split
    · rw [arbReach_camBurst]
      exact arbReach_ended hcyc hcalm hold hends
    · exact arbReach_ended hcyc hcalm hold hends
  case expired =>
    intro s t n g hfab h0 h21 hcyc hev hcalm hold hlast hpast
    refine ⟨_, exec_tenureExpiry t n hfab, ?_⟩
    rw [linkAfter_elsewhere _ _ h21, arbAt_other s t h0]
    refine arbReach_ended hcyc hcalm hold ?_
    simp [arbNow_arbTo_holder hcyc hev hold, hev, getArb_arbTo_here hcyc, hcyc, hpast]
  case withdrawn =>
    intro s t n p hfab h0 hcyc hcalm hold hwant hev hrank hmask
    obtain ⟨hst, hcount⟩ := arbReach_arbTell hcyc fun e => { e with withdrawn := e.withdrawn ++ [p] }
    obtain ⟨hh, hw, hpre, hdead⟩ :=
      Arb.close_withdrawn (a := (getArb s n).told fun e => { e with withdrawn := e.withdrawn ++ [p] }) (m := arbLim s n)
        hcalm hold hwant (by simp [Arb.told, hev, ArbEv.none_]) hrank hmask
    refine ⟨_, exec_arbWithdraw t n p hfab, ?_⟩
    rw [arbAt_other s t h0, arbWithdraw, hst, hcount, hh, hw, hpre, hdead]
    exact ⟨rfl, rfl, rfl⟩
  case ticketVoid =>
    intro s t n p g hfab h0 h21 hcyc hev hcalm hold hne
    obtain ⟨tk, hget, htk⟩ := getArb_arbTell s n t fun e => { e with withdrawn := e.withdrawn ++ [p] }
    obtain ⟨hh, hr, hw⟩ := Arb.inCycle_held (a := (getArb s n).told fun e => { e with withdrawn := e.withdrawn ++ [p] })
      (arbLim s n).l hold (by simpa [Arb.told, hev, ArbEv.none_] using hne)
    have hwant : (arbNow (arbTell s n t fun e => { e with withdrawn := e.withdrawn ++ [p] }) n).want =
        (getArb s n).st.want.filter (· != p) := by
      rw [arbNow_arbTell hcyc, hw]
      simp [Arb.told, hev, ArbEv.none_, ArbSt.ask_nil, bne, beq_eq_decide]
    refine ⟨_, exec_arbWithdraw t n p hfab, ?_⟩
    rw [arbAt_other s t h0, arbWithdraw]
    refine ⟨hwant, ?_, ?_, ?_, (arbTell_arbOnly s n t _).sameMemory⟩
    · rw [hget]
      exact htk p (by rw [hwant]; simp)
    · rw [arbNow_arbTell hcyc]
      exact hr
    · rw [arbNow_arbTell hcyc]
      exact hh
  case preempted =>
    intro s t n g hfab h0 h21 hcyc hev hcalm hon hlast hold hleft
    obtain ⟨hst, hcount⟩ := arbReach_arbTell hcyc fun e => { e with emReqs := e.emReqs + 1 }
    obtain ⟨hstart, hh, hres, hrank, hpre, hdead⟩ :=
      Arb.close_emergency (a := (getArb s n).told fun e => { e with emReqs := e.emReqs + 1 }) (m := arbLim s n)
        hcalm hon hlast hold (by simpa [Arb.told, hcyc] using hleft) (by simp [Arb.told, hev, ArbEv.none_])
    refine ⟨_, exec_emergencyRequest t hfab h0, ?_⟩
    rw [arbEmergency, if_pos hon, hst, hcount, hstart, hh, hres, hrank, hpre, hdead]
    exact ⟨by simp [Arb.told, hcyc], rfl, by simp [Arb.told, hcyc], rfl, rfl, (arbTell_arbOnly s n t _).sameMemory⟩
  case resumed =>
    intro s t n b g hfab h0 h21 hcyc hev hstart hb hold hres
    refine ⟨_, exec_emergencyGrantEnd t hfab h0, ?_⟩
    rw [linkAfter_elsewhere _ _ h21]
    obtain ⟨hs, hr, hh, hrank⟩ := arbReach_emEnded hcyc hstart hres
      (f := fun e => { e with emEnded := e.emEnded || ((getArb (arbTo s n t) n).st.emStart.any fun f =>
        decide (f ≤ (getArb (arbTo s n t) n).cyc)) })
      (by simp [getArb_arbTo_here hcyc, hstart, hcyc, hb, hev])
    exact ⟨hs, hr, hh, hrank, (arbEmergencyEnd_arbOnly s n t).sameMemory⟩
  case frame =>
    intro s u c t n p ps hc h0 h21 hcam hu
    have honly := exec_arbiter_arbOnly hc h0 h21 hcam hu
    exact ⟨honly.frame, honly.blocks⟩
  case burst =>
    intro s t n p a bs q hfab hcam hat hp hbuf hlen
    obtain ⟨h1, h4⟩ := camGranted_index hcam
    have honly := arbRelease_arbOnly s n t
    refine ⟨_, exec_arbRelease t n hfab, ?_⟩
    rw [if_pos hcam, linkAfter_elsewhere _ _ (by omega), arbAt_other s t (by omega)]
    obtain ⟨hq, hnext, hmem, hext, hreqs⟩ := camBurst_next (s := arbRelease s n t) hp (honly.vis ▸ hat)
      (by rw [honly.vis]; exact hbuf) hlen
    exact ⟨hq, hnext, hmem.trans (by rw [honly.sameMemory.1]),
      hext.trans honly.sameMemory.2, hreqs.trans honly.reqs⟩

end Sys2Proof.Machine
end

section
/-! Submission and completion rings, the queues without descriptors, and the doorbells (R55–R66, R71–R74). -/

namespace Sys2Proof.Machine

/-! ### Frames of register writes -/

theorem OnlyRegs.refl (s : State) (l : List Nat) : OnlyRegs s s l := ⟨rfl, fun _ _ => rfl⟩

theorem OnlyRegs.trans {s u v : State} {l : List Nat} (h : OnlyRegs s u l) (k : OnlyRegs u v l) : OnlyRegs s v l := by
  refine ⟨?_, h.2.trans k.2⟩
  rw [k.1, h.1]

theorem rset_onlyRegs (s : State) (f : Fld) (v i j : Nat) {l : List Nat} (h : f.key i j ∈ l) :
    OnlyRegs s (rset s f v i j) l :=
  ⟨rfl, rset_regsOnly s f v i j h⟩

/-! ### Rings and queues (R55–R60) -/

@[simp] theorem ringEnabled_advance (s : State) (t : Fc) (n : Nat) : ringEnabled (advance s t) n = ringEnabled s n := rfl
@[simp] theorem cqEnabled_advance (s : State) (t : Fc) (n : Nat) : cqEnabled (advance s t) n = cqEnabled s n := rfl
@[simp] theorem ringIdle_advance (s : State) (t : Fc) (n : Nat) : ringIdle (advance s t) n = ringIdle s n := rfl
@[simp] theorem ringCq_advance (s : State) (t : Fc) (n : Nat) : ringCq (advance s t) n = ringCq s n := rfl
@[simp] theorem ringSize_advance (s : State) (t : Fc) (n : Nat) : ringSize (advance s t) n = ringSize s n := rfl
@[simp] theorem cqSize_advance (s : State) (t : Fc) (n : Nat) : cqSize (advance s t) n = cqSize s n := rfl
@[simp] theorem ringCount_advance (s : State) (t : Fc) (n : Nat) : ringCount (advance s t) n = ringCount s n := rfl
@[simp] theorem rbit_advance (s : State) (t : Fc) (f : Fld) (i j : Nat) : rbit (advance s t) f i j = rbit s f i j := rfl

theorem rbit_false_iff (s : State) (f : Fld) (i j : Nat) : rbit s f i j = false ↔ rget s f i j ≠ 1 := by
  simp [rbit]

/-- What RING_ENABLE asks of a ring. -/
def ringFit (s : State) (n : Nat) : Bool :=
  ringIdle s n && classDefined (rget s R.RING_CFG_CLASS 0 n) && cqEnabled s (ringCq s n) &&
    (rget s R.CQ_CFG_HOST 0 (ringCq s n) == rget s R.RING_CFG_HOST 0 n)

/-- A ring that is enabled anew: head and tail at index 0 phase 1, its counters and its error clear. -/
def ringFresh (s : State) (n : Nat) : State :=
  let s1 := rset (rset s R.RING_HEAD_INDEX 0 0 n) R.RING_HEAD_PHASE 1 0 n
  let s2 := rset (rset s1 R.RING_TAIL_INDEX 0 0 n) R.RING_TAIL_PHASE 1 0 n
  let s3 := rset (rset s2 R.RING_NOOP_ABORT_NOOP 0 0 n) R.RING_NOOP_DB_DISCARD 0 0 n
  rset (rset (rset s3 R.RING_CTRL_ERROR 0 0 n) R.RING_CTRL_ERR_CODE 0 0 n) R.RING_CTRL_ENABLE 1 0 n

theorem ringEnable_fit {s : State} {n : Nat} (hoff : ringEnabled s n = false) (hfit : ringFit s n = true) :
    ringEnable s n = ringFresh s n := by
  unfold ringEnable
  exact (if_neg (by simp [hoff])).trans (if_pos hfit)

theorem ringEnable_unfit {s : State} {n : Nat} (hoff : ringEnabled s n = false) (hfit : ringFit s n = false) :
    ringEnable s n = rset s R.RING_CTRL_ERR_CODE 4 0 n := by
  unfold ringEnable
  exact (if_neg (by simp [hoff])).trans (if_neg (Bool.eq_false_iff.mp hfit))

theorem ringFresh_fields (s : State) (n : Nat) :
    rget (ringFresh s n) R.RING_HEAD_INDEX 0 n = 0 ∧ rget (ringFresh s n) R.RING_HEAD_PHASE 0 n = 1 ∧
      rget (ringFresh s n) R.RING_TAIL_INDEX 0 n = 0 ∧ rget (ringFresh s n) R.RING_TAIL_PHASE 0 n = 1 ∧
      rget (ringFresh s n) R.RING_NOOP_ABORT_NOOP 0 n = 0 ∧ rget (ringFresh s n) R.RING_NOOP_DB_DISCARD 0 n = 0 ∧
      rget (ringFresh s n) R.RING_CTRL_ERROR 0 n = 0 ∧ rget (ringFresh s n) R.RING_CTRL_ERR_CODE 0 n = 0 ∧
      rget (ringFresh s n) R.RING_CTRL_ENABLE 0 n = 1 := by
  unfold ringFresh
  simp (disch := decide) only [rget_rset_self, rget_rset_ne, Nat.zero_mod]
  decide

theorem ringFresh_onlyRegs (s : State) (n : Nat) :
    OnlyRegs s (ringFresh s n) [R.RING_HEAD_INDEX.key 0 n, R.RING_HEAD_PHASE.key 0 n, R.RING_TAIL_INDEX.key 0 n,
      R.RING_TAIL_PHASE.key 0 n, R.RING_NOOP_ABORT_NOOP.key 0 n, R.RING_NOOP_DB_DISCARD.key 0 n,
      R.RING_CTRL_ERROR.key 0 n, R.RING_CTRL_ERR_CODE.key 0 n, R.RING_CTRL_ENABLE.key 0 n] := by
  unfold ringFresh
  iterate 8 refine OnlyRegs.trans ?_ (rset_onlyRegs _ _ _ _ _ (by simp))
  exact rset_onlyRegs _ _ _ _ _ (by simp)

/-- A completion ring enabled anew: write slot and head at index 0 phase 1, and every slot free. -/
theorem cqEnable_fields {s : State} {m : Nat} (hoff : cqEnabled s m = false) :
    (rget (cqEnable s m) R.CQ_WRITE_INDEX 0 m = 0 ∧ rget (cqEnable s m) R.CQ_WRITE_PHASE 0 m = 1 ∧
      rget (cqEnable s m) R.CQ_HEAD_INDEX 0 m = 0 ∧ rget (cqEnable s m) R.CQ_HEAD_PHASE 0 m = 1 ∧
      rget (cqEnable s m) R.CQ_FREE_FREE 0 m = cqSize s m % 2 ^ 17 ∧ rget (cqEnable s m) R.CQ_CTRL_ENABLE 0 m = 1) ∧
      cqEnable s m = { s with regs := (cqEnable s m).regs, cqIrq := tblErase s.cqIrq m } := by
  unfold cqEnable
  rw [if_neg (by simp [hoff])]
  refine ⟨?_, rfl⟩
  dsimp only
  have hirq (u : State) (l : Tbl CqIrq) (f : Fld) (i j : Nat) : rget { u with cqIrq := l } f i j = rget u f i j := rfl
  simp (disch := decide) only [rget_rset_self, rget_rset_ne, hirq]
  exact ⟨rfl, rfl, rfl, rfl, rfl, rfl⟩

theorem cqDisable_unbound {s : State} {m : Nat} (h : ∀ n < 256, ringEnabled s n = false ∨ ringCq s n ≠ m) :
    cqDisable s m = rset s R.CQ_CTRL_ENABLE 0 0 m := by
  unfold cqDisable
  refine if_neg ?_
  simp only [List.any_eq_true, List.mem_range, Bool.and_eq_true, beq_iff_eq, not_exists, not_and]
  intro n hn hon hcq
  obtain hoff | hne := h n hn
  · simp [hoff] at hon
  · exact hne hcq

theorem cqDisable_bound {s : State} {m n : Nat} (hn : n < 256) (hon : ringEnabled s n = true) (hcq : ringCq s n = m) :
    cqDisable s m = s := by
  unfold cqDisable
  exact if_pos (List.any_eq_true.mpr ⟨n, List.mem_range.mpr hn, by simp [hon, hcq]⟩)

/-- The five fields of a queue that enabling it writes are distinct, and of the widths that R55 gives them. -/
def QueueRegs.sound (q : QueueRegs) : Bool :=
  decide ([q.headIdx.id, q.headPh.id, q.wrIdx.id, q.wrPh.id, q.enable.id].Nodup) && q.headIdx.width == 16 &&
    q.headPh.width == 1 && q.wrPh.width == 1 && q.enable.width == 1

theorem queueOf_sound (w : WriteQueue) : (queueOf w).1.sound = true := by
  cases w <;> rfl

theorem queueEnable_fields {s : State} {q : QueueRegs} {i j : Nat} (hq : q.sound = true)
    (hoff : rbit s q.enable i j = false) :
    rget (queueEnable s q i j true) q.headIdx i j = 0 ∧ rget (queueEnable s q i j true) q.headPh i j = 1 ∧
      rget (queueEnable s q i j true) q.wrIdx i j = 0 ∧ rget (queueEnable s q i j true) q.wrPh i j = 1 ∧
      rget (queueEnable s q i j true) q.enable i j = 1 := by
  simp only [QueueRegs.sound, Bool.and_eq_true, decide_eq_true_eq, beq_iff_eq, List.nodup_cons, List.mem_cons,
    List.not_mem_nil, or_false, not_or, not_false_eq_true, and_true, List.nodup_nil] at hq
  obtain ⟨⟨⟨⟨⟨⟨h12, h13, h14, h15⟩, ⟨h23, h24, h25⟩, ⟨h34, h35⟩, h45⟩, -⟩, hp⟩, hwp⟩, hen⟩ := hq
  unfold queueEnable
  rw [if_pos rfl, if_neg (by simp [hoff])]
  simp (disch := assumption) only [rget_rset_self, rget_rset_ne, hp, hwp, hen, Nat.zero_mod]
  decide

theorem queueEnable_frame (s : State) (q : QueueRegs) (i j : Nat) (on : Bool) :
    queueEnable s q i j on = { s with regs := (queueEnable s q i j on).regs } := by
  unfold queueEnable
  split
  · split <;> rfl
  · rfl

/-! What each of these commands does where the fabric runs. -/

section
variable {s : State} (t : Fc) (hfab : s.fabric = true)
include hfab

theorem exec_ringEnable (n : Fin 256) : exec (.ringEnable t n) s = .next (ringEnable (advance s t) n) :=
  atFabric_up s t (fun s => ringEnable s n) hfab

theorem exec_ringDisable (n : Fin 256) : exec (.ringDisable t n) s = .next (ringDisable (advance s t) n) :=
  atFabric_up s t (fun s => ringDisable s n) hfab

theorem exec_cqEnable (m : Fin 64) : exec (.cqEnable t m) s = .next (cqEnable (advance s t) m) :=
  atFabric_up s t (fun s => cqEnable s m) hfab

theorem exec_cqDisable (m : Fin 64) : exec (.cqDisable t m) s = .next (cqDisable (advance s t) m) :=
  atFabric_up s t (fun s => cqDisable s m) hfab

theorem exec_queueEnable (q : WriteQueue) (on : Bool) : exec (.queueEnable t q on) s =
    .next (queueEnable (advance s t) (queueOf q).1 (queueOf q).2.1 (queueOf q).2.2 on) :=
  atFabric_up s t (fun s => queueEnable s (queueOf q).1 (queueOf q).2.1 (queueOf q).2.2 on) hfab

theorem exec_queueHeadWrite (q : WriteQueue) (i : Fin 65536) (p : Fin 2) : exec (.queueHeadWrite t q i p) s =
    .next (queueHead (advance s t) (queueOf q).1 (queueOf q).2.1 (queueOf q).2.2 i p) :=
  atFabric_up s t (fun s => queueHead s (queueOf q).1 (queueOf q).2.1 (queueOf q).2.2 i p) hfab

theorem exec_rrecHeadWrite (i : Fin 65536) (p : Fin 2) :
    exec (.rrecHeadWrite t i p) s = .next (rrecHead (advance s t) i p) :=
  atFabric_up s t (fun s => rrecHead s i p) hfab

end

/-- Settles O13. -/
theorem ringEnabling : Obligations.RingEnabling := by
  unfold Obligations.RingEnabling
  refine ⟨?ringFit, ?ringUnfit, ?ringOff, ?cqOn, ?cqOff, ?cqStays, ?queueOn, ?queueOff, ?queueHead, ?rrecHead⟩
  case ringFit =>
    intro s t n hfab hoff hidle hcls hcq hhost
    have hfit : ringFit (advance s t) n = true := by simp [ringFit, hidle, hcls, hcq, hhost]
    refine ⟨_, exec_ringEnable t hfab n, ?_⟩
    rw [ringEnable_fit (s := advance s t) hoff hfit]
    exact ⟨ringFresh_fields _ n, ringFresh_onlyRegs _ n⟩
  case ringUnfit =>
    intro s t n hfab hoff hbad
    have hfit : ringFit (advance s t) n = false := by
      obtain h | h | h | h := hbad <;> simp [ringFit, h]
    rw [exec_ringEnable t hfab, ringEnable_unfit (s := advance s t) hoff hfit]
  case ringOff =>
    intro s t n hfab hon hidle
    have hrefs : ringRefs (advance s t) n = [] := by
      simpa [ringRefs, List.filter_eq_nil_iff, List.all_eq_true] using hidle
    rw [exec_ringDisable t hfab, ringDisable, ringEnabled_advance, if_pos hon, hrefs]
    rfl
  case cqOn =>
    intro s t m hfab hoff
    exact ⟨_, exec_cqEnable t hfab m, cqEnable_fields (s := advance s t) hoff⟩
  case cqOff =>
    intro s t m hfab hfree
    rw [exec_cqDisable t hfab, cqDisable_unbound (s := advance s t) hfree]
  case cqStays =>
    intro s t m n hfab hon hcq
    rw [exec_cqDisable t hfab, cqDisable_bound (s := advance s t) n.isLt hon hcq]
  case queueOn =>
    intro s t q hfab hoff
    exact ⟨_, exec_queueEnable t hfab q true, queueEnable_fields (s := advance s t) (queueOf_sound q) hoff, queueEnable_frame _ _ _ _ _⟩
  case queueOff =>
    intro s t q hfab
    exact exec_queueEnable t hfab q false
  case queueHead =>
    intro s t q i p hfab
    exact exec_queueHeadWrite t hfab q i p
  case rrecHead =>
    intro s t i p hfab
    exact exec_rrecHeadWrite t hfab i p

/-! ### Doorbells (R61–R66, R71–R74) -/

@[simp] theorem disableNow_of_pending (s u : State) (n : Nat) (h : u.pending = s.pending) (hn : u.now = s.now) :
    disableNow u n = disableNow s n := by
  simp only [disableNow, h, hn]

section
variable {s : State} (t : Fc) (hfab : s.fabric = true)
include hfab

theorem exec_tailDb (n : Fin 256) (i : Fin 65536) (p : Fin 2) (h : Bool) :
    exec (.tailDb t n i p ⟨h, 4⟩) s = .next (tailFirst (advance s t) n i p h) :=
  atFabric_up s t (onlyIf ((⟨h, 4⟩ : DbWrite).size == 4) fun s => tailFirst s n i p h) hfab

theorem exec_headDb (m : Fin 64) (i : Fin 65536) (p : Fin 2) (h : Bool) :
    exec (.headDb t m i p ⟨h, 4⟩) s = .next (headDoorbell (advance s t) m i p h) :=
  atFabric_up s t (onlyIf ((⟨h, 4⟩ : DbWrite).size == 4) fun s => headDoorbell s m i p h) hfab

theorem exec_abortDb (n : Fin 256) (i : Fin 65536) (h : Bool) :
    exec (.abortDb t n i ⟨h, 4⟩) s = .next (abortDoorbell (advance s t) n i h) :=
  atFabric_up s t (onlyIf ((⟨h, 4⟩ : DbWrite).size == 4) fun s => abortDoorbell s n i h) hfab

end

/-- A tail that is accepted: the descriptors behind the last tail join the outstanding ones. -/
def tailTaken (s : State) (n idx ph : Nat) : State :=
  let k := ringSize s n
  let p := ringPos k (rget s R.RING_TAIL_INDEX 0 n) (rget s R.RING_TAIL_PHASE 0 n)
  let s1 := { s with reqs := s.reqs ++ (submitFrom k p (ringDist k p (ringPos k idx ph)) n).map (nameReq s) }
  rset (rset s1 R.RING_TAIL_INDEX idx 0 n) R.RING_TAIL_PHASE ph 0 n

/-- A ring that takes tail doorbells by a path. -/
def tailOpen (s : State) (n : Nat) (host : Bool) : Bool :=
  rbit s R.RING_CFG_HOST 0 n == host && ringEnabled s n && !rbit s R.RING_CTRL_ERROR 0 n

theorem tailOpen_iff (s : State) (n : Nat) (host : Bool) : tailOpen s n host = true ↔
    rbit s R.RING_CFG_HOST 0 n = host ∧ ringEnabled s n = true ∧ rbit s R.RING_CTRL_ERROR 0 n = false := by
  simp [tailOpen, and_assoc]

theorem tailDoorbell_closed {s : State} {n : Nat} (idx ph : Nat) {host : Bool} (h : tailOpen s n host = false) :
    tailDoorbell s n idx ph host = rinc s R.RING_NOOP_DB_DISCARD 1 0 n := by
  unfold tailDoorbell
  by_cases hhost : rbit s R.RING_CFG_HOST 0 n ≠ host
  · exact if_pos hhost
  · rw [if_neg hhost]
    by_cases hoff : ringEnabled s n = true
    · have herr : rbit s R.RING_CTRL_ERROR 0 n = true := by
        simpa [tailOpen, hoff, not_not.mp hhost] using h
      rw [if_neg (by simp [hoff]), if_pos herr]
    · rw [if_pos (by simpa using hoff)]

theorem tailDoorbell_open {s : State} {n : Nat} (idx ph : Nat) {host : Bool} (h : tailOpen s n host = true) :
    tailDoorbell s n idx ph host =
      if ringSize s n ≤ idx then ringError (rinc s R.RING_NOOP_DB_DISCARD 1 0 n) n 2
      else if ringSize s n < ringCount s n + ringDist (ringSize s n)
          (ringPos (ringSize s n) (rget s R.RING_TAIL_INDEX 0 n) (rget s R.RING_TAIL_PHASE 0 n))
          (ringPos (ringSize s n) idx ph) then ringError (rinc s R.RING_NOOP_DB_DISCARD 1 0 n) n 1
      else tailTaken s n idx ph := by
  obtain ⟨hhost, hon, herr⟩ := (tailOpen_iff s n host).mp h
  unfold tailDoorbell
  rw [if_neg (not_not.mpr hhost), if_neg (by simp [hon]), if_neg (by simp [herr])]
  rfl

/-- Abort doorbells of earlier fabric cycles, and of other rings, do not meet a new tail. -/
theorem tailFirst_of_old_noops {s : State} {n idx ph : Nat} {host : Bool}
    (hold : ∀ x ∈ s.till.noops, x.at_ < s.now ∨ x.ring ≠ n) :
    tailFirst s n idx ph host =
      if disableNow s n ∧ rbit s R.RING_CFG_HOST 0 n = host then rinc s R.RING_NOOP_DB_DISCARD 1 0 n
      else tailDoorbell s n idx ph host := by
  unfold tailFirst
  refine foldl_invariant (P := (· = _)) rfl ?_
  rintro u x hx rfl
  refine if_neg fun hcon => ?_
  obtain ⟨hlate, hring⟩ := hcon
  obtain hlt | hne := hold x hx
  · omega
  · exact hne hring

/-- Nothing that stands among the outstanding descriptors already is new. -/
theorem find_new_none (s u : State) (n slot : Nat) (h : u.reqs = s.reqs) :
    ((sameSlot u n slot).find? fun q => q.aborted.isNone && !(s.reqs.map Req.ref).contains q.ref) = none := by
  rw [List.find?_eq_none]
  intro q hq
  have hmem : q ∈ s.reqs := by
    rw [sameSlot, h] at hq
    exact List.mem_of_mem_filter hq
  simpa using fun _ => ⟨q, hmem, rfl⟩

/-- A tail that submits nothing leaves the abort doorbells before it alone. -/
theorem tailFirst_of_no_new {s u : State} {n idx ph : Nat} {host : Bool}
    (hu : (if disableNow s n ∧ rbit s R.RING_CFG_HOST 0 n = host then rinc s R.RING_NOOP_DB_DISCARD 1 0 n
      else tailDoorbell s n idx ph host) = u) (hreqs : u.reqs = s.reqs) :
    tailFirst s n idx ph host = u := by
  unfold tailFirst
  rw [hu]
  refine foldl_invariant (P := (· = _)) rfl ?_
  rintro v x - rfl
  split
  · rw [find_new_none s v n x.slot hreqs]
  · rfl

theorem tailTaken_fields (s : State) (n : Nat) (i : Fin 65536) (p : Fin 2) :
    rget (tailTaken s n i p) R.RING_TAIL_INDEX 0 n = i ∧ rget (tailTaken s n i p) R.RING_TAIL_PHASE 0 n = p := by
  unfold tailTaken
  simp (disch := decide) only [rget_rset_self, rget_rset_ne]
  exact ⟨Nat.mod_eq_of_lt i.isLt, Nat.mod_eq_of_lt p.isLt⟩

theorem tailTaken_regsOnly (s : State) (n idx ph : Nat) :
    RegsOnly s (tailTaken s n idx ph) [R.RING_TAIL_INDEX.key 0 n, R.RING_TAIL_PHASE.key 0 n] := by
  unfold tailTaken
  exact RegsOnly.trans (rset_regsOnly _ _ _ _ _ (by simp)) (rset_regsOnly _ _ _ _ _ (by simp))

/-- A head doorbell by the right path, of an enabled ring and within it. -/
theorem headDoorbell_taken {s : State} {m idx ph : Nat} {host : Bool} (hhost : rbit s R.CQ_CFG_HOST 0 m = host)
    (hon : cqEnabled s m = true) (hidx : idx < cqSize s m)
    (hd : ringDist (cqSize s m) (ringPos (cqSize s m) (rget s R.CQ_HEAD_INDEX 0 m) (rget s R.CQ_HEAD_PHASE 0 m))
        (ringPos (cqSize s m) idx ph) ≤
      ringDist (cqSize s m) (ringPos (cqSize s m) (rget s R.CQ_HEAD_INDEX 0 m) (rget s R.CQ_HEAD_PHASE 0 m))
        (ringPos (cqSize s m) (rget s R.CQ_WRITE_INDEX 0 m) (rget s R.CQ_WRITE_PHASE 0 m))) :
    headDoorbell s m idx ph host =
      rset (rset (rset s R.CQ_HEAD_INDEX idx 0 m) R.CQ_HEAD_PHASE ph 0 m) R.CQ_FREE_FREE
        (rget s R.CQ_FREE_FREE 0 m + ringDist (cqSize s m)
          (ringPos (cqSize s m) (rget s R.CQ_HEAD_INDEX 0 m) (rget s R.CQ_HEAD_PHASE 0 m))
          (ringPos (cqSize s m) idx ph)) 0 m := by
  unfold headDoorbell
  dsimp only
  rw [if_neg (by simp [hhost, hon, hidx]), if_neg (not_lt.mpr hd)]

theorem headDoorbell_discarded {s : State} {m idx ph : Nat} {host : Bool}
    (h : rbit s R.CQ_CFG_HOST 0 m ≠ host ∨ cqEnabled s m = false ∨ cqSize s m ≤ idx ∨
      ringDist (cqSize s m) (ringPos (cqSize s m) (rget s R.CQ_HEAD_INDEX 0 m) (rget s R.CQ_HEAD_PHASE 0 m))
          (ringPos (cqSize s m) (rget s R.CQ_WRITE_INDEX 0 m) (rget s R.CQ_WRITE_PHASE 0 m)) <
        ringDist (cqSize s m) (ringPos (cqSize s m) (rget s R.CQ_HEAD_INDEX 0 m) (rget s R.CQ_HEAD_PHASE 0 m))
          (ringPos (cqSize s m) idx ph)) :
    headDoorbell s m idx ph host = s := by
  unfold headDoorbell
  dsimp only
  obtain h | h | h | h := h
  · rw [if_pos (.inl h)]
  · rw [if_pos (.inr (.inl (by simp [h])))]
  · rw [if_pos (.inr (.inr h))]
  · rw [if_pos h, ite_self]

/-- The fabric cycle in which an abort doorbell is registered: one a cycle (R71). -/
def abortFc (s : State) : Nat :=
  match s.till.abortAt with
  | some b => max s.now (b + 1)
  | none => s.now

theorem abortDoorbell_open {s : State} {n idx : Nat} {host : Bool} (hhost : rbit s R.RING_CFG_HOST 0 n = host)
    (hopen : ringOpen s n = true) :
    abortDoorbell s n idx host =
      match (sameSlot s n idx).find? fun q => q.aborted.isNone with
      | some q => abortDescAt { s with till := { s.till with abortAt := some (abortFc s) } } q.ref (abortFc s)
      | none => abortNoop { s with till := { s.till with abortAt := some (abortFc s) } } n idx (abortFc s) := by
  unfold abortDoorbell
  rw [if_neg (not_not.mpr hhost)]
  have hnot : ¬ (!ringOpen s n) = true := by simp [hopen]
  exact (if_neg hnot).trans rfl

theorem abortFc_of_none {s : State} (h : s.till.abortAt = none) : abortFc s = s.now := by
  rw [abortFc, h]

theorem abortFc_of_lt {s : State} (h : ∀ b, s.till.abortAt = some b → b < s.now) : abortFc s = s.now := by
  unfold abortFc
  split
  next b hb => have := h b hb; omega
  next => rfl

/-- An abort of a descriptor that still waits to be fetched only marks it. -/
theorem abortDescAt_waiting {s : State} {r : Ref} {q : Req} (a : Nat) (hq : findReq s r = some q)
    (hw : q.stage = .waiting) (hno : q.aborted = none) :
    abortDescAt s r a = updReq s r fun q => { q with aborted := some ⟨rowHere s, a, none⟩ } := by
  unfold abortDescAt abortReqAt
  rw [hq]
  simp [hw, hno]

theorem satTo_mod (w v : Nat) : satTo w v % 2 ^ w = satTo w v := by
  have : 0 < 2 ^ w := Nat.two_pow_pos w
  apply Nat.mod_eq_of_lt
  unfold satTo
  omega

theorem rget_rinc_self (s : State) (f : Fld) (n i j : Nat) :
    rget (rinc s f n i j) f i j = satTo f.width (rget s f i j + n) := by
  rw [rinc, rget_rset_self, satTo_mod]

/-- Settles O14. -/
theorem doorbells : Obligations.Doorbells := by
  unfold Obligations.Doorbells
  refine ⟨?taken, ?range, ?refused, ?headTaken, ?headRefused, ?abortWaiting, ?abortNone⟩
  case taken =>
    intro s t n i p h hfab hhost hon herr hi hroom hstays hold
    have hopen : tailOpen (advance s t) n h = true := (tailOpen_iff _ _ _).mpr ⟨hhost, hon, herr⟩
    have hu : tailFirst (advance s t) n i p h = tailTaken (advance s t) n i p := by
      rw [tailFirst_of_old_noops (s := advance s t) hold, if_neg (by simp [hstays]), tailDoorbell_open _ _ hopen]
      exact (if_neg (not_le.mpr hi)).trans (if_neg (not_lt.mpr hroom))
    refine ⟨_, exec_tailDb t hfab n i p h, ?_⟩
    rw [hu]
    obtain ⟨hidx, hph⟩ := tailTaken_fields (advance s t) n i p
    exact ⟨⟨hidx, hph, rfl⟩, rfl, tailTaken_regsOnly (advance s t) n i p⟩
  case range =>
    intro s t n i p h hfab hhost hon herr hi hstays
    have hopen : tailOpen (advance s t) n h = true := (tailOpen_iff _ _ _).mpr ⟨hhost, hon, herr⟩
    rw [exec_tailDb t hfab]
    refine congrArg _ (tailFirst_of_no_new (s := advance s t) ?_ rfl)
    rw [if_neg (by simp [hstays]), tailDoorbell_open _ _ hopen, ringSize_advance, if_pos hi]
    rfl
  case refused =>
    intro s t n i p h hfab hbad
    rw [exec_tailDb t hfab]
    refine congrArg _ (tailFirst_of_no_new (s := advance s t) ?_ rfl)
    split
    · rfl
    next hnot =>
      refine tailDoorbell_closed _ _ ?_
      by_contra hcon
      obtain ⟨hhost, hon, herr⟩ := (tailOpen_iff _ _ _).mp (Bool.of_not_eq_false hcon)
      obtain hb | hb | hb | hb := hbad
      · exact hb hhost
      · exact absurd (hb.symm.trans hon) (by decide)
      · exact absurd (hb.symm.trans herr) (by decide)
      · exact hnot ⟨hb, hhost⟩
  case headTaken =>
    intro s t m i p h hfab hhost hon hi hd
    rw [exec_headDb t hfab, headDoorbell_taken (s := advance s t) hhost hon hi hd]
    rfl
  case headRefused =>
    intro s t m i p h hfab hbad
    rw [exec_headDb t hfab, headDoorbell_discarded (s := advance s t) hbad]
  case abortWaiting =>
    intro s t n i h q hfab hhost hopen hfind hq hw hnone
    have hno : q.aborted = none := by simpa using List.find?_some hfind
    rw [exec_abortDb t hfab, abortDoorbell_open (s := advance s t) hhost hopen,
      abortFc_of_none (s := advance s t) hnone]
    have hfind' : ((sameSlot (advance s t) n i).find? fun q => q.aborted.isNone) = some q := hfind
    rw [hfind']
    exact congrArg _ (abortDescAt_waiting _ hq hw hno)
  case abortNone =>
    intro s t n i h hfab hhost hopen hnone hfind
    have hfind' : ((sameSlot (advance s t) n i).find? fun q => q.aborted.isNone) = none := hfind
    refine ⟨_, exec_abortDb t hfab n i h, ?_⟩
    rw [abortDoorbell_open (s := advance s t) hhost hopen, hfind']
    exact ⟨rget_rinc_self _ _ _ _ _, rfl, rset_regsOnly _ _ _ _ _ (by simp), rfl⟩

end Sys2Proof.Machine
end

section
/-! Register accesses (R9–R13, R106). -/

namespace Sys2Proof.Machine

/-! ### What an access that is not a plain word does -/

theorem plainAccess_false {off size : Nat} (h : off % 4 ≠ 0 ∨ size ≠ 4) : plainAccess off size = false := by
  simpa [plainAccess, imp_iff_not_or] using h

theorem plainAccess_four {off : Nat} (h : off % 4 = 0) : plainAccess off 4 = true := by
  simp [plainAccess, h]

theorem exec_registerWrite {off : Nat} (s : State) (t : Fc) (b : Blk) (inst : Nat) (v : Fin 4294967296)
    (h : off % 4 = 0) : exec (.registerWrite t b inst off v 4) s = .next (writeReg (advance s t) b inst off v) := by
  change Host.Outcome.next (if plainAccess off 4 then _ else _) = _
  rw [if_pos (plainAccess_four h)]

theorem exec_rw1cWrite {off : Nat} (s : State) (t : Fc) (b : Blk) (inst : Nat) (v : Fin 4294967296)
    (h : off % 4 = 0) : exec (.rw1cWrite t b inst off v 4) s = .next (clearReg (advance s t) b inst off v) := by
  change Host.Outcome.next (if plainAccess off 4 then _ else _) = _
  rw [if_pos (plainAccess_four h)]

theorem readRow_unaligned {s : State} {off size : Nat} (b : Blk) (inst : Nat) (p : Fld → Bool)
    (h : off % 4 ≠ 0 ∨ size ≠ 4) : readRow s b inst off size p = { s with readData := 0 } := by
  unfold readRow
  rw [plainAccess_false h]
  rfl

theorem readRow_meets {s : State} {off : Nat} {b : Blk} {inst : Nat} {p : Fld → Bool} (h : off % 4 = 0)
    (hp : ((fieldsAt b inst off).any fun x => p x.1) = true) : readRow s b inst off 4 p = readReg s b inst off := by
  unfold readRow
  rw [plainAccess_four h, hp]
  rfl

theorem exec_rolRead {off : Nat} (s : State) (t : Fc) (b : Blk) (inst : Nat) (h : off % 4 = 0)
    (hp : ((fieldsAt b inst off).any fun x => x.1.acc == .rol) = true) :
    exec (.rolRead t b inst off 4) s = .next (readReg (advance s t) b inst off) :=
  congrArg Host.Outcome.next (readRow_meets (p := fun f => f.acc == .rol) h hp)

theorem exec_loHalfRead {off : Nat} (s : State) (t : Fc) (b : Blk) (inst : Nat) (h : off % 4 = 0)
    (hp : ((fieldsAt b inst off).any fun x => isHalf x.1) = true) :
    exec (.loHalfRead t b inst off 4) s = .next (readReg (advance s t) b inst off) :=
  congrArg Host.Outcome.next (readRow_meets (p := isHalf) h hp)

/-! ### Registers of one field -/

theorem windowOpen_running {s : State} {b : Blk} {inst : Nat} (hfab : s.fabric = true) (hi : inst < blkCount b)
    (hb : b ≠ .fle) : windowOpen s b inst = true := by
  have hfle : (b == .fle) = false := beq_false_of_ne hb
  simp [windowOpen, hfab, hi, hfle]

@[simp] theorem windowOpen_advance (s : State) (t : Fc) (b : Blk) (inst : Nat) :
    windowOpen (advance s t) b inst = windowOpen s b inst := rfl

@[simp] theorem tkeArmed_advance (s : State) (t : Fc) : tkeArmed (advance s t) = tkeArmed s := rfl

/-- A write to a register of one field, whose window answers, writes that field. -/
theorem writeReg_one {s : State} {b : Blk} {inst off : Nat} {f : Fld} {i j : Nat} (v : Nat)
    (hopen : windowOpen s b inst = true) (hf : fieldsAt b inst off = [(f, i, j)]) :
    writeReg s b inst off v = fieldWrite s s f i j (bitField v f.lsb f.width) := by
  unfold writeReg
  rw [if_pos hopen, hf]
  rfl

/-- A read of a register of one field, whose window answers, takes that field. -/
theorem readReg_one {s : State} {b : Blk} {inst off : Nat} {f : Fld} {i j : Nat}
    (hopen : windowOpen s b inst = true) (hf : fieldsAt b inst off = [(f, i, j)]) :
    readReg s b inst off = { (fieldPair s f i j).2 with readData := (fieldPair s f i j).1 } := by
  unfold readReg
  rw [if_pos hopen, hf]
  simp

theorem bitField_whole {v w : Nat} (h : v < 2 ^ w) : bitField v 0 w = v := by
  simp [bitField, Nat.mod_eq_of_lt h]

/-- A field that arming protects is written where it is not armed and the value is accepted (R12). -/
theorem fieldWrite_rwa {f : Fld} (s0 s : State) (i j v : Nat) (hacc : f.acc = .rwa) : fieldWrite s0 s f i j v =
    if (!fieldArmed s0 f i j && !rowTakes f v && fieldAccepts s0 f i j v) = true then
      afterWrite s f i j (rset s f (kept f j v) i j) else s := by
  unfold fieldWrite
  rw [hacc]

/-- TKE_TICK_PERIOD takes a period within R106 while the tick engine is not armed. -/
theorem fieldWrite_tickPeriod (s : State) (v : Nat) : fieldWrite s s R.TKE_TICK_PERIOD_PERIOD_US 0 0 v =
    if tkeArmed s = false ∧ 250 ≤ v ∧ v ≤ 20000 then rset s R.TKE_TICK_PERIOD_PERIOD_US v else s := by
  have hacc : fieldAccepts s R.TKE_TICK_PERIOD_PERIOD_US 0 0 v = decide (250 ≤ v ∧ v ≤ 20000) := rfl
  have harm : fieldArmed s R.TKE_TICK_PERIOD_PERIOD_US 0 0 = tkeArmed s := rfl
  have hrow : rowTakes R.TKE_TICK_PERIOD_PERIOD_US v = false := rfl
  have hafter : afterWrite s R.TKE_TICK_PERIOD_PERIOD_US 0 0
      (rset s R.TKE_TICK_PERIOD_PERIOD_US (kept R.TKE_TICK_PERIOD_PERIOD_US 0 v)) =
        rset s R.TKE_TICK_PERIOD_PERIOD_US v := rfl
  rw [fieldWrite_rwa s s 0 0 v rfl, hacc, harm, hrow, hafter]
  exact if_congr (by simp) rfl rfl

/-! ### Clearing by a written 1 -/

theorem clearOnes_zero (s : State) (f : Fld) (i j : Nat) : clearOnes s f 0 i j = s := by
  unfold clearOnes
  refine foldl_invariant (P := (· = s)) rfl ?_
  rintro u n - rfl
  exact if_neg (by simp [bitOf])

/-- A 1 written to a flag of one bit clears it, unless the module set it in the same fabric cycle. -/
theorem clearOnes_flag (s : State) (f : Fld) (i j : Nat) (hw : f.width = 1) :
    clearOnes s f 1 i j =
      if tblGet? s.onesAt (32 * f.key i j) = some s.now then s else rsetBitAt s f 0 false i j := by
  unfold clearOnes
  rw [hw]
  have hbit : bitOf 1 0 = true := rfl
  simp only [List.range_one, List.foldl_cons, List.foldl_nil, Nat.add_zero, hbit, Bool.true_and]
  by_cases h : tblGet? s.onesAt (32 * f.key i j) = some s.now <;> simp [h]

theorem rsetBitAt_flag_false {s : State} {f : Fld} {i j : Nat} (hset : rget s f i j = 1) :
    rsetBitAt s f 0 false i j = rset s f 0 i j := by
  rw [rsetBitAt, hset]
  rfl

/-- Of the power register a write of bit 12 clears BIND_ABORTED alone (R423). -/
theorem clearReg_bindAborted {s : State} (hfab : s.fabric = true) :
    clearReg s .aoc 0 0x000 4096 = clearOnes s R.AOC_PWR_STATE_BIND_ABORTED 1 0 0 := by
  have hf : fieldsAt .aoc 0 0x000 = [(R.AOC_PWR_STATE_LAST, 0, 0), (R.AOC_PWR_STATE_THROTTLED, 0, 0),
      (R.AOC_PWR_STATE_SLEEP_ERR, 0, 0), (R.AOC_PWR_STATE_BINDING, 0, 0), (R.AOC_PWR_STATE_BIND_STEP, 0, 0),
      (R.AOC_PWR_STATE_BIND_ABORTED, 0, 0), (R.AOC_PWR_STATE_BIND_TIMEOUT, 0, 0),
      (R.AOC_PWR_STATE_SUSPEND_TIMEOUT, 0, 0), (R.AOC_PWR_STATE_RTC_VALID, 0, 0)] := rfl
  unfold clearReg
  rw [if_pos (windowOpen_running hfab (by decide) (by decide)), hf]
  change clearOnes (clearOnes (clearOnes s _ 1 0 0) _ 0 0 0) _ 0 0 0 = _
  rw [clearOnes_zero, clearOnes_zero]

/-! ### Reading a latch, and the halves of a pair -/

/-- A peak latched before the present fabric cycle is returned and released. -/
theorem rolRead_peak {s : State} {f : Fld} {i a w b : Nat} (hl : tblGet? s.rolLatch (f.key i 0) = some ⟨a, some w, none, b⟩)
    (ha : a < s.now) : rolRead s f true i = (w, { s with rolLatch := tblErase s.rolLatch (f.key i 0) }) := by
  unfold rolRead
  dsimp only
  rw [hl]
  simp [ha.ne, peakMax]

/-- A field whose high half is not latched is taken, and as a low half latches its high one. -/
theorem fieldPair_fresh {s : State} {f : Fld} {i j : Nat} (h : tblGet? s.hiLatch (f.key i j) = none) :
    fieldPair s f i j = match loHalves.find? fun p => p.1 = f with
      | some p => ((fieldTake s f i j).1, latchHigh (fieldTake s f i j).2 p.2 i)
      | none => fieldTake s f i j := by
  unfold fieldPair
  rw [h] <;> rfl

/-- The low half of the row counter is read, and its high half latched. -/
theorem fieldPair_rowLo {s : State} (h : s.hiLatch = []) : fieldPair s R.TKE_ROW_LO_ROW 0 0 =
    (rget s R.TKE_ROW_LO_ROW % 2 ^ 32,
      { s with hiLatch := [(R.TKE_ROW_HI_ROW.key 0 0, rget s R.TKE_ROW_HI_ROW % 2 ^ 32)] }) := by
  have hlo : fieldTake s R.TKE_ROW_LO_ROW 0 0 = (rget s R.TKE_ROW_LO_ROW % 2 ^ 32 * 1, s) := rfl
  have hhi : fieldTake s R.TKE_ROW_HI_ROW 0 0 = (rget s R.TKE_ROW_HI_ROW % 2 ^ 32 * 1, s) := rfl
  have hpair : (loHalves.find? fun p => p.1 = R.TKE_ROW_LO_ROW) = some (R.TKE_ROW_LO_ROW, R.TKE_ROW_HI_ROW) := rfl
  rw [fieldPair_fresh (by rw [h]; rfl), hpair]
  simp only [hlo, latchHigh, hhi, h, tblSet, Nat.mul_one]

/-- The peak of the tick engine's cost is taken from its latch. -/
theorem fieldPair_peak {s : State} (h : tblGet? s.hiLatch (R.TKE_PEAK_FC.key 0 0) = none) :
    fieldPair s R.TKE_PEAK_FC 0 0 =
      ((rolRead s R.TKE_PEAK_FC true).1 * 1, (rolRead s R.TKE_PEAK_FC true).2) := by
  have hpair : (loHalves.find? fun p => p.1 = R.TKE_PEAK_FC) = none := rfl
  rw [fieldPair_fresh h, hpair]
  rfl

theorem fieldPair_latched {s : State} {f : Fld} {i j v : Nat} (h : tblGet? s.hiLatch (f.key i j) = some v) :
    fieldPair s f i j = (v, { s with hiLatch := tblErase s.hiLatch (f.key i j) }) := by
  rw [fieldPair, h]

/-- Settles O12. -/
theorem registerWrites : Obligations.RegisterWrites := by
  unfold Obligations.RegisterWrites
  refine ⟨?unaligned, ?wakeTol, ?period, ?periodLeft, ?cleared, ?kept, ?peak, ?low, ?high, ?badRead⟩
  case unaligned =>
    intro s t b inst off v size h
    change Host.Outcome.next (if plainAccess off size then _ else _) = _
    rw [plainAccess_false h]
    rfl
  case wakeTol =>
    intro s t v hfab
    rw [exec_registerWrite s t _ _ _ rfl,
      writeReg_one (f := R.AOC_WAKE_TOLERANCE_US) (i := 0) (j := 0) _
        (windowOpen_running (s := advance s t) hfab (by decide) (by decide)) rfl]
    have hv : bitField v.val R.AOC_WAKE_TOLERANCE_US.lsb R.AOC_WAKE_TOLERANCE_US.width = v.val :=
      bitField_whole (w := 32) v.isLt
    rw [hv]
    rfl
  case period =>
    intro s t v hfab harm hlo hhi
    have hv : bitField v.val R.TKE_TICK_PERIOD_PERIOD_US.lsb R.TKE_TICK_PERIOD_PERIOD_US.width = v.val :=
      bitField_whole (w := 15) (by omega)
    rw [exec_registerWrite s t _ _ _ rfl,
      writeReg_one (f := R.TKE_TICK_PERIOD_PERIOD_US) (i := 0) (j := 0) _
        (windowOpen_running (s := advance s t) hfab (by decide) (by decide)) rfl,
      hv, fieldWrite_tickPeriod, if_pos ⟨harm, hlo, hhi⟩]
  case periodLeft =>
    intro s t v hfab hbad
    have hv : bitField v.val R.TKE_TICK_PERIOD_PERIOD_US.lsb R.TKE_TICK_PERIOD_PERIOD_US.width = v.val % 32768 := by
      simp [bitField, R.TKE_TICK_PERIOD_PERIOD_US]
    rw [exec_registerWrite s t _ _ _ rfl,
      writeReg_one (f := R.TKE_TICK_PERIOD_PERIOD_US) (i := 0) (j := 0) _
        (windowOpen_running (s := advance s t) hfab (by decide) (by decide)) rfl,
      hv, fieldWrite_tickPeriod, if_neg]
    rintro ⟨harm, hlo, hhi⟩
    obtain h | h | h := hbad
    · exact absurd (h.symm.trans harm) (by decide)
    · omega
    · omega
  case cleared =>
    intro s t hfab hset hold
    have h4096 : ((4096 : Fin 4294967296) : Nat) = 4096 := rfl
    rw [exec_rw1cWrite s t _ _ _ rfl, h4096, clearReg_bindAborted (s := advance s t) hfab,
      clearOnes_flag (advance s t) _ _ _ rfl]
    exact congrArg _ ((if_neg hold).trans (rsetBitAt_flag_false hset))
  case kept =>
    intro s t hfab hnew
    have h4096 : ((4096 : Fin 4294967296) : Nat) = 4096 := rfl
    rw [exec_rw1cWrite s t _ _ _ rfl, h4096, clearReg_bindAborted (s := advance s t) hfab,
      clearOnes_flag (advance s t) _ _ _ rfl]
    exact congrArg _ (if_pos hnew)
  case peak =>
    intro s t a w b hfab hl ha hhi
    rw [exec_rolRead s t _ _ rfl rfl, readReg_one (f := R.TKE_PEAK_FC) (i := 0) (j := 0)
        (windowOpen_running (s := advance s t) hfab (by decide) (by decide)) rfl,
      fieldPair_peak (s := advance s t) hhi, rolRead_peak (s := advance s t) (i := 0) hl ha, Nat.mul_one]
    rfl
  case low =>
    intro s t hfab hhi
    rw [exec_loHalfRead s t _ _ rfl rfl, readReg_one (f := R.TKE_ROW_LO_ROW) (i := 0) (j := 0)
        (windowOpen_running (s := advance s t) hfab (by decide) (by decide)) rfl,
      fieldPair_rowLo (s := advance s t) hhi]
    rfl
  case high =>
    intro s t v hfab hhi
    have hl : tblGet? (advance s t).hiLatch (R.TKE_ROW_HI_ROW.key 0 0) = some v := by
      rw [advance_hiLatch, hhi]
      simp [tblGet?]
    rw [exec_loHalfRead s t _ _ rfl rfl, readReg_one (f := R.TKE_ROW_HI_ROW) (i := 0) (j := 0)
        (windowOpen_running (s := advance s t) hfab (by decide) (by decide)) rfl,
      fieldPair_latched hl, advance_hiLatch, hhi]
    simp [tblErase]
  case badRead =>
    intro s t b inst off size h
    exact ⟨congrArg Host.Outcome.next (readRow_unaligned b inst _ h),
      congrArg Host.Outcome.next (readRow_unaligned b inst _ h)⟩

end Sys2Proof.Machine
end

section
/-! What an operation may change: `Within ps bs o s` says that from `o` to `s` nothing but the parts `ps` of the state has
changed, and of its registers none outside the blocks `bs`. The lemma of an operation rests on those of the operations it
calls; `Within.eq_frame` and `Within.blocks` then give the frame conditions of the obligations. -/

namespace Sys2Proof.Machine

/-- The parts of the state. -/
inductive Part where
  | now | before | pending | regs | hiLatch | rolLatch | onesAt | readData | freeCount | fabric | timeOff | rtcOff |
  mem | extMem | log | arbs | reqs | till | cqIrq | irqs | tke | sps | sfe | fetches | drv | dbk | sw | feed | pps |
  rowEntries | xlk | nav | sto | fle | ksm | vis | can | eth | pnl | upd | aoc | hlm
  deriving DecidableEq

/-- The numbers of these blocks, as register keys carry them. -/
def blks (l : List Blk) : List Nat := l.map blkCode

/-- From `o` to `s` nothing but these parts, and no registers but of the blocks of these numbers, have changed. -/
structure Within (ps : List Part) (bs : List Nat) (o s : State) : Prop where
  now : .now ∈ ps ∨ s.now = o.now
  before : .before ∈ ps ∨ s.before = o.before
  pending : .pending ∈ ps ∨ s.pending = o.pending
  regs : .regs ∈ ps ∨ s.regs = o.regs
  hiLatch : .hiLatch ∈ ps ∨ s.hiLatch = o.hiLatch
  rolLatch : .rolLatch ∈ ps ∨ s.rolLatch = o.rolLatch
  onesAt : .onesAt ∈ ps ∨ s.onesAt = o.onesAt
  readData : .readData ∈ ps ∨ s.readData = o.readData
  freeCount : .freeCount ∈ ps ∨ s.freeCount = o.freeCount
  fabric : .fabric ∈ ps ∨ s.fabric = o.fabric
  timeOff : .timeOff ∈ ps ∨ s.timeOff = o.timeOff
  rtcOff : .rtcOff ∈ ps ∨ s.rtcOff = o.rtcOff
  mem : .mem ∈ ps ∨ s.mem = o.mem
  extMem : .extMem ∈ ps ∨ s.extMem = o.extMem
  log : .log ∈ ps ∨ s.log = o.log
  arbs : .arbs ∈ ps ∨ s.arbs = o.arbs
  reqs : .reqs ∈ ps ∨ s.reqs = o.reqs
  till : .till ∈ ps ∨ s.till = o.till
  cqIrq : .cqIrq ∈ ps ∨ s.cqIrq = o.cqIrq
  irqs : .irqs ∈ ps ∨ s.irqs = o.irqs
  tke : .tke ∈ ps ∨ s.tke = o.tke
  sps : .sps ∈ ps ∨ s.sps = o.sps
  sfe : .sfe ∈ ps ∨ s.sfe = o.sfe
  fetches : .fetches ∈ ps ∨ s.fetches = o.fetches
  drv : .drv ∈ ps ∨ s.drv = o.drv
  dbk : .dbk ∈ ps ∨ s.dbk = o.dbk
  sw : .sw ∈ ps ∨ s.sw = o.sw
  feed : .feed ∈ ps ∨ s.feed = o.feed
  pps : .pps ∈ ps ∨ s.pps = o.pps
  rowEntries : .rowEntries ∈ ps ∨ s.rowEntries = o.rowEntries
  xlk : .xlk ∈ ps ∨ s.xlk = o.xlk
  nav : .nav ∈ ps ∨ s.nav = o.nav
  sto : .sto ∈ ps ∨ s.sto = o.sto
  fle : .fle ∈ ps ∨ s.fle = o.fle
  ksm : .ksm ∈ ps ∨ s.ksm = o.ksm
  vis : .vis ∈ ps ∨ s.vis = o.vis
  can : .can ∈ ps ∨ s.can = o.can
  eth : .eth ∈ ps ∨ s.eth = o.eth
  pnl : .pnl ∈ ps ∨ s.pnl = o.pnl
  upd : .upd ∈ ps ∨ s.upd = o.upd
  aoc : .aoc ∈ ps ∨ s.aoc = o.aoc
  hlm : .hlm ∈ ps ∨ s.hlm = o.hlm
  blocks : ∀ k, keyBlk k ∉ bs → tblGet? s.regs k = tblGet? o.regs k

section
variable {ps qs : List Part} {bs cs : List Nat} {o s u : State}

theorem Within.refl (s : State) : Within ps bs s s :=
  ⟨.inr rfl, .inr rfl, .inr rfl, .inr rfl, .inr rfl, .inr rfl, .inr rfl, .inr rfl, .inr rfl, .inr rfl, .inr rfl,
    .inr rfl, .inr rfl, .inr rfl, .inr rfl, .inr rfl, .inr rfl, .inr rfl, .inr rfl, .inr rfl, .inr rfl, .inr rfl,
    .inr rfl, .inr rfl, .inr rfl, .inr rfl, .inr rfl, .inr rfl, .inr rfl, .inr rfl, .inr rfl, .inr rfl, .inr rfl,
    .inr rfl, .inr rfl, .inr rfl, .inr rfl, .inr rfl, .inr rfl, .inr rfl, .inr rfl, .inr rfl, fun _ _ => rfl⟩

theorem covered {α : Type} [DecidableEq α] {l m : List α} {x : α} (h : l.all (· ∈ m) = true) (hx : x ∈ l) : x ∈ m :=
  of_decide_eq_true (List.all_eq_true.mp h x hx)

theorem part_step {α : Type} {a b c : α} {p q : Prop} (hp : q → p) (k : q ∨ c = b) (h : p ∨ b = a) : p ∨ c = a :=
  k.elim (fun hq => .inl (hp hq)) fun hc => h.imp_right hc.trans

/-- What a further operation changes is among what may change. -/
theorem Within.step (k : Within qs cs s u) (h : Within ps bs o s) (hp : qs.all (· ∈ ps) = true)
    (hb : cs.all (· ∈ bs) = true) : Within ps bs o u :=
  have hpart {α : Type} {p : Part} {a b c : α} (k : p ∈ qs ∨ c = b) (h : p ∈ ps ∨ b = a) : p ∈ ps ∨ c = a :=
    part_step (covered hp) k h
  ⟨hpart k.now h.now, hpart k.before h.before, hpart k.pending h.pending, hpart k.regs h.regs,
    hpart k.hiLatch h.hiLatch, hpart k.rolLatch h.rolLatch, hpart k.onesAt h.onesAt, hpart k.readData h.readData,
    hpart k.freeCount h.freeCount, hpart k.fabric h.fabric, hpart k.timeOff h.timeOff, hpart k.rtcOff h.rtcOff,
    hpart k.mem h.mem, hpart k.extMem h.extMem, hpart k.log h.log, hpart k.arbs h.arbs, hpart k.reqs h.reqs,
    hpart k.till h.till, hpart k.cqIrq h.cqIrq, hpart k.irqs h.irqs, hpart k.tke h.tke, hpart k.sps h.sps,
    hpart k.sfe h.sfe, hpart k.fetches h.fetches, hpart k.drv h.drv, hpart k.dbk h.dbk, hpart k.sw h.sw,
    hpart k.feed h.feed, hpart k.pps h.pps, hpart k.rowEntries h.rowEntries, hpart k.xlk h.xlk, hpart k.nav h.nav,
    hpart k.sto h.sto, hpart k.fle h.fle, hpart k.ksm h.ksm, hpart k.vis h.vis, hpart k.can h.can,
    hpart k.eth h.eth, hpart k.pnl h.pnl, hpart k.upd h.upd, hpart k.aoc h.aoc, hpart k.hlm h.hlm,
    fun n hn => (k.blocks n fun hc => hn (covered hb hc)).trans (h.blocks n hn)⟩

/-- More may change. -/
theorem Within.mono (k : Within qs cs o s) (hp : qs.all (· ∈ ps) = true)
    (hb : cs.all (· ∈ bs) = true) : Within ps bs o s := k.step (.refl o) hp hb

/-- A part of the new state if it may have changed, else of the old one. -/
def part {α : Type} (ps : List Part) (p : Part) (old new : α) : α := if p ∈ ps then new else old

theorem part_of {α : Type} {old new : α} {p : Part} (h : p ∈ ps ∨ new = old) : part ps p old new = new := by
  unfold part
  obtain h | rfl := h
  · exact if_pos h
  · exact ite_self _

/-- The old state with the parts that may have changed taken from the new one. -/
def State.frame (ps : List Part) (o s : State) : State :=
  ⟨part ps .now o.now s.now, part ps .before o.before s.before, part ps .pending o.pending s.pending, part ps .regs
    o.regs s.regs, part ps .hiLatch o.hiLatch s.hiLatch, part ps .rolLatch o.rolLatch s.rolLatch, part ps .onesAt
    o.onesAt s.onesAt, part ps .readData o.readData s.readData, part ps .freeCount o.freeCount s.freeCount, part ps
    .fabric o.fabric s.fabric, part ps .timeOff o.timeOff s.timeOff, part ps .rtcOff o.rtcOff s.rtcOff, part ps .mem
    o.mem s.mem, part ps .extMem o.extMem s.extMem, part ps .log o.log s.log, part ps .arbs o.arbs s.arbs, part ps
    .reqs o.reqs s.reqs, part ps .till o.till s.till, part ps .cqIrq o.cqIrq s.cqIrq, part ps .irqs o.irqs s.irqs,
    part ps .tke o.tke s.tke, part ps .sps o.sps s.sps, part ps .sfe o.sfe s.sfe, part ps .fetches o.fetches
    s.fetches, part ps .drv o.drv s.drv, part ps .dbk o.dbk s.dbk, part ps .sw o.sw s.sw, part ps .feed o.feed
    s.feed, part ps .pps o.pps s.pps, part ps .rowEntries o.rowEntries s.rowEntries, part ps .xlk o.xlk s.xlk, part
    ps .nav o.nav s.nav, part ps .sto o.sto s.sto, part ps .fle o.fle s.fle, part ps .ksm o.ksm s.ksm, part ps .vis
    o.vis s.vis, part ps .can o.can s.can, part ps .eth o.eth s.eth, part ps .pnl o.pnl s.pnl, part ps .upd o.upd
    s.upd, part ps .aoc o.aoc s.aoc, part ps .hlm o.hlm s.hlm⟩

theorem Within.eq_frame (h : Within ps bs o s) : s = State.frame ps o s := by
  unfold State.frame
  rw [part_of h.now, part_of h.before, part_of h.pending, part_of h.regs, part_of h.hiLatch, part_of h.rolLatch,
    part_of h.onesAt, part_of h.readData, part_of h.freeCount, part_of h.fabric, part_of h.timeOff, part_of
    h.rtcOff, part_of h.mem, part_of h.extMem, part_of h.log, part_of h.arbs, part_of h.reqs, part_of h.till,
    part_of h.cqIrq, part_of h.irqs, part_of h.tke, part_of h.sps, part_of h.sfe, part_of h.fetches, part_of h.drv,
    part_of h.dbk, part_of h.sw, part_of h.feed, part_of h.pps, part_of h.rowEntries, part_of h.xlk, part_of h.nav,
    part_of h.sto, part_of h.fle, part_of h.ksm, part_of h.vis, part_of h.can, part_of h.eth, part_of h.pnl, part_of
    h.upd, part_of h.aoc, part_of h.hlm]

theorem within_ite {c : Prop} [Decidable c] (hs : Within ps bs o s) (hu : Within ps bs o u) :
    Within ps bs o (if c then s else u) := by
  split <;> assumption

theorem foldl_within {α : Type} {f : State → α → State} {l : List α}
    (hf : ∀ u x, Within ps bs o u → Within ps bs o (f u x)) (h : Within ps bs o s) : Within ps bs o (l.foldl f s) :=
  foldl_invariant h fun u x _ hu => hf u x hu

theorem foldl_fst_within {α β : Type} {f : State × β → α → State × β} {s : State × β} {l : List α}
    (hf : ∀ u x, Within ps bs o u.1 → Within ps bs o (f u x).1) (h : Within ps bs o s.1) :
    Within ps bs o (l.foldl f s).1 :=
  foldl_invariant (P := fun u => Within ps bs o u.1) h fun u x _ hu => hf u x hu

theorem within_rolLatch {rolLatch : Tbl RolSt} (h : Within ps bs o s) (hp : ([.rolLatch] : List Part).all (· ∈ ps) =
    true) :
    Within ps bs o { s with rolLatch } :=
  { h with
    rolLatch := .inl (covered hp (by simp)) }

theorem within_onesAt {onesAt : Tbl Nat} (h : Within ps bs o s) (hp : ([.onesAt] : List Part).all (· ∈ ps) = true) :
    Within ps bs o { s with onesAt } :=
  { h with
    onesAt := .inl (covered hp (by simp)) }

theorem within_freeCount {freeCount : Nat} (h : Within ps bs o s) (hp : ([.freeCount] : List Part).all (· ∈ ps) =
    true) :
    Within ps bs o { s with freeCount } :=
  { h with
    freeCount := .inl (covered hp (by simp)) }

theorem within_rtcOff {rtcOff : Int} (h : Within ps bs o s) (hp : ([.rtcOff] : List Part).all (· ∈ ps) = true) :
    Within ps bs o { s with rtcOff } :=
  { h with
    rtcOff := .inl (covered hp (by simp)) }

theorem within_mem {mem : Memory} (h : Within ps bs o s) (hp : ([.mem] : List Part).all (· ∈ ps) = true) :
    Within ps bs o { s with mem } :=
  { h with
    mem := .inl (covered hp (by simp)) }

theorem within_log {log : EventLog} (h : Within ps bs o s) (hp : ([.log] : List Part).all (· ∈ ps) = true) :
    Within ps bs o { s with log } :=
  { h with
    log := .inl (covered hp (by simp)) }

theorem within_arbs {arbs : Tbl Arb} (h : Within ps bs o s) (hp : ([.arbs] : List Part).all (· ∈ ps) = true) :
    Within ps bs o { s with arbs } :=
  { h with
    arbs := .inl (covered hp (by simp)) }

theorem within_reqs {reqs : List Req} (h : Within ps bs o s) (hp : ([.reqs] : List Part).all (· ∈ ps) = true) :
    Within ps bs o { s with reqs } :=
  { h with
    reqs := .inl (covered hp (by simp)) }

theorem within_till {till : Till} (h : Within ps bs o s) (hp : ([.till] : List Part).all (· ∈ ps) = true) :
    Within ps bs o { s with till } :=
  { h with
    till := .inl (covered hp (by simp)) }

theorem within_cqIrq {cqIrq : Tbl CqIrq} (h : Within ps bs o s) (hp : ([.cqIrq] : List Part).all (· ∈ ps) = true) :
    Within ps bs o { s with cqIrq } :=
  { h with
    cqIrq := .inl (covered hp (by simp)) }

theorem within_irqs {irqs : Tbl Nat} (h : Within ps bs o s) (hp : ([.irqs] : List Part).all (· ∈ ps) = true) :
    Within ps bs o { s with irqs } :=
  { h with
    irqs := .inl (covered hp (by simp)) }

theorem within_tke {tke : Tke} (h : Within ps bs o s) (hp : ([.tke] : List Part).all (· ∈ ps) = true) :
    Within ps bs o { s with tke } :=
  { h with
    tke := .inl (covered hp (by simp)) }

theorem within_sps {sps : Sps} (h : Within ps bs o s) (hp : ([.sps] : List Part).all (· ∈ ps) = true) :
    Within ps bs o { s with sps } :=
  { h with
    sps := .inl (covered hp (by simp)) }

theorem within_sfe {sfe : Sfe} (h : Within ps bs o s) (hp : ([.sfe] : List Part).all (· ∈ ps) = true) :
    Within ps bs o { s with sfe } :=
  { h with
    sfe := .inl (covered hp (by simp)) }

theorem within_drv {drv : Tbl DrvCh} (h : Within ps bs o s) (hp : ([.drv] : List Part).all (· ∈ ps) = true) :
    Within ps bs o { s with drv } :=
  { h with
    drv := .inl (covered hp (by simp)) }

theorem within_dbk {dbk : Tbl DrvBank} (h : Within ps bs o s) (hp : ([.dbk] : List Part).all (· ∈ ps) = true) :
    Within ps bs o { s with dbk } :=
  { h with
    dbk := .inl (covered hp (by simp)) }

theorem within_sw {sw : Tbl SwCh} (h : Within ps bs o s) (hp : ([.sw] : List Part).all (· ∈ ps) = true) :
    Within ps bs o { s with sw } :=
  { h with
    sw := .inl (covered hp (by simp)) }

theorem within_feed {feed : Tbl Feed} (h : Within ps bs o s) (hp : ([.feed] : List Part).all (· ∈ ps) = true) :
    Within ps bs o { s with feed } :=
  { h with
    feed := .inl (covered hp (by simp)) }

theorem within_pps {pps : Tbl Pps} (h : Within ps bs o s) (hp : ([.pps] : List Part).all (· ∈ ps) = true) :
    Within ps bs o { s with pps } :=
  { h with
    pps := .inl (covered hp (by simp)) }

theorem within_rowEntries {rowEntries : Tbl Nat} (h : Within ps bs o s) (hp : ([.rowEntries] : List Part).all (· ∈ ps)
    = true) :
    Within ps bs o { s with rowEntries } :=
  { h with
    rowEntries := .inl (covered hp (by simp)) }

theorem within_xlk {xlk : Xlk} (h : Within ps bs o s) (hp : ([.xlk] : List Part).all (· ∈ ps) = true) :
    Within ps bs o { s with xlk } :=
  { h with
    xlk := .inl (covered hp (by simp)) }

theorem within_nav {nav : Nav} (h : Within ps bs o s) (hp : ([.nav] : List Part).all (· ∈ ps) = true) :
    Within ps bs o { s with nav } :=
  { h with
    nav := .inl (covered hp (by simp)) }

theorem within_sto {sto : Sto} (h : Within ps bs o s) (hp : ([.sto] : List Part).all (· ∈ ps) = true) :
    Within ps bs o { s with sto } :=
  { h with
    sto := .inl (covered hp (by simp)) }

theorem within_fle {fle : Fle} (h : Within ps bs o s) (hp : ([.fle] : List Part).all (· ∈ ps) = true) :
    Within ps bs o { s with fle } :=
  { h with
    fle := .inl (covered hp (by simp)) }

theorem within_ksm {ksm : Ksm} (h : Within ps bs o s) (hp : ([.ksm] : List Part).all (· ∈ ps) = true) :
    Within ps bs o { s with ksm } :=
  { h with
    ksm := .inl (covered hp (by simp)) }

theorem within_vis {vis : Vision} (h : Within ps bs o s) (hp : ([.vis] : List Part).all (· ∈ ps) = true) :
    Within ps bs o { s with vis } :=
  { h with
    vis := .inl (covered hp (by simp)) }

theorem within_can {can : Tbl CanCtl} (h : Within ps bs o s) (hp : ([.can] : List Part).all (· ∈ ps) = true) :
    Within ps bs o { s with can } :=
  { h with
    can := .inl (covered hp (by simp)) }

theorem within_eth {eth : Tbl EthPort} (h : Within ps bs o s) (hp : ([.eth] : List Part).all (· ∈ ps) = true) :
    Within ps bs o { s with eth } :=
  { h with
    eth := .inl (covered hp (by simp)) }

theorem within_pnl {pnl : Tbl Pnl} (h : Within ps bs o s) (hp : ([.pnl] : List Part).all (· ∈ ps) = true) :
    Within ps bs o { s with pnl } :=
  { h with
    pnl := .inl (covered hp (by simp)) }

theorem within_upd {upd : Upd} (h : Within ps bs o s) (hp : ([.upd] : List Part).all (· ∈ ps) = true) :
    Within ps bs o { s with upd } :=
  { h with
    upd := .inl (covered hp (by simp)) }

theorem within_aoc {aoc : Aoc} (h : Within ps bs o s) (hp : ([.aoc] : List Part).all (· ∈ ps) = true) :
    Within ps bs o { s with aoc } :=
  { h with
    aoc := .inl (covered hp (by simp)) }

theorem within_hlm {hlm : Hlm} (h : Within ps bs o s) (hp : ([.hlm] : List Part).all (· ∈ ps) = true) :
    Within ps bs o { s with hlm } :=
  { h with
    hlm := .inl (covered hp (by simp)) }

theorem within_fabric_aoc {fabric : Bool} {aoc : Aoc} (h : Within ps bs o s) (hp : ([.fabric, .aoc] : List Part).all
    (· ∈ ps) = true) :
    Within ps bs o { s with fabric, aoc } :=
  { h with
    fabric := .inl (covered hp (by simp)), aoc := .inl (covered hp (by simp)) }

theorem within_timeOff_nav {timeOff : Int} {nav : Nav} (h : Within ps bs o s) (hp : ([.timeOff, .nav] : List Part).all
    (· ∈ ps) = true) :
    Within ps bs o { s with timeOff, nav } :=
  { h with
    timeOff := .inl (covered hp (by simp)), nav := .inl (covered hp (by simp)) }

theorem within_timeOff_tke {timeOff : Int} {tke : Tke} (h : Within ps bs o s) (hp : ([.timeOff, .tke] : List Part).all
    (· ∈ ps) = true) :
    Within ps bs o { s with timeOff, tke } :=
  { h with
    timeOff := .inl (covered hp (by simp)), tke := .inl (covered hp (by simp)) }

theorem within_mem_fle {mem : Memory} {fle : Fle} (h : Within ps bs o s) (hp : ([.mem, .fle] : List Part).all (· ∈ ps)
    = true) :
    Within ps bs o { s with mem, fle } :=
  { h with
    mem := .inl (covered hp (by simp)), fle := .inl (covered hp (by simp)) }

theorem within_log_sto {log : EventLog} {sto : Sto} (h : Within ps bs o s) (hp : ([.log, .sto] : List Part).all (· ∈
    ps) = true) :
    Within ps bs o { s with log, sto } :=
  { h with
    log := .inl (covered hp (by simp)), sto := .inl (covered hp (by simp)) }

theorem within_arbs_xlk {arbs : Tbl Arb} {xlk : Xlk} (h : Within ps bs o s) (hp : ([.arbs, .xlk] : List Part).all (· ∈
    ps) = true) :
    Within ps bs o { s with arbs, xlk } :=
  { h with
    arbs := .inl (covered hp (by simp)), xlk := .inl (covered hp (by simp)) }

theorem within_tke_xlk {tke : Tke} {xlk : Xlk} (h : Within ps bs o s) (hp : ([.tke, .xlk] : List Part).all (· ∈ ps) =
    true) :
    Within ps bs o { s with tke, xlk } :=
  { h with
    tke := .inl (covered hp (by simp)), xlk := .inl (covered hp (by simp)) }

theorem within_sps_sfe {sps : Sps} {sfe : Sfe} (h : Within ps bs o s) (hp : ([.sps, .sfe] : List Part).all (· ∈ ps) =
    true) :
    Within ps bs o { s with sps, sfe } :=
  { h with
    sps := .inl (covered hp (by simp)), sfe := .inl (covered hp (by simp)) }

theorem within_drv_sw {drv : Tbl DrvCh} {sw : Tbl SwCh} (h : Within ps bs o s) (hp : ([.drv, .sw] : List Part).all (·
    ∈ ps) = true) :
    Within ps bs o { s with drv, sw } :=
  { h with
    drv := .inl (covered hp (by simp)), sw := .inl (covered hp (by simp)) }

theorem within_fabric_tke_hlm {fabric : Bool} {tke : Tke} {hlm : Hlm} (h : Within ps bs o s) (hp : ([.fabric, .tke,
    .hlm] : List Part).all (· ∈ ps) = true) :
    Within ps bs o { s with fabric, tke, hlm } :=
  { h with
    fabric := .inl (covered hp (by simp)), tke := .inl (covered hp (by simp)), hlm := .inl (covered hp (by simp)) }

theorem within_log_xlk_sto {log : EventLog} {xlk : Xlk} {sto : Sto} (h : Within ps bs o s) (hp : ([.log, .xlk, .sto] :
    List Part).all (· ∈ ps) = true) :
    Within ps bs o { s with log, xlk, sto } :=
  { h with
    log := .inl (covered hp (by simp)), xlk := .inl (covered hp (by simp)), sto := .inl (covered hp (by simp)) }

theorem within_tke_sps_sfe {tke : Tke} {sps : Sps} {sfe : Sfe} (h : Within ps bs o s) (hp : ([.tke, .sps, .sfe] : List
    Part).all (· ∈ ps) = true) :
    Within ps bs o { s with tke, sps, sfe } :=
  { h with
    tke := .inl (covered hp (by simp)), sps := .inl (covered hp (by simp)), sfe := .inl (covered hp (by simp)) }

theorem within_fabric_tke_aoc_hlm {fabric : Bool} {tke : Tke} {aoc : Aoc} {hlm : Hlm} (h : Within ps bs o s) (hp :
    ([.fabric, .tke, .aoc, .hlm] : List Part).all (· ∈ ps) = true) :
    Within ps bs o { s with fabric, tke, aoc, hlm } :=
  { h with
    fabric := .inl (covered hp (by simp)), tke := .inl (covered hp (by simp)), aoc := .inl (covered hp (by simp)),
    hlm := .inl (covered hp (by simp)) }

theorem within_rtcOff_log_nav_aoc {rtcOff : Int} {log : EventLog} {nav : Nav} {aoc : Aoc} (h : Within ps bs o s) (hp :
    ([.rtcOff, .log, .nav, .aoc] : List Part).all (· ∈ ps) = true) :
    Within ps bs o { s with rtcOff, log, nav, aoc } :=
  { h with
    rtcOff := .inl (covered hp (by simp)), log := .inl (covered hp (by simp)), nav := .inl (covered hp (by simp)),
    aoc := .inl (covered hp (by simp)) }

theorem within_drv_dbk_sw_feed {drv : Tbl DrvCh} {dbk : Tbl DrvBank} {sw : Tbl SwCh} {feed : Tbl Feed} (h : Within ps
    bs o s) (hp : ([.drv, .dbk, .sw, .feed] : List Part).all (· ∈ ps) = true) :
    Within ps bs o { s with drv, dbk, sw, feed } :=
  { h with
    drv := .inl (covered hp (by simp)), dbk := .inl (covered hp (by simp)), sw := .inl (covered hp (by simp)),
    feed := .inl (covered hp (by simp)) }

theorem within_nav_vis_can_eth {nav : Nav} {vis : Vision} {can : Tbl CanCtl} {eth : Tbl EthPort} (h : Within ps bs o
    s) (hp : ([.nav, .vis, .can, .eth] : List Part).all (· ∈ ps) = true) :
    Within ps bs o { s with nav, vis, can, eth } :=
  { h with
    nav := .inl (covered hp (by simp)), vis := .inl (covered hp (by simp)), can := .inl (covered hp (by simp)),
    eth := .inl (covered hp (by simp)) }

theorem within_sps_sfe_xlk_nav_sto {sps : Sps} {sfe : Sfe} {xlk : Xlk} {nav : Nav} {sto : Sto} (h : Within ps bs o s)
    (hp : ([.sps, .sfe, .xlk, .nav, .sto] : List Part).all (· ∈ ps) = true) :
    Within ps bs o { s with sps, sfe, xlk, nav, sto } :=
  { h with
    sps := .inl (covered hp (by simp)), sfe := .inl (covered hp (by simp)), xlk := .inl (covered hp (by simp)),
    nav := .inl (covered hp (by simp)), sto := .inl (covered hp (by simp)) }

theorem within_fabric_log_arbs_reqs_till_cqIrq_tke_sps_sfe_rowEntries_xlk_sto_fle_pnl_upd_aoc_hlm {fabric : Bool} {log
    : EventLog} {arbs : Tbl Arb} {reqs : List Req} {till : Till} {cqIrq : Tbl CqIrq} {tke : Tke} {sps : Sps} {sfe :
    Sfe} {rowEntries : Tbl Nat} {xlk : Xlk} {sto : Sto} {fle : Fle} {pnl : Tbl Pnl} {upd : Upd} {aoc : Aoc} {hlm :
    Hlm} (h : Within ps bs o s) (hp : ([.fabric, .log, .arbs, .reqs, .till, .cqIrq, .tke, .sps, .sfe, .rowEntries,
    .xlk, .sto, .fle, .pnl, .upd, .aoc, .hlm] : List Part).all (· ∈ ps) = true) :
    Within ps bs o { s with
      fabric, log, arbs, reqs, till, cqIrq, tke, sps, sfe, rowEntries, xlk, sto, fle, pnl, upd, aoc,
      hlm } :=
  { h with
    fabric := .inl (covered hp (by simp)), log := .inl (covered hp (by simp)), arbs := .inl (covered hp (by simp)),
    reqs := .inl (covered hp (by simp)), till := .inl (covered hp (by simp)), cqIrq := .inl (covered hp (by simp)),
    tke := .inl (covered hp (by simp)), sps := .inl (covered hp (by simp)), sfe := .inl (covered hp (by simp)),
    rowEntries := .inl (covered hp (by simp)), xlk := .inl (covered hp (by simp)),
    sto := .inl (covered hp (by simp)), fle := .inl (covered hp (by simp)), pnl := .inl (covered hp (by simp)),
    upd := .inl (covered hp (by simp)), aoc := .inl (covered hp (by simp)), hlm := .inl (covered hp (by simp)) }

end

variable {ps : List Part} {bs : List Nat} {o : State}

theorem tblGet?_filter_of_pos {α : Type} {t : Tbl α} {q : Nat × α → Bool} {k : Nat} (h : ∀ v, q (k, v) = true) :
    tblGet? (t.filter q) k = tblGet? t k := by
  induction t with
  | nil => rfl
  | cons p t ih =>
    obtain ⟨n, v⟩ := p
    by_cases hn : n = k
    · subst hn
      simp [h, tblGet?]
    · have hkn : ¬k = n := fun e => hn e.symm
      by_cases hq : q (n, v) = true
      · simp [hq, tblGet?, ih]
      · simp [hq, tblGet?, hkn, ih]

theorem Within.blocksOnly {l : List Blk} {s : State} (h : Within ps (blks l) o s) : BlocksOnly o s l := h.blocks

theorem rset_changes (s : State) (f : Fld) (v i j : Nat) : Within [.regs] [f.id / 128] s (rset s f v i j) :=
  { Within.refl (bs := [f.id / 128]) s with
    regs := .inl (by simp)
    blocks := fun k hk => tblGet?_set_ne s.regs _ fun e => hk (by simp [e, keyBlk_key]) }

theorem dropKeys_changes (s : State) {p : Nat → Bool} {b : Blk} (hp : ∀ k, p k = true → keyBlk k = blkCode b) :
    Within [.regs, .hiLatch, .rolLatch, .onesAt] [blkCode b] s (dropKeys s p) :=
  { Within.refl (bs := [blkCode b]) s with
    regs := .inl (by simp), hiLatch := .inl (by simp), rolLatch := .inl (by simp), onesAt := .inl (by simp)
    blocks := fun k hk => tblGet?_filter_of_pos fun v => by
      simpa using fun h => hk (List.mem_singleton.mpr (hp k h)) }

theorem wakeField_blk (k : Nat) : (wakeFields.getD k R.AOC_WAKE_CAUSE_IGN).id / 128 = blkCode .aoc := by
  by_cases hk : k < wakeFields.length
  · have hall : ∀ f ∈ wakeFields, f.id / 128 = blkCode .aoc := by decide
    rw [List.getD_eq_getElem _ _ hk]
    exact hall _ (List.getElem_mem hk)
  · rw [List.getD_eq_default _ _ (Nat.le_of_not_lt hk)]
    rfl

theorem hostWrite_within {s : State} {ext : Bool} {addr : Nat} {b : List Byte} :
    Within [.mem, .extMem] [] s (hostWrite s ext addr b) := by
  cases ext with
  | true => exact { Within.refl s with extMem := .inl (by decide) }
  | false => exact { Within.refl s with mem := .inl (by decide) }

/-! ### Ops -/

theorem noteTime_within {s : State} : Within [.nav] [] s (noteTime s) :=
  within_ite (.refl _) (within_nav (.refl _) rfl)

theorem rset_within {s : State} {f : Fld} {v i j : Nat} : Within [.regs] [f.id / 128] s (rset s f v i j) :=
  rset_changes s f v i j

theorem rsetB_within {s : State} {f : Fld} {b : Bool} {i j : Nat} : Within [.regs] [f.id / 128] s (rsetB s f b i j) :=
  rset_within.step (.refl _) rfl (by simp)

theorem rinc_within {s : State} {f : Fld} {n i j : Nat} : Within [.regs] [f.id / 128] s (rinc s f n i j) :=
  rset_within.step (.refl _) rfl (by simp)

theorem rwrap_within {s : State} {f : Fld} {n i j : Nat} : Within [.regs] [f.id / 128] s (rwrap s f n i j) :=
  rset_within.step (.refl _) rfl (by simp)

theorem rsetBitAt_within {s : State} {f : Fld} {n : Nat} {b : Bool} {i j : Nat} : Within [.regs] [f.id / 128] s
    (rsetBitAt s f n b i j) :=
  rset_within.step (.refl _) rfl (by simp)

theorem rset64_within {s : State} {lo hi : Fld} {v i j : Nat} : Within [.regs] [hi.id / 128, lo.id / 128] s (rset64 s
    lo hi v i j) :=
  rset_within.step (rset_within.step (.refl _) rfl (by simp)) rfl (by simp)

theorem rsetS_within {s : State} {f : Fld} {v : Int} {i j : Nat} : Within [.regs] [f.id / 128] s (rsetS s f v i j) :=
  rset_within.step (.refl _) rfl (by simp)

theorem setOnes_within {s : State} {f : Fld} {n i j : Nat} : Within [.regs, .onesAt] [f.id / 128] s (setOnes s f n i
    j) :=
  within_onesAt (rsetBitAt_within.step (.refl _) rfl (by simp)) rfl

theorem rolEvent_within {s : State} {f : Fld} {v i : Nat} : Within [.regs, .rolLatch] [f.id / 128] s (rolEvent s f v
    i) :=
  rset_within.step (within_rolLatch (.refl _) rfl) rfl (by simp)

theorem rolPeakAt_within {fc : Nat} {s : State} {f : Fld} {v i : Nat} : Within [.rolLatch] [] s (rolPeakAt fc s f v i)
    :=
  within_rolLatch (.refl _) rfl

theorem rolPeak_within {s : State} {f : Fld} {v i : Nat} : Within [.rolLatch] [] s (rolPeak s f v i) :=
  rolPeakAt_within.step (.refl _) rfl rfl

theorem resetBlock_within {s : State} {b : Blk} {keep : List Fld} : Within [.regs, .hiLatch, .rolLatch, .onesAt]
    [blkCode b] s (resetBlock s b keep) :=
  dropKeys_changes s fun k hk => by simp_all

theorem resetBlocks_within {s : State} {l : List Blk} : Within [.regs, .hiLatch, .rolLatch, .onesAt] (blks l) s
    (l.foldl (fun s b => resetBlock s b) s) :=
  foldl_invariant (.refl s) fun u b hb hu => (resetBlock_within (s := u)).step hu rfl (by simpa [blks] using ⟨b, hb, rfl⟩)

theorem resetInst_within {s : State} {b : Blk} {which : Nat → Bool} : Within [.regs, .hiLatch, .rolLatch, .onesAt]
    [blkCode b] s (resetInst s b which) :=
  dropKeys_changes s fun k hk => by simp_all

theorem withFree_within {s : State} {f : Nat → State → State} (hf : ∀ x u, Within ps bs o u → Within ps bs o (f x u))
    (h : Within ps bs o s) (hp : ([.freeCount] : List Part).all (· ∈ ps) = true) : Within ps bs o (withFree s f) :=
  hf _ _ (within_freeCount h hp)

theorem queuePut_within {s : State} {q : QueueRegs} {i j size : Nat} {mk : Nat → List Byte} : Within [.regs, .mem,
    .extMem] [q.wrIdx.id / 128, q.wrPh.id / 128] s (queuePut s q i j size mk) :=
  rset_within.step (rset_within.step (hostWrite_within.step (.refl _) rfl rfl) rfl (by simp)) rfl (by simp)

theorem telemetryPut_within {s : State} {kind : Nat} {body : List Byte} : Within [.regs, .mem, .extMem] (blks [.hlm])
    s (telemetryPut s kind body) :=
  within_ite (within_ite (queuePut_within.step (.refl _) rfl rfl) (rinc_within.step (.refl _) rfl rfl)) (.refl _)

theorem journalPut_within {s : State} {e : Ev} : Within [.regs, .log] (blks [.jrn]) s (journalPut s e) :=
  within_ite (rinc_within.step (rset_within.step (within_log (.refl _) rfl) rfl rfl) rfl rfl) (rset_within.step
    (within_log (.refl _) rfl) rfl rfl)

theorem nextSeq_within {s : State} : Within [.log] [] s (nextSeq s) := within_log (.refl _) rfl

theorem writeEvent_within {s : State} {code inst data : Nat} {tick : Bool} : Within [.regs, .mem, .extMem, .log] (blks
    [.jrn, .hlm]) s (writeEvent s code inst data tick) :=
  journalPut_within.step (telemetryPut_within.step (nextSeq_within.step (.refl _) rfl rfl) rfl rfl) rfl rfl

theorem raiseEv_within {s : State} {code inst data : Nat} : Within [.regs, .mem, .extMem, .log] (blks [.hlm, .jrn]) s
    (raiseEv s code inst data) := by
  unfold raiseEv
  extract_lets tick l told recent s0 beyond
  have htold (u : State) (hu : Within [.regs, .mem, .extMem, .log] (blks [.hlm, .jrn]) s u) : Within [.regs, .mem,
    .extMem, .log] (blks [.hlm, .jrn]) s (told u) :=
    within_ite (writeEvent_within.step hu rfl rfl) hu
  have hbeyond (u : State) (hu : Within [.regs, .mem, .extMem, .log] (blks [.hlm, .jrn]) s u) : Within [.regs, .mem,
    .extMem, .log] (blks [.hlm, .jrn]) s (beyond u) :=
    within_log (rinc_within.step (telemetryPut_within.step (nextSeq_within.step hu rfl rfl) rfl rfl) rfl rfl) rfl
  have h0 : Within [.regs, .mem, .extMem, .log] (blks [.hlm, .jrn]) s s0 := within_log (.refl _) rfl
  have h1 : Within [.regs, .mem, .extMem, .log] (blks [.hlm, .jrn]) s (writeEvent { s0 with log := { s0.log with
    suppressed := 0 } } evEventsSuppressed 0 l.suppressed
      false) := writeEvent_within.step (within_log h0 rfl) rfl rfl
  exact within_ite (hbeyond _ h0) (within_ite (within_ite (htold _ (writeEvent_within.step h1 rfl rfl)) (htold _
    (hbeyond _ h1)))
    (htold _ (writeEvent_within.step h0 rfl rfl)))

theorem marginPut_within {s : State} {r : AgeRec} : Within [.regs, .mem, .extMem, .hlm] (blks [.hlm]) s (marginPut s
    r) :=
  telemetryPut_within.step (within_hlm (.refl _) rfl) rfl rfl

theorem marginChange_within {s : State} {kind inst action old new : Nat} : Within [.regs, .mem, .extMem, .log, .hlm]
    (blks [.hlm, .jrn]) s (marginChange s kind inst action old new) :=
  raiseEv_within.step (marginPut_within.step (.refl _) rfl rfl) rfl rfl

theorem updReq_within {s : State} {r : Ref} {f : Req → Req} : Within [.reqs] [] s (updReq s r f) :=
  within_reqs (.refl _) rfl

theorem tillPost_within {s : State} {r : TillRec} : Within [.till] [] s (tillPost s r) := within_till (.refl _) rfl

theorem complete_within {s : State} {r : Ref} {status detail : Nat} {row : Option Nat} : Within [.reqs, .till] [] s
    (complete s r status detail row) :=
  within_ite (.refl _) (tillPost_within.step (updReq_within.step (.refl _) rfl rfl) rfl rfl)

theorem completeOpt_within {s : State} {r : Option Ref} {status detail : Nat} {row : Option Nat} : Within [.reqs,
    .till] [] s (completeOpt s r status detail row) := by
  unfold completeOpt
  split
  · exact complete_within.step (.refl _) rfl rfl
  · exact .refl _

theorem completeRow_within {s : State} {prod : Nat} {r : Ref} {status detail row : Nat} : Within [.reqs, .till] [] s
    (completeRow s prod r status detail row) :=
  within_ite (.refl _) (within_till (updReq_within.step (.refl _) rfl rfl) rfl)

theorem takeReq_within {s : State} {r : Ref} : Within [.reqs] [] s (takeReq s r) :=
  updReq_within.step (.refl _) rfl rfl

theorem withDesc_within {r : Ref} {cls op : Nat} {f : Desc → State → State} {s : State} (hf : ∀ x u, Within ps bs o u
    → Within ps bs o (f x u)) (h : Within ps bs o s) (hp : ([.reqs] : List Part).all (· ∈ ps) = true) (hb : ([] : List
    Nat).all (· ∈ bs) = true) : Within ps bs o (withDesc r cls op f s) := by
  unfold withDesc
  split
  · exact within_ite (hf _ _ (takeReq_within.step h hp hb)) h
  · exact h

theorem abortReqAt_within {s : State} {r : Ref} {a : Nat} {stop : State → State} (hstop : ∀ u, Within ps bs o u →
    Within ps bs o (stop u)) (h : Within ps bs o s) (hp : ([.reqs] : List Part).all (· ∈ ps) = true) (hb : ([] : List
    Nat).all (· ∈ bs) = true) : Within ps bs o (abortReqAt s r a stop) := by
  unfold abortReqAt
  have hmark (q : Req → Req) (u : State) (hu : Within ps bs o u) : Within ps bs o (updReq u r q) :=
    updReq_within.step hu hp hb
  split
  · exact h
  · refine within_ite h ?_
    extract_lets natural s1
    have hs1 : Within ps bs o s1 := hmark _ _ h
    split
    · exact hstop _ hs1
    · exact hstop _ hs1
    · exact hmark _ _ hs1
    · exact hs1

theorem abortReq_within {s : State} {r : Ref} {stop : State → State} (hstop : ∀ u, Within ps bs o u → Within ps bs o
    (stop u)) (h : Within ps bs o s) (hp : ([.reqs] : List Part).all (· ∈ ps) = true) (hb : ([] : List Nat).all (· ∈
    bs) = true) : Within ps bs o (abortReq s r stop) :=
  abortReqAt_within hstop h hp hb

/-! ### Arbiter -/

theorem setArb_within {s : State} {n : Nat} {a : Arb} : Within [.arbs] [] s (setArb s n a) :=
  within_arbs (.refl _) rfl

theorem arbTo_within {s : State} {n c : Nat} : Within [.regs, .arbs] (blks [.arb]) s (arbTo s n c) :=
  rinc_within.step (rinc_within.step (setArb_within.step (.refl _) rfl rfl) rfl rfl) rfl rfl

theorem arbTickets_within {s : State} {n : Nat} : Within [.rolLatch, .arbs] [] s (arbTickets s n) :=
  foldl_within (fun _ _ hu => within_ite (rolPeakAt_within.step (setArb_within.step hu rfl rfl) rfl rfl) hu)
    (setArb_within.step (.refl _) rfl rfl)

theorem arbTell_within {s : State} {n c : Nat} {f : ArbEv → ArbEv} : Within [.regs, .rolLatch, .arbs] (blks [.arb]) s
    (arbTell s n c f) :=
  arbTickets_within.step (setArb_within.step (arbTo_within.step (.refl _) rfl rfl) rfl rfl) rfl rfl

theorem arbRequest_within {s : State} {n c : Nat} {ps' : List Nat} : Within [.regs, .rolLatch, .arbs] (blks [.arb]) s
    (arbRequest s n c ps') :=
  arbTell_within.step (.refl _) rfl rfl

theorem arbRelease_within {s : State} {n c : Nat} : Within [.regs, .rolLatch, .arbs] (blks [.arb]) s (arbRelease s n
    c) := by
  unfold arbRelease
  exact arbTell_within.step (.refl _) rfl rfl

theorem arbEmergency_within {s : State} {n c : Nat} : Within [.regs, .rolLatch, .arbs] (blks [.arb]) s (arbEmergency s
    n c) :=
  within_ite (arbTell_within.step (.refl _) rfl rfl) (.refl _)

theorem fenceNext_within {s : State} {sup : Nat} : Within [.till] [] s (fenceNext s sup) := by
  unfold fenceNext
  split
  · exact within_till (.refl _) rfl
  · exact .refl _

theorem fenceAsk_within {s : State} {c : Nat} : Within [.arbs] [] s (fenceAsk s c) :=
  within_ite (setArb_within.step (.refl _) rfl rfl) (.refl _)

theorem fenceServe_within {s : State} {c : Nat} : Within [.regs, .arbs, .till] (blks [.til]) s (fenceServe s c) := by
  unfold fenceServe
  split
  · exact fenceAsk_within.step (fenceNext_within.step (rwrap_within.step (within_till (.refl _) rfl) rfl rfl) rfl rfl)
      rfl rfl
  · exact .refl _

theorem fenceRun_within {s : State} {c : Nat} : Within [.regs, .arbs, .till] (blks [.til]) s (fenceRun s c) := by
  unfold fenceRun
  split
  · exact within_till (foldl_within (fun _ _ hu => fenceServe_within.step hu rfl rfl) (.refl _)) rfl
  · exact .refl _

theorem tillRuns_within {c n : Nat} {s : State} : Within [.regs, .arbs, .till] (blks [.arb, .til]) s (tillRuns c n s)
    := by
  induction n generalizing s with
  | zero => exact .refl _
  | succ n ih =>
    unfold tillRuns
    dsimp only
    split
    · exact within_ite (arbTo_within.step (.refl _) rfl rfl) (ih.step (fenceRun_within.step (within_till
        (arbTo_within.step (.refl _) rfl rfl) rfl) rfl rfl) rfl rfl)
    · exact arbTo_within.step (.refl _) rfl rfl

theorem tillTo_within {s : State} {c : Nat} : Within [.regs, .arbs, .till] (blks [.arb, .til]) s (tillTo s c) :=
  tillRuns_within.step (fenceRun_within.step (.refl _) rfl rfl) rfl rfl

theorem fencePost_within {s0 : State} {f : FenceRec} : Within [.regs, .arbs, .till] (blks [.arb, .til]) s0 (fencePost
    s0 f) :=
  within_ite (within_till (tillTo_within.step (.refl _) rfl rfl) rfl) (fenceAsk_within.step (within_till
    (tillTo_within.step (.refl _) rfl rfl) rfl) rfl rfl)

/-! ### Links -/

theorem linkAsk_within {s : State} {req : Option Nat} : Within [.regs, .rolLatch, .arbs] (blks [.arb]) s (linkAsk s
    req) := by
  unfold linkAsk
  dsimp only
  refine within_ite ?_ ?_
  · exact .refl _
  · split
    · exact arbRequest_within.step (.refl _) rfl rfl
    · exact within_ite (arbEmergency_within.step (.refl _) rfl rfl) (.refl _)

theorem linkPut_within {s : State} {typ : Nat} {payload : List Nat} {item : Option (Nat × ResyncItem)} : Within
    [.regs, .rolLatch, .arbs, .xlk] (blks [.arb]) s (linkPut s typ payload item) :=
  linkAsk_within.step (within_xlk (.refl _) rfl) rfl rfl

theorem xlkSend_within {s : State} {typ : Nat} {payload : List Nat} {item : Option (Nat × ResyncItem)} : Within
    [.regs, .rolLatch, .arbs, .xlk] (blks [.arb]) s (xlkSend s typ payload item) :=
  foldl_within (fun _ _ hu => linkPut_within.step hu rfl rfl) (.refl _)

theorem resyncSend_within {s : State} {row : Nat} {item : ResyncItem} : Within [.regs, .rolLatch, .arbs, .xlk] (blks
    [.arb]) s (resyncSend s row item) :=
  xlkSend_within.step (.refl _) rfl rfl

theorem forward_within {s : State} {item : ResyncItem} : Within [.regs, .rolLatch, .arbs, .xlk] (blks [.arb]) s
    (forward s item) :=
  within_ite (resyncSend_within.step (.refl _) rfl rfl) (.refl _)

/-! ### Solver -/

theorem commitSolve_within {s : State} {o' : SolveOut} : Within [.regs, .mem, .extMem, .log, .sps] (blks [.hlm, .jrn,
    .sps]) s (commitSolve s o') := by
  unfold commitSolve
  extract_lets was wasConflict changed s1 s2 s3 s4 s5 s6 s7 s8 s9
  have h1 : Within [.regs, .mem, .extMem, .log, .sps] (blks [.hlm, .jrn, .sps]) s s1 := rset_within.step
    (rset_within.step (rset_within.step (.refl _) rfl rfl) rfl rfl) rfl rfl
  have h3 : Within [.regs, .mem, .extMem, .log, .sps] (blks [.hlm, .jrn, .sps]) s s3 :=
    rsetB_within.step (rsetB_within.step (rsetB_within.step (rsetB_within.step (rsetB_within.step h1 rfl rfl) rfl rfl)
      rfl rfl) rfl rfl) rfl rfl
  have h4 : Within [.regs, .mem, .extMem, .log, .sps] (blks [.hlm, .jrn, .sps]) s s4 := rset64_within.step
    (rset_within.step h3 rfl rfl) rfl rfl
  have h5 : Within [.regs, .mem, .extMem, .log, .sps] (blks [.hlm, .jrn, .sps]) s s5 := within_ite (rinc_within.step
    h4 rfl rfl) (within_ite (rinc_within.step h4 rfl rfl) h4)
  have h7 : Within [.regs, .mem, .extMem, .log, .sps] (blks [.hlm, .jrn, .sps]) s s7 := rinc_within.step
    (rset_within.step (rset_within.step (rset_within.step (rset_within.step h5 rfl rfl) rfl rfl) rfl rfl) rfl rfl) rfl
    rfl
  have h8 : Within [.regs, .mem, .extMem, .log, .sps] (blks [.hlm, .jrn, .sps]) s s8 :=
    foldl_within (fun _ _ hu => rset_within.step (rset_within.step (rset_within.step hu rfl rfl) rfl rfl) rfl rfl) h7
  have h9 : Within [.regs, .mem, .extMem, .log, .sps] (blks [.hlm, .jrn, .sps]) s s9 := foldl_within (fun _ _ hu =>
    rset_within.step hu rfl rfl) h8
  have hev (c : Prop) [Decidable c] (n : Nat) (u : State) (hu : Within [.regs, .mem, .extMem, .log, .sps] (blks [.hlm,
    .jrn, .sps]) s u) : Within [.regs, .mem, .extMem, .log, .sps] (blks [.hlm, .jrn, .sps]) s (if c then raiseEv u n
    else u) :=
    within_ite (raiseEv_within.step hu rfl rfl) hu
  exact hev _ _ _ (hev _ _ _ (within_sps h9 rfl))

/-! ### Patterns -/

theorem completeTke_within {s : State} {r : Ref} {status detail : Nat} : Within [.reqs, .till] [] s (completeTke s r
    status detail) :=
  complete_within.step (.refl _) rfl rfl

theorem completeTkeOpt_within {s : State} {r : Option Ref} {status detail : Nat} : Within [.reqs, .till] [] s
    (completeTkeOpt s r status detail) :=
  completeOpt_within.step (.refl _) rfl rfl

theorem supersedePattern_within {s : State} : Within [.regs, .reqs, .till, .tke] (blks [.tke]) s (supersedePattern s)
    := by
  unfold supersedePattern
  split
  · exact rinc_within.step (completeTkeOpt_within.step (within_tke (.refl _) rfl) rfl rfl) rfl rfl
  · exact .refl _

theorem pendPattern_within {s : State} {q : PendPat} : Within [.regs, .reqs, .till, .tke] (blks [.tke]) s (pendPattern
    s q) :=
  within_tke (supersedePattern_within.step (.refl _) rfl rfl) rfl

theorem supersedeTable_within {s : State} : Within [.regs, .reqs, .till, .tke] (blks [.tke]) s (supersedeTable s) :=
    by
  unfold supersedeTable
  split
  · exact rinc_within.step (completeTkeOpt_within.step (rset_within.step (within_tke (.refl _) rfl) rfl rfl) rfl rfl)
      rfl rfl
  · exact .refl _

theorem pendTable_within {s : State} {r : Option Ref} {b : Nat} : Within [.regs, .reqs, .till, .tke] (blks [.tke]) s
    (pendTable s r b) :=
  rset_within.step (within_tke (supersedeTable_within.step (.refl _) rfl rfl) rfl) rfl rfl

theorem promoteRefuse_within {s : State} : Within [.reqs, .till, .tke] [] s (promoteRefuse s) :=
  foldl_within (fun _ _ hu => completeTke_within.step hu rfl rfl) (within_tke (.refl _) rfl)

/-! ### Stitches -/

theorem commitLoops_within {s : State} {ts : List Nat} : Within [.regs, .sps] (blks [.fnl]) s (commitLoops s ts) := by
  unfold commitLoops
  dsimp only
  refine rset_within.step ?_ rfl rfl
  refine foldl_within ?_ (.refl _)
  intro _ _ hu
  split
  · exact within_ite (rset_within.step (within_sps hu rfl) rfl rfl) (within_sps hu rfl)
  · exact rset_within.step (within_ite (rset_within.step (within_sps hu rfl) rfl rfl) (within_sps hu rfl)) rfl rfl
  · exact within_ite (rset_within.step (within_sps hu rfl) rfl rfl) (within_sps hu rfl)

theorem endRow_within {s : State} {cause : Nat} : Within [.tke] [] s (endRow s cause) := within_tke (.refl _) rfl

/-! ### Tiles -/

theorem modSto_within {s : State} {f : Sto → Sto} : Within [.sto] [] s (modSto s f) := within_sto (.refl _) rfl

theorem modFle_within {s : State} {f : Fle → Fle} : Within [.fle] [] s (modFle s f) := within_fle (.refl _) rfl

theorem clockSet_within {s : State} {t c : Nat} : Within [.fle] [] s (clockSet s t c) :=
  modFle_within.step (.refl _) rfl rfl

theorem clockLocal_within {s : State} : Within [.fle] [] s (clockLocal s) := clockSet_within.step (.refl _) rfl rfl

theorem clockReceive_within {s : State} {tm cm : Nat} : Within [.fle] [] s (clockReceive s tm cm) :=
  clockSet_within.step (.refl _) rfl rfl

theorem modSlot_within {s : State} {k : Nat} {f : CacheSlot → CacheSlot} : Within [.sto] [] s (modSlot s k f) := by
  unfold modSlot
  split
  · exact modSto_within.step (.refl _) rfl rfl
  · exact .refl _

theorem touchSlot_within {s : State} {k : Nat} : Within [.sto] [] s (touchSlot s k) :=
  modSto_within.step (modSlot_within.step (.refl _) rfl rfl) rfl rfl

theorem storeServe_within {s : State} : Within [.sto] [] s (storeServe s) := modSto_within.step (.refl _) rfl rfl

theorem storeNext_within {s : State} : Within [.sto] [] s (storeNext s) :=
  storeServe_within.step (modSto_within.step (.refl _) rfl rfl) rfl rfl

theorem flushStart_within {s : State} {k : Nat} : Within [.sto] [] s (flushStart s k) :=
  within_ite (.refl _) (storeServe_within.step (modSlot_within.step (.refl _) rfl rfl) rfl rfl)

theorem flushOldest_within {s : State} : Within [.sto] [] s (flushOldest s) := by
  unfold flushOldest
  refine within_ite ?_ ?_
  · exact .refl _
  · split
    · exact flushStart_within.step (.refl _) rfl rfl
    · exact .refl _

theorem needTile_within {s : State} {id : Nat} {pin : List Nat} : Within [.sto] [] s (needTile s id pin).1 := by
  unfold needTile
  split
  · split
    · exact .refl _
    · exact touchSlot_within.step (.refl _) rfl rfl
  · split
    · exact flushOldest_within.step (.refl _) rfl rfl
    · split
      · exact .refl _
      · extract_lets put
        have hput (t : Tile) (l : Bool) (at_ : Tbl Nat) (last : Nat) : Within [.sto] [] s (put t l at_ last) :=
          modSto_within
        split
        · exact storeServe_within.step (hput ..) rfl rfl
        · exact hput ..

theorem needTiles_within {s : State} {ids : List Nat} : Within [.sto] [] s (needTiles s ids).1 :=
  foldl_fst_within (fun _ _ hu => needTile_within.step hu rfl rfl) (.refl _)

theorem writeCell_within {s : State} {id i v : Nat} {ver : Ver} : Within [.sto] [] s (writeCell s id i v ver) := by
  unfold writeCell
  split
  · exact modSlot_within.step (.refl _) rfl rfl
  · exact .refl _

theorem settleDram_within {s : State} : Within [.mem] [] s (settleDram s) :=
  within_ite (.refl _) (within_mem (.refl _) rfl)

/-! ### Fleet -/

theorem modMember_within {s : State} {p : Nat} {f : Member → Member} : Within [.fle] [] s (modMember s p f) :=
  modFle_within.step (.refl _) rfl rfl

theorem modSession_within {s : State} {k : Nat} {f : Session → Session} : Within [.fle] [] s (modSession s k f) := by
  unfold modSession
  split
  · exact modFle_within.step (.refl _) rfl rfl
  · exact .refl _

theorem sendTo_within {s : State} {k : Nat} {m : FleMsg} : Within [.regs, .mem, .extMem, .log, .fle] (blks [.fle,
    .hlm, .jrn]) s (sendTo s k m) := by
  unfold sendTo
  split
  · exact .refl _
  · exact within_ite (modSession_within.step (.refl _) rfl rfl) (within_ite (modSession_within.step (rinc_within.step
      (.refl _) rfl rfl) rfl rfl) (raiseEv_within.step (modFle_within.step (modSession_within.step (rinc_within.step
      (.refl _) rfl rfl) rfl rfl) rfl rfl) rfl rfl))

theorem sendAll_within {s : State} {m : FleMsg} {but : Option Nat} : Within [.regs, .mem, .extMem, .log, .fle] (blks
    [.fle, .hlm, .jrn]) s (sendAll s m but) :=
  foldl_within (fun _ _ hu => within_ite hu (sendTo_within.step hu rfl rfl)) (.refl _)

theorem closeSession_within {s : State} {k : Nat} {bye : Bool} : Within [.regs, .fle] (blks [.fle]) s (closeSession s
    k bye) :=
  rsetBitAt_within.step (modSession_within.step (.refl _) rfl rfl) rfl rfl

theorem absentSession_within {s : State} {k : Nat} : Within [.regs, .mem, .extMem, .log, .fle] (blks [.hlm, .jrn,
    .fle]) s (absentSession s k) :=
  raiseEv_within.step (modSession_within.step (closeSession_within.step (.refl _) rfl rfl) rfl rfl) rfl rfl

theorem evict_within {s : State} {p : Nat} : Within [.regs, .mem, .extMem, .log, .fle] (blks [.hlm, .jrn, .fle]) s
    (evict s p) :=
  raiseEv_within.step (foldl_within (fun _ _ hu => modFle_within.step (closeSession_within.step hu rfl rfl) rfl rfl)
    (modMember_within.step (.refl _) rfl rfl)) rfl rfl

theorem pubNowDone_within {s : State} : Within [.reqs, .till, .fle] [] s (pubNowDone s) :=
  foldl_within (fun _ _ hu => complete_within.step hu rfl rfl) (modFle_within.step (.refl _) rfl rfl)

theorem storeDelta_within {s : State} {d : Delta} : Within [.fle] [] s (storeDelta s d) := by
  unfold storeDelta
  exact modMember_within.step (modFle_within.step (.refl _) rfl rfl) rfl rfl

theorem fleClose_within {s : State} : Within [.regs, .fle] (blks [.fle]) s (fleClose s) :=
  foldl_within (fun _ _ hu => closeSession_within.step hu rfl rfl) (.refl _)

/-! ### Store -/

theorem mediaError_within {s : State} {write : Bool} : Within [.regs, .mem, .extMem, .log] (blks [.hlm, .jrn, .sto]) s
    (mediaError s write) :=
  raiseEv_within.step (rinc_within.step (.refl _) rfl (by split <;> rfl)) rfl rfl

theorem writeTile_within {s : State} {id : Nat} {img : Tile} : Within [.sto, .fle] [] s (writeTile s id img) := by
  unfold writeTile
  split
  · exact .refl _
  · dsimp only
    split
    · exact modSlot_within.step (foldl_within (fun _ _ hu => writeCell_within.step hu rfl rfl) (clockLocal_within.step
        (.refl _) rfl rfl)) rfl rfl
    · exact foldl_within (fun _ _ hu => writeCell_within.step hu rfl rfl) (clockLocal_within.step (.refl _) rfl rfl)

theorem partWrite_within {s : State} {p off : Nat} {l : List Nat} : Within [.sto] [] s (partWrite s p off l) := by
  induction l generalizing s off with
  | nil => exact .refl _
  | cons b t ih => exact ih.step modSto_within rfl rfl

theorem jrnApply_within {s : State} {j : JrnJob} {n : Nat} : Within [.sto] [] s (jrnApply s j n) :=
  modSto_within.step (.refl _) rfl rfl

/-! ### Can -/

theorem modCan_within {s : State} {c : Nat} {f : CanCtl → CanCtl} : Within [.regs, .can] (blks [.can]) s (modCan s c
    f) :=
  rset_within.step (rset_within.step (within_can (.refl _) rfl) rfl rfl) rfl rfl

theorem stopSend_within {s : State} {c : Nat} {r : Ref} : Within [.regs, .reqs, .till, .can] (blks [.can]) s (stopSend
    s c r) := by
  unfold stopSend
  dsimp only
  split
  · exact complete_within.step (modCan_within.step (.refl _) rfl rfl) rfl rfl
  · exact within_ite (.refl _) (complete_within.step (modCan_within.step (.refl _) rfl rfl) rfl rfl)

theorem canHandOver_within {s : State} {p : Nat × CanTx} : Within [.regs, .can] (blks [.can]) s (canHandOver s p) :=
    by
  unfold canHandOver
  refine within_ite ?_ ?_
  · exact rinc_within.step (.refl _) rfl rfl
  · split
    · exact modCan_within.step (.refl _) rfl rfl
    · exact within_ite (modCan_within.step (.refl _) rfl rfl) (rinc_within.step (.refl _) rfl rfl)

theorem canCommit_within {s : State} : Within [.regs, .can] (blks [.can]) s (canCommit s) :=
  foldl_within (fun _ _ hu => canHandOver_within.step hu rfl rfl) (.refl _)

/-! ### Nav -/

theorem modNav_within {s : State} {f : Nav → Nav} : Within [.nav] [] s (modNav s f) := within_nav (.refl _) rfl

theorem trkCount_within {s : State} : Within [.regs] (blks [.nav]) s (trkCount s) :=
  rset_within.step (rset_within.step (.refl _) rfl rfl) rfl rfl

theorem trkRejudge_within {s : State} : Within [.regs, .nav] (blks [.nav]) s (trkRejudge s) :=
  trkCount_within.step (modNav_within.step (.refl _) rfl rfl) rfl rfl

theorem skyMoved_within {s : State} {sky : List (Nat × Nat × Nat)} : Within [.regs, .nav] (blks [.nav]) s (skyMoved s
    sky) :=
  within_ite (.refl _) (trkRejudge_within.step (modNav_within.step (.refl _) rfl rfl) rfl rfl)

theorem setFix_within {s : State} {old : Nat} : Within [.regs, .mem, .extMem, .log] (blks [.hlm, .jrn, .nav]) s
    (setFix s old) :=
  within_ite (raiseEv_within.step (rset_within.step (rsetB_within.step (rset_within.step (.refl _) rfl rfl) rfl rfl)
    rfl rfl) rfl rfl) (rset_within.step (rsetB_within.step (rset_within.step (.refl _) rfl rfl) rfl rfl) rfl rfl)

theorem sbasStep_within {s : State} {m : NavMeas} : Within [.nav] [] s (sbasStep s m) :=
  modNav_within.step (.refl _) rfl rfl

theorem noteTcxo_within {s : State} {tcxo : Int} : Within [.nav] [] s (noteTcxo s tcxo) :=
  within_ite (modNav_within.step (.refl _) rfl rfl) (.refl _)

theorem filterStep_within {s0 : State} {m : NavMeas} : Within [.regs, .mem, .extMem, .log, .nav] (blks [.hlm, .jrn,
    .nav]) s0 (filterStep s0 m) :=
  setFix_within.step (modNav_within.step (modNav_within.step (sbasStep_within.step (skyMoved_within.step
    (noteTcxo_within.step (.refl _) rfl rfl) rfl rfl) rfl rfl) rfl rfl) rfl rfl) rfl rfl

theorem corrExpiry_within {s : State} : Within [.regs, .mem, .extMem, .log, .nav] (blks [.hlm, .jrn, .nav]) s
    (corrExpiry s) :=
  within_ite (setFix_within.step (modNav_within.step (.refl _) rfl rfl) rfl rfl) (.refl _)

theorem setTimeState_within {s : State} {v : Nat} : Within [.regs] (blks [.nav]) s (setTimeState s v) :=
  rset_within.step (.refl _) rfl rfl

theorem settleSlew_within {s0 : State} : Within [.timeOff, .nav] [] s0 (settleSlew s0) :=
  within_timeOff_nav (noteTime_within.step (.refl _) rfl rfl) rfl

theorem startSlew_within {s : State} {d : Int} : Within [.regs, .timeOff, .nav] (blks [.nav]) s (startSlew s d) :=
  rsetS_within.step (within_nav (settleSlew_within.step (.refl _) rfl rfl) rfl) rfl rfl

theorem setUnc_within {s : State} {ns : Nat} : Within [.regs] (blks [.nav]) s (setUnc s ns) :=
  rset_within.step (.refl _) rfl rfl

theorem setRtc_within {s : State} : Within [.regs, .rtcOff] (blks [.aoc]) s (setRtc s) :=
  rset_within.step (within_rtcOff (.refl _) rfl) rfl rfl

theorem regridFilter_within {s : State} : Within [.nav] [] s (regridFilter s) := modNav_within.step (.refl _) rfl rfl

theorem firstTime_within {s : State} {d : Int} {unc : Nat} : Within [.regs, .timeOff, .rtcOff, .mem, .extMem, .log,
    .tke, .nav] (blks [.hlm, .jrn, .nav, .aoc]) s (firstTime s d unc) :=
  raiseEv_within.step (setUnc_within.step (setTimeState_within.step (rset64_within.step (setRtc_within.step
    (modNav_within.step (regridFilter_within.step (within_timeOff_tke (noteTime_within.step (.refl _) rfl rfl) rfl)
    rfl rfl) rfl rfl) rfl rfl) rfl rfl) rfl rfl) rfl rfl) rfl rfl

theorem validSolution_within {s : State} {d : Int} {unc : Nat} : Within [.regs, .timeOff, .rtcOff, .mem, .extMem,
    .log, .tke, .nav] (blks [.hlm, .jrn, .nav, .aoc]) s (validSolution s d unc) :=
  within_ite (firstTime_within.step (modNav_within.step (modNav_within.step (.refl _) rfl rfl) rfl rfl) rfl rfl)
    (within_ite (setUnc_within.step (modNav_within.step (.refl _) rfl rfl) rfl rfl) (within_ite (modNav_within.step
    (modNav_within.step (.refl _) rfl rfl) rfl rfl) (setUnc_within.step (startSlew_within.step (modNav_within.step
    (.refl _) rfl rfl) rfl rfl) rfl rfl)))

theorem timeSolution_within {s : State} {a b : Option Int} {unc : Nat} {far : Bool} : Within [.regs, .timeOff,
    .rtcOff, .mem, .extMem, .log, .tke, .nav] (blks [.hlm, .jrn, .nav, .aoc]) s (timeSolution s a b unc far) := by
  unfold timeSolution
  refine within_ite ?_ ?_
  · exact .refl _
  · dsimp only
    split
    · exact .refl _
    · exact within_ite (validSolution_within.step (within_ite (rsetB_within.step (.refl _) rfl rfl) (within_ite
        (rinc_within.step (rset_within.step (modNav_within.step (rsetB_within.step (.refl _) rfl rfl) rfl rfl) rfl
        rfl) rfl rfl) (modNav_within.step (rsetB_within.step (.refl _) rfl rfl) rfl rfl))) rfl rfl)
        (modNav_within.step (within_ite (setUnc_within.step (within_ite (rsetB_within.step (.refl _) rfl rfl)
        (within_ite (rinc_within.step (rset_within.step (modNav_within.step (rsetB_within.step (.refl _) rfl rfl) rfl
        rfl) rfl rfl) rfl rfl) (modNav_within.step (rsetB_within.step (.refl _) rfl rfl) rfl rfl))) rfl rfl)
        (within_ite (rsetB_within.step (.refl _) rfl rfl) (within_ite (rinc_within.step (rset_within.step
        (modNav_within.step (rsetB_within.step (.refl _) rfl rfl) rfl rfl) rfl rfl) rfl rfl) (modNav_within.step
        (rsetB_within.step (.refl _) rfl rfl) rfl rfl)))) rfl rfl)

theorem holdoverBegin_within {s : State} {eps : Nat} {tcxo : Int} : Within [.regs, .timeOff, .mem, .extMem, .log,
    .nav] (blks [.hlm, .jrn, .nav]) s (holdoverBegin s eps tcxo) :=
  raiseEv_within.step (setUnc_within.step (rsetS_within.step (setTimeState_within.step (modNav_within.step
    (settleSlew_within.step (.refl _) rfl rfl) rfl rfl) rfl rfl) rfl rfl) rfl rfl) rfl rfl

theorem slewComplete_within {s : State} : Within [.regs, .timeOff, .nav] (blks [.nav]) s (slewComplete s) :=
  within_ite (setUnc_within.step (rsetS_within.step (setTimeState_within.step (modNav_within.step
    (settleSlew_within.step (.refl _) rfl rfl) rfl rfl) rfl rfl) rfl rfl) rfl rfl) (.refl _)

theorem endConf_within {s : State} : Within [.nav] [] s (endConf s) := by
  unfold endConf
  split
  · exact modNav_within.step (.refl _) rfl rfl
  · exact .refl _

theorem timeStep_within {s : State} {d : Int} : Within [.regs, .timeOff, .mem, .extMem, .log, .tke, .nav] (blks [.hlm,
    .jrn, .nav]) s (timeStep s d) :=
  raiseEv_within.step (setUnc_within.step (rwrap_within.step (rsetS_within.step (setTimeState_within.step
    (modNav_within.step (regridFilter_within.step (within_timeOff_tke (settleSlew_within.step (endConf_within.step
    (.refl _) rfl rfl) rfl rfl) rfl) rfl rfl) rfl rfl) rfl rfl) rfl rfl) rfl rfl) rfl rfl) rfl rfl

theorem slewDecide_within {s : State} {d : Int} : Within [.regs, .timeOff, .nav] (blks [.nav]) s (slewDecide s d) :=
  within_ite (setUnc_within.step (setTimeState_within.step (modNav_within.step (endConf_within.step (.refl _) rfl rfl)
    rfl rfl) rfl rfl) rfl rfl) (setUnc_within.step (startSlew_within.step (setTimeState_within.step
    (modNav_within.step (endConf_within.step (.refl _) rfl rfl) rfl rfl) rfl rfl) rfl rfl) rfl rfl)

theorem setTpNext_within {s : State} {time : Nat} : Within [.regs] (blks [.nav]) s (setTpNext s time) :=
  rset64_within.step (.refl _) rfl rfl

theorem renewTpNext_within {s : State} : Within [.regs] (blks [.nav]) s (renewTpNext s) :=
  within_ite (setTpNext_within.step (.refl _) rfl rfl) (.refl _)

theorem pulseMessage_within {s : State} {label : Nat} {emitted : Bool} : Within [.regs] (blks [.nav]) s (pulseMessage
    s label emitted) :=
  rsetB_within.step (rsetB_within.step (rsetB_within.step (rsetB_within.step (rwrap_within.step (rset64_within.step
    (.refl _) rfl rfl) rfl rfl) rfl rfl) rfl rfl) rfl rfl) rfl rfl

theorem pulseOut_within {s : State} {label : Nat} {stepped : Bool} : Within [.regs, .mem, .extMem, .log, .nav] (blks
    [.nav, .hlm, .jrn]) s (pulseOut s label stepped) :=
  setTpNext_within.step (within_ite (raiseEv_within.step (modNav_within.step (within_ite (modNav_within.step
    (pulseMessage_within.step (.refl _) rfl rfl) rfl rfl) (pulseMessage_within.step (.refl _) rfl rfl)) rfl rfl) rfl
    rfl) (within_ite (modNav_within.step (pulseMessage_within.step (.refl _) rfl rfl) rfl rfl)
    (pulseMessage_within.step (.refl _) rfl rfl))) rfl rfl

theorem navStore_within {s : State} {ephemeris almanac : Nat} : Within [.nav] [] s (navStore s ephemeris almanac) :=
    by
  unfold navStore
  exact modNav_within.step (.refl _) rfl rfl

theorem navStart_within {s : State} : Within [.regs] (blks [.nav]) s (navStart s) := by
  unfold navStart
  dsimp only
  split
  · split
    · exact rset_within.step (rset_within.step (setTpNext_within.step (rset_within.step (.refl _) rfl rfl) rfl rfl)
        rfl rfl) rfl rfl
    · exact setTpNext_within.step (rset_within.step (.refl _) rfl rfl) rfl rfl
  · exact setTpNext_within.step (rset_within.step (.refl _) rfl rfl) rfl rfl

/-! ### Eth -/

theorem modEth_within {s : State} {p : Nat} {f : EthPort → EthPort} : Within [.eth] [] s (modEth s p f) :=
  within_eth (.refl _) rfl

theorem ethLinkUp_within {s : State} {p : Nat} : Within [.regs, .eth] (blks [.eth]) s (ethLinkUp s p) :=
  within_ite (rset_within.step (rset_within.step (modEth_within.step (.refl _) rfl rfl) rfl rfl) rfl rfl) (.refl _)

theorem stopEthTx_within {s : State} {r : Ref} : Within [.eth] [] s (stopEthTx s r) := within_eth (.refl _) rfl

/-! ### Panels -/

theorem modPnl_within {s : State} {p : Nat} {f : Pnl → Pnl} : Within [.pnl] [] s (modPnl s p f) :=
  within_pnl (.refl _) rfl

theorem setLine_within {s : State} {p n : Nat} {l : PnlLine} : Within [.pnl] [] s (setLine s p n l) :=
  modPnl_within.step (.refl _) rfl rfl

theorem vlcdTo_within {s : State} {p v : Nat} : Within [.regs, .pnl] (blks [.pnl]) s (vlcdTo s p v) :=
  within_ite (.refl _) (rset_within.step (modPnl_within.step (.refl _) rfl rfl) rfl rfl)

theorem panelView_within {s : State} {p : Nat} : Within [.regs, .pnl] (blks [.pnl]) s (panelView s p) :=
  within_ite (rset_within.step (rsetB_within.step (within_ite (.refl _) (modPnl_within.step (.refl _) rfl rfl)) rfl
    rfl) rfl rfl) (vlcdTo_within.step (rsetB_within.step (rset_within.step (rsetB_within.step (within_ite (.refl _)
    (modPnl_within.step (.refl _) rfl rfl)) rfl rfl) rfl rfl) rfl rfl) rfl rfl)

theorem settleJobs_within {s : State} {p : Nat} : Within [.reqs, .till, .pnl] [] s (settleJobs s p) :=
  within_ite (.refl _) (foldl_within (fun _ _ hu => complete_within.step hu rfl rfl) (modPnl_within.step (.refl _) rfl
    rfl))

theorem takeOver_within {s : State} {p : Nat} {src : Option Ref} : Within [.pnl] [] s (takeOver s p src) := by
  unfold takeOver
  split
  · exact modPnl_within.step (.refl _) rfl rfl
  · exact .refl _

theorem wipeShadows_within {s : State} {p : Nat} : Within [.pnl] [] s (wipeShadows s p) := by
  unfold wipeShadows
  exact modPnl_within.step (.refl _) rfl rfl

theorem sendWipes_within {s : State} {p : Nat} : Within [.pnl] [] s (sendWipes s p) :=
  within_ite (.refl _) (modPnl_within.step (.refl _) rfl rfl)

theorem wipeDone_within {s : State} {p : Nat} : Within [.reqs, .till, .pnl] [] s (wipeDone s p) := by
  unfold wipeDone
  split
  · exact within_ite (.refl _) (sendWipes_within.step (settleJobs_within.step (foldl_within (fun _ _ hu =>
      completeOpt_within.step hu rfl rfl) (wipeShadows_within.step (modPnl_within.step (.refl _) rfl rfl) rfl rfl))
      rfl rfl) rfl rfl)
  · exact .refl _

theorem pnlEnable_within {s : State} {p : Nat} : Within [.regs, .pnl] (blks [.pnl]) s (pnlEnable s p) :=
  within_ite (.refl _) (within_ite (rset_within.step (.refl _) rfl rfl) (panelView_within.step (sendWipes_within.step
    (rset_within.step (modPnl_within.step (rset_within.step (.refl _) rfl rfl) rfl rfl) rfl rfl) rfl rfl) rfl rfl))

theorem updateLine_within {s : State} {p : Nat} {r : Ref} {force blanked : Bool} {n : Nat} {px : List Nat} : Within
    [.regs, .pnl] (blks [.pnl]) s (updateLine s p r force blanked n px) :=
  within_ite (rinc_within.step (setLine_within.step (takeOver_within.step (.refl _) rfl rfl) rfl rfl) rfl rfl)
    (setLine_within.step (takeOver_within.step (.refl _) rfl rfl) rfl rfl)

theorem pnlUpdate_within {s : State} {r : Ref} {d : Desc} {src : List Nat} : Within [.regs, .reqs, .till, .pnl] (blks
    [.pnl]) s (pnlUpdate s r d src) :=
  within_ite (complete_within.step (.refl _) rfl rfl) (within_ite (complete_within.step (.refl _) rfl rfl)
    (panelView_within.step (settleJobs_within.step (within_ite (complete_within.step (foldl_within (fun _ _ hu =>
    updateLine_within.step hu rfl rfl) (modPnl_within.step (.refl _) rfl rfl)) rfl rfl) (foldl_within (fun _ _ hu =>
    updateLine_within.step hu rfl rfl) (modPnl_within.step (.refl _) rfl rfl))) rfl rfl) rfl rfl))

theorem pnlClear_within {s : State} {r : Ref} {d : Desc} : Within [.regs, .reqs, .till, .pnl] (blks [.pnl]) s
    (pnlClear s r d) :=
  within_ite (complete_within.step (.refl _) rfl rfl) (panelView_within.step (sendWipes_within.step
    (settleJobs_within.step (modPnl_within.step (.refl _) rfl rfl) rfl rfl) rfl rfl) rfl rfl)

theorem lineStart_within {s : State} {p : Nat} : Within [.regs, .pnl] (blks [.pnl]) s (lineStart s p) := by
  unfold lineStart
  dsimp only
  refine within_ite ?_ ?_
  · exact .refl _
  · split
    · exact .refl _
    · exact panelView_within.step (rset_within.step (modPnl_within.step (setLine_within.step (.refl _) rfl rfl) rfl
        rfl) rfl rfl) rfl rfl

theorem pinvChange_within {s : State} {p : Nat} : Within [.pnl] [] s (pinvChange s p) :=
  modPnl_within.step (.refl _) rfl rfl

theorem lineDone_within {s : State} {p : Nat} : Within [.regs, .reqs, .till, .pnl] (blks [.pnl]) s (lineDone s p) :=
    by
  unfold lineDone
  dsimp only
  split
  · exact within_ite (panelView_within.step (wipeDone_within.step (.refl _) rfl rfl) rfl rfl) (.refl _)
  · exact within_ite (.refl _) (panelView_within.step (sendWipes_within.step (settleJobs_within.step (rinc_within.step
      (within_ite (pinvChange_within.step (modPnl_within.step (setLine_within.step (.refl _) rfl rfl) rfl rfl) rfl
      rfl) (modPnl_within.step (setLine_within.step (.refl _) rfl rfl) rfl rfl)) rfl rfl) rfl rfl) rfl rfl) rfl rfl)

theorem tempSample_within {s : State} {p : Nat} {tsns : Option Int} {housing : Int} : Within [.regs, .mem, .extMem,
    .log, .pnl] (blks [.pnl, .hlm, .jrn]) s (tempSample s p tsns housing) :=
  within_ite (.refl _) (panelView_within.step (within_ite (raiseEv_within.step (rsetB_within.step (rset_within.step
    (modPnl_within.step (.refl _) rfl rfl) rfl rfl) rfl rfl) rfl rfl) (rsetB_within.step (rset_within.step
    (modPnl_within.step (.refl _) rfl rfl) rfl rfl) rfl rfl)) rfl rfl)

theorem crackMeasure_within {s : State} {p ohm : Nat} : Within [.regs, .mem, .extMem, .log, .pnl] (blks [.pnl, .hlm,
    .jrn]) s (crackMeasure s p ohm) :=
  within_ite (.refl _) (within_ite (panelView_within.step (raiseEv_within.step (rset_within.step (rset_within.step
    (modPnl_within.step (.refl _) rfl rfl) rfl rfl) rfl rfl) rfl rfl) rfl rfl) (rset_within.step (modPnl_within.step
    (.refl _) rfl rfl) rfl rfl))

theorem stopPanelJob_within {s : State} {p : Nat} {r : Ref} : Within [.regs, .pnl] (blks [.pnl]) s (stopPanelJob s p
    r) :=
  panelView_within.step (modPnl_within.step (modPnl_within.step (.refl _) rfl rfl) rfl rfl) rfl rfl

theorem abortPanelJob_within {s : State} {p : Nat} {r : Ref} : Within [.regs, .reqs, .till, .pnl] (blks [.pnl]) s
    (abortPanelJob s p r) :=
  abortReq_within (fun _ hu => complete_within.step (stopPanelJob_within.step hu rfl rfl) rfl rfl) (.refl _) rfl rfl

theorem pnlDisable_within {s : State} {p : Nat} : Within [.regs, .reqs, .till, .pnl] (blks [.pnl]) s (pnlDisable s p)
    :=
  within_ite (.refl _) (panelView_within.step (modPnl_within.step (foldl_within (fun _ _ hu =>
    abortPanelJob_within.step hu rfl rfl) (rset_within.step (.refl _) rfl rfl)) rfl rfl) rfl rfl)

theorem pnlSupplyFault_within {s : State} {p : Nat} : Within [.regs, .mem, .extMem, .log, .reqs, .till, .pnl] (blks
    [.pnl, .hlm, .jrn]) s (pnlSupplyFault s p) :=
  within_ite (.refl _) (panelView_within.step (raiseEv_within.step (rset_within.step (pnlDisable_within.step (.refl _)
    rfl rfl) rfl rfl) rfl rfl) rfl rfl)

theorem panelDark_within {s : State} {p : Nat} : Within [.regs, .pnl] (blks [.pnl]) s (panelDark s p) :=
  vlcdTo_within.step (rset_within.step (rset_within.step (modPnl_within.step (.refl _) rfl rfl) rfl rfl) rfl rfl) rfl
    rfl

/-! ### Rings -/

theorem fetchTake_within {s : State} {n : Nat} : Within [.regs] (blks [.cqr, .rng]) s (fetchTake s n) :=
  rset_within.step (rset_within.step (rset_within.step (.refl _) rfl rfl) rfl rfl) rfl rfl

theorem dropMarks_within {s : State} : Within [.vis] [] s (dropMarks s) :=
  within_ite (.refl _) (within_vis (.refl _) rfl)

theorem tillMask_within {s : State} : Within [.regs, .rolLatch, .arbs, .till] (blks [.til, .arb]) s (tillMask s) :=
  rsetB_within.step (arbTickets_within.step (setArb_within.step (tillTo_within.step (.refl _) rfl rfl) rfl rfl) rfl
    rfl) rfl rfl

theorem seqCompl_within {s : State} {r : Ref} : Within [.regs, .reqs] (blks [.til]) s (seqCompl s r) := by
  unfold seqCompl
  split
  · split
    · exact rwrap_within.step (updReq_within.step (.refl _) rfl rfl) rfl rfl
    · exact .refl _
  · exact .refl _

theorem tillTake_within {s : State} {r : TillRec} : Within [.regs, .reqs, .till] (blks [.til]) s (tillTake s r) :=
  within_till (within_ite (rwrap_within.step (foldl_within (fun _ _ hu => seqCompl_within.step hu rfl rfl) (.refl _))
    rfl rfl) (foldl_within (fun _ _ hu => seqCompl_within.step hu rfl rfl) (.refl _))) rfl

theorem irqSend_within {s : State} {k : Nat} : Within [.irqs] [] s (irqSend s k) := within_irqs (.refl _) rfl

theorem msixRaise_within {s : State} {v : Nat} : Within [.regs, .irqs] (blks [.msix]) s (msixRaise s v) :=
  within_ite (rsetBitAt_within.step (.refl _) rfl rfl) (irqSend_within.step (.refl _) rfl rfl)

theorem cqRaise_within {s : State} {m : Nat} : Within [.regs, .cqIrq, .irqs] (blks [.msix]) s (cqRaise s m) :=
  within_ite (irqSend_within.step (within_cqIrq (.refl _) rfl) rfl rfl) (within_ite (msixRaise_within.step
    (within_cqIrq (.refl _) rfl) rfl rfl) (within_cqIrq (.refl _) rfl))

theorem cqCount_within {s : State} {m : Nat} {noIrq : Bool} : Within [.regs, .cqIrq, .irqs] (blks [.msix]) s (cqCount
    s m noIrq) :=
  within_ite (.refl _) (within_ite (cqRaise_within.step (within_cqIrq (.refl _) rfl) rfl rfl) (within_cqIrq (.refl _)
    rfl))

theorem writeCompl_within {s : State} {r : Ref} : Within [.regs, .mem, .extMem, .reqs, .cqIrq, .irqs] (blks [.msix,
    .til, .cqr, .rng]) s (writeCompl s r) := by
  unfold writeCompl
  split
  · split
    · exact within_ite (cqCount_within.step (within_ite (rinc_within.step (rset_within.step (rset_within.step
        (hostWrite_within.step (within_reqs (within_ite (rinc_within.step (.refl _) rfl rfl) (.refl _)) rfl) rfl rfl)
        rfl rfl) rfl rfl) rfl rfl) (within_ite (rinc_within.step (rset_within.step (rset_within.step
        (hostWrite_within.step (within_reqs (within_ite (rinc_within.step (.refl _) rfl rfl) (.refl _)) rfl) rfl rfl)
        rfl rfl) rfl rfl) rfl rfl) (rset_within.step (rset_within.step (hostWrite_within.step (within_reqs (within_ite
        (rinc_within.step (.refl _) rfl rfl) (.refl _)) rfl) rfl rfl) rfl rfl) rfl rfl))) rfl rfl) (within_reqs
        (within_ite (rinc_within.step (.refl _) rfl rfl) (.refl _)) rfl)
    · exact .refl _
  · exact .refl _

/-! ### DriveBanks -/

theorem setPps_within {s : State} {p : Nat} {v : Pps} : Within [.pps] [] s (setPps s p v) := within_pps (.refl _) rfl

theorem setDrv_within {s : State} {ch : Nat} {v : DrvCh} : Within [.drv] [] s (setDrv s ch v) :=
  within_drv (.refl _) rfl

theorem modDrv_within {s : State} {ch : Nat} {f : DrvCh → DrvCh} : Within [.drv] [] s (modDrv s ch f) :=
  setDrv_within.step (.refl _) rfl rfl

theorem setDbk_within {s : State} {b : Nat} {v : DrvBank} : Within [.dbk] [] s (setDbk s b v) :=
  within_dbk (.refl _) rfl

theorem dset_within {s : State} {f : Fld} {v ch : Nat} : Within [.regs] [f.id / 128] s (dset s f v ch) :=
  rset_within.step (.refl _) rfl (by simp)

theorem noteHs_within {s0 : State} {b : Nat} {s : State} : Within [.dbk] [] s (noteHs s0 b s) :=
  within_ite (setDbk_within.step (.refl _) rfl rfl) (.refl _)

theorem setPhaseAt_within {s : State} {ch ph t : Nat} : Within [.regs, .drv, .dbk] (blks [.dbk]) s (setPhaseAt s ch ph
    t) :=
  noteHs_within.step (within_ite (modDrv_within.step (modDrv_within.step (dset_within.step (.refl _) rfl rfl) rfl rfl)
    rfl rfl) (modDrv_within.step (dset_within.step (.refl _) rfl rfl) rfl rfl)) rfl rfl

theorem setPhase_within {s : State} {ch ph : Nat} : Within [.regs, .drv, .dbk] (blks [.dbk]) s (setPhase s ch ph) :=
  setPhaseAt_within.step (.refl _) rfl rfl

theorem finishProf_within {s : State} {ch : Nat} {p : DrvProf} {truncated : Bool} : Within [.reqs, .till] [] s
    (finishProf s ch p truncated) := by
  unfold finishProf
  split
  · exact .refl _
  · exact completeRow_within.step (.refl _) rfl rfl

theorem noteClamp_within {s : State} {ch : Nat} : Within [.regs] (blks [.dbk]) s (noteClamp s ch) :=
  within_ite (dset_within.step (.refl _) rfl rfl) (.refl _)

theorem noteMove_within {s : State} {ch : Nat} {step : Option Nat} : Within [.hlm] [] s (noteMove s ch step) :=
  within_hlm (.refl _) rfl

theorem recordMove_within {s0 : State} {ch : Nat} {step : Option Nat} : Within [.regs, .drv, .hlm] (blks [.dbk]) s0
    (recordMove s0 ch step) := by
  unfold recordMove
  dsimp only
  split
  · exact dset_within.step (dset_within.step (dset_within.step (modDrv_within.step (noteMove_within.step (.refl _) rfl
      rfl) rfl rfl) rfl rfl) rfl rfl) rfl rfl
  · exact dset_within.step (dset_within.step (dset_within.step (modDrv_within.step (noteMove_within.step (.refl _) rfl
      rfl) rfl rfl) rfl rfl) rfl rfl) rfl rfl

theorem endSearch_within {s : State} {ch : Nat} : Within [.regs, .drv, .hlm] (blks [.dbk]) s (endSearch s ch) := by
  unfold endSearch
  split
  · exact within_ite (recordMove_within.step (.refl _) rfl rfl) (.refl _)
  · exact .refl _

theorem moveSample_within {s : State} {ch t ma : Nat} : Within [.regs, .drv, .hlm] (blks [.dbk]) s (moveSample s ch t
    ma) := by
  unfold moveSample
  dsimp only
  split
  · split
    · refine within_ite ?_ ?_
      · exact .refl _
      · split
        · exact recordMove_within.step (modDrv_within.step (.refl _) rfl rfl) rfl rfl
        · exact within_ite (recordMove_within.step (modDrv_within.step (.refl _) rfl rfl) rfl rfl) (modDrv_within.step
            (.refl _) rfl rfl)
    · exact .refl _
  · exact .refl _

theorem drvSample_within {s : State} {ch t ma : Nat} : Within [.regs, .drv, .hlm] (blks [.dbk]) s (drvSample s ch t
    ma) :=
  within_ite (modDrv_within.step (moveSample_within.step (.refl _) rfl rfl) rfl rfl) (.refl _)

theorem drvTrace_within {s : State} {ch t : Nat} {l : List Nat} : Within [.regs, .drv, .hlm] (blks [.dbk]) s (drvTrace
    s ch t l) := by
  induction l generalizing s with
  | nil => exact .refl _
  | cons ma rest ih => exact ih.step (drvSample_within.step (.refl _) rfl rfl) rfl rfl

theorem releaseHsvAt_within {s : State} {ch t : Nat} : Within [.regs, .dbk] (blks [.dbk]) s (releaseHsvAt s ch t) :=
  within_ite (noteHs_within.step (rset_within.step (setDbk_within.step (.refl _) rfl rfl) rfl rfl) rfl rfl) (.refl _)

theorem releaseHsv_within {s : State} {ch : Nat} : Within [.regs, .dbk] (blks [.dbk]) s (releaseHsv s ch) :=
  releaseHsvAt_within.step (.refl _) rfl rfl

theorem setVbst_within {s : State} {b v : Nat} : Within [.regs, .dbk] (blks [.dbk]) s (setVbst s b v) :=
  setDbk_within.step (rset_within.step (.refl _) rfl rfl) rfl rfl

theorem startBoost_within {s : State} {ch : Nat} : Within [.regs, .onesAt, .drv, .dbk] (blks [.dbk]) s (startBoost s
    ch) := by
  unfold startBoost
  split
  · exact .refl _
  · exact foldl_within (fun _ _ hu => modDrv_within.step hu rfl rfl) (within_ite (setOnes_within.step
      (noteClamp_within.step (rwrap_within.step (dset_within.step (dset_within.step (dset_within.step
      (modDrv_within.step (setPhase_within.step (rset_within.step (rset_within.step (setDbk_within.step
      (setVbst_within.step (.refl _) rfl rfl) rfl rfl) rfl rfl) rfl rfl) rfl rfl) rfl rfl) rfl rfl) rfl rfl) rfl rfl)
      rfl rfl) rfl rfl) rfl rfl) (noteClamp_within.step (rwrap_within.step (dset_within.step (dset_within.step
      (dset_within.step (modDrv_within.step (setPhase_within.step (rset_within.step (rset_within.step
      (setDbk_within.step (setVbst_within.step (.refl _) rfl rfl) rfl rfl) rfl rfl) rfl rfl) rfl rfl) rfl rfl) rfl
      rfl) rfl rfl) rfl rfl) rfl rfl) rfl rfl))

theorem enterDecayAt_within {s : State} {ch t : Nat} : Within [.regs, .drv, .dbk] (blks [.dbk]) s (enterDecayAt s ch
    t) :=
  within_ite (.refl _) (modDrv_within.step (setPhaseAt_within.step (.refl _) rfl rfl) rfl rfl)

theorem enterDecay_within {s : State} {ch : Nat} : Within [.regs, .drv, .dbk] (blks [.dbk]) s (enterDecay s ch) :=
  enterDecayAt_within.step (.refl _) rfl rfl

theorem abortProf_within {s : State} {ch : Nat} : Within [.regs, .drv, .dbk] (blks [.dbk]) s (abortProf s ch) := by
  unfold abortProf
  dsimp only
  split
  · exact enterDecayAt_within.step (modDrv_within.step (releaseHsvAt_within.step (.refl _) rfl rfl) rfl rfl) rfl rfl
  · exact enterDecayAt_within.step (modDrv_within.step (releaseHsvAt_within.step (.refl _) rfl rfl) rfl rfl) rfl rfl
  · exact setPhase_within.step (modDrv_within.step (.refl _) rfl rfl) rfl rfl
  · exact modDrv_within.step (.refl _) rfl rfl

theorem stopProf_within {s : State} {ch : Nat} : Within [.regs, .reqs, .till, .drv, .dbk] (blks [.dbk]) s (stopProf s
    ch) := by
  unfold stopProf
  dsimp only
  refine enterDecay_within.step ?_ rfl rfl
  refine modDrv_within.step ?_ rfl rfl
  refine releaseHsv_within.step ?_ rfl rfl
  split
  · exact finishProf_within.step (.refl _) rfl rfl
  · exact .refl _

theorem endPeak_within {s : State} {ch : Nat} : Within [.regs, .reqs, .till, .drv, .dbk, .hlm] (blks [.dbk]) s
    (endPeak s ch) := by
  unfold endPeak
  dsimp only
  split
  · exact setPhase_within.step (modDrv_within.step (finishProf_within.step (endSearch_within.step (.refl _) rfl rfl)
      rfl rfl) rfl rfl) rfl rfl
  · exact endSearch_within.step (.refl _) rfl rfl

theorem endBoost_within {s : State} {ch : Nat} {byTimeout : Bool} : Within [.regs, .reqs, .till, .drv, .dbk, .hlm]
    (blks [.dbk]) s (endBoost s ch byTimeout) :=
  within_ite (endPeak_within.step (modDrv_within.step (releaseHsv_within.step (within_ite (.refl _)
    (endSearch_within.step (.refl _) rfl rfl)) rfl rfl) rfl rfl) rfl rfl) (setPhase_within.step (modDrv_within.step
    (releaseHsv_within.step (within_ite (.refl _) (endSearch_within.step (.refl _) rfl rfl)) rfl rfl) rfl rfl) rfl
    rfl)

theorem drvProfile_within {s : State} {ch delay on hold : Nat} {ref : Option Ref} {row at_ : Nat} : Within [.reqs,
    .till, .drv] [] s (drvProfile s ch delay on hold ref row at_) := by
  unfold drvProfile
  dsimp only
  split
  · split
    · exact completeRow_within.step (modDrv_within.step (.refl _) rfl rfl) rfl rfl
    · exact modDrv_within.step (.refl _) rfl rfl
  · exact modDrv_within.step (.refl _) rfl rfl

theorem dropProf_within {s : State} {ch : Nat} : Within [.regs, .reqs, .till, .drv, .dbk] (blks [.dbk]) s (dropProf s
    ch) := by
  unfold dropProf
  split
  · exact .refl _
  · dsimp only
    split
    · exact completeRow_within.step (rinc_within.step (setPhase_within.step (modDrv_within.step (.refl _) rfl rfl) rfl
        rfl) rfl rfl) rfl rfl
    · exact rinc_within.step (setPhase_within.step (modDrv_within.step (.refl _) rfl rfl) rfl rfl) rfl rfl

theorem setDrvFault_within {s : State} {ch code : Nat} : Within [.regs, .mem, .extMem, .log] (blks [.hlm, .jrn, .dbk])
    s (setDrvFault s ch code) :=
  within_ite (raiseEv_within.step (dset_within.step (.refl _) rfl rfl) rfl rfl) (dset_within.step (.refl _) rfl rfl)

theorem openNow_within {s : State} {ch : Nat} : Within [.regs, .mem, .extMem, .log] (blks [.hlm, .jrn, .dbk]) s
    (openNow s ch) :=
  within_ite (setDrvFault_within.step (.refl _) rfl rfl) (.refl _)

theorem settleProf_within {s : State} {ch : Nat} : Within [.regs, .mem, .extMem, .log, .reqs, .till, .drv, .dbk, .hlm]
    (blks [.dbk, .hlm, .jrn]) s (settleProf s ch) := by
  unfold settleProf
  dsimp only
  split
  · refine within_ite ?_ ?_
    · refine endPeak_within.step ?_ rfl rfl
      split
      · exact within_ite (within_ite (openNow_within.step (endBoost_within.step (.refl _) rfl rfl) rfl rfl)
          (endBoost_within.step (.refl _) rfl rfl)) (.refl _)
      · exact .refl _
    · split
      · exact within_ite (within_ite (openNow_within.step (endBoost_within.step (.refl _) rfl rfl) rfl rfl)
          (endBoost_within.step (.refl _) rfl rfl)) (.refl _)
      · exact .refl _
  · split
    · exact within_ite (within_ite (openNow_within.step (endBoost_within.step (.refl _) rfl rfl) rfl rfl)
        (endBoost_within.step (.refl _) rfl rfl)) (.refl _)
    · exact .refl _

theorem drvOff_within {s : State} {ch : Nat} : Within [.regs, .mem, .extMem, .log, .reqs, .till, .drv, .dbk, .hlm]
    (blks [.dbk, .hlm, .jrn]) s (drvOff s ch) :=
  stopProf_within.step (settleProf_within.step (modDrv_within.step (.refl _) rfl rfl) rfl rfl) rfl rfl

theorem drvProp_within {s : State} {ch ma : Nat} {dither : Option (Nat × Nat)} : Within [.regs, .drv, .dbk] (blks
    [.dbk]) s (drvProp s ch ma dither) :=
  noteHs_within.step (modDrv_within.step (within_ite (.refl _) (setPhase_within.step (.refl _) rfl rfl)) rfl rfl) rfl
    rfl

theorem drvRate_within {s : State} {ch : Nat} {u : F32} {at_ : Nat} : Within [.drv] [] s (drvRate s ch u at_) :=
  within_ite (modDrv_within.step (.refl _) rfl rfl) (modDrv_within.step (.refl _) rfl rfl)

theorem latchBank_within {s : State} {b code : Nat} : Within [.regs, .mem, .extMem, .log, .reqs, .till, .drv, .dbk,
    .hlm] (blks [.hlm, .jrn, .dbk]) s (latchBank s b code) :=
  within_ite (.refl _) (raiseEv_within.step (rset_within.step (rset_within.step (foldl_within (fun _ _ hu =>
    drvOff_within.step hu rfl rfl) (.refl _)) rfl rfl) rfl rfl) rfl rfl)

theorem drvChFault_within {s : State} {ch code value since : Nat} {desat : Bool} : Within [.regs, .mem, .extMem, .log,
    .reqs, .till, .drv, .dbk, .hlm] (blks [.hlm, .jrn, .dbk]) s (drvChFault s ch code value since desat) :=
  within_ite (.refl _) (within_ite (latchBank_within.step (raiseEv_within.step (dset_within.step
    (setDrvFault_within.step (drvOff_within.step (.refl _) rfl rfl) rfl rfl) rfl rfl) rfl rfl) rfl rfl)
    (raiseEv_within.step (dset_within.step (setDrvFault_within.step (drvOff_within.step (.refl _) rfl rfl) rfl rfl)
    rfl rfl) rfl rfl))

theorem floorHit_within {s : State} {ch : Nat} : Within [.regs, .mem, .extMem, .log, .drv] (blks [.hlm, .jrn, .dbk]) s
    (floorHit s ch) :=
  within_ite (within_ite (raiseEv_within.step (modDrv_within.step (rinc_within.step (setDrv_within.step (.refl _) rfl
    rfl) rfl rfl) rfl rfl) rfl rfl) (modDrv_within.step (rinc_within.step (setDrv_within.step (.refl _) rfl rfl) rfl
    rfl) rfl rfl)) (.refl _)

theorem bankCheck_within {s : State} {b : Nat} : Within [.regs, .mem, .extMem, .log] (blks [.dbk, .hlm, .jrn]) s
    (bankCheck s b) := by
  unfold bankCheck
  split
  · exact rset_within.step (.refl _) rfl rfl
  · exact raiseEv_within.step (rset_within.step (rset_within.step (rset_within.step (.refl _) rfl rfl) rfl rfl) rfl
      rfl) rfl rfl

theorem derateSet_within {s : State} {b boost peak : Nat} : Within [.regs, .mem, .extMem, .log, .hlm] (blks [.dbk,
    .hlm, .jrn]) s (derateSet s b boost peak) :=
  within_ite (within_ite (rset_within.step (rset_within.step (.refl _) rfl rfl) rfl rfl) (marginChange_within.step
    (rset_within.step (rset_within.step (.refl _) rfl rfl) rfl rfl) rfl rfl)) (marginChange_within.step (within_ite
    (rset_within.step (rset_within.step (.refl _) rfl rfl) rfl rfl) (marginChange_within.step (rset_within.step
    (rset_within.step (.refl _) rfl rfl) rfl rfl) rfl rfl)) rfl rfl)

theorem derateApply_within {s : State} {b : Nat} : Within [.regs, .mem, .extMem, .log, .dbk, .hlm] (blks [.dbk, .hlm,
    .jrn]) s (derateApply s b) := by
  unfold derateApply
  split
  · exact within_ite (derateSet_within.step (setDbk_within.step (.refl _) rfl rfl) rfl rfl) (.refl _)
  · exact .refl _

theorem drvDone_within {s : State} {ch : Nat} {q : Passed} {status detail : Nat} : Within [.reqs, .till] [] s (drvDone
    s ch q status detail) := by
  unfold drvDone
  split
  · exact completeRow_within.step (.refl _) rfl rfl
  · exact .refl _

theorem noteSlope_within {s : State} {ch slope : Nat} : Within [.regs, .drv] (blks [.dbk]) s (noteSlope s ch slope) :=
  within_ite (modDrv_within.step (dset_within.step (.refl _) rfl rfl) rfl rfl) (.refl _)

/-! ### SwitchBanks -/

theorem setSw_within {s : State} {ch : Nat} {v : SwCh} : Within [.sw] [] s (setSw s ch v) := within_sw (.refl _) rfl

theorem modSw_within {s : State} {ch : Nat} {f : SwCh → SwCh} : Within [.sw] [] s (modSw s ch f) :=
  setSw_within.step (.refl _) rfl rfl

theorem setFeed_within {s : State} {p : Nat} {v : Feed} : Within [.feed] [] s (setFeed s p v) :=
  within_feed (.refl _) rfl

theorem swAll_within {s : State} {ch : Nat} {f : Fld} {v : Nat} : Within [.regs] [f.id / 128] s (swAll s ch f v) :=
  foldl_within (fun _ _ hu => dset_within.step hu rfl (by simp)) (.refl _)

theorem modAll_within {s : State} {ch : Nat} {f : SwCh → SwCh} : Within [.sw] [] s (modAll s ch f) :=
  foldl_within (fun _ _ hu => modSw_within.step hu rfl rfl) (.refl _)

theorem swTurnOff_within {s : State} {ch : Nat} : Within [.regs, .sw] (blks [.sbk]) s (swTurnOff s ch) :=
  swAll_within.step (modAll_within.step (.refl _) rfl rfl) rfl rfl

theorem swTurnOn_within {s : State} {ch : Nat} : Within [.sw] [] s (swTurnOn s ch) :=
  modAll_within.step (.refl _) rfl rfl

theorem dropLimit_within {s : State} {ch : Nat} : Within [.sw] [] s (dropLimit s ch) :=
  within_ite (.refl _) (modAll_within.step (.refl _) rfl rfl)

theorem swDuty_within {s : State} {ch duty : Nat} : Within [.regs, .sw] (blks [.sbk]) s (swDuty s ch duty) :=
  within_ite (swTurnOff_within.step (modAll_within.step (dropLimit_within.step (.refl _) rfl rfl) rfl rfl) rfl rfl)
    (within_ite (swAll_within.step (swTurnOff_within.step (modAll_within.step (dropLimit_within.step (.refl _) rfl
    rfl) rfl rfl) rfl rfl) rfl rfl) (within_ite (swTurnOff_within.step (modAll_within.step (dropLimit_within.step
    (.refl _) rfl rfl) rfl rfl) rfl rfl) (swTurnOn_within.step (modAll_within.step (dropLimit_within.step (.refl _)
    rfl rfl) rfl rfl) rfl rfl)))

theorem swRestart_within {s : State} {ch : Nat} {free : Bool} : Within [.regs, .sw] (blks [.sbk]) s (swRestart s ch
    free) :=
  foldl_within (fun _ _ hu => modSw_within.step (within_ite (rinc_within.step (dset_within.step hu rfl rfl) rfl rfl)
    (rinc_within.step (rinc_within.step (dset_within.step hu rfl rfl) rfl rfl) rfl rfl)) rfl rfl) (.refl _)

theorem noteMa_within {s : State} {ch : Nat} {samples : List Nat} : Within [.sw] [] s (noteMa s ch samples) := by
  unfold noteMa
  split
  · exact modSw_within.step (.refl _) rfl rfl
  · exact .refl _

theorem swTrip_within {s : State} {ch cause : Nat} : Within [.regs, .mem, .extMem, .log, .sw] (blks [.hlm, .jrn,
    .sbk]) s (swTrip s ch cause) :=
  raiseEv_within.step (foldl_within (fun _ _ hu => rinc_within.step (dset_within.step (dset_within.step hu rfl rfl)
    rfl rfl) rfl rfl) (swTurnOff_within.step (.refl _) rfl rfl)) rfl rfl

theorem thermSet_within {s : State} {ch : Nat} {tj : Int} : Within [.regs, .mem, .extMem, .log, .sw] (blks [.sbk,
    .hlm, .jrn]) s (thermSet s ch tj) :=
  within_ite (dset_within.step (.refl _) rfl rfl) (raiseEv_within.step (modAll_within.step (foldl_within (fun _ _ hu
    => rinc_within.step hu rfl rfl) (swAll_within.step (within_ite (modAll_within.step (swTurnOff_within.step
    (dset_within.step (.refl _) rfl rfl) rfl rfl) rfl rfl) (swTurnOff_within.step (dset_within.step (.refl _) rfl rfl)
    rfl rfl)) rfl rfl)) rfl rfl) rfl rfl)

theorem feedVolts_within {s : State} {p mv : Nat} : Within [.regs, .feed] (blks [.sbk]) s (feedVolts s p mv) :=
  rset_within.step (setFeed_within.step (.refl _) rfl rfl) rfl rfl

theorem feedUv_within {s0 : State} {p mv since : Nat} : Within [.regs, .mem, .extMem, .log, .sw, .feed] (blks [.sbk,
    .hlm, .jrn]) s0 (feedUv s0 p mv since) :=
  within_ite (feedVolts_within.step (.refl _) rfl rfl) (within_ite (setFeed_within.step (feedVolts_within.step (.refl
    _) rfl rfl) rfl rfl) (within_ite (foldl_within (fun _ _ hu => within_ite (swTurnOff_within.step (within_ite hu
    (dset_within.step hu rfl rfl)) rfl rfl) (within_ite hu (dset_within.step hu rfl rfl))) (setFeed_within.step
    (feedVolts_within.step (.refl _) rfl rfl) rfl rfl)) (raiseEv_within.step (foldl_within (fun _ _ hu => within_ite
    (swTurnOff_within.step (within_ite hu (dset_within.step hu rfl rfl)) rfl rfl) (within_ite hu (dset_within.step hu
    rfl rfl))) (setFeed_within.step (feedVolts_within.step (.refl _) rfl rfl) rfl rfl)) rfl rfl)))

theorem uvEnd_within {s0 : State} {p mv since : Nat} : Within [.regs, .feed] (blks [.sbk]) s0 (uvEnd s0 p mv since) :=
  within_ite (feedVolts_within.step (.refl _) rfl rfl) (setFeed_within.step (foldl_within (fun _ _ hu =>
    dset_within.step hu rfl rfl) (feedVolts_within.step (.refl _) rfl rfl)) rfl rfl)

theorem planeShed_within {s0 : State} {p amps since : Nat} : Within [.regs, .mem, .extMem, .log, .sw, .feed] (blks
    [.sbk, .hlm, .jrn]) s0 (planeShed s0 p amps since) := by
  unfold planeShed
  dsimp only
  refine within_ite ?_ ?_
  · exact setFeed_within.step (rset_within.step (.refl _) rfl rfl) rfl rfl
  · refine within_ite ?_ ?_
    · exact rset_within.step (.refl _) rfl rfl
    · split
      · exact raiseEv_within.step (setFeed_within.step (foldl_within (fun _ _ hu => dset_within.step
          (swTurnOff_within.step hu rfl rfl) rfl rfl) (rset_within.step (.refl _) rfl rfl)) rfl rfl) rfl rfl
      · exact within_ite (rset_within.step (.refl _) rfl rfl) (raiseEv_within.step (setFeed_within.step
          (rset_within.step (.refl _) rfl rfl) rfl rfl) rfl rfl)

theorem shedRestore_within {s0 : State} {p amps since : Nat} : Within [.regs, .sw, .feed] (blks [.sbk]) s0
    (shedRestore s0 p amps since) := by
  unfold shedRestore
  dsimp only
  split
  · exact rset_within.step (.refl _) rfl rfl
  · exact within_ite (rset_within.step (.refl _) rfl rfl) (setFeed_within.step (foldl_within (fun _ _ hu => within_ite
      (dset_within.step hu rfl rfl) (modSw_within.step (dset_within.step hu rfl rfl) rfl rfl)) (rset_within.step
      (.refl _) rfl rfl)) rfl rfl)

theorem noteOl_within {s : State} {ch ma : Nat} : Within [.sw] [] s (noteOl s ch ma) :=
  within_ite (.refl _) (noteMa_within.step (.refl _) rfl rfl)

theorem openLoad_within {s0 : State} {ch ma since : Nat} : Within [.regs, .mem, .extMem, .log, .sw] (blks [.hlm, .jrn,
    .sbk]) s0 (openLoad s0 ch ma since) :=
  within_ite (raiseEv_within.step (foldl_within (fun _ _ hu => rinc_within.step (dset_within.step hu rfl rfl) rfl rfl)
    (noteOl_within.step (.refl _) rfl rfl)) rfl rfl) (noteOl_within.step (.refl _) rfl rfl)

theorem swDone_within {s : State} {ch : Nat} {q : Passed} {status detail : Nat} : Within [.reqs, .till] [] s (swDone s
    ch q status detail) := by
  unfold swDone
  split
  · exact completeRow_within.step (.refl _) rfl rfl
  · exact .refl _

theorem swRearm_within {s : State} {ch : Nat} {therm : Bool} : Within [.regs, .sw] (blks [.sbk]) s (swRearm s ch
    therm) :=
  modAll_within.step (swDuty_within.step (modAll_within.step (swAll_within.step (swAll_within.step (swAll_within.step
    (.refl _) rfl rfl) rfl rfl) rfl rfl) rfl rfl) rfl rfl) rfl rfl

/-! ### Pps -/

theorem safeDrive_within {s : State} {p n : Nat} : Within [.regs, .mem, .extMem, .log, .reqs, .till, .drv, .dbk, .hlm]
    (blks [.dbk, .hlm, .jrn]) s (safeDrive s p n) := by
  unfold safeDrive
  dsimp only
  refine within_ite ?_ ?_
  · exact .refl _
  · split
    · exact drvOff_within.step (.refl _) rfl rfl
    · exact drvProp_within.step (.refl _) rfl rfl
    · exact drvProfile_within.step (.refl _) rfl rfl
    · exact drvProp_within.step (.refl _) rfl rfl
    · exact .refl _

theorem safeSwitch_within {s : State} {p n : Nat} : Within [.regs, .sw] (blks [.sbk]) s (safeSwitch s p n) := by
  unfold safeSwitch
  dsimp only
  refine within_ite ?_ ?_
  · exact .refl _
  · split
    · exact swDuty_within.step (.refl _) rfl rfl
    · exact swDuty_within.step (.refl _) rfl rfl
    · exact .refl _

theorem armChannels_within {s : State} {p : Nat} : Within [.regs, .drv] (blks [.dbk]) s (armChannels s p) :=
  foldl_within (fun _ _ hu => dset_within.step (modDrv_within.step hu rfl rfl) rfl rfl) (.refl _)

theorem ppsArm_within {s0 : State} {p : Nat} : Within [.regs, .mem, .extMem, .log, .drv, .pps] (blks [.pps, .dbk,
    .hlm, .jrn]) s0 (ppsArm s0 p) :=
  within_ite (.refl _) (within_ite (rset_within.step (foldl_within (fun _ _ hu => bankCheck_within.step hu rfl rfl)
    (rset_within.step (.refl _) rfl rfl)) rfl rfl) (setPps_within.step (rset_within.step (rset_within.step
    (rset_within.step (rset_within.step (armChannels_within.step (rset_within.step (foldl_within (fun _ _ hu =>
    bankCheck_within.step hu rfl rfl) (rset_within.step (.refl _) rfl rfl)) rfl rfl) rfl rfl) rfl rfl) rfl rfl) rfl
    rfl) rfl rfl) rfl rfl))

theorem dropPassed_within {s : State} {p : Nat} : Within [.reqs, .pps] [] s (dropPassed s p) := by
  unfold dropPassed
  dsimp only
  refine setPps_within.step ?_ rfl rfl
  refine foldl_within ?_ (.refl _)
  intro _ _ hu
  split
  · exact updReq_within.step hu rfl rfl
  · exact hu

theorem ppsDisarm_within {s : State} {p : Nat} : Within [.regs, .mem, .extMem, .log, .reqs, .till, .drv, .dbk, .sw,
    .pps, .hlm] (blks [.pps, .sbk, .dbk, .hlm, .jrn]) s (ppsDisarm s p) :=
  within_ite (.refl _) (within_ite (rset_within.step (.refl _) rfl rfl) (setPps_within.step (rset_within.step
    (rset_within.step (rset_within.step (foldl_within (fun _ _ hu => swDuty_within.step (drvOff_within.step hu rfl
    rfl) rfl rfl) (dropPassed_within.step (.refl _) rfl rfl)) rfl rfl) rfl rfl) rfl rfl) rfl rfl))

theorem safeAll_within {s : State} {p : Nat} : Within [.regs, .mem, .extMem, .log, .reqs, .till, .drv, .dbk, .sw,
    .hlm] (blks [.sbk, .dbk, .hlm, .jrn]) s (safeAll s p) :=
  foldl_within (fun _ _ hu => safeSwitch_within.step (safeDrive_within.step hu rfl rfl) rfl rfl) (.refl _)

theorem safeNow_within {s : State} {p : Nat} : Within [.regs, .mem, .extMem, .log, .reqs, .till, .drv, .dbk, .sw,
    .pps, .hlm] (blks [.pps, .sbk, .dbk, .hlm, .jrn]) s (safeNow s p) :=
  within_ite (setPps_within.step (rset_within.step (safeAll_within.step (.refl _) rfl rfl) rfl rfl) rfl rfl) (.refl _)

theorem stageMiss_within {s : State} {q : Passed} : Within [.regs] (blks [.dbk, .sbk]) s (stageMiss s q) := by
  unfold stageMiss
  split
  · exact rinc_within.step (.refl _) rfl rfl
  · exact rinc_within.step (.refl _) rfl rfl

theorem passOne_within {p : Nat} {s : State} {q : Passed} : Within [.regs, .drv, .pps] (blks [.dbk, .sbk]) s (passOne
    p s q) := by
  unfold passOne
  refine within_ite ?_ ?_
  · exact stageMiss_within.step (.refl _) rfl rfl
  · split
    · exact within_ite (.refl _) (drvRate_within.step (.refl _) rfl rfl)
    · exact setPps_within.step (.refl _) rfl rfl

theorem ppsContact_within {s : State} {p : Nat} {own : Bool} {kind : FrameKind} {row periodUs : Nat} {cmds : List
    Passed} : Within [.regs, .mem, .extMem, .log, .drv, .pps] (blks [.dbk, .sbk, .hlm, .jrn, .pps]) s (ppsContact s p
    own kind row periodUs cmds) := by
  unfold ppsContact
  dsimp only
  refine within_ite ?_ ?_
  · exact .refl _
  · split
    · exact within_ite (foldl_within (fun _ _ hu => passOne_within.step hu rfl rfl) (setPps_within.step (within_ite
        (raiseEv_within.step (rinc_within.step (rset_within.step (rset64_within.step (setPps_within.step
        (rset_within.step (rset_within.step (rset_within.step (.refl _) rfl rfl) rfl rfl) rfl rfl) rfl rfl) rfl rfl)
        rfl rfl) rfl rfl) rfl rfl) (rset64_within.step (setPps_within.step (rset_within.step (rset_within.step
        (rset_within.step (.refl _) rfl rfl) rfl rfl) rfl rfl) rfl rfl) rfl rfl)) rfl rfl)) (foldl_within (fun _ _ hu
        => stageMiss_within.step hu rfl rfl) (setPps_within.step (rset64_within.step (setPps_within.step
        (rset_within.step (rset_within.step (rset_within.step (.refl _) rfl rfl) rfl rfl) rfl rfl) rfl rfl) rfl rfl)
        rfl rfl))
    · exact setPps_within.step (rset_within.step (rset_within.step (rset_within.step (.refl _) rfl rfl) rfl rfl) rfl
        rfl) rfl rfl

theorem fenceAck_within {s : State} {p : Nat} {payload : List Nat} : Within [.regs, .rolLatch, .arbs, .xlk] (blks
    [.arb]) s (fenceAck s p payload) :=
  within_ite (xlkSend_within.step (.refl _) rfl rfl) (within_xlk (.refl _) rfl)

theorem ppsFenced_within {s : State} {p : Nat} {own : Bool} {kind : FrameKind} {bid row : Nat} {cmds : List Passed} :
    Within [.regs, .rolLatch, .arbs, .reqs, .till, .xlk] (blks [.pps, .arb, .til]) s (ppsFenced s p own kind bid row
    cmds) := by
  unfold ppsFenced
  refine within_ite ?_ ?_
  · dsimp only
    refine within_ite ?_ ?_
    · exact rinc_within.step (.refl _) rfl rfl
    · refine foldl_within ?_ (fencePost_within.step (rinc_within.step (.refl _) rfl rfl) rfl rfl)
      intro _ _ hu
      split
      · exact completeRow_within.step hu rfl rfl
      · exact hu
  · exact within_ite (fenceAck_within.step (rinc_within.step (.refl _) rfl rfl) rfl rfl) (rinc_within.step (.refl _)
      rfl rfl)

theorem ppsFrame_within {s : State} {p : Nat} {own : Bool} {kind : FrameKind} {bid row periodUs : Nat} {cmds : List
    Passed} : Within [.regs, .rolLatch, .mem, .extMem, .log, .arbs, .reqs, .till, .drv, .pps, .xlk] (blks [.pps, .arb,
    .til, .dbk, .sbk, .hlm, .jrn]) s (ppsFrame s p own kind bid row periodUs cmds).1 := by
  unfold ppsFrame
  dsimp only
  split
  · exact .refl _
  · split
    · split
      · exact ppsFenced_within.step (rset_within.step (.refl _) rfl rfl) rfl rfl
      · exact within_ite (within_ite (rset_within.step (.refl _) rfl rfl) (.refl _)) (ppsContact_within.step
          (within_ite (rset_within.step (.refl _) rfl rfl) (.refl _)) rfl rfl)
    · split
      · exact ppsFenced_within.step (rset_within.step (.refl _) rfl rfl) rfl rfl
      · exact within_ite (within_ite (rset_within.step (.refl _) rfl rfl) (.refl _)) (ppsContact_within.step
          (within_ite (rset_within.step (.refl _) rfl rfl) (.refl _)) rfl rfl)

theorem planeReset_within {s : State} {p : Nat} : Within [.regs, .hiLatch, .rolLatch, .onesAt, .drv, .dbk, .sw, .feed]
    (blks [.pps, .sbk, .dbk]) s (planeReset s p) :=
  within_drv_dbk_sw_feed (resetInst_within.step (resetInst_within.step (resetInst_within.step (.refl _) rfl rfl) rfl
    rfl) rfl rfl) rfl

/-! ### Update -/

theorem modUpd_within {s : State} {f : Upd → Upd} : Within [.upd] [] s (modUpd s f) := within_upd (.refl _) rfl

theorem modKsm_within {s : State} {f : Ksm → Ksm} : Within [.ksm] [] s (modKsm s f) := within_ksm (.refl _) rfl

theorem modSlotU_within {s : State} {k : Nat} {f : UpdSlot → UpdSlot} : Within [.upd] [] s (modSlotU s k f) :=
  modUpd_within.step (.refl _) rfl rfl

theorem setSlotState_within {s : State} {k v : Nat} : Within [.regs] (blks [.upd]) s (setSlotState s k v) :=
  rset_within.step (.refl _) rfl (by split <;> rfl)

theorem setMissing_within {s : State} {k n : Nat} : Within [.regs] (blks [.upd]) s (setMissing s k n) :=
  rset_within.step (.refl _) rfl (by split <;> rfl)

theorem eraseSlot_within {s : State} {k : Nat} : Within [.regs, .reqs, .till, .upd] (blks [.upd]) s (eraseSlot s k) :=
  setMissing_within.step (setSlotState_within.step (modSlotU_within.step (completeOpt_within.step (.refl _) rfl rfl)
    rfl rfl) rfl rfl) rfl rfl

theorem updJob_within {s : State} {r : Ref} {f : State → State} (hf : ∀ u, Within ps bs o u → Within ps bs o (f u)) (h
    : Within ps bs o s) (hp : ([.reqs, .till] : List Part).all (· ∈ ps) = true) (hb : ([] : List Nat).all (· ∈ bs) =
    true) : Within ps bs o (updJob s r f) :=
  within_ite (complete_within.step h hp hb) (hf _ h)

theorem confirmImage_within {s : State} {r : Ref} : Within [.regs, .mem, .extMem, .log, .reqs, .till] (blks [.hlm,
    .jrn, .upd]) s (confirmImage s r) :=
  updJob_within (fun _ hu => within_ite (complete_within.step (raiseEv_within.step (rset_within.step (rset_within.step
    hu rfl rfl) rfl (by split <;> rfl)) rfl rfl) rfl rfl) (complete_within.step hu rfl rfl)) (.refl _) rfl rfl

theorem confirmFirst_within {s : State} : Within [.regs, .mem, .extMem, .log, .reqs, .till] (blks [.hlm, .jrn, .upd])
    s (confirmFirst s) := by
  unfold confirmFirst
  refine foldl_within ?_ (.refl _)
  intro _ _ hu
  split
  · exact within_ite (withDesc_within (fun _ _ hu1 => confirmImage_within.step hu1 rfl rfl) hu rfl rfl) hu
  · exact hu

theorem stopUpdate_within {s : State} {r : Ref} : Within [.regs, .upd] (blks [.upd]) s (stopUpdate s r) := by
  unfold stopUpdate
  dsimp only
  refine modUpd_within.step ?_ rfl rfl
  split
  · exact within_ite (modUpd_within.step (setSlotState_within.step (.refl _) rfl rfl) rfl rfl) (.refl _)
  · exact .refl _

/-! ### Vision -/

theorem modVis_within {s : State} {f : Vision → Vision} : Within [.vis] [] s (modVis s f) := within_vis (.refl _) rfl

theorem modCam_within {s : State} {p : Nat} {f : Cam → Cam} : Within [.vis] [] s (modCam s p f) :=
  modVis_within.step (.refl _) rfl rfl

theorem ispView_within {s : State} : Within [.regs] (blks [.isp]) s (ispView s) :=
  rsetB_within.step (rset_within.step (.refl _) rfl rfl) rfl rfl

theorem lineBegin_within {s : State} {at_ : Nat} : Within [.vis] [] s (lineBegin s at_) := by
  unfold lineBegin
  split
  · exact modVis_within.step (.refl _) rfl rfl
  · exact .refl _

theorem lineEnd_within {s : State} {l : LineSlot} : Within [.vis] [] s (lineEnd s l) :=
  within_ite (modCam_within.step (modVis_within.step (.refl _) rfl rfl) rfl rfl) (modVis_within.step
    (modVis_within.step (.refl _) rfl rfl) rfl rfl)

theorem runLines_within {fuel : Nat} {s : State} : Within [.vis] [] s (runLines fuel s) := by
  induction fuel generalizing s with
  | zero => exact .refl _
  | succ fuel ih =>
    unfold runLines
    split
    · exact within_ite (ih.step (lineBegin_within.step (lineEnd_within.step (.refl _) rfl rfl) rfl rfl) rfl rfl)
        (.refl _)
    · exact .refl _

theorem ispNow_within {s : State} : Within [.vis] [] s (ispNow s) := runLines_within.step (.refl _) rfl rfl

theorem closeFrame_within {s : State} {p : Nat} {mark : CamFrame → CamFrame} : Within [.vis] [] s (closeFrame s p
    mark) := by
  unfold closeFrame
  dsimp only
  split
  · exact .refl _
  · exact modCam_within.step (.refl _) rfl rfl

theorem takeSlot_within {s : State} {p : Nat} {f : CamFrame} : Within [.regs, .vis] (blks [.cam]) s (takeSlot s p f)
    := by
  unfold takeSlot
  dsimp only
  split
  · exact modCam_within.step (.refl _) rfl rfl
  · split
    · exact modCam_within.step (rinc_within.step (modCam_within.step (.refl _) rfl rfl) rfl rfl) rfl rfl
    · exact rinc_within.step (modCam_within.step (.refl _) rfl rfl) rfl rfl

theorem paramsStart_within {s : State} {p n : Nat} : Within [.reqs, .till, .vis] [] s (paramsStart s p n) := by
  unfold paramsStart
  dsimp only
  split
  · exact .refl _
  · exact foldl_within (fun _ _ hu => complete_within.step hu rfl rfl) (modCam_within.step (.refl _) rfl rfl)

theorem writesDue_within {s : State} {p n : Nat} : Within [.vis] [] s (writesDue s p n) := by
  unfold writesDue
  exact modCam_within.step (.refl _) rfl rfl

theorem burstDone_within {s : State} {p acked : Nat} : Within [.reqs, .till, .vis] [] s (burstDone s p acked) := by
  unfold burstDone
  split
  · exact .refl _
  · exact within_ite (complete_within.step (modCam_within.step (.refl _) rfl rfl) rfl rfl) (complete_within.step
      (modCam_within.step (.refl _) rfl rfl) rfl rfl)

theorem camFs_within {s : State} {p csi hdr : Nat} : Within [.regs, .reqs, .till, .vis] (blks [.isp, .cam]) s (camFs s
    p csi hdr) := by
  unfold camFs
  dsimp only
  refine within_ite ?_ ?_
  · exact ispView_within.step (takeSlot_within.step (rset_within.step (modCam_within.step (closeFrame_within.step
      (.refl _) rfl rfl) rfl rfl) rfl rfl) rfl rfl) rfl rfl
  · split
    · exact rinc_within.step (modCam_within.step (rset_within.step (modCam_within.step (closeFrame_within.step (.refl
        _) rfl rfl) rfl rfl) rfl rfl) rfl rfl) rfl rfl
    · exact ispView_within.step (rset_within.step (modCam_within.step (paramsStart_within.step (rset_within.step
        (modCam_within.step (closeFrame_within.step (.refl _) rfl rfl) rfl rfl) rfl rfl) rfl rfl) rfl rfl) rfl rfl)
        rfl rfl

theorem modCur_within {s : State} {p : Nat} {f : CamFrame → CamFrame} : Within [.vis] [] s (modCur s p f) :=
  modCam_within.step (.refl _) rfl rfl

theorem camOverflow_within {s : State} {p : Nat} : Within [.regs, .mem, .extMem, .log, .vis] (blks [.hlm, .jrn, .cam])
    s (camOverflow s p) :=
  within_ite (raiseEv_within.step (modCam_within.step (rinc_within.step (modCur_within.step (.refl _) rfl rfl) rfl
    rfl) rfl rfl) rfl rfl) (rinc_within.step (modCur_within.step (.refl _) rfl rfl) rfl rfl)

theorem bufLine_within {s : State} {p k row : Nat} {bs' : List Byte} : Within [.vis] [] s (bufLine s p k row bs') :=
  modCam_within.step (.refl _) rfl rfl

theorem takeLine_within {s : State} {p : Nat} {crcOk : Bool} {px : List Nat} : Within [.regs, .mem, .extMem, .log,
    .vis] (blks [.hlm, .jrn, .cam]) s (takeLine s p crcOk px) := by
  unfold takeLine
  split
  · exact .refl _
  · dsimp only
    refine within_ite ?_ ?_
    · exact modCur_within.step (.refl _) rfl rfl
    · refine within_ite ?_ ?_
      · exact modCur_within.step (.refl _) rfl rfl
      · refine within_ite ?_ ?_
        · refine modCur_within.step ?_ rfl rfl
          refine camOverflow_within.step ?_ rfl rfl
          split
          · exact bufLine_within.step (.refl _) rfl rfl
          · exact .refl _
        · split
          · exact bufLine_within.step (modCur_within.step (.refl _) rfl rfl) rfl rfl
          · exact modCur_within.step (.refl _) rfl rfl

theorem camFe_within {s : State} {p : Nat} : Within [.regs, .vis] (blks [.isp]) s (camFe s p) := by
  unfold camFe
  split
  · exact .refl _
  · exact ispView_within.step (writesDue_within.step (closeFrame_within.step (.refl _) rfl rfl) rfl rfl) rfl rfl

theorem camLinkLost_within {s : State} {p : Nat} : Within [.regs, .mem, .extMem, .log, .vis] (blks [.isp, .hlm, .jrn,
    .cam]) s (camLinkLost s p) :=
  within_ite (.refl _) (ispView_within.step (raiseEv_within.step (rset_within.step (rset_within.step
    (closeFrame_within.step (.refl _) rfl rfl) rfl rfl) rfl rfl) rfl rfl) rfl rfl)

theorem stopCamJob_within {s0 : State} {p : Nat} {r : Ref} : Within [.regs, .vis] (blks [.isp]) s0 (stopCamJob
    s0 p r) := by
  unfold stopCamJob
  dsimp only
  refine ispView_within.step ?_ rfl rfl
  refine lineBegin_within.step ?_ rfl rfl
  split
  · exact within_ite (modVis_within.step (modCam_within.step (ispNow_within.step (.refl _) rfl rfl) rfl rfl) rfl rfl)
      (modCam_within.step (ispNow_within.step (.refl _) rfl rfl) rfl rfl)
  · exact modCam_within.step (ispNow_within.step (.refl _) rfl rfl) rfl rfl

theorem abortCamJob_within {s : State} {p : Nat} {r : Ref} : Within [.regs, .reqs, .till, .vis] (blks [.isp]) s
    (abortCamJob s p r) :=
  abortReq_within (fun _ hu => complete_within.step (stopCamJob_within.step hu rfl rfl) rfl rfl) (.refl _) rfl rfl

theorem markUnfetched_within {s : State} {p : Nat} : Within [.vis] [] s (markUnfetched s p) := by
  unfold markUnfetched
  exact modVis_within.step (.refl _) rfl rfl

theorem camDisable_within {s : State} {p : Nat} : Within [.regs, .reqs, .till, .vis] (blks [.isp, .cam]) s
    (camDisable s p) := by
  unfold camDisable
  refine within_ite ?_ ?_
  · exact .refl _
  · dsimp only
    refine ispView_within.step ?_ rfl rfl
    split
    · exact within_ite (modVis_within.step (modCam_within.step (foldl_within (fun _ _ hu => abortCamJob_within.step hu
        rfl rfl) (markUnfetched_within.step (rset_within.step (.refl _) rfl rfl) rfl rfl)) rfl rfl) rfl rfl)
        (modCam_within.step (foldl_within (fun _ _ hu => abortCamJob_within.step hu rfl rfl)
        (markUnfetched_within.step (rset_within.step (.refl _) rfl rfl) rfl rfl)) rfl rfl)
    · exact modCam_within.step (foldl_within (fun _ _ hu => abortCamJob_within.step hu rfl rfl)
        (markUnfetched_within.step (rset_within.step (.refl _) rfl rfl) rfl rfl)) rfl rfl

theorem vxaView_within {s : State} : Within [.regs] (blks [.vxa]) s (vxaView s) :=
  rsetB_within.step (rsetB_within.step (.refl _) rfl rfl) rfl rfl

theorem vxaStart_within {s : State} : Within [.regs, .vis] (blks [.vxa]) s (vxaStart s) := by
  unfold vxaStart
  refine within_ite ?_ ?_
  · exact vxaView_within.step (.refl _) rfl rfl
  · split
    · exact vxaView_within.step (.refl _) rfl rfl
    · exact vxaView_within.step (rset64_within.step (modVis_within.step (.refl _) rfl rfl) rfl rfl) rfl rfl

theorem stopVxaJob_within {s : State} {r : Ref} : Within [.regs, .vis] (blks [.vxa]) s (stopVxaJob s r) := by
  unfold stopVxaJob
  dsimp only
  split
  · exact vxaStart_within.step (within_ite (modVis_within.step (modVis_within.step (.refl _) rfl rfl) rfl rfl)
      (modVis_within.step (.refl _) rfl rfl)) rfl rfl
  · exact vxaView_within.step (modVis_within.step (.refl _) rfl rfl) rfl rfl

/-! ### Aborts -/

theorem stopLoad_within {s : State} {r : Ref} : Within [.regs, .tke, .xlk] (blks [.tke]) s (stopLoad s r) := by
  unfold stopLoad
  dsimp only
  split
  · refine within_ite ?_ ?_
    · refine rset_within.step ?_ rfl rfl
      refine within_tke ?_ rfl
      split
      · exact within_ite (rset_within.step (within_tke_xlk (.refl _) rfl) rfl rfl) (within_tke_xlk (.refl _) rfl)
      · exact within_tke_xlk (.refl _) rfl
    · split
      · exact within_ite (rset_within.step (within_tke_xlk (.refl _) rfl) rfl rfl) (within_tke_xlk (.refl _) rfl)
      · exact within_tke_xlk (.refl _) rfl
  · split
    · exact within_ite (rset_within.step (within_tke_xlk (.refl _) rfl) rfl rfl) (within_tke_xlk (.refl _) rfl)
    · exact within_tke_xlk (.refl _) rfl

theorem freeProf_within {s : State} {ch : Nat} : Within [.drv] [] s (freeProf s ch) :=
  modDrv_within.step (.refl _) rfl rfl

theorem modPassed_within {s : State} {f : List Passed → List Passed} : Within [.pps] [] s (modPassed s f) :=
  within_pps (.refl _) rfl

theorem stopOut_within {s : State} {r : Ref} : Within [.regs, .drv, .dbk, .pps] (blks [.dbk]) s (stopOut s r) := by
  unfold stopOut
  dsimp only
  split
  · exact abortProf_within.step (modPassed_within.step (.refl _) rfl rfl) rfl rfl
  · exact modPassed_within.step (.refl _) rfl rfl

theorem stopFleet_within {s : State} {r : Ref} : Within [.fle] [] s (stopFleet s r) := within_fle (.refl _) rfl

theorem stopGeneral_within {s : State} {r : Ref} : Within [.regs, .sps, .sfe, .xlk, .nav, .sto, .eth] (blks [.sfe]) s
    (stopGeneral s r) :=
  within_sps_sfe_xlk_nav_sto (within_ite (rset_within.step (stopEthTx_within.step (.refl _) rfl rfl) rfl rfl)
    (stopEthTx_within.step (.refl _) rfl rfl)) rfl

theorem stopJournal_within {s : State} {r : Ref} : Within [.sto] [] s (stopJournal s r) := within_sto (.refl _) rfl

theorem stopWork_within {s : State} {r : Ref} {d : Desc} : Within [.regs, .mem, .tke, .sps, .sfe, .drv, .dbk, .pps,
    .xlk, .nav, .sto, .fle, .vis, .eth, .pnl, .upd] (blks [.tke, .dbk, .isp, .vxa, .pnl, .upd, .sfe]) s (stopWork s r
    d) := by
  unfold stopWork
  split
  · exact stopLoad_within.step (.refl _) rfl rfl
  · exact stopOut_within.step (.refl _) rfl rfl
  · exact stopOut_within.step (.refl _) rfl rfl
  · exact stopCamJob_within.step (.refl _) rfl rfl
  · exact stopVxaJob_within.step (.refl _) rfl rfl
  · exact stopFleet_within.step (.refl _) rfl rfl
  · exact stopPanelJob_within.step (.refl _) rfl rfl
  · exact stopUpdate_within.step (.refl _) rfl rfl
  · exact stopJournal_within.step (.refl _) rfl rfl
  · exact stopGeneral_within.step (.refl _) rfl rfl

theorem stopAborted_within {s : State} {r : Ref} {d : Desc} : Within [.regs, .mem, .reqs, .till, .tke, .sps, .sfe,
    .drv, .dbk, .pps, .xlk, .nav, .sto, .fle, .vis, .can, .eth, .pnl, .upd] (blks [.can, .tke, .dbk, .isp, .vxa, .pnl,
    .upd, .sfe]) s (stopAborted s r d) :=
  within_ite (stopSend_within.step (.refl _) rfl rfl) (within_ite (.refl _) (within_ite (completeRow_within.step
    (stopWork_within.step (.refl _) rfl rfl) rfl rfl) (complete_within.step (stopWork_within.step (.refl _) rfl rfl)
    rfl rfl)))

theorem abortDescAt_within {s : State} {r : Ref} {a : Nat} : Within [.regs, .mem, .reqs, .till, .tke, .sps, .sfe,
    .drv, .dbk, .pps, .xlk, .nav, .sto, .fle, .vis, .can, .eth, .pnl, .upd] (blks [.can, .tke, .dbk, .isp, .vxa, .pnl,
    .upd, .sfe]) s (abortDescAt s r a) := by
  unfold abortDescAt
  refine abortReqAt_within ?_ (.refl _) rfl rfl
  intro _ hu
  split
  · exact stopAborted_within.step hu rfl rfl
  · exact hu

theorem abortDesc_within {s : State} {r : Ref} : Within [.regs, .mem, .reqs, .till, .tke, .sps, .sfe, .drv, .dbk,
    .pps, .xlk, .nav, .sto, .fle, .vis, .can, .eth, .pnl, .upd] (blks [.can, .tke, .dbk, .isp, .vxa, .pnl, .upd,
    .sfe]) s (abortDesc s r) :=
  abortDescAt_within.step (.refl _) rfl rfl

theorem ringDisable_within {s : State} {n : Nat} : Within [.regs, .mem, .reqs, .till, .tke, .sps, .sfe, .drv, .dbk,
    .pps, .xlk, .nav, .sto, .fle, .vis, .can, .eth, .pnl, .upd] (blks [.can, .tke, .dbk, .isp, .vxa, .pnl, .upd, .sfe,
    .rng]) s (ringDisable s n) :=
  within_ite (foldl_within (fun _ _ hu => abortDesc_within.step hu rfl rfl) (rset_within.step (.refl _) rfl rfl))
    (.refl _)

theorem tillForget_within {s : State} {r : Ref} : Within [.till] [] s (tillForget s r) := within_till (.refl _) rfl

theorem abandon_within {s : State} {q : Req} : Within [.regs, .mem, .reqs, .till, .tke, .sps, .sfe, .drv, .dbk, .pps,
    .xlk, .nav, .sto, .fle, .vis, .can, .eth, .pnl, .upd] (blks [.can, .tke, .dbk, .isp, .vxa, .pnl, .upd, .sfe]) s
    (abandon s q) := by
  unfold abandon
  dsimp only
  refine within_reqs ?_ rfl
  refine tillForget_within.step ?_ rfl rfl
  refine modUpd_within.step ?_ rfl rfl
  split
  · exact .refl _
  · refine within_ite ?_ ?_
    · split
      · exact freeProf_within.step (modPassed_within.step (.refl _) rfl rfl) rfl rfl
      · exact modPassed_within.step (.refl _) rfl rfl
    · exact within_ite (modCan_within.step (.refl _) rfl rfl) (stopWork_within.step (.refl _) rfl rfl)

theorem abandonRings_within {s : State} {which : Nat → Bool} : Within [.regs, .mem, .reqs, .till, .tke, .sps, .sfe,
    .drv, .dbk, .pps, .xlk, .nav, .sto, .fle, .vis, .can, .eth, .pnl, .upd] (blks [.rng, .can, .tke, .dbk, .isp, .vxa,
    .pnl, .upd, .sfe]) s (abandonRings s which) :=
  foldl_within (fun _ _ hu => within_ite (rset_within.step hu rfl rfl) hu) (dropMarks_within.step (foldl_within (fun _
    _ hu => abandon_within.step hu rfl rfl) (.refl _)) rfl rfl)

theorem hostLinkOff_within {s : State} {d3 : Bool} : Within [.regs, .mem, .extMem, .log] (blks [.hlm, .jrn, .hlk]) s
    (hostLinkOff s d3) :=
  raiseEv_within.step (within_ite (rset_within.step (rinc_within.step (rset_within.step (.refl _) rfl rfl) rfl rfl)
    rfl rfl) (rinc_within.step (rset_within.step (.refl _) rfl rfl) rfl rfl)) rfl rfl

theorem aerNote_within {s : State} {uncorr corr : Nat} : Within [.regs] (blks [.hlk]) s (aerNote s uncorr corr) :=
  rset_within.step (rset_within.step (.refl _) rfl rfl) rfl rfl

/-! ### Mapping -/

theorem pushExtract_within {s : State} {x : Extract} : Within [.regs, .mem, .extMem, .log, .sto] (blks [.sto, .hlm,
    .jrn]) s (pushExtract s x) :=
  within_ite (modSto_within.step (.refl _) rfl rfl) (within_ite (rinc_within.step (modSto_within.step (.refl _) rfl
    rfl) rfl rfl) (raiseEv_within.step (rinc_within.step (modSto_within.step (.refl _) rfl rfl) rfl rfl) rfl rfl))

theorem enterHistory_within {s : State} {x : Extract} : Within [.sto] [] s (enterHistory s x) :=
  within_ite (modSto_within.step (.refl _) rfl rfl) (.refl _)

theorem mapStrip_within {x : Extract} {dt : Int} {width dist mref : Nat} {last : Option Mapped} {ver : Ver} {s :
    State} {st : Strip} : Within [.regs, .sto] (blks [.sto]) s (mapStrip x dt width dist mref last ver s st) := by
  unfold mapStrip
  dsimp only
  split
  · exact rset_within.step (.refl _) rfl rfl
  · exact within_ite (writeCell_within.step (writeCell_within.step (.refl _) rfl rfl) rfl rfl) (writeCell_within.step
      (.refl _) rfl rfl)

theorem extractDone_within {s : State} {x : Extract} {mapped : Bool} : Within [.sto] [] s (extractDone s x mapped) :=
  modSto_within.step (.refl _) rfl rfl

theorem extractMap_within {s : State} {x : Extract} {dt : Int} {b a : HistPos} {tc : Nat} : Within [.regs, .sto, .fle]
    (blks [.sto]) s (extractMap s x dt b a tc) :=
  within_ite (needTiles_within.step (.refl _) rfl rfl) (extractDone_within.step (modSto_within.step (foldl_within (fun
    _ _ hu => mapStrip_within.step hu rfl rfl) (within_ite (clockLocal_within.step (needTiles_within.step (.refl _)
    rfl rfl) rfl rfl) (needTiles_within.step (.refl _) rfl rfl))) rfl rfl) rfl rfl)

/-! ### Xlk -/

theorem becomeCommander_within {s : State} {r : Nat} {saved : Bool} : Within [.regs, .mem, .extMem, .log, .xlk] (blks
    [.xlk, .hlm, .jrn]) s (becomeCommander s r saved) :=
  within_ite (within_xlk (rset_within.step (rset_within.step (.refl _) rfl rfl) rfl rfl) rfl) (raiseEv_within.step
    (rset_within.step (rset_within.step (.refl _) rfl rfl) rfl rfl) rfl rfl)

theorem commitTickWorld_within {s : State} : Within [.regs, .mem, .extMem, .log, .tke, .sps, .sfe] (blks [.fnl, .hlm,
    .jrn, .sps]) s (commitTickWorld s) := by
  unfold commitTickWorld
  dsimp only
  refine within_ite ?_ ?_
  · refine within_sps ?_ rfl
    split
    · refine commitLoops_within.step ?_ rfl rfl
      split
      · exact commitSolve_within.step (within_tke_sps_sfe (.refl _) rfl) rfl rfl
      · exact within_tke_sps_sfe (.refl _) rfl
    · split
      · exact commitSolve_within.step (within_tke_sps_sfe (.refl _) rfl) rfl rfl
      · exact within_tke_sps_sfe (.refl _) rfl
  · split
    · refine commitLoops_within.step ?_ rfl rfl
      split
      · exact commitSolve_within.step (within_tke_sps_sfe (.refl _) rfl) rfl rfl
      · exact within_tke_sps_sfe (.refl _) rfl
    · split
      · exact commitSolve_within.step (within_tke_sps_sfe (.refl _) rfl) rfl rfl
      · exact within_tke_sps_sfe (.refl _) rfl

theorem hbSend_within {s : State} {digest : Nat} : Within [.regs, .rolLatch, .arbs, .xlk] (blks [.arb]) s (hbSend s
    digest) :=
  within_ite (.refl _) (xlkSend_within.step (.refl _) rfl rfl)

theorem fencedOut_within {s : State} : Within [.regs, .mem, .extMem, .log, .xlk] (blks [.hlm, .jrn, .xlk]) s
    (fencedOut s) :=
  within_ite (raiseEv_within.step (rinc_within.step (within_xlk (.refl _) rfl) rfl rfl) rfl rfl) (.refl _)

theorem mirrorStitch_within {st : Stitch} {s : State} : Within [.regs, .rolLatch, .arbs, .xlk] (blks [.arb]) s
    (mirrorStitch st s) :=
  within_ite (.refl _) (foldl_within (fun _ _ hu => xlkSend_within.step (within_xlk hu rfl) rfl rfl) (.refl _))

theorem mirrorRx_within {s : State} {row off : Nat} {entries : List Nat} : Within [.xlk] [] s (mirrorRx s row off
    entries) :=
  within_ite (.refl _) (within_xlk (.refl _) rfl)

theorem healthRx_within {s : State} {w : List Nat} : Within [.regs, .mem, .extMem] (blks [.hlm, .xlk]) s (healthRx s
    w) :=
  telemetryPut_within.step (foldl_within (fun _ _ hu => rset_within.step hu rfl rfl) (.refl _)) rfl rfl

theorem healthTx_within {s : State} {meas : List Nat} : Within [.regs, .rolLatch, .arbs, .xlk] (blks [.arb]) s
    (healthTx s meas) :=
  within_ite (within_xlk (xlkSend_within.step (.refl _) rfl rfl) rfl) (.refl _)

/-! ### Tick -/

theorem modTke_within {s : State} {f : Tke → Tke} : Within [.tke] [] s (modTke s f) := within_tke (.refl _) rfl

theorem rejectOutputs_within {s : State} : Within [.reqs, .till] [] s (rejectOutputs s) :=
  foldl_within (fun _ _ hu => completeRow_within.step hu rfl rfl) (.refl _)

theorem sendCommit_within {s : State} {kind : FrameKind} {cmds : List Passed} : Within [.regs, .rolLatch, .mem,
    .extMem, .log, .arbs, .reqs, .till, .drv, .pps, .xlk] (blks [.arb, .pps, .til, .dbk, .sbk, .hlm, .jrn, .xlk]) s
    (sendCommit s kind cmds) := by
  unfold sendCommit
  extract_lets bid us row here mine s1 a b s2
  have h1 : Within [.regs, .rolLatch, .mem, .extMem, .log, .arbs, .reqs, .till, .drv, .pps, .xlk] (blks [.arb, .pps,
    .til, .dbk, .sbk, .hlm, .jrn, .xlk]) s s1 := by
    refine foldl_within ?_ (.refl _)
    intro _ _ hu
    split
    · exact takeReq_within.step hu rfl rfl
    · exact hu
  have hb : Within [.regs, .rolLatch, .mem, .extMem, .log, .arbs, .reqs, .till, .drv, .pps, .xlk] (blks [.arb, .pps,
    .til, .dbk, .sbk, .hlm, .jrn, .xlk]) s b.1 := ppsFrame_within.step (ppsFrame_within.step h1 rfl rfl) rfl rfl
  have h2 : Within [.regs, .rolLatch, .mem, .extMem, .log, .arbs, .reqs, .till, .drv, .pps, .xlk] (blks [.arb, .pps,
    .til, .dbk, .sbk, .hlm, .jrn, .xlk]) s s2 := within_ite hb (fencedOut_within.step hb rfl rfl)
  exact within_ite (xlkSend_within.step (within_ite (within_xlk h2 rfl) h2) rfl rfl) h2

theorem overrunRow_within {s : State} {cause : Nat} : Within [.regs, .rolLatch, .mem, .extMem, .log, .arbs, .reqs,
    .till, .tke, .drv, .pps, .xlk] (blks [.arb, .pps, .til, .dbk, .sbk, .hlm, .jrn, .xlk, .tke]) s (overrunRow s
    cause) :=
  sendCommit_within.step (within_ite (rset_within.step (rinc_within.step (rset_within.step (foldl_within (fun _ _ hu
    => mirrorStitch_within.step hu rfl rfl) (endRow_within.step (.refl _) rfl rfl)) rfl rfl) rfl rfl) rfl rfl)
    (within_ite (raiseEv_within.step (promoteRefuse_within.step (rset_within.step (rset_within.step (rset_within.step
    (rinc_within.step (rset_within.step (foldl_within (fun _ _ hu => mirrorStitch_within.step hu rfl rfl)
    (endRow_within.step (.refl _) rfl rfl)) rfl rfl) rfl rfl) rfl rfl) rfl rfl) rfl rfl) rfl rfl) rfl rfl)
    (raiseEv_within.step (promoteRefuse_within.step (rset_within.step (rset_within.step (rset_within.step
    (rinc_within.step (rset_within.step (foldl_within (fun _ _ hu => mirrorStitch_within.step hu rfl rfl)
    (endRow_within.step (.refl _) rfl rfl)) rfl rfl) rfl rfl) rfl rfl) rfl rfl) rfl rfl) rfl rfl) rfl rfl))) rfl rfl

theorem commitRow_within {s : State} : Within [.regs, .rolLatch, .mem, .extMem, .log, .arbs, .reqs, .till, .tke, .sps,
    .sfe, .drv, .pps, .xlk, .can] (blks [.can, .fnl, .hlm, .jrn, .sps, .arb, .pps, .til, .dbk, .sbk, .xlk, .tke]) s
    (commitRow s) :=
  canCommit_within.step (commitTickWorld_within.step (sendCommit_within.step (rolPeak_within.step (rset_within.step
    (.refl _) rfl rfl) rfl rfl) rfl rfl) rfl rfl) rfl rfl

theorem commitOrOverrun_within {s : State} : Within [.regs, .rolLatch, .mem, .extMem, .log, .arbs, .reqs, .till, .tke,
    .sps, .sfe, .drv, .pps, .xlk, .can] (blks [.arb, .pps, .til, .dbk, .sbk, .hlm, .jrn, .xlk, .tke, .can, .fnl,
    .sps]) s (commitOrOverrun s) := by
  unfold commitOrOverrun
  split
  · exact overrunRow_within.step (.refl _) rfl rfl
  · exact within_ite (commitRow_within.step (.refl _) rfl rfl) (overrunRow_within.step (.refl _) rfl rfl)

theorem setAmps_within {s : State} {amps : List Nat} : Within [.drv] [] s (setAmps s amps) := within_drv (.refl _) rfl

theorem setSwAmps_within {s : State} {amps : List Nat} : Within [.sw] [] s (setSwAmps s amps) :=
  within_sw (.refl _) rfl

theorem commitPoint_within {s0 : State} {amps : List Nat} : Within [.regs, .rolLatch, .mem, .extMem, .log, .arbs,
    .reqs, .till, .tke, .sps, .sfe, .drv, .pps, .xlk, .can] (blks [.tke, .arb, .pps, .til, .dbk, .sbk, .hlm, .jrn,
    .xlk, .can, .fnl, .sps]) s0 (commitPoint s0 amps) :=
  within_ite (.refl _) (within_ite (within_ite (modTke_within.step (setAmps_within.step (foldl_within (fun _ _ hu =>
    setPps_within.step hu rfl rfl) (.refl _)) rfl rfl) rfl rfl) (rejectOutputs_within.step (modTke_within.step
    (setAmps_within.step (foldl_within (fun _ _ hu => setPps_within.step hu rfl rfl) (.refl _)) rfl rfl) rfl rfl) rfl
    rfl)) (within_ite (rset_within.step (commitOrOverrun_within.step (within_ite (modTke_within.step
    (setAmps_within.step (foldl_within (fun _ _ hu => setPps_within.step hu rfl rfl) (.refl _)) rfl rfl) rfl rfl)
    (rejectOutputs_within.step (modTke_within.step (setAmps_within.step (foldl_within (fun _ _ hu =>
    setPps_within.step hu rfl rfl) (.refl _)) rfl rfl) rfl rfl) rfl rfl)) rfl rfl) rfl rfl)
    (commitOrOverrun_within.step (within_ite (modTke_within.step (setAmps_within.step (foldl_within (fun _ _ hu =>
    setPps_within.step hu rfl rfl) (.refl _)) rfl rfl) rfl rfl) (rejectOutputs_within.step (modTke_within.step
    (setAmps_within.step (foldl_within (fun _ _ hu => setPps_within.step hu rfl rfl) (.refl _)) rfl rfl) rfl rfl) rfl
    rfl)) rfl rfl)))

theorem clearRecords_within {s : State} : Within [.drv, .sw] [] s (clearRecords s) := within_drv_sw (.refl _) rfl

theorem postRecords_within {s : State} : Within [.regs, .rolLatch, .arbs, .till] (blks [.til, .arb]) s (postRecords s)
    :=
  tillMask_within.step (within_till (.refl _) rfl) rfl rfl

theorem rowSummary_within {s : State} : Within [.regs, .mem, .extMem] (blks [.tke]) s (rowSummary s) :=
  within_ite (.refl _) (within_ite (queuePut_within.step (.refl _) rfl rfl) (rinc_within.step (.refl _) rfl rfl))

theorem exposeSnap_within {s : State} : Within [.tke, .rowEntries] [] s (exposeSnap s) :=
  modTke_within.step (within_rowEntries (.refl _) rfl) rfl rfl

theorem tillFlush_within {s0 : State} {amps : List Nat} : Within [.regs, .rolLatch, .mem, .extMem, .log, .arbs, .till,
    .tke, .drv, .sw, .rowEntries, .xlk, .sto] (blks [.arb, .tke, .til, .sto, .hlm, .jrn]) s0 (tillFlush s0 amps) :=
  within_ite (.refl _) (within_ite (hbSend_within.step (rowSummary_within.step (postRecords_within.step
    (modTke_within.step (within_ite (setSwAmps_within.step (.refl _) rfl rfl) (clearRecords_within.step
    (exposeSnap_within.step (setSwAmps_within.step (.refl _) rfl rfl) rfl rfl) rfl rfl)) rfl rfl) rfl rfl) rfl rfl)
    rfl rfl) (pushExtract_within.step (hbSend_within.step (rowSummary_within.step (postRecords_within.step
    (modTke_within.step (within_ite (setSwAmps_within.step (.refl _) rfl rfl) (clearRecords_within.step
    (exposeSnap_within.step (setSwAmps_within.step (.refl _) rfl rfl) rfl rfl) rfl rfl)) rfl rfl) rfl rfl) rfl rfl)
    rfl rfl) rfl rfl))

theorem armFresh_within {s : State} : Within [.sps, .sfe] [] s (armFresh s) := within_sps_sfe (.refl _) rfl

theorem disarmTke_within {s : State} : Within [.regs, .tke, .xlk] (blks [.tke]) s (disarmTke s) :=
  within_tke_xlk (within_ite (rset_within.step (rset_within.step (.refl _) rfl rfl) rfl rfl) (rset_within.step
    (rset_within.step (rset_within.step (.refl _) rfl rfl) rfl rfl) rfl rfl)) rfl

/-! ### Resets -/

theorem abortWaiting_within {s : State} {q : Req} : Within [.regs, .reqs, .till] (blks [.cqr, .rng]) s (abortWaiting s
    q) :=
  within_ite (complete_within.step (fetchTake_within.step (.refl _) rfl rfl) rfl rfl) (.refl _)

theorem abortTaken_within {s : State} {q : Req} : Within [.reqs, .till] [] s (abortTaken s q) :=
  within_ite (complete_within.step (.refl _) rfl rfl) (.refl _)

theorem postRowDone_within {s : State} : Within [.till] [] s (postRowDone s) := within_till (.refl _) rfl

theorem drainTill_within {s : State} : Within [.regs, .rolLatch, .mem, .extMem, .arbs, .reqs, .till, .cqIrq, .irqs]
    (blks [.til, .arb, .msix, .cqr, .rng]) s (drainTill s) :=
  tillMask_within.step (rset_within.step (within_till (foldl_within (fun _ _ hu => writeCompl_within.step hu rfl rfl)
    (foldl_within (fun _ _ hu => tillTake_within.step hu rfl rfl) (postRowDone_within.step (.refl _) rfl rfl))) rfl)
    rfl rfl) rfl rfl

theorem drainRings_within {s : State} : Within [.regs, .rolLatch, .mem, .extMem, .arbs, .reqs, .till, .cqIrq, .irqs,
    .tke, .sps, .sfe, .drv, .dbk, .pps, .xlk, .nav, .sto, .fle, .vis, .can, .eth, .pnl, .upd] (blks [.til, .arb,
    .msix, .cqr, .rng, .can, .tke, .dbk, .isp, .vxa, .pnl, .upd, .sfe]) s (drainRings s) :=
  drainTill_within.step (foldl_within (fun _ _ hu => abortTaken_within.step hu rfl rfl) (foldl_within (fun _ _ hu =>
    abortWaiting_within.step hu rfl rfl) (foldl_within (fun _ _ hu => ringDisable_within.step hu rfl rfl) (.refl _))))
    rfl rfl

theorem stopClock_within {s : State} : Within [.hlm] [] s (stopClock s) := by
  unfold stopClock
  split
  · exact within_hlm (.refl _) rfl
  · exact .refl _

theorem resetFabRegs_within {s : State} : Within [.regs, .hiLatch, .rolLatch, .onesAt] (blks [.arb, .rng, .cqr, .til,
    .tke, .sps, .fnl, .sfe, .fle, .pnl, .sto, .jrn, .upd, .hlm]) s (resetFabRegs s) :=
  resetBlock_within.step (resetBlock_within.step (resetBlocks_within.step (resetInst_within.step (.refl _) rfl rfl)
    rfl rfl) rfl rfl) rfl rfl

theorem resetFabric_within {s : State} : Within [.regs, .hiLatch, .rolLatch, .onesAt, .fabric, .log, .arbs, .reqs,
    .till, .cqIrq, .tke, .sps, .sfe, .rowEntries, .xlk, .sto, .fle, .pnl, .upd, .aoc, .hlm] (blks [.arb, .rng, .cqr,
    .til, .tke, .sps, .fnl, .sfe, .fle, .pnl, .sto, .jrn, .upd, .hlm]) s (resetFabric s) :=
  within_fabric_log_arbs_reqs_till_cqIrq_tke_sps_sfe_rowEntries_xlk_sto_fle_pnl_upd_aoc_hlm (stopClock_within.step
    (resetFabRegs_within.step (.refl _) rfl rfl) rfl rfl) rfl

theorem loadMacs_within {s : State} : Within [.regs] (blks [.eth]) s (loadMacs s) :=
  foldl_within (fun _ _ hu => rset_within.step (rset_within.step hu rfl rfl) rfl rfl) (.refl _)

theorem renewNonce_within {s : State} : Within [.regs, .freeCount] (blks [.ksm]) s (renewNonce s) :=
  foldl_within (fun _ _ hu => withFree_within (fun _ _ hu1 => rset_within.step hu1 rfl rfl) hu rfl) (.refl _)

theorem resetPeriph_within {s : State} : Within [.regs, .hiLatch, .rolLatch, .onesAt, .nav, .vis, .can, .eth] (blks
    [.nav, .can, .eth, .cam, .isp, .vxa]) s (resetPeriph s) :=
  loadMacs_within.step (within_nav_vis_can_eth (resetBlocks_within.step (.refl _) rfl rfl) rfl) rfl rfl

theorem resetOuter_within {s : State} : Within [.regs, .hiLatch, .rolLatch, .onesAt, .freeCount, .arbs, .xlk, .nav,
    .vis, .can, .eth] (blks [.nav, .can, .eth, .cam, .isp, .vxa, .arb, .hlk, .msix, .xlk, .mem, .ksm]) s (resetOuter
    s) :=
  renewNonce_within.step (within_arbs_xlk (resetBlocks_within.step (resetInst_within.step (resetPeriph_within.step
    (.refl _) rfl rfl) rfl rfl) rfl rfl) rfl) rfl rfl

theorem wipeDram_within {s : State} : Within [.mem, .fle] [] s (wipeDram s) := within_mem_fle (.refl _) rfl

theorem resetAon_within {s : State} : Within [.regs, .hiLatch, .rolLatch, .onesAt, .rtcOff, .log, .nav, .aoc] (blks
    [.aoc]) s (resetAon s) :=
  within_rtcOff_log_nav_aoc (resetBlock_within.step (.refl _) rfl rfl) rfl

theorem noteTrial_within {s : State} {source : Nat} : Within [.upd] [] s (noteTrial s source) :=
  within_ite (within_upd (.refl _) rfl) (.refl _)

theorem noteCause_within {s : State} {kind source : Nat} : Within [.regs, .rolLatch, .aoc] (blks [.aoc]) s (noteCause
    s kind source) :=
  within_aoc (rset_within.step (rset_within.step (rset_within.step (rolEvent_within.step (rolEvent_within.step (.refl
    _) rfl rfl) rfl rfl) rfl rfl) rfl rfl) rfl rfl) rfl

theorem resetTo_within {s : State} {kind source : Nat} {wipe : Bool} : Within [.regs, .hiLatch, .rolLatch, .onesAt,
    .freeCount, .fabric, .rtcOff, .mem, .extMem, .log, .arbs, .reqs, .till, .cqIrq, .irqs, .tke, .sps, .sfe, .drv,
    .dbk, .pps, .rowEntries, .xlk, .nav, .sto, .fle, .vis, .can, .eth, .pnl, .upd, .aoc, .hlm] (blks [.aoc, .nav,
    .can, .eth, .cam, .isp, .vxa, .arb, .hlk, .msix, .xlk, .mem, .ksm, .rng, .cqr, .til, .tke, .sps, .fnl, .sfe, .fle,
    .pnl, .sto, .jrn, .upd, .hlm, .dbk]) s (resetTo s kind source wipe) := by
  have h0 : Within [.regs, .hiLatch, .rolLatch, .onesAt, .freeCount, .fabric, .rtcOff, .mem, .extMem, .log, .arbs,
    .reqs, .till, .cqIrq, .irqs, .tke, .sps, .sfe, .drv, .dbk, .pps, .rowEntries, .xlk, .nav, .sto, .fle, .vis, .can,
    .eth, .pnl, .upd, .aoc, .hlm] (blks [.aoc, .nav, .can, .eth, .cam, .isp, .vxa, .arb, .hlk, .msix, .xlk, .mem,
    .ksm, .rng, .cqr, .til, .tke, .sps, .fnl, .sfe, .fle, .pnl, .sto, .jrn, .upd, .hlm, .dbk]) s (if sourceDrains
    source then drainRings (confirmFirst s) else abandonRings s fun _ => true) :=
    within_ite (drainRings_within.step (confirmFirst_within.step (.refl _) rfl rfl) rfl rfl) (abandonRings_within.step
      (.refl _) rfl rfl)
  have hsettle (u : State) (hu : Within [.regs, .hiLatch, .rolLatch, .onesAt, .freeCount, .fabric, .rtcOff, .mem,
    .extMem, .log, .arbs, .reqs, .till, .cqIrq, .irqs, .tke, .sps, .sfe, .drv, .dbk, .pps, .rowEntries, .xlk, .nav,
    .sto, .fle, .vis, .can, .eth, .pnl, .upd, .aoc, .hlm] (blks [.aoc, .nav, .can, .eth, .cam, .isp, .vxa, .arb, .hlk,
    .msix, .xlk, .mem, .ksm, .rng, .cqr, .til, .tke, .sps, .fnl, .sfe, .fle, .pnl, .sto, .jrn, .upd, .hlm, .dbk]) s u)
    : Within [.regs, .hiLatch, .rolLatch, .onesAt, .freeCount, .fabric, .rtcOff, .mem, .extMem, .log, .arbs, .reqs,
    .till, .cqIrq, .irqs, .tke, .sps, .sfe, .drv, .dbk, .pps, .rowEntries, .xlk, .nav, .sto, .fle, .vis, .can, .eth,
    .pnl, .upd, .aoc, .hlm] (blks [.aoc, .nav, .can, .eth, .cam, .isp, .vxa, .arb, .hlk, .msix, .xlk, .mem, .ksm,
    .rng, .cqr, .til, .tke, .sps, .fnl, .sfe, .fle, .pnl, .sto, .jrn, .upd, .hlm, .dbk]) s (if kind ≤ 1 ∨ wipe then u
    else settleDram u) :=
    within_ite hu (settleDram_within.step hu rfl rfl)
  have houter (u : State) (hu : Within [.regs, .hiLatch, .rolLatch, .onesAt, .freeCount, .fabric, .rtcOff, .mem,
    .extMem, .log, .arbs, .reqs, .till, .cqIrq, .irqs, .tke, .sps, .sfe, .drv, .dbk, .pps, .rowEntries, .xlk, .nav,
    .sto, .fle, .vis, .can, .eth, .pnl, .upd, .aoc, .hlm] (blks [.aoc, .nav, .can, .eth, .cam, .isp, .vxa, .arb, .hlk,
    .msix, .xlk, .mem, .ksm, .rng, .cqr, .til, .tke, .sps, .fnl, .sfe, .fle, .pnl, .sto, .jrn, .upd, .hlm, .dbk]) s u)
    : Within [.regs, .hiLatch, .rolLatch, .onesAt, .freeCount, .fabric, .rtcOff, .mem, .extMem, .log, .arbs, .reqs,
    .till, .cqIrq, .irqs, .tke, .sps, .sfe, .drv, .dbk, .pps, .rowEntries, .xlk, .nav, .sto, .fle, .vis, .can, .eth,
    .pnl, .upd, .aoc, .hlm] (blks [.aoc, .nav, .can, .eth, .cam, .isp, .vxa, .arb, .hlk, .msix, .xlk, .mem, .ksm,
    .rng, .cqr, .til, .tke, .sps, .fnl, .sfe, .fle, .pnl, .sto, .jrn, .upd, .hlm, .dbk]) s (if kind ≤ 1 then
    resetOuter u else u) :=
    within_ite (resetOuter_within.step hu rfl rfl) hu
  have haon (u : State) (hu : Within [.regs, .hiLatch, .rolLatch, .onesAt, .freeCount, .fabric, .rtcOff, .mem,
    .extMem, .log, .arbs, .reqs, .till, .cqIrq, .irqs, .tke, .sps, .sfe, .drv, .dbk, .pps, .rowEntries, .xlk, .nav,
    .sto, .fle, .vis, .can, .eth, .pnl, .upd, .aoc, .hlm] (blks [.aoc, .nav, .can, .eth, .cam, .isp, .vxa, .arb, .hlk,
    .msix, .xlk, .mem, .ksm, .rng, .cqr, .til, .tke, .sps, .fnl, .sfe, .fle, .pnl, .sto, .jrn, .upd, .hlm, .dbk]) s u)
    : Within [.regs, .hiLatch, .rolLatch, .onesAt, .freeCount, .fabric, .rtcOff, .mem, .extMem, .log, .arbs, .reqs,
    .till, .cqIrq, .irqs, .tke, .sps, .sfe, .drv, .dbk, .pps, .rowEntries, .xlk, .nav, .sto, .fle, .vis, .can, .eth,
    .pnl, .upd, .aoc, .hlm] (blks [.aoc, .nav, .can, .eth, .cam, .isp, .vxa, .arb, .hlk, .msix, .xlk, .mem, .ksm,
    .rng, .cqr, .til, .tke, .sps, .fnl, .sfe, .fle, .pnl, .sto, .jrn, .upd, .hlm, .dbk]) s (if kind = 0 then resetAon
    u else u) :=
    within_ite (resetAon_within.step hu rfl rfl) hu
  have hwipe (u : State) (hu : Within [.regs, .hiLatch, .rolLatch, .onesAt, .freeCount, .fabric, .rtcOff, .mem,
    .extMem, .log, .arbs, .reqs, .till, .cqIrq, .irqs, .tke, .sps, .sfe, .drv, .dbk, .pps, .rowEntries, .xlk, .nav,
    .sto, .fle, .vis, .can, .eth, .pnl, .upd, .aoc, .hlm] (blks [.aoc, .nav, .can, .eth, .cam, .isp, .vxa, .arb, .hlk,
    .msix, .xlk, .mem, .ksm, .rng, .cqr, .til, .tke, .sps, .fnl, .sfe, .fle, .pnl, .sto, .jrn, .upd, .hlm, .dbk]) s u)
    : Within [.regs, .hiLatch, .rolLatch, .onesAt, .freeCount, .fabric, .rtcOff, .mem, .extMem, .log, .arbs, .reqs,
    .till, .cqIrq, .irqs, .tke, .sps, .sfe, .drv, .dbk, .pps, .rowEntries, .xlk, .nav, .sto, .fle, .vis, .can, .eth,
    .pnl, .upd, .aoc, .hlm] (blks [.aoc, .nav, .can, .eth, .cam, .isp, .vxa, .arb, .hlk, .msix, .xlk, .mem, .ksm,
    .rng, .cqr, .til, .tke, .sps, .fnl, .sfe, .fle, .pnl, .sto, .jrn, .upd, .hlm, .dbk]) s (if kind ≤ 1 ∨ wipe then
    wipeDram u else u) :=
    within_ite (wipeDram_within.step hu rfl rfl) hu
  exact noteCause_within.step (hwipe _ (haon _ (houter _ (resetFabric_within.step (noteTrial_within.step (hsettle _
    h0) rfl rfl) rfl rfl)))) rfl rfl

/-! ### Lifecycle -/

theorem eraseJournal_within {s : State} : Within [.regs, .log, .xlk, .sto] (blks [.jrn]) s (eraseJournal s) :=
  within_log_xlk_sto (rset_within.step (.refl _) rfl rfl) rfl

theorem eraseStaging_within {s : State} {k : Nat} : Within [.regs, .mem, .extMem, .log, .reqs, .till, .upd] (blks
    [.hlm, .jrn, .upd]) s (eraseStaging s k) :=
  within_ite (raiseEv_within.step (eraseSlot_within.step (rset_within.step (modUpd_within.step (.refl _) rfl rfl) rfl
    rfl) rfl rfl) rfl rfl) (eraseSlot_within.step (.refl _) rfl rfl)

theorem eraseStages_within {s : State} : Within [.regs, .mem, .extMem, .log, .reqs, .till, .upd] (blks [.hlm, .jrn,
    .upd]) s (eraseStages s) :=
  eraseStaging_within.step (eraseStaging_within.step (.refl _) rfl rfl) rfl rfl

theorem eraseParts_within {s : State} : Within [.log, .sto] [] s (eraseParts s) := within_log_sto (.refl _) rfl

theorem wipeSram_within {s : State} : Within [.nav] [] s (wipeSram s) := within_nav (.refl _) rfl

theorem lcWipe_within {s : State} {from_ dst : Nat} : Within [.regs, .mem, .extMem, .log, .reqs, .till, .xlk, .nav,
    .sto, .ksm, .upd] (blks [.ksm, .hlm, .jrn, .upd]) s (lcWipe s from_ dst) :=
  within_ite (rset_within.step (rset_within.step (rset_within.step (rset_within.step (modKsm_within.step
    (eraseParts_within.step (eraseStages_within.step (eraseJournal_within.step (wipeSram_within.step (.refl _) rfl
    rfl) rfl rfl) rfl rfl) rfl rfl) rfl rfl) rfl rfl) rfl rfl) rfl rfl) rfl rfl) (within_ite (within_sto
    (eraseParts_within.step (eraseStages_within.step (eraseJournal_within.step (wipeSram_within.step (.refl _) rfl
    rfl) rfl rfl) rfl rfl) rfl rfl) rfl) (within_ite (rset_within.step (modKsm_within.step (eraseParts_within.step
    (eraseStages_within.step (eraseJournal_within.step (wipeSram_within.step (.refl _) rfl rfl) rfl rfl) rfl rfl) rfl
    rfl) rfl rfl) rfl rfl) (within_ite (rset_within.step (.refl _) rfl rfl) (within_ite (rset_within.step (.refl _)
    rfl rfl) (eraseStages_within.step (.refl _) rfl rfl)))))

theorem lcMake_within {s : State} {from_ dst : Nat} : Within [.regs, .freeCount, .mem, .extMem, .log, .reqs, .till,
    .xlk, .nav, .sto, .ksm, .upd, .aoc] (blks [.hlm, .jrn, .ksm, .upd]) s (lcMake s from_ dst) :=
  raiseEv_within.step (within_aoc (renewNonce_within.step (rinc_within.step (rset_within.step (modKsm_within.step
    (lcWipe_within.step (.refl _) rfl rfl) rfl rfl) rfl rfl) rfl rfl) rfl rfl) rfl) rfl rfl

theorem setVersions_within {s : State} : Within [.regs] (blks [.upd]) s (setVersions s) :=
  rset_within.step (rset_within.step (.refl _) rfl rfl) rfl rfl

theorem takeBank_within {s : State} {k : Nat} : Within [.regs, .upd] (blks [.upd]) s (takeBank s k) :=
  setVersions_within.step (setMissing_within.step (setSlotState_within.step (rset_within.step (rset_within.step
    (modUpd_within.step (rset_within.step (.refl _) rfl rfl) rfl rfl) rfl rfl) rfl rfl) rfl rfl) rfl rfl) rfl rfl

/-! ### Power -/

theorem modAoc_within {s : State} {f : Aoc → Aoc} : Within [.aoc] [] s (modAoc s f) := within_aoc (.refl _) rfl

theorem noteWake_within {s : State} {mask : Nat} : Within [.regs, .rolLatch] (blks [.aoc]) s (noteWake s mask) := by
  refine foldl_within (fun u k hu => ?_) (.refl _)
  exact rolEvent_within.step hu rfl (by simp only [wakeField_blk]; rfl)

theorem wakeRaise_within {s : State} : Within [.regs, .mem, .extMem, .log] (blks [.hlm, .jrn]) s (wakeRaise s) :=
  raiseEv_within.step (.refl _) rfl rfl

theorem resumeFabric_within {s : State} : Within [.regs, .fabric, .tke, .pnl, .aoc, .hlm] (blks [.nav, .pnl]) s
    (resumeFabric s) :=
  renewTpNext_within.step (panelView_within.step (panelView_within.step (within_fabric_tke_aoc_hlm (.refl _) rfl) rfl
    rfl) rfl rfl) rfl rfl

theorem panelEntry_within {state : Nat} {s : State} {p : Nat} : Within [.regs, .pnl] (blks [.pnl]) s (panelEntry state
    s p) :=
  within_ite (.refl _) (panelDark_within.step (.refl _) rfl rfl)

theorem suspendRequest_within {s : State} : Within [.aoc] [] s (suspendRequest s) :=
  modAoc_within.step (.refl _) rfl rfl

theorem bindSafe_within {s : State} : Within [.regs, .mem, .extMem, .log, .reqs, .till, .tke, .drv, .dbk, .sw, .pps,
    .xlk, .hlm] (blks [.pps, .sbk, .dbk, .hlm, .jrn, .tke]) s (bindSafe s) :=
  safeNow_within.step (safeNow_within.step (disarmTke_within.step (.refl _) rfl rfl) rfl rfl) rfl rfl

theorem bindSave_within {s : State} {x : EntryMeas} : Within [.regs, .rtcOff, .nav, .fle] (blks [.fle, .aoc]) s
    (bindSave s x) :=
  fleClose_within.step (within_ite (setRtc_within.step (navStore_within.step (.refl _) rfl rfl) rfl rfl)
    (navStore_within.step (.refl _) rfl rfl)) rfl rfl

theorem logicThrottle_within {s : State} {mv100 : Nat} : Within [.regs] (blks [.aoc]) s (logicThrottle s mv100) :=
  rsetB_within.step (rset_within.step (.refl _) rfl rfl) rfl rfl

theorem finishPage_within {s : State} {pages : Nat} : Within [.sto] [] s (finishPage s pages) := by
  unfold finishPage
  split
  · exact within_ite (jrnApply_within.step (.refl _) rfl rfl) (.refl _)
  · exact .refl _

theorem revertBank_within {s : State} : Within [.regs, .mem, .extMem, .log, .upd] (blks [.hlm, .jrn, .upd]) s
    (revertBank s) :=
  raiseEv_within.step (setVersions_within.step (rset_within.step (rset_within.step (modUpd_within.step
    (rset_within.step (.refl _) rfl rfl) rfl rfl) rfl rfl) rfl rfl) rfl rfl) rfl rfl

theorem selfTest_within {s : State} {n : Nat} : Within [.regs, .mem, .extMem, .log, .sfe] (blks [.hlm, .jrn, .sfe]) s
    (selfTest s n) :=
  within_ite (raiseEv_within.step (within_sfe (.refl _) rfl) rfl rfl) (raiseEv_within.step (rsetBitAt_within.step
    (.refl _) rfl rfl) rfl rfl)

theorem debugAccess_within {s : State} : Within [.regs] (blks [.arb]) s (debugAccess s) :=
  foldl_within (fun _ _ hu => within_ite (rset_within.step (rset_within.step hu rfl rfl) rfl rfl) hu) (.refl _)

theorem fabricInit_within {s : State} {bad : List Nat} : Within [.regs, .fabric, .mem, .extMem, .log, .tke, .sfe,
    .hlm] (blks [.hlm, .jrn, .sfe, .arb, .tke]) s (fabricInit s bad) :=
  foldl_within (fun _ _ hu => selfTest_within.step hu rfl rfl) (within_fabric_tke_hlm (debugAccess_within.step
    (rset64_within.step (.refl _) rfl rfl) rfl rfl) rfl)

theorem loadRtc_within {s0 : State} : Within [.timeOff, .nav] [] s0 (loadRtc s0) :=
  regridFilter_within.step (within_timeOff_nav (noteTime_within.step (.refl _) rfl rfl) rfl) rfl rfl

theorem makeKey_within {s : State} : Within [.regs] (blks [.ksm]) s (makeKey s) :=
  within_ite (rset_within.step (.refl _) rfl rfl) (.refl _)

end Sys2Proof.Machine
end

section
/-! Fetch, till, completions and the host link (R37–R39, R64–R69, R75, R362), and the completion of the commands of
registers and rings (O11, O15, O16). -/

namespace Sys2Proof.Machine

/-! ### Reading a frame -/

/-- A register outside the blocks that may have changed reads as before. -/
theorem Within.rget {ps : List Part} {bs : List Nat} {o s : State} (h : Within ps bs o s) (f : Fld) (i j : Nat)
    (hf : f.id / 128 ∉ bs) : rget s f i j = rget o f i j := by
  unfold Sys2Proof.Machine.rget tblGetD
  rw [h.blocks _ (by rwa [keyBlk_key])]

theorem Within.rbit {ps : List Part} {bs : List Nat} {o s : State} (h : Within ps bs o s) (f : Fld) (i j : Nat)
    (hf : f.id / 128 ∉ bs) : rbit s f i j = rbit o f i j := by
  unfold Sys2Proof.Machine.rbit
  rw [h.rget f i j hf]

/-! ### What the till holds -/

/-- The till has posted and written nothing; what it has accepted besides stands behind what it had. -/
structure TillGrows (s u : State) : Prop where
  posted : u.till.posted = s.till.posted
  outQ : u.till.outQ = s.till.outQ
  accepted : s.till.accepted <+: u.till.accepted
  flushLeft : u.till.flushLeft = s.till.flushLeft
  rowDone : u.till.rowDone = s.till.rowDone

theorem TillGrows.refl (s : State) : TillGrows s s := ⟨rfl, rfl, List.prefix_rfl, rfl, rfl⟩

theorem TillGrows.trans {s u v : State} (h : TillGrows s u) (k : TillGrows u v) : TillGrows s v :=
  ⟨k.posted.trans h.posted, k.outQ.trans h.outQ, h.accepted.trans k.accepted, k.flushLeft.trans h.flushLeft,
    k.rowDone.trans h.rowDone⟩

theorem TillGrows.of_eq {s u : State} (h : u.till = s.till) : TillGrows s u := by
  exact ⟨by rw [h], by rw [h], by rw [h], by rw [h], by rw [h]⟩

theorem till_tillGrows (s : State) {l : Till} (hp : l.posted = s.till.posted) (hq : l.outQ = s.till.outQ)
    (ha : s.till.accepted <+: l.accepted) (hf : l.flushLeft = s.till.flushLeft) (hd : l.rowDone = s.till.rowDone) :
    TillGrows s { s with till := l } := ⟨hp, hq, ha, hf, hd⟩

theorem ArbOnly.tillGrows {s u : State} (h : ArbOnly s u) : TillGrows s u := .of_eq h.till

theorem fenceNext_tillGrows (s : State) (sup : Nat) : TillGrows s (fenceNext s sup) := by
  unfold fenceNext
  split
  · exact ⟨rfl, rfl, List.prefix_rfl, rfl, rfl⟩
  · exact .refl s

theorem fenceServe_tillGrows (s : State) (c : Nat) : TillGrows s (fenceServe s c) := by
  unfold fenceServe
  split
  · refine TillGrows.trans ?_ (fenceAsk_arbOnly _ c).tillGrows
    refine TillGrows.trans ?_ (fenceNext_tillGrows _ _)
    exact ⟨rfl, rfl, List.prefix_append _ _, rfl, rfl⟩
  · exact .refl s

theorem fenceRun_tillGrows (s : State) (c : Nat) : TillGrows s (fenceRun s c) := by
  unfold fenceRun
  split
  · refine TillGrows.trans ?_ (till_tillGrows _ rfl rfl List.prefix_rfl rfl rfl)
    exact foldl_invariant (TillGrows.refl s) fun u i _ hu => hu.trans (fenceServe_tillGrows u _)
  · exact .refl s

theorem tillRuns_tillGrows (c n : Nat) (s : State) : TillGrows s (tillRuns c n s) := by
  induction n generalizing s with
  | zero => exact .refl s
  | succ n ih =>
    have hto := (arbTo_arbOnly s 0 c).tillGrows
    unfold tillRuns
    dsimp only
    split
    · split
      · exact hto
      · refine TillGrows.trans ?_ (ih _)
        refine TillGrows.trans ?_ (fenceRun_tillGrows _ c)
        exact hto.trans (till_tillGrows _ rfl rfl List.prefix_rfl rfl rfl)
    · exact hto

theorem tillTo_tillGrows (s : State) (c : Nat) : TillGrows s (tillTo s c) :=
  (fenceRun_tillGrows s c).trans (tillRuns_tillGrows c _ _)

theorem tillMask_tillGrows (s : State) : TillGrows s (tillMask s) := by
  unfold tillMask
  dsimp only
  refine (tillTo_tillGrows s s.now).trans
    (TillGrows.trans (u := arbTickets (setArb (tillTo s s.now) 0 _) 0) ?_ (.of_eq rfl))
  exact ((setArb_arbOnly _ 0 _).trans (arbTickets_arbOnly _ 0)).tillGrows


theorem tillMask_outQ (s : State) : (tillMask s).till.outQ = s.till.outQ := (tillMask_tillGrows s).outQ

/-! ### Fetch (R64, R67, R69, R324) -/

section
variable {s : State} (t : Fc) (hfab : s.fabric = true)
include hfab

theorem exec_descriptorFetch (n : Fin 256) (d : Desc) (fault : Bool) : exec (.descriptorFetch t n d fault) s =
    .next (dropMarks (fetchDesc (portMark (advance s t) n d fault) n d fault)) :=
  atFabric_up s t (fun s => dropMarks (fetchDesc (portMark s n d fault) n d fault)) hfab

theorem exec_tillAccept : exec (.tillAccept t) s = .next (tillAccept (advance s t)) :=
  atFabric_up s t tillAccept hfab

theorem exec_tillOutputWrite : exec (.tillOutputWrite t) s = .next (tillOutput (advance s t)) :=
  atFabric_up s t tillOutput hfab

theorem exec_completionWrite : exec (.completionWrite t) s = .next (complWrite (advance s t)) :=
  atFabric_up s t complWrite hfab

theorem exec_cqDelayExpiry (m : Fin 64) : exec (.cqDelayExpiry t m) s = .next (cqDelay (advance s t) m) :=
  atFabric_up s t (fun s => cqDelay s m) hfab

theorem exec_hostLinkDown (x : LinkDown) : exec (.hostLinkDown t x) s =
    .next (hostLinkDown (aerNote (advance s t) x.uncorr x.corr) x.d3) :=
  atFabric_up s t (fun s => hostLinkDown (aerNote s x.uncorr x.corr) x.d3) hfab

theorem exec_hostLinkUp (w v : Fin 8) : exec (.hostLinkUp t w v) s = .next (hostLinkUp (advance s t) w v) :=
  atFabric_up s t (fun s => hostLinkUp s w v) hfab

end

/-- No port of a camera job's was disabled before its fetch. -/
theorem portMark_unmarked {s : State} {n : Nat} {q : Req} {d : Desc} {fault : Bool} (hq : nextWaiting s n = some q)
    (h : (s.vis.offs.any fun x => x.1 == q.ref && x.2.1 == d.classWord % 4) = false ∨ d.cls ≠ 4) :
    portMark s n d fault = s := by
  unfold portMark
  rw [hq]
  split
  · rfl
  · rfl
  next q' hsome _ =>
    obtain rfl := Option.some.inj hsome
    split
    next hcond =>
      have hnone : s.vis.offs.find? (fun x => x.1 == q.ref && x.2.1 == d.classWord % 4) = none := by
        obtain h | h := h
        · simpa using h
        · simp [h] at hcond
      rw [hnone]
    · rfl

theorem dropMarks_frame (s : State) : dropMarks s = { s with vis := (dropMarks s).vis } ∧
    (dropMarks s).vis = { s.vis with offs := (dropMarks s).vis.offs } := by
  unfold dropMarks
  dsimp only
  split <;> exact ⟨rfl, rfl⟩

/-- A ring whose next descriptor can be fetched. -/
structure Fetchable (s : State) (n : Nat) (q : Req) : Prop where
  entry : s.aoc.entry = none
  next : nextWaiting s n = some q
  free : rget s R.CQ_FREE_FREE 0 (ringCq s n) ≠ 0
  cq : cqEnabled s (ringCq s n) = true
  aborted : q.aborted = none
  on : ringEnabled s n = true

/-- The descriptor as its consumer has it after the fetch. -/
def fetched (s : State) (d : Desc) (q : Req) : Req := { q with desc := some d, stage := .held, order := s.fetches + 1 }

/-- The state after the fetch of a slot, before the descriptor is checked. -/
def fetchState (s : State) (n : Nat) (r : Ref) (d : Desc) : State :=
  updReq { fetchTake s n with fetches := s.fetches + 1 } r (fetched s d)

theorem fetchDesc_read {s : State} {n : Nat} {q : Req} (h : Fetchable s n q) {d : Desc}
    (hfence : d.fence = false ∨ fenceClear s q = true) :
    fetchDesc s n d false =
      match headerError d q.phase (rget s R.RING_CFG_CLASS 0 n) with
      | some e => complete (fetchState s n q.ref d) q.ref stRejectFormat e
          (if classIsRow (rget s R.RING_CFG_CLASS 0 n) then some (rowHere s) else none)
      | none =>
        if (d.cls = 2 ∨ d.cls = 3) ∧ 95 < d.classWord % 128 then
          complete (fetchState s n q.ref d) q.ref stRejectFormat (if d.cls = 2 then 0x0160 else 0x0170) (some (rowHere s))
        else fetchState s n q.ref d := by
  obtain ⟨hentry, hnext, hfree, hcq, habort, hon⟩ := h
  have hclear : (d.fence && !fenceClear s q) = false := by
    obtain h | h := hfence <;> simp [h]
  unfold fetchDesc
  simp only [hentry, hnext, habort, hfree, hcq, hon, hclear, Option.isSome_none, Bool.false_eq_true, if_false,
    Bool.not_true, or_self]
  rfl

/-! ### The till (R37–R39, R68) -/

theorem arbRequest_tillGrows (s : State) (n c : Nat) (ps : List Nat) : TillGrows s (arbRequest s n c ps) :=
  (arbRequest_arbOnly s n c ps).tillGrows

theorem seqCompl_till (s : State) (r : Ref) : (seqCompl s r).till = s.till := by
  unfold seqCompl
  split
  · split <;> rfl
  · rfl

theorem foldl_seqCompl_till (l : List Ref) (s : State) : (l.foldl seqCompl s).till = s.till :=
  foldl_invariant (P := fun u => u.till = s.till) rfl fun u r _ hu => (seqCompl_till u r).trans hu

/-- What is accepted in a fabric cycle joins the accepted records. -/
theorem tillTake_till (s : State) (r : TillRec) :
    (tillTake s r).till.posted = s.till.posted ∧ (s.now, r) ∈ (tillTake s r).till.accepted := by
  unfold tillTake
  have hnow : (r.compls.foldl seqCompl s).now = s.now :=
    foldl_invariant (P := fun u : State => u.now = s.now) rfl fun u x _ hu => by
      unfold seqCompl
      split
      · split
        · exact hu
        · exact hu
      · exact hu
  have hposted : (r.compls.foldl seqCompl s).till.posted = s.till.posted := by rw [foldl_seqCompl_till]
  have hmem : (s.now, r) ∈ [((r.compls.foldl seqCompl s).now, r)] := by simp [hnow]
  split
  · exact ⟨hposted, List.mem_append_right _ hmem⟩
  · exact ⟨hposted, List.mem_append_right _ hmem⟩

/-- The till as it asks its arbiter, in the present fabric cycle. -/
def tillAsked (s : State) : State :=
  let s0 := tillTo (tillMask s) s.now
  arbRequest s0 0 s.now (((s.till.posted.map (·.prod)).eraseDups).filter fun p =>
    !((arbNow s0 0).holder.any fun g => g.who == p))

theorem tillMask_now (s : State) : (tillMask s).now = s.now := by
  have h := tillMask_within (s := s)
  exact h.now.resolve_left (by simp)

theorem tillAccept_granted {s : State} {g : Grant} {r : TillRec} (hg : (arbNow (tillAsked s) 0).holder = some g)
    (hr : firstPosted (tillAsked s) g.who = some r) (hend : (getArb (tillAsked s) 0).ev.ended = false) :
    tillAccept s =
      let s2 := arbRelease (tillAsked s) 0 s.now
      tillMask (tillTake { s2 with till := { s2.till with posted := s2.till.posted.erase r } } r) := by
  have hasked : arbRequest (tillTo (tillMask s) (tillMask s).now) 0 (tillMask s).now
      ((((tillMask s).till.posted.map (·.prod)).eraseDups).filter fun p =>
        !((arbNow (tillTo (tillMask s) (tillMask s).now) 0).holder.any fun g => g.who == p)) = tillAsked s := by
    rw [tillMask_now, (tillMask_tillGrows s).posted]
    rfl
  unfold tillAccept
  dsimp only
  rw [hasked, hg]
  dsimp only
  rw [hr]
  dsimp only
  rw [hend, tillMask_now]
  rfl


/-! ### The host link (R75, R362, R365) -/

theorem Within.reqs_eq {ps : List Part} {bs : List Nat} {o s : State} (h : Within ps bs o s) (hp : Part.reqs ∉ ps) :
    s.reqs = o.reqs := h.reqs.resolve_left hp

/-- An abandoned descriptor is no longer outstanding, and every other one still is. -/
theorem abandon_reqs (s : State) (q : Req) : (abandon s q).reqs = s.reqs.filter fun p => p.ref != q.ref := by
  unfold abandon
  dsimp only
  congr 1
  split
  · rfl
  · split
    · split
      · rfl
      · rfl
    · split
      · rfl
      next d _ _ _ => exact (stopWork_within (s := s) (r := q.ref) (d := d)).reqs_eq (by simp)

theorem foldl_abandon_reqs (l : List Req) (s : State) :
    (l.foldl abandon s).reqs = s.reqs.filter fun p => l.all fun q => p.ref != q.ref := by
  induction l generalizing s with
  | nil => simp
  | cons q l ih => rw [List.foldl_cons, ih, abandon_reqs, List.filter_filter]; simp [Bool.and_comm]

/-- Of the descriptors that were outstanding those of the abandoned rings are gone. -/
theorem abandonRings_reqs (s : State) (which : Nat → Bool) :
    (abandonRings s which).reqs = s.reqs.filter fun p => !which p.ring := by
  have hoff (u : State) : ((List.range 256).foldl (fun s n => if which n then rset s R.RING_CTRL_ENABLE 0 0 n else s)
      u).reqs = u.reqs :=
    (foldl_within (ps := [.regs]) (bs := blks [.rng])
      (fun _ _ hu => within_ite (rset_within.step hu rfl rfl) hu) (.refl u)).reqs_eq (by simp)
  unfold abandonRings
  dsimp only
  rw [hoff, (dropMarks_within (s := _)).reqs_eq (by simp), foldl_abandon_reqs]
  refine List.filter_congr fun p hp => ?_
  rw [Bool.eq_iff_iff, List.all_eq_true]
  constructor
  · intro hall
    by_contra hwhich
    have := hall p (List.mem_filter.mpr ⟨hp, by simpa using hwhich⟩)
    simp at this
  · intro hwhich q hq
    obtain ⟨-, hq⟩ := List.mem_filter.mp hq
    refine bne_iff_ne.mpr fun heq => ?_
    have hring : p.ring = q.ring := congrArg Ref.ring heq
    simp [hring, hq] at hwhich

/-- What each member of a list brings about, and none of them undoes, stands at the end. -/
theorem foldl_reaches {α : Type} {f : State → α → State} {Q : α → State → Prop} {I : State → Prop}
    (hI : ∀ u x, I u → I (f u x)) (hset : ∀ u x, I u → Q x (f u x)) (hkeep : ∀ u x y, Q y u → Q y (f u x))
    {l : List α} {s : State} (h : I s) : ∀ y ∈ l, Q y (l.foldl f s) := by
  induction l generalizing s with
  | nil => simp
  | cons x l ih =>
    intro y hy
    obtain rfl | hy := List.mem_cons.mp hy
    · exact foldl_invariant (P := Q y) (b := f s y) (hset s y h) fun u x _ hu => hkeep u x y hu
    · exact ih (hI s x h) y hy

/-- A field that holds 0 holds it after a write of 0 to any index. -/
theorem rget_rset_zero {s : State} {f : Fld} {i j k : Nat} (h : rget s f i k = 0) : rget (rset s f 0 i j) f i k = 0 := by
  rw [rget_rset]
  split
  · exact Nat.zero_mod _
  · exact h

theorem abandonRings_disables (s : State) (which : Nat → Bool) {n : Nat} (hn : n < 256) (hw : which n = true) :
    rget (abandonRings s which) R.RING_CTRL_ENABLE 0 n = 0 := by
  have hall := foldl_reaches (f := fun s n => if which n then rset s R.RING_CTRL_ENABLE 0 0 n else s)
    (Q := fun n u => which n = true → rget u R.RING_CTRL_ENABLE 0 n = 0) (I := fun _ => True) (l := List.range 256)
    (s := dropMarks ((s.reqs.filter fun q => which q.ring).foldl abandon s)) (fun _ _ _ => trivial)
    (fun u n _ hn => by simp [hn]) (fun u x y hu hy => by
      split
      · exact rget_rset_zero (hu hy)
      · exact hu hy) trivial
  exact hall n (List.mem_range.mpr hn) hw

/-- The completion rings of the external host are disabled. -/
def cqsOff (s : State) : State :=
  (List.range 64).foldl (fun s m =>
    if rbit s R.CQ_CFG_HOST 0 m then rset { s with cqIrq := tblErase s.cqIrq m } R.CQ_CTRL_ENABLE 0 0 m else s) s

theorem cqsOff_within {s : State} : Within [.regs, .cqIrq] (blks [.cqr]) s (cqsOff s) :=
  foldl_within (fun _ _ hu => within_ite (rset_within.step (within_cqIrq hu rfl) rfl rfl) hu) (.refl _)

theorem cqsOff_disables {s : State} {m : Nat} (hm : m < 64) (hw : rbit s R.CQ_CFG_HOST 0 m = true) :
    rget (cqsOff s) R.CQ_CTRL_ENABLE 0 m = 0 := by
  have hrbit (u : State) (l : Tbl CqIrq) (k m : Nat) :
      rbit (rset { u with cqIrq := l } R.CQ_CTRL_ENABLE 0 0 k) R.CQ_CFG_HOST 0 m = rbit u R.CQ_CFG_HOST 0 m := by
    rw [rbit, rget_rset_ne _ _ _ _ _ _ (by decide)]
    rfl
  have hall := foldl_reaches (f := fun s m =>
      if rbit s R.CQ_CFG_HOST 0 m then rset { s with cqIrq := tblErase s.cqIrq m } R.CQ_CTRL_ENABLE 0 0 m else s)
    (Q := fun m u => rbit s R.CQ_CFG_HOST 0 m = true → rget u R.CQ_CTRL_ENABLE 0 m = 0)
    (I := fun u => ∀ m, rbit u R.CQ_CFG_HOST 0 m = rbit s R.CQ_CFG_HOST 0 m) (l := List.range 64) (s := s)
    (fun u x hu m => by
      split
      · rw [hrbit, hu]
      · exact hu m)
    (fun u x hu hx => by
      rw [if_pos (by rw [hu, hx])]
      exact rget_rset_self ..)
    (fun u x y hu hy => by
      split
      · exact rget_rset_zero (s := { u with cqIrq := tblErase u.cqIrq x }) (hu hy)
      · exact hu hy) fun _ => rfl
  exact hall m (List.mem_range.mpr hm) hw

theorem hostLinkDown_up {s : State} (d3 : Bool) (h : rbit s R.HLK_STATUS_LINK_UP = true) :
    hostLinkDown s d3 = hostLinkOff (cqsOff (abandonRings s fun n => rbit s R.RING_CFG_HOST 0 n)) d3 := by
  unfold hostLinkDown
  rw [if_neg (by simp [h])]
  rfl

/-- The link's part of a host link down. -/
theorem hostLinkOff_fields (s : State) (d3 : Bool) :
    rget (hostLinkOff s d3) R.HLK_STATUS_LINK_UP = 0 ∧
      rget (hostLinkOff s d3) R.HLK_STATUS_DOWN_EVENTS = satTo 16 (rget s R.HLK_STATUS_DOWN_EVENTS + 1) ∧
      rget (hostLinkOff s d3) R.HLK_AER_UNCORR = rget s R.HLK_AER_UNCORR ∧
      rget (hostLinkOff s d3) R.HLK_AER_CORR = rget s R.HLK_AER_CORR := by
  have hev (u : State) (f : Fld) (hf : f.id / 128 = blkCode .hlk) :
      rget (raiseEv u evHlkLinkDown) f = rget u f :=
    (raiseEv_within (s := u) (code := evHlkLinkDown)).rget f 0 0 (by rw [hf]; decide)
  have hd3 (u : State) (f : Fld) (hf : f.id ≠ R.HLK_STATUS_D_STATE.id) :
      rget (if d3 then rset u R.HLK_STATUS_D_STATE 3 else u) f = rget u f := by
    split
    · exact rget_rset_ne _ _ _ _ _ _ hf
    · rfl
  unfold hostLinkOff
  dsimp only
  rw [hev _ _ rfl, hev _ _ rfl, hev _ _ rfl, hev _ _ rfl, hd3 _ _ (by decide), hd3 _ _ (by decide),
    hd3 _ _ (by decide), hd3 _ _ (by decide), rget_rinc_self]
  simp (disch := decide) only [rinc, rget_rset_self, rget_rset_ne, Nat.zero_mod]
  exact ⟨trivial, rfl, trivial, trivial⟩

/-- The status registers of a host link that goes down: the descriptors and rings abandoned are no part of them. -/
theorem hostLinkDown_fields {s : State} (d3 : Bool) (h : rbit s R.HLK_STATUS_LINK_UP = true) :
    rget (hostLinkDown s d3) R.HLK_STATUS_LINK_UP = 0 ∧
      rget (hostLinkDown s d3) R.HLK_STATUS_DOWN_EVENTS = satTo 16 (rget s R.HLK_STATUS_DOWN_EVENTS + 1) ∧
      rget (hostLinkDown s d3) R.HLK_AER_UNCORR = rget s R.HLK_AER_UNCORR ∧
      rget (hostLinkDown s d3) R.HLK_AER_CORR = rget s R.HLK_AER_CORR := by
  have hrest (f : Fld) (hf : f.id / 128 = blkCode .hlk) :
      rget (cqsOff (abandonRings s fun n => rbit s R.RING_CFG_HOST 0 n)) f = rget s f := by
    rw [(cqsOff_within).rget f 0 0 (by rw [hf]; decide), (abandonRings_within).rget f 0 0 (by rw [hf]; decide)]
  obtain ⟨hlink, hcount, huncorr, hcorr⟩ :=
    hostLinkOff_fields (cqsOff (abandonRings s fun n => rbit s R.RING_CFG_HOST 0 n)) d3
  rw [hostLinkDown_up d3 h, hlink, hcount, huncorr, hcorr, hrest _ rfl, hrest _ rfl, hrest _ rfl]
  exact ⟨rfl, rfl, rfl, rfl⟩

theorem aerNote_linkUp (s : State) (uncorr corr : Nat) :
    rbit (aerNote s uncorr corr) R.HLK_STATUS_LINK_UP = rbit s R.HLK_STATUS_LINK_UP := by
  unfold aerNote rbit
  simp (disch := decide) only [rget_rset_ne]

theorem hostLinkUp_trained {s : State} {w v : Nat} (hw : w = 1 ∨ w = 2 ∨ w = 4) (hlo : 1 ≤ v) (hhi : v ≤ 4) :
    hostLinkUp s w v =
      rset (rset (rset (rset s R.HLK_STATUS_LINK_UP 1) R.HLK_STATUS_WIDTH w) R.HLK_STATUS_SPEED v)
        R.HLK_STATUS_D_STATE 0 := by
  unfold hostLinkUp
  exact if_neg (by omega)

/-- Settles O16. -/
theorem hostLink : Obligations.HostLink := by
  unfold Obligations.HostLink
  refine ⟨?down, ?up⟩
  case down =>
    intro s t x hfab hup
    refine ⟨_, exec_hostLinkDown t hfab x, ?_⟩
    obtain ⟨v, hv⟩ : ∃ v, v = aerNote (advance s t) x.uncorr x.corr := ⟨_, rfl⟩
    have hwithin : Within [.regs] (blks [.hlk]) (advance s t) v := hv ▸ aerNote_within
    have hupv : rbit v R.HLK_STATUS_LINK_UP = true := by
      rw [hv, aerNote_linkUp]
      exact hup
    have hdown : rget v R.HLK_STATUS_DOWN_EVENTS = rget s R.HLK_STATUS_DOWN_EVENTS := by
      rw [hv, aerNote, rget_rset_ne _ _ _ _ _ _ (by decide), rget_rset_ne _ _ _ _ _ _ (by decide)]
      rfl
    have hring (n : Nat) : rbit v R.RING_CFG_HOST 0 n = rbit s R.RING_CFG_HOST 0 n :=
      hwithin.rbit R.RING_CFG_HOST 0 n (by decide)
    have hcq (m : Nat) : rbit v R.CQ_CFG_HOST 0 m = rbit s R.CQ_CFG_HOST 0 m :=
      hwithin.rbit R.CQ_CFG_HOST 0 m (by decide)
    obtain ⟨hlink, hcount, -, -⟩ := hostLinkDown_fields x.d3 hupv
    rw [← hv]
    refine ⟨hlink, hcount.trans (by rw [hdown]), ?_⟩
    rw [hostLinkDown_up x.d3 hupv]
    obtain ⟨a, ha⟩ : ∃ a, a = abandonRings v fun n => rbit v R.RING_CFG_HOST 0 n := ⟨_, rfl⟩
    have hva : Within _ _ v a := ha ▸ abandonRings_within
    have hoff := hostLinkOff_within (s := cqsOff a) (d3 := x.d3)
    rw [← ha]
    refine ⟨?_, ?_, ?_⟩
    · rw [hoff.reqs_eq (by simp), (cqsOff_within (s := a)).reqs_eq (by simp), ha, abandonRings_reqs]
      intro q hq
      simpa [hring] using (List.mem_filter.mp hq).2
    · intro n hn hhost
      rw [hoff.rget _ 0 n (by decide), (cqsOff_within (s := a)).rget _ 0 n (by decide), ha]
      exact abandonRings_disables v _ hn (by rw [hring, hhost])
    · intro m hm hhost
      rw [hoff.rget _ 0 m (by decide)]
      exact cqsOff_disables hm (by rw [hva.rbit _ 0 m (by decide), hcq, hhost])
  case up =>
    intro s t w v hfab hw hlo hhi
    rw [exec_hostLinkUp t hfab, hostLinkUp_trained hw hlo hhi]

end Sys2Proof.Machine
end

section
/-! The commands of registers and rings answer a next state that holds their effect (O11); a till flush of the same fabric
cycle masks the service requester, so that TILL_ACCEPT does not take its record (O15). -/

namespace Sys2Proof.Machine

/-! ### A tail doorbell with abort doorbells of its fabric cycle before it (R72) -/

/-- Every descriptor that a tail submits waits to be fetched. -/
theorem tailTaken_new_waiting {s : State} {n idx ph : Nat} {q : Req} (hq : q ∈ (tailTaken s n idx ph).reqs)
    (hnew : q.ref ∉ s.reqs.map Req.ref) : q.stage = .waiting := by
  have hmem : q ∈ s.reqs ++ _ := hq
  obtain hold | hsub := List.mem_append.mp hmem
  · exact absurd (List.mem_map_of_mem hold) hnew
  · obtain ⟨q0, hq0, rfl⟩ := List.mem_map.mp hsub
    obtain ⟨k, -, rfl⟩ := List.mem_map.mp hq0
    rfl

/-- What the aborts of new descriptors leave of a tail that is taken. -/
structure TailStands (s : State) (n : Nat) (i : Fin 65536) (p : Fin 2) (u : State) : Prop where
  index : rget u R.RING_TAIL_INDEX 0 n = i
  phase : rget u R.RING_TAIL_PHASE 0 n = p
  count : u.reqs.length = (tailTaken s n i p).reqs.length
  waiting : ∀ q ∈ u.reqs, q.ref ∉ s.reqs.map Req.ref → q.stage = .waiting

theorem takeBack_frame (s : State) (x : Noop) :
    (takeBack s x).reqs = s.reqs ∧ RegsOnly s (takeBack s x) [R.RING_NOOP_ABORT_NOOP.key 0 x.ring] := by
  have hput (l : List Noop) : RegsOnly s { s with till := { s.till with noops := l } } [R.RING_NOOP_ABORT_NOOP.key 0 x.ring] :=
    fun _ _ => rfl
  unfold takeBack
  dsimp only
  split
  · exact ⟨rfl, hput _⟩
  · split
    · exact ⟨rfl, hput _⟩
    · exact ⟨rfl, (hput _).trans (rset_regsOnly _ _ _ _ _ (by simp))⟩

/-- An abort of a descriptor that waits to be fetched changes nothing but its mark. -/
theorem abortDescAt_of_waiting {s : State} {r : Ref} {a : Nat} (hw : ∀ q, findReq s r = some q → q.stage = .waiting) :
    abortDescAt s r a = s ∨
      abortDescAt s r a = updReq s r fun q => { q with aborted := some ⟨rowHere s, a, none⟩ } := by
  rcases hq : findReq s r with _ | q
  · left
    unfold abortDescAt abortReqAt
    rw [hq]
  · rcases hno : q.aborted with _ | m
    · exact .inr (abortDescAt_waiting a hq (hw q hq) hno)
    · left
      unfold abortDescAt abortReqAt
      rw [hq]
      simp [hno]

theorem findReq_mem {s : State} {r : Ref} {q : Req} (h : findReq s r = some q) : q ∈ s.reqs ∧ q.ref = r :=
  ⟨List.mem_of_find?_eq_some h, by simpa using List.find?_some h⟩

theorem TailStands.abort {s u : State} {n : Nat} {i : Fin 65536} {p : Fin 2} (h : TailStands s n i p u) (x : Noop)
    {r : Ref} (hr : r ∉ s.reqs.map Req.ref) : TailStands s n i p (abortDescAt (takeBack u x) r x.at_) := by
  obtain ⟨hreqs, hregs⟩ := takeBack_frame u x
  have hback : TailStands s n i p (takeBack u x) :=
    ⟨(hregs.rget _ _ _ (by simp [Fld.key_eq_iff, R.RING_TAIL_INDEX, R.RING_NOOP_ABORT_NOOP])).trans h.index,
      (hregs.rget _ _ _ (by simp [Fld.key_eq_iff, R.RING_TAIL_PHASE, R.RING_NOOP_ABORT_NOOP])).trans h.phase,
      by rw [hreqs, h.count], by rw [hreqs]; exact h.waiting⟩
  obtain heq | heq := abortDescAt_of_waiting (s := takeBack u x) (r := r) (a := x.at_) fun q hq => by
    obtain ⟨hmem, rfl⟩ := findReq_mem hq
    exact hback.waiting q hmem hr
  · rw [heq]
    exact hback
  · rw [heq]
    refine ⟨hback.index, hback.phase, (List.length_map _).trans hback.count, ?_⟩
    intro q hq hnew
    obtain ⟨q0, hq0, rfl⟩ := List.mem_map.mp hq
    split at hnew
    · simpa [*] using hback.waiting q0 hq0 hnew
    · simpa [*] using hback.waiting q0 hq0 hnew

/-- A tail that is accepted stands, whatever abort doorbells of the fabric cycle come before it. -/
theorem tailFirst_taken {s : State} {n : Nat} {i : Fin 65536} {p : Fin 2} {host : Bool}
    (hopen : tailOpen s n host = true) (hi : i.val < ringSize s n)
    (hroom : ringCount s n + ringDist (ringSize s n)
      (ringPos (ringSize s n) (rget s R.RING_TAIL_INDEX 0 n) (rget s R.RING_TAIL_PHASE 0 n))
      (ringPos (ringSize s n) i p) ≤ ringSize s n)
    (hstays : disableNow s n = false) : TailStands s n i p (tailFirst s n i p host) := by
  have htail : (if disableNow s n ∧ rbit s R.RING_CFG_HOST 0 n = host then rinc s R.RING_NOOP_DB_DISCARD 1 0 n
      else tailDoorbell s n i p host) = tailTaken s n i p := by
    rw [if_neg (by simp [hstays]), tailDoorbell_open _ _ hopen, if_neg (not_le.mpr hi), if_neg (not_lt.mpr hroom)]
  obtain ⟨hidx, hph⟩ := tailTaken_fields s n i p
  unfold tailFirst
  rw [htail]
  refine foldl_invariant (P := TailStands s n i p) ⟨hidx, hph, rfl, fun q => tailTaken_new_waiting⟩ ?_
  intro u x _ hu
  split
  · split
    next q hq =>
      have := List.find?_some hq
      exact hu.abort x (by simpa using (Bool.and_eq_true_iff.mp this).2)
    · exact hu
  · exact hu

theorem submitFrom_length (k p d n : Nat) : (submitFrom k p d n).length = d := by
  simp [submitFrom]

/-! ### The till and the completions -/

theorem tillTo_now (s : State) (c : Nat) : (tillTo s c).now = s.now :=
  (tillTo_within (s := s) (c := c)).now.resolve_left (by simp)

/-- The oldest accepted record goes to the output queue 8 fc after its acceptance. -/
theorem tillOutput_due {s : State} {a : Nat} {r : TillRec} {rest : List (Nat × TillRec)}
    (hacc : s.till.accepted = (a, r) :: rest) (hdue : a + 8 ≤ s.now) :
    (tillOutput s).till.outQ = s.till.outQ ++ outEntries r := by
  have hgrow := tillTo_tillGrows s s.now
  obtain ⟨more, hmore⟩ := hgrow.accepted
  rw [hacc, List.cons_append] at hmore
  unfold tillOutput
  dsimp only
  rw [← hmore]
  dsimp only
  rw [if_pos (by rw [tillTo_now]; exact hdue), tillMask_outQ]
  exact congrArg (· ++ outEntries r) hgrow.outQ

theorem TillGrows.accepts {s u : State} (h : TillGrows s u) {x : Nat × TillRec} (hx : x ∈ s.till.accepted) :
    x ∈ u.till.accepted := h.accepted.subset hx

theorem tillAsked_posted (s : State) : (tillAsked s).till.posted = s.till.posted := by
  unfold tillAsked
  dsimp only
  rw [(arbRequest_tillGrows _ _ _ _).posted, (tillTo_tillGrows _ _).posted, (tillMask_tillGrows _).posted]

theorem tillAsked_now (s : State) : (tillAsked s).now = s.now := by
  unfold tillAsked
  dsimp only
  rw [(arbRequest_within).now.resolve_left (by simp), tillTo_now, tillMask_now]

/-- The record that the till grants is accepted in the present fabric cycle and is posted no more. -/
theorem tillAccept_takes {s : State} {g : Grant} {r : TillRec} (hg : (arbNow (tillAsked s) 0).holder = some g)
    (hr : firstPosted (tillAsked s) g.who = some r) (hend : (getArb (tillAsked s) 0).ev.ended = false) :
    (s.now, r) ∈ (tillAccept s).till.accepted ∧ (tillAccept s).till.posted = s.till.posted.erase r := by
  rw [tillAccept_granted hg hr hend]
  have hrel := arbRelease_arbOnly (tillAsked s) 0 s.now
  have hnow : (arbRelease (tillAsked s) 0 s.now).now = s.now := by
    rw [(arbRelease_within).now.resolve_left (by simp), tillAsked_now]
  have hposted : (arbRelease (tillAsked s) 0 s.now).till.posted = s.till.posted := by
    rw [hrel.till, tillAsked_posted]
  obtain ⟨v, hv⟩ : ∃ v, v = arbRelease (tillAsked s) 0 s.now := ⟨_, rfl⟩
  rw [← hv] at hnow hposted ⊢
  obtain ⟨hleft, hmem⟩ := tillTake_till { v with till := { v.till with posted := v.till.posted.erase r } } r
  refine ⟨(tillMask_tillGrows _).accepts ?_, ((tillMask_tillGrows _).posted.trans hleft).trans ?_⟩
  · rw [← hnow]
    exact hmem
  · rw [← hposted]

theorem writeCompl_till (s : State) (r : Ref) : (writeCompl s r).till = s.till :=
  (writeCompl_within (s := s) (r := r)).till.resolve_left (by simp)

/-- An entry whose completion ring is enabled ends its descriptor. -/
theorem writeCompl_reqs {s : State} {r : Ref} {q : Req} {n time : Nat} {c : Compl} (hq : findReq s r = some q)
    (hst : q.stage = .sequenced n c time) : (writeCompl s r).reqs = s.reqs.filter fun p => p.ref != r := by
  unfold writeCompl
  rw [hq]
  dsimp only
  rw [hst]
  dsimp only
  split
  · rw [(cqCount_within).reqs_eq (by simp)]
    split
    · simp [rinc]
    · split <;> simp [rinc]
  · rfl

theorem complWrite_first {s : State} {r : Ref} {rest : List OutEntry} (h : dropPlain s.till.outQ = .completion r :: rest) :
    complWrite s = tillMask (writeCompl (rset { s with till := { s.till with outQ := rest } } R.TIL_QUEUE_FREE
      (rget s R.TIL_QUEUE_FREE + (s.till.outQ.length - (rest.length + 1)) + 1)) r) := by
  unfold complWrite
  dsimp only
  rw [h]
  rfl

theorem cqDelay_past {s : State} {m : Nat} {k : CqIrq} (hk : tblGet? s.cqIrq m = some k) (hn : 0 < k.unsignalled)
    (hd : rget s R.CQ_MOD_DELAY 0 m ≠ 0) (hpast : k.firstAt + rget s R.CQ_MOD_DELAY 0 m * 400 ≤ s.now)
    (hen : rbit s R.CQ_CFG_IRQ_EN 0 m = true) : cqDelay s m = cqRaise s m := by
  unfold cqDelay
  rw [tblGetD, hk]
  exact if_pos ⟨hn, hd, hpast, hen⟩


theorem rbit_rset_bit (s : State) (f : Fld) (b : Bool) (i j : Nat) (hw : 0 < f.width) :
    rbit (rset s f (b2n b) i j) f i j = b := by
  rw [rbit, rget_rset_self, Nat.mod_eq_of_lt]
  · cases b <;> rfl
  · calc b2n b ≤ 1 := by cases b <;> decide
      _ < 2 ^ f.width := Nat.one_lt_two_pow (by omega)

theorem queueEnable_sets (s : State) {q : QueueRegs} (i j : Nat) (on : Bool) (hq : q.sound = true) :
    rbit (queueEnable s q i j on) q.enable i j = on := by
  have hw : q.enable.width = 1 := by
    simp only [QueueRegs.sound, Bool.and_eq_true, beq_iff_eq] at hq
    exact hq.2
  have hset (u : State) (b : Bool) : rbit (rset u q.enable (b2n b) i j) q.enable i j = b :=
    rbit_rset_bit u _ b i j (by omega)
  unfold queueEnable
  split
  next hon =>
    subst hon
    split
    · assumption
    · exact hset _ true
  next hoff =>
    rw [Bool.not_eq_true] at hoff
    subst hoff
    exact hset _ false

theorem queueHead_fields (s : State) {q : QueueRegs} (i j : Nat) (idx : Fin 65536) (ph : Fin 2) (hq : q.sound = true) :
    rget (queueHead s q i j idx ph) q.headIdx i j = idx ∧ rget (queueHead s q i j idx ph) q.headPh i j = ph := by
  simp only [QueueRegs.sound, Bool.and_eq_true, decide_eq_true_eq, beq_iff_eq, List.nodup_cons, List.mem_cons,
    List.not_mem_nil, or_false, not_or, not_false_eq_true, and_true, List.nodup_nil] at hq
  obtain ⟨⟨⟨⟨⟨⟨h12, -⟩, -⟩, hidx⟩, hph⟩, -⟩, -⟩ := hq
  unfold queueHead
  rw [rget_rset_self, rget_rset_ne _ _ _ _ _ _ h12, rget_rset_self, hidx, hph]
  exact ⟨Nat.mod_eq_of_lt idx.isLt, Nat.mod_eq_of_lt ph.isLt⟩

/-- Settles O11. -/
theorem registersAndRingsComplete : Obligations.RegistersAndRingsComplete := by
  unfold Obligations.RegistersAndRingsComplete
  refine ⟨?regWrite, ?rw1c, ?rol, ?half, ?ringOn, ?ringOff, ?tail, ?abort, ?cqOn, ?cqOff, ?queue, ?queueHead, ?rrecHead,
    ?head, ?fetch, ?accept, ?output, ?compl, ?delay, ?linkDown, ?linkUp⟩
  case regWrite =>
    intro s t b inst off v hopen hoff
    rw [exec_registerWrite s t _ _ _ hoff, writeReg]
    exact congrArg _ (if_pos hopen)
  case rw1c =>
    intro s t b inst off v hopen hoff
    rw [exec_rw1cWrite s t _ _ _ hoff, clearReg]
    exact congrArg _ (if_pos hopen)
  case rol =>
    intro s t b inst off _ hoff hany
    exact exec_rolRead s t b inst hoff hany
  case half =>
    intro s t b inst off _ hoff hany
    exact exec_loHalfRead s t b inst hoff hany
  case ringOn =>
    intro s t n hfab hoff hidle hcls hcq hhost
    have hfit : ringFit (advance s t) n = true := by simp [ringFit, hidle, hcls, hcq, hhost]
    refine ⟨_, exec_ringEnable t hfab n, ?_⟩
    rw [ringEnable_fit (s := advance s t) hoff hfit]
    obtain ⟨hidx, hph, -, -, -, -, -, -, hon⟩ := ringFresh_fields (advance s t) n
    rw [ringEnabled, rbit, hon, hidx, hph]
    decide
  case ringOff =>
    intro s t n hfab hon
    rw [exec_ringDisable t hfab, ringDisable, ringEnabled_advance, if_pos hon]
    rfl
  case tail =>
    intro s t n i p h hfab hhost hon herr hi hroom hstays
    have hopen : tailOpen (advance s t) n h = true := (tailOpen_iff _ _ _).mpr ⟨hhost, hon, herr⟩
    refine ⟨_, exec_tailDb t hfab n i p h, ?_⟩
    obtain ⟨hidx, hph, hcount, -⟩ := tailFirst_taken (s := advance s t) hopen hi hroom hstays
    refine ⟨hidx, hph, ?_⟩
    rw [List.length_map, hcount]
    change (s.reqs ++ _).length = _
    rw [List.length_append, List.length_map, submitFrom_length]
    rfl
  case abort =>
    intro s t n i h q hfab hhost hopen hfind hold
    have hfind' : ((sameSlot (advance s t) n i).find? fun q => q.aborted.isNone) = some q := hfind
    rw [exec_abortDb t hfab, abortDoorbell_open (s := advance s t) hhost hopen, abortFc_of_lt (s := advance s t) hold,
      hfind']
    rfl
  case cqOn =>
    intro s t m hfab hoff
    obtain ⟨⟨-, -, -, -, hfree, hon⟩, -⟩ := cqEnable_fields (s := advance s t) hoff
    refine ⟨_, exec_cqEnable t hfab m, ?_, hfree⟩
    rw [cqEnabled, rbit, hon]
    rfl
  case cqOff =>
    intro s t m hfab hfree
    refine ⟨_, exec_cqDisable t hfab m, ?_⟩
    rw [cqDisable_unbound (s := advance s t) hfree]
    exact rbit_rset_bit (advance s t) R.CQ_CTRL_ENABLE false 0 m (by decide)
  case queue =>
    intro s t q on hfab
    exact ⟨_, exec_queueEnable t hfab q on, queueEnable_sets _ _ _ _ (queueOf_sound q)⟩
  case queueHead =>
    intro s t q i p hfab
    exact ⟨_, exec_queueHeadWrite t hfab q i p, queueHead_fields _ _ _ _ _ (queueOf_sound q)⟩
  case rrecHead =>
    intro s t i p hfab
    exact ⟨_, exec_rrecHeadWrite t hfab i p, queueHead_fields _ 0 0 i p (by decide)⟩
  case head =>
    intro s t m i p h hfab hhost hon hi hd
    refine ⟨_, exec_headDb t hfab m i p h, ?_⟩
    rw [headDoorbell_taken (s := advance s t) hhost hon hi hd]
    simp (disch := decide) only [rget_rset_self, rget_rset_ne]
    exact ⟨Nat.mod_eq_of_lt i.isLt, Nat.mod_eq_of_lt p.isLt⟩
  case fetch =>
    intro s t n q d hfab hentry hnext habort hon hcq hfree hfence hhead hchan hport
    have hready : Fetchable (advance s t) n q := ⟨hentry, hnext, hfree, hcq, habort, hon⟩
    have hport' : portMark (advance s t) n d false = advance s t := portMark_unmarked (s := advance s t) hnext hport
    have hhead' : headerError d q.phase (rget (advance s t) R.RING_CFG_CLASS 0 n) = none := hhead
    refine ⟨_, exec_descriptorFetch t hfab n d false, ?_⟩
    obtain ⟨hframe, -⟩ := dropMarks_frame (fetchState (advance s t) n q.ref d)
    rw [hport', fetchDesc_read hready hfence, hhead']
    dsimp only
    rw [if_neg (by rintro ⟨hcls, hlt⟩; have := hchan hcls; omega), hframe]
    exact ⟨rfl, rfl⟩
  case accept =>
    intro s t s1 g r hfab hs1 hg hr hend
    have hasked : s1 = tillAsked (advance s t) := hs1
    rw [hasked] at hg hr hend
    exact ⟨_, exec_tillAccept t hfab, tillAccept_takes hg hr hend⟩
  case output =>
    intro s t a r rest hfab hacc hdue
    exact ⟨_, exec_tillOutputWrite t hfab, tillOutput_due (s := advance s t) hacc hdue⟩
  case compl =>
    intro s t r rest q n time c hfab hfirst hq hst _
    refine ⟨_, exec_completionWrite t hfab, ?_⟩
    rw [complWrite_first (s := advance s t) hfirst]
    refine ⟨?_, ?_⟩
    · rw [tillMask_outQ, writeCompl_till]
      rfl
    · rw [(tillMask_within).reqs_eq (by simp)]
      exact writeCompl_reqs hq hst
  case delay =>
    intro s t m k hfab hk hn hd hpast hen
    rw [exec_cqDelayExpiry t hfab, cqDelay_past (s := advance s t) hk hn hd hpast hen]
  case linkDown =>
    intro s t x hfab hup
    have hup' : rbit (aerNote (advance s t) x.uncorr x.corr) R.HLK_STATUS_LINK_UP = true := by
      rw [aerNote_linkUp]
      exact hup
    obtain ⟨hlink, -, huncorr, hcorr⟩ := hostLinkDown_fields x.d3 hup'
    refine ⟨_, exec_hostLinkDown t hfab x, by rw [rbit, hlink]; rfl, huncorr.trans ?_, hcorr.trans ?_⟩
    · rw [aerNote, rget_rset_ne _ _ _ _ _ _ (by decide), rget_rset_self]
      exact Nat.mod_mod _ _
    · rw [aerNote, rget_rset_self]
      exact Nat.mod_mod _ _
  case linkUp =>
    intro s t w v hfab hw hlo hhi
    refine ⟨_, exec_hostLinkUp t hfab w v, ?_⟩
    rw [hostLinkUp_trained hw hlo hhi, rbit]
    simp (disch := decide) only [rget_rset_self, rget_rset_ne]
    exact ⟨rfl, Nat.mod_eq_of_lt w.isLt, Nat.mod_eq_of_lt (hhi.trans_lt (by decide))⟩

/-! ### A till flush of the same fabric cycle -/

/-- A state in which a service record of one completion stands at the till while the flush of a committed row is due in the
same fabric cycle. -/
def flushBesideAccept : State :=
  { State.reset with
    fabric := true
    reqs := [⟨0, 0, 0, true, none, .posted ⟨0, 0, none⟩, 0, none⟩]
    till := { Till.reset with posted := [⟨svc, false, [⟨0, 0, 0⟩]⟩] }
    tke := { Tke.reset with committed := true }
    pending := [.tillFlush 0 []] }

/-- The flush of the cycle masks the service requester: TILL_ACCEPT takes nothing. -/
theorem flushBesideAccept_accepts_nothing : (tillAccept (advance flushBesideAccept 0)).till.accepted = [] := by decide

/-- Refutes O15: TILL_ACCEPT takes no service record in the fabric cycle of a till flush, and the clause excludes no such
state. -/
theorem not_fetchAndTill : ¬ Obligations.FetchAndTill := by
  unfold Obligations.FetchAndTill
  rintro ⟨-, -, -, haccept, -⟩
  obtain ⟨u, hu, htill, -⟩ := haccept flushBesideAccept 0 ⟨0, 0, 0, true, none, .posted ⟨0, 0, none⟩, 0, none⟩ ⟨0, 0, none⟩
    ⟨0, 0, 0⟩ rfl rfl (by decide) (by decide) rfl rfl rfl rfl
  obtain rfl : tillAccept (advance flushBesideAccept 0) = u := Host.Outcome.next.inj ((exec_tillAccept 0 rfl).symm.trans hu)
  have := flushBesideAccept_accepts_nothing
  rw [htill] at this
  exact absurd this (by simp)

end Sys2Proof.Machine
end

section
/-! The rows of the tick engine: their commit, flush and lockstep (R80, R83, R94–R98), images and their admission (R86–R92,
R103), arming (R93), and the general service of the solver and the front end (O17–O22). -/

namespace Sys2Proof.Machine

/-! ### A forwarded row counter at a primary's edge (R251) -/

/-- A PRIMARY at a tick edge, to which a row counter has been forwarded. -/
def rewoundPair : State :=
  let s := rset (rset { State.reset with fabric := true } R.XLK_PAIR_CFG_PAIR_EN 1) R.XLK_ROLE_ROLE 2
  { s with tke := { s.tke with running := true }, xlk := { s.xlk with inbox := [(0, .rowCounter 77)] } }

theorem rewoundPair_row : rowNow (tickEdge (advance rewoundPair 0) ⟨[], []⟩ false) = 77 := by decide

/-- Refutes O17: at a PRIMARY's edge a row counter that stands in its inbox takes effect, and the row number does not rise by
one. -/
theorem not_rowCommands : ¬ Obligations.RowCommands := by
  unfold Obligations.RowCommands
  rintro ⟨hedge, -⟩
  obtain ⟨u, hu, hrow, -⟩ := hedge rewoundPair 0 ⟨[], []⟩ false rfl rfl (by decide) rfl
  obtain rfl : tickEdge (advance rewoundPair 0) ⟨[], []⟩ false = u :=
    Host.Outcome.next.inj ((atFabric_up rewoundPair 0 (fun s => tickEdge s ⟨[], []⟩ false) rfl).symm.trans hu)
  rw [rewoundPair_row] at hrow
  exact absurd hrow (by decide)

/-! ### What passes the checks of a pattern and of a table set (R88, R91, R130) -/

theorem reject_eq_none {c : Prop} [Decidable c] {e : Nat} {x : Option Nat} :
    (if c then some e else x) = none ↔ ¬ c ∧ x = none := by
  split <;> simp [*]

theorem reject_eq_admitted {c : Prop} [Decidable c] {a b : Nat} {x : PatVerdict} {p : Pattern} :
    (if c then .rejected a b else x) = .admitted p ↔ ¬ c ∧ x = .admitted p := by
  split <;> simp [*]

theorem stitchMaxN_some {n m : Nat} (h : stitchMaxN n = some m) : 1 ≤ n ∧ n ≤ 10 := by
  unfold stitchMaxN at h
  split at h
  case h_11 => cases h
  all_goals decide

/-- A stitch whose record passes R88. -/
structure StitchOk (fb : Bool) (st : Stitch) : Prop where
  known : ∃ m, stitchMaxN st.typ = some m ∧ st.n ≤ m
  some_n : 1 ≤ st.n
  offset : st.offset < st.every
  solve : fb = true → st.typ ≠ 4

/-- Number of SOLVE stitches. -/
def solveCount (l : List Stitch) : Nat := (l.filter fun st => st.typ == 4).length

theorem solveCount_cons (st : Stitch) (l : List Stitch) :
    solveCount (st :: l) = (if st.typ = 4 then 1 else 0) + solveCount l := by
  unfold solveCount
  by_cases h : st.typ = 4
  · rw [if_pos h, List.filter_cons_of_pos (by simpa using h), List.length_cons, Nat.add_comm]
  · rw [if_neg h, List.filter_cons_of_neg (by simpa using h), Nat.zero_add]

/-- What stitch records that pass have: each is as R88 demands, and of them all one at most is a SOLVE. -/
theorem checkStitches_ok {fb : Bool} {l : List (Stitch × Bool)} {loops solved : Bool}
    (h : checkStitches fb l loops solved = none) :
    (∀ st ∈ l.map (·.1), StitchOk fb st) ∧ solveCount (l.map (·.1)) + b2n solved ≤ 1 := by
  induction l generalizing loops solved with
  | nil => exact ⟨by simp, by cases solved <;> decide⟩
  | cons x l ih =>
    obtain ⟨st, clean⟩ := x
    unfold checkStitches at h
    split at h
    · cases h
    rename_i m hm
    simp only [reject_eq_none, Bool.or_eq_true, decide_eq_true_eq, not_or, Bool.not_eq_true', not_lt,
      Nat.not_le] at h
    obtain ⟨⟨⟨-, hn⟩, hmax⟩, ⟨hevery, hoff⟩, h⟩ := h
    have hst (hsolve : fb = true → st.typ ≠ 4) : StitchOk fb st := ⟨⟨m, hm, hmax⟩, hn, hoff, hsolve⟩
    have rest (k : checkStitches fb l true solved = none ∨ checkStitches fb l loops solved = none ∨
        checkStitches fb l false solved = none) (hne : st.typ ≠ 4) :
        (∀ y ∈ ((st, clean) :: l).map (·.1), StitchOk fb y) ∧ solveCount (((st, clean) :: l).map (·.1)) + b2n solved ≤ 1 := by
      have hrest : (∀ y ∈ l.map (·.1), StitchOk fb y) ∧ solveCount (l.map (·.1)) + b2n solved ≤ 1 := by
        obtain k | k | k := k <;> exact ih k
      refine ⟨List.forall_mem_cons.mpr ⟨hst fun _ => hne, hrest.1⟩, ?_⟩
      rw [List.map_cons, solveCount_cons, if_neg hne, Nat.zero_add]
      exact hrest.2
    split at h
    · rename_i htyp
      simp only [reject_eq_none, not_or, Bool.not_eq_true] at h
      obtain ⟨hfb, ⟨hsolved, -⟩, h⟩ := h
      obtain ⟨hall, hcount⟩ := ih h
      refine ⟨List.forall_mem_cons.mpr ⟨hst fun hf => absurd (hfb.symm.trans hf) (by decide), hall⟩, ?_⟩
      rw [List.map_cons, solveCount_cons, if_pos htyp, hsolved]
      exact (Nat.add_comm 1 _).le.trans hcount
    · rename_i htyp
      split at h
      · exact rest (.inl h) htyp
      · split at h
        · exact rest (.inr (.inl h)) htyp
        · exact rest (.inr (.inr (reject_eq_none.mp h).2)) htyp

theorem eraseDups_length_le (l : List Nat) : l.eraseDups.length ≤ l.length := by
  induction hn : l.length using Nat.strong_induction_on generalizing l with
  | _ n ih =>
    cases l with
    | nil => exact hn ▸ Nat.le_refl 0
    | cons a l =>
      have hle := List.length_filter_le (fun b => !b == a) l
      rw [List.length_cons] at hn
      have := ih _ (by omega) (l.filter fun b => !b == a) rfl
      rw [List.eraseDups_cons, List.length_cons]
      omega

/-- A list as long as that of its distinct entries has no entry twice. -/
theorem nodup_of_eraseDups_length {l : List Nat} (h : l.eraseDups.length = l.length) : l.Nodup := by
  induction l with
  | nil => exact List.nodup_nil
  | cons a l ih =>
    rw [List.eraseDups_cons, List.length_cons, List.length_cons, Nat.add_right_cancel_iff] at h
    have hle := List.length_filter_le (fun b => !b == a) l
    have hlen : (l.filter fun b => !b == a).length = l.length :=
      hle.antisymm (h.symm.le.trans (eraseDups_length_le _))
    have hall := List.length_filter_eq_length_iff.mp hlen
    rw [List.filter_eq_self.mpr hall] at h
    refine List.nodup_cons.mpr ⟨fun hmem => ?_, ih h⟩
    simpa using hall a hmem

/-- Settles O20. -/
theorem admittedImages : Obligations.AdmittedImages := by
  unfold Obligations.AdmittedImages
  refine ⟨fun s fb n img p h => ?_, fun n ts h => ?_⟩
  · unfold checkPattern at h
    simp only [reject_eq_admitted, not_or, Nat.not_lt] at h
    obtain ⟨-, -, -, -, ⟨-, -, -, -, -, hcount, hmax, -⟩, -, h⟩ := h
    split at h
    · cases h
    rename_i hstitches
    simp only [reject_eq_admitted, not_or, Nat.not_lt] at h
    obtain ⟨⟨hlo, hhi⟩, hcost, h⟩ := h
    cases h
    obtain ⟨hall, hsolve⟩ := checkStitches_ok hstitches
    refine ⟨rfl, hcost, hlo, hhi, ?_, ?_, hsolve, fun hfb st hst => (hall st hst).solve hfb, fun st hst => ?_⟩
    · simpa using Nat.one_le_iff_ne_zero.mpr hcount
    · simpa using hmax
    · obtain ⟨⟨m, hm, hn⟩, hone, hoff, -⟩ := hall st hst
      obtain ⟨hlow, hhigh⟩ := stitchMaxN_some hm
      exact ⟨hone, hoff, hlow, hhigh, fun k hk => Option.some.inj (hk.symm.trans hm) ▸ hn⟩
  · unfold checkTable at h
    simp only [reject_eq_none, not_or, Bool.not_eq_true', Bool.not_eq_false, Nat.not_lt, not_not] at h
    obtain ⟨-, -, hlen, ⟨hlow, hhigh, -, -, -, -, hbands, hslen, -, hdef⟩, -, hfin, -, hbounds, hweights, -, hfall,
      hloops, -⟩ := h
    refine ⟨hbands, hlow, hhigh, Nat.not_le.mp hdef, hlen.trans hslen, hlen, fun i hi => ?_, fun r hr j hj => ?_,
      fun i hi k hk hne c hc => ?_⟩
    · simp only [tsBoundsOk, tsFallbackOk, Bool.and_eq_true, List.all_eq_true, List.mem_range] at hbounds hfall
      exact ⟨hbounds.1.1 i hi, hfall.1 i hi⟩
    · simp only [tsWeightsOk, tsFinite, Bool.and_eq_true, List.all_eq_true, List.mem_range] at hweights hfin
      refine ⟨(hweights r hr).1 j hj, ?_⟩
      have hall := hfin.2 r hr
      simp only [tsNanFree, imgWords, List.all_map, List.all_eq_true, List.mem_range, Function.comp_apply] at hall
      have := hall (528 + j) (by omega)
      rwa [show tsRegion r + 4 * (528 + j) = tsRegion r + 0x840 + 4 * j by omega] at this
    · simp only [loopsValid, Bool.and_eq_true, List.all_eq_true, decide_eq_true_eq] at hloops
      obtain ⟨⟨⟨⟨⟨-, hdr⟩, -⟩, -⟩, hdup⟩, -⟩ := hloops.1
      have hnodup := (List.nodup_flatMap.mp (nodup_of_eraseDups_length (eq_of_beq hdup))).2
      refine ⟨hdr c (List.mem_flatMap.mpr ⟨i, List.mem_range.mpr hi, hc⟩), ?_⟩
      have : Std.Symm (Function.onFun List.Disjoint fun i => loopDriveNames ts i) := ⟨fun _ _ h => h.symm⟩
      exact hnodup.forall (List.mem_range.mpr hi) (List.mem_range.mpr hk) hne hc

end Sys2Proof.Machine
end

section
/-! Patterns and table sets at the tick engine (R86–R92, R103), arming (R93), and the general service of the solver and the
front end (R116–R119, R150, R159) (O19, O21, O22). -/

namespace Sys2Proof.Machine

/-! ### Descriptors at their consumers -/

section
variable {s : State} {t : Fc} {r : Ref} {cls op : Nat} {d : Desc} (hfab : s.fabric = true)
include hfab

/-- A command takes the descriptor it names. -/
theorem atFabric_desc (f : Desc → State → State) (h : heldDesc s r cls op = some d) (hd : due (advance s t) d = true) :
    atFabric t (fun s => withDesc r cls op f s) s = .next (f d (takeReq (advance s t) r)) :=
  (atFabric_up s t _ hfab).trans (congrArg _ (withDesc_due (advance s t) f h hd))

/-- A command of the TKE takes the descriptor that the TKE serves. -/
theorem atFabric_served (f : Desc → State → State) (h : heldDesc s r cls op = some d) (hd : due (advance s t) d = true)
    (hserves : tkeServes s r = true) :
    atFabric t (fun s => if tkeServes s r then withDesc r cls op f s else s) s = .next (f d (takeReq (advance s t) r)) :=
  (atFabric_up s t _ hfab).trans (congrArg _ ((if_pos (show tkeServes (advance s t) r = true from hserves)).trans
    (withDesc_due (advance s t) f h hd)))

theorem exec_patternLoad (img : List Nat) (h : heldDesc s r 1 1 = some d) (hd : due (advance s t) d = true)
    (hserves : tkeServes s r = true) (hcmd : commanding s = true) :
    exec (.patternLoad t r img) s = .next (patternLoad (takeReq (advance s t) r) r d img) :=
  (atFabric_served hfab _ h hd hserves).trans (congrArg _ (ifCommanding_yes (takeReq (advance s t) r) r _ _ hcmd))

theorem exec_tableSet (img : List Nat) (h : heldDesc s r 1 2 = some d) (hd : due (advance s t) d = true)
    (hserves : tkeServes s r = true) (hcmd : commanding s = true) :
    exec (.tableSet t r img) s = .next (tableSet (takeReq (advance s t) r) r d img) :=
  (atFabric_served hfab _ h hd hserves).trans (congrArg _ (ifCommanding_yes (takeReq (advance s t) r) r _ _ hcmd))

/-- A command that belongs to the next row acts at once in an fc without a tick edge. -/
theorem atFabric_afterEdge (c : Instr) (f : State → State) (hedge : edgeDue (advance s t) = false) :
    atFabric t (afterEdge c f) s = .next (f (advance s t)) :=
  (atFabric_up s t _ hfab).trans (congrArg _ (afterEdge_now (advance s t) c f hedge))

theorem exec_promote (h : heldDesc s r 1 3 = some d) (hd : due (advance s t) d = true)
    (hedge : edgeDue (advance s t) = false) (hserves : tkeServes s r = true) (hcmd : commanding s = true) :
    exec (.promote t r) s = .next (promote (takeReq (advance s t) r) r) := by
  refine (atFabric_afterEdge hfab (.promote t r) (fun s => servePromote s r) hedge).trans (congrArg _ ?_)
  unfold servePromote
  rw [if_pos (show tkeServes (advance s t) r = true from hserves), withDesc_due (advance s t) _ h hd,
    ifCommanding_yes (takeReq (advance s t) r) r _ _ hcmd]

theorem exec_patternAdmission (ecc : Bool) (hedge : edgeDue (advance s t) = false) :
    exec (.patternAdmission t ecc) s = .next (patternAdmission (advance s t) ecc) :=
  atFabric_afterEdge hfab (.patternAdmission t ecc) (fun s => patternAdmission s ecc) hedge

theorem exec_tableSetCheck (ecc : Bool) (hedge : edgeDue (advance s t) = false) :
    exec (.tableSetCheck t ecc) s = .next (tableSetCheck (advance s t) ecc) :=
  atFabric_afterEdge hfab (.tableSetCheck t ecc) (fun s => tableSetCheck s ecc) hedge

theorem exec_tkeArm (saved : Bool) : exec (.tkeArm t saved) s = .next (armTke (advance s t) saved) :=
  atFabric_up s t (fun s => armTke s saved) hfab

theorem exec_tkeDisarm : exec (.tkeDisarm t) s = .next (disarmTke (advance s t)) := atFabric_up s t disarmTke hfab

end

/-! ### The end of a pattern's copy (R91, R92) -/

/-- A load for the main slot, or of a TKE that is not armed, is checked for its length alone. -/
theorem patternLoad_open {s : State} (r : Ref) {d : Desc} (img : List Nat) (h : d.classWord % 2 = 0 ∨ tkeArmed s = false) :
    patternLoad s r d img = if 0x200000 < d.word 0x18 then completeTke s r stRejectFormat 0x0107
      else if d.word 0x18 < 64 then completeTke s r stRejectFormat 0x0108
      else { s with tke := { s.tke with loadPat := some (r, d.classWord % 2, img) } } :=
  if_neg (by rintro ⟨hone, harm⟩; obtain hzero | hoff := h <;> simp_all)

/-- What the end of the copy does with a pattern whose verdict it finds. -/
theorem patternAdmission_checked {s : State} {r : Ref} {n : Nat} {img : List Nat} {d : Desc}
    (hload : s.tke.loadPat = some (r, n, img)) (hd : reqDesc s r = some d) :
    patternAdmission s false =
      (let s1 := { s with tke := { s.tke with loadPat := none } }
      match checkPattern s (n == 1) (d.word 0x18) img with
      | .rejected st e => completeTke s1 r st e
      | .admitted p =>
        if n = 1 then
          if tkeArmed s then completeTke s1 r stRejectState 0x0201
          else completeTke { s1 with tke := { s1.tke with fallback := some p } } r stDone (costPermille p.cost (windowNow s))
        else admitMain s1 p r (costPermille p.cost (windowNow s))) := by
  unfold patternAdmission
  rw [hload]
  dsimp only
  rw [hd]
  rfl

theorem patternAdmission_ecc {s : State} {r : Ref} {n : Nat} {img : List Nat} (hload : s.tke.loadPat = some (r, n, img)) :
    patternAdmission s true = completeTke { s with tke := { s.tke with loadPat := none } } r stEccFatal 0 := by
  unfold patternAdmission
  rw [hload]
  rfl

/-- What a completion makes of the descriptors depends on them alone. -/
theorem complete_reqs_congr {s u : State} (h : u.reqs = s.reqs) (r : Ref) (status detail : Nat) (row : Option Nat) :
    (complete u r status detail row).reqs = (complete s r status detail row).reqs := by
  have hfind : findReq u r = findReq s r := by rw [findReq, findReq, h]
  unfold complete
  rw [hfind]
  split
  · exact h
  · exact congrArg (List.map fun q => if q.ref == r then { q with stage := .posted ⟨status, detail % 2 ^ 16, row⟩ } else q) h

theorem supersedePattern_none {s : State} (h : s.tke.pending = none) : supersedePattern s = s := by
  unfold supersedePattern
  rw [h]

theorem supersedePattern_some {s : State} {p : PendPat} (h : s.tke.pending = some p) : supersedePattern s =
    rinc (completeTkeOpt { s with tke := { s.tke with pending := none } } p.ref stDone 1) R.TKE_TABLE_STATE_SUPERSEDED := by
  unfold supersedePattern
  rw [h]

/-- A pattern that becomes pending supersedes the one that was. -/
theorem pendPattern_supersedes {s : State} (q : PendPat) {p : PendPat} {r : Ref} (hp : s.tke.pending = some p)
    (hr : p.ref = some r) :
    (pendPattern s q).tke = { s.tke with pending := some { q with at_ := s.now } } ∧
    (pendPattern s q).reqs = (complete s r stDone 1 (some (rowHere s))).reqs ∧
    rget (pendPattern s q) R.TKE_TABLE_STATE_SUPERSEDED =
      satTo R.TKE_TABLE_STATE_SUPERSEDED.width (rget s R.TKE_TABLE_STATE_SUPERSEDED + 1) ∧
    RegsOnly s (pendPattern s q) [R.TKE_TABLE_STATE_SUPERSEDED.key 0 0] := by
  have hc := complete_within (s := { s with tke := { s.tke with pending := none } }) (r := r)
    (status := stDone) (detail := 1) (row := some (rowHere s))
  have hregs := hc.regs.resolve_left (by simp)
  unfold pendPattern
  rw [supersedePattern_some hp, hr]
  refine ⟨?_, ?_, ?_, ?_⟩
  · have htke := hc.tke.resolve_left (by simp)
    exact congrArg (fun k : Tke => { k with pending := some { q with at_ := s.now } }) htke
  · exact complete_reqs_congr (s := s) (u := { s with tke := { s.tke with pending := none } }) rfl r stDone 1 (some (rowHere s))
  · refine (rget_rinc_self _ _ _ _ _).trans (congrArg (fun n => satTo _ (n + 1)) (rget_congr hregs _ _ _))
  · exact RegsOnly.trans (.of_eq _ hregs) (rset_regsOnly _ _ _ _ _ (by simp))

theorem admitMain_disarmed {s : State} (p : Pattern) (r : Ref) (e : Nat) (harm : tkeArmed s = false)
    (hpend : s.tke.pending = none) :
    admitMain s p r e = completeTke { s with tke := { s.tke with main := some p } } r stDone e := by
  unfold admitMain
  rw [if_neg (by simp [harm]), supersedePattern_none hpend]

theorem admitMain_armed {s : State} (p : Pattern) (r : Ref) (e : Nat) (harm : tkeArmed s = true)
    (hfwd : forwarding s = false) :
    admitMain s p r e = pendPattern s { pat := p, ref := some r, at_ := s.now, detail := e } := by
  unfold admitMain
  rw [if_pos harm]
  dsimp only
  rw [if_neg (by simp [hfwd])]

/-! ### The end of a table set's copy (R103, R130) -/

/-- A field that does not hold the row counter says nothing of the present row. -/
theorem rowHere_rset (s : State) {f : Fld} (v i j : Nat) (hlo : R.TKE_ROW_LO_ROW.id ≠ f.id) (hhi : R.TKE_ROW_HI_ROW.id ≠ f.id) :
    rowHere (rset s f v i j) = rowHere s := by
  simp only [rowHere, rowNow, rget64, edgeDue, rget_rset_ne _ _ _ _ _ _ hlo, rget_rset_ne _ _ _ _ _ _ hhi, rset_tke, rset_now]

theorem tableSetCheck_ecc {s : State} {r : Ref} {b : Nat} {img : List Nat} (hload : s.tke.loadTbl = some (r, b, img)) :
    tableSetCheck s true = completeTke (rset { s with tke := { s.tke with loadTbl := none } }
      R.TKE_TABLE_STATE_LOADING_BUF 3) r stEccFatal 0 := by
  unfold tableSetCheck
  rw [hload]
  rfl

theorem tableSetCheck_checked {s : State} {r : Ref} {b : Nat} {img : List Nat} {d : Desc}
    (hload : s.tke.loadTbl = some (r, b, img)) (hd : reqDesc s r = some d) :
    tableSetCheck s false =
      (let s1 := rset { s with tke := { s.tke with loadTbl := none } } R.TKE_TABLE_STATE_LOADING_BUF 3
      match checkTable (d.word 0x18) img with
      | some e => completeTke s1 r stRejectFormat e
      | none =>
        let s2 := { s1 with tke := { s1.tke with bufs := tblSet s1.tke.bufs b img } }
        if forwarding s then
          resyncSend { s2 with xlk := { s2.xlk with forwards := s2.xlk.forwards ++ [.table r b s.now] } } (effectRow s)
            (.pendingTable img)
        else pendTable s2 (some r) b) := by
  unfold tableSetCheck
  rw [hload]
  dsimp only
  rw [hd]
  rfl

/-- A set that passes its checks, and is not forwarded first, becomes PENDING. -/
theorem tableSetCheck_passed {s : State} {r : Ref} {b : Nat} {img : List Nat} {d : Desc}
    (hload : s.tke.loadTbl = some (r, b, img)) (hd : reqDesc s r = some d) (hcheck : checkTable (d.word 0x18) img = none)
    (hfwd : forwarding s = false) :
    tableSetCheck s false = pendTable (rset { s with tke := { s.tke with loadTbl := none, bufs := tblSet s.tke.bufs b img } }
      R.TKE_TABLE_STATE_LOADING_BUF 3) (some r) b := by
  rw [tableSetCheck_checked hload hd, hcheck]
  exact if_neg (by simp [hfwd])

theorem supersedeTable_fields (s : State) : (supersedeTable s).tke =
      { s.tke with pendTbl := none, bufs := (supersedeTable s).tke.bufs } ∧
    RegsOnly s (supersedeTable s) [R.TKE_TABLE_STATE_PENDING_BUF.key 0 0, R.TKE_TABLE_STATE_SUPERSEDED.key 0 0] ∧
    (s.tke.pendTbl = none → supersedeTable s = s) := by
  unfold supersedeTable
  split
  · rename_i old a h
    refine ⟨?_, ?_, fun hn => absurd (hn.symm.trans h) (by simp)⟩
    · rw [show ∀ x : State, (rinc x R.TKE_TABLE_STATE_SUPERSEDED).tke = x.tke from fun _ => rfl,
        (completeTkeOpt_within).tke.resolve_left (by simp)]
      rfl
    · refine RegsOnly.trans (u := completeTkeOpt _ old stDone 1) ?_ (rset_regsOnly _ _ _ _ _ (by simp))
      refine RegsOnly.trans ?_ (.of_eq _ ((completeTkeOpt_within).regs.resolve_left (by simp)))
      exact rset_regsOnly { s with tke := _ } _ _ _ _ (by simp)
  · rename_i h
    exact ⟨by rw [← h], .of_eq _ rfl, fun _ => rfl⟩

/-- A set that passes its checks becomes PENDING in its buffer. -/
theorem pendTable_fields (s : State) (r : Option Ref) {b : Nat} (hb : b ≤ 2) :
    rget (pendTable s r b) R.TKE_TABLE_STATE_PENDING_BUF = b ∧
    RegsOnly s (pendTable s r b) [R.TKE_TABLE_STATE_PENDING_BUF.key 0 0, R.TKE_TABLE_STATE_SUPERSEDED.key 0 0] ∧
    (pendTable s r b).tke = { s.tke with pendTbl := some (r, s.now), bufs := (pendTable s r b).tke.bufs } ∧
    (s.tke.pendTbl = none → (pendTable s r b).tke.bufs = s.tke.bufs ∧ (pendTable s r b).reqs = s.reqs) := by
  obtain ⟨htke, hregs, hnone⟩ := supersedeTable_fields s
  have hnow : (supersedeTable s).now = s.now := (supersedeTable_within).now.resolve_left (by simp)
  unfold pendTable
  dsimp only
  refine ⟨?_, ?_, ?_, fun h => ?_⟩
  · rw [rget_rset_self]
    exact Nat.mod_eq_of_lt (Nat.lt_of_le_of_lt hb (by decide))
  · exact hregs.trans (rset_regsOnly { supersedeTable s with tke := _ } _ _ _ _ (by simp))
  · rw [rset_tke, htke, hnow]
  · rw [hnone h]
    exact ⟨rfl, rfl⟩

theorem promote_due {s : State} (r : Ref) (harm : tkeArmed s = false ∨ rbit s R.TKE_CTRL_FALLBACK_ACTIVE = true)
    (hrow : s.tke.rowArmed = false ∨ (s.tke.rowFallback = true ∧ rbit s R.TKE_CTRL_STOPPED = false)) :
    promote s r = { s with tke := { s.tke with promote := s.tke.promote ++ [r] } } := by
  unfold promote
  refine if_neg ?_
  obtain h | h := harm <;> obtain k | ⟨k, m⟩ := hrow <;> simp [*]

/-- Settles O19. -/
theorem patternsAndTables : Obligations.PatternsAndTables := by
  unfold Obligations.PatternsAndTables
  refine ⟨?load, ?loadArmed, ?loadShort, ?loadLong, ?ecc, ?rejected, ?main, ?fallback, ?pending, ?set, ?setShort, ?setEcc,
    ?setRejected, ?setPending, ?promote, ?refused⟩
  case load =>
    intro s t r d img hfab hdesc hdue hserves hcmd hslot hlow hhigh
    rw [exec_patternLoad hfab img hdesc hdue hserves hcmd, patternLoad_open (s := takeReq (advance s t) r) r img hslot,
      if_neg (Nat.not_lt.mpr hhigh), if_neg (Nat.not_lt.mpr hlow)]
    rfl
  case loadArmed =>
    intro s t r d img hfab hdesc hdue hserves hcmd hslot harm
    rw [exec_patternLoad hfab img hdesc hdue hserves hcmd]
    exact congrArg _ (if_pos ⟨hslot, harm⟩)
  case loadShort =>
    intro s t r d img hfab hdesc hdue hserves hcmd hslot hlow
    rw [exec_patternLoad hfab img hdesc hdue hserves hcmd, patternLoad_open (s := takeReq (advance s t) r) r img hslot,
      if_neg (by omega), if_pos hlow]
    rfl
  case loadLong =>
    intro s t r d img hfab hdesc hdue hserves hcmd hslot hhigh
    rw [exec_patternLoad hfab img hdesc hdue hserves hcmd, patternLoad_open (s := takeReq (advance s t) r) r img hslot,
      if_pos hhigh]
    rfl
  case ecc =>
    intro s t r d img n hfab hedge hload _
    rw [exec_patternAdmission hfab true hedge, patternAdmission_ecc (s := advance s t) hload]
    rfl
  case rejected =>
    intro s t r d img n st e hfab hedge hload hd hcheck
    rw [exec_patternAdmission hfab false hedge, patternAdmission_checked (s := advance s t) hload hd,
      show checkPattern (advance s t) (n == 1) (d.word 0x18) img = _ from hcheck]
    rfl
  case main =>
    intro s t r d img p hfab hedge hload hd hcheck harm hpend
    rw [exec_patternAdmission hfab false hedge, patternAdmission_checked (s := advance s t) hload hd,
      show checkPattern (advance s t) (0 == 1) (d.word 0x18) img = _ from hcheck]
    exact congrArg _ (admitMain_disarmed (s := { advance s t with tke := { s.tke with loadPat := none } }) p r _ harm hpend)
  case fallback =>
    intro s t r d img p hfab hedge hload hd hcheck harm
    rw [exec_patternAdmission hfab false hedge, patternAdmission_checked (s := advance s t) hload hd,
      show checkPattern (advance s t) (1 == 1) (d.word 0x18) img = _ from hcheck]
    exact congrArg _ (if_neg (show ¬ tkeArmed s = true by simp [harm]))
  case pending =>
    intro s t r d img p q r0 a e hfab hedge hload hd hcheck harm hfwd hpend
    obtain ⟨s1, hs1⟩ : ∃ s1, s1 = { advance s t with tke := { s.tke with loadPat := none } } := ⟨_, rfl⟩
    have hexec : exec (.patternAdmission t false) s = .next (pendPattern s1
        { pat := p, ref := some r, at_ := s1.now, detail := costPermille p.cost (windowNow s) }) := by
      rw [exec_patternAdmission hfab false hedge, patternAdmission_checked (s := advance s t) hload hd,
        show checkPattern (advance s t) (0 == 1) (d.word 0x18) img = _ from hcheck, hs1]
      exact congrArg _ (admitMain_armed (s := { advance s t with tke := { s.tke with loadPat := none } }) p r _ harm hfwd)
    have hw : Within [.regs, .tke, .reqs, .till] (blks [.tke]) (advance s t) (pendPattern s1
        { pat := p, ref := some r, at_ := s1.now, detail := costPermille p.cost (windowNow s) }) := by
      rw [hs1]
      exact pendPattern_within.step (within_tke (.refl _) rfl) rfl rfl
    obtain ⟨htke, hreqs, hsup, hregs⟩ := pendPattern_supersedes (s := s1)
      { pat := p, ref := some r, at_ := s1.now, detail := costPermille p.cost (windowNow s) } (p := ⟨q, some r0, a, e⟩)
      (by rw [hs1]; exact hpend) rfl
    refine ⟨_, hexec, ?_, ?_, ?_, ?_, ?_, hw.eq_frame⟩
    · rw [htke, hs1]
    · rw [htke, hs1]
      rfl
    · rw [hreqs, hs1]
      exact complete_reqs_congr (s := s) (u := { advance s t with tke := { s.tke with loadPat := none } }) rfl r0 stDone 1
        (some (rowHere (advance s t)))
    · rw [hsup, hs1]
      rfl
    · rw [hs1] at hregs ⊢
      exact hregs
  case set =>
    intro s t r d img hfab hdesc hdue hserves hcmd hlow hhigh
    rw [exec_tableSet hfab img hdesc hdue hserves hcmd]
    unfold tableSet
    dsimp only
    rw [if_neg (Nat.not_lt.mpr hhigh), if_neg (Nat.not_lt.mpr hlow)]
    rfl
  case setShort =>
    intro s t r d img hfab hdesc hdue hserves hcmd hlow
    rw [exec_tableSet hfab img hdesc hdue hserves hcmd]
    unfold tableSet
    dsimp only
    rw [if_neg (by omega), if_pos hlow]
    rfl
  case setEcc =>
    intro s t r d b img hfab hedge hload _
    rw [exec_tableSetCheck hfab true hedge, tableSetCheck_ecc (s := advance s t) hload, completeTke,
      rowHere_rset _ _ _ _ (by decide) (by decide)]
    rfl
  case setRejected =>
    intro s t r d b img e hfab hedge hload hd hcheck
    rw [exec_tableSetCheck hfab false hedge, tableSetCheck_checked (s := advance s t) hload hd, hcheck]
    dsimp only
    rw [completeTke, rowHere_rset _ _ _ _ (by decide) (by decide)]
    rfl
  case setPending =>
    intro s t r d b img hfab hedge hload hd hcheck hfwd hb
    rw [exec_tableSetCheck hfab false hedge, tableSetCheck_passed (s := advance s t) hload hd hcheck hfwd]
    obtain ⟨s1, hs1⟩ : ∃ s1, s1 = rset { advance s t with tke := { s.tke with loadTbl := none, bufs := tblSet s.tke.bufs b img } }
      R.TKE_TABLE_STATE_LOADING_BUF 3 := ⟨_, rfl⟩
    have hw : Within [.regs, .reqs, .till, .tke] (blks [.tke]) (advance s t) (pendTable s1 (some r) b) := by
      rw [hs1]
      exact pendTable_within.step (rset_within.step (within_tke (.refl _) rfl) rfl rfl) rfl rfl
    obtain ⟨hbuf, hregs, htke, hnone⟩ := pendTable_fields s1 (some r) hb
    refine ⟨pendTable s1 (some r) b, by rw [hs1]; rfl, hbuf, ?_, ?_, ?_, ?_, fun h => ?_, hw.blocksOnly, hw.eq_frame⟩
    · rw [hregs.rget _ _ _ (by decide), hs1]
      exact rget_rset_self _ _ _ _ _
    · rw [hregs.rget _ _ _ (by decide), hs1]
      exact rget_rset_ne _ _ _ _ _ _ (by decide)
    · rw [htke, hs1]
      rfl
    · rw [htke, hs1]
      rfl
    · obtain ⟨hbufs, hreqs⟩ := hnone (by rw [hs1]; exact h)
      rw [hbufs, hreqs, hs1]
      exact ⟨tblGet?_set_self _ _ _, rfl⟩
  case promote =>
    intro s t r d hfab hdesc hdue hedge hserves hcmd harm hrow
    rw [exec_promote hfab hdesc hdue hedge hserves hcmd]
    exact congrArg _ (promote_due (s := takeReq (advance s t) r) r harm hrow)
  case refused =>
    intro s t r d hfab hdesc hdue hedge hserves hcmd harm hfb
    rw [exec_promote hfab hdesc hdue hedge hserves hcmd]
    refine congrArg _ (if_pos ?_)
    rw [show tkeArmed (takeReq (advance s t) r) = true from harm,
      show rbit (takeReq (advance s t) r) R.TKE_CTRL_FALLBACK_ACTIVE = false from hfb]
    rfl

end Sys2Proof.Machine
end

section
/-! Arming and disarming the tick engine (R93, R98), and the general service of the solver and the front end (R116–R119,
R150, R159) (O21, O22). -/

namespace Sys2Proof.Machine

/-! ### Arming -/

/-- The TKE as arming leaves it, before it takes its role. -/
def armBase (s : State) : State :=
  let s1 := modTke (rset s R.TKE_CTRL_ARM_ERR 0) fun t =>
    { t with main := t.main.map (recosted s), fallback := t.fallback.map (recosted s) }
  let s2 := rset (rset (rset s1 R.TKE_CTRL_ARM 1) R.TKE_CTRL_ARMED 1) R.TKE_CTRL_STOPPED 0
  armFresh (rset (rset s2 R.TKE_CTRL_FALLBACK_ACTIVE 0) R.TKE_OVERRUN_CONSEC 0)

theorem armTke_passes {s : State} (saved : Bool) (harm : tkeArmed s = false) (herr : armError s = 0) :
    armTke s saved = armRole (armBase s) saved := by
  unfold armTke
  rw [if_neg (by simp [harm])]
  dsimp only
  rw [herr, if_neg (by simp)]
  rfl

theorem armTke_fails {s : State} (saved : Bool) (harm : tkeArmed s = false) (herr : armError s ≠ 0) :
    armTke s saved = rset (rset s R.TKE_CTRL_ARM_ERR (armError s)) R.TKE_CTRL_ARM 0 := by
  unfold armTke
  rw [if_neg (by simp [harm])]
  exact if_pos herr

/-- What the registers of the TKE read once it has been armed. -/
structure ArmedRegs (s : State) : Prop where
  armed : tkeArmed s = true
  arm : rget s R.TKE_CTRL_ARM = 1
  err : rget s R.TKE_CTRL_ARM_ERR = 0
  stopped : rget s R.TKE_CTRL_STOPPED = 0
  fallback : rget s R.TKE_CTRL_FALLBACK_ACTIVE = 0
  consec : rget s R.TKE_OVERRUN_CONSEC = 0

theorem armBase_regs (s : State) : ArmedRegs (armBase s) := by
  have h (f : Fld) : rget (armBase s) f = rget (rset (rset (rset (rset (rset (rset s R.TKE_CTRL_ARM_ERR 0) R.TKE_CTRL_ARM 1)
    R.TKE_CTRL_ARMED 1) R.TKE_CTRL_STOPPED 0) R.TKE_CTRL_FALLBACK_ACTIVE 0) R.TKE_OVERRUN_CONSEC 0) f := rfl
  constructor
  · rw [tkeArmed, rbit, h]
    simp (disch := decide) only [rget_rset_self, rget_rset_ne]
    rfl
  all_goals
    rw [h]
    simp (disch := decide) only [rget_rset_self, rget_rset_ne]
    rfl

theorem ArmedRegs.within {ps : List Part} {bs : List Nat} {s u : State} (h : ArmedRegs s) (k : Within ps bs s u)
    (hb : ∀ f ∈ [R.TKE_CTRL_ARMED, R.TKE_CTRL_ARM], f.id / 128 ∉ bs) : ArmedRegs u := by
  have hblk : R.TKE_CTRL_ARMED.id / 128 ∉ bs := hb _ (by simp)
  have read (f : Fld) (hf : f.id / 128 = R.TKE_CTRL_ARMED.id / 128) : rget u f = rget s f := k.rget f 0 0 (hf ▸ hblk)
  refine ⟨?_, (read _ (by decide)).trans h.arm, (read _ (by decide)).trans h.err, (read _ (by decide)).trans h.stopped,
    (read _ (by decide)).trans h.fallback, (read _ (by decide)).trans h.consec⟩
  rw [tkeArmed, rbit, read _ rfl]
  exact h.armed

theorem armBase_within {s : State} : Within [.regs, .tke, .sps, .sfe] (blks [.tke]) s (armBase s) :=
  armFresh_within.step (rset_within.step (rset_within.step (rset_within.step (rset_within.step (rset_within.step
    (modTke_within.step (rset_within.step (.refl s) rfl rfl) rfl rfl) rfl rfl) rfl rfl) rfl rfl) rfl rfl) rfl rfl) rfl rfl

theorem becomeCommander_fields (s : State) {r : Nat} (hr : r < 8) (saved : Bool) :
    rget (becomeCommander s r saved) R.XLK_ROLE_ROLE = r ∧
    rget (becomeCommander s r saved) R.XLK_BID_BID = (nextEpoch s * 256 + rankOf s) % 2 ^ 32 ∧
    (saved = true → (becomeCommander s r saved).xlk.savedEpoch = nextEpoch s) := by
  have hrole (s : State) : rget (rset s R.XLK_ROLE_ROLE r) R.XLK_ROLE_ROLE = r :=
    (rget_rset_self _ _ _ _ _).trans (Nat.mod_eq_of_lt hr)
  have hbid (s : State) (v : Nat) : rget (rset (rset s R.XLK_BID_BID v) R.XLK_ROLE_ROLE r) R.XLK_BID_BID = v % 2 ^ 32 := by
    simp (disch := decide) only [rget_rset_self, rget_rset_ne]
    rfl
  obtain ⟨s1, hs1⟩ : ∃ s1, s1 = rset (rset s R.XLK_BID_BID (nextEpoch s * 256 + rankOf s)) R.XLK_ROLE_ROLE r := ⟨_, rfl⟩
  have hfields : rget s1 R.XLK_ROLE_ROLE = r ∧ rget s1 R.XLK_BID_BID = (nextEpoch s * 256 + rankOf s) % 2 ^ 32 := by
    rw [hs1]
    exact ⟨hrole _, hbid s _⟩
  have heq : becomeCommander s r saved = if saved then { s1 with xlk := { s1.xlk with savedEpoch := nextEpoch s } }
      else raiseEv s1 evPairEpochUnsaved := by
    rw [hs1]
    rfl
  cases saved with
  | true =>
    rw [heq, if_pos rfl]
    exact ⟨hfields.1, hfields.2, fun _ => rfl⟩
  | false =>
    rw [heq, if_neg (by decide)]
    refine ⟨?_, ?_, fun h => absurd h (by decide)⟩
    · exact (rget_raiseEv _ _ _ _ _ _ _ (by decide)).trans hfields.1
    · exact (rget_raiseEv _ _ _ _ _ _ _ (by decide)).trans hfields.2

theorem nextEpoch_armBase (s : State) : nextEpoch (armBase s) = nextEpoch s ∧ rankOf (armBase s) = rankOf s ∧
    pairEn (armBase s) = pairEn s ∧ rowNow (armBase s) = rowNow s := by
  have h (f : Fld) (i : Nat) : rget (armBase s) f i = rget (rset (rset (rset (rset (rset (rset s R.TKE_CTRL_ARM_ERR 0)
    R.TKE_CTRL_ARM 1) R.TKE_CTRL_ARMED 1) R.TKE_CTRL_STOPPED 0) R.TKE_CTRL_FALLBACK_ACTIVE 0) R.TKE_OVERRUN_CONSEC 0) f i := rfl
  have hx : (armBase s).xlk = s.xlk := rfl
  simp (disch := decide) only [nextEpoch, rankOf, pairEn, rowNow, rget64, rbit, h, hx, rget_rset_ne, and_self]

/-- Disarming clears ARM and ARMED, and CONSEC unless the row's commit point is due. -/
theorem disarmTke_fields (s : State) : tkeArmed (disarmTke s) = false ∧ rget (disarmTke s) R.TKE_CTRL_ARM = 0 ∧
    (s.tke.rowArmed = false → rget (disarmTke s) R.TKE_OVERRUN_CONSEC = 0) ∧
    RegsOnly s (disarmTke s) [R.TKE_CTRL_ARM.key 0 0, R.TKE_CTRL_ARMED.key 0 0, R.TKE_OVERRUN_CONSEC.key 0 0] := by
  obtain ⟨s1, hs1⟩ : ∃ s1, s1 = rset (rset s R.TKE_CTRL_ARM 0) R.TKE_CTRL_ARMED 0 := ⟨_, rfl⟩
  obtain ⟨v, hv⟩ : ∃ v, v = if s.tke.rowArmed && !s.tke.committed && decide (commitAt s ≤ s.now) then s1
    else rset s1 R.TKE_OVERRUN_CONSEC 0 := ⟨_, rfl⟩
  have hregs : (disarmTke s).regs = v.regs := by
    rw [hv, hs1]
    rfl
  have hread (f : Fld) : rget (disarmTke s) f = rget v f := rget_congr hregs f 0 0
  have hones : rget v R.TKE_CTRL_ARMED = 0 ∧ rget v R.TKE_CTRL_ARM = 0 := by
    rw [hv]
    split <;> subst hs1 <;> simp (disch := decide) only [rget_rset_self, rget_rset_ne, Nat.zero_mod, and_self]
  refine ⟨?_, (hread _).trans hones.2, fun h => (hread _).trans ?_, ?_⟩
  · rw [tkeArmed, rbit, hread, hones.1]
    rfl
  · rw [hv, h]
    exact rget_rset_self _ _ _ _ _
  · refine RegsOnly.trans (u := v) ?_ (.of_eq _ hregs)
    have hs : RegsOnly s s1 [R.TKE_CTRL_ARM.key 0 0, R.TKE_CTRL_ARMED.key 0 0, R.TKE_OVERRUN_CONSEC.key 0 0] := by
      rw [hs1]
      exact (rset_regsOnly _ _ _ _ _ (by simp)).trans (rset_regsOnly _ _ _ _ _ (by simp))
    rw [hv]
    split
    · exact hs
    · exact hs.trans (rset_regsOnly _ _ _ _ _ (by simp))

/-- Settles O21. -/
theorem tickArming : Obligations.TickArming := by
  unfold Obligations.TickArming
  refine ⟨?single, ?paired, ?fails, ?noMain, ?offset, ?disarm⟩
  case single =>
    intro s t saved hfab harm herr hpair
    obtain ⟨hepoch, hrank, hpe, hrow⟩ := nextEpoch_armBase (advance s t)
    have hu : armTke (advance s t) saved = becomeCommander (armBase (advance s t)) 0 saved := by
      rw [armTke_passes (s := advance s t) saved harm herr]
      exact if_neg (by rw [hpe, show pairEn (advance s t) = false from hpair]; decide)
    have hw := becomeCommander_within (s := armBase (advance s t)) (r := 0) (saved := saved)
    obtain ⟨hrole, hbid, hsaved⟩ := becomeCommander_fields (armBase (advance s t)) (r := 0) (by decide) saved
    obtain ⟨harmed, hon, herr0, hstop, hfb, hcons⟩ := (armBase_regs (advance s t)).within hw (by decide)
    refine ⟨_, (exec_tkeArm hfab saved).trans (congrArg _ hu), harmed, hon, herr0, hstop, hfb, hcons, hrole, ?_,
      fun h => ?_, hw.sps.resolve_left (by simp), hw.sfe.resolve_left (by simp), hw.tke.resolve_left (by simp), ?_, ?_⟩
    · rw [hbid, hepoch, hrank]
      rfl
    · rw [hsaved h, hepoch]
      rfl
    · exact (hw.step (armBase_within.mono rfl rfl) rfl rfl :
        Within [.regs, .mem, .extMem, .log, .xlk, .tke, .sps, .sfe] (blks [.tke, .xlk, .hlm, .jrn]) _ _).blocksOnly
    · exact (hw.step (armBase_within.mono rfl rfl) rfl rfl :
        Within [.regs, .tke, .sps, .sfe, .xlk, .log, .mem, .extMem] (blks [.tke, .xlk, .hlm, .jrn]) _ _).eq_frame
  case paired =>
    intro s t saved hfab harm herr hpair
    obtain ⟨-, hrank, hpe, hrow⟩ := nextEpoch_armBase (advance s t)
    obtain ⟨b, hb⟩ : ∃ b, b = armBase (advance s t) := ⟨_, rfl⟩
    rw [← hb] at hrank hpe hrow
    obtain ⟨s1, hs1⟩ : ∃ s1, s1 = rset (rset b R.XLK_ROLE_ROLE 1) R.XLK_BID_BID (b.xlk.savedEpoch * 256 + rankOf b) :=
      ⟨_, rfl⟩
    obtain ⟨u, hu⟩ : ∃ u, u = { s1 with xlk := { s1.xlk with startRow := rowNow b, lastHb := none, swDisarmed := false } } :=
      ⟨_, rfl⟩
    have harmu : armTke (advance s t) saved = u := by
      rw [armTke_passes (s := advance s t) saved harm herr, ← hb, hu, hs1]
      exact if_pos (by rw [hpe]; exact hpair)
    have hw : Within [.regs, .xlk] (blks [.xlk]) b u := by
      rw [hu, hs1]
      exact within_xlk (rset_within.step (rset_within.step (.refl b) rfl rfl) rfl rfl) rfl
    have hw' : Within [.regs, .tke, .sps, .sfe, .xlk] (blks [.tke, .xlk]) (advance s t) u :=
      hw.step (hb ▸ armBase_within.mono rfl rfl) rfl rfl
    obtain ⟨harmed, hon, herr0, hstop, hfb, hcons⟩ := (hb ▸ armBase_regs (advance s t) : ArmedRegs b).within hw (by decide)
    have hx : b.xlk = s.xlk := by
      rw [hb]
      rfl
    have hrole : rget s1 R.XLK_ROLE_ROLE = 1 ∧ rget s1 R.XLK_BID_BID = (b.xlk.savedEpoch * 256 + rankOf b) % 2 ^ 32 := by
      rw [hs1]
      simp (disch := decide) only [rget_rset_self, rget_rset_ne]
      exact ⟨rfl, rfl⟩
    have hread (f : Fld) : rget u f = rget s1 f := by rw [hu]; rfl
    refine ⟨u, (exec_tkeArm hfab saved).trans (congrArg _ harmu), harmed, hon, herr0, hstop, hfb, hcons,
      (hread _).trans hrole.1, (hread _).trans (hrole.2.trans ?_), ?_, ?_, ?_, ?_, ?_, hw'.blocksOnly, hw'.eq_frame⟩
    · rw [hx, hrank]
      rfl
    · rw [hu]
    · rw [hu]
      exact hrow
    · rw [hw.sps.resolve_left (by simp), hb]
      rfl
    · rw [hw.sfe.resolve_left (by simp), hb]
      rfl
    · rw [hw.tke.resolve_left (by simp), hb]
      rfl
  case fails =>
    intro s t saved hfab harm herr
    exact (exec_tkeArm hfab saved).trans (congrArg _ (armTke_fails (s := advance s t) saved harm herr))
  case noMain =>
    intro s t saved hfab harm hmain
    have herr : armError (advance s t) = 1 := by
      unfold armError
      rw [show (advance s t).tke.main = none from hmain]
    rw [exec_tkeArm hfab saved, armTke_fails (s := advance s t) saved harm (by rw [herr]; decide), herr]
  case offset =>
    intro s t saved m f hfab harm hmain hfb hlive hm hf hlow hhigh
    have hoff : offsetOk s = false := by
      simp only [offsetOk, decide_eq_false_iff_not, not_or]
      omega
    have herr : armError (advance s t) = 5 := by
      unfold armError
      rw [show (advance s t).tke.main = some m from hmain, show (advance s t).tke.fallback = some f from hfb]
      dsimp only
      rw [if_neg (show ¬ rget (advance s t) R.TKE_TABLE_STATE_LIVE_BUF = 3 from hlive),
        if_neg (show ¬ recheck (advance s t) m ≠ 0 from not_not.mpr hm),
        if_neg (show ¬ recheck (advance s t) f ≠ 0 from not_not.mpr hf)]
      exact if_pos (by rw [show offsetOk (advance s t) = false from hoff]; rfl)
    rw [exec_tkeArm hfab saved, armTke_fails (s := advance s t) saved harm (by rw [herr]; decide), herr]
  case disarm =>
    intro s t hfab
    obtain ⟨harmed, harm, hcons, hregs⟩ := disarmTke_fields (advance s t)
    have hw : Within [.regs, .tke, .xlk] (blks [.tke]) (advance s t) (disarmTke (advance s t)) := disarmTke_within.mono rfl rfl
    refine ⟨_, exec_tkeDisarm hfab, harmed, harm, hcons, ?_, fun h => ?_, ?_, hregs, hw.eq_frame⟩
    · unfold disarmTke
      dsimp only
      split <;> rfl
    · show (if s.tke.rowArmed then _ else _) ≠ none
      rw [h]
      exact Option.some_ne_none _
    · unfold disarmTke
      dsimp only
      split <;> rfl

/-! ### General service -/

section
variable {s : State} {t : Fc} {r : Ref} {d : Desc} (hfab : s.fabric = true)
include hfab

theorem exec_qualPost (h : heldDesc s r 0xB 0x20 = some d) (hd : due (advance s t) d = true) (hcmd : commanding s = true) :
    exec (.qualPost t r) s = .next (qualPost (takeReq (advance s t) r) r d) :=
  (atFabric_desc hfab _ h hd).trans (congrArg _ (ifCommanding_yes (takeReq (advance s t) r) r _ _ hcmd))

theorem exec_envelopeSet (h : heldDesc s r 0xB 0x21 = some d) (hd : due (advance s t) d = true)
    (hedge : edgeDue (advance s t) = false) (hcmd : commanding s = true) :
    exec (.envelopeSet t r) s = .next (envelopeSet (takeReq (advance s t) r) r d) :=
  (atFabric_afterEdge hfab (.envelopeSet t r) (fun s => serveEnvelope s r) hedge).trans (congrArg _
    ((withDesc_due (advance s t) _ h hd).trans (ifCommanding_yes (takeReq (advance s t) r) r _ _ hcmd)))

theorem exec_calSet (h : heldDesc s r 0xB 0x30 = some d) (hd : due (advance s t) d = true)
    (hedge : edgeDue (advance s t) = false) (hcmd : commanding s = true) :
    exec (.calSet t r) s = .next (calSet (takeReq (advance s t) r) r d) :=
  (atFabric_afterEdge hfab (.calSet t r) (sfeApply (.calSet t r)) hedge).trans (congrArg _
    ((withDesc_due (advance s t) _ h hd).trans (ifCommanding_yes (takeReq (advance s t) r) r _ _ hcmd)))

theorem exec_clsSelect (h : heldDesc s r 0xB 0x31 = some d) (hd : due (advance s t) d = true)
    (hedge : edgeDue (advance s t) = false) (hcmd : commanding s = true) :
    exec (.clsSelect t r) s = .next (clsSelect (takeReq (advance s t) r) r d) :=
  (atFabric_afterEdge hfab (.clsSelect t r) (sfeApply (.clsSelect t r)) hedge).trans (congrArg _
    ((withDesc_due (advance s t) _ h hd).trans (ifCommanding_yes (takeReq (advance s t) r) r _ _ hcmd)))

end

/-- The words of a descriptor that shall be zero are. -/
theorem no_word {n : Nat} {w : Nat → Nat} (h : ∀ k < n, w k = 0) : ((List.range n).any fun k => w k ≠ 0) = false := by
  simpa using h

/-- A QUAL_POST of a correct format for a measure that the host posts. -/
theorem qualPost_posted {s : State} (r : Ref) {d : Desc} (hcls : d.classWord < 16) (hinv : d.word 0x14 < 2)
    (hzero : ∀ k < 8, d.word (0x20 + 4 * k) = 0) : qualPost s r d =
      if rget s R.SPS_QUAL_CFG_SOURCE 0 (d.classWord % 16) ≠ 2 then complete s r stRejectState 0x0222
      else
        let v : QVal := ⟨d.word 0x10, bitOf (d.word 0x14) 0, d.quad 0x18⟩
        let older := match tblGet? s.sps.posts (d.classWord % 16) with
          | some old => decide (v.stamp < old.stamp)
          | none => false
        if older then complete s r stDone 2
        else complete (forward { s with sps := { s.sps with posts := tblSet s.sps.posts (d.classWord % 16) v } }
          (.post (d.classWord % 16) v)) r stDone := by
  unfold qualPost
  dsimp only
  refine (if_neg ?_).trans rfl
  rw [no_word (w := fun k => d.word (0x20 + 4 * k)) hzero, Nat.div_eq_of_lt hcls, Nat.div_eq_of_lt hinv]
  simp

/-- The envelope that an ENVELOPE_SET of slot `i` leaves waiting for the edge. -/
def envelopeWaits (s : State) (r : Ref) (i : Nat) (lim : Option (F32 × F32)) : State :=
  let s1 := match tblGet? s.sps.envPend i with
    | some old => completeOpt s old.ref stDone 1
    | none => s
  forward { s1 with sps := { s1.sps with envPend := tblSet s1.sps.envPend i ⟨lim, some r⟩ } } (.envelope i lim)

theorem envelopeSet_format {s : State} (r : Ref) {d : Desc} (hcls : d.classWord < 32)
    (hzero : ∀ k < 9, d.word (0x1C + 4 * k) = 0) (hrel : d.word 0x18 < 2) : envelopeSet s r d =
      if bitOf (d.word 0x18) 0 then envelopeWaits s r (d.classWord % 32) none
      else if !fFinite (d.word 0x10) || !fFinite (d.word 0x14) || fLt (d.word 0x14) (d.word 0x10) then
        complete s r stRejectFormat 0x0120
      else match liveSet s with
        | none => complete s r stRejectState 0x0221
        | some ts =>
          if fLt (d.word 0x14) (tsHardLo ts (d.classWord % 32)) || fLt (tsHardHi ts (d.classWord % 32)) (d.word 0x10) then
            complete s r stRejectState 0x0220
          else envelopeWaits s r (d.classWord % 32) (some (d.word 0x10, d.word 0x14)) := by
  unfold envelopeSet
  dsimp only
  refine (if_neg ?_).trans rfl
  rw [no_word (w := fun k => d.word (0x1C + 4 * k)) hzero, Nat.div_eq_of_lt hcls, Nat.div_eq_of_lt hrel]
  simp

/-- Settles O22. -/
theorem generalService : Obligations.GeneralService := by
  unfold Obligations.GeneralService
  refine ⟨?posted, ?older, ?source, ?notCommanding, ?envelope, ?release, ?limits, ?noSet, ?cal, ?calNone, ?calEmpty, ?cls,
    ?clsLive⟩
  case posted =>
    intro s t r d hfab hdesc hdue hcmd hcls hinv hzero hsrc hnew
    rw [exec_qualPost hfab hdesc hdue hcmd, qualPost_posted r hcls hinv hzero,
      if_neg (not_not.mpr (show rget (takeReq (advance s t) r) _ _ _ = 2 from hsrc))]
    refine congrArg _ (if_neg ?_)
    rw [show (takeReq (advance s t) r).sps.posts = s.sps.posts from rfl]
    cases hv : tblGet? s.sps.posts (d.classWord % 16) with
    | none => simp
    | some v => simpa using hnew v hv
  case older =>
    intro s t r d v hfab hdesc hdue hcmd hcls hinv hzero hsrc hv hold
    rw [exec_qualPost hfab hdesc hdue hcmd, qualPost_posted r hcls hinv hzero,
      if_neg (not_not.mpr (show rget (takeReq (advance s t) r) _ _ _ = 2 from hsrc))]
    refine congrArg _ (if_pos ?_)
    rw [show (takeReq (advance s t) r).sps.posts = s.sps.posts from rfl, hv]
    simpa using hold
  case source =>
    intro s t r d hfab hdesc hdue hcmd hcls hinv hzero hsrc
    rw [exec_qualPost hfab hdesc hdue hcmd, qualPost_posted r hcls hinv hzero]
    exact congrArg _ (if_pos hsrc)
  case notCommanding =>
    intro s t r d hfab hdesc hdue hcmd
    exact (atFabric_desc hfab _ hdesc hdue).trans (congrArg _ (ifCommanding_no (takeReq (advance s t) r) r _ _ hcmd))
  case envelope =>
    intro s t r d ts hfab hdesc hdue hedge hcmd hcls hzero hrel hlo hhi hord hlive hmin hmax
    rw [exec_envelopeSet hfab hdesc hdue hedge hcmd, envelopeSet_format r hcls hzero (by omega), hrel, hlo, hhi, hord,
      show liveSet (takeReq (advance s t) r) = some ts from hlive]
    dsimp only
    rw [hmin, hmax]
    rfl
  case release =>
    intro s t r d hfab hdesc hdue hedge hcmd hcls hzero hrel
    rw [exec_envelopeSet hfab hdesc hdue hedge hcmd, envelopeSet_format r hcls hzero (by omega), hrel]
    rfl
  case limits =>
    intro s t r d hfab hdesc hdue hedge hcmd hcls hzero hrel hbad
    rw [exec_envelopeSet hfab hdesc hdue hedge hcmd, envelopeSet_format r hcls hzero (by omega), hrel, if_neg (by decide)]
    have hany : (!fFinite (d.word 0x10) || !fFinite (d.word 0x14) || fLt (d.word 0x14) (d.word 0x10)) = true := by
      obtain h | h | h := hbad <;> simp [h]
    exact congrArg _ (if_pos hany)
  case noSet =>
    intro s t r d hfab hdesc hdue hedge hcmd hcls hzero hrel hlo hhi hord hlive
    rw [exec_envelopeSet hfab hdesc hdue hedge hcmd, envelopeSet_format r hcls hzero (by omega), hrel, hlo, hhi, hord,
      show liveSet (takeReq (advance s t) r) = none from hlive]
    rfl
  case cal =>
    intro s t r d hfab hdesc hdue hedge hcmd hany ha hb hkind
    rw [exec_calSet hfab hdesc hdue hedge hcmd]
    unfold calSet
    dsimp only
    rw [if_neg (by cases h0 : bitOf (d.word 0x18) 0 <;> cases h1 : bitOf (d.word 0x18) 1 <;> simp_all),
      if_neg (show ¬ rval (takeReq (advance s t) r) _ _ _ = 0 from hkind)]
    rfl
  case calNone =>
    intro s t r d hfab hdesc hdue hedge hcmd ha hb hfin hkind
    rw [exec_calSet hfab hdesc hdue hedge hcmd]
    unfold calSet
    dsimp only
    rw [ha, hb, hfin]
    exact congrArg _ (if_pos (show rval (takeReq (advance s t) r) _ _ _ = 0 from hkind))
  case calEmpty =>
    intro s t r d hfab hdesc hdue hedge hcmd ha hb
    rw [exec_calSet hfab hdesc hdue hedge hcmd]
    unfold calSet
    dsimp only
    rw [ha, hb]
    rfl
  case cls =>
    intro s t r d hfab hdesc hdue hedge hcmd hbank
    rw [exec_clsSelect hfab hdesc hdue hedge hcmd]
    unfold clsSelect
    dsimp only
    rw [if_neg (show ¬ rget (takeReq (advance s t) r) _ _ _ = _ from hbank)]
    rfl
  case clsLive =>
    intro s t r d hfab hdesc hdue hedge hcmd hbank
    rw [exec_clsSelect hfab hdesc hdue hedge hcmd]
    unfold clsSelect
    dsimp only
    rw [if_pos (show rget (takeReq (advance s t) r) _ _ _ = _ from hbank)]
    rfl

end Sys2Proof.Machine
end

section
/-! The commit point, the till flush and lockstep (R80, R83, R94–R98) (O18). -/

namespace Sys2Proof.Machine

/-! ### The commit point -/

/-- The drive banks' time base is aligned to the commit point. -/
def gridMarked (s : State) : State := (List.range 2).foldl (fun s p => setPps s p { getPps s p with gridAt := s.now }) s

/-- The state at a commit point that is due, before the row commits or overruns. -/
def commitBase (s : State) (amps : List Nat) : State :=
  let a := setAmps (gridMarked s) amps
  modTke a fun t => { t with committed := true, commitFc := a.now, entries := commitEntries a }

theorem gridMarked_within {s : State} : Within [.pps] [] s (gridMarked s) :=
  foldl_within (fun _ _ hu => setPps_within.step hu rfl rfl) (.refl s)

theorem commitBase_within {s : State} {amps : List Nat} : Within [.pps, .drv, .tke] [] s (commitBase s amps) := by
  unfold commitBase
  exact modTke_within.step (setAmps_within.step (gridMarked_within.mono rfl rfl) rfl rfl) rfl rfl

theorem commitBase_regs (s : State) (amps : List Nat) : (commitBase s amps).regs = s.regs :=
  commitBase_within.regs.resolve_left (by simp)

theorem commitBase_now (s : State) (amps : List Nat) : (commitBase s amps).now = s.now :=
  commitBase_within.now.resolve_left (by simp)

/-- What the commit point changes of the tick engine before the row commits or overruns. -/
theorem commitBase_tke (s : State) (amps : List Nat) : (commitBase s amps).tke =
    { s.tke with committed := true, commitFc := s.now, entries := (commitBase s amps).tke.entries } := by
  have hw : Within [.pps, .drv] [] s (setAmps (gridMarked s) amps) :=
    setAmps_within.step (gridMarked_within.mono rfl rfl) rfl rfl
  unfold commitBase
  dsimp only [modTke]
  rw [hw.tke.resolve_left (by simp), hw.now.resolve_left (by simp)]

theorem commitBase_drv (s : State) (amps : List Nat) : (commitBase s amps).drv = (setAmps s amps).drv := by
  unfold commitBase setAmps
  dsimp only [modTke]
  rw [gridMarked_within.drv.resolve_left (by simp)]

section
variable {s : State} (hrun : s.tke.running = true) (hcom : s.tke.committed = false) (hat : commitAt s ≤ s.now)
  (hcmd : commanding s = true)
include hrun hcom hat hcmd

theorem commitPoint_due (amps : List Nat) : commitPoint s amps =
    if !s.tke.rowArmed || rowDisarmed s then commitBase s amps
    else
      let u := commitOrOverrun (commitBase s amps)
      if u.tke.disarmAt.isSome then rset u R.TKE_OVERRUN_CONSEC 0 else u := by
  have hcmd' : commanding (commitBase s amps) = true := by
    rw [commanding, rget_congr (commitBase_regs s amps)]
    exact hcmd
  have hrow : (commitBase s amps).tke.rowArmed = s.tke.rowArmed ∧ rowDisarmed (commitBase s amps) = rowDisarmed s := by
    rw [rowDisarmed, commitBase_tke, commitBase_now]
    exact ⟨rfl, rfl⟩
  unfold commitPoint
  rw [if_neg (by rw [hrun, hcom]; simpa using hat)]
  change (let s2 := if commanding (commitBase s amps) then commitBase s amps else rejectOutputs (commitBase s amps)
    if !s2.tke.rowArmed || rowDisarmed s2 || !commanding s2 then s2
    else
      let s3 := commitOrOverrun s2
      if s3.tke.disarmAt.isSome then rset s3 R.TKE_OVERRUN_CONSEC 0 else s3) = _
  rw [if_pos hcmd']
  dsimp only
  rw [hcmd', hrow.1, hrow.2, Bool.not_true, Bool.or_false]

theorem commitPoint_idle (amps : List Nat) (harm : s.tke.rowArmed = false) : commitPoint s amps = commitBase s amps := by
  rw [commitPoint_due hrun hcom hat hcmd, harm]
  exact if_pos rfl

end

/-! ### A row that commits -/

theorem commitLoops_sps (s : State) (ts : List Nat) : (commitLoops s ts).sps = { s.sps with loops := (commitLoops s ts).sps.loops } := by
  have h (u : State) (p : Nat × LoopSt) : ∃ l, (match loopKind ts p.1, p.2.out with
      | 0, _ => u
      | _, some v => rset u R.FNL_OUT_VALUE v 0 p.1
      | _, none => u).sps.loops = l := ⟨_, rfl⟩
  unfold commitLoops
  dsimp only
  rw [rset_sps]
  refine foldl_invariant (P := fun u : State => u.sps = { s.sps with loops := u.sps.loops }) rfl fun u p _ hu => ?_
  dsimp only
  have hset : (if p.2.started = true then rset { u with sps := { u.sps with loops := tblSet u.sps.loops p.1 p.2 } }
      R.FNL_SP_VALUE p.2.sr 0 p.1 else { u with sps := { u.sps with loops := tblSet u.sps.loops p.1 p.2 } }).sps =
      { s.sps with loops := tblSet u.sps.loops p.1 p.2 } := by
    split
    · rw [rset_sps, hu]
    · rw [hu]
  split
  · rw [hset]
  · rw [rset_sps, hset]
  · rw [hset]

/-- The status registers show outcome and region of a solve. -/
structure SolveShown (o : SolveOut) (u : State) : Prop where
  outcome : rget u R.SPS_STATUS_OUTCOME = o.outcome % 4
  region : rget u R.SPS_STATUS_REGION = o.region % 2 ^ R.SPS_STATUS_REGION.width

theorem SolveShown.rset {o : SolveOut} {u : State} (h : SolveShown o u) (f : Fld) (v i j : Nat)
    (hf : R.SPS_STATUS_OUTCOME.id ≠ f.id ∧ R.SPS_STATUS_REGION.id ≠ f.id) : SolveShown o (rset u f v i j) :=
  ⟨(rget_rset_ne _ _ _ _ _ _ hf.1).trans h.outcome, (rget_rset_ne _ _ _ _ _ _ hf.2).trans h.region⟩

theorem SolveShown.raiseEv {o : SolveOut} {u : State} (h : SolveShown o u) (c : Nat) : SolveShown o (raiseEv u c) :=
  ⟨(rget_raiseEv _ _ _ _ _ _ _ (by decide)).trans h.outcome, (rget_raiseEv _ _ _ _ _ _ _ (by decide)).trans h.region⟩

/-- A solve that is committed is shown, and its setpoints are the previous ones of the next row. -/
theorem commitSolve_fields (s : State) (o : SolveOut) :
    (commitSolve s o).sps.p = o.setpoints ∧ SolveShown o (commitSolve s o) := by
  have hsps (u : State) (c : Nat) (b : Prop) [Decidable b] : (if b then raiseEv u c else u).sps = u.sps := by
    split
    · exact raiseEv_within.sps.resolve_left (by simp)
    · rfl
  have hev {u : State} (h : SolveShown o u) (c : Nat) (b : Prop) [Decidable b] :
      SolveShown o (if b then raiseEv u c else u) := by
    split
    · exact h.raiseEv c
    · exact h
  unfold commitSolve
  extract_lets was wasConflict changed s1 s2 s3 s4 s5 s6 s7 s8 s9 warm src s10 s11
  have h1 : SolveShown o s1 := by
    constructor
    · simp (disch := decide) only [s1, rget_rset_self, rget_rset_ne]
      rfl
    · exact rget_rset_self _ _ _ _ _
  clear_value s1
  have h2 : SolveShown o s2 := ((h1.rset _ _ _ _ (by decide)).rset _ _ _ _ (by decide)).rset _ _ _ _ (by decide)
  clear_value s2
  have h3 : SolveShown o s3 := (h2.rset _ _ _ _ (by decide)).rset _ _ _ _ (by decide)
  clear_value s3
  have h4 : SolveShown o s4 := ((h3.rset _ _ _ _ (by decide)).rset _ _ _ _ (by decide)).rset _ _ _ _ (by decide)
  clear_value s4
  have h5 : SolveShown o s5 := by
    simp only [s5]
    split
    · exact h4.rset _ _ _ _ (by decide)
    · split
      · exact h4.rset _ _ _ _ (by decide)
      · exact h4
  clear_value s5
  have h6 : SolveShown o s6 := (h5.rset _ _ _ _ (by decide)).rset _ _ _ _ (by decide)
  clear_value s6
  have h7 : SolveShown o s7 := ((h6.rset _ _ _ _ (by decide)).rset _ _ _ _ (by decide)).rset _ _ _ _ (by decide)
  clear_value s7
  have h8 : SolveShown o s8 := foldl_invariant h7 fun u i _ hu =>
    ((hu.rset _ _ _ _ (by decide)).rset _ _ _ _ (by decide)).rset _ _ _ _ (by decide)
  clear_value s8
  have h9 : SolveShown o s9 := foldl_invariant h8 fun u j _ hu => hu.rset _ _ _ _ (by decide)
  clear_value s9
  have h10 : SolveShown o s10 := ⟨h9.outcome, h9.region⟩
  exact ⟨by rw [hsps, hsps], hev (hev h10 _ _) _ _⟩

/-- What the row's loops leave when it commits, where a set is live. -/
def commitLive (s : State) : State := match liveSet s with
  | some ts => commitLoops s ts
  | none => s

theorem commitLive_p (s : State) : (commitLive s).sps.p = s.sps.p := by
  unfold commitLive
  split
  · rw [commitLoops_sps]
  · rfl

theorem commitLive_within {s : State} : Within [.regs, .sps] (blks [.fnl]) s (commitLive s) := by
  unfold commitLive
  split
  · exact commitLoops_within
  · exact .refl s

/-- After a row of the fallback pattern the solver starts afresh. -/
def commitFallback (fb : Bool) (s : State) : State :=
  if fb then { s with sps := { s.sps with pFromFallback := true, warm := none } } else s

theorem commitFallback_p (fb : Bool) (s : State) : (commitFallback fb s).sps.p = s.sps.p := by
  cases fb <;> rfl

theorem commitFallback_within {fb : Bool} {s : State} : Within [.sps] [] s (commitFallback fb s) :=
  within_ite (within_sps (.refl s) rfl) (.refl s)

/-- The solver after a row has committed: what the row staged, if anything. -/
theorem commitTickWorld_fields (s : State) :
    (s.tke.staged.solve = none → (commitTickWorld s).sps.p = s.sps.p) ∧
    (∀ o, s.tke.staged.solve = some o → (commitTickWorld s).sps.p = o.setpoints ∧ SolveShown o (commitTickWorld s)) ∧
    ∃ w, (commitTickWorld s).tke = { s.tke with canWords := w } := by
  unfold commitTickWorld
  extract_lets g sfe sps tke s1 s2
  change (_ → (commitFallback s.tke.rowFallback (commitLive s2)).sps.p = _) ∧
    (∀ o, _ → (commitFallback s.tke.rowFallback (commitLive s2)).sps.p = _ ∧
      SolveShown o (commitFallback s.tke.rowFallback (commitLive s2))) ∧
    ∃ w, (commitFallback s.tke.rowFallback (commitLive s2)).tke = _
  have hw3 := commitFallback_within (fb := s.tke.rowFallback) (s := commitLive s2)
  have hw2 := commitLive_within (s := s2)
  rw [commitFallback_p, commitLive_p]
  refine ⟨fun hnone => ?_, fun o hsome => ?_, ?_⟩
  · simp only [s2, g, hnone]
    rfl
  · have h2 : s2 = commitSolve s1 o := by simp only [s2, g, hsome]
    obtain ⟨hp, hout, hreg⟩ := commitSolve_fields s1 o
    refine ⟨h2 ▸ hp, ?_, ?_⟩
    · rw [hw3.rget _ _ _ (by decide), hw2.rget _ _ _ (by decide), h2, hout]
    · rw [hw3.rget _ _ _ (by decide), hw2.rget _ _ _ (by decide), h2, hreg]
  · have h2 : s2.tke = s1.tke := by
      simp only [s2]
      split
      · exact commitSolve_within.tke.resolve_left (by simp)
      · rfl
    exact ⟨_, (hw3.tke.resolve_left (by simp)).trans ((hw2.tke.resolve_left (by simp)).trans h2)⟩

/-- A row that commits: CONSEC is 0, and what the row staged is the solver's state. -/
theorem commitRow_fields (s : State) :
    (∃ w, (commitRow s).tke = { s.tke with canWords := w }) ∧ rget (commitRow s) R.TKE_OVERRUN_CONSEC = 0 ∧
    rget (commitRow s) R.TKE_OVERRUN_TOTAL = rget s R.TKE_OVERRUN_TOTAL ∧
    (s.tke.staged.solve = none → (commitRow s).sps.p = s.sps.p) ∧
    (∀ o, s.tke.staged.solve = some o → (commitRow s).sps.p = o.setpoints ∧
      SolveShown o (commitRow s)) := by
  unfold commitRow
  extract_lets s1 used s2 own host
  have hsend := sendCommit_within (s := s2) (kind := .commit) (cmds := own ++ host)
  obtain ⟨v, hv⟩ : ∃ v, v = sendCommit s2 .commit (own ++ host) := ⟨_, rfl⟩
  rw [← hv] at hsend ⊢
  have htke : v.tke = s.tke := hsend.tke.resolve_left (by simp)
  have hsps : v.sps = s.sps := hsend.sps.resolve_left (by simp)
  obtain ⟨hnone, hsome, w, hw⟩ := commitTickWorld_fields v
  have hcan := canCommit_within (s := commitTickWorld v)
  have hread (f : Fld) (h : f.id / 128 = R.TKE_OVERRUN_CONSEC.id / 128) : rget (canCommit (commitTickWorld v)) f = rget s1 f := by
    have hb (l : List Blk) (hl : R.TKE_OVERRUN_CONSEC.id / 128 ∉ blks l) : f.id / 128 ∉ blks l := h ▸ hl
    rw [hcan.rget _ _ _ (hb _ (by decide)), commitTickWorld_within.rget _ _ _ (hb _ (by decide)),
      hsend.rget _ _ _ (hb _ (by decide))]
    rfl
  have hcsps : (canCommit (commitTickWorld v)).sps = (commitTickWorld v).sps := hcan.sps.resolve_left (by simp)
  refine ⟨⟨w, (hcan.tke.resolve_left (by simp)).trans (hw.trans (by rw [htke]))⟩, ?_, ?_, fun h => ?_, fun o h => ?_⟩
  · exact (hread _ rfl).trans (rget_rset_self _ _ _ _ _)
  · exact (hread _ (by decide)).trans (rget_rset_ne _ _ _ _ _ _ (by decide))
  · rw [hcsps, hnone (by rw [htke]; exact h), hsps]
  · obtain ⟨hp, hout, hreg⟩ := hsome o (by rw [htke]; exact h)
    exact ⟨by rw [hcsps, hp], (hcan.rget _ _ _ (by decide)).trans hout, (hcan.rget _ _ _ (by decide)).trans hreg⟩

/-! ### A row that overruns -/

/-- A KEEP without commands reaches a supervisor's own registers and record alone. -/
theorem ppsFrame_keep_within {s : State} {p bid row us : Nat} :
    Within [.regs, .pps] (blks [.pps]) s (ppsFrame s p true .keep bid row us []).1 := by
  have hcontact (u : State) : Within [.regs, .pps] (blks [.pps]) u (ppsContact u p true .keep row us []) := by
    unfold ppsContact
    dsimp only
    exact within_ite (.refl u) (setPps_within.step (rset_within.step (rset_within.step (rset_within.step (.refl u)
      rfl rfl) rfl rfl) rfl rfl) rfl rfl)
  have hfenced (u : State) : Within [.regs, .pps] (blks [.pps]) u (ppsFenced u p true .keep bid row []) := by
    unfold ppsFenced
    dsimp only
    rw [if_pos rfl, if_pos (by decide)]
    exact rinc_within.step (.refl u) rfl rfl
  unfold ppsFrame
  dsimp only
  rw [if_neg (show ¬ FrameKind.keep = FrameKind.commit by decide)]
  split
  · exact .refl s
  · split
    · exact (hfenced _).step ((rset_within (f := R.PPS_HIGHEST_BID)).step (ps := [.regs, .pps]) (bs := blks [.pps]) (.refl s) rfl rfl) rfl rfl
    · rw [if_neg (show ¬ FrameKind.keep = FrameKind.takeover by decide)]
      exact (hcontact _).step (within_ite (ps := [.regs, .pps]) (bs := blks [.pps])
        ((rset_within (f := R.PPS_HIGHEST_BID)).step (.refl s) rfl rfl) (.refl s)) rfl rfl

theorem sendCommit_keep_within {s : State} :
    Within [.regs, .rolLatch, .arbs, .pps, .xlk] (blks [.arb, .pps]) s (sendCommit s .keep []) := by
  unfold sendCommit
  extract_lets bid us row here mine s1 a b s2 waits src s3
  have ha : Within [.regs, .rolLatch, .arbs, .pps, .xlk] (blks [.arb, .pps]) s a.1 :=
    ppsFrame_keep_within.mono rfl rfl
  have hb : Within [.regs, .rolLatch, .arbs, .pps, .xlk] (blks [.arb, .pps]) s s2 := by
    have hs2 : s2 = b.1 := if_pos (by simp)
    rw [hs2]
    exact ppsFrame_keep_within.step ha rfl rfl
  split
  · have hs3 : s3 = s2 := if_neg (by decide)
    rw [hs3]
    exact xlkSend_within.step hb rfl rfl
  · exact hb

theorem promoteRefuse_tke (s : State) : (promoteRefuse s).tke = { s.tke with promote := [] } :=
  (foldl_within (ps := [.reqs, .till]) (bs := []) (fun _ _ hu => completeTke_within.step hu rfl rfl)
    (.refl { s with tke := { s.tke with promote := [] } })).tke.resolve_left (by simp)

theorem rget_promoteRefuse (s : State) (f : Fld) : rget (promoteRefuse s) f = rget s f :=
  promoteRefuse_within.rget f 0 0 (by simp)

/-- The registers of an overrun row before it demotes or stops. -/
def overrunCounted (s : State) (cause : Nat) : State :=
  let s1 := (endRow s cause).tke.mirrorTodo.foldl (fun s st => mirrorStitch st s) (endRow s cause)
  rset (rinc (rset s1 R.TKE_OVERRUN_LAST_CAUSE cause) R.TKE_OVERRUN_TOTAL) R.TKE_OVERRUN_CONSEC (rget s R.TKE_OVERRUN_CONSEC + 1)

/-- The demotion or stop that an overrun row ends in, if any (R97). -/
def overrunDemotes (s : State) (fb : Bool) (n : Nat) : State :=
  if n < 3 then s
  else if fb then raiseEv (promoteRefuse (rset (rset s R.TKE_CTRL_STOPPED 1) R.TKE_CTRL_ARMED 0)) evTkeStopped
  else raiseEv (promoteRefuse (rset (rset s R.TKE_CTRL_FALLBACK_ACTIVE 1) R.TKE_OVERRUN_CONSEC 0)) evTkeDemoted

theorem overrunRow_eq (s : State) (cause : Nat) : overrunRow s cause = sendCommit
    (overrunDemotes (overrunCounted s cause) s.tke.rowFallback (rget s R.TKE_OVERRUN_CONSEC + 1)) .keep [] := rfl

theorem overrunCounted_fields (s : State) (cause : Nat) :
    (overrunCounted s cause).tke = (endRow s cause).tke ∧
    rget (overrunCounted s cause) R.TKE_OVERRUN_TOTAL = satTo R.TKE_OVERRUN_TOTAL.width (rget s R.TKE_OVERRUN_TOTAL + 1) ∧
    rget (overrunCounted s cause) R.TKE_OVERRUN_CONSEC =
      (rget s R.TKE_OVERRUN_CONSEC + 1) % 2 ^ R.TKE_OVERRUN_CONSEC.width ∧
    (∀ f ∈ [R.TKE_CTRL_ARMED, R.TKE_CTRL_FALLBACK_ACTIVE], rget (overrunCounted s cause) f = rget s f) ∧
    Within [.regs, .rolLatch, .arbs, .tke, .xlk] (blks [.tke, .arb]) s (overrunCounted s cause) := by
  obtain ⟨s1, hs1⟩ : ∃ s1, s1 = (endRow s cause).tke.mirrorTodo.foldl (fun s st => mirrorStitch st s) (endRow s cause) :=
    ⟨_, rfl⟩
  have hw1 : Within [.regs, .rolLatch, .arbs, .xlk] (blks [.arb]) (endRow s cause) s1 := by
    rw [hs1]
    exact foldl_within (fun _ _ hu => mirrorStitch_within.step hu rfl rfl) (.refl _)
  have hread (f : Fld) (hf : f.id / 128 ∉ blks [.arb]) : rget s1 f = rget s f := hw1.rget f 0 0 hf
  unfold overrunCounted
  rw [← hs1]
  refine ⟨hw1.tke.resolve_left (by simp), ?_, rget_rset_self _ _ _ _ _, fun f hf => ?_, ?_⟩
  · rw [rget_rset_ne _ _ _ _ _ _ (by decide), rget_rinc_self, rget_rset_ne _ _ _ _ _ _ (by decide), hread _ (by decide)]
  · simp only [List.mem_cons, List.not_mem_nil, or_false] at hf
    obtain rfl | rfl := hf <;> simp (disch := decide) only [rinc, rget_rset_ne, hread]
  · exact rset_within.step (rinc_within.step (rset_within.step (hw1.step (endRow_within.mono rfl rfl) rfl rfl)
      rfl rfl) rfl rfl) rfl rfl

theorem overrunDemotes_within {s : State} {fb : Bool} {n : Nat} :
    Within [.regs, .mem, .extMem, .log, .reqs, .till, .tke] (blks [.tke, .hlm, .jrn]) s (overrunDemotes s fb n) :=
  within_ite (.refl s) (within_ite
    (raiseEv_within.step (promoteRefuse_within.step (rset_within.step (rset_within.step (.refl s) rfl rfl) rfl rfl) rfl rfl) rfl rfl)
    (raiseEv_within.step (promoteRefuse_within.step (rset_within.step (rset_within.step (.refl s) rfl rfl) rfl rfl) rfl rfl) rfl rfl))

theorem overrunDemotes_tke (s : State) (fb : Bool) (n : Nat) : ∃ l, (overrunDemotes s fb n).tke = { s.tke with promote := l } := by
  unfold overrunDemotes
  split
  · exact ⟨_, rfl⟩
  · split <;> exact ⟨_, (raiseEv_tke _ _ _ _).trans (promoteRefuse_tke _)⟩

/-- A field of the tick engine reads after an overrun row as before its KEEP. -/
theorem rget_overrunRow (s : State) (cause : Nat) (f : Fld) (hf : f.id / 128 ∉ blks [.arb, .pps]) :
    rget (overrunRow s cause) f =
      rget (overrunDemotes (overrunCounted s cause) s.tke.rowFallback (rget s R.TKE_OVERRUN_CONSEC + 1)) f := by
  rw [overrunRow_eq]
  exact sendCommit_keep_within.rget f 0 0 hf

theorem overrunRow_total (s : State) (cause : Nat) :
    rget (overrunRow s cause) R.TKE_OVERRUN_TOTAL = satTo R.TKE_OVERRUN_TOTAL.width (rget s R.TKE_OVERRUN_TOTAL + 1) := by
  rw [rget_overrunRow _ _ _ (by decide), ← (overrunCounted_fields s cause).2.1]
  unfold overrunDemotes
  split
  · rfl
  · split <;> rw [rget_raiseEv _ _ _ _ _ _ _ (by decide), rget_promoteRefuse] <;>
      simp (disch := decide) only [rget_rset_ne]

/-- What an overrun row leaves: nothing to do, nothing staged, and outputs and solver as they were. -/
theorem overrunRow_frame (s : State) (cause : Nat) :
    (∃ l, (overrunRow s cause).tke = { (endRow s cause).tke with promote := l }) ∧
    Within [.regs, .rolLatch, .mem, .extMem, .log, .arbs, .reqs, .till, .tke, .pps, .xlk] (blks [.tke, .pps, .arb, .hlm, .jrn]) s
      (overrunRow s cause) := by
  obtain ⟨htke, -, -, -, hw⟩ := overrunCounted_fields s cause
  obtain ⟨l, hl⟩ := overrunDemotes_tke (overrunCounted s cause) s.tke.rowFallback (rget s R.TKE_OVERRUN_CONSEC + 1)
  rw [overrunRow_eq]
  refine ⟨⟨l, (sendCommit_keep_within.tke.resolve_left (by simp)).trans (hl.trans (by rw [htke]))⟩, ?_⟩
  exact sendCommit_keep_within.step (overrunDemotes_within.step (hw.mono rfl rfl) rfl rfl) rfl rfl

/-- An overrun row that is not the third in succession only counts. -/
theorem overrunRow_counts {s : State} (cause : Nat) (h : rget s R.TKE_OVERRUN_CONSEC < 2) :
    rget (overrunRow s cause) R.TKE_OVERRUN_CONSEC = rget s R.TKE_OVERRUN_CONSEC + 1 ∧
    (∀ f ∈ [R.TKE_CTRL_ARMED, R.TKE_CTRL_FALLBACK_ACTIVE], rget (overrunRow s cause) f = rget s f) := by
  obtain ⟨-, -, hcons, hkeep, -⟩ := overrunCounted_fields s cause
  have hnone : overrunDemotes (overrunCounted s cause) s.tke.rowFallback (rget s R.TKE_OVERRUN_CONSEC + 1) =
      overrunCounted s cause := if_pos (by omega)
  refine ⟨?_, fun f hf => ?_⟩
  · rw [rget_overrunRow _ _ _ (by decide), hnone, hcons]
    exact Nat.mod_eq_of_lt ((Nat.succ_lt_succ h).trans (by decide))
  · have hblk : f.id / 128 ∉ blks [.arb, .pps] := by
      simp only [List.mem_cons, List.not_mem_nil, or_false] at hf
      obtain rfl | rfl := hf <;> decide
    rw [rget_overrunRow _ _ _ hblk, hnone, hkeep f hf]

/-- The third overrun row in succession demotes the main pattern. -/
theorem overrunRow_demotes {s : State} (cause : Nat) (h : 2 ≤ rget s R.TKE_OVERRUN_CONSEC) (hfb : s.tke.rowFallback = false) :
    rget (overrunRow s cause) R.TKE_CTRL_FALLBACK_ACTIVE = 1 ∧ rget (overrunRow s cause) R.TKE_OVERRUN_CONSEC = 0 ∧
    rget (overrunRow s cause) R.TKE_CTRL_ARMED = rget s R.TKE_CTRL_ARMED := by
  obtain ⟨-, -, -, hkeep, -⟩ := overrunCounted_fields s cause
  have heq : overrunDemotes (overrunCounted s cause) s.tke.rowFallback (rget s R.TKE_OVERRUN_CONSEC + 1) =
      raiseEv (promoteRefuse (rset (rset (overrunCounted s cause) R.TKE_CTRL_FALLBACK_ACTIVE 1) R.TKE_OVERRUN_CONSEC 0))
        evTkeDemoted := (if_neg (by omega)).trans (if_neg (by simp [hfb]))
  have hread (f : Fld) (hf : f.id / 128 ∉ blks [.arb, .pps]) (hev : f.key 0 0 ∉ eventKeys) : rget (overrunRow s cause) f =
      rget (rset (rset (overrunCounted s cause) R.TKE_CTRL_FALLBACK_ACTIVE 1) R.TKE_OVERRUN_CONSEC 0) f := by
    rw [rget_overrunRow _ _ _ hf, heq, rget_raiseEv _ _ _ _ _ _ _ hev, rget_promoteRefuse]
  refine ⟨?_, ?_, ?_⟩
  · rw [hread _ (by decide) (by decide)]
    simp (disch := decide) only [rget_rset_self, rget_rset_ne]
    rfl
  · rw [hread _ (by decide) (by decide), rget_rset_self, Nat.zero_mod]
  · rw [hread _ (by decide) (by decide)]
    simp (disch := decide) only [rget_rset_ne]
    exact hkeep _ (by simp)

/-- The third overrun row of the fallback pattern stops the tick engine. -/
theorem overrunRow_stops {s : State} (cause : Nat) (h : 2 ≤ rget s R.TKE_OVERRUN_CONSEC) (hfb : s.tke.rowFallback = true) :
    rget (overrunRow s cause) R.TKE_CTRL_STOPPED = 1 ∧ rget (overrunRow s cause) R.TKE_CTRL_ARMED = 0 := by
  have heq : overrunDemotes (overrunCounted s cause) s.tke.rowFallback (rget s R.TKE_OVERRUN_CONSEC + 1) =
      raiseEv (promoteRefuse (rset (rset (overrunCounted s cause) R.TKE_CTRL_STOPPED 1) R.TKE_CTRL_ARMED 0)) evTkeStopped :=
    (if_neg (by omega)).trans (if_pos hfb)
  have hread (f : Fld) (hf : f.id / 128 ∉ blks [.arb, .pps]) (hev : f.key 0 0 ∉ eventKeys) : rget (overrunRow s cause) f =
      rget (rset (rset (overrunCounted s cause) R.TKE_CTRL_STOPPED 1) R.TKE_CTRL_ARMED 0) f := by
    rw [rget_overrunRow _ _ _ hf, heq, rget_raiseEv _ _ _ _ _ _ _ hev, rget_promoteRefuse]
  refine ⟨?_, ?_⟩
  · rw [hread _ (by decide) (by decide)]
    simp (disch := decide) only [rget_rset_self, rget_rset_ne]
    rfl
  · rw [hread _ (by decide) (by decide), rget_rset_self, Nat.zero_mod]

/-! ### The commit point of an armed row -/

section
variable {s : State} (hrun : s.tke.running = true) (hcom : s.tke.committed = false) (hat : commitAt s ≤ s.now)
  (hcmd : commanding s = true) (harm : s.tke.rowArmed = true) (hdis : s.tke.disarmAt = none)
include hrun hcom hat hcmd harm hdis

theorem commitPoint_armed (amps : List Nat) : commitPoint s amps = commitOrOverrun (commitBase s amps) := by
  have hnone : (commitOrOverrun (commitBase s amps)).tke.disarmAt = none := by
    have hbase : (commitBase s amps).tke.disarmAt = none := by
      rw [commitBase_tke]
      exact hdis
    have hover (cause : Nat) : (overrunRow (commitBase s amps) cause).tke.disarmAt = none := by
      obtain ⟨⟨l, hl⟩, -⟩ := overrunRow_frame (commitBase s amps) cause
      rw [hl]
      exact hbase
    unfold commitOrOverrun
    split
    · exact hover _
    · split
      · obtain ⟨⟨w, hw⟩, -⟩ := commitRow_fields (commitBase s amps)
        rw [hw]
        exact hbase
      · exact hover _
  rw [commitPoint_due hrun hcom hat hcmd, if_neg (by simp [harm, rowDisarmed, hdis])]
  dsimp only
  rw [hnone]
  exact if_neg (by simp)

/-- A row that has run every stitch without an overrun commits. -/
theorem commitPoint_commits (amps : List Nat) (hover : s.tke.overrun = none) (htodo : s.tke.todo = []) :
    commitPoint s amps = commitRow (commitBase s amps) := by
  rw [commitPoint_armed hrun hcom hat hcmd harm hdis, commitOrOverrun, commitBase_tke]
  dsimp only
  rw [hover, htodo]
  rfl

/-- An overrun row, or one with stitches left, ends without a commit. -/
theorem commitPoint_overruns (amps : List Nat) (h : s.tke.overrun ≠ none ∨ s.tke.todo ≠ []) :
    ∃ cause, commitPoint s amps = overrunRow (commitBase s amps) cause := by
  have hover : (commitBase s amps).tke.overrun = s.tke.overrun ∧ (commitBase s amps).tke.todo = s.tke.todo := by
    rw [commitBase_tke]
    exact ⟨rfl, rfl⟩
  rw [commitPoint_armed hrun hcom hat hcmd harm hdis, commitOrOverrun, hover.1, hover.2]
  split
  · exact ⟨_, rfl⟩
  · rename_i hn
    rw [if_neg (by simpa using h.resolve_left (not_not.mpr hn))]
    exact ⟨_, rfl⟩

end

/-- What an overrun at the commit point leaves, whatever it leads to. -/
theorem overrunRow_base {s : State} {amps : List Nat} {cause : Nat} :
    (overrunRow (commitBase s amps) cause).tke.committed = true ∧
    (overrunRow (commitBase s amps) cause).tke.staged = Staged.empty ∧
    (overrunRow (commitBase s amps) cause).tke.todo = [] ∧
    (overrunRow (commitBase s amps) cause).sps = s.sps ∧
    (overrunRow (commitBase s amps) cause).drv = (setAmps s amps).drv ∧
    (overrunRow (commitBase s amps) cause).sw = s.sw ∧ (overrunRow (commitBase s amps) cause).can = s.can ∧
    BlocksOnly s (overrunRow (commitBase s amps) cause) [.tke, .pps, .xlk, .til, .arb, .hlm, .jrn] := by
  obtain ⟨⟨l, hl⟩, hw⟩ := overrunRow_frame (commitBase s amps) cause
  have hcom : (commitBase s amps).tke.committed = true := by rw [commitBase_tke]
  have hbase := commitBase_within (s := s) (amps := amps)
  refine ⟨?_, ?_, ?_, (hw.sps.resolve_left (by simp)).trans (hbase.sps.resolve_left (by simp)),
    (hw.drv.resolve_left (by simp)).trans (commitBase_drv s amps), (hw.sw.resolve_left (by simp)).trans
    (hbase.sw.resolve_left (by simp)), (hw.can.resolve_left (by simp)).trans (hbase.can.resolve_left (by simp)), ?_⟩
  · rw [hl]
    exact hcom
  · rw [hl]
    rfl
  · rw [hl]
    rfl
  · exact (hw.step (hbase.mono rfl rfl) rfl rfl : Within [.regs, .rolLatch, .mem, .extMem, .log, .arbs, .reqs, .till, .tke,
      .pps, .xlk, .drv] (blks [.tke, .pps, .xlk, .til, .arb, .hlm, .jrn]) s _).blocksOnly

/-! ### The till flush -/

theorem postRecords_till (s : State) : (postRecords s).till.posted.length = s.till.posted.length + 48 ∧
    (postRecords s).till.flushLeft = 48 ∧ (postRecords s).till.rowDone = [] := by
  unfold postRecords
  extract_lets recs src
  have h := tillMask_tillGrows { s with till := { s.till with posted := s.till.posted ++ recs, rowDone := [], flushLeft := 48 } }
  refine ⟨?_, h.flushLeft, h.rowDone⟩
  exact (congrArg List.length h.posted).trans (List.length_append.trans (by simp [recs]))

/-- What a due till flush leaves. -/
theorem tillFlush_due {s : State} (amps : List Nat) (hcom : s.tke.committed = true) (hfl : s.tke.flushed = false)
    (hat : commitAt s + 256 ≤ s.now) :
    (tillFlush s amps).tke.flushed = true ∧ (tillFlush s amps).till.posted.length = s.till.posted.length + 48 ∧
    (tillFlush s amps).till.flushLeft = 48 ∧ (tillFlush s amps).till.rowDone = [] ∧
    (s.tke.overrun ≠ none → (tillFlush s amps).tke.exposed = s.tke.exposed ∧ (tillFlush s amps).tke.snapHalf = s.tke.snapHalf) ∧
    (s.tke.overrun = none → (tillFlush s amps).tke.exposed = s.tke.work ∧ (tillFlush s amps).tke.snapHalf = s.tke.snapNext) := by
  obtain ⟨s0, hs0⟩ : ∃ s0, s0 = setSwAmps s amps := ⟨_, rfl⟩
  have htke0 : s0.tke = s.tke ∧ s0.till = s.till := by
    rw [hs0]
    exact ⟨setSwAmps_within.tke.resolve_left (by simp), setSwAmps_within.till.resolve_left (by simp)⟩
  obtain ⟨s1, hs1⟩ : ∃ s1, s1 = if s0.tke.overrun.isSome then s0 else clearRecords (exposeSnap s0) := ⟨_, rfl⟩
  have htill1 : s1.till = s.till := by
    rw [hs1]
    split
    · exact htke0.2
    · exact htke0.2
  obtain ⟨v, hv⟩ : ∃ v, v = postRecords (modTke s1 fun t => { t with flushed := true }) := ⟨_, rfl⟩
  have htkev : v.tke = { s1.tke with flushed := true } := hv ▸ postRecords_within.tke.resolve_left (by simp)
  obtain ⟨hposted, hleft, hdone⟩ := postRecords_till (modTke s1 fun t => { t with flushed := true })
  have hw : Within [.regs, .rolLatch, .mem, .extMem, .log, .arbs, .xlk, .sto] (blks [.arb, .tke, .sto, .hlm, .jrn]) v
      (tillFlush s amps) := by
    unfold tillFlush
    rw [if_neg (by rw [hcom, hfl]; simpa using hat)]
    dsimp only
    rw [← hs0, ← hs1, ← hv]
    have hsum : Within [.regs, .rolLatch, .mem, .extMem, .log, .arbs, .xlk, .sto] (blks [.arb, .tke, .sto, .hlm, .jrn]) v
      (hbSend (rowSummary v) (stagedDigest s0)) := hbSend_within.step (rowSummary_within.mono rfl rfl) rfl rfl
    exact within_ite hsum (pushExtract_within.step hsum rfl rfl)
  rw [hw.tke.resolve_left (by simp), hw.till.resolve_left (by simp), htkev, hv]
  refine ⟨rfl, hposted.trans (by rw [show (modTke s1 _).till = s1.till from rfl, htill1]), hleft, hdone, fun h => ?_, fun h => ?_⟩
  · rw [hs1, if_pos (by rw [htke0.1]; exact Option.isSome_iff_ne_none.mpr h), htke0.1]
    exact ⟨rfl, rfl⟩
  · have hexp : s1.tke = { s.tke with exposed := s.tke.work, snapHalf := s.tke.snapNext, snapNext := 1 - s.tke.snapNext } := by
      rw [hs1, if_neg (by rw [htke0.1, h]; simp), ← htke0.1]
      rfl
    rw [hexp]
    exact ⟨rfl, rfl⟩

/-! ### Lockstep -/

/-- Of four unmasked sequencers the one that differs from the other three is masked and counted. -/
theorem lockstep_dissenter {s : State} {l : List Nat} {x : Fin 4} {v : Nat} (hm : rget s R.TKE_LOCKSTEP_MASKED = 0)
    (hsame : ∀ k : Fin 4, k ≠ x → l.getD k 0 = v) (hx : l.getD x 0 ≠ v) : lockstep s l =
      raiseEv (rinc (rset s R.TKE_LOCKSTEP_MASKED (2 ^ x.val)) R.TKE_LOCKSTEP_DISAGREE_COUNT) evTkeLockstepMask := by
  have hlive : ((List.range 4).filter fun n => !bitOf 0 n) = [0, 1, 2, 3] := by decide
  have hbit (n : Nat) : rsetBitAt s R.TKE_LOCKSTEP_MASKED n true = rset s R.TKE_LOCKSTEP_MASKED (setBit 0 n true) := by
    rw [rsetBitAt, hm]
  unfold lockstep
  dsimp only
  rw [hm, hlive]
  simp only [Fin.forall_fin_succ] at hsame
  fin_cases x <;> simp at hsame hx <;>
    simp [List.filter_cons, hsame, hx, Ne.symm hx, hbit, rinc, setBit, bitOf]

/-- Two against two masks none and ends the row that runs. -/
theorem lockstep_split {s : State} {a b : Nat} (hm : rget s R.TKE_LOCKSTEP_MASKED = 0) (hab : a ≠ b) :
    lockstep s [a, b, b, a] = rowCause (raiseEv s evTkeLockstepSplit) 2 := by
  have hlive : ((List.range 4).filter fun n => !bitOf 0 n) = [0, 1, 2, 3] := by decide
  unfold lockstep
  dsimp only
  rw [hm, hlive]
  simp [List.filter_cons, hab, hab.symm]

/-- A cause met before the commit point of an armed row ends that row. -/
theorem rowCause_ends {s : State} (cause : Nat) (harm : s.tke.rowArmed = true) (hcom : s.tke.committed = false)
    (hover : s.tke.overrun = none) (hat : s.now < commitAt s) : rowCause s cause = endRow s cause := by
  unfold rowCause
  dsimp only
  rw [harm, hover]
  dsimp only
  rw [hcom]
  simp [Nat.not_le.mpr hat]

/-! ### O18 -/

/-- The frame of a commit point. -/
theorem commitPoint_frame {s u : State} {t : Fc} {amps : List Nat} (h : commitPoint (advance s t) amps = u) :
    BlocksOnly s u [.tke, .sps, .fnl, .sfe, .pps, .dbk, .sbk, .xlk, .can, .til, .arb, .hlm, .jrn] ∧
    u = { advance s t with
      regs := u.regs, tke := u.tke, sps := u.sps, sfe := u.sfe, pps := u.pps, drv := u.drv, reqs := u.reqs, till := u.till,
      xlk := u.xlk, can := u.can, arbs := u.arbs, rolLatch := u.rolLatch, log := u.log, mem := u.mem, extMem := u.extMem } := by
  subst h
  have hw := commitPoint_within (s0 := advance s t) (amps := amps)
  exact ⟨(hw.mono rfl rfl : Within [.regs, .rolLatch, .mem, .extMem, .log, .arbs, .reqs, .till, .tke, .sps, .sfe, .drv,
    .pps, .xlk, .can] (blks [.tke, .sps, .fnl, .sfe, .pps, .dbk, .sbk, .xlk, .can, .til, .arb, .hlm, .jrn]) _ _).blocksOnly,
    hw.eq_frame⟩

/-- What every overrun of an armed row at its commit point leaves (R97). -/
theorem commitPoint_overrun_leaves {s : State} {t : Fc} {amps : List Nat} (hrun : s.tke.running = true)
    (hcom : s.tke.committed = false) (hat : commitAt s ≤ max s.now t) (harm : s.tke.rowArmed = true)
    (hdis : s.tke.disarmAt = none) (hcmd : commanding s = true) (h : s.tke.overrun ≠ none ∨ s.tke.todo ≠ []) :
    ∃ b cause, commitPoint (advance s t) amps = overrunRow b cause ∧ b.tke.rowFallback = s.tke.rowFallback ∧
      (∀ f, rget b f = rget s f) ∧ (overrunRow b cause).tke.committed = true ∧
      (overrunRow b cause).tke.staged = Staged.empty ∧ (overrunRow b cause).tke.todo = [] ∧
      rget (overrunRow b cause) R.TKE_OVERRUN_TOTAL = satTo R.TKE_OVERRUN_TOTAL.width (rget s R.TKE_OVERRUN_TOTAL + 1) ∧
      (overrunRow b cause).sps = s.sps ∧ (overrunRow b cause).drv = (setAmps (advance s t) amps).drv ∧
      (overrunRow b cause).sw = s.sw ∧ (overrunRow b cause).can = s.can ∧
      BlocksOnly s (overrunRow b cause) [.tke, .pps, .xlk, .til, .arb, .hlm, .jrn] := by
  obtain ⟨cause, heq⟩ := commitPoint_overruns (s := advance s t) hrun hcom hat hcmd harm hdis amps h
  have hread (f : Fld) : rget (commitBase (advance s t) amps) f = rget s f :=
    rget_congr (commitBase_regs (advance s t) amps) f 0 0
  obtain ⟨hcom', hst, htodo, hsps, hdrv, hsw, hcan, hbl⟩ := overrunRow_base (s := advance s t) (amps := amps) (cause := cause)
  refine ⟨_, cause, heq, ?_, hread, hcom', hst, htodo, ?_, hsps, hdrv, hsw, hcan, hbl⟩
  · rw [commitBase_tke]
    rfl
  · rw [overrunRow_total, hread]

/-- Settles O18. -/
theorem commitCommands : Obligations.CommitCommands := by
  unfold Obligations.CommitCommands
  have hexec (s : State) (t : Fc) (amps : List Nat) (hfab : s.fabric = true) :
      exec (.commitPoint ⟨t, amps⟩) s = .next (commitPoint (advance s t) amps) :=
    atFabric_up s t (fun s => commitPoint s amps) hfab
  refine ⟨?_, ?_, ?_, ?_, ?_, ?_, ?_, ?_⟩
  · intro s t amps hfab hrun hcom hat harm hdis _ hcmd hover htodo
    have heq := commitPoint_commits (s := advance s t) hrun hcom hat hcmd harm hdis amps hover htodo
    have hread (f : Fld) : rget (commitBase (advance s t) amps) f = rget s f :=
      rget_congr (commitBase_regs (advance s t) amps) f 0 0
    have hbase := commitBase_tke (advance s t) amps
    obtain ⟨⟨w, hw⟩, hcons, htot, hnone, hsome⟩ := commitRow_fields (commitBase (advance s t) amps)
    have hsps : (commitBase (advance s t) amps).sps = s.sps := commitBase_within.sps.resolve_left (by simp)
    rw [hbase] at hw hnone hsome
    obtain ⟨hbl, hframe⟩ := commitPoint_frame heq
    refine ⟨_, (hexec s t amps hfab).trans (congrArg _ heq), by rw [hw], by rw [hw]; exact hover, hcons,
      htot.trans (hread _), fun h => (hnone h).trans (by rw [hsps]), fun o h => ?_, hbl, hframe⟩
    obtain ⟨hp, hshown⟩ := hsome o h
    exact ⟨hp, hshown.outcome, hshown.region⟩
  · intro s t amps hfab hrun hcom hat harm hdis hon hcmd hover hfew
    obtain ⟨b, cause, heq, -, hread, hc, hst, htodo, htot, hsps, hdrv, hsw, hcan, hbl⟩ :=
      commitPoint_overrun_leaves (amps := amps) hrun hcom hat harm hdis hcmd hover
    obtain ⟨hcons, hkeep⟩ := overrunRow_counts cause (by rw [hread]; exact hfew)
    refine ⟨_, (hexec s t amps hfab).trans (congrArg _ heq), hc, hst, htodo, htot, by rw [hcons, hread], ?_,
      by rw [hkeep _ (by simp), hread], hsps, hdrv, hsw, hcan, hbl⟩
    rw [tkeArmed, rbit, hkeep _ (by simp), hread]
    exact hon
  · intro s t amps hfab hrun hcom hat harm hdis hon hcmd hover hmany hfb
    obtain ⟨b, cause, heq, hbfb, hread, hc, hst, htodo, htot, hsps, hdrv, hsw, hcan, hbl⟩ :=
      commitPoint_overrun_leaves (amps := amps) hrun hcom hat harm hdis hcmd hover
    obtain ⟨hact, hcons, harmed⟩ := overrunRow_demotes cause (by rw [hread]; exact hmany) (hbfb.trans hfb)
    refine ⟨_, (hexec s t amps hfab).trans (congrArg _ heq), hc, hst, htodo, htot, hact, hcons, ?_, hsps, hdrv, hsw, hcan,
      hbl⟩
    rw [tkeArmed, rbit, harmed, hread]
    exact hon
  · intro s t amps hfab hrun hcom hat harm hdis _ hcmd hover hmany hfb
    obtain ⟨b, cause, heq, hbfb, hread, hc, hst, htodo, htot, hsps, hdrv, hsw, hcan, hbl⟩ :=
      commitPoint_overrun_leaves (amps := amps) hrun hcom hat harm hdis hcmd hover
    obtain ⟨hstop, harmed⟩ := overrunRow_stops cause (by rw [hread]; exact hmany) (hbfb.trans hfb)
    exact ⟨_, (hexec s t amps hfab).trans (congrArg _ heq), hc, hst, htodo, htot, hstop, harmed, hsps, hdrv, hsw, hcan, hbl⟩
  · intro s t amps hfab hrun hcom hat harm hcmd
    rw [hexec s t amps hfab, commitPoint_idle (s := advance s t) hrun hcom hat hcmd amps harm]
    have hnow : (setAmps (gridMarked (advance s t)) amps).now = max s.now t :=
      commitBase_now (advance s t) amps
    exact congrArg _ (by unfold commitBase; dsimp only [modTke]; rw [hnow]; rfl)
  · intro s t amps hfab hcom hfl hat
    obtain ⟨hflu, hpost, hleft, hdone, hover, hnone⟩ := tillFlush_due (s := advance s t) amps hcom hfl hat
    have hw := tillFlush_within (s0 := advance s t) (amps := amps)
    exact ⟨_, atFabric_up s t (fun s => tillFlush s amps) hfab, hflu, hpost, hleft, hdone, hover, hnone, hw.sps.resolve_left (by simp),
      hw.pps.resolve_left (by simp)⟩
  · intro s t l x v hfab hm hsame hx
    refine (atFabric_up s t (fun s => lockstep s l) hfab).trans (congrArg _ ((lockstep_dissenter (s := advance s t) hm hsame hx).trans ?_))
    rw [rinc, rget_rset_ne _ _ _ _ _ _ (by decide)]
    rfl
  · intro s t a b hfab hm hab harm hcom hover hat
    obtain ⟨e, he⟩ : ∃ e, e = raiseEv (advance s t) evTkeLockstepSplit := ⟨_, rfl⟩
    have htke : e.tke = s.tke := he ▸ raiseEv_tke _ _ _ _
    have hnow : e.now = max s.now t := he ▸ raiseEv_now _ _ _ _
    have heq : lockstep (advance s t) [a, b, b, a] = endRow e 2 := by
      rw [lockstep_split (s := advance s t) hm hab, ← he]
      exact rowCause_ends 2 (by rw [htke]; exact harm) (by rw [htke]; exact hcom) (by rw [htke]; exact hover)
        (by rw [hnow, commitAt, htke]; exact hat)
    have hw : Within [.regs, .mem, .extMem, .log, .tke] (blks [.hlm, .jrn]) (advance s t) (endRow e 2) :=
      endRow_within.step (he ▸ raiseEv_within.mono rfl rfl) rfl rfl
    refine ⟨_, (atFabric_up s t (fun s => lockstep s [a, b, b, a]) hfab).trans (congrArg _ heq), ?_, rfl, rfl, ?_, ?_, hw.blocksOnly, hw.eq_frame⟩
    · change some (e.tke.overrun.getD 2) = some 2
      rw [htke, hover]
      rfl
    · change (if e.tke.overrun.isSome then e.tke.usedFc else e.now - e.tke.rowStart) = _
      rw [htke, hover, hnow]
      rfl
    · exact (hw.rget _ _ _ (by decide)).trans hm

end Sys2Proof.Machine
end

section
/-! The sensor front end (R141–R167): impact channels (O23), sensor inputs (O24) and their completion (O50). -/

namespace Sys2Proof.Machine

/-! ### Single bits of a number -/

theorem bitOf_eq_testBit (v n : Nat) : bitOf v n = v.testBit n := by
  simp [bitOf, Nat.testBit_eq_decide_div_mod_eq]
  rfl

theorem bitOf_setBit_self (v n : Nat) (b : Bool) : bitOf (setBit v n b) n = b := by
  have hpos : 0 < 2 ^ n := Nat.two_pow_pos n
  obtain ⟨w, hw, hclear⟩ : ∃ w, v - (if bitOf v n then 2 ^ n else 0) = w ∧ w / 2 ^ n % 2 = 0 := by
    refine ⟨_, rfl, ?_⟩
    by_cases hv : bitOf v n = true
    · rw [if_pos hv]
      have hodd : v / 2 ^ n % 2 = 1 := by simpa [bitOf] using hv
      have hle : 2 ^ n ≤ v := by
        by_contra hlt
        rw [Nat.div_eq_of_lt (by omega)] at hodd
        exact absurd hodd (by decide)
      have := Nat.div_eq_sub_div hpos hle
      omega
    · rw [if_neg hv]
      have : v / 2 ^ n % 2 ≠ 1 := by simpa [bitOf] using hv
      simp only [Nat.sub_zero]
      omega
  rw [setBit, hw, bitOf]
  cases b
  · simp [hclear]
  · rw [if_pos rfl, Nat.add_div_right _ hpos]
    simp
    omega

/-- A bit set within a field's width reads as it was set. -/
theorem bitOf_rsetBitAt (s : State) (f : Fld) {n : Nat} (b : Bool) (i j : Nat) (h : n < f.width) :
    bitOf (rget (rsetBitAt s f n b i j) f i j) n = b := by
  rw [rsetBitAt, rget_rset_self, bitOf_eq_testBit, Nat.testBit_mod_two_pow, decide_eq_true h, Bool.true_and,
    ← bitOf_eq_testBit, bitOf_setBit_self]

/-! ### Impact channels (R144–R149) -/

theorem exec_sfe {s : State} {t : Fc} (c : Instr) (hfab : s.fabric = true) (hedge : edgeDue (advance s t) = false) :
    sfeExec t c s = .next (sfeApply c (advance s t)) := atFabric_afterEdge hfab c (sfeApply c) hedge

theorem impOpen_enabled {s : State} {n : Nat} (xs : List Int) (h : rbit s R.SFE_IMP_CFG_EN 0 n = true) :
    impOpen s n xs = setImp s n (xs.foldl (impSample (impTrig s n) (rval s R.SFE_IMP_CFG_HOLD_OFF 0 n)) (getImp s n)) :=
  if_pos h

/-- A conversion above TRIG opens a pulse of an idle channel, once a stuck one has been quiet. -/
theorem impSample_opens {trig hold : Nat} {c : ImpCh} {x : Int} (hidle : c.isOpen = false) (hx : trig < impMag c x)
    (hq : c.waiting = false ∨ hold ≤ c.quiet) :
    impSample trig hold c x = { c with isOpen := true, waiting := false, quiet := 0 } := by
  unfold impSample
  rw [hidle]
  dsimp only
  rw [if_neg (by simp)]
  exact if_pos ⟨hx, by simpa using hq⟩

/-- A conversion at or below TRIG enters the baseline. -/
theorem impSample_quiet {trig hold : Nat} {c : ImpCh} {x : Int} (hidle : c.isOpen = false) (hx : impMag c x ≤ trig) :
    impSample trig hold c x = { c with base := c.base + (x * 65536 - c.base) / 5000, quiet := c.quiet + 1 } := by
  unfold impSample
  rw [hidle]
  dsimp only
  rw [if_neg (by simp), if_neg (fun h => absurd h.1 (Nat.not_lt.mpr hx)), if_pos hx]
  rfl

section
variable {s : State} {n : Nat} {xs : List Int} {l : List Nat} (hopen : (getImp s n).isOpen = true)
  (hl : xs.map (impMag (getImp s n)) = l) (habove : opensAbove (impTrig s n) l = true)
  (hend : pulseEnd (impTrig s n) (rval s R.SFE_IMP_CFG_HOLD_OFF 0 n) l = some l.length) (hlen : l.length ≤ 4096)
include hopen hl habove hend hlen

/-- What a pulse that closes leaves: it is counted once, as a pile-up or in its class, and a clipped one in CLIPPED too. -/
theorem impClose_closes : ∃ f, (xs.any impFull = false → f = features (impTrig s n) l) ∧
    impClose s n xs = noteClip (setImp s n
      (if isPileUp (impTrig s n) l then
        { getImp s n with
          isOpen := false, clip := (getImp s n).clip || xs.any impFull, pileup := min ((getImp s n).pileup + 1) 0xFF }
      else ImpCh.count { getImp s n with isOpen := false, clip := (getImp s n).clip || xs.any impFull }
        (classify s n f))) (xs.any impFull) := by
  subst hl
  refine ⟨_, ?_, if_pos (by rw [hopen, habove, hend]; simpa using hlen)⟩
  intro hfull
  exact if_neg (by simp [hfull])

/-- A pulse without a clip leaves the CLIPPED counter alone. -/
theorem impClose_unclipped (hfull : xs.any impFull = false) : impClose s n xs = setImp s n
    (if isPileUp (impTrig s n) l then { getImp s n with isOpen := false, pileup := min ((getImp s n).pileup + 1) 0xFF }
    else ImpCh.count { getImp s n with isOpen := false } (classify s n (features (impTrig s n) l))) := by
  obtain ⟨f, hf, h⟩ := impClose_closes hopen hl habove hend hlen
  rw [h, hfull, hf hfull, Bool.or_false]
  rfl

/-- A pulse that is no pile-up counts once in its class. -/
theorem impClose_counts {k : Nat} (hfull : xs.any impFull = false) (hpile : isPileUp (impTrig s n) l = false)
    (hcls : classify s n (features (impTrig s n) l) = k) :
    impClose s n xs = setImp s n (ImpCh.count { getImp s n with isOpen := false } k) := by
  rw [impClose_unclipped hopen hl habove hend hlen hfull, hpile, hcls]
  exact congrArg _ (if_neg (by simp))

/-- A pile-up counts as such alone. -/
theorem impClose_pileUp (hfull : xs.any impFull = false) (hpile : isPileUp (impTrig s n) l = true) : impClose s n xs =
    setImp s n { getImp s n with isOpen := false, pileup := min ((getImp s n).pileup + 1) 0xFF } := by
  rw [impClose_unclipped hopen hl habove hend hlen hfull, hpile]
  exact congrArg _ (if_pos rfl)

/-- A clipped pulse marks its channel and counts in CLIPPED. -/
theorem impClose_clipped (hfull : xs.any impFull = true) : ∃ c, c.clip = true ∧ c.isOpen = false ∧
    impClose s n xs = rinc (setImp s n c) R.SFE_IMP_EVENTS_CLIPPED := by
  obtain ⟨f, -, h⟩ := impClose_closes hopen hl habove hend hlen
  rw [h, hfull]
  refine ⟨_, ?_, ?_, rfl⟩
  · split
    · exact Bool.or_true _
    · unfold ImpCh.count
      split <;> exact Bool.or_true _
  · split
    · rfl
    · unfold ImpCh.count
      split <;> rfl

end

/-- A pulse still open after 4,096 samples closes, and the first of its kind raises the event. -/
theorem impStuck_first {s : State} {n : Nat} {xs : List Int} {l : List Nat} (hopen : (getImp s n).isOpen = true)
    (hl : (xs.take 4096).map (impMag (getImp s n)) = l) (habove : opensAbove (impTrig s n) l = true)
    (hlen : 4096 ≤ l.length) (hend : pulseEnd (impTrig s n) (rval s R.SFE_IMP_CFG_HOLD_OFF 0 n) l = none)
    (hfull : (xs.take 4096).any impFull = false) (htold : (getImp s n).stuckTold = false) :
    ∃ c, c.isOpen = false ∧ c.waiting = true ∧ c.stuck = true ∧ c.kernel = (getImp s n).kernel ∧
      impStuck s n xs = raiseEv (rinc (setImp s n c) R.SFE_IMP_EVENTS_STUCK) evSfeImpactStuck := by
  subst hl
  refine ⟨{ getImp s n with
    isOpen := false, waiting := true, quiet := 0, stuck := true, stuckTold := true, clip := (getImp s n).clip || false,
    pileup := if isPileUp (impTrig s n) ((xs.take 4096).map (impMag (getImp s n))) then
      min ((getImp s n).pileup + 1) 0xFF else (getImp s n).pileup }, rfl, rfl, rfl, rfl, ?_⟩
  unfold impStuck
  dsimp only
  rw [if_pos (by rw [hopen, habove, hend]; simpa using hlen), htold, if_neg (by decide), hfull]
  rfl

theorem getImp_setImp (s : State) (n : Nat) (c : ImpCh) : getImp (setImp s n c) n = c := tblGetD_set_self _ _ _ _

/-- Settles O23. -/
theorem impactPulses : Obligations.ImpactPulses := by
  unfold Obligations.ImpactPulses
  refine ⟨?_, ?_, ?_, ?_, ?_, ?_, ?_, ?_, ?_⟩
  · intro s t ch xs x hfab hedge hen
    exact (exec_sfe (.impactPulseOpen t ch xs x) hfab hedge).trans (congrArg _ (impOpen_enabled (s := advance s t) _ hen))
  · intro s t ch xs x c hfab hedge hen hc hidle hx hq
    refine (exec_sfe (.impactPulseOpen t ch xs x) hfab hedge).trans (congrArg _
      ((impOpen_enabled (s := advance s t) _ hen).trans ?_))
    rw [List.foldl_append]
    change setImp _ _ (impSample _ _ (xs.foldl (impSample (impTrig s ch) (rval s R.SFE_IMP_CFG_HOLD_OFF 0 ch))
      (getImp s ch)) x) = _
    rw [hc]
    exact congrArg _ (impSample_opens hidle hx hq)
  · intro s t ch x hfab hedge hen hidle hx
    exact (exec_sfe (.impactPulseOpen t ch [] x) hfab hedge).trans (congrArg _
      ((impOpen_enabled (s := advance s t) _ hen).trans (congrArg _ (impSample_quiet hidle hx))))
  · intro s t ch x xs l hfab hedge hopen hl habove hend hlen hfull hpile hcls
    exact (exec_sfe (.impactPulseClose t ch x xs) hfab hedge).trans (congrArg _
      (impClose_counts (s := advance s t) hopen hl habove hend hlen hfull hpile hcls))
  · intro s t ch x xs l hfab hedge hopen hl habove hend hlen hfull hpile hcls
    exact (exec_sfe (.impactPulseClose t ch x xs) hfab hedge).trans (congrArg _
      (impClose_counts (s := advance s t) hopen hl habove hend hlen hfull hpile hcls))
  · intro s t ch x xs l hfab hedge hopen hl habove hend hlen hfull hpile hcls
    exact (exec_sfe (.impactPulseClose t ch x xs) hfab hedge).trans (congrArg _
      (impClose_counts (s := advance s t) hopen hl habove hend hlen hfull hpile hcls))
  · intro s t ch x xs l hfab hedge hopen hl habove hend hlen hfull hpile
    exact (exec_sfe (.impactPulseClose t ch x xs) hfab hedge).trans (congrArg _
      (impClose_pileUp (s := advance s t) hopen hl habove hend hlen hfull hpile))
  · intro s t ch x xs l hfab hedge hopen hl habove hend hlen hfull
    obtain ⟨c, hclip, hidle, h⟩ := impClose_clipped (s := advance s t) hopen hl habove hend hlen hfull
    refine ⟨_, (exec_sfe (.impactPulseClose t ch x xs) hfab hedge).trans (congrArg _ h), ?_, ?_, rget_rinc_self _ _ _ _ _,
      rset_regsOnly _ _ _ _ _ (by simp), rfl⟩
    · rw [rinc, getImp, rset_sfe, ← getImp, getImp_setImp, hclip]
    · rw [rinc, getImp, rset_sfe, ← getImp, getImp_setImp, hidle]
  · intro s t ch xs l hfab hedge hopen hl habove hlen hend hfull htold
    obtain ⟨c, hidle, hwait, hstuck, hker, h⟩ := impStuck_first (s := advance s t) hopen hl habove hlen hend hfull htold
    obtain ⟨v, hv⟩ : ∃ v, v = rinc (setImp (advance s t) ch c) R.SFE_IMP_EVENTS_STUCK := ⟨_, rfl⟩
    have hw : Within [.regs, .sfe] (blks [.sfe]) (advance s t) v := by
      rw [hv]
      exact rinc_within.step (within_sfe (.refl _) rfl) rfl rfl
    have hcv : getImp v ch = c := by
      rw [hv]
      exact getImp_setImp _ _ _
    have hw' : Within [.regs, .sfe, .log, .mem, .extMem] (blks [.sfe, .hlm, .jrn]) (advance s t) (raiseEv v evSfeImpactStuck) :=
      raiseEv_within.step (hw.mono rfl rfl) rfl rfl
    have hget : getImp (raiseEv v evSfeImpactStuck) ch = c := by
      rw [getImp, raiseEv_sfe]
      exact hcv
    rw [← hv] at h
    refine ⟨_, (exec_sfe (.impactStuck t ch xs) hfab hedge).trans (congrArg _ h), ?_, ?_, ?_, ?_, ?_, hw'.blocksOnly,
      hw'.eq_frame⟩
    · rw [hget, hidle]
    · rw [hget, hwait]
    · rw [hget, hstuck]
    · rw [hget, hker]
      rfl
    · rw [rget_raiseEv _ _ _ _ _ _ _ (by decide), hv]
      exact rget_rinc_self _ _ _ _ _

/-! ### Frequency and quadrature inputs (R151, R152) -/

theorem getQuad_setQuad (s : State) (j k : Nat) (q : QuadPair) :
    getQuad (setQuad s j q) k = if k = j then q else getQuad s k := tblGetD_set _ _ _ _ _

/-- The pairs below `m` that a mask names are marked, and nothing else changes. -/
theorem quadZero_marks (s : State) (mask m : Nat) :
    let u := (List.range m).foldl (fun s k => if bitOf mask k then setQuad s k { getQuad s k with zero := true } else s) s
    u = { s with sfe := u.sfe } ∧
      ∀ k, getQuad u k = if k < m then { getQuad s k with zero := (getQuad s k).zero || bitOf mask k } else getQuad s k := by
  induction m with
  | zero => exact ⟨rfl, fun k => rfl⟩
  | succ m ih =>
    dsimp only at ih ⊢
    rw [List.range_succ, List.foldl_append, List.foldl_cons, List.foldl_nil]
    obtain ⟨v, hv⟩ : ∃ v, v = (List.range m).foldl
      (fun s k => if bitOf mask k then setQuad s k { getQuad s k with zero := true } else s) s := ⟨_, rfl⟩
    rw [← hv] at ih ⊢
    obtain ⟨hframe, hget⟩ := ih
    have hm : getQuad v m = getQuad s m := by rw [hget, if_neg (Nat.lt_irrefl m)]
    constructor
    · rw [hframe]
      split <;> rfl
    · intro k
      split
      case isTrue hbit =>
        rw [getQuad_setQuad]
        split
        case isTrue hk => rw [hk, hm, hbit, Bool.or_true, if_pos (Nat.lt_succ_self m)]
        case isFalse hk => rw [hget, if_congr (by omega : k < m ↔ k < m + 1) rfl rfl]
      case isFalse hbit =>
        rw [hget]
        by_cases hk : k = m
        · rw [hk, if_neg (Nat.lt_irrefl m), if_pos (Nat.lt_succ_self m), Bool.eq_false_iff.mpr hbit, Bool.or_false]
        · rw [if_congr (by omega : k < m ↔ k < m + 1) rfl rfl]

/-- A legal step of a joined pair moves the position. -/
theorem quadEdge_step {s : State} {k : Nat} {a b : Bool} (hon : quadOn s k = true)
    (h : a = (getQuad s k).a ∨ b = (getQuad s k).b) : quadEdge s k a b =
      setQuad s k { getQuad s k with
        a := a, b := b, pos := (getQuad s k).pos + quadStep (getQuad s k).a (getQuad s k).b a b } := by
  unfold quadEdge
  dsimp only
  rw [if_pos hon]
  exact if_neg (by rcases h with h | h <;> simp [h])

/-- An illegal step only counts an error. -/
theorem quadEdge_illegal {s : State} {k : Nat} {a b : Bool} (hon : quadOn s k = true)
    (ha : a ≠ (getQuad s k).a) (hb : b ≠ (getQuad s k).b) : quadEdge s k a b =
      rinc (setQuad s k { getQuad s k with a := a, b := b, err := true }) R.SFE_QUAD_ERRS_COUNT := by
  unfold quadEdge
  dsimp only
  rw [if_pos hon]
  exact if_pos (by simp [ha, hb])

/-! ### General inputs and load cells (R153, R154) -/

/-- A sample above the threshold keeps a DIG input up, and takes it after the debounce time. -/
theorem digSamples_held {s : State} {n uv : Nat} {c : DigIn} (hmode : rval s R.SFE_GIN_CFG_MODE 0 n = 5)
    (hc : tblGetD s.sfe.dig n DigIn.idle = c) (hraw : c.raw = true)
    (hth : rval s R.SFE_GIN_CFG_DIG_THRESH 0 n * 250000 ≤ uv + 500000)
    (hheld : c.since + rget s R.SFE_GIN_CFG_DEBOUNCE_MS 0 n * fcMs ≤ s.now) : digSamples s n [uv] =
      { s with sfe := { s.sfe with dig := tblSet s.sfe.dig n { c with level := true } } } := by
  have hs : digSample (rval s R.SFE_GIN_CFG_DIG_THRESH 0 n) (rget s R.SFE_GIN_CFG_DEBOUNCE_MS 0 n) s.now c uv =
      { c with level := true } := by
    unfold digSample
    rw [hraw]
    dsimp only
    rw [if_pos rfl, decide_eq_true hth, if_pos rfl, if_pos hheld]
  unfold digSamples
  rw [if_pos hmode, hc]
  simp only [List.foldl_cons, List.foldl_nil, List.length_cons, List.length_nil, Nat.zero_add, Nat.sub_self, Nat.zero_mul,
    Nat.sub_zero, hs]

/-- An excitation beyond its limits is a fault of its cell alone. -/
theorem excMeasure_fault {s : State} {n ma mv : Nat} (hen : rbit s R.SFE_LCL_CFG_EN 0 n = true) (hbad : 60 < ma ∨ mv < 4750) :
    excMeasure s n ma mv = { s with sfe := { s.sfe with
      exc := n :: s.sfe.exc.filter (fun x => x != n), excTick := n :: s.sfe.excTick.filter (fun x => x != n) } } := by
  have hbad : (decide (60 < ma) || decide (mv < 4750)) = true := by simpa using hbad
  unfold excMeasure
  rw [if_pos hen]
  dsimp only
  rw [hbad]
  rfl

/-- An excitation within its limits ends its cell's fault, which stays in the sampled tick's record. -/
theorem excMeasure_good {s : State} {n ma mv : Nat} (hen : rbit s R.SFE_LCL_CFG_EN 0 n = true) (hma : ma ≤ 60)
    (hmv : 4750 ≤ mv) : n ∉ (excMeasure s n ma mv).sfe.exc ∧
      (n ∈ s.sfe.exc → n ∈ (excMeasure s n ma mv).sfe.excTick) := by
  have hbad : (decide (60 < ma) || decide (mv < 4750)) = false := by simp; omega
  unfold excMeasure
  rw [if_pos hen]
  dsimp only
  rw [hbad]
  refine ⟨?_, fun h => ?_⟩
  · simp
  · rw [if_pos (by simpa using h)]
    exact List.mem_cons_self

/-! ### Sensor supplies (R155) -/

theorem getSsup_setSsup (s : State) (n : Nat) (c : Ssup) : getSsup (setSsup s n c) n = c := tblGetD_set_self _ _ _ _

/-- The turn-offs of a supply in the latest 10 s, with the one of now. -/
def supplyTrips (s : State) (n : Nat) : List Nat :=
  s.now :: (getSsup s n).offTimes.filter fun x => decide (s.now < x + 10 * fcSec)

/-- The record of a supply that has turned off on a fault. -/
def supplyTripped (s : State) (n : Nat) (latch : Bool) : Ssup :=
  { on := false, onAt := (getSsup s n).onAt, badTick := true, offTimes := supplyTrips s n,
    restartAt := if latch then none else some (s.now + 100 * fcMs) }

/-- A supply that has turned off on a fault: it latches on the third trip, or restarts later. -/
def supplyOff (s : State) (n : Nat) (latch : Bool) : State :=
  setOnes (rsetBitAt (setSsup s n (supplyTripped s n latch)) R.SFE_SSUP_STAT_FAULT n true) R.SFE_SSUP_STAT_TRIPPED n

theorem ssupFault_trips {s : State} {n ma mv since : Nat} (hon : (getSsup s n).on = true)
    (hbad : 360 < ma ∨ mv * 10 < ssupMv s n * 9) (hsince : since + fcMs ≤ s.now) : ssupFault s n ma mv since =
      if decide (3 ≤ (supplyTrips s n).length) then
        raiseEv (rsetBitAt (supplyOff s n true) R.SFE_SSUP_STAT_LATCHED n true) evSfeSupplyLatched
      else supplyOff s n false := by
  have hbad : (decide (360 < ma) || decide (mv * 10 < ssupMv s n * 9)) = true := by simpa using hbad
  unfold ssupFault
  dsimp only
  rw [if_pos (by rw [hon, hbad]; simpa using hsince)]
  change (if decide (3 ≤ (supplyTrips s n).length) then
    raiseEv (rsetBitAt (supplyOff s n (decide (3 ≤ (supplyTrips s n).length))) R.SFE_SSUP_STAT_LATCHED n true)
      evSfeSupplyLatched else supplyOff s n (decide (3 ≤ (supplyTrips s n).length))) = _
  generalize decide (3 ≤ (supplyTrips s n).length) = latch
  cases latch
  · rw [if_neg Bool.false_ne_true, if_neg Bool.false_ne_true]
  · rw [if_pos rfl, if_pos rfl]

/-- What a supply's turn-off leaves. -/
theorem supplyOff_fields (s : State) {n : Nat} (hn : n < 8) (latch : Bool) :
    getSsup (supplyOff s n latch) n = supplyTripped s n latch ∧
    bitOf (rget (supplyOff s n latch) R.SFE_SSUP_STAT_FAULT) n = true ∧
    bitOf (rget (supplyOff s n latch) R.SFE_SSUP_STAT_TRIPPED) n = true ∧
    RegsOnly s (supplyOff s n latch) [R.SFE_SSUP_STAT_FAULT.key 0 0, R.SFE_SSUP_STAT_TRIPPED.key 0 0] ∧
    Within [.regs, .sfe, .onesAt] (blks [.sfe]) s (supplyOff s n latch) ∧
    supplyOff s n latch = { s with
      regs := (supplyOff s n latch).regs, sfe := (supplyOff s n latch).sfe, onesAt := (supplyOff s n latch).onesAt } := by
  have hw : Within [.regs, .sfe, .onesAt] (blks [.sfe]) s (supplyOff s n latch) := by
    unfold supplyOff
    exact setOnes_within.step (rsetBitAt_within.step (within_sfe (.refl _) rfl) rfl rfl) rfl rfl
  refine ⟨getSsup_setSsup _ _ _, ?_, ?_, ?_, hw, hw.eq_frame⟩
  · have hother (u : State) : rget (setOnes u R.SFE_SSUP_STAT_TRIPPED n) R.SFE_SSUP_STAT_FAULT = rget u R.SFE_SSUP_STAT_FAULT :=
      rget_rset_ne u _ _ _ _ _ (by decide)
    rw [supplyOff, hother]
    exact bitOf_rsetBitAt _ R.SFE_SSUP_STAT_FAULT true 0 0 hn
  · exact bitOf_rsetBitAt (rsetBitAt _ R.SFE_SSUP_STAT_FAULT n true) R.SFE_SSUP_STAT_TRIPPED true 0 0 hn
  · exact (rset_regsOnly (setSsup s n (supplyTripped s n latch)) _ _ _ _ (by simp)).trans (rset_regsOnly _ _ _ _ _ (by simp))

/-- A supply restarts when its time has come. -/
theorem ssupRestart_due {s : State} {n d : Nat} (hd : (getSsup s n).restartAt = some d) (hnow : d ≤ s.now) :
    ssupRestart s n = rsetBitAt (setSsup s n { getSsup s n with on := true, onAt := s.now, badTick := true, restartAt := none })
      R.SFE_SSUP_STAT_FAULT n false := by
  unfold ssupRestart
  dsimp only
  rw [hd]
  exact if_pos hnow

/-- A write of 1 after 0 to a supply's EN turns it on and releases it. -/
theorem ssupEnable_released {s : State} {n : Nat} (hwas : rbit s R.SFE_SSUP_CFG_EN 0 n = false) : ssupEnable s n true =
    setSsup (rsetBitAt (rsetBitAt (rset s R.SFE_SSUP_CFG_EN 1 0 n) R.SFE_SSUP_STAT_FAULT n false) R.SFE_SSUP_STAT_LATCHED n false)
      n { getSsup s n with on := true, onAt := s.now, badTick := true, restartAt := none } := by
  unfold ssupEnable
  rw [hwas]
  rfl

/-! ### Converter rotation (R161) -/

/-- A converter of a group has been taken out. -/
def converterTaken (s : State) (b : Nat) : State :=
  rinc { s with sfe := { s.sfe with
    lastSwap := tblSet s.sfe.lastSwap b s.now,
    rotation := tblSet s.sfe.rotation b ((tblGetD s.sfe.rotation b 0 + 1) % 9) } } R.SFE_CAL_STAT_SWAPS

theorem converterSwap_taken {s : State} {b : Nat} (gain offset : Nat) (hen : rbit s R.SFE_CTRL_BG_CAL_EN = true)
    (hret : bitOf (rget s R.SFE_CAL_STAT_RETIRED) b = false)
    (hdue : tblGetD s.sfe.lastSwap b 0 + rval s R.SFE_CAL_CFG_PERIOD_S * fcSec ≤ s.now) : converterSwap s b gain offset =
      if 200 < gain ∨ (if b < 6 then 64 else 8) < offset then
        raiseEv (rsetBitAt (converterTaken s b) R.SFE_CAL_STAT_RETIRED b true) evSfeConverterRetired
      else converterTaken s b := by
  unfold converterSwap
  dsimp only
  rw [if_pos (by rw [hen, hret]; simpa using hdue)]
  rfl

/-! ### Zero tracking (R162) -/

theorem ztSettle_due {s : State} {t : Nat} (hsince : s.sfe.zt.since = some t) (hwin : s.sfe.zt.window = none)
    (hdue : t + rget s R.SFE_ZT_TIMES_SETTLE_MS * fcMs ≤ s.now) :
    ztSettle s = { s with sfe := { s.sfe with zt := { s.sfe.zt with window := some s.now, sum := 0, n := 0 } } } := by
  unfold ztSettle
  dsimp only
  rw [hsince, hwin]
  exact if_pos hdue

theorem ztWindowEnd_other {s : State} {start : Nat} (h : s.sfe.zt.window ≠ some start) : ztWindowEnd s start = s := by
  unfold ztWindowEnd
  dsimp only
  split
  · rename_i t ht
    exact if_neg fun hc => h (by rw [ht, hc.1])
  · rfl

theorem ztWindowEnd_due {s : State} {start : Nat} (h : s.sfe.zt.window = some start)
    (hdue : start + rval s R.SFE_ZT_TIMES_WINDOW_MS * fcMs ≤ s.now) (hn : s.sfe.zt.n ≠ 0) : ztWindowEnd s start =
      { s with sfe := { s.sfe with zt := { s.sfe.zt with
        window := some s.now, sum := 0, n := 0, result := some (ratF (s.sfe.zt.sum / s.sfe.zt.n)) } } } := by
  unfold ztWindowEnd
  dsimp only
  rw [h]
  dsimp only
  rw [if_pos ⟨rfl, hdue⟩, if_neg hn]

/-! ### O24 -/

/-- Settles O24. -/
theorem sensorInputs : Obligations.SensorInputs := by
  unfold Obligations.SensorInputs
  refine ⟨?frq, ?frqShort, ?quadUp, ?quadDown, ?quadErr, ?quadZero, ?dig, ?digHeld, ?excBad, ?excGood, ?trip, ?latch,
    ?restart, ?enable, ?swap, ?retire, ?settle, ?windowOther, ?window⟩
  case frq =>
    intro s t n h hfab hedge hen hquad hheld
    refine (exec_sfe (.frqEdge t n h) hfab hedge).trans (congrArg _ (if_pos ?_))
    rw [show rbit (advance s t) R.SFE_FRQ_CFG_EN 0 n = true from hen, show inQuad (advance s t) n = false from hquad]
    exact decide_eq_true (show 40 * rget (advance s t) R.SFE_FRQ_CFG_MIN_PULSE 0 n ≤ h from hheld)
  case frqShort =>
    intro s t n h hfab hedge hheld
    refine (exec_sfe (.frqEdge t n h) hfab hedge).trans (congrArg _ (if_neg ?_))
    rw [decide_eq_false (show ¬ 40 * rget (advance s t) R.SFE_FRQ_CFG_MIN_PULSE 0 n ≤ h from Nat.not_le.mpr hheld)]
    simp
  case quadUp =>
    intro s t k hfab hedge hon ha hb
    refine (exec_sfe (.quadEdge t k true false) hfab hedge).trans (congrArg _
      ((quadEdge_step (s := advance s t) hon (.inr hb.symm)).trans ?_))
    rw [show getQuad (advance s t) k = getQuad s k from rfl, ha, hb]
    rfl
  case quadDown =>
    intro s t k hfab hedge hon ha hb
    refine (exec_sfe (.quadEdge t k false true) hfab hedge).trans (congrArg _
      ((quadEdge_step (s := advance s t) hon (.inl ha.symm)).trans ?_))
    rw [show getQuad (advance s t) k = getQuad s k from rfl, ha, hb]
    rfl
  case quadErr =>
    intro s t k a b hfab hedge hon ha hb
    exact (exec_sfe (.quadEdge t k a b) hfab hedge).trans (congrArg _ (quadEdge_illegal (s := advance s t) hon ha hb))
  case quadZero =>
    intro s t m hfab hedge
    obtain ⟨hframe, hget⟩ := quadZero_marks (advance s t) m 16
    exact ⟨_, exec_sfe (.quadZero t m) hfab hedge, fun k hk => (hget k).trans (if_pos hk), hframe⟩
  case dig =>
    intro s t n uv uvs hfab hedge _
    exact exec_sfe (.digDebounceExpiry t n uv uvs) hfab hedge
  case digHeld =>
    intro s t n uv c hfab hedge hmode hc hraw hth hheld
    exact (exec_sfe (.digDebounceExpiry t n uv []) hfab hedge).trans (congrArg _
      (digSamples_held (s := advance s t) hmode hc hraw hth hheld))
  case excBad =>
    intro s t n ma mv hfab hedge hen hbad
    have h := excMeasure_fault (s := advance s t) hen hbad
    refine ⟨_, (exec_sfe (.excFault t n ma mv) hfab hedge).trans (congrArg _ h), List.mem_cons_self, List.mem_cons_self,
      fun k hk => ?_, rfl⟩
    change k ∈ n.val :: s.sfe.exc.filter (fun x => x != n.val) ↔ _
    simp [hk]
  case excGood =>
    intro s t n ma mv hfab hedge hen hma hmv
    exact ⟨_, exec_sfe (.excFault t n ma mv) hfab hedge, excMeasure_good (s := advance s t) hen hma hmv⟩
  case trip =>
    intro s t n ma mv a hfab hedge hon hbad hsince hfew
    have h := ssupFault_trips (s := advance s t) hon hbad hsince
    rw [if_neg (by rw [decide_eq_true_eq]; exact Nat.not_le.mpr (Nat.succ_lt_succ hfew))] at h
    obtain ⟨hget, hfault, htrip, hregs, -, hframe⟩ := supplyOff_fields (advance s t) n.isLt false
    exact ⟨_, (exec_sfe (.ssupFaultOff t n ma mv a) hfab hedge).trans (congrArg _ h), by rw [hget]; rfl, by rw [hget]; rfl,
      by rw [hget]; rfl, hfault, htrip, by rw [hget]; rfl, hregs, hframe⟩
  case latch =>
    intro s t n ma mv a hfab hedge hon hbad hsince hmany
    have h := ssupFault_trips (s := advance s t) hon hbad hsince
    rw [if_pos (decide_eq_true (show 3 ≤ (supplyTrips (advance s t) n).length from Nat.succ_le_succ hmany))] at h
    obtain ⟨hget, hfault, htrip, -, hw, -⟩ := supplyOff_fields (advance s t) n.isLt true
    obtain ⟨v, hv⟩ : ∃ v, v = supplyOff (advance s t) n true := ⟨_, rfl⟩
    rw [← hv] at h hget hfault htrip hw
    have hw' : Within [.regs, .sfe, .onesAt, .log, .mem, .extMem] (blks [.sfe, .hlm, .jrn]) (advance s t)
        (raiseEv (rsetBitAt v R.SFE_SSUP_STAT_LATCHED n true) evSfeSupplyLatched) :=
      raiseEv_within.step (rsetBitAt_within.step (hw.mono rfl rfl) rfl rfl) rfl rfl
    have hsup : getSsup (raiseEv (rsetBitAt v R.SFE_SSUP_STAT_LATCHED n true) evSfeSupplyLatched) n =
        supplyTripped (advance s t) n true := by
      rw [getSsup, raiseEv_sfe]
      exact hget
    refine ⟨_, (exec_sfe (.ssupFaultOff t n ma mv a) hfab hedge).trans (congrArg _ h), by rw [hsup]; rfl, by rw [hsup]; rfl,
      by rw [hsup]; rfl, ?_, ?_, by rw [hsup]; rfl, ?_, hw'.blocksOnly, hw'.eq_frame⟩
    · rw [rget_raiseEv _ _ _ _ _ _ _ (by decide), rsetBitAt, rget_rset_ne _ _ _ _ _ _ (by decide)]
      exact hfault
    · rw [rget_raiseEv _ _ _ _ _ _ _ (by decide), rsetBitAt, rget_rset_ne _ _ _ _ _ _ (by decide)]
      exact htrip
    · rw [rget_raiseEv _ _ _ _ _ _ _ (by decide)]
      exact bitOf_rsetBitAt v R.SFE_SSUP_STAT_LATCHED true 0 0 n.isLt
  case restart =>
    intro s t n a hfab hedge hat ha
    refine ⟨_, (exec_sfe (.ssupRestart t n) hfab hedge).trans (congrArg _ (ssupRestart_due (s := advance s t) hat ha)),
      getSsup_setSsup (advance s t) _ _, ?_, rset_regsOnly _ _ _ _ _ (by simp), rfl⟩
    exact bitOf_rsetBitAt _ R.SFE_SSUP_STAT_FAULT false 0 0 n.isLt
  case enable =>
    intro s t n hfab hedge hwas
    have h := ssupEnable_released (s := advance s t) hwas
    obtain ⟨v, hv⟩ : ∃ v, v = rsetBitAt (rset (advance s t) R.SFE_SSUP_CFG_EN 1 0 n) R.SFE_SSUP_STAT_FAULT n false := ⟨_, rfl⟩
    have hvw : v = { advance s t with regs := v.regs } := by rw [hv]; rfl
    have hregs : RegsOnly s v [R.SFE_SSUP_CFG_EN.key 0 n, R.SFE_SSUP_STAT_FAULT.key 0 0, R.SFE_SSUP_STAT_LATCHED.key 0 0] := by
      rw [hv]
      exact RegsOnly.trans (rset_regsOnly _ _ _ _ _ (by simp)) (rset_regsOnly _ _ _ _ _ (by simp))
    have hfault : bitOf (rget v R.SFE_SSUP_STAT_FAULT) n = false := by
      rw [hv]
      exact bitOf_rsetBitAt _ R.SFE_SSUP_STAT_FAULT false 0 0 n.isLt
    have hen : rget v R.SFE_SSUP_CFG_EN 0 n = 1 := by
      rw [hv, rsetBitAt, rget_rset_ne _ _ _ _ _ _ (by decide), rget_rset_self]
      rfl
    rw [← hv] at h
    have hread (f : Fld) (j : Nat) (hf : f.id ≠ R.SFE_SSUP_STAT_LATCHED.id) :
        rget (rsetBitAt v R.SFE_SSUP_STAT_LATCHED n false) f 0 j = rget v f 0 j := rget_rset_ne _ _ _ _ _ _ hf
    have hlatched : bitOf (rget (rsetBitAt v R.SFE_SSUP_STAT_LATCHED n false) R.SFE_SSUP_STAT_LATCHED) n = false :=
      bitOf_rsetBitAt v R.SFE_SSUP_STAT_LATCHED false 0 0 n.isLt
    have hsup := getSsup_setSsup (rsetBitAt v R.SFE_SSUP_STAT_LATCHED n false) n
      { getSsup s n with on := true, onAt := max s.now t, badTick := true, restartAt := none }
    refine ⟨_, (exec_sfe (.ssupEnable t n true) hfab hedge).trans (congrArg _ h), (hread _ _ (by decide)).trans hen,
      congrArg Ssup.on hsup, congrArg Ssup.restartAt hsup,
      (congrArg (bitOf · n) (hread R.SFE_SSUP_STAT_FAULT 0 (by decide))).trans hfault, hlatched,
      hregs.trans (rset_regsOnly _ _ _ _ _ (by simp)), ?_⟩
    rw [hvw]
    rfl
  case swap =>
    intro s t b g o hfab hen hret hdue hg ho
    have h := converterSwap_taken (s := advance s t) g o hen hret hdue
    rw [if_neg (by omega)] at h
    exact ⟨_, (atFabric_up s t (fun s => converterSwap s b g o) hfab).trans (congrArg _ h), tblGet?_set_self _ _ _,
      tblGet?_set_self _ _ _, rget_rinc_self _ _ _ _ _, rset_regsOnly _ _ _ _ _ (by simp), rfl⟩
  case retire =>
    intro s t b g o hfab hen hret hdue hbad
    have h := converterSwap_taken (s := advance s t) g o hen hret hdue
    rw [if_pos hbad] at h
    obtain ⟨v, hv⟩ : ∃ v, v = converterTaken (advance s t) b := ⟨_, rfl⟩
    have hlast : tblGet? v.sfe.lastSwap b = some (max s.now t) := by rw [hv]; exact tblGet?_set_self _ _ _
    have hrot : tblGet? v.sfe.rotation b = some ((tblGetD s.sfe.rotation b 0 + 1) % 9) := by
      rw [hv]
      exact tblGet?_set_self _ _ _
    have hswaps : rget v R.SFE_CAL_STAT_SWAPS = satTo R.SFE_CAL_STAT_SWAPS.width (rget s R.SFE_CAL_STAT_SWAPS + 1) := by
      rw [hv]
      exact rget_rinc_self _ _ _ _ _
    have hw : Within [.regs, .sfe, .log, .mem, .extMem] (blks [.sfe, .hlm, .jrn]) (advance s t) v := by
      rw [hv]
      exact rinc_within.step (within_sfe (.refl _) rfl) rfl rfl
    rw [← hv] at h
    have hw' := raiseEv_within (code := evSfeConverterRetired) (inst := 0) (data := 0) |>.step
      ((rsetBitAt_within (f := R.SFE_CAL_STAT_RETIRED) (n := b) (b := true) (i := 0) (j := 0)).step hw rfl rfl) rfl rfl
    refine ⟨_, (atFabric_up s t (fun s => converterSwap s b g o) hfab).trans (congrArg _ h), ?_, ?_, ?_, ?_,
      hw'.blocksOnly, hw'.eq_frame⟩
    · rw [raiseEv_sfe]
      exact hlast
    · rw [raiseEv_sfe]
      exact hrot
    · rw [rget_raiseEv _ _ _ _ _ _ _ (by decide), rsetBitAt, rget_rset_ne _ _ _ _ _ _ (by decide), hswaps]
    · rw [rget_raiseEv _ _ _ _ _ _ _ (by decide)]
      exact bitOf_rsetBitAt v R.SFE_CAL_STAT_RETIRED true 0 0 b.isLt
  case settle =>
    intro s t a hfab hedge hsince hwin hdue
    exact (exec_sfe (.ztSettleExpiry t) hfab hedge).trans (congrArg _ (ztSettle_due (s := advance s t) hsince hwin hdue))
  case windowOther =>
    intro s t a hfab hedge h
    exact (exec_sfe (.ztWindowEnd t a) hfab hedge).trans (congrArg _ (ztWindowEnd_other (s := advance s t) h))
  case window =>
    intro s t a hfab hedge h hdue hn
    exact (exec_sfe (.ztWindowEnd t a) hfab hedge).trans (congrArg _ (ztWindowEnd_due (s := advance s t) h hdue hn))

/-! ### O50 -/

/-- Settles O50: each clause is part of what the families' statements give of its command. -/
theorem tickAndSensingComplete : Obligations.TickAndSensingComplete := by
  unfold Obligations.TickAndSensingComplete
  obtain ⟨commits, -, -, -, -, flush, mask, -⟩ := commitCommands
  obtain ⟨load, -, -, -, -, -, admitted, -, -, tableSet, -, -, -, tableOk, promote, -⟩ := patternsAndTables
  obtain ⟨arm, -, -, -, -, disarm⟩ := tickArming
  obtain ⟨post, -, -, -, envelope, -, -, -, cal, -, -, cls, -⟩ := generalService
  obtain ⟨impOpen, -, -, impClose, -, -, -, -, impStuck⟩ := impactPulses
  obtain ⟨frq, -, quad, -, -, zero, dig, -, exc, -, trip, -, restart, enable, swap, -, settle, -, window⟩ := sensorInputs
  refine ⟨?_, ?_, ?_, ?_, ?_, ?_, ?_, ?_, ?_, ?_, ?_, ?_, ?_, ?_, ?_, ?_, ?_, ?_, ?_, ?_, dig, ?_, ?_, ?_, ?_, ?_, ?_, ?_⟩
  · intro s t amps h1 h2 h3 h4 h5 h6 h7 h8 h9 h10
    obtain ⟨u, hu, hcom, -, hcons, -⟩ := commits s t amps h1 h2 h3 h4 h5 h6 h7 h8 h9 h10
    exact ⟨u, hu, hcom, hcons⟩
  · intro s t amps h1 h2 h3 h4
    obtain ⟨u, hu, hfl, -, hleft, -⟩ := flush s t amps h1 h2 h3 h4
    exact ⟨u, hu, hfl, hleft⟩
  · intro s t l x v h1 h2 h3 h4
    refine ⟨_, mask s t l x v h1 h2 h3 h4, ?_, ?_⟩
    · rw [rget_raiseEv _ _ _ _ _ _ _ (by decide), rget_rset_ne _ _ _ _ _ _ (by decide), rget_rset_self]
      exact Nat.mod_eq_of_lt (Nat.pow_lt_pow_right (by decide) x.isLt)
    · rw [rget_raiseEv _ _ _ _ _ _ _ (by decide), rget_rset_self, satTo_mod]
  · intro s t r d img h1 h2 h3 h4 h5 h6 h7 h8
    exact ⟨_, load s t r d img h1 h2 h3 h4 h5 h6 h7 h8, rfl⟩
  · intro s t r d img p h1 h2 h3 h4 h5 h6 h7
    exact ⟨_, admitted s t r d img p h1 h2 h3 h4 h5 h6 h7, by rw [complete_within.tke.resolve_left (by simp)],
      by rw [complete_within.tke.resolve_left (by simp)]⟩
  · intro s t r d img h1 h2 h3 h4 h5 h6 h7
    exact ⟨_, tableSet s t r d img h1 h2 h3 h4 h5 h6 h7, rfl⟩
  · intro s t r d b img h1 h2 h3 h4 h5 h6 h7
    obtain ⟨u, hu, hbuf, -, -, -, hload, -⟩ := tableOk s t r d b img h1 h2 h3 h4 h5 h6 h7
    exact ⟨u, hu, hload, hbuf⟩
  · intro s t r d h1 h2 h3 h4 h5 h6 h7 h8
    exact ⟨_, promote s t r d h1 h2 h3 h4 h5 h6 h7 h8, rfl⟩
  · intro s t saved h1 h2 h3 h4
    obtain ⟨u, hu, harm, -, herr, -, -, -, -, hbid, -⟩ := arm s t saved h1 h2 h3 h4
    exact ⟨u, hu, harm, herr, hbid⟩
  · intro s t h1
    obtain ⟨u, hu, harm, hctrl, -⟩ := disarm s t h1
    exact ⟨u, hu, harm, hctrl⟩
  · intro s t r d h1 h2 h3 h4 h5 h6 h7 h8 h9
    refine ⟨_, post s t r d h1 h2 h3 h4 h5 h6 h7 h8 h9, ?_⟩
    rw [complete_within.sps.resolve_left (by simp), forward_within.sps.resolve_left (by simp)]
    exact tblGet?_set_self _ _ _
  · intro s t r d ts h1 h2 h3 h4 h5 h6 h7 h8 h9 h10 h11 h12 h13 h14
    refine ⟨_, envelope s t r d ts h1 h2 h3 h4 h5 h6 h7 h8 h9 h10 h11 h12 h13 h14, ?_⟩
    rw [forward_within.sps.resolve_left (by simp)]
    exact tblGet?_set_self _ _ _
  · intro s t r d h1 h2 h3 h4 h5 h6 h7 h8 h9
    refine ⟨_, cal s t r d h1 h2 h3 h4 h5 h6 h7 h8 h9, ?_⟩
    rw [forward_within.sfe.resolve_left (by simp)]
    exact tblGet?_set_self _ _ _
  · intro s t r d h1 h2 h3 h4 h5 h6
    refine ⟨_, cls s t r d h1 h2 h3 h4 h5 h6, ?_, ?_, ?_⟩
    · rw [forward_within.rget _ _ _ (by decide)]
      exact (rget_rset_ne _ _ _ _ _ _ (by decide)).trans (rget_rset_self _ _ _ _ _)
    · rw [forward_within.rget _ _ _ (by decide)]
      exact (rget_rset_self _ _ _ _ _).trans (Nat.mod_mod_of_dvd _ (by decide))
    · rw [forward_within.sfe.resolve_left (by simp)]
  · intro s t ch xs x h1 h2 h3
    exact ⟨_, impOpen s t ch xs x h1 h2 h3, getImp_setImp _ _ _⟩
  · intro s t ch x xs l h1 h2 h3 h4 h5 h6 h7 h8 h9 h10
    refine ⟨_, impClose s t ch x xs l h1 h2 h3 h4 h5 h6 h7 h8 h9 h10, ?_, ?_⟩
    · rw [getImp_setImp]
    · rw [getImp_setImp]
  · intro s t ch xs l h1 h2 h3 h4 h5 h6 h7 h8 h9
    obtain ⟨u, hu, hidle, hwait, hstuck, -⟩ := impStuck s t ch xs l h1 h2 h3 h4 h5 h6 h7 h8 h9
    exact ⟨u, hu, hidle, hwait, hstuck⟩
  · intro s t n h h1 h2 h3 h4 h5
    have hget (c : FrqIn) : getFrq (setFrq (advance s t) n c) n = c := tblGetD_set_self _ _ _ _
    exact ⟨_, frq s t n h h1 h2 h3 h4 h5, congrArg FrqIn.t1 (hget _), congrArg FrqIn.t0 (hget _),
      congrArg FrqIn.nInTick (hget _)⟩
  · intro s t k h1 h2 h3 h4 h5
    have hget (q : QuadPair) : getQuad (setQuad (advance s t) k q) k = q := tblGetD_set_self _ _ _ _
    exact ⟨_, quad s t k h1 h2 h3 h4 h5, congrArg QuadPair.pos (hget _), congrArg QuadPair.a (hget _),
      congrArg QuadPair.b (hget _)⟩
  · intro s t m h1 h2
    obtain ⟨u, hu, hmarks, -⟩ := zero s t m h1 h2
    exact ⟨u, hu, hmarks⟩
  · intro s t n ma mv h1 h2 h3 h4
    obtain ⟨u, hu, hexc, htick, -⟩ := exc s t n ma mv h1 h2 h3 h4
    exact ⟨u, hu, hexc, htick⟩
  · intro s t n ma mv a h1 h2 h3 h4 h5 h6
    obtain ⟨u, hu, hon, -, -, hfault, htrip, -⟩ := trip s t n ma mv a h1 h2 h3 h4 h5 h6
    exact ⟨u, hu, hon, hfault, htrip⟩
  · intro s t n a h1 h2 h3 h4
    obtain ⟨u, hu, hsup, hfault, -⟩ := restart s t n a h1 h2 h3 h4
    exact ⟨u, hu, hsup, hfault⟩
  · intro s t n h1 h2 h3
    obtain ⟨u, hu, hen, hon, -⟩ := enable s t n h1 h2 h3
    exact ⟨u, hu, hen, hon⟩
  · intro s t b g o h1 h2 h3 h4 h5 h6
    obtain ⟨u, hu, -, hrot, hswaps, -⟩ := swap s t b g o h1 h2 h3 h4 h5 h6
    exact ⟨u, hu, hrot, hswaps⟩
  · intro s t a h1 h2 h3 h4 h5
    exact ⟨_, settle s t a h1 h2 h3 h4 h5, rfl, rfl⟩
  · intro s t a h1 h2 h3 h4 h5
    exact ⟨_, window s t a h1 h2 h3 h4 h5, rfl, rfl⟩

end Sys2Proof.Machine
end

section
/-! Rules for the drive banks (R168–R203): what reads give after each operation on a channel. -/

namespace Sys2Proof.Machine

/-! ### Access -/

theorem getDrv_congr {s u : State} (h : u.drv = s.drv) (c : Nat) : getDrv u c = getDrv s c := by rw [getDrv, getDrv, h]

theorem getDbk_congr {s u : State} (h : u.dbk = s.dbk) (b : Nat) : getDbk u b = getDbk s b := by rw [getDbk, getDbk, h]

theorem getPps_congr {s u : State} (h : u.pps = s.pps) (p : Nat) : getPps u p = getPps s p := by rw [getPps, getPps, h]

@[simp] theorem getDrv_setDrv_self (s : State) (ch : Nat) (v : DrvCh) : getDrv (setDrv s ch v) ch = v :=
  tblGetD_set_self _ _ _ _

@[simp] theorem getDrv_modDrv_self (s : State) (ch : Nat) (f : DrvCh → DrvCh) :
    getDrv (modDrv s ch f) ch = f (getDrv s ch) := tblGetD_set_self _ _ _ _

theorem getDrv_modDrv_ne (s : State) {c ch : Nat} (f : DrvCh → DrvCh) (h : c ≠ ch) :
    getDrv (modDrv s ch f) c = getDrv s c := (tblGetD_set _ _ _ _ _).trans (if_neg h)

theorem getDbk_setDbk (s : State) (b k : Nat) (v : DrvBank) :
    getDbk (setDbk s b v) k = if k = b then v else getDbk s k := tblGetD_set _ _ _ _ _

@[simp] theorem getDbk_setDbk_self (s : State) (b : Nat) (v : DrvBank) : getDbk (setDbk s b v) b = v :=
  tblGetD_set_self _ _ _ _

@[simp] theorem getPps_setPps_self (s : State) (p : Nat) (v : Pps) : getPps (setPps s p v) p = v :=
  tblGetD_set_self _ _ _ _

@[simp] theorem dget_dset_self (s : State) (f : Fld) (v ch : Nat) : dget (dset s f v ch) f ch = v % 2 ^ f.width :=
  rget_rset_self _ _ _ _ _

theorem dget_dset_ne (s : State) {f g : Fld} (v ch c : Nat) (h : g.id ≠ f.id) : dget (dset s f v ch) g c = dget s g c :=
  rget_rset_ne _ _ _ _ _ _ h

theorem drvPhase_congr {s u : State} (h : u.regs = s.regs) (ch : Nat) : drvPhase u ch = drvPhase s ch := rget_congr h _ _ _

theorem hsvOn_congr {s u : State} (h : u.regs = s.regs) (b : Nat) : hsvOn u b = hsvOn s b := by
  rw [hsvOn, hsvOn, rbit, rbit, rget_congr h]

theorem mem_bankChans {ch b : Nat} (h : ch / 8 = b) : ch ∈ bankChans b := by
  subst h
  exact List.mem_map.mpr ⟨ch % 8, List.mem_range.mpr (Nat.mod_lt _ (by decide)), Nat.div_add_mod ch 8⟩

theorem bank_of_mem {ch b : Nat} (h : ch ∈ bankChans b) : ch / 8 = b := by
  obtain ⟨k, hk, rfl⟩ := List.mem_map.mp h
  have := List.mem_range.mp hk
  omega

/-! ### The high side -/

/-- A bank's high side is closed while the HSV is on, or a channel holds. -/
theorem highSideClosed_of_hsv {s : State} {b : Nat} (h : hsvOn s b = true) : highSideClosed s b = true := by
  rw [highSideClosed, h, Bool.true_or]

theorem highSideClosed_of_hold {s : State} {ch : Nat} (h : drvPhase s ch = 3 ∨ drvPhase s ch = 4) :
    highSideClosed s (ch / 8) = true := by
  rw [highSideClosed, hsbClosed, Bool.or_eq_true]
  refine .inr (List.any_eq_true.mpr ⟨ch, mem_bankChans rfl, ?_⟩)
  rcases h with h | h <;> simp [h]

theorem noteHs_closed {s0 s : State} {b : Nat} (h : highSideClosed s b = true) : noteHs s0 b s = s := by
  unfold noteHs
  rw [h]
  exact if_neg (by simp)

theorem SameBanks.refl (s : State) : SameBanks s s := fun _ => rfl

theorem SameBanks.trans {s u v : State} (h : SameBanks s u) (k : SameBanks u v) : SameBanks s v := fun b => by
  have hb := h b
  rw [← k b] at hb
  exact hb

theorem SameBanks.of_dbk {s u : State} (h : u.dbk = s.dbk) : SameBanks s u := fun b => by rw [getDbk_congr h]

theorem SameBanks.hsvFrom {s u : State} (h : SameBanks s u) (b : Nat) : (getDbk u b).hsvFrom = (getDbk s b).hsvFrom :=
  (congrArg DrvBank.hsvFrom (h b) : _)

theorem noteHs_sameBanks (s0 : State) (b : Nat) (s : State) : SameBanks s (noteHs s0 b s) := fun k => by
  unfold noteHs
  split
  · rw [getDbk_setDbk]
    split
    · rename_i h
      rw [h]
    · rfl
  · rfl

theorem noteHs_regs (s0 : State) (b : Nat) (s : State) : (noteHs s0 b s).regs = s.regs :=
  noteHs_within.regs.resolve_left (by simp)

theorem noteHs_drv (s0 : State) (b : Nat) (s : State) : (noteHs s0 b s).drv = s.drv :=
  noteHs_within.drv.resolve_left (by simp)

/-! ### Phases -/

/-- The orders of a channel are as before: its current, its rate and its next shot. -/
def SameOrders (c d : DrvCh) : Prop := d.propMa = c.propMa ∧ d.rate = c.rate ∧ d.nextShot = c.nextShot

/-- A phase entered before its high side is looked at. -/
def phaseEntered (s : State) (ch ph t : Nat) : State :=
  let s1 := modDrv (dset s R.DBK_CH_STAT_PHASE ph ch) ch fun c =>
    { c with since := t, levelAt := t, phaseWas := drvPhase s ch, diag := (0, 0), forcedDecay := false }
  if drvForced s1 ch then modDrv s1 ch fun c => { c.setLow false t with recForced := true, forcedDecay := true } else s1

theorem setPhaseAt_eq (s : State) (ch ph t : Nat) :
    setPhaseAt s ch ph t = noteHs s (ch / 8) (phaseEntered s ch ph t) := rfl

theorem phaseEntered_regs (s : State) (ch ph t : Nat) :
    (phaseEntered s ch ph t).regs = (dset s R.DBK_CH_STAT_PHASE ph ch).regs := by
  unfold phaseEntered
  dsimp only
  split <;> rfl

theorem setPhaseAt_regs (s : State) (ch ph t : Nat) :
    (setPhaseAt s ch ph t).regs = (dset s R.DBK_CH_STAT_PHASE ph ch).regs :=
  (noteHs_regs _ _ _).trans (phaseEntered_regs s ch ph t)

theorem phaseEntered_drv (s : State) (ch ph t : Nat) :
    (∀ c, c ≠ ch → getDrv (phaseEntered s ch ph t) c = getDrv s c) ∧
    (getDrv (phaseEntered s ch ph t) ch).prof = (getDrv s ch).prof ∧
    SameOrders (getDrv s ch) (getDrv (phaseEntered s ch ph t) ch) := by
  have hdset (c : Nat) : getDrv (dset s R.DBK_CH_STAT_PHASE ph ch) c = getDrv s c := rfl
  unfold phaseEntered
  dsimp only
  split
  · refine ⟨fun c hc => ?_, ?_⟩
    · rw [getDrv_modDrv_ne _ _ hc, getDrv_modDrv_ne _ _ hc, hdset]
    · rw [getDrv_modDrv_self, getDrv_modDrv_self, hdset]
      exact ⟨rfl, rfl, rfl, rfl⟩
  · refine ⟨fun c hc => ?_, ?_⟩
    · rw [getDrv_modDrv_ne _ _ hc, hdset]
    · rw [getDrv_modDrv_self, hdset]
      exact ⟨rfl, rfl, rfl, rfl⟩

theorem getDrv_setPhaseAt (s : State) (ch ph t c : Nat) : getDrv (setPhaseAt s ch ph t) c = getDrv (phaseEntered s ch ph t) c :=
  getDrv_congr (noteHs_drv _ _ _) c

theorem prof_setPhaseAt (s : State) (ch ph t : Nat) : (getDrv (setPhaseAt s ch ph t) ch).prof = (getDrv s ch).prof := by
  rw [getDrv_setPhaseAt]
  exact (phaseEntered_drv s ch ph t).2.1

theorem drvPhase_setPhaseAt (s : State) (ch t : Nat) {ph : Nat} (h : ph < 8) : drvPhase (setPhaseAt s ch ph t) ch = ph := by
  rw [drvPhase_congr (setPhaseAt_regs s ch ph t)]
  exact (dget_dset_self s _ ph ch).trans (Nat.mod_eq_of_lt h)

theorem setPhaseAt_sameBanks (s : State) (ch ph t : Nat) : SameBanks s (setPhaseAt s ch ph t) := by
  have hdbk : (phaseEntered s ch ph t).dbk = s.dbk := by
    unfold phaseEntered
    dsimp only
    split <;> rfl
  exact (SameBanks.of_dbk hdbk).trans (noteHs_sameBanks _ _ _)

theorem setPhaseAt_regsOnly (s : State) (ch ph t : Nat) :
    RegsOnly s (setPhaseAt s ch ph t) [R.DBK_CH_STAT_PHASE.key (ch / 8) (ch % 8)] := by
  intro k hk
  rw [setPhaseAt_regs]
  exact rset_regsOnly s _ _ _ _ (by simp) k hk

/-- A phase that leaves the high side closed leaves the bank's record. -/
theorem setPhaseAt_closed {s : State} {ch ph t : Nat} (h : highSideClosed (phaseEntered s ch ph t) (ch / 8) = true) :
    setPhaseAt s ch ph t = phaseEntered s ch ph t := noteHs_closed h

theorem phaseEntered_within {s : State} {ch ph t : Nat} : Within [.regs, .drv] (blks [.dbk]) s (phaseEntered s ch ph t) := by
  unfold phaseEntered
  exact within_ite (modDrv_within.step (modDrv_within.step (dset_within.step (.refl s) rfl rfl) rfl rfl) rfl rfl)
    (modDrv_within.step (dset_within.step (.refl s) rfl rfl) rfl rfl)

/-! ### Steps of one channel -/

/-- The register fields of a channel and its bank that its profile moves. -/
def profileIds : List Nat :=
  [R.DBK_CH_STAT_PHASE.id, R.DBK_CH_MOVE_MOVE_TIME.id, R.DBK_CH_MOVE_VALID.id, R.DBK_CH_MOVE_NO_MOVE.id, R.DBK_STATUS_HSV_ON.id,
    R.DBK_CH_STAT_FAULT.id]

/-- A step of channel `ch` writes no other field of the drive banks than those of its profile, leaves every other channel
as it was, and leaves its own orders. -/
structure DriveStep (ch : Nat) (s u : State) : Prop where
  fields : ∀ (f : Fld) (i j : Nat), f.id / 128 = blkCode .dbk → f.id ∉ profileIds → rget u f i j = rget s f i j
  others : ∀ c, c ≠ ch → getDrv u c = getDrv s c
  orders : SameOrders (getDrv s ch) (getDrv u ch)

theorem DriveStep.refl (ch : Nat) (s : State) : DriveStep ch s s := ⟨fun _ _ _ _ _ => rfl, fun _ _ => rfl, rfl, rfl, rfl⟩

theorem DriveStep.trans {ch : Nat} {s u v : State} (h : DriveStep ch s u) (k : DriveStep ch u v) : DriveStep ch s v := by
  obtain ⟨hma, hrate, hshot⟩ := h.orders
  obtain ⟨kma, krate, kshot⟩ := k.orders
  exact ⟨fun f i j hf hid => (k.fields f i j hf hid).trans (h.fields f i j hf hid),
    fun c hc => (k.others c hc).trans (h.others c hc), kma.trans hma, krate.trans hrate, kshot.trans hshot⟩

theorem DriveStep.of_same {ch : Nat} {s u : State} (hregs : u.regs = s.regs) (hdrv : u.drv = s.drv) : DriveStep ch s u :=
  ⟨fun f i j _ _ => rget_congr hregs f i j, fun c _ => getDrv_congr hdrv c, by rw [getDrv_congr hdrv]; exact ⟨rfl, rfl, rfl⟩⟩

theorem modDrv_driveStep (s : State) (ch : Nat) (f : DrvCh → DrvCh) (h : SameOrders (getDrv s ch) (f (getDrv s ch))) :
    DriveStep ch s (modDrv s ch f) :=
  ⟨fun _ _ _ _ _ => rfl, fun c hc => getDrv_modDrv_ne s f hc, by rw [getDrv_modDrv_self]; exact h⟩

theorem rset_driveStep (s : State) (ch : Nat) {f : Fld} (v i j : Nat) (h : f.id ∈ profileIds) : DriveStep ch s (rset s f v i j) :=
  ⟨fun _ _ _ _ hid => rget_rset_ne _ _ _ _ _ _ fun e => hid (e ▸ h), fun _ _ => rfl, rfl, rfl, rfl⟩

theorem raiseEv_driveStep (s : State) (ch c i d : Nat) : DriveStep ch s (raiseEv s c i d) :=
  ⟨fun f a b hf _ => raiseEv_within.rget f a b (by rw [hf]; decide), fun k _ => getDrv_congr (raiseEv_drv s c i d) k,
    by rw [getDrv_congr (raiseEv_drv s c i d)]; exact ⟨rfl, rfl, rfl⟩⟩

theorem setPhaseAt_driveStep (s : State) (ch ph t : Nat) : DriveStep ch s (setPhaseAt s ch ph t) := by
  obtain ⟨hothers, -, horders⟩ := phaseEntered_drv s ch ph t
  refine ⟨fun f i j _ hid => ?_, fun c hc => ?_, ?_⟩
  · rw [rget_congr (setPhaseAt_regs s ch ph t)]
    exact rget_rset_ne _ _ _ _ _ _ fun e => hid (by rw [e]; decide)
  · rw [getDrv_setPhaseAt, hothers c hc]
  · rw [getDrv_setPhaseAt]
    exact horders

theorem setPhase_driveStep (s : State) (ch ph : Nat) : DriveStep ch s (setPhase s ch ph) := setPhaseAt_driveStep s ch ph _

theorem recordMove_driveStep (s : State) (ch : Nat) (step : Option Nat) : DriveStep ch s (recordMove s ch step) := by
  have hmove : DriveStep ch s (modDrv (noteMove s ch step) ch fun c => { c with
      recMove := true, prof := c.prof.map fun p => { p with searched := true, noMove := step.isNone } }) :=
    (DriveStep.of_same rfl rfl : DriveStep ch s (noteMove s ch step)).trans (modDrv_driveStep _ _ _ ⟨rfl, rfl, rfl⟩)
  cases step with
  | none =>
    exact ((hmove.trans (rset_driveStep _ _ _ _ _ (by decide))).trans (rset_driveStep _ _ _ _ _ (by decide))).trans
      (rset_driveStep _ _ _ _ _ (by decide))
  | some n =>
    exact ((hmove.trans (rset_driveStep _ _ _ _ _ (by decide))).trans (rset_driveStep _ _ _ _ _ (by decide))).trans
      (rset_driveStep _ _ _ _ _ (by decide))

theorem endSearch_driveStep (s : State) (ch : Nat) : DriveStep ch s (endSearch s ch) := by
  unfold endSearch
  split
  · split
    · exact recordMove_driveStep _ _ _
    · exact .refl _ _
  · exact .refl _ _

theorem finishProf_driveStep (s : State) (ch c : Nat) (p : DrvProf) (b : Bool) : DriveStep c s (finishProf s ch p b) :=
  .of_same (finishProf_within.regs.resolve_left (by simp)) (finishProf_within.drv.resolve_left (by simp))

theorem releaseHsvAt_driveStep (s : State) (ch t : Nat) : DriveStep ch s (releaseHsvAt s ch t) := by
  unfold releaseHsvAt
  split
  · exact ((DriveStep.of_same rfl rfl).trans (rset_driveStep _ _ _ _ _ (by decide))).trans
      (.of_same (noteHs_regs _ _ _) (noteHs_drv _ _ _))
  · exact .refl _ _

theorem releaseHsv_driveStep (s : State) (ch : Nat) : DriveStep ch s (releaseHsv s ch) := releaseHsvAt_driveStep s ch _

theorem endPeak_driveStep (s : State) (ch : Nat) : DriveStep ch s (endPeak s ch) := by
  unfold endPeak
  dsimp only
  split
  · exact (((endSearch_driveStep s ch).trans (finishProf_driveStep _ _ _ _ _)).trans
      (modDrv_driveStep _ _ _ ⟨rfl, rfl, rfl⟩)).trans (setPhase_driveStep _ _ _)
  · exact endSearch_driveStep s ch

theorem endBoost_driveStep (s : State) (ch : Nat) (b : Bool) : DriveStep ch s (endBoost s ch b) := by
  have hsearch : DriveStep ch s (if b then s else endSearch s ch) := by
    split
    · exact .refl _ _
    · exact endSearch_driveStep s ch
  unfold endBoost
  extract_lets s0 s1
  have h1 : DriveStep ch s s1 := (hsearch.trans (releaseHsv_driveStep _ _)).trans (modDrv_driveStep _ _ _ ⟨rfl, rfl, rfl⟩)
  split
  · exact h1.trans (endPeak_driveStep _ _)
  · exact h1.trans (setPhase_driveStep _ _ _)

theorem setDrvFault_driveStep (s : State) (ch code : Nat) : DriveStep ch s (setDrvFault s ch code) := by
  unfold setDrvFault
  dsimp only
  split
  · exact (rset_driveStep _ _ _ _ _ (by decide)).trans (raiseEv_driveStep _ _ _ _ _)
  · exact rset_driveStep _ _ _ _ _ (by decide)

theorem openNow_driveStep (s : State) (ch : Nat) : DriveStep ch s (openNow s ch) := by
  unfold openNow
  split
  · exact setDrvFault_driveStep _ _ _
  · exact .refl _ _

/-- A BOOST whose time has come ends by its current or by its time. -/
def settleBoost (s : State) (ch : Nat) : State :=
  match drvPhase s ch, (getDrv s ch).prof with
  | 2, some p =>
    if (p.start.getD s.now) + dval s R.DBK_CH_BOOST_T_BOOST_US ch * fcUs ≤ s.now then
      let byTime := match maNow s ch with
        | some ma => decide (ma < (boostLevel s ch).1)
        | none => true
      let s1 := endBoost s ch byTime
      if byTime then openNow s1 ch else s1
    else s
  | _, _ => s

/-- A PEAK whose time has come ends. -/
def settlePeak (s : State) (ch : Nat) : State :=
  match drvPhase s ch, (getDrv s ch).prof with
  | 3, some p => if (p.peakStart.getD s.now) + dget s R.DBK_CH_PEAK_T_PEAK_US ch * fcUs ≤ s.now then endPeak s ch else s
  | _, _ => s

theorem settleBoost_driveStep (s : State) (ch : Nat) : DriveStep ch s (settleBoost s ch) := by
  have hboost (b : Bool) : DriveStep ch s (if b then openNow (endBoost s ch b) ch else endBoost s ch b) := by
    split
    · exact (endBoost_driveStep _ _ _).trans (openNow_driveStep _ _)
    · exact endBoost_driveStep _ _ _
  unfold settleBoost
  split
  · split
    · exact hboost _
    · exact .refl _ _
  · exact .refl _ _

theorem settleBoost_now (s : State) (ch : Nat) : (settleBoost s ch).now = s.now := by
  have hboost (b : Bool) : (if b then openNow (endBoost s ch b) ch else endBoost s ch b).now = s.now := by
    split
    · exact (openNow_within.now.resolve_left (by simp)).trans (endBoost_within.now.resolve_left (by simp))
    · exact endBoost_within.now.resolve_left (by simp)
  unfold settleBoost
  split
  · split
    · exact hboost _
    · rfl
  · rfl

theorem settlePeak_driveStep (s : State) (ch : Nat) : DriveStep ch s (settlePeak s ch) := by
  unfold settlePeak
  split
  · split
    · exact endPeak_driveStep _ _
    · exact .refl _ _
  · exact .refl _ _

theorem settleProf_eq (s : State) (ch : Nat) : settleProf s ch = settlePeak (settleBoost s ch) ch := by
  have hT : dget (settleBoost s ch) R.DBK_CH_PEAK_T_PEAK_US ch = dget s R.DBK_CH_PEAK_T_PEAK_US ch :=
    (settleBoost_driveStep s ch).fields _ _ _ (by decide) (by decide)
  unfold settlePeak
  rw [settleBoost_now, hT]
  unfold settleProf
  extract_lets byTime sb s1
  have h1 : s1 = settleBoost s ch := rfl
  clear_value s1
  subst h1
  rfl

theorem settleProf_driveStep (s : State) (ch : Nat) : DriveStep ch s (settleProf s ch) := by
  rw [settleProf_eq]
  exact (settleBoost_driveStep s ch).trans (settlePeak_driveStep _ ch)

theorem enterDecayAt_driveStep (s : State) (ch t : Nat) : DriveStep ch s (enterDecayAt s ch t) := by
  unfold enterDecayAt
  split
  · exact .refl _ _
  · exact (setPhaseAt_driveStep _ _ _ _).trans (modDrv_driveStep _ _ _ ⟨rfl, rfl, rfl⟩)

theorem stopProf_driveStep (s : State) (ch : Nat) : DriveStep ch s (stopProf s ch) := by
  unfold stopProf
  extract_lets s1
  have h1 : DriveStep ch s s1 := by
    simp only [s1]
    split
    · exact finishProf_driveStep _ _ _ _ _
    · exact .refl _ _
  exact ((h1.trans (releaseHsv_driveStep _ _)).trans (modDrv_driveStep _ _ _ ⟨rfl, rfl, rfl⟩)).trans
    (enterDecayAt_driveStep _ _ _)

/-! ### OFF (R182) -/

/-- A channel that enters DECAY keeps its profile, and it is in DECAY. -/
theorem enterDecayAt_fields (s : State) (ch t : Nat) :
    drvPhase (enterDecayAt s ch t) ch = 6 ∧ (getDrv (enterDecayAt s ch t) ch).prof = (getDrv s ch).prof := by
  unfold enterDecayAt
  split
  · exact ⟨by assumption, rfl⟩
  · refine ⟨drvPhase_setPhaseAt s ch t (by decide), ?_⟩
    rw [getDrv_modDrv_self]
    exact prof_setPhaseAt s ch 6 t

/-- A profile that stops leaves its channel in DECAY without a profile. -/
theorem stopProf_fields (s : State) (ch : Nat) : drvPhase (stopProf s ch) ch = 6 ∧ (getDrv (stopProf s ch) ch).prof = none := by
  unfold stopProf
  extract_lets s1
  obtain ⟨hph, hprof⟩ := enterDecayAt_fields (modDrv (releaseHsv s1 ch) ch fun c => { c with prof := none }) ch
    (stepNow (modDrv (releaseHsv s1 ch) ch fun c => { c with prof := none }) ch)
  refine ⟨hph, hprof.trans ?_⟩
  rw [getDrv_modDrv_self]

/-- What OFF leaves of its channel, and of the others. -/
theorem drvOff_fields (s : State) (ch : Nat) :
    drvPhase (drvOff s ch) ch = 6 ∧ (getDrv (drvOff s ch) ch).prof = none ∧
    SameOrders { getDrv s ch with rate := 0, nextShot := none, propMa := 0 } (getDrv (drvOff s ch) ch) ∧
    (∀ c, c ≠ ch → getDrv (drvOff s ch) c = getDrv s c) ∧
    (∀ (f : Fld) (i j : Nat), f.id / 128 = blkCode .dbk → f.id ∉ profileIds → rget (drvOff s ch) f i j = rget s f i j) := by
  obtain ⟨s0, hs0⟩ : ∃ s0, s0 = modDrv s ch fun c => { c with rate := 0, nextShot := none, propMa := 0 } := ⟨_, rfl⟩
  have heq : drvOff s ch = stopProf (settleProf s0 ch) ch := by rw [hs0]; rfl
  obtain ⟨hfields, hothers, horders⟩ := (settleProf_driveStep s0 ch).trans (stopProf_driveStep _ ch)
  obtain ⟨hph, hprof⟩ := stopProf_fields (settleProf s0 ch) ch
  rw [heq]
  refine ⟨hph, hprof, ?_, fun c hc => ?_, fun f i j hf hid => ?_⟩
  · rwa [hs0, getDrv_modDrv_self, ← hs0] at horders
  · rw [hothers c hc, hs0, getDrv_modDrv_ne _ _ hc]
  · rw [hfields f i j hf hid, hs0]
    rfl

end Sys2Proof.Machine
end

section
/-! The commands of a drive channel (R179–R197) (O25). -/

namespace Sys2Proof.Machine

/-! ### Commands that a supervisor has passed -/

/-- The supervisor of a plane without a command that it has passed. -/
def passedTaken (s : State) (p : Nat) (q : Passed) : State :=
  setPps s p { getPps s p with passed := (getPps s p).passed.erase q }

theorem takePassed_first {s : State} {p : Nat} {q : Passed} {accept same : OutCmd → Bool}
    (hfind : ((getPps s p).passed.find? fun x => same x.cmd) = some q) (hacc : accept q.cmd = true) :
    takePassed s p accept same = some (q, passedTaken s p q) := by
  unfold takePassed
  rw [hfind]
  exact if_pos hacc

section
variable {s : State} {ch : Nat} {q : Passed}
  (hfind : ((getPps s (ch / 48)).passed.find? fun x => OutCmd.isDrv ch x.cmd) = some q)
include hfind

theorem doProfile_runs {c d n h : Nat} (hcmd : q.cmd = .drv c (.profile d n h)) : doProfile s ch =
    drvRun (passedTaken s (ch / 48) q) ch q (.profile d n h) fun s => drvProfile s ch d n h q.ref q.row q.at_ := by
  unfold doProfile
  rw [takePassed_first hfind (by rw [hcmd])]
  dsimp only
  rw [hcmd]

theorem doProp_runs {c ma : Nat} {d : Option (Nat × Nat)} (hcmd : q.cmd = .drv c (.prop ma d)) : doProp s ch =
    drvRun (passedTaken s (ch / 48) q) ch q (.prop ma d) fun s => drvDone (drvProp s ch ma d) ch q stDone 0 := by
  unfold doProp
  rw [takePassed_first hfind (by rw [hcmd])]
  dsimp only
  rw [hcmd]

theorem doOff_runs {c : Nat} (hcmd : q.cmd = .drv c .off) : doOff s ch =
    drvRun (passedTaken s (ch / 48) q) ch q .off fun s => drvDone (drvOff s ch) ch q stDone 0 := by
  unfold doOff
  rw [takePassed_first hfind (by rw [hcmd])]

theorem doClear_runs {c : Nat} {b present : Bool} (hcmd : q.cmd = .drv c (.clear b)) : doClear s ch present =
    drvRun (passedTaken s (ch / 48) q) ch q (.clear b) fun s =>
      if (drvClear s ch b present).2 then drvDone (drvClear s ch b present).1 ch q stDone 0
      else drvDone (drvClear s ch b present).1 ch q stRejectState 0x0261 := by
  unfold doClear
  rw [takePassed_first hfind (by rw [hcmd])]
  dsimp only
  rw [hcmd]

end

/-- A command of a correct format that meets every condition takes effect. -/
theorem drvRun_accepts {s : State} {ch : Nat} {q : Passed} {c : DrvCmd} {f : State → State} (hform : drvFormat q c = none)
    (href : q.ref = none ∨ commanding s = true) (hstate : drvState s ch q c = none) : drvRun s ch q c f = f s := by
  unfold drvRun
  rw [hform, hstate]
  dsimp only
  exact if_neg (by rcases href with h | h <;> simp [h])

/-- A command of a correct format whose first failing condition is `d` is rejected with it. -/
theorem drvRun_rejects {s : State} {ch d : Nat} {q : Passed} {c : DrvCmd} {f : State → State} (hform : drvFormat q c = none)
    (hcmd : commanding s = true) (hstate : drvState s ch q c = some d) (hd : d ≠ 0x0263) :
    drvRun s ch q c f = drvDone s ch q stRejectState d := by
  unfold drvRun
  rw [hform, hstate]
  dsimp only
  rw [if_neg (by simp [hcmd]), if_pos (.inr hd)]

theorem drvFormat_profile {q : Passed} {d n h : Nat} (hbank : q.bankBit = false) (hn : n ≠ 0) :
    drvFormat q (.profile d n h) = none := by
  simp [drvFormat, hbank, hn]

theorem drvFormat_prop {q : Passed} {m hz am : Nat} (hbank : q.bankBit = false) (hm : m ≤ 3500) (hhz : hz ≤ 400)
    (ham : am ≤ 500) : drvFormat q (.prop m (some (hz, am))) = none := by
  simp [drvFormat, hbank, Nat.not_lt.mpr hm, Nat.not_lt.mpr hhz, Nat.not_lt.mpr ham]

theorem drvFormat_off {q : Passed} (hbank : q.bankBit = false) : drvFormat q .off = none := by
  simp [drvFormat, hbank]

theorem drvState_clear {s : State} {ch : Nat} {q : Passed} {b : Bool} (hen : rbit s R.DBK_CTRL_ENABLE (ch / 8) = true) :
    drvState s ch q (.clear b) = none := by
  unfold drvState
  rw [hen]
  rfl

/-- Neither the owner nor a latch keeps the command from the channel. -/
theorem drvOwn_free {s : State} {ch : Nat} {q : Passed} (h : q.staged = true ∨ dbit s R.DBK_CH_CFG_OWNER ch = false) :
    (!q.staged && dbit s R.DBK_CH_CFG_OWNER ch) = false := by
  rcases h with h | h <;> simp [h]

section
variable {s : State} {ch : Nat} {q : Passed} (hen : rbit s R.DBK_CTRL_ENABLE (ch / 8) = true)
  (hown : q.staged = true ∨ dbit s R.DBK_CH_CFG_OWNER ch = false)
include hen hown

theorem drvState_profile (d n h : Nat) (hlat : drvLatched s ch = false) (hmode : dval s R.DBK_CH_CFG_MODE ch = 1) :
    drvState s ch q (.profile d n h) = none := by
  unfold drvState
  rw [hen, hlat, hmode, drvOwn_free hown]
  rfl

theorem drvState_prop (m : Nat) (d : Option (Nat × Nat)) (hlat : drvLatched s ch = false)
    (hmode : dval s R.DBK_CH_CFG_MODE ch = 2) : drvState s ch q (.prop m d) = none := by
  unfold drvState
  rw [hen, hlat, hmode, drvOwn_free hown]
  rfl

theorem drvState_off (hmode : dval s R.DBK_CH_CFG_MODE ch = 1 ∨ dval s R.DBK_CH_CFG_MODE ch = 2) :
    drvState s ch q .off = none := by
  unfold drvState
  rw [hen, drvOwn_free hown]
  rcases hmode with h | h <;> rw [h] <;> rfl

end

theorem drvState_latched {s : State} {ch : Nat} {q : Passed} {d n h : Nat}
    (hown : q.staged = true ∨ dbit s R.DBK_CH_CFG_OWNER ch = false) (hlat : drvLatched s ch = true) :
    drvState s ch q (.profile d n h) = some 0x0261 := by
  unfold drvState
  rw [hlat, drvOwn_free hown]
  rfl

/-! ### The effect of a command -/

theorem drvDone_drv (s : State) (ch : Nat) (q : Passed) (st d : Nat) : (drvDone s ch q st d).drv = s.drv :=
  drvDone_within.drv.resolve_left (by simp)

theorem drvDone_regs (s : State) (ch : Nat) (q : Passed) (st d : Nat) : (drvDone s ch q st d).regs = s.regs :=
  drvDone_within.regs.resolve_left (by simp)

/-- A CLEAR of a latched channel releases it where its fault is gone. -/
theorem drvClear_latched {s : State} {ch : Nat} (present : Bool) (hlat : dbit s R.DBK_CH_STAT_LATCHED ch = true) :
    drvClear s ch false present = if present then (s, false)
      else (dset (dset s R.DBK_CH_STAT_LATCHED 0 ch) R.DBK_CH_STAT_FAULT 0 ch, true) := by
  unfold drvClear
  dsimp only
  rw [if_neg Bool.false_ne_true, if_pos hlat]

/-- What a PROP leaves. -/
theorem drvProp_fields (s : State) (ch m hz am : Nat) :
    drvPhase (drvProp s ch m (some (hz, am))) ch = 5 ∧
    (getDrv (drvProp s ch m (some (hz, am))) ch).propMa = m ∧
    (getDrv (drvProp s ch m (some (hz, am))) ch).ditherHz = min hz (dval s R.DBK_CH_PROP_PWM_KHZ ch * 100) ∧
    (getDrv (drvProp s ch m (some (hz, am))) ch).ditherMa = am ∧
    RegsOnly s (drvProp s ch m (some (hz, am))) [R.DBK_CH_STAT_PHASE.key (ch / 8) (ch % 8)] ∧
    SameBanks s (drvProp s ch m (some (hz, am))) := by
  unfold drvProp
  extract_lets cap d t open2 s1
  have h1 : drvPhase s1 ch = 5 ∧ RegsOnly s s1 [R.DBK_CH_STAT_PHASE.key (ch / 8) (ch % 8)] ∧ SameBanks s s1 := by
    simp only [s1]
    split
    · exact ⟨by assumption, .of_eq _ rfl, .refl s⟩
    · exact ⟨drvPhase_setPhaseAt s ch _ (by decide), setPhaseAt_regsOnly s ch 5 _, setPhaseAt_sameBanks s ch 5 _⟩
  clear_value s1
  obtain ⟨hph, hregs, hbanks⟩ := h1
  have hdrv (f : DrvCh → DrvCh) : getDrv (noteHs s1 (ch / 8) (modDrv s1 ch f)) ch = f (getDrv s1 ch) :=
    (getDrv_congr (noteHs_drv _ _ _) ch).trans (getDrv_modDrv_self _ _ _)
  refine ⟨(drvPhase_congr (noteHs_regs _ _ _) ch).trans hph, congrArg DrvCh.propMa (hdrv _),
    congrArg DrvCh.ditherHz (hdrv _), congrArg DrvCh.ditherMa (hdrv _), ?_, ?_⟩
  · exact hregs.trans (.of_eq _ (noteHs_regs _ _ _))
  · exact (hbanks.trans (.of_dbk rfl)).trans (noteHs_sameBanks _ _ _)

/-- A PROFILE on a channel without one gives it the profile, and changes nothing else. -/
theorem drvProfile_free {s : State} {ch : Nat} (d n h : Nat) (r : Option Ref) (row a : Nat) (hfree : (getDrv s ch).prof = none) :
    ∃ p : DrvProf, p.reqStart = a + d * 200 ∧ p.onTime = onTimeFc n ∧ p.ref = r ∧ p.row = row ∧ p.requested = false ∧
      p.start = none ∧ p.holdMa = clampNat 100 4000 (if h = 0 then dval s R.DBK_CH_HOLD_I_HOLD_MA ch else h) ∧
      drvProfile s ch d n h r row a = modDrv s ch fun c => { c with prof := some p } := by
  unfold drvProfile
  rw [hfree]
  exact ⟨_, rfl, rfl, rfl, rfl, rfl, rfl, rfl, rfl⟩

/-- A descriptor that is changed is found as it was changed. -/
theorem findReq_updReq {s : State} {r : Ref} {x : Req} {f : Req → Req} (hf : ∀ q, (f q).ref = q.ref)
    (hr : findReq s r = some x) : findReq (updReq s r f) r = some (f x) := by
  have hsame : (fun q : Req => q.ref == r) ∘ (fun q => if q.ref == r then f q else q) = fun q => q.ref == r := by
    funext q
    dsimp only [Function.comp]
    split
    · rw [hf]
    · rfl
  have hx : (x.ref == r) = true := List.find?_some (p := fun q : Req => q.ref == r) hr
  unfold findReq updReq
  rw [List.find?_map, hsame, show s.reqs.find? (fun q => q.ref == r) = some x from hr]
  exact congrArg some (if_pos hx)

/-- A descriptor that completes in a row record stands in it, posted. -/
theorem completeRow_posts {s : State} {r : Ref} {x : Req} (p st d row : Nat) (hr : findReq s r = some x) :
    tblGetD (completeRow s p r st d row).till.rowDone p [] = tblGetD s.till.rowDone p [] ++ [r] ∧
    ∃ y, findReq (completeRow s p r st d row) r = some y ∧ y.stage = .posted ⟨st, d % 2 ^ 16, some row⟩ := by
  unfold completeRow
  rw [if_neg (by simp [hr])]
  refine ⟨tblGetD_set_self _ _ _ _, ?_⟩
  exact ⟨_, findReq_updReq (f := fun q => { q with stage := .posted ⟨st, d % 2 ^ 16, some row⟩ }) (fun _ => rfl) hr, rfl⟩

/-! ### O25 -/

/-- Settles O25. -/
theorem driveCommands : Obligations.DriveCommands := by
  unfold Obligations.DriveCommands
  refine ⟨?profile, ?latched, ?prop, ?propRecord, ?off, ?clear, ?clearFault⟩
  case profile =>
    intro s t ch q d n h hpow hfind hcmd hbank hn hmode hfree hlat hen href hown
    obtain ⟨p, hreq, hon, hpref, hrow, hnew, hstart, hhold, heq⟩ := drvProfile_free
      (s := passedTaken (advance s t) (ch.val / 48) q) d n h q.ref q.row q.at_ hfree
    have hrun := (doProfile_runs (s := advance s t) hfind hcmd).trans
      (drvRun_accepts (drvFormat_profile hbank hn) href (drvState_profile hen hown d n h hlat hmode))
    rw [heq] at hrun
    refine ⟨_, (atPlane_powered s t _ (fun s => doProfile s ch) hpow).trans (congrArg _ hrun),
      ⟨p, congrArg DrvCh.prof (getDrv_modDrv_self _ _ _), hreq, hon, hpref, hrow, hnew, hstart, hhold⟩, ?_, rfl⟩
    exact congrArg Pps.passed (getPps_setPps_self _ _ _)
  case latched =>
    intro s t ch q d n h r hpow hfind hcmd hbank hn href hcmdg hown hlat
    have hrun := (doProfile_runs (s := advance s t) hfind hcmd).trans
      (drvRun_rejects (drvFormat_profile hbank hn) hcmdg (drvState_latched hown hlat) (by decide))
    rw [drvDone, href] at hrun
    exact (atPlane_powered s t _ (fun s => doProfile s ch) hpow).trans (congrArg _ hrun)
  case prop =>
    intro s t ch q m hz am hpow hfind hcmd hbank hm hhz ham hmode hlat hen href hown
    have hrun := (doProp_runs (s := advance s t) hfind hcmd).trans
      (drvRun_accepts (drvFormat_prop hbank hm hhz ham) href (drvState_prop hen hown m (some (hz, am)) hlat hmode))
    obtain ⟨v, hv⟩ : ∃ v, v = passedTaken (advance s t) (ch.val / 48) q := ⟨_, rfl⟩
    have hsv : RegsOnly s v [R.DBK_CH_STAT_PHASE.key (ch.val / 8) (ch.val % 8)] ∧ SameBanks s v := by
      rw [hv]
      exact ⟨.of_eq _ rfl, .of_dbk rfl⟩
    have hpassed : (getPps v (ch.val / 48)).passed = (getPps s (ch.val / 48)).passed.erase q := by
      rw [hv]
      exact congrArg Pps.passed (getPps_setPps_self _ _ _)
    have hw : Within [.pps] [] (advance s t) v := by
      rw [hv]
      exact setPps_within
    rw [← hv] at hrun
    obtain ⟨hph, hma, hhz', ham', hregs, hbanks⟩ := drvProp_fields v ch m hz am
    have hw' : Within [.regs, .pps, .drv, .dbk, .reqs, .till] (blks [.dbk]) (advance s t)
        (drvDone (drvProp v ch m (some (hz, am))) ch q stDone 0) :=
      drvDone_within.step (drvProp_within.step (hw.mono rfl rfl) rfl rfl) rfl rfl
    have hdrv : getDrv (drvDone (drvProp v ch m (some (hz, am))) ch q stDone 0) ch =
        getDrv (drvProp v ch m (some (hz, am))) ch := getDrv_congr (drvDone_drv _ _ _ _ _) ch
    have hdbk : (drvDone (drvProp v ch m (some (hz, am))) ch q stDone 0).dbk = (drvProp v ch m (some (hz, am))).dbk :=
      drvDone_within.dbk.resolve_left (by simp)
    have hpps : (drvDone (drvProp v ch m (some (hz, am))) ch q stDone 0).pps = v.pps :=
      (drvDone_within.pps.resolve_left (by simp)).trans (drvProp_within.pps.resolve_left (by simp))
    refine ⟨_, (atPlane_powered s t _ (fun s => doProp s ch) hpow).trans (congrArg _ hrun),
      (drvPhase_congr (drvDone_regs _ _ _ _ _) ch).trans hph, by rw [hdrv, hma], ?_, by rw [hdrv, ham'], ?_,
      (hsv.1.trans hregs).trans (.of_eq _ (drvDone_regs _ _ _ _ _)), (hsv.2.trans hbanks).trans (.of_dbk hdbk), hw'.eq_frame⟩
    · rw [hdrv, hhz', hv]
      rfl
    · rw [getPps_congr hpps, hpassed]
  case propRecord =>
    intro s t ch q m hz am r x hpow hfind hcmd hbank hm hhz ham hmode hlat hen href hown hqr hx
    have hrun := (doProp_runs (s := advance s t) hfind hcmd).trans
      (drvRun_accepts (drvFormat_prop hbank hm hhz ham) href (drvState_prop hen hown m (some (hz, am)) hlat hmode))
    rw [drvDone, hqr] at hrun
    obtain ⟨v, hv⟩ : ∃ v, v = drvProp (passedTaken (advance s t) (ch.val / 48) q) ch m (some (hz, am)) := ⟨_, rfl⟩
    have hw : Within [.pps, .regs, .drv, .dbk] (blks [.dbk]) (advance s t) v := by
      rw [hv]
      exact drvProp_within.step (setPps_within.mono rfl rfl) rfl rfl
    have hreq : findReq v r = some x := by
      rw [findReq, hw.reqs.resolve_left (by simp)]
      exact hx
    rw [← hv] at hrun
    obtain ⟨hrec, hposted⟩ := completeRow_posts (ch.val / 8) stDone 0 q.row hreq
    refine ⟨_, (atPlane_powered s t _ (fun s => doProp s ch) hpow).trans (congrArg _ hrun), ?_, hposted⟩
    rw [hrec, hw.till.resolve_left (by simp)]
    rfl
  case off =>
    intro s t ch q hpow hfind hcmd hbank hen href hown hmode
    have hrun := (doOff_runs (s := advance s t) hfind hcmd).trans
      (drvRun_accepts (drvFormat_off hbank) href (drvState_off hen hown hmode))
    obtain ⟨v, hv⟩ : ∃ v, v = passedTaken (advance s t) (ch.val / 48) q := ⟨_, rfl⟩
    have hpassed : (getPps v (ch.val / 48)).passed = (getPps s (ch.val / 48)).passed.erase q := by
      rw [hv]
      exact congrArg Pps.passed (getPps_setPps_self _ _ _)
    have hw : Within [.pps] [] (advance s t) v := by
      rw [hv]
      exact setPps_within
    rw [← hv] at hrun
    obtain ⟨hph, hprof, ⟨hma, hrate, hshot⟩, -, -⟩ := drvOff_fields v ch
    have hdrv : getDrv (drvDone (drvOff v ch) ch q stDone 0) ch = getDrv (drvOff v ch) ch :=
      getDrv_congr (drvDone_drv _ _ _ _ _) ch
    have hw' : Within [.regs, .pps, .drv, .dbk, .hlm, .reqs, .till, .log, .mem, .extMem] (blks [.dbk, .hlm, .jrn])
        (advance s t) (drvDone (drvOff v ch) ch q stDone 0) :=
      drvDone_within.step (drvOff_within.step (hw.mono rfl rfl) rfl rfl) rfl rfl
    have hpps : (drvDone (drvOff v ch) ch q stDone 0).pps = v.pps :=
      (drvDone_within.pps.resolve_left (by simp)).trans (drvOff_within.pps.resolve_left (by simp))
    exact ⟨_, (atPlane_powered s t _ (fun s => doOff s ch) hpow).trans (congrArg _ hrun),
      (drvPhase_congr (drvDone_regs _ _ _ _ _) ch).trans hph, by rw [hdrv, hprof], by rw [hdrv, hma], by rw [hdrv, hrate],
      by rw [hdrv, hshot], by rw [getPps_congr hpps, hpassed], hw'.blocksOnly, hw'.eq_frame⟩
  case clear =>
    intro s t ch q hpow hfind hcmd hbank hen href hlat
    have hrun := (doClear_runs (present := false) (s := advance s t) hfind hcmd).trans
      (drvRun_accepts rfl (.inl href) (drvState_clear hen))
    rw [drvClear_latched (s := passedTaken (advance s t) (ch.val / 48) q) false hlat, if_neg Bool.false_ne_true, drvDone,
      href] at hrun
    exact (atPlane_powered s t _ (fun s => doClear s ch false) hpow).trans (congrArg _ hrun)
  case clearFault =>
    intro s t ch q hpow hfind hcmd hbank hen href hlat
    have hrun := (doClear_runs (present := true) (s := advance s t) hfind hcmd).trans
      (drvRun_accepts rfl (.inl href) (drvState_clear hen))
    rw [drvClear_latched (s := passedTaken (advance s t) (ch.val / 48) q) true hlat, if_pos rfl] at hrun
    simp only [drvDone, href] at hrun
    exact (atPlane_powered s t _ (fun s => doClear s ch true) hpow).trans (congrArg _ hrun)

end Sys2Proof.Machine
end

section
/-! The phases of a drive profile, and the shots (R180–R192) (O26). -/

namespace Sys2Proof.Machine

/-! ### Folds in which one element acts -/

theorem foldl_eq_self {α β : Type} {f : β → α → β} {b : β} {l : List α} (h : ∀ a ∈ l, f b a = b) : l.foldl f b = b := by
  induction l with
  | nil => rfl
  | cons a l ih =>
    rw [List.foldl_cons, h a List.mem_cons_self]
    exact ih fun x hx => h x (List.mem_cons_of_mem a hx)

/-- Where one element of a list acts and the others leave what they meet, the fold is the act of that one. -/
theorem foldl_single {α β : Type} {f : β → α → β} {b : β} {l : List α} {x : α} (hx : x ∈ l) (hnd : l.Nodup)
    (h : ∀ a ∈ l, a ≠ x → f b a = b ∧ f (f b x) a = f b x) : l.foldl f b = f b x := by
  obtain ⟨l1, l2, rfl⟩ := List.append_of_mem hx
  have hne1 : ∀ a ∈ l1, a ≠ x := fun a ha e => by
    subst e
    exact (List.nodup_append.mp hnd).2.2 a ha a List.mem_cons_self rfl
  have hne2 : ∀ a ∈ l2, a ≠ x := fun a ha e => by
    subst e
    exact (List.nodup_cons.mp (List.nodup_append.mp hnd).2.1).1 ha
  rw [List.foldl_append, foldl_eq_self fun a ha => (h a (List.mem_append_left _ ha) (hne1 a ha)).1, List.foldl_cons]
  exact foldl_eq_self fun a ha =>
    (h a (List.mem_append_right _ (List.mem_cons_of_mem x ha)) (hne2 a ha)).2

theorem any_congr_mem {α : Type} {p q : α → Bool} {l : List α} (h : ∀ a ∈ l, p a = q a) : l.any p = l.any q := by
  induction l with
  | nil => rfl
  | cons a l ih => rw [List.any_cons, List.any_cons, h a List.mem_cons_self, ih fun x hx => h x (List.mem_cons_of_mem a hx)]

theorem bankChans_nodup (b : Nat) : (bankChans b).Nodup :=
  List.Nodup.map (fun _ _ h => Nat.add_left_cancel h) List.nodup_range

/-! ### A grant of the HSV -/

theorem setVbst_regsOnly (s : State) (b v : Nat) : RegsOnly s (setVbst s b v) [R.DBK_VBST_MEAS.key b 0] :=
  rset_regsOnly s _ _ _ _ (by simp)

theorem getDbk_setVbst (s : State) (b v k : Nat) :
    getDbk (setVbst s b v) k = if k = b then { getDbk s k with vbstAt := s.now } else getDbk s k := by
  unfold setVbst
  rw [getDbk_setDbk]
  split
  · rename_i h
    rw [h]
  · rfl

/-- A bank without a passed command and without a shot only asks and grants. -/
theorem bankGrant_quiet {s : State} {b : Nat} (vbst : Nat) (hpassed : (getPps s (b / 6)).passed = [])
    (hshot : ∀ c ∈ bankChans b, (getDrv s c).nextShot = none) :
    ∃ v, bankGrant s b vbst = hsvGrant ((bankChans b).foldl askBoost (setVbst s b v)) b := by
  obtain ⟨v, hv⟩ : ∃ v, noteVbst s b vbst = setVbst s b v := ⟨_, rfl⟩
  have hnone : bankPassed (setVbst s b v) b = setVbst s b v := by
    unfold bankPassed
    rw [show (getPps (setVbst s b v) (b / 6)).passed = [] from hpassed]
    rfl
  have hshots : (bankChans b).foldl shotDue (setVbst s b v) = setVbst s b v := by
    refine foldl_eq_self fun c hc => ?_
    unfold shotDue
    rw [show (getDrv (setVbst s b v) c).nextShot = none from hshot c hc]
  exact ⟨v, by rw [bankGrant, hv, hnone, hshots]⟩

/-- A profile that has asked, or a channel without one, asks no more. -/
theorem askBoost_asked {s : State} {ch : Nat} (h : (getDrv s ch).prof.all (fun p => p.requested) = true) : askBoost s ch = s := by
  unfold askBoost
  cases hp : (getDrv s ch).prof with
  | none => rfl
  | some p =>
    rw [hp] at h
    have hreq : p.requested = true := h
    exact if_neg (by simp [hreq])

/-- A channel whose requested start has come waits for the HSV. -/
def boostAsked (s : State) (ch : Nat) (p : DrvProf) : State :=
  setPhase (modDrv s ch fun c => { c.setLow false (stepNow s ch) with prof := some { p with requested := true } }) ch 1

theorem askBoost_due {s : State} {ch : Nat} {p : DrvProf} (hp : (getDrv s ch).prof = some p) (hnew : p.requested = false)
    (hdue : p.reqStart ≤ s.now) : askBoost s ch = boostAsked s ch p := by
  unfold askBoost
  rw [hp]
  dsimp only
  exact if_pos (by simp [hnew, hdue])

theorem boostAsked_fields (s : State) (ch : Nat) (p : DrvProf) :
    drvPhase (boostAsked s ch p) ch = 1 ∧ (getDrv (boostAsked s ch p) ch).prof = some { p with requested := true } ∧
    (∀ c, c ≠ ch → getDrv (boostAsked s ch p) c = getDrv s c) ∧ SameBanks s (boostAsked s ch p) ∧
    RegsOnly s (boostAsked s ch p) [R.DBK_CH_STAT_PHASE.key (ch / 8) (ch % 8)] ∧
    Within [.regs, .drv, .dbk] (blks [.dbk]) s (boostAsked s ch p) := by
  unfold boostAsked
  obtain ⟨v, hv⟩ : ∃ v, v = modDrv s ch fun c => { c.setLow false (stepNow s ch) with prof := some { p with requested := true } } :=
    ⟨_, rfl⟩
  have hprof : (getDrv v ch).prof = some { p with requested := true } := by rw [hv, getDrv_modDrv_self]
  have hregs : v.regs = s.regs := by rw [hv]; rfl
  have hdbk : v.dbk = s.dbk := by rw [hv]; rfl
  have hothers (c : Nat) (hc : c ≠ ch) : getDrv v c = getDrv s c := by rw [hv, getDrv_modDrv_ne _ _ hc]
  have hw : Within [.drv] [] s v := by
    rw [hv]
    exact modDrv_within
  rw [← hv]
  exact ⟨drvPhase_setPhaseAt v ch _ (by decide), (prof_setPhaseAt _ _ _ _).trans hprof,
    fun c hc => ((setPhase_driveStep v ch 1).others c hc).trans (hothers c hc),
    (SameBanks.of_dbk hdbk).trans (setPhaseAt_sameBanks _ _ _ _), (RegsOnly.of_eq _ hregs).trans (setPhaseAt_regsOnly _ _ _ _),
    setPhase_within.step (hw.mono rfl rfl) rfl rfl⟩

/-- A phase entered while the HSV is on leaves the bank's record. -/
theorem setPhaseAt_dbk_of_hsv {s : State} {ch ph t : Nat} (h : hsvOn s (ch / 8) = true) :
    (setPhaseAt s ch ph t).dbk = s.dbk := by
  have hon : hsvOn (phaseEntered s ch ph t) (ch / 8) = true := by
    rw [hsvOn_congr (phaseEntered_regs s ch ph t), ← h, hsvOn, hsvOn, rbit, rbit]
    exact congrArg (· == 1) (rget_rset_ne _ _ _ _ _ _ (by decide))
  rw [setPhaseAt_closed (highSideClosed_of_hsv hon)]
  exact phaseEntered_within.dbk.resolve_left (by simp)

/-- Where one channel of a bank asks and no other has a profile, that one has asked. -/
theorem askBoost_fold {s : State} {ch : Nat} {p : DrvProf} (hp : (getDrv s ch).prof = some p) (hnew : p.requested = false)
    (hdue : p.reqStart ≤ s.now) (hother : ∀ c ∈ bankChans (ch / 8), c ≠ ch → (getDrv s c).prof = none) :
    (bankChans (ch / 8)).foldl askBoost s = boostAsked s ch p := by
  have hask := askBoost_due hp hnew hdue
  rw [foldl_single (mem_bankChans rfl) (bankChans_nodup _), hask]
  intro c hc hne
  rw [hask]
  obtain ⟨-, -, hothers, -, -, -⟩ := boostAsked_fields s ch p
  exact ⟨askBoost_asked (by rw [hother c hc hne]; rfl), askBoost_asked (by rw [hothers c hne, hother c hc hne]; rfl)⟩

/-- The only waiting request of a bank is the next to be granted. -/
theorem nextBoost_only {s : State} {ch : Nat} {p : DrvProf} (hp : (getDrv s ch).prof = some p) (hreq : p.requested = true)
    (hph : drvPhase s ch = 1) (hother : ∀ c ∈ bankChans (ch / 8), c ≠ ch → (getDrv s c).prof = none) :
    nextBoost s (ch / 8) = some ch := by
  unfold nextBoost
  rw [foldl_single (mem_bankChans (rfl : ch / 8 = ch / 8)) (bankChans_nodup _)]
  · rw [hp]
    dsimp only
    rw [hph, hreq]
    rfl
  · intro c hc hne
    rw [hother c hc hne]
    exact ⟨rfl, rfl⟩

theorem nextBoost_congr {s u : State} (hdrv : u.drv = s.drv) (hph : ∀ c, drvPhase u c = drvPhase s c) (b : Nat) :
    nextBoost u b = nextBoost s b := by
  unfold nextBoost
  simp only [getDrv_congr hdrv, hph]

/-- What a grant finds in a bank whose profiles have all asked. -/
theorem bankGrant_waits {s : State} {b : Nat} (v : Nat) (hpassed : (getPps s (b / 6)).passed = [])
    (hasked : ∀ c ∈ bankChans b, (getDrv s c).nextShot = none ∧ (getDrv s c).prof.all (fun x => x.requested) = true) :
    ∃ u, bankGrant s b v = hsvGrant u b ∧ RegsOnly s u [R.DBK_VBST_MEAS.key b 0] ∧ u.drv = s.drv ∧
      (∀ k, getDbk u k = if k = b then { getDbk s k with vbstAt := s.now } else getDbk s k) ∧
      Within [.regs, .dbk] (blks [.dbk]) s u := by
  obtain ⟨w, hw⟩ := bankGrant_quiet v hpassed fun c hc => (hasked c hc).1
  rw [foldl_eq_self fun c hc => askBoost_asked (s := setVbst s b w) (hasked c hc).2] at hw
  exact ⟨_, hw, setVbst_regsOnly s b w, rfl, getDbk_setVbst s b w, setVbst_within⟩

/-- What a grant finds in a bank where one channel asks and no other has a profile. -/
theorem bankGrant_asks {s : State} {ch : Nat} {p : DrvProf} (v : Nat) (hpassed : (getPps s (ch / 48)).passed = [])
    (hp : (getDrv s ch).prof = some p) (hnew : p.requested = false) (hdue : p.reqStart ≤ s.now)
    (hother : ∀ c ∈ bankChans (ch / 8), (getDrv s c).nextShot = none ∧ (c ≠ ch → (getDrv s c).prof = none)) :
    ∃ u, bankGrant s (ch / 8) v = hsvGrant u (ch / 8) ∧ drvPhase u ch = 1 ∧
      (getDrv u ch).prof = some { p with requested := true } ∧ nextBoost u (ch / 8) = some ch ∧
      RegsOnly s u [R.DBK_CH_STAT_PHASE.key (ch / 8) (ch % 8), R.DBK_VBST_MEAS.key (ch / 8) 0] ∧
      (getDbk u (ch / 8)).hsvFrom = (getDbk s (ch / 8)).hsvFrom ∧
      (hsvOn s (ch / 8) = true →
        ∀ k, getDbk u k = if k = ch / 8 then { getDbk s k with vbstAt := s.now } else getDbk s k) ∧
      Within [.regs, .drv, .dbk] (blks [.dbk]) s u := by
  obtain ⟨w, hw⟩ := bankGrant_quiet (s := s) (b := ch / 8) v
    (by rw [show ch / 8 / 6 = ch / 48 by omega]; exact hpassed) fun c hc => (hother c hc).1
  obtain ⟨s1, hs1⟩ : ∃ s1, s1 = setVbst s (ch / 8) w := ⟨_, rfl⟩
  have hregs1 : RegsOnly s s1 [R.DBK_VBST_MEAS.key (ch / 8) 0] := hs1 ▸ setVbst_regsOnly s _ w
  have hdrv1 : s1.drv = s.drv := by rw [hs1]; rfl
  have hdbk1 (k : Nat) : getDbk s1 k = if k = ch / 8 then { getDbk s k with vbstAt := s.now } else getDbk s k :=
    hs1 ▸ getDbk_setVbst s _ w k
  have hw1 : Within [.regs, .dbk] (blks [.dbk]) s s1 := hs1 ▸ setVbst_within
  have hnow1 : s1.now = s.now := hw1.now.resolve_left (by simp)
  have hp1 : (getDrv s1 ch).prof = some p := by rw [getDrv_congr hdrv1, hp]
  have hother1 : ∀ c ∈ bankChans (ch / 8), c ≠ ch → (getDrv s1 c).prof = none := fun c hc hne => by
    rw [getDrv_congr hdrv1, (hother c hc).2 hne]
  rw [← hs1, askBoost_fold hp1 hnew (by rw [hnow1]; exact hdue) hother1] at hw
  obtain ⟨hph, hprof, hothers, hbanks, hregs, hw2⟩ := boostAsked_fields s1 ch p
  refine ⟨boostAsked s1 ch p, hw, hph, hprof, nextBoost_only hprof rfl hph fun c hc hne => ?_, ?_, ?_, fun hon k => ?_,
    hw2.step (hw1.mono rfl rfl) rfl rfl⟩
  · rw [hothers c hne, hother1 c hc hne]
  · exact (hregs1.mono (by simp)).trans (hregs.mono (by simp))
  · rw [hbanks.hsvFrom, hdbk1, if_pos rfl]
  · rw [← hdbk1]
    refine getDbk_congr (setPhaseAt_dbk_of_hsv ?_) k
    rw [← hon, hsvOn, hsvOn, rbit, rbit]
    exact congrArg (· == 1) (hregs1.rget _ _ _ (by simp [Fld.key_eq_iff]; decide))

theorem hsvGrant_taken {s : State} {b : Nat} (h : hsvOn s b = true) : hsvGrant s b = s :=
  if_pos (by rw [h, Bool.true_or])

theorem hsvGrant_next {s : State} {b c : Nat} (hoff : hsvOn s b = false) (hfrom : (getDbk s b).hsvFrom ≤ s.now)
    (hnext : nextBoost s b = some c) : hsvGrant s b = startBoost s c := by
  unfold hsvGrant
  rw [if_neg (by simp [hoff, hfrom]), hnext]

theorem rget_noteClamp (s : State) (ch : Nat) {f : Fld} (i j : Nat) (hf : f.id ≠ R.DBK_CH_STAT_CLAMPED.id) :
    rget (noteClamp s ch) f i j = rget s f i j := by
  unfold noteClamp
  split
  · exact rget_rset_ne _ _ _ _ _ _ hf
  · rfl

/-- What the start of a boost leaves of its channel and its bank. -/
theorem startBoost_fields {s : State} {ch : Nat} {p : DrvProf} (hp : (getDrv s ch).prof = some p) :
    drvPhase (startBoost s ch) ch = 2 ∧ hsvOn (startBoost s ch) (ch / 8) = true ∧
    rget (startBoost s ch) R.DBK_STATUS_HSV_CH (ch / 8) = ch % 8 ∧
    dget (startBoost s ch) R.DBK_CH_LAST_SHIFT ch =
      (stepNow s ch - p.reqStart) / 200 % 2 ^ R.DBK_CH_LAST_SHIFT.width ∧
    dget (startBoost s ch) R.DBK_CH_MOVE_SHOTS ch = (dget s R.DBK_CH_MOVE_SHOTS ch + 1) % 2 ^ R.DBK_CH_MOVE_SHOTS.width ∧
    ((getDrv (startBoost s ch) ch).prof.bind fun x => x.start) = some (stepNow s ch) := by
  obtain ⟨u, hu⟩ : ∃ u, u = startBoost s ch := ⟨_, rfl⟩
  rw [← hu]
  unfold startBoost at hu
  rw [hp] at hu
  dsimp -zeta only at hu
  extract_lets b t shift low sv src s0 s1 s2 s3 s4 s5 at hu
  have h0 : dget s0 R.DBK_CH_MOVE_SHOTS ch = dget s R.DBK_CH_MOVE_SHOTS ch := rget_rset_ne _ _ _ _ _ _ (by decide)
  clear_value s0
  have h1 : dget s1 R.DBK_CH_MOVE_SHOTS ch = dget s R.DBK_CH_MOVE_SHOTS ch ∧ rget s1 R.DBK_STATUS_HSV_ON b = 1 ∧
      rget s1 R.DBK_STATUS_HSV_CH b = ch % 8 := by
    refine ⟨?_, rget_rset_self _ _ _ _ _, ?_⟩
    · rw [← h0]
      simp (disch := decide) only [dget, s1, rget_rset_ne]
    · simp (disch := decide) only [s1, rget_rset_ne, rget_rset_self]
      exact Nat.mod_eq_of_lt (Nat.mod_lt _ (by decide))
  clear_value s1
  obtain ⟨hshots, hon, hch⟩ := h1
  have h2 : drvPhase s2 ch = 2 ∧ (∀ f i j, f.id ≠ R.DBK_CH_STAT_PHASE.id → rget s2 f i j = rget s1 f i j) ∧
      ((getDrv s2 ch).prof.bind fun x => x.start) = some t := by
    refine ⟨drvPhase_setPhaseAt s1 ch _ (by decide), fun f i j hf => ?_, ?_⟩
    · exact (rget_congr (setPhaseAt_regs s1 ch 2 _) f i j).trans (rget_rset_ne _ _ _ _ _ _ hf)
    · simp only [s2, getDrv_modDrv_self]
      rfl
  clear_value s2
  obtain ⟨hph, hread, hstart⟩ := h2
  have h3 : dget s3 R.DBK_CH_LAST_SHIFT ch = shift % 2 ^ R.DBK_CH_LAST_SHIFT.width ∧
      ∀ f i j, f.id ∉ [R.DBK_CH_LAST_SHIFT.id, R.DBK_CH_LAST_VBST_LOW.id, R.DBK_CH_LAST_VBST_AT_START.id] →
        rget s3 f i j = rget s2 f i j := by
    refine ⟨?_, fun f i j hf => ?_⟩
    · simp (disch := decide) only [s3, dget_dset_ne, dget_dset_self]
    · simp only [List.mem_cons, List.not_mem_nil, or_false, not_or] at hf
      obtain ⟨hs, hl, hv⟩ := hf
      exact (rget_rset_ne _ _ _ _ _ _ hv).trans ((rget_rset_ne _ _ _ _ _ _ hl).trans (rget_rset_ne _ _ _ _ _ _ hs))
  have hdrv3 : s3.drv = s2.drv := rfl
  clear_value s3
  obtain ⟨hshift, hread3⟩ := h3
  have h4 : dget s4 R.DBK_CH_MOVE_SHOTS ch = (dget s3 R.DBK_CH_MOVE_SHOTS ch + 1) % 2 ^ R.DBK_CH_MOVE_SHOTS.width ∧
      ∀ f i j, f.id ∉ [R.DBK_CH_MOVE_SHOTS.id, R.DBK_CH_STAT_CLAMPED.id] → rget s4 f i j = rget s3 f i j := by
    refine ⟨(rget_noteClamp _ _ _ _ (by decide)).trans (rget_rset_self _ _ _ _ _), fun f i j hf => ?_⟩
    simp only [List.mem_cons, List.not_mem_nil, or_false, not_or] at hf
    exact (rget_noteClamp _ _ _ _ hf.2).trans (rget_rset_ne _ _ _ _ _ _ hf.1)
  have hdrv4 : s4.drv = s3.drv := noteClamp_within.drv.resolve_left (by simp)
  clear_value s4
  obtain ⟨hcount, hread4⟩ := h4
  have h5 : (∀ f i j, f.id ≠ R.DBK_C7_BNR_BOOST_NOT_READY.id → rget s5 f i j = rget s4 f i j) ∧ s5.drv = s4.drv := by
    simp only [s5]
    split
    · exact ⟨fun f i j hf => rget_rset_ne _ _ _ _ _ _ hf, rfl⟩
    · exact ⟨fun _ _ _ _ => rfl, rfl⟩
  clear_value s5
  obtain ⟨hread5, hdrv5⟩ := h5
  have hu5 : u.regs = s5.regs ∧ (getDrv u ch).prof = (getDrv s5 ch).prof := by
    rw [hu]
    refine foldl_invariant (P := fun v : State => v.regs = s5.regs ∧ (getDrv v ch).prof = (getDrv s5 ch).prof) ⟨rfl, rfl⟩
      fun v k _ hv => ⟨hv.1, ?_⟩
    by_cases hk : ch = k
    · subst hk
      rw [getDrv_modDrv_self, ← hv.2]
      split <;> rfl
    · rw [getDrv_modDrv_ne _ _ hk, hv.2]
  obtain ⟨hregs, hprof⟩ := hu5
  have hfield (f : Fld) (i j : Nat) (hf : f.id ∉ [R.DBK_CH_STAT_PHASE.id, R.DBK_CH_LAST_SHIFT.id, R.DBK_CH_LAST_VBST_LOW.id,
      R.DBK_CH_LAST_VBST_AT_START.id, R.DBK_CH_MOVE_SHOTS.id, R.DBK_CH_STAT_CLAMPED.id, R.DBK_C7_BNR_BOOST_NOT_READY.id]) :
      rget u f i j = rget s1 f i j := by
    simp only [List.mem_cons, List.not_mem_nil, or_false, not_or] at hf
    obtain ⟨hf1, hf2, hf3, hf4, hf5, hf6, hf7⟩ := hf
    rw [rget_congr hregs, hread5 _ _ _ hf7, hread4 _ _ _ (by simp [hf5, hf6]), hread3 _ _ _ (by simp [hf2, hf3, hf4]),
      hread _ _ _ hf1]
  refine ⟨?_, ?_, ?_, ?_, ?_, ?_⟩
  · rw [← hph, drvPhase, drvPhase, dget, dget, rget_congr hregs, hread5 _ _ _ (by decide), hread4 _ _ _ (by decide),
      hread3 _ _ _ (by decide)]
  · rw [hsvOn, rbit_iff, hfield _ _ _ (by decide), hon]
  · rw [hfield _ _ _ (by decide), hch]
  · rw [dget, rget_congr hregs, hread5 _ _ _ (by decide), hread4 _ _ _ (by decide)]
    exact hshift
  · rw [dget, rget_congr hregs, hread5 _ _ _ (by decide)]
    refine hcount.trans ?_
    rw [dget, hread3 _ _ _ (by decide), hread _ _ _ (by decide)]
    exact congrArg (fun n => (n + 1) % 2 ^ R.DBK_CH_MOVE_SHOTS.width) hshots
  · rw [hprof, getDrv_congr hdrv5, getDrv_congr hdrv4, getDrv_congr hdrv3]
    exact hstart

/-! ### The end of a boost (R180, R184) -/

theorem recordMove_drv (s : State) (ch : Nat) (step : Option Nat) : (recordMove s ch step).drv =
    (modDrv (noteMove s ch step) ch fun c => { c with
      recMove := true, prof := c.prof.map fun p => { p with searched := true, noMove := step.isNone } }).drv := by
  cases step <;> rfl

/-- The end of a search leaves the channel its profile. -/
theorem endSearch_prof {s : State} {ch : Nat} {p : DrvProf} (hp : (getDrv s ch).prof = some p) :
    ∃ q, (getDrv (endSearch s ch) ch).prof = some q ∧ q.ref = p.ref := by
  unfold endSearch
  rw [hp]
  dsimp only
  split
  · refine ⟨{ p with searched := true, noMove := true }, ?_, rfl⟩
    rw [getDrv_congr (recordMove_drv s ch none), getDrv_modDrv_self, show getDrv (noteMove s ch none) ch = getDrv s ch from rfl,
      hp]
    rfl
  · exact ⟨p, hp, rfl⟩

/-- The end of a search writes the movement fields alone. -/
theorem endSearch_rget (s : State) (ch : Nat) (f : Fld) (i j : Nat)
    (hf : f.id ∉ [R.DBK_CH_MOVE_MOVE_TIME.id, R.DBK_CH_MOVE_VALID.id, R.DBK_CH_MOVE_NO_MOVE.id]) :
    rget (endSearch s ch) f i j = rget s f i j := by
  simp only [List.mem_cons, List.not_mem_nil, or_false, not_or] at hf
  obtain ⟨htime, hvalid, hnone⟩ := hf
  unfold endSearch
  split
  · split
    · exact (rget_rset_ne _ _ _ _ _ _ hnone).trans ((rget_rset_ne _ _ _ _ _ _ hvalid).trans
        (rget_rset_ne _ _ _ _ _ _ htime))
    · rfl
  · rfl

/-- The HSV that its channel holds opens, and may be granted again after BOOST_GAP. -/
theorem releaseHsv_fields {s : State} {ch : Nat} (h : hasHsv s ch = true) :
    hsvOn (releaseHsv s ch) (ch / 8) = false ∧ (getDbk (releaseHsv s ch) (ch / 8)).hsvFrom = stepNow s ch + 800 ∧
    (releaseHsv s ch).drv = s.drv ∧
    ∀ f i j, f.id ≠ R.DBK_STATUS_HSV_ON.id → rget (releaseHsv s ch) f i j = rget s f i j := by
  unfold releaseHsv releaseHsvAt
  rw [if_pos h]
  dsimp only
  refine ⟨?_, ?_, noteHs_drv _ _ _, fun f i j hf => ?_⟩
  · rw [hsvOn_congr (noteHs_regs _ _ _), hsvOn, rbit, rget_rset_self]
    rfl
  · rw [(noteHs_sameBanks _ _ _).hsvFrom]
    exact congrArg DrvBank.hsvFrom (getDbk_setDbk_self _ _ _)
  · rw [rget_congr (noteHs_regs _ _ _)]
    exact rget_rset_ne _ _ _ _ _ _ hf

/-- A boost of a channel with a peak time ends in PEAK, with the HSV open. -/
theorem endBoost_peak {s : State} {ch : Nat} {p : DrvProf} (byTime : Bool) (hp : (getDrv s ch).prof = some p)
    (hhsv : hasHsv s ch = true) (hT : dget s R.DBK_CH_PEAK_T_PEAK_US ch ≠ 0) :
    drvPhase (endBoost s ch byTime) ch = 3 ∧ hsvOn (endBoost s ch byTime) (ch / 8) = false ∧
    (getDbk (endBoost s ch byTime) (ch / 8)).hsvFrom = stepNow s ch + 800 ∧
    ((getDrv (endBoost s ch byTime) ch).prof.map fun x => (x.peakStart, x.byTimeout)) = some (some (stepNow s ch), byTime) := by
  obtain ⟨s0, hs0⟩ : ∃ s0, s0 = if byTime then s else endSearch s ch := ⟨_, rfl⟩
  have h0 : (∃ q, (getDrv s0 ch).prof = some q) ∧ hasHsv s0 ch = true ∧ stepNow s0 ch = stepNow s ch := by
    rw [hs0]
    split
    · exact ⟨⟨p, hp⟩, hhsv, rfl⟩
    · obtain ⟨q, hq, -⟩ := endSearch_prof hp
      have hread := endSearch_rget s ch
      have hw := endSearch_within (s := s) (ch := ch)
      refine ⟨⟨q, hq⟩, ?_, ?_⟩
      · rw [← hhsv, hasHsv, hasHsv, hsvOn, hsvOn, rbit, rbit, hread _ _ _ (by decide), hread _ _ _ (by decide)]
      · rw [stepNow, stepNow, hw.now.resolve_left (by simp), getPps_congr (hw.pps.resolve_left (by simp))]
  obtain ⟨⟨q, hq⟩, hheld, hstep⟩ := h0
  obtain ⟨hoff, hfrom, hdrv, hread⟩ := releaseHsv_fields hheld
  obtain ⟨s1, hs1⟩ : ∃ s1, s1 = modDrv (releaseHsv s0 ch) ch fun c => { c with prof := c.prof.map fun p =>
    { p with byTimeout := byTime, peakStart := some (stepNow s ch) } } := ⟨_, rfl⟩
  have h1 : hsvOn s1 (ch / 8) = false ∧ (getDbk s1 (ch / 8)).hsvFrom = stepNow s ch + 800 ∧
      ((getDrv s1 ch).prof.map fun x => (x.peakStart, x.byTimeout)) = some (some (stepNow s ch), byTime) := by
    rw [hs1]
    refine ⟨hoff, hfrom.trans (by rw [hstep]), ?_⟩
    rw [getDrv_modDrv_self, getDrv_congr hdrv, hq]
    rfl
  obtain ⟨hoff1, hfrom1, hprof1⟩ := h1
  have heq : endBoost s ch byTime = setPhase s1 ch 3 := by
    unfold endBoost
    extract_lets t0 t1
    have ht1 : t1 = s1 := by
      rw [hs1, hs0]
    rw [ht1]
    exact if_neg hT
  rw [heq]
  refine ⟨drvPhase_setPhaseAt s1 ch _ (by decide), ?_, ?_, ?_⟩
  · rw [← hoff1, hsvOn, hsvOn, rbit, rbit]
    exact congrArg (· == 1) ((rget_congr (setPhaseAt_regs _ _ _ _) _ _ _).trans (rget_rset_ne _ _ _ _ _ _ (by decide)))
  · exact ((setPhaseAt_sameBanks s1 ch 3 _).hsvFrom _).trans hfrom1
  · rw [show (getDrv (setPhase s1 ch 3) ch).prof = (getDrv s1 ch).prof from prof_setPhaseAt s1 ch 3 _, hprof1]

/-- A boost that ends in a peak completes no descriptor. -/
theorem endBoost_within_peak {s : State} {ch : Nat} {byTime : Bool} (hT : dget s R.DBK_CH_PEAK_T_PEAK_US ch ≠ 0) :
    Within [.regs, .drv, .dbk, .hlm] (blks [.dbk]) s (endBoost s ch byTime) := by
  unfold endBoost
  extract_lets s0 s1
  have h0 : Within [.regs, .drv, .hlm] (blks [.dbk]) s s0 := within_ite (.refl s) endSearch_within
  rw [if_neg hT]
  exact setPhase_within.step (modDrv_within.step (releaseHsv_within.step (h0.mono rfl rfl) rfl rfl) rfl rfl) rfl rfl

/-- The open-load check leaves phases and HSV, and what the channels hold. -/
theorem openNow_fields (s : State) (ch : Nat) : (openNow s ch).drv = s.drv ∧ (openNow s ch).dbk = s.dbk ∧
    (openNow s ch).now = s.now ∧
    ∀ f i j, f.id / 128 = blkCode .dbk → f.id ≠ R.DBK_CH_STAT_FAULT.id → rget (openNow s ch) f i j = rget s f i j := by
  have hw := openNow_within (s := s) (ch := ch)
  refine ⟨hw.drv.resolve_left (by simp), hw.dbk.resolve_left (by simp), hw.now.resolve_left (by simp), fun f i j hf hid => ?_⟩
  have hfault : rget (setDrvFault s ch 4) f i j = rget s f i j := by
    unfold setDrvFault
    dsimp only
    split
    · rw [raiseEv_within.rget f i j (by rw [hf]; decide)]
      exact rget_rset_ne _ _ _ _ _ _ hid
    · exact rget_rset_ne _ _ _ _ _ _ hid
  unfold openNow
  split
  · exact hfault
  · rfl

/-- The present step of the time base began less than 0.5 µs ago. -/
theorem now_lt_stepNow (s : State) (ch : Nat) : s.now < stepNow s ch + 200 := by
  unfold stepNow
  have := Nat.mod_lt (s.now - (getPps s (ch / 48)).gridAt) (show 0 < halfUs by decide)
  unfold halfUs at this ⊢
  omega

/-- A boost that has lasted T_BOOST short of its current ends by its time. -/
theorem settleProf_byTime {s : State} {ch x : Nat} {p : DrvProf} (hph : drvPhase s ch = 2) (hp : (getDrv s ch).prof = some p)
    (hhsv : hasHsv s ch = true) (hT : dget s R.DBK_CH_PEAK_T_PEAK_US ch ≠ 0) (hx : p.start = some x)
    (hdue : x + dval s R.DBK_CH_BOOST_T_BOOST_US ch * fcUs ≤ s.now)
    (hma : maNow s ch = none ∨ ∃ m < (boostLevel s ch).1, maNow s ch = some m) :
    settleProf s ch = openNow (endBoost s ch true) ch := by
  have hboost : settleBoost s ch = openNow (endBoost s ch true) ch := by
    unfold settleBoost
    simp only [hph, hp]
    rw [hx, if_pos (show (some x).getD s.now + _ ≤ _ from hdue)]
    rcases hma with h | ⟨m, hm, h⟩
    · simp [h]
    · simp [h, hm]
  obtain ⟨hph3, -, -, hpeak⟩ := endBoost_peak true hp hhsv hT
  obtain ⟨hdrv, -, hnow, hread⟩ := openNow_fields (endBoost s ch true) ch
  rw [settleProf_eq, hboost]
  unfold settlePeak
  have hph' : drvPhase (openNow (endBoost s ch true) ch) ch = 3 := (hread _ _ _ (by decide) (by decide)).trans hph3
  rw [hph', getDrv_congr hdrv]
  cases hq : (getDrv (endBoost s ch true) ch).prof with
  | none => rfl
  | some q =>
    rw [hq] at hpeak
    have hstart : q.peakStart = some (stepNow s ch) := congrArg Prod.fst (Option.some.inj hpeak)
    have hT' : dget (openNow (endBoost s ch true) ch) R.DBK_CH_PEAK_T_PEAK_US ch = dget s R.DBK_CH_PEAK_T_PEAK_US ch :=
      (hread _ _ _ (by decide) (by decide)).trans ((endBoost_driveStep s ch true).fields _ _ _ (by decide) (by decide))
    have hnow' : (openNow (endBoost s ch true) ch).now = s.now := hnow.trans (endBoost_within.now.resolve_left (by simp))
    simp only [hstart, hT', hnow']
    refine if_neg ?_
    have := now_lt_stepNow s ch
    have hpos : 1 ≤ dget s R.DBK_CH_PEAK_T_PEAK_US ch := Nat.one_le_iff_ne_zero.mpr hT
    have : fcUs ≤ dget s R.DBK_CH_PEAK_T_PEAK_US ch * fcUs := Nat.le_mul_of_pos_left _ hpos
    simp only [Option.getD_some, fcUs] at this ⊢
    omega

/-! ### The end of a peak, of a profile and of a decay -/

/-- A peak that ends holds the channel, its descriptor complete. -/
theorem endPeak_holds {s : State} {ch : Nat} {p : DrvProf} (hp : (getDrv s ch).prof = some p) :
    drvPhase (endPeak s ch) ch = 4 ∧ ((getDrv (endPeak s ch) ch).prof.map fun x => x.ref) = some none ∧
    Within [.regs, .drv, .hlm, .reqs, .till] (blks [.dbk]) s (endPeak s ch) := by
  obtain ⟨q, hq, -⟩ := endSearch_prof hp
  obtain ⟨v, hv⟩ : ∃ v, v = modDrv (finishProf (endSearch s ch) ch q false) ch fun c => { c with prof := some { q with ref := none } } :=
    ⟨_, rfl⟩
  have heq : endPeak s ch = setPhase v ch 4 := by
    unfold endPeak
    dsimp only
    rw [hq, hv]
  have hprof : (getDrv v ch).prof = some { q with ref := none } := by rw [hv, getDrv_modDrv_self]
  have hw : Within [.regs, .drv, .hlm, .reqs, .till] (blks [.dbk]) s v := by
    rw [hv]
    exact modDrv_within.step (finishProf_within.step (endSearch_within.mono rfl rfl) rfl rfl) rfl rfl
  have hph : drvPhase (phaseEntered v ch 4 (stepNow v ch)) ch = 4 :=
    (drvPhase_congr (phaseEntered_regs _ _ _ _) ch).trans (dget_dset_self _ _ _ _)
  rw [heq]
  refine ⟨drvPhase_setPhaseAt v ch _ (by decide), ?_, ?_⟩
  · rw [show (getDrv (setPhase v ch 4) ch).prof = (getDrv v ch).prof from prof_setPhaseAt v ch 4 _, hprof]
    rfl
  · rw [setPhase, setPhaseAt_closed (highSideClosed_of_hold (.inr hph))]
    exact phaseEntered_within.step hw rfl rfl

/-- Outside BOOST and PEAK no phase ends by its time. -/
theorem settleProf_none {s : State} {ch : Nat} (h2 : drvPhase s ch ≠ 2) (h3 : drvPhase s ch ≠ 3) : settleProf s ch = s := by
  have hboost : settleBoost s ch = s := by
    unfold settleBoost
    split
    · contradiction
    · rfl
  rw [settleProf_eq, hboost]
  unfold settlePeak
  split
  · contradiction
  · rfl

theorem settleProf_peak {s : State} {ch x : Nat} {p : DrvProf} (hph : drvPhase s ch = 3) (hp : (getDrv s ch).prof = some p)
    (hx : p.peakStart = some x) (hdue : x + dget s R.DBK_CH_PEAK_T_PEAK_US ch * fcUs ≤ s.now) :
    settleProf s ch = endPeak s ch := by
  have hboost : settleBoost s ch = s := by
    unfold settleBoost
    simp only [hph]
  rw [settleProf_eq, hboost]
  unfold settlePeak
  simp only [hph, hp]
  rw [hx]
  exact if_pos hdue

/-- A DECAY below 50 mA ends in OFF, and a slope that the bank has measured is stored. -/
theorem noteSlope_fields (s : State) (ch slope : Nat) :
    drvPhase (noteSlope s ch slope) ch = drvPhase s ch ∧
    RegsOnly s (noteSlope s ch slope) [R.DBK_CH_DECAY_MEAS_DECAY.key (ch / 8) (ch % 8)] ∧
    (drvPhase s ch = 6 → (getDrv s ch).forcedDecay = true ∨ ((getDrv s ch).decayFast = true ∧ 500 < (getDrv s ch).decayMa) →
      dget (noteSlope s ch slope) R.DBK_CH_DECAY_MEAS_DECAY ch = slope % 2 ^ R.DBK_CH_DECAY_MEAS_DECAY.width) := by
  unfold noteSlope
  dsimp only
  split
  · exact ⟨rget_rset_ne _ _ _ _ _ _ (by decide), rset_regsOnly _ _ _ _ _ (by simp), fun _ _ => rget_rset_self _ _ _ _ _⟩
  · rename_i h
    refine ⟨rfl, .of_eq _ rfl, fun hph hslope => absurd ?_ h⟩
    rw [hph]
    rcases hslope with h1 | ⟨h1, h2⟩
    · rw [h1, Bool.true_or]
    · rw [h1, decide_eq_true h2]
      exact Bool.or_true _

/-- A field of a channel reads as before after the same field of another channel of its bank is written. -/
theorem dget_dset_sibling (s : State) (f : Fld) (v : Nat) {c ch : Nat} (hb : c / 8 = ch / 8) (hne : c ≠ ch) :
    dget (dset s f v ch) f c = dget s f c := by
  unfold dget dset
  rw [rget_rset, if_neg fun h => ?_]
  have := Nat.mod_lt c (show 0 < 8 by decide)
  have := Nat.mod_lt ch (show 0 < 8 by decide)
  omega

/-- OFF entered from DECAY leaves the bank's high side as it was. -/
theorem setPhase_off_within {s : State} {ch : Nat} (hph : drvPhase s ch = 6) :
    Within [.regs, .drv] (blks [.dbk]) s (setPhase s ch 0) := by
  obtain ⟨v, hv⟩ : ∃ v, v = phaseEntered s ch 0 (stepNow s ch) := ⟨_, rfl⟩
  have hregs : v.regs = (dset s R.DBK_CH_STAT_PHASE 0 ch).regs := hv ▸ phaseEntered_regs s ch 0 _
  have hdrvs := phaseEntered_drv s ch 0 (stepNow s ch)
  rw [← hv] at hdrvs
  obtain ⟨hothers, -, horders⟩ := hdrvs
  have hsame : highSideClosed v (ch / 8) = highSideClosed s (ch / 8) := by
    have hon : hsvOn v (ch / 8) = hsvOn s (ch / 8) := (hsvOn_congr hregs _).trans
      (congrArg (· == 1) (rget_rset_ne _ _ _ _ _ _ (by decide)))
    have hsb : hsbClosed v (ch / 8) = hsbClosed s (ch / 8) := by
      unfold hsbClosed
      refine any_congr_mem fun c hc => ?_
      by_cases he : c = ch
      · subst he
        have hv0 : drvPhase v c = 0 := (drvPhase_congr hregs c).trans (dget_dset_self _ _ _ _)
        rw [hv0, hph]
        rfl
      · have hphc : drvPhase v c = drvPhase s c := (drvPhase_congr hregs c).trans
          (dget_dset_sibling s _ _ (bank_of_mem hc) he)
        rw [hphc, hothers c he]
    rw [highSideClosed, highSideClosed, hon, hsb]
  have heq : setPhase s ch 0 = v := by
    rw [setPhase, setPhaseAt_eq, ← hv, noteHs, hsame]
    exact if_neg (by simp)
  rw [heq, hv]
  exact phaseEntered_within

/-! ### Movement (R190) -/

/-- A sample of a search that has not yet ended. -/
theorem moveSample_searches {s : State} {ch t ma x : Nat} {p : DrvProf} (hp : (getDrv s ch).prof = some p)
    (hen : dbit s R.DBK_CH_CFG_MOVE_EN ch = true) (hnew : p.searched = false) (hx : p.start = some x)
    (hblank : dget s R.DBK_CH_MOVE_CFG_BLANK ch ≤ (t - x) / halfUs) (hph : drvPhase s ch = 2 ∨ drvPhase s ch = 3) :
    moveSample s ch t ma =
      let r := p.sample (dval s R.DBK_CH_MOVE_CFG_DIP_MA ch) ((t - x) / halfUs) ma
      let s1 := modDrv s ch fun c => { c with prof := some r.1 }
      match r.2 with
      | some n => recordMove s1 ch (some n)
      | none =>
        if (if drvPhase s ch = 2 then (boostLevel s ch).1 else (peakLevel s ch).1) ≤ ma then recordMove s1 ch none else s1 := by
  unfold moveSample
  simp only [hp, hx]
  rw [if_neg (by
    rw [hen, hnew]
    rcases hph with h | h <;> simp [h, Nat.not_lt.mpr hblank])] <;> rfl

/-- A movement result stands in the registers of its channel. -/
theorem recordMove_fields (s : State) (ch : Nat) (step : Option Nat) :
    dget (recordMove s ch step) R.DBK_CH_MOVE_MOVE_TIME ch = (step.map fun n => min n 8191).getD 0 ∧
    dget (recordMove s ch step) R.DBK_CH_MOVE_VALID ch = b2n step.isSome ∧
    dget (recordMove s ch step) R.DBK_CH_MOVE_NO_MOVE ch = b2n step.isNone := by
  cases step with
  | none =>
    unfold recordMove
    simp (disch := decide) only [dget_dset_ne, dget_dset_self]
    exact ⟨rfl, rfl, rfl⟩
  | some n =>
    unfold recordMove
    simp (disch := decide) only [dget_dset_ne, dget_dset_self]
    exact ⟨Nat.mod_eq_of_lt (Nat.lt_succ_of_le (Nat.min_le_right n 8191)), rfl, rfl⟩

/-- A sample that is due is taken, and its search record stands. -/
theorem drvTrace_single {s : State} {ch t ma : Nat} (hat : (getDrv s ch).maAt = 0 ∨ (getDrv s ch).maAt < t)
    (hsince : (getDrv s ch).since ≤ t) : drvTrace s ch t [ma] =
      modDrv (moveSample s ch t ma) ch fun c => { c.setLow (lowAfter s ch t ma) t with ma := ma, maAt := t } := by
  change drvSample s ch (t - halfUs * 0) ma = _
  rw [Nat.mul_zero, Nat.sub_zero]
  exact if_pos ⟨hat.symm, hsince⟩

/-! ### Shots (R189) -/

/-- A shot that is due, of a channel that is not latched. -/
theorem shotDue_now {s : State} {ch d : Nat} (hshot : (getDrv s ch).nextShot = some d) (hdue : d ≤ s.now)
    (hlat : drvLatched s ch = false) : shotDue s ch =
      let s1 := modDrv s ch fun c => { c with lastShot := some d, nextShot := some (d + c.interval) }
      if (getDrv s ch).prof.isSome then rinc s1 R.DBK_CH_COUNTS_DROPPED 1 (ch / 8) (ch % 8)
      else drvProfile s1 ch 0 (dval s R.DBK_CH_SHOT_SHOT_US ch) 0 none (rowNow s) d := by
  unfold shotDue
  simp only [hshot]
  rw [if_neg (Nat.not_lt.mpr hdue), if_neg (Bool.eq_false_iff.mp hlat)]

/-! ### O26 -/

theorem atDrive_powered {s a : State} {t : Fc} {ch : Nat} {l : List Nat} (f : State → State)
    (hpow : (getPps s (ch / 48)).powered = true) (ha : drvTrace (advance s t) ch (stepNow (advance s t) ch) l = a) :
    atDrive t ch l f s = .next (f a) := by
  subst ha
  exact atPlane_powered s t (ch / 48) (fun s => f (drvTrace s ch (stepNow s ch) l)) hpow

theorem drvTrace_now {s a : State} {t : Fc} {ch : Nat} {l : List Nat}
    (ha : drvTrace (advance s t) ch (stepNow (advance s t) ch) l = a) : a.now = max s.now t := by
  subst ha
  exact drvTrace_within.now.resolve_left (by simp)

/-- A dropped request leaves the channel OFF without its profile, and counts. -/
theorem dropProf_fields {s : State} {ch : Nat} {p : DrvProf} (hp : (getDrv s ch).prof = some p)
    (hon : hsvOn s (ch / 8) = true) :
    (getDrv (dropProf s ch) ch).prof = none ∧ drvPhase (dropProf s ch) ch = 0 ∧
    dget (dropProf s ch) R.DBK_CH_COUNTS_DROPPED ch =
      satTo R.DBK_CH_COUNTS_DROPPED.width (dget s R.DBK_CH_COUNTS_DROPPED ch + 1) ∧ (dropProf s ch).dbk = s.dbk := by
  obtain ⟨v, hv⟩ : ∃ v, v = modDrv s ch fun c => { c with prof := none } := ⟨_, rfl⟩
  have hprof : (getDrv v ch).prof = none := by rw [hv, getDrv_modDrv_self]
  have hvs : v.regs = s.regs ∧ v.dbk = s.dbk := by rw [hv]; exact ⟨rfl, rfl⟩
  obtain ⟨w, hw⟩ : ∃ w, w = setPhase v ch 0 := ⟨_, rfl⟩
  have hwregs : w.regs = (dset v R.DBK_CH_STAT_PHASE 0 ch).regs := hw ▸ setPhaseAt_regs v ch 0 _
  have hwprof : (getDrv w ch).prof = none := by
    rw [hw, show (getDrv (setPhase v ch 0) ch).prof = (getDrv v ch).prof from prof_setPhaseAt v ch 0 _]
    exact hprof
  have hwdbk : w.dbk = s.dbk := by
    rw [hw]
    exact (setPhaseAt_dbk_of_hsv (by rw [hsvOn_congr hvs.1, hon])).trans hvs.2
  obtain ⟨z, hz⟩ : ∃ z, z = rinc w R.DBK_CH_COUNTS_DROPPED 1 (ch / 8) (ch % 8) := ⟨_, rfl⟩
  have hzf : (getDrv z ch).prof = none ∧ drvPhase z ch = 0 ∧
      dget z R.DBK_CH_COUNTS_DROPPED ch = satTo R.DBK_CH_COUNTS_DROPPED.width (dget s R.DBK_CH_COUNTS_DROPPED ch + 1) ∧
      z.dbk = s.dbk := by
    rw [hz]
    refine ⟨hwprof, ?_, ?_, hwdbk⟩
    · refine (rget_rset_ne _ _ _ _ _ _ (by decide)).trans ((drvPhase_congr hwregs ch).trans ?_)
      exact dget_dset_self _ _ _ _
    · refine (rget_rinc_self _ _ _ _ _).trans (congrArg (fun n => satTo R.DBK_CH_COUNTS_DROPPED.width (n + 1)) ?_)
      rw [rget_congr hwregs]
      exact (rget_rset_ne _ _ _ _ _ _ (by decide)).trans (rget_congr hvs.1 _ _ _)
  have hdrop : dropProf s ch = z ∨ ∃ r st d row, dropProf s ch = completeRow z (ch / 8) r st d row := by
    unfold dropProf
    simp only [hp]
    rw [← hv, ← hw, ← hz]
    cases p.ref with
    | none => exact .inl rfl
    | some r => exact .inr ⟨_, _, _, _, rfl⟩
  rcases hdrop with h | ⟨r, st, d, row, h⟩
  · rw [h]
    exact hzf
  · have hc := completeRow_within (s := z) (prod := ch / 8) (r := r) (status := st) (detail := d) (row := row)
    rw [h, getDrv_congr (hc.drv.resolve_left (by simp)), drvPhase_congr (hc.regs.resolve_left (by simp)), dget,
      rget_congr (hc.regs.resolve_left (by simp)), hc.dbk.resolve_left (by simp)]
    exact hzf

/-- The end of a decay: its slope is noted, and below 50 mA the channel is OFF. -/
def decayEnded (ch slope : Nat) (s : State) : State :=
  let s1 := noteSlope s ch slope
  if drvPhase s ch = 6 ∧ (maNow s ch).any (fun ma => decide (ma < 50)) then setPhase s1 ch 0 else s1

/-- Settles O26. -/
theorem driveProfiles : Obligations.DriveProfiles := by
  unfold Obligations.DriveProfiles
  refine ⟨?request, ?requestGrant, ?requestWait, ?gapGrant, ?gap, ?waitDrop, ?wait, ?current, ?byTime, ?peak, ?ends, ?decay,
    ?move, ?moveFound, ?moveNone, ?shot, ?shotDropped⟩
  case request =>
    intro s t ch v hpow
    exact atPlane_powered s t _ (fun s => bankGrant s (ch.val / 8) v) hpow
  case requestGrant =>
    intro s t ch v p hpow hpassed hp hnew hdue hother hoff hfrom
    obtain ⟨u, hu, -, hprof, hnext, hregs, hsame, -, hw⟩ := bankGrant_asks (s := advance s t) v hpassed hp hnew hdue hother
    have hread (f : Fld) (i j : Nat) (hf : f.id ≠ R.DBK_VBST_MEAS.id ∧ f.id ≠ R.DBK_CH_STAT_PHASE.id) :
        rget u f i j = rget s f i j := hregs.rget f i j (by simp [Fld.key_eq_iff, hf.1, hf.2])
    have hnow : u.now = max s.now t := hw.now.resolve_left (by simp)
    have hstep : stepNow u ch = stepNow (advance s t) ch := by
      rw [stepNow, stepNow, hnow, getPps_congr (hw.pps.resolve_left (by simp))]
      rfl
    rw [hsvGrant_next (by rw [hsvOn, rbit, hread _ _ _ (by decide)]; exact hoff) (by rw [hsame, hnow]; exact hfrom) hnext] at hu
    obtain ⟨hph, hon, hch, hshift, hshots, hstart⟩ := startBoost_fields hprof
    rw [hstep] at hshift hstart
    have hw' : Within [.regs, .drv, .dbk, .onesAt] (blks [.dbk]) (advance s t) (startBoost u ch) :=
      startBoost_within.step (hw.mono rfl rfl) rfl rfl
    refine ⟨_, (atPlane_powered s t _ (fun s => bankGrant s (ch.val / 8) v) hpow).trans (congrArg _ hu), hph, hon, hch,
      hshift, ?_, hstart, hw'.blocksOnly, hw'.eq_frame⟩
    rw [hshots, dget, hread _ _ _ (by decide)]
    rfl
  case requestWait =>
    intro s t ch v p hpow hpassed hp hnew hdue hother hon hnot
    obtain ⟨u, hu, hph, hprof, -, hregs, -, hbank, hw⟩ := bankGrant_asks (s := advance s t) v hpassed hp hnew hdue hother
    have hon' : hsvOn u (ch.val / 8) = true := by
      rw [← hon, hsvOn, hsvOn, rbit, rbit, hregs.rget _ _ _ (by rw [List.mem_cons, List.mem_singleton, Fld.key_eq_iff, Fld.key_eq_iff, not_or]; exact ⟨fun h => absurd h.1 (by decide), fun h => absurd h.1 (by decide)⟩)]
      rfl
    rw [hsvGrant_taken hon'] at hu
    exact ⟨u, (atPlane_powered s t _ (fun s => bankGrant s (ch.val / 8) v) hpow).trans (congrArg _ hu), hph, hprof, hregs,
      hbank hon, hw.eq_frame⟩
  case gapGrant =>
    intro s t b v c p hpow hpassed hasked hoff hfrom hnext hc hp
    obtain ⟨u, hu, hregs, hdrv, hdbk, hw⟩ := bankGrant_waits (s := advance s t) v hpassed hasked
    have hread (f : Fld) (i j : Nat) (hf : f.id ≠ R.DBK_VBST_MEAS.id) : rget u f i j = rget s f i j :=
      hregs.rget f i j (by simp [Fld.key_eq_iff, hf])
    have hnow : u.now = max s.now t := hw.now.resolve_left (by simp)
    rw [hsvGrant_next (c := c) (by rw [hsvOn, rbit, hread _ _ _ (by decide)]; exact hoff)
      (by rw [hdbk, if_pos rfl, hnow]; exact hfrom)
      ((nextBoost_congr hdrv (fun c => hread _ _ _ (by decide)) b).trans hnext)] at hu
    obtain ⟨hph, hon, hch, -, -, -⟩ := startBoost_fields (show (getDrv u c).prof = some p by rw [getDrv_congr hdrv]; exact hp)
    have hw' : Within [.regs, .drv, .dbk, .onesAt] (blks [.dbk]) (advance s t) (startBoost u c) :=
      startBoost_within.step (hw.mono rfl rfl) rfl rfl
    rw [hc] at hon hch
    exact ⟨_, (atPlane_powered s t _ (fun s => bankGrant s b v) hpow).trans (congrArg _ hu), hph, hon, hch,
      hw'.blocksOnly, hw'.eq_frame⟩
  case gap =>
    intro s t b v hpow
    exact atPlane_powered s t _ (fun s => bankGrant s b v) hpow
  case waitDrop =>
    intro s t ch v p hpow hpassed hasked hon hph hp hreq hdue
    have hplane : ch.val / 8 / 6 = ch.val / 48 := by omega
    obtain ⟨u, hu, hregs, hdrv, hdbk, hw⟩ := bankGrant_waits (s := advance s t) (b := ch.val / 8) v (hplane ▸ hpassed) hasked
    have hread (f : Fld) (i j : Nat) (hf : f.id ≠ R.DBK_VBST_MEAS.id) : rget u f i j = rget s f i j :=
      hregs.rget f i j (by simp [Fld.key_eq_iff, hf])
    have hon' : hsvOn u (ch.val / 8) = true := by
      rw [hsvOn, rbit, hread _ _ _ (by decide)]
      exact hon
    have hpu : (getDrv u ch).prof = some p := by rw [getDrv_congr hdrv]; exact hp
    rw [hsvGrant_taken hon'] at hu
    have hdrop : boostWait (advance s t) ch v = dropProf u ch := by
      unfold boostWait
      rw [hu]
      simp only [hpu]
      refine if_pos ⟨(hread _ _ _ (by decide)).trans hph, hreq, ?_⟩
      rw [dval, rval, hread _ _ _ (by decide), hw.now.resolve_left (by simp)]
      exact hdue
    obtain ⟨hnone, hoff, hcount, hdbk'⟩ := dropProf_fields hpu hon'
    have hw' : Within [.regs, .drv, .dbk, .reqs, .till] (blks [.dbk]) (advance s t) (dropProf u ch) :=
      dropProf_within.step (hw.mono rfl rfl) rfl rfl
    refine ⟨_, (atPlane_powered s t _ (fun s => boostWait s ch v) hpow).trans (congrArg _ hdrop), hnone, hoff, ?_, fun k => ?_,
      hw'.eq_frame⟩
    · rw [hcount, dget, hread _ _ _ (by decide)]
      rfl
    · rw [getDbk_congr hdbk', hdbk]
      rfl
  case wait =>
    intro s t ch v hpow
    exact atPlane_powered s t _ (fun s => boostWait s ch v) hpow
  case current =>
    intro s t ch l a p m hpow ha hph hp hhsv hT hma hm
    obtain ⟨hph3, hoff, hfrom, hprof⟩ := endBoost_peak false hp hhsv hT
    have hw := endBoost_within_peak (byTime := false) hT
    have heq : (if drvPhase a ch = 2 ∧ (maNow a ch).any (fun ma => decide ((boostLevel a ch).1 ≤ ma)) then endBoost a ch false
        else a) = endBoost a ch false := if_pos ⟨hph, by rw [hma]; exact decide_eq_true hm⟩
    exact ⟨_, (atDrive_powered (fun s => if drvPhase s ch = 2 ∧ (maNow s ch).any (fun ma => decide ((boostLevel s ch).1 ≤ ma))
      then endBoost s ch false else s) hpow ha).trans (congrArg _ heq), hph3, hoff, hfrom, hprof, hw.blocksOnly, hw.eq_frame⟩
  case byTime =>
    intro s t ch l a p x hpow ha hph hp hhsv hT hx hdue hma
    obtain ⟨hph3, hoff, hfrom, hprof⟩ := endBoost_peak true hp hhsv hT
    obtain ⟨hdrv, hdbk, -, hread⟩ := openNow_fields (endBoost a ch true) ch
    have heq := settleProf_byTime hph hp hhsv hT hx (by rw [drvTrace_now ha]; exact hdue) hma
    have hw : Within [.regs, .drv, .dbk, .hlm, .log, .mem, .extMem] (blks [.dbk, .hlm, .jrn]) a
        (openNow (endBoost a ch true) ch) := openNow_within.step ((endBoost_within_peak hT).mono rfl rfl) rfl rfl
    refine ⟨_, (atDrive_powered (fun s => settleProf s ch) hpow ha).trans (congrArg _ heq), (hread _ _ _ (by decide) (by decide)).trans hph3, ?_, ?_, ?_,
      hw.blocksOnly, hw.eq_frame⟩
    · rw [hsvOn, rbit, hread _ _ _ (by decide) (by decide)]
      exact hoff
    · rw [getDbk_congr hdbk, hfrom]
    · rw [getDrv_congr hdrv, hprof]
  case peak =>
    intro s t ch l a p x hpow ha hph hp hx hdue
    obtain ⟨hph4, href, hw⟩ := endPeak_holds hp
    have heq := settleProf_peak hph hp hx (by rw [drvTrace_now ha]; exact hdue)
    exact ⟨_, (atDrive_powered (fun s => if drvPhase s ch = 3 then settleProf s ch else s) hpow ha).trans
      (congrArg _ ((if_pos hph).trans heq)), hph4, href, hw.blocksOnly, hw.eq_frame⟩
  case ends =>
    intro s t ch l a p e hpow ha hph hp he hdue
    obtain ⟨hph6, hnone⟩ := stopProf_fields a ch
    have heq : profileEnd a ch = stopProf a ch := by
      unfold profileEnd
      rw [settleProf_none (by rw [hph]; decide) (by rw [hph]; decide)]
      simp only [hp, he]
      exact if_pos (by rw [drvTrace_now ha]; exact hdue)
    have hw := stopProf_within (s := a) (ch := ch.val)
    exact ⟨_, (atDrive_powered (fun s => profileEnd s ch) hpow ha).trans (congrArg _ heq), hph6, hnone, hw.blocksOnly, hw.eq_frame⟩
  case decay =>
    intro s t ch l a v m hpow ha hph hma hm
    obtain ⟨hph', hregs, hslope⟩ := noteSlope_fields a ch v
    have hph6 : drvPhase (noteSlope a ch v) ch = 6 := hph'.trans hph
    have hw : Within [.regs, .drv] (blks [.dbk]) a (setPhase (noteSlope a ch v) ch 0) :=
      (setPhase_off_within hph6).step noteSlope_within rfl rfl
    have heq : decayEnded ch v a = setPhase (noteSlope a ch v) ch 0 := if_pos ⟨hph, by rw [hma]; exact decide_eq_true hm⟩
    refine ⟨_, (atDrive_powered (decayEnded ch v) hpow ha).trans (congrArg _ heq), drvPhase_setPhaseAt _ _ _ (by decide), fun h => ?_,
      (hregs.mono (by simp)).trans ((setPhaseAt_regsOnly _ _ _ _).mono (by simp)), hw.eq_frame⟩
    rw [← hslope hph h]
    exact (rget_congr (setPhaseAt_regs _ _ _ _) _ _ _).trans (rget_rset_ne _ _ _ _ _ _ (by decide))
  case move =>
    intro s t ch l hpow
    exact atDrive_powered id hpow rfl
  case moveFound =>
    intro s t ch p x m lo n hpow hp hen hnew hx hblank hat hsince hph hdip hlo hm
    have hsample : moveSample (advance s t) ch (stepNow (advance s t) ch) m = recordMove
        (modDrv (advance s t) ch fun c => { c with prof := some p }) ch (some n) := by
      rw [moveSample_searches (s := advance s t) hp hen hnew hx hblank hph]
      unfold DrvProf.sample
      simp only [hdip]
      rw [if_neg (Nat.not_lt.mpr hlo), if_pos (show 4 * lo + dval (advance s t) _ _ ≤ 4 * m from hm)]
    obtain ⟨htime, hvalid, hnone⟩ := recordMove_fields
      (modDrv (advance s t) ch fun c => { c with prof := some p }) ch (some n)
    have hw := drvTrace_within (s := advance s t) (ch := ch) (t := stepNow (advance s t) ch) (l := [m])
    have heq := drvTrace_single (s := advance s t) (ma := m) hat hsince
    rw [hsample] at heq
    refine ⟨_, atDrive_powered id hpow rfl, ?_, ?_, ?_, hw.blocksOnly, hw.eq_frame⟩
    · rw [heq]
      exact htime
    · rw [heq]
      exact hvalid
    · rw [heq]
      exact hnone
  case moveNone =>
    intro s t ch p x m hpow hp hen hnew hx hblank hat hsince hph hdip hmax hpos hlevel
    have hsample : moveSample (advance s t) ch (stepNow (advance s t) ch) m = recordMove
        (modDrv (advance s t) ch fun c => { c with prof := some { p with maxMa := max p.maxMa m, dip := none } }) ch none := by
      rw [moveSample_searches (s := advance s t) hp hen hnew hx hblank (.inr hph)]
      unfold DrvProf.sample
      simp only [hdip]
      rw [if_neg (show ¬ drvPhase (advance s t) ch = 2 by rw [show drvPhase (advance s t) ch = 3 from hph]; decide),
        if_pos (show (peakLevel (advance s t) ch).1 ≤ m from hlevel),
        if_neg (show ¬ m + dval (advance s t) R.DBK_CH_MOVE_CFG_DIP_MA ch ≤ max p.maxMa m from fun h =>
          absurd (le_max_iff.mp h) (by
            rintro (h | h)
            · exact absurd h (Nat.not_le.mpr hmax)
            · exact absurd h (Nat.not_le.mpr (Nat.lt_add_of_pos_right hpos))))]
    obtain ⟨htime, hvalid, hnone⟩ := recordMove_fields
      (modDrv (advance s t) ch fun c => { c with prof := some { p with maxMa := max p.maxMa m, dip := none } }) ch none
    have hw := drvTrace_within (s := advance s t) (ch := ch) (t := stepNow (advance s t) ch) (l := [m])
    have heq := drvTrace_single (s := advance s t) (ma := m) hat hsince
    rw [hsample] at heq
    refine ⟨_, atDrive_powered id hpow rfl, ?_, ?_, ?_, hw.blocksOnly, hw.eq_frame⟩
    · rw [heq]
      exact htime
    · rw [heq]
      exact hvalid
    · rw [heq]
      exact hnone
  case shot =>
    intro s t ch d hpow hshot hdue hlat hp
    have heq := shotDue_now (s := advance s t) hshot hdue hlat
    obtain ⟨v, hv⟩ : ∃ v, v = modDrv (advance s t) ch fun c => { c with lastShot := some d, nextShot := some (d + c.interval) } :=
      ⟨_, rfl⟩
    have hvd : getDrv v ch = { getDrv s ch with lastShot := some d, nextShot := some (d + (getDrv s ch).interval) } :=
      hv ▸ getDrv_modDrv_self _ _ _
    obtain ⟨q, hreq, hon, -, -, -, -, -, hprof⟩ := drvProfile_free (s := v) (ch := ch)
      0 (dval s R.DBK_CH_SHOT_SHOT_US ch) 0 none (rowNow s) d (by rw [hvd]; exact hp)
    rw [show (getDrv (advance s t) ch).prof = none from hp] at heq
    dsimp only at heq
    rw [← hv, if_neg (by simp)] at heq
    refine ⟨_, (atPlane_powered s t _ (fun s => shotDue s ch) hpow).trans (congrArg _ (heq.trans hprof)), ?_, ?_, ?_, ?_⟩
    · rw [getDrv_modDrv_self, Option.map_some, hreq, hon, Nat.zero_mul, Nat.add_zero]
    · rw [getDrv_modDrv_self, hvd]
    · rw [getDrv_modDrv_self, hvd]
    · rw [hv]
      rfl
  case shotDropped =>
    intro s t ch d hpow hshot hdue hlat hp
    have heq := shotDue_now (s := advance s t) hshot hdue hlat
    dsimp only at heq
    rw [if_pos (show (getDrv (advance s t) ch).prof.isSome = true from Option.isSome_iff_ne_none.mpr hp)] at heq
    refine ⟨_, (atPlane_powered s t _ (fun s => shotDue s ch) hpow).trans (congrArg _ heq), rget_rinc_self _ _ _ _ _, ?_, ?_, rfl⟩
    · exact (congrArg DrvCh.prof (getDrv_modDrv_self (advance s t) ch
        fun c => { c with lastShot := some d, nextShot := some (d + c.interval) })).trans rfl
    · exact congrArg DrvCh.nextShot (getDrv_modDrv_self (advance s t) ch
        fun c => { c with lastShot := some d, nextShot := some (d + c.interval) })

end Sys2Proof.Machine
end

section
/-! Faults of the drive banks, their checks and limits (R170, R187, R188, R194–R197) (O27), and the completion of the drive
commands (O51). -/

namespace Sys2Proof.Machine

/-! ### The floor of a forced channel (R187) -/

/-- A change of the profile of any channel leaves the floor marks of every channel. -/
theorem getDrv_modDrv_prof (s : State) (c k : Nat) (g : Option DrvProf → Option DrvProf) :
    (getDrv (modDrv s c fun d => { d with prof := g d.prof }) k).floorDone = (getDrv s k).floorDone ∧
    (getDrv (modDrv s c fun d => { d with prof := g d.prof }) k).recFloor = (getDrv s k).recFloor := by
  by_cases h : k = c
  · subst h
    rw [getDrv_modDrv_self]
    exact ⟨rfl, rfl⟩
  · rw [getDrv_modDrv_ne _ _ h]
    exact ⟨rfl, rfl⟩

/-- A forced channel below its floor counts one hit and is marked. -/
theorem floorHit_fields {s : State} {ch m : Nat} (hforced : drvForced s ch = true)
    (hm : m < dget s R.DBK_CH_HOLD_HOLD_FLOOR_MA ch) (hma : maNow s ch = some m) (hdone : (getDrv s ch).floorDone = false) :
    dget (floorHit s ch) R.DBK_CH_COUNTS_FLOOR_HITS ch =
      satTo R.DBK_CH_COUNTS_FLOOR_HITS.width (dget s R.DBK_CH_COUNTS_FLOOR_HITS ch + 1) ∧
    (getDrv (floorHit s ch) ch).floorDone = true ∧ (getDrv (floorHit s ch) ch).recFloor = true := by
  unfold floorHit
  extract_lets b floor c tell c1 s1 s2
  have hfl : floor ≠ 0 := Nat.ne_of_gt (Nat.lt_of_le_of_lt (Nat.zero_le m) hm)
  rw [if_pos (by simp [hforced, hma, hfl]; exact ⟨hm, hdone⟩)]
  have h2 : dget s2 R.DBK_CH_COUNTS_FLOOR_HITS ch =
      satTo R.DBK_CH_COUNTS_FLOOR_HITS.width (dget s R.DBK_CH_COUNTS_FLOOR_HITS ch + 1) ∧
      (getDrv s2 ch).floorDone = true ∧ (getDrv s2 ch).recFloor = true := by
    have h1 : getDrv s1 ch = c1 := getDrv_setDrv_self s ch c1
    obtain ⟨hd, hr⟩ := getDrv_modDrv_prof s1 (8 * b + rget s R.DBK_STATUS_HSV_CH b) ch fun o => o.map fun p =>
      { p with floorCh := some (match p.floorCh with
        | some x => min x (ch % 8)
        | none => ch % 8) }
    refine ⟨rget_rinc_self (setDrv s ch c1) R.DBK_CH_COUNTS_FLOOR_HITS 1 b (ch % 8), hd.trans (by rw [h1]), hr.trans (by rw [h1])⟩
  clear_value s2
  split
  · rw [getDrv_congr (raiseEv_drv s2 _ _ _), dget, raiseEv_within.rget _ _ _ (by decide)]
    exact h2
  · exact h2

/-! ### Off-state samples (R194) -/

section
variable {s : State} {ch vl vh k : Nat} (hen : dbit s R.DBK_CH_DIAG_CFG_OFF_DIAG_EN ch = true) (hph : drvPhase s ch = 0)
  (hsince : (getDrv s ch).since + 500 * fcUs ≤ s.now) (hcode : offCode (highSideClosed s (ch / 8)) vl vh = some k)
include hen hph hsince hcode

/-- A sample of a channel in OFF that is not too soon. -/
theorem offDiag_taken (hsoon : ((getDrv s ch).diag.2 = 0 ∧ (getDrv s ch).diagAt < (getDrv s ch).since) ∨
    (getDrv s ch).diagAt + fcMs ≤ s.now) : offDiag s ch vl vh =
      let c := getDrv s ch
      let n := if c.diag.1 = k ∧ c.diag.2 ≠ 0 then c.diag.2 + 1 else 1
      let s1 := setDrv s ch { c with diag := (k, min n 3), diagAt := s.now }
      if 3 ≤ n ∧ dget s R.DBK_CH_STAT_FAULT ch ≤ 4 then setDrvFault s1 ch k else s1 := by
  unfold offDiag
  dsimp only
  rw [if_pos (by
    rw [hen, hph, decide_eq_true hsince]
    rcases hsoon with ⟨h0, h1⟩ | h <;> simp [*]), hcode]

end

/-! ### On-state faults (R195, R196) -/

theorem setDrvFault_fields (s : State) (ch code : Nat) :
    dget (setDrvFault s ch code) R.DBK_CH_STAT_FAULT ch = code % 2 ^ R.DBK_CH_STAT_FAULT.width ∧
    (setDrvFault s ch code).drv = s.drv ∧
    ∀ f i j, f.id / 128 = blkCode .dbk → f.id ≠ R.DBK_CH_STAT_FAULT.id → rget (setDrvFault s ch code) f i j = rget s f i j := by
  have hev (f : Fld) (i j : Nat) (hf : f.id / 128 = blkCode .dbk) :
      rget (setDrvFault s ch code) f i j = rget (dset s R.DBK_CH_STAT_FAULT code ch) f i j := by
    unfold setDrvFault
    dsimp only
    split
    · exact raiseEv_within.rget f i j (by rw [hf]; decide)
    · rfl
  exact ⟨(hev _ _ _ (by decide)).trans (rget_rset_self _ _ _ _ _), setDrvFault_within.drv.resolve_left (by simp),
    fun f i j hf hid => (hev f i j hf).trans (rget_rset_ne _ _ _ _ _ _ hid)⟩

/-- A channel fault latches its channel, which enters DECAY. -/
theorem drvChFault_latches {s : State} {ch code v a : Nat} {ds : Bool} (hcode : code < 8) (hon : onFault s ch code v a ds = true)
    (hcut : code ≠ 5 ∨ rbit s R.DBK_CTRL_SCG_CUT (ch / 8) = false) :
    dget (drvChFault s ch code v a ds) R.DBK_CH_STAT_FAULT ch = code ∧
    dget (drvChFault s ch code v a ds) R.DBK_CH_STAT_LATCHED ch = 1 ∧ drvPhase (drvChFault s ch code v a ds) ch = 6 ∧
    (getDrv (drvChFault s ch code v a ds) ch).prof = none := by
  obtain ⟨hph, hprof, -, -, hfields⟩ := drvOff_fields s ch
  obtain ⟨s1, hs1⟩ : ∃ s1, s1 = setDrvFault (drvOff s ch) ch code := ⟨_, rfl⟩
  obtain ⟨hfault, hdrv, hread⟩ := setDrvFault_fields (drvOff s ch) ch code
  rw [← hs1] at hfault hdrv hread
  obtain ⟨s2, hs2⟩ : ∃ s2, s2 = raiseEv (dset s1 R.DBK_CH_STAT_LATCHED 1 ch) evDbkChLatched (ch / 8) := ⟨_, rfl⟩
  have hev (f : Fld) (i j : Nat) (hf : f.id / 128 = blkCode .dbk) :
      rget s2 f i j = rget (dset s1 R.DBK_CH_STAT_LATCHED 1 ch) f i j := by
    rw [hs2]
    exact raiseEv_within.rget f i j (by rw [hf]; decide)
  have heq : drvChFault s ch code v a ds = s2 := by
    unfold drvChFault
    rw [hon, if_neg (by simp)]
    dsimp only
    rw [← hs1, ← hs2]
    refine if_neg fun h => ?_
    rcases hcut with hc | hc
    · exact hc h.1
    · rw [hc] at h
      exact absurd h.2 (by simp)
  rw [heq]
  refine ⟨?_, ?_, ?_, ?_⟩
  · refine (hev _ _ _ (by decide)).trans ((rget_rset_ne _ _ _ _ _ _ (by decide)).trans (hfault.trans ?_))
    exact Nat.mod_eq_of_lt (lt_of_lt_of_le hcode (by decide))
  · exact (hev _ _ _ (by decide)).trans (rget_rset_self _ _ _ _ _)
  · refine (hev _ _ _ (by decide)).trans ((rget_rset_ne _ _ _ _ _ _ (by decide)).trans ?_)
    exact (hread _ _ _ (by decide) (by decide)).trans hph
  · rw [hs2, getDrv_congr (raiseEv_drv _ _ _ _), getDrv_congr (show (dset s1 _ 1 ch).drv = s1.drv from rfl), getDrv_congr hdrv]
    exact hprof

/-- An open load of a channel in PROP at twice OPEN_MA or more sets FAULT, and no more than that of its bank. -/
theorem onOpenLoad_prop {s : State} {ch m : Nat} (hph : drvPhase s ch = 5)
    (hma2 : 2 * dget s R.DBK_CH_DIAG_CFG_OPEN_MA ch ≤ (getDrv s ch).propMa) (hat : (getDrv s ch).levelAt + 50 * fcUs ≤ s.now)
    (hma : maNow s ch = some m) (hm : m < dget s R.DBK_CH_DIAG_CFG_OPEN_MA ch) (hfault : dget s R.DBK_CH_STAT_FAULT ch ≤ 4) :
    onOpenLoad s ch = setDrvFault s ch 4 := by
  unfold onOpenLoad
  dsimp only
  rw [hph, if_pos rfl, if_pos (by simp [hma2, hat])]
  unfold openNow
  rw [hma]
  exact if_pos (by simp [hm, hfault])

/-! ### Bank faults (R197) -/

/-- After OFF has been applied to channels of a list, none of them has a profile. -/
theorem drvOff_fold (l : List Nat) (s : State) :
    ∀ c, c ∈ l ∨ (getDrv s c).prof = none → (getDrv (l.foldl (fun s c => drvOff s c) s) c).prof = none := by
  intro c
  induction l generalizing s with
  | nil => exact fun h => h.resolve_left List.not_mem_nil
  | cons a l ih =>
    intro h
    rw [List.foldl_cons]
    obtain ⟨-, hprof, -, hothers, -⟩ := drvOff_fields s a
    refine ih (drvOff s a) ?_
    by_cases hca : c = a
    · subst hca
      exact .inr hprof
    · rcases h with h | h
      · exact .inl ((List.mem_cons.mp h).resolve_left hca)
      · exact .inr (by rw [hothers c hca, h])

/-- A bank that latches shows its fault and holds no profile. -/
theorem latchBank_fields {s : State} {b code : Nat} (hcode : code < 8) (hnot : rbit s R.DBK_STATUS_LATCHED b = false) :
    rget (latchBank s b code) R.DBK_STATUS_LATCHED b = 1 ∧ rget (latchBank s b code) R.DBK_STATUS_BANK_FAULT b = code ∧
    ∀ c ∈ bankChans b, (getDrv (latchBank s b code) c).prof = none := by
  obtain ⟨s1, hs1⟩ : ∃ s1, s1 = (bankChans b).foldl (fun s c => drvOff s c) s := ⟨_, rfl⟩
  have heq : latchBank s b code =
      raiseEv (rset (rset s1 R.DBK_STATUS_LATCHED 1 b) R.DBK_STATUS_BANK_FAULT code b) evDbkBankLatched b := by
    unfold latchBank
    rw [if_neg (by simp [hnot]), hs1]
  rw [heq]
  refine ⟨?_, ?_, fun c hc => ?_⟩
  · rw [raiseEv_within.rget _ _ _ (by decide), rget_rset_ne _ _ _ _ _ _ (by decide), rget_rset_self]
    rfl
  · rw [raiseEv_within.rget _ _ _ (by decide), rget_rset_self]
    exact Nat.mod_eq_of_lt (lt_of_lt_of_le hcode (by decide))
  · rw [getDrv_congr (raiseEv_drv _ _ _ _), getDrv_congr (show (rset (rset s1 _ 1 b 0) _ code b 0).drv = s1.drv from rfl), hs1]
    exact drvOff_fold _ s c (.inl hc)

theorem bankFault_overcurrent {s : State} {b v a : Nat} (hv : 70000 < v) (ha : a + 2 * fcUs ≤ s.now) :
    bankFault s b 1 v a = latchBank s b 1 := by
  unfold bankFault
  dsimp only
  rw [if_pos (by simp [hv, ha])]
  rfl

/-! ### Limits (R170) -/

/-- Pending limits of a bank that is off take effect. -/
theorem derateApply_fields {s : State} {b x y : Nat} (hd : (getDbk s b).derate = some (x, y)) (hoff : bankOff s b = true) :
    rget (derateApply s b) R.DBK_DERATE_BOOST_MA b = x % 2 ^ R.DBK_DERATE_BOOST_MA.width ∧
    rget (derateApply s b) R.DBK_DERATE_PEAK_MA b = y % 2 ^ R.DBK_DERATE_PEAK_MA.width ∧
    (getDbk (derateApply s b) b).derate = none := by
  have heq : derateApply s b = derateSet (setDbk s b { getDbk s b with derate := none }) b x y := by
    unfold derateApply
    rw [hd]
    exact if_pos hoff
  have hmargin (u : State) (p : Prop) [Decidable p] (k i a o n : Nat) (f : Fld) (c : Nat) (hf : f.id / 128 = blkCode .dbk) :
      rget (if p then u else marginChange u k i a o n) f c = rget u f c := by
    split
    · rfl
    · exact marginChange_within.rget f c 0 (by rw [hf]; decide)
  have hdbk : (derateSet (setDbk s b { getDbk s b with derate := none }) b x y).dbk =
      (setDbk s b { getDbk s b with derate := none }).dbk := derateSet_within.dbk.resolve_left (by simp)
  rw [heq, getDbk_congr hdbk]
  unfold derateSet
  dsimp only
  rw [hmargin _ _ _ _ _ _ _ _ _ (by decide), hmargin _ _ _ _ _ _ _ _ _ (by decide), hmargin _ _ _ _ _ _ _ _ _ (by decide),
    hmargin _ _ _ _ _ _ _ _ _ (by decide)]
  simp (disch := decide) only [rget_rset_self, rget_rset_ne, getDbk_setDbk_self]
  exact ⟨trivial, trivial, trivial⟩

/-! ### O27 -/

/-- Settles O27. -/
theorem driveFaults : Obligations.DriveFaults := by
  unfold Obligations.DriveFaults
  refine ⟨?floor, ?offFirst, ?offThird, ?fault, ?openLoad, ?bank, ?admitted, ?failed, ?derate⟩
  case floor =>
    intro s t ch l a m hpow ha hforced hm hma hdone
    obtain ⟨hhits, hd, hr⟩ := floorHit_fields hforced hm hma hdone
    have hw := floorHit_within (s := a) (ch := ch.val)
    exact ⟨_, atDrive_powered (fun s => floorHit s ch) hpow ha, hhits, hd, hr,
      (hw.mono rfl rfl : Within [.regs, .mem, .extMem, .log, .drv] (blks [.dbk, .hlm, .jrn]) a _).blocksOnly, hw.eq_frame⟩
  case offFirst =>
    intro s t ch vl vh k hpow hen hph hsince hcode hdiag hat
    have h := offDiag_taken (s := advance s t) hen hph hsince hcode (.inl ⟨hdiag, hat⟩)
    dsimp only at h
    rw [if_neg (show ¬((getDrv (advance s t) ch).diag.1 = k ∧ (getDrv (advance s t) ch).diag.2 ≠ 0) from fun hc => hc.2 hdiag),
      if_neg (by omega)] at h
    exact (atPlane_powered s t _ (fun s => offDiag s ch vl vh) hpow).trans (congrArg _ h)
  case offThird =>
    intro s t ch vl vh k hpow hen hph hsince hcode hat hk hdiag hfault
    have h := offDiag_taken (s := advance s t) hen hph hsince hcode (.inr hat)
    dsimp only at h
    rw [show (getDrv (advance s t) ch).diag = (k, 2) from hdiag, if_pos (⟨rfl, Nat.succ_ne_zero 1⟩ : (k, 2).1 = k ∧ (k, 2).2 ≠ 0),
      if_pos ⟨Nat.le_refl 3, hfault⟩] at h
    have hset (u : State) : setDrvFault u ch k = dset u R.DBK_CH_STAT_FAULT k ch := by
      unfold setDrvFault
      exact if_neg (by omega)
    rw [hset] at h
    exact (atPlane_powered s t _ (fun s => offDiag s ch vl vh) hpow).trans (congrArg _ h)
  case fault =>
    intro s t ch k v a ds hpow hon hcut
    obtain ⟨hfault, hlat, hph, hprof⟩ := drvChFault_latches (s := advance s t) k.isLt hon hcut
    have hw := drvChFault_within (s := advance s t) (ch := ch.val) (code := k.val) (value := v) (since := a) (desat := ds)
    exact ⟨_, atPlane_powered s t _ (fun s => drvChFault s ch k v a ds) hpow, hfault, hlat, hph, hprof,
      (hw.mono rfl rfl : Within [.regs, .mem, .extMem, .log, .reqs, .till, .drv, .dbk, .hlm] (blks [.dbk, .hlm, .jrn])
        (advance s t) _).blocksOnly, hw.eq_frame⟩
  case openLoad =>
    intro s t ch l a m hpow ha hph hlevel hat hma hm hfault
    have h := onOpenLoad_prop hph hlevel (by rw [drvTrace_now ha]; exact hat) hma hm hfault
    obtain ⟨hcode, hdrv, hread⟩ := setDrvFault_fields a ch 4
    have hw := setDrvFault_within (s := a) (ch := ch.val) (code := 4)
    exact ⟨_, (atDrive_powered (fun s => onOpenLoad s ch) hpow ha).trans (congrArg _ h), hcode,
      (hread _ _ _ (by decide) (by decide)).trans hph, hdrv,
      (hw.mono rfl rfl : Within [.regs, .mem, .extMem, .log] (blks [.dbk, .hlm, .jrn]) a _).blocksOnly, hw.eq_frame⟩
  case bank =>
    intro s t b v a hpow hv ha hnot
    have h := bankFault_overcurrent (s := advance s t) (b := b.val) hv ha
    obtain ⟨hlat, hcode, hprof⟩ := latchBank_fields (s := advance s t) (b := b.val) (code := 1) (by decide) hnot
    have hw := latchBank_within (s := advance s t) (b := b.val) (code := 1)
    exact ⟨_, (atPlane_powered s t _ (fun s => bankFault s b 1 v a) hpow).trans (congrArg _ h), hlat, hcode, hprof,
      (hw.mono rfl rfl : Within [.regs, .mem, .extMem, .log, .reqs, .till, .drv, .dbk, .hlm] (blks [.dbk, .hlm, .jrn])
        (advance s t) _).blocksOnly⟩
  case admitted =>
    intro s t b hpow hnone
    have h : bankCheck (advance s t) b = rset (advance s t) R.DBK_CTRL_ADMITTED 1 b := by
      unfold bankCheck
      rw [show firstFail (advance s t) b = none from hnone]
    exact (atPlane_powered s t _ (fun s => bankCheck s b) hpow).trans (congrArg _ h)
  case failed =>
    intro s t b x y hpow hsome
    have h : bankCheck (advance s t) b = raiseEv (rset (rset (rset (advance s t) R.DBK_CTRL_ADMITTED 0 b)
        R.DBK_CTRL_FAIL_B x b) R.DBK_CTRL_FAIL_H y b) evDbkAdmitFail b := by
      unfold bankCheck
      rw [show firstFail (advance s t) b = some (x, y) from hsome]
    exact (atPlane_powered s t _ (fun s => bankCheck s b) hpow).trans (congrArg _ h)
  case derate =>
    intro s t b x y hpow hd hoff
    obtain ⟨hboost, hpeak, hnone⟩ := derateApply_fields (s := advance s t) hd hoff
    exact ⟨_, atPlane_powered s t _ (fun s => derateApply s b) hpow, hboost, hpeak, hnone, derateApply_within.blocksOnly⟩

/-! ### O51 -/

/-- Settles O51: each clause is part of what the families' statements give of its command. -/
theorem driveBanksComplete : Obligations.DriveBanksComplete := by
  unfold Obligations.DriveBanksComplete
  obtain ⟨profile, -, prop, -, off, clear, -⟩ := driveCommands
  obtain ⟨request, -, -, gap, -, waitDrop, -, current, byTime, peak, ends, decay, move, -, -, shot, -⟩ := driveProfiles
  obtain ⟨floor, offDiag, -, fault, openLoad, bank, admitted, -, derate⟩ := driveFaults
  refine ⟨?_, ?_, ?_, ?_, request, ?_, ?_, ?_, ?_, ?_, ?_, ?_, move, ?_, ?_, ?_, ?_, ?_, ?_, ?_, ?_⟩
  · intro s t ch q d n h h1 h2 h3 h4 h5 h6 h7 h8 h9 h10 h11
    obtain ⟨u, hu, hp, -⟩ := profile s t ch q d n h h1 h2 h3 h4 h5 h6 h7 h8 h9 h10 h11
    exact ⟨u, hu, hp⟩
  · intro s t ch q m hz am h1 h2 h3 h4 h5 h6 h7 h8 h9 h10 h11 h12
    obtain ⟨u, hu, hph, hma, hhz, ham, -⟩ := prop s t ch q m hz am h1 h2 h3 h4 h5 h6 h7 h8 h9 h10 h11 h12
    exact ⟨u, hu, hph, hma, hhz, ham⟩
  · intro s t ch q h1 h2 h3 h4 h5 h6 h7 h8
    obtain ⟨u, hu, hph, hp, -⟩ := off s t ch q h1 h2 h3 h4 h5 h6 h7 h8
    exact ⟨u, hu, hph, hp⟩
  · intro s t ch q h1 h2 h3 h4 h5 h6 h7
    refine ⟨_, clear s t ch q h1 h2 h3 h4 h5 h6 h7, ?_, ?_⟩
    · rw [dget_dset_ne _ _ _ _ (by decide), dget_dset_self, Nat.zero_mod]
    · rw [dget_dset_self, Nat.zero_mod]
  · intro s t b v c p h1 h2 h3 h4 h5 h6 h7 h8
    obtain ⟨u, hu, hph, hon, hch, -⟩ := gap s t b v c p h1 h2 h3 h4 h5 h6 h7 h8
    exact ⟨u, hu, hph, hon, hch⟩
  · intro s t ch v p h1 h2 h3 h4 h5 h6 h7 h8
    obtain ⟨u, hu, hp, hph, hcount, -⟩ := waitDrop s t ch v p h1 h2 h3 h4 h5 h6 h7 h8
    exact ⟨u, hu, hp, hph, hcount⟩
  · intro s t ch l a p m h1 h2 h3 h4 h5 h6 h7 h8
    obtain ⟨u, hu, hph, hoff, -⟩ := current s t ch l a p m h1 h2 h3 h4 h5 h6 h7 h8
    exact ⟨u, hu, hph, hoff⟩
  · intro s t ch l a p x h1 h2 h3 h4 h5 h6 h7 h8 h9
    obtain ⟨u, hu, hph, hoff, -⟩ := byTime s t ch l a p x h1 h2 h3 h4 h5 h6 h7 h8 h9
    exact ⟨u, hu, hph, hoff⟩
  · intro s t ch l a p x h1 h2 h3 h4 h5 h6
    obtain ⟨u, hu, hph, -⟩ := peak s t ch l a p x h1 h2 h3 h4 h5 h6
    exact ⟨u, hu, hph⟩
  · intro s t ch l a p e h1 h2 h3 h4 h5 h6
    obtain ⟨u, hu, hph, hp, -⟩ := ends s t ch l a p e h1 h2 h3 h4 h5 h6
    exact ⟨u, hu, hph, hp⟩
  · intro s t ch l a v m h1 h2 h3 h4 h5
    obtain ⟨u, hu, hph, -⟩ := decay s t ch l a v m h1 h2 h3 h4 h5
    exact ⟨u, hu, hph⟩
  · intro s t ch d h1 h2 h3 h4 h5
    obtain ⟨u, hu, hp, hlast, -⟩ := shot s t ch d h1 h2 h3 h4 h5
    exact ⟨u, hu, hp, hlast⟩
  · intro s t ch l a m h1 h2 h3 h4 h5 h6
    obtain ⟨u, hu, hhits, hd, -⟩ := floor s t ch l a m h1 h2 h3 h4 h5 h6
    exact ⟨u, hu, hhits, hd⟩
  · intro s t ch vl vh k h1 h2 h3 h4 h5 h6 h7
    exact ⟨_, offDiag s t ch vl vh k h1 h2 h3 h4 h5 h6 h7, by rw [getDrv_setDrv_self]⟩
  · intro s t ch k v a ds h1 h2 h3
    obtain ⟨u, hu, hfault, hlat, -⟩ := fault s t ch k v a ds h1 h2 h3
    exact ⟨u, hu, hfault, hlat⟩
  · intro s t ch l a m h1 h2 h3 h4 h5 h6 h7 h8
    obtain ⟨u, hu, hfault, hph, -⟩ := openLoad s t ch l a m h1 h2 h3 h4 h5 h6 h7 h8
    exact ⟨u, hu, hfault, hph⟩
  · intro s t b v a h1 h2 h3 h4
    obtain ⟨u, hu, hlat, hcode, -⟩ := bank s t b v a h1 h2 h3 h4
    exact ⟨u, hu, hlat, hcode⟩
  · intro s t b h1 h2
    exact ⟨_, admitted s t b h1 h2, rget_rset_self _ _ _ _ _⟩
  · intro s t b x y h1 h2 h3
    obtain ⟨u, hu, hboost, hpeak, -⟩ := derate s t b x y h1 h2 h3
    exact ⟨u, hu, hboost, hpeak⟩

end Sys2Proof.Machine
end

section
/-! Rules for the switch banks (R204–R226): what reads give after each operation on a channel or a pair. -/

namespace Sys2Proof.Machine

/-! ### Folds -/

/-- Where each element of a list acts on its own part of a state, the fold acts on each part once. -/
theorem foldl_pointwise {α β γ : Type} {f : β → α → β} (g : β → α → γ) {R : γ → γ → Prop} {l : List α} (hnd : l.Nodup)
    (hself : ∀ b, ∀ a ∈ l, R (g b a) (g (f b a) a)) (hother : ∀ b, ∀ a ∈ l, ∀ c ∈ l, c ≠ a → g (f b a) c = g b c)
    {x : α} (hx : x ∈ l) (b : β) : R (g b x) (g (l.foldl f b) x) := by
  obtain ⟨l1, l2, rfl⟩ := List.append_of_mem hx
  have hne1 : ∀ a ∈ l1, x ≠ a := fun a ha e => by
    subst e
    exact (List.nodup_append.mp hnd).2.2 x ha x List.mem_cons_self rfl
  have hne2 : ∀ a ∈ l2, x ≠ a := fun a ha e => by
    subst e
    exact (List.nodup_cons.mp (List.nodup_append.mp hnd).2.1).1 ha
  have hleft : g (l1.foldl f b) x = g b x :=
    foldl_invariant (P := fun v => g v x = g b x) rfl fun v a ha h =>
      (hother v a (List.mem_append_left _ ha) x hx (hne1 a ha)).trans h
  rw [List.foldl_append, List.foldl_cons]
  have hright : g (l2.foldl f (f (l1.foldl f b) x)) x = g (f (l1.foldl f b) x) x :=
    foldl_invariant (P := fun v => g v x = g (f (l1.foldl f b) x) x) rfl fun v a ha h =>
      (hother v a (List.mem_append_right _ (List.mem_cons_of_mem x ha)) x hx (hne2 a ha)).trans h
  rw [hright, ← hleft]
  exact hself _ x hx

/-! ### Access -/

theorem getSw_congr {s u : State} (h : u.sw = s.sw) (c : Nat) : getSw u c = getSw s c := by rw [getSw, getSw, h]

theorem getFeed_congr {s u : State} (h : u.feed = s.feed) (p : Nat) : getFeed u p = getFeed s p := by rw [getFeed, getFeed, h]

@[simp] theorem getSw_modSw_self (s : State) (ch : Nat) (f : SwCh → SwCh) : getSw (modSw s ch f) ch = f (getSw s ch) :=
  tblGetD_set_self _ _ _ _

theorem getSw_modSw_ne (s : State) {c ch : Nat} (f : SwCh → SwCh) (h : c ≠ ch) : getSw (modSw s ch f) c = getSw s c :=
  (tblGetD_set _ _ _ _ _).trans (if_neg h)

@[simp] theorem getFeed_setFeed_self (s : State) (p : Nat) (v : Feed) : getFeed (setFeed s p v) p = v :=
  tblGetD_set_self _ _ _ _

theorem dget_congr {s u : State} (h : u.regs = s.regs) (f : Fld) (c : Nat) : dget u f c = dget s f c := rget_congr h _ _ _

theorem dget_rinc_self (s : State) (f : Fld) (n c : Nat) :
    dget (rinc s f n (c / 8) (c % 8)) f c = satTo f.width (dget s f c + n) := rget_rinc_self _ _ _ _ _

theorem dget_rinc_ne (s : State) {f g : Fld} (n ch c : Nat) (h : g.id ≠ f.id) :
    dget (rinc s f n (ch / 8) (ch % 8)) g c = dget s g c := rget_rset_ne _ _ _ _ _ _ h

theorem dget_rinc_sibling (s : State) (f : Fld) (n : Nat) {c ch : Nat} (hb : c / 8 = ch / 8) (hne : c ≠ ch) :
    dget (rinc s f n (ch / 8) (ch % 8)) f c = dget s f c := dget_dset_sibling s f _ hb hne

/-- A field that a value has been written to keeps it when the value is written to another channel. -/
theorem dget_dset_same {s : State} {f : Fld} {v c : Nat} (k : Nat) (h : dget s f c = v % 2 ^ f.width) :
    dget (dset s f v k) f c = v % 2 ^ f.width := by
  unfold dget dset
  rw [rget_rset]
  split
  · rfl
  · exact h

theorem dbit_eq_false_iff (s : State) (f : Fld) (c : Nat) : dbit s f c = false ↔ dget s f c ≠ 1 := beq_eq_false_iff_ne

/-! ### What the switch banks' operations write -/

/-- The register fields of the switch banks that their operations write. -/
def swIds : List Nat :=
  [R.SBK_CH_STAT_UV_OFF.id, R.SBK_CH_STAT_OPEN_LOAD.id, R.SBK_CH_STAT_TRIPPED.id, R.SBK_CH_STAT_TRIP_CAUSE.id,
    R.SBK_CH_STAT_THERM_LATCH.id, R.SBK_CH_STAT_LOCKED.id, R.SBK_CH_STAT_SHED.id, R.SBK_CH_STAT_RETRIES_USED.id,
    R.SBK_CH_COUNTS_TRIPS.id, R.SBK_CH_COUNTS_RESTARTS.id, R.SBK_CH_COUNTS_THERM_LATCHES.id, R.SBK_CH_COUNTS_OPEN_LOADS.id,
    R.SBK_CH_MODEL_THETA.id, R.SBK_CH_MODEL_TJ.id, R.SBK_FEED_MEAS_V_100MV.id, R.SBK_FEED_MEAS_I_A.id]

/-- Of the switch banks' register fields, an operation writes those of `swIds` alone: the configuration stands. -/
def SwStep (s u : State) : Prop :=
  ∀ (f : Fld) (i j : Nat), f.id / 128 = blkCode .sbk → f.id ∉ swIds → rget u f i j = rget s f i j

theorem SwStep.refl (s : State) : SwStep s s := fun _ _ _ _ _ => rfl

theorem SwStep.trans {s u v : State} (h : SwStep s u) (k : SwStep u v) : SwStep s v :=
  fun f i j hf hid => (k f i j hf hid).trans (h f i j hf hid)

theorem SwStep.of_regs {s u : State} (h : u.regs = s.regs) : SwStep s u := fun f i j _ _ => rget_congr h f i j

theorem SwStep.write {s u : State} (h : SwStep s u) {f : Fld} (v i j : Nat) (hf : f.id ∈ swIds) : SwStep s (rset u f v i j) :=
  fun g k l hg hid => by
    rw [rget_rset_ne _ _ _ _ _ _ fun e => hid (by rw [e]; exact hf)]
    exact h g k l hg hid

theorem SwStep.writeAt {s u : State} (h : SwStep s u) {f : Fld} (v c : Nat) (hf : f.id ∈ swIds) : SwStep s (dset u f v c) :=
  h.write v _ _ hf

theorem SwStep.event {s u : State} (h : SwStep s u) (c i d : Nat) : SwStep s (raiseEv u c i d) :=
  fun f a b hf hid => (raiseEv_within.rget f a b (by rw [hf]; decide)).trans (h f a b hf hid)

theorem SwStep.fold {s u : State} {α : Type} (h : SwStep s u) {f : State → α → State} {l : List α}
    (hf : ∀ v a, SwStep s v → SwStep s (f v a)) : SwStep s (l.foldl f u) :=
  foldl_invariant h fun v a _ hv => hf v a hv

theorem SwStep.either {s u v : State} {c : Prop} [Decidable c] (hu : SwStep s u) (hv : SwStep s v) :
    SwStep s (if c then u else v) := by
  split <;> assumption

section
variable {s u : State} (h : SwStep s u)
include h

theorem SwStep.dget (f : Fld) (c : Nat) (hf : f.id / 128 = blkCode .sbk) (hid : f.id ∉ swIds) : dget u f c = dget s f c :=
  h f _ _ hf hid

theorem SwStep.par (c : Nat) : dbit u R.SBK_CH_CFG_PAR c = dbit s R.SBK_CH_CFG_PAR c :=
  congrArg (· == 1) (h.dget R.SBK_CH_CFG_PAR c (by decide) (by decide))

theorem SwStep.odd (c : Nat) : swOdd u c = swOdd s c := by rw [swOdd, swOdd, h.par]

theorem SwStep.even (c : Nat) : swEven u c = swEven s c := by rw [swEven, swEven, h.par]

theorem SwStep.lead (c : Nat) : swLead u c = swLead s c := by rw [swLead, swLead, h.odd]

theorem SwStep.members (c : Nat) : swMembers u c = swMembers s c := by rw [swMembers, swMembers, h.lead, h.even]

theorem SwStep.mode (c : Nat) : swMode u c = swMode s c := by
  rw [swMode, swMode, h.lead, dval, dval, rval, rval, h R.SBK_CH_CFG_MODE _ _ (by decide) (by decide)]

theorem SwStep.shortOn (c d : Nat) : shortOn u c d = shortOn s c d := by
  rw [Machine.shortOn, Machine.shortOn, h.lead, dval, dval, rval, rval, h R.SBK_CH_CFG_PWM_HZ _ _ (by decide) (by decide)]

end

/-! ### Pairs -/

theorem swOdd_parity {s : State} {ch : Nat} (h : swOdd s ch = true) : ch % 2 = 1 ∧ dbit s R.SBK_CH_CFG_PAR (ch - 1) = true := by
  unfold swOdd at h
  simpa using h

theorem swLead_of_even {s : State} {ch : Nat} (h : swOdd s ch = false) : swLead s ch = ch := by
  unfold swLead
  rw [h]
  rfl

theorem swLead_parity {s : State} {ch : Nat} (h : swEven s (swLead s ch) = true) : swLead s ch % 2 = 0 := by
  simp only [swEven, Bool.and_eq_true, beq_iff_eq] at h
  exact h.1

theorem mem_swMembers_iff {s : State} {c ch : Nat} :
    c ∈ swMembers s ch ↔ c = swLead s ch ∨ (swEven s (swLead s ch) = true ∧ c = swLead s ch + 1) := by
  unfold swMembers
  dsimp only
  split <;> simp [*]

theorem mem_swMembers_self (s : State) (ch : Nat) : ch ∈ swMembers s ch := by
  rw [mem_swMembers_iff]
  cases hodd : swOdd s ch with
  | false => exact .inl (swLead_of_even hodd).symm
  | true =>
    obtain ⟨hpar, hbit⟩ := swOdd_parity hodd
    have hlead : swLead s ch = ch - 1 := if_pos hodd
    rw [hlead]
    refine .inr ⟨?_, by omega⟩
    rw [swEven, hbit, show (ch - 1) % 2 = 0 by omega]
    rfl

theorem swMembers_nodup (s : State) (ch : Nat) : (swMembers s ch).Nodup := by
  unfold swMembers
  dsimp only
  split <;> simp

theorem swLead_bank (s : State) (ch : Nat) : swLead s ch / 8 = ch / 8 := by
  unfold swLead
  split
  · rename_i h
    have := (swOdd_parity h).1
    omega
  · rfl

/-- The members of a pair are of one bank. -/
theorem swMembers_bank {s : State} {c ch : Nat} (h : c ∈ swMembers s ch) : c / 8 = ch / 8 := by
  have hlead := swLead_bank s ch
  rcases mem_swMembers_iff.mp h with rfl | ⟨heven, rfl⟩
  · exact hlead
  · have := swLead_parity heven
    omega

/-! ### Operations on every member -/

theorem modAll_regs (s : State) (ch : Nat) (f : SwCh → SwCh) : (modAll s ch f).regs = s.regs :=
  modAll_within.regs.resolve_left (by simp)

theorem modAll_feed (s : State) (ch : Nat) (f : SwCh → SwCh) : (modAll s ch f).feed = s.feed :=
  modAll_within.feed.resolve_left (by simp)

theorem getSw_modAll {s : State} {c ch : Nat} (f : SwCh → SwCh) (h : c ∈ swMembers s ch) :
    getSw (modAll s ch f) c = f (getSw s c) :=
  foldl_pointwise getSw (R := fun a b => b = f a) (swMembers_nodup s ch) (fun b a _ => getSw_modSw_self b a f)
    (fun b _ _ _ _ hne => getSw_modSw_ne b f hne) h s

/-- A relation that the change of a channel's record keeps holds of every channel's record before and after. -/
theorem getSw_modAll_all (s : State) (c ch : Nat) (f : SwCh → SwCh) :
    getSw (modAll s ch f) c = getSw s c ∨ getSw (modAll s ch f) c = f (getSw s c) := by
  by_cases h : c ∈ swMembers s ch
  · exact .inr (getSw_modAll f h)
  · refine .inl (foldl_invariant (P := fun v => getSw v c = getSw s c) rfl fun v a ha hv => ?_)
    have hne : c ≠ a := by
      rintro rfl
      exact h ha
    exact (getSw_modSw_ne v f hne).trans hv

theorem swAll_sw (s : State) (ch : Nat) (f : Fld) (v : Nat) : (swAll s ch f v).sw = s.sw :=
  swAll_within.sw.resolve_left (by simp)

theorem dget_swAll_self {s : State} {c ch : Nat} (f : Fld) (v : Nat) (h : c ∈ swMembers s ch) :
    dget (swAll s ch f v) f c = v % 2 ^ f.width :=
  foldl_reaches (I := fun _ => True) (Q := fun c u => dget u f c = v % 2 ^ f.width) (fun _ _ _ => trivial)
    (fun u c _ => dget_dset_self u f v c) (fun _ k _ h => dget_dset_same k h) trivial c h

theorem dget_swAll_ne (s : State) {f g : Fld} (ch v c : Nat) (h : g.id ≠ f.id) : dget (swAll s ch f v) g c = dget s g c :=
  foldl_invariant (P := fun u => dget u g c = dget s g c) rfl fun _ _ _ hu => (dget_dset_ne _ _ _ _ h).trans hu

theorem swAll_step {s u : State} (h : SwStep s u) (ch : Nat) {f : Fld} (v : Nat) (hf : f.id ∈ swIds) :
    SwStep s (swAll u ch f v) := h.fold fun _ _ hw => hw.writeAt _ _ hf

theorem modAll_step {s u : State} (h : SwStep s u) (ch : Nat) (f : SwCh → SwCh) : SwStep s (modAll u ch f) :=
  h.trans (.of_regs (modAll_regs u ch f))

/-! ### Turning on and off -/

theorem getSw_swTurnOff {s : State} {c ch : Nat} (h : c ∈ swMembers s ch) :
    getSw (swTurnOff s ch) c = { getSw s c with on := false, limitSince := none, short := [] } :=
  (getSw_congr (swAll_sw _ _ _ _) c).trans (getSw_modAll _ h)

/-- A channel that is off stays so. -/
theorem off_swTurnOff {s : State} {c : Nat} (ch : Nat) (h : (getSw s c).on = false) : (getSw (swTurnOff s ch) c).on = false := by
  rw [swTurnOff, getSw_congr (swAll_sw _ _ _ _)]
  rcases getSw_modAll_all s c ch fun c => { c with on := false, limitSince := none, short := [] } with e | e <;> rw [e]
  exact h

theorem duty_swTurnOff (s : State) (c ch : Nat) : (getSw (swTurnOff s ch) c).duty = (getSw s c).duty := by
  rw [swTurnOff, getSw_congr (swAll_sw _ _ _ _)]
  rcases getSw_modAll_all s c ch fun c => { c with on := false, limitSince := none, short := [] } with e | e <;> rw [e]

theorem dget_swTurnOff (s : State) (ch : Nat) {g : Fld} (c : Nat) (h : g.id ≠ R.SBK_CH_STAT_OPEN_LOAD.id) :
    dget (swTurnOff s ch) g c = dget s g c :=
  (dget_swAll_ne _ _ _ _ h).trans (dget_congr (modAll_regs _ _ _) g c)

theorem swTurnOff_step {s u : State} (h : SwStep s u) (ch : Nat) : SwStep s (swTurnOff u ch) :=
  swAll_step (modAll_step h _ _) _ _ (by decide)

theorem noteShort_fields (c : SwCh) (t : Nat) (b : Bool) : ∃ l, c.noteShort t b = { c with short := l } := by
  unfold SwCh.noteShort
  split
  · split
    · exact ⟨_, rfl⟩
    · exact ⟨_, rfl⟩
  · split
    · exact ⟨_, rfl⟩
    · exact ⟨_, rfl⟩

theorem getSw_swTurnOn {s : State} {c ch : Nat} (h : c ∈ swMembers s ch) :
    (getSw (swTurnOn s ch) c).on = true ∧ (getSw (swTurnOn s ch) c).duty = (getSw s c).duty ∧
    (getSw (swTurnOn s ch) c).window = (getSw s c).window ∧ (getSw (swTurnOn s ch) c).barred = (getSw s c).barred := by
  rw [swTurnOn, getSw_modAll _ h]
  obtain ⟨l, hl⟩ := noteShort_fields { getSw s c with
    on := true
    onAt := if (getSw s c).on then (getSw s c).onAt else s.now
    rearmed := (getSw s c).rearmed && (getSw s c).on } s.now (shortOn s ch (getSw s c).duty)
  rw [hl]
  exact ⟨rfl, rfl, rfl, rfl⟩

theorem dropLimit_regs (s : State) (ch : Nat) : (dropLimit s ch).regs = s.regs := dropLimit_within.regs.resolve_left (by simp)

theorem dropLimit_feed (s : State) (ch : Nat) : (dropLimit s ch).feed = s.feed := dropLimit_within.feed.resolve_left (by simp)

theorem getSw_dropLimit (s : State) (ch c : Nat) : ∃ l, getSw (dropLimit s ch) c = { getSw s c with limitSince := l } := by
  unfold dropLimit
  split
  · exact ⟨_, rfl⟩
  · rcases getSw_modAll_all s c ch fun c => { c with limitSince := none } with e | e <;> rw [e]
    · exact ⟨_, rfl⟩
    · exact ⟨_, rfl⟩

/-- A duty as it stands before it is applied. -/
def dutyStored (s : State) (ch duty : Nat) : State :=
  modAll (dropLimit s ch) ch fun c => { c with duty := duty, barred := false }

theorem dutyStored_regs (s : State) (ch d : Nat) : (dutyStored s ch d).regs = s.regs :=
  (modAll_regs _ _ _).trans (dropLimit_regs _ _)

theorem dutyStored_feed (s : State) (ch d : Nat) : (dutyStored s ch d).feed = s.feed :=
  (modAll_feed _ _ _).trans (dropLimit_feed _ _)

theorem dutyStored_members (s : State) (ch d c : Nat) : swMembers (dutyStored s ch d) c = swMembers s c :=
  (SwStep.of_regs (dutyStored_regs s ch d)).members c

theorem getSw_dutyStored {s : State} {c ch : Nat} (d : Nat) (h : c ∈ swMembers s ch) :
    (getSw (dutyStored s ch d) c).duty = d ∧ (getSw (dutyStored s ch d) c).barred = false ∧
    (getSw (dutyStored s ch d) c).window = (getSw s c).window := by
  obtain ⟨l, hl⟩ := getSw_dropLimit s ch c
  rw [dutyStored, getSw_modAll _ (by rw [(SwStep.of_regs (dropLimit_regs s ch)).members]; exact h), hl]
  exact ⟨rfl, rfl, rfl⟩

theorem swDuty_cases (s : State) (ch d : Nat) : swDuty s ch d =
    if d = 0 then swTurnOff (dutyStored s ch d) ch
    else if (getFeed s (ch / 48)).uv then swAll (swTurnOff (dutyStored s ch d) ch) ch R.SBK_CH_STAT_UV_OFF 1
    else if swStopped (dutyStored s ch d) ch || swQueued (dutyStored s ch d) ch then swTurnOff (dutyStored s ch d) ch
    else swTurnOn (dutyStored s ch d) ch := by
  rw [← getFeed_congr (dutyStored_feed s ch d)]
  rfl

/-- A duty reaches every member with its bar gone, whatever holds the output off. -/
theorem getSw_swDuty {s : State} {c ch : Nat} (d : Nat) (h : c ∈ swMembers s ch) :
    (getSw (swDuty s ch d) c).duty = d ∧ (getSw (swDuty s ch d) c).barred = false ∧
    (getSw (swDuty s ch d) c).window = (getSw s c).window := by
  have hmem : c ∈ swMembers (dutyStored s ch d) ch := by rw [dutyStored_members]; exact h
  have hoff := getSw_swTurnOff hmem
  obtain ⟨-, hduty, hwin, hbar⟩ := getSw_swTurnOn hmem
  obtain ⟨sduty, sbar, swin⟩ := getSw_dutyStored d h
  rw [swDuty_cases]
  split
  · rw [hoff]
    exact ⟨sduty, sbar, swin⟩
  · split
    · rw [getSw_congr (swAll_sw _ _ _ _), hoff]
      exact ⟨sduty, sbar, swin⟩
    · split
      · rw [hoff]
        exact ⟨sduty, sbar, swin⟩
      · exact ⟨hduty.trans sduty, hbar.trans sbar, hwin.trans swin⟩

theorem dget_swDuty (s : State) (ch d : Nat) {g : Fld} (c : Nat) (hol : g.id ≠ R.SBK_CH_STAT_OPEN_LOAD.id)
    (huv : g.id ≠ R.SBK_CH_STAT_UV_OFF.id) : dget (swDuty s ch d) g c = dget s g c := by
  have hstored : dget (dutyStored s ch d) g c = dget s g c := dget_congr (dutyStored_regs s ch d) g c
  rw [swDuty_cases]
  split
  · exact (dget_swTurnOff _ _ _ hol).trans hstored
  · split
    · exact (dget_swAll_ne _ _ _ _ huv).trans ((dget_swTurnOff _ _ _ hol).trans hstored)
    · split
      · exact (dget_swTurnOff _ _ _ hol).trans hstored
      · exact (dget_congr (modAll_regs _ _ _) g c).trans hstored

/-- Where nothing holds the output off, a duty other than 0 switches it on and a duty of 0 off. -/
theorem swDuty_on {s : State} {c ch : Nat} (d : Nat) (h : c ∈ swMembers s ch) (hstop : swStopped s ch = false)
    (huv : (getFeed s (ch / 48)).uv = false) (hq : swQueued s ch = false) :
    (getSw (swDuty s ch d) c).on = decide (d ≠ 0) := by
  have hregs := dutyStored_regs s ch d
  have hmem : c ∈ swMembers (dutyStored s ch d) ch := by rw [dutyStored_members]; exact h
  rw [swDuty_cases, huv]
  by_cases hd : d = 0
  · rw [if_pos hd, getSw_swTurnOff hmem]
    simp [hd]
  · have hstop' : swStopped (dutyStored s ch d) ch = false := by
      simp only [swStopped, Bool.or_eq_false_iff, dbit_eq_false_iff] at hstop ⊢
      obtain ⟨⟨⟨⟨htrip, hlatch⟩, hlock⟩, hshed⟩, -⟩ := hstop
      simp only [dget_congr hregs]
      exact ⟨⟨⟨⟨htrip, hlatch⟩, hlock⟩, hshed⟩, (getSw_dutyStored d (mem_swMembers_self s ch)).2.1⟩
    have hq' : swQueued (dutyStored s ch d) ch = false := by
      rw [swQueued, getFeed_congr (dutyStored_feed s ch d), (SwStep.of_regs hregs).lead]
      exact hq
    rw [if_neg hd, if_neg (by simp), hstop', hq', if_neg (by simp), (getSw_swTurnOn hmem).1]
    simp [hd]

end Sys2Proof.Machine
end

section
/-! The commands to switch channels and the protections (R204–R226). -/

namespace Sys2Proof.Machine

/-! ### Trips and restarts -/

/-- What a trip counts and stores in a channel. -/
theorem swTrip_members {s : State} {c ch : Nat} (cause : Nat) (h : c ∈ swMembers s ch) :
    dget (swTrip s ch cause) R.SBK_CH_STAT_TRIPPED c = 1 ∧
    dget (swTrip s ch cause) R.SBK_CH_STAT_TRIP_CAUSE c = cause % 2 ^ R.SBK_CH_STAT_TRIP_CAUSE.width ∧
    (getSw (swTrip s ch cause) c).on = false ∧ (getSw (swTrip s ch cause) c).limitSince = none ∧
    dget (swTrip s ch cause) R.SBK_CH_COUNTS_TRIPS c =
      satTo R.SBK_CH_COUNTS_TRIPS.width (dget s R.SBK_CH_COUNTS_TRIPS c + 1) := by
  unfold swTrip
  extract_lets s1 s2
  have hfold := foldl_pointwise (β := State)
    (fun u c => (dget u R.SBK_CH_STAT_TRIPPED c, dget u R.SBK_CH_STAT_TRIP_CAUSE c, dget u R.SBK_CH_COUNTS_TRIPS c))
    (R := fun a b => b = (1, cause % 2 ^ R.SBK_CH_STAT_TRIP_CAUSE.width, satTo R.SBK_CH_COUNTS_TRIPS.width (a.2.2 + 1)))
    (f := fun s c => rinc (dset (dset s R.SBK_CH_STAT_TRIPPED 1 c) R.SBK_CH_STAT_TRIP_CAUSE cause c) R.SBK_CH_COUNTS_TRIPS 1
      (c / 8) (c % 8)) (swMembers_nodup s ch)
    (fun b a _ => by
      dsimp only
      rw [dget_rinc_ne _ _ _ _ (by decide), dget_rinc_ne _ _ _ _ (by decide), dget_rinc_self, dget_dset_ne _ _ _ _ (by decide),
        dget_dset_self, dget_dset_self, dget_dset_ne _ _ _ _ (by decide), dget_dset_ne _ _ _ _ (by decide)]
      rfl)
    (fun b a ha c hc hne => by
      have hb : c / 8 = a / 8 := (swMembers_bank hc).trans (swMembers_bank ha).symm
      rw [dget_rinc_ne _ _ _ _ (by decide), dget_rinc_ne _ _ _ _ (by decide), dget_rinc_sibling _ _ _ hb hne,
        dget_dset_ne _ _ _ _ (by decide), dget_dset_sibling _ _ _ hb hne, dget_dset_sibling _ _ _ hb hne,
        dget_dset_ne _ _ _ _ (by decide), dget_dset_ne _ _ _ _ (by decide), dget_dset_ne _ _ _ _ (by decide)])
    h s1
  have hsw : s2.sw = s1.sw :=
    foldl_invariant (P := fun v : State => v.sw = s1.sw) rfl fun _ _ _ hv => hv
  have hread (f : Fld) (hf : f.id / 128 = blkCode .sbk) : dget (raiseEv s2 evSbkTrip (ch / 8)) f c = dget s2 f c :=
    raiseEv_within.rget f _ _ (by rw [hf]; decide)
  have hrec : getSw (raiseEv s2 evSbkTrip (ch / 8)) c = _ :=
    (getSw_congr (raiseEv_sw _ _ _ _) c).trans ((getSw_congr hsw c).trans (getSw_swTurnOff h))
  simp only [Prod.mk.injEq] at hfold
  obtain ⟨htrip, hcause, htrips⟩ := hfold
  rw [hread _ (by decide), hread _ (by decide), hread _ (by decide), hrec]
  refine ⟨htrip, hcause, rfl, rfl, htrips.trans ?_⟩
  rw [dget_swTurnOff _ _ _ (by decide)]

theorem swTrip_step {s u : State} (h : SwStep s u) (ch cause : Nat) : SwStep s (swTrip u ch cause) :=
  ((swTurnOff_step h ch).fold fun _ _ hw =>
    ((hw.writeAt _ _ (by decide)).writeAt _ _ (by decide)).write _ _ _ (by decide)).event _ _ _

/-- What a restart leaves in a channel. -/
structure Restarted (free : Bool) (s u : State) (c : Nat) : Prop where
  tripped : dget u R.SBK_CH_STAT_TRIPPED c = 0
  restarts : dget u R.SBK_CH_COUNTS_RESTARTS c = satTo R.SBK_CH_COUNTS_RESTARTS.width (dget s R.SBK_CH_COUNTS_RESTARTS c + 1)
  retries : free = false → dget u R.SBK_CH_STAT_RETRIES_USED c =
    satTo R.SBK_CH_STAT_RETRIES_USED.width (dget s R.SBK_CH_STAT_RETRIES_USED c + 1)
  on : (getSw u c).on = true
  duty : (getSw u c).duty = (getSw s c).duty
  window : (getSw u c).window ≠ none

/-- One channel restarts. -/
def restartOne (w : Nat) (free : Bool) (s : State) (c : Nat) : State :=
  let s1 := dset s R.SBK_CH_STAT_TRIPPED 0 c
  let s2 := rinc s1 R.SBK_CH_COUNTS_RESTARTS 1 (c / 8) (c % 8)
  let s3 := if free then s2 else rinc s2 R.SBK_CH_STAT_RETRIES_USED 1 (c / 8) (c % 8)
  modSw s3 c fun k =>
    ({ k with on := true, onAt := s.now, recRestart := true, rearmed := false,
              window := some (k.window.getD (s.now + w)) } : SwCh).noteShort
      s.now (shortOn s c k.duty)

theorem swRestart_eq (s : State) (ch : Nat) (free : Bool) : swRestart s ch free =
    (swMembers s ch).foldl (restartOne (dval s R.SBK_CH_PROT_RETRY_WINDOW_S (swLead s ch) * fcSec) free) s := rfl

theorem restartOne_sw (w : Nat) (free : Bool) (s : State) (c : Nat) : ∃ l, getSw (restartOne w free s c) c =
    { getSw s c with
      on := true
      onAt := s.now
      recRestart := true
      rearmed := false
      window := some ((getSw s c).window.getD (s.now + w))
      short := l } := by
  unfold restartOne
  extract_lets s1 s2 s3
  have hsw : s3.sw = s.sw := by
    simp only [s3]
    split <;> rfl
  rw [getSw_modSw_self, getSw_congr hsw]
  exact noteShort_fields _ _ _

theorem restartOne_sw_ne (w : Nat) (free : Bool) (s : State) {c k : Nat} (h : k ≠ c) :
    getSw (restartOne w free s c) k = getSw s k := by
  unfold restartOne
  extract_lets s1 s2 s3
  have hsw : s3.sw = s.sw := by
    simp only [s3]
    split <;> rfl
  rw [getSw_modSw_ne _ _ h, getSw_congr hsw]

theorem restartOne_regs (w : Nat) (free : Bool) (s : State) (c : Nat) : (restartOne w free s c).regs =
    (if free then rinc (dset s R.SBK_CH_STAT_TRIPPED 0 c) R.SBK_CH_COUNTS_RESTARTS 1 (c / 8) (c % 8)
      else rinc (rinc (dset s R.SBK_CH_STAT_TRIPPED 0 c) R.SBK_CH_COUNTS_RESTARTS 1 (c / 8) (c % 8))
        R.SBK_CH_STAT_RETRIES_USED 1 (c / 8) (c % 8)).regs := rfl

theorem restartOne_restarts (w : Nat) (free : Bool) (s : State) (c : Nat) : Restarted free s (restartOne w free s c) c := by
  obtain ⟨l, hl⟩ := restartOne_sw w free s c
  have hregs (f : Fld) := dget_congr (restartOne_regs w free s c) f c
  refine ⟨?_, ?_, fun hfree => ?_, by rw [hl], by rw [hl], by rw [hl]; simp⟩
  · rw [hregs]
    cases free
    · rw [if_neg (by simp), dget_rinc_ne _ _ _ _ (by decide), dget_rinc_ne _ _ _ _ (by decide), dget_dset_self]
      rfl
    · rw [if_pos rfl, dget_rinc_ne _ _ _ _ (by decide), dget_dset_self]
      rfl
  · rw [hregs]
    cases free
    · rw [if_neg (by simp), dget_rinc_ne _ _ _ _ (by decide), dget_rinc_self, dget_dset_ne _ _ _ _ (by decide)]
    · rw [if_pos rfl, dget_rinc_self, dget_dset_ne _ _ _ _ (by decide)]
  · rw [hregs, hfree, if_neg (by simp), dget_rinc_self, dget_rinc_ne _ _ _ _ (by decide), dget_dset_ne _ _ _ _ (by decide)]

theorem restartOne_sibling (w : Nat) (free : Bool) (s : State) {c k : Nat} (hb : k / 8 = c / 8) (hne : k ≠ c) :
    dget (restartOne w free s c) R.SBK_CH_STAT_TRIPPED k = dget s R.SBK_CH_STAT_TRIPPED k ∧
    dget (restartOne w free s c) R.SBK_CH_COUNTS_RESTARTS k = dget s R.SBK_CH_COUNTS_RESTARTS k ∧
    dget (restartOne w free s c) R.SBK_CH_STAT_RETRIES_USED k = dget s R.SBK_CH_STAT_RETRIES_USED k := by
  have hregs (f : Fld) := dget_congr (restartOne_regs w free s c) f k
  rw [hregs, hregs, hregs]
  cases free
  · rw [if_neg (by simp), dget_rinc_ne _ _ _ _ (by decide), dget_rinc_ne _ _ _ _ (by decide), dget_dset_sibling _ _ _ hb hne,
      dget_rinc_ne _ _ _ _ (by decide), dget_rinc_sibling _ _ _ hb hne, dget_dset_ne _ _ _ _ (by decide),
      dget_rinc_sibling _ _ _ hb hne, dget_rinc_ne _ _ _ _ (by decide), dget_dset_ne _ _ _ _ (by decide)]
    exact ⟨rfl, rfl, rfl⟩
  · rw [if_pos rfl, dget_rinc_ne _ _ _ _ (by decide), dget_dset_sibling _ _ _ hb hne, dget_rinc_sibling _ _ _ hb hne,
      dget_dset_ne _ _ _ _ (by decide), dget_rinc_ne _ _ _ _ (by decide), dget_dset_ne _ _ _ _ (by decide)]
    exact ⟨rfl, rfl, rfl⟩

/-- A restart reaches every member of a pair. -/
theorem swRestart_members {s : State} {c ch : Nat} (free : Bool) (h : c ∈ swMembers s ch) :
    Restarted free s (swRestart s ch free) c := by
  rw [swRestart_eq]
  generalize dval s R.SBK_CH_PROT_RETRY_WINDOW_S (swLead s ch) * fcSec = w
  have hfold := foldl_pointwise (β := State) (f := restartOne w free)
    (fun u c => (dget u R.SBK_CH_STAT_TRIPPED c, dget u R.SBK_CH_COUNTS_RESTARTS c, dget u R.SBK_CH_STAT_RETRIES_USED c, getSw u c))
    (R := fun a b => b.1 = 0 ∧ b.2.1 = satTo R.SBK_CH_COUNTS_RESTARTS.width (a.2.1 + 1) ∧
      (free = false → b.2.2.1 = satTo R.SBK_CH_STAT_RETRIES_USED.width (a.2.2.1 + 1)) ∧
      b.2.2.2.on = true ∧ b.2.2.2.duty = a.2.2.2.duty ∧ b.2.2.2.window ≠ none) (swMembers_nodup s ch)
    (fun b a _ => by
      have hr := restartOne_restarts w free b a
      exact ⟨hr.tripped, hr.restarts, hr.retries, hr.on, hr.duty, hr.window⟩)
    (fun b a ha c hc hne => by
      obtain ⟨htrip, hcount, hused⟩ :=
        restartOne_sibling w free b ((swMembers_bank hc).trans (swMembers_bank ha).symm) hne
      rw [htrip, hcount, hused, restartOne_sw_ne w free b hne])
    h s
  obtain ⟨h1, h2, h3, h4, h5, h6⟩ := hfold
  exact ⟨h1, h2, h3, h4, h5, h6⟩

/-- A channel or pair off without trip, latch, lock, shed or bar, whose budget lasts, is restarted. -/
theorem swDue_restarts {s : State} {ch : Nat} (hlead : swLead s ch = ch)
    (hlatch : dbit s R.SBK_CH_STAT_THERM_LATCH ch = false) (hlock : dbit s R.SBK_CH_STAT_LOCKED ch = false)
    (htrip : dbit s R.SBK_CH_STAT_TRIPPED ch = false ∨ (dbit s R.SBK_CH_PROT_POLICY ch = true ∧ swTheta s ch ≤ 1 / 2))
    (huv : (getFeed s (ch / 48)).uv = false) (huvoff : dbit s R.SBK_CH_STAT_UV_OFF ch = false)
    (hshed : dbit s R.SBK_CH_STAT_SHED ch = false) (hduty : (getSw s ch).duty ≠ 0) (hbar : (getSw s ch).barred = false)
    (hon : (getSw s ch).on = false) (hq : swQueued s ch = false) (hheld : heldNow s ch = false) :
    swDue s ch = if !dbit s R.SBK_CH_PROT_POLICY ch && (getSw s ch).rearmed ||
        decide (dget s R.SBK_CH_STAT_RETRIES_USED ch < dget s R.SBK_CH_PROT_RETRY_MAX ch) then
      swRestart s ch (!dbit s R.SBK_CH_PROT_POLICY ch && (getSw s ch).rearmed)
    else raiseEv (swAll s ch R.SBK_CH_STAT_LOCKED 1) evSbkLocked (ch / 8) := by
  unfold swDue
  dsimp only
  rw [hlead]
  refine if_neg ?_
  rcases htrip with h | ⟨hp, hth⟩
  · simp [hlatch, hlock, h, huv, huvoff, hshed, hduty, hbar, hon, hq, hheld]
  · simp only [hlatch, hlock, hp, decide_eq_true hth, huv, huvoff, hshed, hbar, hon, hq, hheld]
    simp [hduty]

/-! ### Protections and the configuration -/

theorem noteMa_regs (s : State) (ch : Nat) (l : List Nat) : (noteMa s ch l).regs = s.regs := noteMa_within.regs.resolve_left (by simp)

theorem wireUpdate_step {s u : State} (h : SwStep s u) (ch : Nat) (own other : List Nat) :
    SwStep s (wireUpdate u ch own other) := by
  unfold wireUpdate
  refine h.either ?_
  extract_lets v sums k ie c hh f g s1 out since s2
  have hv : SwStep s v := h.trans (.of_regs ((noteMa_regs _ _ _).trans (noteMa_regs _ _ _)))
  have h1 : SwStep s s1 := swAll_step (modAll_step hv _ _) _ _ (by decide)
  have h2 : SwStep s s2 := h1.either (modAll_step h1 _ _)
  exact (swTrip_step h2 _ _).either h2

theorem inrush_step {s u : State} (h : SwStep s u) (ch : Nat) : SwStep s (inrush u ch) := by
  unfold inrush
  extract_lets c from_
  clear_value from_
  cases from_ with
  | some a => exact (swTrip_step h _ _).either h
  | none => exact h

theorem thermSet_step {s u : State} (h : SwStep s u) (ch : Nat) (tj : Int) : SwStep s (thermSet u ch tj) := by
  have h0 : SwStep s (dset u R.SBK_CH_MODEL_TJ (tjCode tj) ch) := h.writeAt _ _ (by decide)
  unfold thermSet
  extract_lets s0 was s0b s0c s1 s2
  have hb : SwStep s s0b := swTurnOff_step h0 ch
  have hc : SwStep s s0c := (modAll_step hb _ _).either hb
  have h1 : SwStep s s1 := swAll_step hc _ _ (by decide)
  have h2 : SwStep s s2 := h1.fold fun _ _ hw => hw.write _ _ _ (by decide)
  exact h0.either ((modAll_step h2 _ _).event _ _ _)

theorem feedVolts_step {s u : State} (h : SwStep s u) (p mv : Nat) : SwStep s (feedVolts u p mv) :=
  (h.trans (.of_regs rfl)).write _ _ _ (by decide)

theorem feedUv_step {s u : State} (h : SwStep s u) (p mv since : Nat) : SwStep s (feedUv u p mv since) := by
  have hv := feedVolts_step h p mv
  unfold feedUv
  extract_lets v f told s1
  have hfeed (x : Feed) : SwStep s (setFeed v p x) := hv.trans (.of_regs rfl)
  have h1 : SwStep s s1 := (hfeed _).fold fun w c hw => by
    have hd : SwStep s (if (getSw w c).duty = 0 then w else dset w R.SBK_CH_STAT_UV_OFF 1 c) :=
      hw.either (hw.writeAt _ _ (by decide))
    exact (swTurnOff_step hd c).either hd
  exact hv.either ((hfeed _).either (h1.either (h1.event _ _ _)))

theorem planeShed_step {s u : State} (h : SwStep s u) (p amps since : Nat) : SwStep s (planeShed u p amps since) := by
  have hv : SwStep s (rset u R.SBK_FEED_MEAS_I_A (min amps 511) (feedInst p)) := h.write _ _ _ (by decide)
  unfold planeShed
  extract_lets v f
  have hfeed (x : Feed) : SwStep s (setFeed v p x) := hv.trans (.of_regs rfl)
  refine (hfeed _).either (hv.either ?_)
  have hfold (l : List Nat) (x : Feed) :
      SwStep s (setFeed (l.foldl (fun s c => dset (swTurnOff s c) R.SBK_CH_STAT_SHED 1 c) v) p x) :=
    (hv.fold fun w c hw => (swTurnOff_step hw c).writeAt _ _ (by decide)).trans (.of_regs rfl)
  split
  · exact (hfold _ _).event _ _ _
  · exact hv.either ((hfeed _).event _ _ _)

/-- The protections of the same fc leave the configuration as it is. -/
theorem swAhead_step (s : State) : SwStep s (swAhead s) := by
  unfold swAhead
  refine (SwStep.refl s).fold fun u c hu => ?_
  cases c with
  | wireModelUpdate t ch m => exact (wireUpdate_step hu _ _ _).either hu
  | inrushExpiry t ch => exact (inrush_step hu _).either hu
  | thermLatchSet t ch tj => exact (thermSet_step hu _ _).either hu
  | feedUv t p mv since => exact (feedUv_step hu _ _ _).either hu
  | planeShed t p amps since => exact (planeShed_step hu _ _ _).either hu
  | _ => exact hu

/-! ### Commands to a channel -/

section
variable {s : State} {ch : Nat} {q : Passed}
  (hfind : ((getPps s (ch / 48)).passed.find? fun x => OutCmd.isSw ch x.cmd) = some q)
include hfind

theorem doSet_takes {c d : Nat} (hcmd : q.cmd = .sw c (.set d)) : doSet s ch =
    if 1000 < d then swDone (passedTaken s (ch / 48) q) ch q stRejectFormat 0x0170
    else if q.ref.isSome && !commanding s then swDone (passedTaken s (ch / 48) q) ch q stRejectState 0x0283
    else match swSetState (swAhead (passedTaken s (ch / 48) q)) ch d q with
      | some e => swDone (passedTaken s (ch / 48) q) ch q stRejectState e
      | none => swDone (swDuty (passedTaken s (ch / 48) q) ch d) ch q stDone
          (b2n (swHeld (swAhead (swDuty (passedTaken s (ch / 48) q) ch d)) ch)) := by
  unfold doSet
  rw [takePassed_first hfind (by rw [hcmd])]
  dsimp only
  rw [hcmd] <;> rfl

theorem doRearm_takes {c : Nat} (hcmd : q.cmd = .sw c .rearm) : doRearm s ch =
    if q.ref.isSome && !commanding s then swDone (passedTaken s (ch / 48) q) ch q stRejectState 0x0283
    else if !swMode (passedTaken s (ch / 48) q) ch || swOdd (passedTaken s (ch / 48) q) ch then
      swDone (passedTaken s (ch / 48) q) ch q stRejectState 0x0272
    else if !rbit (passedTaken s (ch / 48) q) R.SBK_CTRL_ENABLE (ch / 8) then
      swDone (passedTaken s (ch / 48) q) ch q stRejectState 0x0273
    else if decide ((1 / 2 : Rat) < swTheta (passedTaken s (ch / 48) q) ch) then
      swDone (passedTaken s (ch / 48) q) ch q stRejectState 0x0274
    else
      let therm := dbit (swAhead (passedTaken s (ch / 48) q)) R.SBK_CH_STAT_THERM_LATCH ch
      let s2 := swRearm (passedTaken s (ch / 48) q) ch therm
      swDone s2 ch q stDone (b2n (swHeld (swAhead s2) ch) + 2 * b2n therm) := by
  unfold doRearm
  rw [takePassed_first hfind (by rw [hcmd])]

end

/-- A SET that finds channel, owner, mode and enable in order, and neither trip nor lock, is carried out. -/
theorem swSetState_ok {s : State} {ch d : Nat} {q : Passed} (hodd : swOdd s ch = false) (hmode : swMode s ch = true)
    (hown : q.staged = true ∨ (dbit s R.SBK_CH_CFG_OWNER ch = false ∧ rbit s R.SBK_CTRL_ENABLE (ch / 8) = true))
    (hfree : d = 0 ∨ q.staged = true ∨ swStopped s ch = false) : swSetState s ch d q = none := by
  unfold swSetState
  by_cases hd : d = 0
  · exact if_pos ⟨hd, hmode, by simp [hodd]⟩
  · rw [if_neg fun h => hd h.1]
    by_cases hst : q.staged = true
    · simp [hst, hodd, hmode]
    · obtain ⟨howner, hen⟩ := hown.resolve_left hst
      have hstop : swStopped s ch = false := (hfree.resolve_left hd).resolve_left hst
      simp only [swStopped, Bool.or_eq_false_iff] at hstop
      obtain ⟨⟨⟨⟨htrip, -⟩, hlock⟩, -⟩, -⟩ := hstop
      simp [howner, htrip, hlock, hmode, hodd, hen]

/-- A rearmed channel has neither trip nor lock nor a retry used, and its window is closed. -/
theorem swRearm_members {s : State} {c ch : Nat} (therm : Bool) (h : c ∈ swMembers s ch) :
    dget (swRearm s ch therm) R.SBK_CH_STAT_TRIPPED c = 0 ∧ dget (swRearm s ch therm) R.SBK_CH_STAT_LOCKED c = 0 ∧
    dget (swRearm s ch therm) R.SBK_CH_STAT_RETRIES_USED c = 0 ∧ (getSw (swRearm s ch therm) c).window = none ∧
    (getSw (swRearm s ch therm) c).barred = false ∧ (getSw (swRearm s ch therm) c).duty = (getSw s ch).duty := by
  unfold swRearm
  extract_lets s1 s2
  have hstep1 : SwStep s s1 :=
    swAll_step (swAll_step (swAll_step (.refl s) _ _ (by decide)) _ _ (by decide)) _ _ (by decide)
  have hstep2 : SwStep s s2 := modAll_step hstep1 _ _
  have hsw1 : s1.sw = s.sw := (swAll_sw _ _ _ _).trans ((swAll_sw _ _ _ _).trans (swAll_sw _ _ _ _))
  have hcleared : dget s1 R.SBK_CH_STAT_TRIPPED c = 0 ∧ dget s1 R.SBK_CH_STAT_LOCKED c = 0 ∧
      dget s1 R.SBK_CH_STAT_RETRIES_USED c = 0 := by
    refine ⟨?_, ?_, ?_⟩
    · exact (dget_swAll_ne _ _ _ _ (by decide)).trans ((dget_swAll_ne _ _ _ _ (by decide)).trans (dget_swAll_self _ _ h))
    · refine (dget_swAll_ne _ _ _ _ (by decide)).trans (dget_swAll_self _ _ ?_)
      rw [(swAll_step (.refl s) ch (f := R.SBK_CH_STAT_TRIPPED) 0 (by decide)).members]
      exact h
    · refine dget_swAll_self _ _ ?_
      rw [(swAll_step (swAll_step (.refl s) ch (f := R.SBK_CH_STAT_TRIPPED) 0 (by decide)) ch
        (f := R.SBK_CH_STAT_LOCKED) 0 (by decide)).members]
      exact h
  have hrec (k : Nat) (hk : k ∈ swMembers s ch) : getSw s2 k = { getSw s k with window := none, barred := false } := by
    rw [getSw_modAll _ (by rw [hstep1.members]; exact hk), getSw_congr hsw1]
  obtain ⟨hduty, hbar, hwin⟩ := getSw_swDuty (s := s2) (getSw s2 ch).duty (by rw [hstep2.members]; exact h : c ∈ swMembers s2 ch)
  have hread (f : Fld) (hol : f.id ≠ R.SBK_CH_STAT_OPEN_LOAD.id) (huv : f.id ≠ R.SBK_CH_STAT_UV_OFF.id) :
      dget (modAll (swDuty s2 ch (getSw s2 ch).duty) ch fun c => { c with rearmed := therm, rearmedAt := s.now }) f c =
        dget s1 f c :=
    (dget_congr (modAll_regs _ _ _) f c).trans ((dget_swDuty _ _ _ _ hol huv).trans (dget_congr (modAll_regs _ _ _) f c))
  have hlast : ∃ a b, getSw (modAll (swDuty s2 ch (getSw s2 ch).duty) ch fun c =>
      { c with rearmed := therm, rearmedAt := s.now }) c =
        { getSw (swDuty s2 ch (getSw s2 ch).duty) c with rearmed := a, rearmedAt := b } := by
    rcases getSw_modAll_all (swDuty s2 ch (getSw s2 ch).duty) c ch fun c =>
      { c with rearmed := therm, rearmedAt := s.now } with e | e
    · exact ⟨_, _, e⟩
    · exact ⟨_, _, e⟩
  obtain ⟨a, b, hlast⟩ := hlast
  obtain ⟨htrip, hlock, hused⟩ := hcleared
  rw [hread _ (by decide) (by decide), hread _ (by decide) (by decide), hread _ (by decide) (by decide), hlast]
  refine ⟨htrip, hlock, hused, ?_, hbar, ?_⟩
  · exact hwin.trans (by rw [hrec c h])
  · exact hduty.trans (by rw [hrec ch (mem_swMembers_self s ch)])

/-- Settles O28. -/
theorem switchCommands : Obligations.SwitchCommands := by
  unfold Obligations.SwitchCommands
  refine ⟨?set, ?tooLarge, ?rearm⟩
  case set =>
    intro s t ch q d hpow hfind hcmd hd href hown hodd hmode hstop hahead huv hq
    obtain ⟨v, hv⟩ : ∃ v, v = passedTaken (advance s t) (ch.val / 48) q := ⟨_, rfl⟩
    have hstep : SwStep s v := by rw [hv]; exact .of_regs rfl
    have hstep' : SwStep s (swAhead v) := hstep.trans (swAhead_step v)
    have hset : swSetState (swAhead v) ch d q = none := by
      refine swSetState_ok ((hstep'.odd _).trans hodd) ((hstep'.mode _).trans hmode) ?_ ?_
      · refine hown.imp_right fun ⟨hown, hen⟩ => ⟨?_, ?_⟩
        · exact (congrArg (· == 1) (hstep'.dget R.SBK_CH_CFG_OWNER ch (by decide) (by decide))).trans hown
        · exact (congrArg (· == 1) (hstep' R.SBK_CTRL_ENABLE _ _ (by decide) (by decide))).trans hen
      · rw [hv]
        exact hahead
    have hrun := doSet_takes (s := advance s t) hfind hcmd
    rw [if_neg (Nat.not_lt.mpr hd), if_neg (by rcases href with h | h
                                               · simp [h]
                                               · simp [show commanding (advance s t) = true from h]), ← hv, hset] at hrun
    have hw : Within [.pps] [] (advance s t) v := by rw [hv]; exact setPps_within
    have hw' : Within [.regs, .reqs, .till, .sw, .pps] (blks [.sbk]) (advance s t)
        (swDone (swDuty v ch d) ch q stDone (b2n (swHeld (swAhead (swDuty v ch d)) ch))) :=
      swDone_within.step (swDuty_within.step (hw.mono rfl rfl) rfl rfl) rfl rfl
    have hdone : Within [.reqs, .till] [] (swDuty v ch d)
        (swDone (swDuty v ch d) ch q stDone (b2n (swHeld (swAhead (swDuty v ch d)) ch))) := swDone_within
    refine ⟨_, (atPlane_powered s t _ (fun s => doSet s ch) hpow).trans (congrArg _ hrun), fun c hc => ?_, ?_,
      hw'.blocksOnly, hw'.eq_frame⟩
    · have hmem : c ∈ swMembers v ch := by rw [hstep.members]; exact hc
      rw [getSw_congr (hdone.sw.resolve_left (by simp))]
      refine ⟨(getSw_swDuty d hmem).1, swDuty_on d hmem ?_ ?_ ?_⟩
      · rw [hv]; exact hstop
      · rw [hv]; exact huv
      · rw [hv]; exact hq
    · have hpps : (swDuty v ch d).pps = v.pps := swDuty_within.pps.resolve_left (by simp)
      rw [getPps_congr (hdone.pps.resolve_left (by simp)), getPps_congr hpps, hv]
      exact congrArg Pps.passed (getPps_setPps_self _ _ _)
  case tooLarge =>
    intro s t ch q d r hpow hfind hcmd hd hr
    have hrun := doSet_takes (s := advance s t) hfind hcmd
    rw [if_pos hd, swDone, hr] at hrun
    exact (atPlane_powered s t _ (fun s => doSet s ch) hpow).trans (congrArg _ hrun)
  case rearm =>
    intro s t ch q hpow hfind hcmd href hodd hmode hen hth
    have hrun := doRearm_takes (s := advance s t) hfind hcmd
    obtain ⟨v, hv⟩ : ∃ v, v = passedTaken (advance s t) (ch.val / 48) q := ⟨_, rfl⟩
    have hstep : SwStep s v := by rw [hv]; exact .of_regs rfl
    have hth' : ¬ decide ((1 / 2 : Rat) < swTheta v ch) = true := by
      rw [hv]
      exact mt of_decide_eq_true (not_lt.mpr hth)
    have hen' : rbit v R.SBK_CTRL_ENABLE (ch.val / 8) = true := by
      rw [hv]
      exact hen
    rw [← hv, if_neg (by rcases href with h | h
                         · simp [h]
                         · simp [show commanding (advance s t) = true from h]),
      if_neg (by simp [hstep.odd, hstep.mode, hodd, hmode]), if_neg (by simp [hen']), if_neg hth'] at hrun
    generalize hb : dbit (swAhead v) R.SBK_CH_STAT_THERM_LATCH ch = therm at hrun
    dsimp only at hrun
    have hw : Within [.pps] [] (advance s t) v := by rw [hv]; exact setPps_within
    generalize b2n (swHeld (swAhead (swRearm v ch therm)) ch) + 2 * b2n therm = x at hrun
    have hw' : Within [.regs, .reqs, .till, .sw, .pps] (blks [.sbk]) (advance s t) (swDone (swRearm v ch therm) ch q stDone x) :=
      swDone_within.step (swRearm_within.step (hw.mono rfl rfl) rfl rfl) rfl rfl
    have hdone : Within [.reqs, .till] [] (swRearm v ch therm) (swDone (swRearm v ch therm) ch q stDone x) := swDone_within
    refine ⟨_, (atPlane_powered s t _ (fun s => doRearm s ch) hpow).trans (congrArg _ hrun), fun c hc => ?_, ?_,
      hw'.blocksOnly, hw'.eq_frame⟩
    · rw [getSw_congr (hdone.sw.resolve_left (by simp)), dget_congr (hdone.regs.resolve_left (by simp)),
        dget_congr (hdone.regs.resolve_left (by simp)), dget_congr (hdone.regs.resolve_left (by simp))]
      have hduty : (getSw v ch).duty = (getSw s ch).duty := by rw [hv]; rfl
      rw [← hduty]
      exact swRearm_members therm (by rw [hstep.members]; exact hc)
    · have hpps : (swRearm v ch therm).pps = v.pps := swRearm_within.pps.resolve_left (by simp)
      rw [getPps_congr (hdone.pps.resolve_left (by simp)), getPps_congr hpps, hv]
      exact congrArg Pps.passed (getPps_setPps_self _ _ _)

end Sys2Proof.Machine
end

section
/-! The wire model, limits, latches, retries, under-voltage and shedding (R211–R222). -/

namespace Sys2Proof.Machine

/-! ### The wire model -/

/-- The fast part of θ after one millisecond of the currents `sums` (R213). -/
def wireFast (s : State) (ch : Nat) (sums : List Nat) : Rat :=
  (getSw s ch).thf + mkRat 1 (1000 * (wireProfile (dget s R.SBK_CH_CFG_WPROF ch)).2) *
    (mkRat 2 5 * (meanSquare sums / ((swIEff s ch * swIEff s ch : Nat) : Rat)) - (getSw s ch).thf)

/-- The slow part. -/
def wireSlow (s : State) (ch : Nat) (sums : List Nat) : Rat :=
  (getSw s ch).ths + mkRat 1 (10000 * (wireProfile (dget s R.SBK_CH_CFG_WPROF ch)).2) *
    (mkRat 3 5 * (meanSquare sums / ((swIEff s ch * swIEff s ch : Nat) : Rat)) - (getSw s ch).ths)

/-- The currents that the wire of a channel or pair carries (R211). -/
def wireSums (s : State) (ch : Nat) (own other : List Nat) : List Nat :=
  if swEven s ch then (List.range own.length).map (fun n => own.getD n 0 + other.getD n 0) else own

theorem getSw_noteMa (s : State) (ch : Nat) (l : List Nat) (c : Nat) :
    ∃ m, getSw (noteMa s ch l) c = { getSw s c with ma := m } := by
  unfold noteMa
  split
  · by_cases h : c = ch
    · subst h
      exact ⟨_, getSw_modSw_self _ _ _⟩
    · exact ⟨_, getSw_modSw_ne _ _ h⟩
  · exact ⟨_, rfl⟩

theorem swIEff_congr {s u : State} (h : SwStep s u) (ch : Nat) : swIEff u ch = swIEff s ch := by
  unfold swIEff
  dsimp only
  rw [h.lead, h.even, h.dget R.SBK_CH_CFG_WPROF _ (by decide) (by decide), dval, dval, rval, rval,
    h R.SBK_CH_CFG_FUSE_PCT _ _ (by decide) (by decide)]

/-- One millisecond of the wire model: both parts of θ and THETA are stored, and at 1.0 a channel that is on trips. -/
theorem wireUpdate_fields (s : State) (ch : Nat) (own other : List Nat) (hodd : swOdd s ch = false) :
    ∃ u b, wireUpdate s ch own other = (if decide ((1 : Rat) ≤ wireFast s ch (wireSums s ch own other) +
        wireSlow s ch (wireSums s ch own other)) && ((getSw s ch).on || b) then swTrip u ch 1 else u) ∧
      (∀ c ∈ swMembers s ch, (getSw u c).thf = wireFast s ch (wireSums s ch own other) ∧
        (getSw u c).ths = wireSlow s ch (wireSums s ch own other) ∧
        dget u R.SBK_CH_MODEL_THETA c = thetaCode (wireFast s ch (wireSums s ch own other) +
          wireSlow s ch (wireSums s ch own other)) % 2 ^ R.SBK_CH_MODEL_THETA.width) ∧
      (∀ c, (getSw u c).on = (getSw s c).on) ∧ SwStep s u ∧
      (∀ c, dget u R.SBK_CH_COUNTS_TRIPS c = dget s R.SBK_CH_COUNTS_TRIPS c) ∧ Within [.regs, .sw] (blks [.sbk]) s u := by
  unfold wireUpdate
  rw [if_neg (by simp [hodd])]
  extract_lets v sums k ie c hh f g s1 out since s2
  have hregs : v.regs = s.regs := (noteMa_regs _ _ _).trans (noteMa_regs _ _ _)
  have hv : SwStep s v := .of_regs hregs
  have hrec (k : Nat) : ∃ m, getSw v k = { getSw s k with ma := m } := by
    obtain ⟨m, hm⟩ := getSw_noteMa (noteMa s ch own) (ch + 1) (if swEven s ch then other else []) k
    obtain ⟨n, hn⟩ := getSw_noteMa s ch own k
    exact ⟨m, hm.trans (by rw [hn])⟩
  have hon : c.on = (getSw s ch).on := by
    obtain ⟨m, hm⟩ := hrec ch
    simp only [c, hm]
  have hsums : sums = wireSums s ch own other := by
    simp only [sums, wireSums, hv.even]
  have hf : f = wireFast s ch (wireSums s ch own other) := by
    obtain ⟨m, hm⟩ := hrec ch
    simp only [f, hh, ie, k, c, hm, hsums, swIEff_congr hv, hv.dget R.SBK_CH_CFG_WPROF ch (by decide) (by decide)]
    rfl
  have hg : g = wireSlow s ch (wireSums s ch own other) := by
    obtain ⟨m, hm⟩ := hrec ch
    simp only [g, hh, ie, k, c, hm, hsums, swIEff_congr hv, hv.dget R.SBK_CH_CFG_WPROF ch (by decide) (by decide)]
    rfl
  rw [← hf, ← hg, ← hon]
  have hstore : SwStep s (modAll v ch fun c => { c with thf := f, ths := g }) := modAll_step hv _ _
  have h1 : SwStep s s1 := swAll_step hstore _ _ (by decide)
  have h2 : SwStep s s2 := h1.either (modAll_step h1 _ _)
  have hregs2 : s2.regs = s1.regs := by
    simp only [s2]
    split
    · rfl
    · exact modAll_regs _ _ _
  have hsw2 (k : Nat) : ∃ l, getSw s2 k = { getSw s1 k with limitSince := l } := by
    simp only [s2]
    split
    · exact ⟨_, rfl⟩
    · rcases getSw_modAll_all s1 k ch fun c => { c with limitSince := since } with e | e
      · exact ⟨_, e⟩
      · exact ⟨_, e⟩
  have hw1 : Within [.regs, .sw] (blks [.sbk]) s s1 :=
    swAll_within.step (modAll_within.step (noteMa_within.step (noteMa_within.step (.refl s) rfl rfl) rfl rfl) rfl rfl) rfl rfl
  refine ⟨s2, thermNow v ch, rfl, fun k hk => ?_, fun k => ?_, h2, fun k => ?_, within_ite hw1 (modAll_within.step hw1 rfl rfl)⟩
  · obtain ⟨l, hl⟩ := hsw2 k
    have hrec1 : getSw s1 k = { getSw v k with thf := f, ths := g } :=
      (getSw_congr (swAll_sw _ _ _ _) k).trans (getSw_modAll _ (by rw [hv.members]; exact hk))
    rw [hl, hrec1, dget_congr hregs2]
    exact ⟨rfl, rfl, dget_swAll_self _ _ (by rw [hstore.members]; exact hk)⟩
  · obtain ⟨l, hl⟩ := hsw2 k
    obtain ⟨m, hm⟩ := hrec k
    have hon1 : (getSw s1 k).on = (getSw v k).on := by
      rw [getSw_congr (swAll_sw _ _ _ _)]
      rcases getSw_modAll_all v k ch fun c => { c with thf := f, ths := g } with e | e <;> rw [e]
    rw [hl, hon1, hm]
  · rw [dget_congr hregs2]
    exact (dget_swAll_ne _ _ _ _ (by decide)).trans ((dget_congr (modAll_regs _ _ _) _ _).trans (dget_congr hregs _ _))

/-! ### Limits -/

theorem inLimit_starts {s : State} {ch : Nat} (hc : conducts s ch s.now = true) (hl : limitHeld s ch s.now = false) :
    inLimit s ch = modAll s ch fun c => { c with limitSince := some s.now, limitLast := s.now, recLimit := true } := by
  unfold inLimit
  rw [if_pos hc, hl]
  rfl

theorem inrush_trips {s : State} {ch a : Nat} (hl : limitHeld s ch s.now = true) (hs : (getSw s ch).limitSince = some a)
    (ha : a + 10 * fcMs ≤ s.now) : inrush s ch = swTrip s ch 2 := by
  unfold inrush
  dsimp only
  rw [if_pos hl, hs]
  exact if_pos ha

/-! ### Thermal latches -/

/-- A junction at 170 °C latches every member off. -/
theorem thermSet_members {s : State} {ch : Nat} {j : Int} (hj : 170 ≤ j) (hlatch : dbit s R.SBK_CH_STAT_THERM_LATCH ch = false) :
    dget (thermSet s ch j) R.SBK_CH_MODEL_TJ ch = tjCode j % 2 ^ R.SBK_CH_MODEL_TJ.width ∧
    ∀ c ∈ swMembers s ch, dget (thermSet s ch j) R.SBK_CH_STAT_THERM_LATCH c = 1 ∧ (getSw (thermSet s ch j) c).on = false ∧
      dget (thermSet s ch j) R.SBK_CH_COUNTS_THERM_LATCHES c =
        satTo R.SBK_CH_COUNTS_THERM_LATCHES.width (dget s R.SBK_CH_COUNTS_THERM_LATCHES c + 1) := by
  unfold thermSet
  extract_lets s0 was s0b s0c s1 s2
  rw [if_neg (by simp [hlatch]; omega)]
  have h0 : SwStep s s0 := (SwStep.refl s).writeAt _ _ (by decide)
  have hb : SwStep s s0b := swTurnOff_step h0 ch
  have hregsc : s0c.regs = s0b.regs := by
    simp only [s0c]
    split
    · exact modAll_regs _ _ _
    · rfl
  have hc : SwStep s s0c := hb.trans (.of_regs hregsc)
  have h1 : SwStep s s1 := swAll_step hc _ _ (by decide)
  have hsw2 : s2.sw = s1.sw := foldl_invariant (P := fun v : State => v.sw = s1.sw) rfl fun _ _ _ hv => hv
  have hread2 (f : Fld) (c : Nat) (hf : f.id ≠ R.SBK_CH_COUNTS_THERM_LATCHES.id) : dget s2 f c = dget s1 f c :=
    foldl_invariant (P := fun v : State => dget v f c = dget s1 f c) rfl fun _ _ _ hv => (dget_rinc_ne _ _ _ _ hf).trans hv
  have hlast (f : Fld) (c : Nat) (hf : f.id / 128 = blkCode .sbk) : dget (raiseEv (modAll s2 ch fun c =>
      { c with rearmed := c.rearmed && c.rearmedAt == s.now }) evSbkThermLatch (ch / 8)) f c = dget s2 f c :=
    (raiseEv_within.rget f _ _ (by rw [hf]; decide)).trans (dget_congr (modAll_regs _ _ _) f c)
  have hread1 (f : Fld) (c : Nat) (hf : f.id ≠ R.SBK_CH_STAT_THERM_LATCH.id) (hol : f.id ≠ R.SBK_CH_STAT_OPEN_LOAD.id) :
      dget s1 f c = dget s0 f c :=
    (dget_swAll_ne _ _ _ _ hf).trans ((dget_congr hregsc f c).trans (dget_swTurnOff _ _ _ hol))
  refine ⟨?_, fun c hmem => ⟨?_, ?_, ?_⟩⟩
  · rw [hlast _ _ (by decide), hread2 _ _ (by decide), hread1 _ _ (by decide) (by decide)]
    exact dget_dset_self _ _ _ _
  · rw [hlast _ _ (by decide), hread2 _ _ (by decide)]
    exact dget_swAll_self _ _ (by rw [hc.members]; exact hmem)
  · have hoff : (getSw s0b c).on = false := by
      rw [getSw_swTurnOff (by rw [h0.members]; exact hmem)]
    have hoffc : (getSw s0c c).on = false := by
      simp only [s0c]
      split
      · rcases getSw_modAll_all s0b c ch fun c =>
            { c with thermAt := some (s.now, if limitHeld s0 ch s.now then was.limitSince else none) } with e | e
        · rw [e]
          exact hoff
        · rw [e]
          exact hoff
      · exact hoff
    have hoff2 : (getSw s2 c).on = false := by
      rw [getSw_congr hsw2, getSw_congr (swAll_sw _ _ _ _)]
      exact hoffc
    rw [getSw_congr (raiseEv_sw _ _ _ _)]
    rcases getSw_modAll_all s2 c ch fun c => { c with rearmed := c.rearmed && c.rearmedAt == s.now } with e | e
    · rw [e]
      exact hoff2
    · rw [e]
      exact hoff2
  · rw [hlast _ _ (by decide)]
    have hfold := foldl_pointwise (β := State) (fun u c => dget u R.SBK_CH_COUNTS_THERM_LATCHES c)
      (R := fun a b => b = satTo R.SBK_CH_COUNTS_THERM_LATCHES.width (a + 1))
      (f := fun s c => rinc s R.SBK_CH_COUNTS_THERM_LATCHES 1 (c / 8) (c % 8)) (swMembers_nodup s ch)
      (fun b a _ => dget_rinc_self _ _ _ _)
      (fun b a ha c hc hne => dget_rinc_sibling _ _ _ ((swMembers_bank hc).trans (swMembers_bank ha).symm) hne) hmem s1
    refine hfold.trans ?_
    rw [hread1 _ _ (by decide) (by decide), dget_dset_ne _ _ _ _ (by decide)]

/-- Below 140 °C on every member, under POLICY 0 without a REARM, the latch clears and the channel is barred. -/
theorem thermClear_bars {s : State} {ch : Nat} {j : Int} (hj : j < 140)
    (hcool : ∀ c ∈ swMembers s ch, c = ch ∨ dget s R.SBK_CH_MODEL_TJ c < 190)
    (hlatch : dbit s R.SBK_CH_STAT_THERM_LATCH ch = true) (hpol : dbit s R.SBK_CH_PROT_POLICY (swLead s ch) = false)
    (hre : (getSw s (swLead s ch)).rearmed = false) : thermClear s ch j =
      modAll (swAll (dset s R.SBK_CH_MODEL_TJ (tjCode j) ch) ch R.SBK_CH_STAT_THERM_LATCH 0) ch
        fun c => { c with barred := true } := by
  have hcold : ¬(swMembers s ch).any (fun c => decide (tjCode 140 ≤ dget (dset s R.SBK_CH_MODEL_TJ (tjCode j) ch)
      R.SBK_CH_MODEL_TJ c)) = true := by
    simp only [List.any_eq_true, decide_eq_true_eq, not_exists, not_and, not_le]
    intro c hc
    have hcode : tjCode 140 = 190 := by decide
    have hj' : tjCode j < 190 := by
      unfold tjCode clampInt
      omega
    rw [hcode]
    by_cases heq : c = ch
    · rw [heq, dget_dset_self]
      exact lt_of_le_of_lt (Nat.mod_le _ _) hj'
    · rw [dget_dset_sibling _ _ _ (swMembers_bank hc) heq]
      exact (hcool c hc).resolve_left heq
  unfold thermClear
  extract_lets s0 s1 l
  rw [hlatch, Bool.not_true, Bool.false_or, if_neg hcold]
  exact if_neg (by simp only [l]; rw [hpol, hre]; simp)

theorem thermClear_members {s : State} {ch : Nat} {j : Int} :
    dget (modAll (swAll (dset s R.SBK_CH_MODEL_TJ (tjCode j) ch) ch R.SBK_CH_STAT_THERM_LATCH 0) ch
      fun c => { c with barred := true }) R.SBK_CH_MODEL_TJ ch = tjCode j % 2 ^ R.SBK_CH_MODEL_TJ.width ∧
    ∀ c ∈ swMembers s ch,
      dget (modAll (swAll (dset s R.SBK_CH_MODEL_TJ (tjCode j) ch) ch R.SBK_CH_STAT_THERM_LATCH 0) ch
        fun c => { c with barred := true }) R.SBK_CH_STAT_THERM_LATCH c = 0 ∧
      getSw (modAll (swAll (dset s R.SBK_CH_MODEL_TJ (tjCode j) ch) ch R.SBK_CH_STAT_THERM_LATCH 0) ch
        fun c => { c with barred := true }) c = { getSw s c with barred := true } := by
  have h0 : SwStep s (dset s R.SBK_CH_MODEL_TJ (tjCode j) ch) := (SwStep.refl s).writeAt _ _ (by decide)
  have h1 : SwStep s (swAll (dset s R.SBK_CH_MODEL_TJ (tjCode j) ch) ch R.SBK_CH_STAT_THERM_LATCH 0) :=
    swAll_step h0 _ _ (by decide)
  refine ⟨?_, fun c hc => ⟨?_, ?_⟩⟩
  · rw [dget_congr (modAll_regs _ _ _), dget_swAll_ne _ _ _ _ (by decide), dget_dset_self]
  · rw [dget_congr (modAll_regs _ _ _)]
    exact dget_swAll_self _ _ (by rw [h0.members]; exact hc)
  · rw [getSw_modAll _ (by rw [h1.members]; exact hc), getSw_congr (swAll_sw _ _ _ _)]
    rfl

/-! ### Open load -/

theorem noteOl_regs (s : State) (ch ma : Nat) : (noteOl s ch ma).regs = s.regs := noteOl_within.regs.resolve_left (by simp)

theorem getSw_noteOl (s : State) (ch ma c : Nat) : ∃ m, getSw (noteOl s ch ma) c = { getSw s c with ma := m } := by
  unfold noteOl
  split
  · exact ⟨_, rfl⟩
  · exact getSw_noteMa _ _ _ _

/-- A current below OL_MA for the debounce time is an open load of every member. -/
theorem openLoad_members {s : State} {ch m a : Nat} (hodd : swOdd s ch = false) (hen : dbit s R.SBK_CH_OL_OL_EN ch = true)
    (hon : (getSw s ch).on = true) (hshort : shortOn s ch (getSw s ch).duty = false) (hm : m < dval s R.SBK_CH_OL_OL_MA ch)
    (htime : max a (getSw s ch).onAt + (getSw s ch).shortTime (max a (getSw s ch).onAt) s.now +
      dval s R.SBK_CH_OL_OL_DEBOUNCE_MS ch * fcMs ≤ s.now) (hnone : dbit s R.SBK_CH_STAT_OPEN_LOAD ch = false) :
    ∀ c ∈ swMembers s ch, dget (openLoad s ch m a) R.SBK_CH_STAT_OPEN_LOAD c = 1 ∧
      dget (openLoad s ch m a) R.SBK_CH_COUNTS_OPEN_LOADS c =
        satTo R.SBK_CH_COUNTS_OPEN_LOADS.width (dget s R.SBK_CH_COUNTS_OPEN_LOADS c + 1) ∧
      (getSw (openLoad s ch m a) c).on = (getSw s c).on := by
  intro c hc
  unfold openLoad
  extract_lets v l k from_ s1
  have hregs : v.regs = s.regs := noteOl_regs _ _ _
  have hv : SwStep s v := .of_regs hregs
  have hl : l = ch := (hv.lead ch).trans (swLead_of_even hodd)
  obtain ⟨n, hn⟩ := getSw_noteOl s ch m ch
  have hk : k = { getSw s ch with ma := n } := by
    simp only [k, hl]
    exact hn
  have hfrom : from_ = max a (getSw s ch).onAt := by simp only [from_, hk]
  have hnow : v.now = s.now := noteOl_within.now.resolve_left (by simp)
  have hcond : (dbit v R.SBK_CH_OL_OL_EN l && k.on && !shortOn v l k.duty && decide (m < dval v R.SBK_CH_OL_OL_MA l) &&
      decide (from_ + k.shortTime from_ v.now + dval v R.SBK_CH_OL_OL_DEBOUNCE_MS l * fcMs ≤ v.now) &&
      !dbit v R.SBK_CH_STAT_OPEN_LOAD l) = true := by
    have hdval (f : Fld) : dval v f ch = dval s f ch := congrArg f.lim.apply (rget_congr hregs _ _ _)
    have hdbit (f : Fld) : dbit v f ch = dbit s f ch := congrArg (· == 1) (rget_congr hregs _ _ _)
    rw [hl, hfrom, hnow, hk, hdval, hdval, hdbit, hdbit, hv.shortOn]
    dsimp only
    rw [hen, hon, hshort, hnone, decide_eq_true hm]
    simp only [Bool.not_false, Bool.true_and, Bool.and_true]
    exact decide_eq_true htime
  rw [if_pos hcond]
  have hfold := foldl_pointwise (β := State)
    (fun u c => (dget u R.SBK_CH_STAT_OPEN_LOAD c, dget u R.SBK_CH_COUNTS_OPEN_LOADS c))
    (R := fun a b => b = (1, satTo R.SBK_CH_COUNTS_OPEN_LOADS.width (a.2 + 1)))
    (f := fun s c => rinc (dset s R.SBK_CH_STAT_OPEN_LOAD 1 c) R.SBK_CH_COUNTS_OPEN_LOADS 1 (c / 8) (c % 8))
    (swMembers_nodup v ch)
    (fun b a _ => by
      dsimp only
      rw [dget_rinc_ne _ _ _ _ (by decide), dget_rinc_self, dget_dset_self, dget_dset_ne _ _ _ _ (by decide)]
      rfl)
    (fun b a ha c hc hne => by
      have hb : c / 8 = a / 8 := (swMembers_bank hc).trans (swMembers_bank ha).symm
      rw [dget_rinc_ne _ _ _ _ (by decide), dget_rinc_sibling _ _ _ hb hne, dget_dset_sibling _ _ _ hb hne,
        dget_dset_ne _ _ _ _ (by decide)])
    (by rw [hv.members]; exact hc : c ∈ swMembers v ch) v
  simp only [Prod.mk.injEq] at hfold
  obtain ⟨hopen, hcount⟩ := hfold
  have hsw : s1.sw = v.sw := foldl_invariant (P := fun w : State => w.sw = v.sw) rfl fun _ _ _ hw => hw
  obtain ⟨n', hn'⟩ := getSw_noteOl s ch m c
  refine ⟨(raiseEv_within.rget _ _ _ (by decide)).trans hopen, (raiseEv_within.rget _ _ _ (by decide)).trans (hcount.trans ?_), ?_⟩
  · rw [dget_congr hregs]
  · rw [getSw_congr (raiseEv_sw _ _ _ _), getSw_congr hsw, hn']

/-! ### Feeds -/

theorem feedVolts_fields (s : State) (p mv : Nat) :
    getFeed (feedVolts s p mv) p = { getFeed s p with below := decide (mv < uvMv s p) } ∧
    (feedVolts s p mv).sw = s.sw ∧ (feedVolts s p mv).now = s.now ∧ uvMv (feedVolts s p mv) p = uvMv s p ∧
    uvHystMv (feedVolts s p mv) p = uvHystMv s p ∧
    ∀ (f : Fld) (i j : Nat), f.id ≠ R.SBK_FEED_MEAS_V_100MV.id → rget (feedVolts s p mv) f i j = rget s f i j := by
  have hread (f : Fld) (i j : Nat) (hf : f.id ≠ R.SBK_FEED_MEAS_V_100MV.id) :
      rget (feedVolts s p mv) f i j = rget s f i j := rget_rset_ne _ _ _ _ _ _ hf
  refine ⟨getFeed_setFeed_self s p _, rfl, rfl, ?_, ?_, hread⟩
  · rw [uvMv, uvMv, rval, rval, hread _ _ _ (by decide)]
  · rw [uvHystMv, uvHystMv, hread _ _ _ (by decide)]

/-- What a feed below UV_V for 50 µs does to one channel. -/
def uvOffOne (s : State) (c : Nat) : State :=
  let k := getSw s c
  let s1 := if k.duty = 0 then s else dset s R.SBK_CH_STAT_UV_OFF 1 c
  if k.on then swTurnOff s1 c else s1

theorem uvOffOne_fields (s : State) (c : Nat) : (getSw (uvOffOne s c) c).on = false ∧
    (∀ k, (getSw (uvOffOne s c) k).duty = (getSw s k).duty) ∧
    (∀ k, (getSw s k).on = false → (getSw (uvOffOne s c) k).on = false) ∧
    ((getSw s c).duty ≠ 0 → dget (uvOffOne s c) R.SBK_CH_STAT_UV_OFF c = 1) ∧
    (∀ k, dget s R.SBK_CH_STAT_UV_OFF k = 1 → dget (uvOffOne s c) R.SBK_CH_STAT_UV_OFF k = 1) ∧
    (uvOffOne s c).feed = s.feed := by
  unfold uvOffOne
  extract_lets k s1
  have hsw : s1.sw = s.sw := by
    simp only [s1]
    split <;> rfl
  have hfeed : s1.feed = s.feed := by
    simp only [s1]
    split <;> rfl
  have hset : (getSw s c).duty ≠ 0 → dget s1 R.SBK_CH_STAT_UV_OFF c = 1 := fun h => by
    simp only [s1]
    rw [if_neg h]
    exact dget_dset_self _ _ _ _
  have hkeep (k : Nat) (h : dget s R.SBK_CH_STAT_UV_OFF k = 1) : dget s1 R.SBK_CH_STAT_UV_OFF k = 1 := by
    simp only [s1]
    split
    · exact h
    · exact dget_dset_same _ h
  split
  · refine ⟨?_, fun k => ?_, fun k h => ?_, fun h => ?_, fun k h => ?_, ?_⟩
    · rw [getSw_swTurnOff (mem_swMembers_self _ _)]
    · rw [duty_swTurnOff, getSw_congr hsw]
    · exact off_swTurnOff _ (by rw [getSw_congr hsw]; exact h)
    · rw [dget_swTurnOff _ _ _ (by decide)]
      exact hset h
    · rw [dget_swTurnOff _ _ _ (by decide)]
      exact hkeep k h
    · exact (swTurnOff_within.feed.resolve_left (by simp)).trans hfeed
  · rename_i hoff
    refine ⟨?_, fun k => ?_, fun k h => ?_, hset, hkeep, hfeed⟩
    · rw [getSw_congr hsw]
      exact Bool.eq_false_iff.mpr hoff
    · rw [getSw_congr hsw]
    · rw [getSw_congr hsw]
      exact h

/-- The whole plane goes off. -/
theorem uvOff_plane (s : State) (l : List Nat) : (l.foldl uvOffOne s).feed = s.feed ∧
    ∀ c ∈ l, (getSw (l.foldl uvOffOne s) c).on = false ∧
      ((getSw s c).duty ≠ 0 → dget (l.foldl uvOffOne s) R.SBK_CH_STAT_UV_OFF c = 1) := by
  refine ⟨foldl_invariant (P := fun v : State => v.feed = s.feed) rfl fun v c _ hv =>
    (uvOffOne_fields v c).2.2.2.2.2.trans hv, ?_⟩
  refine foldl_reaches (I := fun v => ∀ k, (getSw v k).duty = (getSw s k).duty)
    (Q := fun c v => (getSw v c).on = false ∧ ((getSw s c).duty ≠ 0 → dget v R.SBK_CH_STAT_UV_OFF c = 1)) ?_ ?_ ?_ fun _ => rfl
  · intro v c hv k
    obtain ⟨-, hduty, -⟩ := uvOffOne_fields v c
    exact (hduty k).trans (hv k)
  · intro v c hv
    obtain ⟨hoff, -, -, hset, -⟩ := uvOffOne_fields v c
    exact ⟨hoff, fun h => hset (by rw [hv]; exact h)⟩
  · intro v c k ⟨hoff, hset⟩
    obtain ⟨-, -, hkeepOff, -, hkeep, -⟩ := uvOffOne_fields v c
    exact ⟨hkeepOff k hoff, fun h => hkeep k (hset h)⟩

/-- A feed below UV_V for 50 µs holds its plane off. -/
theorem feedUv_plane {s : State} {p mv a : Nat} (hmv : mv < uvMv s p) (ha : a + 50 * fcUs ≤ s.now) :
    (getFeed (feedUv s p mv a) p).uv = true ∧ (getFeed (feedUv s p mv a) p).restart = [] ∧
    ∀ c ∈ planeChans p, (getSw (feedUv s p mv a) c).on = false ∧
      ((getSw s c).duty ≠ 0 → dget (feedUv s p mv a) R.SBK_CH_STAT_UV_OFF c = 1) := by
  obtain ⟨-, hsw, hnow, hlim, -, -⟩ := feedVolts_fields s p mv
  unfold feedUv
  extract_lets v f told s1
  rw [if_neg (by rw [hlim]; omega), if_neg (by rw [hnow]; omega)]
  obtain ⟨x, hx⟩ : ∃ x : Feed, x = { f with uv := true, fallAt := some a, toldAt := some a, restart := [] } := ⟨_, rfl⟩
  have hfold : s1 = (planeChans p).foldl uvOffOne (setFeed v p x) := by
    rw [hx]
    rfl
  obtain ⟨hfeed, hplane⟩ := uvOff_plane (setFeed v p x) (planeChans p)
  rw [← hfold] at hfeed hplane
  clear_value s1
  have hduty (c : Nat) : (getSw (setFeed v p x) c).duty = (getSw s c).duty := congrArg SwCh.duty (getSw_congr hsw c)
  have hs1 : (getFeed s1 p).uv = true ∧ (getFeed s1 p).restart = [] := by
    rw [getFeed_congr hfeed, getFeed_setFeed_self, hx]
    exact ⟨rfl, rfl⟩
  have hoff (c : Nat) (hc : c ∈ planeChans p) : (getSw s1 c).on = false ∧
      ((getSw s c).duty ≠ 0 → dget s1 R.SBK_CH_STAT_UV_OFF c = 1) := by
    rw [← hduty c]
    exact hplane c hc
  split
  · exact ⟨hs1.1, hs1.2, hoff⟩
  · rw [getFeed_congr (raiseEv_feed _ _ _ _)]
    refine ⟨hs1.1, hs1.2, fun c hc => ?_⟩
    rw [getSw_congr (raiseEv_sw _ _ _ _)]
    refine ⟨(hoff c hc).1, fun h => (raiseEv_within.rget _ _ _ (by decide)).trans ((hoff c hc).2 h)⟩

/-- After RESTART_DELAY above the threshold UV_OFF clears for the whole plane. -/
theorem uvEnd_plane {s : State} {p mv a : Nat} (huv : (getFeed s p).uv = true) (hmv : uvMv s p + uvHystMv s p ≤ mv)
    (hfall : (getFeed s p).fallAt.all (fun x => decide (x ≤ a)) = true)
    (ha : a + rval s R.SBK_FEED_UV_RESTART_10MS (feedInst p) * 10 * fcMs ≤ s.now) :
    (getFeed (uvEnd s p mv a) p).uv = false ∧ (getFeed (uvEnd s p mv a) p).restartAt = s.now ∧
    (∀ c ∈ planeChans p, dget (uvEnd s p mv a) R.SBK_CH_STAT_UV_OFF c = 0) ∧ (uvEnd s p mv a).sw = s.sw := by
  obtain ⟨hfeed, hsw, hnow, hlim, hhyst, hread⟩ := feedVolts_fields s p mv
  unfold uvEnd
  extract_lets v f due s1
  have hf : f = { getFeed s p with below := decide (mv < uvMv s p) } := hfeed
  have hany : ¬f.fallAt.any (fun x => decide (a < x)) = true := by
    rw [hf]
    cases hx : (getFeed s p).fallAt with
    | none => simp
    | some x =>
      rw [hx] at hfall
      simpa using hfall
  have hcond : ¬((!f.uv) = true ∨ mv < uvMv v p + uvHystMv v p ∨ f.fallAt.any (fun x => decide (a < x)) = true ∨
      v.now < a + rval v R.SBK_FEED_UV_RESTART_10MS (feedInst p) * 10 * fcMs) := by
    have hval : rval v R.SBK_FEED_UV_RESTART_10MS (feedInst p) = rval s R.SBK_FEED_UV_RESTART_10MS (feedInst p) :=
      congrArg _ (hread _ _ _ (by decide))
    rw [hlim, hhyst, hval, hnow, not_or, not_or, not_or]
    exact ⟨by rw [hf]; simp [huv], by omega, hany, by omega⟩
  rw [if_neg hcond]
  have hclear : ∀ c ∈ planeChans p, dget s1 R.SBK_CH_STAT_UV_OFF c = 0 % 2 ^ R.SBK_CH_STAT_UV_OFF.width :=
    foldl_reaches (f := fun s c => dset s R.SBK_CH_STAT_UV_OFF 0 c) (I := fun _ => True)
      (Q := fun c u => dget u R.SBK_CH_STAT_UV_OFF c = 0 % 2 ^ R.SBK_CH_STAT_UV_OFF.width) (fun _ _ _ => trivial)
      (fun u c _ => dget_dset_self u R.SBK_CH_STAT_UV_OFF 0 c) (fun _ c _ h => dget_dset_same c h) trivial
  have hsw1 : s1.sw = v.sw := foldl_invariant (P := fun w : State => w.sw = v.sw) rfl fun _ _ _ hw => hw
  have hsw2 : s1.sw = s.sw := hsw1.trans hsw
  have hnow2 : v.now = s.now := hnow
  clear_value s1 due f v
  refine ⟨by rw [getFeed_setFeed_self], by rw [getFeed_setFeed_self]; exact hnow2, fun c hc => ?_, hsw2⟩
  exact (hclear c hc).trans (Nat.zero_mod _)

end Sys2Proof.Machine
end

section
/-! Restarts after an under-voltage, shedding (R217, R222), and what the switch banks' statements say. -/

namespace Sys2Proof.Machine

/-! ### Turns after an under-voltage -/

theorem shedComes_setFeed {s : State} {p : Nat} {x : Feed} (hx : x.shedAt = (getFeed s p).shedAt) (q a n : Nat) :
    shedComes (setFeed s p x) q a n = shedComes s q a n := by
  have hat : (getFeed (setFeed s p x) q).shedAt = (getFeed s q).shedAt := by
    rw [getFeed, setFeed, tblGetD_set]
    split
    · rename_i h
      rw [hx, h]
    · rfl
  unfold shedComes
  rw [hat]
  rfl

theorem heldNow_setFeed {s : State} {p : Nat} {x : Feed} (hx : x.shedAt = (getFeed s p).shedAt) (ch : Nat) :
    heldNow (setFeed s p x) ch = heldNow s ch := by
  unfold heldNow
  simp only [shedComes_setFeed hx]
  rfl

/-- The first channel of the queue takes its turn. -/
theorem uvStep_turn {s : State} {p c : Nat} {l : List Nat} (hl : (getFeed s p).restart = c :: l)
    (ht : (getFeed s p).restartAt ≤ s.now) : uvStep s p =
      swDue (setFeed s p { getFeed s p with restart := l, restartAt := s.now + 500 * fcUs }) c := by
  unfold uvStep
  dsimp only
  rw [hl]
  exact if_neg (Nat.not_lt.mpr ht)

/-! ### Shedding -/

theorem shedRank_congr {s u : State} (h : SwStep s u) (hsw : u.sw = s.sw) (p : Nat) : shedRank u p = shedRank s p := by
  unfold shedRank
  refine congrArg (fun f => List.find? f _) (funext fun r => any_congr_mem fun c _ => ?_)
  rw [getSw_congr hsw, h.lead, h.dget R.SBK_CH_PROT_SHED_RANK _ (by decide) (by decide)]

theorem rset_meas_step (s : State) (v p : Nat) : SwStep s (rset s R.SBK_FEED_MEAS_I_A v (feedInst p)) :=
  (SwStep.refl s).write _ _ _ (by decide)

/-- The channels of a rank. -/
def rankChans (s : State) (p r : Nat) : List Nat :=
  (planeChans p).filter fun c => dget s R.SBK_CH_PROT_SHED_RANK (swLead s c) == r

theorem rankChans_congr {s u : State} (h : SwStep s u) (p r : Nat) : rankChans u p r = rankChans s p r := by
  unfold rankChans
  refine congrArg (fun f => List.filter f _) (funext fun c => ?_)
  rw [h.lead, h.dget R.SBK_CH_PROT_SHED_RANK _ (by decide) (by decide)]

theorem mem_rankChans {s : State} {p r c : Nat} (hc : c ∈ planeChans p)
    (hr : dget s R.SBK_CH_PROT_SHED_RANK (swLead s c) = r) : c ∈ rankChans s p r :=
  List.mem_filter.mpr ⟨hc, beq_iff_eq.mpr hr⟩

/-- The lowest rank still on is shed. -/
theorem planeShed_sheds {s : State} {p a n r : Nat} (hlim : rval s R.SBK_FEED_LIMIT_LIMIT_A (feedInst p) < a)
    (ht : max n (getFeed s p).shedAt + 5 * fcMs ≤ s.now) (hr : shedRank s p = some r) : planeShed s p a n =
      raiseEv (setFeed ((rankChans s p r).foldl (fun s c => dset (swTurnOff s c) R.SBK_CH_STAT_SHED 1 c)
          (rset s R.SBK_FEED_MEAS_I_A (min a 511) (feedInst p))) p
        { getFeed s p with shed := r :: (getFeed s p).shed, shedAt := s.now }) evSbkShed (feedInst p) := by
  have hstep := rset_meas_step s (min a 511) p
  have hval : rval (rset s R.SBK_FEED_MEAS_I_A (min a 511) (feedInst p)) R.SBK_FEED_LIMIT_LIMIT_A (feedInst p) =
      rval s R.SBK_FEED_LIMIT_LIMIT_A (feedInst p) := congrArg _ (hstep _ _ _ (by decide) (by decide))
  have hcomes : shedComes (rset s R.SBK_FEED_MEAS_I_A (min a 511) (feedInst p)) p a n = true := by
    unfold shedComes
    rw [hval, decide_eq_true hlim, Bool.true_and]
    exact decide_eq_true ht
  unfold planeShed
  dsimp only
  rw [hval, if_neg (Nat.not_le.mpr hlim), hcomes, if_neg (by simp), shedRank_congr hstep rfl, hr]
  dsimp only
  rw [show (planeChans p).filter _ = _ from rankChans_congr hstep p r]
  rfl

theorem shed_members (s : State) (l : List Nat) :
    ∀ c ∈ l, (getSw (l.foldl (fun s c => dset (swTurnOff s c) R.SBK_CH_STAT_SHED 1 c) s) c).on = false ∧
      dget (l.foldl (fun s c => dset (swTurnOff s c) R.SBK_CH_STAT_SHED 1 c) s) R.SBK_CH_STAT_SHED c = 1 := by
  refine foldl_reaches (I := fun _ => True)
    (Q := fun c v => (getSw v c).on = false ∧ dget v R.SBK_CH_STAT_SHED c = 1) (fun _ _ _ => trivial) ?_ ?_ trivial
  · intro v c _
    refine ⟨?_, dget_dset_self _ _ _ _⟩
    show (getSw (swTurnOff v c) c).on = false
    rw [getSw_swTurnOff (mem_swMembers_self v c)]
  · intro v c k ⟨hoff, hshed⟩
    refine ⟨?_, dget_dset_same (v := 1) c ?_⟩
    · show (getSw (swTurnOff v c) k).on = false
      exact off_swTurnOff c hoff
    · rw [dget_swTurnOff _ _ _ (by decide)]
      exact hshed

/-- One channel of a restored rank. -/
def restoreOne (p : Nat) (s : State) (c : Nat) : State :=
  let s1 := dset s R.SBK_CH_STAT_SHED 0 c
  if swStopped s1 c || (getFeed s1 p).uv || swQueued s1 c || (getSw s1 c).duty == 0 then s1
  else modSw s1 c fun k =>
    ({ k with on := true, onAt := s1.now, rearmed := false } : SwCh).noteShort s1.now (shortOn s1 c k.duty)

theorem restoreOne_regs (p : Nat) (s : State) (c : Nat) : (restoreOne p s c).regs = (dset s R.SBK_CH_STAT_SHED 0 c).regs := by
  unfold restoreOne
  dsimp only
  split <;> rfl

/-- The shed channels of a rank. -/
def shedChans (s : State) (p r : Nat) : List Nat :=
  (planeChans p).filter fun c => dget s R.SBK_CH_PROT_SHED_RANK (swLead s c) == r && dbit s R.SBK_CH_STAT_SHED c

theorem mem_shedChans {s : State} {p r c : Nat} (hc : c ∈ planeChans p)
    (hr : dget s R.SBK_CH_PROT_SHED_RANK (swLead s c) = r) (hshed : dbit s R.SBK_CH_STAT_SHED c = true) :
    c ∈ shedChans s p r :=
  List.mem_filter.mpr ⟨hc, by rw [hr, hshed]; simp⟩

/-- The latest rank is restored. -/
theorem shedRestore_restores {s : State} {p a n r : Nat} {l : List Nat} (hl : (getFeed s p).shed = r :: l)
    (hlim : 10 * a < 9 * rval s R.SBK_FEED_LIMIT_LIMIT_A (feedInst p))
    (ht : max n (getFeed s p).shedAt + fcSec ≤ s.now) : shedRestore s p a n =
      setFeed ((shedChans s p r).foldl (restoreOne p) (rset s R.SBK_FEED_MEAS_I_A (min a 511) (feedInst p))) p
        { getFeed s p with shed := l, shedAt := s.now, overTold := false } := by
  have hstep := rset_meas_step s (min a 511) p
  have hval : rval (rset s R.SBK_FEED_MEAS_I_A (min a 511) (feedInst p)) R.SBK_FEED_LIMIT_LIMIT_A (feedInst p) =
      rval s R.SBK_FEED_LIMIT_LIMIT_A (feedInst p) := congrArg _ (hstep _ _ _ (by decide) (by decide))
  have hchans : shedChans (rset s R.SBK_FEED_MEAS_I_A (min a 511) (feedInst p)) p r = shedChans s p r := by
    unfold shedChans
    refine congrArg (fun f => List.filter f _) (funext fun c => ?_)
    rw [hstep.lead, hstep.dget R.SBK_CH_PROT_SHED_RANK _ (by decide) (by decide), dbit, rbit,
      rget_rset_ne _ _ _ _ _ _ (by decide)]
    rfl
  unfold shedRestore
  extract_lets v f
  have hf : f = getFeed s p := rfl
  rw [hf, hl]
  dsimp only
  rw [hval, if_neg ?_]
  · rw [← hchans]
    rfl
  · rw [not_or]
    exact ⟨by omega, Nat.not_lt.mpr ht⟩

theorem restore_members (p : Nat) (s : State) (l : List Nat) :
    ∀ c ∈ l, dget (l.foldl (restoreOne p) s) R.SBK_CH_STAT_SHED c = 0 := by
  refine foldl_reaches (I := fun _ => True) (Q := fun c v => dget v R.SBK_CH_STAT_SHED c = 0) (fun _ _ _ => trivial) ?_ ?_ trivial
  · intro v c _
    rw [dget_congr (restoreOne_regs p v c)]
    exact dget_dset_self _ _ _ _
  · intro v c k h
    rw [dget_congr (restoreOne_regs p v c)]
    exact dget_dset_same (v := 0) c h

/-! ### O29 -/

/-- What a retry meets in a tripped channel under POLICY 1 whose wire has cooled and which nothing holds off. -/
theorem retryRestart_due {s : State} {ch : Nat} (hodd : swOdd s ch = false) (htrip : dbit s R.SBK_CH_STAT_TRIPPED ch = true)
    (hpol : dbit s R.SBK_CH_PROT_POLICY ch = true) (hth : swTheta s ch ≤ 1 / 2) (hq : swQueued s ch = false)
    (hon : (getSw s ch).on = false) (hheld : heldNow s ch = false) (hlatch : dbit s R.SBK_CH_STAT_THERM_LATCH ch = false)
    (hlock : dbit s R.SBK_CH_STAT_LOCKED ch = false) (huv : (getFeed s (ch / 48)).uv = false)
    (huvoff : dbit s R.SBK_CH_STAT_UV_OFF ch = false) (hshed : dbit s R.SBK_CH_STAT_SHED ch = false)
    (hduty : (getSw s ch).duty ≠ 0) (hbar : (getSw s ch).barred = false) : retryRestart s ch =
      if dget s R.SBK_CH_STAT_RETRIES_USED ch < dget s R.SBK_CH_PROT_RETRY_MAX ch then swRestart s ch false
      else raiseEv (swAll s ch R.SBK_CH_STAT_LOCKED 1) evSbkLocked (ch / 8) := by
  have hlead := swLead_of_even hodd
  unfold retryRestart
  rw [hlead, htrip, hpol, Bool.and_self, if_pos rfl,
    swDue_restarts hlead hlatch hlock (.inr ⟨hpol, hth⟩) huv huvoff hshed hduty hbar hon hq hheld, hpol]
  simp

/-- Settles O29. -/
theorem switchProtection : Obligations.SwitchProtection := by
  unfold Obligations.SwitchProtection
  refine ⟨?wire, ?fuse, ?inrush, ?limit, ?latch, ?cool, ?retry, ?lock, ?window, ?openLoad, ?openClear, ?uv, ?uvEnd, ?uvStep,
    ?shed, ?restore⟩
  case wire =>
    intro s t ch own other sums hpow hodd hsums hlt
    obtain ⟨u, b, hrun, hset, hon, -, -, hw⟩ := wireUpdate_fields (advance s t) ch own other hodd
    have hsums' : wireSums (advance s t) ch own other = sums := hsums.symm
    rw [hsums'] at hrun hset
    have hlow : ¬(1 ≤ wireFast (advance s t) ch sums + wireSlow (advance s t) ch sums) := not_le.mpr hlt
    rw [decide_eq_false hlow, Bool.false_and, if_neg (by simp)] at hrun
    refine ⟨u, (atPlane_powered s t _ (fun s => wireUpdate s ch own other) hpow).trans (congrArg _ hrun), fun c hc => ?_,
      hw.blocksOnly, hw.eq_frame⟩
    obtain ⟨hf, hg, hth⟩ := hset c hc
    exact ⟨hf, hg, hth, hon c⟩
  case fuse =>
    intro s t ch own other sums hpow hodd hsums hge hon'
    obtain ⟨u, b, hrun, hset, hon, hstep, hcount, hw⟩ := wireUpdate_fields (advance s t) ch own other hodd
    have hsums' : wireSums (advance s t) ch own other = sums := hsums.symm
    rw [hsums'] at hrun
    have hhigh : 1 ≤ wireFast (advance s t) ch sums + wireSlow (advance s t) ch sums := hge
    rw [decide_eq_true hhigh, show (getSw (advance s t) ch).on = true from hon', Bool.true_or, Bool.and_true, if_pos rfl] at hrun
    have hw' : Within [.regs, .mem, .extMem, .log, .sw] (blks [.sbk, .hlm, .jrn]) (advance s t) (swTrip u ch 1) :=
      swTrip_within.step (hw.mono rfl rfl) rfl rfl
    refine ⟨_, (atPlane_powered s t _ (fun s => wireUpdate s ch own other) hpow).trans (congrArg _ hrun), fun c hc => ?_,
      hw'.blocksOnly, hw'.eq_frame⟩
    obtain ⟨htrip, hcause, hoff, -, htrips⟩ := swTrip_members 1 (by rw [hstep.members]; exact hc : c ∈ swMembers u ch)
    exact ⟨htrip, hcause, hoff, htrips.trans (by rw [hcount]; rfl)⟩
  case inrush =>
    intro s t ch a hpow hheld hsince ha
    have hrun := inrush_trips (s := advance s t) hheld hsince ha
    have hw : Within [.regs, .mem, .extMem, .log, .sw] (blks [.sbk, .hlm, .jrn]) (advance s t) (swTrip (advance s t) ch 2) :=
      swTrip_within.mono rfl rfl
    refine ⟨_, (atPlane_powered s t _ (fun s => inrush s ch) hpow).trans (congrArg _ hrun), fun c hc => ?_,
      hw.blocksOnly, hw.eq_frame⟩
    exact swTrip_members 2 (hc : c ∈ swMembers (advance s t) ch)
  case limit =>
    intro s t ch hpow hc hl
    have hrun := inLimit_starts (s := advance s t) hc hl
    have hw : Within [.sw] [] (advance s t) (modAll (advance s t) ch fun c =>
      { c with limitSince := some (advance s t).now, limitLast := (advance s t).now, recLimit := true }) := modAll_within
    refine ⟨_, (atPlane_powered s t _ (fun s => inLimit s ch) hpow).trans (congrArg _ hrun), fun c hc => ?_, hw.eq_frame⟩
    rw [getSw_modAll (s := advance s t) _ hc]
    exact ⟨rfl, rfl⟩
  case latch =>
    intro s t ch j hpow hj hlatch
    obtain ⟨htj, hset⟩ := thermSet_members (s := advance s t) hj hlatch
    have hw : Within [.regs, .mem, .extMem, .log, .sw] (blks [.sbk, .hlm, .jrn]) (advance s t) (thermSet (advance s t) ch j) :=
      thermSet_within
    exact ⟨_, atPlane_powered s t _ (fun s => thermSet s ch j) hpow, htj, hset, hw.blocksOnly, hw.eq_frame⟩
  case cool =>
    intro s t ch j hpow hj hcool hlatch hpol hre
    have hrun := thermClear_bars (s := advance s t) hj hcool hlatch hpol hre
    obtain ⟨htj, hset⟩ := thermClear_members (s := advance s t) (ch := ch) (j := j)
    have hw : Within [.regs, .sw] (blks [.sbk]) (advance s t) (modAll (swAll (dset (advance s t) R.SBK_CH_MODEL_TJ (tjCode j) ch)
        ch R.SBK_CH_STAT_THERM_LATCH 0) ch fun c => { c with barred := true }) :=
      modAll_within.step (swAll_within.step (dset_within.step (.refl _) rfl rfl) rfl rfl) rfl rfl
    refine ⟨_, (atPlane_powered s t _ (fun s => thermClear s ch j) hpow).trans (congrArg _ hrun), htj, fun c hc => ?_,
      hw.blocksOnly, hw.eq_frame⟩
    obtain ⟨hclear, hrec⟩ := hset c hc
    rw [hrec]
    exact ⟨hclear, rfl, rfl⟩
  case retry =>
    intro s t ch hpow hodd htrip hpol hth hq hon hheld hlatch hlock huv huvoff hshed hduty hbar hused
    have hrun := (retryRestart_due (s := advance s t) hodd htrip hpol hth hq hon hheld hlatch hlock huv huvoff hshed hduty
      hbar).trans (if_pos hused)
    have hw : Within [.regs, .sw] (blks [.sbk]) (advance s t) (swRestart (advance s t) ch false) := swRestart_within
    refine ⟨_, (atPlane_powered s t _ (fun s => retryRestart s ch) hpow).trans (congrArg _ hrun), fun c hc => ?_,
      hw.blocksOnly, hw.eq_frame⟩
    have hr := swRestart_members (s := advance s t) false hc
    exact ⟨hr.tripped, hr.on, hr.restarts, hr.retries rfl, hr.window⟩
  case lock =>
    intro s t ch hpow hodd htrip hpol hth hq hon hheld hlatch hlock huv huvoff hshed hduty hbar hused
    have hrun := (retryRestart_due (s := advance s t) hodd htrip hpol hth hq hon hheld hlatch hlock huv huvoff hshed hduty
      hbar).trans (if_neg (Nat.not_lt.mpr hused))
    exact (atPlane_powered s t _ (fun s => retryRestart s ch) hpow).trans (congrArg _ hrun)
  case window =>
    intro s t ch w hpow hw ht
    refine (atPlane_powered s t _ (fun s => retryWindow s ch) hpow).trans (congrArg _ ?_)
    unfold retryWindow
    rw [show (getSw (advance s t) ch).window = some w from hw]
    exact if_pos ht
  case openLoad =>
    intro s t ch m a hpow hodd hen hon hshort hm ht hnone
    have hset := openLoad_members (s := advance s t) hodd hen hon hshort hm ht hnone
    have hw : Within [.regs, .mem, .extMem, .log, .sw] (blks [.sbk, .hlm, .jrn]) (advance s t) (openLoad (advance s t) ch m a) :=
      openLoad_within.mono rfl rfl
    exact ⟨_, atPlane_powered s t _ (fun s => openLoad s ch m a) hpow, hset, hw.blocksOnly, hw.eq_frame⟩
  case openClear =>
    intro s t ch m hpow hm hshort
    refine (atPlane_powered s t _ (fun s => openLoadClear s ch m) hpow).trans (congrArg _ ?_)
    unfold openLoadClear
    extract_lets l v
    have hv : SwStep (advance s t) v := .of_regs (noteOl_regs _ _ _)
    obtain ⟨n, hn⟩ := getSw_noteOl (advance s t) ch m l
    rw [if_pos]
    · rfl
    · refine ⟨?_, ?_⟩
      · rw [show dval v R.SBK_CH_OL_OL_MA l = dval s R.SBK_CH_OL_OL_MA l from
          congrArg R.SBK_CH_OL_OL_MA.lim.apply (rget_congr (noteOl_regs _ _ _) _ _ _)]
        exact hm
      · rw [hv.shortOn, show getSw v l = _ from hn]
        simp only [Bool.not_eq_true']
        exact hshort
  case uv =>
    intro s t p mv a hpow hmv ha
    obtain ⟨huv, hres, hset⟩ := feedUv_plane (s := advance s t) hmv ha
    have hw : Within [.regs, .mem, .extMem, .log, .sw, .feed] (blks [.sbk, .hlm, .jrn]) (advance s t)
      (feedUv (advance s t) p mv a) := feedUv_within
    exact ⟨_, atPlane_powered s t _ (fun s => feedUv s p mv a) hpow, huv, hres, hset, hw.blocksOnly⟩
  case uvEnd =>
    intro s t p mv a hpow huv hmv hfall ha
    obtain ⟨huv', hat, hset, hsw⟩ := uvEnd_plane (s := advance s t) huv hmv hfall ha
    have hw : Within [.regs, .feed] (blks [.sbk]) (advance s t) (uvEnd (advance s t) p mv a) := uvEnd_within
    exact ⟨_, atPlane_powered s t _ (fun s => uvEnd s p mv a) hpow, huv', hat, hset, hsw, hw.blocksOnly, hw.eq_frame⟩
  case uvStep =>
    intro s t p c0 l hpow hl ht huv hplane hnot hodd hstop huvoff hduty hon hheld hused
    have hrun := uvStep_turn (s := advance s t) hl ht
    obtain ⟨x, hx⟩ : ∃ x : Feed, x = { getFeed s p with restart := l, restartAt := max s.now t + 500 * fcUs } := ⟨_, rfl⟩
    replace hrun : uvStep (advance s t) p = swDue (setFeed (advance s t) p x) c0 := by
      rw [hx]
      exact hrun
    have hfeed : getFeed (setFeed (advance s t) p x) (c0 / 48) = x := by
      rw [hplane]
      exact getFeed_setFeed_self _ _ _
    have hlead : swLead (setFeed (advance s t) p x) c0 = c0 := swLead_of_even hodd
    simp only [swStopped, Bool.or_eq_false_iff] at hstop
    obtain ⟨⟨⟨⟨htrip, hlatch⟩, hlock⟩, hshed⟩, hbar⟩ := hstop
    have hq : swQueued (setFeed (advance s t) p x) c0 = false := by
      unfold swQueued
      rw [hfeed, hlead, hx]
      simpa using hnot
    have hheld' : heldNow (setFeed (advance s t) p x) c0 = false :=
      (heldNow_setFeed (by rw [hx]; rfl) c0).trans hheld
    have huv' : (getFeed (setFeed (advance s t) p x) (c0 / 48)).uv = false := by
      rw [hfeed, hx]
      exact huv
    have hdue := swDue_restarts (s := setFeed (advance s t) p x) hlead hlatch hlock (.inl htrip) huv' huvoff hshed hduty hbar hon
      hq hheld'
    rw [if_pos (by rw [Bool.or_eq_true]; exact .inr (decide_eq_true hused))] at hdue
    generalize (!dbit (setFeed (advance s t) p x) R.SBK_CH_PROT_POLICY c0 && (getSw (setFeed (advance s t) p x) c0).rearmed) =
      free at hdue
    have hw : Within [.regs, .feed, .sw] (blks [.sbk]) (advance s t) (swRestart (setFeed (advance s t) p x) c0 free) :=
      swRestart_within.step (setFeed_within.step (.refl _) rfl rfl) rfl rfl
    have hkeep : getFeed (swRestart (setFeed (advance s t) p x) c0 free) p = x := by
      rw [getFeed_congr (swRestart_within.feed.resolve_left (by simp)), getFeed_setFeed_self]
    refine ⟨_, (atPlane_powered s t _ (fun s => uvStep s p) hpow).trans (congrArg _ (hrun.trans hdue)), ?_, ?_, fun c hc => ?_,
      hw.blocksOnly, hw.eq_frame⟩
    · rw [hkeep, hx]
    · rw [hkeep, hx]
      rfl
    · have hr := swRestart_members (s := setFeed (advance s t) p x) free hc
      exact ⟨hr.on, hr.duty⟩
  case shed =>
    intro s t p a n r hpow hlim ht hr
    have hrun := planeShed_sheds (s := advance s t) hlim ht hr
    have hw : Within [.regs, .mem, .extMem, .log, .sw, .feed] (blks [.sbk, .hlm, .jrn]) (advance s t)
      (planeShed (advance s t) p a n) := planeShed_within
    rw [hrun] at hw
    refine ⟨_, (atPlane_powered s t _ (fun s => planeShed s p a n) hpow).trans (congrArg _ hrun), ?_, ?_, fun c hc hrank => ?_,
      hw.blocksOnly⟩
    · rw [getFeed_congr (raiseEv_feed _ _ _ _), getFeed_setFeed_self]
      rfl
    · rw [getFeed_congr (raiseEv_feed _ _ _ _), getFeed_setFeed_self]
      rfl
    · obtain ⟨hoff, hshed⟩ := shed_members (rset (advance s t) R.SBK_FEED_MEAS_I_A (min a 511) (feedInst p)) _ c
        (mem_rankChans (s := advance s t) hc hrank)
      rw [getSw_congr (raiseEv_sw _ _ _ _)]
      exact ⟨hoff, (raiseEv_within.rget _ _ _ (by decide)).trans hshed⟩
  case restore =>
    intro s t p a n r l hpow hl hlim ht
    have hrun := shedRestore_restores (s := advance s t) hl hlim ht
    have hw : Within [.regs, .sw, .feed] (blks [.sbk]) (advance s t) (shedRestore (advance s t) p a n) := shedRestore_within
    rw [hrun] at hw
    refine ⟨_, (atPlane_powered s t _ (fun s => shedRestore s p a n) hpow).trans (congrArg _ hrun), ?_, ?_,
      fun c hc hrank hshed => ?_, hw.blocksOnly, hw.eq_frame⟩
    · rw [getFeed_setFeed_self]
    · rw [getFeed_setFeed_self]
      rfl
    · exact restore_members p _ _ c (mem_shedChans (s := advance s t) hc hrank hshed)

/-- Settles O52, by O28 and O29. -/
theorem switchBanksComplete : Obligations.SwitchBanksComplete := by
  obtain ⟨set, -, rearm⟩ := switchCommands
  obtain ⟨wire, -, inrush, limit, latch, cool, retry, -, window, openLoad, openClear, uv, uvEnd, uvStep, shed, restore⟩ :=
    switchProtection
  unfold Obligations.SwitchBanksComplete
  refine ⟨?_, ?_, ?_, ?_, ?_, ?_, ?_, ?_, ?_, ?_, ?_, ?_, ?_, ?_, ?_, ?_⟩
  · intro s t ch q d h1 h2 h3 h4 h5 h6 h7 h8 h9 h10 h11 h12
    obtain ⟨u, hu, hset, hpassed, -⟩ := set s t ch q d h1 h2 h3 h4 h5 h6 h7 h8 h9 h10 h11 h12
    exact ⟨u, hu, hset, hpassed⟩
  · intro s t ch q h1 h2 h3 h4 h5 h6 h7 h8
    obtain ⟨u, hu, hset, hpassed, -⟩ := rearm s t ch q h1 h2 h3 h4 h5 h6 h7 h8
    exact ⟨u, hu, hset, hpassed⟩
  · intro s t ch own other sums h1 h2 h3 h4
    obtain ⟨u, hu, hset, -⟩ := wire s t ch own other sums h1 h2 h3 h4
    exact ⟨u, hu, hset⟩
  · intro s t ch a h1 h2 h3 h4
    obtain ⟨u, hu, hset, -⟩ := inrush s t ch a h1 h2 h3 h4
    exact ⟨u, hu, hset⟩
  · intro s t ch h1 h2 h3
    obtain ⟨u, hu, hset, -⟩ := limit s t ch h1 h2 h3
    exact ⟨u, hu, hset⟩
  · intro s t ch j h1 h2 h3
    obtain ⟨u, hu, -, hset, -⟩ := latch s t ch j h1 h2 h3
    exact ⟨u, hu, hset⟩
  · intro s t ch j h1 h2 h3 h4 h5 h6
    obtain ⟨u, hu, -, hset, -⟩ := cool s t ch j h1 h2 h3 h4 h5 h6
    exact ⟨u, hu, hset⟩
  · intro s t ch h1 h2 h3 h4 h5 h6 h7 h8 h9 h10 h11 h12 h13 h14 h15 h16
    obtain ⟨u, hu, hset, -⟩ := retry s t ch h1 h2 h3 h4 h5 h6 h7 h8 h9 h10 h11 h12 h13 h14 h15 h16
    exact ⟨u, hu, hset⟩
  · intro s t ch w h1 h2 h3
    refine ⟨_, window s t ch w h1 h2 h3, fun c hc => ⟨?_, ?_⟩⟩
    · rw [getSw_congr (swAll_sw _ _ _ _), getSw_modAll (s := advance s t) _ hc]
    · exact dget_swAll_self _ _ (by rw [(SwStep.of_regs (modAll_regs _ _ _)).members]; exact hc)
  · intro s t ch m a h1 h2 h3 h4 h5 h6 h7 h8
    obtain ⟨u, hu, hset, -⟩ := openLoad s t ch m a h1 h2 h3 h4 h5 h6 h7 h8
    exact ⟨u, hu, hset⟩
  · intro s t ch m h1 h2 h3
    refine ⟨_, openClear s t ch m h1 h2 h3, fun c hc => dget_swAll_self _ _ ?_⟩
    split
    · exact hc
    · exact hc
  · intro s t p mv a h1 h2 h3
    obtain ⟨u, hu, huv, -, hset, -⟩ := uv s t p mv a h1 h2 h3
    exact ⟨u, hu, huv, hset⟩
  · intro s t p mv a h1 h2 h3 h4 h5
    obtain ⟨u, hu, huv, -, hset, -⟩ := uvEnd s t p mv a h1 h2 h3 h4 h5
    exact ⟨u, hu, huv, hset⟩
  · intro s t p c0 l h1 h2 h3 h4 h5 h6 h7 h8 h9 h10 h11 h12 h13
    obtain ⟨u, hu, hl, -, hset, -⟩ := uvStep s t p c0 l h1 h2 h3 h4 h5 h6 h7 h8 h9 h10 h11 h12 h13
    exact ⟨u, hu, hl, hset⟩
  · intro s t p a n r h1 h2 h3 h4
    obtain ⟨u, hu, hl, -, hset, -⟩ := shed s t p a n r h1 h2 h3 h4
    exact ⟨u, hu, hl, hset⟩
  · intro s t p a n r l h1 h2 h3 h4
    obtain ⟨u, hu, hl, -, hset, -⟩ := restore s t p a n r l h1 h2 h3 h4
    exact ⟨u, hu, hl, hset⟩

end Sys2Proof.Machine
end

section
/-! The plane supervisors (R232–R234, R243–R249): arming, hold windows, safe states and supply. -/

namespace Sys2Proof.Machine

/-! ### Resets of register blocks -/

theorem keyInst_key (f : Fld) (i j : Nat) : keyInst (f.key i j) = i % 64 := by
  unfold keyInst Fld.key
  omega

theorem keyBlk_of_key (f : Fld) (i j : Nat) : keyBlk (f.key i j) = f.id / 128 := by
  unfold keyBlk Fld.key
  omega

/-- A field of a numbered part that is reset reads its reset value. -/
theorem rget_resetInst {s : State} {b : Blk} {which : Nat → Bool} (f : Fld) (i j : Nat) (hf : f.id / 128 = blkCode b)
    (hi : which (i % 64) = true) : rget (resetInst s b which) f i j = f.resetAt i j := by
  have hp : (!(keyBlk (f.key i j) == blkCode b && which (keyInst (f.key i j)))) = false := by
    rw [keyBlk_of_key, keyInst_key, hf, hi]
    simp
  have hnone : tblGet? (resetInst s b which).regs (f.key i j) = none :=
    tblGet?_filter_none s.regs (q := fun k => !(keyBlk k == blkCode b && which (keyInst k))) hp
  rw [rget, tblGetD, hnone]
  rfl

/-- A field of another block or number is as before. -/
theorem rget_resetInst_ne {s : State} {b : Blk} {which : Nat → Bool} (f : Fld) (i j : Nat)
    (h : f.id / 128 ≠ blkCode b ∨ which (i % 64) = false) : rget (resetInst s b which) f i j = rget s f i j := by
  have hkeep : tblGet? (resetInst s b which).regs (f.key i j) = tblGet? s.regs (f.key i j) := by
    refine tblGet?_filter_of_pos fun v => ?_
    show (!(keyBlk (f.key i j) == blkCode b && which (keyInst (f.key i j)))) = true
    rw [keyBlk_of_key, keyInst_key]
    rcases h with h | h <;> simp [h]
  rw [rget, rget, tblGetD, tblGetD, hkeep]

/-! ### Bank checks of an arming plane -/

/-- The register fields that the checks of an arming plane write. -/
def checkIds : List Nat := [R.PPS_CTRL_ARM.id, R.DBK_CTRL_ADMITTED.id, R.DBK_CTRL_FAIL_B.id, R.DBK_CTRL_FAIL_H.id]

/-- Beside those, and what an event moves, every register field is as before. -/
def CheckStep (s u : State) : Prop :=
  ∀ (f : Fld) (i j : Nat), f.id / 128 ∉ blks [.hlm, .jrn] → f.id ∉ checkIds → rget u f i j = rget s f i j

theorem CheckStep.trans {s u v : State} (h : CheckStep s u) (k : CheckStep u v) : CheckStep s v :=
  fun f i j hf hid => (k f i j hf hid).trans (h f i j hf hid)

theorem bankCheck_rget {s : State} {f : Fld} {b i j : Nat} (hf : f.id / 128 ∉ blks [.hlm, .jrn])
    (hid : f.id ∉ [R.DBK_CTRL_ADMITTED.id, R.DBK_CTRL_FAIL_B.id, R.DBK_CTRL_FAIL_H.id] ∨ i % 64 ≠ b % 64) :
    rget (bankCheck s b) f i j = rget s f i j := by
  have hset (u : State) (g : Fld) (v : Nat)
      (hg : g.id ∈ [R.DBK_CTRL_ADMITTED.id, R.DBK_CTRL_FAIL_B.id, R.DBK_CTRL_FAIL_H.id]) :
      rget (rset u g v b) f i j = rget u f i j := by
    rw [rget_rset]
    refine if_neg fun h => ?_
    rcases hid with hid | hi
    · exact hid (by rw [h.1]; exact hg)
    · exact hi h.2.1
  unfold bankCheck
  split
  · exact hset _ _ _ (by simp)
  · rw [raiseEv_within.rget _ _ _ hf, hset _ _ _ (by simp), hset _ _ _ (by simp), hset _ _ _ (by simp)]

theorem bankCheck_step (s : State) (b : Nat) : CheckStep s (bankCheck s b) := fun _ _ _ hf hid =>
  bankCheck_rget hf (.inl fun h => hid (List.mem_cons_of_mem _ h))

theorem bankCheck_admits {s : State} {b : Nat} (h : firstFail s b = none) : rget (bankCheck s b) R.DBK_CTRL_ADMITTED b = 1 := by
  unfold bankCheck
  rw [h]
  exact rget_rset_self _ _ _ _ _

section
variable {s u : State} (h : CheckStep s u)
include h

theorem CheckStep.dget (f : Fld) (c : Nat) (hf : f.id / 128 ∉ blks [.hlm, .jrn]) (hid : f.id ∉ checkIds) :
    dget u f c = dget s f c := h f _ _ hf hid

theorem CheckStep.dval (f : Fld) (c : Nat) (hf : f.id / 128 ∉ blks [.hlm, .jrn]) (hid : f.id ∉ checkIds) :
    dval u f c = dval s f c := congrArg f.lim.apply (h f _ _ hf hid)

theorem CheckStep.rval (f : Fld) (i j : Nat) (hf : f.id / 128 ∉ blks [.hlm, .jrn]) (hid : f.id ∉ checkIds) :
    rval u f i j = rval s f i j := congrArg f.lim.apply (h f i j hf hid)

theorem CheckStep.rbit (f : Fld) (i j : Nat) (hf : f.id / 128 ∉ blks [.hlm, .jrn]) (hid : f.id ∉ checkIds) :
    rbit u f i j = rbit s f i j := congrArg (· == 1) (h f i j hf hid)

theorem CheckStep.pairFails (b c : Nat) : pairFails u b c = pairFails s b c := by
  unfold Machine.pairFails
  dsimp only
  rw [h.dget R.DBK_CH_HOLD_HOLD_FLOOR_MA c (by decide) (by decide), h.dval R.DBK_CH_CFG_MODE b (by decide) (by decide),
    h.dval R.DBK_CH_CFG_MODE c (by decide) (by decide), h.dget R.DBK_CH_FLOOR_PROP_REF_MA c (by decide) (by decide),
    h.dget R.DBK_CH_FLOOR_DECAY c (by decide) (by decide), h.dval R.DBK_CH_BOOST_T_BOOST_US b (by decide) (by decide)]

theorem CheckStep.firstFail (b : Nat) : firstFail u b = firstFail s b := by
  unfold Machine.firstFail
  simp only [h.pairFails]

theorem CheckStep.holdCondition (p : Nat) : holdCondition u p = holdCondition s p := by
  have hrows (d : Bool) (n : Nat) : holdRows u p d n = holdRows s p d n := by
    unfold holdRows
    rw [h.rval R.PPS_DRV_HOLD_ROWS p n (by decide) (by decide), h.rval R.PPS_SW_HOLD_ROWS p n (by decide) (by decide)]
  have hden (b : Nat) := h.rbit R.DBK_CTRL_ENABLE b 0 (by decide) (by decide)
  have hsen (b : Nat) := h.rbit R.SBK_CTRL_ENABLE b 0 (by decide) (by decide)
  unfold Machine.holdCondition
  simp only [hrows, hden, hsen, h.rbit R.XLK_PAIR_CFG_PAIR_EN 0 0 (by decide) (by decide),
    h.rval R.XLK_PAIR_CFG_HB_MISS 0 0 (by decide) (by decide), h R.TKE_TICK_PERIOD_PERIOD_US 0 0 (by decide) (by decide)]

theorem CheckStep.swMode (c : Nat) : swMode u c = swMode s c := by
  have hpar (k : Nat) : dbit u R.SBK_CH_CFG_PAR k = dbit s R.SBK_CH_CFG_PAR k :=
    h.rbit R.SBK_CH_CFG_PAR _ _ (by decide) (by decide)
  unfold Machine.swMode swLead swOdd
  rw [hpar, h.dval R.SBK_CH_CFG_MODE _ (by decide) (by decide)]

theorem CheckStep.safeValuesOk (p : Nat) : safeValuesOk u p = safeValuesOk s p := by
  have h1 (n : Nat) := h R.PPS_DRV_SAFE_VALUE p n (by decide) (by decide)
  have h2 (n : Nat) := h.rval R.PPS_DRV_SAFE p n (by decide) (by decide)
  have h3 (n : Nat) := h.dval R.DBK_CH_CFG_MODE n (by decide) (by decide)
  have h4 (n : Nat) := h.rval R.PPS_SW_SAFE p n (by decide) (by decide)
  have h5 (n : Nat) := h R.PPS_SW_SAFE_VALUE p n (by decide) (by decide)
  unfold Machine.safeValuesOk
  simp only [h1, h2, h3, h4, h5, h.swMode]

end

/-- The plane as its bank checks leave it, ARM being 1. -/
def banksChecked (s : State) (p : Nat) : State := (List.range 6).foldl (fun s k => bankCheck s (6 * p + k)) (rset s R.PPS_CTRL_ARM 1 p)

theorem banksChecked_step (s : State) (p : Nat) : CheckStep s (banksChecked s p) :=
  foldl_invariant (P := CheckStep s)
    (fun f i j _ hid => rget_rset_ne _ _ _ _ _ _ fun e => hid (by rw [e]; exact List.mem_cons_self))
    fun v k _ hv => hv.trans (bankCheck_step v _)

theorem banksChecked_arm (s : State) (p : Nat) : rget (banksChecked s p) R.PPS_CTRL_ARM p = 1 :=
  foldl_invariant (P := fun v => rget v R.PPS_CTRL_ARM p = 1) (rget_rset_self _ _ _ _ _) fun v k _ hv =>
    (bankCheck_rget (by decide) (.inl (by decide))).trans hv

/-- Every bank of the plane that passes its check is admitted. -/
theorem banksChecked_admits {s : State} {p k : Nat} (hk : k < 6) (h : firstFail s (6 * p + k) = none) :
    rget (banksChecked s p) R.DBK_CTRL_ADMITTED (6 * p + k) = 1 := by
  have hstep0 : CheckStep s (rset s R.PPS_CTRL_ARM 1 p) := fun f i j _ hid =>
    rget_rset_ne _ _ _ _ _ _ fun e => hid (by rw [e]; exact List.mem_cons_self)
  have hfold := foldl_pointwise (β := State) (f := fun s k => bankCheck s (6 * p + k))
    (fun v k => (firstFail v (6 * p + k), rget v R.DBK_CTRL_ADMITTED (6 * p + k)))
    (R := fun a b => a.1 = none → b.2 = 1) (l := List.range 6) List.nodup_range
    (fun v k _ hnone => bankCheck_admits hnone)
    (fun v a ha c hc hne => by
      have := List.mem_range.mp ha
      have := List.mem_range.mp hc
      rw [(bankCheck_step v _).firstFail, bankCheck_rget (by decide) (.inr (by omega))])
    (List.mem_range.mpr hk) (rset s R.PPS_CTRL_ARM 1 p)
  dsimp only at hfold
  exact hfold ((hstep0.firstFail _).trans h)

/-! ### Arming -/

theorem armErr_of {s : State} {p e : Nat}
    (hbanks : ∀ k < 6, rbit s R.DBK_CTRL_ENABLE (6 * p + k) = true → firstFail s (6 * p + k) = none)
    (he : e = if !holdCondition s p then 2 else if !safeValuesOk s p then 3 else if lcState s = 4 then 4 else 0) :
    ppsArmErr (banksChecked s p) p = e := by
  have hstep := banksChecked_step s p
  have hany : ¬((List.range 6).any fun k => rbit (banksChecked s p) R.DBK_CTRL_ENABLE (6 * p + k) &&
      !rbit (banksChecked s p) R.DBK_CTRL_ADMITTED (6 * p + k)) = true := by
    simp only [List.any_eq_true, List.mem_range, Bool.and_eq_true, Bool.not_eq_true', not_exists, not_and,
      Bool.not_eq_false]
    intro k hk hen
    rw [hstep.rbit R.DBK_CTRL_ENABLE _ _ (by decide) (by decide)] at hen
    exact beq_iff_eq.mpr (banksChecked_admits hk (hbanks k hk hen))
  unfold ppsArmErr
  rw [if_neg hany, hstep.holdCondition, hstep.safeValuesOk,
    show lcState (banksChecked s p) = lcState s from hstep R.KSM_LC_STATE _ _ (by decide) (by decide), he]

/-- What an arming plane meets once its banks have been checked. -/
theorem ppsArm_eq {s : State} {p : Nat} (harmed : planeArmed s p = false) (hload : ppsLoading s p = false) : ppsArm s p =
    if ppsArmErr (banksChecked s p) p ≠ 0 then
      rset (banksChecked s p) R.PPS_CTRL_ARM_ERR (ppsArmErr (banksChecked s p) p) p
    else
      let s3 := rset (armChannels (rset (banksChecked s p) R.PPS_CTRL_ARM_ERR (ppsArmErr (banksChecked s p) p) p) p)
        R.PPS_CTRL_ARMED 1 p
      let s4 := rset (rset (rset s3 R.PPS_STATUS_TICK_US 0 p) R.PPS_STATUS_HOLDING 0 p) R.PPS_STATUS_SAFE_ACTIVE 0 p
      setPps s4 p { getPps s4 p with live := false, expired := [], expTold := false, passed := [] } := by
  unfold ppsArm banksChecked
  exact if_neg (by rw [harmed, hload]; simp)

theorem armChannels_rget (s : State) (p : Nat) (f : Fld) (i j : Nat) (hf : f.id ≠ R.DBK_CH_STAT_CLAMPED.id) :
    rget (armChannels s p) f i j = rget s f i j :=
  foldl_invariant (P := fun v => rget v f i j = rget s f i j) rfl fun _ _ _ hv => (rget_rset_ne _ _ _ _ _ _ hf).trans hv

theorem getDrv_dset (s : State) (f : Fld) (v ch c : Nat) : getDrv (dset s f v ch) c = getDrv s c := rfl

theorem armChannels_drv (s : State) (p : Nat) :
    ∀ c ∈ planeChans p, (getDrv (armChannels s p) c).propMa = 0 ∧ (getDrv (armChannels s p) c).nextShot = none := by
  refine foldl_reaches (I := fun _ => True) (Q := fun c v => (getDrv v c).propMa = 0 ∧ (getDrv v c).nextShot = none)
    (fun _ _ _ => trivial) ?_ ?_ trivial
  · intro v c _
    rw [getDrv_dset, getDrv_modDrv_self]
    exact ⟨rfl, rfl⟩
  · intro v c k h
    rw [getDrv_dset]
    by_cases hk : k = c
    · rw [hk, getDrv_modDrv_self]
      exact ⟨rfl, rfl⟩
    · rw [getDrv_modDrv_ne _ _ hk]
      exact h

/-! ### Disarming -/

theorem off_swDuty_zero {s : State} {c : Nat} (ch : Nat) (h : (getSw s c).duty = 0 ∧ (getSw s c).on = false) :
    (getSw (swDuty s ch 0) c).duty = 0 ∧ (getSw (swDuty s ch 0) c).on = false := by
  rw [swDuty_cases, if_pos rfl]
  have hstored : (getSw (dutyStored s ch 0) c).duty = 0 ∧ (getSw (dutyStored s ch 0) c).on = false := by
    obtain ⟨l, hl⟩ := getSw_dropLimit s ch c
    unfold dutyStored
    rcases getSw_modAll_all (dropLimit s ch) c ch fun c => { c with duty := 0, barred := false } with e | e
    · rw [e, hl]
      exact h
    · rw [e, hl]
      exact ⟨rfl, h.2⟩
  exact ⟨(duty_swTurnOff _ _ _).trans hstored.1, off_swTurnOff _ hstored.2⟩

theorem swDuty_zero_self (s : State) (ch : Nat) : (getSw (swDuty s ch 0) ch).duty = 0 ∧ (getSw (swDuty s ch 0) ch).on = false := by
  refine ⟨(getSw_swDuty 0 (mem_swMembers_self s ch)).1, ?_⟩
  rw [swDuty_cases, if_pos rfl, getSw_swTurnOff (mem_swMembers_self _ ch)]

/-- The channel has neither profile nor current nor duty. -/
def Quiet (u : State) (c : Nat) : Prop :=
  (getDrv u c).prof = none ∧ (getDrv u c).propMa = 0 ∧ (getDrv u c).nextShot = none ∧ (getSw u c).duty = 0 ∧ (getSw u c).on = false

theorem planeOff_quiet (s : State) (l : List Nat) : ∀ c ∈ l, Quiet (l.foldl (fun s c => swDuty (drvOff s c) c 0) s) c := by
  have hdrv (v : State) (c k : Nat) : getDrv (swDuty (drvOff v c) c 0) k = getDrv (drvOff v c) k :=
    getDrv_congr (swDuty_within.drv.resolve_left (by simp)) k
  have hself (v : State) (c : Nat) : Quiet (swDuty (drvOff v c) c 0) c := by
    obtain ⟨-, hprof, ⟨hma, -, hshot⟩, -⟩ := drvOff_fields v c
    unfold Quiet
    rw [hdrv]
    exact ⟨hprof, hma, hshot, swDuty_zero_self _ _⟩
  refine foldl_reaches (I := fun _ => True) (Q := fun c v => Quiet v c) (fun _ _ _ => trivial) (fun v c _ => hself v c) ?_ trivial
  intro v c k hk
  by_cases heq : k = c
  · rw [heq]
    exact hself v c
  · obtain ⟨hprof, hma, hshot, hsw⟩ := hk
    obtain ⟨-, -, -, hothers, -⟩ := drvOff_fields v c
    have hsw' : (getSw (drvOff v c) k) = getSw v k := getSw_congr (drvOff_within.sw.resolve_left (by simp)) k
    unfold Quiet
    rw [hdrv, hothers k heq]
    exact ⟨hprof, hma, hshot, off_swDuty_zero c (by rw [hsw']; exact hsw)⟩

/-! ### Hold windows -/

/-- A hold window that ends: what the supervisor records after the channel's safe state. -/
def expiryNoted (s u : State) (p key : Nat) : State :=
  let s2 := rinc (rset u R.PPS_STATUS_SAFE_ACTIVE 1 p) R.PPS_HOLD_EVENTS_HOLD_EXPIRIES 1 p
  let s3 := setPps s2 p { getPps s2 p with expired := key :: (getPps s p).expired, expTold := true }
  if (getPps s p).expTold then s3 else raiseEv s3 evPpsHoldExpired p

theorem holdExpiry_ends {s : State} {p n : Nat} {d : Bool} (harmed : planeArmed s p = true) (hlive : (getPps s p).live = true)
    (hcommit : commitNow s p = false) (hkey : (if d then n else 48 + n) ∉ (getPps s p).expired)
    (ht : 2 * ((getPps s p).contactAt + holdWindowUs (holdRows s p d n) (rget s R.PPS_STATUS_TICK_US p) * fcUs) + ppsPeriod s p ≤
      2 * s.now) : holdExpiry s p d n =
        expiryNoted s (if d then safeDrive s p n else safeSwitch s p n) p (if d then n else 48 + n) := by
  unfold holdExpiry
  refine if_pos ?_
  rw [ppsTiming, harmed, hlive, hcommit, decide_eq_true ht]
  simpa using hkey

theorem expiryNoted_fields {s u : State} (p key : Nat)
    (hcount : rget u R.PPS_HOLD_EVENTS_HOLD_EXPIRIES p = rget s R.PPS_HOLD_EVENTS_HOLD_EXPIRIES p) :
    rget (expiryNoted s u p key) R.PPS_STATUS_SAFE_ACTIVE p = 1 ∧
    (getPps (expiryNoted s u p key) p).expired = key :: (getPps s p).expired ∧
    rget (expiryNoted s u p key) R.PPS_HOLD_EVENTS_HOLD_EXPIRIES p =
      satTo R.PPS_HOLD_EVENTS_HOLD_EXPIRIES.width (rget s R.PPS_HOLD_EVENTS_HOLD_EXPIRIES p + 1) ∧
    (expiryNoted s u p key).sw = u.sw ∧ (expiryNoted s u p key).drv = u.drv := by
  unfold expiryNoted
  extract_lets s2 src s3
  have hsafe : rget s3 R.PPS_STATUS_SAFE_ACTIVE p = 1 :=
    (rget_rset_ne _ _ _ _ _ _ (by decide)).trans (rget_rset_self _ _ _ _ _)
  have hexp : rget s3 R.PPS_HOLD_EVENTS_HOLD_EXPIRIES p =
      satTo R.PPS_HOLD_EVENTS_HOLD_EXPIRIES.width (rget s R.PPS_HOLD_EVENTS_HOLD_EXPIRIES p + 1) := by
    refine (rget_rinc_self _ _ _ _ _).trans ?_
    rw [rget_rset_ne _ _ _ _ _ _ (by decide), hcount]
  have hrec : (getPps s3 p).expired = key :: (getPps s p).expired := congrArg Pps.expired (getPps_setPps_self _ _ _)
  split
  · exact ⟨hsafe, hrec, hexp, rfl, rfl⟩
  · refine ⟨(raiseEv_within.rget _ _ _ (by decide)).trans hsafe, ?_, (raiseEv_within.rget _ _ _ (by decide)).trans hexp,
      (raiseEv_sw _ _ _ _), raiseEv_drv _ _ _ _⟩
    rw [getPps_congr (raiseEv_pps _ _ _ _)]
    exact hrec

theorem expiryNoted_within {s u : State} {p key : Nat} : Within [.regs, .mem, .extMem, .log, .pps] (blks [.pps, .hlm, .jrn]) u
    (expiryNoted s u p key) := by
  unfold expiryNoted
  extract_lets s2 src s3
  have h3 : Within [.regs, .mem, .extMem, .log, .pps] (blks [.pps, .hlm, .jrn]) u s3 :=
    setPps_within.step (rinc_within.step (rset_within.step (.refl u) rfl rfl) rfl rfl) rfl rfl
  exact within_ite h3 (raiseEv_within.step h3 rfl rfl)

/-! ### Supply -/

theorem planeReset_rget {s : State} {p : Nat} (f : Fld) (i j : Nat) (hf : f.id / 128 = blkCode .pps) :
    rget (planeReset s p) f i j = if i % 64 = p then f.resetAt i j else rget s f i j := by
  have heq : rget (planeReset s p) f i j = rget (resetInst (resetInst (resetInst s .dbk fun i => i / 6 == p) .sbk fun i => i / 6 == p)
      .pps fun i => i == p) f i j := rfl
  rw [heq]
  split
  · rename_i h
    exact rget_resetInst f i j hf (by simp [h])
  · rename_i h
    rw [rget_resetInst_ne f i j (.inr (by simp [h])), rget_resetInst_ne f i j (.inl (by rw [hf]; decide)),
      rget_resetInst_ne f i j (.inl (by rw [hf]; decide))]

theorem planeReset_pps (s : State) (p : Nat) : (planeReset s p).pps = s.pps := rfl

theorem getPps_setPps_ne (s : State) {p q : Nat} (v : Pps) (h : q ≠ p) : getPps (setPps s p v) q = getPps s q :=
  (tblGetD_set _ _ _ _ _).trans (if_neg h)

end Sys2Proof.Machine
end

section
/-! What the plane supervisors' statement says (R243–R249). -/

namespace Sys2Proof.Machine

theorem dropPassed_passed (s : State) (p : Nat) : (getPps (dropPassed s p) p).passed = [] := by
  unfold dropPassed
  dsimp only
  rw [getPps_setPps_self]

theorem dropPassed_other (s : State) {p q : Nat} (h : q ≠ p) : getPps (dropPassed s p) q = getPps s q := by
  unfold dropPassed
  dsimp only
  rw [getPps_setPps_ne _ _ h]
  refine getPps_congr (foldl_invariant (P := fun v : State => v.pps = s.pps) rfl fun v x _ hv => ?_) q
  split
  · exact hv
  · exact hv

/-- A plane whose channels are off, as disarming leaves its supervisor. -/
def planeDisarmed (s : State) (p : Nat) : State :=
  let s3 := rset (rset (rset s R.PPS_CTRL_ARM 0 p) R.PPS_CTRL_ARMED 0 p) R.PPS_STATUS_SAFE_ACTIVE 0 p
  setPps s3 p { getPps s3 p with expired := [], expTold := false }

theorem ppsDisarm_eq {s : State} {p : Nat} (harmed : planeArmed s p = true) (hload : ppsLoading s p = false) :
    ppsDisarm s p = planeDisarmed ((planeChans p).foldl (fun s c => swDuty (drvOff s c) c 0) (dropPassed s p)) p := by
  unfold ppsDisarm
  rw [hload, harmed]
  rfl

theorem planeDisarmed_regs (s : State) (p : Nat) : (planeDisarmed s p).regs =
    (rset (rset (rset s R.PPS_CTRL_ARM 0 p) R.PPS_CTRL_ARMED 0 p) R.PPS_STATUS_SAFE_ACTIVE 0 p).regs := rfl

theorem planeDisarmed_pps (s : State) (p : Nat) :
    getPps (planeDisarmed s p) p = { getPps s p with expired := [], expTold := false } := getPps_setPps_self _ _ _

theorem planeOff_within {s : State} {l : List Nat} : Within [.regs, .mem, .extMem, .log, .reqs, .till, .drv, .dbk, .sw, .hlm]
    (blks [.sbk, .dbk, .hlm, .jrn]) s (l.foldl (fun s c => swDuty (drvOff s c) c 0) s) :=
  foldl_within (fun _ _ hu => swDuty_within.step (drvOff_within.step hu rfl rfl) rfl rfl) (.refl _)

/-- A command at a plane whose supervisor is powered, while the fabric runs. -/
theorem atPlane_fabric {s : State} {p : Nat} (t : Fc) (f : State → State) (hpow : (getPps s p).powered = true)
    (hfab : s.fabric = true) : atPlane t p (fun s => if s.fabric then f s else s) s = .next (f (advance s t)) :=
  (atPlane_powered s t p (fun s => if s.fabric then f s else s) hpow).trans
    (congrArg _ (if_pos (show (advance s t).fabric = true from hfab)))

/-- A plane that meets every condition of R244 is armed. -/
theorem ppsArm_arms {s : State} {p : Nat} (harmed : planeArmed s p = false) (hload : ppsLoading s p = false)
    (herr : ppsArmErr (banksChecked s p) p = 0) :
    planeArmed (ppsArm s p) p = true ∧ rget (ppsArm s p) R.PPS_CTRL_ARM p = 1 ∧ rget (ppsArm s p) R.PPS_CTRL_ARM_ERR p = 0 ∧
    rget (ppsArm s p) R.PPS_STATUS_TICK_US p = 0 ∧ rget (ppsArm s p) R.PPS_STATUS_HOLDING p = 0 ∧
    rget (ppsArm s p) R.PPS_STATUS_SAFE_ACTIVE p = 0 ∧ (getPps (ppsArm s p) p).live = false ∧
    (getPps (ppsArm s p) p).expired = [] ∧ (getPps (ppsArm s p) p).passed = [] ∧
    ∀ c ∈ planeChans p, (getDrv (ppsArm s p) c).propMa = 0 ∧ (getDrv (ppsArm s p) c).nextShot = none := by
  rw [ppsArm_eq harmed hload, herr, if_neg (by simp)]
  obtain ⟨v, hv⟩ : ∃ v, v = rset (banksChecked s p) R.PPS_CTRL_ARM_ERR 0 p := ⟨_, rfl⟩
  have harm : rget v R.PPS_CTRL_ARM p = 1 := by
    rw [hv, rget_rset_ne _ _ _ _ _ _ (by decide)]
    exact banksChecked_arm _ _
  have hzero : rget v R.PPS_CTRL_ARM_ERR p = 0 := by
    rw [hv]
    exact rget_rset_self _ _ _ _ _
  rw [← hv]
  have hread (f : Fld) (hf : f.id ≠ R.DBK_CH_STAT_CLAMPED.id) := armChannels_rget v p f p 0 hf
  have hdrv := armChannels_drv v p
  generalize armChannels v p = w at hread hdrv ⊢
  extract_lets s3 s4
  have hpps : getPps (setPps s4 p { getPps s4 p with live := false, expired := [], expTold := false, passed := [] }) p = _ :=
    getPps_setPps_self _ _ _
  have hdrv' (c : Nat) : getDrv (setPps s4 p { getPps s4 p with live := false, expired := [], expTold := false, passed := [] }) c =
      getDrv w c := getDrv_congr rfl c
  rw [hpps]
  refine ⟨?_, ?_, ?_, ?_, ?_, ?_, rfl, rfl, rfl, fun c hc => by rw [hdrv']; exact hdrv c hc⟩
  · refine beq_iff_eq.mpr ?_
    show rget s4 R.PPS_CTRL_ARMED p = 1
    rw [rget_rset_ne _ _ _ _ _ _ (by decide), rget_rset_ne _ _ _ _ _ _ (by decide), rget_rset_ne _ _ _ _ _ _ (by decide)]
    exact rget_rset_self _ _ _ _ _
  · show rget s4 R.PPS_CTRL_ARM p = 1
    rw [rget_rset_ne _ _ _ _ _ _ (by decide), rget_rset_ne _ _ _ _ _ _ (by decide), rget_rset_ne _ _ _ _ _ _ (by decide),
      rget_rset_ne _ _ _ _ _ _ (by decide), hread _ (by decide)]
    exact harm
  · show rget s4 R.PPS_CTRL_ARM_ERR p = 0
    rw [rget_rset_ne _ _ _ _ _ _ (by decide), rget_rset_ne _ _ _ _ _ _ (by decide), rget_rset_ne _ _ _ _ _ _ (by decide),
      rget_rset_ne _ _ _ _ _ _ (by decide), hread _ (by decide)]
    exact hzero
  · show rget s4 R.PPS_STATUS_TICK_US p = 0
    rw [rget_rset_ne _ _ _ _ _ _ (by decide), rget_rset_ne _ _ _ _ _ _ (by decide)]
    exact rget_rset_self _ _ _ _ _
  · show rget s4 R.PPS_STATUS_HOLDING p = 0
    rw [rget_rset_ne _ _ _ _ _ _ (by decide)]
    exact rget_rset_self _ _ _ _ _
  · show rget s4 R.PPS_STATUS_SAFE_ACTIVE p = 0
    exact rget_rset_self _ _ _ _ _

/-- A plane whose hold windows are shorter than a takeover needs stays disarmed. -/
theorem ppsArm_holdErr {s : State} {p : Nat} (harmed : planeArmed s p = false) (hload : ppsLoading s p = false)
    (herr : ppsArmErr (banksChecked s p) p = 2) :
    planeArmed (ppsArm s p) p = false ∧ rget (ppsArm s p) R.PPS_CTRL_ARM p = 1 ∧ rget (ppsArm s p) R.PPS_CTRL_ARM_ERR p = 2 ∧
    (ppsArm s p).drv = s.drv ∧ (ppsArm s p).pps = s.pps := by
  rw [ppsArm_eq harmed hload, herr, if_pos (by simp)]
  have hw : Within [.regs, .mem, .extMem, .log] (blks [.pps, .dbk, .hlm, .jrn]) s
      (rset (banksChecked s p) R.PPS_CTRL_ARM_ERR 2 p) :=
    rset_within.step (foldl_within (fun _ _ hu => bankCheck_within.step hu rfl rfl) (rset_within.step (.refl _) rfl rfl)) rfl rfl
  refine ⟨?_, ?_, rget_rset_self _ _ _ _ _, hw.drv.resolve_left (by simp), hw.pps.resolve_left (by simp)⟩
  · have hread : rget (rset (banksChecked s p) R.PPS_CTRL_ARM_ERR 2 p) R.PPS_CTRL_ARMED p = rget s R.PPS_CTRL_ARMED p :=
      (rget_rset_ne _ _ _ _ _ _ (by decide)).trans (banksChecked_step s p _ _ _ (by decide) (by decide))
    rw [planeArmed, rbit, hread]
    exact harmed
  · rw [rget_rset_ne _ _ _ _ _ _ (by decide)]
    exact banksChecked_arm _ _

/-- A plane that is disarmed has no channel that drives. -/
theorem ppsDisarm_disarms {s : State} {p : Nat} (harmed : planeArmed s p = true) (hload : ppsLoading s p = false) :
    planeArmed (ppsDisarm s p) p = false ∧ rget (ppsDisarm s p) R.PPS_CTRL_ARM p = 0 ∧
    rget (ppsDisarm s p) R.PPS_STATUS_SAFE_ACTIVE p = 0 ∧ (getPps (ppsDisarm s p) p).passed = [] ∧
    (getPps (ppsDisarm s p) p).expired = [] ∧ ∀ c ∈ planeChans p, Quiet (ppsDisarm s p) c := by
  rw [ppsDisarm_eq harmed hload]
  have hquiet := planeOff_quiet (dropPassed s p) (planeChans p)
  have hpps : ((planeChans p).foldl (fun s c => swDuty (drvOff s c) c 0) (dropPassed s p)).pps = (dropPassed s p).pps :=
    planeOff_within.pps.resolve_left (by simp)
  generalize (planeChans p).foldl (fun s c => swDuty (drvOff s c) c 0) (dropPassed s p) = w at hquiet hpps ⊢
  rw [planeArmed, rbit, rget_congr (planeDisarmed_regs w p), rget_congr (planeDisarmed_regs w p),
    rget_congr (planeDisarmed_regs w p), planeDisarmed_pps, getPps_congr hpps]
  refine ⟨?_, ?_, rget_rset_self _ _ _ _ _, dropPassed_passed _ _, rfl, fun c hc => ?_⟩
  · refine beq_eq_false_iff_ne.mpr ?_
    rw [rget_rset_ne _ _ _ _ _ _ (by decide), rget_rset_self]
    decide
  · rw [rget_rset_ne _ _ _ _ _ _ (by decide), rget_rset_ne _ _ _ _ _ _ (by decide)]
    exact rget_rset_self _ _ _ _ _
  · rw [Quiet, getDrv_congr (show (planeDisarmed w p).drv = w.drv from rfl),
      getSw_congr (show (planeDisarmed w p).sw = w.sw from rfl)]
    exact hquiet c hc

/-- Settles O30. -/
theorem planeSupervisors : Obligations.PlaneSupervisors := by
  unfold Obligations.PlaneSupervisors
  refine ⟨?arm, ?armHold, ?disarm, ?safeNow, ?clear, ?clearNot, ?holding, ?expiry, ?expirySwitch, ?loss, ?powerUp⟩
  case arm =>
    intro s t p hpow hfab harmed hload hbanks hhold hsafe hlc
    have herr : ppsArmErr (banksChecked (advance s t) p) p = 0 := armErr_of (s := advance s t) hbanks (by
      rw [show holdCondition (advance s t) p = true from hhold, show safeValuesOk (advance s t) p = true from hsafe]
      exact (if_neg hlc).symm)
    have hw : Within [.regs, .mem, .extMem, .log, .drv, .pps] (blks [.pps, .dbk, .hlm, .jrn]) (advance s t)
      (ppsArm (advance s t) p) := ppsArm_within
    obtain ⟨h1, h2, h3, h4, h5, h6, h7, h8, h9, h10⟩ := ppsArm_arms (s := advance s t) harmed hload herr
    exact ⟨_, atPlane_fabric t (fun s => ppsArm s p) hpow hfab, h1, h2, h3, h4, h5, h6, h7, h8, h9, h10, hw.blocksOnly, hw.eq_frame⟩
  case armHold =>
    intro s t p hpow hfab harmed hload hbanks hhold
    have herr : ppsArmErr (banksChecked (advance s t) p) p = 2 := armErr_of (s := advance s t) hbanks (by
      rw [show holdCondition (advance s t) p = false from hhold]
      rfl)
    have hw : Within [.regs, .mem, .extMem, .log, .drv, .pps] (blks [.pps, .dbk, .hlm, .jrn]) (advance s t)
      (ppsArm (advance s t) p) := ppsArm_within
    obtain ⟨hoff, harm, hcode, hdrv, hpps⟩ := ppsArm_holdErr (s := advance s t) harmed hload herr
    exact ⟨_, atPlane_fabric t (fun s => ppsArm s p) hpow hfab, hoff, harm, hcode, hdrv, hpps, hw.blocksOnly⟩
  case disarm =>
    intro s t p hpow hfab harmed hload
    have hw : Within [.regs, .mem, .extMem, .log, .reqs, .till, .drv, .dbk, .sw, .pps, .hlm] (blks [.pps, .dbk, .sbk, .hlm, .jrn])
      (advance s t) (ppsDisarm (advance s t) p) := ppsDisarm_within.mono rfl rfl
    obtain ⟨hoff, harm, hsafe, hpassed, hexp, hquiet⟩ := ppsDisarm_disarms (s := advance s t) harmed hload
    refine ⟨_, atPlane_fabric t (fun s => ppsDisarm s p) hpow hfab, hoff, harm, hsafe, hpassed, hexp, fun c hc => ?_, hw.blocksOnly⟩
    obtain ⟨hprof, hma, hshot, hsw⟩ := hquiet c hc
    exact ⟨hprof, hma, hshot, fun _ => hsw⟩
  case safeNow =>
    intro s t p hpow hfab hload harmed hlive
    obtain ⟨v, hv⟩ : ∃ v, v = rset (safeAll (advance s t) p) R.PPS_STATUS_SAFE_ACTIVE 1 p := ⟨_, rfl⟩
    obtain ⟨l, hl⟩ : ∃ l, l = List.range 96 := ⟨_, rfl⟩
    have hrun : safeNow (advance s t) p = setPps v p { getPps v p with expired := l } := by
      rw [hv, hl]
      unfold safeNow
      refine if_pos ?_
      rw [show planeArmed (advance s t) p = true from harmed, show (getPps (advance s t) p).live = true from hlive,
        show ppsLoading (advance s t) p = false from hload]
      rfl
    have hsafe : rget v R.PPS_STATUS_SAFE_ACTIVE p = 1 := by
      rw [hv]
      exact rget_rset_self _ _ _ _ _
    have hread : rget v R.PPS_CTRL_ARMED p = rget s R.PPS_CTRL_ARMED p := by
      rw [hv]
      exact (rget_rset_ne _ _ _ _ _ _ (by decide)).trans (safeAll_within.rget _ _ _ (by decide))
    rw [← hl]
    refine ⟨_, (atPlane_fabric t (fun s => safeNow s p) hpow hfab).trans (congrArg _ hrun), hsafe, ?_,
      (congrArg (· == 1) hread).trans harmed⟩
    rw [getPps_setPps_self]
  case clear =>
    intro s t p hpow hfab harmed hlc
    refine (atPlane_fabric t (fun s => clearBid s p) hpow hfab).trans (congrArg _ (if_pos ⟨?_, hlc⟩))
    rw [show planeArmed (advance s t) p = false from harmed]
    rfl
  case clearNot =>
    intro s t p hpow hfab hor
    refine (atPlane_fabric t (fun s => clearBid s p) hpow hfab).trans (congrArg _ (if_neg fun h => ?_))
    obtain ⟨hoff, hlc⟩ := h
    rcases hor with harmed | ⟨hlc0, hlc3⟩
    · rw [show planeArmed (advance s t) p = true from harmed] at hoff
      exact absurd hoff (by simp)
    · exact hlc.elim hlc0 hlc3
  case holding =>
    intro s t p hpow hlive ht
    refine (atPlane_powered s t _ (fun s => holdingTimeout s p) hpow).trans (congrArg _ (if_pos ?_))
    rw [show (getPps (advance s t) p).live = true from hlive, Bool.true_and]
    exact decide_eq_true ht
  case expiry =>
    intro s t p d n k hpow harmed hlive hcommit hk hnot ht
    rw [hk] at hnot
    have hrun := holdExpiry_ends (s := advance s t) (n := n.val) (d := d) harmed hlive hcommit hnot ht
    rw [← hk] at hrun
    have hw0 : Within [.regs, .mem, .extMem, .log, .reqs, .till, .drv, .dbk, .sw, .hlm] (blks [.sbk, .dbk, .hlm, .jrn]) (advance s t)
        (if d then safeDrive (advance s t) p n else safeSwitch (advance s t) p n) :=
      within_ite (safeDrive_within.mono rfl rfl) (safeSwitch_within.mono rfl rfl)
    obtain ⟨hsafe, hexp, hcount, -, -⟩ := expiryNoted_fields (s := advance s t) p k
      (hw0.rget _ _ _ (by decide))
    have hw : Within [.regs, .mem, .extMem, .log, .reqs, .till, .drv, .dbk, .sw, .hlm, .pps] (blks [.pps, .dbk, .sbk, .hlm, .jrn])
        (advance s t) (expiryNoted (advance s t) (if d then safeDrive (advance s t) p n else safeSwitch (advance s t) p n) p k) :=
      expiryNoted_within.step (hw0.mono rfl rfl) rfl rfl
    exact ⟨_, (atPlane_powered s t _ (fun s => holdExpiry s p d n) hpow).trans (congrArg _ hrun), hsafe, hexp, hcount, hw.blocksOnly⟩
  case expirySwitch =>
    intro s t p n hpow harmed hlive hcommit hnot ht hoff hmode hodd
    have hrun := holdExpiry_ends (s := advance s t) (n := n.val) (d := false) harmed hlive hcommit hnot ht
    have hsafe : safeSwitch (advance s t) p n = swDuty (advance s t) (48 * p + n) 0 := by
      unfold safeSwitch
      dsimp only
      rw [show swMode (advance s t) (48 * p + n) = true from hmode, show swOdd (advance s t) (48 * p + n) = false from hodd,
        show rval (advance s t) R.PPS_SW_SAFE p n = 0 from hoff]
      rfl
    rw [if_neg (by simp), hsafe, if_neg (by simp)] at hrun
    have hw0 : Within [.regs, .sw] (blks [.sbk]) (advance s t) (swDuty (advance s t) (48 * p + n) 0) := swDuty_within
    obtain ⟨-, -, -, hsw, hdrv⟩ := expiryNoted_fields (s := advance s t) p (48 + n.val)
      (hw0.rget _ _ _ (by decide))
    obtain ⟨hduty, hon⟩ := swDuty_zero_self (advance s t) (48 * p + n)
    refine ⟨_, (atPlane_powered s t _ (fun s => holdExpiry s p false n) hpow).trans (congrArg _ hrun), ?_, ?_,
      hdrv.trans (hw0.drv.resolve_left (by simp))⟩
    · rw [getSw_congr hsw]
      exact hduty
    · rw [getSw_congr hsw]
      exact hon
  case loss =>
    intro s t p _
    obtain ⟨v, hv⟩ : ∃ v, v = (planeChans p).foldl drvOff (dropPassed (advance s t) p) := ⟨_, rfl⟩
    have hw : Within [.regs, .mem, .extMem, .log, .reqs, .till, .drv, .dbk, .hlm] (blks [.dbk, .hlm, .jrn])
        (dropPassed (advance s t) p) v := by
      rw [hv]
      exact foldl_within (fun _ _ hu => drvOff_within.step hu rfl rfl) (.refl _)
    have hrun : ppsPowerLoss (advance s t) p =
        setPps (planeReset v p) p { Pps.idle with powered := false, pairId := rget s R.XLK_PAIR_ID_PAIR_ID } := by
      rw [hv]
      rfl
    have hp := p.isLt
    have hmod : p.val % 64 = p.val := by omega
    have hne : 1 - p.val ≠ p.val := by omega
    refine ⟨_, (congrArg Host.Outcome.next hrun : exec (.planeSupervisorPowerLoss t p) s = _), ?_, ?_, ?_, ?_, ?_⟩
    · rw [getPps_setPps_self]
    · exact (planeReset_rget _ _ _ (by decide)).trans (if_pos hmod)
    · have hread : rget (planeReset v p) R.PPS_CTRL_ARMED p = 0 := (planeReset_rget _ _ _ (by decide)).trans (if_pos hmod)
      exact (congrArg (· == 1) hread : _)
    · rw [getPps_setPps_ne _ _ hne, getPps_congr (planeReset_pps v p), getPps_congr (hw.pps.resolve_left (by simp)),
        dropPassed_other _ hne]
      rfl
    · refine (planeReset_rget _ _ _ (by decide)).trans ((if_neg (by omega)).trans ?_)
      refine (hw.rget _ _ _ (by decide)).trans ?_
      exact (dropPassed_within (s := advance s t)).rget _ _ _ (by decide)
  case powerUp =>
    intro s t p hoff
    have hp := p.isLt
    have hmod : p.val % 64 = p.val := by omega
    have hne : 1 - p.val ≠ p.val := by omega
    have hrun : ppsPowerUp (advance s t) p =
        setPps (planeReset (advance s t) p) p { Pps.idle with pairId := rget s R.XLK_PAIR_ID_PAIR_ID } :=
      if_neg (by rw [show (getPps (advance s t) p).powered = false from hoff]; simp)
    refine ⟨_, (congrArg Host.Outcome.next hrun : exec (.planeSupervisorPowerUp t p) s = _), getPps_setPps_self _ _ _, ?_, ?_, ?_, ?_, ?_⟩
    · exact (planeReset_rget _ _ _ (by decide)).trans (if_pos hmod)
    · have hread : rget (planeReset (advance s t) p) R.PPS_CTRL_ARMED p = 0 :=
        (planeReset_rget _ _ _ (by decide)).trans (if_pos hmod)
      exact (congrArg (· == 1) hread : _)
    · exact (planeReset_rget _ _ _ (by decide)).trans (if_pos hmod)
    · rw [getPps_setPps_ne _ _ hne, getPps_congr (planeReset_pps _ p)]
      rfl
    · exact (setPps_within.step (planeReset_within.mono rfl rfl) rfl rfl : Within [.regs, .hiLatch, .rolLatch, .onesAt, .drv, .dbk, .sw,
        .feed, .pps] (blks [.pps, .dbk, .sbk]) (advance s t) _).blocksOnly

end Sys2Proof.Machine
end

section
/-! Bids and fencing, and the frames of pairing (R227–R243, R250–R255). -/

namespace Sys2Proof.Machine

/-! ### Frames to a supervisor -/

section
variable {s : State} {p : Nat} (hpow : (getPps s p).powered = true) (hload : ppsLoading s p = false)
include hpow hload

/-- The bid that a frame is held against (R233, R254). -/
def bidBar (s : State) (p : Nat) (kind : FrameKind) : Nat :=
  max (rget s R.PPS_HIGHEST_BID p) (if kind = .commit then takeoverNow s p else 0)

theorem ppsFrame_cases (own : Bool) (kind : FrameKind) (bid row us : Nat) (l : List Passed) :
    (ppsFrame s p own kind bid row us l).1 =
      if bid < bidBar s p kind then ppsFenced (rset s R.PPS_HIGHEST_BID (bidBar s p kind) p) p own kind bid row l
      else if kind = .takeover then (if bidBar s p kind < bid then rset s R.PPS_HIGHEST_BID bid p else s)
      else ppsContact (if bidBar s p kind < bid then rset s R.PPS_HIGHEST_BID bid p else s) p own kind row us l := by
  unfold ppsFrame
  extract_lets h s1
  rw [hpow, hload, if_neg (by simp)]
  by_cases hb : bid < h
  · rw [if_pos hb, if_pos (show bid < bidBar s p kind from hb)]
    rfl
  · rw [if_neg hb, if_neg (show ¬bid < bidBar s p kind from hb)]
    rfl

end

/-- What a frame of the pair does at a powered supervisor. -/
theorem exec_planeFrame {s : State} {t : Fc} {p : Fin 2} (f : State → State) (hpow : (getPps s p).powered = true) :
    atPlane t p (ofPlanePair (getPps s p).pairId p f) s = .next (f (advance s t)) :=
  (atPlane_powered s t p (ofPlanePair (getPps s p).pairId p f) hpow).trans (congrArg _ (if_pos rfl))

/-- An accepted COMMIT or KEEP of the partner, before its commands. -/
def contactNoted (s : State) (p us : Nat) : State :=
  let s1 := rset (rset (rset s R.PPS_STATUS_TICK_US us p) R.PPS_STATUS_SOURCE 1 p) R.PPS_STATUS_HOLDING 0 p
  setPps s1 p { getPps s p with contactAt := s.now }

theorem contactNoted_fields (s : State) (p us : Nat) :
    rget (contactNoted s p us) R.PPS_STATUS_TICK_US p = us % 2 ^ R.PPS_STATUS_TICK_US.width ∧
    rget (contactNoted s p us) R.PPS_STATUS_SOURCE p = 1 ∧ rget (contactNoted s p us) R.PPS_STATUS_HOLDING p = 0 ∧
    getPps (contactNoted s p us) p = { getPps s p with contactAt := s.now } ∧
    (∀ (f : Fld) (i j : Nat), f.id ∉ [R.PPS_STATUS_TICK_US.id, R.PPS_STATUS_SOURCE.id, R.PPS_STATUS_HOLDING.id] →
      rget (contactNoted s p us) f i j = rget s f i j) := by
  have hregs : (contactNoted s p us).regs =
      (rset (rset (rset s R.PPS_STATUS_TICK_US us p) R.PPS_STATUS_SOURCE 1 p) R.PPS_STATUS_HOLDING 0 p).regs := rfl
  simp only [rget_congr hregs]
  refine ⟨?_, ?_, rget_rset_self _ _ _ _ _, getPps_setPps_self _ _ _, fun f i j hid => ?_⟩
  · rw [rget_rset_ne _ _ _ _ _ _ (by decide), rget_rset_ne _ _ _ _ _ _ (by decide)]
    exact rget_rset_self _ _ _ _ _
  · rw [rget_rset_ne _ _ _ _ _ _ (by decide)]
    exact rget_rset_self _ _ _ _ _
  · simp only [List.mem_cons, List.not_mem_nil, or_false, not_or] at hid
    obtain ⟨h1, h2, h3⟩ := hid
    rw [rget_rset_ne _ _ _ _ _ _ h3, rget_rset_ne _ _ _ _ _ _ h2, rget_rset_ne _ _ _ _ _ _ h1]

/-- A KEEP refreshes contact (R247). -/
theorem ppsContact_keep {s : State} {p : Nat} (row us : Nat) (l : List Passed) (hlive : (getPps s p).live = true) :
    ppsContact s p false .keep row us l = contactNoted s p us := by
  unfold ppsContact
  dsimp only
  rw [if_neg (by simp [hlive])]
  rfl

/-- The supervisor's record after an accepted COMMIT. -/
def commitNoted (now : Nat) (s : State) (p : Nat) : State :=
  setPps s p { getPps s p with live := true, commitAt := some now, gridAt := now }

/-- The same on an armed plane, whose windows start anew. -/
def commitArmed (now : Nat) (s : State) (p : Nat) : State :=
  setPps s p { getPps s p with live := true, commitAt := some now, gridAt := now, expired := [], expTold := false }

/-- An accepted COMMIT with its row. -/
def commitTaken (s : State) (p row us : Nat) : State :=
  rset64 (contactNoted s p us) R.PPS_LAST_ROW_LO_ROW R.PPS_LAST_ROW_HI_ROW row p

/-- The safe state ends with the first COMMIT after it. -/
def safeEnded (s u : State) (p : Nat) : State :=
  if rbit s R.PPS_STATUS_SAFE_ACTIVE p then
    raiseEv (rinc (rset u R.PPS_STATUS_SAFE_ACTIVE 0 p) R.PPS_HOLD_EVENTS_HOLD_RESUMES 1 p) evPpsHoldResumed p
  else u

theorem ppsContact_commit (s : State) (p row us : Nat) (l : List Passed) : ppsContact s p false .commit row us l =
    if planeArmed s p then l.foldl (passOne p) (commitArmed s.now (safeEnded s (commitTaken s p row us) p) p)
    else (l.filter (stageMisses (commitNoted s.now (commitTaken s p row us) p))).foldl stageMiss
      (commitNoted s.now (commitTaken s p row us) p) := by
  unfold ppsContact
  dsimp only
  rw [if_neg (by simp)]
  rfl

theorem commitTaken_fields (s : State) (p row us : Nat) :
    rget (commitTaken s p row us) R.PPS_STATUS_TICK_US p = us % 2 ^ R.PPS_STATUS_TICK_US.width ∧
    rget (commitTaken s p row us) R.PPS_STATUS_SOURCE p = 1 ∧ rget (commitTaken s p row us) R.PPS_STATUS_HOLDING p = 0 ∧
    rget64 (commitTaken s p row us) R.PPS_LAST_ROW_LO_ROW R.PPS_LAST_ROW_HI_ROW p = row % 2 ^ 64 ∧
    getPps (commitTaken s p row us) p = { getPps s p with contactAt := s.now } ∧ (commitTaken s p row us).now = s.now ∧
    (∀ (f : Fld) (i j : Nat), f.id ∉ [R.PPS_STATUS_TICK_US.id, R.PPS_STATUS_SOURCE.id, R.PPS_STATUS_HOLDING.id,
      R.PPS_LAST_ROW_LO_ROW.id, R.PPS_LAST_ROW_HI_ROW.id] → rget (commitTaken s p row us) f i j = rget s f i j) ∧
    Within [.regs, .pps] (blks [.pps]) s (commitTaken s p row us) := by
  obtain ⟨htick, hsource, hhold, hrec, hread⟩ := contactNoted_fields s p us
  have hne (f : Fld) (i j : Nat) (h1 : f.id ≠ R.PPS_LAST_ROW_LO_ROW.id) (h2 : f.id ≠ R.PPS_LAST_ROW_HI_ROW.id) :
      rget (commitTaken s p row us) f i j = rget (contactNoted s p us) f i j :=
    (rget_rset_ne _ _ _ _ _ _ h2).trans (rget_rset_ne _ _ _ _ _ _ h1)
  refine ⟨(hne _ _ _ (by decide) (by decide)).trans htick, (hne _ _ _ (by decide) (by decide)).trans hsource,
    (hne _ _ _ (by decide) (by decide)).trans hhold, ?_, hrec, rfl, fun f i j hid => ?_,
    rset64_within.step (setPps_within.step (rset_within.step (rset_within.step (rset_within.step (.refl s) rfl rfl) rfl rfl)
      rfl rfl) rfl rfl) rfl rfl⟩
  · have hlo : rget (commitTaken s p row us) R.PPS_LAST_ROW_LO_ROW p = row % 2 ^ 32 :=
      (rget_rset_ne _ _ _ _ _ _ (by decide)).trans (rget_rset_self _ _ _ _ _)
    have hhi : rget (commitTaken s p row us) R.PPS_LAST_ROW_HI_ROW p = row / 2 ^ 32 % 2 ^ 32 := rget_rset_self _ _ _ _ _
    rw [rget64, hlo, hhi]
    omega
  · simp only [List.mem_cons, List.not_mem_nil, or_false, not_or] at hid
    obtain ⟨h1, h2, h3, h4, h5⟩ := hid
    exact (hne f i j h4 h5).trans (hread f i j (by simp [h1, h2, h3]))

/-- A staged output is discarded by the configuration of the channel's bank alone. -/
theorem stageMisses_congr {s u : State} (h : ∀ (f : Fld) (i j : Nat), f.id / 128 ∈ blks [.dbk, .sbk] → rget u f i j = rget s f i j)
    (q : Passed) : stageMisses u q = stageMisses s q := by
  have hdbit (f : Fld) (c : Nat) (hf : f.id / 128 ∈ blks [.dbk, .sbk]) : dbit u f c = dbit s f c := congrArg (· == 1) (h f _ _ hf)
  have hdval (f : Fld) (c : Nat) (hf : f.id / 128 ∈ blks [.dbk, .sbk]) : dval u f c = dval s f c :=
    congrArg f.lim.apply (h f _ _ hf)
  have hodd (c : Nat) : swOdd u c = swOdd s c := by rw [swOdd, swOdd, hdbit _ _ (by decide)]
  unfold stageMisses
  cases q.cmd with
  | drv c k =>
    dsimp only
    rw [hdbit _ _ (by decide), hdval _ _ (by decide)]
  | sw c k =>
    dsimp only
    rw [hdbit _ _ (by decide), hdval _ _ (by decide), hodd]

/-- Commands that no channel refuses, shot rates aside, wait at the plane's banks in their order. -/
theorem passAll {s : State} {p : Nat} {l : List Passed}
    (hl : ∀ q ∈ l, stageMisses s q = false ∧ (match q.cmd with | .drv _ (.rate _) => false | _ => true) = true) :
    Within [.pps] [] s (l.foldl (passOne p) s) ∧
    getPps (l.foldl (passOne p) s) p = { getPps s p with passed := (getPps s p).passed ++ l } := by
  induction l using List.reverseRecOn with
  | nil => exact ⟨.refl s, by rw [List.append_nil]; rfl⟩
  | append_singleton l q ih =>
    obtain ⟨hw, hrec⟩ := ih fun x hx => hl x (by simp [hx])
    obtain ⟨hq, hkind⟩ := hl q (by simp)
    rw [List.foldl_append, List.foldl_cons, List.foldl_nil]
    generalize l.foldl (passOne p) s = u at hw hrec
    have hmiss : stageMisses u q = false :=
      (stageMisses_congr (fun f i j _ => rget_congr (hw.regs.resolve_left (by simp)) f i j) q).trans hq
    have hone : passOne p u q = setPps u p { getPps u p with passed := (getPps u p).passed ++ [q] } := by
      unfold passOne
      rw [hmiss, if_neg (by simp)]
      split
      · rename_i ch v heq
        rw [heq] at hkind
        exact absurd hkind (by simp)
      · rfl
    rw [hone]
    refine ⟨setPps_within.step hw rfl rfl, ?_⟩
    rw [getPps_setPps_self, hrec, List.append_assoc]

/-! ### O31 -/

theorem commitArmed_rec (now : Nat) (s : State) (p : Nat) : getPps (commitArmed now s p) p =
    { getPps s p with live := true, commitAt := some now, gridAt := now, expired := [], expTold := false } :=
  getPps_setPps_self _ _ _

theorem commitNoted_rec (now : Nat) (s : State) (p : Nat) :
    getPps (commitNoted now s p) p = { getPps s p with live := true, commitAt := some now, gridAt := now } :=
  getPps_setPps_self _ _ _

/-- A COMMIT of the partner that is not below the bar is taken (R233). -/
theorem commit_taken {s : State} {p b row us : Nat} (l : List Passed) (hpow : (getPps s p).powered = true)
    (hload : ppsLoading s p = false) (hb : max (rget s R.PPS_HIGHEST_BID p) (takeoverNow s p) ≤ b) :
    (ppsFrame s p false .commit b row us l).1 =
      ppsContact (if max (rget s R.PPS_HIGHEST_BID p) (takeoverNow s p) < b then rset s R.PPS_HIGHEST_BID b p else s) p false
        .commit row us l := by
  refine (ppsFrame_cases hpow hload false .commit b row us _).trans ?_
  rw [if_neg (show ¬b < bidBar s p .commit from Nat.not_lt.mpr hb), if_neg (by simp)]
  rfl

/-- One below the bar is fenced (R233). -/
theorem commit_fenced {s : State} {p b row us : Nat} (l : List Passed) (hpow : (getPps s p).powered = true)
    (hload : ppsLoading s p = false) (hb : b < max (rget s R.PPS_HIGHEST_BID p) (takeoverNow s p)) :
    (ppsFrame s p false .commit b row us l).1 =
      fenceAck (rinc (rset s R.PPS_HIGHEST_BID (max (rget s R.PPS_HIGHEST_BID p) (takeoverNow s p)) p) R.PPS_FENCES_PARTNER 1 p) p
        [p, b, row % 2 ^ 32, row / 2 ^ 32] := by
  refine (ppsFrame_cases hpow hload false .commit b row us _).trans ?_
  rw [if_pos (show b < bidBar s p .commit from hb)]
  rfl

/-- What an accepted COMMIT of a new bid stores, whether the plane is armed or not. -/
structure CommitStored (s u : State) (p b row us : Nat) : Prop where
  bid : rget u R.PPS_HIGHEST_BID p = b
  tick : rget u R.PPS_STATUS_TICK_US p = us % 2 ^ R.PPS_STATUS_TICK_US.width
  source : rget u R.PPS_STATUS_SOURCE p = 1
  holding : rget u R.PPS_STATUS_HOLDING p = 0
  row : rget64 u R.PPS_LAST_ROW_LO_ROW R.PPS_LAST_ROW_HI_ROW p = row % 2 ^ 64
  within : Within [.regs, .pps] (blks [.pps]) s u

theorem CommitStored.trans {s u v : State} {p b row us : Nat} (h : CommitStored s u p b row us) (k : Within [.pps] [] u v) :
    CommitStored s v p b row us := by
  have hregs : v.regs = u.regs := k.regs.resolve_left (by simp)
  refine ⟨?_, ?_, ?_, ?_, ?_, k.step h.within rfl rfl⟩
  · rw [rget_congr hregs]
    exact h.bid
  · rw [rget_congr hregs]
    exact h.tick
  · rw [rget_congr hregs]
    exact h.source
  · rw [rget_congr hregs]
    exact h.holding
  · rw [rget64, rget_congr hregs, rget_congr hregs]
    exact h.row

theorem commitTaken_stored (s : State) (p row us : Nat) {b : Nat} (hb : b < 2 ^ 32) :
    CommitStored s (commitTaken (rset s R.PPS_HIGHEST_BID b p) p row us) p b row us ∧
    getPps (commitTaken (rset s R.PPS_HIGHEST_BID b p) p row us) p = { getPps s p with contactAt := s.now } := by
  obtain ⟨htick, hsource, hhold, hrow, hrec, -, hread, hw⟩ := commitTaken_fields (rset s R.PPS_HIGHEST_BID b p) p row us
  refine ⟨⟨?_, htick, hsource, hhold, hrow, hw.step (rset_within.step (.refl s) rfl rfl) rfl rfl⟩, hrec⟩
  rw [hread _ _ _ (by decide), rget_rset_self]
  exact Nat.mod_eq_of_lt hb

/-- What has moved no register of the banks discards no more staged outputs. -/
theorem Within.stageMisses {ps : List Part} {s u : State} (h : Within ps (blks [.pps]) s u) (q : Passed) :
    stageMisses u q = Machine.stageMisses s q :=
  stageMisses_congr (fun f i j hf => h.rget f i j fun hp => by
    rw [List.mem_singleton.mp hp] at hf
    revert hf
    decide) q

/-- On an armed plane out of its safe state the commands of an accepted COMMIT wait at the banks. -/
theorem commit_armed {s : State} {p b row us : Nat} {l : List Passed} (harmed : planeArmed s p = true)
    (hsafe : rbit s R.PPS_STATUS_SAFE_ACTIVE p = false) (hb : b < 2 ^ 32)
    (hl : ∀ q ∈ l, stageMisses s q = false ∧ (match q.cmd with | .drv _ (.rate _) => false | _ => true) = true) :
    CommitStored s (ppsContact (rset s R.PPS_HIGHEST_BID b p) p false .commit row us l) p b row us ∧
    getPps (ppsContact (rset s R.PPS_HIGHEST_BID b p) p false .commit row us l) p =
      { getPps s p with
        live := true
        contactAt := s.now
        commitAt := some s.now
        gridAt := s.now
        expired := []
        expTold := false
        passed := (getPps s p).passed ++ l } := by
  have hread (f : Fld) (hf : f.id ≠ R.PPS_HIGHEST_BID.id) : rbit (rset s R.PPS_HIGHEST_BID b p) f p = rbit s f p :=
    congrArg (· == 1) (rget_rset_ne _ _ _ _ _ _ hf)
  obtain ⟨hst, hrec⟩ := commitTaken_stored s p row us hb
  rw [ppsContact_commit, planeArmed, hread _ (by decide), safeEnded, hread _ (by decide), hsafe,
    if_pos (show rbit s R.PPS_CTRL_ARMED p = true from harmed), if_neg (by simp)]
  generalize commitTaken (rset s R.PPS_HIGHEST_BID b p) p row us = v at hst hrec
  have hst' : CommitStored s (commitArmed s.now v p) p b row us := hst.trans setPps_within
  obtain ⟨hpw, hprec⟩ := passAll (s := commitArmed s.now v p) (p := p) (l := l) fun q hq =>
    ⟨(hst'.within.stageMisses q).trans (hl q hq).1, (hl q hq).2⟩
  refine ⟨hst'.trans hpw, hprec.trans ?_⟩
  rw [commitArmed_rec, hrec]

/-- On a disarmed plane they are not passed. -/
theorem commit_disarmed {s : State} {p b row us : Nat} {l : List Passed} (harmed : planeArmed s p = false) (hb : b < 2 ^ 32)
    (hl : ∀ q ∈ l, stageMisses s q = false) :
    CommitStored s (ppsContact (rset s R.PPS_HIGHEST_BID b p) p false .commit row us l) p b row us ∧
    getPps (ppsContact (rset s R.PPS_HIGHEST_BID b p) p false .commit row us l) p =
      { getPps s p with live := true, contactAt := s.now, commitAt := some s.now, gridAt := s.now } := by
  have hread : rbit (rset s R.PPS_HIGHEST_BID b p) R.PPS_CTRL_ARMED p = false :=
    (congrArg (· == 1) (rget_rset_ne _ _ _ _ _ _ (by decide))).trans harmed
  obtain ⟨hst, hrec⟩ := commitTaken_stored s p row us hb
  rw [ppsContact_commit, planeArmed, hread, if_neg (by simp)]
  generalize commitTaken (rset s R.PPS_HIGHEST_BID b p) p row us = v at hst hrec
  have hst' : CommitStored s (commitNoted s.now v p) p b row us := hst.trans setPps_within
  have hnone : l.filter (stageMisses (commitNoted s.now v p)) = [] := List.filter_eq_nil_iff.mpr fun q hq => by
    rw [hst'.within.stageMisses, hl q hq]
    simp
  rw [show (rset s R.PPS_HIGHEST_BID b p).now = s.now from rfl, hnone, List.foldl_nil]
  refine ⟨hst', ?_⟩
  rw [commitNoted_rec, hrec]

/-- The first COMMIT after a safe state ends it. -/
theorem commit_resumes {s : State} {p : Nat} (row us : Nat) (harmed : planeArmed s p = true)
    (hsafe : rbit s R.PPS_STATUS_SAFE_ACTIVE p = true) :
    rget (ppsContact s p false .commit row us []) R.PPS_STATUS_SAFE_ACTIVE p = 0 ∧
    (getPps (ppsContact s p false .commit row us []) p).expired = [] ∧
    rget (ppsContact s p false .commit row us []) R.PPS_HOLD_EVENTS_HOLD_RESUMES p =
      satTo R.PPS_HOLD_EVENTS_HOLD_RESUMES.width (rget s R.PPS_HOLD_EVENTS_HOLD_RESUMES p + 1) ∧
    Within [.regs, .pps, .log, .mem, .extMem] (blks [.pps, .hlm, .jrn]) s (ppsContact s p false .commit row us []) := by
  obtain ⟨-, -, -, -, -, -, hread, hw⟩ := commitTaken_fields s p row us
  rw [ppsContact_commit, if_pos harmed, safeEnded, if_pos hsafe, List.foldl_nil]
  generalize commitTaken s p row us = v at hread hw
  obtain ⟨w, hwe⟩ : ∃ w, w = rinc (rset v R.PPS_STATUS_SAFE_ACTIVE 0 p) R.PPS_HOLD_EVENTS_HOLD_RESUMES 1 p := ⟨_, rfl⟩
  have hsafe0 : rget w R.PPS_STATUS_SAFE_ACTIVE p = 0 := by
    rw [hwe, rinc, rget_rset_ne _ _ _ _ _ _ (by decide)]
    exact rget_rset_self _ _ _ _ _
  have hcount : rget w R.PPS_HOLD_EVENTS_HOLD_RESUMES p =
      satTo R.PPS_HOLD_EVENTS_HOLD_RESUMES.width (rget s R.PPS_HOLD_EVENTS_HOLD_RESUMES p + 1) := by
    rw [hwe, rget_rinc_self, rget_rset_ne _ _ _ _ _ _ (by decide), hread _ _ _ (by decide)]
  have hw' : Within [.regs, .pps, .log, .mem, .extMem] (blks [.pps, .hlm, .jrn]) s w := by
    rw [hwe]
    exact rinc_within.step (rset_within.step (hw.mono rfl rfl) rfl rfl) rfl rfl
  rw [← hwe]
  have hregs : (commitArmed s.now (raiseEv w evPpsHoldResumed p) p).regs = (raiseEv w evPpsHoldResumed p).regs := rfl
  refine ⟨?_, ?_, ?_, setPps_within.step (raiseEv_within.step hw' rfl rfl) rfl rfl⟩
  · rw [rget_congr hregs, raiseEv_within.rget _ _ _ (by decide)]
    exact hsafe0
  · rw [commitArmed_rec]
  · rw [rget_congr hregs, raiseEv_within.rget _ _ _ (by decide)]
    exact hcount

/-- A KEEP that is not below HIGHEST. -/
theorem keep_taken {s : State} {p b us : Nat} (row : Nat) (l : List Passed) (hpow : (getPps s p).powered = true)
    (hload : ppsLoading s p = false) (hlive : (getPps s p).live = true) (hb : rget s R.PPS_HIGHEST_BID p ≤ b) :
    (ppsFrame s p false .keep b row us l).1 =
      contactNoted (if rget s R.PPS_HIGHEST_BID p < b then rset s R.PPS_HIGHEST_BID b p else s) p us := by
  have hbar : bidBar s p .keep = rget s R.PPS_HIGHEST_BID p := Nat.max_eq_left (Nat.zero_le _)
  refine (ppsFrame_cases hpow hload false .keep b row us _).trans ?_
  rw [hbar, if_neg (Nat.not_lt.mpr hb), if_neg (by simp)]
  refine ppsContact_keep row us l ?_
  split
  · exact hlive
  · exact hlive

/-- A TAKEOVER raises HIGHEST alone. -/
theorem takeover_taken {s : State} {p b : Nat} (hpow : (getPps s p).powered = true) (hload : ppsLoading s p = false)
    (hb : rget s R.PPS_HIGHEST_BID p ≤ b) : (ppsFrame s p false .takeover b 0 0 []).1 =
      if rget s R.PPS_HIGHEST_BID p < b then rset s R.PPS_HIGHEST_BID b p else s := by
  have hbar : bidBar s p .takeover = rget s R.PPS_HIGHEST_BID p := Nat.max_eq_left (Nat.zero_le _)
  refine (ppsFrame_cases hpow hload false .takeover b 0 0 _).trans ?_
  rw [hbar, if_neg (Nat.not_lt.mpr hb), if_pos rfl]

/-- What a frame of the pair does while the fabric runs. -/
theorem exec_pairFrame {s : State} {t : Fc} (f : State → State) (hfab : s.fabric = true) :
    atFabric t (ofPair (rget s R.XLK_PAIR_ID_PAIR_ID) f) s = .next (f (advance s t)) :=
  (atFabric_up s t (ofPair (rget s R.XLK_PAIR_ID_PAIR_ID) f) hfab).trans (congrArg _ (if_pos rfl))

/-- Settles O31. -/
theorem bidsAndFencing : Obligations.BidsAndFencing := by
  unfold Obligations.BidsAndFencing
  refine ⟨?accept, ?armed, ?disarmed, ?resume, ?fenced, ?fencedDown, ?keep, ?takeover, ?takeoverSame, ?fenceAck, ?foreign,
    ?foreignCommit⟩
  case accept =>
    intro s t p b row us l hpow hload hb
    exact (exec_planeFrame _ hpow).trans (congrArg _ (commit_taken (s := advance s t) _ hpow hload hb))
  case armed =>
    intro s t p b row us l hpow hload harmed hsafe hlt hb hl
    have hrun := (commit_taken (s := advance s t) (row := row) (us := us) (partnerCmds (advance s t) p row l) hpow hload
      (Nat.le_of_lt hlt)).trans (congrArg (fun v => ppsContact v p false .commit row us (partnerCmds (advance s t) p row l))
        (if_pos hlt))
    obtain ⟨hst, hrec⟩ := commit_armed (s := advance s t) (row := row) (us := us) harmed hsafe hb hl
    refine ⟨_, (exec_planeFrame _ hpow).trans (congrArg _ hrun), hst.bid, hst.tick, hst.source, hst.holding, hst.row, ?_, ?_, ?_, ?_,
      hst.within.blocksOnly, hst.within.eq_frame⟩ <;> rw [hrec] <;> rfl
  case disarmed =>
    intro s t p b row us l hpow hload harmed hlt hb hl
    have hrun := (commit_taken (s := advance s t) (row := row) (us := us) (partnerCmds (advance s t) p row l) hpow hload
      (Nat.le_of_lt hlt)).trans (congrArg (fun v => ppsContact v p false .commit row us (partnerCmds (advance s t) p row l))
        (if_pos hlt))
    obtain ⟨hst, hrec⟩ := commit_disarmed (s := advance s t) (row := row) (us := us) harmed hb hl
    refine ⟨_, (exec_planeFrame _ hpow).trans (congrArg _ hrun), hst.bid, hst.tick, hst.source, hst.holding, hst.row, ?_, ?_, ?_,
      hst.within.blocksOnly, hst.within.eq_frame⟩ <;> rw [hrec] <;> rfl
  case resume =>
    intro s t p b row us l hpow hload harmed hsafe hb hnone
    obtain ⟨v, hv⟩ : ∃ v, v = if max (rget s R.PPS_HIGHEST_BID p) (takeoverNow (advance s t) p) < b then
      rset (advance s t) R.PPS_HIGHEST_BID b p else advance s t := ⟨_, rfl⟩
    have hrun := commit_taken (s := advance s t) (row := row) (us := us) (partnerCmds (advance s t) p row l) hpow hload hb
    rw [hnone] at hrun
    have hread (f : Fld) (hf : f.id ≠ R.PPS_HIGHEST_BID.id) : rget v f p = rget s f p := by
      rw [hv]
      split
      · exact rget_rset_ne _ _ _ _ _ _ hf
      · rfl
    have hvw : Within [.regs, .pps, .log, .mem, .extMem] (blks [.pps, .hlm, .jrn]) (advance s t) v := by
      rw [hv]
      exact within_ite (rset_within.step (.refl _) rfl rfl) (.refl _)
    obtain ⟨hoff, hexp, hcount, hw⟩ := commit_resumes (s := v) row us
      ((congrArg (· == 1) (hread R.PPS_CTRL_ARMED (by decide))).trans harmed)
      ((congrArg (· == 1) (hread R.PPS_STATUS_SAFE_ACTIVE (by decide))).trans hsafe)
    have hw' : Within [.regs, .pps, .log, .mem, .extMem] (blks [.pps, .hlm, .jrn]) (advance s t) _ := hw.step hvw rfl rfl
    have hrun' : (ppsFrame (advance s t) p false .commit b row us []).1 = ppsContact v p false .commit row us [] := by
      rw [hv]
      exact hrun
    refine ⟨_, (exec_planeFrame (fun s => (ppsFrame s p false .commit b row us (partnerCmds s p row l)).1) hpow).trans
      (congrArg _ ((congrArg (fun l => (ppsFrame (advance s t) p false .commit b row us l).1) hnone).trans hrun')), hoff, hexp, ?_,
      hw'.blocksOnly, hw'.eq_frame⟩
    rw [hcount, hread _ (by decide)]
  case fenced =>
    intro s t p b row us l hpow hload hfab hb
    refine (exec_planeFrame _ hpow).trans (congrArg _ ((commit_fenced (s := advance s t) _ hpow hload hb).trans ?_))
    exact if_pos hfab
  case fencedDown =>
    intro s t p b row us l hpow hload hfab hb
    refine (exec_planeFrame _ hpow).trans (congrArg _ ((commit_fenced (s := advance s t) _ hpow hload hb).trans ?_))
    exact if_neg (Bool.eq_false_iff.mp hfab)
  case keep =>
    intro s t p b row us l hpow hload hlive hb
    have hrun := keep_taken (s := advance s t) (us := us) row (partnerCmds (advance s t) p row l) hpow hload hlive hb
    obtain ⟨v, hv⟩ : ∃ v, v = if rget (advance s t) R.PPS_HIGHEST_BID p < b then rset (advance s t) R.PPS_HIGHEST_BID b p
      else advance s t := ⟨_, rfl⟩
    rw [← hv] at hrun
    have hvw : Within [.regs] (blks [.pps]) (advance s t) v := by
      rw [hv]
      exact within_ite (rset_within.step (.refl _) rfl rfl) (.refl _)
    obtain ⟨htick, hsource, hhold, hrec, -⟩ := contactNoted_fields v p us
    have hw : Within [.regs, .pps] (blks [.pps]) (advance s t) (contactNoted v p us) :=
      setPps_within.step (rset_within.step (rset_within.step (rset_within.step (hvw.mono rfl rfl) rfl rfl) rfl rfl) rfl rfl) rfl rfl
    refine ⟨_, (exec_planeFrame _ hpow).trans (congrArg _ hrun), htick, hsource, hhold, ?_, ?_, hw.blocksOnly, hw.eq_frame⟩
    · rw [hrec]
      exact hvw.now.resolve_left (by simp)
    · rw [hrec, getPps_congr (hvw.pps.resolve_left (by simp))]
      rfl
  case takeover =>
    intro s t p b hpow hload hb
    exact (exec_planeFrame _ hpow).trans (congrArg _ ((takeover_taken (s := advance s t) hpow hload (Nat.le_of_lt hb)).trans
      (if_pos hb)))
  case takeoverSame =>
    intro s t p b hpow hload hb
    exact (exec_planeFrame _ hpow).trans (congrArg _ ((takeover_taken (s := advance s t) hpow hload (Nat.le_of_eq hb.symm)).trans
      (if_neg (Nat.not_lt.mpr (Nat.le_of_eq hb)))))
  case fenceAck =>
    intro s t hfab hrole hnot
    have hrun : fencedOut (advance s t) = raiseEv (rinc { advance s t with xlk := { s.xlk with fencedOut := true } }
        R.XLK_COUNTS_FENCED_OUT) evPairFencedOut := if_pos ⟨hrole, by rw [show (advance s t).xlk.fencedOut = false from hnot]; rfl⟩
    have hw : Within [.regs, .xlk, .log, .mem, .extMem] (blks [.xlk, .hlm, .jrn]) (advance s t) (raiseEv (rinc { advance s t with
        xlk := { s.xlk with fencedOut := true } } R.XLK_COUNTS_FENCED_OUT) evPairFencedOut) :=
      raiseEv_within.step (rinc_within.step (within_xlk (.refl _) rfl) rfl rfl) rfl rfl
    refine ⟨_, (exec_pairFrame (fun s => if _ = rget s R.XLK_BID_BID then fencedOut s else s) hfab).trans
      (congrArg _ ((if_pos rfl).trans hrun)), raiseEv_xlk _ _ _ _, ?_, hw.blocksOnly, hw.eq_frame⟩
    rw [raiseEv_within.rget _ _ _ (by decide), rget_rinc_self]
    rfl
  case foreign =>
    intro s t q h hfab hq
    exact (atFabric_up s t (ofPair q fun s => hbRx s h) hfab).trans (congrArg _ (if_neg hq))
  case foreignCommit =>
    intro s t p b row us l q hpow hfab hq
    refine (atPlane_powered s t p (ofPlanePair q p _) hpow).trans (congrArg _ ((if_neg hq).trans (if_pos hfab)))

end Sys2Proof.Machine
end

section
/-! Roles, heartbeats, resynchronisation, handover and shadow rows (R227–R243, R250–R255). -/

namespace Sys2Proof.Machine

/-! ### Frames handed to the cross-link -/

/-- A payload of up to 256 bytes goes in one frame. -/
theorem xlkSend_short (s : State) (typ : Nat) {payload : List Nat} (item : Option (Nat × ResyncItem)) (h : payload.length ≤ 64) :
    xlkSend s typ payload item = linkPut s typ payload item := by
  have hone : max 1 ((payload.length + 63) / 64) = 1 := by omega
  unfold xlkSend
  rw [hone, List.range_one, List.foldl_cons, List.foldl_nil, Nat.mul_zero, List.drop_zero, List.take_of_length_le h, if_pos rfl]

theorem linkPut_xlk (s : State) (typ : Nat) (payload : List Nat) (item : Option (Nat × ResyncItem)) :
    (linkPut s typ payload item).xlk = { s.xlk with
      out := s.xlk.out ++ [⟨linkReq typ, typ, frameWords (rget s R.XLK_PAIR_ID_PAIR_ID) typ s.xlk.txSeq payload, item⟩]
      txSeq := (s.xlk.txSeq + 1) % 65536 } :=
  linkAsk_within.xlk.resolve_left (by simp)

theorem xlkSend_xlk (s : State) (typ : Nat) {payload : List Nat} (item : Option (Nat × ResyncItem)) (h : payload.length ≤ 64) :
    (xlkSend s typ payload item).xlk = { s.xlk with
      out := s.xlk.out ++ [⟨linkReq typ, typ, frameWords (rget s R.XLK_PAIR_ID_PAIR_ID) typ s.xlk.txSeq payload, item⟩]
      txSeq := (s.xlk.txSeq + 1) % 65536 } := by
  rw [xlkSend_short s typ item h, linkPut_xlk]

theorem xlkSend_rget (s : State) (typ : Nat) (payload : List Nat) (item : Option (Nat × ResyncItem)) (f : Fld) (i j : Nat)
    (hf : f.id / 128 ∉ blks [.arb]) : rget (xlkSend s typ payload item) f i j = rget s f i j := xlkSend_within.rget f i j hf

theorem resyncSend_inbox (s : State) (row : Nat) (item : ResyncItem) : (resyncSend s row item).xlk.inbox = s.xlk.inbox := by
  unfold resyncSend xlkSend
  refine foldl_invariant (P := fun v : State => v.xlk.inbox = s.xlk.inbox) rfl fun v k _ hv => ?_
  rw [linkPut_xlk]
  exact hv

theorem Within.sameOutputs {ps : List Part} {bs : List Nat} {s u : State} (h : Within ps bs s u)
    (hp : ([.drv, .dbk, .sw, .feed, .pps] : List Part).all (· ∉ ps) = true) : SameOutputs s u := by
  have hnot {q : Part} (hq : q ∈ ([.drv, .dbk, .sw, .feed, .pps] : List Part)) : q ∉ ps :=
    of_decide_eq_true (List.all_eq_true.mp hp q hq)
  exact ⟨h.drv.resolve_left (hnot (by decide)), h.dbk.resolve_left (hnot (by decide)), h.sw.resolve_left (hnot (by decide)),
    h.feed.resolve_left (hnot (by decide)), h.pps.resolve_left (hnot (by decide))⟩

theorem healthWords_length (s : State) (l : List Nat) : (healthWords s l).length = 16 := rfl

/-! ### Heartbeats -/

/-- What a heartbeat leaves of the record of the pair. -/
def hbNoted (s : State) (h : Heartbeat) : State :=
  { s with xlk := { s.xlk with
      lastHb := some h, hbEpoch := h.bid / 256, hbHeard := true, shadowed := false, lateShadow := false,
      takeNext := role s == 4 && h.handover && !h.disarmed } }

theorem hbRx_noted {s : State} {h : Heartbeat} (hen : pairEn s = true) (hrole : h.role = 2 ∨ h.role = 4 ∨ s.xlk.handover = []) :
    hbRx s h = if h.stopped then hbNoted s h
      else rset (rset (hbNoted s h) R.XLK_ROLE_MISSED 0) R.XLK_ROLE_PARTNER_LOST 0 := by
  obtain ⟨v, hv⟩ : ∃ v, v = if h.stopped then hbNoted s h
    else rset (rset (hbNoted s h) R.XLK_ROLE_MISSED 0) R.XLK_ROLE_PARTNER_LOST 0 := ⟨_, rfl⟩
  have hxlk : v.xlk = (hbNoted s h).xlk := by
    rw [hv]
    split <;> rfl
  have heq : hbRx s h = if h.role = 4 ∨ h.role = 2 then v
      else v.xlk.handover.foldl (fun s x => complete s x.1 stPartnerAbsent 0x0282) { v with xlk := { v.xlk with handover := [] } } := by
    unfold hbRx
    rw [hen, if_neg (by simp), hv]
    rfl
  rw [← hv, heq]
  by_cases hr : h.role = 4 ∨ h.role = 2
  · exact if_pos hr
  · have hnone : v.xlk.handover = [] := by
      rw [hxlk]
      rcases hrole with h2 | h4 | h0
      · exact absurd (.inr h2) hr
      · exact absurd (.inl h4) hr
      · exact h0
    rw [if_neg hr, hnone, List.foldl_nil, ← hnone]

/-! ### Mirrors and health -/

theorem mirrorRx_fields {s : State} {row off : Nat} {l : List Nat} (hrole : role s = 3 ∨ role s = 4) :
    (mirrorRx s row off l).xlk.mirrorRow = row ∧
    (mirrorRx s row off l).xlk.mirrorGot = (if s.xlk.mirrorRow = row then s.xlk.mirrorGot else 0) + 1 ∧
    ∀ e < 8, tblGet? (mirrorRx s row off l).xlk.mirror (off / 8 + e) = some (l.getD e 0) := by
  obtain ⟨x, hx⟩ : ∃ x : Xlk, x = if s.xlk.mirrorRow = row then s.xlk else { s.xlk with mirror := [], mirrorRow := row, mirrorGot := 0 } :=
    ⟨_, rfl⟩
  obtain ⟨m, hm⟩ : ∃ m, m = (List.range 8).foldl (fun t e => tblSet t (off / 8 + e) (l.getD e 0)) x.mirror := ⟨_, rfl⟩
  have heq : mirrorRx s row off l = { s with xlk := { x with mirror := m, mirrorGot := x.mirrorGot + 1 } } := by
    rw [hm, hx]
    unfold mirrorRx
    exact if_neg (by omega)
  have hrow : x.mirrorRow = row ∧ x.mirrorGot = if s.xlk.mirrorRow = row then s.xlk.mirrorGot else 0 := by
    rw [hx]
    split
    · exact ⟨‹_›, rfl⟩
    · exact ⟨rfl, rfl⟩
  rw [heq]
  refine ⟨hrow.1, congrArg (· + 1) hrow.2, fun e he => ?_⟩
  have hfold := foldl_pointwise (β := Tbl Nat) (f := fun t e => tblSet t (off / 8 + e) (l.getD e 0))
    (fun t e => (e, tblGet? t (off / 8 + e))) (R := fun a b => b.2 = some (l.getD a.1 0)) (l := List.range 8) List.nodup_range
    (fun t a _ => tblGet?_set_self _ _ _) (fun t a _ c _ hne => by
      rw [tblGet?_set_ne _ _ (by omega)]) (List.mem_range.mpr he) x.mirror
  dsimp only at hfold
  rw [hm]
  exact hfold

theorem healthRx_words {s : State} {l : List Nat} (hl : ∀ x ∈ l, x < 2 ^ 32) :
    ∀ k < 16, rget (healthRx s l) R.XLK_PEER_HEALTH_WORD 0 k = l.getD k 0 := by
  intro k hk
  have hlt : l.getD k 0 < 2 ^ 32 := by
    rw [List.getD_eq_getElem?_getD]
    cases hx : l[k]? with
    | none => simp
    | some x => exact hl x (List.mem_of_getElem? hx)
  have hfold := foldl_pointwise (β := State) (f := fun s k => rset s R.XLK_PEER_HEALTH_WORD (l.getD k 0) 0 k)
    (fun t k => (k, rget t R.XLK_PEER_HEALTH_WORD 0 k)) (R := fun a b => b.2 = l.getD a.1 0 % 2 ^ 32) (l := List.range 16)
    List.nodup_range (fun t a _ => rget_rset_self _ _ _ _ _) (fun t a ha c hc hne => by
      have := List.mem_range.mp ha
      have := List.mem_range.mp hc
      rw [rget_rset, if_neg (by omega)]) (List.mem_range.mpr hk) s
  dsimp only at hfold
  exact (telemetryPut_within.rget _ _ _ (by decide)).trans (hfold.trans (Nat.mod_eq_of_lt hlt))

/-! ### Listening -/

theorem listenExpiry_alone {s : State} (hrole : role s = 1)
    (hrow : s.xlk.startRow + rval s R.XLK_PAIR_CFG_HB_MISS + 2 ≤ rowNow s) (hhb : s.xlk.lastHb = none)
    (halone : rbit s R.XLK_PAIR_CFG_ALONE_OK = true) :
    listenExpiry s true = rset (announce (becomeCommander s 2 true)) R.XLK_ROLE_PARTNER_LOST 1 := by
  unfold listenExpiry
  rw [if_neg (by omega), hhb]
  exact if_pos halone

theorem listenExpiry_heard {s : State} {h : Heartbeat} (x : Bool) (hrole : role s = 1)
    (hrow : s.xlk.startRow + rval s R.XLK_PAIR_CFG_HB_MISS + 2 ≤ rowNow s) (hhb : s.xlk.lastHb = some h) (hpri : h.role = 2) :
    listenExpiry s x = enterResync s := by
  unfold listenExpiry
  rw [if_neg (by omega), hhb]
  exact if_pos hpri

/-- A module that becomes PRIMARY has a bid of the next epoch and announces it. -/
theorem announced_fields (s : State) :
    rget (announce (becomeCommander s 2 true)) R.XLK_ROLE_ROLE = 2 ∧
    rget (announce (becomeCommander s 2 true)) R.XLK_BID_BID = (nextEpoch s * 256 + rankOf s) % 2 ^ 32 ∧
    (announce (becomeCommander s 2 true)).xlk.savedEpoch = nextEpoch s ∧
    (announce (becomeCommander s 2 true)).xlk.out = s.xlk.out ++ [⟨none, 7, frameWords (rget s R.XLK_PAIR_ID_PAIR_ID) 7 s.xlk.txSeq
      [(nextEpoch s * 256 + rankOf s) % 2 ^ 32], none⟩] ∧
    Within [.regs, .rolLatch, .arbs, .xlk] (blks [.xlk, .arb]) s (announce (becomeCommander s 2 true)) := by
  obtain ⟨v, hv⟩ : ∃ v, v = becomeCommander s 2 true := ⟨_, rfl⟩
  have hw : Within [.regs, .rolLatch, .arbs, .xlk] (blks [.xlk, .arb]) s v := by
    rw [hv]
    exact within_xlk (rset_within.step (rset_within.step (.refl s) rfl rfl) rfl rfl) rfl
  have hrole : rget v R.XLK_ROLE_ROLE = 2 := by
    rw [hv]
    exact rget_rset_self _ _ _ _ _
  have hbid : rget v R.XLK_BID_BID = (nextEpoch s * 256 + rankOf s) % 2 ^ 32 := by
    rw [hv]
    exact (rget_rset_ne _ _ _ _ _ _ (by decide)).trans (rget_rset_self _ _ _ _ _)
  have hpair : rget v R.XLK_PAIR_ID_PAIR_ID = rget s R.XLK_PAIR_ID_PAIR_ID := by
    rw [hv]
    exact (rget_rset_ne _ _ _ _ _ _ (by decide)).trans (rget_rset_ne _ _ _ _ _ _ (by decide))
  have hxlk : v.xlk = { s.xlk with savedEpoch := nextEpoch s } := by
    rw [hv]
    rfl
  rw [← hv]
  have hsent := xlkSend_xlk v 7 none (payload := [rget v R.XLK_BID_BID]) (by simp)
  rw [hxlk, hpair, hbid] at hsent
  refine ⟨(xlkSend_rget _ _ _ _ _ _ _ (by decide)).trans hrole, (xlkSend_rget _ _ _ _ _ _ _ (by decide)).trans hbid, ?_, ?_,
    xlkSend_within.step hw rfl rfl⟩
  · rw [announce, hbid, hsent]
  · rw [announce, hbid, hsent]
    rfl

theorem enterResync_fields (s : State) :
    rget (enterResync s) R.XLK_ROLE_ROLE = 3 ∧ rget (enterResync s) R.XLK_ROLE_MATCH_ROWS = 0 ∧
    rget (enterResync s) R.XLK_BID_BID = rget s R.XLK_BID_BID ∧
    (enterResync s).xlk.inbox = (if role s = 4 then s.xlk.inbox else []) ∧
    Within [.regs, .rolLatch, .arbs, .xlk] (blks [.xlk, .arb]) s (enterResync s) := by
  unfold enterResync
  extract_lets s1 src
  have hrole : rget s1 R.XLK_ROLE_ROLE = 3 := (rget_rset_ne _ _ _ _ _ _ (by decide)).trans (rget_rset_self _ _ _ _ _)
  have hmatch : rget s1 R.XLK_ROLE_MATCH_ROWS = 0 := rget_rset_self _ _ _ _ _
  have hbid : rget s1 R.XLK_BID_BID = rget s R.XLK_BID_BID :=
    (rget_rset_ne _ _ _ _ _ _ (by decide)).trans (rget_rset_ne _ _ _ _ _ _ (by decide))
  refine ⟨(xlkSend_rget _ _ _ _ _ _ _ (by decide)).trans hrole, (xlkSend_rget _ _ _ _ _ _ _ (by decide)).trans hmatch,
    (xlkSend_rget _ _ _ _ _ _ _ (by decide)).trans hbid, resyncSend_inbox _ _ _,
    xlkSend_within.step (within_xlk (rset_within.step (rset_within.step (.refl s) rfl rfl) rfl rfl) rfl) rfl rfl⟩

/-! ### Shadow rows -/

/-- What a standby finds for the row of a PRIMARY's heartbeat whose mirrors it has. -/
theorem shadowRow_standby {s : State} {h : Heartbeat} (hrole : role s = 3 ∨ role s = 4) (hnew : s.xlk.shadowed = false)
    (hhb : s.xlk.lastHb = some h) (hpri : h.role = 2)
    (hmir : h.mirrorCount = 0 ∨ (s.xlk.mirrorRow = h.row ∧ h.mirrorCount ≤ s.xlk.mirrorGot)) :
    shadowRow s =
      let s1 := shadowEpoch (applyInbox { s with xlk := { s.xlk with shadowed := true } } h.row) h.epoch
      if h.overrun ∨ h.stopped ∨ h.disarmed then { s1 with xlk := { s1.xlk with shadow := shadowReport h 0 } }
      else
        let r := shadowRun s1 h
        shadowCompare { r.1 with xlk := { r.1.xlk with shadow := shadowReport h r.2 } } r.2 h.digest := by
  unfold shadowRow
  rw [hhb]
  dsimp only
  rw [if_neg (by simp [hnew, hpri, hmir]), if_neg (by omega), if_neg (by omega)]

theorem applyInbox_empty {s : State} (row : Nat) (h : s.xlk.inbox = []) : applyInbox s row = s := by
  unfold applyInbox
  rw [h]
  dsimp only [List.filter_nil, List.foldl_nil]
  rw [← h]

/-! ### O32 -/

theorem exec_resync {s : State} {t : Fc} (row : Nat) (i : ResyncItem) (hfab : s.fabric = true)
    (hedge : edgeDue (advance s t) = false) :
    exec (.resyncRx ⟨t, rget s R.XLK_PAIR_ID_PAIR_ID⟩ row i) s = .next (resyncRx (advance s t) row i) :=
  (exec_pairFrame (afterEdge (.resyncRx ⟨t, rget s R.XLK_PAIR_ID_PAIR_ID⟩ row i) fun s => resyncRx s row i) hfab).trans
    (congrArg _ (afterEdge_now (advance s t) _ _ hedge))

/-- A pulled item takes effect at once on a standby. -/
theorem resyncRx_pulled {s : State} {i : ResyncItem} (hrole : role s = 3 ∨ role s = 4) (h1 : i ≠ .confirm) (h2 : i ≠ .pull)
    (h3 : i ≠ .dated) : resyncRx s 0 i = applyItem s i := by
  have hstandby : ¬(role s ≠ 3 ∧ role s ≠ 4) := by omega
  unfold resyncRx
  cases i with
  | confirm => exact absurd rfl h1
  | pull => exact absurd rfl h2
  | dated => exact absurd rfl h3
  | _ => exact (if_neg hstandby).trans (if_pos rfl)

/-- A forwarded item that needs no confirmation waits for its row. -/
theorem resyncRx_forwarded {s : State} {i : ResyncItem} {row : Nat} (hrole : role s = 3 ∨ role s = 4) (hrow : row ≠ 0)
    (h4 : (match i with | .pattern _ _ => true | .pendingTable _ => true | _ => false) = false)
    (h1 : i ≠ .confirm) (h2 : i ≠ .pull) (h3 : i ≠ .dated) :
    resyncRx s row i = { s with xlk := { s.xlk with inbox := s.xlk.inbox ++ [(row, i)] } } := by
  have hstandby : ¬(role s ≠ 3 ∧ role s ≠ 4) := by omega
  unfold resyncRx
  cases i with
  | confirm => exact absurd rfl h1
  | pull => exact absurd rfl h2
  | dated => exact absurd rfl h3
  | pattern fb p => exact absurd h4 (by simp)
  | pendingTable img => exact absurd h4 (by simp)
  | _ => exact (if_neg hstandby).trans (if_neg hrow)

/-- A forwarded pattern or table set is confirmed, and waits for the row that the primary names. -/
theorem resyncRx_confirmed {s : State} {i : ResyncItem} {row : Nat} (hrole : role s = 3 ∨ role s = 4) (hrow : row ≠ 0)
    (h4 : (match i with | .pattern _ _ => true | .pendingTable _ => true | _ => false) = true) :
    resyncRx s row i = resyncSend { s with xlk := { s.xlk with
      inbox := (s.xlk.inbox.filter fun p => p.1 != undated) ++ [(undated, i)] } } row .confirm := by
  have hstandby : ¬(role s ≠ 3 ∧ role s ≠ 4) := by omega
  unfold resyncRx
  cases i with
  | pattern fb p => exact (if_neg hstandby).trans (if_neg hrow)
  | pendingTable img => exact (if_neg hstandby).trans (if_neg hrow)
  | _ => exact absurd h4 (by simp)

/-- A shadow row without pattern matches a primary that staged nothing. -/
theorem shadowRow_matches {s : State} {h : Heartbeat} (hrole : role s = 4) (hnew : s.xlk.shadowed = false)
    (hhb : s.xlk.lastHb = some h) (hpri : h.role = 2)
    (hmir : h.mirrorCount = 0 ∨ (s.xlk.mirrorRow = h.row ∧ h.mirrorCount ≤ s.xlk.mirrorGot)) (hover : h.overrun = false)
    (hstop : h.stopped = false) (hdis : h.disarmed = false) (hfall : h.fallback = false) (hmain : s.tke.main = none)
    (hbox : s.xlk.inbox = []) (hpend : s.tke.pendTbl = none) (hdig : h.digest = 0) :
    shadowRow s = rinc { s with xlk := { s.xlk with shadowed := true, shadow := shadowReport h 0 } } R.XLK_ROLE_MATCH_ROWS := by
  obtain ⟨v, hv⟩ : ∃ v, v = { s with xlk := { s.xlk with shadowed := true } } := ⟨_, rfl⟩
  have hin : applyInbox v h.row = v := applyInbox_empty _ (by rw [hv]; exact hbox)
  have hep : shadowEpoch v h.epoch = v := if_neg (by rw [hv]; simp [hpend])
  have hrun : shadowRun v h = (v, 0) := by
    unfold shadowRun
    rw [hfall, if_neg (by simp), show v.tke.main = none by rw [hv]; exact hmain]
  have heq := shadowRow_standby (.inr hrole) hnew hhb hpri hmir
  rw [← hv, hin, hep] at heq
  dsimp only at heq
  rw [if_neg (by simp [hover, hstop, hdis]), hrun, hdig] at heq
  dsimp only at heq
  obtain ⟨w, hw⟩ : ∃ w, w = { v with xlk := { v.xlk with shadow := shadowReport h 0 } } := ⟨_, rfl⟩
  have hr : role (rinc w R.XLK_ROLE_MATCH_ROWS) = 4 := by
    rw [role, rinc, rget_rset_ne _ _ _ _ _ _ (by decide), hw, hv]
    exact hrole
  rw [← hw, shadowCompare, if_pos rfl] at heq
  dsimp only at heq
  rw [if_neg (by omega)] at heq
  rw [heq, hw, hv]

/-- Settles O32. -/
theorem pairing : Obligations.Pairing := by
  unfold Obligations.Pairing
  refine ⟨?hb, ?hbStopped, ?mirror, ?health, ?pulled, ?forwarded, ?confirmed, ?dated, ?confirm, ?pull, ?held, ?service, ?bad, ?linkUp,
    ?linkDown, ?healthTx, ?offer, ?refuse, ?unanswered, ?alone, ?heard, ?shadow, ?overrun, ?matching, ?timeout⟩
  case hb =>
    intro s t h hfab hen hrun hrole
    have heq := hbRx_noted (s := advance s t) hen hrole
    rw [hrun, if_neg (by simp)] at heq
    refine ⟨_, (exec_pairFrame (fun s => hbRx s h) hfab).trans (congrArg _ heq), ?_, rget_rset_self _ _ _ _ _, rfl, rfl, rfl, rfl, ?_, rfl⟩
    · exact (rget_rset_ne _ _ _ _ _ _ (by decide)).trans (rget_rset_self _ _ _ _ _)
    · refine RegsOnly.trans (u := rset (hbNoted (advance s t) h) R.XLK_ROLE_MISSED 0) ?_ ?_
      · exact rset_regsOnly (hbNoted (advance s t) h) _ _ _ _ (by simp)
      · exact rset_regsOnly _ _ _ _ _ (by simp)
  case hbStopped =>
    intro s t h hfab hen hrun hrole
    have heq := hbRx_noted (s := advance s t) hen hrole
    rw [hrun, if_pos rfl] at heq
    exact ⟨_, (exec_pairFrame (fun s => hbRx s h) hfab).trans (congrArg _ heq), rfl, rfl, rfl, rfl, rfl⟩
  case mirror =>
    intro s t row off l hfab hrole
    obtain ⟨hrow, hgot, hset⟩ := mirrorRx_fields (s := advance s t) (row := row) (off := off) (l := l) hrole
    have hw : Within [.xlk] [] (advance s t) (mirrorRx (advance s t) row off l) := mirrorRx_within
    exact ⟨_, exec_pairFrame (fun s => mirrorRx s row off l) hfab, hrow, hgot, hset, hw.eq_frame⟩
  case health =>
    intro s t l hfab hl
    have hw : Within [.regs, .mem, .extMem] (blks [.xlk, .hlm]) (advance s t) (healthRx (advance s t) l) :=
      healthRx_within.mono rfl rfl
    exact ⟨_, exec_pairFrame (fun s => healthRx s l) hfab, healthRx_words hl, hw.blocksOnly, hw.eq_frame⟩
  case pulled =>
    intro s t i hfab hedge hrole h1 h2 h3
    exact (exec_resync 0 i hfab hedge).trans (congrArg _ (resyncRx_pulled (s := advance s t) hrole h1 h2 h3))
  case forwarded =>
    intro s t i row hfab hedge hrole hrow h1 h2 h3 h4
    exact (exec_resync row i hfab hedge).trans (congrArg _ (resyncRx_forwarded (s := advance s t) hrole hrow h4 h1 h2 h3))
  case confirmed =>
    intro s t i row hfab hedge hrole hrow h4
    exact (exec_resync row i hfab hedge).trans (congrArg _ (resyncRx_confirmed (s := advance s t) hrole hrow h4))
  case dated =>
    intro s t row hfab hedge
    exact exec_resync row .dated hfab hedge
  case confirm =>
    intro s t row hfab hedge hrole
    exact (exec_resync row .confirm hfab hedge).trans (congrArg _ (if_pos hrole))
  case pull =>
    intro s t row hfab hedge hrole
    exact (exec_resync row .pull hfab hedge).trans (congrArg _ (if_pos hrole))
  case held =>
    intro s t i row hfab hedge
    exact (exec_pairFrame (afterEdge (.resyncRx ⟨t, rget s R.XLK_PAIR_ID_PAIR_ID⟩ row i) fun s => resyncRx s row i) hfab).trans
      (congrArg _ (afterEdge_held (advance s t) _ _ hedge))
  case service =>
    intro s t l hfab
    exact exec_pairFrame (fun s => { s with xlk := { s.xlk with service := l } }) hfab
  case bad =>
    intro s t l hfab hbad
    refine (atFabric_up s t (fun s => if badFrame s l then rinc s R.XLK_BAD_FRAMES_COUNT else s) hfab).trans (congrArg _ (if_pos ?_))
    unfold badFrame
    rcases hbad with h | h
    · simp [bne_iff_ne.mpr h]
    · rw [Bool.or_eq_true]
      exact .inr (bne_iff_ne.mpr h)
  case linkUp =>
    intro s t d hfab
    exact atFabric_up s t (fun s => rset { s with xlk := { s.xlk with cableNs := d } } R.XLK_ROLE_LINK_UP 1) hfab
  case linkDown =>
    intro s t hfab
    exact atFabric_up s t (fun s => rset s R.XLK_ROLE_LINK_UP 0) hfab
  case healthTx =>
    intro s t l hfab hen hsec
    have hrun : healthTx (advance s t) l = { xlkSend (advance s t) 5 (healthWords (advance s t) l) none with
        xlk := { (xlkSend (advance s t) 5 (healthWords (advance s t) l) none).xlk with
          healthSeq := (xlkSend (advance s t) 5 (healthWords (advance s t) l) none).xlk.healthSeq + 1
          healthAt := moduleTime (advance s t) / 1000000000
          recentMismatch := 0 } } :=
      if_pos (by rw [show pairEn (advance s t) = true from hen, Bool.true_and]; exact bne_iff_ne.mpr hsec)
    have hsent := xlkSend_xlk (advance s t) 5 none (payload := healthWords (advance s t) l) (by rw [healthWords_length]; omega)
    have hw : Within [.regs, .rolLatch, .arbs, .xlk] (blks [.arb]) (advance s t) (healthTx (advance s t) l) := healthTx_within
    rw [hsent] at hrun
    rw [hrun] at hw
    exact ⟨_, (atFabric_up s t (fun s => healthTx s l) hfab).trans (congrArg _ hrun), rfl, rfl, rfl, rfl, hw.blocksOnly,
      hw.sameOutputs rfl, hw.mem.resolve_left (by simp), hw.extMem.resolve_left (by simp)⟩
  case offer =>
    intro s t r d h hfab hd hdue hrole hhb hready hlost
    refine (atFabric_desc hfab (fun _ s => pairHandover s r) hd hdue).trans (congrArg _ ?_)
    unfold pairHandover
    rw [if_neg (not_not.mpr (show role (takeReq (advance s t) r) = 2 from hrole)),
      show (takeReq (advance s t) r).xlk.lastHb = some h from hhb]
    dsimp only
    rw [if_neg (not_not.mpr hready),
      if_neg (by rw [show rbit (takeReq (advance s t) r) R.XLK_ROLE_PARTNER_LOST = false from hlost]; simp)]
    rfl
  case refuse =>
    intro s t r d hfab hd hdue hrole
    exact (atFabric_desc hfab (fun _ s => pairHandover s r) hd hdue).trans (congrArg _ (if_pos hrole))
  case unanswered =>
    intro s t r row hfab hoffer hlate hnot
    refine (atFabric_up s t handoverTimeout hfab).trans (congrArg _ ?_)
    unfold handoverTimeout
    rw [if_neg (by rw [show (advance s t).xlk.fencedOut = false from hnot]; simp)]
    extract_lets late src
    have hl : late (r, row) = true := decide_eq_true hlate
    rw [show (advance s t).xlk.handover = [(r, row)] from hoffer]
    simp only [List.filter_cons, hl, List.filter_nil, Bool.not_true, if_true, List.foldl_cons, List.foldl_nil]
    rfl
  case alone =>
    intro s t hfab hrole hrow hhb halone
    have hrun := listenExpiry_alone (s := advance s t) hrole hrow hhb halone
    obtain ⟨hr, hbid, hep, hout, hw⟩ := announced_fields (advance s t)
    have hw' : Within [.regs, .rolLatch, .arbs, .xlk] (blks [.xlk, .arb]) (advance s t)
      (rset (announce (becomeCommander (advance s t) 2 true)) R.XLK_ROLE_PARTNER_LOST 1) := rset_within.step hw rfl rfl
    have hbid' : rget (rset (announce (becomeCommander (advance s t) 2 true)) R.XLK_ROLE_PARTNER_LOST 1) R.XLK_BID_BID =
        (nextEpoch s * 256 + rankOf s) % 2 ^ 32 := (rget_rset_ne _ _ _ _ _ _ (by decide)).trans hbid
    refine ⟨_, (atFabric_up s t (fun s => listenExpiry s true) hfab).trans (congrArg _ hrun),
      (rget_rset_ne _ _ _ _ _ _ (by decide)).trans hr, rget_rset_self _ _ _ _ _, hbid', hep, ?_, hw'.blocksOnly, hw'.sameOutputs rfl⟩
    rw [hbid']
    exact hout
  case heard =>
    intro s t h x hfab hrole hrow hhb hpri
    have hrun := listenExpiry_heard (s := advance s t) x hrole hrow hhb hpri
    obtain ⟨hr, hm, hbid, hbox, hw⟩ := enterResync_fields (advance s t)
    refine ⟨_, (atFabric_up s t (fun s => listenExpiry s x) hfab).trans (congrArg _ hrun), hr, hm, hbid, hbox.trans (if_neg ?_),
      hw.blocksOnly, hw.sameOutputs rfl⟩
    rw [show role (advance s t) = 1 from hrole]
    decide
  case shadow =>
    intro s t h a r hfab hrole hnew hhb hpri hmir hover hstop hdis ha hr
    refine (atFabric_up s t shadowRow hfab).trans (congrArg _ ?_)
    refine (shadowRow_standby (s := advance s t) hrole hnew hhb hpri hmir).trans ?_
    rw [hr, ha]
    exact if_neg (by simp [hover, hstop, hdis])
  case overrun =>
    intro s t h a hfab hrole hnew hhb hpri hmir hends ha
    refine (atFabric_up s t shadowRow hfab).trans (congrArg _ ?_)
    refine (shadowRow_standby (s := advance s t) hrole hnew hhb hpri hmir).trans ?_
    rw [ha]
    exact if_pos hends
  case matching =>
    intro s t h hfab hrole hnew hhb hpri hmir hover hstop hdis hfall hmain hbox hpend hdig
    have hrun := shadowRow_matches (s := advance s t) hrole hnew hhb hpri hmir hover hstop hdis hfall hmain hbox hpend hdig
    refine ⟨_, (atFabric_up s t shadowRow hfab).trans (congrArg _ hrun), rfl, rfl, rget_rinc_self _ _ _ _ _, ?_, rfl⟩
    exact (rget_rset_ne _ _ _ _ _ _ (by decide)).trans hrole
  case timeout =>
    intro s t f l hfab hedge hf ht
    refine (atFabric_afterEdge hfab (.forwardConfirmTimeout t) forwardTimeout hedge).trans (congrArg _ ?_)
    unfold forwardTimeout
    rw [show (advance s t).xlk.forwards = f :: l from hf]
    refine (if_pos ht).trans ?_
    unfold releaseForward
    rw [show (advance s t).xlk.forwards = f :: l from hf]
    cases f <;> rfl

/-- Settles O53, by O30 to O32. -/
theorem pairComplete : Obligations.PairComplete := by
  obtain ⟨arm, -, disarm, safeNow, clear, -, holding, expiry, -, loss, powerUp⟩ := planeSupervisors
  obtain ⟨accept, -, -, -, -, -, -, takeover, -, fenceAck, -, -⟩ := bidsAndFencing
  obtain ⟨hb, -, mirror, health, pulled, -, -, -, -, -, -, service, bad, linkUp, linkDown, healthTx, offer, -, unanswered, alone, -,
    shadow, -, -, timeout⟩ := pairing
  unfold Obligations.PairComplete
  refine ⟨?_, ?_, ?_, ?_, ?_, ?_, ?_, ?_, accept, ?_, ?_, ?_, ?_, ?_, pulled, ?_, ?_, ?_, ?_, ?_, ?_, ?_, ?_, shadow, ?_⟩
  · intro s t p h1 h2 h3 h4 h5 h6 h7 h8
    obtain ⟨u, hu, harmed, -, herr, -⟩ := arm s t p h1 h2 h3 h4 h5 h6 h7 h8
    exact ⟨u, hu, harmed, herr⟩
  · intro s t p h1 h2 h3 h4
    obtain ⟨u, hu, hoff, harm, -⟩ := disarm s t p h1 h2 h3 h4
    exact ⟨u, hu, hoff, harm⟩
  · intro s t p h1 h2 h3 h4 h5
    obtain ⟨u, hu, hsafe, hexp, -⟩ := safeNow s t p h1 h2 h3 h4 h5
    exact ⟨u, hu, hsafe, hexp⟩
  · intro s t p h1 h2 h3 h4
    exact ⟨_, clear s t p h1 h2 h3 h4, rget_rset_self _ _ _ _ _⟩
  · intro s t p h1 h2 h3
    exact ⟨_, holding s t p h1 h2 h3, rget_rset_self _ _ _ _ _⟩
  · intro s t p d n k h1 h2 h3 h4 h5 h6 h7
    obtain ⟨u, hu, hsafe, hexp, hcount, -⟩ := expiry s t p d n k h1 h2 h3 h4 h5 h6 h7
    exact ⟨u, hu, hsafe, hexp, hcount⟩
  · intro s t p h1
    obtain ⟨u, hu, hpow, hbid, harmed, -⟩ := loss s t p h1
    exact ⟨u, hu, hpow, hbid, harmed⟩
  · intro s t p h1
    obtain ⟨u, hu, hrec, hbid, -⟩ := powerUp s t p h1
    exact ⟨u, hu, hrec, hbid⟩
  · intro s t p b h1 h2 h3
    exact ⟨_, takeover s t p b h1 h2 h3, rget_rset_self _ _ _ _ _⟩
  · intro s t h1 h2 h3
    obtain ⟨u, hu, hxlk, -⟩ := fenceAck s t h1 h2 h3
    exact ⟨u, hu, hxlk⟩
  · intro s t h h1 h2 h3 h4
    obtain ⟨u, hu, hmissed, -, hlast, -⟩ := hb s t h h1 h2 h3 h4
    exact ⟨u, hu, hmissed, hlast⟩
  · intro s t row off l h1 h2
    obtain ⟨u, hu, -, -, hset, -⟩ := mirror s t row off l h1 h2
    exact ⟨u, hu, hset⟩
  · intro s t l h1 h2
    obtain ⟨u, hu, hwords, -⟩ := health s t l h1 h2
    exact ⟨u, hu, hwords⟩
  · intro s t l h1
    exact ⟨_, service s t l h1, rfl⟩
  · intro s t l h1 h2
    exact ⟨_, bad s t l h1 h2, (rget_rset_self _ _ _ _ _).trans (satTo_mod _ _)⟩
  · intro s t d h1
    exact ⟨_, linkUp s t d h1, rget_rset_self _ _ _ _ _, rfl⟩
  · intro s t h1
    exact ⟨_, linkDown s t h1, rget_rset_self _ _ _ _ _⟩
  · intro s t l h1 h2 h3
    obtain ⟨u, hu, -, -, -, hout, -⟩ := healthTx s t l h1 h2 h3
    exact ⟨u, hu, hout⟩
  · intro s t r d h h1 h2 h3 h4 h5 h6 h7
    exact ⟨_, offer s t r d h h1 h2 h3 h4 h5 h6 h7, rfl⟩
  · intro s t r row h1 h2 h3 h4
    refine ⟨_, unanswered s t r row h1 h2 h3 h4, ?_, ?_⟩
    · rw [complete_xlk]
    · refine complete_reqs_congr ?_ _ _ _ _
      rfl
  · intro s t h1 h2 h3 h4 h5
    obtain ⟨u, hu, hrole, -, hbid, -⟩ := alone s t h1 h2 h3 h4 h5
    exact ⟨u, hu, hrole, hbid⟩
  · intro s t f l h1 h2 h3 h4
    refine ⟨_, timeout s t f l h1 h2 h3 h4, ?_⟩
    cases f with
    | pattern p => exact congrArg Xlk.forwards (pendPattern_within.xlk.resolve_left (by simp))
    | table r b c => exact congrArg Xlk.forwards (pendTable_within.xlk.resolve_left (by simp))

end Sys2Proof.Machine
end

section
/-! Navigation: tracking channels, searches, corrections, the record and the antenna supplies (R260–R271). -/

namespace Sys2Proof.Machine

variable {s : State} {t : Fc}

/-! ### Tracking channels -/

theorem mem_trkInsert {c x : Trk} : ∀ {l : List Trk}, x ∈ trkInsert s c l ↔ x = c ∨ x ∈ l
  | [] => by simp [trkInsert]
  | d :: l => by
    unfold trkInsert
    split
    · simp
    · rw [List.mem_cons, mem_trkInsert, List.mem_cons]
      tauto

theorem trkInsert_length (c : Trk) : ∀ l : List Trk, (trkInsert s c l).length = l.length + 1
  | [] => rfl
  | d :: l => by
    unfold trkInsert
    split
    · rfl
    · rw [List.length_cons, trkInsert_length c l, List.length_cons]

theorem mem_trkOrder {x : Trk} (cs : List Trk) : x ∈ trkOrder s cs ↔ x ∈ cs := by
  suffices h : ∀ l, x ∈ cs.foldl (fun l c => trkInsert s c l) l ↔ x ∈ cs ∨ x ∈ l from (h []).trans (by simp)
  induction cs with
  | nil => simp
  | cons c cs ih =>
    intro l
    rw [List.foldl_cons, ih, mem_trkInsert, List.mem_cons]
    tauto

/-- Of ANT-A every channel of an eligible signal stays. -/
theorem mem_trkKept_antA {x : Trk} (hx : x.antB = false) : x ∈ trkKept s ↔ x ∈ s.nav.trk ∧ trkEligible s x = true := by
  unfold trkKept
  dsimp only
  rw [List.mem_append, mem_trkOrder, List.mem_filter, List.mem_filter, hx]
  have hb : x ∉ (if (!rbit s R.NAV_CTRL_ANT_B_EN) = true then []
      else if rbit s R.NAV_CTRL_HEADING_EN = true then
        (trkOrder s ((s.nav.trk.filter (trkEligible s)).filter fun c => !c.antB)).map fun c => { c with antB := true }
      else trkOrder s ((s.nav.trk.filter (trkEligible s)).filter fun c => c.antB)) := by
    split
    · exact List.not_mem_nil
    · split
      · intro h
        obtain ⟨c, -, rfl⟩ := List.mem_map.mp h
        cases hx
      · rw [mem_trkOrder, List.mem_filter]
        simp [hx]
  rw [or_iff_left hb]
  simp

/-- Without HEADING_EN no channel joins. -/
theorem mem_trkKept_sub {x : Trk} (hhead : rbit s R.NAV_CTRL_HEADING_EN = false) (h : x ∈ trkKept s) : x ∈ s.nav.trk := by
  unfold trkKept at h
  dsimp only at h
  rw [hhead, List.mem_append, mem_trkOrder] at h
  obtain h | h := h
  · exact List.mem_of_mem_filter (List.mem_of_mem_filter h)
  · split at h
    · cases h
    · rw [if_neg Bool.false_ne_true, mem_trkOrder] at h
      exact List.mem_of_mem_filter (List.mem_of_mem_filter h)

theorem trkRejudge_trk (s : State) : (trkRejudge s).nav.trk = trkKept s := rfl

theorem trkRejudge_countA (s : State) : rget (trkRejudge s) R.NAV_STATE_TRK_A =
    ((trkRejudge s).nav.trk.filter fun c => !c.antB).length % 2 ^ R.NAV_STATE_TRK_A.width := by
  unfold trkRejudge trkCount
  rw [rget_rset_ne _ _ _ _ _ _ (by decide), rget_rset_self]
  rfl

/-- The registers that hold the counts of assigned channels. -/
def trkKeys : List Nat := [R.NAV_STATE_TRK_A.key 0 0, R.NAV_STATE_TRK_B.key 0 0]

theorem trkRejudge_regsOnly (s : State) : RegsOnly s (trkRejudge s) trkKeys := by
  have ha : RegsOnly s (rset (modNav s fun n => { n with trk := trkKept s }) R.NAV_STATE_TRK_A
      ((trkKept s).filter fun c => !c.antB).length) trkKeys :=
    rset_regsOnly (modNav s fun n => { n with trk := trkKept s }) _ _ _ _ (.head _)
  exact ha.trans (rset_regsOnly _ _ _ _ _ (.tail _ (.head _)))

/-- A channel of ANT-A for an eligible signal, one of 128 being free. -/
theorem trkAssign_free {c : Trk} (hc : c.antB = false) (hok : trkEligible s c = true)
    (hhead : rbit s R.NAV_CTRL_HEADING_EN = false) (hroom : (s.nav.trk.filter fun c => !c.antB).length < 128) :
    trkAssign s c = trkRejudge (trkTake s c) ∧
      { c with spacing := rval s R.NAV_CORR_SPACING 0 c.sig } ∈ (trkAssign s c).nav.trk ∧
      ∀ x ∈ (trkAssign s c).nav.trk, x ∈ s.nav.trk ∨ x = { c with spacing := rval s R.NAV_CORR_SPACING 0 c.sig } := by
  have heq : trkAssign s c = trkRejudge (trkTake s c) := if_neg (by simp [hok, hc])
  have hlen : (s.nav.trk.filter fun d => d.antB == c.antB && !trkSame c d).length < 128 := by
    refine lt_of_le_of_lt (List.Sublist.length_le ?_) hroom
    refine List.monotone_filter_right _ fun d hd => ?_
    rw [hc, Bool.and_eq_true] at hd
    simpa using hd.1
  have htake : (trkTake s c).nav.trk = (s.nav.trk.filter fun d => d.antB != c.antB) ++
      trkInsert s { c with spacing := rval s R.NAV_CORR_SPACING 0 c.sig }
        (s.nav.trk.filter fun d => d.antB == c.antB && !trkSame c d) := by
    refine congrArg (_ ++ ·) (List.take_of_length_le ?_)
    rw [trkInsert_length]
    exact hlen
  refine ⟨heq, ?_, fun x hx => ?_⟩
  · rw [heq, trkRejudge_trk]
    refine (mem_trkKept_antA (s := trkTake s c) (x := { c with spacing := rval s R.NAV_CORR_SPACING 0 c.sig }) hc).mpr ?_
    rw [htake]
    exact ⟨List.mem_append_right _ (mem_trkInsert.mpr (.inl rfl)), hok⟩
  · rw [heq, trkRejudge_trk] at hx
    have hx' := mem_trkKept_sub (s := trkTake s c) hhead hx
    rw [htake, List.mem_append, mem_trkInsert] at hx'
    obtain h | h | h := hx'
    · exact .inl (List.mem_of_mem_filter h)
    · exact .inr h
    · exact .inl (List.mem_of_mem_filter h)

theorem trkRelease_gone {b : Bool} {g v : Nat} (hhead : b = false ∨ rbit s R.NAV_CTRL_HEADING_EN = false) :
    ∀ c ∈ (trkRelease s ⟨b, g, v, 0, [], 0⟩).nav.trk, ¬(c.antB = b ∧ c.sig = g ∧ c.sat = v) := by
  rintro c hc ⟨hb, hg, hv⟩
  have hmem : c ∈ s.nav.trk.filter fun d => !trkSame ⟨b, g, v, 0, [], 0⟩ d := by
    obtain h | h := hhead
    · exact ((mem_trkKept_antA (hb.trans h)).mp hc).1
    · exact mem_trkKept_sub (s := modNav s fun n => { n with trk := n.trk.filter fun d => !trkSame ⟨b, g, v, 0, [], 0⟩ d }) h hc
  have := (List.mem_filter.mp hmem).2
  simp [trkSame, hb, hg, hv] at this

/-! ### Searches and corrections -/

theorem exec_rtcmIn {r : Ref} {d : Desc} (l : List Nat) (g : List (Nat × Nat)) (hfab : s.fabric = true)
    (hd : heldDesc s r 0xB 0x50 = some d) (hdue : due (advance s t) d = true) :
    exec (.rtcmIn t r l g) s = .next (rtcmIn (takeReq (advance s t) r) r d l g) :=
  atFabric_desc hfab (fun d s => rtcmIn s r d l g) hd hdue

theorem navSearch_due {r : Ref} {d : Desc} (k : Bool) (hd : heldDesc s r 0xB 0x51 = some d) (hdue : due s d = true) :
    navSearch s r k = if searchRoom s (bitOf d.classWord 16) then
      modNav (takeReq s r) fun n => { n with searches := n.searches ++
        [⟨r, bitOf d.classWord 16, d.classWord % 32, bitField d.classWord 8 8, searchMode s (bitOf d.classWord 17) k⟩] }
      else s := by
  unfold navSearch
  rw [hd]
  dsimp only
  rw [hdue, Bool.true_and]

theorem searchDone_of {r : Ref} {x : NavSearch} (c : Trk) (a : SatAid) (f : Bool) (n : Nat)
    (hx : s.nav.searches.find? (fun x => x.ref == r) = some x) :
    searchDone s (some r) c a f n = complete
      (if searchFound s x.mode x.sig x.sat a f then
        trkAssign (modNav s fun n => { n with searches := n.searches.filter (fun y => y.ref != r), acqMode := x.mode })
          { c with antB := x.antB, sig := x.sig, sat := x.sat }
      else modNav s fun n => { n with searches := n.searches.filter (fun y => y.ref != r), acqMode := x.mode })
      r stDone (b2n (searchFound s x.mode x.sig x.sat a f) + 256 * (n % 256)) := by
  unfold searchDone
  dsimp only
  rw [hx]

/-- A search that NAV started finds its signal. -/
theorem searchDone_own {c : Trk} {a : SatAid} {n : Nat} (hen : rbit s R.NAV_CTRL_EN = true)
    (hf : searchFound s (searchMode s false a.known) c.sig c.sat a true = true) :
    searchDone s none c a true n = trkAssign (modNav s fun n => { n with acqMode := searchMode s false a.known }) c :=
  if_pos (by rw [hen, hf]; rfl)

/-! ### The record -/

theorem setFix_fields (s : State) (old : Nat) : (setFix s old).nav = s.nav ∧
    rget (setFix s old) R.NAV_STATE_FIX = s.nav.record.fix % 2 ^ R.NAV_STATE_FIX.width := by
  have hev : ∀ v : State, rget (if old = 4 ∧ s.nav.record.fix ≠ 4 then raiseEv v evNavRtkLost else v) R.NAV_STATE_FIX =
      rget v R.NAV_STATE_FIX := by
    intro v
    split
    · exact raiseEv_within.rget _ _ _ (by decide)
    · rfl
  refine ⟨setFix_within.nav.resolve_left (by simp), (hev _).trans ?_⟩
  exact (rget_rset_ne _ _ _ _ _ _ (by decide)).trans ((rget_rset_ne _ _ _ _ _ _ (by decide)).trans (rget_rset_self _ _ _ _ _))

theorem bestFix_le (s : State) (mask : Nat) : bestFix s mask ≤ 5 := by
  unfold bestFix
  dsimp only
  split_ifs <;> decide

theorem bestFix_notRtk {mask : Nat} (h : rtkOk s = false) : bestFix s mask ≠ 3 ∧ bestFix s mask ≠ 4 := by
  unfold bestFix
  dsimp only
  rw [h]
  simp only [Bool.and_false, Bool.false_and, Bool.false_eq_true, if_false]
  split_ifs <;> decide

/-- The state in which a filter step makes its record. -/
def stepSeen (s : State) (m : NavMeas) : State := sbasStep (skyMoved (noteTcxo s m.tcxo) m.sky) m

theorem skyMoved_nav (s : State) (sky : List (Nat × Nat × Nat)) :
    (skyMoved s sky).nav = { s.nav with trk := (skyMoved s sky).nav.trk } := by
  unfold skyMoved
  split <;> rfl

theorem noteTcxo_nav (s : State) (c : Int) : (noteTcxo s c).nav = { s.nav with tcxoMax := (noteTcxo s c).nav.tcxoMax } := by
  unfold noteTcxo
  split <;> rfl

theorem skyMoved_regsOnly (s : State) (sky : List (Nat × Nat × Nat)) : RegsOnly s (skyMoved s sky) trkKeys := by
  unfold skyMoved
  dsimp only
  split
  · exact .of_eq _ rfl
  · exact trkRejudge_regsOnly (modNav s _)

/-- A step that neither moves time nor touches a register but the counts of channels, nor NAV's state but its channels, the
TCXO and the satellites out of use. -/
structure SeenFrom (s u : State) : Prop where
  now : u.now = s.now
  timeOff : u.timeOff = s.timeOff
  regs : RegsOnly s u trkKeys
  nav : ∃ l n o, u.nav = { s.nav with trk := l, tcxoMax := n, sbasOff := o }

section
variable {u : State} (h : SeenFrom s u)
include h

theorem SeenFrom.rget (f : Fld) (i j : Nat) (hf : f.key i j ∉ trkKeys) : rget u f i j = rget s f i j := h.regs.rget f i j hf

theorem SeenFrom.rbit (f : Fld) (hf : f.key 0 0 ∉ trkKeys) : rbit u f = rbit s f :=
  congrArg (· == 1) (h.rget f 0 0 hf)

theorem SeenFrom.rval (f : Fld) (hf : f.key 0 0 ∉ trkKeys) : rval u f = rval s f :=
  congrArg f.lim.apply (h.rget f 0 0 hf)

theorem SeenFrom.rtkOk : rtkOk u = rtkOk s := by
  obtain ⟨l, n, o, hnav⟩ := h.nav
  unfold Machine.rtkOk corrAgeFc
  rw [h.rbit _ (by decide), h.rval _ (by decide), hnav, h.now]

theorem SeenFrom.bestFix (mask : Nat) : bestFix u mask = bestFix s mask := by
  obtain ⟨l, n, o, hnav⟩ := h.nav
  unfold Machine.bestFix
  rw [h.rtkOk, h.rbit R.NAV_CTRL_EN (by decide), h.rbit R.NAV_CTRL_SBAS_EN (by decide), h.rbit R.NAV_CTRL_IMU_EN (by decide), hnav]

theorem SeenFrom.moduleTime : moduleTime u = moduleTime s := by
  obtain ⟨l, n, o, hnav⟩ := h.nav
  unfold Machine.moduleTime timeAt quarterAt slewed
  rw [hnav, h.timeOff, h.now]

theorem SeenFrom.machineAttitude (m : NavMeas) : machineAttitude u m = machineAttitude s m := by
  unfold Machine.machineAttitude rgetS
  rw [h.rget R.NAV_MOUNT_RP_MOUNT_ROLL 0 0 (by decide), h.rget R.NAV_MOUNT_RP_MOUNT_PITCH 0 0 (by decide),
    h.rget R.NAV_MOUNT_Y_MOUNT_YAW 0 0 (by decide)]

end

theorem stepSeen_from (s : State) (m : NavMeas) : SeenFrom s (stepSeen s m) := by
  have hsky := skyMoved_nav (noteTcxo s m.tcxo) m.sky
  have htcxo := noteTcxo_nav s m.tcxo
  have hw : Within [.regs, .nav] (blks [.nav]) s (stepSeen s m) := sbasStep_within.step (skyMoved_within.step
    (noteTcxo_within.step (.refl _) rfl rfl) rfl rfl) rfl rfl
  refine ⟨hw.now.resolve_left (by simp), hw.timeOff.resolve_left (by simp), ?_, ?_⟩
  · have hr := noteTcxo_within (s := s) (tcxo := m.tcxo)
    exact (RegsOnly.of_eq _ (hr.regs.resolve_left (by simp))).trans (skyMoved_regsOnly _ _)
  · refine ⟨(skyMoved (noteTcxo s m.tcxo) m.sky).nav.trk, (noteTcxo s m.tcxo).nav.tcxoMax, (stepSeen s m).nav.sbasOff, ?_⟩
    unfold stepSeen sbasStep modNav
    dsimp only
    rw [hsky, htcxo]

theorem stepSeen_fixTypes (s : State) (m : NavMeas) : fixTypes (stepSeen s m) m = fixTypes (sbasStep s m) m := by
  have hoff : (stepSeen s m).nav.sbasOff = (sbasStep s m).nav.sbasOff := by
    have hw : Within [.regs, .nav] (blks [.nav]) s (skyMoved (noteTcxo s m.tcxo) m.sky) := skyMoved_within.step
      (noteTcxo_within.step (.refl _) rfl rfl) rfl rfl
    unfold stepSeen sbasStep modNav
    dsimp only
    rw [skyMoved_nav, noteTcxo_nav, hw.now.resolve_left (by simp)]
  unfold fixTypes
  rw [hoff]

/-- What a filter step leaves (R266–R269). -/
structure FilterStepped (s : State) (m : NavMeas) (best : Nat) (u : State) : Prop where
  solTime : u.nav.record.solTime = moduleTime s / 1000000 * 1000000
  stepNext : u.nav.stepNext = moduleTime s / 1000000 * 1000000 + 1000000
  lat : u.nav.record.lat = m.lat
  lon : u.nav.record.lon = m.lon
  fix : u.nav.record.fix = best
  state : rget u R.NAV_STATE_FIX = best
  gnss : 1 ≤ best → best ≤ 4 → u.nav.record.posValid = true ∧ u.nav.record.hAcc = min m.hAcc 65535 ∧ u.nav.fixAt = some s.now
  noFix : best = 0 → u.nav.record.posValid = false
  attitude : (u.nav.record.roll, u.nav.record.pitch) = machineAttitude s m
  slope : u.nav.record.slopeValid = (m.slopeOk && rbit s R.NAV_CTRL_IMU_EN)

theorem filterStep_stepped (s : State) (m : NavMeas) :
    FilterStepped s m (bestFix s (fixTypes (sbasStep s m) m)) (filterStep s m) := by
  have hseen := stepSeen_from s m
  rw [← stepSeen_fixTypes, ← hseen.bestFix]
  unfold filterStep
  rw [show sbasStep (skyMoved (noteTcxo s m.tcxo) m.sky) m = stepSeen s m from rfl]
  obtain ⟨v, hv⟩ : ∃ v, v = stepSeen s m := ⟨_, rfl⟩
  rw [← hv] at hseen ⊢
  extract_lets w mask ms old fix gnss s1 live h att signed age rec' fresh
  generalize hx : modNav s1 _ = x
  obtain ⟨hnav, hfix⟩ := setFix_fields x old
  replace hnav := hnav.trans (congrArg State.nav hx.symm)
  replace hfix := hfix.trans (congrArg (fun y : State => y.nav.record.fix % 2 ^ R.NAV_STATE_FIX.width) hx.symm)
  constructor
  · rw [hnav, ← hseen.moduleTime]; rfl
  · rw [hnav, ← hseen.moduleTime]; rfl
  · rw [hnav]; rfl
  · rw [hnav]; rfl
  · rw [hnav]; rfl
  · exact hfix.trans (Nat.mod_eq_of_lt (lt_of_le_of_lt (bestFix_le v mask) (by decide)))
  · intro h1 h2
    have hg : gnss = true := decide_eq_true ⟨h1, h2⟩
    have hlive : live = true := by rw [show live = (gnss || _) from rfl, hg, Bool.true_or]
    refine ⟨by rw [hnav]; exact hlive, ?_, ?_⟩
    · rw [hnav]
      exact congrArg (min · 65535) (if_pos hg)
    · rw [hnav, ← hseen.now]
      exact if_pos hg
  · intro h0
    rw [hnav]
    have hg : gnss = false := decide_eq_false fun h => absurd (h.1.trans_eq h0) (by decide)
    have h5 : (fix == 5) = false := by rw [show fix = 0 from h0]; rfl
    show (gnss || fix == 5 && _) = false
    rw [hg, h5]
    rfl
  · rw [hnav, ← hseen.machineAttitude]; rfl
  · rw [hnav, ← hseen.rbit _ (by decide)]; rfl

theorem corrExpiry_ends (hfix : s.nav.record.fix = 3 ∨ s.nav.record.fix = 4) (hrtk : rtkOk s = false) :
    (corrExpiry s).nav.record = { s.nav.record with fix := bestFix s s.nav.fixMask } := by
  have heq : corrExpiry s = setFix (modNav s fun n => { n with record := { n.record with fix := bestFix s n.fixMask } })
      s.nav.record.fix := if_pos ⟨hfix, by rw [hrtk]; rfl⟩
  rw [heq, (setFix_fields _ _).1]
  rfl

/-! ### O33 -/

/-- Settles O33. -/
theorem navTracking : Obligations.NavTracking := by
  unfold Obligations.NavTracking
  refine ⟨?search, ?searchFull, ?notFound, ?found, ?own, ?lost, ?lostNext, ?rtcmLength, ?rtcmOff, ?rtcm, ?step, ?outage, ?age,
    ?openFirst, ?openAgain, ?openEnds, ?short, ?gone, ?still, ?save⟩
  case search =>
    intro s t r d k hfab hd hdue hroom
    have h := navSearch_due (s := advance s t) k hd hdue
    replace h := h.trans (if_pos hroom)
    exact (atFabric_up s t (fun s => navSearch s r k) hfab).trans (congrArg _ h)
  case searchFull =>
    intro s t r d k hfab hd hdue hroom
    have h := navSearch_due (s := advance s t) k hd hdue
    replace h := h.trans (if_neg (ne_true_of_eq_false hroom))
    exact (atFabric_up s t (fun s => navSearch s r k) hfab).trans (congrArg _ h)
  case notFound =>
    intro s t r x b g v a f n hfab hx hf
    have h := searchDone_of (s := advance s t) ⟨b, g, v, a.elev, a.sends, 0⟩ a f n hx
    rw [hf, if_neg Bool.false_ne_true, b2n, if_neg Bool.false_ne_true, Nat.zero_add] at h
    exact (atFabric_up s t (fun s => searchDone s (some r) ⟨b, g, v, a.elev, a.sends, 0⟩ a f n) hfab).trans (congrArg _ h)
  case found =>
    intro s t r x b g v a f n hfab hx hf
    have h := searchDone_of (s := advance s t) ⟨b, g, v, a.elev, a.sends, 0⟩ a f n hx
    rw [hf, if_pos rfl] at h
    exact (atFabric_up s t (fun s => searchDone s (some r) ⟨b, g, v, a.elev, a.sends, 0⟩ a f n) hfab).trans (congrArg _ h)
  case own =>
    intro s t g v a n hfab hf hok hhead hroom
    have hen : rbit s R.NAV_CTRL_EN = true := by
      unfold trkEligible at hok
      simp only [Bool.and_eq_true] at hok
      exact hok.1.1.1
    have h := searchDone_own (s := advance s t) (c := ⟨false, g, v, a.elev, a.sends, 0⟩) (n := n) hen hf
    obtain ⟨w, hw⟩ : ∃ w, w = modNav (advance s t) fun n =>
      { n with acqMode := searchMode (advance s t) false a.known } := ⟨_, rfl⟩
    have hfrom : w = { advance s t with nav := { s.nav with acqMode := w.nav.acqMode } } := by rw [hw]; rfl
    rw [← hw] at h
    obtain ⟨heq, hin, hsub⟩ := trkAssign_free (s := w) (c := ⟨false, g, v, a.elev, a.sends, 0⟩) rfl (by rw [hfrom]; exact hok)
      (by rw [hfrom]; exact hhead) (by rw [hfrom]; exact hroom)
    refine ⟨_, (atFabric_up s t (fun s => searchDone s none ⟨false, g, v, a.elev, a.sends, 0⟩ a true n) hfab).trans
      (congrArg _ h), ?_, fun c hc => ?_, ?_, ?_⟩
    · rw [hfrom] at hin ⊢
      exact hin
    · rw [hfrom] at hsub hc
      exact hsub c hc
    · rw [heq]
      exact (RegsOnly.of_eq _ (by rw [hfrom]; rfl)).trans (trkRejudge_regsOnly (trkTake w ⟨false, g, v, a.elev, a.sends, 0⟩))
    · rw [heq, hfrom]
      rfl
  case lost =>
    intro s t b g v hfab hhead
    refine ⟨_, atFabric_up s t (fun s => trkRelease s ⟨b, g, v, 0, [], 0⟩) hfab, trkRelease_gone (s := advance s t) hhead,
      trkRejudge_countA _, ?_, rfl⟩
    exact trkRejudge_regsOnly (modNav (advance s t) _)
  case lostNext =>
    exact fun s t b g v g2 v2 a hfab => atFabric_up s t
      (fun s => trkAssign (trkRelease s ⟨b, g, v, 0, [], 0⟩) ⟨b, g2, v2, a.elev, a.sends, 0⟩) hfab
  case rtcmLength =>
    exact fun s t r d l g hfab hd hdue hlen => (exec_rtcmIn l g hfab hd hdue).trans (congrArg _ (if_pos hlen))
  case rtcmOff =>
    intro s t r d l g hfab hd hdue h1 h2 hen
    refine (exec_rtcmIn l g hfab hd hdue).trans (congrArg _ ((if_neg (by omega)).trans (if_pos ?_)))
    rw [show rbit (takeReq (advance s t) r) R.NAV_CTRL_RTK_EN = false from hen]
    rfl
  case rtcm =>
    intro s t r d l g hfab hd hdue h1 h2 hen
    refine (exec_rtcmIn l g hfab hd hdue).trans (congrArg _ ((if_neg (by omega)).trans (if_neg ?_)))
    rw [show rbit (takeReq (advance s t) r) R.NAV_CTRL_RTK_EN = true from hen]
    simp
  case step =>
    intro s t m hfab hdue
    have hw := filterStep_within (s0 := advance s t) (m := m)
    have h := filterStep_stepped (advance s t) m
    refine ⟨filterStep (advance s t) m, (atFabric_up s t (fun s => if filterDue s then filterStep s m else s) hfab).trans
      (congrArg _ (if_pos (decide_eq_true hdue))), h.solTime, h.stepNext, h.lat, h.lon, h.fix, h.state,
      fun h1 h4 => h.gnss (h.fix ▸ h1) (h.fix ▸ h4), fun h0 => h.noFix (h.fix ▸ h0), h.attitude, h.slope, ?_, hw.eq_frame⟩
    exact (hw.mono rfl rfl : Within [.regs, .mem, .extMem, .log, .nav] (blks [.nav, .hlm, .jrn]) _ _).blocksOnly
  case outage =>
    exact fun s t hfab hfix hout => (atFabric_up s t drTimeout hfab).trans (congrArg _ (if_pos ⟨hfix, hout⟩))
  case age =>
    intro s t hfab hfix hrtk
    have hw := corrExpiry_within (s := advance s t)
    have h := corrExpiry_ends (s := advance s t) hfix hrtk
    have hnot := bestFix_notRtk (s := advance s t) (mask := s.nav.fixMask) hrtk
    refine ⟨corrExpiry (advance s t), atFabric_up s t corrExpiry hfab, h, ?_, ?_, ?_, hw.eq_frame⟩
    · rw [h]; exact hnot.1
    · rw [h]; exact hnot.2
    · exact (hw.mono rfl rfl : Within [.regs, .mem, .extMem, .log, .nav] (blks [.nav, .hlm, .jrn]) _ _).blocksOnly
  case openFirst =>
    intro s t b hfab hon hopen
    refine (atFabric_up s t (fun s => antFault s (antOpenFld b) (true && supplyOn s b)) hfab).trans (congrArg _ ?_)
    rw [show supplyOn (advance s t) b = true from hon]
    exact if_pos (by rw [show rbit (advance s t) (antOpenFld b) = false from hopen]; rfl)
  case openAgain =>
    intro s t b hfab hon hopen
    refine (atFabric_up s t (fun s => antFault s (antOpenFld b) (true && supplyOn s b)) hfab).trans (congrArg _ ?_)
    rw [show supplyOn (advance s t) b = true from hon]
    exact if_neg (by rw [show rbit (advance s t) (antOpenFld b) = true from hopen]; simp)
  case openEnds =>
    exact fun s t b hfab => atFabric_up s t (fun s => antFault s (antOpenFld b) (false && supplyOn s b)) hfab
  case short =>
    intro s t b hfab hon hshort
    refine (atFabric_up s t (fun s => antShort s b) hfab).trans (congrArg _ ((if_pos hon).trans (if_pos ?_)))
    rw [show rbit (modNav (advance s t) _) (antShortFld b) = false from hshort]
    rfl
  case gone =>
    intro s t b a hfab ha hdue
    refine (atFabric_up s t (fun s => antRetry s b true) hfab).trans (congrArg _ ?_)
    unfold antRetry
    rw [show tblGet? (advance s t).nav.supplyOff (b2n b) = some a from ha]
    exact (if_neg (Nat.not_lt.mpr hdue)).trans (if_pos rfl)
  case still =>
    intro s t b a hfab ha hdue
    refine (atFabric_up s t (fun s => antRetry s b false) hfab).trans (congrArg _ ?_)
    unfold antRetry
    rw [show tblGet? (advance s t).nav.supplyOff (b2n b) = some a from ha]
    exact (if_neg (Nat.not_lt.mpr hdue)).trans (if_neg (by simp))
  case save =>
    exact fun s t x y hfab h1 h4 hdue => (atFabric_up s t (fun s =>
      if 1 ≤ s.nav.record.fix ∧ s.nav.record.fix ≤ 4 ∧ s.nav.savedAt + 600 * fcSec ≤ s.now then navStore s x y else s) hfab).trans
      (congrArg _ (if_pos ⟨h1, h4, hdue⟩))

end Sys2Proof.Machine
end

section
/-! Module time: solutions, holdover, slews, steps and the time pulse (R272–R279). -/

namespace Sys2Proof.Machine

variable {s : State} {t : Fc}

/-! ### Pairs of registers and the law of module time -/

/-- A 64-bit value is read back from its two halves. -/
theorem rget64_rset64 (s : State) {lo hi : Fld} (v : Nat) (hlo : lo.width = 32) (hhi : hi.width = 32) (hne : lo.id ≠ hi.id) :
    rget64 (rset64 s lo hi v) lo hi = v % 2 ^ 64 := by
  unfold rget64 rset64
  rw [rget_rset_ne _ _ _ _ _ _ hne, rget_rset_self, rget_rset_self, hlo, hhi]
  omega

theorem rget_rset64_ne (s : State) {lo hi f : Fld} (v i j : Nat) (hlo : f.id ≠ lo.id) (hhi : f.id ≠ hi.id) :
    rget (rset64 s lo hi v) f i j = rget s f i j := by
  unfold rset64
  rw [rget_rset_ne _ _ _ _ _ _ hhi, rget_rset_ne _ _ _ _ _ _ hlo]

theorem moduleTime_congr {s u : State} (hnow : u.now = s.now) (hoff : u.timeOff - slewed u u.now = s.timeOff - slewed s s.now) :
    moduleTime u = moduleTime s := by
  unfold moduleTime timeAt quarterAt
  rw [hnow] at hoff ⊢
  rw [show u.timeOff + 10 * (s.now : Int) - slewed u s.now = s.timeOff + 10 * (s.now : Int) - slewed s s.now by omega]

theorem slewed_start (h : s.nav.slewFrom = s.now) : slewed s s.now = 0 := by
  unfold slewed
  rw [h, Nat.sub_self, Nat.zero_div, Nat.min_zero]
  simp

theorem noteTime_nav (s : State) : (noteTime s).nav = { s.nav with past := (noteTime s).nav.past } := by
  unfold noteTime
  dsimp only
  split <;> rfl

theorem noteTime_eq (s : State) : noteTime s = { s with nav := { s.nav with past := (noteTime s).nav.past } } := by
  have h : noteTime s = { s with nav := (noteTime s).nav } := (noteTime_within (s := s)).eq_frame
  exact h.trans (congrArg (fun n => { s with nav := n }) (noteTime_nav s))

theorem slewed_congr {s u : State} (hslew : u.nav.slew = s.nav.slew) (hfrom : u.nav.slewFrom = s.nav.slewFrom) (n : Nat) :
    slewed u n = slewed s n := by
  unfold slewed
  rw [hslew, hfrom]

theorem noteTime_slewed (s : State) (n : Nat) : slewed (noteTime s) n = slewed s n :=
  slewed_congr (by rw [noteTime_nav]) (by rw [noteTime_nav]) n

theorem settleSlew_eq (s : State) : settleSlew s = { s with
    timeOff := s.timeOff - slewed s s.now
    nav := { s.nav with past := (noteTime s).nav.past, slew := 0, slewFrom := s.now } } := by
  have hnow : (noteTime s).now = s.now := noteTime_within.now.resolve_left (by simp)
  have hoff : (noteTime s).timeOff = s.timeOff := noteTime_within.timeOff.resolve_left (by simp)
  unfold settleSlew
  dsimp only
  rw [noteTime_slewed, hnow, hoff]
  conv_lhs => rw [noteTime_eq]

theorem startSlew_eq (s : State) (d : Int) : startSlew s d = rsetS { s with
    timeOff := s.timeOff - slewed s s.now
    nav := { s.nav with past := (noteTime s).nav.past, slew := d, slewFrom := s.now } } R.NAV_TIME_ERR_NS (d / 4) := by
  unfold startSlew
  rw [settleSlew_eq]

theorem setUnc_small (s : State) {n : Nat} (h : n ≤ 100) : rget (setUnc s n) R.NAV_TIME_UNC_NS = n := by
  unfold setUnc
  rw [rget_rset_self, Nat.min_eq_left (by omega)]
  exact Nat.mod_eq_of_lt (lt_of_le_of_lt h (by decide))

theorem setUnc_reads (s : State) (n : Nat) : rget (setUnc s n) R.NAV_TIME_UNC_NS = min n (2 ^ 32 - 1) := by
  unfold setUnc
  rw [rget_rset_self]
  exact Nat.mod_eq_of_lt (lt_of_le_of_lt (Nat.min_le_right _ _) (by decide))

/-! ### Solutions -/

/-- A solution of an antenna is taken, the first one after a start being noted. -/
def solNoted (s : State) (antB : Bool) : State :=
  modNav (rsetB s R.NAV_ANT_TIME_ANT_B antB) fun n => { n with started := true }

theorem solNoted_rget (s : State) (antB : Bool) (f : Fld) (hf : f.id ≠ R.NAV_ANT_TIME_ANT_B.id) (i j : Nat) :
    rget (solNoted s antB) f i j = rget s f i j := rget_rset_ne _ _ _ _ _ _ hf

theorem solNoted_within {s : State} {antB : Bool} : Within [.regs, .nav] (blks [.nav]) s (solNoted s antB) :=
  modNav_within.step (rsetB_within.step (.refl _) rfl rfl) rfl rfl

theorem solNoted_antB (s : State) (antB : Bool) : rget (solNoted s antB) R.NAV_ANT_TIME_ANT_B = b2n antB :=
  (rget_rset_self _ _ _ _ _).trans (by cases antB <;> rfl)

/-- What becomes of a solution of module time. -/
def solUsed (u s : State) (d : Int) (unc : Nat) : State :=
  if unc ≤ 100 then validSolution u d unc
  else modNav (if timeState s = timeGnss then setUnc u unc else u) fun n => { n with conf := none }

theorem solUsed_invalid (u s : State) (d : Int) {n : Nat} (hn : 100 < n) :
    (solUsed u s d n).nav = { u.nav with conf := none } ∧
      rget (solUsed u s d n) R.NAV_TIME_UNC_NS = (if timeState s = 1 then min n (2 ^ 32 - 1) else rget u R.NAV_TIME_UNC_NS) ∧
      RegsOnly u (solUsed u s d n) [R.NAV_TIME_UNC_NS.key 0 0] ∧
      solUsed u s d n = { u with regs := (solUsed u s d n).regs, nav := (solUsed u s d n).nav } := by
  unfold solUsed
  rw [if_neg (Nat.not_le.mpr hn)]
  by_cases h : timeState s = 1
  · rw [if_pos (c := timeState s = timeGnss) h, if_pos h]
    exact ⟨rfl, setUnc_reads _ _, rset_regsOnly u _ _ _ _ (.head _), rfl⟩
  · rw [if_neg (c := timeState s = timeGnss) h, if_neg h]
    exact ⟨rfl, rfl, .of_eq _ rfl, rfl⟩

theorem solUsed_invalid_within {u s : State} {d : Int} {n : Nat} (hn : 100 < n) :
    Within [.regs, .nav] (blks [.nav]) u (solUsed u s d n) := by
  unfold solUsed
  rw [if_neg (Nat.not_le.mpr hn)]
  exact modNav_within.step (within_ite (setUnc_within.step (.refl _) rfl rfl) (.refl _)) rfl rfl

theorem timeSolution_of {d : Int} {q : Bool} {a b : Option Int} (n : Nat) {far : Bool} (hen : rbit s R.NAV_CTRL_EN = true)
    (hpick : (a = some d ∧ q = false) ∨ (a = none ∧ b = some d ∧ rbit s R.NAV_CTRL_ANT_B_EN = true ∧ q = true))
    (hstart : s.nav.started = true ∨ far = false) :
    timeSolution s a b n far = solUsed (solNoted s q) s (d - cableDelay s q) n := by
  have hnoted : (if s.nav.started = true then rsetB s R.NAV_ANT_TIME_ANT_B q
      else if far = true ∧ (rget s R.NAV_STATE_START_KIND = 1 ∨ rget s R.NAV_STATE_START_KIND = 2) then
        rinc (rset (solNoted s q) R.NAV_STATE_START_KIND 3) R.NAV_LEAP_SAVE_BAD else solNoted s q) = solNoted s q := by
    by_cases hst : s.nav.started = true
    · rw [if_pos hst]
      show rsetB s R.NAV_ANT_TIME_ANT_B q =
        { rsetB s R.NAV_ANT_TIME_ANT_B q with nav := { (rsetB s R.NAV_ANT_TIME_ANT_B q).nav with started := true } }
      rw [← show (rsetB s R.NAV_ANT_TIME_ANT_B q).nav.started = true from hst]
    · rw [if_neg hst, hstart.resolve_left hst]
      exact if_neg (by simp)
  unfold timeSolution
  rw [hen, if_neg (by simp)]
  obtain ⟨rfl, rfl⟩ | ⟨rfl, rfl, hB, rfl⟩ := hpick
  · exact congrArg (fun u => solUsed u s (d - cableDelay s false) n) hnoted
  · dsimp only
    rw [if_pos hB]
    exact congrArg (fun u => solUsed u s (d - cableDelay s true) n) hnoted

/-- The first solution after a start from a saved position that lies too far away. -/
theorem timeSolution_far {d : Int} {q : Bool} {a b : Option Int} {n : Nat} (hen : rbit s R.NAV_CTRL_EN = true)
    (hpick : (a = some d ∧ q = false) ∨ (a = none ∧ b = some d ∧ rbit s R.NAV_CTRL_ANT_B_EN = true ∧ q = true))
    (hstart : s.nav.started = false) (hkind : rget s R.NAV_STATE_START_KIND = 1 ∨ rget s R.NAV_STATE_START_KIND = 2) :
    timeSolution s a b n true =
      solUsed (rinc (rset (solNoted s q) R.NAV_STATE_START_KIND 3) R.NAV_LEAP_SAVE_BAD) s (d - cableDelay s q) n := by
  have hnoted : (if s.nav.started = true then rsetB s R.NAV_ANT_TIME_ANT_B q
      else if true = true ∧ (rget s R.NAV_STATE_START_KIND = 1 ∨ rget s R.NAV_STATE_START_KIND = 2) then
        rinc (rset (solNoted s q) R.NAV_STATE_START_KIND 3) R.NAV_LEAP_SAVE_BAD else solNoted s q) =
      rinc (rset (solNoted s q) R.NAV_STATE_START_KIND 3) R.NAV_LEAP_SAVE_BAD := by
    rw [hstart, if_neg Bool.false_ne_true, if_pos ⟨rfl, hkind⟩]
  unfold timeSolution
  rw [hen, if_neg (by simp)]
  obtain ⟨rfl, rfl⟩ | ⟨rfl, rfl, hB, rfl⟩ := hpick
  · exact congrArg (fun u => solUsed u s (d - cableDelay s false) n) hnoted
  · dsimp only
    rw [if_pos hB]
    exact congrArg (fun u => solUsed u s (d - cableDelay s true) n) hnoted

theorem validSolution_gnss {u : State} {d : Int} {unc : Nat} (h : timeState u = 1) : validSolution u d unc =
    setUnc (modNav u fun n => { n with solAt := u.now, solUnc := unc, delta := d }) unc :=
  (if_neg (by rw [h]; decide)).trans (if_pos h)

theorem validSolution_holdover {u : State} {d : Int} {unc : Nat} (h : timeState u = 2) : validSolution u d unc =
    modNav u fun n => { n with solUnc := unc, delta := d, conf := some (confirm (solHz u) n.conf u.now d) } :=
  (if_neg (by rw [h]; decide)).trans ((if_neg (by rw [h]; decide)).trans (if_pos h))

theorem validSolution_slewing {u : State} {d : Int} {unc : Nat} (h : timeState u = 3) : validSolution u d unc =
    setUnc (startSlew (modNav u fun n => { n with solAt := u.now, solUnc := unc, delta := d }) d) (d.natAbs / 4 + unc) :=
  (if_neg (by rw [h]; decide)).trans ((if_neg (by rw [h]; decide)).trans (if_neg (by rw [h]; decide)))

/-- What the first valid solution leaves (R272). -/
structure TimeSet (s : State) (d : Int) (unc : Nat) (u : State) : Prop where
  state : rget u R.NAV_STATE_TIME_STATE = 1
  off : u.timeOff = s.timeOff - d
  unc : rget u R.NAV_TIME_UNC_NS = unc
  rtc : rget u R.AOC_PWR_STATE_RTC_VALID = 1
  antB : rget u R.NAV_ANT_TIME_ANT_B = rget s R.NAV_ANT_TIME_ANT_B
  solAt : u.nav.solAt = s.now
  delta : u.nav.delta = 0
  tke : u.tke = { s.tke with timeEverValid := true }

theorem regridFilter_nav (s : State) :
    (regridFilter s).nav = { s.nav with stepNext := (moduleTime s + 999999) / 1000000 * 1000000 } := rfl

theorem setTimeState_reads (s : State) {v : Nat} (h : v < 4) : rget (setTimeState s v) R.NAV_STATE_TIME_STATE = v :=
  (rget_rset_self _ _ _ _ _).trans (Nat.mod_eq_of_lt h)

/-- Module time is set by a first solution, its law before it being noted. -/
def timeMoved (s : State) (d : Int) : State :=
  { noteTime s with timeOff := s.timeOff - d, tke := { s.tke with timeEverValid := true } }

theorem timeMoved_nav (s : State) (d : Int) : (timeMoved s d).nav = { s.nav with past := (noteTime s).nav.past } := noteTime_nav s

theorem timeMoved_regs (s : State) (d : Int) : (timeMoved s d).regs = s.regs := noteTime_within.regs.resolve_left (by simp)

/-- The registers that a first solution writes, `label` being that of the next boundary, and its event. -/
def timeTold (s : State) (label unc : Nat) : State :=
  raiseEv (setUnc (setTimeState (rset64 s R.NAV_TP_NEXT_LO_TIME R.NAV_TP_NEXT_HI_TIME label) timeGnss) unc) evNavTimeValid

theorem timeTold_within {s : State} {label unc : Nat} : Within [.regs, .mem, .extMem, .log] (blks [.nav, .hlm, .jrn]) s
    (timeTold s label unc) := raiseEv_within.step (setUnc_within.step (setTimeState_within.step
      (rset64_within.step (.refl _) rfl rfl) rfl rfl) rfl rfl) rfl rfl

theorem timeTold_state (s : State) (label unc : Nat) : rget (timeTold s label unc) R.NAV_STATE_TIME_STATE = 1 := by
  unfold timeTold
  rw [raiseEv_within.rget _ _ _ (by decide), setUnc, rget_rset_ne _ _ _ _ _ _ (by decide)]
  exact setTimeState_reads _ (by decide)

theorem timeTold_unc (s : State) (label : Nat) {unc : Nat} (h : unc ≤ 100) :
    rget (timeTold s label unc) R.NAV_TIME_UNC_NS = unc := by
  unfold timeTold
  rw [raiseEv_within.rget _ _ _ (by decide)]
  exact setUnc_small _ h

theorem timeTold_antB (s : State) (label unc : Nat) :
    rget (timeTold s label unc) R.NAV_ANT_TIME_ANT_B = rget s R.NAV_ANT_TIME_ANT_B := by
  unfold timeTold
  rw [raiseEv_within.rget _ _ _ (by decide), setUnc, rget_rset_ne _ _ _ _ _ _ (by decide), setTimeState,
    rget_rset_ne _ _ _ _ _ _ (by decide), rget_rset64_ne _ _ _ _ (by decide) (by decide)]

/-- Module time has moved, and the RTC follows it. -/
def rtcFollowed (s : State) (d : Int) : State :=
  setRtc (modNav (regridFilter (timeMoved s d)) fun n => { n with lockFrom := s.now })

theorem rtcFollowed_within {s : State} {d : Int} : Within [.regs, .rtcOff, .nav] (blks [.aoc]) (timeMoved s d) (rtcFollowed s d) :=
  setRtc_within.step (modNav_within.step (regridFilter_within.step (.refl _) rfl rfl) rfl rfl) rfl rfl

theorem rtcFollowed_nav (s : State) (d : Int) : (rtcFollowed s d).nav.solAt = s.nav.solAt ∧
    (rtcFollowed s d).nav.delta = s.nav.delta := by
  have h : (rtcFollowed s d).nav = (modNav (regridFilter (timeMoved s d)) fun n => { n with lockFrom := s.now }).nav :=
    setRtc_within.nav.resolve_left (by simp)
  rw [h, modNav, regridFilter_nav, timeMoved_nav]
  exact ⟨rfl, rfl⟩

theorem firstTime_eq (s : State) (d : Int) (unc : Nat) : firstTime s d unc = timeTold (rtcFollowed s d)
    ((moduleTime (rtcFollowed s d) / (s.nav.tpPeriod * 100000000) + 1) * (s.nav.tpPeriod * 100000000)) unc := rfl

theorem firstTime_set (d : Int) {unc : Nat} (hunc : unc ≤ 100) (hsol : s.nav.solAt = s.now) (hdelta : s.nav.delta = 0) :
    TimeSet s d unc (firstTime s d unc) := by
  rw [firstTime_eq]
  obtain ⟨hn1, hn2⟩ := rtcFollowed_nav s d
  have hrtc : rget (rtcFollowed s d) R.AOC_PWR_STATE_RTC_VALID = 1 := rget_rset_self _ _ _ _ _
  have hin := rtcFollowed_within (s := s) (d := d)
  obtain ⟨w, hw⟩ : ∃ w, w = rtcFollowed s d := ⟨_, rfl⟩
  rw [← hw] at hin hn1 hn2 hrtc ⊢
  generalize (moduleTime w / (s.nav.tpPeriod * 100000000) + 1) * (s.nav.tpPeriod * 100000000) = label
  have hout := timeTold_within (s := w) (label := label) (unc := unc)
  have hnav := hout.nav.resolve_left (by simp)
  refine ⟨timeTold_state _ _ _, ?_, timeTold_unc _ _ hunc, (hout.rget _ _ _ (by decide)).trans hrtc, ?_, ?_, ?_, ?_⟩
  · exact (hout.timeOff.resolve_left (by simp)).trans (hin.timeOff.resolve_left (by simp))
  · rw [timeTold_antB, hin.rget _ _ _ (by decide)]
    exact rget_congr (timeMoved_regs s d) _ _ _
  · rw [hnav, hn1, hsol]
  · rw [hnav, hn2, hdelta]
  · exact (hout.tke.resolve_left (by simp)).trans (hin.tke.resolve_left (by simp))


theorem validSolution_first {u : State} (d : Int) {unc : Nat} (h : timeState u = 0) (hunc : unc ≤ 100) :
    TimeSet u d unc (validSolution u d unc) := by
  have heq : validSolution u d unc =
      firstTime { u with nav := { u.nav with solAt := u.now, solUnc := unc, delta := 0 } } d unc := if_pos h
  rw [heq]
  obtain ⟨h1, h2, h3, h4, h5, h6, h7, h8⟩ :=
    firstTime_set (s := { u with nav := { u.nav with solAt := u.now, solUnc := unc, delta := 0 } }) d hunc rfl rfl
  exact ⟨h1, h2, h3, h4, h5, h6, h7, h8⟩

/-! ### Holdover -/

theorem holdoverEntry_begins {e : Nat} {c : Int} (hstate : timeState s = 1 ∨ timeState s = 3) (hdue : s.nav.solAt + 400000000 ≤ s.now) :
    holdoverEntry s e c = holdoverBegin s e c := by
  have h2 : timeState s ≠ timeHoldover := by obtain h | h := hstate <;> rw [h] <;> decide
  have h0 : timeState s ≠ timeNone := by obtain h | h := hstate <;> rw [h] <;> decide
  refine (if_neg h2).trans (if_neg ?_)
  rintro (h | h)
  · exact h0 h
  · exact absurd hdue (Nat.not_le.mpr h)

/-- NAV's state as holdover begins. -/
def holdoverNav (s : State) (eps : Nat) (tcxo : Int) : Nav :=
  { s.nav with
    past := (noteTime s).nav.past, slew := 0, slewFrom := s.now
    u0 := 4 * s.nav.solUnc + (slewLeft s).natAbs
    eps := min eps (if s.nav.lockFrom + 600 * fcSec ≤ s.nav.solAt then 8 else 500)
    tcxo := tcxo, tcxoMax := 0, suppressTold := false, conf := none, delta := 0 }

theorem ofSignedSat_zero : ofSignedSat 32 0 = 0 := by decide

theorem holdoverBegin_fields (s : State) (e : Nat) (c : Int) :
    rget (holdoverBegin s e c) R.NAV_STATE_TIME_STATE = 2 ∧ rget (holdoverBegin s e c) R.NAV_TIME_ERR_NS = 0 ∧
      (holdoverBegin s e c).nav = holdoverNav s e c ∧ moduleTime (holdoverBegin s e c) = moduleTime s := by
  unfold holdoverBegin
  rw [settleSlew_eq]
  extract_lets left src s1 s2 s3
  have hs2 : s2 = { s with timeOff := s.timeOff - slewed s s.now, nav := holdoverNav s e c } := rfl
  have hstate : rget s3 R.NAV_STATE_TIME_STATE = 2 :=
    (rget_rset_ne _ _ _ _ _ _ (by decide)).trans (setTimeState_reads _ (by decide))
  have herr : rget s3 R.NAV_TIME_ERR_NS = 0 := (rget_rset_self _ _ _ _ _).trans (congrArg (· % 2 ^ 32) ofSignedSat_zero)
  have hw3 : Within [.regs] (blks [.nav]) s2 s3 := rsetS_within.step (setTimeState_within.step (.refl _) rfl rfl) rfl rfl
  clear_value s3
  have hev : Within [.regs, .mem, .extMem, .log] (blks [.hlm, .jrn]) (setUnc s3 (holdoverU s3 / 400000000))
    (raiseEv (setUnc s3 (holdoverU s3 / 400000000)) evNavHoldover) := raiseEv_within
  have hw : Within [.regs, .mem, .extMem, .log] (blks [.nav, .hlm, .jrn]) s2
    (raiseEv (setUnc s3 (holdoverU s3 / 400000000)) evNavHoldover) := raiseEv_within.step (setUnc_within.step (hw3.mono rfl rfl) rfl rfl) rfl rfl
  have hnav := hw.nav.resolve_left (by simp)
  have hnow := hw.now.resolve_left (by simp)
  have hoff := hw.timeOff.resolve_left (by simp)
  rw [hs2] at hnav hnow hoff
  refine ⟨?_, ?_, hnav, ?_⟩
  · rw [hev.rget _ _ _ (by decide), setUnc, rget_rset_ne _ _ _ _ _ _ (by decide), hstate]
  · rw [hev.rget _ _ _ (by decide), setUnc, rget_rset_ne _ _ _ _ _ _ (by decide), herr]
  · refine moduleTime_congr hnow ?_
    rw [slewed_start (by rw [hnav, hnow]; rfl), hoff, sub_zero]

theorem slewComplete_fields (h : timeState s = 3) (hleft : slewLeft s = 0) :
    rget (slewComplete s) R.NAV_STATE_TIME_STATE = 1 ∧ rget (slewComplete s) R.NAV_TIME_ERR_NS = 0 ∧
      (slewComplete s).nav.slew = 0 ∧ moduleTime (slewComplete s) = moduleTime s := by
  obtain ⟨w, hw⟩ : ∃ w, w = modNav (settleSlew s) fun n => { n with delta := 0 } := ⟨_, rfl⟩
  have heq : slewComplete s = setUnc (rsetS (setTimeState w timeGnss) R.NAV_TIME_ERR_NS 0) s.nav.solUnc := by
    rw [hw]
    exact if_pos ⟨h, hleft⟩
  rw [settleSlew_eq] at hw
  have hin : Within [.regs] (blks [.nav]) w (slewComplete s) := by
    rw [heq]
    exact setUnc_within.step (rsetS_within.step (setTimeState_within.step (.refl _) rfl rfl) rfl rfl) rfl rfl
  have hnav := hin.nav.resolve_left (by simp)
  have hnow := hin.now.resolve_left (by simp)
  have hoff := hin.timeOff.resolve_left (by simp)
  rw [hw] at hnav hnow hoff
  refine ⟨?_, ?_, by rw [hnav]; rfl, ?_⟩
  · rw [heq, setUnc, rget_rset_ne _ _ _ _ _ _ (by decide)]
    exact (rget_rset_ne _ _ _ _ _ _ (by decide)).trans (setTimeState_reads _ (by decide))
  · rw [heq, setUnc, rget_rset_ne _ _ _ _ _ _ (by decide)]
    exact (rget_rset_self _ _ _ _ _).trans (congrArg (· % 2 ^ 32) ofSignedSat_zero)
  · refine moduleTime_congr hnow ?_
    rw [slewed_start (by rw [hnav, hnow]; rfl), hoff, sub_zero]
    rfl

/-! ### The time pulse -/

theorem pulseMessage_reads (s : State) (label : Nat) (e : Bool) :
    rget64 (pulseMessage s label e) R.NAV_TP_LAST_LO_TIME R.NAV_TP_LAST_HI_TIME = label % 2 ^ 64 ∧
      rget (pulseMessage s label e) R.NAV_TP_STAT_SEQ = (rget s R.NAV_TP_STAT_SEQ + 1) % 2 ^ R.NAV_TP_STAT_SEQ.width ∧
      rget (pulseMessage s label e) R.NAV_TP_STAT_EMITTED = b2n e := by
  have hstat : ∀ (f : Fld), f.id ∉ [R.NAV_TP_STAT_SEQ.id, R.NAV_TP_STAT_EMITTED.id, R.NAV_TP_STAT_STEP.id,
      R.NAV_TP_STAT_HOLDOVER.id, R.NAV_TP_STAT_SLEWING.id] → rget (pulseMessage s label e) f =
      rget (rset64 s R.NAV_TP_LAST_LO_TIME R.NAV_TP_LAST_HI_TIME label) f := by
    intro f hf
    simp only [List.mem_cons, List.not_mem_nil, or_false, not_or] at hf
    obtain ⟨h1, h2, h3, h4, h5⟩ := hf
    simp only [pulseMessage, rsetB, rwrap, rget_rset_ne _ _ _ _ _ _ h1, rget_rset_ne _ _ _ _ _ _ h2,
      rget_rset_ne _ _ _ _ _ _ h3, rget_rset_ne _ _ _ _ _ _ h4, rget_rset_ne _ _ _ _ _ _ h5]
  refine ⟨?_, ?_, ?_⟩
  · refine Eq.trans ?_ (rget64_rset64 s (lo := R.NAV_TP_LAST_LO_TIME) (hi := R.NAV_TP_LAST_HI_TIME) label rfl rfl (by decide))
    unfold rget64
    rw [hstat _ (by decide), hstat _ (by decide)]
  · simp (disch := decide) only [pulseMessage, rsetB, rwrap, rget_rset_ne, rget_rset_self, rget_rset64_ne]
  · simp (disch := decide) only [pulseMessage, rsetB, rwrap, rget_rset_ne, rget_rset_self]
    cases e <;> rfl

theorem pulseMessage_other (s : State) (label : Nat) (e : Bool) (f : Fld) (hf : f.id ∉ [R.NAV_TP_LAST_LO_TIME.id,
    R.NAV_TP_LAST_HI_TIME.id, R.NAV_TP_STAT_SEQ.id, R.NAV_TP_STAT_EMITTED.id, R.NAV_TP_STAT_STEP.id, R.NAV_TP_STAT_HOLDOVER.id,
    R.NAV_TP_STAT_SLEWING.id]) : rget (pulseMessage s label e) f = rget s f := by
  simp only [List.mem_cons, List.not_mem_nil, or_false, not_or] at hf
  obtain ⟨h6, h7, h1, h2, h3, h4, h5⟩ := hf
  simp only [pulseMessage, rsetB, rwrap, rget_rset_ne _ _ _ _ _ _ h1, rget_rset_ne _ _ _ _ _ _ h2,
    rget_rset_ne _ _ _ _ _ _ h3, rget_rset_ne _ _ _ _ _ _ h4, rget_rset_ne _ _ _ _ _ _ h5, rget_rset64_ne _ _ _ _ h6 h7]

/-- A boundary leaves slew and confirmation alone. -/
structure SameSlew (s u : State) : Prop where
  slew : u.nav.slew = s.nav.slew
  slewFrom : u.nav.slewFrom = s.nav.slewFrom
  conf : u.nav.conf = s.nav.conf

theorem SameSlew.trans {s u v : State} (h : SameSlew s u) (k : SameSlew u v) : SameSlew s v :=
  ⟨k.slew.trans h.slew, k.slewFrom.trans h.slewFrom, k.conf.trans h.conf⟩

theorem sameSlew_of_nav {s u : State} (h : u.nav = s.nav) : SameSlew s u := ⟨by rw [h], by rw [h], by rw [h]⟩

/-- The registers of the next boundary's label. -/
theorem pulseOut_rget (s : State) (label : Nat) (st : Bool) (f : Fld) (hlo : f.id ≠ R.NAV_TP_NEXT_LO_TIME.id)
    (hhi : f.id ≠ R.NAV_TP_NEXT_HI_TIME.id) (hf : f.id / 128 ∉ blks [.hlm, .jrn]) :
    rget (pulseOut s label st) f = rget (pulseMessage s label (pulseEmitted s label)) f := by
  unfold pulseOut
  extract_lets e told s1 s2 s3
  have h2 : Within [.nav] [] s1 s2 := within_ite (modNav_within.step (.refl _) rfl rfl) (.refl _)
  have h3 : Within [.nav, .regs, .mem, .extMem, .log] (blks [.hlm, .jrn]) s1 s3 :=
    within_ite (raiseEv_within.step (modNav_within.step (h2.mono rfl rfl) rfl rfl) rfl rfl) (h2.mono rfl rfl)
  exact (rget_rset64_ne _ _ _ _ hlo hhi).trans (h3.rget _ _ _ hf)

theorem sameSlew_ite {s a b : State} {p : Prop} [Decidable p] (ha : SameSlew s a) (hb : SameSlew s b) :
    SameSlew s (if p then a else b) := by
  split
  · exact ha
  · exact hb

theorem raiseEv_slew (s : State) (e : Nat) : SameSlew s (raiseEv s e) := sameSlew_of_nav (raiseEv_within.nav.resolve_left (by simp))

theorem pulseOut_slew (s : State) (label : Nat) (st : Bool) : SameSlew s (pulseOut s label st) := by
  unfold pulseOut
  extract_lets e told s1 s2 s3
  have h1 : SameSlew s s1 := sameSlew_of_nav (pulseMessage_within.nav.resolve_left (by simp))
  have h2 : SameSlew s1 s2 := sameSlew_ite ⟨rfl, rfl, rfl⟩ ⟨rfl, rfl, rfl⟩
  have h3 : SameSlew s2 s3 := sameSlew_ite
    (SameSlew.trans (u := modNav s2 fun n => { n with suppressTold := true }) ⟨rfl, rfl, rfl⟩ (raiseEv_slew _ _)) ⟨rfl, rfl, rfl⟩
  exact h1.trans (h2.trans (h3.trans (sameSlew_of_nav (setTpNext_within.nav.resolve_left (by simp)))))

/-- What a boundary's message leaves of the registers (R279). -/
structure PulseTold (s : State) (label : Nat) (u : State) : Prop where
  last : rget64 u R.NAV_TP_LAST_LO_TIME R.NAV_TP_LAST_HI_TIME = label % 2 ^ 64
  seq : rget u R.NAV_TP_STAT_SEQ = (rget s R.NAV_TP_STAT_SEQ + 1) % 2 ^ R.NAV_TP_STAT_SEQ.width
  emitted : rget u R.NAV_TP_STAT_EMITTED = b2n (pulseEmitted s label)
  state : rget u R.NAV_STATE_TIME_STATE = rget s R.NAV_STATE_TIME_STATE
  steps : rget u R.NAV_TP_STAT_STEP_COUNT = rget s R.NAV_TP_STAT_STEP_COUNT

theorem pulseOut_told (s : State) (label : Nat) (st : Bool) : PulseTold s label (pulseOut s label st) := by
  obtain ⟨h1, h2, h3⟩ := pulseMessage_reads s label (pulseEmitted s label)
  refine ⟨?_, ?_, ?_, ?_, ?_⟩
  · refine Eq.trans ?_ h1
    unfold rget64
    rw [pulseOut_rget _ _ _ _ (by decide) (by decide) (by decide), pulseOut_rget _ _ _ _ (by decide) (by decide) (by decide)]
  · rw [pulseOut_rget _ _ _ _ (by decide) (by decide) (by decide), h2]
  · rw [pulseOut_rget _ _ _ _ (by decide) (by decide) (by decide), h3]
  · rw [pulseOut_rget _ _ _ _ (by decide) (by decide) (by decide), pulseMessage_other _ _ _ _ (by decide)]
  · rw [pulseOut_rget _ _ _ _ (by decide) (by decide) (by decide), pulseMessage_other _ _ _ _ (by decide)]

theorem pulseOut_moduleTime (s : State) (label : Nat) (st : Bool) : moduleTime (pulseOut s label st) = moduleTime s := by
  have hw := pulseOut_within (s := s) (label := label) (stepped := st)
  have hs := pulseOut_slew s label st
  refine moduleTime_congr (hw.now.resolve_left (by simp)) ?_
  rw [slewed_congr hs.slew hs.slewFrom, hw.timeOff.resolve_left (by simp), hw.now.resolve_left (by simp)]

/-- The state at a boundary, the TCXO having been measured and the uncertainty of a holdover told. -/
def boundaryFrom (s : State) (c : Int) : State :=
  if timeState (noteTcxo s c) = timeHoldover then setUnc (noteTcxo s c) (holdoverU (noteTcxo s c) / 400000000) else noteTcxo s c

theorem boundaryFrom_self {c : Int} (h : timeState s ≠ 2) : boundaryFrom s c = s := by
  have hn : noteTcxo s c = s := if_neg h
  unfold boundaryFrom
  rw [hn]
  exact if_neg h

theorem pulseBoundary_none {c : Int} (hdue : tpNext s ≤ moduleTime s) (hd : boundaryDelta (boundaryFrom s c) = none) :
    pulseBoundary s c = pulseOut (boundaryFrom s c) (tpNext s) false := by
  refine (if_neg (Nat.not_lt.mpr hdue)).trans ?_
  show (match boundaryDelta (boundaryFrom s c) with | none => _ | some d => _) = _
  rw [hd]
  rfl

theorem pulseBoundary_slews {c d : Int} (hdue : tpNext s ≤ moduleTime s) (hd : boundaryDelta (boundaryFrom s c) = some d)
    (h1 : d ≤ 4 * (rget s R.NAV_HO_LIMITS_SLEW_LIMIT : Int)) (h2 : -(4 * (rget s R.NAV_HO_LIMITS_SLEW_LIMIT : Int)) ≤ d) :
    pulseBoundary s c = pulseOut (slewDecide (boundaryFrom s c) d) (tpNext s) false := by
  refine (if_neg (Nat.not_lt.mpr hdue)).trans ?_
  show (match boundaryDelta (boundaryFrom s c) with | none => _ | some d => _) = _
  rw [hd]
  exact if_pos ⟨h1, h2⟩

theorem pulseBoundary_steps {c d : Int} (hdue : tpNext s ≤ moduleTime s) (hd : boundaryDelta (boundaryFrom s c) = some d)
    (h : ¬(d ≤ 4 * (rget s R.NAV_HO_LIMITS_SLEW_LIMIT : Int) ∧ -(4 * (rget s R.NAV_HO_LIMITS_SLEW_LIMIT : Int)) ≤ d)) :
    pulseBoundary s c = if 0 < d then setTpNext (timeStep (boundaryFrom s c) d) (moduleTime (timeStep (boundaryFrom s c) d))
      else pulseOut (timeStep (boundaryFrom s c) d) (tpNext s) true := by
  refine (if_neg (Nat.not_lt.mpr hdue)).trans ?_
  show (match boundaryDelta (boundaryFrom s c) with | none => _ | some d => _) = _
  rw [hd]
  exact if_neg h

theorem endConf_nav (s : State) : (endConf s).nav =
    { s.nav with solAt := (endConf s).nav.solAt, lockFrom := (endConf s).nav.lockFrom, conf := none } := by
  unfold endConf
  cases hc : s.nav.conf with
  | none => dsimp only; rw [← hc]
  | some c => rfl

theorem moduleTime_startSlew {s u : State} (hnow : u.now = s.now)
    (hslew : u.nav.slewFrom = s.now) (hoff : u.timeOff = s.timeOff - slewed s s.now) : moduleTime u = moduleTime s := by
  refine moduleTime_congr hnow ?_
  rw [slewed_start (hslew.trans hnow.symm), hoff, sub_zero]

/-- The state as slewing is decided on. -/
def slewFromHere (s : State) : State := setTimeState (modNav (endConf s) fun n => { n with delta := 0 }) timeSlewing

theorem slewFromHere_within {s : State} : Within [.regs, .nav] (blks [.nav]) s (slewFromHere s) :=
  setTimeState_within.step (modNav_within.step (endConf_within.mono rfl rfl) rfl rfl) rfl rfl

theorem slewFromHere_nav (s : State) : (slewFromHere s).nav.slew = s.nav.slew ∧ (slewFromHere s).nav.slewFrom = s.nav.slewFrom ∧
    (slewFromHere s).nav.conf = none := by
  have h : (slewFromHere s).nav = { (endConf s).nav with delta := 0 } := setTimeState_within.nav.resolve_left (by simp)
  rw [h, endConf_nav]
  exact ⟨rfl, rfl, rfl⟩

theorem slewFromHere_rget (s : State) (f : Fld) (hf : f.id ≠ R.NAV_STATE_TIME_STATE.id) : rget (slewFromHere s) f = rget s f :=
  (rget_rset_ne _ _ _ _ _ _ hf).trans (rget_congr (endConf_within.regs.resolve_left (by simp)) _ _ _)

/-- A boundary that decides to slew an error of `d` out. -/
structure SlewBegun (s : State) (d : Int) (u : State) : Prop where
  state : rget u R.NAV_STATE_TIME_STATE = 3
  slew : u.nav.slew = d
  slewFrom : u.nav.slewFrom = s.now
  conf : u.nav.conf = none
  time : moduleTime u = moduleTime s
  other : ∀ f : Fld, f.id ∉ [R.NAV_STATE_TIME_STATE.id, R.NAV_TIME_ERR_NS.id, R.NAV_TIME_UNC_NS.id] → rget u f = rget s f

theorem slewDecide_begun {d : Int} (hd : d ≠ 0) : SlewBegun s d (slewDecide s d) := by
  have heq : slewDecide s d = setUnc (startSlew (slewFromHere s) d) (d.natAbs / 4 + s.nav.solUnc) := if_neg hd
  have hw := slewFromHere_within (s := s)
  have hnow : (slewFromHere s).now = s.now := hw.now.resolve_left (by simp)
  have hoff : (slewFromHere s).timeOff = s.timeOff := hw.timeOff.resolve_left (by simp)
  obtain ⟨hslew, hfrom, hconf⟩ := slewFromHere_nav s
  have hstate : rget (slewFromHere s) R.NAV_STATE_TIME_STATE = 3 := setTimeState_reads _ (by decide)
  have hget := slewFromHere_rget s
  obtain ⟨w, hwdef⟩ : ∃ w, w = slewFromHere s := ⟨_, rfl⟩
  rw [heq]
  rw [← hwdef] at hnow hoff hslew hfrom hconf hstate hget ⊢
  rw [startSlew_eq]
  refine ⟨?_, rfl, hnow, hconf, ?_, fun f hf => ?_⟩
  · rw [setUnc, rget_rset_ne _ _ _ _ _ _ (by decide), rsetS, rget_rset_ne _ _ _ _ _ _ (by decide)]
    exact hstate
  · refine moduleTime_startSlew hnow hnow ?_
    show w.timeOff - slewed w w.now = s.timeOff - slewed s s.now
    rw [hoff, hnow, slewed_congr hslew hfrom]
  · simp only [List.mem_cons, List.not_mem_nil, or_false, not_or] at hf
    rw [setUnc, rget_rset_ne _ _ _ _ _ _ hf.2.2, rsetS, rget_rset_ne _ _ _ _ _ _ hf.2.1]
    exact hget f hf.1

/-- Module time after a step of `−d`, NAV's own state following. -/
def stepMoved (s : State) (d : Int) : State :=
  modNav (regridFilter { settleSlew (endConf s) with
    timeOff := (settleSlew (endConf s)).timeOff - d, tke := { s.tke with stepSeen := true } }) fun n =>
      { n with delta := 0, stepCarry := true }

theorem stepMoved_fields (s : State) (d : Int) : (stepMoved s d).timeOff = s.timeOff - slewed s s.now - d ∧
    (stepMoved s d).tke = { s.tke with stepSeen := true } ∧ (stepMoved s d).nav.slew = 0 ∧
    (stepMoved s d).nav.lastEmit = s.nav.lastEmit ∧ (stepMoved s d).regs = s.regs := by
  have hslew : slewed (endConf s) s.now = slewed s s.now := slewed_congr (by rw [endConf_nav]) (by rw [endConf_nav]) _
  have hoff : (endConf s).timeOff = s.timeOff := endConf_within.timeOff.resolve_left (by simp)
  have hnow : (endConf s).now = s.now := endConf_within.now.resolve_left (by simp)
  have hregs : (endConf s).regs = s.regs := endConf_within.regs.resolve_left (by simp)
  have hlast : (endConf s).nav.lastEmit = s.nav.lastEmit := by rw [endConf_nav]
  unfold stepMoved
  rw [settleSlew_eq]
  refine ⟨?_, rfl, rfl, hlast, hregs⟩
  show (endConf s).timeOff - slewed (endConf s) (endConf s).now - d = _
  rw [hoff, hnow, hslew]

theorem timeStep_eq (s : State) (d : Int) : timeStep s d = raiseEv (setUnc (rwrap (rsetS (setTimeState (stepMoved s d) timeGnss)
    R.NAV_TIME_ERR_NS 0) R.NAV_TP_STAT_STEP_COUNT) s.nav.solUnc) evNavTimeStep := by
  have htke : (settleSlew (endConf s)).tke = s.tke :=
    (settleSlew_within.step (endConf_within.mono rfl rfl) rfl rfl : Within [.timeOff, .nav] [] s _).tke.resolve_left (by simp)
  unfold timeStep stepMoved
  dsimp only
  rw [htke]

/-- Module time has been stepped by `−d` (R275). -/
structure Stepped (s : State) (d : Int) (u : State) : Prop where
  state : rget u R.NAV_STATE_TIME_STATE = 1
  off : u.timeOff = s.timeOff - slewed s s.now - d
  slew : u.nav.slew = 0
  lastEmit : u.nav.lastEmit = s.nav.lastEmit
  steps : rget u R.NAV_TP_STAT_STEP_COUNT = (rget s R.NAV_TP_STAT_STEP_COUNT + 1) % 2 ^ R.NAV_TP_STAT_STEP_COUNT.width
  tke : u.tke = { s.tke with stepSeen := true }
  seq : rget u R.NAV_TP_STAT_SEQ = rget s R.NAV_TP_STAT_SEQ

theorem timeStep_stepped (s : State) (d : Int) : Stepped s d (timeStep s d) := by
  rw [timeStep_eq]
  obtain ⟨hoff, htke, hslew, hlast, hregs⟩ := stepMoved_fields s d
  generalize stepMoved s d = w at hoff htke hslew hlast hregs ⊢
  have hev : Within [.regs, .mem, .extMem, .log] (blks [.hlm, .jrn]) (setUnc (rwrap (rsetS (setTimeState w timeGnss)
    R.NAV_TIME_ERR_NS 0) R.NAV_TP_STAT_STEP_COUNT) s.nav.solUnc) (raiseEv (setUnc (rwrap (rsetS (setTimeState w timeGnss)
    R.NAV_TIME_ERR_NS 0) R.NAV_TP_STAT_STEP_COUNT) s.nav.solUnc) evNavTimeStep) := raiseEv_within
  have hw : Within [.regs, .mem, .extMem, .log] (blks [.nav, .hlm, .jrn]) w (raiseEv (setUnc (rwrap (rsetS (setTimeState w timeGnss)
    R.NAV_TIME_ERR_NS 0) R.NAV_TP_STAT_STEP_COUNT) s.nav.solUnc) evNavTimeStep) := raiseEv_within.step (setUnc_within.step
      (rwrap_within.step (rsetS_within.step (setTimeState_within.step (.refl _) rfl rfl) rfl rfl) rfl rfl) rfl rfl) rfl rfl
  have hnav := hw.nav.resolve_left (by simp)
  refine ⟨?_, (hw.timeOff.resolve_left (by simp)).trans hoff, by rw [hnav, hslew], by rw [hnav, hlast], ?_,
    (hw.tke.resolve_left (by simp)).trans htke, ?_⟩
  · rw [hev.rget _ _ _ (by decide)]
    simp (disch := decide) only [setUnc, rwrap, rsetS, setTimeState, rget_rset_ne, rget_rset_self]
    rfl
  · rw [hev.rget _ _ _ (by decide)]
    simp (disch := decide) only [setUnc, rwrap, rsetS, setTimeState, rget_rset_ne, rget_rset_self]
    rw [rget_congr hregs]
  · rw [hev.rget _ _ _ (by decide)]
    simp (disch := decide) only [setUnc, rwrap, rsetS, setTimeState, rget_rset_ne]
    exact rget_congr hregs _ _ _

theorem boundaryFrom_within {s : State} {c : Int} : Within [.regs, .nav] (blks [.nav]) s (boundaryFrom s c) :=
  within_ite (setUnc_within.step (noteTcxo_within.mono rfl rfl) rfl rfl) (noteTcxo_within.mono rfl rfl)

theorem boundaryFrom_nav (s : State) (c : Int) : (boundaryFrom s c).nav = { s.nav with tcxoMax := (boundaryFrom s c).nav.tcxoMax } := by
  have h : (boundaryFrom s c).nav = (noteTcxo s c).nav := by
    unfold boundaryFrom
    split <;> rfl
  rw [h]
  exact noteTcxo_nav s c

theorem boundaryFrom_rget (s : State) (c : Int) (f : Fld) (hf : f.id ≠ R.NAV_TIME_UNC_NS.id) :
    rget (boundaryFrom s c) f = rget s f := by
  have hregs : (noteTcxo s c).regs = s.regs := noteTcxo_within.regs.resolve_left (by simp)
  unfold boundaryFrom
  split
  · exact (rget_rset_ne _ _ _ _ _ _ hf).trans (rget_congr hregs _ _ _)
  · exact rget_congr hregs _ _ _

theorem boundaryDelta_gnss {d : Int} (h : timeState s = 1) (hd : s.nav.delta = d) (hne : d ≠ 0) : boundaryDelta s = some d := by
  refine (if_neg (by rw [h]; decide)).trans ((if_pos h).trans ?_)
  rw [hd]
  exact if_neg hne

theorem boundaryDelta_confirmed {k : NavConf} (h : timeState s = 2) (hk : s.nav.conf = some k)
    (hlong : k.first + 1200000000 ≤ k.last) : boundaryDelta s = some s.nav.delta := by
  refine (if_pos h).trans ?_
  rw [hk]
  exact if_pos hlong

/-- A boundary at which slewing begins. -/
structure BoundarySlews (s : State) (d : Int) (u : State) : Prop where
  last : rget64 u R.NAV_TP_LAST_LO_TIME R.NAV_TP_LAST_HI_TIME = tpNext s % 2 ^ 64
  seq : rget u R.NAV_TP_STAT_SEQ = (rget s R.NAV_TP_STAT_SEQ + 1) % 2 ^ R.NAV_TP_STAT_SEQ.width
  state : rget u R.NAV_STATE_TIME_STATE = 3
  slew : u.nav.slew = d
  slewFrom : u.nav.slewFrom = s.now
  conf : u.nav.conf = none
  time : moduleTime u = moduleTime s
  within : Within [.regs, .timeOff, .nav, .mem, .extMem, .log] (blks [.nav, .hlm, .jrn]) s u

theorem pulseBoundary_begins {c d : Int} (hdue : tpNext s ≤ moduleTime s) (hd : boundaryDelta (boundaryFrom s c) = some d)
    (hne : d ≠ 0) (h1 : d ≤ 4 * (rget s R.NAV_HO_LIMITS_SLEW_LIMIT : Int)) (h2 : -(4 * (rget s R.NAV_HO_LIMITS_SLEW_LIMIT : Int)) ≤ d) :
    BoundarySlews s d (pulseBoundary s c) := by
  rw [pulseBoundary_slews hdue hd h1 h2]
  have hb := slewDecide_begun (s := boundaryFrom s c) hne
  have ht := pulseOut_told (slewDecide (boundaryFrom s c) d) (tpNext s) false
  have hs := pulseOut_slew (slewDecide (boundaryFrom s c) d) (tpNext s) false
  have hw := boundaryFrom_within (s := s) (c := c)
  have hnow : (boundaryFrom s c).now = s.now := hw.now.resolve_left (by simp)
  refine ⟨ht.last, ?_, ht.state.trans hb.state, hs.slew.trans hb.slew, (hs.slewFrom.trans hb.slewFrom).trans hnow,
    hs.conf.trans hb.conf, ?_, ?_⟩
  · rw [ht.seq, hb.other _ (by decide), boundaryFrom_rget _ _ _ (by decide)]
  · rw [pulseOut_moduleTime, hb.time]
    refine moduleTime_congr hnow ?_
    rw [slewed_congr (s := s) (by rw [boundaryFrom_nav]) (by rw [boundaryFrom_nav]), hw.timeOff.resolve_left (by simp), hnow]
  · exact pulseOut_within.step (slewDecide_within.step (hw.mono rfl rfl) rfl rfl) rfl rfl

/-! ### O34 -/

/-- Settles O34. -/
theorem moduleTimeRules : Obligations.ModuleTimeRules := by
  unfold Obligations.ModuleTimeRules
  refine ⟨?first, ?gnss, ?holdover, ?slewing, ?invalid, ?far, ?leap, ?hold, ?early, ?pulse, ?slewGnss, ?slewConf, ?back, ?forward,
    ?notDue, ?complete⟩
  case first =>
    intro s t d q a b n far hfab hen hpick hstart hn hstate
    have h := (timeSolution_of (s := advance s t) n hen hpick hstart).trans (if_pos hn)
    have hst : timeState (solNoted (advance s t) q) = 0 := (solNoted_rget _ _ _ (by decide) _ _).trans hstate
    have hw := timeSolution_within (s := advance s t) (a := a) (b := b) (unc := n) (far := far)
    have hset := validSolution_first (d - cableDelay (advance s t) q) hst hn
    rw [← h] at hset
    refine ⟨timeSolution (advance s t) a b n far, atFabric_up s t (fun s => timeSolution s a b n far) hfab, hset.state, hset.off,
      hset.unc, hset.rtc, hset.antB.trans (solNoted_antB _ _), hset.solAt, hset.delta, hset.tke, ?_, hw.eq_frame⟩
    exact (hw.mono rfl rfl : Within [.regs, .timeOff, .rtcOff, .tke, .nav, .mem, .extMem, .log] (blks [.nav, .aoc, .hlm, .jrn])
      _ _).blocksOnly
  case gnss =>
    intro s t d q a b n far hfab hen hpick hstart hn hstate
    have hst : timeState (solNoted (advance s t) q) = 1 := (solNoted_rget _ _ _ (by decide) _ _).trans hstate
    have h := ((timeSolution_of (s := advance s t) n hen hpick hstart).trans (if_pos hn)).trans (validSolution_gnss hst)
    refine ⟨_, (atFabric_up s t (fun s => timeSolution s a b n far) hfab).trans (congrArg _ h), ?_, rfl, setUnc_small _ hn, rfl, ?_,
      rfl⟩
    · exact (rget_rset_ne _ _ _ _ _ _ (by decide)).trans hst
    · exact (setUnc_within.step (modNav_within.step solNoted_within rfl rfl) rfl rfl :
        Within [.regs, .nav] (blks [.nav]) (advance s t) _).blocksOnly
  case holdover =>
    intro s t d q a b n far hfab hen hpick hstart hn hstate
    have hst : timeState (solNoted (advance s t) q) = 2 := (solNoted_rget _ _ _ (by decide) _ _).trans hstate
    have h := ((timeSolution_of (s := advance s t) n hen hpick hstart).trans (if_pos hn)).trans (validSolution_holdover hst)
    have hhz : solHz (solNoted (advance s t) q) = solHz s := by
      unfold solHz
      rw [solNoted_rget _ _ _ (by decide)]
      rfl
    rw [hhz] at h
    refine ⟨_, (atFabric_up s t (fun s => timeSolution s a b n far) hfab).trans (congrArg _ h), hst, rfl, rfl, ?_, rfl⟩
    exact rset_regsOnly (advance s t) _ _ _ _ (.head _)
  case slewing =>
    intro s t d q a b n far hfab hen hpick hstart hn hstate
    have hst : timeState (solNoted (advance s t) q) = 3 := (solNoted_rget _ _ _ (by decide) _ _).trans hstate
    have h := ((timeSolution_of (s := advance s t) n hen hpick hstart).trans (if_pos hn)).trans (validSolution_slewing hst)
    rw [startSlew_eq] at h
    refine ⟨_, (atFabric_up s t (fun s => timeSolution s a b n far) hfab).trans (congrArg _ h), ?_, rfl, rfl, rfl, ?_, ?_, rfl⟩
    · exact (rget_rset_ne _ _ _ _ _ _ (by decide)).trans ((rget_rset_ne _ _ _ _ _ _ (by decide)).trans hst)
    · exact moduleTime_startSlew rfl rfl rfl
    · exact (setUnc_within.step (rsetS_within.step (within_timeOff_nav (modNav_within.step (solNoted_within.mono rfl rfl) rfl rfl) rfl)
        rfl rfl) rfl rfl : Within [.regs, .timeOff, .nav] (blks [.nav]) (advance s t) _).blocksOnly
  case invalid =>
    intro s t d q a b n far hfab hen hpick hstart hn
    have h := timeSolution_of (s := advance s t) n hen hpick hstart
    obtain ⟨hnav, hunc, hregs, hframe⟩ := solUsed_invalid (solNoted (advance s t) q) (advance s t) (d - cableDelay (advance s t) q) hn
    rw [← h] at hnav hunc hregs hframe
    refine ⟨_, atFabric_up s t (fun s => timeSolution s a b n far) hfab, hnav, ?_, ?_, ?_⟩
    · rw [hunc, solNoted_rget _ _ _ (by decide)]
      rfl
    · have hant : RegsOnly s (solNoted (advance s t) q) [R.NAV_ANT_TIME_ANT_B.key 0 0, R.NAV_TIME_UNC_NS.key 0 0] :=
        rset_regsOnly (advance s t) _ _ _ _ (.head _)
      exact hant.trans fun k hk => hregs k fun hmem => hk (.tail _ hmem)
    · rw [hnav] at hframe ⊢
      exact hframe
  case far =>
    intro s t d q a b n far hfab hen hpick hstart hn hfar hkind
    subst hfar
    have h := timeSolution_far (s := advance s t) (n := n) hen hpick hstart hkind
    obtain ⟨hnav, -, hregs, hframe⟩ := solUsed_invalid
      (rinc (rset (solNoted (advance s t) q) R.NAV_STATE_START_KIND 3) R.NAV_LEAP_SAVE_BAD) (advance s t)
      (d - cableDelay (advance s t) q) hn
    rw [← h] at hnav hregs hframe
    have hw : Within [.regs, .nav] (blks [.nav]) (advance s t) (timeSolution (advance s t) a b n true) := by
      rw [h]
      exact (solUsed_invalid_within hn).step (rinc_within.step (rset_within.step solNoted_within rfl rfl) rfl rfl) rfl rfl
    have hnav' : (timeSolution (advance s t) a b n true).nav = { s.nav with started := true, conf := none } := hnav
    refine ⟨_, atFabric_up s t (fun s => timeSolution s a b n true) hfab, hnav', ?_, ?_, ?_, hframe⟩
    · rw [hregs.rget _ _ _ (by decide)]
      exact (rget_rset_ne _ _ _ _ _ _ (by decide)).trans (rget_rset_self _ _ _ _ _)
    · rw [hregs.rget _ _ _ (by decide), rget_rinc_self, rget_rset_ne _ _ _ _ _ _ (by decide), solNoted_rget _ _ _ (by decide)]
      rfl
    · exact hw.blocksOnly
  case leap =>
    exact fun s t n hfab => atFabric_up s t (fun s => rset (rset s R.NAV_LEAP_LEAP_S n) R.NAV_LEAP_LEAP_VALID 1) hfab
  case hold =>
    intro s t e c hfab hstate hdue
    have h := holdoverEntry_begins (s := advance s t) (e := e) (c := c) hstate hdue
    obtain ⟨h1, h2, h3, h4⟩ := holdoverBegin_fields (advance s t) e c
    have hw := holdoverBegin_within (s := advance s t) (eps := e) (tcxo := c)
    refine ⟨holdoverBegin (advance s t) e c, (atFabric_up s t (fun s => holdoverEntry s e c) hfab).trans (congrArg _ h), h1, h2,
      by rw [h3]; rfl, by rw [h3]; rfl, by rw [h3]; rfl, by rw [h3]; rfl, by rw [h3]; rfl, h4, ?_, hw.eq_frame⟩
    exact (hw.mono rfl rfl : Within [.regs, .timeOff, .nav, .mem, .extMem, .log] (blks [.nav, .hlm, .jrn]) _ _).blocksOnly
  case early =>
    intro s t e c hfab hstate hdue
    refine (atFabric_up s t (fun s => holdoverEntry s e c) hfab).trans (congrArg _ ((if_neg ?_).trans (if_pos (.inr hdue))))
    rw [show timeState (advance s t) = 1 from hstate]
    decide
  case pulse =>
    intro s t c hfab hdue hstate hnone
    have hself := boundaryFrom_self (s := advance s t) (c := c) hstate
    have h := pulseBoundary_none (s := advance s t) (c := c) hdue (by rw [hself]; exact hnone)
    rw [hself] at h
    have ht := pulseOut_told (advance s t) (tpNext s) false
    have hw := pulseOut_within (s := advance s t) (label := tpNext s) (stepped := false)
    exact ⟨_, (atFabric_up s t (fun s => pulseBoundary s c) hfab).trans (congrArg _ h), ht.last, ht.seq, ht.state, ht.emitted,
      pulseOut_moduleTime _ _ _, hw.blocksOnly, hw.eq_frame⟩
  case slewGnss =>
    intro s t c d hfab hdue hstate hdelta hne h1 h2
    have hself := boundaryFrom_self (s := advance s t) (c := c) (by rw [show timeState (advance s t) = 1 from hstate]; decide)
    have hb := pulseBoundary_begins (s := advance s t) (c := c) hdue (by rw [hself]; exact boundaryDelta_gnss hstate hdelta hne) hne h1 h2
    exact ⟨_, atFabric_up s t (fun s => pulseBoundary s c) hfab, hb.last, hb.seq, hb.state, hb.slew, hb.slewFrom, hb.time,
      hb.within.blocksOnly, hb.within.eq_frame⟩
  case slewConf =>
    intro s t c d k hfab hdue hstate hk hlong hdelta hne h1 h2
    have hst : timeState (boundaryFrom (advance s t) c) = 2 := (boundaryFrom_rget _ _ _ (by decide)).trans hstate
    have hconf : (boundaryFrom (advance s t) c).nav.conf = some k := by rw [boundaryFrom_nav]; exact hk
    have hd : (boundaryFrom (advance s t) c).nav.delta = d := by rw [boundaryFrom_nav]; exact hdelta
    have hb := pulseBoundary_begins (s := advance s t) (c := c) hdue
      ((boundaryDelta_confirmed hst hconf hlong).trans (congrArg _ hd)) hne h1 h2
    exact ⟨_, atFabric_up s t (fun s => pulseBoundary s c) hfab, hb.last, hb.seq, hb.state, hb.slew, hb.slewFrom, hb.conf, hb.time,
      hb.within.blocksOnly, hb.within.eq_frame⟩
  case back =>
    intro s t c d hfab hdue hstate hdelta hneg hlim
    have hself := boundaryFrom_self (s := advance s t) (c := c) (by rw [show timeState (advance s t) = 1 from hstate]; decide)
    have h := pulseBoundary_steps (s := advance s t) (c := c) hdue
      (by rw [hself]; exact boundaryDelta_gnss hstate hdelta hneg.ne) (fun h => absurd hlim (not_lt.mpr h.2))
    rw [hself, if_neg (by omega)] at h
    have hst := timeStep_stepped (advance s t) d
    have hw := timeStep_within (s := advance s t) (d := d)
    have ht := pulseOut_told (timeStep (advance s t) d) (tpNext s) true
    have hsl := pulseOut_slew (timeStep (advance s t) d) (tpNext s) true
    have hp := pulseOut_within (s := timeStep (advance s t) d) (label := tpNext s) (stepped := true)
    have hwu : Within [.regs, .timeOff, .tke, .nav, .mem, .extMem, .log] (blks [.nav, .hlm, .jrn]) (advance s t)
      (pulseOut (timeStep (advance s t) d) (tpNext s) true) := pulseOut_within.step (hw.mono rfl rfl) rfl rfl
    have htke := (hp.tke.resolve_left (by simp)).trans hst.tke
    refine ⟨_, (atFabric_up s t (fun s => pulseBoundary s c) hfab).trans (congrArg _ h), ht.last, ht.seq.trans (by rw [hst.seq]; rfl),
      ht.state.trans hst.state, (hp.timeOff.resolve_left (by simp)).trans hst.off, hsl.slew.trans hst.slew,
      ht.steps.trans hst.steps, congrArg Tke.stepSeen htke, hwu.blocksOnly, hwu.eq_frame⟩
  case forward =>
    intro s t c d hfab hdue hstate hdelta hpos hlim
    have hself := boundaryFrom_self (s := advance s t) (c := c) (by rw [show timeState (advance s t) = 1 from hstate]; decide)
    have h := pulseBoundary_steps (s := advance s t) (c := c) hdue
      (by rw [hself]; exact boundaryDelta_gnss hstate hdelta hpos.ne') (fun h => absurd hlim (not_lt.mpr h.1))
    rw [hself, if_pos hpos] at h
    have hst := timeStep_stepped (advance s t) d
    have hw := timeStep_within (s := advance s t) (d := d)
    have hwu : Within [.regs, .timeOff, .tke, .nav, .mem, .extMem, .log] (blks [.nav, .hlm, .jrn]) (advance s t)
      (setTpNext (timeStep (advance s t) d) (moduleTime (timeStep (advance s t) d))) := setTpNext_within.step (hw.mono rfl rfl) rfl rfl
    have hget : ∀ f : Fld, f.id ≠ R.NAV_TP_NEXT_LO_TIME.id → f.id ≠ R.NAV_TP_NEXT_HI_TIME.id →
        rget (setTpNext (timeStep (advance s t) d) (moduleTime (timeStep (advance s t) d))) f = rget (timeStep (advance s t) d) f :=
      fun f h1 h2 => rget_rset64_ne _ _ _ _ h1 h2
    refine ⟨_, (atFabric_up s t (fun s => pulseBoundary s c) hfab).trans (congrArg _ h), (hget _ (by decide) (by decide)).trans hst.state,
      hst.off, hst.slew, (hget _ (by decide) (by decide)).trans hst.steps, (congrArg Tke.stepSeen hst.tke).trans rfl,
      (hget _ (by decide) (by decide)).trans hst.seq, hst.lastEmit, hwu.blocksOnly, hwu.eq_frame⟩
  case notDue =>
    exact fun s t c hfab hdue => (atFabric_up s t (fun s => pulseBoundary s c) hfab).trans (congrArg _ (if_pos hdue))
  case complete =>
    intro s t hfab hstate hleft
    obtain ⟨h1, h2, h3, h4⟩ := slewComplete_fields (s := advance s t) hstate hleft
    have hw := slewComplete_within (s := advance s t)
    exact ⟨_, atFabric_up s t slewComplete hfab, h1, h2, h3, h4,
      (hw.mono rfl rfl : Within [.regs, .timeOff, .nav] (blks [.nav]) _ _).blocksOnly, hw.eq_frame⟩

/-! ### O54 -/

/-- Settles O54: the clauses of O33 and O34, less their frames. -/
theorem navigationComplete : Obligations.NavigationComplete := by
  obtain ⟨c1, -, c3, -, -, c6, -, -, -, c10, c11, c12, c13, c14, -, -, c17, c18, -, c20⟩ := navTracking
  obtain ⟨d1, -, -, -, -, -, d7, d8, -, d10, -, -, -, -, -, d16⟩ := moduleTimeRules
  unfold Obligations.NavigationComplete
  refine ⟨?_, ?_, ?_, c10, ?_, ?_, ?_, ?_, ?_, ?_, ?_, ?_, ?_, ?_, ?_, ?_⟩
  · exact fun s t r d k hfab hd hdue hroom => ⟨_, c1 s t r d k hfab hd hdue hroom, rfl⟩
  · intro s t r x b g v a f n hfab hx hf
    refine ⟨_, c3 s t r x b g v a f n hfab hx hf, ?_, ?_, ?_⟩
    · rw [complete_nav]
    · rw [complete_nav]
    · refine complete_reqs_congr ?_ _ _ _ _; rfl
  · intro s t b g v hfab hhead
    obtain ⟨u, hu, h1, h2, -⟩ := c6 s t b g v hfab hhead
    exact ⟨u, hu, h1, h2⟩
  · intro s t m hfab hdue
    obtain ⟨u, hu, h1, -, h3, h4, -⟩ := c11 s t m hfab hdue
    exact ⟨u, hu, h1, h3, h4⟩
  · exact fun s t hfab hfix hout => ⟨_, c12 s t hfab hfix hout, rfl, rfl⟩
  · intro s t hfab hfix hrtk
    obtain ⟨u, hu, h, -⟩ := c13 s t hfab hfix hrtk
    exact ⟨u, hu, h⟩
  · intro s t b hfab hon hopen
    refine ⟨_, c14 s t b hfab hon hopen, ?_⟩
    rw [raiseEv_within.rget _ _ _ (by cases b <;> decide), rget_rset_self]
    cases b <;> rfl
  · intro s t b hfab hon hshort
    refine ⟨_, c17 s t b hfab hon hshort, ?_, ?_⟩
    · rw [raiseEv_within.rget _ _ _ (by cases b <;> decide), rget_rset_self]
      cases b <;> rfl
    · rw [raiseEv_nav]
      exact tblGet?_set_self _ _ _
  · intro s t b a hfab ha hdue
    refine ⟨_, c18 s t b a hfab ha hdue, ?_⟩
    rw [rget_rset_self, Nat.zero_mod]
  · exact fun s t x y hfab h1 h4 hdue => ⟨_, c20 s t x y hfab h1 h4 hdue, rfl, rfl⟩
  · intro s t d q a b n far hfab hen hpick hstart hn hstate
    obtain ⟨u, hu, h1, h2, h3, -⟩ := d1 s t d q a b n far hfab hen hpick hstart hn hstate
    exact ⟨u, hu, h1, h2, h3⟩
  · intro s t n hfab
    refine ⟨_, d7 s t n hfab, ?_, rget_rset_self _ _ _ _ _⟩
    rw [rget_rset_ne _ _ _ _ _ _ (by decide), rget_rset_self]
  · intro s t e c hfab hstate hdue
    obtain ⟨u, hu, h1, -, h3, -⟩ := d8 s t e c hfab hstate hdue
    exact ⟨u, hu, h1, h3⟩
  · intro s t c hfab hdue hstate hnone
    obtain ⟨u, hu, h1, h2, -⟩ := d10 s t c hfab hdue hstate hnone
    exact ⟨u, hu, h1, h2⟩
  · intro s t hfab hstate hleft
    obtain ⟨u, hu, h1, -, h3, -⟩ := d16 s t hfab hstate hleft
    exact ⟨u, hu, h1, h3⟩

end Sys2Proof.Machine
end

section
/-! The map engine and the tile cache (R284–R300). -/

namespace Sys2Proof.Machine

variable {s : State} {t : Fc}

/-! ### What a use of the cache leaves of the store -/

/-- Of the store's state only the cache, its touches and the class in service may differ. -/
structure CacheStep (s u : State) : Prop where
  sto : u.sto = { s.sto with cache := u.sto.cache, touches := u.sto.touches, serving := u.sto.serving }

theorem CacheStep.refl (s : State) : CacheStep s s := ⟨rfl⟩

theorem CacheStep.trans {s u v : State} (h : CacheStep s u) (k : CacheStep u v) : CacheStep s v :=
  ⟨k.sto.trans (by rw [h.sto])⟩

theorem cacheStep_of_sto {s u : State} (h : u.sto = s.sto) : CacheStep s u := ⟨by rw [h]⟩

theorem cacheStep_ite {p : Prop} [Decidable p] {s a b : State} (ha : CacheStep s a) (hb : CacheStep s b) :
    CacheStep s (if p then a else b) := by
  split
  · exact ha
  · exact hb

theorem foldl_cacheStep {α : Type} {f : State → α → State} (h : ∀ s a, CacheStep s (f s a)) (l : List α) (s : State) :
    CacheStep s (l.foldl f s) :=
  foldl_invariant (P := fun u => CacheStep s u) (.refl s) fun v a _ hv => hv.trans (h v a)

theorem modSlot_cacheStep (s : State) (k : Nat) (f : CacheSlot → CacheSlot) : CacheStep s (modSlot s k f) := by
  unfold modSlot
  split
  · exact ⟨rfl⟩
  · exact .refl s

theorem storeServe_cacheStep (s : State) : CacheStep s (storeServe s) := ⟨rfl⟩

theorem touchSlot_cacheStep (s : State) (k : Nat) : CacheStep s (touchSlot s k) :=
  (modSlot_cacheStep s k fun c => { c with touched := s.sto.touches + 1 }).trans ⟨rfl⟩

theorem flushStart_cacheStep (s : State) (k : Nat) : CacheStep s (flushStart s k) :=
  cacheStep_ite (.refl s) ((modSlot_cacheStep s k _).trans (storeServe_cacheStep _))

theorem flushOldest_cacheStep (s : State) : CacheStep s (flushOldest s) := by
  unfold flushOldest
  split
  · exact .refl s
  · split
    · exact flushStart_cacheStep s _
    · exact .refl s

theorem needTile_cacheStep (s : State) (id : Nat) (pin : List Nat) : CacheStep s (needTile s id pin).1 := by
  unfold needTile
  split
  · split
    · exact .refl s
    · exact touchSlot_cacheStep s _
  · split
    · exact flushOldest_cacheStep s
    · split
      · exact .refl s
      · dsimp only
        split
        · exact CacheStep.trans (u := modSto s _) ⟨rfl⟩ (storeServe_cacheStep _)
        · exact ⟨rfl⟩

theorem needTiles_cacheStep (s : State) (ids : List Nat) : CacheStep s (needTiles s ids).1 :=
  foldl_invariant (P := fun a : State × Bool => CacheStep s a.1) (.refl s) fun a id _ ha => ha.trans (needTile_cacheStep a.1 id ids)

theorem writeCell_cacheStep (s : State) (id i v : Nat) (ver : Ver) : CacheStep s (writeCell s id i v ver) := by
  unfold writeCell
  split
  · exact modSlot_cacheStep s _ _
  · exact .refl s

theorem mapStrip_cacheStep (x : Extract) (dt : Int) (width dist mref : Nat) (last : Option Mapped) (ver : Ver) (s : State)
    (st : Strip) : CacheStep s (mapStrip x dt width dist mref last ver s st) := by
  unfold mapStrip
  dsimp only
  split
  · exact ⟨rfl⟩
  · refine cacheStep_ite ((writeCell_cacheStep s _ _ _ _).trans (writeCell_cacheStep _ _ _ _ _)) (writeCell_cacheStep s _ _ _ _)

theorem mapStrip_regs (x : Extract) (dt : Int) (width dist mref : Nat) (last : Option Mapped) (ver : Ver) (s : State)
    (st : Strip) : RegsOnly s (mapStrip x dt width dist mref last ver s st) [R.STO_UNMAPPED_KG_VALUE.key 0 0] := by
  have hw : ∀ (v : State) (id i n : Nat), (writeCell v id i n ver).regs = v.regs := fun v id i n =>
    writeCell_within.regs.resolve_left (by simp)
  unfold mapStrip
  dsimp only
  split
  · exact rset_regsOnly s _ _ _ _ (.head _)
  · exact .of_eq _ (by rw [apply_ite State.regs, hw, hw, ite_self])

/-! ### One extract -/

theorem enterHistory_sto (s : State) (x : Extract) : (enterHistory s x).sto = { s.sto with history := (enterHistory s x).sto.history } := by
  unfold enterHistory
  extract_lets fresh
  clear_value fresh
  cases fresh <;> rfl

theorem enterHistory_prevEdge (s : State) (x : Extract) : (enterHistory s x).sto.prevEdge = s.sto.prevEdge := by
  rw [enterHistory_sto]

theorem enterHistory_travelDelay (s : State) (x : Extract) (q : F32) : travelDelay (enterHistory s x) q = travelDelay s q := by
  have hregs : (enterHistory s x).regs = s.regs := enterHistory_within.regs.resolve_left (by simp)
  have hat : ∀ k, delayAt (enterHistory s x) k = delayAt s k := fun k => by
    unfold delayAt rval
    rw [rget_congr hregs]
  have hflow : ∀ k, delayFlow (enterHistory s x) k = delayFlow s k := fun k => by
    unfold delayFlow
    rw [rget_congr hregs]
  have hseg : ∀ n q fuel k, delaySeg (enterHistory s x) n q fuel k = delaySeg s n q fuel k := by
    intro n q fuel
    induction fuel with
    | zero => exact fun k => hat k
    | succ fuel ih =>
      intro k
      unfold delaySeg
      simp only [hat, hflow, ih]
  unfold travelDelay rval
  simp only [hat, hflow, hseg, rget_congr hregs]

/-- An extract whose cut time lies after the module's first instant, the tick before it being known. -/
theorem mapExtract_cut {x : Extract} {l : List Extract} {e : Nat} (hs : s.sto.samples = x :: l) (hq : x.q00Bad = false)
    (he : s.sto.prevEdge = some e) (h1 : e ≤ x.edge) (h2 : x.edge ≤ e + 100000000) (hd : travelDelay s x.q00 ≤ x.edge) :
    mapExtract s = match bracket (enterHistory s x) (x.edge - travelDelay s x.q00) with
      | some (b, a) =>
        if b.recording && b.sections != 0 then
          extractMap (enterHistory s x) x ((x.edge : Int) - e) b a (x.edge - travelDelay s x.q00)
        else extractUnmapped (enterHistory s x) x (some ((x.edge : Int) - e))
      | none => extractUnmapped (enterHistory s x) x (some ((x.edge : Int) - e)) := by
  unfold mapExtract
  rw [hs]
  dsimp only
  rw [enterHistory_prevEdge, he]
  simp only [Option.pure_def, Option.bind_eq_bind, Option.bind_some, Option.map_some]
  rw [enterHistory_travelDelay, if_neg (by rw [hq]; simp only [Bool.false_eq_true, false_or]; omega)] <;> rfl

/-- An extract with a bad mass flow is counted, its grain not. -/
theorem mapExtract_bad {x : Extract} {l : List Extract} (hs : s.sto.samples = x :: l) (hq : x.q00Bad = true) :
    mapExtract s = extractDone (rinc (enterHistory s x) R.STO_MAP_COUNTS_UNMAPPED) x false := by
  unfold mapExtract
  rw [hs]
  dsimp only
  rw [enterHistory_prevEdge]
  cases s.sto.prevEdge with
  | none => rfl
  | some e =>
    simp only [Option.pure_def, Option.bind_eq_bind, Option.bind_some, Option.map_some]
    rw [if_pos (.inl hq)]
    unfold extractUnmapped
    dsimp only
    rw [if_pos hq]

theorem extractMap_waits {x : Extract} {dt : Int} {b a : HistPos} {tc : Nat}
    (h : (needTiles s (stripTiles (stripsOf s (pointAt b a tc) b.heading b.sections))).2 = false) :
    extractMap s x dt b a tc = (needTiles s (stripTiles (stripsOf s (pointAt b a tc) b.heading b.sections))).1 :=
  if_pos (by rw [h]; rfl)

/-- What a mapped extract leaves (R287–R291). -/
structure ExtractMapped (s : State) (x : Extract) (u : State) : Prop where
  samples : u.sto.samples = s.sto.samples.drop 1
  prevEdge : u.sto.prevEdge = some x.edge
  inRun : u.sto.inRun = true
  last : u.sto.lastMapped.isSome = true
  map : u.sto.map = s.sto.map
  regs : RegsOnly s u [R.STO_UNMAPPED_KG_VALUE.key 0 0]

theorem extractMap_maps {x : Extract} {dt : Int} {b a : HistPos} {tc : Nat}
    (h : (needTiles s (stripTiles (stripsOf s (pointAt b a tc) b.heading b.sections))).2 = true) :
    ExtractMapped s x (extractMap s x dt b a tc) := by
  unfold extractMap
  extract_lets p strips r width dist s1 ver s2 cells
  rw [if_neg (by rw [show r.2 = true from h]; decide)]
  have hr : CacheStep s r.1 := needTiles_cacheStep s _
  have hrr : r.1.regs = s.regs := needTiles_within.regs.resolve_left (by simp)
  have h1 : s1.sto = r.1.sto ∧ s1.regs = r.1.regs := by
    have hc : (clockLocal r.1).sto = r.1.sto ∧ (clockLocal r.1).regs = r.1.regs :=
      ⟨clockLocal_within.sto.resolve_left (by simp), clockLocal_within.regs.resolve_left (by simp)⟩
    by_cases hany : (strips.any (·.cell.isSome)) = true
    · rw [show s1 = clockLocal r.1 from if_pos hany]
      exact hc
    · rw [show s1 = r.1 from if_neg hany]
      exact ⟨rfl, rfl⟩
  have h2 : CacheStep s1 s2 := foldl_cacheStep (fun v st => mapStrip_cacheStep x dt width dist _ _ ver v st) strips s1
  have h2r : RegsOnly s1 s2 [R.STO_UNMAPPED_KG_VALUE.key 0 0] :=
    foldl_invariant (P := fun v => RegsOnly s1 v [R.STO_UNMAPPED_KG_VALUE.key 0 0]) (.of_eq _ rfl)
      fun v st _ hv => hv.trans (mapStrip_regs x dt width dist _ _ ver v st)
  have hall := (hr.trans (cacheStep_of_sto h1.1)).trans h2
  clear_value s2
  refine ⟨?_, rfl, rfl, rfl, ?_, (RegsOnly.of_eq _ (h1.2.trans hrr)).trans h2r⟩
  · show s2.sto.samples.drop 1 = _
    rw [hall.sto]
  · show s2.sto.map = _
    rw [hall.sto]

end Sys2Proof.Machine
end

section
/-! Tile descriptors, loads and flushes (R297–R300), and O35. -/

namespace Sys2Proof.Machine

variable {s : State} {t : Fc}

/-! ### Bringing a tile in -/

theorem needTile_cached {id k : Nat} {c : CacheSlot} (pin : List Nat) (hf : cacheFind s id = some (k, c)) (hl : c.loading = false) :
    needTile s id pin = (touchSlot s k, some k) := by
  unfold needTile
  rw [hf]
  dsimp only
  rw [hl]
  rfl

theorem needTile_stored {id k : Nat} {pin : List Nat} {x : Stored} (hf : cacheFind s id = none) (hk : slotFor s pin = some k)
    (hx : tblGet? s.sto.map id = some x) (hkey : keyWithheld s 4 = false) :
    needTile s id pin = (storeServe (modSto s fun m => { m with
      cache := tblSet m.cache k ⟨x.tile, true, none, none, m.touches + 1, x.pubAt, x.pubLast⟩, touches := m.touches + 1 }), none) := by
  unfold needTile
  rw [hf, hk, hx, hkey]
  rfl

theorem needTile_new {id k : Nat} {pin : List Nat} (hf : cacheFind s id = none) (hk : slotFor s pin = some k)
    (hx : tblGet? s.sto.map id = none) :
    needTile s id pin = (modSto s fun m => { m with
      cache := tblSet m.cache k ⟨tileNew s id, false, none, none, m.touches + 1, [], 0⟩, touches := m.touches + 1 }, some k) := by
  unfold needTile
  rw [hf, hk, hx]
  rfl

theorem serveDesc_ready {r : Ref} {id k : Nat} {w : Option Tile} {v : State} (h : needTile s id [id] = (v, some k)) :
    serveDesc s r id w = match w with
      | none => complete v r stDone k
      | some img => complete (writeTile v id img) r stDone := by
  unfold serveDesc
  rw [h] <;> rfl

theorem serveDesc_waits {r : Ref} {id : Nat} {w : Option Tile} {v : State} (h : needTile s id [id] = (v, none)) :
    serveDesc s r id w = modSto v fun m => { m with waits := m.waits ++ [.desc r id w] } := by
  unfold serveDesc
  rw [h]

theorem tileLoad_serves {r : Ref} {d : Desc} (h : tileError s (d.quad 0x10) = none) :
    tileLoad s r d = serveDesc s r (d.quad 0x10) none := by
  unfold tileLoad
  rw [h]

theorem tileError_none_key {id : Nat} (h : tileError s id = none) : keyWithheld s 4 = false := by
  unfold tileError at h
  split at h
  · cases h
  · split at h
    · cases h
    · split at h
      · cases h
      · rename_i hk
        exact Bool.eq_false_iff.mpr hk

theorem tileWrite_serves {r : Ref} {d : Desc} {img : List Nat} (h : tileError s (d.quad 0x10) = none)
    (hk : tileKind (d.quad 0x10) = 3 ∨ rbit s R.STO_MAP_CTRL_MAP_EN = false) (hok : tileImageOk s (d.quad 0x10) img = true) :
    tileWrite s r d img = serveDesc s r (d.quad 0x10) (some (imageTile (d.quad 0x10) img)) := by
  unfold tileWrite
  dsimp only
  rw [h]
  dsimp only
  rw [if_neg (by rintro ⟨h1, h2⟩; exact hk.elim h1 fun h => by rw [h] at h2; cases h2), hok]
  rfl

/-! ### A slot of the cache -/

/-- Setting an entry that a search has found leaves it to be found. -/
theorem find?_tblSet {α : Type} {q : Nat × α → Bool} {k : Nat} {c c' : α} : ∀ {l : Tbl α}, tblSorted l = true →
    l.find? q = some (k, c) → q (k, c') = true → (tblSet l k c').find? q = some (k, c')
  | [], _, h, _ => by cases h
  | (m, w) :: l, hs, h, hq => by
    simp only [tblSorted, Bool.and_eq_true] at hs
    rw [List.find?_cons] at h
    split at h
    · cases h
      unfold tblSet
      rw [if_neg (lt_irrefl k), if_pos rfl, List.find?_cons, hq]
    · rename_i hm
      have hlt : m < k := by
        have := List.all_eq_true.mp hs.1 (k, c) (List.mem_of_find?_eq_some h)
        simpa using this
      unfold tblSet
      rw [if_neg (by omega), if_neg (by omega), List.find?_cons, hm]
      exact find?_tblSet hs.2 h hq

/-- A slot that a search for a tile finds, in tables in order. -/
structure SlotHolds (s : State) (id k : Nat) (c : CacheSlot) : Prop where
  find : cacheFind s id = some (k, c)
  get : tblGet? s.sto.cache k = some c
  cache : tblSorted s.sto.cache = true
  cells : tblSorted c.tile.cells = true

theorem SlotHolds.tile {id k : Nat} {c : CacheSlot} (h : SlotHolds s id k c) : c.tile.id = id := by
  simpa using List.find?_some h.find

theorem modSlot_some {k : Nat} {c : CacheSlot} (f : CacheSlot → CacheSlot) (h : tblGet? s.sto.cache k = some c) :
    modSlot s k f = { s with sto := { s.sto with cache := tblSet s.sto.cache k (f c) } } := by
  unfold modSlot
  rw [h]
  rfl

theorem SlotHolds.modSlot {id k : Nat} {c : CacheSlot} (h : SlotHolds s id k c) {f : CacheSlot → CacheSlot}
    (hid : (f c).tile.id = c.tile.id) (hcells : tblSorted (f c).tile.cells = true) : SlotHolds (modSlot s k f) id k (f c) := by
  rw [modSlot_some f h.get]
  refine ⟨find?_tblSet h.cache h.find ?_, tblGet?_set_self _ _ _, tblSorted_set _ _ _ h.cache, hcells⟩
  rw [hid, h.tile]
  exact beq_self_eq_true id

theorem SlotHolds.congr {u : State} {id k : Nat} {c : CacheSlot} (h : SlotHolds s id k c) (hc : u.sto.cache = s.sto.cache) :
    SlotHolds u id k c := by
  obtain ⟨h1, h2, h3, h4⟩ := h
  refine ⟨?_, by rw [hc]; exact h2, by rw [hc]; exact h3, h4⟩
  unfold cacheFind
  rw [hc]
  exact h1

theorem SlotHolds.touch {id k : Nat} {c : CacheSlot} (h : SlotHolds s id k c) :
    SlotHolds (touchSlot s k) id k { c with touched := s.sto.touches + 1 } :=
  (h.modSlot (f := fun c => { c with touched := s.sto.touches + 1 }) rfl h.cells).congr rfl

theorem tileSetCell_cells {T : Tile} (i v : Nat) (ver : Ver) (h : tblSorted T.cells = true) :
    tblSorted (tileSetCell T i v ver).cells = true := by
  unfold tileSetCell
  dsimp only
  split
  · exact tblSorted_erase _ _ h
  · exact tblSorted_set _ _ _ h

theorem tileCell_set {T : Tile} (i v : Nat) (ver : Ver) (h : tblSorted T.cells = true) (j : Nat) :
    tileCell (tileSetCell T i v ver) j = if j = i then v else tileCell T j := by
  unfold tileCell tileSetCell
  dsimp only
  by_cases hv : v = 0
  · rw [if_pos hv]
    by_cases hj : j = i
    · rw [hj, if_pos rfl, tblGetD_erase_self _ _ _ h, hv]
    · rw [if_neg hj, tblGetD_erase_ne _ _ hj]
  · rw [if_neg hv, tblGetD_set]

/-- Cells of the slot take those of an image, one after another. -/
theorem SlotHolds.writeCells {id k : Nat} {img : Tile} {ver : Ver} : ∀ (l : List Nat) {s : State} {c : CacheSlot}, SlotHolds s id k c →
    ∃ n, SlotHolds (l.foldl (fun s i => writeCell s id i (tileCell img i) ver) s) id k n ∧ n.loading = c.loading ∧
      n.tile.id = c.tile.id ∧ ∀ j, tileCell n.tile j = if j ∈ l then tileCell img j else tileCell c.tile j
  | [], _, c, h => ⟨c, h, rfl, rfl, fun j => (if_neg (by simp)).symm⟩
  | i :: l, s, c, h => by
    have hone := h.modSlot (f := fun c => { c with
      tile := tileSetCell c.tile i (tileCell img i) ver, dirty := some (c.dirty.getD s.now),
      pubAt := if ver.pub then tblSet c.pubAt i (tblGetD c.pubAt i s.now) else tblErase c.pubAt i,
      pubLast := if ver.pub then s.now else c.pubLast }) rfl (tileSetCell_cells _ _ _ h.cells)
    have hwrite : writeCell s id i (tileCell img i) ver = Machine.modSlot s k fun c => { c with
        tile := tileSetCell c.tile i (tileCell img i) ver, dirty := some (c.dirty.getD s.now),
        pubAt := if ver.pub then tblSet c.pubAt i (tblGetD c.pubAt i s.now) else tblErase c.pubAt i,
        pubLast := if ver.pub then s.now else c.pubLast } := by
      unfold writeCell
      rw [h.find]
    rw [← hwrite] at hone
    obtain ⟨n, hn, hload, hid, hcell⟩ := SlotHolds.writeCells l hone
    refine ⟨n, hn, hload, hid, fun j => ?_⟩
    rw [hcell, tileCell_set _ _ _ h.cells]
    by_cases hj : j ∈ l
    · rw [if_pos hj, if_pos (List.mem_cons_of_mem _ hj)]
    · by_cases hji : j = i
      · rw [if_neg hj, if_pos hji, if_pos (hji ▸ List.mem_cons_self), hji]
      · rw [if_neg hj, if_neg hji, if_neg (by simp [hj, hji])]

theorem tblGetD_notMem {α : Type} {l : Tbl α} {i : Nat} (d : α) (h : i ∉ l.map (·.1)) : tblGetD l i d = d := by
  suffices hn : tblGet? l i = none by rw [tblGetD, hn]; rfl
  induction l with
  | nil => rfl
  | cons p l ih =>
    simp only [List.map_cons, List.mem_cons, not_or] at h
    unfold tblGet?
    rw [if_neg h.1]
    exact ih h.2

theorem writeTile_cacheStep (s : State) (id : Nat) (img : Tile) : CacheStep s (writeTile s id img) := by
  unfold writeTile
  split
  · exact .refl s
  · dsimp only
    have hclock : CacheStep s (clockLocal s) := cacheStep_of_sto (clockLocal_within.sto.resolve_left (by simp))
    have hcells : ∀ l : List Nat, CacheStep s (l.foldl (fun v i => writeCell v id i (tileCell img i) ⟨ownStamp (clockLocal s), true⟩)
        (clockLocal s)) := fun l => hclock.trans (foldl_cacheStep (fun v i => writeCell_cacheStep v _ _ _ _) l _)
    split
    · exact (hcells _).trans (modSlot_cacheStep _ _ _)
    · exact hcells _

/-- A tile is replaced by its image (R299). -/
theorem writeTile_replaces {id k : Nat} {c : CacheSlot} (img : Tile) (h : SlotHolds s id k c) :
    ∃ n, tblGet? (writeTile s id img).sto.cache k = some n ∧ n.loading = c.loading ∧ n.dirty.isSome = true ∧
      n.tile.id = c.tile.id ∧ n.tile.origin = img.origin ∧ ∀ i, tileCell n.tile i = tileCell img i := by
  unfold writeTile
  rw [h.find]
  dsimp only
  have h1 : SlotHolds (clockLocal s) id k c := h.congr (congrArg Sto.cache (clockLocal_within.sto.resolve_left (by simp)))
  obtain ⟨n, hn, hload, hid, hcell⟩ := h1.writeCells (img := img) (ver := ⟨ownStamp (clockLocal s), true⟩)
    ((((c.tile.cells.map (·.1)) ++ img.cells.map (·.1)).eraseDups).filter fun i => tileCell c.tile i != tileCell img i)
  rw [hn.find]
  dsimp only
  rw [modSlot_some _ hn.get]
  refine ⟨_, tblGet?_set_self _ _ _, hload, rfl, hid, rfl, fun i => ?_⟩
  show tileCell n.tile i = _
  rw [hcell]
  split
  · rfl
  · rename_i hnot
    by_contra hne
    refine hnot (List.mem_filter.mpr ⟨List.mem_eraseDups.mpr (List.mem_append.mpr ?_), by simpa using hne⟩)
    by_contra hmem
    rw [not_or] at hmem
    exact hne (by unfold tileCell; rw [tblGetD_notMem 0 hmem.1, tblGetD_notMem 0 hmem.2])

/-! ### Flushes -/

/-- The slots that a flush of every dirty tile takes, written as the model keeps them. -/
theorem flushNow_clean {r : Ref} (h : ∀ p ∈ s.sto.cache, slotDirty p.2 = false) : flushNow s (some r) = complete s r stDone := by
  have hf : (s.sto.cache.filter fun p => slotDirty p.2) = [] :=
    List.filter_eq_nil_iff.mpr fun p hp => ne_true_of_eq_false (h p hp)
  unfold flushNow
  dsimp only
  rw [hf]
  rfl

theorem flushStart_dirty {k : Nat} {c : CacheSlot} (hkey : keyWithheld s 4 = false) (hc : tblGet? s.sto.cache k = some c)
    (hd : c.dirty.isSome = true) (hf : c.flushing = none) (hl : c.loading = false) :
    flushStart s k = storeServe { s with sto := { s.sto with
      cache := tblSet s.sto.cache k { c with dirty := none, flushing := some c.tile } } } := by
  have hif : (if (c.flushing.isNone && c.dirty.isSome && !c.loading) = true then { c with flushing := some c.tile, dirty := none }
      else c) = { c with dirty := none, flushing := some c.tile } := if_pos (by rw [hd, hf, hl]; rfl)
  unfold flushStart
  rw [hkey, if_neg Bool.false_ne_true, modSlot_some _ hc, hif]

theorem flushNow_one {r : Ref} {k : Nat} {c : CacheSlot} (hkey : keyWithheld s 4 = false) (hc : s.sto.cache = [(k, c)])
    (hd : c.dirty.isSome = true) (hf : c.flushing = none) (hl : c.loading = false) :
    flushNow s (some r) = modSto (storeServe { s with sto := { s.sto with
      cache := [(k, { c with dirty := none, flushing := some c.tile })] } }) fun m => { m with flushes := m.flushes ++ [(some r, [k])] } := by
  have hslot : slotDirty c = true := by unfold slotDirty; rw [hd]; rfl
  have hfilter : (s.sto.cache.filter fun p => slotDirty p.2) = [(k, c)] := by
    rw [hc]
    exact List.filter_cons_of_pos (p := fun p : Nat × CacheSlot => slotDirty p.2) hslot
  have hdirty : (s.sto.cache.filter fun p => p.2.dirty.isSome) = [(k, c)] := by
    rw [hc]
    exact List.filter_cons_of_pos (p := fun p : Nat × CacheSlot => p.2.dirty.isSome) hd
  have hget : tblGet? s.sto.cache k = some c := by
    rw [hc]
    exact if_pos rfl
  have hset : tblSet s.sto.cache k { c with dirty := none, flushing := some c.tile } =
      [(k, { c with dirty := none, flushing := some c.tile })] := by
    rw [hc]
    exact (if_neg (lt_irrefl k)).trans (if_pos rfl)
  have hall : flushAll s = flushStart s k := by
    unfold flushAll
    rw [hdirty]
    rfl
  unfold flushNow
  dsimp only
  rw [hfilter, List.map_cons, List.map_nil, hf, hall, flushStart_dirty hkey hget hd hf hl, hset]
  rfl

theorem tileFlush_flushes {r : Ref} (hb : cacheBase s ≠ 0) (hkey : keyWithheld s 4 = false) :
    tileFlush s r = flushNow s (some r) :=
  (if_neg hb).trans (if_neg (ne_true_of_eq_false hkey))

theorem flushDue_dirty {k : Nat} {c : CacheSlot} {a : Nat} (hc : tblGet? s.sto.cache k = some c) (hd : c.dirty = some a)
    (hdue : a + rval s R.STO_FLUSH_FLUSH_S * 400000000 ≤ s.now) : flushDue s k = flushStart s k := by
  unfold flushDue
  rw [hc]
  dsimp only
  rw [hd]
  exact if_pos hdue

theorem loadDone_turn {k : Nat} {ok : Bool} {n m : Nat} {c : CacheSlot} (hc : tblGet? s.sto.cache k = some c)
    (hl : c.loading = true) (hturn : storeTurn s = some 3) :
    loadDone s k ok n m = storeNext (if ok then serveWaits (modSlot s k fun c => { c with loading := false })
      else (s.sto.waits.filter fun w => w.tile == c.tile.id).foldl
        (fun s w => completeOpt s w.ref stMediaError (senseDetail n m))
        (mediaError (modSto s fun x => { x with
          cache := tblErase x.cache k, waits := x.waits.filter fun w => w.tile != c.tile.id }) false)) := by
  unfold loadDone
  rw [hc]
  dsimp only
  rw [if_neg (by rw [hl, hturn]; simp)]

theorem flushDone_turn {k : Nat} {ok : Bool} {n m : Nat} {c : CacheSlot} {im : Tile} (hc : tblGet? s.sto.cache k = some c)
    (hf : c.flushing = some im) (hturn : storeTurn s = some 0 ∨ storeTurn s = some 3) :
    flushDone s k ok n m = storeNext (if ok then
        serveWaits (flushSettled (modSlot (storeTile s im c.pubAt c.pubLast) k fun c => { c with flushing := none }) k)
      else raiseEv ((s.sto.flushes.filter fun p => p.2.contains k || p.2.contains (k + 4096)).foldl
        (fun s p => completeOpt s p.1 stMediaError (senseDetail n m))
        (modSto (mediaError (modSlot s k fun c => { c with flushing := none, dirty := some s.now }) true) fun x =>
          { x with flushes := x.flushes.filter fun p => !(p.2.contains k || p.2.contains (k + 4096)) })) evMapFlushFail) := by
  unfold flushDone
  rw [hc]
  dsimp only
  rw [hf]
  dsimp only
  rw [if_neg (by rintro ⟨h0, h3⟩; exact hturn.elim h0 h3)]

theorem foldl_completeOpt_within {α : Type} {f : α → Option Ref} {st d : Nat} (l : List α) :
    Within [.reqs, .till] [] s (l.foldl (fun s a => completeOpt s (f a) st d) s) :=
  foldl_within (fun _ _ hu => completeOpt_within.step hu rfl rfl) (.refl _)

theorem mediaError_rget (s : State) (write : Bool) :
    rget (mediaError s write) (if write then R.STO_MEDIA_ERRS_WRITE else R.STO_MEDIA_ERRS_READ) =
      satTo (if write then R.STO_MEDIA_ERRS_WRITE else R.STO_MEDIA_ERRS_READ).width
        (rget s (if write then R.STO_MEDIA_ERRS_WRITE else R.STO_MEDIA_ERRS_READ) + 1) := by
  unfold mediaError
  rw [raiseEv_within.rget _ _ _ (by cases write <;> decide), rget_rinc_self]

theorem storeNext_sto (s : State) : (storeNext s).sto = { s.sto with serving := (storeNext s).sto.serving } := rfl

/-- A load that fails frees its slot, and what waited for the tile is answered (R297). -/
theorem loadDone_fails {k n m : Nat} {c : CacheSlot} (hc : tblGet? s.sto.cache k = some c) (hl : c.loading = true)
    (hturn : storeTurn s = some 3) :
    (loadDone s k false n m).sto.cache = tblErase s.sto.cache k ∧
      (∀ w ∈ (loadDone s k false n m).sto.waits, w.tile ≠ c.tile.id) ∧
      rget (loadDone s k false n m) R.STO_MEDIA_ERRS_READ =
        satTo R.STO_MEDIA_ERRS_READ.width (rget s R.STO_MEDIA_ERRS_READ + 1) := by
  rw [loadDone_turn hc hl hturn, if_neg Bool.false_ne_true]
  obtain ⟨z, hz⟩ : ∃ z, z = modSto s fun x => { x with
    cache := tblErase x.cache k, waits := x.waits.filter fun w => w.tile != c.tile.id } := ⟨_, rfl⟩
  have hf := foldl_completeOpt_within (s := mediaError z false) (f := MapWait.ref) (st := stMediaError) (d := senseDetail n m)
    (s.sto.waits.filter fun w => w.tile == c.tile.id)
  have herr : (mediaError z false).sto = z.sto := mediaError_within.sto.resolve_left (by simp)
  have hmed := mediaError_rget z false
  rw [← hz]
  have hsto := (hf.sto.resolve_left (by simp)).trans herr
  refine ⟨?_, ?_, ?_⟩
  · rw [storeNext_sto, hsto, hz]
    rfl
  · rw [storeNext_sto, hsto, hz]
    intro w hw
    simpa using (List.mem_filter.mp hw).2
  · refine (storeNext_within.rget _ _ _ (by simp)).trans ((hf.rget _ _ _ (by simp)).trans (hmed.trans ?_))
    rw [hz]
    rfl

/-- A flush that fails leaves the tile dirty (R298). -/
theorem flushDone_fails {k n m : Nat} {c : CacheSlot} {im : Tile} (hc : tblGet? s.sto.cache k = some c) (hfl : c.flushing = some im)
    (hturn : storeTurn s = some 0 ∨ storeTurn s = some 3) :
    tblGet? (flushDone s k false n m).sto.cache k = some { c with flushing := none, dirty := some s.now } ∧
      (flushDone s k false n m).sto.map = s.sto.map ∧ (∀ p ∈ (flushDone s k false n m).sto.flushes, p.2.contains k = false) ∧
      rget (flushDone s k false n m) R.STO_MEDIA_ERRS_WRITE =
        satTo R.STO_MEDIA_ERRS_WRITE.width (rget s R.STO_MEDIA_ERRS_WRITE + 1) := by
  rw [flushDone_turn hc hfl hturn, if_neg Bool.false_ne_true, modSlot_some _ hc]
  obtain ⟨z, hz⟩ : ∃ z : State, z = { s with sto := { s.sto with
    cache := tblSet s.sto.cache k { c with flushing := none, dirty := some s.now } } } := ⟨_, rfl⟩
  rw [← hz]
  obtain ⟨y, hy⟩ : ∃ y, y = modSto (mediaError z true) fun x =>
    { x with flushes := x.flushes.filter fun p => !(p.2.contains k || p.2.contains (k + 4096)) } := ⟨_, rfl⟩
  rw [← hy]
  have hf := foldl_completeOpt_within (s := y) (f := fun p : Option Ref × List Nat => p.1) (st := stMediaError)
    (d := senseDetail n m) (s.sto.flushes.filter fun p => p.2.contains k || p.2.contains (k + 4096))
  have herr : (mediaError z true).sto = z.sto := mediaError_within.sto.resolve_left (by simp)
  have hmed := mediaError_rget z true
  have hysto : y.sto = { z.sto with flushes := z.sto.flushes.filter fun p => !(p.2.contains k || p.2.contains (k + 4096)) } := by
    rw [hy, ← herr]
    rfl
  generalize (s.sto.flushes.filter fun p => p.2.contains k || p.2.contains (k + 4096)).foldl
    (fun s p => completeOpt s p.1 stMediaError (senseDetail n m)) y = x at hf ⊢
  have hsto : (storeNext (raiseEv x evMapFlushFail)).sto = { y.sto with
      serving := (storeNext (raiseEv x evMapFlushFail)).sto.serving } := by
    rw [← (raiseEv_within.sto.resolve_left (by simp) : (raiseEv x evMapFlushFail).sto = x.sto).trans (hf.sto.resolve_left (by simp))]
    rfl
  refine ⟨?_, ?_, ?_, ?_⟩
  · rw [hsto, hysto, hz]
    exact tblGet?_set_self _ _ _
  · rw [hsto, hysto, hz]
  · rw [hsto, hysto]
    intro p hp
    have := (List.mem_filter.mp hp).2
    simp only [Bool.not_eq_true', Bool.or_eq_false_iff] at this
    exact this.1
  · refine (storeNext_within.rget _ _ _ (by simp)).trans ((raiseEv_within.rget _ _ _ (by decide)).trans
      ((hf.rget _ _ _ (by simp)).trans ?_))
    rw [hy]
    refine (show rget (modSto _ _) _ = _ from hmed).trans ?_
    rw [hz]
    rfl

theorem tileRefresh_old {id : Nat} {x : Stored} (hx : tblGet? s.sto.map id = some x)
    (hat : s.sto.refreshAt.all (fun a => a + 4000000000 ≤ s.now) = true) (hturn : storeTurn s = none)
    (hkey : keyWithheld s 4 = false) (hold : x.at_ + 365 * 86400 * 1000000000 < moduleTime s) :
    tileRefresh s id = modSto (storeTile s x.tile x.pubAt x.pubLast) fun m => { m with refreshAt := some s.now } := by
  unfold tileRefresh
  rw [hx]
  dsimp only
  refine if_pos ?_
  rw [hturn, hkey, decide_eq_true hold]
  cases h : s.sto.refreshAt with
  | none => rfl
  | some a =>
    rw [h] at hat
    rw [Option.all_some, decide_eq_true_iff] at hat
    show (decide (a + 10 * fcSec ≤ s.now) && true && true && true) = true
    rw [decide_eq_true (p := a + 10 * fcSec ≤ s.now) hat]
    rfl

/-! ### O35 -/

/-- Settles O35. -/
theorem mappingAndTiles : Obligations.MappingAndTiles := by
  unfold Obligations.MappingAndTiles
  refine ⟨?bad, ?mapped, ?noPoint, ?off, ?waits, ?cached, ?stored, ?new, ?loads, ?noCache, ?write, ?writes, ?image, ?clean, ?one,
    ?flushes, ?due, ?loaded, ?loadFails, ?flushed, ?flushFails, ?refresh⟩
  case bad =>
    intro s t x l hfab hs hq
    have h := mapExtract_bad (s := advance s t) hs hq
    have hsto := enterHistory_sto (advance s t) x
    have hregs : (enterHistory (advance s t) x).regs = s.regs := enterHistory_within.regs.resolve_left (by simp)
    have hw : Within [.regs, .sto] (blks [.sto]) (advance s t) (mapExtract (advance s t)) := by
      rw [h]
      exact extractDone_within.step (rinc_within.step (enterHistory_within.mono rfl rfl) rfl rfl) rfl rfl
    have hnew : (mapExtract (advance s t)).sto = { (enterHistory (advance s t) x).sto with
        samples := (enterHistory (advance s t) x).sto.samples.drop 1, prevEdge := some x.edge, inRun := false } := by
      rw [h]
      rfl
    refine ⟨_, atFabric_up s t mapExtract hfab, ?_, by rw [hnew], ?_, ?_, ?_, ?_, hw.eq_frame⟩
    · rw [hnew, hsto]
      exact (congrArg (List.drop 1) hs).trans rfl
    · rw [hnew, hsto]; rfl
    · rw [hnew, hsto]; rfl
    · rw [h]
      exact (rget_rinc_self _ _ _ _ _).trans (by rw [rget_congr hregs])
    · rw [h]
      exact (RegsOnly.of_eq _ hregs).trans (rset_regsOnly (enterHistory (advance s t) x) _ _ _ _ (.head _))
  case mapped =>
    intro s t x l b a e hfab hs hq he h1 h2 hd hbr hrec hsec hneed
    have h := mapExtract_cut (s := advance s t) hs hq he h1 h2 hd
    rw [show bracket (enterHistory (advance s t) x) (x.edge - travelDelay (advance s t) x.q00) = some (b, a) from hbr] at h
    dsimp only at h
    rw [if_pos (by rw [hrec]; simpa using hsec)] at h
    have hm := extractMap_maps (x := x) (dt := (x.edge : Int) - e) hneed
    have hw : Within [.regs, .sto, .fle] (blks [.sto]) (advance s t) (extractMap (enterHistory (advance s t) x) x ((x.edge : Int) - e)
        b a (x.edge - travelDelay s x.q00)) := extractMap_within.step (enterHistory_within.mono rfl rfl) rfl rfl
    have hregs : (enterHistory (advance s t) x).regs = s.regs := enterHistory_within.regs.resolve_left (by simp)
    have hsto := enterHistory_sto (advance s t) x
    refine ⟨_, (atFabric_up s t mapExtract hfab).trans (congrArg _ h), ?_, hm.prevEdge, hm.inRun, hm.last, ?_,
      (RegsOnly.of_eq _ hregs).trans hm.regs, hw.eq_frame⟩
    · refine hm.samples.trans ?_
      rw [hsto]
      exact (congrArg (List.drop 1) hs).trans rfl
    · refine hm.map.trans ?_
      rw [hsto]
      rfl
  case noPoint =>
    intro s t x l e hfab hs hq he h1 h2 hd hbr
    have h := mapExtract_cut (s := advance s t) hs hq he h1 h2 hd
    rw [show bracket (enterHistory (advance s t) x) (x.edge - travelDelay (advance s t) x.q00) = none from hbr] at h
    exact (atFabric_up s t mapExtract hfab).trans (congrArg _ h)
  case off =>
    intro s t x l e b a hfab hs hq he h1 h2 hd hbr hoff
    have h := mapExtract_cut (s := advance s t) hs hq he h1 h2 hd
    rw [show bracket (enterHistory (advance s t) x) (x.edge - travelDelay (advance s t) x.q00) = some (b, a) from hbr] at h
    dsimp only at h
    rw [if_neg (by obtain h | h := hoff <;> rw [h] <;> simp)] at h
    exact (atFabric_up s t mapExtract hfab).trans (congrArg _ h)
  case waits =>
    intro s t x l e b a hfab hs hq he h1 h2 hd hbr hrec hsec hneed
    have h := mapExtract_cut (s := advance s t) hs hq he h1 h2 hd
    rw [show bracket (enterHistory (advance s t) x) (x.edge - travelDelay (advance s t) x.q00) = some (b, a) from hbr] at h
    dsimp only at h
    rw [if_pos (by rw [hrec]; simpa using hsec)] at h
    exact (atFabric_up s t mapExtract hfab).trans (congrArg _ (h.trans (extractMap_waits hneed)))
  case cached =>
    intro s t r d k c hfab hd hdue hok hf hl
    exact (atFabric_desc hfab (fun d s => tileLoad s r d) hd hdue).trans (congrArg _
      ((tileLoad_serves (s := takeReq (advance s t) r) hok).trans
        (serveDesc_ready (needTile_cached (s := takeReq (advance s t) r) _ hf hl))))
  case stored =>
    intro s t r d k x hfab hd hdue hok hf hk hx
    have h := (tileLoad_serves (s := takeReq (advance s t) r) (r := r) (d := d) hok).trans (serveDesc_waits
      (needTile_stored (s := takeReq (advance s t) r) hf hk hx (tileError_none_key hok)))
    exact ⟨_, (atFabric_desc hfab (fun d s => tileLoad s r d) hd hdue).trans (congrArg _ h), rfl,
      ⟨_, tblGet?_set_self _ _ _, rfl, rfl⟩, rfl, rfl⟩
  case new =>
    intro s t r d k hfab hd hdue hok hf hk hx
    have h := (tileLoad_serves (s := takeReq (advance s t) r) (r := r) (d := d) hok).trans (serveDesc_ready
      (needTile_new (s := takeReq (advance s t) r) hf hk hx))
    refine ⟨_, (atFabric_desc hfab (fun d s => tileLoad s r d) hd hdue).trans (congrArg _ h), ?_, ?_, ?_⟩
    · dsimp only
      rw [complete_sto]
      exact ⟨_, tblGet?_set_self _ _ _, rfl, rfl, rfl, fun i => rfl⟩
    · refine complete_reqs_congr ?_ _ _ _ _; rfl
    · exact (complete_within.step (modSto_within.step (takeReq_within.mono rfl rfl) rfl rfl) rfl rfl :
        Within [.sto, .reqs, .till] [] (advance s t) _).eq_frame
  case loads =>
    exact fun s t r d hfab hd hdue hok => (atFabric_desc hfab (fun d s => tileLoad s r d) hd hdue).trans
      (congrArg _ (tileLoad_serves hok))
  case noCache =>
    intro s t r d hfab hd hdue hid hb
    have herr : tileError (takeReq (advance s t) r) (d.quad 0x10) = some (stRejectState, 0x02A2) :=
      (if_neg (by rw [hid]; decide)).trans (if_pos hb)
    refine (atFabric_desc hfab (fun d s => tileLoad s r d) hd hdue).trans (congrArg _ ?_)
    unfold tileLoad
    rw [herr]
  case write =>
    intro s t r d img k c hfab hd hdue hok hkind himg hf hl hget hsort hcells
    have hn := needTile_cached (s := takeReq (advance s t) r) [d.quad 0x10] hf hl
    have h := (tileWrite_serves (s := takeReq (advance s t) r) (r := r) hok (.inl hkind) himg).trans (serveDesc_ready hn)
    have hslot : SlotHolds (takeReq (advance s t) r) (d.quad 0x10) k c := ⟨hf, hget, hsort, hcells⟩
    obtain ⟨n, h1, h2, h3, h4, h5, h6⟩ := writeTile_replaces (imageTile (d.quad 0x10) img) hslot.touch
    have hw : Within [.sto, .fle, .reqs, .till] [] (advance s t) (complete (writeTile (touchSlot (takeReq (advance s t) r) k)
        (d.quad 0x10) (imageTile (d.quad 0x10) img)) r stDone) := complete_within.step (writeTile_within.step
          (touchSlot_within.step (takeReq_within.mono rfl rfl) rfl rfl) rfl rfl) rfl rfl
    have hin : Within [.sto, .fle] [] (takeReq (advance s t) r) (writeTile (touchSlot (takeReq (advance s t) r) k)
        (d.quad 0x10) (imageTile (d.quad 0x10) img)) := writeTile_within.step (touchSlot_within.mono rfl rfl) rfl rfl
    refine ⟨_, (atFabric_desc hfab (fun d s => tileWrite s r d img) hd hdue).trans (congrArg _ h), ?_, ?_, ?_, hw.eq_frame⟩
    · dsimp only
      rw [complete_sto]
      exact ⟨n, h1, h2.trans hl, h3, h4, h5, h6⟩
    · dsimp only
      rw [complete_sto, ((touchSlot_cacheStep _ _).trans (writeTile_cacheStep _ _ _)).sto]
      rfl
    · exact complete_reqs_congr (hin.reqs.resolve_left (by simp)) _ _ _ _
  case writes =>
    exact fun s t r d img hfab hd hdue hok hkind himg => (atFabric_desc hfab (fun d s => tileWrite s r d img) hd hdue).trans
      (congrArg _ (tileWrite_serves hok hkind himg))
  case image =>
    intro s t r d img hfab hd hdue hok hkind himg
    refine (atFabric_desc hfab (fun d s => tileWrite s r d img) hd hdue).trans (congrArg _ ?_)
    unfold tileWrite
    dsimp only
    rw [show tileError (takeReq (advance s t) r) (d.quad 0x10) = none from hok]
    dsimp only
    rw [if_neg (fun h => h.1 hkind), show tileImageOk (takeReq (advance s t) r) (d.quad 0x10) img = false from himg]
    rfl
  case clean =>
    intro s t r d hfab hd hdue hb hkey hclean
    exact (atFabric_desc hfab (fun _ s => tileFlush s r) hd hdue).trans (congrArg _ ((tileFlush_flushes (s := takeReq (advance s t) r) hb hkey).trans
      (flushNow_clean (s := takeReq (advance s t) r) hclean)))
  case one =>
    intro s t r d k c hfab hd hdue hb hkey hc hdirty hf hl
    exact ⟨_, (atFabric_desc hfab (fun _ s => tileFlush s r) hd hdue).trans (congrArg _ ((tileFlush_flushes (s := takeReq (advance s t) r) hb hkey).trans
      (flushNow_one (s := takeReq (advance s t) r) hkey hc hdirty hf hl))), rfl, rfl, rfl, rfl⟩
  case flushes =>
    exact fun s t r d hfab hd hdue hb hkey => (atFabric_desc hfab (fun _ s => tileFlush s r) hd hdue).trans
      (congrArg _ (tileFlush_flushes (s := takeReq (advance s t) r) hb hkey))
  case due =>
    intro s t k c a hfab hkey hc hd hf hl hdue
    exact (atFabric_up s t (fun s => flushDue s k) hfab).trans (congrArg _ ((flushDue_dirty (s := advance s t) hc hd hdue).trans
      (flushStart_dirty hkey hc (by rw [hd]; rfl) hf hl)))
  case loaded =>
    intro s t k n m c hfab hc hl hturn
    have h := loadDone_turn (s := advance s t) (ok := true) (n := n) (m := m) hc hl hturn
    rw [if_pos rfl, modSlot_some (s := advance s t) _ hc] at h
    exact (atFabric_up s t (fun s => loadDone s k true n m) hfab).trans (congrArg _ h)
  case loadFails =>
    intro s t k n m c hfab hc hl hturn
    obtain ⟨h1, h2, h3⟩ := loadDone_fails (s := advance s t) (n := n) (m := m) hc hl hturn
    have hw : Within [.regs, .mem, .extMem, .log, .reqs, .till, .sto] (blks [.sto, .hlm, .jrn]) (advance s t)
        (loadDone (advance s t) k false n m) := by
      rw [loadDone_turn (s := advance s t) hc hl hturn, if_neg Bool.false_ne_true]
      exact storeNext_within.step (foldl_within (fun _ _ hu => completeOpt_within.step hu rfl rfl)
        (mediaError_within.step (modSto_within.mono rfl rfl) rfl rfl)) rfl rfl
    refine ⟨_, atFabric_up s t (fun s => loadDone s k false n m) hfab, h1, h2, h3, hw.blocksOnly, ?_⟩
    exact (hw.mono rfl rfl : Within [.regs, .sto, .fle, .reqs, .till, .log, .mem, .extMem] (blks [.sto, .hlm, .jrn]) _ _).eq_frame
  case flushed =>
    intro s t k n m c im hfab hc hf hturn
    exact (atFabric_up s t (fun s => flushDone s k true n m) hfab).trans (congrArg _
      ((flushDone_turn (s := advance s t) (ok := true) hc hf hturn).trans (congrArg storeNext (if_pos rfl))))
  case flushFails =>
    intro s t k n m c im hfab hc hf hturn
    obtain ⟨h1, h2, h3, h4⟩ := flushDone_fails (s := advance s t) (n := n) (m := m) hc hf hturn
    have hw : Within [.regs, .sto, .reqs, .till, .log, .mem, .extMem] (blks [.sto, .hlm, .jrn]) (advance s t)
        (flushDone (advance s t) k false n m) := by
      rw [flushDone_turn (s := advance s t) hc hf hturn, if_neg Bool.false_ne_true]
      exact storeNext_within.step (raiseEv_within.step (foldl_within (fun _ _ hu => completeOpt_within.step hu rfl rfl)
        (modSto_within.step (mediaError_within.step (modSlot_within.mono rfl rfl) rfl rfl) rfl rfl)) rfl rfl) rfl rfl
    exact ⟨_, atFabric_up s t (fun s => flushDone s k false n m) hfab, h1, h2, h3, h4, hw.blocksOnly, hw.eq_frame⟩
  case refresh =>
    intro s t id x hfab hx hat hturn hkey hold
    exact (atFabric_up s t (fun s => tileRefresh s id) hfab).trans (congrArg _ (tileRefresh_old (s := advance s t) hx hat hturn hkey hold))

end Sys2Proof.Machine
end

section
/-! The managed store and the journal (R299–R310). -/

namespace Sys2Proof.Machine

variable {s : State} {t : Fc}

/-! ### Lists of bytes in memory -/

/-- Bytes written in a row are read back, the row being no longer than the address space. -/
theorem Memory.read_writeList : ∀ (l : List Byte) {m : Memory} (a : Nat), Memory.wf m = true → l.length < 2 ^ 64 →
    ∀ k < l.length, Memory.read (Memory.writeList m a l) ((a + k) % 2 ^ 64) = l.getD k 0
  | [], _, _, _, _, k, hk => absurd hk (Nat.not_lt_zero k)
  | b :: l, m, a, hm, hlen, k, hk => by
    rw [List.length_cons] at hlen hk
    unfold Memory.writeList
    cases k with
    | zero =>
      rw [Memory.read_writeList_of_notMem l _ _ _ fun j hj => by omega]
      exact Memory.read_write_self m _ b hm
    | succ k =>
      rw [show a + (k + 1) = a + 1 + k by omega,
        Memory.read_writeList l (a + 1) (Memory.write_wf m _ b hm) (by omega) k (by omega), List.getD_cons_succ]

/-- What a host reads of the bytes written to its memory. -/
theorem hostWrite_read {h : Bool} {a : Nat} {l : List Byte} (hm : Memory.wf s.mem = true) (he : Memory.wf s.extMem = true)
    (hlen : l.length < 2 ^ 64) {k : Nat} (hk : k < l.length) :
    Memory.read (if h then (hostWrite s h a l).extMem else (hostWrite s h a l).mem) ((a + k) % 2 ^ 64) = l.getD k 0 := by
  cases h
  · exact Memory.read_writeList l a hm hlen k hk
  · exact Memory.read_writeList l a he hlen k hk

theorem getD_map_range {α : Type} (f : Nat → α) {n k : Nat} (d : α) (h : k < n) : ((List.range n).map f).getD k d = f k := by
  simp [List.getD, h]

/-! ### Store descriptors -/

section
variable {r : Ref} {d : Desc} (hfab : s.fabric = true) (hdue : due (advance s t) d = true)
include hfab hdue

theorem exec_storeRead (hd : heldDesc s r 0xB 0x64 = some d) (hfirst : storeFirst (advance s t) r = true) :
    exec (.storeRead t r) s = .next (storeJob (takeReq (advance s t) r) r d false []) :=
  (atFabric_up s t (fun s => onlyIf (storeFirst s r) (withDesc r 0xB 0x64 (fun d s => storeJob s r d false [])) s) hfab).trans
    (congrArg _ ((if_pos hfirst).trans (withDesc_due (advance s t) _ hd hdue)))

theorem exec_storeWrite (l : List Nat) (hd : heldDesc s r 0xB 0x65 = some d) (hfirst : storeFirst (advance s t) r = true) :
    exec (.storeWrite t r l) s = .next (storeJob (takeReq (advance s t) r) r d true l) :=
  (atFabric_up s t (fun s => onlyIf (storeFirst s r) (withDesc r 0xB 0x65 (fun d s => storeJob s r d true l)) s) hfab).trans
    (congrArg _ ((if_pos hfirst).trans (withDesc_due (advance s t) _ hd hdue)))

theorem exec_writeInline (hd : heldDesc s r 0xA 1 = some d) (hfirst : writeFirst (advance s t) r = true) :
    exec (.writeInline t r) s = .next (writeInline (takeReq (advance s t) r) r d) :=
  (atFabric_up s t (fun s => onlyIf (writeFirst s r) (withDesc r 0xA 1 (fun d s => writeInline s r d)) s) hfab).trans
    (congrArg _ ((if_pos hfirst).trans (withDesc_due (advance s t) _ hd hdue)))

theorem exec_jrnWrite (l : List Nat) (hd : heldDesc s r 0xA 2 = some d) (hfirst : writeFirst (advance s t) r = true) :
    exec (.jrnWrite t r l) s = .next (jrnWrite (takeReq (advance s t) r) r d l) :=
  (atFabric_up s t (fun s => onlyIf (writeFirst s r) (withDesc r 0xA 2 (fun d s => jrnWrite s r d l)) s) hfab).trans
    (congrArg _ ((if_pos hfirst).trans (withDesc_due (advance s t) _ hd hdue)))

end

/-- The budget of a day in bytes (R304). -/
def dayBudget (s : State) : Nat := rget s R.STO_WRITE_BUDGET_MIB_DAY * 1048576

/-- A write counts against the day's budget and joins the accesses. -/
def writeBegun (s : State) (now : Nat) (j : StoreJob) (bytes : Nat) : State :=
  storeServe (modSto (rset (modSto s fun m => { m with
      dayStart := some (m.dayStart.getD now), dayBytes := m.dayBytes + bytes })
    R.STO_WRITE_BUDGET_USED_MIB (min ((s.sto.dayBytes + bytes) / 1048576) 65535)) fun m => { m with jobs := m.jobs ++ [j] })

section
variable {r : Ref} {d : Desc} (h1 : 1 ≤ d.word 0x1C % 65536) (h2 : d.word 0x1C % 65536 ≤ 256)
  (h3 : d.word 0x18 + d.word 0x1C % 65536 ≤ partMib (d.classWord % 16) * 256)
include h1 h2 h3

theorem storeJob_read (hlo : 3 ≤ d.classWord % 16) (hhi : d.classWord % 16 ≤ 6) (hkey : keyWithheld s (d.classWord % 16) = false) :
    storeJob s r d false [] = storeServe (modSto s fun m => { m with
      jobs := m.jobs ++ [⟨r, d.classWord % 16, d.word 0x18, d.word 0x1C % 65536, false, d.quad 0x10, []⟩] }) := by
  unfold storeJob
  dsimp only
  rw [if_neg (by omega), if_neg (by simpa using ⟨hlo, hhi⟩), hkey, if_neg Bool.false_ne_true, if_neg (by simp)]
  simp

theorem storeJob_closed (h : d.classWord % 16 < 3 ∨ 6 < d.classWord % 16) :
    storeJob s r d false [] = complete s r stRejectState 0x02A0 := by
  unfold storeJob
  dsimp only
  rw [if_neg (by omega)]
  have hnot : ¬(3 ≤ d.classWord % 16 ∧ d.classWord % 16 ≤ 6) := by omega
  exact if_pos (by simpa [Classical.or_iff_not_imp_left] using hnot)

theorem storeJob_write {l : List Nat} (hp : d.classWord % 16 = 5 ∨ d.classWord % 16 = 6)
    (hkey : keyWithheld s (d.classWord % 16) = false) : storeJob s r d true l =
      if dayBudget s < (budgetRoll s).sto.dayBytes + d.word 0x1C % 65536 * 4096 then complete (budgetRoll s) r stRejectBudget 0x03A0
      else writeBegun (budgetRoll s) (moduleTime s) ⟨r, d.classWord % 16, d.word 0x18, d.word 0x1C % 65536, true, d.quad 0x10,
        l.take (d.word 0x1C % 65536 * 4096)⟩ (d.word 0x1C % 65536 * 4096) := by
  unfold storeJob
  dsimp only
  rw [if_neg (by omega), if_neg (by simpa [or_iff_not_imp_left] using hp), hkey, if_neg Bool.false_ne_true]
  simp only [if_true, true_and]
  rfl

theorem storeJob_withheld {l : List Nat} (hp : d.classWord % 16 = 6) (hkey : keyWithheld s 6 = true) :
    storeJob s r d true l = complete s r stRejectState 0x02A3 := by
  unfold storeJob
  dsimp only
  rw [if_neg (by omega), if_neg (by simp [hp]), hp, hkey, if_pos rfl]

end

theorem storeJob_format {r : Ref} {d : Desc} {w : Bool} {l : List Nat} (h : d.word 0x1C % 65536 = 0 ∨ 256 < d.word 0x1C % 65536 ∨
    partMib (d.classWord % 16) * 256 < d.word 0x18 + d.word 0x1C % 65536) : storeJob s r d w l = complete s r stRejectFormat 0x01A1 :=
  if_pos h

theorem of_optionAll {α : Type} {p : α → Prop} [DecidablePred p] {o : Option α} (h : o.all (fun a => decide (p a)) = true) {a : α}
    (ho : o = some a) : p a := by
  subst ho
  exact of_decide_eq_true h

theorem budgetRoll_same (h : s.sto.dayStart.all (fun a => moduleTime s < a + 86400 * 1000000000) = true) : budgetRoll s = s := by
  unfold budgetRoll
  cases hd : s.sto.dayStart with
  | none => rfl
  | some a =>
    dsimp only
    rw [if_neg (Nat.not_le_of_lt (of_optionAll h hd))]

theorem budgetRoll_over {a : Nat} (hd : s.sto.dayStart = some a) (h : a + 86400 * 1000000000 ≤ moduleTime s) :
    budgetRoll s = rset { s with sto := { s.sto with dayStart := none, dayBytes := 0 } } R.STO_WRITE_BUDGET_USED_MIB 0 := by
  unfold budgetRoll
  rw [hd]
  exact if_pos h

/-! ### Accesses that end -/

theorem partWrite_sto : ∀ (l : List Nat) {s : State} {p off : Nat},
    (partWrite s p off l).sto = { s.sto with store := (partWrite s p off l).sto.store }
  | [], _, _, _ => rfl
  | b :: l, s, p, off => by
    unfold partWrite
    rw [partWrite_sto l]
    rfl

theorem partWrite_other : ∀ (l : List Nat) {s : State} {p off a : Nat}, (∀ k < l.length, a ≠ 2 ^ 40 * p + (off + k)) →
    tblGet? (partWrite s p off l).sto.store a = tblGet? s.sto.store a
  | [], _, _, _, _, _ => rfl
  | b :: l, s, p, off, a, h => by
    unfold partWrite
    rw [partWrite_other l fun k hk => by
      have := h (k + 1) (by simpa using hk)
      omega]
    exact tblGet?_set_ne _ _ (h 0 (by simp))

theorem partWrite_reads : ∀ (l : List Nat) {s : State} {p off : Nat}, ∀ k < l.length,
    tblGet? (partWrite s p off l).sto.store (2 ^ 40 * p + (off + k)) = some (BitVec.ofNat 8 (l.getD k 0))
  | [], _, _, _, k, hk => absurd hk (Nat.not_lt_zero k)
  | b :: l, s, p, off, k, hk => by
    unfold partWrite
    cases k with
    | zero =>
      rw [partWrite_other l fun j _ => by omega]
      exact tblGet?_set_self _ _ _
    | succ k =>
      rw [show off + (k + 1) = off + 1 + k by omega, partWrite_reads l k (by simpa using hk), List.getD_cons_succ]

theorem storeDone_first {ok : Bool} {n m : Nat} {x : List Nat} {j : StoreJob} {l : List StoreJob} (hj : s.sto.jobs = j :: l)
    (halone : storeAlone s j.ref = true) : storeDone s ok n m x = storeNext (
      if !ok then complete (mediaError (modSto s fun m => { m with jobs := l }) j.write) j.ref stMediaError (senseDetail n m)
      else if j.write then complete (partWrite (modSto s fun m => { m with jobs := l }) j.part (4096 * j.block) j.data) j.ref stDone
      else complete (hostWrite (modSto s fun m => { m with jobs := l }) (refHost s j.ref) j.addr ((List.range (4096 * j.count)).map
        fun k => (partByte s j.part (4096 * j.block + k)).getD (BitVec.ofNat 8 (x.getD k 0)))) j.ref stDone) := by
  unfold storeDone
  rw [hj]
  dsimp only
  rw [halone]
  rfl

theorem lifePoll_due {a b e : Nat} (h : s.sto.pollAt.all (fun a => a + 3600 * 400000000 ≤ s.now) = true) :
    lifePoll s a b e = if (e % 4 = 2 ∨ e % 4 = 3) ∧ e % 4 ≠ rget s R.STO_LIFE_PRE_EOL then
        raiseEv (rset (rset (rset (modSto s fun m => { m with pollAt := some s.now }) R.STO_LIFE_LIFE_A a) R.STO_LIFE_LIFE_B b)
          R.STO_LIFE_PRE_EOL e) evStoPreEol
      else rset (rset (rset (modSto s fun m => { m with pollAt := some s.now }) R.STO_LIFE_LIFE_A a) R.STO_LIFE_LIFE_B b)
        R.STO_LIFE_PRE_EOL e := by
  unfold lifePoll
  cases hp : s.sto.pollAt with
  | none =>
    dsimp only
    rw [if_neg (by decide)]
  | some x =>
    dsimp only
    have hdue : decide (x + 3600 * fcSec ≤ s.now) = true := decide_eq_true (of_optionAll h hp)
    rw [hdue, if_neg (by decide)]

/-! ### The journal -/

theorem pagesOf_nodup (off len : Nat) : (pagesOf off len).Nodup :=
  List.nodup_range.map fun a b h => by simpa using h

theorem pagesOf_first (off len : Nat) : off / 4096 ∈ pagesOf off len :=
  List.mem_map.mpr ⟨0, by simp, by simp⟩

theorem countPages : ∀ (l : List Nat) {s : State}, l.Nodup →
    (l.foldl countPage s) = { s with sto := { s.sto with pages := (l.foldl countPage s).sto.pages } } ∧
      ∀ p, tblGetD (l.foldl countPage s).sto.pages p 0 = if p ∈ l then tblGetD s.sto.pages p 0 + 1 else tblGetD s.sto.pages p 0
  | [], _, _ => ⟨rfl, fun p => (if_neg (by simp)).symm⟩
  | q :: l, s, h => by
    rw [List.nodup_cons] at h
    obtain ⟨hs, hp⟩ := countPages l (s := countPage s q) h.2
    rw [List.foldl_cons]
    refine ⟨hs.trans rfl, fun p => ?_⟩
    rw [hp]
    have hone : tblGetD (countPage s q).sto.pages p 0 = if p = q then tblGetD s.sto.pages q 0 + 1 else tblGetD s.sto.pages p 0 :=
      tblGetD_set _ _ _ _ _
    rw [hone]
    by_cases hpq : p = q
    · rw [if_neg (hpq ▸ h.1), if_pos hpq, if_pos (hpq ▸ List.mem_cons_self), hpq]
    · by_cases hl : p ∈ l
      · rw [if_pos hl, if_neg hpq, if_pos (List.mem_cons_of_mem _ hl)]
      · rw [if_neg hl, if_neg hpq, if_neg (by simp [hpq, hl])]

theorem jrnStart_begins {r : Ref} {off len : Nat} {data : List Nat} (hoff : off % 4 = 0) (hlen : len % 4 = 0) (h1 : 1 ≤ len)
    (hin : off + len ≤ 0x2000000) (hlim : ∀ p ∈ pagesOf off len, tblGetD s.sto.pages p 0 < pageLimit s) :
    jrnStart s r off len data = modSto ((pagesOf off len).foldl countPage s) fun m => { m with
      jrnJobs := m.jrnJobs ++ [⟨r, softBase + off, true, 0, data.take len⟩] } := by
  have hany : ((pagesOf off len).any fun p => decide (pageLimit s ≤ tblGetD s.sto.pages p 0)) = false :=
    List.any_eq_false.mpr fun p hp => by simpa using hlim p hp
  refine (if_neg ?_).trans (if_neg (by rw [hany]; decide))
  rw [show softSize = 0x2000000 from rfl]
  omega

/-- What a journal write that begins leaves. -/
theorem jrnStart_fields {r : Ref} {off len : Nat} {data : List Nat} (hoff : off % 4 = 0) (hlen : len % 4 = 0) (h1 : 1 ≤ len)
    (hin : off + len ≤ 0x2000000) (hlim : ∀ p ∈ pagesOf off len, tblGetD s.sto.pages p 0 < pageLimit s) :
    (∀ p ∈ pagesOf off len, tblGetD (jrnStart s r off len data).sto.pages p 0 = tblGetD s.sto.pages p 0 + 1) ∧
      (∀ p, p ∉ pagesOf off len → tblGetD (jrnStart s r off len data).sto.pages p 0 = tblGetD s.sto.pages p 0) ∧
      (jrnStart s r off len data).sto.jrnJobs = s.sto.jrnJobs ++ [⟨r, 0x2000000 + off, true, 0, data.take len⟩] ∧
      jrnStart s r off len data = { s with sto := { s.sto with
        pages := (jrnStart s r off len data).sto.pages, jrnJobs := (jrnStart s r off len data).sto.jrnJobs } } := by
  obtain ⟨hs, hp⟩ := countPages (pagesOf off len) (s := s) (pagesOf_nodup off len)
  rw [jrnStart_begins hoff hlen h1 hin hlim]
  refine ⟨fun p h => (hp p).trans (if_pos h), fun p h => (hp p).trans (if_neg h), ?_, ?_⟩
  · rw [hs]
    rfl
  · rw [hs]
    rfl

theorem jrnStart_limit {r : Ref} {off len : Nat} {data : List Nat} (hoff : off % 4 = 0) (hlen : len % 4 = 0) (h1 : 1 ≤ len)
    (hin : off + len ≤ 0x2000000) (hlim : pageLimit s ≤ tblGetD s.sto.pages (off / 4096) 0) :
    jrnStart s r off len data = raiseEv (complete s r stRejectBudget 0x03B0) evJrnBudgetRefused := by
  refine (if_neg ?_).trans (if_pos ?_)
  · rw [show softSize = 0x2000000 from rfl]
    omega
  · exact List.any_eq_true.mpr ⟨_, pagesOf_first off len, decide_eq_true hlim⟩

theorem jrnDone_first {ok : Bool} {j : JrnJob} {l : List JrnJob} (hj : s.sto.jrnJobs = j :: l) : jrnDone s ok =
      if !ok then complete (raiseEv (modSto s fun m => { m with jrnJobs := l }) evStoMediaError) j.ref stMediaError 0
      else if j.write then complete (jrnApply (modSto s fun m => { m with jrnJobs := l }) j j.data.length) j.ref stDone
      else complete (hostWrite (modSto s fun m => { m with jrnJobs := l }) (refHost s j.ref) j.addr
        ((List.range j.data.length).map fun k => jrnByte s (j.off + k))) j.ref stDone := by
  unfold jrnDone
  rw [hj]

theorem jrnByte_software {off : Nat} (h : 0x2000000 ≤ off) : jrnByte s off = Memory.read s.sto.soft (off - 0x2000000) := by
  unfold jrnByte
  dsimp only
  rw [if_neg (by omega), if_neg (by omega), if_neg (by omega), if_neg (by omega),
    if_neg (by rw [show softBase = 0x2000000 from rfl]; omega), if_pos (by rw [show softBase = 0x2000000 from rfl]; omega)]
  rfl

theorem jovfCopy_batch (h : s.log.copied + 128 ≤ s.log.written) (hturn : storeTurn s ≠ some 0) (hkey : keyWithheld s 3 = false) :
    jovfCopy s = { s with log := { s.log with
      copied := s.log.copied + 128, jovf := (jovfCopy s).log.jovf, losing := false } } := by
  have hn : min 128 (s.log.written - s.log.copied) = 128 := by omega
  unfold jovfCopy
  dsimp only
  rw [hn, if_neg (by rw [hkey]; simp only [lt_irrefl, false_or, Bool.false_eq_true, or_false]; exact hturn)]

/-! ### O36 -/

/-- A write that fits the day's budget, `v` being the state as the day's roll leaves it. -/
theorem writeBegun_fields {v : State} {now bytes : Nat} {j : StoreJob} :
    (writeBegun v now j bytes).sto.jobs = v.sto.jobs ++ [j] ∧ (writeBegun v now j bytes).sto.dayStart = some (v.sto.dayStart.getD now) ∧
      (writeBegun v now j bytes).sto.dayBytes = v.sto.dayBytes + bytes ∧ (writeBegun v now j bytes).sto.store = v.sto.store ∧
      (writeBegun v now j bytes).reqs = v.reqs ∧ RegsOnly v (writeBegun v now j bytes) [R.STO_WRITE_BUDGET_USED_MIB.key 0 0] ∧
      writeBegun v now j bytes = { v with regs := (writeBegun v now j bytes).regs, sto := (writeBegun v now j bytes).sto } :=
  ⟨rfl, rfl, rfl, rfl, rfl, rset_regsOnly v _ _ _ _ (.head _), rfl⟩

theorem jrnDone_reads {j : JrnJob} {l : List JrnJob} (hj : s.sto.jrnJobs = j :: l) (hread : j.write = false)
    (hcount : j.data.length ≤ 65536) (hm : Memory.wf s.mem = true) (he : Memory.wf s.extMem = true) :
    (∀ k < j.data.length, Memory.read (if refHost s j.ref then (jrnDone s true).extMem else (jrnDone s true).mem)
        ((j.addr + k) % 2 ^ 64) = jrnByte s (j.off + k)) ∧
      (jrnDone s true).reqs = (complete s j.ref stDone).reqs ∧
      jrnDone s true = { s with sto := { s.sto with jrnJobs := l }, reqs := (jrnDone s true).reqs, till := (jrnDone s true).till, mem := (jrnDone s true).mem, extMem := (jrnDone s true).extMem } := by
  have h := jrnDone_first (ok := true) hj
  rw [if_neg (by decide), if_neg (ne_true_of_eq_false hread)] at h
  obtain ⟨bs, hbs⟩ : ∃ bs, bs = (List.range j.data.length).map fun k => jrnByte s (j.off + k) := ⟨_, rfl⟩
  have hlen : bs.length = j.data.length := by rw [hbs, List.length_map, List.length_range]
  rw [← hbs] at h
  have hw : Within [.reqs, .till, .mem, .extMem] [] (modSto s fun m => { m with jrnJobs := l }) (jrnDone s true) := by
    rw [h]
    exact complete_within.step (hostWrite_within.mono rfl rfl) rfl rfl
  refine ⟨fun k hk => ?_, ?_, hw.eq_frame⟩
  · have hr := hostWrite_read (s := modSto s fun m => { m with jrnJobs := l }) (h := refHost s j.ref) (a := j.addr)
      (l := bs) hm he (by rw [hlen]; omega) (k := k) (by rw [hlen]; exact hk)
    rw [show bs.getD k 0 = _ from (congrArg (·.getD k 0) hbs).trans (getD_map_range _ 0 hk)] at hr
    rw [h, complete_mem, complete_extMem]
    exact hr
  · rw [h]
    refine complete_reqs_congr ?_ _ _ _ _
    rw [hostWrite_reqs]
    rfl

theorem advance_complete_reqs (s : State) (t : Fc) (r : Ref) (st d : Nat) (row : Option Nat) :
    (complete (advance s t) r st d row).reqs = (complete s r st d row).reqs :=
  complete_reqs_congr (s := s) (u := advance s t) rfl _ _ _ _

/-- What ends a store access ends its descriptor, whatever of the other fields changed before. -/
theorem storeNext_complete_reqs {X : State} (hX : X.reqs = s.reqs) (r : Ref) (st d : Nat) (row : Option Nat) :
    (storeNext (complete X r st d row)).reqs = (complete s r st d row).reqs :=
  (storeNext_within (s := complete X r st d row)).reqs.resolve_left (by simp) |>.trans (complete_reqs_congr hX _ _ _ _)

theorem storeDone_fails {j : StoreJob} {l : List StoreJob} {n m : Nat} {x : List Nat} (hj : s.sto.jobs = j :: l)
    (halone : storeAlone s j.ref = true) :
    (storeDone s false n m x).sto = { s.sto with jobs := l, serving := (storeDone s false n m x).sto.serving } ∧
      (storeDone s false n m x).reqs = (complete s j.ref stMediaError (n % 256 + 256 * (m % 256))).reqs ∧
      Within [.regs, .sto, .reqs, .till, .log, .mem, .extMem] (blks [.sto, .hlm, .jrn]) s (storeDone s false n m x) := by
  have h := storeDone_first (ok := false) (n := n) (m := m) (x := x) hj halone
  rw [if_pos (by decide)] at h
  have hin : Within [.regs, .log, .mem, .extMem] (blks [.sto, .hlm, .jrn]) (modSto s fun m => { m with jobs := l })
      (mediaError (modSto s fun m => { m with jobs := l }) j.write) := mediaError_within.mono rfl rfl
  have hw : Within [.regs, .sto, .reqs, .till, .log, .mem, .extMem] (blks [.sto, .hlm, .jrn]) s
      (storeDone s false n m x) := by
    rw [h]
    exact storeNext_within.step (complete_within.step (mediaError_within.step (modSto_within.mono rfl rfl) rfl rfl) rfl rfl) rfl rfl
  refine ⟨?_, ?_, hw⟩
  · rw [h, storeNext_sto, complete_sto, hin.sto.resolve_left (by simp)]
    rfl
  · rw [h]
    exact storeNext_complete_reqs (s := s) (hin.reqs.resolve_left (by simp)) _ _ _ _

theorem storeDone_writes {j : StoreJob} {l : List StoreJob} {n m : Nat} {x : List Nat} (hj : s.sto.jobs = j :: l)
    (halone : storeAlone s j.ref = true) (hwrite : j.write = true) :
    (∀ k < j.data.length, tblGet? (storeDone s true n m x).sto.store (2 ^ 40 * j.part + (4096 * j.block + k)) =
        some (BitVec.ofNat 8 (j.data.getD k 0))) ∧
      (∀ a, (∀ k < j.data.length, a ≠ 2 ^ 40 * j.part + (4096 * j.block + k)) →
        tblGet? (storeDone s true n m x).sto.store a = tblGet? s.sto.store a) ∧
      (storeDone s true n m x).sto.jobs = l ∧ (storeDone s true n m x).reqs = (complete s j.ref stDone).reqs ∧
      Within [.sto, .reqs, .till] [] s (storeDone s true n m x) := by
  have h := storeDone_first (ok := true) (n := n) (m := m) (x := x) hj halone
  rw [if_neg (by decide), if_pos hwrite] at h
  have hsto := partWrite_sto j.data (s := modSto s fun m => { m with jobs := l }) (p := j.part) (off := 4096 * j.block)
  have hin : Within [.sto] [] (modSto s fun m => { m with jobs := l })
    (partWrite (modSto s fun m => { m with jobs := l }) j.part (4096 * j.block) j.data) := partWrite_within
  have hw : Within [.sto, .reqs, .till] [] s (storeDone s true n m x) := by
    rw [h]
    exact storeNext_within.step (complete_within.step (partWrite_within.step (modSto_within.mono rfl rfl) rfl rfl) rfl rfl) rfl rfl
  have hu : (storeDone s true n m x).sto = { (partWrite (modSto s fun m => { m with jobs := l }) j.part
      (4096 * j.block) j.data).sto with serving := (storeDone s true n m x).sto.serving } := by
    rw [h, storeNext_sto, complete_sto]
  refine ⟨fun k hk => ?_, fun a ha => ?_, ?_, ?_, hw⟩
  · rw [hu]
    exact partWrite_reads j.data k hk
  · rw [hu]
    exact partWrite_other j.data ha
  · rw [hu, hsto]
    rfl
  · rw [h]
    exact storeNext_complete_reqs (s := s) (hin.reqs.resolve_left (by simp)) _ _ _ _

theorem storeDone_reads {j : StoreJob} {l : List StoreJob} {n m : Nat} {x : List Nat} (hj : s.sto.jobs = j :: l)
    (halone : storeAlone s j.ref = true) (hread : j.write = false) (hcount : j.count ≤ 256) (hm : Memory.wf s.mem = true)
    (he : Memory.wf s.extMem = true) :
    (∀ k < 4096 * j.count, Memory.read (if refHost s j.ref then (storeDone s true n m x).extMem else (storeDone s true n m x).mem)
        ((j.addr + k) % 2 ^ 64) = (partByte s j.part (4096 * j.block + k)).getD (BitVec.ofNat 8 (x.getD k 0))) ∧
      (storeDone s true n m x).sto = { s.sto with jobs := l, serving := (storeDone s true n m x).sto.serving } ∧
      (storeDone s true n m x).reqs = (complete s j.ref stDone).reqs ∧
      Within [.sto, .reqs, .till, .mem, .extMem] [] s (storeDone s true n m x) := by
  have h := storeDone_first (ok := true) (n := n) (m := m) (x := x) hj halone
  rw [if_neg (by decide), if_neg (ne_true_of_eq_false hread)] at h
  obtain ⟨bs, hbs⟩ : ∃ bs, bs = (List.range (4096 * j.count)).map fun k =>
    (partByte s j.part (4096 * j.block + k)).getD (BitVec.ofNat 8 (x.getD k 0)) := ⟨_, rfl⟩
  have hlen : bs.length = 4096 * j.count := by rw [hbs, List.length_map, List.length_range]
  rw [← hbs] at h
  have hw : Within [.sto, .reqs, .till, .mem, .extMem] [] s (storeDone s true n m x) := by
    rw [h]
    exact storeNext_within.step (complete_within.step (hostWrite_within.step (modSto_within.mono rfl rfl) rfl rfl) rfl rfl) rfl rfl
  have hmem : (storeDone s true n m x).mem = (hostWrite (modSto s fun m => { m with jobs := l }) (refHost s j.ref) j.addr bs).mem := by
    rw [h, storeNext_within.mem.resolve_left (by simp), complete_mem]
  have hext : (storeDone s true n m x).extMem = (hostWrite (modSto s fun m => { m with jobs := l }) (refHost s j.ref) j.addr bs).extMem := by
    rw [h, storeNext_within.extMem.resolve_left (by simp), complete_extMem]
  refine ⟨fun k hk => ?_, ?_, ?_, hw⟩
  · have hr := hostWrite_read (s := modSto s fun m => { m with jobs := l }) (h := refHost s j.ref) (a := j.addr)
      (l := bs) hm he (by rw [hlen]; omega) (k := k) (by rw [hlen]; exact hk)
    rw [show bs.getD k 0 = _ from (congrArg (·.getD k 0) hbs).trans (getD_map_range _ 0 hk)] at hr
    rw [hmem, hext]
    exact hr
  · rw [h, storeNext_sto, complete_sto, hostWrite_sto]
    rfl
  · rw [h]
    exact storeNext_complete_reqs (s := s) ((hostWrite_reqs (modSto s fun m => { m with jobs := l }) _ _ _).trans rfl) _ _ _ _

theorem jrnDone_writes {j : JrnJob} {l : List JrnJob} (hj : s.sto.jrnJobs = j :: l) (hwrite : j.write = true)
    (hlo : 0x2000000 ≤ j.off) (hhi : j.off + j.data.length ≤ 0x4000000) (hsoft : Memory.wf s.sto.soft = true) :
    (∀ k < j.data.length, Memory.read (jrnDone s true).sto.soft (j.off - 0x2000000 + k) = BitVec.ofNat 8 (j.data.getD k 0)) ∧
      (∀ a, (a < j.off - 0x2000000 ∨ j.off - 0x2000000 + j.data.length ≤ a) →
        Memory.read (jrnDone s true).sto.soft a = Memory.read s.sto.soft a) ∧
      (jrnDone s true).reqs = (complete s j.ref stDone).reqs ∧
      jrnDone s true = { s with sto := { s.sto with jrnJobs := l, soft := (jrnDone s true).sto.soft }, reqs := (jrnDone s true).reqs, till := (jrnDone s true).till } := by
  have h := jrnDone_first (ok := true) hj
  rw [if_neg (by decide), if_pos hwrite] at h
  have hlen : ((j.data.take j.data.length).map (BitVec.ofNat 8)).length = j.data.length := by
    rw [List.take_length, List.length_map]
  have hw : Within [.sto, .reqs, .till] [] s (jrnDone s true) := by
    rw [h]
    exact complete_within.step (jrnApply_within.step (modSto_within.mono rfl rfl) rfl rfl) rfl rfl
  have hu : (jrnDone s true).sto = { s.sto with jrnJobs := l, soft := (Memory.writeList s.sto.soft (j.off - 0x2000000)
      ((j.data.take j.data.length).map (BitVec.ofNat 8))) } := by
    rw [h, complete_sto]
    rfl
  refine ⟨fun k hk => ?_, fun a ha => ?_, ?_, ?_⟩
  · rw [hu]
    have hr := Memory.read_writeList ((j.data.take j.data.length).map (BitVec.ofNat 8)) (j.off - 0x2000000) hsoft
      (by rw [hlen]; omega) k (by rw [hlen]; exact hk)
    rw [Nat.mod_eq_of_lt (by omega)] at hr
    refine hr.trans ?_
    rw [List.take_length]
    simp [List.getD, hk]
  · rw [hu]
    exact Memory.read_writeList_of_notMem _ _ _ _ fun k hk => by
      rw [hlen] at hk
      omega
  · rw [h]
    refine complete_reqs_congr ?_ _ _ _ _; rfl
  · have hu' : { s.sto with jrnJobs := l, soft := (jrnDone s true).sto.soft } = (jrnDone s true).sto := by rw [hu]
    rw [hu']
    exact hw.eq_frame

theorem jrnDone_fails {j : JrnJob} {l : List JrnJob} (hj : s.sto.jrnJobs = j :: l) :
    (jrnDone s false).sto = { s.sto with jrnJobs := l } ∧ (jrnDone s false).reqs = (complete s j.ref stMediaError).reqs ∧
      Within [.regs, .sto, .reqs, .till, .log, .mem, .extMem] (blks [.hlm, .jrn]) s (jrnDone s false) := by
  have h := jrnDone_first (ok := false) hj
  rw [if_pos (by decide)] at h
  have hin : Within [.regs, .log, .mem, .extMem] (blks [.hlm, .jrn]) (modSto s fun m => { m with jrnJobs := l })
      (raiseEv (modSto s fun m => { m with jrnJobs := l }) evStoMediaError) := raiseEv_within.mono rfl rfl
  have hw : Within [.regs, .sto, .reqs, .till, .log, .mem, .extMem] (blks [.hlm, .jrn]) s
      (jrnDone s false) := by
    rw [h]
    exact complete_within.step (raiseEv_within.step (modSto_within.mono rfl rfl) rfl rfl) rfl rfl
  refine ⟨?_, ?_, hw⟩
  · rw [h, complete_sto, hin.sto.resolve_left (by simp)]
    rfl
  · rw [h]
    exact complete_reqs_congr (s := s) (hin.reqs.resolve_left (by simp)) _ _ _ _

/-- Settles O36. -/
theorem storeAndJournal : Obligations.StoreAndJournal := by
  unfold Obligations.StoreAndJournal
  refine ⟨?read, ?readClosed, ?readFormat, ?write, ?writeNewDay, ?overBudget, ?withheld, ?failed, ?wrote, ?didRead, ?life, ?lifeTold,
    ?dayEnd, ?inline, ?jwrite, ?jlimit, ?jread, ?jreadFormat, ?jwrote, ?jdidRead, ?jdidReadSoft, ?jfailed, ?jovf, ?jovfWaits⟩
  case read =>
    intro s t r d hfab hd hdue hfirst h1 h2 h3 hlo hhi hkey
    exact (exec_storeRead hfab hdue hd hfirst).trans (congrArg _
      (storeJob_read (s := takeReq (advance s t) r) h1 h2 h3 hlo hhi hkey))
  case readClosed =>
    exact fun s t r d hfab hd hdue hfirst h1 h2 h3 hp => (exec_storeRead hfab hdue hd hfirst).trans (congrArg _
      (storeJob_closed h1 h2 h3 hp))
  case readFormat =>
    exact fun s t r d hfab hd hdue hfirst h => (exec_storeRead hfab hdue hd hfirst).trans (congrArg _ (storeJob_format h))
  case write =>
    intro s t r d l hfab hd hdue hfirst h1 h2 h3 hp hkey hday hbudget
    have hroll : budgetRoll (takeReq (advance s t) r) = takeReq (advance s t) r := budgetRoll_same hday
    have h := storeJob_write (s := takeReq (advance s t) r) (r := r) (l := l) h1 h2 h3 hp hkey
    rw [hroll] at h
    replace h := h.trans (if_neg (Nat.not_lt.mpr hbudget))
    obtain ⟨f1, f2, f3, f4, f5, f6, f7⟩ := writeBegun_fields (v := takeReq (advance s t) r) (now := moduleTime (advance s t))
      (bytes := d.word 0x1C % 65536 * 4096) (j := ⟨r, d.classWord % 16, d.word 0x18, d.word 0x1C % 65536, true, d.quad 0x10,
        l.take (d.word 0x1C % 65536 * 4096)⟩)
    exact ⟨_, (exec_storeWrite hfab hdue l hd hfirst).trans (congrArg _ h), f1, f2, f3, f4, f5, f6, f7⟩
  case writeNewDay =>
    intro s t r d l a hfab hd hdue hfirst h1 h2 h3 hp hkey hday hover hbudget
    have hroll := budgetRoll_over (s := takeReq (advance s t) r) hday hover
    have h := storeJob_write (s := takeReq (advance s t) r) (r := r) (l := l) h1 h2 h3 hp hkey
    obtain ⟨v, hv⟩ : ∃ v, v = rset { takeReq (advance s t) r with sto := { s.sto with dayStart := none, dayBytes := 0 } }
      R.STO_WRITE_BUDGET_USED_MIB 0 := ⟨_, rfl⟩
    rw [show budgetRoll (takeReq (advance s t) r) = v from hroll.trans hv.symm, if_neg (by
      rw [show v.sto.dayBytes = 0 by rw [hv]; rfl, Nat.zero_add]
      exact Nat.not_lt.mpr hbudget)] at h
    obtain ⟨f1, f2, f3, f4, f5, f6, f7⟩ := writeBegun_fields (v := v) (now := moduleTime (takeReq (advance s t) r))
      (bytes := d.word 0x1C % 65536 * 4096) (j := ⟨r, d.classWord % 16, d.word 0x18, d.word 0x1C % 65536, true, d.quad 0x10,
        l.take (d.word 0x1C % 65536 * 4096)⟩)
    have hr : RegsOnly s v [R.STO_WRITE_BUDGET_USED_MIB.key 0 0] := by
      rw [hv]
      exact rset_regsOnly { takeReq (advance s t) r with sto := { s.sto with dayStart := none, dayBytes := 0 } } _ _ _ _ (.head _)
    refine ⟨_, (exec_storeWrite hfab hdue l hd hfirst).trans (congrArg _ h), ?_, ?_, ?_, ?_, ?_, hr.trans f6, ?_⟩
    · rw [f1, hv]; rfl
    · rw [f2, hv]; rfl
    · rw [f3, hv]; exact Nat.zero_add _
    · rw [f4, hv]; rfl
    · rw [f5, hv]; rfl
    · refine f7.trans ?_
      rw [hv]
      rfl
  case overBudget =>
    intro s t r d l hfab hd hdue hfirst h1 h2 h3 hp hkey hday hbudget
    have hroll : budgetRoll (takeReq (advance s t) r) = takeReq (advance s t) r := budgetRoll_same hday
    have h := storeJob_write (s := takeReq (advance s t) r) (r := r) (l := l) h1 h2 h3 hp hkey
    rw [hroll] at h
    replace h := h.trans (if_pos hbudget)
    exact (exec_storeWrite hfab hdue l hd hfirst).trans (congrArg _ h)
  case withheld =>
    intro s t r d l hfab hd hdue hfirst h1 h2 h3 hp hkey
    exact (exec_storeWrite hfab hdue l hd hfirst).trans (congrArg _
      (storeJob_withheld (s := takeReq (advance s t) r) h1 h2 h3 hp hkey))
  case failed =>
    intro s t j l n m x hfab hj halone
    obtain ⟨h1, h2, hw⟩ := storeDone_fails (s := advance s t) (n := n) (m := m) (x := x) hj halone
    exact ⟨_, atFabric_up s t (fun s => storeDone s false n m x) hfab, h1, h2.trans (advance_complete_reqs ..), hw.blocksOnly, hw.eq_frame⟩
  case wrote =>
    intro s t j l n m x hfab hj halone hwrite
    obtain ⟨h1, h2, h3, h4, hw⟩ := storeDone_writes (s := advance s t) (n := n) (m := m) (x := x) hj halone hwrite
    exact ⟨_, atFabric_up s t (fun s => storeDone s true n m x) hfab, h1, h2, h3, h4.trans (advance_complete_reqs ..), hw.eq_frame⟩
  case didRead =>
    intro s t j l n m x hfab hj halone hread hcount hm he
    obtain ⟨h1, h2, h3, hw⟩ := storeDone_reads (s := advance s t) (n := n) (m := m) (x := x) hj halone hread hcount hm he
    exact ⟨_, atFabric_up s t (fun s => storeDone s true n m x) hfab, h1, h2, h3.trans (advance_complete_reqs ..), hw.eq_frame⟩
  case life =>
    intro s t a b e hfab hdue he
    exact (atFabric_up s t (fun s => lifePoll s a b e) hfab).trans (congrArg _ ((lifePoll_due (s := advance s t) hdue).trans
      (if_neg (by
        rintro ⟨h1, h2⟩
        obtain h | h := he
        · omega
        · exact h2 h))))
  case lifeTold =>
    intro s t a b e hfab hdue he hne
    exact (atFabric_up s t (fun s => lifePoll s a b e) hfab).trans (congrArg _ ((lifePoll_due (s := advance s t) hdue).trans
      (if_pos ⟨by omega, hne⟩)))
  case dayEnd =>
    exact fun s t a hfab hday hover => (atFabric_up s t budgetRoll hfab).trans (congrArg _
      (budgetRoll_over (s := advance s t) hday hover))
  case inline =>
    intro s t r d hfab hd hdue hfirst h1 h2 hoff hin hlim
    have hinl : writeInline (takeReq (advance s t) r) r d = jrnStart (takeReq (advance s t) r) r d.classWord (4 * (d.word 0x30 % 16))
        ((imgBytes d.body 32).take (4 * (d.word 0x30 % 16))) := if_neg (by omega)
    obtain ⟨f1, f2, f3, f4⟩ := jrnStart_fields (s := takeReq (advance s t) r) (r := r)
      (data := (imgBytes d.body 32).take (4 * (d.word 0x30 % 16))) hoff (by omega) (by omega) hin hlim
    exact ⟨_, (exec_writeInline hfab hdue hd hfirst).trans (congrArg _ hinl), f1, f2, f3, f4⟩
  case jwrite =>
    intro s t r d x hfab hd hdue hfirst hlen h1 h2 hoff hin hlim
    have hinl : jrnWrite (takeReq (advance s t) r) r d x = jrnStart (takeReq (advance s t) r) r d.classWord (d.word 0x18) x :=
      if_neg (by omega)
    obtain ⟨f1, f2, f3, f4⟩ := jrnStart_fields (s := takeReq (advance s t) r) (r := r) (data := x) hoff hlen h1 hin hlim
    exact ⟨_, (exec_jrnWrite hfab hdue x hd hfirst).trans (congrArg _ hinl), f1, f2, f3, f4⟩
  case jlimit =>
    intro s t r d x hfab hd hdue hfirst hlen h1 h2 hoff hin hlim
    exact (exec_jrnWrite hfab hdue x hd hfirst).trans (congrArg _ ((if_neg (by omega)).trans
      (jrnStart_limit (s := takeReq (advance s t) r) hoff hlen h1 hin hlim)))
  case jread =>
    intro s t r d hfab hd hdue hlen h1 h2 hoff hin
    refine (atFabric_desc hfab (fun d s => jrnRead s r d) hd hdue).trans (congrArg _ (if_neg ?_))
    rw [show jrnSize = 0x4000000 from rfl]
    omega
  case jreadFormat =>
    intro s t r d hfab hd hdue hin
    refine (atFabric_desc hfab (fun d s => jrnRead s r d) hd hdue).trans (congrArg _ (if_pos ?_))
    exact .inr (.inr (.inr (.inr hin)))
  case jwrote =>
    intro s t j l hfab hj hwrite hlo hhi hsoft
    obtain ⟨h1, h2, h3, h4⟩ := jrnDone_writes (s := advance s t) hj hwrite hlo hhi hsoft
    exact ⟨_, atFabric_up s t (fun s => jrnDone s true) hfab, h1, h2, h3.trans (advance_complete_reqs ..), h4⟩
  case jdidRead =>
    intro s t j l hfab hj hread hcount hm he
    obtain ⟨h1, h2, h3⟩ := jrnDone_reads (s := advance s t) hj hread hcount hm he
    exact ⟨_, atFabric_up s t (fun s => jrnDone s true) hfab, h1, h2.trans (advance_complete_reqs ..), h3⟩
  case jdidReadSoft =>
    intro s t j l hfab hj hread hlo hcount hm he
    obtain ⟨h1, h2, h3⟩ := jrnDone_reads (s := advance s t) hj hread hcount hm he
    refine ⟨_, atFabric_up s t (fun s => jrnDone s true) hfab, fun k hk => ?_, h2.trans (advance_complete_reqs ..), h3⟩
    rw [show j.off - 0x2000000 + k = j.off + k - 0x2000000 by omega]
    exact (h1 k hk).trans (jrnByte_software (by omega))
  case jfailed =>
    intro s t j l hfab hj
    obtain ⟨h1, h2, hw⟩ := jrnDone_fails (s := advance s t) hj
    exact ⟨_, atFabric_up s t (fun s => jrnDone s false) hfab, h1, h2.trans (advance_complete_reqs ..), hw.blocksOnly, hw.eq_frame⟩
  case jovf =>
    intro s t hfab hfull hturn hkey
    have h := jovfCopy_batch (s := advance s t) hfull hturn hkey
    refine ⟨jovfCopy (advance s t), atFabric_up s t jovfCopy hfab, ?_, ?_, ?_, ?_⟩
    · exact congrArg (fun u : State => u.log.copied) h
    · exact congrArg (fun u : State => u.log.losing) h
    · exact (congrArg (fun u : State => u.log.events) h :)
    · rw [show (jovfCopy (advance s t)).log.copied = s.log.copied + 128 from congrArg (fun u : State => u.log.copied) h]
      exact h
  case jovfWaits =>
    intro s t hfab hfew
    refine (atFabric_up s t jovfCopy hfab).trans (congrArg _ (if_pos (.inl ?_)))
    show min 128 (s.log.written - s.log.copied) < 128
    omega

/-- Settles O55: the clauses of O35 and O36, less their frames. -/
theorem storageComplete : Obligations.StorageComplete := by
  obtain ⟨-, mapped, -, -, -, cached, -, -, -, -, write, -, -, clean, -, -, due, loaded, -, flushed, -, refresh⟩ := mappingAndTiles
  obtain ⟨read, -, -, swrite, -, -, -, -, wrote, -, life, -, dayEnd, inline, jwrite, -, jread, -, jwrote, -, -, -, jovf, -⟩ :=
    storeAndJournal
  unfold Obligations.StorageComplete
  refine ⟨?_, ?_, ?_, ?_, ?_, loaded, flushed, ?_, ?_, ?_, ?_, ?_, ?_, ?_, ?_, ?_, ?_, ?_⟩
  · intro s t x l b a e h1 h2 h3 h4 h5 h6 h7 h8 h9 h10 h11
    obtain ⟨u, hu, -, -, hrun, hlast, -⟩ := mapped s t x l b a e h1 h2 h3 h4 h5 h6 h7 h8 h9 h10 h11
    exact ⟨u, hu, hrun, hlast⟩
  · intro s t r d k c h1 h2 h3 h4 h5 h6
    exact ⟨_, cached s t r d k c h1 h2 h3 h4 h5 h6, complete_reqs_congr (touchSlot_within.reqs.resolve_left (by simp)) _ _ _ _⟩
  · intro s t r d img k c h1 h2 h3 h4 h5 h6 h7 h8 h9 h10 h11
    obtain ⟨u, hu, hslot, -⟩ := write s t r d img k c h1 h2 h3 h4 h5 h6 h7 h8 h9 h10 h11
    exact ⟨u, hu, hslot⟩
  · exact fun s t r d h1 h2 h3 h4 h5 h6 => ⟨_, clean s t r d h1 h2 h3 h4 h5 h6, rfl⟩
  · exact fun s t k c a h1 h2 h3 h4 h5 h6 h7 => ⟨_, due s t k c a h1 h2 h3 h4 h5 h6 h7, tblGet?_set_self _ _ _⟩
  · intro s t id x h1 h2 h3 h4 h5 h6
    exact ⟨_, refresh s t id x h1 h2 h3 h4 h5 h6, tblGet?_set_self _ _ _, rfl⟩
  · exact fun s t r d h1 h2 h3 h4 h5 h6 h7 h8 h9 h10 => ⟨_, read s t r d h1 h2 h3 h4 h5 h6 h7 h8 h9 h10, rfl⟩
  · intro s t r d l h1 h2 h3 h4 h5 h6 h7 h8 h9 h10 h11
    obtain ⟨u, hu, hjobs, -⟩ := swrite s t r d l h1 h2 h3 h4 h5 h6 h7 h8 h9 h10 h11
    exact ⟨u, hu, hjobs⟩
  · intro s t j l n m x h1 h2 h3 h4
    obtain ⟨u, hu, hbytes, -, -, hreqs, -⟩ := wrote s t j l n m x h1 h2 h3 h4
    exact ⟨u, hu, hbytes, hreqs⟩
  · intro s t a b e h1 h2 h3
    refine ⟨_, life s t a b e h1 h2 h3, ?_, ?_, rget_rset_self _ _ _ _ _⟩
    all_goals simp (disch := decide) only [rget_rset_ne, rget_rset_self]
  · intro s t a h1 h2 h3
    exact ⟨_, dayEnd s t a h1 h2 h3, rfl, rfl, rget_rset_self _ _ _ _ _⟩
  · intro s t r d h1 h2 h3 h4 h5 h6 h7 h8 h9
    obtain ⟨u, hu, -, -, hjobs, -⟩ := inline s t r d h1 h2 h3 h4 h5 h6 h7 h8 h9
    exact ⟨u, hu, hjobs⟩
  · intro s t r d x h1 h2 h3 h4 h5 h6 h7 h8 h9 h10
    obtain ⟨u, hu, -, -, hjobs, -⟩ := jwrite s t r d x h1 h2 h3 h4 h5 h6 h7 h8 h9 h10
    exact ⟨u, hu, hjobs⟩
  · exact fun s t r d h1 h2 h3 h4 h5 h6 h7 h8 => ⟨_, jread s t r d h1 h2 h3 h4 h5 h6 h7 h8, rfl⟩
  · intro s t j l h1 h2 h3 h4 h5 h6
    obtain ⟨u, hu, hbytes, -, hreqs, -⟩ := jwrote s t j l h1 h2 h3 h4 h5 h6
    exact ⟨u, hu, hbytes, hreqs⟩
  · intro s t h1 h2 h3 h4
    obtain ⟨u, hu, hcopied, hlosing, -⟩ := jovf s t h1 h2 h3 h4
    exact ⟨u, hu, hcopied, hlosing⟩

end Sys2Proof.Machine
end

section
/-! Camera ports: what line slots leave of the ports, frames that start, their lines and their ends, and O37. -/

namespace Sys2Proof.Machine

variable {s u : State} {t : Fc}

theorem moduleTime_of (hnow : u.now = s.now) (hoff : u.timeOff = s.timeOff) (hnav : u.nav = s.nav) : moduleTime u = moduleTime s :=
  moduleTime_congr hnow (by rw [hoff, hnow, slewed_congr (congrArg (·.slew) hnav) (congrArg (·.slewFrom) hnav)])

theorem Within.blocksIn {ps : List Part} {l m : List Blk} (h : Within ps (blks l) s u) (hlm : (blks l).all (· ∈ blks m) = true) :
    BlocksOnly s u m := fun k hk => h.blocks k fun hc => hk (covered hlm hc)

/-! ### The table of ports -/

theorem getCam_congr (h : u.vis.cams = s.vis.cams) (p : Nat) : getCam u p = getCam s p := by
  unfold getCam
  rw [h]

theorem getCam_modCam (s : State) (p q : Nat) (f : Cam → Cam) :
    getCam (modCam s p f) q = if q = p then f (getCam s p) else getCam s q := tblGetD_set _ _ _ _ _

@[simp] theorem getCam_modCam_self (s : State) (p : Nat) (f : Cam → Cam) : getCam (modCam s p f) p = f (getCam s p) := by
  rw [getCam_modCam, if_pos rfl]

theorem getCam_modCam_ne (s : State) {p q : Nat} (f : Cam → Cam) (h : q ≠ p) : getCam (modCam s p f) q = getCam s q := by
  rw [getCam_modCam, if_neg h]

theorem getCam_of_vis {ps : List Part} {bs : List Nat} (h : Within ps bs s u) (hp : Part.vis ∉ ps) (p : Nat) :
    getCam u p = getCam s p :=
  getCam_congr (by rw [h.vis.resolve_left hp]) p

/-! ### Line slots -/

/-- What line slots change of the ports: how many lines of the frames are processed. -/
structure LinesRun (s u : State) : Prop where
  other : ∀ p, p ≠ 0 → getCam u p = getCam s p
  zero : getCam u 0 = { getCam s 0 with cur := (getCam u 0).cur, ready := (getCam u 0).ready }
  cur : ((getCam u 0).cur).isSome = ((getCam s 0).cur).isSome
  isp : u.vis.isp.map (fun x => (x.1, x.2.slot)) = s.vis.isp.map fun x => (x.1, x.2.slot)

theorem LinesRun.refl (s : State) : LinesRun s s := ⟨fun _ _ => rfl, rfl, rfl, rfl⟩

theorem LinesRun.trans {v : State} (h : LinesRun s u) (k : LinesRun u v) : LinesRun s v :=
  ⟨fun p hp => (k.other p hp).trans (h.other p hp), by rw [k.zero, h.zero], k.cur.trans h.cur, k.isp.trans h.isp⟩

theorem lineBegin_eq (s : State) (n : Nat) : lineBegin s n = { s with vis := { s.vis with slot := (lineBegin s n).vis.slot } } := by
  unfold lineBegin
  split <;> rfl

theorem lineBegin_getCam (s : State) (n p : Nat) : getCam (lineBegin s n) p = getCam s p := by
  rw [lineBegin_eq]
  rfl

theorem lineBegin_isp (s : State) (n : Nat) : (lineBegin s n).vis.isp = s.vis.isp := by
  rw [lineBegin_eq]

theorem lineBegin_linesRun (s : State) (n : Nat) : LinesRun s (lineBegin s n) := by
  rw [lineBegin_eq]
  exact ⟨fun _ _ => rfl, rfl, rfl, rfl⟩

theorem lineEnd_linesRun (s : State) (l : LineSlot) : LinesRun s (lineEnd s l) := by
  unfold lineEnd
  dsimp only
  split
  · refine ⟨fun p hp => getCam_modCam_ne _ _ hp, ?_, ?_, rfl⟩
    · rw [getCam_modCam_self]
      rfl
    · rw [getCam_modCam_self]
      exact Option.isSome_map
  · refine ⟨fun _ _ => rfl, rfl, rfl, ?_⟩
    show (s.vis.isp.map _).map _ = _
    rw [Option.map_map]
    congr 1
    funext x
    dsimp only [Function.comp]
    split
    · split <;> rfl
    · rfl

theorem runLines_linesRun (fuel : Nat) (s : State) : LinesRun s (runLines fuel s) := by
  induction fuel generalizing s with
  | zero => exact .refl s
  | succ fuel ih =>
    unfold runLines
    split
    · split
      · exact ((lineEnd_linesRun s _).trans (lineBegin_linesRun _ _)).trans (ih _)
      · exact .refl s
    · exact .refl s

theorem ispNow_linesRun (s : State) : LinesRun s (ispNow s) := runLines_linesRun _ _

theorem LinesRun.cur_none (h : LinesRun s u) {p : Nat} (hc : (getCam s p).cur = none) : (getCam u p).cur = none := by
  obtain rfl | hp := eq_or_ne p 0
  · rw [← Option.not_isSome_iff_eq_none, h.cur, hc]
    decide
  · rw [h.other p hp, hc]

/-- What a port is, but for the frame being received and those that wait for the ISP. -/
theorem LinesRun.cam (h : LinesRun s u) (p : Nat) :
    getCam u p = { getCam s p with cur := (getCam u p).cur, ready := (getCam u p).ready } := by
  obtain rfl | hp := eq_or_ne p 0
  · exact h.zero
  · rw [h.other p hp]

/-! ### Commands to the ports -/

/-- The state after a command to the ports or the ISP: a line slot begins where a line waits. -/
def lineAfter (v : State) : State := lineBegin v v.now

theorem atVision_up (t : Fc) (f : State → State) (h : s.fabric = true) :
    atVision t f s = .next (lineAfter (f (ispNow (advance s t)))) :=
  atFabric_up s t (fun s => lineAfter (f (ispNow s))) h

theorem lineAfter_getCam (v : State) (p : Nat) : getCam (lineAfter v) p = getCam v p := lineBegin_getCam _ _ _

theorem lineAfter_isp (v : State) : (lineAfter v).vis.isp = v.vis.isp := lineBegin_isp _ _

theorem lineAfter_rget (v : State) (f : Fld) (i j : Nat) : rget (lineAfter v) f i j = rget v f i j :=
  lineBegin_within.rget f i j (by simp)

/-- What a command to the ports or the ISP changes. -/
theorem lineAfter_within {ps : List Part} {bs : List Nat} {v : State} (h : Within ps bs (ispNow s) v)
    (hp : [Part.vis].all (· ∈ ps) = true) : Within ps bs s (lineAfter v) :=
  lineBegin_within.step (h.step (ispNow_within.mono hp (by simp)) (by simp) (by simp)) hp (by simp)

theorem lineAfter_regsOnly {v w : State} {l : List Nat} (hv : v.regs = s.regs) (h : RegsOnly v w l) : RegsOnly s (lineAfter w) l :=
  fun k hk => by
    have hregs : (lineAfter w).regs = w.regs := lineBegin_within.regs.resolve_left (by simp)
    rw [hregs, h k hk, hv]

theorem ispNow_now (s : State) : (ispNow s).now = s.now := ispNow_within.now.resolve_left (by simp)

theorem ispNow_moduleTime (s : State) : moduleTime (ispNow s) = moduleTime s :=
  moduleTime_of (ispNow_now s) (ispNow_within.timeOff.resolve_left (by simp)) (ispNow_within.nav.resolve_left (by simp))

theorem ispNow_rget (s : State) (f : Fld) (i j : Nat) : rget (ispNow s) f i j = rget s f i j :=
  ispNow_within.rget f i j (by simp)

/-- A packet that the port accepts. -/
theorem camPacket_taken {p hdr : Nat} {own : Bool} {f : State → State} (hon : camOn s p = true)
    (hlink : rbit s R.CAM_CTRL_LINK_UP p = true) (hh : hdr ≠ 2) :
    camPacket s p hdr true own f =
      f (if hdr = 0 ∨ (hdr = 1 ∧ own) then s else modCur s p fun g => { g with hdrErrs := min (g.hdrErrs + 1) 65535 }) := by
  unfold camPacket
  rw [hon, hlink]
  simp [hh]

theorem modCur_cam (s : State) (p : Nat) (f : CamFrame → CamFrame) :
    getCam (modCur s p f) p = { getCam s p with cur := (getCam s p).cur.map f } := getCam_modCam_self _ _ _

theorem modCur_none {p : Nat} {f : CamFrame → CamFrame} (h : (getCam s p).cur = none) : getCam (modCur s p f) p = getCam s p := by
  rw [modCur_cam, h]
  exact congrArg (fun c => { getCam s p with cur := c }) h.symm

/-! ### Frames that start -/

theorem closeFrame_none {p : Nat} {mark : CamFrame → CamFrame} (h : (getCam s p).cur = none) : closeFrame s p mark = s := by
  unfold closeFrame
  dsimp only
  rw [h]

theorem closeFrame_some {p : Nat} {mark : CamFrame → CamFrame} {f : CamFrame} (h : (getCam s p).cur = some f) :
    getCam (closeFrame s p mark) p = { getCam s p with
      cur := none
      ready := if f.kept then (getCam s p).ready ++ [mark { f with feTime := moduleTime s, feAt := s.now }]
        else (getCam s p).ready } := by
  unfold closeFrame
  dsimp only
  rw [h]
  exact getCam_modCam_self _ _ _

theorem closeFrame_cur (s : State) (p : Nat) (mark : CamFrame → CamFrame) : (getCam (closeFrame s p mark) p).cur = none := by
  cases h : (getCam s p).cur with
  | none => rw [closeFrame_none h, h]
  | some f => rw [closeFrame_some h]

theorem closeFrame_isp (s : State) (p : Nat) (mark : CamFrame → CamFrame) : (closeFrame s p mark).vis.isp = s.vis.isp := by
  unfold closeFrame
  dsimp only
  split <;> rfl

theorem start_congr (hnow : u.now = s.now) (hoff : u.timeOff = s.timeOff) (hnav : u.nav = s.nav) (n csi hdr : Nat) :
    CamFrame.start u n csi hdr = CamFrame.start s n csi hdr := by
  unfold CamFrame.start
  rw [moduleTime_of hnow hoff hnav]

theorem slotsUsed_eq (s : State) (p : Nat) : slotsUsed s p = ((getCam s p).cur.toList ++ (getCam s p).ready).filterMap (·.slot) ++
    ((s.vis.isp.map fun x => (x.1, x.2.slot)).toList.filterMap fun x => if x.1 = p then x.2 else none) := by
  unfold slotsUsed
  rw [List.filterMap_append]
  congr 1
  cases s.vis.isp with
  | none => rfl
  | some x =>
    obtain ⟨q, f⟩ := x
    show (if q = p then [f] else []).filterMap _ = [(q, f.slot)].filterMap _
    by_cases h : q = p
    · rw [if_pos h, List.filterMap_cons, List.filterMap_cons, if_pos h]
      rfl
    · rw [if_neg h, List.filterMap_cons, if_neg h]
      rfl

theorem nextSlot_congr {p : Nat} (hcount : rget u R.CAM_RAW_SLOT_SLOT_COUNT p = rget s R.CAM_RAW_SLOT_SLOT_COUNT p)
    (hat : (getCam u p).slotAt = (getCam s p).slotAt) (hused : ∀ k, k ∈ slotsUsed u p ↔ k ∈ slotsUsed s p) :
    nextSlot u p = nextSlot s p := by
  unfold nextSlot
  dsimp only
  rw [hcount, hat]
  congr 1
  funext k
  rw [Bool.not_inj_iff, Bool.eq_iff_iff, List.contains_iff_mem, List.contains_iff_mem]
  exact hused k

/-- A frame that closes keeps its slot, so the slot next in ring order stands. -/
theorem nextSlot_closeFrame {p : Nat} {mark : CamFrame → CamFrame} (hmark : ∀ f, (mark f).slot = f.slot)
    (hkept : ∀ f, (getCam s p).cur = some f → f.kept = true) : nextSlot (closeFrame s p mark) p = nextSlot s p := by
  cases h : (getCam s p).cur with
  | none => rw [closeFrame_none h]
  | some f =>
    refine nextSlot_congr (closeFrame_within.rget _ _ _ (by simp)) (by rw [closeFrame_some h]) fun k => ?_
    rw [slotsUsed_eq, slotsUsed_eq, closeFrame_isp, closeFrame_some h, h, if_pos (hkept f h)]
    simp only [Option.toList_none, Option.toList_some, List.nil_append, List.filterMap_append, List.mem_append,
      List.mem_filterMap, List.mem_singleton, exists_eq_left, hmark]
    exact or_congr_left or_comm

theorem nextSlot_linesRun (h : LinesRun s u) (hregs : u.regs = s.regs) {p : Nat} (hp : p ≠ 0) : nextSlot u p = nextSlot s p :=
  nextSlot_congr (by unfold rget; rw [hregs]) (by rw [h.other p hp]) fun k => by
    rw [slotsUsed_eq, slotsUsed_eq, h.other p hp, h.isp]

/-- The state in which a frame of a port has begun, all but its slot or CAPTURE. -/
def frameBegun (s : State) (p : Nat) : State :=
  rset (modCam (closeFrame s p fun f => { f with noFe := true }) p fun c => { c with next := (c.next + 1) % 2 ^ 32 })
    R.CAM_FRAME_FRAME_NO (getCam (closeFrame s p fun f => { f with noFe := true }) p).next p

theorem closeFrame_next (s : State) (p : Nat) (mark : CamFrame → CamFrame) :
    (getCam (closeFrame s p mark) p).next = (getCam s p).next := by
  cases h : (getCam s p).cur with
  | none => rw [closeFrame_none h]
  | some f => rw [closeFrame_some h]

theorem frameBegun_within {p : Nat} : Within [.regs, .vis] (blks [.cam]) s (frameBegun s p) :=
  rset_within.step (modCam_within.step (closeFrame_within.step (.refl _) rfl rfl) rfl rfl) rfl rfl

theorem frameBegun_cam (s : State) (p : Nat) : getCam (frameBegun s p) p =
    { getCam (closeFrame s p fun f => { f with noFe := true }) p with next := ((getCam s p).next + 1) % 2 ^ 32 } := by
  rw [← closeFrame_next s p fun f => { f with noFe := true }]
  exact getCam_modCam_self (closeFrame s p fun f => { f with noFe := true }) p
    fun c => { c with next := (c.next + 1) % 2 ^ 32 }

theorem frameBegun_no (s : State) (p : Nat) : rget (frameBegun s p) R.CAM_FRAME_FRAME_NO p = (getCam s p).next % 2 ^ 32 := by
  rw [← closeFrame_next s p fun f => { f with noFe := true }]
  exact rget_rset_self _ _ _ _ _

theorem frameBegun_nextSlot (s : State) (p : Nat) :
    nextSlot (frameBegun s p) p = nextSlot (closeFrame s p fun f => { f with noFe := true }) p := by
  have hc := frameBegun_cam s p
  refine nextSlot_congr (rget_rset_ne _ _ _ _ _ _ (by decide)) (by rw [hc]) fun k => ?_
  rw [slotsUsed_eq, slotsUsed_eq, hc]
  rfl

/-- The frame that starts on a port. -/
def frameNew (s : State) (p csi hdr : Nat) : CamFrame := CamFrame.start s (getCam s p).next csi hdr

theorem frameNew_closeFrame (s : State) (p csi hdr : Nat) (mark : CamFrame → CamFrame) :
    CamFrame.start (closeFrame s p mark) (getCam (closeFrame s p mark) p).next csi hdr = frameNew s p csi hdr := by
  have hw : Within [.vis] [] s (closeFrame s p mark) := closeFrame_within
  rw [closeFrame_next, frameNew]
  exact start_congr (hw.now.resolve_left (by simp)) (hw.timeOff.resolve_left (by simp)) (hw.nav.resolve_left (by simp)) _ _ _

theorem camFs_memory {p : Nat} (hp : p ≠ 0) (csi hdr : Nat) :
    camFs s p csi hdr = ispView (takeSlot (frameBegun s p) p (frameNew s p csi hdr)) := by
  rw [← frameNew_closeFrame s p csi hdr fun f => { f with noFe := true }]
  exact if_pos hp

theorem rinc_getCam (s : State) (f : Fld) (n i j p : Nat) : getCam (rinc s f n i j) p = getCam s p := rfl

theorem ispView_getCam (s : State) (p : Nat) : getCam (ispView s) p = getCam s p := rfl

theorem camFs_memory_within {p : Nat} (hp : p ≠ 0) (csi hdr : Nat) : Within [.regs, .vis] (blks [.isp, .cam]) s (camFs s p csi hdr) := by
  rw [camFs_memory hp]
  exact ispView_within.step (takeSlot_within.step (frameBegun_within.mono rfl rfl) rfl rfl) rfl rfl

theorem frameNew_ispNow (s : State) (p csi hdr : Nat) : frameNew (ispNow s) p csi hdr = frameNew s p csi hdr := by
  have hw : Within [.vis] [] s (ispNow s) := ispNow_within
  unfold frameNew
  rw [(ispNow_linesRun s).cam p]
  exact start_congr (hw.now.resolve_left (by simp)) (hw.timeOff.resolve_left (by simp)) (hw.nav.resolve_left (by simp)) _ _ _

/-- A frame of CAM1–CAM3 for which a slot is free. -/
theorem camFs_slot {p k csi hdr : Nat} (hp : p ≠ 0) (hk : nextSlot (closeFrame s p fun f => { f with noFe := true }) p = some k) :
    (getCam (camFs s p csi hdr) p).cur = some { frameNew s p csi hdr with slot := some k, kept := true } ∧
      (getCam (camFs s p csi hdr) p).next = ((getCam s p).next + 1) % 2 ^ 32 ∧
      rget (camFs s p csi hdr) R.CAM_FRAME_FRAME_NO p = (getCam s p).next % 2 ^ 32 ∧
      (getCam (camFs s p csi hdr) p).ready = (getCam (closeFrame s p fun f => { f with noFe := true }) p).ready := by
  have hc := frameBegun_cam s p
  rw [camFs_memory hp]
  unfold takeSlot
  dsimp only
  rw [frameBegun_nextSlot, hk]
  dsimp only
  rw [ispView_getCam, getCam_modCam_self, hc]
  refine ⟨rfl, rfl, ?_, rfl⟩
  exact (ispView_within.rget R.CAM_FRAME_FRAME_NO p 0 (by decide)).trans (frameBegun_no s p)

/-- A frame of CAM1–CAM3 that finds no slot. -/
theorem camFs_noSlot {p csi hdr : Nat} (hp : p ≠ 0) (hcur : (getCam s p).cur = none) (hk : nextSlot s p = none)
    (hready : (getCam s p).ready = []) :
    (getCam (camFs s p csi hdr) p).cur = some (frameNew s p csi hdr) ∧
      (getCam (camFs s p csi hdr) p).next = ((getCam s p).next + 1) % 2 ^ 32 ∧
      rget (camFs s p csi hdr) R.CAM_FRAME_FRAME_NO p = (getCam s p).next % 2 ^ 32 ∧
      rget (camFs s p csi hdr) R.CAM_DROPS_NO_SLOT p = satTo R.CAM_DROPS_NO_SLOT.width (rget s R.CAM_DROPS_NO_SLOT p + 1) := by
  have hc := frameBegun_cam s p
  rw [closeFrame_none hcur] at hc
  rw [camFs_memory hp]
  unfold takeSlot
  dsimp only
  rw [frameBegun_nextSlot, closeFrame_none hcur, hk, hc, hready]
  dsimp only
  refine ⟨?_, ?_, ?_, ?_⟩
  · rw [ispView_getCam, rinc_getCam, getCam_modCam_self]
  · rw [ispView_getCam, rinc_getCam, getCam_modCam_self, hc]
  · refine (ispView_within.rget R.CAM_FRAME_FRAME_NO p 0 (by decide)).trans ((rget_rset_ne _ _ _ _ _ _ (by decide)).trans (frameBegun_no s p))
  · refine (ispView_within.rget R.CAM_DROPS_NO_SLOT p 0 (by decide)).trans ((rget_rinc_self _ _ _ _ _).trans ?_)
    rw [show rget (modCam (frameBegun s p) p _) R.CAM_DROPS_NO_SLOT p 0 = rget s R.CAM_DROPS_NO_SLOT p from
      (rget_rset_ne _ _ _ _ _ _ (by decide)).trans (closeFrame_within.rget _ _ _ (by simp))]

/-- A frame of CAM0 without a CAPTURE. -/
theorem camFs_noJob {csi hdr : Nat} (hcur : (getCam s 0).cur = none) (hjobs : (getCam s 0).jobs = []) :
    (getCam (camFs s 0 csi hdr) 0).cur = some (frameNew s 0 csi hdr) ∧
      rget (camFs s 0 csi hdr) R.CAM_LOSS_NO_JOB 0 = satTo R.CAM_LOSS_NO_JOB.width (rget s R.CAM_LOSS_NO_JOB 0 + 1) ∧
      Within [.regs, .vis] (blks [.cam]) s (camFs s 0 csi hdr) := by
  have hc := frameBegun_cam s 0
  rw [closeFrame_none hcur] at hc
  have h : camFs s 0 csi hdr = rinc (modCam (frameBegun s 0) 0 fun c => { c with cur := some (frameNew s 0 csi hdr) })
      R.CAM_LOSS_NO_JOB 1 0 := by
    rw [← frameNew_closeFrame s 0 csi hdr fun f => { f with noFe := true }]
    have hj : (getCam (frameBegun s 0) 0).jobs = [] := by rw [hc, hjobs]
    unfold camFs
    dsimp only
    rw [if_neg (fun h => h rfl)]
    split
    · rfl
    · next hr => exact absurd (hj.symm.trans hr) (List.cons_ne_nil _ _).symm
  rw [h]
  refine ⟨?_, ?_, ?_⟩
  · rw [rinc_getCam, getCam_modCam_self]
  · refine (rget_rinc_self _ _ _ _ _).trans ?_
    rw [show rget (modCam (frameBegun s 0) 0 _) R.CAM_LOSS_NO_JOB 0 0 = rget s R.CAM_LOSS_NO_JOB 0 from
      (rget_rset_ne _ _ _ _ _ _ (by decide)).trans (closeFrame_within.rget _ _ _ (by simp))]
  · exact rinc_within.step (modCam_within.step (frameBegun_within.mono rfl rfl) rfl rfl) rfl rfl

theorem ispView_busy_bound {f : CamFrame} (hc : (getCam s 0).cur = some f) (hk : f.kept = true) :
    rget (ispView s) R.ISP_STAT_BUSY = 1 := by
  unfold ispView
  dsimp only
  rw [hc]
  dsimp only
  rw [hk, Bool.or_true, Bool.true_or]
  exact rget_rset_self _ _ _ _ _

theorem ispView_port (s : State) : rget (ispView s) R.ISP_STAT_CUR_PORT = rget s R.ISP_STAT_CUR_PORT := by
  unfold ispView rsetB
  simp (disch := decide) only [rget_rset_ne]

/-- A frame of CAM0 takes the CAPTURE fetched first. -/
theorem camFs_job {csi hdr : Nat} {r : Ref} {l : List Ref} (hcur : (getCam s 0).cur = none) (hjobs : (getCam s 0).jobs = r :: l) :
    (getCam (camFs s 0 csi hdr) 0).cur.map (·.ref) = some (some r) ∧ (getCam (camFs s 0 csi hdr) 0).jobs = l ∧
      rget (camFs s 0 csi hdr) R.CAM_FRAME_FRAME_NO 0 = (getCam s 0).next % 2 ^ 32 ∧
      rget (camFs s 0 csi hdr) R.ISP_STAT_CUR_PORT = 0 ∧ rget (camFs s 0 csi hdr) R.ISP_STAT_BUSY = 1 := by
  have hc := frameBegun_cam s 0
  rw [closeFrame_none hcur] at hc
  have hj : (getCam (frameBegun s 0) 0).jobs = r :: l := by rw [hc, hjobs]
  obtain ⟨n, f, hf, v, h, hv⟩ : ∃ (n : Nat) (f : CamFrame), f.kept = true ∧ ∃ v, v = paramsStart (frameBegun s 0) 0 n ∧ camFs s 0 csi hdr =
      ispView (rset (modCam v 0 fun c => { c with jobs := l, cur := some { f with ref := some r } }) R.ISP_STAT_CUR_PORT 0) := by
    refine ⟨(getCam (closeFrame s 0 fun f => { f with noFe := true }) 0).next,
      { CamFrame.start (closeFrame s 0 fun f => { f with noFe := true })
          (getCam (closeFrame s 0 fun f => { f with noFe := true }) 0).next csi hdr with
        kept := true
        params := (getCam (paramsStart (frameBegun s 0) 0
          (getCam (closeFrame s 0 fun f => { f with noFe := true }) 0).next) 0).live.map (·.1) }, rfl, _, rfl, ?_⟩
    unfold camFs
    dsimp only
    rw [if_neg (fun h => h rfl)]
    split
    · next hr => exact absurd (hj.symm.trans hr) (List.cons_ne_nil _ _)
    · next r' l' hr =>
      obtain ⟨rfl, rfl⟩ := List.cons.inj (hj.symm.trans hr)
      rfl
  have hw : Within [.reqs, .till, .vis] [] (frameBegun s 0) v := h ▸ paramsStart_within
  rw [hv]
  have hcam : getCam (ispView (rset (modCam v 0 fun c => { c with jobs := l, cur := some { f with ref := some r } })
      R.ISP_STAT_CUR_PORT 0)) 0 = { getCam v 0 with jobs := l, cur := some { f with ref := some r } } :=
    getCam_modCam_self v 0 fun c => { c with jobs := l, cur := some { f with ref := some r } }
  refine ⟨by rw [hcam]; rfl, by rw [hcam], ?_, ?_, ?_⟩
  · refine (ispView_within.rget R.CAM_FRAME_FRAME_NO 0 0 (by decide)).trans ?_
    rw [rget_rset_ne _ _ _ _ _ _ (by decide)]
    exact (hw.rget _ _ _ (by simp)).trans (frameBegun_no s 0)
  · rw [ispView_port, rget_rset_self]
    rfl
  · exact ispView_busy_bound (congrArg Cam.cur hcam) hf

/-! ### Lines -/

/-- The port after the header of a packet that counts in the frame being received: `h` is 1 where it was corrected. -/
def hdrSeen (s : State) (p h : Nat) : State :=
  if h = 0 then s else modCur s p fun g => { g with hdrErrs := min (g.hdrErrs + 1) 65535 }

theorem camPacket_seen {p hdr : Nat} {f : State → State} (hon : camOn s p = true) (hlink : rbit s R.CAM_CTRL_LINK_UP p = true)
    (hh : hdr ≠ 2) : camPacket s p hdr true false f = f (hdrSeen s p hdr) := by
  rw [camPacket_taken hon hlink hh]
  simp [hdrSeen]

theorem hdrSeen_within {p h : Nat} : Within [.vis] [] s (hdrSeen s p h) := within_ite (.refl _) modCur_within

theorem hdrSeen_cam (s : State) (p h : Nat) : getCam (hdrSeen s p h) p = { getCam s p with cur := (getCam s p).cur.map fun f =>
    if h = 0 then f else { f with hdrErrs := min (f.hdrErrs + 1) 65535 } } := by
  unfold hdrSeen
  split
  · rw [Option.map_id']
  · exact modCur_cam _ _ _

theorem zeroFrames_waiting_eq (s : State) (w : CamFrame → Nat) (h : Nat)
    (hw : ∀ f e, w { f with hdrErrs := e } = w f) :
    ((zeroFrames (hdrSeen s 0 h)).map w) = (zeroFrames s).map w := by
  unfold zeroFrames
  dsimp only
  rw [hdrSeen_cam]
  cases (getCam s 0).cur with
  | none => rfl
  | some f =>
    rw [List.filter_append, List.filter_append, List.map_append, List.map_append]
    congr 1
    by_cases hh : h = 0
    · simp [hh]
    · cases hk : f.kept
      · simp [hh, hk]
      · simpa [hh, hk] using hw f _

theorem bufLevel_hdrSeen (s : State) (p h : Nat) : bufLevel (hdrSeen s p h) p = bufLevel s p := by
  have hr : ∀ f i j, rget (hdrSeen s p h) f i j = rget s f i j := fun f i j => hdrSeen_within.rget f i j (by simp)
  unfold bufLevel
  split
  · next hp =>
    subst hp
    have hmap := zeroFrames_waiting_eq s (fun f => f.rows.length - f.done) h fun _ _ => rfl
    rw [show camWidth (hdrSeen s 0 h) 0 = camWidth s 0 from hr _ _ _,
      show rawBytes (hdrSeen s 0 h) 0 = rawBytes s 0 by unfold rawBytes; rw [hr],
      ← List.foldl_map (f := fun f : CamFrame => f.rows.length - f.done) (g := fun n x => n + x * camWidth s 0 * rawBytes s 0),
      ← List.foldl_map (f := fun f : CamFrame => f.rows.length - f.done) (g := fun n x => n + x * camWidth s 0 * rawBytes s 0), hmap]
  · rw [hdrSeen_cam]

/-- A line counts with a good or a bad checksum. -/
def crcSeen (ok : Bool) (g : CamFrame) : CamFrame := if ok then g else { g with crcLines := min (g.crcLines + 1) 65535 }

/-- A line that the frame takes. -/
def lineTaken (ok keep : Bool) (w : Nat) (px : List Nat) (g : CamFrame) : CamFrame :=
  crcSeen ok { g with
    received := g.received + 1, rows := if keep then px.take w :: g.rows else g.rows,
    lineErrs := if px.length = w then g.lineErrs else min (g.lineErrs + 1) 65535 }

/-- A line that the frame loses. -/
def lineLost (ok : Bool) (g : CamFrame) : CamFrame := crcSeen ok { g with received := g.received + 1, lost := g.lost + 1 }

theorem lineTaken_eq (ok keep : Bool) (w : Nat) (px : List Nat) (g : CamFrame) : lineTaken ok keep w px g = { g with
    received := g.received + 1, rows := if keep then px.take w :: g.rows else g.rows
    lineErrs := if px.length = w then g.lineErrs else min (g.lineErrs + 1) 65535
    crcLines := if ok then g.crcLines else min (g.crcLines + 1) 65535 } := by
  cases ok <;> rfl

theorem lineLost_eq (ok : Bool) (g : CamFrame) : lineLost ok g = { g with
    received := g.received + 1, lost := g.lost + 1, crcLines := if ok then g.crcLines else min (g.crcLines + 1) 65535 } := by
  cases ok <;> rfl

section
variable {p : Nat} {f : CamFrame} (hcur : (getCam s p).cur = some f) (ok : Bool) (px : List Nat)
include hcur

theorem takeLine_long (h : camHeight s p ≤ f.received) : takeLine s p ok px = modCur s p fun g => { g with long := true } := by
  unfold takeLine
  rw [hcur]
  exact if_pos h

theorem takeLine_lost (h : f.received < camHeight s p) (hovf : f.ovf = true) :
    takeLine s p ok px = modCur s p (lineLost ok) := by
  unfold takeLine
  rw [hcur]
  exact (if_neg (by omega)).trans (if_pos hovf)

theorem takeLine_overflow (h : f.received < camHeight s p) (hovf : f.ovf = false) (hkept : f.kept = true)
    (hroom : bufSize - bufLevel s p < (rawLine (rawBytes s p) (px.take (camWidth s p))).length) :
    takeLine s p ok px = modCur (camOverflow (match f.slot with
      | some k => bufLine s p k f.received ((rawLine (rawBytes s p) (px.take (camWidth s p))).take (bufSize - bufLevel s p))
      | none => s) p) p (lineLost ok) := by
  unfold takeLine
  rw [hcur]
  exact (if_neg (by omega)).trans ((if_neg (by rw [hovf]; decide)).trans
    (if_pos (by rw [hkept, decide_eq_true hroom]; rfl)))

theorem takeLine_taken (h : f.received < camHeight s p) (hovf : f.ovf = false)
    (hroom : f.kept = false ∨ (rawLine (rawBytes s p) (px.take (camWidth s p))).length ≤ bufSize - bufLevel s p) :
    takeLine s p ok px = match f.slot with
      | some k => bufLine (modCur s p (lineTaken ok f.kept (camWidth s p) px)) p k f.received
        (rawLine (rawBytes s p) (px.take (camWidth s p)))
      | none => modCur s p (lineTaken ok f.kept (camWidth s p) px) := by
  unfold takeLine
  rw [hcur]
  refine (if_neg (by omega)).trans ((if_neg (by rw [hovf]; decide)).trans (if_neg ?_))
  obtain hk | hk := hroom
  · rw [hk]
    simp
  · simp only [Bool.and_eq_true, decide_eq_true_eq, not_and, not_lt]
    exact fun _ => hk

end

/-- What a line that the frame takes leaves of the port. -/
theorem takeLine_taken_fields {p : Nat} {f : CamFrame} (hcur : (getCam s p).cur = some f) (ok : Bool) (px : List Nat)
    (h : f.received < camHeight s p) (hovf : f.ovf = false)
    (hroom : f.kept = false ∨ (rawLine (rawBytes s p) (px.take (camWidth s p))).length ≤ bufSize - bufLevel s p) :
    (getCam (takeLine s p ok px) p).cur = some (lineTaken ok f.kept (camWidth s p) px f) ∧
      (∀ k, f.slot = some k → (getCam (takeLine s p ok px) p).buf = bufPut (slotAddr s p k + f.received * camWidth s p * rawBytes s p)
        (rawLine (rawBytes s p) (px.take (camWidth s p))) (getCam s p).buf) ∧
      (f.slot = none → (getCam (takeLine s p ok px) p).buf = (getCam s p).buf) ∧ Within [.vis] [] s (takeLine s p ok px) := by
  rw [takeLine_taken hcur ok px h hovf hroom]
  cases hs : f.slot with
  | none =>
    refine ⟨?_, nofun, fun _ => ?_, modCur_within⟩
    · rw [modCur_cam, hcur]
      rfl
    · rw [modCur_cam]
  | some k =>
    have hcam : getCam (bufLine (modCur s p (lineTaken ok f.kept (camWidth s p) px)) p k f.received
        (rawLine (rawBytes s p) (px.take (camWidth s p)))) p = { getCam s p with
          cur := some (lineTaken ok f.kept (camWidth s p) px f)
          buf := bufPut (slotAddr s p k + f.received * camWidth s p * rawBytes s p)
            (rawLine (rawBytes s p) (px.take (camWidth s p))) (getCam s p).buf } := by
      refine (getCam_modCam_self _ _ _).trans ?_
      rw [modCur_cam, hcur]
      rfl
    refine ⟨by rw [hcam], fun k' hk => ?_, nofun, bufLine_within.step (modCur_within.mono rfl rfl) rfl rfl⟩
    rw [hcam, Option.some.inj hk]

theorem camOverflow_cur (s : State) (p : Nat) :
    (getCam (camOverflow s p) p).cur = (getCam s p).cur.map fun g => { g with ovf := true } := by
  unfold camOverflow
  extract_lets s1 tell
  by_cases h : tell = true
  · rw [if_pos h, getCam_of_vis (raiseEv_within (s := modCam _ p _)) (by simp), getCam_modCam_self, rinc_getCam, modCur_cam]
  · rw [if_neg h, rinc_getCam, modCur_cam]

theorem camOverflow_counts (s : State) (p : Nat) : rget (camOverflow s p) R.CAM_LOSS_OVERFLOWS p =
    satTo R.CAM_LOSS_OVERFLOWS.width (rget s R.CAM_LOSS_OVERFLOWS p + 1) := by
  unfold camOverflow
  extract_lets s1 tell
  by_cases h : tell = true
  · rw [if_pos h]
    exact (raiseEv_within.rget R.CAM_LOSS_OVERFLOWS p 0 (by decide)).trans (rget_rinc_self _ _ _ _ _)
  · rw [if_neg h]
    exact rget_rinc_self _ _ _ _ _

theorem takeLine_overflow_fields {p : Nat} {f : CamFrame} (hcur : (getCam s p).cur = some f) (ok : Bool) (px : List Nat)
    (h : f.received < camHeight s p) (hovf : f.ovf = false) (hkept : f.kept = true)
    (hroom : bufSize - bufLevel s p < (rawLine (rawBytes s p) (px.take (camWidth s p))).length) :
    (getCam (takeLine s p ok px) p).cur = some (lineLost ok { f with ovf := true }) ∧
      rget (takeLine s p ok px) R.CAM_LOSS_OVERFLOWS p = satTo R.CAM_LOSS_OVERFLOWS.width (rget s R.CAM_LOSS_OVERFLOWS p + 1) := by
  rw [takeLine_overflow hcur ok px h hovf hkept hroom]
  obtain ⟨v, hv, hw, hc⟩ : ∃ v, v = (match f.slot with
      | some k => bufLine s p k f.received ((rawLine (rawBytes s p) (px.take (camWidth s p))).take (bufSize - bufLevel s p))
      | none => s) ∧ Within [.vis] [] s v ∧ (getCam v p).cur = (getCam s p).cur := by
    refine ⟨_, rfl, ?_, ?_⟩
    · cases f.slot with
      | none => exact .refl _
      | some k => exact bufLine_within
    · cases f.slot with
      | none => rfl
      | some k =>
        unfold bufLine
        dsimp only
        rw [getCam_modCam_self]
  rw [← hv]
  refine ⟨?_, ?_⟩
  · rw [modCur_cam, camOverflow_cur, hc, hcur]
    rfl
  · rw [modCur_within.rget R.CAM_LOSS_OVERFLOWS p 0 (by simp), camOverflow_counts, hw.rget _ _ _ (by simp)]

/-! ### Ends of frames, links and ports -/

theorem writesDue_cam (s : State) (p n : Nat) : getCam (writesDue s p n) p =
    { getCam s p with feSeen := some n, writes := (getCam (writesDue s p n) p).writes } := by
  unfold writesDue
  rw [getCam_modCam_self]

theorem camFe_cam {p : Nat} {f : CamFrame} (hcur : (getCam s p).cur = some f) :
    (getCam (camFe s p) p).cur = none ∧ (getCam (camFe s p) p).feSeen = some f.no ∧
      (getCam (camFe s p) p).jobs = (getCam s p).jobs ∧
      (getCam (camFe s p) p).ready = if f.kept then (getCam s p).ready ++ [{ f with feTime := moduleTime s, feAt := s.now }]
        else (getCam s p).ready := by
  have h : getCam (camFe s p) p = getCam (writesDue (closeFrame s p id) p f.no) p := by
    unfold camFe
    rw [hcur]
    exact ispView_getCam _ _
  rw [h, writesDue_cam, closeFrame_some hcur]
  exact ⟨rfl, rfl, rfl, rfl⟩

theorem camLinkLost_up {p : Nat} (hlink : rbit s R.CAM_CTRL_LINK_UP p = true) : camLinkLost s p =
    ispView (raiseEv (rset (rset (closeFrame s p fun f => { f with linkLost := true }) R.CAM_CTRL_LINK_UP 0 p)
      R.CAM_CTRL_GEAR 0 p) evCamLinkDown p) := by
  unfold camLinkLost
  rw [hlink]
  rfl

theorem camLinkLost_fields {p : Nat} (hlink : rbit s R.CAM_CTRL_LINK_UP p = true) :
    rget (camLinkLost s p) R.CAM_CTRL_LINK_UP p = 0 ∧ rget (camLinkLost s p) R.CAM_CTRL_GEAR p = 0 ∧
      (getCam (camLinkLost s p) p).cur = none ∧ rget (camLinkLost s p) R.CAM_CTRL_EN p = rget s R.CAM_CTRL_EN p := by
  rw [camLinkLost_up hlink]
  refine ⟨?_, ?_, ?_, ?_⟩
  · refine (ispView_within.rget R.CAM_CTRL_LINK_UP p 0 (by decide)).trans
      ((raiseEv_within.rget R.CAM_CTRL_LINK_UP p 0 (by decide)).trans ?_)
    rw [rget_rset_ne _ _ _ _ _ _ (by decide), rget_rset_self]
    rfl
  · refine (ispView_within.rget R.CAM_CTRL_GEAR p 0 (by decide)).trans
      ((raiseEv_within.rget R.CAM_CTRL_GEAR p 0 (by decide)).trans ?_)
    rw [rget_rset_self]
    rfl
  · rw [ispView_getCam, getCam_congr (s := closeFrame s p _) (by rw [raiseEv_vis]; rfl)]
    exact closeFrame_cur _ _ _
  · refine (ispView_within.rget R.CAM_CTRL_EN p 0 (by decide)).trans
      ((raiseEv_within.rget R.CAM_CTRL_EN p 0 (by decide)).trans ?_)
    simp (disch := decide) only [rget_rset_ne]
    exact closeFrame_within.rget R.CAM_CTRL_EN p 0 (by decide)

theorem camFull_over {p : Nat} {f : CamFrame} (hcur : (getCam s p).cur = some f) (hovf : f.ovf = false) (hkept : f.kept = true)
    (hfull : bufSize < bufLevel s p + camWidth s p * rawBytes s p) : camFull s p = camOverflow s p := by
  unfold camFull
  rw [hcur]
  refine if_neg ?_
  rw [hovf, hkept]
  simpa using hfull

theorem camEnable_ok {p : Nat} (hoff : camOn s p = false) (hok : camError s p = 0) : camEnable s p =
    rset (modCam (rset s R.CAM_CTRL_ERR 0 p) p fun c =>
      { Cam.idle with live := c.live, syncs := c.syncs, overAt := c.overAt }) R.CAM_CTRL_EN 1 p := by
  unfold camEnable
  rw [hoff, hok]
  rfl

theorem camEnable_error {p : Nat} (hoff : camOn s p = false) (herr : camError s p ≠ 0) :
    camEnable s p = rset s R.CAM_CTRL_ERR (camError s p) p := by
  unfold camEnable
  rw [if_neg (by rw [hoff]; decide)]
  exact if_pos herr

/-- How long ago the latest instant of a port's frame-sync grid was. -/
def syncLate (s : State) (p : Nat) : Nat :=
  (moduleTime s + rval s R.CAM_FSYNC_PERIOD_US p * 1000 -
    rget s R.CAM_FSYNC_PHASE_PHASE_US p * 1000 % (rval s R.CAM_FSYNC_PERIOD_US p * 1000)) % (rval s R.CAM_FSYNC_PERIOD_US p * 1000)

theorem fsync_due {p : Nat} (hen : rbit s R.CAM_CTRL_FSYNC_EN p = true) (hlate : syncLate s p ≤ 1000)
    (hle : syncLate s p ≤ moduleTime s) (hnew : moduleTime s - syncLate s p ∉ (getCam s p).syncs) :
    fsync s p = modCam s p fun c => { c with syncs := (moduleTime s - syncLate s p) :: c.syncs } := by
  refine if_pos ?_
  rw [hen]
  simpa using ⟨⟨hlate, hle⟩, hnew⟩

theorem camError_narrow {p : Nat} (h : rget s R.CAM_SIZE_WIDTH p < 64) : camError s p = 1 := if_pos (.inl h)

theorem camDisable_fields {p : Nat} (hon : camOn s p = true) :
    rget (camDisable s p) R.CAM_CTRL_EN p = 0 ∧ (getCam (camDisable s p) p).cur = none ∧
      (getCam (camDisable s p) p).ready = [] ∧ (getCam (camDisable s p) p).buf = [] ∧
      ∀ f, (camDisable s p).vis.isp ≠ some (p, f) := by
  unfold camDisable
  rw [if_neg (by rw [hon]; decide)]
  extract_lets mine s1 s2 s3
  have h1 : Within [.regs, .reqs, .till, .vis] (blks [.isp]) (rset s R.CAM_CTRL_EN 0 p) s1 :=
    foldl_within (fun _ _ hu => abortCamJob_within.step hu rfl rfl) (markUnfetched_within.mono rfl rfl)
  have hs2 : getCam s2 p = { getCam s1 p with cur := none, ready := [], buf := [] } := getCam_modCam_self _ _ _
  have h3 : s3.regs = s2.regs ∧ s3.vis.cams = s2.vis.cams ∧ ∀ f, s3.vis.isp ≠ some (p, f) := by
    cases hisp : s2.vis.isp with
    | none =>
      have h : s3 = s2 := by
        unfold s3
        rw [hisp]
      rw [h, hisp]
      exact ⟨rfl, rfl, fun _ => nofun⟩
    | some x =>
      obtain ⟨q, g⟩ := x
      have h : s3 = if q = p then modVis s2 fun v => { v with isp := none } else s2 := by
        unfold s3
        rw [hisp]
      rw [h]
      split
      · exact ⟨rfl, rfl, fun _ => nofun⟩
      · next hq =>
        refine ⟨rfl, rfl, fun f hf => hq ?_⟩
        exact congrArg (fun x => x.1) (Option.some.inj (hisp.symm.trans hf))
  obtain ⟨hregs, hcams, hisp⟩ := h3
  have hcam : getCam (ispView s3) p = { getCam s1 p with cur := none, ready := [], buf := [] } :=
    (getCam_congr hcams p).trans hs2
  refine ⟨?_, by rw [hcam], by rw [hcam], by rw [hcam], hisp⟩
  refine (ispView_within.rget R.CAM_CTRL_EN p 0 (by decide)).trans ?_
  rw [show rget s3 R.CAM_CTRL_EN p = rget s1 R.CAM_CTRL_EN p by unfold rget; rw [hregs]; rfl]
  exact (h1.rget R.CAM_CTRL_EN p 0 (by decide)).trans (rget_rset_self _ _ _ _ _)

theorem exec_camFs {p : Fin 4} {h : Fin 3} {csi : Nat} (hfab : s.fabric = true) (hh : h ≠ 2) (hon : camOn s p = true)
    (hlink : rbit s R.CAM_CTRL_LINK_UP p = true) :
    exec (.camFs t p ⟨0, h, csi⟩) s = .next (lineAfter (camFs (ispNow (advance s t)) p csi h)) := by
  refine (atVision_up t (fun s => camPacket s p h true true fun s => camFs s p csi h) hfab).trans ?_
  rw [camPacket_taken (s := ispNow (advance s t)) ((congrArg (· == 1) (ispNow_rget _ _ _ _)).trans hon)
    ((congrArg (· == 1) (ispNow_rget _ _ _ _)).trans hlink) (fun e => hh (Fin.ext e))]
  rw [if_pos (by revert hh; revert h; decide)]

theorem exec_camLine {p : Fin 4} {dt : Fin 64} {h : Fin 3} {c : Bool} {px : List Nat} (hfab : s.fabric = true) (hh : h ≠ 2)
    (hon : camOn s p = true) (hlink : rbit s R.CAM_CTRL_LINK_UP p = true) (hraw : rawType dt = true) :
    exec (.camLine t p 0 dt h c px) s = .next (lineAfter (takeLine (hdrSeen (ispNow (advance s t)) p h) p c px)) := by
  refine (atVision_up t (fun s => camPacket s p h ((0 : Fin 16).val == 0 && rawType dt) false fun s => takeLine s p c px) hfab).trans ?_
  rw [hraw, show ((0 : Fin 16).val == 0 && true) = true from rfl, camPacket_seen (s := ispNow (advance s t))
    ((congrArg (· == 1) (ispNow_rget _ _ _ _)).trans hon) ((congrArg (· == 1) (ispNow_rget _ _ _ _)).trans hlink)
    (fun e => hh (Fin.ext e))]

theorem exec_camFe {p : Fin 4} {h : Fin 3} (hfab : s.fabric = true) (hh : h ≠ 2)
    (hon : camOn s p = true) (hlink : rbit s R.CAM_CTRL_LINK_UP p = true) :
    exec (.camFe t ⟨p, 0, h⟩) s = .next (lineAfter (camFe (hdrSeen (ispNow (advance s t)) p h) p)) := by
  refine (atVision_up t (fun s => camPacket s p h true false fun s => camFe s p) hfab).trans ?_
  rw [camPacket_seen (s := ispNow (advance s t)) ((congrArg (· == 1) (ispNow_rget _ _ _ _)).trans hon)
    ((congrArg (· == 1) (ispNow_rget _ _ _ _)).trans hlink) (fun e => hh (Fin.ext e))]

/-- The line slots up to a command and the header of its packet leave the port, but for the frame being received and those
that wait for the ISP. -/
theorem hdrSeen_ispNow_cam (s : State) (p h : Nat) : getCam (hdrSeen (ispNow s) p h) p = { getCam s p with
    cur := (getCam (hdrSeen (ispNow s) p h) p).cur
    ready := (getCam (ispNow s) p).ready } := by
  rw [hdrSeen_cam]
  conv_lhs => rw [(ispNow_linesRun s).cam p]

theorem hdrSeen_ispNow_rget (s : State) (p h : Nat) (f : Fld) (i j : Nat) : rget (hdrSeen (ispNow s) p h) f i j = rget s f i j :=
  (hdrSeen_within.rget f i j (by simp)).trans (ispNow_rget s f i j)

theorem hdrSeen_ispNow_cur {p : Nat} {h : Fin 3} {f g : CamFrame} (hf : (getCam (ispNow s) p).cur = some f)
    (hg : g = if h = 0 then f else { f with hdrErrs := min (f.hdrErrs + 1) 65535 }) :
    (getCam (hdrSeen (ispNow s) p h) p).cur = some g := by
  rw [hdrSeen_cam, hf, hg]
  refine congrArg some (if_congr ⟨fun e => Fin.ext e, fun e => congrArg Fin.val e⟩ rfl rfl)

/-! ### The state after each command, the line slots up to it having run -/

section
variable {p : Nat} {csi h : Nat}

theorem camFs_slot_now {k : Nat} (hp : p ≠ 0) (hcur : (getCam s p).cur = none) (hk : nextSlot s p = some k) :
    (getCam (lineAfter (camFs (ispNow s) p csi h)) p).cur = some { frameNew s p csi h with slot := some k, kept := true } ∧
      (getCam (lineAfter (camFs (ispNow s) p csi h)) p).next = ((getCam s p).next + 1) % 2 ^ 32 ∧
      rget (lineAfter (camFs (ispNow s) p csi h)) R.CAM_FRAME_FRAME_NO p = (getCam s p).next % 2 ^ 32 ∧
      (getCam (lineAfter (camFs (ispNow s) p csi h)) p).ready = (getCam s p).ready := by
  have hrun := ispNow_linesRun s
  have hcam : getCam (ispNow s) p = getCam s p := hrun.other p hp
  have hk' : nextSlot (closeFrame (ispNow s) p fun f => { f with noFe := true }) p = some k := by
    rw [closeFrame_none (hcam ▸ hcur), nextSlot_linesRun hrun (ispNow_within.regs.resolve_left (by simp)) hp, hk]
  obtain ⟨h1, h2, h3, h4⟩ := camFs_slot (csi := csi) (hdr := h) hp hk'
  rw [frameNew_ispNow] at h1
  rw [hcam] at h2 h3
  rw [closeFrame_none (hcam ▸ hcur), hcam] at h4
  rw [lineAfter_getCam, lineAfter_rget]
  exact ⟨h1, h2, h3, h4⟩

/-- A frame that was being received closes first. -/
theorem camFs_closes_now {k : Nat} {f : CamFrame} (hp : p ≠ 0) (hcur : (getCam s p).cur = some f) (hkept : f.kept = true)
    (hk : nextSlot s p = some k) :
    (getCam (lineAfter (camFs (ispNow s) p csi h)) p).cur = some { frameNew s p csi h with slot := some k, kept := true } ∧
      (getCam (lineAfter (camFs (ispNow s) p csi h)) p).next = ((getCam s p).next + 1) % 2 ^ 32 ∧
      rget (lineAfter (camFs (ispNow s) p csi h)) R.CAM_FRAME_FRAME_NO p = (getCam s p).next % 2 ^ 32 ∧
      (getCam (lineAfter (camFs (ispNow s) p csi h)) p).ready =
        (getCam s p).ready ++ [{ f with feTime := moduleTime s, feAt := s.now, noFe := true }] := by
  have hrun := ispNow_linesRun s
  have hcam : getCam (ispNow s) p = getCam s p := hrun.other p hp
  have hk' : nextSlot (closeFrame (ispNow s) p fun f => { f with noFe := true }) p = some k := by
    refine (nextSlot_closeFrame (s := ispNow s) (mark := fun f => { f with noFe := true }) (fun _ => rfl) fun f' hf' => ?_).trans
      ((nextSlot_linesRun hrun (ispNow_within.regs.resolve_left (by simp)) hp).trans hk)
    rw [hcam, hcur] at hf'
    rw [← Option.some.inj hf', hkept]
  obtain ⟨h1, h2, h3, h4⟩ := camFs_slot (csi := csi) (hdr := h) hp hk'
  rw [frameNew_ispNow] at h1
  rw [hcam] at h2 h3
  rw [closeFrame_some (hcam.symm ▸ hcur), hcam, if_pos hkept, ispNow_moduleTime, ispNow_now] at h4
  rw [lineAfter_getCam, lineAfter_rget]
  exact ⟨h1, h2, h3, h4⟩

theorem camFs_noSlot_now (hp : p ≠ 0) (hcur : (getCam s p).cur = none) (hk : nextSlot s p = none) (hready : (getCam s p).ready = []) :
    (getCam (lineAfter (camFs (ispNow s) p csi h)) p).cur = some (frameNew s p csi h) ∧
      (getCam (lineAfter (camFs (ispNow s) p csi h)) p).next = ((getCam s p).next + 1) % 2 ^ 32 ∧
      rget (lineAfter (camFs (ispNow s) p csi h)) R.CAM_FRAME_FRAME_NO p = (getCam s p).next % 2 ^ 32 ∧
      rget (lineAfter (camFs (ispNow s) p csi h)) R.CAM_DROPS_NO_SLOT p =
        satTo R.CAM_DROPS_NO_SLOT.width (rget s R.CAM_DROPS_NO_SLOT p + 1) := by
  have hrun := ispNow_linesRun s
  have hcam : getCam (ispNow s) p = getCam s p := hrun.other p hp
  obtain ⟨h1, h2, h3, h4⟩ := camFs_noSlot (s := ispNow s) (csi := csi) (hdr := h) hp (by rw [hcam, hcur])
    (by rw [nextSlot_linesRun hrun (ispNow_within.regs.resolve_left (by simp)) hp, hk]) (by rw [hcam, hready])
  rw [frameNew_ispNow] at h1
  rw [hcam] at h2 h3
  rw [ispNow_rget] at h4
  rw [lineAfter_getCam, lineAfter_rget, lineAfter_rget]
  exact ⟨h1, h2, h3, h4⟩

theorem camFs_job_now {r : Ref} {l : List Ref} (hcur : (getCam s 0).cur = none) (hjobs : (getCam s 0).jobs = r :: l) :
    (getCam (lineAfter (camFs (ispNow s) 0 csi h)) 0).cur.map (·.ref) = some (some r) ∧
      (getCam (lineAfter (camFs (ispNow s) 0 csi h)) 0).jobs = l ∧
      rget (lineAfter (camFs (ispNow s) 0 csi h)) R.CAM_FRAME_FRAME_NO 0 = (getCam s 0).next % 2 ^ 32 ∧
      rget (lineAfter (camFs (ispNow s) 0 csi h)) R.ISP_STAT_CUR_PORT = 0 ∧
      rget (lineAfter (camFs (ispNow s) 0 csi h)) R.ISP_STAT_BUSY = 1 := by
  have hrun := ispNow_linesRun s
  obtain ⟨h1, h2, h3, h4, h5⟩ := camFs_job (s := ispNow s) (csi := csi) (hdr := h) (hrun.cur_none hcur)
    (by rw [hrun.cam 0]; exact hjobs)
  rw [hrun.cam 0] at h3
  rw [lineAfter_getCam, lineAfter_rget, lineAfter_rget, lineAfter_rget]
  exact ⟨h1, h2, h3, h4, h5⟩

theorem camFs_noJob_now (hcur : (getCam s 0).cur = none) (hjobs : (getCam s 0).jobs = []) :
    (getCam (lineAfter (camFs (ispNow s) 0 csi h)) 0).cur = some (frameNew s 0 csi h) ∧
      rget (lineAfter (camFs (ispNow s) 0 csi h)) R.CAM_LOSS_NO_JOB 0 = satTo R.CAM_LOSS_NO_JOB.width (rget s R.CAM_LOSS_NO_JOB 0 + 1) ∧
      Within [.regs, .vis] (blks [.cam]) s (lineAfter (camFs (ispNow s) 0 csi h)) := by
  have hrun := ispNow_linesRun s
  obtain ⟨h1, h2, hw⟩ := camFs_noJob (s := ispNow s) (csi := csi) (hdr := h) (hrun.cur_none hcur)
    (by rw [hrun.cam 0]; exact hjobs)
  rw [frameNew_ispNow] at h1
  rw [ispNow_rget] at h2
  refine ⟨?_, ?_, lineAfter_within hw rfl⟩
  · rw [lineAfter_getCam, h1]
  · rw [lineAfter_rget, h2]

/-- What the line slots and the header leave of the port's receive buffer and its room. -/
theorem hdrSeen_ispNow_buffer (s : State) (p h : Nat) :
    camHeight (hdrSeen (ispNow s) p h) p = camHeight s p ∧ camWidth (hdrSeen (ispNow s) p h) p = camWidth s p ∧
      rawBytes (hdrSeen (ispNow s) p h) p = rawBytes s p ∧ (∀ k, slotAddr (hdrSeen (ispNow s) p h) p k = slotAddr s p k) ∧
      bufLevel (hdrSeen (ispNow s) p h) p = bufLevel (ispNow s) p := by
  have hr := hdrSeen_ispNow_rget s p h
  refine ⟨hr _ _ _, hr _ _ _, ?_, fun k => ?_, bufLevel_hdrSeen _ _ _⟩
  · unfold rawBytes
    rw [hr]
  · unfold slotAddr
    rw [hr, hr, hr]

/-- A packet that the port does not accept counts alone. -/
theorem camPacket_ignored {p hdr : Nat} {own : Bool} {f : State → State} (hon : camOn s p = true)
    (hlink : rbit s R.CAM_CTRL_LINK_UP p = true) (hh : hdr ≠ 2) : ∃ v, Within [.vis] [] s v ∧
      camPacket s p hdr false own f = rinc v R.CAM_PKT_IGNORED 1 p := by
  refine ⟨if hdr = 0 ∨ (hdr = 1 ∧ own ∧ false) then s else
    modCur s p fun g => { g with hdrErrs := min (g.hdrErrs + 1) 65535 }, within_ite (.refl _) modCur_within, ?_⟩
  unfold camPacket
  rw [hon, hlink, if_neg (by decide)]
  exact (if_neg hh).trans (if_pos rfl)

/-- A packet whose header cannot be corrected, no frame being received, counts alone. -/
theorem camPacket_bad {p : Nat} {a own : Bool} {f : State → State} (hon : camOn s p = true)
    (hlink : rbit s R.CAM_CTRL_LINK_UP p = true) :
    camPacket s p 2 a own f = rinc (modCur s p fun g => { g with hdrErrs := min (g.hdrErrs + 1) 65535 }) R.CAM_PKT_HDR_ERRS 1 p := by
  unfold camPacket
  rw [hon, hlink, if_neg (by decide)]
  exact (if_pos rfl).trans (by rw [if_neg (by simp)])

theorem takeLine_taken_now {f : CamFrame} {e : Nat} (ok : Bool) (px : List Nat)
    (hcur : (getCam (hdrSeen (ispNow s) p h) p).cur = some { f with hdrErrs := e })
    (hrec : f.received < camHeight s p) (hovf : f.ovf = false)
    (hroom : f.kept = false ∨ (rawLine (rawBytes s p) (px.take (camWidth s p))).length ≤ bufSize - bufLevel (ispNow s) p) :
    (getCam (lineAfter (takeLine (hdrSeen (ispNow s) p h) p ok px)) p).cur =
        some (lineTaken ok f.kept (camWidth s p) px { f with hdrErrs := e }) ∧
      (∀ k, f.slot = some k → (getCam (lineAfter (takeLine (hdrSeen (ispNow s) p h) p ok px)) p).buf =
        bufPut (slotAddr s p k + f.received * camWidth s p * rawBytes s p)
          (rawLine (rawBytes s p) (px.take (camWidth s p))) (getCam s p).buf) ∧
      (f.slot = none → (getCam (lineAfter (takeLine (hdrSeen (ispNow s) p h) p ok px)) p).buf = (getCam s p).buf) ∧
      Within [.vis] [] s (lineAfter (takeLine (hdrSeen (ispNow s) p h) p ok px)) := by
  obtain ⟨hheight, hwidth, hbytes, haddr, hlevel⟩ := hdrSeen_ispNow_buffer s p h
  obtain ⟨h1, h2, h3, h4⟩ := takeLine_taken_fields hcur ok px (by rw [hheight]; exact hrec) hovf
    (by rw [hbytes, hwidth, hlevel]; exact hroom)
  have hbuf : (getCam (hdrSeen (ispNow s) p h) p).buf = (getCam s p).buf := by rw [hdrSeen_ispNow_cam]
  rw [lineAfter_getCam]
  refine ⟨?_, fun k hk => ?_, fun hk => ?_, lineAfter_within (h4.step hdrSeen_within rfl rfl) rfl⟩
  · rw [h1, hwidth]
  · rw [h2 k hk, haddr, hwidth, hbytes, hbuf]
  · rw [h3 hk, hbuf]

theorem takeLine_overflow_now {f : CamFrame} {e : Nat} (ok : Bool) (px : List Nat)
    (hcur : (getCam (hdrSeen (ispNow s) p h) p).cur = some { f with hdrErrs := e })
    (hrec : f.received < camHeight s p) (hovf : f.ovf = false) (hkept : f.kept = true)
    (hroom : bufSize - bufLevel (ispNow s) p < (rawLine (rawBytes s p) (px.take (camWidth s p))).length) :
    (getCam (lineAfter (takeLine (hdrSeen (ispNow s) p h) p ok px)) p).cur =
        some (lineLost ok { f with hdrErrs := e, ovf := true }) ∧
      rget (lineAfter (takeLine (hdrSeen (ispNow s) p h) p ok px)) R.CAM_LOSS_OVERFLOWS p =
        satTo R.CAM_LOSS_OVERFLOWS.width (rget s R.CAM_LOSS_OVERFLOWS p + 1) := by
  obtain ⟨hheight, hwidth, hbytes, haddr, hlevel⟩ := hdrSeen_ispNow_buffer s p h
  obtain ⟨h1, h2⟩ := takeLine_overflow_fields hcur ok px (by rw [hheight]; exact hrec) hovf hkept
    (by rw [hbytes, hwidth, hlevel]; exact hroom)
  rw [lineAfter_getCam, lineAfter_rget, h1, h2, hdrSeen_ispNow_rget]
  exact ⟨rfl, rfl⟩

theorem takeLine_cur_now {f : CamFrame} {e : Nat} (ok : Bool) (px : List Nat) {k : CamFrame → CamFrame}
    (hcur : (getCam (hdrSeen (ispNow s) p h) p).cur = some { f with hdrErrs := e })
    (hline : takeLine (hdrSeen (ispNow s) p h) p ok px = modCur (hdrSeen (ispNow s) p h) p k) :
    (getCam (lineAfter (takeLine (hdrSeen (ispNow s) p h) p ok px)) p).cur = some (k { f with hdrErrs := e }) ∧
      Within [.vis] [] s (lineAfter (takeLine (hdrSeen (ispNow s) p h) p ok px)) := by
  rw [lineAfter_getCam, hline, modCur_cam, hcur]
  exact ⟨rfl, lineAfter_within (modCur_within.step hdrSeen_within rfl rfl) rfl⟩

theorem camFe_now {f : CamFrame} {e : Nat} (hcur : (getCam (hdrSeen (ispNow s) p h) p).cur = some { f with hdrErrs := e }) :
    (getCam (lineAfter (camFe (hdrSeen (ispNow s) p h) p)) p).cur = none ∧
      (getCam (lineAfter (camFe (hdrSeen (ispNow s) p h) p)) p).feSeen = some f.no ∧
      (getCam (lineAfter (camFe (hdrSeen (ispNow s) p h) p)) p).jobs = (getCam s p).jobs ∧
      (getCam (lineAfter (camFe (hdrSeen (ispNow s) p h) p)) p).ready = if f.kept then
        (getCam (ispNow s) p).ready ++ [{ f with hdrErrs := e, feTime := moduleTime s, feAt := s.now }]
      else (getCam (ispNow s) p).ready := by
  obtain ⟨h1, h2, h3, h4⟩ := camFe_cam hcur
  have hw : Within [.vis] [] s (hdrSeen (ispNow s) p h) := hdrSeen_within.step ispNow_within rfl rfl
  rw [moduleTime_of (hw.now.resolve_left (by simp)) (hw.timeOff.resolve_left (by simp)) (hw.nav.resolve_left (by simp)),
    hw.now.resolve_left (by simp), hdrSeen_cam] at h4
  rw [hdrSeen_ispNow_cam] at h3
  rw [lineAfter_getCam]
  exact ⟨h1, h2, h3, h4⟩

end

/-- Settles O37. -/
theorem cameraPorts : Obligations.CameraPorts := by
  unfold Obligations.CameraPorts
  refine ⟨?enable, ?enableErr, ?narrow, ?disable, ?slot, ?open_, ?noSlot, ?job, ?noJob, ?ignored, ?line, ?lineFree, ?overflow, ?lost,
    ?long, ?bad, ?fe, ?linkLost, ?powerOff, ?linkUp, ?full, ?power, ?fsync⟩
  case enable =>
    intro s t p hfab hoff hok
    refine ⟨_, (atFabric_up s t (fun s => camEnable s p) hfab).trans (congrArg _ (camEnable_ok (s := advance s t) hoff hok)), ?_, ?_, ?_, ?_, rfl⟩
    · exact rget_rset_self _ _ _ _ _
    · rw [rget_rset_ne _ _ _ _ _ _ (by decide)]
      exact rget_rset_self _ _ _ _ _
    · exact getCam_modCam_self (rset (advance s t) R.CAM_CTRL_ERR 0 p) p fun c =>
        { Cam.idle with live := c.live, syncs := c.syncs, overAt := c.overAt }
    · exact fun k hk => (rset_regsOnly _ _ _ _ _ (.head _) k hk).trans (rset_regsOnly (advance s t) _ _ _ _ (.tail _ (.head _)) k hk)
  case enableErr =>
    exact fun s t p hfab hoff herr => (atFabric_up s t (fun s => camEnable s p) hfab).trans (congrArg _
      (camEnable_error (s := advance s t) hoff herr))
  case narrow =>
    intro s t p hfab hoff hw
    have herr : camError (advance s t) p = 1 := camError_narrow (s := advance s t) hw
    refine (atFabric_up s t (fun s => camEnable s p) hfab).trans (congrArg _
      ((camEnable_error (s := advance s t) hoff (by rw [herr]; decide)).trans ?_))
    rw [herr]
  case disable =>
    intro s t p hfab hon
    obtain ⟨h1, h2, h3, h4, h5⟩ := camDisable_fields (s := ispNow (advance s t)) (p := p)
      ((congrArg (· == 1) (ispNow_rget _ _ _ _)).trans hon)
    have hw := lineAfter_within (s := advance s t) (camDisable_within (p := p)) rfl
    refine ⟨_, atVision_up t (fun s => camDisable s p) hfab, ?_, ?_, ?_, ?_, ?_, hw.blocksIn rfl, hw.eq_frame⟩
    · exact (lineAfter_rget _ _ _ _).trans h1
    · exact (congrArg Cam.cur (lineAfter_getCam _ _)).trans h2
    · exact (congrArg Cam.ready (lineAfter_getCam _ _)).trans h3
    · exact (congrArg Cam.buf (lineAfter_getCam _ _)).trans h4
    · rw [lineAfter_isp]
      exact h5
  case slot =>
    intro s t p h csi k hfab hp hh hon hlink hcur hk
    have hp' : p.val ≠ 0 := fun h => hp (Fin.ext h)
    obtain ⟨h1, h2, h3, h4⟩ := camFs_slot_now (s := advance s t) (csi := csi) (h := h) hp' hcur hk
    have hw := lineAfter_within (s := advance s t) (camFs_memory_within hp' csi h) rfl
    exact ⟨_, exec_camFs hfab hh hon hlink, h1, h2, h3, h4, hw.blocksIn rfl, hw.eq_frame⟩
  case open_ =>
    intro s t p csi k f hfab hp hon hlink hcur hkept hk
    have hp' : p.val ≠ 0 := fun h => hp (Fin.ext h)
    obtain ⟨h1, h2, h3, h4⟩ := camFs_closes_now (s := advance s t) (csi := csi) (h := 0) hp' hcur hkept hk
    have hw := lineAfter_within (s := advance s t) (camFs_memory_within hp' csi 0) rfl
    exact ⟨_, exec_camFs (h := 0) hfab (by decide) hon hlink, h1, h2, h3, h4, hw.blocksIn rfl, hw.eq_frame⟩
  case noSlot =>
    intro s t p h csi hfab hp hh hon hlink hcur hk hready
    have hp' : p.val ≠ 0 := fun h => hp (Fin.ext h)
    obtain ⟨h1, h2, h3, h4⟩ := camFs_noSlot_now (s := advance s t) (csi := csi) (h := h) hp' hcur hk hready
    have hw := lineAfter_within (s := advance s t) (camFs_memory_within hp' csi h) rfl
    exact ⟨_, exec_camFs hfab hh hon hlink, h1, h2, h3, h4, hw.blocksIn rfl, hw.eq_frame⟩
  case job =>
    intro s t h csi r l hfab hh hon hlink hcur hjobs
    obtain ⟨h1, h2, h3, h4, h5⟩ := camFs_job_now (s := advance s t) (csi := csi) (h := h) hcur hjobs
    have hw := lineAfter_within (s := advance s t) (camFs_within (p := 0) (csi := csi) (hdr := h)) rfl
    exact ⟨_, exec_camFs (p := 0) hfab hh hon hlink, h1, h2, h3, h4, h5, hw.blocksIn rfl, hw.eq_frame⟩
  case noJob =>
    intro s t h csi hfab hh hon hlink hcur hjobs
    obtain ⟨h1, h2, hw⟩ := camFs_noJob_now (s := advance s t) (csi := csi) (h := h) hcur hjobs
    exact ⟨_, exec_camFs (p := 0) hfab hh hon hlink, h1, h2, hw.blocksIn rfl, hw.eq_frame⟩
  case ignored =>
    intro s t p vc h csi hfab hh hon hlink hvc
    obtain ⟨v, hv, hp⟩ := camPacket_ignored (s := ispNow (advance s t)) (p := p) (hdr := h) (own := true)
      (f := fun s => camFs s p csi h) ((congrArg (· == 1) (ispNow_rget _ _ _ _)).trans hon)
      ((congrArg (· == 1) (ispNow_rget _ _ _ _)).trans hlink) (fun e => hh (Fin.ext e))
    have hx : exec (.camFs t p ⟨vc, h, csi⟩) s = .next (lineAfter (rinc v R.CAM_PKT_IGNORED 1 p)) := by
      refine (atVision_up t (fun s => camPacket s p h (vc.val == 0) true fun s => camFs s p csi h) hfab).trans ?_
      rw [show (vc.val == 0) = false from beq_eq_false_iff_ne.mpr fun e => hvc (Fin.ext e), hp]
    have hv' : Within [.vis] [] (advance s t) v := hv.step ispNow_within rfl rfl
    have hregs : RegsOnly s (lineAfter (rinc v R.CAM_PKT_IGNORED 1 p)) [R.CAM_PKT_IGNORED.key p 0] := by
      exact lineAfter_regsOnly (s := s) (hv'.regs.resolve_left (by simp)) (rset_regsOnly v _ _ _ _ (.head _))
    have hw : Within [.regs, .vis] (blks [.cam]) (ispNow (advance s t)) (rinc v R.CAM_PKT_IGNORED 1 p) :=
      rinc_within.step (hv.mono rfl rfl) rfl rfl
    refine ⟨_, hx, ?_, hregs, (lineAfter_within hw rfl).eq_frame⟩
    rw [lineAfter_rget]
    refine (rget_rinc_self _ _ _ _ _).trans ?_
    rw [hv'.rget _ _ _ (by simp)]
    rfl
  case line =>
    intro s t p dt h c px f g k hfab hh hon hlink hraw hcur hg hrec hovf hslot hroom
    have hcur' := hdrSeen_ispNow_cur hcur hg
    obtain ⟨e, rfl⟩ : ∃ e, g = { f with hdrErrs := e } := by
      rw [hg]; split <;> exact ⟨_, rfl⟩
    obtain ⟨h1, h2, -, hw⟩ := takeLine_taken_now (s := advance s t) c px hcur' hrec hovf hroom
    rw [lineTaken_eq] at h1
    exact ⟨_, exec_camLine hfab hh hon hlink hraw, h1, h2 k hslot, hw.eq_frame⟩
  case lineFree =>
    intro s t p dt h c px f g hfab hh hon hlink hraw hcur hg hrec hovf hslot hroom
    have hcur' := hdrSeen_ispNow_cur hcur hg
    obtain ⟨e, rfl⟩ : ∃ e, g = { f with hdrErrs := e } := by
      rw [hg]; split <;> exact ⟨_, rfl⟩
    obtain ⟨h1, -, h3, hw⟩ := takeLine_taken_now (s := advance s t) c px hcur' hrec hovf hroom
    rw [lineTaken_eq] at h1
    exact ⟨_, exec_camLine hfab hh hon hlink hraw, h1, h3 hslot, hw.eq_frame⟩
  case overflow =>
    intro s t p dt h c px f g hfab hh hon hlink hraw hcur hg hrec hovf hkept hroom
    have hcur' := hdrSeen_ispNow_cur hcur hg
    obtain ⟨e, rfl⟩ : ∃ e, g = { f with hdrErrs := e } := by
      rw [hg]; split <;> exact ⟨_, rfl⟩
    obtain ⟨h1, h2⟩ := takeLine_overflow_now (s := advance s t) c px hcur' hrec hovf hkept hroom
    have hw : Within [.regs, .mem, .extMem, .log, .vis] (blks [.hlm, .jrn, .cam]) (ispNow (advance s t))
        (takeLine (hdrSeen (ispNow (advance s t)) p h) p c px) :=
      takeLine_within.step (hdrSeen_within.mono rfl rfl) rfl rfl
    replace hw := lineAfter_within hw rfl
    rw [lineLost_eq] at h1
    exact ⟨_, exec_camLine hfab hh hon hlink hraw, h1, h2, hw.blocksIn rfl, hw.eq_frame⟩
  case lost =>
    intro s t p dt h c px f g hfab hh hon hlink hraw hcur hg hrec hovf
    have hcur' := hdrSeen_ispNow_cur hcur hg
    obtain ⟨e, rfl⟩ : ∃ e, g = { f with hdrErrs := e } := by
      rw [hg]; split <;> exact ⟨_, rfl⟩
    obtain ⟨h1, hw⟩ := takeLine_cur_now (s := advance s t) c px hcur'
      (takeLine_lost hcur' c px (by rw [(hdrSeen_ispNow_buffer _ _ _).1]; exact hrec) hovf)
    rw [lineLost_eq] at h1
    exact ⟨_, exec_camLine hfab hh hon hlink hraw, h1, hw.eq_frame⟩
  case long =>
    intro s t p dt h c px f g hfab hh hon hlink hraw hcur hg hrec
    have hcur' := hdrSeen_ispNow_cur hcur hg
    obtain ⟨e, rfl⟩ : ∃ e, g = { f with hdrErrs := e } := by
      rw [hg]; split <;> exact ⟨_, rfl⟩
    obtain ⟨h1, hw⟩ := takeLine_cur_now (s := advance s t) c px hcur'
      (takeLine_long hcur' c px (by rw [(hdrSeen_ispNow_buffer _ _ _).1]; exact hrec))
    exact ⟨_, exec_camLine hfab hh hon hlink hraw, h1, hw.eq_frame⟩
  case bad =>
    intro s t p vc dt c px hfab hon hlink hcur
    have hcam := (ispNow_linesRun (advance s t)).cur_none hcur
    have hx : exec (.camLine t p vc dt 2 c px) s = .next (lineAfter (rinc (modCur (ispNow (advance s t)) p fun g =>
        { g with hdrErrs := min (g.hdrErrs + 1) 65535 }) R.CAM_PKT_HDR_ERRS 1 p)) :=
      (atVision_up t (fun s => camPacket s p 2 (vc.val == 0 && rawType dt) false fun s => takeLine s p c px) hfab).trans
        (congrArg _ (congrArg lineAfter (camPacket_bad (s := ispNow (advance s t)) ((congrArg (· == 1) (ispNow_rget _ _ _ _)).trans hon)
          ((congrArg (· == 1) (ispNow_rget _ _ _ _)).trans hlink))))
    have hv : Within [.vis] [] (advance s t) (modCur (ispNow (advance s t)) p fun g =>
        { g with hdrErrs := min (g.hdrErrs + 1) 65535 }) := modCur_within.step ispNow_within rfl rfl
    have hw : Within [.regs, .vis] (blks [.cam]) (ispNow (advance s t)) (rinc (modCur (ispNow (advance s t)) p fun g =>
        { g with hdrErrs := min (g.hdrErrs + 1) 65535 }) R.CAM_PKT_HDR_ERRS 1 p) :=
      rinc_within.step (modCur_within.mono rfl rfl) rfl rfl
    refine ⟨_, hx, ?_, ?_, lineAfter_regsOnly (s := s) (hv.regs.resolve_left (by simp)) (rset_regsOnly _ _ _ _ _ (.head _)),
      (lineAfter_within hw rfl).eq_frame⟩
    · rw [lineAfter_rget]
      refine (rget_rinc_self _ _ _ _ _).trans ?_
      rw [hv.rget _ _ _ (by simp)]
      rfl
    · rw [lineAfter_getCam, rinc_getCam, modCur_none hcam]
  case fe =>
    intro s t p h f hfab hh hon hlink hcur
    have hcur' := hdrSeen_ispNow_cur (h := h) hcur rfl
    obtain ⟨h1, h2, h3, h4⟩ := camFe_now (s := advance s t) (p := p) (h := h) (f := f)
      (e := if h = 0 then f.hdrErrs else min (f.hdrErrs + 1) 65535) (by rw [hcur']; split <;> rfl)
    have hw : Within [.regs, .vis] (blks [.isp]) (ispNow (advance s t)) (camFe (hdrSeen (ispNow (advance s t)) p h) p) :=
      camFe_within.step (hdrSeen_within.mono rfl rfl) rfl rfl
    replace hw := lineAfter_within hw rfl
    exact ⟨_, exec_camFe hfab hh hon hlink, h1, h2, h3, h4, hw.blocksIn rfl, hw.eq_frame⟩
  case linkLost =>
    intro s t p hfab hlink
    obtain ⟨h1, h2, h3, h4⟩ := camLinkLost_fields (s := ispNow (advance s t)) (p := p)
      ((congrArg (· == 1) (ispNow_rget _ _ _ _)).trans hlink)
    rw [ispNow_rget] at h4
    have hw := lineAfter_within (s := advance s t) (camLinkLost_within (p := p)) rfl
    refine ⟨_, atVision_up t (fun s => camLinkLost s p) hfab, ?_, ?_, ?_, ?_, hw.blocksIn rfl, hw.eq_frame⟩
    · exact (lineAfter_rget _ _ _ _).trans h1
    · exact (lineAfter_rget _ _ _ _).trans h2
    · exact (congrArg Cam.cur (lineAfter_getCam _ _)).trans h3
    · exact (lineAfter_rget _ _ _ _).trans h4
  case powerOff =>
    exact fun s t p hfab => atFabric_up s t (fun s => camPower s p false) hfab
  case linkUp =>
    exact fun s t p g hfab => atFabric_up s t (fun s => camLinkUp s p g) hfab
  case full =>
    intro s t p f hfab hcur hovf hkept hfull
    have hw := lineAfter_within (s := advance s t) (camOverflow_within (p := p)) rfl
    have hx : exec (.camBufferFull t p) s = .next (lineAfter (camOverflow (ispNow (advance s t)) p)) := by
      refine (atVision_up t (fun s => camFull s p) hfab).trans ?_
      rw [camFull_over hcur hovf hkept]
      rw [show camWidth (ispNow (advance s t)) p = camWidth s p from ispNow_rget _ _ _ _,
        show rawBytes (ispNow (advance s t)) p = rawBytes s p by unfold rawBytes; rw [ispNow_rget]; rfl]
      exact hfull
    refine ⟨_, hx, ?_, ?_, hw.blocksIn rfl, hw.eq_frame⟩
    · rw [lineAfter_getCam, camOverflow_cur, hcur]
      rfl
    · rw [lineAfter_rget, camOverflow_counts, ispNow_rget]
      rfl
  case power =>
    intro s t p hfab hen hfault
    refine (atFabric_up s t (fun s => camPower s p true) hfab).trans (congrArg _ ?_)
    unfold camPower
    rw [show rbit (advance s t) R.CAM_CTRL_PWR_EN p = true from hen, show rbit (advance s t) R.CAM_CTRL_PWR_FAULT p = false from hfault]
    rfl
  case fsync =>
    intro s t p hfab hen hlate hle hnew
    have h := fsync_due (s := advance s t) hen hlate hle hnew
    refine ⟨_, (atFabric_up s t (fun s => fsync s p) hfab).trans (congrArg _ h), ?_, ?_, rfl⟩
    · rw [getCam_modCam_self]
      rfl
    · rw [getCam_modCam_self]
      rfl

end Sys2Proof.Machine
end

section
/-! Camera jobs, the ISP's frames and the accelerator, and O38. -/

namespace Sys2Proof.Machine

variable {s u : State} {t : Fc} {r : Ref} {d : Desc}

/-! ### Camera jobs -/

theorem mem_insertJob {x : Ref} {l : List Ref} : x ∈ insertJob s r l ↔ x = r ∨ x ∈ l := by
  induction l with
  | nil => simp [insertJob]
  | cons y l ih =>
    unfold insertJob
    split
    · exact List.mem_cons
    · rw [List.mem_cons, ih, List.mem_cons]
      exact or_left_comm

theorem exec_capture (hfab : s.fabric = true) (hd : heldDesc s r 4 1 = some d) (hdue : due (advance s t) d = true)
    (hfirst : captureFirst (advance s t) r = true) :
    exec (.capture t r) s = .next (capture (takeReq (advance s t) r) r d) :=
  (atFabric_up s t (fun s => onlyIf (captureFirst s r) (withDesc r 4 1 (fun d s => capture s r d)) s) hfab).trans
    (congrArg _ ((if_pos hfirst).trans (withDesc_due (advance s t) _ hd hdue)))

theorem camJob_host {f : Nat → State → State} (h : refHost s r = true) : camJob s r d f = complete s r stRejectState 0x02C0 :=
  if_pos h

theorem camJob_off {f : Nat → State → State} (h : refHost s r = false) (hon : camOn s (d.classWord % 4) = false) :
    camJob s r d f = complete s r stRejectState 0x02C1 :=
  (if_neg (by rw [h]; decide)).trans (if_pos (by rw [hon]; rfl))

theorem camJob_runs {f : Nat → State → State} (h : refHost s r = false) (hon : camOn s (d.classWord % 4) = true) :
    camJob s r d f = f (d.classWord % 4) s :=
  (if_neg (by rw [h]; decide)).trans (if_neg (by rw [hon]; decide))

/-- The output format of a CAPTURE is one that the port's mosaic allows. -/
theorem capture_format {fmt m : Nat} (h5 : fmt < 5) (hm : (fmt ≠ 2 ∧ fmt ≠ 3) ∨ (m ≠ 2 ∧ m ≠ 5)) :
    ¬(5 ≤ fmt ∨ ((fmt = 2 ∨ fmt = 3) ∧ (m = 2 ∨ m = 5))) := by
  omega

/-! ### The ISP -/

/-- Of the camera state nothing but the table of ports has changed. -/
def CamsOnly (s u : State) : Prop := u.vis = { s.vis with cams := u.vis.cams }

theorem CamsOnly.refl (s : State) : CamsOnly s s := rfl

theorem CamsOnly.trans {v : State} (h : CamsOnly s u) (k : CamsOnly u v) : CamsOnly s v := by
  unfold CamsOnly at *
  rw [k, h]

theorem modCam_camsOnly (s : State) (p : Nat) (f : Cam → Cam) : CamsOnly s (modCam s p f) := rfl

theorem closeFrame_camsOnly (s : State) (p : Nat) (mark : CamFrame → CamFrame) : CamsOnly s (closeFrame s p mark) := by
  unfold closeFrame
  dsimp only
  split
  · exact .refl s
  · exact modCam_camsOnly _ _ _

theorem camFe_camsOnly (s : State) (p : Nat) : CamsOnly s (camFe s p) := by
  unfold camFe
  split
  · exact .refl s
  · exact (closeFrame_camsOnly s p id).trans rfl

theorem camPacket_camsOnly {p hdr : Nat} {a own : Bool} {f : State → State} (hf : ∀ v, CamsOnly v (f v)) :
    CamsOnly s (camPacket s p hdr a own f) := by
  unfold camPacket
  split
  · exact .refl s
  · extract_lets s1
    have h1 : CamsOnly s s1 := by
      unfold s1
      split
      · exact .refl s
      · exact modCam_camsOnly _ _ _
    split
    · exact h1
    · split
      · exact h1
      · exact h1.trans (hf _)

theorem feNow_camsOnly (s : State) : CamsOnly s (feNow s) := by
  unfold feNow
  generalize hl : s.pending = l
  clear hl
  induction l generalizing s with
  | nil => exact .refl s
  | cons c l ih =>
    refine CamsOnly.trans ?_ (ih _)
    dsimp only
    split
    · split
      · exact camPacket_camsOnly fun v => camFe_camsOnly v _
      · exact .refl s
    · exact .refl s

theorem foldl_complete_vis {α : Type} (l : List α) (ref : α → Ref) (st : α → Nat) (s : State) :
    (l.foldl (fun s x => complete s (ref x) stDone (st x)) s).vis = s.vis := by
  induction l generalizing s with
  | nil => rfl
  | cons x l ih => exact (ih _).trans (complete_vis ..)

/-- A parameter set that becomes live leaves the rest of its port. -/
theorem paramsStart_cam (s : State) (p n : Nat) : getCam (paramsStart s p n) p = { getCam s p with
    pend := (getCam (paramsStart s p n) p).pend, live := (getCam (paramsStart s p n) p).live } := by
  unfold paramsStart
  dsimp only
  split
  · rfl
  · rw [getCam_congr (congrArg Vision.cams (foldl_complete_vis _ _ _ _)), getCam_modCam_self]

/-- The state with the next memory frame started. -/
def ispBegun (s : State) (p : Nat) (f : CamFrame) (r : Ref) (l : List Ref) : State :=
  modVis (modCam (paramsStart s p f.no) p fun c => { c with jobs := l, ready := c.ready.drop 1 }) fun v =>
    { v with isp := some (p, { f with ref := some r, params := (getCam (paramsStart s p f.no) p).live.map (·.1) }) }

theorem ispStart_starts {p : Nat} {f : CamFrame} {l : List Ref} (hisp : s.vis.isp = none) (hslot : s.vis.slot = none)
    (hnext : ispNext (feNow s) = some (p, f)) (hjobs : (getCam (feNow s) p).jobs = r :: l) :
    ispStart s = ispView (rset (ispBegun (feNow s) p f r l) R.ISP_STAT_CUR_PORT p) := by
  have hc := feNow_camsOnly s
  unfold CamsOnly at hc
  unfold ispStart
  dsimp only
  rw [if_neg (by rw [hc, hisp, hslot]; decide), hnext]
  dsimp only
  rw [hjobs]
  rfl

theorem ispView_busy_memory (h : s.vis.isp.isSome = true) : rget (ispView s) R.ISP_STAT_BUSY = 1 := by
  unfold ispView
  dsimp only
  rw [h, Bool.true_or, Bool.true_or]
  exact rget_rset_self _ _ _ _ _

theorem ispBegun_within {p : Nat} {f : CamFrame} {l : List Ref} : Within [.reqs, .till, .vis] [] s (ispBegun s p f r l) :=
  modVis_within.step (modCam_within.step (paramsStart_within.mono rfl rfl) rfl rfl) rfl rfl

/-- A packet that the port accepts, its header good or corrected, counts nowhere but in the frame being received. -/
theorem camPacket_accepted_within {p hdr : Nat} {own : Bool} {f : State → State} (hh : hdr ≠ 2)
    (hf : ∀ v, Within [.regs, .vis] (blks [.isp]) v (f v)) : Within [.regs, .vis] (blks [.isp]) s (camPacket s p hdr true own f) := by
  unfold camPacket
  rw [if_neg hh]
  split
  · exact .refl s
  · rw [if_neg (by decide)]
    exact (hf _).step (within_ite (.refl s) (modCur_within.mono rfl rfl)) rfl rfl

theorem feNow_isp : Within [.regs, .vis] (blks [.isp]) s (feNow s) := by
  unfold feNow
  refine foldl_within (fun v c hu => ?_) (.refl s)
  split
  · split
    · next h => exact (camPacket_accepted_within h.2.1 fun _ => camFe_within).step hu rfl rfl
    · exact hu
  · exact hu

theorem rset_getCam (s : State) (f : Fld) (n i j p : Nat) : getCam (rset s f n i j) p = getCam s p := rfl

theorem ispBegun_cam (s : State) (p : Nat) (f : CamFrame) (r : Ref) (l : List Ref) : getCam (ispBegun s p f r l) p =
    { getCam s p with
      jobs := l, ready := (getCam s p).ready.drop 1
      pend := (getCam (paramsStart s p f.no) p).pend, live := (getCam (paramsStart s p f.no) p).live } := by
  refine (getCam_modCam_self (paramsStart s p f.no) p fun c => { c with jobs := l, ready := c.ready.drop 1 }).trans ?_
  rw [paramsStart_cam]

theorem ispStart_fields {p : Nat} {f : CamFrame} {l : List Ref} (hisp : s.vis.isp = none) (hslot : s.vis.slot = none)
    (hp : p < 4) (hnext : ispNext (feNow s) = some (p, f)) (hjobs : (getCam (feNow s) p).jobs = r :: l) :
    (ispStart s).vis.isp = some (p, { f with ref := some r, params := (getCam (paramsStart (feNow s) p f.no) p).live.map (·.1) }) ∧
      (getCam (ispStart s) p).jobs = l ∧ (getCam (ispStart s) p).ready = (getCam (feNow s) p).ready.drop 1 ∧
      rget (ispStart s) R.ISP_STAT_CUR_PORT = p ∧ rget (ispStart s) R.ISP_STAT_BUSY = 1 ∧
      Within [.regs, .reqs, .till, .vis] (blks [.isp]) s (ispStart s) := by
  rw [ispStart_starts hisp hslot hnext hjobs]
  have hcam := ispBegun_cam (feNow s) p f r l
  rw [ispView_getCam, rset_getCam, hcam]
  refine ⟨rfl, rfl, rfl, ?_, ispView_busy_memory rfl, ?_⟩
  · rw [ispView_port, rget_rset_self]
    rw [show 2 ^ R.ISP_STAT_CUR_PORT.width = 4 by decide]
    exact Nat.mod_eq_of_lt hp
  · have hw : Within [.regs, .reqs, .till, .vis] (blks [.isp]) s (rset (ispBegun (feNow s) p f r l) R.ISP_STAT_CUR_PORT p) :=
      rset_within.step (ispBegun_within.step (feNow_isp.mono rfl rfl) rfl rfl) rfl rfl
    exact (ispView_within.step hw rfl rfl : Within [.regs, .reqs, .till, .vis] (blks [.isp]) s _)

/-! ### Frames that end -/

theorem hostWrite_own {a : Nat} {bs : List Byte} : Within [.mem] [] s (hostWrite s false a bs) :=
  { Within.refl s with mem := .inl (by decide) }

theorem writeRaw_own {addr stride : Nat} {f : CamFrame} : Within [.mem] [] s (writeRaw s addr stride f) :=
  foldl_within (fun _ _ hu => hostWrite_own.step hu rfl rfl) (.refl _)

theorem writeRows_own {addr st : Nat} {planes : List (Nat × Nat × Nat × Nat)} {lines : List (List Nat)}
    {out : List (Nat × Nat × List Nat)} : Within [.mem] [] s (writeRows s addr st planes lines out) := by
  unfold writeRows
  refine foldl_within (fun _ _ hu => ?_) (.refl _)
  dsimp only
  split
  · split
    · exact within_ite (hostWrite_own.step hu rfl rfl) hu
    · exact hu
  · exact hu

theorem finishFrame_done {p : Nat} {f : CamFrame} {out : List (Nat × Nat × List Nat)} {ir : List (Nat × List Nat)} {st : IspStats}
    (href : f.ref = some r) (hd : reqDesc s r = some d) : ∃ v, Within [.mem] [] s v ∧
      finishFrame s p f false out ir st = complete v r stDone (frameFlags (camHeight s p) f + 256 * (f.no % 256)) := by
  unfold finishFrame
  rw [href]
  dsimp only
  rw [if_neg (by decide), hd]
  dsimp only
  refine ⟨_, ?_, rfl⟩
  exact within_ite (within_ite writeRaw_own writeRows_own)
    (hostWrite_own.step (within_ite writeRaw_own writeRows_own) rfl rfl)

theorem finishFrame_ecc {p : Nat} {f : CamFrame} {out : List (Nat × Nat × List Nat)} {ir : List (Nat × List Nat)} {st : IspStats}
    (href : f.ref = some r) : finishFrame s p f true out ir st = complete s r stEccFatal := by
  unfold finishFrame
  rw [href]
  rfl

/-! ### The accelerator -/

theorem vxaNext_one {j : VxaJob} (hq : s.vis.queue = [j]) (hr : ∃ q ∈ s.reqs, q.ref = j.ref) : vxaNext s = some j := by
  have hall : ∀ x ∈ s.reqs.filterMap (fun q => [j].find? fun k => k.ref == q.ref), x = j := by
    intro x hx
    obtain ⟨q, -, hq⟩ := List.mem_filterMap.mp hx
    exact List.mem_singleton.mp (List.mem_of_find?_eq_some hq)
  have hmem : j ∈ s.reqs.filterMap (fun q => [j].find? fun k => k.ref == q.ref) := by
    obtain ⟨q, hq, href⟩ := hr
    exact List.mem_filterMap.mpr ⟨q, hq, by simp [href]⟩
  unfold vxaNext
  rw [hq]
  dsimp only
  split
  · next x hx => rw [hall x (List.mem_of_find?_eq_some hx)]
  · cases h : s.reqs.filterMap (fun q => [j].find? fun k => k.ref == q.ref) with
    | nil =>
      rw [h] at hmem
      exact absurd hmem List.not_mem_nil
    | cons x l => exact congrArg some (hall x (by rw [h]; exact List.mem_cons_self))

theorem vxaNext_none (hq : s.vis.queue = []) : vxaNext s = none := by
  unfold vxaNext
  rw [hq]
  simp

theorem vxaView_busy (h : s.vis.run.isSome = true) : rget (vxaView s) R.VXA_STAT_BUSY = 1 := by
  unfold vxaView rsetB
  dsimp only
  rw [rget_rset_ne _ _ _ _ _ _ (by decide), rget_rset_self, h]
  rfl

theorem vxaView_idle (h : s.vis.run = none) : rget (vxaView s) R.VXA_STAT_BUSY = 0 := by
  unfold vxaView rsetB
  dsimp only
  rw [rget_rset_ne _ _ _ _ _ _ (by decide), rget_rset_self, h]
  rfl

theorem vxaStart_runs (h : s.vis.run.isSome = true) : vxaStart s = vxaView s := if_pos h

theorem vxaStart_idle (hrun : s.vis.run = none) (hq : s.vis.queue = []) : vxaStart s = vxaView s := by
  unfold vxaStart
  rw [hrun, vxaNext_none hq]
  rfl

theorem vxaStart_one {j : VxaJob} (hrun : s.vis.run = none) (hq : s.vis.queue = [j]) (hr : ∃ q ∈ s.reqs, q.ref = j.ref) :
    (vxaStart s).vis.run = some j ∧ (vxaStart s).vis.queue = [] ∧ (vxaStart s).vis.runAt = s.now ∧
      rget (vxaStart s) R.VXA_STAT_BUSY = 1 := by
  have h : vxaStart s = vxaView (rset64 (modVis s fun v => { v with
      run := some j, runAt := s.now, queue := [], resident := some (j.netId, j.crc) })
      R.VXA_NET_ID_LO_NET_ID R.VXA_NET_ID_HI_NET_ID j.netId) := by
    unfold vxaStart
    rw [hrun, vxaNext_one hq hr]
    dsimp only [modVis]
    rw [hq]
    simp
  rw [h]
  exact ⟨rfl, rfl, rfl, vxaView_busy rfl⟩

/-! ### Ends of frames, bursts and runs -/

theorem complete_reqs_vis (s : State) (f : Vision → Vision) (r : Ref) (st d : Nat) (row : Option Nat) :
    (complete (modVis s f) r st d row).reqs = (complete s r st d row).reqs :=
  complete_reqs_congr (s := s) (u := modVis s f) rfl _ _ _ _

theorem finishFrame_reqs {p : Nat} {f : CamFrame} {out : List (Nat × Nat × List Nat)} {ir : List (Nat × List Nat)} {st : IspStats}
    (href : f.ref = some r) (hd : reqDesc s r = some d) : (finishFrame s p f false out ir st).vis = s.vis ∧
      (finishFrame s p f false out ir st).reqs = (complete s r stDone (frameFlags (camHeight s p) f + 256 * (f.no % 256))).reqs ∧
      Within [.mem, .reqs, .till] [] s (finishFrame s p f false out ir st) := by
  obtain ⟨v, hv, h⟩ := finishFrame_done (p := p) (out := out) (ir := ir) (st := st) href hd
  rw [h]
  refine ⟨?_, complete_reqs_congr (hv.reqs.resolve_left (by simp)) _ _ _ _, complete_within.step (hv.mono rfl rfl) rfl rfl⟩
  rw [complete_vis, hv.vis.resolve_left (by simp)]

theorem ispDone_memory {p : Nat} {f : CamFrame} {out : List (Nat × Nat × List Nat)} {ir : List (Nat × List Nat)} {st : IspStats}
    (hp : p ≠ 0) (hisp : s.vis.isp = some (p, f)) (href : f.ref = some r) (hd : reqDesc s r = some d) (hthrough : frameThrough f = true) :
    (ispDone s p false out ir st).vis.isp = none ∧
      (ispDone s p false out ir st).reqs = (complete s r stDone (frameFlags (camHeight s p) f + 256 * (f.no % 256))).reqs ∧
      Within [.regs, .vis, .mem, .reqs, .till] (blks [.isp]) s (ispDone s p false out ir st) := by
  have h : ispDone s p false out ir st =
      ispView (finishFrame (modVis s fun v => { v with isp := none }) p f false out ir st) := by
    unfold ispDone
    rw [if_neg hp, hisp]
    exact if_pos ⟨rfl, .inr hthrough⟩
  obtain ⟨h1, h2, h3⟩ := finishFrame_reqs (s := modVis s fun v => { v with isp := none }) (p := p) (out := out) (ir := ir)
    (st := st) href hd
  rw [h]
  refine ⟨(congrArg Vision.isp h1 :), h2.trans (complete_reqs_vis ..), ?_⟩
  exact ispView_within.step (h3.step (modVis_within.mono rfl rfl) rfl rfl) rfl rfl

theorem ispDone_ecc {p : Nat} {f : CamFrame} {out : List (Nat × Nat × List Nat)} {ir : List (Nat × List Nat)} {st : IspStats}
    (hp : p ≠ 0) (hisp : s.vis.isp = some (p, f)) (href : f.ref = some r) :
    (ispDone s p true out ir st).vis.isp = none ∧ (ispDone s p true out ir st).reqs = (complete s r stEccFatal).reqs ∧
      Within [.regs, .vis, .reqs, .till] (blks [.isp]) s (ispDone s p true out ir st) := by
  have h : ispDone s p true out ir st = ispView (complete (modVis s fun v => { v with isp := none }) r stEccFatal) := by
    unfold ispDone
    rw [if_neg hp, hisp]
    exact (if_pos ⟨rfl, .inl rfl⟩).trans (congrArg ispView (finishFrame_ecc href))
  rw [h]
  refine ⟨?_, complete_reqs_vis .., ?_⟩
  · exact congrArg Vision.isp (complete_vis (s := modVis s fun v => { v with isp := none }) ..)
  · exact ispView_within.step (complete_within.step (modVis_within.mono rfl rfl) rfl rfl) rfl rfl

theorem ispDone_zero {f : CamFrame} {l : List CamFrame} {c : Bool} {out : List (Nat × Nat × List Nat)} {ir : List (Nat × List Nat)}
    {st : IspStats} (hready : (getCam s 0).ready = f :: l) (href : f.ref = some r) (hd : reqDesc s r = some d)
    (hthrough : frameThrough f = true) :
    (getCam (ispDone s 0 c out ir st) 0).ready = l ∧
      (ispDone s 0 c out ir st).reqs = (complete s r stDone (frameFlags (camHeight s 0) f + 256 * (f.no % 256))).reqs ∧
      Within [.regs, .vis, .mem, .reqs, .till] (blks [.isp]) s (ispDone s 0 c out ir st) := by
  have h : ispDone s 0 c out ir st =
      ispView (finishFrame (modCam s 0 fun c => { c with ready := l }) 0 f false out ir st) := by
    unfold ispDone
    rw [if_pos rfl, hready]
    exact if_pos hthrough
  obtain ⟨h1, h2, h3⟩ := finishFrame_reqs (s := modCam s 0 fun c => { c with ready := l }) (p := 0) (out := out) (ir := ir)
    (st := st) href hd
  rw [h]
  refine ⟨?_, h2.trans (complete_reqs_vis ..), ?_⟩
  · rw [ispView_getCam, getCam_congr (congrArg Vision.cams h1), getCam_modCam_self]
  · exact ispView_within.step (h3.step (modCam_within.mono rfl rfl) rfl rfl) rfl rfl

theorem burstDone_fields {p n : Nat} {j : SensorJob} (hj : firstBurst s p = some j) :
    (getCam (burstDone s p n) p).burst.map (·.1) = some j.addr ∧ (∀ x ∈ (getCam (burstDone s p n) p).writes, x.ref ≠ j.ref) ∧
      (burstDone s p n).reqs = (if j.entries.length ≤ n then complete s j.ref stDone (min (j.eff.getD 0 - j.apply) 255)
        else complete s j.ref stRejectState 0x02C3).reqs := by
  unfold burstDone
  rw [hj]
  dsimp only
  generalize (j.entries.take n).zipIdx.map _ = wrote
  generalize hs1 : modCam s p _ = s1
  have hcam : getCam s1 p = { getCam s p with
      writes := (getCam s p).writes.filter fun k => k.ref != j.ref, burst := some (j.addr, wrote)
      effs := if wrote.isEmpty then (getCam s p).effs else (getCam s p).effs ++ [j.eff.getD 0] } := by
    rw [← hs1, getCam_modCam_self]
  have hwrites : ∀ x ∈ (getCam s1 p).writes, x.ref ≠ j.ref := by
    rw [hcam]
    intro x hx
    simpa using (List.mem_filter.mp hx).2
  have hreqs : s1.reqs = s.reqs := by
    rw [← hs1]
    rfl
  split
  · refine ⟨?_, ?_, complete_reqs_congr hreqs _ _ _ _⟩
    all_goals rw [getCam_congr (congrArg Vision.cams (complete_vis ..))]
    · rw [hcam]
      rfl
    · exact hwrites
  · refine ⟨?_, ?_, complete_reqs_congr hreqs _ _ _ _⟩
    all_goals rw [getCam_congr (congrArg Vision.cams (complete_vis ..))]
    · rw [hcam]
      rfl
    · exact hwrites

/-- The run that a RUN with a valid header asks for. -/
def vxaJobOf (r : Ref) (d : Desc) (h : List Nat) : VxaJob :=
  { ref := r, urgent := bitOf d.classWord 0, netId := join64 (imgWord h 0x10) (imgWord h 0x14),
    crc := imgWord h 0x3C, outAddr := d.quad 0x20, outLen := d.word 0x2C }

theorem vxaRun_valid {h : List Nat} (hhost : refHost s r = false) (hok : netHeaderOk h = true) (hin : d.word 0x28 = imgWord h 0x18)
    (hout : d.word 0x2C = imgWord h 0x1C) :
    vxaRun s r d h = vxaStart (modVis s fun v => { v with queue := v.queue ++ [vxaJobOf r d h] }) := by
  unfold vxaRun
  rw [if_neg (by rw [hhost]; decide), if_neg (by rw [hok]; decide), if_neg (fun e => e.elim (fun e => e hin) fun e => e hout)]
  rfl

theorem vxaDone_ok {j : VxaJob} {out : List Nat} (hrun : s.vis.run = some j) : vxaDone s false out =
    vxaStart (complete (rinc (hostWrite (modVis s fun v => { v with run := none }) false j.outAddr
      ((out.take j.outLen).map (BitVec.ofNat 8))) R.VXA_COUNTS_JOBS) j.ref stDone (min ((s.now - s.vis.runAt) / fcMs) 65535)) := by
  unfold vxaDone
  rw [hrun]
  rfl

theorem vxaDone_idle {j : VxaJob} {out : List Nat} (hrun : s.vis.run = some j) (hq : s.vis.queue = []) :
    (vxaDone s false out).vis.run = none ∧ rget (vxaDone s false out) R.VXA_STAT_BUSY = 0 ∧
      rget (vxaDone s false out) R.VXA_COUNTS_JOBS = satTo R.VXA_COUNTS_JOBS.width (rget s R.VXA_COUNTS_JOBS + 1) ∧
      (vxaDone s false out).reqs = (complete s j.ref stDone (min ((s.now - s.vis.runAt) / fcMs) 65535)).reqs ∧
      (vxaDone s false out).mem = Memory.writeList s.mem j.outAddr ((out.take j.outLen).map (BitVec.ofNat 8)) ∧
      Within [.regs, .vis, .mem, .reqs, .till] (blks [.vxa]) s (vxaDone s false out) := by
  obtain ⟨v, hv⟩ : ∃ v, v = rinc (hostWrite (modVis s fun v => { v with run := none }) false j.outAddr
      ((out.take j.outLen).map (BitVec.ofNat 8))) R.VXA_COUNTS_JOBS := ⟨_, rfl⟩
  have hvis : v.vis = { s.vis with run := none } := by
    rw [hv]
    rfl
  have h : vxaDone s false out = vxaView (complete v j.ref stDone (min ((s.now - s.vis.runAt) / fcMs) 65535)) := by
    rw [vxaDone_ok hrun, ← hv]
    exact vxaStart_idle (by rw [complete_vis, hvis]) (by rw [complete_vis, hvis]; exact hq)
  have hw : Within [.regs, .vis, .mem] (blks [.vxa]) s v := by
    rw [hv]
    exact rinc_within.step (hostWrite_own.step (modVis_within.mono rfl rfl) rfl rfl) rfl rfl
  rw [h]
  refine ⟨?_, vxaView_idle ?_, ?_, ?_, ?_, vxaView_within.step (complete_within.step (hw.mono rfl rfl) rfl rfl) rfl rfl⟩
  · exact (congrArg Vision.run (complete_vis ..)).trans (by rw [hvis])
  · rw [complete_vis, hvis]
  · unfold vxaView rsetB
    rw [rget_rset_ne _ _ _ _ _ _ (by decide), rget_rset_ne _ _ _ _ _ _ (by decide), complete_within.rget R.VXA_COUNTS_JOBS 0 0 (by simp), hv]
    exact rget_rinc_self _ _ _ _ _
  · exact complete_reqs_congr (hw.reqs.resolve_left (by simp)) _ _ _ _
  · exact (complete_mem ..).trans (by rw [hv]; rfl)

theorem vxaDone_ecc {j : VxaJob} {out : List Nat} (hrun : s.vis.run = some j) (hq : s.vis.queue = []) :
    (vxaDone s true out).vis.run = none ∧ (vxaDone s true out).vis.resident = none ∧
      rget (vxaDone s true out) R.VXA_COUNTS_ECC_FATAL =
        satTo R.VXA_COUNTS_ECC_FATAL.width (rget s R.VXA_COUNTS_ECC_FATAL + 1) ∧
      (vxaDone s true out).reqs = (complete s j.ref stEccFatal).reqs ∧
      Within [.regs, .vis, .reqs, .till, .log, .mem, .extMem] (blks [.vxa, .hlm, .jrn]) s (vxaDone s true out) := by
  obtain ⟨v, hv⟩ : ∃ v, v = rset64 (rinc (modVis (modVis s fun v => { v with run := none }) fun v => { v with resident := none })
      R.VXA_COUNTS_ECC_FATAL) R.VXA_NET_ID_LO_NET_ID R.VXA_NET_ID_HI_NET_ID 0 := ⟨_, rfl⟩
  have hvis : v.vis = { s.vis with run := none, resident := none } := by
    rw [hv]
    rfl
  have hvis' : (raiseEv (complete v j.ref stEccFatal) evVxaEccFatal).vis = { s.vis with run := none, resident := none } := by
    rw [raiseEv_vis, complete_vis, hvis]
  have h : vxaDone s true out = vxaView (raiseEv (complete v j.ref stEccFatal) evVxaEccFatal) := by
    unfold vxaDone
    rw [hrun]
    dsimp only
    rw [if_pos rfl, ← hv]
    exact vxaStart_idle (by rw [hvis']) (by rw [hvis']; exact hq)
  have hw : Within [.regs, .vis] (blks [.vxa]) s v := by
    rw [hv]
    exact rset64_within.step (rinc_within.step (modVis_within.step (modVis_within.mono rfl rfl) rfl rfl) rfl rfl) rfl rfl
  rw [h]
  refine ⟨congrArg Vision.run hvis', congrArg Vision.resident hvis', ?_, ?_, ?_⟩
  · unfold vxaView rsetB
    rw [rget_rset_ne _ _ _ _ _ _ (by decide), rget_rset_ne _ _ _ _ _ _ (by decide),
      raiseEv_within.rget R.VXA_COUNTS_ECC_FATAL 0 0 (by decide), complete_within.rget R.VXA_COUNTS_ECC_FATAL 0 0 (by simp), hv,
      rget_rset64_ne _ _ _ _ (by decide) (by decide)]
    exact rget_rinc_self _ _ _ _ _
  · exact (raiseEv_within.reqs.resolve_left (by simp)).trans (complete_reqs_congr (hw.reqs.resolve_left (by simp)) _ _ _ _)
  · exact vxaView_within.step (raiseEv_within.step (complete_within.step (hw.mono rfl rfl) rfl rfl) rfl rfl) rfl rfl

/-- A descriptor that a consumer has taken stands among the outstanding ones. -/
theorem takeReq_outstanding {cls op : Nat} (h : heldDesc s r cls op = some d) : ∃ q ∈ (takeReq s r).reqs, q.ref = r := by
  unfold heldDesc findReq at h
  split at h
  · next q hq =>
    have href : q.ref = r := by simpa using List.find?_some hq
    refine ⟨_, List.mem_map_of_mem (List.mem_of_find?_eq_some hq), ?_⟩
    rw [if_pos (by rw [href, beq_self_eq_true])]
    exact href
  · exact absurd h nofun

theorem ispParams_new {img : List Nat} (hhost : refHost s r = false) (hon : camOn s (d.classWord % 4) = true)
    (hok : paramsOk img = true) (hnew : ∀ x ∈ (getCam s (d.classWord % 4)).pend, x.apply ≠ d.word 0x18) :
    ispParams s r d img = if 4 ≤ (getCam s (d.classWord % 4)).pend.length then complete s r stRejectBudget 0x03C0
      else modCam s (d.classWord % 4) fun c => { c with pend := c.pend ++ [⟨r, d.word 0x18, img.take 256⟩] } := by
  have hfind : (getCam s (d.classWord % 4)).pend.find? (fun x => x.apply == d.word 0x18) = none := by
    rw [List.find?_eq_none]
    exact fun x hx => by simpa using hnew x hx
  unfold ispParams
  rw [camJob_runs hhost hon]
  dsimp only
  rw [if_neg (by rw [hok]; decide), hfind]

/-- Settles O38. -/
theorem visionJobs : Obligations.VisionJobs := by
  unfold Obligations.VisionJobs
  refine ⟨?capture, ?short, ?host, ?off, ?sensor, ?sensorFormat, ?burst, ?noAck, ?params, ?paramsFull, ?paramsBad, ?ispStart,
    ?ispDone, ?ispEcc, ?ispZero, ?run, ?runQueued, ?runBad, ?done, ?doneIdle, ?doneEcc⟩
  case capture =>
    intro s t r d hfab hd hdue hfirst hhost hon h5 hm hlen
    have h : capture (takeReq (advance s t) r) r d = modCam (takeReq (advance s t) r) (d.classWord % 4) fun c =>
        { c with jobs := insertJob (takeReq (advance s t) r) r c.jobs } :=
      (camJob_runs (s := takeReq (advance s t) r) hhost hon).trans ((if_neg (capture_format h5 hm)).trans (if_neg (not_lt.mpr hlen)))
    refine ⟨_, (exec_capture hfab hd hdue hfirst).trans (congrArg _ h), fun x => ?_, ?_, rfl, rfl⟩
    · rw [getCam_modCam_self]
      exact mem_insertJob
    · rw [getCam_modCam_self]
      rfl
  case short =>
    exact fun s t r d hfab hd hdue hfirst hhost hon h5 hm hlen => (exec_capture hfab hd hdue hfirst).trans (congrArg _
      ((camJob_runs (s := takeReq (advance s t) r) hhost hon).trans ((if_neg (capture_format h5 hm)).trans (if_pos hlen))))
  case host =>
    exact fun s t r d hfab hd hdue hfirst hhost => (exec_capture hfab hd hdue hfirst).trans (congrArg _
      (camJob_host (s := takeReq (advance s t) r) hhost))
  case off =>
    exact fun s t r d hfab hd hdue hfirst hhost hon => (exec_capture hfab hd hdue hfirst).trans (congrArg _
      (camJob_off (s := takeReq (advance s t) r) hhost hon))
  case sensor =>
    intro s t r d hfab hd hdue hhost hon h1 h8
    refine ⟨_, (atFabric_desc hfab (fun d s => sensorWrite s r d) hd hdue).trans (congrArg _
      ((camJob_runs (s := takeReq (advance s t) r) hhost hon).trans (if_neg (by omega)))), ?_, rfl, rfl⟩
    rw [getCam_modCam_self]
    exact ⟨_, rfl, rfl, rfl, rfl, rfl, rfl⟩
  case sensorFormat =>
    exact fun s t r d hfab hd hdue hhost hon hn => (atFabric_desc hfab (fun d s => sensorWrite s r d) hd hdue).trans (congrArg _
      ((camJob_runs (s := takeReq (advance s t) r) hhost hon).trans (if_pos hn)))
  case burst =>
    intro s t p n j hfab hj hn
    obtain ⟨h1, h2, h3⟩ := burstDone_fields (s := advance s t) (p := p) (n := n) hj
    rw [if_pos hn] at h3
    exact ⟨_, atFabric_up s t (fun s => burstDone s p n) hfab, h3.trans (advance_complete_reqs ..), h1, h2,
      burstDone_within.eq_frame⟩
  case noAck =>
    intro s t p n j hfab hj hn
    obtain ⟨h1, h2, h3⟩ := burstDone_fields (s := advance s t) (p := p) (n := n) hj
    rw [if_neg (not_le.mpr hn)] at h3
    exact ⟨_, atFabric_up s t (fun s => burstDone s p n) hfab, h3.trans (advance_complete_reqs ..), h2, burstDone_within.eq_frame⟩
  case params =>
    intro s t r d img hfab hd hdue hhost hon hok hlen hnew
    refine ⟨_, (atFabric_desc hfab (fun d s => ispParams s r d img) hd hdue).trans (congrArg _
      ((ispParams_new (s := takeReq (advance s t) r) hhost hon hok hnew).trans (if_neg (not_le.mpr hlen)))), ?_, ?_, rfl, rfl⟩
    · rw [getCam_modCam_self]
      rfl
    · rw [getCam_modCam_self]
      rfl
  case paramsFull =>
    exact fun s t r d img hfab hd hdue hhost hon hok hlen hnew => (atFabric_desc hfab (fun d s => ispParams s r d img) hd hdue).trans
      (congrArg _ ((ispParams_new (s := takeReq (advance s t) r) hhost hon hok hnew).trans (if_pos hlen)))
  case paramsBad =>
    exact fun s t r d img hfab hd hdue hhost hon hbad => (atFabric_desc hfab (fun d s => ispParams s r d img) hd hdue).trans
      (congrArg _ ((camJob_runs (s := takeReq (advance s t) r) hhost hon).trans (if_pos (by rw [hbad]; rfl))))
  case ispStart =>
    intro s t p f r l hfab hisp hslot hnext hjobs
    have hisp' : (ispNow (advance s t)).vis.isp = none := by
      have h := (ispNow_linesRun (advance s t)).isp
      rw [show (advance s t).vis.isp = none from hisp] at h
      exact Option.map_eq_none_iff.mp h
    obtain ⟨h1, h2, h3, h4, h5, hw⟩ := ispStart_fields hisp' hslot p.isLt hnext hjobs
    replace hw := lineAfter_within hw rfl
    refine ⟨_, atVision_up t ispStart hfab, ?_, ?_, ?_, ?_, ?_, hw.blocksIn rfl, hw.eq_frame⟩
    · exact (lineAfter_isp _).trans h1
    · exact (congrArg Cam.jobs (lineAfter_getCam _ _)).trans h2
    · exact (congrArg Cam.ready (lineAfter_getCam _ _)).trans h3
    · exact (lineAfter_rget _ _ _ _).trans h4
    · exact (lineAfter_rget _ _ _ _).trans h5
  case ispDone =>
    intro s t p f r d out zs hs n hfab hp hisp href hd hthrough
    have hv : Within [.vis] [] (advance s t) (ispNow (advance s t)) := ispNow_within
    have hreqs : (ispNow (advance s t)).reqs = s.reqs := hv.reqs.resolve_left (by simp)
    obtain ⟨h1, h2, hw⟩ := ispDone_memory (s := ispNow (advance s t)) (out := out) (ir := n) (st := ⟨zs, hs⟩) (d := d)
      (fun h => hp (Fin.ext h)) hisp href (by rw [reqDesc, findReq, hreqs]; exact hd) hthrough
    rw [show camHeight (ispNow (advance s t)) p = camHeight s p from ispNow_rget _ _ _ _] at h2
    replace hw := lineAfter_within hw rfl
    refine ⟨_, atVision_up t (fun s => ispDone s p false out n ⟨zs, hs⟩) hfab, ?_, ?_, hw.extMem.resolve_left (by simp),
      hw.blocksIn rfl, hw.eq_frame⟩
    · exact (lineAfter_isp _).trans h1
    · exact (lineBegin_within.reqs.resolve_left (by simp)).trans (h2.trans (complete_reqs_congr hreqs _ _ _ _))
  case ispEcc =>
    intro s t p f r d out zs hs n hfab hp hisp href hd
    have hv : Within [.vis] [] (advance s t) (ispNow (advance s t)) := ispNow_within
    have hreqs : (ispNow (advance s t)).reqs = s.reqs := hv.reqs.resolve_left (by simp)
    obtain ⟨h1, h2, hw⟩ := ispDone_ecc (s := ispNow (advance s t)) (out := out) (ir := n) (st := ⟨zs, hs⟩)
      (fun h => hp (Fin.ext h)) hisp href
    replace hw := lineAfter_within hw rfl
    refine ⟨_, atVision_up t (fun s => ispDone s p true out n ⟨zs, hs⟩) hfab, ?_, ?_, ⟨hw.mem.resolve_left (by simp),
      hw.extMem.resolve_left (by simp)⟩, hw.blocksIn rfl, hw.eq_frame⟩
    · exact (lineAfter_isp _).trans h1
    · exact (lineBegin_within.reqs.resolve_left (by simp)).trans (h2.trans (complete_reqs_congr hreqs _ _ _ _))
  case ispZero =>
    intro s t f l r d out zs hs c n hfab hready hthrough href hd
    have hv : Within [.vis] [] (advance s t) (ispNow (advance s t)) := ispNow_within
    have hreqs : (ispNow (advance s t)).reqs = s.reqs := hv.reqs.resolve_left (by simp)
    obtain ⟨h1, h2, hw⟩ := ispDone_zero (s := ispNow (advance s t)) (c := c) (out := out) (ir := n) (st := ⟨zs, hs⟩) (d := d)
      hready href (by rw [reqDesc, findReq, hreqs]; exact hd) hthrough
    rw [show camHeight (ispNow (advance s t)) 0 = camHeight s 0 from ispNow_rget _ _ _ _] at h2
    replace hw := lineAfter_within hw rfl
    refine ⟨_, atVision_up t (fun s => ispDone s 0 c out n ⟨zs, hs⟩) hfab, ?_, ?_, hw.extMem.resolve_left (by simp),
      hw.blocksIn rfl, hw.eq_frame⟩
    · exact (congrArg Cam.ready (lineAfter_getCam _ _)).trans h1
    · exact (lineBegin_within.reqs.resolve_left (by simp)).trans (h2.trans (complete_reqs_congr hreqs _ _ _ _))
  case run =>
    intro s t r d h b hfab hd hdue hhost hok hin hout hrun hqueue
    have hx := (atFabric_desc hfab (fun d s => vxaRun s r d (h ++ b)) hd hdue).trans (congrArg _
      (vxaRun_valid (s := takeReq (advance s t) r) hhost hok hin hout))
    have hone := vxaStart_one (s := modVis (takeReq (advance s t) r) fun v => { v with queue := v.queue ++ [vxaJobOf r d (h ++ b)] })
      (j := vxaJobOf r d (h ++ b)) hrun (by
        show s.vis.queue ++ _ = _
        rw [hqueue]
        rfl) (takeReq_outstanding (s := advance s t) hd)
    obtain ⟨h1, h2, h3, h4⟩ := hone
    have hw : Within [.regs, .reqs, .vis] (blks [.vxa]) (advance s t) (vxaStart (modVis (takeReq (advance s t) r) fun v =>
        { v with queue := v.queue ++ [vxaJobOf r d (h ++ b)] })) :=
      vxaStart_within.step (modVis_within.step (takeReq_within.mono rfl rfl) rfl rfl) rfl rfl
    refine ⟨_, hx, ?_, h2, h3, h4, vxaStart_within.reqs.resolve_left (by simp), hw.blocksIn rfl, hw.eq_frame⟩
    rw [h1]
    rfl
  case runQueued =>
    intro s t r d h b j hfab hd hdue hhost hok hin hout hrun
    have hx := (atFabric_desc hfab (fun d s => vxaRun s r d (h ++ b)) hd hdue).trans (congrArg _
      ((vxaRun_valid (s := takeReq (advance s t) r) hhost hok hin hout).trans (vxaStart_runs (by
        show s.vis.run.isSome = true
        rw [hrun]
        rfl))))
    have hw : Within [.regs, .reqs, .vis] (blks [.vxa]) (advance s t) (vxaView (modVis (takeReq (advance s t) r) fun v =>
        { v with queue := v.queue ++ [vxaJobOf r d (h ++ b)] })) :=
      vxaView_within.step (modVis_within.step (takeReq_within.mono rfl rfl) rfl rfl) rfl rfl
    refine ⟨_, hx, hrun, ?_, vxaView_busy ?_, rfl, hw.blocksIn rfl, hw.eq_frame⟩
    · exact List.length_append
    · show s.vis.run.isSome = true
      rw [hrun]
      rfl
  case runBad =>
    intro s t r d h b hfab hd hdue hhost hbad
    refine (atFabric_desc hfab (fun d s => vxaRun s r d (h ++ b)) hd hdue).trans (congrArg _ ?_)
    unfold vxaRun
    rw [if_neg (by rw [show refHost (takeReq (advance s t) r) r = false from hhost]; decide), if_pos (by rw [hbad]; rfl)]
  case done =>
    exact fun s t j out hfab hrun => (atFabric_up s t (fun s => vxaDone s false out) hfab).trans (congrArg _
      (vxaDone_ok (s := advance s t) hrun))
  case doneIdle =>
    intro s t j out hfab hrun hqueue
    obtain ⟨h1, h2, h3, h4, h5, hw⟩ := vxaDone_idle (s := advance s t) (out := out) hrun hqueue
    refine ⟨_, atFabric_up s t (fun s => vxaDone s false out) hfab, h1, h2, h3, h4.trans (advance_complete_reqs ..), h5, ?_,
      hw.blocksIn rfl, hw.eq_frame⟩
    intro a ha
    rw [h5]
    refine Memory.read_writeList_of_notMem _ _ _ _ fun k hk => ha k ?_
    simp only [List.length_map, List.length_take] at hk
    omega
  case doneEcc =>
    intro s t j out hfab hrun hqueue
    obtain ⟨h1, h2, h3, h4, hw⟩ := vxaDone_ecc (s := advance s t) (out := out) hrun hqueue
    exact ⟨_, atFabric_up s t (fun s => vxaDone s true out) hfab, h1, h2, h3, h4.trans (advance_complete_reqs ..),
      hw.blocksIn rfl, hw.eq_frame⟩

end Sys2Proof.Machine
end

section
/-! Panel ports: what the view, the settling of jobs and wipes leave of a port, and O41. -/

namespace Sys2Proof.Machine

variable {s u : State} {t : Fc} {p : Nat}

/-! ### The table of ports -/

theorem getPnl_congr (h : u.pnl = s.pnl) (p : Nat) : getPnl u p = getPnl s p := by
  unfold getPnl
  rw [h]

@[simp] theorem getPnl_modPnl (s : State) (p : Nat) (f : Pnl → Pnl) : getPnl (modPnl s p f) p = f (getPnl s p) :=
  tblGetD_set_self _ _ _ _

@[simp] theorem getPnl_rset (s : State) (f : Fld) (v i j p : Nat) : getPnl (rset s f v i j) p = getPnl s p := rfl

@[simp] theorem getPnl_rsetB (s : State) (f : Fld) (b : Bool) (i j p : Nat) : getPnl (rsetB s f b i j) p = getPnl s p := rfl

@[simp] theorem getPnl_rinc (s : State) (f : Fld) (n i j p : Nat) : getPnl (rinc s f n i j) p = getPnl s p := rfl

@[simp] theorem getPnl_raiseEv (s : State) (c i d p : Nat) : getPnl (raiseEv s c i d) p = getPnl s p :=
  getPnl_congr (raiseEv_within.pnl.resolve_left (by simp)) p

@[simp] theorem getPnl_complete (s : State) (r : Ref) (st d : Nat) (row : Option Nat) (p : Nat) :
    getPnl (complete s r st d row) p = getPnl s p :=
  getPnl_congr (complete_within.pnl.resolve_left (by simp)) p

theorem foldl_complete_pnl {α : Type} (l : List α) (ref : α → Ref) (st : α → Nat) (s : State) :
    (l.foldl (fun s x => complete s (ref x) stDone (st x)) s).pnl = s.pnl := by
  induction l generalizing s with
  | nil => rfl
  | cons x l ih => exact (ih _).trans (complete_within.pnl.resolve_left (by simp))

/-! ### The view -/

theorem vlcdTo_pnl (s : State) (p v : Nat) : getPnl (vlcdTo s p v) p = { getPnl s p with move := (getPnl (vlcdTo s p v) p).move } := by
  unfold vlcdTo
  dsimp only
  split
  · rfl
  · rw [getPnl_rset, getPnl_modPnl]

theorem vlcdTo_rget (s : State) (p v : Nat) (f : Fld) (i j : Nat) (h : f.id ≠ R.PNL_STATUS_VLCD_10MV.id) :
    rget (vlcdTo s p v) f i j = rget s f i j := by
  unfold vlcdTo
  dsimp only
  split
  · rfl
  · exact rget_rset_ne _ _ _ _ _ _ h

/-- Bringing VDD and PNL_STATUS up to date leaves the rest of the port. -/
theorem panelView_pnl (s : State) (p : Nat) : getPnl (panelView s p) p = { getPnl s p with
    vdd := (getPnl (panelView s p) p).vdd, move := (getPnl (panelView s p) p).move } := by
  unfold panelView
  extract_lets q on s0 s1
  have h1 : getPnl s1 p = { getPnl s p with vdd := (getPnl s1 p).vdd } := by
    show getPnl s0 p = { getPnl s p with vdd := (getPnl s0 p).vdd }
    unfold s0
    split
    · rfl
    · rw [getPnl_modPnl]
  split
  · rw [h1]
  · rw [vlcdTo_pnl, getPnl_rsetB, h1]

theorem panelView_rget (s : State) (p : Nat) (f : Fld) (i j : Nat) (h1 : f.id ≠ R.PNL_STATUS_WRITING.id)
    (h2 : f.id ≠ R.PNL_STATUS_PENDING.id) (h3 : f.id ≠ R.PNL_STATUS_BLANKED.id) (h4 : f.id ≠ R.PNL_STATUS_VLCD_10MV.id) :
    rget (panelView s p) f i j = rget s f i j := by
  unfold panelView
  extract_lets q on s0 s1
  have hs1 : rget s1 f i j = rget s f i j := by
    show rget (rset (rsetB s0 _ _ p) _ _ p) f i j = _
    unfold rsetB
    rw [rget_rset_ne _ _ _ _ _ _ h2, rget_rset_ne _ _ _ _ _ _ h1]
    unfold s0
    split <;> rfl
  split
  · exact hs1
  · rw [vlcdTo_rget _ _ _ _ _ _ h4]
    unfold rsetB
    rw [rget_rset_ne _ _ _ _ _ _ h3, hs1]

/-! ### Settling -/

theorem tblGet?_mapVals {α : Type} (g : Nat → α → α) (l : Tbl α) (n : Nat) :
    tblGet? (l.map fun x => (x.1, g x.1 x.2)) n = (tblGet? l n).map (g n) := by
  induction l with
  | nil => rfl
  | cons x l ih =>
    obtain ⟨k, v⟩ := x
    show (if n = k then some (g k v) else tblGet? (l.map fun x => (x.1, g x.1 x.2)) n) = (if n = k then some v else tblGet? l n).map (g n)
    rw [ih]
    by_cases h : n = k
    · rw [if_pos h, if_pos h, h]
      rfl
    · rw [if_neg h, if_neg h]

/-- A line that no longer names descriptors that have ended. -/
def PnlLine.forgets (l : List Ref) (x : PnlLine) : PnlLine :=
  { x with
    source := if x.source.any l.contains then none else x.source
    forced := x.forced.map fun r => if l.contains r then ghostRef else r }

theorem forgetJobs_lines (l : List Ref) (q : Pnl) : (forgetJobs l q).lines = q.lines.map fun x => (x.1, x.2.forgets l) := rfl

theorem forgets_nil (x : PnlLine) : x.forgets [] = x := by
  obtain ⟨content, shown, shadow, owner, source, forced⟩ := x
  cases source <;> simp [PnlLine.forgets]

theorem forgetJobs_nil (q : Pnl) : forgetJobs [] q = q := by
  obtain ⟨lines, writing⟩ := q
  unfold forgetJobs
  dsimp only
  have hl : lines.map (fun x => (x.1, x.2.forgets [])) = lines := by
    simp only [forgets_nil, List.map_id']
  have hw : writing.map (fun w => { w with source := if w.source.any ([] : List Ref).contains then none else w.source }) = writing := by
    cases writing with
    | none => rfl
    | some w =>
      obtain ⟨line, content, source, ends⟩ := w
      cases source <;> simp
  exact congrArg₂ (fun a b => Pnl.mk a b _ _ _ _ _ _ _ _ _ _ _ _ _ _ _ _) hl hw

/-- Completing the UPDATEs none of whose lines belongs to them changes of the port only which descriptors it names. -/
theorem settleJobs_pnl (s : State) (p : Nat) : ∃ l js, (∀ j ∈ js, j ∈ (getPnl s p).jobs) ∧
    getPnl (settleJobs s p) p = forgetJobs l { getPnl s p with jobs := js } := by
  unfold settleJobs
  extract_lets q holds done
  split
  · exact ⟨[], q.jobs, fun _ h => h, (forgetJobs_nil _).symm⟩
  · refine ⟨done.map PnlJob.ref, q.jobs.filter holds, fun j hj => (List.mem_filter.mp hj).1, ?_⟩
    rw [getPnl_congr (foldl_complete_pnl _ _ _ _), getPnl_modPnl]

theorem settleJobs_none (h : (getPnl s p).jobs = []) : settleJobs s p = s := by
  unfold settleJobs
  dsimp only
  rw [h]
  rfl

/-- A line of the store has a property. -/
def HasLine (Q : PnlLine → Prop) (s : State) (p n : Nat) : Prop := ∃ l, tblGet? (getPnl s p).lines n = some l ∧ Q l

/-- Every line of the store has a property. -/
def AllLines (Q : PnlLine → Prop) (s : State) (p : Nat) : Prop := ∀ x ∈ (getPnl s p).lines, Q x.2

/-- The property does not speak of descriptors. -/
def Anonymous (Q : PnlLine → Prop) : Prop := ∀ l r f, Q l → Q { l with source := r, forced := f }

section
variable {Q : PnlLine → Prop}

theorem HasLine.getLine {n : Nat} (h : HasLine Q s p n) : Q (getLine s p n) := by
  obtain ⟨l, hl, hq⟩ := h
  unfold Machine.getLine
  dsimp only
  rw [hl]
  exact hq

theorem HasLine.of_lines {n : Nat} (h : HasLine Q s p n) (hl : (getPnl u p).lines = (getPnl s p).lines) : HasLine Q u p n := by
  unfold HasLine
  rw [hl]
  exact h

theorem AllLines.of_lines (h : AllLines Q s p) (hl : (getPnl u p).lines = (getPnl s p).lines) : AllLines Q u p := by
  unfold AllLines
  rw [hl]
  exact h

theorem HasLine.forget {n : Nat} {l : List Ref} {q : Pnl} (hq : Anonymous Q) (h : ∃ x, tblGet? q.lines n = some x ∧ Q x) :
    ∃ x, tblGet? (forgetJobs l q).lines n = some x ∧ Q x := by
  obtain ⟨x, hx, hqx⟩ := h
  refine ⟨x.forgets l, ?_, hq _ _ _ hqx⟩
  rw [forgetJobs_lines]
  exact (tblGet?_mapVals (fun _ (x : PnlLine) => x.forgets l) _ _).trans (by rw [hx]; rfl)

theorem HasLine.settle {n : Nat} (hq : Anonymous Q) (h : HasLine Q s p n) : HasLine Q (settleJobs s p) p n := by
  obtain ⟨l, js, -, hs⟩ := settleJobs_pnl s p
  unfold HasLine
  rw [hs]
  exact HasLine.forget hq h

theorem AllLines.settle (hq : Anonymous Q) (h : AllLines Q s p) : AllLines Q (settleJobs s p) p := by
  obtain ⟨l, js, -, hs⟩ := settleJobs_pnl s p
  unfold AllLines
  rw [hs]
  intro x hx
  obtain ⟨y, hy, rfl⟩ := List.mem_map.mp hx
  exact hq _ _ _ (h y hy)

theorem HasLine.view {n : Nat} (h : HasLine Q s p n) : HasLine Q (panelView s p) p n :=
  h.of_lines (by rw [panelView_pnl])

theorem AllLines.view (h : AllLines Q s p) : AllLines Q (panelView s p) p := h.of_lines (by rw [panelView_pnl])

end

/-! ### Wipes -/

theorem sendWipes_pnl (s : State) (p : Nat) : getPnl (sendWipes s p) p = { getPnl s p with
    wipes := (getPnl (sendWipes s p) p).wipes, wiping := (getPnl (sendWipes s p) p).wiping
    frame := (getPnl (sendWipes s p) p).frame } := by
  unfold sendWipes
  dsimp only
  split
  · rfl
  · rw [getPnl_modPnl]

theorem sendWipes_none (h : (getPnl s p).wipes = []) : sendWipes s p = s := by
  unfold sendWipes
  dsimp only
  rw [h]
  simp

theorem sendWipes_busy (h : (getPnl s p).writing.isSome = true) : sendWipes s p = s := by
  unfold sendWipes
  dsimp only
  rw [h]
  rfl

theorem sendWipes_idle (hw : (getPnl s p).writing = none) (hg : (getPnl s p).wiping = none) (h : (getPnl s p).wipes ≠ []) :
    getPnl (sendWipes s p) p = { getPnl s p with
      wipes := [], wiping := some (s.now + frameFc s p 36, (getPnl s p).wipes), frame := wipeFrame } := by
  unfold sendWipes
  dsimp only
  rw [if_neg (by rw [hw, hg]; simpa using h), getPnl_modPnl]

theorem sendWipes_open (h : wipeOpen s p = true) : wipeOpen (sendWipes s p) p = true := by
  unfold sendWipes
  dsimp only
  split
  · exact h
  · unfold wipeOpen
    rw [getPnl_modPnl]
    rfl

theorem wipeOpen_congr (h1 : (getPnl u p).wipes = (getPnl s p).wipes) (h2 : (getPnl u p).wiping = (getPnl s p).wiping) :
    wipeOpen u p = wipeOpen s p := by
  unfold wipeOpen
  rw [h1, h2]

theorem wipeOpen_view (s : State) (p : Nat) : wipeOpen (panelView s p) p = wipeOpen s p :=
  wipeOpen_congr (by rw [panelView_pnl]) (by rw [panelView_pnl])

/-! ### Ports that are enabled and disabled -/

theorem pnlEnable_ok (hoff : pnlOn s p = false) (hok : pnlError s p = 0) : pnlEnable s p =
    panelView (sendWipes (rset (modPnl (rset s R.PNL_CTRL_ERR 0 p) p fun q => { q with
      lines := [], last := none, jobs := [], wipes := [none] }) R.PNL_CTRL_EN 1 p) p) p := by
  unfold pnlEnable
  rw [hoff, hok]
  rfl

theorem pnlEnable_error (hoff : pnlOn s p = false) (herr : pnlError s p ≠ 0) :
    pnlEnable s p = rset s R.PNL_CTRL_ERR (pnlError s p) p := by
  unfold pnlEnable
  rw [if_neg (by rw [hoff]; decide)]
  exact if_pos herr

theorem pnlEnable_fields (hoff : pnlOn s p = false) (hok : pnlError s p = 0) :
    rget (pnlEnable s p) R.PNL_CTRL_EN p = 1 ∧ rget (pnlEnable s p) R.PNL_CTRL_ERR p = 0 ∧ (getPnl (pnlEnable s p) p).lines = [] ∧
      (getPnl (pnlEnable s p) p).jobs = [] ∧ wipeOpen (pnlEnable s p) p = true := by
  rw [pnlEnable_ok hoff hok]
  have hr : ∀ v f i j, rget (sendWipes v p) f i j = rget v f i j := fun v f i j => sendWipes_within.rget f i j (by simp)
  refine ⟨?_, ?_, ?_, ?_, ?_⟩
  · rw [panelView_rget _ _ _ _ _ (by decide) (by decide) (by decide) (by decide), hr, rget_rset_self]
    rfl
  · rw [panelView_rget _ _ _ _ _ (by decide) (by decide) (by decide) (by decide), hr, rget_rset_ne _ _ _ _ _ _ (by decide)]
    exact rget_rset_self _ _ _ _ _
  · rw [panelView_pnl, sendWipes_pnl, getPnl_rset, getPnl_modPnl]
  · rw [panelView_pnl, sendWipes_pnl, getPnl_rset, getPnl_modPnl]
  · rw [wipeOpen_view]
    refine sendWipes_open ?_
    unfold wipeOpen
    rw [getPnl_rset, getPnl_modPnl]
    rfl

/-- The line that the panel shows when the port is disabled: that of a line in its write is what is being written. -/
def heldLine (w : Option PnlWrite) (v : State) (p n : Nat) (l : PnlLine) : List Nat :=
  match w with
  | some w => if w.line = n then w.content else shownOf v p l
  | none => shownOf v p l

/-- The port once it is disabled, `v` being the state in which its descriptors have stopped. -/
def pnlStopped (w : Option PnlWrite) (v : State) (p : Nat) : State :=
  panelView (modPnl v p fun q => { q with
    wipes := [], jobs := [], writing := q.writing.map fun w => { w with source := none }
    lines := q.lines.map fun x => (x.1, { x.2 with
      content := heldLine w v p x.1 x.2, owner := none, source := none, forced := [] }) }) p

/-- No wipe waits or is being sent. -/
def Unwiped (p : Nat) (s : State) : Prop := wipeOpen s p = false

theorem stopPanelJob_unwiped {r : Ref} (h : Unwiped p s) : Unwiped p (stopPanelJob s p r) := by
  unfold Unwiped wipeOpen at *
  simp only [Bool.or_eq_false_iff, Bool.not_eq_false', List.isEmpty_iff, Option.isSome_eq_false_iff, Option.isNone_iff_eq_none] at h ⊢
  unfold stopPanelJob
  dsimp only
  rw [panelView_pnl, getPnl_modPnl, getPnl_modPnl]
  unfold forgetJobs
  dsimp only
  rw [h.1, h.2]
  exact ⟨rfl, rfl⟩

/-- What does not speak of descriptors, an abort keeps where the stop of the work does. -/
theorem abortReq_property {P : State → Prop} {r : Ref} {stop : State → State} (hP : ∀ v l, P v → P { v with reqs := l })
    (hstop : ∀ v, P v → P (stop v)) (h : P s) : P (abortReq s r stop) := by
  have hmark (q : Req → Req) (v : State) (hv : P v) : P (updReq v r q) := hP v _ hv
  unfold abortReq abortReqAt
  split
  · exact h
  · split
    · exact h
    · extract_lets natural s1
      have hs1 : P s1 := hmark _ _ h
      split
      · exact hstop _ hs1
      · exact hstop _ hs1
      · exact hmark _ _ hs1
      · exact hs1

theorem unwiped_of_pnl {v w : State} (h : w.pnl = v.pnl) (hv : Unwiped p v) : Unwiped p w :=
  (wipeOpen_congr (by rw [getPnl_congr h]) (by rw [getPnl_congr h])).trans hv

theorem abortPanelJob_unwiped {r : Ref} (h : Unwiped p s) : Unwiped p (abortPanelJob s p r) :=
  abortReq_property (fun _ _ => unwiped_of_pnl rfl) (fun _ hv => unwiped_of_pnl (complete_within.pnl.resolve_left (by simp))
    (stopPanelJob_unwiped hv)) h

theorem abortPanelJob_rget (s : State) (p : Nat) (r : Ref) (f : Fld) (i j : Nat) (h1 : f.id ≠ R.PNL_STATUS_WRITING.id)
    (h2 : f.id ≠ R.PNL_STATUS_PENDING.id) (h3 : f.id ≠ R.PNL_STATUS_BLANKED.id) (h4 : f.id ≠ R.PNL_STATUS_VLCD_10MV.id) :
    rget (abortPanelJob s p r) f i j = rget s f i j :=
  abortReq_property (P := fun v => rget v f i j = rget s f i j) (fun _ _ hv => hv)
    (fun v hv => (complete_within.rget f i j (by simp)).trans ((panelView_rget _ _ _ _ _ h1 h2 h3 h4).trans hv)) rfl

theorem pnlDisable_on (hon : pnlOn s p = true) : ∃ v, pnlDisable s p = pnlStopped (getPnl s p).writing v p ∧
    rget v R.PNL_CTRL_EN p = 0 ∧ (Unwiped p s → Unwiped p v) := by
  unfold pnlDisable
  rw [if_neg (by rw [hon]; decide)]
  refine ⟨_, rfl, ?_, fun h => ?_⟩
  · refine List.foldlRecOn (motive := fun v => rget v R.PNL_CTRL_EN p = 0) _ _ ?_ fun v hv q _ => ?_
    · rw [rget_rset_self]
      rfl
    · exact (abortPanelJob_rget _ _ _ _ _ _ (by decide) (by decide) (by decide) (by decide)).trans hv
  · exact List.foldlRecOn (motive := Unwiped p) _ _ (unwiped_of_pnl rfl h) fun v hv q _ => abortPanelJob_unwiped hv

theorem pnlStopped_pnl (w : Option PnlWrite) (v : State) (p : Nat) : getPnl (pnlStopped w v p) p = { getPnl v p with
    wipes := [], jobs := [], writing := (getPnl v p).writing.map fun w => { w with source := none }
    lines := (getPnl v p).lines.map fun x => (x.1, { x.2 with
      content := heldLine w v p x.1 x.2, owner := none, source := none, forced := [] })
    vdd := (getPnl (pnlStopped w v p) p).vdd, move := (getPnl (pnlStopped w v p) p).move } := by
  unfold pnlStopped
  rw [panelView_pnl, getPnl_modPnl]

theorem pnlDisable_fields (hon : pnlOn s p = true) :
    rget (pnlDisable s p) R.PNL_CTRL_EN p = 0 ∧ (getPnl (pnlDisable s p) p).jobs = [] ∧ (getPnl (pnlDisable s p) p).wipes = [] ∧
      (∀ x ∈ (getPnl (pnlDisable s p) p).lines, x.2.owner = none ∧ x.2.source = none ∧ x.2.forced = []) ∧
      (∀ w, (getPnl s p).writing = some w → ∀ x ∈ (getPnl (pnlDisable s p) p).lines, x.1 = w.line → x.2.content = w.content) ∧
      ((getPnl s p).writing = none → wipeOpen s p = false → ∀ x ∈ (getPnl (pnlDisable s p) p).lines, x.2.content = x.2.shown) := by
  obtain ⟨v, hv, hen, hw⟩ := pnlDisable_on hon
  rw [hv]
  have hen' : rget (pnlStopped (getPnl s p).writing v p) R.PNL_CTRL_EN p = 0 :=
    (panelView_rget _ _ _ _ _ (by decide) (by decide) (by decide) (by decide)).trans hen
  rw [pnlStopped_pnl]
  refine ⟨hen', rfl, rfl, fun x hx => ?_, fun w hwr x hx hn => ?_, fun hwr hopen x hx => ?_⟩
  all_goals obtain ⟨y, -, rfl⟩ := List.mem_map.mp hx
  · exact ⟨rfl, rfl, rfl⟩
  · show heldLine (getPnl s p).writing v p y.1 y.2 = w.content
    rw [hwr]
    exact if_pos hn.symm
  · show heldLine (getPnl s p).writing v p y.1 y.2 = y.2.shown
    rw [hwr]
    exact if_neg (by rw [show wipeOpen v p = false from hw hopen]; decide)

theorem pendingLines_off (h : rget s R.PNL_CTRL_EN p = 0) : pendingLines s p = [] := by
  unfold pendingLines pnlOn rbit
  rw [h]
  rfl

/-! ### Requests -/

theorem takeOver_lines (s : State) (p : Nat) (src : Option Ref) : (getPnl (takeOver s p src) p).lines = (getPnl s p).lines := by
  unfold takeOver
  split
  · rw [getPnl_modPnl]
  · rfl

/-- A line of an UPDATE: the store takes its pixels, the other lines stand. -/
theorem updateLine_lines (s : State) (p : Nat) (r : Ref) (force blanked : Bool) (n : Nat) (px : List Nat) : ∃ l, l.content = px ∧
    (getPnl (updateLine s p r force blanked n px) p).lines = tblSet (getPnl s p).lines n l := by
  unfold updateLine
  extract_lets w l s1 busy same l1 s2
  have h2 : (getPnl s2 p).lines = tblSet (getPnl s p).lines n l1 := by
    show (getPnl (modPnl s1 p _) p).lines = _
    rw [getPnl_modPnl]
    exact congrArg (fun x => tblSet x n l1) (takeOver_lines _ _ _)
  refine ⟨l1, rfl, ?_⟩
  split
  · rw [getPnl_rinc, h2]
  · exact h2


theorem updateLine_rget (s : State) (p : Nat) (r : Ref) (force blanked : Bool) (n : Nat) (px : List Nat) (f : Fld) (i j : Nat)
    (h : f.id ≠ R.PNL_COUNTS_SKIPPED.id) : rget (updateLine s p r force blanked n px) f i j = rget s f i j := by
  unfold updateLine
  extract_lets w l s1 busy same l1 s2
  have h2 : rget s2 f i j = rget s f i j :=
    (setLine_within.rget f i j (by simp)).trans (takeOver_within.rget f i j (by simp))
  split
  · exact (rget_rset_ne _ _ _ _ _ _ h).trans h2
  · exact h2

/-- The content of a line as an UPDATE leaves it. -/
def HasContent (px : List Nat) (l : PnlLine) : Prop := l.content = px

theorem hasContent_anonymous (px : List Nat) : Anonymous (HasContent px) := fun _ _ _ h => h

theorem updateLines_content (r : Ref) (force blanked : Bool) (first : Nat) (px : State → Nat → List Nat) (c : Nat → List Nat)
    (hpx : ∀ v k, rget v R.PNL_SIZE_WIDTH p = rget s R.PNL_SIZE_WIDTH p → px v k = c k) (n : Nat) :
    (∀ k < n, HasLine (HasContent (c k))
      ((List.range n).foldl (fun s k => updateLine s p r force blanked (first + k) (px s k)) s) p (first + k)) ∧
      rget ((List.range n).foldl (fun s k => updateLine s p r force blanked (first + k) (px s k)) s) R.PNL_SIZE_WIDTH p =
        rget s R.PNL_SIZE_WIDTH p := by
  induction n with
  | zero => exact ⟨fun _ h => absurd h (Nat.not_lt_zero _), rfl⟩
  | succ n ih =>
    obtain ⟨ih1, ih2⟩ := ih
    rw [List.range_succ, List.foldl_append, List.foldl_cons, List.foldl_nil]
    generalize (List.range n).foldl (fun s k => updateLine s p r force blanked (first + k) (px s k)) s = v at ih1 ih2 ⊢
    obtain ⟨l, hl, hlines⟩ := updateLine_lines v p r force blanked (first + n) (px v n)
    refine ⟨fun k hk => ?_, (updateLine_rget _ _ _ _ _ _ _ _ _ _ (by decide)).trans ih2⟩
    unfold HasLine
    rw [hlines]
    obtain rfl | hne := eq_or_ne k n
    · exact ⟨l, tblGet?_set_self _ _ _, hl.trans (hpx v k ih2)⟩
    · obtain ⟨x, hx, hcx⟩ := ih1 k (by omega)
      exact ⟨x, (tblGet?_set_ne _ _ (by omega)).trans hx, hcx⟩

section
variable {r : Ref} {d : Desc} {src : List Nat}

theorem pnlUpdate_format (h : d.word 0x18 / 65536 % 512 = 0 ∨
    pnlHeight s (d.classWord % 2) < d.word 0x18 % 512 + d.word 0x18 / 65536 % 512 ∨
    d.word 0x1C % 65536 < pnlWidth s (d.classWord % 2) / 2) : pnlUpdate s r d src = complete s r stRejectFormat 0x01F0 := if_pos h

theorem pnlUpdate_off (h : ¬(d.word 0x18 / 65536 % 512 = 0 ∨
    pnlHeight s (d.classWord % 2) < d.word 0x18 % 512 + d.word 0x18 / 65536 % 512 ∨
    d.word 0x1C % 65536 < pnlWidth s (d.classWord % 2) / 2)) (hon : pnlOn s (d.classWord % 2) = false) :
    pnlUpdate s r d src = complete s r stRejectState 0x02F0 :=
  (if_neg h).trans (if_pos (by rw [hon]; rfl))

theorem pnlUpdate_content (h : ¬(d.word 0x18 / 65536 % 512 = 0 ∨
    pnlHeight s (d.classWord % 2) < d.word 0x18 % 512 + d.word 0x18 / 65536 % 512 ∨
    d.word 0x1C % 65536 < pnlWidth s (d.classWord % 2) / 2)) (hon : pnlOn s (d.classWord % 2) = true)
    {k : Nat} (hk : k < d.word 0x18 / 65536 % 512) :
    (getLine (pnlUpdate s r d src) (d.classWord % 2) (d.word 0x18 % 512 + k)).content =
      sourceLine (pnlWidth s (d.classWord % 2)) (src.drop (k * (d.word 0x1C % 65536))) := by
  unfold pnlUpdate
  extract_lets p first n stride blanked force s1 s2 s3
  rw [if_neg h, if_neg (by rw [hon]; decide)]
  have h2 : HasLine (HasContent (sourceLine (pnlWidth s p) (src.drop (k * stride)))) s2 p (first + k) :=
    (updateLines_content (s := s1) r force blanked first (fun v k => sourceLine (pnlWidth v p) (src.drop (k * stride)))
      (fun k => sourceLine (pnlWidth s p) (src.drop (k * stride)))
      (fun v k hv => congrArg (fun w => sourceLine w (src.drop (k * stride))) hv) n).1 k hk
  have h3 : HasLine (HasContent (sourceLine (pnlWidth s p) (src.drop (k * stride)))) s3 p (first + k) := by
    unfold s3
    split
    · exact h2.of_lines (by rw [getPnl_complete])
    · exact h2
  exact ((h3.settle (hasContent_anonymous _)).view).getLine

theorem pnlClear_off (hon : pnlOn s (d.classWord % 2) = false) : pnlClear s r d = complete s r stRejectState 0x02F0 :=
  if_pos (by rw [hon]; rfl)

/-- The store as a CLEAR leaves it, its jobs still to be settled. -/
def pnlCleared (s : State) (p : Nat) (r : Ref) : State :=
  modPnl s p fun q => { q with
    lines := q.lines.map fun x => (x.1, { x.2 with content := zeroLine (pnlWidth s p), owner := none, source := none, forced := [] }),
    jobs := q.jobs.map fun j => { j with takenOver := true }, wipes := q.wipes ++ [some r] }

theorem pnlClear_on (hon : pnlOn s (d.classWord % 2) = true) : pnlClear s r d =
    panelView (sendWipes (settleJobs (pnlCleared s (d.classWord % 2) r) (d.classWord % 2)) (d.classWord % 2)) (d.classWord % 2) :=
  if_neg (by rw [hon]; decide)

theorem pnlCleared_content (s : State) (p : Nat) (r : Ref) : AllLines (HasContent (zeroLine (pnlWidth s p))) (pnlCleared s p r) p := by
  unfold AllLines pnlCleared
  rw [getPnl_modPnl]
  intro x hx
  obtain ⟨y, -, rfl⟩ := List.mem_map.mp hx
  rfl

/-- What settling leaves of the port's writes and wipes. -/
theorem settleJobs_wipes (s : State) (p : Nat) : (getPnl (settleJobs s p) p).wipes = (getPnl s p).wipes ∧
    (getPnl (settleJobs s p) p).wiping = (getPnl s p).wiping ∧ (getPnl (settleJobs s p) p).last = (getPnl s p).last ∧
    (getPnl (settleJobs s p) p).writing.map (·.line) = (getPnl s p).writing.map (·.line) := by
  obtain ⟨l, js, -, hs⟩ := settleJobs_pnl s p
  rw [hs]
  refine ⟨rfl, rfl, rfl, ?_⟩
  show ((getPnl s p).writing.map _).map _ = _
  rw [Option.map_map]
  rfl

theorem frameFc_congr (h : rget u R.PNL_TIMING_PCK_100K p = rget s R.PNL_TIMING_PCK_100K p) (n : Nat) :
    frameFc u p n = frameFc s p n := by
  unfold frameFc rval
  rw [h]

theorem pnlClear_idle (hon : pnlOn s (d.classWord % 2) = true) (hw : (getPnl s (d.classWord % 2)).writing = none)
    (hg : (getPnl s (d.classWord % 2)).wiping = none) :
    AllLines (HasContent (zeroLine (pnlWidth s (d.classWord % 2)))) (pnlClear s r d) (d.classWord % 2) ∧
      (getPnl (pnlClear s r d) (d.classWord % 2)).wipes = [] ∧ (getPnl (pnlClear s r d) (d.classWord % 2)).wiping =
        some (s.now + frameFc s (d.classWord % 2) 36, (getPnl s (d.classWord % 2)).wipes ++ [some r]) := by
  rw [pnlClear_on hon]
  generalize d.classWord % 2 = p at hon hw hg ⊢
  obtain ⟨h1, h2, -, h4⟩ := settleJobs_wipes (pnlCleared s p r) p
  have hwithin : Within [.reqs, .till, .pnl] [] s (settleJobs (pnlCleared s p r) p) :=
    settleJobs_within.step (modPnl_within.mono rfl rfl) rfl rfl
  have hc : getPnl (pnlCleared s p r) p = { getPnl s p with
      lines := (getPnl (pnlCleared s p r) p).lines, jobs := (getPnl (pnlCleared s p r) p).jobs
      wipes := (getPnl s p).wipes ++ [some r] } := by
    unfold pnlCleared
    rw [getPnl_modPnl]
  rw [hc] at h1 h2 h4
  have hw' : (getPnl (settleJobs (pnlCleared s p r) p) p).writing = none := by
    rw [hw] at h4
    exact Option.map_eq_none_iff.mp h4
  have hidle := sendWipes_idle hw' (h2.trans hg) (by rw [h1]; simp)
  refine ⟨?_, ?_, ?_⟩
  · exact (((pnlCleared_content s p r).settle (hasContent_anonymous _)).of_lines (by rw [sendWipes_pnl])).view
  · rw [panelView_pnl, hidle]
  · rw [panelView_pnl, hidle, h1, hwithin.now.resolve_left (by simp), frameFc_congr (hwithin.rget _ _ _ (by simp))]

theorem pnlClear_writing {x : PnlWrite} (hon : pnlOn s (d.classWord % 2) = true)
    (hw : (getPnl s (d.classWord % 2)).writing = some x) :
    AllLines (HasContent (zeroLine (pnlWidth s (d.classWord % 2)))) (pnlClear s r d) (d.classWord % 2) ∧
      (getPnl (pnlClear s r d) (d.classWord % 2)).wipes = (getPnl s (d.classWord % 2)).wipes ++ [some r] ∧
      (getPnl (pnlClear s r d) (d.classWord % 2)).writing.map (·.line) = some x.line := by
  rw [pnlClear_on hon]
  generalize d.classWord % 2 = p at hon hw ⊢
  obtain ⟨h1, -, -, h4⟩ := settleJobs_wipes (pnlCleared s p r) p
  have hc : getPnl (pnlCleared s p r) p = { getPnl s p with
      lines := (getPnl (pnlCleared s p r) p).lines, jobs := (getPnl (pnlCleared s p r) p).jobs
      wipes := (getPnl s p).wipes ++ [some r] } := by
    unfold pnlCleared
    rw [getPnl_modPnl]
  rw [hc] at h1 h4
  rw [hw] at h4
  have hbusy : (getPnl (settleJobs (pnlCleared s p r) p) p).writing.isSome = true := by
    cases h : (getPnl (settleJobs (pnlCleared s p r) p) p).writing with
    | none =>
      rw [h] at h4
      exact absurd h4 nofun
    | some y => rfl
  rw [sendWipes_busy hbusy]
  refine ⟨((pnlCleared_content s p r).settle (hasContent_anonymous _)).view, ?_, ?_⟩
  · rw [panelView_pnl, h1]
  · rw [panelView_pnl, h4]
    rfl

end

/-! ### Line writes and wipes -/

theorem setLine_pnl (s : State) (p n : Nat) (l : PnlLine) :
    getPnl (setLine s p n l) p = { getPnl s p with lines := tblSet (getPnl s p).lines n l } := getPnl_modPnl _ _ _

/-- A line write that starts with line `n`. -/
theorem lineStart_line {n : Nat} (hon : pnlOn s p = true) (hw : (getPnl s p).writing = none) (hg : (getPnl s p).wiping = none)
    (hb : blankWanted s p = false) (hv : vlcdSettled s p = true) (hp : s.aoc.power = 0 ∨ s.aoc.power = 1) (hn : nextLine s p = some n) :
    lineStart s p = panelView (rset (modPnl (setLine s p n { getLine s p n with forced := [] }) p fun q => { q with
      writing := some ⟨n, (getLine s p n).content, (getLine s p n).source, s.now + lineFc s p⟩
      frame := lineFrame (pnlWidth s p) n (getLine s p n).content }) R.PNL_STATUS_BAND (getPnl s p).band p) p := by
  unfold lineStart
  dsimp only
  rw [hon, hw, hg, hb, hv, if_neg (by simp; omega), hn]

theorem lineStart_fields {n : Nat} (hon : pnlOn s p = true) (hw : (getPnl s p).writing = none) (hg : (getPnl s p).wiping = none)
    (hb : blankWanted s p = false) (hv : vlcdSettled s p = true) (hp : s.aoc.power = 0 ∨ s.aoc.power = 1) (hn : nextLine s p = some n) :
    (getPnl (lineStart s p) p).writing = some ⟨n, (getLine s p n).content, (getLine s p n).source, s.now + lineFc s p⟩ ∧
      (getPnl (lineStart s p) p).frame = lineFrame (pnlWidth s p) n (getLine s p n).content ∧
      (getLine (lineStart s p) p n).forced = [] ∧
      rget (lineStart s p) R.PNL_STATUS_BAND p = (getPnl s p).band % 2 ^ R.PNL_STATUS_BAND.width := by
  rw [lineStart_line hon hw hg hb hv hp hn]
  refine ⟨?_, ?_, ?_, ?_⟩
  · rw [panelView_pnl, getPnl_rset, getPnl_modPnl]
  · rw [panelView_pnl, getPnl_rset, getPnl_modPnl]
  · refine HasLine.getLine (Q := fun l => l.forced = []) (HasLine.view ⟨{ getLine s p n with forced := [] }, ?_, rfl⟩)
    rw [getPnl_rset, getPnl_modPnl, setLine_pnl]
    exact tblGet?_set_self _ _ _
  · rw [panelView_rget _ _ _ _ _ (by decide) (by decide) (by decide) (by decide), rget_rset_self]

/-- The line that the panel shows once it is written. -/
def Written (w : Nat) (px : List Nat) (l : PnlLine) : Prop := l.shown = px ∧ l.shadow = lineCrc w px

theorem written_anonymous (w : Nat) (px : List Nat) : Anonymous (Written w px) := fun _ _ _ h => h

theorem lineDone_written {x : PnlWrite} (hw : (getPnl s p).writing = some x) (hends : x.ends ≤ s.now) (hwipes : (getPnl s p).wipes = []) :
    (getPnl (lineDone s p) p).writing = none ∧ (getPnl (lineDone s p) p).last = some x.line ∧
      HasLine (Written (pnlWidth s p) x.content) (lineDone s p) p x.line ∧
      rget (lineDone s p) R.PNL_COUNTS_WRITTEN p = satTo R.PNL_COUNTS_WRITTEN.width (rget s R.PNL_COUNTS_WRITTEN p + 1) := by
  unfold lineDone
  dsimp only
  rw [hw]
  dsimp only
  rw [if_neg (by omega)]
  generalize hl : PnlLine.mk _ _ _ _ _ _ = l1
  generalize hs1 : modPnl (setLine s p x.line l1) p _ = s1
  generalize hs2 : (if (getPnl s p).vcomDue then pinvChange s1 p else s1) = s2
  have hl1 : Written (pnlWidth s p) x.content l1 := by
    rw [← hl]
    exact ⟨rfl, rfl⟩
  have h1 : (getPnl s1 p).writing = none ∧ (getPnl s1 p).last = some x.line ∧ (getPnl s1 p).wipes = [] ∧
      (getPnl s1 p).lines = tblSet (getPnl s p).lines x.line l1 := by
    rw [← hs1, getPnl_modPnl, setLine_pnl]
    exact ⟨rfl, rfl, hwipes, rfl⟩
  have h2 : (getPnl s2 p).writing = none ∧ (getPnl s2 p).last = some x.line ∧ (getPnl s2 p).wipes = [] ∧
      (getPnl s2 p).lines = tblSet (getPnl s p).lines x.line l1 := by
    rw [← hs2]
    split
    · unfold pinvChange
      rw [getPnl_modPnl]
      exact h1
    · exact h1
  have hr : rget s2 R.PNL_COUNTS_WRITTEN p = rget s R.PNL_COUNTS_WRITTEN p := by
    have hw1 : Within [.pnl] [] s s1 := hs1 ▸ modPnl_within.step setLine_within rfl rfl
    have hw2 : Within [.pnl] [] s s2 := hs2 ▸ within_ite (pinvChange_within.step hw1 rfl rfl) hw1
    exact hw2.rget _ _ _ (by simp)
  obtain ⟨hw2, hlast, hwipes2, hlines⟩ := h2
  obtain ⟨k1, k2, k3, k4⟩ := settleJobs_wipes (rinc s2 R.PNL_COUNTS_WRITTEN 1 p) p
  rw [sendWipes_none (k1.trans hwipes2)]
  refine ⟨?_, ?_, ?_, ?_⟩
  · rw [panelView_pnl]
    rw [getPnl_rinc, hw2] at k4
    exact Option.map_eq_none_iff.mp k4
  · rw [panelView_pnl]
    exact k3.trans hlast
  · refine HasLine.view (HasLine.settle (written_anonymous _ _) ⟨l1, ?_, hl1⟩)
    rw [getPnl_rinc, hlines]
    exact tblGet?_set_self _ _ _
  · rw [panelView_rget _ _ _ _ _ (by decide) (by decide) (by decide) (by decide), settleJobs_within.rget _ _ _ (by simp),
      rget_rinc_self, hr]

theorem wipeShadows_pnl (s : State) (p : Nat) : getPnl (wipeShadows s p) p = { getPnl s p with
    lines := (getPnl (wipeShadows s p) p).lines } := by
  unfold wipeShadows
  dsimp only
  rw [getPnl_modPnl]

theorem wipeShadows_written (s : State) (p : Nat) : AllLines (Written (pnlWidth s p) (zeroLine (pnlWidth s p))) (wipeShadows s p) p := by
  unfold AllLines wipeShadows
  dsimp only
  rw [getPnl_modPnl]
  intro x hx
  obtain ⟨y, -, rfl⟩ := List.mem_map.mp hx
  exact ⟨rfl, rfl⟩

/-- A wipe that has been sent, no UPDATE and no further wipe waiting. -/
theorem lineDone_wiped {e : Nat} {r : Ref} (hw : (getPnl s p).writing = none) (hg : (getPnl s p).wiping = some (e, [some r]))
    (he : e ≤ s.now) (hwipes : (getPnl s p).wipes = []) (hjobs : (getPnl s p).jobs = []) :
    lineDone s p = panelView (complete (wipeShadows (modPnl s p fun q => { q with wiping := none }) p) r stDone) p := by
  have hq : getPnl (complete (wipeShadows (modPnl s p fun q => { q with wiping := none }) p) r stDone) p = { getPnl s p with
      wiping := none, lines := (getPnl (wipeShadows (modPnl s p fun q => { q with wiping := none }) p) p).lines } := by
    rw [getPnl_complete, wipeShadows_pnl, getPnl_modPnl]
  unfold lineDone
  dsimp only
  rw [hw]
  dsimp only
  rw [if_pos (by rw [hg]; rfl)]
  congr 1
  unfold wipeDone
  rw [hg]
  dsimp only
  rw [if_neg (by omega), List.foldl_cons, List.foldl_nil]
  show sendWipes (settleJobs (complete _ r stDone) p) p = _
  rw [settleJobs_none (by rw [hq, hjobs]), sendWipes_none (by rw [hq, hwipes])]

theorem lineDone_wiped_fields {e : Nat} {r : Ref} (hw : (getPnl s p).writing = none) (hg : (getPnl s p).wiping = some (e, [some r]))
    (he : e ≤ s.now) (hwipes : (getPnl s p).wipes = []) (hjobs : (getPnl s p).jobs = []) :
    AllLines (Written (pnlWidth s p) (zeroLine (pnlWidth s p))) (lineDone s p) p ∧ wipeOpen (lineDone s p) p = false ∧
      (lineDone s p).reqs = (complete s r stDone).reqs := by
  rw [lineDone_wiped hw hg he hwipes hjobs]
  refine ⟨AllLines.view ((wipeShadows_written (modPnl s p _) p).of_lines (by rw [getPnl_complete])), ?_, ?_⟩
  · rw [wipeOpen_view]
    unfold wipeOpen
    rw [getPnl_complete, wipeShadows_pnl, getPnl_modPnl, hwipes]
    rfl
  · rw [panelView_within.reqs.resolve_left (by simp)]
    refine complete_reqs_congr ?_ _ _ _ _
    rfl

/-! ### Temperature, the common electrode, the crack loop and the supply -/

/-- The temperature that a sample gives: the housing's with TSRC 1 or a broken sensor. -/
def sampled (s : State) (p : Nat) (v : Option Int) (h : Int) : Int :=
  match v with
  | some v => if rbit s R.PNL_CTRL_TSRC p then h else v
  | none => h

/-- The port with a temperature sample. -/
def tempTaken (s : State) (p : Nat) (v : Option Int) (h : Int) : State :=
  rsetB (rset (modPnl s p fun q => { q with
      tempAt := some s.now, band := (vlcdTarget s p (sampled s p v h)).1, target := (vlcdTarget s p (sampled s p v h)).2 })
    R.PNL_TEMP_TEMP (clampInt 0 255 (sampled s p v h + 50)).toNat p) R.PNL_STATUS_TSNS_FAULT v.isNone p

theorem tempTaken_pnl (s : State) (p : Nat) (v : Option Int) (h : Int) : getPnl (tempTaken s p v h) p = { getPnl s p with
    tempAt := some s.now, band := (vlcdTarget s p (sampled s p v h)).1, target := (vlcdTarget s p (sampled s p v h)).2 } := by
  unfold tempTaken
  rw [getPnl_rsetB, getPnl_rset, getPnl_modPnl]

theorem tempSample_due {v : Option Int} {h : Int} (hdue : (getPnl s p).tempAt.all (fun a => a + 40000000 ≤ s.now) = true) :
    tempSample s p v h = panelView (if (v.isNone && !rbit s R.PNL_STATUS_TSNS_FAULT p) = true then
      raiseEv (tempTaken s p v h) evPanelTsnsFault p else tempTaken s p v h) p := by
  unfold tempSample
  dsimp only
  cases ha : (getPnl s p).tempAt with
  | none => rfl
  | some a =>
    dsimp only
    have hle : decide (a + 100 * fcMs ≤ s.now) = true := decide_eq_true (of_optionAll hdue ha)
    rw [if_neg (by rw [hle]; decide)]
    rfl

theorem tempTaken_within {v : Option Int} {h : Int} : Within [.regs, .pnl] (blks [.pnl]) s (tempTaken s p v h) :=
  rsetB_within.step (rset_within.step (modPnl_within.mono rfl rfl) rfl rfl) rfl rfl

theorem tempSample_fields {v : Option Int} {h x : Int} (hdue : (getPnl s p).tempAt.all (fun a => a + 40000000 ≤ s.now) = true)
    (hx : sampled s p v h = x) :
    (getPnl (tempSample s p v h) p).band = (vlcdTarget s p x).1 ∧ (getPnl (tempSample s p v h) p).target = (vlcdTarget s p x).2 ∧
      (getPnl (tempSample s p v h) p).tempAt = some s.now ∧
      rget (tempSample s p v h) R.PNL_TEMP_TEMP p = (clampInt 0 255 (x + 50)).toNat % 2 ^ R.PNL_TEMP_TEMP.width ∧
      rget (tempSample s p v h) R.PNL_STATUS_TSNS_FAULT p = b2n v.isNone := by
  rw [tempSample_due hdue]
  generalize hw : (if (v.isNone && !rbit s R.PNL_STATUS_TSNS_FAULT p) = true then
      raiseEv (tempTaken s p v h) evPanelTsnsFault p else tempTaken s p v h) = w
  have hq : getPnl w p = { getPnl s p with
      tempAt := some s.now, band := (vlcdTarget s p x).1, target := (vlcdTarget s p x).2 } := by
    rw [← hw, ← hx]
    split
    · rw [getPnl_raiseEv]
      exact tempTaken_pnl s p v h
    · exact tempTaken_pnl s p v h
  have hr : ∀ f i j, f.id / 128 = R.PNL_TEMP_TEMP.id / 128 → rget w f i j = rget (tempTaken s p v h) f i j := fun f i j hf => by
    rw [← hw]
    split
    · exact raiseEv_within.rget f i j (by rw [hf]; decide)
    · rfl
  refine ⟨?_, ?_, ?_, ?_, ?_⟩
  · rw [panelView_pnl, hq]
  · rw [panelView_pnl, hq]
  · rw [panelView_pnl, hq]
  · rw [panelView_rget _ _ _ _ _ (by decide) (by decide) (by decide) (by decide), hr _ _ _ (by decide)]
    unfold tempTaken rsetB
    rw [rget_rset_ne _ _ _ _ _ _ (by decide), rget_rset_self, hx]
  · rw [panelView_rget _ _ _ _ _ (by decide) (by decide) (by decide) (by decide), hr _ _ _ (by decide)]
    unfold tempTaken rsetB
    rw [rget_rset_self]
    cases v <;> rfl

theorem vcomToggle_due (hon : pnlOn s p = true) (hpwr : rbit s R.PNL_CTRL_PWR_EN p = true) (hi : vcomInstant s p = true)
    (hat : (getPnl s p).vcomAt ≠ some s.now) : vcomToggle s p =
      if (getPnl s p).writing.isSome then modPnl (modPnl s p fun q => { q with vcomAt := some s.now }) p fun q => { q with vcomDue := true }
      else pinvChange (modPnl s p fun q => { q with vcomAt := some s.now }) p := by
  refine if_neg ?_
  rw [hon, hpwr, hi, beq_eq_false_iff_ne.mpr hat]
  decide

/-- The port with a crack reading. -/
def crackRead (s : State) (p ohm : Nat) : State :=
  rset (modPnl s p fun q => { q with
      crackAt := some s.now
      high := if decide (10 * rval s R.PNL_CRACK_CRACK_OHM p < ohm) then q.high + 1 else 0
      low := if decide (10 * rval s R.PNL_CRACK_CRACK_OHM p < ohm) then 0 else q.low + 1 })
    R.PNL_CRACK_LOOP_OHM (min ohm 65535) p

theorem crackMeasure_due {ohm : Nat} (hdue : (getPnl s p).crackAt.all (fun a => a + 400000000 ≤ s.now) = true) :
    crackMeasure s p ohm = if decide (10 * rval s R.PNL_CRACK_CRACK_OHM p < ohm) = true ∧ 1 ≤ (getPnl s p).high ∧
        (!rbit s R.PNL_CRACK_PANEL_CRACK p) = true then
      panelView (raiseEv (rset (crackRead s p ohm) R.PNL_CRACK_PANEL_CRACK 1 p) evPanelCrackEvent p) p
    else crackRead s p ohm := by
  unfold crackMeasure
  dsimp only
  cases ha : (getPnl s p).crackAt with
  | none => rfl
  | some a =>
    dsimp only
    have hle : decide (a + fcSec ≤ s.now) = true := decide_eq_true (of_optionAll hdue ha)
    rw [if_neg (by rw [hle]; decide)]
    rfl

theorem crackRead_ohm (s : State) (p ohm : Nat) : rget (crackRead s p ohm) R.PNL_CRACK_LOOP_OHM p = min ohm 65535 := by
  unfold crackRead
  rw [rget_rset_self]
  exact Nat.mod_eq_of_lt (by show min ohm 65535 < 65536; omega)

theorem crackRead_pnl (s : State) (p ohm : Nat) : getPnl (crackRead s p ohm) p = { getPnl s p with
      crackAt := some s.now
      high := if decide (10 * rval s R.PNL_CRACK_CRACK_OHM p < ohm) then (getPnl s p).high + 1 else 0
      low := if decide (10 * rval s R.PNL_CRACK_CRACK_OHM p < ohm) then 0 else (getPnl s p).low + 1 } := by
  unfold crackRead
  rw [getPnl_rset, getPnl_modPnl]

theorem crackMeasure_crack {ohm : Nat} (hdue : (getPnl s p).crackAt.all (fun a => a + 400000000 ≤ s.now) = true)
    (habove : 10 * rval s R.PNL_CRACK_CRACK_OHM p < ohm) (hhigh : 1 ≤ (getPnl s p).high) :
    rget (crackMeasure s p ohm) R.PNL_CRACK_PANEL_CRACK p = 1 ∧ (getPnl (crackMeasure s p ohm) p).high = (getPnl s p).high + 1 ∧
      (getPnl (crackMeasure s p ohm) p).low = 0 ∧ rget (crackMeasure s p ohm) R.PNL_CRACK_LOOP_OHM p = min ohm 65535 := by
  have hq := crackRead_pnl s p ohm
  rw [decide_eq_true habove, if_pos rfl, if_pos rfl] at hq
  rw [crackMeasure_due hdue]
  split
  · refine ⟨?_, ?_, ?_, ?_⟩
    · rw [panelView_rget _ _ _ _ _ (by decide) (by decide) (by decide) (by decide),
        raiseEv_within.rget R.PNL_CRACK_PANEL_CRACK p 0 (by decide), rget_rset_self]
      rfl
    · rw [panelView_pnl, getPnl_raiseEv, getPnl_rset, hq]
    · rw [panelView_pnl, getPnl_raiseEv, getPnl_rset, hq]
    · rw [panelView_rget _ _ _ _ _ (by decide) (by decide) (by decide) (by decide),
        raiseEv_within.rget R.PNL_CRACK_LOOP_OHM p 0 (by decide), rget_rset_ne _ _ _ _ _ _ (by decide), crackRead_ohm]
  · next h =>
    have hset : rbit s R.PNL_CRACK_PANEL_CRACK p = true := by
      by_contra hn
      exact h ⟨decide_eq_true habove, hhigh, by simpa using hn⟩
    refine ⟨?_, by rw [hq], by rw [hq], crackRead_ohm _ _ _⟩
    unfold crackRead
    rw [rget_rset_ne _ _ _ _ _ _ (by decide)]
    exact beq_iff_eq.mp hset

theorem crackClear_good (h : 2 ≤ (getPnl s p).low) : crackClear s p = panelView (rset s R.PNL_CRACK_PANEL_CRACK 0 p) p := if_pos h

theorem pnlSupplyFault_on (h : rbit s R.PNL_CTRL_PWR_EN p = true) : pnlSupplyFault s p =
    panelView (raiseEv (rset (pnlDisable s p) R.PNL_CTRL_PWR_EN 0 p) evPanelSupplyFault p) p :=
  if_neg (by rw [h]; decide)

/-! ### Commands -/

/-- A port runs with the fabric, and in PARK with PARK_KEEP. -/
theorem atPanel_runs (t : Fc) (f : State → State) (h : s.fabric = true ∨ (s.aoc.power = 2 ∧ rbit s R.PNL_CTRL_PARK_KEEP p = true)) :
    atPanel t p f s = .next (f (advance s t)) := by
  refine congrArg _ (if_pos ?_)
  obtain h | ⟨h1, h2⟩ := h
  · rw [h]
    rfl
  · rw [h1, h2]
    simp

theorem exec_update {r : Ref} {d : Desc} {src : List Nat} (hfab : s.fabric = true) (hd : heldDesc s r 8 1 = some d)
    (hdue : due (advance s t) d = true) (hserves : panelServes s r = true) :
    exec (.update t r src) s = .next (pnlUpdate (takeReq (advance s t) r) r d src) :=
  (atFabric_up s t (fun s => if panelServes s r then withDesc r 8 1 (fun d s => pnlUpdate s r d src) s else s) hfab).trans
    (congrArg _ ((if_pos hserves).trans (withDesc_due (advance s t) _ hd hdue)))

theorem exec_pnlClear {r : Ref} {d : Desc} (hfab : s.fabric = true) (hd : heldDesc s r 8 2 = some d)
    (hdue : due (advance s t) d = true) (hserves : panelServes s r = true) :
    exec (.pnlClear t r) s = .next (pnlClear (takeReq (advance s t) r) r d) :=
  (atFabric_up s t (fun s => if panelServes s r then withDesc r 8 2 (fun d s => pnlClear s r d) s else s) hfab).trans
    (congrArg _ ((if_pos hserves).trans (withDesc_due (advance s t) _ hd hdue)))

/-- Settles O41. -/
theorem sentinelPanels : Obligations.SentinelPanels := by
  unfold Obligations.SentinelPanels
  refine ⟨?enable, ?enableErr, ?disable, ?disableIdle, ?update, ?updateFormat, ?updateOff, ?clear, ?clearOff, ?wiped, ?clearBusy,
    ?start, ?done, ?temp, ?tempHousing, ?tempBroken, ?vcom, ?vcomHeld, ?crack, ?crackOnce, ?crackGood, ?crackClear, ?crackKeep, ?supply⟩
  case enable =>
    intro s t p hfab hoff hok
    obtain ⟨h1, h2, h3, h4, h5⟩ := pnlEnable_fields (s := advance s t) hoff hok
    have hw := pnlEnable_within (s := advance s t) (p := p)
    exact ⟨_, atFabric_up s t (fun s => pnlEnable s p) hfab, h1, h2, h3, h4, h5, hw.blocksOnly, hw.eq_frame⟩
  case enableErr =>
    exact fun s t p hfab hoff herr => (atFabric_up s t (fun s => pnlEnable s p) hfab).trans (congrArg _
      (pnlEnable_error (s := advance s t) hoff herr))
  case disable =>
    intro s t p hfab hon
    obtain ⟨h1, h2, h3, h4, h5, -⟩ := pnlDisable_fields (s := advance s t) hon
    exact ⟨_, atFabric_up s t (fun s => pnlDisable s p) hfab, h1, h2, h3, pendingLines_off h1, h4, h5, pnlDisable_within.eq_frame⟩
  case disableIdle =>
    intro s t p hfab hon hw hopen
    obtain ⟨-, -, -, -, -, h6⟩ := pnlDisable_fields (s := advance s t) hon
    exact ⟨_, atFabric_up s t (fun s => pnlDisable s p) hfab, h6 hw hopen, pnlDisable_within.eq_frame⟩
  case update =>
    intro s t r d src hfab hd hdue hserves hn hlen hstride hon
    have hw : Within [.regs, .pnl, .reqs, .till] (blks [.pnl]) (advance s t) (pnlUpdate (takeReq (advance s t) r) r d src) :=
      pnlUpdate_within.step (takeReq_within.mono rfl rfl) rfl rfl
    refine ⟨_, exec_update hfab hd hdue hserves, fun k hk => ?_, hw.blocksOnly, hw.eq_frame⟩
    exact pnlUpdate_content (s := takeReq (advance s t) r) (fun h => by
      obtain h | h | h := h
      · exact hn h
      · exact absurd hlen (not_le.mpr h)
      · exact absurd hstride (not_le.mpr h)) hon hk
  case updateFormat =>
    exact fun s t r d src hfab hd hdue hserves h => (exec_update hfab hd hdue hserves).trans (congrArg _
      (pnlUpdate_format (s := takeReq (advance s t) r) h))
  case updateOff =>
    exact fun s t r d src hfab hd hdue hserves hn hlen hstride hon => (exec_update hfab hd hdue hserves).trans (congrArg _
      (pnlUpdate_off (s := takeReq (advance s t) r) (fun h => by
        obtain h | h | h := h
        · exact hn h
        · exact absurd hlen (not_le.mpr h)
        · exact absurd hstride (not_le.mpr h)) hon))
  case clear =>
    intro s t r d hfab hd hdue hserves hon hw hg
    obtain ⟨h1, h2, h3⟩ := pnlClear_idle (s := takeReq (advance s t) r) (r := r) hon hw hg
    have hwi : Within [.regs, .pnl, .reqs, .till] (blks [.pnl]) (advance s t) (pnlClear (takeReq (advance s t) r) r d) :=
      pnlClear_within.step (takeReq_within.mono rfl rfl) rfl rfl
    exact ⟨_, exec_pnlClear hfab hd hdue hserves, h1, h2, h3, hwi.blocksOnly, hwi.eq_frame⟩
  case clearOff =>
    exact fun s t r d hfab hd hdue hserves hon => (exec_pnlClear hfab hd hdue hserves).trans (congrArg _
      (pnlClear_off (s := takeReq (advance s t) r) hon))
  case wiped =>
    intro s t p e r hrun hw hg he hwipes hjobs
    obtain ⟨h1, h2, h3⟩ := lineDone_wiped_fields (s := advance s t) hw hg he hwipes hjobs
    have hwi := lineDone_within (s := advance s t) (p := p)
    exact ⟨_, atPanel_runs t (fun s => lineDone s p) hrun, h1, h2, h3.trans (advance_complete_reqs ..), hwi.blocksOnly, hwi.eq_frame⟩
  case clearBusy =>
    intro s t r d x hfab hd hdue hserves hon hw
    obtain ⟨h1, h2, h3⟩ := pnlClear_writing (s := takeReq (advance s t) r) (r := r) hon hw
    have hwi : Within [.regs, .pnl, .reqs, .till] (blks [.pnl]) (advance s t) (pnlClear (takeReq (advance s t) r) r d) :=
      pnlClear_within.step (takeReq_within.mono rfl rfl) rfl rfl
    exact ⟨_, exec_pnlClear hfab hd hdue hserves, h1, h2, h3, hwi.blocksOnly, hwi.eq_frame⟩
  case start =>
    intro s t p n hfab hon hw hg hb hv hp hn
    obtain ⟨h1, h2, h3, h4⟩ := lineStart_fields (s := advance s t) hon hw hg hb hv hp hn
    have hwi := lineStart_within (s := advance s t) (p := p)
    exact ⟨_, atFabric_up s t (fun s => lineStart s p) hfab, h1, h2, h3, h4, hwi.blocksOnly, hwi.eq_frame⟩
  case done =>
    intro s t p x hrun hw hends hwipes
    obtain ⟨h1, h2, h3, h4⟩ := lineDone_written (s := advance s t) hw hends hwipes
    have hwi := lineDone_within (s := advance s t) (p := p)
    exact ⟨_, atPanel_runs t (fun s => lineDone s p) hrun, h1, h2, h3.getLine.1, h3.getLine.2, h4, hwi.blocksOnly, hwi.eq_frame⟩
  case temp =>
    intro s t p v h hrun hdue hsrc
    obtain ⟨h1, h2, h3, h4, h5⟩ := tempSample_fields (s := advance s t) (p := p) (v := some v) (h := h) (x := v) hdue
      (if_neg (by rw [show rbit (advance s t) R.PNL_CTRL_TSRC p = false from hsrc]; decide))
    have hw : Within [.regs, .pnl] (blks [.pnl]) (advance s t) (tempSample (advance s t) p (some v) h) := by
      rw [tempSample_due hdue]
      exact panelView_within.step (tempTaken_within.mono rfl rfl) rfl rfl
    exact ⟨_, atPanel_runs t (fun s => tempSample s p (some v) h) hrun, h1, h2, h3, h4, h5, hw.blocksOnly, hw.eq_frame⟩
  case tempHousing =>
    intro s t p v h hrun hdue hsrc
    obtain ⟨h1, h2, h3, h4, h5⟩ := tempSample_fields (s := advance s t) (p := p) (v := some v) (h := h) (x := h) hdue
      (if_pos hsrc)
    have hw : Within [.regs, .pnl] (blks [.pnl]) (advance s t) (tempSample (advance s t) p (some v) h) := by
      rw [tempSample_due hdue]
      exact panelView_within.step (tempTaken_within.mono rfl rfl) rfl rfl
    exact ⟨_, atPanel_runs t (fun s => tempSample s p (some v) h) hrun, h1, h2, h3, h4, h5, hw.blocksOnly, hw.eq_frame⟩
  case tempBroken =>
    intro s t p h hrun hdue
    obtain ⟨h1, h2, h3, h4, h5⟩ := tempSample_fields (s := advance s t) (p := p) (v := none) (h := h) (x := h) hdue rfl
    have hw := tempSample_within (s := advance s t) (p := p) (tsns := none) (housing := h)
    exact ⟨_, atPanel_runs t (fun s => tempSample s p none h) hrun, h1, h2, h3, h4, h5, hw.blocksOnly, hw.eq_frame⟩
  case vcom =>
    intro s t p hrun hon hpwr hi hat hw
    have h := (vcomToggle_due (s := advance s t) hon hpwr hi hat).trans (if_neg (by
      rw [show (getPnl (advance s t) p).writing = none from hw]; decide))
    refine ⟨_, (atPanel_runs t (fun s => vcomToggle s p) hrun).trans (congrArg _ h), ?_, ?_, ?_, ?_, rfl⟩
    all_goals unfold pinvChange; rw [getPnl_modPnl, getPnl_modPnl]
    all_goals rfl
  case vcomHeld =>
    intro s t p x hrun hon hpwr hi hat hw
    have h := (vcomToggle_due (s := advance s t) hon hpwr hi hat).trans (if_pos (by
      rw [show (getPnl (advance s t) p).writing = some x from hw]; rfl))
    refine ⟨_, (atPanel_runs t (fun s => vcomToggle s p) hrun).trans (congrArg _ h), ?_, ?_, ?_, rfl⟩
    all_goals rw [getPnl_modPnl, getPnl_modPnl]
    all_goals rfl
  case crack =>
    intro s t p o hrun hdue habove hhigh
    obtain ⟨h1, h2, h3, h4⟩ := crackMeasure_crack (s := advance s t) hdue habove hhigh
    have hw := crackMeasure_within (s := advance s t) (p := p) (ohm := o)
    exact ⟨_, atPanel_runs t (fun s => crackMeasure s p o) hrun, h1, h2, h3, h4, hw.blocksOnly, hw.eq_frame⟩
  case crackOnce =>
    intro s t p o hrun hdue habove hhigh
    have h := (crackMeasure_due (s := advance s t) (ohm := o) hdue).trans (if_neg (c := _ ∧ _ ∧ _) fun h => absurd h.2.1 (by
      rw [show (getPnl (advance s t) p).high = 0 from hhigh]; decide))
    have hq := crackRead_pnl (advance s t) p o
    rw [decide_eq_true (p := 10 * rval (advance s t) R.PNL_CRACK_CRACK_OHM p < o) habove, if_pos rfl, if_pos rfl,
      show (getPnl (advance s t) p).high = 0 from hhigh] at hq
    refine ⟨_, (atPanel_runs t (fun s => crackMeasure s p o) hrun).trans (congrArg _ h), ?_, ?_, ?_, crackRead_ohm _ _ _,
      rset_regsOnly _ _ _ _ _ (.head _), rfl⟩
    · exact rget_rset_ne _ _ _ _ _ _ (by decide)
    · rw [hq]
    · rw [hq]
  case crackGood =>
    intro s t p o hrun hdue hbelow
    have hnot : ¬ 10 * rval (advance s t) R.PNL_CRACK_CRACK_OHM p < o := not_lt.mpr hbelow
    have h := (crackMeasure_due (s := advance s t) (ohm := o) hdue).trans (if_neg (c := _ ∧ _ ∧ _) fun h => hnot (of_decide_eq_true h.1))
    have hq := crackRead_pnl (advance s t) p o
    rw [decide_eq_false hnot, if_neg Bool.false_ne_true, if_neg Bool.false_ne_true] at hq
    refine ⟨_, (atPanel_runs t (fun s => crackMeasure s p o) hrun).trans (congrArg _ h), ?_, ?_, crackRead_ohm _ _ _,
      rset_regsOnly _ _ _ _ _ (.head _), rfl⟩
    · rw [hq]
    · rw [hq]
      rfl
  case crackClear =>
    intro s t p hfab hlow
    have hw : Within [.regs, .pnl] (blks [.pnl]) (advance s t) (panelView (rset (advance s t) R.PNL_CRACK_PANEL_CRACK 0 p) p) :=
      panelView_within.step (rset_within.mono rfl rfl) rfl rfl
    refine ⟨_, (atFabric_up s t (fun s => crackClear s p) hfab).trans (congrArg _ (crackClear_good (s := advance s t) hlow)), ?_,
      hw.blocksOnly, hw.eq_frame⟩
    rw [panelView_rget _ _ _ _ _ (by decide) (by decide) (by decide) (by decide), rget_rset_self]
    rfl
  case crackKeep =>
    exact fun s t p hfab hlow => (atFabric_up s t (fun s => crackClear s p) hfab).trans (congrArg _ (if_neg (not_le.mpr hlow)))
  case supply =>
    intro s t p hrun hpwr hon
    obtain ⟨h1, h2, -⟩ := pnlDisable_fields (s := advance s t) hon
    have hw := pnlSupplyFault_within (s := advance s t) (p := p)
    rw [pnlSupplyFault_on (s := advance s t) hpwr] at hw
    refine ⟨_, (atPanel_runs t (fun s => pnlSupplyFault s p) hrun).trans (congrArg _ (pnlSupplyFault_on (s := advance s t) hpwr)),
      ?_, ?_, ?_, hw.blocksOnly, hw.eq_frame⟩
    · rw [panelView_rget _ _ _ _ _ (by decide) (by decide) (by decide) (by decide),
        raiseEv_within.rget R.PNL_CTRL_PWR_EN p 0 (by decide), rget_rset_self]
      rfl
    · rw [panelView_rget _ _ _ _ _ (by decide) (by decide) (by decide) (by decide),
        raiseEv_within.rget R.PNL_CTRL_EN p 0 (by decide), rget_rset_ne _ _ _ _ _ _ (by decide)]
      exact h1
    · rw [panelView_pnl, getPnl_raiseEv]
      exact h2

theorem vxaStart_jobs (s : State) : rget (vxaStart s) R.VXA_COUNTS_JOBS = rget s R.VXA_COUNTS_JOBS := by
  have hview : ∀ v, rget (vxaView v) R.VXA_COUNTS_JOBS = rget v R.VXA_COUNTS_JOBS := fun v => by
    unfold vxaView rsetB
    rw [rget_rset_ne _ _ _ _ _ _ (by decide), rget_rset_ne _ _ _ _ _ _ (by decide)]
  unfold vxaStart
  split
  · exact hview s
  · split
    · exact hview s
    · rw [hview, rget_rset64_ne _ _ _ _ (by decide) (by decide)]
      rfl

/-- Settles O56: the clauses of O37, O38 and O41, less their frames. -/
theorem camerasAndPanelsComplete : Obligations.CamerasAndPanelsComplete := by
  obtain ⟨enable, -, -, disable, slot, -, -, -, -, -, line, -, -, -, -, -, fe, linkLost, -, linkUp, full, power, fsync⟩ := cameraPorts
  obtain ⟨capture, -, -, -, sensor, -, burst, -, params, -, -, start, done, -, -, run, -, -, vdone, -, -⟩ := visionJobs
  obtain ⟨penable, -, pdisable, -, update, -, -, clear, -, -, -, lstart, ldone, temp, -, -, vcom, -, crack, -, -, cclear, -, supply⟩ :=
    sentinelPanels
  unfold Obligations.CamerasAndPanelsComplete
  refine ⟨?_, ?_, ?_, ?_, ?_, ?_, ?_, ?_, ?_, ?_, ?_, ?_, ?_, ?_, ?_, ?_, ?_, ?_, ?_, ?_, ?_, ?_, ?_, ?_, ?_, ?_, ?_, ?_, ?_⟩
  · intro s t p h1 h2 h3
    obtain ⟨u, hu, hen, -, hcam, -⟩ := enable s t p h1 h2 h3
    exact ⟨u, hu, hen, hcam⟩
  · intro s t p h1 h2
    obtain ⟨u, hu, hen, hcur, hready, -⟩ := disable s t p h1 h2
    exact ⟨u, hu, hen, hcur, hready⟩
  · intro s t p h csi k h1 h2 h3 h4 h5 h6 h7
    obtain ⟨u, hu, hcur, -⟩ := slot s t p h csi k h1 h2 h3 h4 h5 h6 h7
    exact ⟨u, hu, hcur⟩
  · intro s t p dt h c px f g k h1 h2 h3 h4 h5 h6 h7 h8 h9 h10 h11
    obtain ⟨u, hu, hcur, -⟩ := line s t p dt h c px f g k h1 h2 h3 h4 h5 h6 h7 h8 h9 h10 h11
    exact ⟨u, hu, hcur⟩
  · intro s t p h f h1 h2 h3 h4 h5
    obtain ⟨u, hu, hcur, hfe, -⟩ := fe s t p h f h1 h2 h3 h4 h5
    exact ⟨u, hu, hcur, hfe⟩
  · intro s t p h1 h2
    obtain ⟨u, hu, hlink, -, hcur, -⟩ := linkLost s t p h1 h2
    exact ⟨u, hu, hlink, hcur⟩
  · intro s t p g h1
    refine ⟨_, linkUp s t p g h1, ?_, ?_⟩
    · rw [rget_rset_ne _ _ _ _ _ _ (by decide), rget_rset_self]
      rfl
    · rw [rget_rset_self]
      revert g
      decide
  · intro s t p f h1 h2 h3 h4 h5
    obtain ⟨u, hu, -, hcount, -⟩ := full s t p f h1 h2 h3 h4 h5
    exact ⟨u, hu, hcount⟩
  · intro s t p h1 h2 h3
    refine ⟨_, power s t p h1 h2 h3, ?_⟩
    rw [raiseEv_within.rget R.CAM_CTRL_PWR_FAULT p 0 (by decide), rget_rset_self]
    rfl
  · intro s t p h1 h2 h3 h4 h5
    obtain ⟨u, hu, hsyncs, -⟩ := fsync s t p h1 h2 h3 h4 h5
    exact ⟨u, hu, hsyncs⟩
  · intro s t r d h1 h2 h3 h4 h5 h6 h7 h8 h9
    obtain ⟨u, hu, hjobs, -⟩ := capture s t r d h1 h2 h3 h4 h5 h6 h7 h8 h9
    exact ⟨u, hu, hjobs⟩
  · intro s t r d h1 h2 h3 h4 h5 h6 h7
    obtain ⟨u, hu, hjob, -⟩ := sensor s t r d h1 h2 h3 h4 h5 h6 h7
    exact ⟨u, hu, hjob⟩
  · intro s t p n j h1 h2 h3
    obtain ⟨u, hu, hreqs, -, hwrites, -⟩ := burst s t p n j h1 h2 h3
    exact ⟨u, hu, hreqs, hwrites⟩
  · intro s t r d img h1 h2 h3 h4 h5 h6 h7 h8
    obtain ⟨u, hu, hpend, -⟩ := params s t r d img h1 h2 h3 h4 h5 h6 h7 h8
    exact ⟨u, hu, hpend⟩
  · intro s t p f r l h1 h2 h3 h4 h5
    obtain ⟨u, hu, hisp, -⟩ := start s t p f r l h1 h2 h3 h4 h5
    exact ⟨u, hu, hisp⟩
  · intro s t p f r d out zs hs n h1 h2 h3 h4 h5 h6
    obtain ⟨u, hu, hisp, hreqs, -⟩ := done s t p f r d out zs hs n h1 h2 h3 h4 h5 h6
    exact ⟨u, hu, hisp, hreqs⟩
  · intro s t r d h b h1 h2 h3 h4 h5 h6 h7 h8 h9
    obtain ⟨u, hu, hrun, -⟩ := run s t r d h b h1 h2 h3 h4 h5 h6 h7 h8 h9
    exact ⟨u, hu, hrun⟩
  · intro s t j out h1 h2
    refine ⟨_, vdone s t j out h1 h2, ?_⟩
    rw [vxaStart_jobs, complete_within.rget R.VXA_COUNTS_JOBS 0 0 (by simp)]
    exact rget_rinc_self _ _ _ _ _
  · intro s t p h1 h2 h3
    obtain ⟨u, hu, hen, -, -, -, hopen, -⟩ := penable s t p h1 h2 h3
    exact ⟨u, hu, hen, hopen⟩
  · intro s t p h1 h2
    obtain ⟨u, hu, hen, hjobs, -, hpending, -⟩ := pdisable s t p h1 h2
    exact ⟨u, hu, hen, hjobs, hpending⟩
  · intro s t r d src h1 h2 h3 h4 h5 h6 h7 h8
    obtain ⟨u, hu, hlines, -⟩ := update s t r d src h1 h2 h3 h4 h5 h6 h7 h8
    exact ⟨u, hu, hlines⟩
  · intro s t r d h1 h2 h3 h4 h5 h6 h7
    obtain ⟨u, hu, hlines, -⟩ := clear s t r d h1 h2 h3 h4 h5 h6 h7
    exact ⟨u, hu, hlines⟩
  · intro s t p n h1 h2 h3 h4 h5 h6 h7 h8
    obtain ⟨u, hu, hwriting, -⟩ := lstart s t p n h1 h2 h3 h4 h5 h6 h7 h8
    exact ⟨u, hu, hwriting⟩
  · intro s t p x h1 h2 h3 h4
    obtain ⟨u, hu, hwriting, -, hshown, hshadow, -⟩ := ldone s t p x h1 h2 h3 h4
    exact ⟨u, hu, hwriting, hshown, hshadow⟩
  · intro s t p v h h1 h2 h3
    obtain ⟨u, hu, hband, htarget, -, htemp, -⟩ := temp s t p v h h1 h2 h3
    exact ⟨u, hu, hband, htarget, htemp⟩
  · intro s t p h1 h2 h3 h4 h5 h6
    obtain ⟨u, hu, hpinv, -⟩ := vcom s t p h1 h2 h3 h4 h5 h6
    exact ⟨u, hu, hpinv⟩
  · intro s t p o h1 h2 h3 h4
    obtain ⟨u, hu, hcrack, -, -, hohm, -⟩ := crack s t p o h1 h2 h3 h4
    exact ⟨u, hu, hcrack, hohm⟩
  · intro s t p h1 h2
    obtain ⟨u, hu, hcrack, -⟩ := cclear s t p h1 h2
    exact ⟨u, hu, hcrack⟩
  · intro s t p h1 h2 h3
    obtain ⟨u, hu, hpwr, hen, -⟩ := supply s t p h1 h2 h3
    exact ⟨u, hu, hpwr, hen⟩

end Sys2Proof.Machine
end

section
/-! The CAN controllers' waiting SENDs: O40 and O57 are refuted by a SEND that was fetched before one that already waits. -/

namespace Sys2Proof.Machine

/-- The descriptor of a SEND on controller 0, of a frame without data. -/
def emptySend : Desc := ⟨6, 1, false, false, false, 0, 0, 0, 0, []⟩

/-- A SEND of slot 0 is held, while that of slot 1, fetched after it, already waits for a buffer. -/
def laterSendWaits : State :=
  let s := rset { State.reset with fabric := true } R.CAN_CTRL_EN 1 0
  { s with
    reqs := [⟨0, 0, 0, false, some emptySend, .held, 0, none⟩, ⟨0, 1, 0, false, some emptySend, .taken, 1, none⟩]
    can := [(0, { CanCtl.idle with sends := [⟨0, 1, 0⟩] })] }

theorem laterSendWaits_held : heldDesc laterSendWaits ⟨0, 0, 0⟩ 6 1 = some emptySend := by decide

theorem laterSendWaits_passes : sendError laterSendWaits ⟨0, 0, 0⟩ emptySend = none := by decide

/-- SENDs wait in order of fetch: the earlier one goes before the one that waits. -/
theorem laterSendWaits_sends :
    (getCan (canSend (takeReq (advance laterSendWaits 0) ⟨0, 0, 0⟩) ⟨0, 0, 0⟩ emptySend) 0).sends = [⟨0, 0, 0⟩, ⟨0, 1, 0⟩] := by
  decide

theorem exec_send {s : State} {t : Fc} {r : Ref} {d : Desc} (hfab : s.fabric = true) (hd : heldDesc s r 6 1 = some d)
    (hdue : due (advance s t) d = true) : exec (.send t r) s = .next (canSend (takeReq (advance s t) r) r d) :=
  atFabric_desc hfab (fun d s => canSend s r d) hd hdue

/-- What the SEND of slot 0 leaves waiting is not what waited with that SEND at its end. -/
theorem laterSendWaits_not_appended {u : State} (hu : exec (.send 0 ⟨0, 0, 0⟩) laterSendWaits = .next u) :
    (getCan u (emptySend.classWord % 8)).sends ≠ (getCan laterSendWaits (emptySend.classWord % 8)).sends ++ [⟨0, 0, 0⟩] := by
  obtain rfl : canSend (takeReq (advance laterSendWaits 0) ⟨0, 0, 0⟩) ⟨0, 0, 0⟩ emptySend = u :=
    Host.Outcome.next.inj ((exec_send rfl laterSendWaits_held rfl).symm.trans hu)
  rw [show emptySend.classWord % 8 = 0 from rfl, laterSendWaits_sends]
  decide

/-- Refutes O40: a SEND does not join the end of those that wait where one of them was fetched after it. -/
theorem not_canControllers : ¬ Obligations.CanControllers := by
  unfold Obligations.CanControllers
  rintro ⟨-, -, -, hsend, -⟩
  obtain ⟨u, hu, hsends, -⟩ := hsend laterSendWaits 0 ⟨0, 0, 0⟩ emptySend rfl laterSendWaits_held rfl laterSendWaits_passes
  exact laterSendWaits_not_appended hu hsends

/-- Refutes O57: a SEND does not join the end of those that wait where one of them was fetched after it. -/
theorem not_busesComplete : ¬ Obligations.BusesComplete := by
  unfold Obligations.BusesComplete
  rintro ⟨-, -, -, -, -, -, -, -, -, -, hsend, -⟩
  obtain ⟨u, hu, hsends⟩ := hsend laterSendWaits 0 ⟨0, 0, 0⟩ emptySend rfl laterSendWaits_held rfl laterSendWaits_passes
  exact laterSendWaits_not_appended hu hsends

end Sys2Proof.Machine
end

section
/-! The Ethernet receive queues: O39 is refuted by a head write of the fabric cycle in which a frame arrives (R356, R359). -/

namespace Sys2Proof.Machine

/-- Port 0 is up and takes every frame; its receive queue is full, and software's write of the head that frees all its entries
waits for fc 1. -/
def fullQueueFreed : State :=
  let s0 := rset (rset { State.reset with fabric := true } R.ETH_CTRL_EN 1) R.ETH_CTRL_PROMISC 1
  let s1 := rset (rset s0 R.ETH_STATUS_LINK_UP 1) R.ETH_RXQ_CFG_ENABLE 1
  let s2 := rset (rset s1 R.ETH_RXQ_WRITE_INDEX 0) R.ETH_RXQ_WRITE_PHASE 0
  { s2 with pending := [.queueHeadWrite 1 (.eth 0) 0 0] }

/-- The shortest frame of zeroes. -/
def zeroFrame : List Nat := List.replicate 60 0

theorem fullQueueFreed_full : queueRoom fullQueueFreed queueEth 0 0 = false := by decide

theorem fullQueueFreed_room : queueRoom (advance fullQueueFreed 1) queueEth 0 0 = true := by decide

/-- A good frame for this port goes to the receive queue where that has room. -/
theorem ethRx_room {s : State} {p sof : Nat} {f : List Nat} (hup : ethUp s p = true) (hen : rbit s R.ETH_CTRL_EN p = true)
    (hlo : 60 ≤ f.length) (hhi : f.length ≤ 1518) (hmac : macAccepts s p f = true) (hgptp : isGptp s p f = false)
    (hroom : queueRoom s queueEth p 0 = true) :
    ethRx s p sof true f = queuePut s queueEth p 0 2048 (ethEntry (eventTime s (min sof s.now)) f) := by
  have hq : rbit s R.ETH_RXQ_CFG_ENABLE p = true := (Bool.and_eq_true_iff.mp hroom).1
  unfold ethRx
  rw [if_neg (by simp [hup, hen]), if_neg (by simp), if_neg (by simp only [hmac, hgptp]; simp; omega), if_neg (by simp [hq]),
    if_pos hroom]

theorem queuePut_wrIdx (s : State) {q : QueueRegs} (i j n : Nat) (mk : Nat → List Byte) (h : q.wrIdx.id ≠ q.wrPh.id) :
    rget (queuePut s q i j n mk) q.wrIdx i j = posIndex (queueSize s q i j)
      (ringPos (queueSize s q i j) (rget s q.wrIdx i j) (rget s q.wrPh i j) + 1) % 2 ^ q.wrIdx.width :=
  (rget_rset_ne _ _ _ _ _ _ h).trans (rget_rset_self _ _ _ _ _)

/-- The frame is written: the write slot moves on. -/
theorem fullQueueFreed_written : rget (ethRx (advance fullQueueFreed 1) 0 0 true zeroFrame) R.ETH_RXQ_WRITE_INDEX = 1 := by
  rw [ethRx_room (by decide) (by decide) (by decide) (by decide) (by decide) (by decide) fullQueueFreed_room]
  exact (queuePut_wrIdx (q := queueEth) _ _ _ _ _ (by decide)).trans (by decide)

/-- Refutes O39: a receive queue that is full before the fc of a frame has room for it where a write of the head in that fc
frees its entries. -/
theorem not_ethernetPorts : ¬ Obligations.EthernetPorts := by
  unfold Obligations.EthernetPorts
  rintro ⟨-, -, -, -, -, -, -, -, hdrop, -⟩
  have hexec : exec (.ethRx 1 0 0 true zeroFrame) fullQueueFreed = .next (ethRx (advance fullQueueFreed 1) 0 0 true zeroFrame) :=
    atFabric_up fullQueueFreed 1 (fun s => ethRx s 0 0 true zeroFrame) rfl
  have hclaim := hdrop fullQueueFreed 1 0 0 zeroFrame rfl (by decide) (by decide) (by decide) (by decide) (by decide) (by decide)
    (by decide) fullQueueFreed_full
  have hstate := Host.Outcome.next.inj (hexec.symm.trans hclaim)
  have hindex := fullQueueFreed_written
  rw [hstate, rget_rset_ne _ _ _ _ _ _ (by decide)] at hindex
  exact absurd hindex (by decide)

end Sys2Proof.Machine
end

section
/-! The fleet's receive queue: O43 is refuted by a head write of the fabric cycle in which a STATUS arrives (R386, R390). -/

namespace Sys2Proof.Machine

theorem exec_statusRx {s : State} {t : Fc} {k : Fin 32} {raw : List Nat} {sig : Bool} (hfab : s.fabric = true) :
    exec (.statusRx t k raw true sig) s = .next (statusRx (advance s t) k raw sig) :=
  (atFabric_up s t (fun s => if true then statusRx s k raw sig else s) hfab).trans (congrArg _ (if_pos rfl))

/-- The session of slot 0 is open and the fleet's receive queue is empty; a write of its head that waits for fc 1 takes all
entries of the queue as unread. -/
def emptyQueueFilled : State :=
  let s := rset { State.reset with fabric := true } R.FLE_RXQ_CFG_ENABLE 1
  { s with
    fle := { s.fle with sessions := [(0, { Session.empty with isOpen := true })] }
    pending := [.queueHeadWrite 1 .fleet 0 0] }

/-- A STATUS of pitch 0 without payload. -/
def bareStatusRaw : List Nat := 3 :: 1 :: List.replicate 126 0

def bareStatus : StatusMsg := ⟨0, 0, 0, 0, [], bareStatusRaw⟩

theorem bareStatusRaw_parses : parseStatus bareStatusRaw = some bareStatus := by decide +kernel

theorem emptyQueueFilled_room : queueRoom emptyQueueFilled queueFle 0 0 = true := by decide

/-- In fc 1 the queue has no room: the STATUS is not written. -/
theorem emptyQueueFilled_unwritten : (statusRx (advance emptyQueueFilled 1) 0 bareStatusRaw true).mem = [] := by decide +kernel

/-- Refutes O43: a receive queue with room before the fc of a STATUS has none where a write of the head in that fc takes its
entries back. -/
theorem not_fleetMessages : ¬ Obligations.FleetMessages := by
  unfold Obligations.FleetMessages
  rintro ⟨-, -, -, -, -, -, -, -, -, -, -, -, -, -, -, -, -, hstatus, -⟩
  obtain ⟨u, hu, -, -, -, hread, -⟩ := hstatus emptyQueueFilled 1 0 { Session.empty with isOpen := true } bareStatusRaw bareStatus
    true rfl rfl rfl rfl bareStatusRaw_parses rfl rfl (.inr rfl) rfl (by decide) (by decide) (fun a ha => by cases ha)
    emptyQueueFilled_room rfl rfl rfl (by decide)
  obtain rfl : statusRx (advance emptyQueueFilled 1) 0 bareStatusRaw true = u := Host.Outcome.next.inj
    ((exec_statusRx (t := 1) (k := 0) (raw := bareStatusRaw) (sig := true) (s := emptyQueueFilled) rfl).symm.trans hu)
  have hhost : queueHost emptyQueueFilled queueFle 0 0 = false := by decide
  have hbyte := hread 11 (by decide)
  rw [hhost, if_neg (by decide), emptyQueueFilled_unwritten] at hbyte
  exact absurd hbyte (by decide)

end Sys2Proof.Machine
end

section
/-! Firmware update and health: O47 and O60 are refuted by a CONFIRM that waits in the fabric cycle of the activation reset
(R5, R437, R441), O48 by a write of the telemetry ring's head in the cycle of a sample (R452, R453). -/

namespace Sys2Proof.Machine

/-! ### A CONFIRM in the fabric cycle of an activation reset -/

/-- The descriptor of a CONFIRM. -/
def confirmDesc : Desc := ⟨9, 5, false, false, false, 0, 0, 0, 0, []⟩

/-- The image of slot 0 has been copied and its reset is due; a fetched CONFIRM waits for the same fc. -/
noncomputable def confirmBesideReset : State :=
  let s := rset { State.reset with fabric := true } R.TKE_ROW_LO_ROW 1
  { s with
    reqs := [⟨0, 0, 0, false, some confirmDesc, .held, 0, none⟩]
    tke := { s.tke with flushed := true }
    upd := { s.upd with copying := some (⟨1, 0, 0⟩, 0), resetAfter := some 0 }
    pending := [.confirm 0 ⟨0, 0, 0⟩] }

/-- The CONFIRM ends the trial that the reset has begun. -/
theorem confirmBesideReset_trial : rget (activationReset (advance confirmBesideReset 0)) R.UPD_STATUS_TRIAL = 0 := by
  decide +kernel

theorem exec_activationReset {s : State} {t : Fc} (hfab : s.fabric = true) :
    exec (.activationReset t) s = .next (activationReset (advance s t)) := atFabric_up s t activationReset hfab

theorem confirmBesideReset_no_trial {u : State} (hu : exec (.activationReset 0) confirmBesideReset = .next u) :
    rget u R.UPD_STATUS_TRIAL ≠ 1 := by
  obtain rfl : activationReset (advance confirmBesideReset 0) = u :=
    Host.Outcome.next.inj ((exec_activationReset rfl).symm.trans hu)
  rw [confirmBesideReset_trial]
  decide

/-- Refutes O47: the activation reset does not leave the module on trial where a CONFIRM waits in its fc. -/
theorem not_firmwareUpdate : ¬ Obligations.FirmwareUpdate := by
  unfold Obligations.FirmwareUpdate
  rintro ⟨-, -, -, -, -, -, -, -, -, -, -, -, -, -, -, -, -, -, -, -, -, -, hreset, -⟩
  obtain ⟨u, hu, -, htrial, -⟩ := hreset confirmBesideReset 0 ⟨1, 0, 0⟩ 0 0 rfl rfl rfl (by decide) rfl
  exact confirmBesideReset_no_trial hu htrial

/-- Refutes O60: the activation reset does not leave the module on trial where a CONFIRM waits in its fc. -/
theorem not_keysUpdateHealthComplete : ¬ Obligations.KeysUpdateHealthComplete := by
  unfold Obligations.KeysUpdateHealthComplete
  rintro ⟨-, -, -, -, -, -, -, -, -, hreset, -⟩
  obtain ⟨u, hu, -, htrial, -⟩ := hreset confirmBesideReset 0 ⟨1, 0, 0⟩ 0 0 rfl rfl rfl (by decide) rfl
  exact confirmBesideReset_no_trial hu htrial

/-! ### A head write in the fabric cycle of a telemetry sample -/

/-- A sample is due and the telemetry ring is full; software's write of its head that frees all entries waits for fc 1. -/
def fullTelemetryFreed : State :=
  let s0 := rset (rset { State.reset with fabric := true } R.HLM_CTRL_SAMPLE_S 1) R.HLM_TLM_CFG_ENABLE 1
  let s1 := rset (rset s0 R.HLM_TLM_WRITE_INDEX 0) R.HLM_TLM_WRITE_PHASE 0
  { s1 with pending := [.queueHeadWrite 1 .telemetry 0 0] }

theorem fullTelemetryFreed_full : queueRoom fullTelemetryFreed queueTlm 0 0 = false := by decide

/-- The sample is written. -/
theorem fullTelemetryFreed_drops : rget (tlmSample (advance fullTelemetryFreed 1) 0 0 0) R.HLM_TLM_DROPS_TLM_DROPS = 0 := by
  decide +kernel

/-- Refutes O48: a telemetry ring that is full before the fc of a sample has room for it where a write of the head in that fc
frees its entries. -/
theorem not_healthAndAgeing : ¬ Obligations.HealthAndAgeing := by
  unfold Obligations.HealthAndAgeing
  rintro ⟨-, -, -, -, -, -, -, -, -, -, -, -, -, hsample, -⟩
  obtain ⟨u, hu, -, hdrops, -⟩ := hsample fullTelemetryFreed 1 0 0 0 rfl (by decide) (by decide) (by decide) (by decide)
    fullTelemetryFreed_full
  obtain rfl : tlmSample (advance fullTelemetryFreed 1) 0 0 0 = u := Host.Outcome.next.inj
    ((atFabric_up fullTelemetryFreed 1 (fun s => tlmSample s 0 0 0) rfl).symm.trans hu)
  rw [fullTelemetryFreed_drops] at hdrops
  exact absurd hdrops (by decide)

end Sys2Proof.Machine
end

section
/-! Sessions of the fleet market: what the commands about them leave of the table of sessions (R368–R374, R382, R385), and
O42. -/

namespace Sys2Proof.Machine

variable {s u : State} {t : Fc} {k : Nat} {c : Session}

/-! ### Tables -/

/-- Of two entries set under one key the later one stands. -/
theorem tblSet_tblSet {α : Type} (l : Tbl α) (k : Nat) (a b : α) : tblSet (tblSet l k a) k b = tblSet l k b := by
  induction l with
  | nil => simp [tblSet]
  | cons p l ih =>
    obtain ⟨j, w⟩ := p
    by_cases hlt : k < j
    · simp [tblSet, hlt]
    · by_cases heq : k = j
      · simp [tblSet, heq]
      · simp [tblSet, hlt, heq, ih]

theorem mem_of_tblGet? {α : Type} {l : Tbl α} {n : Nat} {v : α} (h : tblGet? l n = some v) : (n, v) ∈ l := by
  induction l with
  | nil => cases h
  | cons p l ih =>
    obtain ⟨j, w⟩ := p
    unfold tblGet? at h
    split at h
    · rename_i hj
      rw [hj, Option.some.inj h]
      exact List.mem_cons_self
    · exact List.mem_cons_of_mem _ (ih h)

theorem tblSorted_keys_nodup {α : Type} {l : Tbl α} (h : tblSorted l = true) : (l.map (·.1)).Nodup := by
  induction l with
  | nil => exact List.nodup_nil
  | cons p l ih =>
    simp only [tblSorted, Bool.and_eq_true] at h
    obtain ⟨habove, hs⟩ := h
    refine List.nodup_cons.mpr ⟨fun hmem => ?_, ih hs⟩
    obtain ⟨q, hq, hkey⟩ := List.mem_map.mp hmem
    have hlt : p.1 < q.1 := of_decide_eq_true (List.all_eq_true.mp habove q hq)
    exact absurd hkey (Nat.ne_of_gt hlt)

theorem tblGet?_of_mem {α : Type} {l : Tbl α} (h : tblSorted l = true) {n : Nat} {v : α} (hmem : (n, v) ∈ l) :
    tblGet? l n = some v := by
  induction l with
  | nil => cases hmem
  | cons p l ih =>
    obtain ⟨j, w⟩ := p
    have hnodup := tblSorted_keys_nodup h
    simp only [tblSorted, Bool.and_eq_true] at h
    unfold tblGet?
    obtain hp | hp := List.mem_cons.mp hmem
    · cases hp
      exact if_pos rfl
    · have hne : n ≠ j := fun e => (List.nodup_cons.mp hnodup).1 (e ▸ List.mem_map.mpr ⟨(n, v), hp, rfl⟩)
      rw [if_neg hne, ih h.2 hp]

theorem tblGet?_erase_self {α : Type} {l : Tbl α} (n : Nat) (h : tblSorted l = true) : tblGet? (tblErase l n) n = none := by
  cases hget : tblGet? (tblErase l n) n with
  | none => rfl
  | some v =>
    have hmem : (n, v) ∈ tblErase l n := mem_of_tblGet? hget
    clear hget
    induction l with
    | nil => cases hmem
    | cons p l ih =>
      obtain ⟨j, w⟩ := p
      have hnodup := tblSorted_keys_nodup h
      simp only [tblSorted, Bool.and_eq_true] at h
      unfold tblErase at hmem
      split at hmem
      · rename_i hj
        exact absurd (hj ▸ List.mem_map.mpr ⟨(n, v), hmem, rfl⟩) (List.nodup_cons.mp hnodup).1
      · obtain hp | hp := List.mem_cons.mp hmem
        · cases hp
          contradiction
        · exact ih h.2 hp

theorem tblGet?_erase_ne {α : Type} (l : Tbl α) {n m : Nat} (h : m ≠ n) : tblGet? (tblErase l n) m = tblGet? l m := by
  induction l with
  | nil => rfl
  | cons p l ih =>
    obtain ⟨j, w⟩ := p
    unfold tblErase
    split
    · rename_i hj
      rw [tblGet?, if_neg (hj ▸ h)]
    · rw [tblGet?, tblGet?, ih]

theorem tblErase_set {α : Type} (l : Tbl α) (n : Nat) (v : α) (m : Nat) (h : tblSorted l = true) :
    tblGet? (tblErase (tblSet l n v) n) m = if m = n then none else tblGet? l m := by
  split
  · rename_i hm
    rw [hm]
    exact tblGet?_erase_self n (tblSorted_set _ _ _ h)
  · rename_i hm
    rw [tblGet?_erase_ne _ hm, tblGet?_set_ne _ _ hm]

/-! ### One session -/

/-- The state with another session in a slot. -/
def State.withSession (s : State) (k : Nat) (c : Session) : State :=
  { s with fle := { s.fle with sessions := tblSet s.fle.sessions k c } }

@[simp] theorem withSession_get (s : State) (k : Nat) (c : Session) : tblGet? (s.withSession k c).fle.sessions k = some c :=
  tblGet?_set_self _ _ _

@[simp] theorem withSession_withSession (s : State) (k : Nat) (c d : Session) :
    (s.withSession k c).withSession k d = s.withSession k d := by
  unfold State.withSession
  rw [tblSet_tblSet]

theorem modSession_some (f : Session → Session) (h : tblGet? s.fle.sessions k = some c) :
    modSession s k f = s.withSession k (f c) := by
  unfold modSession
  rw [h]
  rfl

theorem modSession_none (f : Session → Session) (h : tblGet? s.fle.sessions k = none) : modSession s k f = s := by
  unfold modSession
  rw [h]

@[simp] theorem modSession_withSession (s : State) (k : Nat) (c : Session) (f : Session → Session) :
    modSession (s.withSession k c) k f = s.withSession k (f c) := by
  rw [modSession_some f (withSession_get s k c), withSession_withSession]

theorem modSession_get (s : State) (k : Nat) (f : Session → Session) (j : Nat) : tblGet? (modSession s k f).fle.sessions j =
    if j = k then (tblGet? s.fle.sessions k).map f else tblGet? s.fle.sessions j := by
  cases h : tblGet? s.fle.sessions k with
  | none =>
    rw [modSession_none f h]
    split
    · rename_i hj
      rw [hj, h]
      rfl
    · rfl
  | some c =>
    rw [modSession_some f h]
    exact tblGet?_set _ _ _ _

theorem modSession_fle (s : State) (k : Nat) (f : Session → Session) :
    (modSession s k f).fle = { s.fle with sessions := (modSession s k f).fle.sessions } := by
  unfold modSession
  split <;> rfl

theorem openSession_some (h : tblGet? s.fle.sessions k = some c) (ho : c.isOpen = true) : openSession s k = some c := by
  unfold openSession
  rw [h]
  exact if_pos ho

theorem onSession_open {f : Session → State → State} (h : tblGet? s.fle.sessions k = some c) (ho : c.isOpen = true)
    (hr : c.overRate s.now = false) : onSession s k f = f c (s.withSession k (c.received s.now)) := by
  unfold onSession
  rw [openSession_some h ho]
  dsimp only
  rw [hr, if_neg (by decide), modSession_some _ h]

/-! ### Messages -/

theorem sendTo_room {m : FleMsg} (h : tblGet? s.fle.sessions k = some c) (ho : c.isOpen = true) (hq : c.queue.length < 512) :
    sendTo s k m = s.withSession k { c with queue := c.queue ++ [m] } := by
  unfold sendTo
  rw [openSession_some h ho]
  dsimp only
  rw [if_pos hq, modSession_some _ h]

/-- The SUMMARY message of the start-of-session exchange with the figures from the `i`-th part of the pitches. -/
def summaryPart (s : State) (i : Nat) : FleMsg := .summary (figuresOf s (99 * i) (min 99 (1024 - 99 * i)))

theorem foldl_summaries (l : List Nat) {c : Session} (ho : c.isOpen = true) (hq : c.queue.length + l.length ≤ 512) :
    l.foldl (fun s i => sendTo s k (summaryPart s i)) (s.withSession k c) =
      s.withSession k { c with queue := c.queue ++ l.map (summaryPart s) } := by
  induction l generalizing c with
  | nil => simp
  | cons i l ih =>
    rw [List.length_cons] at hq
    rw [List.foldl_cons, sendTo_room (withSession_get s k c) ho (by omega), withSession_withSession]
    refine (ih (c := { c with queue := c.queue ++ [summaryPart (s.withSession k c) i] }) ho ?_).trans ?_
    · rw [List.length_append, List.length_singleton]
      omega
    · rw [List.map_cons, ← List.append_cons]
      rfl

/-- The exchange of a session that has nothing queued. -/
theorem startExchange_idle (h : tblGet? s.fle.sessions k = some c) (ho : c.isOpen = true) (hq : c.queue = []) :
    startExchange s k = s.withSession k { c with queue := (List.range 11).map (summaryPart s) } := by
  have hall : startExchange s k = (List.range 11).foldl (fun s i => sendTo s k (summaryPart s i)) s := rfl
  have hrange : List.range 11 = 0 :: [1, 2, 3, 4, 5, 6, 7, 8, 9, 10] := by decide
  rw [hall, hrange, List.foldl_cons, sendTo_room h ho (by rw [hq]; decide), List.map_cons, hq, List.nil_append]
  refine (foldl_summaries (c := { c with queue := [summaryPart s 0] }) _ ho (by simp)).trans ?_
  rfl

/-! ### Closing -/

/-- A session as its end leaves it. -/
def Session.closed (c : Session) (now : Nat) (bye : Bool) : Session :=
  { c with
    isOpen := false, trying := false, closedAt := now, queue := if bye && c.isOpen then [.bye] else [], owed := [],
    behind := false }

theorem closeSession_regsOnly (s : State) (k : Nat) (bye : Bool) :
    RegsOnly s (closeSession s k bye) [R.FLE_SESSIONS_UP.key 0 0] := by
  have h : (modSession s k fun c => c.closed s.now bye).regs = s.regs := modSession_within.regs.resolve_left (by simp)
  intro n hn
  exact (rset_regsOnly _ R.FLE_SESSIONS_UP _ 0 0 (List.mem_singleton.mpr rfl) n hn).trans (congrArg (tblGet? · n) h)

theorem closeSession_some (bye : Bool) (h : tblGet? s.fle.sessions k = some c) :
    closeSession s k bye = rsetBitAt (s.withSession k (c.closed s.now bye)) R.FLE_SESSIONS_UP k false := by
  unfold closeSession
  rw [modSession_some _ h]
  rfl

theorem closeSession_fle (bye : Bool) (h : tblGet? s.fle.sessions k = some c) :
    (closeSession s k bye).fle = (s.withSession k (c.closed s.now bye)).fle :=
  (congrArg State.fle (closeSession_some bye h)).trans rfl

theorem closeSession_get (s : State) (k : Nat) (bye : Bool) (j : Nat) : tblGet? (closeSession s k bye).fle.sessions j =
    if j = k then (tblGet? s.fle.sessions k).map fun c => c.closed s.now bye else tblGet? s.fle.sessions j :=
  modSession_get s k (fun c => c.closed s.now bye) j

theorem closeSession_bit (s : State) (bye : Bool) (hk : k < 32) :
    bitOf (rget (closeSession s k bye) R.FLE_SESSIONS_UP) k = false := bitOf_rsetBitAt _ _ false 0 0 hk

/-- A session that ends in silence: closed, and marked ABSENT. -/
theorem absentSession_fle (h : tblGet? s.fle.sessions k = some c) :
    (absentSession s k).fle = (s.withSession k { c.closed s.now false with absent := true }).fle := by
  unfold absentSession
  rw [raiseEv_within.fle.resolve_left (by simp), closeSession_some false h,
    modSession_some (c := c.closed s.now false) _ (by exact withSession_get s k _)]
  exact (congrArg State.fle (withSession_withSession s k (c.closed s.now false) { c.closed s.now false with absent := true }) :)

theorem absentSession_bit (hk : k < 32) :
    bitOf (rget (absentSession s k) R.FLE_SESSIONS_UP) k = false := by
  unfold absentSession
  rw [raiseEv_within.rget _ _ _ (by decide), modSession_within.rget _ _ _ (by simp)]
  exact closeSession_bit s false hk

theorem openSlots_nodup (hs : tblSorted s.fle.sessions = true) : (openSlots s).Nodup :=
  tblSorted_keys_nodup (tblSorted_filter _ _ hs)

theorem mem_openSlots (h : tblGet? s.fle.sessions k = some c) (ho : c.isOpen = true) : k ∈ openSlots s :=
  List.mem_map.mpr ⟨(k, c), List.mem_filter.mpr ⟨mem_of_tblGet? h, ho⟩, rfl⟩

theorem openSlots_open (hs : tblSorted s.fle.sessions = true) (h : tblGet? s.fle.sessions k = some c) (hk : k ∈ openSlots s) :
    c.isOpen = true := by
  obtain ⟨⟨j, d⟩, hmem, rfl⟩ := List.mem_map.mp hk
  obtain ⟨hin, ho⟩ := List.mem_filter.mp hmem
  rw [tblGet?_of_mem hs hin] at h
  exact Option.some.inj h ▸ ho

/-- Closing every session ends each open one with BYE. -/
theorem fleClose_get (hs : tblSorted s.fle.sessions = true) (h : tblGet? s.fle.sessions k = some c) :
    tblGet? (fleClose s).fle.sessions k = some (if c.isOpen then c.closed s.now true else c) := by
  by_cases ho : c.isOpen = true
  · have hself (v : State) (a : Nat) : ((closeSession v a true).now, tblGet? (closeSession v a true).fle.sessions a) =
        (v.now, (tblGet? v.fle.sessions a).map fun c => c.closed v.now true) :=
      Prod.ext (closeSession_within.now.resolve_left (by simp)) ((closeSession_get v a true a).trans (if_pos rfl))
    have hother (v : State) (a b : Nat) (hb : b ≠ a) : ((closeSession v a true).now, tblGet? (closeSession v a true).fle.sessions b) =
        (v.now, tblGet? v.fle.sessions b) :=
      Prod.ext (closeSession_within.now.resolve_left (by simp)) ((closeSession_get v a true b).trans (if_neg hb))
    have hfold := foldl_pointwise (f := fun v a => closeSession v a true) (fun v a => (v.now, tblGet? v.fle.sessions a))
      (R := fun p q => q = (p.1, p.2.map fun c => c.closed p.1 true)) (openSlots_nodup hs) (fun v a _ => hself v a)
      (fun v a _ b _ hb => hother v a b hb) (mem_openSlots h ho) s
    refine (congrArg Prod.snd hfold).trans ?_
    rw [h, if_pos ho]
    rfl
  · rw [if_neg ho]
    have hk (a : Nat) (ha : a ∈ openSlots s) : k ≠ a := fun e => ho (openSlots_open hs h (e ▸ ha))
    exact foldl_invariant (P := fun v : State => tblGet? v.fle.sessions k = some c) h fun v a ha hv =>
      (closeSession_get v a true k).trans ((if_neg (hk a ha)).trans hv)

theorem fleClose_fle (s : State) : (fleClose s).fle = { s.fle with sessions := (fleClose s).fle.sessions } :=
  foldl_invariant (P := fun v : State => v.fle = { s.fle with sessions := v.fle.sessions }) rfl fun v a _ hv => by
    have h : (closeSession v a true).fle = { v.fle with sessions := (closeSession v a true).fle.sessions } := modSession_fle v a _
    rw [h, hv]

theorem fleClose_regsOnly (s : State) : RegsOnly s (fleClose s) [R.FLE_SESSIONS_UP.key 0 0] :=
  foldl_invariant (P := fun v => RegsOnly s v [R.FLE_SESSIONS_UP.key 0 0]) (fun _ _ => rfl) fun v a _ hv n hn =>
    (closeSession_regsOnly v a true n hn).trans (hv n hn)

end Sys2Proof.Machine
end

section
/-! O42: the fleet ports, peers, sessions and their timers (R368–R374, R382–R389). -/

namespace Sys2Proof.Machine

variable {s u : State} {t : Fc} {k : Nat} {c : Session} {x : Cert} {r : Ref} {d : Desc}

/-! ### Members -/

theorem getMember_modMember (s : State) (p : Nat) (f : Member → Member) (q : Nat) :
    getMember (modMember s p f) q = if q = p then f (getMember s p) else getMember s q := by
  show tblGetD (tblSet _ _ _) _ _ = _
  rw [tblGetD, tblGet?_set]
  split <;> rfl

/-- What is told of the members does not hang on their certificates. -/
theorem figuresOf_modMember_cert (s : State) (p : Nat) (x : Option Cert) (lo n : Nat) :
    figuresOf (modMember s p fun m => { m with cert := x }) lo n = figuresOf s lo n := by
  refine List.map_congr_left fun i _ => ?_
  have hbest : (getMember (modMember s p fun m => { m with cert := x }) (lo + i)).best = (getMember s (lo + i)).best := by
    rw [getMember_modMember]
    split
    · rename_i hp
      rw [hp]
    · rfl
  rw [hbest]

/-! ### Descriptors of a session -/

theorem completeOpt_reqs_congr {s u : State} (h : u.reqs = s.reqs) (r : Option Ref) (status detail : Nat) :
    (completeOpt u r status detail).reqs = (completeOpt s r status detail).reqs := by
  cases r with
  | none => exact h
  | some r => exact complete_reqs_congr h r status detail none

theorem completeOpt_regs (s : State) (r : Option Ref) (st d : Nat) : (completeOpt s r st d).regs = s.regs :=
  completeOpt_within.regs.resolve_left (by simp)

theorem completeOpt_fle (s : State) (r : Option Ref) (st d : Nat) : (completeOpt s r st d).fle = s.fle :=
  completeOpt_within.fle.resolve_left (by simp)

theorem withSession_within (s : State) (k : Nat) (c : Session) : Within [.fle] [] s (s.withSession k c) := within_fle (.refl _) rfl

theorem withSession_fle_congr {u : State} (h : u.fle = s.fle) (k : Nat) (c : Session) :
    (u.withSession k c).fle = (s.withSession k c).fle := by
  exact congrArg (fun m : Fle => { m with sessions := tblSet m.sessions k c }) h

/-! ### Enabling -/

theorem fleError_none (h1 : rget s R.NAV_STATE_TIME_STATE ≠ 0) (h2 : credsValid s = true) (h3 : verBase s ≠ 0) (h4 : cacheBase s ≠ 0)
    (h5 : rget s R.FLE_STORE_BASE_LO_ADDR_LO ≠ 0 ∨ rget s R.FLE_STORE_BASE_HI_ADDR_HI ≠ 0)
    (h6 : rbit s R.ETH_CTRL_EN (rget s R.FLE_CTRL_PORT) = true) : fleError s = 0 := by
  unfold fleError
  rw [if_neg h1, if_neg (by simp [h2]), if_neg (by simp only [h3, h4, false_or]; tauto), if_neg (by simp [h6])]

theorem fleEnable_off (h : rbit s R.FLE_CTRL_EN = false) : fleEnable s =
    if fleError s = 0 then rset (rset s R.FLE_CTRL_ERR (fleError s)) R.FLE_CTRL_EN 1 else rset s R.FLE_CTRL_ERR (fleError s) :=
  if_neg (by simp [h])

/-! ### PEER_SET -/

/-- The address of a PEER_SET. -/
def peerAddr (d : Desc) : List Nat := [d.word 0x10, d.word 0x14, d.word 0x18, d.word 0x1C]

/-- The session that a PEER_SET opens a slot for. -/
def peerSession (d : Desc) (r : Ref) (now : Nat) : Session :=
  { Session.empty with
    addr := peerAddr d, port := d.word 0x20 % 65536, pitch := bitField (d.word 0x20) 16 10, ref := some r, setAt := now,
    closedAt := now, trying := true }

/-- The PEER_SET that waits in a slot. -/
def waitingPeer (s : State) (k : Nat) : Option Ref :=
  match tblGet? s.fle.sessions k with
  | some c => c.ref
  | none => none

theorem waitingPeer_eq {o : Option Session} (h : tblGet? s.fle.sessions k = o) : waitingPeer s k = o.bind (·.ref) := by
  unfold waitingPeer
  rw [h]
  cases o <;> rfl

theorem peerSet_eq (s : State) (r : Ref) (d : Desc) : peerSet s r d =
    if !bitOf d.classWord 31 && ((peerAddr d).all (· == 0) || d.word 0x20 % 65536 == 0) then complete s r stRejectFormat 0x01E0
    else if !rbit s R.FLE_CTRL_EN then complete s r stRejectState 0x02E0
    else
      let s1 := completeOpt (closeSession s (d.classWord % 32) true) (waitingPeer s (d.classWord % 32)) stPartnerAbsent
      if bitOf d.classWord 31 then
        complete (modFle s1 fun f => { f with sessions := tblErase f.sessions (d.classWord % 32) }) r stDone
      else s1.withSession (d.classWord % 32) (peerSession d r s.now) := rfl

theorem closeSession_withSession_fle (s : State) (k : Nat) (bye : Bool) (n : Session) :
    ((closeSession s k bye).withSession k n).fle = (s.withSession k n).fle := by
  cases h : tblGet? s.fle.sessions k with
  | none =>
    have hsame : (closeSession s k bye).fle = s.fle := (congrArg State.fle (modSession_none (fun c => c.closed s.now bye) h) :)
    exact withSession_fle_congr hsame k n
  | some c =>
    rw [withSession_fle_congr (closeSession_fle bye h), withSession_withSession]

/-- What a PEER_SET does to its slot before it takes it: the session there ends, and the descriptor that waited for it. -/
def peerCleared (s : State) (k : Nat) : State := completeOpt (closeSession s k true) (waitingPeer s k) stPartnerAbsent

theorem peerCleared_fle (s : State) (k : Nat) : (peerCleared s k).fle = (closeSession s k true).fle := completeOpt_fle _ _ _ _

theorem peerCleared_regs (s : State) (k : Nat) : (peerCleared s k).regs = (closeSession s k true).regs := completeOpt_regs _ _ _ _

theorem peerCleared_reqs (s : State) (k : Nat) : (peerCleared s k).reqs = (completeOpt s (waitingPeer s k) stPartnerAbsent).reqs :=
  completeOpt_reqs_congr (closeSession_within.reqs.resolve_left (by simp)) _ _ _

theorem peerCleared_within (s : State) (k : Nat) : Within [.regs, .fle, .reqs, .till] [blkCode .fle] s (peerCleared s k) :=
  completeOpt_within.step (closeSession_within.step (.refl _) rfl rfl) rfl rfl

theorem erasedSession_fle {v : State} (h : v.fle = (s.withSession k c).fle) :
    (modFle v fun f => { f with sessions := tblErase f.sessions k }).fle =
      { s.fle with sessions := tblErase (tblSet s.fle.sessions k c) k } := by
  show ({ v.fle with sessions := tblErase v.fle.sessions k } : Fle) = _
  rw [h]
  rfl

theorem peerSet_opens (hset : bitOf d.classWord 31 = false) (haddr : ∃ w ∈ peerAddr d, w ≠ 0) (hport : d.word 0x20 % 65536 ≠ 0)
    (hen : rbit s R.FLE_CTRL_EN = true) : peerSet s r d =
      (peerCleared s (d.classWord % 32)).withSession (d.classWord % 32) (peerSession d r s.now) := by
  rw [peerSet_eq, if_neg (by simpa [hset, hport] using haddr), if_neg (by simp [hen]), hset]
  rfl

theorem peerSet_unopened (hset : bitOf d.classWord 31 = false) (haddr : ∃ w ∈ peerAddr d, w ≠ 0) (hport : d.word 0x20 % 65536 ≠ 0)
    (hen : rbit s R.FLE_CTRL_EN = false) : peerSet s r d = complete s r stRejectState 0x02E0 := by
  rw [peerSet_eq, if_neg (by simpa [hset, hport] using haddr), if_pos (by simp [hen])]

theorem peerSet_malformed (hset : bitOf d.classWord 31 = false) (hbad : (∀ w ∈ peerAddr d, w = 0) ∨ d.word 0x20 % 65536 = 0) :
    peerSet s r d = complete s r stRejectFormat 0x01E0 := by
  rw [peerSet_eq, if_pos (by simpa [hset] using hbad)]

theorem peerSet_clears (hclear : bitOf d.classWord 31 = true) (hen : rbit s R.FLE_CTRL_EN = true) : peerSet s r d =
    complete (modFle (peerCleared s (d.classWord % 32)) fun f => { f with sessions := tblErase f.sessions (d.classWord % 32) })
      r stDone := by
  rw [peerSet_eq, if_neg (by simp [hclear]), if_neg (by simp [hen]), hclear]
  rfl

/-! ### Handshakes -/

/-- What a handshake with this certificate finds wrong. -/
def handshakeError (s : State) (c : Session) (x : Cert) : Option Nat :=
  (certError s x).or (if x.pitch = c.pitch then none else some 4)

theorem handshake_closed (h : tblGet? s.fle.sessions k = some c) (hen : rbit s R.FLE_CTRL_EN = true) (ho : c.isOpen = false) :
    handshake s k (some x) =
      if (handshakeError s c x).isNone && inHold s x.pitch then raiseEv (tryFailed s k) evFleAuthFail
      else if !c.trying || slotHeld s k then s
      else match handshakeError s c x with
      | some n =>
        let s1 := completeOpt (modSession (tryFailed s k) k fun c => { c with ref := none }) c.ref stRejectAuth (0x04E0 + n)
        if n = 4 then raiseEv s1 evFleAuthFail else s1
      | none => sessionOpen s k c x := by
  unfold handshake
  rw [h]
  dsimp only
  rw [if_neg (by simp [ho, hen])]
  rfl

theorem tryFailed_some (h : tblGet? s.fle.sessions k = some c) :
    tryFailed s k = s.withSession k { c with trying := false, closedAt := s.now } := modSession_some _ h

/-- A handshake refused for its certificate: the session as it is left. -/
def Session.refused (c : Session) (now : Nat) : Session := { c with trying := false, closedAt := now, ref := none }

theorem handshake_refused {n : Nat} (h : tblGet? s.fle.sessions k = some c) (hen : rbit s R.FLE_CTRL_EN = true) (ho : c.isOpen = false)
    (htry : c.trying = true) (hfree : slotHeld s k = false) (hbad : handshakeError s c x = some n) :
    ∃ v, handshake s k (some x) = v ∧ v.fle = (s.withSession k (c.refused s.now)).fle ∧
      v.reqs = (completeOpt s c.ref stRejectAuth (0x04E0 + n)).reqs ∧
      Within [.regs, .fle, .reqs, .till, .log, .mem, .extMem] (blks [.hlm, .jrn]) s v := by
  have hv : handshake s k (some x) =
      let s1 := completeOpt (s.withSession k (c.refused s.now)) c.ref stRejectAuth (0x04E0 + n)
      if n = 4 then raiseEv s1 evFleAuthFail else s1 := by
    rw [handshake_closed h hen ho, hbad, if_neg (by simp), if_neg (by simp [htry, hfree]), tryFailed_some h, modSession_withSession]
    rfl
  have hw : Within [.regs, .fle, .reqs, .till, .log, .mem, .extMem] (blks [.hlm, .jrn]) s
      (completeOpt (s.withSession k (c.refused s.now)) c.ref stRejectAuth (0x04E0 + n)) :=
    completeOpt_within.step ((withSession_within ..).mono rfl rfl) rfl rfl
  refine ⟨_, hv, ?_, ?_, within_ite (raiseEv_within.step hw rfl rfl) hw⟩
  · dsimp only
    split
    · exact (raiseEv_within.fle.resolve_left (by simp)).trans (completeOpt_fle _ _ _ _)
    · exact completeOpt_fle _ _ _ _
  · dsimp only
    split
    · exact (raiseEv_within.reqs.resolve_left (by simp)).trans (completeOpt_reqs_congr (s := s) (u := s.withSession k (c.refused s.now)) rfl _ _ _)
    · exact completeOpt_reqs_congr (s := s) (u := s.withSession k (c.refused s.now)) rfl _ _ _

theorem handshakeError_cert {n : Nat} (h : certError s x = some n) : handshakeError s c x = some n := by
  unfold handshakeError
  rw [h]
  rfl

theorem handshakeError_pitch (h : certError s x = none) (hp : x.pitch ≠ c.pitch) : handshakeError s c x = some 4 := by
  unfold handshakeError
  rw [h, if_neg hp]
  rfl

theorem handshakeError_none (h : certError s x = none) (hp : x.pitch = c.pitch) : handshakeError s c x = none := by
  unfold handshakeError
  rw [h, if_pos hp]
  rfl

/-- A session as a handshake opens it. -/
def Session.opened (c : Session) (now : Nat) (x : Cert) : Session :=
  { c with
    isOpen := true, absent := false, trying := false, txAt := now, rxAt := now, expires := x.notAfter, queue := [], owed := [],
    behind := false, ref := none, rateCount := 0 }

/-- The state of a module that has let a peer in, before the exchange. -/
def letIn (s : State) (k : Nat) (c : Session) (x : Cert) : State :=
  completeOpt (rsetBitAt ((modMember s x.pitch fun m => { m with cert := some x }).withSession k (c.opened s.now x))
    R.FLE_SESSIONS_UP k true) c.ref stDone

theorem letIn_fle (s : State) (k : Nat) (c : Session) (x : Cert) :
    (letIn s k c x).fle = ((modMember s x.pitch fun m => { m with cert := some x }).withSession k (c.opened s.now x)).fle :=
  completeOpt_fle _ _ _ _

theorem letIn_get (s : State) (k : Nat) (c : Session) (x : Cert) : tblGet? (letIn s k c x).fle.sessions k = some (c.opened s.now x) := by
  rw [letIn_fle, withSession_get]

theorem letIn_reqs (s : State) (k : Nat) (c : Session) (x : Cert) : (letIn s k c x).reqs = (completeOpt s c.ref stDone).reqs := by
  unfold letIn
  refine completeOpt_reqs_congr ?_ _ _ _
  rfl

theorem letIn_bit (s : State) (c : Session) (x : Cert) (hk : k < 32) : bitOf (rget (letIn s k c x) R.FLE_SESSIONS_UP) k = true := by
  unfold letIn
  rw [completeOpt_within.rget _ _ _ (by simp)]
  exact bitOf_rsetBitAt _ _ true 0 0 hk

theorem letIn_regsOnly (s : State) (k : Nat) (c : Session) (x : Cert) : RegsOnly s (letIn s k c x) [R.FLE_SESSIONS_UP.key 0 0] :=
  fun n hn => (congrArg (tblGet? · n) (completeOpt_regs _ _ _ _)).trans (rset_regsOnly _ _ _ _ _ (List.mem_singleton.mpr rfl) n hn)

theorem letIn_within (s : State) (k : Nat) (c : Session) (x : Cert) :
    Within [.regs, .fle, .reqs, .till] [blkCode .fle] s (letIn s k c x) :=
  completeOpt_within.step (rsetBitAt_within.step ((withSession_within ..).step (modMember_within.step (.refl _) rfl rfl) rfl rfl)
    rfl rfl) rfl rfl

theorem letIn_figures (s : State) (k : Nat) (c : Session) (x : Cert) : summaryPart (letIn s k c x) = summaryPart s := by
  funext i
  refine congrArg FleMsg.summary (Eq.trans ?_ (figuresOf_modMember_cert s x.pitch (some x) _ _))
  unfold figuresOf getMember
  rw [letIn_fle]
  rfl

theorem handshake_opens (h : tblGet? s.fle.sessions k = some c) (hen : rbit s R.FLE_CTRL_EN = true) (ho : c.isOpen = false)
    (htry : c.trying = true) (hfree : slotHeld s k = false) (hgood : handshakeError s c x = none)
    (hev : (getMember s x.pitch).evicted = false) : handshake s k (some x) =
      (letIn s k c x).withSession k { c.opened s.now x with queue := (List.range 11).map (summaryPart s) } := by
  have hhold : inHold s x.pitch = false := by
    unfold inHold
    dsimp only
    rw [hev, Bool.false_and]
  rw [handshake_closed h hen ho, hgood, if_neg (by simp [hhold]), if_neg (by simp [htry, hfree])]
  have hopen : sessionOpen s k c x = startExchange (letIn s k c x) k := by
    unfold sessionOpen letIn
    rw [hev]
    dsimp only
    rw [if_neg (by decide), modSession_some (s := modMember s x.pitch _) _ h]
    rfl
  exact hopen.trans ((startExchange_idle (letIn_get s k c x) rfl rfl).trans (by rw [letIn_figures]))

/-! ### Timers -/

theorem inHold_evicted {p : Nat} (hev : (getMember s p).evicted = true)
    (hin : s.now < (getMember s p).evictAt + rget s R.FLE_TIMERS_EVICT_HOLD_S * fcSec) : inHold s p = true := by
  unfold inHold
  dsimp only
  rw [hev, Bool.true_and]
  exact decide_eq_true hin

theorem handshake_held (h : tblGet? s.fle.sessions k = some c) (hen : rbit s R.FLE_CTRL_EN = true) (ho : c.isOpen = false)
    (hgood : handshakeError s c x = none) (hhold : inHold s x.pitch = true) :
    handshake s k (some x) = raiseEv (s.withSession k { c with trying := false, closedAt := s.now }) evFleAuthFail := by
  rw [handshake_closed h hen ho, hgood, hhold, if_pos (by rfl), tryFailed_some h]

theorem withSession_told (s : State) (k : Nat) (c : Session) (ev : Nat) :
    Within [.regs, .fle, .log, .mem, .extMem] (blks [.hlm, .jrn]) s (raiseEv (s.withSession k c) ev) :=
  raiseEv_within.step ((withSession_within s k c).mono rfl rfl) rfl rfl

theorem handshake_none (h : tblGet? s.fle.sessions k = some c) (hen : rbit s R.FLE_CTRL_EN = true) (ho : c.isOpen = false)
    (htry : c.trying = true) : handshake s k none = s.withSession k { c with trying := false, closedAt := s.now } := by
  unfold handshake
  rw [h]
  dsimp only
  rw [if_neg (by simp [ho, hen]), if_pos htry, tryFailed_some h]

theorem sessionRetry_due (h : tblGet? s.fle.sessions k = some c) (hen : rbit s R.FLE_CTRL_EN = true) (ho : c.isOpen = false)
    (hfree : slotHeld s k = false) (hdue : c.closedAt + rval s R.FLE_TIMERS_RETRY_S * fcSec ≤ s.now) :
    sessionRetry s k = s.withSession k { c with trying := true } := by
  unfold sessionRetry
  rw [modSession_some _ h, if_pos (by simp [hen, ho, hfree, hdue])]

theorem keepaliveDue_idle (h : tblGet? s.fle.sessions k = some c) (ho : c.isOpen = true) (hdue : c.txAt + 5 * fcSec ≤ s.now)
    (hroom : c.queue.length < 512) (hnew : .keepalive ∉ c.queue) :
    keepaliveDue s k = s.withSession k { c with queue := c.queue ++ [.keepalive] } := by
  unfold keepaliveDue
  rw [openSession_some h ho]
  dsimp only
  rw [if_pos ⟨hdue, by simpa using hnew⟩, sendTo_room h ho hroom]

theorem peerTimeout_due (h : tblGet? s.fle.sessions k = some c) (ho : c.isOpen = true)
    (hdue : c.rxAt + rval s R.FLE_TIMERS_PEER_TIMEOUT_S * fcSec ≤ s.now) : peerTimeout s k = absentSession s k := by
  unfold peerTimeout
  rw [openSession_some h ho]
  exact if_pos hdue

theorem certExpiry_due (h : tblGet? s.fle.sessions k = some c) (ho : c.isOpen = true) (hdue : c.expires < moduleTime s) :
    certExpiry s k = absentSession s k := by
  unfold certExpiry
  rw [openSession_some h ho]
  exact if_pos hdue

theorem byeRx_open (h : tblGet? s.fle.sessions k = some c) (ho : c.isOpen = true) (hr : c.overRate s.now = false) :
    byeRx s k = closeSession (s.withSession k (c.received s.now)) k false := onSession_open h ho hr

theorem evictHoldEnd_due {a : Nat} (h : tblGet? s.fle.held k = some a) (hdue : a ≤ s.now) :
    evictHoldEnd s k = modFle s fun f => { f with held := tblErase f.held k } := by
  unfold evictHoldEnd
  rw [h]
  exact if_pos hdue

theorem catchUp_idle (h : tblGet? s.fle.sessions k = some c) (ho : c.isOpen = true) (hb : c.behind = true) (hq : c.queue = [])
    (hw : c.owed = []) : catchUp s k =
      s.withSession k { c with behind := false, queue := (List.range 11).map (summaryPart s) } := by
  unfold catchUp
  rw [openSession_some h ho]
  dsimp only
  rw [if_pos (by simp [hb, hq, hw]), modSession_some _ h,
    startExchange_idle (c := { c with behind := false }) (withSession_get s k _) ho hq, withSession_withSession]
  rfl

theorem strikeDecay_due (h : s.fle.decayAt + rval s R.FLE_LIMITS_STRIKE_DECAY_S * fcSec ≤ s.now) : strikeDecay s =
    modFle s fun f => { f with
      decayAt := s.now, members := f.members.map fun p => (p.1, { p.2 with strikes := p.2.strikes - 1 }) } := if_pos h

theorem peerSetTimeout_due {q : Ref} (h : tblGet? s.fle.sessions k = some c) (hq : c.ref = some q) (hdue : c.setAt + 10 * fcSec ≤ s.now) :
    peerSetTimeout s k = complete (s.withSession k { c with ref := none }) q stPartnerAbsent := by
  unfold peerSetTimeout
  rw [h]
  dsimp only
  rw [if_pos ⟨hdue, by rw [hq]; rfl⟩, modSession_some _ h, hq]
  rfl

theorem onSession_overRate {f : Session → State → State} (h : tblGet? s.fle.sessions k = some c) (ho : c.isOpen = true)
    (hr : c.overRate s.now = true) : onSession s k f = rinc s R.FLE_STRIKES_RATE_DROPS := by
  unfold onSession
  rw [openSession_some h ho]
  exact if_pos hr

/-- Settles O42, each command by the lemma about what it does to its session. -/
theorem fleetSessions : Obligations.FleetSessions := by
  unfold Obligations.FleetSessions
  refine ⟨?enable, ?unready, ?disable, ?peerSet, ?malformed, ?disabled, ?clear, ?unanswered, ?opens, ?failed, ?badCert, ?badPitch,
    ?held, ?retry, ?keepalive, ?silent, ?expired, ?bye, ?kept, ?tooMany, ?holdEnds, ?catchUp, ?decay⟩
  case enable =>
    intro s t hfab hen h1 h2 h3 h4 h5 h6
    have herr : fleError (advance s t) = 0 := fleError_none h1 h2 h3 h4 h5 h6
    exact (atFabric_up s t fleEnable hfab).trans (congrArg _ ((fleEnable_off (s := advance s t) hen).trans (by rw [herr]; rfl)))
  case unready =>
    intro s t hfab hen h1
    have herr : fleError (advance s t) = 1 := if_pos h1
    exact (atFabric_up s t fleEnable hfab).trans (congrArg _ ((fleEnable_off (s := advance s t) hen).trans (by rw [herr]; rfl)))
  case disable =>
    intro s t hfab hs
    refine ⟨_, atFabric_up s t fleDisable hfab, rget_rset_self _ _ _ _ _, fun k c hc => ?_, fleClose_fle (advance s t), ?_, ?_⟩
    · refine (fleClose_get (s := advance s t) hs hc).trans (congrArg some ?_)
      split
      · rename_i ho
        unfold Session.closed
        rw [ho]
        rfl
      · rfl
    · exact ((fleClose_regsOnly (advance s t)).mono (by simp)).trans (rset_regsOnly _ _ _ _ _ (by simp))
    · exact (rset_within.step (fleClose_within (s := advance s t)) rfl rfl).eq_frame
  case peerSet =>
    intro s t r d o hfab hd hdue hset haddr hport hen ho
    refine ⟨_, (atFabric_desc hfab (fun d s => Machine.peerSet s r d) hd hdue).trans
      (congrArg _ (peerSet_opens (s := takeReq (advance s t) r) hset haddr hport hen)), ?_, ?_, ?_, ?_⟩
    · rw [withSession_fle_congr (peerCleared_fle _ _), closeSession_withSession_fle]
      rfl
    · refine (peerCleared_reqs (takeReq (advance s t) r) (d.classWord % 32)).trans ?_
      rw [waitingPeer_eq (s := takeReq (advance s t) r) ho]
    · intro n hn
      exact (congrArg (tblGet? · n) (peerCleared_regs _ _)).trans (closeSession_regsOnly (takeReq (advance s t) r) _ _ n hn)
    · exact ((withSession_within ..).step ((peerCleared_within (takeReq (advance s t) r) _)) rfl rfl).eq_frame
  case malformed =>
    intro s t r d hfab hd hdue hset hbad
    exact (atFabric_desc hfab (fun d s => Machine.peerSet s r d) hd hdue).trans
      (congrArg _ (peerSet_malformed (s := takeReq (advance s t) r) hset hbad))
  case disabled =>
    intro s t r d hfab hd hdue hset haddr hport hen
    exact (atFabric_desc hfab (fun d s => Machine.peerSet s r d) hd hdue).trans
      (congrArg _ (peerSet_unopened (s := takeReq (advance s t) r) hset haddr hport hen))
  case clear =>
    intro s t r d c hfab hd hdue hclear hen hc hs
    have hfle : (peerCleared (takeReq (advance s t) r) (d.classWord % 32)).fle =
        (s.withSession (d.classWord % 32) (c.closed (max s.now t) true)).fle :=
      (peerCleared_fle _ _).trans ((closeSession_fle (s := takeReq (advance s t) r) true hc).trans rfl)
    refine ⟨_, (atFabric_desc hfab (fun d s => Machine.peerSet s r d) hd hdue).trans
      (congrArg _ (peerSet_clears (s := takeReq (advance s t) r) hclear hen)), ?_, fun j hj => ?_, ?_, ?_, ?_, ?_, ?_⟩
    · rw [complete_fle, erasedSession_fle hfle]
      exact (tblErase_set _ _ _ _ hs).trans (if_pos rfl)
    · rw [complete_fle, erasedSession_fle hfle]
      exact (tblErase_set _ _ _ _ hs).trans (if_neg hj)
    · rw [complete_fle, erasedSession_fle hfle]
    · rw [complete_within.rget _ _ _ (by simp)]
      show bitOf (rget (peerCleared _ _) _) _ = _
      rw [show rget (peerCleared _ _) R.FLE_SESSIONS_UP = rget (closeSession _ _ true) R.FLE_SESSIONS_UP from completeOpt_within.rget _ _ _ (by simp)]
      exact closeSession_bit _ true (Nat.mod_lt _ (by decide))
    · refine complete_reqs_congr ?_ _ _ _ _
      refine (peerCleared_reqs (takeReq (advance s t) r) (d.classWord % 32)).trans ?_
      rw [waitingPeer_eq (s := takeReq (advance s t) r) hc]
      rfl
    · intro n hn
      rw [complete_regs]
      exact (congrArg (tblGet? · n) (peerCleared_regs _ _)).trans (closeSession_regsOnly (takeReq (advance s t) r) _ _ n hn)
    · exact (complete_within.step (modFle_within.step (peerCleared_within (takeReq (advance s t) r) _) rfl rfl) rfl rfl).eq_frame
  case unanswered =>
    intro s t k c q hfab hc hq hdue
    exact (atFabric_up s t (fun s => peerSetTimeout s k) hfab).trans (congrArg _ (peerSetTimeout_due (s := advance s t) hc hq hdue))
  case opens =>
    intro s t k c x hfab hc hen ho htry hfree hcert hp hev
    have hv := handshake_opens (s := advance s t) hc hen ho htry hfree (handshakeError_none hcert hp) hev
    refine ⟨_, (atFabric_up s t (fun s => handshake s k (some x)) hfab).trans (congrArg _ hv), ⟨_, withSession_get _ _ _, rfl, rfl, rfl, rfl, rfl, rfl⟩,
      ?_, fun j hj => ?_, ?_, ?_, ?_, ?_⟩
    · show tblGetD (letIn (advance s t) k c x).fle.members _ _ = _
      rw [letIn_fle]
      exact (getMember_modMember (advance s t) x.pitch (fun m => { m with cert := some x }) x.pitch).trans (if_pos rfl)
    · rw [withSession_fle_congr (letIn_fle _ _ _ _), withSession_withSession]
      exact tblGet?_set_ne _ _ hj
    · exact letIn_bit (advance s t) c x k.isLt
    · exact (letIn_reqs (advance s t) k c x).trans (completeOpt_reqs_congr (s := s) (u := advance s t) rfl _ _ _)
    · exact letIn_regsOnly (advance s t) k c x
    · exact ((withSession_within ..).step (letIn_within (advance s t) k c x) rfl rfl).eq_frame
  case failed =>
    intro s t k c hfab hc hen ho htry
    exact (atFabric_up s t (fun s => handshake s k none) hfab).trans (congrArg _ (handshake_none (s := advance s t) hc hen ho htry))
  case badCert =>
    intro s t k c x n hfab hc hen ho htry hfree hcert
    obtain ⟨v, hv, h1, h2, hw⟩ := handshake_refused (s := advance s t) hc hen ho htry hfree (handshakeError_cert hcert)
    exact ⟨v, (atFabric_up s t (fun s => handshake s k (some x)) hfab).trans (congrArg _ hv), h1,
      h2.trans (completeOpt_reqs_congr (s := s) (u := advance s t) rfl _ _ _), hw.blocksOnly, hw.eq_frame⟩
  case badPitch =>
    intro s t k c x hfab hc hen ho htry hfree hcert hp
    obtain ⟨v, hv, h1, h2, hw⟩ := handshake_refused (s := advance s t) hc hen ho htry hfree (handshakeError_pitch hcert hp)
    exact ⟨v, (atFabric_up s t (fun s => handshake s k (some x)) hfab).trans (congrArg _ hv), h1,
      h2.trans (completeOpt_reqs_congr (s := s) (u := advance s t) rfl _ _ _), hw.blocksOnly, hw.eq_frame⟩
  case held =>
    intro s t k c x hfab hc hen ho hcert hp hev hin
    have hv := handshake_held (s := advance s t) hc hen ho (handshakeError_none hcert hp) (inHold_evicted hev hin)
    have hw := withSession_told (advance s t) k { c with trying := false, closedAt := max s.now t } evFleAuthFail
    exact ⟨_, (atFabric_up s t (fun s => handshake s k (some x)) hfab).trans (congrArg _ hv),
      raiseEv_within.fle.resolve_left (by simp), hw.blocksOnly, hw.eq_frame⟩
  case retry =>
    intro s t k c hfab hc hen ho hfree hdue
    exact (atFabric_up s t (fun s => sessionRetry s k) hfab).trans (congrArg _ (sessionRetry_due (s := advance s t) hc hen ho hfree hdue))
  case keepalive =>
    intro s t k c hfab hc ho hdue hroom hnew
    exact (atFabric_up s t (fun s => keepaliveDue s k) hfab).trans
      (congrArg _ (keepaliveDue_idle (s := advance s t) hc ho hdue hroom hnew))
  case silent =>
    intro s t k c hfab hc ho hdue
    have hw : Within [.regs, .mem, .extMem, .log, .fle] (blks [.fle, .hlm, .jrn]) (advance s t) _ :=
      absentSession_within.mono (s := absentSession (advance s t) k) rfl rfl
    exact ⟨_, (atFabric_up s t (fun s => peerTimeout s k) hfab).trans (congrArg _ (peerTimeout_due (s := advance s t) hc ho hdue)),
      absentSession_fle (s := advance s t) hc, absentSession_bit (s := advance s t) k.isLt, hw.blocksOnly, hw.eq_frame⟩
  case expired =>
    intro s t k c hfab hc ho hdue
    have hw : Within [.regs, .mem, .extMem, .log, .fle] (blks [.fle, .hlm, .jrn]) (advance s t) _ :=
      absentSession_within.mono (s := absentSession (advance s t) k) rfl rfl
    exact ⟨_, (atFabric_up s t (fun s => certExpiry s k) hfab).trans (congrArg _ (certExpiry_due (s := advance s t) hc ho hdue)),
      absentSession_fle (s := advance s t) hc, absentSession_bit (s := advance s t) k.isLt, hw.blocksOnly, hw.eq_frame⟩
  case bye =>
    intro s t k c hfab hc ho hr
    have hv := byeRx_open (s := advance s t) hc ho hr
    refine ⟨_, (atFabric_up s t (fun s => byeRx s k) hfab).trans (congrArg _ hv), ?_, closeSession_bit _ false k.isLt, ?_, ?_⟩
    · rw [closeSession_fle false (withSession_get _ _ _), withSession_withSession]
      rfl
    · exact closeSession_regsOnly ((advance s t).withSession k (c.received (max s.now t))) k false
    · exact (closeSession_within.step (bs := blks [.fle]) ((withSession_within (advance s t) k (c.received (max s.now t))).mono
        (ps := [.regs, .fle]) rfl rfl) rfl rfl).eq_frame
  case kept =>
    intro s t k c hfab hc ho hr
    exact (atFabric_up s t (fun s => onSession s k fun _ s => s) hfab).trans (congrArg _ (onSession_open (s := advance s t) hc ho hr))
  case tooMany =>
    intro s t k c hfab hc ho hsec hcount
    exact (atFabric_up s t (fun s => onSession s k fun _ s => s) hfab).trans
      (congrArg _ (onSession_overRate (s := advance s t) hc ho (decide_eq_true ⟨hcount, hsec⟩)))
  case holdEnds =>
    intro s t k a hfab ha hdue
    exact (atFabric_up s t (fun s => evictHoldEnd s k) hfab).trans (congrArg _ (evictHoldEnd_due (s := advance s t) ha hdue))
  case catchUp =>
    intro s t k c hfab hc ho hb hq hw
    exact (atFabric_up s t (fun s => Machine.catchUp s k) hfab).trans (congrArg _ (catchUp_idle (s := advance s t) hc ho hb hq hw))
  case decay =>
    intro s t hfab hdue
    exact (atFabric_up s t strikeDecay hfab).trans (congrArg _ (strikeDecay_due (s := advance s t) hdue))

end Sys2Proof.Machine
end

section
/-! O58: the messages of the fleet market and its descriptors (R373–R387), for the commands that O42 does not cover. -/

namespace Sys2Proof.Machine

variable {s u v : State} {t : Fc} {k : Nat} {c : Session} {x : Cert} {d : Delta}

/-! ### Stamps and the order of deltas -/

theorem stampLt_iff (a b : Stamp) : stampLt a b = true ↔ a.t < b.t ∨ a.t = b.t ∧ (a.c < b.c ∨ a.c = b.c ∧ a.a < b.a) := by
  simp [stampLt]

theorem stampLt_trans {a b c : Stamp} (h : stampLt a b = true) (k : stampLt b c = true) : stampLt a c = true := by
  rw [stampLt_iff] at *
  omega

/-- No later delta stands before an earlier one. -/
def InOrder (l : List Delta) : Prop := l.Pairwise fun a b => stampLt ⟨b.t, b.c, b.author⟩ ⟨a.t, a.c, a.author⟩ = false

theorem mem_insertDelta (d : Delta) (l : List Delta) (x : Delta) : x ∈ insertDelta d l ↔ x = d ∨ x ∈ l := by
  induction l with
  | nil => simp [insertDelta]
  | cons e l ih =>
    unfold insertDelta
    split
    · exact List.mem_cons
    · rw [List.mem_cons, ih, List.mem_cons]
      tauto

theorem insertDelta_inOrder (d : Delta) {l : List Delta} (h : InOrder l) : InOrder (insertDelta d l) := by
  induction l with
  | nil => exact List.pairwise_singleton _ _
  | cons e l ih =>
    obtain ⟨hfirst, hrest⟩ := List.pairwise_cons.mp h
    unfold insertDelta
    split
    · rename_i hde
      refine List.pairwise_cons.mpr ⟨fun x hx => ?_, h⟩
      rw [← Bool.not_eq_true]
      intro hxd
      have hxe := stampLt_trans hxd hde
      obtain rfl | hmem := List.mem_cons.mp hx
      · rw [stampLt_iff] at hxe
        omega
      · rw [hfirst x hmem] at hxe
        cases hxe
    · rename_i hde
      refine List.pairwise_cons.mpr ⟨fun x hx => ?_, ih hrest⟩
      obtain rfl | hmem := (mem_insertDelta _ _ _).mp hx
      · exact Bool.not_eq_true _ ▸ hde
      · exact hfirst x hmem

theorem mem_foldr_insertDelta (l o : List Delta) (x : Delta) : x ∈ l.foldr insertDelta o ↔ x ∈ o ∨ x ∈ l := by
  induction l with
  | nil => simp
  | cons d l ih =>
    rw [List.foldr_cons, mem_insertDelta, ih, List.mem_cons]
    tauto

theorem foldr_insertDelta_inOrder (l : List Delta) {o : List Delta} (h : InOrder o) : InOrder (l.foldr insertDelta o) := by
  induction l with
  | nil => exact h
  | cons d l ih => exact insertDelta_inOrder d ih

/-! ### A session that has received a message -/

theorem received_cases (c : Session) (now : Nat) : ∃ a b, c.received now = { c with rxAt := now, rateFrom := a, rateCount := b } := by
  unfold Session.received
  split
  · exact ⟨_, _, rfl⟩
  · exact ⟨_, _, rfl⟩

theorem received_isOpen (c : Session) (now : Nat) : (c.received now).isOpen = c.isOpen := by
  obtain ⟨a, b, h⟩ := received_cases c now
  rw [h]

theorem received_queue (c : Session) (now : Nat) : (c.received now).queue = c.queue := by
  obtain ⟨a, b, h⟩ := received_cases c now
  rw [h]

theorem received_owed (c : Session) (now : Nat) : (c.received now).owed = c.owed := by
  obtain ⟨a, b, h⟩ := received_cases c now
  rw [h]

/-! ### What a message that is sent leaves of the fleet's state -/

/-- Nothing of the fleet's state but its sessions and the times of their BEHIND events changes. -/
def Sends (s u : State) : Prop := u.fle = { s.fle with sessions := u.fle.sessions, behindTold := u.fle.behindTold }

theorem Sends.refl (s : State) : Sends s s := rfl

theorem Sends.trans (h : Sends s u) (k : Sends u v) : Sends s v := by
  unfold Sends at *
  rw [k, h]

theorem Sends.of_fle (h : u.fle = s.fle) : Sends s u := by
  unfold Sends
  rw [h]

theorem Sends.members (h : Sends s u) (p : Nat) : getMember u p = getMember s p := by
  unfold Sends at h
  unfold getMember
  rw [h]

theorem modSession_sends (s : State) (k : Nat) (f : Session → Session) : Sends s (modSession s k f) := by
  unfold modSession
  split
  · rfl
  · exact .refl s

theorem sendTo_sends (s : State) (k : Nat) (m : FleMsg) : Sends s (sendTo s k m) := by
  unfold sendTo
  split
  · exact .refl s
  · split
    · exact modSession_sends _ _ _
    · extract_lets told s1 s2
      have hbehind : Sends s s2 := (Sends.of_fle (u := s1) rfl).trans (modSession_sends s1 k _)
      split
      · exact hbehind
      · refine hbehind.trans (Sends.trans ?_ (.of_fle (raiseEv_within.fle.resolve_left (by simp))))
        rfl

theorem sendAll_sends (s : State) (m : FleMsg) (but : Option Nat) : Sends s (sendAll s m but) :=
  foldl_invariant (P := fun v => Sends s v) (.refl s) fun v k _ hv => by
    split
    · exact hv
    · exact hv.trans (sendTo_sends v k m)

/-! ### SUMMARY, CERT_REQ and ANNOUNCE -/

/-- The deltas that a peer with these figures lacks. -/
def lackedDeltas (s : State) (figs : List Stamp) : List Delta :=
  s.fle.store.filter fun d => figs.any fun f => f.a == d.author && stampLt f ⟨d.t, d.c, d.author⟩

theorem mem_lackedDeltas (s : State) (figs : List Stamp) (d : Delta) : d ∈ lackedDeltas s figs ↔
    d ∈ s.fle.store ∧ ∃ f ∈ figs, f.a = d.author ∧ stampLt f ⟨d.t, d.c, d.author⟩ = true := by
  simp [lackedDeltas]

theorem summaryRx_foreign {figs : List Stamp} (h : tblGet? s.fle.sessions k = some c) (ho : c.isOpen = true)
    (hr : c.overRate s.now = false) (hown : figs.find? (fun f => f.a == ownPitch s) = none) : summaryRx s k figs =
      s.withSession k { c.received s.now with owed := (lackedDeltas s figs).foldr insertDelta c.owed } := by
  refine (onSession_open h ho hr).trans ?_
  dsimp only
  rw [show figs.find? (fun f => f.a == ownPitch (s.withSession k (c.received s.now))) = none from hown]
  dsimp only
  rw [modSession_withSession, received_owed]
  rfl

theorem certReqRx_known {raw : List Nat} {p : Nat} (h : tblGet? s.fle.sessions k = some c) (ho : c.isOpen = true)
    (hr : c.overRate s.now = false) (hroom : c.queue.length < 512) (hp : parseCertReq raw = some p) (hx : certOf s p = some x) :
    certReqRx s k raw = s.withSession k { c.received s.now with queue := c.queue ++ [.announce x] } := by
  refine (onSession_open h ho hr).trans ?_
  dsimp only
  rw [hp, show (some p).bind (certOf (s.withSession k (c.received s.now))) = some x from hx]
  dsimp only
  rw [sendTo_room (withSession_get _ _ _) ((received_isOpen c s.now).trans ho) (by rw [received_queue]; exact hroom),
    withSession_withSession, received_queue]

theorem announceRx_known (h : tblGet? s.fle.sessions k = some c) (ho : c.isOpen = true) (hr : c.overRate s.now = false)
    (hcert : certError s x = none) (hev : (getMember s x.pitch).evicted = false) :
    getMember (announceRx s k x) x.pitch = { getMember s x.pitch with cert := some x } := by
  have hv : announceRx s k x =
      let s1 := modMember (s.withSession k (c.received s.now)) x.pitch fun m => { m with cert := some x }
      if (getMember s x.pitch).cert.isNone then sendAll s1 (.announce x) (some k) else s1 := by
    refine (onSession_open h ho hr).trans ?_
    dsimp only
    rw [show certError (s.withSession k (c.received s.now)) x = none from hcert, if_neg (by decide)]
    rw [show (getMember (s.withSession k (c.received s.now)) x.pitch).evicted = false from hev, if_neg (by decide)]
    rfl
  have hm : getMember (modMember (s.withSession k (c.received s.now)) x.pitch fun m => { m with cert := some x }) x.pitch =
      { getMember s x.pitch with cert := some x } := (getMember_modMember _ _ _ _).trans (if_pos rfl)
  rw [hv]
  dsimp only
  split
  · exact ((sendAll_sends _ _ _).members _).trans hm
  · exact hm

/-! ### Deltas -/

/-- The state after a token of an author has been taken. -/
def tokenTaken (s : State) (p : Nat) : State :=
  modMember s p fun m => { m with level := levelNow s m - fcSec, levelAt := s.now }

theorem takeToken_some {p : Nat} (h : fcSec ≤ levelNow s (getMember s p)) : takeToken s p = some (tokenTaken s p) := by
  unfold takeToken tokenTaken
  dsimp only
  rw [if_pos h]

theorem authorCheck_passes {peer author market time : Nat} (hm : market = ownMarket s) (hev : (getMember s author).evicted = false)
    (hknown : (getMember s author).cert.isSome = true ∨ author = ownPitch s) (htok : fcSec ≤ levelNow s (getMember s author))
    (htime : time ≤ moduleTime s + rval s R.FLE_LIMITS_SKEW_MS * 1000000) :
    authorCheck s peer k author market time true = (tokenTaken s author, true) := by
  have hcert : ((getMember s author).cert.isNone && author != ownPitch s) = false := by
    obtain h | h := hknown
    · simp [Option.isSome_iff_ne_none.mp h]
    · simp [h]
  unfold authorCheck
  dsimp only
  rw [if_neg (not_not.mpr hm), hev, hcert, takeToken_some htok, if_neg (by decide), if_neg (by decide), if_neg (by decide)]
  dsimp only
  rw [if_neg (Nat.not_lt.mpr htime)]

/-- What writing a cell of a cached tile makes of its slot. -/
def cellWritten (now i v : Nat) (ver : Ver) (c : CacheSlot) : CacheSlot :=
  { c with
    tile := tileSetCell c.tile i v ver, dirty := some (c.dirty.getD now),
    pubAt := if ver.pub then tblSet c.pubAt i (tblGetD c.pubAt i now) else tblErase c.pubAt i,
    pubLast := if ver.pub then now else c.pubLast }

theorem SlotHolds.writeCell {id j : Nat} {n : CacheSlot} (h : SlotHolds s id j n) (i v : Nat) (ver : Ver) :
    SlotHolds (writeCell s id i v ver) id j (cellWritten s.now i v ver n) := by
  have hwrite : Machine.writeCell s id i v ver = Machine.modSlot s j (cellWritten s.now i v ver) := by
    unfold Machine.writeCell
    rw [h.find]
    rfl
  rw [hwrite]
  exact h.modSlot rfl (tileSetCell_cells _ _ _ h.cells)

theorem tileVer_set (T : Tile) (i v : Nat) (ver : Ver) (j : Nat) :
    tileVer (tileSetCell T i v ver) j = if j = i then ver else tileVer T j := tblGetD_set _ _ _ _ _

/-- An entry of a delta after the merge: where the cell's version is earlier it has replaced cell and version. -/
def Merged (old new : Tile) (st : Stamp) (e : Nat × Nat) : Prop :=
  if stampLt (tileVer old e.1).stamp st then tileCell new e.1 = e.2 ∧ tileVer new e.1 = ⟨st, false⟩
  else tileCell new e.1 = tileCell old e.1 ∧ tileVer new e.1 = tileVer old e.1

/-- One entry of a merge. -/
def mergeStep (d : Delta) (a : State × Nat) (e : Nat × Nat) : State × Nat :=
  match cacheFind a.1 d.tile with
  | some (_, c) =>
    if stampLt (tileVer c.tile e.1).stamp ⟨d.t, d.c, d.author⟩ then
      (writeCell a.1 d.tile e.1 e.2 ⟨⟨d.t, d.c, d.author⟩, false⟩, a.2 + 1)
    else a
  | none => a

theorem mergeCells_eq (s : State) (d : Delta) : mergeCells s d = d.cells.foldl (mergeStep d) (s, 0) := rfl

theorem mergeStep_slot {a : State × Nat} {j : Nat} {n : CacheSlot} (e : Nat × Nat) (h : SlotHolds a.1 d.tile j n) :
    ∃ m, SlotHolds (mergeStep d a e).1 d.tile j m ∧ Merged n.tile m.tile ⟨d.t, d.c, d.author⟩ e ∧
      ∀ i, i ≠ e.1 → tileCell m.tile i = tileCell n.tile i ∧ tileVer m.tile i = tileVer n.tile i := by
  unfold mergeStep
  rw [h.find]
  dsimp only
  split
  · rename_i hlt
    refine ⟨_, h.writeCell e.1 e.2 _, ?_, fun i hi => ⟨(tileCell_set _ _ _ h.cells i).trans (if_neg hi), (tileVer_set _ _ _ _ i).trans (if_neg hi)⟩⟩
    unfold Merged
    rw [if_pos hlt]
    exact ⟨(tileCell_set _ _ _ h.cells _).trans (if_pos rfl), (tileVer_set _ _ _ _ _).trans (if_pos rfl)⟩
  · rename_i hlt
    refine ⟨n, h, ?_, fun i _ => ⟨rfl, rfl⟩⟩
    unfold Merged
    rw [if_neg hlt]
    exact ⟨rfl, rfl⟩

theorem Merged.congr {old old' new new' : Tile} {st : Stamp} {e : Nat × Nat} (h : Merged old new st e)
    (hold : tileCell old e.1 = tileCell old' e.1 ∧ tileVer old e.1 = tileVer old' e.1)
    (hnew : tileCell new' e.1 = tileCell new e.1 ∧ tileVer new' e.1 = tileVer new e.1) : Merged old' new' st e := by
  unfold Merged at *
  rw [← hold.1, ← hold.2, hnew.1, hnew.2]
  exact h

/-- Merging entries of different cells leaves each as the tile found it before the merge. -/
theorem foldl_mergeStep {j : Nat} {n : CacheSlot} (l : List (Nat × Nat)) (hl : (l.map (·.1)).Nodup) {a : State × Nat}
    (h : SlotHolds a.1 d.tile j n) : ∃ m, SlotHolds (l.foldl (mergeStep d) a).1 d.tile j m ∧
      (∀ e ∈ l, Merged n.tile m.tile ⟨d.t, d.c, d.author⟩ e) ∧
      ∀ i, (∀ e ∈ l, e.1 ≠ i) → tileCell m.tile i = tileCell n.tile i ∧ tileVer m.tile i = tileVer n.tile i := by
  induction l generalizing a n with
  | nil => exact ⟨n, h, by simp, fun i _ => ⟨rfl, rfl⟩⟩
  | cons e l ih =>
    rw [List.map_cons, List.nodup_cons] at hl
    obtain ⟨hnew, hl⟩ := hl
    have hother : ∀ e' ∈ l, e'.1 ≠ e.1 := fun e' he' heq => hnew (List.mem_map.mpr ⟨e', he', heq⟩)
    obtain ⟨m1, hm1, hmerged, hrest⟩ := mergeStep_slot e h
    obtain ⟨m, hm, hall, hkept⟩ := ih hl hm1
    refine ⟨m, hm, fun e' he' => ?_, fun i hi => ?_⟩
    · obtain rfl | he' := List.mem_cons.mp he'
      · exact hmerged.congr ⟨rfl, rfl⟩ (hkept _ hother)
      · exact (hall e' he').congr (hrest _ (hother e' he')) ⟨rfl, rfl⟩
    · obtain ⟨h1, h2⟩ := hkept i fun e' he' => hi e' (List.mem_cons_of_mem _ he')
      obtain ⟨h3, h4⟩ := hrest i fun heq => hi e List.mem_cons_self heq.symm
      exact ⟨h1.trans h3, h2.trans h4⟩

theorem indicesOk_nodup {l : List (Nat × Nat)} (h : indicesOk l = true) : (l.map (·.1)).Nodup := by
  suffices hp : (l.map (·.1)).Pairwise (· < ·) from hp.imp Nat.ne_of_lt
  induction l with
  | nil => exact .nil
  | cons a l ih =>
    cases l with
    | nil => exact List.pairwise_singleton _ _
    | cons b l =>
      simp only [indicesOk, Bool.and_eq_true, decide_eq_true_eq] at h
      obtain ⟨hab, hrest⟩ := h
      have htail := ih hrest
      refine List.pairwise_cons.mpr ⟨fun n hn => ?_, htail⟩
      obtain rfl | hn := List.mem_cons.mp hn
      · exact hab
      · exact hab.trans ((List.pairwise_cons.mp htail).1 n hn)

theorem parseDelta_nodup {raw : List Nat} (h : parseDelta raw = some d) : (d.cells.map (·.1)).Nodup := by
  unfold parseDelta at h
  dsimp only at h
  split at h
  · cases h
  · split at h
    · rename_i hok
      cases h
      exact indicesOk_nodup hok
    · cases h

theorem applyDelta_slot {j : Nat} {n : CacheSlot} (hd : (d.cells.map (·.1)).Nodup) (h : SlotHolds s d.tile j n) (hl : n.loading = false) :
    ∃ m, tblGet? (applyDelta s k d).sto.cache j = some m ∧ (∀ e ∈ d.cells, Merged n.tile m.tile ⟨d.t, d.c, d.author⟩ e) ∧
      ∀ i, (∀ e ∈ d.cells, e.1 ≠ i) → tileCell m.tile i = tileCell n.tile i ∧ tileVer m.tile i = tileVer n.tile i := by
  obtain ⟨m, hm, h1, h2⟩ := foldl_mergeStep d.cells hd (a := (touchSlot s j, 0)) h.touch
  rw [← mergeCells_eq] at hm
  refine ⟨m, ?_, h1, h2⟩
  unfold applyDelta
  rw [needTile_cached [d.tile] h.find hl]
  dsimp only
  split
  · exact hm.get
  · have hsto : (pubNowDone (sendAll (storeDelta (rinc (mergeCells (touchSlot s j) d).1 R.FLE_COUNTS_APPLIED) d) (.delta d) (some k))).sto =
        (mergeCells (touchSlot s j) d).1.sto :=
      (pubNowDone_within.step (bs := blks [.fle, .hlm, .jrn]) (ps := [.regs, .mem, .extMem, .log, .reqs, .till, .fle])
        (sendAll_within.step (storeDelta_within.step (rinc_within.step (.refl _) rfl (by decide)) rfl rfl) rfl rfl) rfl rfl).sto.resolve_left (by simp)
    rw [hsto]
    exact hm.get

/-- A DELTA that passes every check reaches its tile. -/
theorem deltaRx_passes {raw : List Nat} (h : tblGet? s.fle.sessions k = some c) (ho : c.isOpen = true) (hr : c.overRate s.now = false)
    (hp : parseDelta raw = some d) (hm : d.market = ownMarket s) (hev : (getMember s d.author).evicted = false)
    (hknown : (getMember s d.author).cert.isSome = true ∨ d.author = ownPitch s) (htok : fcSec ≤ levelNow s (getMember s d.author))
    (htime : d.t ≤ moduleTime s + rval s R.FLE_LIMITS_SKEW_MS * 1000000) (horigin : d.origin = rget s R.STO_ORIGIN_ID_VALUE)
    (hcell : d.cellCm = gridCell s) (hkind : kindShared s (tileKind d.tile) = true) : deltaRx s k raw true =
      applyDelta (clockReceive (tokenTaken (s.withSession k (c.received s.now)) d.author) d.t d.c) k d := by
  refine (onSession_open h ho hr).trans ?_
  dsimp only
  rw [hp]
  dsimp only
  rw [authorCheck_passes (s := s.withSession k (c.received s.now)) hm hev hknown htok htime]
  dsimp only
  have hunshared : ¬(d.origin ≠ rget (s.withSession k (c.received s.now)) R.STO_ORIGIN_ID_VALUE ∨
      d.cellCm ≠ gridCell (s.withSession k (c.received s.now)) ∨
      (!kindShared (s.withSession k (c.received s.now)) (tileKind d.tile)) = true) := by
    rintro (hne | hne | hne)
    · exact hne horigin
    · exact hne hcell
    · rw [show kindShared (s.withSession k (c.received s.now)) (tileKind d.tile) = true from hkind] at hne
      cases hne
  rw [if_neg (by decide), if_neg hunshared]

/-! ### STATUS -/

theorem statusTake_member (s : State) (k : Nat) (m : StatusMsg) : getMember (statusTake s k m) m.author =
    { getMember s m.author with
      lastStatus := some m.time, timeState := m.timeState, offset := (moduleTime s : Int) - m.time } := by
  unfold statusTake
  dsimp only
  refine ((sendAll_sends _ _ _).members _).trans ?_
  have hm := (getMember_modMember s m.author (fun x => { x with
    lastStatus := some m.time, timeState := m.timeState, offset := (moduleTime s : Int) - m.time }) m.author).trans (if_pos rfl)
  split
  · exact ((Sends.of_fle (queuePut_within.fle.resolve_left (by simp))).members _).trans hm
  · exact hm

theorem statusRx_passes {raw : List Nat} {m : StatusMsg} (h : tblGet? s.fle.sessions k = some c) (ho : c.isOpen = true)
    (hr : c.overRate s.now = false) (hp : parseStatus raw = some m) (hm : m.market = ownMarket s)
    (hev : (getMember s m.author).evicted = false)
    (hknown : (getMember s m.author).cert.isSome = true ∨ m.author = ownPitch s) (htok : fcSec ≤ levelNow s (getMember s m.author))
    (htime : m.time ≤ moduleTime s + rval s R.FLE_LIMITS_SKEW_MS * 1000000)
    (hnew : ∀ a, (getMember s m.author).lastStatus = some a → a < m.time) :
    statusRx s k raw true = statusTake (tokenTaken (s.withSession k (c.received s.now)) m.author) k m := by
  refine (onSession_open h ho hr).trans ?_
  dsimp only
  rw [hp]
  dsimp only
  rw [authorCheck_passes (s := s.withSession k (c.received s.now)) hm hev hknown htok htime]
  have hlast : (getMember (tokenTaken (s.withSession k (c.received s.now)) m.author) m.author).lastStatus =
      (getMember s m.author).lastStatus := by
    unfold tokenTaken
    rw [getMember_modMember, if_pos rfl]
    rfl
  dsimp only
  rw [hlast]
  cases hl : (getMember s m.author).lastStatus with
  | none => rfl
  | some a =>
    exact if_neg (by simpa using hnew a hl)

/-! ### Publication -/

theorem clockSet_later {tm cm : Nat} (h : s.fle.t < tm ∨ s.fle.t = tm ∧ s.fle.c < cm) :
    stampLt (ownStamp s) (ownStamp (clockSet s tm cm)) = true := by
  rw [stampLt_iff]
  unfold clockSet modFle ownStamp
  dsimp only
  by_cases hc : 0xFFFF < cm
  · rw [if_pos hc]
    dsimp only
    omega
  · rw [if_neg hc]
    dsimp only
    omega

theorem clockSet_store (s : State) (tm cm : Nat) : (clockSet s tm cm).fle.store = s.fle.store := by
  unfold clockSet modFle
  dsimp only
  split <;> rfl

/-- Every event takes a later stamp than the one before. -/
theorem clockLocal_later (s : State) : stampLt (ownStamp s) (ownStamp (clockLocal s)) = true := by
  refine clockSet_later ?_
  split
  · rename_i ht
    exact .inr ⟨ht.symm, Nat.lt_succ_self _⟩
  · rename_i ht
    exact .inl (lt_of_le_of_ne (Nat.le_max_left _ _) fun he => ht he.symm)

/-- The writes of cells that a delta publishes: they carry its stamp, and wait for no publication. -/
theorem SlotHolds.publishCells {id j : Nat} {img : Tile} {st : Stamp} (l : List Nat) {s : State} {n : CacheSlot}
    (h : SlotHolds s id j n) (hv : tblSorted n.tile.vers = true) (hp : tblSorted n.pubAt = true) :
    ∃ m, SlotHolds (l.foldl (fun s i => Machine.writeCell s id i (tileCell img i) ⟨st, false⟩) s) id j m ∧
      tblSorted m.tile.vers = true ∧ (∀ i, tileVer m.tile i = if i ∈ l then ⟨st, false⟩ else tileVer n.tile i) ∧
      ∀ i, tblGet? m.pubAt i = if i ∈ l then none else tblGet? n.pubAt i := by
  induction l generalizing s n with
  | nil => exact ⟨n, h, hv, fun i => (if_neg (by simp)).symm, fun i => (if_neg (by simp)).symm⟩
  | cons i l ih =>
    obtain ⟨m, hm, hvers, hver, hat⟩ := ih (h.writeCell i (tileCell img i) ⟨st, false⟩) (tblSorted_set _ _ _ hv)
      (tblSorted_erase _ _ hp)
    refine ⟨m, hm, hvers, fun a => ?_, fun a => ?_⟩
    · rw [hver, show tileVer (cellWritten s.now i (tileCell img i) ⟨st, false⟩ n).tile a = _ from tileVer_set _ _ _ _ _]
      by_cases hal : a ∈ l
      · rw [if_pos hal, if_pos (List.mem_cons_of_mem _ hal)]
      · by_cases hai : a = i
        · rw [if_neg hal, if_pos hai, if_pos (hai ▸ List.mem_cons_self)]
        · rw [if_neg hal, if_neg hai, if_neg (by simp [hal, hai])]
    · rw [hat]
      by_cases hal : a ∈ l
      · rw [if_pos hal, if_pos (List.mem_cons_of_mem _ hal)]
      · by_cases hai : a = i
        · rw [if_neg hal, if_pos (hai ▸ List.mem_cons_self), hai]
          exact tblGet?_erase_self i hp
        · rw [if_neg hal, if_neg (by simp [hal, hai])]
          exact tblGet?_erase_ne _ hai

theorem mem_pubCells {T : Tile} (h : tblSorted T.vers = true) (i : Nat) : i ∈ pubCells T ↔ (tileVer T i).pub = true := by
  unfold pubCells
  constructor
  · intro hi
    obtain ⟨⟨j, v⟩, hmem, rfl⟩ := List.mem_map.mp hi
    obtain ⟨hin, hpub⟩ := List.mem_filter.mp hmem
    unfold tileVer tblGetD
    rw [tblGet?_of_mem h hin]
    exact hpub
  · intro hpub
    unfold tileVer tblGetD at hpub
    cases hget : tblGet? T.vers i with
    | none => rw [hget] at hpub; cases hpub
    | some v =>
      rw [hget] at hpub
      exact List.mem_map.mpr ⟨(i, v), List.mem_filter.mpr ⟨mem_of_tblGet? hget, hpub⟩, rfl⟩

/-- The delta that publishes cells of a tile. -/
def publishedDelta (s : State) (T : Tile) (idx : List Nat) : Delta :=
  let st := ownStamp (clockLocal s)
  let bare : Delta := ⟨st.a, ownMarket s, T.id, st.t, st.c, rget s R.STO_ORIGIN_ID_VALUE, gridCell s,
    idx.map fun i => (i, tileCell T i), []⟩
  { bare with sig := ownSignature (deltaBody bare) }

/-- The cells of the tile after a publication. -/
def cellsPublished (s : State) (T : Tile) (idx : List Nat) : State :=
  idx.foldl (fun v i => writeCell v T.id i (tileCell T i) ⟨ownStamp (clockLocal s), false⟩) (clockLocal s)

theorem publishOne_eq (s : State) (T : Tile) (idx : List Nat) : publishOne s T idx =
    sendAll (storeDelta (rinc (cellsPublished s T idx) R.FLE_COUNTS_PUBLISHED) (publishedDelta s T idx))
      (.delta (publishedDelta s T idx)) none := rfl

theorem cellsPublished_fle (s : State) (T : Tile) (idx : List Nat) : (cellsPublished s T idx).fle = (clockLocal s).fle :=
  (foldl_within (ps := [.sto]) (bs := []) (fun _ _ hu => writeCell_within.step hu rfl rfl) (.refl _)).fle.resolve_left (by simp)

theorem storeDelta_store (s : State) (d : Delta) :
    (storeDelta s d).fle.store = (s.fle.store ++ [d]).drop (s.fle.store.length + 1 - 65536) := by
  unfold storeDelta modMember modFle
  dsimp only

theorem publishOne_store (s : State) (T : Tile) (idx : List Nat) : (publishOne s T idx).fle.store =
    (s.fle.store ++ [publishedDelta s T idx]).drop (s.fle.store.length + 1 - 65536) := by
  rw [publishOne_eq]
  refine (congrArg Fle.store (sendAll_sends _ _ _)).trans ?_
  have hfle : (rinc (cellsPublished s T idx) R.FLE_COUNTS_PUBLISHED).fle = (cellsPublished s T idx).fle :=
    rinc_within.fle.resolve_left (by simp)
  rw [storeDelta_store, hfle, cellsPublished_fle, show (clockLocal s).fle.store = s.fle.store from clockSet_store ..]

theorem publishOne_sto (s : State) (T : Tile) (idx : List Nat) : (publishOne s T idx).sto = (cellsPublished s T idx).sto := by
  rw [publishOne_eq]
  exact (sendAll_within.step (ps := [.regs, .mem, .extMem, .log, .fle]) (bs := blks [.fle, .hlm, .jrn])
    (storeDelta_within.step (rinc_within.step (.refl _) rfl (by decide)) rfl rfl) rfl rfl).sto.resolve_left (by simp)

/-- Cells that fit one delta are published with one token. -/
theorem publishTile_one {T : Tile} {idx : List Nat} (hne : idx ≠ []) (hfit : idx.length ≤ deltaMax (tileKind T.id))
    (htok : fcSec ≤ levelNow s (getMember s (ownPitch s))) (n : Nat) :
    publishTile (n + 2) s T idx = publishOne (tokenTaken s (ownPitch s)) T idx := by
  have hempty (v : State) : publishTile (n + 1) v T [] = v := rfl
  unfold publishTile
  rw [if_neg (by simpa using hne), takeToken_some htok]
  dsimp only
  rw [List.take_of_length_le hfit, List.drop_of_length_le hfit, hempty]

theorem pubTile_due {j : Nat} {n : CacheSlot} (hn : tblGet? s.sto.cache j = some n) (hne : pubCells n.tile ≠ [])
    (hfit : (pubCells n.tile).length ≤ deltaMax (tileKind n.tile.id)) (hdue : pubDue s n = true)
    (htok : fcSec ≤ levelNow s (getMember s (ownPitch s))) :
    pubTile s j = pubNowDone (publishOne (tokenTaken s (ownPitch s)) n.tile (pubCells n.tile)) := by
  unfold pubTile
  rw [hn]
  dsimp only
  rw [if_neg (by simp [hne, hdue]), publishTile_one hne hfit htok 298]

theorem pubNowDone_store (s : State) : (pubNowDone s).fle.store = s.fle.store := by
  unfold pubNowDone
  refine (congrArg Fle.store ((foldl_within (ps := [.reqs, .till]) (bs := [])
    (fun _ _ hu => complete_within.step hu rfl rfl) (.refl _)).fle.resolve_left (by simp))).trans ?_
  rfl

/-! ### Descriptors -/

theorem evict_evicted (s : State) (p : Nat) : (getMember (evict s p) p).evicted = true := by
  unfold evict
  dsimp only
  unfold getMember
  rw [raiseEv_within.fle.resolve_left (by simp)]
  refine foldl_invariant (P := fun v : State => (getMember v p).evicted = true) ?_ fun v q _ hv => ?_
  · rw [getMember_modMember, if_pos rfl]
  · exact (congrArg Member.evicted ((modSession_sends v q.1 _).members p)).trans hv

theorem memberEvict_evicts {r : Ref} {q : Desc} (hp : q.classWord % 65536 ≤ 1023) (hen : rbit s R.FLE_CTRL_EN = true)
    (hown : q.classWord % 65536 ≠ ownPitch s) (hevict : bitOf q.classWord 16 = false)
    (hev : (getMember s (q.classWord % 65536)).evicted = false) :
    memberEvict s r q = complete (evict s (q.classWord % 65536)) r stDone := by
  unfold memberEvict
  dsimp only
  rw [if_neg (Nat.not_lt.mpr hp), if_neg (by simp [hen]), if_neg hown, if_neg (by simp [hevict]), if_neg (by simp [hev])]

/-- The STATUS that a STATUS_PUBLISH sends. -/
def ownStatusMsg (s : State) (q : Desc) (data : List Nat) : FleMsg :=
  .status (ownStatus (ownPitch s) (ownMarket s) (moduleTime s) (rget s R.NAV_STATE_TIME_STATE) (data.take (q.word 0x18 % 512)))

theorem statusPublish_sends {r : Ref} {q : Desc} {data : List Nat} (hlen : q.word 0x18 % 512 ≤ 256) (hen : rbit s R.FLE_CTRL_EN = true)
    (hsoon : ∀ a, s.fle.statusAt = some a → a + 100 * fcMs ≤ s.now) : statusPublish s r q data =
      complete (sendAll (modFle s fun f => { f with statusAt := some s.now }) (ownStatusMsg s q data) none) r stDone := by
  have h : (match s.fle.statusAt with
      | some a => decide (s.now < a + 100 * fcMs)
      | none => false) = false := by
    cases ha : s.fle.statusAt with
    | none => rfl
    | some a => exact decide_eq_false (Nat.not_lt.mpr (hsoon a ha))
  unfold statusPublish
  dsimp only
  rw [if_neg (Nat.not_lt.mpr hlen), if_neg (by simp [hen])]
  exact if_neg (ne_true_of_eq_false h)

/-- With nothing to publish a PUBLISH_NOW completes at once. -/
theorem publishNow_nothing {r : Ref} (hen : rbit s R.FLE_CTRL_EN = true) (hnone : s.fle.pubNow = [])
    (haway : ∀ x ∈ awayTiles s, sharedPubs s x = [])
    (hhere : ((s.sto.cache.filter fun p => !p.2.loading).map fun p => p.2.tile).flatMap (sharedPubs s) = []) :
    publishNow s r = pubNowDone (modFle s fun f => { f with pubNow := [(r, [])] }) := by
  have hno : (awayTiles s).filter (fun x => !(sharedPubs s x).isEmpty) = [] :=
    List.filter_eq_nil_iff.mpr fun x hx => by simp [haway x hx]
  unfold publishNow
  rw [if_neg (by simp [hen])]
  dsimp only
  rw [hno, List.append_nil, hhere, List.foldl_nil]
  refine congrArg pubNowDone ?_
  show ({ s with fle := { s.fle with pubNow := s.fle.pubNow ++ [(r, [])] } } : State) = _
  rw [hnone]
  rfl

theorem pubNowDone_empty {r : Ref} : (pubNowDone (modFle s fun f => { f with pubNow := [(r, [])] })).reqs =
    (complete s r stDone).reqs := by
  refine complete_reqs_congr ?_ r stDone 0 none
  rfl

/-! ### The statement -/

/-- Settles O58: fourteen commands as in O42, the others by the lemmas of this section. -/
theorem fleetComplete : Obligations.FleetComplete := by
  obtain ⟨enable, -, disable, peerSet, -, -, -, unanswered, opens, -, -, -, -, retry, keepalive, silent, expired, bye, kept, -,
    holdEnds, catchUp, decay⟩ := fleetSessions
  unfold Obligations.FleetComplete
  refine ⟨?_, ?_, ?_, ?_, ?_, ?_, ?_, ?_, ?_, ?_, ?_, ?_, ?_, ?_, ?summary, ?certReq, ?announce, ?delta, ?status, ?publish, ?own, ?evict, ?now⟩
  · intro s t hfab hen h1 h2 h3 h4 h5 h6
    refine ⟨_, enable s t hfab hen h1 h2 h3 h4 h5 h6, rget_rset_self _ _ _ _ _, ?_⟩
    rw [rget_rset_ne _ _ _ _ _ _ (by decide)]
    exact rget_rset_self _ _ _ _ _
  · intro s t hfab hs
    obtain ⟨u, hu, h1, h2, -⟩ := disable s t hfab hs
    exact ⟨u, hu, h1, h2⟩
  · intro s t r d o hfab hd hdue hset haddr hport hen ho
    obtain ⟨u, hu, h1, h2, -⟩ := peerSet s t r d o hfab hd hdue hset haddr hport hen ho
    exact ⟨u, hu, h1, h2⟩
  · intro s t k c q hfab hc hq hdue
    refine ⟨_, unanswered s t k c q hfab hc hq hdue, ?_, ?_⟩
    · refine complete_reqs_congr ?_ _ _ _ _
      rfl
    · rw [complete_fle]
      exact tblGet?_set_self _ _ _
  · intro s t k c x hfab hc hen ho htry hfree hcert hp hev
    obtain ⟨u, hu, h1, h2, -⟩ := opens s t k c x hfab hc hen ho htry hfree hcert hp hev
    exact ⟨u, hu, h1, h2⟩
  · intro s t k c hfab hc hen ho hfree hdue
    exact ⟨_, retry s t k c hfab hc hen ho hfree hdue, tblGet?_set_self _ _ _⟩
  · intro s t k c hfab hc ho hdue hroom hnew
    exact ⟨_, keepalive s t k c hfab hc ho hdue hroom hnew, tblGet?_set_self _ _ _⟩
  · intro s t k c hfab hc ho hdue
    obtain ⟨u, hu, h1, h2, -⟩ := silent s t k c hfab hc ho hdue
    exact ⟨u, hu, h1, h2⟩
  · intro s t k c hfab hc ho hdue
    obtain ⟨u, hu, h1, h2, -⟩ := expired s t k c hfab hc ho hdue
    exact ⟨u, hu, h1, h2⟩
  · intro s t k c hfab hc ho hr
    obtain ⟨u, hu, h1, h2, -⟩ := bye s t k c hfab hc ho hr
    exact ⟨u, hu, h1, h2⟩
  · intro s t k c hfab hc ho hr
    exact ⟨_, kept s t k c hfab hc ho hr, tblGet?_set_self _ _ _⟩
  · intro s t k a hfab ha hdue
    exact ⟨_, holdEnds s t k a hfab ha hdue, rfl⟩
  · intro s t k c hfab hc ho hb hq hw
    exact ⟨_, catchUp s t k c hfab hc ho hb hq hw, tblGet?_set_self _ _ _⟩
  · intro s t hfab hdue
    exact ⟨_, decay s t hfab hdue, rfl, rfl⟩
  case summary =>
    intro s t k c figs hfab hc ho hr hown
    refine ⟨_, (atFabric_up s t (fun s => summaryRx s k figs) hfab).trans
      (congrArg _ (summaryRx_foreign (s := advance s t) hc ho hr hown)), _, withSession_get _ _ _, fun hempty => ?_, fun d => ?_⟩
    · rw [hempty]
      exact foldr_insertDelta_inOrder _ .nil
    · rw [mem_foldr_insertDelta]
      exact or_congr Iff.rfl (mem_lackedDeltas (advance s t) figs d)
  case certReq =>
    intro s t k c raw p x hfab hc ho hr hroom hp hx
    exact ⟨_, (atFabric_up s t (fun s => certReqRx s k raw) hfab).trans
      (congrArg _ (certReqRx_known (s := advance s t) hc ho hr hroom hp hx)), withSession_get _ _ _⟩
  case announce =>
    intro s t k c x hfab hc ho hr hcert hev hs
    exact ⟨_, atFabric_up s t (fun s => announceRx s k x) hfab, announceRx_known (s := advance s t) hc ho hr hcert hev⟩
  case delta =>
    intro s t k c raw d sig j sl hfab hc ho hr hp hm hev hknown hsig htok htime horigin hcell hkind hfind hget hload hcache hcells hany
    subst hsig
    have hv := deltaRx_passes (s := advance s t) hc ho hr hp hm hev hknown htok htime horigin hcell hkind
    have hslot : SlotHolds s d.tile j sl := ⟨hfind, hget, hcache, hcells⟩
    have hsto : (clockReceive (tokenTaken ((advance s t).withSession k (c.received (max s.now t))) d.author) d.t d.c).sto = s.sto :=
      (clockReceive_within.sto.resolve_left (by simp)).trans rfl
    obtain ⟨n, hn, h1, h2⟩ := applyDelta_slot (k := k) (parseDelta_nodup hp) (hslot.congr (congrArg Sto.cache hsto)) hload
    exact ⟨_, (atFabric_up s t (fun s => if true then deltaRx s k raw true else s) hfab).trans (congrArg _ ((if_pos rfl).trans hv)),
      n, hn, h1, h2⟩
  case status =>
    intro s t k c raw m sig hfab hc ho hr hp hm hev hknown hsig htok htime hnew hroom hmem hext hs hqueues
    subst hsig
    have hv := statusRx_passes (s := advance s t) hc ho hr hp hm hev hknown htok htime hnew
    have hmember := statusTake_member (tokenTaken ((advance s t).withSession k (c.received (max s.now t))) m.author) k m
    refine ⟨_, (exec_statusRx hfab).trans (congrArg _ hv), ?_, ?_, ?_⟩
    · exact congrArg Member.lastStatus hmember
    · exact congrArg Member.timeState hmember
    · exact congrArg Member.offset hmember
  case publish =>
    intro s t k c hfab hget hfind hcache hcells hvers hat hne hfit hrange hdue htok
    have hv := pubTile_due (s := advance s t) hget hne hfit hdue htok
    have hslot : SlotHolds (clockLocal (tokenTaken (advance s t) (ownPitch s))) c.tile.id k c :=
      SlotHolds.congr (s := s) ⟨hfind, hget, hcache, hcells⟩
        (congrArg Sto.cache ((clockLocal_within.sto.resolve_left (by simp)).trans rfl))
    obtain ⟨n, hn, hnv, hver, hpub⟩ := hslot.publishCells (img := c.tile)
      (st := ownStamp (clockLocal (tokenTaken (advance s t) (ownPitch s)))) (pubCells c.tile) hvers hat
    obtain ⟨n', hn', -, -, hcell⟩ := hslot.writeCells (img := c.tile)
      (ver := ⟨ownStamp (clockLocal (tokenTaken (advance s t) (ownPitch s))), false⟩) (pubCells c.tile)
    obtain rfl : n' = n := Option.some.inj (hn'.get.symm.trans hn.get)
    refine ⟨_, (atFabric_up s t (fun s => pubTile s k) hfab).trans (congrArg _ hv), n', _, ?_, fun i hi => ⟨?_, ?_⟩, ?_, fun j => ?_,
      clockLocal_later (tokenTaken (advance s t) (ownPitch s)), publishedDelta (tokenTaken (advance s t) (ownPitch s)) c.tile (pubCells c.tile), ?_,
      rfl, rfl, rfl, rfl, rfl, rfl, rfl, rfl, rfl, rfl⟩
    · rw [pubNowDone_within.sto.resolve_left (by simp), publishOne_sto]
      exact hn.get
    · exact (hver i).trans (if_pos hi)
    · exact (hpub i).trans (if_pos hi)
    · refine List.eq_nil_iff_forall_not_mem.mpr fun i hi => ?_
      rw [mem_pubCells hnv, hver] at hi
      split at hi
      · cases hi
      · rename_i hnot
        exact hnot ((mem_pubCells hvers i).mpr hi)
    · rw [hcell]
      exact ite_self _
    · rw [pubNowDone_store, publishOne_store]
      rfl
  case own =>
    intro s t r q data hfab hd hdue hlen hen hsoon hs
    have hv := statusPublish_sends (s := takeReq (advance s t) r) (r := r) (data := data) hlen hen hsoon
    refine ⟨_, (atFabric_desc hfab (fun d s => statusPublish s r d data) hd hdue).trans (congrArg _ hv), ?_, ?_⟩
    · rw [complete_fle]
      exact (congrArg Fle.statusAt (sendAll_sends _ _ _)).trans rfl
    · refine complete_reqs_congr ?_ _ _ _ _
      exact (sendAll_within.reqs.resolve_left (by simp)).trans rfl
  case evict =>
    intro s t r q hfab hd hdue hp hen hown hbit hev
    have hv := memberEvict_evicts (s := takeReq (advance s t) r) (r := r) hp hen hown hbit hev
    refine ⟨_, (atFabric_desc hfab (fun d s => memberEvict s r d) hd hdue).trans (congrArg _ hv), ?_, ?_⟩
    · unfold getMember
      rw [complete_fle]
      exact evict_evicted _ _
    · refine complete_reqs_congr ?_ _ _ _ _
      exact evict_within.reqs.resolve_left (by simp)
  case now =>
    intro s t r q hfab hd hdue hen hnone haway hhere
    have hv := publishNow_nothing (s := takeReq (advance s t) r) (r := r) hen hnone haway hhere
    exact ⟨_, (atFabric_desc hfab (fun _ s => publishNow s r) hd hdue).trans (congrArg _ hv), pubNowDone_empty⟩

end Sys2Proof.Machine
end

section
/-! Resets (R419–R421, R430): what every kind leaves. -/

namespace Sys2Proof.Machine

variable {s u : State} {kind source : Nat} {wipe : Bool} {r : Ref} {d : Desc}

/-! ### Descriptors that a reset abandons -/

/-- Stopping work that is not at a drive or switch channel leaves the banks alone. -/
theorem stopWork_elsewhere (h2 : d.cls ≠ 2) (h3 : d.cls ≠ 3) :
    Within [.regs, .mem, .tke, .sps, .sfe, .xlk, .nav, .sto, .fle, .vis, .eth, .pnl, .upd] (blks [.tke, .isp, .vxa, .pnl, .upd, .sfe])
      s (stopWork s r d) := by
  unfold stopWork
  split
  · exact stopLoad_within.mono rfl rfl
  · contradiction
  · contradiction
  · exact stopCamJob_within.mono rfl rfl
  · exact stopVxaJob_within.mono rfl rfl
  · exact stopFleet_within.mono rfl rfl
  · exact stopPanelJob_within.mono rfl rfl
  · exact stopUpdate_within.mono rfl rfl
  · exact stopJournal_within.mono rfl rfl
  · exact stopGeneral_within.mono rfl rfl

/-- The registers of the output banks stand when a descriptor is abandoned: a command already committed goes on. -/
theorem abandon_elsewhere (s : State) (q : Req) :
    Within [.regs, .mem, .reqs, .till, .tke, .sps, .sfe, .drv, .pps, .xlk, .nav, .sto, .fle, .vis, .can, .eth, .pnl, .upd]
      (blks [.can, .tke, .isp, .vxa, .pnl, .upd, .sfe]) s (abandon s q) := by
  unfold abandon
  extract_lets r s0 s1 s2
  have h1 : Within [.regs, .mem, .reqs, .till, .tke, .sps, .sfe, .drv, .pps, .xlk, .nav, .sto, .fle, .vis, .can, .eth, .pnl, .upd]
      (blks [.can, .tke, .isp, .vxa, .pnl, .upd, .sfe]) s s1 := by
    dsimp only [s1]
    split
    · exact .refl s
    · split
      · split
        · exact freeProf_within.step (modPassed_within.mono rfl rfl) rfl rfl
        · exact modPassed_within.mono rfl rfl
      · rename_i hout
        split
        · exact modCan_within.mono rfl rfl
        · exact (stopWork_elsewhere (fun h => hout (.inl h)) fun h => hout (.inr h)).mono rfl rfl
  exact within_reqs (tillForget_within.step (modUpd_within.step h1 rfl rfl) rfl rfl) rfl

theorem abandonRings_elsewhere (s : State) (which : Nat → Bool) :
    Within [.regs, .mem, .reqs, .till, .tke, .sps, .sfe, .drv, .pps, .xlk, .nav, .sto, .fle, .vis, .can, .eth, .pnl, .upd]
      (blks [.rng, .can, .tke, .isp, .vxa, .pnl, .upd, .sfe]) s (abandonRings s which) :=
  foldl_within (fun _ _ hu => within_ite (rset_within.step hu rfl rfl) hu)
    (dropMarks_within.step (foldl_within (fun _ _ hu => (abandon_elsewhere _ _).step hu rfl rfl) (.refl _)) rfl rfl)

/-! ### The parts of a reset -/

/-- What becomes of the outstanding descriptors before a reset. -/
def beforeReset (s : State) (source : Nat) : State :=
  if sourceDrains source then drainRings (confirmFirst s) else abandonRings s fun _ => true

/-- The state with the fabric reset. -/
def fabricReset (s : State) (kind source : Nat) (wipe : Bool) : State :=
  resetFabric (noteTrial (if kind ≤ 1 ∨ wipe then beforeReset s source else settleDram (beforeReset s source)) source)

/-- The state with every domain of the kind reset. -/
def domainsReset (s : State) (kind source : Nat) (wipe : Bool) : State :=
  let s2 := if kind ≤ 1 then resetOuter (fabricReset s kind source wipe) else fabricReset s kind source wipe
  if kind = 0 then resetAon s2 else s2

/-- The state before the cause is recorded. -/
def dramReset (s : State) (kind source : Nat) (wipe : Bool) : State :=
  if kind ≤ 1 ∨ wipe then wipeDram (domainsReset s kind source wipe) else domainsReset s kind source wipe

theorem resetTo_eq (s : State) (kind source : Nat) (wipe : Bool) :
    resetTo s kind source wipe = noteCause (dramReset s kind source wipe) kind source := rfl

theorem beforeReset_within (s : State) (source : Nat) :
    Within [.regs, .rolLatch, .mem, .extMem, .log, .arbs, .reqs, .till, .cqIrq, .irqs, .tke, .sps, .sfe, .drv, .dbk, .pps, .xlk, .nav,
      .sto, .fle, .vis, .can, .eth, .pnl, .upd]
      (blks [.hlm, .jrn, .til, .arb, .msix, .cqr, .rng, .can, .tke, .dbk, .isp, .vxa, .pnl, .upd, .sfe]) s (beforeReset s source) :=
  within_ite (drainRings_within.step (confirmFirst_within.mono rfl rfl) rfl rfl) (abandonRings_within.mono rfl rfl)

/-- A reset that writes no completions leaves the registers of the output banks. -/
theorem beforeReset_abandons (s : State) (h : sourceDrains source = false) :
    Within [.regs, .mem, .reqs, .till, .tke, .sps, .sfe, .drv, .pps, .xlk, .nav, .sto, .fle, .vis, .can, .eth, .pnl, .upd]
      (blks [.rng, .can, .tke, .isp, .vxa, .pnl, .upd, .sfe]) s (beforeReset s source) := by
  unfold beforeReset
  rw [h, if_neg (by decide)]
  exact abandonRings_elsewhere s _

theorem fabricReset_step (s : State) (kind source : Nat) (wipe : Bool) :
    Within [.regs, .hiLatch, .rolLatch, .onesAt, .fabric, .mem, .log, .arbs, .reqs, .till, .cqIrq, .tke, .sps, .sfe, .rowEntries, .xlk,
      .sto, .fle, .pnl, .upd, .aoc, .hlm]
      (blks [.arb, .rng, .cqr, .til, .tke, .sps, .fnl, .sfe, .fle, .pnl, .sto, .jrn, .upd, .hlm]) (beforeReset s source)
      (fabricReset s kind source wipe) := by
  unfold fabricReset
  exact resetFabric_within.step (noteTrial_within.step (within_ite (.refl _) (settleDram_within.mono rfl rfl)) rfl rfl) rfl rfl

theorem domainsReset_step (s : State) (kind source : Nat) (wipe : Bool) :
    Within [.regs, .hiLatch, .rolLatch, .onesAt, .freeCount, .rtcOff, .log, .arbs, .xlk, .nav, .vis, .can, .eth, .aoc]
      (blks [.nav, .can, .eth, .cam, .isp, .vxa, .arb, .hlk, .msix, .xlk, .mem, .ksm, .aoc]) (fabricReset s kind source wipe)
      (domainsReset s kind source wipe) := by
  have h2 : Within [.regs, .hiLatch, .rolLatch, .onesAt, .freeCount, .rtcOff, .log, .arbs, .xlk, .nav, .vis, .can, .eth, .aoc]
      (blks [.nav, .can, .eth, .cam, .isp, .vxa, .arb, .hlk, .msix, .xlk, .mem, .ksm, .aoc]) (fabricReset s kind source wipe)
      (if kind ≤ 1 then resetOuter (fabricReset s kind source wipe) else fabricReset s kind source wipe) :=
    within_ite (resetOuter_within.mono rfl rfl) (.refl _)
  exact within_ite (resetAon_within.step h2 rfl rfl) h2

theorem dramReset_step (s : State) (kind source : Nat) (wipe : Bool) :
    Within [.mem, .fle] [] (domainsReset s kind source wipe) (dramReset s kind source wipe) :=
  within_ite wipeDram_within (.refl _)

/-! ### What a reset leaves -/

theorem resetTo_pending (s : State) (kind source : Nat) (wipe : Bool) : (resetTo s kind source wipe).pending = s.pending :=
  resetTo_within.pending.resolve_left (by simp)

theorem resetTo_ksm (s : State) (kind source : Nat) (wipe : Bool) : (resetTo s kind source wipe).ksm = s.ksm :=
  resetTo_within.ksm.resolve_left (by simp)

theorem dramReset_now (s : State) (kind source : Nat) (wipe : Bool) : (dramReset s kind source wipe).now = s.now :=
  ((dramReset_step ..).now.resolve_left (by simp)).trans (((domainsReset_step ..).now.resolve_left (by simp)).trans
    (((fabricReset_step ..).now.resolve_left (by simp)).trans ((beforeReset_within ..).now.resolve_left (by simp))))

theorem resetTo_fabric (s : State) (kind source : Nat) (wipe : Bool) : (resetTo s kind source wipe).fabric = false := by
  have hfab : (fabricReset s kind source wipe).fabric = false := rfl
  rw [resetTo_eq, noteCause_within.fabric.resolve_left (by simp), (dramReset_step ..).fabric.resolve_left (by simp),
    (domainsReset_step ..).fabric.resolve_left (by simp), hfab]

/-- No descriptor is outstanding after a reset. -/
theorem resetTo_reqs (s : State) (kind source : Nat) (wipe : Bool) : (resetTo s kind source wipe).reqs = [] := by
  have hreqs : (fabricReset s kind source wipe).reqs = [] := rfl
  rw [resetTo_eq, noteCause_within.reqs.resolve_left (by simp), (dramReset_step ..).reqs.resolve_left (by simp),
    (domainsReset_step ..).reqs.resolve_left (by simp), hreqs]

theorem resetTo_mem (s : State) (source : Nat) (h : kind ≤ 1 ∨ wipe = true) : (resetTo s kind source wipe).mem = [] := by
  have hmem : (dramReset s kind source wipe).mem = [] := congrArg State.mem (if_pos h)
  rw [resetTo_eq, noteCause_within.mem.resolve_left (by simp), hmem]

theorem resetTo_castFrom (s : State) (kind source : Nat) (wipe : Bool) :
    (resetTo s kind source wipe).aoc.castFrom = some (s.now, firstStage kind) := by
  have h : (noteCause (dramReset s kind source wipe) kind source).aoc.castFrom =
      some ((dramReset s kind source wipe).now, firstStage kind) := rfl
  rw [resetTo_eq, h, dramReset_now]

theorem noteCause_stage (s : State) (kind source : Nat) : rget (noteCause s kind source) R.AOC_CASTON_STAGE =
    firstStage kind % 2 ^ R.AOC_CASTON_STAGE.width := rget_rset_self _ _ _ _ _

theorem noteCause_source (s : State) (kind source : Nat) : rget (noteCause s kind source) R.AOC_RESET_CAUSE_SOURCE =
    source % 2 ^ R.AOC_RESET_CAUSE_SOURCE.width := by
  refine (rget_rset_ne _ _ _ _ _ _ (by decide)).trans ((rget_rset_ne _ _ _ _ _ _ (by decide)).trans
    ((rget_rset_ne _ _ _ _ _ _ (by decide)).trans ?_))
  exact rget_rset_self _ _ _ _ _

theorem noteCause_kind (s : State) (kind source : Nat) : rget (noteCause s kind source) R.AOC_RESET_CAUSE_KIND =
    kind % 2 ^ R.AOC_RESET_CAUSE_KIND.width := by
  refine (rget_rset_ne _ _ _ _ _ _ (by decide)).trans ((rget_rset_ne _ _ _ _ _ _ (by decide)).trans
    ((rget_rset_ne _ _ _ _ _ _ (by decide)).trans ((rget_rset_ne _ _ _ _ _ _ (by decide)).trans ?_)))
  exact rget_rset_self _ _ _ _ _

theorem resetFabric_aoc (s : State) : (resetFabric s).aoc = { s.aoc with
    ignBack := false, entry := none, drained := false, suspendAt := none, ready := false, warmWake := false, wakes := [],
    wdogAt := s.now, power := 0 } := by
  have hw : Within [.regs, .hiLatch, .rolLatch, .onesAt, .hlm]
      (blks [.arb, .rng, .cqr, .til, .tke, .sps, .fnl, .sfe, .fle, .pnl, .sto, .jrn, .upd, .hlm]) s (stopClock (resetFabRegs s)) :=
    stopClock_within.step (resetFabRegs_within.mono rfl rfl) rfl rfl
  have haoc : (stopClock (resetFabRegs s)).aoc = s.aoc := hw.aoc.resolve_left (by simp)
  have hnow : (stopClock (resetFabRegs s)).now = s.now := hw.now.resolve_left (by simp)
  unfold resetFabric
  dsimp only
  rw [haoc, hnow]

theorem resetTo_stage (s : State) (kind source : Nat) (wipe : Bool) : rget (resetTo s kind source wipe) R.AOC_CASTON_STAGE =
    firstStage kind % 2 ^ R.AOC_CASTON_STAGE.width := by
  rw [resetTo_eq, noteCause_stage]

theorem resetTo_source (s : State) (kind source : Nat) (wipe : Bool) : rget (resetTo s kind source wipe) R.AOC_RESET_CAUSE_SOURCE =
    source % 2 ^ R.AOC_RESET_CAUSE_SOURCE.width := by
  rw [resetTo_eq, noteCause_source]

theorem resetTo_kind (s : State) (kind source : Nat) (wipe : Bool) : rget (resetTo s kind source wipe) R.AOC_RESET_CAUSE_KIND =
    kind % 2 ^ R.AOC_RESET_CAUSE_KIND.width := by
  rw [resetTo_eq, noteCause_kind]

/-- But for a power-on, the fields of AOC that a reset does not name stand. -/
theorem resetTo_aoc (s : State) (source : Nat) (wipe : Bool) (h : kind ≠ 0) : (resetTo s kind source wipe).aoc =
    { s.aoc with
      ignBack := false, entry := none, drained := false, suspendAt := none, ready := false, warmWake := false, wakes := [],
      wdogAt := s.now, power := 0, castFrom := some (s.now, firstStage kind) } := by
  have hcause : (noteCause (dramReset s kind source wipe) kind source).aoc =
      { (dramReset s kind source wipe).aoc with castFrom := some ((dramReset s kind source wipe).now, firstStage kind) } := rfl
  have hdom : (domainsReset s kind source wipe).aoc = (fabricReset s kind source wipe).aoc := by
    unfold domainsReset
    dsimp only
    rw [if_neg h]
    split
    · exact resetOuter_within.aoc.resolve_left (by simp)
    · rfl
  have hnote : (noteTrial (if kind ≤ 1 ∨ wipe then beforeReset s source else settleDram (beforeReset s source)) source).aoc = s.aoc ∧
      (noteTrial (if kind ≤ 1 ∨ wipe then beforeReset s source else settleDram (beforeReset s source)) source).now = s.now := by
    have hw : Within [.mem, .upd] [] (beforeReset s source)
        (noteTrial (if kind ≤ 1 ∨ wipe then beforeReset s source else settleDram (beforeReset s source)) source) :=
      noteTrial_within.step (within_ite (.refl _) (settleDram_within.mono rfl rfl)) rfl rfl
    exact ⟨(hw.aoc.resolve_left (by simp)).trans ((beforeReset_within s source).aoc.resolve_left (by simp)),
      (hw.now.resolve_left (by simp)).trans ((beforeReset_within s source).now.resolve_left (by simp))⟩
  rw [resetTo_eq, hcause, dramReset_now, (dramReset_step ..).aoc.resolve_left (by simp), hdom]
  unfold fabricReset
  rw [resetFabric_aoc, hnote.1, hnote.2]

theorem sourceDrains_listed (h : source ∉ [1, 2, 6, 7]) : sourceDrains source = false := by
  unfold sourceDrains
  simpa using h

/-- A reset that writes no completions leaves every register of the output banks and the supervisors (R249). -/
theorem resetTo_banks (s : State) (kind : Nat) (wipe : Bool) (h : source ∉ [1, 2, 6, 7]) {k : Nat}
    (hk : keyBlk k ∈ blks [.dbk, .sbk, .pps]) : tblGet? (resetTo s kind source wipe).regs k = tblGet? s.regs k := by
  have hnot {l : List Nat} (hl : (blks [.dbk, .sbk, .pps]).all (fun b => !l.contains b) = true) : keyBlk k ∉ l := by
    simpa using List.all_eq_true.mp hl _ hk
  rw [resetTo_eq, noteCause_within.blocks k (hnot (by decide)), (dramReset_step ..).blocks k (hnot (by decide)),
    (domainsReset_step ..).blocks k (hnot (by decide)), (fabricReset_step ..).blocks k (hnot (by decide)),
    (beforeReset_abandons s (sourceDrains_listed h)).blocks k (hnot (by decide))]

theorem renewNonce_rget (s : State) (f : Fld) (i j : Nat) (h : f.id ≠ R.KSM_LC_NONCE_NONCE.id) :
    rget (renewNonce s) f i j = rget s f i j :=
  foldl_invariant (P := fun v => rget v f i j = rget s f i j) rfl fun v w _ hv => by
    unfold withFree
    rw [rget_rset_ne _ _ _ _ _ _ h]
    exact hv

/-- What a power-on and a full reset reinitialise beside the fabric, before the nonce is renewed. -/
def outerReset (s : State) : State :=
  let s1 := resetInst (resetPeriph s) .arb fun i => 1 ≤ i && i ≤ 4 || i == 21
  let s2 := [Blk.hlk, .msix, .xlk, .mem].foldl (fun s b => resetBlock s b) s1
  { s2 with
    arbs := s2.arbs.filter fun p => !(1 ≤ p.1 && p.1 ≤ 4 || p.1 == 21)
    xlk := { Xlk.reset with savedEpoch := s2.xlk.savedEpoch, tx := s2.xlk.tx.filter fun p => p.1 == 4 } }

theorem resetOuter_eq (s : State) : resetOuter s = renewNonce (outerReset s) := rfl

theorem outerReset_within (s : State) : Within [.regs, .hiLatch, .rolLatch, .onesAt, .arbs, .xlk, .nav, .vis, .can, .eth]
    (blks [.nav, .can, .eth, .cam, .isp, .vxa, .arb, .hlk, .msix, .xlk, .mem]) s (outerReset s) :=
  within_arbs_xlk (resetBlocks_within.step (resetInst_within.step (resetPeriph_within.step (.refl _) rfl rfl) rfl rfl) rfl rfl) rfl

theorem resetOuter_rget (s : State) (f : Fld) (i j : Nat) (hf : f.id / 128 = blkCode .ksm) (h : f.id ≠ R.KSM_LC_NONCE_NONCE.id) :
    rget (resetOuter s) f i j = rget s f i j := by
  rw [resetOuter_eq, renewNonce_rget _ _ _ _ h]
  exact (outerReset_within s).rget _ _ _ (by rw [hf]; decide)

/-- A reset leaves the life-cycle registers, but for the nonce. -/
theorem resetTo_lc (s : State) (kind source : Nat) (wipe : Bool) (f : Fld) (i j : Nat) (hf : f.id / 128 = blkCode .ksm)
    (h : f.id ≠ R.KSM_LC_NONCE_NONCE.id) : rget (resetTo s kind source wipe) f i j = rget s f i j := by
  have hnot {l : List Nat} (hl : blkCode .ksm ∉ l) : f.id / 128 ∉ l := hf ▸ hl
  have hdom : rget (domainsReset s kind source wipe) f i j = rget (fabricReset s kind source wipe) f i j := by
    have houter (z : State) : rget (resetOuter z) f i j = rget z f i j := resetOuter_rget z f i j hf h
    unfold domainsReset
    dsimp only
    split
    · rw [resetAon_within.rget _ _ _ (hnot (by decide))]
      split
      · exact houter _
      · rfl
    · split
      · exact houter _
      · rfl
  rw [resetTo_eq, noteCause_within.rget _ _ _ (hnot (by decide)), (dramReset_step ..).rget _ _ _ (hnot (by decide)), hdom,
    (fabricReset_step ..).rget _ _ _ (hnot (by decide)), (beforeReset_within ..).rget _ _ _ (hnot (by decide))]

end Sys2Proof.Machine
end

section
/-! O46: credentials and life-cycle transitions (R425–R431). -/

namespace Sys2Proof.Machine

variable {s u : State} {t : Fc} {r : Ref} {d : Desc} {ok : Bool} {cert : Option Cert} {m : Nat} {b : List Nat}

/-! ### CRED_SET -/

/-- The life-cycle states in which a credential of a kind may be set (R426). -/
def credOpen (kind st : Nat) : Prop :=
  if kind = 6 then st = 0 else if kind = 0 then st = 0 ∨ st = 1 ∨ st = 2 else kind ≤ 5 ∧ (st = 0 ∨ st = 1)

/-- The length of the object fits its kind. -/
def credFits (kind len : Nat) : Bool := if kind = 6 then len == 36 else if 2 ≤ kind then len == 97 else decide (len ≤ 1024)

theorem credSet_closed (h : ¬ credOpen (d.classWord % 16) (lcState s)) :
    credSet s r d ok cert m b = complete s r stRejectState 0x0298 := by
  unfold credOpen at h
  unfold credSet
  exact if_pos (by rw [decide_eq_false h]; rfl)

theorem credSet_fails (hopen : credOpen (d.classWord % 16) (lcState s)) (h : ok = false ∨ credFits (d.classWord % 16) (d.word 0x18 % 65536) = false ∨
    (d.classWord % 16 = 0 ∧ lcState s = 2 ∧ certRenews s cert = false)) : credSet s r d ok cert m b = complete s r stRejectAuth 0x0498 := by
  unfold credOpen at hopen
  unfold credSet
  refine (if_neg (by rw [decide_eq_true hopen]; decide)).trans (if_pos ?_)
  obtain h | h | ⟨h1, h2, h3⟩ := h
  · exact .inl (by rw [h]; rfl)
  · exact .inr (.inl (by rw [show (if d.classWord % 16 = 6 then _ else _) = credFits (d.classWord % 16) (d.word 0x18 % 65536) from rfl, h]; rfl))
  · exact .inr (.inr (.inr ⟨h1, h2, by rw [h3]; rfl⟩))

theorem credSet_installs (hopen : credOpen (d.classWord % 16) (lcState s)) (hok : ok = true)
    (hfits : credFits (d.classWord % 16) (d.word 0x18 % 65536) = true) (hcert : d.classWord % 16 = 0 → cert.isSome = true)
    (hrenew : d.classWord % 16 = 0 → lcState s = 2 → certRenews s cert = true) : credSet s r d ok cert m b =
      complete (credInstall s (d.classWord % 16) m (cert.map fun c => { c with der := b.take (d.word 0x18 % 65536) }) b) r stDone := by
  unfold credOpen at hopen
  unfold credSet
  refine (if_neg (by rw [decide_eq_true hopen]; decide)).trans (if_neg ?_)
  rintro (h | h | ⟨h1, h2⟩ | ⟨h1, h2, h3⟩)
  · rw [hok] at h
    cases h
  · rw [show (if d.classWord % 16 = 6 then _ else _) = credFits (d.classWord % 16) (d.word 0x18 % 65536) from rfl, hfits] at h
    cases h
  · rw [Option.isNone_iff_eq_none] at h2
    have hsome := hcert h1
    rw [h2] at hsome
    cases hsome
  · rw [hrenew h1 h2] at h3
    cases h3

theorem credInstall_key {n : Nat} (h2 : 2 ≤ n) (h5 : n ≤ 5) : credInstall s n m cert b =
    rsetBitAt (modKsm s fun k => { k with intKeys := tblSet k.intKeys (n - 1) b }) R.KSM_KEYS_INT_SLOTS (n - 2) true := by
  interval_cases n <;> rfl

/-- A certificate that chains to the root and names the pitch of the one held replaces it (R426). -/
theorem certRenews_same {x h : Cert} (hheld : s.ksm.memberCert = some h) (hroot : s.ksm.root = true) (hchain : x.chains = true)
    (hname : x.name.isSome = true) (hmarket : x.market = h.market) (hpitch : x.pitch = h.pitch) : certRenews s (some x) = true := by
  unfold certRenews
  rw [hheld]
  simp [hroot, hchain, hname, hmarket, hpitch]

/-! ### Transitions -/

theorem lcChange_armed {tok : List Nat} {sig cut : Bool} (h : planeArmed s 0 = true ∨ planeArmed s 1 = true) :
    lcChange s r d tok sig cut = complete s r stRejectState 0x0290 := if_pos h

section
variable {tok : List Nat} {sig cut : Bool} (h0 : planeArmed s 0 = false) (h1 : planeArmed s 1 = false)
include h0 h1

theorem lcChange_unarmed : lcChange s r d tok sig cut =
    if !transitionOk s (d.classWord % 8) then complete s r stRejectState 0x0291
    else if !tokenOk s (d.classWord % 8) tok (sig && d.quad 0x10 != 0) then complete s r stRejectAuth 0x0490
    else if cut then modKsm (disarmTke s) fun k => { k with unfinished := some (lcState s, d.classWord % 8) }
    else resetTo (drainTill (complete (lcMake (disarmTke s) (lcState s) (d.classWord % 8)) r stDone)) kindFull 6 false :=
  if_neg (by rw [h0, h1]; decide)

theorem lcChange_permitted (htr : transitionOk s (d.classWord % 8) = true)
    (htok : tokenOk s (d.classWord % 8) tok (sig && d.quad 0x10 != 0) = true) : lcChange s r d tok sig cut =
      if cut then modKsm (disarmTke s) fun k => { k with unfinished := some (lcState s, d.classWord % 8) }
      else resetTo (drainTill (complete (lcMake (disarmTke s) (lcState s) (d.classWord % 8)) r stDone)) kindFull 6 false := by
  rw [lcChange_unarmed h0 h1, htr, if_neg (by decide), htok, if_neg (by decide)]

end

/-- The store and journal sections that a transition erases. -/
def wipedStore (s : State) : State := eraseParts (eraseStages (eraseJournal (wipeSram s)))

theorem wipedStore_within (s : State) : Within [.regs, .mem, .extMem, .log, .reqs, .till, .xlk, .nav, .sto, .upd]
    (blks [.hlm, .jrn, .upd]) s (wipedStore s) :=
  eraseParts_within.step (eraseStages_within.step (eraseJournal_within.step (wipeSram_within.step (.refl _) rfl rfl) rfl rfl) rfl rfl)
    rfl rfl

/-- The fields of the KSM that a wipe writes. -/
def wipeFields : List Nat :=
  [R.KSM_KEYS_DEVICE_KEY.id, R.KSM_KEYS_MEMBER_CERT.id, R.KSM_KEYS_ROOT.id, R.KSM_KEYS_INT_SLOTS.id, R.KSM_LC_SEALED.id]

theorem lcWipe_retires (s : State) (a : Nat) : lcWipe s a 4 =
    rset (rset (rset (rset (modKsm (wipedStore s) fun k => { k with memberCert := none, root := false, rootMarket := 0, intKeys := [] })
      R.KSM_KEYS_DEVICE_KEY 0) R.KSM_KEYS_MEMBER_CERT 0) R.KSM_KEYS_ROOT 0) R.KSM_KEYS_INT_SLOTS 0 := rfl

theorem lcWipe_rget (s : State) (a dst : Nat) (f : Fld) (i j : Nat) (hf : f.id / 128 = blkCode .ksm) (hnot : f.id ∉ wipeFields) :
    rget (lcWipe s a dst) f i j = rget s f i j := by
  simp only [wipeFields, List.mem_cons, List.not_mem_nil, or_false, not_or] at hnot
  obtain ⟨n1, n2, n3, n4, n5⟩ := hnot
  have hstore : rget (wipedStore s) f i j = rget s f i j := (wipedStore_within s).rget _ _ _ (by rw [hf]; decide)
  unfold lcWipe
  split
  · refine (rget_rset_ne _ _ _ _ _ _ n4).trans ((rget_rset_ne _ _ _ _ _ _ n3).trans ((rget_rset_ne _ _ _ _ _ _ n2).trans
      ((rget_rset_ne _ _ _ _ _ _ n1).trans ?_)))
    exact hstore
  · split
    · exact hstore
    · split
      · exact (rget_rset_ne _ _ _ _ _ _ n2).trans hstore
      · split
        · exact rget_rset_ne _ _ _ _ _ _ n5
        · split
          · exact rget_rset_ne _ _ _ _ _ _ n5
          · exact eraseStages_within.rget _ _ _ (by rw [hf]; decide)

/-- The registers of the KSM after a transition, but for its nonce. -/
theorem lcMake_rget (s : State) (a dst : Nat) (f : Fld) (i j : Nat) (hf : f.id / 128 = blkCode .ksm)
    (h : f.id ≠ R.KSM_LC_NONCE_NONCE.id) : rget (lcMake s a dst) f i j =
      rget (rinc (rset (lcWipe s a dst) R.KSM_LC_STATE dst) R.KSM_LC_TRANSITIONS) f i j := by
  unfold lcMake
  dsimp only
  rw [raiseEv_within.rget _ _ _ (by rw [hf]; decide)]
  exact renewNonce_rget _ f i j h

theorem lcMake_state {dst : Nat} (s : State) (a : Nat) (h : dst < 8) : lcState (lcMake s a dst) = dst := by
  refine (lcMake_rget s a dst R.KSM_LC_STATE 0 0 (by decide) (by decide)).trans ((rget_rset_ne _ _ _ _ _ _ (by decide)).trans ?_)
  exact (rget_rset_self _ _ _ _ _).trans (Nat.mod_eq_of_lt h)

theorem lcMake_transitions (s : State) (a dst : Nat) : rget (lcMake s a dst) R.KSM_LC_TRANSITIONS =
    satTo R.KSM_LC_TRANSITIONS.width (rget s R.KSM_LC_TRANSITIONS + 1) := by
  have hbefore : rget (rset (lcWipe s a dst) R.KSM_LC_STATE dst) R.KSM_LC_TRANSITIONS = rget s R.KSM_LC_TRANSITIONS :=
    (rget_rset_ne _ _ _ _ _ _ (by decide)).trans (lcWipe_rget s a dst _ _ _ (by decide) (by decide))
  refine (lcMake_rget s a dst R.KSM_LC_TRANSITIONS 0 0 (by decide) (by decide)).trans ?_
  rw [rget_rinc_self, hbefore]

theorem lcMake_sealed (s : State) (a dst : Nat) : rget (lcMake s a dst) R.KSM_LC_SEALED = rget (lcWipe s a dst) R.KSM_LC_SEALED :=
  (lcMake_rget s a dst _ 0 0 (by decide) (by decide)).trans
    ((rget_rset_ne _ _ _ _ _ _ (by decide)).trans (rget_rset_ne _ _ _ _ _ _ (by decide)))

theorem lcMake_ksm (s : State) (a dst : Nat) : (lcMake s a dst).ksm = { (lcWipe s a dst).ksm with unfinished := none } := by
  unfold lcMake
  dsimp only
  rw [raiseEv_within.ksm.resolve_left (by simp)]
  exact (renewNonce_within.ksm.resolve_left (by simp)).trans rfl

theorem lcMake_aoc (s : State) (a dst : Nat) : (lcMake s a dst).aoc = { s.aoc with bootSeal := none } := by
  have hw : Within [.regs, .freeCount, .mem, .extMem, .log, .reqs, .till, .xlk, .nav, .sto, .ksm, .upd] (blks [.hlm, .jrn, .ksm, .upd]) s
      (renewNonce (rinc (rset (modKsm (lcWipe s a dst) fun k => { k with unfinished := none }) R.KSM_LC_STATE dst) R.KSM_LC_TRANSITIONS)) :=
    renewNonce_within.step (rinc_within.step (rset_within.step (modKsm_within.step (lcWipe_within.mono rfl rfl) rfl rfl) rfl rfl)
      rfl rfl) rfl rfl
  unfold lcMake
  dsimp only
  rw [raiseEv_within.aoc.resolve_left (by simp)]
  exact congrArg (fun a : Aoc => { a with bootSeal := none }) (hw.aoc.resolve_left (by simp))

/-- A transition on the way to RETIRED drops every credential. -/
theorem lcWipe_retires_ksm (s : State) (a : Nat) : (lcWipe s a 4).ksm =
    { s.ksm with memberCert := none, root := false, rootMarket := 0, intKeys := [] } := by
  rw [lcWipe_retires]
  exact congrArg (fun k : Ksm => { k with memberCert := none, root := false, rootMarket := 0, intKeys := [] })
    ((wipedStore_within s).ksm.resolve_left (by simp))

/-- Sealing and unsealing (R428). -/
theorem lcWipe_seals (s : State) {a : Nat} (h : a ≠ 0) : rget (lcWipe s a 3) R.KSM_LC_SEALED = 1 := by
  unfold lcWipe
  rw [if_neg (by decide), if_neg h, if_neg (by decide), if_pos rfl]
  exact rget_rset_self _ _ _ _ _

theorem lcWipe_unseals (s : State) : rget (lcWipe s 3 2) R.KSM_LC_SEALED = 0 := rget_rset_self _ _ _ _ _

theorem transitionOk_ne_zero (h : transitionOk s 3 = true) : lcState s ≠ 0 := by
  intro hz
  unfold transitionOk at h
  rw [hz] at h
  cases h

/-- The state that the reset of a transition takes over. -/
def lcMade (s : State) (dst : Nat) (r : Ref) : State := drainTill (complete (lcMake (disarmTke s) (lcState s) dst) r stDone)

theorem lcMade_step (s : State) (dst : Nat) (r : Ref) :
    Within [.regs, .rolLatch, .mem, .extMem, .arbs, .reqs, .till, .cqIrq, .irqs] (blks [.til, .arb, .msix, .cqr, .rng])
      (lcMake (disarmTke s) (lcState s) dst) (lcMade s dst r) :=
  drainTill_within.step (complete_within.mono rfl rfl) rfl rfl

theorem lcMade_frame (s : State) (dst : Nat) (r : Ref) : (lcMade s dst r).now = s.now ∧ (lcMade s dst r).pending = s.pending := by
  have hw : Within [.regs, .freeCount, .rolLatch, .mem, .extMem, .log, .arbs, .reqs, .till, .cqIrq, .irqs, .tke, .xlk, .nav, .sto, .ksm,
      .upd, .aoc] (blks [.tke, .hlm, .jrn, .ksm, .upd, .til, .arb, .msix, .cqr, .rng]) s (lcMade s dst r) :=
    (lcMade_step s dst r).step (lcMake_within.step (disarmTke_within.mono rfl rfl) rfl rfl) rfl rfl
  exact ⟨hw.now.resolve_left (by simp), hw.pending.resolve_left (by simp)⟩

theorem lcMade_ksm (s : State) (dst : Nat) (r : Ref) : (lcMade s dst r).ksm = { (lcWipe (disarmTke s) (lcState s) dst).ksm with unfinished := none } :=
  ((lcMade_step s dst r).ksm.resolve_left (by simp)).trans (lcMake_ksm _ _ _)

theorem lcMade_rget (s : State) (dst : Nat) (r : Ref) (f : Fld) (hf : f.id / 128 = blkCode .ksm) :
    rget (lcMade s dst r) f = rget (lcMake (disarmTke s) (lcState s) dst) f :=
  (lcMade_step s dst r).rget _ _ _ (by rw [hf]; decide)

/-- What the reset of a transition leaves of the life-cycle registers. -/
theorem lcReset_rget (s : State) (dst : Nat) (r : Ref) (f : Fld) (hf : f.id / 128 = blkCode .ksm) (h : f.id ≠ R.KSM_LC_NONCE_NONCE.id) :
    rget (resetTo (lcMade s dst r) kindFull 6 false) f = rget (lcMake (disarmTke s) (lcState s) dst) f :=
  (resetTo_lc _ _ _ _ f 0 0 hf h).trans (lcMade_rget s dst r f hf)

/-- What the reset of a transition leaves. -/
theorem lcReset_fields (s : State) (r : Ref) {dst : Nat} (h : dst < 8) :
    lcState (resetTo (lcMade s dst r) kindFull 6 false) = dst ∧
    rget (resetTo (lcMade s dst r) kindFull 6 false) R.KSM_LC_TRANSITIONS =
      satTo R.KSM_LC_TRANSITIONS.width (rget s R.KSM_LC_TRANSITIONS + 1) ∧
    (resetTo (lcMade s dst r) kindFull 6 false).aoc.bootSeal = none ∧ (resetTo (lcMade s dst r) kindFull 6 false).fabric = false ∧
    (resetTo (lcMade s dst r) kindFull 6 false).reqs = [] ∧ (resetTo (lcMade s dst r) kindFull 6 false).mem = [] ∧
    (resetTo (lcMade s dst r) kindFull 6 false).aoc.castFrom = some (s.now, 1) ∧
    rget (resetTo (lcMade s dst r) kindFull 6 false) R.AOC_RESET_CAUSE_SOURCE = 6 ∧
    (resetTo (lcMade s dst r) kindFull 6 false).pending = s.pending ∧
    (resetTo (lcMade s dst r) kindFull 6 false).ksm = { (lcWipe (disarmTke s) (lcState s) dst).ksm with unfinished := none } ∧
    rget (resetTo (lcMade s dst r) kindFull 6 false) R.KSM_LC_SEALED = rget (lcWipe (disarmTke s) (lcState s) dst) R.KSM_LC_SEALED := by
  obtain ⟨hnow, hpend⟩ := lcMade_frame s dst r
  refine ⟨?_, ?_, ?_, resetTo_fabric .., resetTo_reqs .., resetTo_mem _ _ (.inl (Nat.le_refl 1)), ?_, resetTo_source ..,
    (resetTo_pending ..).trans hpend, (resetTo_ksm ..).trans (lcMade_ksm ..), ?_⟩
  · exact (lcReset_rget _ _ _ _ (by decide) (by decide)).trans (lcMake_state _ _ h)
  · rw [lcReset_rget _ _ _ _ (by decide) (by decide), lcMake_transitions, disarmTke_within.rget _ _ _ (by decide)]
  · rw [resetTo_aoc _ _ _ (by decide), (lcMade_step _ _ _).aoc.resolve_left (by simp), lcMake_aoc]
  · rw [resetTo_castFrom, hnow]
    rfl
  · rw [lcReset_rget _ _ _ _ (by decide) (by decide), lcMake_sealed]

theorem disarmTke_frame (s : State) : (disarmTke s).reqs = s.reqs ∧ (disarmTke s).xlk = { s.xlk with swDisarmed := true } ∧
    (disarmTke s).tke = { s.tke with disarmAt := (disarmTke s).tke.disarmAt, disarmLast := (disarmTke s).tke.disarmLast } := by
  refine ⟨disarmTke_within.reqs.resolve_left (by simp), ?_, ?_⟩
  · unfold disarmTke
    dsimp only
    split <;> rfl
  · unfold disarmTke
    dsimp only
    split <;> rfl

/-! ### The statement -/

/-- Settles O46: a credential by its kind and state, a transition by the wipe, the registers and the reset it makes. -/
theorem lifeCycleAndKeys : Obligations.LifeCycleAndKeys := by
  have hopen {k st : Nat} (hk : k ≠ 6) (h : k = 0 ∨ k ≤ 5) (hst : st ≤ 1) : credOpen k st := by
    unfold credOpen
    rw [if_neg hk]
    split
    · omega
    · omega
  have hcred {s : State} {t : Fc} {r : Ref} {d : Desc} {v : State} (ok : Bool) (cert : Option Cert) (m : Nat) (b : List Nat)
      (hfab : s.fabric = true) (hd : heldDesc s r 0xB 0x82 = some d) (hdue : due (advance s t) d = true)
      (h : credSet (takeReq (advance s t) r) r d ok cert m b = v) : exec (.credSet t r ok cert m b) s = .next v :=
    (atFabric_desc hfab (fun d s => credSet s r d ok cert m b) hd hdue).trans (congrArg _ h)
  have hchange {s : State} {t : Fc} {r : Ref} {d : Desc} {v : State} (tok : List Nat) (sig cut : Bool)
      (hfab : s.fabric = true) (hd : heldDesc s r 0xB 0x80 = some d) (hdue : due (advance s t) d = true)
      (h : lcChange (takeReq (advance s t) r) r d tok sig cut = v) : exec (.lcChange t r tok sig cut) s = .next v :=
    (atFabric_desc hfab (fun d s => lcChange s r d tok sig cut) hd hdue).trans (congrArg _ h)
  unfold Obligations.LifeCycleAndKeys
  refine ⟨?cert, ?renewed, ?root, ?key, ?macs, ?notRenewed, ?closed, ?long, ?failed, ?pubkey, ?noKey, ?armed, ?noTransition, ?badToken,
    ?made, ?cut⟩
  case cert =>
    intro s t r d ok cert m b x hfab hd hdue hk hst hlen hok hx
    subst hx
    refine hcred ok (some x) m b hfab hd hdue ((credSet_installs (s := takeReq (advance s t) r) ?_ hok ?_ (fun _ => rfl) fun _ h2 => ?_).trans ?_)
    · exact hopen (by omega) (.inl hk) hst
    · rw [hk]
      exact decide_eq_true hlen
    · have h2' : lcState s = 2 := h2
      omega
    · rw [hk]
      rfl
  case renewed =>
    intro s t r d ok cert m b x h hfab hd hdue hk hst hlen hok hx hheld hroot hchain hname hmarket hpitch
    subst hx
    refine hcred ok (some x) m b hfab hd hdue ((credSet_installs (s := takeReq (advance s t) r) ?_ hok ?_ (fun _ => rfl) fun _ _ => ?_).trans ?_)
    · unfold credOpen
      rw [if_neg (by omega), if_pos hk]
      exact .inr (.inr hst)
    · rw [hk]
      exact decide_eq_true hlen
    · exact certRenews_same (s := takeReq (advance s t) r) hheld hroot hchain hname hmarket hpitch
    · rw [hk]
      rfl
  case root =>
    intro s t r d ok cert m b hfab hd hdue hk hst hlen hok
    refine hcred ok cert m b hfab hd hdue ((credSet_installs (s := takeReq (advance s t) r) ?_ hok ?_ (fun h => ?_) fun h => ?_).trans ?_)
    · exact hopen (by omega) (.inr (by omega)) hst
    · rw [hk]
      exact decide_eq_true hlen
    · omega
    · omega
    · rw [hk]
      rfl
  case key =>
    intro s t r d ok cert m b hfab hd hdue h2 h5 hst hok hlen
    refine hcred ok cert m b hfab hd hdue ((credSet_installs (s := takeReq (advance s t) r) ?_ hok ?_ (fun h => ?_) fun h => ?_).trans ?_)
    · exact hopen (by omega) (.inr h5) hst
    · unfold credFits
      rw [if_neg (by omega), if_pos h2, hlen]
      rfl
    · omega
    · omega
    · rw [credInstall_key h2 h5]
      rfl
  case macs =>
    intro s t r d ok cert m b hfab hd hdue hk hst hok hlen
    refine hcred ok cert m b hfab hd hdue ((credSet_installs (s := takeReq (advance s t) r) ?_ hok ?_ (fun h => ?_) fun h => ?_).trans ?_)
    · rw [hk]
      exact hst
    · rw [hk, hlen]
      rfl
    · omega
    · omega
    · rw [hk]
      rfl
  case notRenewed =>
    intro s t r d ok cert m b hfab hd hdue hk hst hno
    refine hcred ok cert m b hfab hd hdue (credSet_fails (s := takeReq (advance s t) r) ?_ (.inr (.inr ⟨hk, hst, hno⟩)))
    unfold credOpen
    rw [if_neg (by omega), if_pos hk]
    exact .inr (.inr hst)
  case closed =>
    intro s t r d ok cert m b hfab hd hdue h
    refine hcred ok cert m b hfab hd hdue (credSet_closed (s := takeReq (advance s t) r) ?_)
    show ¬ credOpen _ (lcState s)
    unfold credOpen
    split
    · omega
    · split
      · omega
      · omega
  case long =>
    intro s t r d ok cert m b hfab hd hdue hk hst hlen
    refine hcred ok cert m b hfab hd hdue (credSet_fails (s := takeReq (advance s t) r) (hopen (by omega) (.inr (by omega)) hst) (.inr (.inl ?_)))
    unfold credFits
    rw [if_neg (by omega), if_neg (by omega)]
    exact decide_eq_false (Nat.not_le.mpr hlen)
  case failed =>
    intro s t r d ok cert m b hfab hd hdue hk hst hok
    exact hcred ok cert m b hfab hd hdue (credSet_fails (s := takeReq (advance s t) r) (hopen (by omega) (.inr hk) hst) (.inl hok))
  case pubkey =>
    intro s t r d hfab hd hdue hkey hm he
    have hv : pubkeyGet (takeReq (advance s t) r) r d = complete (hostWrite (takeReq (advance s t) r) (refHost (takeReq (advance s t) r) r)
      (d.quad 0x10) ((List.range 97).map fun k => BitVec.ofNat 8 (Config.devicePublicKey k))) r stDone := if_pos hkey
    have hw : Within [.mem, .extMem, .reqs, .till] [] (takeReq (advance s t) r) (pubkeyGet (takeReq (advance s t) r) r d) := by
      rw [hv]
      exact complete_within.step (hostWrite_within.mono rfl rfl) rfl rfl
    refine ⟨_, atFabric_desc hfab (fun d s => pubkeyGet s r d) hd hdue, fun k hk => ?_, ?_, ?_⟩
    · rw [hv, complete_mem, complete_extMem]
      refine (hostWrite_read (s := takeReq (advance s t) r) (h := refHost s r) hm he ?_ ?_).trans (getD_map_range _ _ hk)
      · rw [List.length_map, List.length_range]
        decide
      · rw [List.length_map, List.length_range]
        exact hk
    · rw [hv]
      exact complete_reqs_congr (hostWrite_within.reqs.resolve_left (by simp)) _ _ _ _
    · exact (hw.step (takeReq_within.mono (ps := [.mem, .extMem, .reqs, .till]) rfl rfl) rfl rfl :
        Within [.mem, .extMem, .reqs, .till] [] (advance s t) _).eq_frame
  case noKey =>
    intro s t r d hfab hd hdue hkey
    exact (atFabric_desc hfab (fun d s => pubkeyGet s r d) hd hdue).trans (congrArg _
      (if_neg (by rw [show rbit (takeReq (advance s t) r) R.KSM_KEYS_DEVICE_KEY = false from hkey]; decide)))
  case armed =>
    intro s t r d tok sig cut hfab hd hdue h
    exact hchange tok sig cut hfab hd hdue (lcChange_armed (s := takeReq (advance s t) r) h)
  case noTransition =>
    intro s t r d tok sig cut hfab hd hdue h0 h1 htr
    exact hchange tok sig cut hfab hd hdue ((lcChange_unarmed (s := takeReq (advance s t) r) h0 h1).trans
      (if_pos (by rw [show transitionOk (takeReq (advance s t) r) _ = false from htr]; rfl)))
  case badToken =>
    intro s t r d tok sig cut hfab hd hdue h0 h1 htr htok
    exact hchange tok sig cut hfab hd hdue ((lcChange_unarmed (s := takeReq (advance s t) r) h0 h1).trans
      ((if_neg (by rw [show transitionOk (takeReq (advance s t) r) _ = true from htr]; decide)).trans
        (if_pos (by rw [show tokenOk (takeReq (advance s t) r) _ _ _ = false from htok]; rfl))))
  case made =>
    intro s t r d tok sig cut hfab hd hdue h0 h1 htr htok hcut
    subst hcut
    have hv : lcChange (takeReq (advance s t) r) r d tok sig false =
        resetTo (lcMade (takeReq (advance s t) r) (d.classWord % 8) r) kindFull 6 false :=
      (lcChange_permitted (s := takeReq (advance s t) r) (r := r) h0 h1 htr htok (cut := false)).trans (if_neg (by decide))
    obtain ⟨f1, f2, f3, f4, f5, f6, f7, f8, f9, f10, f11⟩ := lcReset_fields (takeReq (advance s t) r) r (Nat.mod_lt d.classWord (by decide))
    refine ⟨_, hchange tok sig false hfab hd hdue hv, f1, f2, f3, f4, f5, f6, f7, f8, f9, fun h4 => ?_, fun h3 => ?_, fun h3 h2 => ?_⟩
    · rw [f10, h4, lcWipe_retires_ksm]
      exact ⟨rfl, rfl, rfl⟩
    · rw [f11]
      rw [h3] at htr ⊢
      exact lcWipe_seals _ (transitionOk_ne_zero htr)
    · rw [f11, h2, show lcState (takeReq (advance s t) r) = 3 from h3]
      exact lcWipe_unseals _
  case cut =>
    intro s t r d tok sig cut hfab hd hdue h0 h1 htr htok hcut
    subst hcut
    have hv := (lcChange_permitted (s := takeReq (advance s t) r) (r := r) h0 h1 htr htok (cut := true)).trans (if_pos rfl)
    obtain ⟨hreqs, hxlk, htke⟩ := disarmTke_frame (takeReq (advance s t) r)
    obtain ⟨harmed, -, -, -⟩ := disarmTke_fields (takeReq (advance s t) r)
    have hw : Within [.regs, .ksm, .xlk, .tke, .reqs] (blks [.tke]) (advance s t)
        (modKsm (disarmTke (takeReq (advance s t) r)) fun k => { k with unfinished := some (lcState s, d.classWord % 8) }) :=
      modKsm_within.step (disarmTke_within.step (takeReq_within.mono rfl rfl) rfl rfl) rfl rfl
    refine ⟨_, hchange tok sig true hfab hd hdue hv, ?_, ?_, harmed, hreqs, hw.blocksOnly, htke, hxlk, hw.eq_frame⟩
    · exact congrArg (fun k : Ksm => { k with unfinished := some (lcState s, d.classWord % 8) })
        (disarmTke_within.ksm.resolve_left (by simp))
    · exact disarmTke_within.rget _ _ _ (by decide)

end Sys2Proof.Machine
end

section
/-! Cast-on (R414, R415, R439): what its stages leave. -/

namespace Sys2Proof.Machine

variable {s u : State} {x : CastIn} {first : Nat}

/-! ### The stages -/

/-- Module time before the stages. -/
def timeLoaded (s : State) (first : Nat) : State := if first = 1 ∨ timeState s = timeNone then loadRtc s else s

theorem timeLoaded_within (s : State) (first : Nat) : Within [.timeOff, .nav] [] s (timeLoaded s first) :=
  within_ite loadRtc_within (.refl _)

theorem castOn_stages {a : Nat} (hfrom : s.aoc.castFrom = some (a, first)) (hfab : s.fabric = false) (hlogic : s.aoc.logic = true)
    (hpower : s.aoc.power = 0) : castOn s x = castStages (timeLoaded s first) first x := by
  unfold castOn
  rw [hfrom]
  exact if_neg (by rw [hfab, hlogic, hpower]; decide)

/-- The store link runs, and the previous bank is active again where a trial ended in a reset. -/
def linkUp (s : State) : State := if (rset s R.STO_LIFE_LINK_UP 1).upd.revert then revertBank (rset s R.STO_LIFE_LINK_UP 1) else rset s R.STO_LIFE_LINK_UP 1

/-- The verification of the image, and its verdict. -/
def castVerified (s : State) (first : Nat) (x : CastIn) : State × Bool :=
  if first ≤ 5 then bootVerify (makeKey (linkUp s)) x else (rset (linkUp s) R.AOC_CASTON_SEAL_USED 0, bankBootable (linkUp s))

/-- Stage 8 and the start of navigation. -/
def castInit (s : State) (first : Nat) (x : CastIn) : State :=
  let s4 := fabricInit s x.badInputs
  if first = 1 ∨ rget s4 R.NAV_STATE_START_KIND = 0 then navStart s4 else renewTpNext s4

/-- The image that runs for the first time is told. -/
def activationTold (s : State) : State :=
  if s.upd.fresh then
    raiseEv (modSto (modUpd s fun u => { u with fresh := false }) fun m => { m with activations := m.activations + 1 })
      evUpdActivated
  else s

/-- The counts at the end, and stage 9. -/
def castEnd (s : State) : State :=
  rset (modSto (activationTold s) fun m => { m with castOns := m.castOns + 1 }) R.AOC_CASTON_STAGE 9

theorem castStages_passes (h : (castVerified s first x).2 = true) : castStages s first x =
    castEnd (castInit (finishChange (if first = 1 then copyPending (castVerified s first x).1 x.copyFault else (castVerified s first x).1))
      first x) := by
  have hneg : ¬ ((!(castVerified s first x).2) = true) := by rw [h]; decide
  exact if_neg hneg

theorem castStages_fails (h : (castVerified s first x).2 = false) : castStages s first x =
    rset (modAoc (castVerified s first x).1 fun a => { a with castFrom := none }) R.AOC_CASTON_STAGE 15 := by
  have hpos : (!(castVerified s first x).2) = true := by rw [h]; rfl
  exact if_pos hpos

/-! ### The fabric -/

theorem rowNow_zeroed (s : State) : rowNow (rset64 s R.TKE_ROW_LO_ROW R.TKE_ROW_HI_ROW 0) = 0 :=
  rget64_rset64 s 0 rfl rfl (by decide)

/-- The fabric at the start of the tick, before the self-test of the converters. -/
def tickBegun (s : State) : State :=
  let s1 := debugAccess (rset64 s R.TKE_ROW_LO_ROW R.TKE_ROW_HI_ROW 0)
  let k := tickSettings s1
  { s1 with
    fabric := true
    tke := { s1.tke with
      running := true, rowStart := s1.now, rowLen := k.periodUs * fcUs, edgeTime := moduleTime s1, inForce := k }
    hlm := { s1.hlm with runFrom := some s1.now } }

theorem castInit_step (s : State) (first : Nat) (x : CastIn) :
    Within [.regs, .mem, .extMem, .log, .sfe] (blks [.hlm, .jrn, .sfe, .nav]) (tickBegun s) (castInit s first x) := by
  have htest : Within [.regs, .mem, .extMem, .log, .sfe] (blks [.hlm, .jrn, .sfe, .nav]) (tickBegun s) (fabricInit s x.badInputs) :=
    foldl_within (fun _ _ hu => selfTest_within.step hu rfl rfl) (.refl _)
  exact within_ite (navStart_within.step htest rfl rfl) (renewTpNext_within.step htest rfl rfl)

theorem castInit_within (s : State) (first : Nat) (x : CastIn) : Within [.regs, .fabric, .mem, .extMem, .log, .tke, .sfe, .hlm]
    (blks [.hlm, .jrn, .sfe, .arb, .tke, .nav]) s (castInit s first x) :=
  within_ite (navStart_within.step (fabricInit_within.mono rfl rfl) rfl rfl)
    (renewTpNext_within.step (fabricInit_within.mono rfl rfl) rfl rfl)

/-- After stage 8 the fabric runs, the row counter is 0 and the first row begins. -/
theorem castInit_runs (s : State) (first : Nat) (x : CastIn) : (castInit s first x).fabric = true ∧ rowNow (castInit s first x) = 0 ∧
    (castInit s first x).tke.running = true ∧ (castInit s first x).tke.rowStart = s.now ∧ tkeArmed (castInit s first x) = tkeArmed s := by
  have hstep := castInit_step s first x
  have htke : (castInit s first x).tke = (tickBegun s).tke := hstep.tke.resolve_left (by simp)
  have hregs (f : Fld) (hf : f.id / 128 = blkCode .tke) : rget (castInit s first x) f =
      rget (rset64 s R.TKE_ROW_LO_ROW R.TKE_ROW_HI_ROW 0) f := by
    rw [hstep.rget _ _ _ (by rw [hf]; decide)]
    exact debugAccess_within.rget _ _ _ (by rw [hf]; decide)
  have hzero := rowNow_zeroed s
  have hdebug : Within [.regs] (blks [.arb, .tke]) s (debugAccess (rset64 s R.TKE_ROW_LO_ROW R.TKE_ROW_HI_ROW 0)) :=
    debugAccess_within.step (rset64_within.mono rfl rfl) rfl rfl
  refine ⟨(hstep.fabric.resolve_left (by simp)).trans rfl, ?_, ?_, ?_, ?_⟩
  · unfold rowNow rget64 at hzero ⊢
    rw [hregs _ (by decide), hregs _ (by decide), hzero]
  · rw [htke]
    rfl
  · rw [htke]
    exact hdebug.now.resolve_left (by simp)
  · refine congrArg (fun n => n == 1) ((hregs R.TKE_CTRL_ARMED (by decide)).trans ?_)
    exact (rget_rset_ne _ _ _ _ _ _ (by decide)).trans (rget_rset_ne _ _ _ _ _ _ (by decide))

/-! ### The end -/

theorem activationTold_fields (s : State) : (activationTold s).sto = { s.sto with
      activations := s.sto.activations + (if s.upd.fresh then 1 else 0) } ∧ (activationTold s).upd = { s.upd with fresh := false } ∧
    Within [.regs, .mem, .extMem, .log, .sto, .upd] (blks [.hlm, .jrn]) s (activationTold s) := by
  unfold activationTold
  by_cases h : s.upd.fresh = true
  · rw [if_pos h, if_pos h]
    exact ⟨raiseEv_within.sto.resolve_left (by simp), raiseEv_within.upd.resolve_left (by simp),
      raiseEv_within.step (modSto_within.step (modUpd_within.mono rfl rfl) rfl rfl) rfl rfl⟩
  · rw [if_neg h, if_neg h]
    refine ⟨rfl, ?_, .refl _⟩
    rw [Bool.not_eq_true] at h
    rw [← h]

theorem castEnd_fields (s : State) : (castEnd s).sto = { s.sto with
      castOns := s.sto.castOns + 1, activations := s.sto.activations + (if s.upd.fresh then 1 else 0) } ∧
    (castEnd s).upd = { s.upd with fresh := false } ∧ rget (castEnd s) R.AOC_CASTON_STAGE = 9 ∧
    Within [.regs, .mem, .extMem, .log, .sto, .upd] (blks [.hlm, .jrn, .aoc]) s (castEnd s) := by
  obtain ⟨hsto, hupd, hw⟩ := activationTold_fields s
  refine ⟨?_, hupd, rget_rset_self _ _ _ _ _, rset_within.step (modSto_within.step (hw.mono rfl rfl) rfl rfl) rfl rfl⟩
  show ({ (activationTold s).sto with castOns := (activationTold s).sto.castOns + 1 } : Sto) = _
  rw [hsto]

/-- After a cast-on that passes, a field that its last stages leave alone reads as before them. -/
theorem castPassed_rget (s : State) (first : Nat) (x : CastIn) (f : Fld) (hf : f.id / 128 ∉ blks [.hlm, .jrn, .sfe, .arb, .tke, .nav])
    (hstage : f.id ≠ R.AOC_CASTON_STAGE.id) : rget (castEnd (castInit s first x)) f = rget s f := by
  obtain ⟨-, -, hw⟩ := activationTold_fields (castInit s first x)
  refine (rget_rset_ne _ _ _ _ _ _ hstage).trans ?_
  exact (hw.step ((castInit_within s first x).mono (ps := [.regs, .fabric, .mem, .extMem, .log, .tke, .sfe, .hlm, .sto, .upd]) rfl rfl)
    rfl rfl : Within _ (blks [.hlm, .jrn, .sfe, .arb, .tke, .nav]) s _).rget _ _ _ hf

theorem castPassed_within (s : State) (first : Nat) (x : CastIn) :
    Within [.regs, .fabric, .mem, .extMem, .log, .tke, .sfe, .hlm, .sto, .upd] (blks [.hlm, .jrn, .sfe, .arb, .tke, .nav, .aoc]) s
      (castEnd (castInit s first x)) := by
  obtain ⟨-, -, -, hw⟩ := castEnd_fields (castInit s first x)
  exact hw.step ((castInit_within s first x).mono rfl rfl) rfl rfl

/-- What a cast-on that passes leaves, whatever the image. -/
theorem castPassed_fields (s : State) (first : Nat) (x : CastIn) :
    (castEnd (castInit s first x)).fabric = true ∧ rowNow (castEnd (castInit s first x)) = 0 ∧
    (castEnd (castInit s first x)).tke.running = true ∧ (castEnd (castInit s first x)).tke.rowStart = s.now ∧
    tkeArmed (castEnd (castInit s first x)) = tkeArmed s ∧ rget (castEnd (castInit s first x)) R.AOC_CASTON_STAGE = 9 ∧
    (castEnd (castInit s first x)).sto = { s.sto with
      castOns := s.sto.castOns + 1, activations := s.sto.activations + (if s.upd.fresh then 1 else 0) } ∧
    (castEnd (castInit s first x)).upd = { s.upd with fresh := false } ∧ (castEnd (castInit s first x)).aoc = s.aoc := by
  obtain ⟨hfab, hrow, hrun, hstart, harmed⟩ := castInit_runs s first x
  obtain ⟨hsto, hupd, hstage, hw⟩ := castEnd_fields (castInit s first x)
  have htke : (castEnd (castInit s first x)).tke = (castInit s first x).tke := hw.tke.resolve_left (by simp)
  refine ⟨(hw.fabric.resolve_left (by simp)).trans hfab, ?_, ?_, ?_, ?_, hstage, ?_, ?_, ?_⟩
  · unfold rowNow rget64 at hrow ⊢
    rw [hw.rget _ _ _ (by decide), hw.rget _ _ _ (by decide)]
    exact hrow
  · rw [htke]
    exact hrun
  · rw [htke]
    exact hstart
  · exact (congrArg (fun n => n == 1) (hw.rget _ _ _ (by decide))).trans harmed
  · rw [hsto, (castInit_within s first x).sto.resolve_left (by simp), (castInit_within s first x).upd.resolve_left (by simp)]
  · rw [hupd, (castInit_within s first x).upd.resolve_left (by simp)]
  · rw [hw.aoc.resolve_left (by simp), (castInit_within s first x).aoc.resolve_left (by simp)]

/-! ### Verification -/

theorem linkUp_kept (h : s.upd.revert = false) : linkUp s = rset s R.STO_LIFE_LINK_UP 1 := if_neg (ne_true_of_eq_false h)

theorem linkUp_reverted (h : s.upd.revert = true) : linkUp s = revertBank (rset s R.STO_LIFE_LINK_UP 1) := if_pos h

/-- Whether a bank may be booted hangs on UPD alone. -/
theorem bankBootable_congr (hupd : u.upd = s.upd) (hregs : ∀ f : Fld, f.id / 128 = blkCode .upd → rget u f = rget s f) :
    bankBootable u = bankBootable s := by
  unfold bankBootable fuseCounter
  rw [hupd, hregs _ (by decide), hregs _ (by decide), hregs _ (by decide)]

theorem sealHeld_congr (haoc : u.aoc = s.aoc) (hregs : ∀ f : Fld, f.id / 128 = blkCode .upd → rget u f = rget s f) :
    sealHeld u = sealHeld s := by
  unfold sealHeld
  rw [haoc, hregs _ (by decide)]

theorem bootVerify_passes (hboot : bankBootable s = true) (hok : (if sealHeld s then x.sealOk else x.verifyOk) = true) :
    bootVerify s x = (modAoc (rsetB s R.AOC_CASTON_SEAL_USED (sealHeld s)) fun a =>
      { a with bootSeal := some (rget s R.UPD_STATUS_ACTIVE_BANK) }, true) := by
  unfold bootVerify
  dsimp only
  rw [hboot, hok]
  exact if_pos rfl

theorem bootVerify_fails (h : bankBootable s = false ∨ (if sealHeld s then x.sealOk else x.verifyOk) = false) :
    bootVerify s x = (modUpd (modAoc (rset (rsetB s R.AOC_CASTON_SEAL_USED (sealHeld s)) R.AOC_CASTON_STAGE 15) fun a =>
      { a with castFrom := none, bootSeal := none }) fun u => { u with revert := rbit s R.UPD_STATUS_TRIAL }, false) := by
  have hno : (bankBootable s && (if sealHeld s then x.sealOk else x.verifyOk)) = false := by
    obtain h | h := h
    · rw [h, Bool.false_and]
    · rw [h, Bool.and_false]
  unfold bootVerify
  dsimp only
  rw [hno]
  exact if_neg (by decide)

theorem copyPending_idle (h : rbit s R.UPD_STATUS_PENDING = false) (f : Option (Bool × Nat × Nat)) : copyPending s f = s :=
  if_pos (by rw [h]; rfl)

/-- The pending image stands in the other bank. -/
def pendingBanked (s : State) (i : Image) : State :=
  modUpd (rset s R.UPD_STATUS_PENDING 0) fun u => { u with banks := tblSet u.banks (otherBank s) i }

/-- The other bank, with the pending image, is active. -/
def pendingCopied (s : State) (i : Image) : State :=
  modAoc (takeBank (pendingBanked s i) (pendingSlot s)) fun a => { a with bootSeal := some (otherBank s) }

theorem copyPending_copies {i : Image} (h : rbit s R.UPD_STATUS_PENDING = true) (hi : (getSlot s (pendingSlot s)).image = some i) :
    copyPending s none = pendingCopied s i := by
  unfold copyPending
  rw [if_neg (by rw [h]; decide)]
  dsimp only
  rw [hi]
  rfl

theorem otherBank_le (s : State) : otherBank s ≤ 1 := Nat.sub_le _ _

theorem finishChange_none (h : s.ksm.unfinished = none) : finishChange s = s := by
  unfold finishChange
  rw [h]

/-- A slot's bank taken, a field of UPD that the slot's registers and the versions are not. -/
theorem takeBank_rget (s : State) (k : Nat) (f : Fld)
    (hf : f.id ∉ [R.UPD_VERSION_ACTIVE_VERSION.id, R.UPD_VERSION_PREV_VERSION.id, R.UPD_BLOCKS_A_MISSING.id, R.UPD_BLOCKS_B_MISSING.id,
      R.UPD_STATUS_SLOT_A.id, R.UPD_STATUS_SLOT_B.id]) :
    rget (takeBank s k) f = rget (rset (rset (rset s R.UPD_STATUS_ACTIVE_BANK (otherBank s)) R.UPD_STATUS_TRIAL 1) R.UPD_STATUS_LAST_RESULT 1) f := by
  simp only [List.mem_cons, List.not_mem_nil, or_false, not_or] at hf
  obtain ⟨h1, h2, h3, h4, h5, h6⟩ := hf
  have hmissing : f.id ≠ (if k = 0 then R.UPD_BLOCKS_A_MISSING else R.UPD_BLOCKS_B_MISSING).id := by split <;> assumption
  have hslot : f.id ≠ (if k = 0 then R.UPD_STATUS_SLOT_A else R.UPD_STATUS_SLOT_B).id := by split <;> assumption
  exact (rget_rset_ne _ _ _ _ _ _ h2).trans ((rget_rset_ne _ _ _ _ _ _ h1).trans ((rget_rset_ne _ _ _ _ _ _ hmissing).trans
    (rget_rset_ne _ _ _ _ _ _ hslot)))

theorem takeBank_slot (s : State) (k : Nat) : slotState (takeBank s k) k = 0 := by
  unfold slotState takeBank setVersions setMissing setSlotState
  dsimp only
  split
  · rw [rget_rset_ne _ _ _ _ _ _ (by decide), rget_rset_ne _ _ _ _ _ _ (by decide), rget_rset_ne _ _ _ _ _ _ (by decide)]
    exact rget_rset_self _ _ _ _ _
  · rw [rget_rset_ne _ _ _ _ _ _ (by decide), rget_rset_ne _ _ _ _ _ _ (by decide), rget_rset_ne _ _ _ _ _ _ (by decide)]
    exact rget_rset_self _ _ _ _ _

theorem takeBank_upd (s : State) (k : Nat) : (takeBank s k).upd = { s.upd with
    slots := tblErase s.upd.slots k, copying := none, resetAfter := none, fresh := true, revert := false } := rfl

theorem pendingBanked_otherBank (s : State) (i : Image) : otherBank (pendingBanked s i) = otherBank s :=
  congrArg (1 - ·) (rget_rset_ne _ _ _ _ _ _ (by decide))

theorem pendingCopied_status (s : State) (i : Image) : rget (pendingCopied s i) R.UPD_STATUS_ACTIVE_BANK = otherBank s ∧
    rget (pendingCopied s i) R.UPD_STATUS_PENDING = 0 ∧ rget (pendingCopied s i) R.UPD_STATUS_TRIAL = 1 ∧
    slotState (pendingCopied s i) (pendingSlot s) = 0 := by
  refine ⟨(takeBank_rget (pendingBanked s i) (pendingSlot s) _ (by decide)).trans ?_,
    (takeBank_rget (pendingBanked s i) (pendingSlot s) _ (by decide)).trans ?_,
    (takeBank_rget (pendingBanked s i) (pendingSlot s) _ (by decide)).trans ?_, takeBank_slot (pendingBanked s i) (pendingSlot s)⟩
  · rw [rget_rset_ne _ _ _ _ _ _ (by decide), rget_rset_ne _ _ _ _ _ _ (by decide), rget_rset_self, pendingBanked_otherBank]
    exact Nat.mod_eq_of_lt (Nat.lt_succ_of_le (otherBank_le s))
  · rw [rget_rset_ne _ _ _ _ _ _ (by decide), rget_rset_ne _ _ _ _ _ _ (by decide), rget_rset_ne _ _ _ _ _ _ (by decide)]
    exact rget_rset_self _ _ _ _ _
  · rw [rget_rset_ne _ _ _ _ _ _ (by decide)]
    exact rget_rset_self _ _ _ _ _

theorem pendingCopied_banks (s : State) (i : Image) : tblGet? (pendingCopied s i).upd.banks (otherBank s) = some i := by
  have hupd : (pendingCopied s i).upd = (takeBank (pendingBanked s i) (pendingSlot s)).upd := rfl
  rw [hupd, takeBank_upd]
  exact tblGet?_set_self _ _ _

theorem pendingCopied_ksm (s : State) (i : Image) : (pendingCopied s i).ksm = s.ksm := by
  have hksm : (pendingCopied s i).ksm = (takeBank (pendingBanked s i) (pendingSlot s)).ksm := rfl
  rw [hksm, takeBank_within.ksm.resolve_left (by simp)]
  rfl

theorem revertBank_upd (s : State) : (revertBank s).upd = { s.upd with revert := false, fresh := false } := by
  unfold revertBank
  dsimp only
  rw [raiseEv_within.upd.resolve_left (by simp), setVersions_within.upd.resolve_left (by simp)]
  rfl

theorem revertBank_rget (s : State) (f : Fld) (hf : f.id / 128 = blkCode .upd) (h1 : f.id ≠ R.UPD_VERSION_ACTIVE_VERSION.id)
    (h2 : f.id ≠ R.UPD_VERSION_PREV_VERSION.id) : rget (revertBank s) f =
      rget (rset (rset (rset s R.UPD_STATUS_ACTIVE_BANK (otherBank s)) R.UPD_STATUS_TRIAL 0) R.UPD_STATUS_LAST_RESULT 2) f := by
  unfold revertBank
  dsimp only
  rw [raiseEv_within.rget _ _ _ (by rw [hf]; decide)]
  exact (rget_rset_ne _ _ _ _ _ _ h2).trans (rget_rset_ne _ _ _ _ _ _ h1)

theorem revertBank_fields (s : State) : rget (revertBank s) R.UPD_STATUS_ACTIVE_BANK = otherBank s ∧ rget (revertBank s) R.UPD_STATUS_TRIAL = 0 ∧
    rget (revertBank s) R.UPD_STATUS_LAST_RESULT = 2 := by
  rw [revertBank_rget _ _ (by decide) (by decide) (by decide), revertBank_rget _ _ (by decide) (by decide) (by decide),
    revertBank_rget _ _ (by decide) (by decide) (by decide)]
  refine ⟨?_, ?_, rget_rset_self _ _ _ _ _⟩
  · rw [rget_rset_ne _ _ _ _ _ _ (by decide), rget_rset_ne _ _ _ _ _ _ (by decide), rget_rset_self]
    exact Nat.mod_eq_of_lt (Nat.lt_succ_of_le (otherBank_le s))
  · rw [rget_rset_ne _ _ _ _ _ _ (by decide)]
    exact rget_rset_self _ _ _ _ _

end Sys2Proof.Machine
end

section
/-! O45: the supply, cast-on and the resets by power-fail, software and watchdog (R407–R423, R439). -/

namespace Sys2Proof.Machine

variable {s u : State} {t : Fc} {x : CastIn} {first : Nat}

/-! ### The supply -/

theorem rget_rsetB_self (s : State) (f : Fld) (b : Bool) (h : 1 ≤ f.width) : rget (rsetB s f b) f = b2n b := by
  refine (rget_rset_self _ _ _ _ _).trans (Nat.mod_eq_of_lt ?_)
  have hpow : 2 ^ 1 ≤ 2 ^ f.width := Nat.pow_le_pow_right (by decide) h
  cases b
  · exact lt_of_lt_of_le (by decide) hpow
  · exact lt_of_lt_of_le (by decide) hpow

theorem logicThrottle_fields (s : State) {mv : Nat} (h : mv < 1024) : rget (logicThrottle s mv) R.AOC_SUPPLY_LOGIC_100MV = mv ∧
    rget (logicThrottle s mv) R.AOC_PWR_STATE_THROTTLED = b2n (decide (mv ≤ 120) || slackLimited s) ∧
    RegsOnly s (logicThrottle s mv) [R.AOC_SUPPLY_LOGIC_100MV.key 0 0, R.AOC_PWR_STATE_THROTTLED.key 0 0] := by
  refine ⟨?_, rget_rsetB_self _ _ _ (by decide), ?_⟩
  · exact (rget_rset_ne _ _ _ _ _ _ (by decide)).trans ((rget_rset_self _ _ _ _ _).trans (Nat.mod_eq_of_lt h))
  · exact (rset_regsOnly _ _ _ _ _ (by simp)).trans (rset_regsOnly _ _ _ _ _ (by simp))

/-- The supply has qualified: a cast-on from stage 1 begins. -/
def supplyBack (s : State) (mv : Nat) : State :=
  modAoc (logicThrottle s mv) fun a => { a with logic := true, failAt := none, castFrom := some (s.now, 1) }

theorem logicQualified_back {mv : Nat} (hlogic : s.aoc.logic = false) (hmv : 80 < mv) : logicQualified s mv =
    if s.aoc.kept then supplyBack s mv else wakeRaise (noteWake (supplyBack s mv) 64) := by
  refine if_neg ?_
  rw [hlogic]
  rintro (h | h)
  · cases h
  · omega

theorem noteWake_logic (s : State) (mask : Nat) : rget (noteWake s mask) R.AOC_WAKE_CAUSE_LOGIC = b2n (bitOf mask 6) := by
  have hlast : noteWake s mask = rolEvent ((List.range 6).foldl (fun s k =>
      rolEvent s (wakeFields.getD k R.AOC_WAKE_CAUSE_IGN) (b2n (bitOf mask k))) s) R.AOC_WAKE_CAUSE_LOGIC (b2n (bitOf mask 6)) := by
    unfold noteWake
    rw [List.range_succ, List.foldl_append]
    rfl
  rw [hlast]
  refine (rget_rset_self _ _ _ _ _).trans ?_
  cases bitOf mask 6 <;> rfl

/-! ### Resets -/

theorem noteCause_aoc (s : State) (kind source : Nat) : (noteCause s kind source).aoc =
    { s.aoc with castFrom := some (s.now, firstStage kind) } := rfl

/-- A power-on leaves AOC and the always-on SRAM as at first. -/
theorem resetTo_powerOn (s : State) (source : Nat) (wipe : Bool) :
    (resetTo s kindPowerOn source wipe).aoc = { Aoc.reset with castFrom := some (s.now, 1) } ∧
    (resetTo s kindPowerOn source wipe).nav.saved = none := by
  have hdom : domainsReset s kindPowerOn source wipe = resetAon (resetOuter (fabricReset s kindPowerOn source wipe)) := by
    unfold domainsReset
    dsimp only
    rw [if_pos (by decide : kindPowerOn ≤ 1), if_pos (by decide : kindPowerOn = 0)]
  have haoc : (dramReset s kindPowerOn source wipe).aoc = Aoc.reset := by
    rw [(dramReset_step ..).aoc.resolve_left (by simp), hdom]
    rfl
  refine ⟨?_, ?_⟩
  · rw [resetTo_eq, noteCause_aoc, dramReset_now, haoc]
    rfl
  · rw [resetTo_eq, noteCause_within.nav.resolve_left (by simp), (dramReset_step ..).nav.resolve_left (by simp), hdom]
    rfl

theorem aonLoss_low {mv : Nat} (h : mv < 30) : aonLoss s mv =
    modAoc (rset (resetTo s kindPowerOn 0 false) R.AOC_SUPPLY_LOGIC_100MV mv) fun a => { a with castFrom := none } := if_pos (.inl h)

theorem aonLoss_none {mv : Nat} (h : 30 ≤ mv) (hfail : s.aoc.failAt = none) : aonLoss s mv = s := by
  unfold aonLoss
  rw [hfail]
  exact if_neg (by simpa using h)

/-- The state that the reset of a power-fail takes over. -/
def powerFailing (s : State) (mv pages : Nat) : State := raiseEv (finishPage (rset s R.AOC_SUPPLY_LOGIC_100MV mv) pages) evPwrLogicFail

theorem powerFail_low {mv : Nat} (pages : Nat) (h : mv < 70) (hlogic : s.aoc.logic = true) : powerFail s mv pages =
    modAoc (resetTo (powerFailing s mv pages) kindFull 3 false) fun a =>
      { a with logic := false, kept := true, failAt := some s.now, castFrom := none } :=
  if_neg (by rw [hlogic]; simpa using h)

theorem powerFailing_within (s : State) (mv pages : Nat) : Within [.regs, .mem, .extMem, .log, .sto] (blks [.aoc, .hlm, .jrn]) s
    (powerFailing s mv pages) :=
  raiseEv_within.step (finishPage_within.step (rset_within.mono rfl rfl) rfl rfl) rfl rfl

theorem hostReady_due {a f : Nat} (hfrom : s.aoc.castFrom = some (a, f)) (hstage : rget s R.AOC_CASTON_STAGE = 9) : hostReady s =
    modAoc (rset (rset s R.AOC_CASTON_STAGE 0) R.AOC_CASTON_LAST_MS (min ((s.now - a) / fcMs) 65535)) fun k =>
      { k with castFrom := none, kept := true, ignOff := k.ignOff.map fun _ => s.now } := by
  unfold hostReady
  rw [hfrom]
  exact if_neg (not_not.mpr hstage)

/-- The times of the watchdog's resets within 600 s. -/
def watchdogTimes (s : State) : List Nat := s.aoc.wdogTimes.filter fun a => s.now < a + 600 * fcSec

theorem watchdog_due (hm : rget s R.AOC_WDOG_TIMEOUT_MS ≠ 0) (hdue : s.aoc.wdogAt + rget s R.AOC_WDOG_TIMEOUT_MS * fcMs ≤ s.now) :
    watchdog s = resetTo (modAoc s fun a => { a with wdogTimes := s.now :: watchdogTimes s })
      (if 2 ≤ (watchdogTimes s).length then kindFull else kindWarm) 2 false :=
  if_neg (by rintro (h | h) <;> omega)

theorem watchdog_early (h : s.now < s.aoc.wdogAt + rget s R.AOC_WDOG_TIMEOUT_MS * fcMs) : watchdog s = s := if_pos (.inr h)

theorem aocReset_confirmed {k c : Nat} (w : Bool) (hc : c = 0xA5) (hk : k ≠ 0) : aocReset s k w c = resetTo s (4 - k) 1 (w && k == 1) :=
  if_pos ⟨hc, hk⟩

theorem aocReset_unconfirmed {k c : Nat} (w : Bool) (hc : c ≠ 0xA5) : aocReset s k w c = s := if_neg fun h => hc h.1

/-! ### Cast-on -/

/-- What cast-on from stage 8 has verified: the store link runs, and nothing is verified again. -/
def unverified (s : State) : State := rset (rset (timeLoaded s 8) R.STO_LIFE_LINK_UP 1) R.AOC_CASTON_SEAL_USED 0

theorem unverified_within (s : State) : Within [.regs, .timeOff, .nav] (blks [.sto, .aoc]) s (unverified s) :=
  rset_within.step (rset_within.step ((timeLoaded_within s 8).mono rfl rfl) rfl rfl) rfl rfl

section
variable {a : Nat} (hfab : s.fabric = false) (hlogic : s.aoc.logic = true) (hpower : s.aoc.power = 0)
include hfab hlogic hpower

theorem castOn_unverified (hfrom : s.aoc.castFrom = some (a, 8)) (hrevert : s.upd.revert = false) (hboot : bankBootable s = true)
    (hunf : s.ksm.unfinished = none) : castOn s x = castEnd (castInit (unverified s) 8 x) := by
  have hload := timeLoaded_within s 8
  have hkept : linkUp (timeLoaded s 8) = rset (timeLoaded s 8) R.STO_LIFE_LINK_UP 1 :=
    linkUp_kept ((congrArg Upd.revert (hload.upd.resolve_left (by simp))).trans hrevert)
  have hver : castVerified (timeLoaded s 8) 8 x = (unverified s, bankBootable (linkUp (timeLoaded s 8))) := by
    have h8 : castVerified (timeLoaded s 8) 8 x = (rset (linkUp (timeLoaded s 8)) R.AOC_CASTON_SEAL_USED 0, bankBootable (linkUp (timeLoaded s 8))) :=
      if_neg (by decide)
    rw [h8, hkept]
    rfl
  have hboot' : bankBootable (linkUp (timeLoaded s 8)) = true := by
    have hw : Within [.regs, .timeOff, .nav] (blks [.sto]) s (linkUp (timeLoaded s 8)) := by
      rw [hkept]
      exact rset_within.step (hload.mono rfl rfl) rfl rfl
    rw [bankBootable_congr (hw.upd.resolve_left (by simp)) fun f hf => hw.rget f 0 0 (by rw [hf]; decide), hboot]
  rw [castOn_stages hfrom hfab hlogic hpower, castStages_passes (by rw [hver]; exact hboot'), hver]
  dsimp only
  rw [if_neg (by decide : ¬ (8 = 1)), finishChange_none ((congrArg Ksm.unfinished ((unverified_within s).ksm.resolve_left (by simp))).trans hunf)]

end

/-- The state at verification in a cast-on from stage 1. -/
def toVerify (s : State) : State := makeKey (rset (timeLoaded s 1) R.STO_LIFE_LINK_UP 1)

theorem toVerify_within (s : State) : Within [.regs, .timeOff, .nav] (blks [.sto, .ksm]) s (toVerify s) :=
  makeKey_within.step (rset_within.step ((timeLoaded_within s 1).mono rfl rfl) rfl rfl) rfl rfl

theorem toVerify_upd (s : State) (f : Fld) (hf : f.id / 128 = blkCode .upd) : rget (toVerify s) f = rget s f :=
  (toVerify_within s).rget f 0 0 (by rw [hf]; decide)

theorem toVerify_bootable (s : State) : bankBootable (toVerify s) = bankBootable s :=
  bankBootable_congr ((toVerify_within s).upd.resolve_left (by simp)) (toVerify_upd s)

theorem toVerify_sealHeld (s : State) : sealHeld (toVerify s) = sealHeld s :=
  sealHeld_congr ((toVerify_within s).aoc.resolve_left (by simp)) (toVerify_upd s)

theorem castVerified_first (hrevert : s.upd.revert = false) : castVerified (timeLoaded s 1) 1 x = bootVerify (toVerify s) x := by
  have hkept : linkUp (timeLoaded s 1) = rset (timeLoaded s 1) R.STO_LIFE_LINK_UP 1 :=
    linkUp_kept ((congrArg Upd.revert ((timeLoaded_within s 1).upd.resolve_left (by simp))).trans hrevert)
  have h1 : castVerified (timeLoaded s 1) 1 x = bootVerify (makeKey (linkUp (timeLoaded s 1))) x := if_pos (by decide)
  rw [h1, hkept]
  rfl

/-- What a verification that passes leaves: the seal it used, and the seal it made. -/
def verified (s : State) : State :=
  modAoc (rsetB (toVerify s) R.AOC_CASTON_SEAL_USED (sealHeld s)) fun a => { a with bootSeal := some (rget s R.UPD_STATUS_ACTIVE_BANK) }

theorem verified_within (s : State) : Within [.regs, .timeOff, .nav, .aoc] (blks [.sto, .ksm, .aoc]) s (verified s) :=
  modAoc_within.step (rsetB_within.step ((toVerify_within s).mono rfl rfl) rfl rfl) rfl rfl

theorem verified_upd (s : State) (f : Fld) (hf : f.id / 128 = blkCode .upd) : rget (verified s) f = rget s f :=
  (verified_within s).rget f 0 0 (by rw [hf]; decide)

theorem verified_aoc (s : State) : (verified s).aoc = { s.aoc with bootSeal := some (rget s R.UPD_STATUS_ACTIVE_BANK) } := by
  show ({ (rsetB (toVerify s) R.AOC_CASTON_SEAL_USED (sealHeld s)).aoc with bootSeal := _ } : Aoc) = _
  rw [rsetB_within.aoc.resolve_left (by simp), (toVerify_within s).aoc.resolve_left (by simp)]

theorem verified_otherBank (s : State) : otherBank (verified s) = otherBank s :=
  congrArg (1 - ·) (verified_upd s R.UPD_STATUS_ACTIVE_BANK (by decide))

theorem verified_pendingSlot (s : State) : pendingSlot (verified s) = pendingSlot s := by
  unfold pendingSlot slotState
  rw [verified_upd s _ (by decide)]

theorem castVerified_passes (hrevert : s.upd.revert = false) (hboot : bankBootable s = true)
    (hok : (if sealHeld s then x.sealOk else x.verifyOk) = true) : castVerified (timeLoaded s 1) 1 x = (verified s, true) := by
  rw [castVerified_first hrevert, bootVerify_passes ((toVerify_bootable s).trans hboot) (by rw [toVerify_sealHeld]; exact hok),
    toVerify_sealHeld, toVerify_upd s _ (by decide)]
  rfl

/-- What a failed verification leaves of a cast-on. -/
def castRefused (s : State) : State :=
  rset (modAoc (modUpd (modAoc (rset (rsetB (toVerify s) R.AOC_CASTON_SEAL_USED (sealHeld s)) R.AOC_CASTON_STAGE 15) fun a =>
    { a with castFrom := none, bootSeal := none }) fun u => { u with revert := rbit s R.UPD_STATUS_TRIAL }) fun a => { a with castFrom := none })
    R.AOC_CASTON_STAGE 15

theorem castRefused_within (s : State) : Within [.regs, .timeOff, .nav, .aoc, .upd] (blks [.aoc, .ksm, .sto]) s (castRefused s) :=
  rset_within.step (modAoc_within.step (modUpd_within.step (modAoc_within.step (rset_within.step (rsetB_within.step
    ((toVerify_within s).mono rfl rfl) rfl rfl) rfl rfl) rfl rfl) rfl rfl) rfl rfl) rfl rfl

theorem castRefused_fields (s : State) : (castRefused s).aoc = { s.aoc with castFrom := none, bootSeal := none } ∧
    (castRefused s).upd = { s.upd with revert := rbit s R.UPD_STATUS_TRIAL } := by
  have hw : Within [.regs, .timeOff, .nav] (blks [.sto, .ksm, .aoc]) s
      (rset (rsetB (toVerify s) R.AOC_CASTON_SEAL_USED (sealHeld s)) R.AOC_CASTON_STAGE 15) :=
    rset_within.step (rsetB_within.step ((toVerify_within s).mono rfl rfl) rfl rfl) rfl rfl
  exact ⟨congrArg (fun a : Aoc => { a with castFrom := none, bootSeal := none }) (hw.aoc.resolve_left (by simp)),
    congrArg (fun u : Upd => { u with revert := rbit s R.UPD_STATUS_TRIAL }) (hw.upd.resolve_left (by simp))⟩

section
variable {a : Nat} (hfab : s.fabric = false) (hlogic : s.aoc.logic = true) (hpower : s.aoc.power = 0)
include hfab hlogic hpower

theorem castOn_first (hfrom : s.aoc.castFrom = some (a, 1)) (hrevert : s.upd.revert = false) (hboot : bankBootable s = true)
    (hok : (if sealHeld s then x.sealOk else x.verifyOk) = true) :
    castOn s x = castEnd (castInit (finishChange (copyPending (verified s) x.copyFault)) 1 x) := by
  have hver := castVerified_passes (x := x) hrevert hboot hok
  rw [castOn_stages hfrom hfab hlogic hpower, castStages_passes (by rw [hver]), hver]
  rfl

theorem castOn_refused (hfrom : s.aoc.castFrom = some (a, 1)) (hrevert : s.upd.revert = false)
    (hbad : bankBootable s = false ∨ (if sealHeld s then x.sealOk else x.verifyOk) = false) : castOn s x = castRefused s := by
  have hver : castVerified (timeLoaded s 1) 1 x = bootVerify (toVerify s) x := castVerified_first hrevert
  have hfail := bootVerify_fails (s := toVerify s) (x := x) (by rw [toVerify_bootable, toVerify_sealHeld]; exact hbad)
  rw [castOn_stages hfrom hfab hlogic hpower, castStages_fails (by rw [hver, hfail]), hver, hfail]
  dsimp only
  rw [toVerify_sealHeld, show rbit (toVerify s) R.UPD_STATUS_TRIAL = rbit s R.UPD_STATUS_TRIAL from
    congrArg (fun n => n == 1) (toVerify_upd s _ (by decide))]
  rfl

end

/-- The state of a cast-on that has gone back to the previous bank. -/
def wentBack (s : State) : State := rset (revertBank (rset (timeLoaded s 8) R.STO_LIFE_LINK_UP 1)) R.AOC_CASTON_SEAL_USED 0

theorem wentBack_within (s : State) : Within [.regs, .timeOff, .nav, .mem, .extMem, .log, .upd] (blks [.sto, .hlm, .jrn, .upd, .aoc]) s
    (wentBack s) :=
  rset_within.step (revertBank_within.step (rset_within.step ((timeLoaded_within s 8).mono rfl rfl) rfl rfl) rfl rfl) rfl rfl

theorem wentBack_fields (s : State) : rget (wentBack s) R.UPD_STATUS_ACTIVE_BANK = otherBank s ∧ rget (wentBack s) R.UPD_STATUS_TRIAL = 0 ∧
    rget (wentBack s) R.UPD_STATUS_LAST_RESULT = 2 ∧ (wentBack s).upd.revert = false := by
  have hother : otherBank (rset (timeLoaded s 8) R.STO_LIFE_LINK_UP 1) = otherBank s := by
    refine congrArg (1 - ·) ?_
    rw [rget_rset_ne _ _ _ _ _ _ (by decide), (timeLoaded_within s 8).rget _ _ _ (by simp)]
  obtain ⟨hbank, htrial, hresult⟩ := revertBank_fields (rset (timeLoaded s 8) R.STO_LIFE_LINK_UP 1)
  unfold wentBack
  rw [rget_rset_ne _ _ _ _ _ _ (by decide), rget_rset_ne _ _ _ _ _ _ (by decide), rget_rset_ne _ _ _ _ _ _ (by decide)]
  exact ⟨hbank.trans hother, htrial, hresult, congrArg Upd.revert (revertBank_upd _)⟩

theorem castVerified_wentBack (hrevert : s.upd.revert = true) :
    castVerified (timeLoaded s 8) 8 x = (wentBack s, bankBootable (linkUp (timeLoaded s 8))) := by
  have hlink : linkUp (timeLoaded s 8) = revertBank (rset (timeLoaded s 8) R.STO_LIFE_LINK_UP 1) :=
    linkUp_reverted ((congrArg Upd.revert ((timeLoaded_within s 8).upd.resolve_left (by simp))).trans hrevert)
  have h8 : castVerified (timeLoaded s 8) 8 x = (rset (linkUp (timeLoaded s 8)) R.AOC_CASTON_SEAL_USED 0, bankBootable (linkUp (timeLoaded s 8))) :=
    if_neg (by decide)
  rw [h8, hlink]
  rfl

/-- A cast-on after a reset during a trial has the previous bank active, whether it then passes or not. -/
theorem castOn_reverts {a : Nat} (hfab : s.fabric = false) (hlogic : s.aoc.logic = true) (hpower : s.aoc.power = 0)
    (hfrom : s.aoc.castFrom = some (a, 8)) (hrevert : s.upd.revert = true) (hunf : s.ksm.unfinished = none) :
    rget (castOn s x) R.UPD_STATUS_ACTIVE_BANK = otherBank s ∧ rget (castOn s x) R.UPD_STATUS_TRIAL = 0 ∧
    rget (castOn s x) R.UPD_STATUS_LAST_RESULT = 2 ∧ (castOn s x).upd.revert = false ∧ (castOn s x).pending = s.pending := by
  obtain ⟨hbank, htrial, hresult, hupd⟩ := wentBack_fields s
  have hpend : (wentBack s).pending = s.pending := (wentBack_within s).pending.resolve_left (by simp)
  have hver := castVerified_wentBack (x := x) hrevert
  cases hboot : bankBootable (linkUp (timeLoaded s 8)) with
  | true =>
    have hcast : castOn s x = castEnd (castInit (wentBack s) 8 x) := by
      rw [castOn_stages hfrom hfab hlogic hpower, castStages_passes (by rw [hver]; exact hboot), hver]
      dsimp only
      rw [if_neg (by decide : ¬ (8 = 1)), finishChange_none ((congrArg Ksm.unfinished ((wentBack_within s).ksm.resolve_left (by simp))).trans hunf)]
    obtain ⟨-, -, -, -, -, -, -, hu, -⟩ := castPassed_fields (wentBack s) 8 x
    rw [hcast, castPassed_rget _ _ _ _ (by decide) (by decide), castPassed_rget _ _ _ _ (by decide) (by decide),
      castPassed_rget _ _ _ _ (by decide) (by decide), hu, (castPassed_within (wentBack s) 8 x).pending.resolve_left (by simp)]
    exact ⟨hbank, htrial, hresult, hupd, hpend⟩
  | false =>
    have hcast : castOn s x = rset (modAoc (wentBack s) fun a => { a with castFrom := none }) R.AOC_CASTON_STAGE 15 := by
      rw [castOn_stages hfrom hfab hlogic hpower, castStages_fails (by rw [hver]; exact hboot), hver]
    rw [hcast, rget_rset_ne _ _ _ _ _ _ (by decide), rget_rset_ne _ _ _ _ _ _ (by decide), rget_rset_ne _ _ _ _ _ _ (by decide)]
    exact ⟨hbank, htrial, hresult, hupd, hpend⟩

/-- What a cast-on from stage 1 with a pending image leaves. -/
theorem castCopied_fields (s : State) (i : Image) (hpend : rbit s R.UPD_STATUS_PENDING = true)
    (hi : (getSlot s (pendingSlot s)).image = some i) (hunf : s.ksm.unfinished = none) (hfault : x.copyFault = none) :
    finishChange (copyPending (verified s) x.copyFault) = pendingCopied (verified s) i ∧
    rget (castEnd (castInit (pendingCopied (verified s) i) 1 x)) R.UPD_STATUS_ACTIVE_BANK = otherBank s ∧
    tblGet? (castEnd (castInit (pendingCopied (verified s) i) 1 x)).upd.banks (otherBank s) = some i ∧
    rget (castEnd (castInit (pendingCopied (verified s) i) 1 x)) R.UPD_STATUS_PENDING = 0 ∧
    rget (castEnd (castInit (pendingCopied (verified s) i) 1 x)) R.UPD_STATUS_TRIAL = 1 ∧
    (castEnd (castInit (pendingCopied (verified s) i) 1 x)).aoc.bootSeal = some (otherBank s) ∧
    slotState (castEnd (castInit (pendingCopied (verified s) i) 1 x)) (pendingSlot s) = 0 := by
  have hslot : (getSlot (verified s) (pendingSlot (verified s))).image = some i := by
    rw [verified_pendingSlot]
    unfold getSlot
    rw [(verified_within s).upd.resolve_left (by simp)]
    exact hi
  have hcopy : copyPending (verified s) x.copyFault = pendingCopied (verified s) i := by
    rw [hfault]
    exact copyPending_copies ((congrArg (fun n => n == 1) (verified_upd s _ (by decide))).trans hpend) hslot
  obtain ⟨hbank, hclear, htrial, hempty⟩ := pendingCopied_status (verified s) i
  have hbanks := pendingCopied_banks (verified s) i
  rw [verified_otherBank] at hbank hbanks
  rw [verified_pendingSlot] at hempty
  obtain ⟨-, -, -, -, -, -, -, hupd, haoc⟩ := castPassed_fields (pendingCopied (verified s) i) 1 x
  refine ⟨?_, ?_, ?_, ?_, ?_, ?_, ?_⟩
  · rw [hcopy]
    exact finishChange_none (by rw [pendingCopied_ksm, (verified_within s).ksm.resolve_left (by simp)]; exact hunf)
  · rw [castPassed_rget _ _ _ _ (by decide) (by decide)]
    exact hbank
  · rw [hupd]
    exact hbanks
  · rw [castPassed_rget _ _ _ _ (by decide) (by decide)]
    exact hclear
  · rw [castPassed_rget _ _ _ _ (by decide) (by decide)]
    exact htrial
  · rw [haoc]
    exact congrArg some (verified_otherBank s)
  · unfold slotState at hempty ⊢
    rw [castPassed_rget _ _ _ _ (by split <;> decide) (by split <;> decide)]
    exact hempty

theorem atTime_runs (t : Fc) (f : State → State) (s : State) : atTime t f s = .next (f (advance s t)) := rfl

/-- Settles O45, the cast-on by its stages, each reset by what its kind leaves. -/
theorem startingAndReset : Obligations.StartingAndReset := by
  unfold Obligations.StartingAndReset
  refine ⟨?throttle, ?kept, ?lost, ?unverified, ?first, ?copied, ?reverts, ?refused, ?ready, ?fails, ?aon, ?aonKept, ?reset, ?unconfirmed,
    ?kick, ?warm, ?full, ?early⟩
  case throttle =>
    intro s t mv hlogic
    exact (atTime_runs t (fun s => if s.aoc.logic then logicThrottle s mv else s) s).trans (congrArg _ (if_pos hlogic))
  case kept =>
    intro s t mv hlogic hmv hkept
    obtain ⟨h1, h2, h3⟩ := logicThrottle_fields (advance s t) mv.isLt
    exact ⟨_, (atTime_runs t (fun s => logicQualified s mv) s).trans (congrArg _ ((logicQualified_back (s := advance s t) hlogic hmv).trans (if_pos hkept))),
      rfl, h1, h2, h3, rfl⟩
  case lost =>
    intro s t mv hlogic hmv hkept
    have hw : Within [.regs, .rolLatch, .mem, .extMem, .log, .aoc] (blks [.aoc, .hlm, .jrn]) (advance s t)
        (wakeRaise (noteWake (supplyBack (advance s t) mv) 64)) :=
      wakeRaise_within.step (noteWake_within.step (modAoc_within.step (logicThrottle_within.mono rfl rfl) rfl rfl) rfl rfl) rfl rfl
    refine ⟨_, (atTime_runs t (fun s => logicQualified s mv) s).trans (congrArg _ ((logicQualified_back (s := advance s t) hlogic hmv).trans
      (if_neg (ne_true_of_eq_false hkept)))), ?_, ?_, hw.blocksOnly, hw.eq_frame⟩
    · rw [wakeRaise_within.aoc.resolve_left (by simp), noteWake_within.aoc.resolve_left (by simp)]
      rfl
    · rw [wakeRaise_within.rget _ _ _ (by decide)]
      exact noteWake_logic _ 64
  case unverified =>
    intro s t x a hfrom hfab hlogic hpower hrevert hboot hunf hkind
    have hv := castOn_unverified (s := advance s t) (x := x) hfab hlogic hpower hfrom hrevert hboot hunf
    obtain ⟨f1, f2, f3, f4, -, f5, f6, f7, -⟩ := castPassed_fields (unverified (advance s t)) 8 x
    have hun := unverified_within (advance s t)
    have hw : Within [.regs, .timeOff, .nav, .fabric, .tke, .hlm, .sto, .sfe, .upd, .log, .mem, .extMem]
        (blks [.tke, .arb, .aoc, .nav, .sto, .sfe, .hlm, .jrn]) (advance s t) (castEnd (castInit (unverified (advance s t)) 8 x)) :=
      (castPassed_within _ _ _).step (hun.mono rfl rfl) rfl rfl
    refine ⟨_, (atTime_runs t (fun s => castOn s x) s).trans (congrArg _ hv), f1, f2, f3, ?_, f5, ?_, ?_, ?_, ?_, hw.blocksOnly, hw.eq_frame⟩
    · rw [f4, hun.now.resolve_left (by simp)]
      rfl
    · rw [castPassed_rget _ _ _ _ (by decide) (by decide)]
      exact rget_rset_self _ _ _ _ _
    · rw [castPassed_rget _ _ _ _ (by decide) (by decide)]
      exact (rget_rset_ne _ _ _ _ _ _ (by decide)).trans (rget_rset_self _ _ _ _ _)
    · rw [f6, hun.sto.resolve_left (by simp), hun.upd.resolve_left (by simp)]
      rfl
    · rw [f7, hun.upd.resolve_left (by simp)]
      rfl
  case first =>
    intro s t x a hfrom hfab hlogic hpower hrevert hboot hok hpend hunf
    have hver := verified_within (advance s t)
    have hv := castOn_first (s := advance s t) (x := x) hfab hlogic hpower hfrom hrevert hboot hok
    rw [copyPending_idle ((congrArg (fun n => n == 1) (verified_upd (advance s t) _ (by decide))).trans hpend),
      finishChange_none (by rw [hver.ksm.resolve_left (by simp)]; exact hunf)] at hv
    obtain ⟨f1, f2, f3, -, f4, f5, f6, f7, f8⟩ := castPassed_fields (verified (advance s t)) 1 x
    have hw : Within [.regs, .fabric, .tke, .hlm, .timeOff, .nav, .aoc, .sto, .sfe, .upd, .log, .mem, .extMem]
        (blks [.tke, .arb, .aoc, .ksm, .nav, .sto, .sfe, .hlm, .jrn]) (advance s t) (castEnd (castInit (verified (advance s t)) 1 x)) :=
      (castPassed_within _ _ _).step (hver.mono rfl rfl) rfl rfl
    refine ⟨_, (atTime_runs t (fun s => castOn s x) s).trans (congrArg _ hv), f1, f2, f3, ?_, f5, ?_, ?_, ?_, ?_, ?_, hw.blocksOnly, hw.eq_frame⟩
    · rw [f8, verified_aoc]
      rfl
    · rw [castPassed_rget _ _ _ _ (by decide) (by decide)]
      exact rget_rsetB_self _ _ _ (by decide)
    · rw [castPassed_rget _ _ _ _ (by decide) (by decide)]
      refine (rget_rset_ne _ _ _ _ _ _ (by decide)).trans ((makeKey_within.rget _ _ _ (by decide)).trans ?_)
      exact rget_rset_self _ _ _ _ _
    · rw [f4]
      exact congrArg (fun n => n == 1) (hver.rget R.TKE_CTRL_ARMED 0 0 (by decide))
    · rw [f6, hver.sto.resolve_left (by simp), hver.upd.resolve_left (by simp)]
      rfl
    · rw [f7, hver.upd.resolve_left (by simp)]
      rfl
  case copied =>
    intro s t x a i hfrom hfab hlogic hpower hrevert hboot hok hpend hfault hi hunf
    have hv := castOn_first (s := advance s t) (x := x) hfab hlogic hpower hfrom hrevert hboot hok
    obtain ⟨hcopy, f1, f2, f3, f4, f5, f6⟩ := castCopied_fields (x := x) (advance s t) i hpend hi hunf hfault
    rw [hcopy] at hv
    obtain ⟨hfab', -, -, -, -, -, -, hupd, -⟩ := castPassed_fields (pendingCopied (verified (advance s t)) i) 1 x
    refine ⟨_, (atTime_runs t (fun s => castOn s x) s).trans (congrArg _ hv), hfab', f1, f2, f3, f4, f5, ?_, f6, ?_⟩
    · rw [hupd]
    · refine ((castPassed_within _ _ _).pending.resolve_left (by simp)).trans ?_
      have hw : Within [.regs, .upd, .aoc, .timeOff, .nav] (blks [.upd, .sto, .ksm, .aoc]) (advance s t) (pendingCopied (verified (advance s t)) i) :=
        modAoc_within.step (takeBank_within.step (modUpd_within.step (rset_within.step ((verified_within _).mono rfl rfl) rfl rfl) rfl rfl)
          rfl rfl) rfl rfl
      exact hw.pending.resolve_left (by simp)
  case reverts =>
    intro s t x a hfrom hfab hlogic hpower hrevert hunf
    exact ⟨_, atTime_runs t (fun s => castOn s x) s, castOn_reverts (s := advance s t) hfab hlogic hpower hfrom hrevert hunf⟩
  case refused =>
    intro s t x a hfrom hfab hlogic hpower hrevert hbad
    have hv := castOn_refused (s := advance s t) (x := x) hfab hlogic hpower hfrom hrevert hbad
    have hw := castRefused_within (advance s t)
    obtain ⟨haoc, hupd⟩ := castRefused_fields (advance s t)
    exact ⟨_, (atTime_runs t (fun s => castOn s x) s).trans (congrArg _ hv), (hw.fabric.resolve_left (by simp)).trans hfab,
      rget_rset_self _ _ _ _ _, haoc, hupd, hw.blocksOnly, hw.eq_frame⟩
  case ready =>
    intro s t a f hfab hfrom hstage
    have hv := hostReady_due (s := advance s t) hfrom hstage
    refine ⟨_, (atFabric_up s t hostReady hfab).trans (congrArg _ hv), rfl, ?_, ?_, ?_, rfl⟩
    · exact (rget_rset_ne _ _ _ _ _ _ (by decide)).trans (rget_rset_self _ _ _ _ _)
    · exact (rget_rset_self _ _ _ _ _).trans (Nat.mod_eq_of_lt (lt_of_le_of_lt (Nat.min_le_right _ _) (by decide)))
    · exact (rset_regsOnly (advance s t) R.AOC_CASTON_STAGE _ _ _ (by simp)).trans (rset_regsOnly _ R.AOC_CASTON_LAST_MS _ _ _ (by simp))
  case fails =>
    intro s t mv n hmv hlogic
    have hv := powerFail_low (s := advance s t) n hmv hlogic
    have hw := powerFailing_within (advance s t) mv n
    have hup := resetTo_fabric (powerFailing (advance s t) mv n) kindFull 3 false
    have hreqs := resetTo_reqs (powerFailing (advance s t) mv n) kindFull 3 false
    have hmem := resetTo_mem (kind := kindFull) (wipe := false) (powerFailing (advance s t) mv n) 3 (.inl (by decide))
    have hkind := resetTo_kind (powerFailing (advance s t) mv n) kindFull 3 false
    have hsource := resetTo_source (powerFailing (advance s t) mv n) kindFull 3 false
    have hpend := resetTo_pending (powerFailing (advance s t) mv n) kindFull 3 false
    have hbanks k := resetTo_banks (k := k) (source := 3) (powerFailing (advance s t) mv n) kindFull false (by decide)
    generalize resetTo (powerFailing (advance s t) mv n) kindFull 3 false = v at hv hup hreqs hmem hkind hsource hpend hbanks
    refine ⟨_, (atTime_runs t (fun s => powerFail s mv n) s).trans (congrArg _ hv), hup, hreqs, hmem, rfl, rfl, rfl, hkind, hsource, ?_,
      fun k hk => ?_⟩
    · exact hpend.trans (hw.pending.resolve_left (by simp))
    · refine (hbanks k hk).trans (hw.blocks k ?_)
      have hnot := List.all_eq_true.mp (by decide : (blks [.dbk, .sbk, .pps]).all (fun b => !(blks [.aoc, .hlm, .jrn]).contains b) = true) _ hk
      simpa using hnot
  case aon =>
    intro s t mv hmv
    have hv := aonLoss_low (s := advance s t) hmv
    obtain ⟨haoc, hnav⟩ := resetTo_powerOn (advance s t) 0 false
    have hup := resetTo_fabric (advance s t) kindPowerOn 0 false
    have hreqs := resetTo_reqs (advance s t) kindPowerOn 0 false
    have hmem := resetTo_mem (kind := kindPowerOn) (wipe := false) (advance s t) 0 (.inl (by decide))
    have hpend := resetTo_pending (advance s t) kindPowerOn 0 false
    have hbanks k := resetTo_banks (k := k) (source := 0) (advance s t) kindPowerOn false (by decide)
    generalize resetTo (advance s t) kindPowerOn 0 false = v at hv haoc hnav hup hreqs hmem hpend hbanks
    refine ⟨_, (atTime_runs t (fun s => aonLoss s mv) s).trans (congrArg _ hv), hup, hreqs, hmem, ?_, hnav, ?_, hpend, fun k hk => ?_⟩
    · exact congrArg (fun a : Aoc => { a with castFrom := none }) haoc
    · exact (rget_rset_self _ _ _ _ _).trans (Nat.mod_eq_of_lt mv.isLt)
    · refine (rset_within.blocks k ?_).trans (hbanks k hk)
      have hnot := List.all_eq_true.mp (by decide : (blks [.dbk, .sbk, .pps]).all (fun b => ! [R.AOC_SUPPLY_LOGIC_100MV.id / 128].contains b) = true) _ hk
      simpa using hnot
  case aonKept =>
    intro s t mv hmv hfail
    exact (atTime_runs t (fun s => aonLoss s mv) s).trans (congrArg _ (aonLoss_none (s := advance s t) hmv hfail))
  case reset =>
    intro s t k w c hfab hc hk
    have hk0 : k.val ≠ 0 := fun h => hk (Fin.ext h)
    have hfirst : firstStage (4 - k.val) = if k = 3 then 1 else 8 := by
      revert hk
      revert k
      decide
    have hv := aocReset_confirmed (s := advance s t) w (congrArg Fin.val hc) hk0
    refine ⟨_, (atFabric_up s t (fun s => aocReset s k w c) hfab).trans (congrArg _ hv), resetTo_fabric .., resetTo_reqs .., ?_, ?_, ?_,
      resetTo_source .., fun h => resetTo_mem _ _ ?_, resetTo_pending ..⟩
    · rw [resetTo_castFrom, hfirst]
      rfl
    · refine (resetTo_stage ..).trans ?_
      rw [hfirst]
      split <;> rfl
    · refine (resetTo_kind ..).trans (Nat.mod_eq_of_lt ?_)
      show 4 - k.val < 4
      omega
    · obtain rfl | ⟨rfl, rfl⟩ := h
      · exact .inl (by decide)
      · exact .inr rfl
  case unconfirmed =>
    intro s t k w c hfab hc
    exact (atFabric_up s t (fun s => aocReset s k w c) hfab).trans
      (congrArg _ (aocReset_unconfirmed (s := advance s t) w fun h => hc (Fin.ext h)))
  case kick =>
    intro s t hfab
    exact atFabric_up s t (fun s => modAoc s fun a => { a with wdogAt := s.now }) hfab
  case warm =>
    intro s t hfab hm hdue hfew
    have hv := watchdog_due (s := advance s t) hm hdue
    rw [if_neg (show ¬ 2 ≤ (watchdogTimes (advance s t)).length from Nat.not_le.mpr hfew)] at hv
    exact ⟨_, (atFabric_up s t watchdog hfab).trans (congrArg _ hv), resetTo_fabric .., resetTo_reqs .., resetTo_castFrom ..,
      resetTo_kind .., resetTo_source .., resetTo_pending ..⟩
  case full =>
    intro s t hfab hm hdue hmany
    have hv := watchdog_due (s := advance s t) hm hdue
    rw [if_pos (show 2 ≤ (watchdogTimes (advance s t)).length from hmany)] at hv
    exact ⟨_, (atFabric_up s t watchdog hfab).trans (congrArg _ hv), resetTo_fabric .., resetTo_reqs .., resetTo_mem _ _ (.inl (by decide)),
      resetTo_castFrom .., resetTo_kind .., resetTo_source .., resetTo_pending ..⟩
  case early =>
    intro s t hfab hearly
    exact (atFabric_up s t watchdog hfab).trans (congrArg _ (watchdog_early (s := advance s t) hearly))

end Sys2Proof.Machine
end

section
/-! The entry to PARK, DEEP and OFF (R402, R410, R411, R413). -/

namespace Sys2Proof.Machine

variable {s : State} {x : EntryMeas} {st a : Nat}

/-! ### What entering a state does -/

/-- The state is entered with the host link down. -/
def entryLink (s : State) : State := if rbit s R.HLK_STATUS_LINK_UP then hostLinkOff s false else s

/-- NAV has saved before the state, but before OFF outside bind-off. -/
def entrySaved (s : State) (bound : Bool) (state : Nat) (x : EntryMeas) : State :=
  if state = pwOff ∧ !bound then s else navStore s x.ephemeris x.almanac

/-- In PARK module time goes on as a holdover. -/
def entryTimed (s : State) (state : Nat) (x : EntryMeas) : State :=
  if state = pwPark ∧ timeState s ≠ timeNone ∧ timeState s ≠ timeHoldover then holdoverBegin s x.eps x.tcxo else s

/-- The panels are dark, the operating time stands still and bind-off is over. -/
def entryQuiet (s : State) (state : Nat) : State :=
  rset (rset (stopClock (panelEntry state (panelEntry state s 0) 1)) R.AOC_PWR_STATE_BINDING 0) R.AOC_PWR_STATE_BIND_STEP 0

/-- All that precedes the state itself. -/
def entryBase (s : State) (state : Nat) (x : EntryMeas) : State :=
  entryQuiet (entryTimed (entrySaved (entryLink s) (binding s) state x) state x) state

/-- The module is in the state. -/
def asleep (s : State) (state : Nat) : State :=
  { s with
    fabric := false
    aoc := { s.aoc with
      power := state, entry := none, drained := false, suspendAt := none, ready := false, ignOff := none,
      ignBack := false, parkedAt := s.now, wakes := [] } }

theorem entryLink_within (s : State) : Within [.regs, .mem, .extMem, .log] (blks [.hlm, .jrn, .hlk]) s (entryLink s) :=
  within_ite (hostLinkOff_within.mono rfl rfl) (.refl _)

theorem entrySaved_within (s : State) (bound : Bool) (state : Nat) (x : EntryMeas) : Within [.nav] [] s (entrySaved s bound state x) :=
  within_ite (.refl _) navStore_within

theorem entryTimed_within (s : State) (state : Nat) (x : EntryMeas) : Within [.regs, .timeOff, .mem, .extMem, .log, .nav]
    (blks [.hlm, .jrn, .nav]) s (entryTimed s state x) := within_ite holdoverBegin_within (.refl _)

theorem entryQuiet_within (s : State) (state : Nat) : Within [.regs, .pnl, .hlm] (blks [.pnl, .aoc]) s (entryQuiet s state) :=
  rset_within.step (rset_within.step (stopClock_within.step (panelEntry_within.step (panelEntry_within.mono rfl rfl) rfl rfl) rfl rfl)
    rfl rfl) rfl rfl

theorem entryBase_within (s : State) (state : Nat) (x : EntryMeas) : Within [.regs, .timeOff, .mem, .extMem, .log, .nav, .pnl, .hlm]
    (blks [.hlm, .jrn, .hlk, .nav, .pnl, .aoc]) s (entryBase s state x) :=
  (entryQuiet_within _ state).step ((entryTimed_within _ state x).step ((entrySaved_within _ _ state x).step
    ((entryLink_within s).mono rfl rfl) rfl rfl) rfl rfl) rfl rfl

/-- Without a wake noted during the entry the module stays in the state. -/
theorem enterState_asleep (hw : s.aoc.wakes = []) : enterState s st x = asleep (entryBase s st x) st := by
  have haoc : (entryBase s st x).aoc.wakes = [] := by rw [(entryBase_within s st x).aoc.resolve_left (by simp), hw]
  have heq : enterState s st x = if (entryBase s st x).aoc.wakes.isEmpty then asleep (entryBase s st x) st else
      wakeUp (asleep (entryBase s st x) st) (maskOf ((List.range 6).map fun k => (entryBase s st x).aoc.wakes.contains k)) := rfl
  rw [heq, haoc]
  rfl

theorem entryLink_down (s : State) : rbit (entryLink s) R.HLK_STATUS_LINK_UP = false := by
  unfold entryLink
  split
  · exact (rbit_false_iff ..).mpr (by rw [(hostLinkOff_fields s false).1]; decide)
  · exact Bool.not_eq_true _ ▸ ‹¬ _›

theorem entryBase_link (s : State) (st : Nat) (x : EntryMeas) : rbit (entryBase s st x) R.HLK_STATUS_LINK_UP = false :=
  ((((entryQuiet_within _ st).step ((entryTimed_within _ st x).step (ps := [.regs, .timeOff, .mem, .extMem, .log, .nav, .pnl, .hlm])
    (bs := blks [.hlm, .jrn, .nav, .pnl, .aoc]) ((entrySaved_within _ _ st x).mono rfl rfl) rfl rfl) rfl rfl)).rbit
    R.HLK_STATUS_LINK_UP 0 0 (by decide)).trans (entryLink_down s)

theorem entryBase_saved (s : State) (x : EntryMeas) (h : st ≠ pwOff) : (entryBase s st x).nav.saved.isSome = true := by
  have hquiet := (entryQuiet_within (entryTimed (entrySaved (entryLink s) (binding s) st x) st x) st).nav.resolve_left (by simp)
  have hsaved : (entrySaved (entryLink s) (binding s) st x).nav.saved.isSome = true := by
    unfold entrySaved
    rw [if_neg fun hc => h hc.1]
    rfl
  unfold entryBase
  rw [hquiet]
  unfold entryTimed
  split
  · rw [(holdoverBegin_fields ..).2.2.1]
    exact hsaved
  · exact hsaved

/-- Reading AOC: an entry clears BINDING and BIND_STEP alone. -/
theorem entryBase_aoc (s : State) (st : Nat) (x : EntryMeas) (f : Fld) (hf : f.id / 128 = blkCode .aoc)
    (h1 : f.id ≠ R.AOC_PWR_STATE_BINDING.id) (h2 : f.id ≠ R.AOC_PWR_STATE_BIND_STEP.id) :
    rget (entryBase s st x) f = rget s f := by
  have hnot {l : List Nat} (hl : blkCode .aoc ∉ l) : f.id / 128 ∉ l := hf ▸ hl
  have hquiet (u : State) : rget (entryQuiet u st) f = rget u f := by
    have hw : Within [.regs, .pnl, .hlm] (blks [.pnl]) u (stopClock (panelEntry st (panelEntry st u 0) 1)) :=
      stopClock_within.step (panelEntry_within.step (panelEntry_within.mono rfl rfl) rfl rfl) rfl rfl
    exact (rget_rset_ne _ _ _ _ _ _ h2).trans ((rget_rset_ne _ _ _ _ _ _ h1).trans (hw.rget f 0 0 (hnot (by decide))))
  unfold entryBase
  rw [hquiet, (entryTimed_within ..).rget f 0 0 (hnot (by decide)), (entrySaved_within ..).rget f 0 0 (hnot (by simp)),
    (entryLink_within s).rget f 0 0 (hnot (by decide))]

/-! ### The panels -/

theorem vlcdTo_blanked (s : State) (p v i : Nat) : rget (vlcdTo s p v) R.PNL_STATUS_BLANKED i = rget s R.PNL_STATUS_BLANKED i := by
  unfold vlcdTo
  dsimp only
  split
  · rfl
  · exact rget_rset_ne _ _ _ _ _ _ (by decide)

theorem panelDark_blanked (s : State) (p : Nat) : rget (panelDark s p) R.PNL_STATUS_BLANKED p = 1 := by
  unfold panelDark
  rw [vlcdTo_blanked, rget_rset_ne _ _ _ _ _ _ (by decide), rget_rset_self]
  decide

theorem panelDark_other (s : State) {p i : Nat} (h : R.PNL_STATUS_BLANKED.key i 0 ≠ R.PNL_STATUS_BLANKED.key p 0) :
    rget (panelDark s p) R.PNL_STATUS_BLANKED i = rget s R.PNL_STATUS_BLANKED i := by
  unfold panelDark
  rw [vlcdTo_blanked, rget_rset_ne _ _ _ _ _ _ (by decide), rget_rset_of_key_ne _ _ h.symm]
  rfl

theorem panelsDark_blanked (s : State) : rget (panelDark (panelDark s 0) 1) R.PNL_STATUS_BLANKED 0 = 1 ∧
    rget (panelDark (panelDark s 0) 1) R.PNL_STATUS_BLANKED 1 = 1 :=
  ⟨(panelDark_other _ (by decide)).trans (panelDark_blanked s 0), panelDark_blanked _ 1⟩

theorem entryBase_blanked (s : State) (x : EntryMeas) (h : st ≠ pwPark) : rget (entryBase s st x) R.PNL_STATUS_BLANKED 0 = 1 ∧
    rget (entryBase s st x) R.PNL_STATUS_BLANKED 1 = 1 := by
  have hdark (u : State) (p : Nat) : panelEntry st u p = panelDark u p := if_neg fun hc => h hc.1
  have hread (u : State) (p : Nat) : rget (entryQuiet u st) R.PNL_STATUS_BLANKED p =
      rget (panelDark (panelDark u 0) 1) R.PNL_STATUS_BLANKED p := by
    unfold entryQuiet
    rw [rget_rset_ne _ _ _ _ _ _ (by decide), rget_rset_ne _ _ _ _ _ _ (by decide), stopClock_within.rget _ _ _ (by simp), hdark, hdark]
  unfold entryBase
  rw [hread, hread]
  exact panelsDark_blanked _

/-- What holds in every state that is entered without a wake noted during the entry. -/
theorem enterState_fields (s : State) (st : Nat) (x : EntryMeas) (hw : s.aoc.wakes = []) :
    (enterState s st x).fabric = false ∧
    (enterState s st x).aoc = { s.aoc with power := st, entry := none, drained := false, suspendAt := none, ready := false, ignOff := none, ignBack := false, parkedAt := s.now, wakes := [] } ∧
    rbit (enterState s st x) R.HLK_STATUS_LINK_UP = false ∧
    (enterState s st x).pending = s.pending ∧ (enterState s st x).now = s.now ∧ rowNow (enterState s st x) = rowNow s ∧
    (st ≠ pwOff → (enterState s st x).nav.saved.isSome = true) ∧
    (st ≠ pwPark → rget (enterState s st x) R.PNL_STATUS_BLANKED 0 = 1 ∧ rget (enterState s st x) R.PNL_STATUS_BLANKED 1 = 1) ∧
    rget (enterState s st x) R.AOC_PWR_STATE_SUSPEND_TIMEOUT = rget s R.AOC_PWR_STATE_SUSPEND_TIMEOUT := by
  have hbase := entryBase_within s st x
  have hnow := hbase.now.resolve_left (by simp)
  have haoc := hbase.aoc.resolve_left (by simp)
  have hlink := entryBase_link s st x
  have hpend := hbase.pending.resolve_left (by simp)
  have hrow : rowNow (entryBase s st x) = rowNow s := by
    unfold rowNow rget64
    rw [hbase.rget R.TKE_ROW_LO_ROW 0 0 (by decide), hbase.rget R.TKE_ROW_HI_ROW 0 0 (by decide)]
  have hsaved h := entryBase_saved s x (st := st) h
  have hblank h := entryBase_blanked s x (st := st) h
  have htimeout := entryBase_aoc s st x R.AOC_PWR_STATE_SUSPEND_TIMEOUT rfl (by decide) (by decide)
  rw [enterState_asleep hw]
  generalize entryBase s st x = v at *
  refine ⟨rfl, ?_, hlink, hpend, hnow, hrow, hsaved, hblank, htimeout⟩
  unfold asleep
  rw [haoc, hnow]

end Sys2Proof.Machine
end

section
/-! GO, the ends of the waits of an entry, and TRIM (R409–R411, R413). -/

namespace Sys2Proof.Machine

variable {s : State} {x : EntryMeas} {st k a : Nat}

/-! ### The state that the tolerance allows -/

theorem deepest_none (h : tolerance s < 180000) : deepest s = none := by
  unfold deepest
  rw [if_neg (by omega), if_neg (by omega), if_neg (by omega)]

theorem deepest_park (h : 180000 ≤ tolerance s) (h' : tolerance s < 3500000) : deepest s = some pwPark := by
  unfold deepest
  rw [if_neg (by omega), if_neg (by omega), if_pos h]

theorem deepest_deep (h : 3500000 ≤ tolerance s) (h' : tolerance s < 8000000) : deepest s = some pwDeep := by
  unfold deepest
  rw [if_neg (by omega), if_pos h]

/-- A tolerance of 180 ms allows PARK at the least. -/
theorem deepest_some (h : 180000 ≤ tolerance s) : ∃ d, deepest s = some d ∧ pwPark ≤ d := by
  unfold deepest
  split
  · exact ⟨_, rfl, by decide⟩
  · split
    · exact ⟨_, rfl, by decide⟩
    · exact ⟨pwPark, rfl, le_rfl⟩

theorem entryState_park (h : 180000 ≤ tolerance s) : entryState s pwPark = some pwPark := by
  obtain ⟨d, hd, hle⟩ := deepest_some h
  unfold entryState
  rw [hd]
  exact congrArg some (Nat.min_eq_left hle)

theorem entryState_of_deepest (h : deepest s = some st) : entryState s st = some st := by
  unfold entryState
  rw [h]
  exact congrArg some (Nat.min_self st)

theorem entryState_none (h : tolerance s < 180000) (hb : binding s = false) : entryState s st = none := by
  unfold entryState
  rw [deepest_none h]
  exact if_neg (by simp [hb])

/-! ### The waits of an entry -/

/-- The fetched descriptors hold the entry up no more. -/
def EntryClear (s : State) : Prop := s.aoc.drained = true ∨ fetchedLeft s = false

section
variable (he : s.aoc.entry = some (st, a))
include he

theorem tryEnter_waits (hd : s.aoc.drained = false) (hl : fetchedLeft s = true) : tryEnter s x = s := by
  unfold tryEnter
  rw [he]
  exact if_pos (by rw [hd, hl]; rfl)

theorem tryEnter_clear (hc : EntryClear s) : tryEnter s x = match entryState s st with
    | none => entryRefuse s
    | some st =>
      if st ≠ pwPark ∨ suspended s then enterState s st x
      else if s.aoc.suspendAt.isSome then s
      else suspendRequest (modAoc s fun k => { k with entry := some (st, a) }) := by
  unfold tryEnter
  rw [he]
  refine if_neg ?_
  obtain hd | hl := hc
  · simp [hd]
  · simp [hl]

theorem tryEnter_enters (hc : EntryClear s) (hk : entryState s st = some k) (hs : k ≠ pwPark ∨ suspended s = true) :
    tryEnter s x = enterState s k x := by
  rw [tryEnter_clear he hc, hk]
  exact if_pos hs

theorem tryEnter_refused (hc : EntryClear s) (hk : entryState s st = none) : tryEnter s x = entryRefuse s := by
  rw [tryEnter_clear he hc, hk]

/-- Software has been asked to suspend and has not answered. -/
theorem tryEnter_asked (hc : EntryClear s) (hk : entryState s st = some pwPark) (hsus : s.aoc.suspendAt.isSome = true)
    (hs : suspended s = false) : tryEnter s x = s := by
  rw [tryEnter_clear he hc, hk]
  exact (if_neg (by simp [hs])).trans (if_pos hsus)

end

/-! ### GO -/

theorem go_refused {e : Nat} (hentry : s.aoc.entry = none ∨ binding s = true) (he : goError s = e) (h0 : e ≠ 0) :
    go s x = rset s R.AOC_PWR_STATE_SLEEP_ERR e := by
  have hrun : ¬ (s.aoc.entry.isSome ∧ !binding s) := by
    obtain h | h := hentry
    · simp [h]
    · simp [h]
  unfold go
  rw [if_neg hrun]
  dsimp only
  rw [he]
  exact if_pos h0

section
variable (hentry : s.aoc.entry = none) (htke : tkeArmed s = false) (h0 : planeArmed s 0 = false) (h1 : planeArmed s 1 = false)
include htke h0 h1

theorem goError_shallow (h : tolerance s < 180000) : goError s = 3 := by
  unfold goError
  rw [htke, h0, h1, deepest_none h]
  rfl

theorem goError_binding (hb : binding s = true) (h : 180000 ≤ tolerance s) : goError s = 4 := by
  obtain ⟨d, hd, -⟩ := deepest_some h
  unfold goError
  rw [htke, h0, h1, hd, hb]
  simp

variable (hcast : s.aoc.castFrom = none) (hb : binding s = false)
include hentry hcast hb

theorem go_starts (hd : deepest s = some st) : go s x = startEntry
    (if st = pwPark then suspendRequest s else modAoc s fun a => { a with suspendAt := none, warmWake := false }) st x := by
  have herr : goError s = 0 := by
    unfold goError
    rw [htke, h0, h1, hd, hcast, hb]
    rfl
  unfold go
  rw [if_neg (by simp [hentry])]
  dsimp only
  rw [herr, hd]
  rfl

theorem go_park (hmin : 180000 ≤ tolerance s) (hmax : tolerance s < 3500000) : go s x =
    { s with aoc := { s.aoc with
      entry := some (pwPark, s.now), drained := false, wakes := [], suspendAt := some s.now, ready := false, warmWake := false } } := by
  rw [go_starts hentry htke h0 h1 hcast hb (deepest_park hmin hmax), if_pos rfl]
  unfold startEntry
  cases hl : fetchedLeft s
  · exact tryEnter_asked (st := pwPark) (a := s.now) rfl (.inr hl) (entryState_park hmin) rfl rfl
  · exact tryEnter_waits (st := pwPark) (a := s.now) rfl rfl hl

/-- An entry to DEEP has begun. -/
def deepBegun (s : State) : State :=
  { s with aoc := { s.aoc with entry := some (pwDeep, s.now), drained := false, wakes := [], suspendAt := none, warmWake := false } }

theorem go_deep (hmin : 3500000 ≤ tolerance s) (hmax : tolerance s < 8000000) : go s x = tryEnter (deepBegun s) x := by
  rw [go_starts hentry htke h0 h1 hcast hb (deepest_deep hmin hmax), if_neg (by decide)]
  rfl

theorem go_deep_enters (hmin : 3500000 ≤ tolerance s) (hmax : tolerance s < 8000000) (hl : fetchedLeft s = false) :
    go s x = enterState (deepBegun s) pwDeep x := by
  have htol : tolerance (deepBegun s) = tolerance s := rfl
  have hleft : fetchedLeft (deepBegun s) = fetchedLeft s := rfl
  have hdeep : entryState (deepBegun s) pwDeep = some pwDeep :=
    entryState_of_deepest (deepest_deep (by rw [htol]; exact hmin) (by rw [htol]; exact hmax))
  rw [go_deep hentry htke h0 h1 hcast hb hmin hmax]
  exact tryEnter_enters (st := pwDeep) (a := s.now) rfl (.inr (hleft.trans hl)) hdeep (.inl (by decide))

theorem go_deep_waits (hmin : 3500000 ≤ tolerance s) (hmax : tolerance s < 8000000) (hl : fetchedLeft s = true) :
    go s x = deepBegun s := by
  rw [go_deep hentry htke h0 h1 hcast hb hmin hmax]
  exact tryEnter_waits (st := pwDeep) (a := s.now) rfl rfl hl

end

/-! ### The wait for fetched descriptors -/

/-- The completions that the end of the wait writes. -/
def drainLeft (s : State) : State :=
  let s1 := ((s.reqs.filter fun q => decide (q.stage ≠ .waiting)).map fun q => q.ref).foldl abortDesc s
  drainTill (s1.reqs.foldl abortTaken s1)

theorem drainLeft_within (s : State) : Within [.regs, .rolLatch, .mem, .extMem, .log, .arbs, .reqs, .till, .cqIrq, .irqs, .tke, .sps,
    .sfe, .drv, .dbk, .pps, .xlk, .nav, .sto, .fle, .vis, .can, .eth, .pnl, .upd]
    (blks [.hlm, .jrn, .til, .arb, .msix, .cqr, .rng, .can, .tke, .dbk, .isp, .vxa, .pnl, .upd, .sfe]) s (drainLeft s) :=
  drainTill_within.step (foldl_within (fun _ _ hu => abortTaken_within.step hu rfl rfl)
    (foldl_within (fun _ _ hu => abortDesc_within.step hu rfl rfl) (.refl _))) rfl rfl

section
variable (he : s.aoc.entry = some (st, a))
include he

theorem drainEnd_early (hl : fetchedLeft s = true) (h : s.now < a + 40000000) : drainEnd s x = s := by
  unfold drainEnd
  rw [he]
  exact if_pos (.inr ⟨h, hl⟩)

theorem drainEnd_late (hd : s.aoc.drained = false) (h : a + 40000000 ≤ s.now) :
    drainEnd s x = tryEnter (modAoc (drainLeft s) fun a => { a with drained := true }) x := by
  unfold drainEnd
  rw [he]
  refine if_neg ?_
  rintro (h' | ⟨h', -⟩)
  · rw [hd] at h'
    cases h'
  · exact absurd h' (not_lt.mpr h)

end

theorem entryState_congr {u : State} (ht : rget u R.AOC_WAKE_TOLERANCE_US = rget s R.AOC_WAKE_TOLERANCE_US)
    (hb : rget u R.AOC_PWR_STATE_BINDING = rget s R.AOC_PWR_STATE_BINDING) (k : Nat) : entryState u k = entryState s k := by
  unfold entryState deepest tolerance binding rbit
  rw [ht, hb]

/-! ### The wait for software -/

/-- Software has not been ready in time. -/
def suspendLate (s : State) : State :=
  modAoc (raiseEv (setOnes s R.AOC_PWR_STATE_SUSPEND_TIMEOUT) evPwrSuspendTimeout) fun a => { a with warmWake := true }

theorem suspendLate_within (s : State) : Within [.regs, .onesAt, .mem, .extMem, .log, .aoc] (blks [.aoc, .hlm, .jrn]) s (suspendLate s) :=
  modAoc_within.step (raiseEv_within.step (setOnes_within.mono rfl rfl) rfl rfl) rfl rfl

theorem suspendLate_aoc (s : State) : (suspendLate s).aoc = { s.aoc with warmWake := true } := by
  have hw : Within [.regs, .onesAt, .mem, .extMem, .log] (blks [.aoc, .hlm, .jrn]) s
      (raiseEv (setOnes s R.AOC_PWR_STATE_SUSPEND_TIMEOUT) evPwrSuspendTimeout) := raiseEv_within.step (setOnes_within.mono rfl rfl) rfl rfl
  unfold suspendLate modAoc
  rw [hw.aoc.resolve_left (by simp)]

theorem suspendLate_rget (s : State) (f : Fld) (hf : f.id / 128 = blkCode .aoc) (h : f.id ≠ R.AOC_PWR_STATE_SUSPEND_TIMEOUT.id) :
    rget (suspendLate s) f = rget s f := by
  have hnot {l : List Nat} (hl : blkCode .aoc ∉ l) : f.id / 128 ∉ l := hf ▸ hl
  have hev (u : State) : rget (modAoc (raiseEv u evPwrSuspendTimeout) fun a => { a with warmWake := true }) f = rget u f :=
    raiseEv_within.rget f 0 0 (hnot (by decide))
  exact (hev _).trans (rget_rset_ne _ _ _ _ _ _ h)

theorem suspendLate_told (s : State) : rget (suspendLate s) R.AOC_PWR_STATE_SUSPEND_TIMEOUT % 2 = 1 := by
  have hev (u : State) : rget (modAoc (raiseEv u evPwrSuspendTimeout) fun a => { a with warmWake := true })
      R.AOC_PWR_STATE_SUSPEND_TIMEOUT = rget u R.AOC_PWR_STATE_SUSPEND_TIMEOUT := raiseEv_within.rget _ 0 0 (by decide)
  have hbit := bitOf_rsetBitAt s R.AOC_PWR_STATE_SUSPEND_TIMEOUT (n := 0) true 0 0 (by decide)
  unfold suspendLate
  have hset : rget (setOnes s R.AOC_PWR_STATE_SUSPEND_TIMEOUT) R.AOC_PWR_STATE_SUSPEND_TIMEOUT =
      rget (rsetBitAt s R.AOC_PWR_STATE_SUSPEND_TIMEOUT 0 true) R.AOC_PWR_STATE_SUSPEND_TIMEOUT := rfl
  rw [hev, hset]
  simpa [bitOf] using hbit

theorem suspendTimeout_due (hs : s.aoc.suspendAt = some a) (hr : s.aoc.ready = false) (hw : s.aoc.warmWake = false)
    (hdue : a + rval s R.AOC_PARK_CFG_SUSPEND_S * fcSec ≤ s.now) (he : s.aoc.entry.isSome = true) :
    suspendTimeout s x = tryEnter (suspendLate s) x := by
  unfold suspendTimeout
  rw [hs]
  dsimp only
  rw [if_neg (by simp [hr, hw, hdue]), if_neg (by simpa using fun _ => Option.isSome_iff_ne_none.mp he)]
  rfl

theorem suspendReady_entry (hs : s.aoc.suspendAt.isSome = true) (he : s.aoc.entry = some (st, a)) :
    suspendReady s x = tryEnter (modAoc s fun a => { a with ready := true }) x := by
  unfold suspendReady
  rw [if_neg (by simpa using Option.isSome_iff_ne_none.mp hs)]
  exact if_neg (by simp [he])

end Sys2Proof.Machine
end

section
/-! Wakes, IGN and the first steps of bind-off (R410, R412, R416, R417, R420, R422). -/

namespace Sys2Proof.Machine

variable {s : State} {x : EntryMeas} {p q mask kind source : Nat}

/-! ### Wakes -/

theorem wakeEvent_entering {st a : Nat} (he : s.aoc.entry = some (st, a)) : wakeEvent s mask =
    modAoc s fun a => { a with
      wakes := a.wakes ++ (List.range 6).filter fun k => bitOf (wakeMask s st mask) k && !a.wakes.contains k } := by
  unfold wakeEvent
  rw [he]

theorem wakeEvent_awake (he : s.aoc.entry = none) (hp : s.aoc.power < 2) : wakeEvent s mask = s := by
  unfold wakeEvent
  rw [he]
  exact if_pos hp

theorem wakeEvent_unmasked (he : s.aoc.entry = none) (hp : 2 ≤ s.aoc.power) (hm : wakeMask s s.aoc.power mask = 0) :
    wakeEvent s mask = s := by
  unfold wakeEvent
  rw [he]
  exact (if_neg (not_lt.mpr hp)).trans (if_pos hm)

theorem wakeEvent_wakes (he : s.aoc.entry = none) (hp : 2 ≤ s.aoc.power) (hm : wakeMask s s.aoc.power mask ≠ 0) :
    ∃ m, wakeEvent s mask = wakeUp s m := by
  unfold wakeEvent
  rw [he]
  exact ⟨_, (if_neg (not_lt.mpr hp)).trans (if_neg hm)⟩

/-- The state left and the causes of the wake are noted. -/
def wakeNoted (s : State) (mask : Nat) : State := noteWake (rset s R.AOC_PWR_STATE_LAST s.aoc.power) mask

theorem wakeNoted_within (s : State) (mask : Nat) : Within [.regs, .rolLatch] (blks [.aoc]) s (wakeNoted s mask) :=
  noteWake_within.step (rset_within.mono rfl rfl) rfl rfl

theorem wakeField_ne_last (k : Nat) : (wakeFields.getD k R.AOC_WAKE_CAUSE_IGN).id ≠ R.AOC_PWR_STATE_LAST.id := by
  obtain h | h := Nat.lt_or_ge k 7
  · revert k
    decide
  · rw [List.getD_eq_default _ _ h]
    decide

theorem noteWake_last (s : State) (mask : Nat) : rget (noteWake s mask) R.AOC_PWR_STATE_LAST = rget s R.AOC_PWR_STATE_LAST :=
  foldl_invariant (P := fun u => rget u R.AOC_PWR_STATE_LAST = rget s R.AOC_PWR_STATE_LAST) rfl
    fun _ k _ hu => (rget_rset_ne _ _ _ _ _ _ (wakeField_ne_last k).symm).trans hu

theorem wakeUp_resumes (hp : s.aoc.power = pwPark) (hw : s.aoc.warmWake = false) :
    wakeUp s mask = wakeRaise (resumeFabric (wakeNoted s mask)) := by
  unfold wakeUp
  dsimp only
  rw [if_pos hp, hw]
  rfl

theorem wakeUp_warm (hp : s.aoc.power = pwPark) (hw : s.aoc.warmWake = true) :
    wakeUp s mask = wakeRaise (resetTo (wakeNoted s mask) kindWarm 8 false) := by
  unfold wakeUp
  dsimp only
  rw [if_pos hp, if_pos hw]
  rfl

theorem wakeUp_full (hp : s.aoc.power ≠ pwPark) :
    wakeUp s mask = wakeRaise (resetTo (wakeNoted s mask) kindFull (if s.aoc.power = pwDeep then 4 else 5) false) := by
  unfold wakeUp
  dsimp only
  rw [if_neg hp]
  rfl

/-- The fabric has its clocks again, and the row that stood begins anew. -/
def clocked (s : State) : State :=
  { s with
    fabric := true, aoc := { s.aoc with power := pwRun, wdogAt := s.now }, hlm := { s.hlm with runFrom := some s.now }
    tke := { s.tke with rowStart := s.now, rowLen := s.tke.inForce.periodUs * fcUs, edgeTime := moduleTime s } }

theorem resumeFabric_clocked (s : State) : Within [.regs, .pnl] (blks [.nav, .pnl]) (clocked s) (resumeFabric s) :=
  renewTpNext_within.step (panelView_within.step (panelView_within.mono rfl rfl) rfl rfl) rfl rfl

/-- A resume from PARK. -/
theorem wakeResumed_fields (s : State) (mask : Nat) (hpower : s.aoc.power = 2) :
    (wakeRaise (resumeFabric (wakeNoted s mask))).fabric = true ∧
    (wakeRaise (resumeFabric (wakeNoted s mask))).aoc = { s.aoc with power := 0, wdogAt := s.now } ∧
    rowNow (wakeRaise (resumeFabric (wakeNoted s mask))) = rowNow s ∧
    (wakeRaise (resumeFabric (wakeNoted s mask))).tke.rowStart = s.now ∧
    rget (wakeRaise (resumeFabric (wakeNoted s mask))) R.AOC_PWR_STATE_LAST = 2 ∧
    (wakeRaise (resumeFabric (wakeNoted s mask))).reqs = s.reqs ∧
    Within [.regs, .rolLatch, .fabric, .aoc, .hlm, .tke, .pnl, .log, .mem, .extMem] (blks [.aoc, .nav, .pnl, .hlm, .jrn]) s
      (wakeRaise (resumeFabric (wakeNoted s mask))) := by
  have hn := wakeNoted_within s mask
  have hw : Within [.regs, .pnl, .mem, .extMem, .log] (blks [.nav, .pnl, .hlm, .jrn]) (clocked (wakeNoted s mask))
      (wakeRaise (resumeFabric (wakeNoted s mask))) := wakeRaise_within.step ((resumeFabric_clocked _).mono rfl rfl) rfl rfl
  have hlast : rget (wakeNoted s mask) R.AOC_PWR_STATE_LAST = 2 := by
    unfold wakeNoted
    rw [noteWake_last, rget_rset_self, hpower]
    decide
  have hall : Within [.regs, .rolLatch, .fabric, .aoc, .hlm, .tke, .pnl, .log, .mem, .extMem] (blks [.aoc, .nav, .pnl, .hlm, .jrn]) s
      (wakeRaise (resumeFabric (wakeNoted s mask))) :=
    wakeRaise_within.step (resumeFabric_within.step (hn.mono rfl rfl) rfl rfl) rfl rfl
  have hrow : rowNow (wakeRaise (resumeFabric (wakeNoted s mask))) = rowNow s := by
    unfold rowNow rget64
    rw [hall.rget R.TKE_ROW_LO_ROW 0 0 (by decide), hall.rget R.TKE_ROW_HI_ROW 0 0 (by decide)]
  refine ⟨hw.fabric.resolve_left (by simp), ?_, hrow, ?_, ?_, hall.reqs.resolve_left (by simp), hall⟩
  · rw [hw.aoc.resolve_left (by simp)]
    show { (wakeNoted s mask).aoc with power := pwRun, wdogAt := (wakeNoted s mask).now } = _
    rw [hn.aoc.resolve_left (by simp), hn.now.resolve_left (by simp)]
    rfl
  · rw [hw.tke.resolve_left (by simp)]
    exact hn.now.resolve_left (by simp)
  · rw [hw.rget R.AOC_PWR_STATE_LAST 0 0 (by decide)]
    exact hlast

/-- A wake that is a reset. -/
theorem wakeReset_fields (s : State) (kind source : Nat) (h : kind ≠ 0) :
    (wakeRaise (resetTo s kind source false)).fabric = false ∧
    (wakeRaise (resetTo s kind source false)).aoc.power = 0 ∧
    (wakeRaise (resetTo s kind source false)).aoc.castFrom = some (s.now, firstStage kind) ∧
    rget (wakeRaise (resetTo s kind source false)) R.AOC_CASTON_STAGE = firstStage kind % 2 ^ R.AOC_CASTON_STAGE.width ∧
    rget (wakeRaise (resetTo s kind source false)) R.AOC_RESET_CAUSE_KIND = kind % 2 ^ R.AOC_RESET_CAUSE_KIND.width ∧
    rget (wakeRaise (resetTo s kind source false)) R.AOC_RESET_CAUSE_SOURCE = source % 2 ^ R.AOC_RESET_CAUSE_SOURCE.width ∧
    (wakeRaise (resetTo s kind source false)).reqs = [] ∧
    (wakeRaise (resetTo s kind source false)).pending = s.pending := by
  have hfab := resetTo_fabric s kind source false
  have haoc := resetTo_aoc s source false h
  have hstage := resetTo_stage s kind source false
  have hkind := resetTo_kind s kind source false
  have hsource := resetTo_source s kind source false
  have hreqs := resetTo_reqs s kind source false
  have hpend := resetTo_pending s kind source false
  generalize resetTo s kind source false = v at *
  have hw : Within [.regs, .mem, .extMem, .log] (blks [.hlm, .jrn]) v (wakeRaise v) := wakeRaise_within
  refine ⟨(hw.fabric.resolve_left (by simp)).trans hfab, ?_, ?_, (hw.rget _ 0 0 (by decide)).trans hstage,
    (hw.rget _ 0 0 (by decide)).trans hkind, (hw.rget _ 0 0 (by decide)).trans hsource, (hw.reqs.resolve_left (by simp)).trans hreqs,
    (hw.pending.resolve_left (by simp)).trans hpend⟩
  · rw [hw.aoc.resolve_left (by simp), haoc]
  · rw [hw.aoc.resolve_left (by simp), haoc]

/-! ### IGN -/

/-- The input as IGN's voltage and level read. -/
def ignRead (s : State) (mv level : Nat) : State := rset (rset s R.AOC_SUPPLY_IGN_100MV mv) R.AOC_SUPPLY_IGN_LEVEL level

theorem ignRead_binding (s : State) (mv level : Nat) : binding (ignRead s mv level) = binding s := by
  unfold binding rbit ignRead
  rw [rget_rset_ne _ _ _ _ _ _ (by decide), rget_rset_ne _ _ _ _ _ _ (by decide)]

/-- What an event, and a change of AOC outside the registers, leave of the input. -/
theorem ignRead_told (s : State) (f : Aoc → Aoc) (e : Nat) {mv level : Nat} (hmv : mv < 1024) (hl : level < 2) :
    rget (raiseEv (modAoc (ignRead s mv level) f) e) R.AOC_SUPPLY_IGN_100MV = mv ∧
    rget (raiseEv (modAoc (ignRead s mv level) f) e) R.AOC_SUPPLY_IGN_LEVEL = level ∧
    Within [.regs, .aoc, .log, .mem, .extMem] (blks [.aoc, .hlm, .jrn]) s (raiseEv (modAoc (ignRead s mv level) f) e) ∧
    (raiseEv (modAoc (ignRead s mv level) f) e).aoc = f s.aoc := by
  have hev : Within [.regs, .mem, .extMem, .log] (blks [.hlm, .jrn]) (modAoc (ignRead s mv level) f)
      (raiseEv (modAoc (ignRead s mv level) f) e) := raiseEv_within
  refine ⟨(hev.rget _ 0 0 (by decide)).trans ?_, (hev.rget _ 0 0 (by decide)).trans ?_, ?_, hev.aoc.resolve_left (by simp)⟩
  · exact (rget_rset_ne _ _ _ _ _ _ (by decide)).trans ((rget_rset_self _ _ _ _ _).trans (Nat.mod_eq_of_lt hmv))
  · exact (rget_rset_self _ _ _ _ _).trans (Nat.mod_eq_of_lt hl)
  · exact raiseEv_within.step (modAoc_within.step (rset_within.step (rset_within.mono rfl rfl) rfl rfl) rfl rfl) rfl rfl

theorem ignOff_low {mv : Nat} (hmv : mv < 30) (hpower : s.aoc.power < 2) (hlogic : s.aoc.logic = true) (hoff : s.aoc.ignOff = none)
    (hb : binding s = false) :
    ignOff s mv = raiseEv (modAoc (ignRead s mv 0) fun a => { a with ignOff := some s.now }) evPwrIgnOff := by
  unfold ignOff
  dsimp only
  rw [if_pos hmv, if_neg (by simp [hlogic, hoff]; omega), hb]
  rfl

theorem ignHigh_cancels {mv a : Nat} (hmv : 60 < mv) (hpower : s.aoc.power < 2) (he : s.aoc.entry = none) (hb : binding s = false)
    (hoff : s.aoc.ignOff = some a) :
    ignHigh s mv = raiseEv (modAoc (ignRead s mv 1) fun a => { a with ignOff := none }) evPwrIgnOn := by
  have hread : (ignRead s mv 1).aoc = s.aoc := rfl
  have hret : ignReturn (ignRead s mv 1) = raiseEv (modAoc (ignRead s mv 1) fun a => { a with ignOff := none }) evPwrIgnOn := by
    unfold ignReturn
    rw [if_neg (by simp [ignRead_binding, hb]), if_pos (by rw [hread, hoff]; rfl)]
  unfold ignHigh
  dsimp only
  rw [if_neg (by omega), if_neg (by simp [he]; omega)]
  exact hret

/-! ### Steps of bind-off -/

/-- Step 1 has ended: the tick engine is disarmed and the planes are in their safe states. -/
theorem bindOnce_safe (h : bindStep s = 1) : bindOnce s x = bindNext (bindSafe s) 2 := by
  unfold bindOnce
  rw [h]
  rfl

theorem bindOnce_safeTime (h : bindStep s = 2) (hwait : s.now < s.aoc.stepAt + rval s R.AOC_BIND_CFG_BIND_SAFE_MS * fcMs) :
    bindOnce s x = s := by
  unfold bindOnce
  simp only [h]
  rw [if_neg (not_le.mpr hwait)]

theorem bindOnce_tiles (h : bindStep s = 4) (hf : tilesFlushed s = false) : bindOnce s x = s := by
  unfold bindOnce
  rw [h]
  exact if_neg (by simp [hf])

theorem bindOnce_save (h : bindStep s = 5) (h6 : bindStep (bindNext (bindSave s x) 6) = 6) :
    bindOnce s x = suspendRequest (bindNext (bindSave s x) 6) := by
  unfold bindOnce
  rw [h]
  exact if_pos h6

theorem bindOnce_software (h : bindStep s = 6) (hr : s.aoc.ready = false) (hw : s.aoc.warmWake = false) : bindOnce s x = s := by
  unfold bindOnce
  rw [h]
  exact if_neg (by simp [hr, hw])

theorem bindNext_eq (k : Nat) (h : s.aoc.ignBack = false) :
    bindNext s k = modAoc (rset s R.AOC_PWR_STATE_BIND_STEP k) fun a => { a with stepAt := s.now } := if_neg (by simp [h])

/-- One step is taken, and the next does not end now. -/
theorem bindRun_once {u : State} (hb : binding s = true) (hstep : bindOnce s x = u) (hstay : bindOnce u x = u) : bindRun s x = u := by
  have hseven : List.range 7 = 0 :: [1, 2, 3, 4, 5, 6] := by decide
  unfold bindRun
  rw [hseven, List.foldl_cons, if_pos hb, hstep]
  exact foldl_eq_self fun k _ => by rw [hstay, ite_self]

theorem bindRun_stays (hb : binding s = true) (h : bindOnce s x = s) : bindRun s x = s := bindRun_once hb h h

/-! ### The safe states that bind-off takes the planes to -/

/-- A plane whose channels have taken their safe states, with the windows of a list expired. -/
def safed (s : State) (p : Nat) (l : List Nat) : State :=
  setPps (rset s R.PPS_STATUS_SAFE_ACTIVE 1 p) p { getPps (rset s R.PPS_STATUS_SAFE_ACTIVE 1 p) p with expired := l }

theorem safeNow_cases (s : State) (p : Nat) : ∃ l, safeNow s p =
    if planeArmed s p && (getPps s p).live && !ppsLoading s p then safed (safeAll s p) p l else s := ⟨_, rfl⟩

theorem safed_safe (s : State) (p : Nat) (l : List Nat) : rget (safed s p l) R.PPS_STATUS_SAFE_ACTIVE p = 1 := rget_rset_self _ _ _ _ _

theorem safed_rget_of_key_ne (s : State) (l : List Nat) {f : Fld} {i : Nat} (h : R.PPS_STATUS_SAFE_ACTIVE.key p 0 ≠ f.key i 0) :
    rget (safed s p l) f i = rget s f i := rget_rset_of_key_ne _ _ h

theorem getPps_safed_ne (s : State) (l : List Nat) (h : q ≠ p) : getPps (safed s p l) q = getPps s q := getPps_setPps_ne _ _ h

theorem safed_upd (s : State) (p : Nat) (l : List Nat) : (safed s p l).upd = s.upd := rfl

theorem safeNow_safe (ha : planeArmed s p = true) (hl : (getPps s p).live = true) (hload : ppsLoading s p = false) :
    rbit (safeNow s p) R.PPS_STATUS_SAFE_ACTIVE p = true := by
  obtain ⟨l, hs⟩ := safeNow_cases s p
  rw [hs, if_pos (by rw [ha, hl, hload]; rfl)]
  exact (rbit_iff ..).mpr (safed_safe ..)

/-- The other plane stands. -/
theorem safeNow_other (s : State) (h : q ≠ p) (hf : R.PPS_STATUS_SAFE_ACTIVE.key p 0 ≠ R.PPS_STATUS_SAFE_ACTIVE.key q 0)
    (hf' : R.PPS_STATUS_SAFE_ACTIVE.key p 0 ≠ R.PPS_CTRL_ARMED.key q 0) :
    rget (safeNow s p) R.PPS_STATUS_SAFE_ACTIVE q = rget s R.PPS_STATUS_SAFE_ACTIVE q ∧ planeArmed (safeNow s p) q = planeArmed s q ∧
    getPps (safeNow s p) q = getPps s q ∧ ppsLoading (safeNow s p) q = ppsLoading s q := by
  have hall : Within [.regs, .mem, .extMem, .log, .reqs, .till, .drv, .dbk, .sw, .hlm] (blks [.sbk, .dbk, .hlm, .jrn]) s (safeAll s p) :=
    safeAll_within
  obtain ⟨l, hs⟩ := safeNow_cases s p
  rw [hs]
  split
  · refine ⟨(safed_rget_of_key_ne _ _ hf).trans (hall.rget _ _ _ (by decide)), ?_, ?_, ?_⟩
    · exact congrArg (· == 1) ((safed_rget_of_key_ne _ _ hf').trans (hall.rget R.PPS_CTRL_ARMED q 0 (by decide)))
    · refine (getPps_safed_ne _ _ h).trans ?_
      exact congrArg (fun l => tblGetD l q Pps.idle) (hall.pps.resolve_left (by simp))
    · exact congrArg (fun u : Upd => (tblGet? u.applying q).isSome) ((safed_upd ..).trans <| hall.upd.resolve_left (by simp))
  · exact ⟨rfl, rfl, rfl, rfl⟩

theorem bindSafe_planes (s : State) (p : Nat) (hp : p < 2) (ha : planeArmed s p = true) (hl : (getPps s p).live = true)
    (hload : ppsLoading s p = false) : rbit (bindSafe s) R.PPS_STATUS_SAFE_ACTIVE p = true := by
  have hd : Within [.regs, .tke, .xlk] (blks [.tke]) s (disarmTke s) := disarmTke_within
  have ha' : planeArmed (disarmTke s) p = true := (hd.rbit _ _ _ (by decide)).trans ha
  have hl' : (getPps (disarmTke s) p).live = true :=
    (congrArg (fun l => (tblGetD l p Pps.idle).live) (hd.pps.resolve_left (by simp))).trans hl
  have hload' : ppsLoading (disarmTke s) p = false :=
    (congrArg (fun u : Upd => (tblGet? u.applying p).isSome) (hd.upd.resolve_left (by simp))).trans hload
  unfold bindSafe
  obtain rfl | rfl : p = 0 ∨ p = 1 := by omega
  · exact (congrArg (· == 1) (safeNow_other _ (by decide) (by decide) (by decide)).1).trans (safeNow_safe ha' hl' hload')
  · obtain ⟨-, harm, hpps, hupd⟩ := safeNow_other (disarmTke s) (p := 0) (q := 1) (by decide) (by decide) (by decide)
    exact safeNow_safe (harm.trans ha') ((congrArg Pps.live hpps).trans hl') (hupd.trans hload')

theorem bindSafe_disarmed (s : State) : tkeArmed (bindSafe s) = false := by
  have hw : Within [.regs, .mem, .extMem, .log, .reqs, .till, .drv, .dbk, .sw, .pps, .hlm] (blks [.pps, .sbk, .dbk, .hlm, .jrn])
      (disarmTke s) (bindSafe s) := safeNow_within.step safeNow_within rfl rfl
  exact (hw.rbit R.TKE_CTRL_ARMED 0 0 (by decide)).trans (disarmTke_fields s).1

/-! ### Bind-off begins -/

/-- Bind-off stands at step 1. -/
def bindOpened (s : State) : State :=
  modAoc (rset (rset s R.AOC_PWR_STATE_BINDING 1) R.AOC_PWR_STATE_BIND_STEP 1) fun a =>
    { a with stepAt := s.now, ignBack := false, ignOff := none, warmWake := false }

/-- Bind-off stands at step 2. -/
def bindSafed (s : State) : State :=
  modAoc (rset (bindSafe (bindOpened s)) R.AOC_PWR_STATE_BIND_STEP 2) fun a => { a with stepAt := (bindSafe (bindOpened s)).now }

theorem bindOpened_within (s : State) : Within [.regs, .aoc] (blks [.aoc]) s (bindOpened s) :=
  modAoc_within.step (rset_within.step (rset_within.mono rfl rfl) rfl rfl) rfl rfl

theorem bindSafed_fields (s : State) :
    binding (bindSafed s) = true ∧ bindStep (bindSafed s) = 2 ∧
    (bindSafed s).aoc = { s.aoc with stepAt := s.now, ignBack := false, ignOff := none, warmWake := false } ∧
    tkeArmed (bindSafed s) = false ∧
    (∀ p < 2, planeArmed s p = true → (getPps s p).live = true → ppsLoading s p = false →
      rbit (bindSafed s) R.PPS_STATUS_SAFE_ACTIVE p = true) ∧
    (bindSafed s).fabric = s.fabric ∧ (bindSafed s).pending = s.pending ∧ (bindSafed s).now = s.now ∧
    rval (bindSafed s) R.AOC_BIND_CFG_BIND_SAFE_MS = rval s R.AOC_BIND_CFG_BIND_SAFE_MS := by
  have ho := bindOpened_within s
  have hw : Within [.regs, .mem, .extMem, .log, .reqs, .till, .tke, .drv, .dbk, .sw, .pps, .xlk, .hlm]
    (blks [.pps, .sbk, .dbk, .hlm, .jrn, .tke]) (bindOpened s) (bindSafe (bindOpened s)) := bindSafe_within
  have hnow : (bindSafe (bindOpened s)).now = s.now := hw.now.resolve_left (by simp)
  have haoc : (bindSafe (bindOpened s)).aoc = { s.aoc with stepAt := s.now, ignBack := false, ignOff := none, warmWake := false } :=
    hw.aoc.resolve_left (by simp)
  have hbind : rget (bindSafe (bindOpened s)) R.AOC_PWR_STATE_BINDING = 1 :=
    (hw.rget _ 0 0 (by decide)).trans ((rget_rset_ne _ _ _ _ _ _ (by decide)).trans (rget_rset_self _ _ _ _ _))
  have hmax : rget (bindSafe (bindOpened s)) R.AOC_BIND_CFG_BIND_SAFE_MS = rget s R.AOC_BIND_CFG_BIND_SAFE_MS :=
    (hw.rget _ 0 0 (by decide)).trans ((rget_rset_ne _ _ _ _ _ _ (by decide)).trans (rget_rset_ne _ _ _ _ _ _ (by decide)))
  have hsafe := bindSafe_planes (bindOpened s)
  have hdis := bindSafe_disarmed (bindOpened s)
  have hfab : (bindSafe (bindOpened s)).fabric = s.fabric := hw.fabric.resolve_left (by simp)
  have hpend : (bindSafe (bindOpened s)).pending = s.pending := hw.pending.resolve_left (by simp)
  unfold bindSafed
  generalize bindSafe (bindOpened s) = v at *
  have hread (f : Fld) (i : Nat) (hf : f.id ≠ R.AOC_PWR_STATE_BIND_STEP.id) :
      rget (modAoc (rset v R.AOC_PWR_STATE_BIND_STEP 2) fun a => { a with stepAt := v.now }) f i = rget v f i :=
    rget_rset_ne _ _ _ _ _ _ hf
  refine ⟨(rbit_iff ..).mpr ((hread _ 0 (by decide)).trans hbind), rget_rset_self _ _ _ _ _, ?_,
    (congrArg (· == 1) (hread R.TKE_CTRL_ARMED 0 (by decide))).trans hdis, fun p hp ha hl hload => ?_, hfab, hpend, hnow, ?_⟩
  · unfold modAoc
    dsimp only [rset]
    rw [haoc, hnow]
  · have harm : planeArmed (bindOpened s) p = true := (ho.rbit _ _ _ (by decide)).trans ha
    exact (congrArg (· == 1) (hread R.PPS_STATUS_SAFE_ACTIVE p (by decide))).trans (hsafe p hp harm hl hload)
  · unfold rval
    rw [hread _ 0 (by decide), hmax]

theorem bindBegin_eq (h : 0 < rval s R.AOC_BIND_CFG_BIND_SAFE_MS) : bindBegin s x = bindSafed s := by
  have hrun : bindBegin s x = bindRun (bindOpened s) x := rfl
  have hback : (bindSafe (bindOpened s)).aoc.ignBack = false :=
    congrArg Aoc.ignBack (bindSafe_within.aoc.resolve_left (by simp) : _ = (bindOpened s).aoc)
  have hopen : binding (bindOpened s) = true :=
    (rbit_iff ..).mpr ((rget_rset_ne _ _ _ _ _ _ (by decide)).trans (rget_rset_self _ _ _ _ _))
  have hone : bindStep (bindOpened s) = 1 := rget_rset_self _ _ _ _ _
  obtain ⟨-, htwo, haoc, -, -, -, -, hnow, hval⟩ := bindSafed_fields s
  rw [hrun]
  refine bindRun_once hopen ((bindOnce_safe hone).trans (bindNext_eq 2 hback)) (bindOnce_safeTime htwo ?_)
  have hpos : 0 < rval s R.AOC_BIND_CFG_BIND_SAFE_MS * fcMs := Nat.mul_pos h (by decide)
  rw [haoc, hnow, hval]
  exact Nat.lt_add_of_pos_right hpos

/-! ### The tiles that are late stay dirty -/

/-- The tiles' time is over. -/
def tilesTold (s : State) : State := raiseEv (setOnes s R.AOC_PWR_STATE_BIND_TIMEOUT) evPwrBindTimeout

/-- A step of bind-off stands from now on. -/
def stepBegun (s : State) (k : Nat) : State := modAoc (rset s R.AOC_PWR_STATE_BIND_STEP k) fun a => { a with stepAt := s.now }

theorem stepBegun_within (s : State) (k : Nat) : Within [.regs, .aoc] (blks [.aoc]) s (stepBegun s k) :=
  modAoc_within.step (rset_within.mono rfl rfl) rfl rfl

theorem stepBegun_step (s : State) {k : Nat} (h : k < 8) : bindStep (stepBegun s k) = k :=
  (rget_rset_self _ _ _ _ _).trans (Nat.mod_eq_of_lt h)

theorem stepBegun_rget (s : State) (k : Nat) {f : Fld} (h : f.id ≠ R.AOC_PWR_STATE_BIND_STEP.id) : rget (stepBegun s k) f = rget s f :=
  rget_rset_ne _ _ _ _ _ _ h

theorem tilesTold_within (s : State) : Within [.regs, .onesAt, .log, .mem, .extMem] (blks [.aoc, .hlm, .jrn]) s (tilesTold s) :=
  raiseEv_within.step (setOnes_within.mono rfl rfl) rfl rfl

theorem tilesTold_reads (s : State) : rget (tilesTold s) R.AOC_PWR_STATE_BIND_TIMEOUT % 2 = 1 ∧
    rget (tilesTold s) R.AOC_PWR_STATE_BINDING = rget s R.AOC_PWR_STATE_BINDING := by
  have hev (f : Fld) (hf : f.id / 128 = blkCode .aoc) : rget (tilesTold s) f =
      rget (rsetBitAt s R.AOC_PWR_STATE_BIND_TIMEOUT 0 true) f := raiseEv_within.rget f 0 0 (by rw [hf]; decide)
  have hbit := bitOf_rsetBitAt s R.AOC_PWR_STATE_BIND_TIMEOUT (n := 0) true 0 0 (by decide)
  rw [hev _ rfl, hev _ rfl]
  exact ⟨by simpa [bitOf] using hbit, rget_rset_ne _ _ _ _ _ _ (by decide)⟩

/-- Step 5: NAV saves, the RTC is set where module time is GNSS's, and the sessions close. -/
theorem bindSave_reads (s : State) (x : EntryMeas) {f : Fld} (hf : f.id / 128 = blkCode .aoc) (h : f.id ≠ R.AOC_PWR_STATE_RTC_VALID.id) :
    rget (bindSave s x) f = rget s f := by
  have hnot {l : List Nat} (hl : blkCode .aoc ∉ l) : f.id / 128 ∉ l := hf ▸ hl
  have hnav : rget (navStore s x.ephemeris x.almanac) f = rget s f := navStore_within.rget f 0 0 (by simp)
  unfold bindSave
  dsimp only
  rw [fleClose_within.rget f 0 0 (hnot (by decide))]
  split
  · exact (rget_rset_ne _ _ _ _ _ _ h).trans hnav
  · exact hnav

theorem bindSave_saved (s : State) (x : EntryMeas) : (bindSave s x).nav.saved.isSome = true := by
  unfold bindSave
  dsimp only
  rw [fleClose_within.nav.resolve_left (by simp)]
  split
  · rw [setRtc_within.nav.resolve_left (by simp)]
    rfl
  · rfl

/-- Bind-off stands at step 6, the tiles that were late still dirty. -/
def bindLate (s : State) (x : EntryMeas) : State := suspendRequest (stepBegun (bindSave (stepBegun (tilesTold s) 5) x) 6)

theorem suspendRequest_stepBegun (s : State) (k : Nat) : (suspendRequest (stepBegun s k)).aoc =
    { s.aoc with stepAt := s.now, suspendAt := some s.now, ready := false, warmWake := false } := rfl

theorem suspendRequest_rget (s : State) (f : Fld) : rget (suspendRequest s) f = rget s f := rfl

theorem bindLate_fields (s : State) (x : EntryMeas) :
    bindStep (bindLate s x) = 6 ∧
    (bindLate s x).aoc = { s.aoc with stepAt := s.now, suspendAt := some s.now, ready := false, warmWake := false } ∧
    rget (bindLate s x) R.AOC_PWR_STATE_BIND_TIMEOUT % 2 = 1 ∧ (bindLate s x).nav.saved.isSome = true ∧
    Within [.regs, .onesAt, .aoc, .nav, .fle, .rtcOff, .log, .mem, .extMem] (blks [.aoc, .fle, .hlm, .jrn]) s (bindLate s x) := by
  have htold := tilesTold_within s
  have hsave : Within [.regs, .rtcOff, .nav, .fle] (blks [.fle, .aoc]) (stepBegun (tilesTold s) 5) (bindSave (stepBegun (tilesTold s) 5) x) :=
    bindSave_within
  have hall : Within [.regs, .onesAt, .aoc, .nav, .fle, .rtcOff, .log, .mem, .extMem] (blks [.aoc, .fle, .hlm, .jrn]) s (bindLate s x) :=
    suspendRequest_within.step ((stepBegun_within _ 6).step (bindSave_within.step ((stepBegun_within _ 5).step (htold.mono rfl rfl)
      rfl rfl) rfl rfl) rfl rfl) rfl rfl
  have hnow : (bindSave (stepBegun (tilesTold s) 5) x).now = s.now :=
    (hsave.now.resolve_left (by simp)).trans (htold.now.resolve_left (by simp))
  have haoc : (bindSave (stepBegun (tilesTold s) 5) x).aoc = { s.aoc with stepAt := s.now } := by
    rw [hsave.aoc.resolve_left (by simp)]
    show { (tilesTold s).aoc with stepAt := (tilesTold s).now } = _
    rw [htold.aoc.resolve_left (by simp), htold.now.resolve_left (by simp)]
  have htime : rget (bindSave (stepBegun (tilesTold s) 5) x) R.AOC_PWR_STATE_BIND_TIMEOUT % 2 = 1 := by
    rw [bindSave_reads _ x rfl (by decide), stepBegun_rget _ _ (by decide)]
    exact (tilesTold_reads s).1
  have hsaved := bindSave_saved (stepBegun (tilesTold s) 5) x
  unfold bindLate at *
  generalize bindSave (stepBegun (tilesTold s) 5) x = v at *
  refine ⟨(suspendRequest_rget ..).trans (stepBegun_step _ (by decide)), ?_, ?_, hsaved, hall⟩
  · rw [suspendRequest_stepBegun, haoc, hnow]
  · rw [suspendRequest_rget, stepBegun_rget _ _ (by decide)]
    exact htime

theorem bindTileTimeout_late (hb : binding s = true) (hstep : bindStep s = 4) (hf : tilesFlushed s = false) (hback : s.aoc.ignBack = false)
    (hdue : s.aoc.stepAt + rval s R.AOC_BIND_CFG_BIND_TILE_MAX_S * fcSec ≤ s.now) : bindTileTimeout s x = bindLate s x := by
  have hb1 : (tilesTold s).aoc.ignBack = false := (congrArg Aoc.ignBack ((tilesTold_within s).aoc.resolve_left (by simp))).trans hback
  have hb2 : (bindSave (stepBegun (tilesTold s) 5) x).aoc.ignBack = false :=
    (congrArg Aoc.ignBack (bindSave_within.aoc.resolve_left (by simp) : _ = (stepBegun (tilesTold s) 5).aoc)).trans hb1
  have hnext : bindNext (bindSave (stepBegun (tilesTold s) 5) x) 6 = stepBegun (bindSave (stepBegun (tilesTold s) 5) x) 6 :=
    bindNext_eq 6 hb2
  have hlate := stepBegun_step (bindSave (stepBegun (tilesTold s) 5) x) (k := 6) (by decide)
  have hopen : binding (stepBegun (tilesTold s) 5) = true := by
    unfold binding
    rw [rbit_iff, stepBegun_rget _ _ (by decide), (tilesTold_reads s).2]
    exact (rbit_iff ..).mp hb
  obtain ⟨hsix, haoc, -⟩ := bindLate_fields s x
  have hrun : bindTileTimeout s x = bindRun (bindNext (tilesTold s) 5) x := if_pos ⟨hb, hstep, by simp [hf], hdue⟩
  rw [hrun, bindNext_eq 5 hb1]
  refine bindRun_once hopen ((bindOnce_save (stepBegun_step _ (by decide)) (by rw [hnext, hlate])).trans (congrArg _ hnext))
    (bindOnce_software hsix ?_ ?_)
  · rw [haoc]
  · rw [haoc]

end Sys2Proof.Machine
end

section
/-! O44: descent, TRIM, wake, ignition and bind-off (R409–R422). -/

namespace Sys2Proof.Machine

variable {s : State}

theorem trimEnter_takes (hp : s.aoc.power = 0) (h : 50 ≤ tolerance s) (he : s.aoc.entry = none) :
    trimEnter s = { s with aoc := { s.aoc with power := 1 } } := if_pos ⟨hp, h, by rw [he]; rfl⟩

theorem trimExit_takes (hp : s.aoc.power = 1) :
    trimExit s = rset { s with aoc := { s.aoc with power := 0 } } R.AOC_PWR_STATE_LAST 1 := if_pos hp

/-- An entry that has been refused, after software's answer. -/
theorem entryRefuse_ready (s : State) : entryRefuse (modAoc s fun a => { a with ready := true }) =
    rset { s with aoc := { s.aoc with
      entry := none, drained := false, suspendAt := none, ready := false, warmWake := false, wakes := [] } } R.AOC_PWR_STATE_SLEEP_ERR 3 := rfl

/-- DEEP with the host link down touches AOC, NAV's store and the panels alone. -/
theorem enterDeep_within (x : EntryMeas) (h : rbit s R.HLK_STATUS_LINK_UP = false) (hw : s.aoc.wakes = []) :
    Within [.regs, .aoc, .nav, .pnl, .hlm, .fabric] (blks [.aoc, .pnl]) s (enterState s pwDeep x) := by
  have hbase : Within [.regs, .aoc, .nav, .pnl, .hlm, .fabric] (blks [.aoc, .pnl]) s (entryBase s pwDeep x) := by
    have hlink : entryLink s = s := if_neg (by simp [h])
    have htimed (u : State) : entryTimed u pwDeep x = u := if_neg fun hc => absurd hc.1 (by decide)
    unfold entryBase
    rw [htimed, hlink]
    exact (entryQuiet_within _ _).step ((entrySaved_within _ _ _ _).mono rfl rfl) rfl rfl
  rw [enterState_asleep hw]
  unfold asleep
  exact within_fabric_aoc hbase rfl

/-- TC10_WAKE_RX of a port that software runs brings its link up. -/
theorem tc10Rx_up {p : Nat} (hfab : s.fabric = true) (hp : s.aoc.power < 2) (he : s.aoc.entry = none) (hlt : p < 4)
    (hwake : rbit s R.ETH_CTRL_WAKE_EN p = true) : tc10Rx s p = raiseEv (ethLinkUp s p) evEthWake p := by
  have hrun : running s = true := by
    unfold running
    rw [hfab, decide_eq_true (Nat.le_of_lt_succ hp)]
    rfl
  have hw : Within [.regs, .eth, .mem, .extMem, .log] (blks [.eth, .hlm, .jrn]) s (raiseEv (ethLinkUp s p) evEthWake p) :=
    raiseEv_within.step (ethLinkUp_within.mono rfl rfl) rfl rfl
  have hup : tc10WakeRx s p = raiseEv (ethLinkUp s p) evEthWake p := if_pos ⟨hlt, hwake⟩
  unfold tc10Rx
  dsimp only
  rw [if_pos hrun, if_pos hwake, hup]
  exact wakeEvent_awake ((congrArg Aoc.entry (hw.aoc.resolve_left (by simp))).trans he)
    ((congrArg Aoc.power (hw.aoc.resolve_left (by simp))).trans_lt hp)

theorem ethLinkUp_eq {p : Nat} (hen : rbit s R.ETH_CTRL_EN p = true) : ethLinkUp s p =
    rset (rset (modEth s p fun e => { e with role := some (linkRole s p) }) R.ETH_STATUS_LINK_UP 1 p) R.ETH_STATUS_ASLEEP 0 p :=
  if_pos hen

/-- Settles O44. -/
theorem powerStates : Obligations.PowerStates := by
  unfold Obligations.PowerStates
  refine ⟨?armed, ?shallow, ?binding, ?park, ?deep, ?deepLink, ?deepWaits, ?drainEarly, ?drainPark, ?drainEnters, ?readyEnters,
    ?readyRefused, ?readyWaits, ?lateWaits, ?lateEnters, ?trimIn, ?trimOut, ?wakePark, ?wakeEntry, ?wakeWarm, ?wakeFull, ?wakeMasked,
    ?ignLow, ?ignBack, ?bindDelay, ?bindAsked, ?bindTiles, ?tilesLate, ?tc10⟩
  case armed =>
    intro s t x hfab he harm
    have herr : goError (advance s t) = 1 := if_pos harm
    exact (atFabric_up s t (fun s => go s x) hfab).trans (congrArg _ (go_refused (.inl he) herr (by decide)))
  case shallow =>
    intro s t x hfab he htke h0 h1 htol
    have herr := goError_shallow (s := advance s t) htke h0 h1 htol
    exact (atFabric_up s t (fun s => go s x) hfab).trans (congrArg _ (go_refused (.inl he) herr (by decide)))
  case binding =>
    intro s t x hfab htke h0 h1 hb htol
    have herr := goError_binding (s := advance s t) htke h0 h1 hb htol
    exact (atFabric_up s t (fun s => go s x) hfab).trans (congrArg _ (go_refused (.inr hb) herr (by decide)))
  case park =>
    intro s t x hfab he htke h0 h1 hcast hb hmin hmax
    exact (atFabric_up s t (fun s => go s x) hfab).trans (congrArg _ (go_park (s := advance s t) he htke h0 h1 hcast hb hmin hmax))
  case deep =>
    intro s t x hfab he htke h0 h1 hcast hb hmin hmax hleft hlink
    have hgo := go_deep_enters (s := advance s t) (x := x) he htke h0 h1 hcast hb hmin hmax hleft
    obtain ⟨hfab', haoc, -, -, -, -, hsaved, hblank, -⟩ := enterState_fields (deepBegun (advance s t)) pwDeep x rfl
    obtain ⟨hb0, hb1⟩ := hblank (by decide)
    have hw := (enterDeep_within (s := deepBegun (advance s t)) x hlink rfl)
    have hall : Within [.regs, .aoc, .nav, .pnl, .hlm, .fabric] (blks [.aoc, .pnl]) (advance s t)
        (enterState (deepBegun (advance s t)) pwDeep x) := hw.step (within_aoc (.refl _) rfl) rfl rfl
    have hset := hsaved (by decide)
    have haoc' : (enterState (deepBegun (advance s t)) pwDeep x).aoc = { s.aoc with
      power := 3, entry := none, drained := false, suspendAt := none, ready := false, ignOff := none, ignBack := false,
      parkedAt := max s.now t, wakes := [], warmWake := false } := haoc
    generalize enterState (deepBegun (advance s t)) pwDeep x = v at *
    exact ⟨_, (atFabric_up s t (fun s => go s x) hfab).trans (congrArg _ hgo), hfab', haoc', hset, hb0, hb1,
      hall.blocksOnly, hall.eq_frame⟩
  case deepLink =>
    intro s t x hfab he htke h0 h1 hcast hb hmin hmax hleft
    have hgo := go_deep_enters (s := advance s t) (x := x) he htke h0 h1 hcast hb hmin hmax hleft
    obtain ⟨hfab', haoc, hlink, -⟩ := enterState_fields (deepBegun (advance s t)) pwDeep x rfl
    exact ⟨_, (atFabric_up s t (fun s => go s x) hfab).trans (congrArg _ hgo), hfab', congrArg Aoc.power haoc, hlink⟩
  case deepWaits =>
    intro s t x hfab he htke h0 h1 hcast hb hmin hmax hleft
    have hgo := go_deep_waits (s := advance s t) (x := x) he htke h0 h1 hcast hb hmin hmax hleft
    exact (atFabric_up s t (fun s => go s x) hfab).trans (congrArg _ hgo)
  case drainEarly =>
    intro s t x a st hfab he hleft hearly
    exact (atFabric_up s t (fun s => drainEnd s x) hfab).trans (congrArg _ (drainEnd_early (s := advance s t) he hleft hearly))
  case drainPark =>
    intro s t x a hfab he hd hlate hready hwarm hsus htol
    have hw := drainLeft_within (advance s t)
    have haoc : (drainLeft (advance s t)).aoc = s.aoc := hw.aoc.resolve_left (by simp)
    have hgo := drainEnd_late (s := advance s t) (x := x) he hd hlate
    have htol' : 180000 ≤ tolerance (drainLeft (advance s t)) := htol.trans_eq (hw.rget R.AOC_WAKE_TOLERANCE_US 0 0 (by decide)).symm
    have hfab' : (drainLeft (advance s t)).fabric = true := (hw.fabric.resolve_left (by simp)).trans hfab
    have hpend : (drainLeft (advance s t)).pending = s.pending := hw.pending.resolve_left (by simp)
    have hnow : (drainLeft (advance s t)).now = max s.now t := hw.now.resolve_left (by simp)
    generalize drainLeft (advance s t) = v at *
    have hstay : tryEnter (modAoc v fun a => { a with drained := true }) x = modAoc v fun a => { a with drained := true } :=
      tryEnter_asked (st := 2) (a := a) ((congrArg Aoc.entry haoc).trans he) (.inl rfl) (entryState_park htol')
        ((congrArg (fun k : Aoc => k.suspendAt.isSome) haoc).trans hsus)
        ((congrArg (fun k : Aoc => k.suspendAt.isSome && (k.ready || k.warmWake)) haoc).trans (by rw [hready, hwarm, hsus]; rfl))
    exact ⟨_, (atFabric_up s t (fun s => drainEnd s x) hfab).trans (congrArg _ (hgo.trans hstay)),
      congrArg (fun k : Aoc => { k with drained := true }) haoc, hfab', hpend, hnow⟩
  case drainEnters =>
    intro s t x a st hfab he hst hk hd hlate hwakes
    have hw := drainLeft_within (advance s t)
    have haoc : (drainLeft (advance s t)).aoc = s.aoc := hw.aoc.resolve_left (by simp)
    have hgo := drainEnd_late (s := advance s t) (x := x) he hd hlate
    have hk' : entryState (drainLeft (advance s t)) st = some st :=
      (entryState_congr (hw.rget _ 0 0 (by decide)) (hw.rget _ 0 0 (by decide)) st).trans hk
    have hpend : (drainLeft (advance s t)).pending = s.pending := hw.pending.resolve_left (by simp)
    have hnow : (drainLeft (advance s t)).now = max s.now t := hw.now.resolve_left (by simp)
    generalize drainLeft (advance s t) = v at *
    have hgo' : tryEnter (modAoc v fun a => { a with drained := true }) x = enterState (modAoc v fun a => { a with drained := true }) st x :=
      tryEnter_enters ((congrArg Aoc.entry haoc).trans he) (.inl rfl) hk' (.inl hst)
    obtain ⟨hfab', haoc', hlink, hpend', hnow', -, -, hblank, -⟩ := enterState_fields (modAoc v fun a => { a with drained := true }) st x
      ((congrArg Aoc.wakes haoc).trans hwakes)
    obtain ⟨hb0, hb1⟩ := hblank hst
    refine ⟨_, (atFabric_up s t (fun s => drainEnd s x) hfab).trans (congrArg _ (hgo.trans hgo')), hfab', ?_, hlink, hb0, hb1,
      hpend'.trans hpend, hnow'.trans hnow⟩
    rw [haoc']
    unfold modAoc
    dsimp only
    rw [haoc, hnow]
  case readyEnters =>
    intro s t x a b hfab he hsus hclear hk hwakes
    have hgo := suspendReady_entry (s := advance s t) (x := x) (by rw [show (advance s t).aoc.suspendAt = some b from hsus]; rfl) he
    have hin : tryEnter (modAoc (advance s t) fun a => { a with ready := true }) x =
        enterState (modAoc (advance s t) fun a => { a with ready := true }) pwPark x :=
      tryEnter_enters he hclear hk (.inr (by
        unfold suspended modAoc
        rw [show (advance s t).aoc.suspendAt = some b from hsus]
        rfl))
    obtain ⟨hfab', haoc, hlink, hpend, hnow, hrow, hsaved, -⟩ :=
      enterState_fields (modAoc (advance s t) fun a => { a with ready := true }) pwPark x hwakes
    exact ⟨_, (atFabric_up s t (fun s => suspendReady s x) hfab).trans (congrArg _ (hgo.trans hin)), hfab', haoc, hsaved (by decide),
      hlink, hrow, hpend, hnow⟩
  case readyRefused =>
    intro s t x a b st hfab he hsus hclear htol hb
    have hgo := suspendReady_entry (s := advance s t) (x := x) (by rw [show (advance s t).aoc.suspendAt = some b from hsus]; rfl) he
    have hno : tryEnter (modAoc (advance s t) fun a => { a with ready := true }) x =
        entryRefuse (modAoc (advance s t) fun a => { a with ready := true }) :=
      tryEnter_refused he hclear (entryState_none (s := modAoc (advance s t) fun a => { a with ready := true }) htol hb)
    exact (atFabric_up s t (fun s => suspendReady s x) hfab).trans (congrArg _ (hgo.trans (hno.trans (entryRefuse_ready _))))
  case readyWaits =>
    intro s t x a b hfab he hsus hd hleft
    have hgo := suspendReady_entry (s := advance s t) (x := x) (by rw [show (advance s t).aoc.suspendAt = some b from hsus]; rfl) he
    exact (atFabric_up s t (fun s => suspendReady s x) hfab).trans (congrArg _ (hgo.trans (tryEnter_waits he hd hleft)))
  case lateWaits =>
    intro s t x a b st hfab he hsus hready hwarm hdue hleft hd
    have hw := suspendLate_within (advance s t)
    have haoc : (suspendLate (advance s t)).aoc = { s.aoc with warmWake := true } := suspendLate_aoc (advance s t)
    have hgo := suspendTimeout_due (s := advance s t) (x := x) hsus hready hwarm hdue (by rw [show (advance s t).aoc.entry = some (st, b) from he]; rfl)
    have htold := suspendLate_told (advance s t)
    have hreqs : (suspendLate (advance s t)).reqs = s.reqs := hw.reqs.resolve_left (by simp)
    have hstay : tryEnter (suspendLate (advance s t)) x = suspendLate (advance s t) :=
      tryEnter_waits ((congrArg Aoc.entry haoc).trans he) ((congrArg Aoc.drained haoc).trans hd)
        ((congrArg (fun l : List Req => l.any fun q => decide (q.stage ≠ .waiting)) hreqs).trans hleft)
    exact ⟨_, (atFabric_up s t (fun s => suspendTimeout s x) hfab).trans (congrArg _ (hgo.trans hstay)), haoc, htold, hreqs,
      hw.blocksOnly, hw.eq_frame⟩
  case lateEnters =>
    intro s t x a b hfab he hsus hready hwarm hdue hclear hk hwakes
    have hw := suspendLate_within (advance s t)
    have haoc : (suspendLate (advance s t)).aoc = { s.aoc with warmWake := true } := suspendLate_aoc (advance s t)
    have hgo := suspendTimeout_due (s := advance s t) (x := x) hsus hready hwarm hdue (by rw [show (advance s t).aoc.entry = some (2, b) from he]; rfl)
    have htold := suspendLate_told (advance s t)
    have hreqs : (suspendLate (advance s t)).reqs = s.reqs := hw.reqs.resolve_left (by simp)
    have hpend : (suspendLate (advance s t)).pending = s.pending := hw.pending.resolve_left (by simp)
    have hnow : (suspendLate (advance s t)).now = max s.now t := hw.now.resolve_left (by simp)
    have hk' : entryState (suspendLate (advance s t)) 2 = some 2 :=
      (entryState_congr (suspendLate_rget _ _ rfl (by decide)) (suspendLate_rget _ _ rfl (by decide)) 2).trans hk
    generalize suspendLate (advance s t) = v at *
    have hclear' : EntryClear v := hclear.imp ((congrArg Aoc.drained haoc).trans ·)
      ((congrArg (fun l : List Req => l.any fun q => decide (q.stage ≠ .waiting)) hreqs).trans ·)
    have hin : tryEnter v x = enterState v pwPark x := tryEnter_enters ((congrArg Aoc.entry haoc).trans he) hclear' hk' (.inr (by
      unfold suspended
      rw [haoc, hsus]
      simp))
    obtain ⟨hfab', haoc', -, hpend', hnow', -, -, -, htime⟩ := enterState_fields v pwPark x ((congrArg Aoc.wakes haoc).trans hwakes)
    refine ⟨_, (atFabric_up s t (fun s => suspendTimeout s x) hfab).trans (congrArg _ (hgo.trans hin)), hfab', ?_,
      (congrArg (· % 2) htime).trans htold, hpend'.trans hpend, hnow'.trans hnow⟩
    rw [haoc', haoc, hnow]
    rfl
  case trimIn =>
    intro s t hfab he hp htol
    exact (atFabric_up s t trimEnter hfab).trans (congrArg _ (trimEnter_takes (s := advance s t) hp htol he))
  case trimOut =>
    intro s t hfab hp
    exact (atFabric_up s t trimExit hfab).trans (congrArg _ (trimExit_takes (s := advance s t) hp))
  case wakePark =>
    intro s t m he hp hwarm hm
    have hp' : (advance s t).aoc.power = 2 := hp
    obtain ⟨k, hk⟩ := wakeEvent_wakes (s := advance s t) (mask := m) he hp'.ge (by rw [hp']; exact hm)
    obtain ⟨hfab, haoc, hrow, hstart, hlast, hreqs, hw⟩ := wakeResumed_fields (advance s t) k hp'
    exact ⟨_, (atTime_runs t (fun s => wakeEvent s m) s).trans (congrArg _ (hk.trans (wakeUp_resumes hp' hwarm))), hfab, haoc, hrow,
      hstart, hlast, hreqs, hw.blocksOnly, hw.eq_frame⟩
  case wakeEntry =>
    intro s t m st a he
    exact (atTime_runs t (fun s => wakeEvent s m) s).trans (congrArg _ (wakeEvent_entering (s := advance s t) he))
  case wakeWarm =>
    intro s t m he hp hwarm hm
    have hp' : (advance s t).aoc.power = 2 := hp
    obtain ⟨k, hk⟩ := wakeEvent_wakes (s := advance s t) (mask := m) he hp'.ge (by rw [hp']; exact hm)
    have hn := wakeNoted_within (advance s t) k
    obtain ⟨hfab, hpow, hcast, hstage, hkind, hsource, hreqs, hpend⟩ := wakeReset_fields (wakeNoted (advance s t) k) kindWarm 8 (by decide)
    exact ⟨_, (atTime_runs t (fun s => wakeEvent s m) s).trans (congrArg _ (hk.trans (wakeUp_warm hp' hwarm))), hfab, hpow,
      hcast.trans (congrArg (fun n => some (n, firstStage kindWarm)) (hn.now.resolve_left (by simp))), hstage, hkind, hsource, hreqs,
      hpend.trans (hn.pending.resolve_left (by simp))⟩
  case wakeFull =>
    intro s t m he hmin hmax hm
    obtain ⟨k, hk⟩ := wakeEvent_wakes (s := advance s t) (mask := m) he (by show 2 ≤ s.aoc.power; omega) hm
    have hn := wakeNoted_within (advance s t) k
    have hne : (advance s t).aoc.power ≠ pwPark := by
      show s.aoc.power ≠ 2
      omega
    have hcode : (if (advance s t).aoc.power = pwDeep then 4 else 5) % 2 ^ R.AOC_RESET_CAUSE_SOURCE.width = s.aoc.power + 1 := by
      show (if s.aoc.power = 3 then 4 else 5) % 16 = s.aoc.power + 1
      split <;> omega
    obtain ⟨hfab, hpow, hcast, hstage, hkind, hsource, hreqs, hpend⟩ :=
      wakeReset_fields (wakeNoted (advance s t) k) kindFull (if (advance s t).aoc.power = pwDeep then 4 else 5) (by decide)
    exact ⟨_, (atTime_runs t (fun s => wakeEvent s m) s).trans (congrArg _ (hk.trans (wakeUp_full hne))), hfab, hpow,
      hcast.trans (congrArg (fun n => some (n, firstStage kindFull)) (hn.now.resolve_left (by simp))), hstage, hkind,
      hsource.trans hcode, hreqs, hpend.trans (hn.pending.resolve_left (by simp))⟩
  case wakeMasked =>
    intro s t m he hp hm
    exact (atTime_runs t (fun s => wakeEvent s m) s).trans (congrArg _ (wakeEvent_unmasked (s := advance s t) he hp hm))
  case ignLow =>
    intro s t mv hmv hp hlogic hoff hb
    obtain ⟨h100, hlevel, hw, haoc⟩ := ignRead_told (advance s t) (fun a => { a with ignOff := some (advance s t).now }) evPwrIgnOff mv.isLt
      (by decide : 0 < 2)
    exact ⟨_, (atTime_runs t (fun s => ignOff s mv) s).trans (congrArg _ (ignOff_low (s := advance s t) hmv hp hlogic hoff hb)), haoc,
      h100, hlevel, hw.blocksOnly, hw.eq_frame⟩
  case ignBack =>
    intro s t mv a hmv hp he hb hoff
    obtain ⟨h100, hlevel, hw, haoc⟩ := ignRead_told (advance s t) (fun a => { a with ignOff := none }) evPwrIgnOn mv.isLt (by decide : 1 < 2)
    exact ⟨_, (atTime_runs t (fun s => ignHigh s mv) s).trans (congrArg _ (ignHigh_cancels (s := advance s t) hmv hp he hb hoff)), haoc,
      h100, hlevel, hw.blocksOnly, hw.eq_frame⟩
  case bindDelay =>
    intro s t x a hfab he hb hcast hoff hdue hpos
    have hgo : bindStart (advance s t) x = bindBegin (advance s t) x := by
      unfold bindStart
      rw [if_neg (by simp [show binding (advance s t) = false from hb]), show (advance s t).aoc.ignOff = some a from hoff]
      exact if_pos ⟨by rw [show (advance s t).aoc.castFrom = none from hcast]; rfl,
        by rw [show (advance s t).aoc.entry = none from he]; rfl, hdue⟩
    obtain ⟨hbind, hstep, haoc, harm, hsafe, hfab', hpend, -⟩ := bindSafed_fields (advance s t)
    exact ⟨_, (atFabric_up s t (fun s => bindStart s x) hfab).trans (congrArg _ (hgo.trans (bindBegin_eq hpos))), hbind, hstep, haoc,
      harm, hsafe, hfab'.trans hfab, hpend⟩
  case bindAsked =>
    intro s t x hfab he hb hpos
    have hgo : bindNow (advance s t) x = bindBegin (advance s t) x := if_neg (by
      rw [show binding (advance s t) = false from hb, show (advance s t).aoc.entry = none from he]
      simp)
    obtain ⟨hbind, hstep, haoc, harm, hsafe, hfab', hpend, -⟩ := bindSafed_fields (advance s t)
    exact ⟨_, (atFabric_up s t (fun s => bindNow s x) hfab).trans (congrArg _ (hgo.trans (bindBegin_eq hpos))), hbind, hstep, haoc,
      harm, hsafe, hfab'.trans hfab, hpend⟩
  case bindTiles =>
    intro s t x hfab hb hstep hf
    have hgo : bindStart (advance s t) x = bindRun (advance s t) x := if_pos hb
    exact (atFabric_up s t (fun s => bindStart s x) hfab).trans (congrArg _ (hgo.trans (bindRun_stays hb (bindOnce_tiles hstep hf))))
  case tilesLate =>
    intro s t x hfab he hb hstep hf hback hdue
    obtain ⟨hsix, haoc, htime, hsaved, hw⟩ := bindLate_fields (advance s t) x
    exact ⟨_, (atFabric_up s t (fun s => bindTileTimeout s x) hfab).trans
      (congrArg _ (bindTileTimeout_late (s := advance s t) hb hstep hf hback hdue)), hsix, haoc, htime, hw.sto.resolve_left (by simp),
      hsaved, hw.blocksOnly, hw.eq_frame⟩
  case tc10 =>
    intro s t p hfab hp he hwake hen
    have hgo := tc10Rx_up (s := advance s t) hfab hp he p.isLt hwake
    have hw : Within [.regs, .eth, .mem, .extMem, .log] (blks [.eth, .hlm, .jrn]) (advance s t)
        (raiseEv (ethLinkUp (advance s t) p) evEthWake p) := raiseEv_within.step (ethLinkUp_within.mono rfl rfl) rfl rfl
    have hev (u : State) (f : Fld) (hf : f.id / 128 = blkCode .eth) : rget (raiseEv u evEthWake p) f p = rget u f p :=
      raiseEv_within.rget f p 0 (by rw [hf]; decide)
    refine ⟨_, (atTime_runs t (fun s => tc10Rx s p) s).trans (congrArg _ hgo), ?_, ?_, hw.blocksOnly, hw.eq_frame⟩
    · rw [hev _ _ rfl, ethLinkUp_eq (s := advance s t) hen, rget_rset_ne _ _ _ _ _ _ (by decide), rget_rset_self]
      decide
    · rw [hev _ _ rfl, ethLinkUp_eq (s := advance s t) hen, rget_rset_self]
      decide

end Sys2Proof.Machine
end

section
/-! O59: the commands of power, reset and cast-on complete (R407–R423). -/

namespace Sys2Proof.Machine

theorem deepDescent_due {s : State} (hp : s.aoc.power = 2) (hm : rget s R.AOC_PARK_CFG_DEEP_AFTER_MIN ≠ 0)
    (hdue : s.aoc.parkedAt + rget s R.AOC_PARK_CFG_DEEP_AFTER_MIN * 60 * fcSec ≤ s.now) (htol : 3500000 ≤ tolerance s) :
    deepDescent s = modAoc (panelDark (panelDark s 0) 1) fun a => { a with power := pwDeep } := if_pos ⟨hp, hm, hdue, htol⟩

theorem panelsDark_within (s : State) : Within [.regs, .pnl] (blks [.pnl]) s (panelDark (panelDark s 0) 1) :=
  panelDark_within.step (panelDark_within.mono rfl rfl) rfl rfl

/-- Settles O59. -/
theorem powerComplete : Obligations.PowerComplete := by
  unfold Obligations.PowerComplete
  obtain ⟨-, -, -, -, deep, -, -, -, -, drainEnters, readyEnters, -, -, lateWaits, -, trimIn, trimOut, wakePark, -, -, -, -, ignLow,
    ignBack, bindDelay, bindAsked, -, tilesLate, tc10⟩ := powerStates
  obtain ⟨throttle, qualified, -, unverified, -, -, -, -, ready, fails, aon, -, reset, -, kick, expiry, -, -⟩ := startingAndReset
  refine ⟨?deep, ?drain, ?suspend, ?late, ?trimIn, ?trimOut, ?wake, ?ignLow, ?ignBack, ?bindDelay, ?bindAsked, ?tiles, ?tc10, ?throttle,
    ?qualified, ?cast, ?ready, ?fails, ?aon, ?reset, ?kick, ?expiry, ?descent⟩
  case deep =>
    intro s t x h1 h2 h3 h4 h5 h6 h7 h8 h9 h10 h11
    obtain ⟨u, hu, hfab, haoc, -⟩ := deep s t x h1 h2 h3 h4 h5 h6 h7 h8 h9 h10 h11
    exact ⟨u, hu, hfab, haoc⟩
  case drain =>
    intro s t x a st h1 h2 h3 h4 h5 h6 h7
    obtain ⟨u, hu, hfab, haoc, -⟩ := drainEnters s t x a st h1 h2 h3 h4 h5 h6 h7
    exact ⟨u, hu, hfab, haoc⟩
  case suspend =>
    intro s t x a b h1 h2 h3 h4 h5 h6
    obtain ⟨u, hu, hfab, haoc, -⟩ := readyEnters s t x a b h1 h2 h3 h4 h5 h6
    exact ⟨u, hu, hfab, haoc⟩
  case late =>
    intro s t x a b st h1 h2 h3 h4 h5 h6 h7 h8
    obtain ⟨u, hu, haoc, htold, -⟩ := lateWaits s t x a b st h1 h2 h3 h4 h5 h6 h7 h8
    exact ⟨u, hu, haoc, htold⟩
  case trimIn =>
    intro s t h1 h2 h3 h4
    exact ⟨_, trimIn s t h1 h2 h3 h4, rfl⟩
  case trimOut =>
    intro s t h1 h2
    exact ⟨_, trimOut s t h1 h2, rfl, rget_rset_self _ _ _ _ _⟩
  case wake =>
    intro s t m h1 h2 h3 h4
    obtain ⟨u, hu, hfab, haoc, -, -, hlast, -⟩ := wakePark s t m h1 h2 h3 h4
    exact ⟨u, hu, hfab, haoc, hlast⟩
  case ignLow =>
    intro s t mv h1 h2 h3 h4 h5
    obtain ⟨u, hu, haoc, -, hlevel, -⟩ := ignLow s t mv h1 h2 h3 h4 h5
    exact ⟨u, hu, haoc, hlevel⟩
  case ignBack =>
    intro s t mv a h1 h2 h3 h4 h5
    obtain ⟨u, hu, haoc, -, hlevel, -⟩ := ignBack s t mv a h1 h2 h3 h4 h5
    exact ⟨u, hu, haoc, hlevel⟩
  case bindDelay =>
    intro s t x a h1 h2 h3 h4 h5 h6 h7
    obtain ⟨u, hu, hbind, hstep, -⟩ := bindDelay s t x a h1 h2 h3 h4 h5 h6 h7
    exact ⟨u, hu, hbind, hstep⟩
  case bindAsked =>
    intro s t x h1 h2 h3 h4
    obtain ⟨u, hu, hbind, hstep, -⟩ := bindAsked s t x h1 h2 h3 h4
    exact ⟨u, hu, hbind, hstep⟩
  case tiles =>
    intro s t x h1 h2 h3 h4 h5 h6 h7
    obtain ⟨u, hu, hstep, -, htold, -⟩ := tilesLate s t x h1 h2 h3 h4 h5 h6 h7
    exact ⟨u, hu, hstep, htold⟩
  case tc10 =>
    intro s t p h1 h2 h3 h4 h5
    obtain ⟨u, hu, hup, hasleep, -⟩ := tc10 s t p h1 h2 h3 h4 h5
    exact ⟨u, hu, hup, hasleep⟩
  case throttle =>
    intro s t mv h1
    obtain ⟨hmv, hlow, -⟩ := logicThrottle_fields (advance s t) mv.isLt
    exact ⟨_, throttle s t mv h1, hmv, hlow⟩
  case qualified =>
    intro s t mv h1 h2 h3
    obtain ⟨u, hu, haoc, hmv, -⟩ := qualified s t mv h1 h2 h3
    exact ⟨u, hu, haoc, hmv⟩
  case cast =>
    intro s t x a h1 h2 h3 h4 h5 h6 h7 h8
    obtain ⟨u, hu, hfab, -, -, -, hstage, -⟩ := unverified s t x a h1 h2 h3 h4 h5 h6 h7 h8
    exact ⟨u, hu, hfab, hstage⟩
  case ready =>
    intro s t a f h1 h2 h3
    obtain ⟨u, hu, haoc, hstage, -⟩ := ready s t a f h1 h2 h3
    exact ⟨u, hu, haoc, hstage⟩
  case fails =>
    intro s t mv n h1 h2
    obtain ⟨u, hu, hfab, -, -, hlogic, -, -, hkind, hsource, -⟩ := fails s t mv n h1 h2
    exact ⟨u, hu, hfab, hlogic, hkind, hsource⟩
  case aon =>
    intro s t mv h1
    obtain ⟨u, hu, hfab, -, -, haoc, -⟩ := aon s t mv h1
    exact ⟨u, hu, hfab, haoc⟩
  case reset =>
    intro s t k w c h1 h2 h3
    obtain ⟨u, hu, hfab, -, hcast, -, hkind, hsource, -⟩ := reset s t k w c h1 h2 h3
    exact ⟨u, hu, hfab, hcast, hkind, hsource⟩
  case kick =>
    intro s t h1
    exact ⟨_, kick s t h1, rfl⟩
  case expiry =>
    intro s t h1 h2 h3 h4
    obtain ⟨u, hu, hfab, -, -, hkind, hsource, -⟩ := expiry s t h1 h2 h3 h4
    exact ⟨u, hu, hfab, hkind, hsource⟩
  case descent =>
    intro s t h1 h2 h3 h4
    refine ⟨_, (atTime_runs t deepDescent s).trans (congrArg _ (deepDescent_due (s := advance s t) h1 h2 h3 h4)), ?_⟩
    exact congrArg (fun a : Aoc => { a with power := pwDeep }) ((panelsDark_within (advance s t)).aoc.resolve_left (by simp))

end Sys2Proof.Machine
end
